-- ==== Sys2Proof/Word.lean ====
section
/-! DEFINITION. The word types of the module and their plainest arithmetic: 32-bit registers (R5), bytes, and the modulo
2^32 comparison of sequence, frame and epoch numbers (R21). -/

namespace Sys2Proof

/-- A register of the control space (R5). -/
abbrev Word := BitVec 32

/-- A byte of memory, of a tile or of an image. -/
abbrev Byte := BitVec 8

/-- R21: `a` is later than `b` when (a − b) mod 2^32 lies between 1 and 2^31 − 1. -/
def later (a b : Nat) : Bool :=
  let d := (a + 2 ^ 32 - b % 2 ^ 32) % 2 ^ 32
  decide (1 ≤ d) && decide (d < 2 ^ 31)

/-- Bits `lo + w - 1 : lo` of a number. -/
def bits (n lo w : Nat) : Nat := n / 2 ^ lo % 2 ^ w

/-- `n` rounded up to a multiple of `m`. -/
def roundUp (n m : Nat) : Nat := (n + m - 1) / m * m

/-- `n` divided by `m`, rounded up. -/
def ceilDiv (n m : Nat) : Nat := (n + m - 1) / m

/-- A saturating 32-bit count: one event more. -/
def satInc (n k : Nat) : Nat := min (n + k) (2 ^ 32 - 1)

end Sys2Proof
end

