-- ==== Sys2Proof/Syntax.lean ====
section
/-! DEFINITION. The commands of the block: writes and reads of its registers by its three agents, events on its pins,
links and clocks, and the steps its own engines take, one constructor for each row of the command table. Operands carry
what comes from outside the block: the writing agent, the value written, the bytes that arrive. -/

namespace Sys2Proof

/-- Who writes a register: a control unit through its command port (R411) or the host through BAR0 (R393).
(DEDUCED, log entry 132) -/
inductive Agent where
  | phobos | deimos | host
  deriving DecidableEq, Repr

/-- The width of a bus write (R7, R39). -/
inductive Size where
  | byte | half | word
  deriving DecidableEq, Repr

/-- Bytes of a bus write. -/
def Size.len : Size → Nat
  | .byte => 1 | .half => 2 | .word => 4

/-- A reservation as it reaches the HQ block (R103, R104): the requester's mesh node ID, the NODE_ID and task slot it
acts for, the stream that takes sequence numbers, the number of entries, the queue, and the other queues of the same output port,
which take a copy of each tile (R52). -/
structure ResReq where
  mesh : Nat
  node : Nat
  slot : Nat
  stream : Nat
  n : Nat
  qid : Nat
  copies : List Nat
  deriving DecidableEq, Repr

/-- One access by a requester: its mesh node ID (R125), for host-side DMA its channel (R151), whether it translates and through
which space, its address, its length in bytes and its direction. -/
structure Access where
  mesh : BitVec 16
  chan : Fin 32
  translated : Bool
  space : BitVec 8
  addr : BitVec 48
  len : Nat
  write : Bool
  deriving DecidableEq, Repr

/-- Where a faulting requester stands in its work (R156): the restart point, and the partly accumulated seal. -/
structure StopPoint where
  restart : Nat
  sealState : Nat
  sealAcc : Word
  sealSeq : Word
  sealBytes : Nat
  vstart : Nat
  deriving DecidableEq, Repr

/-- R137, R138: the bits a read of a QDR burst gets wrong, by byte lane: lane i mod 4 of beat i / 4 carries data byte i in bits 0 to
7 and check bit i in bit 8. -/
abbrev BurstFlips := List (BitVec 9)

/-- R364: a PTP event or general message as it arrives: its network port, domain, sender, sequence number, two-step flag,
the time it carries in ns and its correctionField in units of 2^−16 ns. -/
structure PtpMsg where
  port : BitVec 3
  domain : BitVec 8
  source : BitVec 64
  seq : BitVec 16
  twoStep : Bool
  timeNs : Nat
  correction : Int
  deriving DecidableEq, Repr

/-- R364, R365: what an Announce message carries, with the local offset of an SM TLV when it has one. -/
structure AnnounceData where
  prio1 : Nat := 0
  clockClass : Nat := 0
  accuracy : Nat := 0
  variance : Nat := 0
  prio2 : Nat := 0
  gm : Nat := 0
  steps : Nat := 0
  utc : Nat := 0
  utcValid : Bool := false
  smLocal : Option (BitVec 32 × Bool) := none
  deriving DecidableEq, Repr

/-- R195: a packet of the sensor link as the receiver sees it: its 16 header bytes, its payload, the payload CRC, and the
lanes of the group on which a code or column error fell inside it (R191). -/
structure SlkPacket where
  header : List Byte
  payload : List Byte
  crc : BitVec 32
  errors : List (Fin 9)
  deriving DecidableEq, Repr

/-- What coding one CTU row of a tile column came to, by ITU-T H.265 and the encoder's own choices (R270): the bytes of the
NAL units before the slices (read with a picture's first row), the bits of the row's headers, each CTU's bits coded normally
and as a floor CTU, the bytes of the slice segment that ends with the row, and the row's bytes in the picture store: its
reconstructed samples and motion field (R269). -/
structure CtuRow where
  pre : List Byte
  header : Nat
  ctus : List (Nat × Nat)
  slice : List Byte
  recon : List Byte
  deriving DecidableEq, Repr

/-- R285, R286: what an SPS says of a sequence: its profile and level, chroma_format_idc, sps_max_num_reorder_pics,
sps_max_dec_pic_buffering, SpsMaxLatencyPictures (0 for none), the CTB size, the coded size, and the conformance window. -/
structure SeqInfo where
  profile : Nat := 0
  level : Nat := 0
  chroma : Nat := 1
  reorder : Nat := 0
  maxDec : Nat := 1
  latency : Nat := 0
  ctb : Nat := 64
  codedW : Nat := 0
  codedH : Nat := 0
  cropX : Nat := 0
  cropY : Nat := 0
  width : Nat := 0
  height : Nat := 0
  deriving DecidableEq, Repr

/-- R286: the samples of a decoded picture at its coded size: 4:2:0, row by row, at 8 or 10 bits. -/
structure DecPlanes where
  tenBit : Bool := false
  y : List Nat := []
  cb : List Nat := []
  cr : List Nat := []
  deriving DecidableEq, Repr

/-- R286, R287: a coded picture: its kind, pic_output_flag and no_output_of_prior_pics_flag, its POC, the POCs of the references its
RPS names, the CTU addresses of each slice that fails to parse, its decoded samples, and its bytes in the DPB buffer. -/
structure CodedPic where
  irap : Bool := false
  rasl : Bool := false
  newSequence : Bool := false
  output : Bool := true
  noPrior : Bool := false
  poc : Int := 0
  refs : List Int := []
  bad : List (List Nat) := []
  planes : DecPlanes := {}
  store : List Byte := []
  deriving DecidableEq, Repr

/-- What the NAL units of a chunk come to by ITU-T H.265, in arrival order (R286, R287): an SPS, a recovery-point SEI, or a
coded picture. -/
inductive DecEvent where
  | sps (x : SeqInfo)
  | recovery (pocCnt : Int)
  | picture (x : CodedPic)
  deriving DecidableEq, Repr

/-- R402: how an I²C transfer ends: with the bytes read, without an acknowledgement, or with arbitration lost. -/
inductive I2cResult where
  | done (read : List Byte)
  | nack
  | arbLost
  deriving DecidableEq, Repr

/-- R162, R458, R459: the board as the cold start finds it: the modes the boot flash's JESD216 parameters declare, its size, its
contents by offset, and the QDR channels that do not train. -/
structure BootDev where
  octal : Bool
  quad : Bool
  size : Nat
  segs : List (Nat × List Byte)
  qdrDead : BitVec 8
  deriving DecidableEq, Repr

/-- R440: what the Keeper sees in an ao-tick of Midnight: the wake sources whose conditions hold, the power die's temperature in
1/16 °C, and the ao-ticks counted since Dusk. -/
structure WakeTick where
  wakeN : Bool := false
  alarm : Bool := false
  rise : Option (BitVec 16 × BitVec 16) := none
  temp : Int := 0
  ticks : Nat := 0
  deriving DecidableEq, Repr

/-- R477, R481: what a self-test came to: the count reached, whether it ran to its end, and the signature. -/
structure TestEnd where
  count : Nat := 0
  complete : Bool := false
  sigValid : Bool := false
  sig : BitVec 64 := 0
  deriving DecidableEq, Repr

/-- The commands and events of the block: one constructor for each row of spec/opcode_table.json, in its order.
(DESIGN CHOICE, log entry 131) -/
inductive Instr where
  /-- REGISTER_WRITE (R8). -/
  | registerWrite (src : Agent) (off : BitVec 24) (size : Size) (val : Word)
  /-- SEAL_HALT_CLR (R30). -/
  | sealHaltClr (src : Agent) (val : Word)
  /-- SEAL_EVT_POP (R35). -/
  | sealEvtPop (src : Agent) (val : Word)
  /-- CLR_COUNTS (R36). -/
  | clrCounts (src : Agent) (val : Word) (inc : BitVec 6)
  /-- CKV_START (R42). -/
  | ckvStart (src : Agent) (unit : Fin 4) (val : Word)
  /-- CKV_DATA_WRITE (R39). -/
  | ckvDataWrite (src : Agent) (unit : Fin 4) (lane : Fin 4) (size : Size) (val : Word)
  /-- CKV_BYTE_CONSUMED (R40). -/
  | ckvByteConsumed (unit : Fin 4)
  /-- CKV_RESULT_READ (R41). -/
  | ckvResultRead (unit : Fin 4) (which : Fin 3)
  /-- LOAD (R79). -/
  | load (src : Agent) (val : Word)
  /-- ARM (R81). -/
  | arm (src : Agent) (val : Word)
  /-- STR_CANCEL (R79). -/
  | strCancel (src : Agent) (val : Word)
  /-- RETIRE_FORCE (R90). -/
  | retireForce (src : Agent) (val : Word)
  /-- VALIDATION_DONE (R77). -/
  | validationDone
  /-- PREPARATION_DONE (R80). -/
  | preparationDone
  /-- TIMEBASE_EPOCH (R62). -/
  | timebaseEpoch (tb : Fin 16) (cancel : Bool)
  /-- TIMEBASE_LOST (R84). -/
  | timebaseLost (tb : Fin 16)
  /-- HQ_ALLOC (R96). -/
  | hqAlloc (src : Agent) (pairB : Bool) (val : Word)
  /-- HQ_QCFG_WRITE (R126). -/
  | hqQcfgWrite (src : Agent) (which : Fin 3) (val : Word)
  /-- ENABLE (R126). -/
  | enable (src : Agent)
  /-- DISABLE (R126). -/
  | disable (src : Agent)
  /-- QCMD_FREE (R126). -/
  | qcmdFree (src : Agent)
  /-- FLUSH (R126). -/
  | flush (src : Agent)
  /-- CLEAR_HIGH_WATER (R126). -/
  | clearHighWater (src : Agent)
  /-- HQ_DB_PUSH (R109). -/
  | hqDbPush (src : Agent) (val : Word)
  /-- HQ_DB_POP (R109). -/
  | hqDbPop (src : Agent) (val : Word)
  /-- DESCRIPTOR_WRITE_DENIED (R98). -/
  | descriptorWriteDenied (addr : BitVec 40) (bytes : List Byte)
  /-- RESERVATION (R104). -/
  | reservation (qid : BitVec 16) (reqs : List ResReq)
  /-- RESERVATION_RETRY (R103). -/
  | reservationRetry (qid : BitVec 16)
  /-- ENTRY_COMMIT (R101). -/
  | entryCommit (qid idx : BitVec 16) (addr : BitVec 40) (eflags : Byte) (len16 : BitVec 16) (seq : Word)
  /-- ENTRY_POP (R105). -/
  | entryPop (qid idx : BitVec 16)
  /-- TASK_CREATE (R112). -/
  | taskCreate (node : BitVec 16)
  /-- TASK_DISPATCH (R117). -/
  | taskDispatch (list : Fin 17)
  /-- PREEMPT_REQUEST (R118). -/
  | preemptRequest (slot : Fin 8192)
  /-- PREEMPT_GRACE_EXPIRY (R119). -/
  | preemptGraceExpiry (cluster : Fin 16)
  /-- TASK_RESUME (R120). -/
  | taskResume (unit : Fin 144)
  /-- SCH_CANCEL (R121). -/
  | schCancel (src : Agent) (val : Word) (completed : List (Fin 8192 × BitVec 16))
  /-- HIST_CLR (R127). -/
  | histClr (src : Agent) (mon : Fin 4) (val : Word)
  /-- LOAD_WINDOW_END (R127). -/
  | loadWindowEnd
  /-- CLR_HIGH (R136). -/
  | clrHigh (src : Agent) (val : Word)
  /-- HOLE_ACCESS (R130). -/
  | holeAccess (acc : Access)
  /-- SYSREG_WRITE (R133). -/
  | sysregWrite (addr : BitVec 40) (bytes : List Byte)
  /-- QDR_READ_CHECK (R140). -/
  | qdrReadCheck (addr : BitVec 40) (first second : BurstFlips) (rmw : Option (Fin 16 × List Byte))
  /-- RETRAIN (R141). -/
  | retrain (src : Agent) (val : Word) (trains : Bool)
  /-- DRIFT_LIMIT (R141). -/
  | driftLimit (ch : Fin 8) (steps : Fin 65)
  /-- QDR_ERR_POP (R160). -/
  | qdrErrPop (src : Agent) (val : Word)
  /-- XLT_SPACE_REQ (R143). -/
  | xltSpaceReq (src : Agent) (val : Word)
  /-- SPACE_ENABLE (R143). -/
  | spaceEnable (src : Agent)
  /-- SPACE_DISABLE (R143). -/
  | spaceDisable (src : Agent)
  /-- SPACE_FREE (R143). -/
  | spaceFree (src : Agent)
  /-- SPACE_ROOT_WRITE (R143). -/
  | spaceRootWrite (src : Agent) (hi : Bool) (val : Word)
  /-- XLT_INV_CMD (R147). -/
  | xltInvCmd (src : Agent) (val : Word)
  /-- INVALIDATION_DONE (R147). -/
  | invalidationDone
  /-- TRANSLATION_FAULT (R151). -/
  | translationFault (acc : Access) (stop : StopPoint) (badLevel : Fin 4)
  /-- FAULT_QUEUE_WAIT_END (R152). -/
  | faultQueueWaitEnd
  /-- RETRY (R153). -/
  | retry (src : Agent)
  /-- ABORT (R156). -/
  | abort (src : Agent)
  /-- RETRY_SPACE (R153). -/
  | retrySpace (src : Agent)
  /-- DMA_DB (R159). -/
  | dmaDb (src : Agent) (mover : Fin 16) (val : Word)
  /-- DESCRIPTOR_EXECUTE (R150). -/
  | descriptorExecute (mover : Fin 16)
  /-- DESCRIPTOR_COMPLETE (R150). -/
  | descriptorComplete (mover : Fin 16)
  /-- TGET (R172). -/
  | tget (eng : Fin 128) (pc : Word) (rd : Fin 32) (rs1 : Word) (imm : BitVec 12)
  /-- TPUT (R173). -/
  | tput (eng : Fin 128) (pc : Word) (rd : Fin 32) (rs1 : Word) (imm : BitVec 12)
  /-- TCHK (R174). -/
  | tchk (eng : Fin 128) (pc : Word) (rd : Fin 32) (rs1 : Word) (imm : BitVec 12)
  /-- QSIG (R175). -/
  | qsig (eng : Fin 128) (pc : Word) (rd : Fin 32) (rs1 rs2 : Word) (funct7 : BitVec 7)
  /-- QWAIT (R175). -/
  | qwait (eng : Fin 128) (pc : Word) (rd : Fin 32) (rs1 rs2 : Word) (funct7 : BitVec 7)
  /-- PPT (R176). -/
  | ppt (eng : Fin 128) (pc : Word)
  /-- ECALL (R170). -/
  | ecall (eng : Fin 128) (a0 : Word)
  /-- ENGINE_TRAP (R164). -/
  | engineTrap (eng : Fin 128) (cause : Byte) (tval pc : Word)
  /-- INSTALL (R181). -/
  | install (src : Agent) (val : Word)
  /-- LIB_LOAD (R182). -/
  | libLoad (src : Agent) (val : Word)
  /-- LIB_OPERATION_DONE (R185). -/
  | libOperationDone
  /-- CNT_CLR (R184). -/
  | cntClr (src : Agent) (val : Word)
  /-- GROUP_ENABLE (R215). -/
  | groupEnable (src : Agent) (group : Fin 4) (val : Word)
  /-- SLK_CNT_CLR (R215). -/
  | slkCntClr (src : Agent) (group : Fin 4) (val : Word) (inc : BitVec 18)
  /-- CDR_LOCKED (R193). -/
  | cdrLocked (lane : Fin 36)
  /-- LANE_ALIGNED (R193). -/
  | laneAligned (lane : Fin 36)
  /-- LANE_ALIGN_LOSS (R190). -/
  | laneAlignLoss (lane : Fin 36) (groups : List (BitVec 10))
  /-- DESKEW (R193). -/
  | deskew (group : Fin 4) (skews : List Byte) (together : Bool)
  /-- FS (R199). -/
  | fs (group : Fin 4) (pkt : SlkPacket) (cancel : Bool)
  /-- FE (R202). -/
  | fe (group : Fin 4) (pkt : SlkPacket)
  /-- LINE (R200). -/
  | line (group : Fin 4) (pkt : SlkPacket)
  /-- EMB (R205). -/
  | emb (group : Fin 4) (pkt : SlkPacket)
  /-- CMD_RSP (R207). -/
  | cmdRsp (group : Fin 4) (pkt : SlkPacket)
  /-- TEST (R213). -/
  | test (group : Fin 4) (pkt : SlkPacket)
  /-- TILE_ROW_EMIT (R201). -/
  | tileRowEmit (node : BitVec 16)
  /-- LANE_UNDERRUN (R203). -/
  | laneUnderrun (group : Fin 4)
  /-- SEQ_START (R210). -/
  | seqStart (src : Agent) (group : Fin 4) (val : Word)
  /-- SEQ_STOP (R210). -/
  | seqStop (src : Agent) (group : Fin 4) (val : Word)
  /-- SEQ_ENTRY (R209). -/
  | seqEntry (group : Fin 4)
  /-- SEQ_RSP_TIMEOUT (R209). -/
  | seqRspTimeout (group : Fin 4)
  /-- SPARE_TAKEOVER (R212). -/
  | spareTakeover (src : Agent) (group : Fin 4) (val : Word)
  /-- RELEASE (R212). -/
  | release (src : Agent) (group : Fin 4) (val : Word)
  /-- SPARE_MATCH (R212). -/
  | spareMatch (group : Fin 4)
  /-- SPARE_FAIL (R212). -/
  | spareFail (group : Fin 4)
  /-- MIRROR (R211). -/
  | mirror (group : Fin 4)
  /-- TEST_GO (R213). -/
  | testGo (src : Agent) (group : Fin 4) (val : Word)
  /-- TEST_RUN_END (R213). -/
  | testRunEnd (group : Fin 4)
  /-- CLOCK_LOST (R214). -/
  | clockLost (group : Fin 4)
  /-- CLOCK_WINDOW_END (R214). -/
  | clockWindowEnd (group : Fin 4) (ppm : Int)
  /-- GLITCH (R214). -/
  | glitch (group : Fin 4)
  /-- MAG_PORT_ENABLE (R247). -/
  | magPortEnable (src : Agent) (port : Fin 4) (val : Word)
  /-- MAG_SHUTDOWN_END (R247). -/
  | magShutdownEnd (port : Fin 4)
  /-- HWQ_EN (R244). -/
  | hwqEn (src : Agent) (port : Fin 4) (val : Word)
  /-- MAG_LINK_CHANGE (R264). -/
  | magLinkChange (port : Fin 4) (up : Bool) (speed : Fin 5) (width : Fin 17)
  /-- INBOUND_REQUEST (R242). -/
  | inboundRequest (port : Fin 4) (write : Bool) (addr : BitVec 64) (len : BitVec 12) (bytes : List Byte)
  /-- MAG_P_CFGA (R266). -/
  | magPCfga (src : Agent) (port : Fin 4) (val : Word) (answer : Option Word)
  /-- EXT_COUNT_WRITE (R249). -/
  | extCountWrite (src : Agent) (port : Fin 4) (val : Word)
  /-- FRAME_ADMIT (R252). -/
  | frameAdmit (input : Fin 8)
  /-- RECORDING_TILE (R252). -/
  | recordingTile (input : Fin 8)
  /-- FRAME_DRAIN (R253). -/
  | frameDrain
  /-- NVME_COMPLETION (R245). -/
  | nvmeCompletion (port : Fin 4)
  /-- MAG_TIMEOUT (R245). -/
  | magTimeout (port : Fin 4) (cid : BitVec 16)
  /-- RECORD_ACKNOWLEDGED (R246). -/
  | recordAcknowledged (port : Fin 4)
  /-- START (R261). -/
  | start (src : Agent)
  /-- STOP (R262). -/
  | stop (src : Agent)
  /-- TAKE_ABORT (R262). -/
  | takeAbort (src : Agent)
  /-- CLOSING (R261). -/
  | closing
  /-- MAG_LOST (R264). -/
  | magLost (port : Fin 4)
  /-- ENC_INPUT_TILE (R272). -/
  | encInputTile (ctx : Fin 32)
  /-- CONTEXT_SWITCH (R276). -/
  | contextSwitch (core : Fin 4)
  /-- CTU_ROW_CODE (R274). -/
  | ctuRowCode (core : Fin 4) (row : CtuRow)
  /-- KEY (R279). -/
  | key (src : Agent) (ctx : Fin 32) (val : Word)
  /-- MARK_LT (R277). -/
  | markLt (src : Agent) (ctx : Fin 32) (val : Word)
  /-- USE_LT (R277). -/
  | useLt (src : Agent) (ctx : Fin 32) (val : Word)
  /-- ENC_STREAM_ENABLE (R280). -/
  | encStreamEnable (src : Agent) (ctx : Fin 32) (val : Word)
  /-- ENC_SHUTDOWN_END (R280). -/
  | encShutdownEnd (ctx : Fin 32)
  /-- RATE_WRITE (R304). -/
  | rateWrite (src : Agent) (ctx : Fin 32) (which : Fin 4) (val : Word)
  /-- DEC_INPUT_CHUNK (R286). -/
  | decInputChunk (events : List DecEvent)
  /-- DEC_PICTURE_OUTPUT (R286). -/
  | decPictureOutput
  /-- LAYER_TILE (R309). -/
  | layerTile (slot : Fin 32)
  /-- FRAME_BOUNDARY (R312). -/
  | frameBoundary (head : Fin 4) (cancel : Bool)
  /-- SYNC_HOLDOVER (R312). -/
  | syncHoldover (head : Fin 4) (what : Fin 3)
  /-- HEAD_ENABLE (R313). -/
  | headEnable (src : Agent) (head : Fin 4) (val : Word)
  /-- HEAD_UNDERRUN (R317). -/
  | headUnderrun (head : Fin 4) (line col : BitVec 16)
  /-- GO (R321). -/
  | go (src : Agent) (head : Fin 4) (val : Word)
  /-- COMMIT_CANCEL (R323). -/
  | commitCancel (src : Agent) (head : Fin 4) (val : Word)
  /-- COEF_LOAD_DONE (R322). -/
  | coefLoadDone (slot : Fin 32)
  /-- SDI_ENABLE (R327). -/
  | sdiEnable (src : Agent) (ser : Fin 4) (val : Word)
  /-- NET_CFG_WRITE (R331). -/
  | netCfgWrite (src : Agent) (val : Word)
  /-- NET_PORT_ENABLE (R334). -/
  | netPortEnable (src : Agent) (port : Fin 8) (val : Word)
  /-- NET_LINK_CHANGE (R334). -/
  | netLinkChange (port : Fin 8) (up : Bool)
  /-- FRAME_RECEIVE (R336). -/
  | frameReceive (port : Fin 8) (bytes : List Byte) (fcsOk : Bool)
  /-- SOFTWARE_FRAME_TX (R335). -/
  | softwareFrameTx (port : Fin 8)
  /-- SENDER_TILE (R342). -/
  | senderTile (slot : Fin 64)
  /-- SENDER_PACKET_DUE (R341). -/
  | senderPacketDue (slot : Fin 64)
  /-- FRAME_TRANSMIT (R348). -/
  | frameTransmit (port : Fin 8)
  /-- COMMIT (R353). -/
  | commit (src : Agent) (port : Fin 8) (val : Word)
  /-- GATE_CANCEL (R353). -/
  | gateCancel (src : Agent) (port : Fin 8) (val : Word) (late : Bool)
  /-- GATE_LIST_CHANGE (R353). -/
  | gateListChange (port : Fin 8)
  /-- GATE_ENTRY_CHANGE (R352). -/
  | gateEntryChange (port : Fin 8)
  /-- TSN_IDLE_WRITE (R351). -/
  | tsnIdleWrite (src : Agent) (port cls : Fin 8) (val : Word)
  /-- TSN_HI_WRITE (R351). -/
  | tsnHiWrite (src : Agent) (port cls : Fin 8) (val : Word)
  /-- SYNC (R364). -/
  | sync (msg : PtpMsg)
  /-- FOLLOW_UP (R364). -/
  | followUp (msg : PtpMsg)
  /-- DELAY_RESP (R362). -/
  | delayResp (msg : PtpMsg)
  /-- ANNOUNCE (R365). -/
  | announce (msg : PtpMsg) (data : AnnounceData)
  /-- PTP_MASTER_LOST (R365). -/
  | ptpMasterLost
  /-- PTP_MASTER_SEND (R364). -/
  | ptpMasterSend (announce : Bool)
  /-- PPS_EDGE (R366). -/
  | ppsEdge
  /-- PPS_LOST (R366). -/
  | ppsLost
  /-- SET (R371). -/
  | setTime (src : Agent) (val : Word)
  /-- ADJUST (R371). -/
  | adjust (src : Agent) (val : Word)
  /-- LATCH (R371). -/
  | latch (src : Agent) (val : Word)
  /-- AO_PPB_MEASURE (R367). -/
  | aoPpbMeasure (ppb : Word)
  /-- TPO_ENABLE (R369). -/
  | tpoEnable (src : Agent) (out : Fin 8) (val : Word)
  /-- TPO_PULSE_START (R369). -/
  | tpoPulseStart (out : Fin 8)
  /-- TPO_PULSE_END (R369). -/
  | tpoPulseEnd (out : Fin 8)
  /-- TPO_CAPTURE (R369). -/
  | tpoCapture (out : Fin 8)
  /-- SAMPLE_PERIOD (R378). -/
  | samplePeriod (port : Fin 4) (din : List Word)
  /-- AUD_TX_TILE (R382). -/
  | audTxTile (port : Fin 4)
  /-- AUD_PORT_ENABLE (R388). -/
  | audPortEnable (src : Agent) (port : Fin 4) (val : Word)
  /-- TX_MUTE (R384). -/
  | txMute (src : Agent) (port : Fin 4) (val : Word)
  /-- ZC_TIMEOUT (R384). -/
  | zcTimeout (port : Fin 4) (slot : Fin 32)
  /-- AUD_CLOCK_CHANGE (R387). -/
  | audClockChange (port : Fin 4) (lost : Bool) (ppm : Int) (glitches : Nat)
  /-- AUD_GROUP_WRITE (R381). -/
  | audGroupWrite (src : Agent) (group : Fin 4) (val : Word)
  /-- BAR0_ACCESS (R393). -/
  | bar0Access (write : Bool) (off : BitVec 24) (size : Size) (val : Word)
  /-- BAR2_ACCESS (R394). -/
  | bar2Access (off : Word) (len : BitVec 12) (write : Option (List Byte))
  /-- CPL_TIMEOUT (R395). -/
  | cplTimeout (len : BitVec 12)
  /-- HOST_RESET (R392). -/
  | hostReset (linkDown : Bool)
  /-- MSIX_MESSAGE (R396). -/
  | msixMessage
  /-- HIF_CH_DB (R400). -/
  | hifChDb (src : Agent) (ch : Fin 32) (val : Word)
  /-- HOST_OUT_TILE (R398). -/
  | hostOutTile (ch : Fin 32)
  /-- HOST_IN_ENTRY (R399). -/
  | hostInEntry (ch : Fin 32)
  /-- XSPI_GO (R401). -/
  | xspiGo (src : Agent) (val : Word) (resp : List Byte)
  /-- I2C_TRANSFER (R402). -/
  | i2cTransfer (master : Fin 4) (addr : BitVec 7) (wrote : List Byte) (result : I2cResult)
  /-- UART_RECEIVE (R403). -/
  | uartReceive (uart : Fin 4) (byte : Byte)
  /-- GPIO_EDGE (R404). -/
  | gpioEdge (pin : Fin 32) (level : Bool)
  /-- CLAIM (R412). -/
  | claim (src : Agent) (unit : Fin 2) (both : Bool)
  /-- FORCE (R420). -/
  | force (src : Agent) (unit : Fin 2)
  /-- YIELD (R418). -/
  | yield (src : Agent) (unit : Fin 2)
  /-- READY (R415). -/
  | ready (src : Agent) (unit : Fin 2)
  /-- DECLARE_FAULT (R417). -/
  | declareFault (src : Agent) (unit : Fin 2)
  /-- CLEAR_FAULT (R417). -/
  | clearFault (src : Agent) (unit : Fin 2)
  /-- DRILL (R423). -/
  | drill (src : Agent) (unit : Fin 2)
  /-- CUX_U_KICK (R417). -/
  | cuxUKick (src : Agent) (unit : Fin 2) (val : Word)
  /-- SELF_FAULT (R417). -/
  | selfFault (unit : Fin 2) (cause : Fin 3)
  /-- JTX_DB (R414). -/
  | jtxDb (src : Agent) (unit : Fin 2) (val : Word)
  /-- HEARTBEAT (R416). -/
  | heartbeat (unit : Fin 2) (pathK : Bool)
  /-- PATH_DOWN (R416). -/
  | pathDown (unit : Fin 2) (pathK : Bool)
  /-- SWITCH_OVER_GAP_END (R418). -/
  | switchOverGapEnd (cycles : BitVec 16)
  /-- DOORBELL_HOLD (R419). -/
  | doorbellHold (src : Agent) (off : BitVec 24) (val : Word)
  /-- OWNERSHIP_LOST (R421). -/
  | ownershipLost (cycles : BitVec 16)
  /-- RETURN (R422). -/
  | returnPref
  /-- DRILL_END (R423). -/
  | drillEnd
  /-- UNDER_VOLTAGE_LOCKOUT (R429). -/
  | underVoltageLockout (vin : BitVec 16)
  /-- OVER_TEMP (R430). -/
  | overTemp (die : Fin 4) (temp : Int)
  /-- TEMP_WARN (R450). -/
  | tempWarn (die : Fin 4)
  /-- LOW_INPUT (R435). -/
  | lowInput
  /-- LOWIN_1S (R435). -/
  | lowin1s
  /-- TELEMETRY_SAMPLE (R434). -/
  | telemetrySample (mv ma : BitVec 16) (temps : Option (List Int))
  /-- SLEEP (R437). -/
  | sleep (src : Agent) (val : Word)
  /-- DUSK_STEP_END (R438). -/
  | duskStepEnd
  /-- WAKE_SOURCE (R440). -/
  | wakeSource (tick : WakeTick)
  /-- ISLAND_DEMAND (R444). -/
  | islandDemand (island : Fin 32)
  /-- ISLAND_AWAKE (R443). -/
  | islandAwake (island : Fin 32)
  /-- IDLE_COUNT_EXPIRY (R443). -/
  | idleCountExpiry (island : Fin 32)
  /-- ISLAND_ASLEEP (R445). -/
  | islandAsleep (island : Fin 32)
  /-- FORCE_AWAKE (R446). -/
  | forceAwake (src : Agent) (island : Fin 32) (val : Word)
  /-- CLK_FCLK_WRITE (R449). -/
  | clkFclkWrite (src : Agent) (eclk : Bool) (val : Word)
  /-- CLOCK_SWITCH (R449). -/
  | clockSwitch (domain : Fin 3)
  /-- CLK_CCLK_WRITE (R449). -/
  | clkCclkWrite (src : Agent) (unit : Fin 2) (val : Word)
  /-- COLD_START (R463). -/
  | coldStart (vin : BitVec 16) (pref : Bool) (sel : Fin 4) (dev : BootDev)
  /-- PORST (R514). -/
  | porst (us : Nat)
  /-- WARM_RESET (R454). -/
  | warmReset (src : Agent) (val : Word) (ticks : Nat)
  /-- RESTART_UNIT (R465). -/
  | restartUnit (src : Agent) (unit : Fin 2)
  /-- UNIT_RELEASE (R464). -/
  | unitRelease (unit : Fin 2)
  /-- KEEPER_WATCHDOG (R456). -/
  | keeperWatchdog
  /-- KPR_HOST_GO (R458). -/
  | kprHostGo (src : Agent) (val : Word)
  /-- FUSE_PROG_CMD (R469). -/
  | fuseProgCmd (src : Agent) (val : Word)
  /-- IDREAD (R470). -/
  | idread
  /-- IDCODE (R470). -/
  | idcode
  /-- BIST_GO (R476). -/
  | bistGo (src : Agent) (slot : Fin 8) (val : Word)
  /-- BIST_ABORT (R482). -/
  | bistAbort (src : Agent) (slot : Fin 8) (val : Word) (result : TestEnd)
  /-- BIST_RUNNING (R477). -/
  | bistRunning (slot : Fin 8)
  /-- BIST_DONE (R481). -/
  | bistDone (slot : Fin 8) (result : TestEnd)
  /-- NOW (R483). -/
  | now (src : Agent) (val : Word)
  /-- CAL_TEMP_TRIGGER (R483). -/
  | calTempTrigger
  /-- CAL_POSITION (R484). -/
  | calPosition (trims : List Nat) (spareFails underrun : Bool)
  /-- DEFERRED_ACTIVITY_START (R486). -/
  | deferredActivityStart
  /-- STAGE (R496). -/
  | stage (src : Agent) (val : Word)
  /-- STAGING_DONE (R497). -/
  | stagingDone (flashError : Option (Nat × Nat))
  /-- ACTIVATE (R498). -/
  | activate (src : Agent) (val : Word)
  /-- ACTIVATION_POINT (R498). -/
  | activationPoint (readBackOk : Bool)
  /-- HANDOVER_STEP (R500). -/
  | handoverStep
  /-- HANDOVER_TIMEOUT (R501). -/
  | handoverTimeout
  /-- UPD_CANCEL (R503). -/
  | updCancel (src : Agent) (val : Word)
  /-- DMA_TASK_COMPLETE (R105). -/
  | dmaTaskComplete (mover : Fin 16)
  /-- HOST_LINK_UP (R392). -/
  | hostLinkUp (speed : Fin 5) (width : Fin 17)
  /-- BUS_MASTER_ENABLE (R392). -/
  | busMasterEnable (bme msixEn msixMask : Bool)
  /-- DELAY_REQ (R364). -/
  | delayReq (msg : PtpMsg)
  /-- MIN_DELAY_REQ_INTERVAL (R364). -/
  | minDelayReqInterval
  /-- FUSE_READ_BACK (R469). -/
  | fuseReadBack (ok : Bool)
  /-- DMI (R471). -/
  | dmi (hart : Fin 8) (halt : Bool)
  deriving DecidableEq, Repr

end Sys2Proof
end

