-- ==== Sys2Proof/Decode.lean ====
section
/-! DEFINITION. Commands spelled as words: the command table gives no row any bits (every row's list of fields is empty), so
no word spells a command. -/

namespace Sys2Proof

/-- The command a word of `nbits` bits spells by the command table: none, since no row of the table gives bits.
(DESIGN CHOICE, log entry 2) -/
def decodeTableWord (_nbits _w : Nat) : Option Instr := none

end Sys2Proof
end

