-- ==== Sys2Proof/Config.lean ====
section
/-! DEFINITION. What the spec leaves open or takes from an outside standard, as constants with no body: no proof can
see their values, so a claim holds whatever they are. Each is named in the assumption log. -/

namespace Sys2Proof

/-- A free word: the value of an item the spec calls undefined, one per use (the counter `State.free`).
(DEDUCED, log entries 17, 39; DESIGN CHOICE, log entry 87) -/
opaque Config.freeWord : Nat → Nat

/-- A byte of memory whose contents were lost (an island slept, Midnight, a warm reset), by loss count and address.
(DESIGN CHOICE, log entry 3) -/
opaque Config.lostByte : Nat → Nat → BitVec 8

/-- A byte the module reads from a place whose contents the spec does not give (a magazine's own registers behind the port
window, R241; the internal layouts of R111 and R143), by REF cycle and address. (DESIGN CHOICE, log entry 18) -/
opaque Config.deviceByte : Nat → Nat → BitVec 8

/-- SHA-256 of a byte string (FIPS 180-4, named by R74, R182, R459): 32 bytes. (DEDUCED, log entry 24) -/
opaque Config.sha256 : List (BitVec 8) → List (BitVec 8)

/-- Ed25519 verification (RFC 8032, named by R74): key, message digest, signature. (DEDUCED, log entry 24) -/
opaque Config.ed25519 : List (BitVec 8) → List (BitVec 8) → List (BitVec 8) → Bool

/-- R232: what DEMOSAIC FULL interpolates for colour component `c` (0 R, 1 G, 2 B): the spec names the method but gives no
formula; the value depends on the CFA position and the 9 × 9 samples around the pixel (R225, R226). (DEDUCED, log entry 32) -/
opaque Config.demosaic : Nat → Nat → List Nat → Nat

/-- R229: whether a sample listed in a defect map that is out of order is corrected: an undefined subset is.
(DEDUCED, log entry 32) -/
opaque Config.mapSubset : List (BitVec 8) → Nat → Bool

/-- R344: the fields of a sender's PAT and PMT that the spec does not give, by sender slot: 0 the transport_stream_id, 1 and 2 the
version_number of the PAT and of the PMT. (PRESUMED, log entry 71) -/
opaque Config.psiField : Nat → Nat → Nat

/-- R476: the expected signature of a logic test, by TARGET and PAT_LOG2: a ROM whose contents the spec does not give.
(DEDUCED, log entry 98) -/
opaque Config.bistSignature : Nat → Nat → BitVec 64

/-- R364: the clockIdentity under which the module sends PTP messages, which the spec does not give. (PRESUMED, log entry 74) -/
opaque Config.clockIdentity : Nat

/-- R163: whether an element that the vector extension lets be agnostic takes all ones or keeps its value, by the instructions the engine
has retired and the element. (PRESUMED, log entry 143) -/
opaque Config.agnosticOnes : Nat → Nat → Bool

/-- R163: the vl an engine takes where the vector extension leaves it open, by AVL and VLMAX. (PRESUMED, log entry 143) -/
opaque Config.vectorLength : Nat → Nat → Nat

/-- R163: an unordered floating-point sum and its flags, by rounding mode and operands: the vector extension leaves the order open.
(PRESUMED, log entry 143) -/
opaque Config.unorderedSum : Nat → List Nat → Nat × Nat

/-- How often, in a REF cycle, an event that no command stands for has happened, by the control-space offset of the register that counts
it and the REF cycle: waits for mesh tags (R136), corrected errors of the units' memories (R408) and of the ports' FEC (R333); for
MESH_TAGS, the tags then in use. (DESIGN CHOICE, log entry 125) -/
opaque Config.happened : Nat → Nat → Nat

/-- R184: the fclk cycles an instruction spends stalled, by engine and instructions retired; the spec gives no such times.
(DESIGN CHOICE, log entry 41) -/
opaque Config.stallCycles : Nat → Nat → Nat

/-- R364: what the spec does not give of the module's own PTP data set: 0 the offsetScaledLogVariance, 1 the timeSource.
(PRESUMED, log entry 74) -/
opaque Config.ptpField : Nat → Nat

/-- R406: the identification of the control units' cores, by CSR: mvendorid, marchid, mimpid and mconfigptr, which the spec does not give.
(PRESUMED, log entry 148) -/
opaque Config.unitIdent : Nat → Nat

end Sys2Proof
end

