-- ==== Sys2Proof/Machine/Fields.lean ====
section
/-! DEFINITION. The named register fields the model uses: control-space offset, lowest bit and width, as the register
tables of the spec give them. An array of registers takes its index (or indices). -/

namespace Sys2Proof.Machine

/-- A field of a register: the control-space offset of its register, its lowest bit and its width. -/
structure Fld where
  off : Nat
  lo : Nat
  w : Nat
  deriving DecidableEq, Repr

namespace F

/-- FUSE_DISC_ID [31:24], chapter 00 R1. -/
def FUSE_DISC_ID_ARCH : Fld := ⟨0x800000, 24, 8⟩
/-- FUSE_DISC_ID [7:0], chapter 00 R1. -/
def FUSE_DISC_ID_REV_NUMBER : Fld := ⟨0x800000, 0, 8⟩
/-- FUSE_DISC_ID [23:16], chapter 00 R1. -/
def FUSE_DISC_ID_ARCH_VERSION : Fld := ⟨0x800000, 16, 8⟩
/-- SEAL_CTRL [2:2], chapter 01 R35. -/
def SEAL_CTRL_CLR_COUNTS : Fld := ⟨0x340000, 2, 1⟩
/-- SEAL_CTRL [1:1], chapter 01 R35. -/
def SEAL_CTRL_HALT_IRQ_EN : Fld := ⟨0x340000, 1, 1⟩
/-- SEAL_CTRL [0:0], chapter 01 R35. -/
def SEAL_CTRL_EVT_IRQ_EN : Fld := ⟨0x340000, 0, 1⟩
/-- SEAL_STATUS [31:16], chapter 01 R35. -/
def SEAL_STATUS_HALTED_EDGES : Fld := ⟨0x340004, 16, 16⟩
/-- SEAL_STATUS [2:2], chapter 01 R35. -/
def SEAL_STATUS_HALT_IRQ : Fld := ⟨0x340004, 2, 1⟩
/-- SEAL_STATUS [1:1], chapter 01 R35. -/
def SEAL_STATUS_EVT_IRQ : Fld := ⟨0x340004, 1, 1⟩
/-- SEAL_STATUS [0:0], chapter 01 R35. -/
def SEAL_STATUS_EVT_VALID : Fld := ⟨0x340004, 0, 1⟩
/-- SEAL_MISMATCH_COUNT [31:0], chapter 01 R35. -/
def SEAL_MISMATCH_COUNT_COUNT : Fld := ⟨0x340008, 0, 32⟩
/-- SEAL_HEADER_COUNT [31:0], chapter 01 R35. -/
def SEAL_HEADER_COUNT_COUNT : Fld := ⟨0x34000c, 0, 32⟩
/-- SEAL_REPEAT_COUNT [31:0], chapter 01 R35. -/
def SEAL_REPEAT_COUNT_COUNT : Fld := ⟨0x340010, 0, 32⟩
/-- SEAL_SUBST_COUNT [31:0], chapter 01 R35. -/
def SEAL_SUBST_COUNT_COUNT : Fld := ⟨0x340014, 0, 32⟩
/-- SEAL_DROP_COUNT [31:0], chapter 01 R35. -/
def SEAL_DROP_COUNT_COUNT : Fld := ⟨0x340018, 0, 32⟩
/-- SEAL_EVT_SRC [31:16], chapter 01 R35. -/
def SEAL_EVT_SRC_NODE : Fld := ⟨0x340020, 16, 16⟩
/-- SEAL_EVT_SRC [15:0], chapter 01 R35. -/
def SEAL_EVT_SRC_STREAM : Fld := ⟨0x340020, 0, 16⟩
/-- SEAL_EVT_FRAME, chapter 01 R35. -/
def SEAL_EVT_FRAME : Fld := ⟨0x340024, 0, 32⟩
/-- SEAL_EVT_SEQ, chapter 01 R35. -/
def SEAL_EVT_SEQ : Fld := ⟨0x340028, 0, 32⟩
/-- SEAL_EVT_FOUND, chapter 01 R35. -/
def SEAL_EVT_FOUND : Fld := ⟨0x34002c, 0, 32⟩
/-- SEAL_EVT_COMPUTED, chapter 01 R35. -/
def SEAL_EVT_COMPUTED : Fld := ⟨0x340030, 0, 32⟩
/-- SEAL_EVT_INFO [31:16], chapter 01 R35. -/
def SEAL_EVT_INFO_STATUS : Fld := ⟨0x340034, 16, 16⟩
/-- SEAL_EVT_INFO [15:8], chapter 01 R35. -/
def SEAL_EVT_INFO_FLAGS : Fld := ⟨0x340034, 8, 8⟩
/-- SEAL_EVT_INFO [3:3], chapter 01 R35. -/
def SEAL_EVT_INFO_HALTED : Fld := ⟨0x340034, 3, 1⟩
/-- SEAL_EVT_INFO [2:2], chapter 01 R35. -/
def SEAL_EVT_INFO_SUBST_FILL : Fld := ⟨0x340034, 2, 1⟩
/-- SEAL_EVT_INFO [1:0], chapter 01 R35. -/
def SEAL_EVT_INFO_POLICY : Fld := ⟨0x340034, 0, 2⟩
/-- SEAL_EVT_POP [0:0], chapter 01 R35. -/
def SEAL_EVT_POP_POP : Fld := ⟨0x340038, 0, 1⟩
/-- SEAL_EVT_LOST [31:0], chapter 01 R35. -/
def SEAL_EVT_LOST_COUNT : Fld := ⟨0x34003c, 0, 32⟩
/-- SEAL_HALT_CLR [15:0], chapter 01 R35. -/
def SEAL_HALT_CLR_QID : Fld := ⟨0x340044, 0, 16⟩
/-- CKV_CTRL [8:8], chapter 01 R38. -/
def CKV_CTRL_START (i : Nat) : Fld := ⟨0x380000 + 0x40 * i, 8, 1⟩
/-- CKV_CTRL [1:0], chapter 01 R38. -/
def CKV_CTRL_ALG (i : Nat) : Fld := ⟨0x380000 + 0x40 * i, 0, 2⟩
/-- CKV_FOLD [31:0], chapter 01 R38. -/
def CKV_FOLD_FOLD (i : Nat) : Fld := ⟨0x380004 + 0x40 * i, 0, 32⟩
/-- CKV_DATA [31:0], chapter 01 R38. -/
def CKV_DATA_DATA (i : Nat) : Fld := ⟨0x380008 + 0x40 * i, 0, 32⟩
/-- CKV_RESULT [31:0], chapter 01 R38. -/
def CKV_RESULT_RESULT (i : Nat) : Fld := ⟨0x38000c + 0x40 * i, 0, 32⟩
/-- CKV_REG [31:0], chapter 01 R38. -/
def CKV_REG_REG (i : Nat) : Fld := ⟨0x380010 + 0x40 * i, 0, 32⟩
/-- CKV_COUNT [31:0], chapter 01 R38. -/
def CKV_COUNT_BYTES (i : Nat) : Fld := ⟨0x380014 + 0x40 * i, 0, 32⟩
/-- CKV_STAT [31:16], chapter 01 R38. -/
def CKV_STAT_STATUS (i : Nat) : Fld := ⟨0x380018 + 0x40 * i, 16, 16⟩
/-- CKV_STAT [1:1], chapter 01 R38. -/
def CKV_STAT_ALG_ERR (i : Nat) : Fld := ⟨0x380018 + 0x40 * i, 1, 1⟩
/-- CKV_STAT [0:0], chapter 01 R38. -/
def CKV_STAT_BUSY (i : Nat) : Fld := ⟨0x380018 + 0x40 * i, 0, 1⟩
/-- STR_CTRL [6:6], chapter 02 R91. -/
def STR_CTRL_CARRY_IRQ_EN : Fld := ⟨0x3c0000, 6, 1⟩
/-- STR_CTRL [5:5], chapter 02 R91. -/
def STR_CTRL_SWAP_IRQ_EN : Fld := ⟨0x3c0000, 5, 1⟩
/-- STR_CTRL [4:4], chapter 02 R91. -/
def STR_CTRL_ERR_IRQ_EN : Fld := ⟨0x3c0000, 4, 1⟩
/-- STR_CTRL [3:3], chapter 02 R91. -/
def STR_CTRL_RETIRE_FORCE : Fld := ⟨0x3c0000, 3, 1⟩
/-- STR_CTRL [2:2], chapter 02 R91. -/
def STR_CTRL_CANCEL : Fld := ⟨0x3c0000, 2, 1⟩
/-- STR_CTRL [1:1], chapter 02 R91. -/
def STR_CTRL_ARM : Fld := ⟨0x3c0000, 1, 1⟩
/-- STR_CTRL [0:0], chapter 02 R91. -/
def STR_CTRL_LOAD : Fld := ⟨0x3c0000, 0, 1⟩
/-- STR_STATUS [31:16], chapter 02 R91. -/
def STR_STATUS_STATUS : Fld := ⟨0x3c0004, 16, 16⟩
/-- STR_STATUS [6:6], chapter 02 R91. -/
def STR_STATUS_CARRY_IRQ : Fld := ⟨0x3c0004, 6, 1⟩
/-- STR_STATUS [5:5], chapter 02 R91. -/
def STR_STATUS_SWAP_IRQ : Fld := ⟨0x3c0004, 5, 1⟩
/-- STR_STATUS [4:4], chapter 02 R91. -/
def STR_STATUS_ERR_IRQ : Fld := ⟨0x3c0004, 4, 1⟩
/-- STR_STATUS [3:3], chapter 02 R91. -/
def STR_STATUS_ACTIVE_VALID : Fld := ⟨0x3c0004, 3, 1⟩
/-- STR_STATUS [2:0], chapter 02 R91. -/
def STR_STATUS_SHADOW_STATE : Fld := ⟨0x3c0004, 0, 3⟩
/-- STR_IMG_ADDR_LO [31:4], chapter 02 R91. -/
def STR_IMG_ADDR_LO_ADDR : Fld := ⟨0x3c0008, 4, 28⟩
/-- STR_IMG_ADDR_HI [7:0], chapter 02 R91. -/
def STR_IMG_ADDR_HI_ADDR : Fld := ⟨0x3c000c, 0, 8⟩
/-- STR_IMG_LEN [31:0], chapter 02 R91. -/
def STR_IMG_LEN_LEN : Fld := ⟨0x3c0010, 0, 32⟩
/-- STR_EPOCH [31:30], chapter 02 R91. -/
def STR_EPOCH_MODE : Fld := ⟨0x3c0014, 30, 2⟩
/-- STR_EPOCH [3:0], chapter 02 R91. -/
def STR_EPOCH_TIMEBASE : Fld := ⟨0x3c0014, 0, 4⟩
/-- STR_EPOCH_TARGET [31:0], chapter 02 R91. -/
def STR_EPOCH_TARGET_EPOCH : Fld := ⟨0x3c0018, 0, 32⟩
/-- STR_ACTIVE_ID [31:0], chapter 02 R91. -/
def STR_ACTIVE_ID_IMAGE_ID : Fld := ⟨0x3c001c, 0, 32⟩
/-- STR_ACTIVE_TBL_ID [31:0], chapter 02 R91. -/
def STR_ACTIVE_TBL_ID_IMAGE_ID : Fld := ⟨0x3c0020, 0, 32⟩
/-- STR_SHADOW_ID [31:0], chapter 02 R91. -/
def STR_SHADOW_ID_IMAGE_ID : Fld := ⟨0x3c0024, 0, 32⟩
/-- STR_ERR_LOC [31:26], chapter 02 R91. -/
def STR_ERR_LOC_SECTION : Fld := ⟨0x3c0028, 26, 6⟩
/-- STR_ERR_LOC [25:0], chapter 02 R91. -/
def STR_ERR_LOC_OFFSET : Fld := ⟨0x3c0028, 0, 26⟩
/-- STR_SWAP_EPOCH [31:0], chapter 02 R91. -/
def STR_SWAP_EPOCH_EPOCH : Fld := ⟨0x3c002c, 0, 32⟩
/-- STR_CARRY_COUNT [31:0], chapter 02 R91. -/
def STR_CARRY_COUNT_COUNT : Fld := ⟨0x3c0030, 0, 32⟩
/-- STR_DROP_COUNT [31:0], chapter 02 R91. -/
def STR_DROP_COUNT_COUNT : Fld := ⟨0x3c0034, 0, 32⟩
/-- STR_SWAP_COUNT [31:0], chapter 02 R91. -/
def STR_SWAP_COUNT_COUNT : Fld := ⟨0x3c0038, 0, 32⟩
/-- HQ_STATUS [31:16], chapter 03 R126. -/
def HQ_STATUS_STATUS : Fld := ⟨0x280000, 16, 16⟩
/-- HQ_STATUS [1:1], chapter 03 R126. -/
def HQ_STATUS_OMIT : Fld := ⟨0x280000, 1, 1⟩
/-- HQ_STATUS [0:0], chapter 03 R126. -/
def HQ_STATUS_WPROT : Fld := ⟨0x280000, 0, 1⟩
/-- HQ_ALLOC_A [15:0], chapter 03 R126. -/
def HQ_ALLOC_A_QID : Fld := ⟨0x280004, 0, 16⟩
/-- HQ_ALLOC_RESULT_A [31:16], chapter 03 R126. -/
def HQ_ALLOC_RESULT_A_STATUS : Fld := ⟨0x280008, 16, 16⟩
/-- HQ_ALLOC_RESULT_A [15:0], chapter 03 R126. -/
def HQ_ALLOC_RESULT_A_QID : Fld := ⟨0x280008, 0, 16⟩
/-- HQ_ALLOC_B [15:0], chapter 03 R126. -/
def HQ_ALLOC_B_QID : Fld := ⟨0x28000c, 0, 16⟩
/-- HQ_ALLOC_RESULT_B [31:16], chapter 03 R126. -/
def HQ_ALLOC_RESULT_B_STATUS : Fld := ⟨0x280010, 16, 16⟩
/-- HQ_ALLOC_RESULT_B [15:0], chapter 03 R126. -/
def HQ_ALLOC_RESULT_B_QID : Fld := ⟨0x280010, 0, 16⟩
/-- HQ_QSEL [15:0], chapter 03 R126. -/
def HQ_QSEL_QID : Fld := ⟨0x280014, 0, 16⟩
/-- HQ_QCFG_BASE_LO [31:4], chapter 03 R126. -/
def HQ_QCFG_BASE_LO_ADDR : Fld := ⟨0x280018, 4, 28⟩
/-- HQ_QCFG_BASE_HI [7:0], chapter 03 R126. -/
def HQ_QCFG_BASE_HI_ADDR : Fld := ⟨0x28001c, 0, 8⟩
/-- HQ_QCFG_SIZE [31:16], chapter 03 R126. -/
def HQ_QCFG_SIZE_NOTIFY : Fld := ⟨0x280020, 16, 16⟩
/-- HQ_QCMD [2:0], chapter 03 R126. -/
def HQ_QCMD_CMD : Fld := ⟨0x280024, 0, 3⟩
/-- HQ_DB_PUSH [31:16], chapter 03 R126. -/
def HQ_DB_PUSH_COUNT : Fld := ⟨0x280034, 16, 16⟩
/-- HQ_DB_PUSH [15:0], chapter 03 R126. -/
def HQ_DB_PUSH_QID : Fld := ⟨0x280034, 0, 16⟩
/-- HQ_DB_POP [15:0], chapter 03 R126. -/
def HQ_DB_POP_QID : Fld := ⟨0x280038, 0, 16⟩
/-- HQ_WPROT_COUNT [31:0], chapter 03 R126. -/
def HQ_WPROT_COUNT_COUNT : Fld := ⟨0x28003c, 0, 32⟩
/-- HQ_SRC_OMIT_COUNT [31:0], chapter 03 R126. -/
def HQ_SRC_OMIT_COUNT_COUNT : Fld := ⟨0x280040, 0, 32⟩
/-- SCH_CTRL [25:16], chapter 03 R127. -/
def SCH_CTRL_SLOT_RESERVE : Fld := ⟨0x2c0000, 16, 10⟩
/-- SCH_CTRL [6:4], chapter 03 R127. -/
def SCH_CTRL_PREEMPT_LEVEL : Fld := ⟨0x2c0000, 4, 3⟩
/-- SCH_CTRL [2:2], chapter 03 R127. -/
def SCH_CTRL_CPL_ALL : Fld := ⟨0x2c0000, 2, 1⟩
/-- SCH_CTRL [1:1], chapter 03 R127. -/
def SCH_CTRL_CPL_IRQ_EN : Fld := ⟨0x2c0000, 1, 1⟩
/-- SCH_CTRL [0:0], chapter 03 R127. -/
def SCH_CTRL_PREEMPT_EN : Fld := ⟨0x2c0000, 0, 1⟩
/-- SCH_STATUS [31:16], chapter 03 R127. -/
def SCH_STATUS_STATUS : Fld := ⟨0x2c0008, 16, 16⟩
/-- SCH_STATUS [1:1], chapter 03 R127. -/
def SCH_STATUS_CPL_OVF : Fld := ⟨0x2c0008, 1, 1⟩
/-- SCH_STATUS [0:0], chapter 03 R127. -/
def SCH_STATUS_CPL_IRQ : Fld := ⟨0x2c0008, 0, 1⟩
/-- SCH_SLOTS [29:16], chapter 03 R127. -/
def SCH_SLOTS_FREE : Fld := ⟨0x2c000c, 16, 14⟩
/-- SCH_SLOTS [13:0], chapter 03 R127. -/
def SCH_SLOTS_LOW_WATER : Fld := ⟨0x2c000c, 0, 14⟩
/-- SCH_SLOT_STALL [31:0], chapter 03 R127. -/
def SCH_SLOT_STALL_COUNT : Fld := ⟨0x2c0010, 0, 32⟩
/-- SCH_CANCEL [31:31], chapter 03 R127. -/
def SCH_CANCEL_BY_NODE : Fld := ⟨0x2c0014, 31, 1⟩
/-- SCH_CANCEL [30:30], chapter 03 R127. -/
def SCH_CANCEL_CLR_STALL : Fld := ⟨0x2c0014, 30, 1⟩
/-- SCH_CANCEL [15:0], chapter 03 R127. -/
def SCH_CANCEL_TARGET : Fld := ⟨0x2c0014, 0, 16⟩
/-- SCH_CANCEL_RESULT [31:16], chapter 03 R127. -/
def SCH_CANCEL_RESULT_STATUS : Fld := ⟨0x2c0018, 16, 16⟩
/-- SCH_CANCEL_RESULT [15:0], chapter 03 R127. -/
def SCH_CANCEL_RESULT_TASKS : Fld := ⟨0x2c0018, 0, 16⟩
/-- SCH_CPL_HEAD [11:0], chapter 03 R127. -/
def SCH_CPL_HEAD_HEAD : Fld := ⟨0x2c001c, 0, 12⟩
/-- SCH_CPL_TAIL [11:0], chapter 03 R127. -/
def SCH_CPL_TAIL_TAIL : Fld := ⟨0x2c0020, 0, 12⟩
/-- SCH_CPL_LOST [31:0], chapter 03 R127. -/
def SCH_CPL_LOST_COUNT : Fld := ⟨0x2c0024, 0, 32⟩
/-- SCH_LOAD_WINDOW [23:0], chapter 03 R127. -/
def SCH_LOAD_WINDOW_WINDOW : Fld := ⟨0x2c0028, 0, 24⟩
/-- SCH_HIST_CFG [31:31], chapter 03 R127. -/
def SCH_HIST_CFG_EN (i : Nat) : Fld := ⟨0x2c0040 + 0x4 * i, 31, 1⟩
/-- SCH_HIST_CFG [30:30], chapter 03 R127. -/
def SCH_HIST_CFG_CLR (i : Nat) : Fld := ⟨0x2c0040 + 0x4 * i, 30, 1⟩
/-- SCH_HIST_CFG [29:28], chapter 03 R127. -/
def SCH_HIST_CFG_SRC (i : Nat) : Fld := ⟨0x2c0040 + 0x4 * i, 28, 2⟩
/-- SCH_HIST_CFG [15:0], chapter 03 R127. -/
def SCH_HIST_CFG_ID (i : Nat) : Fld := ⟨0x2c0040 + 0x4 * i, 0, 16⟩
/-- SCH_HIST_BIN [31:0], chapter 03 R127. -/
def SCH_HIST_BIN_COUNT (i : Nat) (j : Nat) : Fld := ⟨0x2c0200 + 0x80 * i + 0x4 * j, 0, 32⟩
/-- SCH_ENG_LOAD [31:16], chapter 03 R127. -/
def SCH_ENG_LOAD_TASKS (i : Nat) : Fld := ⟨0x2c0400 + 0x4 * i, 16, 16⟩
/-- SCH_ENG_LOAD [15:0], chapter 03 R127. -/
def SCH_ENG_LOAD_BUSY (i : Nat) : Fld := ⟨0x2c0400 + 0x4 * i, 0, 16⟩
/-- MESH_TAGS [28:16], chapter 04 R136. -/
def MESH_TAGS_HIGH_WATER : Fld := ⟨0x140000, 16, 13⟩
/-- MESH_TAG_WAIT [31:0], chapter 04 R136. -/
def MESH_TAG_WAIT_CYCLES : Fld := ⟨0x140008, 0, 32⟩
/-- CUX_U_ECC_CORR [31:0], chapter 16 R427. -/
def CUX_U_ECC_CORR_COUNT (i : Nat) : Fld := ⟨0x100134 + 0x80 * i, 0, 32⟩
/-- NET_P_FEC_CORR [31:0], chapter 12. -/
def NET_P_FEC_CORR_COUNT (i : Nat) : Fld := ⟨0x600144 + 0x80 * i, 0, 32⟩
/-- NET_P_FEC_UNCORR [31:0], chapter 12. -/
def NET_P_FEC_UNCORR_COUNT (i : Nat) : Fld := ⟨0x600148 + 0x80 * i, 0, 32⟩
/-- MESH_TAGS [12:0], chapter 04 R136. -/
def MESH_TAGS_IN_USE : Fld := ⟨0x140000, 0, 13⟩
/-- MESH_CTRL [0:0], chapter 04 R136. -/
def MESH_CTRL_CLR_HIGH : Fld := ⟨0x140004, 0, 1⟩
/-- XLT_CTRL [0:0], chapter 04 R158. -/
def XLT_CTRL_FQ_IRQ_EN : Fld := ⟨0x200000, 0, 1⟩
/-- XLT_STATUS [31:16], chapter 04 R158. -/
def XLT_STATUS_STATUS : Fld := ⟨0x200004, 16, 16⟩
/-- XLT_STATUS [2:2], chapter 04 R158. -/
def XLT_STATUS_FQ_FULL : Fld := ⟨0x200004, 2, 1⟩
/-- XLT_STATUS [1:1], chapter 04 R158. -/
def XLT_STATUS_FQ_IRQ : Fld := ⟨0x200004, 1, 1⟩
/-- XLT_STATUS [0:0], chapter 04 R158. -/
def XLT_STATUS_INV_BUSY : Fld := ⟨0x200004, 0, 1⟩
/-- XLT_SPACE_REQ [8:8], chapter 04 R158. -/
def XLT_SPACE_REQ_ANY : Fld := ⟨0x200008, 8, 1⟩
/-- XLT_SPACE_REQ [7:0], chapter 04 R158. -/
def XLT_SPACE_REQ_SPACE : Fld := ⟨0x200008, 0, 8⟩
/-- XLT_SPACE_RESULT [31:16], chapter 04 R158. -/
def XLT_SPACE_RESULT_STATUS : Fld := ⟨0x20000c, 16, 16⟩
/-- XLT_SPACE_RESULT [7:0], chapter 04 R158. -/
def XLT_SPACE_RESULT_SPACE : Fld := ⟨0x20000c, 0, 8⟩
/-- XLT_SPACE_SEL [7:0], chapter 04 R158. -/
def XLT_SPACE_SEL_SPACE : Fld := ⟨0x200010, 0, 8⟩
/-- XLT_SPACE_ROOT_LO [31:9], chapter 04 R158. -/
def XLT_SPACE_ROOT_LO_ROOT : Fld := ⟨0x200014, 9, 23⟩
/-- XLT_SPACE_ROOT_HI [7:0], chapter 04 R158. -/
def XLT_SPACE_ROOT_HI_ROOT : Fld := ⟨0x200018, 0, 8⟩
/-- XLT_SPACE_CMD [1:0], chapter 04 R158. -/
def XLT_SPACE_CMD_CMD : Fld := ⟨0x20001c, 0, 2⟩
/-- XLT_INV_VA_LO [31:16], chapter 04 R158. -/
def XLT_INV_VA_LO_VA : Fld := ⟨0x200024, 16, 16⟩
/-- XLT_INV_VA_HI [15:0], chapter 04 R158. -/
def XLT_INV_VA_HI_VA : Fld := ⟨0x200028, 0, 16⟩
/-- XLT_INV_PAGES [31:0], chapter 04 R158. -/
def XLT_INV_PAGES_PAGES : Fld := ⟨0x20002c, 0, 32⟩
/-- XLT_INV_CMD [31:31], chapter 04 R158. -/
def XLT_INV_CMD_GO : Fld := ⟨0x200030, 31, 1⟩
/-- XLT_INV_CMD [9:8], chapter 04 R158. -/
def XLT_INV_CMD_SCOPE : Fld := ⟨0x200030, 8, 2⟩
/-- XLT_INV_CMD [7:0], chapter 04 R158. -/
def XLT_INV_CMD_SPACE : Fld := ⟨0x200030, 0, 8⟩
/-- XLT_FQ_HEAD [9:0], chapter 04 R158. -/
def XLT_FQ_HEAD_HEAD : Fld := ⟨0x200040, 0, 10⟩
/-- XLT_FQ_TAIL [9:0], chapter 04 R158. -/
def XLT_FQ_TAIL_TAIL : Fld := ⟨0x200044, 0, 10⟩
/-- XLT_FQ_WAIT_COUNT [31:0], chapter 04 R158. -/
def XLT_FQ_WAIT_COUNT_COUNT : Fld := ⟨0x200048, 0, 32⟩
/-- XLT_RESOLVE_ID [31:31], chapter 04 R158. -/
def XLT_RESOLVE_ID_BY_NODE : Fld := ⟨0x200050, 31, 1⟩
/-- XLT_RESOLVE_ID [15:0], chapter 04 R158. -/
def XLT_RESOLVE_ID_ID : Fld := ⟨0x200050, 0, 16⟩
/-- XLT_RESOLVE_SEQ [31:0], chapter 04 R158. -/
def XLT_RESOLVE_SEQ_FAULT_SEQ : Fld := ⟨0x200054, 0, 32⟩
/-- XLT_RESOLVE_CMD [1:0], chapter 04 R158. -/
def XLT_RESOLVE_CMD_ACTION : Fld := ⟨0x200058, 0, 2⟩
/-- XLT_RESOLVE_RESULT [31:16], chapter 04 R158. -/
def XLT_RESOLVE_RESULT_STATUS : Fld := ⟨0x20005c, 16, 16⟩
/-- XLT_RESOLVE_RESULT [15:0], chapter 04 R158. -/
def XLT_RESOLVE_RESULT_RELEASED : Fld := ⟨0x20005c, 0, 16⟩
/-- XLT_CTX [26:16], chapter 04 R158. -/
def XLT_CTX_LOW_WATER : Fld := ⟨0x200060, 16, 11⟩
/-- XLT_CTX [10:0], chapter 04 R158. -/
def XLT_CTX_FREE : Fld := ⟨0x200060, 0, 11⟩
/-- XLT_HOLE_COUNT [31:0], chapter 04 R158. -/
def XLT_HOLE_COUNT_COUNT : Fld := ⟨0x200064, 0, 32⟩
/-- DMA_RING_LO [31:5], chapter 04 R159. -/
def DMA_RING_LO_BASE (i : Nat) : Fld := ⟨0x240000 + 0x40 * i, 5, 27⟩
/-- DMA_RING_HI [7:0], chapter 04 R159. -/
def DMA_RING_HI_BASE (i : Nat) : Fld := ⟨0x240004 + 0x40 * i, 0, 8⟩
/-- DMA_RING_CFG [31:31], chapter 04 R159. -/
def DMA_RING_CFG_EN (i : Nat) : Fld := ⟨0x240008 + 0x40 * i, 31, 1⟩
/-- DMA_RING_CFG [30:30], chapter 04 R159. -/
def DMA_RING_CFG_HOST_OWNED (i : Nat) : Fld := ⟨0x240008 + 0x40 * i, 30, 1⟩
/-- DMA_RING_CFG [29:29], chapter 04 R159. -/
def DMA_RING_CFG_CPL_IRQ_EN (i : Nat) : Fld := ⟨0x240008 + 0x40 * i, 29, 1⟩
/-- DMA_RING_CFG [12:0], chapter 04 R159. -/
def DMA_RING_CFG_ENTRIES (i : Nat) : Fld := ⟨0x240008 + 0x40 * i, 0, 13⟩
/-- DMA_DB [12:0], chapter 04 R159. -/
def DMA_DB_COUNT (i : Nat) : Fld := ⟨0x24000c + 0x40 * i, 0, 13⟩
/-- DMA_PTR [28:16], chapter 04 R159. -/
def DMA_PTR_TAIL (i : Nat) : Fld := ⟨0x240010 + 0x40 * i, 16, 13⟩
/-- DMA_PTR [12:0], chapter 04 R159. -/
def DMA_PTR_HEAD (i : Nat) : Fld := ⟨0x240010 + 0x40 * i, 0, 13⟩
/-- DMA_STAT [31:16], chapter 04 R159. -/
def DMA_STAT_STATUS (i : Nat) : Fld := ⟨0x240014 + 0x40 * i, 16, 16⟩
/-- DMA_STAT [2:2], chapter 04 R159. -/
def DMA_STAT_ERR (i : Nat) : Fld := ⟨0x240014 + 0x40 * i, 2, 1⟩
/-- DMA_STAT [1:1], chapter 04 R159. -/
def DMA_STAT_CPL_IRQ (i : Nat) : Fld := ⟨0x240014 + 0x40 * i, 1, 1⟩
/-- DMA_STAT [0:0], chapter 04 R159. -/
def DMA_STAT_BUSY (i : Nat) : Fld := ⟨0x240014 + 0x40 * i, 0, 1⟩
/-- QDR_CFG [11:8], chapter 04 R160. -/
def QDR_CFG_FREQ : Fld := ⟨0x1c0000, 8, 4⟩
/-- QDR_CFG [3:2], chapter 04 R160. -/
def QDR_CFG_DEVICES : Fld := ⟨0x1c0000, 2, 2⟩
/-- QDR_CFG [1:0], chapter 04 R160. -/
def QDR_CFG_CHANNELS : Fld := ⟨0x1c0000, 0, 2⟩
/-- QDR_CTRL [10:8], chapter 04 R160. -/
def QDR_CTRL_CHANNEL : Fld := ⟨0x1c0004, 8, 3⟩
/-- QDR_CTRL [2:2], chapter 04 R160. -/
def QDR_CTRL_DRIFT_IRQ_EN : Fld := ⟨0x1c0004, 2, 1⟩
/-- QDR_CTRL [1:1], chapter 04 R160. -/
def QDR_CTRL_CRC_IRQ_EN : Fld := ⟨0x1c0004, 1, 1⟩
/-- QDR_CTRL [0:0], chapter 04 R160. -/
def QDR_CTRL_RETRAIN : Fld := ⟨0x1c0004, 0, 1⟩
/-- QDR_STATUS [31:16], chapter 04 R160. -/
def QDR_STATUS_STATUS : Fld := ⟨0x1c0008, 16, 16⟩
/-- QDR_STATUS [15:8], chapter 04 R160. -/
def QDR_STATUS_TRAINED : Fld := ⟨0x1c0008, 8, 8⟩
/-- QDR_STATUS [2:2], chapter 04 R160. -/
def QDR_STATUS_DRIFT_IRQ : Fld := ⟨0x1c0008, 2, 1⟩
/-- QDR_STATUS [1:1], chapter 04 R160. -/
def QDR_STATUS_CRC_IRQ : Fld := ⟨0x1c0008, 1, 1⟩
/-- QDR_CRC_RETRY [31:0], chapter 04 R160. -/
def QDR_CRC_RETRY_COUNT (i : Nat) : Fld := ⟨0x1c0020 + 0x8 * i, 0, 32⟩
/-- QDR_CRC_ERR [31:0], chapter 04 R160. -/
def QDR_CRC_ERR_COUNT (i : Nat) : Fld := ⟨0x1c0024 + 0x8 * i, 0, 32⟩
/-- QDR_ERR_ADDR_LO [31:4], chapter 04 R160. -/
def QDR_ERR_ADDR_LO_ADDR : Fld := ⟨0x1c0060, 4, 28⟩
/-- QDR_ERR_ADDR_LO [0:0], chapter 04 R160. -/
def QDR_ERR_ADDR_LO_VALID : Fld := ⟨0x1c0060, 0, 1⟩
/-- QDR_ERR_ADDR_HI [7:0], chapter 04 R160. -/
def QDR_ERR_ADDR_HI_ADDR : Fld := ⟨0x1c0064, 0, 8⟩
/-- QDR_ERR_POP [0:0], chapter 04 R160. -/
def QDR_ERR_POP_POP : Fld := ⟨0x1c0068, 0, 1⟩
/-- QDR_DRIFT [15:8], chapter 04 R160. -/
def QDR_DRIFT_MAX_ABS (i : Nat) : Fld := ⟨0x1c0080 + 0x4 * i, 8, 8⟩
/-- QDR_DRIFT [7:0], chapter 04 R160. -/
def QDR_DRIFT_OFFSET (i : Nat) : Fld := ⟨0x1c0080 + 0x4 * i, 0, 8⟩
/-- TSTO_STATUS [31:16], chapter 04 R161. -/
def TSTO_STATUS_STATUS : Fld := ⟨0x180000, 16, 16⟩
/-- TSTO_STATUS [0:0], chapter 04 R161. -/
def TSTO_STATUS_WPROT : Fld := ⟨0x180000, 0, 1⟩
/-- TSTO_WPROT_COUNT [31:0], chapter 04 R161. -/
def TSTO_WPROT_COUNT_COUNT : Fld := ⟨0x180004, 0, 32⟩
/-- ENG_CTRL [2:2], chapter 05 R185. -/
def ENG_CTRL_CNT_CLR : Fld := ⟨0x300000, 2, 1⟩
/-- ENG_CTRL [1:1], chapter 05 R185. -/
def ENG_CTRL_LIB_IRQ_EN : Fld := ⟨0x300000, 1, 1⟩
/-- ENG_CTRL [0:0], chapter 05 R185. -/
def ENG_CTRL_TRAP_IRQ_EN : Fld := ⟨0x300000, 0, 1⟩
/-- ENG_STATUS [31:16], chapter 05 R185. -/
def ENG_STATUS_STATUS : Fld := ⟨0x300004, 16, 16⟩
/-- ENG_STATUS [4:4], chapter 05 R185. -/
def ENG_STATUS_KTAB_VALID : Fld := ⟨0x300004, 4, 1⟩
/-- ENG_STATUS [3:3], chapter 05 R185. -/
def ENG_STATUS_LIB_VALID : Fld := ⟨0x300004, 3, 1⟩
/-- ENG_STATUS [2:2], chapter 05 R185. -/
def ENG_STATUS_LIB_BUSY : Fld := ⟨0x300004, 2, 1⟩
/-- ENG_STATUS [1:1], chapter 05 R185. -/
def ENG_STATUS_LIB_IRQ : Fld := ⟨0x300004, 1, 1⟩
/-- ENG_STATUS [0:0], chapter 05 R185. -/
def ENG_STATUS_TRAP_IRQ : Fld := ⟨0x300004, 0, 1⟩
/-- ENG_LIB_ADDR_LO [31:6], chapter 05 R185. -/
def ENG_LIB_ADDR_LO_ADDR : Fld := ⟨0x300008, 6, 26⟩
/-- ENG_LIB_ADDR_HI [7:0], chapter 05 R185. -/
def ENG_LIB_ADDR_HI_ADDR : Fld := ⟨0x30000c, 0, 8⟩
/-- ENG_LIB_LEN [31:0], chapter 05 R185. -/
def ENG_LIB_LEN_LEN : Fld := ⟨0x300010, 0, 32⟩
/-- ENG_LIB_CMD [0:0], chapter 05 R185. -/
def ENG_LIB_CMD_LOAD : Fld := ⟨0x300014, 0, 1⟩
/-- ENG_LIB_INFO [31:0], chapter 05 R185. -/
def ENG_LIB_INFO_LIB_VERSION : Fld := ⟨0x300018, 0, 32⟩
/-- ENG_KTAB_ADDR_LO [31:6], chapter 05 R185. -/
def ENG_KTAB_ADDR_LO_ADDR : Fld := ⟨0x300020, 6, 26⟩
/-- ENG_KTAB_ADDR_HI [7:0], chapter 05 R185. -/
def ENG_KTAB_ADDR_HI_ADDR : Fld := ⟨0x300024, 0, 8⟩
/-- ENG_KTAB_CMD [31:31], chapter 05 R185. -/
def ENG_KTAB_CMD_INSTALL : Fld := ⟨0x300028, 31, 1⟩
/-- ENG_KTAB_CMD [12:0], chapter 05 R185. -/
def ENG_KTAB_CMD_COUNT : Fld := ⟨0x300028, 0, 13⟩
/-- ENG_E_STATE [31:16], chapter 05 R185. -/
def ENG_E_STATE_NODE_ID (i : Nat) : Fld := ⟨0x301000 + 0x20 * i, 16, 16⟩
/-- ENG_E_STATE [3:2], chapter 05 R185. -/
def ENG_E_STATE_URGENT_AREA (i : Nat) : Fld := ⟨0x301000 + 0x20 * i, 2, 2⟩
/-- ENG_E_STATE [1:0], chapter 05 R185. -/
def ENG_E_STATE_TASK_AREA (i : Nat) : Fld := ⟨0x301000 + 0x20 * i, 0, 2⟩
/-- ENG_E_TRAP [31:31], chapter 05 R185. -/
def ENG_E_TRAP_VALID (i : Nat) : Fld := ⟨0x301004 + 0x20 * i, 31, 1⟩
/-- ENG_E_TRAP [23:16], chapter 05 R185. -/
def ENG_E_TRAP_CAUSE (i : Nat) : Fld := ⟨0x301004 + 0x20 * i, 16, 8⟩
/-- ENG_E_TRAP [15:0], chapter 05 R185. -/
def ENG_E_TRAP_NODE_ID (i : Nat) : Fld := ⟨0x301004 + 0x20 * i, 0, 16⟩
/-- ENG_E_TVAL [31:0], chapter 05 R185. -/
def ENG_E_TVAL_V (i : Nat) : Fld := ⟨0x301008 + 0x20 * i, 0, 32⟩
/-- ENG_E_TPC [31:0], chapter 05 R185. -/
def ENG_E_TPC_V (i : Nat) : Fld := ⟨0x30100c + 0x20 * i, 0, 32⟩
/-- HIF_CTRL [31:31], chapter 15 R400. -/
def HIF_CTRL_HOST_LOCK : Fld := ⟨0x700000, 31, 1⟩
/-- HIF_CTRL [0:0], chapter 15 R400. -/
def HIF_CTRL_ERR_IRQ_EN : Fld := ⟨0x700000, 0, 1⟩
/-- HIF_STATUS [31:16], chapter 15 R400. -/
def HIF_STATUS_STATUS : Fld := ⟨0x700004, 16, 16⟩
/-- HIF_STATUS [10:8], chapter 15 R400. -/
def HIF_STATUS_SPEED : Fld := ⟨0x700004, 8, 3⟩
/-- HIF_STATUS [7:3], chapter 15 R400. -/
def HIF_STATUS_WIDTH : Fld := ⟨0x700004, 3, 5⟩
/-- HIF_STATUS [2:2], chapter 15 R400. -/
def HIF_STATUS_HOST_RESET : Fld := ⟨0x700004, 2, 1⟩
/-- HIF_STATUS [1:1], chapter 15 R400. -/
def HIF_STATUS_LINK : Fld := ⟨0x700004, 1, 1⟩
/-- HIF_STATUS [0:0], chapter 15 R400. -/
def HIF_STATUS_ERR_IRQ : Fld := ⟨0x700004, 0, 1⟩
/-- HIF_IW_ERR [31:0], chapter 15 R400. -/
def HIF_IW_ERR_COUNT : Fld := ⟨0x700008, 0, 32⟩
/-- HIF_OB_DROP [31:0], chapter 15 R400. -/
def HIF_OB_DROP_COUNT : Fld := ⟨0x70000c, 0, 32⟩
/-- HIF_IW_ERR_VA_LO [31:0], chapter 15 R400. -/
def HIF_IW_ERR_VA_LO_VA : Fld := ⟨0x700010, 0, 32⟩
/-- HIF_IW_ERR_VA_HI [31:31], chapter 15 R400. -/
def HIF_IW_ERR_VA_HI_VALID : Fld := ⟨0x700014, 31, 1⟩
/-- HIF_IW_ERR_VA_HI [15:0], chapter 15 R400. -/
def HIF_IW_ERR_VA_HI_VA : Fld := ⟨0x700014, 0, 16⟩
/-- HIF_IW_CFG [31:31], chapter 15 R400. -/
def HIF_IW_CFG_EN (i : Nat) : Fld := ⟨0x700100 + 0x10 * i, 31, 1⟩
/-- HIF_IW_CFG [7:0], chapter 15 R400. -/
def HIF_IW_CFG_IW_SPACE (i : Nat) : Fld := ⟨0x700100 + 0x10 * i, 0, 8⟩
/-- HIF_IW_BASE_LO [31:16], chapter 15 R400. -/
def HIF_IW_BASE_LO_BASE (i : Nat) : Fld := ⟨0x700104 + 0x10 * i, 16, 16⟩
/-- HIF_IW_BASE_HI [15:0], chapter 15 R400. -/
def HIF_IW_BASE_HI_BASE (i : Nat) : Fld := ⟨0x700108 + 0x10 * i, 0, 16⟩
/-- HIF_OB_BASE_HI [31:0], chapter 15 R400. -/
def HIF_OB_BASE_HI_BASE : Fld := ⟨0x700204, 0, 32⟩
/-- HIF_IRQ_MAP [31:31], chapter 15 R400. -/
def HIF_IRQ_MAP_EN (i : Nat) : Fld := ⟨0x700400 + 0x4 * i, 31, 1⟩
/-- HIF_IRQ_MAP [10:0], chapter 15 R400. -/
def HIF_IRQ_MAP_VECTOR (i : Nat) : Fld := ⟨0x700400 + 0x4 * i, 0, 11⟩
/-- HIF_CH_INFO [31:16], chapter 15 R400. -/
def HIF_CH_INFO_NODE_ID (i : Nat) : Fld := ⟨0x700800 + 0x20 * i, 16, 16⟩
/-- HIF_CH_INFO [15:15], chapter 15 R400. -/
def HIF_CH_INFO_VALID (i : Nat) : Fld := ⟨0x700800 + 0x20 * i, 15, 1⟩
/-- HIF_CH_INFO [14:14], chapter 15 R400. -/
def HIF_CH_INFO_DIR (i : Nat) : Fld := ⟨0x700800 + 0x20 * i, 14, 1⟩
/-- HIF_CH_INFO [13:13], chapter 15 R400. -/
def HIF_CH_INFO_HELD (i : Nat) : Fld := ⟨0x700800 + 0x20 * i, 13, 1⟩
/-- HIF_CH_DB [15:0], chapter 15 R400. -/
def HIF_CH_DB_COUNT (i : Nat) : Fld := ⟨0x700804 + 0x20 * i, 0, 16⟩
/-- HIF_CH_PTR [31:16], chapter 15 R400. -/
def HIF_CH_PTR_TAIL (i : Nat) : Fld := ⟨0x700808 + 0x20 * i, 16, 16⟩
/-- HIF_CH_PTR [15:0], chapter 15 R400. -/
def HIF_CH_PTR_HEAD (i : Nat) : Fld := ⟨0x700808 + 0x20 * i, 0, 16⟩
/-- HIF_CH_TILES [31:0], chapter 15 R400. -/
def HIF_CH_TILES_COUNT (i : Nat) : Fld := ⟨0x70080c + 0x20 * i, 0, 32⟩
/-- HIF_CH_DROP [31:0], chapter 15 R400. -/
def HIF_CH_DROP_COUNT (i : Nat) : Fld := ⟨0x700810 + 0x20 * i, 0, 32⟩
/-- HIF_CH_STATUS [31:16], chapter 15 R400. -/
def HIF_CH_STATUS_STATUS (i : Nat) : Fld := ⟨0x700814 + 0x20 * i, 16, 16⟩
/-- HIF_XSPI_CMD [31:31], chapter 15 R401. -/
def HIF_XSPI_CMD_GO : Fld := ⟨0x702000, 31, 1⟩
/-- HIF_XSPI_CMD [30:30], chapter 15 R401. -/
def HIF_XSPI_CMD_WRITE : Fld := ⟨0x702000, 30, 1⟩
/-- HIF_XSPI_ADDR [31:0], chapter 15 R401. -/
def HIF_XSPI_ADDR_ADDR : Fld := ⟨0x702004, 0, 32⟩
/-- HIF_XSPI_LEN [12:0], chapter 15 R401. -/
def HIF_XSPI_LEN_LEN : Fld := ⟨0x702008, 0, 13⟩
/-- GPIO_OUT [31:0], chapter 15 R404. -/
def GPIO_OUT_V : Fld := ⟨0x702304, 0, 32⟩
/-- GPIO_IN [31:0], chapter 15 R404. -/
def GPIO_IN_V : Fld := ⟨0x702310, 0, 32⟩
/-- GPIO_IRQ_EDGE [31:0], chapter 15 R404. -/
def GPIO_IRQ_EDGE_V (i : Nat) : Fld := ⟨0x702314 + 0x4 * i, 0, 32⟩
/-- GPIO_IRQ [31:0], chapter 15 R404. -/
def GPIO_IRQ_V : Fld := ⟨0x70231c, 0, 32⟩
/-- MSIX_ADDR_LO [31:2], chapter 15 R396. -/
def MSIX_ADDR_LO_ADDR (i : Nat) : Fld := ⟨0x710000 + 0x10 * i, 2, 30⟩
/-- MSIX_ADDR_HI [31:0], chapter 15 R396. -/
def MSIX_ADDR_HI_ADDR (i : Nat) : Fld := ⟨0x710004 + 0x10 * i, 0, 32⟩
/-- MSIX_DATA [31:0], chapter 15 R396. -/
def MSIX_DATA_DATA (i : Nat) : Fld := ⟨0x710008 + 0x10 * i, 0, 32⟩
/-- MSIX_VCTRL [0:0], chapter 15 R396. -/
def MSIX_VCTRL_MASK (i : Nat) : Fld := ⟨0x71000c + 0x10 * i, 0, 1⟩
/-- MSIX_PBA [31:0], chapter 15 R396. -/
def MSIX_PBA_PENDING (i : Nat) : Fld := ⟨0x718000 + 0x4 * i, 0, 32⟩
/-- CUX_OWNER [31:28], chapter 16 R426. -/
def CUX_OWNER_LAST_KIND : Fld := ⟨0x100000, 28, 4⟩
/-- CUX_OWNER [9:9], chapter 16 R426. -/
def CUX_OWNER_DOUBLE : Fld := ⟨0x100000, 9, 1⟩
/-- CUX_OWNER [8:8], chapter 16 R426. -/
def CUX_OWNER_GAP : Fld := ⟨0x100000, 8, 1⟩
/-- CUX_OWNER [4:4], chapter 16 R426. -/
def CUX_OWNER_PREF : Fld := ⟨0x100000, 4, 1⟩
/-- CUX_OWNER [1:0], chapter 16 R426. -/
def CUX_OWNER_OWNER : Fld := ⟨0x100000, 0, 2⟩
/-- CUX_CFG [31:31], chapter 16 R426. -/
def CUX_CFG_AUTO_RETURN : Fld := ⟨0x100004, 31, 1⟩
/-- CUX_CFG [30:30], chapter 16 R426. -/
def CUX_CFG_AUTO_CLAIM : Fld := ⟨0x100004, 30, 1⟩
/-- CUX_CFG [23:16], chapter 16 R426. -/
def CUX_CFG_MISS_COUNT : Fld := ⟨0x100004, 16, 8⟩
/-- CUX_CFG [15:0], chapter 16 R426. -/
def CUX_CFG_HB_US : Fld := ⟨0x100004, 0, 16⟩
/-- CUX_STATUS [31:16], chapter 16 R426. -/
def CUX_STATUS_STATUS : Fld := ⟨0x10000c, 16, 16⟩
/-- CUX_SWITCH_COUNT [31:0], chapter 16 R426. -/
def CUX_SWITCH_COUNT_COUNT : Fld := ⟨0x100010, 0, 32⟩
/-- CUX_LAST_GAP [15:0], chapter 16 R426. -/
def CUX_LAST_GAP_CYCLES : Fld := ⟨0x100014, 0, 16⟩
/-- CUX_LAST_DOUBLE [15:0], chapter 16 R426. -/
def CUX_LAST_DOUBLE_CYCLES : Fld := ⟨0x100018, 0, 16⟩
/-- CUX_HOLD [24:16], chapter 16 R426. -/
def CUX_HOLD_HOLD_MAX : Fld := ⟨0x10001c, 16, 9⟩
/-- CUX_HOLD [8:0], chapter 16 R426. -/
def CUX_HOLD_HELD : Fld := ⟨0x10001c, 0, 9⟩
/-- CUX_SYNC_SEQ [31:0], chapter 16 R426. -/
def CUX_SYNC_SEQ_SEQ : Fld := ⟨0x100020, 0, 32⟩
/-- CUX_LAST_SYNC_SEQ [31:0], chapter 16 R426. -/
def CUX_LAST_SYNC_SEQ_SEQ : Fld := ⟨0x100024, 0, 32⟩
/-- CUX_DENY_P [31:0], chapter 16 R426. -/
def CUX_DENY_P_COUNT : Fld := ⟨0x100028, 0, 32⟩
/-- CUX_DENY_D [31:0], chapter 16 R426. -/
def CUX_DENY_D_COUNT : Fld := ⟨0x10002c, 0, 32⟩
/-- CUX_DENY_HOST [31:0], chapter 16 R426. -/
def CUX_DENY_HOST_COUNT : Fld := ⟨0x100030, 0, 32⟩
/-- CUX_UNDELIVERED [31:0], chapter 16 R426. -/
def CUX_UNDELIVERED_COUNT : Fld := ⟨0x100034, 0, 32⟩
/-- CUX_MISS_L [31:0], chapter 16 R426. -/
def CUX_MISS_L_COUNT : Fld := ⟨0x100038, 0, 32⟩
/-- CUX_MISS_K [31:0], chapter 16 R426. -/
def CUX_MISS_K_COUNT : Fld := ⟨0x10003c, 0, 32⟩
/-- CUX_QIRQ_PEND [31:0], chapter 16 R426. -/
def CUX_QIRQ_PEND_PEND (i : Nat) : Fld := ⟨0x100400 + 0x4 * i, 0, 32⟩
/-- CUX_U_STATE [31:16], chapter 16 R427. -/
def CUX_U_STATE_STATUS (i : Nat) : Fld := ⟨0x100100 + 0x80 * i, 16, 16⟩
/-- CUX_U_STATE [15:15], chapter 16 R427. -/
def CUX_U_STATE_SYNCED (i : Nat) : Fld := ⟨0x100100 + 0x80 * i, 15, 1⟩
/-- CUX_U_STATE [14:14], chapter 16 R427. -/
def CUX_U_STATE_PATH_K (i : Nat) : Fld := ⟨0x100100 + 0x80 * i, 14, 1⟩
/-- CUX_U_STATE [13:13], chapter 16 R427. -/
def CUX_U_STATE_PATH_L (i : Nat) : Fld := ⟨0x100100 + 0x80 * i, 13, 1⟩
/-- CUX_U_STATE [12:12], chapter 16 R427. -/
def CUX_U_STATE_DRILL (i : Nat) : Fld := ⟨0x100100 + 0x80 * i, 12, 1⟩
/-- CUX_U_STATE [11:8], chapter 16 R427. -/
def CUX_U_STATE_FAULT_CAUSE (i : Nat) : Fld := ⟨0x100100 + 0x80 * i, 8, 4⟩
/-- CUX_U_STATE [2:0], chapter 16 R427. -/
def CUX_U_STATE_STATE (i : Nat) : Fld := ⟨0x100100 + 0x80 * i, 0, 3⟩
/-- CUX_U_CTRL [0:0], chapter 16 R427. -/
def CUX_U_CTRL_CLAIM (i : Nat) : Fld := ⟨0x100104 + 0x80 * i, 0, 1⟩
/-- CUX_U_KICK [31:0], chapter 16 R427. -/
def CUX_U_KICK_KICK (i : Nat) : Fld := ⟨0x100108 + 0x80 * i, 0, 32⟩
/-- CUX_U_WDOG [23:0], chapter 16 R427. -/
def CUX_U_WDOG_WDOG_US (i : Nat) : Fld := ⟨0x10010c + 0x80 * i, 0, 24⟩
/-- CUX_U_IRQ_EN [6:0], chapter 16 R427. -/
def CUX_U_IRQ_EN_EN (i : Nat) : Fld := ⟨0x100110 + 0x80 * i, 0, 7⟩
/-- CUX_U_IRQ [6:0], chapter 16 R427. -/
def CUX_U_IRQ_IRQ (i : Nat) : Fld := ⟨0x100114 + 0x80 * i, 0, 7⟩
/-- CUX_U_MIR_BASE [20:16], chapter 16 R427. -/
def CUX_U_MIR_BASE_BASE (i : Nat) : Fld := ⟨0x100118 + 0x80 * i, 16, 5⟩
/-- CUX_U_MIR_PTR [27:16], chapter 16 R427. -/
def CUX_U_MIR_PTR_HEAD (i : Nat) : Fld := ⟨0x10011c + 0x80 * i, 16, 12⟩
/-- CUX_U_MIR_PTR [11:0], chapter 16 R427. -/
def CUX_U_MIR_PTR_TAIL (i : Nat) : Fld := ⟨0x10011c + 0x80 * i, 0, 12⟩
/-- CUX_U_JTX_BASE [20:16], chapter 16 R427. -/
def CUX_U_JTX_BASE_BASE (i : Nat) : Fld := ⟨0x100120 + 0x80 * i, 16, 5⟩
/-- CUX_U_JTX_DB [12:0], chapter 16 R427. -/
def CUX_U_JTX_DB_LEN (i : Nat) : Fld := ⟨0x100124 + 0x80 * i, 0, 13⟩
/-- CUX_U_JTX_PTR [27:16], chapter 16 R427. -/
def CUX_U_JTX_PTR_HEAD (i : Nat) : Fld := ⟨0x100128 + 0x80 * i, 16, 12⟩
/-- CUX_U_JTX_PTR [11:0], chapter 16 R427. -/
def CUX_U_JTX_PTR_TAIL (i : Nat) : Fld := ⟨0x100128 + 0x80 * i, 0, 12⟩
/-- CUX_U_JRX_BASE [20:16], chapter 16 R427. -/
def CUX_U_JRX_BASE_BASE (i : Nat) : Fld := ⟨0x10012c + 0x80 * i, 16, 5⟩
/-- CUX_U_JRX_PTR [27:16], chapter 16 R427. -/
def CUX_U_JRX_PTR_HEAD (i : Nat) : Fld := ⟨0x100130 + 0x80 * i, 16, 12⟩
/-- CUX_U_JRX_PTR [11:0], chapter 16 R427. -/
def CUX_U_JRX_PTR_TAIL (i : Nat) : Fld := ⟨0x100130 + 0x80 * i, 0, 12⟩
/-- PWR_STATUS [31:16], chapter 17 R450. -/
def PWR_STATUS_STATUS : Fld := ⟨0x80000, 16, 16⟩
/-- PWR_STATUS [7:7], chapter 17 R450. -/
def PWR_STATUS_TEMP_IRQ : Fld := ⟨0x80000, 7, 1⟩
/-- PWR_STATUS [6:6], chapter 17 R450. -/
def PWR_STATUS_LOWIN_IRQ : Fld := ⟨0x80000, 6, 1⟩
/-- PWR_STATUS [4:4], chapter 17 R450. -/
def PWR_STATUS_LOWIN_1S : Fld := ⟨0x80000, 4, 1⟩
/-- PWR_STATUS [3:3], chapter 17 R450. -/
def PWR_STATUS_LOWIN : Fld := ⟨0x80000, 3, 1⟩
/-- PWR_STATUS [2:0], chapter 17 R450. -/
def PWR_STATUS_DAY : Fld := ⟨0x80000, 0, 3⟩
/-- PWR_CTRL [31:31], chapter 17 R450. -/
def PWR_CTRL_SLEEP : Fld := ⟨0x80004, 31, 1⟩
/-- PWR_CTRL [30:30], chapter 17 R450. -/
def PWR_CTRL_FORCE : Fld := ⟨0x80004, 30, 1⟩
/-- PWR_CTRL [1:1], chapter 17 R450. -/
def PWR_CTRL_TEMP_IRQ_EN : Fld := ⟨0x80004, 1, 1⟩
/-- PWR_CTRL [0:0], chapter 17 R450. -/
def PWR_CTRL_LOWIN_IRQ_EN : Fld := ⟨0x80004, 0, 1⟩
/-- PWR_LOWIN [15:0], chapter 17 R450. -/
def PWR_LOWIN_THRESH_MV : Fld := ⟨0x80008, 0, 16⟩
/-- PWR_VIN [31:16], chapter 17 R450. -/
def PWR_VIN_VIN_MIN : Fld := ⟨0x8000c, 16, 16⟩
/-- PWR_VIN [15:0], chapter 17 R450. -/
def PWR_VIN_VIN : Fld := ⟨0x8000c, 0, 16⟩
/-- PWR_IIN [15:0], chapter 17 R450. -/
def PWR_IIN_MA : Fld := ⟨0x80010, 0, 16⟩
/-- PWR_PIN [31:0], chapter 17 R450. -/
def PWR_PIN_MW : Fld := ⟨0x80014, 0, 32⟩
/-- PWR_TEMP [31:16], chapter 17 R450. -/
def PWR_TEMP_MAX : Fld := ⟨0x80018, 16, 16⟩
/-- PWR_TEMP [15:0], chapter 17 R450. -/
def PWR_TEMP_CUR : Fld := ⟨0x80018, 0, 16⟩
/-- PWR_TEMP_WARN [15:0], chapter 17 R450. -/
def PWR_TEMP_WARN_TEMP : Fld := ⟨0x8001c, 0, 16⟩
/-- PWR_LAST_OFF [9:8], chapter 17 R450. -/
def PWR_LAST_OFF_WAKE : Fld := ⟨0x80020, 8, 2⟩
/-- PWR_LAST_OFF [1:0], chapter 17 R450. -/
def PWR_LAST_OFF_CAUSE : Fld := ⟨0x80020, 0, 2⟩
/-- PWR_WAKE_CFG [2:2], chapter 17 R450. -/
def PWR_WAKE_CFG_INPUT_RISE_EN : Fld := ⟨0x80024, 2, 1⟩
/-- PWR_WAKE_CFG [1:1], chapter 17 R450. -/
def PWR_WAKE_CFG_ALARM_EN : Fld := ⟨0x80024, 1, 1⟩
/-- PWR_WAKE_CFG [0:0], chapter 17 R450. -/
def PWR_WAKE_CFG_WAKE_N_EN : Fld := ⟨0x80024, 0, 1⟩
/-- PWR_WAKE_ALARM [31:0], chapter 17 R450. -/
def PWR_WAKE_ALARM_TICKS : Fld := ⟨0x80028, 0, 32⟩
/-- PWR_WAKE_VIN [15:0], chapter 17 R450. -/
def PWR_WAKE_VIN_MV : Fld := ⟨0x8002c, 0, 16⟩
/-- PWR_ISL [31:31], chapter 17 R450. -/
def PWR_ISL_FORCE_AWAKE (i : Nat) : Fld := ⟨0x80100 + 0x4 * i, 31, 1⟩
/-- PWR_ISL [30:30], chapter 17 R450. -/
def PWR_ISL_KEEP_AWAKE (i : Nat) : Fld := ⟨0x80100 + 0x4 * i, 30, 1⟩
/-- PWR_ISL [29:29], chapter 17 R450. -/
def PWR_ISL_PENDING_ENABLE (i : Nat) : Fld := ⟨0x80100 + 0x4 * i, 29, 1⟩
/-- PWR_ISL [1:0], chapter 17 R450. -/
def PWR_ISL_STATE (i : Nat) : Fld := ⟨0x80100 + 0x4 * i, 0, 2⟩
/-- PWR_ISL_WAKES [31:0], chapter 17 R450. -/
def PWR_ISL_WAKES_COUNT (i : Nat) : Fld := ⟨0x80200 + 0x4 * i, 0, 32⟩
/-- CLK_FCLK [1:0], chapter 17 R451. -/
def CLK_FCLK_SEL : Fld := ⟨0xc0000, 0, 2⟩
/-- CLK_ECLK [1:0], chapter 17 R451. -/
def CLK_ECLK_SEL : Fld := ⟨0xc0004, 0, 2⟩
/-- CLK_STATUS [31:16], chapter 17 R451. -/
def CLK_STATUS_STATUS : Fld := ⟨0xc0008, 16, 16⟩
/-- CLK_STATUS [3:3], chapter 17 R451. -/
def CLK_STATUS_CSWITCHING : Fld := ⟨0xc0008, 3, 1⟩
/-- CLK_STATUS [2:2], chapter 17 R451. -/
def CLK_STATUS_ESWITCHING : Fld := ⟨0xc0008, 2, 1⟩
/-- CLK_STATUS [1:1], chapter 17 R451. -/
def CLK_STATUS_FSWITCHING : Fld := ⟨0xc0008, 1, 1⟩
/-- CLK_CCLK [1:0], chapter 17 R451. -/
def CLK_CCLK_SEL (i : Nat) : Fld := ⟨0xc0010 + 0x4 * i, 0, 2⟩
/-- KPR_CTRL [31:31], chapter 18 R472. -/
def KPR_CTRL_WARM_RESET : Fld := ⟨0x40000, 31, 1⟩
/-- KPR_CTRL [30:30], chapter 18 R472. -/
def KPR_CTRL_FORCE : Fld := ⟨0x40000, 30, 1⟩
/-- KPR_CTRL [29:29], chapter 18 R472. -/
def KPR_CTRL_RESTART_UNIT : Fld := ⟨0x40000, 29, 1⟩
/-- KPR_CTRL [0:0], chapter 18 R472. -/
def KPR_CTRL_UNIT : Fld := ⟨0x40000, 0, 1⟩
/-- KPR_BOOT [31:16], chapter 18 R472. -/
def KPR_BOOT_STATUS : Fld := ⟨0x40004, 16, 16⟩
/-- KPR_BOOT [15:14], chapter 18 R472. -/
def KPR_BOOT_BOOT_SEL : Fld := ⟨0x40004, 14, 2⟩
/-- KPR_BOOT [13:13], chapter 18 R472. -/
def KPR_BOOT_PREF : Fld := ⟨0x40004, 13, 1⟩
/-- KPR_BOOT [12:10], chapter 18 R472. -/
def KPR_BOOT_SOURCE : Fld := ⟨0x40004, 10, 3⟩
/-- KPR_BOOT [3:0], chapter 18 R472. -/
def KPR_BOOT_FALLBACK : Fld := ⟨0x40004, 0, 4⟩
/-- KPR_HOST_GO [0:0], chapter 18 R472. -/
def KPR_HOST_GO_GO : Fld := ⟨0x40008, 0, 1⟩
/-- KPR_DIR_SEQ [31:0], chapter 18 R472. -/
def KPR_DIR_SEQ_SEQ : Fld := ⟨0x4000c, 0, 32⟩
/-- KPR_VER_KEEPER [31:0], chapter 18 R472. -/
def KPR_VER_KEEPER_VER : Fld := ⟨0x40010, 0, 32⟩
/-- KPR_VER_CFG [31:0], chapter 18 R472. -/
def KPR_VER_CFG_VER : Fld := ⟨0x40014, 0, 32⟩
/-- KPR_VER_UNIT [31:0], chapter 18 R472. -/
def KPR_VER_UNIT_VER : Fld := ⟨0x40018, 0, 32⟩
/-- KPR_VER_LIB [31:0], chapter 18 R472. -/
def KPR_VER_LIB_VER : Fld := ⟨0x4001c, 0, 32⟩
/-- KPR_UNIT_RESTARTS [31:16], chapter 18 R472. -/
def KPR_UNIT_RESTARTS_DEIMOS : Fld := ⟨0x40020, 16, 16⟩
/-- KPR_UNIT_RESTARTS [15:0], chapter 18 R472. -/
def KPR_UNIT_RESTARTS_PHOBOS : Fld := ⟨0x40020, 0, 16⟩
/-- KPR_KEEPER_RESTARTS [31:0], chapter 18 R472. -/
def KPR_KEEPER_RESTARTS_COUNT : Fld := ⟨0x40024, 0, 32⟩
/-- KPR_BOOT_LIB_LO [31:6], chapter 18 R472. -/
def KPR_BOOT_LIB_LO_ADDR : Fld := ⟨0x40028, 6, 26⟩
/-- KPR_BOOT_LIB_HI [7:0], chapter 18 R472. -/
def KPR_BOOT_LIB_HI_ADDR : Fld := ⟨0x4002c, 0, 8⟩
/-- KPR_BOOT_LIB_LEN [31:0], chapter 18 R472. -/
def KPR_BOOT_LIB_LEN_LEN : Fld := ⟨0x40030, 0, 32⟩
/-- FUSE_SERIAL [31:0], chapter 18 R466. -/
def FUSE_SERIAL_SERIAL : Fld := ⟨0x800060, 0, 32⟩
/-- FUSE_WEEK [7:0], chapter 18 R466. -/
def FUSE_WEEK_WEEK : Fld := ⟨0x800064, 0, 8⟩
/-- FUSE_VENDOR_HASH [31:0], chapter 18 R466. -/
def FUSE_VENDOR_HASH_V (i : Nat) : Fld := ⟨0x800080 + 0x4 * i, 0, 32⟩
/-- FUSE_OWNER_HASH [31:0], chapter 18 R466. -/
def FUSE_OWNER_HASH_V (i : Nat) : Fld := ⟨0x8000a0 + 0x4 * i, 0, 32⟩
/-- FUSE_LOCKS [5:4], chapter 18 R466. -/
def FUSE_LOCKS_OWNER_KEY_STATE : Fld := ⟨0x8000c0, 4, 2⟩
/-- FUSE_LOCKS [1:1], chapter 18 R466. -/
def FUSE_LOCKS_OWNER_LOCK : Fld := ⟨0x8000c0, 1, 1⟩
/-- FUSE_LOCKS [0:0], chapter 18 R466. -/
def FUSE_LOCKS_DBG_CLOSE : Fld := ⟨0x8000c0, 0, 1⟩
/-- FUSE_PROG_DATA [31:0], chapter 18 R466. -/
def FUSE_PROG_DATA_V (i : Nat) : Fld := ⟨0x800100 + 0x4 * i, 0, 32⟩
/-- FUSE_PROG_CMD [31:16], chapter 18 R466. -/
def FUSE_PROG_CMD_CONFIRM : Fld := ⟨0x800120, 16, 16⟩
/-- FUSE_PROG_CMD [1:0], chapter 18 R466. -/
def FUSE_PROG_CMD_TARGET : Fld := ⟨0x800120, 0, 2⟩
/-- FUSE_PROG_STATUS [31:16], chapter 18 R466. -/
def FUSE_PROG_STATUS_STATUS : Fld := ⟨0x800124, 16, 16⟩
/-- FUSE_PROG_STATUS [0:0], chapter 18 R466. -/
def FUSE_PROG_STATUS_BUSY : Fld := ⟨0x800124, 0, 1⟩
/-- DBG_STATUS [31:31], chapter 18 R466. -/
def DBG_STATUS_CLOSED : Fld := ⟨0x840000, 31, 1⟩
/-- DBG_STATUS [7:0], chapter 18 R466. -/
def DBG_STATUS_HALTED : Fld := ⟨0x840000, 0, 8⟩
/-- MAG_CFG [1:0], chapter 08 R266. -/
def MAG_CFG_BIFURC : Fld := ⟨0x480000, 0, 2⟩
/-- MAG_STATUS [31:16], chapter 08 R266. -/
def MAG_STATUS_STATUS : Fld := ⟨0x480004, 16, 16⟩
/-- MAG_STATUS [7:7], chapter 08 R266. -/
def MAG_STATUS_SPACE_IRQ : Fld := ⟨0x480004, 7, 1⟩
/-- MAG_STATUS [6:6], chapter 08 R266. -/
def MAG_STATUS_PORT_IRQ : Fld := ⟨0x480004, 6, 1⟩
/-- MAG_STATUS [5:5], chapter 08 R266. -/
def MAG_STATUS_OMIT_IRQ : Fld := ⟨0x480004, 5, 1⟩
/-- MAG_STATUS [4:4], chapter 08 R266. -/
def MAG_STATUS_TAKE_IRQ : Fld := ⟨0x480004, 4, 1⟩
/-- MAG_STATUS [2:0], chapter 08 R266. -/
def MAG_STATUS_TAKE_STATE : Fld := ⟨0x480004, 0, 3⟩
/-- MAG_IRQ_EN [7:7], chapter 08 R266. -/
def MAG_IRQ_EN_SPACE_IRQ : Fld := ⟨0x480008, 7, 1⟩
/-- MAG_IRQ_EN [6:6], chapter 08 R266. -/
def MAG_IRQ_EN_PORT_IRQ : Fld := ⟨0x480008, 6, 1⟩
/-- MAG_IRQ_EN [5:5], chapter 08 R266. -/
def MAG_IRQ_EN_OMIT_IRQ : Fld := ⟨0x480008, 5, 1⟩
/-- MAG_IRQ_EN [4:4], chapter 08 R266. -/
def MAG_IRQ_EN_TAKE_IRQ : Fld := ⟨0x480008, 4, 1⟩
/-- MAG_TAKE_ID [31:0], chapter 08 R266. -/
def MAG_TAKE_ID_TAKE_ID : Fld := ⟨0x48000c, 0, 32⟩
/-- MAG_TAKE_CFG [31:16], chapter 08 R266. -/
def MAG_TAKE_CFG_FLUSH_RECS : Fld := ⟨0x480010, 16, 16⟩
/-- MAG_TAKE_CFG [11:8], chapter 08 R266. -/
def MAG_TAKE_CFG_PORTS : Fld := ⟨0x480010, 8, 4⟩
/-- MAG_TAKE_CFG [1:0], chapter 08 R266. -/
def MAG_TAKE_CFG_MODE : Fld := ⟨0x480010, 0, 2⟩
/-- MAG_TAKE_CMD [2:2], chapter 08 R266. -/
def MAG_TAKE_CMD_ABORT : Fld := ⟨0x480014, 2, 1⟩
/-- MAG_TAKE_CMD [1:1], chapter 08 R266. -/
def MAG_TAKE_CMD_STOP : Fld := ⟨0x480014, 1, 1⟩
/-- MAG_TAKE_CMD [0:0], chapter 08 R266. -/
def MAG_TAKE_CMD_START : Fld := ⟨0x480014, 0, 1⟩
/-- MAG_USER_ADDR_LO [31:4], chapter 08 R266. -/
def MAG_USER_ADDR_LO_ADDR : Fld := ⟨0x480018, 4, 28⟩
/-- MAG_USER_ADDR_HI [7:0], chapter 08 R266. -/
def MAG_USER_ADDR_HI_ADDR : Fld := ⟨0x48001c, 0, 8⟩
/-- MAG_USER_LEN [11:0], chapter 08 R266. -/
def MAG_USER_LEN_LEN : Fld := ⟨0x480020, 0, 12⟩
/-- MAG_RING_FREE [31:0], chapter 08 R266. -/
def MAG_RING_FREE_BLOCKS : Fld := ⟨0x480024, 0, 32⟩
/-- MAG_RING_LOW [31:0], chapter 08 R266. -/
def MAG_RING_LOW_BLOCKS : Fld := ⟨0x480028, 0, 32⟩
/-- MAG_REC_SEQ [31:0], chapter 08 R266. -/
def MAG_REC_SEQ_SEQ : Fld := ⟨0x48002c, 0, 32⟩
/-- MAG_OMIT_FRAMES [31:0], chapter 08 R266. -/
def MAG_OMIT_FRAMES_COUNT : Fld := ⟨0x480030, 0, 32⟩
/-- MAG_OMIT_TILES [31:0], chapter 08 R266. -/
def MAG_OMIT_TILES_COUNT : Fld := ⟨0x480034, 0, 32⟩
/-- MAG_EXCESS_TILES [31:0], chapter 08 R266. -/
def MAG_EXCESS_TILES_COUNT : Fld := ⟨0x480038, 0, 32⟩
/-- MAG_SPACE_LOW [31:0], chapter 08 R266. -/
def MAG_SPACE_LOW_THRESHOLD : Fld := ⟨0x48003c, 0, 32⟩
/-- MAG_P_CTRL [31:31], chapter 08 R266. -/
def MAG_P_CTRL_EN (i : Nat) : Fld := ⟨0x480100 + 0x80 * i, 31, 1⟩
/-- MAG_P_CTRL [30:30], chapter 08 R266. -/
def MAG_P_CTRL_HWQ_EN (i : Nat) : Fld := ⟨0x480100 + 0x80 * i, 30, 1⟩
/-- MAG_P_STATUS [31:16], chapter 08 R266. -/
def MAG_P_STATUS_STATUS (i : Nat) : Fld := ⟨0x480104 + 0x80 * i, 16, 16⟩
/-- MAG_P_STATUS [15:15], chapter 08 R266. -/
def MAG_P_STATUS_PENDING_ENABLE (i : Nat) : Fld := ⟨0x480104 + 0x80 * i, 15, 1⟩
/-- MAG_P_STATUS [14:12], chapter 08 R266. -/
def MAG_P_STATUS_SPEED (i : Nat) : Fld := ⟨0x480104 + 0x80 * i, 12, 3⟩
/-- MAG_P_STATUS [11:7], chapter 08 R266. -/
def MAG_P_STATUS_WIDTH (i : Nat) : Fld := ⟨0x480104 + 0x80 * i, 7, 5⟩
/-- MAG_P_STATUS [6:6], chapter 08 R266. -/
def MAG_P_STATUS_MSG_IRQ (i : Nat) : Fld := ⟨0x480104 + 0x80 * i, 6, 1⟩
/-- MAG_P_STATUS [5:5], chapter 08 R266. -/
def MAG_P_STATUS_ERR_IRQ (i : Nat) : Fld := ⟨0x480104 + 0x80 * i, 5, 1⟩
/-- MAG_P_STATUS [4:4], chapter 08 R266. -/
def MAG_P_STATUS_LINK_IRQ (i : Nat) : Fld := ⟨0x480104 + 0x80 * i, 4, 1⟩
/-- MAG_P_STATUS [2:0], chapter 08 R266. -/
def MAG_P_STATUS_PSTATE (i : Nat) : Fld := ⟨0x480104 + 0x80 * i, 0, 3⟩
/-- MAG_P_QAREA_LO [31:12], chapter 08 R266. -/
def MAG_P_QAREA_LO_ADDR (i : Nat) : Fld := ⟨0x480108 + 0x80 * i, 12, 20⟩
/-- MAG_P_QAREA_HI [7:0], chapter 08 R266. -/
def MAG_P_QAREA_HI_ADDR (i : Nat) : Fld := ⟨0x48010c + 0x80 * i, 0, 8⟩
/-- MAG_P_QCFG [31:28], chapter 08 R266. -/
def MAG_P_QCFG_MAX_XFER (i : Nat) : Fld := ⟨0x480110 + 0x80 * i, 28, 4⟩
/-- MAG_P_QCFG [27:24], chapter 08 R266. -/
def MAG_P_QCFG_LBA_SHIFT (i : Nat) : Fld := ⟨0x480110 + 0x80 * i, 24, 4⟩
/-- MAG_P_QCFG [23:16], chapter 08 R266. -/
def MAG_P_QCFG_QID (i : Nat) : Fld := ⟨0x480110 + 0x80 * i, 16, 8⟩
/-- MAG_P_QCFG [10:0], chapter 08 R266. -/
def MAG_P_QCFG_DEPTH (i : Nat) : Fld := ⟨0x480110 + 0x80 * i, 0, 11⟩
/-- MAG_P_NSID [31:0], chapter 08 R266. -/
def MAG_P_NSID_NSID (i : Nat) : Fld := ⟨0x48011c + 0x80 * i, 0, 32⟩
/-- MAG_P_EXT_LO [31:4], chapter 08 R266. -/
def MAG_P_EXT_LO_ADDR (i : Nat) : Fld := ⟨0x480120 + 0x80 * i, 4, 28⟩
/-- MAG_P_EXT_HI [7:0], chapter 08 R266. -/
def MAG_P_EXT_HI_ADDR (i : Nat) : Fld := ⟨0x480124 + 0x80 * i, 0, 8⟩
/-- MAG_P_EXT_COUNT [15:0], chapter 08 R266. -/
def MAG_P_EXT_COUNT_COUNT (i : Nat) : Fld := ⟨0x480128 + 0x80 * i, 0, 16⟩
/-- MAG_P_EXT_POS [15:0], chapter 08 R266. -/
def MAG_P_EXT_POS_INDEX (i : Nat) : Fld := ⟨0x48012c + 0x80 * i, 0, 16⟩
/-- MAG_P_FREE [31:0], chapter 08 R266. -/
def MAG_P_FREE_MIB (i : Nat) : Fld := ⟨0x480130 + 0x80 * i, 0, 32⟩
/-- MAG_P_RECS [31:0], chapter 08 R266. -/
def MAG_P_RECS_COUNT (i : Nat) : Fld := ⟨0x480134 + 0x80 * i, 0, 32⟩
/-- MAG_P_DENY [31:0], chapter 08 R266. -/
def MAG_P_DENY_COUNT (i : Nat) : Fld := ⟨0x48013c + 0x80 * i, 0, 32⟩
/-- MAG_P_ERR [30:16], chapter 08 R266. -/
def MAG_P_ERR_SF (i : Nat) : Fld := ⟨0x480140 + 0x80 * i, 16, 15⟩
/-- MAG_P_ERR [15:0], chapter 08 R266. -/
def MAG_P_ERR_CID (i : Nat) : Fld := ⟨0x480140 + 0x80 * i, 0, 16⟩
/-- MAG_P_CFGA [31:31], chapter 08 R266. -/
def MAG_P_CFGA_WRITE (i : Nat) : Fld := ⟨0x480144 + 0x80 * i, 31, 1⟩
/-- MAG_P_CFGD [31:0], chapter 08 R266. -/
def MAG_P_CFGD_DATA (i : Nat) : Fld := ⟨0x480148 + 0x80 * i, 0, 32⟩
/-- PTP_CTRL [7:7], chapter 13 R371. -/
def PTP_CTRL_STATE_IRQ_EN : Fld := ⟨0x680000, 7, 1⟩
/-- PTP_CTRL [6:6], chapter 13 R371. -/
def PTP_CTRL_ERR_IRQ_EN : Fld := ⟨0x680000, 6, 1⟩
/-- PTP_CTRL [3:3], chapter 13 R371. -/
def PTP_CTRL_TWO_STEP : Fld := ⟨0x680000, 3, 1⟩
/-- PTP_CTRL [2:2], chapter 13 R371. -/
def PTP_CTRL_MASTER_EN : Fld := ⟨0x680000, 2, 1⟩
/-- PTP_CTRL [1:0], chapter 13 R371. -/
def PTP_CTRL_SRC : Fld := ⟨0x680000, 0, 2⟩
/-- PTP_STATUS [31:16], chapter 13 R371. -/
def PTP_STATUS_STATUS : Fld := ⟨0x680004, 16, 16⟩
/-- PTP_STATUS [7:7], chapter 13 R371. -/
def PTP_STATUS_STATE_IRQ : Fld := ⟨0x680004, 7, 1⟩
/-- PTP_STATUS [6:6], chapter 13 R371. -/
def PTP_STATUS_ERR_IRQ : Fld := ⟨0x680004, 6, 1⟩
/-- PTP_STATUS [5:5], chapter 13 R371. -/
def PTP_STATUS_MASTER : Fld := ⟨0x680004, 5, 1⟩
/-- PTP_STATUS [4:3], chapter 13 R371. -/
def PTP_STATUS_PPS_CLK : Fld := ⟨0x680004, 3, 2⟩
/-- PTP_STATUS [2:0], chapter 13 R371. -/
def PTP_STATUS_STATE : Fld := ⟨0x680004, 0, 3⟩
/-- PTP_CFG [27:24], chapter 13 R371. -/
def PTP_CFG_ANN_TIMEOUT : Fld := ⟨0x680008, 24, 4⟩
/-- PTP_CFG [23:20], chapter 13 R371. -/
def PTP_CFG_LOG_ANNOUNCE : Fld := ⟨0x680008, 20, 4⟩
/-- PTP_CFG [19:16], chapter 13 R371. -/
def PTP_CFG_LOG_SYNC : Fld := ⟨0x680008, 16, 4⟩
/-- PTP_CFG [14:12], chapter 13 R371. -/
def PTP_CFG_CLASS : Fld := ⟨0x680008, 12, 3⟩
/-- PTP_CFG [10:8], chapter 13 R371. -/
def PTP_CFG_PORT : Fld := ⟨0x680008, 8, 3⟩
/-- PTP_CFG [7:0], chapter 13 R371. -/
def PTP_CFG_DOMAIN : Fld := ⟨0x680008, 0, 8⟩
/-- PTP_PRIO [31:24], chapter 13 R371. -/
def PTP_PRIO_P1 : Fld := ⟨0x68000c, 24, 8⟩
/-- PTP_PRIO [23:16], chapter 13 R371. -/
def PTP_PRIO_P2 : Fld := ⟨0x68000c, 16, 8⟩
/-- PTP_PRIO [15:8], chapter 13 R371. -/
def PTP_PRIO_CLASS : Fld := ⟨0x68000c, 8, 8⟩
/-- PTP_PRIO [7:0], chapter 13 R371. -/
def PTP_PRIO_ACCURACY : Fld := ⟨0x68000c, 0, 8⟩
/-- PTP_SERVO [31:16], chapter 13 R371. -/
def PTP_SERVO_STEP_THRESH : Fld := ⟨0x680010, 16, 16⟩
/-- PTP_SERVO [5:0], chapter 13 R371. -/
def PTP_SERVO_TC : Fld := ⟨0x680010, 0, 6⟩
/-- PTP_TIME_CMD [2:2], chapter 13 R371. -/
def PTP_TIME_CMD_ADJUST : Fld := ⟨0x680014, 2, 1⟩
/-- PTP_TIME_CMD [1:1], chapter 13 R371. -/
def PTP_TIME_CMD_SET : Fld := ⟨0x680014, 1, 1⟩
/-- PTP_TIME_CMD [0:0], chapter 13 R371. -/
def PTP_TIME_CMD_LATCH : Fld := ⟨0x680014, 0, 1⟩
/-- PTP_TIME_SEC_LO [31:0], chapter 13 R371. -/
def PTP_TIME_SEC_LO_SEC : Fld := ⟨0x680018, 0, 32⟩
/-- PTP_TIME_SEC_HI [15:0], chapter 13 R371. -/
def PTP_TIME_SEC_HI_SEC : Fld := ⟨0x68001c, 0, 16⟩
/-- PTP_TIME_NS [31:0], chapter 13 R371. -/
def PTP_TIME_NS_NS : Fld := ⟨0x680020, 0, 32⟩
/-- PTP_RATE_FRAC [31:0], chapter 13 R371. -/
def PTP_RATE_FRAC_V : Fld := ⟨0x680024, 0, 32⟩
/-- PTP_OFFSET [31:0], chapter 13 R371. -/
def PTP_OFFSET_V : Fld := ⟨0x680028, 0, 32⟩
/-- PTP_PATH_DELAY [31:0], chapter 13 R371. -/
def PTP_PATH_DELAY_V : Fld := ⟨0x68002c, 0, 32⟩
/-- PTP_GM_ID_HI [31:0], chapter 13 R371. -/
def PTP_GM_ID_HI_V : Fld := ⟨0x680030, 0, 32⟩
/-- PTP_GM_ID_LO [31:0], chapter 13 R371. -/
def PTP_GM_ID_LO_V : Fld := ⟨0x680034, 0, 32⟩
/-- PTP_UTC [24:24], chapter 13 R371. -/
def PTP_UTC_DAYLIGHT : Fld := ⟨0x680038, 24, 1⟩
/-- PTP_UTC [16:16], chapter 13 R371. -/
def PTP_UTC_VALID : Fld := ⟨0x680038, 16, 1⟩
/-- PTP_UTC [15:0], chapter 13 R371. -/
def PTP_UTC_OFFSET : Fld := ⟨0x680038, 0, 16⟩
/-- PTP_SM_LOCAL [31:0], chapter 13 R371. -/
def PTP_SM_LOCAL_V : Fld := ⟨0x68003c, 0, 32⟩
/-- PTP_TC_CFG [5:5], chapter 13 R371. -/
def PTP_TC_CFG_TC_LOCAL_SRC : Fld := ⟨0x680040, 5, 1⟩
/-- PTP_TC_CFG [4:4], chapter 13 R371. -/
def PTP_TC_CFG_TC_DROP : Fld := ⟨0x680040, 4, 1⟩
/-- PTP_TC_CFG [2:0], chapter 13 R371. -/
def PTP_TC_CFG_TC_RATE : Fld := ⟨0x680040, 0, 3⟩
/-- PTP_TC_LOCAL [31:0], chapter 13 R371. -/
def PTP_TC_LOCAL_V : Fld := ⟨0x680044, 0, 32⟩
/-- PTP_TC_NOW [31:0], chapter 13 R371. -/
def PTP_TC_NOW_V : Fld := ⟨0x680048, 0, 32⟩
/-- PTP_PPS_CFG [7:0], chapter 13 R371. -/
def PTP_PPS_CFG_GLITCH_LIMIT : Fld := ⟨0x680050, 0, 8⟩
/-- PTP_AO_PPB [31:0], chapter 13 R371. -/
def PTP_AO_PPB_V : Fld := ⟨0x680054, 0, 32⟩
/-- PTP_SYNC_RX [31:0], chapter 13 R371. -/
def PTP_SYNC_RX_COUNT : Fld := ⟨0x680060, 0, 32⟩
/-- PTP_STEPS [31:0], chapter 13 R371. -/
def PTP_STEPS_COUNT : Fld := ⟨0x680064, 0, 32⟩
/-- PTP_DROP [31:0], chapter 13 R371. -/
def PTP_DROP_COUNT : Fld := ⟨0x680068, 0, 32⟩
/-- PTP_PPS_GLITCH [31:0], chapter 13 R371. -/
def PTP_PPS_GLITCH_COUNT : Fld := ⟨0x68006c, 0, 32⟩
/-- TPO_CTRL [31:31], chapter 13 R371. -/
def TPO_CTRL_EN (i : Nat) : Fld := ⟨0x680100 + 0x20 * i, 31, 1⟩
/-- TPO_CTRL [4:4], chapter 13 R371. -/
def TPO_CTRL_ACTIVE (i : Nat) : Fld := ⟨0x680100 + 0x20 * i, 4, 1⟩
/-- TPO_CTRL [1:0], chapter 13 R371. -/
def TPO_CTRL_MODE (i : Nat) : Fld := ⟨0x680100 + 0x20 * i, 0, 2⟩
/-- TPO_START_SEC_LO [31:0], chapter 13 R371. -/
def TPO_START_SEC_LO_SEC (i : Nat) : Fld := ⟨0x680104 + 0x20 * i, 0, 32⟩
/-- TPO_START_SEC_HI [15:0], chapter 13 R371. -/
def TPO_START_SEC_HI_SEC (i : Nat) : Fld := ⟨0x680108 + 0x20 * i, 0, 16⟩
/-- TPO_START_NS [31:0], chapter 13 R371. -/
def TPO_START_NS_NS (i : Nat) : Fld := ⟨0x68010c + 0x20 * i, 0, 32⟩
/-- TPO_PERIOD_NS [31:0], chapter 13 R371. -/
def TPO_PERIOD_NS_NS (i : Nat) : Fld := ⟨0x680110 + 0x20 * i, 0, 32⟩
/-- TPO_WIDTH_NS [31:0], chapter 13 R371. -/
def TPO_WIDTH_NS_NS (i : Nat) : Fld := ⟨0x680114 + 0x20 * i, 0, 32⟩
/-- TPO_STATUS [31:16], chapter 13 R371. -/
def TPO_STATUS_STATUS (i : Nat) : Fld := ⟨0x680118 + 0x20 * i, 16, 16⟩
/-- TPO_MISSED [31:0], chapter 13 R371. -/
def TPO_MISSED_COUNT (i : Nat) : Fld := ⟨0x68011c + 0x20 * i, 0, 32⟩
/-- TPO_CAP_SEC_LO [31:0], chapter 13 R371. -/
def TPO_CAP_SEC_LO_SEC (i : Nat) : Fld := ⟨0x680300 + 0x10 * i, 0, 32⟩
/-- TPO_CAP_SEC_HI [15:0], chapter 13 R371. -/
def TPO_CAP_SEC_HI_SEC (i : Nat) : Fld := ⟨0x680304 + 0x10 * i, 0, 16⟩
/-- TPO_CAP_NS [31:0], chapter 13 R371. -/
def TPO_CAP_NS_NS (i : Nat) : Fld := ⟨0x680308 + 0x10 * i, 0, 32⟩
/-- TPO_CAP_COUNT [31:0], chapter 13 R371. -/
def TPO_CAP_COUNT_COUNT (i : Nat) : Fld := ⟨0x68030c + 0x10 * i, 0, 32⟩
/-- SLK_G_CFG [31:31], chapter 06 R215. -/
def SLK_G_CFG_EN (i : Nat) : Fld := ⟨0x400000 + 0x100 * i, 31, 1⟩
/-- SLK_G_CFG [30:30], chapter 06 R215. -/
def SLK_G_CFG_CNT_CLR (i : Nat) : Fld := ⟨0x400000 + 0x100 * i, 30, 1⟩
/-- SLK_G_CFG [17:16], chapter 06 R215. -/
def SLK_G_CFG_LOOP (i : Nat) : Fld := ⟨0x400000 + 0x100 * i, 16, 2⟩
/-- SLK_G_CFG [13:12], chapter 06 R215. -/
def SLK_G_CFG_TX_MODE (i : Nat) : Fld := ⟨0x400000 + 0x100 * i, 12, 2⟩
/-- SLK_G_CFG [9:8], chapter 06 R215. -/
def SLK_G_CFG_TX_WIDTH (i : Nat) : Fld := ⟨0x400000 + 0x100 * i, 8, 2⟩
/-- SLK_G_CFG [5:4], chapter 06 R215. -/
def SLK_G_CFG_WIDTH (i : Nat) : Fld := ⟨0x400000 + 0x100 * i, 4, 2⟩
/-- SLK_G_CFG [2:0], chapter 06 R215. -/
def SLK_G_CFG_RATE (i : Nat) : Fld := ⟨0x400000 + 0x100 * i, 0, 3⟩
/-- SLK_G_STATUS [31:16], chapter 06 R215. -/
def SLK_G_STATUS_STATUS (i : Nat) : Fld := ⟨0x400004 + 0x100 * i, 16, 16⟩
/-- SLK_G_STATUS [11:10], chapter 06 R215. -/
def SLK_G_STATUS_CLK (i : Nat) : Fld := ⟨0x400004 + 0x100 * i, 10, 2⟩
/-- SLK_G_STATUS [9:9], chapter 06 R215. -/
def SLK_G_STATUS_SPARE_ACTIVE (i : Nat) : Fld := ⟨0x400004 + 0x100 * i, 9, 1⟩
/-- SLK_G_STATUS [8:8], chapter 06 R215. -/
def SLK_G_STATUS_MIRRORING (i : Nat) : Fld := ⟨0x400004 + 0x100 * i, 8, 1⟩
/-- SLK_G_STATUS [2:0], chapter 06 R215. -/
def SLK_G_STATUS_GSTATE (i : Nat) : Fld := ⟨0x400004 + 0x100 * i, 0, 3⟩
/-- SLK_G_IRQ_EN [7:3], chapter 06 R215. -/
def SLK_G_IRQ_EN_EN (i : Nat) : Fld := ⟨0x400008 + 0x100 * i, 3, 5⟩
/-- SLK_G_FILL [15:0], chapter 06 R215. -/
def SLK_G_FILL_FILL (i : Nat) : Fld := ⟨0x40000c + 0x100 * i, 0, 16⟩
/-- SLK_G_CLK [31:16], chapter 06 R215. -/
def SLK_G_CLK_PPM (i : Nat) : Fld := ⟨0x400010 + 0x100 * i, 16, 16⟩
/-- SLK_G_CLK [7:0], chapter 06 R215. -/
def SLK_G_CLK_GLITCH_LIMIT (i : Nat) : Fld := ⟨0x400010 + 0x100 * i, 0, 8⟩
/-- SLK_G_SPARE [31:31], chapter 06 R215. -/
def SLK_G_SPARE_TAKEOVER (i : Nat) : Fld := ⟨0x400014 + 0x100 * i, 31, 1⟩
/-- SLK_G_SPARE [30:30], chapter 06 R215. -/
def SLK_G_SPARE_RELEASE (i : Nat) : Fld := ⟨0x400014 + 0x100 * i, 30, 1⟩
/-- SLK_G_SPARE [2:0], chapter 06 R215. -/
def SLK_G_SPARE_POSITION (i : Nat) : Fld := ⟨0x400014 + 0x100 * i, 0, 3⟩
/-- SLK_G_SEQ_CMD [31:31], chapter 06 R215. -/
def SLK_G_SEQ_CMD_START (i : Nat) : Fld := ⟨0x400020 + 0x100 * i, 31, 1⟩
/-- SLK_G_SEQ_CMD [30:30], chapter 06 R215. -/
def SLK_G_SEQ_CMD_STOP (i : Nat) : Fld := ⟨0x400020 + 0x100 * i, 30, 1⟩
/-- SLK_G_SEQ_CMD [29:28], chapter 06 R215. -/
def SLK_G_SEQ_CMD_TRIGGER (i : Nat) : Fld := ⟨0x400020 + 0x100 * i, 28, 2⟩
/-- SLK_G_SEQ_CMD [15:0], chapter 06 R215. -/
def SLK_G_SEQ_CMD_TABLE_ID (i : Nat) : Fld := ⟨0x400020 + 0x100 * i, 0, 16⟩
/-- SLK_G_SEQ_STATUS [31:16], chapter 06 R215. -/
def SLK_G_SEQ_STATUS_STATUS (i : Nat) : Fld := ⟨0x400024 + 0x100 * i, 16, 16⟩
/-- SLK_G_SEQ_STATUS [15:15], chapter 06 R215. -/
def SLK_G_SEQ_STATUS_RUNNING (i : Nat) : Fld := ⟨0x400024 + 0x100 * i, 15, 1⟩
/-- SLK_G_SEQ_STATUS [14:14], chapter 06 R215. -/
def SLK_G_SEQ_STATUS_WAITING (i : Nat) : Fld := ⟨0x400024 + 0x100 * i, 14, 1⟩
/-- SLK_G_SEQ_STATUS [9:0], chapter 06 R215. -/
def SLK_G_SEQ_STATUS_STATE (i : Nat) : Fld := ⟨0x400024 + 0x100 * i, 0, 10⟩
/-- SLK_G_SEQ_ACC [31:0], chapter 06 R215. -/
def SLK_G_SEQ_ACC_ACC (i : Nat) : Fld := ⟨0x400028 + 0x100 * i, 0, 32⟩
/-- SLK_G_SEQ_NOTE [15:0], chapter 06 R215. -/
def SLK_G_SEQ_NOTE_NOTE (i : Nat) : Fld := ⟨0x40002c + 0x100 * i, 0, 16⟩
/-- SLK_G_TEST [31:31], chapter 06 R215. -/
def SLK_G_TEST_GO (i : Nat) : Fld := ⟨0x400034 + 0x100 * i, 31, 1⟩
/-- SLK_G_TEST [27:16], chapter 06 R215. -/
def SLK_G_TEST_LEN4 (i : Nat) : Fld := ⟨0x400034 + 0x100 * i, 16, 12⟩
/-- SLK_G_TEST [15:0], chapter 06 R215. -/
def SLK_G_TEST_COUNT (i : Nat) : Fld := ⟨0x400034 + 0x100 * i, 0, 16⟩
/-- SLK_G_HCRC_ERR [31:0], chapter 06 R215. -/
def SLK_G_HCRC_ERR_COUNT (i : Nat) : Fld := ⟨0x400040 + 0x100 * i, 0, 32⟩
/-- SLK_G_PCRC_ERR [31:0], chapter 06 R215. -/
def SLK_G_PCRC_ERR_COUNT (i : Nat) : Fld := ⟨0x400044 + 0x100 * i, 0, 32⟩
/-- SLK_G_DROP [31:0], chapter 06 R215. -/
def SLK_G_DROP_COUNT (i : Nat) : Fld := ⟨0x400048 + 0x100 * i, 0, 32⟩
/-- SLK_G_PSEQ_GAP [31:0], chapter 06 R215. -/
def SLK_G_PSEQ_GAP_COUNT (i : Nat) : Fld := ⟨0x40004c + 0x100 * i, 0, 32⟩
/-- SLK_G_FILL_LINES [31:0], chapter 06 R215. -/
def SLK_G_FILL_LINES_COUNT (i : Nat) : Fld := ⟨0x400050 + 0x100 * i, 0, 32⟩
/-- SLK_G_UNDERRUN [31:0], chapter 06 R215. -/
def SLK_G_UNDERRUN_COUNT (i : Nat) : Fld := ⟨0x400054 + 0x100 * i, 0, 32⟩
/-- SLK_G_GLITCH [31:0], chapter 06 R215. -/
def SLK_G_GLITCH_COUNT (i : Nat) : Fld := ⟨0x400058 + 0x100 * i, 0, 32⟩
/-- SLK_G_TEST_OK [31:0], chapter 06 R215. -/
def SLK_G_TEST_OK_COUNT (i : Nat) : Fld := ⟨0x40005c + 0x100 * i, 0, 32⟩
/-- SLK_G_TEST_ERR [31:0], chapter 06 R215. -/
def SLK_G_TEST_ERR_COUNT (i : Nat) : Fld := ⟨0x400060 + 0x100 * i, 0, 32⟩
/-- SLK_L_STATUS [23:16], chapter 06 R216. -/
def SLK_L_STATUS_SKEW (i : Nat) : Fld := ⟨0x400800 + 0x10 * i, 16, 8⟩
/-- SLK_L_STATUS [1:0], chapter 06 R216. -/
def SLK_L_STATUS_LSTATE (i : Nat) : Fld := ⟨0x400800 + 0x10 * i, 0, 2⟩
/-- SLK_L_ERR [31:0], chapter 06 R216. -/
def SLK_L_ERR_COUNT (i : Nat) : Fld := ⟨0x400804 + 0x10 * i, 0, 32⟩
/-- ENC_CTRL [0:0], chapter 09 R288. -/
def ENC_CTRL_ERR_IRQ_EN : Fld := ⟨0x4c0000, 0, 1⟩
/-- ENC_STATUS [31:16], chapter 09 R288. -/
def ENC_STATUS_STATUS : Fld := ⟨0x4c0004, 16, 16⟩
/-- ENC_STATUS [3:0], chapter 09 R288. -/
def ENC_STATUS_CORE_BUSY : Fld := ⟨0x4c0004, 0, 4⟩
/-- ENC_CORE [31:16], chapter 09 R288. -/
def ENC_CORE_STREAM_ID (i : Nat) : Fld := ⟨0x4c0010 + 0x4 * i, 16, 16⟩
/-- ENC_CORE [4:0], chapter 09 R288. -/
def ENC_CORE_CONTEXT (i : Nat) : Fld := ⟨0x4c0010 + 0x4 * i, 0, 5⟩
/-- ENC_SWITCH [31:0], chapter 09 R288. -/
def ENC_SWITCH_COUNT (i : Nat) : Fld := ⟨0x4c0020 + 0x4 * i, 0, 32⟩
/-- ENC_S_CTRL [31:31], chapter 09 R288. -/
def ENC_S_CTRL_EN (i : Nat) : Fld := ⟨0x4c1000 + 0x40 * i, 31, 1⟩
/-- ENC_S_CTRL [30:30], chapter 09 R288. -/
def ENC_S_CTRL_ON_AIR (i : Nat) : Fld := ⟨0x4c1000 + 0x40 * i, 30, 1⟩
/-- ENC_S_CTRL [0:0], chapter 09 R288. -/
def ENC_S_CTRL_ERR_IRQ_EN (i : Nat) : Fld := ⟨0x4c1000 + 0x40 * i, 0, 1⟩
/-- ENC_S_CMD [31:31], chapter 09 R288. -/
def ENC_S_CMD_KEY (i : Nat) : Fld := ⟨0x4c1004 + 0x40 * i, 31, 1⟩
/-- ENC_S_CMD [30:30], chapter 09 R288. -/
def ENC_S_CMD_MARK_LT (i : Nat) : Fld := ⟨0x4c1004 + 0x40 * i, 30, 1⟩
/-- ENC_S_CMD [29:29], chapter 09 R288. -/
def ENC_S_CMD_USE_LT (i : Nat) : Fld := ⟨0x4c1004 + 0x40 * i, 29, 1⟩
/-- ENC_S_CMD [16:16], chapter 09 R288. -/
def ENC_S_CMD_USE_SLOT (i : Nat) : Fld := ⟨0x4c1004 + 0x40 * i, 16, 1⟩
/-- ENC_S_CMD [15:8], chapter 09 R288. -/
def ENC_S_CMD_MARK_SEQ (i : Nat) : Fld := ⟨0x4c1004 + 0x40 * i, 8, 8⟩
/-- ENC_S_CMD [0:0], chapter 09 R288. -/
def ENC_S_CMD_MARK_SLOT (i : Nat) : Fld := ⟨0x4c1004 + 0x40 * i, 0, 1⟩
/-- ENC_S_STATUS [31:16], chapter 09 R288. -/
def ENC_S_STATUS_STATUS (i : Nat) : Fld := ⟨0x4c1008 + 0x40 * i, 16, 16⟩
/-- ENC_S_STATUS [15:15], chapter 09 R288. -/
def ENC_S_STATUS_PENDING_ENABLE (i : Nat) : Fld := ⟨0x4c1008 + 0x40 * i, 15, 1⟩
/-- ENC_S_STATUS [14:14], chapter 09 R288. -/
def ENC_S_STATUS_SHUTTING_DOWN (i : Nat) : Fld := ⟨0x4c1008 + 0x40 * i, 14, 1⟩
/-- ENC_S_STATUS [13:13], chapter 09 R288. -/
def ENC_S_STATUS_ACTIVE (i : Nat) : Fld := ⟨0x4c1008 + 0x40 * i, 13, 1⟩
/-- ENC_S_STATUS [12:12], chapter 09 R288. -/
def ENC_S_STATUS_KEY_PENDING (i : Nat) : Fld := ⟨0x4c1008 + 0x40 * i, 12, 1⟩
/-- ENC_S_STATUS [7:4], chapter 09 R288. -/
def ENC_S_STATUS_LT1_SEQ (i : Nat) : Fld := ⟨0x4c1008 + 0x40 * i, 4, 4⟩
/-- ENC_S_STATUS [3:3], chapter 09 R288. -/
def ENC_S_STATUS_LT1_VALID (i : Nat) : Fld := ⟨0x4c1008 + 0x40 * i, 3, 1⟩
/-- ENC_S_STATUS [2:2], chapter 09 R288. -/
def ENC_S_STATUS_LT0_VALID (i : Nat) : Fld := ⟨0x4c1008 + 0x40 * i, 2, 1⟩
/-- ENC_S_STATUS [0:0], chapter 09 R288. -/
def ENC_S_STATUS_ERR_IRQ (i : Nat) : Fld := ⟨0x4c1008 + 0x40 * i, 0, 1⟩
/-- ENC_S_LTSEQ [15:8], chapter 09 R288. -/
def ENC_S_LTSEQ_SEQ1 (i : Nat) : Fld := ⟨0x4c100c + 0x40 * i, 8, 8⟩
/-- ENC_S_LTSEQ [7:0], chapter 09 R288. -/
def ENC_S_LTSEQ_SEQ0 (i : Nat) : Fld := ⟨0x4c100c + 0x40 * i, 0, 8⟩
/-- ENC_S_PICS [31:0], chapter 09 R288. -/
def ENC_S_PICS_COUNT (i : Nat) : Fld := ⟨0x4c1010 + 0x40 * i, 0, 32⟩
/-- ENC_S_KEYS [31:0], chapter 09 R288. -/
def ENC_S_KEYS_COUNT (i : Nat) : Fld := ⟨0x4c1014 + 0x40 * i, 0, 32⟩
/-- ENC_S_LATE [31:0], chapter 09 R288. -/
def ENC_S_LATE_COUNT (i : Nat) : Fld := ⟨0x4c1018 + 0x40 * i, 0, 32⟩
/-- ENC_S_MISSING [31:0], chapter 09 R288. -/
def ENC_S_MISSING_COUNT (i : Nat) : Fld := ⟨0x4c101c + 0x40 * i, 0, 32⟩
/-- ENC_S_LAST_FRAME [31:0], chapter 09 R288. -/
def ENC_S_LAST_FRAME_FRAME (i : Nat) : Fld := ⟨0x4c1020 + 0x40 * i, 0, 32⟩
/-- DEC_CTRL [0:0], chapter 09 R289. -/
def DEC_CTRL_ERR_IRQ_EN : Fld := ⟨0x540000, 0, 1⟩
/-- DEC_STATUS [31:16], chapter 09 R289. -/
def DEC_STATUS_STATUS : Fld := ⟨0x540004, 16, 16⟩
/-- DEC_STATUS [2:2], chapter 09 R289. -/
def DEC_STATUS_RECOVERING : Fld := ⟨0x540004, 2, 1⟩
/-- DEC_STATUS [1:1], chapter 09 R289. -/
def DEC_STATUS_SEQ_VALID : Fld := ⟨0x540004, 1, 1⟩
/-- DEC_STATUS [0:0], chapter 09 R289. -/
def DEC_STATUS_ERR_IRQ : Fld := ⟨0x540004, 0, 1⟩
/-- DEC_SEQ [31:24], chapter 09 R289. -/
def DEC_SEQ_PROFILE : Fld := ⟨0x540008, 24, 8⟩
/-- DEC_SEQ [23:16], chapter 09 R289. -/
def DEC_SEQ_LEVEL : Fld := ⟨0x540008, 16, 8⟩
/-- DEC_SEQ [3:0], chapter 09 R289. -/
def DEC_SEQ_REORDER : Fld := ⟨0x540008, 0, 4⟩
/-- DEC_SIZE [31:16], chapter 09 R289. -/
def DEC_SIZE_HEIGHT : Fld := ⟨0x54000c, 16, 16⟩
/-- DEC_SIZE [15:0], chapter 09 R289. -/
def DEC_SIZE_WIDTH : Fld := ⟨0x54000c, 0, 16⟩
/-- DEC_PICS [31:0], chapter 09 R289. -/
def DEC_PICS_COUNT : Fld := ⟨0x540010, 0, 32⟩
/-- DEC_OUT [31:0], chapter 09 R289. -/
def DEC_OUT_COUNT : Fld := ⟨0x540014, 0, 32⟩
/-- DEC_SUBST [31:0], chapter 09 R289. -/
def DEC_SUBST_COUNT : Fld := ⟨0x540018, 0, 32⟩
/-- DEC_CONCEAL [31:0], chapter 09 R289. -/
def DEC_CONCEAL_COUNT : Fld := ⟨0x54001c, 0, 32⟩
/-- DEC_SKIPPED [31:0], chapter 09 R289. -/
def DEC_SKIPPED_COUNT : Fld := ⟨0x540020, 0, 32⟩
/-- RATE_CTRL [1:1], chapter 10 R306. -/
def RATE_CTRL_FLOOR_IRQ_EN : Fld := ⟨0x500000, 1, 1⟩
/-- RATE_CTRL [0:0], chapter 10 R306. -/
def RATE_CTRL_ERR_IRQ_EN : Fld := ⟨0x500000, 0, 1⟩
/-- RATE_STATUS [31:16], chapter 10 R306. -/
def RATE_STATUS_STATUS : Fld := ⟨0x500004, 16, 16⟩
/-- RATE_STATUS [1:1], chapter 10 R306. -/
def RATE_STATUS_FLOOR_IRQ : Fld := ⟨0x500004, 1, 1⟩
/-- RATE_STATUS [0:0], chapter 10 R306. -/
def RATE_STATUS_ERR_IRQ : Fld := ⟨0x500004, 0, 1⟩
/-- RATE_S_BIT_RATE [31:0], chapter 10 R306. -/
def RATE_S_BIT_RATE_V (i : Nat) : Fld := ⟨0x501000 + 0x40 * i, 0, 32⟩
/-- RATE_S_CPB_SIZE [31:0], chapter 10 R306. -/
def RATE_S_CPB_SIZE_V (i : Nat) : Fld := ⟨0x501004 + 0x40 * i, 0, 32⟩
/-- RATE_S_TARGET [31:0], chapter 10 R306. -/
def RATE_S_TARGET_V (i : Nat) : Fld := ⟨0x501008 + 0x40 * i, 0, 32⟩
/-- RATE_S_QP [31:24], chapter 10 R306. -/
def RATE_S_QP_QP_MAX (i : Nat) : Fld := ⟨0x50100c + 0x40 * i, 24, 8⟩
/-- RATE_S_QP [23:16], chapter 10 R306. -/
def RATE_S_QP_QP_MIN (i : Nat) : Fld := ⟨0x50100c + 0x40 * i, 16, 8⟩
/-- RATE_S_QP [15:8], chapter 10 R306. -/
def RATE_S_QP_QP_P (i : Nat) : Fld := ⟨0x50100c + 0x40 * i, 8, 8⟩
/-- RATE_S_QP [7:0], chapter 10 R306. -/
def RATE_S_QP_QP_I (i : Nat) : Fld := ⟨0x50100c + 0x40 * i, 0, 8⟩
/-- RATE_S_STATUS [31:16], chapter 10 R306. -/
def RATE_S_STATUS_STATUS (i : Nat) : Fld := ⟨0x501010 + 0x40 * i, 16, 16⟩
/-- RATE_S_STATUS [15:15], chapter 10 R306. -/
def RATE_S_STATUS_HRD_PENDING (i : Nat) : Fld := ⟨0x501010 + 0x40 * i, 15, 1⟩
/-- RATE_S_STATUS [14:14], chapter 10 R306. -/
def RATE_S_STATUS_FLOOR_LAST (i : Nat) : Fld := ⟨0x501010 + 0x40 * i, 14, 1⟩
/-- RATE_S_STATUS [9:0], chapter 10 R306. -/
def RATE_S_STATUS_FLOOR_ROW (i : Nat) : Fld := ⟨0x501010 + 0x40 * i, 0, 10⟩
/-- RATE_S_FULLNESS [31:0], chapter 10 R306. -/
def RATE_S_FULLNESS_V (i : Nat) : Fld := ⟨0x501014 + 0x40 * i, 0, 32⟩
/-- RATE_S_DEBT [31:0], chapter 10 R306. -/
def RATE_S_DEBT_V (i : Nat) : Fld := ⟨0x501018 + 0x40 * i, 0, 32⟩
/-- RATE_S_LAST_BITS [31:0], chapter 10 R306. -/
def RATE_S_LAST_BITS_V (i : Nat) : Fld := ⟨0x50101c + 0x40 * i, 0, 32⟩
/-- RATE_S_LAST_FILLER [31:0], chapter 10 R306. -/
def RATE_S_LAST_FILLER_V (i : Nat) : Fld := ⟨0x501020 + 0x40 * i, 0, 32⟩
/-- RATE_S_LAST_QP [15:8], chapter 10 R306. -/
def RATE_S_LAST_QP_MEAN (i : Nat) : Fld := ⟨0x501024 + 0x40 * i, 8, 8⟩
/-- RATE_S_LAST_QP [7:0], chapter 10 R306. -/
def RATE_S_LAST_QP_FIRST (i : Nat) : Fld := ⟨0x501024 + 0x40 * i, 0, 8⟩
/-- RATE_S_FLOOR_PICS [31:0], chapter 10 R306. -/
def RATE_S_FLOOR_PICS_COUNT (i : Nat) : Fld := ⟨0x501028 + 0x40 * i, 0, 32⟩
/-- RATE_S_FLOOR_CTUS [31:0], chapter 10 R306. -/
def RATE_S_FLOOR_CTUS_COUNT (i : Nat) : Fld := ⟨0x50102c + 0x40 * i, 0, 32⟩
/-- RATE_S_RECODES [31:0], chapter 10 R306. -/
def RATE_S_RECODES_COUNT (i : Nat) : Fld := ⟨0x501030 + 0x40 * i, 0, 32⟩
/-- RATE_S_HRD_GAPS [31:0], chapter 10 R306. -/
def RATE_S_HRD_GAPS_COUNT (i : Nat) : Fld := ⟨0x501034 + 0x40 * i, 0, 32⟩
/-- CMP_STATUS [31:16], chapter 11 R328. -/
def CMP_STATUS_STATUS : Fld := ⟨0x580000, 16, 16⟩
/-- CMP_SCALER [31:31], chapter 11 R328. -/
def CMP_SCALER_IN_USE (i : Nat) : Fld := ⟨0x580010 + 0x4 * i, 31, 1⟩
/-- CMP_SCALER [30:30], chapter 11 R328. -/
def CMP_SCALER_PENDING (i : Nat) : Fld := ⟨0x580010 + 0x4 * i, 30, 1⟩
/-- CMP_SCALER [4:0], chapter 11 R328. -/
def CMP_SCALER_SLOT (i : Nat) : Fld := ⟨0x580010 + 0x4 * i, 0, 5⟩
/-- CMP_H_CTRL [31:31], chapter 11 R328. -/
def CMP_H_CTRL_EN (i : Nat) : Fld := ⟨0x580100 + 0x40 * i, 31, 1⟩
/-- CMP_H_CTRL [9:8], chapter 11 R328. -/
def CMP_H_CTRL_SYNC (i : Nat) : Fld := ⟨0x580100 + 0x40 * i, 8, 2⟩
/-- CMP_H_CTRL [0:0], chapter 11 R328. -/
def CMP_H_CTRL_FENCED (i : Nat) : Fld := ⟨0x580100 + 0x40 * i, 0, 1⟩
/-- CMP_H_FORMAT [17:16], chapter 11 R328. -/
def CMP_H_FORMAT_RASTER (i : Nat) : Fld := ⟨0x580104 + 0x40 * i, 16, 2⟩
/-- CMP_H_FORMAT [10:8], chapter 11 R328. -/
def CMP_H_FORMAT_RATE (i : Nat) : Fld := ⟨0x580104 + 0x40 * i, 8, 3⟩
/-- CMP_H_FORMAT [5:4], chapter 11 R328. -/
def CMP_H_FORMAT_TRANSFER (i : Nat) : Fld := ⟨0x580104 + 0x40 * i, 4, 2⟩
/-- CMP_H_FORMAT [0:0], chapter 11 R328. -/
def CMP_H_FORMAT_COLORIMETRY (i : Nat) : Fld := ⟨0x580104 + 0x40 * i, 0, 1⟩
/-- CMP_H_BG [9:0], chapter 11 R328. -/
def CMP_H_BG_Y (i : Nat) : Fld := ⟨0x580110 + 0x40 * i, 0, 10⟩
/-- CMP_H_COMMIT [31:31], chapter 11 R328. -/
def CMP_H_COMMIT_GO (i : Nat) : Fld := ⟨0x580114 + 0x40 * i, 31, 1⟩
/-- CMP_H_COMMIT [30:30], chapter 11 R328. -/
def CMP_H_COMMIT_CANCEL (i : Nat) : Fld := ⟨0x580114 + 0x40 * i, 30, 1⟩
/-- CMP_H_COMMIT [7:0], chapter 11 R328. -/
def CMP_H_COMMIT_LAYERS (i : Nat) : Fld := ⟨0x580114 + 0x40 * i, 0, 8⟩
/-- CMP_H_STATUS [31:16], chapter 11 R328. -/
def CMP_H_STATUS_STATUS (i : Nat) : Fld := ⟨0x580118 + 0x40 * i, 16, 16⟩
/-- CMP_H_STATUS [15:15], chapter 11 R328. -/
def CMP_H_STATUS_PENDING_ENABLE (i : Nat) : Fld := ⟨0x580118 + 0x40 * i, 15, 1⟩
/-- CMP_H_STATUS [14:14], chapter 11 R328. -/
def CMP_H_STATUS_SHUTTING_DOWN (i : Nat) : Fld := ⟨0x580118 + 0x40 * i, 14, 1⟩
/-- CMP_H_STATUS [13:13], chapter 11 R328. -/
def CMP_H_STATUS_SYNC_HOLDOVER (i : Nat) : Fld := ⟨0x580118 + 0x40 * i, 13, 1⟩
/-- CMP_H_STATUS [12:12], chapter 11 R328. -/
def CMP_H_STATUS_SLEWING (i : Nat) : Fld := ⟨0x580118 + 0x40 * i, 12, 1⟩
/-- CMP_H_STATUS [11:11], chapter 11 R328. -/
def CMP_H_STATUS_UNDERRUN_IRQ (i : Nat) : Fld := ⟨0x580118 + 0x40 * i, 11, 1⟩
/-- CMP_H_STATUS [10:10], chapter 11 R328. -/
def CMP_H_STATUS_SYNC_IRQ (i : Nat) : Fld := ⟨0x580118 + 0x40 * i, 10, 1⟩
/-- CMP_H_STATUS [9:9], chapter 11 R328. -/
def CMP_H_STATUS_LATE_IRQ (i : Nat) : Fld := ⟨0x580118 + 0x40 * i, 9, 1⟩
/-- CMP_H_STATUS [8:8], chapter 11 R328. -/
def CMP_H_STATUS_FLIP_IRQ (i : Nat) : Fld := ⟨0x580118 + 0x40 * i, 8, 1⟩
/-- CMP_H_STATUS [7:0], chapter 11 R328. -/
def CMP_H_STATUS_PENDING_LAYERS (i : Nat) : Fld := ⟨0x580118 + 0x40 * i, 0, 8⟩
/-- CMP_H_FRAME [31:0], chapter 11 R328. -/
def CMP_H_FRAME_COUNT (i : Nat) : Fld := ⟨0x58011c + 0x40 * i, 0, 32⟩
/-- CMP_H_UNDERRUN [31:0], chapter 11 R328. -/
def CMP_H_UNDERRUN_COUNT (i : Nat) : Fld := ⟨0x580120 + 0x40 * i, 0, 32⟩
/-- CMP_H_SLIPS [31:0], chapter 11 R328. -/
def CMP_H_SLIPS_COUNT (i : Nat) : Fld := ⟨0x580124 + 0x40 * i, 0, 32⟩
/-- CMP_H_IRQ_EN [11:11], chapter 11 R328. -/
def CMP_H_IRQ_EN_UNDERRUN_IRQ (i : Nat) : Fld := ⟨0x580128 + 0x40 * i, 11, 1⟩
/-- CMP_H_IRQ_EN [10:10], chapter 11 R328. -/
def CMP_H_IRQ_EN_SYNC_IRQ (i : Nat) : Fld := ⟨0x580128 + 0x40 * i, 10, 1⟩
/-- CMP_H_IRQ_EN [9:9], chapter 11 R328. -/
def CMP_H_IRQ_EN_LATE_IRQ (i : Nat) : Fld := ⟨0x580128 + 0x40 * i, 9, 1⟩
/-- CMP_H_IRQ_EN [8:8], chapter 11 R328. -/
def CMP_H_IRQ_EN_FLIP_IRQ (i : Nat) : Fld := ⟨0x580128 + 0x40 * i, 8, 1⟩
/-- CMP_L_CTRL [31:31], chapter 11 R328. -/
def CMP_L_CTRL_VISIBLE (i : Nat) : Fld := ⟨0x581000 + 0x40 * i, 31, 1⟩
/-- CMP_L_STATUS [31:16], chapter 11 R328. -/
def CMP_L_STATUS_STATUS (i : Nat) : Fld := ⟨0x581028 + 0x40 * i, 16, 16⟩
/-- CMP_L_STATUS [15:15], chapter 11 R328. -/
def CMP_L_STATUS_PENDING (i : Nat) : Fld := ⟨0x581028 + 0x40 * i, 15, 1⟩
/-- CMP_L_STATUS [14:14], chapter 11 R328. -/
def CMP_L_STATUS_LATE_HIDDEN (i : Nat) : Fld := ⟨0x581028 + 0x40 * i, 14, 1⟩
/-- CMP_L_STATUS [13:13], chapter 11 R328. -/
def CMP_L_STATUS_SHOWING (i : Nat) : Fld := ⟨0x581028 + 0x40 * i, 13, 1⟩
/-- CMP_L_SHOWN [31:0], chapter 11 R328. -/
def CMP_L_SHOWN_FRAME (i : Nat) : Fld := ⟨0x58102c + 0x40 * i, 0, 32⟩
/-- CMP_L_REPEAT [31:0], chapter 11 R328. -/
def CMP_L_REPEAT_COUNT (i : Nat) : Fld := ⟨0x581030 + 0x40 * i, 0, 32⟩
/-- CMP_L_SKIP [31:0], chapter 11 R328. -/
def CMP_L_SKIP_COUNT (i : Nat) : Fld := ⟨0x581034 + 0x40 * i, 0, 32⟩
/-- CMP_L_MISSING [31:0], chapter 11 R328. -/
def CMP_L_MISSING_COUNT (i : Nat) : Fld := ⟨0x581038 + 0x40 * i, 0, 32⟩
/-- SDI_S_CFG [31:31], chapter 11 R329. -/
def SDI_S_CFG_EN (i : Nat) : Fld := ⟨0x5c0000 + 0x40 * i, 31, 1⟩
/-- SDI_S_CFG [30:30], chapter 11 R329. -/
def SDI_S_CFG_TC_EN (i : Nat) : Fld := ⟨0x5c0000 + 0x40 * i, 30, 1⟩
/-- SDI_S_CFG [9:8], chapter 11 R329. -/
def SDI_S_CFG_SRC_HEAD (i : Nat) : Fld := ⟨0x5c0000 + 0x40 * i, 8, 2⟩
/-- SDI_S_STATUS [31:16], chapter 11 R329. -/
def SDI_S_STATUS_STATUS (i : Nat) : Fld := ⟨0x5c0004 + 0x40 * i, 16, 16⟩
/-- SDI_S_STATUS [15:15], chapter 11 R329. -/
def SDI_S_STATUS_PENDING_ENABLE (i : Nat) : Fld := ⟨0x5c0004 + 0x40 * i, 15, 1⟩
/-- SDI_S_STATUS [14:14], chapter 11 R329. -/
def SDI_S_STATUS_SHUTTING_DOWN (i : Nat) : Fld := ⟨0x5c0004 + 0x40 * i, 14, 1⟩
/-- SDI_S_STATUS [13:13], chapter 11 R329. -/
def SDI_S_STATUS_ACTIVE (i : Nat) : Fld := ⟨0x5c0004 + 0x40 * i, 13, 1⟩
/-- SDI_S_STATUS [2:0], chapter 11 R329. -/
def SDI_S_STATUS_MODE (i : Nat) : Fld := ⟨0x5c0004 + 0x40 * i, 0, 3⟩
/-- SDI_S_FRAMES [31:0], chapter 11 R329. -/
def SDI_S_FRAMES_COUNT (i : Nat) : Fld := ⟨0x5c0008 + 0x40 * i, 0, 32⟩
/-- NET_CFG [1:0], chapter 12 R356. -/
def NET_CFG_MODE : Fld := ⟨0x600000, 0, 2⟩
/-- NET_STATUS [31:16], chapter 12 R356. -/
def NET_STATUS_STATUS : Fld := ⟨0x600004, 16, 16⟩
/-- NET_P_CTRL [31:31], chapter 12 R356. -/
def NET_P_CTRL_EN (i : Nat) : Fld := ⟨0x600100 + 0x80 * i, 31, 1⟩
/-- NET_P_CTRL [30:30], chapter 12 R356. -/
def NET_P_CTRL_FEC (i : Nat) : Fld := ⟨0x600100 + 0x80 * i, 30, 1⟩
/-- NET_P_CTRL [29:29], chapter 12 R356. -/
def NET_P_CTRL_PROMISC (i : Nat) : Fld := ⟨0x600100 + 0x80 * i, 29, 1⟩
/-- NET_P_CTRL [28:28], chapter 12 R356. -/
def NET_P_CTRL_ALLMULTI (i : Nat) : Fld := ⟨0x600100 + 0x80 * i, 28, 1⟩
/-- NET_P_CTRL [27:27], chapter 12 R356. -/
def NET_P_CTRL_RX_EN (i : Nat) : Fld := ⟨0x600100 + 0x80 * i, 27, 1⟩
/-- NET_P_CTRL [26:26], chapter 12 R356. -/
def NET_P_CTRL_LINK_IRQ_EN (i : Nat) : Fld := ⟨0x600100 + 0x80 * i, 26, 1⟩
/-- NET_P_CTRL [25:25], chapter 12 R356. -/
def NET_P_CTRL_ERR_IRQ_EN (i : Nat) : Fld := ⟨0x600100 + 0x80 * i, 25, 1⟩
/-- NET_P_CTRL [13:0], chapter 12 R356. -/
def NET_P_CTRL_MAX_FRAME (i : Nat) : Fld := ⟨0x600100 + 0x80 * i, 0, 14⟩
/-- NET_P_STATUS [31:16], chapter 12 R356. -/
def NET_P_STATUS_STATUS (i : Nat) : Fld := ⟨0x600104 + 0x80 * i, 16, 16⟩
/-- NET_P_STATUS [15:15], chapter 12 R356. -/
def NET_P_STATUS_PENDING_ENABLE (i : Nat) : Fld := ⟨0x600104 + 0x80 * i, 15, 1⟩
/-- NET_P_STATUS [14:14], chapter 12 R356. -/
def NET_P_STATUS_SHUTTING_DOWN (i : Nat) : Fld := ⟨0x600104 + 0x80 * i, 14, 1⟩
/-- NET_P_STATUS [12:12], chapter 12 R356. -/
def NET_P_STATUS_LINK (i : Nat) : Fld := ⟨0x600104 + 0x80 * i, 12, 1⟩
/-- NET_P_STATUS [2:2], chapter 12 R356. -/
def NET_P_STATUS_ERR_IRQ (i : Nat) : Fld := ⟨0x600104 + 0x80 * i, 2, 1⟩
/-- NET_P_STATUS [1:1], chapter 12 R356. -/
def NET_P_STATUS_LINK_IRQ (i : Nat) : Fld := ⟨0x600104 + 0x80 * i, 1, 1⟩
/-- NET_P_MAC_HI [15:0], chapter 12 R356. -/
def NET_P_MAC_HI_V (i : Nat) : Fld := ⟨0x600108 + 0x80 * i, 0, 16⟩
/-- NET_P_MAC_LO [31:0], chapter 12 R356. -/
def NET_P_MAC_LO_V (i : Nat) : Fld := ⟨0x60010c + 0x80 * i, 0, 32⟩
/-- NET_P_IP [31:0], chapter 12 R356. -/
def NET_P_IP_V (i : Nat) : Fld := ⟨0x600110 + 0x80 * i, 0, 32⟩
/-- NET_P_SWTX [31:31], chapter 12 R356. -/
def NET_P_SWTX_EN (i : Nat) : Fld := ⟨0x600114 + 0x80 * i, 31, 1⟩
/-- NET_P_SWTX [18:16], chapter 12 R356. -/
def NET_P_SWTX_CLASS (i : Nat) : Fld := ⟨0x600114 + 0x80 * i, 16, 3⟩
/-- NET_P_SWTX [15:0], chapter 12 R356. -/
def NET_P_SWTX_QID (i : Nat) : Fld := ⟨0x600114 + 0x80 * i, 0, 16⟩
/-- NET_P_RXCFG [31:16], chapter 12 R356. -/
def NET_P_RXCFG_STREAM_ID (i : Nat) : Fld := ⟨0x600118 + 0x80 * i, 16, 16⟩
/-- NET_P_RXCFG [15:0], chapter 12 R356. -/
def NET_P_RXCFG_QID (i : Nat) : Fld := ⟨0x600118 + 0x80 * i, 0, 16⟩
/-- NET_P_RXBUF_LO [31:12], chapter 12 R356. -/
def NET_P_RXBUF_LO_V (i : Nat) : Fld := ⟨0x60011c + 0x80 * i, 12, 20⟩
/-- NET_P_RXBUF_HI [7:0], chapter 12 R356. -/
def NET_P_RXBUF_HI_V (i : Nat) : Fld := ⟨0x600120 + 0x80 * i, 0, 8⟩
/-- NET_P_RXBUF_SIZE [31:0], chapter 12 R356. -/
def NET_P_RXBUF_SIZE_V (i : Nat) : Fld := ⟨0x600124 + 0x80 * i, 0, 32⟩
/-- NET_P_TX_FRAMES [31:0], chapter 12 R356. -/
def NET_P_TX_FRAMES_COUNT (i : Nat) : Fld := ⟨0x600130 + 0x80 * i, 0, 32⟩
/-- NET_P_RX_FRAMES [31:0], chapter 12 R356. -/
def NET_P_RX_FRAMES_COUNT (i : Nat) : Fld := ⟨0x600134 + 0x80 * i, 0, 32⟩
/-- NET_P_FCS_ERR [31:0], chapter 12 R356. -/
def NET_P_FCS_ERR_COUNT (i : Nat) : Fld := ⟨0x600138 + 0x80 * i, 0, 32⟩
/-- NET_P_RX_DROP [31:0], chapter 12 R356. -/
def NET_P_RX_DROP_COUNT (i : Nat) : Fld := ⟨0x60013c + 0x80 * i, 0, 32⟩
/-- NET_P_DOWN_DROP [31:0], chapter 12 R356. -/
def NET_P_DOWN_DROP_COUNT (i : Nat) : Fld := ⟨0x600140 + 0x80 * i, 0, 32⟩
/-- NET_P_PAUSE_DROP [31:0], chapter 12 R356. -/
def NET_P_PAUSE_DROP_COUNT (i : Nat) : Fld := ⟨0x60014c + 0x80 * i, 0, 32⟩
/-- NET_P_TX_OVERSIZE [31:0], chapter 12 R356. -/
def NET_P_TX_OVERSIZE_COUNT (i : Nat) : Fld := ⟨0x600150 + 0x80 * i, 0, 32⟩
/-- NET_S_INFO [31:16], chapter 12 R356. -/
def NET_S_INFO_NODE_ID (i : Nat) : Fld := ⟨0x601000 + 0x20 * i, 16, 16⟩
/-- NET_S_INFO [15:15], chapter 12 R356. -/
def NET_S_INFO_VALID (i : Nat) : Fld := ⟨0x601000 + 0x20 * i, 15, 1⟩
/-- NET_S_INFO [11:8], chapter 12 R356. -/
def NET_S_INFO_IN_PORT (i : Nat) : Fld := ⟨0x601000 + 0x20 * i, 8, 4⟩
/-- NET_S_INFO [1:0], chapter 12 R356. -/
def NET_S_INFO_STYPE (i : Nat) : Fld := ⟨0x601000 + 0x20 * i, 0, 2⟩
/-- NET_S_RTPSEQ [31:0], chapter 12 R356. -/
def NET_S_RTPSEQ_V (i : Nat) : Fld := ⟨0x601004 + 0x20 * i, 0, 32⟩
/-- NET_S_PKTS [31:0], chapter 12 R356. -/
def NET_S_PKTS_COUNT (i : Nat) : Fld := ⟨0x601008 + 0x20 * i, 0, 32⟩
/-- NET_S_LATE [31:0], chapter 12 R356. -/
def NET_S_LATE_COUNT (i : Nat) : Fld := ⟨0x60100c + 0x20 * i, 0, 32⟩
/-- NET_S_MISSING [31:0], chapter 12 R356. -/
def NET_S_MISSING_COUNT (i : Nat) : Fld := ⟨0x601010 + 0x20 * i, 0, 32⟩
/-- NET_S_INCOMPLETE [31:0], chapter 12 R356. -/
def NET_S_INCOMPLETE_COUNT (i : Nat) : Fld := ⟨0x601014 + 0x20 * i, 0, 32⟩
/-- NET_S_STATUS [31:16], chapter 12 R356. -/
def NET_S_STATUS_STATUS (i : Nat) : Fld := ⟨0x601018 + 0x20 * i, 16, 16⟩
/-- TSN_P_CTRL [31:31], chapter 12 R357. -/
def TSN_P_CTRL_GATE_EN (i : Nat) : Fld := ⟨0x640000 + 0x2000 * i, 31, 1⟩
/-- TSN_P_CTRL [30:30], chapter 12 R357. -/
def TSN_P_CTRL_COMMIT (i : Nat) : Fld := ⟨0x640000 + 0x2000 * i, 30, 1⟩
/-- TSN_P_CTRL [29:29], chapter 12 R357. -/
def TSN_P_CTRL_CANCEL (i : Nat) : Fld := ⟨0x640000 + 0x2000 * i, 29, 1⟩
/-- TSN_P_CTRL [28:28], chapter 12 R357. -/
def TSN_P_CTRL_CHANGE_IRQ_EN (i : Nat) : Fld := ⟨0x640000 + 0x2000 * i, 28, 1⟩
/-- TSN_P_CTRL [27:27], chapter 12 R357. -/
def TSN_P_CTRL_LATE_IRQ_EN (i : Nat) : Fld := ⟨0x640000 + 0x2000 * i, 27, 1⟩
/-- TSN_P_CTRL [26:26], chapter 12 R357. -/
def TSN_P_CTRL_OVERSIZE_IRQ_EN (i : Nat) : Fld := ⟨0x640000 + 0x2000 * i, 26, 1⟩
/-- TSN_P_CTRL [8:0], chapter 12 R357. -/
def TSN_P_CTRL_ADMIN_LEN (i : Nat) : Fld := ⟨0x640000 + 0x2000 * i, 0, 9⟩
/-- TSN_P_STATUS [31:16], chapter 12 R357. -/
def TSN_P_STATUS_STATUS (i : Nat) : Fld := ⟨0x640004 + 0x2000 * i, 16, 16⟩
/-- TSN_P_STATUS [15:15], chapter 12 R357. -/
def TSN_P_STATUS_PENDING (i : Nat) : Fld := ⟨0x640004 + 0x2000 * i, 15, 1⟩
/-- TSN_P_STATUS [11:11], chapter 12 R357. -/
def TSN_P_STATUS_OVERSIZE_IRQ (i : Nat) : Fld := ⟨0x640004 + 0x2000 * i, 11, 1⟩
/-- TSN_P_STATUS [10:10], chapter 12 R357. -/
def TSN_P_STATUS_LATE_IRQ (i : Nat) : Fld := ⟨0x640004 + 0x2000 * i, 10, 1⟩
/-- TSN_P_STATUS [9:9], chapter 12 R357. -/
def TSN_P_STATUS_CHANGE_IRQ (i : Nat) : Fld := ⟨0x640004 + 0x2000 * i, 9, 1⟩
/-- TSN_P_STATUS [8:0], chapter 12 R357. -/
def TSN_P_STATUS_OPER_LEN (i : Nat) : Fld := ⟨0x640004 + 0x2000 * i, 0, 9⟩
/-- TSN_P_BASE_SEC_LO [31:0], chapter 12 R357. -/
def TSN_P_BASE_SEC_LO_V (i : Nat) : Fld := ⟨0x640008 + 0x2000 * i, 0, 32⟩
/-- TSN_P_BASE_SEC_HI [15:0], chapter 12 R357. -/
def TSN_P_BASE_SEC_HI_V (i : Nat) : Fld := ⟨0x64000c + 0x2000 * i, 0, 16⟩
/-- TSN_P_BASE_NS [31:0], chapter 12 R357. -/
def TSN_P_BASE_NS_V (i : Nat) : Fld := ⟨0x640010 + 0x2000 * i, 0, 32⟩
/-- TSN_P_CYCLE_NS [31:0], chapter 12 R357. -/
def TSN_P_CYCLE_NS_V (i : Nat) : Fld := ⟨0x640014 + 0x2000 * i, 0, 32⟩
/-- TSN_P_CHANGE_SEC_LO [31:0], chapter 12 R357. -/
def TSN_P_CHANGE_SEC_LO_V (i : Nat) : Fld := ⟨0x640018 + 0x2000 * i, 0, 32⟩
/-- TSN_P_CHANGE_SEC_HI [15:0], chapter 12 R357. -/
def TSN_P_CHANGE_SEC_HI_V (i : Nat) : Fld := ⟨0x64001c + 0x2000 * i, 0, 16⟩
/-- TSN_P_CHANGE_NS [31:0], chapter 12 R357. -/
def TSN_P_CHANGE_NS_V (i : Nat) : Fld := ⟨0x640020 + 0x2000 * i, 0, 32⟩
/-- TSN_P_OPER_CYCLE_NS [31:0], chapter 12 R357. -/
def TSN_P_OPER_CYCLE_NS_V (i : Nat) : Fld := ⟨0x640024 + 0x2000 * i, 0, 32⟩
/-- TSN_C_CFG [31:31], chapter 12 R357. -/
def TSN_C_CFG_CBS_EN (i : Nat) (j : Nat) : Fld := ⟨0x640100 + 0x2000 * i + 0x20 * j, 31, 1⟩
/-- TSN_C_CFG [7:0], chapter 12 R357. -/
def TSN_C_CFG_WEIGHT (i : Nat) (j : Nat) : Fld := ⟨0x640100 + 0x2000 * i + 0x20 * j, 0, 8⟩
/-- TSN_C_IDLE [31:0], chapter 12 R357. -/
def TSN_C_IDLE_V (i : Nat) (j : Nat) : Fld := ⟨0x640104 + 0x2000 * i + 0x20 * j, 0, 32⟩
/-- TSN_C_HI [31:0], chapter 12 R357. -/
def TSN_C_HI_V (i : Nat) (j : Nat) : Fld := ⟨0x640108 + 0x2000 * i + 0x20 * j, 0, 32⟩
/-- TSN_C_BUF [10:0], chapter 12 R357. -/
def TSN_C_BUF_UNITS (i : Nat) (j : Nat) : Fld := ⟨0x640110 + 0x2000 * i + 0x20 * j, 0, 11⟩
/-- TSN_C_DEPTH [31:0], chapter 12 R357. -/
def TSN_C_DEPTH_V (i : Nat) (j : Nat) : Fld := ⟨0x640114 + 0x2000 * i + 0x20 * j, 0, 32⟩
/-- TSN_C_OVERSIZE [31:0], chapter 12 R357. -/
def TSN_C_OVERSIZE_COUNT (i : Nat) (j : Nat) : Fld := ⟨0x640118 + 0x2000 * i + 0x20 * j, 0, 32⟩
/-- TSN_C_TXFRAMES [31:0], chapter 12 R357. -/
def TSN_C_TXFRAMES_COUNT (i : Nat) (j : Nat) : Fld := ⟨0x64011c + 0x2000 * i + 0x20 * j, 0, 32⟩
/-- TSN_ADMIN_GATES [7:0], chapter 12 R357. -/
def TSN_ADMIN_GATES_V (i : Nat) (j : Nat) : Fld := ⟨0x641000 + 0x2000 * i + 0x8 * j, 0, 8⟩
/-- TSN_ADMIN_NS [31:0], chapter 12 R357. -/
def TSN_ADMIN_NS_V (i : Nat) (j : Nat) : Fld := ⟨0x641004 + 0x2000 * i + 0x8 * j, 0, 32⟩
/-- TSN_OPER_GATES [7:0], chapter 12 R357. -/
def TSN_OPER_GATES_V (i : Nat) (j : Nat) : Fld := ⟨0x641800 + 0x2000 * i + 0x8 * j, 0, 8⟩
/-- TSN_OPER_NS [31:0], chapter 12 R357. -/
def TSN_OPER_NS_V (i : Nat) (j : Nat) : Fld := ⟨0x641804 + 0x2000 * i + 0x8 * j, 0, 32⟩
/-- AUD_STATUS [31:16], chapter 14 R389. -/
def AUD_STATUS_STATUS : Fld := ⟨0x6c0000, 16, 16⟩
/-- AUD_GROUP [31:31], chapter 14 R389. -/
def AUD_GROUP_EN (i : Nat) : Fld := ⟨0x6c0010 + 0x4 * i, 31, 1⟩
/-- AUD_GROUP [30:30], chapter 14 R389. -/
def AUD_GROUP_LEADER_SLAVE (i : Nat) : Fld := ⟨0x6c0010 + 0x4 * i, 30, 1⟩
/-- AUD_GROUP [5:4], chapter 14 R389. -/
def AUD_GROUP_LEADER (i : Nat) : Fld := ⟨0x6c0010 + 0x4 * i, 4, 2⟩
/-- AUD_GROUP [3:0], chapter 14 R389. -/
def AUD_GROUP_MASK (i : Nat) : Fld := ⟨0x6c0010 + 0x4 * i, 0, 4⟩
/-- AUD_P_CTRL [31:31], chapter 14 R389. -/
def AUD_P_CTRL_EN (i : Nat) : Fld := ⟨0x6c0100 + 0x80 * i, 31, 1⟩
/-- AUD_P_CTRL [30:30], chapter 14 R389. -/
def AUD_P_CTRL_TX_MUTE (i : Nat) : Fld := ⟨0x6c0100 + 0x80 * i, 30, 1⟩
/-- AUD_P_CTRL [29:29], chapter 14 R389. -/
def AUD_P_CTRL_NA_MUTE (i : Nat) : Fld := ⟨0x6c0100 + 0x80 * i, 29, 1⟩
/-- AUD_P_CTRL [28:28], chapter 14 R389. -/
def AUD_P_CTRL_MCLK_EN (i : Nat) : Fld := ⟨0x6c0100 + 0x80 * i, 28, 1⟩
/-- AUD_P_CTRL [24:24], chapter 14 R389. -/
def AUD_P_CTRL_CLK_MODE (i : Nat) : Fld := ⟨0x6c0100 + 0x80 * i, 24, 1⟩
/-- AUD_P_CTRL [18:16], chapter 14 R389. -/
def AUD_P_CTRL_FS (i : Nat) : Fld := ⟨0x6c0100 + 0x80 * i, 16, 3⟩
/-- AUD_P_CTRL [15:0], chapter 14 R389. -/
def AUD_P_CTRL_ZC_TMO (i : Nat) : Fld := ⟨0x6c0100 + 0x80 * i, 0, 16⟩
/-- AUD_P_FMT [29:24], chapter 14 R389. -/
def AUD_P_FMT_SLOTS (i : Nat) : Fld := ⟨0x6c0104 + 0x80 * i, 24, 6⟩
/-- AUD_P_FMT [21:20], chapter 14 R389. -/
def AUD_P_FMT_SLOT_WIDTH (i : Nat) : Fld := ⟨0x6c0104 + 0x80 * i, 20, 2⟩
/-- AUD_P_FMT [17:16], chapter 14 R389. -/
def AUD_P_FMT_DATA_WIDTH (i : Nat) : Fld := ⟨0x6c0104 + 0x80 * i, 16, 2⟩
/-- AUD_P_FMT [12:8], chapter 14 R389. -/
def AUD_P_FMT_OFFSET (i : Nat) : Fld := ⟨0x6c0104 + 0x80 * i, 8, 5⟩
/-- AUD_P_FMT [3:3], chapter 14 R389. -/
def AUD_P_FMT_FS_POL (i : Nat) : Fld := ⟨0x6c0104 + 0x80 * i, 3, 1⟩
/-- AUD_P_FMT [2:2], chapter 14 R389. -/
def AUD_P_FMT_BCLK_EDGE (i : Nat) : Fld := ⟨0x6c0104 + 0x80 * i, 2, 1⟩
/-- AUD_P_FMT [5:4], chapter 14 R389. -/
def AUD_P_FMT_FS_FORMAT (i : Nat) : Fld := ⟨0x6c0104 + 0x80 * i, 4, 2⟩
/-- AUD_P_STATUS [31:16], chapter 14 R389. -/
def AUD_P_STATUS_STATUS (i : Nat) : Fld := ⟨0x6c0108 + 0x80 * i, 16, 16⟩
/-- AUD_P_STATUS [15:15], chapter 14 R389. -/
def AUD_P_STATUS_PENDING_ENABLE (i : Nat) : Fld := ⟨0x6c0108 + 0x80 * i, 15, 1⟩
/-- AUD_P_STATUS [14:14], chapter 14 R389. -/
def AUD_P_STATUS_SHUTTING_DOWN (i : Nat) : Fld := ⟨0x6c0108 + 0x80 * i, 14, 1⟩
/-- AUD_P_STATUS [13:13], chapter 14 R389. -/
def AUD_P_STATUS_SLEWING (i : Nat) : Fld := ⟨0x6c0108 + 0x80 * i, 13, 1⟩
/-- AUD_P_STATUS [12:12], chapter 14 R389. -/
def AUD_P_STATUS_HOLDOVER (i : Nat) : Fld := ⟨0x6c0108 + 0x80 * i, 12, 1⟩
/-- AUD_P_STATUS [11:10], chapter 14 R389. -/
def AUD_P_STATUS_CLK (i : Nat) : Fld := ⟨0x6c0108 + 0x80 * i, 10, 2⟩
/-- AUD_P_STATUS [3:3], chapter 14 R389. -/
def AUD_P_STATUS_NA_IRQ (i : Nat) : Fld := ⟨0x6c0108 + 0x80 * i, 3, 1⟩
/-- AUD_P_STATUS [2:2], chapter 14 R389. -/
def AUD_P_STATUS_CLK_IRQ (i : Nat) : Fld := ⟨0x6c0108 + 0x80 * i, 2, 1⟩
/-- AUD_P_STATUS [1:1], chapter 14 R389. -/
def AUD_P_STATUS_UNDERRUN_IRQ (i : Nat) : Fld := ⟨0x6c0108 + 0x80 * i, 1, 1⟩
/-- AUD_P_STATUS [0:0], chapter 14 R389. -/
def AUD_P_STATUS_ERR_IRQ (i : Nat) : Fld := ⟨0x6c0108 + 0x80 * i, 0, 1⟩
/-- AUD_P_IRQ_EN [3:3], chapter 14 R389. -/
def AUD_P_IRQ_EN_NA (i : Nat) : Fld := ⟨0x6c010c + 0x80 * i, 3, 1⟩
/-- AUD_P_IRQ_EN [2:2], chapter 14 R389. -/
def AUD_P_IRQ_EN_CLK (i : Nat) : Fld := ⟨0x6c010c + 0x80 * i, 2, 1⟩
/-- AUD_P_IRQ_EN [1:1], chapter 14 R389. -/
def AUD_P_IRQ_EN_UNDERRUN (i : Nat) : Fld := ⟨0x6c010c + 0x80 * i, 1, 1⟩
/-- AUD_P_IRQ_EN [0:0], chapter 14 R389. -/
def AUD_P_IRQ_EN_ERR (i : Nat) : Fld := ⟨0x6c010c + 0x80 * i, 0, 1⟩
/-- AUD_P_CLK [31:16], chapter 14 R389. -/
def AUD_P_CLK_PPM (i : Nat) : Fld := ⟨0x6c0110 + 0x80 * i, 16, 16⟩
/-- AUD_P_CLK [7:0], chapter 14 R389. -/
def AUD_P_CLK_GLITCH_LIMIT (i : Nat) : Fld := ⟨0x6c0110 + 0x80 * i, 0, 8⟩
/-- AUD_P_NA [15:0], chapter 14 R389. -/
def AUD_P_NA_PAIRS (i : Nat) : Fld := ⟨0x6c0114 + 0x80 * i, 0, 16⟩
/-- AUD_P_UNDERRUN [31:0], chapter 14 R389. -/
def AUD_P_UNDERRUN_COUNT (i : Nat) : Fld := ⟨0x6c0120 + 0x80 * i, 0, 32⟩
/-- AUD_P_LATE [31:0], chapter 14 R389. -/
def AUD_P_LATE_COUNT (i : Nat) : Fld := ⟨0x6c0124 + 0x80 * i, 0, 32⟩
/-- AUD_P_LEN_DROP [31:0], chapter 14 R389. -/
def AUD_P_LEN_DROP_COUNT (i : Nat) : Fld := ⟨0x6c0128 + 0x80 * i, 0, 32⟩
/-- AUD_P_GLITCH [31:0], chapter 14 R389. -/
def AUD_P_GLITCH_COUNT (i : Nat) : Fld := ⟨0x6c012c + 0x80 * i, 0, 32⟩
/-- AUD_P_HOLD_PERIODS [31:0], chapter 14 R389. -/
def AUD_P_HOLD_PERIODS_COUNT (i : Nat) : Fld := ⟨0x6c0130 + 0x80 * i, 0, 32⟩
/-- AUD_P_ZC_TMO [31:0], chapter 14 R389. -/
def AUD_P_ZC_TMO_COUNT (i : Nat) : Fld := ⟨0x6c0134 + 0x80 * i, 0, 32⟩
/-- BIST_STATUS [31:16], chapter 19 R489. -/
def BIST_STATUS_STATUS : Fld := ⟨0x740000, 16, 16⟩
/-- BIST_STATUS [15:8], chapter 19 R489. -/
def BIST_STATUS_ACTIVE : Fld := ⟨0x740000, 8, 8⟩
/-- BIST_STATUS [1:1], chapter 19 R489. -/
def BIST_STATUS_DONE_IRQ : Fld := ⟨0x740000, 1, 1⟩
/-- BIST_STATUS [0:0], chapter 19 R489. -/
def BIST_STATUS_MAINT_ACTIVE : Fld := ⟨0x740000, 0, 1⟩
/-- BIST_CTRL [0:0], chapter 19 R489. -/
def BIST_CTRL_DONE_IRQ_EN : Fld := ⟨0x740004, 0, 1⟩
/-- BIST_S_CMD [31:31], chapter 19 R489. -/
def BIST_S_CMD_GO (i : Nat) : Fld := ⟨0x740100 + 0x20 * i, 31, 1⟩
/-- BIST_S_CMD [30:30], chapter 19 R489. -/
def BIST_S_CMD_ABORT (i : Nat) : Fld := ⟨0x740100 + 0x20 * i, 30, 1⟩
/-- BIST_S_CMD [20:16], chapter 19 R489. -/
def BIST_S_CMD_PAT_LOG2 (i : Nat) : Fld := ⟨0x740100 + 0x20 * i, 16, 5⟩
/-- BIST_S_CMD [7:0], chapter 19 R489. -/
def BIST_S_CMD_TARGET (i : Nat) : Fld := ⟨0x740100 + 0x20 * i, 0, 8⟩
/-- BIST_S_STATUS [31:16], chapter 19 R489. -/
def BIST_S_STATUS_STATUS (i : Nat) : Fld := ⟨0x740104 + 0x20 * i, 16, 16⟩
/-- BIST_S_STATUS [15:13], chapter 19 R489. -/
def BIST_S_STATUS_STATE (i : Nat) : Fld := ⟨0x740104 + 0x20 * i, 13, 3⟩
/-- BIST_S_STATUS [12:12], chapter 19 R489. -/
def BIST_S_STATUS_COMPLETE (i : Nat) : Fld := ⟨0x740104 + 0x20 * i, 12, 1⟩
/-- BIST_S_STATUS [11:11], chapter 19 R489. -/
def BIST_S_STATUS_SIG_VALID (i : Nat) : Fld := ⟨0x740104 + 0x20 * i, 11, 1⟩
/-- BIST_S_STATUS [9:8], chapter 19 R489. -/
def BIST_S_STATUS_RESULT (i : Nat) : Fld := ⟨0x740104 + 0x20 * i, 8, 2⟩
/-- BIST_S_COUNT [31:0], chapter 19 R489. -/
def BIST_S_COUNT_V (i : Nat) : Fld := ⟨0x740108 + 0x20 * i, 0, 32⟩
/-- BIST_S_SIG_LO [31:0], chapter 19 R489. -/
def BIST_S_SIG_LO_V (i : Nat) : Fld := ⟨0x74010c + 0x20 * i, 0, 32⟩
/-- BIST_S_SIG_HI [31:0], chapter 19 R489. -/
def BIST_S_SIG_HI_V (i : Nat) : Fld := ⟨0x740110 + 0x20 * i, 0, 32⟩
/-- BIST_S_EXP_LO [31:0], chapter 19 R489. -/
def BIST_S_EXP_LO_V (i : Nat) : Fld := ⟨0x740114 + 0x20 * i, 0, 32⟩
/-- BIST_S_EXP_HI [31:0], chapter 19 R489. -/
def BIST_S_EXP_HI_V (i : Nat) : Fld := ⟨0x740118 + 0x20 * i, 0, 32⟩
/-- CAL_CTRL [31:31], chapter 19 R490. -/
def CAL_CTRL_NOW : Fld := ⟨0x780000, 31, 1⟩
/-- CAL_CTRL [30:30], chapter 19 R490. -/
def CAL_CTRL_AUTO : Fld := ⟨0x780000, 30, 1⟩
/-- CAL_CTRL [15:8], chapter 19 R490. -/
def CAL_CTRL_DELTA : Fld := ⟨0x780000, 8, 8⟩
/-- CAL_CTRL [0:0], chapter 19 R490. -/
def CAL_CTRL_IRQ_EN : Fld := ⟨0x780000, 0, 1⟩
/-- CAL_STATUS [31:16], chapter 19 R490. -/
def CAL_STATUS_STATUS : Fld := ⟨0x780004, 16, 16⟩
/-- CAL_STATUS [15:15], chapter 19 R490. -/
def CAL_STATUS_RUNNING : Fld := ⟨0x780004, 15, 1⟩
/-- CAL_STATUS [14:13], chapter 19 R490. -/
def CAL_STATUS_GROUP : Fld := ⟨0x780004, 13, 2⟩
/-- CAL_STATUS [12:9], chapter 19 R490. -/
def CAL_STATUS_POSITION : Fld := ⟨0x780004, 9, 4⟩
/-- CAL_STATUS [0:0], chapter 19 R490. -/
def CAL_STATUS_CAL_IRQ : Fld := ⟨0x780004, 0, 1⟩
/-- CAL_TEMP [31:16], chapter 19 R490. -/
def CAL_TEMP_LAST : Fld := ⟨0x780008, 16, 16⟩
/-- CAL_TEMP [15:0], chapter 19 R490. -/
def CAL_TEMP_CUR : Fld := ⟨0x780008, 0, 16⟩
/-- CAL_SKIPS [31:0], chapter 19 R490. -/
def CAL_SKIPS_COUNT : Fld := ⟨0x78000c, 0, 32⟩
/-- CAL_L [23:16], chapter 19 R490. -/
def CAL_L_LIMIT (i : Nat) : Fld := ⟨0x780100 + 0x4 * i, 16, 8⟩
/-- CAL_L [15:0], chapter 19 R490. -/
def CAL_L_PASSES (i : Nat) : Fld := ⟨0x780100 + 0x4 * i, 0, 16⟩
/-- UPD_CTRL [1:1], chapter 20 R504. -/
def UPD_CTRL_ERR_IRQ_EN : Fld := ⟨0x7c0000, 1, 1⟩
/-- UPD_CTRL [0:0], chapter 20 R504. -/
def UPD_CTRL_DONE_IRQ_EN : Fld := ⟨0x7c0000, 0, 1⟩
/-- UPD_CMD [31:31], chapter 20 R504. -/
def UPD_CMD_STAGE : Fld := ⟨0x7c0004, 31, 1⟩
/-- UPD_CMD [30:30], chapter 20 R504. -/
def UPD_CMD_ACTIVATE : Fld := ⟨0x7c0004, 30, 1⟩
/-- UPD_CMD [29:29], chapter 20 R504. -/
def UPD_CMD_CANCEL : Fld := ⟨0x7c0004, 29, 1⟩
/-- UPD_CMD [8:8], chapter 20 R504. -/
def UPD_CMD_MODE : Fld := ⟨0x7c0004, 8, 1⟩
/-- UPD_STATUS [31:16], chapter 20 R504. -/
def UPD_STATUS_STATUS : Fld := ⟨0x7c0008, 16, 16⟩
/-- UPD_STATUS [10:10], chapter 20 R504. -/
def UPD_STATUS_ACTIVATED : Fld := ⟨0x7c0008, 10, 1⟩
/-- UPD_STATUS [9:9], chapter 20 R504. -/
def UPD_STATUS_ERR_IRQ : Fld := ⟨0x7c0008, 9, 1⟩
/-- UPD_STATUS [8:8], chapter 20 R504. -/
def UPD_STATUS_DONE_IRQ : Fld := ⟨0x7c0008, 8, 1⟩
/-- UPD_STATUS [7:4], chapter 20 R504. -/
def UPD_STATUS_PARTS : Fld := ⟨0x7c0008, 4, 4⟩
/-- UPD_STATUS [2:0], chapter 20 R504. -/
def UPD_STATUS_STATE : Fld := ⟨0x7c0008, 0, 3⟩
/-- UPD_PKG_ADDR_LO [31:4], chapter 20 R504. -/
def UPD_PKG_ADDR_LO_ADDR : Fld := ⟨0x7c000c, 4, 28⟩
/-- UPD_PKG_ADDR_HI [7:0], chapter 20 R504. -/
def UPD_PKG_ADDR_HI_ADDR : Fld := ⟨0x7c0010, 0, 8⟩
/-- UPD_PKG_LEN [31:0], chapter 20 R504. -/
def UPD_PKG_LEN_LEN : Fld := ⟨0x7c0014, 0, 32⟩
/-- UPD_REFUSE [0:0], chapter 20 R504. -/
def UPD_REFUSE_BUSY : Fld := ⟨0x7c0018, 0, 1⟩
/-- UPD_ERR_LOC [31:30], chapter 20 R504. -/
def UPD_ERR_LOC_PART : Fld := ⟨0x7c001c, 30, 2⟩
/-- UPD_ERR_LOC [15:0], chapter 20 R504. -/
def UPD_ERR_LOC_BLOCK : Fld := ⟨0x7c001c, 0, 16⟩
/-- UPD_RELEASE [31:0], chapter 20 R504. -/
def UPD_RELEASE_V : Fld := ⟨0x7c0020, 0, 32⟩
/-- UPD_PROGRESS [31:0], chapter 20 R504. -/
def UPD_PROGRESS_V : Fld := ⟨0x7c0024, 0, 32⟩
/-- UPD_LIB_ADDR_LO [31:6], chapter 20 R504. -/
def UPD_LIB_ADDR_LO_ADDR : Fld := ⟨0x7c0028, 6, 26⟩
/-- UPD_LIB_ADDR_HI [7:0], chapter 20 R504. -/
def UPD_LIB_ADDR_HI_ADDR : Fld := ⟨0x7c002c, 0, 8⟩
/-- UPD_LIB_LEN [31:0], chapter 20 R504. -/
def UPD_LIB_LEN_LEN : Fld := ⟨0x7c0030, 0, 32⟩

end F

end Sys2Proof.Machine
end

