-- ==== Sys2Proof/Machine/RegMap.lean ====
section
/-! DEFINITION. The register map: the registers of every block of the control space as the register tables of the spec
give them (R4, R8 and the register rule of each chapter). One row is one register, or a regular array of up to two
dimensions: its offset in the block, the counts and strides, the masks of its RW and of its W1C bits, the mask of
its bits that are kept through a warm reset (RWS), and its reset value. -/

namespace Sys2Proof.Machine

/-- One row of the register map. -/
structure RegRow where
  off : Nat
  n1 : Nat
  s1 : Nat
  n2 : Nat
  s2 : Nat
  rw : Nat
  w1c : Nat
  keep : Nat
  reset : Nat
  deriving DecidableEq, Repr

/-- Does the row describe the register at offset `o` of its block? -/
def RegRow.covers (r : RegRow) (o : Nat) : Bool :=
  decide (r.off ≤ o) && decide ((o - r.off) / r.s1 < r.n1) &&
    decide ((o - r.off) % r.s1 / r.s2 < r.n2) && decide ((o - r.off) % r.s1 % r.s2 = 0)

/-- Block 0x01: chapter 18 R472. -/
def regRows01 : List RegRow :=
  [⟨0, 1, 4, 1, 4, 0, 0, 0, 0⟩, -- KPR_CTRL
    ⟨4, 1, 4, 1, 4, 0, 0, 0, 0⟩, -- KPR_BOOT
    ⟨8, 1, 4, 1, 4, 0, 0, 0, 0⟩, -- KPR_HOST_GO
    ⟨0xc, 1, 4, 1, 4, 0, 0, 0, 0⟩, -- KPR_DIR_SEQ
    ⟨0x10, 1, 4, 1, 4, 0, 0, 0, 0⟩, -- KPR_VER_KEEPER
    ⟨0x14, 1, 4, 1, 4, 0, 0, 0, 0⟩, -- KPR_VER_CFG
    ⟨0x18, 1, 4, 1, 4, 0, 0, 0, 0⟩, -- KPR_VER_UNIT
    ⟨0x1c, 1, 4, 1, 4, 0, 0, 0, 0⟩, -- KPR_VER_LIB
    ⟨0x20, 1, 4, 1, 4, 0, 0, 0, 0⟩, -- KPR_UNIT_RESTARTS
    ⟨0x24, 1, 4, 1, 4, 0, 0, 0, 0⟩, -- KPR_KEEPER_RESTARTS
    ⟨0x28, 1, 4, 1, 4, 0, 0, 0, 0⟩, -- KPR_BOOT_LIB_LO
    ⟨0x2c, 1, 4, 1, 4, 0, 0, 0, 0⟩, -- KPR_BOOT_LIB_HI
    ⟨0x30, 1, 4, 1, 4, 0, 0, 0, 0⟩] -- KPR_BOOT_LIB_LEN

/-- Block 0x02: chapter 17 R450. -/
def regRows02 : List RegRow :=
  [⟨0, 1, 4, 1, 4, 0, 0xc0, 0, 0⟩, -- PWR_STATUS
    ⟨4, 1, 4, 1, 4, 3, 0, 0, 0⟩, -- PWR_CTRL
    ⟨8, 1, 4, 1, 4, 0xffff, 0, 0xffff, 0x1770⟩, -- PWR_LOWIN
    ⟨0xc, 1, 4, 1, 4, 0, 0, 0, 0⟩, -- PWR_VIN
    ⟨0x10, 1, 4, 1, 4, 0, 0, 0, 0⟩, -- PWR_IIN
    ⟨0x14, 1, 4, 1, 4, 0, 0, 0, 0⟩, -- PWR_PIN
    ⟨0x18, 1, 4, 1, 4, 0, 0, 0, 0⟩, -- PWR_TEMP
    ⟨0x1c, 1, 4, 1, 4, 0xffff, 0, 0, 0x6e0⟩, -- PWR_TEMP_WARN
    ⟨0x20, 1, 4, 1, 4, 0x300, 0, 0x303, 0⟩, -- PWR_LAST_OFF
    ⟨0x24, 1, 4, 1, 4, 7, 0, 7, 1⟩, -- PWR_WAKE_CFG
    ⟨0x28, 1, 4, 1, 4, 0xffffffff, 0, 0xffffffff, 0⟩, -- PWR_WAKE_ALARM
    ⟨0x2c, 1, 4, 1, 4, 0xffff, 0, 0xffff, 0x1b58⟩, -- PWR_WAKE_VIN
    ⟨0x100, 32, 4, 1, 4, 0x80000000, 0, 0, 0⟩, -- PWR_ISL
    ⟨0x200, 32, 4, 1, 4, 0, 0, 0, 0⟩, -- PWR_ISL_WAKES
    ⟨0x300, 32, 4, 1, 4, 0, 0, 0, 0⟩, -- PWR_ISL_AWAKE
    ⟨0x400, 32, 4, 1, 4, 0, 0, 0, 0⟩] -- PWR_ISL_IDLE

/-- Block 0x03: chapter 17 R451. -/
def regRows03 : List RegRow :=
  [⟨0, 1, 4, 1, 4, 3, 0, 0, 0⟩, -- CLK_FCLK
    ⟨4, 1, 4, 1, 4, 3, 0, 0, 0⟩, -- CLK_ECLK
    ⟨8, 1, 4, 1, 4, 0, 0, 0, 0⟩, -- CLK_STATUS
    ⟨0x10, 2, 4, 1, 4, 3, 0, 0, 0⟩] -- CLK_CCLK

/-- Block 0x04: chapter 16 R426, chapter 16 R427. -/
def regRows04 : List RegRow :=
  [⟨0, 1, 4, 1, 4, 0, 0, 0, 0⟩, -- CUX_OWNER
    ⟨4, 1, 4, 1, 4, 0xc0ffffff, 0, 0, 0xc0080064⟩, -- CUX_CFG
    ⟨8, 1, 4, 1, 4, 0xffffffff, 0, 0, 0x3e80064⟩, -- CUX_TIMES
    ⟨0xc, 1, 4, 1, 4, 0, 0, 0, 0⟩, -- CUX_STATUS
    ⟨0x10, 1, 4, 1, 4, 0, 0, 0xffffffff, 0⟩, -- CUX_SWITCH_COUNT
    ⟨0x14, 1, 4, 1, 4, 0, 0, 0, 0⟩, -- CUX_LAST_GAP
    ⟨0x18, 1, 4, 1, 4, 0, 0, 0, 0⟩, -- CUX_LAST_DOUBLE
    ⟨0x1c, 1, 4, 1, 4, 0, 0, 0, 0⟩, -- CUX_HOLD
    ⟨0x20, 1, 4, 1, 4, 0, 0, 0, 0⟩, -- CUX_SYNC_SEQ
    ⟨0x24, 1, 4, 1, 4, 0, 0, 0, 0⟩, -- CUX_LAST_SYNC_SEQ
    ⟨0x28, 1, 4, 1, 4, 0, 0, 0, 0⟩, -- CUX_DENY_P
    ⟨0x2c, 1, 4, 1, 4, 0, 0, 0, 0⟩, -- CUX_DENY_D
    ⟨0x30, 1, 4, 1, 4, 0, 0, 0, 0⟩, -- CUX_DENY_HOST
    ⟨0x34, 1, 4, 1, 4, 0, 0, 0, 0⟩, -- CUX_UNDELIVERED
    ⟨0x38, 1, 4, 1, 4, 0, 0, 0, 0⟩, -- CUX_MISS_L
    ⟨0x3c, 1, 4, 1, 4, 0, 0, 0, 0⟩, -- CUX_MISS_K
    ⟨0x400, 64, 4, 1, 4, 0, 0xffffffff, 0, 0⟩, -- CUX_QIRQ_PEND
    ⟨0x100, 2, 0x80, 1, 4, 0, 0, 0, 0⟩, -- CUX_U_STATE
    ⟨0x104, 2, 0x80, 1, 4, 0, 0, 0, 0⟩, -- CUX_U_CTRL
    ⟨0x108, 2, 0x80, 1, 4, 0, 0, 0, 0⟩, -- CUX_U_KICK
    ⟨0x10c, 2, 0x80, 1, 4, 0xffffff, 0, 0, 0⟩, -- CUX_U_WDOG
    ⟨0x110, 2, 0x80, 1, 4, 0x7f, 0, 0, 0⟩, -- CUX_U_IRQ_EN
    ⟨0x114, 2, 0x80, 1, 4, 0, 0x7f, 0, 0⟩, -- CUX_U_IRQ
    ⟨0x118, 2, 0x80, 1, 4, 0x1f0000, 0, 0, 0⟩, -- CUX_U_MIR_BASE
    ⟨0x11c, 2, 0x80, 1, 4, 0xfff0000, 0, 0, 0⟩, -- CUX_U_MIR_PTR
    ⟨0x120, 2, 0x80, 1, 4, 0x1f0000, 0, 0, 0⟩, -- CUX_U_JTX_BASE
    ⟨0x124, 2, 0x80, 1, 4, 0, 0, 0, 0⟩, -- CUX_U_JTX_DB
    ⟨0x128, 2, 0x80, 1, 4, 0, 0, 0, 0⟩, -- CUX_U_JTX_PTR
    ⟨0x12c, 2, 0x80, 1, 4, 0x1f0000, 0, 0, 0⟩, -- CUX_U_JRX_BASE
    ⟨0x130, 2, 0x80, 1, 4, 0xfff0000, 0, 0, 0⟩, -- CUX_U_JRX_PTR
    ⟨0x134, 2, 0x80, 1, 4, 0, 0, 0, 0⟩] -- CUX_U_ECC_CORR

/-- Block 0x05: chapter 04 R136. -/
def regRows05 : List RegRow :=
  [⟨0, 1, 4, 1, 4, 0, 0, 0, 0⟩, -- MESH_TAGS
    ⟨4, 1, 4, 1, 4, 0, 0, 0, 0⟩, -- MESH_CTRL
    ⟨8, 1, 4, 1, 4, 0, 0, 0, 0⟩] -- MESH_TAG_WAIT

/-- Block 0x06: chapter 04 R161. -/
def regRows06 : List RegRow :=
  [⟨0, 1, 4, 1, 4, 0, 1, 0, 0⟩, -- TSTO_STATUS
    ⟨4, 1, 4, 1, 4, 0, 0, 0, 0⟩] -- TSTO_WPROT_COUNT

/-- Block 0x07: chapter 04 R160. -/
def regRows07 : List RegRow :=
  [⟨0, 1, 4, 1, 4, 0xf0f, 0, 0, 0⟩, -- QDR_CFG
    ⟨4, 1, 4, 1, 4, 0x706, 0, 0, 0⟩, -- QDR_CTRL
    ⟨8, 1, 4, 1, 4, 0, 6, 0, 0⟩, -- QDR_STATUS
    ⟨0x20, 8, 8, 1, 4, 0, 0, 0, 0⟩, -- QDR_CRC_RETRY
    ⟨0x24, 8, 8, 1, 4, 0, 0, 0, 0⟩, -- QDR_CRC_ERR
    ⟨0x60, 1, 4, 1, 4, 0, 0, 0, 0⟩, -- QDR_ERR_ADDR_LO
    ⟨0x64, 1, 4, 1, 4, 0, 0, 0, 0⟩, -- QDR_ERR_ADDR_HI
    ⟨0x68, 1, 4, 1, 4, 0, 0, 0, 0⟩, -- QDR_ERR_POP
    ⟨0x80, 8, 4, 1, 4, 0, 0, 0, 0⟩] -- QDR_DRIFT

/-- Block 0x08: chapter 04 R158. -/
def regRows08 : List RegRow :=
  [⟨0, 1, 4, 1, 4, 1, 0, 0, 0⟩, -- XLT_CTRL
    ⟨4, 1, 4, 1, 4, 0, 2, 0, 0⟩, -- XLT_STATUS
    ⟨8, 1, 4, 1, 4, 0, 0, 0, 0⟩, -- XLT_SPACE_REQ
    ⟨0xc, 1, 4, 1, 4, 0, 0, 0, 0⟩, -- XLT_SPACE_RESULT
    ⟨0x10, 1, 4, 1, 4, 0xff, 0, 0, 0⟩, -- XLT_SPACE_SEL
    ⟨0x14, 1, 4, 1, 4, 0xfffffe00, 0, 0, 0⟩, -- XLT_SPACE_ROOT_LO
    ⟨0x18, 1, 4, 1, 4, 0xff, 0, 0, 0⟩, -- XLT_SPACE_ROOT_HI
    ⟨0x1c, 1, 4, 1, 4, 0, 0, 0, 0⟩, -- XLT_SPACE_CMD
    ⟨0x20, 1, 4, 1, 4, 0, 0, 0, 0x200ff⟩, -- XLT_SPACE_INFO
    ⟨0x24, 1, 4, 1, 4, 0xffff0000, 0, 0, 0⟩, -- XLT_INV_VA_LO
    ⟨0x28, 1, 4, 1, 4, 0xffff, 0, 0, 0⟩, -- XLT_INV_VA_HI
    ⟨0x2c, 1, 4, 1, 4, 0xffffffff, 0, 0, 0⟩, -- XLT_INV_PAGES
    ⟨0x30, 1, 4, 1, 4, 0, 0, 0, 0⟩, -- XLT_INV_CMD
    ⟨0x40, 1, 4, 1, 4, 0x3ff, 0, 0, 0⟩, -- XLT_FQ_HEAD
    ⟨0x44, 1, 4, 1, 4, 0, 0, 0, 0⟩, -- XLT_FQ_TAIL
    ⟨0x48, 1, 4, 1, 4, 0, 0, 0, 0⟩, -- XLT_FQ_WAIT_COUNT
    ⟨0x50, 1, 4, 1, 4, 0x8000ffff, 0, 0, 0⟩, -- XLT_RESOLVE_ID
    ⟨0x54, 1, 4, 1, 4, 0xffffffff, 0, 0, 0⟩, -- XLT_RESOLVE_SEQ
    ⟨0x58, 1, 4, 1, 4, 0, 0, 0, 0⟩, -- XLT_RESOLVE_CMD
    ⟨0x5c, 1, 4, 1, 4, 0, 0, 0, 0⟩, -- XLT_RESOLVE_RESULT
    ⟨0x60, 1, 4, 1, 4, 0, 0, 0, 0x4000400⟩, -- XLT_CTX
    ⟨0x64, 1, 4, 1, 4, 0, 0, 0, 0⟩] -- XLT_HOLE_COUNT

/-- Block 0x09: chapter 04 R159. -/
def regRows09 : List RegRow :=
  [⟨0, 16, 0x40, 1, 4, 0xffffffe0, 0, 0, 0⟩, -- DMA_RING_LO
    ⟨4, 16, 0x40, 1, 4, 0xff, 0, 0, 0⟩, -- DMA_RING_HI
    ⟨8, 16, 0x40, 1, 4, 0xe0001fff, 0, 0, 0⟩, -- DMA_RING_CFG
    ⟨0xc, 16, 0x40, 1, 4, 0, 0, 0, 0⟩, -- DMA_DB
    ⟨0x10, 16, 0x40, 1, 4, 0, 0, 0, 0⟩, -- DMA_PTR
    ⟨0x14, 16, 0x40, 1, 4, 0, 6, 0, 0⟩] -- DMA_STAT

/-- Block 0x0A: chapter 03 R126. -/
def regRows0A : List RegRow :=
  [⟨0, 1, 4, 1, 4, 0, 3, 0, 0⟩, -- HQ_STATUS
    ⟨4, 1, 4, 1, 4, 0, 0, 0, 0⟩, -- HQ_ALLOC_A
    ⟨8, 1, 4, 1, 4, 0, 0, 0, 0⟩, -- HQ_ALLOC_RESULT_A
    ⟨0xc, 1, 4, 1, 4, 0, 0, 0, 0⟩, -- HQ_ALLOC_B
    ⟨0x10, 1, 4, 1, 4, 0, 0, 0, 0⟩, -- HQ_ALLOC_RESULT_B
    ⟨0x14, 1, 4, 1, 4, 0xffff, 0, 0, 0⟩, -- HQ_QSEL
    ⟨0x18, 1, 4, 1, 4, 0xfffffff0, 0, 0, 0⟩, -- HQ_QCFG_BASE_LO
    ⟨0x1c, 1, 4, 1, 4, 0xff, 0, 0, 0⟩, -- HQ_QCFG_BASE_HI
    ⟨0x20, 1, 4, 1, 4, 0xffffffff, 0, 0, 0⟩, -- HQ_QCFG_SIZE
    ⟨0x24, 1, 4, 1, 4, 0, 0, 0, 0⟩, -- HQ_QCMD
    ⟨0x28, 1, 4, 1, 4, 0, 0, 0, 0⟩, -- HQ_QDEPTH
    ⟨0x2c, 1, 4, 1, 4, 0, 0, 0, 0⟩, -- HQ_QSTATE
    ⟨0x30, 1, 4, 1, 4, 0, 0, 0, 0⟩, -- HQ_QRES
    ⟨0x34, 1, 4, 1, 4, 0, 0, 0, 0⟩, -- HQ_DB_PUSH
    ⟨0x38, 1, 4, 1, 4, 0, 0, 0, 0⟩, -- HQ_DB_POP
    ⟨0x3c, 1, 4, 1, 4, 0, 0, 0, 0⟩, -- HQ_WPROT_COUNT
    ⟨0x40, 1, 4, 1, 4, 0, 0, 0, 0⟩] -- HQ_SRC_OMIT_COUNT

/-- Block 0x0B: chapter 03 R127. -/
def regRows0B : List RegRow :=
  [⟨0, 1, 4, 1, 4, 0x3ff0077, 0, 0, 0x1000061⟩, -- SCH_CTRL
    ⟨4, 1, 4, 1, 4, 0xffffffff, 0, 0, 0x1000040⟩, -- SCH_PREEMPT
    ⟨8, 1, 4, 1, 4, 0, 3, 0, 0⟩, -- SCH_STATUS
    ⟨0xc, 1, 4, 1, 4, 0, 0, 0, 0x20002000⟩, -- SCH_SLOTS
    ⟨0x10, 1, 4, 1, 4, 0, 0, 0, 0⟩, -- SCH_SLOT_STALL
    ⟨0x14, 1, 4, 1, 4, 0, 0, 0, 0⟩, -- SCH_CANCEL
    ⟨0x18, 1, 4, 1, 4, 0, 0, 0, 0⟩, -- SCH_CANCEL_RESULT
    ⟨0x1c, 1, 4, 1, 4, 0xfff, 0, 0, 0⟩, -- SCH_CPL_HEAD
    ⟨0x20, 1, 4, 1, 4, 0, 0, 0, 0⟩, -- SCH_CPL_TAIL
    ⟨0x24, 1, 4, 1, 4, 0, 0, 0, 0⟩, -- SCH_CPL_LOST
    ⟨0x28, 1, 4, 1, 4, 0xffffff, 0, 0, 0x400⟩, -- SCH_LOAD_WINDOW
    ⟨0x100, 16, 4, 1, 4, 0, 0, 0, 0⟩, -- SCH_RDY
    ⟨0x40, 4, 4, 1, 4, 0xb000ffff, 0, 0, 0⟩, -- SCH_HIST_CFG
    ⟨0x200, 4, 0x80, 20, 4, 0, 0, 0, 0⟩, -- SCH_HIST_BIN
    ⟨0x400, 128, 4, 1, 4, 0, 0, 0, 0⟩] -- SCH_ENG_LOAD

/-- Block 0x0C: chapter 05 R185. -/
def regRows0C : List RegRow :=
  [⟨0, 1, 4, 1, 4, 3, 0, 0, 0⟩, -- ENG_CTRL
    ⟨4, 1, 4, 1, 4, 0, 3, 0, 0⟩, -- ENG_STATUS
    ⟨8, 1, 4, 1, 4, 0xffffffc0, 0, 0, 0⟩, -- ENG_LIB_ADDR_LO
    ⟨0xc, 1, 4, 1, 4, 0xff, 0, 0, 0⟩, -- ENG_LIB_ADDR_HI
    ⟨0x10, 1, 4, 1, 4, 0xffffffff, 0, 0, 0⟩, -- ENG_LIB_LEN
    ⟨0x14, 1, 4, 1, 4, 0, 0, 0, 0⟩, -- ENG_LIB_CMD
    ⟨0x18, 1, 4, 1, 4, 0, 0, 0, 0⟩, -- ENG_LIB_INFO
    ⟨0x20, 1, 4, 1, 4, 0xffffffc0, 0, 0, 0⟩, -- ENG_KTAB_ADDR_LO
    ⟨0x24, 1, 4, 1, 4, 0xff, 0, 0, 0⟩, -- ENG_KTAB_ADDR_HI
    ⟨0x28, 1, 4, 1, 4, 0x1fff, 0, 0, 0⟩, -- ENG_KTAB_CMD
    ⟨0x1000, 128, 0x20, 1, 4, 0, 0, 0, 0⟩, -- ENG_E_STATE
    ⟨0x1004, 128, 0x20, 1, 4, 0, 0x80000000, 0, 0⟩, -- ENG_E_TRAP
    ⟨0x1008, 128, 0x20, 1, 4, 0, 0, 0, 0⟩, -- ENG_E_TVAL
    ⟨0x100c, 128, 0x20, 1, 4, 0, 0, 0, 0⟩, -- ENG_E_TPC
    ⟨0x1010, 128, 0x20, 1, 4, 0, 0, 0, 0⟩, -- ENG_E_INSTR
    ⟨0x1014, 128, 0x20, 1, 4, 0, 0, 0, 0⟩, -- ENG_E_VEC
    ⟨0x1018, 128, 0x20, 1, 4, 0, 0, 0, 0⟩, -- ENG_E_TSTALL
    ⟨0x101c, 128, 0x20, 1, 4, 0, 0, 0, 0⟩] -- ENG_E_MSTALL

/-- Block 0x0D: chapter 01 R35. -/
def regRows0D : List RegRow :=
  [⟨0, 1, 4, 1, 4, 3, 0, 0, 0⟩, -- SEAL_CTRL
    ⟨4, 1, 4, 1, 4, 0, 6, 0, 0⟩, -- SEAL_STATUS
    ⟨8, 1, 4, 1, 4, 0, 0, 0, 0⟩, -- SEAL_MISMATCH_COUNT
    ⟨0xc, 1, 4, 1, 4, 0, 0, 0, 0⟩, -- SEAL_HEADER_COUNT
    ⟨0x10, 1, 4, 1, 4, 0, 0, 0, 0⟩, -- SEAL_REPEAT_COUNT
    ⟨0x14, 1, 4, 1, 4, 0, 0, 0, 0⟩, -- SEAL_SUBST_COUNT
    ⟨0x18, 1, 4, 1, 4, 0, 0, 0, 0⟩, -- SEAL_DROP_COUNT
    ⟨0x20, 1, 4, 1, 4, 0, 0, 0, 0⟩, -- SEAL_EVT_SRC
    ⟨0x24, 1, 4, 1, 4, 0, 0, 0, 0⟩, -- SEAL_EVT_FRAME
    ⟨0x28, 1, 4, 1, 4, 0, 0, 0, 0⟩, -- SEAL_EVT_SEQ
    ⟨0x2c, 1, 4, 1, 4, 0, 0, 0, 0⟩, -- SEAL_EVT_FOUND
    ⟨0x30, 1, 4, 1, 4, 0, 0, 0, 0⟩, -- SEAL_EVT_COMPUTED
    ⟨0x34, 1, 4, 1, 4, 0, 0, 0, 0⟩, -- SEAL_EVT_INFO
    ⟨0x38, 1, 4, 1, 4, 0, 0, 0, 0⟩, -- SEAL_EVT_POP
    ⟨0x3c, 1, 4, 1, 4, 0, 0, 0, 0⟩, -- SEAL_EVT_LOST
    ⟨0x44, 1, 4, 1, 4, 0, 0, 0, 0⟩] -- SEAL_HALT_CLR

/-- Block 0x0E: chapter 01 R38. -/
def regRows0E : List RegRow :=
  [⟨0, 4, 0x40, 1, 4, 3, 0, 0, 0⟩, -- CKV_CTRL
    ⟨4, 4, 0x40, 1, 4, 0xffffffff, 0, 0, 0⟩, -- CKV_FOLD
    ⟨8, 4, 0x40, 1, 4, 0, 0, 0, 0⟩, -- CKV_DATA
    ⟨0xc, 4, 0x40, 1, 4, 0, 0, 0, 0⟩, -- CKV_RESULT
    ⟨0x10, 4, 0x40, 1, 4, 0, 0, 0, 0xffffffff⟩, -- CKV_REG
    ⟨0x14, 4, 0x40, 1, 4, 0, 0, 0, 0⟩, -- CKV_COUNT
    ⟨0x18, 4, 0x40, 1, 4, 0, 2, 0, 0⟩] -- CKV_STAT

/-- Block 0x0F: chapter 02 R91. -/
def regRows0F : List RegRow :=
  [⟨0, 1, 4, 1, 4, 0x70, 0, 0, 0⟩, -- STR_CTRL
    ⟨4, 1, 4, 1, 4, 0, 0x70, 0, 0⟩, -- STR_STATUS
    ⟨8, 1, 4, 1, 4, 0xfffffff0, 0, 0, 0⟩, -- STR_IMG_ADDR_LO
    ⟨0xc, 1, 4, 1, 4, 0xff, 0, 0, 0⟩, -- STR_IMG_ADDR_HI
    ⟨0x10, 1, 4, 1, 4, 0xffffffff, 0, 0, 0⟩, -- STR_IMG_LEN
    ⟨0x14, 1, 4, 1, 4, 0xc000000f, 0, 0, 0⟩, -- STR_EPOCH
    ⟨0x18, 1, 4, 1, 4, 0xffffffff, 0, 0, 0⟩, -- STR_EPOCH_TARGET
    ⟨0x1c, 1, 4, 1, 4, 0, 0, 0, 0⟩, -- STR_ACTIVE_ID
    ⟨0x20, 1, 4, 1, 4, 0, 0, 0, 0⟩, -- STR_ACTIVE_TBL_ID
    ⟨0x24, 1, 4, 1, 4, 0, 0, 0, 0⟩, -- STR_SHADOW_ID
    ⟨0x28, 1, 4, 1, 4, 0, 0, 0, 0⟩, -- STR_ERR_LOC
    ⟨0x2c, 1, 4, 1, 4, 0, 0, 0, 0⟩, -- STR_SWAP_EPOCH
    ⟨0x30, 1, 4, 1, 4, 0, 0, 0, 0⟩, -- STR_CARRY_COUNT
    ⟨0x34, 1, 4, 1, 4, 0, 0, 0, 0⟩, -- STR_DROP_COUNT
    ⟨0x38, 1, 4, 1, 4, 0, 0, 0xffffffff, 0⟩] -- STR_SWAP_COUNT

/-- Block 0x10: chapter 06 R215, chapter 06 R216. -/
def regRows10 : List RegRow :=
  [⟨0, 4, 0x100, 1, 4, 0x80033337, 0, 0, 0⟩, -- SLK_G_CFG
    ⟨4, 4, 0x100, 1, 4, 0, 0xf8, 0, 0⟩, -- SLK_G_STATUS
    ⟨8, 4, 0x100, 1, 4, 0xf8, 0, 0, 0⟩, -- SLK_G_IRQ_EN
    ⟨0xc, 4, 0x100, 1, 4, 0xffff, 0, 0, 0⟩, -- SLK_G_FILL
    ⟨0x10, 4, 0x100, 1, 4, 0xff, 0, 0, 0x10⟩, -- SLK_G_CLK
    ⟨0x14, 4, 0x100, 1, 4, 7, 0, 0, 0⟩, -- SLK_G_SPARE
    ⟨0x20, 4, 0x100, 1, 4, 0x3000ffff, 0, 0, 0⟩, -- SLK_G_SEQ_CMD
    ⟨0x24, 4, 0x100, 1, 4, 0, 0, 0, 0⟩, -- SLK_G_SEQ_STATUS
    ⟨0x28, 4, 0x100, 1, 4, 0, 0, 0, 0⟩, -- SLK_G_SEQ_ACC
    ⟨0x2c, 4, 0x100, 1, 4, 0, 0, 0, 0⟩, -- SLK_G_SEQ_NOTE
    ⟨0x30, 4, 0x100, 1, 4, 0xffff, 0, 0, 0x3e8⟩, -- SLK_G_SEQ_TMO
    ⟨0x34, 4, 0x100, 1, 4, 0xfffffff, 0, 0, 0⟩, -- SLK_G_TEST
    ⟨0x40, 4, 0x100, 1, 4, 0, 0, 0, 0⟩, -- SLK_G_HCRC_ERR
    ⟨0x44, 4, 0x100, 1, 4, 0, 0, 0, 0⟩, -- SLK_G_PCRC_ERR
    ⟨0x48, 4, 0x100, 1, 4, 0, 0, 0, 0⟩, -- SLK_G_DROP
    ⟨0x4c, 4, 0x100, 1, 4, 0, 0, 0, 0⟩, -- SLK_G_PSEQ_GAP
    ⟨0x50, 4, 0x100, 1, 4, 0, 0, 0, 0⟩, -- SLK_G_FILL_LINES
    ⟨0x54, 4, 0x100, 1, 4, 0, 0, 0, 0⟩, -- SLK_G_UNDERRUN
    ⟨0x58, 4, 0x100, 1, 4, 0, 0, 0, 0⟩, -- SLK_G_GLITCH
    ⟨0x5c, 4, 0x100, 1, 4, 0, 0, 0, 0⟩, -- SLK_G_TEST_OK
    ⟨0x60, 4, 0x100, 1, 4, 0, 0, 0, 0⟩, -- SLK_G_TEST_ERR
    ⟨0x800, 36, 0x10, 1, 4, 0, 0, 0, 0⟩, -- SLK_L_STATUS
    ⟨0x804, 36, 0x10, 1, 4, 0, 0, 0, 0⟩] -- SLK_L_ERR

/-- Block 0x12: chapter 08 R266. -/
def regRows12 : List RegRow :=
  [⟨0, 1, 4, 1, 4, 3, 0, 0, 0⟩, -- MAG_CFG
    ⟨4, 1, 4, 1, 4, 0, 0xf0, 0, 0⟩, -- MAG_STATUS
    ⟨8, 1, 4, 1, 4, 0xf0, 0, 0, 0⟩, -- MAG_IRQ_EN
    ⟨0xc, 1, 4, 1, 4, 0xffffffff, 0, 0, 0⟩, -- MAG_TAKE_ID
    ⟨0x10, 1, 4, 1, 4, 0xffff0f03, 0, 0, 0⟩, -- MAG_TAKE_CFG
    ⟨0x14, 1, 4, 1, 4, 0, 0, 0, 0⟩, -- MAG_TAKE_CMD
    ⟨0x18, 1, 4, 1, 4, 0xfffffff0, 0, 0, 0⟩, -- MAG_USER_ADDR_LO
    ⟨0x1c, 1, 4, 1, 4, 0xff, 0, 0, 0⟩, -- MAG_USER_ADDR_HI
    ⟨0x20, 1, 4, 1, 4, 0xfff, 0, 0, 0⟩, -- MAG_USER_LEN
    ⟨0x24, 1, 4, 1, 4, 0, 0, 0, 0⟩, -- MAG_RING_FREE
    ⟨0x28, 1, 4, 1, 4, 0, 0, 0, 0⟩, -- MAG_RING_LOW
    ⟨0x2c, 1, 4, 1, 4, 0, 0, 0, 0⟩, -- MAG_REC_SEQ
    ⟨0x30, 1, 4, 1, 4, 0, 0, 0, 0⟩, -- MAG_OMIT_FRAMES
    ⟨0x34, 1, 4, 1, 4, 0, 0, 0, 0⟩, -- MAG_OMIT_TILES
    ⟨0x38, 1, 4, 1, 4, 0, 0, 0, 0⟩, -- MAG_EXCESS_TILES
    ⟨0x3c, 1, 4, 1, 4, 0xffffffff, 0, 0, 0x1000⟩, -- MAG_SPACE_LOW
    ⟨0x100, 4, 0x80, 1, 4, 0xc0000000, 0, 0, 0⟩, -- MAG_P_CTRL
    ⟨0x104, 4, 0x80, 1, 4, 0, 0x70, 0, 0⟩, -- MAG_P_STATUS
    ⟨0x108, 4, 0x80, 1, 4, 0xfffff000, 0, 0, 0⟩, -- MAG_P_QAREA_LO
    ⟨0x10c, 4, 0x80, 1, 4, 0xff, 0, 0, 0⟩, -- MAG_P_QAREA_HI
    ⟨0x110, 4, 0x80, 1, 4, 0xffff07ff, 0, 0, 0⟩, -- MAG_P_QCFG
    ⟨0x114, 4, 0x80, 1, 4, 0x3ffffffc, 0, 0, 0⟩, -- MAG_P_SQDB
    ⟨0x118, 4, 0x80, 1, 4, 0x3ffffffc, 0, 0, 0⟩, -- MAG_P_CQDB
    ⟨0x11c, 4, 0x80, 1, 4, 0xffffffff, 0, 0, 0⟩, -- MAG_P_NSID
    ⟨0x120, 4, 0x80, 1, 4, 0xfffffff0, 0, 0, 0⟩, -- MAG_P_EXT_LO
    ⟨0x124, 4, 0x80, 1, 4, 0xff, 0, 0, 0⟩, -- MAG_P_EXT_HI
    ⟨0x128, 4, 0x80, 1, 4, 0xffff, 0, 0, 0⟩, -- MAG_P_EXT_COUNT
    ⟨0x12c, 4, 0x80, 1, 4, 0, 0, 0, 0⟩, -- MAG_P_EXT_POS
    ⟨0x130, 4, 0x80, 1, 4, 0, 0, 0, 0⟩, -- MAG_P_FREE
    ⟨0x134, 4, 0x80, 1, 4, 0, 0, 0, 0⟩, -- MAG_P_RECS
    ⟨0x138, 4, 0x80, 1, 4, 0xffff, 0, 0, 0x7d0⟩, -- MAG_P_TMO
    ⟨0x13c, 4, 0x80, 1, 4, 0, 0, 0, 0⟩, -- MAG_P_DENY
    ⟨0x140, 4, 0x80, 1, 4, 0, 0, 0, 0⟩, -- MAG_P_ERR
    ⟨0x144, 4, 0x80, 1, 4, 0, 0, 0, 0⟩, -- MAG_P_CFGA
    ⟨0x148, 4, 0x80, 1, 4, 0xffffffff, 0, 0, 0⟩] -- MAG_P_CFGD

/-- Block 0x13: chapter 09 R288. -/
def regRows13 : List RegRow :=
  [⟨0, 1, 4, 1, 4, 1, 0, 0, 0⟩, -- ENC_CTRL
    ⟨4, 1, 4, 1, 4, 0, 0, 0, 0⟩, -- ENC_STATUS
    ⟨0x10, 4, 4, 1, 4, 0, 0, 0, 0⟩, -- ENC_CORE
    ⟨0x20, 4, 4, 1, 4, 0, 0, 0, 0⟩, -- ENC_SWITCH
    ⟨0x1000, 32, 0x40, 1, 4, 0xc0000001, 0, 0, 0⟩, -- ENC_S_CTRL
    ⟨0x1004, 32, 0x40, 1, 4, 0, 0, 0, 0⟩, -- ENC_S_CMD
    ⟨0x1008, 32, 0x40, 1, 4, 0, 1, 0, 0⟩, -- ENC_S_STATUS
    ⟨0x100c, 32, 0x40, 1, 4, 0, 0, 0, 0⟩, -- ENC_S_LTSEQ
    ⟨0x1010, 32, 0x40, 1, 4, 0, 0, 0, 0⟩, -- ENC_S_PICS
    ⟨0x1014, 32, 0x40, 1, 4, 0, 0, 0, 0⟩, -- ENC_S_KEYS
    ⟨0x1018, 32, 0x40, 1, 4, 0, 0, 0, 0⟩, -- ENC_S_LATE
    ⟨0x101c, 32, 0x40, 1, 4, 0, 0, 0, 0⟩, -- ENC_S_MISSING
    ⟨0x1020, 32, 0x40, 1, 4, 0, 0, 0, 0⟩] -- ENC_S_LAST_FRAME

/-- Block 0x14: chapter 10 R306. -/
def regRows14 : List RegRow :=
  [⟨0, 1, 4, 1, 4, 3, 0, 0, 0⟩, -- RATE_CTRL
    ⟨4, 1, 4, 1, 4, 0, 3, 0, 0⟩, -- RATE_STATUS
    ⟨0x1000, 32, 0x40, 1, 4, 0xffffffff, 0, 0, 0⟩, -- RATE_S_BIT_RATE
    ⟨0x1004, 32, 0x40, 1, 4, 0xffffffff, 0, 0, 0⟩, -- RATE_S_CPB_SIZE
    ⟨0x1008, 32, 0x40, 1, 4, 0xffffffff, 0, 0, 0⟩, -- RATE_S_TARGET
    ⟨0x100c, 32, 0x40, 1, 4, 0xffffffff, 0, 0, 0⟩, -- RATE_S_QP
    ⟨0x1010, 32, 0x40, 1, 4, 0, 0, 0, 0x3ff⟩, -- RATE_S_STATUS
    ⟨0x1014, 32, 0x40, 1, 4, 0, 0, 0, 0⟩, -- RATE_S_FULLNESS
    ⟨0x1018, 32, 0x40, 1, 4, 0, 0, 0, 0⟩, -- RATE_S_DEBT
    ⟨0x101c, 32, 0x40, 1, 4, 0, 0, 0, 0⟩, -- RATE_S_LAST_BITS
    ⟨0x1020, 32, 0x40, 1, 4, 0, 0, 0, 0⟩, -- RATE_S_LAST_FILLER
    ⟨0x1024, 32, 0x40, 1, 4, 0, 0, 0, 0⟩, -- RATE_S_LAST_QP
    ⟨0x1028, 32, 0x40, 1, 4, 0, 0, 0, 0⟩, -- RATE_S_FLOOR_PICS
    ⟨0x102c, 32, 0x40, 1, 4, 0, 0, 0, 0⟩, -- RATE_S_FLOOR_CTUS
    ⟨0x1030, 32, 0x40, 1, 4, 0, 0, 0, 0⟩, -- RATE_S_RECODES
    ⟨0x1034, 32, 0x40, 1, 4, 0, 0, 0, 0⟩] -- RATE_S_HRD_GAPS

/-- Block 0x15: chapter 09 R289. -/
def regRows15 : List RegRow :=
  [⟨0, 1, 4, 1, 4, 1, 0, 0, 0⟩, -- DEC_CTRL
    ⟨4, 1, 4, 1, 4, 0, 1, 0, 0⟩, -- DEC_STATUS
    ⟨8, 1, 4, 1, 4, 0, 0, 0, 0⟩, -- DEC_SEQ
    ⟨0xc, 1, 4, 1, 4, 0, 0, 0, 0⟩, -- DEC_SIZE
    ⟨0x10, 1, 4, 1, 4, 0, 0, 0, 0⟩, -- DEC_PICS
    ⟨0x14, 1, 4, 1, 4, 0, 0, 0, 0⟩, -- DEC_OUT
    ⟨0x18, 1, 4, 1, 4, 0, 0, 0, 0⟩, -- DEC_SUBST
    ⟨0x1c, 1, 4, 1, 4, 0, 0, 0, 0⟩, -- DEC_CONCEAL
    ⟨0x20, 1, 4, 1, 4, 0, 0, 0, 0⟩] -- DEC_SKIPPED

/-- Block 0x16: chapter 11 R328. -/
def regRows16 : List RegRow :=
  [⟨0, 1, 4, 1, 4, 0, 0, 0, 0⟩, -- CMP_STATUS
    ⟨0x10, 8, 4, 1, 4, 0, 0, 0, 0⟩, -- CMP_SCALER
    ⟨0x100, 4, 0x40, 1, 4, 0x80000301, 0, 0, 0⟩, -- CMP_H_CTRL
    ⟨0x104, 4, 0x40, 1, 4, 0x30731, 0, 0, 0⟩, -- CMP_H_FORMAT
    ⟨0x108, 4, 0x40, 1, 4, 0xffff, 0, 0, 0⟩, -- CMP_H_SYNC
    ⟨0x10c, 4, 0x40, 1, 4, 0xffffffff, 0, 0, 0⟩, -- CMP_H_PHASE
    ⟨0x110, 4, 0x40, 1, 4, 0x3fffffff, 0, 0, 0x20080040⟩, -- CMP_H_BG
    ⟨0x114, 4, 0x40, 1, 4, 0, 0, 0, 0⟩, -- CMP_H_COMMIT
    ⟨0x118, 4, 0x40, 1, 4, 0, 0xf00, 0, 0⟩, -- CMP_H_STATUS
    ⟨0x11c, 4, 0x40, 1, 4, 0, 0, 0, 0⟩, -- CMP_H_FRAME
    ⟨0x120, 4, 0x40, 1, 4, 0, 0, 0, 0⟩, -- CMP_H_UNDERRUN
    ⟨0x124, 4, 0x40, 1, 4, 0, 0, 0, 0⟩, -- CMP_H_SLIPS
    ⟨0x128, 4, 0x40, 1, 4, 0xf00, 0, 0, 0⟩, -- CMP_H_IRQ_EN
    ⟨0x1000, 32, 0x40, 1, 4, 0xeff0ff00, 0, 0, 0xff00⟩, -- CMP_L_CTRL
    ⟨0x1004, 32, 0x40, 1, 4, 0xffffffff, 0, 0, 0⟩, -- CMP_L_SRC_POS
    ⟨0x1008, 32, 0x40, 1, 4, 0xffffffff, 0, 0, 0⟩, -- CMP_L_SRC_SIZE
    ⟨0x100c, 32, 0x40, 1, 4, 0xffffffff, 0, 0, 0⟩, -- CMP_L_DST_POS
    ⟨0x1010, 32, 0x40, 1, 4, 0xffffffff, 0, 0, 0⟩, -- CMP_L_DST_SIZE
    ⟨0x1014, 32, 0x40, 1, 4, 0xffffffff, 0, 0, 0⟩, -- CMP_L_COEF
    ⟨0x1018, 32, 0x40, 1, 4, 0xffff, 0, 0, 0⟩, -- CMP_L_MATRIX
    ⟨0x101c, 32, 0x40, 1, 4, 0xffffffff, 0, 0, 0⟩, -- CMP_L_FENCE
    ⟨0x1020, 32, 0x40, 1, 4, 0x3fffffff, 0, 0, 0x20080040⟩, -- CMP_L_FILL
    ⟨0x1028, 32, 0x40, 1, 4, 0, 0, 0, 0⟩, -- CMP_L_STATUS
    ⟨0x102c, 32, 0x40, 1, 4, 0, 0, 0, 0⟩, -- CMP_L_SHOWN
    ⟨0x1030, 32, 0x40, 1, 4, 0, 0, 0, 0⟩, -- CMP_L_REPEAT
    ⟨0x1034, 32, 0x40, 1, 4, 0, 0, 0, 0⟩, -- CMP_L_SKIP
    ⟨0x1038, 32, 0x40, 1, 4, 0, 0, 0, 0⟩] -- CMP_L_MISSING

/-- Block 0x17: chapter 11 R329. -/
def regRows17 : List RegRow :=
  [⟨0, 4, 0x40, 1, 4, 0xc0000300, 0, 0, 0⟩, -- SDI_S_CFG
    ⟨4, 4, 0x40, 1, 4, 0, 0, 0, 0⟩, -- SDI_S_STATUS
    ⟨8, 4, 0x40, 1, 4, 0, 0, 0, 0⟩] -- SDI_S_FRAMES

/-- Block 0x18: chapter 12 R356. -/
def regRows18 : List RegRow :=
  [⟨0, 1, 4, 1, 4, 3, 0, 0, 0⟩, -- NET_CFG
    ⟨4, 1, 4, 1, 4, 0, 0, 0, 0⟩, -- NET_STATUS
    ⟨0x100, 8, 0x80, 1, 4, 0xfe003fff, 0, 0, 0x5ee⟩, -- NET_P_CTRL
    ⟨0x104, 8, 0x80, 1, 4, 0, 6, 0, 0⟩, -- NET_P_STATUS
    ⟨0x108, 8, 0x80, 1, 4, 0xffff, 0, 0, 0⟩, -- NET_P_MAC_HI
    ⟨0x10c, 8, 0x80, 1, 4, 0xffffffff, 0, 0, 0⟩, -- NET_P_MAC_LO
    ⟨0x110, 8, 0x80, 1, 4, 0xffffffff, 0, 0, 0⟩, -- NET_P_IP
    ⟨0x114, 8, 0x80, 1, 4, 0x8007ffff, 0, 0, 0⟩, -- NET_P_SWTX
    ⟨0x118, 8, 0x80, 1, 4, 0xffffffff, 0, 0, 0⟩, -- NET_P_RXCFG
    ⟨0x11c, 8, 0x80, 1, 4, 0xfffff000, 0, 0, 0⟩, -- NET_P_RXBUF_LO
    ⟨0x120, 8, 0x80, 1, 4, 0xff, 0, 0, 0⟩, -- NET_P_RXBUF_HI
    ⟨0x124, 8, 0x80, 1, 4, 0xffffffff, 0, 0, 0⟩, -- NET_P_RXBUF_SIZE
    ⟨0x130, 8, 0x80, 1, 4, 0, 0, 0, 0⟩, -- NET_P_TX_FRAMES
    ⟨0x134, 8, 0x80, 1, 4, 0, 0, 0, 0⟩, -- NET_P_RX_FRAMES
    ⟨0x138, 8, 0x80, 1, 4, 0, 0, 0, 0⟩, -- NET_P_FCS_ERR
    ⟨0x13c, 8, 0x80, 1, 4, 0, 0, 0, 0⟩, -- NET_P_RX_DROP
    ⟨0x140, 8, 0x80, 1, 4, 0, 0, 0, 0⟩, -- NET_P_DOWN_DROP
    ⟨0x144, 8, 0x80, 1, 4, 0, 0, 0, 0⟩, -- NET_P_FEC_CORR
    ⟨0x148, 8, 0x80, 1, 4, 0, 0, 0, 0⟩, -- NET_P_FEC_UNCORR
    ⟨0x14c, 8, 0x80, 1, 4, 0, 0, 0, 0⟩, -- NET_P_PAUSE_DROP
    ⟨0x150, 8, 0x80, 1, 4, 0, 0, 0, 0⟩, -- NET_P_TX_OVERSIZE
    ⟨0x1000, 64, 0x20, 1, 4, 0, 0, 0, 0⟩, -- NET_S_INFO
    ⟨0x1004, 64, 0x20, 1, 4, 0, 0, 0, 0⟩, -- NET_S_RTPSEQ
    ⟨0x1008, 64, 0x20, 1, 4, 0, 0, 0, 0⟩, -- NET_S_PKTS
    ⟨0x100c, 64, 0x20, 1, 4, 0, 0, 0, 0⟩, -- NET_S_LATE
    ⟨0x1010, 64, 0x20, 1, 4, 0, 0, 0, 0⟩, -- NET_S_MISSING
    ⟨0x1014, 64, 0x20, 1, 4, 0, 0, 0, 0⟩, -- NET_S_INCOMPLETE
    ⟨0x1018, 64, 0x20, 1, 4, 0, 0, 0, 0⟩] -- NET_S_STATUS

/-- Block 0x19: chapter 12 R357. -/
def regRows19 : List RegRow :=
  [⟨0, 8, 0x2000, 1, 4, 0x9c0001ff, 0, 0, 0⟩, -- TSN_P_CTRL
    ⟨4, 8, 0x2000, 1, 4, 0, 0xe00, 0, 0⟩, -- TSN_P_STATUS
    ⟨8, 8, 0x2000, 1, 4, 0xffffffff, 0, 0, 0⟩, -- TSN_P_BASE_SEC_LO
    ⟨0xc, 8, 0x2000, 1, 4, 0xffff, 0, 0, 0⟩, -- TSN_P_BASE_SEC_HI
    ⟨0x10, 8, 0x2000, 1, 4, 0xffffffff, 0, 0, 0⟩, -- TSN_P_BASE_NS
    ⟨0x14, 8, 0x2000, 1, 4, 0xffffffff, 0, 0, 0⟩, -- TSN_P_CYCLE_NS
    ⟨0x18, 8, 0x2000, 1, 4, 0, 0, 0, 0⟩, -- TSN_P_CHANGE_SEC_LO
    ⟨0x1c, 8, 0x2000, 1, 4, 0, 0, 0, 0⟩, -- TSN_P_CHANGE_SEC_HI
    ⟨0x20, 8, 0x2000, 1, 4, 0, 0, 0, 0⟩, -- TSN_P_CHANGE_NS
    ⟨0x24, 8, 0x2000, 1, 4, 0, 0, 0, 0⟩, -- TSN_P_OPER_CYCLE_NS
    ⟨0x100, 8, 0x2000, 8, 0x20, 0x800000ff, 0, 0, 1⟩, -- TSN_C_CFG
    ⟨0x104, 8, 0x2000, 8, 0x20, 0xffffffff, 0, 0, 0⟩, -- TSN_C_IDLE
    ⟨0x108, 8, 0x2000, 8, 0x20, 0xffffffff, 0, 0, 0⟩, -- TSN_C_HI
    ⟨0x10c, 8, 0x2000, 8, 0x20, 0, 0, 0, 0⟩, -- TSN_C_CREDIT
    ⟨0x110, 8, 0x2000, 8, 0x20, 0x7ff, 0, 0, 0x10⟩, -- TSN_C_BUF
    ⟨0x114, 8, 0x2000, 8, 0x20, 0, 0, 0, 0⟩, -- TSN_C_DEPTH
    ⟨0x118, 8, 0x2000, 8, 0x20, 0, 0, 0, 0⟩, -- TSN_C_OVERSIZE
    ⟨0x11c, 8, 0x2000, 8, 0x20, 0, 0, 0, 0⟩, -- TSN_C_TXFRAMES
    ⟨0x1000, 8, 0x2000, 256, 8, 0xff, 0, 0, 0⟩, -- TSN_ADMIN_GATES
    ⟨0x1004, 8, 0x2000, 256, 8, 0xffffffff, 0, 0, 0⟩, -- TSN_ADMIN_NS
    ⟨0x1800, 8, 0x2000, 256, 8, 0, 0, 0, 0⟩, -- TSN_OPER_GATES
    ⟨0x1804, 8, 0x2000, 256, 8, 0, 0, 0, 0⟩] -- TSN_OPER_NS

/-- Block 0x1A: chapter 13 R371. -/
def regRows1A : List RegRow :=
  [⟨0, 1, 4, 1, 4, 0xcf, 0, 0, 0⟩, -- PTP_CTRL
    ⟨4, 1, 4, 1, 4, 0, 0xc0, 0, 0⟩, -- PTP_STATUS
    ⟨8, 1, 4, 1, 4, 0xfff77ff, 0, 0, 0x3ed007f⟩, -- PTP_CFG
    ⟨0xc, 1, 4, 1, 4, 0xffffffff, 0, 0, 0x8080f8fe⟩, -- PTP_PRIO
    ⟨0x10, 1, 4, 1, 4, 0xffff003f, 0, 0, 0xa0004⟩, -- PTP_SERVO
    ⟨0x14, 1, 4, 1, 4, 0, 0, 0, 0⟩, -- PTP_TIME_CMD
    ⟨0x18, 1, 4, 1, 4, 0xffffffff, 0, 0, 0⟩, -- PTP_TIME_SEC_LO
    ⟨0x1c, 1, 4, 1, 4, 0xffff, 0, 0, 0⟩, -- PTP_TIME_SEC_HI
    ⟨0x20, 1, 4, 1, 4, 0xffffffff, 0, 0, 0⟩, -- PTP_TIME_NS
    ⟨0x24, 1, 4, 1, 4, 0, 0, 0, 0⟩, -- PTP_RATE_FRAC
    ⟨0x28, 1, 4, 1, 4, 0, 0, 0, 0⟩, -- PTP_OFFSET
    ⟨0x2c, 1, 4, 1, 4, 0, 0, 0, 0⟩, -- PTP_PATH_DELAY
    ⟨0x30, 1, 4, 1, 4, 0, 0, 0, 0⟩, -- PTP_GM_ID_HI
    ⟨0x34, 1, 4, 1, 4, 0, 0, 0, 0⟩, -- PTP_GM_ID_LO
    ⟨0x38, 1, 4, 1, 4, 0, 0, 0, 0⟩, -- PTP_UTC
    ⟨0x3c, 1, 4, 1, 4, 0, 0, 0, 0⟩, -- PTP_SM_LOCAL
    ⟨0x40, 1, 4, 1, 4, 0x37, 0, 0x37, 0⟩, -- PTP_TC_CFG
    ⟨0x44, 1, 4, 1, 4, 0xffffffff, 0, 0xffffffff, 0⟩, -- PTP_TC_LOCAL
    ⟨0x48, 1, 4, 1, 4, 0, 0, 0, 0⟩, -- PTP_TC_NOW
    ⟨0x50, 1, 4, 1, 4, 0xff, 0, 0, 4⟩, -- PTP_PPS_CFG
    ⟨0x54, 1, 4, 1, 4, 0xffffffff, 0, 0xffffffff, 0⟩, -- PTP_AO_PPB
    ⟨0x60, 1, 4, 1, 4, 0, 0, 0, 0⟩, -- PTP_SYNC_RX
    ⟨0x64, 1, 4, 1, 4, 0, 0, 0, 0⟩, -- PTP_STEPS
    ⟨0x68, 1, 4, 1, 4, 0, 0, 0, 0⟩, -- PTP_DROP
    ⟨0x6c, 1, 4, 1, 4, 0, 0, 0, 0⟩, -- PTP_PPS_GLITCH
    ⟨0x100, 8, 0x20, 1, 4, 0x80000013, 0, 0, 0⟩, -- TPO_CTRL
    ⟨0x104, 8, 0x20, 1, 4, 0xffffffff, 0, 0, 0⟩, -- TPO_START_SEC_LO
    ⟨0x108, 8, 0x20, 1, 4, 0xffff, 0, 0, 0⟩, -- TPO_START_SEC_HI
    ⟨0x10c, 8, 0x20, 1, 4, 0xffffffff, 0, 0, 0⟩, -- TPO_START_NS
    ⟨0x110, 8, 0x20, 1, 4, 0xffffffff, 0, 0, 0⟩, -- TPO_PERIOD_NS
    ⟨0x114, 8, 0x20, 1, 4, 0xffffffff, 0, 0, 0⟩, -- TPO_WIDTH_NS
    ⟨0x118, 8, 0x20, 1, 4, 0, 0, 0, 0⟩, -- TPO_STATUS
    ⟨0x11c, 8, 0x20, 1, 4, 0, 0, 0, 0⟩, -- TPO_MISSED
    ⟨0x300, 8, 0x10, 1, 4, 0, 0, 0, 0⟩, -- TPO_CAP_SEC_LO
    ⟨0x304, 8, 0x10, 1, 4, 0, 0, 0, 0⟩, -- TPO_CAP_SEC_HI
    ⟨0x308, 8, 0x10, 1, 4, 0, 0, 0, 0⟩, -- TPO_CAP_NS
    ⟨0x30c, 8, 0x10, 1, 4, 0, 0, 0, 0⟩] -- TPO_CAP_COUNT

/-- Block 0x1B: chapter 14 R389. -/
def regRows1B : List RegRow :=
  [⟨0, 1, 4, 1, 4, 0, 0, 0, 0⟩, -- AUD_STATUS
    ⟨0x10, 4, 4, 1, 4, 0xc000003f, 0, 0, 0⟩, -- AUD_GROUP
    ⟨0x100, 4, 0x80, 1, 4, 0xf107ffff, 0, 0, 0⟩, -- AUD_P_CTRL
    ⟨0x104, 4, 0x80, 1, 4, 0x3f331f3c, 0, 0, 0x2000000⟩, -- AUD_P_FMT
    ⟨0x108, 4, 0x80, 1, 4, 0, 0xf, 0, 0⟩, -- AUD_P_STATUS
    ⟨0x10c, 4, 0x80, 1, 4, 0xf, 0, 0, 0⟩, -- AUD_P_IRQ_EN
    ⟨0x110, 4, 0x80, 1, 4, 0xff, 0, 0, 0x10⟩, -- AUD_P_CLK
    ⟨0x114, 4, 0x80, 1, 4, 0, 0, 0, 0⟩, -- AUD_P_NA
    ⟨0x120, 4, 0x80, 1, 4, 0, 0, 0, 0⟩, -- AUD_P_UNDERRUN
    ⟨0x124, 4, 0x80, 1, 4, 0, 0, 0, 0⟩, -- AUD_P_LATE
    ⟨0x128, 4, 0x80, 1, 4, 0, 0, 0, 0⟩, -- AUD_P_LEN_DROP
    ⟨0x12c, 4, 0x80, 1, 4, 0, 0, 0, 0⟩, -- AUD_P_GLITCH
    ⟨0x130, 4, 0x80, 1, 4, 0, 0, 0, 0⟩, -- AUD_P_HOLD_PERIODS
    ⟨0x134, 4, 0x80, 1, 4, 0, 0, 0, 0⟩] -- AUD_P_ZC_TMO

/-- Block 0x1C: chapter 15 R396, chapter 15 R400, chapter 15 R401, chapter 15 R404. -/
def regRows1C : List RegRow :=
  [⟨0, 1, 4, 1, 4, 0x80000001, 0, 0, 0⟩, -- HIF_CTRL
    ⟨4, 1, 4, 1, 4, 0, 5, 0, 0⟩, -- HIF_STATUS
    ⟨8, 1, 4, 1, 4, 0, 0, 0, 0⟩, -- HIF_IW_ERR
    ⟨0xc, 1, 4, 1, 4, 0, 0, 0, 0⟩, -- HIF_OB_DROP
    ⟨0x10, 1, 4, 1, 4, 0, 0, 0, 0⟩, -- HIF_IW_ERR_VA_LO
    ⟨0x14, 1, 4, 1, 4, 0, 0x80000000, 0, 0⟩, -- HIF_IW_ERR_VA_HI
    ⟨0x100, 16, 0x10, 1, 4, 0x800000ff, 0, 0, 0⟩, -- HIF_IW_CFG
    ⟨0x104, 16, 0x10, 1, 4, 0xffff0000, 0, 0, 0⟩, -- HIF_IW_BASE_LO
    ⟨0x108, 16, 0x10, 1, 4, 0xffff, 0, 0, 0⟩, -- HIF_IW_BASE_HI
    ⟨0x200, 1, 4, 1, 4, 0, 0, 0, 0⟩, -- HIF_OB_BASE_LO
    ⟨0x204, 1, 4, 1, 4, 0xffffffff, 0, 0, 0⟩, -- HIF_OB_BASE_HI
    ⟨0x404, 33, 4, 1, 4, 0x800007ff, 0, 0, 0⟩, -- HIF_IRQ_MAP
    ⟨0x800, 32, 0x20, 1, 4, 0, 0, 0, 0⟩, -- HIF_CH_INFO
    ⟨0x804, 32, 0x20, 1, 4, 0, 0, 0, 0⟩, -- HIF_CH_DB
    ⟨0x808, 32, 0x20, 1, 4, 0, 0, 0, 0⟩, -- HIF_CH_PTR
    ⟨0x80c, 32, 0x20, 1, 4, 0, 0, 0, 0⟩, -- HIF_CH_TILES
    ⟨0x810, 32, 0x20, 1, 4, 0, 0, 0, 0⟩, -- HIF_CH_DROP
    ⟨0x814, 32, 0x20, 1, 4, 0, 0, 0, 0⟩, -- HIF_CH_STATUS
    ⟨0x2000, 1, 4, 1, 4, 0x701fffff, 0, 0, 0⟩, -- HIF_XSPI_CMD
    ⟨0x2004, 1, 4, 1, 4, 0xffffffff, 0, 0, 0⟩, -- HIF_XSPI_ADDR
    ⟨0x2008, 1, 4, 1, 4, 0x1fff, 0, 0, 0⟩, -- HIF_XSPI_LEN
    ⟨0x200c, 1, 4, 1, 4, 0, 0, 0, 0⟩, -- HIF_XSPI_DATA
    ⟨0x2010, 1, 4, 1, 4, 0xff1, 0, 0, 0⟩, -- HIF_XSPI_CFG
    ⟨0x2300, 1, 4, 1, 4, 0xffffffff, 0, 0, 0⟩, -- GPIO_DIR
    ⟨0x2304, 1, 4, 1, 4, 0xffffffff, 0, 0, 0⟩, -- GPIO_OUT
    ⟨0x2308, 1, 4, 1, 4, 0, 0, 0, 0⟩, -- GPIO_OUT_SET
    ⟨0x230c, 1, 4, 1, 4, 0, 0, 0, 0⟩, -- GPIO_OUT_CLR
    ⟨0x2310, 1, 4, 1, 4, 0, 0, 0, 0⟩, -- GPIO_IN
    ⟨0x2314, 2, 4, 1, 4, 0xffffffff, 0, 0, 0⟩, -- GPIO_IRQ_EDGE
    ⟨0x231c, 1, 4, 1, 4, 0, 0xffffffff, 0, 0⟩, -- GPIO_IRQ
    ⟨0x10000, 2048, 0x10, 1, 4, 0xfffffffc, 0, 0, 0⟩, -- MSIX_ADDR_LO
    ⟨0x10004, 2048, 0x10, 1, 4, 0xffffffff, 0, 0, 0⟩, -- MSIX_ADDR_HI
    ⟨0x10008, 2048, 0x10, 1, 4, 0xffffffff, 0, 0, 0⟩, -- MSIX_DATA
    ⟨0x1000c, 2048, 0x10, 1, 4, 1, 0, 0, 1⟩, -- MSIX_VCTRL
    ⟨0x18000, 64, 4, 1, 4, 0, 0, 0, 0⟩] -- MSIX_PBA

/-- Block 0x1D: chapter 19 R489. -/
def regRows1D : List RegRow :=
  [⟨0, 1, 4, 1, 4, 0, 2, 0, 0⟩, -- BIST_STATUS
    ⟨4, 1, 4, 1, 4, 1, 0, 0, 0⟩, -- BIST_CTRL
    ⟨0x100, 8, 0x20, 1, 4, 0x1f00ff, 0, 0, 0xa0000⟩, -- BIST_S_CMD
    ⟨0x104, 8, 0x20, 1, 4, 0, 0, 0, 0⟩, -- BIST_S_STATUS
    ⟨0x108, 8, 0x20, 1, 4, 0, 0, 0, 0⟩, -- BIST_S_COUNT
    ⟨0x10c, 8, 0x20, 1, 4, 0, 0, 0, 0⟩, -- BIST_S_SIG_LO
    ⟨0x110, 8, 0x20, 1, 4, 0, 0, 0, 0⟩, -- BIST_S_SIG_HI
    ⟨0x114, 8, 0x20, 1, 4, 0, 0, 0, 0⟩, -- BIST_S_EXP_LO
    ⟨0x118, 8, 0x20, 1, 4, 0, 0, 0, 0⟩] -- BIST_S_EXP_HI

/-- Block 0x1E: chapter 19 R490. -/
def regRows1E : List RegRow :=
  [⟨0, 1, 4, 1, 4, 0x4000ff01, 0, 0, 0x40000f00⟩, -- CAL_CTRL
    ⟨4, 1, 4, 1, 4, 0, 1, 0, 0⟩, -- CAL_STATUS
    ⟨8, 1, 4, 1, 4, 0, 0, 0, 0⟩, -- CAL_TEMP
    ⟨0xc, 1, 4, 1, 4, 0, 0, 0, 0⟩, -- CAL_SKIPS
    ⟨0x100, 36, 4, 1, 4, 0, 0, 0, 0⟩] -- CAL_L

/-- Block 0x1F: chapter 20 R504. -/
def regRows1F : List RegRow :=
  [⟨0, 1, 4, 1, 4, 3, 0, 0, 0⟩, -- UPD_CTRL
    ⟨4, 1, 4, 1, 4, 0, 0, 0, 0⟩, -- UPD_CMD
    ⟨8, 1, 4, 1, 4, 0, 0x700, 0, 0⟩, -- UPD_STATUS
    ⟨0xc, 1, 4, 1, 4, 0xfffffff0, 0, 0, 0⟩, -- UPD_PKG_ADDR_LO
    ⟨0x10, 1, 4, 1, 4, 0xff, 0, 0, 0⟩, -- UPD_PKG_ADDR_HI
    ⟨0x14, 1, 4, 1, 4, 0xffffffff, 0, 0, 0⟩, -- UPD_PKG_LEN
    ⟨0x18, 1, 4, 1, 4, 0, 0, 0, 0⟩, -- UPD_REFUSE
    ⟨0x1c, 1, 4, 1, 4, 0, 0, 0, 0⟩, -- UPD_ERR_LOC
    ⟨0x20, 1, 4, 1, 4, 0, 0, 0, 0⟩, -- UPD_RELEASE
    ⟨0x24, 1, 4, 1, 4, 0, 0, 0, 0⟩, -- UPD_PROGRESS
    ⟨0x28, 1, 4, 1, 4, 0xffffffc0, 0, 0, 0⟩, -- UPD_LIB_ADDR_LO
    ⟨0x2c, 1, 4, 1, 4, 0xff, 0, 0, 0⟩, -- UPD_LIB_ADDR_HI
    ⟨0x30, 1, 4, 1, 4, 0, 0, 0, 0⟩, -- UPD_LIB_LEN
    ⟨0x34, 1, 4, 1, 4, 0xffff, 0, 0, 0x2710⟩] -- UPD_HANDOVER_MS

/-- Block 0x20: chapter 00 R1, chapter 18 R466. -/
def regRows20 : List RegRow :=
  [⟨0, 1, 4, 1, 4, 0, 0, 0, 0x54014201⟩, -- FUSE_DISC_ID
    ⟨4, 1, 4, 1, 4, 0, 0, 0, 0x10080401⟩, -- FUSE_DISC_COMPUTE
    ⟨8, 1, 4, 1, 4, 0, 0, 0, 0x20041010⟩, -- FUSE_DISC_LANES
    ⟨0xc, 1, 4, 1, 4, 0, 0, 0, 0x8401008⟩, -- FUSE_DISC_MEM
    ⟨0x40, 4, 8, 1, 4, 0, 0, 0, 0⟩, -- FUSE_DIE_LO
    ⟨0x44, 4, 8, 1, 4, 0, 0, 0, 0⟩, -- FUSE_DIE_HI
    ⟨0x60, 1, 4, 1, 4, 0, 0, 0, 0⟩, -- FUSE_SERIAL
    ⟨0x64, 1, 4, 1, 4, 0, 0, 0, 0⟩, -- FUSE_WEEK
    ⟨0x80, 8, 4, 1, 4, 0, 0, 0, 0⟩, -- FUSE_VENDOR_HASH
    ⟨0xa0, 8, 4, 1, 4, 0, 0, 0, 0⟩, -- FUSE_OWNER_HASH
    ⟨0xc0, 1, 4, 1, 4, 0, 0, 0, 0⟩, -- FUSE_LOCKS
    ⟨0x100, 8, 4, 1, 4, 0xffffffff, 0, 0, 0⟩, -- FUSE_PROG_DATA
    ⟨0x120, 1, 4, 1, 4, 0, 0, 0, 0⟩, -- FUSE_PROG_CMD
    ⟨0x124, 1, 4, 1, 4, 0, 0, 0, 0⟩] -- FUSE_PROG_STATUS

/-- Block 0x21: chapter 18 R466. -/
def regRows21 : List RegRow :=
  [⟨0, 1, 4, 1, 4, 0, 0, 0, 0⟩] -- DBG_STATUS

/-- The rows of one block (R4: the block is the offset divided by 0x4_0000). -/
def regRows (blk : Nat) : List RegRow :=
  match blk with
  | 0x01 => regRows01
  | 0x02 => regRows02
  | 0x03 => regRows03
  | 0x04 => regRows04
  | 0x05 => regRows05
  | 0x06 => regRows06
  | 0x07 => regRows07
  | 0x08 => regRows08
  | 0x09 => regRows09
  | 0x0A => regRows0A
  | 0x0B => regRows0B
  | 0x0C => regRows0C
  | 0x0D => regRows0D
  | 0x0E => regRows0E
  | 0x0F => regRows0F
  | 0x10 => regRows10
  | 0x12 => regRows12
  | 0x13 => regRows13
  | 0x14 => regRows14
  | 0x15 => regRows15
  | 0x16 => regRows16
  | 0x17 => regRows17
  | 0x18 => regRows18
  | 0x19 => regRows19
  | 0x1A => regRows1A
  | 0x1B => regRows1B
  | 0x1C => regRows1C
  | 0x1D => regRows1D
  | 0x1E => regRows1E
  | 0x1F => regRows1F
  | 0x20 => regRows20
  | 0x21 => regRows21
  | _ => []

/-- The row of the register at control-space offset `off`, if the spec defines one there (R5). -/
def regRow (off : Nat) : Option RegRow :=
  (regRows (off / 0x40000)).find? (fun r => r.covers (off % 0x40000))

/-- The reset value of the register at control-space offset `off`; 0 where no register is (R5). (DESIGN CHOICE, log entry 86) -/
def regReset (off : Nat) : Word :=
  match regRow off with
  | some r => BitVec.ofNat 32 r.reset
  | none => 0

end Sys2Proof.Machine
end

