-- ==== Sys2Proof/Machine/KMap.lean ====
section
/-! DEFINITION. Sparse data by key in one canonical form: a list of (key, value) pairs, keys strictly rising, with no
entry equal to what an unlisted key reads as. Registers, memory, queues, tasks and every other sparse collection of the
model use these operations, so equal contents are equal data. -/

namespace Sys2Proof.Machine

/-- Sparse data by key. -/
abbrev KMap (α : Type) := List (Nat × α)

/-- The value at key `k`; `d` says what an unlisted key reads as. -/
def KMap.get {α : Type} (d : Nat → α) : KMap α → Nat → α
  | [], k => d k
  | (k', v) :: t, k => if k = k' then v else KMap.get d t k

/-- Write `v` at key `k`, keeping the canonical form: writing the unlisted value removes the entry. -/
def KMap.set {α : Type} [DecidableEq α] (d : Nat → α) : KMap α → Nat → α → KMap α
  | [], k, v => if v = d k then [] else [(k, v)]
  | (k', v') :: t, k, v =>
    if k < k' then (if v = d k then (k', v') :: t else (k, v) :: (k', v') :: t)
    else if k = k' then (if v = d k then t else (k, v) :: t)
    else (k', v') :: KMap.set d t k v

/-- Every listed key lies above `b`, keys rise strictly and no entry equals the unlisted value. -/
def KMap.wfFrom {α : Type} [DecidableEq α] (d : Nat → α) : Nat → KMap α → Bool
  | _, [] => true
  | b, (k, v) :: t => decide (b ≤ k) && decide (v ≠ d k) && KMap.wfFrom d (k + 1) t

/-- The canonical form. -/
def KMap.wf {α : Type} [DecidableEq α] (d : Nat → α) (m : KMap α) : Bool := KMap.wfFrom d 0 m

/-- Apply a function to the value at a key. -/
def KMap.modify {α : Type} [DecidableEq α] (d : Nat → α) (m : KMap α) (k : Nat) (f : α → α) : KMap α :=
  KMap.set d m k (f (KMap.get d m k))

/-- Forget every entry whose key lies in `[lo, hi)`. -/
def KMap.drop {α : Type} (m : KMap α) (lo hi : Nat) : KMap α :=
  m.filter (fun e => !(decide (lo ≤ e.1) && decide (e.1 < hi)))

/-- Forget every entry whose key satisfies `p`. -/
def KMap.erase {α : Type} (m : KMap α) (p : Nat → Bool) : KMap α := m.filter (fun e => !(p e.1))

end Sys2Proof.Machine
end

