-- ==== Sys2Proof/Machine/Types.lean ====
section
/-! DEFINITION. The pieces of the machine's state, block by block, as plain data. What a register of the control space
shows lives in the register file (State.regs) or is computed from these records when the register is read; each record
holds what the spec gives the block besides its registers. -/

namespace Sys2Proof.Machine

/-! ## Tiles, seals, check-value units (chapter 01) -/

/-- R16: the tile header, field by field. -/
structure TileHdr where
  magic : Nat := 0xA7
  flags : Nat := 0
  stream : Nat := 0
  frame : Nat := 0
  seq : Nat := 0
  col : Nat := 0
  row : Nat := 0
  format : Nat := 0
  len16 : Nat := 0
  capSec : Nat := 0
  capNs : Nat := 0
  crc : Nat := 0
  deriving DecidableEq, Repr

/-- A tile: its header and its payload bytes (R13). -/
structure Tile where
  hdr : TileHdr := {}
  payload : List Byte := []
  deriving DecidableEq, Repr

/-- R524: what a SUBSTITUTE checking point expects next on its edge. -/
structure Expect where
  seq : Nat := 0
  frame : Nat := 0
  col : Nat := 0
  row : Nat := 0
  deriving DecidableEq, Repr

/-- What a checking point keeps for one edge, by queue ID (R29, R30, R524). The halted mark itself is in the queue
descriptor. (DESIGN CHOICE, log entry 134) -/
structure EdgeSeal where
  /-- SEAL_HALT_CLR was written; the edge drops until the next FRAME_START tile (R30). -/
  resuming : Bool := false
  expect : Option Expect := none
  /-- Capture seconds, nanoseconds and the TIME_HOLDOVER flag of the last tile that passed (R29). -/
  lastCap : Option (Nat × Nat × Nat) := none
  /-- R29: the substitution store, keyed by ROW × 65,536 + COL. -/
  store : KMap (Option Tile) := []
  deriving DecidableEq, Repr

/-- A write waiting in or entering a check-value unit (R40, R42). -/
inductive CkvItem where
  | bytes (b : List Byte)
  | start (alg fold : Nat)
  deriving DecidableEq, Repr

/-- R38 to R43: one check-value unit besides its registers: the algorithm in use, the bytes being consumed and the one
buffered write. -/
structure CkvUnit where
  alg : Nat := 0
  cur : List Byte := []
  buf : Option CkvItem := none
  deriving DecidableEq, Repr

/-! ## Structure images (chapter 02) -/

/-- R50: a node record, with the bytes of its parameter block. -/
structure Node where
  id : Nat := 0
  kind : Nat := 0
  prio : Nat := 0
  inPorts : Nat := 0
  outPorts : Nat := 0
  stream : Nat := 0
  op : Nat := 0
  pixfmt : Nat := 0
  res : Nat := 0
  tref : List Nat := []
  paramOff : Nat := 0
  paramLen : Nat := 0
  params : List Byte := []
  deriving DecidableEq, Repr

/-- R53: an edge record. -/
structure Edge where
  qid : Nat := 0
  prod : Nat := 0
  prodPort : Nat := 0
  consPort : Nat := 0
  cons : Nat := 0
  stream : Nat := 0
  format : Nat := 0
  entries : Nat := 0
  ringBuf : Nat := 0
  substBuf : Nat := 0
  policy : Nat := 0
  recording : Bool := false
  fill : Nat := 0
  deriving DecidableEq, Repr

/-- R56: a buffer record. -/
structure Buf where
  id : Nat := 0
  region : Nat := 0
  purpose : Nat := 0
  base : Nat := 0
  size : Nat := 0
  space : Nat := 0
  vbase : Nat := 0
  deriving DecidableEq, Repr

/-- R59: an island record. -/
structure Isl where
  id : Nat := 0
  keep : Bool := false
  idle : Nat := 0
  deriving DecidableEq, Repr

/-- R61: a timebase record. -/
structure Timebase where
  id : Nat := 0
  kind : Nat := 0
  source : Nat := 0
  period : Nat := 0
  phase : Nat := 0
  deriving DecidableEq, Repr

/-- R63: a table, by its header and the place of its body in memory (consumers read tables directly from the image). -/
structure Table where
  id : Nat := 0
  kind : Nat := 0
  p0 : Nat := 0
  p1 : Nat := 0
  bodyLen : Nat := 0
  addr : Nat := 0
  deriving DecidableEq, Repr

/-- An image in a configuration plane. -/
structure Image where
  addr : Nat := 0
  len : Nat := 0
  id : Nat := 0
  tableOnly : Bool := false
  nodes : List Node := []
  edges : List Edge := []
  bufs : List Buf := []
  isls : List Isl := []
  tbs : List Timebase := []
  tables : List Table := []
  deriving DecidableEq, Repr

/-- R81: the armed epoch: mode 0 IMMEDIATE, 1 AT, 2 NEXT; timebase; the epoch number of mode AT. -/
structure Arm where
  mode : Nat := 0
  tb : Nat := 0
  target : Nat := 0
  /-- R82 to R84: the swap takes the next epoch of its timebase: its target had passed, it was carried, or the source was lost. -/
  next : Bool := false
  deriving DecidableEq, Repr

/-- The STR block besides its registers. -/
structure StrState where
  active : Option Image := none
  /-- The image in the shadow plane: address and length taken at LOAD, and its records once validation passed. -/
  shadow : Option Image := none
  /-- Validation of the shadow image has passed. -/
  validated : Bool := false
  armed : Option Arm := none
  /-- Last epoch number of each timebase, none before its first. -/
  epochs : KMap (Option Nat) := []
  /-- R84: timebases whose source is lost. -/
  lostTbs : List Nat := []
  /-- R90: the tables in use before the swap, for the nodes that have not switched yet. -/
  oldTables : List Table := []
  retiring : List Nat := []
  forceRetire : Bool := false
  deriving DecidableEq, Repr

/-! ## Queues and tasks (chapter 03) -/

/-- R97: a queue descriptor, and the ring indices that are complete, popped or claimed out of order (R101, R105). -/
structure Queue where
  state : Nat := 0
  halted : Bool := false
  recording : Bool := false
  policy : Nat := 0
  owned : Bool := false
  srcOmit : Bool := false
  entries : Nat := 0
  head : Nat := 0
  count : Nat := 0
  reserved : Nat := 0
  need : Nat := 0
  room : Nat := 0
  base : Nat := 0
  stride : Nat := 0
  notify : Nat := 0
  highWater : Nat := 0
  claimed : Nat := 0
  /-- Ring indices of reserved entries already complete (R101). -/
  done : List Nat := []
  /-- Ring indices of committed entries popped but not yet passed by HEAD (R105). -/
  popped : List Nat := []
  /-- Ring indices of committed entries claimed by tasks (R105, R112). -/
  claims : List Nat := []
  deriving DecidableEq, Repr

/-- R100: a ring entry. -/
structure RingEntry where
  addr : Nat := 0
  eflags : Nat := 0
  len16 : Nat := 0
  seq : Nat := 0
  pushTime : Nat := 0
  deriving DecidableEq, Repr

/-- A granted reservation of one ring entry for a requester that is not a task (R103). -/
structure Grant where
  mesh : Nat := 0
  qid : Nat := 0
  idx : Nat := 0
  seq : Nat := 0
  deriving DecidableEq, Repr

/-- The HQ block besides its registers. -/
structure HqState where
  queues : KMap Queue := []
  /-- Sequence and frame counters of each stream ID (chapter 01, R20, R22). -/
  seqs : KMap Nat := []
  frames : KMap Nat := []
  /-- R103: reservations waiting for free room, in request order within a queue. -/
  waiting : List ResReq := []
  /-- R104, R173: puts of engines that wait for room. -/
  puts : List ResReq := []
  grants : List Grant := []
  deriving DecidableEq, Repr

/-- R179: a kernel descriptor. -/
structure Kernel where
  id : Nat := 0
  kflags : Nat := 0
  maxTasks : Nat := 0
  inPorts : Nat := 0
  outPorts : Nat := 0
  codeAddr : Nat := 0
  codeLen : Nat := 0
  entry : Nat := 0
  lmSize : Nat := 0
  argLm : Nat := 0
  need : List Nat := []
  room : List Nat := []
  deriving DecidableEq, Repr

/-- R114: task states; DONE frees the slot. -/
inductive TState where
  | ready | waking | running | preempted | faulted
  deriving DecidableEq, Repr

/-- An input entry claimed by a task (R112): port, queue, ring index, whether a TGET has taken it. -/
structure Claim where
  port : Nat := 0
  qid : Nat := 0
  idx : Nat := 0
  gotten : Bool := false
  deriving DecidableEq, Repr

/-- One reserved output tile of a task: port, sequence number and its entry on every queue of the port (R103). -/
structure OutRes where
  port : Nat := 0
  seq : Nat := 0
  ents : List (Nat × Nat) := []
  done : Bool := false
  /-- Copies whose edge was removed at an epoch (R89). -/
  lost : Nat := 0
  deriving DecidableEq, Repr

/-- A task (R111 to R123). -/
structure Task where
  node : Nat := 0
  /-- The node's record and its kernel as the task was created; they stay with a task whose node is removed (R89). -/
  nd : Node := {}
  kern : Kernel := {}
  level : Nat := 0
  state : TState := .ready
  /-- Cluster 0–15 whose list holds the task; 16 for the mover list (R115). -/
  cluster : Nat := 0
  /-- Engine 0–127, 0x80 + mover, 0xFF if never dispatched (R123). -/
  engine : Nat := 0xFF
  claims : List Claim := []
  outs : List OutRes := []
  frame : Nat := 0
  firstFs : Bool := false
  /-- REF cycle at which the task became READY, and the order in which it did. -/
  readyAt : Nat := 0
  stamp : Nat := 0
  dispatchStamp : Nat := 0
  /-- R123: WAIT of the completion record, in fclk cycles. -/
  wait : Nat := 0
  forced : Bool := false
  /-- R167: 0 task area, 1 urgent area, 2 both. -/
  area : Nat := 0
  /-- The context slot that holds a stopped task. -/
  ctx : Option Nat := none
  /-- The task slot this task preempted (R118). -/
  preempted : Option Nat := none
  stopStamp : Nat := 0
  resolved : Bool := false
  /-- R90: the tables the task uses. -/
  tables : List Table := []
  /-- R173: FRAME, CAP_SEC, CAP_NS and TIME_HOLDOVER of the last tile gotten, by input port. -/
  lastGot : KMap (Option TileHdr) := []
  /-- The tile a library kernel has gotten and still has to work on (R222); whether it has worked on one. -/
  input : Option Tile := none
  worked : Bool := false
  /-- R222, R237: the output tiles a library kernel has still to put, and the status it will end with. -/
  outTiles : List Tile := []
  opStatus : Nat := 0
  deriving DecidableEq, Repr

/-- R118: a preemption in progress on a cluster. -/
structure Preempt where
  waiting : Nat := 0
  victim : Nat := 0
  ctx : Nat := 0
  deriving DecidableEq, Repr

/-- The SCH block besides its registers. -/
structure SchState where
  tasks : KMap (Option Task) := []
  clock : Nat := 0
  preempts : KMap (Option Preempt) := []
  /-- R113: nodes whose wait for a slot has been counted. -/
  stalled : List Nat := []
  winStart : Nat := 0
  /-- R438 step 3: no task is created any more. -/
  stopped : Bool := false
  deriving DecidableEq, Repr

/-! ## Translation, faults, movers, QDR (chapter 04) -/

/-- R143: a translation space. State 0 FREE, 1 DISABLED, 2 ENABLED. -/
structure Space where
  state : Nat := 0
  root : Nat := 0
  deriving DecidableEq, Repr

/-- R146: one cached translation: space, the 64 KiB page number, its leaf entry and the level it was found at. -/
structure TlbEntry where
  space : Nat := 0
  page : Nat := 0
  pte : Nat := 0
  level : Nat := 3
  deriving DecidableEq, Repr

/-- An invalidation in progress (R147); `disable` marks the one a DISABLE runs. -/
structure Inval where
  scope : Nat := 0
  space : Nat := 0
  page : Nat := 0
  pages : Nat := 0
  disable : Bool := false
  deriving DecidableEq, Repr

/-- R151: a fault record. -/
structure FaultRec where
  kind : Nat := 0
  access : Nat := 0
  requester : Nat := 0
  space : Nat := 0
  rclass : Nat := 0
  context : Nat := 0xFFFF
  va : Nat := 0
  node : Nat := 0
  task : Nat := 0xFFFF
  pte : Nat := 0
  frame : Nat := 0
  seq : Nat := 0
  deriving DecidableEq, Repr

/-- The register state of an engine that a context slot saves (R183). -/
structure EngRegs where
  pc : Nat := 0
  x : List Word := []
  fcsr : Nat := 0
  f : List Word := []
  vl : Nat := 0
  vtype : Nat := 0
  vstart : Nat := 0
  vcsr : Nat := 0
  v : List (BitVec 512) := []
  top : Nat := 0
  tport : Nat := 0
  tunits : Nat := 0
  taddr : Nat := 0
  gets : KMap Nat := []
  puts : KMap Nat := []
  area : Nat := 0
  deriving DecidableEq, Repr

/-- R157: a context slot. -/
structure Ctx where
  state : Nat := 0
  rclass : Nat := 0
  requester : Nat := 0
  task : Nat := 0xFFFF
  node : Nat := 0
  seq : Nat := 0
  space : Nat := 0
  sealState : Nat := 0
  restart : Nat := 0
  sealAcc : Nat := 0
  sealSeq : Nat := 0
  sealBytes : Nat := 0
  regs : EngRegs := {}
  work : List Byte := []
  /-- RETRY was given and the work waits for its engine or mover (R154, R155). -/
  resolved : Bool := false
  stamp : Nat := 0
  deriving DecidableEq, Repr

/-- A requester that waits in place (R151 HELD, R152). -/
structure Held where
  fr : FaultRec := {}
  /-- What the requester saves once it may (R152). -/
  save : Ctx := {}
  /-- The record has been written; while clear it waits for room in the fault queue. -/
  written : Bool := true
  deriving DecidableEq, Repr

/-- The XLT block besides its registers. -/
structure XltState where
  spaces : KMap Space := []
  tlb : List TlbEntry := []
  inval : Option Inval := none
  /-- The last FAULT_SEQ given. -/
  faultSeq : Nat := 0
  held : List Held := []
  ctxs : KMap Ctx := []
  deriving DecidableEq, Repr

/-- R149: a descriptor. -/
structure Desc where
  op : Nat := 0
  dflags : Nat := 0
  srcSpace : Nat := 0
  dstSpace : Nat := 0
  length : Nat := 0
  src : Nat := 0
  dst : Nat := 0
  fill : Nat := 0
  tag : Nat := 0
  deriving DecidableEq, Repr

/-- A mover's ring descriptor in progress (R150, R155). -/
structure MoverRun where
  desc : Desc := {}
  bytes : List Byte := []
  offset : Nat := 0
  status : Nat := 0
  finished : Bool := false
  faulted : Bool := false
  /-- R156: the partly accumulated seal over the first `offset` bytes of a TILE with CHECK. -/
  acc : Nat := 0
  deriving DecidableEq, Repr

/-- A DMA mover besides its registers; `subs` counts the descriptors submitted and not yet completed (R159). -/
structure Mover where
  subs : Nat := 0
  run : Option MoverRun := none
  task : Option Nat := none
  /-- R156: where the task in progress goes on, and its partly accumulated seal over the bytes before that. -/
  off : Nat := 0
  acc : Nat := 0
  deriving DecidableEq, Repr

/-- The QDR controller besides its registers. -/
structure QdrState where
  /-- R137, R160: the population in force since the last training: channels, and devices per channel. -/
  chans : Nat := 0
  devs : Nat := 0
  /-- R162: the channels that do not train on this board, bit c for channel c. -/
  dead : Nat := 0
  /-- R139: bursts stored with inverted check bits, by physical address divided by 16. -/
  poisoned : List Nat := []
  deriving DecidableEq, Repr

/-! ## Engines (chapter 05) -/

/-- An engine: the architected registers of R163, the 64-bit counters of R184, the running task, the tasks stopped on
it and the busy time of the load window (R127). -/
structure Engine where
  regs : EngRegs := {}
  mcycle : Nat := 0
  minstret : Nat := 0
  vec : Nat := 0
  tstall : Nat := 0
  mstall : Nat := 0
  running : Option Nat := none
  /-- A tile instruction that waits: a TPUT for room or a QWAIT for entries (R177). -/
  waiting : Bool := false
  /-- R156: the partly accumulated seal of a tile instruction that stopped, over the units it completed. -/
  acc : Nat := 0
  /-- Preemption has been requested of the running task (R119), and GRACE has expired inside an instruction that must complete
  first (R177). -/
  stopReq : Bool := false
  graceOver : Bool := false
  busyFrom : Nat := 0
  winBusy : Nat := 0
  winTasks : Nat := 0
  deriving DecidableEq, Repr

/-- R237: what an APRON_STORE node keeps of the frame it is storing: the frame, the last index stored, the indices
stored and the tokens put so far; `done` after FRAME_END; `block` is the control block as the node last wrote it (R236).
(DESIGN CHOICE, log entry 136) -/
structure Apron where
  frame : Nat := 0
  last : Nat := 0
  stored : List Nat := []
  tokens : List Nat := []
  done : Bool := false
  block : List Byte := []
  deriving DecidableEq, Repr

/-- A library load or kernel-table install in progress (R185). -/
inductive EngOp where
  | install (addr count : Nat)
  | load (addr len : Nat)
  deriving DecidableEq, Repr

/-- The ENG block besides its registers. -/
structure EngState where
  engines : KMap Engine := []
  ktab : List Kernel := []
  lib : List Kernel := []
  op : Option EngOp := none
  /-- R236, R237: the control block of each APRON_STORE node, by NODE_ID. -/
  aprons : KMap (Option Apron) := []
  deriving DecidableEq, Repr

/-! ## Host attachment (chapter 15) -/

/-- A host-side DMA channel (R397 to R400). -/
structure Chan where
  node : Option Nat := none
  out : Bool := false
  qid : Nat := 0
  space : Nat := 0
  doneVec : Nat := 0
  slots : Nat := 0
  base : Nat := 0
  cplBase : Nat := 0
  stride : Nat := 0
  /-- HOST_OUT: tiles delivered; HOST_IN: submission entries handled. -/
  delivered : Nat := 0
  /-- HOST_OUT: slots host software holds; HOST_IN: entries submitted and not handled. -/
  outstanding : Nat := 0
  returned : Nat := 0
  /-- The tile being moved: the bytes done, its FRAME, and the entries reserved for it (R151, R156, R399). -/
  off : Nat := 0
  frame : Nat := 0
  ents : List (Nat × Nat) := []
  deriving DecidableEq, Repr

/-- An I²C transfer as it last ended (R402). -/
structure I2cRec where
  addr : Nat := 0
  wrote : List Byte := []
  read : List Byte := []
  status : Nat := 0
  deriving DecidableEq, Repr

/-- The HIF block besides its registers. -/
structure HifState where
  chans : KMap Chan := []
  /-- Bus Master Enable, MSI-X Enable and Function Mask of the function's configuration space (R391, R392, R396). -/
  bme : Bool := false
  msixEn : Bool := false
  msixMask : Bool := false
  hostMem : KMap Byte := []
  /-- R401: a flash command that runs: the data bytes still to move, and the write direction; the FIFO; bytes read from the
  flash that have not reached the FIFO. -/
  xspiRun : Option (Nat × Bool) := none
  xspiFifo : List Byte := []
  xspiIn : List Byte := []
  /-- The last command's words (CMD, ADDR) and the bytes it wrote to the flash. -/
  xspiLast : Word × Word × List Byte := (0, 0, [])
  i2c : KMap I2cRec := []
  uartRx : KMap (List Byte) := []
  uartDropped : KMap Nat := []
  /-- Channels given at preparation (R397): channel and NODE_ID. -/
  prep : List (Nat × Nat) := []
  deriving DecidableEq, Repr

/-! ## Control units (chapter 16) -/

/-- A switch-over in progress: its kind (CUX_OWNER.LAST_KIND), outgoing and incoming unit (0 Phobos, 1 Deimos). -/
structure Gap where
  kind : Nat := 0
  outgoing : Option Nat := none
  incoming : Nat := 0
  start : Nat := 0
  deriving DecidableEq, Repr

/-- A doorbell held during the gap (R419). -/
structure HeldDb where
  src : Agent := .host
  off : Nat := 0
  val : Word := 0
  deriving DecidableEq, Repr

/-- R406: a core of a control unit: the integer and floating-point registers, the pc, the mode (0 user, 1 supervisor, 3 machine), the
control and status registers by number, and the reservation of LR (an offset in local SRAM and a length). -/
structure UnitHart where
  x : List (BitVec 64) := []
  f : List (BitVec 64) := []
  pc : Nat := 0
  mode : Nat := 3
  csrs : KMap Nat := []
  resv : Option (Nat × Nat) := none
  deriving DecidableEq, Repr

/-- R409: a unit's PLIC: the priority of each source, the enables of each context (word `w` of context `c` at 4 × c + w), the threshold
of each context, the sources that are pending, and those claimed and not completed. (PRESUMED, log entry 149) -/
structure PlicState where
  prio : KMap Nat := []
  enable : KMap Nat := []
  threshold : KMap Nat := []
  pending : List Nat := []
  inService : List Nat := []
  deriving DecidableEq, Repr

/-- What the CUX keeps for one unit besides its registers. -/
structure UnitState where
  /-- The unit's command port accepts writes. -/
  portOpen : Bool := false
  /-- A record has been lost since the last RESYNC record delivered (R415). -/
  lost : Bool := false
  /-- The unit's local SRAM, and how often its contents have been lost (R453). -/
  sram : KMap Byte := []
  sramGen : Nat := 0
  /-- R471: harts halted by the debug module. -/
  halted : List Nat := []
  /-- R417: REF cycle of the last write to CUX_U_KICK or of the watchdog's start. -/
  kicked : Nat := 0
  /-- The condition of the recorded fault cause still holds (R417). -/
  causeHolds : Bool := false
  /-- R464: where the unit's harts start, by the ENTRY of its firmware. -/
  entry : Nat := 0
  /-- R406, R464: the unit's four cores, once it is released. -/
  harts : List UnitHart := []
  /-- R409: the unit's PLIC. -/
  plic : PlicState := {}
  /-- R407: the unit's ACLINT: the software interrupt bit and the timer compare value of each core. -/
  msip : KMap Nat := []
  mtimecmp : KMap Nat := []
  deriving DecidableEq, Repr

/-- The CUX block besides its registers. -/
structure CuxState where
  units : KMap UnitState := []
  gap : Option Gap := none
  held : List HeldDb := []
  /-- Writers stalled on the full hold buffer (R419), in arrival order. -/
  stalled : List HeldDb := []
  /-- The outgoing unit of an open double-acting window, and the cycle it opened (R421). -/
  double : Option (Nat × Nat) := none
  /-- The unit that started a running drill (R423). -/
  drill : Option Nat := none
  /-- R406: the REF cycle of the last cold reset, from which mtime counts. -/
  coldRef : Nat := 0
  deriving DecidableEq, Repr

end Sys2Proof.Machine
end

