-- ==== Sys2Proof/Machine/Types2.lean ====
section
/-! DEFINITION. More pieces of the machine's state, block by block, as plain data: time, the sensor link, recording,
encoding, composition, network, audio, maintenance and update. -/

namespace Sys2Proof.Machine

/-! ## Time (chapter 13) -/

/-- A foreign master as its Announce messages describe it (R365). -/
structure Master where
  id : Nat := 0
  port : Nat := 0
  msg : AnnounceData := {}
  count : Nat := 0
  lastRef : Nat := 0
  firstRef : Nat := 0
  deriving DecidableEq, Repr

/-- R359 to R366: the PTP block besides its registers. OFFSET is in units of 2^−32 ns. -/
structure PtpState where
  dawnRef : Nat := 0
  offset : Int := 0
  rate : Nat := 0x100000000
  stepped : Bool := false
  /-- R362: the integrator, in ppb. -/
  integ : Rat := 0
  good : Nat := 0
  bad : Nat := 0
  masters : List Master := []
  selected : Option Nat := none
  /-- The Sync that is being measured: sequence number, origin time, correction and receive timestamp, in ns. -/
  sync : Option (Nat × Int × Int) := none
  /-- t1 and t2 of the last complete Sync. -/
  t12 : Option (Int × Int) := none
  /-- The Delay_Req sent: sequence number and t3. -/
  t3 : Option (Nat × Int) := none
  seqSent : Nat := 0
  /-- Messages sent, the last one: type, sequence number and time in ns. -/
  lastSent : Option (Nat × Nat × Int) := none
  /-- R366: the last PPS edge and the window of the monitor. -/
  ppsLast : Option Int := none
  ppsPeriods : Nat := 0
  ppsSum : Int := 0
  ppsGlitches : Nat := 0
  /-- R367: the timestamp taken at Dusk, in 2^−32 ns. -/
  duskT : Int := 0
  deriving DecidableEq, Repr

/-- R369, R370: a timed pulse output: pulse in progress and the index of the next periodic start. -/
structure TpoState where
  active : Bool := false
  next : Nat := 0
  fired : Bool := false
  deriving DecidableEq, Repr

/-! ## The sensor link (chapter 06) -/

/-- R200: an accepted line segment. -/
structure Seg where
  line : Nat := 0
  x : Nat := 0
  samples : List Nat := []
  deriving DecidableEq, Repr

/-- R199 to R205: a frame the intake is assembling or still has to emit. -/
structure IFrame where
  num : Nat := 0
  fcnt : Nat := 0
  capSec : Nat := 0
  capNs : Nat := 0
  hold : Bool := false
  segs : List Seg := []
  /-- By lane group: the last line accepted. -/
  lastLine : KMap (Option Nat) := []
  /-- Groups that sent FE, and groups that left LINK_UP during the frame. -/
  fe : List Nat := []
  left : List Nat := []
  nextRow : Nat := 0
  /-- R201: the next tile of that row to leave. -/
  nextCol : Nat := 0
  complete : Bool := false
  /-- R90: the tables its tiles are made by. -/
  tables : List Table := []
  /-- R205: record bytes not yet in a META tile, and the tiles put. -/
  metaBytes : List Byte := []
  metaCol : Nat := 0
  deriving DecidableEq, Repr

/-- A SENSOR_INTAKE node: its frames, oldest first, and the next frame number. -/
structure Intake where
  frames : List IFrame := []
  nextNum : Nat := 0
  fcnt : Option Nat := none
  /-- R107, R205: META tiles that wait for room. -/
  metaOut : List Tile := []
  deriving DecidableEq, Repr

/-- R209: where a sequencer stands in its entry. -/
inductive SeqPhase where
  | trigger | ready | unsent | sent | fs | acted
  deriving DecidableEq, Repr

/-- R190: the receiver of a lane: its running disparity (`true` when positive; none before the first code group), the errors among
its last 64 code groups, newest first, and its last code group. -/
structure LaneRx where
  disp : Option Bool := none
  hist : List Bool := []
  prev : Option Nat := none
  deriving DecidableEq, Repr

/-- R213: the TEST packets a near loopback still has to return: the PSEQ of the next, how many, and their payload bytes. -/
structure SlkEcho where
  next : Nat := 0
  left : Nat := 0
  bytes : Nat := 0
  deriving DecidableEq, Repr

/-- A lane group besides its registers. -/
structure SlkGroup where
  /-- The group accepts picture packets: an FS has been received since LINK_UP (R193). -/
  seenFs : Bool := false
  pseq : Option Nat := none
  txSeq : Nat := 0
  /-- The last packet sent, and its bytes by transmitting lane (R191). -/
  lastTx : List Byte := []
  laneTx : List (Nat × List Byte) := []
  /-- R190: the receivers, by lane of the group. -/
  lanes : KMap LaneRx := []
  skews : Option (List Nat) := none
  failSaid : Bool := false
  tag : Nat := 0
  tagOut : Option Nat := none
  table : List Byte := []
  phase : SeqPhase := .ready
  stopping : Bool := false
  rspOk : Bool := false
  /-- R212: a comparison in progress, `true` when it releases the spare, and its position. -/
  spare : Option (Bool × Nat) := none
  /-- R212: the position moved onto the spare. -/
  spareFor : Option Nat := none
  /-- R213: packets of the test run in progress, and those returned. -/
  test : Option (Nat × Nat) := none
  echo : SlkEcho := {}
  glitches : Nat := 0
  deriving DecidableEq, Repr

/-! ## Recording (chapter 08) -/

/-- R259: a gap record still to be queued. -/
structure MagGap where
  first : Nat := 0
  frames : Nat := 0
  sec : Nat := 0
  ns : Nat := 0
  tiles : Nat := 0
  reason : Nat := 1
  deriving DecidableEq, Repr

/-- R252, R253: an admitted frame in the delay ring: its blocks, the bytes they keep for the directory (`d0`), each tile's
offset and recorded length, and the gap records that go before it. -/
structure MagFrame where
  port : Nat := 0
  stream : Nat := 0
  num : Nat := 0
  maxTiles : Nat := 0
  /-- The maximum payload of the stream in 16-byte units. -/
  unit : Nat := 0
  d0 : Nat := 0
  blocks : List Nat := []
  tiles : List (Nat × Nat) := []
  dataLen : Nat := 0
  truncated : Bool := false
  overlong : Bool := false
  sec : Nat := 0
  ns : Nat := 0
  gaps : List MagGap := []
  deriving DecidableEq, Repr

/-- What the writer keeps for one input port. -/
structure MagIn where
  cur : Option MagFrame := none
  omitting : Bool := false
  gaps : List MagGap := []
  streamQueued : Bool := false
  first : Nat := 0
  last : Nat := 0
  recorded : Nat := 0
  omitted : Nat := 0
  mism : Nat := 0
  deriving DecidableEq, Repr

/-- R245, R256: an NVMe command: a Flush, or a Write of `len` bytes of record `seq` from offset `off` to block `lba`; `head`
marks the blocks that hold the record's first META_LEN bytes. -/
structure MagCmd where
  flush : Bool := false
  seq : Nat := 0
  off : Nat := 0
  len : Nat := 0
  lba : Nat := 0
  head : Bool := false
  retried : Bool := false
  deriving DecidableEq, Repr

/-- A record in the delay ring (a frame) or held by the writer, and the ports that must still acknowledge it. -/
structure MagRec where
  seq : Nat := 0
  rtype : Nat := 0
  len : Nat := 0
  metaLen : Nat := 0
  d0 : Nat := 0
  dataOff : Nat := 0
  blocks : List Nat := []
  content : List Byte := []
  need : List Nat := []
  /-- The blocks the record holds. -/
  kept : List Nat := []
  /-- The frame a frame record was built from. -/
  frame : Option MagFrame := none
  deriving DecidableEq, Repr

/-- A magazine port besides its registers. -/
structure MagPort where
  /-- The port was lost and still has to leave the take (R264). -/
  lost : Bool := false
  sqTail : Nat := 0
  cqHead : Nat := 0
  phase : Bool := true
  todo : List MagCmd := []
  out : KMap (Option MagCmd) := []
  /-- Blocks used of the current extent. -/
  extUsed : Nat := 0
  lastSeq : Nat := 0
  bytesAcked : Nat := 0
  sinceFlush : Nat := 0
  /-- R246: the records of which a write failed for good: they are not acknowledged here. -/
  bad : List Nat := []
  deriving DecidableEq, Repr

/-- The MAG block besides its registers. -/
structure MagState where
  ports : KMap MagPort := []
  ins : KMap MagIn := []
  /-- Complete frames that have not been drained, oldest first. -/
  done : List MagFrame := []
  recs : List MagRec := []
  /-- Delay-ring blocks in use. -/
  used : List Nat := []
  ringBase : Nat := 0
  ringBlocks : Nat := 0
  streams : List Nat := []
  takePorts : List Nat := []
  mode : Nat := 0
  lostPorts : List Nat := []
  reason : Nat := 0
  aborting : Bool := false
  user : List Byte := []
  imageId : Nat := 0
  /-- R261: the REC_SEQ the closing records took. -/
  closeSeq : Option Nat := none
  deriving DecidableEq, Repr

/-! ## Encoding and rate control (chapters 09 and 10) -/

/-- R272: an input frame in an encoder's input store: the positions received, the next position in raster order, and the
first row slot it uses. -/
structure EncFrame where
  num : Nat := 0
  sec : Nat := 0
  ns : Nat := 0
  hold : Bool := false
  slot0 : Nat := 0
  got : List Nat := []
  next : Nat := 0
  ended : Bool := false
  /-- R90: the tables its picture is coded by. -/
  tables : List Table := []
  deriving DecidableEq, Repr

/-- R293: the hrd_parameters of a stream, as they are written. -/
structure HrdParams where
  bitRateValue : Nat := 0
  cpbSizeValue : Nat := 0
  cbr : Bool := false
  nalPresent : Bool := true
  vclPresent : Bool := false
  subPic : Bool := false
  cpbCount : Nat := 1
  bitRateScale : Nat := 0
  cpbSizeScale : Nat := 0
  delayBits : Nat := 24
  fixedRate : Bool := true
  deriving DecidableEq, Repr

/-- R270, R271, R283: what a stream's SPS and its VUI say. -/
structure SpsInfo where
  profile : Nat := 0
  level : Nat := 0
  tier : Nat := 0
  width : Nat := 0
  height : Nat := 0
  chroma : Nat := 0
  depth : Nat := 0
  maxReorder : Nat := 0
  amp : Bool := false
  strongIntra : Bool := true
  temporalMvp : Bool := true
  sao : Bool := false
  tick : Nat := 0
  timeScale : Nat := 0
  fullRange : Bool := false
  colour : Option (Nat × Nat × Nat) := none
  chromaLoc : Option Nat := none
  hrd : Option HrdParams := none
  deriving DecidableEq, Repr

/-- R270, R275: what a stream's PPS says. -/
structure PpsInfo where
  signHiding : Bool := true
  weighted : Bool := false
  transformSkip : Bool := false
  bypass : Bool := false
  /-- Tile columns and rows, uniformly spaced columns, and loop_filter_across_tiles_enabled_flag. -/
  tileCols : Nat := 1
  tileRows : Nat := 1
  uniformCols : Bool := true
  loopAcross : Bool := false
  wpp : Bool := false
  deriving DecidableEq, Repr

/-- R278, R283, R293: a NAL unit or SEI message that precedes the slices of an access unit, by what it says. -/
inductive Nal where
  | aud
  | vps
  | sps (x : SpsInfo)
  | pps (x : PpsInfo)
  | bufferingPeriod (initialDelay offset : Nat)
  | picTiming (removalMinus1 output : Nat)
  | recoveryPoint (pocCnt : Nat) (exactMatch brokenLink : Bool)
  | timeCode (code : Nat)
  deriving DecidableEq, Repr

/-- R298, R300, R303: the coding of one tile column of a picture: its next CTU row, the slice bits spent, floor mode, and
the last row of nonzero weight as (QP, spend, target). -/
structure EncCol where
  row : Nat := 0
  spent : Nat := 0
  floor : Bool := false
  /-- R156: the rest of the picture is coded as floor CTUs after an ABORT. -/
  rest : Bool := false
  chain : Option (Nat × Nat × Int) := none
  qps : List Nat := []
  deriving DecidableEq, Repr

/-- R296: a picture being coded. T, G and A are in bits. -/
structure EncPic where
  key : Bool := false
  idr : Bool := false
  allIntra : Bool := false
  /-- R277: the slots it is marked into, each with its MARK_SEQ, and the slot it is coded from alone. -/
  marks : List (Nat × Nat) := []
  use : Option Nat := none
  /-- R271: its POC; R269: its picture store; R278: the CTU columns coded intra for the refresh, and those refreshed before. -/
  poc : Nat := 0
  store : Nat := 0
  intraCols : Option (Nat × Nat) := none
  /-- R283: what precedes its slices. -/
  nals : List Nal := []
  due : Int := 0
  qpI : Nat := 0
  qpP : Nat := 0
  qpMin : Nat := 0
  qpMax : Nat := 0
  ovh : Nat := 0
  /-- R291: N, by the target rate the picture started with (R304). -/
  nom : Rat := 0
  t : Rat := 0
  g : Rat := 0
  a : Rat := 0
  cols : List EncCol := []
  slices : KMap (Option (List Byte)) := []
  nextOut : Nat := 0
  chunks : Nat := 0
  pre : List Byte := []
  floorRow : Option Nat := none
  missing : Bool := false
  deriving DecidableEq, Repr

/-- A stream context (R268 to R305). F and D are in bits. -/
structure EncCtx where
  frames : List EncFrame := []
  nextSlot : Nat := 0
  pic : Option EncPic := none
  /-- R274: the picture after it, which a column begins while another still codes the one in progress. -/
  nxt : Option EncPic := none
  /-- R156: columns whose fault was aborted before their picture's first row. -/
  aborted : List Nat := []
  /-- The next picture is the first since the stream was enabled (R271). -/
  fresh : Bool := true
  lastNum : Option Nat := none
  sinceKey : Nat := 0
  /-- R271: the next POC; R278: the next picture of the refresh cycle; R293: picture intervals since the last buffering period. -/
  poc : Nat := 0
  gdr : Nat := 0
  sinceBp : Nat := 0
  keyReq : Bool := false
  marks : List (Nat × Nat) := []
  use : Option (Nat × Nat) := none
  /-- R277: the MARK_SEQ each long-term slot's occupant was marked with and its picture store; the stores of the short-term
  references, the newest first. -/
  lt : KMap (Option (Nat × Nat)) := []
  st : List Nat := []
  bitRate : Nat := 0
  cpb : Nat := 0
  f : Rat := 0
  d : Rat := 0
  /-- R299: mean row QP and slice bits of the last picture of the intra and of the inter class. -/
  intra : Option (Nat × Nat) := none
  inter : Option (Nat × Nat) := none
  /-- Chunks that wait for room, each with its picture's deadline. -/
  outq : List (Tile × Int) := []
  deriving DecidableEq, Repr

/-- R276: a core: the context it serves between switch points, and the one it served last. -/
structure EncCore where
  cur : Option Nat := none
  last : Option Nat := none
  deriving DecidableEq, Repr

/-- The ENC and RATE blocks besides their registers. -/
structure EncState where
  ctxs : KMap EncCtx := []
  cores : KMap EncCore := []
  deriving DecidableEq, Repr

/-- R285 to R287: a picture of the DPB: its place there, its POC, the coded video sequence it belongs to, its samples and the sequence's
sizes, whether it is a reference, whether it is needed for output and since how many pictures, whether it carries FILLED, and its
capture time. -/
structure DecPic where
  slot : Nat := 0
  poc : Int := 0
  cvs : Nat := 0
  planes : DecPlanes := {}
  seq : SeqInfo := {}
  ref : Bool := false
  wait : Bool := false
  latency : Nat := 0
  filled : Bool := false
  sec : Nat := 0
  ns : Nat := 0
  hold : Bool := false
  deriving DecidableEq, Repr

/-- The return decoder besides its registers. -/
structure DecState where
  started : Bool := false
  /-- The last IRAP picture is the one at which decoding started. -/
  startIrap : Bool := false
  supported : Bool := false
  sizeOk : Bool := false
  seq : SeqInfo := {}
  cvs : Nat := 0
  dpb : List DecPic := []
  /-- R286: pictures that bumping has output and whose tiles have not all left, the oldest first. -/
  out : List DecPic := []
  /-- R287: the most recent decoded picture in output order. -/
  newest : Option DecPic := none
  row : Nat := 0
  frame : Nat := 0
  /-- R287: the POC at which recovery happens, from a recovery-point SEI received after the error. -/
  recover : Option Int := none
  /-- A recovery-point SEI waits for its picture: its recovery_poc_cnt. -/
  recoverCnt : Option Int := none
  deriving DecidableEq, Repr

/-! ## Composition (chapter 11) -/

/-- R309: a frame buffer of a layer store: which of the three, its frame, and the positions tiles wrote. -/
structure CmpBuf where
  ix : Nat := 0
  /-- R90: the tables its tiles came by. -/
  tables : List Table := []
  frame : Nat := 0
  present : List Nat := []
  deriving DecidableEq, Repr

/-- R309: a layer store. -/
structure CmpStore where
  writing : Option CmpBuf := none
  newest : Option CmpBuf := none
  shown : Option CmpBuf := none
  deriving DecidableEq, Repr

/-- R321: a layer's configuration: the nine shadow registers, and the tables copied for it. -/
structure LayerCfg where
  ctrl : Word := 0
  srcPos : Word := 0
  srcSize : Word := 0
  dstPos : Word := 0
  dstSize : Word := 0
  coef : Word := 0
  matrix : Word := 0
  fence : Word := 0
  fill : Word := 0
  coefH : List Byte := []
  coefV : List Byte := []
  mat : List Byte := []
  deriving DecidableEq, Repr

/-- A layer slot: its store, its active configuration and its pending commit, `loaded` once the loads have finished. -/
structure CmpLayer where
  store : CmpStore := {}
  active : Option LayerCfg := none
  pend : Option LayerCfg := none
  loaded : Bool := false
  deriving DecidableEq, Repr

/-- A composition head: whether its timing runs, the boundary of the frame in progress, and the lines that ran short of
pixels, with the first missing column (R317). -/
structure CmpHead where
  running : Bool := false
  sec : Nat := 0
  ns : Nat := 0
  hold : Bool := false
  short : List (Nat × Nat) := []
  /-- FENCED at the last GO, and whether the commit has been late before. -/
  fenced : Bool := false
  wasLate : Bool := false
  formatSaid : Bool := false
  deriving DecidableEq, Repr

/-- R326: what a serialiser inserts in a frame: the four bytes of the ST 352 payload identifier, and the user data words of the
ST 12-2 time code; none where it inserts none. -/
structure SdiAnc where
  payload : List Byte := []
  tc : List Nat := []
  deriving DecidableEq, Repr

/-- The CMP and SDI blocks besides their registers: `anc` holds what each serialiser inserts in the frame in progress. -/
structure CmpState where
  layers : KMap CmpLayer := []
  heads : KMap CmpHead := []
  anc : KMap SdiAnc := []
  deriving DecidableEq, Repr

/-! ## Network (chapter 12) -/

/-- A frame in a class queue, without FCS; `pcrs` are the offsets of PCR fields that the MAC writes (R344), `ptp` the type and
sequence number of a PTP message whose transmission is stamped (R364). -/
structure NetFrame where
  bytes : List Byte := []
  pcrs : List Nat := []
  ptp : Option (Nat × Nat) := none
  deriving DecidableEq, Repr

/-- R348 to R350: an egress class: its queue, its credit in bits and its deficit in bytes. -/
structure NetClass where
  frames : List NetFrame := []
  credit : Rat := 0
  deficit : Nat := 0
  deriving DecidableEq, Repr

/-- A network port besides its registers. Times are in ns of REF. -/
structure NetPort where
  classes : KMap NetClass := []
  /-- Up to when the credits are counted, and the transmission in progress: its class and its end. -/
  clock : Rat := 0
  tx : Option (Nat × Rat) := none
  /-- The gates as they have stood since `clock` (R352). -/
  gates : Nat := 255
  /-- R348: the class the round visits, and whether that visit has added its quantum. -/
  round : Nat := 4
  added : Bool := false
  /-- R352: CHANGE of the oper list, in ns. -/
  operBase : Int := 0
  /-- R336: frames received, and where the next tile goes in the receive buffer. -/
  rxSeq : Nat := 0
  rxPos : Nat := 0
  /-- The last frame that passed the PCS. -/
  lastTx : List Byte := []
  deriving DecidableEq, Repr

/-- R342: a tile row in a band buffer: its row, the half of the buffer it uses, and the columns written. -/
structure SndBand where
  row : Nat := 0
  slot : Nat := 0
  cols : List Nat := []
  deriving DecidableEq, Repr

/-- R341, R342: a picture an ST2110_20 sender still has to send: packets sent, packets whose scheduled time has come, those of
them that wait for data, the rows complete so far, and the bands in the buffer. -/
structure SndFrame where
  num : Nat := 0
  /-- R90: the tables its packets are made by. -/
  tables : List Table := []
  sec : Nat := 0
  ns : Nat := 0
  sent : Nat := 0
  due : Nat := 0
  late : List Nat := []
  rows : Nat := 0
  bands : List SndBand := []
  missSaid : Bool := false
  deriving DecidableEq, Repr

/-- A packet a sender has built: what follows the RTP header, M, its RTP timestamp (none: the time at which it enters its class
queue), and the offsets of its PCR fields. -/
structure SndPkt where
  payload : List Byte := []
  marker : Bool := false
  ts : Option Nat := none
  pcrs : List Nat := []
  deriving DecidableEq, Repr

/-- A sender slot besides its registers. -/
structure Sender where
  frames : List SndFrame := []
  /-- Packets that wait for room in their classes. -/
  outq : List SndPkt := []
  /-- R343: the packet being built: its bytes, sample periods and timestamp; and the last tile's SEQ. -/
  acc : List Byte := []
  accN : Nat := 0
  accTs : Nat := 0
  lastSeq : Option Nat := none
  /-- R344: the access unit in progress, its bytes not yet in TS packets, and whether its first TS packet is still to come. -/
  inAu : Bool := false
  pes : List Byte := []
  first : Bool := false
  tsq : List (List Byte × Bool) := []
  ccPat : Nat := 0
  ccPmt : Nat := 0
  ccEs : Nat := 0
  lastPat : Option Int := none
  lastPcr : Option Int := none
  deriving DecidableEq, Repr

/-- The NET and TSN blocks besides their registers; `prep` holds the sender slots given at preparation (R338): slot, NODE_ID
and input port. -/
structure NetState where
  ports : KMap NetPort := []
  senders : KMap Sender := []
  prep : List (Nat × Nat × Nat) := []
  deriving DecidableEq, Repr

/-! ## Audio (chapter 14) -/

/-- R384: a transmit channel: muted or not, the request that waits for a zero crossing (its target) and for how many sample
periods, and the last sample. -/
structure AudChan where
  muted : Bool := true
  pend : Option Bool := none
  waited : Nat := 0
  prev : Nat := 0
  deriving DecidableEq, Repr

/-- An audio port besides its registers. -/
structure AudPort where
  /-- Sample periods run; the timestamp of the last one's frame-sync edge, and the index of the next in master mode. -/
  running : Bool := false
  cur : Int := 0
  next : Int := 0
  /-- R379: the phase error still to be slewed away, in ns. -/
  phase : Int := 0
  /-- R377: the receive tile in progress: its containers, sample periods and capture time; the next frame number. -/
  rx : List Byte := []
  rxN : Nat := 0
  rxAt : Int := 0
  rxHold : Bool := false
  rxFrame : Nat := 0
  /-- R377: complete receive tiles in the elastic buffer. -/
  rxOut : List Tile := []
  /-- The port has a transmit direction (R383, R388). -/
  tx : Bool := false
  /-- R382: samples taken, by presentation time, as one container per selected slot. -/
  samples : List (Int × List Nat) := []
  underrun : Bool := false
  chans : KMap AudChan := []
  zcSaid : Bool := false
  /-- R385: sample periods for which a slot pair remains non-audio, received and sent. -/
  naRx : KMap Nat := []
  naTx : KMap Nat := []
  /-- What DOUT carried in the last sample period, by slot. -/
  dout : List Nat := []
  deriving DecidableEq, Repr

/-! ## Power and clocks (chapter 17) -/

/-- The Keeper's day cycle, the telemetry and the clocks, besides the registers. -/
structure PwrState where
  /-- Held in cold reset: VIN below the lockout or PORST_N low; COLD_START ends it (R453, R463). -/
  cold : Bool := true
  /-- R438: the step of Dusk in progress, 0 outside Dusk, and whether FORCE was written with SLEEP. -/
  dusk : Nat := 0
  force : Bool := false
  /-- R440: a wake source that arose during Dusk: 1 WAKE_N, 2 ALARM, 3 INPUT_RISE. -/
  latched : Option Nat := none
  /-- R454: an accepted WARM_RESET that waits for TAKE_STATE to be IDLE: the ao-ticks it will take. -/
  warmWait : Option Nat := none
  /-- R503: what waits for an update activation to end: 1 SLEEP, 2 SLEEP with FORCE, 3 WARM_RESET with its ao-ticks. -/
  afterUpd : Option (Nat × Nat) := none
  /-- R449: the SEL codes of fclk and eclk in force, and the unit whose cores stall for a relock. -/
  fclk : Nat := 0
  eclk : Nat := 0
  relock : Option Nat := none
  /-- R434: the samples of the last 1 ms (mV, mA), newest first; the die temperatures in 1/16 °C: 0 compute, 1 and 2 I/O, 3
  power; dies above PWR_TEMP_WARN; whether a temperature has been read. -/
  samples : List (Nat × Nat) := []
  temps : List Int := []
  warned : List Nat := []
  tempSeen : Bool := false
  /-- R450: REF cycles each island spent out of ASLEEP before its last wake, and the REF cycle of that wake. -/
  awakeAcc : KMap Nat := []
  awakeFrom : KMap Nat := []
  /-- R443: the running idle counts of the islands. -/
  idle : KMap Nat := []
  deriving DecidableEq, Repr

/-! ## Boot (chapter 18) -/

/-- The Keeper's boot state and the boot flash it reads and writes. -/
structure BootState where
  /-- R457: the straps latched at the cold start. -/
  sel : Nat := 0
  pref : Bool := false
  /-- R464: reset kind of the present boot: 0 cold, 1 wake, 2 warm. -/
  kind : Nat := 0
  /-- Units that wait to be released, with the reset kind for their boot information block. -/
  release : List (Nat × Nat) := []
  /-- R457: BOOT_SEL 3: units are released with every hart halted. -/
  hold : Bool := false
  /-- R458: KPR_HOST_GO is awaited; the module was booted from a host image. -/
  hostWait : Bool := false
  host : Bool := false
  /-- The Keeper firmware in retained SRAM, the SET_FORMAT of its settings record (R502), and the SET_FORMAT of firmware that an
  update has made active but that has not started yet. -/
  keeperFw : List Byte := []
  format : Nat := 0
  nextFormat : Option Nat := none
  /-- The boot flash: its contents (erased bytes read 0xFF), its size and the modes its JESD216 parameters declare (R458). -/
  flash : KMap Byte := []
  flashSize : Nat := 0
  octal : Bool := false
  quad : Bool := false
  /-- R469: a programming command that runs: its TARGET and the digest words. -/
  fuse : Option (Nat × List Nat) := none
  deriving DecidableEq, Repr

/-! ## Maintenance (chapter 19) -/

/-- R474: a maintenance activity. -/
inductive Act where
  | bist (slot : Nat)
  | cal (group : Nat)
  | spare (group : Nat) (release : Bool)
  | clk (eclk : Bool)
  deriving DecidableEq, Repr

/-- R486: an activity that was requested: running or deferred; `late` when it was requested during an update activation. -/
structure ActRec where
  act : Act := .bist 0
  running : Bool := false
  late : Bool := false
  deriving DecidableEq, Repr

/-- R476: what a slot tests. -/
structure BistSlot where
  target : Nat := 0
  pat : Nat := 0
  deriving DecidableEq, Repr

/-- R483 to R485: a calibration pass: its group and position; the group's spare was active when its turn began; the position has
been left on the spare by an underrun. -/
structure CalPass where
  group : Nat := 0
  pos : Nat := 0
  held : Bool := false
  parked : Bool := false
  deriving DecidableEq, Repr

/-- The BIST and CAL blocks and the arbiter of maintenance activities. -/
structure MntState where
  /-- In the order in which they were requested. -/
  acts : List ActRec := []
  slots : KMap BistSlot := []
  cal : Option CalPass := none
  /-- R479: enables held by a test: register offset and value written. -/
  heldEn : List (Nat × Word) := []
  deriving DecidableEq, Repr

/-! ## Field update (chapter 20) -/

/-- R492: a part of a package. -/
structure UpdPart where
  typ : Nat := 0
  full : Bool := false
  setFormat : Nat := 0
  version : Nat := 0
  dataOff : Nat := 0
  dataLen : Nat := 0
  newLen : Nat := 0
  slotOff : Nat := 0
  slotSize : Nat := 0
  base : List Byte := []
  digest : List Byte := []
  deriving DecidableEq, Repr

/-- The UPD block besides its registers. -/
structure UpdState where
  parts : List UpdPart := []
  /-- KPR_DIR_SEQ at STAGE (R498). -/
  seq : Nat := 0
  nextBoot : Bool := false
  /-- R498: the directory copy is being written; false while the activation waits for maintenance. -/
  writing : Bool := false
  /-- R500: the handover step in progress, 0 outside a handover, and the unit it restarts or has restarted. -/
  step : Nat := 0
  unit : Nat := 0
  deriving DecidableEq, Repr

end Sys2Proof.Machine
end

