-- ==== Sys2Proof/Machine/State.lean ====
section
/-! DEFINITION. The state of the module as plain data, its reset value, and the reasons a step can stop. -/

namespace Sys2Proof.Machine

/-- The state of the block. -/
structure State where
  /-- The commands waiting, first in, first out. -/
  pending : List Instr := []
  /-- REF cycles that have passed (the model's clock, 156.25 MHz). -/
  ref : Nat := 0
  /-- The model's own count of free values used (an item of the spec's "undefined"). -/
  free : Nat := 0
  /-- What the last read command returned. -/
  readData : List Byte := []
  /-- Control-space registers, by control-space offset (R4); an unlisted one holds its reset value. -/
  regs : KMap Word := []
  /-- Memory of the fabric physical map (R129), by physical address, in canonical form. -/
  mem : List Host.Cell := []
  /-- How often the contents of each region have been lost (R447, R453): 0 QDR, 1 tile store, 2 + c local memories of cluster c. -/
  memGen : KMap Nat := []
  /-- Checking points, by queue ID (R29, R30, R524). -/
  seals : KMap EdgeSeal := []
  /-- The four check-value units (R37 to R43). -/
  ckv : KMap CkvUnit := []
  /-- STR: the configuration planes. -/
  str : StrState := {}
  /-- HQ: queue descriptors, stream counters and reservations. -/
  hq : HqState := {}
  /-- SCH: tasks, ready order and preemptions. -/
  sch : SchState := {}
  /-- XLT: spaces, translation cache, faults and context slots. -/
  xlt : XltState := {}
  /-- The sixteen DMA movers. -/
  movers : KMap Mover := []
  /-- QDR: marked bursts. -/
  qdr : QdrState := {}
  /-- ENG: engines, kernel table and library. -/
  eng : EngState := {}
  /-- HIF: channels, configuration space, host memory and peripherals. -/
  hif : HifState := {}
  /-- CUX: ports, switch-over, held doorbells and the units' local SRAM. -/
  cux : CuxState := {}
  /-- PTP: the counter's offset and rate, the servo and the PTP engine. -/
  ptp : PtpState := {}
  /-- The timed pulse outputs. -/
  tpo : KMap TpoState := []
  /-- SLK: the four lane groups. -/
  slk : KMap SlkGroup := []
  /-- SENSOR_INTAKE nodes, by NODE_ID. -/
  intakes : KMap Intake := []
  /-- MAG: the writer, its takes, records and magazine ports. -/
  mag : MagState := {}
  /-- ENC and RATE: stream contexts and cores. -/
  enc : EncState := {}
  /-- DEC: the return decoder. -/
  dec : DecState := {}
  /-- CMP: composition heads and layer slots. -/
  cmp : CmpState := {}
  /-- NET and TSN: ports, classes and senders. -/
  net : NetState := {}
  /-- AUD: the four audio ports. -/
  aud : KMap AudPort := []
  /-- PWR and CLK: the day cycle, telemetry and clocks. -/
  pwr : PwrState := {}
  /-- KPR and FUSE: straps, boot, retained firmware, the boot flash. -/
  boot : BootState := {}
  /-- BIST and CAL: maintenance activities. -/
  mnt : MntState := {}
  /-- UPD: the staged package, activation and handover. -/
  upd : UpdState := {}
  deriving DecidableEq, Repr

/-- The machine right after cold reset (R453): every register at its reset value (an unlisted register reads its reset
value), no memory listed, no commands waiting, Midnight with only the always-on domain powered (R436).
(DESIGN CHOICE, log entries 1, 4, 86, 87, 88; PRESUMED, log entry 23) -/
def State.reset : State := {}

/-- Why a step can stop. -/
inductive Fault where
  /-- PORST (R514) raises it: a low pulse of less than 10 µs on PORST_N is outside the specification, which gives it no
  effect. Safe: the model stops. -/
  | porstPulseTooShort
  deriving DecidableEq, Repr

/-- Why a command is refused by the model. -/
inductive Refusal where
  /-- `exec` answers it for a command that has no meaning yet. Safe: the model stops. -/
  | notModelled (mnemonic : String)
  deriving DecidableEq, Repr

/-- The state with another `pending`. -/
@[simps] def State.setPending (s : State) (v : List Instr) : State := { s with pending := v }

/-- The state with another `ref`. -/
@[simps] def State.setRef (s : State) (v : Nat) : State := { s with ref := v }

/-- The state with another `free`. -/
@[simps] def State.setFree (s : State) (v : Nat) : State := { s with free := v }

/-- The state with another `readData`. -/
@[simps] def State.setReadData (s : State) (v : List Byte) : State := { s with readData := v }

/-- The state with another `regs`. -/
@[simps] def State.setRegs (s : State) (v : KMap Word) : State := { s with regs := v }

/-- The state with another `mem`. -/
@[simps] def State.setMem (s : State) (v : List Host.Cell) : State := { s with mem := v }

/-- The state with another `memGen`. -/
@[simps] def State.setMemGen (s : State) (v : KMap Nat) : State := { s with memGen := v }

/-- The state with another `seals`. -/
@[simps] def State.setSeals (s : State) (v : KMap EdgeSeal) : State := { s with seals := v }

/-- The state with another `ckv`. -/
@[simps] def State.setCkv (s : State) (v : KMap CkvUnit) : State := { s with ckv := v }

/-- The state with another `str`. -/
@[simps] def State.setStr (s : State) (v : StrState) : State := { s with str := v }

/-- The state with another `hq`. -/
@[simps] def State.setHq (s : State) (v : HqState) : State := { s with hq := v }

/-- The state with another `sch`. -/
@[simps] def State.setSch (s : State) (v : SchState) : State := { s with sch := v }

/-- The state with another `xlt`. -/
@[simps] def State.setXlt (s : State) (v : XltState) : State := { s with xlt := v }

/-- The state with another `movers`. -/
@[simps] def State.setMovers (s : State) (v : KMap Mover) : State := { s with movers := v }

/-- The state with another `qdr`. -/
@[simps] def State.setQdr (s : State) (v : QdrState) : State := { s with qdr := v }

/-- The state with another `eng`. -/
@[simps] def State.setEng (s : State) (v : EngState) : State := { s with eng := v }

/-- The state with another `hif`. -/
@[simps] def State.setHif (s : State) (v : HifState) : State := { s with hif := v }

/-- The state with another `cux`. -/
@[simps] def State.setCux (s : State) (v : CuxState) : State := { s with cux := v }

/-- The state with another `ptp`. -/
@[simps] def State.setPtp (s : State) (v : PtpState) : State := { s with ptp := v }

/-- The state with another `tpo`. -/
@[simps] def State.setTpo (s : State) (v : KMap TpoState) : State := { s with tpo := v }

/-- The state with another `slk`. -/
@[simps] def State.setSlk (s : State) (v : KMap SlkGroup) : State := { s with slk := v }

/-- The state with another `intakes`. -/
@[simps] def State.setIntakes (s : State) (v : KMap Intake) : State := { s with intakes := v }

/-- The state with another `mag`. -/
@[simps] def State.setMag (s : State) (v : MagState) : State := { s with mag := v }

/-- The state with another `enc`. -/
@[simps] def State.setEnc (s : State) (v : EncState) : State := { s with enc := v }

/-- The state with another `dec`. -/
@[simps] def State.setDec (s : State) (v : DecState) : State := { s with dec := v }

/-- The state with another `cmp`. -/
@[simps] def State.setCmp (s : State) (v : CmpState) : State := { s with cmp := v }

/-- The state with another `net`. -/
@[simps] def State.setNet (s : State) (v : NetState) : State := { s with net := v }

/-- The state with another `aud`. -/
@[simps] def State.setAud (s : State) (v : KMap AudPort) : State := { s with aud := v }

/-- The state with another `pwr`. -/
@[simps] def State.setPwr (s : State) (v : PwrState) : State := { s with pwr := v }

/-- The state with another `boot`. -/
@[simps] def State.setBoot (s : State) (v : BootState) : State := { s with boot := v }

/-- The state with another `mnt`. -/
@[simps] def State.setMnt (s : State) (v : MntState) : State := { s with mnt := v }

/-- The state with another `upd`. -/
@[simps] def State.setUpd (s : State) (v : UpdState) : State := { s with upd := v }

end Sys2Proof.Machine
end

