-- ==== Sys2Proof/Machine/Ops.lean ====
section
/-! DEFINITION. The named operations every meaning is built from: registers and their fields, time, status and counters,
bytes and memory. -/

namespace Sys2Proof.Machine

/-- The outcome type of a step. -/
abbrev Out := Host.Outcome State Fault Refusal

/-- Base of a block in the control space (R4). -/
def blockBase (id : Nat) : Nat := id * 0x40000

/-! ### Registers (R8, R10) -/

/-- The stored value of the register at control-space offset `off`. (DEDUCED, log entry 123) -/
def State.reg (s : State) (off : Nat) : Word := KMap.get regReset s.regs off

/-- R1: the discovery registers, which hold their reset values in every power state and through every reset.
(DEDUCED, log entry 123) -/
def isDiscovery (off : Nat) : Bool := decide (0x800000 ≤ off) && decide (off < 0x800010)

/-- Store a register; a discovery register is hard-wired (R1). (DEDUCED, log entry 123) -/
def State.setReg (s : State) (off : Nat) (w : Word) : State :=
  if isDiscovery off then s else s.setRegs (KMap.set regReset s.regs off w)

/-- The mask of a field's width. -/
def Fld.mask (f : Fld) : Word := BitVec.ofNat 32 (2 ^ f.w - 1)

/-- The field `f` of the word `w`. -/
def Fld.get (f : Fld) (w : Word) : Nat := ((w >>> f.lo) &&& f.mask).toNat

/-- The word `w` with field `f` holding `v`. -/
def Fld.put (f : Fld) (w : Word) (v : Nat) : Word :=
  (w &&& ~~~(f.mask <<< f.lo)) ||| ((BitVec.ofNat 32 v &&& f.mask) <<< f.lo)

/-- Read a field. -/
def State.rd (s : State) (f : Fld) : Nat := f.get (s.reg f.off)

/-- Write a field, the rest of its register unchanged. -/
def State.wr (s : State) (f : Fld) (v : Nat) : State := s.setReg f.off (f.put (s.reg f.off) v)

/-- Is a one-bit field set? -/
def State.on (s : State) (f : Fld) : Bool := s.rd f != 0

/-- Write a one-bit field. -/
def State.wrB (s : State) (f : Fld) (b : Bool) : State := s.wr f (if b then 1 else 0)

/-- The field `f` in a value being written to its register. -/
def Fld.of (f : Fld) (val : Word) : Nat := f.get val

/-- Count `k` events in a saturating counter (R35 and the counters of every chapter). -/
def State.inc (s : State) (f : Fld) (k : Nat := 1) : State := s.wr f (min (s.rd f + k) (2 ^ f.w - 1))

/-- Count in a wrapping counter. -/
def State.incWrap (s : State) (f : Fld) (k : Nat := 1) : State := s.wr f (s.rd f + k)

/-- R8: what a write of `val` leaves in a register of row `r` that holds `old`: RW bits take the value, W1C bits written
1 clear, every other bit stays. (DESIGN CHOICE, log entry 133) -/
def RegRow.written (r : RegRow) (old val : Word) : Word :=
  let rw := BitVec.ofNat 32 r.rw
  let w1c := BitVec.ofNat 32 r.w1c
  ((old &&& ~~~rw) ||| (val &&& rw)) &&& ~~~(val &&& w1c)

/-- R5, R8: an ordinary register write; at an offset where no register is, the write is discarded. -/
def State.plainWrite (s : State) (off : Nat) (val : Word) : State :=
  match regRow off with
  | some r => s.setReg off (r.written (s.reg off) val)
  | none => s

/-- A free value below `2 ^ w`, and the state that has used it. (DESIGN CHOICE, log entry 87) -/
def State.takeFree (s : State) (w : Nat) : Nat × State :=
  (Config.freeWord s.free % 2 ^ w, s.setFree (s.free + 1))

/-! ### Time (R359, R448) -/

/-- The low 32 bits of the REF cycle count (R100, R413). -/
def State.ref32 (s : State) : Nat := s.ref % 2 ^ 32

/-- R451: the frequency of an fclk SEL code, in MHz. -/
def fclkSel (sel : Nat) : Nat :=
  match sel with
  | 0 => 1500 | 1 => 1200 | 2 => 1000 | _ => 750

/-- fclk in force, in MHz (R449). -/
def State.fclkMHz (s : State) : Nat := fclkSel s.pwr.fclk

/-- eclk in force, in MHz (R449, R451). -/
def State.eclkMHz (s : State) : Nat :=
  match s.pwr.eclk with
  | 0 => 1200 | 1 => 1000 | 2 => 800 | _ => 600

/-- REF cycles as fclk cycles (REF is 156.25 MHz). (DESIGN CHOICE, log entry 146) -/
def State.fclkOf (s : State) (refCycles : Nat) : Nat := refCycles * s.fclkMHz * 4 / 625

/-! ### Bytes (R2) -/

/-- The little-endian number of a byte string. -/
def le : List Byte → Nat
  | [] => 0
  | b :: t => b.toNat + 256 * le t

/-- The `n` little-endian bytes of a number. -/
def leBytes : Nat → Nat → List Byte
  | 0, _ => []
  | n + 1, v => BitVec.ofNat 8 v :: leBytes n (v / 256)

/-- `len` bytes of a byte string from offset `o`, as a little-endian number; bytes past the end read 0. -/
def leAt (b : List Byte) (o len : Nat) : Nat := le ((b.drop o).take len)

/-- Are the bytes `[o, o + len)` of a byte string all zero (R10, R45)? -/
def zeroAt (b : List Byte) (o len : Nat) : Bool := ((b.drop o).take len).all (· == 0)

/-- A byte string cut or zero-filled to `n` bytes. -/
def padTo (n : Nat) (b : List Byte) : List Byte := b.take n ++ List.replicate (n - b.length) 0

/-! ### The fabric physical map (R129, R132) -/

/-- The kinds of place a physical address can be. -/
inductive Place where
  | tile | queueDescs | taskSlots | completionRing | faultQueue | spaceTable | sysReserved | contexts
  | local | qdr | control | host | magWindow | hole
  deriving DecidableEq, Repr

/-- R133: the ranges of the system region that discard every write alike are one place to a write. -/
def Place.forWrite : Place → Place
  | .taskSlots | .completionRing | .faultQueue | .spaceTable | .contexts => .sysReserved
  | .tile => .tile
  | .queueDescs => .queueDescs
  | .sysReserved => .sysReserved
  | .local => .local
  | .qdr => .qdr
  | .control => .control
  | .host => .host
  | .magWindow => .magWindow
  | .hole => .hole

/-- R137: the size of the QDR population in force. -/
def State.qdrSize (s : State) : Nat := s.qdr.chans * s.qdr.devs * 0x8000000

/-- R137: the channel of a physical address, and its channel-local address. -/
def State.qdrLocal (s : State) (a : Nat) : Nat × Nat :=
  let o := a - 0x100000000
  if s.qdr.chans = 4 then (bits o 8 2, o / 1024 * 256 + o % 256)
  else (bits o 8 3, o / 2048 * 256 + o % 256)

/-- R137, R162: does populated, trained QDR main memory lie at an address? -/
def State.qdrAt (s : State) (a : Nat) : Bool :=
  decide (0x100000000 ≤ a) && decide (a < 0x100000000 + s.qdrSize) &&
    bits (s.rd F.QDR_STATUS_TRAINED) (s.qdrLocal a).1 1 == 1

/-- R129, R132: what lies at a physical address. -/
def State.place (s : State) (a : Nat) : Place :=
  if a < 0x3800000 then .tile
  else if a < 0x3A00000 then .queueDescs
  else if a < 0x3A80000 then .taskSlots
  else if a < 0x3A90000 then .completionRing
  else if a < 0x3A98000 then .faultQueue
  else if a < 0x3A99000 then .spaceTable
  else if a < 0x3C00000 then .sysReserved
  else if a < 0x4000000 then .contexts
  else if a < 0x5000000 then .local
  else if s.qdrAt a then .qdr
  else if 0x200000000 ≤ a ∧ a < 0x201000000 then .control
  else if 0x1000000000 ≤ a ∧ a < 0x2000000000 then .host
  else if 0x2000000000 ≤ a ∧ a < 0x2100000000 then .magWindow
  else .hole

/-- Is the address in the pinned system region (R133)? -/
def inSysRegion (a : Nat) : Bool := decide (0x3800000 ≤ a) && decide (a < 0x4000000)

/-- The region whose contents are lost together: QDR, tile store, the local memories of one cluster. -/
def memRegion (a : Nat) : Nat :=
  if a < 0x4000000 then 1 else if a < 0x5000000 then 2 + (a - 0x4000000) / 0x100000 else 0

/-- What an unlisted byte of memory reads as: 0 until its region's contents are lost, an open value afterwards.
(DESIGN CHOICE, log entries 3, 20) -/
def memDefault (gens : KMap Nat) (a : Nat) : Byte :=
  let n := KMap.get (fun _ => 0) gens (memRegion a)
  if n = 0 then 0 else Config.lostByte n a

/-- The stored byte at a physical address. (DESIGN CHOICE, log entry 3) -/
def State.byte (s : State) (a : Nat) : Byte := KMap.get (memDefault s.memGen) s.mem a

/-- Store one byte. -/
def State.setByte (s : State) (a : Nat) (b : Byte) : State :=
  s.setMem (KMap.set (memDefault s.memGen) s.mem a b)

/-- Store bytes at ascending addresses. -/
def State.setBytes (s : State) (a : Nat) : List Byte → State
  | [] => s
  | b :: t => (s.setByte a b).setBytes (a + 1) t

/-- `n` stored bytes from address `a`. -/
def State.bytesAt (s : State) (a : Nat) : Nat → List Byte
  | 0 => []
  | n + 1 => s.byte a :: s.bytesAt (a + 1) n

/-- The contents of region `r` are lost (R447, R453): every byte of it reads as an open value from now on.
(DESIGN CHOICE, log entry 3) -/
def State.loseMem (s : State) (r : Nat) : State :=
  let s' := s.setMem (KMap.erase s.mem (fun a => memRegion a == r))
  s'.setMemGen (KMap.set (fun _ => 0) s.memGen r (KMap.get (fun _ => 0) s.memGen r + 1))

/-! ### Queues, tasks and other keyed records -/

/-- R97: the descriptor of queue `q`; a queue never used is FREE. -/
def State.queue (s : State) (q : Nat) : Queue := KMap.get (fun _ => {}) s.hq.queues q

/-- Replace a queue descriptor. -/
def State.setQueue (s : State) (q : Nat) (d : Queue) : State :=
  s.setHq { s.hq with queues := KMap.set (fun _ => {}) s.hq.queues q d }

/-- The task in a slot, if any. -/
def State.task (s : State) (slot : Nat) : Option Task := KMap.get (fun _ => none) s.sch.tasks slot

/-- Replace or free a task slot. -/
def State.setTask (s : State) (slot : Nat) (t : Option Task) : State :=
  s.setSch { s.sch with tasks := KMap.set (fun _ => none) s.sch.tasks slot t }

/-- The checking point of an edge. -/
def State.edgeSeal (s : State) (q : Nat) : EdgeSeal := KMap.get (fun _ => {}) s.seals q

/-- Replace the record of a checking point. -/
def State.setEdgeSeal (s : State) (q : Nat) (e : EdgeSeal) : State :=
  s.setSeals (KMap.set (fun _ => {}) s.seals q e)

/-- A translation space (R143); space 0 is always ENABLED. -/
def State.space (s : State) (n : Nat) : Space :=
  if n = 0 then { state := 2 } else KMap.get (fun _ => {}) s.xlt.spaces n

/-- Replace a translation space. -/
def State.setSpace (s : State) (n : Nat) (d : Space) : State :=
  s.setXlt { s.xlt with spaces := KMap.set (fun _ => {}) s.xlt.spaces n d }

/-- A context slot (R157). -/
def State.ctx (s : State) (n : Nat) : Ctx := KMap.get (fun _ => {}) s.xlt.ctxs n

/-- The number of context slots in use. -/
def State.ctxUsed (s : State) : Nat := s.xlt.ctxs.length

/-- XLT_CTX follows the context slots in use (R158). -/
def State.noteCtx (s : State) : State :=
  let f := 1024 - s.ctxUsed
  (s.wr F.XLT_CTX_FREE f).wr F.XLT_CTX_LOW_WATER (min (s.rd F.XLT_CTX_LOW_WATER) f)

/-- Replace a context slot. -/
def State.setCtx (s : State) (n : Nat) (c : Ctx) : State :=
  (s.setXlt { s.xlt with ctxs := KMap.set (fun _ => {}) s.xlt.ctxs n c }).noteCtx

/-- The lowest number below `n` that satisfies `p`. (DESIGN CHOICE, log entry 11) -/
def lowest (n : Nat) (p : Nat → Bool) : Option Nat := (List.range n).find? p

/-- The lowest-numbered free context slot (R151): keys of the map are the used slots. (DESIGN CHOICE, log entry 11) -/
def State.freeCtx (s : State) : Option Nat :=
  lowest 1024 (fun k => !(s.xlt.ctxs.any (fun e => e.1 == k)))

/-- A DMA mover. -/
def State.mover (s : State) (n : Nat) : Mover := KMap.get (fun _ => {}) s.movers n

/-- Replace a DMA mover. -/
def State.setMover (s : State) (n : Nat) (m : Mover) : State :=
  s.setMovers (KMap.set (fun _ => {}) s.movers n m)

/-- An engine. -/
def State.engine (s : State) (k : Nat) : Engine := KMap.get (fun _ => {}) s.eng.engines k

/-- Replace an engine. -/
def State.setEngine (s : State) (k : Nat) (e : Engine) : State :=
  s.setEng { s.eng with engines := KMap.set (fun _ => {}) s.eng.engines k e }

/-- A check-value unit. -/
def State.ckvUnit (s : State) (n : Nat) : CkvUnit := KMap.get (fun _ => {}) s.ckv n

/-- Replace a check-value unit. -/
def State.setCkvUnit (s : State) (n : Nat) (u : CkvUnit) : State :=
  s.setCkv (KMap.set (fun _ => {}) s.ckv n u)

/-- A host-side DMA channel. -/
def State.chan (s : State) (n : Nat) : Chan := KMap.get (fun _ => {}) s.hif.chans n

/-- Replace a host-side DMA channel. -/
def State.setChan (s : State) (n : Nat) (c : Chan) : State :=
  s.setHif { s.hif with chans := KMap.set (fun _ => {}) s.hif.chans n c }

/-- What the CUX keeps for a unit (0 Phobos, 1 Deimos). -/
def State.unit (s : State) (u : Nat) : UnitState := KMap.get (fun _ => {}) s.cux.units u

/-- Replace what the CUX keeps for a unit. -/
def State.setUnit (s : State) (u : Nat) (d : UnitState) : State :=
  s.setCux { s.cux with units := KMap.set (fun _ => {}) s.cux.units u d }

/-- Do `f` to the state for each element of a list, in order. -/
def State.each {α : Type} (s : State) (l : List α) (f : α → State → State) : State :=
  l.foldl (fun s a => f a s) s

end Sys2Proof.Machine
end

