-- ==== Sys2Proof/Machine/Flags.lean ====
section
/-! DEFINITION. Status codes, interrupt flags and the vectors they raise (R9, R396, R409). -/

namespace Sys2Proof.Machine

/-- R396: raise an MSI-X vector: its pending bit is set, and MSIX_MESSAGE sends it. (DEDUCED, log entry 130) -/
def State.raiseVec (s : State) (v : Nat) : State :=
  let f : Fld := ⟨0x1C * 0x40000 + 0x18000 + 4 * (v / 32), v % 32, 1⟩
  s.wr f 1

/-- R396: block `b`'s interrupt goes to the host when HIF_IRQ_MAP_b.EN is set. -/
def State.blockToHost (s : State) (b : Nat) : State :=
  if s.on (F.HIF_IRQ_MAP_EN b) then s.raiseVec (s.rd (F.HIF_IRQ_MAP_VECTOR b)) else s

/-- R9: an event sets its W1C flag; when its enable is set, block `b`'s interrupt is raised. (DEDUCED, log entry 130) -/
def State.irq (s : State) (b : Nat) (flag en : Fld) : State :=
  let s' := s.wr flag 1
  if s'.on en then s'.blockToHost b else s'

/-- An event flag of a block with no enable of its own (R126). (DEDUCED, log entry 130) -/
def State.irqAlways (s : State) (b : Nat) (flag : Fld) : State := (s.wr flag 1).blockToHost b

/-- R110, R409: a queue notification with NOTIFY field `n`: TARGET 0 sets a bit of CUX_QIRQ_PEND, TARGET 1 raises an
MSI-X vector. (DEDUCED, log entry 130) -/
def State.notify (s : State) (n : Nat) : State :=
  if bits n 15 1 = 0 then s
  else
    let v := bits n 0 11
    if bits n 14 1 = 1 then s.raiseVec v
    else s.wr ⟨(F.CUX_QIRQ_PEND_PEND (v / 32)).off, v % 32, 1⟩ 1

/-- R405: the HIF block reports a nonzero status. -/
def State.hifStatus (s : State) (code : Nat) : State :=
  (s.wr F.HIF_STATUS_STATUS code).irq 0x1C F.HIF_STATUS_ERR_IRQ F.HIF_CTRL_ERR_IRQ_EN

/-- Bit `k` of the register at a field. -/
def Fld.bitOf (f : Fld) (k : Nat) : Fld := ⟨f.off, k, 1⟩

/-- R9, R409: what raises block `b`'s interrupt: any one of these, each a status flag with its enables. (DEDUCED, log entry 130) -/
def irqTerms (b : Nat) : List (List Fld) :=
  match b with
  | 0x02 => [[F.PWR_STATUS_LOWIN_IRQ, F.PWR_CTRL_LOWIN_IRQ_EN], [F.PWR_STATUS_TEMP_IRQ, F.PWR_CTRL_TEMP_IRQ_EN]]
  | 0x04 => (List.range 2).flatMap (fun u => (List.range 7).map (fun k => [(F.CUX_U_IRQ_IRQ u).bitOf k, (F.CUX_U_IRQ_EN_EN u).bitOf k]))
  | 0x06 => [[F.TSTO_STATUS_WPROT]]
  | 0x07 => [[F.QDR_STATUS_CRC_IRQ, F.QDR_CTRL_CRC_IRQ_EN], [F.QDR_STATUS_DRIFT_IRQ, F.QDR_CTRL_DRIFT_IRQ_EN]]
  | 0x08 => [[F.XLT_STATUS_FQ_IRQ, F.XLT_CTRL_FQ_IRQ_EN]]
  | 0x09 => (List.range 16).map (fun m => [F.DMA_STAT_CPL_IRQ m, F.DMA_RING_CFG_CPL_IRQ_EN m])
  | 0x0A => [[F.HQ_STATUS_OMIT], [F.HQ_STATUS_WPROT]]
  | 0x0B => [[F.SCH_STATUS_CPL_IRQ, F.SCH_CTRL_CPL_IRQ_EN]]
  | 0x0C => [[F.ENG_STATUS_TRAP_IRQ, F.ENG_CTRL_TRAP_IRQ_EN], [F.ENG_STATUS_LIB_IRQ, F.ENG_CTRL_LIB_IRQ_EN]]
  | 0x0D => [[F.SEAL_STATUS_EVT_IRQ, F.SEAL_CTRL_EVT_IRQ_EN], [F.SEAL_STATUS_HALT_IRQ, F.SEAL_CTRL_HALT_IRQ_EN]]
  | 0x0F => [[F.STR_STATUS_ERR_IRQ, F.STR_CTRL_ERR_IRQ_EN], [F.STR_STATUS_SWAP_IRQ, F.STR_CTRL_SWAP_IRQ_EN],
             [F.STR_STATUS_CARRY_IRQ, F.STR_CTRL_CARRY_IRQ_EN]]
  | 0x10 => (List.range 4).flatMap (fun g => (List.range 5).map (fun k =>
             [(F.SLK_G_STATUS_STATUS g).bitOf (k + 3), (F.SLK_G_IRQ_EN_EN g).bitOf (k + 3)]))
  | 0x12 => [[F.MAG_STATUS_PORT_IRQ, F.MAG_IRQ_EN_PORT_IRQ], [F.MAG_STATUS_SPACE_IRQ, F.MAG_IRQ_EN_SPACE_IRQ],
             [F.MAG_STATUS_OMIT_IRQ, F.MAG_IRQ_EN_OMIT_IRQ], [F.MAG_STATUS_TAKE_IRQ, F.MAG_IRQ_EN_TAKE_IRQ]]
  | 0x13 => (List.range 32).map (fun c => [F.ENC_S_STATUS_ERR_IRQ c, F.ENC_S_CTRL_ERR_IRQ_EN c, F.ENC_CTRL_ERR_IRQ_EN])
  | 0x14 => [[F.RATE_STATUS_ERR_IRQ, F.RATE_CTRL_ERR_IRQ_EN], [F.RATE_STATUS_FLOOR_IRQ, F.RATE_CTRL_FLOOR_IRQ_EN]]
  | 0x15 => [[F.DEC_STATUS_ERR_IRQ, F.DEC_CTRL_ERR_IRQ_EN]]
  | 0x16 => (List.range 4).flatMap (fun h =>
             [[F.CMP_H_STATUS_FLIP_IRQ h, F.CMP_H_IRQ_EN_FLIP_IRQ h], [F.CMP_H_STATUS_LATE_IRQ h, F.CMP_H_IRQ_EN_LATE_IRQ h],
              [F.CMP_H_STATUS_SYNC_IRQ h, F.CMP_H_IRQ_EN_SYNC_IRQ h], [F.CMP_H_STATUS_UNDERRUN_IRQ h, F.CMP_H_IRQ_EN_UNDERRUN_IRQ h]])
  | 0x18 => (List.range 8).flatMap (fun p =>
             [[F.NET_P_STATUS_ERR_IRQ p, F.NET_P_CTRL_ERR_IRQ_EN p], [F.NET_P_STATUS_LINK_IRQ p, F.NET_P_CTRL_LINK_IRQ_EN p]])
  | 0x19 => (List.range 8).flatMap (fun p =>
             [[F.TSN_P_STATUS_OVERSIZE_IRQ p, F.TSN_P_CTRL_OVERSIZE_IRQ_EN p], [F.TSN_P_STATUS_LATE_IRQ p, F.TSN_P_CTRL_LATE_IRQ_EN p],
              [F.TSN_P_STATUS_CHANGE_IRQ p, F.TSN_P_CTRL_CHANGE_IRQ_EN p]])
  | 0x1A => [[F.PTP_STATUS_ERR_IRQ, F.PTP_CTRL_ERR_IRQ_EN], [F.PTP_STATUS_STATE_IRQ, F.PTP_CTRL_STATE_IRQ_EN]]
  | 0x1B => (List.range 4).flatMap (fun p =>
             [[F.AUD_P_STATUS_UNDERRUN_IRQ p, F.AUD_P_IRQ_EN_UNDERRUN p], [F.AUD_P_STATUS_NA_IRQ p, F.AUD_P_IRQ_EN_NA p],
              [F.AUD_P_STATUS_ERR_IRQ p, F.AUD_P_IRQ_EN_ERR p], [F.AUD_P_STATUS_CLK_IRQ p, F.AUD_P_IRQ_EN_CLK p]])
  | 0x1C => [[F.HIF_STATUS_ERR_IRQ, F.HIF_CTRL_ERR_IRQ_EN]]
  | 0x1D => [[F.BIST_STATUS_DONE_IRQ, F.BIST_CTRL_DONE_IRQ_EN]]
  | 0x1E => [[F.CAL_STATUS_CAL_IRQ, F.CAL_CTRL_IRQ_EN]]
  | 0x1F => [[F.UPD_STATUS_ERR_IRQ, F.UPD_CTRL_ERR_IRQ_EN], [F.UPD_STATUS_DONE_IRQ, F.UPD_CTRL_DONE_IRQ_EN]]
  | _ => []

/-- R409: is block `b`'s interrupt pending? A level that its status bits hold. (DEDUCED, log entry 130) -/
def State.irqLevel (s : State) (b : Nat) : Bool := (irqTerms b).any (fun l => l.all s.on)

/-- R396, R409: after a register write at `off`: a block whose interrupt it makes pending (an enable set while its flag stands), or
whose pending interrupt it maps to the host, raises its vector. `s` is the state before. (DEDUCED, log entry 130) -/
def State.levelRaise (t s : State) (off : Nat) : State :=
  let b := off / 0x40000
  let m := (off - (F.HIF_IRQ_MAP_EN 0).off) / 4
  let t := if t.irqLevel b && !s.irqLevel b then t.blockToHost b else t
  if off = (F.HIF_IRQ_MAP_EN m).off ∧ m < 0x22 ∧ !s.on (F.HIF_IRQ_MAP_EN m) ∧ t.irqLevel m then t.blockToHost m else t

end Sys2Proof.Machine
end

