-- ==== Sys2Proof/Machine/Operands.lean ====
section
/-! DEFINITION. Operand forms: checksums (R24, R37), tile headers (R16 to R19), ring entries (R100), page-table entries
(R144) and DMA descriptors (R149), read from bytes and written to bytes. -/

namespace Sys2Proof.Machine

/-! ### Checksums (R37) -/

/-- One bit of a reflected CRC-32 step with polynomial `poly`. -/
def crcStep (poly : Nat) (r : Nat) : Nat := if r % 2 = 1 then (r / 2) ^^^ poly else r / 2

/-- Do a step `n` times. -/
def iter (n : Nat) (f : Nat → Nat) (r : Nat) : Nat :=
  match n with
  | 0 => r
  | n + 1 => iter n f (f r)

/-- One byte of a reflected CRC. -/
def crcByte (poly : Nat) (r : Nat) (b : Byte) : Nat := iter 8 (crcStep poly) (r ^^^ b.toNat)

/-- One bit of CRC-16/CCITT, most significant bit first. -/
def crc16Step (r : Nat) : Nat := if r / 0x8000 % 2 = 1 then (r * 2 % 0x10000) ^^^ 0x1021 else r * 2 % 0x10000

/-- One byte of CRC-16/CCITT. -/
def crc16Byte (r : Nat) (b : Byte) : Nat := iter 8 crc16Step (r ^^^ (b.toNat * 256))

/-- R37: the initial register of an algorithm with FOLD. -/
def crcInit (alg fold : Nat) : Nat :=
  if alg = 2 then 0xFFFF ^^^ (fold % 0x10000) else 0xFFFFFFFF ^^^ (fold % 0x100000000)

/-- R37: one byte entering the register of an algorithm. -/
def crcFeed (alg r : Nat) (b : Byte) : Nat :=
  if alg = 2 then crc16Byte r b else crcByte (if alg = 1 then 0xEDB88320 else 0x82F63B78) r b

/-- R37: the final XOR. -/
def crcFinal (alg r : Nat) : Nat := if alg = 2 then r else r ^^^ 0xFFFFFFFF

/-- R37: the checksum of a byte string. -/
def crc (alg fold : Nat) (b : List Byte) : Nat := crcFinal alg (b.foldl (crcFeed alg) (crcInit alg fold))

/-! ### Tiles (R16 to R25) -/

/-- R16: the 32 header bytes. -/
def TileHdr.bytes (h : TileHdr) : List Byte :=
  leBytes 1 h.magic ++ leBytes 1 h.flags ++ leBytes 2 h.stream ++ leBytes 4 h.frame ++ leBytes 4 h.seq ++
  leBytes 2 h.col ++ leBytes 2 h.row ++ leBytes 2 h.format ++ leBytes 2 h.len16 ++ leBytes 4 h.capSec ++
  leBytes 4 h.capNs ++ leBytes 4 h.crc

/-- R16: the header read from bytes. -/
def hdrOf (b : List Byte) : TileHdr :=
  { magic := leAt b 0 1, flags := leAt b 1 1, stream := leAt b 2 2, frame := leAt b 4 4, seq := leAt b 8 4,
    col := leAt b 12 2, row := leAt b 14 2, format := leAt b 16 2, len16 := leAt b 18 2, capSec := leAt b 20 4,
    capNs := leAt b 24 4, crc := leAt b 28 4 }

/-- R17: flag bits. -/
def TileHdr.flag (h : TileHdr) (i : Nat) : Bool := h.flags / 2 ^ i % 2 == 1

/-- A flag bit set or cleared. -/
def TileHdr.setFlag (h : TileHdr) (i : Nat) (v : Bool) : TileHdr :=
  { h with flags := h.flags / 2 ^ (i + 1) * 2 ^ (i + 1) + (if v then 2 ^ i else 0) + h.flags % 2 ^ i }

/-- FRAME_START, bit 3 of FLAGS. -/
def TileHdr.fs (h : TileHdr) : Bool := h.flag 3

/-- FRAME_END, bit 4 of FLAGS. -/
def TileHdr.fe (h : TileHdr) : Bool := h.flag 4

/-- R18: the format codes. -/
def formatCodes : List Nat :=
  [0x0110, 0x0112, 0x0114, 0x0116, 0x0210, 0x0220, 0x0230, 0x0310, 0x0410, 0x0500, 0x0600]

/-- R70: is it a picture format? -/
def isPicture (f : Nat) : Bool := decide (0x0110 ≤ f) && decide (f ≤ 0x0230) && formatCodes.contains f

/-- R18: the sample width of a raw format, 0 otherwise. -/
def rawBits (f : Nat) : Nat :=
  match f with
  | 0x0110 => 10 | 0x0112 => 12 | 0x0114 => 14 | 0x0116 => 16 | _ => 0

/-- R19: a header a checking point accepts. -/
def TileHdr.valid (h : TileHdr) : Bool :=
  h.magic == 0xA7 && decide (1 ≤ h.len16) && decide (h.len16 ≤ 4096) && formatCodes.contains h.format && !h.flag 7

/-- R24: the seal of a tile. -/
def sealOf (h : TileHdr) (payload : List Byte) : Nat :=
  crc 0 h.seq (({ h with crc := 0 } : TileHdr).bytes ++ payload)

/-- R25: the tile with its seal computed. -/
def Tile.sealed (t : Tile) : Tile := { t with hdr := { t.hdr with crc := sealOf t.hdr t.payload } }

/-- R14: the payload of `data` padded with zeros to whole 16-byte units, and LEN16 set to match. -/
def Tile.withPayload (h : TileHdr) (data : List Byte) : Tile :=
  let n := max 1 (ceilDiv data.length 16)
  { hdr := { h with len16 := n }, payload := padTo (16 * n) data }

/-- The bytes of a tile in memory. -/
def Tile.bytes (t : Tile) : List Byte := t.hdr.bytes ++ t.payload

/-- The tile in a byte string: its payload is what the header's LEN16 says, `fallback` units when that is out of range. -/
def tileOf (b : List Byte) (fallback : Nat) : Tile :=
  let h := hdrOf b
  let n := if 1 ≤ h.len16 ∧ h.len16 ≤ 4096 then h.len16 else fallback
  { hdr := h, payload := (b.drop 32).take (16 * n) }

/-! ### Ring entries (R100) -/

/-- R100: the bytes of a ring entry. -/
def RingEntry.bytes (e : RingEntry) : List Byte :=
  leBytes 5 e.addr ++ leBytes 1 e.eflags ++ leBytes 2 e.len16 ++ leBytes 4 e.seq ++ leBytes 4 e.pushTime

/-- R100: a ring entry read from bytes. -/
def entryOf (b : List Byte) : RingEntry :=
  { addr := leAt b 0 5, eflags := leAt b 5 1, len16 := leAt b 6 2, seq := leAt b 8 4, pushTime := leAt b 12 4 }

/-- R102: is the entry void? -/
def RingEntry.void (e : RingEntry) : Bool := e.eflags / 4 % 2 == 1

/-! ### Queue descriptors and context slots as memory shows them (R97, R157) -/

/-- R97: the QFLAGS byte. -/
def Queue.flags (q : Queue) : Nat :=
  (if q.halted then 1 else 0) + (if q.recording then 2 else 0) + 4 * q.policy + (if q.owned then 16 else 0) +
  (if q.srcOmit then 32 else 0)

/-- R97: the 32 descriptor bytes of queue `id`. -/
def Queue.bytes (id : Nat) (q : Queue) : List Byte :=
  leBytes 2 id ++ leBytes 1 q.state ++ leBytes 1 q.flags ++ leBytes 2 q.entries ++ leBytes 2 q.head ++
  leBytes 2 q.count ++ leBytes 2 q.reserved ++ leBytes 2 q.need ++ leBytes 2 q.room ++ leBytes 8 q.base ++
  leBytes 2 q.stride ++ leBytes 2 q.notify ++ leBytes 2 q.highWater ++ leBytes 2 q.claimed

/-- Bytes of a keyed list of numbers `0 … n − 1`, each in `w` bytes. -/
def keyedBytes (m : KMap Nat) (n w : Nat) : List Byte :=
  (List.range n).flatMap (fun i => leBytes w (KMap.get (fun _ => 0) m i))

/-- R183: bytes 64 to 3,071 of an engine's context slot. -/
def EngRegs.bytes (r : EngRegs) : List Byte :=
  padTo 124 ((r.x.drop 1).flatMap (fun w => leBytes 4 w.toNat)) ++ leBytes 4 r.fcsr ++
  padTo 128 (r.f.flatMap (fun w => leBytes 4 w.toNat)) ++
  leBytes 4 r.vl ++ leBytes 4 r.vtype ++ leBytes 4 r.vstart ++ leBytes 4 r.vcsr ++
  leBytes 1 r.top ++ leBytes 1 r.tport ++ leBytes 2 0 ++ leBytes 4 r.tunits ++ leBytes 4 r.taddr ++ leBytes 4 0 ++
  keyedBytes r.gets 16 1 ++ keyedBytes r.puts 16 2 ++ leBytes 1 r.area ++ List.replicate 623 0 ++
  padTo 2048 (r.v.flatMap (fun w => leBytes 64 w.toNat))

/-- R157, R183: the 4,096 bytes of a context slot. -/
def Ctx.bytes (c : Ctx) : List Byte :=
  padTo 4096 (leBytes 1 c.state ++ leBytes 1 c.rclass ++ leBytes 2 c.requester ++ leBytes 2 c.task ++
    leBytes 2 c.node ++ leBytes 4 c.seq ++ leBytes 1 c.space ++ leBytes 1 c.sealState ++ leBytes 2 0 ++
    leBytes 8 c.restart ++ leBytes 4 c.sealAcc ++ leBytes 4 c.sealSeq ++ leBytes 4 c.sealBytes ++
    List.replicate 28 0 ++ (if c.rclass = 1 then c.regs.bytes else c.work))

/-- R151: the 32 bytes of a fault record. -/
def FaultRec.bytes (r : FaultRec) : List Byte :=
  leBytes 1 r.kind ++ leBytes 1 r.access ++ leBytes 2 r.requester ++ leBytes 1 r.space ++ leBytes 1 r.rclass ++
  leBytes 2 r.context ++ leBytes 8 r.va ++ leBytes 2 r.node ++ leBytes 2 r.task ++ leBytes 4 r.pte ++
  leBytes 4 r.frame ++ leBytes 4 r.seq

/-! ### Descriptors (R149) -/

/-- R149: a descriptor read from its 32 bytes. -/
def descOf (b : List Byte) : Desc :=
  { op := leAt b 0 1, dflags := leAt b 1 1, srcSpace := leAt b 2 1, dstSpace := leAt b 3 1, length := leAt b 4 4,
    src := leAt b 8 8, dst := leAt b 16 8, fill := leAt b 24 4, tag := leAt b 28 2 }

/-- R149, R150: undefined OP or LENGTH, or a nonzero reserved byte or bit. (DEDUCED, log entry 34) -/
def Desc.bad (d : Desc) : Bool :=
  !(decide (1 ≤ d.op) && decide (d.op ≤ 3)) || decide (4 ≤ d.dflags) || decide (2 ^ 48 ≤ d.src) ||
  decide (2 ^ 48 ≤ d.dst) || (if d.op = 3 then d.length != 0 else d.length == 0) || (d.op != 2 && d.fill != 0)

/-! ### Kernel descriptors (R179) -/

/-- R179: a kernel descriptor read from its 64 bytes. -/
def kernelOf (b : List Byte) : Kernel :=
  { id := leAt b 0 4, kflags := leAt b 4 1, maxTasks := leAt b 5 1, inPorts := leAt b 6 1, outPorts := leAt b 7 1,
    codeAddr := leAt b 8 8, codeLen := leAt b 16 4, entry := leAt b 20 4, lmSize := leAt b 24 4,
    argLm := leAt b 28 2, need := (List.range 16).map (fun i => leAt b (32 + i) 1),
    room := (List.range 16).map (fun i => leAt b (48 + i) 1) }

end Sys2Proof.Machine
end

