-- ==== Sys2Proof/Machine/Shaper.lean ====
section
/-! DEFINITION. Egress timing (R331, R350, R352): port rates, gate schedules, and the credits of shaped classes as time
passes. Credits are exact fractions of a bit; a port's credits are counted up to its clock. -/

namespace Sys2Proof.Machine

/-- A network port. -/
def State.netPort (s : State) (p : Nat) : NetPort := KMap.get (fun _ => {}) s.net.ports p

/-- Replace a network port. -/
def State.setNetPort (s : State) (p : Nat) (v : NetPort) : State :=
  s.setNet { s.net with ports := KMap.set (fun _ => {}) s.net.ports p v }

/-- An egress class of a port. -/
def NetPort.cls (v : NetPort) (c : Nat) : NetClass := KMap.get (fun _ => {}) v.classes c

/-- Replace a class of a port. -/
def NetPort.setCls (v : NetPort) (c : Nat) (k : NetClass) : NetPort :=
  { v with classes := KMap.set (fun _ => {}) v.classes c k }

/-- R331: does the mode define the port? -/
def portIn (mode p : Nat) : Bool :=
  match mode with
  | 0 => decide (p < 8)
  | 1 => decide (p < 2)
  | 2 => p == 0 || (decide (4 ≤ p) && decide (p < 8))
  | _ => false

/-- R331: the lanes of a port. -/
def portLanes (mode p : Nat) : List Nat :=
  match mode with
  | 1 => (List.range 4).map (fun k => 4 * p + k)
  | 2 => if p = 0 then [0, 1, 2, 3] else [p]
  | _ => [p]

/-- R331, R350: the port's rate in bits per ns. -/
def State.portRate (s : State) (p : Nat) : Nat :=
  match s.rd F.NET_CFG_MODE with
  | 1 => 100
  | 2 => if p = 0 then 100 else 25
  | _ => 25

/-- The model's time in ns of REF (REF is 156.25 MHz). -/
def State.refNs (s : State) : Rat := (s.ref : Rat) * 32 / 5

/-- R350: the credit of class `c` after `dt` ns, transmitting or not. (DEDUCED, log entry 64) -/
def State.creditAfter (s : State) (p c gates : Nat) (sending : Bool) (x dt : Rat) : Rat :=
  let idle : Rat := (s.rd (F.TSN_C_IDLE_V p c) : Rat) / 1000000
  let hi : Rat := s.rd (F.TSN_C_HI_V p c)
  if !s.on (F.TSN_C_CFG_CBS_EN p c) then x
  else if sending then x + (idle - s.portRate p) * dt
  else if gates / 2 ^ c % 2 = 0 ∨ hi ≤ x then x
  else min hi (x + idle * dt)

/-- The strict classes' credits after `dt` ns. -/
def State.evolve (s : State) (p : Nat) (v : NetPort) (sending : Option Nat) (dt : Rat) : NetPort :=
  (List.range 4).foldl (fun v c =>
    let k := v.cls c
    v.setCls c { k with credit := s.creditAfter p c v.gates (sending == some c) k.credit dt }) v

/-- R350: the port's credits counted up to time `t`. (DESIGN CHOICE, log entry 65) -/
def State.portAt (s : State) (p : Nat) (t : Rat) : NetPort :=
  let v := s.netPort p
  if t ≤ v.clock then v
  else
    match v.tx with
    | some (c, e) =>
      if t < e then { s.evolve p v (some c) (t - v.clock) with clock := t }
      else { s.evolve p (s.evolve p v (some c) (e - v.clock)) none (t - e) with clock := t, tx := none }
    | none => { s.evolve p v none (t - v.clock) with clock := t }

/-- Count the port's credits up to time `t`. -/
def State.settle (s : State) (p : Nat) (t : Rat) : State := s.setNetPort p (s.portAt p t)

/-- R350, R357: a credit held to 1/65,536 bit, as TSN_C_CREDIT shows it: whole bits, rounded down. (DEDUCED, log entry 64) -/
def State.shownCredit (s : State) (p c : Nat) : Int := ((s.portAt p s.refNs).cls c).credit.floor

/-- R352: a gate list's entries as (gates, start, end) within a cycle: cut at the cycle end, the last one held to it. -/
def gateSegs (cycle : Nat) : Nat → List (Nat × Nat) → List (Nat × Nat × Nat)
  | _, [] => []
  | at_, [(g, _)] => if at_ < cycle then [(g, at_, cycle)] else []
  | at_, (g, n) :: t => if at_ < cycle then (g, at_, min cycle (at_ + n)) :: gateSegs cycle (at_ + n) t else []

/-- A gate schedule: the time of a cycle start, the cycle and its segments. -/
structure GateSched where
  base : Int := 0
  cycle : Nat := 1
  segs : List (Nat × Nat × Nat) := []
  deriving DecidableEq, Repr

/-- R352: the oper list in force, none while every gate is open. -/
def State.operSched (s : State) (p : Nat) : Option GateSched :=
  let n := s.rd (F.TSN_P_STATUS_OPER_LEN p)
  if !s.on (F.TSN_P_CTRL_GATE_EN p) ∨ n = 0 then none
  else
    let cyc := s.rd (F.TSN_P_OPER_CYCLE_NS_V p)
    some { base := (s.netPort p).operBase, cycle := cyc,
           segs := gateSegs cyc 0 ((List.range n).map (fun k => (s.rd (F.TSN_OPER_GATES_V p k), s.rd (F.TSN_OPER_NS_V p k)))) }

/-- R357: the pending or last change time, in ns. -/
def State.changeTime (s : State) (p : Nat) : Int :=
  ((s.rd (F.TSN_P_CHANGE_SEC_HI_V p) * 2 ^ 32 + s.rd (F.TSN_P_CHANGE_SEC_LO_V p) : Nat) : Int) * 1000000000 +
    s.rd (F.TSN_P_CHANGE_NS_V p)

/-- R353: the schedule a pending change brings. -/
def State.adminSched (s : State) (p : Nat) : GateSched :=
  let cyc := s.rd (F.TSN_P_CYCLE_NS_V p)
  { base := s.changeTime p, cycle := cyc,
    segs := gateSegs cyc 0 ((List.range (s.rd (F.TSN_P_CTRL_ADMIN_LEN p))).map (fun k =>
      (s.rd (F.TSN_ADMIN_GATES_V p k), s.rd (F.TSN_ADMIN_NS_V p k)))) }

/-- R352: the gates of a schedule at time `t`. -/
def GateSched.at (g : GateSched) (t : Int) : Nat :=
  let ph := ((t - g.base) % (g.cycle : Int)).toNat
  ((g.segs.find? (fun e => decide (e.2.1 ≤ ph) && decide (ph < e.2.2))).map (fun e => e.1)).getD 255

/-- R354: how long after time `t` class `c`'s gate closes next, none when it never does. -/
def GateSched.closing (g : GateSched) (c : Nat) (t : Rat) : Option Rat :=
  let d : Rat := t - g.base
  let ph : Rat := d - (d / g.cycle).floor * (g.cycle : Rat)
  let waits := (g.segs.filter (fun e => e.1 / 2 ^ c % 2 == 0)).map (fun e =>
    if ph < (e.2.2 : Rat) ∧ (e.2.1 : Rat) ≤ ph then 0
    else if ph ≤ e.2.1 then (e.2.1 : Rat) - ph else (e.2.1 : Rat) + g.cycle - ph)
  waits.foldl (fun a w => match a with
    | none => some w
    | some b => some (min b w)) none

/-- R354: the longest open interval of class `c`, none when it never closes. -/
def GateSched.longest (g : GateSched) (c : Nat) : Option Nat :=
  if g.segs.all (fun e => e.1 / 2 ^ c % 2 == 1) then none
  else
    let run := (g.segs ++ g.segs).foldl (fun (a : Nat × Nat) e =>
      if e.1 / 2 ^ c % 2 = 1 then (a.1 + (e.2.2 - e.2.1), max a.2 (a.1 + (e.2.2 - e.2.1))) else (0, a.2)) (0, 0)
    some run.2

end Sys2Proof.Machine
end

