-- ==== Sys2Proof/Machine/Fabric.lean ====
section
/-! DEFINITION. Reading registers as the bus shows them, and reading and writing the fabric physical map (R5, R98, R129 to
R133, R395). -/

namespace Sys2Proof.Machine

/-- SCH_RDY_n of R127: READY tasks on the cluster's list, engines running a task, nonempty levels. -/
def State.rdyWord (s : State) (n : Nat) : Word :=
  let ts := s.sch.tasks.filterMap (fun e => e.2)
  let l := ts.filter (fun t => t.cluster == n && (t.state == .ready || t.state == .waking))
  let busy := ((List.range 8).filter (fun k => (s.engine (8 * n + k)).running.isSome)).length
  let lv := (List.range 8).foldl (fun a i => a + (if l.any (fun t => t.level == i) then 2 ^ i else 0)) 0
  BitVec.ofNat 32 (l.length * 0x10000 + busy * 0x100 + lv)

/-- R446, R313: is an island held awake by its image record, by its head's EN, or by the EN of its serialiser and of the head it
names? -/
def State.keepAwake (s : State) (n : Nat) : Bool :=
  (match s.str.active with
   | some i => i.isls.any (fun r => r.id == n && r.keep)
   | none => false) ||
  (decide (0x18 ≤ n) && decide (n < 0x1C) && s.on (F.CMP_H_CTRL_EN (n - 0x18))) ||
  (decide (0x1C ≤ n) && decide (n < 0x20) && s.on (F.SDI_S_CFG_EN (n - 0x1C)) &&
    s.on (F.CMP_H_CTRL_EN (s.rd (F.SDI_S_CFG_SRC_HEAD (n - 0x1C)))))

/-- R443: the IDLE_COUNT in force for an island: its record's in the active image, otherwise 0. -/
def State.idleCount (s : State) (n : Nat) : Nat :=
  match s.str.active with
  | some i => ((i.isls.find? (fun r => r.id == n)).map (fun r => r.idle)).getD 0
  | none => 0

/-- R450: what the registers of the islands read: KEEP_AWAKE and IDLE_COUNT follow the image, PWR_ISL_AWAKE the time. -/
def State.islandReg (s : State) (o : Nat) : Word :=
  let n := o % 0x80 / 4
  let w := s.reg (0x02 * 0x40000 + o)
  if o < 0x180 then (F.PWR_ISL_KEEP_AWAKE n).put w (if s.keepAwake n then 1 else 0)
  else if 0x300 ≤ o ∧ o < 0x380 then
    let run := if s.on (F.PWR_ISL_STATE n) then s.ref - KMap.get (fun _ => 0) s.pwr.awakeFrom n else 0
    BitVec.ofNat 32 ((KMap.get (fun _ => 0) s.pwr.awakeAcc n + run) / 1024)
  else if 0x400 ≤ o then BitVec.ofNat 32 (s.idleCount n)
  else w

/-- R126, R158: registers that show the queue in HQ_QSEL or the space in XLT_SPACE_SEL, R127's ready lists, R184's
counters, the network's summaries (R356) and credits (R357), and R389's CLK are computed; every other register shows its stored value.
(DEDUCED, log entry 36) -/
def State.regRead (s : State) (off : Nat) : Word :=
  let b := off / 0x40000
  let o := off % 0x40000
  if b = 0x0A then
    let q := s.queue (s.rd F.HQ_QSEL_QID)
    if o = 0x18 then BitVec.ofNat 32 (q.base / 16 * 16)
    else if o = 0x1C then BitVec.ofNat 32 (q.base / 2 ^ 32)
    else if o = 0x20 then BitVec.ofNat 32 (q.notify * 0x10000 + q.entries)
    else if o = 0x28 then BitVec.ofNat 32 (q.head * 0x10000 + q.count)
    else if o = 0x2C then BitVec.ofNat 32 (q.highWater * 0x10000 + q.flags * 0x100 + q.state)
    else if o = 0x30 then BitVec.ofNat 32 (q.claimed * 0x10000 + q.reserved)
    else s.reg off
  else if b = 0x08 then
    let n := s.rd F.XLT_SPACE_SEL_SPACE
    let d := s.space n
    if o = 0x14 then BitVec.ofNat 32 (d.root / 0x200 * 0x200)
    else if o = 0x18 then BitVec.ofNat 32 (d.root / 2 ^ 32)
    else if o = 0x20 then
      BitVec.ofNat 32 (d.state * 0x10000 +
        (255 - (s.xlt.spaces.filter (fun e => e.2.state != 0)).length))
    else s.reg off
  else if b = 0x0C ∧ 0x1000 ≤ o ∧ o < 0x2000 then
    let e := s.engine ((o - 0x1000) / 0x20)
    if o % 0x20 = 0x10 then BitVec.ofNat 32 e.minstret
    else if o % 0x20 = 0x14 then BitVec.ofNat 32 e.vec
    else if o % 0x20 = 0x18 then BitVec.ofNat 32 e.tstall
    else if o % 0x20 = 0x1C then BitVec.ofNat 32 e.mstall
    else s.reg off
  else if b = 0x02 ∧ 0x100 ≤ o ∧ o < 0x480 then s.islandReg o
  else if b = 0x0B ∧ 0x100 ≤ o ∧ o < 0x140 then s.rdyWord ((o - 0x100) / 4)
  else if b = 0x18 ∧ o = 0x04 then
    let bit (i : Nat) (c : Bool) : Nat := if c then 2 ^ i else 0
    let ports := List.range 8
    let irq := ports.any (fun p => (s.on (F.NET_P_STATUS_LINK_IRQ p) && s.on (F.NET_P_CTRL_LINK_IRQ_EN p)) ||
      (s.on (F.NET_P_STATUS_ERR_IRQ p) && s.on (F.NET_P_CTRL_ERR_IRQ_EN p)))
    s.reg off ||| BitVec.ofNat 32 (ports.foldl (fun a p => a + bit (8 + p) (s.on (F.NET_P_STATUS_LINK p))) (bit 0 irq))
  else if b = 0x18 ∧ 0x100 ≤ o ∧ o < 0x500 ∧ o % 0x80 = 4 then
    if portIn (s.rd F.NET_CFG_MODE) ((o - 0x100) / 0x80) then s.reg off ||| 0x2000 else s.reg off
  else if b = 0x1B ∧ 0x100 ≤ o ∧ o < 0x300 ∧ o % 0x80 = 8 then
    let p := (o - 0x100) / 0x80
    if s.on (F.AUD_P_CTRL_CLK_MODE p) then s.reg off else (F.AUD_P_STATUS_CLK p).put (s.reg off) 2
  else if b = 0x19 ∧ o < 0x10000 ∧ 0x100 ≤ o % 0x2000 ∧ o % 0x2000 < 0x200 ∧ o % 0x20 = 0xC then
    BitVec.ofInt 32 (s.shownCredit (o / 0x2000) ((o % 0x2000 - 0x100) / 0x20))
  else s.reg off

/-- The byte any requester reads at a physical address: memory, the views of the system region, registers, the host's
memory (R395), the magazine window (R241); a hole reads 0 (R130). (DESIGN CHOICE, log entries 18, 20) -/
def State.physByte (s : State) (a : Nat) : Byte :=
  match s.place a with
  | .tile | .local | .qdr | .completionRing | .faultQueue => s.byte a
  | .queueDescs =>
    let o := a - 0x3800000
    if o / 32 = 0xFFFF then 0 else (Queue.bytes (o / 32) (s.queue (o / 32))).getD (o % 32) 0
  | .contexts => let o := a - 0x3C00000; (s.ctx (o / 4096)).bytes.getD (o % 4096) 0
  | .taskSlots | .spaceTable => Config.deviceByte s.ref a
  | .sysReserved => 0
  | .control => let o := a - 0x200000000; BitVec.ofNat 8 ((s.regRead (o / 4 * 4)).toNat / 2 ^ (8 * (o % 4)))
  | .host =>
    if s.on F.HIF_STATUS_LINK && s.hif.bme then
      KMap.get (fun _ => 0) s.hif.hostMem (s.rd F.HIF_OB_BASE_HI_BASE * 2 ^ 32 + (a - 0x1000000000))
    else 0
  | .magWindow => if s.on (F.MAG_P_STATUS_SPEED ((a - 0x2000000000) / 0x40000000)) then Config.deviceByte s.ref a else 0
  | .hole => 0

/-- Bytes read from a physical address. -/
def State.physRead (s : State) (a : Nat) : Nat → List Byte
  | 0 => []
  | n + 1 => s.physByte a :: s.physRead (a + 1) n

/-- R98: a write to the queue-descriptor range by another requester is discarded, counted and reported. -/
def State.descWriteDenied (s : State) : State :=
  ((s.inc F.HQ_WPROT_COUNT_COUNT).wr F.HQ_STATUS_STATUS 0x0A08).irqAlways 0x0A F.HQ_STATUS_WPROT

/-- R133: a write into the rest of the system region is discarded, counted and reported. -/
def State.sysregWriteDenied (s : State) : State :=
  ((s.inc F.TSTO_WPROT_COUNT_COUNT).wr F.TSTO_STATUS_STATUS 0x0601).irqAlways 0x06 F.TSTO_STATUS_WPROT

/-- R130: an access to a hole is counted. -/
def State.holeAccess (s : State) : State := s.inc F.XLT_HOLE_COUNT_COUNT

/-- R392, R395: an outbound request while the link is down or Bus Master Enable is clear is handled as a hole and counted
in HIF_OB_DROP. -/
def State.outboundDropped (s : State) : State := s.holeAccess.inc F.HIF_OB_DROP_COUNT

/-- R138: the burst check of 16 data bytes at a channel-local address. -/
def burstCheck (localAddr : Nat) (d : List Byte) : Nat :=
  let a := localAddr / 16
  crc 2 ((a ^^^ (a / 0x10000)) % 0x10000) d

/-- R140: a burst whose check fails on both reads is counted, reported and captured. -/
def State.burstError (s : State) (addr : Nat) : State :=
  let c := (s.qdrLocal addr).1
  let s := ((s.inc (F.QDR_CRC_RETRY_COUNT c)).inc (F.QDR_CRC_ERR_COUNT c)).wr F.QDR_STATUS_STATUS 0x0702
  let s := s.irq 0x07 F.QDR_STATUS_CRC_IRQ F.QDR_CTRL_CRC_IRQ_EN
  if s.on F.QDR_ERR_ADDR_LO_VALID then s
  else ((s.wr F.QDR_ERR_ADDR_LO_ADDR (addr / 16)).wr F.QDR_ERR_ADDR_HI_ADDR (addr / 2 ^ 32)).wr F.QDR_ERR_ADDR_LO_VALID 1

/-- R139: is the burst of an address stored with inverted check bits? -/
def State.burstBad (s : State) (a : Nat) : Bool := s.qdr.poisoned.contains (a / 16)

/-- R139, R140: a read of `len` bytes reads every burst that holds one of them; each stored with inverted check bits fails. -/
def State.burstsRead (s : State) (a len : Nat) : State :=
  s.each (s.qdr.poisoned.filter (fun k => decide (k * 16 < a + len) && decide (a < k * 16 + 16))) (fun k s => s.burstError (k * 16))

/-- R138, R139: a write to QDR main memory: a burst written whole takes a valid check; a burst written in part is read first, and
one whose check fails keeps inverted check bits. -/
def State.qdrWrite (s : State) (a : Nat) (b : List Byte) : State :=
  let whole (k : Nat) : Bool := decide (a ≤ k * 16) && decide (k * 16 + 16 ≤ a + b.length)
  let part := s.qdr.poisoned.filter (fun k => decide (k * 16 < a + b.length) && decide (a < k * 16 + 16) && !whole k)
  let s := s.setQdr { s.qdr with poisoned := s.qdr.poisoned.filter (fun k => !whole k) }
  (s.each part (fun k s => s.burstError (k * 16))).setBytes a b

/-- Bytes written to host memory. (DESIGN CHOICE, log entry 20) -/
def State.hostWrite (s : State) (a : Nat) : List Byte → State
  | [] => s
  | b :: t => (s.setHif { s.hif with hostMem := KMap.set (fun _ => 0) s.hif.hostMem a b }).hostWrite (a + 1) t

/-- May the module reach the host's memory now (R392)? (DEDUCED, log entry 5) -/
def State.hostUp (s : State) : Bool := s.on F.HIF_STATUS_LINK && s.hif.bme

/-- R130, R139, R392: what a physical read of `len` bytes does besides its data: a hole is counted, a failing burst too. -/
def State.noteRead (s : State) (a : Nat) (len : Nat := 1) : State :=
  match s.place a with
  | .hole => s.holeAccess
  | .host => if s.hostUp then s else s.outboundDropped
  | .qdr => s.burstsRead a len
  | _ => s

/-- A write inside one place of the fabric map: memory takes the bytes; the system region refuses them (R98, R133); a hole
discards and counts them (R130); the host window reaches host memory (R395). -/
def State.placeWrite (s : State) (a : Nat) (b : List Byte) : State :=
  match s.place a with
  | .tile | .local => s.setBytes a b
  | .qdr => s.qdrWrite a b
  | .queueDescs => s.descWriteDenied
  | .taskSlots | .completionRing | .faultQueue | .spaceTable | .sysReserved | .contexts => s.sysregWriteDenied
  | .host =>
    if s.hostUp then s.hostWrite (s.rd F.HIF_OB_BASE_HI_BASE * 2 ^ 32 + (a - 0x1000000000)) b
    else s.outboundDropped
  | .magWindow | .control => s
  | .hole => s.holeAccess

/-- The runs of a write's bytes that lie in one place of the fabric map each, with their addresses. -/
def State.writeRuns (s : State) (a : Nat) : List Byte → List (Nat × List Byte)
  | [] => []
  | b :: t =>
    match s.writeRuns (a + 1) t with
    | [] => [(a, [b])]
    | r :: rs =>
      if (s.place a).forWrite = (s.place (a + 1)).forWrite then (a, b :: r.2) :: rs else (a, [b]) :: r :: rs

/-- A physical write by a requester of the fabric; one that runs from one place of the map into another is divided there.
(DESIGN CHOICE, log entry 19) -/
def State.physWrite (s : State) (a : Nat) (b : List Byte) : State :=
  s.each (s.writeRuns a b) (fun r s => s.placeWrite r.1 r.2)

end Sys2Proof.Machine
end

