-- ==== Sys2Proof/Machine/Gate.lean ====
section
/-! DEFINITION. The way of a register write into the block: the ownership gate (R411, R427), the host's denials (R393,
R458, R467), the doorbell hold (R419) and the mirror record of every write that passes (R413, R415). -/

namespace Sys2Proof.Machine

/-- The unit an agent is: 0 Phobos, 1 Deimos. -/
def agentUnit : Agent → Option Nat
  | .phobos => some 0
  | .deimos => some 1
  | .host => none

/-- R410: the state of a unit. -/
def State.ustate (s : State) (u : Nat) : Nat := s.rd (F.CUX_U_STATE_STATE u)

/-- R428: the CUX block reports a status to unit `u`. -/
def State.cuxReport (s : State) (u code : Nat) : State :=
  (s.wr (F.CUX_U_STATE_STATUS u) code).wr F.CUX_STATUS_STATUS code

/-- R427: set a CUX_U_IRQ bit of unit `u`; its enable raises source 4. -/
def State.unitIrq (s : State) (u bit : Nat) : State :=
  s.irq 0x04 ⟨(F.CUX_U_IRQ_IRQ u).off, bit, 1⟩ ⟨(F.CUX_U_IRQ_EN_EN u).off, bit, 1⟩

/-- R410: set or clear SYNCED; SYNC_IRQ marks a change. -/
def State.setSynced (s : State) (u : Nat) (b : Bool) : State :=
  if s.on (F.CUX_U_STATE_SYNCED u) = b then s else (s.wrB (F.CUX_U_STATE_SYNCED u) b).unitIrq u 2

/-- R416: has unit `u` a path up? -/
def State.pathUp (s : State) (u : Nat) : Bool :=
  s.on (F.CUX_U_STATE_PATH_L u) || s.on (F.CUX_U_STATE_PATH_K u)

/-- What an unlisted byte of unit `u`'s local SRAM reads as: 0 until its contents are lost, an open value afterwards.
(DESIGN CHOICE, log entry 3) -/
def sramDefault (u gen a : Nat) : Byte := if gen = 0 then 0 else Config.lostByte gen (0x10000000000 + u * 0x200000 + a)

/-- Bytes put into a local SRAM from address `a`. (DEDUCED, log entry 90) -/
def sramPut (u gen : Nat) (m : KMap Byte) (a : Nat) : List Byte → KMap Byte
  | [] => m
  | b :: t => sramPut u gen (KMap.set (sramDefault u gen) m (a % 0x200000) b) (a + 1) t

/-- R406: a core's reservation after a write of `n` bytes at `a` of the local SRAM. (DESIGN CHOICE, log entry 150) -/
def UnitHart.wrote (h : UnitHart) (a n : Nat) : UnitHart :=
  match h.resv with
  | some (o, k) => if o < a + n ∧ a < o + k then { h with resv := none } else h
  | none => h

/-- Write a unit's local SRAM (R407); a reservation of the bytes written ends. (DEDUCED, log entry 132) -/
def State.sramWrite (s : State) (u a : Nat) (b : List Byte) : State :=
  let d := s.unit u
  s.setUnit u { d with sram := sramPut u d.sramGen d.sram a b, harts := d.harts.map (fun h => h.wrote (a % 0x200000) b.length) }

/-- Read a unit's local SRAM. (DEDUCED, log entry 132) -/
def State.sramRead (s : State) (u a : Nat) : Nat → List Byte
  | 0 => []
  | n + 1 => KMap.get (sramDefault u (s.unit u).sramGen) (s.unit u).sram (a % 0x200000) :: s.sramRead u (a + 1) n

/-- R415: a record is lost to unit `u`. (DEDUCED, log entry 12) -/
def State.recordLost (s : State) (u : Nat) : State :=
  let s := (s.inc F.CUX_UNDELIVERED_COUNT).setUnit u { s.unit u with lost := true }
  if s.ustate u = 2 then
    let s := s.setSynced u false
    if s.pathUp u then (s.wr (F.CUX_U_STATE_STATE u) 1).cuxReport u 0x0409 else s
  else if s.ustate u = 1 then s.cuxReport u 0x0409
  else s

/-- R413: a control-space write's data in the byte lanes of its address. -/
def laneData (off : Nat) (size : Size) (val : Word) : Nat :=
  val.toNat % 2 ^ (8 * size.len) * 2 ^ (8 * (off % 4)) % 2 ^ 32

/-- R413: deliver one mirror record to unit `u`, or lose it (R415). (DEDUCED, log entry 12) -/
def State.mirrorTo (s : State) (u : Nat) (src : Agent) (off : Nat) (size : Size) (val : Word) (held : Bool)
    (seq : Nat) : State :=
  if s.ustate u = 1 ∨ s.ustate u = 2 then
    let head := s.rd (F.CUX_U_MIR_PTR_HEAD u)
    let tail := s.rd (F.CUX_U_MIR_PTR_TAIL u)
    if s.pathUp u ∧ (tail + 1) % 4096 ≠ head then
      let fl := (if src = .host then 1 else 0) + (if held then 2 else 0) + (if (s.unit u).lost then 4 else 0) +
        8 * (match size with | .word => 0 | .half => 1 | .byte => 2)
      let rec16 := leBytes 4 seq ++ leBytes 3 off ++ leBytes 1 fl ++ leBytes 4 (laneData off size val) ++
        leBytes 4 s.ref32
      let s := s.setUnit u { s.unit u with lost := false }
      let s := s.sramWrite u (s.rd (F.CUX_U_MIR_BASE_BASE u) * 0x10000 + 16 * tail) rec16
      (s.wr (F.CUX_U_MIR_PTR_TAIL u) ((tail + 1) % 4096)).unitIrq u 5
    else s.recordLost u
  else s

/-- R413: a write that passes the gate takes the next SYNC_SEQ and is delivered to each non-owner unit. (DEDUCED, log entry 12) -/
def State.mirror (s : State) (src : Agent) (off : Nat) (size : Size) (val : Word) (held : Bool) : State :=
  let seq := s.rd F.CUX_SYNC_SEQ_SEQ
  let s := s.incWrap F.CUX_SYNC_SEQ_SEQ
  (s.mirrorTo 0 src off size val held seq).mirrorTo 1 src off size val held seq

/-- R419: the doorbell registers. -/
def isDoorbell (off : Nat) : Bool :=
  let b := off / 0x40000
  let o := off % 0x40000
  (b == 0x0A && (o == 0x34 || o == 0x38)) || (b == 0x09 && decide (o < 0x400) && o % 0x40 == 0x0C) ||
  (b == 0x1C && decide (0x800 ≤ o) && decide (o < 0xC00) && o % 0x20 == 0x04)

/-- What the gate decides of a write. -/
inductive Verdict where
  /-- The write takes effect; `true` when it is mirrored. -/
  | pass (mirrored : Bool)
  /-- The doorbell is held (R419). -/
  | hold
  /-- NOT_OWNER: discarded, counted in the writer's deny counter (R411, R427). -/
  | deny
  /-- The addressed block refuses a host write; the record is still produced (R413). -/
  | hostDenied
  /-- No write arrives: the writer or the control space is not up. -/
  | absent
  deriving DecidableEq, Repr

/-- The unit whose CUX_U registers an offset lies in, if any (R427). (DEDUCED, log entry 126) -/
def unitRegsOf (off : Nat) : Option Nat :=
  if off / 0x40000 = 0x04 ∧ 0x100 ≤ off % 0x40000 ∧ off % 0x40000 < 0x200 then
    some ((off % 0x40000 - 0x100) / 0x80)
  else none

/-- R5, R393, R400, R467: registers the host may not write. -/
def State.hostMayNot (s : State) (off : Nat) : Bool :=
  let b := off / 0x40000
  let o := off % 0x40000
  (regRow (off / 4 * 4)).isSome && ((b == 0x1C && ((decide (0x100 ≤ o) && decide (o < 0x200)) ||
    (s.on F.HIF_CTRL_HOST_LOCK && ((decide (0x400 ≤ o) && decide (o < 0x488)) || o == 0x200 || o == 0x204 ||
      (decide (0x2000 ≤ o) && decide (o < 0x2400)))))) ||
  (b == 0x20 && decide (0x100 ≤ o) && decide (o < 0x128)))

/-- R392, R411, R419, R427, R458: the gate. (DEDUCED, log entries 5, 126) -/
def State.gate (s : State) (src : Agent) (off : Nat) : Verdict :=
  if s.rd F.PWR_STATUS_DAY = 0 then .absent
  else
    match agentUnit src with
    | some u =>
      if s.ustate u = 0 then .absent
      else
        match unitRegsOf off with
        | some v => if v = u then .pass false else .deny
        | none =>
          if isDoorbell off && s.cux.gap.isSome then .hold
          else if (s.unit u).portOpen then .pass true else .deny
    | none =>
      if !s.on F.HIF_STATUS_LINK then .absent
      else if s.rd F.PWR_STATUS_DAY = 1 then (if off = 0x40008 then .pass true else .absent)
      else if off / 0x40000 = 0x04 then .deny
      else if s.hostMayNot off then .hostDenied
      else if isDoorbell off && s.cux.gap.isSome then .hold
      else .pass true

/-- R411: count and report a discarded write. (DEDUCED, log entry 126) -/
def State.notOwner (s : State) (src : Agent) : State :=
  match src with
  | .phobos => (s.inc F.CUX_DENY_P_COUNT).cuxReport 0 0x0401
  | .deimos => (s.inc F.CUX_DENY_D_COUNT).cuxReport 1 0x0401
  | .host => (s.inc F.CUX_DENY_HOST_COUNT).wr F.CUX_STATUS_STATUS 0x0401

/-- R419: hold a doorbell in arrival order; a writer that finds the 256 entries full waits. -/
def State.holdDoorbell (s : State) (src : Agent) (off : Nat) (val : Word) : State :=
  let d : HeldDb := { src := src, off := off, val := val }
  if s.cux.held.length < 256 then
    let s := s.setCux { s.cux with held := s.cux.held ++ [d] }
    let n := s.cux.held.length
    (s.wr F.CUX_HOLD_HELD n).wr F.CUX_HOLD_HOLD_MAX (max (s.rd F.CUX_HOLD_HOLD_MAX) n)
  else s.setCux { s.cux with stalled := s.cux.stalled ++ [d] }

/-- R393, R467: report a host write that the addressed block refuses. -/
def State.reportHostDenied (s : State) (off : Nat) : State :=
  if off / 0x40000 = 0x20 then s.wr F.FUSE_PROG_STATUS_STATUS 0x2006 else s.hifStatus 0x1C06

/-- A register write on its way to its effect `eff`: the gate decides, a write that passes is mirrored and takes effect.
(DEDUCED, log entry 12) -/
def State.write (s : State) (src : Agent) (off : Nat) (size : Size) (val : Word) (eff : State → State) : State :=
  match s.gate src off with
  | .pass true => (eff (s.mirror src off size val false)).levelRaise s off
  | .pass false => (eff s).levelRaise s off
  | .hold => s.holdDoorbell src off val
  | .deny => s.notOwner src
  | .hostDenied => (s.mirror src off size val false).reportHostDenied off
  | .absent => s

/-- A whole-word write to the register that holds field `f`. (DEDUCED, log entry 5) -/
def State.writeReg (s : State) (src : Agent) (f : Fld) (val : Word) (eff : State → State) : State :=
  s.write src f.off .word val eff

end Sys2Proof.Machine
end

