-- ==== Sys2Proof/Machine/Images.lean ====
section
/-! DEFINITION. Looking things up in the active image: nodes, edges, buffers, tables and pixel-format descriptors (R50 to
R71), and the placing of a tile's samples (R18). -/

namespace Sys2Proof.Machine

/-- The image in the active plane; an empty one when there is none. -/
def State.image (s : State) : Image := s.str.active.getD {}

/-- The active edge carried by queue `q`. (DEDUCED, log entry 40) -/
def State.edge? (s : State) (q : Nat) : Option Edge := s.image.edges.find? (fun e => e.qid == q)

/-- The active node with a NODE_ID. -/
def State.node? (s : State) (id : Nat) : Option Node := s.image.nodes.find? (fun n => n.id == id)

/-- R52: the edges an output port feeds. -/
def Image.outEdges (i : Image) (node port : Nat) : List Edge :=
  i.edges.filter (fun e => e.prod == node && e.prodPort == port)

/-- R52: the edge joined to an input port. -/
def Image.inEdge (i : Image) (node port : Nat) : Option Edge :=
  i.edges.find? (fun e => e.cons == node && e.consPort == port)

/-- The queues of an output port, in ascending QID. -/
def State.portQueues (s : State) (node port : Nat) : List Nat :=
  ((s.image.outEdges node port).map (fun e => e.qid)).mergeSort (· ≤ ·)

/-- R90: the tables a node uses now: the old ones until it has switched. -/
def State.tablesOf (s : State) (node : Nat) : List Table :=
  if s.str.retiring.contains node then s.str.oldTables else s.image.tables

/-- R90: the shadow plane is empty again when no node uses old tables. (DEDUCED, log entry 107) -/
def State.switchNode (s : State) (id : Nat) : State :=
  if s.str.retiring.contains id then
    let r := s.str.retiring.erase id
    if r.isEmpty then
      (s.setStr { s.str with retiring := [], oldTables := [], forceRetire := false }).wr F.STR_STATUS_SHADOW_STATE 0
    else s.setStr { s.str with retiring := r }
  else s

/-- R90: a node starts work on a tile: with FRAME_START, or after RETIRE_FORCE, it switches to the new tables.
(DEDUCED, log entry 107) -/
def State.maybeSwitch (s : State) (id : Nat) (fs : Bool) : State :=
  if fs || s.str.forceRetire then s.switchNode id else s

/-- R84: the source of timebases of a kind has returned. -/
def State.sourceBack (s : State) (kind source : Nat) : State :=
  s.setStr { s.str with lostTbs := s.str.lostTbs.filter (fun id =>
    !s.image.tbs.any (fun t => t.id == id && t.kind == kind && t.source == source)) }

/-- The table with an ID. -/
def findTable (l : List Table) (id : Nat) : Option Table := l.find? (fun t => t.id == id)

/-- The body of a table, read from the image in memory. -/
def State.tableBody (s : State) (t : Table) : List Byte := s.physRead t.addr t.bodyLen

/-- R70: a pixel-format descriptor. -/
structure PixFmt where
  format : Nat := 0
  tileW : Nat := 0
  tileH : Nat := 0
  picW : Nat := 0
  picH : Nat := 0
  cols : Nat := 0
  rows : Nat := 0
  cfa : Nat := 0
  depth : Nat := 0
  packing : Nat := 0
  layout : Nat := 0
  deriving DecidableEq, Repr

/-- R70: the descriptor in a PIXFMT body. -/
def pixFmtOf (b : List Byte) : PixFmt :=
  { format := leAt b 0 2, tileW := leAt b 2 2, tileH := leAt b 4 2, picW := leAt b 6 2, picH := leAt b 8 2,
    cols := leAt b 10 2, rows := leAt b 12 2, cfa := leAt b 14 1, depth := leAt b 15 1, packing := leAt b 16 1,
    layout := leAt b 17 1 }

/-- R70: the maximum payload of a tile, in bytes. -/
def PixFmt.maxPayload (p : PixFmt) : Nat :=
  let px := p.tileW * p.tileH
  if isPicture p.format then
    roundUp (if rawBits p.format ≠ 0 then ceilDiv (px * rawBits p.format) 8
      else if p.format = 0x0220 then px * 6 else px * 4) 16
  else p.picW * 16

/-- A node's output descriptor in the given tables. -/
def State.pixFmtIn (s : State) (l : List Table) (n : Node) : PixFmt :=
  match findTable l n.pixfmt with
  | none => {}
  | some t => pixFmtOf (s.tableBody t)

/-- A node's output descriptor, from the tables it uses. -/
def State.pixFmt (s : State) (node : Nat) : PixFmt :=
  match s.node? node with
  | none => {}
  | some n => s.pixFmtIn (s.tablesOf node) n

/-- The table in slot `k` of a node's TABLE_REF, of the given tables. -/
def Node.table (n : Node) (l : List Table) (k : Nat) : Option Table :=
  let id := n.tref.getD k 0
  if id = 0 then none else findTable l id

/-- A byte field of a node's parameter block. -/
def Node.par (n : Node) (o len : Nat) : Nat := leAt n.params o len

/-- R18: samples of `n` bits as one little-endian bit string, in bytes. -/
def packBits (n : Nat) (samples : List Nat) : List Byte :=
  leBytes (ceilDiv (n * samples.length) 8) (samples.foldr (fun v a => v % 2 ^ n + 2 ^ n * a) 0)

/-- R18: sample `k` of an `n`-bit packed byte string. -/
def unpackBit (n k : Nat) (b : List Byte) : Nat :=
  let o := n * k / 8
  leAt b o 4 / 2 ^ (n * k % 8) % 2 ^ n

/-- R525: the payload of a fill substitute of a picture format. -/
def PixFmt.fillPayload (p : PixFmt) (fill : Nat) : List Byte :=
  let px := p.tileW * p.tileH
  let f0 := fill % 0x10000
  let f1 := fill / 0x10000 % 0x10000
  let data :=
    if rawBits p.format ≠ 0 then packBits (rawBits p.format) (List.replicate px f0)
    else if p.format = 0x0210 then
      (List.replicate (px / 2) (leBytes 2 (f1 % 0x400) ++ leBytes 2 (f0 % 0x400) ++ leBytes 2 (f1 % 0x400) ++
        leBytes 2 (f0 % 0x400))).flatten
    else if p.format = 0x0220 then
      (List.replicate px (leBytes 2 (f0 % 0x1000) ++ leBytes 2 (f1 % 0x1000) ++ leBytes 2 (f1 % 0x1000))).flatten
    else (List.replicate px (leBytes 4 fill)).flatten
  padTo p.maxPayload data

end Sys2Proof.Machine
end

