-- ==== Sys2Proof/Machine/Tables.lean ====
section
/-! DEFINITION. What tables compute (R65 to R67): curves, three-dimensional tables and matrices. -/

namespace Sys2Proof.Machine

/-- Rounded to the nearest integer, halves up. (DEDUCED, log entry 30) -/
def roundDiv (n : Int) (d : Nat) : Int := (2 * n + d) / (2 * (d : Int))

/-- Limited to `[lo, hi]`. -/
def limit (lo hi v : Int) : Int := max lo (min hi v)

/-- Limited to `[0, hi]`, as a sample. -/
def limitTo (hi : Nat) (v : Int) : Nat := (limit 0 hi v).toNat

/-- A two's complement number of `w` bits. -/
def signed (w n : Nat) : Int := if 2 ^ (w - 1) ≤ n then (n : Int) - 2 ^ w else n

/-- R64, R65: the value of a CURVE1D table for channel `ch` at input `x`. -/
def curveAt (t : Table) (body : List Byte) (ch x : Nat) : Nat :=
  let inBits := t.p0 % 256
  let entries := t.p0 / 0x10000
  let step := 2 ^ inBits / (entries - 1)
  let i := min (x / step) (entries - 2)
  let e (j : Nat) : Nat := leAt body ((ch * entries + j) * 2) 2
  let f := x - i * step
  (roundDiv ((e i : Int) * (step - f) + (e (i + 1) : Int) * f) step).toNat

/-- R66: a tetrahedral interpolation of a LUT3D table at three inputs. (DEDUCED, log entry 30) -/
def lutAt (t : Table) (body : List Byte) (x : List Nat) : List Nat :=
  let grid := t.p0 % 256
  let step := 2 ^ (t.p0 / 0x10000 % 256) / (grid - 1)
  let ix (c : Nat) : Nat := min (x.getD c 0 / step) (grid - 2)
  let fr (c : Nat) : Nat := x.getD c 0 - ix c * step
  let ax := [0, 1, 2].mergeSort (fun a b => decide (fr b ≤ fr a))
  let corner (up : List Nat) (k : Nat) : Int :=
    let g (c : Nat) : Nat := ix c + (if up.contains c then 1 else 0)
    (leAt body ((((g 2) * grid + g 1) * grid + g 0) * 6 + 2 * k) 2 : Int)
  let f0 := fr (ax.getD 0 0)
  let f1 := fr (ax.getD 1 0)
  let f2 := fr (ax.getD 2 0)
  (List.range 3).map (fun k =>
    (roundDiv (corner [] k * ((step : Int) - f0) + corner (ax.take 1) k * ((f0 : Int) - f1) +
      corner (ax.take 2) k * ((f1 : Int) - f2) + corner ax k * f2) step).toNat)

/-- R67: coefficient `m[r][c]` of a MATRIX3X4 body. -/
def coefAt (body : List Byte) (r c : Nat) : Int := signed 32 (leAt body ((r * 4 + c) * 4) 4)

/-- R67: a MATRIX3X4 table applied to three inputs, limited to `[0, hi]` as CLAMP says. -/
def matrixAt (body : List Byte) (hi : Nat) (x : List Nat) : List Nat :=
  (List.range 3).map (fun r =>
    let sum : Int := coefAt body r 0 * (x.getD 0 0 : Nat) + coefAt body r 1 * (x.getD 1 0 : Nat) +
      coefAt body r 2 * (x.getD 2 0 : Nat) + coefAt body r 3
    limitTo hi (roundDiv sum 65536))

/-- R223: a coordinate brought into `[lo, hi)`: the nearest valid one, of the same parity where the CFA has 2 × 2 cells. -/
def nearest (lo hi : Nat) (cell : Bool) (v : Int) : Nat :=
  if cell then
    if v < lo then lo + ((v - lo) % 2).toNat
    else if (hi : Int) ≤ v then
      let last : Int := (hi : Int) - 1 - ((v - ((hi : Int) - 1)) % 2)
      (if last < lo then lo else last.toNat)
    else v.toNat
  else (limit lo ((hi : Int) - 1) v).toNat

end Sys2Proof.Machine
end

