-- ==== Sys2Proof/Machine/Clock.lean ====
section
/-! DEFINITION. The time counter and its reading (R359, R360), holdover (R361) and timecode (R368). -/

namespace Sys2Proof.Machine

/-- R359: the count C of tclk ticks, REF × 32 / 5, since Dawn. -/
def State.tclk (s : State) : Nat := (s.ref - s.ptp.dawnRef) * 32 / 5

/-- R359: the reading t, in units of 2^−32 ns. -/
def State.reading (s : State) : Int := s.ptp.offset + s.ptp.rate * s.tclk

/-- R359: the timestamp: the reading rounded down to whole nanoseconds. -/
def State.timestamp (s : State) : Int := s.reading / 2 ^ 32

/-- R359: seconds of a timestamp, kept to 48 bits. -/
def tsSec (t : Int) : Nat := ((t / 1000000000) % 2 ^ 48).toNat

/-- R359: nanoseconds of a timestamp. -/
def tsNs (t : Int) : Nat := (t % 1000000000).toNat

/-- R255: capture seconds of a tile extended to 48 bits, nearest to the time counter's seconds. -/
def State.sec48 (s : State) (sec : Nat) : Nat :=
  let now : Int := s.timestamp / 1000000000
  let base : Int := now / 2 ^ 32 * 2 ^ 32 + sec
  let c := if now - base > 2 ^ 31 then base + 2 ^ 32 else if base - now > 2 ^ 31 then base - 2 ^ 32 else base
  (c % 2 ^ 48).toNat

/-- R255: the capture time of a tile in ns, its seconds extended to 48 bits. -/
def State.capTime (s : State) (sec ns : Nat) : Int := (s.sec48 sec : Int) * 1000000000 + ns

/-- R361: the counter is in holdover in every state except LOCKED. -/
def State.inHoldover (s : State) : Bool := s.rd F.PTP_STATUS_STATE != 2

/-- R360: RATE changes and the reading stays continuous. (DESIGN CHOICE, log entry 73) -/
def State.setRate (s : State) (r : Nat) : State :=
  let c : Int := s.tclk
  (s.setPtp { s.ptp with offset := s.ptp.offset + ((s.ptp.rate : Int) - r) * c, rate := r }).wr F.PTP_RATE_FRAC_V
    (((r : Int) - 2 ^ 32) % 2 ^ 32).toNat

/-- R311: frames per second of a rate code, as a fraction, and the nominal rate. -/
def rateOf (code : Nat) : Nat × Nat × Nat :=
  match code with
  | 0 => (24000, 1001, 24) | 1 => (24, 1, 24) | 2 => (25, 1, 25) | 3 => (30000, 1001, 30)
  | 4 => (30, 1, 30) | 5 => (50, 1, 50) | 6 => (60000, 1001, 60) | _ => (60, 1, 60)

/-- Two decimal digits. -/
def bcd (n : Nat) : Nat := n / 10 % 10 * 16 + n % 10

/-- R368: drop-frame counting by ST 12-1: the displayed frame count of frame `n` at a nominal rate of 30 or 60. -/
def dropFrame (nom n : Nat) : Nat :=
  let d := nom / 15
  let f10 := 600 * nom - 9 * d
  n + 9 * d * (n / f10) + d * ((n % f10 - d) / (60 * nom - d))

/-- R368: does drop-frame counting apply? -/
def State.tcDrop (s : State) : Bool :=
  let r := rateOf (s.rd F.PTP_TC_CFG_TC_RATE)
  s.on F.PTP_TC_CFG_TC_DROP && r.2.1 == 1001 && r.2.2 != 24

/-- R368: the timecode of a timestamp (in ns), in BCD. -/
def State.timecode (s : State) (t : Int) : Nat :=
  let loc := signed 32 (if s.on F.PTP_TC_CFG_TC_LOCAL_SRC then s.rd F.PTP_SM_LOCAL_V else s.rd F.PTP_TC_LOCAL_V)
  let u := t - (s.rd F.PTP_UTC_OFFSET : Int) * 1000000000 + loc * 1000000000
  let d := (u % 86400000000000).toNat
  let r := rateOf (s.rd F.PTP_TC_CFG_TC_RATE)
  let n := d * r.1 / (r.2.1 * 1000000000)
  let n := if s.tcDrop then dropFrame r.2.2 n else n
  bcd (n / (3600 * r.2.2)) * 0x1000000 + bcd (n / (60 * r.2.2) % 60) * 0x10000 + bcd (n / r.2.2 % 60) * 0x100 +
    bcd (n % r.2.2)

end Sys2Proof.Machine
end

