-- ==== Sys2Proof/Machine/Maint.lean ====
section
/-! DEFINITION. Maintenance activities and the resource groups they hold (R474, R486, R487), and the islands under test
(R477). -/

namespace Sys2Proof.Machine

/-- A BIST slot's test. -/
def State.bistSlot (s : State) (n : Nat) : BistSlot := KMap.get (fun _ => {}) s.mnt.slots n

/-- R474: the resource groups of a test target: islands and lane groups by their TARGET number, 0x100 the fclk domain, 0x101 the
eclk domain, 0x102 the telemetry converter and 0x103 the PLLs. -/
def targetRes (target : Nat) : List Nat :=
  if target < 0x10 then [target, 0x100]
  else if target < 0x15 then [target, 0x101]
  else if target = 0x30 then [0x102, 0x103]
  else [target]

/-- R474: the resource groups an activity holds. -/
def State.actRes (s : State) (a : Act) : List Nat :=
  match a with
  | .bist n => targetRes (s.bistSlot n).target
  | .cal g => [0x20 + g]
  | .spare g _ => [0x20 + g]
  | .clk e => [if e then 0x101 else 0x100]

/-- R486: does an activity share a resource group with one of those requested before it? (DEDUCED, log entry 97) -/
def State.clashes (s : State) (a : Act) (l : List ActRec) : Bool :=
  l.any (fun r => (s.actRes r.act).any (fun x => (s.actRes a).contains x))

/-- R487: MAINT_ACTIVE follows the activities deferred or running. -/
def State.noteMaint (s : State) : State := s.wrB F.BIST_STATUS_MAINT_ACTIVE (!s.mnt.acts.isEmpty)

/-- R486, R487, R503: an activity is requested: it runs at once unless an earlier one holds one of its resource groups or an
update is being activated. -/
def State.requestAct (s : State) (a : Act) : State :=
  let late := s.rd F.UPD_STATUS_STATE == 3
  let r : ActRec := { act := a, running := !late && !s.clashes a s.mnt.acts, late := late }
  (s.setMnt { s.mnt with acts := s.mnt.acts ++ [r] }).noteMaint

/-- Does the activity run now? -/
def State.actRuns (s : State) (a : Act) : Bool := s.mnt.acts.any (fun r => r.act == a && r.running)

/-- Has the activity been requested and not ended? -/
def State.actAsked (s : State) (a : Act) : Bool := s.mnt.acts.any (fun r => r.act == a)

/-- R486: an activity ends: the earliest request of it. -/
def State.endAct (s : State) (a : Act) : State :=
  (s.setMnt { s.mnt with acts := s.mnt.acts.eraseP (fun r => r.act == a) }).noteMaint

/-- R486, R487: the first deferred activity that may start now: it shares nothing with those requested before it, and it was not
requested during an update activation that still runs. -/
def State.startable (s : State) (l : List ActRec) : List ActRec → Option Act
  | [] => none
  | r :: t =>
    if !r.running && !s.clashes r.act l && !(r.late && s.rd F.UPD_STATUS_STATE == 3) then some r.act else s.startable (l ++ [r]) t

/-- Mark the first deferred request of `a` as running. -/
def markRunning (a : Act) : List ActRec → List ActRec
  | [] => []
  | r :: t => if r.act = a ∧ !r.running then { r with running := true, late := false } :: t else r :: markRunning a t

/-- R477: the slot that tests an island (WAITING or RUNNING, and not deferred), if any. -/
def State.testerOf (s : State) (island : Nat) : Option Nat :=
  (List.range 8).find? (fun n => s.actRuns (.bist n) && (s.bistSlot n).target == island)

/-- R477: is the island out of service for a logic test? -/
def State.underTest (s : State) (island : Nat) : Bool := decide (island < 0x15) && (s.testerOf island).isSome

/-- R479: does a test hold a sensor group (0x20 + g) or a network lane (0x28 + n)? -/
def State.laneUnderTest (s : State) (target : Nat) : Bool := (s.testerOf target).isSome

/-- R479: a write that sets an enable a test holds: it reads back as written and takes effect when the test ends. -/
def State.holdEnable (s : State) (off : Nat) (val : Word) : State :=
  (s.plainWrite off val).setMnt { s.mnt with heldEn := s.mnt.heldEn.filter (fun e => e.1 != off) ++ [(off, val)] }

/-- R479: a write of `val` to a register whose enable a test may hold: while the target is under test, a write that sets the
enable is held and one that clears it drops a held one. -/
def State.enableWrite (s : State) (busy : Bool) (f : Fld) (val : Word) (eff : State → State) : State :=
  if busy && f.of val == 1 then s.holdEnable f.off val
  else if busy then
    (s.setMnt { s.mnt with heldEn := s.mnt.heldEn.filter (fun e => e.1 != f.off) }).plainWrite f.off val
  else eff s

end Sys2Proof.Machine
end

