-- ==== Sys2Proof/Machine/Islands.lean ====
section
/-! DEFINITION. Power islands (R443 to R447): demand, wakes and the time an island spends awake. -/

namespace Sys2Proof.Machine

/-- The island has a state: 0 ASLEEP, 1 WAKING, 2 AWAKE, 3 DRAINING (R443). -/
def State.island (s : State) (n : Nat) : Nat := s.rd (F.PWR_ISL_STATE n)

/-- R60: the island IDs that exist. -/
def isIsland (n : Nat) : Bool := decide (n ≤ 0x14) || (decide (0x18 ≤ n) && decide (n ≤ 0x1F))

/-- R450: an island leaves ASLEEP. -/
def State.islandOn (s : State) (n st : Nat) : State :=
  (s.wr (F.PWR_ISL_STATE n) st).setPwr { s.pwr with awakeFrom := KMap.set (fun _ => 0) s.pwr.awakeFrom n s.ref }

/-- R450: an island enters ASLEEP. -/
def State.islandOff (s : State) (n : Nat) : State :=
  let acc := KMap.get (fun _ => 0) s.pwr.awakeAcc n + (s.ref - KMap.get (fun _ => 0) s.pwr.awakeFrom n)
  (s.wr (F.PWR_ISL_STATE n) 0).setPwr { s.pwr with awakeAcc := KMap.set (fun _ => 0) s.pwr.awakeAcc n acc }

/-- R443: an ASLEEP island starts waking, and the wake is counted. -/
def State.wakeIsland (s : State) (n : Nat) : State := (s.islandOn n 1).inc (F.PWR_ISL_WAKES_COUNT n)

/-- R443: an island's idle count takes a value. -/
def State.setIdle (s : State) (n v : Nat) : State :=
  s.setPwr { s.pwr with idle := KMap.set (fun _ => 0) s.pwr.idle n v }

/-- R443: an island's running idle count. -/
def State.idleRun (s : State) (n : Nat) : Nat := KMap.get (fun _ => 0) s.pwr.idle n

/-- R444, R445: demand for an island starts its wake, restarts its idle count while it is AWAKE, or sets PENDING_ENABLE while it
drains; an island under test is never woken (R477), and none wakes once the islands drain at Dusk (R438). -/
def State.islandDemand (s : State) (n : Nat) : State :=
  if s.underTest n || decide (4 ≤ s.pwr.dusk) then s
  else
    match s.island n with
    | 0 => s.wakeIsland n
    | 2 => s.setIdle n 0
    | 3 => s.wr (F.PWR_ISL_PENDING_ENABLE n) 1
    | _ => s

/-- R117, R477: may work start on the island? -/
def State.awake (s : State) (n : Nat) : Bool := s.island n == 2 && !s.underTest n

/-- R444: the island a committed entry on an input queue of this node demands: DEC0, or the head of a CMP_HEAD node. -/
def Node.queueIsland (n : Node) : Option Nat :=
  if n.kind = 5 then some 0x14 else if n.kind = 6 then some (0x18 + n.res % 256 % 4) else none

end Sys2Proof.Machine
end

