-- ==== Sys2Proof/Machine/Queues.lean ====
section
/-! DEFINITION. The queue operations (R20, R99 to R110): reserving, completing, committing, claiming and popping ring
entries, and putting a tile on every edge of a port. -/

namespace Sys2Proof.Machine

/-- R97: the free room of a queue. -/
def Queue.free (q : Queue) : Nat := q.entries - q.count - q.reserved

/-- A ring index, modulo the capacity. -/
def Queue.ix (q : Queue) (i : Nat) : Nat := if q.entries = 0 then 0 else i % q.entries

/-- R99: the address of slot `k` of an image edge. -/
def Queue.slotAddr (q : Queue) (k : Nat) : Nat := q.base + roundUp (q.entries * 16) 4096 + k * q.stride * 16

/-- R100: the address of ring entry `i`. -/
def Queue.entryAddr (q : Queue) (i : Nat) : Nat := q.base + 16 * i

/-- The ring entry at an index, read from memory (software rings may lie in the host window). -/
def State.ringEntry (s : State) (q : Queue) (i : Nat) : RingEntry := entryOf (s.physRead (q.entryAddr i) 16)

/-- Store ring-entry bytes: the HQ block and producers write rings wherever they lie. -/
def State.ringWrite (s : State) (a : Nat) (b : List Byte) : State := s.physWrite a b

/-- R20: take the next sequence number of a stream. (DEDUCED, log entry 25) -/
def State.takeSeq (s : State) (stream : Nat) : Nat × State :=
  let n := KMap.get (fun _ => 0) s.hq.seqs stream
  (n, s.setHq { s.hq with seqs := KMap.set (fun _ => 0) s.hq.seqs stream ((n + 1) % 2 ^ 32) })

/-- R97, R103: reserve `n` entries of a queue that has room; the ring indices reserved. (DEDUCED, log entry 124) -/
def State.reserve (s : State) (qid n : Nat) : List Nat × State :=
  let q := s.queue qid
  let first := q.head + q.count + q.reserved
  let q' := { q with reserved := q.reserved + n, highWater := max q.highWater (q.count + q.reserved + n) }
  ((List.range n).map (fun i => q.ix (first + i)), s.setQueue qid q')

/-- The bin of a wait of `w` REF cycles (R127). -/
def histBin (w : Nat) : Nat :=
  if w < 16 then 0 else min 19 (Nat.log2 (w / 16) + 1)

/-- R127: count a wait in each enabled monitor of source `src` that names `id`. -/
def State.histCount (s : State) (src id w : Nat) : State :=
  s.each (List.range 4) (fun m s =>
    if s.on (F.SCH_HIST_CFG_EN m) && s.rd (F.SCH_HIST_CFG_SRC m) == src && s.rd (F.SCH_HIST_CFG_ID m) == id then
      s.inc (F.SCH_HIST_BIN_COUNT m (histBin w))
    else s)

/-- R108, R444: a committed entry demands its consumer's island. (DESIGN CHOICE, log entry 10) -/
def State.commitDemand (s : State) (qid : Nat) : State :=
  match s.edge? qid with
  | none => s
  | some e => match s.node? e.cons with
    | none => s
    | some n => match n.queueIsland with
      | none => s
      | some i => s.islandDemand i

/-- R101: the number of complete entries at the tail of the committed region. -/
def Queue.ready (q : Queue) : Nat → Nat
  | 0 => 0
  | fuel + 1 =>
    if q.reserved = 0 then 0
    else if q.done.contains (q.ix (q.head + q.count)) then
      1 + ({ q with count := q.count + 1, reserved := q.reserved - 1 } : Queue).ready fuel
    else 0

/-- R105: pass HEAD over the popped entries that stand there. -/
def Queue.advance (q : Queue) : Nat → Queue
  | 0 => q
  | fuel + 1 =>
    if q.count ≠ 0 ∧ q.popped.contains q.head then
      ({ q with head := q.ix (q.head + 1), count := q.count - 1,
                claimed := if q.claims.contains q.head then q.claimed - 1 else q.claimed,
                claims := q.claims.erase q.head, popped := q.popped.erase q.head } : Queue).advance fuel
    else q

/-- R105: pop the committed entry at a ring index; its wait is counted (R127). -/
def State.pop (s : State) (qid idx : Nat) : State :=
  let q := s.queue qid
  if q.popped.contains idx then s
  else
    let e := s.ringEntry q idx
    let s := s.histCount 0 qid ((s.ref32 + 2 ^ 32 - e.pushTime) % 2 ^ 32)
    s.setQueue qid (({ q with popped := q.popped ++ [idx] } : Queue).advance (q.count + 1))

/-- R102: an ENGINE_OP or DMA_TILE consumer never claims a void entry; it is popped as it commits. (DESIGN CHOICE, log entry 10) -/
def State.popVoid (s : State) (qid idx : Nat) : State :=
  let q := s.queue qid
  if q.need ≠ 0 ∧ (s.ringEntry q idx).void then s.pop qid idx else s

/-- R101: commit the complete entries at the tail: they join COUNT, leave RESERVED and are stamped; the commit notifies
once (R110) and demands the consumer's island (R108). -/
def State.commit (s : State) (qid : Nat) : State :=
  let q := s.queue qid
  let n := q.ready (q.reserved + 1)
  if n = 0 then s
  else
    let idxs := (List.range n).map (fun i => q.ix (q.head + q.count + i))
    let s := s.setQueue qid { q with count := q.count + n, reserved := q.reserved - n,
                                     done := q.done.filter (fun i => !idxs.contains i) }
    let s := s.each idxs (fun i s => s.ringWrite (q.entryAddr i + 12) (leBytes 4 s.ref32))
    let s := s.notify q.notify
    let s := s.each idxs (fun i s => s.popVoid qid i)
    s.commitDemand qid

/-- R101: the producer completes a reserved entry: the entry is written and committed in its turn. -/
def State.complete (s : State) (qid idx : Nat) (e : RingEntry) : State :=
  let q := s.queue qid
  let s := s.ringWrite (q.entryAddr idx) e.bytes
  (s.setQueue qid { q with done := q.done ++ [idx] }).commit qid

/-- R102: complete a reserved entry as void. (DESIGN CHOICE, log entries 10, 145) -/
def State.completeVoid (s : State) (qid idx seq : Nat) : State :=
  s.complete qid idx { eflags := 4, seq := seq }

/-- R100: the ring entry of a tile at an address. -/
def Tile.entry (t : Tile) (addr : Nat) : RingEntry :=
  { addr := addr, eflags := (if t.hdr.fs then 1 else 0) + (if t.hdr.fe then 2 else 0), len16 := t.hdr.len16,
    seq := t.hdr.seq }

/-- Write a tile into the slot of a reserved entry of an image edge and complete the entry. -/
def State.fillEntry (s : State) (qid idx : Nat) (t : Tile) : State :=
  let a := (s.queue qid).slotAddr idx
  (s.setBytes a t.bytes).complete qid idx (t.entry a)

/-- R103, R104: has every queue of a list room for `n` more entries? -/
def State.roomOn (s : State) (qids : List Nat) (n : Nat) : Bool :=
  qids.all (fun q => decide (n ≤ (s.queue q).free))

/-- R52, R103: the queues of a request: its own and those of the port's other edges. -/
def ResReq.queues (r : ResReq) : List Nat := r.qid :: r.copies.filter (· != r.qid)

/-- R104: the order of requests: ascending mesh node ID, then NODE_ID and task slot (R20). (DEDUCED, log entry 37) -/
def ResReq.before (a b : ResReq) : Bool :=
  decide (a.mesh < b.mesh) || (a.mesh == b.mesh &&
    (decide (a.node < b.node) || (a.node == b.node && decide (a.slot ≤ b.slot))))

/-- R104: would a grant of `r` pass the waiting request `w`, which goes before it on one of its queues? (DEDUCED, log entry 37) -/
def ResReq.overtakenBy (w r : ResReq) : Bool := w != r && ResReq.before w r && (ResReq.queues w).any (fun q => (ResReq.queues r).contains q)

/-- R20, R52, R103: a fixed-function producer puts a tile on queues that all have room: one sequence number, one entry
reserved, filled and completed on each. The tile is sealed with that number. -/
def State.putTile (s : State) (qids : List Nat) (t : Tile) : State :=
  let r := s.takeSeq t.hdr.stream
  let t := ({ t with hdr := { t.hdr with seq := r.1 } } : Tile).sealed
  r.2.each qids (fun q s =>
    let a := s.reserve q 1
    a.2.fillEntry q (a.1.headD 0) t)

/-- The oldest committed entry that is neither claimed nor popped: its ring index. -/
def Queue.next? (q : Queue) : Option Nat :=
  ((List.range q.count).map (fun i => q.ix (q.head + i))).find?
    (fun i => !q.claims.contains i && !q.popped.contains i)

/-- The tile a ring entry points at, read physically; a length out of range takes the entry's LEN16 (R31). -/
def State.entryTile (s : State) (e : RingEntry) : Tile :=
  tileOf (s.physRead e.addr (32 + 16 * min 4096 (max (hdrOf (s.physRead e.addr 32)).len16 e.len16))) e.len16

/-- A fixed-function consumer's next tile on a queue: ring index and entry; void entries ahead of it have been popped. -/
def State.nextTile (s : State) (qid : Nat) : Option (Nat × RingEntry) × State :=
  let q := s.queue qid
  let l := (List.range q.count).map (fun i => q.ix (q.head + i))
  let l := l.filter (fun i => !q.popped.contains i)
  let voids := l.takeWhile (fun i => (s.ringEntry q i).void)
  let s' := s.each voids (fun i s => s.pop qid i)
  match (l.drop voids.length).head? with
  | none => (none, s')
  | some i => (some (i, s.ringEntry q i), s')

/-- R126, R128: the HQ block reports a status. -/
def State.hqStatus (s : State) (code : Nat) : State := s.wr F.HQ_STATUS_STATUS code

/-- R107: a source whose buffer is full omits a tile on an edge that lacks room, until its next FRAME_START. -/
def State.sourceOmit (s : State) (qid : Nat) : State :=
  let s := s.setQueue qid { s.queue qid with srcOmit := true }
  ((s.inc F.HQ_SRC_OMIT_COUNT_COUNT).hqStatus 0x0A09).irqAlways 0x0A F.HQ_STATUS_OMIT

/-- R107: would an edge take a tile of a source now? (DEDUCED, log entry 25) -/
def State.sourceTakes (s : State) (fs : Bool) (q : Nat) : Bool :=
  (!(s.queue q).srcOmit || fs) && (s.queue q).free != 0

/-- R107: a source that cannot wait puts a tile: each edge with room takes it, an edge without room omits it and the rest
of its frame; SRC_OMIT ends with the next FRAME_START. A tile no edge takes reserves nothing and takes no number.
(DEDUCED, log entry 25) -/
def State.putSource (s : State) (qids : List Nat) (t : Tile) : State :=
  let yes := qids.filter (fun q => s.sourceTakes t.hdr.fs q)
  let no := qids.filter (fun q => !s.sourceTakes t.hdr.fs q)
  let s := s.each no (fun q s => s.sourceOmit q)
  let s := s.each yes (fun q s => s.setQueue q { s.queue q with srcOmit := false })
  if yes.isEmpty then s else s.putTile yes t

/-- R107: may a source's next tile leave now: does each edge of the port have room, or omit the rest of the frame already? -/
def State.sourceMay (s : State) (qids : List Nat) (fs : Bool) : Bool :=
  qids.all (fun q => ((s.queue q).srcOmit && !fs) || (s.queue q).free != 0)

/-- R107: the tiles at the head of a source's elastic buffer leave for as long as every edge takes them; what remains. -/
def State.sourceDrain (s : State) (qids : List Nat) : List Tile → List Tile × State
  | [] => ([], s)
  | t :: l => if s.sourceMay qids t.hdr.fs then (s.putSource qids t).sourceDrain qids l else (t :: l, s)

/-- R107: a tile enters a source's elastic buffer of `cap` tiles; when the buffer is full, its oldest tile leaves and is omitted on
the edges that lack room. -/
def State.sourcePush (s : State) (qids : List Nat) (cap : Nat) (l : List Tile) (t : Tile) : List Tile × State :=
  let r := s.sourceDrain qids (l ++ [t])
  match r.1 with
  | [] => r
  | x :: rest => if r.1.length ≤ cap then r else (r.2.putSource qids x).sourceDrain qids rest

end Sys2Proof.Machine
end

