-- ==== Sys2Proof/Machine/Seals.lean ====
section
/-! DEFINITION. Checking points and their policies (R26 to R34, R524, R525), and the commands of the SEAL and CKV blocks
(R30, R34 to R44). -/

namespace Sys2Proof.Machine

/-! ### The checking point -/

/-- R34: capture a failure when the event registers are free, otherwise count it as lost. (DESIGN CHOICE, log entry 133) -/
def State.captureFailure (s : State) (mesh : Nat) (h : TileHdr) (computed code policy : Nat) (halted fill : Bool) :
    State :=
  if s.on F.SEAL_STATUS_EVT_VALID then s.inc F.SEAL_EVT_LOST_COUNT
  else
    let s := (s.wr F.SEAL_EVT_SRC_NODE mesh).wr F.SEAL_EVT_SRC_STREAM h.stream
    let s := ((s.wr F.SEAL_EVT_FRAME h.frame).wr F.SEAL_EVT_SEQ h.seq).wr F.SEAL_EVT_FOUND h.crc
    let s := ((s.wr F.SEAL_EVT_COMPUTED computed).wr F.SEAL_EVT_INFO_STATUS code).wr F.SEAL_EVT_INFO_FLAGS h.flags
    let s := ((s.wrB F.SEAL_EVT_INFO_HALTED halted).wrB F.SEAL_EVT_INFO_SUBST_FILL fill).wr F.SEAL_EVT_INFO_POLICY policy
    (s.wr F.SEAL_STATUS_EVT_VALID 1).irq 0x0D F.SEAL_STATUS_EVT_IRQ F.SEAL_CTRL_EVT_IRQ_EN

/-- The two failures of a check (R44). -/
inductive SealFail where
  | mismatch | header
  deriving DecidableEq, Repr

/-- R44: the status code of a failure. -/
def SealFail.code : SealFail → Nat
  | .mismatch => 0x0D01
  | .header => 0x0D02

/-- R32, R33, R34: count a failure and capture it, `comp` being the computed seal; a mismatch on a tile that carries SEAL_ERR only
counts as a repeat. -/
def State.countFailure (s : State) (mesh : Nat) (t : Tile) (f : SealFail) (policy : Nat) (halted fill : Bool)
    (comp : Nat := sealOf t.hdr t.payload) : State :=
  match f with
  | .header => (s.inc F.SEAL_HEADER_COUNT_COUNT).captureFailure mesh t.hdr comp f.code policy halted fill
  | .mismatch =>
    if t.hdr.flag 1 then s.inc F.SEAL_REPEAT_COUNT_COUNT
    else (s.inc F.SEAL_MISMATCH_COUNT_COUNT).captureFailure mesh t.hdr comp f.code policy halted fill

/-- R26: verify a tile's header and then, when the seal is to be checked, its seal against the computed one. -/
def verify (t : Tile) (checkSeal : Bool) (comp : Nat := sealOf t.hdr t.payload) : Option SealFail :=
  if !t.hdr.valid then some .header
  else if checkSeal && comp != t.hdr.crc then some .mismatch
  else none

/-- R35: the POLICY of a captured failure where no edge policy is applied. -/
def policyNone : Nat := 3

/-- R524: the first position of a frame. -/
def firstPos (format : Nat) : Nat × Nat := if isPicture format then (0, 0) else (0, 0xFFFF)

/-- R524: what is expected after a tile with header `h`. (DEDUCED, log entry 9) -/
def Expect.after (p : PixFmt) (h : TileHdr) : Expect :=
  let seq := (h.seq + 1) % 2 ^ 32
  if h.fe then
    { seq := seq, frame := (h.frame + 1) % 2 ^ 32, col := (firstPos p.format).1, row := (firstPos p.format).2 }
  else if isPicture p.format then
    if h.col + 1 < p.cols then { seq := seq, frame := h.frame, col := h.col + 1, row := h.row }
    else { seq := seq, frame := h.frame, col := 0, row := h.row + 1 }
  else { seq := seq, frame := h.frame, col := h.col + 1, row := h.row }

/-- R524: the expectation in force when tile `t` fails. -/
def EdgeSeal.expected (e : EdgeSeal) (p : PixFmt) (h : TileHdr) : Expect :=
  match e.expect with
  | some x => x
  | none =>
    if h.valid then { seq := h.seq, frame := h.frame, col := h.col, row := h.row }
    else { seq := 0, frame := 0, col := (firstPos p.format).1, row := (firstPos p.format).2 }

/-- R29, R525: the substitute for a failed tile, and whether it is a fill substitute. -/
def substitute (ed : Edge) (p : PixFmt) (e : EdgeSeal) (t : Tile) : Tile × Bool :=
  let x := e.expected p t.hdr
  let pic := isPicture p.format
  let stored := if x.col < p.cols then KMap.get (fun _ => none) e.store (x.row * 0x10000 + x.col) else none
  let base : TileHdr := { stream := ed.stream, format := ed.format, frame := x.frame, seq := x.seq, col := x.col, row := x.row }
  let base := base.setFlag 0 (pic && (decide (p.picW < (x.col + 1) * p.tileW) || decide (p.picH < (x.row + 1) * p.tileH)))
  let base := base.setFlag 2 true
  let base := base.setFlag 3 (decide ((x.col, x.row) = firstPos p.format))
  match stored with
  | some st =>
    let h := { base with len16 := st.hdr.len16, capSec := st.hdr.capSec, capNs := st.hdr.capNs }
    let h := (h.setFlag 6 (st.hdr.flag 6)).setFlag 5 (st.hdr.flag 5)
    let h := h.setFlag 4 (if pic then x.col + 1 == p.cols && x.row + 1 == p.rows else st.hdr.fe)
    (({ hdr := h, payload := st.payload } : Tile).sealed, false)
  | none =>
    let data := if pic then p.fillPayload ed.fill
      else List.replicate (16 * (if t.hdr.valid then t.hdr.len16 else 1)) 0
    let cap := if t.hdr.valid then (t.hdr.capSec, t.hdr.capNs, if t.hdr.flag 6 then 1 else 0)
      else e.lastCap.getD (0, 0, 0)
    let h := { base with len16 := data.length / 16, capSec := cap.1, capNs := cap.2.1 }
    let h := (h.setFlag 6 (cap.2.2 == 1)).setFlag 4 (pic && x.col + 1 == p.cols && x.row + 1 == p.rows)
    (({ hdr := h, payload := data } : Tile).sealed, true)

/-- What a checking point does with a tile (R172's OUTCOME): 0 passed, 1 marked, 2 substituted, 3 dropped. -/
structure Checked where
  outcome : Nat := 0
  tile : Tile := {}
  deriving DecidableEq, Repr

/-- R30: halt an edge. (DEDUCED, log entry 8) -/
def State.haltEdge (s : State) (q : Nat) : State :=
  let s := s.setQueue q { s.queue q with halted := true }
  let s := s.setEdgeSeal q { s.edgeSeal q with resuming := false }
  (s.inc F.SEAL_STATUS_HALTED_EDGES).irq 0x0D F.SEAL_STATUS_HALT_IRQ F.SEAL_CTRL_HALT_IRQ_EN

/-- R30: a halted edge accepts tiles again. (DEDUCED, log entry 8) -/
def State.unhaltEdge (s : State) (q : Nat) : State :=
  let s := s.setQueue q { s.queue q with halted := false }
  let s := s.setEdgeSeal q { s.edgeSeal q with resuming := false }
  s.wr F.SEAL_STATUS_HALTED_EDGES (s.rd F.SEAL_STATUS_HALTED_EDGES - 1)

/-- R524, R29: a tile passed on an edge: the expectation, the copied fields and the substitution store follow it.
(DEDUCED, log entry 9; DESIGN CHOICE, log entry 134) -/
def State.edgePassed (s : State) (ed : Edge) (p : PixFmt) (t : Tile) : State :=
  let e := s.edgeSeal ed.qid
  let store := if ed.policy = 1 then KMap.set (fun _ => none) e.store (t.hdr.row * 0x10000 + t.hdr.col) (some t) else e.store
  if ed.policy = 1 then
    s.setEdgeSeal ed.qid { e with expect := some (Expect.after p t.hdr), store := store,
                                  lastCap := some (t.hdr.capSec, t.hdr.capNs, if t.hdr.flag 6 then 1 else 0) }
  else s

/-- R28 to R33: apply the edge's policy to a tile that failed. (DEDUCED, log entry 9) -/
def State.applyPolicy (s : State) (ed : Edge) (p : PixFmt) (mesh : Nat) (t : Tile) (f : SealFail)
    (comp : Nat := sealOf t.hdr t.payload) : Checked × State :=
  match ed.policy with
  | 1 =>
    let r := substitute ed p (s.edgeSeal ed.qid) t
    let s := s.countFailure mesh t f 1 false r.2 comp
    let s := s.setEdgeSeal ed.qid { s.edgeSeal ed.qid with expect := some (Expect.after p r.1.hdr) }
    ({ outcome := 2, tile := r.1 }, s.inc F.SEAL_SUBST_COUNT_COUNT)
  | 2 =>
    let s := s.countFailure mesh t f 2 true false comp
    ({ outcome := 3, tile := t }, (s.haltEdge ed.qid).inc F.SEAL_DROP_COUNT_COUNT)
  | _ =>
    let s := s.countFailure mesh t f 0 false false comp
    match f with
    | .header => ({ outcome := 3, tile := t }, s)
    | .mismatch => ({ outcome := 1, tile := { t with hdr := t.hdr.setFlag 1 true } }, s)

/-- R26 to R34: a checking point of mesh node `mesh` takes a tile from an edge; `comp` is the seal it computed. A halted edge drops it
until a FRAME_START tile after SEAL_HALT_CLR. -/
def State.checkTile (s : State) (ed : Edge) (mesh : Nat) (t : Tile) (checkSeal : Bool)
    (comp : Nat := sealOf t.hdr t.payload) : Checked × State :=
  let p := s.pixFmt ed.prod
  if (s.queue ed.qid).halted && !((s.edgeSeal ed.qid).resuming && t.hdr.fs) then
    ({ outcome := 3, tile := t }, s.inc F.SEAL_DROP_COUNT_COUNT)
  else
    let s := if (s.queue ed.qid).halted then s.unhaltEdge ed.qid else s
    match verify t checkSeal comp with
    | some f => s.applyPolicy ed p mesh t f comp
    | none => ({ outcome := 0, tile := t }, if checkSeal then s.edgePassed ed p t else s)

/-- R31: the magazine writer checks a tile: always PASS_MARKED, nothing in the tile changes; the failure, if any.
(DEDUCED, log entry 9) -/
def State.recordCheck (s : State) (t : Tile) : Bool × State :=
  match verify t true with
  | some f => (true, s.countFailure 0x0800 t f 0 false false)
  | none => (false, s)

/-! ### SEAL commands -/

/-- The failure counters and SEAL_EVT_LOST (R35). -/
def sealCounts : List Fld :=
  [F.SEAL_MISMATCH_COUNT_COUNT, F.SEAL_HEADER_COUNT_COUNT, F.SEAL_REPEAT_COUNT_COUNT, F.SEAL_SUBST_COUNT_COUNT,
   F.SEAL_DROP_COUNT_COUNT, F.SEAL_EVT_LOST_COUNT]

/-- R30: resume a halted edge from its next FRAME_START tile. (DEDUCED, log entry 8) -/
def State.sealHaltClr (s : State) (val : Word) : State :=
  let q := F.SEAL_HALT_CLR_QID.of val
  if (s.queue q).halted then s.setEdgeSeal q { s.edgeSeal q with resuming := true } else s

/-- R35: pop the captured event. -/
def State.sealPop (s : State) (val : Word) : State :=
  if F.SEAL_EVT_POP_POP.of val = 1 then s.wr F.SEAL_STATUS_EVT_VALID 0 else s

/-- R36: clear the counts; one incremented in the same cycle reads 1. -/
def State.sealClear (s : State) (inc : BitVec 6) : State :=
  s.each (List.range 6) (fun i s => s.wr (sealCounts.getD i F.SEAL_EVT_LOST_COUNT) (if inc.getLsbD i then 1 else 0))

/-- A write of SEAL_CTRL: the enables, and CLR_COUNTS. -/
def State.sealCtrl (s : State) (val : Word) (inc : BitVec 6) : State :=
  let s := s.plainWrite F.SEAL_CTRL_CLR_COUNTS.off val
  if F.SEAL_CTRL_CLR_COUNTS.of val = 1 then s.sealClear inc else s

/-- SEAL_HALT_CLR (R30). -/
def execSealHaltClr (src : Agent) (val : Word) (s : State) : Out :=
  .next (s.writeReg src F.SEAL_HALT_CLR_QID val (fun s => s.sealHaltClr val))

/-- SEAL_EVT_POP (R35). -/
def execSealEvtPop (src : Agent) (val : Word) (s : State) : Out :=
  .next (s.writeReg src F.SEAL_EVT_POP_POP val (fun s => s.sealPop val))

/-- SEAL_CTRL with CLR_COUNTS (R35, R36). -/
def execClrCounts (src : Agent) (val : Word) (inc : BitVec 6) (s : State) : Out :=
  .next (s.writeReg src F.SEAL_CTRL_CLR_COUNTS (val ||| 4) (fun s => s.sealCtrl (val ||| 4) inc))

/-! ### CKV commands -/

/-- R38: the registers of unit `n` after its register becomes `r`. -/
def State.ckvShow (s : State) (n alg r : Nat) : State :=
  (s.wr (F.CKV_REG_REG n) r).wr (F.CKV_RESULT_RESULT n) (crcFinal alg r)

/-- R42: START takes effect. (DESIGN CHOICE, log entry 135) -/
def State.ckvBegin (s : State) (n alg fold : Nat) : State :=
  if alg = 3 then (s.wr (F.CKV_STAT_ALG_ERR n) 1).wr (F.CKV_STAT_STATUS n) 0x0E01
  else
    let s := s.setCkvUnit n { s.ckvUnit n with alg := alg }
    ((s.ckvShow n alg (crcInit alg fold)).wr (F.CKV_COUNT_BYTES n) 0).wr (F.CKV_STAT_STATUS n) 0

/-- R40: the buffered write enters an idle unit. -/
def State.ckvLoad (s : State) (n : Nat) : State :=
  let u := s.ckvUnit n
  match u.cur, u.buf with
  | [], some (.bytes b) => s.setCkvUnit n { u with cur := b, buf := none }
  | [], some (.start alg fold) => (s.setCkvUnit n { u with buf := none }).ckvBegin n alg fold
  | _, _ => s

/-- BUSY follows the bytes that remain (R38). -/
def State.ckvBusy (s : State) (n : Nat) : State :=
  let u := s.ckvUnit n
  s.wrB (F.CKV_STAT_BUSY n) (!u.cur.isEmpty || u.buf.isSome)

/-- R40: one byte is consumed; the buffer moves up when the unit is idle. -/
def State.ckvConsume (s : State) (n : Nat) : State :=
  let u := s.ckvUnit n
  match u.cur with
  | [] => (s.ckvLoad n).ckvBusy n
  | b :: t =>
    let s := s.setCkvUnit n { u with cur := t }
    let s := s.ckvShow n u.alg (crcFeed u.alg (s.rd (F.CKV_REG_REG n)) b)
    let s := s.incWrap (F.CKV_COUNT_BYTES n)
    ((s.ckvLoad n)).ckvBusy n

/-- Consume until nothing is left, at most `fuel` bytes. (DESIGN CHOICE, log entry 7) -/
def State.ckvDrain (s : State) (n : Nat) : Nat → State
  | 0 => s
  | fuel + 1 => (s.ckvConsume n).ckvDrain n fuel

/-- R40: a write that finds the buffer occupied holds the bus: bytes are consumed until the buffer frees.
(DESIGN CHOICE, log entry 7) -/
def State.ckvWaitRoom (s : State) (n : Nat) : Nat → State
  | 0 => s
  | fuel + 1 => if (s.ckvUnit n).buf.isSome then (s.ckvConsume n).ckvWaitRoom n fuel else s

/-- R40: put a write into the unit's buffer, and on into the unit when it is idle. -/
def State.ckvPut (s : State) (n : Nat) (item : CkvItem) : State :=
  let s := s.ckvWaitRoom n 8
  let s := s.setCkvUnit n { s.ckvUnit n with buf := some item }
  (s.ckvLoad n).ckvBusy n

/-- R38, R42: a write of CKV_CTRL. -/
def State.ckvCtrl (s : State) (n : Nat) (val : Word) : State :=
  let s := s.wr (F.CKV_CTRL_ALG n) ((F.CKV_CTRL_ALG n).of val)
  if (F.CKV_CTRL_START n).of val = 1 then
    s.ckvPut n (.start ((F.CKV_CTRL_ALG n).of val) (s.rd (F.CKV_FOLD_FOLD n)))
  else s

/-- R39: a write of CKV_DATA at byte `lane` feeds its bytes in ascending address order; a misplaced one, or one while
ALG_ERR is set, is discarded. -/
def State.ckvData (s : State) (n lane : Nat) (size : Size) (val : Word) : State :=
  if lane % size.len ≠ 0 then s
  else
    let s := s.ckvWaitRoom n 8
    if s.on (F.CKV_STAT_ALG_ERR n) then s else s.ckvPut n (.bytes (leBytes size.len val.toNat))

/-- CKV_CTRL.START (R42). -/
def execCkvStart (src : Agent) (unit : Fin 4) (val : Word) (s : State) : Out :=
  .next (s.writeReg src (F.CKV_CTRL_START unit) (val ||| 0x100) (fun s => s.ckvCtrl unit (val ||| 0x100)))

/-- CKV_DATA (R39, R40, R43). -/
def execCkvDataWrite (src : Agent) (unit lane : Fin 4) (size : Size) (val : Word) (s : State) : Out :=
  .next (s.write src ((F.CKV_DATA_DATA unit).off + lane) size val (fun s => s.ckvData unit lane size val))

/-- A unit consumes one byte (R40). -/
def execCkvByteConsumed (unit : Fin 4) (s : State) : Out := .next (s.ckvConsume unit)

/-- A read of CKV_RESULT, CKV_REG or CKV_COUNT covers every earlier byte (R41). -/
def execCkvResultRead (unit : Fin 4) (which : Fin 3) (s : State) : Out :=
  let s := s.ckvDrain unit 10
  let f := match which with
    | 0 => F.CKV_RESULT_RESULT unit
    | 1 => F.CKV_REG_REG unit
    | 2 => F.CKV_COUNT_BYTES unit
  .next (s.setReadData (leBytes 4 (s.rd f)))

/-- Writes of the SEAL block by offset. -/
def State.sealRegWrite (s : State) (o : Nat) (val : Word) : State :=
  if o = 0x000 then s.sealCtrl val 0
  else if o = 0x038 then s.sealPop val
  else if o = 0x044 then s.sealHaltClr val
  else s.plainWrite (blockBase 0x0D + o) val

/-- Writes of the CKV block by offset and size. -/
def State.ckvRegWrite (s : State) (o : Nat) (size : Size) (val : Word) : State :=
  let n := o / 0x40
  let r := o % 0x40
  if 4 ≤ n then s
  else if 0x08 ≤ r ∧ r < 0x0C then s.ckvData n (r - 8) size val
  else if size ≠ .word then s
  else if r = 0x00 then s.ckvCtrl n val
  else s.plainWrite (blockBase 0x0E + o) val

end Sys2Proof.Machine
end

