-- ==== Sys2Proof/Machine/Audio.lean ====
section
/-! DEFINITION. Audio ports (R373 to R390): sample periods and their schedule, receive and transmit tiles, zero crossings,
non-audio payload, clock loss, alignment groups and enabling. -/

namespace Sys2Proof.Machine

/-- An audio port. -/
def State.audPort (s : State) (p : Nat) : AudPort := KMap.get (fun _ => {}) s.aud p

/-- Replace an audio port. -/
def State.setAudPort (s : State) (p : Nat) (v : AudPort) : State := s.setAud (KMap.set (fun _ => {}) s.aud p v)

/-- R389, R390: a port reports a status. -/
def State.audReport (s : State) (p code : Nat) : State :=
  let s := (s.wr (F.AUD_P_STATUS_STATUS p) code).wr F.AUD_STATUS_STATUS code
  if code = 0x1B02 then s.irq 0x1B (F.AUD_P_STATUS_UNDERRUN_IRQ p) (F.AUD_P_IRQ_EN_UNDERRUN p)
  else if code = 0x1B07 then s.irq 0x1B (F.AUD_P_STATUS_NA_IRQ p) (F.AUD_P_IRQ_EN_NA p)
  else s.irq 0x1B (F.AUD_P_STATUS_ERR_IRQ p) (F.AUD_P_IRQ_EN_ERR p)

/-- R389: fs in Hz of a code; 0 where there is none. -/
def audFs (code : Nat) : Nat :=
  match code with
  | 0 => 32000 | 1 => 44100 | 2 => 48000 | 3 => 88200 | 4 => 96000 | 5 => 176400 | 6 => 192000 | _ => 0

/-- A port's sample rate. -/
def State.fsOf (s : State) (p : Nat) : Nat := audFs (s.rd (F.AUD_P_CTRL_FS p))

/-- R389: bits of a width code. -/
def audWidth (code : Nat) : Nat :=
  match code with
  | 0 => 16 | 1 => 20 | 2 => 24 | _ => 32

/-- R374: may the port be enabled with a value of AUD_P_CTRL? -/
def State.audOk (s : State) (p : Nat) (val : Word) : Bool :=
  let fs := audFs ((F.AUD_P_CTRL_FS p).of val)
  let slots := s.rd (F.AUD_P_FMT_SLOTS p)
  let w := audWidth (s.rd (F.AUD_P_FMT_SLOT_WIDTH p))
  let fmt := s.rd (F.AUD_P_FMT_FS_FORMAT p)
  fs != 0 && decide (1 ≤ slots) && decide (slots ≤ 32) && decide (fs * slots * w ≤ 49152000) &&
    decide (audWidth (s.rd (F.AUD_P_FMT_DATA_WIDTH p)) ≤ w) && decide (fmt ≤ 1) && !(fmt == 1 && slots * w % 2 == 1)

/-! ### Nodes (R51, R375) -/

/-- The active node of a port and direction: 0 receive, 1 transmit. -/
def State.audNode (s : State) (p dir : Nat) : Option Node :=
  s.image.nodes.find? (fun n => n.kind == 8 && n.res % 256 == p && n.res / 256 % 256 == dir)

/-- R375: the slots of a node, ascending. -/
def Node.slots (n : Node) : List Nat := (List.range 32).filter (fun k => n.par 0 4 / 2 ^ k % 2 == 1)

/-- R375: sample periods per tile. -/
def Node.periods (n : Node) : Nat := n.par 4 2

/-! ### Channels (R384) -/

/-- A transmit channel. -/
def AudPort.chan (v : AudPort) (k : Nat) : AudChan := KMap.get (fun _ => {}) v.chans k

/-- Replace a transmit channel. -/
def AudPort.setChan (v : AudPort) (k : Nat) (c : AudChan) : AudPort := { v with chans := KMap.set (fun _ => {}) v.chans k c }

/-- R384: a request to mute or unmute channels; it replaces one that still waits. -/
def AudPort.request (v : AudPort) (slots : List Nat) (mute : Bool) : AudPort :=
  { slots.foldl (fun v k =>
      let c := v.chan k
      v.setChan k { c with pend := if c.muted = mute then none else some mute, waited := 0 }) v with zcSaid := false }

/-- R379, R387: channels muted at once. -/
def AudPort.muteNow (v : AudPort) (slots : List Nat) : AudPort :=
  slots.foldl (fun v k => v.setChan k { v.chan k with muted := true, pend := none, waited := 0 }) v

/-- R384: is a sample a zero crossing? (DEDUCED, log entry 79) -/
def zeroCross (x prev : Nat) : Bool := x == 0 || (decide (2 ^ 31 ≤ x) != decide (2 ^ 31 ≤ prev))

/-- R384: a channel at a sample period with sample `x`. (DEDUCED, log entry 79) -/
def AudChan.step (c : AudChan) (x tmo : Nat) : AudChan :=
  match c.pend with
  | some m => if zeroCross x c.prev ∨ tmo = 0 then { c with muted := m, pend := none, waited := 0, prev := x }
    else { c with waited := c.waited + 1, prev := x }
  | none => { c with prev := x }

/-- All slots of a port. -/
def allSlots : List Nat := List.range 32

/-! ### Non-audio (R385) -/

/-- R385: the pairs of a list of containers by slot that carry the preambles. -/
def preambles (x : List Nat) : List Nat :=
  (List.range 16).filter (fun k => x.getD (2 * k) 0 / 65536 == 0xF872 && x.getD (2 * k + 1) 0 / 65536 == 0x4E1F)

/-- R385: the non-audio counts after a sample period. -/
def naStep (m : KMap Nat) (x : List Nat) : KMap Nat :=
  (List.range 16).foldl (fun m k =>
    KMap.set (fun _ => 0) m k (if (preambles x).contains k then 16384 else KMap.get (fun _ => 0) m k - 1)) m

/-- The pairs that carry non-audio. -/
def naPairs (m : KMap Nat) : List Nat := m.map (fun e => e.1)

/-- R385: AUD_P_NA follows; a pair that becomes non-audio is reported. -/
def State.noteNa (s : State) (p : Nat) : State :=
  let v := s.audPort p
  let now := (List.range 16).filter (fun k => (naPairs v.naRx).contains k || (naPairs v.naTx).contains k)
  let was := s.rd (F.AUD_P_NA_PAIRS p)
  let s := s.wr (F.AUD_P_NA_PAIRS p) (now.foldl (fun a k => a + 2 ^ k) 0)
  if now.any (fun k => was / 2 ^ k % 2 == 0) then s.audReport p 0x1B07 else s

/-! ### Sample periods (R378 to R383) -/

/-- R381: the enabled group a port is in. -/
def State.audGroup (s : State) (p : Nat) : Option Nat :=
  (List.range 4).find? (fun g => s.on (F.AUD_GROUP_EN g) && s.rd (F.AUD_GROUP_MASK g) / 2 ^ p % 2 == 1)

/-- R381: the leader whose frame sync a port follows. -/
def State.audLeader (s : State) (p : Nat) : Option Nat :=
  match s.audGroup p with
  | none => none
  | some g =>
    if s.on (F.AUD_GROUP_LEADER_SLAVE g) ∧ s.rd (F.AUD_GROUP_LEADER g) ≠ p then some (s.rd (F.AUD_GROUP_LEADER g)) else none

/-- R378: when master period `n` begins, in ns. (DESIGN CHOICE, log entry 78) -/
def audSched (fs : Nat) (n : Int) : Int := (n * 1000000000 + (fs - 1 : Nat)) / (fs : Int)

/-- R378: the first master period after time `t`. -/
def audFirst (fs : Nat) (t : Int) : Int := t * fs / 1000000000 + 1

/-- R378, R380, R381, R387: the timestamp at which the port's next sample period begins, none when it has not come.
(DESIGN CHOICE, log entry 78) -/
def State.periodTime (s : State) (p : Nat) : Option Int :=
  let v := s.audPort p
  match s.audLeader p with
  | some l => if (s.audPort l).running && (!v.running || decide (v.cur < (s.audPort l).cur)) then some (s.audPort l).cur else none
  | none =>
    if s.on (F.AUD_P_CTRL_CLK_MODE p) then
      (if s.on (F.AUD_P_STATUS_HOLDOVER p) && v.running then
         some (v.cur + (1000000000 * 1000000 : Nat) / (s.fsOf p * (1000000 + signed 16 (s.rd (F.AUD_P_CLK_PPM p)))))
       else some s.timestamp)
    else
      let n := if v.running then v.next else audFirst (s.fsOf p) s.timestamp - 1
      let t := audSched (s.fsOf p) n + v.phase
      if v.running ∧ s.timestamp < t then none else some t

/-- R382: how many periods after the current one the sample of time `t` belongs to. (DESIGN CHOICE, log entry 78) -/
def AudPort.periodOf (v : AudPort) (fs : Nat) (t : Int) : Int := ((t - v.cur) * fs * 2 + 1000000000) / 2000000000

/-- R379: one period's share of a slew. (DESIGN CHOICE, log entry 78) -/
def slewStep (fs : Nat) (bits : Nat) (ph : Int) : Int :=
  let k : Int := (1000000 / fs : Nat)
  if ph.natAbs * fs * bits ≤ 1000000000 then 0 else if 0 < ph then ph - min ph k else ph + min (-ph) k

/-- R107, R377: complete receive tiles leave the elastic buffer as the edges find room. -/
def State.audDrain (s : State) (p : Nat) : State :=
  match s.audNode p 0 with
  | none => s
  | some n =>
    let r := s.sourceDrain (s.portQueues n.id 0) (s.audPort p).rxOut
    r.2.setAudPort p { s.audPort p with rxOut := r.1 }

/-- R377: the receive direction takes a period's samples `x` (containers by slot). -/
def State.audReceive (s : State) (p : Nat) (x : List Nat) (shut : Bool) : State :=
  match s.audNode p 0 with
  | none => s
  | some n =>
    let v := s.audPort p
    if v.rxN = 0 ∧ shut then s
    else
      let s := if v.rxN = 0 then s.maybeSwitch n.id true else s
      let b := n.slots.flatMap (fun k => leBytes 4 (x.getD k 0))
      let v := if v.rxN = 0 then { v with rxAt := v.cur, rxHold := s.inHoldover } else v
      let v := { v with rx := v.rx ++ b, rxN := v.rxN + 1 }
      if v.rxN < n.periods then s.setAudPort p v
      else
        let h : TileHdr := { stream := n.stream, frame := v.rxFrame, row := 0xFFFF, format := 0x0410,
                             capSec := tsSec v.rxAt % 2 ^ 32, capNs := tsNs v.rxAt }
        let h := ((h.setFlag 3 true).setFlag 4 true).setFlag 6 v.rxHold
        let r := s.sourcePush (s.portQueues n.id 0) 4 v.rxOut (Tile.withPayload h v.rx)
        r.2.setAudPort p { v with rx := [], rxN := 0, rxFrame := (v.rxFrame + 1) % 2 ^ 32, rxOut := r.1 }

/-- R382 to R385: the transmit direction at a sample period. -/
def State.audSend (s : State) (p : Nat) : State :=
  let v := s.audPort p
  let fs := s.fsOf p
  let slots := (List.range (s.rd (F.AUD_P_FMT_SLOTS p)))
  let sel := ((s.audNode p 1).map Node.slots).getD []
  let hit := v.samples.find? (fun e => v.periodOf fs e.1 == 0)
  let stale := (v.samples.filter (fun e => decide (v.periodOf fs e.1 < 0))).length
  let x : List Nat := allSlots.map (fun k => match hit with
    | some e => if slots.contains k then ((sel.zip e.2).find? (fun q => q.1 == k)).map (fun q => q.2) |>.getD 0 else 0
    | none => 0)
  let s := if stale = 0 then s else s.inc (F.AUD_P_LATE_COUNT p) stale
  let under := v.tx && hit.isNone
  let s := if under && !v.underrun then (s.inc (F.AUD_P_UNDERRUN_COUNT p)).audReport p 0x1B02 else s
  let was := naPairs v.naTx
  let na := naStep v.naTx x
  let mute := s.on (F.AUD_P_CTRL_NA_MUTE p)
  let v := allSlots.foldl (fun v k => v.setChan k ((v.chan k).step (x.getD k 0) (s.rd (F.AUD_P_CTRL_ZC_TMO p)))) v
  let ended := (was.filter (fun k => !(naPairs na).contains k)).flatMap (fun k => [2 * k, 2 * k + 1])
  let v := if mute ∧ !ended.isEmpty then
      let w := v.muteNow ended
      if s.on (F.AUD_P_CTRL_TX_MUTE p) || s.on (F.AUD_P_STATUS_SHUTTING_DOWN p) then w else w.request ended false
    else v
  let hold := s.on (F.AUD_P_STATUS_HOLDOVER p)
  let dw := audWidth (s.rd (F.AUD_P_FMT_DATA_WIDTH p))
  let out := slots.map (fun k =>
    if hold || (v.chan k).muted || (mute && (naPairs na).contains (k / 2)) then 0
    else x.getD k 0 / 2 ^ (32 - dw) * 2 ^ (32 - dw))
  s.setAudPort p { v with naTx := na, dout := out, underrun := under,
                          samples := v.samples.filter (fun e => decide (0 < v.periodOf fs e.1)) }

/-- R388: a shutdown ends when the transmit channels are mute and the receive tile is complete. -/
def State.audStopped (s : State) (p : Nat) : Bool :=
  let v := s.audPort p
  (s.rd (F.AUD_P_STATUS_SHUTTING_DOWN p) != 0) && v.rxN == 0 &&
    (!v.tx || allSlots.all (fun k => (v.chan k).muted))

/-- R388, R389: EN takes effect: the counters are cleared, the port starts muted and unmutes at zero crossings. -/
def State.audBegin (s : State) (p : Nat) : State :=
  let s := s.each (List.range 6) (fun i s => s.wr ⟨(F.AUD_P_UNDERRUN_COUNT p).off + 4 * i, 0, 32⟩ 0)
  let v : AudPort := { s.audPort p with running := false, phase := 0, rx := [], rxN := 0, samples := [], underrun := false,
                                        chans := [], naRx := [], naTx := [], tx := (s.audNode p 1).isSome }
  let s := ((s.wr (F.AUD_P_STATUS_SLEWING p) 0).wr (F.AUD_P_STATUS_HOLDOVER p) 0).wr (F.AUD_P_NA_PAIRS p) 0
  s.setAudPort p (if s.on (F.AUD_P_CTRL_TX_MUTE p) then v else v.request allSlots false)

/-- R388: the port stops; EN set meanwhile starts it again. -/
def State.audStop (s : State) (p : Nat) : State :=
  let s := (s.wr (F.AUD_P_STATUS_SHUTTING_DOWN p) 0).setAudPort p { s.audPort p with running := false, dout := [], samples := [] }
  if s.on (F.AUD_P_STATUS_PENDING_ENABLE p) then (s.wr (F.AUD_P_STATUS_PENDING_ENABLE p) 0).audBegin p else s

/-- R378 to R388: a sample period begins; `din` are the slots received in it, as 32-bit containers. -/
def State.samplePeriod (s : State) (p : Nat) (din : List Word) : State :=
  let s := s.audDrain p
  let shut := s.on (F.AUD_P_STATUS_SHUTTING_DOWN p)
  if !s.on (F.AUD_P_CTRL_EN p) && !shut then s
  else
    match s.periodTime p with
    | none => s
    | some t =>
      let v := s.audPort p
      let fs := s.fsOf p
      let slots := s.rd (F.AUD_P_FMT_SLOTS p)
      let next := if v.running then v.next + 1 else audFirst fs s.timestamp
      let ph := slewStep fs (slots * audWidth (s.rd (F.AUD_P_FMT_SLOT_WIDTH p))) v.phase
      let s := s.setAudPort p { v with running := true, cur := t, next := next, phase := ph }
      let s := if ph = 0 then s.wr (F.AUD_P_STATUS_SLEWING p) 0 else s
      let hold := s.on (F.AUD_P_STATUS_HOLDOVER p)
      let s := if hold then s.inc (F.AUD_P_HOLD_PERIODS_COUNT p) else s
      let dw := audWidth (s.rd (F.AUD_P_FMT_DATA_WIDTH p))
      let raw := allSlots.map (fun k => if k < slots then (din.getD k 0).toNat / 2 ^ (32 - dw) * 2 ^ (32 - dw) else 0)
      let na := naStep v.naRx raw
      let s := s.setAudPort p { s.audPort p with naRx := na }
      let mute := s.on (F.AUD_P_CTRL_NA_MUTE p)
      let x := allSlots.map (fun k => if hold || (mute && (naPairs na).contains (k / 2)) then 0 else raw.getD k 0)
      let s := ((s.audReceive p x shut).audSend p).noteNa p
      if s.audStopped p then s.audStop p else s

/-- R382, R377: a transmit port takes its next tile, up to 8,192 sample periods ahead. (DESIGN CHOICE, log entry 78) -/
def State.audTake (s : State) (p : Nat) : State :=
  match s.audNode p 1 with
  | none => s
  | some n =>
    match s.image.inEdge n.id 0 with
    | none => s
    | some ed =>
      let v := s.audPort p
      if !v.running then s
      else
        let x := s.nextTile ed.qid
        match x.1 with
        | none => x.2
        | some (i, e) =>
          let t := x.2.entryTile e
          let r := (x.2.maybeSwitch n.id t.hdr.fs).checkTile ed (0x0700 + p) t true
          let ch := n.slots.length
          let fs := s.fsOf p
          if r.1.outcome = 3 then r.2.pop ed.qid i
          else
            let t := r.1.tile
            if t.hdr.len16 ≠ ceilDiv (n.periods * ch * 4) 16 then
              ((r.2.inc (F.AUD_P_LEN_DROP_COUNT p)).audReport p 0x1B03).pop ed.qid i
            else
              let c := s.capTime t.hdr.capSec t.hdr.capNs + n.par 8 4
              let time (j : Nat) : Int := c + (j * 1000000000 / fs : Nat)
              if 8192 < v.periodOf fs (time (n.periods - 1)) then x.2
              else
                let add (a : List (Int × List Nat) × Nat) (j : Nat) : List (Int × List Nat) × Nat :=
                  let k := v.periodOf fs (time j)
                  if k ≤ 0 ∨ a.1.any (fun e => v.periodOf fs e.1 == k) then (a.1, a.2 + 1)
                  else (a.1 ++ [(time j, (List.range ch).map (fun q => leAt t.payload ((j * ch + q) * 4) 4))], a.2)
                let a := (List.range n.periods).foldl add (v.samples, 0)
                let s := if a.2 = 0 then r.2 else r.2.inc (F.AUD_P_LATE_COUNT p) a.2
                (s.setAudPort p { v with samples := a.1 }).pop ed.qid i

/-! ### Pins (R373, R378) -/

/-- R373: the bit clocks of a sample period. -/
def State.audBits (s : State) (p : Nat) : Nat := s.rd (F.AUD_P_FMT_SLOTS p) * audWidth (s.rd (F.AUD_P_FMT_SLOT_WIDTH p))

/-- R373: DOUT in the `k`-th bit clock after slot 0 begins: DATA_WIDTH bits of each slot, most significant first, then 0. -/
def State.audDout (s : State) (p k : Nat) : Bool :=
  let w := audWidth (s.rd (F.AUD_P_FMT_SLOT_WIDTH p))
  let i := k % w
  decide (i < audWidth (s.rd (F.AUD_P_FMT_DATA_WIDTH p))) && ((s.audPort p).dout.getD (k / w) 0).testBit (31 - i)

/-- R373: the bit clock after the active frame-sync edge in which that bit is sent: slot 0 begins OFFSET bit clocks after it. -/
def State.audBitClock (s : State) (p k : Nat) : Nat := s.rd (F.AUD_P_FMT_OFFSET p) + k

/-- R373: the level of the frame sync in bit clock `b` of a sample period: active in the first one, or in the first half. -/
def State.audFsLevel (s : State) (p b : Nat) : Bool :=
  let active := if s.rd (F.AUD_P_FMT_FS_FORMAT p) = 0 then b == 0 else decide (2 * b < s.audBits p)
  active != s.on (F.AUD_P_FMT_FS_POL p)

/-- R373: is data launched on the rising edge of BCLK, and so sampled on the falling one? -/
def State.audLaunchRises (s : State) (p : Nat) : Bool := s.on (F.AUD_P_FMT_BCLK_EDGE p)

/-- R378, R380: the frequency of AUDn_MCLK, 0 while it is not driven. -/
def State.audMclk (s : State) (p : Nat) : Nat :=
  let fs := s.fsOf p
  if !s.on (F.AUD_P_CTRL_MCLK_EN p) || s.on (F.AUD_P_CTRL_CLK_MODE p) then 0
  else if fs ≤ 48000 then 256 * fs else if fs ≤ 96000 then 128 * fs else 64 * fs

/-! ### Steps and clock loss (R379, R386, R387) -/

/-- R379: the reading steps by `d` ns; each running master port slews or resynchronises. -/
def State.audStep (s : State) (d : Int) : State :=
  s.each (List.range 4) (fun p s =>
    let v := s.audPort p
    if !v.running || s.on (F.AUD_P_CTRL_CLK_MODE p) || (s.audLeader p).isSome || d == 0 then s
    else if d.natAbs * s.fsOf p ≤ 1000000000 then
      (s.setAudPort p { v with phase := v.phase + d }).wr (F.AUD_P_STATUS_SLEWING p) 1
    else
      let v := { v.muteNow allSlots with phase := 0, next := audFirst (s.fsOf p) s.timestamp }
      let v := if s.on (F.AUD_P_CTRL_TX_MUTE p) || s.on (F.AUD_P_STATUS_SHUTTING_DOWN p) then v else v.request allSlots false
      ((s.setAudPort p v).wr (F.AUD_P_STATUS_SLEWING p) 0).audReport p 0x1B08)

/-- R386, R387: what a slave port's clock monitor finds: no edge for 4 periods, or a window's mean offset and glitches.
(DEDUCED, log entry 79) -/
def State.audClock (s : State) (p : Nat) (lost : Bool) (ppm : Int) (glitches : Nat) : State :=
  if !s.on (F.AUD_P_CTRL_CLK_MODE p) then s
  else
    let s := s.inc (F.AUD_P_GLITCH_COUNT p) glitches
    let clk := if lost then 0
      else if 1000 < ppm.natAbs ∨ s.rd (F.AUD_P_CLK_GLITCH_LIMIT p) < glitches then 1 else 2
    let was := s.rd (F.AUD_P_STATUS_CLK p)
    let s := if lost then s else s.wr (F.AUD_P_CLK_PPM p) (max (-32768) (min 32767 ppm) % 65536).toNat
    if clk = was then s
    else
      let s := (s.wr (F.AUD_P_STATUS_CLK p) clk).irq 0x1B (F.AUD_P_STATUS_CLK_IRQ p) (F.AUD_P_IRQ_EN_CLK p)
      let v := s.audPort p
      if clk = 2 then
        let unmute := s.on (F.AUD_P_STATUS_HOLDOVER p) && !s.on (F.AUD_P_CTRL_TX_MUTE p) && !s.on (F.AUD_P_STATUS_SHUTTING_DOWN p)
        (s.setAudPort p (if unmute then (v.muteNow allSlots).request allSlots false else v)).wr (F.AUD_P_STATUS_HOLDOVER p) 0
      else
        let s := s.audReport p (if clk = 0 then 0x1B05 else 0x1B04)
        if was = 2 ∧ v.running then (s.setAudPort p (v.muteNow allSlots)).wr (F.AUD_P_STATUS_HOLDOVER p) 1 else s

/-! ### Register writes (R374, R381, R384, R388) -/

/-- R381: do the enabled groups keep their rules? (DEDUCED, log entry 79) -/
def State.groupsOk (s : State) : Bool :=
  let ports (g : Nat) : List Nat := (List.range 4).filter (fun p => s.rd (F.AUD_GROUP_MASK g) / 2 ^ p % 2 == 1)
  let on := (List.range 4).filter (fun g => s.on (F.AUD_GROUP_EN g))
  on.all (fun g =>
    let lead := s.rd (F.AUD_GROUP_LEADER g)
    (ports g).contains lead &&
      (ports g).all (fun p => s.rd (F.AUD_P_CTRL_FS p) == s.rd (F.AUD_P_CTRL_FS lead) &&
        (!s.on (F.AUD_P_CTRL_CLK_MODE p) || (p == lead && s.on (F.AUD_GROUP_LEADER_SLAVE g))) &&
        on.all (fun h => h == g || !(ports h).contains p)))

/-- R381: a write of AUD_GROUP_g. -/
def State.audGroupWrite (s : State) (g : Nat) (val : Word) : State :=
  let t := s.plainWrite (F.AUD_GROUP_EN g).off val
  let mask := s.rd (F.AUD_GROUP_MASK g) ||| t.rd (F.AUD_GROUP_MASK g)
  if (List.range 4).any (fun p => mask / 2 ^ p % 2 == 1 && s.on (F.AUD_P_CTRL_EN p)) ∨ !t.groupsOk then
    s.wr F.AUD_STATUS_STATUS 0x1B01
  else t

/-- R388: is the port idle: EN and SHUTTING_DOWN both clear? -/
def State.audIdle (s : State) (p : Nat) : Bool := !s.on (F.AUD_P_CTRL_EN p) && !s.on (F.AUD_P_STATUS_SHUTTING_DOWN p)

/-- R374, R384, R388: a write of AUD_P_CTRL. (DEDUCED, log entry 79) -/
def State.audCtrl (s : State) (p : Nat) (val : Word) : State :=
  let was := s.on (F.AUD_P_CTRL_EN p)
  let en := (F.AUD_P_CTRL_EN p).of val == 1
  let mute := (F.AUD_P_CTRL_TX_MUTE p).of val == 1
  let muted := s.on (F.AUD_P_CTRL_TX_MUTE p)
  let same := (F.AUD_P_CTRL_FS p).of val == s.rd (F.AUD_P_CTRL_FS p) &&
    (F.AUD_P_CTRL_CLK_MODE p).of val == s.rd (F.AUD_P_CTRL_CLK_MODE p)
  let t := s.plainWrite (F.AUD_P_CTRL_EN p).off val
  if (!same && !s.audIdle p) || (!same && !t.groupsOk) || (en && !was && !s.audOk p val) then s.audReport p 0x1B01
  else
    let s := t
    let s := if mute != muted && !s.on (F.AUD_P_STATUS_SHUTTING_DOWN p) then s.setAudPort p ((s.audPort p).request allSlots mute) else s
    if en && !was then
      (if s.on (F.AUD_P_STATUS_SHUTTING_DOWN p) then s.wr (F.AUD_P_STATUS_PENDING_ENABLE p) 1 else s.audBegin p)
    else if !en && was then
      let s := s.wr (F.AUD_P_STATUS_PENDING_ENABLE p) 0
      if (s.audPort p).running then
        (s.setAudPort p ((s.audPort p).request allSlots true)).wr (F.AUD_P_STATUS_SHUTTING_DOWN p) 1
      else s
    else s

/-- R384: ZC_TMO expires for a channel: it switches anyway. -/
def State.zcTimeout (s : State) (p k : Nat) : State :=
  let v := s.audPort p
  let c := v.chan k
  match c.pend with
  | none => s
  | some m =>
    if c.waited < s.rd (F.AUD_P_CTRL_ZC_TMO p) then s
    else
      let s := (s.setAudPort p { v.setChan k { c with muted := m, pend := none, waited := 0 } with zcSaid := true }).inc
        (F.AUD_P_ZC_TMO_COUNT p)
      if v.zcSaid then s else s.audReport p 0x1B06

/-! ### The node (R375, R388) -/

/-- R375: an AUD_PORT node becomes active. -/
def State.audStart (s : State) (n : Node) : State :=
  let p := n.res % 256
  let v := s.audPort p
  if n.res / 256 % 256 = 0 then
    let s := s.setAudPort p { v with rx := [], rxN := 0, rxFrame := n.par 8 4 }
    s.setHq { s.hq with seqs := KMap.set (fun _ => 0) s.hq.seqs n.stream (n.par 12 4) }
  else s.setAudPort p { v with tx := true, samples := [] }

/-- R388: an AUD_PORT node is removed; its port keeps running without it. -/
def State.audNodeStop (s : State) (n : Node) : State :=
  let p := n.res % 256
  let v := s.audPort p
  if n.res / 256 % 256 = 0 then
    (s.inc F.STR_DROP_COUNT_COUNT ((if v.rxN = 0 then 0 else 1) + v.rxOut.length)).setAudPort p { v with rx := [], rxN := 0, rxOut := [] }
  else s.setAudPort p { v with samples := [] }

/-! ### Commands -/

/-- SAMPLE_PERIOD (R376 to R388). -/
def execSamplePeriod (port : Fin 4) (din : List Word) (s : State) : Out := .next (s.samplePeriod port din)

/-- AUD_TX_TILE (R377, R382). -/
def execAudTxTile (port : Fin 4) (s : State) : Out := .next (s.audTake port)

/-- AUD_PORT_ENABLE: a write of AUD_P_CTRL (R374, R388). -/
def execAudPortEnable (src : Agent) (port : Fin 4) (val : Word) (s : State) : Out :=
  .next (s.writeReg src (F.AUD_P_CTRL_EN port) val (fun s => s.audCtrl port val))

/-- TX_MUTE: a write of AUD_P_CTRL that sets or clears TX_MUTE (R384). -/
def execTxMute (src : Agent) (port : Fin 4) (val : Word) (s : State) : Out :=
  .next (s.writeReg src (F.AUD_P_CTRL_TX_MUTE port) val (fun s => s.audCtrl port val))

/-- ZC_TIMEOUT (R384). -/
def execZcTimeout (port : Fin 4) (slot : Fin 32) (s : State) : Out := .next (s.zcTimeout port slot)

/-- AUD_CLOCK_CHANGE (R386, R387). -/
def execAudClockChange (port : Fin 4) (lost : Bool) (ppm : Int) (glitches : Nat) (s : State) : Out :=
  .next (s.audClock port lost ppm glitches)

/-- AUD_GROUP_WRITE (R381). -/
def execAudGroupWrite (src : Agent) (group : Fin 4) (val : Word) (s : State) : Out :=
  .next (s.writeReg src (F.AUD_GROUP_EN group) val (fun s => s.audGroupWrite group val))

/-- Writes of the AUD block by offset. -/
def State.audRegWrite (s : State) (o : Nat) (val : Word) : State :=
  let off := blockBase 0x1B + o
  if 0x10 ≤ o ∧ o < 0x20 then s.audGroupWrite ((o - 0x10) / 4) val
  else if 0x100 ≤ o ∧ o < 0x300 ∧ o % 0x80 = 0 then s.audCtrl ((o - 0x100) / 0x80) val
  else if 0x100 ≤ o ∧ o < 0x300 ∧ o % 0x80 = 4 then
    (if s.audIdle ((o - 0x100) / 0x80) then s.plainWrite off val else s.audReport ((o - 0x100) / 0x80) 0x1B01)
  else s.plainWrite off val

end Sys2Proof.Machine
end

