-- ==== Sys2Proof/Machine/LaneCode.lean ====
section
/-! DEFINITION. The 8b/10b receiver of a sensor lane (R189, R190): which code groups are in the code at a running disparity, and
what a code error is. The spec names the code and its control groups; the code tables are the published ones. -/

namespace Sys2Proof.Machine

/-- The 6-bit sub-blocks of data 0 to 31 at negative disparity, the first bit on the line as the most significant.
(PRESUMED, log entry 141) -/
def sub6 : List Nat :=
  [0b100111, 0b011101, 0b101101, 0b110001, 0b110101, 0b101001, 0b011001, 0b111000, 0b111001, 0b100101, 0b010101, 0b110100, 0b001101,
   0b101100, 0b011100, 0b010111, 0b011011, 0b100011, 0b010011, 0b110010, 0b001011, 0b101010, 0b011010, 0b111010, 0b110011, 0b100110,
   0b010110, 0b110110, 0b001110, 0b101110, 0b011110, 0b101011]

/-- The 4-bit sub-blocks of data 0 to 7 at negative disparity; the alternate form of 7 follows. (PRESUMED, log entry 141) -/
def sub4 : List Nat := [0b1011, 0b1001, 0b0101, 0b1100, 0b1101, 0b1010, 0b0110, 0b1110, 0b0111]

/-- The control groups of R189 at negative disparity: K28.5, K27.7, K29.7, K23.7 and K28.3. (PRESUMED, log entry 141) -/
def ctlGroups : List Nat := [0b0011111010, 0b1101101000, 0b1011101000, 0b1110101000, 0b0011110011]

/-- The ones among the low `n` bits of a number. -/
def onesOf : Nat → Nat → Nat
  | 0, _ => 0
  | n + 1, v => v % 2 + onesOf n (v / 2)

/-- The running disparity after a block of `n` bits: more ones make it positive, fewer negative. -/
def dispAfter (n v : Nat) (rd : Bool) : Bool :=
  if n < 2 * onesOf n v then true else if 2 * onesOf n v < n then false else rd

/-- A sub-block of `n` bits at a disparity: it is inverted at positive disparity when it is unbalanced, or is one of the two balanced
blocks that alternate. -/
def atDisp (n : Nat) (alt : Nat) (v : Nat) (rd : Bool) : Nat :=
  if rd && (2 * onesOf n v != n || v == alt) then 2 ^ n - 1 - v else v

/-- Which form of data 7 a data group uses after the 6-bit sub-block of `x`: the alternate one avoids a run of five.
(PRESUMED, log entry 141) -/
def usesAlt (x : Nat) (rd : Bool) : Bool := if rd then [11, 13, 14].contains x else [17, 18, 20].contains x

/-- R190: is a group, the first bit on the line as its most significant, a data group at this disparity? -/
def dataGroup (v : Nat) (rd : Bool) : Bool :=
  let six := v / 16
  let four := v % 16
  (List.range 32).any (fun x =>
    atDisp 6 0b111000 (sub6.getD x 0) rd == six &&
      (let rd' := dispAfter 6 six rd
       (List.range 8).any (fun y =>
         atDisp 4 0b1100 (sub4.getD (if y = 7 ∧ usesAlt x rd' then 8 else y) 0) rd' == four)))

/-- R189: is it one of the control groups in use, at this disparity? -/
def ctlGroup (v : Nat) (rd : Bool) : Bool := ctlGroups.any (fun k => (if rd then 1023 - k else k) == v)

/-- R190: is the group in the code at this disparity? -/
def groupOk (v : Nat) (rd : Bool) : Bool := dataGroup v rd || ctlGroup v rd

/-- R190: does K28.5 stand at another bit offset, across the last group and this one? -/
def strayComma (prev : Option Nat) (v : Nat) : Bool :=
  match prev with
  | none => false
  | some p => (List.range 9).any (fun k =>
      let w := (p * 1024 + v) / 2 ^ (k + 1) % 1024
      w == 0b0011111010 || w == 0b1100000101)

/-- R190: a lane receives a group: is it a code error, and the receiver after it. Either starting disparity is accepted.
(PRESUMED, log entry 141) -/
def LaneRx.take (x : LaneRx) (v : Nat) : Bool × LaneRx :=
  let ok := match x.disp with
    | some rd => groupOk v rd
    | none => groupOk v false || groupOk v true
  let err := !ok || strayComma x.prev v
  let rd := x.disp.getD (!groupOk v false)
  (err, { disp := some (dispAfter 10 v rd), hist := (err :: x.hist).take 64, prev := some v })

/-- R190: with this error, are there 4 within 64 consecutive code groups? -/
def LaneRx.failing (x : LaneRx) : Bool := decide (3 < (x.hist.filter id).length)

end Sys2Proof.Machine
end

