-- ==== Sys2Proof/Machine/Compose.lean ====
section
/-! DEFINITION. Composition (R308 to R330): layer stores, the composition pipeline, commits, head formats and enables, and
the SDI serialisers. -/

namespace Sys2Proof.Machine

/-- A layer slot. -/
def State.layer (s : State) (l : Nat) : CmpLayer := KMap.get (fun _ => {}) s.cmp.layers l

/-- Replace a layer slot. -/
def State.setLayer (s : State) (l : Nat) (v : CmpLayer) : State :=
  s.setCmp { s.cmp with layers := KMap.set (fun _ => {}) s.cmp.layers l v }

/-- A composition head. -/
def State.head (s : State) (h : Nat) : CmpHead := KMap.get (fun _ => {}) s.cmp.heads h

/-- Replace a composition head. -/
def State.setHead (s : State) (h : Nat) (v : CmpHead) : State :=
  s.setCmp { s.cmp with heads := KMap.set (fun _ => {}) s.cmp.heads h v }

/-- R308: the active node of head `h`. -/
def State.cmpNode (s : State) (h : Nat) : Option Node := s.image.nodes.find? (fun n => n.kind == 6 && n.res % 256 == h)

/-- R308: L, the layers of a head's node; 0 without a node. -/
def State.layersOf (s : State) (h : Nat) : Nat := ((s.cmpNode h).map (fun n => n.inPorts)).getD 0

/-- R330: head `h` reports a status. -/
def State.cmpReport (s : State) (h code : Nat) : State := (s.wr (F.CMP_H_STATUS_STATUS h) code).wr F.CMP_STATUS_STATUS code

/-- R330: a layer slot reports a status. -/
def State.layerReport (s : State) (l code : Nat) : State := (s.wr (F.CMP_L_STATUS_STATUS l) code).cmpReport (l / 8) code

/-- R311: the active picture of a raster. -/
def rasterSize (r : Nat) : Nat × Nat :=
  match r with
  | 0 => (1920, 1080) | 1 => (3840, 2160) | _ => (7680, 4320)

/-- R311: a head's raster. -/
def State.raster (s : State) (h : Nat) : Nat × Nat := rasterSize (s.rd (F.CMP_H_FORMAT_RASTER h))

/-- R308: the tables a layer's node uses. -/
def State.layerTables (s : State) (l : Nat) : List Table := ((s.cmpNode (l / 8)).map (fun n => s.tablesOf n.id)).getD []

/-- R308: the descriptor of a layer's input among some tables. -/
def State.layerFmt (s : State) (l : Nat) (ts : List Table) : PixFmt :=
  match s.cmpNode (l / 8) with
  | none => {}
  | some n => match n.table ts (l % 8) with
    | some t => pixFmtOf (s.tableBody t)
    | none => {}

/-! ### Layer stores (R309, R310) -/

/-- R309: a buffer that plays no role. -/
def CmpStore.free (v : CmpStore) : Nat :=
  let used := ([v.writing, v.newest, v.shown].filterMap id).map (fun b => b.ix)
  (lowest 3 (fun i => !used.contains i)).getD 0

/-- R309, R310: the frame being written is complete: it becomes the newest; missing positions are counted. -/
def State.layerComplete (s : State) (l : Nat) : State :=
  let v := s.layer l
  match v.store.writing with
  | none => s
  | some b =>
    let p := s.layerFmt l b.tables
    let miss := p.cols * p.rows - b.present.eraseDups.length
    let s := if miss = 0 then s else (s.inc (F.CMP_L_MISSING_COUNT l) miss).layerReport l 0x160B
    let s := if v.store.newest.isSome then s.inc (F.CMP_L_SKIP_COUNT l) else s
    s.setLayer l { v with store := { v.store with writing := none, newest := some b } }

/-- R308: the address of a layer's store. -/
def State.storeBase (s : State) (l : Nat) : Nat :=
  match s.cmpNode (l / 8) with
  | none => 0
  | some n => ((s.image.bufs.find? (fun b => b.id == n.par (16 + 4 * (l % 8)) 2)).map (fun b => b.base)).getD 0

/-- R308: the address of a tile position in a buffer of a layer's store, for tiles of a descriptor. -/
def State.storeAddr (s : State) (l : Nat) (p : PixFmt) (ix pos : Nat) : Nat :=
  s.storeBase l + (ix * (p.cols * p.rows) + pos) * p.maxPayload

/-- R309: a checked tile enters the store of layer slot `l`. -/
def State.layerStore (s : State) (l : Nat) (t : Tile) : State :=
  let begins := match (s.layer l).store.writing with
    | none => true
    | some b => t.hdr.fs && later t.hdr.frame b.frame
  let s := if begins then s.layerComplete l else s
  let v := s.layer l
  let b := v.store.writing.getD { ix := v.store.free, frame := t.hdr.frame, tables := s.layerTables l }
  let p := s.layerFmt l b.tables
  let inside := decide (t.hdr.col < p.cols) && decide (t.hdr.row < p.rows)
  let pos := t.hdr.row * p.cols + t.hdr.col
  let s :=
    if inside then
      (s.setBytes (s.storeAddr l p b.ix pos) (t.payload.take p.maxPayload)).setLayer l
        { v with store := { v.store with writing := some { b with present := b.present ++ [pos] } } }
    else (s.inc (F.CMP_L_MISSING_COUNT l)).setLayer l { v with store := { v.store with writing := some b } }
  if t.hdr.fe then s.layerComplete l else s

/-- R309: LAYER_TILE: a head takes the next tile of a layer's queue. -/
def State.layerTile (s : State) (l : Nat) : State :=
  match s.cmpNode (l / 8) with
  | none => s
  | some n =>
    match s.image.inEdge n.id (l % 8) with
    | none => s
    | some ed =>
      if s.island (0x18 + l / 8) ≠ 2 then s
      else
        let x := s.nextTile ed.qid
        match x.1 with
        | none => x.2
        | some (i, e) =>
          let t := x.2.entryTile e
          let s := x.2.maybeSwitch n.id t.hdr.fs
          let r := s.checkTile ed (0x500 + l / 8) t true
          let s := if r.1.outcome = 3 then r.2 else r.2.layerStore l r.1.tile
          s.pop ed.qid i

/-! ### The pipeline (R314 to R316) -/

/-- A layer as the pipeline sees it: slot, descriptor, buffer and configuration. -/
structure LayerView where
  l : Nat := 0
  p : PixFmt := {}
  buf : CmpBuf := {}
  cfg : LayerCfg := {}
  deriving DecidableEq, Repr

/-- Field of a configuration word. -/
def fld (w : Word) (lo n : Nat) : Nat := bits w.toNat lo n

/-- R310: component `c` of a fill colour in 12 bits: 0 Y, 1 Cb, 2 Cr, 3 alpha. -/
def fillComp (w : Word) (c : Nat) : Nat := if c = 3 then 255 else fld w (10 * c) 10 * 4

/-- R314: component `c` (3 is alpha) of the stored sample at (x, y), unpacked to 12 bits. -/
def State.layerRaw (s : State) (v : LayerView) (c x y : Nat) : Nat :=
  let p := v.p
  let pos := y / p.tileH * p.cols + x / p.tileW
  if !v.buf.present.contains pos then fillComp v.cfg.fill c
  else
    let a := s.storeAddr v.l p v.buf.ix pos
    let k := y % p.tileH * p.tileW + x % p.tileW
    if p.format = 0x0210 then
      (if c = 3 then 255
       else
         let o := if c = 0 then 4 * k + 2 else 4 * (k - k % 2) + (if c = 1 then 0 else 4)
         le (s.bytesAt (a + o) 2) % 1024 * 4)
    else if p.format = 0x0220 then (if c = 3 then 255 else le (s.bytesAt (a + 6 * k + 2 * c) 2) % 4096)
    else
      let b := (s.byte (a + 4 * k + c)).toNat
      if c = 3 then b else b * 16 + b / 16

/-- R314: the 4:4:4 sample: the chroma of an odd column of YC422_10 is the rounded mean of its neighbours. -/
def State.layerComp (s : State) (v : LayerView) (c x y : Nat) : Nat :=
  if v.p.format = 0x0210 ∧ (c = 1 ∨ c = 2) ∧ x % 2 = 1 then
    (if x + 1 < v.p.picW then (s.layerRaw v c (x - 1) y + s.layerRaw v c (x + 1) y + 1) / 2 else s.layerRaw v c (x - 1) y)
  else s.layerRaw v c x y

/-- R316, R68: tap `k` of phase `ph` of a coefficient set of `taps` taps; an empty set is the built-in one. -/
def coefTap (body : List Byte) (taps ph k : Nat) : Int :=
  if body.isEmpty then
    (if k + 1 = taps / 2 then 1024 - 16 * ph else if k = taps / 2 then 16 * ph else 0)
  else signed 16 (leAt body ((ph * taps + k) * 2) 2)

/-- R316: one axis: the sample of output position `j` from source positions read by `f`. (DEDUCED, log entry 60) -/
def scaleAxis (body : List Byte) (taps src0 srcN dstN hi j : Nat) (f : Nat → Nat) : Nat :=
  if srcN = dstN then f (src0 + j)
  else
    let step := srcN * 65536 / max 1 dstN
    let p : Int := (src0 * 65536 : Nat) + ((2 * j + 1) * step / 2 : Nat) - 32768
    let i := p / 65536
    let ph := (p % 65536 / 1024).toNat
    let sum : Int := (List.range taps).foldl (fun a k =>
      a + coefTap body taps ph k * (f (limit src0 ((src0 + srcN : Nat) - 1) (i - ((taps / 2 - 1 : Nat) : Int) + k)).toNat : Nat)) 0
    limitTo hi ((sum + 512) / 1024)

/-- R316: component `c` of the layer's scaled sample at column `j`, row `r` of its destination rectangle.
(DEDUCED, log entry 60) -/
def State.layerScaled (s : State) (v : LayerView) (c j r : Nat) : Nat :=
  let hi := if c = 3 then 255 else 4095
  scaleAxis v.cfg.coefV 6 (fld v.cfg.srcPos 16 16) (fld v.cfg.srcSize 16 16) (fld v.cfg.dstSize 16 16) hi r (fun y =>
    scaleAxis v.cfg.coefH 8 (fld v.cfg.srcPos 0 16) (fld v.cfg.srcSize 0 16) (fld v.cfg.dstSize 0 16) hi j (fun x =>
      s.layerComp v c x y))

/-- R314: the layer's pixel at raster position (x, y): alpha and three components; none outside its rectangle. -/
def State.layerPixel (s : State) (v : LayerView) (x y : Nat) : Option (Nat × List Nat) :=
  let j : Int := (x : Int) - signed 16 (fld v.cfg.dstPos 0 16)
  let r : Int := (y : Int) - signed 16 (fld v.cfg.dstPos 16 16)
  if 0 ≤ j ∧ j < fld v.cfg.dstSize 0 16 ∧ 0 ≤ r ∧ r < fld v.cfg.dstSize 16 16 then
    let c3 := (List.range 3).map (fun c => s.layerScaled v c j.toNat r.toNat)
    some (if v.p.format = 0x0230 then s.layerScaled v 3 j.toNat r.toNat else 255,
      if fld v.cfg.matrix 0 16 = 0 then c3 else matrixAt v.cfg.mat 4095 c3)
  else none

/-- Rounded division by 255. -/
def div255 (n : Nat) : Nat := (2 * n + 255) / 510

/-- R315: a layer's pixel blended over what lies beneath. -/
def blend (v : LayerView) (px : Option (Nat × List Nat)) (beneath : List Nat) : List Nat :=
  match px with
  | none => beneath
  | some (pa, c) =>
    let a := div255 (pa * fld v.cfg.ctrl 8 8)
    (List.range 3).map (fun k => div255 (a * c.getD k 0 + (255 - a) * beneath.getD k 0))

/-- R315: the background of a head, in 12 bits. -/
def State.background (s : State) (h : Nat) : List Nat :=
  (List.range 3).map (fun c => s.rd ⟨(F.CMP_H_BG_Y h).off, 10 * c, 10⟩ * 4)

/-- The layers a head composes now: visible, not hidden, and showing a frame. -/
def State.composed (s : State) (h : Nat) : List LayerView :=
  ((List.range (s.layersOf h)).map (fun i => 8 * h + i)).filterMap (fun l =>
    match (s.layer l).active, (s.layer l).store.shown with
    | some c, some b =>
      if fld c.ctrl 31 1 = 1 ∧ !s.on (F.CMP_L_STATUS_LATE_HIDDEN l) then
        some { l := l, p := s.layerFmt l b.tables, buf := b, cfg := c }
      else none
    | _, _ => none)

/-- R314, R315, R317: the composed pixel at (x, y), three components of 12 bits. -/
def State.composePixel (s : State) (h : Nat) (vs : List LayerView) (x y : Nat) : List Nat :=
  if (s.head h).short.any (fun q => q.1 == y && decide (q.2 ≤ x)) then s.background h
  else vs.foldl (fun b v => blend v (s.layerPixel v x y) b) (s.background h)

/-- R315, R234: component `c` (0 luma, 1 Cb, 2 Cr) of the output picture of head `h` at (x, y), in 10 bits and 4:2:2, within a picture
of `w` by `ht`. -/
def State.headSample (s : State) (h : Nat) (vs : List LayerView) (w ht x y c : Nat) : Nat :=
  let px (x y : Nat) : List Nat := s.composePixel h vs (min x (w - 1)) (min y (ht - 1))
  if c = 0 then limitTo 1023 (roundDiv ((px x y).getD 0 0 : Nat) 4)
  else
    let xe := x / 2 * 2
    let sum := (px (xe - 1) y).getD c 0 + 2 * (px xe y).getD c 0 + (px (xe + 1) y).getD c 0
    limitTo 1023 (roundDiv (sum : Nat) 16)

/-- R315, R318, R234: the output tile at (col, row) of the frame of head `h`. -/
def State.headTile (s : State) (h : Nat) (n : Node) (p : PixFmt) (vs : List LayerView) (col row : Nat) : Tile :=
  let one (i j : Nat) : List Byte :=
    let x := min (col * p.tileW + i) (p.picW - 1)
    let y := min (row * p.tileH + j) (p.picH - 1)
    leBytes 2 (s.headSample h vs p.picW p.picH x y (if i % 2 = 0 then 1 else 2)) ++
      leBytes 2 (s.headSample h vs p.picW p.picH x y 0)
  let v := s.head h
  let t : TileHdr := { stream := n.stream, frame := s.rd (F.CMP_H_FRAME_COUNT h), col := col, row := row, format := 0x0210,
                       len16 := p.maxPayload / 16, capSec := v.sec, capNs := v.ns }
  let t := t.setFlag 0 (decide (p.picW < (col + 1) * p.tileW) || decide (p.picH < (row + 1) * p.tileH))
  let t := (t.setFlag 3 (col == 0 && row == 0)).setFlag 4 (col + 1 == p.cols && row + 1 == p.rows)
  { hdr := t.setFlag 6 v.hold,
    payload := padTo p.maxPayload ((List.range p.tileH).flatMap (fun j => (List.range p.tileW).flatMap (fun i => one i j))) }

/-- R318: the frame in progress leaves on output port 0, or FORMAT_INVALID is reported once.
(DESIGN CHOICE, log entries 59, 119) -/
def State.emitFrame (s : State) (h : Nat) : State :=
  match s.cmpNode h with
  | none => s
  | some n =>
    if n.outPorts = 0 then s
    else
      let p := s.pixFmt n.id
      if (p.picW, p.picH) ≠ s.raster h then
        (if (s.head h).formatSaid then s
         else (s.setHead h { s.head h with formatSaid := true }).cmpReport h 0x160C)
      else
        let vs := s.composed h
        s.each (List.range (p.cols * p.rows)) (fun k s =>
          s.putSource (s.portQueues n.id 0) (s.headTile h n p vs (k % p.cols) (k / p.cols)))

/-! ### Commits (R319 to R323) -/

/-- A layer slot's shadows. -/
def State.shadow (s : State) (l : Nat) : LayerCfg :=
  let r (k : Nat) : Word := s.reg ((F.CMP_L_CTRL_VISIBLE l).off + 4 * k)
  { ctrl := r 0, srcPos := r 1, srcSize := r 2, dstPos := r 3, dstSize := r 4, coef := r 5, matrix := r 6, fence := r 7, fill := r 8 }

/-- R319: the scalers a configuration names, with each one's share of DST_W. -/
def LayerCfg.scalers (c : LayerCfg) : List (Nat × Nat) :=
  let w := fld c.dstSize 0 16
  let two := fld c.ctrl 27 1 == 1
  (if fld c.ctrl 23 1 = 1 then [(fld c.ctrl 20 3, if two then ceilDiv w 2 else w)] else []) ++
    (if two then [(fld c.ctrl 24 3, w - ceilDiv w 2)] else [])

/-- Does a configuration scale an axis (R319)? -/
def LayerCfg.scales (c : LayerCfg) : Bool := c.srcSize != c.dstSize

/-- R319: another layer slot holds the scaler in its active configuration or in a pending commit. -/
def State.scalerTaken (s : State) (l sc : Nat) : Bool :=
  (List.range 32).any (fun k => k != l &&
    ([(s.layer k).active, (s.layer k).pend].filterMap id).any (fun c => c.scalers.any (fun x => x.1 == sc)))

/-- R320: a layer's rates fit an fclk of `mhz` MHz at a frame rate. -/
def LayerCfg.ratesOk (c : LayerCfg) (num den mhz : Nat) : Bool :=
  let w0 := fld c.dstSize 0 16
  c.scalers.all (fun x =>
    decide (x.2 * fld c.dstSize 16 16 * num * 10 ≤ 8 * mhz * 1000000 * den) &&
    decide (fld c.srcSize 0 16 * fld c.srcSize 16 16 * x.2 * num * 10 ≤ 32 * mhz * 1000000 * den * w0))

/-- R449: does every active and pending layer keep its rates at an fclk of `mhz` MHz? -/
def State.layersFit (s : State) (mhz : Nat) : Bool :=
  (List.range 32).all (fun l =>
    let r := rateOf (s.rd (F.CMP_H_FORMAT_RATE (l / 8)))
    ([(s.layer l).active, (s.layer l).pend].filterMap id).all (fun c => c.ratesOk r.1 r.2.1 mhz))

/-- R321: a table of the active configuration of a kind, with the conditions the layer puts on it. -/
def State.layerTable (s : State) (id kind : Nat) (ok : Table → Bool) : Bool :=
  match findTable s.image.tables id with
  | some t => t.kind == kind && ok t
  | none => false

/-- R316, R321: sizes, crop, ratio, scaler count and tables. -/
def State.layerValid (s : State) (l : Nat) (c : LayerCfg) : Bool :=
  let p := s.layerFmt l (s.layerTables l)
  let sw := fld c.srcSize 0 16
  let sh := fld c.srcSize 16 16
  let dw := fld c.dstSize 0 16
  let dh := fld c.dstSize 16 16
  let n := c.scalers.length
  let tab (id kind : Nat) (ok : Table → Bool) : Bool := id == 0 || s.layerTable id kind ok
  decide (l % 8 < s.layersOf (l / 8)) && decide (1 ≤ sw) && decide (1 ≤ sh) && decide (1 ≤ dw) && decide (dw ≤ 16384) &&
  decide (1 ≤ dh) && decide (dh ≤ 16384) && decide (fld c.srcPos 0 16 + sw ≤ p.picW) && decide (fld c.srcPos 16 16 + sh ≤ p.picH) &&
  decide (sw ≤ 4 * dw) && decide (dw ≤ 16 * sw) && decide (sh ≤ 4 * dh) && decide (dh ≤ 16 * sh) &&
  (fld c.ctrl 27 1 == 0 || fld c.ctrl 23 1 == 1) && (if c.scales then decide (1 ≤ n) else n == 0) &&
  !(n == 2 && fld c.ctrl 20 3 == fld c.ctrl 24 3) &&
  tab (fld c.coef 0 16) 4 (fun t => t.p0 / 0x10000 % 2 == 0) && tab (fld c.coef 16 16) 4 (fun t => t.p0 / 0x10000 % 2 == 1) &&
  tab (fld c.matrix 0 16) 3 (fun t => t.p0 % 2 == 1) && (p.format != 0x0230 || fld c.matrix 0 16 != 0)

/-- R319 to R321: the status of a layer's shadows, 0 when they may be committed. (DEDUCED, log entry 60) -/
def State.checkLayer (s : State) (l : Nat) : Nat :=
  let c := s.shadow l
  let tv := if fld c.srcSize 16 16 = fld c.dstSize 16 16 then 1 else 6
  let r := rateOf (s.rd (F.CMP_H_FORMAT_RATE (l / 8)))
  if !s.layerValid l c then 0x1604
  else if c.scalers.any (fun x => s.scalerTaken l x.1) then 0x1602
  else if c.scalers.any (fun x => decide (24576 < tv * x.2)) then 0x1601
  else if !c.ratesOk r.1 r.2.1 s.fclkMHz then 0x1603
  else 0

/-- R328: CMP_SCALER_s follows active configurations and pending commits. -/
def State.noteScalers (s : State) : State :=
  s.each (List.range 8) (fun sc s =>
    let holds (c : Option LayerCfg) : Bool := match c with
      | some c => c.scalers.any (fun x => x.1 == sc)
      | none => false
    let a := (List.range 32).find? (fun l => holds (s.layer l).active)
    let p := (List.range 32).find? (fun l => holds (s.layer l).pend)
    ((s.wrB (F.CMP_SCALER_IN_USE sc) a.isSome).wrB (F.CMP_SCALER_PENDING sc) p.isSome).wr (F.CMP_SCALER_SLOT sc)
      (a.getD (p.getD 0)))

/-- The pending layers of a head. -/
def State.pendingOf (s : State) (h : Nat) : List Nat :=
  ((List.range 8).map (fun i => 8 * h + i)).filter (fun l => (s.layer l).pend.isSome)

/-- R328: PENDING_LAYERS and PENDING follow the pending commits. -/
def State.notePending (s : State) (h : Nat) : State :=
  let s := s.each (List.range 8) (fun i s => s.wrB (F.CMP_L_STATUS_PENDING (8 * h + i)) (s.layer (8 * h + i)).pend.isSome)
  (s.wr (F.CMP_H_STATUS_PENDING_LAYERS h) ((s.pendingOf h).foldl (fun a l => a + 2 ^ (l % 8)) 0)).noteScalers

/-- R321: the tables of a layer are copied for its commit. (DEDUCED, log entry 61) -/
def State.copyTables (s : State) (c : LayerCfg) : LayerCfg :=
  let body (id : Nat) : List Byte := ((findTable s.image.tables id).map s.tableBody).getD []
  { c with coefH := body (fld c.coef 0 16), coefV := body (fld c.coef 16 16), mat := body (fld c.matrix 0 16) }

/-- R321, R322: a configuration with no scaler and no matrix has nothing to load. -/
def LayerCfg.noLoads (c : LayerCfg) : Bool := c.scalers.isEmpty && fld c.matrix 0 16 == 0

/-- R319, R321: check layers in order, each against those before it; the status of the first that fails. (DEDUCED, log entry 60) -/
def State.checkLayers (s : State) : List Nat → Nat × Nat × State
  | [] => (0, 0, s)
  | l :: t =>
    let st := s.checkLayer l
    if st ≠ 0 then (st, l, s)
    else (s.setLayer l { s.layer l with pend := some (s.copyTables (s.shadow l)), loaded := (s.shadow l).noLoads }).checkLayers t

/-- R321: GO. (DEDUCED, log entry 61) -/
def State.commitGo (s : State) (h layers : Nat) : State :=
  let ls := ((List.range 8).filter (fun i => layers / 2 ^ i % 2 == 1)).map (fun i => 8 * h + i)
  if ls.isEmpty then s
  else if !(s.pendingOf h).isEmpty then s.cmpReport h 0x1605
  else
    let r := s.checkLayers ls
    if r.1 ≠ 0 then s.layerReport r.2.1 r.1
    else
      (r.2.2.setHead h { s.head h with fenced := s.on (F.CMP_H_CTRL_FENCED h), wasLate := false }).notePending h

/-- R323: CANCEL. -/
def State.commitCancel (s : State) (h : Nat) : State :=
  let s := s.each (s.pendingOf h) (fun l s =>
    (s.setLayer l { s.layer l with pend := none, loaded := false }).wr (F.CMP_L_STATUS_LATE_HIDDEN l) 0)
  s.notePending h

/-- A write of CMP_H_COMMIT. -/
def State.commitWrite (s : State) (h : Nat) (val : Word) : State :=
  let s := if (F.CMP_H_COMMIT_GO h).of val = 1 then s.commitGo h ((F.CMP_H_COMMIT_LAYERS h).of val) else s
  if (F.CMP_H_COMMIT_CANCEL h).of val = 1 then s.commitCancel h else s

/-- R322: is a pending layer ready? -/
def State.layerReady (s : State) (l : Nat) : Bool :=
  let v := s.layer l
  match v.pend with
  | none => false
  | some c =>
    let fence := fld c.fence 0 32
    let good (b : Option CmpBuf) : Bool := match b with
      | some b => !later fence b.frame
      | none => false
    v.loaded && (fld c.ctrl 30 1 == 0 || good (if v.store.newest.isSome then v.store.newest else v.store.shown))

/-- R322: a layer flips. (DEDUCED, log entry 61) -/
def State.flip (s : State) (l : Nat) : State :=
  let v := s.layer l
  (s.setLayer l { v with active := v.pend, pend := none, loaded := false }).wr (F.CMP_L_STATUS_LATE_HIDDEN l) 0

/-- R322: the pending commit of a head at a frame boundary. -/
def State.commitBoundary (s : State) (h : Nat) : State :=
  let ps := s.pendingOf h
  if ps.isEmpty then s
  else
    let v := s.head h
    let late := ps.filter (fun l => !s.layerReady l)
    let go := if late.isEmpty || v.fenced then ps.filter (fun l => s.layerReady l) else []
    let s := s.each go (fun l s => s.flip l)
    let s := if late.isEmpty then s.irq 0x16 (F.CMP_H_STATUS_FLIP_IRQ h) (F.CMP_H_IRQ_EN_FLIP_IRQ h)
      else
        let s := s.inc (F.CMP_H_SLIPS_COUNT h)
        let s := if v.wasLate then s
          else ((s.setHead h { v with wasLate := true }).cmpReport h 0x1607).irq 0x16 (F.CMP_H_STATUS_LATE_IRQ h) (F.CMP_H_IRQ_EN_LATE_IRQ h)
        if v.fenced then
          s.each late (fun l s => match (s.layer l).pend with
            | some c => if fld c.ctrl 29 1 = 1 then s.wr (F.CMP_L_STATUS_LATE_HIDDEN l) 1 else s
            | none => s)
        else s
    s.notePending h

/-- R309: at a boundary each layer shows its newest frame, or its previous one again. -/
def State.showFrames (s : State) (h : Nat) : State :=
  s.each ((List.range (s.layersOf h)).map (fun i => 8 * h + i)) (fun l s =>
    let v := s.layer l
    match v.store.newest, v.store.shown with
    | some b, _ =>
      let s := s.setLayer l { v with store := { v.store with newest := none, shown := some b } }
      (s.wr (F.CMP_L_SHOWN_FRAME l) b.frame).wr (F.CMP_L_STATUS_SHOWING l) 1
    | none, some _ => s.inc (F.CMP_L_REPEAT_COUNT l)
    | none, none => s)

/-! ### SDI (R325 to R327) -/

/-- R325: the output mode of a head's format, 0 when it has no row. -/
def sdiMode (raster rate : Nat) : Nat :=
  match raster with
  | 0 => if 5 ≤ rate then 1 else 0
  | 1 => if 5 ≤ rate then 3 else 2
  | 2 => if 5 ≤ rate then 4 else 0
  | _ => 0

/-- R325: the mode of a serialiser's head. -/
def State.sdiModeOf (s : State) (h : Nat) : Nat := sdiMode (s.rd (F.CMP_H_FORMAT_RASTER h)) (s.rd (F.CMP_H_FORMAT_RATE h))

/-- R330: a serialiser reports a status. -/
def State.sdiReport (s : State) (n code : Nat) : State := s.wr (F.SDI_S_STATUS_STATUS n) code

/-- R326: what serialiser `n` inserts in the frame in progress. -/
def State.sdiAnc (s : State) (n : Nat) : SdiAnc := KMap.get (fun _ => {}) s.cmp.anc n

/-- Set what serialiser `n` inserts. -/
def State.setSdiAnc (s : State) (n : Nat) (v : SdiAnc) : State :=
  s.setCmp { s.cmp with anc := KMap.set (fun _ => {}) s.cmp.anc n v }

/-- R326: byte 1 of the payload identifier of an output mode: the mapping. (PRESUMED, log entry 142) -/
def sdiMapping (mode : Nat) : Nat :=
  match mode with
  | 1 => 0x89 | 2 => 0xC0 | 3 => 0xCE | _ => 0xD2

/-- R326: the picture rate of a rate code in the payload identifier. (PRESUMED, log entry 142) -/
def sdiRate (rate : Nat) : Nat :=
  match rate with
  | 0 => 0x2 | 1 => 0x3 | 2 => 0x5 | 3 => 0x6 | 4 => 0x7 | 5 => 0x9 | 6 => 0xA | _ => 0xB

/-- R326: the ST 352 payload identifier: mapping; progressive, TRANSFER and picture rate; 16:9, COLORIMETRY and 4:2:2 YCbCr; link
and 10 bits. (PRESUMED, log entry 142) -/
def sdiPayload (mode rate transfer colorimetry link : Nat) : List Byte :=
  leBytes 1 (sdiMapping mode) ++ leBytes 1 (0xC0 + transfer * 16 + sdiRate rate) ++
    leBytes 1 (if mode = 1 then 0x20 + colorimetry * 0x80 else 0x80 + colorimetry * 0x20) ++
    leBytes 1 ((if mode = 4 then link * 32 else 0) + 1)

/-- R326, R368: the user data words of a time code in BCD by ST 12-2: each holds one nibble of the 64-bit code word in its bits
[7:4], the binary groups 0. At 50 and 60 frames per second FF counts pairs, and the pair flag is FF's low bit.
(PRESUMED, log entry 142) -/
def atcWords (tc nominal : Nat) (drop : Bool) : List Nat :=
  let digit (k : Nat) : Nat := tc / 16 ^ k % 16
  let ff := digit 1 * 10 + digit 0
  let pair := if 50 ≤ nominal then ff % 2 else 0
  let f := if 50 ≤ nominal then ff / 2 else ff
  [f % 10, 0, f / 10 + (if drop then 4 else 0), 0, digit 2, 0, digit 3 + (if nominal = 60 then pair * 8 else 0), 0,
   digit 4, 0, digit 5, 0, digit 6, 0, digit 7 + (if nominal = 50 then pair * 8 else 0), 0].map (fun n => n * 16)

/-- R326: serialiser `n` inserts the payload identifier of its head's format, and with TC_EN the timecode of the boundary, in the
frame that starts now. (DEDUCED, log entry 62; PRESUMED, log entry 142) -/
def State.sdiInsert (s : State) (n : Nat) : State :=
  if !s.on (F.SDI_S_STATUS_ACTIVE n) then s
  else
    let h := s.rd (F.SDI_S_CFG_SRC_HEAD n)
    let r := rateOf (s.rd F.PTP_TC_CFG_TC_RATE)
    s.setSdiAnc n
      { payload := sdiPayload (s.rd (F.SDI_S_STATUS_MODE n)) (s.rd (F.CMP_H_FORMAT_RATE h)) (s.rd (F.CMP_H_FORMAT_TRANSFER h))
          (s.rd (F.CMP_H_FORMAT_COLORIMETRY h)) n
        tc := if s.on (F.SDI_S_CFG_TC_EN n) then atcWords (s.timecode s.timestamp) r.2.2 s.tcDrop else [] }

/-- A serialiser stops driving. -/
def State.sdiOff (s : State) (n : Nat) : State :=
  ((s.wr (F.SDI_S_STATUS_ACTIVE n) 0).wr (F.SDI_S_STATUS_MODE n) 0).setSdiAnc n {}

/-- R327: an enabled serialiser starts at its head's next boundary; with the head off it drives nothing.
(DESIGN CHOICE, log entry 119) -/
def State.sdiBegin (s : State) (n : Nat) : State :=
  let h := s.rd (F.SDI_S_CFG_SRC_HEAD n)
  if s.on (F.CMP_H_CTRL_EN h) then s.islandDemand (0x1C + n) else s.sdiReport n 0x1702

/-- R327, R442: a write of SDI_S_CFG. (DEDUCED, log entry 62) -/
def State.sdiCfg (s : State) (n : Nat) (val : Word) : State :=
  let was := s.on (F.SDI_S_CFG_EN n)
  let en := (F.SDI_S_CFG_EN n).of val == 1
  let h := (F.SDI_S_CFG_SRC_HEAD n).of val
  let off := (F.SDI_S_CFG_EN n).off
  if en && was && h != s.rd (F.SDI_S_CFG_SRC_HEAD n) then s.sdiReport n 0x1701
  else if en && !was && s.sdiModeOf h == 0 then s.sdiReport n 0x1701
  else
    let s := s.plainWrite off val
    if en && !was then
      (if s.on (F.SDI_S_STATUS_SHUTTING_DOWN n) then s.wr (F.SDI_S_STATUS_PENDING_ENABLE n) 1 else s.sdiBegin n)
    else if !en && was then
      let s := s.wr (F.SDI_S_STATUS_PENDING_ENABLE n) 0
      if s.on (F.SDI_S_STATUS_ACTIVE n) then s.wr (F.SDI_S_STATUS_SHUTTING_DOWN n) 1 else s
    else s

/-- R327: serialiser `n` at a boundary of its head: a frame has been sent, a shutdown ends, output starts.
(DEDUCED, log entry 62) -/
def State.sdiBoundary (s : State) (n : Nat) : State :=
  let s := if s.on (F.SDI_S_STATUS_ACTIVE n) then s.inc (F.SDI_S_FRAMES_COUNT n) else s
  if s.on (F.SDI_S_STATUS_SHUTTING_DOWN n) then
    let s := (s.sdiOff n).wr (F.SDI_S_STATUS_SHUTTING_DOWN n) 0
    if s.on (F.SDI_S_STATUS_PENDING_ENABLE n) then (s.wr (F.SDI_S_STATUS_PENDING_ENABLE n) 0).sdiBegin n else s
  else if s.on (F.SDI_S_CFG_EN n) && s.island (0x1C + n) == 2 then
    (s.wr (F.SDI_S_STATUS_ACTIVE n) 1).wr (F.SDI_S_STATUS_MODE n) (s.sdiModeOf (s.rd (F.SDI_S_CFG_SRC_HEAD n)))
  else s

/-- The serialisers that name head `h`. -/
def State.sdiOf (s : State) (h : Nat) : List Nat := (List.range 4).filter (fun n => s.rd (F.SDI_S_CFG_SRC_HEAD n) == h)

/-- R325: the chroma and luma samples that serialiser `n` sends at sample `x` of line `y` of its link: its head's picture, or on a
quad link its share of it by two-sample interleave, pairs of samples in turn to links 0 and 1 on even lines, 2 and 3 on odd ones.
(PRESUMED, log entry 142) -/
def State.sdiSample (s : State) (n x y : Nat) : Option (Nat × Nat) :=
  if !s.on (F.SDI_S_STATUS_ACTIVE n) then none
  else
    let h := s.rd (F.SDI_S_CFG_SRC_HEAD n)
    let wh := s.raster h
    let at_ (x y : Nat) : Nat × Nat :=
      (s.headSample h (s.composed h) wh.1 wh.2 x y (1 + x % 2), s.headSample h (s.composed h) wh.1 wh.2 x y 0)
    some (if s.rd (F.SDI_S_STATUS_MODE n) = 4 then at_ (x / 2 * 4 + n % 2 * 2 + x % 2) (2 * y + n / 2) else at_ x y)

/-- R327: a head's timing has stopped: its serialisers drive no signal. -/
def State.sdiHeadOff (s : State) (h : Nat) : State :=
  s.each (s.sdiOf h) (fun n s => if s.on (F.SDI_S_CFG_EN n) then (s.sdiOff n).sdiReport n 0x1702 else s)

/-! ### Head enable and formats (R311 to R313) -/

/-- R313, R444: a head's timing starts at its next boundary. -/
def State.headBegin (s : State) (h : Nat) : State :=
  (s.islandDemand (0x18 + h)).each (s.sdiOf h) (fun n s => if s.on (F.SDI_S_CFG_EN n) then s.islandDemand (0x1C + n) else s)

/-- R313: are writes of a head's format registers accepted? -/
def State.headIdle (s : State) (h : Nat) : Bool := !s.on (F.CMP_H_CTRL_EN h) && !s.on (F.CMP_H_STATUS_SHUTTING_DOWN h)

/-- R313, R442: a write of CMP_H_CTRL. -/
def State.headCtrl (s : State) (h : Nat) (val : Word) : State :=
  let was := s.on (F.CMP_H_CTRL_EN h)
  let en := (F.CMP_H_CTRL_EN h).of val == 1
  let sync := (F.CMP_H_CTRL_SYNC h).of val
  if 2 ≤ sync ∨ (sync ≠ s.rd (F.CMP_H_CTRL_SYNC h) ∧ !s.headIdle h) then s.cmpReport h 0x160C
  else
    let s := s.plainWrite (F.CMP_H_CTRL_EN h).off val
    let s := if en && !was then s.sourceBack 2 h else s
    if en && !was then
      (if s.on (F.CMP_H_STATUS_SHUTTING_DOWN h) then s.wr (F.CMP_H_STATUS_PENDING_ENABLE h) 1 else s.headBegin h)
    else if !en && was then
      let s := s.wr (F.CMP_H_STATUS_PENDING_ENABLE h) 0
      if (s.head h).running then s.wr (F.CMP_H_STATUS_SHUTTING_DOWN h) 1 else s
    else s

/-- R311, R327: would a write of CMP_H_FORMAT be refused, and by whom? -/
def State.formatWrite (s : State) (h : Nat) (val : Word) : State :=
  if !s.headIdle h ∨ (F.CMP_H_FORMAT_RASTER h).of val = 3 ∨ (F.CMP_H_FORMAT_TRANSFER h).of val = 3 then s.cmpReport h 0x160C
  else
    let users := (s.sdiOf h).filter (fun n => s.on (F.SDI_S_CFG_EN n))
    let same := (F.CMP_H_FORMAT_RASTER h).of val == s.rd (F.CMP_H_FORMAT_RASTER h) &&
      (F.CMP_H_FORMAT_RATE h).of val == s.rd (F.CMP_H_FORMAT_RATE h)
    if !users.isEmpty && !same then s.each users (fun n s => s.sdiReport n 0x1701)
    else s.plainWrite (F.CMP_H_FORMAT_RASTER h).off val

/-- R328: CMP_H_PHASE must lie within one frame period, and not be negative in SENSOR mode. (DEDUCED, log entry 61) -/
def State.phaseOk (s : State) (h : Nat) (val : Word) : Bool :=
  let r := rateOf (s.rd (F.CMP_H_FORMAT_RATE h))
  decide (val.toInt.natAbs * r.1 ≤ r.2.1 * 1000000000) && (s.rd (F.CMP_H_CTRL_SYNC h) != 1 || decide (0 ≤ val.toInt))

/-- R312: SYNC_HOLDOVER: the reference is lost (0), returns (1), or the phase error is below one line again (2).
(DESIGN CHOICE, log entry 63) -/
def State.headSync (s : State) (h what : Nat) : State :=
  let f := F.CMP_H_STATUS_SYNC_HOLDOVER h
  if !(s.head h).running then s
  else if what = 0 then
    (if s.on f then s
     else ((s.wr f 1).wr (F.CMP_H_STATUS_SLEWING h) 0).cmpReport h 0x160A
       |>.irq 0x16 (F.CMP_H_STATUS_SYNC_IRQ h) (F.CMP_H_IRQ_EN_SYNC_IRQ h))
  else if what = 1 then
    (if s.on f then
       ((s.wr f 0).wr (F.CMP_H_STATUS_SLEWING h) 1).irq 0x16 (F.CMP_H_STATUS_SYNC_IRQ h) (F.CMP_H_IRQ_EN_SYNC_IRQ h)
     else s)
  else s.wr (F.CMP_H_STATUS_SLEWING h) 0

/-- R317: HEAD_UNDERRUN: from column `col` of a line the output is background. (DESIGN CHOICE, log entry 59) -/
def State.headUnderrun (s : State) (h line col : Nat) : State :=
  if !(s.head h).running then s
  else
    let s := s.setHead h { s.head h with short := (s.head h).short ++ [(line, col)] }
    ((s.inc (F.CMP_H_UNDERRUN_COUNT h)).cmpReport h 0x1609).irq 0x16 (F.CMP_H_STATUS_UNDERRUN_IRQ h) (F.CMP_H_IRQ_EN_UNDERRUN_IRQ h)

/-! ### The node (R308, R324) -/

/-- R308, R328: a head's node becomes active. -/
def State.cmpStart (s : State) (n : Node) : State :=
  let h := n.res % 256
  let s := s.each ((List.range 8).map (fun i => 8 * h + i)) (fun l s =>
    (((s.wr (F.CMP_L_REPEAT_COUNT l) 0).wr (F.CMP_L_SKIP_COUNT l) 0).wr (F.CMP_L_MISSING_COUNT l) 0).setLayer l
      { s.layer l with store := {} })
  let s := s.setHead h { s.head h with formatSaid := false }
  s.setHq { s.hq with seqs := KMap.set (fun _ => 0) s.hq.seqs n.stream (n.par 0 4) }

/-- R324: a head's node is removed: its pending commit is dropped and its layer slots return to their reset values. -/
def State.cmpStop (s : State) (n : Node) : State :=
  let h := n.res % 256
  let s := if (s.pendingOf h).isEmpty then s else s.cmpReport h 0x1608
  let s := s.each ((List.range 8).map (fun i => 8 * h + i)) (fun l s =>
    let base := (F.CMP_L_CTRL_VISIBLE l).off
    (s.setRegs (KMap.drop s.regs base (base + 0x40))).setLayer l {})
  s.notePending h

/-! ### Commands -/

/-- LAYER_TILE (R309). -/
def execLayerTile (slot : Fin 32) (s : State) : Out := .next (s.layerTile slot)

/-- SYNC_HOLDOVER (R312). -/
def execSyncHoldover (head : Fin 4) (what : Fin 3) (s : State) : Out := .next (s.headSync head what)

/-- HEAD_ENABLE: a write of CMP_H_CTRL (R313). -/
def execHeadEnable (src : Agent) (head : Fin 4) (val : Word) (s : State) : Out :=
  .next (s.writeReg src (F.CMP_H_CTRL_EN head) val (fun s => s.headCtrl head val))

/-- HEAD_UNDERRUN (R317). -/
def execHeadUnderrun (head : Fin 4) (line col : BitVec 16) (s : State) : Out :=
  .next (s.headUnderrun head line.toNat col.toNat)

/-- CMP_H_COMMIT with GO (R321). -/
def execGo (src : Agent) (head : Fin 4) (val : Word) (s : State) : Out :=
  .next (s.writeReg src (F.CMP_H_COMMIT_GO head) (val ||| 0x80000000) (fun s => s.commitWrite head (val ||| 0x80000000)))

/-- CMP_H_COMMIT with CANCEL (R323). -/
def execCommitCancel (src : Agent) (head : Fin 4) (val : Word) (s : State) : Out :=
  .next (s.writeReg src (F.CMP_H_COMMIT_GO head) (val ||| 0x40000000) (fun s => s.commitWrite head (val ||| 0x40000000)))

/-- COEF_LOAD_DONE (R321, R322). -/
def execCoefLoadDone (slot : Fin 32) (s : State) : Out :=
  .next (if (s.layer slot).pend.isSome then s.setLayer slot { s.layer slot with loaded := true } else s)

/-- SDI_ENABLE: a write of SDI_S_CFG (R327). -/
def execSdiEnable (src : Agent) (ser : Fin 4) (val : Word) (s : State) : Out :=
  .next (s.writeReg src (F.SDI_S_CFG_EN ser) val (fun s => s.sdiCfg ser val))

/-- Writes of the CMP block by offset. -/
def State.cmpRegWrite (s : State) (o : Nat) (val : Word) : State :=
  let off := blockBase 0x16 + o
  if 0x100 ≤ o ∧ o < 0x200 then
    let h := (o - 0x100) / 0x40
    let r := o % 0x40
    if r = 0x00 then s.headCtrl h val
    else if r = 0x04 then s.formatWrite h val
    else if r = 0x08 ∨ r = 0x10 then (if s.headIdle h then s.plainWrite off val else s.cmpReport h 0x160C)
    else if r = 0x0C then (if s.headIdle h && s.phaseOk h val then s.plainWrite off val else s.cmpReport h 0x160C)
    else if r = 0x14 then s.commitWrite h val
    else s.plainWrite off val
  else if 0x1000 ≤ o ∧ o < 0x1800 ∧ o % 0x40 ≤ 0x20 then
    let l := (o - 0x1000) / 0x40
    if (s.layer l).pend.isSome then s.layerReport l 0x1606 else s.plainWrite off val
  else s.plainWrite off val

/-- Writes of the SDI block by offset. -/
def State.sdiRegWrite (s : State) (o : Nat) (val : Word) : State :=
  if o < 0x100 ∧ o % 0x40 = 0 then s.sdiCfg (o / 0x40) val else s.plainWrite (blockBase 0x17 + o) val

end Sys2Proof.Machine
end

