-- ==== Sys2Proof/Machine/Decoder.lean ====
section
/-! DEFINITION. The return decoder (R285 to R287, R289): the input chunks, sequences, pictures, errors and recovery, and the
output of decoded pictures as 4:2:2 tiles. Decoding itself is ITU-T H.265's and comes as operands. -/

namespace Sys2Proof.Machine

/-- The active DEC_STREAM node. -/
def State.decNode (s : State) : Option Node := s.image.nodes.find? (fun n => n.kind == 5)

/-- R290: the DEC block reports a status. -/
def State.decReport (s : State) (code : Nat) : State :=
  (s.wr F.DEC_STATUS_STATUS code).irq 0x15 F.DEC_STATUS_ERR_IRQ F.DEC_CTRL_ERR_IRQ_EN

/-- R285, R286: an SPS begins a sequence: its facts are shown, and it may be unsupported or of another size. -/
def State.decSps (s : State) (n : Node) (x : SeqInfo) : State :=
  let ok := (x.profile == 1 || x.profile == 2) && x.chroma == 1 && decide (x.codedW ≤ 8192) && decide (x.codedH ≤ 4352) &&
    decide (x.codedW * x.codedH ≤ 35651584)
  let p := s.pixFmt n.id
  let fits := x.width == p.picW && x.height == p.picH
  let s := ((s.wr F.DEC_SEQ_PROFILE x.profile).wr F.DEC_SEQ_LEVEL x.level).wr F.DEC_SEQ_REORDER x.reorder
  let s := ((s.wr F.DEC_SIZE_HEIGHT x.height).wr F.DEC_SIZE_WIDTH x.width).wrB F.DEC_STATUS_SEQ_VALID ok
  let s := s.setDec { s.dec with supported := ok, sizeOk := fits, seq := x, started := s.dec.started && ok }
  if !ok then s.decReport 0x1503 else if !fits then s.decReport 0x1504 else s

/-- R287: a picture with errors marks the output until recovery. (DEDUCED, log entry 58) -/
def State.decErrors (s : State) (missing bad : Nat) : State :=
  let s := if missing = 0 then s else (s.inc F.DEC_SUBST_COUNT missing).decReport 0x1501
  let s := if bad = 0 then s else (s.inc F.DEC_CONCEAL_COUNT bad).decReport 0x1502
  if missing = 0 ∧ bad = 0 then s
  else (s.wr F.DEC_STATUS_RECOVERING 1).setDec { s.dec with recover := none, recoverCnt := none }

/-- R287: recovery at an IRAP picture, or at the POC of a recovery point received after the error. (DEDUCED, log entry 58) -/
def State.decRecover (s : State) (irap : Bool) (poc : Int) : State :=
  let at_ := match s.dec.recoverCnt with
    | some k => some (poc + k)
    | none => s.dec.recover
  let hit := match at_ with
    | some x => decide (x ≤ poc)
    | none => false
  let s := s.setDec { s.dec with recover := at_, recoverCnt := none }
  if irap || hit then (s.wr F.DEC_STATUS_RECOVERING 0).setDec { s.dec with recover := none, recoverCnt := none } else s

/-! ### The DPB (R285, R286: ITU-T H.265, clause C.5.2) -/

/-- The places of the DPB in use. -/
def DecState.held (d : DecState) : Nat := ((d.dpb ++ d.out).map (fun p => p.slot)).eraseDups.length

/-- Pictures of the DPB that are neither references nor needed for output leave it. -/
def DecState.clean (d : DecState) : DecState := { d with dpb := d.dpb.filter (fun p => p.ref || p.wait) }

/-- The picture that is first in output order among those needed for output. -/
def DecState.first (d : DecState) : Option DecPic :=
  (d.dpb.filter (fun p => p.wait)).foldl (fun (b : Option DecPic) p => match b with
    | none => some p
    | some q => if p.cvs < q.cvs ∨ (p.cvs = q.cvs ∧ p.poc < q.poc) then some p else some q) none

/-- Bumping: the first picture in output order is output. -/
def DecState.bumpOne (d : DecState) : DecState :=
  match d.first with
  | none => d
  | some p => ({ d with out := d.out ++ [p],
                        dpb := d.dpb.map (fun q => if q.slot = p.slot then { q with wait := false } else q) } : DecState).clean

/-- Must a picture be bumped: more wait than the sequence reorders, one has waited too long, or (`full`) the DPB has no room?
(PRESUMED, log entry 57) -/
def DecState.mustBump (d : DecState) (full : Bool) : Bool :=
  let l := d.dpb.filter (fun p => p.wait)
  !l.isEmpty && (decide (d.seq.reorder < l.length) ||
    (d.seq.latency != 0 && l.any (fun p => decide (d.seq.latency ≤ p.latency))) ||
    (full && decide (min 6 (max 1 d.seq.maxDec) ≤ d.dpb.length)))

/-- Bump for as long as a picture must be. -/
def DecState.bumpWhile (d : DecState) (full : Bool) : Nat → DecState
  | 0 => d
  | fuel + 1 => if d.mustBump full then d.bumpOne.bumpWhile full fuel else d

/-- Every picture needed for output is bumped. -/
def DecState.bumpAll (d : DecState) : Nat → DecState
  | 0 => d
  | fuel + 1 => d.bumpOne.bumpAll fuel

/-- C.5.2.2: before picture `x` is decoded, the DPB is emptied at the start of a sequence, or what is no longer referred to leaves;
`first` for the picture that decoding starts with. (PRESUMED, log entry 57) -/
def DecState.beforePic (d : DecState) (x : CodedPic) (first : Bool) : DecState :=
  let old := d.dpb.length
  if first then d
  else if x.irap && x.newSequence then
    let none_ : DecState := { d with dpb := d.dpb.map (fun p => { p with ref := false }) }
    if x.noPrior then { none_ with dpb := [] } else (none_.bumpAll old).clean
  else
    let d : DecState := { d with dpb := d.dpb.map (fun p => { p with ref := p.ref && p.cvs == d.cvs && x.refs.contains p.poc }) }
    d.clean.bumpWhile true old

/-- C.5.2.3: the decoded picture `p` enters the DPB, and pictures are bumped. (PRESUMED, log entry 57) -/
def DecState.store (d : DecState) (p : DecPic) : DecState :=
  let later_ (q : DecPic) : Bool := q.wait && (decide (p.cvs < q.cvs) || (q.cvs == p.cvs && decide (p.poc < q.poc)))
  let l := if p.wait then d.dpb.map (fun q => if later_ q then { q with latency := q.latency + 1 } else q) else d.dpb
  ({ d with dpb := l ++ [p] } : DecState).bumpWhile false (l.length + 1)

/-- The place a new picture takes: the lowest of the seven that holds none. (PRESUMED, log entry 57) -/
def DecState.freeSlot (d : DecState) : Nat :=
  ((List.range 7).find? (fun k => !(d.dpb ++ d.out).any (fun p => p.slot == k))).getD 6

/-! ### Pictures (R286, R287) -/

/-- R287: sample `k` of the picture that stands in for a missing one, in a plane: mid-grey when none has been decoded. -/
def substSample (sub : Option DecPic) (pick : DecPlanes → List Nat) (tenBit : Bool) (k : Nat) : Nat :=
  match sub with
  | some p =>
    let v := (pick p.planes).getD k 0
    if p.planes.tenBit == tenBit then v else if tenBit then v * 4 else v / 4
  | none => if tenBit then 512 else 128

/-- R287: the CTUs of slices that fail to parse are copied from the substitute; `w` is the plane's width and `ctb` its CTB size. -/
def conceal (bad : List Nat) (w ctb : Nat) (sub : Nat → Nat) (l : List Nat) : List Nat :=
  let cols := ceilDiv w (max 1 ctb)
  l.mapIdx (fun k v => if bad.contains (k / max 1 w / max 1 ctb * cols + k % max 1 w / max 1 ctb) then sub k else v)

/-- R287: the samples of a picture once its broken slices are concealed. -/
def concealed (q : SeqInfo) (sub : Option DecPic) (x : CodedPic) : DecPlanes :=
  let bad := x.bad.flatten
  let ten := x.planes.tenBit
  { x.planes with
    y := conceal bad q.codedW q.ctb (substSample sub (fun d => d.y) ten) x.planes.y,
    cb := conceal bad (q.codedW / 2) (q.ctb / 2) (substSample sub (fun d => d.cb) ten) x.planes.cb,
    cr := conceal bad (q.codedW / 2) (q.ctb / 2) (substSample sub (fun d => d.cr) ten) x.planes.cr }

/-- R287: the references a picture names that the DPB does not hold. -/
def DecState.missing (d : DecState) (x : CodedPic) : Nat :=
  (x.refs.filter (fun r => !d.dpb.any (fun p => p.ref && p.cvs == d.cvs && p.poc == r))).length

/-- R286: a picture that is later in output order than any decoded before becomes the substitute for missing ones. -/
def DecState.noteNewest (d : DecState) (p : DecPic) : DecState :=
  match d.newest with
  | some q => if p.cvs < q.cvs ∨ (p.cvs = q.cvs ∧ p.poc < q.poc) then d else { d with newest := some p }
  | none => { d with newest := some p }

/-- R285: the bytes of a decoded picture in its place of the DPB buffer. -/
def State.storeDec (s : State) (n : Node) (slot : Nat) (b : List Byte) : State :=
  let base := ((s.image.bufs.find? (fun b => b.id == n.par 0 2)).map (fun b => b.base)).getD 0
  let p := s.pixFmt n.id
  let size := ceilDiv p.picW 64 * ceilDiv p.picH 64 * 7808
  s.setBytes (base + slot * size) (b.take size)

/-- R286, R287: a coded picture that is decoded. -/
def State.decodePic (s : State) (n : Node) (h : TileHdr) (x : CodedPic) (first : Bool) : State :=
  let shown := (s.dec.dpb.filter (fun p => p.wait)).length
  let d := s.dec.beforePic x first
  let s := if !first && x.irap && x.newSequence && x.noPrior then s.inc F.DEC_SKIPPED_COUNT shown else s
  let d := { d with started := true, startIrap := if x.irap then first else d.startIrap,
                    cvs := if x.newSequence || first then d.cvs + 1 else d.cvs }
  let miss := d.missing x
  let s := ((s.setDec d).decRecover x.irap x.poc).decErrors miss x.bad.length
  let s := s.inc F.DEC_PICS_COUNT
  let shows := x.output && s.dec.sizeOk
  let s := if shows then s else s.inc F.DEC_SKIPPED_COUNT
  let pic : DecPic :=
    { slot := s.dec.freeSlot, poc := x.poc, cvs := s.dec.cvs, planes := concealed s.dec.seq s.dec.newest x, seq := s.dec.seq, ref := true,
      wait := shows, filled := s.on F.DEC_STATUS_RECOVERING, sec := h.capSec, ns := h.capNs, hold := h.flag 6 }
  (s.storeDec n pic.slot x.store).setDec ((s.dec.noteNewest pic).store pic)

/-- R286: a coded picture: skipped before the first IRAP, in an unsupported sequence, and as RASL of the IRAP that decoding started
at. -/
def State.decPicture (s : State) (n : Node) (h : TileHdr) (x : CodedPic) : State :=
  if !s.dec.supported || (!s.dec.started && !x.irap) || (s.dec.started && x.rasl && s.dec.startIrap) then s.inc F.DEC_SKIPPED_COUNT
  else s.decodePic n h x (!s.dec.started)

/-- One NAL unit's event. -/
def State.decEvent (s : State) (n : Node) (h : TileHdr) (e : DecEvent) : State :=
  match e with
  | .sps x => s.decSps n x
  | .recovery k => if s.on F.DEC_STATUS_RECOVERING then s.setDec { s.dec with recoverCnt := some k } else s
  | .picture x => s.decPicture n h x

/-- R285, R286: DEC0 takes the next chunk while the DPB has room, or holds nothing that waits to leave; the events are what its NAL
units come to. A dropped chunk is not decoded. (PRESUMED, log entry 57) -/
def State.decInput (s : State) (events : List DecEvent) : State :=
  match s.decNode with
  | none => s
  | some n =>
    match s.image.inEdge n.id 0 with
    | none => s
    | some ed =>
      if !s.awake 0x14 ∨ (!s.dec.out.isEmpty ∧ 6 ≤ s.dec.held) then s
      else
        let x := s.nextTile ed.qid
        match x.1 with
        | none => x.2
        | some (i, e) =>
          let t := x.2.entryTile e
          let s := x.2.maybeSwitch n.id t.hdr.fs
          let r := s.checkTile ed 0x410 t true
          let s := if r.1.outcome = 3 then r.2 else r.2.each events (fun e s => s.decEvent n r.1.tile.hdr e)
          s.pop ed.qid i

/-! ### Output (R286) -/

/-- R286: the 10-bit sample at (x, y) of a plane of width `w`. -/
def planeAt (d : DecPlanes) (plane : List Nat) (w x y : Nat) : Nat :=
  let v := plane.getD (y * w + x) 0
  if d.tenBit then v % 1024 else v % 256 * 4

/-- R286: the 10-bit luma sample at (x, y) of the conformance window. -/
def DecPic.luma (p : DecPic) (x y : Nat) : Nat := planeAt p.planes p.planes.y p.seq.codedW (p.seq.cropX + x) (p.seq.cropY + y)

/-- R286: the 4:2:2 chroma sample at column `x` and line `y` of the window, from its two neighbours with weights 3/4 and 1/4, edge
lines repeated. (PRESUMED, log entry 57) -/
def DecPic.chroma (p : DecPic) (plane : List Nat) (x y : Nat) : Nat :=
  let k := y / 2
  let j := if y % 2 = 0 then k - 1 else min (k + 1) (p.seq.height / 2 - 1)
  let v (k : Nat) : Nat := planeAt p.planes plane (p.seq.codedW / 2) (p.seq.cropX / 2 + x) (p.seq.cropY / 2 + k)
  (3 * v k + v j + 2) / 4

/-- R15, R18, R286: the tile at (col, row) of an output picture. -/
def decTile (n : Node) (p : PixFmt) (pic : DecPic) (frame : Nat) (col row : Nat) : Tile :=
  let px (i j : Nat) : List Byte :=
    let x := min (col * p.tileW + i) (p.picW - 1)
    let y := min (row * p.tileH + j) (p.picH - 1)
    leBytes 2 (pic.chroma (if i % 2 = 0 then pic.planes.cb else pic.planes.cr) (x / 2) y) ++ leBytes 2 (pic.luma x y)
  let data := (List.range p.tileH).flatMap (fun j => (List.range p.tileW).flatMap (fun i => px i j))
  let h : TileHdr := { stream := n.stream, frame := frame, col := col, row := row, format := 0x0210,
                       len16 := p.maxPayload / 16, capSec := pic.sec, capNs := pic.ns }
  let h := h.setFlag 0 (decide (p.picW < (col + 1) * p.tileW) || decide (p.picH < (row + 1) * p.tileH))
  let h := (h.setFlag 3 (col == 0 && row == 0)).setFlag 4 (col + 1 == p.cols && row + 1 == p.rows)
  { hdr := (h.setFlag 5 pic.filled).setFlag 6 pic.hold, payload := padTo p.maxPayload data }

/-- R286: emit the next tile row of the picture bumped first, when the output has room for it. (PRESUMED, log entry 57) -/
def State.decOutput (s : State) : State :=
  match s.decNode, s.dec.out with
  | some n, pic :: rest =>
    let p := s.pixFmt n.id
    let qs := s.portQueues n.id 0
    if s.island 0x14 ≠ 2 ∨ !s.roomOn qs p.cols then s
    else
      let r := s.dec.row
      let s := s.each (List.range p.cols) (fun c s => s.putTile qs (decTile n p pic s.dec.frame c r))
      if p.rows ≤ r + 1 then
        (s.setDec { s.dec with row := 0, frame := (s.dec.frame + 1) % 2 ^ 32, out := rest }).inc F.DEC_OUT_COUNT
      else s.setDec { s.dec with row := r + 1 }
  | _, _ => s

/-! ### The node -/

/-- R285, R289: a decoder node becomes active. -/
def State.decStart (s : State) (n : Node) : State :=
  let s := s.each [F.DEC_PICS_COUNT, F.DEC_OUT_COUNT, F.DEC_SUBST_COUNT, F.DEC_CONCEAL_COUNT, F.DEC_SKIPPED_COUNT]
    (fun f s => s.wr f 0)
  let s := s.setHq { s.hq with seqs := KMap.set (fun _ => 0) s.hq.seqs n.stream (n.par 8 4) }
  s.setDec { frame := n.par 4 4 }

/-- R89: a decoder node stops. -/
def State.decStop (s : State) : State :=
  ((s.setDec {}).wr F.DEC_STATUS_SEQ_VALID 0).wr F.DEC_STATUS_RECOVERING 0

/-- DEC_INPUT_CHUNK (R286, R287). -/
def execDecInputChunk (events : List DecEvent) (s : State) : Out := .next (s.decInput events)

/-- DEC_PICTURE_OUTPUT (R286). -/
def execDecPictureOutput (s : State) : Out := .next s.decOutput

end Sys2Proof.Machine
end

