-- ==== Sys2Proof/Machine/Sched.lean ====
section
/-! DEFINITION. Tasks (R111 to R123, R167 to R170): creation, dispatch, preemption, resumption, end and cancel, and the
commands of the SCH block. -/

namespace Sys2Proof.Machine

/-! ### What a node's kernel asks for -/

/-- The installed kernel with an ID (R181, R182). -/
def State.kernel? (s : State) (id : Nat) : Option Kernel := (s.eng.lib ++ s.eng.ktab).find? (fun k => k.id == id)

/-- R99, R112: NEED of a node's input port. -/
def State.needOf (s : State) (n : Node) (port : Nat) : Nat :=
  if n.kind = 3 then 1 else if n.kind = 2 then ((s.kernel? n.op).map (fun k => k.need.getD port 0)).getD 0 else 0

/-- R99, R112: ROOM of a node's output port. -/
def State.roomOf (s : State) (n : Node) (port : Nat) : Nat :=
  if n.kind = 3 then 1 else if n.kind = 2 then ((s.kernel? n.op).map (fun k => k.room.getD port 0)).getD 0 else 0

/-- R112: MAX_TASKS of a node; 64 for a DMA_TILE node. -/
def State.maxTasks (s : State) (n : Node) : Nat :=
  if n.kind = 3 then 64 else ((s.kernel? n.op).map (fun k => k.maxTasks)).getD 0

/-- R166, R179: LM_SIZE of the task's kernel. -/
def Task.lmSize (t : Task) : Nat := t.kern.lmSize

/-- The outstanding tasks, with their slots. -/
def State.taskList (s : State) : List (Nat × Task) :=
  s.sch.tasks.filterMap (fun e => e.2.map (fun t => (e.1, t)))

/-- The outstanding tasks of a node. -/
def State.tasksOf (s : State) (node : Nat) : List (Nat × Task) := s.taskList.filter (fun e => e.2.node == node)

/-- R127: SCH_SLOTS follows the free task slots. -/
def State.noteSlots (s : State) : State :=
  let f := 8192 - s.taskList.length
  (s.wr F.SCH_SLOTS_FREE f).wr F.SCH_SLOTS_LOW_WATER (min (s.rd F.SCH_SLOTS_LOW_WATER) f)

/-- Is the task on a ready list (R114)? -/
def Task.listed (t : Task) : Bool := t.state == .ready || t.state == .waking

/-! ### Creation (R112, R113, R115) -/

/-- R112: the committed, unclaimed entries of a queue that are not void. -/
def State.claimable (s : State) (qid : Nat) : List Nat :=
  let q := s.queue qid
  ((List.range q.count).map (fun i => q.ix (q.head + i))).filter
    (fun i => !q.claims.contains i && !q.popped.contains i && !(s.ringEntry q i).void)

/-- R112: do a node's inputs and output room suffice for a task? -/
def State.nodeReady (s : State) (n : Node) : Bool :=
  (List.range n.inPorts).all (fun p =>
    match s.image.inEdge n.id p with
    | none => false
    | some e => decide (s.needOf n p ≤ (s.claimable e.qid).length)) &&
  (List.range n.outPorts).all (fun p => s.roomOn (s.portQueues n.id p) (s.roomOf n p)) &&
  decide ((s.tasksOf n.id).length < s.maxTasks n)

/-- R112: claim the next NEED entries of one input port. -/
def State.claimPort (s : State) (n : Node) (p : Nat) : List Claim × State :=
  match s.image.inEdge n.id p with
  | none => ([], s)
  | some e =>
    let l := (s.claimable e.qid).take (s.needOf n p)
    let q := s.queue e.qid
    (l.map (fun i => { port := p, qid := e.qid, idx := i }),
     s.setQueue e.qid { q with claims := q.claims ++ l, claimed := q.claimed + l.length })

/-- R20, R103: reserve one tile on an output port: one sequence number, one entry on each of its queues. -/
def State.reservePort (s : State) (n : Node) (p : Nat) : OutRes × State :=
  let r := s.takeSeq n.stream
  let a := (s.portQueues n.id p).foldl (fun (a : List (Nat × Nat) × State) q =>
    let b := a.2.reserve q 1
    (a.1 ++ [(q, b.1.headD 0)], b.2)) ([], r.2)
  ({ port := p, seq := r.1, ents := a.1 }, a.2)

/-- Claim on every input port, in port order. -/
def State.claimAll (s : State) (n : Node) : List Claim × State :=
  (List.range n.inPorts).foldl (fun (a : List Claim × State) p =>
    let b := a.2.claimPort n p
    (a.1 ++ b.1, b.2)) ([], s)

/-- R20, R103: reserve ROOM tiles on every output port, in port order and then in entry order. -/
def State.reserveAll (s : State) (n : Node) : List OutRes × State :=
  ((List.range n.outPorts).flatMap (fun p => List.replicate (s.roomOf n p) p)).foldl
    (fun (a : List OutRes × State) p =>
      let b := a.2.reservePort n p
      (a.1 ++ [b.1], b.2)) ([], s)

/-- R51: is engine `k` in a node's engine mask? -/
def Node.hasEngine (n : Node) (k : Nat) : Bool := n.res / 2 ^ k % 2 == 1

/-- R115: the clusters that contain engines of the mask. -/
def Node.clusters (n : Node) : List Nat := (List.range 16).filter (fun c => n.res / 2 ^ (8 * c) % 256 != 0)

/-- R115: READY tasks of a cluster at level `l` or above. -/
def State.readyAtOrAbove (s : State) (c l : Nat) : Nat :=
  (s.taskList.filter (fun e => e.2.cluster == c && e.2.listed && decide (l ≤ e.2.level))).length

/-- R115: the cluster a new task of a node goes to. -/
def State.chooseCluster (s : State) (n : Node) : Nat :=
  let cs := n.clusters
  match cs.filter (fun c => s.awake c) with
  | [] => cs.headD 0
  | c :: t => t.foldl (fun b c => if s.readyAtOrAbove c n.prio < s.readyAtOrAbove b n.prio then c else b) c

/-- The FRAME and FRAME_START of the first tile claimed on the lowest-numbered input port (R123, R169). -/
def State.firstTile (s : State) (cl : List Claim) : Nat × Bool :=
  match cl with
  | [] => (0, false)
  | c :: _ =>
    let e := s.ringEntry (s.queue c.qid) c.idx
    ((hdrOf (s.physRead e.addr 32)).frame, e.eflags % 2 == 1)

/-- R113: a wait for a slot ends when the node is no longer ready. -/
def State.dropStalled (s : State) : State :=
  s.setSch { s.sch with stalled := s.sch.stalled.filter (fun id => match s.node? id with
    | some n => s.nodeReady n
    | none => false) }

/-- R113: a ready node waits for a slot; the wait is counted when it begins. -/
def State.slotStall (s : State) (id : Nat) : State :=
  if s.sch.stalled.contains id then s
  else (s.setSch { s.sch with stalled := s.sch.stalled ++ [id] }).inc F.SCH_SLOT_STALL_COUNT

/-- R112, R115: create a task of a ready node in slot `slot`. (DESIGN CHOICE, log entry 11; DEDUCED, log entry 144) -/
def State.createTask (s : State) (n : Node) (slot : Nat) : State :=
  let c := s.claimAll n
  let o := c.2.reserveAll n
  let s := o.2
  let cl := if n.kind = 3 then 16 else s.chooseCluster n
  let ft := s.firstTile c.1
  let t : Task := { node := n.id, nd := n, kern := (s.kernel? n.op).getD {}, level := n.prio, state := if cl < 16 ∧ !s.awake cl then .waking else .ready,
                    cluster := cl, claims := c.1, outs := o.1, frame := ft.1, firstFs := ft.2, readyAt := s.ref,
                    stamp := s.sch.clock }
  let s := (s.setTask slot (some t))
  let s := s.setSch { s.sch with clock := s.sch.clock + 1, stalled := s.sch.stalled.erase n.id }
  let s := s.noteSlots
  if cl < 16 then s.islandDemand cl else s

/-- R112, R113: TASK_CREATE. A node that is ready takes the lowest free slot; without one, or held back by SLOT_RESERVE,
its wait is counted once. -/
def State.taskCreate (s : State) (id : Nat) : State :=
  let s := s.dropStalled
  match s.node? id with
  | none => s
  | some n =>
    if (n.kind ≠ 2 ∧ n.kind ≠ 3) || s.sch.stopped || !s.nodeReady n then s
    else
      let free := s.rd F.SCH_SLOTS_FREE
      match lowest 8192 (fun k => (s.task k).isNone) with
      | some slot =>
        if free ≤ s.rd F.SCH_CTRL_SLOT_RESERVE ∧ n.prio < 6 then s.slotStall id else s.createTask n slot
      | none => s.slotStall id

/-! ### Dispatch (R116, R117, R167, R169, R90) -/

/-- Tasks that occupy an area of engine `k`: running or stopped there (R167). -/
def State.tasksOn (s : State) (k : Nat) : List (Nat × Task) :=
  s.taskList.filter (fun e => e.2.engine == k && !e.2.listed)

/-- R167: the area a task of this LM_SIZE gets on engine `k`, if one is free. -/
def State.areaFor (s : State) (k lm : Nat) : Option Nat :=
  let occ := (s.tasksOn k).map (fun e => e.2.area)
  let taskFree := !(occ.contains 0 || occ.contains 2)
  let urgFree := !(occ.contains 1 || occ.contains 2)
  if 0x18000 < lm then (if taskFree && urgFree then some 2 else none)
  else if taskFree then some 0
  else if lm ≤ 0x8000 ∧ urgFree then some 1
  else none

/-- R120, R154: a stopped task of engine `k` that may take it now. -/
def State.resumable (s : State) (k : Nat) : Bool :=
  (s.tasksOn k).any (fun e => e.2.state == .preempted || (e.2.state == .faulted && e.2.resolved))

/-- R117, R167: is engine `k` idle for a task of this LM_SIZE? -/
def State.idleFor (s : State) (k lm : Nat) : Bool :=
  (s.engine k).running.isNone && !s.resumable k && (s.areaFor k lm).isSome

/-- R167: the local memory base of a task on engine `k` in an area. -/
def lmBase (k area : Nat) : Nat := 0x4000000 + k * 0x20000 + (if area = 1 then 0x18000 else 0)

/-- R169: the task block. -/
def taskBlock (slot k argsLen : Nat) (t : Task) : List Byte :=
  leBytes 2 t.node ++ leBytes 2 slot ++ leBytes 4 t.frame ++
  leBytes 1 ((if t.firstFs then 1 else 0) + (if t.area = 1 then 2 else 0)) ++ leBytes 1 k ++ leBytes 2 0 ++
  leBytes 4 argsLen ++ List.replicate 16 0

/-- R169: the registers a kernel starts with; floating-point and vector registers are free values. (DEDUCED, log entry 17) -/
def startRegs (kn : Kernel) (area free : Nat) : EngRegs :=
  { pc := 0x20000000 + kn.entry,
    x := (List.range 32).map (fun i => if i = 2 ∨ i = 11 then BitVec.ofNat 32 kn.lmSize
      else if i = 10 then BitVec.ofNat 32 kn.argLm else 0),
    f := (List.range 32).map (fun i => BitVec.ofNat 32 (Config.freeWord (free + i))),
    v := (List.range 32).map (fun i => BitVec.ofNat 512 (Config.freeWord (free + 32 + i))),
    vtype := 0x80000000, area := area }

/-- R185: ENG_E_STATE follows the tasks on engine `k`. -/
def State.noteEngine (s : State) (k : Nat) : State :=
  let on := s.tasksOn k
  let st (a : Nat) : Nat :=
    if on.any (fun e => (e.2.area == a || e.2.area == 2) && e.2.state == .running) then 1
    else if on.any (fun e => e.2.area == a || e.2.area == 2) then 2 else 0
  let node := ((s.engine k).running.bind (fun t => (s.task t).map (fun t => t.node))).getD 0
  ((s.wr (F.ENG_E_STATE_TASK_AREA k) (st 0)).wr (F.ENG_E_STATE_URGENT_AREA k) (st 1)).wr (F.ENG_E_STATE_NODE_ID k) node

/-- R117, R123, R127: a task is dispatched for the first time. -/
def State.noteDispatch (s : State) (slot : Nat) (t : Task) : State :=
  let s := s.histCount 1 t.node (s.ref - t.readyAt)
  let s := s.setTask slot (some t)
  s.setSch { s.sch with clock := s.sch.clock + 1 }

/-- R169: start a task on engine `k` in an area. -/
def State.startTask (s : State) (slot k area : Nat) (preempted : Option Nat) : State :=
  match s.task slot with
  | none => s
  | some t =>
      let n := t.nd
      let s := s.maybeSwitch n.id t.firstFs
      let kn := t.kern
      let args := n.params.drop 16
      let t := { t with state := .running, engine := k, area := area, dispatchStamp := s.sch.clock,
                        wait := min (s.fclkOf (s.ref - t.readyAt)) (2 ^ 32 - 1), preempted := preempted,
                        tables := s.tablesOf n.id }
      let s := s.noteDispatch slot t
      let e := s.engine k
      let s := s.setEngine k { e with running := some slot, regs := startRegs kn area s.free, busyFrom := s.ref,
                                      waiting := false, stopReq := false }
      let s := s.setFree (s.free + 64)
      (s.setBytes (lmBase k area + kn.argLm) (taskBlock slot k args.length t ++ args)).noteEngine k

/-- Level-then-age order (R116, R117). -/
def dispatchOrder (l : List (Nat × Task)) : List (Nat × Task) :=
  l.mergeSort (fun a b => decide (b.2.level < a.2.level) || (a.2.level == b.2.level && decide (a.2.stamp ≤ b.2.stamp)))

/-- R117: the engines of cluster `c` that are idle for a task. (DESIGN CHOICE, log entry 11) -/
def State.idleEngines (s : State) (c : Nat) (t : Task) : List Nat :=
  ((List.range 8).map (fun i => 8 * c + i)).filter (fun k => t.nd.hasEngine k && s.idleFor k t.lmSize)

/-- R117: dispatch one task of cluster `c`. -/
def State.dispatchCluster (s : State) (c : Nat) : State :=
  if !s.awake c then s
  else
    match (dispatchOrder (s.taskList.filter (fun e => e.2.cluster == c && e.2.listed))).find?
        (fun e => !(s.idleEngines c e.2).isEmpty) with
    | none => s
    | some (slot, t) =>
      match s.idleEngines c t with
      | [] => s
      | k :: _ => s.startTask slot k ((s.areaFor k t.lmSize).getD 0) none

/-- R149, R155: may mover `m` take a DMA_TILE task? Not while it runs a task or an unfinished or held descriptor. -/
def State.moverIdle (s : State) (m : Nat) : Bool :=
  let v := s.mover m
  v.task.isNone && (match v.run with | none => true | some r => r.faulted) &&
  !(s.xlt.held.any (fun h => h.fr.requester == 0x200 + m))

/-- R155: the context slot of mover `m`'s ring descriptor, once its fault has been resolved. -/
def State.ringResolved (s : State) (m : Nat) : Option Nat :=
  (s.xlt.ctxs.find? (fun e => e.2.rclass == 2 && e.2.requester == 0x200 + m && e.2.node == 0 && e.2.resolved)).map (fun e => e.1)

/-- R154: does a resolved DMA_TILE task wait for mover `m`? -/
def State.taskResolved (s : State) (m : Nat) : Bool :=
  (s.tasksOn (0x80 + m)).any (fun e => e.2.state == .faulted && e.2.resolved)

/-- R115, R154, R155: the movers a DMA_TILE task can go to now. (DESIGN CHOICE, log entry 11) -/
def State.idleMovers (s : State) (t : Task) : List Nat :=
  (List.range 16).filter (fun m => t.nd.res / 2 ^ m % 2 == 1 && s.moverIdle m && !s.taskResolved m && (s.ringResolved m).isNone)

/-- R159: DMA_STAT.BUSY follows what the mover holds. -/
def State.noteMover (s : State) (m : Nat) : State :=
  let v := s.mover m
  s.wrB (F.DMA_STAT_BUSY m) (v.run.isSome || v.task.isSome || !(s.tasksOn (0x80 + m)).isEmpty)

/-- R115: the mover list's next task goes to its lowest-numbered idle mover. -/
def State.dispatchMover (s : State) : State :=
  match (dispatchOrder (s.taskList.filter (fun e => e.2.cluster == 16 && e.2.listed))).find?
      (fun e => !(s.idleMovers e.2).isEmpty) with
  | none => s
  | some (slot, t) =>
    match s.idleMovers t with
    | [] => s
    | m :: _ =>
      let s := s.maybeSwitch t.node t.firstFs
      let t := { t with state := .running, engine := 0x80 + m, dispatchStamp := s.sch.clock,
                        wait := min (s.fclkOf (s.ref - t.readyAt)) (2 ^ 32 - 1), tables := s.tablesOf t.node }
      ((s.noteDispatch slot t).setMover m { s.mover m with task := some slot, off := 0, acc := 0 }).noteMover m

/-! ### The end of a task (R105, R121, R123, R170) -/

/-- R123: write a completion record, or lose it when the ring holds 4,095. -/
def State.completionRecord (s : State) (slot : Nat) (t : Task) (status : Nat) : State :=
  let head := s.rd F.SCH_CPL_HEAD_HEAD
  let tail := s.rd F.SCH_CPL_TAIL_TAIL
  if (tail + 1) % 4096 = head then
    ((s.inc F.SCH_CPL_LOST_COUNT).wr F.SCH_STATUS_CPL_OVF 1).wr F.SCH_STATUS_STATUS 0x0B03
  else
    let w := if t.engine = 0xFF then min (s.fclkOf (s.ref - t.readyAt)) (2 ^ 32 - 1) else t.wait
    let b := leBytes 2 t.node ++ leBytes 2 slot ++ leBytes 2 status ++ leBytes 1 t.engine ++ leBytes 1 t.level ++
      leBytes 4 t.frame ++ leBytes 4 w
    let s := s.setBytes (0x3A80000 + 16 * tail) b
    (s.wr F.SCH_CPL_TAIL_TAIL ((tail + 1) % 4096)).irq 0x0B F.SCH_STATUS_CPL_IRQ F.SCH_CTRL_CPL_IRQ_EN

/-- R102, R170: every output reservation that no put completed becomes a void entry. -/
def State.voidOuts (s : State) (outs : List OutRes) : State :=
  s.each (outs.filter (fun o => !o.done)) (fun o s =>
    s.each o.ents (fun e s => s.completeVoid e.1 e.2 o.seq))

/-- The engine or mover of a task lets it go, and its context slot is freed. -/
def State.releaseTask (s : State) (t : Task) : State :=
  let s := match t.ctx with
    | some c => s.setCtx c {}
    | none => s
  if t.state = .running then
    if t.engine < 0x80 then
      let e := s.engine t.engine
      s.setEngine t.engine { e with running := none, waiting := false, stopReq := false, graceOver := false,
                                    winBusy := e.winBusy + (s.ref - max e.busyFrom s.sch.winStart) }
    else if t.engine < 0x90 then s.setMover (t.engine - 0x80) { s.mover (t.engine - 0x80) with task := none }
    else s
  else s

/-- A preemption in progress of a task that ends is dropped, and its reserved context slot freed (R118). -/
def State.dropPreempt (s : State) (slot : Nat) : State :=
  s.each (List.range 16) (fun c s =>
    match KMap.get (fun _ => none) s.sch.preempts c with
    | some p =>
      if p.victim = slot then
        (s.setSch { s.sch with preempts := KMap.set (fun _ => none) s.sch.preempts c none }).setCtx p.ctx {}
      else s
    | none => s)

/-- R121, R156: the written fault records held for a task go with it (R151). (DEDUCED, log entry 121) -/
def State.dropHeld (s : State) (slot : Nat) : State :=
  s.setXlt { s.xlt with held := s.xlt.held.filter (fun h =>
    !(h.written && (h.fr.rclass == 1 || h.fr.rclass == 2) && h.fr.node != 0 && h.fr.task == slot)) }

/-- R104: a put that waited for room is withdrawn with its task. -/
def State.dropPuts (s : State) (slot : Nat) : State := s.setHq { s.hq with puts := s.hq.puts.filter (fun r => r.slot != slot) }

/-- R105, R119, R123, R170: a task ends with a status: claims popped, unfilled reservations voided, its engine and slot
freed, its record written unless it ended OK without CPL_ALL. R127: SCH_ENG_LOAD counts the tasks that complete, which a cancelled or
aborted task does not. -/
def State.endTask (s : State) (slot status : Nat) : State :=
  match s.task slot with
  | none => s
  | some t =>
    let status := if status = 0 ∧ t.forced then 0x0B05 else status
    let s := (((s.releaseTask t).dropPreempt slot).dropHeld slot).dropPuts slot
    let s := s.each t.claims (fun c s => s.pop c.qid c.idx)
    let s := s.voidOuts t.outs
    let s := if status ≠ 0 ∨ s.on F.SCH_CTRL_CPL_ALL then s.completionRecord slot t status else s
    let s := (s.setTask slot none).noteSlots
    if t.engine < 0x80 then
      let done := if status = 0x0B04 ∨ status = 0x080B then 0 else 1
      (s.setEngine t.engine { s.engine t.engine with winTasks := (s.engine t.engine).winTasks + done }).noteEngine t.engine
    else if t.engine < 0x90 then s.noteMover (t.engine - 0x80)
    else s

/-- R121: cancel a task. (DEDUCED, log entry 22) -/
def State.cancelTask (s : State) (slot : Nat) : State := s.endTask slot 0x0B04

/-! ### Preemption and resumption (R118 to R120, R154, R176, R177) -/

/-- R118: the preemption in progress whose victim is the task in `slot`, with the cluster of the task that waits. -/
def State.preemptOf (s : State) (slot : Nat) : Option (Nat × Preempt) :=
  s.sch.preempts.findSome? (fun e => match e.2 with
    | some p => if p.victim = slot then some (e.1, p) else none
    | none => none)

/-- Save a task of engine `k` into context slot `c` and free the engine (R119, R151). A put that waited competes no longer. -/
def State.saveTask (s : State) (slot k c : Nat) (rec : Ctx) (st : TState) : State :=
  match s.task slot with
  | none => s
  | some t =>
    let e := s.engine k
    let s := (s.dropPuts slot).setCtx c { rec with regs := e.regs, stamp := s.sch.clock }
    let s := s.setTask slot (some { t with state := st, ctx := some c, stopStamp := s.sch.clock, resolved := false })
    let s := s.setSch { s.sch with clock := s.sch.clock + 1 }
    let s := s.setEngine k { e with running := none, waiting := false, stopReq := false, graceOver := false,
                                    winBusy := e.winBusy + (s.ref - max e.busyFrom s.sch.winStart) }
    s.noteEngine k

/-- R118, R168: the tasks that could be the victim of a waiting task, best first: those running on engines of its mask, whatever
their cluster, that no other preemption has chosen. (DEDUCED, log entry 22) -/
def State.victims (s : State) (t : Task) (n : Node) : List (Nat × Task) :=
  let l := s.taskList.filter (fun e =>
    e.2.state == .running && decide (e.2.engine < 0x80) && n.hasEngine e.2.engine && !s.underTest (e.2.engine / 8) &&
    e.2.preempted.isNone && (s.preemptOf e.1).isNone && decide (e.2.level < t.level) && e.2.area == 0 &&
    !((s.tasksOn e.2.engine).any (fun o => o.2.area == 1)))
  l.mergeSort (fun a b => decide (a.2.level < b.2.level) ||
    (a.2.level == b.2.level && (decide (b.2.dispatchStamp < a.2.dispatchStamp) ||
      (a.2.dispatchStamp == b.2.dispatchStamp && decide (a.2.engine ≤ b.2.engine)))))

/-- R118: PREEMPT_REQUEST for a waiting task. (DEDUCED, log entry 22) -/
def State.preemptRequest (s : State) (slot : Nat) : State :=
  match s.task slot with
  | none => s
  | some t =>
      let n := t.nd
      if !s.on F.SCH_CTRL_PREEMPT_EN || t.state != .ready || decide (16 ≤ t.cluster) ||
          decide (t.level < s.rd F.SCH_CTRL_PREEMPT_LEVEL) || s.underTest t.cluster || decide (0x8000 < t.lmSize) ||
          !(s.idleEngines t.cluster t).isEmpty || (KMap.get (fun _ => none) s.sch.preempts t.cluster).isSome then s
      else
        match s.freeCtx, (s.victims t n).head? with
        | some c, some (v, vt) =>
          let s := s.setCtx c { rclass := 1, requester := 0x100 + vt.engine, task := v, node := vt.node }
          let s := s.setSch { s.sch with preempts := KMap.set (fun _ => none) s.sch.preempts t.cluster
                                          (some { waiting := slot, victim := v, ctx := c }) }
          s.setEngine vt.engine { s.engine vt.engine with stopReq := true }
        | _, _ => s

/-- R119: the victim of cluster `c` stops with its restart point at `pc`, and the waiting task takes its engine.
(DEDUCED, log entry 22) -/
def State.preemptStop (s : State) (c pc : Nat) (forced : Bool) : State :=
  match KMap.get (fun _ => none) s.sch.preempts c with
  | none => s
  | some p =>
    match s.task p.victim with
    | none => s
    | some t =>
      let k := t.engine
      let s := s.setTask p.victim (some { t with forced := t.forced || forced })
      let s := s.saveTask p.victim k p.ctx
        { state := 1, rclass := 1, requester := 0x100 + k, task := p.victim, node := t.node, restart := pc } .preempted
      let s := s.setSch { s.sch with preempts := KMap.set (fun _ => none) s.sch.preempts c none }
      match s.task p.waiting with
      | some w => if w.listed && !s.underTest (k / 8) then s.startTask p.waiting k 1 (some p.victim) else s
      | none => s

/-- R119, R177: GRACE expires: the victim of cluster `c` stops at its next instruction; one inside a tile instruction, held by a fault,
stops when that instruction completes. -/
def State.graceExpiry (s : State) (c : Nat) : State :=
  match KMap.get (fun _ => none) s.sch.preempts c with
  | none => s
  | some p =>
    match s.task p.victim with
    | none => s
    | some t =>
      let e := s.engine t.engine
      if s.xlt.held.any (fun h => h.fr.requester == 0x100 + t.engine) then s.setEngine t.engine { e with graceOver := true }
      else s.preemptStop c e.regs.pc true

/-- R120, R154: the stopped tasks of a unit that may resume, the one stopped earliest first. -/
def State.resumeNext (s : State) (unit : Nat) : Option (Nat × Task) :=
  ((s.tasksOn unit).filter (fun e => e.2.state == .preempted || (e.2.state == .faulted && e.2.resolved))).mergeSort
    (fun a b => decide (a.2.stopStamp ≤ b.2.stopStamp)) |>.head?

/-- R120, R154: a stopped task takes its engine back. -/
def State.resumeEngine (s : State) (k : Nat) : State :=
  if (s.engine k).running.isSome then s
  else
    match s.resumeNext k with
    | none => s
    | some (slot, t) =>
      let c := s.ctx (t.ctx.getD 0)
      let s := s.setEngine k { s.engine k with running := some slot, regs := { c.regs with pc := c.restart }, acc := c.sealAcc,
                                                busyFrom := s.ref, waiting := false, stopReq := false, graceOver := false }
      let s := s.setCtx (t.ctx.getD 0) {}
      (s.setTask slot (some { t with state := .running, ctx := none, resolved := false })).noteEngine k

/-- R154, R155: a mover takes back a resolved descriptor or task, the one stopped earliest first; a ring descriptor goes
ahead of every DMA_TILE task that waits. -/
def State.resumeMover (s : State) (m : Nat) : State :=
  let v := s.mover m
  if v.task.isSome then s
  else
    match v.run, s.ringResolved m with
    | some r, some c =>
      ((s.setCtx c {}).setMover m { v with run := some { r with faulted := false } }).noteMover m
    | run, _ =>
      if (run.map (fun r => r.faulted)).getD true then
        match s.resumeNext (0x80 + m) with
        | none => s
        | some (slot, t) =>
          let x := s.ctx (t.ctx.getD 0)
          let s := s.setCtx (t.ctx.getD 0) {}
          let s := s.setTask slot (some { t with state := .running, ctx := none, resolved := false })
          (s.setMover m { v with task := some slot, off := x.restart, acc := x.sealAcc }).noteMover m
      else s

/-! ### Cancel and monitors (R121, R122, R127) -/

/-- R121, R122: a write of SCH_CANCEL; `completed` are the running tasks that complete in the same cycle, each with its own
status. (DEDUCED, log entry 15; DESIGN CHOICE, log entry 133) -/
def State.schCancel (s : State) (val : Word) (completed : List (Nat × Nat)) : State :=
  let byNode := F.SCH_CANCEL_BY_NODE.of val == 1
  let clr := F.SCH_CANCEL_CLR_STALL.of val == 1
  let target := F.SCH_CANCEL_TARGET.of val
  let s := if clr then (s.wr F.SCH_SLOT_STALL_COUNT 0).wr F.SCH_SLOTS_LOW_WATER (s.rd F.SCH_SLOTS_FREE) else s
  if target = 0 ∧ !byNode ∧ clr then s
  else
    let named := if byNode then (s.tasksOf target).map (fun e => e.1)
      else if (s.task target).isSome then [target] else []
    let ends (k : Nat) : Option (Nat × Nat) := completed.find? (fun e => e.1 == k && (s.task k).any (fun t => t.state == .running))
    let fin := named.filterMap ends
    let rest := named.filter (fun k => (ends k).isNone)
    let s := s.each fin (fun e s => s.endTask e.1 e.2)
    let s := s.each rest (fun k s => s.cancelTask k)
    let st := if !rest.isEmpty then 0 else if !fin.isEmpty then 0x0B02 else 0x0B01
    let s := (s.wr F.SCH_CANCEL_RESULT_STATUS st).wr F.SCH_CANCEL_RESULT_TASKS rest.length
    if st ≠ 0 then s.wr F.SCH_STATUS_STATUS st else s

/-- R127: a write of SCH_HIST_CFG_m; CLR clears the monitor's bins. -/
def State.histCfg (s : State) (m : Nat) (val : Word) : State :=
  let s := s.plainWrite (F.SCH_HIST_CFG_CLR m).off val
  if (F.SCH_HIST_CFG_CLR m).of val = 1 then
    s.each (List.range 20) (fun k s => s.wr (F.SCH_HIST_BIN_COUNT m k) 0)
  else s

/-- R127: a write of SCH_LOAD_WINDOW; measurement starts afresh when WINDOW was 0. -/
def State.loadWindowWrite (s : State) (val : Word) : State :=
  let was := s.rd F.SCH_LOAD_WINDOW_WINDOW
  let s := s.plainWrite F.SCH_LOAD_WINDOW_WINDOW.off val
  if was ≠ 0 then s
  else
    let s := s.each (List.range 128) (fun k s => s.setEngine k { s.engine k with winBusy := 0, winTasks := 0 })
    s.setSch { s.sch with winStart := s.ref }

/-- R127: a load window ends. -/
def State.loadWindowEnd (s : State) : State :=
  let w := s.rd F.SCH_LOAD_WINDOW_WINDOW * 1024
  if w = 0 then s
  else
    let s' := s.each (List.range 128) (fun k s =>
      let e := s.engine k
      let busy := e.winBusy + (if e.running.isSome then s.ref - max e.busyFrom s.sch.winStart else 0)
      let s := s.wr (F.SCH_ENG_LOAD_TASKS k) (min e.winTasks 0xFFFF)
      let s := s.wr (F.SCH_ENG_LOAD_BUSY k) (min (busy * 65536 / w) 0xFFFF)
      s.setEngine k { e with winBusy := 0, winTasks := 0 })
    s'.setSch { s'.sch with winStart := s.ref }

/-! ### Commands -/

/-- TASK_CREATE (R112). -/
def execTaskCreate (node : BitVec 16) (s : State) : Out := .next (s.taskCreate node.toNat)

/-- TASK_DISPATCH (R117; R115 for the mover list). -/
def execTaskDispatch (list : Fin 17) (s : State) : Out :=
  .next (if list.val = 16 then s.dispatchMover else s.dispatchCluster list)

/-- PREEMPT_REQUEST (R118). -/
def execPreemptRequest (slot : Fin 8192) (s : State) : Out := .next (s.preemptRequest slot)

/-- PREEMPT_GRACE_EXPIRY (R119, R177). -/
def execPreemptGraceExpiry (cluster : Fin 16) (s : State) : Out :=
  .next (s.graceExpiry cluster)

/-- TASK_RESUME (R120, R154, R155). -/
def execTaskResume (unit : Fin 144) (s : State) : Out :=
  .next (if unit.val < 128 then s.resumeEngine unit else s.resumeMover (unit - 128))

/-- SCH_CANCEL (R121, R122). -/
def execSchCancel (src : Agent) (val : Word) (completed : List (Fin 8192 × BitVec 16)) (s : State) : Out :=
  .next (s.writeReg src F.SCH_CANCEL_TARGET val (fun s => s.schCancel val (completed.map (fun k => (k.1.val, k.2.toNat)))))

/-- SCH_HIST_CFG_m with CLR (R127). -/
def execHistClr (src : Agent) (mon : Fin 4) (val : Word) (s : State) : Out :=
  .next (s.writeReg src (F.SCH_HIST_CFG_CLR mon) (val ||| 0x40000000)
    (fun s => s.histCfg mon (val ||| 0x40000000)))

/-- LOAD_WINDOW_END (R127). -/
def execLoadWindowEnd (s : State) : Out := .next s.loadWindowEnd

/-- Writes of the SCH block by offset. -/
def State.schRegWrite (s : State) (o : Nat) (val : Word) : State :=
  if o = 0x014 then s.schCancel val []
  else if o = 0x028 then s.loadWindowWrite val
  else if 0x040 ≤ o ∧ o < 0x050 then s.histCfg ((o - 0x040) / 4) val
  else s.plainWrite (blockBase 0x0B + o) val

end Sys2Proof.Machine
end

