-- ==== Sys2Proof/Machine/Xlt.lean ====
section
/-! DEFINITION. Translation (R142 to R148), faults and their records (R151, R152, R156, R157), and the commands of the
TSTO, QDR, MESH and XLT blocks except the resolutions. -/

namespace Sys2Proof.Machine

/-! ### The walk -/

/-- The end of a translation: a physical address with the leaf that gave it, or a fault (its kind, the level at which
the walk stopped and the last entry read). -/
inductive Walk where
  | ok (phys : Nat)
  | fault (kind level pte : Nat)
  deriving DecidableEq, Repr

/-- R145: a reserved bit of an entry is set. -/
def pteReserved (e : Nat) : Bool := e / 2 ^ 40 != 0 || bits e 4 12 != 0

/-- R145: a table pointer must lie in the tile store or QDR main memory. -/
def State.tablePlace (s : State) (a : Nat) : Bool := decide (a < 0x4000000) || s.place a == .qdr

/-- R134, R145: what a leaf gives for an access: `size` is the page or block it maps. -/
def State.leaf (s : State) (e level va size : Nat) (write : Bool) : Walk :=
  let base := bits e 16 24 * 0x10000
  let out := base + va % size
  if (decide (base < 0x4000000) && decide (0x3800000 < base + size)) ||
      (decide (base < 0x201000000) && decide (0x200000000 < base + size)) then .fault 0x02 level (e % 2 ^ 32)
  else if (write && bits e 3 1 == 0) || (!write && bits e 2 1 == 0) then .fault 0x02 level (e % 2 ^ 32)
  else if s.place out = .hole then .fault 0x04 level (e % 2 ^ 32)
  else .ok out

/-- R139, R140: does the read of a table entry fail its burst check: a burst stored with inverted check bits, or one of QDR main
memory that is read wrong twice (`bad`)? -/
def State.entryFails (s : State) (a : Nat) (bad : Bool) : Bool := s.burstBad a || (bad && s.place a == .qdr)

/-- R144: the addresses of the table entries a walk reads, level 1 first, as far as its tables lead. -/
def State.walkEntries (s : State) (n va : Nat) : Nat × Nat × Nat :=
  let rd (a : Nat) : Nat := le (s.bytesAt a 8)
  let a1 := (s.space n).root + 8 * bits va 42 6
  let a2 := bits (rd a1) 16 24 * 0x10000 + 8 * bits va 29 13
  (a1, a2, bits (rd a2) 16 24 * 0x10000 + 8 * bits va 16 13)

/-- R144, R145: the walk of a 48-bit address in space `n`; `bad` is the level whose table read fails its burst check
(R140), 0 for none. -/
def State.walk (s : State) (n va : Nat) (write : Bool) (bad : Nat) : Walk :=
  let rd (a : Nat) : Nat := le (s.bytesAt a 8)
  let a := s.walkEntries n va
  let e1 := rd a.1
  if s.entryFails a.1 (bad == 1) then .fault 0x07 1 0
  else if e1 % 2 = 0 then .fault 0x01 1 (e1 % 2 ^ 32)
  else if pteReserved e1 || bits e1 1 1 == 0 || !s.tablePlace (bits e1 16 24 * 0x10000) then .fault 0x03 1 (e1 % 2 ^ 32)
  else
    let e2 := rd a.2.1
    if s.entryFails a.2.1 (bad == 2) then .fault 0x07 2 (e1 % 2 ^ 32)
    else if e2 % 2 = 0 then .fault 0x01 2 (e2 % 2 ^ 32)
    else if pteReserved e2 then .fault 0x03 2 (e2 % 2 ^ 32)
    else if bits e2 1 1 = 0 then
      if bits e2 16 13 ≠ 0 then .fault 0x03 2 (e2 % 2 ^ 32) else s.leaf e2 2 va 0x20000000 write
    else if !s.tablePlace (bits e2 16 24 * 0x10000) then .fault 0x03 2 (e2 % 2 ^ 32)
    else
      let e3 := rd a.2.2
      if s.entryFails a.2.2 (bad == 3) then .fault 0x07 3 (e2 % 2 ^ 32)
      else if e3 % 2 = 0 then .fault 0x01 3 (e3 % 2 ^ 32)
      else if pteReserved e3 || bits e3 1 1 == 1 then .fault 0x03 3 (e3 % 2 ^ 32)
      else s.leaf e3 3 va 0x10000 write

/-- R142, R143, R146: translate one address: space 0 is the identity, a cached leaf is used, otherwise the tables are
walked. (DESIGN CHOICE, log entry 13) -/
def State.translate (s : State) (n va : Nat) (write : Bool) (bad : Nat) : Walk :=
  if n = 0 then
    if 2 ^ 40 ≤ va then .fault 0x04 0 0
    else if s.place va = .hole then .fault 0x04 0 0 else .ok va
  else if (s.space n).state ≠ 2 then .fault 0x05 0 0
  else
    match s.xlt.tlb.find? (fun e => e.space == n && e.page == va / 0x10000) with
    | some e => s.leaf e.pte e.level va (if e.level = 2 then 0x20000000 else 0x10000) write
    | none => s.walk n va write bad

/-- R146: the leaf entry a walk of a page ends at, if it ends at one. (DESIGN CHOICE, log entry 13) -/
def State.leafEntry (s : State) (n va : Nat) : Option TlbEntry :=
  let rd (a : Nat) : Nat := le (s.bytesAt a 8)
  let a := s.walkEntries n va
  let e1 := rd a.1
  let e2 := rd a.2.1
  let e3 := rd a.2.2
  if e1 % 2 = 0 ∨ bits e1 1 1 = 0 ∨ e2 % 2 = 0 then none
  else if bits e2 1 1 = 0 then some { space := n, page := va / 0x10000, pte := e2, level := 2 }
  else if e3 % 2 = 0 then none
  else some { space := n, page := va / 0x10000, pte := e3, level := 3 }

/-- R146: a translation that succeeds is cached. (DESIGN CHOICE, log entry 13) -/
def State.cacheLeaf (s : State) (n va : Nat) : State :=
  if n = 0 ∨ s.xlt.tlb.any (fun e => e.space == n && e.page == va / 0x10000) then s
  else
    match s.leafEntry n va with
    | some e => s.setXlt { s.xlt with tlb := s.xlt.tlb ++ [e] }
    | none => s

/-- R145: translate an access of `len` bytes: an access past 2^48 − 1 faults, both pages of one that spans two are
checked before any byte moves. The physical address is that of the first byte. -/
def State.translateAccess (s : State) (n va len : Nat) (write : Bool) (bad : Nat) : Walk :=
  if 2 ^ 48 < va + len then .fault 0x04 0 0
  else
    match s.translate n va write bad with
    | .fault k l p => .fault k l p
    | .ok a =>
      match s.translate n (va + (len - 1)) write bad with
      | .fault k l p => .fault k l p
      | .ok _ => .ok a

/-- R130, R139: what a read of `len` bytes through a space does besides its data. -/
def State.readNote (s : State) (n va len : Nat) : State :=
  match s.translate n va false 0 with
  | .ok a => s.noteRead a len
  | .fault _ _ _ => s

/-- Read `len` bytes through a space, byte by byte so that pages may lie anywhere; the caller has checked the access. -/
def State.vread (s : State) (n va : Nat) : Nat → List Byte
  | 0 => []
  | len + 1 =>
    (match s.translate n va false 0 with | .ok a => s.physByte a | .fault _ _ _ => 0) :: s.vread n (va + 1) len

/-- Write bytes through a space, split where a 64 KiB page ends. -/
def State.vwrite (s : State) (n va : Nat) (b : List Byte) : State :=
  let first := 0x10000 - va % 0x10000
  let put (s : State) (va : Nat) (b : List Byte) : State :=
    if b.isEmpty then s
    else match s.translate n va true 0 with
      | .ok a => s.physWrite a b
      | .fault _ _ _ => s
  put (put s va (b.take first)) (va + first) (b.drop first)

/-! ### Faults -/

/-- R151: the class of a requester by its mesh node ID. -/
def rclassOf (mesh : Nat) : Nat :=
  if 0x100 ≤ mesh ∧ mesh < 0x180 then 1 else if 0x200 ≤ mesh ∧ mesh < 0x210 then 2
  else if 0x400 ≤ mesh ∧ mesh < 0x404 then 3 else if mesh = 0x900 then 4 else 0

/-- R151: the number of fault records in the queue. -/
def State.fqCount (s : State) : Nat := (s.rd F.XLT_FQ_TAIL_TAIL + 1024 - s.rd F.XLT_FQ_HEAD_HEAD) % 1024

/-- XLT_STATUS.FQ_FULL follows the queue (R158). -/
def State.noteFq (s : State) : State := s.wrB F.XLT_STATUS_FQ_FULL (s.fqCount == 1023)

/-- R151: write a fault record at XLT_FQ_TAIL. -/
def State.putFault (s : State) (r : FaultRec) : State :=
  let tail := s.rd F.XLT_FQ_TAIL_TAIL
  let s := s.setBytes (0x3A90000 + 32 * tail) r.bytes
  let s := s.wr F.XLT_FQ_TAIL_TAIL ((tail + 1) % 1024)
  s.noteFq.irq 0x08 F.XLT_STATUS_FQ_IRQ F.XLT_CTRL_FQ_IRQ_EN

/-- The waiting task of cluster `c`'s preemption, whose victim faulted, takes the engine (R156). -/
def State.takeOver (s : State) (c k : Nat) : State :=
  match KMap.get (fun _ => none) s.sch.preempts c with
  | none => s
  | some p =>
    let s := s.setSch { s.sch with preempts := KMap.set (fun _ => none) s.sch.preempts c none }
    match s.task p.waiting with
    | some w => if w.listed then s.startTask p.waiting k 1 (some p.victim) else s
    | none => s

/-- R151: the context slot a requester that faults now would get: an engine being preempted has one reserved (R118). -/
def State.faultCtx (s : State) (mesh : Nat) : Option Nat :=
  if rclassOf mesh = 1 then
    match (s.engine (mesh - 0x100)).running.bind s.preemptOf with
    | some (_, p) => some p.ctx
    | none => s.freeCtx
  else if rclassOf mesh = 4 then none
  else s.freeCtx

/-- R151, R156: save a faulted requester into context slot `c` and free it. -/
def State.saveFaulted (s : State) (mesh c : Nat) (save : Ctx) : State :=
  if rclassOf mesh = 1 then
    let k := mesh - 0x100
    match (s.engine k).running with
    | none => s
    | some slot =>
      let mine := s.preemptOf slot
      let s := s.saveTask slot k c save .faulted
      match mine with
      | some (c, _) => s.takeOver c k
      | none => s
  else if rclassOf mesh = 2 then
    let m := mesh - 0x200
    let v := s.mover m
    match v.task with
    | some slot =>
      match s.task slot with
      | none => s
      | some t =>
        let s := s.setCtx c { save with stamp := s.sch.clock }
        let s := s.setTask slot (some { t with state := .faulted, ctx := some c, stopStamp := s.sch.clock, resolved := false })
        let s := s.setSch { s.sch with clock := s.sch.clock + 1 }
        (s.setMover m { v with task := none }).noteMover m
    | none =>
      let s := s.setCtx c { save with stamp := s.sch.clock }
      match v.run with
      | some r => s.setMover m { v with run := some { r with faulted := true } }
      | none => s
  else s.setCtx c save

/-- R151: write the record, then save the requester into a context slot, or hold it in place when there is none. -/
def State.recordFault (s : State) (r : FaultRec) (save : Ctx) : State :=
  match s.faultCtx r.requester with
  | some c => (s.putFault { r with context := c }).saveFaulted r.requester c save
  | none =>
    let r := { r with access := r.access % 16 + 16, context := 0xFFFF }
    let s := s.putFault r
    let s := if rclassOf r.requester = 4 then s.wr (F.HIF_CH_INFO_HELD r.task) 1 else s
    s.setXlt { s.xlt with held := s.xlt.held ++ [{ fr := r, save := save, written := true }] }

/-- R151, R152: a requester faults: it takes the next FAULT_SEQ, and waits in place while the fault queue is full. -/
def State.fault (s : State) (r : FaultRec) (save : Ctx) : State :=
  let n := if s.xlt.faultSeq + 1 = 2 ^ 32 then 1 else s.xlt.faultSeq + 1
  let s := s.setXlt { s.xlt with faultSeq := n }
  let r := { r with seq := n }
  let save := { save with state := 2, seq := n }
  if s.fqCount = 1023 then
    (s.setXlt { s.xlt with held := s.xlt.held ++ [{ fr := r, save := save, written := false }] }).inc
      F.XLT_FQ_WAIT_COUNT_COUNT
  else s.recordFault r save

/-- R50, R268: the ENC_STREAM node of the stream context that core `n` serves. -/
def State.coreNode (s : State) (n : Nat) : Option Node :=
  (KMap.get (fun _ => ({} : EncCore)) s.enc.cores n).cur.bind (fun c => s.image.nodes.find? (fun x => x.kind == 4 && x.res / 256 % 256 == c))

/-- The node, task field and frame of the work a requester is doing (R151): a task of an engine or mover, a ring index, the stream
context of an encoder core, a channel of host-side DMA. -/
def State.workOf (s : State) (mesh chan : Nat) : Nat × Nat × Nat :=
  let ofTask (slot : Option Nat) : Nat × Nat × Nat :=
    match slot with
    | some k => ((s.task k).map (fun t => (t.node, k, t.frame))).getD (0, 0xFFFF, 0)
    | none => (0, 0xFFFF, 0)
  if rclassOf mesh = 1 then ofTask (s.engine (mesh - 0x100)).running
  else if rclassOf mesh = 2 then
    let m := mesh - 0x200
    match (s.mover m).task with
    | some k => ofTask (some k)
    | none => (0, s.rd (F.DMA_PTR_HEAD m), 0)
  else if rclassOf mesh = 3 then
    match (KMap.get (fun _ => ({} : EncCore)) s.enc.cores (mesh - 0x400)).cur with
    | some c => (((s.coreNode (mesh - 0x400)).map (fun n => n.id)).getD 0, c,
        ((KMap.get (fun _ => ({} : EncCtx)) s.enc.ctxs c).frames.head?.map (fun f => f.num)).getD 0)
    | none => (0, 0xFFFF, 0)
  else if rclassOf mesh = 4 then (((s.chan chan).node).getD 0, chan, (s.chan chan).frame)
  else (0, 0xFFFF, 0)

/-- R140: a table read that failed its burst check is counted, reported and captured. -/
def State.walkError (s : State) (n va level : Nat) : State :=
  let a := s.walkEntries n va
  s.burstError (if level = 1 then a.1 else if level = 2 then a.2.1 else a.2.2)

/-- R151: the fault of an access by a requester that stops at `stop`. -/
def State.faultAccess (s : State) (mesh n va : Nat) (write : Bool) (kind level pte : Nat) (stop : StopPoint)
    (work : List Byte := []) (frame : Option Nat := none) (chan : Nat := 0) (of_ : Option (Nat × Nat × Nat) := none) : State :=
  let w := of_.getD (s.workOf mesh chan)
  let s := if kind = 0x07 then s.walkError n va level else s
  let acc := (if kind = 0x07 then 2 else if write then 1 else 0) + 4 * level
  s.fault
    { kind := kind, access := acc, requester := mesh, space := n, rclass := rclassOf mesh, va := va, node := w.1,
      task := w.2.1, pte := pte, frame := frame.getD w.2.2 }
    { rclass := rclassOf mesh, requester := mesh, task := w.2.1, node := w.1, space := n, sealState := stop.sealState,
      restart := stop.restart, sealAcc := stop.sealAcc.toNat, sealSeq := stop.sealSeq.toNat, sealBytes := stop.sealBytes,
      work := work }

/-- R145, R151: an access by a translating requester: when its translation fails it faults. -/
def State.accessFault (s : State) (a : Access) (stop : StopPoint) (bad : Nat) : State :=
  match s.translateAccess a.space.toNat a.addr.toNat a.len a.write bad with
  | .ok pa => (if a.write then s else s.noteRead pa a.len).cacheLeaf a.space.toNat a.addr.toNat
  | .fault k l p =>
    let s := if rclassOf a.mesh.toNat = 1 then
        let e := s.engine (a.mesh.toNat - 0x100)
        s.setEngine (a.mesh.toNat - 0x100) { e with regs := { e.regs with vstart := stop.vstart } }
      else s
    s.faultAccess a.mesh.toNat a.space.toNat a.addr.toNat a.write k l p stop (chan := a.chan)

/-- Is the work of a fault still stopped in place on its requester? -/
def State.stillStopped (s : State) (r : FaultRec) : Bool :=
  if r.rclass = 1 then (s.engine (r.requester - 0x100)).running == some r.task
  else if r.rclass = 2 then
    (if r.node = 0 then (s.mover (r.requester - 0x200)).run.isSome else (s.mover (r.requester - 0x200)).task == some r.task)
  else true

/-- R152: the requester that waited longest writes its record once there is room. Work that was cancelled meanwhile only
leaves its record. (DEDUCED, log entry 121) -/
def State.faultQueueWaitEnd (s : State) : State :=
  if s.fqCount = 1023 then s
  else
    match s.xlt.held.find? (fun h => !h.written) with
    | none => s
    | some h =>
      let s := s.setXlt { s.xlt with held := s.xlt.held.erase h }
      if s.stillStopped h.fr then s.recordFault h.fr h.save else s.putFault h.fr

/-! ### Spaces and invalidation -/

/-- XLT_STATUS.STATUS (R158). -/
def State.xltStatus (s : State) (code : Nat) : State := s.wr F.XLT_STATUS_STATUS code

/-- R143: XLT_SPACE_REQ. -/
def State.spaceReq (s : State) (val : Word) : State :=
  let free (n : Nat) : Bool := n != 0 && (s.space n).state == 0
  let answer (s : State) (st n : Nat) : State :=
    ((s.wr F.XLT_SPACE_RESULT_STATUS st).wr F.XLT_SPACE_RESULT_SPACE n).xltStatus st
  if F.XLT_SPACE_REQ_ANY.of val = 1 then
    match lowest 256 free with
    | some n => answer (s.setSpace n { s.space n with state := 1 }) 0 n
    | none => answer s 0x0808 0
  else
    let n := F.XLT_SPACE_REQ_SPACE.of val
    if free n then answer (s.setSpace n { s.space n with state := 1 }) 0 n else answer s 0x0809 0

/-- R143: may a space have this root? -/
def State.rootOk (s : State) (r : Nat) : Bool := s.place r == .tile || s.place r == .qdr

/-- R147: drop the cached translations in the scope of the invalidation in progress, and end it. (DEDUCED, log entry 14) -/
def State.invalidationDone (s : State) : State :=
  match s.xlt.inval with
  | none => s
  | some i =>
    let hit (e : TlbEntry) : Bool :=
      if i.scope = 2 then true
      else if i.scope = 1 then e.space == i.space
      else e.space == i.space && (decide (i.page ≤ e.page) && decide (e.page < i.page + i.pages))
    (s.setXlt { s.xlt with inval := none, tlb := s.xlt.tlb.filter (fun e => !hit e) }).wr F.XLT_STATUS_INV_BUSY 0

/-- R147, R148: start an invalidation; one in progress completes first. (DESIGN CHOICE, log entry 13; DEDUCED, log entry 14) -/
def State.startInval (s : State) (i : Inval) : State :=
  let s := s.invalidationDone
  (s.setXlt { s.xlt with inval := some i }).wr F.XLT_STATUS_INV_BUSY 1

/-- R143: XLT_SPACE_CMD on the selected space: 1 ENABLE, 2 DISABLE, 3 FREE; 0 is ignored. (DEDUCED, log entry 14) -/
def State.spaceCmd (s : State) (cmd : Nat) : State :=
  let n := s.rd F.XLT_SPACE_SEL_SPACE
  let d := s.space n
  if cmd = 0 then s
  else if n = 0 then s.xltStatus 0x080C
  else if cmd = 1 ∧ d.state = 1 ∧ s.rootOk d.root then (s.setSpace n { d with state := 2 }).xltStatus 0
  else if cmd = 2 ∧ d.state = 2 then
    ((s.setSpace n { d with state := 1 }).startInval { scope := 1, space := n, disable := true }).xltStatus 0
  else if cmd = 3 ∧ d.state = 1 then (s.setSpace n {}).xltStatus 0
  else s.xltStatus 0x080C

/-- R143: a write of XLT_SPACE_ROOT_LO or _HI. -/
def State.spaceRoot (s : State) (hi : Bool) (val : Word) : State :=
  let n := s.rd F.XLT_SPACE_SEL_SPACE
  let d := s.space n
  if d.state ≠ 1 then s.xltStatus 0x080C
  else if hi then (s.setSpace n { d with root := d.root % 2 ^ 32 + val.toNat % 256 * 2 ^ 32 }).xltStatus 0
  else (s.setSpace n { d with root := d.root / 2 ^ 32 * 2 ^ 32 + val.toNat / 512 * 512 }).xltStatus 0

/-- R147, R148, R158: a write of XLT_INV_CMD; it waits until an earlier invalidation completes. (DEDUCED, log entry 14) -/
def State.invCmd (s : State) (val : Word) : State :=
  let s := s.invalidationDone
  let scope := F.XLT_INV_CMD_SCOPE.of val
  if F.XLT_INV_CMD_GO.of val = 0 ∨ scope = 3 then s
  else
    let page := s.rd F.XLT_INV_VA_HI_VA * 0x10000 + s.rd F.XLT_INV_VA_LO_VA
    (s.startInval { scope := scope, space := F.XLT_INV_CMD_SPACE.of val, page := page,
                    pages := s.rd F.XLT_INV_PAGES_PAGES }).xltStatus 0

/-! ### QDR and MESH -/

/-- R137, R138: the sixteen 9-bit lanes of a stored burst: data byte i and check bit i on beat i / 4, lane i mod 4; a burst written
after a failed read has its check bits inverted (R139). -/
def State.burstLanes (s : State) (a : Nat) : List (BitVec 9) :=
  let d := s.bytesAt (a / 16 * 16) 16
  let c := burstCheck (s.qdrLocal a).2 d ^^^ (if s.burstBad a then 0xFFFF else 0)
  d.mapIdx (fun i b => BitVec.ofNat 9 (bits c i 1 * 256 + b.toNat))

/-- R138: the data bytes of sixteen lanes. -/
def laneBytes (l : List (BitVec 9)) : List Byte := l.map (fun x => BitVec.ofNat 8 x.toNat)

/-- R138: the check bits of sixteen lanes. -/
def laneCheck (l : List (BitVec 9)) : Nat := l.foldr (fun x a => x.toNat / 256 + 2 * a) 0

/-- R140: a burst as one read of it delivers it. -/
def State.burstAs (s : State) (a : Nat) (f : BurstFlips) : List (BitVec 9) := (s.burstLanes a).mapIdx (fun i x => x ^^^ f.getD i 0)

/-- R138, R140: do the check bits of a delivered burst agree with its data? -/
def State.burstOk (s : State) (a : Nat) (l : List (BitVec 9)) : Bool := burstCheck (s.qdrLocal a).2 (laneBytes l) == laneCheck l

/-- R139: the merged burst of a write smaller than a burst is written, with its check bits inverted when the read failed. -/
def State.burstMerge (s : State) (a : Nat) (d : List Byte) (w : Fin 16 × List Byte) (failed : Bool) : State :=
  let k := a / 16
  let n := min w.2.length (16 - w.1.val)
  let s := s.setBytes (16 * k) (d.take w.1 ++ w.2.take n ++ d.drop (w.1 + n))
  let p := s.qdr.poisoned.filter (· != k)
  s.setQdr { s.qdr with poisoned := if failed then p ++ [k] else p }

/-- R139, R140: a burst is read, a second time when its check fails, for its data or to be merged with a smaller write. -/
def State.qdrRead (s : State) (a : Nat) (first second : BurstFlips) (rmw : Option (Fin 16 × List Byte)) : State :=
  if s.place a ≠ .qdr then s
  else
    let c := (s.qdrLocal a).1
    let l1 := s.burstAs a first
    let l2 := s.burstAs a second
    let d := laneBytes (if s.burstOk a l1 then l1 else l2)
    let failed := !s.burstOk a l1 && !s.burstOk a l2
    let s := if s.burstOk a l1 then s
      else if s.burstOk a l2 then (s.inc (F.QDR_CRC_RETRY_COUNT c)).wr F.QDR_STATUS_STATUS 0x0701
      else s.burstError a
    match rmw with
    | none => s.setReadData d
    | some w => s.burstMerge a d w failed

/-- R137: the number of channels QDR_CFG populates, 0 when the population is refused. -/
def State.qdrChannels (s : State) : Nat :=
  let d := s.rd F.QDR_CFG_DEVICES
  if (d ≠ 1 ∧ d ≠ 2) ∨ 3 < s.rd F.QDR_CFG_FREQ then 0
  else match s.rd F.QDR_CFG_CHANNELS with
    | 1 => 4
    | 2 => 8
    | _ => 0

/-- R137, R141, R160: QDR_CFG takes effect as channel `c` is trained: its capture point is the new trained point. A refused population
or a channel that does not train leaves it untrained (R162). (DESIGN CHOICE, log entries 7, 125) -/
def State.trainChannel (s : State) (c : Nat) : State :=
  let n := s.qdrChannels
  if c < n ∧ bits s.qdr.dead c 1 = 0 then
    let s := s.setQdr { s.qdr with chans := n, devs := s.rd F.QDR_CFG_DEVICES }
    let s := s.wr F.QDR_STATUS_TRAINED (s.rd F.QDR_STATUS_TRAINED ||| 2 ^ c)
    (s.wr (F.QDR_DRIFT_OFFSET c) 0).wr (F.QDR_DRIFT_MAX_ABS c) 0
  else (s.wr ⟨F.QDR_STATUS_TRAINED.off, F.QDR_STATUS_TRAINED.lo + c, 1⟩ 0).wr F.QDR_STATUS_STATUS 0x0703

/-- R137: train every populated channel. -/
def State.trainAll (s : State) : State :=
  let s := (s.wr F.QDR_STATUS_TRAINED 0).setQdr { s.qdr with chans := 0, devs := 0 }
  if s.qdrChannels = 0 then
    (if s.rd F.QDR_CFG_CHANNELS = 0 then s else s.wr F.QDR_STATUS_STATUS 0x0703)
  else s.each (List.range s.qdrChannels) (fun c s => s.trainChannel c)

/-- R141, R160: a write of QDR_CTRL. (DESIGN CHOICE, log entry 7) -/
def State.qdrCtrl (s : State) (val : Word) : State :=
  let s := s.plainWrite F.QDR_CTRL_RETRAIN.off val
  if F.QDR_CTRL_RETRAIN.of val = 1 then s.trainChannel (s.rd F.QDR_CTRL_CHANNEL) else s

/-- R162: a write of QDR_CTRL that retrains a channel, which trains or does not. -/
def State.retrain (s : State) (val : Word) (trains : Bool) : State :=
  let c := F.QDR_CTRL_CHANNEL.of val
  let d := s.qdr.dead / 2 ^ (c + 1) * 2 ^ (c + 1) + s.qdr.dead % 2 ^ c
  (s.setQdr { s.qdr with dead := if trains then d else d + 2 ^ c }).qdrCtrl val

/-- R141: channel `c`'s capture offset becomes `o` steps (−32 to 32). -/
def State.drift (s : State) (c : Nat) (o : Int) : State :=
  let s := s.wr (F.QDR_DRIFT_OFFSET c) ((o + 256) % 256).toNat
  let s := s.wr (F.QDR_DRIFT_MAX_ABS c) (max (s.rd (F.QDR_DRIFT_MAX_ABS c)) o.natAbs)
  if 24 ≤ o.natAbs then
    (s.wr F.QDR_STATUS_STATUS 0x0704).irq 0x07 F.QDR_STATUS_DRIFT_IRQ F.QDR_CTRL_DRIFT_IRQ_EN
  else s

/-! ### Commands -/

/-- CLR_HIGH (R136). -/
def execClrHigh (src : Agent) (val : Word) (s : State) : Out :=
  .next (s.writeReg src F.MESH_CTRL_CLR_HIGH (val ||| 1)
    (fun s => s.wr F.MESH_TAGS_HIGH_WATER (s.rd F.MESH_TAGS_IN_USE)))

/-- HOLE_ACCESS (R130): a physical access to a hole reads zero and is counted; a translating requester faults. -/
def execHoleAccess (acc : Access) (s : State) : Out :=
  .next (if acc.translated then s.accessFault acc ⟨acc.addr.toNat, 0, 0, 0, 0, 0⟩ 0
    else if s.place acc.addr.toNat = .hole then
      (if acc.write then s.holeAccess else (s.holeAccess).setReadData (List.replicate acc.len 0))
    else s)

/-- SYSREG_WRITE (R133; R98 governs the descriptor range). -/
def execSysregWrite (addr : BitVec 40) (bytes : List Byte) (s : State) : Out :=
  .next (if inSysRegion addr.toNat then s.physWrite addr.toNat bytes else s)

/-- DESCRIPTOR_WRITE_DENIED (R98). -/
def execDescriptorWriteDenied (addr : BitVec 40) (bytes : List Byte) (s : State) : Out :=
  .next (if s.place addr.toNat = .queueDescs then s.physWrite addr.toNat bytes else s)

/-- QDR_READ_CHECK (R138 to R140). -/
def execQdrReadCheck (addr : BitVec 40) (first second : BurstFlips) (rmw : Option (Fin 16 × List Byte)) (s : State) : Out :=
  .next (s.qdrRead addr.toNat first second rmw)

/-- RETRAIN (R141, R162). -/
def execRetrain (src : Agent) (val : Word) (trains : Bool) (s : State) : Out :=
  .next (s.writeReg src F.QDR_CTRL_RETRAIN (val ||| 1) (fun s => s.retrain (val ||| 1) trains))

/-- DRIFT_LIMIT (R141). -/
def execDriftLimit (ch : Fin 8) (steps : Fin 65) (s : State) : Out := .next (s.drift ch ((steps.val : Int) - 32))

/-- QDR_ERR_POP (R160). -/
def execQdrErrPop (src : Agent) (val : Word) (s : State) : Out :=
  .next (s.writeReg src F.QDR_ERR_POP_POP val
    (fun s => if F.QDR_ERR_POP_POP.of val = 1 then s.wr F.QDR_ERR_ADDR_LO_VALID 0 else s))

/-- XLT_SPACE_REQ (R143). -/
def execXltSpaceReq (src : Agent) (val : Word) (s : State) : Out :=
  .next (s.writeReg src F.XLT_SPACE_REQ_ANY val (fun s => s.spaceReq val))

/-- XLT_SPACE_CMD ENABLE (R143). -/
def execSpaceEnable (src : Agent) (s : State) : Out :=
  .next (s.writeReg src F.XLT_SPACE_CMD_CMD 1 (fun s => s.spaceCmd 1))

/-- XLT_SPACE_CMD DISABLE (R143, R147). -/
def execSpaceDisable (src : Agent) (s : State) : Out :=
  .next (s.writeReg src F.XLT_SPACE_CMD_CMD 2 (fun s => s.spaceCmd 2))

/-- XLT_SPACE_CMD FREE (R143). -/
def execSpaceFree (src : Agent) (s : State) : Out :=
  .next (s.writeReg src F.XLT_SPACE_CMD_CMD 3 (fun s => s.spaceCmd 3))

/-- XLT_SPACE_ROOT_LO and _HI (R143). -/
def execSpaceRootWrite (src : Agent) (hi : Bool) (val : Word) (s : State) : Out :=
  .next (s.writeReg src (if hi then F.XLT_SPACE_ROOT_HI_ROOT else F.XLT_SPACE_ROOT_LO_ROOT) val
    (fun s => s.spaceRoot hi val))

/-- XLT_INV_CMD (R147, R148). -/
def execXltInvCmd (src : Agent) (val : Word) (s : State) : Out :=
  .next (s.writeReg src F.XLT_INV_CMD_GO val (fun s => s.invCmd val))

/-- INVALIDATION_DONE (R147). -/
def execInvalidationDone (s : State) : Out := .next s.invalidationDone

/-- TRANSLATION_FAULT (R145, R151, R156). -/
def execTranslationFault (acc : Access) (stop : StopPoint) (badLevel : Fin 4) (s : State) : Out :=
  .next (if acc.translated && rclassOf acc.mesh.toNat != 0 then s.accessFault acc stop badLevel else s)

/-- FAULT_QUEUE_WAIT_END (R152). -/
def execFaultQueueWaitEnd (s : State) : Out := .next s.faultQueueWaitEnd

/-- R152: a write of XLT_FQ_HEAD. -/
def State.fqHead (s : State) (val : Word) : State := (s.plainWrite F.XLT_FQ_HEAD_HEAD.off val).noteFq

/-- Writes of the QDR block by offset. -/
def State.qdrRegWrite (s : State) (o : Nat) (val : Word) : State :=
  if o = 0x004 then s.qdrCtrl val
  else if o = 0x068 then (if val.toNat % 2 = 1 then s.wr F.QDR_ERR_ADDR_LO_VALID 0 else s)
  else s.plainWrite (blockBase 0x07 + o) val

end Sys2Proof.Machine
end

