-- ==== Sys2Proof/Machine/TileOps.lean ====
section
/-! DEFINITION. Moving bytes for engines and movers (R145, R156, R172, R173): 16 bytes at a time through translation
spaces, stopping at the first unit that cannot be moved. -/

namespace Sys2Proof.Machine

/-- R56, R172: how a translating requester reaches a byte of an edge's slots: the space and the address. (DEDUCED, log entry 35) -/
def State.slotVia (s : State) (qid addr : Nat) : Nat × Nat :=
  match s.edge? qid with
  | none => (0, addr)
  | some e =>
    match s.image.bufs.find? (fun b => b.id == e.ringBuf) with
    | none => (0, addr)
    | some b => if b.space = 0 then (0, addr) else (b.space, b.vbase + (addr - b.base))

/-- Where a move stopped: the byte offset of the first 16-byte unit not completed, and the access that failed. -/
structure MoveStop where
  off : Nat := 0
  space : Nat := 0
  va : Nat := 0
  write : Bool := false
  kind : Nat := 0
  level : Nat := 0
  pte : Nat := 0
  deriving DecidableEq, Repr

/-- R145: does an access of one unit translate? -/
def State.unitStop (s : State) (off : Nat) (at_ : Nat × Nat) (len : Nat) (write : Bool) : Option MoveStop :=
  match s.translateAccess at_.1 (at_.2 + off) len write 0 with
  | .ok _ => none
  | .fault k l p => some { off := off, space := at_.1, va := at_.2 + off, write := write, kind := k, level := l, pte := p }

/-- Move the bytes `[off, len)` of a work item from a source (or generated by `data`) to every destination in step. -/
def State.moveUnits (s : State) (src : Option (Nat × Nat)) (data : Nat → Byte) (dsts : List (Nat × Nat)) (len off : Nat) :
    Nat → Option MoveStop × State
  | 0 => (none, s)
  | fuel + 1 =>
    if len ≤ off then (none, s)
    else
      let k := min 16 (len - off)
      let rstop := match src with
        | some a => s.unitStop off a k false
        | none => none
      match rstop with
      | some e => (some e, s)
      | none =>
        match dsts.findSome? (fun d => s.unitStop off d k true) with
        | some e => (some e, s)
        | none =>
          let b := match src with
            | some a => s.vread a.1 (a.2 + off) k
            | none => (List.range k).map (fun i => data (off + i))
          let s := match src with
            | some a => (s.readNote a.1 (a.2 + off) k).cacheLeaf a.1 (a.2 + off)
            | none => s
          let s := s.each dsts (fun d s => (s.vwrite d.1 (d.2 + off) b).cacheLeaf d.1 (d.2 + off))
          s.moveUnits src data dsts len (off + 16) fuel

/-- R151, R156: the first 16-byte unit of a range that an access cannot reach. -/
def State.rangeStop (s : State) (at_ : Nat × Nat) (len : Nat) (write : Bool) : Option MoveStop :=
  (List.range (ceilDiv len 16)).findSome? (fun i => s.unitStop (16 * i) at_ (min 16 (len - 16 * i)) write)

/-- R130, R140, R146: what reading a range does besides its data, unit by unit. -/
def State.rangeRead (s : State) (at_ : Nat × Nat) (len : Nat) : State :=
  s.each (List.range (ceilDiv len 16)) (fun i s =>
    (s.readNote at_.1 (at_.2 + 16 * i) (min 16 (len - 16 * i))).cacheLeaf at_.1 (at_.2 + 16 * i))

/-- Move a whole work item from offset `off`. -/
def State.move (s : State) (src : Option (Nat × Nat)) (data : Nat → Byte) (dsts : List (Nat × Nat)) (len off : Nat) :
    Option MoveStop × State :=
  s.moveUnits src data dsts len off ((len - off) / 16 + 1)

/-- R24: the bytes a tile's seal is computed over, with bytes 28 to 31 taken as 0. -/
def sealedBytes (b : List Byte) : List Byte := b.take 28 ++ List.replicate (min 4 (b.length - 28)) 0 ++ b.drop 32

/-- R156: the seal register over the first `n` bytes of a tile without the final XOR, going on from the register `acc` that covers
the first `off` of them; it starts from the fold of SEQ. -/
def sealOn (b : List Byte) (off acc n : Nat) : Nat :=
  (((sealedBytes b).take n).drop off).foldl (crcFeed 0) (if off = 0 then crcInit 0 (leAt b 8 4) else acc)

/-- R24, R156: a tile's seal, resumed from the register `acc` that covers its first `off` bytes. -/
def sealResumed (b : List Byte) (off acc : Nat) : Nat := crcFinal 0 (sealOn b off acc b.length)

/-- R156: the stop point of a move that carries a tile, whose bytes are `b` as far as they are known and of which the first `n`
were done: `sealState` 1 producing, 2 checking a seal, going on from `acc` at `off`. -/
def tileStop (restart sealState : Nat) (b : List Byte) (n off acc : Nat) : StopPoint :=
  { restart := restart, sealState := sealState,
    sealAcc := if sealState = 0 then 0 else BitVec.ofNat 32 (sealOn b off acc n),
    sealSeq := if sealState = 0 then 0 else BitVec.ofNat 32 (leAt b 8 4),
    sealBytes := if sealState = 0 then 0 else n, vstart := 0 }

/-- R151, R156: the header of the tile a requester reads, nothing when it cannot be read, and the bytes before `n`. -/
def State.tileSoFar (s : State) (src : Nat × Nat) (n : Nat) : List Byte :=
  if (s.unitStop 0 src 32 false).isSome then [] else s.vread src.1 src.2 (max 32 n)

/-- R58, R172: the tile in a slot as a translating requester reads it. -/
def State.tileVia (s : State) (src : Nat × Nat) (len16 : Nat) : Tile :=
  tileOf (s.vread src.1 src.2 (32 + 16 * min 4096 (max (hdrOf (s.vread src.1 src.2 32)).len16 len16))) len16

/-- The lowest-numbered claimed entry of a task on an input port that it has not taken yet and that is not void. -/
def State.nextClaim (s : State) (t : Task) (port : Nat) : Option (Claim × RingEntry) :=
  (t.claims.map (fun c => (c, s.ringEntry (s.queue c.qid) c.idx))).find?
    (fun e => e.1.port == port && !e.1.gotten && !e.2.void)

end Sys2Proof.Machine
end

