-- ==== Sys2Proof/Machine/Encode.lean ====
section
/-! DEFINITION. Live encoding (R268 to R284, R288) and row rate control (R291 to R307): the input store, context switching,
the picture budget, row QPs, floor mode, the HRD model and the chunks of the bitstream. What a CTU's coding comes to by
ITU-T H.265 is an operand. -/

namespace Sys2Proof.Machine

/-- A stream context. -/
def State.encCtx (s : State) (c : Nat) : EncCtx := KMap.get (fun _ => {}) s.enc.ctxs c

/-- Replace a stream context. -/
def State.setEncCtx (s : State) (c : Nat) (v : EncCtx) : State :=
  s.setEnc { s.enc with ctxs := KMap.set (fun _ => {}) s.enc.ctxs c v }

/-- An encoder core. -/
def State.encCore (s : State) (n : Nat) : EncCore := KMap.get (fun _ => {}) s.enc.cores n

/-- Replace an encoder core. -/
def State.setEncCore (s : State) (n : Nat) (v : EncCore) : State :=
  s.setEnc { s.enc with cores := KMap.set (fun _ => {}) s.enc.cores n v }

/-- R51: the active node that holds context `c`. -/
def State.encNode (s : State) (c : Nat) : Option Node :=
  s.image.nodes.find? (fun n => n.kind == 4 && n.res / 256 % 256 == c)

/-- R51: the cores in a stream's mask, in ascending order. -/
def Node.cores (n : Node) : List Nat := (List.range 4).filter (fun k => n.res / 2 ^ k % 2 == 1)

/-- R268: the descriptor of a stream's input, in TABLE_REF slot 7, of the given tables. -/
def State.encInOf (s : State) (n : Node) (l : List Table) : PixFmt :=
  match n.table l 7 with
  | some t => pixFmtOf (s.tableBody t)
  | none => {}

/-- The descriptor of a stream's input by the tables it uses now. -/
def State.encIn (s : State) (n : Node) : PixFmt := s.encInOf n (s.tablesOf n.id)

/-- R269: CTU_BYTES. -/
def Node.ctuBytes (n : Node) : Nat := if n.par 1 1 = 4 then 10368 else 7808

/-- R269: CTU_COLS. -/
def PixFmt.ctuCols (p : PixFmt) : Nat := ceilDiv p.picW 64

/-- R269: CTU_ROWS. -/
def PixFmt.ctuRows (p : PixFmt) : Nat := ceilDiv p.picH 64

/-- R275: the CTU columns of tile column `c` of `n`, uniformly spaced. -/
def colWidth (cols n c : Nat) : Nat := (c + 1) * cols / n - c * cols / n

/-- R275: the first CTU column of tile column `c`. -/
def colStart (cols n c : Nat) : Nat := c * cols / n

/-- R290: context `c` reports a status. -/
def State.encReport (s : State) (c code : Nat) : State :=
  let s := ((s.wr (F.ENC_S_STATUS_STATUS c) code).wr (F.ENC_S_STATUS_ERR_IRQ c) 1).wr F.ENC_STATUS_STATUS code
  if s.on (F.ENC_S_CTRL_ERR_IRQ_EN c) && s.on F.ENC_CTRL_ERR_IRQ_EN then s.blockToHost 0x13 else s

/-- R306, R307: the RATE block reports a status of context `c`. -/
def State.rateReport (s : State) (c code : Nat) : State :=
  let s := (s.wr (F.RATE_S_STATUS_STATUS c) code).wr F.RATE_STATUS_STATUS code
  if code = 0x1403 ∨ code = 0x1404 then s.irq 0x14 F.RATE_STATUS_ERR_IRQ F.RATE_CTRL_ERR_IRQ_EN
  else if code = 0x1401 then s.irq 0x14 F.RATE_STATUS_FLOOR_IRQ F.RATE_CTRL_FLOOR_IRQ_EN
  else s

/-! ### Rate parameters (R291, R292) -/

/-- R291: the rate-control mode. -/
def Node.rateMode (n : Node) : Nat := n.par 64 1

/-- A rate in bits/s as bits per picture interval (R291). -/
def Node.perPic (n : Node) (rate : Nat) : Rat := (rate * n.par 24 4 : Nat) / (n.par 20 4 : Nat)

/-- R291: N, from the HRD bit rate and the target rate. -/
def Node.nominal (n : Node) (bitRate target : Nat) : Rat := n.perPic (if n.rateMode = 0 then bitRate else target)

/-- R291: F_0. -/
def Node.f0 (n : Node) (bitRate : Nat) : Rat := (n.par 84 4 * bitRate : Nat) / 90000

/-- R270, R275: slice segments of a picture. -/
def Node.segments (n : Node) (p : PixFmt) : Nat :=
  if n.cores.length ≤ 1 then (if n.par 6 1 = 0 then 1 else p.ctuRows)
  else ceilDiv p.ctuRows (max 1 (n.par 7 1)) * n.cores.length

/-- R292: FLOOR_MAX. -/
def Node.floorMax (n : Node) (p : PixFmt) : Nat :=
  p.ctuCols * p.ctuRows * 32 + 640 * n.segments p +
    (if n.cores.length ≤ 1 ∧ n.par 6 1 = 0 then 40 * p.ctuRows else 0) + 16384

/-- Limits of a level in ITU-T H.265 Table A.8 and A.9: MaxLumaPs, MaxLumaSr, MaxTileRows, MaxTileCols, and MaxBR = MaxCPB
in units of 1,000 bits of the VCL for the Main and the High tier (0 where the tier is not defined). (PRESUMED, log entry 53) -/
def levelLimits (level : Nat) : Nat × Nat × Nat × Nat × Nat × Nat :=
  match level with
  | 93 => (983040, 33177600, 3, 3, 10000, 0)
  | 120 => (2228224, 66846720, 5, 5, 12000, 30000)
  | 123 => (2228224, 133693440, 5, 5, 20000, 50000)
  | 150 => (8912896, 267386880, 11, 10, 25000, 100000)
  | 153 => (8912896, 534773760, 11, 10, 40000, 160000)
  | 156 => (8912896, 1069547520, 11, 10, 60000, 240000)
  | 180 => (35651584, 1069547520, 22, 20, 60000, 240000)
  | 183 => (35651584, 2139095040, 22, 20, 120000, 480000)
  | 186 => (35651584, 4278190080, 22, 20, 240000, 800000)
  | _ => (0, 0, 0, 0, 0, 0)

/-- R292: the greatest BIT_RATE and CPB_SIZE ITU-T H.265 Annex A allows (NAL HRD). (PRESUMED, log entry 53) -/
def hrdMax (profile level tier : Nat) : Nat :=
  let l := (levelLimits level).2.2.2.2
  (if tier = 0 then l.1 else l.2) * (if profile = 4 then 1833 else 1100)

/-- R291, R292: the fields of the RATE block that these rates break, each with its byte in the parameter block. -/
def Node.rateFields (n : Node) (p : PixFmt) (bitRate cpb target : Nat) : List (Bool × Nat) :=
  let m := hrdMax (n.par 1 1) (n.par 3 1) (n.par 4 1)
  let b := n.perPic bitRate
  let f := n.f0 bitRate
  [(bitRate == 0 || bitRate % 64 != 0 || decide (m < bitRate) || decide (b < (n.floorMax p : Rat)), 72),
   (cpb == 0 || cpb % 16 != 0 || decide (m < cpb) || decide ((cpb : Rat) < b), 76),
   (if n.rateMode = 1 then target == 0 || decide (bitRate < target) else target != 0, 80),
   (decide (f < b) || decide ((cpb : Rat) < f), 84)]

/-- R291, R292: are these rates ones the stream may run at? -/
def Node.ratesOk (n : Node) (p : PixFmt) (bitRate cpb target : Nat) : Bool :=
  (n.rateFields p bitRate cpb target).all (fun e => !e.1)

/-- R291: are these QPs valid? -/
def qpsOk (lo hi p i : Nat) : Bool :=
  decide (lo ≤ hi) && decide (hi ≤ 51) && decide (lo ≤ p) && decide (p ≤ hi) && decide (lo ≤ i) && decide (i ≤ hi)

/-- R306: RATE_S_FULLNESS and RATE_S_DEBT show F and D rounded down. (DEDUCED, log entry 52) -/
def State.noteRate (s : State) (c : Nat) : State :=
  let v := s.encCtx c
  (s.wr (F.RATE_S_FULLNESS_V c) (min v.f.floor.toNat 0xFFFFFFFF)).wr (F.RATE_S_DEBT_V c) (min v.d.floor.toNat 0xFFFFFFFF)

/-! ### The input store (R272) -/

/-- R272: is CTU row `r` of a frame in the input store? -/
def EncFrame.rowIn (f : EncFrame) (cols r : Nat) : Bool := f.ended || decide ((r + 1) * cols ≤ f.next)

/-- The lowest row a frame still needs: rows all columns have coded are free. -/
def EncCtx.rowFrom (v : EncCtx) (i : Nat) : Nat :=
  let q := match i with
    | 0 => v.pic
    | 1 => v.nxt
    | _ => none
  match q with
  | some p => (p.cols.map (fun c => c.row)).foldl min 0xFFFF
  | none => 0

/-- The pictures in progress: none, one, or two (R274). -/
def EncCtx.busy (v : EncCtx) : Nat := (if v.pic.isSome then 1 else 0) + (if v.nxt.isSome then 1 else 0)

/-- R268: CTU rows the input store holds. -/
def EncCtx.rowsHeld (v : EncCtx) (cols : Nat) : List (Nat × Nat) :=
  (v.frames.mapIdx (fun i f =>
    (((f.got.map (fun x => x / max 1 cols)).eraseDups).filter (fun r => v.rowFrom i ≤ r)).map (fun r => (i, r)))).flatten

/-- The newest frame ends: its remaining positions are missing. (DEDUCED, log entry 56) -/
def EncCtx.endLast (v : EncCtx) : EncCtx :=
  match v.frames.getLast? with
  | none => v
  | some f => { v with frames := v.frames.dropLast ++ [{ f with ended := true }] }

/-- R272: does a tile begin another frame of the store: one later than the newest, or one that starts afresh with FRAME_START?
(DEDUCED, log entry 56) -/
def EncCtx.begins (v : EncCtx) (h : TileHdr) : Bool :=
  match v.frames.getLast? with
  | none => true
  | some f => later h.frame f.num || (h.fs && f.num != h.frame)

/-- R272: has the store room for the row of a tile? -/
def EncCtx.room (v : EncCtx) (h : TileHdr) (cols inRows : Nat) : Bool :=
  let held := v.rowsHeld cols
  decide (held.length < inRows) || (!v.begins h && held.contains (v.frames.length - 1, h.row))

/-- R90, R272: a tile that passed its check enters the store of context `c`; its picture is coded by the tables the node uses now. -/
def State.encStore (s : State) (c : Nat) (n : Node) (t : Tile) : State :=
  let v := s.encCtx c
  let p := s.encIn n
  let cols := p.ctuCols
  let v := if v.begins t.hdr then
      let v := v.endLast
      { v with frames := v.frames ++ [{ num := t.hdr.frame, sec := t.hdr.capSec, ns := t.hdr.capNs, hold := t.hdr.flag 6,
                                        slot0 := v.nextSlot }],
               nextSlot := v.nextSlot + p.ctuRows }
    else v
  match v.frames.getLast? with
  | none => s
  | some f =>
    let pos := t.hdr.row * cols + t.hdr.col
    if f.num ≠ t.hdr.frame ∨ pos < f.next ∨ cols ≤ t.hdr.col ∨ p.ctuRows ≤ t.hdr.row then
      ((s.setEncCtx c v).inc (F.ENC_S_MISSING_COUNT c)).encReport c 0x1303
    else
      let base := ((s.image.bufs.find? (fun b => b.id == n.par 0 2)).map (fun b => b.base)).getD 0
      let slot := (f.slot0 + t.hdr.row) % max 1 (n.par 40 2)
      let s := s.setBytes (base + (slot * cols + t.hdr.col) * 16384) (t.payload.take 16384)
      let f := { f with got := f.got ++ [pos], next := pos + 1, ended := f.ended || t.hdr.fe, tables := s.tablesOf n.id }
      s.setEncCtx c { v with frames := v.frames.dropLast ++ [f] }

/-! ### Work and switch points (R274, R276, R281) -/

/-- Is a core held by a fault (R151, R156)? (DEDUCED, log entry 55) -/
def State.coreFaulted (s : State) (k : Nat) : Bool :=
  s.xlt.held.any (fun h => h.fr.requester == 0x400 + k) ||
    s.xlt.ctxs.any (fun e => e.2.rclass == 3 && e.2.requester == 0x400 + k)

/-- R280: does the stream code pictures? -/
def State.encOn (s : State) (c : Nat) : Bool := s.on (F.ENC_S_CTRL_EN c) && !s.on (F.ENC_S_STATUS_SHUTTING_DOWN c)

/-- The frame of the picture in progress, or of the one after it. -/
def EncCtx.frameAt (v : EncCtx) (second : Bool) : Option EncFrame := v.frames[if second then 1 else 0]?

/-- The picture in progress, or the one after it. -/
def EncCtx.picAt (v : EncCtx) (second : Bool) : Option EncPic := if second then v.nxt else v.pic

/-- Replace the picture in progress, or the one after it. -/
def EncCtx.setPicAt (v : EncCtx) (second : Bool) (q : EncPic) : EncCtx :=
  if second then { v with nxt := some q } else { v with pic := some q }

/-- The CTU rows of the picture in progress. -/
def State.encRows (s : State) (c : Nat) (n : Node) : Nat :=
  match (s.encCtx c).frames.head? with
  | some f => (s.encInOf n f.tables).ctuRows
  | none => (s.encIn n).ctuRows

/-- R274: has tile column `i` coded its part of the picture in progress, so that its next row is the following picture's?
(DEDUCED, log entry 50) -/
def EncCtx.ahead (v : EncCtx) (rows i : Nat) : Bool :=
  match v.pic with
  | some q => decide (rows ≤ (q.cols.getD i {}).row)
  | none => false

/-- R274: is the previous picture `q` done as far as CTU row `r` of tile column `i` of the next one may read? The window reaches the
columns beside it (R269). (DEDUCED, log entry 50) -/
def EncPic.reaches (q : EncPic) (n : Node) (rows i r : Nat) : Bool :=
  [i - 1, i, i + 1].all (fun c => decide (q.cols.length ≤ c) ||
    decide (min rows (r + n.par 18 2 / 64 + 2) ≤ (q.cols.getD c {}).row))

/-- R274, R276, R281: is work of context `c` ready for core `k`? While another column codes the picture in progress, the next one may
begin only in CONST_QP, where no budget waits for the bits of the first (R296, R305). (DEDUCED, log entry 50) -/
def State.encReady (s : State) (c k : Nat) : Bool :=
  match s.encNode c with
  | none => false
  | some n =>
    let v := s.encCtx c
    let i := n.cores.idxOf k
    let second := v.ahead (s.encRows c n) i
    n.cores.contains k && (match v.frameAt second with
      | none => false
      | some f =>
        let p := s.encInOf n f.tables
        let r := ((v.picAt second).map (fun q => (q.cols.getD i {}).row)).getD 0
        (n.par 5 1 == 0 || f.ended) && decide (r < p.ctuRows) && f.rowIn p.ctuCols r && ((v.picAt second).isSome || s.encOn c) &&
          (!second || (n.rateMode == 2 && ((v.pic.map (fun q => q.reaches n (s.encRows c n) i r)).getD true))))

/-- R276: the deadline of the picture a stream's work for core `k` is of. -/
def State.encDue (s : State) (c k : Nat) : Int :=
  match s.encNode c with
  | none => 0
  | some n =>
    match (s.encCtx c).frameAt ((s.encCtx c).ahead (s.encRows c n) (n.cores.idxOf k)) with
    | some f => s.capTime f.sec f.ns + (n.par 28 4 * 1000 : Nat)
    | none => 0

/-- R276: the eligible stream with the earliest deadline, and among equals the lower STREAM_ID. -/
def State.encPick (s : State) (k : Nat) : Option Nat :=
  let sid (c : Nat) : Nat := ((s.encNode c).map (fun n => n.stream)).getD 0
  ((List.range 32).filter (fun c => s.encReady c k)).foldl (fun b c => match b with
    | none => some c
    | some d => if s.encDue c k < s.encDue d k ∨ (s.encDue c k = s.encDue d k ∧ sid c < sid d) then some c else some d) none

/-- R444: ready work demands the islands of the stream's cores. -/
def State.encDemand (s : State) (c : Nat) : State :=
  match s.encNode c with
  | none => s
  | some n => s.each n.cores (fun k s => if s.encReady c k then s.islandDemand (0x10 + k) else s)

/-- R151, R156, R157: core `k` stops at an access of context `c`'s work; it restarts at the CTU it was to code.
(DEDUCED, log entry 55) -/
def State.coreFault (s : State) (k c frame : Nat) (stop : StopPoint) (x : MoveStop) : State :=
  let n := (s.encNode c).getD {}
  let v := s.encCtx c
  let i := n.cores.idxOf k
  let p := s.encIn n
  let r := ((v.picAt (v.ahead (s.encRows c n) i)).map (fun q => (q.cols.getD i {}).row)).getD 0
  s.faultAccess (0x400 + k) x.space x.va x.write x.kind x.level x.pte
    { stop with restart := r * p.ctuCols + colStart p.ctuCols (max 1 n.cores.length) i } (frame := some frame) (of_ := some (n.id, c, frame))

/-- R58, R272: the first access of a tile's slot that the core reading it cannot make. -/
def State.inputStop (s : State) (src : Nat × Nat) (len16 : Nat) : Option MoveStop :=
  match s.unitStop 0 src 32 false with
  | some x => some x
  | none => s.rangeStop src (32 + (s.tileVia src len16).payload.length) false

/-- R272: the ENC block takes the next tile of a context's input; the lowest core of the mask reads it. (DEDUCED, log entry 56) -/
def State.encInput (s : State) (c : Nat) : State :=
  match s.encNode c with
  | none => s
  | some n =>
    match s.image.inEdge n.id 0 with
    | none => s
    | some ed =>
      let x := s.nextTile ed.qid
      match x.1 with
      | none => x.2
      | some (i, e) =>
        let s := x.2
        let k := n.cores.headD 0
        let src := s.slotVia ed.qid e.addr
        let t := s.tileVia src e.len16
        let v := s.encCtx c
        let on := s.encOn c
        let keeps := on || (v.busy != 0 && v.frames.length == v.busy && !v.begins t.hdr && !v.frames.any (fun f => f.ended))
        if s.coreFaulted k then s
        else if keeps && !v.room t.hdr (s.encIn n).ctuCols (n.par 40 2) then s
        else
          match s.inputStop src e.len16 with
          | some y => s.coreFault k c t.hdr.frame (tileStop 0 0 [] 0 0 0) y
          | none =>
          let s := (s.rangeRead src (32 + t.payload.length)).maybeSwitch n.id t.hdr.fs
          let r := s.checkTile ed (0x400 + k) t true
          let s := r.2
          let s :=
            if r.1.outcome = 3 then s
            else if keeps then s.encStore c n r.1.tile
            else if v.busy ≠ 0 ∧ v.frames.length = v.busy ∧ v.begins r.1.tile.hdr then s.setEncCtx c v.endLast
            else s
          (s.pop ed.qid i).encDemand c

/-- R276: core `k` takes a stream at a switch point. (DEDUCED, log entry 55) -/
def State.contextSwitch (s : State) (k : Nat) : State :=
  let core := s.encCore k
  if core.cur.isSome ∨ !s.awake (0x10 + k) ∨ s.coreFaulted k then s
  else
    match s.encPick k with
    | none => s
    | some c =>
      let s := s.setEncCore k { cur := some c, last := some c }
      let s := (s.wr (F.ENC_CORE_CONTEXT k) c).wr (F.ENC_CORE_STREAM_ID k) (((s.encNode c).map (fun n => n.stream)).getD 0)
      let s := s.wr ⟨F.ENC_STATUS_CORE_BUSY.off, k, 1⟩ 1
      if core.last = some c then s else s.inc (F.ENC_SWITCH_COUNT k)

/-! ### Starting a picture (R271, R277, R279, R294 to R297, R304) -/

/-- R294, R295: the picture intervals of input frames that were never coded. (DEDUCED, log entry 51) -/
def State.encGaps (s : State) (c : Nat) (n : Node) (gaps : Nat) : State :=
  let v := s.encCtx c
  if gaps = 0 ∨ n.rateMode = 2 then s
  else
    let s := s.setEncCtx c { v with f := min (v.cpb : Rat) (v.f + n.perPic v.bitRate * gaps) }
    if n.rateMode = 0 then (s.inc (F.RATE_S_HRD_GAPS_COUNT c) gaps).rateReport c 0x1403 else s

/-- R304: pending HRD values apply at a key picture, which is an IDR. (DEDUCED, log entry 51) -/
def State.applyHrd (s : State) (c : Nat) (n : Node) : State :=
  let v := s.encCtx c
  let b := s.rd (F.RATE_S_BIT_RATE_V c)
  let cpb := s.rd (F.RATE_S_CPB_SIZE_V c)
  (s.setEncCtx c { v with bitRate := b, cpb := cpb, f := min (cpb : Rat) (max v.f (n.perPic b)) }).wr
    (F.RATE_S_STATUS_HRD_PENDING c) 0

/-- R298: the part of the floor reserve that belongs to a row of `nc` CTUs. -/
def Node.rowReserve (n : Node) (nc r : Nat) : Nat :=
  let split := decide (1 < n.cores.length)
  let trc := max 1 (n.par 7 1)
  32 * nc +
    (if split then (if r % trc = 0 then 640 else 0)
     else if n.par 6 1 = 0 then 40 + (if r = 0 then 640 else 0) else 640)

/-- R297: the floor reserve of the rows from `r` on. -/
def Node.reserveFrom (n : Node) (nc rows r : Nat) : Nat :=
  ((List.range (rows - r)).map (fun k => n.rowReserve nc (r + k))).foldl (· + ·) 0

/-- R275, R303: tile columns of a stream. -/
def Node.tileCols (n : Node) : Nat := max 1 n.cores.length

/-- R297: FR_0, over all columns. -/
def Node.fr0 (n : Node) (p : PixFmt) : Nat :=
  ((List.range n.tileCols).map (fun c => n.reserveFrom (colWidth p.ctuCols n.tileCols c) p.ctuRows 0)).foldl (· + ·) 0

/-- R296: the budget of a picture: (T, G, A) from F, D, N and OVH. (DEDUCED, log entry 52) -/
def Node.budget (n : Node) (p : PixFmt) (f d nom : Rat) (ovh : Nat) (key : Bool) : Rat × Rat × Rat :=
  let t := if key then nom * n.par 65 1 / 16 else nom - min d (nom * n.par 66 1 / 256)
  let a := f - ovh
  (t, max (n.fr0 p : Rat) (min (t - ovh) a), a)

/-- R277: the long-term slots once picture `q` is coded: an IDR empties them before it is marked. (DEDUCED, log entry 54) -/
def EncCtx.ltAfter (v : EncCtx) (n : Node) (q : EncPic) : KMap (Option (Nat × Nat)) :=
  (q.marks.filter (fun k => k.1 < n.par 15 1)).foldl (fun m k => KMap.set (fun _ => none) m k.1 (some (k.2, q.store)))
    (if q.idr then [] else v.lt)

/-- R277: the short-term references once picture `q` is coded. -/
def EncCtx.stAfter (v : EncCtx) (n : Node) (q : EncPic) : List Nat :=
  if q.allIntra then v.st else if q.key then [q.store] else (q.store :: v.st).take (n.par 14 1)

/-- R277: the long-term slots and short-term references the next picture starts from: those after the picture in progress. -/
def EncCtx.refs (v : EncCtx) (n : Node) : KMap (Option (Nat × Nat)) × List Nat :=
  match v.pic with
  | some q => (v.ltAfter n q, v.stAfter n q)
  | none => (v.lt, v.st)

/-- R277: does a long-term slot hold the picture that USE_LT names? -/
def ltHolds (lt : KMap (Option (Nat × Nat))) (numLt : Nat) (u : Nat × Nat) : Bool :=
  decide (u.1 < numLt) && (KMap.get (fun _ => none) lt u.1).map (fun e => e.1) == some u.2

/-- R269: the picture store of the next picture: the lowest that no reference and no picture in progress holds.
(DESIGN CHOICE, log entry 49) -/
def EncCtx.freeStore (v : EncCtx) (n : Node) : Nat :=
  let r := v.refs n
  let held := r.2 ++ r.1.filterMap (fun e => e.2.map (fun x => x.2)) ++ (v.pic.map (fun q => q.store)).toList
  ((List.range (n.par 14 1 + n.par 15 1 + 1)).find? (fun k => !held.contains k)).getD 0

/-- R270, R271, R283, R293: the SPS of a stream. (DESIGN CHOICE, log entry 49) -/
def Node.sps (n : Node) (p : PixFmt) (bitRate cpb : Nat) : SpsInfo :=
  let c422 := n.par 1 1 == 4
  let col := (n.par 33 1, n.par 34 1, n.par 35 1)
  { profile := n.par 1 1, level := n.par 3 1, tier := n.par 4 1, width := p.picW, height := p.picH, chroma := if c422 then 2 else 1,
    depth := if n.par 1 1 = 1 then 8 else 10, sao := n.par 32 1 / 16 % 2 == 1, tick := n.par 24 4, timeScale := n.par 20 4,
    fullRange := n.par 32 1 / 32 % 2 == 1, colour := if col = (0, 0, 0) then none else some col,
    chromaLoc := if c422 then none else some 0,
    hrd := if n.rateMode = 2 then none
      else some { bitRateValue := bitRate / 64 - 1, cpbSizeValue := cpb / 16 - 1, cbr := n.rateMode == 0 } }

/-- R270, R275: the PPS of a stream. (DESIGN CHOICE, log entry 49) -/
def Node.pps (n : Node) (p : PixFmt) : PpsInfo :=
  let split := decide (1 < n.cores.length)
  { tileCols := n.tileCols, tileRows := if split then ceilDiv p.ctuRows (max 1 (n.par 7 1)) else 1,
    wpp := !split && n.par 6 1 == 0 }

/-- R283, R293: what precedes the slices of a picture of `v`, in order; `k` is its place in the refresh cycle and `count` the picture
intervals since the last buffering period. (PRESUMED, log entry 53) -/
def Node.nalsOf (n : Node) (p : PixFmt) (v : EncCtx) (key : Bool) (k : Option Nat) (count code : Nat) : List Nal :=
  let flag (b : Nat) : Bool := n.par 32 1 / 2 ^ b % 2 == 1
  let hrd := n.rateMode != 2
  (if flag 1 then [.aud] else []) ++
    (if key || flag 0 then [.vps, .sps (n.sps p v.bitRate v.cpb), .pps (n.pps p)] else []) ++
    (if hrd && (key || k == some 0) then [.bufferingPeriod (v.f * 90000 / v.bitRate).floor.toNat 0] else []) ++
    (if hrd then [.picTiming (count - 1) 0] else []) ++
    (if k = some 0 then [.recoveryPoint (n.par 12 2 - 1) true false] else []) ++
    (if flag 2 then [.timeCode code] else [])

/-- The next picture of context `c` starts: its kind, its references, what precedes its slices and its budget are fixed.
(DEDUCED, log entry 50) -/
def State.startPic (s : State) (c : Nat) (n : Node) (f : EncFrame) (pre : List Byte) : State :=
  let v := s.encCtx c
  let p := s.encInOf n f.tables
  let gaps := match v.lastNum with
    | some l => if later f.num l then (f.num + 2 ^ 32 - l) % 2 ^ 32 - 1 else 0
    | none => 0
  let s := s.encGaps c n gaps
  let period := n.par 8 2
  let pend := s.on (F.RATE_S_STATUS_HRD_PENDING c)
  let key := v.fresh || v.keyReq || (period != 0 && decide (period ≤ v.sinceKey + 1))
  let idr := v.fresh || (key && (pend || n.par 10 1 == 0))
  let s := if key && pend then s.applyHrd c n else s
  let bad := match v.use with
    | some u => !key && !ltHolds (v.refs n).1 (n.par 15 1) u
    | none => false
  let s := if key && v.use.isSome then s.encReport c 0x1306 else if bad then s.encReport c 0x1304 else s
  let v := s.encCtx c
  let ovh := 8 * pre.length
  let k := if n.par 11 1 = 1 ∧ !key then some v.gdr else none
  let w := ceilDiv p.ctuCols (max 1 (n.par 12 2))
  let count := v.sinceBp + 1 + gaps
  let poc := if idr then 0 else v.poc
  let nom := n.nominal v.bitRate (s.rd (F.RATE_S_TARGET_V c))
  let b := n.budget p v.f v.d nom ovh key
  let q : EncPic :=
    { key := key, idr := idr, allIntra := bad, marks := v.marks,
      use := if key || bad then none else v.use.map (fun u => u.1), poc := poc, store := v.freeStore n,
      intraCols := k.map (fun k => (k * w, (k + 1) * w)),
      nals := n.nalsOf p v key k count (s.timecode (s.capTime f.sec f.ns)), due := s.capTime f.sec f.ns + (n.par 28 4 * 1000 : Nat),
      qpI := s.rd (F.RATE_S_QP_QP_I c), qpP := s.rd (F.RATE_S_QP_QP_P c), qpMin := s.rd (F.RATE_S_QP_QP_MIN c),
      qpMax := s.rd (F.RATE_S_QP_QP_MAX c), ovh := ovh, nom := nom, t := b.1, g := b.2.1, a := b.2.2,
      cols := (List.range n.tileCols).map (fun i => { rest := v.aborted.contains i }), pre := pre }
  let again := !v.aborted.isEmpty
  let v := v.setPicAt v.pic.isSome q
  (s.setEncCtx c { v with fresh := false, keyReq := again, aborted := [], marks := [], use := none, lastNum := some f.num,
                          sinceKey := if key then 0 else v.sinceKey + 1, poc := poc + 1,
                          gdr := if key then 0 else (v.gdr + 1) % max 1 (n.par 12 2),
                          sinceBp := if key || k == some 0 then 0 else count }).wrB (F.ENC_S_STATUS_KEY_PENDING c) again

/-! ### Rows (R298 to R303, R305) -/

/-- R299: Δ from the ratio of spend to target. -/
def qpDelta (a t : Int) : Int :=
  if 256 * a ≥ 512 * t then 3 else if 256 * a ≥ 362 * t then 2 else if 256 * a ≥ 287 * t then 1
  else if 256 * a ≥ 228 * t then 0 else if 256 * a ≥ 182 * t then -1 else if 256 * a ≥ 128 * t then -2 else -3

/-- R72, R90: the weights of a picture's rows, by its frame's tables. -/
def State.rowWeights (s : State) (n : Node) (l : List Table) (rows : Nat) : List Nat :=
  match n.table l 0 with
  | some t => let b := s.tableBody t
              (List.range rows).map (fun r => leAt b (2 * r) 2)
  | none => List.replicate rows 1

/-- R303: a column's share of a picture limit. -/
def Node.share (n : Node) (p : PixFmt) (x : Rat) (c : Nat) : Rat :=
  if n.tileCols = 1 then x else ((x * colWidth p.ctuCols n.tileCols c / p.ctuCols).floor : Rat)

/-- R298: the target of row `r` of column `c`. -/
def Node.rowTarget (n : Node) (p : PixFmt) (w : List Nat) (q : EncPic) (c r : Nat) : Int :=
  let nc := colWidth p.ctuCols n.tileCols c
  let f := n.rowReserve nc r
  let e := n.share p q.g c - (q.cols.getD c {}).spent - n.reserveFrom nc p.ctuRows r
  let wr := w.getD r 0
  let sum : Nat := ((w.drop r).take (p.ctuRows - r)).foldl (· + ·) 0
  if wr = 0 then f else f + (e * wr / sum).floor

/-- R299, R305: the QP of row `r` of column `c` in a picture. -/
def Node.rowQp (n : Node) (w : List Nat) (v : EncCtx) (q : EncPic) (c r : Nat) : Nat :=
  let isI := q.key || q.allIntra
  let first := if isI then q.qpI else q.qpP
  if n.rateMode = 2 then first
  else if w.getD r 0 = 0 then q.qpMax
  else
    let step (prev : Nat) (a t : Int) : Nat :=
      let m : Int := n.par 67 1
      (limit q.qpMin q.qpMax (prev + limit (-m) m (qpDelta a t))).toNat
    match (q.cols.getD c {}).chain with
    | some x => step x.1 x.2.1 x.2.2
    | none =>
      match (if isI then v.intra else v.inter) with
      | some k => step k.1 k.2 q.g.floor
      | none => (limit q.qpMin q.qpMax first).toNat

/-- What the CTUs of a row come to (R300). -/
structure RowAcc where
  spent : Nat := 0
  floor : Bool := false
  entered : Bool := false
  floors : Nat := 0
  recodes : Nat := 0
  deriving DecidableEq, Repr

/-- R300: one CTU: `after` is FR after it; a missing CTU or one in floor mode is a floor CTU. (DESIGN CHOICE, log entry 49) -/
def ctuCode (rated : Bool) (g a : Rat) (missing rest : Bool) (after normal floorBits : Nat) (x : RowAcc) : RowAcc :=
  let fl := min floorBits 32
  if missing || rest || x.floor then { x with spent := x.spent + fl, floors := x.floors + 1 }
  else
    let n := x.spent + normal
    if rated && decide (a < ((n + after : Nat) : Rat)) then
      { x with spent := x.spent + fl, floors := x.floors + 1, recodes := x.recodes + 1, floor := true, entered := true }
    else if rated && decide (g < ((n + after : Nat) : Rat)) then { x with spent := n, floor := true, entered := true }
    else { x with spent := n }

/-- The CTUs of row `r` of column `c`, in order. -/
def Node.codeCtus (n : Node) (p : PixFmt) (f : EncFrame) (q : EncPic) (c r : Nat) (ctus : List (Nat × Nat)) (x : RowAcc) :
    RowAcc :=
  let k := n.tileCols
  let nc := colWidth p.ctuCols k c
  let below := n.reserveFrom nc p.ctuRows (r + 1)
  (List.range nc).foldl (fun x i =>
    let b := ctus.getD i (0, 0)
    ctuCode (n.rateMode != 2) (n.share p q.g c) (n.share p q.a c)
      (!f.got.contains (r * p.ctuCols + colStart p.ctuCols k c + i)) (q.cols.getD c {}).rest (32 * (nc - 1 - i) + below) b.1 b.2 x) x

/-! ### Chunks (R275, R282) -/

/-- R282: cut a byte string into chunks of 65,536 bytes. -/
def cutChunks : Nat → List Byte → List (List Byte)
  | 0, _ => []
  | fuel + 1, b => if b.length ≤ 65536 then [b] else b.take 65536 :: cutChunks fuel (b.drop 65536)

/-- R282: the chunk tiles of a slice segment. -/
def chunkTiles (n : Node) (f : EncFrame) (col : Nat) (b : List Byte) (last : Bool) : List Tile :=
  let l := cutChunks (b.length / 65536 + 1) b
  l.mapIdx (fun i d =>
    let h : TileHdr := { stream := n.stream, frame := f.num, col := col + i, row := 0xFFFF, format := 0x0310,
                         capSec := f.sec, capNs := f.ns }
    Tile.withPayload (((h.setFlag 3 (col + i == 0)).setFlag 4 (last && i + 1 == l.length)).setFlag 6 f.hold) d)

/-- R275: slice segments leave in tile scan order; a picture's last one waits for `fin`, which ends it. -/
def emitSlices (n : Node) (f : EncFrame) (total : Nat) (fin : Option (List Byte)) (q : EncPic) (acc : List (Tile × Int)) :
    Nat → EncPic × List (Tile × Int)
  | 0 => (q, acc)
  | fuel + 1 =>
    match KMap.get (fun _ => none) q.slices q.nextOut with
    | none => (q, acc)
    | some b =>
      let last := q.nextOut + 1 == total
      if last && fin.isNone then (q, acc)
      else
        let b := (if q.nextOut = 0 then q.pre else []) ++ b ++ (if last then fin.getD [] else [])
        let ts := chunkTiles n f q.chunks b last
        emitSlices n f total fin
          { q with slices := KMap.set (fun _ => none) q.slices q.nextOut none, nextOut := q.nextOut + 1,
                   chunks := q.chunks + ts.length } (acc ++ ts.map (fun t => (t, q.due))) fuel

/-- R58: how a core reaches the slot its next entry of a queue takes. -/
def State.nextSlotVia (s : State) (q : Nat) : Nat × Nat := s.slotVia q ((s.queue q).slotAddr ((s.reserve q 1).1.headD 0))

/-- R20, R52, R58, R103: a core puts a chunk on queues that all have room, through their buffers' spaces. -/
def State.putChunk (s : State) (qids : List Nat) (t : Tile) : State :=
  let r := s.takeSeq t.hdr.stream
  let t := ({ t with hdr := { t.hdr with seq := r.1 } } : Tile).sealed
  r.2.each qids (fun q s =>
    let via := s.nextSlotVia q
    let a := s.reserve q 1
    let i := a.1.headD 0
    (a.2.vwrite via.1 via.2 t.bytes).complete q i (t.entry ((s.queue q).slotAddr i)))

/-- R106, R276: core `k` puts the chunks that have room; a picture whose last chunk is committed after its deadline is late. A chunk
that a missing mapping keeps from its slot stops the core (R151). -/
def State.flushChunks (s : State) (k c : Nat) (n : Node) : Nat → State
  | 0 => s
  | fuel + 1 =>
    match (s.encCtx c).outq with
    | [] => s
    | (t, due) :: rest =>
      let qids := s.portQueues n.id 0
      if s.roomOn qids 1 && !s.coreFaulted k then
        match qids.findSome? (fun q => s.rangeStop (s.nextSlotVia q) (32 + t.payload.length) true) with
        | some x => s.coreFault k c t.hdr.frame (tileStop 0 1 t.bytes x.off 0 0) x
        | none =>
          let s := s.setEncCtx c { s.encCtx c with outq := rest }
          let s := s.putChunk qids t
          let s := if t.hdr.fe ∧ due < s.timestamp then (s.inc (F.ENC_S_LATE_COUNT c)).encReport c 0x1301 else s
          s.flushChunks k c n fuel
      else s

/-- R282: the slice segment that row `r` of column `c` ends, if it ends one. -/
def Node.segmentOf (n : Node) (p : PixFmt) (c r : Nat) : Option Nat :=
  let trc := max 1 (n.par 7 1)
  let lastRow := decide (p.ctuRows ≤ r + 1)
  if 1 < n.cores.length then (if lastRow ∨ (r + 1) % trc = 0 then some (r / trc * n.tileCols + c) else none)
  else if n.par 6 1 = 0 then (if lastRow then some 0 else none)
  else some r

/-! ### Ending a picture (R277, R280, R294, R302) -/

/-- R294: the bytes of filler, in whole bytes, after a picture of `b` bits. -/
def Node.fillerBytes (n : Node) (v : EncCtx) (b : Nat) : Nat :=
  if n.rateMode = 0 then ((v.f - b + n.perPic v.bitRate - v.cpb) / 8).ceil.toNat else 0

/-- A filler-data NAL unit of `n` bytes (ITU-T H.265, nal_unit_type 38); fewer than 6 bytes are zeros. (PRESUMED, log entry 53) -/
def fillerNal (n : Nat) : List Byte :=
  if n < 6 then List.replicate n 0 else [0, 0, 1, 0x4C, 1] ++ List.replicate (n - 6) 0xFF ++ [0x80]

/-- An end-of-sequence NAL unit (ITU-T H.265, nal_unit_type 36). (PRESUMED, log entry 53) -/
def eosNal : List Byte := [0, 0, 1, 0x48, 1]

/-- R277, R299: references and class data after a picture; a picture begun behind it becomes the one in progress.
(DEDUCED, log entry 54) -/
def EncCtx.afterPic (v : EncCtx) (n : Node) (c : EncPic) (mean spent : Nat) : EncCtx :=
  let v := { v with lt := v.ltAfter n c, st := v.stAfter n c, pic := v.nxt, nxt := none, frames := v.frames.drop 1 }
  if c.key || c.allIntra then { v with intra := some (mean, spent) } else { v with inter := some (mean, spent) }

/-- R277: MARK_SEQ of a slot. (DEDUCED, log entry 54) -/
def State.markSeq (s : State) (c k : Nat) : Nat := if k = 0 then s.rd (F.ENC_S_LTSEQ_SEQ0 c) else s.rd (F.ENC_S_LTSEQ_SEQ1 c)

/-- R288: ENC_S_STATUS shows the long-term slots. -/
def State.noteLt (s : State) (c : Nat) : State :=
  let v := s.encCtx c
  let s := s.wrB (F.ENC_S_STATUS_LT0_VALID c) (KMap.get (fun _ => none) v.lt 0).isSome
  let s := s.wrB (F.ENC_S_STATUS_LT1_VALID c) (KMap.get (fun _ => none) v.lt 1).isSome
  s.wr (F.ENC_S_STATUS_LT1_SEQ c) (s.markSeq c 1)

/-- R294, R302: F and D after a picture of `b` bits and `fill` filler bits. (DEDUCED, log entries 51, 52) -/
def EncCtx.afterBits (v : EncCtx) (n : Node) (nom : Rat) (b fill : Nat) : EncCtx :=
  if n.rateMode = 2 then v
  else
    { v with f := min (v.cpb : Rat) (v.f - ((b + fill : Nat) : Rat) + n.perPic v.bitRate),
             d := min 0xFFFFFFFF (max 0 (v.d + (b : Rat) - nom)) }

/-- The picture in progress on context `c` ends; the last one before a shutdown ends the sequence (R280). -/
def State.endPic (s : State) (c : Nat) (n : Node) (f : EncFrame) (q : EncPic) : State :=
  let v := s.encCtx c
  let total := n.segments (s.encInOf n f.tables)
  let spent := (q.cols.map (fun x => x.spent)).foldl (· + ·) 0
  let b := q.ovh + spent
  let fill := n.fillerBytes v b
  let qps := q.cols.flatMap (fun x => x.qps)
  let mean := if qps.isEmpty then 0 else (roundDiv ((qps.foldl (· + ·) 0 : Nat) : Int) qps.length).toNat
  let fin := fillerNal fill ++ (if s.on (F.ENC_S_STATUS_SHUTTING_DOWN c) && v.nxt.isNone then eosNal else [])
  let e := emitSlices n f total (some fin) q [] (total + 1)
  let v := (v.afterPic n q mean spent).afterBits n q.nom b (8 * fill)
  let s := s.setEncCtx c { v with outq := v.outq ++ e.2 }
  let s := (s.inc (F.ENC_S_PICS_COUNT c)).inc (F.ENC_S_KEYS_COUNT c) (if q.key then 1 else 0)
  let s := (s.wr (F.ENC_S_LAST_FRAME_FRAME c) f.num).noteLt c
  let s := (s.wr (F.RATE_S_LAST_BITS_V c) (min (b + 8 * fill) 0xFFFFFFFF)).wr (F.RATE_S_LAST_FILLER_V c) (min (8 * fill) 0xFFFFFFFF)
  let s := (s.wr (F.RATE_S_LAST_QP_MEAN c) mean).wr (F.RATE_S_LAST_QP_FIRST c) (qps.headD 0)
  (s.wrB (F.RATE_S_STATUS_FLOOR_LAST c) q.floorRow.isSome).noteRate c

/-- R275, R281: the picture in progress emits the slices that are next in tile scan order, and ends when every column is coded; one
begun behind it follows at once. -/
def State.settlePic (s : State) (c : Nat) (n : Node) : Nat → State
  | 0 => s
  | fuel + 1 =>
    let v := s.encCtx c
    match v.pic, v.frames.head? with
    | some q, some f =>
      let p := s.encInOf n f.tables
      if q.cols.all (fun x => decide (p.ctuRows ≤ x.row)) then (s.endPic c n f q).settlePic c n fuel
      else
        let e := emitSlices n f (n.segments p) none q [] (n.segments p + 1)
        s.setEncCtx c { v with pic := some e.1, outq := v.outq ++ e.2 }
    | _, _ => s

/-! ### CTU_ROW_CODE -/

/-- R300: the reports of a row. -/
def State.rowReports (s : State) (c r : Nat) (q : EncPic) (x : RowAcc) (missing : Nat) : State :=
  let s := (s.inc (F.RATE_S_FLOOR_CTUS_COUNT c) x.floors).inc (F.RATE_S_RECODES_COUNT c) x.recodes
  let s := if x.recodes = 0 then s else s.rateReport c 0x1402
  let s := if x.entered then
      (if q.floorRow.isNone then (s.inc (F.RATE_S_FLOOR_PICS_COUNT c)).wr (F.RATE_S_STATUS_FLOOR_ROW c) r else s).rateReport c 0x1401
    else s
  if missing = 0 then s
  else
    let s := s.inc (F.ENC_S_MISSING_COUNT c) missing
    if q.missing then s else s.encReport c 0x1302

/-- R276: what a core does after a row: it goes on, ends its work on the picture, or yields. (DEDUCED, log entry 55) -/
def State.afterRow (s : State) (k c : Nat) (done : Bool) : State :=
  if done then (s.setEncCore k { s.encCore k with cur := none }).wr ⟨F.ENC_STATUS_CORE_BUSY.off, k, 1⟩ 0
  else if s.encReady c k then s
  else ((s.setEncCore k { s.encCore k with cur := none }).wr ⟨F.ENC_STATUS_CORE_BUSY.off, k, 1⟩ 0).inc (F.ENC_SWITCH_COUNT k)

/-- R269: the bytes of a CTU row of a tile column in its picture's store. (DESIGN CHOICE, log entry 49) -/
def State.storeRecon (s : State) (n : Node) (p : PixFmt) (q : EncPic) (i r : Nat) (b : List Byte) : State :=
  let base := ((s.image.bufs.find? (fun b => b.id == n.par 0 2)).map (fun b => b.base)).getD 0
  let at_ := base + n.par 40 2 * p.ctuCols * 16384 +
    ((q.store * p.ctuRows + r) * p.ctuCols + colStart p.ctuCols n.tileCols i) * n.ctuBytes
  s.setBytes at_ (b.take (colWidth p.ctuCols n.tileCols i * n.ctuBytes))

/-- R298 to R303: core `k` codes the next row of its column of picture `q` of context `c`. (DESIGN CHOICE, log entry 49) -/
def State.codeRow (s : State) (k c : Nat) (n : Node) (second : Bool) (f : EncFrame) (q : EncPic) (data : CtuRow) : State :=
  let v := s.encCtx c
  let p := s.encInOf n f.tables
  let i := n.cores.idxOf k
  let col := q.cols.getD i {}
  let r := col.row
  let nc := colWidth p.ctuCols n.tileCols i
  let w := s.rowWeights n f.tables p.ctuRows
  let qp := n.rowQp w v q i r
  let t := n.rowTarget p w q i r
  let head := min data.header (n.rowReserve nc r - 32 * nc)
  let x := n.codeCtus p f q i r data.ctus { spent := col.spent + head, floor := col.floor }
  let missing := ((List.range nc).filter (fun j => !f.got.contains (r * p.ctuCols + colStart p.ctuCols n.tileCols i + j))).length
  let coded := !col.floor && !col.rest
  let col : EncCol := { col with row := r + 1, spent := x.spent, floor := x.floor,
                                 qps := if coded then col.qps ++ [qp] else col.qps,
                                 chain := if coded ∧ w.getD r 0 ≠ 0 then some (qp, x.spent - col.spent, t) else col.chain }
  let s := (s.storeRecon n p q i r data.recon).rowReports c r q x missing
  let slices := match n.segmentOf p i r with
    | some g => KMap.set (fun _ => none) q.slices g (some data.slice)
    | none => q.slices
  let q := { q with cols := q.cols.set i col, slices := slices, missing := q.missing || missing != 0,
                    floorRow := if x.entered && q.floorRow.isNone then some r else q.floorRow }
  let s := (s.setEncCtx c ((s.encCtx c).setPicAt second q)).settlePic c n 2
  ((s.flushChunks k c n (s.encCtx c).outq.length).afterRow k c (decide (p.ctuRows ≤ r + 1))).encDemand c

/-- CTU_ROW_CODE: core `k` codes one CTU row of the stream it serves, once earlier chunks have found room.
(DESIGN CHOICE, log entry 49) -/
def State.ctuRow (s : State) (k : Nat) (data : CtuRow) : State :=
  match (s.encCore k).cur with
  | none => s
  | some c =>
    match s.encNode c with
    | none => s
    | some n =>
      let s := s.flushChunks k c n (s.encCtx c).outq.length
      if !(s.encCtx c).outq.isEmpty || s.island (0x10 + k) != 2 || s.coreFaulted k || !s.encReady c k then s
      else
        let second := (s.encCtx c).ahead (s.encRows c n) (n.cores.idxOf k)
        match (s.encCtx c).frameAt second with
        | none => s
        | some f =>
          let s := if ((s.encCtx c).picAt second).isNone then s.startPic c n f data.pre else s
          match (s.encCtx c).picAt second with
          | none => s
          | some q => s.codeRow k c n second f q data

/-! ### Commands and enables (R279, R280, R304) -/

/-- R279: a write of ENC_S_CMD. -/
def State.encCmd (s : State) (c : Nat) (val : Word) : State :=
  if (s.encNode c).isNone || !s.on (F.ENC_S_CTRL_EN c) then
    (if val.toNat / 0x20000000 = 0 then s else s.encReport c 0x1305)
  else
    let s := if (F.ENC_S_CMD_KEY c).of val = 1 then
        (s.setEncCtx c { s.encCtx c with keyReq := true }).wr (F.ENC_S_STATUS_KEY_PENDING c) 1
      else s
    let s := if (F.ENC_S_CMD_MARK_LT c).of val = 1 then
        let k := (F.ENC_S_CMD_MARK_SLOT c).of val
        let s := if k = 0 then s.incWrap (F.ENC_S_LTSEQ_SEQ0 c) else s.incWrap (F.ENC_S_LTSEQ_SEQ1 c)
        (s.setEncCtx c { s.encCtx c with marks := (s.encCtx c).marks ++ [(k, s.markSeq c k)] }).wr (F.ENC_S_STATUS_LT1_SEQ c) (s.markSeq c 1)
      else s
    if (F.ENC_S_CMD_USE_LT c).of val = 1 then
      s.setEncCtx c { s.encCtx c with use := some ((F.ENC_S_CMD_USE_SLOT c).of val, (F.ENC_S_CMD_MARK_SEQ c).of val) }
    else s

/-- R280, R304: a stream starts: its first picture is an IDR, D is 0, F is F_0 and both classes restart. Commands accepted while the
enable was pending apply to that picture (R279). -/
def State.encBegin (s : State) (c : Nat) (n : Node) : State :=
  let o := s.encCtx c
  let v : EncCtx := { outq := o.outq, nextSlot := o.nextSlot, keyReq := o.keyReq, marks := o.marks, use := o.use }
  let b := s.rd (F.RATE_S_BIT_RATE_V c)
  let s := s.setEncCtx c { v with bitRate := b, cpb := s.rd (F.RATE_S_CPB_SIZE_V c), f := n.f0 b }
  ((s.wr (F.RATE_S_STATUS_HRD_PENDING c) 0).noteLt c).noteRate c

/-- R280, R442: EN is set. -/
def State.encEnable (s : State) (c : Nat) : State :=
  if s.on (F.ENC_S_STATUS_SHUTTING_DOWN c) then s.wr (F.ENC_S_STATUS_PENDING_ENABLE c) 1
  else
    match s.encNode c with
    | some n => s.encBegin c n
    | none => s

/-- R280: EN is cleared: commands and input not yet started are discarded, and the shutdown starts. -/
def State.encDisable (s : State) (c : Nat) : State :=
  let s := s.wr (F.ENC_S_STATUS_PENDING_ENABLE c) 0
  if (s.encNode c).isNone then s
  else
    let v := s.encCtx c
    let s := s.setEncCtx c { v with keyReq := false, marks := [], use := none, aborted := [], frames := v.frames.take v.busy }
    (s.wr (F.ENC_S_STATUS_KEY_PENDING c) 0).wr (F.ENC_S_STATUS_SHUTTING_DOWN c) 1

/-- A write of ENC_S_CTRL. -/
def State.encCtrl (s : State) (c : Nat) (val : Word) : State :=
  let was := s.on (F.ENC_S_CTRL_EN c)
  let en := (F.ENC_S_CTRL_EN c).of val == 1
  let s := s.plainWrite (F.ENC_S_CTRL_EN c).off val
  if en && !was then s.encEnable c else if !en && was then s.encDisable c else s

/-- R280: the shutdown ends once the picture in progress has completed; references are emptied, and a pending enable restarts the
stream with an IDR. -/
def State.encShutdownEnd (s : State) (c : Nat) : State :=
  if !s.on (F.ENC_S_STATUS_SHUTTING_DOWN c) || (s.encCtx c).pic.isSome then s
  else
    let s := s.setEncCtx c { s.encCtx c with lt := [], st := [], frames := [] }
    let s := (s.wr (F.ENC_S_STATUS_SHUTTING_DOWN c) 0).noteLt c
    if s.on (F.ENC_S_STATUS_PENDING_ENABLE c) then (s.wr (F.ENC_S_STATUS_PENDING_ENABLE c) 0).encEnable c else s

/-- The RATE_S registers 0 to 3 that R304 governs. -/
def rateReg (c which : Nat) : Fld :=
  match which with
  | 0 => F.RATE_S_BIT_RATE_V c
  | 1 => F.RATE_S_CPB_SIZE_V c
  | 2 => F.RATE_S_TARGET_V c
  | _ => ⟨(F.RATE_S_QP_QP_I c).off, 0, 32⟩

/-- R304: would the register values break R291 or R292 after a write? -/
def State.rateOk (s : State) (c : Nat) (n : Node) (which val : Nat) : Bool :=
  let g (k : Nat) : Nat := if k = which then val else s.rd (rateReg c k)
  if which = 3 then qpsOk (bits val 16 8) (bits val 24 8) (bits val 8 8) (bits val 0 8)
  else n.rateMode == 2 || n.ratesOk (s.encIn n) (g 0) (g 1) (g 2)

/-- R304: a write of RATE_S_BIT_RATE (0), _CPB_SIZE (1), _TARGET (2) or _QP (3). (DEDUCED, log entry 54) -/
def State.rateWrite (s : State) (c which : Nat) (val : Word) : State :=
  match s.encNode c with
  | none => s.wr (rateReg c which) val.toNat
  | some n =>
    if !s.rateOk c n which val.toNat then s.rateReport c 0x1404
    else
      let s := s.wr (rateReg c which) val.toNat
      if which < 2 then s.wr (F.RATE_S_STATUS_HRD_PENDING c) 1 else s

/-! ### The node -/

/-- R280, R304: an encoder node becomes active. -/
def State.encStart (s : State) (n : Node) : State :=
  let c := n.res / 256 % 256
  let s := s.each [F.ENC_S_PICS_COUNT c, F.ENC_S_KEYS_COUNT c, F.ENC_S_LATE_COUNT c, F.ENC_S_MISSING_COUNT c,
    F.RATE_S_FLOOR_PICS_COUNT c, F.RATE_S_FLOOR_CTUS_COUNT c, F.RATE_S_RECODES_COUNT c, F.RATE_S_HRD_GAPS_COUNT c]
    (fun f s => s.wr f 0)
  let s := (s.wr (F.ENC_S_LTSEQ_SEQ0 c) 0).wr (F.ENC_S_LTSEQ_SEQ1 c) 0
  let s := ((s.wr (rateReg c 0) (n.par 72 4)).wr (rateReg c 1) (n.par 76 4)).wr (rateReg c 2) (n.par 80 4)
  let s := s.wr (rateReg c 3) (n.par 69 1 * 0x1000000 + n.par 68 1 * 0x10000 + n.par 71 1 * 0x100 + n.par 70 1)
  let s := s.setHq { s.hq with seqs := KMap.set (fun _ => 0) s.hq.seqs n.stream (n.par 36 4) }
  let s := (s.wr (F.ENC_S_STATUS_ACTIVE c) 1).wr (F.ENC_S_CTRL_EN c) (n.par 32 1 / 8 % 2)
  let s := s.setEncCtx c {}
  s.encBegin c n

/-- R89, R284: an encoder node stops; its chunks that found no room, and the one being built, are discarded and counted. -/
def State.encStop (s : State) (n : Node) : State :=
  let c := n.res / 256 % 256
  let s := s.inc F.STR_DROP_COUNT_COUNT ((s.encCtx c).outq.length + (if (s.encCtx c).pic.isSome then 1 else 0))
  let s := s.each n.cores (fun k s =>
    if (s.encCore k).cur = some c then
      (s.setEncCore k { s.encCore k with cur := none }).wr ⟨F.ENC_STATUS_CORE_BUSY.off, k, 1⟩ 0
    else s)
  let s := ((s.setEncCtx c {}).wr (F.ENC_S_STATUS_ACTIVE c) 0).wr (F.ENC_S_STATUS_SHUTTING_DOWN c) 0
  ((s.wr (F.ENC_S_STATUS_PENDING_ENABLE c) 0).wr (F.ENC_S_STATUS_KEY_PENDING c) 0).noteLt c

/-- R156, R279: after an ABORT of core `k`'s fault in work of context `c`, the rest of the picture is coded as floor CTUs, also one not
yet begun, and the next is a key picture. -/
def State.encAbort (s : State) (k c : Nat) : State :=
  match s.encNode c with
  | none => s
  | some n =>
    let v := s.encCtx c
    let i := n.cores.idxOf k
    let second := v.ahead (s.encRows c n) i
    match v.picAt second with
    | some q =>
      let q := { q with cols := q.cols.set i { q.cols.getD i {} with rest := true } }
      (s.setEncCtx c { v.setPicAt second q with keyReq := true }).wr (F.ENC_S_STATUS_KEY_PENDING c) 1
    | none => s.setEncCtx c { v with aborted := v.aborted ++ [i] }

/-! ### Commands -/

/-- ENC_INPUT_TILE (R272). -/
def execEncInputTile (ctx : Fin 32) (s : State) : Out := .next (s.encInput ctx)

/-- CONTEXT_SWITCH (R276). -/
def execContextSwitch (core : Fin 4) (s : State) : Out := .next (s.contextSwitch core)

/-- CTU_ROW_CODE (R274, R298). -/
def execCtuRowCode (core : Fin 4) (row : CtuRow) (s : State) : Out := .next (s.ctuRow core row)

/-- ENC_S_CMD with KEY (R279). -/
def execKey (src : Agent) (ctx : Fin 32) (val : Word) (s : State) : Out :=
  .next (s.writeReg src (F.ENC_S_CMD_KEY ctx) (val ||| 0x80000000) (fun s => s.encCmd ctx (val ||| 0x80000000)))

/-- ENC_S_CMD with MARK_LT (R277). -/
def execMarkLt (src : Agent) (ctx : Fin 32) (val : Word) (s : State) : Out :=
  .next (s.writeReg src (F.ENC_S_CMD_KEY ctx) (val ||| 0x40000000) (fun s => s.encCmd ctx (val ||| 0x40000000)))

/-- ENC_S_CMD with USE_LT (R277). -/
def execUseLt (src : Agent) (ctx : Fin 32) (val : Word) (s : State) : Out :=
  .next (s.writeReg src (F.ENC_S_CMD_KEY ctx) (val ||| 0x20000000) (fun s => s.encCmd ctx (val ||| 0x20000000)))

/-- ENC_STREAM_ENABLE: a write of ENC_S_CTRL (R280). -/
def execEncStreamEnable (src : Agent) (ctx : Fin 32) (val : Word) (s : State) : Out :=
  .next (s.writeReg src (F.ENC_S_CTRL_EN ctx) val (fun s => s.encCtrl ctx val))

/-- ENC_SHUTDOWN_END (R280, R442). -/
def execEncShutdownEnd (ctx : Fin 32) (s : State) : Out := .next (s.encShutdownEnd ctx)

/-- RATE_WRITE (R304). -/
def execRateWrite (src : Agent) (ctx : Fin 32) (which : Fin 4) (val : Word) (s : State) : Out :=
  .next (s.writeReg src (rateReg ctx which) val (fun s => s.rateWrite ctx which val))

/-- Writes of the ENC block by offset. -/
def State.encRegWrite (s : State) (o : Nat) (val : Word) : State :=
  let c := (o - 0x1000) / 0x40
  if 0x1000 ≤ o ∧ c < 32 ∧ o % 0x40 = 0 then s.encCtrl c val
  else if 0x1000 ≤ o ∧ c < 32 ∧ o % 0x40 = 4 then s.encCmd c val
  else s.plainWrite (blockBase 0x13 + o) val

/-- Writes of the RATE block by offset. -/
def State.rateRegWrite (s : State) (o : Nat) (val : Word) : State :=
  let c := (o - 0x1000) / 0x40
  if 0x1000 ≤ o ∧ c < 32 ∧ o % 0x40 < 0x10 then s.rateWrite c (o % 0x40 / 4) val
  else s.plainWrite (blockBase 0x14 + o) val

end Sys2Proof.Machine
end

