-- ==== Sys2Proof/Machine/Boot.lean ====
section
/-! DEFINITION. The Keeper (chapter 18): what each reset keeps, the boot directory and its components, the boot sequence, the
release and restart of the control units, fuses and the JTAG port. -/

namespace Sys2Proof.Machine

/-! ### What resets keep (R441, R453) -/

/-- The bits of a register that are kept (RWS). -/
def keepMask (off : Nat) : Word :=
  match regRow off with
  | some r => BitVec.ofNat 32 r.keep
  | none => 0

/-- R466 to R468: the fuse words. -/
def isFuse (off : Nat) : Bool := decide (0x800040 ≤ off) && decide (off < 0x8000C4)

/-- R441: the registers with every bit that is not kept at its reset value; fuse words stay. -/
def keptRegs (regs : KMap Word) : KMap Word :=
  regs.filterMap (fun e =>
    if isFuse e.1 then some e
    else
      let w := (e.2 &&& keepMask e.1) ||| (regReset e.1 &&& ~~~(keepMask e.1))
      if w = regReset e.1 then none else some (e.1, w))

/-- R453: a unit after a reset that loses its local SRAM. (DEDUCED, log entry 90) -/
def UnitState.afterReset (d : UnitState) : UnitState := { sramGen := d.sramGen + 1 }

/-- R469: a fuse programming that a reset cuts short: an owner key is left invalid, its words open. (DEDUCED, log entry 91) -/
def State.cutFuse (s : State) : State :=
  match s.boot.fuse with
  | some (1, _) =>
    let s := s.each (List.range 8) (fun i s => (s.takeFree 32).2.wr (F.FUSE_OWNER_HASH_V i) (s.takeFree 32).1)
    (s.wr F.FUSE_LOCKS_OWNER_KEY_STATE 2).setBoot { s.boot with fuse := none }
  | _ => s.setBoot { s.boot with fuse := none }

/-- The module after a reset that loses every block's contents: the given registers, fuses in force, memories lost, the host's
own memory and the boot flash untouched. (DEDUCED, log entry 93) -/
def State.afterReset (s : State) (regs : KMap Word) : State :=
  let t : State :=
    { pending := s.pending, ref := s.ref, free := s.free, readData := s.readData, regs := regs,
      memGen := (List.range 18).foldl (fun g r => KMap.set (fun _ => 0) g r (KMap.get (fun _ => 0) g r + 1)) s.memGen,
      hif := { hostMem := s.hif.hostMem },
      xlt := { faultSeq := s.xlt.faultSeq },
      qdr := { dead := s.qdr.dead },
      cux := { units := [(0, (s.unit 0).afterReset), (1, (s.unit 1).afterReset)], coldRef := s.cux.coldRef },
      ptp := { duskT := s.ptp.duskT },
      pwr := { cold := false },
      boot := { s.boot with release := [], hostWait := false, host := false, fuse := none } }
  t.wrB F.DBG_STATUS_CLOSED (t.on F.FUSE_LOCKS_DBG_CLOSE)

/-- R151, R453: cold reset: only fuses are kept. The module is in Midnight until the cold start. -/
def State.coldReset (s : State) : State :=
  let s := s.cutFuse
  let t := s.afterReset (s.regs.filter (fun e => isFuse e.1))
  let b : BootState := { flash := s.boot.flash, flashSize := s.boot.flashSize, octal := s.boot.octal, quad := s.boot.quad }
  ((((t.setBoot b).setPwr { cold := true }).setPtp {}).setXlt {}).setCux { t.cux with coldRef := s.ref }

/-- R436, R441: the module enters Midnight with a CAUSE: always-on and RWS registers are kept. (DEDUCED, log entry 93) -/
def State.enterMidnight (s : State) (cause : Nat) : State :=
  let s := s.cutFuse
  (s.afterReset (keptRegs s.regs)).wr F.PWR_LAST_OFF_CAUSE cause

/-! ### The update block's report and the end of a handover (R501, R505) -/

/-- R504, R505: the UPD block reports a status. -/
def State.updReport (s : State) (code : Nat) : State :=
  (s.wr F.UPD_STATUS_STATUS code).irq 0x1F F.UPD_STATUS_ERR_IRQ F.UPD_CTRL_ERR_IRQ_EN

/-- R500, R501: the handover ends: IDLE with ACTIVATED set. -/
def State.updEnd (s : State) : State :=
  let s := s.setUpd {}
  let s := ((s.wr F.UPD_STATUS_STATE 0).wr F.UPD_STATUS_PARTS 0).wr F.UPD_STATUS_ACTIVATED 1
  s.irq 0x1F F.UPD_STATUS_DONE_IRQ F.UPD_CTRL_DONE_IRQ_EN

/-- R501: the handover stops when a unit it restarted fails. -/
def State.handoverFail (s : State) (u : Nat) : State :=
  if s.rd F.UPD_STATUS_STATE = 4 ∧ (s.upd.step = 3 ∨ s.upd.step = 4 ∨ s.upd.step = 5) ∧ s.upd.unit = u then
    s.updEnd.updReport 0x1F0E
  else s

/-! ### The boot directory (R459) -/

/-- `n` bytes of a boot source from an offset. -/
def srcBytes (r : Nat → Byte) (off n : Nat) : List Byte := (List.range n).map (fun i => r (off + i))

/-- R459: an entry of the boot directory. -/
structure DirEntry where
  typ : Nat
  slot : Nat
  off : Nat
  len : Nat
  ver : Nat
  digest : List Byte
  deriving DecidableEq, Repr

/-- R459: entry `k` of a directory copy. -/
def dirEntry (b : List Byte) (k : Nat) : DirEntry :=
  let o := 32 + 64 * k
  { typ := leAt b o 1, slot := leAt b (o + 1) 1, off := leAt b (o + 4) 4, len := leAt b (o + 8) 4, ver := leAt b (o + 12) 4,
    digest := (b.drop (o + 32)).take 32 }

/-- R459: the entries of a directory copy. -/
def dirEntries (b : List Byte) : List DirEntry := (List.range (leAt b 6 2)).map (fun k => dirEntry b k)

/-- R459: is a directory copy valid? -/
def dirValid (b : List Byte) : Bool :=
  let n := leAt b 6 2
  let pairs := (dirEntries b).map (fun e => (e.typ, e.slot))
  b.take 4 == [0x54, 0x58, 0x42, 0x44] && leAt b 4 2 == 1 && decide (1 ≤ n) && decide (n ≤ 16) &&
    leAt b 12 1 / 16 == 0 && zeroAt b 13 19 && zeroAt b 1056 3036 &&
    (List.range n).all (fun k => zeroAt b (32 + 64 * k + 2) 2 && zeroAt b (32 + 64 * k + 16) 16) &&
    decide pairs.Nodup && leAt b 4092 4 == crc 0 0 (b.take 4092)

/-- R459: of two directory copies the one in force, with its offset: the later of two valid ones. -/
def dirChoose (a b : List Byte) : Option (Nat × List Byte) :=
  match dirValid a, dirValid b with
  | true, true => if later (leAt b 8 4) (leAt a 8 4) then some (0x10000, b) else some (0, a)
  | true, false => some (0, a)
  | false, true => some (0x10000, b)
  | false, false => none

/-- R459: the directory copy in force, with its offset. -/
def dirInForce (r : Nat → Byte) : Option (Nat × List Byte) := dirChoose (srcBytes r 0 4096) (srcBytes r 0x10000 4096)

/-- R459: the active slot of a component type. -/
def dirActive (b : List Byte) (typ : Nat) : Nat := leAt b 12 1 / 2 ^ (typ - 1) % 2

/-- The entry of a component type and slot. -/
def dirFind (b : List Byte) (typ slot : Nat) : Option DirEntry :=
  (dirEntries b).find? (fun e => e.typ == typ && e.slot == slot)

/-! ### Components (R460 to R462) -/

/-- R467: the fused hash of the vendor key. -/
def State.vendorHash (s : State) : List Byte :=
  (List.range 8).flatMap (fun i => leBytes 4 (s.rd (F.FUSE_VENDOR_HASH_V i)))

/-- R467: the fused hash of the owner key. -/
def State.ownerHash (s : State) : List Byte :=
  (List.range 8).flatMap (fun i => leBytes 4 (s.rd (F.FUSE_OWNER_HASH_V i)))

/-- R75, R468: does a key match the owner key? -/
def State.ownerKey (s : State) (key : List Byte) : Bool :=
  s.rd F.FUSE_LOCKS_OWNER_KEY_STATE == 1 && Config.sha256 key == s.ownerHash

/-- R461: is the signature of a component acceptable? -/
def State.signerOk (s : State) (typ : Nat) (b : List Byte) : Bool :=
  let n := 64 + leAt b 8 4
  let signer := leAt b 5 1
  let key := (b.drop n).take 32
  let good := decide (n + 96 ≤ b.length) && Config.ed25519 key (Config.sha256 (b.take n)) ((b.drop (n + 32)).take 64)
  let vendor := signer == 1 && good && Config.sha256 key == s.vendorHash
  if typ = 1 then vendor
  else if s.on F.FUSE_LOCKS_OWNER_LOCK then signer == 2 && good && s.ownerKey key
  else signer == 0 || vendor || (signer == 2 && good)

/-- R462: is a BOOT_CFG body within its ranges? (DEDUCED, log entry 95) -/
def cfgOk (c : List Byte) : Bool :=
  let lib := leAt c 16 8
  [4, 5, 6, 7].all (fun i => decide (leAt c i 1 < 4)) && decide (1 ≤ leAt c 8 1) && decide (leAt c 8 1 < 4) && zeroAt c 9 7 &&
    lib % 64 == 0 && decide (0x100000000 ≤ lib) && decide (lib < 0x180000000) && zeroAt c 24 232

/-- R460 to R462: the header and the body of a component of a type. -/
def compFormat (typ : Nat) (b : List Byte) : Bool :=
  let n := leAt b 8 4
  b.take 4 == [0x54, 0x58, 0x43, 0x50] && leAt b 4 1 == typ && decide (leAt b 5 1 < 3) && zeroAt b 6 2 && zeroAt b 16 48 &&
    decide (64 + n ≤ b.length) && (if typ = 3 then leAt b 12 4 % 4 == 0 else leAt b 12 4 == 0) &&
    (match typ with
     | 1 => decide (n ≤ 24576)
     | 2 => n == 256 && cfgOk ((b.drop 64).take 256)
     | _ => decide (n ≤ 2093056))

/-- R461: is a component accepted, its digest aside? (DEDUCED, log entry 95) -/
def State.compOk (s : State) (typ : Nat) (b : List Byte) : Bool := typ == 4 || (compFormat typ b && s.signerOk typ b)

/-- R461: the component of a directory entry, when it is accepted. -/
def State.compAt (s : State) (r : Nat → Byte) (typ : Nat) (e : Option DirEntry) : Option (DirEntry × List Byte) :=
  match e with
  | none => none
  | some e =>
    let b := srcBytes r e.off e.len
    if Config.sha256 b = e.digest ∧ s.compOk typ b then some (e, b) else none

/-- R461: load a component: from its active slot, or from its other slot, which is recorded and reported. -/
def State.loadComp (s : State) (r : Nat → Byte) (d : List Byte) (typ : Nat) : Option (DirEntry × List Byte) × State :=
  let a := dirActive d typ
  match s.compAt r typ (dirFind d typ a) with
  | some x => (some x, s)
  | none =>
    match s.compAt r typ (dirFind d typ (1 - a)) with
    | some x => (some x, (s.wr ⟨F.KPR_BOOT_FALLBACK.off, typ - 1, 1⟩ 1).wr F.KPR_BOOT_STATUS 0x0101)
    | none => (none, s)

/-! ### The boot sequence (R458, R461, R463, R502) -/

/-- R458: what the boot source holds: the host's image in the tile store, or the boot flash. (DESIGN CHOICE, log entry 89) -/
def State.bootSource (s : State) : Nat → Byte :=
  if s.boot.host then s.byte else KMap.get (fun _ => 0xFF) s.boot.flash

/-- R458: host boot is awaited: BAR2 window 0 is mapped to fabric physical 0 in space 0. -/
def State.awaitHost (s : State) : State :=
  let s := s.setBoot { s.boot with hostWait := true }
  let s := (s.wr (F.HIF_IW_CFG_EN 0) 1).wr (F.HIF_IW_CFG_IW_SPACE 0) 0
  (s.wr (F.HIF_IW_BASE_LO_BASE 0) 0).wr (F.HIF_IW_BASE_HI_BASE 0) 0

/-- R461: a boot fails with a status; a host image that fails reports HOST_BOOT_INVALID. -/
def State.bootFail (s : State) (code : Nat) : State :=
  (s.wr F.KPR_BOOT_STATUS (if s.boot.host then 0x0105 else code)).awaitHost

/-- R502: every Keeper setting takes its reset value: the always-on registers other than PWR_LAST_OFF. -/
def State.resetSettings (s : State) : State :=
  let offs := [F.PWR_LOWIN_THRESH_MV.off, F.PWR_WAKE_CFG_ALARM_EN.off, F.PWR_WAKE_ALARM_TICKS.off, F.PWR_WAKE_VIN_MV.off]
  let s := s.each offs (fun o s => s.setReg o (regReset o))
  s.setRegs (s.regs.filter (fun e => !(e.1 / 0x40000 == 0x1A && keepMask e.1 != 0)))

/-- R502: new Keeper firmware starts; settings of another format are reset. (DEDUCED, log entry 95) -/
def State.startKeeper (s : State) (fw : List Byte) : State :=
  let s := s.setBoot { s.boot with keeperFw := fw }
  match s.boot.nextFormat with
  | none => s
  | some f =>
    let same := f == s.boot.format
    let s := s.setBoot { s.boot with format := f, nextFormat := none }
    if same then s else s.resetSettings.updReport 0x1F0F

/-- R456, R463 step 4: the version of the retained Keeper firmware, when it is the one the directory names active. -/
def State.retainedKeeper (s : State) (d : List Byte) : Option Nat :=
  match dirFind d 1 (dirActive d 1) with
  | some e => if !s.boot.keeperFw.isEmpty ∧ Config.sha256 s.boot.keeperFw = e.digest then some e.ver else none
  | none => none

/-- R463 step 4: the Keeper's firmware: the retained one when it may go on, otherwise the one loaded from the boot source.
(DEDUCED, log entry 93) -/
def State.bootKeeper (s : State) (d : List Byte) (retained : Bool) : Option State :=
  match (if retained then s.retainedKeeper d else none) with
  | some v => some (s.wr F.KPR_VER_KEEPER_VER v)
  | none =>
    match s.loadComp s.bootSource d 1 with
    | (some (x, b), s) => some ((s.wr F.KPR_VER_KEEPER_VER x.ver).startKeeper b)
    | (none, _) => none

/-- R462, R463 step 5: the boot configuration is applied: clocks and QDR_CFG. -/
def State.applyCfg (s : State) (c : List Byte) : State :=
  let s := s.plainWrite F.QDR_CFG_FREQ.off (BitVec.ofNat 32 (leAt c 0 4))
  let s := (s.wr F.CLK_FCLK_SEL (leAt c 4 1)).wr F.CLK_ECLK_SEL (leAt c 5 1)
  let s := (s.wr (F.CLK_CCLK_SEL 0) (leAt c 6 1)).wr (F.CLK_CCLK_SEL 1) (leAt c 7 1)
  (s.setPwr { s.pwr with fclk := leAt c 4 1, eclk := leAt c 5 1 }).trainAll

/-- R463 step 7: a unit's local SRAM takes the body of UNIT_FW. (DEDUCED, log entry 90) -/
def State.loadUnit (s : State) (u : Nat) (fw : List Byte) : State :=
  let s := s.sramWrite u 0 ((fw.drop 64).take (leAt fw 8 4))
  s.setUnit u { s.unit u with entry := leAt fw 12 4 }

/-- R461, R463: the operator library is copied to LIB_ADDR; a failed or absent one leaves its length at 0.
(DEDUCED, log entry 95) -/
def State.bootLib (s : State) (d : List Byte) (lib : Nat) : State :=
  match s.loadComp s.bootSource d 4 with
  | (none, s) => s
  | (some (e, b), s) =>
    let s := (s.physWrite lib b).wr F.KPR_VER_LIB_VER e.ver
    ((s.wr F.KPR_BOOT_LIB_LO_ADDR (lib / 64)).wr F.KPR_BOOT_LIB_HI_ADDR (lib / 2 ^ 32)).wr F.KPR_BOOT_LIB_LEN_LEN b.length

/-- R463 steps 5 to 7, from the loading of the boot configuration: the named units then wait to be released. -/
def State.bootUnits (s : State) (d : List Byte) : State :=
  match s.loadComp s.bootSource d 2 with
  | (none, s) => s.bootFail 0x0103
  | (some (e, cfg), s) =>
    let c := (cfg.drop 64).take 256
    let s := (s.applyCfg c).wr F.KPR_VER_CFG_VER e.ver
    match s.loadComp s.bootSource d 3 with
    | (none, s) => s.bootFail 0x0103
    | (some (e, fw), s) =>
      let units := (List.range 2).filter (fun u => leAt c 8 1 / 2 ^ u % 2 == 1)
      let s := s.wr F.KPR_VER_UNIT_VER e.ver
      let s := if s.boot.hold then s else s.each units (fun u s => s.loadUnit u fw)
      let s := s.bootLib d (leAt c 16 8)
      s.setBoot { s.boot with release := units.map (fun u => (u, s.boot.kind)), hostWait := false }

/-- R463 steps 3 to 7 with the directory copy in force. -/
def State.bootDir (s : State) (retained : Bool) : Option (Nat × List Byte) → State
  | none => s.bootFail 0x0104
  | some (_, d) =>
    let s := s.wr F.KPR_DIR_SEQ_SEQ (leAt d 8 4)
    match s.bootKeeper d retained with
    | none => s.bootFail 0x0102
    | some s => s.bootUnits d

/-- R463 steps 3 to 7 with the boot source in use. -/
def State.bootFrom (s : State) (retained : Bool) : State := s.bootDir retained (dirInForce s.bootSource)

/-- R457, R458: KPR_BOOT shows the straps and the mode in use; the boot source is chosen and the boot runs. After a warm reset
too, Keeper firmware that an update has made active takes effect (R499). -/
def State.bootStart (s : State) (kind : Nat) (retained : Bool) : State :=
  let b := s.boot
  let s := (s.wr F.KPR_BOOT_BOOT_SEL b.sel).wrB F.KPR_BOOT_PREF b.pref
  let s := (s.wrB F.CUX_OWNER_PREF b.pref).wr F.PWR_STATUS_DAY 1
  let src := if b.sel = 2 then 3 else if b.sel = 1 then (if b.quad then 1 else 2) else if b.octal then 0 else 2
  let s := s.wr F.KPR_BOOT_SOURCE src
  let s := s.setBoot { s.boot with kind := kind, hold := b.sel == 3 && !s.on F.FUSE_LOCKS_DBG_CLOSE }
  if src = 3 then s.awaitHost else s.bootFrom retained

/-- R359, R367: at Dawn the count is cleared and the reading set: 0 after a cold start, else Dusk's timestamp and the ao-ticks
counted since. (DEDUCED, log entry 92) -/
def State.dawnTime (s : State) (ticks : Nat) : State :=
  let t := s.ptp.duskT + (ticks : Int) * 131072 * (1000000000 + signed 32 (s.rd F.PTP_AO_PPB_V))
  s.setPtp { dawnRef := s.ref, offset := t }

/-- R367, R438 step 5: the Keeper takes a timestamp. (DEDUCED, log entry 92) -/
def State.duskTime (s : State) : State := s.setPtp { s.ptp with duskT := s.timestamp * 2 ^ 32 }

/-- R514, R463: COLD_START: VIN above the release level and PORST_N high. (DESIGN CHOICE, log entry 89) -/
def State.coldStart (s : State) (vin : Nat) (pref : Bool) (sel : Nat) (dev : BootDev) : State :=
  if !s.pwr.cold ∨ vin ≤ 4400 then s
  else
    let flash := dev.segs.foldl (fun m x => (List.range x.2.length).foldl
      (fun m i => KMap.set (fun _ => 0xFF) m (x.1 + i) (x.2.getD i 0xFF)) m) s.boot.flash
    let s := s.setBoot { flash := flash, flashSize := dev.size, octal := dev.octal, quad := dev.quad, sel := sel, pref := pref }
    let s := ((s.setPwr { s.pwr with cold := false }).setPtp { dawnRef := s.ref }).setQdr { s.qdr with dead := dev.qdrDead.toNat }
    s.bootStart 0 false

/-- R439, R440, R463: a wake source ends Midnight, after `ticks` ao-ticks. -/
def State.wakeUp (s : State) (src ticks : Nat) : State :=
  ((s.wr F.PWR_LAST_OFF_WAKE src).dawnTime ticks).bootStart 1 true

/-- R453, R454: the warm reset takes place: the host link and its configuration space stay. (DEDUCED, log entry 93) -/
def State.warmNow (s : State) (ticks : Nat) : State :=
  let s := s.cutFuse
  let t := (s.afterReset (keptRegs s.regs)).setHif { hostMem := s.hif.hostMem, bme := s.hif.bme, msixEn := s.hif.msixEn,
                                                     msixMask := s.hif.msixMask }
  let t := ((t.wr F.HIF_STATUS_LINK (s.rd F.HIF_STATUS_LINK)).wr F.HIF_STATUS_SPEED (s.rd F.HIF_STATUS_SPEED)).wr
    F.HIF_STATUS_WIDTH (s.rd F.HIF_STATUS_WIDTH)
  let t := t.setPtp { t.ptp with duskT := s.timestamp * 2 ^ 32 }
  (t.dawnTime ticks).bootStart 2 true

/-- R454: a warm reset that waited for the take to end starts when TAKE_STATE is IDLE. -/
def State.warmIfWaiting (s : State) : State :=
  match s.pwr.warmWait with
  | some ticks => s.warmNow ticks
  | none => s

/-- R458, R461: KPR_HOST_GO. -/
def State.hostGo (s : State) (val : Word) : State :=
  if F.KPR_HOST_GO_GO.of val = 1 ∧ s.boot.hostWait then
    ((s.setBoot { s.boot with hostWait := false, host := true }).wr F.KPR_BOOT_SOURCE 3).bootFrom false
  else s

/-! ### Units (R464, R465, R471) -/

/-- R464: the boot information block of a unit. (DESIGN CHOICE, log entry 4) -/
def State.bootInfo (s : State) (u kind : Nat) : List Byte :=
  let word (o : Nat) : List Byte := leBytes 4 (s.reg o).toNat
  padTo 4096 ([0x54, 0x58, 0x42, 0x49] ++ leBytes 1 kind ++ leBytes 1 (s.rd F.KPR_BOOT_SOURCE) ++
    leBytes 1 (s.rd F.KPR_BOOT_FALLBACK) ++ leBytes 1 u ++ leBytes 4 (s.rd F.KPR_DIR_SEQ_SEQ) ++
    leBytes 4 (s.rd F.KPR_VER_KEEPER_VER) ++ leBytes 4 (s.rd F.KPR_VER_CFG_VER) ++ leBytes 4 (s.rd F.KPR_VER_UNIT_VER) ++
    leBytes 4 (s.rd F.KPR_VER_LIB_VER) ++ leBytes 4 0 ++ (List.range 10).flatMap (fun i => word (0x800040 + 4 * i)))

/-- R471: DBG_STATUS shows the halted harts. -/
def State.noteHalted (s : State) : State :=
  s.wr F.DBG_STATUS_HALTED ((List.range 8).foldl (fun a h => a + (if (s.unit (h / 4)).halted.contains h then 2 ^ h else 0)) 0)

/-- R464: a core of a released unit: machine mode at ENTRY, with a0 holding mhartid and a1 the boot information block's address.
(DESIGN CHOICE, log entry 150) -/
def startHart (id entry : Nat) : UnitHart :=
  { x := ((List.replicate 32 0).set 10 (BitVec.ofNat 64 id)).set 11 0x100001FF000, f := List.replicate 32 0,
    pc := 0x10000000000 + entry }

/-- R463 step 8, R464: the Keeper writes the boot information block and releases a unit; the first release ends Dawn. -/
def State.releaseUnit (s : State) (u : Nat) : State :=
  match s.boot.release.find? (fun e => e.1 == u) with
  | none => s
  | some (_, kind) =>
    let s := s.setBoot { s.boot with release := s.boot.release.filter (fun e => e.1 != u) }
    let s := s.sramWrite u 0x1FF000 (s.bootInfo u kind)
    let halted := if s.boot.hold ∧ kind ≠ 3 then (List.range 4).map (fun h => 4 * u + h) else []
    let harts := (List.range 4).map (fun i => startHart (4 * u + i) (s.unit u).entry)
    let s := (s.setUnit u { s.unit u with kicked := s.ref, halted := halted, harts := harts }).noteHalted
    let s := s.wr (F.CUX_U_STATE_STATE u) 1
    if s.rd F.PWR_STATUS_DAY = 1 then s.wr F.PWR_STATUS_DAY 2 else s

/-- R453, R465: a unit is held in reset: its cores, caches and local SRAM are lost. -/
def State.holdUnit (s : State) (u : Nat) : State :=
  let s := (s.setUnit u { (s.unit u).afterReset with lost := (s.unit u).lost }).noteHalted
  (s.wr (F.CUX_U_STATE_STATE u) 0).setSynced u false

/-- KPR_UNIT_RESTARTS of a unit. -/
def restartsFld (u : Nat) : Fld := if u = 0 then F.KPR_UNIT_RESTARTS_PHOBOS else F.KPR_UNIT_RESTARTS_DEIMOS

/-- One attempt of a unit's restart: its container of the directory in force is loaded and its release waits, or the attempt
failed. -/
def State.restartLoad (s : State) (u : Nat) : Option (Nat × List Byte) → Bool × State
  | none => (false, s)
  | some (_, d) =>
    let s := s.wr F.KPR_DIR_SEQ_SEQ (leAt d 8 4)
    match s.loadComp s.bootSource d 3 with
    | (none, s) => (false, s)
    | (some (e, fw), s) =>
      let s := (s.wr F.KPR_VER_UNIT_VER e.ver).loadUnit u fw
      (true, s.setBoot { s.boot with release := s.boot.release.filter (fun e => e.1 != u) ++ [(u, 3)] })

/-- One attempt of a unit's restart: it is counted, the unit is held and its container is loaded. (DEDUCED, log entry 94) -/
def State.restartTry (s : State) (u : Nat) : Bool × State :=
  ((s.inc (restartsFld u)).holdUnit u).restartLoad u (dirInForce s.bootSource)

/-- R465: restart a unit from the directory in force; a restart that fails verification is tried again, `n` times in all, and
then the unit stays OFF. (DEDUCED, log entry 94) -/
def State.restartUnit (s : State) (u : Nat) : Nat → State
  | 0 => (s.wr F.KPR_BOOT_STATUS 0x0108).handoverFail u
  | n + 1 => if (s.restartTry u).1 then (s.restartTry u).2 else (s.restartTry u).2.restartUnit u n

/-- R465: RESTART_UNIT. -/
def State.restartCmd (s : State) (u : Nat) : State :=
  if s.rd F.CUX_OWNER_OWNER = u + 1 ∨ s.cux.gap.isSome then s.wr F.KPR_BOOT_STATUS 0x0107 else s.restartUnit u 3

/-- R471: may a unit's watchdog expire? Not while a hart is halted or its cores stall for a relock (R449). -/
def State.watchdogRuns (s : State) (u : Nat) : Bool :=
  s.rd (F.CUX_U_WDOG_WDOG_US u) != 0 && (s.unit u).halted.isEmpty && s.pwr.relock != some u

/-- The Keeper firmware of the directory in force starts, if there is one. -/
def State.reloadKeeper (s : State) (retained : Bool) : Option (Nat × List Byte) → State
  | none => s
  | some (_, d) => (s.bootKeeper d retained).getD s

/-- R456: the Keeper restarts from ROM; retained firmware that fails its check is loaded again. -/
def State.keeperRestart (s : State) : State :=
  if s.pwr.cold then s
  else ((s.inc F.KPR_KEEPER_RESTARTS_COUNT).wr F.KPR_BOOT_STATUS 0x0109).reloadKeeper true (dirInForce s.bootSource)

/-- R471: a DMI access halts or resumes a hart; after DBG_CLOSE it acts as BYPASS. (DEDUCED, log entries 100, 132) -/
def State.dmi (s : State) (hart : Nat) (halt : Bool) : State :=
  let u := hart / 4
  if s.on F.FUSE_LOCKS_DBG_CLOSE ∨ s.rd (F.CUX_U_STATE_STATE u) = 0 then s
  else
    let l := (s.unit u).halted.filter (fun h => h != hart)
    (s.setUnit u { s.unit u with halted := if halt then l ++ [hart] else l, kicked := s.ref }).noteHalted

/-! ### Fuses and JTAG (R466 to R470) -/

/-- The FUSE block reports a status. -/
def State.fuseReport (s : State) (code : Nat) : State := s.wr F.FUSE_PROG_STATUS_STATUS code

/-- R469: a write of FUSE_PROG_CMD. (DESIGN CHOICE, log entry 4) -/
def State.fuseCmd (s : State) (val : Word) : State :=
  let t := F.FUSE_PROG_CMD_TARGET.of val
  let key := s.rd F.FUSE_LOCKS_OWNER_KEY_STATE
  if s.boot.fuse.isSome then s.fuseReport 0x2005
  else if F.FUSE_PROG_CMD_CONFIRM.of val ≠ 0x5A3C ∨ t = 0 then s.fuseReport 0x2003
  else if (t = 1 ∧ key ≠ 0) ∨ (t = 2 ∧ (s.on F.FUSE_LOCKS_OWNER_LOCK ∨ key = 2)) ∨ (t = 3 ∧ s.on F.FUSE_LOCKS_DBG_CLOSE) then
    s.fuseReport 0x2001
  else if t = 2 ∧ key ≠ 1 then s.fuseReport 0x2002
  else if s.on F.PWR_STATUS_LOWIN then s.fuseReport 0x2004
  else
    let words := (List.range 8).map (fun k => s.rd (F.FUSE_PROG_DATA_V k))
    (s.setBoot { s.boot with fuse := some (t, words) }).wr F.FUSE_PROG_STATUS_BUSY 1

/-- R469: programming ends with the read-back. -/
def State.fuseDone (s : State) (ok : Bool) : State :=
  match s.boot.fuse with
  | none => s
  | some (t, words) =>
    if ok then
      let s := (s.setBoot { s.boot with fuse := none }).wr F.FUSE_PROG_STATUS_BUSY 0
      match t with
      | 1 => (s.each (List.range 8) (fun k s => s.wr (F.FUSE_OWNER_HASH_V k) (words.getD k 0))).wr F.FUSE_LOCKS_OWNER_KEY_STATE 1
      | 2 => s.wr F.FUSE_LOCKS_OWNER_LOCK 1
      | _ => (s.wr F.FUSE_LOCKS_DBG_CLOSE 1).wr F.DBG_STATUS_CLOSED 1
    else (s.cutFuse.wr F.FUSE_PROG_STATUS_BUSY 0).fuseReport 0x2007

/-- R470: the 320 bits IDREAD shifts out. (DEDUCED, log entry 100) -/
def State.idread (s : State) : List Byte :=
  let b := (List.range 9).flatMap (fun i => leBytes 4 (s.reg (0x800040 + 4 * i)).toNat) ++
    leBytes 2 (s.reg F.FUSE_WEEK_WEEK.off).toNat
  b ++ leBytes 2 (crc 2 0 b)

/-! ### Commands -/

/-- COLD_START (R457 to R463). -/
def execColdStart (vin : BitVec 16) (pref : Bool) (sel : Fin 4) (dev : BootDev) (s : State) : Out :=
  .next (s.coldStart vin.toNat pref sel dev)

/-- PORST (R453, R514): a low pulse of so many µs; a shorter one than 10 µs lies outside specification.
(DESIGN CHOICE, log entries 127, 131) -/
def execPorst (us : Nat) (s : State) : Out := if us < 10 then .fault .porstPulseTooShort else .next s.coldReset

/-- UNDER_VOLTAGE_LOCKOUT (R429, R431). -/
def execUnderVoltageLockout (vin : BitVec 16) (s : State) : Out := .next (if vin.toNat < 4200 then s.coldReset else s)

/-- RESTART_UNIT (R465). -/
def execRestartUnit (src : Agent) (unit : Fin 2) (s : State) : Out :=
  .next (s.writeReg src F.KPR_CTRL_RESTART_UNIT (0x20000000 + BitVec.ofNat 32 unit) (fun s => s.restartCmd unit))

/-- UNIT_RELEASE (R464). -/
def execUnitRelease (unit : Fin 2) (s : State) : Out := .next (s.releaseUnit unit)

/-- KEEPER_WATCHDOG (R456). -/
def execKeeperWatchdog (s : State) : Out := .next s.keeperRestart

/-- KPR_HOST_GO (R458). -/
def execKprHostGo (src : Agent) (val : Word) (s : State) : Out :=
  .next (s.writeReg src F.KPR_HOST_GO_GO val (fun s => s.hostGo val))

/-- FUSE_PROG_CMD (R469). -/
def execFuseProgCmd (src : Agent) (val : Word) (s : State) : Out :=
  .next (s.writeReg src F.FUSE_PROG_CMD_TARGET val (fun s => s.fuseCmd val))

/-- FUSE_READ_BACK (R469). -/
def execFuseReadBack (ok : Bool) (s : State) : Out := .next (s.fuseDone ok)

/-- IDREAD (R470). -/
def execIdread (s : State) : Out := .next (s.setReadData s.idread)

/-- IDCODE (R470). -/
def execIdcode (s : State) : Out := .next (s.setReadData (leBytes 4 0x20128A53))

/-- DMI (R471). -/
def execDmi (hart : Fin 8) (halt : Bool) (s : State) : Out := .next (s.dmi hart halt)

/-- Writes of the FUSE block by offset. -/
def State.fuseRegWrite (s : State) (o : Nat) (val : Word) : State :=
  if o = 0x120 then s.fuseCmd val else s.plainWrite (blockBase 0x20 + o) val

end Sys2Proof.Machine
end

