-- ==== Sys2Proof/Machine/HqCmd.lean ====
section
/-! DEFINITION. The commands of the HQ block (R94, R96, R98, R101 to R105, R109, R126). -/

namespace Sys2Proof.Machine

/-- R93: queue states. -/
def qFree : Nat := 0
def qImage : Nat := 1
def qEnabled : Nat := 2
def qDisabled : Nat := 3
def qPrepared : Nat := 4

/-! ### Allocation (R96) -/

/-- R96: HQ_ALLOC on pair A or B. (DEDUCED, log entry 147) -/
def State.hqAlloc (s : State) (pairB : Bool) (val : Word) : State :=
  let want := F.HQ_ALLOC_A_QID.of val
  let answer (s : State) (st q : Nat) : State :=
    if pairB then (s.wr F.HQ_ALLOC_RESULT_B_STATUS st).wr F.HQ_ALLOC_RESULT_B_QID q
    else (s.wr F.HQ_ALLOC_RESULT_A_STATUS st).wr F.HQ_ALLOC_RESULT_A_QID q
  let take (q : Nat) : State := answer (s.setQueue q { state := qDisabled }) 0 q
  if want = 0xFFFF then
    match lowest 0xFFFF (fun q => (s.queue q).state == qFree) with
    | some q => take q
    | none => answer s 0x0A01 0xFFFF
  else if (s.queue want).state = qFree then take want
  else if (lowest 0xFFFF (fun q => (s.queue q).state == qFree)).isNone then answer s 0x0A01 0xFFFF
  else answer s 0x0A02 0xFFFF

/-! ### Configuration and HQ_QCMD (R126) -/

/-- R126: the refusal of a command or configuration by the state of the selected queue: the null queue has no
descriptor. -/
def qRefusal (q : Queue) : Nat := if q.state = qFree then 0x0A03 else 0x0A04

/-- R126: a write of HQ_QCFG_BASE_LO (0), HQ_QCFG_BASE_HI (1) or HQ_QCFG_SIZE (2). (DEDUCED, log entry 36) -/
def State.hqCfg (s : State) (which : Nat) (val : Word) : State :=
  let id := s.rd F.HQ_QSEL_QID
  let q := s.queue id
  if id = 0xFFFF then s.hqStatus 0x0A04
  else if q.state ≠ qDisabled then s.hqStatus (qRefusal q)
  else if which = 0 then s.setQueue id { q with base := q.base / 2 ^ 32 * 2 ^ 32 + val.toNat / 16 * 16 }
  else if which = 1 then s.setQueue id { q with base := q.base % 2 ^ 32 + val.toNat % 256 * 2 ^ 32 }
  else s.setQueue id { q with notify := bits val.toNat 30 2 * 0x4000 + bits val.toNat 16 11,
                              entries := val.toNat % 0x10000 }

/-- R126: the region of ENABLE's check an address lies in, if any. -/
def State.ringRegion (s : State) (a : Nat) : Option Nat :=
  match s.place a with
  | .tile => some 0
  | .qdr => some 1
  | .local => some 2
  | .host => some 3
  | .magWindow => some 4
  | _ => none

/-- R126: ENABLE's check of the configuration. -/
def State.ringOk (s : State) (q : Queue) : Bool :=
  decide (1 ≤ q.entries) && decide (q.entries ≤ 32768) && q.base % 16 == 0 &&
    (s.ringRegion q.base).isSome && s.ringRegion q.base == s.ringRegion (q.base + q.entries * 16 - 1)

/-- R126: HQ_QCMD acts by the state of the selected queue. (DEDUCED, log entry 36) -/
def State.hqCmd (s : State) (cmd : Nat) : State :=
  let id := s.rd F.HQ_QSEL_QID
  let q := s.queue id
  if cmd = 0 ∨ 5 < cmd then s
  else if id = 0xFFFF then s.hqStatus 0x0A04
  else if q.state ≠ qDisabled ∧ q.state ≠ qEnabled then s.hqStatus (qRefusal q)
  else
    match cmd, q.state == qDisabled with
    | 1, true => if s.ringOk q then s.setQueue id { q with state := qEnabled } else s.hqStatus 0x0A07
    | 1, false => s
    | 2, true => s
    | 2, false => s.setQueue id { q with state := qDisabled }
    | 3, true => if q.count = 0 ∧ q.reserved = 0 then s.setQueue id {} else s.hqStatus 0x0A02
    | 3, false => s.hqStatus 0x0A04
    | 4, true => s.each ((List.range q.count).map (fun i => q.ix (q.head + i))) (fun i s => s.pop id i)
    | 4, false => s.hqStatus 0x0A04
    | _, _ => s.setQueue id { q with highWater := q.count + q.reserved }

/-! ### Doorbells (R94, R109) -/

/-- R109: the status of a doorbell, 0 when it is accepted. -/
def Queue.doorbell (q : Queue) (n : Nat) (push : Bool) : Nat :=
  if q.state = qFree then 0x0A03
  else if q.state ≠ qEnabled then 0x0A04
  else if push && decide (q.free < n) then 0x0A05
  else if !push && decide (q.count - q.claimed < n) then 0x0A06
  else 0

/-- R109, R110: commit `n` entries a software producer has written. -/
def State.swPush (s : State) (id n : Nat) : State :=
  let q := s.queue id
  let idxs := (List.range n).map (fun i => q.ix (q.head + q.count + i))
  let s := s.setQueue id { q with count := q.count + n, highWater := max q.highWater (q.count + n + q.reserved) }
  let s := s.each idxs (fun i s => s.ringWrite (q.entryAddr i + 12) (leBytes 4 s.ref32))
  s.notify q.notify

/-- R109: pop `n` entries from HEAD, those claimed by tasks apart. -/
def State.swPop (s : State) (id n : Nat) : State :=
  let q := s.queue id
  let l := ((List.range q.count).map (fun i => q.ix (q.head + i))).filter
    (fun i => !q.claims.contains i && !q.popped.contains i)
  s.each (l.take n) (fun i s => s.pop id i)

/-- R94, R109: a push or pop doorbell. -/
def State.doorbell (s : State) (id n : Nat) (push : Bool) : State :=
  if id = 0xFFFF ∨ n = 0 then s
  else
    let st := (s.queue id).doorbell n push
    if st ≠ 0 then s.hqStatus st
    else if push then s.swPush id n
    else s.swPop id n

/-- A write of HQ_DB_PUSH or HQ_DB_POP. -/
def State.hqDoorbell (s : State) (push : Bool) (val : Word) : State :=
  s.doorbell (F.HQ_DB_PUSH_QID.of val) (F.HQ_DB_PUSH_COUNT.of val) push

/-! ### Reservations (R103, R104) -/

/-- R20, R52, R103: grant one tile of a request: one sequence number, and one entry on each of its queues.
(DEDUCED, log entry 37) -/
def State.grantTile (s : State) (r : ResReq) : State :=
  let n := s.takeSeq r.stream
  n.2.each (ResReq.queues r) (fun q s =>
    let a := s.reserve q 1
    a.2.setHq { a.2.hq with grants := a.2.hq.grants ++ [{ mesh := r.mesh, qid := q, idx := a.1.headD 0, seq := n.1 }] })

/-- R20, R103: grant one request: its tiles, in entry order. (DEDUCED, log entry 37) -/
def State.grant (s : State) (r : ResReq) : State := s.each (List.range r.n) (fun _ s => s.grantTile r)

/-- R104: grant requests in order for as long as they fit; the first that does not fit, and all after it, wait; so does one behind a
put that waits. (DEDUCED, log entry 37) -/
def State.grantAll (s : State) : List ResReq → List ResReq × State
  | [] => ([], s)
  | r :: t => if s.roomOn (ResReq.queues r) r.n && !s.hq.puts.any (fun w => ResReq.overtakenBy w r) then (s.grant r).grantAll t else (r :: t, s)

/-- R103, R104: the requests that reach queue `qid` in one cycle, with those that wait, compete. R94: on the null queue
every request succeeds and reserves nothing. (DEDUCED, log entry 124; DESIGN CHOICE, log entry 133) -/
def State.reservations (s : State) (qid : Nat) (reqs : List ResReq) : State :=
  if qid = 0xFFFF then s
  else
    let reqs := reqs.map (fun r => { r with qid := qid })
    let mine := (s.hq.waiting.filter (fun r => (ResReq.queues r).contains qid) ++ reqs).mergeSort ResReq.before
    let r := s.grantAll mine
    r.2.setHq { r.2.hq with waiting := r.2.hq.waiting.filter (fun r => !(ResReq.queues r).contains qid) ++ r.1 }

/-- Is ring index `i` reserved and not yet complete? -/
def Queue.isReserved (q : Queue) (i : Nat) : Bool :=
  ((List.range q.reserved).map (fun k => q.ix (q.head + q.count + k))).contains i && !q.done.contains i

/-- Is ring index `i` committed and not yet popped? -/
def Queue.isCommitted (q : Queue) (i : Nat) : Bool :=
  ((List.range q.count).map (fun k => q.ix (q.head + k))).contains i && !q.popped.contains i

/-- R101: a producer has written reserved entry `i` and marks it complete. (DEDUCED, log entry 124) -/
def State.entryCommit (s : State) (qid i : Nat) (e : RingEntry) : State :=
  if qid ≠ 0xFFFF ∧ (s.queue qid).isReserved i then
    let s := s.setHq { s.hq with grants := s.hq.grants.filter (fun g => !(g.qid == qid && g.idx == i)) }
    s.complete qid i e
  else s

/-! ### Commands -/

/-- HQ_ALLOC_A and HQ_ALLOC_B (R96). -/
def execHqAlloc (src : Agent) (pairB : Bool) (val : Word) (s : State) : Out :=
  .next (s.writeReg src (if pairB then F.HQ_ALLOC_B_QID else F.HQ_ALLOC_A_QID) val (fun s => s.hqAlloc pairB val))

/-- HQ_QCFG_BASE_LO, _BASE_HI and _SIZE (R126). -/
def execHqQcfgWrite (src : Agent) (which : Fin 3) (val : Word) (s : State) : Out :=
  let f := match which with
    | 0 => F.HQ_QCFG_BASE_LO_ADDR
    | 1 => F.HQ_QCFG_BASE_HI_ADDR
    | 2 => F.HQ_QCFG_SIZE_NOTIFY
  .next (s.writeReg src f val (fun s => s.hqCfg which val))

/-- HQ_QCMD ENABLE (R126). -/
def execEnable (src : Agent) (s : State) : Out := .next (s.writeReg src F.HQ_QCMD_CMD 1 (fun s => s.hqCmd 1))

/-- HQ_QCMD DISABLE (R126). -/
def execDisable (src : Agent) (s : State) : Out := .next (s.writeReg src F.HQ_QCMD_CMD 2 (fun s => s.hqCmd 2))

/-- HQ_QCMD FREE (R126). -/
def execQcmdFree (src : Agent) (s : State) : Out := .next (s.writeReg src F.HQ_QCMD_CMD 3 (fun s => s.hqCmd 3))

/-- HQ_QCMD FLUSH (R126). -/
def execFlush (src : Agent) (s : State) : Out := .next (s.writeReg src F.HQ_QCMD_CMD 4 (fun s => s.hqCmd 4))

/-- HQ_QCMD CLEAR_HIGH_WATER (R126). -/
def execClearHighWater (src : Agent) (s : State) : Out :=
  .next (s.writeReg src F.HQ_QCMD_CMD 5 (fun s => s.hqCmd 5))

/-- HQ_DB_PUSH (R109). -/
def execHqDbPush (src : Agent) (val : Word) (s : State) : Out :=
  .next (s.writeReg src F.HQ_DB_PUSH_QID val (fun s => s.hqDoorbell true val))

/-- HQ_DB_POP (R109). -/
def execHqDbPop (src : Agent) (val : Word) (s : State) : Out :=
  .next (s.writeReg src F.HQ_DB_POP_QID val (fun s => s.hqDoorbell false val))

/-- RESERVATION (R103, R104). -/
def execReservation (qid : BitVec 16) (reqs : List ResReq) (s : State) : Out :=
  .next (s.reservations qid.toNat reqs)

/-- RESERVATION_RETRY (R103, R104). -/
def execReservationRetry (qid : BitVec 16) (s : State) : Out := .next (s.reservations qid.toNat [])

/-- ENTRY_COMMIT (R101). -/
def execEntryCommit (qid idx : BitVec 16) (addr : BitVec 40) (eflags : Byte) (len16 : BitVec 16) (seq : Word)
    (s : State) : Out :=
  .next (s.entryCommit qid.toNat idx.toNat
    { addr := addr.toNat, eflags := eflags.toNat, len16 := len16.toNat, seq := seq.toNat })

/-- ENTRY_POP (R105). -/
def execEntryPop (qid idx : BitVec 16) (s : State) : Out :=
  .next (if (s.queue qid.toNat).isCommitted idx.toNat then s.pop qid.toNat idx.toNat else s)

/-- Writes of the HQ block by offset. -/
def State.hqRegWrite (s : State) (o : Nat) (val : Word) : State :=
  if o = 0x004 then s.hqAlloc false val
  else if o = 0x00C then s.hqAlloc true val
  else if o = 0x018 then s.hqCfg 0 val
  else if o = 0x01C then s.hqCfg 1 val
  else if o = 0x020 then s.hqCfg 2 val
  else if o = 0x024 then s.hqCmd (val.toNat % 8)
  else if o = 0x034 then s.hqDoorbell true val
  else if o = 0x038 then s.hqDoorbell false val
  else s.plainWrite (blockBase 0x0A + o) val

end Sys2Proof.Machine
end

