-- ==== Sys2Proof/Machine/Operators.lean ====
section
/-! DEFINITION. The raw development operators of the signed library (R218 to R239): the checks a kernel makes, the output
tile it computes, and the tokens of APRON_STORE. A kernel's ordinary instructions are not commands of the block; what they
compute stands here as functions that the tile instructions use. -/

namespace Sys2Proof.Machine

/-! ### Samples -/

/-- R18, R224: component `c` of the sample at (x, y) of a tile. -/
def PixFmt.sample (p : PixFmt) (t : Tile) (c x y : Nat) : Nat :=
  let k := y * p.tileW + x
  if rawBits p.format ≠ 0 then unpackBit (rawBits p.format) k t.payload
  else leAt t.payload (k * 6 + 2 * c) 2 % 4096

/-- What an operator reads: its input descriptor, the centre tile and the tiles around it that are present. -/
structure OpIn where
  p : PixFmt := {}
  centre : Tile := {}
  around : List Tile := []
  deriving DecidableEq, Repr

/-- R15, R223: have a format's samples 2 × 2 CFA cells? -/
def PixFmt.cells (p : PixFmt) : Bool := p.cfa != 0 && rawBits p.format != 0

/-- R223: the sample of a tile nearest to picture coordinates, inside the picture, and the square of its distance.
(DEDUCED, log entry 31) -/
def OpIn.inTile (o : OpIn) (t : Tile) (x y : Int) : Nat × Nat × Nat :=
  let p := o.p
  let x' := nearest (t.hdr.col * p.tileW) (min p.picW ((t.hdr.col + 1) * p.tileW)) p.cells x
  let y' := nearest (t.hdr.row * p.tileH) (min p.picH ((t.hdr.row + 1) * p.tileH)) p.cells y
  (((x - x') ^ 2 + (y - y') ^ 2).toNat, x', y')

/-- R223: component `c` at picture coordinates: of the nearest valid sample in the tiles that are present.
(DEDUCED, log entry 31) -/
def OpIn.at_ (o : OpIn) (c : Nat) (x y : Int) : Nat :=
  let p := o.p
  let x1 : Int := nearest 0 p.picW p.cells x
  let y1 : Int := nearest 0 p.picH p.cells y
  let best := o.around.foldl (fun (b : Tile × Nat × Nat × Nat) t =>
    let d := o.inTile t x1 y1
    if d.1 < b.2.1 then (t, d) else b) (o.centre, o.inTile o.centre x1 y1)
  p.sample best.1 c (best.2.2.1 % p.tileW) (best.2.2.2 % p.tileH)

/-- R224: the CFA position of a picture coordinate. -/
def cfaPos (x y : Nat) : Nat := y % 2 * 2 + x % 2

/-- R70: the colour (0 R, 1 G, 2 B) of a CFA position. -/
def cfaColour (cfa pos : Nat) : Nat :=
  match cfa with
  | 1 => [0, 1, 1, 2].getD pos 1
  | 2 => [1, 0, 2, 1].getD pos 1
  | 3 => [1, 2, 0, 1].getD pos 1
  | _ => [2, 1, 1, 0].getD pos 1

/-! ### The catalogue (R226) -/

def kApron : Nat := 0x10001
def kBlack : Nat := 0x10010
def kDefect : Nat := 0x10011
def kShading : Nat := 0x10012
def kWb : Nat := 0x10013
def kDemosaic : Nat := 0x10020
def kCsc : Nat := 0x10030
def kCurve : Nat := 0x10031
def kLut : Nat := 0x10032
def kDenoise : Nat := 0x10040
def kSharpen : Nat := 0x10041
def kScale : Nat := 0x10050
def kConvert : Nat := 0x10051

/-- R226: the kernels of the library. -/
def libraryKernels : List Nat :=
  [kApron, kBlack, kDefect, kShading, kWb, kDemosaic, kCsc, kCurve, kLut, kDenoise, kSharpen, kScale, kConvert]

/-- R218: is a kernel one of the catalogue, with the ports, tasks and local memory it has there? -/
def Kernel.catalogued (k : Kernel) : Bool :=
  libraryKernels.contains k.id && k.inPorts == 1 && k.outPorts == 1 && k.need.headD 0 == 1 && k.room.headD 0 == 1 &&
    k.maxTasks == (if k.id = kApron then 1 else 64) &&
    k.lmSize == (if k.id = kApron ∨ k.id = kBlack ∨ k.id = kShading ∨ k.id = kWb then 0x8000 else 0x18000)

/-- Does a task run a kernel of the signed library? -/
def Task.isLibrary (t : Task) : Bool := t.kern.kflags % 2 == 1 && t.kern.catalogued

/-- R219: byte `o` onwards of ARGS. -/
def Task.arg (t : Task) (o len : Nat) : Nat := leAt t.nd.params (16 + o) len

/-- The table in slot `k`, of the tables the task uses. -/
def Task.table (t : Task) (k : Nat) : Option Table := t.nd.table t.tables k

/-- R226, R227: is the operator an apron reader? -/
def Task.isReader (t : Task) : Bool :=
  let k := t.kern.id
  k == kDefect || k == kDenoise || k == kSharpen || (k == kDemosaic && t.arg 16 1 == 0) ||
    (k == kConvert && t.arg 16 1 == 1)

/-- R180: is the window enabled? -/
def Task.winEn (t : Task) : Bool := t.nd.par 1 1 % 2 == 1

/-- R166: the space and virtual address of window offset `o`. -/
def Task.window (t : Task) (o : Nat) : Nat × Nat := (t.nd.par 0 1, t.nd.par 8 6 + o)

/-- Are ARGS bytes `[o, 32)` zero? -/
def Task.argZero (t : Task) (o : Nat) : Bool := zeroAt t.nd.params (16 + o) (32 - o)

/-- R236: bytes of one apron-store slot. -/
def PixFmt.slotBytes (p : PixFmt) : Nat := 32 + p.maxPayload

/-- R219, R227 to R234: the fields of ARGS are in order. -/
def Task.argsOk (t : Task) (p7 : PixFmt) : Bool :=
  let k := t.kern.id
  let rows := t.arg 4 1
  let needStore := k == kApron || t.isReader
  let win (o len : Nat) : Bool := t.winEn && decide (o + len ≤ 2 ^ 31)
  let own :=
    if k = kBlack then (List.range 4).all (fun i => decide (t.arg (16 + 2 * i) 2 < t.arg 24 2)) && t.argZero 26
    else if k = kDefect then t.arg 18 2 == 0 && decide (t.arg 24 4 ≤ 0x100000) && t.argZero 28 && win (t.arg 20 4) (4 * t.arg 24 4)
    else if k = kShading then
      decide (2 ≤ t.arg 16 2) && decide (t.arg 16 2 ≤ 65) && decide (2 ≤ t.arg 18 2) && decide (t.arg 18 2 ≤ 65) &&
        t.argZero 24 && win (t.arg 20 4) ((if p7.cfa = 0 then 1 else 4) * t.arg 16 2 * t.arg 18 2 * 2)
    else if k = kWb then t.argZero 24
    else if k = kDemosaic ∨ k = kConvert then decide (t.arg 16 1 ≤ 1) && t.argZero 17
    else if k = kDenoise then decide (1 ≤ t.arg 22 1) && decide (t.arg 22 1 ≤ 4) && t.argZero 23
    else if k = kSharpen then t.argZero 22
    else if k = kScale then [2, 4, 8].contains (t.arg 16 1) && t.argZero 17
    else t.argZero 16
  t.nd.params.length == 48 && zeroAt t.nd.params 21 11 &&
    (if needStore then [4, 8, 16, 32].contains rows && t.arg 0 4 % 64 == 0 &&
        win (t.arg 0 4) (64 + rows * p7.cols * p7.slotBytes)
      else rows == 0 && t.arg 0 4 == 0) && own

/-- Is a slot a CURVE1D with these widths and one of these channel counts? -/
def curveIs (t : Option Table) (inB outB : Nat) (three : Bool) : Bool :=
  match t with
  | some t => t.kind == 1 && t.p0 % 256 == inB && t.p0 / 256 % 256 == outB && (t.p1 == 1 || (three && t.p1 == 3))
  | none => false

/-- Is a slot a MATRIX3X4 with CLAMP set? -/
def matrixIs (t : Option Table) : Bool :=
  match t with
  | some t => t.kind == 3 && t.p0 % 2 == 1
  | none => false

/-- Is a slot empty? -/
def Task.noSlot (t : Task) (k : Nat) : Bool := t.nd.tref.getD k 0 == 0

/-- R226: the output format of an operator. -/
def outFormat (k : Nat) : Nat :=
  if k = kApron then 0x0600
  else if k = kBlack ∨ k = kDefect ∨ k = kShading ∨ k = kWb then 0x0116
  else if k = kConvert then 0x0210
  else 0x0220

/-- R220, R226: the tables are in order. -/
def Task.tablesOk (t : Task) (p6 p7 : PixFmt) : Bool :=
  let k := t.kern.id
  let kindOf (i : Nat) : Nat := ((t.table i).map (fun x => x.kind)).getD 0
  kindOf 6 == 6 && kindOf 7 == 6 && t.nd.tref.getD 6 0 == t.nd.pixfmt && p6.format == outFormat k &&
    (List.range 4).all (fun i => t.noSlot (i + 2)) &&
    (if k = kBlack then (t.noSlot 0 || curveIs (t.table 0) (rawBits p7.format) 16 false) && t.noSlot 1
     else if k = kDemosaic then (t.noSlot 0 || matrixIs (t.table 0)) && (t.noSlot 1 || curveIs (t.table 1) 16 12 true)
     else if k = kCsc then matrixIs (t.table 0) && t.noSlot 1
     else if k = kCurve then curveIs (t.table 0) 12 12 true && t.noSlot 1
     else if k = kLut then
       (match t.table 0 with
        | some x => x.kind == 2 && x.p0 / 256 % 256 == 12 && x.p0 / 0x10000 % 256 == 12
        | none => false) && t.noSlot 1
     else t.noSlot 0 && t.noSlot 1)

/-- R226: does an operator accept this input format? -/
def acceptsFormat (k : Nat) (p7 : PixFmt) : Bool :=
  let raw := rawBits p7.format != 0
  if k = kApron then raw || p7.format == 0x0220
  else if k = kBlack then raw
  else if k = kDefect ∨ k = kShading ∨ k = kWb then p7.format == 0x0116
  else if k = kDemosaic then p7.format == 0x0116 && p7.cfa != 0
  else p7.format == 0x0220

/-- R227: the same geometry. -/
def PixFmt.sameGeometry (a b : PixFmt) : Bool :=
  a.tileW == b.tileW && a.tileH == b.tileH && a.picW == b.picW && a.picH == b.picH && a.cols == b.cols && a.rows == b.rows

/-- R232, R234: slot 6 is slot 7 divided by `f`. -/
def PixFmt.scaledBy (a b : PixFmt) (f : Nat) : Bool :=
  a.tileW * f == b.tileW && a.tileH * f == b.tileH && a.picW == ceilDiv b.picW f && a.picH == ceilDiv b.picH f &&
    a.cols == b.cols && a.rows == b.rows && decide (8 ≤ a.tileW) && decide (8 ≤ a.tileH)

/-- R227, R232, R234: slots 6 and 7 agree as the operator requires. -/
def Task.geometryOk (t : Task) (p6 p7 : PixFmt) : Bool :=
  let k := t.kern.id
  if k = kApron then true
  else if k = kScale then p6.scaledBy p7 (t.arg 16 1)
  else if k = kDemosaic ∧ t.arg 16 1 = 1 then
    p6.tileW * 2 == p7.tileW && p6.tileH * 2 == p7.tileH && p6.picW == ceilDiv p7.picW 2 &&
      p6.picH == ceilDiv p7.picH 2 && p6.cols == p7.cols && p6.rows == p7.rows
  else p6.sameGeometry p7

/-- R221, R239: the first failing check before a task's input is known, 0 when all pass: its ARGS, its tables, and a format the
operator accepts. -/
def Task.startCheck (t : Task) (p6 p7 : PixFmt) : Nat :=
  if !t.argsOk p7 then 0x0C80
  else if !t.tablesOk p6 p7 then 0x0C82
  else if !acceptsFormat t.kern.id p7 then 0x0C81
  else 0

/-- R221, R239: the first failing check of a task, 0 when all pass; `format` is that of the tile it works on, if there is one. -/
def Task.opCheck (t : Task) (p6 p7 : PixFmt) (format : Option Nat) : Nat :=
  let st := t.startCheck p6 p7
  if st ≠ 0 then st
  else if format.any (· != p7.format) then 0x0C81
  else if !t.geometryOk p6 p7 then 0x0C83
  else 0

/-! ### What the operators compute (R228 to R234) -/

/-- R228. -/
def opBlack (t : Task) (curve : Option (Table × List Byte)) (pos x : Nat) : Nat :=
  let x := match curve with
    | some c => curveAt c.1 c.2 0 x
    | none => x
  let b := t.arg (16 + 2 * pos) 2
  limitTo 65535 (roundDiv (((x : Int) - b) * 65535) (t.arg 24 2 - b))

/-- R229: the entries of a defect map are in ascending order of Y, then X, without duplicates. -/
def mapSorted : List (Nat × Nat) → Bool
  | a :: b :: r => (decide (a.2 < b.2) || (a.2 == b.2 && decide (a.1 < b.1))) && mapSorted (b :: r)
  | _ => true

/-- R229: the entries of a defect map. -/
def mapEntries (map : List Byte) : List (Nat × Nat) :=
  (List.range (map.length / 4)).map (fun i => (leAt map (4 * i) 2, leAt map (4 * i + 2) 2))

/-- R229: does a defect map correct a pixel? (DEDUCED, log entry 32) -/
def isListed (map : List Byte) (x y : Nat) : Bool :=
  let l := mapEntries map
  l.contains (x, y) && (mapSorted l || Config.mapSubset map (y * 0x10000 + x))

/-- R229: the distance of the neighbours DEFECT compares with. -/
def PixFmt.defectStep (p : PixFmt) : Nat := if p.cfa = 0 then 1 else 2

/-- The eight directions around a sample or a tile. (DEDUCED, log entry 31) -/
def eightDirs : List (Int × Int) := [(-1, -1), (0, -1), (1, -1), (-1, 0), (1, 0), (-1, 1), (0, 1), (1, 1)]

/-- R229. -/
def opDefect (t : Task) (o : OpIn) (map : List Byte) (x y : Nat) : Nat :=
  let d : Int := o.p.defectStep
  let v := o.at_ 0 x y
  let n := eightDirs.map (fun k => o.at_ 0 ((x : Int) + d * k.1) ((y : Int) + d * k.2))
  let n := n.mergeSort (· ≤ ·)
  let th := t.arg 16 2
  let listed := isListed map x y
  let dyn := th != 0 && (decide (n.getD 7 0 + th < v) || decide (v + th < n.getD 0 0))
  if listed || dyn then (n.getD 3 0 + n.getD 4 0 + 1) / 2 else v

/-- R230. -/
def opShading (t : Task) (p : PixFmt) (grid : List Byte) (x y v : Nat) : Nat :=
  let gw := t.arg 16 2
  let gh := t.arg 18 2
  let pw := max 1 (p.picW - 1)
  let ph := max 1 (p.picH - 1)
  let i := min (x * (gw - 1) / pw) (gw - 2)
  let j := min (y * (gh - 1) / ph) (gh - 2)
  let fx : Int := (x * (gw - 1) : Nat) - (i * pw : Nat)
  let fy : Int := (y * (gh - 1) : Nat) - (j * ph : Nat)
  let plane := if p.cfa = 0 then 0 else cfaPos x y
  let g (a b : Nat) : Int := (leAt grid (((plane * gh + b) * gw + a) * 2) 2 : Nat)
  let top := g i j * ((pw : Int) - fx) + g (i + 1) j * fx
  let bot := g i (j + 1) * ((pw : Int) - fx) + g (i + 1) (j + 1) * fx
  let gain := roundDiv (top * ((ph : Int) - fy) + bot * fy) (pw * ph)
  limitTo 65535 (roundDiv ((v : Int) * gain) 4096)

/-- R231. -/
def opWb (t : Task) (pos v : Nat) : Nat := limitTo 65535 (roundDiv ((v * t.arg (16 + 2 * pos) 2 : Nat) : Int) 4096)

/-- R232: the interpolated colours at an output pixel. -/
def demosaicRgb (t : Task) (o : OpIn) (x y : Nat) : List Nat :=
  if t.arg 16 1 = 1 then
    let cellAt (pos : Nat) : Nat := o.at_ 0 (2 * x + pos % 2 : Nat) (2 * y + pos / 2 : Nat)
    let ofCol (c : Nat) : List Nat := ((List.range 4).filter (fun q => cfaColour o.p.cfa q == c)).map cellAt
    [(ofCol 0).headD 0, ((ofCol 1).foldl (· + ·) 0 + 1) / 2, (ofCol 2).headD 0]
  else
    let pos := cfaPos x y
    let win := (List.range 81).map (fun k => o.at_ 0 ((x : Int) + (k % 9 : Nat) - 4) ((y : Int) + (k / 9 : Nat) - 4))
    (List.range 3).map (fun c =>
      if cfaColour o.p.cfa pos = c then o.at_ 0 x y else min 65535 (Config.demosaic c (o.p.cfa * 4 + pos) win))

/-- R232: matrix and output curve. (DEDUCED, log entry 32) -/
def opDemosaic (t : Task) (mat curve : Option (Table × List Byte)) (o : OpIn) (x y : Nat) : List Nat :=
  let rgb := demosaicRgb t o x y
  let rgb := match mat with
    | some m => matrixAt m.2 65535 rgb
    | none => rgb
  rgb.mapIdx (fun c v => match curve with
    | some k => curveAt k.1 k.2 (if k.1.p1 = 3 then c else 0) v
    | none => limitTo 4095 (roundDiv (v : Nat) 16))

/-- R234: DENOISE of component `c`. -/
def opDenoise (t : Task) (o : OpIn) (c x y : Nat) : Nat :=
  let st := t.arg (16 + 2 * c) 2
  let s0 := o.at_ c x y
  if st = 0 then s0
  else
    let r := t.arg 22 1
    let n := 2 * r + 1
    let l := (List.range (n * n)).map (fun k => o.at_ c ((x : Int) + (k % n : Nat) - r) ((y : Int) + (k / n : Nat) - r))
    let w (s : Nat) : Nat := 2 * st - ((s : Int) - s0).natAbs
    (roundDiv ((l.foldl (fun a s => a + w s * s) 0 : Nat) : Int) (l.foldl (fun a s => a + w s) 0)).toNat

/-- R234: SHARPEN of component 0. -/
def opSharpen (t : Task) (o : OpIn) (x y : Nat) : Nat :=
  let k := [1, 4, 6, 4, 1]
  let sum := (List.range 25).foldl (fun a i =>
    a + k.getD (i % 5) 0 * k.getD (i / 5) 0 * o.at_ 0 ((x : Int) + (i % 5 : Nat) - 2) ((y : Int) + (i / 5 : Nat) - 2)) 0
  let s0 : Int := o.at_ 0 x y
  let d := s0 - roundDiv (sum : Nat) 256
  let d := if d.natAbs ≤ t.arg 18 2 then 0 else d
  let lim : Int := t.arg 20 2
  limitTo 4095 (s0 + limit (-lim) lim (roundDiv (d * t.arg 16 2) 4096))

/-- R234: SCALE of component `c`. -/
def opScale (f : Nat) (o : OpIn) (c x y : Nat) : Nat :=
  let sum := (List.range (f * f)).foldl (fun a k => a + o.at_ c ((x * f + k % f : Nat) : Int) ((y * f + k / f : Nat) : Int)) 0
  (roundDiv (sum : Nat) (f * f)).toNat

/-- R234: CONVERT of a chroma component at an even column. -/
def opChroma (filter : Nat) (o : OpIn) (c x y : Nat) : Nat :=
  let s (dx : Int) : Nat := o.at_ c ((x : Int) + dx) y
  limitTo 1023 (if filter = 0 then roundDiv (s 0 : Nat) 4 else roundDiv ((s (-1) + 2 * s 0 + s 1 : Nat) : Int) 16)

/-- What a kernel reads besides tiles: its tables' bodies, the defect map or the gain grid. -/
structure OpData where
  slot0 : Option (Table × List Byte) := none
  slot1 : Option (Table × List Byte) := none
  win : List Byte := []
  deriving DecidableEq, Repr

/-- R228 to R234: the components of the output pixel at picture coordinates (x, y) of slot 6. -/
def opPixel (t : Task) (d : OpData) (o : OpIn) (x y : Nat) : List Nat :=
  let k := t.kern.id
  let c3 := (List.range 3).map (fun c => o.at_ c x y)
  let pos := cfaPos x y
  if k = kBlack then [opBlack t d.slot0 (if o.p.cfa = 0 then 0 else pos) (o.at_ 0 x y)]
  else if k = kDefect then [opDefect t o d.win x y]
  else if k = kShading then [opShading t o.p d.win x y (o.at_ 0 x y)]
  else if k = kWb then [opWb t pos (o.at_ 0 x y)]
  else if k = kDemosaic then opDemosaic t d.slot0 d.slot1 o x y
  else if k = kCsc then matrixAt ((d.slot0.map (fun x => x.2)).getD []) 4095 c3
  else if k = kCurve then
    match d.slot0 with
    | some s => c3.mapIdx (fun c v => curveAt s.1 s.2 (if s.1.p1 = 3 then c else 0) v)
    | none => c3
  else if k = kLut then
    match d.slot0 with
    | some s => lutAt s.1 s.2 c3
    | none => c3
  else if k = kDenoise then (List.range 3).map (fun c => opDenoise t o c x y)
  else if k = kSharpen then opSharpen t o x y :: c3.drop 1
  else (List.range 3).map (fun c => opScale (t.arg 16 1) o c x y)

/-- R15: the output payload of an operator; samples beyond the picture repeat the nearest valid one. -/
def opPayload (t : Task) (d : OpData) (o : OpIn) (p6 : PixFmt) : List Byte :=
  let cell := p6.cfa != 0 && rawBits p6.format != 0
  let gx (i : Nat) : Nat := nearest 0 p6.picW cell ((o.centre.hdr.col * p6.tileW + i : Nat) : Int)
  let gy (j : Nat) : Nat := nearest 0 p6.picH cell ((o.centre.hdr.row * p6.tileH + j : Nat) : Int)
  let row (j : Nat) : List Byte :=
    if t.kern.id = kConvert then
      (List.range p6.tileW).flatMap (fun i =>
        let x := gx i
        let c := opChroma (t.arg 16 1) o (if i % 2 = 0 then 1 else 2) (x / 2 * 2) (gy j)
        leBytes 2 c ++ leBytes 2 (limitTo 1023 (roundDiv (o.at_ 0 x (gy j) : Nat) 4)))
    else (List.range p6.tileW).flatMap (fun i => (opPixel t d o (gx i) (gy j)).flatMap (leBytes 2))
  padTo p6.maxPayload ((List.range p6.tileH).flatMap row)

/-- R222, R226, R234: does the output use samples of the neighbour tile at (col, row)? CONVERT uses those to the left only, DENOISE
none when every STRENGTH is 0, DEFECT with THRESH 0 only around the pixels its map names. -/
def opUses (t : Task) (d : OpData) (o : OpIn) (col row : Nat) : Bool :=
  let k := t.kern.id
  let p := o.p
  if k = kConvert then decide (col < o.centre.hdr.col)
  else if k = kDenoise then (List.range 3).any (fun c => t.arg (16 + 2 * c) 2 != 0)
  else if k = kDefect ∧ t.arg 16 2 = 0 then
    (mapEntries d.win).any (fun e => isListed d.win e.1 e.2 && e.1 / p.tileW == o.centre.hdr.col && e.2 / p.tileH == o.centre.hdr.row &&
      eightDirs.any (fun q =>
        nearest 0 p.picW p.cells ((e.1 : Int) + p.defectStep * q.1) / p.tileW == col &&
        nearest 0 p.picH p.cells ((e.2 : Int) + p.defectStep * q.2) / p.tileH == row))
  else true

/-- R222: the output tile; `fs` and `fe` come from the input tile or token, `filled` marks a missing neighbour (R238). -/
def opTile (t : Task) (d : OpData) (o : OpIn) (p6 : PixFmt) (src : TileHdr) (filled : Bool) : Tile :=
  let used := o.centre :: o.around.filter (fun u => opUses t d o u.hdr.col u.hdr.row)
  let h : TileHdr := { stream := t.nd.stream, frame := src.frame, col := o.centre.hdr.col, row := o.centre.hdr.row,
                       format := p6.format, len16 := p6.maxPayload / 16, capSec := src.capSec, capNs := src.capNs }
  let h := h.setFlag 0 (decide (p6.picW < (h.col + 1) * p6.tileW) || decide (p6.picH < (h.row + 1) * p6.tileH))
  let h := (h.setFlag 3 src.fs).setFlag 4 src.fe
  let h := h.setFlag 5 (filled || used.any (fun u => u.hdr.flag 5))
  let h := (h.setFlag 1 (used.any (fun u => u.hdr.flag 1))).setFlag 2 (used.any (fun u => u.hdr.flag 2))
  { hdr := h, payload := opPayload t d o p6 }

/-! ### The apron store (R235 to R238) -/

/-- R236: the window offset of the slot of position (col, row) of frame `f`. -/
def Task.slotOff (t : Task) (p7 : PixFmt) (f col row : Nat) : Nat :=
  let sl := (f * p7.rows + row) % 2 ^ 32 % max 1 (t.arg 4 1)
  t.arg 0 4 + 64 + (sl * p7.cols + col) * p7.slotBytes

/-- R238: the window slot of a position and the tile in it, when it is present; an access of the window may not translate. -/
def State.storeTile (s : State) (t : Task) (p7 : PixFmt) (f col row : Nat) : Option MoveStop × Option Tile × State :=
  let w := t.window (t.slotOff p7 f col row)
  match s.rangeStop w 32 false with
  | some e => (some e, none, s)
  | none =>
    let s := s.rangeRead w 32
    let h := hdrOf (s.vread w.1 w.2 32)
    if h.frame = f ∧ h.col = col ∧ h.row = row ∧ h.len16 ≠ 0 then
      match s.rangeStop w p7.slotBytes false with
      | some e => (some e, none, s)
      | none => (none, some (tileOf (s.vread w.1 w.2 p7.slotBytes) 0), s.rangeRead w p7.slotBytes)
    else (none, none, s)

/-- R238: the slots of several positions, in order, up to the first access that stops. -/
def State.storeTiles (s : State) (t : Task) (p7 : PixFmt) (f : Nat) : List (Nat × Nat) → Option MoveStop × List (Option Tile) × State
  | [] => (none, [], s)
  | q :: l =>
    match s.storeTile t p7 f q.1 q.2 with
    | (some e, _, s) => (some e, [], s)
    | (none, x, s) =>
      let r := s.storeTiles t p7 f l
      (r.1, x :: r.2.1, r.2.2)

/-- R226, R238: the positions around (col, row) inside the picture that an operator's apron reaches. -/
def aroundOf (t : Task) (p7 : PixFmt) (col row : Nat) : List (Nat × Nat) :=
  let ds : List (Int × Int) := if t.kern.id = kConvert then [(-1, 0), (1, 0)] else eightDirs
  (ds.map (fun d => ((col : Int) + d.1, (row : Int) + d.2))).filterMap (fun (q : Int × Int) =>
    if 0 ≤ q.1 ∧ q.1 < (p7.cols : Int) ∧ 0 ≤ q.2 ∧ q.2 < (p7.rows : Int) then some (q.1.toNat, q.2.toNat) else none)

/-- The body of a table slot, if named. -/
def State.opSlot (s : State) (t : Task) (k : Nat) : Option (Table × List Byte) :=
  (t.table k).map (fun x => (x, s.tableBody x))

/-- The pixel-format descriptor in a table slot. -/
def State.opPixFmt (s : State) (t : Task) (k : Nat) : PixFmt := ((t.table k).map (fun x => pixFmtOf (s.tableBody x))).getD {}

/-- R229, R230: the window range an operator reads: DEFECT's map, SHADING's gain grid. -/
def Task.opRange (t : Task) (p7 : PixFmt) : Nat × Nat :=
  if t.kern.id = kDefect then (t.arg 20 4, 4 * t.arg 24 4)
  else if t.kern.id = kShading then (t.arg 20 4, (if p7.cfa = 0 then 1 else 4) * t.arg 16 2 * t.arg 18 2 * 2)
  else (0, 0)

/-- R151, R156, R222: what a library kernel's work comes to: an access of its window that does not translate, or the tiles it puts and
the status it ends with. -/
structure OpWork where
  stop : Option MoveStop := none
  tiles : List Tile := []
  status : Nat := 0
  deriving DecidableEq, Repr

/-- R222: the output of an operator for the tile in `o`, once its window data is read. -/
def State.opPut (s : State) (t : Task) (o : OpIn) (p6 : PixFmt) (src : TileHdr) (missing : Bool) : OpWork × State :=
  let r := t.opRange o.p
  let w := t.window r.1
  match s.rangeStop w r.2 false with
  | some e => ({ stop := some e }, s)
  | none =>
    let s := s.rangeRead w r.2
    let d : OpData := { slot0 := s.opSlot t 0, slot1 := s.opSlot t 1, win := s.vread w.1 w.2 r.2 }
    ({ tiles := [opTile t d o p6 src missing], status := if missing then 0x0C84 else 0 }, s)

/-- R221, R222, R238: an apron reader's work on its token. (DEDUCED, log entry 28) -/
def State.readerRun (s : State) (t : Task) (inp : Tile) : OpWork × State :=
  let p6 := s.opPixFmt t 6
  let p7 := s.opPixFmt t 7
  let st := t.startCheck p6 p7
  if st ≠ 0 then ({ status := st }, s)
  else if inp.hdr.format ≠ 0x0600 then ({ status := 0x0C81 }, s)
  else
    let col := leAt inp.payload 0 2
    let row := leAt inp.payload 2 2
    let f := inp.hdr.frame
    match s.storeTile t p7 f col row with
    | (some e, _, s) => ({ stop := some e }, s)
    | (none, c, s) =>
      if c.any (fun c => c.hdr.format != p7.format) then ({ status := 0x0C81 }, s)
      else if !t.geometryOk p6 p7 then ({ status := 0x0C83 }, s)
      else
        match c with
        | none => ({ status := 0x0C84 }, s)
        | some c =>
          match s.storeTiles t p7 f (aroundOf t p7 col row) with
          | (some e, _, s) => ({ stop := some e }, s)
          | (none, l, s) =>
            s.opPut t { p := p7, centre := c, around := l.filterMap (fun x => x) } p6 inp.hdr (l.any (fun x => x.isNone))

/-- R221, R222: the work of any other operator but APRON_STORE. (DEDUCED, log entry 28) -/
def State.opRun (s : State) (t : Task) (inp : Tile) : OpWork × State :=
  let p6 := s.opPixFmt t 6
  let p7 := s.opPixFmt t 7
  let st := t.opCheck p6 p7 (some inp.hdr.format)
  if st ≠ 0 then ({ status := st }, s) else s.opPut t { p := p7, centre := inp } p6 inp.hdr false

/-- R237: a token for position index `i`; `n` tokens of the frame went before it. -/
def aproToken (p7 : PixFmt) (h : TileHdr) (n i : Nat) (last : Bool) : Tile :=
  let hd : TileHdr := { frame := h.frame, col := n, row := 0xFFFF, format := 0x0600, len16 := 1, capSec := h.capSec,
                        capNs := h.capNs }
  { hdr := (hd.setFlag 3 (n == 0)).setFlag 4 last,
    payload := padTo 16 (leBytes 2 (i % max 1 p7.cols) ++ leBytes 2 (i / max 1 p7.cols)) }

/-- R156, R236, R237: write pieces of the store in order, up to the first unit that stops. -/
def State.storeWrite (s : State) : List ((Nat × Nat) × List Byte) → Option MoveStop × State
  | [] => (none, s)
  | p :: l =>
    match s.move none (fun i => p.2.getD i 0) [p.1] p.2.length 0 with
    | (some e, s) => (some e, s)
    | (none, s) => s.storeWrite l

/-- R236: the control block of a store: what this node keeps of it, when the block holds what the node wrote; any other block is an
empty store, nothing. (DESIGN CHOICE, log entry 136) -/
def State.apronBlock (s : State) (t : Task) : Option Apron :=
  let w := t.window (t.arg 0 4)
  match KMap.get (fun _ => none) s.eng.aprons t.node with
  | some a => if s.vread w.1 w.2 64 = a.block then some a else none
  | none => none

/-- R237: the frame record after an input of index `k`, with the skipped positions before it, and whether the frame before was cut
short. -/
def apronNext (old : Option Apron) (h : TileHdr) (k : Nat) : Apron × List Nat × Bool :=
  let same := old.any (fun a => a.frame == h.frame)
  let a : Apron := if same then old.getD {} else { frame := h.frame }
  let from_ := if a.stored.isEmpty then 0 else a.last + 1
  ({ a with last := k, stored := a.stored ++ [k], done := a.done || h.fe }, (List.range (k - from_)).map (fun i => from_ + i),
    !same && old.any (fun a => !a.done))

/-- R237: the indices whose tokens are put after an input of index `k`, `n` columns wide. -/
def Apron.ready (a : Apron) (n k : Nat) (fe : Bool) : List Nat :=
  let lacks (i : Nat) : Bool := a.stored.contains i && !a.tokens.contains i
  let lag := k - (n + 1)
  let first := if n + 1 ≤ k ∧ lacks lag then [lag] else []
  let later := a.stored.filter (fun i => lacks i && !(decide (n + 1 ≤ k) && decide (i ≤ lag)))
  first ++ (if fe then (later.mergeSort (· ≤ ·)).eraseDups else [])

/-- R236, R237: an APRON_STORE task stores its input, writes missing markers and its control block, whose bytes are the library's own,
and makes the tokens that have become ready. (DEDUCED, log entry 28; DESIGN CHOICE, log entry 136) -/
def State.apronRun (s : State) (t : Task) (inp : Tile) : OpWork × State :=
  let p7 := s.opPixFmt t 7
  let st := t.opCheck (s.opPixFmt t 6) p7 (some inp.hdr.format)
  if st ≠ 0 then ({ status := st }, s)
  else
    let w := t.window (t.arg 0 4)
    match s.rangeStop w 64 false with
    | some e => ({ stop := some e }, s)
    | none =>
      let s := s.rangeRead w 64
      let h := inp.hdr
      let n := max 1 p7.cols
      let k := h.row * p7.cols + h.col
      let r := apronNext (s.apronBlock t) h k
      let slot (i : Nat) : Nat × Nat := t.window (t.slotOff p7 h.frame (i % n) (i / n))
      let marks := r.2.1.map (fun i => (slot i, ({ h with col := i % n, row := i / n, len16 := 0 } : TileHdr).bytes))
      let at_ := t.window (t.slotOff p7 h.frame h.col h.row)
      let own := leBytes 64 (Config.freeWord s.free)
      let l := r.1.ready p7.cols k h.fe
      match s.storeWrite (marks ++ [((at_.1, at_.2 + 16), inp.bytes.drop 16), (at_, inp.bytes.take 16), (w, own)]) with
      | (some e, s) => ({ stop := some e }, s)
      | (none, s) =>
        let s := s.setFree (s.free + 1)
        ({ tiles := l.mapIdx (fun j i => aproToken p7 h (r.1.tokens.length + j) i (h.fe && j + 1 == l.length)),
           status := if r.2.2 then 0x0C85 else 0 },
          s.setEng { s.eng with aprons := KMap.set (fun _ => none) s.eng.aprons t.node
                                            (some { r.1 with tokens := r.1.tokens ++ l, block := own }) })

/-- R218 to R239: a library kernel's work on its input tile. -/
def State.libraryRun (s : State) (t : Task) (inp : Tile) : OpWork × State :=
  if t.kern.id = kApron then s.apronRun t inp
  else if t.isReader then s.readerRun t inp
  else s.opRun t inp

/-- R221: the status of a library task that got no tile to work on. -/
def State.idleStatus (s : State) (t : Task) : Nat :=
  let p6 := s.opPixFmt t 6
  let p7 := s.opPixFmt t 7
  t.opCheck p6 p7 none

end Sys2Proof.Machine
end

