-- ==== Sys2Proof/Machine/Engines.lean ====
section
/-! DEFINITION. Engines: the custom instructions (R171 to R178), the ends of tasks (R164, R170), kernels (R179 to R182) and
the ENG block (R184 to R186). The ordinary RISC-V instructions of a kernel are not commands of the block: engines execute them as REF
cycles pass (Cores.lean); the values a custom instruction reads from rs1, rs2, a0 and pc are operands of its command. -/

namespace Sys2Proof.Machine

/-! ### Ends and traps -/

/-- The task running on engine `k`. -/
def State.running (s : State) (k : Nat) : Option (Nat × Task) :=
  match (s.engine k).running with
  | none => none
  | some slot => (s.task slot).map (fun t => (slot, t))

/-- R164: an exception on engine `k`: captured when VALID is clear, and the task ends with ENGINE_TRAP. -/
def State.trap (s : State) (k slot node cause tval pc : Nat) : State :=
  let s :=
    if s.on (F.ENG_E_TRAP_VALID k) then s
    else
      let s := ((s.wr (F.ENG_E_TRAP_CAUSE k) cause).wr (F.ENG_E_TRAP_NODE_ID k) node).wr (F.ENG_E_TRAP_VALID k) 1
      let s := (s.wr (F.ENG_E_TVAL_V k) tval).wr (F.ENG_E_TPC_V k) pc
      s.irq 0x0C F.ENG_STATUS_TRAP_IRQ F.ENG_CTRL_TRAP_IRQ_EN
  s.endTask slot 0x0C01

/-- R164: an exception whose mtval RISC-V leaves open: a free value. (DEDUCED, log entry 29) -/
def State.trapOpen (s : State) (k slot node cause pc : Nat) : State :=
  let v := s.takeFree 32
  v.2.trap k slot node cause v.1 pc

/-- R171: an illegal instruction. -/
def State.illegal (s : State) (k slot node pc : Nat) : State := s.trapOpen k slot node 2 pc

/-- A custom instruction of engine `k` completes: rd takes a value, the pc passes it, it is retired, and the cycles spent in it count
but for a PPT (R184). (DESIGN CHOICE, log entries 16, 41) -/
def State.retire (s : State) (k : Nat) (pc : Word) (rd : Fin 32) (val : Nat) (spent : Bool := true) : State :=
  let e := s.engine k
  let r := e.regs
  let x := if rd.val = 0 then r.x else r.x.set rd.val (BitVec.ofNat 32 val)
  s.setEngine k { e with regs := { r with pc := (pc.toNat + 4) % 2 ^ 32, x := x, top := 0, tport := 0, tunits := 0, taddr := 0 },
                         minstret := (e.minstret + 1) % 2 ^ 64, waiting := false,
                         tstall := (e.tstall + if spent then Config.stallCycles k e.minstret else 0) % 2 ^ 64 }

/-- R177: an instruction that waits: it is executed again later, and a stop finds it. -/
def State.waitAt (s : State) (k : Nat) (pc : Word) : State :=
  let e := s.engine k
  s.setEngine k { e with regs := { e.regs with pc := pc.toNat }, waiting := true }

/-- R167: the fabric address of local address 0 of a task. -/
def Task.lm (t : Task) : Nat := lmBase t.engine t.area

/-- R156: the units a tile instruction has completed, when the engine resumes it. -/
def State.unitsDone (s : State) (k top port addr : Nat) : Nat :=
  let r := (s.engine k).regs
  if r.top = top ∧ r.tport = port ∧ r.taddr = addr then r.tunits else 0

/-- R156: a tile instruction of engine `k` faults at a unit; `b` is its tile as far as it is known. The seal over the units that are
done is saved. -/
def State.tileFault (s : State) (k top port addr : Nat) (pc : Word) (x : MoveStop) (sealState : Nat) (b : List Byte) : State :=
  let e := s.engine k
  let stop := tileStop pc.toNat sealState b x.off (16 * s.unitsDone k top port addr) e.acc
  let s := s.setEngine k { e with regs := { e.regs with pc := pc.toNat, top := top, tport := port, tunits := x.off / 16, taddr := addr },
                                  acc := stop.sealAcc.toNat }
  s.faultAccess (0x100 + k) x.space x.va x.write x.kind x.level x.pte stop []
    (if b.isEmpty then none else some (leAt b 4 4))

/-- R24, R156: the seal of a tile a tile instruction has read or sends, going on from the one it saved. -/
def State.tileSeal (s : State) (k top port addr : Nat) (b : List Byte) : Nat :=
  sealResumed b (16 * s.unitsDone k top port addr) (s.engine k).acc

/-- R172: the result word. (DEDUCED, log entry 35) -/
def tileResult (outcome len16 : Nat) : Nat := outcome * 2 ^ 28 + len16

/-! ### TGET (R172) -/

/-- R222, R237: a library kernel has gotten its input, which it works on next. (DEDUCED, log entry 28) -/
def State.libraryInput (s : State) (slot : Nat) (tile : Tile) : State :=
  match s.task slot with
  | none => s
  | some t => if t.isLibrary then s.setTask slot (some { t with input := some tile }) else s

/-- R151, R156, R222: the library kernel on engine `k` works on its input: it comes to the tiles it will put and its status, or it
faults in its window and does all of it again later. (DEDUCED, log entry 28) -/
def State.libraryWork (s : State) (k slot : Nat) : State :=
  match s.task slot with
  | none => s
  | some t =>
    match t.input with
    | none => s
    | some inp =>
      let r := s.libraryRun t inp
      match r.1.stop with
      | some x => r.2.faultAccess (0x100 + k) x.space x.va x.write x.kind x.level x.pte
          { restart := (r.2.engine k).regs.pc, sealState := 0, sealAcc := 0, sealSeq := 0, sealBytes := 0, vstart := 0 } []
          (some inp.hdr.frame)
      | none => r.2.setTask slot (some { t with input := none, worked := true, outTiles := t.outTiles ++ r.1.tiles,
                                                 opStatus := r.1.status })

/-- R172: the tile gotten by a task: the claim is taken, the copy stands in local memory, rd receives the result.
(DEDUCED, log entry 39) -/
def State.tgetEnd (s : State) (k slot : Nat) (pc : Word) (rd : Fin 32) (c : Claim) (addr : Nat) (r : Checked) (n : Nat) :
    State :=
  match s.task slot with
  | none => s
  | some t =>
    let e := s.engine k
    let s := s.setEngine k { e with regs := { e.regs with gets := KMap.modify (fun _ => 0) e.regs.gets c.port (· + 1) } }
    let claims := t.claims.map (fun x => if x = c then { x with gotten := true } else x)
    if r.outcome = 3 then
      let s := s.setTask slot (some { t with claims := claims })
      let s := s.setBytes (t.lm + addr) (leBytes n (Config.freeWord s.free))
      (s.setFree (s.free + 1)).retire k pc rd (tileResult 3 0)
    else
      let s := s.setTask slot (some { t with claims := claims, lastGot := KMap.set (fun _ => none) t.lastGot c.port (some r.tile.hdr) })
      let s := (s.setBytes (t.lm + addr) r.tile.bytes).libraryInput slot r.tile
      s.retire k pc rd (tileResult r.outcome r.tile.hdr.len16)

/-- R172, R222: TGET on engine `k` for its running task; a library kernel always sets CHECK. (DEDUCED, log entries 29, 35) -/
def State.tget (s : State) (k slot : Nat) (t : Task) (pc : Word) (rd : Fin 32) (rs1 imm : Nat) : State :=
  let port := imm % 16
  let check := bits imm 4 1 == 1 || t.isLibrary
  if 32 ≤ imm ∨ t.nd.inPorts ≤ port then s.illegal k slot t.node pc.toNat
  else if rs1 % 16 ≠ 0 then s.trap k slot t.node 6 rs1 pc.toNat
  else
    match s.nextClaim t port with
    | none => s.retire k pc rd (tileResult 4 0)
    | some (c, e) =>
      let src := s.slotVia c.qid e.addr
      match s.unitStop 0 src 32 false with
      | some x => s.tileFault k 1 port rs1 pc { x with off := 16 * s.unitsDone k 1 port rs1 } (if check then 2 else 0) []
      | none =>
        let h := hdrOf (s.vread src.1 src.2 32)
        let units := if h.valid then h.len16 else if 1 ≤ e.len16 ∧ e.len16 ≤ 4096 then e.len16 else 0
        let n := 32 + 16 * units
        if h.valid ∧ t.lmSize < rs1 + n then s.trap k slot t.node 7 rs1 pc.toNat
        else
          let dst := if rs1 + n ≤ t.lmSize then [(0, t.lm + rs1)] else []
          match s.move (some src) (fun _ => 0) dst n (16 * s.unitsDone k 1 port rs1) with
          | (some x, s) => s.tileFault k 1 port rs1 pc x (if check then 2 else 0) (s.tileSoFar src x.off)
          | (none, s) =>
            let b := s.vread src.1 src.2 n
            let tile := tileOf b units
            let r := match s.edge? c.qid with
              | some ed => if check || !h.valid || (s.queue c.qid).halted then s.checkTile ed (0x100 + k) tile check (s.tileSeal k 1 port rs1 b)
                else ({ outcome := 0, tile := tile }, s)
              | none => ({ outcome := 0, tile := tile }, s)
            if r.1.outcome ≠ 3 ∧ t.lmSize < rs1 + r.1.tile.bytes.length then r.2.trap k slot t.node 7 rs1 pc.toNat
            else r.2.tgetEnd k slot pc rd c rs1 r.1 (min n (t.lmSize - rs1))

/-! ### TPUT (R173) -/

/-- R173: the earliest reservation of a port that is not yet completed. -/
def Task.nextOut (t : Task) (port : Nat) : Option OutRes := t.outs.find? (fun o => o.port == port && !o.done)

/-- R103, R104: the reservation an engine's put makes beyond its task's own. -/
def putReq (k slot : Nat) (t : Task) (qids : List Nat) : ResReq :=
  { mesh := 0x100 + k, node := t.node, slot := slot, stream := t.nd.stream, n := 1, qid := qids.headD 0xFFFF, copies := qids.drop 1 }

/-- R104: would a put's reservation be granted now: has every queue room, and does no request that waits go before it?
(DEDUCED, log entry 37) -/
def State.mayReserve (s : State) (r : ResReq) (qids : List Nat) : Bool :=
  s.roomOn qids 1 && !(s.hq.waiting ++ s.hq.puts).any (fun w => ResReq.overtakenBy w r)

/-- R104, R177: a put that finds no room waits, and competes for it. (DEDUCED, log entry 37) -/
def State.putWait (s : State) (k : Nat) (pc : Word) (r : ResReq) : State :=
  let s := s.waitAt k pc
  if s.hq.puts.contains r then s else s.setHq { s.hq with puts := s.hq.puts ++ [r] }

/-- R89, R173: the queues a port of a task's node feeds now; none when the node was removed. -/
def State.taskQueues (s : State) (t : Task) (port : Nat) : List Nat :=
  if s.node? t.node = some t.nd then s.portQueues t.node port else []

/-- R103, R173: a put beyond the task's reservation reserves one entry on each queue of the port. (DEDUCED, log entry 37) -/
def State.putReserve (s : State) (slot : Nat) (t : Task) (port : Nat) : State :=
  let qs := s.taskQueues t port
  let r := s.takeSeq t.nd.stream
  let a := qs.foldl (fun (a : List (Nat × Nat) × State) q =>
    let b := a.2.reserve q 1
    (a.1 ++ [(q, b.1.headD 0)], b.2)) ([], r.2)
  let o : OutRes := { port := port, seq := r.1, ents := a.1, lost := if qs.isEmpty then 1 else 0 }
  a.2.setTask slot (some { t with outs := t.outs ++ [o] })

/-- R173: the header a put sends: fields from the reservation and from the last tile gotten on the lowest-numbered port. -/
def Task.putHeader (t : Task) (seq : Nat) (h : TileHdr) : TileHdr :=
  let h := { h with magic := 0xA7, stream := t.nd.stream, seq := seq }
  match t.lastGot.head? with
  | some (_, some g) => ({ h with frame := g.frame, capSec := g.capSec, capNs := g.capNs } : TileHdr).setFlag 6 (g.flag 6)
  | _ => h

/-- R173: the largest payload of the node's PIXFMT, in 16-byte units. -/
def State.maxUnits (s : State) (t : Task) : Nat :=
  match findTable t.tables t.nd.pixfmt with
  | some x => min 4096 ((pixFmtOf (s.tableBody x)).maxPayload / 16)
  | none => 4096

/-- R173: is the put refused? -/
def State.putInvalid (s : State) (t : Task) (qids : List Nat) (h : TileHdr) : Bool :=
  h.len16 == 0 || decide (s.maxUnits t < h.len16) || h.flag 7 ||
    (qids.filterMap (fun q => s.edge? q)).any (fun e => e.format != h.format)

/-- R101, R173: the last unit is written: every copy is completed, the local header follows, rd receives SEQ. -/
def State.tputEnd (s : State) (k slot : Nat) (pc : Word) (rd : Fin 32) (addr : Nat) (o : OutRes) (tile : Tile) : State :=
  let s := s.each o.ents (fun e s => s.complete e.1 e.2 (tile.entry ((s.queue e.1).slotAddr e.2)))
  let s := s.inc F.STR_DROP_COUNT_COUNT o.lost
  match s.task slot with
  | none => s
  | some t =>
    let outs := t.outs.map (fun x => if x = o then { x with done := true } else x)
    let s := s.setTask slot (some { t with outs := outs, outTiles := if t.isLibrary then t.outTiles.drop 1 else t.outTiles })
    let s := s.setBytes (t.lm + addr) tile.hdr.bytes
    let e := s.engine k
    let s := s.setEngine k { e with regs := { e.regs with puts := KMap.modify (fun _ => 0) e.regs.puts o.port (· + 1) } }
    s.retire k pc rd o.seq

/-- R173: the tile goes to every reserved entry in step. -/
def State.tputSend (s : State) (k slot : Nat) (t : Task) (pc : Word) (rd : Fin 32) (rs1 : Nat) (o : OutRes) : State :=
  let h := hdrOf (s.bytesAt (t.lm + rs1) 32)
  let tile := ({ hdr := t.putHeader o.seq h, payload := s.bytesAt (t.lm + rs1 + 32) (16 * h.len16) } : Tile).sealed
  let b := tile.bytes
  let dsts := o.ents.map (fun e => s.slotVia e.1 ((s.queue e.1).slotAddr e.2))
  match s.move none (fun i => b.getD i 0) dsts b.length (16 * s.unitsDone k 2 o.port rs1) with
  | (some x, s) => s.tileFault k 2 o.port rs1 pc x 1 b
  | (none, s) =>
    let out : Tile := { tile with hdr := { tile.hdr with crc := s.tileSeal k 2 o.port rs1 b } }
    (s.each dsts (fun d s => if out = tile then s else s.vwrite d.1 d.2 out.hdr.bytes)).tputEnd k slot pc rd rs1 o out

/-- R222, R237: a library kernel's next output tile, as it stands in local memory when the kernel puts it. -/
def State.libraryOutput (s : State) (t : Task) (rs1 : Nat) : State :=
  if !t.isLibrary then s
  else match t.outTiles with
    | o :: _ => if rs1 + o.bytes.length ≤ t.lmSize then s.setBytes (t.lm + rs1) o.bytes else s
    | [] => s

/-- R173: TPUT on engine `k` for its running task. A library kernel puts what its operator computed. (DEDUCED, log entry 29) -/
def State.tput (s : State) (k slot : Nat) (t : Task) (pc : Word) (rd : Fin 32) (rs1 imm : Nat) : State :=
  if 16 ≤ imm ∨ t.nd.outPorts ≤ imm then s.illegal k slot t.node pc.toNat
  else if rs1 % 16 ≠ 0 then s.trap k slot t.node 4 rs1 pc.toNat
  else if t.lmSize < rs1 + 32 then s.trap k slot t.node 5 rs1 pc.toNat
  else
    let s := s.libraryOutput t rs1
    let h := hdrOf (s.bytesAt (t.lm + rs1) 32)
    let qids := match t.nextOut imm with
      | some o => o.ents.map (fun e => e.1)
      | none => s.taskQueues t imm
    if s.putInvalid t qids h then (s.wr F.ENG_STATUS_STATUS 0x0C02).endTask slot 0x0C02
    else if t.lmSize < rs1 + 32 + 16 * h.len16 then s.trap k slot t.node 5 rs1 pc.toNat
    else
      match t.nextOut imm with
      | some o => s.tputSend k slot t pc rd rs1 o
      | none =>
        let r := putReq k slot t qids
        if !s.mayReserve r qids then s.putWait k pc r
        else
          let s := ((s.dropPuts slot).putReserve slot t imm).dropStalled
          match s.task slot with
          | none => s
          | some t =>
            match t.nextOut imm with
            | some o => s.tputSend k slot t pc rd rs1 o
            | none => s

/-! ### TCHK (R174) -/

/-- R166: how an engine reaches `len` bytes at an engine address of local memory or the window. -/
def Task.reach (t : Task) (a len : Nat) : Option (Nat × Nat) :=
  if a + len ≤ t.lmSize then some (0, t.lm + a)
  else if 0x80000000 ≤ a ∧ a + len ≤ 2 ^ 32 ∧ t.winEn then some (t.window (a - 0x80000000))
  else none

/-- R174: the bytes TCHK writes in place: the unit that holds SEAL_ERR of a marked tile, a whole substitute, otherwise nothing. -/
def tchkWrites (r : Checked) : List Byte :=
  if r.outcome = 1 then r.tile.bytes.take 16 else if r.outcome = 2 then r.tile.bytes else []

/-- R174: TCHK on engine `k` for its running task. (DEDUCED, log entries 29, 40) -/
def State.tchk (s : State) (k slot : Nat) (t : Task) (pc : Word) (rd : Fin 32) (rs1 imm : Nat) : State :=
  let port := imm % 16
  let report := bits imm 4 1 == 1
  if 32 ≤ imm ∨ t.nd.inPorts ≤ port then s.illegal k slot t.node pc.toNat
  else if rs1 % 16 ≠ 0 then s.trap k slot t.node 4 rs1 pc.toNat
  else
    match t.reach rs1 32 with
    | none => s.trap k slot t.node 5 rs1 pc.toNat
    | some a =>
      match s.unitStop 0 a 32 false with
      | some x => s.tileFault k 3 port rs1 pc { x with off := 16 * s.unitsDone k 3 port rs1 } 2 []
      | none =>
        let h := hdrOf (s.vread a.1 a.2 32)
        let n := 32 + (if h.valid then 16 * h.len16 else 0)
        match t.reach rs1 n with
        | none => s.trap k slot t.node 5 rs1 pc.toNat
        | some a =>
          match s.move (some a) (fun _ => 0) [] n (16 * s.unitsDone k 3 port rs1) with
          | (some x, s) => s.tileFault k 3 port rs1 pc x 2 (s.tileSoFar a x.off)
          | (none, s) =>
            let b := s.vread a.1 a.2 n
            let tile := tileOf b 0
            let comp := s.tileSeal k 3 port rs1 b
            let ed := (s.image.inEdge t.node port).getD {}
            if report then
              match verify tile true comp with
              | none => s.retire k pc rd (tileResult 0 tile.hdr.len16)
              | some f =>
                let s := s.countFailure (0x100 + k) tile f policyNone false false comp
                match f with
                | .mismatch => s.retire k pc rd (tileResult 1 tile.hdr.len16)
                | .header => s.retire k pc rd (tileResult 3 0)
            else
              let r := s.checkTile ed (0x100 + k) tile true comp
              let w := tchkWrites r.1
              match t.reach rs1 w.length with
              | none => s.trap k slot t.node 7 rs1 pc.toNat
              | some a =>
                match s.rangeStop a w.length true with
                | some x => s.tileFault k 3 port rs1 pc { x with off := n } 2 b
                | none =>
                  let s := (r.2.move none (fun i => w.getD i 0) [a] w.length 0).2
                  s.retire k pc rd (if r.1.outcome = 3 then tileResult 3 0 else tileResult r.1.outcome r.1.tile.hdr.len16)

/-! ### QSIG, QWAIT and PPT (R175, R176) -/

/-- R175: the refusal of an operation by the queue's state, 0 when it applies. -/
def State.queueRefusal (s : State) (id : Nat) : Nat :=
  if id = 0xFFFF then 0
  else if (s.queue id).state = qFree then 0x0A03
  else if (s.queue id).state ≠ qEnabled then 0x0A04
  else 0

/-- R175: COUNT − CLAIMED. -/
def State.available (s : State) (id : Nat) : Nat :=
  if id = 0xFFFF then 0 else (s.queue id).count - (s.queue id).claimed

/-- R175: QSIG. -/
def State.qsig (s : State) (k slot : Nat) (t : Task) (pc : Word) (rd : Fin 32) (id n funct7 : Nat) : State :=
  if 1 < funct7 then s.illegal k slot t.node pc.toNat
  else
    let push := funct7 == 0
    let st := if id = 0xFFFF ∨ n = 0 then 0 else (s.queue id).doorbell n push
    let s := s.doorbell id n push
    s.retire k pc rd (if st ≠ 0 then 2 ^ 31 + st else s.available id)

/-- R175: QWAIT. -/
def State.qwait (s : State) (k slot : Nat) (t : Task) (pc : Word) (rd : Fin 32) (id n funct7 : Nat) : State :=
  if 1 < funct7 then s.illegal k slot t.node pc.toNat
  else
    let st := s.queueRefusal id
    if st ≠ 0 then s.retire k pc rd (2 ^ 31 + st)
    else if funct7 = 0 ∧ s.available id < n then s.waitAt k pc
    else s.retire k pc rd (s.available id)

/-- R176: PPT: a pending preemption request stops the task at the next instruction. -/
def State.ppt (s : State) (k slot : Nat) (pc : Word) : State :=
  let s := s.retire k pc 0 0 false
  match s.preemptOf slot with
  | some (c, _) => s.preemptStop c ((pc.toNat + 4) % 2 ^ 32) false
  | none => s

/-- R151: does engine `k` wait in place with a fault? -/
def State.engineHeld (s : State) (k : Nat) : Bool := s.xlt.held.any (fun h => h.fr.requester == 0x100 + k)

/-- R177: a stop that GRACE asked for inside an instruction takes effect once the instruction has completed. -/
def State.afterInstr (s : State) (k slot : Nat) : State :=
  let e := s.engine k
  if e.graceOver && e.running == some slot && !s.engineHeld k then
    match s.preemptOf slot with
    | some (c, _) => s.preemptStop c e.regs.pc true
    | none => s
  else s

/-- R170: the status an ECALL with this a0 gives. -/
def ecallStatus (a0 : Nat) : Nat :=
  if a0 = 0 then 0
  else if 0x80 ≤ a0 ∧ a0 ≤ 0xFF then 0x0C00 + a0
  else 0x0C03

/-- R170, R221, R239: ECALL of the task in `slot`. A library kernel's a0 is the status its operator came to, or that of its checks when
it got no tile. (DEDUCED, log entry 28) -/
def State.ecall (s : State) (slot : Nat) (t : Task) (a0 : Nat) : State :=
  let a0 := if t.isLibrary then (if t.worked then t.opStatus else s.idleStatus t) % 256 else a0
  s.endTask slot (ecallStatus a0)

/-! ### Kernel tables and library packages (R179 to R182) -/

/-- R179: does the byte range lie in the tile store outside the system region, or in QDR main memory? -/
def State.codePlace (s : State) (a len : Nat) : Bool :=
  (s.place a == .tile && s.place (a + len - 1) == .tile) ||
    ((List.range (ceilDiv len 256)).all (fun i => s.place (a + 256 * i) == .qdr) && s.place (a + len - 1) == .qdr)

/-- R179: a descriptor's fields but for its code address. -/
def Kernel.ok (k : Kernel) (b : List Byte) (lo hi : Nat) : Bool :=
  decide (lo ≤ k.id) && decide (k.id ≤ hi) && decide (1 ≤ k.maxTasks) && decide (k.maxTasks ≤ 64) &&
  decide (k.inPorts ≤ 16) && decide (k.outPorts ≤ 16) && k.codeAddr % 64 == 0 && decide (k.codeAddr < 2 ^ 40) &&
  k.codeLen % 2 == 0 && decide (2 ≤ k.codeLen) && decide (k.codeLen ≤ 0x100000) && k.entry % 2 == 0 &&
  decide (k.entry < k.codeLen) && k.lmSize % 1024 == 0 && decide (1024 ≤ k.lmSize) && decide (k.lmSize ≤ 0x20000) &&
  k.argLm % 16 == 0 && zeroAt b 30 2 &&
  (List.range 16).all (fun i => if i < k.inPorts then decide (1 ≤ k.need.getD i 0) && decide (k.need.getD i 0 ≤ 64)
    else k.need.getD i 0 == 0) &&
  (List.range 16).all (fun i => if i < k.outPorts then decide (1 ≤ k.room.getD i 0) && decide (k.room.getD i 0 ≤ 64)
    else k.room.getD i 0 == 0)

/-- Are kernel IDs in ascending order, each once? -/
def idsAscend : List Kernel → Bool
  | a :: b :: r => decide (a.id < b.id) && idsAscend (b :: r)
  | _ => true

/-- The `n` descriptors at a physical address, with their bytes. -/
def State.descriptors (s : State) (a n : Nat) : List (Kernel × List Byte) :=
  (List.range n).map (fun i => let b := s.physRead (a + 64 * i) 64; (kernelOf b, b))

/-- The operators the nodes of either plane name (R181, R182). -/
def State.referenced (s : State) : List Nat :=
  ((s.image.nodes ++ (s.str.shadow.getD {}).nodes).filter (fun n => n.kind == 2)).map (fun n => n.op)

/-- R181: the result of an install: its status, and the table when it is accepted. -/
def State.installCheck (s : State) (addr count : Nat) : Nat × List Kernel :=
  let l := s.descriptors addr count
  let ks := l.map (fun x => x.1)
  if 4096 < count || !(l.all (fun x => x.1.ok x.2 0x20000 0xFFFFFFFE && x.1.kflags == 0 &&
      s.codePlace x.1.codeAddr x.1.codeLen)) || !idsAscend ks then (0x0C07, [])
  else
    let used := s.eng.ktab.filter (fun k => s.referenced.contains k.id)
    if used.all (fun k => ks.contains k) then (0, ks) else (0x0C08, [])

/-- R182: the result of a library load: its status, the kernels and LIB_VERSION. (DEDUCED, log entry 38) -/
def State.libCheck (s : State) (addr len : Nat) : Nat × List Kernel × Nat :=
  let h := s.physRead addr 64
  let pkg := leAt h 12 4
  let n := leAt h 6 2
  if addr % 64 ≠ 0 || decide (len < 160) || pkg % 64 != 0 || decide (pkg < 160) || decide (len < pkg) ||
      !s.codePlace addr pkg then (0x0C04, [], 0)
  else
    let key := s.physRead (addr + pkg - 96) 32
    let sig := s.physRead (addr + pkg - 64) 64
    let body := s.physRead addr (pkg - 96)
    if Config.sha256 key ≠ s.vendorHash || !Config.ed25519 key (Config.sha256 body) sig then (0x0C05, [], 0)
    else
      let l := s.descriptors (addr + 64) n
      let ks := l.map (fun x => x.1)
      let fits (k : Kernel) : Bool := decide (64 + 64 * n ≤ k.codeAddr) && decide (k.codeAddr + k.codeLen ≤ pkg - 96)
      if h.take 4 ≠ [0x54, 0x58, 0x4F, 0x4C] || leAt h 4 2 != 1 || n == 0 || decide (4096 < n) || !zeroAt h 16 48 ||
          decide (pkg < 160 + 64 * n) || !(l.all (fun x => x.1.ok x.2 0x10000 0x1FFFF && decide (x.1.kflags ≤ 1) && fits x.1)) ||
          !idsAscend ks then (0x0C04, [], 0)
      else if s.eng.lib.any (fun k => s.referenced.contains k.id) then (0x0C06, [], 0)
      else (0, ks.map (fun k => { k with codeAddr := k.codeAddr + addr, kflags := 1 }), leAt h 8 4)

/-- R185: a load or an install finishes with a status. -/
def State.engOpEnd (s : State) (st : Nat) : State :=
  let s := (s.setEng { s.eng with op := none }).wr F.ENG_STATUS_LIB_BUSY 0
  (s.wr F.ENG_STATUS_STATUS st).irq 0x0C F.ENG_STATUS_LIB_IRQ F.ENG_CTRL_LIB_IRQ_EN

/-- R181, R182, R185: LIB_OPERATION_DONE: the operation in progress is checked and takes effect or is refused. -/
def State.libOperationDone (s : State) : State :=
  match s.eng.op with
  | none => s
  | some (.install addr count) =>
    let r := s.installCheck addr count
    let s := if r.1 = 0 then (s.setEng { s.eng with ktab := r.2 }).wrB F.ENG_STATUS_KTAB_VALID (count != 0) else s
    s.engOpEnd r.1
  | some (.load addr len) =>
    let r := s.libCheck addr len
    let s := if r.1 = 0 then
      ((s.setEng { s.eng with lib := r.2.1 }).wr F.ENG_STATUS_LIB_VALID 1).wr F.ENG_LIB_INFO_LIB_VERSION r.2.2 else s
    s.engOpEnd r.1

/-- R181, R185: start an install or a load; one written while LIB_BUSY is set is refused. -/
def State.engStart (s : State) (op : EngOp) : State :=
  if s.on F.ENG_STATUS_LIB_BUSY then s.wr F.ENG_STATUS_STATUS 0x0C09
  else (s.setEng { s.eng with op := some op }).wr F.ENG_STATUS_LIB_BUSY 1

/-- A write of ENG_KTAB_CMD (R185). -/
def State.ktabCmd (s : State) (val : Word) : State :=
  let s := s.plainWrite F.ENG_KTAB_CMD_COUNT.off val
  if F.ENG_KTAB_CMD_INSTALL.of val = 1 then
    s.engStart (.install (s.rd F.ENG_KTAB_ADDR_HI_ADDR * 2 ^ 32 + s.rd F.ENG_KTAB_ADDR_LO_ADDR * 64)
      (F.ENG_KTAB_CMD_COUNT.of val))
  else s

/-- A write of ENG_LIB_CMD (R185). -/
def State.libCmd (s : State) (val : Word) : State :=
  if F.ENG_LIB_CMD_LOAD.of val = 1 then
    s.engStart (.load (s.rd F.ENG_LIB_ADDR_HI_ADDR * 2 ^ 32 + s.rd F.ENG_LIB_ADDR_LO_ADDR * 64) (s.rd F.ENG_LIB_LEN_LEN))
  else s

/-- R184: clear every engine's counters. (DESIGN CHOICE, log entry 41) -/
def State.clearCounters (s : State) : State :=
  s.each (List.range 128) (fun k s =>
    s.setEngine k { s.engine k with mcycle := 0, minstret := 0, vec := 0, tstall := 0, mstall := 0 })

/-- A write of ENG_CTRL (R185). -/
def State.engCtrl (s : State) (val : Word) : State :=
  let s := s.plainWrite F.ENG_CTRL_CNT_CLR.off val
  if F.ENG_CTRL_CNT_CLR.of val = 1 then s.clearCounters else s

/-! ### Custom instructions by their words (R171) -/

/-- R171, R222: TGET, and what a library kernel then does with its input. -/
def State.runTget (s : State) (k slot : Nat) (t : Task) (pc : Word) (rd : Fin 32) (rs1 imm : Nat) : State :=
  ((s.tget k slot t pc rd rs1 imm).libraryWork k slot).afterInstr k slot

/-- R171: TPUT. -/
def State.runTput (s : State) (k slot : Nat) (t : Task) (pc : Word) (rd : Fin 32) (rs1 imm : Nat) : State :=
  (s.tput k slot t pc rd rs1 imm).afterInstr k slot

/-- R171: TCHK. -/
def State.runTchk (s : State) (k slot : Nat) (t : Task) (pc : Word) (rd : Fin 32) (rs1 imm : Nat) : State :=
  (s.tchk k slot t pc rd rs1 imm).afterInstr k slot

/-- R171: is it a word of the custom-0 or custom-1 opcode? -/
def isCustom (w : Nat) : Bool := bits w 0 7 == 0x0B || bits w 0 7 == 0x2B

/-- R171: the custom instruction of word `w`, its operands in the engine's registers; an encoding that is not defined is illegal. -/
def State.customWord (s : State) (k slot : Nat) (t : Task) (w : Nat) : State :=
  let r := (s.engine k).regs
  let pc : Word := BitVec.ofNat 32 r.pc
  let rd : Fin 32 := Fin.ofNat 32 (bits w 7 5)
  let x (i : Nat) : Nat := if i = 0 then 0 else (r.x.getD i 0).toNat
  let a := x (bits w 15 5)
  let b := x (bits w 20 5)
  match bits w 0 7, bits w 12 3 with
  | 0x0B, 0 => s.runTget k slot t pc rd a (bits w 20 12)
  | 0x0B, 1 => s.runTput k slot t pc rd a (bits w 20 12)
  | 0x0B, 2 => s.runTchk k slot t pc rd a (bits w 20 12)
  | 0x2B, 0 => s.qsig k slot t pc rd (a % 0x10000) b (bits w 25 7)
  | 0x2B, 1 => s.qwait k slot t pc rd (a % 0x10000) b (bits w 25 7)
  | 0x2B, 7 => if w = 0x702B then s.ppt k slot pc else s.illegal k slot t.node r.pc
  | _, _ => s.illegal k slot t.node r.pc

/-! ### Commands -/

/-- Do `f` with the task running on an engine; without one, or while the engine waits in place with a fault (R151), no instruction
executes there. A library kernel first does the work it has left. (DESIGN CHOICE, log entry 16) -/
def State.onEngine (s : State) (k : Nat) (f : State → Nat → Task → State) : State :=
  match s.running k with
  | none => s
  | some (slot, _) =>
    if s.engineHeld k then s
    else
      let s := s.libraryWork k slot
      match s.running k with
      | none => s
      | some (slot, t) => if s.engineHeld k then s else f s slot t

/-- TGET (R172). -/
def execTget (eng : Fin 128) (pc : Word) (rd : Fin 32) (rs1 : Word) (imm : BitVec 12) (s : State) : Out :=
  .next (s.onEngine eng (fun s slot t => s.runTget eng slot t pc rd rs1.toNat imm.toNat))

/-- TPUT (R173). -/
def execTput (eng : Fin 128) (pc : Word) (rd : Fin 32) (rs1 : Word) (imm : BitVec 12) (s : State) : Out :=
  .next (s.onEngine eng (fun s slot t => s.runTput eng slot t pc rd rs1.toNat imm.toNat))

/-- TCHK (R174). -/
def execTchk (eng : Fin 128) (pc : Word) (rd : Fin 32) (rs1 : Word) (imm : BitVec 12) (s : State) : Out :=
  .next (s.onEngine eng (fun s slot t => s.runTchk eng slot t pc rd rs1.toNat imm.toNat))

/-- QSIG (R175). -/
def execQsig (eng : Fin 128) (pc : Word) (rd : Fin 32) (rs1 rs2 : Word) (funct7 : BitVec 7) (s : State) : Out :=
  .next (s.onEngine eng (fun s slot t => s.qsig eng slot t pc rd (rs1.toNat % 0x10000) rs2.toNat funct7.toNat))

/-- QWAIT (R175). -/
def execQwait (eng : Fin 128) (pc : Word) (rd : Fin 32) (rs1 rs2 : Word) (funct7 : BitVec 7) (s : State) : Out :=
  .next (s.onEngine eng (fun s slot t => s.qwait eng slot t pc rd (rs1.toNat % 0x10000) rs2.toNat funct7.toNat))

/-- PPT (R176). -/
def execPpt (eng : Fin 128) (pc : Word) (s : State) : Out := .next (s.onEngine eng (fun s slot _ => s.ppt eng slot pc))

/-- ECALL (R170). -/
def execEcall (eng : Fin 128) (a0 : Word) (s : State) : Out :=
  .next (s.onEngine eng (fun s slot t => s.ecall slot t a0.toNat))

/-- ENGINE_TRAP (R164). -/
def execEngineTrap (eng : Fin 128) (cause : Byte) (tval pc : Word) (s : State) : Out :=
  .next (s.onEngine eng (fun s slot t => s.trap eng slot t.node cause.toNat tval.toNat pc.toNat))

/-- INSTALL (R181). -/
def execInstall (src : Agent) (val : Word) (s : State) : Out :=
  .next (s.writeReg src F.ENG_KTAB_CMD_INSTALL (val ||| 0x80000000) (fun s => s.ktabCmd (val ||| 0x80000000)))

/-- LIB_LOAD (R182). -/
def execLibLoad (src : Agent) (val : Word) (s : State) : Out :=
  .next (s.writeReg src F.ENG_LIB_CMD_LOAD (val ||| 1) (fun s => s.libCmd (val ||| 1)))

/-- LIB_OPERATION_DONE (R181, R182, R185). -/
def execLibOperationDone (s : State) : Out := .next s.libOperationDone

/-- CNT_CLR (R184). -/
def execCntClr (src : Agent) (val : Word) (s : State) : Out :=
  .next (s.writeReg src F.ENG_CTRL_CNT_CLR (val ||| 4) (fun s => s.engCtrl (val ||| 4)))

/-- Writes of the ENG block by offset. -/
def State.engRegWrite (s : State) (o : Nat) (val : Word) : State :=
  if o = 0x000 then s.engCtrl val
  else if o = 0x014 then s.libCmd val
  else if o = 0x028 then s.ktabCmd val
  else s.plainWrite (blockBase 0x0C + o) val

end Sys2Proof.Machine
end

