-- ==== Sys2Proof/Machine/HostIf.lean ====
section
/-! DEFINITION. The host attachment and the peripherals of the HIF block (R391 to R404): the link, MSI-X messages, inbound
windows, host-side DMA channels, boot flash, I²C, UARTs and GPIO. -/

namespace Sys2Proof.Machine

/-! ### Link and messages (R391, R392, R396) -/

/-- R392: the function is reset; with the link down it is lost too. (DEDUCED, log entry 80) -/
def State.hostReset (s : State) (linkDown : Bool) : State :=
  let base := blockBase 0x1C
  let s := s.setRegs (KMap.drop s.regs (base + 0x10000) (base + 0x18100))
  let s := (s.setHif { s.hif with bme := false, msixEn := false, msixMask := false }).wr F.HIF_STATUS_HOST_RESET 1
  if linkDown ∧ s.on F.HIF_STATUS_LINK then
    (((s.wr F.HIF_STATUS_LINK 0).wr F.HIF_STATUS_SPEED 0).wr F.HIF_STATUS_WIDTH 0).hifStatus 0x1C01
  else s

/-- R391: the link comes up at a generation and a width. (DESIGN CHOICE, log entry 129) -/
def State.hostLinkUp (s : State) (speed width : Nat) : State :=
  if s.rd F.PWR_STATUS_DAY = 0 ∨ speed = 0 ∨ (width ≠ 4 ∧ width ≠ 8 ∧ width ≠ 16) then s
  else ((s.wr F.HIF_STATUS_LINK 1).wr F.HIF_STATUS_SPEED speed).wr F.HIF_STATUS_WIDTH width

/-- R391: a word of the function's configuration space that names the function: vendor and device ID, revision and class code. -/
def State.hostIdWord (s : State) (off : Nat) : Option Nat :=
  match off with
  | 0x00 => some 0x01281E94
  | 0x08 => some (0x04800000 + s.rd F.FUSE_DISC_ID_REV_NUMBER)
  | _ => none

/-- R396: is a vector pending, and unmasked? (PRESUMED, log entry 23) -/
def State.vecReady (s : State) (v : Nat) : Bool :=
  s.on ⟨(F.MSIX_PBA_PENDING (v / 32)).off, v % 32, 1⟩ && !s.on (F.MSIX_VCTRL_MASK v)

/-- R396: the lowest vector that is ready sends its message. (DEDUCED, log entry 130) -/
def State.msixMessage (s : State) : State :=
  if !s.hostUp || !s.hif.msixEn || s.hif.msixMask then s
  else
    match lowest 2048 s.vecReady with
    | none => s
    | some v =>
      let a := s.rd (F.MSIX_ADDR_HI_ADDR v) * 2 ^ 32 + s.rd (F.MSIX_ADDR_LO_ADDR v) * 4
      (s.wr ⟨(F.MSIX_PBA_PENDING (v / 32)).off, v % 32, 1⟩ 0).hostWrite a (leBytes 4 (s.rd (F.MSIX_DATA_DATA v)))

/-! ### BAR2 (R394) -/

/-- R394: an inbound access that fails completes with Unsupported Request. (DEDUCED, log entry 80) -/
def State.inboundUr (s : State) (va : Nat) : State :=
  let s := s.inc F.HIF_IW_ERR_COUNT
  let s := if s.on F.HIF_IW_ERR_VA_HI_VALID then s
    else ((s.wr F.HIF_IW_ERR_VA_LO_VA va).wr F.HIF_IW_ERR_VA_HI_VA (va / 2 ^ 32)).wr F.HIF_IW_ERR_VA_HI_VALID 1
  s.hifStatus 0x1C02

/-- R98, R130, R133, R394: a host access through a window of space 0: a physical access, refused with Unsupported Request where R133
refuses it, and past the physical addresses. (DEDUCED, log entry 80) -/
def State.bar2Phys (s : State) (pa len : Nat) (write : Option (List Byte)) : State :=
  if 2 ^ 40 < pa + len then s.inboundUr pa
  else
    match write with
    | some b =>
      let s' := s.physWrite pa b
      if inSysRegion pa || inSysRegion (pa + len - 1) then s'.inboundUr pa else s'
    | none => (s.noteRead pa len).setReadData (s.physRead pa len)

/-- R394: a host access at BAR2 offset `o`; a read leaves its data in `readData`. (DEDUCED, log entry 80) -/
def State.bar2 (s : State) (o len : Nat) (write : Option (List Byte)) : State :=
  if !s.on F.HIF_STATUS_LINK || s.rd F.PWR_STATUS_DAY == 0 then s
  else
    let w := o / 2 ^ 28
    let n := s.rd (F.HIF_IW_CFG_IW_SPACE w)
    let va := s.rd (F.HIF_IW_BASE_HI_BASE w) * 2 ^ 32 + s.rd (F.HIF_IW_BASE_LO_BASE w) * 65536 + o % 2 ^ 28
    let size := match write with
      | some b => b.length
      | none => len
    if size = 0 then s
    else if !s.on (F.HIF_IW_CFG_EN w) then s.inboundUr va
    else if n = 0 then s.bar2Phys va size write
    else
      match s.translateAccess n va size write.isSome 0 with
      | .fault _ _ _ => s.inboundUr va
      | .ok _ =>
        match write with
        | some b => (s.vwrite n va b).cacheLeaf n va
        | none => ((s.readNote n va len).setReadData (s.vread n va len)).cacheLeaf n va

/-! ### Channels (R397 to R400) -/

/-- R392: channels pause while the link is down or Bus Master Enable is clear. -/
def State.chanRuns (s : State) (c : Nat) : Bool :=
  s.hostUp && (s.chan c).node.isSome && !s.xlt.held.any (fun h => h.fr.requester == 0x900 && h.fr.task == c)

/-- R405: a channel reports a status. -/
def State.chanReport (s : State) (c code : Nat) : State := (s.wr (F.HIF_CH_STATUS_STATUS c) code).hifStatus code

/-- R400, R156: a channel faults at byte `off` of the tile it moves, of this FRAME, HELD in place. -/
def State.chanFault (s : State) (c off frame : Nat) (x : MoveStop) : State :=
  (s.setChan c { s.chan c with off := off, frame := frame }).faultAccess 0x900 x.space x.va x.write x.kind x.level x.pte
    { restart := off, sealState := 0, sealAcc := 0, sealSeq := 0, sealBytes := 0, vstart := 0 } (chan := c)

/-- Raise a DONE_VEC (R398, R399). -/
def State.doneVec (s : State) (v : Nat) : State := if bits v 15 1 = 1 then s.raiseVec (bits v 0 11) else s

/-- HIF_CH_PTR of a channel: HEAD is the next entry to handle or the oldest slot held; TAIL follows the last. -/
def State.notePtr (s : State) (c : Nat) : State :=
  let ch := s.chan c
  let n := max 1 ch.slots
  (s.wr (F.HIF_CH_PTR_HEAD c) (ch.returned % n)).wr (F.HIF_CH_PTR_TAIL c) ((ch.returned + ch.outstanding) % n)

/-- R398: the completion entry of a tile in slot `i`. -/
def cplEntry (va len16 pass : Nat) (fs fe : Bool) (seq : Nat) : List Byte :=
  leBytes 8 va ++ leBytes 2 len16 ++
    leBytes 1 ((if pass % 2 = 0 then 1 else 0) + (if fs then 2 else 0) + (if fe then 4 else 0)) ++ leBytes 1 0 ++ leBytes 4 seq

/-- R398: a HOST_OUT channel delivers the next tile of its queue. -/
def State.hostOut (s : State) (c : Nat) : State :=
  let ch := s.chan c
  if !s.chanRuns c || !ch.out then s
  else
    let x := s.nextTile ch.qid
    match x.1 with
    | none => x.2
    | some (qi, e) =>
      let s := x.2
      if ch.slots ≤ ch.outstanding then s
      else
        let src := s.slotVia ch.qid e.addr
        match s.unitStop 0 src 32 false with
        | some y => s.chanFault c ch.off 0 y
        | none =>
        let t := s.tileVia src e.len16
        let s := s.maybeSwitch (ch.node.getD 0) t.hdr.fs
        let i := ch.delivered % ch.slots
        let va := ch.base + i * ch.stride
        let len := 32 + t.payload.length
        match s.move (some src) (fun _ => 0) [(ch.space, va)] len ch.off with
        | (some y, s) => s.chanFault c y.off t.hdr.frame y
        | (none, s) =>
          match s.unitStop 0 (ch.space, ch.cplBase + 16 * i) 16 true with
          | some y => s.chanFault c len t.hdr.frame y
          | none =>
            let s := s.vwrite ch.space (ch.cplBase + 16 * i)
              (cplEntry va t.hdr.len16 (ch.delivered / ch.slots) t.hdr.fs t.hdr.fe t.hdr.seq)
            let s := s.setChan c { ch with off := 0, delivered := ch.delivered + 1, outstanding := ch.outstanding + 1 }
            (((s.pop ch.qid qi).inc (F.HIF_CH_TILES_COUNT c)).notePtr c).doneVec ch.doneVec

/-- R399: a submission entry has been handled. (DEDUCED, log entry 81) -/
def State.hostInEnd (s : State) (c : Nat) : State :=
  let ch := s.chan c
  ((s.setChan c { ch with off := 0, ents := [], returned := ch.returned + 1, outstanding := ch.outstanding - 1 }).notePtr c).doneVec
    ch.doneVec

/-- R399, R400: the reservation of the tile in hand becomes void and the tile is counted as dropped. -/
def State.hostInVoid (s : State) (c seq : Nat) : State :=
  let s := s.each (s.chan c).ents (fun e s => s.completeVoid e.1 e.2 seq)
  (s.inc (F.HIF_CH_DROP_COUNT c)).hostInEnd c

/-- R103, R399: reserve an output entry on every edge of the channel's port, when it holds none. (DEDUCED, log entry 81) -/
def State.hostInReserve (s : State) (c : Nat) (qids : List Nat) : State :=
  if !(s.chan c).ents.isEmpty then s
  else
    s.each qids (fun q s =>
      let r := s.reserve q 1
      r.2.setChan c { r.2.chan c with ents := (r.2.chan c).ents ++ [(q, r.1.headD 0)] })

/-- R399: a HOST_IN channel handles the next submission entry. (DEDUCED, log entry 81) -/
def State.hostIn (s : State) (c : Nat) : State :=
  let ch := s.chan c
  if !s.chanRuns c || ch.out || ch.outstanding == 0 then s
  else
    match ch.node with
    | none => s
    | some id =>
      let qids := s.portQueues id 0
      if ch.ents.isEmpty ∧ !s.roomOn qids 1 then s
      else
        let s := s.hostInReserve c qids
        let ch := s.chan c
        let sub := ch.base + 16 * (ch.returned % max 1 ch.slots)
        match s.unitStop 0 (ch.space, sub) 16 false with
        | some y => s.chanFault c 0 0 y
        | none =>
          let va := le (s.vread ch.space sub 8) % 2 ^ 48
          match s.unitStop 0 (ch.space, va) 32 false with
          | some y => s.chanFault c ch.off 0 y
          | none =>
            let h := hdrOf (s.vread ch.space va 32)
            let bad := (s.image.outEdges id 0).any (fun e => e.stream != h.stream || e.format != h.format)
            let s := s.maybeSwitch id h.fs
            if !h.valid || bad then (s.hostInVoid c h.seq).chanReport c 0x1C05
            else
              let dsts := ch.ents.map (fun e => s.slotVia e.1 ((s.queue e.1).slotAddr e.2))
              match s.move (some (ch.space, va)) (fun _ => 0) dsts (32 + 16 * h.len16) ch.off with
              | (some y, s) => s.chanFault c y.off h.frame y
              | (none, s) =>
                let s := s.each ch.ents (fun e s =>
                  s.complete e.1 e.2 (({ hdr := h } : Tile).entry ((s.queue e.1).slotAddr e.2)))
                (s.inc (F.HIF_CH_TILES_COUNT c)).hostInEnd c

/-- R400: a doorbell of a channel. -/
def State.chanDoorbell (s : State) (c n : Nat) : State :=
  let ch := s.chan c
  if ch.node.isNone then s.chanReport c 0x1C04
  else if ch.out then
    (if ch.outstanding < n then s.chanReport c 0x1C04
     else (s.setChan c { ch with outstanding := ch.outstanding - n, returned := ch.returned + n }).notePtr c)
  else if ch.slots - ch.outstanding < n then s.chanReport c 0x1C04
  else (s.setChan c { ch with outstanding := ch.outstanding + n }).notePtr c

/-- R156, R400: ABORT of a HELD channel: its tile is dropped and the channel continues. -/
def State.chanAbort (s : State) (c : Nat) : State :=
  let ch := s.chan c
  let s := s.wr (F.HIF_CH_STATUS_STATUS c) 0x080B
  if ch.out then
    let s := (s.setChan c { ch with off := 0 }).inc (F.HIF_CH_DROP_COUNT c)
    match (s.nextTile ch.qid).1 with
    | some (i, _) => (s.nextTile ch.qid).2.pop ch.qid i
    | none => s
  else s.hostInVoid c 0

/-! ### The nodes (R397) -/

/-- R397: the channels that new HOST_IN and HOST_OUT nodes take: the lowest free ones, then those of the nodes that go. -/
def State.hostChannels (s : State) (new gone : List Node) : List (Nat × Nat) :=
  let want := ((new.filter (fun n => n.kind == 0xA || n.kind == 0xB)).map (fun n => n.id)).mergeSort (· ≤ ·)
  let free := (List.range 32).filter (fun c => !s.on (F.HIF_CH_INFO_VALID c))
  let later := (List.range 32).filter (fun c => gone.any (fun n => (s.chan c).node == some n.id))
  (free ++ later).zip want

/-- R397: a HOST_IN or HOST_OUT node becomes active on its channel. -/
def State.hifStart (s : State) (n : Node) : State :=
  match s.hif.prep.find? (fun e => e.2 == n.id) with
  | none => s
  | some (c, _) =>
    let out := n.kind == 0xB
    let ch : Chan :=
      if out then
        { node := some n.id, out := true, qid := ((s.image.inEdge n.id 0).map (fun e => e.qid)).getD 0xFFFF, space := n.res % 256,
          doneVec := n.par 2 2, slots := n.par 4 2, base := n.par 8 8, cplBase := n.par 16 8, stride := n.par 24 4 }
      else { node := some n.id, space := n.res % 256, doneVec := n.par 0 2, slots := n.par 2 2, base := n.par 8 8 }
    let s := s.setChan c ch
    let s := ((s.wr (F.HIF_CH_INFO_NODE_ID c) n.id).wr (F.HIF_CH_INFO_VALID c) 1).wrB (F.HIF_CH_INFO_DIR c) out
    (s.wr (F.HIF_CH_INFO_HELD c) 0).notePtr c

/-- R89, R397: a removed node's channel is freed; a tile in hand is discarded and counted. -/
def State.hifStop (s : State) (n : Node) : State :=
  s.each ((List.range 32).filter (fun c => (s.chan c).node == some n.id)) (fun c s =>
    let inHand := !(s.chan c).ents.isEmpty || (s.chan c).off != 0
    let s := s.inc F.STR_DROP_COUNT_COUNT (if inHand then 1 else 0)
    let s := s.each (s.chan c).ents (fun e s => s.completeVoid e.1 e.2 0)
    let s := s.setXlt { s.xlt with held := s.xlt.held.filter (fun h => !(h.fr.requester == 0x900 && h.fr.task == c)) }
    (s.setChan c {}).setReg (F.HIF_CH_INFO_VALID c).off 0)

/-! ### Peripherals (R401 to R404) -/

/-- R401: data moves between the FIFO and the flash while a command runs. -/
def State.xspiMove (s : State) : State :=
  match s.hif.xspiRun with
  | none => s
  | some (left, true) =>
    let k := min left s.hif.xspiFifo.length
    let l := s.hif.xspiLast
    s.setHif { s.hif with xspiRun := if left = k then none else some (left - k, true), xspiFifo := s.hif.xspiFifo.drop k,
                          xspiLast := (l.1, l.2.1, l.2.2 ++ s.hif.xspiFifo.take k) }
  | some (left, false) =>
    let k := min left (64 - s.hif.xspiFifo.length)
    s.setHif { s.hif with xspiRun := if left = k then none else some (left - k, false),
                          xspiFifo := s.hif.xspiFifo ++ s.hif.xspiIn.take k, xspiIn := s.hif.xspiIn.drop k }

/-- R401, R495: a write of HIF_XSPI_CMD; with GO a command starts, `resp` being what the flash returns.
(DESIGN CHOICE, log entries 82, 89) -/
def State.xspiCmd (s : State) (val : Word) (resp : List Byte) : State :=
  let go := F.HIF_XSPI_CMD_GO.of val == 1
  if go && (s.hif.xspiRun.isSome || s.rd F.UPD_STATUS_STATE != 0) then s.hifStatus 0x1C07
  else
    let s := s.plainWrite F.HIF_XSPI_CMD_GO.off val
    if go then
      let len := min 4096 (s.rd F.HIF_XSPI_LEN_LEN)
      let w := F.HIF_XSPI_CMD_WRITE.of val == 1
      (s.setHif { s.hif with xspiRun := if len = 0 then none else some (len, w), xspiIn := padTo len resp,
                             xspiLast := (val, s.reg F.HIF_XSPI_ADDR_ADDR.off, []) }).xspiMove
    else s

/-- R401: a write of HIF_XSPI_DATA puts four bytes into the FIFO; one that finds it full waits. (DESIGN CHOICE, log entry 82) -/
def State.xspiPush (s : State) (val : Word) : State :=
  if 60 < s.hif.xspiFifo.length then s
  else (s.setHif { s.hif with xspiFifo := s.hif.xspiFifo ++ leBytes 4 val.toNat }).xspiMove

/-- R401: a read of HIF_XSPI_DATA takes four bytes from the FIFO; one that finds it empty waits. (DESIGN CHOICE, log entry 82) -/
def State.xspiPop (s : State) : State :=
  if s.hif.xspiFifo.isEmpty then s
  else ((s.setReadData (padTo 4 (s.hif.xspiFifo.take 4))).setHif { s.hif with xspiFifo := s.hif.xspiFifo.drop 4 }).xspiMove

/-- R402: an I²C transfer of at most 16 bytes each way ends. (DESIGN CHOICE, log entry 82) -/
def State.i2cTransfer (s : State) (m addr : Nat) (wrote : List Byte) (r : I2cResult) : State :=
  let keep (read : List Byte) (st : Nat) (s : State) : State :=
    let v : I2cRec := { addr := addr, wrote := wrote.take 16, read := read.take 16, status := st }
    s.setHif { s.hif with i2c := KMap.set (fun _ => {}) s.hif.i2c m v }
  match r with
  | .done b => (keep b 0 s).setReadData (b.take 16)
  | .nack => (keep [] 0x1C08 s).hifStatus 0x1C08
  | .arbLost => (keep [] 0x1C09 s).hifStatus 0x1C09

/-- R403: a byte arrives at a UART. (DESIGN CHOICE, log entry 82) -/
def State.uartReceive (s : State) (u : Nat) (b : Byte) : State :=
  let f := KMap.get (fun _ => []) s.hif.uartRx u
  if f.length < 64 then s.setHif { s.hif with uartRx := KMap.set (fun _ => []) s.hif.uartRx u (f ++ [b]) }
  else
    let d := KMap.get (fun _ => 0) s.hif.uartDropped u
    (s.setHif { s.hif with uartDropped := KMap.set (fun _ => 0) s.hif.uartDropped u (d + 1) }).hifStatus 0x1C0A

/-- R404: a pin's level changes. (DEDUCED, log entry 80) -/
def State.gpioEdge (s : State) (pin : Nat) (level : Bool) : State :=
  let inp : Fld := ⟨(F.GPIO_IN_V).off, pin, 1⟩
  if s.on inp = level then s
  else
    let edge := s.rd ⟨(F.GPIO_IRQ_EDGE_V (pin / 16)).off, 2 * (pin % 16), 2⟩
    let s := s.wrB inp level
    if edge / (if level then 1 else 2) % 2 = 1 then s.wr ⟨(F.GPIO_IRQ_V).off, pin, 1⟩ 1 else s

/-! ### Commands -/

/-- BAR2_ACCESS (R394). -/
def execBar2Access (off : Word) (len : BitVec 12) (write : Option (List Byte)) (s : State) : Out :=
  .next (s.bar2 off.toNat len.toNat write)

/-- CPL_TIMEOUT (R395): the request of `len` bytes returns all-ones. -/
def execCplTimeout (len : BitVec 12) (s : State) : Out :=
  .next (((s.setReadData (List.replicate len.toNat 0xFF)).inc F.HIF_OB_DROP_COUNT).hifStatus 0x1C03)

/-- HOST_RESET (R392). -/
def execHostReset (linkDown : Bool) (s : State) : Out := .next (s.hostReset linkDown)

/-- HOST_LINK_UP (R391, R392). -/
def execHostLinkUp (speed : Fin 5) (width : Fin 17) (s : State) : Out := .next (s.hostLinkUp speed width)

/-- BUS_MASTER_ENABLE: a configuration write of Bus Master Enable and of MSI-X Enable and Function Mask (R392, R396).
(PRESUMED, log entry 23) -/
def execBusMasterEnable (bme msixEn msixMask : Bool) (s : State) : Out :=
  .next (if s.on F.HIF_STATUS_LINK then s.setHif { s.hif with bme := bme, msixEn := msixEn, msixMask := msixMask } else s)

/-- MSIX_MESSAGE (R396). -/
def execMsixMessage (s : State) : Out := .next s.msixMessage

/-- HIF_CH_DB (R400). -/
def execHifChDb (src : Agent) (ch : Fin 32) (val : Word) (s : State) : Out :=
  .next (s.writeReg src (F.HIF_CH_DB_COUNT ch) val (fun s => s.chanDoorbell ch ((F.HIF_CH_DB_COUNT ch).of val)))

/-- HOST_OUT_TILE (R398). -/
def execHostOutTile (ch : Fin 32) (s : State) : Out := .next (s.hostOut ch)

/-- HOST_IN_ENTRY (R399). -/
def execHostInEntry (ch : Fin 32) (s : State) : Out := .next (s.hostIn ch)

/-- XSPI_GO: a write of HIF_XSPI_CMD with GO (R401). -/
def execXspiGo (src : Agent) (val : Word) (resp : List Byte) (s : State) : Out :=
  .next (s.writeReg src F.HIF_XSPI_CMD_GO (val ||| 0x80000000) (fun s => s.xspiCmd (val ||| 0x80000000) resp))

/-- I2C_TRANSFER (R402). -/
def execI2cTransfer (master : Fin 4) (addr : BitVec 7) (wrote : List Byte) (result : I2cResult) (s : State) : Out :=
  .next (s.i2cTransfer master addr.toNat wrote result)

/-- UART_RECEIVE (R403). -/
def execUartReceive (uart : Fin 4) (byte : Byte) (s : State) : Out := .next (s.uartReceive uart byte)

/-- GPIO_EDGE (R404). -/
def execGpioEdge (pin : Fin 32) (level : Bool) (s : State) : Out := .next (s.gpioEdge pin level)

/-- Writes of the HIF block by offset. -/
def State.hifRegWrite (s : State) (src : Agent) (o : Nat) (val : Word) : State :=
  let off := blockBase 0x1C + o
  if o = 0 then
    let lock := s.rd F.HIF_CTRL_HOST_LOCK
    let s := s.plainWrite off val
    if src = .host then s.wr F.HIF_CTRL_HOST_LOCK lock else s
  else if 0x800 ≤ o ∧ o < 0xC00 ∧ o % 0x20 = 4 then s.chanDoorbell ((o - 0x800) / 0x20) (val.toNat % 65536)
  else if o = 0x2000 then s.xspiCmd val []
  else if o = 0x200C then s.xspiPush val
  else if o = 0x2308 then s.setReg (F.GPIO_OUT_V).off (s.reg (F.GPIO_OUT_V).off ||| val)
  else if o = 0x230C then s.setReg (F.GPIO_OUT_V).off (s.reg (F.GPIO_OUT_V).off &&& ~~~val)
  else s.plainWrite off val

end Sys2Proof.Machine
end

