-- ==== Sys2Proof/Machine/Mag.lean ====
section
/-! DEFINITION. Recording (R240 to R267): magazine ports and their NVMe queues, the delay ring, frame records, striping and
mirroring, takes and the loss of a magazine. -/

namespace Sys2Proof.Machine

/-- A magazine port. -/
def State.magPort (s : State) (p : Nat) : MagPort := KMap.get (fun _ => {}) s.mag.ports p

/-- Replace a magazine port. -/
def State.setMagPort (s : State) (p : Nat) (v : MagPort) : State :=
  s.setMag { s.mag with ports := KMap.set (fun _ => {}) s.mag.ports p v }

/-- A writer input. -/
def State.magIn (s : State) (i : Nat) : MagIn := KMap.get (fun _ => {}) s.mag.ins i

/-- Replace a writer input. -/
def State.setMagIn (s : State) (i : Nat) (v : MagIn) : State :=
  s.setMag { s.mag with ins := KMap.set (fun _ => {}) s.mag.ins i v }

/-- R266: PSTATE of a port: 0 OFF, 1 ABSENT, 2 LINK, 3 READY, 4 ACTIVE, 5 FULL, 6 FAILED, 7 SHUTTING_DOWN. -/
def State.pstate (s : State) (p : Nat) : Nat := s.rd (F.MAG_P_STATUS_PSTATE p)

/-- R261: TAKE_STATE: 0 IDLE, 1 RECORDING, 2 STOPPING, 3 CLOSING. -/
def State.take (s : State) : Nat := s.rd F.MAG_STATUS_TAKE_STATE

/-- R267: the block reports a status. -/
def State.magStatus (s : State) (code : Nat) : State := s.wr F.MAG_STATUS_STATUS code

/-- R267: a port reports a status. -/
def State.magPortStatus (s : State) (p code : Nat) : State := (s.wr (F.MAG_P_STATUS_STATUS p) code).magStatus code

/-- R266: one of a port's flags was set, and with it PORT_IRQ. -/
def State.magPortIrq (s : State) (f : Fld) : State :=
  (s.wr f 1).irq 0x12 F.MAG_STATUS_PORT_IRQ F.MAG_IRQ_EN_PORT_IRQ

/-- The active MAG_WRITER node (R250). -/
def State.writerNode (s : State) : Option Node := s.image.nodes.find? (fun n => n.kind == 9)

/-! ### The delay ring (R251) -/

/-- MAG_RING_FREE and MAG_RING_LOW follow the blocks in use. -/
def State.noteRing (s : State) : State :=
  let f := s.mag.ringBlocks - s.mag.used.length
  (s.wr F.MAG_RING_FREE_BLOCKS f).wr F.MAG_RING_LOW_BLOCKS (min (s.rd F.MAG_RING_LOW_BLOCKS) f)

/-- R251: bytes the directory part of a reservation takes. -/
def dirBytes (maxTiles : Nat) : Nat := roundUp (64 + 8 * maxTiles) 4096

/-- R251: the reservation of an input port, in 64 KiB blocks. (DESIGN CHOICE, log entry 43) -/
def reservationBlocks (maxTiles unit : Nat) : Nat :=
  ceilDiv (dirBytes maxTiles + maxTiles * (32 + 16 * unit)) 65536

/-- The lowest `n` blocks of the ring that are free. -/
def State.freeBlocks (s : State) (n : Nat) : List Nat :=
  ((List.range s.mag.ringBlocks).filter (fun b => !s.mag.used.contains b)).take n

/-- Take or give back blocks. -/
def State.setUsed (s : State) (u : List Nat) : State := (s.setMag { s.mag with used := u }).noteRing

/-- Blocks return to the free pool. -/
def State.giveBlocks (s : State) (l : List Nat) : State := s.setUsed (s.mag.used.filter (fun b => !l.contains b))

/-- The address of byte `o` of a reservation. (DESIGN CHOICE, log entry 43) -/
def State.ringAddr (s : State) (blocks : List Nat) (o : Nat) : Nat :=
  s.mag.ringBase + blocks.getD (o / 65536) 0 * 65536 + o % 65536

/-- Write bytes into a reservation. -/
def State.delayPut (s : State) (blocks : List Nat) (o : Nat) : List Byte → State
  | [] => s
  | b :: t => (s.setByte (s.ringAddr blocks o) b).delayPut blocks (o + 1) t

/-- Read bytes from a reservation. -/
def State.delayGet (s : State) (blocks : List Nat) (o : Nat) : Nat → List Byte
  | 0 => []
  | n + 1 => s.byte (s.ringAddr blocks o) :: s.delayGet blocks (o + 1) n

/-! ### Extents (R248, R249) -/

/-- R248: an extent: first block, blocks, and whether the entry is valid. (DESIGN CHOICE, log entry 44) -/
def State.extent (s : State) (p i : Nat) : Nat × Nat × Bool :=
  let a := s.rd (F.MAG_P_EXT_LO_ADDR p) * 16 + s.rd (F.MAG_P_EXT_HI_ADDR p) * 2 ^ 32 + 16 * i
  let b := s.physRead a 16
  let start := leAt b 0 8
  let n := leAt b 8 4
  (start, n, zeroAt b 12 4 && n != 0 &&
    (s.rd (F.MAG_P_QCFG_LBA_SHIFT p) != 9 || (start % 8 == 0 && n % 8 == 0)))

/-- R249: the closing reserve: 4 KiB for the closing record and 4 KiB for each input port of the node. -/
def State.closingReserve (s : State) : Nat :=
  4096 * (1 + (if s.mag.streams.isEmpty then ((s.writerNode).map (fun n => n.inPorts)).getD 0 else s.mag.streams.length))

/-- R249: the remaining extent space of a port, in bytes. -/
def State.extSpace (s : State) (p : Nat) : Nat :=
  let pos := s.rd (F.MAG_P_EXT_POS_INDEX p)
  let l := (List.range (s.rd (F.MAG_P_EXT_COUNT_COUNT p) - pos)).map (fun i => (s.extent p (pos + i)).2.1)
  (l.foldl (· + ·) 0 - (s.magPort p).extUsed) * 2 ^ s.rd (F.MAG_P_QCFG_LBA_SHIFT p)

/-- R249, R266: MAG_P_FREE follows the space; falling below MAG_SPACE_LOW sets SPACE_IRQ. -/
def State.noteFree (s : State) (p : Nat) : State :=
  let old := s.rd (F.MAG_P_FREE_MIB p)
  let new := min ((s.extSpace p - s.closingReserve) / 0x100000) 0xFFFFFFFF
  let thr := s.rd F.MAG_SPACE_LOW_THRESHOLD
  let s := s.wr (F.MAG_P_FREE_MIB p) new
  if thr ≤ old ∧ new < thr then s.irq 0x12 F.MAG_STATUS_SPACE_IRQ F.MAG_IRQ_EN_SPACE_IRQ else s

/-- What came of looking for space. -/
inductive Placing where
  /-- Pieces (first block, bytes), and the extent index and blocks used after them. -/
  | placed (pieces : List (Nat × Nat)) (idx used : Nat)
  | short
  | invalid
  deriving DecidableEq, Repr

/-- R249: place `len` bytes back to back in the extents from index `idx` with `used` of its blocks taken. -/
def State.placeFrom (s : State) (p idx used len : Nat) (acc : List (Nat × Nat)) : Nat → Placing
  | 0 => .short
  | fuel + 1 =>
    if len = 0 then .placed acc idx used
    else if s.rd (F.MAG_P_EXT_COUNT_COUNT p) ≤ idx then .short
    else
      let e := s.extent p idx
      let sh := 2 ^ s.rd (F.MAG_P_QCFG_LBA_SHIFT p)
      if !e.2.2 then .invalid
      else if e.2.1 ≤ used then s.placeFrom p (idx + 1) 0 len acc fuel
      else
        let n := min len ((e.2.1 - used) * sh)
        s.placeFrom p idx (used + n / sh) (len - n) (acc ++ [(e.1 + used, n)]) fuel

/-- R249: place a record on a port from its current extent. -/
def State.placeRec (s : State) (p len : Nat) : Placing :=
  s.placeFrom p (s.rd (F.MAG_P_EXT_POS_INDEX p)) (s.magPort p).extUsed len [] (2 * s.rd (F.MAG_P_EXT_COUNT_COUNT p) + 2)

/-! ### Commands to a magazine (R243 to R246, R256) -/

/-- R245: split `[off, off + len)` of a record at `size` bytes, from block `lba` on. -/
def splitWrite (seq off len lba size sh : Nat) (head : Bool) : Nat → List MagCmd
  | 0 => []
  | fuel + 1 =>
    if len = 0 then []
    else
      let n := min len size
      { seq := seq, off := off, len := n, lba := lba, head := head } ::
        splitWrite seq (off + n) (len - n) (lba + n / sh) size sh head fuel

/-- The part `[lo, hi)` of a record laid out in `pieces` from offset `o`, as writes. -/
def pieceWrites (seq lo hi size sh : Nat) (head : Bool) : List (Nat × Nat) → Nat → List MagCmd
  | [], _ => []
  | (lba, n) :: t, o =>
    let a := max lo o
    let b := min hi (o + n)
    (if a < b then splitWrite seq a (b - a) (lba + (a - o) / sh) size sh head (b - a) else []) ++
      pieceWrites seq lo hi size sh head t (o + n)

/-- R245, R256: the writes of a record: all its blocks but those that hold META_LEN bytes, and these. -/
def State.recWrites (s : State) (p : Nat) (r : MagRec) (pieces : List (Nat × Nat)) : List MagCmd :=
  let sh := 2 ^ s.rd (F.MAG_P_QCFG_LBA_SHIFT p)
  let size := 2 ^ (s.rd (F.MAG_P_QCFG_MAX_XFER p) + 12)
  let h := roundUp r.metaLen sh
  pieceWrites r.seq h r.len size sh false pieces 0 ++ pieceWrites r.seq 0 h size sh true pieces 0

/-- The record with a number. -/
def State.magRec? (s : State) (seq : Nat) : Option MagRec := s.mag.recs.find? (fun r => r.seq == seq)

/-- R244: base of a port's queue area, and of its three parts. -/
def State.qarea (s : State) (p : Nat) : Nat :=
  s.rd (F.MAG_P_QAREA_LO_ADDR p) * 4096 + s.rd (F.MAG_P_QAREA_HI_ADDR p) * 2 ^ 32

/-- DEPTH of a port's queues. -/
def State.qdepth (s : State) (p : Nat) : Nat := s.rd (F.MAG_P_QCFG_DEPTH p)

/-- R244: the completion queue's address. -/
def State.cqBase (s : State) (p : Nat) : Nat := s.qarea p + roundUp (s.qdepth p * 64) 4096

/-- R244: the PRP page of a submission slot. -/
def State.prpPage (s : State) (p slot : Nat) : Nat := s.cqBase p + roundUp (s.qdepth p * 16) 4096 + 4096 * slot

/-- Where byte `o` of a frame record lies in its reservation. (DESIGN CHOICE, log entry 43) -/
def MagRec.place (r : MagRec) (o : Nat) : Nat := if o < r.dataOff then o else r.d0 + (o - r.dataOff)

/-- R243: the PRP entries of a write, and the bytes its PRP page holds: the PRP list of a frame's write after its first page, or
the bytes themselves of a record the writer holds. (PRESUMED, log entry 42) -/
def State.prps (s : State) (p slot : Nat) (c : MagCmd) : List Nat × List Byte :=
  match s.magRec? c.seq with
  | none => ([], [])
  | some r =>
    if r.rtype ≠ 2 then ([s.prpPage p slot], (r.content.drop c.off).take c.len)
    else
      let pages := (List.range ((c.off + c.len - 1) / 4096 - c.off / 4096)).map (fun k => (c.off / 4096 + 1 + k) * 4096)
      let first := s.ringAddr r.blocks (r.place c.off)
      let rest := pages.map (fun o => s.ringAddr r.blocks (r.place o))
      match rest with
      | [] => ([first], [])
      | [b] => ([first, b], [])
      | _ => ([first, s.prpPage p slot], rest.flatMap (leBytes 8))

/-- R243: the 64 bytes of a submission queue entry. (PRESUMED, log entry 42) -/
def State.sqEntry (s : State) (p slot : Nat) (c : MagCmd) (prps : List Nat) : List Byte :=
  leBytes 2 (if c.flush then 0 else 1) ++ leBytes 2 slot ++ leBytes 4 (s.rd (F.MAG_P_NSID_NSID p)) ++
  List.replicate 16 0 ++ leBytes 8 (prps.getD 0 0) ++ leBytes 8 (prps.getD 1 0) ++ leBytes 8 c.lba ++
  leBytes 4 (c.len / 2 ^ s.rd (F.MAG_P_QCFG_LBA_SHIFT p) - 1) ++ List.replicate 12 0

/-- R256: may a command be submitted? The blocks of a record's head wait for its other blocks. -/
def MagPort.maySubmit (v : MagPort) (c : MagCmd) : Bool :=
  !c.head || !((v.todo ++ v.out.filterMap (fun e => e.2)).any (fun d => d.seq == c.seq && !d.head && !d.flush))

/-- R245: submit one command in the slot at the tail. -/
def State.submitOne (s : State) (p : Nat) (c : MagCmd) : State :=
  let v := s.magPort p
  let pr := if c.flush then ([], []) else s.prps p v.sqTail c
  let s := s.setBytes (s.prpPage p v.sqTail) pr.2
  let s := s.setBytes (s.qarea p + 64 * v.sqTail) (s.sqEntry p v.sqTail c pr.1)
  s.setMagPort p { v with todo := v.todo.erase c, out := KMap.set (fun _ => none) v.out v.sqTail (some c),
                          sqTail := (v.sqTail + 1) % s.qdepth p }

/-- R245: submit what may be submitted while slots are free. -/
def State.submitAll (s : State) (p : Nat) : Nat → State
  | 0 => s
  | fuel + 1 =>
    let v := s.magPort p
    if s.pstate p ≠ 4 ∧ s.pstate p ≠ 5 then s
    else if (KMap.get (fun _ => none) v.out v.sqTail).isSome ∨ s.qdepth p ≤ v.out.length + 1 then s
    else
      match v.todo.find? v.maySubmit with
      | none => s
      | some c => (s.submitOne p c).submitAll p fuel

/-- Submit on a port. -/
def State.submit (s : State) (p : Nat) : State := s.submitAll p (s.qdepth p)

/-! ### Records (R255 to R260) -/

/-- R255: a record's first META_LEN bytes: the common header with META_CRC, and the body. -/
def State.recMeta (s : State) (rtype stream seq len : Nat) (body : List Byte) : List Byte :=
  let n := 32 + body.length
  let h := leBytes 4 0x43525854 ++ leBytes 1 rtype ++ leBytes 1 1 ++ leBytes 2 stream ++
    leBytes 4 (s.rd F.MAG_TAKE_ID_TAKE_ID) ++ leBytes 4 seq ++ leBytes 4 len ++ leBytes 4 n ++ leBytes 4 0
  h ++ leBytes 4 (crc 0 0 (h ++ leBytes 4 0 ++ body)) ++ body

/-- The ports of the take in a state. -/
def State.portsIn (s : State) (st : Nat) : List Nat := s.mag.takePorts.filter (fun p => s.pstate p == st)

/-- R254: the sets of ports a frame record may go to: single ports in STRIPE, usable pairs in MIRROR. -/
def State.portSets (s : State) : List (List Nat) :=
  if s.mag.mode = 0 then (s.portsIn 4).map (fun p => [p])
  else
    ([[0, 1], [2, 3]].filter (fun l => l.all (fun p => s.mag.takePorts.contains p && s.pstate p != 5) &&
      l.any (fun p => s.pstate p == 4))).map (fun l => l.filter (fun p => s.pstate p == 4))

/-- R261: a take that is RECORDING enters STOPPING for a reason. -/
def State.stopTake (s : State) (reason : Nat) : State :=
  if s.take = 1 then
    (s.setMag { s.mag with reason := reason }).wr F.MAG_STATUS_TAKE_STATE 2
  else s

/-- R249, R267: a port becomes FULL. R265: where that leaves no port or pair, the take stops. -/
def State.portFull (s : State) (p code : Nat) : State :=
  let s := (s.wr (F.MAG_P_STATUS_PSTATE p) 5).magPortStatus p code
  let s := if code = 0x1206 then s.magPortIrq (F.MAG_P_STATUS_ERR_IRQ p) else s
  if s.portSets.isEmpty then s.stopTake 4 else s

/-- R248, R249: where a record would lie on a port: the entries it reaches are checked first, and `reserve` keeps the closing
reserve free. -/
def State.placing (s : State) (p len : Nat) (reserve : Bool) : Placing :=
  match s.placeRec p len with
  | .placed pieces idx used =>
    if reserve ∧ s.extSpace p < len + s.closingReserve then .short else .placed pieces idx used
  | .short => .short
  | .invalid => .invalid

/-- R248, R249: the status with which a port that has no place for a record becomes FULL; `none` where it has one. -/
def State.noFit (s : State) (len : Nat) (reserve : Bool) (p : Nat) : Option Nat :=
  match s.placing p len reserve with
  | .placed .. => none
  | .short => some 0x1205
  | .invalid => some 0x1206

/-- R249: assign a record to a port. A port that cannot take it becomes FULL. -/
def State.assignTo (s : State) (p : Nat) (r : MagRec) (reserve : Bool) : Bool × State :=
  match s.placing p r.len reserve with
  | .short => (false, s.portFull p 0x1205)
  | .invalid => (false, s.portFull p 0x1206)
  | .placed pieces idx used =>
    let v := s.magPort p
    let s := s.setMagPort p { v with todo := v.todo ++ s.recWrites p r pieces, extUsed := used }
    (true, (s.wr (F.MAG_P_EXT_POS_INDEX p) idx).noteFree p)

/-- Add a record that some ports must acknowledge, or add those ports to it. -/
def State.addRec (s : State) (r : MagRec) (ports : List Nat) : State :=
  match s.magRec? r.seq with
  | none => s.setMag { s.mag with recs := s.mag.recs ++ [{ r with need := ports }] }
  | some _ => s.setMag { s.mag with recs := s.mag.recs.map (fun x =>
      if x.seq == r.seq then { x with need := x.need ++ ports } else x) }

/-- Assign a record to each of some ports; the ports that took it must acknowledge it. -/
def State.assignEach (s : State) (ports : List Nat) (r : MagRec) (reserve : Bool) : List Nat × State :=
  let a := ports.foldl (fun (a : List Nat × State) p =>
    let b := a.2.assignTo p r reserve
    (if b.1 then a.1 ++ [p] else a.1, b.2)) ([], s)
  (a.1, if a.1.isEmpty then a.2 else (a.2.addRec r a.1).each a.1 (fun p s => s.submit p))

/-- R254: bytes submitted and not yet acknowledged on a port. -/
def State.bytesOpen (s : State) (p : Nat) : Nat :=
  ((s.mag.recs.filter (fun r => r.need.contains p)).map (fun r => r.len)).foldl (· + ·) 0

/-- R254: the set with the fewest bytes open; ties go to the lower ports. -/
def State.bestSet (s : State) : Option (List Nat) :=
  let load (l : List Nat) : Nat := (l.map s.bytesOpen).foldl max 0
  s.portSets.foldl (fun b l => match b with
    | none => some l
    | some k => if load l < load k then some l else some k) none

/-- R254: assign a frame record to the best set of ports that has room on every one of its ports; `true` when one took it. A
port without room becomes FULL, and a pair leaves the rotation with it. -/
def State.assignFrame (s : State) (r : MagRec) : Nat → Bool × State
  | 0 => (false, s)
  | fuel + 1 =>
    match s.bestSet with
    | none => (false, s)
    | some l =>
      if l.all (fun p => (s.noFit r.len true p).isNone) then (true, (s.assignEach l r true).2)
      else (s.each l (fun p s => match s.noFit r.len true p with
        | some code => s.portFull p code
        | none => s)).assignFrame r fuel

/-- Take the next REC_SEQ. -/
def State.nextRec (s : State) : Nat × State := (s.rd F.MAG_REC_SEQ_SEQ, s.incWrap F.MAG_REC_SEQ_SEQ)

/-- R254, R255: queue a record of one 4 KiB unit on every ACTIVE port, and on every FULL port when it uses the closing
reserve (R265). `true` when a port took it; where none did, REC_SEQ stands. (DESIGN CHOICE, log entry 43) -/
def State.queueSmall (s : State) (rtype stream : Nat) (body : List Byte) (closing : Bool) : Bool × State :=
  let q := s.nextRec
  let m := q.2.recMeta rtype stream q.1 4096 body
  let r : MagRec := { seq := q.1, rtype := rtype, len := 4096, metaLen := m.length, content := padTo 4096 m }
  let a := q.2.assignEach (q.2.portsIn 4 ++ (if closing then q.2.portsIn 5 else [])) r (!closing)
  (!a.1.isEmpty, if a.1.isEmpty then a.2.wr F.MAG_REC_SEQ_SEQ q.1 else a.2)

/-- R259: queue a gap record; `true` when a port took it. -/
def State.queueGap (s : State) (stream : Nat) (closing : Bool) (g : MagGap) : Bool × State :=
  s.queueSmall 3 stream (leBytes 4 g.first ++ leBytes 4 g.frames ++ leBytes 6 (s.sec48 g.sec) ++ leBytes 1 g.reason ++
    leBytes 1 0 ++ leBytes 4 g.ns ++ leBytes 4 (min g.tiles 0xFFFFFFFF) ++ leBytes 8 0) closing

/-- R252, R265: queue gap records in order; the ones that no port took are answered. -/
def State.queueGaps (s : State) (stream : Nat) (closing : Bool) (gs : List MagGap) : List MagGap × State :=
  gs.foldl (fun (a : List MagGap × State) g =>
    let q := a.2.queueGap stream closing g
    (if q.1 then a.1 else a.1 ++ [g], q.2)) ([], s)

/-- R258: queue the stream record of input `i` for its first admitted frame. -/
def State.queueStream (s : State) (i : Nat) (f : MagFrame) (pixfmt : List Byte) : State :=
  (s.queueSmall 1 f.stream (leBytes 4 f.num ++ leBytes 4 0 ++ leBytes 6 (s.sec48 f.sec) ++ leBytes 2 0 ++ leBytes 4 f.ns ++
    leBytes 1 i ++ leBytes 1 s.mag.mode ++ leBytes 1 (s.mag.takePorts.foldl (fun a p => a + 2 ^ p) 0) ++ leBytes 1 0 ++
    leBytes 4 s.mag.user.length ++ leBytes 4 s.mag.imageId ++ padTo 32 pixfmt ++ leBytes 4 (s.rd F.FUSE_SERIAL_SERIAL) ++
    leBytes 4 f.maxTiles ++ List.replicate 24 0 ++ s.mag.user) false).2

/-! ### Admission and copying (R252, R253) -/

/-- The next tile on a writer input: ring index, entry, and the edge it came by. -/
def State.writerTile (s : State) (i : Nat) : Option (Edge × Nat × RingEntry) × State :=
  match s.writerNode with
  | none => (none, s)
  | some n =>
    match s.image.inEdge n.id i with
    | none => (none, s)
    | some e =>
      let t := s.nextTile e.qid
      (t.1.map (fun x => (e, x.1, x.2)), t.2)

/-- MAX_TILES of a writer input (R250). -/
def State.maxTilesOf (s : State) (i : Nat) : Nat := ((s.writerNode).map (fun n => n.par (16 + 16 * i) 4)).getD 0

/-- FRAME_START and FRAME_END as the ring entry carries them (R100). (DEDUCED, log entry 46) -/
def RingEntry.fs (e : RingEntry) : Bool := e.eflags % 2 == 1

/-- FRAME_END of the ring entry. (DEDUCED, log entry 46) -/
def RingEntry.fe (e : RingEntry) : Bool := e.eflags / 2 % 2 == 1

/-- R253: the frame in progress on an input is complete. (DEDUCED, log entry 46) -/
def State.frameDone (s : State) (i : Nat) (truncated : Bool) : State :=
  let v := s.magIn i
  match v.cur with
  | none => s
  | some f =>
    let s := s.setMagIn i { v with cur := none }
    let s := s.setMag { s.mag with done := s.mag.done ++ [{ f with truncated := truncated }] }
    if truncated then s.magStatus 0x120A else s

/-- R252: copy a tile into its frame, or discard it beyond MAX_TILES (R253). -/
def State.copyTile (s : State) (i : Nat) (f : MagFrame) (e : RingEntry) : State :=
  let l := if 1 ≤ e.len16 ∧ e.len16 ≤ 4096 then e.len16 else f.unit
  let n := 32 + 16 * l
  if f.maxTiles ≤ f.tiles.length ∨ f.blocks.length * 65536 < f.d0 + f.dataLen + n then
    let s := (s.inc F.MAG_EXCESS_TILES_COUNT).magStatus 0x1209
    s.setMagIn i { s.magIn i with cur := some { f with overlong := true } }
  else
    let s := s.delayPut f.blocks (f.d0 + f.dataLen) (s.physRead e.addr n)
    let s := s.setMagIn i { s.magIn i with cur := some { f with tiles := f.tiles ++ [(f.dataLen, l)], dataLen := f.dataLen + n } }
    if e.fe then s.frameDone i false else s

/-- R252: one more tile of an omitted frame; `start` when it begins the frame. -/
def State.omitTile (s : State) (i : Nat) (h : TileHdr) (start : Bool) : State :=
  let v := s.magIn i
  let gaps := match v.gaps.getLast?, start with
    | some g, true =>
      if g.reason = 1 then v.gaps.dropLast ++ [{ g with frames := g.frames + 1, tiles := g.tiles + 1 }]
      else v.gaps ++ [{ first := h.frame, frames := 1, sec := h.capSec, ns := h.capNs, tiles := 1 }]
    | none, _ => [{ first := h.frame, frames := 1, sec := h.capSec, ns := h.capNs, tiles := 1 }]
    | some g, false => v.gaps.dropLast ++ [{ g with tiles := g.tiles + 1 }]
  (s.inc F.MAG_OMIT_TILES_COUNT).setMagIn i
    { v with gaps := gaps, omitting := true, omitted := v.omitted + (if start then 1 else 0) }

/-- R252: a FRAME_START tile admits its frame or omits it. -/
def State.admitFrame (s : State) (i : Nat) (ed : Edge) (e : RingEntry) : State :=
  let s := s.frameDone i true
  let h := hdrOf (s.physRead e.addr 32)
  let p := s.pixFmt ed.prod
  let maxT := s.maxTilesOf i
  let unit := p.maxPayload / 16
  let blocks := s.freeBlocks (reservationBlocks maxT unit)
  if blocks.length < reservationBlocks maxT unit then
    ((s.omitTile i h true).inc F.MAG_OMIT_FRAMES_COUNT).magStatus 0x1201
      |>.irq 0x12 F.MAG_STATUS_OMIT_IRQ F.MAG_IRQ_EN_OMIT_IRQ
  else
    let v := s.magIn i
    let f : MagFrame := { port := i, stream := ed.stream, num := h.frame, maxTiles := maxT, unit := unit, d0 := dirBytes maxT,
                          blocks := blocks, sec := h.capSec, ns := h.capNs, gaps := v.gaps }
    let s := s.setUsed (s.mag.used ++ blocks)
    let s := s.setMagIn i { v with gaps := [], omitting := false, streamQueued := true }
    let body := match s.node? ed.prod with
      | some n => ((findTable (s.tablesOf n.id) n.pixfmt).map s.tableBody).getD []
      | none => []
    let s := if v.streamQueued then s else s.queueStream i f body
    s.copyTile i f e

/-- R252: FRAME_ADMIT on input `i`: the next tile, when it carries FRAME_START and the take is RECORDING. -/
def State.frameAdmit (s : State) (i : Nat) : State :=
  let t := s.writerTile i
  match t.1 with
  | some (ed, idx, e) => if e.fs ∧ s.take = 1 then (t.2.admitFrame i ed e).pop ed.qid idx else t.2
  | none => t.2

/-- R252, R253: RECORDING_TILE on input `i`: a tile of the frame in progress is copied, one of an omitted frame is counted, and any other
is discarded. (DEDUCED, log entry 46) -/
def State.recordingTile (s : State) (i : Nat) : State :=
  let t := s.writerTile i
  match t.1 with
  | none => t.2
  | some (ed, idx, e) =>
    if e.fs ∧ s.take = 1 then t.2
    else
      let s := t.2
      let v := s.magIn i
      let s :=
        if e.fs then let s := s.frameDone i true
                     s.setMagIn i { s.magIn i with omitting := false }
        else if s.take = 0 then s
        else match v.cur with
          | some f => s.copyTile i f e
          | none => if v.omitting then s.omitTile i (hdrOf (s.physRead e.addr 32)) false else s
      s.pop ed.qid idx

/-! ### Draining (R253, R257) -/

/-- R262, R265: a frame is discarded into a gap record of its stream with a reason. -/
def State.gapFrame (s : State) (f : MagFrame) (reason : Nat) : State :=
  let v := s.magIn f.port
  let other := fun (x : MagGap) => x.reason != reason
  (s.giveBlocks f.blocks).setMagIn f.port { v with gaps := match v.gaps.dropWhile other with
    | g :: t => v.gaps.takeWhile other ++ f.gaps ++ { g with frames := g.frames + 1, tiles := g.tiles + f.tiles.length } :: t
    | [] => f.gaps ++ { first := f.num, frames := 1, sec := f.sec, ns := f.ns, tiles := f.tiles.length, reason := reason } ::
        v.gaps }

/-- R257: one tile of a drained frame: its directory entry and its header. -/
structure Drained where
  off : Nat := 0
  len16 : Nat := 0
  fail : Option SealFail := none
  hdr : TileHdr := {}
  deriving DecidableEq, Repr

/-- R31, R253: verify the tiles of a frame. -/
def State.verifyFrame (s : State) (f : MagFrame) : List Drained × State :=
  f.tiles.foldl (fun (a : List Drained × State) x =>
    let t := tileOf (a.2.delayGet f.blocks (f.d0 + x.1) (32 + 16 * x.2)) x.2
    (a.1 ++ [{ off := x.1, len16 := x.2, fail := verify t true, hdr := t.hdr }], (a.2.recordCheck t).2)) ([], s)

/-- R257: the META bytes of a frame record. -/
def State.frameMeta (s : State) (f : MagFrame) (ts : List Drained) (seq len dataOff : Nat) : List Byte :=
  let h := (ts.headD {}).hdr
  let fl := (if h.flag 6 then 1 else 0) + (if ts.any (fun t => t.fail == some .mismatch) then 2 else 0) +
    (if ts.any (fun t => t.hdr.flag 5) then 4 else 0) + (if f.truncated then 8 else 0) + (if f.overlong then 16 else 0)
  s.recMeta 2 f.stream seq len (leBytes 4 f.num ++ leBytes 4 ts.length ++ leBytes 6 (s.sec48 h.capSec) ++ leBytes 2 fl ++
    leBytes 4 h.capNs ++ leBytes 4 h.seq ++ leBytes 4 dataOff ++ leBytes 4 f.dataLen ++
    ts.flatMap (fun t => leBytes 4 (t.off / 16) ++ leBytes 2 t.len16 ++
      leBytes 1 (if t.fail = some .mismatch then 1 else if t.fail = some .header then 2 else 0) ++ leBytes 1 0))

/-- R253, R257: a frame becomes a record in its blocks; blocks beyond it return to the free pool. -/
def State.buildFrame (s : State) (f : MagFrame) (ts : List Drained) (seq : Nat) : MagRec × State :=
  let dataOff := roundUp (64 + 8 * ts.length) 4096
  let len := roundUp (dataOff + f.dataLen) 4096
  let m := s.frameMeta f ts seq len dataOff
  let s := s.delayPut f.blocks 0 (padTo dataOff m)
  let s := s.delayPut f.blocks (f.d0 + f.dataLen) (List.replicate (len - dataOff - f.dataLen) 0)
  let r : MagRec := { seq := seq, rtype := 2, len := len, metaLen := m.length, d0 := f.d0, dataOff := dataOff, blocks := f.blocks,
                      frame := some f }
  let usedB := (List.range (len / 4096)).map (fun k => r.place (4096 * k) / 65536)
  let part (l : List Nat) : List Nat := l.map (fun k => f.blocks.getD k 0)
  let all := List.range f.blocks.length
  ({ r with kept := part (all.filter usedB.contains) }, s.giveBlocks (part (all.filter (fun k => !usedB.contains k))))

/-- R265: an admitted frame that no port can take is counted and discarded into a gap record. -/
def State.discardFrame (s : State) (f : MagFrame) : State :=
  let s := (s.gapFrame f 3).inc F.MAG_OMIT_FRAMES_COUNT
  s.setMagIn f.port { s.magIn f.port with omitted := (s.magIn f.port).omitted + 1 }

/-- R260: the writer's totals for an input follow a recorded frame. -/
def State.countFrame (s : State) (f : MagFrame) (ts : List Drained) : State :=
  let i := s.magIn f.port
  s.setMagIn f.port
    { i with first := if i.recorded = 0 then f.num else i.first, last := f.num, recorded := i.recorded + 1,
             mism := i.mism + (ts.filter (fun t => t.fail == some .mismatch)).length }

/-- R253, R254: a complete frame becomes a record on the magazines, after the gap records that wait for it; what no port takes
is discarded (R265). -/
def State.drainFrame (s : State) (f : MagFrame) : State :=
  let v := s.verifyFrame f
  let g := v.2.queueGaps f.stream false f.gaps
  let q := g.2.nextRec
  let b := q.2.buildFrame f v.1 q.1
  let a := b.2.assignFrame b.1 8
  if a.1 then
    let s := a.2.countFrame f v.1
    s.setMagIn f.port { s.magIn f.port with gaps := g.1 ++ (s.magIn f.port).gaps }
  else (a.2.wr F.MAG_REC_SEQ_SEQ q.1).discardFrame { f with gaps := g.1, blocks := b.1.kept }

/-- R253, R254, R265: drain the oldest complete frame. Where no port or pair may take it, it is discarded once every one is FULL;
where the ports are lost instead, it waits for MAG_LOST. (DEDUCED, log entry 47) -/
def State.frameDrain (s : State) : State :=
  match s.mag.done with
  | [] => s
  | f :: rest =>
    let t := s.setMag { s.mag with done := rest }
    if !s.portSets.isEmpty then t.drainFrame f
    else if (s.portsIn 5).isEmpty then s
    else t.discardFrame f

/-! ### Completions (R245, R246) -/

/-- R264: a port of a take is lost; it leaves the take with MAG_LOST. (DEDUCED, log entry 47) -/
def State.portLost (s : State) (p : Nat) : State :=
  if s.take ≠ 0 ∧ s.mag.takePorts.contains p ∧ !s.mag.lostPorts.contains p then
    s.setMagPort p { s.magPort p with lost := true }
  else s

/-- R245: a port becomes FAILED. (DEDUCED, log entry 47) -/
def State.portFailed (s : State) (p code sf cid : Nat) : State :=
  let s := (s.portLost p).wr (F.MAG_P_STATUS_PSTATE p) 6
  let s := (s.wr (F.MAG_P_ERR_SF p) sf).wr (F.MAG_P_ERR_CID p) cid
  (s.magPortStatus p code).magPortIrq (F.MAG_P_STATUS_ERR_IRQ p)

/-- R246: a write that failed for good keeps its record from being acknowledged on the port. -/
def MagPort.fail (v : MagPort) (c : MagCmd) : MagPort := if c.flush then v else { v with bad := c.seq :: v.bad }

/-- R245: consume the completion at the head of a port's completion queue when its phase tag is new. (PRESUMED, log entry 42) -/
def State.nvmeCompletion (s : State) (p : Nat) : State :=
  let v := s.magPort p
  let e := s.physRead (s.cqBase p + 16 * v.cqHead) 16
  let cid := leAt e 12 2
  let w := leAt e 14 2
  if !s.on (F.MAG_P_CTRL_HWQ_EN p) || decide ((w % 2 == 1) ≠ v.phase) then s
  else
    let last := decide (s.qdepth p ≤ v.cqHead + 1)
    let v := { v with cqHead := if last then 0 else v.cqHead + 1, phase := if last then !v.phase else v.phase }
    let sf := w / 2
    match KMap.get (fun _ => none) v.out cid with
    | none => s.setMagPort p v
    | some c =>
      let v := { v with out := KMap.set (fun _ => none) v.out cid none }
      if sf = 0 then (s.setMagPort p v).submit p
      else if sf / 2 ^ 14 % 2 = 0 ∧ !c.retried then
        (s.setMagPort p { v with todo := { c with retried := true } :: v.todo }).submit p
      else if s.pstate p = 7 then s.setMagPort p (v.fail c)
      else (s.setMagPort p (v.fail c)).portFailed p 0x1203 sf cid

/-- R245: a command has been outstanding for longer than MAG_P_TMO. -/
def State.magTimeout (s : State) (p cid : Nat) : State :=
  let v := s.magPort p
  match KMap.get (fun _ => none) v.out cid with
  | none => s
  | some c =>
    let s := s.setMagPort p ({ v with out := KMap.set (fun _ => none) v.out cid none }.fail c)
    if s.pstate p = 7 then s else s.portFailed p 0x1204 0 cid

/-- Commands of a record still to complete on a port. -/
def MagPort.pendingOf (v : MagPort) (seq : Nat) : Bool :=
  (v.todo ++ v.out.filterMap (fun e => e.2)).any (fun c => c.seq == seq && !c.flush)

/-- A record that no port needs any more frees its blocks (R251). -/
def State.retireRecs (s : State) : State :=
  let gone := s.mag.recs.filter (fun r => r.need.isEmpty)
  (s.setMag { s.mag with recs := s.mag.recs.filter (fun r => !r.need.isEmpty) }).giveBlocks (gone.flatMap (fun r => r.kept))

/-- R246: has every write of a record completed successfully on a port that has not left the take? -/
def State.mayAck (s : State) (p : Nat) (r : MagRec) : Bool :=
  let v := s.magPort p
  r.need.contains p && !v.pendingOf r.seq && !v.bad.contains r.seq && !v.lost && [4, 5, 7].contains (s.pstate p)

/-- R246: the oldest record whose writes have all completed successfully on a port is acknowledged; an ACTIVE port receives a
Flush after every FLUSH_RECS of them and after its closing record. -/
def State.recordAcked (s : State) (p : Nat) : State :=
  let v := s.magPort p
  match s.mag.recs.find? (s.mayAck p) with
  | none => s
  | some r =>
    let n := v.sinceFlush + 1
    let every := s.rd F.MAG_TAKE_CFG_FLUSH_RECS
    let fl := s.pstate p == 4 && (r.rtype == 4 || (every != 0 && decide (every ≤ n)))
    let v := { v with lastSeq := r.seq, bytesAcked := v.bytesAcked + r.len, sinceFlush := if fl then 0 else n,
                      todo := if fl then v.todo ++ [{ flush := true, seq := r.seq }] else v.todo }
    let s := (s.setMagPort p v).inc (F.MAG_P_RECS_COUNT p)
    let s := s.setMag { s.mag with recs := s.mag.recs.map (fun x => if x.seq == r.seq then { x with need := x.need.erase p } else x) }
    s.retireRecs.submit p

/-! ### Takes (R261 to R265) -/

/-- R254: do MODE and PORTS match? -/
def takeModeOk (mode ports : Nat) : Bool := (mode == 0 && ports != 0) || (mode == 1 && (ports == 3 || ports == 15))

/-- R261: START. -/
def State.magStart (s : State) : State :=
  let mask := s.rd F.MAG_TAKE_CFG_PORTS
  let ports := (List.range 4).filter (fun p => mask / 2 ^ p % 2 == 1)
  let mode := s.rd F.MAG_TAKE_CFG_MODE
  let len := s.rd F.MAG_USER_LEN_LEN
  if s.take ≠ 0 then s.magStatus 0x1207
  else
    match s.writerNode with
    | none => s.magStatus 0x1208
    | some n =>
      if !takeModeOk mode mask || decide (3968 < len) ||
          ports.any (fun p => n.res / 2 ^ p % 2 == 0 || s.pstate p != 3 || s.rd (F.MAG_P_EXT_COUNT_COUNT p) == 0) then
        s.magStatus 0x1208
      else
        let user := s.physRead (s.rd F.MAG_USER_ADDR_LO_ADDR * 16 + s.rd F.MAG_USER_ADDR_HI_ADDR * 2 ^ 32) len
        let streams := (List.range n.inPorts).map (fun i => ((s.image.inEdge n.id i).map (fun e => e.stream)).getD 0)
        let s := s.setMag { s.mag with ins := [], done := [], recs := [], used := [], takePorts := ports, mode := mode,
                                       lostPorts := [], reason := 0, aborting := false, user := user, streams := streams,
                                       imageId := s.rd F.STR_ACTIVE_ID_IMAGE_ID, closeSeq := none }
        let s := s.each ports (fun p s =>
          (s.setMagPort p { s.magPort p with lost := false, lastSeq := 0, bytesAcked := 0, sinceFlush := 0, bad := [] }).wr
            (F.MAG_P_STATUS_PSTATE p) 4)
        let s := s.each ports (fun p s => (s.wr (F.MAG_P_RECS_COUNT p) 0).noteFree p)
        let s := ((s.wr F.MAG_OMIT_FRAMES_COUNT 0).wr F.MAG_OMIT_TILES_COUNT 0).wr F.MAG_EXCESS_TILES_COUNT 0
        let s := (s.wr F.MAG_RING_LOW_BLOCKS 0xFFFFFFFF).noteRing
        (s.wr F.MAG_REC_SEQ_SEQ 0).wr F.MAG_STATUS_TAKE_STATE 1

/-- R260: the closing record's body. (DEDUCED, log entry 45) -/
def State.closeBody (s : State) (seq : Nat) : List Byte :=
  let t := s.timestamp
  let mask (l : List Nat) : Nat := l.foldl (fun a p => a + 2 ^ p) 0
  leBytes 1 s.mag.reason ++ leBytes 1 (mask s.mag.lostPorts) ++ leBytes 2 0 ++ leBytes 4 seq ++ leBytes 6 (tsSec t) ++
  leBytes 2 0 ++ leBytes 4 (tsNs t) ++ leBytes 4 (s.rd F.MAG_OMIT_FRAMES_COUNT) ++ leBytes 8 0 ++
  (List.range 4).flatMap (fun p =>
    let v := s.magPort p
    if s.mag.takePorts.contains p then leBytes 4 (s.rd (F.MAG_P_RECS_COUNT p)) ++ leBytes 4 v.lastSeq ++ leBytes 8 v.bytesAcked
    else List.replicate 16 0) ++
  (List.range 8).flatMap (fun i =>
    let v := s.magIn i
    if i < s.mag.streams.length then
      leBytes 2 (s.mag.streams.getD i 0) ++ leBytes 2 0 ++ leBytes 4 v.first ++ leBytes 4 v.last ++ leBytes 4 v.recorded ++
        leBytes 4 v.omitted ++ leBytes 4 v.mism ++ leBytes 8 0
    else List.replicate 32 0)

/-- R252, R265: the gap records still waiting are queued from the closing reserve. (DEDUCED, log entry 45) -/
def State.flushGaps (s : State) : State :=
  s.each (List.range 8) (fun i s =>
    let g := s.queueGaps (s.mag.streams.getD i 0) true (s.magIn i).gaps
    g.2.setMagIn i { g.2.magIn i with gaps := g.1 })

/-- R261, R265: enter CLOSING: the gap records still waiting and the closing record are queued. -/
def State.enterClosing (s : State) : State :=
  let s := s.flushGaps
  let seq := s.rd F.MAG_REC_SEQ_SEQ
  let s := (s.queueSmall 4 0xFFFF (s.closeBody seq) true).2
  (s.setMag { s.mag with closeSeq := some seq }).wr F.MAG_STATUS_TAKE_STATE 3

/-- R251, R263: the delay ring is the active node's, with every block free. -/
def State.ringStart (s : State) : State :=
  match s.writerNode.bind (fun n => s.image.bufs.find? (fun b => b.id == n.par 0 2)) with
  | none => s.setUsed []
  | some b => (s.setMag { s.mag with ringBase := b.base, ringBlocks := b.size / 65536 }).setUsed []

/-- R261, R264: the take ends and the state is IDLE; a warm reset that waited for it starts (R454). The delay ring of a node
that started during the take is used from here on (R263). -/
def State.endTake (s : State) : State :=
  let s := s.each s.mag.takePorts (fun p s =>
    if s.pstate p = 4 then s.wr (F.MAG_P_STATUS_PSTATE p) 3 else s)
  let s := s.setMag { s.mag with ins := [], done := [], recs := [], takePorts := [], streams := [], closeSeq := none }
  ((s.ringStart.wr F.MAG_STATUS_TAKE_STATE 0).irq 0x12 F.MAG_STATUS_TAKE_IRQ F.MAG_IRQ_EN_TAKE_IRQ).warmIfWaiting

/-- R261: CLOSING: once the last admitted frame is queued the closing record is written; once it is acknowledged and
flushed the take ends. (DEDUCED, log entry 45) -/
def State.closing (s : State) : State :=
  if s.take = 2 then
    if s.mag.done.isEmpty && (List.range 8).all (fun i => (s.magIn i).cur.isNone) && (!s.mag.aborting || s.mag.recs.isEmpty) then
      s.enterClosing
    else s
  else if s.take = 3 then
    let live := s.portsIn 4 ++ s.portsIn 5
    if s.mag.recs.isEmpty && live.all (fun p => (s.magPort p).todo.isEmpty && (s.magPort p).out.isEmpty) then s.endTake else s
  else s

/-- R262: ABORT. -/
def State.takeAbort (s : State) : State :=
  if s.take ≠ 1 ∧ s.take ≠ 2 then s
  else
    let open_ := (List.range 8).filterMap (fun i => (s.magIn i).cur)
    let frames := s.mag.done ++ open_
    let s := s.setMag { s.mag with done := [], reason := 2, aborting := true }
    let s := s.each (List.range 8) (fun i s => s.setMagIn i { s.magIn i with cur := none, omitting := false })
    let s := s.each frames (fun f s => s.gapFrame f 2)
    let s := s.wr F.MAG_STATUS_TAKE_STATE 2
    if s.mag.recs.isEmpty then s.enterClosing else s

/-- R265: a frame record of a lost port that no other port can take is discarded: its frame counts as omitted and goes into a gap
record. (DEDUCED, log entry 45) -/
def State.dropRec (s : State) (r : MagRec) : State :=
  match r.frame with
  | none => s
  | some f =>
    let s := s.discardFrame { f with gaps := [], blocks := [] }
    s.setMagIn f.port { s.magIn f.port with recorded := (s.magIn f.port).recorded - 1 }

/-- R264: a port no longer has to acknowledge any record. -/
def State.forgetPort (s : State) (p : Nat) : State :=
  s.setMag { s.mag with recs := s.mag.recs.map (fun r => { r with need := r.need.erase p }) }

/-- R254, R264: the records a lost port has not acknowledged go to the remaining ports, with their REC_SEQ; R265: what none of
them can take is discarded, and in CLOSING its gap record is queued at once. (DEDUCED, log entry 45) -/
def State.reassign (s : State) (p : Nat) : State :=
  let mine := s.mag.recs.filter (fun r => r.rtype == 2 && r.need == [p])
  let s := (s.forgetPort p).each mine (fun r s =>
    let a := s.assignFrame { r with need := [] } 8
    if a.1 then a.2 else a.2.dropRec r)
  let s := if s.take = 3 then s.flushGaps else s
  s.retireRecs

/-- R264: a lost port leaves the take. (DEDUCED, log entries 45, 47) -/
def State.magLost (s : State) (p : Nat) : State :=
  if !(s.magPort p).lost then s
  else
    let s := s.setMagPort p { s.magPort p with lost := false, todo := [] }
    if s.take = 0 then s
    else
      let s := (s.setMag { s.mag with lostPorts := s.mag.lostPorts ++ [p] }).magPortStatus p 0x1202
      if (s.portsIn 4).isEmpty then s.endTake.magStatus 0x1202
      else
        let partner := if p % 2 = 0 then p + 1 else p - 1
        if s.mag.mode = 1 ∧ s.pstate partner = 4 then (s.forgetPort p).retireRecs
        else (s.stopTake 3).reassign p

/-! ### Ports (R240 to R247) -/

/-- R240: does port `p` exist? (DESIGN CHOICE, log entry 48) -/
def State.magPortExists (s : State) (p : Nat) : Bool :=
  match s.rd F.MAG_CFG_BIFURC with
  | 0 => p == 0
  | 1 => decide (p < 2)
  | _ => true

/-- R240: the lanes of a port. -/
def State.magLanes (s : State) : Nat :=
  match s.rd F.MAG_CFG_BIFURC with
  | 0 => 16
  | 1 => 8
  | _ => 4

/-- R240: is the PCIE_M_REFCLK output of a port driven? It is while the port exists and its EN is set; else it is held low. -/
def State.magRefclk (s : State) (p : Nat) : Bool := s.magPortExists p && s.on (F.MAG_P_CTRL_EN p)

/-- R240, R247: the level of the PCIE_M_PERST_N output of a port: high, which releases the reset, while the output is driven and
no shutdown is in progress; else low. (DESIGN CHOICE, log entry 48) -/
def State.magPerstN (s : State) (p : Nat) : Bool := s.magRefclk p && s.pstate p != 7

/-- R244: does the queue area hold all three parts in one region the writer may use? -/
def State.qareaOk (s : State) (p : Nat) : Bool :=
  let a := s.qarea p
  let last := s.prpPage p (s.qdepth p) - 1
  (s.place a == .tile || s.place a == .qdr) && s.place last == s.place a

/-- R244: is the port's configuration one HWQ_EN accepts? -/
def State.hwqOk (s : State) (p : Nat) : Bool :=
  let d := s.qdepth p
  let sh := s.rd (F.MAG_P_QCFG_LBA_SHIFT p)
  decide (16 ≤ d) && decide (d ≤ 1024) && (sh == 9 || sh == 12) && decide (s.rd (F.MAG_P_QCFG_MAX_XFER p) ≤ 8) &&
    decide (1 ≤ s.rd (F.MAG_P_QCFG_QID p)) && s.qareaOk p

/-- R244, R266: HWQ_EN is set: the pair is handed to the writer. (DESIGN CHOICE, log entries 44, 48) -/
def State.hwqSet (s : State) (p : Nat) : State :=
  if !s.hwqOk p then s.magPortStatus p 0x120B
  else
    let s := (s.setMagPort p { lost := (s.magPort p).lost }).wr (F.MAG_P_CTRL_HWQ_EN p) 1
    let s := s.wr (F.MAG_P_EXT_POS_INDEX p) 0
    let st := s.pstate p
    let s := if st = 2 ∨ ((st = 5 ∨ st = 6) ∧ s.take = 0) then s.wr (F.MAG_P_STATUS_PSTATE p) 3 else s
    s.noteFree p

/-- R266: HWQ_EN is cleared; discarded while the port is ACTIVE. -/
def State.hwqClear (s : State) (p : Nat) : State :=
  if s.pstate p = 4 then s
  else
    let s := s.wr (F.MAG_P_CTRL_HWQ_EN p) 0
    if s.pstate p = 3 then s.wr (F.MAG_P_STATUS_PSTATE p) 2 else s

/-- R240, R247: EN is set: PERST is released and the port trains, or waits for its shutdown. (DESIGN CHOICE, log entry 48) -/
def State.portOn (s : State) (p : Nat) : State :=
  let s := s.wr (F.MAG_P_CTRL_EN p) 1
  if s.pstate p = 7 then s.wr (F.MAG_P_STATUS_PENDING_ENABLE p) 1
  else if s.magPortExists p then s.wr (F.MAG_P_STATUS_PSTATE p) 1 else s

/-- R247, R442: EN is cleared: shutdown starts; on a port of the take this is a loss. -/
def State.portOff (s : State) (p : Nat) : State :=
  let s := (s.wr (F.MAG_P_CTRL_EN p) 0).wr (F.MAG_P_STATUS_PENDING_ENABLE p) 0
  if s.pstate p = 0 ∨ s.pstate p = 7 then s
  else
    let s := if s.pstate p = 4 then s.portLost p else s
    s.wr (F.MAG_P_STATUS_PSTATE p) 7

/-- R266: a write of MAG_P_CTRL: each bit acts where it changes. -/
def State.magCtrl (s : State) (p : Nat) (val : Word) : State :=
  let en := (F.MAG_P_CTRL_EN p).of val == 1
  let hwq := (F.MAG_P_CTRL_HWQ_EN p).of val == 1
  let s := if en && !s.on (F.MAG_P_CTRL_EN p) then s.portOn p else if !en && s.on (F.MAG_P_CTRL_EN p) then s.portOff p else s
  if hwq && !s.on (F.MAG_P_CTRL_HWQ_EN p) then s.hwqSet p
  else if !hwq && s.on (F.MAG_P_CTRL_HWQ_EN p) then s.hwqClear p
  else s

/-- R241, R264: a port's link is down: SPEED and WIDTH read 0, LINK_IRQ is set, and a port of the take is lost.
(DEDUCED, log entry 47) -/
def State.magLinkDown (s : State) (p : Nat) : State :=
  if s.on (F.MAG_P_STATUS_SPEED p) then
    (((s.wr (F.MAG_P_STATUS_SPEED p) 0).wr (F.MAG_P_STATUS_WIDTH p) 0).magPortIrq (F.MAG_P_STATUS_LINK_IRQ p)).portLost p
  else s

/-- R247, R442: a port's shutdown ends, once its outstanding commands have completed or timed out; its link is down, and a
pending enable starts it again. -/
def State.magShutdownEnd (s : State) (p : Nat) : State :=
  if s.pstate p ≠ 7 ∨ !(s.magPort p).out.isEmpty then s
  else
    let s := (s.setMagPort p { s.magPort p with todo := [] }).magLinkDown p
    if s.on (F.MAG_P_STATUS_PENDING_ENABLE p) then
      (s.wr (F.MAG_P_STATUS_PENDING_ENABLE p) 0).wr (F.MAG_P_STATUS_PSTATE p) 1
    else s.wr (F.MAG_P_STATUS_PSTATE p) 0

/-- R241, R264: a port's link goes up, at a width up to the port's own, or down. -/
def State.magLink (s : State) (p : Nat) (up : Bool) (speed width : Nat) : State :=
  let st := s.pstate p
  if up then
    if st = 1 ∧ 1 ≤ speed ∧ 1 ≤ width ∧ width ≤ s.magLanes then
      let s := (s.wr (F.MAG_P_STATUS_SPEED p) speed).wr (F.MAG_P_STATUS_WIDTH p) width
      (s.wr (F.MAG_P_STATUS_PSTATE p) 2).magPortIrq (F.MAG_P_STATUS_LINK_IRQ p)
    else s
  else if s.on (F.MAG_P_STATUS_SPEED p) ∧ st ≠ 7 then (s.magLinkDown p).wr (F.MAG_P_STATUS_PSTATE p) 1
  else s.magLinkDown p

/-- R242: may a magazine reach `len` bytes at an address? -/
def State.magInboundOk (s : State) (a len : Nat) : Bool :=
  decide (a + len ≤ 2 ^ 40) && (s.place a == .tile || s.place a == .qdr) && s.place (a + len - 1) == s.place a

/-- R242: a memory request from a magazine. -/
def State.inbound (s : State) (p : Nat) (write : Bool) (a len : Nat) (b : List Byte) : State :=
  if !s.on (F.MAG_P_STATUS_SPEED p) then s
  else if write && decide (0xFEE00000 ≤ a) && decide (a ≤ 0xFEEFFFFF) then s.magPortIrq (F.MAG_P_STATUS_MSG_IRQ p)
  else if s.magInboundOk a (if write then b.length else len) then
    (if write then s.setBytes a b else s.setReadData (s.physRead a len))
  else (s.inc (F.MAG_P_DENY_COUNT p)).magPortStatus p 0x120C

/-- R249: a write of MAG_P_EXT_COUNT: only a raise takes effect. (DESIGN CHOICE, log entry 44) -/
def State.extCount (s : State) (p : Nat) (val : Word) : State :=
  let n := (F.MAG_P_EXT_COUNT_COUNT p).of val
  if s.rd (F.MAG_P_EXT_COUNT_COUNT p) < n then (s.wr (F.MAG_P_EXT_COUNT_COUNT p) n).noteFree p else s

/-- R266: a write of MAG_P_CFGA: a read takes the function's answer into MAG_P_CFGD. -/
def State.magCfga (s : State) (p : Nat) (val : Word) (answer : Option Word) : State :=
  if (F.MAG_P_CFGA_WRITE p).of val = 1 then s
  else s.wr (F.MAG_P_CFGD_DATA p) (if s.on (F.MAG_P_STATUS_SPEED p) then (answer.getD 0xFFFFFFFF).toNat else 0xFFFFFFFF)

/-- R266: a write of MAG_TAKE_CMD. -/
def State.takeCmd (s : State) (val : Word) : State :=
  let s := if F.MAG_TAKE_CMD_START.of val = 1 then s.magStart else s
  let s := if F.MAG_TAKE_CMD_STOP.of val = 1 then s.stopTake 1 else s
  if F.MAG_TAKE_CMD_ABORT.of val = 1 then s.takeAbort else s

/-! ### The node (R250, R263) -/

/-- R251, R263: the writer node starts: the delay ring is empty. During a take the frames of the node before it still lie in
the old ring, which is given up when the take ends. (DEDUCED, log entry 45) -/
def State.writerStart (s : State) (n : Node) : State :=
  match s.image.bufs.find? (fun b => b.id == n.par 0 2) with
  | none => s
  | some b =>
    if s.take ≠ 0 then s
    else
      let s := s.setMag { s.mag with ringBase := b.base, ringBlocks := b.size / 65536, used := [] }
      (s.wr F.MAG_RING_FREE_BLOCKS (b.size / 65536)).wr F.MAG_RING_LOW_BLOCKS (b.size / 65536)

/-- R263: the writer node is removed during a take: the take stops with REASON 5, and the frames in progress are complete
as truncated. -/
def State.writerStop (s : State) : State :=
  (s.stopTake 5).each (List.range 8) (fun i s =>
    let s := s.frameDone i true
    s.setMagIn i { s.magIn i with omitting := false })

/-! ### Commands -/

/-- MAG_PORT_ENABLE: a write of MAG_P_CTRL (R240, R247). -/
def execMagPortEnable (src : Agent) (port : Fin 4) (val : Word) (s : State) : Out :=
  .next (s.writeReg src (F.MAG_P_CTRL_EN port) val (fun s => s.magCtrl port val))

/-- MAG_SHUTDOWN_END (R247, R442). -/
def execMagShutdownEnd (port : Fin 4) (s : State) : Out := .next (s.magShutdownEnd port)

/-- HWQ_EN: a write of MAG_P_CTRL with HWQ_EN set (R244). -/
def execHwqEn (src : Agent) (port : Fin 4) (val : Word) (s : State) : Out :=
  .next (s.writeReg src (F.MAG_P_CTRL_EN port) (val ||| 0x40000000) (fun s => s.magCtrl port (val ||| 0x40000000)))

/-- MAG_LINK_CHANGE (R241, R264). -/
def execMagLinkChange (port : Fin 4) (up : Bool) (speed : Fin 5) (width : Fin 17) (s : State) : Out :=
  .next (s.magLink port up speed width)

/-- INBOUND_REQUEST (R242). -/
def execInboundRequest (port : Fin 4) (write : Bool) (addr : BitVec 64) (len : BitVec 12) (bytes : List Byte) (s : State) : Out :=
  .next (s.inbound port write addr.toNat len.toNat bytes)

/-- MAG_P_CFGA (R241, R266). -/
def execMagPCfga (src : Agent) (port : Fin 4) (val : Word) (answer : Option Word) (s : State) : Out :=
  .next (s.writeReg src (F.MAG_P_CFGA_WRITE port) val (fun s => s.magCfga port val answer))

/-- EXT_COUNT_WRITE (R249). -/
def execExtCountWrite (src : Agent) (port : Fin 4) (val : Word) (s : State) : Out :=
  .next (s.writeReg src (F.MAG_P_EXT_COUNT_COUNT port) val (fun s => s.extCount port val))

/-- FRAME_ADMIT (R252). -/
def execFrameAdmit (input : Fin 8) (s : State) : Out := .next (s.frameAdmit input)

/-- RECORDING_TILE (R252, R253). -/
def execRecordingTile (input : Fin 8) (s : State) : Out := .next (s.recordingTile input)

/-- FRAME_DRAIN (R253). -/
def execFrameDrain (s : State) : Out := .next s.frameDrain

/-- NVME_COMPLETION (R245). -/
def execNvmeCompletion (port : Fin 4) (s : State) : Out := .next (s.nvmeCompletion port)

/-- MAG_TIMEOUT (R245). -/
def execMagTimeout (port : Fin 4) (cid : BitVec 16) (s : State) : Out := .next (s.magTimeout port cid.toNat)

/-- RECORD_ACKNOWLEDGED (R246). -/
def execRecordAcknowledged (port : Fin 4) (s : State) : Out := .next (s.recordAcked port)

/-- START (R261). -/
def execStart (src : Agent) (s : State) : Out := .next (s.writeReg src F.MAG_TAKE_CMD_START 1 (fun s => s.takeCmd 1))

/-- STOP (R262). -/
def execStop (src : Agent) (s : State) : Out := .next (s.writeReg src F.MAG_TAKE_CMD_START 2 (fun s => s.takeCmd 2))

/-- TAKE_ABORT (R262). -/
def execTakeAbort (src : Agent) (s : State) : Out := .next (s.writeReg src F.MAG_TAKE_CMD_START 4 (fun s => s.takeCmd 4))

/-- CLOSING (R261). -/
def execClosing (s : State) : Out := .next s.closing

/-- MAG_LOST (R264). -/
def execMagLost (port : Fin 4) (s : State) : Out := .next (s.magLost port)

/-- R240: a write of MAG_CFG. -/
def State.magCfgWrite (s : State) (val : Word) : State :=
  let b := F.MAG_CFG_BIFURC.of val
  if b = 3 ∨ (List.range 4).any (fun p => s.on (F.MAG_P_CTRL_EN p)) then s.magStatus 0x120B else s.wr F.MAG_CFG_BIFURC b

/-- Writes of the MAG block by offset (R266). -/
def State.magRegWrite (s : State) (o : Nat) (val : Word) : State :=
  let plain := s.plainWrite (blockBase 0x12 + o) val
  if o = 0x000 then s.magCfgWrite val
  else if o = 0x00C ∨ o = 0x010 then (if s.take = 0 then plain else s)
  else if o = 0x014 then s.takeCmd val
  else if 0x100 ≤ o ∧ o < 0x300 then
    let p := (o - 0x100) / 0x80
    let r := (o - 0x100) % 0x80
    if r = 0 then s.magCtrl p val
    else if 0x08 ≤ r ∧ r < 0x28 then (if s.on (F.MAG_P_CTRL_HWQ_EN p) then s else plain)
    else if r = 0x28 then s.extCount p val
    else if r = 0x44 then
      let f := s.takeFree 32
      f.2.magCfga p val (some (BitVec.ofNat 32 f.1))
    else plain
  else plain

end Sys2Proof.Machine
end

