-- ==== Sys2Proof/Machine/NetPorts.lean ====
section
/-! DEFINITION. Ethernet ports and egress classes (R331 to R336, R348 to R355): enabling, receiving, software frames, class
queues, gate lists and transmission selection. -/

namespace Sys2Proof.Machine

/-- The `n` bytes of a number, most significant first (network order). -/
def beBytes (n v : Nat) : List Byte := (leBytes n v).reverse

/-- `len` bytes of a byte string from offset `o`, as a number in network order. -/
def beAt (b : List Byte) (o len : Nat) : Nat := le ((b.drop o).take len).reverse

/-- R358: a port reports a status. -/
def State.netReport (s : State) (p code : Nat) : State := (s.wr (F.NET_P_STATUS_STATUS p) code).wr F.NET_STATUS_STATUS code

/-- R358: an error status of a port, which sets ERR_IRQ. -/
def State.netError (s : State) (p code : Nat) : State :=
  (s.netReport p code).irq 0x18 (F.NET_P_STATUS_ERR_IRQ p) (F.NET_P_CTRL_ERR_IRQ_EN p)

/-- R358: the TSN functions of a port report a status. -/
def State.tsnReport (s : State) (p code : Nat) : State := s.wr (F.TSN_P_STATUS_STATUS p) code

/-- R331: the port exists in the mode. (DEDUCED, log entry 66) -/
def State.portExists (s : State) (p : Nat) : Bool := portIn (s.rd F.NET_CFG_MODE) p

/-- R334: is the port down? -/
def State.portDown (s : State) (p : Nat) : Bool := !s.on (F.NET_P_CTRL_EN p) || !s.on (F.NET_P_STATUS_LINK p)

/-! ### Class queues (R349, R354) -/

/-- R333: the length of a frame on the wire, counted with FCS. (DEDUCED, log entry 64) -/
def NetFrame.len (f : NetFrame) : Nat := max 64 (f.bytes.length + 4)

/-- R350: the wire bits of a frame. -/
def NetFrame.wireBits (f : NetFrame) : Nat := 8 * (f.len + 20)

/-- R357: bytes queued in a class. -/
def NetClass.depth (k : NetClass) : Nat := k.frames.foldl (fun a f => a + f.len) 0

/-- R349: the buffer a class uses. (DEDUCED, log entry 64) -/
def NetClass.used (k : NetClass) : Nat := k.frames.foldl (fun a f => a + roundUp f.len 64) 0

/-- Replace a class; TSN_C_DEPTH follows it. -/
def State.setClass (s : State) (p c : Nat) (k : NetClass) : State :=
  (s.setNetPort p ((s.netPort p).setCls c k)).wr (F.TSN_C_DEPTH_V p c) k.depth

/-- R354: a frame that fits no open interval of its class in the oper list. -/
def State.fitsNone (s : State) (p c : Nat) (f : NetFrame) : Bool :=
  match s.operSched p with
  | none => false
  | some g => match g.longest c with
    | none => false
    | some n => decide (n * s.portRate p < f.wireBits)

/-- R354: head frames that fit no open interval are discarded. (DEDUCED, log entry 68) -/
def State.dropOversize (s : State) (p c : Nat) : Nat → State
  | 0 => s
  | fuel + 1 =>
    let k := (s.netPort p).cls c
    match k.frames with
    | [] => s
    | f :: t =>
      if s.fitsNone p c f then
        let s := (s.setClass p c { k with frames := t }).inc (F.TSN_C_OVERSIZE_COUNT p c)
        let s := (s.tsnReport p 0x1905).irq 0x19 (F.TSN_P_STATUS_OVERSIZE_IRQ p) (F.TSN_P_CTRL_OVERSIZE_IRQ_EN p)
        s.dropOversize p c fuel
      else s

/-- Check a class's head frame (R354). -/
def State.checkHead (s : State) (p c : Nat) : State := s.dropOversize p c (((s.netPort p).cls c).frames.length + 1)

/-- R334, R349: would a class take a frame now? A port that is down accepts at once. -/
def State.classTakes (s : State) (p c : Nat) (f : NetFrame) : Bool :=
  s.portDown p || decide (((s.netPort p).cls c).used + roundUp f.len 64 ≤ s.rd (F.TSN_C_BUF_UNITS p c) * 4096)

/-- R334: a frame enters a class queue, or is discarded and counted when the port is down. -/
def State.offerFrame (s : State) (p c : Nat) (f : NetFrame) : State :=
  if s.portDown p then s.inc (F.NET_P_DOWN_DROP_COUNT p)
  else
    let k := (s.netPort p).cls c
    let s := s.setClass p c { k with frames := k.frames ++ [f] }
    if k.frames.isEmpty then s.checkHead p c else s

/-- R334: the frames queued in a port's classes are discarded and counted. -/
def State.discardQueued (s : State) (p : Nat) : State :=
  s.each (List.range 8) (fun c s =>
    let k := (s.netPort p).cls c
    (s.setClass p c { k with frames := [] }).inc (F.NET_P_DOWN_DROP_COUNT p) k.frames.length)

/-! ### Port enables and links (R331, R334) -/

/-- R331: a write of NET_CFG. (DEDUCED, log entry 66) -/
def State.netCfg (s : State) (val : Word) : State :=
  if F.NET_CFG_MODE.of val = 3 ∨ (List.range 8).any (fun p => s.on (F.NET_P_CTRL_EN p)) ∨ s.image.nodes.any (fun n => n.kind == 7) then
    s.wr F.NET_STATUS_STATUS 0x1801
  else s.plainWrite F.NET_CFG_MODE.off val

/-- R334, R356: a write of NET_P_CTRL that takes effect. (DESIGN CHOICE, log entry 69) -/
def State.netPortSet (s : State) (p : Nat) (val : Word) : State :=
  let mf := (F.NET_P_CTRL_MAX_FRAME p).of val
  if mf < 1518 ∨ 9600 < mf then s.netReport p 0x1801
  else
    let was := s.on (F.NET_P_CTRL_EN p)
    let fec := s.rd (F.NET_P_CTRL_FEC p)
    let s := s.plainWrite (F.NET_P_CTRL_EN p).off val
    let s := if was then s.wr (F.NET_P_CTRL_FEC p) fec else s
    let s := if s.portExists p then s else s.wr (F.NET_P_CTRL_EN p) 0
    let en := s.on (F.NET_P_CTRL_EN p)
    if en && !was then
      (if s.on (F.NET_P_STATUS_SHUTTING_DOWN p) then s.wr (F.NET_P_STATUS_PENDING_ENABLE p) 1 else s)
    else if !en && was then
      let s := s.wr (F.NET_P_STATUS_PENDING_ENABLE p) 0
      let s := s.discardQueued p
      if s.on (F.NET_P_STATUS_LINK p) then s.wr (F.NET_P_STATUS_SHUTTING_DOWN p) 1 else s
    else s

/-- R334, R356, R479: a write of NET_P_CTRL; one that enables a port whose lane is under test is held. (DEDUCED, log entry 66) -/
def State.netPortCtrl (s : State) (p : Nat) (val : Word) : State :=
  s.enableWrite ((portLanes (s.rd F.NET_CFG_MODE) p).any (fun l => s.laneUnderTest (0x28 + l))) (F.NET_P_CTRL_EN p) val
    (fun s => s.netPortSet p val)

/-- R332, R334: the link of a port comes up, or goes down: a shutdown ends when the PCS stops. (DESIGN CHOICE, log entry 69) -/
def State.netLink (s : State) (p : Nat) (up : Bool) : State :=
  let was := s.on (F.NET_P_STATUS_LINK p)
  if up = was then s
  else if up then
    (if s.on (F.NET_P_CTRL_EN p) && s.portExists p then
       (s.wr (F.NET_P_STATUS_LINK p) 1).irq 0x18 (F.NET_P_STATUS_LINK_IRQ p) (F.NET_P_CTRL_LINK_IRQ_EN p)
     else s)
  else
    let s := ((s.discardQueued p).wr (F.NET_P_STATUS_LINK p) 0).netReport p 0x1802
    let s := s.irq 0x18 (F.NET_P_STATUS_LINK_IRQ p) (F.NET_P_CTRL_LINK_IRQ_EN p)
    (s.wr (F.NET_P_STATUS_SHUTTING_DOWN p) 0).wr (F.NET_P_STATUS_PENDING_ENABLE p) 0

/-! ### Receiving (R333, R336) -/

/-- The MAC address of a port. -/
def State.portMac (s : State) (p : Nat) : List Byte := beBytes 2 (s.rd (F.NET_P_MAC_HI_V p)) ++ beBytes 4 (s.rd (F.NET_P_MAC_LO_V p))

/-- R336: does the port's address filter accept a destination? -/
def State.macAccepts (s : State) (p : Nat) (dst : List Byte) : Bool :=
  dst == s.portMac p || dst.all (· == 0xFF) || s.on (F.NET_P_CTRL_PROMISC p) ||
    (s.on (F.NET_P_CTRL_ALLMULTI p) && (dst.headD 0).getLsbD 0)

/-- R336: an IPv4 UDP message to port 319 or 320, an 802.1Q tag passed over. (DEDUCED, log entry 67) -/
def isPtpUdp (b : List Byte) : Bool :=
  let o := if beAt b 12 2 = 0x8100 then 4 else 0
  beAt b (12 + o) 2 == 0x0800 && leAt b (23 + o) 1 == 17 &&
    (let d := beAt b (14 + o + leAt b (14 + o) 1 % 16 * 4 + 2) 2
     d == 319 || d == 320)

/-- R336: the receive buffer of a port: base and size. -/
def State.rxBuf (s : State) (p : Nat) : Nat × Nat :=
  (s.rd (F.NET_P_RXBUF_HI_V p) * 2 ^ 32 + s.rd (F.NET_P_RXBUF_LO_V p) * 4096, s.rd (F.NET_P_RXBUF_SIZE_V p))

/-- R336: the tiles in the buffer whose entries the queue has not passed: address and size. -/
def State.rxLive (s : State) (p : Nat) : List (Nat × Nat) :=
  let q := s.queue (s.rd (F.NET_P_RXCFG_QID p))
  let b := s.rxBuf p
  (((List.range q.count).map (fun i => s.ringEntry q (q.ix (q.head + i)))).filter (fun e =>
    decide (b.1 ≤ e.addr) && decide (e.addr < b.1 + b.2))).map (fun e => (e.addr, 32 + 16 * e.len16))

/-- R336: where a tile of `n` bytes goes in the receive buffer, none when it finds no room. -/
def State.rxPlace (s : State) (p n : Nat) : Option Nat :=
  let b := s.rxBuf p
  let at_ := b.1 + (s.netPort p).rxPos
  let a := if b.1 + b.2 < at_ + n then b.1 else at_
  if b.1 + b.2 < a + n ∨ (s.rxLive p).any (fun l => decide (l.1 < a + n) && decide (a < l.1 + l.2)) then none else some a

/-- R335, R336: the tile of a received frame. (DEDUCED, log entry 68) -/
def State.rxTile (s : State) (p : Nat) (bytes : List Byte) : Tile :=
  let t := s.timestamp
  let h : TileHdr := { stream := s.rd (F.NET_P_RXCFG_STREAM_ID p), seq := (s.netPort p).rxSeq, col := 0xFFFF, row := 0xFFFF,
                       format := 0x0600, capSec := tsSec t % 2 ^ 32, capNs := tsNs t }
  let h := ((h.setFlag 3 true).setFlag 4 true).setFlag 6 s.inHoldover
  (Tile.withPayload h (leBytes 2 bytes.length ++ List.replicate 14 0 ++ bytes)).sealed

/-- A received tile goes to its place in the port's buffer and its entry to the queue, or it is dropped and counted. -/
def State.rxPut (s : State) (p qid : Nat) (t : Tile) (n : Nat) : Option Nat → Bool → State
  | some a, true =>
    let s := s.setNetPort p { s.netPort p with rxPos := a + n - (s.rxBuf p).1 }
    let r := (s.physWrite a t.bytes).reserve qid 1
    r.2.complete qid (r.1.headD 0) (t.entry a)
  | _, _ => (s.inc (F.NET_P_RX_DROP_COUNT p)).netError p 0x1806

/-- R336: an accepted frame is written and pushed, or dropped. (DEDUCED, log entry 68) -/
def State.rxStore (s : State) (p : Nat) (bytes : List Byte) : State :=
  let t := s.rxTile p bytes
  let v := s.netPort p
  let n := 32 + t.payload.length
  let s := s.setNetPort p { v with rxSeq := (v.rxSeq + 1) % 2 ^ 32 }
  let qid := s.rd (F.NET_P_RXCFG_QID p)
  s.rxPut p qid t n (s.rxPlace p n) (decide ((s.queue qid).state = 2) && (s.edge? qid).isNone && (s.queue qid).free != 0)

/-- R333, R336, R364: a frame arrives, without its FCS. (DEDUCED, log entry 67) -/
def State.frameReceive (s : State) (p : Nat) (bytes : List Byte) (fcsOk : Bool) : State :=
  if s.portDown p ∨ bytes.length < 14 ∨ s.rd (F.NET_P_CTRL_MAX_FRAME p) < bytes.length + 4 then s
  else if !fcsOk then s.inc (F.NET_P_FCS_ERR_COUNT p)
  else if beAt bytes 12 2 = 0x8808 then s.inc (F.NET_P_PAUSE_DROP_COUNT p)
  else
    let s := if beAt bytes 12 2 = 0x88F7 then s.inc F.PTP_DROP_COUNT else s
    if !s.on (F.NET_P_CTRL_RX_EN p) ∨ !s.macAccepts p (bytes.take 6) then s
    else
      let s := s.inc (F.NET_P_RX_FRAMES_COUNT p)
      if beAt bytes 12 2 = 0x88F7 ∨ isPtpUdp bytes then s else s.rxStore p bytes

/-! ### Software frames (R335) -/

/-- R335: the port takes the next frame of its software queue. -/
def State.softwareFrame (s : State) (p : Nat) : State :=
  if !s.on (F.NET_P_SWTX_EN p) then s
  else
    let qid := s.rd (F.NET_P_SWTX_QID p)
    let x := s.nextTile qid
    match x.1 with
    | none => x.2
    | some (i, e) =>
      let s := x.2
      let t := s.entryTile e
      let n := leAt t.payload 0 2
      match verify t true with
      | some f => (s.countFailure 0x0600 t f policyNone false false).pop qid i
      | none =>
        if n < 14 ∨ s.rd (F.NET_P_CTRL_MAX_FRAME p) - 4 < n ∨ t.payload.length < 16 + n then
          ((s.inc (F.NET_P_TX_OVERSIZE_COUNT p)).netError p 0x1807).pop qid i
        else
          let f : NetFrame := { bytes := (t.payload.drop 16).take n }
          let c := s.rd (F.NET_P_SWTX_CLASS p)
          if s.classTakes p c f then (s.offerFrame p c f).pop qid i else s

/-! ### Gate lists (R352, R353) -/

/-- R352: count the credits up to now and take the gates of the schedule at the time counter's reading.
(DESIGN CHOICE, log entry 65) -/
def State.refreshGates (s : State) (p : Nat) : State :=
  let s := s.settle p s.refNs
  s.setNetPort p { s.netPort p with gates := ((s.operSched p).map (fun g => g.at s.timestamp)).getD 255 }

/-- R353: is the admin list acceptable? -/
def State.adminOk (s : State) (p : Nat) : Bool :=
  let n := s.rd (F.TSN_P_CTRL_ADMIN_LEN p)
  let cyc := s.rd (F.TSN_P_CYCLE_NS_V p)
  decide (1 ≤ n) && decide (n ≤ 256) && (List.range n).all (fun k => decide (32 ≤ s.rd (F.TSN_ADMIN_NS_V p k))) &&
    decide (1000 ≤ cyc) && decide (cyc ≤ 1000000000) && decide (s.rd (F.TSN_P_BASE_NS_V p) < 1000000000)

/-- R353: BASE in ns. -/
def State.gateBase (s : State) (p : Nat) : Int :=
  ((s.rd (F.TSN_P_BASE_SEC_HI_V p) * 2 ^ 32 + s.rd (F.TSN_P_BASE_SEC_LO_V p) : Nat) : Int) * 1000000000 +
    s.rd (F.TSN_P_BASE_NS_V p)

/-- R353: COMMIT. -/
def State.gateCommit (s : State) (p : Nat) : State :=
  if s.on (F.TSN_P_STATUS_PENDING p) then s.tsnReport p 0x1902
  else if !s.adminOk p then s.tsnReport p 0x1901
  else
    let base := s.gateBase p
    let cyc := s.rd (F.TSN_P_CYCLE_NS_V p)
    let least := s.timestamp + 1000
    let n := ((least - base + cyc - 1) / (cyc : Int)).toNat
    let t := if least ≤ base then base else base + (max 1 n : Nat) * (cyc : Int)
    let s := ((s.wr (F.TSN_P_CHANGE_SEC_LO_V p) (tsSec t)).wr (F.TSN_P_CHANGE_SEC_HI_V p) (tsSec t / 2 ^ 32)).wr
      (F.TSN_P_CHANGE_NS_V p) (tsNs t)
    let s := s.wr (F.TSN_P_STATUS_PENDING p) 1
    if least ≤ base then s
    else (s.tsnReport p 0x1904).irq 0x19 (F.TSN_P_STATUS_LATE_IRQ p) (F.TSN_P_CTRL_LATE_IRQ_EN p)

/-- R353: the change takes place: the admin list becomes the oper list. -/
def State.gateChange (s : State) (p : Nat) : State :=
  let s := s.settle p s.refNs
  let n := s.rd (F.TSN_P_CTRL_ADMIN_LEN p)
  let s := s.each (List.range n) (fun k s =>
    (s.wr (F.TSN_OPER_GATES_V p k) (s.rd (F.TSN_ADMIN_GATES_V p k))).wr (F.TSN_OPER_NS_V p k) (s.rd (F.TSN_ADMIN_NS_V p k)))
  let s := (s.wr (F.TSN_P_STATUS_OPER_LEN p) n).wr (F.TSN_P_OPER_CYCLE_NS_V p) (s.rd (F.TSN_P_CYCLE_NS_V p))
  let s := s.setNetPort p { s.netPort p with operBase := s.changeTime p }
  let s := (s.wr (F.TSN_P_STATUS_PENDING p) 0).irq 0x19 (F.TSN_P_STATUS_CHANGE_IRQ p) (F.TSN_P_CTRL_CHANGE_IRQ_EN p)
  (s.refreshGates p).each (List.range 8) (fun c s => s.checkHead p c)

/-- R353: the change time of a pending change arrives. -/
def State.gateListChange (s : State) (p : Nat) : State :=
  if s.on (F.TSN_P_STATUS_PENDING p) ∧ s.changeTime p ≤ s.timestamp then s.gateChange p else s

/-- R353, R355: CANCEL; in the cycle of the change time the change takes place. -/
def State.gateCancel (s : State) (p : Nat) (late : Bool) : State :=
  if !s.on (F.TSN_P_STATUS_PENDING p) then s
  else if late then (s.gateChange p).tsnReport p 0x1906
  else s.wr (F.TSN_P_STATUS_PENDING p) 0

/-- R353, R357: a write of TSN_P_CTRL; ADMIN_LEN is locked while a change is pending. -/
def State.tsnCtrl (s : State) (p : Nat) (val : Word) (late : Bool) : State :=
  let f := F.TSN_P_CTRL_ADMIN_LEN p
  let len := s.rd f
  let lock := s.on (F.TSN_P_STATUS_PENDING p) && f.of val != len
  let s := s.settle p s.refNs
  let s := s.plainWrite f.off val
  let s := (if lock then (s.wr f len).tsnReport p 0x1903 else s).refreshGates p
  let s := if (F.TSN_P_CTRL_CANCEL p).of val = 1 then s.gateCancel p late else s
  if (F.TSN_P_CTRL_COMMIT p).of val = 1 then s.gateCommit p else s

/-! ### Class registers (R349 to R351) -/

/-- R351: a write of TSN_C_IDLE keeps the credit. -/
def State.tsnIdle (s : State) (p c : Nat) (val : Word) : State :=
  if val.toNat = 0 ∨ s.portRate p * 1000000 < val.toNat then s.tsnReport p 0x1901
  else (s.settle p s.refNs).plainWrite (F.TSN_C_IDLE_V p c).off val

/-- R351: a write of TSN_C_HI limits a higher credit; negative credit stays. -/
def State.tsnHi (s : State) (p c : Nat) (val : Word) : State :=
  if 2 ^ 31 ≤ val.toNat then s.tsnReport p 0x1901
  else
    let s := (s.settle p s.refNs).plainWrite (F.TSN_C_HI_V p c).off val
    let k := (s.netPort p).cls c
    s.setNetPort p ((s.netPort p).setCls c { k with credit := min k.credit (val.toNat : Rat) })

/-- R350: a write of TSN_C_CFG; setting CBS_EN starts the credit at 0. -/
def State.tsnClassCfg (s : State) (p c : Nat) (val : Word) : State :=
  let en := (F.TSN_C_CFG_CBS_EN p c).of val == 1
  if 4 ≤ c ∧ (en ∨ (F.TSN_C_CFG_WEIGHT p c).of val = 0) then s.tsnReport p 0x1901
  else
    let was := s.on (F.TSN_C_CFG_CBS_EN p c)
    let s := (s.settle p s.refNs).plainWrite (F.TSN_C_CFG_CBS_EN p c).off val
    if en && !was then s.setNetPort p ((s.netPort p).setCls c { (s.netPort p).cls c with credit := 0 }) else s

/-- R349: a write of TSN_C_BUF. -/
def State.tsnBuf (s : State) (p c : Nat) (val : Word) : State :=
  let f := F.TSN_C_BUF_UNITS p c
  let total := ((List.range 8).flatMap (fun i => (List.range 8).map (fun j => s.rd (F.TSN_C_BUF_UNITS i j)))).foldl (· + ·) 0
  if 1024 < total - s.rd f + f.of val ∨ (s.on (F.NET_P_CTRL_EN p) ∧ f.of val ≠ s.rd f) then s.tsnReport p 0x1901
  else s.plainWrite f.off val

/-! ### Transmission (R348, R350, R354) -/

/-- R354: the head frame of a class ends no later than the next closing of its gate, a pending change counted; `t` is the
reading at which it would start. -/
def State.guardOk (s : State) (p c : Nat) (f : NetFrame) (t : Rat) : Bool :=
  let dur : Rat := (f.wireBits : Rat) / s.portRate p
  let old := match s.operSched p with
    | none => none
    | some g => g.closing c t
  let next :=
    if s.on (F.TSN_P_CTRL_GATE_EN p) && s.on (F.TSN_P_STATUS_PENDING p) then
      let ch : Rat := ((s.changeTime p : Int) : Rat) - t
      let new := ((s.adminSched p).closing c (s.changeTime p : Int)).map (fun w => max 0 ch + w)
      match old with
      | some w => if w ≤ ch then some w else new
      | none => new
    else old
  match next with
  | none => true
  | some w => decide (dur ≤ w)

/-- R348: is a class eligible to start its head frame at time `t`? -/
def State.eligible (s : State) (p c : Nat) (t : Rat) : Bool :=
  let v := s.netPort p
  match (v.cls c).frames with
  | [] => false
  | f :: _ => v.gates / 2 ^ c % 2 == 1 && (!s.on (F.TSN_C_CFG_CBS_EN p c) || decide (0 ≤ (v.cls c).credit)) && s.guardOk p c f t

/-- R348: the round among classes 4 to 7: the class that sends and the port's record after the visits before it. -/
def State.drr (s : State) (p : Nat) (t : Rat) (v : NetPort) : Nat → Option Nat × NetPort
  | 0 => (none, v)
  | fuel + 1 =>
    let c := v.round
    let k := v.cls c
    let next (v : NetPort) : NetPort := { v with round := if c = 7 then 4 else c + 1, added := false }
    match k.frames with
    | [] => s.drr p t (next (v.setCls c { k with deficit := 0 })) fuel
    | f :: _ =>
      if !s.eligible p c t then s.drr p t (next v) fuel
      else
        let d := if v.added then k.deficit else k.deficit + s.rd (F.TSN_C_CFG_WEIGHT p c) * 256
        if f.len ≤ d then (some c, { v.setCls c { k with deficit := d - f.len } with added := true })
        else s.drr p t (next (v.setCls c { k with deficit := d })) fuel

/-- R348: the class that sends next, and the port's record. -/
def State.selectClass (s : State) (p : Nat) (t : Rat) : Option Nat × NetPort :=
  let v := s.netPort p
  match (List.range 4).find? (fun c => s.eligible p c t) with
  | some c => (some c, v)
  | none => if (List.range 4).any (fun c => s.eligible p (4 + c) t) then s.drr p t v 200 else (none, v)

/-- R344: a PCR field: 33 bits at 90 kHz, 6 reserved bits, 9 bits at 27 MHz. -/
def pcrBytes (t : Int) : List Byte :=
  let n := (t * 27 / 1000 % (2 ^ 33 * 300)).toNat
  beBytes 6 (n / 300 * 2 ^ 15 + 63 * 2 ^ 9 + n % 300)

/-- Overwrite bytes of a byte string. -/
def patch (b : List Byte) (o : Nat) (v : List Byte) : List Byte := b.take o ++ v ++ b.drop (o + v.length)

/-- R333, R344, R364: a frame as it passes the PCS at time `t`: time fields written, padded. -/
def NetFrame.onWire (f : NetFrame) (t : Int) : List Byte :=
  let b := f.pcrs.foldl (fun b o => patch b o (pcrBytes t)) f.bytes
  let b := match f.ptp with
    | some (0, _) => patch b 76 (beBytes 6 (tsSec t) ++ beBytes 4 (tsNs t))
    | _ => b
  b ++ List.replicate (60 - b.length) 0

/-- R348, R350: the port starts the head frame of the class it selects, once its last frame has ended.
(DESIGN CHOICE, log entry 65) -/
def State.transmit (s : State) (p : Nat) : Option (NetFrame × Int) × State :=
  if s.portDown p then (none, s)
  else
    let s := s.refreshGates p
    let start := match (s.netPort p).tx with
      | some (_, e) => max e s.refNs
      | none => (s.netPort p).clock
    let s := s.settle p start
    let t : Rat := (s.timestamp : Rat) + (start - s.refNs)
    let r := s.selectClass p t
    match r.1 with
    | none => (none, s)
    | some c =>
      let k := r.2.cls c
      match k.frames with
      | [] => (none, s)
      | f :: rest =>
        let dur : Rat := (f.wireBits : Rat) / s.portRate p
        let s := s.setNetPort p { r.2 with tx := some (c, start + dur), lastTx := f.onWire t.floor }
        let s := s.setClass p c { k with frames := rest }
        let s := (s.inc (F.NET_P_TX_FRAMES_COUNT p)).inc (F.TSN_C_TXFRAMES_COUNT p c)
        (some (f, t.floor), s.checkHead p c)

/-! ### Commands -/

/-- NET_CFG_WRITE (R331). -/
def execNetCfgWrite (src : Agent) (val : Word) (s : State) : Out :=
  .next (s.writeReg src F.NET_CFG_MODE val (fun s => s.netCfg val))

/-- NET_PORT_ENABLE: a write of NET_P_CTRL (R334). -/
def execNetPortEnable (src : Agent) (port : Fin 8) (val : Word) (s : State) : Out :=
  .next (s.writeReg src (F.NET_P_CTRL_EN port) val (fun s => s.netPortCtrl port val))

/-- NET_LINK_CHANGE (R332, R334). -/
def execNetLinkChange (port : Fin 8) (up : Bool) (s : State) : Out := .next (s.netLink port up)

/-- FRAME_RECEIVE (R333, R336). -/
def execFrameReceive (port : Fin 8) (bytes : List Byte) (fcsOk : Bool) (s : State) : Out :=
  .next (s.frameReceive port bytes fcsOk)

/-- SOFTWARE_FRAME_TX (R335). -/
def execSoftwareFrameTx (port : Fin 8) (s : State) : Out := .next (s.softwareFrame port)

/-- COMMIT: a write of TSN_P_CTRL with COMMIT (R353). -/
def execCommit (src : Agent) (port : Fin 8) (val : Word) (s : State) : Out :=
  .next (s.writeReg src (F.TSN_P_CTRL_COMMIT port) (val ||| 0x40000000) (fun s => s.tsnCtrl port (val ||| 0x40000000) false))

/-- GATE_CANCEL: a write of TSN_P_CTRL with CANCEL, `late` in the cycle of the change time (R353, R355). -/
def execGateCancel (src : Agent) (port : Fin 8) (val : Word) (late : Bool) (s : State) : Out :=
  .next (s.writeReg src (F.TSN_P_CTRL_CANCEL port) (val ||| 0x20000000) (fun s => s.tsnCtrl port (val ||| 0x20000000) late))

/-- GATE_LIST_CHANGE (R353). -/
def execGateListChange (port : Fin 8) (s : State) : Out := .next (s.gateListChange port)

/-- GATE_ENTRY_CHANGE (R352). -/
def execGateEntryChange (port : Fin 8) (s : State) : Out := .next (s.refreshGates port)

/-- TSN_IDLE_WRITE (R351). -/
def execTsnIdleWrite (src : Agent) (port cls : Fin 8) (val : Word) (s : State) : Out :=
  .next (s.writeReg src (F.TSN_C_IDLE_V port cls) val (fun s => s.tsnIdle port cls val))

/-- TSN_HI_WRITE (R351). -/
def execTsnHiWrite (src : Agent) (port cls : Fin 8) (val : Word) (s : State) : Out :=
  .next (s.writeReg src (F.TSN_C_HI_V port cls) val (fun s => s.tsnHi port cls val))

/-- Writes of the NET block by offset. -/
def State.netRegWrite (s : State) (o : Nat) (val : Word) : State :=
  let off := blockBase 0x18 + o
  if o = 0 then s.netCfg val
  else if 0x100 ≤ o ∧ o < 0x500 then
    let p := (o - 0x100) / 0x80
    let r := o % 0x80
    if r = 0 then s.netPortCtrl p val
    else if r = 0x14 then
      let old := s.reg off
      let s := s.plainWrite off val
      if (F.NET_P_SWTX_EN p).of old = 1 then
        (s.wr (F.NET_P_SWTX_CLASS p) ((F.NET_P_SWTX_CLASS p).of old)).wr (F.NET_P_SWTX_QID p) ((F.NET_P_SWTX_QID p).of old)
      else s
    else if 0x18 ≤ r ∧ r ≤ 0x24 then
      (if s.on (F.NET_P_CTRL_RX_EN p) then s
       else (s.plainWrite off val).setNetPort p { s.netPort p with rxPos := 0 })
    else s.plainWrite off val
  else s.plainWrite off val

/-- Writes of the TSN block by offset. -/
def State.tsnRegWrite (s : State) (o : Nat) (val : Word) : State :=
  let off := blockBase 0x19 + o
  let p := o / 0x2000
  let r := o % 0x2000
  if 8 ≤ p then s
  else if r = 0 then s.tsnCtrl p val false
  else if (0x08 ≤ r ∧ r ≤ 0x14) ∨ (0x1000 ≤ r ∧ r < 0x1800) then
    (if s.on (F.TSN_P_STATUS_PENDING p) then s.tsnReport p 0x1903 else s.plainWrite off val)
  else if 0x100 ≤ r ∧ r < 0x200 then
    let c := (r - 0x100) / 0x20
    let k := r % 0x20
    if k = 0 then s.tsnClassCfg p c val
    else if k = 4 then s.tsnIdle p c val
    else if k = 8 then s.tsnHi p c val
    else if k = 0x10 then s.tsnBuf p c val
    else s.plainWrite off val
  else s.plainWrite off val

end Sys2Proof.Machine
end

