-- ==== Sys2Proof/Machine/Senders.lean ====
section
/-! DEFINITION. Senders (R337 to R347): RTP packets of video, audio and transport streams, their schedules and their two
paths. Header layouts are those of the standards the rules name (IPv4, UDP, RTP, RFC 4175, H.222.0). -/

namespace Sys2Proof.Machine

/-- A sender slot. -/
def State.sender (s : State) (k : Nat) : Sender := KMap.get (fun _ => {}) s.net.senders k

/-- Replace a sender slot. -/
def State.setSender (s : State) (k : Nat) (v : Sender) : State :=
  s.setNet { s.net with senders := KMap.set (fun _ => {}) s.net.senders k v }

/-- R338: the node and input port that hold a sender slot. -/
def State.senderNode (s : State) (k : Nat) : Option (Node × Nat) :=
  if s.on (F.NET_S_INFO_VALID k) then (s.node? (s.rd (F.NET_S_INFO_NODE_ID k))).map (fun n => (n, s.rd (F.NET_S_INFO_IN_PORT k)))
  else none

/-- R337: a little-endian field of sender `i`'s descriptor. -/
def Node.snd (n : Node) (i o len : Nat) : Nat := n.par (16 + 128 * i + o) len

/-- R337: bytes of sender `i`'s descriptor. -/
def Node.sndBytes (n : Node) (i o len : Nat) : List Byte := (n.params.drop (16 + 128 * i + o)).take len

/-- R358: a sender reports a status. -/
def State.senderReport (s : State) (k code : Nat) : State := (s.wr (F.NET_S_STATUS_STATUS k) code).wr F.NET_STATUS_STATUS code

/-! ### Headers (R339) -/

/-- The one's complement sum of 16-bit words in network order, before folding. -/
def wordSum : List Byte → Nat
  | a :: b :: t => a.toNat * 256 + b.toNat + wordSum t
  | [a] => a.toNat * 256
  | [] => 0

/-- The Internet checksum of a header. -/
def inetSum (b : List Byte) : Nat :=
  let n := wordSum b
  let n := n % 65536 + n / 65536
  0xFFFF - (n % 65536 + n / 65536)

/-- R339: an IPv4 header and a UDP header before `payload`. (PRESUMED, log entry 71) -/
def udpPacket (dscp ttl : Nat) (src dst sport dport payload : List Byte) : List Byte :=
  let n := payload.length + 8
  let head (sum : Nat) : List Byte :=
    beBytes 1 0x45 ++ beBytes 1 (dscp * 4) ++ beBytes 2 (n + 20) ++ beBytes 2 0 ++ beBytes 2 0x4000 ++ beBytes 1 ttl ++
      beBytes 1 17 ++ beBytes 2 sum ++ src ++ dst
  head (inetSum (head 0)) ++ sport ++ dport ++ beBytes 2 n ++ beBytes 2 0 ++ payload

/-- R337: the ports of a sender's paths, path A first. -/
def Node.sndPorts (n : Node) (i : Nat) : List (Nat × Nat) :=
  (n.snd i 1 1, 16) :: (if n.snd i 2 1 = 0xFF then [] else [(n.snd i 2 1, 32)])

/-- R339, R346: a packet's frame on one path; `o` is the place of the path's fields in the descriptor. -/
def State.pathFrame (s : State) (n : Node) (i port o : Nat) (rtp : List Byte) (pcrs : List Nat) : NetFrame :=
  let vlan := n.snd i 7 1 / (if o = 16 then 1 else 2) % 2 == 1
  let eth := n.sndBytes i o 6 ++ s.portMac port ++ (if vlan then beBytes 2 0x8100 ++ n.sndBytes i (o + 6) 2 else []) ++ beBytes 2 0x0800
  { bytes := eth ++ udpPacket (n.snd i 4 1 % 64) (n.snd i 5 1) (beBytes 4 (s.rd (F.NET_P_IP_V port))) (n.sndBytes i (o + 8) 4)
      (n.sndBytes i (o + 12) 2) (n.sndBytes i (o + 14) 2) rtp,
    pcrs := pcrs.map (fun q => q + eth.length + 40) }

/-- R339, R340: the RTP packet with counter `seq`. -/
def Node.rtp (n : Node) (i seq now : Nat) (p : SndPkt) : List Byte :=
  beBytes 1 0x80 ++ beBytes 1 ((if p.marker then 128 else 0) + n.snd i 6 1) ++ beBytes 2 seq ++ beBytes 4 (p.ts.getD now) ++
    beBytes 4 (n.snd i 8 4) ++ (if n.snd i 0 1 = 1 then beBytes 2 (seq / 65536) else []) ++ p.payload

/-- R346: a sender's packet enters class CLASS of each path's port, once every one has room. (DEDUCED, log entry 72) -/
def State.sendPkt (s : State) (k : Nat) (n : Node) (i : Nat) (p : SndPkt) : Option State :=
  let c := n.snd i 3 1
  let rtp := n.rtp i (s.rd (F.NET_S_RTPSEQ_V k)) (s.timestamp * 9 / 100000 % 2 ^ 32).toNat p
  let fs := (n.sndPorts i).map (fun q => (q.1, s.pathFrame n i q.1 q.2 rtp p.pcrs))
  if fs.all (fun f => s.classTakes f.1 c f.2) then
    some (((s.each fs (fun f s => s.offerFrame f.1 c f.2)).incWrap (F.NET_S_RTPSEQ_V k)).inc (F.NET_S_PKTS_COUNT k))
  else none

/-- Send the packets that wait for room, in order. -/
def State.pumpOut (s : State) (k : Nat) (n : Node) (i : Nat) : Nat → State
  | 0 => s
  | fuel + 1 =>
    match (s.sender k).outq with
    | [] => s
    | p :: t => match s.sendPkt k n i p with
      | some s => (s.setSender k { s.sender k with outq := t }).pumpOut k n i fuel
      | none => s

/-! ### Video (R340 to R342) -/

/-- R337: the descriptor of a sender's input among some tables. -/
def State.sndFmt (s : State) (n : Node) (i : Nat) (ts : List Table) : PixFmt :=
  match n.table ts i with
  | some t => pixFmtOf (s.tableBody t)
  | none => {}

/-- R340, R341: bytes of a picture line and of a picture. -/
def PixFmt.lineBytes (p : PixFmt) : Nat := p.picW * 5 / 2

/-- R341: packets of a picture. -/
def PixFmt.packets (p : PixFmt) (payload : Nat) : Nat := ceilDiv (p.picW * p.picH * 5) (2 * payload)

/-- R342: the address of a tile position in a sender's band buffer. -/
def State.bandAddr (s : State) (n : Node) (i : Nat) (p : PixFmt) (slot col : Nat) : Nat :=
  ((s.image.bufs.find? (fun b => b.id == n.snd i 52 2)).map (fun b => b.base)).getD 0 + (slot * p.cols + col) * p.maxPayload

/-- R340, R342: component `c` (0 Y, 1 Cb, 2 Cr) of pixel (x, y); black where no tile supplied it. -/
def State.sndSample (s : State) (n : Node) (i : Nat) (p : PixFmt) (f : SndFrame) (c x y : Nat) : Nat :=
  match f.bands.find? (fun b => b.row == y / p.tileH) with
  | some b =>
    if b.cols.contains (x / p.tileW) then
      let k := y % p.tileH * p.tileW + x % p.tileW
      let o := if c = 0 then 4 * k + 2 else 4 * (k - k % 2) + (if c = 1 then 0 else 4)
      le (s.bytesAt (s.bandAddr n i p b.slot (x / p.tileW) + o) 2) % 1024
    else if c = 0 then 64 else 512
  | none => if c = 0 then 64 else 512

/-- R340: the pixel groups of line `y` from byte `o`, `len` bytes. -/
def State.segment (s : State) (n : Node) (i : Nat) (p : PixFmt) (f : SndFrame) (y o len : Nat) : List Byte :=
  (List.range (len / 5)).flatMap (fun g =>
    let x := 2 * (o / 5 + g)
    let v (c x : Nat) : Nat := s.sndSample n i p f c x y
    beBytes 5 (v 1 x * 2 ^ 30 + v 0 x * 2 ^ 20 + v 2 x * 2 ^ 10 + v 0 (x + 1)))

/-- R340: packet `k` of a picture. (PRESUMED, log entry 71) -/
def State.videoPkt (s : State) (n : Node) (i : Nat) (p : PixFmt) (f : SndFrame) (k : Nat) : SndPkt :=
  let total := p.lineBytes * p.picH
  let start := k * n.snd i 64 2
  let len := min (n.snd i 64 2) (total - start)
  let y := start / p.lineBytes
  let o := start % p.lineBytes
  let l := min len (p.lineBytes - o)
  let two := decide (l < len)
  let srd (len y o : Nat) (c : Bool) : List Byte := beBytes 2 len ++ beBytes 2 (y % 2 ^ 15) ++ beBytes 2 ((if c then 2 ^ 15 else 0) + o / 5 * 2)
  { payload := srd l y o two ++ (if two then srd (len - l) (y + 1) 0 false else []) ++ s.segment n i p f y o l ++
      (if two then s.segment n i p f (y + 1) 0 (len - l) else []),
    marker := decide (total ≤ start + len),
    ts := some ((f.sec * 90000 + f.ns * 90000 / 1000000000) % 2 ^ 32) }

/-- R341: the data of packet `k` is in the band buffer: every tile row it meets is complete. -/
def Node.pktReady (n : Node) (i : Nat) (p : PixFmt) (f : SndFrame) (k : Nat) : Bool :=
  let last := min ((k + 1) * n.snd i 64 2) (p.lineBytes * p.picH) - 1
  decide (last / p.lineBytes / p.tileH < f.rows)

/-- R341: the scheduled time of packet `k`, in ns. (DEDUCED, log entry 70) -/
def State.pktTime (s : State) (n : Node) (i : Nat) (p : PixFmt) (f : SndFrame) (k : Nat) : Int :=
  s.capTime f.sec f.ns + n.snd i 48 4 + n.snd i 76 4 +
    (k * n.snd i 72 4 * 1000000000 * p.picH / (n.snd i 68 4 * n.snd i 66 2 * p.packets (n.snd i 64 2)) : Nat)

/-- R342: bands whose every byte has been sent leave the buffer. -/
def SndFrame.freed (f : SndFrame) (p : PixFmt) (payload : Nat) : SndFrame :=
  { f with bands := f.bands.filter (fun b => decide (f.sent * payload < (b.row + 1) * p.tileH * p.lineBytes)) }

/-- R341: the packets that are due, whose data is complete and that find room, enter their classes. -/
def State.pumpVideo (s : State) (k : Nat) (n : Node) (i : Nat) : Nat → State
  | 0 => s
  | fuel + 1 =>
    match (s.sender k).frames with
    | [] => s
    | f :: rest =>
      let p := s.sndFmt n i f.tables
      if f.sent < f.due ∧ n.pktReady i p f f.sent then
        match s.sendPkt k n i (s.videoPkt n i p f f.sent) with
        | none => s
        | some s =>
          let s := if f.late.contains f.sent then (s.inc (F.NET_S_LATE_COUNT k)).senderReport k 0x1803 else s
          let g := { f with sent := f.sent + 1, late := f.late.erase f.sent }.freed p (n.snd i 64 2)
          let fs := if p.packets (n.snd i 64 2) ≤ g.sent then rest else g :: rest
          (s.setSender k { s.sender k with frames := fs }).pumpVideo k n i fuel
      else s

/-- Send what a sender can send now. -/
def State.pumpSender (s : State) (k : Nat) : State :=
  match s.senderNode k with
  | none => s
  | some (n, i) =>
    let v := s.sender k
    if n.snd i 0 1 = 1 then s.pumpVideo k n i ((v.frames.map (fun f => f.due - f.sent)).foldl (· + ·) 1)
    else s.pumpOut k n i (v.outq.length + 1)

/-- R341: the scheduled time of the sender's next packet arrives. (DEDUCED, log entry 70) -/
def State.packetDue (s : State) (k : Nat) : State :=
  match s.senderNode k with
  | none => s
  | some (n, i) =>
    if n.snd i 0 1 ≠ 1 then s
    else
      let v := s.sender k
      match v.frames.findIdx? (fun f => decide (f.due < (s.sndFmt n i f.tables).packets (n.snd i 64 2))) with
      | none => s
      | some j =>
        let f := v.frames.getD j {}
        let p := s.sndFmt n i f.tables
        if s.timestamp < s.pktTime n i p f f.due then s
        else
          let late := if n.pktReady i p f f.due then f.late else f.late ++ [f.due]
          (s.setSender k { v with frames := v.frames.set j { f with due := f.due + 1, late := late } }).pumpSender k

/-- R342: rows below `r` of a picture are complete: positions that no tile supplied are counted. -/
def State.completeRows (s : State) (k : Nat) (p : PixFmt) (f : SndFrame) (r : Nat) : SndFrame × State :=
  let miss := ((List.range (r - f.rows)).map (fun j =>
    p.cols - (((f.bands.find? (fun b => b.row == f.rows + j)).map (fun b => b.cols.length)).getD 0))).foldl (· + ·) 0
  let s := if miss = 0 then s else s.inc (F.NET_S_MISSING_COUNT k) miss
  let s := if miss ≠ 0 ∧ !f.missSaid then s.senderReport k 0x1804 else s
  ({ f with rows := max f.rows r, missSaid := f.missSaid || miss != 0 }, s)

/-- R342: a checked tile enters the band buffer; none while both bands hold unsent data. A tile of a later frame begins that frame;
one of an earlier frame or of a complete band supplies nothing. (DEDUCED, log entry 70) -/
def State.videoTile (s : State) (k : Nat) (n : Node) (i : Nat) (t : Tile) : Option State :=
  let v := s.sender k
  let cur := v.frames.getLast?
  let new := match cur with
    | none => true
    | some f => later t.hdr.frame f.num
  let f : SndFrame := if new then { num := t.hdr.frame, sec := t.hdr.capSec, ns := t.hdr.capNs, tables := s.tablesOf n.id }
    else cur.getD {}
  let p := s.sndFmt n i f.tables
  let inside := f.num == t.hdr.frame && decide (t.hdr.col < p.cols) && decide (t.hdr.row < p.rows) && decide (f.rows ≤ t.hdr.row)
  if !inside && !new then some s
  else
    let used := v.frames.flatMap (fun f => f.bands.map (fun b => b.slot))
    let band := match f.bands.find? (fun b => b.row == t.hdr.row) with
      | some b => some b
      | none => (lowest 2 (fun q => !used.contains q)).map (fun q => { row := t.hdr.row, slot := q })
    match inside, band with
    | true, none => none
    | _, b =>
      let r := match new, cur with
        | true, some g =>
          let q := s.sndFmt n i g.tables
          let c := s.completeRows k q g q.rows
          (v.frames.dropLast ++ [c.1], c.2)
        | true, none => ([], s)
        | false, _ => (v.frames.dropLast, s)
      let c := if inside then r.2.completeRows k p f t.hdr.row else (f, r.2)
      match inside, b with
      | true, some b =>
        let s := c.2.setBytes (s.bandAddr n i p b.slot t.hdr.col) (t.payload.take p.maxPayload)
        let b := { b with cols := (b.cols.erase t.hdr.col) ++ [t.hdr.col] }
        let g := { c.1 with bands := c.1.bands.filter (fun q => q.row != t.hdr.row) ++ [b],
                            rows := if b.cols.length = p.cols then t.hdr.row + 1 else c.1.rows }
        some (s.setSender k { v with frames := r.1 ++ [g] })
      | _, _ => some (c.2.setSender k { v with frames := r.1 ++ [c.1] })

/-! ### Audio (R343) -/

/-- R338, R343: sample periods of a packet, and the sample rate. -/
def Node.audShape (n : Node) (i : Nat) : Nat × Nat :=
  match n.snd i 65 1, n.snd i 66 1 with
  | 0, 0 => (48, 48000) | 0, _ => (6, 48000) | _, 0 => (96, 96000) | _, _ => (12, 96000)

/-- R343: one sample period of a tile as L24 or L16. -/
def audPeriod (ch enc : Nat) (payload : List Byte) (j : Nat) : List Byte :=
  (List.range ch).flatMap (fun c =>
    let v := leAt payload ((j * ch + c) * 4) 4
    if enc = 0 then beBytes 3 (v / 256) else beBytes 2 (v / 65536))

/-- R343: sample period `j` of tile `t` joins the packet being built; a complete packet is queued. (DEDUCED, log entry 72) -/
def Sender.audAdd (v : Sender) (n : Node) (i : Nat) (t : Tile) (j : Nat) : Sender :=
  let sh := n.audShape i
  let ts := if v.accN = 0 then (t.hdr.capSec * sh.2 + t.hdr.capNs * sh.2 / 1000000000 + j) % 2 ^ 32 else v.accTs
  let b := v.acc ++ audPeriod (n.snd i 64 1) (n.snd i 67 1) t.payload j
  if v.accN + 1 = sh.1 then { v with acc := [], accN := 0, outq := v.outq ++ [{ payload := b, ts := some ts }] }
  else { v with acc := b, accN := v.accN + 1, accTs := ts }

/-- R343: a checked tile of an audio sender. (DEDUCED, log entry 72) -/
def State.audioTile (s : State) (k : Nat) (n : Node) (i : Nat) (t : Tile) : State :=
  let v := s.sender k
  let gap : Bool := match v.lastSeq with
    | some q => t.hdr.seq != (q + 1) % 2 ^ 32
    | none => false
  let s := if gap ∧ v.accN ≠ 0 then (s.inc (F.NET_S_INCOMPLETE_COUNT k)).senderReport k 0x1805 else s
  let v := { v with lastSeq := some t.hdr.seq, acc := if gap then [] else v.acc, accN := if gap then 0 else v.accN }
  s.setSender k ((List.range (t.payload.length / (4 * max 1 (n.snd i 64 1)))).foldl (fun v j => v.audAdd n i t j) v)

/-! ### Transport streams (R344) -/

/-- One bit of the CRC_32 of H.222.0. -/
def crcMpegStep (r : Nat) : Nat := if r / 2 ^ 31 % 2 = 1 then (r * 2 % 2 ^ 32) ^^^ 0x04C11DB7 else r * 2 % 2 ^ 32

/-- H.222.0: the CRC_32 of a section. -/
def crcMpeg (b : List Byte) : Nat := b.foldl (fun r x => iter 8 crcMpegStep (r ^^^ (x.toNat * 2 ^ 24))) 0xFFFFFFFF

/-- A PSI section: table ID, ID, version and body. (PRESUMED, log entry 71) -/
def psiSection (table id ver : Nat) (body : List Byte) : List Byte :=
  let b := beBytes 1 table ++ beBytes 2 (0xB000 + body.length + 9) ++ beBytes 2 id ++ beBytes 1 (0xC1 + ver % 32 * 2) ++
    beBytes 2 0 ++ body
  b ++ beBytes 4 (crcMpeg b)

/-- A TS packet: PID, start indicator, continuity counter, whether it has a PCR, and its data; the rest is adaptation-field
stuffing. (PRESUMED, log entry 71) -/
def tsPacket (pid cc : Nat) (start pcr : Bool) (data : List Byte) : List Byte :=
  let af := decide (data.length < 184)
  let n := 183 - data.length
  beBytes 1 0x47 ++ beBytes 2 ((if start then 0x4000 else 0) + pid) ++ beBytes 1 ((if af then 48 else 16) + cc % 16) ++
    (if af then
       beBytes 1 n ++ (if n = 0 then [] else
         beBytes 1 (if pcr then 16 else 0) ++ (if pcr then List.replicate 6 0 else []) ++
           List.replicate (n - 1 - (if pcr then 6 else 0)) 0xFF)
     else []) ++ data

/-- A TS packet that holds a PSI section. -/
def psiPacket (pid cc : Nat) (sec : List Byte) : List Byte :=
  let d := 0 :: sec
  tsPacket pid cc true false (d ++ List.replicate (184 - d.length) 0xFF)

/-- R344: the TS packets gathered become an RTP packet. -/
def Sender.flushRtp (v : Sender) : Sender :=
  if v.tsq.isEmpty then v
  else
    let pcrs := ((List.range v.tsq.length).filter (fun j => (v.tsq.getD j ([], false)).2)).map (fun j => 188 * j + 6)
    { v with tsq := [], outq := v.outq ++ [{ payload := v.tsq.flatMap (fun e => e.1), pcrs := pcrs }] }

/-- R344: one more TS packet. -/
def Sender.pushTs (v : Sender) (per : Nat) (b : List Byte) (pcr : Bool) : Sender :=
  let v := { v with tsq := v.tsq ++ [(b, pcr)] }
  if per ≤ v.tsq.length then v.flushRtp else v

/-- R344: PAT and PMT. -/
def Sender.psi (v : Sender) (k : Nat) (n : Node) (i : Nat) (now : Int) : Sender :=
  let due := match v.lastPat with
    | none => true
    | some t => decide (t + (n.snd i 70 2 : Int) * 1000000 ≤ now)
  if !due then v
  else
    let prog := n.snd i 68 2
    let pat := psiSection 0 (Config.psiField k 0) (Config.psiField k 1) (beBytes 2 prog ++ beBytes 2 (0xE000 + n.snd i 64 2))
    let pmt := psiSection 2 prog (Config.psiField k 2)
      (beBytes 2 (0xE000 + n.snd i 66 2) ++ beBytes 2 0xF000 ++ beBytes 1 0x24 ++ beBytes 2 (0xE000 + n.snd i 66 2) ++ beBytes 2 0xF000)
    let v := (v.pushTs (n.snd i 73 1) (psiPacket 0 v.ccPat pat) false).pushTs (n.snd i 73 1) (psiPacket (n.snd i 64 2) v.ccPmt pmt) false
    { v with ccPat := v.ccPat + 1, ccPmt := v.ccPmt + 1, lastPat := some now }

/-- R344: cut the access unit's bytes into TS packets; with `last` the rest goes too. -/
def Sender.cutTs (v : Sender) (n : Node) (i : Nat) (now : Int) (last : Bool) : Nat → Sender
  | 0 => v
  | fuel + 1 =>
    let pcr := v.first || (match v.lastPcr with
      | none => true
      | some t => decide (t + (n.snd i 72 1 : Int) * 1000000 ≤ now))
    let cap := if pcr then 176 else 184
    if v.pes.isEmpty ∨ (v.pes.length < cap ∧ !last) then v
    else
      let b := tsPacket (n.snd i 66 2) v.ccEs v.first pcr (v.pes.take cap)
      let w := v.pushTs (n.snd i 73 1) b pcr
      ({ w with pes := v.pes.drop cap, first := false, ccEs := v.ccEs + 1,
                lastPcr := if pcr then some now else v.lastPcr } : Sender).cutTs n i now last fuel

/-- R344: the access unit in progress ends. -/
def Sender.endAu (v : Sender) (n : Node) (i : Nat) (now : Int) : Sender :=
  { (v.cutTs n i now true (v.pes.length / 176 + 2)).flushRtp with inAu := false }

/-- R344: the header of an access unit's PES packet. (PRESUMED, log entry 71) -/
def pesHeader (pts : Nat) : List Byte :=
  [0, 0, 1, 0xE0, 0, 0, 0x84, 0x80, 5] ++ beBytes 1 (0x21 + pts / 2 ^ 30 % 8 * 2) ++ beBytes 2 (pts / 2 ^ 15 % 2 ^ 15 * 2 + 1) ++
    beBytes 2 (pts % 2 ^ 15 * 2 + 1)

/-- R344: a checked chunk of a transport-stream sender. -/
def State.tsTile (s : State) (k : Nat) (n : Node) (i : Nat) (t : Tile) : State :=
  let now := s.timestamp
  let broken := t.hdr.fs && (s.sender k).inAu
  let s := if broken then (s.inc (F.NET_S_INCOMPLETE_COUNT k)).senderReport k 0x1805 else s
  let v := s.sender k
  let v := if broken then v.endAu n i now else v
  let pts := (s.capTime t.hdr.capSec t.hdr.capNs * 9 / 100000 + (n.snd i 76 4 * 90 / 1000 : Nat)) % 2 ^ 33
  let v := if t.hdr.fs then { v.psi k n i now with inAu := true, first := true, pes := pesHeader pts.toNat } else v
  if !v.inAu then s.setSender k v
  else
    let v := ({ v with pes := v.pes ++ t.payload } : Sender).cutTs n i now false (t.payload.length / 176 + 2)
    s.setSender k (if t.hdr.fe then v.endAu n i now else v)

/-! ### Input tiles (R345) -/

/-- SENDER_TILE: a sender takes, checks and stores its next input tile. -/
def State.senderTile (s : State) (k : Nat) : State :=
  match s.senderNode k with
  | none => s
  | some (n, i) =>
    match s.image.inEdge n.id i with
    | none => s
    | some ed =>
      let s := s.pumpSender k
      if !(s.sender k).outq.isEmpty then s
      else
        let x := s.nextTile ed.qid
        match x.1 with
        | none => x.2
        | some (j, e) =>
          let t := x.2.entryTile e
          let r := (x.2.maybeSwitch n.id t.hdr.fs).checkTile ed 0x0600 t true
          if r.1.outcome = 3 then r.2.pop ed.qid j
          else
            let done := match n.snd i 0 1 with
              | 1 => r.2.videoTile k n i r.1.tile
              | 2 => some (r.2.audioTile k n i r.1.tile)
              | _ => some (r.2.tsTile k n i r.1.tile)
            match done with
            | none => x.2
            | some s => (s.pop ed.qid j).pumpSender k

/-- Every sender sends what it can, in ascending slot order (R355). -/
def State.pumpSenders (s : State) : State := s.each (List.range 64) (fun k s => s.pumpSender k)

/-! ### The node (R338, R347) -/

/-- R338: the sender slots that the senders of new nodes take, in ascending NODE_ID and input port: the lowest free ones, then those
of the nodes that go. -/
def State.senderSlots (s : State) (new gone : List Node) : List (Nat × Nat × Nat) :=
  let want := ((new.filter (fun n => n.kind == 7)).mergeSort (fun a b => decide (a.id ≤ b.id))).flatMap (fun n =>
    (List.range n.inPorts).map (fun i => (n.id, i)))
  let free := (List.range 64).filter (fun k => !s.on (F.NET_S_INFO_VALID k))
  let later := (List.range 64).filter (fun k => s.on (F.NET_S_INFO_VALID k) && gone.any (fun n => n.id == s.rd (F.NET_S_INFO_NODE_ID k)))
  ((free ++ later).zip want).map (fun e => (e.1, e.2.1, e.2.2))

/-- R338, R347: a NET_TX node becomes active: its senders start. -/
def State.netStart (s : State) (n : Node) : State :=
  s.each (s.net.prep.filter (fun e => e.2.1 == n.id)) (fun e s =>
    let k := e.1
    let s := s.setReg (F.NET_S_INFO_VALID k).off 0
    let s := (s.wr (F.NET_S_INFO_NODE_ID k) n.id).wr (F.NET_S_INFO_IN_PORT k) e.2.2
    let s := (s.wr (F.NET_S_INFO_STYPE k) (n.snd e.2.2 0 1)).wr (F.NET_S_INFO_VALID k) 1
    let s := (s.wr (F.NET_S_RTPSEQ_V k) (n.snd e.2.2 12 4)).wr (F.NET_S_PKTS_COUNT k) 0
    let s := ((s.wr (F.NET_S_LATE_COUNT k) 0).wr (F.NET_S_MISSING_COUNT k) 0).wr (F.NET_S_INCOMPLETE_COUNT k) 0
    s.setSender k {})

/-- R338, R347: a NET_TX node stops: its slots are freed. -/
def State.netStop (s : State) (n : Node) : State :=
  s.each ((List.range 64).filter (fun k => s.on (F.NET_S_INFO_VALID k) && s.rd (F.NET_S_INFO_NODE_ID k) == n.id)) (fun k s =>
    (s.wr (F.NET_S_INFO_VALID k) 0).setSender k {})

/-! ### Commands -/

/-- SENDER_TILE (R342 to R345). -/
def execSenderTile (slot : Fin 64) (s : State) : Out := .next (s.senderTile slot)

/-- SENDER_PACKET_DUE (R341). -/
def execSenderPacketDue (slot : Fin 64) (s : State) : Out := .next (s.packetDue slot)

end Sys2Proof.Machine
end

