-- ==== Sys2Proof/Machine/SensorNode.lean ====
section
/-! DEFINITION. The sensor intake (R198 to R206): frames, lines, tile rows and META tiles of a SENSOR_INTAKE node, and the
state of a lane group. -/

namespace Sys2Proof.Machine

/-- A lane group. -/
def State.grp (s : State) (g : Nat) : SlkGroup := KMap.get (fun _ => {}) s.slk g

/-- Replace a lane group. -/
def State.setGrp (s : State) (g : Nat) (v : SlkGroup) : State := s.setSlk (KMap.set (fun _ => {}) s.slk g v)

/-- An intake node. -/
def State.intake (s : State) (id : Nat) : Intake := KMap.get (fun _ => {}) s.intakes id

/-- Replace an intake node. -/
def State.setIntake (s : State) (id : Nat) (v : Intake) : State := s.setIntakes (KMap.set (fun _ => {}) s.intakes id v)

/-- R51: the lane groups an intake node claims. -/
def Node.groups (n : Node) : List Nat := (List.range 4).filter (fun g => n.res / 2 ^ g % 2 == 1)

/-- The intake node that claims group `g`. -/
def State.intakeOf (s : State) (g : Nat) : Option Node :=
  s.image.nodes.find? (fun n => n.kind == 1 && n.groups.contains g)

/-- R198: the X range of group `g`. -/
def Node.xrange (n : Node) (g : Nat) : Nat × Nat := (n.par (16 + 4 * g) 2, n.par (18 + 4 * g) 2)

/-- R198: is META set? -/
def Node.takesMeta (n : Node) : Bool := n.par 1 1 % 2 == 1

/-- R206: bits per sample of a wire packing, 0 for an undefined code. -/
def wireBits (pack : Nat) : Nat :=
  match pack with
  | 1 => 10 | 2 => 12 | 3 => 14 | 4 => 16 | 5 => 10 | 6 => 12 | _ => 0

/-- R206: the samples of a LINE payload. -/
def wireSamples (pack : Nat) (b : List Byte) : List Nat :=
  let n := wireBits pack
  let count := if n = 0 then 0 else b.length * 8 / n
  let at_ (i : Nat) : Nat := (b.getD i 0).toNat
  (List.range count).map (fun k =>
    if pack = 5 then at_ (k / 4 * 5 + k % 4) * 4 + at_ (k / 4 * 5 + 4) / 4 ^ (k % 4) % 4
    else if pack = 6 then at_ (k / 2 * 3 + k % 2) * 16 + at_ (k / 2 * 3 + 2) / 16 ^ (k % 2) % 16
    else unpackBit n k b)

/-! ### Tile rows (R201, R204) -/

/-- R201: is tile row `r` of a frame ready on every claimed group? -/
def IFrame.rowReady (f : IFrame) (n : Node) (tileH r : Nat) : Bool :=
  f.complete || n.groups.all (fun g =>
    f.fe.contains g || f.left.contains g ||
      (match KMap.get (fun _ => none) f.lastLine g with
       | some l => decide ((r + 1) * tileH ≤ l)
       | none => false))

/-- R200: the accepted sample at (x, y), the latest when several cover it. -/
def IFrame.sample? (f : IFrame) (x y : Nat) : Option Nat :=
  (f.segs.reverse.find? (fun g => g.line == y && decide (g.x ≤ x) && decide (x < g.x + g.samples.length))).map
    (fun g => g.samples.getD (x - g.x) 0)

/-- R201: the group whose X range holds column `x`. -/
def Node.groupAt (n : Node) (x : Nat) : Nat :=
  (n.groups.find? (fun g => decide ((n.xrange g).1 ≤ x) && decide (x < (n.xrange g).2))).getD 0

/-- R201: the fill value at column `x`. -/
def State.fillAt (s : State) (n : Node) (x : Nat) : Nat := s.rd (F.SLK_G_FILL_FILL (n.groupAt x))

/-- R15, R18, R201: the tile at column `col` of tile row `row` of a frame. -/
def State.rawTile (s : State) (n : Node) (p : PixFmt) (f : IFrame) (col row : Nat) : Tile :=
  let cell := p.cfa != 0
  let gx (i : Nat) : Nat := nearest 0 p.picW cell ((col * p.tileW + i : Nat) : Int)
  let gy (j : Nat) : Nat := nearest 0 p.picH cell ((row * p.tileH + j : Nat) : Int)
  let pts := (List.range (p.tileH * p.tileW)).map (fun k => (gx (k % p.tileW), gy (k / p.tileW)))
  let vals := pts.map (fun q => f.sample? q.1 q.2)
  let data := packBits (rawBits p.format) ((pts.zip vals).map (fun q => q.2.getD (s.fillAt n q.1.1)))
  let h : TileHdr := { stream := n.stream, frame := f.num, col := col, row := row, format := p.format,
                       len16 := p.maxPayload / 16, capSec := f.capSec, capNs := f.capNs }
  let h := h.setFlag 0 (decide (p.picW < (col + 1) * p.tileW) || decide (p.picH < (row + 1) * p.tileH))
  let h := (h.setFlag 3 (col == 0 && row == 0)).setFlag 4 (col + 1 == p.cols && row + 1 == p.rows)
  let h := (h.setFlag 5 (vals.any (fun v => v.isNone))).setFlag 6 f.hold
  { hdr := h, payload := padTo p.maxPayload data }

/-- R201: the filled line segments of a tile row: one for each line of a group with a sample no packet supplied. -/
def filledLines (n : Node) (p : PixFmt) (f : IFrame) (row g : Nat) : Nat :=
  let r := n.xrange g
  ((List.range p.tileH).filter (fun j =>
    let y := row * p.tileH + j
    decide (y < p.picH) && (List.range (min r.2 p.picW - r.1)).any (fun i => (f.sample? (r.1 + i) y).isNone))).length

/-- The queues of the picture port of an intake. -/
def State.intakeQueues (s : State) (n : Node) : List Nat := s.portQueues n.id 0

/-- R204: tile rows the assembly buffer holds. -/
def State.asmRows (s : State) (n : Node) (p : PixFmt) : Nat :=
  match s.image.bufs.find? (fun b => b.id == n.par 2 2) with
  | some b => max 2 (b.size / max 1 (p.cols * (32 + p.maxPayload)))
  | none => 2

/-- Replace the frame at the head of an intake's list. -/
def Intake.setHead (i : Intake) (f : IFrame) : Intake :=
  match i.frames with
  | [] => i
  | _ :: t => { i with frames := f :: t }

/-- R90: after RETIRE_FORCE the intake switches at its next tile, for every frame it holds. (DEDUCED, log entry 107) -/
def State.intakeForced (s : State) (n : Node) : State :=
  if s.str.forceRetire && s.str.retiring.contains n.id then
    let s := s.switchNode n.id
    let i := s.intake n.id
    s.setIntake n.id { i with frames := i.frames.map (fun f => { f with tables := s.tablesOf n.id }) }
  else s

/-- R70, R90: the descriptor a frame's tiles are made by. -/
def State.framePix (s : State) (n : Node) (f : IFrame) : PixFmt := s.pixFmtIn f.tables n

/-- R201, R107: the next tile of the oldest frame leaves, omitted on an edge that lacks room; a row's filled lines are counted with
its first tile. -/
def State.emitTile (s : State) (n : Node) : State :=
  let s := s.intakeForced n
  match (s.intake n.id).frames with
  | [] => s
  | f :: rest =>
    let p := s.framePix n f
    let r := f.nextRow
    let c := f.nextCol
    let s := if c = 0 then s.each n.groups (fun g s => s.inc (F.SLK_G_FILL_LINES_COUNT g) (filledLines n p f r g)) else s
    let s := s.putSource (s.intakeQueues n) (s.rawTile n p f c r)
    let i := s.intake n.id
    if c + 1 < p.cols then s.setIntake n.id (i.setHead { f with nextCol := c + 1 })
    else if p.rows ≤ r + 1 ∧ f.complete ∧ !rest.isEmpty then s.setIntake n.id { i with frames := rest }
    else
      s.setIntake n.id (i.setHead { f with nextRow := r + 1, nextCol := 0,
                                           segs := f.segs.filter (fun g => decide ((r + 1) * p.tileH ≤ g.line)) })

/-- R204: the rest of the row in hand leaves whatever the room. -/
def State.emitRow (s : State) (n : Node) : State :=
  match (s.intake n.id).frames with
  | [] => s
  | f :: _ => s.each (List.range (max 1 ((s.framePix n f).cols - f.nextCol))) (fun _ s => s.emitTile n)

/-- R201: is the next tile of the oldest frame in a ready row? -/
def State.rowIsReady (s : State) (n : Node) : Bool :=
  match (s.intake n.id).frames with
  | [] => false
  | f :: _ => decide (f.nextRow < (s.framePix n f).rows) && f.rowReady n (s.framePix n f).tileH f.nextRow

/-- R52, R107: would every edge that takes the next tile have room for it? -/
def State.tileHasRoom (s : State) (n : Node) : Bool :=
  s.sourceMay (s.intakeQueues n) (match (s.intake n.id).frames with
    | f :: _ => f.nextRow == 0 && f.nextCol == 0
    | [] => false)

/-- A complete frame whose rows have all been emitted makes way for the next one. -/
def State.dropDone (s : State) (n : Node) : State :=
  let i := s.intake n.id
  match i.frames with
  | f :: g :: rest => if f.complete && decide ((s.framePix n f).rows ≤ f.nextRow) then s.setIntake n.id { i with frames := g :: rest } else s
  | _ => s

/-- R201: the tiles of ready rows leave, left to right, for as long as the edges have room. -/
def State.emitTiles (s : State) (n : Node) : Nat → State
  | 0 => s
  | fuel + 1 =>
    let s := s.dropDone n
    if s.rowIsReady n && s.tileHasRoom n then (s.emitTile n).emitTiles n fuel else s

/-- R107, R205: META tiles that waited leave as the edges find room. -/
def State.metaDrain (s : State) (n : Node) : State :=
  let r := s.sourceDrain (s.portQueues n.id 1) (s.intake n.id).metaOut
  r.2.setIntake n.id { s.intake n.id with metaOut := r.1 }

/-- The tiles an intake's frames still hold, and one more each to leave the list: enough steps for all that may leave. -/
def State.tilesLeft (s : State) (n : Node) : Nat :=
  ((s.intake n.id).frames.map (fun f => (s.framePix n f).rows * (s.framePix n f).cols + 1)).foldl (· + ·) 0

/-- R201, R205: everything an intake can emit leaves. -/
def State.emitReady (s : State) (n : Node) : State := (s.metaDrain n).emitTiles n (s.tilesLeft n)

/-- The descriptor the newest frame is made by. -/
def State.framesPix (s : State) (n : Node) : PixFmt :=
  match (s.intake n.id).frames.getLast? with
  | some f => s.framePix n f
  | none => s.pixFmt n.id

/-- R204: pairs of frame and tile row that hold samples. -/
def Intake.rowsHeld (i : Intake) (tileH : Nat) : List (Nat × Nat) :=
  (i.frames.flatMap (fun f => f.segs.map (fun g => (f.num, g.line / max 1 tileH)))).eraseDups

/-- R204: free the space of a row not yet fully emitted. (DEDUCED, log entry 111) -/
def State.forceRows (s : State) (n : Node) (cap : Nat) : Nat → State
  | 0 => s
  | fuel + 1 =>
    let s := s.dropDone n
    if cap ≤ ((s.intake n.id).rowsHeld (s.framesPix n).tileH).length then (s.emitRow n).forceRows n cap fuel else s

/-! ### META tiles (R205) -/

/-- R205: a META tile of a frame. -/
def metaTile (n : Node) (f : IFrame) (data : List Byte) (last : Bool) : Tile :=
  let h : TileHdr := { stream := n.stream, frame := f.num, col := f.metaCol, row := 0xFFFF, format := 0x0500,
                       capSec := f.capSec, capNs := f.capNs }
  Tile.withPayload (((h.setFlag 3 (f.metaCol == 0)).setFlag 4 last).setFlag 6 f.hold) data

/-- R107, R205: a META tile enters the intake's elastic buffer of two. (DESIGN CHOICE, log entry 140) -/
def State.pushMeta (s : State) (n : Node) (t : Tile) : State :=
  let r := s.sourcePush (s.portQueues n.id 1) 2 (s.intake n.id).metaOut t
  r.2.setIntake n.id { s.intake n.id with metaOut := r.1 }

/-- R205: put full META tiles, keeping the bytes that may be the frame's last tile. -/
def State.putMeta (s : State) (n : Node) (f : IFrame) (max : Nat) : Nat → IFrame × State
  | 0 => (f, s)
  | fuel + 1 =>
    if max < f.metaBytes.length ∧ max ≠ 0 then
      (s.pushMeta n (metaTile n f (f.metaBytes.take max) false)).putMeta n
        { f with metaBytes := f.metaBytes.drop max, metaCol := f.metaCol + 1 } max fuel
    else (f, s)

/-- R205: the frame's last META tile. -/
def State.endMeta (s : State) (n : Node) (f : IFrame) : State :=
  if f.metaBytes.isEmpty then s else s.pushMeta n (metaTile n f f.metaBytes true)

/-! ### Frames (R199, R202) -/

/-- R202: the newest frame completes; its remaining rows become ready and are emitted as room allows. (DEDUCED, log entry 111) -/
def State.completeFrame (s : State) (n : Node) : State :=
  let i := s.intake n.id
  match i.frames.getLast? with
  | none => s
  | some f =>
    if f.complete then s
    else
      let s := s.endMeta n f
      let i := s.intake n.id
      let s := s.setIntake n.id { i with frames := i.frames.dropLast ++ [{ f with complete := true, metaBytes := [] }] }
      s.emitReady n

/-- R22, R23, R90, R199: a new frame starts with this FCNT; a node that waits for a FRAME_START tile switches its tables.
(DEDUCED, log entry 107) -/
def State.startFrame (s : State) (n : Node) (fcnt : Nat) : State :=
  let s := (s.completeFrame n).maybeSwitch n.id true
  let i := s.intake n.id
  let t := s.timestamp
  let f : IFrame := { num := i.nextNum, fcnt := fcnt, capSec := tsSec t % 2 ^ 32, capNs := tsNs t, hold := s.inHoldover,
                      tables := s.tablesOf n.id }
  let s := s.setHq { s.hq with frames := KMap.set (fun _ => 0) s.hq.frames n.stream i.nextNum }
  (s.setIntake n.id { i with frames := i.frames ++ [f], nextNum := (i.nextNum + 1) % 2 ^ 32, fcnt := some fcnt }).dropDone n

/-- R199: an intake node starts: its stream and frame numbers take the values of its parameter block. -/
def State.intakeStart (s : State) (n : Node) : State :=
  let s := s.setHq { s.hq with seqs := KMap.set (fun _ => 0) s.hq.seqs n.stream (n.par 8 4) }
  s.setIntake n.id { nextNum := n.par 4 4 }

/-- R89: an intake node stops: the tiles it was building are discarded and counted. -/
def State.intakeStop (s : State) (n : Node) : State :=
  let i := s.intake n.id
  let p := s.framesPix n
  let some_ := (i.frames.map (fun f => f.nextCol)).foldl (· + ·) 0
  let rows := (i.rowsHeld p.tileH).length
  let parts := (i.frames.filter (fun f => !f.metaBytes.isEmpty)).length
  (s.inc F.STR_DROP_COUNT_COUNT (rows * p.cols - some_ + i.metaOut.length + parts)).setIntakes (KMap.erase s.intakes (fun k => k == n.id))

end Sys2Proof.Machine
end

