-- ==== Sys2Proof/Machine/NodeLife.lean ====
section
/-! DEFINITION. What starts and stops with a node (R88, R89): each kind's own start and stop, the tasks of a removed node, and the
tiles of a removed edge. -/

namespace Sys2Proof.Machine

/-! ### Nodes -/

/-- R88: a new node starts: its stream's numbers are those of its parameter block, 0 where it names none, and its block resets the
node's state. `kept` lists the streams that surviving nodes produce. (DEDUCED, log entry 26) -/
def State.startNode (s : State) (kept : List Nat) (n : Node) : State :=
  let s := if n.stream = 0xFFFF ∨ kept.contains n.stream then s
    else s.setHq { s.hq with seqs := KMap.set (fun _ => 0) s.hq.seqs n.stream 0 }
  match n.kind with
  | 1 => s.intakeStart n
  | 4 => s.encStart n
  | 5 => s.decStart n
  | 6 => s.cmpStart n
  | 7 => s.netStart n
  | 8 => s.audStart n
  | 9 => s.writerStart n
  | 0xA | 0xB => s.hifStart n
  | _ => s

/-- R89: a removed node that runs without tasks stops; what it was building is discarded and counted. -/
def State.stopNode (s : State) (n : Node) : State :=
  match n.kind with
  | 1 => s.intakeStop n
  | 4 => s.encStop n
  | 5 => s.decStop
  | 6 => s.cmpStop n
  | 7 => s.netStop n
  | 8 => s.audNodeStop n
  | 9 => s.writerStop
  | 0xA | 0xB => s.hifStop n
  | _ => s.setEng { s.eng with aprons := KMap.erase s.eng.aprons (fun k => k == n.id) }

/-- R89, R154: the tasks of a removed node that are not running are cancelled. -/
def State.cancelNode (s : State) (n : Node) : State :=
  s.each ((s.tasksOf n.id).filter (fun e => e.2.state != .running)) (fun e s => s.cancelTask e.1)

/-- R89: a fault that an encoder core or a host-side channel holds for a removed node goes with it. (DEDUCED, log entry 109) -/
def State.dropFaults (s : State) (n : Node) : State :=
  let mine (c node : Nat) : Bool := decide (3 ≤ c) && node == n.id
  let s := s.setXlt { s.xlt with held := s.xlt.held.filter (fun h => !mine h.fr.rclass h.fr.node) }
  (s.setXlt { s.xlt with ctxs := s.xlt.ctxs.filter (fun e => !mine e.2.rclass e.2.node) }).noteCtx

/-- R89: remove a node. (DEDUCED, log entry 109) -/
def State.removeNode (s : State) (n : Node) : State := ((s.cancelNode n).stopNode n).dropFaults n

/-! ### Edges -/

/-- R89: the entries of queue `q` that a task holds are gone. -/
def Task.withoutQueue (t : Task) (q : Nat) : Task :=
  { t with claims := t.claims.filter (fun c => c.qid != q),
           outs := t.outs.map (fun o =>
             { o with ents := o.ents.filter (fun e => e.1 != q), lost := o.lost + (o.ents.filter (fun e => e.1 == q)).length }) }

/-- R88: the tiles a queue holds: committed entries that are neither popped nor void. -/
def State.tilesIn (s : State) (q : Nat) : Nat :=
  let d := s.queue q
  (((List.range d.count).map (fun i => d.ix (d.head + i))).filter
    (fun i => !d.popped.contains i && !(s.ringEntry d i).void)).length

/-- R88: a channel no longer holds entries of queue `q`, or the tile it was reading from it. -/
def State.chanWithoutQueue (s : State) (c q : Nat) : State :=
  let ch := s.chan c
  if ch.out && ch.qid == q && ch.off != 0 then s.setChan c { ch with off := 0 }
  else if ch.ents.any (fun e => e.1 == q) then s.setChan c { ch with ents := ch.ents.filter (fun e => e.1 != q) }
  else s

/-- R88, R95: a removed edge: its tiles are dropped and counted, and its queue is FREE. -/
def State.removeEdge (s : State) (q : Nat) : State :=
  let s := s.inc F.STR_DROP_COUNT_COUNT (s.tilesIn q)
  let s := if (s.queue q).halted then s.unhaltEdge q else s
  let s := s.each s.taskList (fun e s => s.setTask e.1 (some (e.2.withoutQueue q)))
  let s := s.setHq { s.hq with waiting := (s.hq.waiting.filter (fun r => r.qid != q)).map (fun r => { r with copies := r.copies.erase q }),
                               puts := s.hq.puts.filter (fun r => !(ResReq.queues r).contains q),
                               grants := s.hq.grants.filter (fun g => g.qid != q) }
  let s := s.each (List.range 32) (fun c s => s.chanWithoutQueue c q)
  (s.setEdgeSeal q {}).setQueue q {}

/-- R80, R95, R99: the descriptor of a new edge of image `i` in the state `st`, with an empty ring.
(DEDUCED, log entries 26, 106) -/
def State.newQueue (s : State) (i : Image) (e : Edge) (st : Nat) : Queue :=
  let node (id : Nat) : Node := (i.nodes.find? (fun n => n.id == id)).getD {}
  let p := node e.prod
  let c := node e.cons
  let fmt := ((findTable i.tables p.pixfmt).map (fun t => pixFmtOf (s.tableBody t))).getD {}
  let need := if c.kind = 3 then 1 else if c.kind = 2 then ((s.kernel? c.op).map (fun k => k.need.getD e.consPort 0)).getD 0 else 0
  let room := if p.kind = 3 then 1 else if p.kind = 2 then ((s.kernel? p.op).map (fun k => k.room.getD e.prodPort 0)).getD 0 else 0
  { state := st, recording := e.recording, policy := e.policy, owned := true, entries := e.entries, need := need, room := room,
    base := ((i.bufs.find? (fun b => b.id == e.ringBuf)).map (fun b => b.base)).getD 0, stride := (32 + fmt.maxPayload) / 16,
    notify := if c.kind = 0xB then c.par 0 2 ||| 0x4000 else 0 }

end Sys2Proof.Machine
end

