-- ==== Sys2Proof/Machine/ImageParse.lean ====
section
/-! DEFINITION. Reading an image's bytes (R45 to R74): its header, directory, sections, records and tables, each with its
place, and the checks that stop at the first failing code (R77). -/

namespace Sys2Proof.Machine

/-- R77: a failure: its status code, the directory index of its section (63 for the header and the directory) and the byte
offset. -/
structure Fail where
  code : Nat := 0
  sec : Nat := 63
  off : Nat := 0
  deriving DecidableEq, Repr

/-- R77: the order of failures: by code, then section index, then byte offset. (DEDUCED, log entry 102) -/
def Fail.before (a b : Fail) : Bool :=
  decide (a.code < b.code) || (a.code == b.code && (decide (a.sec < b.sec) || (a.sec == b.sec && decide (a.off < b.off))))

/-- R77: the failure that is reported. (DEDUCED, log entry 102) -/
def firstFail (l : List Fail) : Option Fail :=
  l.foldl (fun o f => match o with
    | none => some f
    | some g => if f.before g then some f else some g) none

/-- The failures of a record: the conditions that hold, each with the offset of its field. -/
def failsOf (code sec base : Nat) (l : List (Bool × Nat)) : List Fail :=
  (l.filter (fun e => e.1)).map (fun e => ⟨code, sec, base + e.2⟩)

/-- The first nonzero byte of `[lo, hi)`. -/
def nonZero (b : List Byte) (lo hi : Nat) : Option Nat := (List.range' lo (hi - lo)).find? (fun i => b.getD i 0 != 0)

/-- R10, R45: reserved bytes `[lo, hi)` that are not zero. -/
def reservedAt (b : List Byte) (lo hi : Nat) : List (Bool × Nat) := (nonZero b lo hi).toList.map (fun i => (true, i))

/-! ### Header and directory (R45 to R49) -/

/-- R48: a directory entry, with its index. -/
structure Sect where
  ix : Nat := 0
  typ : Nat := 0
  count : Nat := 0
  off : Nat := 0
  len : Nat := 0
  crc : Nat := 0
  deriving DecidableEq, Repr

/-- R48: the directory entries. -/
def sectsOf (dir : List Byte) : List Sect :=
  (List.range (dir.length / 16)).map (fun k =>
    { ix := k, typ := leAt dir (16 * k) 1, count := leAt dir (16 * k + 2) 2, off := leAt dir (16 * k + 4) 4,
      len := leAt dir (16 * k + 8) 4, crc := leAt dir (16 * k + 12) 4 })

/-- R48: the record size of a section type, 0 for the others. -/
def recSize (typ : Nat) : Nat :=
  match typ with
  | 1 => 64 | 2 => 32 | 3 => 32 | 4 => 8 | 5 => 16 | _ => 0

/-- R45: MAGIC. -/
def magicFails (h : List Byte) : List Fail := failsOf 0x0F01 63 0 [(leAt h 0 4 != 0x44545344, 0)]

/-- R45: FORMAT_VERSION, HEADER_LEN, ARCH and ARCH_VERSION. -/
def State.versionFails (s : State) (h : List Byte) : List Fail :=
  failsOf 0x0F02 63 0 [(leAt h 4 2 != 1, 4), (leAt h 6 2 != 64, 6), (leAt h 8 1 != s.rd F.FUSE_DISC_ID_ARCH, 8),
    (decide (s.rd F.FUSE_DISC_ID_ARCH_VERSION < leAt h 9 1), 9)]

/-- R77: is the whole directory within STR_IMG_LEN and FILE_LEN? (DEDUCED, log entry 101) -/
def extentFails (h : List Byte) (len : Nat) : List Fail :=
  let n := leAt h 20 2
  let fin := leAt h 24 4 + 16 * n
  if n = 0 ∨ 64 < n then [⟨0x0F04, 63, 20⟩]
  else if len < fin ∨ leAt h 16 4 < fin then [⟨0x0F04, 63, 24⟩]
  else []

/-- R49: how many sections of a type an image may carry: least and most. -/
def sectCount (tableOnly signed : Bool) (typ : Nat) : Nat × Nat :=
  match typ with
  | 6 => if tableOnly then (1, 64) else (0, 64)
  | 7 => (0, if tableOnly then 0 else 1)
  | 0x7F => if signed then (1, 1) else (0, 0)
  | _ => if tableOnly then (0, 0) else (1, 1)

/-- R48, R49: the failures of one directory entry, whose bytes start at `base` in the file. -/
def entryFails (dir : List Byte) (dirOff fileLen : Nat) (all : List Sect) (e : Sect) : List Fail :=
  let fin := e.off + e.len
  let before := all.take e.ix
  let clash := e.off % 16 != 0 || decide (fileLen < fin) || decide (e.off < 64) ||
    (decide (e.off < dirOff + dir.length) && decide (dirOff < fin)) ||
    before.any (fun x => decide (e.off < x.off + x.len) && decide (x.off < fin))
  failsOf 0x0F04 63 (dirOff + 16 * e.ix)
    [(!([1, 2, 3, 4, 5, 6, 7, 0x7F].contains e.typ), 0), (dir.getD (16 * e.ix + 1) 0 != 0, 1),
     (decide (e.len < e.count * recSize e.typ), 2), (clash, 4),
     (e.len % 16 != 0 || e.len == 0 || decide (0x4000000 < e.len), 8)]

/-- R49: sections of a type that are too many or missing. (DESIGN CHOICE, log entry 137) -/
def countFails (dirOff : Nat) (all : List Sect) (tableOnly signed : Bool) (typ : Nat) : List Fail :=
  let l := all.filter (fun e => e.typ == typ)
  let r := sectCount tableOnly signed typ
  failsOf 0x0F04 63 0 [(decide (l.length < r.1), 20), (decide (r.2 < l.length), dirOff + 16 * (l.getD r.2 {}).ix)]

/-- R49: a SIGNATURE section is the last entry and the last section. -/
def lastFails (dirOff : Nat) (all : List Sect) : List Fail :=
  (all.filter (fun e => e.typ == 0x7F)).flatMap (fun e =>
    failsOf 0x0F04 63 (dirOff + 16 * e.ix)
      [(e.ix + 1 != all.length, 0), (all.any (fun x => decide (e.off < x.off)), 4)])

/-- R45, R48, R49: the failures of the header's fields and the directory. -/
def directoryFails (h dir : List Byte) (len : Nat) : List Fail :=
  let fileLen := leAt h 16 4
  let dirOff := leAt h 24 4
  let all := sectsOf dir
  let tableOnly := leAt h 10 2 % 2 == 1
  let signed := leAt h 10 2 / 2 % 2 == 1
  failsOf 0x0F04 63 0
    ([(decide (4 ≤ leAt h 10 1), 10), (leAt h 11 1 != 0, 11)] ++ reservedAt h 22 24 ++ reservedAt h 48 56 ++
     [(fileLen % 16 != 0 || decide (0x10000000 < fileLen) || decide (len < fileLen), 16), (decide (dirOff < 64), 24)]) ++
  all.flatMap (entryFails dir dirOff fileLen all) ++
  [1, 2, 3, 4, 5, 6, 7, 0x7F].flatMap (countFails dirOff all tableOnly signed) ++ lastFails dirOff all

/-! ### Sections (R46, R48, R74, R75) -/

/-- The bytes of a section of the image at `addr`. -/
def State.sectBytes (s : State) (addr : Nat) (e : Sect) : List Byte := s.physRead (addr + e.off) e.len

/-- R46, R48: sections whose CRC mismatches. (DESIGN CHOICE, log entry 137) -/
def State.crcFails (s : State) (addr : Nat) (all : List Sect) : List Fail :=
  all.flatMap (fun e => failsOf 0x0F05 e.ix 0 [(crc 0 0 (s.sectBytes addr e) != e.crc, 0)])

/-- R75: the owner signature. (DEDUCED, log entry 101) -/
def State.signatureFails (s : State) (addr dirOff : Nat) (all : List Sect) : List Fail :=
  let lock := s.on F.FUSE_LOCKS_OWNER_LOCK
  match all.find? (fun e => e.typ == 0x7F) with
  | none => if lock then [⟨0x0F06, 63, 10⟩] else []
  | some e =>
    let b := s.sectBytes addr e
    let key := b.take 32
    if e.len ≠ 128 then [⟨0x0F07, 63, dirOff + 16 * e.ix + 8⟩]
    else failsOf 0x0F07 e.ix 0
      [(lock && !s.ownerKey key, 0), (!Config.ed25519 key (Config.sha256 (s.physRead addr e.off)) ((b.drop 32).take 64), 32)]

/-! ### Records (R50 to R61) -/

/-- R50: a node record and its parameter block. -/
def nodeOf (r params : List Byte) : Node :=
  { id := leAt r 0 2, kind := leAt r 2 1, prio := leAt r 3 1, inPorts := leAt r 4 1, outPorts := leAt r 5 1,
    stream := leAt r 6 2, op := leAt r 8 4, pixfmt := leAt r 12 2, res := leAt r 16 16,
    tref := (List.range 8).map (fun k => leAt r (32 + 2 * k) 2), paramOff := leAt r 48 4, paramLen := leAt r 52 4,
    params := params }

/-- R53: an edge record. -/
def edgeOf (r : List Byte) : Edge :=
  { qid := leAt r 0 2, prod := leAt r 2 2, prodPort := leAt r 4 1, consPort := leAt r 5 1, cons := leAt r 6 2,
    stream := leAt r 8 2, format := leAt r 10 2, entries := leAt r 12 2, ringBuf := leAt r 14 2, substBuf := leAt r 16 2,
    policy := leAt r 18 1 % 4, recording := leAt r 18 1 / 4 % 2 == 1, fill := leAt r 20 4 }

/-- R56: a buffer record. -/
def bufOf (r : List Byte) : Buf :=
  { id := leAt r 0 2, region := leAt r 2 1, purpose := leAt r 3 1, base := leAt r 8 5, size := leAt r 16 4,
    space := leAt r 20 1, vbase := leAt r 24 6 }

/-- R59: an island record. -/
def islOf (r : List Byte) : Isl := { id := leAt r 0 1, keep := leAt r 1 1 % 2 == 1, idle := leAt r 4 4 }

/-- R61: a timebase record. -/
def tbOf (r : List Byte) : Timebase :=
  { id := leAt r 0 1, kind := leAt r 1 1, source := leAt r 2 2, period := leAt r 4 4, phase := leAt r 8 4 }

/-- R63: a table of an image: its section and the offset of its header there. -/
structure Tab where
  sec : Nat := 0
  off : Nat := 0
  version : Nat := 0
  t : Table := {}
  body : List Byte := []
  deriving DecidableEq, Repr

/-- R63: the tables of a TABLES section, one after another, and the failure at which their sequence ends, if any; a nonzero padding byte
is a failure too. (DESIGN CHOICE, log entry 137) -/
def tabsOf (addr : Nat) (e : Sect) (b : List Byte) (pos : Nat) : Nat → List Tab × List Fail
  | 0 => ([], [])
  | n + 1 =>
    if e.len < pos + 16 then ([], [⟨0x0F10, e.ix, pos⟩])
    else
      let len := leAt b (pos + 4) 4
      let fin := pos + 16 + roundUp len 16
      if e.len < fin then ([], [⟨0x0F10, e.ix, pos + 4⟩])
      else
        let t : Table := { id := leAt b pos 2, kind := leAt b (pos + 2) 1, p0 := leAt b (pos + 8) 4, p1 := leAt b (pos + 12) 4,
                           bodyLen := len, addr := addr + e.off + pos + 16 }
        let x : Tab := { sec := e.ix, off := pos, version := leAt b (pos + 3) 1, t := t, body := (b.drop (pos + 16)).take len }
        let r := tabsOf addr e b fin n
        let pad := (nonZero b (pos + 16 + len) fin).toList.map (fun i => ({ code := 0x0F10, sec := e.ix, off := i } : Fail))
        (x :: r.1, pad ++ r.2)

/-- An image as read, with the sections its records stand in. -/
structure View where
  img : Image := {}
  tabs : List Tab := []
  tabFails : List Fail := []
  /-- The records' bytes, by section type 1 to 5. -/
  recs : KMap (List (List Byte)) := []
  secs : KMap Nat := []
  parBytes : List Byte := []
  deriving DecidableEq, Repr

/-- The records of a section type. -/
def View.recsOf (v : View) (typ : Nat) : List (List Byte) := KMap.get (fun _ => []) v.recs typ

/-- The directory index of the section of a type. -/
def View.sec (v : View) (typ : Nat) : Nat := KMap.get (fun _ => 63) v.secs typ

/-- Cut a byte string into `n` records of `size` bytes. -/
def cutRecs (size : Nat) : Nat → List Byte → List (List Byte)
  | 0, _ => []
  | n + 1, b => b.take size :: cutRecs size n (b.drop size)

/-- Read the image at `addr` with header `h` and directory `all`. -/
def State.viewOf (s : State) (addr : Nat) (h : List Byte) (all : List Sect) : View :=
  let one (typ : Nat) : Option Sect := all.find? (fun e => e.typ == typ)
  let recs := [1, 2, 3, 4, 5].foldl (fun m t => match one t with
    | some e => KMap.set (fun _ => []) m t (cutRecs (recSize t) e.count (s.sectBytes addr e))
    | none => m) ([] : KMap (List (List Byte)))
  let secs := [1, 2, 3, 4, 5, 7].foldl (fun m t => match one t with
    | some e => KMap.set (fun _ => 63) m t e.ix
    | none => m) ([] : KMap Nat)
  let par := match one 7 with
    | some e => s.sectBytes addr e
    | none => []
  let tabs := (all.filter (fun e => e.typ == 6)).map (fun e => tabsOf addr e (s.sectBytes addr e) 0 e.count)
  let get (t : Nat) : List (List Byte) := KMap.get (fun _ => []) recs t
  let tl := tabs.flatMap (fun x => x.1)
  { img :=
      { addr := addr, len := leAt h 16 4, id := leAt h 12 4, tableOnly := leAt h 10 2 % 2 == 1,
        nodes := (get 1).map (fun r => nodeOf r ((par.drop (leAt r 48 4)).take (leAt r 52 4))),
        edges := (get 2).map edgeOf, bufs := (get 3).map bufOf, isls := (get 4).map islOf, tbs := (get 5).map tbOf,
        tables := tl.map (fun x => x.t) },
    tabs := tl, tabFails := tabs.flatMap (fun x => x.2), recs := recs, secs := secs, parBytes := par }

/-! ### Tables (R64 to R72) -/

/-- R64: reserved bits of a parameter, those from bit `keep` on, located at their byte. -/
def paramBits (v keep off : Nat) : List (Bool × Nat) :=
  ((List.range 32).find? (fun i => decide (keep ≤ i) && v / 2 ^ i % 2 == 1)).toList.map (fun i => (true, off + i / 8))

/-- R65, R66: the first 16-bit entry above `2 ^ w - 1`. -/
def overEntry (body : List Byte) (w : Nat) : List (Bool × Nat) :=
  ((List.range (body.length / 2)).find? (fun i => decide (2 ^ w ≤ leAt body (2 * i) 2))).toList.map (fun i => (true, 16 + 2 * i))

/-- R68: the first bad coefficient, and the first phase that does not sum to 1,024. -/
def polyFails (taps : Nat) (body : List Byte) : List (Bool × Nat) :=
  let at_ (i : Nat) : Int := signed 16 (leAt body (2 * i) 2)
  ((List.range (64 * taps)).find? (fun i => decide (at_ i < -2048) || decide (2047 < at_ i))).toList.map (fun i => (true, 16 + 2 * i)) ++
  ((List.range 64).find? (fun p => ((List.range taps).foldl (fun a k => a + at_ (p * taps + k)) 0) != 1024)).toList.map
    (fun p => (true, 16 + 2 * taps * p))

/-- R69, R208: a bad entry of a state machine. -/
def stateFails (states : Nat) (body : List Byte) : List (Bool × Nat) :=
  let next (o : Nat) : Bool := decide (states ≤ leAt body o 2) && leAt body o 2 != 0xFFFF
  (List.range states).flatMap (fun i =>
    let b := 16 * i
    [(decide (7 < leAt body b 1), 16 + b), (decide (3 < leAt body (b + 1) 1), 17 + b), (next (b + 2), 18 + b), (next (b + 4), 20 + b)])

/-- R70: the significant width of a picture format. -/
def sigWidth (format : Nat) : Nat :=
  if rawBits format ≠ 0 then rawBits format else if format = 0x0210 then 10 else if format = 0x0220 then 12 else 8

/-- R70, R71: the fields of a PIXFMT body. -/
def pixFmtFails (body : List Byte) : List (Bool × Nat) :=
  let p := pixFmtOf body
  let out (lo hi v : Nat) : Bool := decide (v < lo) || decide (hi < v)
  let tile (v : Nat) : Bool := v % 8 != 0 || out 8 256 v
  reservedAt (List.replicate 16 0 ++ body) 34 48 ++
  (if !formatCodes.contains p.format then [(true, 16)]
   else if isPicture p.format then
     [(tile p.tileW || decide (65536 < p.maxPayload), 18), (tile p.tileH, 20), (out 1 32768 p.picW, 22), (out 1 32768 p.picH, 24),
      (p.cols != ceilDiv p.picW p.tileW, 26), (p.rows != ceilDiv p.picH p.tileH, 28), (decide (4 < p.cfa), 30),
      (out 1 (sigWidth p.format) p.depth, 31), (p.layout != 0, 33)]
   else
     [(p.tileW != 0, 18), (p.tileH != 0, 20), (out 1 4096 p.picW, 22), (p.picH != 1, 24), (p.cols == 0, 26), (p.rows != 1, 28),
      (p.cfa != 0, 30), (if p.format = 0x0500 then p.layout != 1 && decide (p.layout < 0x80) else p.layout != 0, 33)])

/-- R64: the failures of a table by its kind, located from its header. -/
def kindFails (t : Table) (body : List Byte) : List (Bool × Nat) :=
  let b (k : Nat) : Nat := t.p0 / 256 ^ k % 256
  let hi := t.p0 / 0x10000
  let out (lo h v : Nat) : Bool := decide (v < lo) || decide (h < v)
  let k := Nat.log2 (hi - 1)
  match t.kind with
  | 1 =>
    [(out 8 16 (b 0), 8), (out 8 16 (b 1), 9), (hi != 2 ^ k + 1 || out 4 12 k || decide (b 0 < k), 10),
     (out 1 4 (t.p1 % 256), 12), (t.bodyLen != t.p1 % 256 * hi * 2, 4)] ++ paramBits t.p1 8 12 ++ overEntry body (b 1)
  | 2 =>
    [(!([17, 33, 65].contains (b 0)), 8), (out 10 16 (b 1), 9), (out 10 16 (b 2), 10), (t.bodyLen != b 0 ^ 3 * 6, 4)] ++
      paramBits t.p0 24 8 ++ paramBits t.p1 0 12 ++ overEntry body (b 1)
  | 3 => [(t.bodyLen != 48, 4)] ++ paramBits t.p0 1 8 ++ paramBits t.p1 0 12
  | 4 =>
    let taps := if b 2 % 2 = 1 then 6 else 8
    [(b 0 != taps, 8), (b 1 != 64, 9), (t.bodyLen != 64 * b 0 * 2, 4)] ++ paramBits t.p0 17 8 ++ paramBits t.p1 0 12 ++
      polyFails (b 0) body
  | 5 =>
    [(out 1 1024 (t.p0 % 0x10000), 8), (decide (t.p0 % 0x10000 ≤ hi), 10), (t.p1 % 256 != 0x10, 12),
     (t.bodyLen != t.p0 % 0x10000 * 16, 4)] ++ paramBits t.p1 8 12 ++ stateFails (min 1024 (t.p0 % 0x10000)) body
  | 6 => [(t.bodyLen != 32, 4)] ++ paramBits t.p0 0 8 ++ paramBits t.p1 0 12 ++ pixFmtFails body
  | 7 =>
    [(out 1 256 (t.p0 % 0x10000), 8), (t.bodyLen != t.p0 % 0x10000 * 2, 4)] ++ paramBits t.p0 16 8 ++ paramBits t.p1 0 12 ++
      [(body.all (· == 0), 16)]
  | _ => []

/-- R63, R64, R92: the failures of a table. (DEDUCED, log entry 103) -/
def Tab.fails (x : Tab) : List Fail :=
  failsOf 0x0F10 x.sec x.off ([(x.t.id == 0 || x.t.id == 0xFFFF, 0), (x.version != 1, 3)] ++ kindFails x.t x.body) ++
  failsOf 0x0F09 x.sec x.off [(x.t.kind == 0 || decide (7 < x.t.kind), 2)]

/-- The descriptor in a table of the image, when the table exists and is a sound PIXFMT table. -/
def View.pf? (v : View) (id : Nat) : Option PixFmt :=
  match v.tabs.find? (fun x => x.t.id == id) with
  | some x => if x.t.kind = 6 ∧ x.fails.isEmpty then some (pixFmtOf x.body) else none
  | none => none

end Sys2Proof.Machine
end

