-- ==== Sys2Proof/Machine/NodeCheck.lean ====
section
/-! DEFINITION. What validation asks of each node kind: its resources (R51), its ports, table slots and parameter block, by the
rules of the chapter of the block that runs it. -/

namespace Sys2Proof.Machine

/-- A condition that refuses a node, and where: a byte of its record, or (`par`) of its parameter block. -/
structure NFault where
  bad : Bool := false
  par : Bool := false
  off : Nat := 0
  deriving DecidableEq, Repr

/-- Conditions on record fields. -/
def recFaults (l : List (Bool × Nat)) : List NFault := l.map (fun e => { bad := e.1, off := e.2 })

/-- Conditions on parameter-block fields. -/
def parFaults (l : List (Bool × Nat)) : List NFault := l.map (fun e => { bad := e.1, par := true, off := e.2 })

/-- Outside `[lo, hi]`. -/
def outside (lo hi v : Nat) : Bool := decide (v < lo) || decide (hi < v)

/-! ### Resources (R51) -/

/-- R51: is byte `i` of RESOURCE within the table for a kind? -/
def resByteOk (kind i b : Nat) : Bool :=
  match kind, i with
  | 1, 0 => decide (b < 16)
  | 2, _ => true
  | 3, 0 | 3, 1 => true
  | 4, 0 => decide (b < 16)
  | 4, 1 => decide (b < 32)
  | 5, 0 => b == 1
  | 6, 0 => decide (b < 4)
  | 6, 1 => decide (2 ≤ b) && decide (b ≤ 8)
  | 7, 0 => true
  | 8, 0 => decide (b < 4)
  | 8, 1 => decide (b < 2)
  | 9, 0 => decide (b < 16)
  | 0xA, 0 | 0xB, 0 => b != 0
  | _, _ => b == 0

/-- R51: a RESOURCE field outside its range, or an empty engine or mover mask. -/
def resFaults (n : Node) : List (Bool × Nat) :=
  ((List.range 16).find? (fun i => !resByteOk n.kind i (n.res / 256 ^ i % 256))).toList.map (fun i => (true, 16 + i)) ++
  [((n.kind == 2 || n.kind == 3) && n.res == 0, 16)]

/-- R51: the exclusive resources a node claims, each as a number of its own. -/
def exclusives (n : Node) : List Nat :=
  let b (i : Nat) : Nat := n.res / 256 ^ i % 256
  let bit (base : Nat) : List Nat := ((List.range 4).filter (fun k => b 0 / 2 ^ k % 2 == 1)).map (fun k => base + k)
  match n.kind with
  | 1 => bit 0x100
  | 4 => [0x400 + b 1]
  | 5 => [0x500]
  | 6 => [0x600 + b 0]
  | 8 => [0x800 + 2 * b 0 + b 1]
  | 9 => bit 0x900
  | _ => []

/-- R60: the islands a node's RESOURCE touches, each with the byte of its record that names it. -/
def nodeIslands (n : Node) : List (Nat × Nat) :=
  match n.kind with
  | 2 => n.clusters.map (fun c => (c, 16 + c))
  | 4 => n.cores.map (fun k => (0x10 + k, 16))
  | 5 => [(0x14, 16)]
  | 6 => [(0x18 + n.res % 256 % 4, 16)]
  | _ => []

/-! ### Table slots (R73) -/

/-- R73: the table kind a node's slot accepts: none means any (R221), 0 means no table at all. -/
def slotKind (n : Node) (k : Nat) : Option Nat :=
  match n.kind with
  | 2 | 3 => none
  | 4 => some (if k = 0 then 7 else if k = 7 then 6 else 0)
  | 6 => some (if k < n.res / 256 % 256 then 6 else 0)
  | 7 => some (if k < n.inPorts then 6 else 0)
  | _ => some 0

/-- R73: the failures of a node's table references. (DEDUCED, log entry 103) -/
def View.slotFaults (v : View) (n : Node) : List (Bool × Nat) :=
  let find (id : Nat) : Option Table := v.img.tables.find? (fun t => t.id == id)
  let kindIs (id k : Nat) : Bool := match find id with
    | some t => t.kind == k
    | none => false
  [((n.pixfmt != 0 && !kindIs n.pixfmt 6) || (n.pixfmt == 0 && n.outPorts != 0), 12)] ++
  (List.range 8).map (fun k =>
    let id := n.tref.getD k 0
    let ok := id == 0 || (match slotKind n k with
      | none => (find id).isSome
      | some x => kindIs id x)
    (!ok, 32 + 2 * k))

/-! ### Parameter blocks -/

/-- A buffer of the image by its ID. -/
def View.buf (v : View) (id : Nat) : Option Buf := v.img.bufs.find? (fun b => b.id == id)

/-- A buffer with a region among `regions`, a purpose, SPACE 0 and at least `size` bytes? -/
def View.bufOk (v : View) (id : Nat) (regions : List Nat) (purpose size : Nat) : Bool :=
  match v.buf id with
  | some b => regions.contains b.region && b.purpose == purpose && b.space == 0 && decide (size ≤ b.size)
  | none => false

/-- The edge joined to an input port, and the descriptor of the stream it carries. -/
def View.input (v : View) (n : Node) (port : Nat) : Option Edge := v.img.inEdge n.id port

/-- The descriptor of the producer of an edge. (DEDUCED, log entry 104) -/
def View.edgePf (v : View) (e : Edge) : Option PixFmt :=
  match v.img.nodes.find? (fun n => n.id == e.prod) with
  | some n => v.pf? n.pixfmt
  | none => none

/-- Does the input port of a node carry another format than those listed? -/
def View.inputNot (v : View) (n : Node) (port : Nat) (formats : List Nat) : Bool :=
  match v.input n port with
  | some e => !formats.contains e.format
  | none => false

/-- R268, R308, R337: does a slot name a descriptor that is not one of the stream at `port`, or not of these formats?
(DEDUCED, log entry 104) -/
def View.inputPf (v : View) (n : Node) (slot port : Nat) (ok : PixFmt → Bool) : Bool :=
  match v.pf? (n.tref.getD slot 0) with
  | none => false
  | some p => !ok p || (match (v.input n port).bind (fun e => v.edgePf e) with
    | some q => p != q
    | none => false)

/-- R198, R204: SENSOR_INTAKE. -/
def View.intakeFaults (v : View) (n : Node) : List NFault :=
  let r (g : Nat) : Nat × Nat := n.xrange g
  let gs := n.groups
  let total := (gs.map (fun g => (r g).2 - (r g).1)).sum
  let disjoint := gs.all (fun g => gs.all (fun h => decide (h ≤ g) || decide ((r g).2 ≤ (r h).1) || decide ((r h).2 ≤ (r g).1)))
  let pf := v.pf? n.pixfmt
  let w := (pf.map (fun p => p.picW)).getD total
  let size := (pf.map (fun p => 2 * p.cols * (32 + p.maxPayload))).getD 0
  let asmOk := match v.buf (n.par 2 2) with
    | some b => decide (b.region < 2) && decide (size ≤ b.size)
    | none => false
  if n.params.length ≠ 32 then recFaults [(true, 52)]
  else parFaults ([(decide (15 < n.par 0 1), 0), (decide (1 < n.par 1 1) || (n.takesMeta && decide (n.outPorts < 2)), 1), (!asmOk, 2)] ++
    reservedAt n.params 12 16 ++
    (List.range 4).map (fun g =>
      (if gs.contains g then (r g).1 % 16 != 0 || decide ((r g).2 < (r g).1) || decide (w < (r g).2)
       else (r g).1 != 0 || (r g).2 != 0, 16 + 4 * g)) ++
    [(!disjoint || total != w, 16)])

/-- R180: ENGINE_OP; a port that differs is refused by `portFails`. -/
def State.engineFaults (s : State) (n : Node) : List NFault :=
  let k := s.kernel? n.op
  let args := n.params.length - 16
  recFaults [(k.isNone, 8), (outside 1 15 n.params.length == false, 52),
    ((k.map (fun k => decide (k.lmSize < k.argLm + 32 + args))).getD false, 52)] ++
  (if n.params.length < 16 then []
   else parFaults ([(decide (1 < n.par 1 1), 1), (n.par 8 8 % 65536 != 0, 8)] ++ reservedAt n.params 2 8 ++ reservedAt n.params 14 16))

/-- R268, R269, R273: the stream's geometry and the level's limits. -/
def encGeometry (n : Node) (p : PixFmt) : List (Bool × Nat) :=
  let cores := n.cores.length
  let split := decide (1 < cores)
  let lim := levelLimits (n.par 3 1)
  let cols := p.ctuCols
  let rows := p.ctuRows
  let colW (c : Nat) : Nat := min p.picW (64 * (colStart cols cores c + colWidth cols cores c)) - 64 * colStart cols cores c
  let widths := if split then (List.range cores).map colW else [p.picW]
  let tileRows := ceilDiv rows (max 1 (n.par 7 1))
  let refs := n.par 14 1 + n.par 15 1
  let inRows := n.par 40 2
  let least := if n.par 5 1 = 1 then rows + 1 else if split then 2 * n.par 7 1 else 2
  [(decide (lim.1 < p.picW * p.picH) || decide (lim.2.1 * n.par 24 4 < p.picW * p.picH * n.par 20 4), 3),
   (split && (decide (lim.2.2.2.1 < cores) || decide (lim.2.2.1 < tileRows) || widths.any (fun w => decide (w < 256))), 7),
   (decide (inRows < least), 40),
   (decide (4194304 < refs * (2 * n.par 18 2 + 64) * (widths.foldl max 0 + 2 * n.par 16 2) * 2), 16)]

/-- R269: the bytes REF_BUF must hold. -/
def encBufSize (n : Node) (p : PixFmt) : Nat :=
  n.par 40 2 * p.ctuCols * 16384 +
    (n.par 14 1 + n.par 15 1 + 1) * p.ctuCols * p.ctuRows * (if n.par 2 1 = 4 then 10368 else 7808)

/-- R291, R292: the rate-control block. -/
def View.rateFaults (v : View) (n : Node) (p : PixFmt) : List NFault :=
  let weight := match v.img.tables.find? (fun t => t.id == n.tref.getD 0 0) with
    | some t => t.kind == 7
    | none => false
  let rated := decide (n.rateMode < 2)
  let lo := n.par 68 1
  let hi := n.par 69 1
  recFaults [(!weight && rated, 32)] ++
  parFaults ([(decide (2 < n.rateMode), 64), (decide (51 < lo), 68), (outside lo 51 hi, 69), (outside lo hi (n.par 70 1), 70),
      (outside lo hi (n.par 71 1), 71)] ++
    reservedAt n.params 88 128 ++
    (if rated then [(outside 16 128 (n.par 65 1), 65), (n.par 66 1 == 0, 66), (outside 1 3 (n.par 67 1), 67)] ++
       n.rateFields p (n.par 72 4) (n.par 76 4) (n.par 80 4) else []))

/-- R268, R269: ENC_STREAM. (DEDUCED, log entry 103) -/
def View.encFaults (v : View) (n : Node) : List NFault :=
  let b (o : Nat) : Nat := n.par o 1
  let split := decide (1 < n.cores.length)
  recFaults ([(n.inPorts != 1, 4), (n.outPorts != 1, 5), (v.inputNot n 0 [0x0210], 46), (n.tref.getD 7 0 == 0, 46),
    (v.inputPf n 7 0 (fun p => p.format == 0x0210 && p.tileW == 64 && p.tileH == 64 && p.picW % 8 == 0 && p.picH % 8 == 0), 46),
    (((v.pf? n.pixfmt).map (fun p => p.format != 0x0310)).getD false, 12)] ++
    (List.range' 1 6).map (fun k => (n.tref.getD k 0 != 0, 32 + 2 * k))) ++
  (if n.params.length ≠ 128 then recFaults [(true, 52)]
   else
     parFaults ([(!([1, 2, 4].contains (b 2)), 2), (!([93, 120, 123, 150, 153, 156, 180, 183, 186].contains (b 3)), 3), (decide (1 < b 4), 4),
       (decide (1 < b 5), 5), (!split && decide (1 < b 6), 6), (split && outside 1 16 (b 7), 7), (decide (1 < b 10), 10),
       (decide (1 < b 11), 11), (outside 2 256 (n.par 12 2), 12), (outside 1 2 (b 14), 14), (decide (2 < b 15), 15),
       (n.par 16 2 % 16 != 0 || outside 16 256 (n.par 16 2), 16), (n.par 18 2 % 16 != 0 || outside 16 128 (n.par 18 2), 18),
       (n.par 20 4 == 0, 20), (n.par 24 4 == 0, 24), (outside 1 1000000 (n.par 28 4), 28), (decide (64 ≤ b 32), 32),
       (outside 2 512 (n.par 40 2), 40)] ++ reservedAt n.params 42 64) ++
     (match v.pf? (n.tref.getD 7 0) with
      | none => []
      | some p => parFaults ((!v.bufOk (n.par 0 2) [1] 4 (encBufSize n p), 0) :: encGeometry n p) ++ v.rateFaults n p))

/-- R285: DEC_STREAM. -/
def View.decFaults (v : View) (n : Node) : List NFault :=
  let p := v.pf? n.pixfmt
  recFaults [(n.inPorts != 1 || v.inputNot n 0 [0x0310], 4), (n.outPorts != 1, 5),
    ((p.map (fun p => p.format != 0x0210 || p.tileW != 64 || p.tileH != 64)).getD false, 12)] ++
  (if n.params.length ≠ 16 then recFaults [(true, 52)]
   else parFaults ([(!v.bufOk (n.par 0 2) [1] 4 ((p.map (fun p => 7 * p.ctuCols * p.ctuRows * 7808)).getD 0), 0)] ++
     reservedAt n.params 2 4 ++ reservedAt n.params 12 16))

/-- R308: CMP_HEAD. -/
def View.cmpFaults (v : View) (n : Node) : List NFault :=
  let l := n.res / 256 % 256
  let formats := [0x0210, 0x0220, 0x0230]
  recFaults ([(n.inPorts != l, 4), (decide (1 < n.outPorts), 5),
    (n.outPorts == 1 && ((v.pf? n.pixfmt).map (fun p => p.format != 0x0210 || p.tileW != 64 || p.tileH != 64)).getD false, 12)] ++
    (List.range 8).map (fun i =>
      (if i < l then n.tref.getD i 0 == 0 || v.inputNot n i formats || v.inputPf n i i (fun p => formats.contains p.format)
       else n.tref.getD i 0 != 0, 32 + 2 * i))) ++
  (if n.params.length ≠ 16 + 4 * l then recFaults [(true, 52)]
   else parFaults (reservedAt n.params 4 16 ++
     (List.range l).flatMap (fun i =>
       let size := ((v.pf? (n.tref.getD i 0)).map (fun p => 3 * p.cols * p.rows * p.maxPayload)).getD 0
       (!v.bufOk (n.par (16 + 4 * i) 2) [0, 1] 5 size, 16 + 4 * i) :: reservedAt n.params (18 + 4 * i) (20 + 4 * i))))

/-- R337, R338: the paths of a sender. -/
def State.pathFaults (s : State) (n : Node) (i : Nat) : List (Bool × Nat) :=
  let mode := s.rd F.NET_CFG_MODE
  let a := n.snd i 1 1
  let b := n.snd i 2 1
  let gone (p : Nat) : Bool := !portIn mode p || (portLanes mode p).any (fun l => n.res / 2 ^ l % 2 == 0)
  let rate (p : Nat) : Nat := (portLanes mode p).length
  [(gone a, 1), (b != 0xFF && (b == a || gone b || rate b != rate a), 2)] ++
  (if b = 0xFF then reservedAt ((n.params.drop (16 + 128 * i)).take 48) 32 48 else [])

/-- R337, R338: a sender's own fields by STYPE. -/
def View.senderTypeFaults (v : View) (n : Node) (i : Nat) : List (Bool × Nat) :=
  let f (o len : Nat) : Nat := n.snd i o len
  let d := (n.params.drop (16 + 128 * i)).take 128
  let p := v.pf? (n.tref.getD i 0)
  match f 0 1 with
  | 1 =>
    let pay := f 64 2
    let picW := (p.map (fun p => p.picW)).getD (2 * pay)
    let size := (p.map (fun p => 2 * p.cols * p.maxPayload)).getD 0
    let bandOk := match v.buf (f 52 2) with
      | some b => decide (b.region < 2) && b.space == 0 && decide (size ≤ b.size)
      | none => false
    [(decide (1000000000 < f 48 4), 48), (!bandOk, 52),
     (pay % 180 != 0 || outside 180 1440 pay || picW % 2 == 1 || decide (picW * 5 / 2 < pay), 64),
     (decide (f 66 2 < (p.map (fun p => p.picH)).getD 0), 66), (f 68 4 == 0, 68), (f 72 4 == 0, 72)] ++ reservedAt d 80 128
  | 2 =>
    let per := (if f 66 1 = 0 then 48 else 6) * (if f 65 1 = 1 then 2 else 1)
    [(f 48 4 != 0, 48), (f 52 2 != 0xFFFF, 52),
     (outside 1 64 (f 64 1) || decide (1440 < f 64 1 * per * (if f 67 1 = 0 then 3 else 2)), 64), (decide (1 < f 65 1), 65),
     (decide (1 < f 66 1), 66), (decide (1 < f 67 1), 67)] ++ reservedAt d 68 128
  | _ =>
    [(f 48 4 != 0, 48), (f 52 2 != 0xFFFF, 52), (outside 0x10 0x1FFE (f 64 2), 64),
     (outside 0x10 0x1FFE (f 66 2) || f 66 2 == f 64 2, 66), (f 68 2 == 0, 68), (outside 10 1000 (f 70 2), 70),
     (outside 10 100 (f 72 1), 72), (outside 1 7 (f 73 1), 73), (decide (10000000 < f 76 4), 76)] ++ reservedAt d 74 76 ++
      reservedAt d 80 128

/-- R337, R338: sender `i` of a NET_TX node. -/
def State.senderFaults (s : State) (v : View) (n : Node) (i : Nat) : List (Bool × Nat) :=
  let f (o len : Nat) : Nat := n.snd i o len
  let d := (n.params.drop (16 + 128 * i)).take 128
  let fmt := match f 0 1 with
    | 1 => 0x0210 | 2 => 0x0410 | _ => 0x0310
  ([(outside 1 3 (f 0 1) || v.inputNot n i [fmt], 0), (decide (7 < f 3 1), 3), (decide (63 < f 4 1), 4), (f 5 1 == 0, 5),
    (decide (127 < f 6 1), 6), (decide (3 < f 7 1), 7)] ++ s.pathFaults n i ++ reservedAt d 54 64 ++ v.senderTypeFaults n i).map
      (fun (e : Bool × Nat) => (e.1, 16 + 128 * i + e.2))

/-- R337, R338: NET_TX. -/
def State.netFaults (s : State) (v : View) (n : Node) : List NFault :=
  recFaults ([(outside 1 8 n.inPorts, 4), (n.outPorts != 0, 5)] ++
    (List.range 8).map (fun i =>
      (if i < n.inPorts then n.tref.getD i 0 == 0 || v.inputPf n i i (fun _ => true) else n.tref.getD i 0 != 0, 32 + 2 * i))) ++
  (if n.params.length ≠ 16 + 128 * n.inPorts then recFaults [(true, 52)]
   else parFaults (reservedAt n.params 0 16 ++ (List.range n.inPorts).flatMap (s.senderFaults v n)))

/-- R375: AUD_PORT. -/
def View.audFaults (v : View) (n : Node) : List NFault :=
  let size := n.periods * n.slots.length * 4
  let tx := n.res / 256 % 256 == 1
  recFaults [(n.pixfmt == 0 || ((v.pf? n.pixfmt).map (fun p => p.format != 0x0410 || decide (p.picW < ceilDiv size 16))).getD false, 12)] ++
  (if n.params.length ≠ 16 then recFaults [(true, 52)]
   else parFaults ([(n.par 0 4 == 0, 0), (outside 1 4096 n.periods || decide (65536 < size), 4),
     (tx && decide (1000000000 < n.par 8 4), 8), (tx && n.par 12 4 != 0, 12)] ++ reservedAt n.params 6 8))

/-- R250: MAG_WRITER. -/
def View.magFaults (v : View) (n : Node) : List NFault :=
  let first := v.img.nodes.find? (fun m => m.kind == 9)
  recFaults [(first != some n, 2), (outside 1 8 n.inPorts, 4), (n.outPorts != 0, 5)] ++
  (if n.params.length ≠ 16 + 16 * n.inPorts then recFaults [(true, 52)]
   else parFaults ((!v.bufOk (n.par 0 2) [1] 3 0x4000000, 0) :: reservedAt n.params 2 16 ++
     (List.range n.inPorts).flatMap (fun p =>
       let o := 16 + 16 * p
       let least := match (v.input n p).bind (fun e => v.edgePf e) with
         | some q => if isPicture q.format then q.cols * q.rows else 1
         | none => 1
       (outside (max 1 least) 1048576 (n.par o 4), o) :: reservedAt n.params (o + 4) (o + 16))))

/-- R397: HOST_IN and HOST_OUT. -/
def View.hostFaults (v : View) (n : Node) : List NFault :=
  let out := n.kind == 0xB
  let vec (o : Nat) : Bool := n.par o 2 / 0x800 % 16 != 0
  let base (o : Nat) : List (Bool × Nat) := (n.par o 2 % 4096 != 0, o) :: reservedAt n.params (o + 6) (o + 8)
  let least := match (v.input n 0).bind (fun e => v.edgePf e) with
    | some p => 32 + p.maxPayload
    | none => 32
  recFaults [(n.inPorts != (if out then 1 else 0), 4), (n.outPorts != (if out then 0 else 1), 5)] ++
  (if n.params.length ≠ 32 then recFaults [(true, 52)]
   else if out then
     parFaults ([(vec 0, 0), (vec 2, 2), (outside 1 32768 (n.par 4 2), 4), (n.par 24 4 % 16 != 0 || decide (n.par 24 4 < least), 24)] ++
       reservedAt n.params 6 8 ++ base 8 ++ base 16 ++ reservedAt n.params 28 32)
   else parFaults ([(vec 0, 0), (outside 1 32768 (n.par 2 2), 2)] ++ reservedAt n.params 4 8 ++ base 8 ++ reservedAt n.params 16 32))

/-- R73, R78, R198 to R397: what the block that runs the node asks of it. -/
def State.nodeFaults (s : State) (v : View) (n : Node) : List NFault :=
  match n.kind with
  | 1 => v.intakeFaults n
  | 2 => s.engineFaults n
  | 4 => v.encFaults n
  | 5 => v.decFaults n
  | 6 => v.cmpFaults n
  | 7 => s.netFaults v n
  | 8 => v.audFaults n
  | 9 => v.magFaults n
  | 0xA | 0xB => v.hostFaults n
  | _ => []

end Sys2Proof.Machine
end

