-- ==== Sys2Proof/Machine/Validate.lean ====
section
/-! DEFINITION. Validation of an image (R47, R50 to R62, R77, R78, R92): the checks on its records, against one another and
against the active image, and the failure that is reported. -/

namespace Sys2Proof.Machine

/-- R77: the stages that each stop validation: the first that has failures reports its first one. (DEDUCED, log entry 102) -/
def firstStage : List (Unit → List Fail) → Option Fail
  | [] => none
  | f :: t => match firstFail (f ()) with
    | some x => some x
    | none => firstStage t

/-- R92: IDs or numbers repeated in a section: every occurrence after the first. -/
def dupFails (sec size : Nat) (ids : List Nat) : List Fail :=
  failsOf 0x0F0A sec 0 (ids.mapIdx (fun i x => ((ids.take i).contains x, size * i)))

/-! ### Nodes -/

/-- R45, R50, R51: the fields of a node record. -/
def View.nodeRecFails (v : View) (r : List Byte) (off : Nat) (n : Node) : List Fail :=
  failsOf 0x0F09 (v.sec 1) off
    ([(n.id == 0 || n.id == 0xFFFF, 0), (n.kind == 0 || decide (0xB < n.kind), 2), (decide (7 < n.prio), 3),
      (decide (16 < n.inPorts), 4), (decide (16 < n.outPorts), 5), (n.kind != 2 && n.op != 0, 8), (n.paramOff % 16 != 0, 48),
      (n.paramLen != 0 && decide (v.parBytes.length < n.paramOff + n.paramLen), 52)] ++
     reservedAt r 14 16 ++ resFaults n ++ reservedAt r 56 64)

/-- Faults of a node as failures: in its record or its parameter block. -/
def View.nodeFails (v : View) (off : Nat) (n : Node) (l : List NFault) : List Fail :=
  (l.filter (fun f => f.bad)).map (fun f =>
    if f.par then ⟨0x0F09, v.sec 7, n.paramOff + f.off⟩ else ⟨0x0F09, v.sec 1, off + f.off⟩)

/-- R52, R180: ports without an edge, and ports that differ from the kernel's. -/
def State.portFails (s : State) (v : View) (off : Nat) (n : Node) : List Fail :=
  let k := if n.kind = 2 then s.kernel? n.op else none
  let differs (f : Kernel → Nat) (p : Nat) : Bool := (k.map (fun k => f k != p)).getD false
  failsOf 0x0F0C (v.sec 1) off
    [((List.range n.inPorts).any (fun p => (v.img.inEdge n.id p).isNone) || differs (fun k => k.inPorts) n.inPorts, 4),
     ((List.range n.outPorts).any (fun p => (v.img.outEdges n.id p).isEmpty) || differs (fun k => k.outPorts) n.outPorts, 5)]

/-- R51: the exclusive resources that an earlier node of the image claims already. -/
def View.conflictFails (v : View) : List Fail :=
  failsOf 0x0F0B (v.sec 1) 0
    (v.img.nodes.mapIdx (fun i n =>
      ((v.img.nodes.take i).any (fun m => (exclusives m).any (fun x => (exclusives n).contains x)),
       64 * i + (if n.kind = 4 ∨ n.kind = 8 then 17 else 16))))

/-- R60: islands that a node touches and that have no record. -/
def View.nodeIslandFails (v : View) (off : Nat) (n : Node) : List Fail :=
  failsOf 0x0F12 (v.sec 1) off
    ((nodeIslands n).map (fun e => (!v.img.isls.any (fun i => i.id == e.1), e.2)))

/-- R338, R397: more channels or sender slots than the module has. -/
def View.countFails (v : View) : List Fail :=
  let host (m : Node) : Bool := m.kind == 0xA || m.kind == 0xB
  failsOf 0x0F08 (v.sec 1) 0
    (v.img.nodes.mapIdx (fun i n =>
      let upTo := v.img.nodes.take (i + 1)
      ((host n && decide (32 < (upTo.filter host).length)) ||
         (n.kind == 7 && decide (64 < ((upTo.filter (fun m => m.kind == 7)).map (fun m => m.inPorts)).sum)), 64 * i + 2)))

/-! ### Edges -/

/-- R45, R53, R55, R99: the fields of an edge record. -/
def View.edgeRecFails (v : View) (r : List Byte) (off : Nat) (e : Edge) : List Fail :=
  let prod := v.img.nodes.find? (fun n => n.id == e.prod)
  let ring := v.buf e.ringBuf
  let small := match ring, v.edgePf e with
    | some b, some p => decide (b.size < roundUp (e.entries * 16) 4096 + e.entries * ((32 + p.maxPayload) / 16) * 16)
    | none, _ => true
    | _, none => false
  failsOf 0x0F09 (v.sec 2) off
    ([(e.qid == 0xFFFF, 0), ((prod.map (fun n => n.stream != e.stream)).getD false, 8), (!formatCodes.contains e.format, 10),
      (outside 1 32768 e.entries, 12), (small, 14), (e.substBuf != 0xFFFF && (v.buf e.substBuf).isNone, 16),
      (leAt r 18 1 / 8 != 0, 18)] ++ reservedAt r 19 20 ++ reservedAt r 24 32)

/-- R52, R92: an edge that names a missing node or port, or is one too many on its port. -/
def View.edgePortFails (v : View) (i off : Nat) (e : Edge) : List Fail :=
  let node (id : Nat) : Option Node := v.img.nodes.find? (fun n => n.id == id)
  let before := v.img.edges.take i
  let noPort (id : Nat) (f : Node → Nat) (p : Nat) : Bool := ((node id).map (fun n => decide (f n ≤ p))).getD false
  failsOf 0x0F0C (v.sec 2) off
    [((node e.prod).isNone, 2),
     (noPort e.prod (fun n => n.outPorts) e.prodPort ||
        decide (8 ≤ (before.filter (fun x => x.prod == e.prod && x.prodPort == e.prodPort)).length), 4),
     (noPort e.cons (fun n => n.inPorts) e.consPort || before.any (fun x => x.cons == e.cons && x.consPort == e.consPort), 5),
     ((node e.cons).isNone, 6)]

/-- R27, R54: the edge's seal policy. -/
def View.sealFails (v : View) (off : Nat) (e : Edge) : List Fail :=
  let writer := v.img.nodes.any (fun n => n.id == e.cons && n.kind == 9)
  let need := ((v.edgePf e).map (fun p => p.cols * p.rows * (32 + p.maxPayload))).getD 0
  let storeOk := match v.buf e.substBuf with
    | some b => decide (need ≤ b.size)
    | none => false
  failsOf 0x0F0D (v.sec 2) off
    [(e.policy == 1 && !storeOk, 16), (e.policy == 3 || (writer && (!e.recording || e.policy != 0)), 18)]

/-- R55: a QID held outside any image. -/
def State.queueFails (s : State) (v : View) (off : Nat) (e : Edge) : List Fail :=
  failsOf 0x0F0E (v.sec 2) off [(decide (1 < (s.queue e.qid).state), 0)]

/-! ### Buffers, islands, timebases -/

/-- R45, R56: the fields of a buffer record. -/
def View.bufRecFails (v : View) (r : List Byte) (off : Nat) (b : Buf) : List Fail :=
  failsOf 0x0F09 (v.sec 3) off
    ([(b.id == 0xFFFF, 0), (decide (2 < b.region), 2), (outside 1 6 b.purpose, 3), (b.space == 0 && leAt r 24 8 != 0, 24)] ++
      reservedAt r 4 8 ++ reservedAt r 13 16 ++ reservedAt r 21 24 ++ reservedAt r 30 32)

/-- Do two buffers overlap? -/
def Buf.overlaps (a b : Buf) : Bool := decide (a.base < b.base + b.size) && decide (b.base < a.base + a.size)

/-- R57, R78: the range of a buffer, against the buffers before it and those of the active image that survive. -/
def State.memFails (s : State) (v : View) (i off : Nat) (b : Buf) : List Fail :=
  let range := match b.region with
    | 0 => (0, 0x3800000)
    | 1 => (0x100000000, 0x100000000 + s.qdrSize)
    | _ => (0x4000000, 0x5000000)
  let unit := if b.region = 1 then 0x10000 else 0x1000
  let kept := s.image.bufs.filter (fun a => a.id != b.id && v.img.bufs.contains a)
  failsOf 0x0F0F (v.sec 3) off
    [(b.base % unit != 0 || decide (b.base < range.1) || decide (range.2 < b.base + b.size) ||
        (v.img.bufs.take i).any b.overlaps || kept.any b.overlaps, 8), (b.size % unit != 0, 16)]

/-- R45, R59, R60: an island record. -/
def View.islFails (v : View) (r : List Byte) (off : Nat) (i : Isl) : List Fail :=
  failsOf 0x0F09 (v.sec 4) off ([(decide (1 < leAt r 1 1), 1)] ++ reservedAt r 2 4) ++
  failsOf 0x0F12 (v.sec 4) off [(!isIsland i.id, 0)]

/-- R61: a timebase record. -/
def View.tbFails (v : View) (r : List Byte) (off : Nat) (t : Timebase) : List Fail :=
  let sourceOk := match t.kind with
    | 1 => v.img.nodes.any (fun n => n.kind == 1 && n.stream == t.source)
    | 2 => decide (t.source < 4)
    | _ => t.source == 0
  failsOf 0x0F09 (v.sec 5) off (reservedAt r 12 16) ++
  failsOf 0x0F13 (v.sec 5) off
    [(decide (15 < t.id), 0), (outside 1 3 t.kind, 1), (!sourceOk, 2),
     (if t.kind = 3 then outside 1000000 1000000000 t.period else t.period != 0, 4),
     (if t.kind = 3 then decide (t.period ≤ t.phase) else t.phase != 0, 8)]

/-! ### Tables in use (R70, R72, R78, R206) -/

/-- R70, R72, R206: a table that a node's block cannot use: WIRE_PACKING of an intake, or of a node whose stream does not come from the
sensor link, PIC_W of an encoder's output, ROWS of its weights. (DEDUCED, log entry 103) -/
def View.useFails (v : View) (n : Node) : List Fail :=
  let at_ (id : Nat) (f : Tab → List (Bool × Nat)) : List Fail :=
    ((v.tabs.filter (fun x => x.t.id == id && x.fails.isEmpty)).take 1).flatMap (fun x => failsOf 0x0F10 x.sec x.off (f x))
  let linked : List Fail := if n.kind = 1 ∨ n.kind = 3 then [] else at_ n.pixfmt (fun x => [((pixFmtOf x.body).packing != 0, 32)])
  linked ++
  match n.kind with
  | 1 => at_ n.pixfmt (fun x =>
      let p := pixFmtOf x.body
      [(wireBits p.packing == 0 || (rawBits p.format != wireBits p.packing && p.format != 0x0116), 32)])
  | 4 =>
    at_ n.pixfmt (fun x => [((pixFmtOf x.body).format == 0x0310 && (pixFmtOf x.body).picW != 4096, 22)]) ++
    (match v.pf? (n.tref.getD 7 0) with
     | some p => at_ (n.tref.getD 0 0) (fun x => [(x.t.kind == 7 && x.t.p0 % 0x10000 != p.ctuRows, 8)])
     | none => [])
  | _ => []

/-- R78: an image that combines the active image with the tables of a TABLE_ONLY image. (DEDUCED, log entry 104) -/
def State.mergedView (s : State) (v : View) : View :=
  let old := s.image.tables.filter (fun t => !v.img.tables.any (fun x => x.id == t.id))
  let oldTabs := old.map (fun t => ({ version := 1, t := t, body := s.tableBody t } : Tab))
  { img := { s.image with tables := v.img.tables ++ old }, tabs := v.tabs ++ oldTabs }

/-- R78: a table of a TABLE_ONLY image that the active configuration does not have, or that a node which references it does not
accept. (DEDUCED, log entry 104) -/
def State.tableOnlyFails (s : State) (v : View) : List Fail :=
  let m := s.mergedView v
  v.tabs.flatMap (fun x =>
    let users := s.image.nodes.filter (fun n => n.pixfmt == x.t.id || n.tref.contains x.t.id)
    let refused (n : Node) : Bool :=
      n.kind != 2 && n.kind != 3 && ((s.nodeFaults m n).any (fun f => f.bad) || !(m.useFails n).isEmpty)
    failsOf 0x0F11 x.sec x.off
      [(!s.image.tables.any (fun t => t.id == x.t.id && t.kind == x.t.kind) || users.any refused, 0)])

/-! ### The whole image -/

/-- R47: minimum resources that exceed the module's. -/
def State.requireFails (s : State) (h : List Byte) : List Fail :=
  let have_ (o : Nat) : Nat := (s.reg (0x800004 + 4 * (o / 4))).toNat / 256 ^ (o % 4) % 256
  failsOf 0x0F08 63 28 ((List.range 12).map (fun o => (decide (have_ o < leAt h (28 + o) 1), o)))

/-- R50 to R62, R73, R78: the failures of the records and tables. -/
def State.recordFails (s : State) (v : View) (dirOff : Nat) (all : List Sect) : List Fail :=
  let zip {α : Type} (typ : Nat) (l : List α) : List (Nat × List Byte × α) := (v.recsOf typ).zip l |>.mapIdx (fun i x => (i, x.1, x.2))
  v.countFails ++ v.conflictFails ++
  (zip 1 v.img.nodes).flatMap (fun e =>
    let off := 64 * e.1
    v.nodeRecFails e.2.1 off e.2.2 ++ v.nodeFails off e.2.2 (s.nodeFaults v e.2.2) ++ s.portFails v off e.2.2 ++
      failsOf 0x0F11 (v.sec 1) off (v.slotFaults e.2.2) ++ v.nodeIslandFails off e.2.2 ++ v.useFails e.2.2) ++
  (zip 2 v.img.edges).flatMap (fun e =>
    let off := 32 * e.1
    v.edgeRecFails e.2.1 off e.2.2 ++ v.edgePortFails e.1 off e.2.2 ++ v.sealFails off e.2.2 ++ s.queueFails v off e.2.2) ++
  (zip 3 v.img.bufs).flatMap (fun e => v.bufRecFails e.2.1 (32 * e.1) e.2.2 ++ s.memFails v e.1 (32 * e.1) e.2.2) ++
  (zip 4 v.img.isls).flatMap (fun e => v.islFails e.2.1 (8 * e.1) e.2.2) ++
  (zip 5 v.img.tbs).flatMap (fun e => v.tbFails e.2.1 (16 * e.1) e.2.2) ++
  failsOf 0x0F13 63 dirOff ((all.filter (fun e => e.typ == 5)).map (fun e => (outside 1 16 e.count, 16 * e.ix + 2))) ++
  dupFails (v.sec 1) 64 (v.img.nodes.map (fun n => n.id)) ++ dupFails (v.sec 2) 32 (v.img.edges.map (fun e => e.qid)) ++
  dupFails (v.sec 3) 32 (v.img.bufs.map (fun b => b.id)) ++ dupFails (v.sec 4) 8 (v.img.isls.map (fun i => i.id)) ++
  dupFails (v.sec 5) 16 (v.img.tbs.map (fun t => t.id)) ++
  (v.tabs.mapIdx (fun i x => (i, x))).flatMap (fun e =>
    failsOf 0x0F0A e.2.sec e.2.off [((v.tabs.take e.1).any (fun y => y.t.id == e.2.t.id), 0)]) ++
  (all.filter (fun e => e.typ == 0x7F)).flatMap (fun e =>
    failsOf 0x0F09 e.ix 0 (reservedAt (s.sectBytes v.img.addr e) 96 128)) ++
  v.tabFails ++ v.tabs.flatMap Tab.fails ++ (if v.img.tableOnly then s.tableOnlyFails v else [])

/-- R77, R92: validate the image of `len` bytes at `addr`: the failure reported, or the image. (DEDUCED, log entry 101) -/
def State.validate (s : State) (addr len : Nat) : Fail ⊕ Image :=
  if len < 64 then .inl ⟨0x0F04, 63, 0⟩
  else
    let h := s.physRead addr 64
    let dirOff := leAt h 24 4
    let dir := s.physRead (addr + dirOff) (16 * leAt h 20 2)
    let all := sectsOf dir
    let v := s.viewOf addr h all
    match firstStage [
      fun _ => magicFails h,
      fun _ => s.versionFails h,
      fun _ => if (extentFails h len).isEmpty then
          failsOf 0x0F03 63 0 [(crc 0 0 dir != leAt h 56 4, 56), (crc 0 0 (h.take 60) != leAt h 60 4, 60)]
        else failsOf 0x0F03 63 0 [(crc 0 0 (h.take 60) != leAt h 60 4, 60)],
      fun _ => extentFails h len,
      fun _ => directoryFails h dir len,
      fun _ => s.crcFails addr all,
      fun _ => s.signatureFails addr dirOff all,
      fun _ => s.requireFails h ++ s.recordFails v dirOff all] with
    | some f => .inl f
    | none => .inr v.img

end Sys2Proof.Machine
end

