-- ==== Sys2Proof/Machine/Structure.lean ====
section
/-! DEFINITION. The configuration planes (R79 to R91): loading, arming, preparing and cancelling an image, epochs, and the swap. -/

namespace Sys2Proof.Machine

/-- SHADOW_STATE of R91. -/
def State.shadowState (s : State) : Nat := s.rd F.STR_STATUS_SHADOW_STATE

/-- The STR block enters a SHADOW_STATE. -/
def State.setShadow (s : State) (n : Nat) : State := s.wr F.STR_STATUS_SHADOW_STATE n

/-- R91: the last status reported. -/
def State.strStatus (s : State) (code : Nat) : State := s.wr F.STR_STATUS_STATUS code

/-- R92: a command is refused, or validation fails. -/
def State.strError (s : State) (code : Nat) : State := (s.strStatus code).irq 0x0F F.STR_STATUS_ERR_IRQ F.STR_CTRL_ERR_IRQ_EN

/-! ### Which items survive (R88) -/

/-- R88: the nodes of `a` that `b` does not keep. -/
def goneNodes (a b : Image) : List Node := a.nodes.filter (fun n => !b.nodes.contains n)

/-- R88: does an edge of `a` survive in `b`? -/
def edgeKept (a b : Image) (e : Edge) : Bool :=
  b.edges.contains e && !(goneNodes a b).any (fun n => n.id == e.prod || n.id == e.cons)

/-- R88: the edges of `a` that do not survive in `b`. -/
def goneEdges (a b : Image) : List Edge := a.edges.filter (fun e => !edgeKept a b e)

/-- R88: the edges of `b` that are new with respect to `a`. -/
def newEdges (a b : Image) : List Edge := b.edges.filter (fun e => !(a.edges.contains e && edgeKept a b e))

/-- R90: is a table's content the same in both? -/
def State.sameTable (s : State) (x y : Table) : Bool :=
  x.kind == y.kind && x.p0 == y.p0 && x.p1 == y.p1 && x.bodyLen == y.bodyLen && s.tableBody x == s.tableBody y

/-- R90: does a node reference a table whose content differs between two lists of tables? -/
def State.tablesDiffer (s : State) (old new : List Table) (n : Node) : Bool :=
  (n.pixfmt :: n.tref).any (fun id =>
    id != 0 && (match findTable old id, findTable new id with
      | some x, some y => !s.sameTable x y
      | none, none => false
      | _, _ => true))

/-! ### Loading and validating (R77, R79) -/

/-- R79: LOAD. -/
def State.strLoad (s : State) : State :=
  if s.shadowState = 0 ∨ s.shadowState = 2 ∨ s.shadowState = 6 then
    let addr := s.rd F.STR_IMG_ADDR_HI_ADDR * 2 ^ 32 + 16 * s.rd F.STR_IMG_ADDR_LO_ADDR
    let s := s.setStr { s.str with shadow := some { addr := addr, len := s.rd F.STR_IMG_LEN_LEN }, validated := false, armed := none }
    ((s.setShadow 1).strStatus 0).wr F.STR_SHADOW_ID_IMAGE_ID 0
  else s.strError 0x0F14

/-- R62, R199: the frame number an intake of stream `x` assigned last. -/
def State.lastFrame (s : State) (x : Nat) : Option Nat :=
  match s.image.nodes.find? (fun n => n.kind == 1 && n.stream == x) with
  | none => none
  | some n =>
    let i := s.intake n.id
    if i.fcnt.isSome then some ((i.nextNum + 2 ^ 32 - 1) % 2 ^ 32) else none

/-- R62: the frame counter of a head that has shown a frame. -/
def State.headCount (s : State) (h : Nat) : Option Nat :=
  if h < 4 ∧ ((s.head h).running ∨ s.rd (F.CMP_H_FRAME_COUNT h) ≠ 0) then some (s.rd (F.CMP_H_FRAME_COUNT h)) else none

/-- R62: the current epoch of a timebase of the active image, none before its first: the source's own counter, or the last
epoch recorded while the source has none. (DESIGN CHOICE, log entry 108) -/
def State.epochNow (s : State) (t : Timebase) : Option Nat :=
  let last := KMap.get (fun _ => none) s.str.epochs t.id
  match t.kind with
  | 1 => (s.lastFrame t.source).or last
  | 2 => (s.headCount t.source).or last
  | _ => some (((s.timestamp - (t.phase : Int)) / (max 1 t.period : Nat) % 2 ^ 32).toNat)

/-- R79, R81, R82: ARM. (DEDUCED, log entry 105) -/
def State.strArm (s : State) : State :=
  let st := s.shadowState
  if st = 3 ∨ st = 4 then s.strError 0x0F14
  else if st ≠ 1 ∧ st ≠ 2 then s.strError 0x0F15
  else
    let mode := s.rd F.STR_EPOCH_MODE
    let target := s.rd F.STR_EPOCH_TARGET_EPOCH
    let tb := s.image.tbs.find? (fun t => t.id == s.rd F.STR_EPOCH_TIMEBASE)
    if mode = 3 ∨ (if mode = 0 then s.str.active.isSome else tb.isNone) then s.strError 0x0F15
    else
      let now := if mode = 1 then tb.bind (fun t => s.epochNow t) else none
      let late : Bool := match now with
        | some n => later n target
        | none => false
      let target := if late then (now.getD 0 + 1) % 2 ^ 32 else target
      let s := (s.wr F.STR_CARRY_COUNT_COUNT 0).wr F.STR_DROP_COUNT_COUNT 0
      let s := (s.setStr { s.str with armed := some { mode := mode, tb := s.rd F.STR_EPOCH_TIMEBASE, target := target, next := late } }).setShadow 3
      s.strStatus (if late then 0x0F17 else 0)

/-- R80, R95: preparation is undone. -/
def State.unprepare (s : State) : State :=
  let s := s.each (s.hq.queues.filter (fun e => e.2.state == 4)) (fun e s => s.setQueue e.1 {})
  (s.setHif { s.hif with prep := [] }).setNet { s.net with prep := [] }

/-- The shadow plane is empty. -/
def State.clearShadow (s : State) : State :=
  ((s.setStr { s.str with shadow := none, validated := false, armed := none }).setShadow 0).wr F.STR_SHADOW_ID_IMAGE_ID 0

/-- R79: CANCEL. (DEDUCED, log entry 109) -/
def State.strCancel (s : State) : State :=
  match s.shadowState with
  | 1 | 2 | 6 => s.clearShadow.strStatus 0
  | 3 | 4 =>
    let s := s.unprepare
    (if s.str.validated then (s.setStr { s.str with armed := none }).setShadow 2 else s.clearShadow).strStatus 0
  | _ => s

/-- R90: RETIRE_FORCE. (DEDUCED, log entry 109) -/
def State.strRetireForce (s : State) : State :=
  if s.shadowState = 5 then (s.setStr { s.str with forceRetire := true }).strStatus 0 else s

/-- R91: a write of STR_CTRL: bits written together act in the order LOAD, ARM, CANCEL, RETIRE_FORCE. -/
def State.strCtrl (s : State) (val : Word) : State :=
  let s := s.plainWrite F.STR_CTRL_LOAD.off val
  let s := if F.STR_CTRL_LOAD.of val = 1 then s.strLoad else s
  let s := if F.STR_CTRL_ARM.of val = 1 then s.strArm else s
  let s := if F.STR_CTRL_CANCEL.of val = 1 then s.strCancel else s
  if F.STR_CTRL_RETIRE_FORCE.of val = 1 then s.strRetireForce else s

/-- Writes of the STR block by offset. -/
def State.strRegWrite (s : State) (o : Nat) (val : Word) : State :=
  if o = 0 then s.strCtrl val else s.plainWrite (blockBase 0x0F + o) val

/-- R77, R79: validation of the shadow image ends. (DESIGN CHOICE, log entry 6; DEDUCED, log entry 105) -/
def State.validationDone (s : State) : State :=
  match s.str.shadow with
  | none => s
  | some i =>
    if (s.shadowState = 1 ∨ s.shadowState = 3) ∧ !s.str.validated then
      match s.validate i.addr i.len with
      | .inl f =>
        let s := (s.wr F.STR_ERR_LOC_SECTION f.sec).wr F.STR_ERR_LOC_OFFSET f.off
        ((s.setStr { s.str with armed := none }).setShadow 6).strError f.code
      | .inr img =>
        let s := (s.setStr { s.str with shadow := some img, validated := true }).wr F.STR_SHADOW_ID_IMAGE_ID img.id
        if s.shadowState = 1 then s.setShadow 2 else s
    else s

/-! ### The swap (R87 to R90) -/

/-- R87, R91: what every swap reports: SWAP_COUNT saturates, and STR_SHADOW_ID reads 0 from the swap on, also in RETIRING.
(DESIGN CHOICE, log entry 138) -/
def State.swapped (s : State) (num : Nat) : State :=
  let s := ((s.wr F.STR_SWAP_EPOCH_EPOCH num).inc F.STR_SWAP_COUNT_COUNT).wr F.STR_STATUS_ACTIVE_VALID 1
  let s := (s.setStr { s.str with shadow := none, validated := false, armed := none, forceRetire := false }).wr F.STR_SHADOW_ID_IMAGE_ID 0
  (s.setShadow (if s.str.retiring.isEmpty then 0 else 5)).irq 0x0F F.STR_STATUS_SWAP_IRQ F.STR_CTRL_SWAP_IRQ_EN

/-- R90: the old tables stay in use for the surviving nodes whose tables differ. -/
def State.retireTables (s : State) (old : List Table) (kept : List Node) : State :=
  let l := (kept.filter (fun n => s.tablesDiffer old s.image.tables n)).map (fun n => n.id)
  s.setStr { s.str with retiring := l, oldTables := if l.isEmpty then [] else old }

/-- R88, R90: a TABLE_ONLY image becomes active: only tables change. -/
def State.swapTables (s : State) (i : Image) (num : Nat) : State :=
  let old := s.image
  let tables := i.tables ++ old.tables.filter (fun t => !i.tables.any (fun x => x.id == t.id))
  let s := s.setStr { s.str with active := some { old with tables := tables } }
  ((s.retireTables old.tables old.nodes).wr F.STR_ACTIVE_TBL_ID_IMAGE_ID i.id).swapped num

/-- R88: a surviving HOST_OUT node whose input port is joined to another edge reads that edge's queue. -/
def State.rejoinHost (s : State) (n : Node) : State :=
  let qid := ((s.image.inEdge n.id 0).map (fun e => e.qid)).getD 0xFFFF
  s.each ((List.range 32).filter (fun c => (s.chan c).node == some n.id && (s.chan c).out)) (fun c s =>
    if (s.chan c).qid = qid then s else s.setChan c { s.chan c with qid := qid, off := 0 })

/-- R87 to R90, R95: a full image becomes active. The claims of a ready task of a removed node are popped before the queues are
counted, so STR_DROP_COUNT leaves them out. (DEDUCED, log entries 26, 139) -/
def State.swapFull (s : State) (i : Image) (num : Nat) : State :=
  let old := s.image
  let gone := goneNodes old i
  let kept := old.nodes.filter (fun n => i.nodes.contains n)
  let fresh := i.nodes.filter (fun n => !old.nodes.contains n)
  let edges := newEdges old i
  let s := s.each gone (fun n s => s.removeNode n)
  let s := s.each (goneEdges old i) (fun e s => s.removeEdge e.qid)
  let epochs := s.str.epochs.filter (fun e => i.tbs.any (fun t => t.id == e.1 && old.tbs.contains t))
  let lost := s.str.lostTbs.filter (fun id => i.tbs.any (fun t => t.id == id && old.tbs.contains t))
  let s := s.setStr { s.str with active := some i, epochs := epochs, lostTbs := lost }
  let s := s.each (kept.filter (fun n => n.kind == 0xB)) (fun n s => s.rejoinHost n)
  let s := s.each edges (fun e s =>
    let q := s.queue e.qid
    (s.setEdgeSeal e.qid {}).setQueue e.qid (if q.state = 4 then { q with state := 1 } else s.newQueue i e 1))
  let s := s.each fresh (fun n s => s.startNode (kept.map (fun n => n.stream)) n)
  let s := (s.setHif { s.hif with prep := [] }).setNet { s.net with prep := [] }
  let s := s.each (i.isls.filter (fun r => r.keep)) (fun r s => s.islandDemand r.id)
  (((s.retireTables old.tables kept).wr F.STR_ACTIVE_ID_IMAGE_ID i.id).wr F.STR_ACTIVE_TBL_ID_IMAGE_ID 0).swapped num

/-- R87: the swap to the prepared image takes place at epoch `num`. -/
def State.swap (s : State) (num : Nat) : State :=
  match s.str.shadow with
  | none => s
  | some i => if i.tableOnly then s.swapTables i num else s.swapFull i num

/-- R80, R95: preparation: descriptors of new edges, and the channels and sender slots of new nodes. (DEDUCED, log entry 106) -/
def State.prepare (s : State) (i : Image) : State :=
  if i.tableOnly then s
  else
    let old := s.image
    let fresh := i.nodes.filter (fun n => !old.nodes.contains n)
    let gone := goneNodes old i
    let s := (s.setHif { s.hif with prep := s.hostChannels fresh gone }).setNet { s.net with prep := s.senderSlots fresh gone }
    s.each (newEdges old i) (fun e s =>
      if (s.queue e.qid).state = 1 then s else s.setQueue e.qid (s.newQueue i e 4))

/-- R80, R81: preparation ends; mode IMMEDIATE swaps in the next cycle. (DESIGN CHOICE, log entry 6; DEDUCED, log entry 106) -/
def State.preparationDone (s : State) : State :=
  match s.str.shadow, s.str.armed with
  | some i, some a =>
    if s.shadowState = 3 ∧ s.str.validated then
      let s := (s.prepare i).setShadow 4
      if a.mode = 0 then s.swap 0 else s
    else s
  | _, _ => s

/-! ### Epochs (R62, R81 to R85) -/

/-- R81 to R84: does epoch `num` of its timebase reach the armed epoch? (DESIGN CHOICE, log entry 108) -/
def Arm.reached (a : Arm) (num : Nat) : Bool := a.mode == 2 || a.next || num == a.target || later num a.target

/-- R83: the set epoch arrives before the state is READY: the swap is carried to the timebase's next epoch. -/
def State.carry (s : State) (a : Arm) : State :=
  let s := s.setStr { s.str with armed := some { a with next := true } }
  ((s.inc F.STR_CARRY_COUNT_COUNT).strStatus 0x0F16).irq 0x0F F.STR_STATUS_CARRY_IRQ F.STR_CTRL_CARRY_IRQ_EN

/-- R81 to R84: epoch `num` of timebase `tb` arrives. (DESIGN CHOICE, log entry 108) -/
def State.epochOf (s : State) (tb num : Nat) : State :=
  let s := s.setStr { s.str with epochs := KMap.set (fun _ => none) s.str.epochs tb (some num),
                                 lostTbs := s.str.lostTbs.erase tb }
  match s.str.armed with
  | none => s
  | some a =>
    if a.tb = tb ∧ a.mode ≠ 0 ∧ s.shadowState = 4 ∧ a.reached num then s.swap num
    else if a.tb = tb ∧ a.mode = 1 ∧ s.shadowState = 3 ∧ a.reached num then s.carry a
    else s

/-- R85: CANCEL in the fclk cycle of an event: one that was a READY swap's epoch has swapped, and CANCEL is too late. `was` is
the armed swap before the event. (DESIGN CHOICE, log entry 108) -/
def State.cancelWith (s : State) (was : Option Arm) (cancel : Bool) : State :=
  if !cancel then s
  else if was.isSome && s.str.armed.isNone then s.strStatus 0x0F18
  else s.strCancel

/-- R62: a source of a SENSOR_FRAME (1) or HEAD_FRAME (2) timebase starts frame `num`. (DESIGN CHOICE, log entry 108) -/
def State.sourceEpoch (s : State) (kind source num : Nat) : State :=
  s.each (s.image.tbs.filter (fun t => t.kind == kind && t.source == source)) (fun t s => s.epochOf t.id num)

/-- R62: an epoch of a PTP_PERIOD timebase. (DESIGN CHOICE, log entry 108) -/
def State.periodEpoch (s : State) (tb : Nat) : State :=
  match s.image.tbs.find? (fun t => t.id == tb && t.kind == 3) with
  | none => s
  | some t => s.epochOf tb ((s.epochNow t).getD 0)

/-- R84, R214, R363: is the source of a timebase lost? -/
def State.sourceLost (s : State) (t : Timebase) : Bool :=
  match t.kind with
  | 1 => !s.image.nodes.any (fun n => n.kind == 1 && n.stream == t.source &&
      n.groups.any (fun g => s.rd (F.SLK_G_STATUS_GSTATE g) == 3))
  | 2 => !s.on (F.CMP_H_CTRL_EN (t.source % 4))
  | _ => false

/-- R84: the source of a timebase is declared lost while a swap is armed on it: the swap takes the next epoch after the source
returns. -/
def State.timebaseLost (s : State) (tb : Nat) : State :=
  match s.str.armed, s.image.tbs.find? (fun t => t.id == tb) with
  | some a, some t =>
    if a.mode ≠ 0 ∧ a.tb = tb ∧ !s.str.lostTbs.contains tb ∧ s.sourceLost t then
      (s.setStr { s.str with lostTbs := s.str.lostTbs ++ [tb], armed := some { a with next := true } }).strStatus 0x0F19
    else s
  | _, _ => s

/-! ### Commands -/

/-- LOAD: STR_CTRL written with LOAD (R79). -/
def execLoad (src : Agent) (val : Word) (s : State) : Out :=
  .next (s.writeReg src F.STR_CTRL_LOAD (val ||| 1) (fun s => s.strCtrl (val ||| 1)))

/-- ARM: STR_CTRL written with ARM (R79, R81). -/
def execArm (src : Agent) (val : Word) (s : State) : Out :=
  .next (s.writeReg src F.STR_CTRL_ARM (val ||| 2) (fun s => s.strCtrl (val ||| 2)))

/-- STR_CANCEL: STR_CTRL written with CANCEL (R79). -/
def execStrCancel (src : Agent) (val : Word) (s : State) : Out :=
  .next (s.writeReg src F.STR_CTRL_CANCEL (val ||| 4) (fun s => s.strCtrl (val ||| 4)))

/-- RETIRE_FORCE: STR_CTRL written with RETIRE_FORCE (R90). -/
def execRetireForce (src : Agent) (val : Word) (s : State) : Out :=
  .next (s.writeReg src F.STR_CTRL_RETIRE_FORCE (val ||| 8) (fun s => s.strCtrl (val ||| 8)))

/-- VALIDATION_DONE (R77, R79). -/
def execValidationDone (s : State) : Out := .next s.validationDone

/-- PREPARATION_DONE (R80). -/
def execPreparationDone (s : State) : Out := .next s.preparationDone

/-- TIMEBASE_EPOCH (R62, R81 to R85). -/
def execTimebaseEpoch (tb : Fin 16) (cancel : Bool) (s : State) : Out :=
  .next ((s.periodEpoch tb).cancelWith s.str.armed cancel)

/-- TIMEBASE_LOST (R84). -/
def execTimebaseLost (tb : Fin 16) (s : State) : Out := .next (s.timebaseLost tb)

end Sys2Proof.Machine
end

