-- ==== Sys2Proof/Machine/Sensor.lean ====
section
/-! DEFINITION. The sensor link (R187 to R217): lane bring-up, received packets, the command sequencer, the mirror, the spare lane,
loopbacks and test runs, and the clock monitor. -/

namespace Sys2Proof.Machine

/-- R187: W of a group. -/
def State.grpWidth (s : State) (g : Nat) : Nat := 2 ^ s.rd (F.SLK_G_CFG_WIDTH g)

/-- R187: the lanes a group uses: its active positions and its spare. -/
def State.grpLanes (s : State) (g : Nat) : List Nat := (List.range (s.grpWidth g)).map (fun p => 9 * g + p) ++ [9 * g + 8]

/-- R212: the lanes a link depends on: those of the group but for a position that the spare carries. (DEDUCED, log entry 112) -/
def State.grpCarry (s : State) (g : Nat) : List Nat := (s.grpLanes g).filter (fun l => (s.grp g).spareFor != some (l % 9))

/-- R187, R211, R213: the positions a group transmits on: TX_WIDTH lanes, W in a loopback, W and the spare while mirroring; the
others are powered down. -/
def State.txPositions (s : State) (g : Nat) : List Nat :=
  if !s.on (F.SLK_G_CFG_EN g) then []
  else if s.on (F.SLK_G_STATUS_MIRRORING g) then List.range (s.grpWidth g) ++ [8]
  else if s.rd (F.SLK_G_CFG_LOOP g) ≠ 0 then List.range (s.grpWidth g)
  else List.range (2 ^ s.rd (F.SLK_G_CFG_TX_WIDTH g))

/-- R187: is a position of a group powered: does it receive or transmit, or is it the spare? -/
def State.lanePowered (s : State) (g p : Nat) : Bool :=
  s.on (F.SLK_G_CFG_EN g) && ((s.grpLanes g).contains (9 * g + p) || (s.txPositions g).contains p)

/-- R191: byte i of a packet travels on position i mod the number of transmitting positions; the spare repeats the position it
carries. -/
def packetLanes (ps : List Nat) (spareFor : Option Nat) (b : List Byte) : List (Nat × List Byte) :=
  let w := max 1 (ps.filter (fun p => p != 8)).length
  let of_ (p : Nat) : List Byte := ((b.mapIdx (fun i x => (i, x))).filter (fun e => e.1 % w == p)).map (fun e => e.2)
  ps.map (fun p => (p, if p = 8 then ((spareFor.map of_).getD []) else of_ p))

/-- GSTATE of a group. -/
def State.gstate (s : State) (g : Nat) : Nat := s.rd (F.SLK_G_STATUS_GSTATE g)

/-- R217: the last status reported by a group. -/
def State.grpStatus (s : State) (g code : Nat) : State := s.wr (F.SLK_G_STATUS_STATUS g) code

/-- R217: the last status of a group's sequencer. -/
def State.seqStatus (s : State) (g code : Nat) : State := s.wr (F.SLK_G_SEQ_STATUS_STATUS g) code

/-- R215: an event flag of a group and its enable at the same position. -/
def State.grpFlag (s : State) (g bit : Nat) : State :=
  s.irq 0x10 ⟨(F.SLK_G_STATUS_STATUS g).off, bit, 1⟩ ⟨(F.SLK_G_IRQ_EN_EN g).off, bit, 1⟩

/-- R215: GSTATE changes; entering or leaving LINK_UP sets LINK_IRQ. -/
def State.setGstate (s : State) (g st : Nat) : State :=
  let old := s.gstate g
  let s := s.wr (F.SLK_G_STATUS_GSTATE g) st
  if old ≠ st ∧ (old = 3 ∨ st = 3) then s.grpFlag g 3 else s

/-! ### Sending (R195, R196, R207) -/

/-- R195, R196: a packet of the module with its header and payload CRCs. -/
def slkPacket (typ tag pseq : Nat) (payload : List Byte) : List Byte :=
  let h := leBytes 1 typ ++ leBytes 1 0 ++ leBytes 2 tag ++ leBytes 2 payload.length ++ leBytes 2 0 ++ leBytes 2 0 ++ leBytes 1 0 ++
    leBytes 1 pseq ++ leBytes 2 0
  h ++ leBytes 2 (crc 2 0 h) ++ payload ++ (if payload.isEmpty then [] else leBytes 4 (crc 0 0 payload))

/-- R195, R207: a group sends a packet. -/
def State.slkSend (s : State) (g typ tag : Nat) (payload : List Byte) : State :=
  let v := s.grp g
  let b := slkPacket typ tag v.txSeq payload
  s.setGrp g { v with lastTx := b, laneTx := packetLanes (s.txPositions g) v.spareFor b, txSeq := (v.txSeq + 1) % 256 }

/-- R197: a notice of four bytes. -/
def State.slkNotice (s : State) (g typ b : Nat) : State := s.slkSend g typ 0 (leBytes 4 b)

/-! ### The frame in progress (R201, R202) -/

/-- Change the newest frame of an intake. -/
def State.onFrame (s : State) (n : Node) (f : IFrame → IFrame) : State :=
  let i := s.intake n.id
  match i.frames.getLast? with
  | none => s
  | some x => s.setIntake n.id { i with frames := i.frames.dropLast ++ [f x] }

/-- R202: the newest frame is complete when FE has arrived on every claimed group that is LINK_UP; ready rows are emitted.
(DEDUCED, log entry 111) -/
def State.afterFe (s : State) (n : Node) : State :=
  let done := match (s.intake n.id).frames.getLast? with
    | some f => !f.fe.isEmpty && (n.groups.filter (fun g => s.gstate g == 3)).all (fun g => f.fe.contains g)
    | none => false
  let s := if done then s.completeFrame n else s
  s.emitReady n

/-! ### Link states (R193, R194, R203, R214) -/

/-- R193: lanes of a group fall back to an LSTATE. -/
def State.lanesTo (s : State) (g st : Nat) : State :=
  s.each ((List.range 9).map (fun p => 9 * g + p)) (fun l s => s.wr (F.SLK_L_STATUS_LSTATE l) (min st (s.rd (F.SLK_L_STATUS_LSTATE l))))

/-- R203: a group in LINK_UP underruns and enters the state `dest`; for a loopback the link is not reported down (R217).
(DEDUCED, log entry 111) -/
def State.underrun (s : State) (g dest : Nat) : State :=
  if s.gstate g ≠ 3 then s
  else
    let s := (s.inc (F.SLK_G_UNDERRUN_COUNT g)).grpFlag g 4
    let s := (if dest = 5 then s else s.grpStatus g 0x1001).grpStatus g 0x1002
    let s := s.setGstate g dest
    let s := s.setGrp g { s.grp g with seenFs := false, pseq := none, skews := none, failSaid := false }
    match s.intakeOf g with
    | none => s
    | some n => (s.onFrame n (fun f => if f.complete then f else { f with left := f.left ++ [g] })).afterFe n

/-- R203: the group repeats R193 from step 3. (DEDUCED, log entry 112) -/
def State.resync (s : State) (g : Nat) : State := if s.gstate g = 3 then (s.underrun g 4).lanesTo g 1 else s

/-- R214: CLK of a group changes. -/
def State.setClk (s : State) (g c : Nat) : State :=
  if s.rd (F.SLK_G_STATUS_CLK g) = c then s else (s.wr (F.SLK_G_STATUS_CLK g) c).grpFlag g 5

/-- R193 steps 4 to 6: is every lane of the group aligned? -/
def State.allAligned (s : State) (g : Nat) : Bool := (s.grpCarry g).all (fun l => s.rd (F.SLK_L_STATUS_LSTATE l) == 2)

/-- R193: does the group use the lane, and is it enabled? -/
def State.laneUsed (s : State) (l : Nat) : Bool := s.on (F.SLK_G_CFG_EN (l / 9)) && (s.grpLanes (l / 9)).contains l

/-- R193 step 2. -/
def State.cdrLocked (s : State) (l : Nat) : State :=
  if s.laneUsed l ∧ s.rd (F.SLK_L_STATUS_LSTATE l) = 0 then s.wr (F.SLK_L_STATUS_LSTATE l) 1 else s

/-- R193 steps 3 and 4. -/
def State.laneAligned (s : State) (l : Nat) : State :=
  if s.laneUsed l ∧ s.rd (F.SLK_L_STATUS_LSTATE l) = 1 then
    let s := s.wr (F.SLK_L_STATUS_LSTATE l) 2
    let s := s.setGrp (l / 9) { s.grp (l / 9) with lanes := KMap.set (fun _ => {}) (s.grp (l / 9)).lanes (l % 9) {} }
    if s.gstate (l / 9) = 1 ∧ s.allAligned (l / 9) then s.setGstate (l / 9) 2 else s
  else s

/-- R190, R193, R203: a lane leaves ALIGNED; a position that the spare carries takes nothing with it. -/
def State.laneLost (s : State) (l : Nat) : State :=
  let g := l / 9
  let s := s.wr (F.SLK_L_STATUS_LSTATE l) 1
  if !(s.grpCarry g).contains l then s
  else
    let s := s.setGrp g { s.grp g with skews := none }
    if s.gstate g = 2 then s.setGstate g 1 else s.resync g

/-- R190: an aligned lane receives a code group: a code error is counted, and 4 within 64 groups take the lane out of ALIGNED. -/
def State.laneGroup (s : State) (l v : Nat) : State :=
  if s.rd (F.SLK_L_STATUS_LSTATE l) ≠ 2 then s
  else
    let g := l / 9
    let r := (KMap.get (fun _ => {}) (s.grp g).lanes (l % 9)).take v
    let s := s.setGrp g { s.grp g with lanes := KMap.set (fun _ => {}) (s.grp g).lanes (l % 9) r.2 }
    let s := if r.1 then s.inc (F.SLK_L_ERR_COUNT l) else s
    if r.2.failing then s.laneLost l else s

/-- R190: a lane receives code groups, the first bit on the line as the most significant of each. -/
def State.laneGroups (s : State) (l : Nat) (groups : List (BitVec 10)) : State :=
  if s.laneUsed l then s.each groups (fun v s => s.laneGroup l v.toNat) else s

/-! ### The sequencer (R207 to R210) -/

/-- R69: entry `i` of a sequencer table: ACTION, COND, NEXT_TRUE, NEXT_FALSE, ARG0, ARG1. -/
def seqField (t : List Byte) (i o len : Nat) : Nat := leAt t (16 * i + o) len

/-- R209, R210: the run ends. -/
def State.seqEnd (s : State) (g : Nat) : State :=
  let s := s.setGrp g { s.grp g with phase := .ready, stopping := false, tagOut := none }
  ((s.wr (F.SLK_G_SEQ_STATUS_RUNNING g) 0).wr (F.SLK_G_SEQ_STATUS_WAITING g) 0).grpFlag g 7

/-- The sequencer enters a phase; it is WAITING for its trigger, a response or an FS. -/
def State.seqPhase (s : State) (g : Nat) (p : SeqPhase) (waits : Bool) : State :=
  (s.setGrp g { s.grp g with phase := p }).wrB (F.SLK_G_SEQ_STATUS_WAITING g) waits

/-- R210: may a command be sent now? -/
def State.seqMaySend (s : State) (g : Nat) : Bool := s.gstate g == 3 && !s.on (F.SLK_G_STATUS_MIRRORING g)

/-- R207, R208: send the command of the current entry. -/
def State.seqSend (s : State) (g : Nat) : State :=
  let v := s.grp g
  let st := s.rd (F.SLK_G_SEQ_STATUS_STATE g)
  let a0 := seqField v.table st 8 4
  let a1 := seqField v.table st 12 4
  let s := match seqField v.table st 0 1 with
    | 1 => s.slkSend g 0x10 v.tag (leBytes 4 a0 ++ leBytes 4 a1)
    | 2 => s.slkSend g 0x11 v.tag (leBytes 4 a0)
    | _ => s.slkSend g 0x10 v.tag (leBytes 4 a0 ++ leBytes 4 (s.rd (F.SLK_G_SEQ_ACC_ACC g)))
  (s.setGrp g { s.grp g with tagOut := some v.tag, tag := (v.tag + 1) % 65536 }).seqPhase g .sent true

/-- R209: the wait of an entry is over: COND is evaluated and the run goes to its next state. -/
def State.seqNext (s : State) (g : Nat) : State :=
  let v := s.grp g
  let st := s.rd (F.SLK_G_SEQ_STATUS_STATE g)
  let acc := s.rd (F.SLK_G_SEQ_ACC_ACC g)
  let dec := (acc + 2 ^ 32 - 1) % 2 ^ 32
  let cond := seqField v.table st 1 1
  let yes := match cond with
    | 0 => true
    | 1 => v.rspOk
    | 2 => (BitVec.ofNat 32 acc &&& BitVec.ofNat 32 (seqField v.table st 12 4)) == 0
    | _ => dec != 0
  let s := if cond = 3 then s.wr (F.SLK_G_SEQ_ACC_ACC g) dec else s
  let next := if yes then seqField v.table st 2 2 else seqField v.table st 4 2
  if next = 0xFFFF then s.seqEnd g
  else (s.wr (F.SLK_G_SEQ_STATUS_STATE g) next).seqPhase g .ready false

/-- R209: the ACTION is done and the entry's WAIT runs; without one COND is evaluated at once. (DEDUCED, log entry 112) -/
def State.seqWait (s : State) (g : Nat) : State :=
  if seqField (s.grp g).table (s.rd (F.SLK_G_SEQ_STATUS_STATE g)) 6 2 = 0 then s.seqNext g else s.seqPhase g .acted false

/-- R208, R209: the ACTION of the current entry; one that waits for a response or an FS leaves its WAIT for afterwards. -/
def State.seqAct (s : State) (g : Nat) : State :=
  let v := s.grp g
  let st := s.rd (F.SLK_G_SEQ_STATUS_STATE g)
  let a0 := seqField v.table st 8 4
  let a1 := seqField v.table st 12 4
  match seqField v.table st 0 1 with
  | 0 => s.seqWait g
  | 4 => (s.wr (F.SLK_G_SEQ_ACC_ACC g) a0).seqWait g
  | 5 =>
    let w := (BitVec.ofNat 32 (s.rd (F.SLK_G_SEQ_ACC_ACC g)) &&& BitVec.ofNat 32 a0) ||| BitVec.ofNat 32 a1
    (s.wr (F.SLK_G_SEQ_ACC_ACC g) w.toNat).seqWait g
  | 6 => ((s.wr (F.SLK_G_SEQ_NOTE_NOTE g) (a0 % 65536)).grpFlag g 7).seqWait g
  | 7 => s.seqPhase g .fs true
  | _ => if s.seqMaySend g then s.seqSend g else s.seqPhase g .unsent true

/-- R209: the sequencer goes on. -/
def State.seqEntry (s : State) (g : Nat) : State :=
  if !s.on (F.SLK_G_SEQ_STATUS_RUNNING g) then s
  else
    match (s.grp g).phase with
    | .ready => s.seqAct g
    | .unsent => if s.seqMaySend g then s.seqSend g else s
    | .acted => s.seqNext g
    | .trigger | .sent | .fs => s

/-- R209, R210: a command's wait ends; after STOP the run ends with it. -/
def State.seqCmdDone (s : State) (g : Nat) : State :=
  let s := s.setGrp g { s.grp g with tagOut := none }
  if (s.grp g).stopping then s.seqEnd g else s.seqPhase g .acted false

/-- R209: SLK_G_SEQ_TMO expires. -/
def State.seqTimeout (s : State) (g : Nat) : State :=
  if (s.grp g).phase = .sent then
    ((s.setGrp g { s.grp g with rspOk := false }).seqStatus g 0x100C).seqCmdDone g
  else s

/-- R207, R209: a CMD_RSP with the outstanding TAG; one that arrives after STOP is discarded (R210). -/
def State.seqResponse (s : State) (g tag : Nat) (b : List Byte) : State :=
  if (s.grp g).phase = .sent ∧ (s.grp g).tagOut = some tag then
    if (s.grp g).stopping then s.seqCmdDone g
    else
      let ok := leAt b 0 4 == 0
      let s := s.setGrp g { s.grp g with rspOk := ok }
      let read := seqField (s.grp g).table (s.rd (F.SLK_G_SEQ_STATUS_STATE g)) 0 1 == 2
      let s := if !ok then s.seqStatus g 0x100D else if read then s.wr (F.SLK_G_SEQ_ACC_ACC g) (leAt b 4 4) else s
      s.seqCmdDone g
  else s.inc (F.SLK_G_DROP_COUNT g)

/-- R208, R210: this group receives an FS that starts a frame. -/
def State.seqFs (s : State) (g : Nat) : State :=
  match (s.grp g).phase with
  | .trigger => s.seqPhase g .ready false
  | .fs => s.seqPhase g .acted false
  | _ => s

/-- R210: START. -/
def State.seqStart (s : State) (g : Nat) : State :=
  if s.on (F.SLK_G_SEQ_STATUS_RUNNING g) then s.seqStatus g 0x100A
  else
    match findTable s.image.tables (s.rd (F.SLK_G_SEQ_CMD_TABLE_ID g)) with
    | none => s.seqStatus g 0x100B
    | some t =>
      if t.kind ≠ 5 ∨ t.p1 % 256 ≠ 0x10 then s.seqStatus g 0x100B
      else if 1 < s.rd (F.SLK_G_SEQ_CMD_TRIGGER g) then s.seqStatus g 0x1009
      else
        let fs := s.rd (F.SLK_G_SEQ_CMD_TRIGGER g) == 1
        let s := s.setGrp g { s.grp g with table := s.tableBody t, rspOk := false, stopping := false, tagOut := none }
        let s := (s.wr (F.SLK_G_SEQ_ACC_ACC g) 0).wr (F.SLK_G_SEQ_STATUS_STATE g) (t.p0 / 65536)
        (s.wr (F.SLK_G_SEQ_STATUS_RUNNING g) 1).seqPhase g (if fs then .trigger else .ready) fs

/-- R210: STOP. (DEDUCED, log entry 112) -/
def State.seqStop (s : State) (g : Nat) : State :=
  if !s.on (F.SLK_G_SEQ_STATUS_RUNNING g) then s
  else if (s.grp g).phase = .sent ∨ (s.grp g).phase = .unsent then s.setGrp g { s.grp g with stopping := true }
  else s.seqEnd g

/-- R215: a write of SLK_G_SEQ_CMD. (DEDUCED, log entry 112) -/
def State.seqCmd (s : State) (g : Nat) (val : Word) : State :=
  let s := s.plainWrite (F.SLK_G_SEQ_CMD_START g).off val
  let s := if (F.SLK_G_SEQ_CMD_START g).of val = 1 then s.seqStart g else s
  if (F.SLK_G_SEQ_CMD_STOP g).of val = 1 then s.seqStop g else s

/-! ### DESKEW (R193, R194, R203) -/

/-- R193 step 6: the group reaches LINK_UP; a command that waited is sent. -/
def State.linkUp (s : State) (g : Nat) : State :=
  let s := s.setGrp g { s.grp g with seenFs := false, pseq := none, skews := none, failSaid := false }
  let s := s.setGstate g 3
  let s := match s.intakeOf g with
    | some n => s.sourceBack 1 n.stream
    | none => s
  if s.on (F.SLK_G_SEQ_STATUS_RUNNING g) ∧ (s.grp g).phase = .unsent then s.seqEntry g else s

/-- R193, R194, R203: a DESKEW column on every lane, with the skew of each; `together` when it arrives in one deskewed column. -/
def State.deskew (s : State) (g : Nat) (skews : List Nat) (together : Bool) : State :=
  if s.gstate g = 0 ∨ !s.allAligned g then s
  else
    let lanes := s.grpCarry g
    let l := lanes.mapIdx (fun i _ => skews.getD i 0)
    let s := s.each (lanes.zip l) (fun e s => s.wr (F.SLK_L_STATUS_SKEW e.1) e.2)
    if s.gstate g = 3 then (if together then s else s.resync g)
    else if s.gstate g = 2 ∨ s.gstate g = 4 then
      if l.any (fun x => decide (31 < x)) then
        let s := if (s.grp g).failSaid then s else s.grpStatus g 0x1006
        s.setGrp g { s.grp g with skews := none, failSaid := true }
      else if (s.grp g).skews = some l then s.linkUp g
      else s.setGrp g { s.grp g with skews := some l }
    else s

/-! ### Received packets (R195 to R205) -/

/-- A field of a packet header. (DEDUCED, log entry 110) -/
def pktFld (p : SlkPacket) (o len : Nat) : Nat := leAt p.header o len

/-- R213: the packet is a TEST packet with the payload it must have. -/
def pktTestOk (p : SlkPacket) : Bool :=
  (p.payload.mapIdx (fun k b => b.toNat == (pktFld p 11 1 + k) % 256)).all id

/-- R213: a test run ends. -/
def State.testEnd (s : State) (g : Nat) : State :=
  match (s.grp g).test with
  | none => s
  | some (count, back) =>
    let s := (s.setGrp g { s.grp g with test := none }).inc (F.SLK_G_TEST_ERR_COUNT g) (count - back)
    let s := if s.rd (F.SLK_G_CFG_LOOP g) = 3 ∧ back = 0 then s.grpStatus g 0x100E else s
    s.grpFlag g 6

/-- R213: a TEST packet is checked and counted. (DEDUCED, log entry 113) -/
def State.rxTest (s : State) (g : Nat) (p : SlkPacket) : State :=
  let s := s.inc (if pktTestOk p then F.SLK_G_TEST_OK_COUNT g else F.SLK_G_TEST_ERR_COUNT g)
  match (s.grp g).test with
  | none => s
  | some (count, back) =>
    let s := s.setGrp g { s.grp g with test := some (count, back + 1) }
    if count ≤ back + 1 then s.testEnd g else s

/-- R62, R199: an FS packet of the intake's stream. -/
def State.rxFs (s : State) (g : Nat) (n : Node) (p : SlkPacket) : State :=
  if (s.intake n.id).fcnt = some (pktFld p 6 2) then s
  else
    let s := s.sourceEpoch 1 n.stream (s.intake n.id).nextNum
    match s.intakeOf g with
    | none => s
    | some n =>
      if pktFld p 1 1 % 16 ≠ n.par 0 1 then s
      else (s.startFrame n (pktFld p 6 2)).seqFs g

/-- R201, R202: an FE packet. (DEDUCED, log entry 110) -/
def State.rxFe (s : State) (g : Nat) (n : Node) (p : SlkPacket) : State :=
  if (s.intake n.id).fcnt = some (pktFld p 6 2) then
    (s.onFrame n (fun f => if f.complete then f else { f with fe := f.fe ++ [g] })).afterFe n
  else s

/-- R200: does a LINE packet meet every condition, PACK aside? -/
def State.lineOk (s : State) (g : Nat) (n : Node) (p : SlkPacket) : Bool :=
  let x := pktFld p 8 2
  let y := pktFld p 2 2
  let r := n.xrange g
  let count := (wireSamples (pktFld p 10 1) p.payload).length
  match (s.intake n.id).frames.getLast? with
  | none => false
  | some f =>
    (s.intake n.id).fcnt == some (pktFld p 6 2) && !f.complete && decide (r.1 ≤ x) && decide (x + count ≤ r.2) &&
      decide (y < (s.framePix n f).picH) &&
      (match KMap.get (fun _ => none) f.lastLine g with
       | some l => decide (l ≤ y)
       | none => true)

/-- R200, R204: a LINE packet is accepted into the assembly buffer, or discarded and counted. (DEDUCED, log entry 110) -/
def State.rxLine (s : State) (g : Nat) (n : Node) (p : SlkPacket) : State :=
  let pf := s.framesPix n
  let y := pktFld p 2 2
  if pktFld p 10 1 ≠ pf.packing then (s.inc (F.SLK_G_DROP_COUNT g)).grpStatus g 0x1005
  else if !s.lineOk g n p then s.inc (F.SLK_G_DROP_COUNT g)
  else
    let row := y / max 1 pf.tileH
    let num := ((s.intake n.id).frames.getLast?.map (fun f => f.num)).getD 0
    let held := (s.intake n.id).rowsHeld pf.tileH
    let out := ((s.intake n.id).frames.getLast?.map (fun f => f.nextRow)).getD 0
    let s := if held.contains (num, row) ∨ row < out then s else s.forceRows n (s.asmRows n pf) (pf.rows * 2 + 2)
    let seg : Seg := { line := y, x := pktFld p 8 2, samples := wireSamples (pktFld p 10 1) p.payload }
    let s := s.onFrame n (fun f =>
      { f with lastLine := KMap.set (fun _ => none) f.lastLine g (some y),
               segs := if row < f.nextRow then f.segs else f.segs ++ [seg] })
    s.emitReady n

/-- R71, R205: an EMB packet becomes a record of the frame's META tiles. (DEDUCED, log entry 110) -/
def State.rxEmb (s : State) (n : Node) (p : SlkPacket) : State :=
  let i := s.intake n.id
  match i.frames.getLast? with
  | none => s
  | some f =>
    if !n.takesMeta ∨ i.fcnt ≠ some (pktFld p 6 2) ∨ f.complete then s
    else
      let f := { f with metaBytes := f.metaBytes ++ leBytes 2 (pktFld p 2 2) ++ leBytes 2 (pktFld p 4 2) ++ p.payload }
      let r := s.putMeta n f (s.framePix n f).maxPayload (f.metaBytes.length + 1)
      r.2.onFrame n (fun _ => r.1)

/-- R193, R198: a picture packet: accepted from the first FS after LINK_UP, by the intake that claims the group and takes its
virtual stream. (DEDUCED, log entry 110) -/
def State.rxPicture (s : State) (g : Nat) (p : SlkPacket) : State :=
  if s.gstate g ≠ 3 then s
  else
    let s := if pktFld p 0 1 = 1 then s.setGrp g { s.grp g with seenFs := true } else s
    if !(s.grp g).seenFs then s
    else
      match s.intakeOf g with
      | none => s.inc (F.SLK_G_DROP_COUNT g)
      | some n =>
        if pktFld p 1 1 % 16 ≠ n.par 0 1 then s.inc (F.SLK_G_DROP_COUNT g)
        else
          match pktFld p 0 1 with
          | 1 => s.rxFs g n p
          | 2 => s.rxFe g n p
          | 3 => s.rxLine g n p
          | _ => s.rxEmb n p

/-- R211: while mirroring the group's transmitters resend every packet received; with the clock LOST they send only IDLE and DESKEW.
(DEDUCED, log entry 112) -/
def State.mirrorSend (s : State) (g : Nat) (p : SlkPacket) : State :=
  if s.on (F.SLK_G_STATUS_MIRRORING g) ∧ s.rd (F.SLK_G_STATUS_CLK g) ≠ 0 then
    let b := p.header ++ p.payload ++ (if p.payload.isEmpty then [] else leBytes 4 p.crc.toNat)
    s.setGrp g { s.grp g with lastTx := b, laneTx := packetLanes (s.txPositions g) (s.grp g).spareFor b }
  else s

/-- R196: a packet's PSEQ follows the one before it, or the gap is counted. -/
def State.notePseq (s : State) (g : Nat) (p : SlkPacket) : State :=
  let gap := match (s.grp g).pseq with
    | some q => (q + 1) % 256 != pktFld p 11 1
    | none => false
  (if gap then s.inc (F.SLK_G_PSEQ_GAP_COUNT g) else s).setGrp g { s.grp g with pseq := some (pktFld p 11 1) }

/-- R191, R195 to R197: a packet of type `typ` arrives on a group that is LINK_UP or in a loopback; one with a code or column error
inside is a payload CRC failure whatever its header holds. (DEDUCED, log entry 110) -/
def State.rxPacket (s : State) (g typ : Nat) (p : SlkPacket) : State :=
  if s.gstate g ≠ 3 ∧ s.gstate g ≠ 5 then s
  else
    let s := s.mirrorSend g p
    let s := s.each p.errors (fun l s => s.inc (F.SLK_L_ERR_COUNT (9 * g + l)))
    let h := p.header.take 14
    let hcrc := p.header.length == 16 && crc 2 0 h == pktFld p 14 2
    let s := if hcrc then s.notePseq g p else s
    if !p.errors.isEmpty then (s.inc (F.SLK_G_PCRC_ERR_COUNT g)).grpStatus g 0x1004
    else if !hcrc then (s.inc (F.SLK_G_HCRC_ERR_COUNT g)).grpStatus g 0x1003
    else
      if pktFld p 12 2 ≠ 0 then s.inc (F.SLK_G_DROP_COUNT g)
      else if p.payload.length != pktFld p 4 2 ||
          (p.payload.length != 0 && crc 0 0 p.payload != p.crc.toNat) then
        (s.inc (F.SLK_G_PCRC_ERR_COUNT g)).grpStatus g 0x1004
      else if !([1, 2, 3, 4, 0x12, 0x20].contains (pktFld p 0 1)) then s.inc (F.SLK_G_DROP_COUNT g)
      else if pktFld p 0 1 ≠ typ then s
      else if typ = 0x20 then s.rxTest g p
      else if typ = 0x12 then s.seqResponse g (pktFld p 2 2) p.payload
      else s.rxPicture g p

/-! ### Configuration (R193, R213, R215) -/

/-- R213: LOOP_REQ when far-end loopback begins or ends. -/
def State.loopReq (s : State) (g old new : Nat) : State :=
  let s := if old = 3 ∧ new ≠ 3 then s.slkNotice g 0x14 0 else s
  if new = 3 ∧ old ≠ 3 then s.slkNotice g 0x14 1 else s

/-- R193 step 1, R207, R213: the group is enabled. -/
def State.grpOn (s : State) (g loop : Nat) : State :=
  let s := s.setGrp g { s.grp g with seenFs := false, pseq := none, skews := none, failSaid := false, tag := 0, laneTx := [], echo := {} }
  ((s.lanesTo g 0).setGstate g (if loop = 0 then 1 else 5)).loopReq g 0 loop

/-- R203, R215: the group is disabled; while LINK_UP that is an underrun. -/
def State.grpOff (s : State) (g : Nat) : State :=
  let s := (((s.underrun g 0).lanesTo g 0).setGstate g 0).wr (F.SLK_G_STATUS_MIRRORING g) 0
  s.setGrp g { s.grp g with skews := none, laneTx := [] }

/-- R213: LOOP of an enabled group changes; what bring-up had recorded is forgotten. -/
def State.grpLoop (s : State) (g old new : Nat) : State :=
  let s := if old = new then s
    else s.setGrp g { s.grp g with skews := none, failSaid := false, echo := {},
                                   pseq := if s.gstate g = 3 then (s.grp g).pseq else none }
  if old = new then s
  else if new = 0 then ((s.loopReq g old new).lanesTo g 1).setGstate g 1
  else ((s.underrun g 5).setGstate g 5).loopReq g old new

/-- R215: the counters of a group, in the order of their offsets, and the code errors of its lanes. -/
def grpCounters (g : Nat) : List Fld :=
  [F.SLK_G_HCRC_ERR_COUNT g, F.SLK_G_PCRC_ERR_COUNT g, F.SLK_G_DROP_COUNT g, F.SLK_G_PSEQ_GAP_COUNT g, F.SLK_G_FILL_LINES_COUNT g,
   F.SLK_G_UNDERRUN_COUNT g, F.SLK_G_GLITCH_COUNT g, F.SLK_G_TEST_OK_COUNT g, F.SLK_G_TEST_ERR_COUNT g] ++
  (List.range 9).map (fun p => F.SLK_L_ERR_COUNT (9 * g + p))

/-- R36, R215: CNT_CLR; `inc` names the counters that also count in the same pclk cycle. -/
def State.grpClear (s : State) (g inc : Nat) : State :=
  s.each ((grpCounters g).mapIdx (fun i f => (i, f))) (fun e s => s.wr e.2 (inc / 2 ^ e.1 % 2))

/-- R215: is a write of SLK_G_CFG discarded? -/
def State.grpCfgBad (s : State) (g : Nat) (val : Word) : Bool :=
  let changes (f : Fld) : Bool := s.rd f != f.of val
  let mode := (F.SLK_G_CFG_TX_MODE g).of val
  (s.on (F.SLK_G_CFG_EN g) && (changes (F.SLK_G_CFG_RATE g) || changes (F.SLK_G_CFG_WIDTH g) || changes (F.SLK_G_CFG_TX_WIDTH g))) ||
    decide (1 < mode) || (mode == 1 && (F.SLK_G_CFG_LOOP g).of val != 0)

/-- R193, R213, R215: SLK_G_CFG takes a value: EN and LOOP act. (DEDUCED, log entry 112) -/
def State.grpSet (s : State) (g : Nat) (val : Word) : State :=
  let en := s.on (F.SLK_G_CFG_EN g)
  let old := s.rd (F.SLK_G_CFG_LOOP g)
  let new := (F.SLK_G_CFG_LOOP g).of val
  let s := s.plainWrite (F.SLK_G_CFG_EN g).off val
  match en, s.on (F.SLK_G_CFG_EN g) with
  | false, true => s.grpOn g new
  | true, false => s.grpOff g
  | true, true => s.grpLoop g old new
  | false, false => s

/-- R215, R479: a write of SLK_G_CFG; while the group is under test one that sets EN is held. -/
def State.grpCfg (s : State) (g : Nat) (val : Word) (inc : Nat) : State :=
  if s.grpCfgBad g val then s.grpStatus g 0x1009
  else
    let s := if (F.SLK_G_CFG_CNT_CLR g).of val = 1 then s.grpClear g inc else s
    s.enableWrite (s.laneUnderTest (0x20 + g)) (F.SLK_G_CFG_EN g) val (fun s => s.grpSet g val)

/-! ### The mirror (R211) -/

/-- R211: mirroring starts at a DESKEW column received, after its notice; it ends after the mirrored packet, followed by its notice. -/
def State.mirrorStep (s : State) (g : Nat) : State :=
  let want := s.rd (F.SLK_G_CFG_TX_MODE g) == 1
  let is := s.on (F.SLK_G_STATUS_MIRRORING g)
  if want = is ∨ (want ∧ s.gstate g ≠ 3) then s
  else if want then (s.slkNotice g 0x13 1).wr (F.SLK_G_STATUS_MIRRORING g) 1
  else
    let s := (s.wr (F.SLK_G_STATUS_MIRRORING g) 0).slkNotice g 0x13 0
    if s.on (F.SLK_G_SEQ_STATUS_RUNNING g) ∧ (s.grp g).phase = .unsent then s.seqEntry g else s

/-! ### The spare lane (R212, R474, R486) -/

/-- R212: may a takeover (or a release) of the spare begin? -/
def State.spareMay (s : State) (g : Nat) (release : Bool) : Bool :=
  s.gstate g == 3 && (s.on (F.SLK_G_STATUS_SPARE_ACTIVE g) == release) && (s.grp g).spare.isNone

/-- R212: the position a takeover names, or the one that a release gives back. -/
def State.sparePos (s : State) (g : Nat) (release : Bool) : Nat :=
  if release then ((s.grp g).spareFor).getD 0 else s.rd (F.SLK_G_SPARE_POSITION g)

/-- R212: a takeover or a release starts: the comparison runs until SPARE_MATCH or SPARE_FAIL. -/
def State.spareStart (s : State) (g : Nat) (release : Bool) : State :=
  if s.spareMay g release then
    let s := s.setGrp g { s.grp g with spare := some (release, s.sparePos g release) }
    if release then s else s.slkNotice g 0x15 (s.rd (F.SLK_G_SPARE_POSITION g))
  else (s.grpStatus g 0x1009).endAct (.spare g release)

/-- R212, R486: a takeover or a release is requested; one that is deferred is judged when it starts. -/
def State.spareAsk (s : State) (g : Nat) (release : Bool) : State :=
  let deferred := s.rd F.UPD_STATUS_STATE == 3 || s.clashes (.spare g release) s.mnt.acts
  let s := s.requestAct (.spare g release)
  if deferred then s else s.spareStart g release

/-- R215: a write of SLK_G_SPARE. (DEDUCED, log entry 112) -/
def State.spareCmd (s : State) (g : Nat) (val : Word) : State :=
  let s := s.plainWrite (F.SLK_G_SPARE_TAKEOVER g).off val
  let s := if (F.SLK_G_SPARE_TAKEOVER g).of val = 1 then s.spareAsk g false else s
  if (F.SLK_G_SPARE_RELEASE g).of val = 1 then s.spareAsk g true else s

/-- R212: sixteen matching DESKEW intervals: the position moves onto the spare, or back. -/
def State.spareMatch (s : State) (g : Nat) : State :=
  match (s.grp g).spare with
  | none => s
  | some (release, pos) =>
    let s := (s.setGrp g { s.grp g with spare := none, spareFor := if release then none else some pos }).wrB (F.SLK_G_STATUS_SPARE_ACTIVE g) (!release)
    (if release then s.slkNotice g 0x15 0xFF else s).endAct (.spare g release)

/-- R212: no match within 64 intervals. (DEDUCED, log entry 112) -/
def State.spareFail (s : State) (g : Nat) : State :=
  match (s.grp g).spare with
  | none => s
  | some (release, _) =>
    let s := (s.setGrp g { s.grp g with spare := none }).grpStatus g 0x100F
    (if release then s else s.slkNotice g 0x15 0xFF).endAct (.spare g release)

/-! ### Test runs (R213) -/

/-- R213: GO sends COUNT TEST packets. (DEDUCED, log entry 113) -/
def State.testGo (s : State) (g : Nat) (val : Word) : State :=
  let s := s.plainWrite (F.SLK_G_TEST_GO g).off val
  if (F.SLK_G_TEST_GO g).of val = 0 then s
  else
    let count := s.rd (F.SLK_G_TEST_COUNT g)
    let len := s.rd (F.SLK_G_TEST_LEN4 g)
    let bytes := 4 * (if len = 0 then 4096 else len)
    let v := s.grp g
    let last := (v.txSeq + count + 255) % 256
    let near := s.rd (F.SLK_G_CFG_LOOP g) == 1 || s.rd (F.SLK_G_CFG_LOOP g) == 2
    let s := s.setGrp g { v with test := some (count, 0),
                                 echo := if near then { next := v.txSeq, left := count, bytes := bytes } else {} }
    let s := if s.on (F.SLK_G_CFG_EN g) ∧ count ≠ 0 then
        (s.setGrp g { s.grp g with txSeq := last }).slkSend g 0x20 0 ((List.range bytes).map (fun k => BitVec.ofNat 8 (last + k)))
      else s
    if count = 0 then s.testEnd g else s

/-- R213: a TEST packet arrives. In a near loopback it is the module's own, as it was sent but for the errors on its way, and nothing
arrives once all have returned. (DEDUCED, log entry 113) -/
def State.testPacket (s : State) (g : Nat) (p : SlkPacket) : State :=
  if s.rd (F.SLK_G_CFG_LOOP g) = 1 ∨ s.rd (F.SLK_G_CFG_LOOP g) = 2 then
    let e := (s.grp g).echo
    if e.left = 0 then s
    else
      let pay := (List.range e.bytes).map (fun k => BitVec.ofNat 8 (e.next + k))
      let b := slkPacket 0x20 0 e.next pay
      let q : SlkPacket := { header := b.take 16, payload := pay, crc := BitVec.ofNat 32 (crc 0 0 pay), errors := p.errors }
      (s.setGrp g { s.grp g with echo := { e with next := (e.next + 1) % 256, left := e.left - 1 } }).rxPacket g 0x20 q
  else s.rxPacket g 0x20 p

/-! ### The clock monitor (R214) -/

/-- R214: no edge for four expected periods: the group underruns and restarts bring-up. (DEDUCED, log entry 113) -/
def State.clockLost (s : State) (g : Nat) : State :=
  if s.rd (F.SLK_G_STATUS_CLK g) = 0 then s
  else
    let s := (s.setClk g 0).underrun g 4
    let s := s.setGrp g { s.grp g with skews := none }
    let s := if s.gstate g = 0 ∨ s.gstate g = 5 then s else s.setGstate g 1
    (s.lanesTo g 0).grpStatus g 0x1008

/-- R214: a monitor window ends. -/
def State.clockWindow (s : State) (g : Nat) (ppm : Int) : State :=
  if !s.on (F.SLK_G_CFG_EN g) then s
  else
    let bad := decide ((s.rd (F.SLK_G_CLK_GLITCH_LIMIT g) : Int) < (s.grp g).glitches) || decide (1000 < ppm) || decide (ppm < -1000)
    let s := s.wr (F.SLK_G_CLK_PPM g) ((limit (-32767) 32767 ppm) % 65536).toNat
    let s := s.setGrp g { s.grp g with glitches := 0 }
    if bad then (if s.rd (F.SLK_G_STATUS_CLK g) = 1 then s else (s.setClk g 1).grpStatus g 0x1007) else s.setClk g 2

/-- R214: a glitch; one more than the limit within a window unlocks the clock. (DEDUCED, log entry 113) -/
def State.clockGlitch (s : State) (g : Nat) : State :=
  if !s.on (F.SLK_G_CFG_EN g) then s
  else
    let s := (s.inc (F.SLK_G_GLITCH_COUNT g)).setGrp g { s.grp g with glitches := (s.grp g).glitches + 1 }
    if s.rd (F.SLK_G_CLK_GLITCH_LIMIT g) < (s.grp g).glitches ∧ s.rd (F.SLK_G_STATUS_CLK g) = 2 then
      (s.setClk g 1).grpStatus g 0x1007
    else s

/-- Writes of the SLK block by offset. -/
def State.slkRegWrite (s : State) (o : Nat) (val : Word) : State :=
  let g := o / 0x100
  if o < 0x400 then
    match o % 0x100 with
    | 0x00 => s.grpCfg g val 0
    | 0x14 => s.spareCmd g val
    | 0x20 => s.seqCmd g val
    | 0x34 => s.testGo g val
    | _ => s.plainWrite (blockBase 0x10 + o) val
  else s.plainWrite (blockBase 0x10 + o) val

/-! ### Commands -/

/-- GROUP_ENABLE: SLK_G_CFG is written (R193, R213, R215). -/
def execGroupEnable (src : Agent) (group : Fin 4) (val : Word) (s : State) : Out :=
  .next (s.writeReg src (F.SLK_G_CFG_EN group) val (fun s => s.grpCfg group val 0))

/-- SLK_CNT_CLR: SLK_G_CFG is written with CNT_CLR (R215). -/
def execSlkCntClr (src : Agent) (group : Fin 4) (val : Word) (inc : BitVec 18) (s : State) : Out :=
  .next (s.writeReg src (F.SLK_G_CFG_EN group) (val ||| 0x40000000)
    (fun s => s.grpCfg group (val ||| 0x40000000) inc.toNat))

/-- CDR_LOCKED (R193). -/
def execCdrLocked (lane : Fin 36) (s : State) : Out := .next (s.cdrLocked lane)

/-- LANE_ALIGNED (R193). -/
def execLaneAligned (lane : Fin 36) (s : State) : Out := .next (s.laneAligned lane)

/-- LANE_ALIGN_LOSS: code groups of a lane in which code errors fall (R190). -/
def execLaneAlignLoss (lane : Fin 36) (groups : List (BitVec 10)) (s : State) : Out := .next (s.laneGroups lane groups)

/-- DESKEW (R193, R194). -/
def execDeskew (group : Fin 4) (skews : List Byte) (together : Bool) (s : State) : Out :=
  .next (s.deskew group (skews.map (fun b => b.toNat)) together)

/-- FS (R199); `cancel` when CANCEL is written in the same fclk cycle (R85). -/
def execFs (group : Fin 4) (pkt : SlkPacket) (cancel : Bool) (s : State) : Out :=
  .next ((s.rxPacket group 0x01 pkt).cancelWith s.str.armed cancel)

/-- FE (R202). -/
def execFe (group : Fin 4) (pkt : SlkPacket) (s : State) : Out := .next (s.rxPacket group 0x02 pkt)

/-- LINE (R200). -/
def execLine (group : Fin 4) (pkt : SlkPacket) (s : State) : Out := .next (s.rxPacket group 0x03 pkt)

/-- EMB (R205). -/
def execEmb (group : Fin 4) (pkt : SlkPacket) (s : State) : Out := .next (s.rxPacket group 0x04 pkt)

/-- CMD_RSP (R207). -/
def execCmdRsp (group : Fin 4) (pkt : SlkPacket) (s : State) : Out := .next (s.rxPacket group 0x12 pkt)

/-- TEST (R213). -/
def execTest (group : Fin 4) (pkt : SlkPacket) (s : State) : Out := .next (s.testPacket group pkt)

/-- TILE_ROW_EMIT (R201). -/
def execTileRowEmit (node : BitVec 16) (s : State) : Out :=
  .next (match s.image.nodes.find? (fun n => n.kind == 1 && n.id == node.toNat) with
    | none => s
    | some n => s.emitReady n)

/-- LANE_UNDERRUN (R203). -/
def execLaneUnderrun (group : Fin 4) (s : State) : Out := .next (s.resync group)

/-- SEQ_START: SLK_G_SEQ_CMD is written with START (R210). -/
def execSeqStart (src : Agent) (group : Fin 4) (val : Word) (s : State) : Out :=
  .next (s.writeReg src (F.SLK_G_SEQ_CMD_START group) (val ||| 0x80000000) (fun s => s.seqCmd group (val ||| 0x80000000)))

/-- SEQ_STOP: SLK_G_SEQ_CMD is written with STOP (R210). -/
def execSeqStop (src : Agent) (group : Fin 4) (val : Word) (s : State) : Out :=
  .next (s.writeReg src (F.SLK_G_SEQ_CMD_STOP group) (val ||| 0x40000000) (fun s => s.seqCmd group (val ||| 0x40000000)))

/-- SEQ_ENTRY (R209). -/
def execSeqEntry (group : Fin 4) (s : State) : Out := .next (s.seqEntry group)

/-- SEQ_RSP_TIMEOUT (R209). -/
def execSeqRspTimeout (group : Fin 4) (s : State) : Out := .next (s.seqTimeout group)

/-- SPARE_TAKEOVER: SLK_G_SPARE is written with TAKEOVER (R212). -/
def execSpareTakeover (src : Agent) (group : Fin 4) (val : Word) (s : State) : Out :=
  .next (s.writeReg src (F.SLK_G_SPARE_TAKEOVER group) (val ||| 0x80000000) (fun s => s.spareCmd group (val ||| 0x80000000)))

/-- RELEASE: SLK_G_SPARE is written with RELEASE (R212). -/
def execRelease (src : Agent) (group : Fin 4) (val : Word) (s : State) : Out :=
  .next (s.writeReg src (F.SLK_G_SPARE_RELEASE group) (val ||| 0x40000000) (fun s => s.spareCmd group (val ||| 0x40000000)))

/-- SPARE_MATCH (R212). -/
def execSpareMatch (group : Fin 4) (s : State) : Out := .next (s.spareMatch group)

/-- SPARE_FAIL (R212). -/
def execSpareFail (group : Fin 4) (s : State) : Out := .next (s.spareFail group)

/-- MIRROR (R211). -/
def execMirror (group : Fin 4) (s : State) : Out := .next (s.mirrorStep group)

/-- TEST_GO: SLK_G_TEST is written (R213). -/
def execTestGo (src : Agent) (group : Fin 4) (val : Word) (s : State) : Out :=
  .next (s.writeReg src (F.SLK_G_TEST_GO group) (val ||| 0x80000000) (fun s => s.testGo group (val ||| 0x80000000)))

/-- TEST_RUN_END (R213). -/
def execTestRunEnd (group : Fin 4) (s : State) : Out := .next (s.testEnd group)

/-- CLOCK_LOST (R214). -/
def execClockLost (group : Fin 4) (s : State) : Out := .next (s.clockLost group)

/-- CLOCK_WINDOW_END (R214). -/
def execClockWindowEnd (group : Fin 4) (ppm : Int) (s : State) : Out := .next (s.clockWindow group ppm)

/-- GLITCH (R214). -/
def execGlitch (group : Fin 4) (s : State) : Out := .next (s.clockGlitch group)

end Sys2Proof.Machine
end

