-- ==== Sys2Proof/Machine/Bist.lean ====
section
/-! DEFINITION. Demand and idleness of islands (R444), self-tests (R475 to R482), lane calibration (R483 to R485) and the start of
deferred maintenance activities (R486). -/

namespace Sys2Proof.Machine

/-! ### Demand and idleness (R443 to R446) -/

/-- R444: queues that hold a committed entry which nothing has claimed. (DESIGN CHOICE, log entry 7) -/
def State.entryWaits (s : State) (qids : List Nat) : Bool := qids.any (fun q => (s.queue q).next?.isSome)

/-- The input queues of a node. -/
def State.inQueues (s : State) (n : Node) : List Nat :=
  (List.range n.inPorts).filterMap (fun p => (s.image.inEdge n.id p).map (fun e => e.qid))

/-- R444: the queues whose entries demand DEC0 or a head. -/
def State.demandQueues (s : State) (i : Nat) : List Nat :=
  match s.image.nodes.find? (fun n => n.queueIsland == some i) with
  | some n => s.inQueues n
  | none => []

/-- R444: the engine tasks of a cluster that are RUNNING, PREEMPTED or FAULTED. -/
def State.clusterBusy (s : State) (c : Nat) : Bool := (List.range 8).any (fun k => !(s.tasksOn (8 * c + k)).isEmpty)

/-- R444: is work waiting for the island? -/
def State.workWaits (s : State) (i : Nat) : Bool :=
  if i < 0x10 then s.taskList.any (fun e => e.2.cluster == i && e.2.listed)
  else if i < 0x14 then s.coreFaulted (i - 0x10) || (List.range 32).any (fun c => s.encReady c (i - 0x10))
  else s.entryWaits (s.demandQueues i)

/-- R444: does the island hold work in progress? -/
def State.workHeld (s : State) (i : Nat) : Bool :=
  if i < 0x10 then s.clusterBusy i
  else if i < 0x14 then (s.encCore (i - 0x10)).cur.isSome || s.coreFaulted (i - 0x10)
  else if i = 0x14 then s.dec.row != 0
  else if i < 0x1C then s.on (F.CMP_H_STATUS_SHUTTING_DOWN (i - 0x18))
  else s.on (F.SDI_S_STATUS_SHUTTING_DOWN (i - 0x1C))

/-- R444, R446: demand, FORCE_AWAKE or KEEP_AWAKE asks for the island. -/
def State.demanded (s : State) (i : Nat) : Bool := s.on (F.PWR_ISL_FORCE_AWAKE i) || s.keepAwake i || s.workWaits i

/-- R443 to R446: may the island drain when its idle count expires? -/
def State.islandIdle (s : State) (i : Nat) : Bool := !s.demanded i && !s.workHeld i

/-- R447: an island loses its contents: a cluster its engines' local memories. -/
def State.loseIsland (s : State) (i : Nat) : State := if i < 0x10 then s.loseMem (2 + i) else s

/-! ### Self-tests (R476 to R482) -/

/-- R491: a slot reports a status. -/
def State.bistReport (s : State) (n code : Nat) : State := (s.wr (F.BIST_S_STATUS_STATUS n) code).wr F.BIST_STATUS_STATUS code

/-- R489: STATE of a slot, and its ACTIVE bit. -/
def State.bistState (s : State) (n st : Nat) : State :=
  (s.wr (F.BIST_S_STATUS_STATE n) st).wr ⟨F.BIST_STATUS_ACTIVE.off, 8 + n, 1⟩ (if st = 1 ∨ st = 2 then 1 else 0)

/-- R476: is the TARGET defined? -/
def bistTarget (t : Nat) : Bool :=
  decide (t < 0x15) || (decide (0x20 ≤ t) && decide (t < 0x24)) || (decide (0x28 ≤ t) && decide (t < 0x30)) || t == 0x30

/-- R479: is a sensor group or a port of a network lane enabled? (DEDUCED, log entry 97) -/
def State.bistBusy (s : State) (t : Nat) : Bool :=
  if 0x20 ≤ t ∧ t < 0x24 then s.on (F.SLK_G_CFG_EN (t - 0x20))
  else if 0x28 ≤ t ∧ t < 0x30 then
    (List.range 8).any (fun p => s.on (F.NET_P_CTRL_EN p) && (portLanes (s.rd F.NET_CFG_MODE) p).contains (t - 0x28))
  else false

/-- R480, R488: a condition under which GO is refused. (DEDUCED, log entry 97) -/
def State.bistBarred (s : State) : Bool :=
  s.on F.PWR_STATUS_LOWIN || s.rd F.PWR_STATUS_DAY == 3 ||
    s.pwr.temps.any (fun t => decide (signed 16 (s.rd F.PWR_TEMP_WARN_TEMP) < t))

/-- R489: results that GO clears. -/
def bistResults (n : Nat) : List Fld :=
  [F.BIST_S_COUNT_V n, F.BIST_S_SIG_LO_V n, F.BIST_S_SIG_HI_V n, F.BIST_S_EXP_LO_V n, F.BIST_S_EXP_HI_V n, F.BIST_S_STATUS_COMPLETE n,
   F.BIST_S_STATUS_SIG_VALID n, F.BIST_S_STATUS_RESULT n]

/-- R476 to R480: GO. (DEDUCED, log entry 97) -/
def State.bistGo (s : State) (n : Nat) : State :=
  let t := s.rd (F.BIST_S_CMD_TARGET n)
  let p := s.rd (F.BIST_S_CMD_PAT_LOG2 n)
  let st := s.rd (F.BIST_S_STATUS_STATE n)
  if st = 1 ∨ st = 2 then s.bistReport n 0x1D06
  else if !bistTarget t || (t != 0x30 && (decide (p < 10) || decide (20 < p))) then s.bistReport n 0x1D04
  else if s.bistBusy t then s.bistReport n 0x1D03
  else if s.bistBarred then s.bistReport n 0x1D05
  else
    let s := (s.each (bistResults n) (fun f s => s.wr f 0)).bistState n 1
    let s := s.setMnt { s.mnt with slots := KMap.set (fun _ => {}) s.mnt.slots n { target := t, pat := p } }
    s.requestAct (.bist n)

/-- R477: the resource of a slot has gone idle and the test runs. -/
def State.bistRun (s : State) (n : Nat) : State :=
  let t := (s.bistSlot n).target
  if s.rd (F.BIST_S_STATUS_STATE n) ≠ 1 ∨ !s.actRuns (.bist n) then s
  else if t < 0x15 then
    if s.workHeld t then s
    else
      let s := (s.bistState n 2).loseIsland t
      if s.island t = 0 then s.islandOn t 2 else s.wr (F.PWR_ISL_STATE t) 2
  else s.bistState n 2

/-- R477: the island returns to service as if it had just been woken. -/
def State.islandReturn (s : State) (i : Nat) : State :=
  let s := (s.inc (F.PWR_ISL_WAKES_COUNT i)).wr (F.PWR_ISL_PENDING_ENABLE i) 0
  let s := if s.island i = 0 then s else s.islandOff i
  if s.demanded i then s.islandOn i 1 else s

/-- R479: enables that no test holds any longer take effect. -/
def State.releaseHeld (s : State) : State :=
  let grp (off : Nat) : Option Nat := (List.range 4).find? (fun g => (F.SLK_G_CFG_EN g).off == off && !s.laneUnderTest (0x20 + g))
  let port (off : Nat) : Option Nat := (List.range 8).find? (fun p => (F.NET_P_CTRL_EN p).off == off &&
    !(portLanes (s.rd F.NET_CFG_MODE) p).any (fun l => s.laneUnderTest (0x28 + l)))
  let free := s.mnt.heldEn.filter (fun e => (grp e.1).isSome || (port e.1).isSome)
  let s := s.setMnt { s.mnt with heldEn := s.mnt.heldEn.filter (fun e => !((grp e.1).isSome || (port e.1).isSome)) }
  s.each free (fun e s => match grp e.1, port e.1 with
    | some g, _ => (s.wr (F.SLK_G_CFG_EN g) 0).grpSet g e.2
    | none, some p => (s.wr (F.NET_P_CTRL_EN p) 0).netPortSet p e.2
    | none, none => s)

/-- R476, R481: the expected count and the expected values of a slot. -/
def State.bistExpects (s : State) (n : Nat) : Nat × BitVec 64 :=
  let b := s.bistSlot n
  (if b.target = 0x30 then 1 else 2 ^ b.pat, if b.target < 0x15 then Config.bistSignature b.target b.pat else 0)

/-- R481: DONE: RESULT is judged and reported. -/
def State.bistJudge (s : State) (n : Nat) (r : TestEnd) : State :=
  let e := s.bistExpects n
  let s := (s.wr (F.BIST_S_COUNT_V n) r.count).wr (F.BIST_S_SIG_LO_V n) (r.sig.toNat % 2 ^ 32)
  let s := (s.wr (F.BIST_S_SIG_HI_V n) (r.sig.toNat / 2 ^ 32)).wr (F.BIST_S_EXP_LO_V n) (e.2.toNat % 2 ^ 32)
  let s := (s.wr (F.BIST_S_EXP_HI_V n) (e.2.toNat / 2 ^ 32)).wrB (F.BIST_S_STATUS_COMPLETE n) r.complete
  let s := s.wrB (F.BIST_S_STATUS_SIG_VALID n) r.sigValid
  let ran := r.complete && r.count == e.1 && r.sigValid
  let s := s.wr (F.BIST_S_STATUS_RESULT n) (if ran then (if r.sig = e.2 then 1 else 2) else 3)
  let s := if !ran then s.bistReport n 0x1D02 else if r.sig = e.2 then s else s.bistReport n 0x1D01
  (s.bistState n 3).irq 0x1D F.BIST_STATUS_DONE_IRQ F.BIST_CTRL_DONE_IRQ_EN

/-- R477, R481, R482: a test ends, and its resource returns to service. -/
def State.bistEnd (s : State) (n : Nat) (r : TestEnd) : State :=
  let t := (s.bistSlot n).target
  let ran := s.rd (F.BIST_S_STATUS_STATE n) == 2
  let s := (s.bistJudge n r).endAct (.bist n)
  let s := if ran ∧ t < 0x15 then s.islandReturn t else if t < 0x15 ∧ s.demanded t then s.islandDemand t else s
  s.releaseHeld

/-- R482: a test is cut short; a WAITING one ends with COUNT 0. (DEDUCED, log entry 98) -/
def State.bistCut (s : State) (n : Nat) (r : TestEnd) : State :=
  match s.rd (F.BIST_S_STATUS_STATE n) with
  | 1 => s.bistEnd n {}
  | 2 => s.bistEnd n r
  | _ => s

/-- What a test that runs has come to when it is cut short at an unknown point. (DEDUCED, log entry 98) -/
def State.bistOpen (s : State) : TestEnd × State :=
  let c := s.takeFree 32
  let g := c.2.takeFree 64
  let v := g.2.takeFree 1
  ({ count := c.1, complete := false, sigValid := v.1 == 1, sig := BitVec.ofNat 64 g.1 }, v.2)

/-- R489: a write of BIST_S_CMD. -/
def State.bistCmd (s : State) (n : Nat) (val : Word) (r : TestEnd) : State :=
  let s := s.plainWrite (F.BIST_S_CMD_GO n).off val
  if (F.BIST_S_CMD_GO n).of val = 1 then s.bistGo n
  else if (F.BIST_S_CMD_ABORT n).of val = 1 then s.bistCut n r
  else s

/-- Writes of the BIST block by offset; what a test has come to when a general write aborts it is open. -/
def State.bistRegWrite (s : State) (o : Nat) (val : Word) : State :=
  if 0x100 ≤ o ∧ o < 0x200 ∧ o % 0x20 = 0 then s.bistOpen.2.bistCmd ((o - 0x100) / 0x20) val s.bistOpen.1
  else s.plainWrite (blockBase 0x1D + o) val

/-! ### Calibration (R483 to R485) -/

/-- R484: the position after `p` in a group of `w` lanes: the spare is 8. -/
def calAfter (w p : Nat) : Nat := if p + 1 < w then p + 1 else 8

/-- R483, R490: the pass ends. -/
def State.calEnd (s : State) : State :=
  ((s.setMnt { s.mnt with cal := none }).wr F.CAL_STATUS_RUNNING 0).irq 0x1E F.CAL_STATUS_CAL_IRQ F.CAL_CTRL_IRQ_EN

/-- R485: the turn of group `g` starts. (DEDUCED, log entry 99) -/
def State.calTurn (s : State) (g : Nat) : State :=
  let held := s.on (F.SLK_G_STATUS_SPARE_ACTIVE g)
  let s := s.setMnt { s.mnt with cal := some { group := g, pos := 0, held := held } }
  (s.wr F.CAL_STATUS_GROUP g).wr F.CAL_STATUS_POSITION 0

/-- R483: the pass goes on with the first enabled group of a list, or ends. -/
def State.calGroup (s : State) (l : List Nat) : State :=
  match l.find? (fun g => s.on (F.SLK_G_CFG_EN g)) with
  | none => s.calEnd
  | some g => (s.calTurn g).requestAct (.cal g)

/-- R483: a pass starts; a trigger that arises while one runs is dropped. -/
def State.calStart (s : State) : State :=
  if s.mnt.cal.isSome then s
  else
    let s := (s.wr F.CAL_TEMP_LAST (s.rd F.CAL_TEMP_CUR)).wr F.CAL_STATUS_RUNNING 1
    s.calGroup [0, 1, 2, 3]

/-- R483: the temperature has moved by DELTA since the last pass. -/
def State.calTrigger (s : State) : State :=
  let d := signed 16 (s.rd F.CAL_TEMP_CUR) - signed 16 (s.rd F.CAL_TEMP_LAST)
  if s.on F.CAL_CTRL_AUTO ∧ (16 * s.rd F.CAL_CTRL_DELTA : Nat) ≤ d.natAbs then s.calStart else s

/-- R484: a lane is trimmed: a trim at 0 or 63 sets its LIMIT bit. (DEDUCED, log entry 99) -/
def State.calTrim (s : State) (lane : Nat) (trims : List Nat) : State :=
  let ends := (List.range 8).filter (fun i => trims.getD i 32 == 0 || trims.getD i 32 == 63)
  let s := s.each ends (fun i s => s.wr ⟨(F.CAL_L_LIMIT lane).off, 16 + i, 1⟩ 1)
  (if ends.isEmpty then s else s.wr F.CAL_STATUS_STATUS 0x1E02).inc (F.CAL_L_PASSES lane)

/-- R485: a position is skipped. (DEDUCED, log entry 99) -/
def State.calSkip (s : State) : State := (s.inc F.CAL_SKIPS_COUNT).wr F.CAL_STATUS_STATUS 0x1E01

/-- R484: go on to the next position, or the next group. -/
def State.calNext (s : State) (c : CalPass) : State :=
  if c.pos = 8 then (s.endAct (.cal c.group)).calGroup ([0, 1, 2, 3].filter (fun g => decide (c.group < g)))
  else
    let p := calAfter (s.grpWidth c.group) c.pos
    (s.setMnt { s.mnt with cal := some { c with pos := p, parked := false } }).wr F.CAL_STATUS_POSITION p

/-- R212, R484: a position lies on the spare of a group, or none does. -/
def State.spareHolds (s : State) (g : Nat) (pos : Option Nat) : State :=
  (s.setGrp g { s.grp g with spareFor := pos }).wrB (F.SLK_G_STATUS_SPARE_ACTIVE g) pos.isSome

/-- R484, R485: a position of a LINK_UP group is taken over by the spare, trimmed and released. -/
def State.calMoved (s : State) (c : CalPass) (trims : List Nat) (spareFails underrun : Bool) : State :=
  let g := c.group
  let s := s.slkNotice g 0x15 c.pos
  if spareFails then (((s.slkNotice g 0x15 0xFF).grpStatus g 0x100F).calSkip).calNext c
  else
    let s := s.calTrim (9 * g + c.pos) trims
    if underrun then
      ((s.spareHolds g (some c.pos)).setMnt { s.mnt with cal := some { c with parked := true } }).resync g
    else (s.slkNotice g 0x15 0xFF).calNext c

/-- R484, R485: the position in hand. (DEDUCED, log entry 99) -/
def State.calPosition (s : State) (trims : List Nat) (spareFails underrun : Bool) : State :=
  match s.mnt.cal with
  | none => s
  | some c =>
    let g := c.group
    if !s.actRuns (.cal g) then s
    else if c.parked then
      (if s.gstate g = 3 then ((s.spareHolds g none).slkNotice g 0x15 0xFF).calNext c else s)
    else if c.held then
      (if (s.grp g).spareFor = some c.pos then s.calTrim (9 * g + c.pos) trims else s.calSkip).calNext c
    else if c.pos = 8 ∨ s.gstate g ≠ 3 then (s.calTrim (9 * g + c.pos) trims).calNext c
    else s.calMoved c trims spareFails underrun

/-- R490: a write of CAL_CTRL. -/
def State.calCtrl (s : State) (val : Word) : State :=
  let d := F.CAL_CTRL_DELTA.of val
  if d < 1 ∨ 100 < d then s.wr F.CAL_STATUS_STATUS 0x1E03
  else
    let s := s.plainWrite F.CAL_CTRL_NOW.off val
    if F.CAL_CTRL_NOW.of val = 1 then s.calStart else s

/-- Writes of the CAL block by offset. -/
def State.calRegWrite (s : State) (o : Nat) (val : Word) : State :=
  if o = 0 then s.calCtrl val else s.plainWrite (blockBase 0x1E + o) val

/-! ### Deferred activities (R486) -/

/-- R449: SWITCHING of a clock domain. -/
def switchingFld (eclk : Bool) : Fld := if eclk then F.CLK_STATUS_ESWITCHING else F.CLK_STATUS_FSWITCHING

/-- R449, R486: a CLK write starts; an fclk that would break a layer's rate is refused at its start. -/
def State.clkStart (s : State) (eclk : Bool) : State :=
  if eclk || s.layersFit (fclkSel (s.rd F.CLK_FCLK_SEL)) then s
  else
    let s := (s.wr F.CLK_FCLK_SEL s.pwr.fclk).wr F.CLK_STATUS_STATUS 0x0303
    (s.wr (switchingFld eclk) 0).endAct (.clk eclk)

/-- R486: the next deferred activity starts. -/
def State.startDeferred (s : State) : State :=
  match s.startable [] s.mnt.acts with
  | none => s
  | some a =>
    let s := s.setMnt { s.mnt with acts := markRunning a s.mnt.acts }
    match a with
    | .bist _ => s
    | .cal g => s.calTurn g
    | .spare g release => s.spareStart g release
    | .clk e => s.clkStart e

/-! ### Commands -/

/-- BIST_GO: BIST_S_CMD is written with GO (R476). -/
def execBistGo (src : Agent) (slot : Fin 8) (val : Word) (s : State) : Out :=
  .next (s.writeReg src (F.BIST_S_CMD_GO slot) (val ||| 0x80000000) (fun s => s.bistCmd slot (val ||| 0x80000000) {}))

/-- BIST_ABORT: BIST_S_CMD is written with ABORT (R482). -/
def execBistAbort (src : Agent) (slot : Fin 8) (val : Word) (result : TestEnd) (s : State) : Out :=
  .next (s.writeReg src (F.BIST_S_CMD_GO slot) (val ||| 0x40000000) (fun s => s.bistCmd slot (val ||| 0x40000000) result))

/-- BIST_RUNNING (R477). -/
def execBistRunning (slot : Fin 8) (s : State) : Out := .next (s.bistRun slot)

/-- BIST_DONE (R481). -/
def execBistDone (slot : Fin 8) (result : TestEnd) (s : State) : Out :=
  .next (if s.rd (F.BIST_S_STATUS_STATE slot) = 2 then s.bistEnd slot result else s)

/-- NOW: CAL_CTRL is written with NOW (R483). -/
def execNow (src : Agent) (val : Word) (s : State) : Out :=
  .next (s.writeReg src F.CAL_CTRL_NOW (val ||| 0x80000000) (fun s => s.calCtrl (val ||| 0x80000000)))

/-- CAL_TEMP_TRIGGER (R483). -/
def execCalTempTrigger (s : State) : Out := .next s.calTrigger

/-- CAL_POSITION (R484). -/
def execCalPosition (trims : List Nat) (spareFails underrun : Bool) (s : State) : Out :=
  .next (s.calPosition trims spareFails underrun)

/-- DEFERRED_ACTIVITY_START (R486). -/
def execDeferredActivityStart (s : State) : Out := .next s.startDeferred

end Sys2Proof.Machine
end

