-- ==== Sys2Proof/Machine/Dma.lean ====
section
/-! DEFINITION. The DMA movers (R149, R150, R155, R159): rings, descriptors and DMA_TILE tasks. -/

namespace Sys2Proof.Machine

/-- Status of a mover: its last nonzero status (R159). -/
def State.dmaStatus (s : State) (m code : Nat) : State := s.wr (F.DMA_STAT_STATUS m) code

/-- R159: the capacity of a ring; ENTRIES outside 1–4,096 gives none. (DEDUCED, log entry 33) -/
def State.ringCap (s : State) (m : Nat) : Nat :=
  let e := s.rd (F.DMA_RING_CFG_ENTRIES m)
  if e ≤ 4096 then e else 0

/-- R159: the address of a descriptor. -/
def State.descAddr (s : State) (m i : Nat) : Nat :=
  s.rd (F.DMA_RING_HI_BASE m) * 2 ^ 32 + s.rd (F.DMA_RING_LO_BASE m) * 32 + 32 * i

/-- R159: a doorbell adds descriptors after TAIL; a count above the free entries is discarded whole. (DEDUCED, log entry 33) -/
def State.dmaDoorbell (s : State) (m count : Nat) : State :=
  let v := s.mover m
  let cap := s.ringCap m
  if cap - v.subs < count then s.dmaStatus m 0x0902
  else if count = 0 then s
  else (s.setMover m { v with subs := v.subs + count }).wr (F.DMA_PTR_TAIL m)
    ((s.rd (F.DMA_PTR_HEAD m) + v.subs + count) % cap)

/-- R159: base and ENTRIES are writable only while EN is clear; a new ENTRIES restarts the ring at index 0.
(DEDUCED, log entry 33) -/
def State.dmaCfg (s : State) (m : Nat) (val : Word) : State :=
  let off := (F.DMA_RING_CFG_EN m).off
  let e := s.rd (F.DMA_RING_CFG_ENTRIES m)
  let was := s.on (F.DMA_RING_CFG_EN m)
  let s := s.plainWrite off val
  if was then s.wr (F.DMA_RING_CFG_ENTRIES m) e
  else if s.rd (F.DMA_RING_CFG_ENTRIES m) = e then s
  else ((s.setMover m { s.mover m with subs := 0 }).wr (F.DMA_PTR_HEAD m) 0).wr (F.DMA_PTR_TAIL m) 0

/-- R142, R150: the completion status of a descriptor that moves nothing, 0 when it is to be executed. (DEDUCED, log entry 34) -/
def State.descRefusal (s : State) (m : Nat) (b : List Byte) : Nat :=
  let d := descOf b
  if d.bad then 0x0901
  else if s.on (F.DMA_RING_CFG_HOST_OWNED m) && (d.dstSpace == 0 || (d.op != 2 && d.srcSpace == 0)) then 0x0806
  else 0

/-- R149: the length of a TILE from its source header. -/
def tileLength (hdr : List Byte) : Nat := 32 + 16 * leAt hdr 18 2

/-- The 32 descriptor bytes the mover keeps, as its context slot shows them (R157). -/
def Desc.bytes (d : Desc) : List Byte :=
  leBytes 1 d.op ++ leBytes 1 d.dflags ++ leBytes 1 d.srcSpace ++ leBytes 1 d.dstSpace ++ leBytes 4 d.length ++
  leBytes 8 d.src ++ leBytes 8 d.dst ++ leBytes 4 d.fill ++ leBytes 2 d.tag ++ leBytes 2 0

/-- R151, R155: mover `m` faults in its ring descriptor. -/
def State.descFault (s : State) (m : Nat) (r : MoverRun) (e : MoveStop) : State :=
  let tile := r.desc.op == 3
  let b := if tile then s.tileSoFar (r.desc.srcSpace, r.desc.src) e.off else []
  let stop := tileStop e.off (if tile && r.desc.dflags % 2 == 1 then 2 else 0) b e.off r.offset r.acc
  let s := s.setMover m { s.mover m with run := some { r with offset := e.off, acc := stop.sealAcc.toNat } }
  s.faultAccess (0x200 + m) e.space e.va e.write e.kind e.level e.pte stop r.desc.bytes (some (leAt b 4 4))

/-- R150, R156: a TILE descriptor with CHECK verifies the tile it copied, its seal going on from the one it saved: its status.
(DEDUCED, log entry 34) -/
def State.descCheck (s : State) (m : Nat) (r : MoverRun) (len : Nat) : Nat × State :=
  let d := r.desc
  if d.op = 3 ∧ d.dflags % 2 = 1 then
    let b := s.vread d.srcSpace d.src len
    let t := tileOf b ((len - 32) / 16)
    let comp := sealResumed b r.offset r.acc
    match verify t true comp with
    | none => (0, s)
    | some f => (f.code, s.countFailure (0x200 + m) t f policyNone false false comp)
  else (0, s)

/-- R149, R150: run the descriptor in progress of mover `m` from its restart point. -/
def State.descRun (s : State) (m : Nat) (r : MoverRun) : State :=
  let d := r.desc
  let hdrStop := if d.op = 3 then s.unitStop 0 (d.srcSpace, d.src) 32 false else none
  match hdrStop with
  | some e => s.descFault m r e
  | none =>
    let len := if d.op = 3 then tileLength (s.vread d.srcSpace d.src 32) else d.length
    let src := if d.op = 2 then none else some (d.srcSpace, d.src)
    let pat := leBytes 4 d.fill
    match s.move src (fun i => pat.getD (i % 4) 0) [(d.dstSpace, d.dst)] len r.offset with
    | (some e, s) => s.descFault m r e
    | (none, s) =>
      let c := s.descCheck m r len
      c.2.setMover m { c.2.mover m with run := some { r with offset := len, status := c.1, finished := true } }

/-- R149, R150, R154: DESCRIPTOR_EXECUTE: the mover takes the next descriptor of its ring, or continues the one it resumed; a task whose
fault is resolved goes first. -/
def State.descExecute (s : State) (m : Nat) : State :=
  let v := s.mover m
  if v.task.isSome || s.xlt.held.any (fun h => h.fr.requester == 0x200 + m) then s
  else
    match v.run with
    | some r => if r.faulted || r.finished then s else s.descRun m r
    | none =>
      if !s.on (F.DMA_RING_CFG_EN m) || v.subs == 0 || s.taskResolved m then s
      else
        let a := s.descAddr m (s.rd (F.DMA_PTR_HEAD m))
        let b := s.physRead a 32
        let s := s.noteRead a 32
        let st := s.descRefusal m b
        let r : MoverRun := { desc := descOf b, status := st, finished := st != 0 }
        let s := (s.setMover m { v with run := some r }).noteMover m
        if st ≠ 0 then s else s.descRun m r

/-- R150, R159: a descriptor completes with a status: STATUS is written, HEAD advances, flags are set. -/
def State.descEnd (s : State) (m status : Nat) (r : MoverRun) : State :=
  let v := s.mover m
  let head := s.rd (F.DMA_PTR_HEAD m)
  let s := s.physWrite (s.descAddr m head + 30) (leBytes 2 status)
  let s := (s.setMover m { v with run := none, subs := v.subs - 1 }).wr (F.DMA_PTR_HEAD m)
    (if s.ringCap m = 0 then 0 else (head + 1) % s.ringCap m)
  let s := if status ≠ 0 then (s.dmaStatus m status).wr (F.DMA_STAT_ERR m) 1 else s
  let s := if bits r.desc.dflags 1 1 = 1 then
    s.irq 0x09 (F.DMA_STAT_CPL_IRQ m) (F.DMA_RING_CFG_CPL_IRQ_EN m) else s
  s.noteMover m

/-- R150: DESCRIPTOR_COMPLETE. -/
def State.descComplete (s : State) (m : Nat) : State :=
  match (s.mover m).run with
  | some r => if r.finished then s.descEnd m r.status r else s
  | none => s

/-! ### DMA_TILE tasks (R115, R149) -/

/-- The context a faulting DMA_TILE task saves: it as a TILE descriptor (R157). (DEDUCED, log entry 21) -/
def tileTaskBytes (src dst : Nat × Nat) : List Byte :=
  ({ op := 3, dflags := 1, srcSpace := src.1, dstSpace := dst.1, src := src.2, dst := dst.2 } : Desc).bytes

/-- R28, R149: the tile a DMA_TILE task puts: STREAM_ID and SEQ are those of its node and reservation, and it is sealed again, unless
it is marked: a marked tile keeps the seal it came with. (DEDUCED, log entry 21) -/
def dmaOut (t : Task) (o : OutRes) (r : Checked) : Tile :=
  let tile := r.tile
  let out : Tile := { tile with hdr := { tile.hdr with stream := t.nd.stream, seq := o.seq } }
  if t.nd.stream = 0xFFFF ∨ out = tile then tile
  else if r.outcome = 1 then out
  else out.sealed

/-- R52, R149: the tile placed on every reserved entry of the task's port; each entry is completed. (DEDUCED, log entry 21) -/
def State.dmaTaskPut (s : State) (o : OutRes) (out : Tile) : State :=
  s.each o.ents (fun e s =>
    let a := (s.queue e.1).slotAddr e.2
    let v := s.slotVia e.1 a
    (s.vwrite v.1 v.2 out.bytes).complete e.1 e.2 (out.entry a))

/-- R149, R170: DMA_TASK_COMPLETE: mover `m` moves its task's tile, checked under the input edge's policy, and the task
ends; an access that does not translate faults the task instead (R151, R156). (DEDUCED, log entry 21) -/
def State.dmaTaskComplete (s : State) (m : Nat) : State :=
  if s.xlt.held.any (fun h => h.fr.requester == 0x200 + m) then s
  else
  match (s.mover m).task with
  | none => s
  | some slot =>
    match s.task slot with
    | none => s
    | some t =>
      match s.nextClaim t 0 with
      | none => s.endTask slot 0
      | some (c, e) =>
        let v := s.mover m
        let src := s.slotVia c.qid e.addr
        let dsts := (t.outs.headD {}).ents.map (fun x => s.slotVia x.1 ((s.queue x.1).slotAddr x.2))
        let stop (s : State) (x : MoveStop) : State :=
          let b := s.tileSoFar src x.off
          let p := tileStop x.off 2 b x.off v.off v.acc
          (s.setMover m { s.mover m with off := x.off, acc := p.sealAcc.toNat }).faultAccess (0x200 + m) x.space x.va x.write x.kind
            x.level x.pte p (tileTaskBytes src (dsts.headD (0, 0))) (some (leAt b 4 4))
        match s.unitStop 0 src 32 false with
        | some x => stop s { x with off := v.off }
        | none =>
          let len := tileLength (s.vread src.1 src.2 32)
          match s.move (some src) (fun _ => 0) dsts len v.off with
          | (some x, s) => stop s x
          | (none, s) =>
            let b := s.vread src.1 src.2 len
            let tile := tileOf b e.len16
            let r := match s.edge? c.qid with
              | some ed => s.checkTile ed (0x200 + m) tile true (sealResumed b v.off v.acc)
              | none => ({ outcome := 0, tile := tile }, s)
            if r.1.outcome = 3 then r.2.endTask slot 0
            else
              match t.outs with
              | [] => r.2.endTask slot 0
              | o :: rest =>
                let out := dmaOut t o r.1
                match dsts.findSome? (fun d => s.rangeStop d out.bytes.length true) with
                | some x => stop s { x with off := len }
                | none =>
                  let s := r.2.dmaTaskPut o out
                  let s := s.setTask slot (some { t with outs := { o with done := true } :: rest })
                  s.endTask slot 0

/-! ### Commands -/

/-- DMA_DB (R159). -/
def execDmaDb (src : Agent) (mover : Fin 16) (val : Word) (s : State) : Out :=
  .next (s.writeReg src (F.DMA_DB_COUNT mover) val (fun s => s.dmaDoorbell mover ((F.DMA_DB_COUNT mover).of val)))

/-- DESCRIPTOR_EXECUTE (R149, R150). -/
def execDescriptorExecute (mover : Fin 16) (s : State) : Out := .next (s.descExecute mover)

/-- DESCRIPTOR_COMPLETE (R150). -/
def execDescriptorComplete (mover : Fin 16) (s : State) : Out := .next (s.descComplete mover)

/-- DMA_TASK_COMPLETE (R105, R123, R170). -/
def execDmaTaskComplete (mover : Fin 16) (s : State) : Out := .next (s.dmaTaskComplete mover)

/-- Writes of the DMA block by offset. -/
def State.dmaRegWrite (s : State) (o : Nat) (val : Word) : State :=
  let m := o / 0x40
  let r := o % 0x40
  if 16 ≤ m then s
  else if r = 0x0C then s.dmaDoorbell m ((F.DMA_DB_COUNT m).of val)
  else if r = 0x08 then s.dmaCfg m val
  else if (r = 0x00 ∨ r = 0x04) ∧ s.on (F.DMA_RING_CFG_EN m) then s
  else s.plainWrite (blockBase 0x09 + o) val

end Sys2Proof.Machine
end

