-- ==== Sys2Proof/Machine/Control.lean ====
section
/-! DEFINITION. The control units (R410 to R428): claims, switch-overs, faults, drills, paths, the journal, and the doorbells
held in a gap. -/

namespace Sys2Proof.Machine

/-- The other unit. -/
def peer (u : Nat) : Nat := 1 - u

/-- CUX_OWNER.OWNER: the unit that owns, if any. -/
def State.owner (s : State) : Option Nat :=
  match s.rd F.CUX_OWNER_OWNER with
  | 1 => some 0 | 2 => some 1 | _ => none

/-- R410: a unit enters a state; SYNCED belongs to STANDBY. -/
def State.unitState (s : State) (u st : Nat) : State :=
  let s := s.wr (F.CUX_U_STATE_STATE u) st
  if st = 2 then s else s.setSynced u false

/-- Open or close a unit's command port. -/
def State.setPort (s : State) (u : Nat) (b : Bool) : State := s.setUnit u { s.unit u with portOpen := b }

/-- R418: a switch-over is triggered: in every kind but FORCED (4) the outgoing port stops accepting writes.
(DEDUCED, log entry 83) -/
def State.startGap (s : State) (kind : Nat) (outgoing : Option Nat) (incoming : Nat) : State :=
  let s := match outgoing with
    | some o => if kind = 4 then s else s.setPort o false
    | none => s
  let s := s.setCux { s.cux with gap := some { kind := kind, outgoing := outgoing, incoming := incoming, start := s.ref } }
  s.wr F.CUX_OWNER_GAP 1

/-- R418, R423: YIELD or DRILL is refused while a gap, a window or a drill is in progress. (DEDUCED, log entry 85) -/
def State.switchBusy (s : State) : Bool := s.cux.gap.isSome || s.cux.double.isSome || s.cux.drill.isSome

/-- R418: is a unit STANDBY with SYNCED set? -/
def State.fit (s : State) (u : Nat) : Bool := s.ustate u == 2 && s.on (F.CUX_U_STATE_SYNCED u)

/-- R412: CLAIM without FORCE; `both` when the peer claims in the same cycle. -/
def State.claim (s : State) (u : Nat) (both : Bool) : State :=
  let able (v : Nat) : Bool := s.ustate v == 1 || s.ustate v == 2
  if !able u && s.ustate u != 3 then s.cuxReport u 0x0408
  else
    match s.owner, s.cux.gap with
    | none, none =>
      if both && able (peer u) && s.rd F.CUX_OWNER_PREF != u then
        (s.cuxReport u 0x0404).startGap 1 none (peer u)
      else if able u then
        (if both && able (peer u) then s.cuxReport (peer u) 0x0404 else s).startGap 1 none u
      else s
    | none, some g => if g.incoming = u then s else s.cuxReport u 0x0403
    | some o, _ => if o = u then s else s.cuxReport u 0x0403

/-- R420: an accepted forced claim. (DESIGN CHOICE, log entry 84) -/
def State.forcedClaim (s : State) (u : Nat) : State :=
  if s.cux.gap.isSome then s
  else
    match s.owner with
    | some o => if o = u then s else s.startGap 4 (some o) u
    | none => s.startGap 1 none u

/-- R412, R420: CLAIM with FORCE. -/
def State.claimForce (s : State) (u : Nat) : State :=
  if s.ustate u = 3 then s
  else if s.ustate u ≠ 1 ∧ s.ustate u ≠ 2 then s.cuxReport u 0x0408
  else if s.owner.isSome && s.pathUp u then s.cuxReport u 0x0405
  else s.forcedClaim u

/-- R418: YIELD. -/
def State.yieldTo (s : State) (u : Nat) : State :=
  if s.owner ≠ some u then s.cuxReport u 0x0401
  else if s.switchBusy then s.cuxReport u 0x0407
  else if !s.fit (peer u) then s.cuxReport u 0x0406
  else s.startGap 2 (some u) (peer u)

/-- R415: READY. -/
def State.ready (s : State) (u : Nat) : State :=
  if s.ustate u = 1 ∧ s.pathUp u ∧ !(s.unit u).lost then (s.unitState u 2).setSynced u true else s.cuxReport u 0x0408

/-- R423: a drill is over. -/
def State.drillOver (s : State) (starter : Nat) : State :=
  let s := (s.setCux { s.cux with drill := none }).wr (F.CUX_U_STATE_DRILL starter) 0
  (s.unitIrq 0 4).unitIrq 1 4

/-- R423: DRILL_MS has passed, or the unit that started the drill ends it. (DEDUCED, log entry 85) -/
def State.drillEnd (s : State) : State :=
  match s.cux.drill with
  | none => s
  | some u =>
    if s.cux.gap.isSome then s
    else if s.fit u ∧ s.owner = some (peer u) then s.startGap 7 (some (peer u)) u
    else (s.drillOver u).cuxReport u 0x0411

/-- R423: a write of DRILL. -/
def State.drill (s : State) (u : Nat) : State :=
  if s.cux.drill = some u then s.drillEnd
  else if s.owner ≠ some u then s.cuxReport u 0x0401
  else if s.switchBusy then s.cuxReport u 0x0407
  else if !s.fit (peer u) then s.cuxReport u 0x0406
  else s.startGap 6 (some u) (peer u)

/-- R417, R465: the owner is gone without a successor; the Keeper restarts the faulted unit. (DEDUCED, log entry 94) -/
def State.lapse (s : State) (u : Nat) : State := ((s.wr F.CUX_OWNER_OWNER 0).cuxReport u 0x0412).restartUnit u 3

/-- R417, R423: a unit diagnoses a fault in itself. (DEDUCED, log entry 83) -/
def State.selfFault (s : State) (u cause : Nat) : State :=
  if s.ustate u = 0 ∨ s.ustate u = 4 then s
  else
    let owns := s.owner == some u
    let s := (s.setPort u false).unitState u 4
    let s := (s.wr (F.CUX_U_STATE_FAULT_CAUSE u) cause).setUnit u { s.unit u with portOpen := false, causeHolds := cause == 1 }
    let s := (s.cuxReport u 0x0410).handoverFail u
    let s := match s.cux.drill with
      | some st => if owns ∧ st ≠ u then (s.drillOver st).cuxReport st 0x0411 else s
      | none => s
    match s.cux.gap with
    | some g =>
      if g.incoming = u then
        let s := (s.setCux { s.cux with gap := none }).wr F.CUX_OWNER_GAP 0
        match g.outgoing with
        | some o => if s.ustate o = 3 then s.setPort o true else s.lapse u
        | none => s.lapse u
      else s
    | none =>
      if !owns then s
      else if s.ustate (peer u) = 2 then s.startGap 3 (some u) (peer u)
      else s.lapse u

/-- R417: CLEAR_FAULT. (DEDUCED, log entry 85) -/
def State.clearFault (s : State) (u : Nat) : State :=
  if s.ustate u = 4 ∧ !(s.unit u).causeHolds then (s.unitState u 1).wr (F.CUX_U_STATE_FAULT_CAUSE u) 0
  else s.cuxReport u 0x0402

/-- R417: a write of CUX_U_KICK. -/
def State.kick (s : State) (u : Nat) : State := s.setUnit u { s.unit u with kicked := s.ref, causeHolds := false }

/-! ### Paths (R416) -/

/-- R416: the PATH bit of a unit. -/
def pathFld (u : Nat) (k : Bool) : Fld := if k then F.CUX_U_STATE_PATH_K u else F.CUX_U_STATE_PATH_L u

/-- R415, R416: unit `u` receives a heartbeat on a path. -/
def State.heartbeat (s : State) (u : Nat) (k : Bool) : State :=
  if s.ustate u = 0 ∨ s.ustate (peer u) = 0 ∨ s.on (pathFld u k) then s
  else
    let s := ((s.wr (pathFld u k) 1).cuxReport u 0x040C).unitIrq u 1
    if s.ustate u = 2 ∧ !s.on (F.CUX_U_STATE_SYNCED u) then s.unitState u 1 else s

/-- R416, R420: unit `u` declares a path down. (DEDUCED, log entry 85) -/
def State.pathDown (s : State) (u : Nat) (k : Bool) : State :=
  if !s.on (pathFld u k) then s
  else
    let s := ((s.wr (pathFld u k) 0).inc (if k then F.CUX_MISS_K_COUNT else F.CUX_MISS_L_COUNT)).unitIrq u 1
    if s.pathUp u then s.cuxReport u 0x040B
    else
      let s := s.cuxReport u 0x040D
      if s.ustate u = 2 ∧ s.on F.CUX_CFG_AUTO_CLAIM then s.forcedClaim u else s

/-! ### The end of a gap and of a double-acting window (R418 to R421) -/

/-- R419: what a doorbell register's write does. -/
def State.doorbellEffect (s : State) (off : Nat) (val : Word) : State :=
  let b := off / 0x40000
  let o := off % 0x40000
  if b = 0x0A then (if o = 0x34 then s.hqDoorbell true val else s.hqDoorbell false val)
  else if b = 0x09 then s.dmaDoorbell (o / 0x40) ((F.DMA_DB_COUNT (o / 0x40)).of val)
  else s.chanDoorbell ((o - 0x800) / 0x20) (val.toNat % 65536)

/-- R419: the held doorbells, and those of stalled writers, are applied in order, each mirrored with HELD set.
(DEDUCED, log entry 83) -/
def State.applyHeld (s : State) : State :=
  let l := s.cux.held ++ s.cux.stalled
  let s := (s.setCux { s.cux with held := [], stalled := [] }).wr F.CUX_HOLD_HELD 0
  s.each l (fun d s => (s.mirror d.src d.off .word d.val true).doorbellEffect d.off d.val)

/-- R418, R419, R421: the gap ends: held doorbells are applied, the incoming port opens and CUX_OWNER names it.
(DESIGN CHOICE, log entry 6; DEDUCED, log entry 83) -/
def State.gapEnd (s : State) (cycles : Nat) : State :=
  match s.cux.gap with
  | none => s
  | some g =>
    let s := s.applyHeld
    let s := (s.setCux { s.cux with gap := none }).wr F.CUX_OWNER_GAP 0
    let s := s.wr F.CUX_LAST_SYNC_SEQ_SEQ (s.rd F.CUX_SYNC_SEQ_SEQ + 2 ^ 32 - 1)
    let s := (s.wr F.CUX_OWNER_OWNER (g.incoming + 1)).wr F.CUX_OWNER_LAST_KIND g.kind
    let s := (s.wr F.CUX_LAST_GAP_CYCLES (min 256 cycles)).incWrap F.CUX_SWITCH_COUNT_COUNT
    let s := (s.setPort g.incoming true).unitState g.incoming 3
    let s := match g.outgoing with
      | none => s
      | some o =>
        if g.kind = 4 then
          (if (s.unit o).portOpen then (s.setCux { s.cux with double := some (o, s.ref) }).wr F.CUX_OWNER_DOUBLE 1 else s)
        else if s.ustate o = 3 then (s.unitState o 2).setSynced o true
        else s
    let s := if g.kind = 4 then s.cuxReport g.incoming 0x040E else s
    let s := match g.kind, g.outgoing with
      | 6, some o => (s.setCux { s.cux with drill := some o }).wr (F.CUX_U_STATE_DRILL o) 1
      | 7, _ => s.drillOver g.incoming
      | _, _ => s
    (s.unitIrq 0 0).unitIrq 1 0

/-- R421: the grant of the outgoing unit of a forced claim clears. -/
def State.ownershipLost (s : State) (cycles : Nat) : State :=
  let out := match s.cux.double, s.cux.gap with
    | some (o, _), _ => some o
    | none, some g => if g.kind = 4 then g.outgoing else none
    | none, none => none
  match out with
  | none => s
  | some o =>
    let window := if s.cux.double.isSome then min 2048 cycles else 0
    let s := (s.setPort o false).setCux { (s.setPort o false).cux with double := none }
    let s := (s.wr F.CUX_OWNER_DOUBLE 0).wr F.CUX_LAST_DOUBLE_CYCLES window
    let s := (s.cuxReport o 0x040F).unitIrq o 3
    if s.ustate o = 3 then s.unitState o 1 else s

/-- R422: the conditions of RETURN have held for RETURN_MS. -/
def State.returnPreferred (s : State) : State :=
  let p := s.rd F.CUX_OWNER_PREF
  if s.on F.CUX_CFG_AUTO_RETURN ∧ s.fit p ∧ s.owner = some (peer p) ∧ s.pathUp p ∧ s.cux.drill.isNone ∧ s.cux.gap.isNone then
    s.startGap 5 (some (peer p)) p
  else s

/-! ### The journal (R414, R415) -/

/-- R414: put bytes into a 64 KiB ring of a unit's local SRAM, wrapping at its end; `at16` counts 16-byte units.
(DESIGN CHOICE, log entry 84) -/
def State.ringPut (s : State) (u base at16 : Nat) (b : List Byte) : State :=
  let first := 65536 - at16 * 16 % 65536
  let a := base * 65536
  (s.sramWrite u (a + at16 * 16 % 65536) (b.take first)).sramWrite u a (b.drop first)

/-- R414: `n` bytes of a 64 KiB ring of a unit. -/
def State.ringGet (s : State) (u base at16 n : Nat) : List Byte :=
  (List.range n).map (fun i => (s.sramRead u (base * 65536 + (at16 * 16 + i) % 65536) 1).headD 0)

/-- R414, R415: a journal record is delivered to a non-owner unit, or lost to it. -/
def State.journalTo (s : State) (u seq : Nat) (body : List Byte) : State :=
  if s.ustate u ≠ 1 ∧ s.ustate u ≠ 2 then s
  else
    let head := s.rd (F.CUX_U_JRX_PTR_HEAD u)
    let tail := s.rd (F.CUX_U_JRX_PTR_TAIL u)
    let n := 1 + body.length / 16
    if s.pathUp u ∧ (tail + 4096 - head) % 4096 + n < 4096 then
      let hdr := leBytes 4 seq ++ leBytes 2 (body.length / 16) ++ leBytes 1 (if (s.unit u).lost then 1 else 0) ++ leBytes 1 0 ++
        leBytes 4 s.ref32 ++ leBytes 4 (crc 0 0 body)
      let s := (s.setUnit u { s.unit u with lost := false }).ringPut u (s.rd (F.CUX_U_JRX_BASE_BASE u)) tail (hdr ++ body)
      (s.wr (F.CUX_U_JRX_PTR_TAIL u) ((tail + n) % 4096)).unitIrq u 6
    else s.recordLost u

/-- R414: a journal doorbell of unit `u`. (DESIGN CHOICE, log entry 84) -/
def State.journalDb (s : State) (u len : Nat) : State :=
  if s.owner ≠ some u then s.cuxReport u 0x0401
  else if len < 16 ∨ 4096 < len ∨ len % 16 ≠ 0 then s.cuxReport u 0x0402
  else
    let head := s.rd (F.CUX_U_JTX_PTR_HEAD u)
    let tail := s.rd (F.CUX_U_JTX_PTR_TAIL u)
    if 4096 ≤ (tail + 4096 - head) % 4096 + len / 16 then s.cuxReport u 0x040A
    else
      let body := s.ringGet u (s.rd (F.CUX_U_JTX_BASE_BASE u)) tail len
      let seq := s.rd F.CUX_SYNC_SEQ_SEQ
      let next := (tail + len / 16) % 4096
      let s := (s.incWrap F.CUX_SYNC_SEQ_SEQ).journalTo (peer u) seq body
      (s.wr (F.CUX_U_JTX_PTR_TAIL u) next).wr (F.CUX_U_JTX_PTR_HEAD u) next

/-! ### Register writes (R426, R427) -/

/-- R427: a write of CUX_U_CTRL: one bit, or CLAIM with FORCE; `both` when the peer claims in the same cycle. -/
def State.unitCtrl (s : State) (u : Nat) (val : Word) (both : Bool) : State :=
  match (val &&& 0xFB).toNat with
  | 0 => s
  | 0x01 => s.claim u both
  | 0x03 => s.claimForce u
  | 0x08 => s.yieldTo u
  | 0x10 => s.selfFault u 4
  | 0x20 => s.clearFault u
  | 0x40 => s.ready u
  | 0x80 => s.drill u
  | _ => s.cuxReport u 0x0402

/-- R427: a write of one of unit `u`'s registers. -/
def State.unitRegWrite (s : State) (u r : Nat) (val : Word) : State :=
  let off := (F.CUX_U_STATE_STATE u).off + r
  if r = 0x04 then s.unitCtrl u val false
  else if r = 0x08 then s.kick u
  else if r = 0x0C then
    let s := (s.plainWrite off val)
    s.setUnit u { s.unit u with kicked := s.ref, causeHolds := (s.unit u).causeHolds && (s.rd (F.CUX_U_WDOG_WDOG_US u) != 0) }
  else if r = 0x24 then s.journalDb u ((F.CUX_U_JTX_DB_LEN u).of val)
  else if r = 0x18 ∨ r = 0x20 ∨ r = 0x2C then (if s.ustate u = 1 ∨ s.ustate u = 4 then s.plainWrite off val else s)
  else s.plainWrite off val

/-- Writes of the CUX block by offset. -/
def State.cuxRegWrite (s : State) (o : Nat) (val : Word) : State :=
  let off := blockBase 0x04 + o
  if 0x100 ≤ o ∧ o < 0x200 then s.unitRegWrite ((o - 0x100) / 0x80) (o % 0x80) val
  else if o = 0x004 then
    let m := F.CUX_CFG_MISS_COUNT.of val
    let h := F.CUX_CFG_HB_US.of val
    if m < 2 ∨ h < 10 ∨ 10000 < h then s.wr F.CUX_STATUS_STATUS 0x0402 else s.plainWrite off val
  else s.plainWrite off val

/-! ### Commands -/

/-- CLAIM: CUX_U_CTRL written with CLAIM (R412); `both` when the peer claims in the same cycle (R425). -/
def execClaim (src : Agent) (unit : Fin 2) (both : Bool) (s : State) : Out :=
  .next (s.writeReg src (F.CUX_U_CTRL_CLAIM unit) 0x01 (fun s => s.unitCtrl unit 0x01 both))

/-- FORCE: CUX_U_CTRL written with CLAIM and FORCE (R420). -/
def execForce (src : Agent) (unit : Fin 2) (s : State) : Out :=
  .next (s.writeReg src (F.CUX_U_CTRL_CLAIM unit) 0x03 (fun s => s.unitCtrl unit 0x03 false))

/-- YIELD (R418). -/
def execYield (src : Agent) (unit : Fin 2) (s : State) : Out :=
  .next (s.writeReg src (F.CUX_U_CTRL_CLAIM unit) 0x08 (fun s => s.unitCtrl unit 0x08 false))

/-- READY (R415). -/
def execReady (src : Agent) (unit : Fin 2) (s : State) : Out :=
  .next (s.writeReg src (F.CUX_U_CTRL_CLAIM unit) 0x40 (fun s => s.unitCtrl unit 0x40 false))

/-- DECLARE_FAULT (R417). -/
def execDeclareFault (src : Agent) (unit : Fin 2) (s : State) : Out :=
  .next (s.writeReg src (F.CUX_U_CTRL_CLAIM unit) 0x10 (fun s => s.unitCtrl unit 0x10 false))

/-- CLEAR_FAULT (R417). -/
def execClearFault (src : Agent) (unit : Fin 2) (s : State) : Out :=
  .next (s.writeReg src (F.CUX_U_CTRL_CLAIM unit) 0x20 (fun s => s.unitCtrl unit 0x20 false))

/-- DRILL (R423). -/
def execDrill (src : Agent) (unit : Fin 2) (s : State) : Out :=
  .next (s.writeReg src (F.CUX_U_CTRL_CLAIM unit) 0x80 (fun s => s.unitCtrl unit 0x80 false))

/-- CUX_U_KICK (R417). -/
def execCuxUKick (src : Agent) (unit : Fin 2) (val : Word) (s : State) : Out :=
  .next (s.writeReg src (F.CUX_U_KICK_KICK unit) val (fun s => s.kick unit))

/-- SELF_FAULT: the watchdog expires, an uncorrectable ECC error, or cclk is lost (R417). -/
def execSelfFault (unit : Fin 2) (cause : Fin 3) (s : State) : Out :=
  .next (if cause = 0 ∧ !s.watchdogRuns unit then s else s.selfFault unit (cause + 1))

/-- JTX_DB (R414). -/
def execJtxDb (src : Agent) (unit : Fin 2) (val : Word) (s : State) : Out :=
  .next (s.writeReg src (F.CUX_U_JTX_DB_LEN unit) val (fun s => s.journalDb unit ((F.CUX_U_JTX_DB_LEN unit).of val)))

/-- HEARTBEAT (R416). -/
def execHeartbeat (unit : Fin 2) (pathK : Bool) (s : State) : Out := .next (s.heartbeat unit pathK)

/-- PATH_DOWN (R416). -/
def execPathDown (unit : Fin 2) (pathK : Bool) (s : State) : Out := .next (s.pathDown unit pathK)

/-- SWITCH_OVER_GAP_END (R418, R419). -/
def execSwitchOverGapEnd (cycles : BitVec 16) (s : State) : Out := .next (s.gapEnd cycles.toNat)

/-- DOORBELL_HOLD: a write of a doorbell register, held while a gap is in progress (R419). -/
def execDoorbellHold (src : Agent) (off : BitVec 24) (val : Word) (s : State) : Out :=
  .next (if isDoorbell off.toNat then s.write src off.toNat .word val (fun s => s.doorbellEffect off.toNat val) else s)

/-- OWNERSHIP_LOST (R421). -/
def execOwnershipLost (cycles : BitVec 16) (s : State) : Out := .next (s.ownershipLost cycles.toNat)

/-- RETURN (R422). -/
def execReturnPref (s : State) : Out := .next s.returnPreferred

/-- DRILL_END: DRILL_MS has passed (R423). -/
def execDrillEnd (s : State) : Out := .next s.drillEnd

end Sys2Proof.Machine
end

