-- ==== Sys2Proof/Machine/Faults.lean ====
section
/-! DEFINITION. The resolution of translation faults (R153 to R156). -/

namespace Sys2Proof.Machine

/-- Where a fault is held: a context slot, or in place at its requester (R151). -/
inductive FaultAt where
  | slot (c : Nat) (x : Ctx)
  | place (h : Held)
  deriving DecidableEq, Repr

/-- The FAULT_SEQ of a held fault (R151). -/
def FaultAt.seq : FaultAt → Nat
  | .slot _ x => x.seq
  | .place h => h.fr.seq

/-- The space of a held fault (R151). -/
def FaultAt.space : FaultAt → Nat
  | .slot _ x => x.space
  | .place h => h.fr.space

/-- The requester that faulted (R151). -/
def FaultAt.requester : FaultAt → Nat
  | .slot _ x => x.requester
  | .place h => h.fr.requester

/-- R153: the faults that are held and not yet resolved. -/
def State.faults (s : State) : List FaultAt :=
  (s.xlt.ctxs.filter (fun e => e.2.state == 2 && !e.2.resolved)).map (fun e => .slot e.1 e.2) ++
    (s.xlt.held.filter (fun h => h.written)).map .place

/-- R153: the fault that XLT_RESOLVE_ID and XLT_RESOLVE_SEQ name. -/
def State.namedFault (s : State) : Option FaultAt :=
  let id := s.rd F.XLT_RESOLVE_ID_ID
  let named (f : FaultAt) : Bool :=
    if s.on F.XLT_RESOLVE_ID_BY_NODE then f.requester == id
    else match f with
      | .slot c _ => c == id
      | .place _ => false
  s.faults.find? (fun f => f.seq == s.rd F.XLT_RESOLVE_SEQ_FAULT_SEQ && named f)

/-- A fault held in place is let go. -/
def State.unhold (s : State) (h : Held) : State :=
  let s := s.setXlt { s.xlt with held := s.xlt.held.erase h }
  if h.fr.rclass = 4 then s.wr (F.HIF_CH_INFO_HELD h.fr.task) 0 else s

/-- R153 to R155: the fault is resolved: work in a context slot is marked; an encoder core and a requester that waits in place continue. -/
def State.markResolved (s : State) : FaultAt → State
  | .place h => s.unhold h
  | .slot c x =>
    if x.rclass = 3 then s.setCtx c {}
    else
      let s := s.setCtx c { x with resolved := true }
      if x.node = 0 then s
      else match s.task x.task with
        | some t => s.setTask x.task (some { t with resolved := true })
        | none => s

/-- R154, R155: an engine or mover whose work is resolved takes back what stopped earliest, when it is free. -/
def State.resumeUnit (s : State) : FaultAt → State
  | .place _ => s
  | .slot _ x =>
    if x.rclass = 1 then s.resumeEngine (x.requester - 0x100)
    else if x.rclass = 2 then s.resumeMover (x.requester - 0x200)
    else s

/-- R153 to R155: RETRY of one fault. -/
def State.retryFault (s : State) (f : FaultAt) : State := (s.markResolved f).resumeUnit f

/-- R156: the work of a requester ends with FAULT_ABORTED: a task as a cancelled one, a descriptor, a core's picture or a
host-side transfer. -/
def State.abortWork (s : State) (rclass requester node task : Nat) : State :=
  if rclass = 3 then s.encAbort (requester - 0x400) task
  else if rclass = 4 then s.chanAbort task
  else if node ≠ 0 then s.endTask task 0x080B
  else
    match (s.mover (requester - 0x200)).run with
    | some r => s.descEnd (requester - 0x200) 0x080B r
    | none => s

/-- R153, R156: ABORT of one fault. -/
def State.abortFault (s : State) : FaultAt → State
  | .place h => (s.unhold h).abortWork h.fr.rclass h.fr.requester h.fr.node h.fr.task
  | .slot c x => (s.setCtx c {}).abortWork x.rclass x.requester x.node x.task

/-- XLT_RESOLVE_RESULT (R158). (DEDUCED, log entry 121) -/
def State.resolveResult (s : State) (status released : Nat) : State :=
  (s.wr F.XLT_RESOLVE_RESULT_STATUS status).wr F.XLT_RESOLVE_RESULT_RELEASED released

/-- R153: resolve the named fault by `act`, or refuse with RESOLVE_STALE. (DEDUCED, log entry 121) -/
def State.resolveNamed (s : State) (act : State → FaultAt → State) : State :=
  match s.namedFault with
  | some f => (act s f).resolveResult 0 1
  | none => s.resolveResult 0x080A 0

/-- R153, R154: RETRY_SPACE: every fault of the space is resolved before work is taken back. (DEDUCED, log entry 121) -/
def State.retrySpace (s : State) : State :=
  let l := s.faults.filter (fun f => f.space == s.rd F.XLT_RESOLVE_ID_ID % 256)
  ((s.each l (fun f s => s.markResolved f)).each l (fun f s => s.resumeUnit f)).resolveResult 0 (l.length % 0x10000)

/-- R153: a write of XLT_RESOLVE_CMD. -/
def State.resolveCmd (s : State) (action : Nat) : State :=
  if action = 1 then s.resolveNamed State.retryFault
  else if action = 2 then s.resolveNamed State.abortFault
  else if action = 3 then s.retrySpace
  else s

/-- RETRY (R153 to R155). -/
def execRetry (src : Agent) (s : State) : Out :=
  .next (s.writeReg src F.XLT_RESOLVE_CMD_ACTION 1 (fun s => s.resolveCmd 1))

/-- ABORT (R153, R156). -/
def execAbort (src : Agent) (s : State) : Out :=
  .next (s.writeReg src F.XLT_RESOLVE_CMD_ACTION 2 (fun s => s.resolveCmd 2))

/-- RETRY_SPACE (R153). -/
def execRetrySpace (src : Agent) (s : State) : Out :=
  .next (s.writeReg src F.XLT_RESOLVE_CMD_ACTION 3 (fun s => s.resolveCmd 3))

/-- Writes of the XLT block by offset. -/
def State.xltRegWrite (s : State) (o : Nat) (val : Word) : State :=
  if o = 0x008 then s.spaceReq val
  else if o = 0x014 then s.spaceRoot false val
  else if o = 0x018 then s.spaceRoot true val
  else if o = 0x01C then s.spaceCmd (val.toNat % 4)
  else if o = 0x030 then s.invCmd val
  else if o = 0x040 then s.fqHead val
  else if o = 0x058 then s.resolveCmd (val.toNat % 4)
  else s.plainWrite (blockBase 0x08 + o) val

end Sys2Proof.Machine
end

