-- ==== Sys2Proof/Machine/Power.lean ====
section
/-! DEFINITION. Power entry, telemetry, Dusk and Midnight, power islands, and clocks (chapter 17), and the warm reset (R454). -/

namespace Sys2Proof.Machine

/-- R452: the PWR block reports a status. -/
def State.pwrStatus (s : State) (code : Nat) : State := s.wr F.PWR_STATUS_STATUS code

/-- R452: the CLK block reports a status. -/
def State.clkStatus (s : State) (code : Nat) : State := s.wr F.CLK_STATUS_STATUS code

/-- R436: is the module powered beyond the always-on domain? (DEDUCED, log entry 5) -/
def State.powered (s : State) : Bool := s.rd F.PWR_STATUS_DAY != 0

/-! ### Telemetry (R430, R434, R435) -/

/-- The mean of a list of readings. (DESIGN CHOICE, log entry 96) -/
def mean (l : List Nat) : Nat := l.sum / max 1 l.length

/-- A temperature in 1/16 °C as a 16-bit field. -/
def temp16 (t : Int) : Nat := (t % 65536).toNat

/-- R434: does the reference check hold the telemetry converter? -/
def State.telemetryHeld (s : State) : Bool :=
  (List.range 8).any (fun n => s.rd (F.BIST_S_STATUS_STATE n) == 2 && (s.bistSlot n).target == 0x30)

/-- R434: die temperatures are read. (DESIGN CHOICE, log entry 96) -/
def State.readTemps (s : State) (temps : List Int) : State :=
  let t := (List.range 4).map (fun i => temps.getD i 0)
  let hi := (t.drop 1).foldl max (t.headD 0)
  let warn := signed 16 (s.rd F.PWR_TEMP_WARN_TEMP)
  let old := signed 16 (s.rd F.PWR_TEMP_MAX)
  let seen := s.pwr.tempSeen
  let s := s.setPwr { s.pwr with temps := t, tempSeen := true, warned := s.pwr.warned.filter (fun d => decide (warn < t.getD d 0)) }
  let s := (s.wr F.PWR_TEMP_CUR (temp16 hi)).wr F.PWR_TEMP_MAX (temp16 (if seen then max old hi else hi))
  s.wr F.CAL_TEMP_CUR (temp16 (max (t.getD 1 0) (t.getD 2 0)))

/-- R435: LOWIN clears when the average rises above the threshold by more than 100 mV. -/
def State.lowinClear (s : State) : State :=
  if s.on F.PWR_STATUS_LOWIN ∧ s.rd F.PWR_LOWIN_THRESH_MV + 100 < s.rd F.PWR_VIN_VIN then
    (s.wr F.PWR_STATUS_LOWIN 0).wr F.PWR_STATUS_LOWIN_1S 0
  else s

/-- R434: a sample of VIN and the input current, and the temperatures when they are read. (DESIGN CHOICE, log entry 96) -/
def State.telemetry (s : State) (mv ma : Nat) (temps : Option (List Int)) : State :=
  if !s.powered || s.telemetryHeld then s
  else
    let l := ((mv, ma) :: s.pwr.samples).take 100
    let s := s.setPwr { s.pwr with samples := l }
    let vin := mean (l.map (fun x => x.1))
    let low := s.rd F.PWR_VIN_VIN_MIN
    let s := (s.wr F.PWR_VIN_VIN vin).wr F.PWR_VIN_VIN_MIN (if low = 0 then vin else min low vin)
    let s := (s.wr F.PWR_IIN_MA (mean (l.map (fun x => x.2)))).wr F.PWR_PIN_MW (mean (l.map (fun x => x.1 * x.2 / 1000)))
    let s := s.lowinClear
    match temps with
    | none => s
    | some t => s.readTemps t

/-- R435: the 1 ms average of VIN is below THRESH_MV. -/
def State.lowInput (s : State) : State :=
  if !s.powered || s.on F.PWR_STATUS_LOWIN || decide (s.rd F.PWR_LOWIN_THRESH_MV ≤ s.rd F.PWR_VIN_VIN) then s
  else ((s.wr F.PWR_STATUS_LOWIN 1).pwrStatus 0x0201).irq 0x02 F.PWR_STATUS_LOWIN_IRQ F.PWR_CTRL_LOWIN_IRQ_EN

/-- R450, R452: a die's sensor has risen above PWR_TEMP_WARN. -/
def State.tempWarn (s : State) (d : Nat) : State :=
  if s.powered && !s.pwr.warned.contains d && decide (signed 16 (s.rd F.PWR_TEMP_WARN_TEMP) < s.pwr.temps.getD d 0) then
    let s := s.setPwr { s.pwr with warned := s.pwr.warned ++ [d] }
    (s.pwrStatus 0x0204).irq 0x02 F.PWR_STATUS_TEMP_IRQ F.PWR_CTRL_TEMP_IRQ_EN
  else s

/-- R430, R431: a sensor reads above 125 °C: Midnight at once; the time Dawn takes up is open, as the Keeper took no timestamp.
(DEDUCED, log entry 92) -/
def State.overTemp (s : State) (temp : Int) : State :=
  if !s.powered || decide (temp ≤ 2000) then s
  else
    let t := s.takeFree 96
    (t.2.setPtp { t.2.ptp with duskT := t.1 }).enterMidnight 2

/-! ### Dusk (R437, R438, R442) -/

/-- R437, R454, R496: a take that is not IDLE, or an on-air stream. -/
def State.dayBusy (s : State) : Bool := s.take != 0 || (List.range 32).any (fun c => s.on (F.ENC_S_CTRL_ON_AIR c))

/-- R503: staged work, or the rest of a handover, is given up. (DEDUCED, log entry 114) -/
def State.updDrop (s : State) : State := ((s.setUpd {}).wr F.UPD_STATUS_STATE 0).wr F.UPD_STATUS_PARTS 0

/-- R503: an activation is past its wait for maintenance: SLEEP and warm reset wait until it ends. -/
def State.updHolds (s : State) : Bool := s.rd F.UPD_STATUS_STATE == 3 && s.upd.writing

/-- R437, R438 step 1: Dusk starts. -/
def State.startDusk (s : State) (force : Bool) : State :=
  let s := (s.updDrop.wr F.PWR_STATUS_DAY 3).setPwr { s.updDrop.pwr with dusk := 1, force := force }
  if force then s.takeAbort else s

/-- R437: SLEEP. (DEDUCED, log entry 114) -/
def State.sleepCmd (s : State) (force : Bool) : State :=
  if s.rd F.PWR_STATUS_DAY ≠ 2 then s
  else if s.dayBusy && !force then s.pwrStatus 0x0202
  else if s.updHolds then s.setPwr { s.pwr with afterUpd := some (if force then 2 else 1, 0) }
  else s.startDusk force

/-- R450: a write of PWR_CTRL. -/
def State.pwrCtrl (s : State) (val : Word) : State :=
  let sleep := F.PWR_CTRL_SLEEP.of val == 1
  let force := F.PWR_CTRL_FORCE.of val == 1
  if force && !sleep then s.pwrStatus 0x0203
  else
    let s := s.plainWrite F.PWR_CTRL_SLEEP.off val
    if sleep then s.sleepCmd force else s

/-- The value of the register of `f` with that field cleared. -/
def State.without (s : State) (f : Fld) : Word := f.put (s.reg f.off) 0

/-- R438 step 2: every enable of R442 is cleared, and every test is cut short (R482). -/
def State.clearEnables (s : State) : State :=
  let s := s.setMnt { s.mnt with heldEn := [] }
  let s := s.each (List.range 8) (fun n s => s.bistOpen.2.bistCut n s.bistOpen.1)
  let s := s.each (List.range 32) (fun c s => s.encCtrl c (s.without (F.ENC_S_CTRL_EN c)))
  let s := s.each (List.range 4) (fun h s => s.headCtrl h (s.without (F.CMP_H_CTRL_EN h)))
  let s := s.each (List.range 4) (fun n s => s.sdiCfg n (s.without (F.SDI_S_CFG_EN n)))
  let s := s.each (List.range 8) (fun p s => s.netPortSet p (s.without (F.NET_P_CTRL_EN p)))
  let s := s.each (List.range 4) (fun p s => s.audCtrl p (s.without (F.AUD_P_CTRL_EN p)))
  let s := s.each (List.range 4) (fun p s => s.magCtrl p (s.without (F.MAG_P_CTRL_EN p)))
  s.each (List.range 4) (fun g s => s.grpSet g (s.without (F.SLK_G_CFG_EN g)))

/-- R438 step 2: has every shutdown run to its end? (DEDUCED, log entry 114) -/
def State.shutDown (s : State) : Bool :=
  (List.range 32).all (fun c => !s.on (F.ENC_S_STATUS_SHUTTING_DOWN c)) &&
    (List.range 4).all (fun h => !s.on (F.CMP_H_STATUS_SHUTTING_DOWN h) && !s.on (F.SDI_S_STATUS_SHUTTING_DOWN h) &&
      !s.on (F.AUD_P_STATUS_SHUTTING_DOWN h) && s.rd (F.MAG_P_STATUS_PSTATE h) == 0) &&
    (List.range 8).all (fun p => !s.on (F.NET_P_STATUS_SHUTTING_DOWN p))

/-- R438 step 4: every island that is AWAKE drains. -/
def State.drainAll (s : State) : State :=
  s.each ((List.range 32).filter isIsland) (fun i s => if s.island i = 2 then s.wr (F.PWR_ISL_STATE i) 3 else s)

/-- R438 step 7, R440: Midnight; Dawn follows at once when a wake source was latched, unless the power die is too hot (R430).
(DEDUCED, log entry 114) -/
def State.duskEnd (s : State) : State :=
  let latched := if s.pwr.temps.getD 3 0 < 1600 then s.pwr.latched else none
  let s := s.enterMidnight 1
  match latched with
  | some src => s.wakeUp src 0
  | none => s

/-- R438: the step of Dusk in progress ends, once what it does has been done, and the next begins. -/
def State.duskStep (s : State) : State :=
  let next (s : State) (n : Nat) : State := s.setPwr { s.pwr with dusk := n }
  match s.pwr.dusk with
  | 0 => s
  | 1 => if s.take = 0 then (next s 2).clearEnables else s
  | 2 =>
    if s.shutDown then
      let s := (next s 3).setSch { s.sch with stopped := true }
      s.each s.taskList (fun e s => s.cancelTask e.1)
    else s
  | 3 => if s.taskList.isEmpty then (next s 4).drainAll else s
  | 4 =>
    if ((List.range 32).filter isIsland).all (fun i => s.island i == 0) then ((next s 5).duskTime.holdUnit 0).holdUnit 1 else s
  | 5 => (next s 6).loseMem 0
  | _ => s.duskEnd

/-! ### Midnight (R430, R440) -/

/-- R440: the wake source recorded for an ao-tick: WAKE_N, then ALARM, then INPUT_RISE. (DEDUCED, log entry 114) -/
def State.wakeOf (s : State) (t : WakeTick) : Option Nat :=
  let rose := match t.rise with
    | some (a, b) => decide (a.toNat < s.rd F.PWR_WAKE_VIN_MV) && decide (s.rd F.PWR_WAKE_VIN_MV ≤ b.toNat)
    | none => false
  if t.wakeN && s.on F.PWR_WAKE_CFG_WAKE_N_EN then some 1
  else if t.alarm && s.on F.PWR_WAKE_CFG_ALARM_EN then some 2
  else if rose && s.on F.PWR_WAKE_CFG_INPUT_RISE_EN then some 3
  else none

/-- R430, R440: a wake source ends Midnight, or is latched during Dusk; a hot power die holds the module in Midnight. -/
def State.wake (s : State) (t : WakeTick) : State :=
  match s.wakeOf t with
  | none => s
  | some src =>
    if s.pwr.dusk ≠ 0 then (if s.pwr.latched.isSome then s else s.setPwr { s.pwr with latched := some src })
    else if s.powered || s.pwr.cold || decide (1600 ≤ t.temp) then s
    else s.wakeUp src t.ticks

/-! ### Islands (R443 to R447) -/

/-- R444: demand for an island. -/
def State.demandEvent (s : State) (i : Nat) : State := if isIsland i && s.powered && s.demanded i then s.islandDemand i else s

/-- R443: a WAKING island is AWAKE; the tasks that waited for it are READY. At Dusk it drains at once. -/
def State.islandUp (s : State) (i : Nat) : State :=
  if s.island i ≠ 1 then s
  else
    let s := (s.wr (F.PWR_ISL_STATE i) (if 4 ≤ s.pwr.dusk then 3 else 2)).setIdle i 0
    s.each (s.taskList.filter (fun e => e.2.cluster == i && e.2.state == .waking)) (fun e s =>
      s.setTask e.1 (some { e.2 with state := .ready }))

/-- R443: the idle counts after a REF cycle: every AWAKE island that is idle counts it, and one that is not restarts at 0. -/
def State.countIdle (s : State) : State :=
  s.each ((List.range 32).filter isIsland) (fun i s =>
    s.setIdle i (if s.island i == 2 && s.islandIdle i then s.idleRun i + 1 else 0))

/-- R443: has an island's idle count reached IDLE_COUNT, or 1 when IDLE_COUNT is 0? -/
def State.idleReached (s : State) (i : Nat) : Bool := decide (max 1 (s.idleCount i) ≤ s.idleRun i)

/-- R443, R445: the idle count of an island expires: it drains unless demand arises. -/
def State.idleExpiry (s : State) (i : Nat) : State :=
  if s.island i == 2 && s.islandIdle i && s.idleReached i && !s.underTest i then s.wr (F.PWR_ISL_STATE i) 3 else s

/-- R443, R445, R447: a DRAINING island is ASLEEP; a pending demand wakes it at once. -/
def State.islandDown (s : State) (i : Nat) : State :=
  if s.island i ≠ 3 then s
  else
    let again := s.on (F.PWR_ISL_PENDING_ENABLE i) && decide (s.pwr.dusk < 4)
    let s := ((s.islandOff i).loseIsland i).wr (F.PWR_ISL_PENDING_ENABLE i) 0
    if again then s.wakeIsland i else s

/-- R446, R450: a write of PWR_ISL_n. -/
def State.forceAwake (s : State) (i : Nat) (val : Word) : State :=
  if !isIsland i then s
  else
    let s := s.plainWrite (F.PWR_ISL_FORCE_AWAKE i).off val
    if s.on (F.PWR_ISL_FORCE_AWAKE i) then s.islandDemand i else s

/-- Writes of the PWR block by offset. -/
def State.pwrRegWrite (s : State) (o : Nat) (val : Word) : State :=
  if o = 0x004 then s.pwrCtrl val
  else if o = 0x008 then
    let t := F.PWR_LOWIN_THRESH_MV.of val
    if t < 4500 ∨ 32000 < t then s.pwrStatus 0x0203 else s.plainWrite (blockBase 0x02 + o) val
  else if 0x100 ≤ o ∧ o < 0x180 then s.forceAwake ((o - 0x100) / 4) val
  else s.plainWrite (blockBase 0x02 + o) val

/-! ### Clocks (R449) -/

/-- R449: a write of CLK_FCLK or CLK_ECLK. -/
def State.clkWrite (s : State) (eclk : Bool) (val : Word) : State :=
  if s.on (switchingFld eclk) then s.clkStatus 0x0301
  else if !eclk && !s.layersFit (fclkSel (F.CLK_FCLK_SEL.of val)) then s.clkStatus 0x0303
  else
    let s := (s.plainWrite (if eclk then F.CLK_ECLK_SEL.off else F.CLK_FCLK_SEL.off) val).wr (switchingFld eclk) 1
    s.requestAct (.clk eclk)

/-- R449: a write of CLK_CCLK_u. -/
def State.cclkWrite (s : State) (u : Nat) (val : Word) : State :=
  if s.on F.CLK_STATUS_CSWITCHING then s.clkStatus 0x0301
  else
    ((s.plainWrite (F.CLK_CCLK_SEL u).off val).wr F.CLK_STATUS_CSWITCHING 1).setPwr { s.pwr with relock := some u }

/-- R449: the PLL is locked and the domain switches: 0 fclk, 1 eclk, 2 cclk. -/
def State.clockSwitch (s : State) (domain : Nat) : State :=
  if domain = 2 then
    (if s.on F.CLK_STATUS_CSWITCHING then (s.wr F.CLK_STATUS_CSWITCHING 0).setPwr { s.pwr with relock := none } else s)
  else
    let e := domain == 1
    if s.on (switchingFld e) && s.actRuns (.clk e) then
      let p := if e then { s.pwr with eclk := s.rd F.CLK_ECLK_SEL } else { s.pwr with fclk := s.rd F.CLK_FCLK_SEL }
      ((s.setPwr p).wr (switchingFld e) 0).endAct (.clk e)
    else s

/-- Writes of the CLK block by offset. -/
def State.clkRegWrite (s : State) (o : Nat) (val : Word) : State :=
  if o = 0x000 then s.clkWrite false val
  else if o = 0x004 then s.clkWrite true val
  else if o = 0x010 then s.cclkWrite 0 val
  else if o = 0x014 then s.cclkWrite 1 val
  else s.plainWrite (blockBase 0x03 + o) val

/-! ### Warm reset (R454, R455) -/

/-- R454: the warm reset starts, once the take that FORCE aborts has ended. -/
def State.startWarm (s : State) (ticks : Nat) : State :=
  if s.take = 0 then s.warmNow ticks
  else (s.setPwr { s.pwr with warmWait := some ticks }).takeAbort

/-- R454, R455, R503: WARM_RESET. -/
def State.warmCmd (s : State) (force : Bool) (ticks : Nat) : State :=
  if s.rd F.PWR_STATUS_DAY = 3 || (s.dayBusy && !force) then s.wr F.KPR_BOOT_STATUS 0x0106
  else if s.updHolds then s.setPwr { s.pwr with afterUpd := some (3, ticks) }
  else s.startWarm ticks

/-- R465, R454: a write of KPR_CTRL, the passage of a warm reset taking `ticks` ao-ticks. (DEDUCED, log entry 115) -/
def State.kprCtrl (s : State) (val : Word) (ticks : Nat) : State :=
  let s := if F.KPR_CTRL_RESTART_UNIT.of val = 1 then s.restartCmd (F.KPR_CTRL_UNIT.of val) else s
  if F.KPR_CTRL_WARM_RESET.of val = 1 then s.warmCmd (F.KPR_CTRL_FORCE.of val == 1) ticks else s

/-- Writes of the KPR block by offset; how long a general write's warm reset takes is open. (DEDUCED, log entry 115) -/
def State.kprRegWrite (s : State) (o : Nat) (val : Word) : State :=
  if o = 0x000 then (s.takeFree 32).2.kprCtrl val (s.takeFree 32).1
  else if o = 0x008 then s.hostGo val
  else s.plainWrite (blockBase 0x01 + o) val

/-! ### Commands -/

/-- OVER_TEMP (R430). -/
def execOverTemp (_die : Fin 4) (temp : Int) (s : State) : Out := .next (s.overTemp temp)

/-- TEMP_WARN (R450, R452). -/
def execTempWarn (die : Fin 4) (s : State) : Out := .next (s.tempWarn die)

/-- LOW_INPUT (R435). -/
def execLowInput (s : State) : Out := .next s.lowInput

/-- LOWIN_1S (R435). -/
def execLowin1s (s : State) : Out := .next (if s.on F.PWR_STATUS_LOWIN then s.wr F.PWR_STATUS_LOWIN_1S 1 else s)

/-- TELEMETRY_SAMPLE (R434). -/
def execTelemetrySample (mv ma : BitVec 16) (temps : Option (List Int)) (s : State) : Out :=
  .next (s.telemetry mv.toNat ma.toNat temps)

/-- SLEEP: PWR_CTRL is written with SLEEP (R437). -/
def execSleep (src : Agent) (val : Word) (s : State) : Out :=
  .next (s.writeReg src F.PWR_CTRL_SLEEP (val ||| 0x80000000) (fun s => s.pwrCtrl (val ||| 0x80000000)))

/-- DUSK_STEP_END (R438). -/
def execDuskStepEnd (s : State) : Out := .next s.duskStep

/-- WAKE_SOURCE (R440). -/
def execWakeSource (tick : WakeTick) (s : State) : Out := .next (s.wake tick)

/-- ISLAND_DEMAND (R444). -/
def execIslandDemand (island : Fin 32) (s : State) : Out := .next (s.demandEvent island)

/-- ISLAND_AWAKE (R443). -/
def execIslandAwake (island : Fin 32) (s : State) : Out := .next (s.islandUp island)

/-- IDLE_COUNT_EXPIRY (R443). -/
def execIdleCountExpiry (island : Fin 32) (s : State) : Out := .next (s.idleExpiry island)

/-- ISLAND_ASLEEP (R445). -/
def execIslandAsleep (island : Fin 32) (s : State) : Out := .next (s.islandDown island)

/-- FORCE_AWAKE: PWR_ISL_n is written (R446). -/
def execForceAwake (src : Agent) (island : Fin 32) (val : Word) (s : State) : Out :=
  .next (s.writeReg src (F.PWR_ISL_FORCE_AWAKE island) val (fun s => s.forceAwake island val))

/-- CLK_FCLK_WRITE: CLK_FCLK, or CLK_ECLK, is written (R449). -/
def execClkFclkWrite (src : Agent) (eclk : Bool) (val : Word) (s : State) : Out :=
  .next (s.writeReg src (if eclk then F.CLK_ECLK_SEL else F.CLK_FCLK_SEL) val (fun s => s.clkWrite eclk val))

/-- CLOCK_SWITCH (R449). -/
def execClockSwitch (domain : Fin 3) (s : State) : Out := .next (s.clockSwitch domain)

/-- CLK_CCLK_WRITE (R449). -/
def execClkCclkWrite (src : Agent) (unit : Fin 2) (val : Word) (s : State) : Out :=
  .next (s.writeReg src (F.CLK_CCLK_SEL unit) val (fun s => s.cclkWrite unit val))

/-- WARM_RESET: KPR_CTRL is written with WARM_RESET (R454). -/
def execWarmReset (src : Agent) (val : Word) (ticks : Nat) (s : State) : Out :=
  .next (s.writeReg src F.KPR_CTRL_WARM_RESET (val ||| 0x80000000) (fun s => s.kprCtrl (val ||| 0x80000000) ticks))

end Sys2Proof.Machine
end

