-- ==== Sys2Proof/Machine/Ptp.lean ====
section
/-! DEFINITION. The PTP block (R360 to R371): steps and the servo, the PTP engine, the PPS monitor, commands on the time, and
the timed pulse outputs. Message layouts are those of IEEE 1588-2019. -/

namespace Sys2Proof.Machine

/-- A timed pulse output. -/
def State.tpoOf (s : State) (n : Nat) : TpoState := KMap.get (fun _ => {}) s.tpo n

/-- Replace a timed pulse output. -/
def State.setTpoOf (s : State) (n : Nat) (v : TpoState) : State := s.setTpo (KMap.set (fun _ => {}) s.tpo n v)

/-- R371, R372: the PTP block reports a status. -/
def State.ptpReport (s : State) (code : Nat) : State :=
  (s.wr F.PTP_STATUS_STATUS code).irq 0x1A F.PTP_STATUS_ERR_IRQ F.PTP_CTRL_ERR_IRQ_EN

/-- R361: the counter enters a state. -/
def State.ptpState (s : State) (st : Nat) : State :=
  let s := if st = 1 then s.setPtp { s.ptp with stepped := false, good := 0, bad := 0 } else s
  if s.rd F.PTP_STATUS_STATE = st then s
  else (s.wr F.PTP_STATUS_STATE st).irq 0x1A F.PTP_STATUS_STATE_IRQ F.PTP_CTRL_STATE_IRQ_EN

/-- R361: the reference is lost. -/
def State.toHoldover (s : State) : State :=
  let st := s.rd F.PTP_STATUS_STATE
  if st = 1 ∨ st = 2 then s.ptpState 3 else s

/-! ### Timed pulse outputs (R369, R370) -/

/-- START in ns. (DEDUCED, log entry 77) -/
def State.tpoStart (s : State) (n : Nat) : Int :=
  ((s.rd (F.TPO_START_SEC_HI_SEC n) * 2 ^ 32 + s.rd (F.TPO_START_SEC_LO_SEC n) : Nat) : Int) * 1000000000 + s.rd (F.TPO_START_NS_NS n)

/-- R372: an output reports a status. -/
def State.tpoReport (s : State) (n code : Nat) : State := (s.wr (F.TPO_STATUS_STATUS n) code).ptpReport code

/-- R369: the first k, from `k`, whose start lies after time `t`. (DEDUCED, log entry 77) -/
def tpoAfter (start : Int) (period k : Nat) (t : Int) : Nat :=
  if t < start then k else max k (((t - start) / (max 1 period : Nat)).toNat + 1)

/-- R370: a step of the reading: starts it passes over are missed. -/
def State.tpoStep (s : State) : State :=
  s.each (List.range 8) (fun n s =>
    let v := s.tpoOf n
    let start := s.tpoStart n
    if !s.on (F.TPO_CTRL_EN n) then s
    else if s.rd (F.TPO_CTRL_MODE n) = 1 ∧ !v.fired ∧ start ≤ s.timestamp then
      ((s.setTpoOf n { v with fired := true }).inc (F.TPO_MISSED_COUNT n)).tpoReport n 0x1A06
    else if s.rd (F.TPO_CTRL_MODE n) = 2 then
      let k := tpoAfter start (s.rd (F.TPO_PERIOD_NS_NS n)) v.next s.timestamp
      if k = v.next then s
      else ((s.setTpoOf n { v with next := k }).inc (F.TPO_MISSED_COUNT n) (k - v.next)).tpoReport n 0x1A06
    else s)

/-- R369, R370: a write of TPO_n_CTRL. (DEDUCED, log entry 77) -/
def State.tpoCtrl (s : State) (n : Nat) (val : Word) : State :=
  let was := s.on (F.TPO_CTRL_EN n)
  let en := (F.TPO_CTRL_EN n).of val == 1
  let mode := (F.TPO_CTRL_MODE n).of val
  let w := s.rd (F.TPO_WIDTH_NS_NS n)
  let per := s.rd (F.TPO_PERIOD_NS_NS n)
  let off := (F.TPO_CTRL_EN n).off
  if en && !was && ((mode == 1 && w == 0) || (mode == 2 && (w == 0 || decide (per ≤ w) || decide (per < 100)))) then s.tpoReport n 0x1A07
  else if en && !was && mode == 1 && decide (s.tpoStart n < s.timestamp + 100) then s.tpoReport n 0x1A05
  else
    let s := s.plainWrite off val
    if en && !was then
      s.setTpoOf n { s.tpoOf n with fired := false, next := tpoAfter (s.tpoStart n) per 0 s.timestamp }
    else s

/-- R369: the level of the TPO pin of output `n`: ACTIVE while a pulse is in progress, else the other level. -/
def State.tpoLevel (s : State) (n : Nat) : Bool := (s.tpoOf n).active == s.on (F.TPO_CTRL_ACTIVE n)

/-- R369: a pulse starts when its start time is reached. -/
def State.tpoPulse (s : State) (n : Nat) : State :=
  let v := s.tpoOf n
  let start := s.tpoStart n
  if !s.on (F.TPO_CTRL_EN n) then s
  else if s.rd (F.TPO_CTRL_MODE n) = 1 ∧ !v.fired ∧ start ≤ s.timestamp then s.setTpoOf n { v with active := true, fired := true }
  else if s.rd (F.TPO_CTRL_MODE n) = 2 ∧ start + (v.next * s.rd (F.TPO_PERIOD_NS_NS n) : Nat) ≤ s.timestamp then
    s.setTpoOf n { v with active := true, next := v.next + 1 }
  else s

/-- R369: a rising edge on an INPUT-mode output is captured. (DEDUCED, log entry 76) -/
def State.tpoCapture (s : State) (n : Nat) : State :=
  if s.on (F.TPO_CTRL_EN n) ∧ s.rd (F.TPO_CTRL_MODE n) = 3 then
    let t := s.timestamp
    (((s.wr (F.TPO_CAP_SEC_LO_SEC n) (tsSec t)).wr (F.TPO_CAP_SEC_HI_SEC n) (tsSec t / 2 ^ 32)).wr (F.TPO_CAP_NS_NS n) (tsNs t)).incWrap
      (F.TPO_CAP_COUNT_COUNT n)
  else s

/-! ### Steps and the servo (R360 to R362) -/

/-- R360: the reading steps by `d`, in units of 2^−32 ns; every consumer that schedules by it follows (R352, R370, R379). -/
def State.stepReading (s : State) (d : Int) : State :=
  let s := s.setPtp { s.ptp with offset := s.ptp.offset + d }
  let s := (s.inc F.PTP_STEPS_COUNT).ptpReport 0x1A03
  let s := (s.each (List.range 8) (fun p s => s.refreshGates p)).tpoStep
  s.audStep (d / 2 ^ 32)

/-- R361: a measurement counts towards LOCKED, or back to ACQUIRING. (DESIGN CHOICE, log entry 73) -/
def State.countMeasure (s : State) (o : Int) : State :=
  let st := s.rd F.PTP_STATUS_STATE
  let p := s.ptp
  let good := if o.natAbs < 1000 then p.good + 1 else 0
  let bad := if s.rd F.PTP_SERVO_STEP_THRESH * 1000 < o.natAbs then p.bad + 1 else 0
  let s := s.setPtp { p with good := good, bad := bad }
  if st = 1 ∧ 16 ≤ good then (s.setPtp { s.ptp with bad := 0 }).ptpState 2
  else if st = 2 ∧ 8 ≤ bad then s.ptpState 1
  else s

/-- R362: the servo takes a measurement: offset in ns and interval in s. (DESIGN CHOICE, log entry 73) -/
def State.servo (s : State) (o : Int) (ts : Rat) : State :=
  let st := s.rd F.PTP_STATUS_STATE
  if st ≠ 1 ∧ st ≠ 2 then s
  else
    let s := s.wr F.PTP_OFFSET_V (max (-(2 ^ 31)) (min (2 ^ 31 - 1) o) % 2 ^ 32).toNat
    let th := s.rd F.PTP_SERVO_STEP_THRESH
    let tc : Rat := s.rd F.PTP_SERVO_TC
    let s :=
      if st = 1 ∧ th ≠ 0 ∧ th * 1000 < o.natAbs ∧ !s.ptp.stepped then
        (s.stepReading (-o * 2 ^ 32)).setPtp { (s.stepReading (-o * 2 ^ 32)).ptp with stepped := true }
      else
        let i := s.ptp.integ + (o : Rat) * ts / (4 * tc * tc)
        let adj : Rat := max (-500000) (min 500000 (i + (o : Rat) / (2 * tc)))
        let r : Rat := 2 ^ 32 * (1 - adj / 1000000000)
        (s.setPtp { s.ptp with integ := i }).setRate (r + 1 / 2).floor.toNat
    s.countMeasure o

/-! ### Messages (R364) -/

/-- IEEE 1588: a PTP message of type `type`, its flags, correction 0, sequence number and body. (PRESUMED, log entry 74) -/
def State.ptpMessage (s : State) (type flags seq log : Nat) (body : List Byte) : List Byte :=
  beBytes 1 type ++ beBytes 1 2 ++ beBytes 2 (34 + body.length) ++ beBytes 1 (s.rd F.PTP_CFG_DOMAIN) ++ beBytes 1 0 ++
    beBytes 2 flags ++ beBytes 8 0 ++ beBytes 4 0 ++ beBytes 8 Config.clockIdentity ++ beBytes 2 1 ++ beBytes 2 seq ++
    beBytes 1 (if type = 0 then 0 else if type = 1 then 1 else if type = 8 then 2 else if type = 9 then 3 else 5) ++ beBytes 1 log ++ body

/-- R364: a message to 224.0.1.129 from the PTP port, into egress class PTP_CFG.CLASS. (PRESUMED, log entry 74) -/
def State.ptpSend (s : State) (udp : Nat) (msg : List Byte) (stamp : Option (Nat × Nat)) : State :=
  let p := s.rd F.PTP_CFG_PORT
  let f : NetFrame :=
    { bytes := [0x01, 0x00, 0x5E, 0x00, 0x01, 0x81] ++ s.portMac p ++ beBytes 2 0x0800 ++
        udpPacket 0 1 (beBytes 4 (s.rd (F.NET_P_IP_V p))) [224, 0, 1, 129] (beBytes 2 udp) (beBytes 2 udp) msg,
      ptp := stamp }
  s.offerFrame p (s.rd F.PTP_CFG_CLASS) f

/-- Ten bytes of a PTP timestamp. -/
def ptpTime (t : Int) : List Byte := beBytes 6 (tsSec t) ++ beBytes 4 (tsNs t)

/-- R364: a PTP message that needs a stamp has passed the PCS at time `t`. -/
def State.ptpSent (s : State) (type seq : Nat) (t : Int) : State :=
  let s := s.setPtp { s.ptp with lastSent := some (type, seq, t) }
  if type = 1 then s.setPtp { s.ptp with t3 := some (seq, t) }
  else if type = 2 then s.ptpSend 320 (s.ptpMessage 8 0 seq (s.rd F.PTP_CFG_LOG_SYNC + 0xF0) (ptpTime t)) none
  else s

/-- R364: is a message for this engine: the PTP port, up, and the domain? -/
def State.ptpFor (s : State) (m : PtpMsg) : Bool :=
  m.port.toNat == s.rd F.PTP_CFG_PORT && !s.portDown m.port.toNat && m.domain.toNat == s.rd F.PTP_CFG_DOMAIN

/-- A correctionField in whole ns. -/
def corrNs (m : PtpMsg) : Int := m.correction / 65536

/-- R364: the message comes from the selected master. -/
def State.fromMaster (s : State) (m : PtpMsg) : Bool := s.ptpFor m && s.ptp.selected == some m.source.toNat

/-- R364: a Sync: its receive timestamp is taken; a one-step Sync carries its origin time. -/
def State.ptpSync (s : State) (m : PtpMsg) : State :=
  if !s.fromMaster m then s
  else
    let s := s.inc F.PTP_SYNC_RX_COUNT
    if m.twoStep then s.setPtp { s.ptp with sync := some (m.seq.toNat, corrNs m, s.timestamp) }
    else s.setPtp { s.ptp with sync := none, t12 := some ((m.timeNs : Int) + corrNs m, s.timestamp) }

/-- R364: the Follow_Up of a two-step Sync. -/
def State.ptpFollowUp (s : State) (m : PtpMsg) : State :=
  match s.ptp.sync with
  | some (q, c, t2) =>
    if s.fromMaster m ∧ q = m.seq.toNat then s.setPtp { s.ptp with sync := none, t12 := some ((m.timeNs : Int) + corrNs m + c, t2) } else s
  | none => s

/-- R371: a signed log field of PTP_CFG as seconds. (DESIGN CHOICE, log entry 73) -/
def State.logSecs (s : State) (f : Fld) : Rat :=
  let n := signed 4 (s.rd f)
  if 0 ≤ n then 2 ^ n.toNat else 1 / 2 ^ (-n).toNat

/-- R362, R364: a Delay_Resp completes a measurement by the E2E formulas. -/
def State.ptpDelayResp (s : State) (m : PtpMsg) : State :=
  match s.ptp.t12, s.ptp.t3 with
  | some (t1, t2), some (q, t3) =>
    if s.fromMaster m ∧ q = m.seq.toNat then
      let d := (t2 - t1 + ((m.timeNs : Int) - corrNs m - t3)) / 2
      let s := s.setPtp { s.ptp with t3 := none }
      let s := s.wr F.PTP_PATH_DELAY_V (d % 2 ^ 32).toNat
      if s.rd F.PTP_CTRL_SRC = 1 then s.servo (t2 - t1 - d) (s.logSecs F.PTP_CFG_LOG_SYNC) else s
    else s
  | _, _ => s

/-- R364: as slave, a Delay_Req is sent; its timestamp is taken at the PCS. -/
def State.ptpDelayReq (s : State) : State :=
  if s.ptp.selected.isNone ∨ s.on F.PTP_STATUS_MASTER then s
  else
    let q := (s.ptp.seqSent + 1) % 65536
    let s := s.setPtp { s.ptp with seqSent := q }
    s.ptpSend 319 (s.ptpMessage 1 0 q 0x7F (List.replicate 10 0)) (some (1, q))

/-- R364: as master, a Delay_Req is stamped and answered. -/
def State.ptpAnswer (s : State) (m : PtpMsg) : State :=
  if !s.on F.PTP_STATUS_MASTER || !s.ptpFor m then s
  else s.ptpSend 320 (s.ptpMessage 9 0 m.seq.toNat (s.rd F.PTP_CFG_LOG_SYNC + 0xF0)
    (ptpTime s.timestamp ++ beBytes 8 m.source.toNat ++ beBytes 2 1)) none

/-- R364: as master, the engine sends a Sync or an Announce. -/
def State.ptpMasterSend (s : State) (announce : Bool) : State :=
  if !s.on F.PTP_STATUS_MASTER then s
  else
    let q := (s.ptp.seqSent + 1) % 65536
    let s := s.setPtp { s.ptp with seqSent := q }
    if announce then
      let utc := s.rd F.PTP_UTC_OFFSET
      s.ptpSend 320 (s.ptpMessage 11 (if s.on F.PTP_UTC_VALID then 4 else 0) q (s.rd F.PTP_CFG_LOG_ANNOUNCE)
        (ptpTime s.timestamp ++ beBytes 2 utc ++ beBytes 1 0 ++ beBytes 1 (s.rd F.PTP_PRIO_P1) ++ beBytes 1 (s.rd F.PTP_PRIO_CLASS) ++
          beBytes 1 (s.rd F.PTP_PRIO_ACCURACY) ++ beBytes 2 (Config.ptpField 0) ++ beBytes 1 (s.rd F.PTP_PRIO_P2) ++
          beBytes 8 Config.clockIdentity ++ beBytes 2 0 ++ beBytes 1 (Config.ptpField 1))) none
    else
      let two := s.on F.PTP_CTRL_TWO_STEP
      s.ptpSend 319 (s.ptpMessage 0 (if two then 0x200 else 0) q (s.rd F.PTP_CFG_LOG_SYNC + 0xF0) (List.replicate 10 0))
        (some (if two then 2 else 0, q))

/-! ### Masters (R365) -/

/-- IEEE 1588: the data set comparison key of an Announce, lower is better. -/
def announceKey (a : AnnounceData) (id : Nat) : List Nat :=
  [a.prio1, a.clockClass, a.accuracy, a.variance, a.prio2, a.gm, a.steps, id]

/-- Lexicographic order. -/
def lexLt : List Nat → List Nat → Bool
  | a :: t, b :: u => decide (a < b) || (a == b && lexLt t u)
  | _, _ => false

/-- R365: a master is qualified by two Announce messages within four announce intervals. -/
def State.qualified (s : State) (m : Master) : Bool :=
  decide (2 ≤ m.count) && decide (((m.lastRef - m.firstRef : Nat) : Rat) * 32 / 5 ≤ 4 * s.logSecs F.PTP_CFG_LOG_ANNOUNCE * 1000000000)

/-- The module's own data set. -/
def State.ownData (s : State) : AnnounceData :=
  { prio1 := s.rd F.PTP_PRIO_P1, clockClass := s.rd F.PTP_PRIO_CLASS, accuracy := s.rd F.PTP_PRIO_ACCURACY,
    variance := Config.ptpField 0, prio2 := s.rd F.PTP_PRIO_P2, gm := Config.clockIdentity }

/-- R365: the best of the qualified masters. -/
def State.bestMaster (s : State) : Option Master :=
  (s.ptp.masters.filter (fun m => s.qualified m)).foldl (fun b m => match b with
    | none => some m
    | some b => if lexLt (announceKey m.msg m.id) (announceKey b.msg b.id) then some m else some b) none

/-- R364, R365, R371: what the selected master's Announce says is kept. (DEDUCED, log entry 75) -/
def State.takeAnnounce (s : State) (a : AnnounceData) : State :=
  let s := (s.wr F.PTP_GM_ID_HI_V (a.gm / 2 ^ 32)).wr F.PTP_GM_ID_LO_V a.gm
  let s := (s.wr F.PTP_UTC_OFFSET a.utc).wrB F.PTP_UTC_VALID a.utcValid
  match a.smLocal with
  | some (o, d) => (s.wr F.PTP_SM_LOCAL_V o.toNat).wrB F.PTP_UTC_DAYLIGHT d
  | none => s

/-- R365: the best master clock algorithm selects. -/
def State.bmca (s : State) : State :=
  match s.bestMaster with
  | none => s
  | some b =>
    if s.on F.PTP_CTRL_MASTER_EN ∧ lexLt (announceKey s.ownData Config.clockIdentity) (announceKey b.msg b.id) then
      (s.setPtp { s.ptp with selected := none, t12 := none, t3 := none, sync := none }).wr F.PTP_STATUS_MASTER 1
    else
      let was := s.ptp.selected
      let s := (s.wr F.PTP_STATUS_MASTER 0).takeAnnounce b.msg
      if was = some b.id then s
      else
        let s := s.setPtp { s.ptp with selected := some b.id, t12 := none, t3 := none, sync := none }
        let s := if s.rd F.PTP_CTRL_SRC = 1 then s.ptpState 1 else s
        if was.isSome then s.ptpReport 0x1A02 else s

/-- R365: is the PTP engine in use? (DEDUCED, log entry 75) -/
def State.ptpActive (s : State) : Bool := s.rd F.PTP_CTRL_SRC == 1 || s.on F.PTP_CTRL_MASTER_EN

/-- R365: an Announce message. -/
def State.ptpAnnounce (s : State) (m : PtpMsg) (a : AnnounceData) : State :=
  if !s.ptpFor m || !s.ptpActive then s
  else
    let id := m.source.toNat
    let old := s.ptp.masters.find? (fun x => x.id == id)
    let new : Master := match old with
      | some x => { x with msg := a, port := m.port.toNat, count := x.count + 1, firstRef := x.lastRef, lastRef := s.ref }
      | none => { id := id, port := m.port.toNat, msg := a, count := 1, firstRef := s.ref, lastRef := s.ref }
    (s.setPtp { s.ptp with masters := s.ptp.masters.filter (fun x => x.id != id) ++ [new] }).bmca

/-- R365: announceReceiptTimeout expires. -/
def State.ptpMasterLost (s : State) : State :=
  if !s.ptpActive then s
  else
    match s.ptp.selected with
    | none =>
      if s.on F.PTP_CTRL_MASTER_EN ∧ s.bestMaster.isNone then s.wr F.PTP_STATUS_MASTER 1 else s
    | some id =>
      let s := s.setPtp { s.ptp with masters := s.ptp.masters.filter (fun x => x.id != id) }
      let s' := s.bmca
      if s'.ptp.selected != some id && (s'.ptp.selected.isSome || s'.on F.PTP_STATUS_MASTER) then s'
      else
        let s := s.setPtp { s.ptp with selected := none, t12 := none, t3 := none, sync := none }
        let s := s.ptpReport 0x1A01
        let s := if s.rd F.PTP_CTRL_SRC = 1 then s.toHoldover else s
        if s.on F.PTP_CTRL_MASTER_EN then s.wr F.PTP_STATUS_MASTER 1 else s

/-! ### PPS (R366) -/

/-- R366: the PPS input is LOST (0) or UNLOCKED (1). -/
def State.ppsLose (s : State) (clk : Nat) : State :=
  let s := s.setPtp { s.ptp with ppsPeriods := 0, ppsSum := 0, ppsGlitches := 0, ppsLast := if clk = 0 then none else s.ptp.ppsLast }
  if s.rd F.PTP_STATUS_PPS_CLK = clk then s
  else ((s.wr F.PTP_STATUS_PPS_CLK clk).ptpReport 0x1A04).toHoldover

/-- R366: a rising edge on the PPS input. (DEDUCED, log entry 76) -/
def State.ppsEdge (s : State) : State :=
  if s.rd F.PTP_CTRL_SRC ≠ 2 ∨ !s.on (F.TPO_CTRL_EN 7) ∨ s.rd (F.TPO_CTRL_MODE 7) ≠ 3 then s
  else
    let now := s.timestamp
    match s.ptp.ppsLast with
    | none => s.setPtp { s.ptp with ppsLast := some now, ppsPeriods := 0, ppsSum := 0, ppsGlitches := 0 }
    | some l =>
      let dev := now - l - 1000000000
      let glitch := decide (10000000 < dev.natAbs)
      let p := s.ptp
      let s := s.setPtp { p with ppsLast := some now, ppsPeriods := p.ppsPeriods + 1,
                                 ppsSum := if glitch then p.ppsSum else p.ppsSum + dev,
                                 ppsGlitches := if glitch then p.ppsGlitches + 1 else p.ppsGlitches }
      let s := if glitch then s.inc F.PTP_PPS_GLITCH_COUNT else s
      let p := s.ptp
      if s.rd F.PTP_PPS_CFG_GLITCH_LIMIT < p.ppsGlitches then s.ppsLose 1
      else
        let s :=
          if p.ppsPeriods < 16 then s
          else if 1000000 * (16 - p.ppsGlitches : Nat) < p.ppsSum.natAbs then s.ppsLose 1
          else
            let s := s.setPtp { p with ppsPeriods := 0, ppsSum := 0, ppsGlitches := 0 }
            if s.rd F.PTP_STATUS_PPS_CLK = 2 then s else (s.wr F.PTP_STATUS_PPS_CLK 2).ptpState 1
        if glitch ∨ s.rd F.PTP_STATUS_PPS_CLK ≠ 2 then s
        else s.servo (let n : Int := tsNs now; if 500000000 ≤ n then n - 1000000000 else n) 1

/-! ### Commands on the time (R371) and register writes -/

/-- PTP_TIME_SEC and PTP_TIME_NS as ns. -/
def State.timeRegs (s : State) : Int :=
  ((s.rd F.PTP_TIME_SEC_HI_SEC * 2 ^ 32 + s.rd F.PTP_TIME_SEC_LO_SEC : Nat) : Int) * 1000000000 + s.rd F.PTP_TIME_NS_NS

/-- R371: a write of PTP_TIME_CMD: SET, then ADJUST, then LATCH. (DEDUCED, log entry 75) -/
def State.timeCmd (s : State) (val : Word) : State :=
  let s := if F.PTP_TIME_CMD_SET.of val = 1 then
      (s.stepReading (s.timeRegs * 2 ^ 32 - s.reading)).ptpState (if s.rd F.PTP_CTRL_SRC = 0 then 0 else 1)
    else s
  let s := if F.PTP_TIME_CMD_ADJUST.of val = 1 then s.stepReading (signed 32 (s.rd F.PTP_TIME_NS_NS) * 2 ^ 32) else s
  if F.PTP_TIME_CMD_LATCH.of val = 1 then
    let t := s.timestamp
    let s := ((s.wr F.PTP_TIME_SEC_LO_SEC (tsSec t)).wr F.PTP_TIME_SEC_HI_SEC (tsSec t / 2 ^ 32)).wr F.PTP_TIME_NS_NS (tsNs t)
    s.wr F.PTP_TC_NOW_V (s.timecode t)
  else s

/-- R361, R371: a write of PTP_CTRL: the reference changes. (DEDUCED, log entry 75) -/
def State.ptpCtrl (s : State) (val : Word) : State :=
  let src := F.PTP_CTRL_SRC.of val
  let was := s.rd F.PTP_CTRL_SRC
  if src = 3 then s.ptpReport 0x1A07
  else
    let s := s.plainWrite F.PTP_CTRL_SRC.off val
    let s := if s.on F.PTP_CTRL_MASTER_EN then s else s.wr F.PTP_STATUS_MASTER 0
    let s := if s.ptpActive then s
      else s.setPtp { s.ptp with masters := [], selected := none, t12 := none, t3 := none, sync := none }
    if src = was then s
    else if src = 0 then s.ptpState 0
    else if (src = 1 ∧ s.ptp.selected.isSome) ∨ (src = 2 ∧ s.rd F.PTP_STATUS_PPS_CLK = 2) then s.ptpState 1
    else s.toHoldover

/-- R371: a write of PTP_CFG. -/
def State.ptpCfg (s : State) (val : Word) : State :=
  let ann := F.PTP_CFG_ANN_TIMEOUT.of val
  let la := signed 4 (F.PTP_CFG_LOG_ANNOUNCE.of val)
  let ls := signed 4 (F.PTP_CFG_LOG_SYNC.of val)
  if s.rd F.PTP_CTRL_SRC = 1 then s
  else if ann < 2 ∨ 10 < ann ∨ la < -3 ∨ 1 < la ∨ ls < -7 ∨ -1 < ls ∨ 3 < F.PTP_CFG_CLASS.of val ∨ 127 < F.PTP_CFG_DOMAIN.of val then
    s.ptpReport 0x1A07
  else s.plainWrite F.PTP_CFG_DOMAIN.off val

/-- R371: a write of PTP_SERVO. -/
def State.ptpServo (s : State) (val : Word) : State :=
  if F.PTP_SERVO_TC.of val = 0 then s.ptpReport 0x1A07 else s.plainWrite F.PTP_SERVO_TC.off val

/-- Writes of the PTP block by offset. -/
def State.ptpRegWrite (s : State) (o : Nat) (val : Word) : State :=
  let off := blockBase 0x1A + o
  if o = 0x00 then s.ptpCtrl val
  else if o = 0x08 then s.ptpCfg val
  else if o = 0x10 then s.ptpServo val
  else if o = 0x14 then s.timeCmd val
  else if 0x100 ≤ o ∧ o < 0x200 then
    let n := (o - 0x100) / 0x20
    if o % 0x20 = 0 then s.tpoCtrl n val
    else if s.on (F.TPO_CTRL_EN n) then s else s.plainWrite off val
  else s.plainWrite off val

/-- R348, R364: a port sends one frame; stamps are taken, and senders use the room. -/
def State.frameTransmit (s : State) (p : Nat) : State :=
  let r := s.transmit p
  match r.1 with
  | none => r.2
  | some (f, t) =>
    (match f.ptp with
     | some (type, seq) => r.2.ptpSent type seq t
     | none => r.2).pumpSenders

/-! ### Commands -/

/-- FRAME_TRANSMIT (R348, R350, R354). -/
def execFrameTransmit (port : Fin 8) (s : State) : Out := .next (s.frameTransmit port)

/-- SYNC (R364). -/
def execSync (msg : PtpMsg) (s : State) : Out := .next (s.ptpSync msg)

/-- FOLLOW_UP (R364). -/
def execFollowUp (msg : PtpMsg) (s : State) : Out := .next (s.ptpFollowUp msg)

/-- DELAY_RESP (R362, R364). -/
def execDelayResp (msg : PtpMsg) (s : State) : Out := .next (s.ptpDelayResp msg)

/-- DELAY_REQ (R364). -/
def execDelayReq (msg : PtpMsg) (s : State) : Out := .next (s.ptpAnswer msg)

/-- ANNOUNCE (R365). -/
def execAnnounce (msg : PtpMsg) (data : AnnounceData) (s : State) : Out := .next (s.ptpAnnounce msg data)

/-- PTP_MASTER_LOST (R365). -/
def execPtpMasterLost (s : State) : Out := .next s.ptpMasterLost

/-- PTP_MASTER_SEND (R364). -/
def execPtpMasterSend (announce : Bool) (s : State) : Out := .next (s.ptpMasterSend announce)

/-- MIN_DELAY_REQ_INTERVAL (R364). -/
def execMinDelayReqInterval (s : State) : Out := .next s.ptpDelayReq

/-- PPS_EDGE (R366). -/
def execPpsEdge (s : State) : Out := .next s.ppsEdge

/-- PPS_LOST: 4 s without an edge (R366). -/
def execPpsLost (s : State) : Out := .next (if s.rd F.PTP_CTRL_SRC = 2 then s.ppsLose 0 else s)

/-- SET: a write of PTP_TIME_CMD with SET (R371). -/
def execSetTime (src : Agent) (val : Word) (s : State) : Out :=
  .next (s.writeReg src F.PTP_TIME_CMD_SET (val ||| 2) (fun s => s.timeCmd (val ||| 2)))

/-- ADJUST: a write of PTP_TIME_CMD with ADJUST (R371). -/
def execAdjust (src : Agent) (val : Word) (s : State) : Out :=
  .next (s.writeReg src F.PTP_TIME_CMD_ADJUST (val ||| 4) (fun s => s.timeCmd (val ||| 4)))

/-- LATCH: a write of PTP_TIME_CMD with LATCH (R371). -/
def execLatch (src : Agent) (val : Word) (s : State) : Out :=
  .next (s.writeReg src F.PTP_TIME_CMD_LATCH (val ||| 1) (fun s => s.timeCmd (val ||| 1)))

/-- AO_PPB_MEASURE: in a LOCKED second, the ao crystal's error (R367). -/
def execAoPpbMeasure (ppb : Word) (s : State) : Out :=
  .next (if s.rd F.PTP_STATUS_STATE = 2 then s.wr F.PTP_AO_PPB_V ppb.toNat else s)

/-- TPO_ENABLE: a write of TPO_n_CTRL (R369, R370). -/
def execTpoEnable (src : Agent) (out : Fin 8) (val : Word) (s : State) : Out :=
  .next (s.writeReg src (F.TPO_CTRL_EN out) val (fun s => s.tpoCtrl out val))

/-- TPO_PULSE_START (R369). -/
def execTpoPulseStart (out : Fin 8) (s : State) : Out := .next (s.tpoPulse out)

/-- TPO_PULSE_END (R369, R370). -/
def execTpoPulseEnd (out : Fin 8) (s : State) : Out := .next (s.setTpoOf out { s.tpoOf out with active := false })

/-- TPO_CAPTURE (R369). -/
def execTpoCapture (out : Fin 8) (s : State) : Out := .next (s.tpoCapture out)

end Sys2Proof.Machine
end

