-- ==== Sys2Proof/Machine/Update.lean ====
section
/-! DEFINITION. Field update (chapter 20): Epfi packages, staging, activation and the live handover. -/

namespace Sys2Proof.Machine

/-! ### The package (R492 to R495) -/

/-- R505: the UPD block enters a state. -/
def State.updState (s : State) (n : Nat) : State := s.wr F.UPD_STATUS_STATE n

/-- R492: part `p` of a manifest. -/
def partOf (b : List Byte) (p : Nat) : UpdPart :=
  let o := 32 + 96 * p
  { typ := leAt b o 1, full := leAt b (o + 1) 1 % 2 == 1, setFormat := leAt b (o + 2) 2, version := leAt b (o + 4) 4,
    dataOff := leAt b (o + 8) 4, dataLen := leAt b (o + 12) 4, newLen := leAt b (o + 16) 4, slotOff := leAt b (o + 20) 4,
    slotSize := leAt b (o + 24) 4, base := (b.drop (o + 32)).take 32, digest := (b.drop (o + 64)).take 32 }

/-- R492: M, the offset of KEY. -/
def manifestLen (b : List Byte) : Nat := 32 + 96 * leAt b 6 1

/-- R492: the parts of a package. -/
def partsOf (b : List Byte) : List UpdPart := (List.range (leAt b 6 1)).map (fun p => partOf b p)

/-- R492: does the package lie where it may, and is the manifest's own part of the format right? (DEDUCED, log entry 117) -/
def State.pkgOk (s : State) (addr len : Nat) (b : List Byte) : Bool :=
  let n := leAt b 8 4
  let inside := (decide (addr + n ≤ 0x3800000)) || (decide (0x100000000 ≤ addr) && decide (addr + n ≤ 0x100000000 + s.qdrSize))
  addr % 16 == 0 && inside && decide (32 ≤ len) && b.take 4 == [0x45, 0x50, 0x46, 0x49] && leAt b 4 2 == 1 &&
    decide (1 ≤ leAt b 6 1) && decide (leAt b 6 1 ≤ 4) && (leAt b 7 1 == 1 || leAt b 7 1 == 2) && n % 16 == 0 && decide (n ≤ len) &&
    decide (manifestLen b + 96 ≤ n) && leAt b 16 1 == s.rd F.FUSE_DISC_ID_ARCH && zeroAt b 17 15

/-- R492: is the format of part `p` right? -/
def partOk (b : List Byte) (p : Nat) : Bool :=
  let o := 32 + 96 * p
  let x := partOf b p
  decide (1 ≤ x.typ) && decide (x.typ ≤ 4) && !((partsOf b).take p).any (fun y => y.typ == x.typ) && decide (leAt b (o + 1) 1 < 2) &&
    x.dataOff % 16 == 0 && decide (manifestLen b + 96 ≤ x.dataOff) && decide (x.dataOff + x.dataLen ≤ leAt b 8 4) &&
    x.slotOff % 4096 == 0 && x.slotSize % 4096 == 0 && decide (x.newLen ≤ x.slotSize) && zeroAt b (o + 28) 4 &&
    (!x.full || zeroAt b (o + 32) 32)

/-- R493: is the manifest's signature accepted? -/
def State.pkgSigned (s : State) (b : List Byte) : Bool :=
  let m := manifestLen b
  let key := (b.drop m).take 32
  (if leAt b 7 1 = 1 then Config.sha256 key == s.vendorHash else s.ownerKey key) &&
    Config.ed25519 key (Config.sha256 (b.take m)) ((b.drop (m + 32)).take 64)

/-- R495: the output of a body's commands, none when one is refused; `fuel` bounds the commands. -/
def runBody (base : List Byte) (full : Bool) (b : List Byte) : Nat → Option (List Byte)
  | 0 => none
  | fuel + 1 =>
    if b.isEmpty then some []
    else
      let w := leAt b 0 4
      let n := bits w 0 17
      if bits w 17 5 ≠ 0 ∨ n = 0 ∨ 65536 < n ∨ b.length < 4 then none
      else
        match bits w 30 2 with
        | 0 =>
          let o := leAt b 4 4
          if full ∨ base.length < o + n ∨ b.length < 8 then none
          else (runBody base full (b.drop 8) fuel).map (fun r => (base.drop o).take n ++ r)
        | 1 =>
          let m := roundUp n 4
          if b.length < 4 + m ∨ !zeroAt b (4 + n) (m - n) then none
          else (runBody base full (b.drop (4 + m)) fuel).map (fun r => (b.drop 4).take n ++ r)
        | 2 => (runBody base full (b.drop 4) fuel).map (fun r => List.replicate n (BitVec.ofNat 8 (bits w 22 8)) ++ r)
        | _ => none

/-- R494, R497 step 4: what block `k` of a part comes to: its output and what follows it, or the code of its failure. -/
def runBlock (x : UpdPart) (base data : List Byte) (k : Nat) : Nat ⊕ (List Byte × List Byte) :=
  let n := leAt data 4 4
  let body := (data.drop 16).take n
  if data.length < 16 ∨ leAt data 0 4 ≠ 65536 * k ∨ n < 4 ∨ 65520 < n ∨ n % 4 ≠ 0 ∨ !zeroAt data 12 4 ∨ body.length < n then .inl 0x1F07
  else if crc 0 0 body ≠ leAt data 8 4 then .inl 0x1F06
  else
    match runBody base x.full body (n + 1) with
    | none => .inl 0x1F07
    | some out =>
      if out.length = min 65536 (x.newLen - 65536 * k) then .inr (out, data.drop (roundUp (16 + n) 16)) else .inl 0x1F07

/-- R494: the blocks of a part from block `k` on; `m` blocks are left. A failure is a code and a block. -/
def runBlocks (x : UpdPart) (base data : List Byte) (k : Nat) : Nat → (Nat × Nat) ⊕ List Byte
  | 0 => if data.isEmpty then .inr [] else .inl (0x1F07, k)
  | m + 1 =>
    match runBlock x base data k with
    | .inl code => .inl (code, k)
    | .inr (out, rest) =>
      match runBlocks x base rest (k + 1) m with
      | .inl f => .inl f
      | .inr more => .inr (out ++ more)

/-! ### Staging (R496, R497) -/

/-- R496: the conditions of a refusal, as UPD_REFUSE shows them. -/
def State.updRefusals (s : State) : Nat :=
  (if s.dayBusy then 1 else 0) + (if s.on F.PWR_STATUS_LOWIN_1S then 2 else 0) + (if s.on F.FUSE_LOCKS_OWNER_LOCK then 4 else 0)

/-- R496, R505: the command is refused for those conditions. -/
def State.updRefused (s : State) : State := (s.setReg F.UPD_REFUSE_BUSY.off (BitVec.ofNat 32 s.updRefusals)).updReport 0x1F01

/-- R497, R505: staging fails at a part and a block. -/
def State.updFail (s : State) (code part block : Nat) : State :=
  let s := (s.wr F.UPD_ERR_LOC_PART part).wr F.UPD_ERR_LOC_BLOCK block
  ((s.setUpd {}).updState 5).updReport code

/-- R496, R504: STAGE. (DEDUCED, log entry 116) -/
def State.stage (s : State) : State :=
  let st := s.rd F.UPD_STATUS_STATE
  if st ≠ 0 ∧ st ≠ 2 ∧ st ≠ 5 then s.updReport 0x1F02
  else if s.rd F.KPR_BOOT_SOURCE = 3 then s.updReport 0x1F10
  else if s.updRefusals ≠ 0 then s.updRefused
  else
    let s := (s.setUpd { seq := s.rd F.KPR_DIR_SEQ_SEQ }).wr F.UPD_STATUS_PARTS 0
    (s.wr F.UPD_PROGRESS_V 0).updState 1

/-- Bytes of the boot flash. -/
def State.flashBytes (s : State) (off n : Nat) : List Byte := srcBytes (fun a => KMap.get (fun _ => 0xFF) s.boot.flash a) off n

/-- Bytes put into the boot flash. -/
def flashPut (m : KMap Byte) (off : Nat) : List Byte → KMap Byte
  | [] => m
  | b :: t => flashPut (KMap.set (fun _ => 0xFF) m off b) (off + 1) t

/-- R497: a region of the boot flash is erased, and bytes are programmed from its start. (DESIGN CHOICE, log entry 89) -/
def State.flashProgram (s : State) (off size : Nat) (b : List Byte) : State :=
  s.setBoot { s.boot with flash := flashPut (s.boot.flash.drop off (off + size)) off b }

/-- R497 step 3: the region of an active directory entry. -/
def activeRegions (d : List Byte) : List (Nat × Nat) :=
  ((dirEntries d).filter (fun e => dirActive d e.typ == e.slot)).map (fun e => (e.off, e.off + roundUp e.len 4096))

/-- R497 step 3: may part `p` have its slot region? -/
def State.slotOk (s : State) (d : List Byte) (ps : List UpdPart) (p : Nat) (x : UpdPart) : Bool :=
  let apart (r : Nat × Nat) : Bool := decide (x.slotOff + x.slotSize ≤ r.1) || decide (r.2 ≤ x.slotOff)
  decide (x.slotOff + x.slotSize ≤ s.boot.flashSize) && apart (0, 0x11000) &&
    (ps.mapIdx (fun i y => (i, y))).all (fun e => e.1 == p || apart (e.2.slotOff, e.2.slotOff + e.2.slotSize)) &&
    (activeRegions d).all apart

/-- R495: the base of a part: the component in the active slot of its TYPE. -/
def State.baseOf (s : State) (d : List Byte) (typ : Nat) : List Byte :=
  match dirFind d typ (dirActive d typ) with
  | some e => s.flashBytes e.off e.len
  | none => []

/-- R497 step 4: part `p` is built, erased and programmed; `err` names a part and block whose erase or program fails, and what its
region then holds is open. (DEDUCED, log entry 117) -/
def State.buildPart (s : State) (d pkg : List Byte) (p : Nat) (x : UpdPart) (err : Option (Nat × Nat)) : State ⊕ (List Byte × State) :=
  match runBlocks x (s.baseOf d x.typ) ((pkg.drop x.dataOff).take x.dataLen) 0 (ceilDiv x.newLen 65536) with
  | .inl f => .inl (s.updFail f.1 p f.2)
  | .inr out =>
    match err with
    | some (q, k) =>
      if q = p then
        let bad := (List.range (min 65536 (x.slotSize - 65536 * k))).map (fun i => Config.deviceByte s.ref (x.slotOff + 65536 * k + i))
        .inl ((s.flashProgram x.slotOff x.slotSize (out.take (65536 * k) ++ bad)).updFail 0x1F0A p k)
      else .inr (out, (s.flashProgram x.slotOff x.slotSize out).wr F.UPD_PROGRESS_V (s.rd F.UPD_PROGRESS_V + out.length))
    | none => .inr (out, (s.flashProgram x.slotOff x.slotSize out).wr F.UPD_PROGRESS_V (s.rd F.UPD_PROGRESS_V + out.length))

/-- R497 step 4: the parts one after the other. -/
def State.buildParts (s : State) (d pkg : List Byte) (err : Option (Nat × Nat)) (p : Nat) : List UpdPart → State ⊕ (List (List Byte) × State)
  | [] => .inr ([], s)
  | x :: t =>
    match s.buildPart d pkg p x err with
    | .inl f => .inl f
    | .inr (out, s) =>
      match s.buildParts d pkg err (p + 1) t with
      | .inl f => .inl f
      | .inr (outs, s) => .inr (out :: outs, s)

/-- R497 step 5: the first part whose output has another digest, or that would not pass at boot. -/
def State.outputFails (s : State) (ps : List UpdPart) (outs : List (List Byte)) : Option (Nat × Nat) :=
  ((ps.zip outs).mapIdx (fun p e => (p, e.1, e.2))).findSome? (fun e =>
    if Config.sha256 e.2.2 ≠ e.2.1.digest then some (0x1F08, e.1)
    else if !s.compOk e.2.1.typ e.2.2 then some (0x1F04, e.1)
    else none)

/-- R497: staging of the package at an address, with the directory in force. -/
def State.stageParts (s : State) (d pkg : List Byte) (err : Option (Nat × Nat)) : State :=
  let ps := partsOf pkg
  let ix := List.range ps.length
  let active (x : UpdPart) : Option (List Byte) := (dirFind d x.typ (dirActive d x.typ)).map (fun e => e.digest)
  match ix.find? (fun p => let x := partOf pkg p; !x.full && active x != some x.base) with
  | some p => s.updFail 0x1F05 p 0
  | none =>
    match ix.find? (fun p => !s.slotOk d ps p (partOf pkg p)) with
    | some p => s.updFail 0x1F09 p 0
    | none =>
      match s.buildParts d pkg err 0 ps with
      | .inl s => s
      | .inr (outs, s) =>
        match s.outputFails ps outs with
        | some (code, p) => s.updFail code p 0
        | none =>
          let s := s.setUpd { s.upd with parts := ps }
          (s.wr F.UPD_STATUS_PARTS (ps.foldl (fun a x => a + 2 ^ (x.typ - 1)) 0)).updState 2

/-- R497: staging ends; `err` names a part and block at which the flash fails. -/
def State.stagingDone (s : State) (err : Option (Nat × Nat)) : State :=
  if s.rd F.UPD_STATUS_STATE ≠ 1 then s
  else
    let addr := s.rd F.UPD_PKG_ADDR_HI_ADDR * 2 ^ 32 + 16 * s.rd F.UPD_PKG_ADDR_LO_ADDR
    let len := s.rd F.UPD_PKG_LEN_LEN
    let head := s.physRead addr (min len 512)
    if !s.pkgOk addr len head then s.updFail 0x1F03 0 0
    else
      match (List.range (leAt head 6 1)).find? (fun p => !partOk head p) with
      | some p => s.updFail 0x1F03 p 0
      | none =>
        if !s.pkgSigned head then s.updFail 0x1F04 0 0
        else
          let s := s.wr F.UPD_RELEASE_V (leAt head 12 4)
          match dirInForce (fun a => KMap.get (fun _ => 0xFF) s.boot.flash a) with
          | none => s.updFail 0x1F05 0 0
          | some (_, d) => s.stageParts d (s.physRead addr (leAt head 8 4)) err

/-! ### Activation (R498, R499) -/

/-- R498, R500: does the staged package carry a part of the type? -/
def State.hasPart (s : State) (typ : Nat) : Bool := s.upd.parts.any (fun x => x.typ == typ)

/-- R487, R498 step 1: activities that the activation waits for: those requested before it. (DEDUCED, log entry 97) -/
def State.maintPending (s : State) : Bool := s.mnt.acts.any (fun r => !r.late)

/-- R498: ACTIVATE. (DEDUCED, log entry 116) -/
def State.activate (s : State) (nextBoot : Bool) : State :=
  if s.rd F.UPD_STATUS_STATE ≠ 2 then s.updReport 0x1F02
  else if s.upd.seq ≠ s.rd F.KPR_DIR_SEQ_SEQ then s.updReport 0x1F0B
  else if !nextBoot && s.hasPart 3 && (s.ustate 0 == 0 || s.ustate 1 == 0) then s.updReport 0x1F0C
  else if s.updRefusals ≠ 0 then s.updRefused
  else (s.setUpd { s.upd with nextBoot := nextBoot, writing := !s.maintPending }).updState 3

/-- R459: a directory entry's 64 bytes. -/
def DirEntry.bytes (e : DirEntry) : List Byte :=
  leBytes 1 e.typ ++ leBytes 1 e.slot ++ leBytes 2 0 ++ leBytes 4 e.off ++ leBytes 4 e.len ++ leBytes 4 e.ver ++ List.replicate 16 0 ++
    padTo 32 e.digest

/-- R498 step 4: the entries with the one of a part's inactive slot replaced or added. (DEDUCED, log entry 118) -/
def withPart (d : List Byte) (l : List DirEntry) (x : UpdPart) : List DirEntry :=
  let slot := 1 - dirActive d x.typ
  let e : DirEntry := { typ := x.typ, slot := slot, off := x.slotOff, len := x.newLen, ver := x.version, digest := x.digest }
  let same (y : DirEntry) : Bool := y.typ == x.typ && y.slot == slot
  if l.any same then l.map (fun y => if same y then e else y) else l ++ [e]

/-- R459, R498 step 4: the new directory copy. -/
def newDir (d : List Byte) (ps : List UpdPart) : List Byte :=
  let l := ps.foldl (fun l x => withPart d l x) (dirEntries d)
  let active := ps.foldl (fun a x => if dirActive d x.typ = 1 then a - 2 ^ (x.typ - 1) else a + 2 ^ (x.typ - 1)) (leAt d 12 1)
  let b := padTo 4092 ([0x54, 0x58, 0x42, 0x44] ++ leBytes 2 1 ++ leBytes 2 l.length ++ leBytes 4 ((leAt d 8 4 + 1) % 2 ^ 32) ++
    leBytes 1 active ++ List.replicate 19 0 ++ l.flatMap (fun e => e.bytes))
  b ++ leBytes 4 (crc 0 0 b)

/-- R503: SLEEP or a warm reset that waited for the activation proceeds; a handover does not run. -/
def State.afterActivation (s : State) : State :=
  match s.pwr.afterUpd with
  | none => s
  | some (k, ticks) =>
    let s := s.setPwr { s.pwr with afterUpd := none }
    match k with
    | 1 => s.startDusk false
    | 2 => s.startDusk true
    | _ => s.startWarm ticks

/-! ### The handover (R500, R501) -/

/-- R500: the unit that a handover restarts first: the non-owner; without an owner, the one that is not preferred.
(DEDUCED, log entry 94) -/
def State.standbyUnit (s : State) : Nat :=
  match s.owner with
  | some o => peer o
  | none => peer (s.rd F.CUX_OWNER_PREF)

/-- R500: steps 3 and 5 restart a unit with the new firmware. -/
def State.handRestart (s : State) (step u : Nat) : State := (s.setUpd { s.upd with step := step, unit := u }).restartUnit u 3

/-- R500: the first step from `k` on for which the package has a part; none left ends the handover. (DEDUCED, log entry 118) -/
def State.handFrom (s : State) (k : Nat) : State :=
  if k ≤ 1 ∧ s.hasPart 4 then s.setUpd { s.upd with step := 1 }
  else if k ≤ 2 ∧ s.hasPart 1 then s.setUpd { s.upd with step := 2 }
  else if k ≤ 3 ∧ s.hasPart 3 then s.handRestart 3 s.standbyUnit
  else s.updEnd

/-- R500 step 1: the operator library is copied to UPD_LIB_ADDR. -/
def State.handLib (s : State) : State :=
  match s.upd.parts.find? (fun x => x.typ == 4) with
  | none => s
  | some x =>
    let a := s.rd F.UPD_LIB_ADDR_HI_ADDR * 2 ^ 32 + 64 * s.rd F.UPD_LIB_ADDR_LO_ADDR
    (s.physWrite a (s.flashBytes x.slotOff x.newLen)).wr F.UPD_LIB_LEN_LEN x.newLen

/-- R456, R500 step 2: the Keeper restarts into its ROM and runs the newly active firmware. -/
def State.handKeeper (s : State) : State := s.reloadKeeper false (dirInForce s.bootSource)

/-- R500, R501: the handover goes on once what the step in progress waits for has come. (DEDUCED, log entry 118) -/
def State.handStep (s : State) : State :=
  if s.rd F.UPD_STATUS_STATE ≠ 4 then s
  else
    match s.upd.step with
    | 1 => s.handLib.handFrom 2
    | 2 => s.handKeeper.handFrom 3
    | 3 => if s.fit s.upd.unit then s.setUpd { s.upd with step := 4 } else s
    | 4 =>
      let u := s.upd.unit
      if s.cux.gap.isSome then s
      else if s.owner = some u then s.handRestart 5 (peer u)
      else if s.switchBusy || !s.fit u then s
      else s.startGap 2 s.owner u
    | 5 => if s.fit s.upd.unit then s.updEnd else s
    | _ => s

/-- R501: a wait of the handover expires. -/
def State.handTimeout (s : State) : State :=
  if s.rd F.UPD_STATUS_STATE = 4 ∧ 3 ≤ s.upd.step then s.updEnd.updReport 0x1F0D else s

/-- R498 step 4, R499, R500: the activation point. (DEDUCED, log entry 118) -/
def State.activated (s : State) (off : Nat) (d : List Byte) : State :=
  let ps := s.upd.parts
  let s := s.flashProgram (if off = 0 then 0x10000 else 0) 4096 (newDir d ps)
  let s := (s.wr F.KPR_DIR_SEQ_SEQ ((leAt d 8 4 + 1) % 2 ^ 32)).wr F.UPD_STATUS_ACTIVATED 1
  let s := match ps.find? (fun x => x.typ == 1) with
    | some x => s.setBoot { s.boot with nextFormat := some x.setFormat }
    | none => s
  if s.upd.nextBoot || s.pwr.afterUpd.isSome then s.updEnd.afterActivation
  else ((s.setUpd { s.upd with writing := false }).updState 4).handFrom 1

/-- The end of an activation on the directory copy in force. -/
def State.activationOn (s : State) (good : Bool) : Option (Nat × List Byte) → State
  | none => (s.updFail 0x1F0A 0 0).afterActivation
  | some (off, d) => if good then s.activated off d else (s.updFail 0x1F0A 0 0).afterActivation

/-- R498: steps 3 and 4 end; a failure keeps the directory in force. (DEDUCED, log entry 117) -/
def State.activationEnd (s : State) (readBackOk : Bool) : State :=
  let bad := s.upd.parts.any (fun x => Config.sha256 (s.flashBytes x.slotOff x.newLen) != x.digest)
  s.activationOn (!bad && readBackOk) (dirInForce (fun a => KMap.get (fun _ => 0xFF) s.boot.flash a))

/-- R498: the activation, once the maintenance it waits for has ended. -/
def State.activationPoint (s : State) (readBackOk : Bool) : State :=
  if s.rd F.UPD_STATUS_STATE ≠ 3 then s
  else if s.upd.writing then s.activationEnd readBackOk
  else if s.maintPending then s
  else if s.updRefusals ≠ 0 then (s.updState 2).updRefused
  else s.activationEnd readBackOk

/-! ### Commands -/

/-- R503: CANCEL. (DEDUCED, log entry 117) -/
def State.updCancel (s : State) : State :=
  match s.rd F.UPD_STATUS_STATE with
  | 1 | 2 => s.updDrop
  | 3 | 4 => s.updReport 0x1F02
  | _ => s

/-- R504: a write of UPD_CMD. (DEDUCED, log entry 116) -/
def State.updCmd (s : State) (val : Word) : State :=
  let s := if F.UPD_CMD_STAGE.of val = 1 then s.stage else s
  let s := if F.UPD_CMD_ACTIVATE.of val = 1 then s.activate (F.UPD_CMD_MODE.of val == 1) else s
  if F.UPD_CMD_CANCEL.of val = 1 then s.updCancel else s

/-- Writes of the UPD block by offset: the package registers are writable only outside STAGING. -/
def State.updRegWrite (s : State) (o : Nat) (val : Word) : State :=
  if o = 0x004 then s.updCmd val
  else if (o = 0x00C ∨ o = 0x010 ∨ o = 0x014) ∧ s.rd F.UPD_STATUS_STATE = 1 then s
  else s.plainWrite (blockBase 0x1F + o) val

/-- STAGE: UPD_CMD is written with STAGE (R496). -/
def execStage (src : Agent) (val : Word) (s : State) : Out :=
  .next (s.writeReg src F.UPD_CMD_STAGE (val ||| 0x80000000) (fun s => s.updCmd (val ||| 0x80000000)))

/-- STAGING_DONE (R497). -/
def execStagingDone (flashError : Option (Nat × Nat)) (s : State) : Out := .next (s.stagingDone flashError)

/-- ACTIVATE: UPD_CMD is written with ACTIVATE (R498). -/
def execActivate (src : Agent) (val : Word) (s : State) : Out :=
  .next (s.writeReg src F.UPD_CMD_STAGE (val ||| 0x40000000) (fun s => s.updCmd (val ||| 0x40000000)))

/-- ACTIVATION_POINT (R498). -/
def execActivationPoint (readBackOk : Bool) (s : State) : Out := .next (s.activationPoint readBackOk)

/-- HANDOVER_STEP (R500). -/
def execHandoverStep (s : State) : Out := .next s.handStep

/-- HANDOVER_TIMEOUT (R501). -/
def execHandoverTimeout (s : State) : Out := .next s.handTimeout

/-- UPD_CANCEL: UPD_CMD is written with CANCEL (R503). -/
def execUpdCancel (src : Agent) (val : Word) (s : State) : Out :=
  .next (s.writeReg src F.UPD_CMD_STAGE (val ||| 0x20000000) (fun s => s.updCmd (val ||| 0x20000000)))

end Sys2Proof.Machine
end

