-- ==== Sys2Proof/Machine/Bus.lean ====
section
/-! DEFINITION. The peripheral bus: a write of any register by its offset, and the host's accesses through BAR0 (R4 to R8,
R39, R393). -/

namespace Sys2Proof.Machine

/-- R136: a write of MESH_CTRL, and of the other registers of the MESH block. (DESIGN CHOICE, log entry 125) -/
def State.meshRegWrite (s : State) (o : Nat) (val : Word) : State :=
  if o = F.MESH_CTRL_CLR_HIGH.off % 0x40000 then
    (if F.MESH_CTRL_CLR_HIGH.of val = 1 then s.wr F.MESH_TAGS_HIGH_WATER (s.rd F.MESH_TAGS_IN_USE) else s)
  else s.plainWrite (blockBase 0x05 + o) val

/-- R4, R5: what a whole-word write does, by the block of its offset. -/
def State.regEffect (s : State) (src : Agent) (off : Nat) (val : Word) : State :=
  let o := off % 0x40000
  match off / 0x40000 with
  | 0x01 => s.kprRegWrite o val
  | 0x02 => s.pwrRegWrite o val
  | 0x03 => s.clkRegWrite o val
  | 0x04 => s.cuxRegWrite o val
  | 0x05 => s.meshRegWrite o val
  | 0x07 => s.qdrRegWrite o val
  | 0x08 => s.xltRegWrite o val
  | 0x09 => s.dmaRegWrite o val
  | 0x0A => s.hqRegWrite o val
  | 0x0B => s.schRegWrite o val
  | 0x0C => s.engRegWrite o val
  | 0x0D => s.sealRegWrite o val
  | 0x0E => s.ckvRegWrite o .word val
  | 0x0F => s.strRegWrite o val
  | 0x10 => s.slkRegWrite o val
  | 0x12 => s.magRegWrite o val
  | 0x13 => s.encRegWrite o val
  | 0x14 => s.rateRegWrite o val
  | 0x16 => s.cmpRegWrite o val
  | 0x17 => s.sdiRegWrite o val
  | 0x18 => s.netRegWrite o val
  | 0x19 => s.tsnRegWrite o val
  | 0x1A => s.ptpRegWrite o val
  | 0x1B => s.audRegWrite o val
  | 0x1C => s.hifRegWrite src o val
  | 0x1D => s.bistRegWrite o val
  | 0x1E => s.calRegWrite o val
  | 0x1F => s.updRegWrite o val
  | 0x20 => s.fuseRegWrite o val
  | _ => s.plainWrite off val

/-- R39: the bytes of the CKV_DATA registers, which accept narrow writes. (DEDUCED, log entry 120) -/
def isCkvData (off : Nat) : Bool :=
  let o := off % 0x40000
  off / 0x40000 == 0x0E && decide (o < 0x100) && decide (8 ≤ o % 0x40) && decide (o % 0x40 < 0xC)

/-- R7, R413: a write that is no aligned word passes the gate and is mirrored, and its register discards it.
(DEDUCED, log entries 12, 120) -/
def State.narrowWrite (s : State) (src : Agent) (off : Nat) (size : Size) (val : Word) : State :=
  match s.gate src off with
  | .pass true | .hold => s.mirror src off size val false
  | .pass false => s
  | .deny => s.notOwner src
  | .hostDenied => (s.mirror src off size val false).reportHostDenied off
  | .absent => s

/-- A write of `size` at any offset of the control space (R4 to R8, R39). (DEDUCED, log entry 5) -/
def State.busWrite (s : State) (src : Agent) (off : Nat) (size : Size) (val : Word) : State :=
  if isCkvData off then s.write src off size val (fun s => s.ckvRegWrite (off % 0x40000) size val)
  else if size = .word ∧ off % 4 = 0 then s.write src off .word val (fun s => s.regEffect src off val)
  else s.narrowWrite src off size val

/-- A whole-word read with what it does besides: HIF_XSPI_DATA takes four bytes of its FIFO (R401), CKV results wait for
the bytes written before (R41), PWR_VIN starts a new minimum (R434), and a FUSE register is not read while programming
runs (R469). (DESIGN CHOICE, log entries 88, 96, 122) -/
def State.busRead (s : State) (off : Nat) : State :=
  let o := off % 0x40000
  let shown (s : State) : State := s.setReadData (leBytes 4 (s.regRead off).toNat)
  if off = blockBase 0x1C + 0x200C then s.xspiPop
  else if off / 0x40000 = 0x0E ∧ o < 0x100 ∧ 0xC ≤ o % 0x40 ∧ o % 0x40 < 0x18 then shown (s.ckvDrain (o / 0x40) 10)
  else if off = F.PWR_VIN_VIN.off then (shown s).wr F.PWR_VIN_VIN_MIN (s.rd F.PWR_VIN_VIN)
  else if off / 0x40000 = 0x20 ∧ s.on F.FUSE_PROG_STATUS_BUSY then s
  else shown s

/-- R392, R393, R458: a host read through BAR0. The data of one that is no aligned word is open.
(DESIGN CHOICE, log entries 88, 122) -/
def State.bar0Read (s : State) (off : Nat) (size : Size) : State :=
  if s.rd F.PWR_STATUS_DAY = 0 || !s.on F.HIF_STATUS_LINK then s
  else if size = .word ∧ off % 4 = 0 then s.busRead off
  else
    let f := s.takeFree 32
    f.2.setReadData (leBytes size.len f.1)

/-- REGISTER_WRITE (R5, R7, R8). -/
def execRegisterWrite (src : Agent) (off : BitVec 24) (size : Size) (val : Word) (s : State) : Out :=
  .next (s.busWrite src off.toNat size val)

/-- BAR0_ACCESS (R393). -/
def execBar0Access (write : Bool) (off : BitVec 24) (size : Size) (val : Word) (s : State) : Out :=
  .next (if write then s.busWrite .host off.toNat size val else s.bar0Read off.toNat size)

end Sys2Proof.Machine
end

