-- ==== Sys2Proof/Machine/Frames.lean ====
section
/-! DEFINITION. The frame boundary of a head (R309, R312, R313, R318, R322, R327), which is also a HEAD_FRAME epoch (R62). -/

namespace Sys2Proof.Machine

/-- R313: a head that was disabled stops at the end of its frame; a pending enable starts it again. -/
def State.headStop (s : State) (h : Nat) : State :=
  let s := (s.setHead h { s.head h with running := false }).wr (F.CMP_H_STATUS_SHUTTING_DOWN h) 0
  let s := s.sdiHeadOff h
  if s.on (F.CMP_H_STATUS_PENDING_ENABLE h) then (s.wr (F.CMP_H_STATUS_PENDING_ENABLE h) 0).headBegin h else s

/-- R62, R309, R312, R322: an output frame starts: its epoch, then the commits and the frames shown. -/
def State.headFrame (s : State) (h : Nat) : State :=
  let t := s.timestamp
  let s := s.incWrap (F.CMP_H_FRAME_COUNT h)
  let s := s.setHead h { s.head h with running := true, sec := tsSec t % 2 ^ 32, ns := tsNs t, hold := s.inHoldover, short := [] }
  let s := s.sourceEpoch 2 h (s.rd (F.CMP_H_FRAME_COUNT h))
  (s.commitBoundary h).showFrames h

/-- R312, R313, R318, R326, R327: a frame boundary of head `h`. (DESIGN CHOICE, log entries 59, 63, 119) -/
def State.boundary (s : State) (h : Nat) : State :=
  let s := if (s.head h).running then (s.emitFrame h).each (s.sdiOf h) (fun n s => s.sdiBoundary n) else s
  if s.on (F.CMP_H_STATUS_SHUTTING_DOWN h) then s.headStop h
  else if s.on (F.CMP_H_CTRL_EN h) && s.island (0x18 + h) == 2 then
    let first := !(s.head h).running
    let s := s.headFrame h
    let s := if first then s.each (s.sdiOf h) (fun n s => s.sdiBoundary n) else s
    s.each (s.sdiOf h) (fun n s => s.sdiInsert n)
  else s

/-- FRAME_BOUNDARY (R312); `cancel` when CANCEL is written in the same fclk cycle (R85). -/
def execFrameBoundary (head : Fin 4) (cancel : Bool) (s : State) : Out :=
  .next ((s.boundary head).cancelWith s.str.armed cancel)

end Sys2Proof.Machine
end

