-- ==== Sys2Proof/Machine/Dispatch.lean ====
section
/-! DEFINITION. The dispatch: each command of the table calls its one meaning. -/

namespace Sys2Proof.Machine

/-- The effect of one command on everything but the queue of waiting commands. (DESIGN CHOICE, log entry 6) -/
def exec (i : Instr) (s : State) : Host.Outcome State Fault Refusal :=
  match i with
  | .registerWrite src off size val => Sys2Proof.Machine.execRegisterWrite src off size val s
  | .sealHaltClr src val => Sys2Proof.Machine.execSealHaltClr src val s
  | .sealEvtPop src val => Sys2Proof.Machine.execSealEvtPop src val s
  | .clrCounts src val inc => Sys2Proof.Machine.execClrCounts src val inc s
  | .ckvStart src unit val => Sys2Proof.Machine.execCkvStart src unit val s
  | .ckvDataWrite src unit lane size val => Sys2Proof.Machine.execCkvDataWrite src unit lane size val s
  | .ckvByteConsumed unit => Sys2Proof.Machine.execCkvByteConsumed unit s
  | .ckvResultRead unit which => Sys2Proof.Machine.execCkvResultRead unit which s
  | .load src val => Sys2Proof.Machine.execLoad src val s
  | .arm src val => Sys2Proof.Machine.execArm src val s
  | .strCancel src val => Sys2Proof.Machine.execStrCancel src val s
  | .retireForce src val => Sys2Proof.Machine.execRetireForce src val s
  | .validationDone => Sys2Proof.Machine.execValidationDone s
  | .preparationDone => Sys2Proof.Machine.execPreparationDone s
  | .timebaseEpoch tb cancel => Sys2Proof.Machine.execTimebaseEpoch tb cancel s
  | .timebaseLost tb => Sys2Proof.Machine.execTimebaseLost tb s
  | .hqAlloc src pairB val => Sys2Proof.Machine.execHqAlloc src pairB val s
  | .hqQcfgWrite src which val => Sys2Proof.Machine.execHqQcfgWrite src which val s
  | .enable src => Sys2Proof.Machine.execEnable src s
  | .disable src => Sys2Proof.Machine.execDisable src s
  | .qcmdFree src => Sys2Proof.Machine.execQcmdFree src s
  | .flush src => Sys2Proof.Machine.execFlush src s
  | .clearHighWater src => Sys2Proof.Machine.execClearHighWater src s
  | .hqDbPush src val => Sys2Proof.Machine.execHqDbPush src val s
  | .hqDbPop src val => Sys2Proof.Machine.execHqDbPop src val s
  | .descriptorWriteDenied addr bytes => Sys2Proof.Machine.execDescriptorWriteDenied addr bytes s
  | .reservation qid reqs => Sys2Proof.Machine.execReservation qid reqs s
  | .reservationRetry qid => Sys2Proof.Machine.execReservationRetry qid s
  | .entryCommit qid idx addr eflags len16 seq => Sys2Proof.Machine.execEntryCommit qid idx addr eflags len16 seq s
  | .entryPop qid idx => Sys2Proof.Machine.execEntryPop qid idx s
  | .taskCreate node => Sys2Proof.Machine.execTaskCreate node s
  | .taskDispatch list => Sys2Proof.Machine.execTaskDispatch list s
  | .preemptRequest slot => Sys2Proof.Machine.execPreemptRequest slot s
  | .preemptGraceExpiry cluster => Sys2Proof.Machine.execPreemptGraceExpiry cluster s
  | .taskResume unit => Sys2Proof.Machine.execTaskResume unit s
  | .schCancel src val completed => Sys2Proof.Machine.execSchCancel src val completed s
  | .histClr src mon val => Sys2Proof.Machine.execHistClr src mon val s
  | .loadWindowEnd => Sys2Proof.Machine.execLoadWindowEnd s
  | .clrHigh src val => Sys2Proof.Machine.execClrHigh src val s
  | .holeAccess acc => Sys2Proof.Machine.execHoleAccess acc s
  | .sysregWrite addr bytes => Sys2Proof.Machine.execSysregWrite addr bytes s
  | .qdrReadCheck addr first second rmw => Sys2Proof.Machine.execQdrReadCheck addr first second rmw s
  | .retrain src val trains => Sys2Proof.Machine.execRetrain src val trains s
  | .driftLimit ch steps => Sys2Proof.Machine.execDriftLimit ch steps s
  | .qdrErrPop src val => Sys2Proof.Machine.execQdrErrPop src val s
  | .xltSpaceReq src val => Sys2Proof.Machine.execXltSpaceReq src val s
  | .spaceEnable src => Sys2Proof.Machine.execSpaceEnable src s
  | .spaceDisable src => Sys2Proof.Machine.execSpaceDisable src s
  | .spaceFree src => Sys2Proof.Machine.execSpaceFree src s
  | .spaceRootWrite src hi val => Sys2Proof.Machine.execSpaceRootWrite src hi val s
  | .xltInvCmd src val => Sys2Proof.Machine.execXltInvCmd src val s
  | .invalidationDone => Sys2Proof.Machine.execInvalidationDone s
  | .translationFault acc stop badLevel => Sys2Proof.Machine.execTranslationFault acc stop badLevel s
  | .faultQueueWaitEnd => Sys2Proof.Machine.execFaultQueueWaitEnd s
  | .retry src => Sys2Proof.Machine.execRetry src s
  | .abort src => Sys2Proof.Machine.execAbort src s
  | .retrySpace src => Sys2Proof.Machine.execRetrySpace src s
  | .dmaDb src mover val => Sys2Proof.Machine.execDmaDb src mover val s
  | .descriptorExecute mover => Sys2Proof.Machine.execDescriptorExecute mover s
  | .descriptorComplete mover => Sys2Proof.Machine.execDescriptorComplete mover s
  | .tget eng pc rd rs1 imm => Sys2Proof.Machine.execTget eng pc rd rs1 imm s
  | .tput eng pc rd rs1 imm => Sys2Proof.Machine.execTput eng pc rd rs1 imm s
  | .tchk eng pc rd rs1 imm => Sys2Proof.Machine.execTchk eng pc rd rs1 imm s
  | .qsig eng pc rd rs1 rs2 funct7 => Sys2Proof.Machine.execQsig eng pc rd rs1 rs2 funct7 s
  | .qwait eng pc rd rs1 rs2 funct7 => Sys2Proof.Machine.execQwait eng pc rd rs1 rs2 funct7 s
  | .ppt eng pc => Sys2Proof.Machine.execPpt eng pc s
  | .ecall eng a0 => Sys2Proof.Machine.execEcall eng a0 s
  | .engineTrap eng cause tval pc => Sys2Proof.Machine.execEngineTrap eng cause tval pc s
  | .install src val => Sys2Proof.Machine.execInstall src val s
  | .libLoad src val => Sys2Proof.Machine.execLibLoad src val s
  | .libOperationDone => Sys2Proof.Machine.execLibOperationDone s
  | .cntClr src val => Sys2Proof.Machine.execCntClr src val s
  | .groupEnable src group val => Sys2Proof.Machine.execGroupEnable src group val s
  | .slkCntClr src group val inc => Sys2Proof.Machine.execSlkCntClr src group val inc s
  | .cdrLocked lane => Sys2Proof.Machine.execCdrLocked lane s
  | .laneAligned lane => Sys2Proof.Machine.execLaneAligned lane s
  | .laneAlignLoss lane groups => Sys2Proof.Machine.execLaneAlignLoss lane groups s
  | .deskew group skews together => Sys2Proof.Machine.execDeskew group skews together s
  | .fs group pkt cancel => Sys2Proof.Machine.execFs group pkt cancel s
  | .fe group pkt => Sys2Proof.Machine.execFe group pkt s
  | .line group pkt => Sys2Proof.Machine.execLine group pkt s
  | .emb group pkt => Sys2Proof.Machine.execEmb group pkt s
  | .cmdRsp group pkt => Sys2Proof.Machine.execCmdRsp group pkt s
  | .test group pkt => Sys2Proof.Machine.execTest group pkt s
  | .tileRowEmit node => Sys2Proof.Machine.execTileRowEmit node s
  | .laneUnderrun group => Sys2Proof.Machine.execLaneUnderrun group s
  | .seqStart src group val => Sys2Proof.Machine.execSeqStart src group val s
  | .seqStop src group val => Sys2Proof.Machine.execSeqStop src group val s
  | .seqEntry group => Sys2Proof.Machine.execSeqEntry group s
  | .seqRspTimeout group => Sys2Proof.Machine.execSeqRspTimeout group s
  | .spareTakeover src group val => Sys2Proof.Machine.execSpareTakeover src group val s
  | .release src group val => Sys2Proof.Machine.execRelease src group val s
  | .spareMatch group => Sys2Proof.Machine.execSpareMatch group s
  | .spareFail group => Sys2Proof.Machine.execSpareFail group s
  | .mirror group => Sys2Proof.Machine.execMirror group s
  | .testGo src group val => Sys2Proof.Machine.execTestGo src group val s
  | .testRunEnd group => Sys2Proof.Machine.execTestRunEnd group s
  | .clockLost group => Sys2Proof.Machine.execClockLost group s
  | .clockWindowEnd group ppm => Sys2Proof.Machine.execClockWindowEnd group ppm s
  | .glitch group => Sys2Proof.Machine.execGlitch group s
  | .magPortEnable src port val => Sys2Proof.Machine.execMagPortEnable src port val s
  | .magShutdownEnd port => Sys2Proof.Machine.execMagShutdownEnd port s
  | .hwqEn src port val => Sys2Proof.Machine.execHwqEn src port val s
  | .magLinkChange port up speed width => Sys2Proof.Machine.execMagLinkChange port up speed width s
  | .inboundRequest port write addr len bytes => Sys2Proof.Machine.execInboundRequest port write addr len bytes s
  | .magPCfga src port val answer => Sys2Proof.Machine.execMagPCfga src port val answer s
  | .extCountWrite src port val => Sys2Proof.Machine.execExtCountWrite src port val s
  | .frameAdmit input => Sys2Proof.Machine.execFrameAdmit input s
  | .recordingTile input => Sys2Proof.Machine.execRecordingTile input s
  | .frameDrain => Sys2Proof.Machine.execFrameDrain s
  | .nvmeCompletion port => Sys2Proof.Machine.execNvmeCompletion port s
  | .magTimeout port cid => Sys2Proof.Machine.execMagTimeout port cid s
  | .recordAcknowledged port => Sys2Proof.Machine.execRecordAcknowledged port s
  | .start src => Sys2Proof.Machine.execStart src s
  | .stop src => Sys2Proof.Machine.execStop src s
  | .takeAbort src => Sys2Proof.Machine.execTakeAbort src s
  | .closing => Sys2Proof.Machine.execClosing s
  | .magLost port => Sys2Proof.Machine.execMagLost port s
  | .encInputTile ctx => Sys2Proof.Machine.execEncInputTile ctx s
  | .contextSwitch core => Sys2Proof.Machine.execContextSwitch core s
  | .ctuRowCode core row => Sys2Proof.Machine.execCtuRowCode core row s
  | .key src ctx val => Sys2Proof.Machine.execKey src ctx val s
  | .markLt src ctx val => Sys2Proof.Machine.execMarkLt src ctx val s
  | .useLt src ctx val => Sys2Proof.Machine.execUseLt src ctx val s
  | .encStreamEnable src ctx val => Sys2Proof.Machine.execEncStreamEnable src ctx val s
  | .encShutdownEnd ctx => Sys2Proof.Machine.execEncShutdownEnd ctx s
  | .rateWrite src ctx which val => Sys2Proof.Machine.execRateWrite src ctx which val s
  | .decInputChunk events => Sys2Proof.Machine.execDecInputChunk events s
  | .decPictureOutput => Sys2Proof.Machine.execDecPictureOutput s
  | .layerTile slot => Sys2Proof.Machine.execLayerTile slot s
  | .frameBoundary head cancel => Sys2Proof.Machine.execFrameBoundary head cancel s
  | .syncHoldover head what => Sys2Proof.Machine.execSyncHoldover head what s
  | .headEnable src head val => Sys2Proof.Machine.execHeadEnable src head val s
  | .headUnderrun head line col => Sys2Proof.Machine.execHeadUnderrun head line col s
  | .go src head val => Sys2Proof.Machine.execGo src head val s
  | .commitCancel src head val => Sys2Proof.Machine.execCommitCancel src head val s
  | .coefLoadDone slot => Sys2Proof.Machine.execCoefLoadDone slot s
  | .sdiEnable src ser val => Sys2Proof.Machine.execSdiEnable src ser val s
  | .netCfgWrite src val => Sys2Proof.Machine.execNetCfgWrite src val s
  | .netPortEnable src port val => Sys2Proof.Machine.execNetPortEnable src port val s
  | .netLinkChange port up => Sys2Proof.Machine.execNetLinkChange port up s
  | .frameReceive port bytes fcsOk => Sys2Proof.Machine.execFrameReceive port bytes fcsOk s
  | .softwareFrameTx port => Sys2Proof.Machine.execSoftwareFrameTx port s
  | .senderTile slot => Sys2Proof.Machine.execSenderTile slot s
  | .senderPacketDue slot => Sys2Proof.Machine.execSenderPacketDue slot s
  | .frameTransmit port => Sys2Proof.Machine.execFrameTransmit port s
  | .commit src port val => Sys2Proof.Machine.execCommit src port val s
  | .gateCancel src port val late => Sys2Proof.Machine.execGateCancel src port val late s
  | .gateListChange port => Sys2Proof.Machine.execGateListChange port s
  | .gateEntryChange port => Sys2Proof.Machine.execGateEntryChange port s
  | .tsnIdleWrite src port cls val => Sys2Proof.Machine.execTsnIdleWrite src port cls val s
  | .tsnHiWrite src port cls val => Sys2Proof.Machine.execTsnHiWrite src port cls val s
  | .sync msg => Sys2Proof.Machine.execSync msg s
  | .followUp msg => Sys2Proof.Machine.execFollowUp msg s
  | .delayResp msg => Sys2Proof.Machine.execDelayResp msg s
  | .announce msg data => Sys2Proof.Machine.execAnnounce msg data s
  | .ptpMasterLost => Sys2Proof.Machine.execPtpMasterLost s
  | .ptpMasterSend announce => Sys2Proof.Machine.execPtpMasterSend announce s
  | .ppsEdge => Sys2Proof.Machine.execPpsEdge s
  | .ppsLost => Sys2Proof.Machine.execPpsLost s
  | .setTime src val => Sys2Proof.Machine.execSetTime src val s
  | .adjust src val => Sys2Proof.Machine.execAdjust src val s
  | .latch src val => Sys2Proof.Machine.execLatch src val s
  | .aoPpbMeasure ppb => Sys2Proof.Machine.execAoPpbMeasure ppb s
  | .tpoEnable src out val => Sys2Proof.Machine.execTpoEnable src out val s
  | .tpoPulseStart out => Sys2Proof.Machine.execTpoPulseStart out s
  | .tpoPulseEnd out => Sys2Proof.Machine.execTpoPulseEnd out s
  | .tpoCapture out => Sys2Proof.Machine.execTpoCapture out s
  | .samplePeriod port din => Sys2Proof.Machine.execSamplePeriod port din s
  | .audTxTile port => Sys2Proof.Machine.execAudTxTile port s
  | .audPortEnable src port val => Sys2Proof.Machine.execAudPortEnable src port val s
  | .txMute src port val => Sys2Proof.Machine.execTxMute src port val s
  | .zcTimeout port slot => Sys2Proof.Machine.execZcTimeout port slot s
  | .audClockChange port lost ppm glitches => Sys2Proof.Machine.execAudClockChange port lost ppm glitches s
  | .audGroupWrite src group val => Sys2Proof.Machine.execAudGroupWrite src group val s
  | .bar0Access write off size val => Sys2Proof.Machine.execBar0Access write off size val s
  | .bar2Access off len write => Sys2Proof.Machine.execBar2Access off len write s
  | .cplTimeout len => Sys2Proof.Machine.execCplTimeout len s
  | .hostReset linkDown => Sys2Proof.Machine.execHostReset linkDown s
  | .msixMessage => Sys2Proof.Machine.execMsixMessage s
  | .hifChDb src ch val => Sys2Proof.Machine.execHifChDb src ch val s
  | .hostOutTile ch => Sys2Proof.Machine.execHostOutTile ch s
  | .hostInEntry ch => Sys2Proof.Machine.execHostInEntry ch s
  | .xspiGo src val resp => Sys2Proof.Machine.execXspiGo src val resp s
  | .i2cTransfer master addr wrote result => Sys2Proof.Machine.execI2cTransfer master addr wrote result s
  | .uartReceive uart byte => Sys2Proof.Machine.execUartReceive uart byte s
  | .gpioEdge pin level => Sys2Proof.Machine.execGpioEdge pin level s
  | .claim src unit both => Sys2Proof.Machine.execClaim src unit both s
  | .force src unit => Sys2Proof.Machine.execForce src unit s
  | .yield src unit => Sys2Proof.Machine.execYield src unit s
  | .ready src unit => Sys2Proof.Machine.execReady src unit s
  | .declareFault src unit => Sys2Proof.Machine.execDeclareFault src unit s
  | .clearFault src unit => Sys2Proof.Machine.execClearFault src unit s
  | .drill src unit => Sys2Proof.Machine.execDrill src unit s
  | .cuxUKick src unit val => Sys2Proof.Machine.execCuxUKick src unit val s
  | .selfFault unit cause => Sys2Proof.Machine.execSelfFault unit cause s
  | .jtxDb src unit val => Sys2Proof.Machine.execJtxDb src unit val s
  | .heartbeat unit pathK => Sys2Proof.Machine.execHeartbeat unit pathK s
  | .pathDown unit pathK => Sys2Proof.Machine.execPathDown unit pathK s
  | .switchOverGapEnd cycles => Sys2Proof.Machine.execSwitchOverGapEnd cycles s
  | .doorbellHold src off val => Sys2Proof.Machine.execDoorbellHold src off val s
  | .ownershipLost cycles => Sys2Proof.Machine.execOwnershipLost cycles s
  | .returnPref => Sys2Proof.Machine.execReturnPref s
  | .drillEnd => Sys2Proof.Machine.execDrillEnd s
  | .underVoltageLockout vin => Sys2Proof.Machine.execUnderVoltageLockout vin s
  | .overTemp die temp => Sys2Proof.Machine.execOverTemp die temp s
  | .tempWarn die => Sys2Proof.Machine.execTempWarn die s
  | .lowInput => Sys2Proof.Machine.execLowInput s
  | .lowin1s => Sys2Proof.Machine.execLowin1s s
  | .telemetrySample mv ma temps => Sys2Proof.Machine.execTelemetrySample mv ma temps s
  | .sleep src val => Sys2Proof.Machine.execSleep src val s
  | .duskStepEnd => Sys2Proof.Machine.execDuskStepEnd s
  | .wakeSource tick => Sys2Proof.Machine.execWakeSource tick s
  | .islandDemand island => Sys2Proof.Machine.execIslandDemand island s
  | .islandAwake island => Sys2Proof.Machine.execIslandAwake island s
  | .idleCountExpiry island => Sys2Proof.Machine.execIdleCountExpiry island s
  | .islandAsleep island => Sys2Proof.Machine.execIslandAsleep island s
  | .forceAwake src island val => Sys2Proof.Machine.execForceAwake src island val s
  | .clkFclkWrite src eclk val => Sys2Proof.Machine.execClkFclkWrite src eclk val s
  | .clockSwitch domain => Sys2Proof.Machine.execClockSwitch domain s
  | .clkCclkWrite src unit val => Sys2Proof.Machine.execClkCclkWrite src unit val s
  | .coldStart vin pref sel dev => Sys2Proof.Machine.execColdStart vin pref sel dev s
  | .porst us => Sys2Proof.Machine.execPorst us s
  | .warmReset src val ticks => Sys2Proof.Machine.execWarmReset src val ticks s
  | .restartUnit src unit => Sys2Proof.Machine.execRestartUnit src unit s
  | .unitRelease unit => Sys2Proof.Machine.execUnitRelease unit s
  | .keeperWatchdog => Sys2Proof.Machine.execKeeperWatchdog s
  | .kprHostGo src val => Sys2Proof.Machine.execKprHostGo src val s
  | .fuseProgCmd src val => Sys2Proof.Machine.execFuseProgCmd src val s
  | .idread => Sys2Proof.Machine.execIdread s
  | .idcode => Sys2Proof.Machine.execIdcode s
  | .bistGo src slot val => Sys2Proof.Machine.execBistGo src slot val s
  | .bistAbort src slot val result => Sys2Proof.Machine.execBistAbort src slot val result s
  | .bistRunning slot => Sys2Proof.Machine.execBistRunning slot s
  | .bistDone slot result => Sys2Proof.Machine.execBistDone slot result s
  | .now src val => Sys2Proof.Machine.execNow src val s
  | .calTempTrigger => Sys2Proof.Machine.execCalTempTrigger s
  | .calPosition trims spareFails underrun => Sys2Proof.Machine.execCalPosition trims spareFails underrun s
  | .deferredActivityStart => Sys2Proof.Machine.execDeferredActivityStart s
  | .stage src val => Sys2Proof.Machine.execStage src val s
  | .stagingDone flashError => Sys2Proof.Machine.execStagingDone flashError s
  | .activate src val => Sys2Proof.Machine.execActivate src val s
  | .activationPoint readBackOk => Sys2Proof.Machine.execActivationPoint readBackOk s
  | .handoverStep => Sys2Proof.Machine.execHandoverStep s
  | .handoverTimeout => Sys2Proof.Machine.execHandoverTimeout s
  | .updCancel src val => Sys2Proof.Machine.execUpdCancel src val s
  | .dmaTaskComplete mover => Sys2Proof.Machine.execDmaTaskComplete mover s
  | .hostLinkUp speed width => Sys2Proof.Machine.execHostLinkUp speed width s
  | .busMasterEnable bme msixEn msixMask => Sys2Proof.Machine.execBusMasterEnable bme msixEn msixMask s
  | .delayReq msg => Sys2Proof.Machine.execDelayReq msg s
  | .minDelayReqInterval => Sys2Proof.Machine.execMinDelayReqInterval s
  | .fuseReadBack ok => Sys2Proof.Machine.execFuseReadBack ok s
  | .dmi hart halt => Sys2Proof.Machine.execDmi hart halt s

end Sys2Proof.Machine
end

