-- ==== Sys2Proof/Machine/Float.lean ====
section
/-! DEFINITION. Floating-point arithmetic of the engines (R163) and of the control units' cores (R406): the F and D extensions as
published by RISC-V International, all five rounding modes and subnormal numbers. Operands become exact numbers `m * 2^e`, the operation
is exact, and the result is rounded once. -/

namespace Sys2Proof.Machine

/-- An integer as a register of `n` bits holds it. -/
def wrapN (n : Nat) (v : Int) : Nat := (v % 2 ^ n).toNat

/-- An integer as a 32-bit register holds it. -/
def wrap32 (v : Int) : Nat := wrapN 32 v

/-! ### Operands -/

/-- A binary format: the widths of its exponent and fraction. -/
structure FpFmt where
  e : Nat
  f : Nat
  deriving DecidableEq, Repr

/-- FP32 and FP64. -/
def fmtS : FpFmt := { e := 8, f := 23 }
def fmtD : FpFmt := { e := 11, f := 52 }

/-- The exponent bias of a format, and its exponent field of all ones. -/
def FpFmt.bias (fm : FpFmt) : Nat := 2 ^ (fm.e - 1) - 1
def FpFmt.top (fm : FpFmt) : Nat := 2 ^ fm.e - 1

/-- A finite number, `(-1)^neg * m * 2^e`. -/
structure FpNum where
  neg : Bool
  m : Nat
  e : Int
  deriving DecidableEq, Repr

/-- The result of an operation and the flags it raises: NV 16, DZ 8, OF 4, UF 2, NX 1. -/
abbrev FpOut := Nat × Nat

/-- The sign, exponent and fraction fields. -/
def fpNeg (fm : FpFmt) (a : Nat) : Bool := bits a (fm.e + fm.f) 1 == 1
def fpExp (fm : FpFmt) (a : Nat) : Nat := bits a fm.f fm.e
def fpFrac (fm : FpFmt) (a : Nat) : Nat := bits a 0 fm.f

/-- The canonical NaN, infinity, zero and the largest finite number of a sign. -/
def fpNaN (fm : FpFmt) : Nat := fm.top * 2 ^ fm.f + 2 ^ (fm.f - 1)
def fpSign (fm : FpFmt) (neg : Bool) : Nat := if neg then 2 ^ (fm.e + fm.f) else 0
def fpInf (fm : FpFmt) (neg : Bool) : Nat := fpSign fm neg + fm.top * 2 ^ fm.f
def fpMax (fm : FpFmt) (neg : Bool) : Nat := fpSign fm neg + fm.top * 2 ^ fm.f - 1

/-- Kinds of operand. -/
def fpIsNaN (fm : FpFmt) (a : Nat) : Bool := fpExp fm a == fm.top && fpFrac fm a != 0
def fpIsSig (fm : FpFmt) (a : Nat) : Bool := fpIsNaN fm a && fpFrac fm a < 2 ^ (fm.f - 1)
def fpIsInf (fm : FpFmt) (a : Nat) : Bool := fpExp fm a == fm.top && fpFrac fm a == 0
def fpIsZero (fm : FpFmt) (a : Nat) : Bool := a % 2 ^ (fm.e + fm.f) == 0

/-- The number a finite operand stands for. -/
def fpVal (fm : FpFmt) (a : Nat) : FpNum :=
  { neg := fpNeg fm a, m := if fpExp fm a = 0 then fpFrac fm a else 2 ^ fm.f + fpFrac fm a,
    e := max 1 (fpExp fm a : Int) - (fm.bias + fm.f : Nat) }

/-- The invalid-operation flag when an operand signals. -/
def fpNV (fm : FpFmt) (l : List Nat) : Nat := if l.any (fpIsSig fm) then 16 else 0

/-! ### Rounding -/

/-- Is the last kept bit rounded up? `odd` is that bit, `r` of `d` is the rest, `sticky` says that more follows. -/
def fpUp (rm : Nat) (neg odd : Bool) (r d : Nat) (sticky : Bool) : Bool :=
  let more := r != 0 || sticky
  match rm with
  | 0 => decide (d < 2 * r) || (decide (2 * r = d) && (sticky || odd))
  | 2 => neg && more
  | 3 => !neg && more
  | 4 => decide (d ≤ 2 * r)
  | _ => false

/-- `m * 2^e` (and a little more where `sticky`) as a multiple of `2^q`, with whether it is inexact. -/
def fpAt (rm : Nat) (neg : Bool) (m : Nat) (e q : Int) (sticky : Bool) : Nat × Bool :=
  if q ≤ e then (m * 2 ^ (e - q).toNat, sticky)
  else
    let d := 2 ^ (q - e).toNat
    let n := m / d
    let r := m % d
    (if fpUp rm neg (n % 2 == 1) r d sticky then n + 1 else n, r != 0 || sticky)

/-- The number of a format nearest to `m * 2^e` as a rounding mode says, `m` not 0; tininess is detected after rounding.
(PRESUMED, log entry 143) -/
def fpRound (fm : FpFmt) (rm : Nat) (neg : Bool) (m : Nat) (e : Int) (sticky : Bool) : FpOut :=
  let top : Int := e + (Nat.log2 m : Int)
  let a := fpAt rm neg m e (max (top - fm.f) (1 - (fm.bias + fm.f : Nat))) sticky
  let q : Int := max (top - fm.f) (1 - (fm.bias + fm.f : Nat))
  let n := if a.1 = 2 ^ (fm.f + 1) then 2 ^ fm.f else a.1
  let q := if a.1 = 2 ^ (fm.f + 1) then q + 1 else q
  let nx := if a.2 then 1 else 0
  if 2 ^ fm.f ≤ n ∧ (fm.bias : Int) - fm.f < q then
    let inf := match rm with | 1 => false | 2 => neg | 3 => !neg | _ => true
    (if inf then fpInf fm neg else fpMax fm neg, 5)
  else
    let tiny := decide (top < 1 - (fm.bias : Int)) &&
      !(top == -(fm.bias : Int) && (fpAt rm neg m e (top - fm.f) sticky).1 == 2 ^ (fm.f + 1))
    let w := if n < 2 ^ fm.f then n else (q + (fm.bias + fm.f : Nat)).toNat * 2 ^ fm.f + (n - 2 ^ fm.f)
    (fpSign fm neg + w, nx + (if tiny && a.2 then 2 else 0))

/-- An exact number rounded; the sign of an exact zero is given. -/
def fpPack (fm : FpFmt) (rm : Nat) (zeroNeg : Bool) (x : FpNum) (sticky : Bool := false) : FpOut :=
  if x.m = 0 then (fpSign fm zeroNeg, 0) else fpRound fm rm x.neg x.m x.e sticky

/-! ### Arithmetic -/

/-- The exact sum of two numbers. -/
def FpNum.add (x y : FpNum) : FpNum :=
  let e := min x.e y.e
  let v (z : FpNum) : Int := (if z.neg then -1 else 1) * ((z.m * 2 ^ (z.e - e).toNat : Nat) : Int)
  let t := v x + v y
  { neg := decide (t < 0), m := t.natAbs, e := e }

/-- The exact product. -/
def FpNum.mul (x y : FpNum) : FpNum := { neg := x.neg != y.neg, m := x.m * y.m, e := x.e + y.e }

/-- The sum of two finite numbers rounded: an exact zero sum of unlike signs is +0, or −0 rounding down. -/
def fpSum (fm : FpFmt) (rm : Nat) (x y : FpNum) : FpOut := fpPack fm rm (if x.neg = y.neg then x.neg else rm == 2) (x.add y)

/-- The operand with its sign changed. -/
def fpFlip (fm : FpFmt) (a : Nat) : Nat := if fpNeg fm a then a - 2 ^ (fm.e + fm.f) else a + 2 ^ (fm.e + fm.f)

/-- FADD. -/
def fpAdd (fm : FpFmt) (rm a b : Nat) : FpOut :=
  if fpIsNaN fm a || fpIsNaN fm b then (fpNaN fm, fpNV fm [a, b])
  else if fpIsInf fm a && fpIsInf fm b && fpNeg fm a != fpNeg fm b then (fpNaN fm, 16)
  else if fpIsInf fm a then (a, 0)
  else if fpIsInf fm b then (b, 0)
  else fpSum fm rm (fpVal fm a) (fpVal fm b)

/-- FSUB. -/
def fpSub (fm : FpFmt) (rm a b : Nat) : FpOut := if fpIsNaN fm b then fpAdd fm rm a b else fpAdd fm rm a (fpFlip fm b)

/-- FMUL. -/
def fpMul (fm : FpFmt) (rm a b : Nat) : FpOut :=
  let neg := fpNeg fm a != fpNeg fm b
  if fpIsNaN fm a || fpIsNaN fm b then (fpNaN fm, fpNV fm [a, b])
  else if (fpIsInf fm a && fpIsZero fm b) || (fpIsZero fm a && fpIsInf fm b) then (fpNaN fm, 16)
  else if fpIsInf fm a || fpIsInf fm b then (fpInf fm neg, 0)
  else fpPack fm rm neg ((fpVal fm a).mul (fpVal fm b))

/-- FMADD: `a * b + c`, rounded once; infinity times zero is invalid even beside a quiet NaN. -/
def fpFma (fm : FpFmt) (rm a b c : Nat) : FpOut :=
  let neg := fpNeg fm a != fpNeg fm b
  if (fpIsInf fm a && fpIsZero fm b) || (fpIsZero fm a && fpIsInf fm b) then (fpNaN fm, 16)
  else if fpIsNaN fm a || fpIsNaN fm b || fpIsNaN fm c then (fpNaN fm, fpNV fm [a, b, c])
  else if fpIsInf fm a || fpIsInf fm b then
    (if fpIsInf fm c && fpNeg fm c != neg then (fpNaN fm, 16) else (fpInf fm neg, 0))
  else if fpIsInf fm c then (c, 0)
  else fpSum fm rm ((fpVal fm a).mul (fpVal fm b)) (fpVal fm c)

/-- FDIV. -/
def fpDiv (fm : FpFmt) (rm a b : Nat) : FpOut :=
  let neg := fpNeg fm a != fpNeg fm b
  if fpIsNaN fm a || fpIsNaN fm b then (fpNaN fm, fpNV fm [a, b])
  else if (fpIsInf fm a && fpIsInf fm b) || (fpIsZero fm a && fpIsZero fm b) then (fpNaN fm, 16)
  else if fpIsInf fm a then (fpInf fm neg, 0)
  else if fpIsInf fm b then (fpSign fm neg, 0)
  else if fpIsZero fm b then (fpInf fm neg, 8)
  else
    let x := fpVal fm a
    let y := fpVal fm b
    let n := x.m * 2 ^ (2 * fm.f + 4)
    fpPack fm rm neg { neg := neg, m := n / y.m, e := x.e - (2 * fm.f + 4 : Nat) - y.e } (n % y.m != 0)

/-- The whole square root of `n`, bit by bit: `k` more bits to try below the root `r` found so far. -/
def sqrtBits (n r : Nat) : Nat → Nat
  | 0 => r
  | k + 1 => if (r + 2 ^ k) * (r + 2 ^ k) ≤ n then sqrtBits n (r + 2 ^ k) k else sqrtBits n r k

/-- FSQRT. -/
def fpSqrt (fm : FpFmt) (rm a : Nat) : FpOut :=
  if fpIsNaN fm a then (fpNaN fm, fpNV fm [a])
  else if fpIsZero fm a then (a, 0)
  else if fpNeg fm a then (fpNaN fm, 16)
  else if fpIsInf fm a then (a, 0)
  else
    let x := fpVal fm a
    let k : Nat := 2 * fm.f + (if x.e % 2 = 0 then 8 else 9)
    let n := x.m * 2 ^ k
    let r := sqrtBits n 0 (2 * fm.f)
    fpRound fm rm false r ((x.e - k) / 2) (r * r != n)

/-- FMADD (0x43), FMSUB (0x47), FNMSUB (0x4B) and FNMADD (0x4F). -/
def fpFused (fm : FpFmt) (op rm a b d : Nat) : FpOut :=
  match op with
  | 0x43 => fpFma fm rm a b d
  | 0x47 => fpFma fm rm a b (fpFlip fm d)
  | 0x4B => fpFma fm rm (fpFlip fm a) b d
  | _ => fpFma fm rm (fpFlip fm a) b (fpFlip fm d)

/-- Rounded results by the operation of OP-FP, the upper five bits of funct7. -/
def fpArith (fm : FpFmt) (op rs2 rm a b : Nat) : Option FpOut :=
  match op with
  | 0x00 => some (fpAdd fm rm a b)
  | 0x01 => some (fpSub fm rm a b)
  | 0x02 => some (fpMul fm rm a b)
  | 0x03 => some (fpDiv fm rm a b)
  | 0x0B => if rs2 = 0 then some (fpSqrt fm rm a) else none
  | _ => none

/-! ### Comparisons, signs and classes -/

/-- Is `a` less than `b`? Neither is a NaN. -/
def fpBelow (fm : FpFmt) (a b : Nat) : Bool :=
  if fpIsZero fm a && fpIsZero fm b then false
  else
    match fpNeg fm a, fpNeg fm b with
    | true, false => true
    | false, true => false
    | false, false => decide (a < b)
    | true, true => decide (b < a)

/-- FEQ: quiet. -/
def fpEq (fm : FpFmt) (a b : Nat) : FpOut :=
  if fpIsNaN fm a || fpIsNaN fm b then (0, fpNV fm [a, b]) else ((if a = b ∨ (fpIsZero fm a ∧ fpIsZero fm b) then 1 else 0), 0)

/-- FLT: signalling. -/
def fpLt (fm : FpFmt) (a b : Nat) : FpOut := if fpIsNaN fm a || fpIsNaN fm b then (0, 16) else (if fpBelow fm a b then 1 else 0, 0)

/-- FLE: signalling. -/
def fpLe (fm : FpFmt) (a b : Nat) : FpOut := if fpIsNaN fm a || fpIsNaN fm b then (0, 16) else (if fpBelow fm b a then 0 else 1, 0)

/-- FMIN and FMAX: −0 is below +0; a NaN gives way to a number. -/
def fpMinMax (fm : FpFmt) (hi : Bool) (a b : Nat) : FpOut :=
  let least := if fpIsZero fm a && fpIsZero fm b then fpNeg fm a else fpBelow fm a b
  let v := if fpIsNaN fm a && fpIsNaN fm b then fpNaN fm
    else if fpIsNaN fm a then b
    else if fpIsNaN fm b then a
    else if least != hi then a else b
  (v, fpNV fm [a, b])

/-- FSGNJ (0), FSGNJN (1) and FSGNJX (2). -/
def fpSgnj (fm : FpFmt) (k a b : Nat) : Nat :=
  let neg := match k with | 0 => fpNeg fm b | 1 => !fpNeg fm b | _ => fpNeg fm a != fpNeg fm b
  fpSign fm neg + a % 2 ^ (fm.e + fm.f)

/-- FCLASS. -/
def fpClass (fm : FpFmt) (a : Nat) : Nat :=
  if fpIsNaN fm a then (if fpIsSig fm a then 2 ^ 8 else 2 ^ 9)
  else
    let k := if fpIsInf fm a then 0 else if fpIsZero fm a then 3 else if fpExp fm a = 0 then 2 else 1
    2 ^ (if fpNeg fm a then k else 7 - k)

/-! ### Conversions -/

/-- An integer as a number of a format. -/
def fpOfInt (fm : FpFmt) (rm : Nat) (v : Int) : FpOut := fpPack fm rm false { neg := decide (v < 0), m := v.natAbs, e := 0 }

/-- A number as an integer in `[lo, hi]`: out of range, or a NaN, is invalid and limited. -/
def fpToInt (fm : FpFmt) (rm a : Nat) (lo hi : Int) : Int × Nat :=
  if fpIsNaN fm a then (hi, 16)
  else if fpIsInf fm a then (if fpNeg fm a then lo else hi, 16)
  else
    let x := fpVal fm a
    let r := fpAt rm x.neg x.m x.e 0 false
    let v : Int := if x.neg then -(r.1 : Int) else r.1
    if v < lo then (lo, 16) else if hi < v then (hi, 16) else (v, if r.2 then 1 else 0)

/-- A number of one format as a number of another. -/
def fpConv (src dst : FpFmt) (rm a : Nat) : FpOut :=
  if fpIsNaN src a then (fpNaN dst, fpNV src [a])
  else if fpIsInf src a then (fpInf dst (fpNeg src a), 0)
  else fpPack dst rm (fpNeg src a) (fpVal src a)

/-- A number as an integer of `n` bits, as a register holds it. -/
def fpToBits (fm : FpFmt) (n : Nat) (uns : Bool) (rm a : Nat) : FpOut :=
  let r := if uns then fpToInt fm rm a 0 (2 ^ n - 1) else fpToInt fm rm a (-(2 ^ (n - 1))) (2 ^ (n - 1) - 1)
  (wrapN n r.1, r.2)

/-! ### Estimates of seven bits (Zve32f) -/

/-- `256 / √(n / d)` to the nearest integer. -/
def rootEstimate (n d : Nat) : Nat := (sqrtBits (262144 * d / n) 0 12 + 1) / 2

/-- A subnormal or normal operand's exponent and 23-bit fraction, normalised: the exponent of a subnormal falls below 1. -/
def fpNorm (a : Nat) : Int × Nat :=
  if fpExp fmtS a = 0 then
    let z := 23 - Nat.log2 (fpFrac fmtS a)
    (1 - (z : Int), fpFrac fmtS a * 2 ^ z % 2 ^ 23)
  else (fpExp fmtS a, fpFrac fmtS a)

/-- vfrsqrt7: an estimate of `1 / √a`. -/
def fpRsqrt7 (a : Nat) : FpOut :=
  if fpIsNaN fmtS a then (fpNaN fmtS, fpNV fmtS [a])
  else if fpIsZero fmtS a then (fpInf fmtS (fpNeg fmtS a), 8)
  else if fpNeg fmtS a then (fpNaN fmtS, 16)
  else if fpIsInf fmtS a then (0, 0)
  else
    let x := fpNorm a
    let i := x.2 / 2 ^ 17
    let est := if x.1 % 2 = 0 then rootEstimate (129 + 2 * i) 64 else rootEstimate (129 + 2 * i) 128
    (((380 - x.1) / 2).toNat * 2 ^ 23 + (est - 128) * 2 ^ 16, 0)

/-- vfrec7: an estimate of `1 / a`. -/
def fpRec7 (rm a : Nat) : FpOut :=
  let neg := fpNeg fmtS a
  if fpIsNaN fmtS a then (fpNaN fmtS, fpNV fmtS [a])
  else if fpIsInf fmtS a then (fpSign fmtS neg, 0)
  else if fpIsZero fmtS a then (fpInf fmtS neg, 8)
  else
    let x := fpNorm a
    if x.1 < -1 then
      let inf := match rm with | 1 => false | 2 => neg | 3 => !neg | _ => true
      (if inf then fpInf fmtS neg else fpMax fmtS neg, 5)
    else
      let i := x.2 / 2 ^ 16
      let est := (65536 + (257 + 2 * i) / 2) / (257 + 2 * i) - 128
      let e := 253 - x.1
      if 0 < e then (fpSign fmtS neg + e.toNat * 2 ^ 23 + est * 2 ^ 16, 0)
      else (fpSign fmtS neg + (2 ^ 23 + est * 2 ^ 16) / 2 ^ (1 - e).toNat, 0)

end Sys2Proof.Machine
end

