-- ==== Sys2Proof/Machine/Scalar.lean ====
section
/-! DEFINITION. The scalar instructions an engine executes (R163): RV32I, M, F, C, Zicsr and Zifencei as published by RISC-V
International, over the registers of an engine and what its memory answers (R166). -/

namespace Sys2Proof.Machine

/-! ### What an instruction comes to -/

/-- R166: what an access comes to: the bytes of a permitted one, a refusal, or a translation that faults (R151). -/
inductive EngAnswer where
  | ok (b : List Byte)
  | deny
  | stop (x : MoveStop)
  deriving DecidableEq, Repr

/-- R166: an engine's memory as a task sees it, by engine address and length. -/
structure EngMem where
  read : Nat → Nat → EngAnswer
  write : Nat → Nat → EngAnswer

/-- What an instruction is executed on: the engine, its number and its memory. -/
structure Hart where
  k : Nat
  e : Engine
  mem : EngMem

/-- Why an instruction did not complete: an exception (R164), with its mtval or with the one RISC-V leaves open, or a translation
fault (R151). -/
inductive InstrStop where
  | trap (cause tval : Nat)
  | bare (cause : Nat)
  | fault (x : MoveStop)
  deriving DecidableEq, Repr

/-- The illegal-instruction exception. -/
def InstrStop.illegal : InstrStop := .bare 2

/-- What an instruction comes to: the registers, the ranges it has read, the bytes it has written in order, whether it is a vector
instruction (R184), and why it did not complete. -/
structure InstrEnd where
  regs : EngRegs
  reads : List (Nat × Nat) := []
  writes : List (Nat × List Byte) := []
  vec : Bool := false
  stop : Option InstrStop := none
  deriving DecidableEq, Repr

/-! ### Registers -/

/-- A register of the integer file; x0 reads 0. -/
def EngRegs.rx (r : EngRegs) (i : Nat) : Nat := if i = 0 then 0 else (r.x.getD i 0).toNat

/-- A write of the integer file; a write of x0 is discarded. -/
def EngRegs.wx (r : EngRegs) (i v : Nat) : EngRegs := if i = 0 then r else { r with x := r.x.set i (BitVec.ofNat 32 v) }

/-- A register of the floating-point file. -/
def EngRegs.rf (r : EngRegs) (i : Nat) : Nat := (r.f.getD i 0).toNat

/-- A write of the floating-point file. -/
def EngRegs.wf (r : EngRegs) (i v : Nat) : EngRegs := { r with f := r.f.set i (BitVec.ofNat 32 v) }

/-- Floating-point exception flags accrue in fcsr. -/
def EngRegs.flags (r : EngRegs) (fl : Nat) : EngRegs := { r with fcsr := r.fcsr ||| fl }

/-- The next instruction follows. -/
def EngRegs.go (r : EngRegs) (len : Nat) : EngRegs := { r with pc := (r.pc + len) % 2 ^ 32 }

/-- An instruction that does not complete leaves the registers as they are. -/
def Hart.stops (c : Hart) (x : InstrStop) : InstrEnd := { regs := c.e.regs, stop := some x }

/-- An instruction that only writes an integer register. -/
def Hart.gives (c : Hart) (len rd v : Nat) : InstrEnd := { regs := (c.e.regs.wx rd v).go len }

/-! ### Fields -/

def immI (w : Nat) : Int := signed 12 (bits w 20 12)
def immS (w : Nat) : Int := signed 12 (bits w 25 7 * 32 + bits w 7 5)
def immB (w : Nat) : Int := signed 13 (bits w 31 1 * 4096 + bits w 7 1 * 2048 + bits w 25 6 * 32 + bits w 8 4 * 2)
def immJ (w : Nat) : Int := signed 21 (bits w 31 1 * 2 ^ 20 + bits w 12 8 * 4096 + bits w 20 1 * 2048 + bits w 21 10 * 2)
def rdOf (w : Nat) : Nat := bits w 7 5
def rs1Of (w : Nat) : Nat := bits w 15 5
def rs2Of (w : Nat) : Nat := bits w 20 5
def f3Of (w : Nat) : Nat := bits w 12 3
def f7Of (w : Nat) : Nat := bits w 25 7

/-! ### Integer operations -/

/-- OP and OP-IMM of `n` bits by funct3; `alt` is SUB or SRA. -/
def aluOp (n f3 : Nat) (alt : Bool) (a b : Nat) : Nat :=
  match f3 with
  | 0 => if alt then wrapN n ((a : Int) - b) else wrapN n ((a : Int) + b)
  | 1 => a * 2 ^ (b % n) % 2 ^ n
  | 2 => if signed n a < signed n b then 1 else 0
  | 3 => if a < b then 1 else 0
  | 4 => a ^^^ b
  | 5 => if alt then wrapN n (signed n a / 2 ^ (b % n)) else a / 2 ^ (b % n)
  | 6 => a ||| b
  | _ => a &&& b

/-- A signed division of `w`-bit numbers, toward zero: by 0 it gives all ones, and the most negative number by −1 itself. -/
def divS (w a b : Nat) : Int :=
  if b = 0 then -1 else Int.tdiv (signed w a) (signed w b)

/-- The remainder of a signed division; by 0 it is the dividend. -/
def remS (w a b : Nat) : Int := if b = 0 then signed w a else Int.tmod (signed w a) (signed w b)

/-- The M extension of `n` bits by funct3. -/
def mulOp (n f3 a b : Nat) : Nat :=
  match f3 with
  | 0 => a * b % 2 ^ n
  | 1 => wrapN n (signed n a * signed n b / 2 ^ n)
  | 2 => wrapN n (signed n a * (b : Int) / 2 ^ n)
  | 3 => a * b / 2 ^ n
  | 4 => wrapN n (divS n a b)
  | 5 => if b = 0 then 2 ^ n - 1 else a / b
  | 6 => wrapN n (remS n a b)
  | _ => if b = 0 then a else a % b

/-- BRANCH by funct3: taken? -/
def branchTaken (n f3 a b : Nat) : Option Bool :=
  match f3 with
  | 0 => some (a == b)
  | 1 => some (a != b)
  | 4 => some (decide (signed n a < signed n b))
  | 5 => some (decide (signed n b ≤ signed n a))
  | 6 => some (decide (a < b))
  | 7 => some (decide (b ≤ a))
  | _ => none

/-! ### Loads and stores (R165, R166) -/

/-- R165, R166: a scalar read: its bytes, or why it stops. -/
def Hart.readAt (c : Hart) (a len : Nat) : InstrStop ⊕ List Byte :=
  if a % len ≠ 0 then .inl (.trap 4 a)
  else
    match c.mem.read a len with
    | .ok b => .inr b
    | .deny => .inl (.trap 5 a)
    | .stop x => .inl (.fault x)

/-- A load: bytes, as a number, into the registers. -/
def Hart.loads (c : Hart) (len a n : Nat) (put : EngRegs → Nat → EngRegs) : InstrEnd :=
  match c.readAt a n with
  | .inl x => c.stops x
  | .inr b => { regs := (put c.e.regs (leAt b 0 n)).go len, reads := [(a, n)] }

/-- R165, R166: a store of the low `n` bytes of `v`. -/
def Hart.stores (c : Hart) (len a n v : Nat) : InstrEnd :=
  if a % n ≠ 0 then c.stops (.trap 6 a)
  else
    match c.mem.write a n with
    | .ok _ => { regs := c.e.regs.go len, writes := [(a, leBytes n v)] }
    | .deny => c.stops (.trap 7 a)
    | .stop x => c.stops (.fault x)

/-! ### Control and status registers (R163, R184) -/

/-- R163: a CSR as read. -/
def Hart.csr (c : Hart) (n : Nat) : Option Nat :=
  let r := c.e.regs
  let lo (v : Nat) : Option Nat := some (v % 2 ^ 32)
  let hi (v : Nat) : Option Nat := some (v / 2 ^ 32 % 2 ^ 32)
  match n with
  | 0x001 => some (r.fcsr % 32)
  | 0x002 => some (r.fcsr / 32 % 8)
  | 0x003 => some (r.fcsr % 256)
  | 0x008 => some r.vstart
  | 0x009 => some (r.vcsr % 2)
  | 0x00A => some (r.vcsr / 2 % 4)
  | 0x00F => some (r.vcsr % 8)
  | 0x301 => some 0x40801124
  | 0xC20 => some r.vl
  | 0xC21 => some r.vtype
  | 0xC22 => some 64
  | 0xF14 => some c.k
  | 0xB00 => lo c.e.mcycle
  | 0xB02 => lo c.e.minstret
  | 0xB03 => lo c.e.vec
  | 0xB04 => lo c.e.tstall
  | 0xB05 => lo c.e.mstall
  | 0xB80 => hi c.e.mcycle
  | 0xB82 => hi c.e.minstret
  | 0xB83 => hi c.e.vec
  | 0xB84 => hi c.e.tstall
  | 0xB85 => hi c.e.mstall
  | _ => none

/-- R163: a write of a writable CSR. -/
def EngRegs.writeCsr (r : EngRegs) (n v : Nat) : Option EngRegs :=
  match n with
  | 0x001 => some { r with fcsr := r.fcsr / 32 * 32 + v % 32 }
  | 0x002 => some { r with fcsr := v % 8 * 32 + r.fcsr % 32 }
  | 0x003 => some { r with fcsr := v % 256 }
  | 0x008 => some { r with vstart := v % 512 }
  | 0x009 => some { r with vcsr := r.vcsr / 2 * 2 + v % 2 }
  | 0x00A => some { r with vcsr := v % 4 * 2 + r.vcsr % 2 }
  | 0x00F => some { r with vcsr := v % 8 }
  | _ => none

/-- Zicsr by funct3: CSRRW, CSRRS, CSRRC and their immediate forms; an access R163 does not allow is illegal. -/
def Hart.csrOp (c : Hart) (w len : Nat) : InstrEnd :=
  let f3 := f3Of w
  let n := bits w 20 12
  let src := if 4 ≤ f3 then rs1Of w else c.e.regs.rx (rs1Of w)
  match c.csr n with
  | none => c.stops .illegal
  | some old =>
    let v := match f3 % 4 with | 1 => src | 2 => old ||| src | _ => old &&& (2 ^ 32 - 1 - src)
    if f3 % 4 ≠ 1 ∧ rs1Of w = 0 then c.gives len (rdOf w) old
    else
      match c.e.regs.writeCsr n v with
      | none => c.stops .illegal
      | some r => { regs := (r.wx (rdOf w) old).go len }

/-! ### Floating point -/

/-- The rounding mode of an instruction: its own, or that of frm; the reserved ones are illegal. -/
def EngRegs.rm (r : EngRegs) (rm : Nat) : Option Nat :=
  let m := if rm = 7 then r.fcsr / 32 % 8 else rm
  if m ≤ 4 then some m else none

/-- A result goes to a floating-point register, its flags to fcsr. -/
def Hart.givesF (c : Hart) (len rd : Nat) (o : FpOut) : InstrEnd := { regs := ((c.e.regs.wf rd o.1).flags o.2).go len }

/-- A result goes to an integer register, its flags to fcsr. -/
def Hart.givesFX (c : Hart) (len rd : Nat) (o : FpOut) : InstrEnd := { regs := ((c.e.regs.wx rd o.1).flags o.2).go len }

/-- OP-FP. -/
def Hart.opFp (c : Hart) (w len : Nat) : InstrEnd :=
  let r := c.e.regs
  let f7 := f7Of w
  let f3 := f3Of w
  let rd := rdOf w
  let rs2 := rs2Of w
  let a := r.rf (rs1Of w)
  let b := r.rf rs2
  match f7 with
  | 0x10 => if f3 ≤ 2 then c.givesF len rd (fpSgnj fmtS f3 a b, 0) else c.stops .illegal
  | 0x14 => if f3 ≤ 1 then c.givesF len rd (fpMinMax fmtS (f3 == 1) a b) else c.stops .illegal
  | 0x50 =>
    match f3 with
    | 0 => c.givesFX len rd (fpLe fmtS a b)
    | 1 => c.givesFX len rd (fpLt fmtS a b)
    | 2 => c.givesFX len rd (fpEq fmtS a b)
    | _ => c.stops .illegal
  | 0x70 =>
    if rs2 ≠ 0 then c.stops .illegal
    else if f3 = 0 then c.gives len rd a
    else if f3 = 1 then c.gives len rd (fpClass fmtS a)
    else c.stops .illegal
  | 0x78 => if rs2 = 0 ∧ f3 = 0 then c.givesF len rd (r.rx (rs1Of w), 0) else c.stops .illegal
  | _ =>
    match r.rm f3 with
    | none => c.stops .illegal
    | some rm =>
      match f7 with
      | 0x60 => if rs2 ≤ 1 then c.givesFX len rd (fpToBits fmtS 32 (rs2 == 1) rm a) else c.stops .illegal
      | 0x68 =>
        let x := r.rx (rs1Of w)
        if rs2 = 0 then c.givesF len rd (fpOfInt fmtS rm (signed 32 x))
        else if rs2 = 1 then c.givesF len rd (fpOfInt fmtS rm x)
        else c.stops .illegal
      | _ =>
        match (if f7 % 4 = 0 then fpArith fmtS (f7 / 4) rs2 rm a b else none) with
        | some o => c.givesF len rd o
        | none => c.stops .illegal

/-- The fused multiply-adds. -/
def Hart.fused (c : Hart) (w len : Nat) : InstrEnd :=
  let r := c.e.regs
  match r.rm (f3Of w) with
  | none => c.stops .illegal
  | some rm =>
    if bits w 25 2 ≠ 0 then c.stops .illegal
    else c.givesF len (rdOf w) (fpFused fmtS (bits w 0 7) rm (r.rf (rs1Of w)) (r.rf (rs2Of w)) (r.rf (bits w 27 5)))

/-! ### The base opcodes -/

/-- LOAD. -/
def Hart.loadOp (c : Hart) (w len : Nat) : InstrEnd :=
  let a := wrap32 ((c.e.regs.rx (rs1Of w) : Int) + immI w)
  let rd := rdOf w
  match f3Of w with
  | 0 => c.loads len a 1 (fun r v => r.wx rd (wrap32 (signed 8 v)))
  | 1 => c.loads len a 2 (fun r v => r.wx rd (wrap32 (signed 16 v)))
  | 2 => c.loads len a 4 (fun r v => r.wx rd v)
  | 4 => c.loads len a 1 (fun r v => r.wx rd v)
  | 5 => c.loads len a 2 (fun r v => r.wx rd v)
  | _ => c.stops .illegal

/-- STORE. -/
def Hart.storeOp (c : Hart) (w len : Nat) : InstrEnd :=
  let a := wrap32 ((c.e.regs.rx (rs1Of w) : Int) + immS w)
  if f3Of w ≤ 2 then c.stores len a (2 ^ f3Of w) (c.e.regs.rx (rs2Of w)) else c.stops .illegal

/-- OP-IMM. -/
def Hart.opImm (c : Hart) (w len : Nat) : InstrEnd :=
  let f3 := f3Of w
  let a := c.e.regs.rx (rs1Of w)
  if f3 = 1 ∨ f3 = 5 then
    if f7Of w = 0 ∨ (f7Of w = 0x20 ∧ f3 = 5) then c.gives len (rdOf w) (aluOp 32 f3 (f7Of w == 0x20) a (rs2Of w)) else c.stops .illegal
  else c.gives len (rdOf w) (aluOp 32 f3 false a (wrap32 (immI w)))

/-- OP. -/
def Hart.op (c : Hart) (w len : Nat) : InstrEnd :=
  let f3 := f3Of w
  let a := c.e.regs.rx (rs1Of w)
  let b := c.e.regs.rx (rs2Of w)
  match f7Of w with
  | 0x00 => c.gives len (rdOf w) (aluOp 32 f3 false a b)
  | 0x01 => c.gives len (rdOf w) (mulOp 32 f3 a b)
  | 0x20 => if f3 = 0 ∨ f3 = 5 then c.gives len (rdOf w) (aluOp 32 f3 true a b) else c.stops .illegal
  | _ => c.stops .illegal

/-- A jump to an address, linked in rd. -/
def Hart.jump (c : Hart) (len rd dst : Nat) : InstrEnd :=
  { regs := { (c.e.regs.wx rd ((c.e.regs.pc + len) % 2 ^ 32)) with pc := dst } }

/-- A scalar instruction of 32 bits; `len` is 2 where it stands for a compressed one. ECALL and the custom opcodes are the caller's.
(PRESUMED, log entry 143) -/
def Hart.scalar (c : Hart) (w len : Nat) : InstrEnd :=
  let r := c.e.regs
  match bits w 0 7 with
  | 0x37 => c.gives len (rdOf w) (w / 4096 * 4096)
  | 0x17 => c.gives len (rdOf w) ((r.pc + w / 4096 * 4096) % 2 ^ 32)
  | 0x6F => c.jump len (rdOf w) (wrap32 ((r.pc : Int) + immJ w))
  | 0x67 => if f3Of w = 0 then c.jump len (rdOf w) (wrap32 ((r.rx (rs1Of w) : Int) + immI w) / 2 * 2) else c.stops .illegal
  | 0x63 =>
    match branchTaken 32 (f3Of w) (r.rx (rs1Of w)) (r.rx (rs2Of w)) with
    | none => c.stops .illegal
    | some true => { regs := { r with pc := wrap32 ((r.pc : Int) + immB w) } }
    | some false => { regs := r.go len }
  | 0x03 => c.loadOp w len
  | 0x23 => c.storeOp w len
  | 0x13 => c.opImm w len
  | 0x33 => c.op w len
  | 0x0F => if f3Of w ≤ 1 then { regs := r.go len } else c.stops .illegal
  | 0x73 =>
    if f3Of w = 0 then (if w = 0x00100073 then c.stops (.bare 3) else c.stops .illegal)
    else if f3Of w = 4 then c.stops .illegal
    else c.csrOp w len
  | 0x07 => c.loads len (wrap32 ((r.rx (rs1Of w) : Int) + immI w)) 4 (fun r v => r.wf (rdOf w) v)
  | 0x27 => c.stores len (wrap32 ((r.rx (rs1Of w) : Int) + immS w)) 4 (r.rf (rs2Of w))
  | 0x43 => c.fused w len
  | 0x47 => c.fused w len
  | 0x4B => c.fused w len
  | 0x4F => c.fused w len
  | 0x53 => c.opFp w len
  | _ => c.stops .illegal

/-! ### Compressed instructions -/

/-- An I-type word. -/
def mkI (op f3 rd rs1 : Nat) (imm : Int) : Nat :=
  (imm % 4096).toNat * 2 ^ 20 + rs1 * 2 ^ 15 + f3 * 2 ^ 12 + rd * 2 ^ 7 + op

/-- An S-type word. -/
def mkS (op f3 rs1 rs2 imm : Nat) : Nat :=
  imm / 32 * 2 ^ 25 + rs2 * 2 ^ 20 + rs1 * 2 ^ 15 + f3 * 2 ^ 12 + imm % 32 * 2 ^ 7 + op

/-- An R-type word of OP. -/
def mkR (f7 f3 rd rs1 rs2 : Nat) : Nat := f7 * 2 ^ 25 + rs2 * 2 ^ 20 + rs1 * 2 ^ 15 + f3 * 2 ^ 12 + rd * 2 ^ 7 + 0x33

/-- A BRANCH word. -/
def mkB (f3 rs1 : Nat) (imm : Int) : Nat :=
  let n := (imm % 8192).toNat
  bits n 12 1 * 2 ^ 31 + bits n 5 6 * 2 ^ 25 + rs1 * 2 ^ 15 + f3 * 2 ^ 12 + bits n 1 4 * 2 ^ 8 + bits n 11 1 * 2 ^ 7 + 0x63

/-- A JAL word. -/
def mkJ (rd : Nat) (imm : Int) : Nat :=
  let n := (imm % 2 ^ 21).toNat
  bits n 20 1 * 2 ^ 31 + bits n 1 10 * 2 ^ 21 + bits n 11 1 * 2 ^ 20 + bits n 12 8 * 2 ^ 12 + rd * 2 ^ 7 + 0x6F

/-- The six-bit immediate of a compressed instruction. -/
def cImm6 (h : Nat) : Int := signed 6 (bits h 12 1 * 32 + bits h 2 5)

/-- The offset of C.J and C.JAL. -/
def cImmJ (h : Nat) : Int :=
  signed 12 (bits h 12 1 * 2048 + bits h 8 1 * 1024 + bits h 9 2 * 256 + bits h 6 1 * 128 + bits h 7 1 * 64 + bits h 2 1 * 32 +
    bits h 11 1 * 16 + bits h 3 3 * 2)

/-- The offset of C.BEQZ and C.BNEZ. -/
def cImmB (h : Nat) : Int :=
  signed 9 (bits h 12 1 * 256 + bits h 5 2 * 64 + bits h 2 1 * 32 + bits h 10 2 * 8 + bits h 3 2 * 2)

/-- The instructions of quadrant 0. -/
def expand0 (h : Nat) : Option Nat :=
  let rs1 := 8 + bits h 7 3
  let rd := 8 + bits h 2 3
  let off := bits h 5 1 * 64 + bits h 10 3 * 8 + bits h 6 1 * 4
  match bits h 13 3 with
  | 0 =>
    let imm := bits h 7 4 * 64 + bits h 11 2 * 16 + bits h 5 1 * 8 + bits h 6 1 * 4
    if imm = 0 then none else some (mkI 0x13 0 rd 2 imm)
  | 2 => some (mkI 0x03 2 rd rs1 off)
  | 3 => some (mkI 0x07 2 rd rs1 off)
  | 6 => some (mkS 0x23 2 rs1 rd off)
  | 7 => some (mkS 0x27 2 rs1 rd off)
  | _ => none

/-- The arithmetic of quadrant 1, funct3 4. -/
def expandAlu (h : Nat) : Option Nat :=
  let rd := 8 + bits h 7 3
  let rs2 := 8 + bits h 2 3
  match bits h 10 2 with
  | 0 => if bits h 12 1 = 0 then some (mkI 0x13 5 rd rd (bits h 2 5)) else none
  | 1 => if bits h 12 1 = 0 then some (mkI 0x13 5 rd rd (0x400 + bits h 2 5)) else none
  | 2 => some (mkI 0x13 7 rd rd (cImm6 h))
  | _ =>
    if bits h 12 1 = 1 then none
    else
      match bits h 5 2 with
      | 0 => some (mkR 0x20 0 rd rd rs2)
      | 1 => some (mkR 0 4 rd rd rs2)
      | 2 => some (mkR 0 6 rd rd rs2)
      | _ => some (mkR 0 7 rd rd rs2)

/-- The instructions of quadrant 1. -/
def expand1 (h : Nat) : Option Nat :=
  let rd := bits h 7 5
  match bits h 13 3 with
  | 0 => some (mkI 0x13 0 rd rd (cImm6 h))
  | 1 => some (mkJ 1 (cImmJ h))
  | 2 => some (mkI 0x13 0 rd 0 (cImm6 h))
  | 3 =>
    if rd = 2 then
      let imm := signed 10 (bits h 12 1 * 512 + bits h 3 2 * 128 + bits h 5 1 * 64 + bits h 2 1 * 32 + bits h 6 1 * 16)
      if imm = 0 then none else some (mkI 0x13 0 2 2 imm)
    else if cImm6 h = 0 then none
    else some (wrap32 (cImm6 h * 4096) + rd * 2 ^ 7 + 0x37)
  | 4 => expandAlu h
  | 5 => some (mkJ 0 (cImmJ h))
  | 6 => some (mkB 0 (8 + bits h 7 3) (cImmB h))
  | _ => some (mkB 1 (8 + bits h 7 3) (cImmB h))

/-- The instructions of quadrant 2. -/
def expand2 (h : Nat) : Option Nat :=
  let rd := bits h 7 5
  let rs2 := bits h 2 5
  let ld := bits h 2 2 * 64 + bits h 12 1 * 32 + bits h 4 3 * 4
  let st := bits h 7 2 * 64 + bits h 9 4 * 4
  match bits h 13 3 with
  | 0 => if bits h 12 1 = 0 then some (mkI 0x13 1 rd rd rs2) else none
  | 2 => if rd = 0 then none else some (mkI 0x03 2 rd 2 ld)
  | 3 => some (mkI 0x07 2 rd 2 ld)
  | 4 =>
    if bits h 12 1 = 0 then
      (if rs2 ≠ 0 then some (mkR 0 0 rd 0 rs2) else if rd = 0 then none else some (mkI 0x67 0 0 rd 0))
    else if rs2 ≠ 0 then some (mkR 0 0 rd rd rs2)
    else if rd = 0 then some 0x00100073
    else some (mkI 0x67 0 1 rd 0)
  | 6 => some (mkS 0x23 2 2 rs2 st)
  | 7 => some (mkS 0x27 2 2 rs2 st)
  | _ => none

/-- The 32-bit instruction a compressed one stands for. -/
def expandC (h : Nat) : Option Nat :=
  match h % 4 with
  | 0 => expand0 h
  | 1 => expand1 h
  | _ => expand2 h

end Sys2Proof.Machine
end

