-- ==== Sys2Proof/Machine/VectorUnit.lean ====
section
/-! DEFINITION. The vector instructions an engine executes (R163): the Zve32f subset with VLEN 512 and ELEN 32, as published by RISC-V
International. Encodings that extension reserves raise the illegal-instruction exception. -/

namespace Sys2Proof.Machine

/-! ### Vector registers and types -/

/-- Element `i` of width `sew` of the register group at `reg`. -/
def vget (v : List (BitVec 512)) (sew reg i : Nat) : Nat :=
  (v.getD (reg + i * sew / 512) 0).toNat / 2 ^ (i * sew % 512) % 2 ^ sew

/-- That element written. -/
def vset (v : List (BitVec 512)) (sew reg i val : Nat) : List (BitVec 512) :=
  let k := reg + i * sew / 512
  let o := i * sew % 512
  let mask : BitVec 512 := BitVec.ofNat 512 (2 ^ sew - 1) <<< o
  v.set k ((v.getD k 0 &&& ~~~mask) ||| (BitVec.ofNat 512 (val % 2 ^ sew) <<< o))

/-- R163: vtype: the element width, LMUL in eighths, and the tail and mask policies. -/
structure VType where
  sew : Nat
  lmul8 : Nat
  vta : Bool
  vma : Bool
  deriving DecidableEq, Repr

/-- R163: a vtype value as the instructions see it; `none` where it is not supported. -/
def vtypeOf (n : Nat) : Option VType :=
  let lmul8 := match n % 8 with | 0 => 8 | 1 => 16 | 2 => 32 | 3 => 64 | 6 => 2 | 7 => 4 | _ => 0
  let sew := 8 * 2 ^ bits n 3 3
  if 256 ≤ n ∨ lmul8 = 0 ∨ 32 < sew ∨ (lmul8 < 8 ∧ 4 * lmul8 < sew) then none
  else some { sew := sew, lmul8 := lmul8, vta := bits n 6 1 == 1, vma := bits n 7 1 == 1 }

/-- VLMAX. -/
def VType.vlmax (t : VType) : Nat := 64 * t.lmul8 / t.sew

/-- The type with every element twice as wide. -/
def VType.wide (t : VType) : VType := { t with sew := 2 * t.sew, lmul8 := 2 * t.lmul8 }

/-- A register group as an operand: its first register, its element width and EMUL in eighths. -/
structure VGroup where
  reg : Nat
  eew : Nat
  emul8 : Nat
  deriving DecidableEq, Repr

/-- The registers of a group. -/
def VGroup.n (o : VGroup) : Nat := max 1 (o.emul8 / 8)

/-- Is a group within the file, aligned, and of a width there is? -/
def VGroup.ok (o : VGroup) : Bool := decide (1 ≤ o.emul8) && decide (o.emul8 ≤ 64) && o.reg % o.n == 0 && decide (o.eew ≤ 32)

/-- Have two groups no register in common? -/
def VGroup.apart (a b : VGroup) : Bool := decide (a.reg + a.n ≤ b.reg) || decide (b.reg + b.n ≤ a.reg)

/-- May a destination overlap a source so? -/
def VGroup.mayOverlap (d s : VGroup) : Bool :=
  d.apart s || d.eew == s.eew || (decide (d.eew < s.eew) && d.reg == s.reg) ||
    (decide (s.eew < d.eew) && decide (8 ≤ s.emul8) && s.reg + s.n == d.reg + d.n)

/-- A group of the current type. -/
def VType.at_ (t : VType) (reg : Nat) : VGroup := { reg := reg, eew := t.sew, emul8 := t.lmul8 }

/-- A register that holds a mask, or a scalar element. -/
def maskReg (reg : Nat) : VGroup := { reg := reg, eew := 1, emul8 := 8 }

/-- The mask an instruction reads, when its vm bit is clear. -/
def maskOf (vm : Bool) : List VGroup := if vm then [] else [maskReg 0]

/-- No register is read with two element widths. -/
def oneWidth : List VGroup → Bool
  | [] => true
  | a :: l => l.all (fun b => a.eew == b.eew || a.apart b) && oneWidth l

/-- Are the operands of an instruction with a vector destination as the extension allows? -/
def vOk (d : VGroup) (src : List VGroup) (vm : Bool) : Bool :=
  d.ok && src.all (fun s => s.ok && d.mayOverlap s) && oneWidth (src ++ maskOf vm) && (vm || d.eew == 1 || d.reg != 0)

/-! ### Element loops -/

/-- Is element `i` active? -/
def EngRegs.active (r : EngRegs) (vm : Bool) (i : Nat) : Bool := vm || vget r.v 1 0 i == 1

/-- What an agnostic element takes: the old value, or all ones. -/
def Hart.agnostic (h : Hart) (v : List (BitVec 512)) (eew reg i : Nat) : List (BitVec 512) :=
  if Config.agnosticOnes h.e.minstret i then vset v eew reg i (2 ^ eew - 1) else v

/-- The tail and mask policies applied to a destination of `n` registers. -/
def Hart.vPolicy (h : Hart) (t : VType) (eew n reg : Nat) (vm : Bool) (v : List (BitVec 512)) : List (BitVec 512) :=
  let r := h.e.regs
  (List.range (512 / eew * n)).foldl (fun v i =>
    if i < r.vstart then v
    else if i < r.vl then (if !r.active vm i && t.vma then h.agnostic v eew reg i else v)
    else if t.vta then h.agnostic v eew reg i
    else v) v

/-- The active body elements of a destination take values, and flags accrue. -/
def Hart.vBody (h : Hart) (eew reg : Nat) (vm : Bool) (f : Nat → FpOut) : List (BitVec 512) × Nat :=
  let r := h.e.regs
  (List.range r.vl).foldl (fun a i =>
    if i < r.vstart ∨ !r.active vm i then a else (vset a.1 eew reg i (f i).1, a.2 ||| (f i).2)) (r.v, 0)

/-- A vector instruction completes: flags 1 to 16 to fflags, 32 to vxsat. -/
def Hart.vDone (h : Hart) (v : List (BitVec 512)) (fl : Nat) : InstrEnd :=
  let r := h.e.regs
  { regs := ({ r with v := v, vstart := 0, vcsr := r.vcsr ||| fl / 32, fcsr := r.fcsr ||| fl % 32 } : EngRegs).go 4, vec := true }

/-- A vector instruction that leaves the vector registers as they are, with the other registers it writes. -/
def Hart.vKeep (_h : Hart) (r : EngRegs) : InstrEnd := { regs := ({ r with vstart := 0 } : EngRegs).go 4, vec := true }

/-- An element-wise instruction: `f` gives each active element of the destination. -/
def Hart.vMap (h : Hart) (t : VType) (d : VGroup) (vm : Bool) (f : Nat → FpOut) : InstrEnd :=
  if h.e.regs.vl ≤ h.e.regs.vstart then h.vKeep h.e.regs
  else
    let b := h.vBody d.eew d.reg vm f
    h.vDone (h.vPolicy t d.eew d.n d.reg vm b.1) b.2

/-- An element-wise instruction that writes a mask, whose tail is always agnostic. -/
def Hart.vMask (h : Hart) (t : VType) (vd : Nat) (vm : Bool) (f : Nat → Bool × Nat) : InstrEnd :=
  h.vMap { t with vta := true } (maskReg vd) vm (fun i => (if (f i).1 then 1 else 0, (f i).2))

/-- An instruction that writes element 0 of a register, the rest of which is tail. -/
def Hart.vScalar (h : Hart) (t : VType) (eew vd val fl : Nat) : InstrEnd :=
  if h.e.regs.vl ≤ h.e.regs.vstart then h.vKeep h.e.regs
  else
    let v := vset h.e.regs.v eew vd 0 val
    let v := if t.vta then (List.range (512 / eew - 1)).foldl (fun v i => h.agnostic v eew vd (i + 1)) v else v
    h.vDone v fl

/-! ### Fixed point and integer elements -/

/-- A signed number as an element of `sew` bits. -/
def wrapTo (sew : Nat) (v : Int) : Nat := (v % 2 ^ sew).toNat

/-- vxrm: `v / 2^d` rounded: 0 to nearest up, 1 to nearest even, 2 down, 3 to odd. -/
def vRound (xrm : Nat) (v : Int) (d : Nat) : Int :=
  let q := v / 2 ^ d
  let m := (v % 2 ^ d).toNat
  let up := match xrm with
    | 0 => m != 0 && decide (2 ^ d ≤ 2 * m)
    | 1 => decide (2 ^ d < 2 * m) || (m != 0 && 2 * m == 2 ^ d && q % 2 == 1)
    | 2 => false
    | _ => m != 0 && q % 2 == 0
  if up then q + 1 else q

/-- A value limited to an element of `sew` bits, unsigned or signed; 32 is the saturation flag. -/
def vSat (sew : Nat) (sgn : Bool) (v : Int) : FpOut :=
  let lo : Int := if sgn then -(2 ^ (sew - 1)) else 0
  let hi : Int := if sgn then 2 ^ (sew - 1) - 1 else 2 ^ sew - 1
  if v < lo then (wrapTo sew lo, 32) else if hi < v then (wrapTo sew hi, 32) else (wrapTo sew v, 0)

/-- The forms of an instruction's second operand: a vector, a scalar register, or an immediate. -/
inductive VForm where
  | v | x | i
  deriving DecidableEq, Repr

/-- Element-wise OPIV results by funct6; `a` is of vs2, `b` of the other operand. -/
def opiElem (sew xrm f6 : Nat) (form : VForm) (a b : Nat) : Option FpOut :=
  let sa := signed sew a
  let sb := signed sew b
  let ok (v : Int) : Option FpOut := some (wrapTo sew v, 0)
  let sh := b % sew
  match f6 with
  | 0x00 => ok ((a : Int) + b)
  | 0x02 => if form = .i then none else ok ((a : Int) - b)
  | 0x03 => if form = .v then none else ok ((b : Int) - a)
  | 0x04 => if form = .i then none else ok (min a b : Nat)
  | 0x05 => if form = .i then none else ok (min sa sb)
  | 0x06 => if form = .i then none else ok (max a b : Nat)
  | 0x07 => if form = .i then none else ok (max sa sb)
  | 0x09 => ok (a &&& b : Nat)
  | 0x0A => ok (a ||| b : Nat)
  | 0x0B => ok (a ^^^ b : Nat)
  | 0x20 => some (vSat sew false ((a : Int) + b))
  | 0x21 => some (vSat sew true (sa + sb))
  | 0x22 => if form = .i then none else some (vSat sew false ((a : Int) - b))
  | 0x23 => if form = .i then none else some (vSat sew true (sa - sb))
  | 0x25 => ok ((a : Int) * 2 ^ sh)
  | 0x27 => if form = .i then none else some (vSat sew true (vRound xrm (sa * sb) (sew - 1)))
  | 0x28 => ok ((a : Int) / 2 ^ sh)
  | 0x29 => ok (sa / 2 ^ sh)
  | 0x2A => ok (vRound xrm a sh)
  | 0x2B => ok (vRound xrm sa sh)
  | _ => none

/-- Narrowing OPIV results: `a` has twice the width. -/
def narrowElem (sew xrm f6 a b : Nat) : FpOut :=
  let sh := b % (2 * sew)
  match f6 with
  | 0x2C => (a / 2 ^ sh % 2 ^ sew, 0)
  | 0x2D => (wrapTo sew (signed (2 * sew) a / 2 ^ sh), 0)
  | 0x2E => vSat sew false (vRound xrm a sh)
  | _ => vSat sew true (vRound xrm (signed (2 * sew) a) sh)

/-- Integer comparisons of OPIV. -/
def compareElem (sew f6 : Nat) (form : VForm) (a b : Nat) : Option Bool :=
  let sa := signed sew a
  let sb := signed sew b
  match f6 with
  | 0x18 => some (a == b)
  | 0x19 => some (a != b)
  | 0x1A => if form = .i then none else some (decide (a < b))
  | 0x1B => if form = .i then none else some (decide (sa < sb))
  | 0x1C => some (decide (a ≤ b))
  | 0x1D => some (decide (sa ≤ sb))
  | 0x1E => if form = .v then none else some (decide (b < a))
  | 0x1F => if form = .v then none else some (decide (sb < sa))
  | _ => none

/-- Element-wise OPMV results by funct6; `d` is of the destination. -/
def opmElem (sew xrm f6 d a b : Nat) : Option FpOut :=
  let sa := signed sew a
  let sb := signed sew b
  let ok (v : Int) : Option FpOut := some (wrapTo sew v, 0)
  match f6 with
  | 0x08 => ok (vRound xrm ((a : Int) + b) 1)
  | 0x09 => ok (vRound xrm (sa + sb) 1)
  | 0x0A => ok (vRound xrm ((a : Int) - b) 1)
  | 0x0B => ok (vRound xrm (sa - sb) 1)
  | 0x20 => ok (if b = 0 then -1 else (a / b : Nat))
  | 0x21 => ok (divS sew a b)
  | 0x22 => ok (if b = 0 then a else (a % b : Nat))
  | 0x23 => ok (remS sew a b)
  | 0x24 => ok ((a : Int) * b / 2 ^ sew)
  | 0x25 => ok ((a : Int) * b)
  | 0x26 => ok (sa * b / 2 ^ sew)
  | 0x27 => ok (sa * sb / 2 ^ sew)
  | 0x29 => ok ((d : Int) * b + a)
  | 0x2B => ok ((a : Int) - d * b)
  | 0x2D => ok ((d : Int) + a * b)
  | 0x2F => ok ((d : Int) - a * b)
  | _ => none

/-- Widening OPMV results: `a` of vs2 (already wide for the .w forms), `b` of the other operand, `d` of the destination. -/
def widenElem (sew f6 : Nat) (form : VForm) (d a b : Nat) : Option FpOut :=
  let sa := signed sew a
  let sb := signed sew b
  let ok (v : Int) : Option FpOut := some (wrapTo (2 * sew) v, 0)
  match f6 with
  | 0x30 => ok ((a : Int) + b)
  | 0x31 => ok (sa + sb)
  | 0x32 => ok ((a : Int) - b)
  | 0x33 => ok (sa - sb)
  | 0x34 => ok ((a : Int) + b)
  | 0x35 => ok ((a : Int) + sb)
  | 0x36 => ok ((a : Int) - b)
  | 0x37 => ok ((a : Int) - sb)
  | 0x38 => ok ((a : Int) * b)
  | 0x3A => ok (sa * b)
  | 0x3B => ok (sa * sb)
  | 0x3C => ok ((d : Int) + a * b)
  | 0x3D => ok ((d : Int) + sa * sb)
  | 0x3E => if form = .x then ok ((d : Int) + sa * b) else none
  | 0x3F => ok ((d : Int) + a * sb)
  | _ => none

/-- Integer reductions by funct6. -/
def reduceInt (sew f6 a b : Nat) : Nat :=
  match f6 with
  | 0 => wrapTo sew ((a : Int) + b)
  | 1 => a &&& b
  | 2 => a ||| b
  | 3 => a ^^^ b
  | 4 => min a b
  | 5 => if signed sew b < signed sew a then b else a
  | 6 => max a b
  | _ => if signed sew a < signed sew b then b else a

/-! ### Fields and operands -/

/-- vm, and the register fields. -/
def vmOf (w : Nat) : Bool := bits w 25 1 == 1

/-- The second operand of an instruction: element `i` of vs1, or rs1, or the immediate, as an element of `sew` bits. -/
def Hart.vOther (h : Hart) (w sew : Nat) (form : VForm) (uimm : Bool) (i : Nat) : Nat :=
  match form with
  | .v => vget h.e.regs.v sew (rs1Of w) i
  | .x => h.e.regs.rx (rs1Of w) % 2 ^ sew
  | .i => if uimm then rs1Of w else wrapTo sew (signed 5 (rs1Of w))

/-- The groups that the operands of an element-wise instruction name, the vector form reading vs1. -/
def VType.sources (t : VType) (w : Nat) (form : VForm) : List VGroup :=
  if form = .v then [t.at_ (rs2Of w), t.at_ (rs1Of w)] else [t.at_ (rs2Of w)]

/-- An element-wise instruction whose operands are checked. -/
def Hart.vMapOk (h : Hart) (t : VType) (d : VGroup) (src : List VGroup) (vm : Bool) (f : Nat → FpOut) : InstrEnd :=
  if vOk d src vm then h.vMap t d vm f else h.stops .illegal

/-- A mask-writing instruction whose operands are checked. -/
def Hart.vMaskOk (h : Hart) (t : VType) (vd : Nat) (src : List VGroup) (vm : Bool) (f : Nat → Bool × Nat) : InstrEnd :=
  if vOk (maskReg vd) src vm then h.vMask t vd vm f else h.stops .illegal

/-- A reduction: element 0 of vs1 and the active elements of vs2. -/
def Hart.vReduce (h : Hart) (t : VType) (w eew : Nat) (f : Nat → List Nat → FpOut) : InstrEnd :=
  let r := h.e.regs
  if r.vstart ≠ 0 ∨ !(t.at_ (rs2Of w)).ok ∨ 32 < eew then h.stops .illegal
  else
    let l := ((List.range r.vl).filter (r.active (vmOf w))).map (fun i => vget r.v t.sew (rs2Of w) i)
    let o := f (vget r.v eew (rs1Of w) 0) l
    h.vScalar t eew (rdOf w) o.1 o.2

/-! ### OPIVV, OPIVX and OPIVI -/

/-- vadc, vsbc and their mask-producing forms. -/
def Hart.vCarry (h : Hart) (t : VType) (w f6 : Nat) (form : VForm) : InstrEnd :=
  let r := h.e.regs
  let vm := vmOf w
  let sub := f6 == 0x12 || f6 == 0x13
  let a (i : Nat) : Nat := vget r.v t.sew (rs2Of w) i
  let b (i : Nat) : Nat := h.vOther w t.sew form false i
  let cy (i : Nat) : Nat := if vm then 0 else vget r.v 1 0 i
  let src := t.sources w form ++ maskOf vm
  if sub ∧ form = .i then h.stops .illegal
  else if f6 % 2 = 0 then
    if vm ∨ rdOf w = 0 ∨ !oneWidth src then h.stops .illegal
    else h.vMapOk t (t.at_ (rdOf w)) (t.sources w form) true (fun i =>
      (wrapTo t.sew (if sub then (a i : Int) - b i - cy i else (a i : Int) + b i + cy i), 0))
  else if !oneWidth src then h.stops .illegal
  else h.vMaskOk t (rdOf w) (t.sources w form) true (fun i =>
    (if sub then decide (a i < b i + cy i) else decide (2 ^ t.sew ≤ a i + b i + cy i), 0))

/-- vmerge and vmv.v. -/
def Hart.vMerge (h : Hart) (t : VType) (w : Nat) (other : Nat → Nat) (src : List VGroup) : InstrEnd :=
  let r := h.e.regs
  let vm := vmOf w
  if vm then
    if rs2Of w ≠ 0 then h.stops .illegal else h.vMapOk t (t.at_ (rdOf w)) src true (fun i => (other i, 0))
  else if rdOf w = 0 ∨ !oneWidth (t.at_ (rs2Of w) :: src ++ maskOf vm) then h.stops .illegal
  else h.vMapOk t (t.at_ (rdOf w)) (t.at_ (rs2Of w) :: src) true (fun i =>
    (if r.active vm i then other i else vget r.v t.sew (rs2Of w) i, 0))

/-- The offset of a slide or an index of a gather from a scalar operand. -/
def Hart.vOffset (h : Hart) (w : Nat) (form : VForm) : Nat := if form = .x then h.e.regs.rx (rs1Of w) else rs1Of w

/-- vslideup and vslidedown. -/
def Hart.vSlide (h : Hart) (t : VType) (w : Nat) (form : VForm) (up : Bool) : InstrEnd :=
  let r := h.e.regs
  let d := t.at_ (rdOf w)
  let s := t.at_ (rs2Of w)
  let off := h.vOffset w form
  if form = .v ∨ (up ∧ !d.apart s) then h.stops .illegal
  else h.vMapOk t d [s] (vmOf w) (fun i =>
    (if up then (if i < off then vget r.v t.sew d.reg i else vget r.v t.sew s.reg (i - off))
     else if i + off < t.vlmax then vget r.v t.sew s.reg (i + off) else 0, 0))

/-- vrgather, with indices of width `eew` in the vector form. -/
def Hart.vGather (h : Hart) (t : VType) (w : Nat) (form : VForm) (eew : Nat) : InstrEnd :=
  let r := h.e.regs
  let d := t.at_ (rdOf w)
  let s := t.at_ (rs2Of w)
  let ix : VGroup := { reg := rs1Of w, eew := eew, emul8 := eew * t.lmul8 / t.sew }
  let src := if form = .v then [s, ix] else [s]
  if !src.all (fun g => d.apart g) then h.stops .illegal
  else h.vMapOk t d src (vmOf w) (fun i =>
    let k := if form = .v then vget r.v eew ix.reg i else h.vOffset w form
    (if k < t.vlmax then vget r.v t.sew s.reg k else 0, 0))

/-- vmv1r.v, vmv2r.v, vmv4r.v and vmv8r.v. -/
def Hart.vWholeMove (h : Hart) (t : VType) (w : Nat) : InstrEnd :=
  let r := h.e.regs
  let n := rs1Of w + 1
  if !vmOf w || !(n == 1 || n == 2 || n == 4 || n == 8) || rdOf w % n != 0 || rs2Of w % n != 0 then h.stops .illegal
  else
    h.vDone ((List.range (n * 512 / t.sew)).foldl (fun v i =>
      if i < r.vstart then v else vset v t.sew (rdOf w) i (vget r.v t.sew (rs2Of w) i)) r.v) 0

/-- OPIVV, OPIVX and OPIVI. -/
def Hart.opi (h : Hart) (t : VType) (w : Nat) (form : VForm) : InstrEnd :=
  let r := h.e.regs
  let f6 := bits w 26 6
  let vm := vmOf w
  let a (i : Nat) : Nat := vget r.v t.sew (rs2Of w) i
  let b (i : Nat) : Nat := h.vOther w t.sew form (decide (0x25 ≤ f6)) i
  let xrm := r.vcsr / 2 % 4
  if 0x10 ≤ f6 ∧ f6 ≤ 0x13 then h.vCarry t w f6 form
  else if f6 = 0x17 then
    h.vMerge t w (fun i => h.vOther w t.sew form false i) (if form = .v then [t.at_ (rs1Of w)] else [])
  else if 0x18 ≤ f6 ∧ f6 ≤ 0x1F then
    if (compareElem t.sew f6 form 0 0).isNone then h.stops .illegal
    else h.vMaskOk t (rdOf w) (t.sources w form) vm (fun i => ((compareElem t.sew f6 form (a i) (b i)).getD false, 0))
  else if 0x2C ≤ f6 ∧ f6 ≤ 0x2F then
    let s : VGroup := t.wide.at_ (rs2Of w)
    h.vMapOk t (t.at_ (rdOf w)) (if form = .v then [s, t.at_ (rs1Of w)] else [s]) vm (fun i =>
      narrowElem t.sew xrm f6 (vget r.v (2 * t.sew) (rs2Of w) i) (b i))
  else if f6 = 0x0C then h.vGather t w form t.sew
  else if f6 = 0x0E then (if form = .v then h.vGather t w form 16 else h.vSlide t w form true)
  else if f6 = 0x0F then h.vSlide t w form false
  else if f6 = 0x27 ∧ form = .i then h.vWholeMove t w
  else if (f6 = 0x30 ∨ f6 = 0x31) ∧ form = .v then
    h.vReduce t w (2 * t.sew) (fun x l => (l.foldl (fun x y =>
      wrapTo (2 * t.sew) ((x : Int) + (if f6 = 0x31 then signed t.sew y else y))) x, 0))
  else if (opiElem t.sew xrm f6 form 0 0).isNone then h.stops .illegal
  else h.vMapOk t (t.at_ (rdOf w)) (t.sources w form) vm (fun i => (opiElem t.sew xrm f6 form (a i) (b i)).getD (0, 0))

/-! ### OPMVV and OPMVX -/

/-- vzext and vsext. -/
def Hart.vExtend (h : Hart) (t : VType) (w : Nat) : InstrEnd :=
  let r := h.e.regs
  let k := rs1Of w
  let div := match k / 2 with | 2 => 4 | 3 => 2 | _ => 0
  if div = 0 ∨ t.sew < 8 * div ∨ 7 < k then h.stops .illegal
  else
    let s : VGroup := { reg := rs2Of w, eew := t.sew / div, emul8 := t.lmul8 / div }
    h.vMapOk t (t.at_ (rdOf w)) [s] (vmOf w) (fun i =>
      let x := vget r.v s.eew s.reg i
      (if k % 2 = 1 then wrapTo t.sew (signed s.eew x) else x, 0))

/-- vcpop and vfirst: an integer register takes the count of active set bits of vs2, or the first of them. -/
def Hart.vCount (h : Hart) (w : Nat) (first : Bool) : InstrEnd :=
  let r := h.e.regs
  if r.vstart ≠ 0 then h.stops .illegal
  else
    let l := (List.range r.vl).filter (fun i => r.active (vmOf w) i && vget r.v 1 (rs2Of w) i == 1)
    h.vKeep (r.wx (rdOf w) (if first then (match l with | [] => 2 ^ 32 - 1 | i :: _ => i) else l.length))

/-- vmsbf (1), vmsof (2) and vmsif (3), viota (16) and vid (17). -/
def Hart.vMaskSet (h : Hart) (t : VType) (w : Nat) : InstrEnd :=
  let r := h.e.regs
  let vm := vmOf w
  let vd := rdOf w
  let m (i : Nat) : Bool := r.active vm i && vget r.v 1 (rs2Of w) i == 1
  let before (i : Nat) : Nat := ((List.range i).filter m).length
  match rs1Of w with
  | 1 => if r.vstart ≠ 0 ∨ vd = rs2Of w ∨ (!vm ∧ vd = 0) then h.stops .illegal
    else h.vMask t vd vm (fun i => (before (i + 1) == 0, 0))
  | 2 => if r.vstart ≠ 0 ∨ vd = rs2Of w ∨ (!vm ∧ vd = 0) then h.stops .illegal
    else h.vMask t vd vm (fun i => (m i && before i == 0, 0))
  | 3 => if r.vstart ≠ 0 ∨ vd = rs2Of w ∨ (!vm ∧ vd = 0) then h.stops .illegal
    else h.vMask t vd vm (fun i => (before i == 0, 0))
  | 16 => if r.vstart ≠ 0 ∨ !(t.at_ vd).apart (maskReg (rs2Of w)) then h.stops .illegal
    else h.vMapOk t (t.at_ vd) [] vm (fun i => (before i, 0))
  | 17 => if rs2Of w ≠ 0 then h.stops .illegal else h.vMapOk t (t.at_ vd) [] vm (fun i => (i, 0))
  | _ => h.stops .illegal

/-- vcompress. -/
def Hart.vCompress (h : Hart) (t : VType) (w : Nat) : InstrEnd :=
  let r := h.e.regs
  let d := t.at_ (rdOf w)
  let s := t.at_ (rs2Of w)
  if !vmOf w || r.vstart != 0 || !d.ok || !s.ok || !d.apart s || !d.apart (maskReg (rs1Of w)) || !s.apart (maskReg (rs1Of w)) then
    h.stops .illegal
  else
    let l := ((List.range r.vl).filter (fun i => vget r.v 1 (rs1Of w) i == 1)).map (fun i => vget r.v t.sew s.reg i)
    let packed : Hart := { h with e := { h.e with regs := { r with vl := l.length } } }
    let x := if l.isEmpty then
        (if r.vl = 0 then r.v else packed.vPolicy t d.eew d.n d.reg true r.v)
      else packed.vPolicy t d.eew d.n d.reg true (packed.vBody d.eew d.reg true (fun i => (l.getD i 0, 0))).1
    h.vDone x 0

/-- Mask logic by funct6, 0x18 to 0x1F. -/
def maskLogic (f6 : Nat) (a b : Bool) : Bool :=
  match f6 with
  | 0x18 => a && !b
  | 0x19 => a && b
  | 0x1A => a || b
  | 0x1B => a != b
  | 0x1C => a || !b
  | 0x1D => !(a && b)
  | 0x1E => !(a || b)
  | _ => a == b

/-- vslide1up and vslide1down, and their floating-point forms: `x` comes in at the end. -/
def Hart.vSlide1 (h : Hart) (t : VType) (w x : Nat) (up : Bool) : InstrEnd :=
  let r := h.e.regs
  let d := t.at_ (rdOf w)
  let s := t.at_ (rs2Of w)
  if up ∧ !d.apart s then h.stops .illegal
  else h.vMapOk t d [s] (vmOf w) (fun i =>
    (if up then (if i = 0 then x else vget r.v t.sew s.reg (i - 1))
     else if i + 1 = r.vl then x else vget r.v t.sew s.reg (i + 1), 0))

/-- OPMVV (`form` v) and OPMVX. -/
def Hart.opm (h : Hart) (t : VType) (w : Nat) (form : VForm) : InstrEnd :=
  let r := h.e.regs
  let f6 := bits w 26 6
  let vm := vmOf w
  let a (i : Nat) : Nat := vget r.v t.sew (rs2Of w) i
  let b (i : Nat) : Nat := h.vOther w t.sew form false i
  let xrm := r.vcsr / 2 % 4
  if f6 ≤ 0x07 then
    if form = .v then h.vReduce t w t.sew (fun x l => (l.foldl (reduceInt t.sew f6) x, 0)) else h.stops .illegal
  else if f6 = 0x0E ∨ f6 = 0x0F then
    if form = .x then h.vSlide1 t w (r.rx (rs1Of w) % 2 ^ t.sew) (f6 == 0x0E) else h.stops .illegal
  else if f6 = 0x10 then
    match form with
    | .v =>
      match rs1Of w with
      | 0 => if vm then h.vKeep (r.wx (rdOf w) (wrap32 (signed t.sew (vget r.v t.sew (rs2Of w) 0)))) else h.stops .illegal
      | 16 => h.vCount w false
      | 17 => h.vCount w true
      | _ => h.stops .illegal
    | _ =>
      if rs2Of w = 0 ∧ vm then h.vScalar t t.sew (rdOf w) (r.rx (rs1Of w) % 2 ^ t.sew) 0 else h.stops .illegal
  else if f6 = 0x12 then (if form = .v then h.vExtend t w else h.stops .illegal)
  else if f6 = 0x14 then (if form = .v then h.vMaskSet t w else h.stops .illegal)
  else if f6 = 0x17 then (if form = .v then h.vCompress t w else h.stops .illegal)
  else if 0x18 ≤ f6 ∧ f6 ≤ 0x1F then
    if form = .v ∧ vm then
      h.vMask t (rdOf w) true (fun i => (maskLogic f6 (vget r.v 1 (rs2Of w) i == 1) (vget r.v 1 (rs1Of w) i == 1), 0))
    else h.stops .illegal
  else if 0x30 ≤ f6 then
    let wideSrc := decide (0x34 ≤ f6) && decide (f6 ≤ 0x37)
    let s : VGroup := if wideSrc then t.wide.at_ (rs2Of w) else t.at_ (rs2Of w)
    if (widenElem t.sew f6 form 0 0 0).isNone then h.stops .illegal
    else h.vMapOk t.wide (t.wide.at_ (rdOf w)) (if form = .v then [s, t.at_ (rs1Of w)] else [s]) vm (fun i =>
      (widenElem t.sew f6 form (vget r.v (2 * t.sew) (rdOf w) i) (vget r.v s.eew s.reg i) (b i)).getD (0, 0))
  else if (opmElem t.sew xrm f6 0 0 0).isNone then h.stops .illegal
  else h.vMapOk t (t.at_ (rdOf w)) (t.sources w form) vm (fun i =>
    (opmElem t.sew xrm f6 (vget r.v t.sew (rdOf w) i) (a i) (b i)).getD (0, 0))

/-! ### OPFVV and OPFVF -/

/-- Element-wise OPFV results by funct6; `d` is of the destination, `x` says that the second operand is scalar. -/
def opfElem (rm f6 : Nat) (x : Bool) (d a b : Nat) : Option FpOut :=
  match f6 with
  | 0x00 => some (fpAdd fmtS rm a b)
  | 0x02 => some (fpSub fmtS rm a b)
  | 0x04 => some (fpMinMax fmtS false a b)
  | 0x06 => some (fpMinMax fmtS true a b)
  | 0x08 => some (fpSgnj fmtS 0 a b, 0)
  | 0x09 => some (fpSgnj fmtS 1 a b, 0)
  | 0x0A => some (fpSgnj fmtS 2 a b, 0)
  | 0x20 => some (fpDiv fmtS rm a b)
  | 0x21 => if x then some (fpDiv fmtS rm b a) else none
  | 0x24 => some (fpMul fmtS rm a b)
  | 0x27 => if x then some (fpSub fmtS rm b a) else none
  | 0x28 => some (fpFused fmtS 0x43 rm d b a)
  | 0x29 => some (fpFused fmtS 0x4F rm d b a)
  | 0x2A => some (fpFused fmtS 0x47 rm d b a)
  | 0x2B => some (fpFused fmtS 0x4B rm d b a)
  | 0x2C => some (fpFused fmtS 0x43 rm b a d)
  | 0x2D => some (fpFused fmtS 0x4F rm b a d)
  | 0x2E => some (fpFused fmtS 0x47 rm b a d)
  | 0x2F => some (fpFused fmtS 0x4B rm b a d)
  | _ => none

/-- Floating-point comparisons by funct6. -/
def opfCompare (f6 : Nat) (x : Bool) (a b : Nat) : Option FpOut :=
  match f6 with
  | 0x18 => some (fpEq fmtS a b)
  | 0x19 => some (fpLe fmtS a b)
  | 0x1B => some (fpLt fmtS a b)
  | 0x1C => some (1 - (fpEq fmtS a b).1, (fpEq fmtS a b).2)
  | 0x1D => if x then some (fpLt fmtS b a) else none
  | 0x1F => if x then some (fpLe fmtS b a) else none
  | _ => none

/-- A conversion to an integer element of `sew` bits, limited to it. -/
def fpToElem (sew : Nat) (sgn : Bool) (rm a : Nat) : FpOut :=
  let r := if sgn then fpToInt fmtS rm a (-(2 ^ (sew - 1))) (2 ^ (sew - 1) - 1) else fpToInt fmtS rm a 0 (2 ^ sew - 1)
  (wrapTo sew r.1, r.2)

/-- VFUNARY0: the conversions, of one width, widening from 16-bit integers and narrowing to them. -/
def Hart.vConvert (h : Hart) (t : VType) (w rm : Nat) : InstrEnd :=
  let r := h.e.regs
  let vm := vmOf w
  let k := rs1Of w
  let one (f : Nat → FpOut) : InstrEnd :=
    if t.sew = 32 then h.vMapOk t (t.at_ (rdOf w)) [t.at_ (rs2Of w)] vm (fun i => f (vget r.v 32 (rs2Of w) i)) else h.stops .illegal
  let widen (f : Nat → FpOut) : InstrEnd :=
    if t.sew = 16 then h.vMapOk t.wide (t.wide.at_ (rdOf w)) [t.at_ (rs2Of w)] vm (fun i => f (vget r.v 16 (rs2Of w) i))
    else h.stops .illegal
  let narrow (f : Nat → FpOut) : InstrEnd :=
    if t.sew = 16 then h.vMapOk t (t.at_ (rdOf w)) [t.wide.at_ (rs2Of w)] vm (fun i => f (vget r.v 32 (rs2Of w) i))
    else h.stops .illegal
  match k with
  | 0 => one (fpToElem 32 false rm)
  | 1 => one (fpToElem 32 true rm)
  | 2 => one (fun x => fpOfInt fmtS rm x)
  | 3 => one (fun x => fpOfInt fmtS rm (signed 32 x))
  | 6 => one (fpToElem 32 false 1)
  | 7 => one (fpToElem 32 true 1)
  | 10 => widen (fun x => fpOfInt fmtS rm x)
  | 11 => widen (fun x => fpOfInt fmtS rm (signed 16 x))
  | 16 => narrow (fpToElem 16 false rm)
  | 17 => narrow (fpToElem 16 true rm)
  | 22 => narrow (fpToElem 16 false 1)
  | 23 => narrow (fpToElem 16 true 1)
  | _ => h.stops .illegal

/-- VFUNARY1. -/
def unary1 (rm k a : Nat) : Option FpOut :=
  match k with
  | 0 => some (fpSqrt fmtS rm a)
  | 4 => some (fpRsqrt7 a)
  | 5 => some (fpRec7 rm a)
  | 16 => some (fpClass fmtS a, 0)
  | _ => none

/-- Floating-point reductions; the order of an unordered sum is open. -/
def reduceFp (rm f6 x : Nat) (l : List Nat) : FpOut :=
  let go (f : Nat → Nat → FpOut) : FpOut := l.foldl (fun (o : FpOut) y => ((f o.1 y).1, o.2 ||| (f o.1 y).2)) (x, 0)
  match f6 with
  | 1 => if l.isEmpty then (x, 0) else Config.unorderedSum rm (x :: l)
  | 3 => go (fpAdd fmtS rm)
  | 5 => go (fpMinMax fmtS false)
  | _ => go (fpMinMax fmtS true)

/-- OPFVV (`x` false) and OPFVF; only 32-bit elements are floating-point numbers, but for the conversions. -/
def Hart.opf (h : Hart) (t : VType) (w : Nat) (x : Bool) : InstrEnd :=
  let r := h.e.regs
  let f6 := bits w 26 6
  let vm := vmOf w
  let form := if x then VForm.x else VForm.v
  let a (i : Nat) : Nat := vget r.v 32 (rs2Of w) i
  let sc := r.rf (rs1Of w)
  let b (i : Nat) : Nat := if x then sc else vget r.v 32 (rs1Of w) i
  match r.rm 7 with
  | none => h.stops .illegal
  | some rm =>
    if f6 = 0x12 ∧ !x then h.vConvert t w rm
    else if t.sew ≠ 32 then h.stops .illegal
    else if f6 = 0x10 then
      if x then (if rs2Of w = 0 ∧ vm then h.vScalar t 32 (rdOf w) sc 0 else h.stops .illegal)
      else if rs1Of w = 0 ∧ vm then h.vKeep (r.wf (rdOf w) (a 0))
      else h.stops .illegal
    else if f6 = 0x13 ∧ !x then
      if (unary1 rm (rs1Of w) 0).isNone then h.stops .illegal
      else h.vMapOk t (t.at_ (rdOf w)) [t.at_ (rs2Of w)] vm (fun i => (unary1 rm (rs1Of w) (a i)).getD (0, 0))
    else if (f6 = 0x0E ∨ f6 = 0x0F) ∧ x then h.vSlide1 t w sc (f6 == 0x0E)
    else if f6 = 0x17 ∧ x then h.vMerge t w (fun _ => sc) []
    else if f6 < 8 ∧ f6 % 2 = 1 then
      if x then h.stops .illegal else h.vReduce t w 32 (reduceFp rm f6)
    else if 0x18 ≤ f6 ∧ f6 ≤ 0x1F then
      if (opfCompare f6 x 0 0).isNone then h.stops .illegal
      else h.vMaskOk t (rdOf w) (t.sources w form) vm (fun i =>
        let o := (opfCompare f6 x (a i) (b i)).getD (0, 0)
        (o.1 == 1, o.2))
    else if (opfElem rm f6 x 0 0 0).isNone then h.stops .illegal
    else h.vMapOk t (t.at_ (rdOf w)) (t.sources w form) vm (fun i =>
      (opfElem rm f6 x (vget r.v 32 (rdOf w) i) (a i) (b i)).getD (0, 0))

/-! ### vsetvli, vsetivli and vsetvl -/

/-- The vl that an application vector length gives: between half of it and VLMAX the extension leaves the choice open. -/
def vlFor (avl vlmax : Nat) : Nat :=
  if avl ≤ vlmax then avl
  else if 2 * vlmax ≤ avl then vlmax
  else max (ceilDiv avl 2) (min vlmax (Config.vectorLength avl vlmax))

/-- OPCFG. (PRESUMED, log entry 143) -/
def Hart.vSet (h : Hart) (w : Nat) : InstrEnd :=
  let r := h.e.regs
  let rs1 := rs1Of w
  let vt := if bits w 31 1 = 0 then some (bits w 20 11)
    else if bits w 30 1 = 1 then some (bits w 20 10)
    else if bits w 25 5 = 0 then some (r.rx (rs2Of w))
    else none
  match vt with
  | none => h.stops .illegal
  | some n =>
    match vtypeOf n with
    | none => h.vKeep (({ r with vl := 0, vtype := 0x80000000 } : EngRegs).wx (rdOf w) 0)
    | some t =>
      let ivl := decide (bits w 30 2 = 3)
      let keep := !ivl && rs1 == 0 && rdOf w == 0
      let avl := if ivl then rs1 else if rs1 ≠ 0 then r.rx rs1 else if rdOf w ≠ 0 then 2 ^ 32 - 1 else r.vl
      if keep ∧ t.vlmax < r.vl then
        h.vKeep ({ r with vl := 0, vtype := 0x80000000 } : EngRegs)
      else
        let vl := vlFor avl t.vlmax
        h.vKeep (({ r with vl := vl, vtype := n } : EngRegs).wx (rdOf w) vl)

/-! ### Vector loads and stores -/

/-- One element access: its index, its register group and its address. -/
structure VElem where
  i : Nat
  reg : Nat
  addr : Nat
  deriving DecidableEq, Repr

/-- R163, R165: elements loaded in order until one cannot be: the registers, the ranges read, and where and why it stopped. -/
def Hart.loadElems (h : Hart) (eew : Nat) (v : List (BitVec 512)) (rd : List (Nat × Nat)) :
    List VElem → List (BitVec 512) × List (Nat × Nat) × Option (Nat × InstrStop)
  | [] => (v, rd, none)
  | x :: l =>
    match h.readAt x.addr (eew / 8) with
    | .inl stop => (v, rd, some (x.i, stop))
    | .inr b => h.loadElems eew (vset v eew x.reg x.i (leAt b 0 (eew / 8))) (rd ++ [(x.addr, eew / 8)]) l

/-- R163, R165: elements stored in order until one cannot be. -/
def Hart.storeElems (h : Hart) (eew : Nat) (ws : List (Nat × List Byte)) :
    List VElem → List (Nat × List Byte) × Option (Nat × InstrStop)
  | [] => (ws, none)
  | x :: l =>
    let n := eew / 8
    if x.addr % n ≠ 0 then (ws, some (x.i, .trap 6 x.addr))
    else
      match h.mem.write x.addr n with
      | .ok _ => h.storeElems eew (ws ++ [(x.addr, leBytes n (vget h.e.regs.v eew x.reg x.i))]) l
      | .deny => (ws, some (x.i, .trap 7 x.addr))
      | .stop y => (ws, some (x.i, .fault y))

/-- A load as decoded: its element accesses, the groups it fills for the policies, and whether a fault past the first element only
trims vl. -/
structure VAccess where
  eew : Nat
  elems : List VElem
  groups : List VGroup
  first : Bool := false
  deriving DecidableEq, Repr

/-- A vector load: all elements, or those before the one that stopped it, with vstart naming that one. -/
def Hart.vLoad (h : Hart) (t : VType) (vm : Bool) (x : VAccess) : InstrEnd :=
  let r := h.e.regs
  let o := h.loadElems x.eew r.v [] x.elems
  let fill (vl : Nat) : InstrEnd :=
    let h' : Hart := { h with e := { h.e with regs := { r with vl := vl } } }
    let v := x.groups.foldl (fun v g => h'.vPolicy t g.eew g.n g.reg vm v) o.1
    { h'.vDone v 0 with reads := o.2.1 }
  match o.2.2 with
  | none => fill r.vl
  | some (i, .fault y) => { regs := { r with v := o.1, vstart := i }, reads := o.2.1, vec := true, stop := some (.fault y) }
  | some (i, stop) =>
    if x.first ∧ i ≠ 0 then fill i
    else { regs := { r with v := o.1, vstart := i }, reads := o.2.1, vec := true, stop := some stop }

/-- A vector store. -/
def Hart.vStore (h : Hart) (x : VAccess) : InstrEnd :=
  let r := h.e.regs
  let o := h.storeElems x.eew [] x.elems
  match o.2 with
  | none => { regs := ({ r with vstart := 0 } : EngRegs).go 4, writes := o.1, vec := true }
  | some (i, stop) => { regs := { r with vstart := i }, writes := o.1, vec := true, stop := some stop }

/-- The active elements of `nf` fields, whose addresses `at_` gives by element and field. -/
def EngRegs.elems (r : EngRegs) (vm : Bool) (vl nf vd n : Nat) (at_ : Nat → Nat → Nat) : List VElem :=
  ((List.range vl).filter (fun i => decide (r.vstart ≤ i) && r.active vm i)).flatMap (fun i =>
    (List.range nf).map (fun f => { i := i, reg := vd + f * n, addr := at_ i f % 2 ^ 32 }))

/-- The element width of a vector access by its width field. -/
def widthOf (f3 : Nat) : Option Nat := match f3 with | 0 => some 8 | 5 => some 16 | 6 => some 32 | _ => none

/-- Whole-register accesses, which do not depend on vtype. -/
def Hart.vWhole (h : Hart) (w eew : Nat) (load : Bool) : InstrEnd :=
  let r := h.e.regs
  let n := bits w 29 3 + 1
  let vd := rdOf w
  if !vmOf w || !(n == 1 || n == 2 || n == 4 || n == 8) || vd % n != 0 || (!load && eew != 8) then h.stops .illegal
  else
    let base := r.rx (rs1Of w)
    let x : VAccess := { eew := eew, elems := r.elems true (n * 512 / eew) 1 vd n (fun i _ => base + i * (eew / 8)), groups := [] }
    if load then h.vLoad { sew := 8, lmul8 := 8, vta := false, vma := false } true x else h.vStore x

/-- vlm.v and vsm.v. -/
def Hart.vMaskMem (h : Hart) (t : VType) (w : Nat) (load : Bool) : InstrEnd :=
  let r := h.e.regs
  let evl := ceilDiv r.vl 8
  if !vmOf w || bits w 29 3 != 0 || f3Of w != 0 then h.stops .illegal
  else
    let h' : Hart := { h with e := { h.e with regs := { r with vl := evl } } }
    let base := r.rx (rs1Of w)
    let x : VAccess := { eew := 8, elems := r.elems true evl 1 (rdOf w) 1 (fun i _ => base + i), groups := [{ reg := rdOf w, eew := 8, emul8 := 8 }] }
    let o := if load then h'.vLoad { t with vta := true } true x else h'.vStore x
    { o with regs := { o.regs with vl := r.vl } }

/-- Unit-stride, fault-only-first and strided accesses of segments of `nf` fields. -/
def Hart.vStride (h : Hart) (t : VType) (w eew : Nat) (load first : Bool) (stride : Nat) : InstrEnd :=
  let r := h.e.regs
  let vm := vmOf w
  let nf := bits w 29 3 + 1
  let g : VGroup := { reg := rdOf w, eew := eew, emul8 := eew * t.lmul8 / t.sew }
  let vd := rdOf w
  if !g.ok || decide (8 < nf * g.n) || decide (32 < vd + nf * g.n) || (!vm && vd == 0) then h.stops .illegal
  else
    let base := r.rx (rs1Of w)
    let x : VAccess :=
      { eew := eew, elems := r.elems vm r.vl nf vd g.n (fun i f => base + i * stride + f * (eew / 8)), first := first,
        groups := (List.range nf).map (fun f => { g with reg := vd + f * g.n }) }
    if load then h.vLoad t vm x else h.vStore x

/-- Indexed accesses: the index has the width of the encoding, the data that of vtype. -/
def Hart.vIndexed (h : Hart) (t : VType) (w eew : Nat) (load : Bool) : InstrEnd :=
  let r := h.e.regs
  let vm := vmOf w
  let nf := bits w 29 3 + 1
  let vd := rdOf w
  let g : VGroup := { reg := vd, eew := t.sew, emul8 := t.lmul8 }
  let ix : VGroup := { reg := rs2Of w, eew := eew, emul8 := eew * t.lmul8 / t.sew }
  let groups := (List.range nf).map (fun f => { g with reg := vd + f * g.n })
  let overlapOk := if nf = 1 then g.mayOverlap ix else groups.all (fun d => d.apart ix)
  if !g.ok || !ix.ok || decide (8 < nf * g.n) || decide (32 < vd + nf * g.n) || (!vm && vd == 0) || (load && !overlapOk) ||
      !oneWidth (ix :: (if load then [] else groups) ++ maskOf vm) then h.stops .illegal
  else
    let base := r.rx (rs1Of w)
    let x : VAccess :=
      { eew := t.sew, groups := groups,
        elems := r.elems vm r.vl nf vd g.n (fun i f => base + vget r.v eew ix.reg i + f * (t.sew / 8)) }
    if load then h.vLoad t vm x else h.vStore x

/-- LOAD-FP and STORE-FP with a vector width. -/
def Hart.vMem (h : Hart) (w : Nat) (load : Bool) : InstrEnd :=
  match widthOf (f3Of w) with
  | none => h.stops .illegal
  | some eew =>
    let mop := bits w 26 2
    let lumop := rs2Of w
    if bits w 28 1 = 1 then h.stops .illegal
    else if mop = 0 ∧ lumop = 8 then h.vWhole w eew load
    else
      match vtypeOf h.e.regs.vtype with
      | none => h.stops .illegal
      | some t =>
        let nf := bits w 29 3 + 1
        match mop with
        | 0 =>
          if lumop = 0 then h.vStride t w eew load false (nf * (eew / 8))
          else if lumop = 11 then h.vMaskMem t w load
          else if lumop = 16 ∧ load then h.vStride t w eew load true (nf * (eew / 8))
          else h.stops .illegal
        | 2 => h.vStride t w eew load false (h.e.regs.rx (rs2Of w))
        | _ => h.vIndexed t w eew load

/-- A vector instruction: OP-V, or LOAD-FP and STORE-FP with a width other than that of FLW and FSW. (PRESUMED, log entry 143) -/
def Hart.vector (h : Hart) (w : Nat) : InstrEnd :=
  match bits w 0 7 with
  | 0x07 => h.vMem w true
  | 0x27 => h.vMem w false
  | _ =>
    if f3Of w = 7 then h.vSet w
    else
      match vtypeOf h.e.regs.vtype with
      | none => h.stops .illegal
      | some t =>
        match f3Of w with
        | 0 => h.opi t w .v
        | 1 => h.opf t w false
        | 2 => h.opm t w .v
        | 3 => h.opi t w .i
        | 4 => h.opi t w .x
        | 5 => h.opf t w true
        | _ => h.opm t w .x

/-- R163: an instruction of 32 bits other than ECALL and the custom ones; `len` is 2 where it stands for a compressed one. -/
def Hart.ordinary (h : Hart) (w len : Nat) : InstrEnd :=
  let op := bits w 0 7
  if op = 0x57 ∨ ((op = 0x07 ∨ op = 0x27) ∧ f3Of w ≠ 2) then h.vector w else h.scalar w len

end Sys2Proof.Machine
end

