-- ==== Sys2Proof/Machine/Cores.lean ====
section
/-! DEFINITION. What happens as a REF cycle passes with no command waiting: every engine that runs a kernel executes one instruction of
it (R163 to R171, R184), and counters of what no command stands for move. -/

namespace Sys2Proof.Machine

/-! ### The engine address map (R166) -/

/-- R166: a read of the code or table aperture: its physical place. -/
def Task.aperture (t : Task) (a len : Nat) : Option (Nat × Nat) :=
  if 0x20000000 ≤ a ∧ a + len ≤ 0x20000000 + t.kern.codeLen then some (0, t.kern.codeAddr + (a - 0x20000000))
  else if 0x40000000 ≤ a ∧ a < 0x80000000 then
    let o := (a - 0x40000000) % 0x8000000
    match t.table ((a - 0x40000000) / 0x8000000) with
    | some x => if o + len ≤ roundUp x.bodyLen 16 then some (0, x.addr + o) else none
    | none => none
  else none

/-- R166: where an engine reads `len` bytes at an engine address. -/
def Task.readPlace (t : Task) (a len : Nat) : Option (Nat × Nat) := (t.reach a len).orElse (fun _ => t.aperture a len)

/-- R151, R166: what a place answers to an access. -/
def State.placeAnswer (s : State) (p : Option (Nat × Nat)) (len : Nat) (write : Bool) : EngAnswer :=
  match p with
  | none => .deny
  | some p =>
    match s.unitStop 0 p len write with
    | some x => .stop x
    | none => .ok (if write then [] else s.vread p.1 p.2 len)

/-- R166: the memory a task sees. -/
def State.engMem (s : State) (t : Task) : EngMem :=
  { read := fun a len => s.placeAnswer (t.readPlace a len) len false,
    write := fun a len => s.placeAnswer (t.reach a len) len true }

/-- R166: a 16-bit parcel of code, fetched physically from the code aperture. -/
def State.parcel (s : State) (t : Task) (pc : Nat) : Option Nat :=
  if 0x20000000 ≤ pc ∧ pc + 2 ≤ 0x20000000 + t.kern.codeLen then
    some (leAt (s.physRead (t.kern.codeAddr + (pc - 0x20000000)) 2) 0 2)
  else none

/-! ### One instruction -/

/-- R163: what stands at the pc: an instruction of 32 bits with its length, an undefined compressed one, or a fetch that fails. -/
inductive Fetched where
  | word (w len : Nat)
  | undefined
  | denied (a : Nat)
  deriving DecidableEq, Repr

/-- R163, R166: the instruction at a pc. -/
def State.fetchInstr (s : State) (t : Task) (pc : Nat) : Fetched :=
  match s.parcel t pc with
  | none => .denied pc
  | some lo =>
    if lo % 4 ≠ 3 then (match expandC lo with | some w => .word w 2 | none => .undefined)
    else
      match s.parcel t (pc + 2) with
      | none => .denied (pc + 2)
      | some hi => .word (hi * 65536 + lo) 4

/-- R184: an ordinary instruction is retired; `far` when it has read an aperture or the window. (DESIGN CHOICE, log entry 41) -/
def State.retired (s : State) (k : Nat) (vec far : Bool) : State :=
  let e := s.engine k
  s.setEngine k { e with minstret := (e.minstret + 1) % 2 ^ 64, vec := (e.vec + if vec then 1 else 0) % 2 ^ 64,
                         mstall := (e.mstall + if far then Config.stallCycles k e.minstret else 0) % 2 ^ 64 }

/-- R130, R140, R146: what a read does besides its data. -/
def State.engRead (s : State) (t : Task) (a len : Nat) : State :=
  match t.readPlace a len with
  | some p => (s.readNote p.1 p.2 len).cacheLeaf p.1 p.2
  | none => s

/-- R166: bytes an engine stores. (DEDUCED, log entry 27) -/
def State.engWrite (s : State) (t : Task) (a : Nat) (b : List Byte) : State :=
  match t.reach a b.length with
  | some p => (s.vwrite p.1 p.2 b).cacheLeaf p.1 p.2
  | none => s

/-- R151, R164: an instruction that did not complete: an exception ends the task, a translation fault stops it to be restarted. -/
def State.instrStop (s : State) (k slot : Nat) (t : Task) (r : EngRegs) : InstrStop → State
  | .trap cause tval => s.trap k slot t.node cause tval r.pc
  | .bare cause => s.trapOpen k slot t.node cause r.pc
  | .fault x => s.faultAccess (0x100 + k) x.space x.va x.write x.kind x.level x.pte
      { restart := r.pc, sealState := 0, sealAcc := 0, sealSeq := 0, sealBytes := 0, vstart := r.vstart }

/-- R163: an ordinary instruction takes effect: its reads and writes in order, its registers, and its end.
(DEDUCED, log entry 27) -/
def State.runOrdinary (s : State) (k slot : Nat) (t : Task) (w len : Nat) : State :=
  let o := Hart.ordinary { k := k, e := s.engine k, mem := s.engMem t } w len
  let s := s.each o.reads (fun a s => s.engRead t a.1 a.2)
  let s := s.each o.writes (fun a s => s.engWrite t a.1 a.2)
  let s := s.setEngine k { s.engine k with regs := o.regs }
  match o.stop with
  | none => s.retired k o.vec (o.reads.any (fun a => decide (t.lmSize < a.1 + a.2)))
  | some x => s.instrStop k slot t o.regs x

/-- R164, R170, R171: the instruction at the pc of engine `k` is executed. An instruction that waits is executed again.
(DESIGN CHOICE, log entry 16) -/
def State.execAtPc (s : State) (k slot : Nat) (t : Task) : State :=
  let r := (s.engine k).regs
  match s.fetchInstr t r.pc with
  | .word w len =>
    if isCustom w ∧ len = 4 then s.customWord k slot t w
    else if (s.engine k).waiting then s
    else if w = 0x73 ∧ len = 4 then s.ecall slot t (r.x.getD 10 0).toNat
    else s.runOrdinary k slot t w len
  | .undefined => if (s.engine k).waiting then s else s.illegal k slot t.node r.pc
  | .denied a => if (s.engine k).waiting then s else s.trap k slot t.node 1 a r.pc

/-- Engine `k` executes an instruction of its kernel, unless it waits in place with a fault (R151); a library kernel's work is that of
its operator (R218). (DESIGN CHOICE, log entry 16; DEDUCED, log entries 27, 28) -/
def State.coreStep (s : State) (k : Nat) : State :=
  match s.running k with
  | none => s
  | some (slot, t) => if s.engineHeld k || t.isLibrary then s else s.execAtPc k slot t

/-! ### A REF cycle -/

/-- R184: mcycle of the engines of every AWAKE cluster. (DESIGN CHOICE, log entry 41) -/
def State.countCycles (s : State) : State :=
  let n := s.fclkOf (s.ref + 1) - s.fclkOf s.ref
  s.each ((List.range 128).filter (fun k => s.island (k / 8) == 2)) (fun k s =>
    s.setEngine k { s.engine k with mcycle := ((s.engine k).mcycle + n) % 2 ^ 64 })

/-- What a counter of events that no command stands for counts in this REF cycle. (DESIGN CHOICE, log entry 125) -/
def State.countOpen (s : State) (f : Fld) : State := s.inc f (Config.happened f.off s.ref)

/-- R136: the tags in use, and the most there have been. (DESIGN CHOICE, log entry 125) -/
def State.countTags (s : State) : State :=
  let n := Config.happened F.MESH_TAGS_IN_USE.off s.ref % 4097
  (s.wr F.MESH_TAGS_IN_USE n).wr F.MESH_TAGS_HIGH_WATER (max n (s.rd F.MESH_TAGS_HIGH_WATER))

/-- R136, R333, R408: the counters that no command moves. (DESIGN CHOICE, log entry 125) -/
def State.countEvents (s : State) : State :=
  if !s.powered then s
  else
    let s := s.countTags.countOpen F.MESH_TAG_WAIT_CYCLES
    let s := s.each ((List.range 2).filter (fun u => s.ustate u != 0)) (fun u s => s.countOpen (F.CUX_U_ECC_CORR_COUNT u))
    s.each ((List.range 8).filter (fun p => s.on (F.NET_P_STATUS_LINK p))) (fun p s =>
      (s.countOpen (F.NET_P_FEC_CORR_COUNT p)).countOpen (F.NET_P_FEC_UNCORR_COUNT p))

end Sys2Proof.Machine
end

