-- ==== Sys2Proof/Machine/Rv64.lean ====
section
/-! DEFINITION. The unprivileged instructions of a control unit's core (R406): RV64I with M, A, F, D, C and Zifencei, as published by
RISC-V International. An instruction comes to registers that it has computed, or to what it asks of memory or of the privileged part. -/

namespace Sys2Proof.Machine

/-! ### Registers -/

/-- A register of the integer file; x0 reads 0. -/
def UnitHart.rx (h : UnitHart) (i : Nat) : Nat := if i = 0 then 0 else (h.x.getD i 0).toNat

/-- A write of the integer file; a write of x0 is discarded. -/
def UnitHart.wx (h : UnitHart) (i v : Nat) : UnitHart := if i = 0 then h else { h with x := h.x.set i (BitVec.ofNat 64 v) }

/-- A register of the floating-point file, all 64 bits of it. -/
def UnitHart.rfAll (h : UnitHart) (i : Nat) : Nat := (h.f.getD i 0).toNat

/-- A stored control and status register. -/
def UnitHart.csr (h : UnitHart) (n : Nat) : Nat := KMap.get (fun _ => 0) h.csrs n

/-- Store a control and status register of 64 bits. -/
def UnitHart.setCsr (h : UnitHart) (n v : Nat) : UnitHart := { h with csrs := KMap.set (fun _ => 0) h.csrs n (v % 2 ^ 64) }

/-- Bits `lo + w - 1 : lo` of mstatus. -/
def UnitHart.mst (h : UnitHart) (lo w : Nat) : Nat := bits (h.csr 0x300) lo w

/-- Those bits of mstatus take a value. -/
def UnitHart.setMst (h : UnitHart) (lo w v : Nat) : UnitHart :=
  h.setCsr 0x300 (h.csr 0x300 - h.mst lo w * 2 ^ lo + v % 2 ^ w * 2 ^ lo)

/-- A write of the floating-point file; FS becomes dirty. -/
def UnitHart.wfAll (h : UnitHart) (i v : Nat) : UnitHart := { h with f := h.f.set i (BitVec.ofNat 64 v) }.setMst 13 2 3

/-- A number of a format in the floating-point file: an FP32 number that is not NaN-boxed reads as the canonical NaN. -/
def UnitHart.rf (h : UnitHart) (fm : FpFmt) (i : Nat) : Nat :=
  let v := h.rfAll i
  if fm = fmtD then v else if v / 2 ^ 32 = 2 ^ 32 - 1 then v % 2 ^ 32 else fpNaN fmtS

/-- An FP32 number as a 64-bit register holds it. -/
def boxed (fm : FpFmt) (v : Nat) : Nat := if fm = fmtD then v else (2 ^ 32 - 1) * 2 ^ 32 + v

/-- A write of a number of a format. -/
def UnitHart.wf (h : UnitHart) (fm : FpFmt) (i v : Nat) : UnitHart := h.wfAll i (boxed fm v)

/-- Floating-point exception flags accrue in fcsr. -/
def UnitHart.flags (h : UnitHart) (fl : Nat) : UnitHart := if fl = 0 then h else (h.setCsr 0x003 (h.csr 0x003 ||| fl)).setMst 13 2 3

/-- The next instruction follows. -/
def UnitHart.go (h : UnitHart) (len : Nat) : UnitHart := { h with pc := (h.pc + len) % 2 ^ 64 }

/-- An instruction that only writes an integer register. -/
def UnitHart.gives (h : UnitHart) (len rd v : Nat) : UnitHart := (h.wx rd v).go len

/-- The low 32 bits of a number, sign-extended to 64. -/
def ext32 (v : Nat) : Nat := wrapN 64 (signed 32 (v % 2 ^ 32))

/-! ### What an instruction comes to -/

/-- What an instruction comes to: the core after it; a load into an integer or a floating-point register, a store, an atomic operation,
a load-reserved or a store-conditional at an address of the core's; a CSR operation; an instruction of the privileged part; or an
exception, with its tval or with the one RISC-V leaves open. -/
inductive HartAct where
  | done (h : UnitHart)
  | load (a n rd : Nat) (signed : Bool)
  | loadF (a n rd : Nat)
  | store (a n v : Nat)
  | amo (op a n rd v : Nat)
  | lr (a n rd : Nat)
  | sc (a n rd v : Nat)
  | csr (n f3 rd src : Nat) (write : Bool)
  | system (w : Nat)
  | trap (cause : Nat) (tval : Option Nat)
  deriving DecidableEq, Repr

/-- The illegal-instruction exception. -/
def HartAct.illegal : HartAct := .trap 2 none

/-! ### Integer instructions -/

/-- LOAD. -/
def UnitHart.loadOp (h : UnitHart) (w : Nat) : HartAct :=
  let a := wrapN 64 ((h.rx (rs1Of w) : Int) + immI w)
  let f3 := f3Of w
  if f3 = 7 then .illegal else .load a (2 ^ (f3 % 4)) (rdOf w) (decide (f3 < 4))

/-- OP-IMM. -/
def UnitHart.opImm (h : UnitHart) (w len : Nat) : HartAct :=
  let f3 := f3Of w
  let a := h.rx (rs1Of w)
  let f6 := bits w 26 6
  if f3 = 1 ∨ f3 = 5 then
    if f6 = 0 ∨ (f6 = 0x10 ∧ f3 = 5) then .done (h.gives len (rdOf w) (aluOp 64 f3 (f6 == 0x10) a (bits w 20 6))) else .illegal
  else .done (h.gives len (rdOf w) (aluOp 64 f3 false a (wrapN 64 (immI w))))

/-- OP-IMM-32. -/
def UnitHart.opImm32 (h : UnitHart) (w len : Nat) : HartAct :=
  let a := h.rx (rs1Of w) % 2 ^ 32
  let f7 := f7Of w
  let out (v : Nat) : HartAct := .done (h.gives len (rdOf w) (ext32 v))
  match f3Of w with
  | 0 => out (aluOp 32 0 false a (wrapN 32 (immI w)))
  | 1 => if f7 = 0 then out (aluOp 32 1 false a (rs2Of w)) else .illegal
  | 5 => if f7 = 0 ∨ f7 = 0x20 then out (aluOp 32 5 (f7 == 0x20) a (rs2Of w)) else .illegal
  | _ => .illegal

/-- OP. -/
def UnitHart.op (h : UnitHart) (w len : Nat) : HartAct :=
  let f3 := f3Of w
  let a := h.rx (rs1Of w)
  let b := h.rx (rs2Of w)
  match f7Of w with
  | 0x00 => .done (h.gives len (rdOf w) (aluOp 64 f3 false a b))
  | 0x01 => .done (h.gives len (rdOf w) (mulOp 64 f3 a b))
  | 0x20 => if f3 = 0 ∨ f3 = 5 then .done (h.gives len (rdOf w) (aluOp 64 f3 true a b)) else .illegal
  | _ => .illegal

/-- OP-32. -/
def UnitHart.op32 (h : UnitHart) (w len : Nat) : HartAct :=
  let f3 := f3Of w
  let a := h.rx (rs1Of w) % 2 ^ 32
  let b := h.rx (rs2Of w) % 2 ^ 32
  let out (v : Nat) : HartAct := .done (h.gives len (rdOf w) (ext32 v))
  match f7Of w with
  | 0x00 => if f3 = 0 ∨ f3 = 1 ∨ f3 = 5 then out (aluOp 32 f3 false a b) else .illegal
  | 0x01 => if f3 = 0 ∨ 4 ≤ f3 then out (mulOp 32 f3 a b) else .illegal
  | 0x20 => if f3 = 0 ∨ f3 = 5 then out (aluOp 32 f3 true a b) else .illegal
  | _ => .illegal

/-- A jump to an address, linked in rd. -/
def UnitHart.jump (h : UnitHart) (len rd dst : Nat) : HartAct := .done { h.wx rd ((h.pc + len) % 2 ^ 64) with pc := dst }

/-- The A extension. -/
def UnitHart.atomic (h : UnitHart) (w : Nat) : HartAct :=
  let f3 := f3Of w
  let n := 2 ^ f3
  let a := h.rx (rs1Of w)
  let v := h.rx (rs2Of w)
  let op := bits w 27 5
  if f3 ≠ 2 ∧ f3 ≠ 3 then .illegal
  else if op = 2 then (if rs2Of w = 0 then .lr a n (rdOf w) else .illegal)
  else if op = 3 then .sc a n (rdOf w) v
  else if op = 1 ∨ op % 4 = 0 then .amo op a n (rdOf w) v
  else .illegal

/-- What an atomic operation of `n` bits writes, from what memory held and the register's value. -/
def amoOp (n op old v : Nat) : Nat :=
  match op with
  | 0x01 => v
  | 0x00 => (old + v) % 2 ^ n
  | 0x04 => old ^^^ v
  | 0x0C => old &&& v
  | 0x08 => old ||| v
  | 0x10 => if signed n old ≤ signed n v then old else v
  | 0x14 => if signed n old ≤ signed n v then v else old
  | 0x18 => min old v
  | _ => max old v

/-! ### Floating point -/

/-- The rounding mode of an instruction: its own, or that of frm; the reserved ones are illegal. -/
def UnitHart.rm (h : UnitHart) (rm : Nat) : Option Nat :=
  let m := if rm = 7 then bits (h.csr 0x003) 5 3 else rm
  if m ≤ 4 then some m else none

/-- A result goes to a floating-point register, its flags to fcsr. -/
def UnitHart.givesF (h : UnitHart) (fm : FpFmt) (len rd : Nat) (o : FpOut) : HartAct := .done (((h.wf fm rd o.1).flags o.2).go len)

/-- A result goes to an integer register, its flags to fcsr. -/
def UnitHart.givesFX (h : UnitHart) (len rd : Nat) (o : FpOut) : HartAct := .done (((h.wx rd o.1).flags o.2).go len)

/-- The format of an instruction by its fmt field. -/
def fmtOf (w : Nat) : Option FpFmt := match bits w 25 2 with | 0 => some fmtS | 1 => some fmtD | _ => none

/-- FCVT to an integer: W, WU, L and LU by rs2. -/
def fpToReg (fm : FpFmt) (k rm a : Nat) : FpOut :=
  let n := if k < 2 then 32 else 64
  let o := fpToBits fm n (k % 2 == 1) rm a
  (if n = 32 then ext32 o.1 else o.1, o.2)

/-- FCVT from an integer: W, WU, L and LU by rs2. -/
def fpOfReg (fm : FpFmt) (k rm x : Nat) : FpOut :=
  let n := if k < 2 then 32 else 64
  let v : Nat := x % 2 ^ n
  let i : Int := if k % 2 = 1 then v else signed n v
  fpOfInt fm rm i

/-- OP-FP with a rounding mode. -/
def UnitHart.opFpRound (h : UnitHart) (fm : FpFmt) (w len rm : Nat) : HartAct :=
  let rs2 := rs2Of w
  let a := h.rf fm (rs1Of w)
  match bits w 27 5 with
  | 0x08 =>
    let src := if fm = fmtS then fmtD else fmtS
    if rs2 = (if fm = fmtS then 1 else 0) then h.givesF fm len (rdOf w) (fpConv src fm rm (h.rf src (rs1Of w))) else .illegal
  | 0x18 => if rs2 < 4 then h.givesFX len (rdOf w) (fpToReg fm rs2 rm a) else .illegal
  | 0x1A => if rs2 < 4 then h.givesF fm len (rdOf w) (fpOfReg fm rs2 rm (h.rx (rs1Of w))) else .illegal
  | op =>
    match fpArith fm op rs2 rm a (h.rf fm rs2) with
    | some o => h.givesF fm len (rdOf w) o
    | none => .illegal

/-- FMV.X: the bits of a floating-point register. -/
def UnitHart.moveX (h : UnitHart) (fm : FpFmt) (i : Nat) : Nat := if fm = fmtD then h.rfAll i else ext32 (h.rfAll i)

/-- OP-FP. -/
def UnitHart.opFp (h : UnitHart) (w len : Nat) : HartAct :=
  match fmtOf w with
  | none => .illegal
  | some fm =>
    let f3 := f3Of w
    let rd := rdOf w
    let a := h.rf fm (rs1Of w)
    let b := h.rf fm (rs2Of w)
    match bits w 27 5 with
    | 0x04 => if f3 ≤ 2 then h.givesF fm len rd (fpSgnj fm f3 a b, 0) else .illegal
    | 0x05 => if f3 ≤ 1 then h.givesF fm len rd (fpMinMax fm (f3 == 1) a b) else .illegal
    | 0x14 =>
      match f3 with
      | 0 => h.givesFX len rd (fpLe fm a b)
      | 1 => h.givesFX len rd (fpLt fm a b)
      | 2 => h.givesFX len rd (fpEq fm a b)
      | _ => .illegal
    | 0x1C =>
      if rs2Of w ≠ 0 then .illegal
      else if f3 = 0 then .done (h.gives len rd (h.moveX fm (rs1Of w)))
      else if f3 = 1 then .done (h.gives len rd (fpClass fm a))
      else .illegal
    | 0x1E =>
      let x := h.rx (rs1Of w)
      if rs2Of w = 0 ∧ f3 = 0 then h.givesF fm len rd (if fm = fmtD then x else x % 2 ^ 32, 0) else .illegal
    | _ =>
      match h.rm f3 with
      | none => .illegal
      | some rm => h.opFpRound fm w len rm

/-- The fused multiply-adds. -/
def UnitHart.fused (h : UnitHart) (w len : Nat) : HartAct :=
  match fmtOf w, h.rm (f3Of w) with
  | some fm, some rm =>
    h.givesF fm len (rdOf w) (fpFused fm (bits w 0 7) rm (h.rf fm (rs1Of w)) (h.rf fm (rs2Of w)) (h.rf fm (bits w 27 5)))
  | _, _ => .illegal

/-- LOAD-FP and STORE-FP. -/
def UnitHart.memF (h : UnitHart) (w : Nat) (load : Bool) : HartAct :=
  let n := 2 ^ f3Of w
  if f3Of w ≠ 2 ∧ f3Of w ≠ 3 then .illegal
  else if load then .loadF (wrapN 64 ((h.rx (rs1Of w) : Int) + immI w)) n (rdOf w)
  else .store (wrapN 64 ((h.rx (rs1Of w) : Int) + immS w)) n (h.rfAll (rs2Of w) % 2 ^ (8 * n))

/-- A floating-point instruction; with FS off it is illegal. -/
def UnitHart.float (h : UnitHart) (w len : Nat) : HartAct :=
  if h.mst 13 2 = 0 then .illegal
  else
    match bits w 0 7 with
    | 0x07 => h.memF w true
    | 0x27 => h.memF w false
    | 0x53 => h.opFp w len
    | _ => h.fused w len

/-! ### The base opcodes -/

/-- SYSTEM: the CSR instructions, and those of the privileged part. -/
def UnitHart.systemOp (h : UnitHart) (w : Nat) : HartAct :=
  let f3 := f3Of w
  if f3 = 0 then .system w
  else if f3 = 4 then .illegal
  else .csr (bits w 20 12) (f3 % 4) (rdOf w) (if 4 ≤ f3 then rs1Of w else h.rx (rs1Of w)) (f3 % 4 == 1 || rs1Of w != 0)

/-- What an instruction of 32 bits comes to; `len` is 2 where it stands for a compressed one. (PRESUMED, log entry 148) -/
def UnitHart.act (h : UnitHart) (w len : Nat) : HartAct :=
  match bits w 0 7 with
  | 0x37 => .done (h.gives len (rdOf w) (ext32 (w / 4096 * 4096)))
  | 0x17 => .done (h.gives len (rdOf w) ((h.pc + ext32 (w / 4096 * 4096)) % 2 ^ 64))
  | 0x6F => h.jump len (rdOf w) (wrapN 64 ((h.pc : Int) + immJ w))
  | 0x67 => if f3Of w = 0 then h.jump len (rdOf w) (wrapN 64 ((h.rx (rs1Of w) : Int) + immI w) / 2 * 2) else .illegal
  | 0x63 =>
    match branchTaken 64 (f3Of w) (h.rx (rs1Of w)) (h.rx (rs2Of w)) with
    | none => .illegal
    | some true => .done { h with pc := wrapN 64 ((h.pc : Int) + immB w) }
    | some false => .done (h.go len)
  | 0x03 => h.loadOp w
  | 0x23 =>
    if f3Of w ≤ 3 then
      .store (wrapN 64 ((h.rx (rs1Of w) : Int) + immS w)) (2 ^ f3Of w) (h.rx (rs2Of w) % 2 ^ (8 * 2 ^ f3Of w))
    else .illegal
  | 0x13 => h.opImm w len
  | 0x1B => h.opImm32 w len
  | 0x33 => h.op w len
  | 0x3B => h.op32 w len
  | 0x0F => if f3Of w ≤ 1 then .done (h.go len) else .illegal
  | 0x2F => h.atomic w
  | 0x73 => h.systemOp w
  | 0x07 | 0x27 | 0x43 | 0x47 | 0x4B | 0x4F | 0x53 => h.float w len
  | _ => .illegal

/-! ### Compressed instructions -/

/-- The instructions of quadrant 0. -/
def expand0x64 (h : Nat) : Option Nat :=
  let rs1 := 8 + bits h 7 3
  let rd := 8 + bits h 2 3
  let off := bits h 5 2 * 64 + bits h 10 3 * 8
  match bits h 13 3 with
  | 1 => some (mkI 0x07 3 rd rs1 off)
  | 3 => some (mkI 0x03 3 rd rs1 off)
  | 5 => some (mkS 0x27 3 rs1 rd off)
  | 7 => some (mkS 0x23 3 rs1 rd off)
  | _ => expand0 h

/-- The instructions of quadrant 1. -/
def expand1x64 (h : Nat) : Option Nat :=
  let r := 8 + bits h 7 3
  let sh := bits h 12 1 * 32 + bits h 2 5
  let word (f7 : Nat) : Option Nat := some (mkR f7 0 r r (8 + bits h 2 3) + 8)
  match bits h 13 3 with
  | 1 => if bits h 7 5 = 0 then none else some (mkI 0x1B 0 (bits h 7 5) (bits h 7 5) (cImm6 h))
  | 4 =>
    match bits h 10 2 with
    | 0 => some (mkI 0x13 5 r r sh)
    | 1 => some (mkI 0x13 5 r r (0x400 + sh))
    | 2 => expandAlu h
    | _ =>
      if bits h 12 1 = 0 then expandAlu h
      else match bits h 5 2 with | 0 => word 0x20 | 1 => word 0 | _ => none
  | _ => expand1 h

/-- The instructions of quadrant 2. -/
def expand2x64 (h : Nat) : Option Nat :=
  let rd := bits h 7 5
  let rs2 := bits h 2 5
  let ld := bits h 2 3 * 64 + bits h 12 1 * 32 + bits h 5 2 * 8
  let st := bits h 7 3 * 64 + bits h 10 3 * 8
  match bits h 13 3 with
  | 0 => some (mkI 0x13 1 rd rd (bits h 12 1 * 32 + rs2))
  | 1 => some (mkI 0x07 3 rd 2 ld)
  | 3 => if rd = 0 then none else some (mkI 0x03 3 rd 2 ld)
  | 5 => some (mkS 0x27 3 2 rs2 st)
  | 7 => some (mkS 0x23 3 2 rs2 st)
  | _ => expand2 h

/-- The 32-bit instruction a compressed one stands for. -/
def expandC64 (h : Nat) : Option Nat :=
  match h % 4 with
  | 0 => expand0x64 h
  | 1 => expand1x64 h
  | _ => expand2x64 h

end Sys2Proof.Machine
end

