-- ==== Sys2Proof/Machine/RvPriv.lean ====
section
/-! DEFINITION. The privileged part of a control unit's core (R406): control and status registers, exceptions and interrupts, returns,
physical memory protection with 16 entries, and Sv39 and Sv48 translation, as published by RISC-V International. -/

namespace Sys2Proof.Machine

/-! ### Control and status registers -/

/-- What a core sees from outside: its mhartid, the time, and its interrupt lines at their places in mip. -/
structure HartEnv where
  id : Nat
  time : Nat
  lines : Nat

/-- The bits of a register under a mask replaced. -/
def masked (mask old v : Nat) : Nat := old ^^^ ((old ^^^ v) &&& mask)

/-- The bits of mstatus that supervisor mode sees and writes in sstatus. -/
def sstatusMask : Nat := 0xC6122

/-- mstatus as read: SD says that FS is dirty; UXL and SXL are 64 bits. -/
def UnitHart.mstatus (h : UnitHart) : Nat := h.csr 0x300 + 0xA00000000 + (if h.mst 13 2 = 3 then 2 ^ 63 else 0)

/-- The pending interrupts: those that software set and the lines. -/
def UnitHart.mip (h : UnitHart) (v : HartEnv) : Nat := h.csr 0x344 ||| v.lines

/-- A CSR as read, if it exists. (PRESUMED, log entry 148) -/
def UnitHart.readCsr (h : UnitHart) (v : HartEnv) (n : Nat) : Option Nat :=
  match n with
  | 0x001 => some (h.csr 0x003 % 32)
  | 0x002 => some (bits (h.csr 0x003) 5 3)
  | 0x100 => some ((h.mstatus &&& (sstatusMask + 2 ^ 63)) + 0x200000000)
  | 0x104 => some (h.csr 0x304 &&& h.csr 0x303)
  | 0x144 => some (h.mip v &&& h.csr 0x303)
  | 0x300 => some h.mstatus
  | 0x301 => some 0x800000000014112D
  | 0x344 => some (h.mip v)
  | 0xC00 => some (h.csr 0xB00)
  | 0xC01 => some v.time
  | 0xC02 => some (h.csr 0xB02)
  | 0xF11 | 0xF12 | 0xF13 | 0xF15 => some (Config.unitIdent n)
  | 0xF14 => some v.id
  | 0x003 | 0x105 | 0x106 | 0x10A | 0x140 | 0x141 | 0x142 | 0x143 | 0x180 | 0x302 | 0x303 | 0x304 | 0x305 | 0x306 | 0x30A | 0x320 | 0x340
  | 0x341 | 0x342 | 0x343 | 0x3A0 | 0x3A2 | 0xB00 | 0xB02 => some (h.csr n)
  | _ =>
    if 0x3B0 ≤ n ∧ n < 0x3C0 then some (h.csr n)
    else if (0xB03 ≤ n ∧ n < 0xB20) ∨ (0x323 ≤ n ∧ n < 0x340) then some 0
    else none

/-- May a CSR be accessed so? Its number names the least mode and whether it is read-only; FS off closes the floating-point ones, TVM
satp, and mcounteren and scounteren the counters. -/
def UnitHart.csrOk (h : UnitHart) (n : Nat) (write : Bool) : Bool :=
  decide (bits n 8 2 ≤ h.mode) && !(write && bits n 10 2 == 3) &&
    !(decide (1 ≤ n) && decide (n ≤ 3) && h.mst 13 2 == 0) && !(n == 0x180 && h.mode == 1 && h.mst 20 1 == 1) &&
    (!(decide (0xC00 ≤ n) && decide (n < 0xC03)) || h.mode == 3 ||
      (bits (h.csr 0x306) (n - 0xC00) 1 == 1 && (h.mode == 1 || bits (h.csr 0x106) (n - 0xC00) 1 == 1)))

/-- The configuration byte of PMP entry `i`. -/
def UnitHart.pmpCfg (h : UnitHart) (i : Nat) : Nat := bits (h.csr (0x3A0 + i / 8 * 2)) (i % 8 * 8) 8

/-- What a write leaves in a PMP configuration byte: a locked entry stays, and so does one written with W and not R. -/
def pmpByte (old v : Nat) : Nat := if 128 ≤ old ∨ v % 4 = 2 then old else v &&& 0x9F

/-- What a write leaves in a PMP configuration register. -/
def pmpBytes (old v : Nat) : Nat :=
  (List.range 8).foldl (fun a k => a + pmpByte (bits old (8 * k) 8) (bits v (8 * k) 8) * 2 ^ (8 * k)) 0

/-- Is the address of PMP entry `i` locked, by itself or as the base of a locked top-of-range entry? -/
def UnitHart.pmpLocked (h : UnitHart) (i : Nat) : Bool :=
  decide (128 ≤ h.pmpCfg i) || (decide (i < 15) && decide (128 ≤ h.pmpCfg (i + 1)) && bits (h.pmpCfg (i + 1)) 3 2 == 1)

/-- A write of mstatus; MPP holds a mode there is. -/
def UnitHart.writeMstatus (h : UnitHart) (v : Nat) : UnitHart :=
  let m := if bits v 11 2 = 2 then 0x7E61AA else 0x7E79AA
  h.setCsr 0x300 (masked m (h.csr 0x300) v)

/-- A write of a CSR; fields take the values the core has for them. (PRESUMED, log entry 148) -/
def UnitHart.writeCsr (h : UnitHart) (n v : Nat) : UnitHart :=
  match n with
  | 0x001 => (h.setCsr 0x003 (masked 31 (h.csr 0x003) v)).setMst 13 2 3
  | 0x002 => (h.setCsr 0x003 (h.csr 0x003 % 32 + v % 8 * 32)).setMst 13 2 3
  | 0x003 => (h.setCsr 0x003 (v % 256)).setMst 13 2 3
  | 0x100 => h.setCsr 0x300 (masked sstatusMask (h.csr 0x300) v)
  | 0x104 => h.setCsr 0x304 (masked (h.csr 0x303) (h.csr 0x304) v)
  | 0x144 => h.setCsr 0x344 (masked (h.csr 0x303 &&& 2) (h.csr 0x344) v)
  | 0x180 => if v / 2 ^ 60 = 0 ∨ v / 2 ^ 60 = 8 ∨ v / 2 ^ 60 = 9 then h.setCsr 0x180 v else h
  | 0x300 => h.writeMstatus v
  | 0x302 => h.setCsr n (v &&& 0xB3FF)
  | 0x303 => h.setCsr n (v &&& 0x222)
  | 0x304 => h.setCsr n (v &&& 0xAAA)
  | 0x344 => h.setCsr n (masked 0x222 (h.csr n) v)
  | 0x105 | 0x305 => h.setCsr n (v - bits v 1 1 * 2)
  | 0x106 | 0x306 => h.setCsr n (v % 8)
  | 0x10A | 0x30A => h.setCsr n (v % 2)
  | 0x141 | 0x341 => h.setCsr n (v / 2 * 2)
  | 0x320 => h.setCsr n (v &&& 5)
  | 0x3A0 | 0x3A2 => h.setCsr n (pmpBytes (h.csr n) v)
  | 0x140 | 0x142 | 0x143 | 0x340 | 0x342 | 0x343 | 0xB00 | 0xB02 => h.setCsr n v
  | _ => if 0x3B0 ≤ n ∧ n < 0x3C0 ∧ !h.pmpLocked (n - 0x3B0) then h.setCsr n (v % 2 ^ 54) else h

/-- What CSRRW (1), CSRRS (2) and CSRRC (3) write. A bit of mip that a line holds is not taken for one that software set. -/
def UnitHart.csrNew (h : UnitHart) (n f3 old src : Nat) : Nat :=
  let o := if n = 0x344 ∨ n = 0x144 then h.csr 0x344 else old
  match f3 with
  | 1 => src
  | 2 => o ||| src
  | _ => masked src o 0

/-! ### Exceptions, interrupts and returns -/

/-- An exception or an interrupt is taken, in supervisor mode where it is delegated. -/
def UnitHart.trap (h : UnitHart) (intr : Bool) (cause tval : Nat) : UnitHart :=
  let code := if intr then 2 ^ 63 + cause else cause
  let go (h : UnitHart) (vec : Nat) : UnitHart := { h with pc := vec / 4 * 4 + (if intr ∧ vec % 4 = 1 then 4 * cause else 0) }
  if h.mode ≤ 1 ∧ bits (h.csr (if intr then 0x303 else 0x302)) cause 1 = 1 then
    let t := ((h.setCsr 0x141 h.pc).setCsr 0x142 code).setCsr 0x143 tval
    let t := ((t.setMst 5 1 (h.mst 1 1)).setMst 1 1 0).setMst 8 1 h.mode
    go { t with mode := 1 } (h.csr 0x105)
  else
    let t := ((h.setCsr 0x341 h.pc).setCsr 0x342 code).setCsr 0x343 tval
    let t := ((t.setMst 7 1 (h.mst 3 1)).setMst 3 1 0).setMst 11 2 h.mode
    go { t with mode := 3 } (h.csr 0x305)

/-- MRET. -/
def UnitHart.mret (h : UnitHart) : UnitHart :=
  let m := h.mst 11 2
  let t := ((h.setMst 3 1 (h.mst 7 1)).setMst 7 1 1).setMst 11 2 0
  let t := if m = 3 then t else t.setMst 17 1 0
  { t with mode := m, pc := h.csr 0x341 }

/-- SRET. -/
def UnitHart.sret (h : UnitHart) : UnitHart :=
  let t := (((h.setMst 1 1 (h.mst 5 1)).setMst 5 1 1).setMst 8 1 0).setMst 17 1 0
  { t with mode := h.mst 8 1, pc := h.csr 0x141 }

/-- The interrupt a core takes now, if any: those of machine mode come first, each by the order of their kinds. -/
def UnitHart.interrupt (h : UnitHart) (v : HartEnv) : Option Nat :=
  let p := h.mip v &&& h.csr 0x304
  let d := h.csr 0x303
  let m := if h.mode < 3 ∨ h.mst 3 1 = 1 then masked d p 0 else 0
  let s := if h.mode = 0 ∨ (h.mode = 1 ∧ h.mst 1 1 = 1) then p &&& d else 0
  let pick (l : Nat) : Option Nat := [11, 3, 7, 9, 1, 5].find? (fun i => bits l i 1 == 1)
  (pick m).orElse (fun _ => pick s)

/-- The instructions of the privileged part: ECALL, EBREAK, MRET, SRET, WFI, which ends at once, and SFENCE.VMA, as no translation is
kept. (PRESUMED, log entry 148) -/
def UnitHart.system (h : UnitHart) (w : Nat) : HartAct :=
  if w = 0x00000073 then .trap (8 + h.mode) (some 0)
  else if w = 0x00100073 then .trap 3 none
  else if w = 0x30200073 then (if h.mode = 3 then .done h.mret else .illegal)
  else if w = 0x10200073 then (if h.mode = 0 ∨ (h.mode = 1 ∧ h.mst 22 1 = 1) then .illegal else .done h.sret)
  else if w = 0x10500073 then (if h.mode < 3 ∧ h.mst 21 1 = 1 then .illegal else .done (h.go 4))
  else if f7Of w = 0x09 ∧ rdOf w = 0 then
    (if h.mode = 0 ∨ (h.mode = 1 ∧ h.mst 20 1 = 1) then .illegal else .done (h.go 4))
  else .illegal

/-! ### Physical memory protection -/

/-- The ones at the low end of a number, up to a limit. -/
def lowOnes (v : Nat) : Nat → Nat
  | 0 => 0
  | k + 1 => if v % 2 = 1 then lowOnes (v / 2) k + 1 else 0

/-- The addresses PMP entry `i` covers, from the first to below the second; nothing where it is off. -/
def UnitHart.pmpRange (h : UnitHart) (i : Nat) : Nat × Nat :=
  let a := h.csr (0x3B0 + i)
  match bits (h.pmpCfg i) 3 2 with
  | 0 => (0, 0)
  | 1 => (if i = 0 then 0 else h.csr (0x3B0 + (i - 1)) * 4, a * 4)
  | 2 => (a * 4, a * 4 + 4)
  | _ =>
    let k := lowOnes a 54
    let b := a / 2 ^ (k + 1) * 2 ^ (k + 1) * 4
    (b, b + 2 ^ (k + 3))

/-- May a mode access `n` bytes at a physical address: a read (0), a write (1) or a fetch (2)? The first entry that covers any of them
must cover all; machine mode is bound by locked entries only, the others need an entry. -/
def UnitHart.pmpOk (h : UnitHart) (mode acc a n : Nat) : Bool :=
  match (List.range 16).find? (fun i => decide ((h.pmpRange i).1 < a + n) && decide (a < (h.pmpRange i).2)) with
  | none => mode == 3
  | some i =>
    let r := h.pmpRange i
    decide (r.1 ≤ a) && decide (a + n ≤ r.2) && ((mode == 3 && decide (h.pmpCfg i < 128)) || bits (h.pmpCfg i) acc 1 == 1)

/-! ### Translation -/

/-- What a translation comes to: a physical address, a page fault, or an access fault of the walk. -/
inductive XAddr where
  | ok (a : Nat)
  | page
  | access
  deriving DecidableEq, Repr

/-- May a leaf entry serve a mode's access? The accessed bit must be set, and the dirty bit for a write. -/
def UnitHart.leafOk (h : UnitHart) (p mode acc : Nat) : Bool :=
  let bit (k : Nat) : Bool := bits p k 1 == 1
  (if bit 4 then mode == 0 || (h.mst 18 1 == 1 && acc != 2) else mode != 0) &&
    (match acc with
     | 0 => bit 1 || (h.mst 19 1 == 1 && bit 3)
     | 1 => bit 2
     | _ => bit 3) && bit 6 && (acc != 1 || bit 7)

/-- The walk from the table at page `t` down the levels; `peek` reads an entry. (PRESUMED, log entry 148) -/
def UnitHart.walk (h : UnitHart) (peek : Nat → Option Nat) (mode acc va t : Nat) : List Nat → XAddr
  | [] => .page
  | l :: ls =>
    match peek (t * 4096 + bits va (12 + 9 * l) 9 * 8) with
    | none => .access
    | some p =>
      if p % 2 = 0 ∨ bits p 1 2 = 2 ∨ p / 2 ^ 54 ≠ 0 then .page
      else if bits p 1 3 = 0 then (if bits p 4 1 = 1 ∨ bits p 6 2 ≠ 0 then .page else h.walk peek mode acc va (bits p 10 44) ls)
      else if h.leafOk p mode acc ∧ bits p 10 (9 * l) = 0 then
        .ok (bits p (10 + 9 * l) (44 - 9 * l) * 2 ^ (12 + 9 * l) + va % 2 ^ (12 + 9 * l))
      else .page

/-- The translation of a core's address for an access in a mode. -/
def UnitHart.translate (h : UnitHart) (peek : Nat → Option Nat) (mode acc va : Nat) : XAddr :=
  let satp := h.csr 0x180
  if mode = 3 ∨ satp / 2 ^ 60 = 0 then .ok va
  else
    let sv48 := satp / 2 ^ 60 == 9
    let n := if sv48 then 48 else 39
    if va / 2 ^ (n - 1) ≠ 0 ∧ va / 2 ^ (n - 1) ≠ 2 ^ (65 - n) - 1 then .page
    else h.walk peek mode acc va (satp % 2 ^ 44) (if sv48 then [3, 2, 1, 0] else [2, 1, 0])

/-- The mode of a core's loads and stores: that of MPP while MPRV is set. -/
def UnitHart.dataMode (h : UnitHart) : Nat := if h.mst 17 1 = 1 then h.mst 11 2 else h.mode

end Sys2Proof.Machine
end

