-- ==== Sys2Proof/Machine/UnitCores.lean ====
section
/-! DEFINITION. The control units as their cores see them (R406, R407, R409): the address map, the PLIC and the ACLINT, and what the cores
do as a REF cycle passes with no command waiting. -/

namespace Sys2Proof.Machine

/-- The command port of a unit. -/
def unitAgent (u : Nat) : Agent := if u = 0 then .phobos else .deimos

/-- Core `i` of unit `u`. -/
def State.hart (s : State) (u i : Nat) : UnitHart := (s.unit u).harts.getD i {}

/-- Set core `i` of unit `u`, if the unit runs. -/
def State.setHart (s : State) (u i : Nat) (h : UnitHart) : State := s.setUnit u { s.unit u with harts := (s.unit u).harts.set i h }

/-! ### The PLIC (R409) -/

/-- The priority of a source. -/
def PlicState.prioOf (p : PlicState) (k : Nat) : Nat := KMap.get (fun _ => 0) p.prio k

/-- Is a source enabled for a context? -/
def PlicState.enabled (p : PlicState) (c k : Nat) : Bool := bits (KMap.get (fun _ => 0) p.enable (4 * c + k / 32)) (k % 32) 1 == 1

/-- Of the sources that are pending and enabled for a context, the one of highest priority, the lowest among equals; 0 if there is none
above a priority. -/
def PlicState.best (p : PlicState) (c above : Nat) : Nat :=
  ((List.range 128).foldl (fun (b : Nat × Nat) k =>
    if p.pending.contains k && p.enabled c k && decide (b.2 < p.prioOf k) then (k, p.prioOf k) else b) (0, above)).1

/-- Does a context interrupt its core? -/
def PlicState.line (p : PlicState) (c : Nat) : Bool := p.best c (KMap.get (fun _ => 0) p.threshold c) != 0

/-- Each source whose line is high becomes pending, unless it is in service. -/
def PlicState.latch (p : PlicState) (high : Nat → Bool) : PlicState :=
  { p with pending := (List.range 128).filter (fun k =>
      decide (1 ≤ k) && (p.pending.contains k || (high k && !p.inService.contains k))) }

/-- R409: the line of a source at unit `u`: source 4 carries the unit's own CUX_U_IRQ bits; the others reach the owner alone, and nobody
in a gap (R419). (PRESUMED, log entry 149) -/
def State.plicSource (s : State) (u k : Nat) : Bool :=
  if k = 4 then (List.range 7).any (fun b => s.on ((F.CUX_U_IRQ_IRQ u).bitOf b) && s.on ((F.CUX_U_IRQ_EN_EN u).bitOf b))
  else
    s.owner == some u && s.cux.gap.isNone &&
      (if k < 64 then decide (k ≤ 0x21) && s.irqLevel k else s.reg (F.CUX_QIRQ_PEND_PEND (k - 64)).off != 0)

/-- A word of the PLIC at an offset, and the PLIC once it is read: a claim takes its source into service.
(PRESUMED, log entry 149) -/
def PlicState.read (p : PlicState) (o : Nat) : Nat × PlicState :=
  let c := (o - 0x200000) / 0x1000
  if o < 0x200 then (p.prioOf (o / 4), p)
  else if 0x1000 ≤ o ∧ o < 0x1010 then
    ((List.range 32).foldl (fun a b => a + (if p.pending.contains ((o - 0x1000) / 4 * 32 + b) then 2 ^ b else 0)) 0, p)
  else if 0x2000 ≤ o ∧ o < 0x2400 ∧ o % 0x80 < 0x10 then
    (KMap.get (fun _ => 0) p.enable ((o - 0x2000) / 0x80 * 4 + o % 0x80 / 4), p)
  else if 0x200000 ≤ o ∧ c < 8 ∧ o % 0x1000 = 0 then (KMap.get (fun _ => 0) p.threshold c, p)
  else if 0x200000 ≤ o ∧ c < 8 ∧ o % 0x1000 = 4 then
    let k := p.best c 0
    if k = 0 then (0, p) else (k, { p with pending := p.pending.filter (· != k), inService := p.inService ++ [k] })
  else (0, p)

/-- A word of the PLIC is written: a completion ends the service of a source enabled for the context. (PRESUMED, log entry 149) -/
def PlicState.write (p : PlicState) (o v : Nat) : PlicState :=
  let c := (o - 0x200000) / 0x1000
  if o < 0x200 then (if o / 4 = 0 then p else { p with prio := KMap.set (fun _ => 0) p.prio (o / 4) (v % 8) })
  else if 0x2000 ≤ o ∧ o < 0x2400 ∧ o % 0x80 < 0x10 then
    let w := if o % 0x80 / 4 = 0 then v / 2 * 2 else v
    { p with enable := KMap.set (fun _ => 0) p.enable ((o - 0x2000) / 0x80 * 4 + o % 0x80 / 4) w }
  else if 0x200000 ≤ o ∧ c < 8 ∧ o % 0x1000 = 0 then { p with threshold := KMap.set (fun _ => 0) p.threshold c (v % 8) }
  else if 0x200000 ≤ o ∧ c < 8 ∧ o % 0x1000 = 4 ∧ p.enabled c v then { p with inService := p.inService.filter (· != v) }
  else p

/-! ### The ACLINT (R406, R407) -/

/-- R406: mtime, and the time CSR: REF cycles since the cold reset, divided by 25. (PRESUMED, log entry 149) -/
def State.mtime (s : State) : Nat := (s.ref - s.cux.coldRef) / 25 % 2 ^ 64

/-- The timer compare value of core `i`. (PRESUMED, log entry 149) -/
def State.mtimecmp (s : State) (u i : Nat) : Nat := KMap.get (fun _ => 0) (s.unit u).mtimecmp i

/-- The word at `o` of a unit's ACLINT. (PRESUMED, log entry 149) -/
def State.aclintRead (s : State) (u o : Nat) : Nat :=
  let half (v : Nat) : Nat := if o % 8 = 4 then v / 2 ^ 32 else v % 2 ^ 32
  if o < 0x10 then KMap.get (fun _ => 0) (s.unit u).msip (o / 4)
  else if 0x4000 ≤ o ∧ o < 0x4020 then half (s.mtimecmp u ((o - 0x4000) / 8))
  else if 0xBFF8 ≤ o ∧ o < 0xC000 then half s.mtime
  else 0

/-- The word at `o` of a unit's ACLINT is written; mtime, which both units share, is not. (PRESUMED, log entry 149) -/
def State.aclintWrite (s : State) (u o v : Nat) : State :=
  if o < 0x10 then s.setUnit u { s.unit u with msip := KMap.set (fun _ => 0) (s.unit u).msip (o / 4) (v % 2) }
  else if 0x4000 ≤ o ∧ o < 0x4020 then
    let i := (o - 0x4000) / 8
    let old := s.mtimecmp u i
    let new := if o % 8 = 4 then old % 2 ^ 32 + v * 2 ^ 32 else old / 2 ^ 32 * 2 ^ 32 + v
    s.setUnit u { s.unit u with mtimecmp := KMap.set (fun _ => 0) (s.unit u).mtimecmp i new }
  else s

/-- What core `i` of unit `u` sees from outside: its mhartid, the time, and MSIP, MTIP, MEIP and SEIP. -/
def State.hartEnv (s : State) (u i : Nat) : HartEnv :=
  let p := (s.unit u).plic
  let bit (k : Nat) (b : Bool) : Nat := if b then 2 ^ k else 0
  { id := 4 * u + i
    time := s.mtime
    lines := bit 3 (KMap.get (fun _ => 0) (s.unit u).msip i != 0) + bit 7 (decide (s.mtimecmp u i ≤ s.mtime)) +
      bit 11 (p.line (2 * i)) + bit 9 (p.line (2 * i + 1)) }

/-! ### The address map (R407) -/

/-- The places of a unit's address map. -/
inductive UnitPlace where
  | fabric (a : Nat)
  | sram (o : Nat)
  | aclint (o : Nat)
  | plic (o : Nat)
  deriving DecidableEq, Repr

/-- R407: the place of an address, if there is one. -/
def unitPlace (a : Nat) : Option UnitPlace :=
  if a < 0x10000000000 then some (.fabric a)
  else if a < 0x10000200000 then some (.sram (a - 0x10000000000))
  else if 0x10002000000 ≤ a ∧ a < 0x10002010000 then some (.aclint (a - 0x10002000000))
  else if 0x10004000000 ≤ a ∧ a < 0x10008000000 then some (.plic (a - 0x10004000000))
  else none

/-- What fetches and page-table reads see: local SRAM and the fabric, without what a read does besides.
(DESIGN CHOICE, log entry 150) -/
def State.unitPeek (s : State) (u a n : Nat) : Option (List Byte) :=
  match unitPlace a with
  | some (.fabric a) => some (s.physRead a n)
  | some (.sram o) => some (s.sramRead u o n)
  | _ => none

/-- A word of the control space read by a unit; a read that gives no data is open. (DESIGN CHOICE, log entry 150) -/
def State.unitRegRead (s : State) (off : Nat) : List Byte × State :=
  let t := (s.setReadData []).busRead off
  if t.readData.length = 4 then (t.readData, t.setReadData s.readData)
  else
    let f := (t.setReadData s.readData).takeFree 32
    (leBytes 4 f.1, f.2)

/-- A word of the control space, the PLIC or the ACLINT read by a unit. -/
def State.unitWord (s : State) (u : Nat) : UnitPlace → List Byte × State
  | .fabric a => s.unitRegRead (a - 0x200000000)
  | .sram o => (s.sramRead u o 4, s)
  | .aclint o => (leBytes 4 (s.aclintRead u o), s)
  | .plic o =>
    let r := (s.unit u).plic.read o
    (leBytes 4 r.1, s.setUnit u { s.unit u with plic := r.2 })

/-- A place `k` bytes on. -/
def UnitPlace.plus (p : UnitPlace) (k : Nat) : UnitPlace :=
  match p with
  | .fabric a => .fabric (a + k)
  | .sram o => .sram (o + k)
  | .aclint o => .aclint (o + k)
  | .plic o => .plic (o + k)

/-- Registers are read by words; a narrower read of one is open. (DESIGN CHOICE, log entry 150) -/
def State.unitWords (s : State) (u : Nat) (p : UnitPlace) (n : Nat) : List Byte × State :=
  if n = 4 then s.unitWord u p
  else if n = 8 then
    let l := s.unitWord u p
    let h := l.2.unitWord u (p.plus 4)
    (l.1 ++ h.1, h.2)
  else
    let f := s.takeFree (8 * n)
    (leBytes n f.1, f.2)

/-- R407: a load of `n` bytes by a core of unit `u`. -/
def State.unitLoad (s : State) (u : Nat) (p : UnitPlace) (n : Nat) : List Byte × State :=
  match p with
  | .sram o => (s.sramRead u o n, s)
  | .fabric a => if s.place a = .control then s.unitWords u p n else (s.physRead a n, s.noteRead a n)
  | .aclint _ => s.unitWords u p n
  | .plic _ => s.unitWords u p n

/-- A word of the control space, the PLIC or the ACLINT written by a unit. -/
def State.unitPut (s : State) (u v : Nat) : UnitPlace → State
  | .fabric a => s.busWrite (unitAgent u) (a - 0x200000000) .word (BitVec.ofNat 32 v)
  | .sram o => s.sramWrite u o (leBytes 4 v)
  | .aclint o => s.aclintWrite u o v
  | .plic o => s.setUnit u { s.unit u with plic := (s.unit u).plic.write o v }

/-- Registers are written by words, two for a double word. (DESIGN CHOICE, log entry 150) -/
def State.unitPuts (s : State) (u : Nat) (p : UnitPlace) (n v : Nat) : State :=
  if n = 8 then (s.unitPut u (v % 2 ^ 32) p).unitPut u (v / 2 ^ 32) (p.plus 4) else s.unitPut u v p

/-- R407: a store of `n` bytes by a core of unit `u`: into the control space through its command port (R411); the PLIC and the ACLINT
discard a store narrower than a word. (DESIGN CHOICE, log entry 150) -/
def State.unitStore (s : State) (u : Nat) (p : UnitPlace) (n v : Nat) : State :=
  match p with
  | .sram o => s.sramWrite u o (leBytes n v)
  | .fabric a =>
    if s.place a ≠ .control then s.physWrite a (leBytes n v)
    else if n < 4 then s.busWrite (unitAgent u) (a - 0x200000000) (if n = 1 then .byte else .half) (BitVec.ofNat 32 v)
    else s.unitPuts u p n v
  | .aclint _ => if n < 4 then s else s.unitPuts u p n v
  | .plic _ => if n < 4 then s else s.unitPuts u p n v

/-! ### One instruction (R406) -/

/-- The physical place of an access by a core, or the cause of its exception: translation, protection and the address map. The causes are
those of a fetch, a load or a store. -/
def State.hartPlace (s : State) (u : Nat) (h : UnitHart) (acc va n : Nat) : Nat ⊕ Nat :=
  let peek (a : Nat) : Option Nat := if h.pmpOk 1 0 a 8 then (s.unitPeek u a 8).map le else none
  let mode := if acc = 2 then h.mode else h.dataMode
  let access := match acc with | 0 => 5 | 1 => 7 | _ => 1
  let page := match acc with | 0 => 13 | 1 => 15 | _ => 12
  match h.translate peek mode acc va with
  | .page => .inl page
  | .access => .inl access
  | .ok a => if h.pmpOk mode acc a n && (unitPlace a).isSome then .inr a else .inl access

/-- What a core fetches: an instruction of 32 bits with its length, an undefined compressed one, or an exception at an address. -/
inductive HartFetch where
  | word (w len : Nat)
  | undefined
  | bad (cause tval : Nat)
  deriving DecidableEq, Repr

/-- A parcel of 16 bits, or the cause of the exception of its fetch. -/
def State.hartParcel (s : State) (u : Nat) (h : UnitHart) (va : Nat) : Nat ⊕ Nat :=
  match s.hartPlace u h 2 va 2 with
  | .inl c => .inl c
  | .inr a =>
    match s.unitPeek u a 2 with
    | some b => .inr (le b)
    | none => .inl 1

/-- The instruction at a core's pc. -/
def State.hartFetch (s : State) (u : Nat) (h : UnitHart) : HartFetch :=
  match s.hartParcel u h h.pc with
  | .inl c => .bad c h.pc
  | .inr lo =>
    if lo % 4 ≠ 3 then (match expandC64 lo with | some w => .word w 2 | none => .undefined)
    else
      let va := (h.pc + 2) % 2 ^ 64
      match s.hartParcel u h va with
      | .inl c => .bad c va
      | .inr hi => .word (hi * 65536 + lo) 4

/-- An instruction of core `i` ends: minstret counts it, unless inhibited; `h` is the core after it. -/
def State.hartEnd (s : State) (u i : Nat) (h : UnitHart) : State :=
  let h := { h with resv := (s.hart u i).resv }
  s.setHart u i (if bits (h.csr 0x320) 2 1 = 1 then h else h.setCsr 0xB02 (h.csr 0xB02 + 1))

/-- An exception of core `i`, with its tval or with the one RISC-V leaves open. (PRESUMED, log entry 148) -/
def State.hartTrap (s : State) (u i cause : Nat) (tval : Option Nat) : State :=
  match tval with
  | some v => s.setHart u i ((s.hart u i).trap false cause v)
  | none =>
    let f := s.takeFree 64
    f.2.setHart u i ((f.2.hart u i).trap false cause f.1)

/-- A load: `put` takes the number into the registers. -/
def State.hartLoad (s : State) (u i a n len : Nat) (put : UnitHart → Nat → UnitHart) : State :=
  let h := s.hart u i
  if a % n ≠ 0 then s.hartTrap u i 4 (some a)
  else
    match s.hartPlace u h 0 a n with
    | .inl c => s.hartTrap u i c (some a)
    | .inr pa =>
      match unitPlace pa with
      | none => s.hartTrap u i 5 (some a)
      | some p =>
        let r := s.unitLoad u p n
        r.2.hartEnd u i ((put h (le r.1)).go len)

/-- A store of `n` bytes. -/
def State.hartStore (s : State) (u i a n v len : Nat) : State :=
  let h := s.hart u i
  if a % n ≠ 0 then s.hartTrap u i 6 (some a)
  else
    match s.hartPlace u h 1 a n with
    | .inl c => s.hartTrap u i c (some a)
    | .inr pa =>
      match unitPlace pa with
      | none => s.hartTrap u i 7 (some a)
      | some p => (s.unitStore u p n v).hartEnd u i (h.go len)

/-- A number of `n` bytes as a 64-bit register takes it. -/
def extended (n v : Nat) (sgn : Bool) : Nat := if sgn then wrapN 64 (signed (8 * n) v) else v

/-- The offset in local SRAM that an atomic access reaches: elsewhere it is refused. (DESIGN CHOICE, log entry 150) -/
def State.atomicPlace (s : State) (u : Nat) (h : UnitHart) (acc a n : Nat) : Nat ⊕ Nat :=
  let misaligned := if acc = 0 then 4 else 6
  let access := if acc = 0 then 5 else 7
  if a % n ≠ 0 then .inl misaligned
  else
    match s.hartPlace u h acc a n with
    | .inl c => .inl c
    | .inr pa =>
      match unitPlace pa with
      | some (.sram o) => .inr o
      | _ => .inl access

/-- LR: the bytes are reserved. -/
def State.hartLr (s : State) (u i a n rd : Nat) : State :=
  match s.atomicPlace u (s.hart u i) 0 a n with
  | .inl c => s.hartTrap u i c (some a)
  | .inr o =>
    let s := s.setHart u i { s.hart u i with resv := some (o, n) }
    s.hartEnd u i (((s.hart u i).wx rd (extended n (le (s.sramRead u o n)) true)).go 4)

/-- SC: the store takes place when the bytes are still reserved; the reservation ends. -/
def State.hartSc (s : State) (u i a n rd v : Nat) : State :=
  let h := s.hart u i
  match s.atomicPlace u h 1 a n with
  | .inl c => s.hartTrap u i c (some a)
  | .inr o =>
    if h.resv = some (o, n) then (s.sramWrite u o (leBytes n v)).hartEnd u i ((h.wx rd 0).go 4)
    else (s.setHart u i { h with resv := none }).hartEnd u i ((h.wx rd 1).go 4)

/-- An atomic operation. -/
def State.hartAmo (s : State) (u i op a n rd v : Nat) : State :=
  let h := s.hart u i
  match s.atomicPlace u h 1 a n with
  | .inl c => s.hartTrap u i c (some a)
  | .inr o =>
    let old := le (s.sramRead u o n)
    (s.sramWrite u o (leBytes n (amoOp (8 * n) op old (v % 2 ^ (8 * n))))).hartEnd u i ((h.wx rd (extended n old true)).go 4)

/-- A CSR instruction. Its write follows what the instruction does besides. -/
def State.hartCsr (s : State) (u i n f3 rd src : Nat) (write : Bool) : State :=
  let h := s.hart u i
  match h.readCsr (s.hartEnv u i) n with
  | none => s.hartTrap u i 2 none
  | some old =>
    if !h.csrOk n write then s.hartTrap u i 2 none
    else
      let s := s.hartEnd u i ((h.wx rd old).go 4)
      if write then s.setHart u i ((s.hart u i).writeCsr n (h.csrNew n f3 old src)) else s

/-- What an instruction comes to takes effect. -/
def State.hartDo (s : State) (u i len : Nat) (a : HartAct) : State :=
  match a with
  | .done h => s.hartEnd u i h
  | .load a n rd sgn => s.hartLoad u i a n len (fun h v => h.wx rd (extended n v sgn))
  | .loadF a n rd => s.hartLoad u i a n len (fun h v => h.wfAll rd (boxed (if n = 8 then fmtD else fmtS) v))
  | .store a n v => s.hartStore u i a n v len
  | .amo op a n rd v => s.hartAmo u i op a n rd v
  | .lr a n rd => s.hartLr u i a n rd
  | .sc a n rd v => s.hartSc u i a n rd v
  | .csr n f3 rd src write => s.hartCsr u i n f3 rd src write
  | .system _ => s
  | .trap cause tval => s.hartTrap u i cause tval

/-- An instruction of core `i` is executed: what it comes to, the privileged part's answer where it asks that. -/
def State.hartExec (s : State) (u i w len : Nat) : State :=
  let h := s.hart u i
  match h.act w len with
  | .system w => s.hartDo u i len (h.system w)
  | a => s.hartDo u i len a

/-- R406: core `i` of unit `u` takes an interrupt, or executes the instruction at its pc. (DESIGN CHOICE, log entry 150) -/
def State.hartStep (s : State) (u i : Nat) : State :=
  let h := s.hart u i
  match h.interrupt (s.hartEnv u i) with
  | some c => s.setHart u i (h.trap true c 0)
  | none =>
    match s.hartFetch u h with
    | .word w len => s.hartExec u i w len
    | .undefined => s.hartTrap u i 2 none
    | .bad c va => s.hartTrap u i c (some va)

/-! ### A REF cycle -/

/-- R410, R449, R471: does core `i` of unit `u` run? Not in a unit that is OFF, during a relock, or while the debug module halts it.
(DESIGN CHOICE, log entry 150) -/
def State.hartRuns (s : State) (u i : Nat) : Bool :=
  s.ustate u != 0 && decide (i < (s.unit u).harts.length) && s.pwr.relock != some u && !(s.unit u).halted.contains (4 * u + i)

/-- R451: cclk of unit `u`, in MHz. -/
def State.cclkMHz (s : State) (u : Nat) : Nat :=
  match s.rd (F.CLK_CCLK_SEL u) with
  | 0 => 2000 | 1 => 1600 | 2 => 1200 | _ => 800

/-- mcycle of a core that runs advances by the cclk cycles of a REF cycle, unless inhibited. (DESIGN CHOICE, log entry 150) -/
def State.hartCycles (s : State) (u i : Nat) : State :=
  let h := s.hart u i
  let at_ (r : Nat) : Nat := r * s.cclkMHz u * 4 / 625
  if bits (h.csr 0x320) 0 1 = 1 then s else s.setHart u i (h.setCsr 0xB00 (h.csr 0xB00 + (at_ (s.ref + 1) - at_ s.ref)))

/-- R406, R409: the cores of unit `u` in a REF cycle: its PLIC takes the lines, then each core that runs acts, in order.
(DESIGN CHOICE, log entry 150) -/
def State.unitCycle (s : State) (u : Nat) : State :=
  if s.ustate u = 0 then s
  else
    let s := s.setUnit u { s.unit u with plic := (s.unit u).plic.latch (s.plicSource u) }
    s.each (List.range 4) (fun i s => if s.hartRuns u i then (s.hartStep u i).hartCycles u i else s)

/-- One REF cycle with no command waiting: the engines, the control units' cores, the idle counts and the counters.
(DESIGN CHOICE, log entry 1; DEDUCED, log entry 27) -/
def State.tick (s : State) : State :=
  let t := s.each ((List.range 128).filter (fun k => (s.engine k).running.isSome)) (fun k s => s.coreStep k)
  let t := ((((t.unitCycle 0).unitCycle 1).countIdle).countCycles).countEvents
  t.setRef (s.ref + 1)

end Sys2Proof.Machine
end

