-- ==== Sys2Proof/Machine/Step.lean ====
section
/-! DEFINITION. One step of the block: the command at the front of the queue, or one REF cycle of idling. -/

namespace Sys2Proof.Machine

/-- One step: the command at the front of the queue acts on the state with the queue's rest. With no command waiting, one REF cycle
passes: engines execute their kernels, the control units' cores their firmware, and counters of what no command stands for move.
(DESIGN CHOICE, log entries 1, 133) -/
def step (s : State) : Host.Outcome State Fault Refusal :=
  match s.pending with
  | [] => .next s.tick
  | c :: rest => exec c (s.setPending rest)

/-- The state with the command that a word spells put at the front of the queue; the state itself where the word spells
none. (DESIGN CHOICE, log entry 2) -/
def State.withFetchWord (s : State) (nbits w : Nat) : State :=
  match decodeTableWord nbits w with
  | some c => s.setPending (c :: s.pending)
  | none => s

end Sys2Proof.Machine
end

