-- ==== Sys2Proof/Safety.lean ====
section
/-! DEFINITION. What every step keeps and what a command may touch, in the terms the claims use: memory and the register file stay
in their one canonical form, no discovery register is ever written (R1), and a frame names the parts a command may change. -/

namespace Sys2Proof.Machine

/-- The invariant of the block: sparse memory and the sparse register file are in canonical form (so equal contents are equal
data), and no discovery register is listed (R1: they hold their values in every power state and through every reset). -/
structure State.Inv (s : State) : Prop where
  /-- Memory is in canonical form. -/
  mem : KMap.wf (memDefault s.memGen) s.mem = true
  /-- The register file is in canonical form. -/
  regs : KMap.wf regReset s.regs = true
  /-- No discovery register is listed. -/
  disc : ∀ e ∈ s.regs, isDiscovery e.1 = false

/-- The parts of the state that a frame speaks about: every field but the queue. -/
inductive Part where
  | ref
  | free
  | readData
  | regs
  | mem
  | seals
  | ckv
  | str
  | hq
  | sch
  | xlt
  | movers
  | qdr
  | eng
  | hif
  | cux
  | ptp
  | tpo
  | slk
  | intakes
  | mag
  | enc
  | dec
  | cmp
  | net
  | aud
  | pwr
  | boot
  | mnt
  | upd
  deriving DecidableEq, Repr

/-- Part `p` is the same in both states. Memory is its cells and what its unlisted addresses read as. -/
def Part.same (p : Part) (s t : State) : Prop :=
  match p with
  | .ref => t.ref = s.ref
  | .free => t.free = s.free
  | .readData => t.readData = s.readData
  | .regs => t.regs = s.regs
  | .mem => t.mem = s.mem ∧ t.memGen = s.memGen
  | .seals => t.seals = s.seals
  | .ckv => t.ckv = s.ckv
  | .str => t.str = s.str
  | .hq => t.hq = s.hq
  | .sch => t.sch = s.sch
  | .xlt => t.xlt = s.xlt
  | .movers => t.movers = s.movers
  | .qdr => t.qdr = s.qdr
  | .eng => t.eng = s.eng
  | .hif => t.hif = s.hif
  | .cux => t.cux = s.cux
  | .ptp => t.ptp = s.ptp
  | .tpo => t.tpo = s.tpo
  | .slk => t.slk = s.slk
  | .intakes => t.intakes = s.intakes
  | .mag => t.mag = s.mag
  | .enc => t.enc = s.enc
  | .dec => t.dec = s.dec
  | .cmp => t.cmp = s.cmp
  | .net => t.net = s.net
  | .aud => t.aud = s.aud
  | .pwr => t.pwr = s.pwr
  | .boot => t.boot = s.boot
  | .mnt => t.mnt = s.mnt
  | .upd => t.upd = s.upd

/-- A frame: the commands that wait are the same, and so is every part that `ps` does not name. -/
def State.Frame (ps : List Part) (s t : State) : Prop := t.pending = s.pending ∧ ∀ p, p ∉ ps → p.same s t

/-- The command's effect is a next state, and `P` holds of it. -/
def Completes (c : Instr) (s : State) (P : State → Prop) : Prop := ∃ t, exec c s = .next t ∧ P t

/-- R411, R413: the gate lets a write to the register of field `f` through, and the write is mirrored. -/
def State.Passes (s : State) (src : Agent) (f : Fld) : Prop := s.gate src f.off = .pass true

/-- R155, R165, R222: the task in slot `slot` acts on engine `k`: the engine runs it, none of its accesses waits for a fault, and what
is left of the library's work on the tile it got has been done, after which it is still so and the task is `x`. -/
def State.Acts (s : State) (k slot : Nat) (x : Task) : Prop :=
  (s.running k).map (fun e => e.1) = some slot ∧ s.engineHeld k = false ∧
  (s.libraryWork k slot).running k = some (slot, x) ∧ (s.libraryWork k slot).engineHeld k = false

/-- A table that lies in plain memory alone, which no register write changes. -/
def State.PlainTable (s : State) (x : Table) : Prop := ∀ k < x.bodyLen, s.place (x.addr + k) = .tile ∨ s.place (x.addr + k) = .qdr

/-- R195 to R197: a packet of type `typ` that arrives without a code error, with both CRCs, its reserved bytes 0 and the payload
its LEN counts. -/
def goodPacket (typ : Nat) (p : SlkPacket) : Prop :=
  p.errors = [] ∧ p.header.length = 16 ∧ crc 2 0 (p.header.take 14) = pktFld p 14 2 ∧ pktFld p 0 1 = typ ∧ pktFld p 12 2 = 0 ∧
  p.payload.length = pktFld p 4 2 ∧ (p.payload ≠ [] → crc 0 0 p.payload = p.crc.toNat)

/-- Every part. -/
def allParts : List Part :=
  [.ref, .free, .readData, .regs, .mem, .seals, .ckv, .str, .hq, .sch, .xlt, .movers, .qdr, .eng, .hif, .cux, .ptp, .tpo, .slk,
    .intakes, .mag, .enc, .dec, .cmp, .net, .aud, .pwr, .boot, .mnt, .upd]

/-- The parts of the state that a command may change. -/
def touched : Instr → List Part
  | .registerWrite .. | .closing .. | .magLost .. | .bar0Access .. | .underVoltageLockout .. | .overTemp .. | .duskStepEnd .. |
    .porst .. | .warmReset .. | .activationPoint .. =>
    allParts
  | .sealHaltClr .. =>
    [.regs, .seals, .cux]
  | .sealEvtPop .. | .clrCounts .. | .histClr .. | .clrHigh .. | .qdrErrPop .. | .magPCfga .. | .extCountWrite .. | .rateWrite ..
    | .netCfgWrite .. | .audGroupWrite .. | .cuxUKick .. | .jtxDb .. | .pathDown .. | .ownershipLost .. | .returnPref .. |
    .drillEnd .. | .dmi .. =>
    [.regs, .cux]
  | .ckvStart .. | .ckvDataWrite .. =>
    [.regs, .ckv, .cux]
  | .ckvByteConsumed .. =>
    [.regs, .ckv]
  | .ckvResultRead .. =>
    [.readData, .regs, .ckv]
  | .load .. | .arm .. | .strCancel .. | .retireForce .. =>
    [.regs, .str, .hq, .hif, .cux, .net]
  | .validationDone .. | .timebaseLost .. =>
    [.regs, .str]
  | .preparationDone .. | .timebaseEpoch .. | .frameBoundary .. =>
    [.regs, .mem, .seals, .str, .hq, .sch, .xlt, .movers, .qdr, .eng, .hif, .intakes, .mag, .enc, .dec, .cmp, .net, .aud, .pwr]
  | .hqAlloc .. | .hqQcfgWrite .. | .enable .. | .disable .. | .qcmdFree .. | .flush .. | .clearHighWater .. =>
    [.regs, .hq, .cux]
  | .hqDbPush .. | .hqDbPop .. =>
    [.regs, .mem, .hq, .qdr, .hif, .cux]
  | .descriptorWriteDenied .. | .sysregWrite .. =>
    [.regs, .mem, .qdr, .hif]
  | .reservation .. | .reservationRetry .. =>
    [.hq]
  | .entryCommit .. =>
    [.regs, .mem, .hq, .qdr, .hif, .pwr]
  | .entryPop .. =>
    [.regs, .hq]
  | .taskCreate .. =>
    [.regs, .hq, .sch, .pwr]
  | .taskDispatch .. =>
    [.free, .regs, .mem, .str, .sch, .movers, .eng]
  | .preemptRequest .. =>
    [.regs, .sch, .xlt, .eng]
  | .preemptGraceExpiry .. =>
    [.free, .regs, .mem, .str, .hq, .sch, .xlt, .eng]
  | .taskResume .. =>
    [.regs, .sch, .xlt, .movers, .eng]
  | .schCancel .. =>
    [.regs, .mem, .hq, .sch, .xlt, .movers, .qdr, .eng, .hif, .cux, .pwr]
  | .loadWindowEnd .. =>
    [.regs, .sch, .eng]
  | .holeAccess .. =>
    [.free, .readData, .regs, .mem, .str, .hq, .sch, .xlt, .movers, .eng]
  | .qdrReadCheck .. =>
    [.readData, .regs, .mem, .qdr]
  | .retrain .. =>
    [.regs, .qdr, .cux]
  | .driftLimit .. | .cdrLocked .. | .syncHoldover .. | .aoPpbMeasure .. | .tpoCapture .. | .gpioEdge .. | .heartbeat .. |
    .lowInput .. | .lowin1s .. | .idleCountExpiry .. | .hostLinkUp .. =>
    [.regs]
  | .xltSpaceReq .. | .spaceEnable .. | .spaceDisable .. | .spaceFree .. | .spaceRootWrite .. | .xltInvCmd .. =>
    [.regs, .xlt, .cux]
  | .invalidationDone .. =>
    [.regs, .xlt]
  | .translationFault .. | .faultQueueWaitEnd .. =>
    [.free, .regs, .mem, .str, .hq, .sch, .xlt, .movers, .eng]
  | .retry .. | .abort .. | .retrySpace .. =>
    [.regs, .mem, .hq, .sch, .xlt, .movers, .qdr, .eng, .hif, .cux, .enc, .pwr]
  | .dmaDb .. =>
    [.regs, .movers, .cux]
  | .descriptorExecute .. | .ppt .. | .hostOutTile .. =>
    [.free, .regs, .mem, .str, .hq, .sch, .xlt, .movers, .qdr, .eng, .hif]
  | .descriptorComplete .. =>
    [.regs, .mem, .movers, .qdr, .hif]
  | .tget .. | .tchk .. | .dmaTaskComplete .. =>
    [.free, .regs, .mem, .seals, .str, .hq, .sch, .xlt, .movers, .qdr, .eng, .hif, .pwr]
  | .tput .. | .qsig .. | .qwait .. | .ecall .. | .engineTrap .. | .hostInEntry .. =>
    [.free, .regs, .mem, .str, .hq, .sch, .xlt, .movers, .qdr, .eng, .hif, .pwr]
  | .install .. | .libLoad .. | .cntClr .. =>
    [.regs, .eng, .cux]
  | .libOperationDone .. =>
    [.regs, .eng]
  | .groupEnable .. | .slkCntClr .. =>
    [.regs, .mem, .str, .hq, .qdr, .hif, .cux, .slk, .intakes, .pwr, .mnt]
  | .laneAligned .. | .seqEntry .. | .seqRspTimeout .. | .mirror .. | .testRunEnd .. | .clockWindowEnd .. | .glitch .. =>
    [.regs, .slk]
  | .laneAlignLoss .. | .deskew .. | .laneUnderrun .. | .clockLost .. =>
    [.regs, .mem, .str, .hq, .qdr, .hif, .slk, .intakes, .pwr]
  | .fs .. | .fe .. | .line .. | .emb .. | .cmdRsp .. | .test .. =>
    [.regs, .mem, .seals, .str, .hq, .sch, .xlt, .movers, .qdr, .eng, .hif, .slk, .intakes, .mag, .enc, .dec, .cmp, .net, .aud,
      .pwr]
  | .tileRowEmit .. =>
    [.regs, .mem, .str, .hq, .qdr, .hif, .intakes, .pwr]
  | .seqStart .. | .seqStop .. | .testGo .. =>
    [.regs, .cux, .slk]
  | .spareTakeover .. | .release .. =>
    [.regs, .cux, .slk, .mnt]
  | .spareMatch .. | .spareFail .. | .deferredActivityStart .. =>
    [.regs, .slk, .mnt]
  | .magPortEnable .. | .hwqEn .. =>
    [.regs, .cux, .mag]
  | .magShutdownEnd .. | .magLinkChange .. | .magTimeout .. =>
    [.regs, .mag]
  | .inboundRequest .. =>
    [.readData, .regs, .mem]
  | .frameAdmit .. | .recordingTile .. =>
    [.regs, .mem, .hq, .mag]
  | .frameDrain .. | .nvmeCompletion .. | .recordAcknowledged .. =>
    [.regs, .mem, .mag]
  | .start .. | .stop .. | .takeAbort .. =>
    [.regs, .mem, .cux, .mag]
  | .encInputTile .. =>
    [.free, .regs, .mem, .seals, .str, .hq, .sch, .xlt, .movers, .eng, .enc, .pwr]
  | .contextSwitch .. | .encShutdownEnd .. =>
    [.regs, .enc]
  | .ctuRowCode .. =>
    [.free, .regs, .mem, .str, .hq, .sch, .xlt, .movers, .qdr, .eng, .hif, .enc, .pwr]
  | .key .. | .markLt .. | .useLt .. | .encStreamEnable .. =>
    [.regs, .cux, .enc]
  | .decInputChunk .. =>
    [.regs, .mem, .seals, .str, .hq, .dec]
  | .decPictureOutput .. =>
    [.regs, .mem, .hq, .qdr, .hif, .dec, .pwr]
  | .layerTile .. =>
    [.regs, .mem, .seals, .str, .hq, .cmp]
  | .headEnable .. =>
    [.regs, .str, .cux, .pwr]
  | .headUnderrun .. =>
    [.regs, .cmp]
  | .go .. | .commitCancel .. =>
    [.regs, .cux, .cmp]
  | .coefLoadDone .. =>
    [.cmp]
  | .sdiEnable .. | .forceAwake .. | .clkCclkWrite .. =>
    [.regs, .cux, .pwr]
  | .netPortEnable .. =>
    [.regs, .cux, .net, .mnt]
  | .netLinkChange .. | .senderPacketDue .. | .gateListChange .. | .delayReq .. =>
    [.regs, .net]
  | .frameReceive .. =>
    [.regs, .mem, .hq, .qdr, .hif, .net, .pwr]
  | .softwareFrameTx .. =>
    [.regs, .hq, .net]
  | .senderTile .. =>
    [.regs, .mem, .seals, .str, .hq, .net]
  | .frameTransmit .. | .ptpMasterSend .. | .minDelayReqInterval .. =>
    [.regs, .ptp, .net]
  | .commit .. | .gateCancel .. | .tsnIdleWrite .. | .tsnHiWrite .. =>
    [.regs, .cux, .net]
  | .gateEntryChange .. =>
    [.net]
  | .sync .. | .announce .. | .ptpMasterLost .. | .ppsLost .. =>
    [.regs, .ptp]
  | .followUp .. =>
    [.ptp]
  | .delayResp .. | .ppsEdge .. =>
    [.regs, .ptp, .tpo, .net, .aud]
  | .setTime .. | .adjust .. | .latch .. =>
    [.regs, .cux, .ptp, .tpo, .net, .aud]
  | .tpoEnable .. =>
    [.regs, .cux, .tpo]
  | .tpoPulseStart .. | .tpoPulseEnd .. =>
    [.tpo]
  | .samplePeriod .. =>
    [.regs, .mem, .str, .hq, .qdr, .hif, .aud, .pwr]
  | .audTxTile .. =>
    [.regs, .seals, .str, .hq, .aud]
  | .audPortEnable .. | .txMute .. =>
    [.regs, .cux, .aud]
  | .zcTimeout .. | .audClockChange .. =>
    [.regs, .aud]
  | .bar2Access .. =>
    [.readData, .regs, .mem, .xlt, .qdr, .hif]
  | .cplTimeout .. =>
    [.readData, .regs]
  | .hostReset .. | .msixMessage .. | .uartReceive .. =>
    [.regs, .hif]
  | .hifChDb .. | .xspiGo .. =>
    [.regs, .hif, .cux]
  | .i2cTransfer .. =>
    [.readData, .regs, .hif]
  | .claim .. | .force .. | .yield .. | .ready .. | .declareFault .. | .clearFault .. | .drill .. | .selfFault .. | .restartUnit
    .. =>
    [.regs, .cux, .boot, .upd]
  | .switchOverGapEnd .. | .doorbellHold .. =>
    [.regs, .mem, .hq, .movers, .qdr, .hif, .cux]
  | .tempWarn .. | .telemetrySample .. | .islandDemand .. =>
    [.regs, .pwr]
  | .sleep .. =>
    [.regs, .mem, .cux, .mag, .pwr, .upd]
  | .wakeSource .. | .coldStart .. =>
    [.regs, .mem, .qdr, .hif, .cux, .ptp, .pwr, .boot]
  | .islandAwake .. =>
    [.regs, .sch, .pwr]
  | .islandAsleep .. | .bistRunning .. =>
    [.regs, .mem, .pwr]
  | .clkFclkWrite .. | .now .. =>
    [.regs, .cux, .mnt]
  | .clockSwitch .. =>
    [.regs, .pwr, .mnt]
  | .unitRelease .. | .fuseProgCmd .. =>
    [.regs, .cux, .boot]
  | .keeperWatchdog .. =>
    [.regs, .boot]
  | .kprHostGo .. =>
    [.regs, .mem, .qdr, .hif, .cux, .pwr, .boot]
  | .idread .. | .idcode .. =>
    [.readData]
  | .bistGo .. | .bistAbort .. =>
    [.regs, .mem, .str, .hq, .qdr, .hif, .cux, .slk, .intakes, .net, .pwr, .mnt]
  | .bistDone .. =>
    [.regs, .mem, .str, .hq, .qdr, .hif, .slk, .intakes, .net, .pwr, .mnt]
  | .calTempTrigger .. =>
    [.regs, .mnt]
  | .calPosition .. =>
    [.regs, .mem, .str, .hq, .qdr, .hif, .slk, .intakes, .pwr, .mnt]
  | .stage .. | .activate .. | .updCancel .. =>
    [.regs, .cux, .upd]
  | .stagingDone .. =>
    [.regs, .boot, .upd]
  | .handoverStep .. =>
    [.regs, .mem, .qdr, .hif, .cux, .boot, .upd]
  | .handoverTimeout .. =>
    [.regs, .upd]
  | .busMasterEnable .. =>
    [.hif]
  | .fuseReadBack .. =>
    [.free, .regs, .boot]

/-- The registers, by control-space offset, that an event may change besides the MSI-X pending bits, for the events whose effect stays
within a few registers. -/
def eventRegisters : Instr → Option (List Nat)
  | .lowInput | .lowin1s | .tempWarn _ => some [F.PWR_STATUS_STATUS.off]
  | .telemetrySample .. => some [F.PWR_VIN_VIN.off, F.PWR_IIN_MA.off, F.PWR_PIN_MW.off, F.PWR_STATUS_LOWIN.off, F.PWR_TEMP_CUR.off,
      F.CAL_TEMP_CUR.off]
  | .islandDemand i | .islandAsleep i => some [(F.PWR_ISL_STATE i).off, (F.PWR_ISL_WAKES_COUNT i).off]
  | .islandAwake i | .idleCountExpiry i => some [(F.PWR_ISL_STATE i).off]
  | .clockSwitch _ => some [F.CLK_STATUS_STATUS.off, F.BIST_STATUS_MAINT_ACTIVE.off]
  | .hostLinkUp .. | .uartReceive .. | .i2cTransfer .. => some [F.HIF_STATUS_STATUS.off]
  | .cplTimeout _ => some [F.HIF_OB_DROP_COUNT.off, F.HIF_STATUS_STATUS.off]
  | .msixMessage => some []
  | .gpioEdge .. => some [F.GPIO_IN_V.off, F.GPIO_IRQ_V.off]
  | .heartbeat u _ => some [(F.CUX_U_STATE_STATE u).off, (F.CUX_U_IRQ_IRQ u).off, F.CUX_STATUS_STATUS.off]
  | .pathDown u _ => some [(F.CUX_U_STATE_STATE u).off, (F.CUX_U_IRQ_IRQ u).off, F.CUX_STATUS_STATUS.off, F.CUX_MISS_L_COUNT.off,
      F.CUX_MISS_K_COUNT.off, F.CUX_OWNER_GAP.off]
  | .returnPref => some [F.CUX_OWNER_GAP.off]
  | .unitRelease u => some [(F.CUX_U_STATE_STATE u).off, F.PWR_STATUS_DAY.off, F.DBG_STATUS_HALTED.off]
  | .dmi .. => some [F.DBG_STATUS_HALTED.off]
  | .bistRunning n => some ([(F.BIST_S_STATUS_STATE n).off, F.BIST_STATUS_ACTIVE.off] ++
      (List.range 0x15).map (fun i => (F.PWR_ISL_STATE i).off))
  | .calTempTrigger => some [F.CAL_TEMP_LAST.off, F.CAL_STATUS_STATUS.off, F.BIST_STATUS_MAINT_ACTIVE.off]
  | .handoverTimeout => some [F.UPD_STATUS_STATE.off]
  | .stagingDone _ => some [F.UPD_STATUS_STATE.off, F.UPD_ERR_LOC_PART.off, F.UPD_RELEASE_V.off, F.UPD_PROGRESS_V.off]
  | .fuseReadBack _ => some ([F.FUSE_LOCKS_OWNER_LOCK.off, F.FUSE_PROG_STATUS_BUSY.off, F.DBG_STATUS_CLOSED.off] ++
      (List.range 8).map (fun k => (F.FUSE_OWNER_HASH_V k).off))
  | .tpoCapture n => some [(F.TPO_CAP_SEC_LO_SEC n).off, (F.TPO_CAP_SEC_HI_SEC n).off, (F.TPO_CAP_NS_NS n).off,
      (F.TPO_CAP_COUNT_COUNT n).off]
  | .aoPpbMeasure _ => some [F.PTP_AO_PPB_V.off]
  | .sync _ => some [F.PTP_SYNC_RX_COUNT.off]
  | .cdrLocked l => some [(F.SLK_L_STATUS_LSTATE l).off]
  | .zcTimeout p _ => some [(F.AUD_P_ZC_TMO_COUNT p).off, (F.AUD_P_STATUS_STATUS p).off, F.AUD_STATUS_STATUS.off]
  | .audClockChange p _ _ _ => some [(F.AUD_P_GLITCH_COUNT p).off, (F.AUD_P_CLK_PPM p).off, (F.AUD_P_STATUS_STATUS p).off,
      F.AUD_STATUS_STATUS.off]
  | .syncHoldover h _ => some [(F.CMP_H_STATUS_STATUS h).off, F.CMP_STATUS_STATUS.off]
  | .headUnderrun h _ _ => some [(F.CMP_H_STATUS_STATUS h).off, F.CMP_STATUS_STATUS.off, (F.CMP_H_UNDERRUN_COUNT h).off]
  | .magShutdownEnd p => some [(F.MAG_P_STATUS_PSTATE p).off, F.MAG_STATUS_PORT_IRQ.off]
  | .netLinkChange p _ => some [(F.NET_P_STATUS_STATUS p).off, F.NET_STATUS_STATUS.off, (F.NET_P_DOWN_DROP_COUNT p).off]
  | .driftLimit c _ => some [(F.QDR_DRIFT_OFFSET c).off, F.QDR_STATUS_STATUS.off]
  | .qdrReadCheck .. => some ([F.QDR_STATUS_STATUS.off, F.QDR_ERR_ADDR_LO_ADDR.off, F.QDR_ERR_ADDR_HI_ADDR.off] ++
      (List.range 8).map (fun c => (F.QDR_CRC_RETRY_COUNT c).off) ++ (List.range 8).map (fun c => (F.QDR_CRC_ERR_COUNT c).off))
  | .invalidationDone => some [F.XLT_STATUS_INV_BUSY.off]
  | .validationDone => some [F.STR_STATUS_STATUS.off, F.STR_ERR_LOC_SECTION.off, F.STR_SHADOW_ID_IMAGE_ID.off]
  | .timebaseLost _ => some [F.STR_STATUS_STATUS.off]
  | _ => none

/-- The registers that a register write may change besides those of the CUX block and the MSI-X pending bits (R413: every write that
passes the gate is mirrored), for the writes whose effect stays within a few registers. -/
def writeRegisters : Instr → Option (List Nat)
  | .xspiGo .. => some [F.HIF_XSPI_CMD_GO.off, F.HIF_STATUS_STATUS.off]
  | .hifChDb _ c _ => some [(F.HIF_CH_PTR_HEAD c).off, (F.HIF_CH_STATUS_STATUS c).off, F.HIF_STATUS_STATUS.off]
  | .clkFclkWrite .. => some [F.CLK_FCLK_SEL.off, F.CLK_ECLK_SEL.off, F.CLK_STATUS_STATUS.off, F.BIST_STATUS_MAINT_ACTIVE.off]
  | .clkCclkWrite _ u _ => some [(F.CLK_CCLK_SEL u).off, F.CLK_STATUS_STATUS.off]
  | .forceAwake _ i _ => some [(F.PWR_ISL_STATE i).off, (F.PWR_ISL_WAKES_COUNT i).off]
  | .fuseProgCmd .. => some [F.FUSE_PROG_STATUS_STATUS.off]
  | .now .. => some [F.CAL_CTRL_NOW.off, F.CAL_TEMP_LAST.off, F.CAL_STATUS_STATUS.off, F.BIST_STATUS_MAINT_ACTIVE.off]
  | .stage .. | .activate .. | .updCancel .. =>
    some [F.UPD_STATUS_STATE.off, F.UPD_REFUSE_BUSY.off, F.UPD_PROGRESS_V.off]
  | .dmaDb _ m _ => some [(F.DMA_PTR_TAIL m).off, (F.DMA_STAT_STATUS m).off]
  | .tsnIdleWrite _ p c _ => some [(F.TSN_C_IDLE_V p c).off, (F.TSN_P_STATUS_STATUS p).off]
  | .tsnHiWrite _ p c _ => some [(F.TSN_C_HI_V p c).off, (F.TSN_P_STATUS_STATUS p).off]
  | .qdrErrPop .. => some [F.QDR_ERR_ADDR_LO_VALID.off]
  | .clrHigh .. => some [F.MESH_TAGS_HIGH_WATER.off]
  | .sealHaltClr .. => some []
  | _ => none

end Sys2Proof.Machine
end

