-- ==== Sys2Proof/Certificates/Slice0/Obligations.lean ====
section
/-! DEFINITION. The statements for the provers. `Completes c s P` says that `exec c s` answers a next state of which `P` holds;
`s.Passes src f` that the gate lets the agent's write through; the rules each statement rests on stand in its docstring. -/

open Sys2Proof Sys2Proof.Machine

/-- A step with a command at the front of the queue is `exec` of that command on the state with the queue's rest; on an empty queue
one REF cycle passes, in which no command enters the queue (DESIGN CHOICE, log entry 1). -/
def Obligations.StepRunsFront : Prop :=
  (∀ (c : Instr) (s : State) (rest : List Instr), s.pending = c :: rest → step s = exec c (s.setPending rest)) ∧
  (∀ s : State, s.pending = [] → step s = .next s.tick ∧ s.tick.ref = s.ref + 1 ∧ s.tick.pending = [])

/-- R1, R410, R426, R436, R450, R453: the state after the cold reset: Midnight, both units OFF, no owner, an empty queue, the registers
at the reset values of their tables; the invariant holds. -/
def Obligations.ResetState : Prop :=
  State.reset.Inv ∧ State.reset.pending = [] ∧ State.reset.rd F.PWR_STATUS_DAY = 0 ∧ State.reset.ustate 0 = 0 ∧
  State.reset.ustate 1 = 0 ∧ State.reset.owner = none ∧ State.reset.rd F.PWR_LAST_OFF_CAUSE = 0 ∧
  State.reset.rd F.CUX_CFG_HB_US = 100 ∧ State.reset.rd F.CUX_CFG_MISS_COUNT = 8 ∧ State.reset.rd F.CUX_CFG_AUTO_CLAIM = 1 ∧
  State.reset.rd F.CUX_CFG_AUTO_RETURN = 1 ∧ State.reset.rd F.PWR_LOWIN_THRESH_MV = 6000 ∧
  State.reset.rd F.PWR_TEMP_WARN_TEMP = 0x06E0 ∧ State.reset.rd F.PWR_WAKE_CFG_WAKE_N_EN = 1 ∧
  State.reset.rd F.PWR_WAKE_VIN_MV = 7000 ∧ (∀ i < 32, State.reset.island i = 0) ∧ State.reset.take = 0 ∧
  State.reset.rd F.HIF_STATUS_LINK = 0 ∧ State.reset.rd F.UPD_STATUS_STATE = 0 ∧ State.reset.rd F.BIST_STATUS_MAINT_ACTIVE = 0

/-- Every step keeps the invariant: memory and the register file stay in canonical form, and no discovery register is written. -/
def Obligations.StepKeepsInvariant : Prop := ∀ s t : State, s.Inv → step s = .next t → t.Inv

/-- A command leaves the commands that wait, and every part of the state that the table `touched` does not give it, as they were. -/
def Obligations.CommandFrames : Prop := ∀ (c : Instr) (s t : State), exec c s = .next t → s.Frame (touched c) t

/-- Within the registers, an event leaves every register as it was but the ones `eventRegisters` gives it and the MSI-X pending bits; a
register write may besides change the CUX block, which mirrors it (R413). -/
def Obligations.RegisterFrames : Prop :=
  (∀ (c : Instr) (l : List Nat) (s t : State), eventRegisters c = some l → exec c s = .next t →
    ∀ off, off ∉ l → ¬ (0x718000 ≤ off ∧ off < 0x718100) → t.reg off = s.reg off) ∧
  (∀ (c : Instr) (l : List Nat) (s t : State), writeRegisters c = some l → exec c s = .next t →
    ∀ off, off ∉ l → off / 0x40000 ≠ 0x04 → ¬ (0x718000 ≤ off ∧ off < 0x718100) → t.reg off = s.reg off)

/-- R1: the discovery registers read the TX128's values in every state that meets the invariant, before and after every step, whatever
the power state and the reset. -/
def Obligations.DiscoveryRegistersFixed : Prop :=
  ∀ s : State, s.Inv →
  (s.regRead 0x800000 = 0x54014201 ∧ s.regRead 0x800004 = 0x10080401 ∧ s.regRead 0x800008 = 0x20041010 ∧
    s.regRead 0x80000C = 0x08401008) ∧
  ∀ t : State, step s = .next t →
    t.regRead 0x800000 = 0x54014201 ∧ t.regRead 0x800004 = 0x10080401 ∧ t.regRead 0x800008 = 0x20041010 ∧
    t.regRead 0x80000C = 0x08401008

/-- R437 and R496: SLEEP is refused with DAY_BUSY while a take is not IDLE or a stream is ON_AIR, unless FORCE is written with it, and
FORCE alone is discarded with DAY_CMD_INVALID; STAGE is refused with UPD_REFUSED, its cause in UPD_REFUSE, and with UPD_SOURCE on a module
booted from the host. -/
def Obligations.SleepAndStageRefusals : Prop :=
  ∀ (src : Agent) (val : Word) (s : State), s.Inv →
  let onAir := ∃ c < 32, s.rd (F.ENC_S_CTRL_ON_AIR c) = 1
  (s.Passes src F.PWR_CTRL_SLEEP → s.rd F.PWR_STATUS_DAY = 2 →
    (F.PWR_CTRL_FORCE.of val = 0 → s.rd F.MAG_STATUS_TAKE_STATE ≠ 0 ∨ onAir →
      Completes (.sleep src val) s fun t =>
        t.rd F.PWR_STATUS_STATUS = 0x0202 ∧ t.rd F.PWR_STATUS_DAY = 2 ∧ t.pwr = s.pwr ∧ t.mag = s.mag) ∧
    (F.PWR_CTRL_FORCE.of val = 1 ∨ (s.rd F.MAG_STATUS_TAKE_STATE = 0 ∧ ¬ onAir) → s.updHolds = false →
      Completes (.sleep src val) s fun t => t.rd F.PWR_STATUS_DAY = 3) ∧
    (F.PWR_CTRL_SLEEP.of val = 0 → F.PWR_CTRL_FORCE.of val = 1 → ∀ off : BitVec 24, off.toNat = F.PWR_CTRL_SLEEP.off →
      Completes (.registerWrite src off .word val) s fun t =>
        t.rd F.PWR_STATUS_STATUS = 0x0203 ∧ t.rd F.PWR_STATUS_DAY = 2 ∧ t.reg off.toNat = s.reg off.toNat ∧ t.pwr = s.pwr)) ∧
  (s.Passes src F.UPD_CMD_STAGE → F.UPD_CMD_ACTIVATE.of val = 0 → F.UPD_CMD_CANCEL.of val = 0 →
    s.rd F.UPD_STATUS_STATE = 0 ∨ s.rd F.UPD_STATUS_STATE = 2 ∨ s.rd F.UPD_STATUS_STATE = 5 →
    let low := s.rd F.PWR_STATUS_LOWIN_1S
    let lock := s.rd F.FUSE_LOCKS_OWNER_LOCK
    let busy := s.rd F.MAG_STATUS_TAKE_STATE ≠ 0 ∨ onAir
    (s.rd F.KPR_BOOT_SOURCE ≠ 3 → busy ∨ low = 1 ∨ lock = 1 →
      Completes (.stage src val) s fun t =>
        t.rd F.UPD_STATUS_STATUS = 0x1F01 ∧ t.rd F.UPD_STATUS_STATE = s.rd F.UPD_STATUS_STATE ∧ t.upd = s.upd ∧
        (t.rd ⟨F.UPD_REFUSE_BUSY.off, 0, 1⟩ = 1 ↔ busy) ∧ t.rd ⟨F.UPD_REFUSE_BUSY.off, 1, 1⟩ = low ∧
        t.rd ⟨F.UPD_REFUSE_BUSY.off, 2, 1⟩ = lock) ∧
    (s.rd F.KPR_BOOT_SOURCE = 3 →
      Completes (.stage src val) s fun t =>
        t.rd F.UPD_STATUS_STATUS = 0x1F10 ∧ t.rd F.UPD_STATUS_STATE = s.rd F.UPD_STATUS_STATE ∧ t.upd = s.upd))

/-- R19 and R21: a checking point finds a header invalid exactly when MAGIC, LEN16, FORMAT or bit 7 of FLAGS is wrong; sequence and frame
numbers are compared modulo 2^32, and two numbers 2^31 apart are unordered. -/
def Obligations.TileHeaderAndOrder : Prop :=
  (∀ (t : Tile) (checkSeal : Bool),
    verify t checkSeal = some .header ↔
      t.hdr.magic ≠ 0xA7 ∨ t.hdr.len16 = 0 ∨ 4096 < t.hdr.len16 ∨ t.hdr.format ∉ formatCodes ∨ t.hdr.flags / 2 ^ 7 % 2 = 1) ∧
  (∀ a b : Nat, a < 2 ^ 32 → b < 2 ^ 32 →
    (later a b = true ↔ 1 ≤ ((a : Int) - b) % 2 ^ 32 ∧ ((a : Int) - b) % 2 ^ 32 ≤ 2 ^ 31 - 1) ∧
    (((a : Int) - b) % 2 ^ 32 = 2 ^ 31 → later a b = false ∧ later b a = false))

/-- R33: at a checking point whose edge is not halted, a mismatch on a tile that already carries SEAL_ERR is counted in SEAL_REPEAT_COUNT
and not in SEAL_MISMATCH_COUNT, captures no event, and meets the edge's policy. -/
def Obligations.RepeatedMismatch : Prop :=
  ∀ (ed : Edge) (mesh : Nat) (x : Tile) (s : State), s.Inv → (s.queue ed.qid).halted = false → x.hdr.valid = true →
  x.hdr.flag 1 = true → sealOf x.hdr x.payload ≠ x.hdr.crc →
  let r := s.checkTile ed mesh x true
  r.2.rd F.SEAL_REPEAT_COUNT_COUNT = min (s.rd F.SEAL_REPEAT_COUNT_COUNT + 1) (2 ^ 32 - 1) ∧
  r.2.rd F.SEAL_MISMATCH_COUNT_COUNT = s.rd F.SEAL_MISMATCH_COUNT_COUNT ∧
  r.2.rd F.SEAL_EVT_LOST_COUNT = s.rd F.SEAL_EVT_LOST_COUNT ∧ r.2.rd F.SEAL_STATUS_EVT_VALID = s.rd F.SEAL_STATUS_EVT_VALID ∧
  (ed.policy = 0 → r.1 = { outcome := 1, tile := x }) ∧
  (ed.policy = 1 → r.1.outcome = 2 ∧ r.2.rd F.SEAL_SUBST_COUNT_COUNT = min (s.rd F.SEAL_SUBST_COUNT_COUNT + 1) (2 ^ 32 - 1)) ∧
  (ed.policy = 2 → r.1 = { outcome := 3, tile := x } ∧ (r.2.queue ed.qid).halted = true)

/-- R94: the null queue is never allocated and no write configures it, a reservation on it succeeds at once, and a push, a commit or a
doorbell naming it is discarded without a status. -/
def Obligations.NullQueue : Prop :=
  (∀ (src : Agent) (pairB : Bool) (val : Word) (s t : State), exec (.hqAlloc src pairB val) s = .next t →
    t.queue 0xFFFF = s.queue 0xFFFF) ∧
  (∀ (src : Agent) (which : Fin 3) (val : Word) (s t : State), s.rd F.HQ_QSEL_QID = 0xFFFF →
    exec (.hqQcfgWrite src which val) s = .next t → t.hq = s.hq) ∧
  (∀ (reqs : List ResReq) (s : State), exec (.reservation 0xFFFF reqs) s = .next s) ∧
  (∀ idx addr eflags len16 seq (s : State), exec (.entryCommit 0xFFFF idx addr eflags len16 seq) s = .next s) ∧
  (∀ (src : Agent) (val : Word) (s : State), s.Passes src F.HQ_DB_PUSH_QID → F.HQ_DB_PUSH_QID.of val = 0xFFFF →
    Completes (.hqDbPush src val) s fun t =>
      t.hq = s.hq ∧ t.mem = s.mem ∧ t.rd F.HQ_STATUS_STATUS = s.rd F.HQ_STATUS_STATUS) ∧
  (∀ (src : Agent) (val : Word) (s : State), s.Passes src F.HQ_DB_POP_QID → F.HQ_DB_POP_QID.of val = 0xFFFF →
    Completes (.hqDbPop src val) s fun t =>
      t.hq = s.hq ∧ t.mem = s.mem ∧ t.rd F.HQ_STATUS_STATUS = s.rd F.HQ_STATUS_STATUS)

/-- R30, R35, R36: the seal engine's register commands complete: a halted edge starts resuming, a pop empties the event, and
clearing counts leaves each at 0, or at 1 where it was incremented in the same cycle. R38 to R42: an idle check-value unit starts with its algorithm's initial value, takes a write's bytes in order, feeds them one
at a time, and a read of an idle unit's result returns the register as it stands. -/
def Obligations.SealBlockComplete : Prop :=
  (∀ (src : Agent) (val : Word) (s : State), s.Passes src F.SEAL_HALT_CLR_QID →
    (s.queue (F.SEAL_HALT_CLR_QID.of val)).halted = true →
    Completes (.sealHaltClr src val) s fun t =>
      (t.edgeSeal (F.SEAL_HALT_CLR_QID.of val)).resuming = true ∧ t.hq = s.hq) ∧
  (∀ (src : Agent) (val : Word) (s : State), s.Inv → s.Passes src F.SEAL_EVT_POP_POP → F.SEAL_EVT_POP_POP.of val = 1 →
    Completes (.sealEvtPop src val) s fun t =>
      t.rd F.SEAL_STATUS_EVT_VALID = 0 ∧ t.rd F.SEAL_STATUS_HALTED_EDGES = s.rd F.SEAL_STATUS_HALTED_EDGES) ∧
  (∀ (src : Agent) (val : Word) (inc : BitVec 6) (s : State), s.Inv → s.Passes src F.SEAL_CTRL_CLR_COUNTS →
    Completes (.clrCounts src val inc) s fun t =>
      ∀ k < 6, t.rd (sealCounts.getD k F.SEAL_EVT_LOST_COUNT) = if inc.getLsbD k then 1 else 0) ∧
  (∀ (src : Agent) (unit : Fin 4) (val : Word) (s : State), s.Inv → s.Passes src (F.CKV_CTRL_START unit) →
    (s.ckvUnit unit).cur = [] → (s.ckvUnit unit).buf = none → (F.CKV_CTRL_ALG unit).of val < 3 →
    Completes (.ckvStart src unit val) s fun t =>
      t.rd (F.CKV_REG_REG unit) = crcInit ((F.CKV_CTRL_ALG unit).of val) (s.rd (F.CKV_FOLD_FOLD unit)) % 2 ^ 32 ∧
      t.rd (F.CKV_COUNT_BYTES unit) = 0 ∧ t.rd (F.CKV_STAT_STATUS unit) = 0) ∧
  (∀ (src : Agent) (unit lane : Fin 4) (size : Size) (val : Word) (s : State), s.Inv →
    s.gate src ((F.CKV_DATA_DATA unit).off + lane) = .pass true →
    (s.ckvUnit unit).cur = [] → (s.ckvUnit unit).buf = none → s.rd (F.CKV_STAT_ALG_ERR unit) = 0 → lane.val % size.len = 0 →
    Completes (.ckvDataWrite src unit lane size val) s fun t =>
      (t.ckvUnit unit).cur = leBytes size.len val.toNat ∧ t.rd (F.CKV_STAT_BUSY unit) = 1 ∧
      t.rd (F.CKV_REG_REG unit) = s.rd (F.CKV_REG_REG unit)) ∧
  (∀ (unit : Fin 4) (b : Byte) (l : List Byte) (s : State), s.Inv → (s.ckvUnit unit).cur = b :: l → (s.ckvUnit unit).buf = none →
    l ≠ [] ∨ (s.ckvUnit unit).alg ≠ 0 →
    Completes (.ckvByteConsumed unit) s fun t =>
      t.rd (F.CKV_REG_REG unit) = crcFeed (s.ckvUnit unit).alg (s.rd (F.CKV_REG_REG unit)) b % 2 ^ 32 ∧
      t.rd (F.CKV_COUNT_BYTES unit) = (s.rd (F.CKV_COUNT_BYTES unit) + 1) % 2 ^ 32) ∧
  (∀ (unit : Fin 4) (which : Fin 3) (s : State), (s.ckvUnit unit).cur = [] → (s.ckvUnit unit).buf = none →
    Completes (.ckvResultRead unit which) s fun t =>
      t.readData = leBytes 4 (s.rd (match which with
        | 0 => F.CKV_RESULT_RESULT unit
        | 1 => F.CKV_REG_REG unit
        | 2 => F.CKV_COUNT_BYTES unit)))

/-- R79, R81, R90: in the states where STR_CTRL accepts them, LOAD takes the image address and length and starts validation, ARM
arms the swap, CANCEL empties the shadow plane and RETIRE_FORCE forces retirement. -/
def Obligations.StructureCommandsComplete : Prop :=
  (∀ (src : Agent) (val : Word) (s : State), s.Inv → s.Passes src F.STR_CTRL_LOAD →
    F.STR_CTRL_ARM.of val = 0 → F.STR_CTRL_CANCEL.of val = 0 → F.STR_CTRL_RETIRE_FORCE.of val = 0 →
    s.shadowState = 0 ∨ s.shadowState = 2 ∨ s.shadowState = 6 →
    Completes (.load src val) s fun t =>
      t.str.shadow = some { addr := s.rd F.STR_IMG_ADDR_HI_ADDR * 2 ^ 32 + 16 * s.rd F.STR_IMG_ADDR_LO_ADDR,
                            len := s.rd F.STR_IMG_LEN_LEN } ∧
      t.str.validated = false ∧ t.str.armed = none ∧ t.shadowState = 1 ∧ t.rd F.STR_STATUS_STATUS = 0) ∧
  (∀ (src : Agent) (val : Word) (s : State), s.Inv → s.Passes src F.STR_CTRL_ARM →
    F.STR_CTRL_LOAD.of val = 0 → F.STR_CTRL_CANCEL.of val = 0 → F.STR_CTRL_RETIRE_FORCE.of val = 0 →
    s.shadowState = 1 ∨ s.shadowState = 2 → s.rd F.STR_EPOCH_MODE ≠ 3 →
    (if s.rd F.STR_EPOCH_MODE = 0 then s.str.active = none
     else (s.image.tbs.find? (fun x => x.id == s.rd F.STR_EPOCH_TIMEBASE)).isSome = true) →
    Completes (.arm src val) s fun t =>
      t.shadowState = 3 ∧ t.rd F.STR_CARRY_COUNT_COUNT = 0 ∧ t.rd F.STR_DROP_COUNT_COUNT = 0 ∧ t.str.shadow = s.str.shadow ∧
      ∃ a, t.str.armed = some a ∧ a.mode = s.rd F.STR_EPOCH_MODE ∧ a.tb = s.rd F.STR_EPOCH_TIMEBASE) ∧
  (∀ (src : Agent) (val : Word) (s : State), s.Inv → s.Passes src F.STR_CTRL_CANCEL →
    F.STR_CTRL_LOAD.of val = 0 → F.STR_CTRL_ARM.of val = 0 → F.STR_CTRL_RETIRE_FORCE.of val = 0 →
    s.shadowState = 1 ∨ s.shadowState = 2 ∨ s.shadowState = 6 →
    Completes (.strCancel src val) s fun t =>
      t.str.shadow = none ∧ t.str.armed = none ∧ t.shadowState = 0 ∧ t.rd F.STR_STATUS_STATUS = 0 ∧
      t.rd F.STR_SHADOW_ID_IMAGE_ID = 0) ∧
  (∀ (src : Agent) (val : Word) (s : State), s.Inv → s.Passes src F.STR_CTRL_RETIRE_FORCE →
    F.STR_CTRL_LOAD.of val = 0 → F.STR_CTRL_ARM.of val = 0 → F.STR_CTRL_CANCEL.of val = 0 → s.shadowState = 5 →
    Completes (.retireForce src val) s fun t =>
      t.str = { s.str with forceRetire := true } ∧ t.rd F.STR_STATUS_STATUS = 0 ∧ t.shadowState = 5)

/-- R77 to R85: validation, preparation, an epoch and a lost timebase move the shadow plane on; an epoch before the preparation is done
carries the swap to the next one, a CANCEL in the cycle of the swap comes after it, and a lost timebase leaves the swap armed for its next
epoch. -/
def Obligations.StructureEventsComplete : Prop :=
  (∀ (i img : Image) (s : State), s.Inv → s.str.shadow = some i → s.shadowState = 1 → s.str.validated = false →
    s.validate i.addr i.len = .inr img →
    Completes .validationDone s fun t =>
      t.str.shadow = some img ∧ t.str.validated = true ∧ t.shadowState = 2 ∧
      t.rd F.STR_SHADOW_ID_IMAGE_ID = img.id % 2 ^ F.STR_SHADOW_ID_IMAGE_ID.w) ∧
  (∀ (i : Image) (f : Fail) (s : State), s.Inv → s.str.shadow = some i → s.shadowState = 1 → s.str.validated = false →
    s.validate i.addr i.len = .inl f →
    Completes .validationDone s fun t =>
      t.shadowState = 6 ∧ t.rd F.STR_STATUS_STATUS = f.code % 2 ^ F.STR_STATUS_STATUS.w ∧ t.str.armed = none ∧
      t.rd F.STR_ERR_LOC_SECTION = f.sec % 2 ^ F.STR_ERR_LOC_SECTION.w) ∧
  (∀ (i : Image) (a : Arm) (s : State), s.Inv → s.str.shadow = some i → s.str.armed = some a → s.shadowState = 3 →
    s.str.validated = true → a.mode ≠ 0 →
    Completes .preparationDone s fun t =>
      t.shadowState = 4 ∧ t.str = s.str ∧
      t.hif.prep = if i.tableOnly then s.hif.prep
        else s.hostChannels (i.nodes.filter (fun n => !s.image.nodes.contains n)) (goneNodes s.image i)) ∧
  (∀ (tb : Fin 16) (x : Timebase) (s : State),
    s.image.tbs.find? (fun y => y.id == tb.val && y.kind == 3) = some x → s.str.armed = none →
    Completes (.timebaseEpoch tb false) s fun t =>
      KMap.get (fun _ => none) t.str.epochs tb = some ((s.epochNow x).getD 0) ∧ t.regs = s.regs ∧ t.str.active = s.str.active) ∧
  (∀ (tb : Fin 16) (x : Timebase) (i : Image) (a : Arm) (s : State), s.Inv →
    s.image.tbs.find? (fun y => y.id == tb.val && y.kind == 3) = some x → s.str.armed = some a → s.str.shadow = some i →
    a.tb = tb.val → a.mode = 2 → s.shadowState = 4 →
    Completes (.timebaseEpoch tb false) s fun t =>
      t.str.shadow = none ∧ t.str.armed = none ∧
      t.rd F.STR_SWAP_EPOCH_EPOCH = (s.epochNow x).getD 0 % 2 ^ F.STR_SWAP_EPOCH_EPOCH.w ∧ t.rd F.STR_STATUS_ACTIVE_VALID = 1) ∧
  (∀ (tb : Fin 16) (x : Timebase) (i : Image) (a : Arm) (s : State), s.Inv →
    s.image.tbs.find? (fun y => y.id == tb.val && y.kind == 3) = some x → s.str.armed = some a → s.str.shadow = some i →
    a.tb = tb.val → a.mode = 2 → s.shadowState = 4 →
    Completes (.timebaseEpoch tb true) s fun t =>
      t.str.shadow = none ∧ t.str.armed = none ∧ t.rd F.STR_STATUS_STATUS = 0x0F18) ∧
  (∀ (tb : Fin 16) (x : Timebase) (a : Arm) (s : State), s.Inv →
    s.image.tbs.find? (fun y => y.id == tb.val && y.kind == 3) = some x → s.str.armed = some a → a.tb = tb.val → a.mode = 1 →
    s.shadowState = 3 → a.next = true ∨ (s.epochNow x).getD 0 = a.target ∨ later ((s.epochNow x).getD 0) a.target = true →
    Completes (.timebaseEpoch tb false) s fun t =>
      t.str.armed = some { a with next := true } ∧ t.shadowState = 3 ∧ t.rd F.STR_STATUS_STATUS = 0x0F16 ∧
      t.rd F.STR_CARRY_COUNT_COUNT = min (s.rd F.STR_CARRY_COUNT_COUNT + 1) (2 ^ F.STR_CARRY_COUNT_COUNT.w - 1)) ∧
  (∀ (tb : Fin 16) (x : Timebase) (a : Arm) (s : State), s.Inv → s.str.armed = some a →
    s.image.tbs.find? (fun y => y.id == tb.val) = some x → a.mode ≠ 0 → a.tb = tb.val → s.str.lostTbs.contains tb.val = false →
    s.sourceLost x = true →
    Completes (.timebaseLost tb) s fun t =>
      t.str.lostTbs = s.str.lostTbs ++ [tb.val] ∧ t.str.armed = some { a with next := true } ∧ t.rd F.STR_STATUS_STATUS = 0x0F19)

/-- R96, R126: HQ_ALLOC takes the free queue it names, the configuration registers set a disabled queue's fields, and HQ_QCMD
enables, disables and frees the selected queue and clears its high-water mark, every other field as it was. -/
def Obligations.QueueCommandsComplete : Prop :=
  (∀ (src : Agent) (pairB : Bool) (val : Word) (s : State), s.Inv →
    s.Passes src (if pairB then F.HQ_ALLOC_B_QID else F.HQ_ALLOC_A_QID) → F.HQ_ALLOC_A_QID.of val ≠ 0xFFFF →
    (s.queue (F.HQ_ALLOC_A_QID.of val)).state = qFree →
    Completes (.hqAlloc src pairB val) s fun t =>
      t.queue (F.HQ_ALLOC_A_QID.of val) = { state := qDisabled } ∧
      t.rd (if pairB then F.HQ_ALLOC_RESULT_B_STATUS else F.HQ_ALLOC_RESULT_A_STATUS) = 0 ∧
      t.rd (if pairB then F.HQ_ALLOC_RESULT_B_QID else F.HQ_ALLOC_RESULT_A_QID) = F.HQ_ALLOC_A_QID.of val) ∧
  (∀ (src : Agent) (which : Fin 3) (val : Word) (s : State),
    s.Passes src (match which with
      | 0 => F.HQ_QCFG_BASE_LO_ADDR
      | 1 => F.HQ_QCFG_BASE_HI_ADDR
      | 2 => F.HQ_QCFG_SIZE_NOTIFY) →
    s.rd F.HQ_QSEL_QID ≠ 0xFFFF → (s.queue (s.rd F.HQ_QSEL_QID)).state = qDisabled →
    Completes (.hqQcfgWrite src which val) s fun t =>
      let q := s.queue (s.rd F.HQ_QSEL_QID)
      t.queue (s.rd F.HQ_QSEL_QID) = match which with
        | 0 => { q with base := q.base / 2 ^ 32 * 2 ^ 32 + val.toNat / 16 * 16 }
        | 1 => { q with base := q.base % 2 ^ 32 + val.toNat % 256 * 2 ^ 32 }
        | 2 => { q with notify := bits val.toNat 30 2 * 0x4000 + bits val.toNat 16 11, entries := val.toNat % 0x10000 }) ∧
  (∀ (src : Agent) (s : State), s.Passes src F.HQ_QCMD_CMD → s.rd F.HQ_QSEL_QID ≠ 0xFFFF →
    let q := s.queue (s.rd F.HQ_QSEL_QID)
    (q.state = qDisabled → s.ringOk q = true →
      Completes (.enable src) s fun t => t.queue (s.rd F.HQ_QSEL_QID) = { q with state := qEnabled }) ∧
    (q.state = qEnabled →
      Completes (.disable src) s fun t => t.queue (s.rd F.HQ_QSEL_QID) = { q with state := qDisabled }) ∧
    (q.state = qDisabled → q.count = 0 → q.reserved = 0 →
      Completes (.qcmdFree src) s fun t =>
        t.hq.queues = KMap.set (fun _ => {}) s.hq.queues (s.rd F.HQ_QSEL_QID) {}) ∧
    (q.state = qDisabled ∨ q.state = qEnabled →
      Completes (.clearHighWater src) s fun t =>
        t.queue (s.rd F.HQ_QSEL_QID) = { q with highWater := q.count + q.reserved }))

/-- R105, R109, R126: FLUSH empties a disabled queue; a push doorbell commits the entries it counts, and a pop doorbell removes
that many, on an enabled queue with room or with entries. -/
def Obligations.QueueDoorbellsComplete : Prop :=
  (∀ (src : Agent) (s : State), s.Passes src F.HQ_QCMD_CMD → s.rd F.HQ_QSEL_QID ≠ 0xFFFF →
    let q := s.queue (s.rd F.HQ_QSEL_QID)
    q.state = qDisabled → q.popped = [] → q.head < q.entries →
    Completes (.flush src) s fun t =>
      (t.queue (s.rd F.HQ_QSEL_QID)).count = 0 ∧ (t.queue (s.rd F.HQ_QSEL_QID)).state = qDisabled ∧ t.mem = s.mem) ∧
  (∀ (src : Agent) (val : Word) (s : State), s.Passes src F.HQ_DB_PUSH_QID →
    let id := F.HQ_DB_PUSH_QID.of val
    let n := F.HQ_DB_PUSH_COUNT.of val
    let q := s.queue id
    id ≠ 0xFFFF → n ≠ 0 → q.state = qEnabled → n ≤ q.free →
    Completes (.hqDbPush src val) s fun t =>
      t.queue id = { q with count := q.count + n, highWater := max q.highWater (q.count + n + q.reserved) }) ∧
  (∀ (src : Agent) (val : Word) (s : State), s.Passes src F.HQ_DB_POP_QID →
    let id := F.HQ_DB_PUSH_QID.of val
    let n := F.HQ_DB_PUSH_COUNT.of val
    let q := s.queue id
    id ≠ 0xFFFF → n ≠ 0 → q.state = qEnabled → n ≤ q.count → q.claimed = 0 → q.claims = [] → q.popped = [] →
    q.head < q.entries → q.count ≤ q.entries →
    Completes (.hqDbPop src val) s fun t => (t.queue id).count = q.count - n ∧ (t.queue id).state = qEnabled)

/-- R98, R101, R103 to R105: a write into the descriptors is denied, counted and reported; a reservation takes room on every queue of its port,
and a waiting one is granted when it fits and no put waits before it; the oldest reserved entry commits, and the oldest committed entry is popped. -/
def Obligations.QueueEventsComplete : Prop :=
  (∀ (addr : BitVec 40) (bytes : List Byte) (s : State), s.Inv → s.place addr.toNat = .queueDescs → bytes ≠ [] →
    addr.toNat + bytes.length ≤ 0x3A00000 →
    Completes (.descriptorWriteDenied addr bytes) s fun t =>
      t.rd F.HQ_WPROT_COUNT_COUNT = min (s.rd F.HQ_WPROT_COUNT_COUNT + 1) (2 ^ F.HQ_WPROT_COUNT_COUNT.w - 1) ∧
      t.rd F.HQ_STATUS_STATUS = 0x0A08 ∧ t.rd F.HQ_STATUS_WPROT = 1 ∧ t.hq = s.hq ∧ t.mem = s.mem) ∧
  (∀ (qid : BitVec 16) (r : ResReq) (s : State),
    let w := { r with qid := qid.toNat }
    qid.toNat ≠ 0xFFFF → s.hq.waiting.filter (fun x => (ResReq.queues x).contains qid.toNat) = [] →
    (ResReq.queues w).Nodup → (∀ q ∈ ResReq.queues w, r.n ≤ (s.queue q).free) →
    (∀ x ∈ s.hq.puts, ResReq.overtakenBy x w = false) →
    Completes (.reservation qid [r]) s fun t =>
      (∀ q ∈ ResReq.queues w, (t.queue q).reserved = (s.queue q).reserved + r.n) ∧ t.hq.waiting = s.hq.waiting ∧
      t.hq.grants.length = s.hq.grants.length + r.n * (ResReq.queues w).length) ∧
  (∀ (qid : BitVec 16) (r : ResReq) (s : State), qid.toNat ≠ 0xFFFF →
    s.hq.waiting.filter (fun x => (ResReq.queues x).contains qid.toNat) = [r] → (ResReq.queues r).Nodup →
    (∀ q ∈ ResReq.queues r, r.n ≤ (s.queue q).free) → (∀ x ∈ s.hq.puts, ResReq.overtakenBy x r = false) →
    Completes (.reservationRetry qid) s fun t =>
      (∀ q ∈ ResReq.queues r, (t.queue q).reserved = (s.queue q).reserved + r.n) ∧
      t.hq.waiting = s.hq.waiting.filter (fun x => !(ResReq.queues x).contains qid.toNat)) ∧
  (∀ (qid idx : BitVec 16) (addr : BitVec 40) (eflags : Byte) (len16 : BitVec 16) (seq : Word) (s : State),
    let q := s.queue qid.toNat
    qid.toNat ≠ 0xFFFF → q.reserved = 1 → q.done = [] → q.need = 0 → idx.toNat = q.ix (q.head + q.count) →
    Completes (.entryCommit qid idx addr eflags len16 seq) s fun t =>
      (t.queue qid.toNat).count = q.count + 1 ∧ (t.queue qid.toNat).reserved = 0) ∧
  (∀ (qid idx : BitVec 16) (s : State),
    let q := s.queue qid.toNat
    0 < q.count → idx.toNat = q.head → q.head < q.entries → q.popped = [] →
    Completes (.entryPop qid idx) s fun t =>
      (t.queue qid.toNat).count = q.count - 1 ∧ (t.queue qid.toNat).head = q.ix (q.head + 1))

/-- R112, R117, R118, R127: a ready node's task is created in the lowest free slot, a task is dispatched to an idle engine or mover,
a preemption is requested, a load window ends and a monitor's bins are cleared. -/
def Obligations.SchedulerComplete : Prop :=
  (∀ (node : BitVec 16) (n : Node) (slot : Nat) (s : State), s.node? node.toNat = some n → n.kind = 2 ∨ n.kind = 3 →
    s.sch.stopped = false → s.nodeReady n = true → lowest 8192 (fun k => (s.task k).isNone) = some slot →
    s.rd F.SCH_CTRL_SLOT_RESERVE < s.rd F.SCH_SLOTS_FREE ∨ 6 ≤ n.prio →
    Completes (.taskCreate node) s fun t =>
      t.sch.clock = s.sch.clock + 1 ∧
      ∃ k, t.task slot = some k ∧ k.node = n.id ∧ k.nd = n ∧ k.level = n.prio ∧ k.stamp = s.sch.clock ∧ k.readyAt = s.ref) ∧
  (∀ (c : Fin 17) (slot k : Nat) (rest : List Nat) (x : Task) (s : State), c.val < 16 → s.awake c.val = true →
    (dispatchOrder (s.taskList.filter (fun e => e.2.cluster == c.val && e.2.listed))).find?
      (fun e => !(s.idleEngines c.val e.2).isEmpty) = some (slot, x) →
    s.idleEngines c.val x = k :: rest → s.task slot = some x →
    Completes (.taskDispatch c) s fun t =>
      (t.engine k).running = some slot ∧ (t.engine k).regs.pc = 0x20000000 + x.kern.entry ∧
      ∃ y, t.task slot = some y ∧ y.state = .running ∧ y.engine = k ∧ y.node = x.node) ∧
  (∀ (c : Fin 17) (slot m : Nat) (rest : List Nat) (x : Task) (s : State), c.val = 16 →
    (dispatchOrder (s.taskList.filter (fun e => e.2.cluster == 16 && e.2.listed))).find?
      (fun e => !(s.idleMovers e.2).isEmpty) = some (slot, x) →
    s.idleMovers x = m :: rest →
    Completes (.taskDispatch c) s fun t =>
      (t.mover m).task = some slot ∧ ∃ y, t.task slot = some y ∧ y.state = .running ∧ y.engine = 0x80 + m) ∧
  (∀ (slot : Fin 8192) (x v : Task) (c vs : Nat) (rest : List (Nat × Task)) (s : State), s.task slot = some x →
    s.on F.SCH_CTRL_PREEMPT_EN = true → x.state = .ready → x.cluster < 16 → s.rd F.SCH_CTRL_PREEMPT_LEVEL ≤ x.level →
    s.underTest x.cluster = false → x.lmSize ≤ 0x8000 → s.idleEngines x.cluster x = [] →
    KMap.get (fun _ => none) s.sch.preempts x.cluster = none → s.freeCtx = some c → s.victims x x.nd = (vs, v) :: rest →
    Completes (.preemptRequest slot) s fun t =>
      (t.engine v.engine).stopReq = true ∧
      KMap.get (fun _ => none) t.sch.preempts x.cluster = some { waiting := slot, victim := vs, ctx := c } ∧
      t.sch.tasks = s.sch.tasks) ∧
  (∀ (src : Agent) (mon : Fin 4) (val : Word) (s : State), s.Inv → s.Passes src (F.SCH_HIST_CFG_CLR mon) →
    Completes (.histClr src mon val) s fun t => ∀ k < 20, t.rd (F.SCH_HIST_BIN_COUNT mon k) = 0) ∧
  (∀ (s : State), s.Inv → s.rd F.SCH_LOAD_WINDOW_WINDOW ≠ 0 →
    Completes .loadWindowEnd s fun t =>
      t.sch.winStart = s.ref ∧ ∀ k < 128, t.rd (F.SCH_ENG_LOAD_TASKS k) = min (s.engine k).winTasks 0xFFFF)

/-- R119 to R122, R177: at the end of the grace time the victim is saved and the waiting task runs on its engine, unless an access that
faulted holds the victim inside an instruction, which is not divided: the stop then waits for it; a stopped task takes its
engine or mover back with its restart point; a cancelled task's slot is freed and the result reported. -/
def Obligations.PreemptionComplete : Prop :=
  (∀ (c : Fin 16) (p : Preempt) (v w : Task) (s : State), KMap.get (fun _ => none) s.sch.preempts c = some p →
    s.task p.victim = some v → s.task p.waiting = some w → p.waiting ≠ p.victim → w.listed = true →
    s.underTest (v.engine / 8) = false → s.xlt.held.any (fun h => h.fr.requester == 0x100 + v.engine) = false →
    Completes (.preemptGraceExpiry c) s fun t =>
      (t.engine v.engine).running = some p.waiting ∧
      (∃ y, t.task p.victim = some y ∧ y.state = .preempted ∧ y.ctx = some p.ctx ∧ y.forced = true) ∧
      ∃ y, t.task p.waiting = some y ∧ y.state = .running ∧ y.engine = v.engine ∧ y.area = 1) ∧
  (∀ (c : Fin 16) (p : Preempt) (v : Task) (s : State), KMap.get (fun _ => none) s.sch.preempts c = some p →
    s.task p.victim = some v → s.xlt.held.any (fun h => h.fr.requester == 0x100 + v.engine) = true →
    Completes (.preemptGraceExpiry c) s fun t =>
      (t.engine v.engine).graceOver = true ∧ (t.engine v.engine).running = (s.engine v.engine).running ∧
      t.sch = s.sch ∧ t.regs = s.regs ∧ t.mem = s.mem) ∧
  (∀ (unit : Fin 144) (slot : Nat) (x : Task) (s : State), unit.val < 128 → (s.engine unit).running = none →
    s.resumeNext unit = some (slot, x) →
    Completes (.taskResume unit) s fun t =>
      (t.engine unit).running = some slot ∧ (t.engine unit).regs.pc = (s.ctx (x.ctx.getD 0)).restart ∧
      t.task slot = some { x with state := .running, ctx := none, resolved := false }) ∧
  (∀ (unit : Fin 144) (slot : Nat) (x : Task) (s : State), 128 ≤ unit.val → (s.mover (unit.val - 128)).task = none →
    (s.mover (unit.val - 128)).run = none → s.resumeNext (0x80 + (unit.val - 128)) = some (slot, x) →
    Completes (.taskResume unit) s fun t =>
      (t.mover (unit.val - 128)).task = some slot ∧
      t.task slot = some { x with state := .running, ctx := none, resolved := false }) ∧
  (∀ (src : Agent) (val : Word) (x : Task) (s : State), s.Inv → s.Passes src F.SCH_CANCEL_TARGET →
    F.SCH_CANCEL_BY_NODE.of val = 0 → F.SCH_CANCEL_CLR_STALL.of val = 0 →
    s.task (F.SCH_CANCEL_TARGET.of val) = some x →
    Completes (.schCancel src val []) s fun t =>
      t.sch.tasks = KMap.set (fun _ => none) s.sch.tasks (F.SCH_CANCEL_TARGET.of val) none ∧
      t.rd F.SCH_CANCEL_RESULT_STATUS = 0 ∧ t.rd F.SCH_CANCEL_RESULT_TASKS = 1)

/-- R130, R133, R136 to R141, R160, R162: an access to a hole reads zeros and is counted; a write into the system region is
discarded, counted and reported; a burst that checks is returned, one that fails is read again, and a write of part of a burst
that fails twice leaves it failing; a training that ends well takes up QDR_CFG and clears the channel's drift, one that fails is reported
and the channel counts as not populated; drift is shown and reported at 24 steps; the error register is emptied; the tags' high-water mark restarts. -/
def Obligations.MemoryCommandsComplete : Prop :=
  (∀ (acc : Access) (s : State), s.Inv → acc.translated = false → s.place acc.addr.toNat = .hole →
    Completes (.holeAccess acc) s fun t =>
      t.rd F.XLT_HOLE_COUNT_COUNT = min (s.rd F.XLT_HOLE_COUNT_COUNT + 1) (2 ^ F.XLT_HOLE_COUNT_COUNT.w - 1) ∧
      t.mem = s.mem ∧ (acc.write = false → t.readData = List.replicate acc.len 0)) ∧
  (∀ (addr : BitVec 40) (bytes : List Byte) (s : State), s.Inv → inSysRegion addr.toNat = true →
    s.place addr.toNat ≠ .queueDescs → bytes ≠ [] → addr.toNat + bytes.length ≤ 0x4000000 →
    Completes (.sysregWrite addr bytes) s fun t =>
      t.rd F.TSTO_WPROT_COUNT_COUNT = min (s.rd F.TSTO_WPROT_COUNT_COUNT + 1) (2 ^ F.TSTO_WPROT_COUNT_COUNT.w - 1) ∧
      t.rd F.TSTO_STATUS_STATUS = 0x0601 ∧ t.rd F.TSTO_STATUS_WPROT = 1 ∧ t.mem = s.mem) ∧
  (∀ (addr : BitVec 40) (second : BurstFlips) (s : State), s.place addr.toNat = .qdr → s.burstBad addr.toNat = false →
    Completes (.qdrReadCheck addr [] second none) s fun t =>
      t.readData = s.bytesAt (addr.toNat / 16 * 16) 16 ∧ t.regs = s.regs ∧ t.mem = s.mem ∧ t.qdr = s.qdr) ∧
  (∀ (addr : BitVec 40) (first second : BurstFlips) (rmw : Option (Fin 16 × List Byte)) (s : State), s.Inv →
    s.place addr.toNat = .qdr →
    let c := (s.qdrLocal addr.toNat).1
    let one := s.burstAs addr.toNat first
    let two := s.burstAs addr.toNat second
    let data := laneBytes (if s.burstOk addr.toNat one then one else two)
    Completes (.qdrReadCheck addr first second rmw) s fun t =>
      (s.burstOk addr.toNat one = true → t.regs = s.regs) ∧
      (s.burstOk addr.toNat one = false →
        t.rd (F.QDR_CRC_RETRY_COUNT c) = min (s.rd (F.QDR_CRC_RETRY_COUNT c) + 1) (2 ^ (F.QDR_CRC_RETRY_COUNT c).w - 1) ∧
        (s.burstOk addr.toNat two = true → t.rd F.QDR_STATUS_STATUS = 0x0701) ∧
        (s.burstOk addr.toNat two = false → t.rd F.QDR_STATUS_STATUS = 0x0702 ∧ t.rd F.QDR_STATUS_CRC_IRQ = 1 ∧
          t.rd (F.QDR_CRC_ERR_COUNT c) = min (s.rd (F.QDR_CRC_ERR_COUNT c) + 1) (2 ^ (F.QDR_CRC_ERR_COUNT c).w - 1))) ∧
      (rmw = none → t.readData = data ∧ t.mem = s.mem ∧ t.qdr = s.qdr) ∧
      (∀ w, rmw = some w →
        let n := min w.2.length (16 - w.1.val)
        t.mem = (s.setBytes (16 * (addr.toNat / 16)) (data.take w.1 ++ w.2.take n ++ data.drop (w.1 + n))).mem ∧
        t.burstBad addr.toNat = (!s.burstOk addr.toNat one && !s.burstOk addr.toNat two))) ∧
  (∀ (src : Agent) (val : Word) (trains : Bool) (s : State), s.Inv → s.Passes src F.QDR_CTRL_RETRAIN →
    let c := F.QDR_CTRL_CHANNEL.of val
    c < s.qdrChannels →
    Completes (.retrain src val trains) s fun t =>
      (t.rd F.QDR_STATUS_TRAINED).testBit c = trains ∧
      (trains = true → t.rd (F.QDR_DRIFT_OFFSET c) = 0 ∧ t.qdr.chans = s.qdrChannels ∧ t.qdr.devs = s.rd F.QDR_CFG_DEVICES) ∧
      (trains = false → t.rd F.QDR_STATUS_STATUS = 0x0703)) ∧
  (∀ (ch : Fin 8) (steps : Fin 65) (s : State), s.Inv →
    Completes (.driftLimit ch steps) s fun t =>
      t.rd (F.QDR_DRIFT_OFFSET ch) = (steps.val + 224) % 256 ∧
      (24 ≤ ((steps.val : Int) - 32).natAbs → t.rd F.QDR_STATUS_STATUS = 0x0704 ∧ t.rd F.QDR_STATUS_DRIFT_IRQ = 1)) ∧
  (∀ (src : Agent) (val : Word) (s : State), s.Inv → s.Passes src F.QDR_ERR_POP_POP → F.QDR_ERR_POP_POP.of val = 1 →
    Completes (.qdrErrPop src val) s fun t => t.rd F.QDR_ERR_ADDR_LO_VALID = 0) ∧
  (∀ (src : Agent) (val : Word) (s : State), s.Inv → s.Passes src F.MESH_CTRL_CLR_HIGH →
    Completes (.clrHigh src val) s fun t =>
      t.rd F.MESH_TAGS_HIGH_WATER = s.rd F.MESH_TAGS_IN_USE % 2 ^ F.MESH_TAGS_HIGH_WATER.w)

/-- R143, R147: spaces are allocated, configured, enabled, disabled and freed; an invalidation starts, and drops the cached
translations of its scope when it is done. -/
def Obligations.TranslationCommandsComplete : Prop :=
  (∀ (src : Agent) (val : Word) (n : Nat) (s : State), s.Inv → s.Passes src F.XLT_SPACE_REQ_ANY →
    (F.XLT_SPACE_REQ_ANY.of val = 1 ∧ lowest 256 (fun k => k != 0 && (s.space k).state == 0) = some n) ∨
      (F.XLT_SPACE_REQ_ANY.of val = 0 ∧ F.XLT_SPACE_REQ_SPACE.of val = n ∧ n ≠ 0 ∧ (s.space n).state = 0) →
    Completes (.xltSpaceReq src val) s fun t =>
      t.space n = { s.space n with state := 1 } ∧ t.rd F.XLT_SPACE_RESULT_STATUS = 0 ∧ t.rd F.XLT_SPACE_RESULT_SPACE = n) ∧
  (∀ (src : Agent) (s : State), s.Inv → s.Passes src F.XLT_SPACE_CMD_CMD →
    let n := s.rd F.XLT_SPACE_SEL_SPACE
    n ≠ 0 →
    ((s.space n).state = 1 → s.rootOk (s.space n).root = true →
      Completes (.spaceEnable src) s fun t => t.space n = { s.space n with state := 2 } ∧ t.rd F.XLT_STATUS_STATUS = 0) ∧
    ((s.space n).state = 2 →
      Completes (.spaceDisable src) s fun t =>
        t.space n = { s.space n with state := 1 } ∧ t.rd F.XLT_STATUS_INV_BUSY = 1 ∧
        t.xlt.inval = some { scope := 1, space := n, disable := true }) ∧
    ((s.space n).state = 1 →
      Completes (.spaceFree src) s fun t =>
        t.xlt.spaces = KMap.set (fun _ => {}) s.xlt.spaces n {} ∧ t.rd F.XLT_STATUS_STATUS = 0)) ∧
  (∀ (src : Agent) (hi : Bool) (val : Word) (s : State),
    s.Passes src (if hi then F.XLT_SPACE_ROOT_HI_ROOT else F.XLT_SPACE_ROOT_LO_ROOT) →
    (s.space (s.rd F.XLT_SPACE_SEL_SPACE)).state = 1 →
    Completes (.spaceRootWrite src hi val) s fun t =>
      let d := s.space (s.rd F.XLT_SPACE_SEL_SPACE)
      t.space (s.rd F.XLT_SPACE_SEL_SPACE) =
        { d with root := if hi then d.root % 2 ^ 32 + val.toNat % 256 * 2 ^ 32
                         else d.root / 2 ^ 32 * 2 ^ 32 + val.toNat / 512 * 512 }) ∧
  (∀ (src : Agent) (val : Word) (s : State), s.Inv → s.Passes src F.XLT_INV_CMD_GO → F.XLT_INV_CMD_GO.of val = 1 →
    F.XLT_INV_CMD_SCOPE.of val ≠ 3 →
    Completes (.xltInvCmd src val) s fun t =>
      t.rd F.XLT_STATUS_INV_BUSY = 1 ∧
      t.xlt.inval = some { scope := F.XLT_INV_CMD_SCOPE.of val, space := F.XLT_INV_CMD_SPACE.of val,
                           page := s.rd F.XLT_INV_VA_HI_VA * 0x10000 + s.rd F.XLT_INV_VA_LO_VA,
                           pages := s.rd F.XLT_INV_PAGES_PAGES }) ∧
  (∀ (i : Inval) (s : State), s.Inv → s.xlt.inval = some i →
    Completes .invalidationDone s fun t =>
      t.xlt.inval = none ∧ t.rd F.XLT_STATUS_INV_BUSY = 0 ∧ (i.scope = 2 → t.xlt.tlb = []) ∧
      (i.scope = 1 → t.xlt.tlb = s.xlt.tlb.filter (fun e => !(e.space == i.space))))

/-- R151 to R156: a failed translation takes the next FAULT_SEQ and writes a record while the fault queue has room; the requester that
waited longest writes its record once there is room; the named fault is retried or aborted, and RETRY_SPACE releases every
fault of a space. -/
def Obligations.FaultCommandsComplete : Prop :=
  (∀ (acc : Access) (stop : StopPoint) (bad : Fin 4) (k l p : Nat) (s : State), s.Inv → acc.translated = true →
    rclassOf acc.mesh.toNat ≠ 0 →
    s.translateAccess acc.space.toNat acc.addr.toNat acc.len acc.write bad = .fault k l p → s.fqCount ≠ 1023 →
    Completes (.translationFault acc stop bad) s fun t =>
      t.xlt.faultSeq = (if s.xlt.faultSeq + 1 = 2 ^ 32 then 1 else s.xlt.faultSeq + 1) ∧
      t.rd F.XLT_FQ_TAIL_TAIL = (s.rd F.XLT_FQ_TAIL_TAIL + 1) % 1024) ∧
  (∀ (h : Held) (s : State), s.Inv → s.fqCount ≠ 1023 → s.xlt.held.find? (fun x => !x.written) = some h →
    Completes .faultQueueWaitEnd s fun t => t.rd F.XLT_FQ_TAIL_TAIL = (s.rd F.XLT_FQ_TAIL_TAIL + 1) % 1024) ∧
  (∀ (src : Agent) (f : FaultAt) (s : State), s.Inv → s.Passes src F.XLT_RESOLVE_CMD_ACTION → s.namedFault = some f →
    (Completes (.retry src) s fun t =>
      t.rd F.XLT_RESOLVE_RESULT_STATUS = 0 ∧ t.rd F.XLT_RESOLVE_RESULT_RELEASED = 1 ∧
      (∀ h, f = .place h → t.xlt.held = s.xlt.held.erase h)) ∧
    (Completes (.abort src) s fun t =>
      t.rd F.XLT_RESOLVE_RESULT_STATUS = 0 ∧ t.rd F.XLT_RESOLVE_RESULT_RELEASED = 1 ∧
      (∀ c x k, f = .slot c x → x.rclass = 1 → x.node ≠ 0 → s.task x.task = some k →
        t.sch.tasks = KMap.set (fun _ => none) s.sch.tasks x.task none))) ∧
  (∀ (src : Agent) (s : State), s.Inv → s.Passes src F.XLT_RESOLVE_CMD_ACTION →
    Completes (.retrySpace src) s fun t =>
      t.rd F.XLT_RESOLVE_RESULT_STATUS = 0 ∧
      t.rd F.XLT_RESOLVE_RESULT_RELEASED =
        (s.faults.filter (fun f => f.space == s.rd F.XLT_RESOLVE_ID_ID % 256)).length % 0x10000)

/-- R149, R150, R159: a doorbell submits descriptors up to the ring's free entries; a COPY or a FILL moves its bytes and finishes, a
descriptor that breaks a rule finishes with its status and moves nothing; a finished descriptor advances HEAD; a DMA_TILE task
that moved its tile ends. -/
def Obligations.MoverCommandsComplete : Prop :=
  (∀ (src : Agent) (m : Fin 16) (val : Word) (s : State), s.Inv → s.Passes src (F.DMA_DB_COUNT m) →
    let n := (F.DMA_DB_COUNT m).of val
    n ≠ 0 → (s.mover m).subs + n ≤ s.ringCap m →
    Completes (.dmaDb src m val) s fun t =>
      t.mover m = { s.mover m with subs := (s.mover m).subs + n } ∧
      t.rd (F.DMA_PTR_TAIL m) = (s.rd (F.DMA_PTR_HEAD m) + (s.mover m).subs + n) % s.ringCap m ∧
      t.rd (F.DMA_PTR_HEAD m) = s.rd (F.DMA_PTR_HEAD m)) ∧
  (∀ (m : Fin 16) (r : MoverRun) (s u : State), (s.mover m).task = none →
    s.xlt.held.any (fun h => h.fr.requester == 0x200 + m.val) = false → (s.mover m).run = some r →
    r.faulted = false → r.finished = false → r.desc.op = 1 ∨ r.desc.op = 2 →
    s.move (if r.desc.op = 2 then none else some (r.desc.srcSpace, r.desc.src))
      (fun i => (leBytes 4 r.desc.fill).getD (i % 4) 0) [(r.desc.dstSpace, r.desc.dst)] r.desc.length r.offset = (none, u) →
    Completes (.descriptorExecute m) s fun t =>
      (t.mover m).run = some { r with offset := r.desc.length, status := 0, finished := true } ∧ t.mem = u.mem) ∧
  (∀ (m : Fin 16) (s : State), (s.mover m).task = none →
    s.xlt.held.any (fun h => h.fr.requester == 0x200 + m.val) = false → (s.mover m).run = none →
    s.on (F.DMA_RING_CFG_EN m) = true → (s.mover m).subs ≠ 0 → s.taskResolved m = false →
    let b := s.physRead (s.descAddr m (s.rd (F.DMA_PTR_HEAD m))) 32
    (descOf b).bad = true →
    Completes (.descriptorExecute m) s fun t =>
      (t.mover m).run = some { desc := descOf b, status := 0x0901, finished := true } ∧ t.mem = s.mem) ∧
  (∀ (m : Fin 16) (r : MoverRun) (s : State), s.Inv → (s.mover m).run = some r → r.finished = true → 0 < s.ringCap m →
    let a := s.descAddr m (s.rd (F.DMA_PTR_HEAD m)) + 30
    s.place a = .tile ∨ s.place a = .qdr →
    Completes (.descriptorComplete m) s fun t =>
      t.movers = KMap.set (fun _ => {}) s.movers m { s.mover m with run := none, subs := (s.mover m).subs - 1 } ∧
      t.rd (F.DMA_PTR_HEAD m) = (s.rd (F.DMA_PTR_HEAD m) + 1) % s.ringCap m ∧ t.mem = (s.setBytes a (leBytes 2 r.status)).mem ∧
      (r.status ≠ 0 → t.rd (F.DMA_STAT_ERR m) = 1 ∧ t.rd (F.DMA_STAT_STATUS m) = r.status % 0x10000)) ∧
  (∀ (m : Fin 16) (slot : Nat) (k : Task) (c : Claim) (e : RingEntry) (s u : State),
    KMap.wf (fun _ => none) s.sch.tasks = true → s.xlt.held.any (fun h => h.fr.requester == 0x200 + m.val) = false →
    (s.mover m).task = some slot → s.task slot = some k → s.nextClaim k 0 = some (c, e) →
    let src := s.slotVia c.qid e.addr
    s.unitStop 0 src 32 false = none →
    s.move (some src) (fun _ => 0) ((k.outs.headD {}).ents.map (fun x => s.slotVia x.1 ((s.queue x.1).slotAddr x.2)))
      (tileLength (s.vread src.1 src.2 32)) (s.mover m).off = (none, u) →
    let b := u.vread src.1 src.2 (tileLength (s.vread src.1 src.2 32))
    let tile := tileOf b e.len16
    let comp := sealResumed b (s.mover m).off (s.mover m).acc
    let r := match u.edge? c.qid with
      | some ed => u.checkTile ed (0x200 + m.val) tile true comp
      | none => ({ outcome := 0, tile := tile }, u)
    r.1.outcome = 3 ∨ k.outs = [] ∨ (k.outs.headD {}).ents.all (fun x =>
      (u.rangeStop (s.slotVia x.1 ((s.queue x.1).slotAddr x.2)) (dmaOut k (k.outs.headD {}) r.1).bytes.length true).isNone) = true →
    Completes (.dmaTaskComplete m) s fun t => t.task slot = none)

/-- R172 to R174: on an engine that acts, a TGET whose tile arrives whole, a TPUT of a reserved entry and a TCHK whose tile is good
complete: the pc passes the instruction, it is retired, and rd takes the result word or the SEQ. -/
def Obligations.TileInstructionsComplete : Prop :=
  (∀ (eng : Fin 128) (pc rs1 : Word) (rd : Fin 32) (imm : BitVec 12) (slot : Nat) (x : Task) (c : Claim) (e : RingEntry) (s u : State),
    s.Acts eng slot x →
    let w := s.libraryWork eng slot
    (w.engine eng).graceOver = false → imm.toNat < 16 → imm.toNat < x.nd.inPorts → rs1.toNat % 16 = 0 → x.isLibrary = false →
    x.input = none → w.nextClaim x imm.toNat = some (c, e) →
    let src := w.slotVia c.qid e.addr
    let h := hdrOf (w.vread src.1 src.2 32)
    let n := 32 + 16 * h.len16
    w.unitStop 0 src 32 false = none → h.valid = true → rs1.toNat + n ≤ x.lmSize → (w.queue c.qid).halted = false →
    w.move (some src) (fun _ => 0) [(0, x.lm + rs1.toNat)] n (16 * w.unitsDone eng 1 imm.toNat rs1.toNat) = (none, u) →
    let tile := tileOf (u.vread src.1 src.2 n) h.len16
    Completes (.tget eng pc rd rs1 imm) s fun t =>
      (t.engine eng).regs.pc = (pc.toNat + 4) % 2 ^ 32 ∧ (t.engine eng).minstret = ((w.engine eng).minstret + 1) % 2 ^ 64 ∧
      t.mem = (u.setBytes (x.lm + rs1.toNat) tile.bytes).mem ∧
      (0 < rd.val → (t.engine eng).regs.x = (w.engine eng).regs.x.set rd.val (BitVec.ofNat 32 (tileResult 0 tile.hdr.len16)))) ∧
  (∀ (eng : Fin 128) (pc rs1 : Word) (rd : Fin 32) (imm : BitVec 12) (slot : Nat) (x : Task) (o : OutRes) (s u : State),
    s.Acts eng slot x →
    let w := s.libraryWork eng slot
    (w.engine eng).graceOver = false → imm.toNat < 16 → imm.toNat < x.nd.outPorts → rs1.toNat % 16 = 0 → x.isLibrary = false →
    x.nextOut imm.toNat = some o →
    let h := hdrOf (w.bytesAt (x.lm + rs1.toNat) 32)
    w.putInvalid x (o.ents.map (fun e => e.1)) h = false → rs1.toNat + 32 + 16 * h.len16 ≤ x.lmSize →
    let tile := ({ hdr := x.putHeader o.seq h, payload := w.bytesAt (x.lm + rs1.toNat + 32) (16 * h.len16) } : Tile).sealed
    w.move none (fun i => tile.bytes.getD i 0) (o.ents.map (fun e => w.slotVia e.1 ((w.queue e.1).slotAddr e.2)))
      tile.bytes.length (16 * w.unitsDone eng 2 o.port rs1.toNat) = (none, u) →
    Completes (.tput eng pc rd rs1 imm) s fun t =>
      (t.engine eng).regs.pc = (pc.toNat + 4) % 2 ^ 32 ∧ (t.engine eng).minstret = ((w.engine eng).minstret + 1) % 2 ^ 64 ∧
      (∃ y, t.task slot = some y ∧ y.outs = x.outs.map (fun z => if z = o then { z with done := true } else z)) ∧
      (0 < rd.val → (t.engine eng).regs.x = (w.engine eng).regs.x.set rd.val (BitVec.ofNat 32 o.seq))) ∧
  (∀ (eng : Fin 128) (pc rs1 : Word) (rd : Fin 32) (imm : BitVec 12) (slot : Nat) (x : Task) (a b : Nat × Nat) (s u : State),
    s.Acts eng slot x →
    let w := s.libraryWork eng slot
    (w.engine eng).graceOver = false → imm.toNat < 32 → 16 ≤ imm.toNat → imm.toNat % 16 < x.nd.inPorts → rs1.toNat % 16 = 0 →
    x.reach rs1.toNat 32 = some a → w.unitStop 0 a 32 false = none →
    let h := hdrOf (w.vread a.1 a.2 32)
    let n := 32 + (if h.valid then 16 * h.len16 else 0)
    x.reach rs1.toNat n = some b →
    w.move (some b) (fun _ => 0) [] n (16 * w.unitsDone eng 3 (imm.toNat % 16) rs1.toNat) = (none, u) →
    let data := u.vread b.1 b.2 n
    let tile := tileOf data 0
    verify tile true (u.tileSeal eng 3 (imm.toNat % 16) rs1.toNat data) = none →
    Completes (.tchk eng pc rd rs1 imm) s fun t =>
      (t.engine eng).regs.pc = (pc.toNat + 4) % 2 ^ 32 ∧ (t.engine eng).minstret = ((w.engine eng).minstret + 1) % 2 ^ 64 ∧
      (0 < rd.val → (t.engine eng).regs.x = (w.engine eng).regs.x.set rd.val (BitVec.ofNat 32 (tileResult 0 tile.hdr.len16))))

/-- R175, R176: QSIG commits the entries it counts and QWAIT proceeds when they are there, and both give COUNT less CLAIMED; PPT
goes on when no preemption is requested, and gives the engine to the waiting task when one is. -/
def Obligations.QueueInstructionsComplete : Prop :=
  (∀ (eng : Fin 128) (pc rs1 rs2 : Word) (rd : Fin 32) (slot : Nat) (x : Task) (s : State), s.Acts eng slot x →
    let w := s.libraryWork eng slot
    let id := rs1.toNat % 0x10000
    let q := w.queue id
    id ≠ 0xFFFF → rs2.toNat ≠ 0 → q.state = qEnabled → rs2.toNat ≤ q.free →
    Completes (.qsig eng pc rd rs1 rs2 0) s fun t =>
      t.queue id = { q with count := q.count + rs2.toNat, highWater := max q.highWater (q.count + rs2.toNat + q.reserved) } ∧
      (t.engine eng).regs.pc = (pc.toNat + 4) % 2 ^ 32 ∧
      (0 < rd.val → (t.engine eng).regs.x =
        (w.engine eng).regs.x.set rd.val (BitVec.ofNat 32 (q.count + rs2.toNat - q.claimed)))) ∧
  (∀ (eng : Fin 128) (pc rs1 rs2 : Word) (rd : Fin 32) (f : BitVec 7) (slot : Nat) (x : Task) (s : State),
    s.Acts eng slot x → f.toNat ≤ 1 →
    let w := s.libraryWork eng slot
    let id := rs1.toNat % 0x10000
    let q := w.queue id
    id ≠ 0xFFFF → q.state = qEnabled → f.toNat = 1 ∨ rs2.toNat ≤ q.count - q.claimed →
    Completes (.qwait eng pc rd rs1 rs2 f) s fun t =>
      t.hq = w.hq ∧ (t.engine eng).regs.pc = (pc.toNat + 4) % 2 ^ 32 ∧
      (0 < rd.val → (t.engine eng).regs.x = (w.engine eng).regs.x.set rd.val (BitVec.ofNat 32 (q.count - q.claimed)))) ∧
  (∀ (eng : Fin 128) (pc : Word) (slot : Nat) (x : Task) (s : State), s.Acts eng slot x →
    let w := s.libraryWork eng slot
    w.preemptOf slot = none →
    Completes (.ppt eng pc) s fun t =>
      (t.engine eng).regs.pc = (pc.toNat + 4) % 2 ^ 32 ∧ (t.engine eng).running = some slot ∧ t.sch = w.sch) ∧
  (∀ (eng : Fin 128) (pc : Word) (c slot : Nat) (p : Preempt) (x y : Task) (s : State), s.Acts eng slot x →
    let w := s.libraryWork eng slot
    w.preemptOf slot = some (c, p) → KMap.get (fun _ => none) w.sch.preempts c = some p →
    x.engine = eng.val → w.task p.waiting = some y → p.waiting ≠ slot → y.listed = true → w.underTest (eng.val / 8) = false →
    Completes (.ppt eng pc) s fun t =>
      (t.engine eng).running = some p.waiting ∧
      (∃ z, t.task slot = some z ∧ z.state = .preempted ∧ z.ctx = some p.ctx) ∧
      ∃ z, t.task p.waiting = some z ∧ z.state = .running ∧ z.engine = eng)

/-- R163, R164, R166, R170, R181 to R185: an ECALL ends the task; a trap is captured and ends it; an install or a load starts while none is in
progress and takes effect when its check passes; CNT_CLR clears every engine's counters. In a REF cycle an engine executes the
ADDI, LW or SW at its pc. -/
def Obligations.EngineCommandsComplete : Prop :=
  (∀ (eng : Fin 128) (a0 : Word) (slot : Nat) (x : Task) (s : State), s.Acts eng slot x →
    Completes (.ecall eng a0) s fun t =>
      t.sch.tasks = KMap.set (fun _ => none) (s.libraryWork eng slot).sch.tasks slot none) ∧
  (∀ (eng : Fin 128) (cause : Byte) (tval pc : Word) (slot : Nat) (x : Task) (s : State), s.Inv →
    s.Acts eng slot x →
    let w := s.libraryWork eng slot
    w.rd (F.ENG_E_TRAP_VALID eng) = 0 →
    Completes (.engineTrap eng cause tval pc) s fun t =>
      t.sch.tasks = KMap.set (fun _ => none) w.sch.tasks slot none ∧
      ∃ u : State, u.sch = w.sch ∧ u.rd (F.ENG_E_TRAP_VALID eng) = 1 ∧
        u.rd (F.ENG_E_TRAP_CAUSE eng) = cause.toNat % 2 ^ (F.ENG_E_TRAP_CAUSE eng).w ∧
        u.rd (F.ENG_E_TRAP_NODE_ID eng) = x.node % 2 ^ (F.ENG_E_TRAP_NODE_ID eng).w ∧
        u.rd (F.ENG_E_TVAL_V eng) = tval.toNat ∧ u.rd (F.ENG_E_TPC_V eng) = pc.toNat ∧
        u.rd F.ENG_STATUS_TRAP_IRQ = 1 ∧ t = u.endTask slot 0x0C01) ∧
  (∀ (src : Agent) (val : Word) (s : State), s.Inv → s.Passes src F.ENG_KTAB_CMD_INSTALL → s.rd F.ENG_STATUS_LIB_BUSY = 0 →
    Completes (.install src val) s fun t =>
      t.eng = { s.eng with op := some (.install (s.rd F.ENG_KTAB_ADDR_HI_ADDR * 2 ^ 32 + s.rd F.ENG_KTAB_ADDR_LO_ADDR * 64)
        (F.ENG_KTAB_CMD_COUNT.of val)) } ∧ t.rd F.ENG_STATUS_LIB_BUSY = 1) ∧
  (∀ (src : Agent) (val : Word) (s : State), s.Inv → s.Passes src F.ENG_LIB_CMD_LOAD → s.rd F.ENG_STATUS_LIB_BUSY = 0 →
    Completes (.libLoad src val) s fun t =>
      t.eng = { s.eng with op := some (.load (s.rd F.ENG_LIB_ADDR_HI_ADDR * 2 ^ 32 + s.rd F.ENG_LIB_ADDR_LO_ADDR * 64)
        (s.rd F.ENG_LIB_LEN_LEN)) } ∧ t.rd F.ENG_STATUS_LIB_BUSY = 1) ∧
  (∀ (a n : Nat) (ks : List Kernel) (s : State), s.Inv → s.eng.op = some (.install a n) → s.installCheck a n = (0, ks) →
    Completes .libOperationDone s fun t =>
      t.eng = { s.eng with ktab := ks, op := none } ∧ t.rd F.ENG_STATUS_LIB_BUSY = 0 ∧ t.rd F.ENG_STATUS_STATUS = 0 ∧
      t.rd F.ENG_STATUS_KTAB_VALID = (if n = 0 then 0 else 1) ∧ t.rd F.ENG_STATUS_LIB_IRQ = 1) ∧
  (∀ (a n v : Nat) (ks : List Kernel) (s : State), s.Inv → s.eng.op = some (.load a n) → s.libCheck a n = (0, ks, v) →
    Completes .libOperationDone s fun t =>
      t.eng = { s.eng with lib := ks, op := none } ∧ t.rd F.ENG_STATUS_LIB_BUSY = 0 ∧ t.rd F.ENG_STATUS_LIB_VALID = 1 ∧
      t.rd F.ENG_STATUS_STATUS = 0 ∧ t.rd F.ENG_LIB_INFO_LIB_VERSION = v % 2 ^ F.ENG_LIB_INFO_LIB_VERSION.w) ∧
  (∀ (src : Agent) (val : Word) (s : State), KMap.wf (fun _ => {}) s.eng.engines = true → s.Passes src F.ENG_CTRL_CNT_CLR →
    Completes (.cntClr src val) s fun t =>
      ∀ k < 128, t.engine k = { s.engine k with mcycle := 0, minstret := 0, vec := 0, tstall := 0, mstall := 0 }) ∧
  (∀ (eng : Fin 128) (slot : Nat) (x : Task) (rd rs1 rs2 : Fin 32) (imm : Int) (s : State), s.running eng = some (slot, x) →
    s.engineHeld eng = false → x.isLibrary = false → (s.engine eng).waiting = false → -2048 ≤ imm → imm < 2048 →
    let r := (s.engine eng).regs
    let a := wrap32 ((r.rx rs1 : Int) + imm)
    let t := s.coreStep eng
    (s.fetchInstr x r.pc = .word (mkI 0x13 0 rd rs1 imm) 4 →
      (t.engine eng).regs = (r.wx rd a).go 4 ∧ (t.engine eng).minstret = ((s.engine eng).minstret + 1) % 2 ^ 64 ∧ t.mem = s.mem) ∧
    (s.fetchInstr x r.pc = .word (mkI 0x03 2 rd rs1 imm) 4 → a % 4 = 0 → a + 4 ≤ x.lmSize →
      (t.engine eng).regs = (r.wx rd (le (s.vread 0 (x.lm + a) 4))).go 4 ∧ t.mem = s.mem) ∧
    (s.fetchInstr x r.pc = .word (mkS 0x23 2 rs1 rs2 imm.toNat) 4 → 0 ≤ imm → a % 4 = 0 → a + 4 ≤ x.lmSize →
      (t.engine eng).regs = r.go 4 ∧ t.mem = (s.vwrite 0 (x.lm + a) (leBytes 4 (r.rx rs2))).mem))

/-- R190, R193, R194, R203, R212, R215: a group is enabled and its counters are cleared; its lanes lock and align, the group aligns when all
that it depends on have, and comes up at the second equal deskew column; a code group in error is counted, and one that makes the fourth
in 64 takes the alignment back, and an underrun ends LINK_UP. -/
def Obligations.LaneCommandsComplete : Prop :=
  (∀ (src : Agent) (g : Fin 4) (val : Word) (s : State), s.Inv → s.Passes src (F.SLK_G_CFG_EN g) →
    s.rd (F.SLK_G_CFG_EN g) = 0 → (F.SLK_G_CFG_EN g).of val = 1 → (F.SLK_G_CFG_LOOP g).of val = 0 →
    (F.SLK_G_CFG_TX_MODE g).of val ≤ 1 → s.laneUnderTest (0x20 + g) = false →
    Completes (.groupEnable src g val) s fun t =>
      t.rd (F.SLK_G_CFG_EN g) = 1 ∧ t.gstate g = 1 ∧ ∀ p < 9, t.rd (F.SLK_L_STATUS_LSTATE (9 * g + p)) = 0) ∧
  (∀ (src : Agent) (g : Fin 4) (val : Word) (inc : BitVec 18) (s : State), s.Inv → s.Passes src (F.SLK_G_CFG_EN g) →
    s.grpCfgBad g (val ||| 0x40000000) = false → s.rd (F.SLK_G_CFG_EN g) = 1 → (F.SLK_G_CFG_EN g).of val = 1 →
    (F.SLK_G_CFG_LOOP g).of val = s.rd (F.SLK_G_CFG_LOOP g) → s.laneUnderTest (0x20 + g) = false →
    Completes (.slkCntClr src g val inc) s fun t =>
      ∀ i < 18, t.rd ((grpCounters g).getD i (F.SLK_G_HCRC_ERR_COUNT g)) = if inc.getLsbD i then 1 else 0) ∧
  (∀ (l : Fin 36) (s : State), s.Inv → s.laneUsed l = true →
    (s.rd (F.SLK_L_STATUS_LSTATE l) = 0 →
      Completes (.cdrLocked l) s fun t => t.rd (F.SLK_L_STATUS_LSTATE l) = 1 ∧ t.slk = s.slk) ∧
    (s.rd (F.SLK_L_STATUS_LSTATE l) = 1 →
      Completes (.laneAligned l) s fun t =>
        t.rd (F.SLK_L_STATUS_LSTATE l) = 2 ∧
        (s.gstate (l / 9) = 1 → (∀ k ∈ s.grpCarry (l / 9), k ≠ l → s.rd (F.SLK_L_STATUS_LSTATE k) = 2) → t.gstate (l / 9) = 2)) ∧
    (∀ v : BitVec 10, s.rd (F.SLK_L_STATUS_LSTATE l) = 2 →
      let r := (KMap.get (fun _ => {}) (s.grp (l / 9)).lanes (l % 9)).take v.toNat
      Completes (.laneAlignLoss l [v]) s fun t =>
        t.rd (F.SLK_L_ERR_COUNT l) = min (s.rd (F.SLK_L_ERR_COUNT l) + (if r.1 then 1 else 0)) (2 ^ 32 - 1) ∧
        (r.2.failing = false → t.rd (F.SLK_L_STATUS_LSTATE l) = 2 ∧ t.gstate (l / 9) = s.gstate (l / 9)) ∧
        (r.2.failing = true → s.gstate (l / 9) = 2 → l.val ∈ s.grpCarry (l / 9) →
          t.rd (F.SLK_L_STATUS_LSTATE l) = 1 ∧ t.gstate (l / 9) = 1))) ∧
  (∀ (g : Fin 4) (skews : List Byte) (together : Bool) (s : State), s.Inv → s.gstate g = 2 → s.allAligned g = true →
    let l := (s.grpCarry g).mapIdx (fun i _ => (skews.map (fun b => b.toNat)).getD i 0)
    l.any (fun x => decide (31 < x)) = false →
    Completes (.deskew g skews together) s fun t =>
      ((s.grp g).skews = some l → t.gstate g = 3) ∧
      ((s.grp g).skews ≠ some l → t.gstate g = 2 ∧ (t.grp g).skews = some l)) ∧
  (∀ (g : Fin 4) (s : State), s.Inv → s.gstate g = 3 → s.intakeOf g = none →
    Completes (.laneUnderrun g) s fun t =>
      t.gstate g = 4 ∧ t.rd ⟨(F.SLK_G_STATUS_STATUS g).off, 4, 1⟩ = 1 ∧ t.rd ⟨(F.SLK_G_STATUS_STATUS g).off, 3, 1⟩ = 1 ∧
      t.rd (F.SLK_G_UNDERRUN_COUNT g) = min (s.rd (F.SLK_G_UNDERRUN_COUNT g) + 1) (2 ^ 32 - 1)) ∧
  (∀ (g : Fin 4) (n : Node) (f : IFrame) (s : State), s.gstate g = 3 → s.intakeOf g = some n →
    (s.intake n.id).frames.getLast? = some f →
    Completes (.laneUnderrun g) s fun t =>
      ∃ e, (t.intake n.id).frames.getLast? = some e ∧ (e.complete = true ∨ g.val ∈ e.left))

/-- R199 to R202, R205, R207, R213: packets without an error take effect on a group that is LINK_UP: FS starts a frame, FE and LINE are
noted for it, EMB adds its record, a response ends its command's wait, a TEST packet is counted, or in a near loopback the module's own that
returns, and the tiles of a ready row are emitted while there is room. -/
def Obligations.SensorPacketsComplete : Prop :=
  (∀ (g : Fin 4) (p : SlkPacket) (n : Node) (s : State), s.gstate g = 3 → s.intakeOf g = some n → pktFld p 1 1 % 16 = n.par 0 1 →
    (goodPacket 1 p → (s.intake n.id).fcnt ≠ some (pktFld p 6 2) →
      s.image.tbs.any (fun t => t.kind == 1 && t.source == n.stream) = false →
      ∀ cancel, Completes (.fs g p cancel) s fun t =>
        (t.intake n.id).fcnt = some (pktFld p 6 2) ∧
        ∃ f, (t.intake n.id).frames.getLast? = some f ∧ f.fcnt = pktFld p 6 2 ∧ f.complete = false) ∧
    (∀ f, (s.grp g).seenFs = true → (s.intake n.id).fcnt = some (pktFld p 6 2) → (s.intake n.id).frames.getLast? = some f →
      f.complete = false →
      (goodPacket 2 p →
        Completes (.fe g p) s fun t =>
          ∃ e, (t.intake n.id).frames.getLast? = some e ∧ e.num = f.num ∧ g.val ∈ e.fe) ∧
      (goodPacket 3 p → pktFld p 10 1 = (s.framePix n f).packing → s.lineOk g n p = true →
        Completes (.line g p) s fun t =>
          ∃ e, (t.intake n.id).frames.getLast? = some e ∧ e.num = f.num ∧
            KMap.get (fun _ => none) e.lastLine g = some (pktFld p 2 2)) ∧
      (goodPacket 4 p → n.takesMeta = true → f.metaBytes.length + 4 + p.payload.length ≤ (s.framePix n f).maxPayload →
        Completes (.emb g p) s fun t =>
          (t.intake n.id).frames.getLast? =
            some { f with metaBytes := f.metaBytes ++ leBytes 2 (pktFld p 2 2) ++ leBytes 2 (pktFld p 4 2) ++ p.payload }))) ∧
  (∀ (g : Fin 4) (p : SlkPacket) (s : State), s.Inv → s.gstate g = 3 ∨ s.gstate g = 5 →
    (goodPacket 0x12 p → (s.grp g).phase = .sent → (s.grp g).tagOut = some (pktFld p 2 2) → (s.grp g).stopping = false →
      leAt p.payload 0 4 = 0 →
      Completes (.cmdRsp g p) s fun t =>
        (t.grp g).phase = .acted ∧ (t.grp g).rspOk = true ∧ (t.grp g).tagOut = none ∧ t.rd (F.SLK_G_SEQ_STATUS_WAITING g) = 0 ∧
        (seqField (s.grp g).table (s.rd (F.SLK_G_SEQ_STATUS_STATE g)) 0 1 = 2 → t.rd (F.SLK_G_SEQ_ACC_ACC g) = leAt p.payload 4 4)) ∧
    (goodPacket 0x20 p → pktTestOk p = true → s.rd (F.SLK_G_CFG_LOOP g) = 0 ∨ s.rd (F.SLK_G_CFG_LOOP g) = 3 →
      Completes (.test g p) s fun t =>
        t.rd (F.SLK_G_TEST_OK_COUNT g) = min (s.rd (F.SLK_G_TEST_OK_COUNT g) + 1) (2 ^ 32 - 1)) ∧
    (s.rd (F.SLK_G_CFG_LOOP g) = 1 ∨ s.rd (F.SLK_G_CFG_LOOP g) = 2 → p.errors = [] → 0 < (s.grp g).echo.left →
      (s.grp g).echo.next < 256 → 4 ≤ (s.grp g).echo.bytes → (s.grp g).echo.bytes ≤ 16384 →
      Completes (.test g p) s fun t =>
        t.rd (F.SLK_G_TEST_OK_COUNT g) = min (s.rd (F.SLK_G_TEST_OK_COUNT g) + 1) (2 ^ 32 - 1) ∧
        (t.grp g).echo = { (s.grp g).echo with next := ((s.grp g).echo.next + 1) % 256, left := (s.grp g).echo.left - 1 })) ∧
  (∀ (node : BitVec 16) (n : Node) (f : IFrame) (s : State),
    s.image.nodes.find? (fun n => n.kind == 1 && n.id == node.toNat) = some n →
    let m := s.metaDrain n
    (m.intake n.id).frames = [f] → m.rowIsReady n = true → m.tileHasRoom n = true →
    Completes (.tileRowEmit node) s fun t =>
      ∃ e, (t.intake n.id).frames = [e] ∧ e.num = f.num ∧
        (f.nextRow < e.nextRow ∨ f.nextRow = e.nextRow ∧ f.nextCol < e.nextCol))

/-- R207 to R211: START runs the table of a sequencer, STOP ends a run that awaits no response, an entry sets the accumulator, waits its
WAIT before it takes its condition, or sends its command, a response that does not come is reported, and mirroring starts and ends with its notice. -/
def Obligations.SequencerComplete : Prop :=
  (∀ (src : Agent) (g : Fin 4) (val : Word) (x : Table) (s : State), s.Inv → KMap.wf (fun _ => {}) s.slk = true →
    s.Passes src (F.SLK_G_SEQ_CMD_START g) → s.rd (F.SLK_G_SEQ_STATUS_RUNNING g) = 0 → (F.SLK_G_SEQ_CMD_STOP g).of val = 0 →
    findTable s.image.tables ((F.SLK_G_SEQ_CMD_TABLE_ID g).of val) = some x → x.kind = 5 → x.p1 % 256 = 0x10 →
    (F.SLK_G_SEQ_CMD_TRIGGER g).of val ≤ 1 →
    Completes (.seqStart src g val) s fun t =>
      t.rd (F.SLK_G_SEQ_STATUS_RUNNING g) = 1 ∧ t.rd (F.SLK_G_SEQ_ACC_ACC g) = 0 ∧
      t.rd (F.SLK_G_SEQ_STATUS_STATE g) = x.p0 / 65536 % 1024 ∧ (t.grp g).table = s.tableBody x ∧
      (t.grp g).phase = if (F.SLK_G_SEQ_CMD_TRIGGER g).of val = 1 then .trigger else .ready) ∧
  (∀ (src : Agent) (g : Fin 4) (val : Word) (s : State), s.Inv → s.Passes src (F.SLK_G_SEQ_CMD_STOP g) →
    s.rd (F.SLK_G_SEQ_STATUS_RUNNING g) = 1 → (F.SLK_G_SEQ_CMD_START g).of val = 0 →
    Completes (.seqStop src g val) s fun t =>
      ((s.grp g).phase = .sent ∨ (s.grp g).phase = .unsent →
        (t.grp g).stopping = true ∧ t.rd (F.SLK_G_SEQ_STATUS_RUNNING g) = 1) ∧
      ((s.grp g).phase ≠ .sent → (s.grp g).phase ≠ .unsent →
        t.rd (F.SLK_G_SEQ_STATUS_RUNNING g) = 0 ∧ t.rd ⟨(F.SLK_G_STATUS_STATUS g).off, 7, 1⟩ = 1)) ∧
  (∀ (g : Fin 4) (s : State), s.Inv → s.rd (F.SLK_G_SEQ_STATUS_RUNNING g) = 1 → (s.grp g).phase = .ready →
    let v := s.grp g
    let e (o len : Nat) : Nat := seqField v.table (s.rd (F.SLK_G_SEQ_STATUS_STATE g)) o len
    (e 0 1 = 4 → e 6 2 ≠ 0 →
      Completes (.seqEntry g) s fun t =>
        t.rd (F.SLK_G_SEQ_ACC_ACC g) = e 8 4 ∧ (t.grp g).phase = .acted ∧
        t.rd (F.SLK_G_SEQ_STATUS_STATE g) = s.rd (F.SLK_G_SEQ_STATUS_STATE g)) ∧
    (e 0 1 = 4 → e 6 2 = 0 → e 1 1 = 0 → e 2 2 ≠ 0xFFFF →
      Completes (.seqEntry g) s fun t =>
        t.rd (F.SLK_G_SEQ_ACC_ACC g) = e 8 4 ∧ t.rd (F.SLK_G_SEQ_STATUS_STATE g) = e 2 2 % 1024 ∧
        t.rd (F.SLK_G_SEQ_STATUS_RUNNING g) = 1) ∧
    (1 ≤ e 0 1 → e 0 1 ≤ 2 → s.seqMaySend g = true →
      Completes (.seqEntry g) s fun t =>
        (t.grp g).phase = .sent ∧ (t.grp g).tagOut = some v.tag ∧ (t.grp g).tag = (v.tag + 1) % 65536 ∧
        (t.grp g).lastTx = slkPacket (if e 0 1 = 1 then 0x10 else 0x11) v.tag v.txSeq
          (if e 0 1 = 1 then leBytes 4 (e 8 4) ++ leBytes 4 (e 12 4) else leBytes 4 (e 8 4)))) ∧
  (∀ (g : Fin 4) (s : State), s.Inv → (s.grp g).phase = .sent → (s.grp g).stopping = false →
    Completes (.seqRspTimeout g) s fun t =>
      t.rd (F.SLK_G_SEQ_STATUS_STATUS g) = 0x100C ∧ (t.grp g).phase = .acted ∧ (t.grp g).rspOk = false ∧ (t.grp g).tagOut = none) ∧
  (∀ (g : Fin 4) (s : State), s.Inv → s.gstate g = 3 →
    (s.rd (F.SLK_G_CFG_TX_MODE g) = 1 → s.rd (F.SLK_G_STATUS_MIRRORING g) = 0 →
      Completes (.mirror g) s fun t =>
        t.rd (F.SLK_G_STATUS_MIRRORING g) = 1 ∧ (t.grp g).lastTx = slkPacket 0x13 0 (s.grp g).txSeq (leBytes 4 1)) ∧
    (s.rd (F.SLK_G_CFG_TX_MODE g) = 0 → s.rd (F.SLK_G_STATUS_MIRRORING g) = 1 →
      Completes (.mirror g) s fun t => t.rd (F.SLK_G_STATUS_MIRRORING g) = 0))

/-- R212 to R214: a takeover and a release of the spare lane start, and end with a match or without; a test run starts and ends; the
clock monitor follows the clock's loss, its windows and its glitches. -/
def Obligations.SpareAndClockComplete : Prop :=
  (∀ (src : Agent) (g : Fin 4) (val : Word) (s : State), s.Inv → s.gstate g = 3 → (s.grp g).spare = none → s.mnt.acts = [] →
    s.rd F.UPD_STATUS_STATE ≠ 3 → s.Passes src (F.SLK_G_SPARE_TAKEOVER g) →
    (s.rd (F.SLK_G_STATUS_SPARE_ACTIVE g) = 0 → (F.SLK_G_SPARE_RELEASE g).of val = 0 →
      Completes (.spareTakeover src g val) s fun t =>
        (t.grp g).spare = some (false, (F.SLK_G_SPARE_POSITION g).of val) ∧
        (t.grp g).lastTx = slkPacket 0x15 0 (s.grp g).txSeq (leBytes 4 ((F.SLK_G_SPARE_POSITION g).of val))) ∧
    (s.rd (F.SLK_G_STATUS_SPARE_ACTIVE g) = 1 → (F.SLK_G_SPARE_TAKEOVER g).of val = 0 →
      Completes (.release src g val) s fun t => (t.grp g).spare = some (true, ((s.grp g).spareFor).getD 0) ∧ (t.grp g).txSeq = (s.grp g).txSeq)) ∧
  (∀ (g : Fin 4) (rel : Bool) (pos : Nat) (s : State), s.Inv → (s.grp g).spare = some (rel, pos) →
    Completes (.spareMatch g) s (fun t =>
      t.rd (F.SLK_G_STATUS_SPARE_ACTIVE g) = (if rel then 0 else 1) ∧
      (t.grp g).spareFor = (if rel then none else some pos) ∧
      t.mnt.acts = s.mnt.acts.eraseP (fun r => r.act == .spare g rel)) ∧
    Completes (.spareFail g) s (fun t =>
      t.rd (F.SLK_G_STATUS_SPARE_ACTIVE g) = s.rd (F.SLK_G_STATUS_SPARE_ACTIVE g) ∧ t.rd (F.SLK_G_STATUS_STATUS g) = 0x100F ∧
      (t.grp g).spareFor = (s.grp g).spareFor ∧
      t.mnt.acts = s.mnt.acts.eraseP (fun r => r.act == .spare g rel))) ∧
  (∀ (src : Agent) (g : Fin 4) (val : Word) (s : State), s.Inv → s.Passes src (F.SLK_G_TEST_GO g) →
    (F.SLK_G_TEST_COUNT g).of val ≠ 0 →
    Completes (.testGo src g val) s fun t => (t.grp g).test = some ((F.SLK_G_TEST_COUNT g).of val, 0)) ∧
  (∀ (g : Fin 4) (count back : Nat) (s : State), s.Inv → (s.grp g).test = some (count, back) →
    Completes (.testRunEnd g) s fun t =>
      t.rd (F.SLK_G_TEST_ERR_COUNT g) = min (s.rd (F.SLK_G_TEST_ERR_COUNT g) + (count - back)) (2 ^ 32 - 1) ∧
      t.rd ⟨(F.SLK_G_STATUS_STATUS g).off, 6, 1⟩ = 1) ∧
  (∀ (g : Fin 4) (s : State), s.Inv → s.rd (F.SLK_G_STATUS_CLK g) ≠ 0 → s.gstate g ≠ 3 ∨ s.intakeOf g = none →
    Completes (.clockLost g) s fun t =>
      t.rd (F.SLK_G_STATUS_CLK g) = 0 ∧ t.rd (F.SLK_G_STATUS_STATUS g) = 0x1008 ∧
      t.gstate g = (if s.gstate g = 0 ∨ s.gstate g = 5 then s.gstate g else 1) ∧
      ∀ p < 9, t.rd (F.SLK_L_STATUS_LSTATE (9 * g + p)) = 0) ∧
  (∀ (g : Fin 4) (ppm : Int) (s : State), s.Inv → s.rd (F.SLK_G_CFG_EN g) = 1 → -1000 ≤ ppm → ppm ≤ 1000 →
    (s.grp g).glitches ≤ s.rd (F.SLK_G_CLK_GLITCH_LIMIT g) →
    Completes (.clockWindowEnd g ppm) s fun t =>
      t.rd (F.SLK_G_STATUS_CLK g) = 2 ∧ t.rd (F.SLK_G_CLK_PPM g) = (ppm % 65536).toNat) ∧
  (∀ (g : Fin 4) (s : State), s.Inv → s.rd (F.SLK_G_CFG_EN g) = 1 →
    Completes (.glitch g) s fun t =>
      t.rd (F.SLK_G_GLITCH_COUNT g) = min (s.rd (F.SLK_G_GLITCH_COUNT g) + 1) (2 ^ 32 - 1) ∧
      (t.grp g).glitches = (s.grp g).glitches + 1)

/-- R240 to R244, R247, R249, R266: a port is enabled and shut down once no command of it is outstanding, is handed to the writer, and
its link comes up at a width the port has, and goes; a
magazine's requests reach memory or raise a message; a configuration read takes its answer; an extent count is raised. -/
def Obligations.MagazinePortsComplete : Prop :=
  (∀ (src : Agent) (p : Fin 4) (val : Word) (s : State), s.Inv → s.Passes src (F.MAG_P_CTRL_EN p) →
    s.rd (F.MAG_P_CTRL_HWQ_EN p) = 0 →
    (s.rd (F.MAG_P_CTRL_EN p) = 0 → (F.MAG_P_CTRL_EN p).of val = 1 → (F.MAG_P_CTRL_HWQ_EN p).of val = 0 → s.pstate p = 0 →
      s.magPortExists p = true →
      Completes (.magPortEnable src p val) s fun t => t.rd (F.MAG_P_CTRL_EN p) = 1 ∧ t.pstate p = 1) ∧
    (s.rd (F.MAG_P_CTRL_EN p) = 1 → (F.MAG_P_CTRL_EN p).of val = 0 → (F.MAG_P_CTRL_HWQ_EN p).of val = 0 → s.pstate p ≠ 0 →
      Completes (.magPortEnable src p val) s fun t => t.rd (F.MAG_P_CTRL_EN p) = 0 ∧ t.pstate p = 7) ∧
    (s.rd (F.MAG_P_CTRL_EN p) = 1 → (F.MAG_P_CTRL_EN p).of val = 1 → s.hwqOk p = true → s.pstate p = 2 →
      Completes (.hwqEn src p val) s fun t =>
        t.rd (F.MAG_P_CTRL_HWQ_EN p) = 1 ∧ t.pstate p = 3 ∧ t.rd (F.MAG_P_EXT_POS_INDEX p) = 0 ∧
        t.mag.ports = KMap.set (fun _ => {}) s.mag.ports p { lost := (s.magPort p).lost })) ∧
  (∀ (p : Fin 4) (s : State), s.Inv → s.pstate p = 7 →
    ((s.magPort p).out = [] →
      Completes (.magShutdownEnd p) s fun t =>
        t.pstate p = (if s.rd (F.MAG_P_STATUS_PENDING_ENABLE p) = 1 then 1 else 0) ∧ t.rd (F.MAG_P_STATUS_SPEED p) = 0 ∧
        t.rd (F.MAG_P_STATUS_PENDING_ENABLE p) = 0 ∧
        (s.rd (F.MAG_P_STATUS_SPEED p) ≠ 0 → t.rd (F.MAG_P_STATUS_LINK_IRQ p) = 1 ∧ t.rd F.MAG_STATUS_PORT_IRQ = 1)) ∧
    ((s.magPort p).out ≠ [] → Completes (.magShutdownEnd p) s fun t => t.regs = s.regs ∧ t.mag = s.mag)) ∧
  (∀ (p : Fin 4) (speed : Fin 5) (width : Fin 17) (s : State), s.Inv →
    (s.pstate p = 1 → speed.val = 0 ∨ width.val = 0 ∨ s.magLanes < width →
      Completes (.magLinkChange p true speed width) s fun t => t.regs = s.regs ∧ t.mag = s.mag) ∧
    (s.pstate p = 1 → speed.val ≠ 0 → width.val ≠ 0 → width ≤ s.magLanes →
      Completes (.magLinkChange p true speed width) s fun t =>
        t.pstate p = 2 ∧ t.rd (F.MAG_P_STATUS_SPEED p) = speed ∧ t.rd (F.MAG_P_STATUS_WIDTH p) = width ∧
        t.rd (F.MAG_P_STATUS_LINK_IRQ p) = 1) ∧
    (s.rd (F.MAG_P_STATUS_SPEED p) ≠ 0 → s.pstate p ≠ 7 →
      Completes (.magLinkChange p false speed width) s fun t =>
        t.pstate p = 1 ∧ t.rd (F.MAG_P_STATUS_SPEED p) = 0 ∧ t.rd (F.MAG_P_STATUS_LINK_IRQ p) = 1)) ∧
  (∀ (p : Fin 4) (addr : BitVec 64) (len : BitVec 12) (bytes : List Byte) (s : State), s.Inv →
    s.rd (F.MAG_P_STATUS_SPEED p) ≠ 0 →
    ((addr.toNat < 0xFEE00000 ∨ 0xFEEFFFFF < addr.toNat) → s.magInboundOk addr.toNat bytes.length = true →
      Completes (.inboundRequest p true addr len bytes) s fun t => t.mem = (s.setBytes addr.toNat bytes).mem ∧ t.regs = s.regs) ∧
    (s.magInboundOk addr.toNat len.toNat = true →
      Completes (.inboundRequest p false addr len bytes) s fun t =>
        t.readData = s.physRead addr.toNat len.toNat ∧ t.mem = s.mem ∧ t.regs = s.regs) ∧
    (0xFEE00000 ≤ addr.toNat → addr.toNat ≤ 0xFEEFFFFF →
      Completes (.inboundRequest p true addr len bytes) s fun t =>
        t.rd (F.MAG_P_STATUS_MSG_IRQ p) = 1 ∧ t.rd F.MAG_STATUS_PORT_IRQ = 1 ∧ t.mem = s.mem)) ∧
  (∀ (src : Agent) (p : Fin 4) (val w : Word) (s : State), s.Inv → s.Passes src (F.MAG_P_CFGA_WRITE p) →
    (F.MAG_P_CFGA_WRITE p).of val = 0 → s.rd (F.MAG_P_STATUS_SPEED p) ≠ 0 →
    Completes (.magPCfga src p val (some w)) s fun t => t.rd (F.MAG_P_CFGD_DATA p) = w.toNat) ∧
  (∀ (src : Agent) (p : Fin 4) (val : Word) (s : State), s.Inv → s.Passes src (F.MAG_P_EXT_COUNT_COUNT p) →
    s.rd (F.MAG_P_EXT_COUNT_COUNT p) < (F.MAG_P_EXT_COUNT_COUNT p).of val →
    Completes (.extCountWrite src p val) s fun t => t.rd (F.MAG_P_EXT_COUNT_COUNT p) = (F.MAG_P_EXT_COUNT_COUNT p).of val)

/-- R245, R246, R252, R253, R261, R265: a frame is admitted into free blocks, its tiles are copied, and the oldest complete frame is
drained; the take stops with REASON 4 when that leaves no port or pair; a
completion is consumed, a command that times out fails its port, and a record whose writes are done is acknowledged. -/
def Obligations.RecordingComplete : Prop :=
  (∀ (i : Fin 8) (ed : Edge) (idx : Nat) (e : RingEntry) (s u : State), s.writerTile i = (some (ed, idx, e), u) →
    (e.fs = true → s.take = 1 →
      let n := reservationBlocks (u.maxTilesOf i) ((u.pixFmt ed.prod).maxPayload / 16)
      (u.freeBlocks n).length = n →
      Completes (.frameAdmit i) s fun t => t.mag.used = s.mag.used ++ u.freeBlocks n) ∧
    (∀ f : MagFrame, e.fs = false → e.fe = false → u.take ≠ 0 → (s.magIn i).cur = some f →
      let l := if 1 ≤ e.len16 ∧ e.len16 ≤ 4096 then e.len16 else f.unit
      f.tiles.length < f.maxTiles → f.d0 + f.dataLen + (32 + 16 * l) ≤ f.blocks.length * 65536 →
      Completes (.recordingTile i) s fun t =>
        (t.magIn i).cur = some { f with tiles := f.tiles ++ [(f.dataLen, l)], dataLen := f.dataLen + (32 + 16 * l) })) ∧
  (∀ (f : MagFrame) (rest : List MagFrame) (s : State), s.Inv → s.mag.done = f :: rest →
    Completes .frameDrain s fun t =>
      (s.portSets ≠ [] ∨ s.portsIn 5 ≠ [] → t.mag.done = rest) ∧
      (s.portSets ≠ [] → t.portSets = [] → s.take = 1 → t.take = 2 ∧ t.mag.reason = 4) ∧
      (s.portSets = [] → s.portsIn 5 ≠ [] →
        t.rd F.MAG_OMIT_FRAMES_COUNT = min (s.rd F.MAG_OMIT_FRAMES_COUNT + 1) (2 ^ 32 - 1)) ∧
      (s.portSets = [] → s.portsIn 5 = [] → t.mag = s.mag ∧ t.regs = s.regs)) ∧
  (∀ (p : Fin 4) (c : MagCmd) (s : State), KMap.wf (fun _ => {}) s.mag.ports = true → s.rd (F.MAG_P_CTRL_HWQ_EN p) = 1 →
    let v := s.magPort p
    let e := s.physRead (s.cqBase p + 16 * v.cqHead) 16
    (leAt e 14 2 % 2 == 1) = v.phase → leAt e 14 2 / 2 = 0 → KMap.get (fun _ => none) v.out (leAt e 12 2) = some c →
    Completes (.nvmeCompletion p) s fun t =>
      (t.magPort p).cqHead = (if s.qdepth p ≤ v.cqHead + 1 then 0 else v.cqHead + 1) ∧
      (t.magPort p).phase = (if s.qdepth p ≤ v.cqHead + 1 then !v.phase else v.phase) ∧ t.mag.recs = s.mag.recs) ∧
  (∀ (p : Fin 4) (cid : BitVec 16) (c : MagCmd) (s : State), s.Inv →
    KMap.get (fun _ => none) (s.magPort p).out cid.toNat = some c → s.pstate p ≠ 7 →
    Completes (.magTimeout p cid) s fun t =>
      t.pstate p = 6 ∧ t.rd (F.MAG_P_ERR_CID p) = cid.toNat ∧ t.rd (F.MAG_P_ERR_SF p) = 0 ∧
      t.rd (F.MAG_P_STATUS_STATUS p) = 0x1204 ∧ t.rd (F.MAG_P_STATUS_ERR_IRQ p) = 1) ∧
  (∀ (p : Fin 4) (r : MagRec) (s : State), s.Inv → KMap.wf (fun _ => {}) s.mag.ports = true →
    s.mag.recs.find? (s.mayAck p) = some r →
    Completes (.recordAcknowledged p) s fun t =>
      t.mag.recs = (s.mag.recs.map (fun x => if x.seq == r.seq then { x with need := x.need.erase p.val } else x)).filter
        (fun x => !x.need.isEmpty) ∧
      (t.magPort p).lastSeq = r.seq ∧ (t.magPort p).bytesAcked = (s.magPort p).bytesAcked + r.len ∧
      t.rd (F.MAG_P_RECS_COUNT p) = min (s.rd (F.MAG_P_RECS_COUNT p) + 1) (2 ^ 32 - 1))

/-- R261 to R265: a take starts on ready ports, stops, aborts, closes and ends, and a lost port leaves it. -/
def Obligations.TakesComplete : Prop :=
  (∀ (src : Agent) (n : Node) (s : State), s.Inv → s.Passes src F.MAG_TAKE_CMD_START → s.take = 0 → s.writerNode = some n →
    takeModeOk (s.rd F.MAG_TAKE_CFG_MODE) (s.rd F.MAG_TAKE_CFG_PORTS) = true → s.rd F.MAG_USER_LEN_LEN ≤ 3968 →
    let ports := (List.range 4).filter (fun p => s.rd F.MAG_TAKE_CFG_PORTS / 2 ^ p % 2 == 1)
    ports.any (fun p => n.res / 2 ^ p % 2 == 0 || s.pstate p != 3 || s.rd (F.MAG_P_EXT_COUNT_COUNT p) == 0) = false →
    Completes (.start src) s fun t =>
      t.take = 1 ∧ t.rd F.MAG_REC_SEQ_SEQ = 0 ∧ t.rd F.MAG_OMIT_FRAMES_COUNT = 0 ∧ t.mag.takePorts = ports ∧
      t.mag.mode = s.rd F.MAG_TAKE_CFG_MODE ∧ ∀ p ∈ ports, t.pstate p = 4) ∧
  (∀ (src : Agent) (s : State), s.Inv → s.Passes src F.MAG_TAKE_CMD_START →
    (s.take = 1 → Completes (.stop src) s fun t => t.take = 2 ∧ t.mag.reason = 1) ∧
    (s.take = 1 ∨ s.take = 2 →
      Completes (.takeAbort src) s fun t =>
        t.take = (if s.mag.recs = [] then 3 else 2) ∧ t.mag.reason = 2 ∧ t.mag.aborting = true ∧ t.mag.done = [] ∧
        (KMap.wf (fun _ => {}) s.mag.ins = true → ∀ i < 8, (t.magIn i).cur = none))) ∧
  (∀ (s : State), s.Inv → s.take = 2 → s.mag.done = [] → (∀ i < 8, (s.magIn i).cur = none) →
    s.mag.aborting = false ∨ s.mag.recs = [] →
    Completes .closing s fun t => t.take = 3 ∧ t.mag.closeSeq.isSome = true) ∧
  (∀ (s : State), s.Inv → s.take = 3 → s.mag.recs = [] →
    (s.portsIn 4 ++ s.portsIn 5).all (fun p => (s.magPort p).todo.isEmpty && (s.magPort p).out.isEmpty) = true →
    s.pwr.warmWait = none →
    Completes .closing s fun t =>
      t.take = 0 ∧ t.rd F.MAG_STATUS_TAKE_IRQ = 1 ∧ t.mag.takePorts = [] ∧ t.mag.used = []) ∧
  (∀ (p : Fin 4) (s : State), (s.magPort p).lost = true → s.take ≠ 0 → s.portsIn 4 ≠ [] →
    Completes (.magLost p) s fun t => t.mag.lostPorts = s.mag.lostPorts ++ [p.val])

/-- R272, R274 to R276, R298, R304: a tile that begins a frame enters the input store, one that is not later than the last
position of its own frame is dropped, a core takes the stream with the earliest deadline and codes a row
of its column, and a valid write of a rate register takes effect, pending for the HRD values. -/
def Obligations.EncodingComplete : Prop :=
  (∀ (c : Fin 32) (n : Node) (ed : Edge) (i : Nat) (e : RingEntry) (s u : State), s.Inv → s.encNode c = some n →
    s.image.inEdge n.id 0 = some ed → s.nextTile ed.qid = (some (i, e), u) →
    let src := u.slotVia ed.qid e.addr
    let x := u.tileVia src e.len16
    let r := ((u.rangeRead src (32 + x.payload.length)).maybeSwitch n.id x.hdr.fs).checkTile ed (0x400 + n.cores.headD 0) x true
    let h := r.1.tile.hdr
    let p := r.2.encIn n
    u.encOn c = true → u.coreFaulted (n.cores.headD 0) = false → u.inputStop src e.len16 = none →
    (u.encCtx c).room x.hdr (u.encIn n).ctuCols (n.par 40 2) = true → r.1.outcome ≠ 3 → h.col < p.ctuCols → h.row < p.ctuRows →
    ((r.2.encCtx c).begins h = true → Completes (.encInputTile c) s fun t => ∃ f, (t.encCtx c).frames.getLast? = some f ∧
      f.num = h.frame ∧ f.got = [h.row * p.ctuCols + h.col] ∧ f.next = h.row * p.ctuCols + h.col + 1) ∧
    (∀ f, (r.2.encCtx c).begins h = false → (r.2.encCtx c).frames.getLast? = some f → h.row * p.ctuCols + h.col < f.next →
      Completes (.encInputTile c) s fun t => t.encCtx c = r.2.encCtx c ∧ t.rd (F.ENC_S_STATUS_STATUS c) = 0x1303)) ∧
  (∀ (k : Fin 4) (c : Nat) (s : State), s.Inv → (s.encCore k).cur = none → s.awake (0x10 + k) = true → s.coreFaulted k = false →
    s.encPick k = some c →
    Completes (.contextSwitch k) s fun t =>
      t.encCore k = { cur := some c, last := some c } ∧ t.rd (F.ENC_CORE_CONTEXT k) = c ∧
      t.rd (F.ENC_SWITCH_COUNT k) =
        if (s.encCore k).last = some c then s.rd (F.ENC_SWITCH_COUNT k) else min (s.rd (F.ENC_SWITCH_COUNT k) + 1) (2 ^ 32 - 1)) ∧
  (∀ (k : Fin 4) (row : CtuRow) (c : Nat) (n : Node) (q : EncPic) (f : EncFrame) (s : State), (s.encCore k).cur = some c →
    s.encNode c = some n → (s.encCtx c).outq = [] → s.island (0x10 + k) = 2 → s.coreFaulted k = false → s.encReady c k = true →
    let v := s.encCtx c
    let i := n.cores.idxOf k.val
    let second := v.ahead (s.encRows c n) i
    let p := s.encInOf n f.tables
    let r := (q.cols.getD i {}).row
    v.picAt second = some q → v.frameAt second = some f → i < q.cols.length → r + 1 < p.ctuRows →
    (∀ g ∈ v.frames, ∀ x ∈ g.tables, s.PlainTable x ∧ (s.storeRecon n p q i r row.recon).tableBody x = s.tableBody x) →
    (second = true → ∃ o, v.pic = some o ∧ ∃ x ∈ o.cols, x.row < s.encRows c n) →
    Completes (.ctuRowCode k row) s fun t => ∃ y, (t.encCtx c).picAt second = some y ∧ (y.cols.getD i {}).row = r + 1) ∧
  (∀ (src : Agent) (c : Fin 32) (which : Fin 4) (val : Word) (n : Node) (s : State), s.Inv → s.Passes src (rateReg c which) →
    s.encNode c = some n → s.rateOk c n which val.toNat = true →
    Completes (.rateWrite src c which val) s fun t =>
      t.rd (rateReg c which) = val.toNat ∧ t.enc = s.enc ∧ (which.val < 2 → t.rd (F.RATE_S_STATUS_HRD_PENDING c) = 1))

/-- R277, R279, R280: the commands of an enabled stream take effect, and a stream starts, shuts down and comes to rest. -/
def Obligations.StreamCommandsComplete : Prop :=
  (∀ (src : Agent) (c : Fin 32) (val : Word) (s : State), s.Inv → s.Passes src (F.ENC_S_CMD_KEY c) → (s.encNode c).isSome = true →
    s.rd (F.ENC_S_CTRL_EN c) = 1 →
    Completes (.key src c val) s (fun t => (t.encCtx c).keyReq = true ∧ t.rd (F.ENC_S_STATUS_KEY_PENDING c) = 1) ∧
    Completes (.markLt src c val) s (fun t =>
      (t.encCtx c).marks = (s.encCtx c).marks ++ [((F.ENC_S_CMD_MARK_SLOT c).of val, t.markSeq c ((F.ENC_S_CMD_MARK_SLOT c).of val))] ∧
      t.markSeq c ((F.ENC_S_CMD_MARK_SLOT c).of val) = (s.markSeq c ((F.ENC_S_CMD_MARK_SLOT c).of val) + 1) % 256) ∧
    Completes (.useLt src c val) s (fun t =>
      (t.encCtx c).use = some ((F.ENC_S_CMD_USE_SLOT c).of val, (F.ENC_S_CMD_MARK_SEQ c).of val))) ∧
  (∀ (src : Agent) (c : Fin 32) (val : Word) (n : Node) (s : State), s.Inv → KMap.wf (fun _ => {}) s.enc.ctxs = true →
    s.Passes src (F.ENC_S_CTRL_EN c) → s.encNode c = some n → s.rd (F.ENC_S_STATUS_SHUTTING_DOWN c) = 0 →
    (s.rd (F.ENC_S_CTRL_EN c) = 0 → (F.ENC_S_CTRL_EN c).of val = 1 →
      Completes (.encStreamEnable src c val) s fun t =>
        t.rd (F.ENC_S_CTRL_EN c) = 1 ∧ (t.encCtx c).fresh = true ∧ (t.encCtx c).pic = none ∧ (t.encCtx c).d = 0 ∧
        (t.encCtx c).keyReq = (s.encCtx c).keyReq ∧ (t.encCtx c).marks = (s.encCtx c).marks ∧ (t.encCtx c).use = (s.encCtx c).use ∧
        (t.encCtx c).bitRate = s.rd (F.RATE_S_BIT_RATE_V c) ∧ (t.encCtx c).f = n.f0 (s.rd (F.RATE_S_BIT_RATE_V c))) ∧
    (s.rd (F.ENC_S_CTRL_EN c) = 1 → (F.ENC_S_CTRL_EN c).of val = 0 →
      Completes (.encStreamEnable src c val) s fun t =>
        t.rd (F.ENC_S_CTRL_EN c) = 0 ∧ t.rd (F.ENC_S_STATUS_SHUTTING_DOWN c) = 1 ∧ t.rd (F.ENC_S_STATUS_KEY_PENDING c) = 0 ∧
        (t.encCtx c).keyReq = false ∧ (t.encCtx c).pic = (s.encCtx c).pic)) ∧
  (∀ (c : Fin 32) (s : State), s.Inv → KMap.wf (fun _ => {}) s.enc.ctxs = true → s.rd (F.ENC_S_STATUS_SHUTTING_DOWN c) = 1 →
    (s.encCtx c).pic = none →
    Completes (.encShutdownEnd c) s fun t =>
      t.rd (F.ENC_S_STATUS_SHUTTING_DOWN c) = 0 ∧ t.rd (F.ENC_S_STATUS_PENDING_ENABLE c) = 0 ∧
      t.rd (F.ENC_S_STATUS_LT0_VALID c) = 0 ∧ t.rd (F.ENC_S_STATUS_LT1_VALID c) = 0 ∧ (t.encCtx c).frames = [] ∧ (t.encCtx c).st = [])

/-- R285 to R287: DEC0 takes a chunk while the DPB has room, and what its NAL units come to: a sequence's facts are shown; a coded
picture is decoded into the DPB as a reference, its broken slices concealed; the picture that bumping has output leaves a tile row at a
time. -/
def Obligations.DecodingComplete : Prop :=
  (∀ (n : Node) (ed : Edge) (i : Nat) (e : RingEntry) (s u : State), s.Inv → s.decNode = some n →
    s.image.inEdge n.id 0 = some ed → s.awake 0x14 = true → s.dec.out = [] ∨ s.dec.held < 6 → s.nextTile ed.qid = (some (i, e), u) →
    let x := u.entryTile e
    let r := (u.maybeSwitch n.id x.hdr.fs).checkTile ed 0x410 x true
    r.1.outcome ≠ 3 →
    (∀ q : SeqInfo, Completes (.decInputChunk [.sps q]) s fun t =>
      t.rd F.DEC_SIZE_WIDTH = q.width % 2 ^ 16 ∧ t.rd F.DEC_SIZE_HEIGHT = q.height % 2 ^ 16 ∧
      t.rd F.DEC_SEQ_PROFILE = q.profile % 2 ^ 8 ∧ t.rd F.DEC_SEQ_LEVEL = q.level % 2 ^ 8 ∧ t.dec.seq = q) ∧
    (∀ c : CodedPic, s.dec.supported = true → s.dec.started = true → (c.rasl = true → s.dec.startIrap = false) →
      Completes (.decInputChunk [.picture c]) s fun t =>
        t.rd F.DEC_PICS_COUNT = min (r.2.rd F.DEC_PICS_COUNT + 1) (2 ^ 32 - 1) ∧
        ∃ p ∈ t.dec.dpb, p.poc = c.poc ∧ p.ref = true ∧ p.planes = concealed s.dec.seq s.dec.newest c)) ∧
  (∀ (n : Node) (pic : DecPic) (rest : List DecPic) (s : State), s.decNode = some n → s.dec.out = pic :: rest → s.island 0x14 = 2 →
    s.roomOn (s.portQueues n.id 0) (s.pixFmt n.id).cols = true →
    Completes .decPictureOutput s fun t =>
      t.dec = if (s.pixFmt n.id).rows ≤ s.dec.row + 1 then
          { s.dec with row := 0, frame := (s.dec.frame + 1) % 2 ^ 32, out := rest }
        else { s.dec with row := s.dec.row + 1 })

/-- R309, R311 to R313, R317, R326: a head takes a layer's tile, is enabled and disabled, starts a frame at its boundary, in
which its serialisers insert their payload identifiers, loses its sync
reference and finds it again, and reports an underrun. -/
def Obligations.HeadsComplete : Prop :=
  (∀ (l : Fin 32) (n : Node) (ed : Edge) (i : Nat) (e : RingEntry) (s u : State), s.cmpNode (l / 8) = some n →
    s.image.inEdge n.id (l % 8) = some ed → s.island (0x18 + l / 8) = 2 → s.nextTile ed.qid = (some (i, e), u) →
    let x := u.entryTile e
    let r := (u.maybeSwitch n.id x.hdr.fs).checkTile ed (0x500 + l / 8) x true
    r.1.outcome ≠ 3 → r.1.tile.hdr.fe = false →
    Completes (.layerTile l) s fun t => ∃ b, (t.layer l).store.writing = some b ∧
      b.frame = (match (r.2.layer l).store.writing with
        | some w => if r.1.tile.hdr.fs && later r.1.tile.hdr.frame w.frame then r.1.tile.hdr.frame else w.frame
        | none => r.1.tile.hdr.frame)) ∧
  (∀ (h : Fin 4) (cancel : Bool) (s : State), (s.head h).running = false → s.rd (F.CMP_H_STATUS_SHUTTING_DOWN h) = 0 →
    s.rd (F.CMP_H_CTRL_EN h) = 1 → s.island (0x18 + h) = 2 →
    s.image.tbs.any (fun t => t.kind == 2 && t.source == h.val) = false →
    Completes (.frameBoundary h cancel) s fun t =>
      (t.head h).running = true ∧ (t.head h).short = [] ∧
      ∀ n ∈ t.sdiOf h, t.rd (F.SDI_S_STATUS_ACTIVE n) = 1 →
        (t.sdiAnc n).payload = sdiPayload (t.rd (F.SDI_S_STATUS_MODE n)) (t.rd (F.CMP_H_FORMAT_RATE h))
          (t.rd (F.CMP_H_FORMAT_TRANSFER h)) (t.rd (F.CMP_H_FORMAT_COLORIMETRY h)) n) ∧
  (∀ (h : Fin 4) (s : State), s.Inv → (s.head h).running = true →
    (s.rd (F.CMP_H_STATUS_SYNC_HOLDOVER h) = 0 →
      Completes (.syncHoldover h 0) s fun t =>
        t.rd (F.CMP_H_STATUS_SYNC_HOLDOVER h) = 1 ∧ t.rd (F.CMP_H_STATUS_SLEWING h) = 0 ∧
        t.rd (F.CMP_H_STATUS_STATUS h) = 0x160A ∧ t.rd (F.CMP_H_STATUS_SYNC_IRQ h) = 1) ∧
    (s.rd (F.CMP_H_STATUS_SYNC_HOLDOVER h) = 1 →
      Completes (.syncHoldover h 1) s fun t =>
        t.rd (F.CMP_H_STATUS_SYNC_HOLDOVER h) = 0 ∧ t.rd (F.CMP_H_STATUS_SLEWING h) = 1 ∧
        t.rd (F.CMP_H_STATUS_SYNC_IRQ h) = 1) ∧
    Completes (.syncHoldover h 2) s (fun t => t.rd (F.CMP_H_STATUS_SLEWING h) = 0) ∧
    (∀ line col : BitVec 16,
      Completes (.headUnderrun h line col) s fun t =>
        (t.head h).short = (s.head h).short ++ [(line.toNat, col.toNat)] ∧ t.rd (F.CMP_H_STATUS_UNDERRUN_IRQ h) = 1 ∧
        t.rd (F.CMP_H_UNDERRUN_COUNT h) = min (s.rd (F.CMP_H_UNDERRUN_COUNT h) + 1) (2 ^ 32 - 1))) ∧
  (∀ (src : Agent) (h : Fin 4) (val : Word) (s : State), s.Inv → s.Passes src (F.CMP_H_CTRL_EN h) →
    (F.CMP_H_CTRL_SYNC h).of val < 2 → (F.CMP_H_CTRL_SYNC h).of val = s.rd (F.CMP_H_CTRL_SYNC h) →
    (s.rd (F.CMP_H_CTRL_EN h) = 0 → (F.CMP_H_CTRL_EN h).of val = 1 → s.rd (F.CMP_H_STATUS_SHUTTING_DOWN h) = 0 →
      Completes (.headEnable src h val) s fun t => t.rd (F.CMP_H_CTRL_EN h) = 1) ∧
    (s.rd (F.CMP_H_CTRL_EN h) = 1 → (F.CMP_H_CTRL_EN h).of val = 0 → (s.head h).running = true →
      Completes (.headEnable src h val) s fun t =>
        t.rd (F.CMP_H_CTRL_EN h) = 0 ∧ t.rd (F.CMP_H_STATUS_SHUTTING_DOWN h) = 1 ∧ t.cmp = s.cmp))

/-- R321 to R323, R327: GO copies a valid layer's shadows into a pending commit, its coefficients load, a boundary flips the layers
of a commit that is ready, CANCEL drops one, and a serialiser is enabled and disabled. -/
def Obligations.CommitsComplete : Prop :=
  (∀ (src : Agent) (h : Fin 4) (i : Fin 8) (val : Word) (s : State), s.Passes src (F.CMP_H_COMMIT_GO h) →
    (F.CMP_H_COMMIT_CANCEL h).of val = 0 → (F.CMP_H_COMMIT_LAYERS h).of val = 2 ^ i.val → s.pendingOf h = [] →
    s.checkLayer (8 * h + i) = 0 →
    Completes (.go src h val) s fun t =>
      t.layer (8 * h + i) =
        { s.layer (8 * h + i) with pend := some (s.copyTables (s.shadow (8 * h + i))), loaded := (s.shadow (8 * h + i)).noLoads }) ∧
  (∀ (l : Fin 32) (s : State), (s.layer l).pend.isSome = true →
    Completes (.coefLoadDone l) s fun t => t.layer l = { s.layer l with loaded := true } ∧ t.regs = s.regs) ∧
  (∀ (h : Fin 4) (cancel : Bool) (s : State), (s.head h).running = false → s.rd (F.CMP_H_STATUS_SHUTTING_DOWN h) = 0 →
    s.rd (F.CMP_H_CTRL_EN h) = 1 → s.island (0x18 + h) = 2 →
    s.image.tbs.any (fun t => t.kind == 2 && t.source == h.val) = false → (∀ k ∈ s.pendingOf h, s.layerReady k = true) →
    Completes (.frameBoundary h cancel) s fun t =>
      ∀ l ∈ s.pendingOf h, (t.layer l).active = (s.layer l).pend ∧ (t.layer l).pend = none) ∧
  (∀ (src : Agent) (h : Fin 4) (val : Word) (s : State), s.Inv → KMap.wf (fun _ => {}) s.cmp.layers = true →
    s.Passes src (F.CMP_H_COMMIT_GO h) → (F.CMP_H_COMMIT_GO h).of val = 0 →
    Completes (.commitCancel src h val) s fun t =>
      t.pendingOf h = [] ∧ t.rd (F.CMP_H_STATUS_PENDING_LAYERS h) = 0 ∧
      ∀ l < 32, (t.layer l).active = (s.layer l).active) ∧
  (∀ (src : Agent) (n : Fin 4) (val : Word) (s : State), s.Inv → s.Passes src (F.SDI_S_CFG_EN n) →
    (s.rd (F.SDI_S_CFG_EN n) = 0 → (F.SDI_S_CFG_EN n).of val = 1 → s.sdiModeOf ((F.SDI_S_CFG_SRC_HEAD n).of val) ≠ 0 →
      Completes (.sdiEnable src n val) s fun t =>
        t.rd (F.SDI_S_CFG_EN n) = 1 ∧ t.rd (F.SDI_S_CFG_SRC_HEAD n) = (F.SDI_S_CFG_SRC_HEAD n).of val ∧
        (s.rd (F.SDI_S_STATUS_SHUTTING_DOWN n) = 0 → s.rd (F.CMP_H_CTRL_EN ((F.SDI_S_CFG_SRC_HEAD n).of val)) = 0 →
          t.rd (F.SDI_S_STATUS_STATUS n) = 0x1702)) ∧
    (s.rd (F.SDI_S_CFG_EN n) = 1 → (F.SDI_S_CFG_EN n).of val = 0 → s.rd (F.SDI_S_STATUS_ACTIVE n) = 1 →
      Completes (.sdiEnable src n val) s fun t =>
        t.rd (F.SDI_S_CFG_EN n) = 0 ∧ t.rd (F.SDI_S_STATUS_SHUTTING_DOWN n) = 1))

/-- R331 to R336: the port mode is set, a port is enabled and disabled, its link comes and goes, an accepted frame takes the next number
of its port's receive stream, and a good software frame joins its class. -/
def Obligations.NetworkPortsComplete : Prop :=
  (∀ (src : Agent) (val : Word) (s : State), s.Inv → s.Passes src F.NET_CFG_MODE → F.NET_CFG_MODE.of val ≠ 3 →
    (∀ p < 8, s.rd (F.NET_P_CTRL_EN p) = 0) → s.image.nodes.any (fun n => n.kind == 7) = false →
    Completes (.netCfgWrite src val) s fun t => t.rd F.NET_CFG_MODE = F.NET_CFG_MODE.of val) ∧
  (∀ (src : Agent) (p : Fin 8) (val : Word) (s : State), s.Inv → s.Passes src (F.NET_P_CTRL_EN p) →
    1518 ≤ (F.NET_P_CTRL_MAX_FRAME p).of val → (F.NET_P_CTRL_MAX_FRAME p).of val ≤ 9600 →
    (portLanes (s.rd F.NET_CFG_MODE) p).any (fun l => s.laneUnderTest (0x28 + l)) = false →
    (s.rd (F.NET_P_CTRL_EN p) = 0 → (F.NET_P_CTRL_EN p).of val = 1 → s.portExists p = true →
      Completes (.netPortEnable src p val) s fun t =>
        t.rd (F.NET_P_CTRL_EN p) = 1 ∧ t.rd (F.NET_P_CTRL_MAX_FRAME p) = (F.NET_P_CTRL_MAX_FRAME p).of val) ∧
    (s.rd (F.NET_P_CTRL_EN p) = 1 → (F.NET_P_CTRL_EN p).of val = 0 →
      Completes (.netPortEnable src p val) s fun t =>
        t.rd (F.NET_P_CTRL_EN p) = 0 ∧ t.rd (F.NET_P_STATUS_PENDING_ENABLE p) = 0 ∧
        (s.rd (F.NET_P_STATUS_LINK p) = 1 → t.rd (F.NET_P_STATUS_SHUTTING_DOWN p) = 1))) ∧
  (∀ (p : Fin 8) (s : State), s.Inv →
    (s.rd (F.NET_P_STATUS_LINK p) = 0 → s.rd (F.NET_P_CTRL_EN p) = 1 → s.portExists p = true →
      Completes (.netLinkChange p true) s fun t =>
        t.rd (F.NET_P_STATUS_LINK p) = 1 ∧ t.rd (F.NET_P_STATUS_LINK_IRQ p) = 1 ∧ t.net = s.net) ∧
    (s.rd (F.NET_P_STATUS_LINK p) = 1 →
      Completes (.netLinkChange p false) s fun t =>
        t.rd (F.NET_P_STATUS_LINK p) = 0 ∧ t.rd (F.NET_P_STATUS_STATUS p) = 0x1802 ∧
        t.rd (F.NET_P_STATUS_SHUTTING_DOWN p) = 0 ∧ t.rd (F.NET_P_STATUS_LINK_IRQ p) = 1)) ∧
  (∀ (p : Fin 8) (bytes : List Byte) (s : State), KMap.wf (fun _ => {}) s.net.ports = true → s.portDown p = false →
    14 ≤ bytes.length → bytes.length + 4 ≤ s.rd (F.NET_P_CTRL_MAX_FRAME p) → beAt bytes 12 2 ≠ 0x8808 → beAt bytes 12 2 ≠ 0x88F7 →
    s.rd (F.NET_P_CTRL_RX_EN p) = 1 → s.macAccepts p (bytes.take 6) = true → isPtpUdp bytes = false →
    Completes (.frameReceive p bytes true) s fun t => (t.netPort p).rxSeq = ((s.netPort p).rxSeq + 1) % 2 ^ 32) ∧
  (∀ (p : Fin 8) (i : Nat) (e : RingEntry) (s u : State), s.rd (F.NET_P_SWTX_EN p) = 1 →
    s.nextTile (s.rd (F.NET_P_SWTX_QID p)) = (some (i, e), u) →
    let x := u.entryTile e
    let n := leAt x.payload 0 2
    let f : NetFrame := { bytes := (x.payload.drop 16).take n }
    let c := u.rd (F.NET_P_SWTX_CLASS p)
    verify x true = none → 14 ≤ n → n ≤ u.rd (F.NET_P_CTRL_MAX_FRAME p) - 4 → 16 + n ≤ x.payload.length →
    u.classTakes p c f = true → u.portDown p = false → u.operSched p = none →
    Completes (.softwareFrameTx p) s fun t => ((t.netPort p).cls c).frames = ((s.netPort p).cls c).frames ++ [f])

/-- R348, R350 to R353: a gate list is committed, cancelled and takes effect, the gates follow the schedule, the shaper's registers
are written, and a port starts the frame it selects. -/
def Obligations.EgressComplete : Prop :=
  (∀ (src : Agent) (p : Fin 8) (val : Word) (s : State), s.Inv → s.Passes src (F.TSN_P_CTRL_COMMIT p) →
    (s.rd (F.TSN_P_STATUS_PENDING p) = 0 → (F.TSN_P_CTRL_ADMIN_LEN p).of val = s.rd (F.TSN_P_CTRL_ADMIN_LEN p) →
      (F.TSN_P_CTRL_CANCEL p).of val = 0 → s.adminOk p = true →
      Completes (.commit src p val) s fun t =>
        t.rd (F.TSN_P_STATUS_PENDING p) = 1 ∧ (s.timestamp + 1000 ≤ s.gateBase p → t.changeTime p = s.gateBase p)) ∧
    (∀ late, s.rd (F.TSN_P_STATUS_PENDING p) = 1 → (F.TSN_P_CTRL_COMMIT p).of val = 0 →
      Completes (.gateCancel src p val late) s fun t =>
        t.rd (F.TSN_P_STATUS_PENDING p) = 0 ∧ (late = true → t.rd (F.TSN_P_STATUS_STATUS p) = 0x1906))) ∧
  (∀ (p : Fin 8) (s : State), s.Inv → s.rd (F.TSN_P_STATUS_PENDING p) = 1 → s.changeTime p ≤ s.timestamp →
    s.rd (F.TSN_P_CTRL_ADMIN_LEN p) ≤ 256 →
    Completes (.gateListChange p) s fun t =>
      t.rd (F.TSN_P_STATUS_PENDING p) = 0 ∧ t.rd (F.TSN_P_STATUS_OPER_LEN p) = s.rd (F.TSN_P_CTRL_ADMIN_LEN p) ∧
      t.rd (F.TSN_P_OPER_CYCLE_NS_V p) = s.rd (F.TSN_P_CYCLE_NS_V p) ∧ t.rd (F.TSN_P_STATUS_CHANGE_IRQ p) = 1 ∧
      ∀ k < s.rd (F.TSN_P_CTRL_ADMIN_LEN p), t.rd (F.TSN_OPER_GATES_V p k) = s.rd (F.TSN_ADMIN_GATES_V p k) ∧
        t.rd (F.TSN_OPER_NS_V p k) = s.rd (F.TSN_ADMIN_NS_V p k)) ∧
  (∀ (p : Fin 8) (s : State), KMap.wf (fun _ => {}) s.net.ports = true →
    Completes (.gateEntryChange p) s fun t =>
      (t.netPort p).gates = ((s.operSched p).map (fun g => g.at s.timestamp)).getD 255 ∧ t.regs = s.regs) ∧
  (∀ (src : Agent) (p c : Fin 8) (val : Word) (s : State), s.Inv →
    (s.Passes src (F.TSN_C_IDLE_V p c) → val.toNat ≠ 0 → val.toNat ≤ s.portRate p * 1000000 →
      Completes (.tsnIdleWrite src p c val) s fun t => t.rd (F.TSN_C_IDLE_V p c) = val.toNat) ∧
    (s.Passes src (F.TSN_C_HI_V p c) → val.toNat < 2 ^ 31 →
      Completes (.tsnHiWrite src p c val) s fun t => t.rd (F.TSN_C_HI_V p c) = val.toNat)) ∧
  (∀ (p : Fin 8) (f : NetFrame) (x : Int) (s u : State), s.transmit p = (some (f, x), u) →
    Completes (.frameTransmit p) s fun t => (t.netPort p).lastTx = f.onWire x ∧ (t.netPort p).tx.isSome = true)

/-- R341, R343, R344: a checked tile enters an audio sender and begins an access unit of a transport-stream sender; the time of a
video sender's next packet comes, and a packet whose data is not there is late. -/
def Obligations.SendersComplete : Prop :=
  (∀ (k : Fin 64) (n : Node) (i j : Nat) (ed : Edge) (e : RingEntry) (s u : State), s.senderNode k = some (n, i) →
    s.image.inEdge n.id i = some ed → (s.sender k).outq = [] → s.nextTile ed.qid = (some (j, e), u) →
    let x := u.entryTile e
    let r := (u.maybeSwitch n.id x.hdr.fs).checkTile ed 0x0600 x true
    r.1.outcome ≠ 3 →
    (n.snd i 0 1 = 2 → Completes (.senderTile k) s fun t => (t.sender k).lastSeq = some r.1.tile.hdr.seq) ∧
    (n.snd i 0 1 = 3 → r.1.tile.hdr.fs = true → r.1.tile.hdr.fe = false → (s.sender k).inAu = false →
      Completes (.senderTile k) s fun t => (t.sender k).inAu = true)) ∧
  (∀ (k : Fin 64) (n : Node) (i : Nat) (f : SndFrame) (s : State), s.senderNode k = some (n, i) → n.snd i 0 1 = 1 →
    (s.sender k).frames = [f] →
    let p := s.sndFmt n i f.tables
    f.due < p.packets (n.snd i 64 2) → s.pktTime n i p f f.due ≤ s.timestamp → n.pktReady i p f f.sent = false →
    n.pktReady i p f f.due = false →
    Completes (.senderPacketDue k) s fun t =>
      t.sender k = { s.sender k with frames := [{ f with due := f.due + 1, late := f.late ++ [f.due] }] })

/-- R362, R364, R365: the PTP engine takes the selected master's messages, answers and sends its own, keeps the masters that announce
themselves, and drops one that is lost. -/
def Obligations.PtpMessagesComplete : Prop :=
  (∀ (m : PtpMsg) (s : State), s.Inv → s.fromMaster m = true →
    Completes (.sync m) s (fun t =>
      t.rd F.PTP_SYNC_RX_COUNT = min (s.rd F.PTP_SYNC_RX_COUNT + 1) (2 ^ 32 - 1) ∧
      t.ptp = if m.twoStep then { s.ptp with sync := some (m.seq.toNat, corrNs m, s.timestamp) }
        else { s.ptp with sync := none, t12 := some ((m.timeNs : Int) + corrNs m, s.timestamp) }) ∧
    (∀ c t2 : Int, s.ptp.sync = some (m.seq.toNat, c, t2) →
      Completes (.followUp m) s fun t =>
        t.ptp = { s.ptp with sync := none, t12 := some ((m.timeNs : Int) + corrNs m + c, t2) } ∧ t.regs = s.regs) ∧
    (∀ t1 t2 t3 : Int, s.ptp.t12 = some (t1, t2) → s.ptp.t3 = some (m.seq.toNat, t3) →
      let d := (t2 - t1 + ((m.timeNs : Int) - corrNs m - t3)) / 2
      Completes (.delayResp m) s fun t =>
        t.ptp.t3 = none ∧
        (s.rd F.PTP_CTRL_SRC ≠ 1 ∨ s.rd F.PTP_STATUS_STATE = 2 → t.rd F.PTP_PATH_DELAY_V = (d % 2 ^ 32).toNat) ∧
        (s.rd F.PTP_CTRL_SRC = 1 → s.rd F.PTP_STATUS_STATE = 2 →
          t.rd F.PTP_OFFSET_V = (max (-(2 ^ 31)) (min (2 ^ 31 - 1) (t2 - t1 - d)) % 2 ^ 32).toNat))) ∧
  (∀ (s : State), s.portDown (s.rd F.PTP_CFG_PORT) = false → s.operSched (s.rd F.PTP_CFG_PORT) = none →
    let p := s.rd F.PTP_CFG_PORT
    let c := s.rd F.PTP_CFG_CLASS
    (∀ m : PtpMsg, s.rd F.PTP_STATUS_MASTER = 1 → s.ptpFor m = true →
      Completes (.delayReq m) s fun t =>
        ((t.netPort p).cls c).frames.length = ((s.netPort p).cls c).frames.length + 1 ∧ t.ptp = s.ptp) ∧
    (∀ announce, s.rd F.PTP_STATUS_MASTER = 1 →
      Completes (.ptpMasterSend announce) s fun t =>
        ((t.netPort p).cls c).frames.length = ((s.netPort p).cls c).frames.length + 1 ∧
        t.ptp = { s.ptp with seqSent := (s.ptp.seqSent + 1) % 65536 }) ∧
    (s.ptp.selected.isSome = true → s.rd F.PTP_STATUS_MASTER = 0 →
      Completes .minDelayReqInterval s fun t =>
        ((t.netPort p).cls c).frames.length = ((s.netPort p).cls c).frames.length + 1 ∧
        t.ptp = { s.ptp with seqSent := (s.ptp.seqSent + 1) % 65536 })) ∧
  (∀ (m : PtpMsg) (a : AnnounceData) (s : State), s.ptpFor m = true → s.ptpActive = true →
    s.ptp.masters.find? (fun x => x.id == m.source.toNat) = none →
    Completes (.announce m a) s fun t =>
      t.ptp.masters = s.ptp.masters ++
        [{ id := m.source.toNat, port := m.port.toNat, msg := a, count := 1, firstRef := s.ref, lastRef := s.ref }]) ∧
  (∀ (m : PtpMsg) (a : AnnounceData) (x : Master) (s : State), s.ptpFor m = true → s.ptpActive = true →
    s.ptp.masters.find? (fun x => x.id == m.source.toNat) = some x →
    Completes (.announce m a) s fun t =>
      t.ptp.masters = s.ptp.masters.filter (fun x => x.id != m.source.toNat) ++
        [{ x with msg := a, port := m.port.toNat, count := x.count + 1, firstRef := x.lastRef, lastRef := s.ref }]) ∧
  (∀ (id : Nat) (s : State), s.ptpActive = true → s.ptp.selected = some id →
    Completes .ptpMasterLost s fun t =>
      t.ptp.masters = s.ptp.masters.filter (fun x => x.id != id) ∧ t.ptp.selected ≠ some id)

/-- R366, R367, R371: an edge of the PPS input is taken and its loss is reported; SET, ADJUST and LATCH act on the reading; the ao
crystal's error is kept in a locked second. -/
def Obligations.TimeCommandsComplete : Prop :=
  (∀ (s : State), s.Inv → s.rd F.PTP_CTRL_SRC = 2 →
    (s.rd (F.TPO_CTRL_EN 7) = 1 → s.rd (F.TPO_CTRL_MODE 7) = 3 →
      Completes .ppsEdge s fun t => t.ptp.ppsLast = some s.timestamp) ∧
    (s.rd F.PTP_STATUS_PPS_CLK ≠ 0 →
      Completes .ppsLost s fun t =>
        t.rd F.PTP_STATUS_PPS_CLK = 0 ∧ t.rd F.PTP_STATUS_STATUS = 0x1A04 ∧ t.ptp.ppsLast = none ∧
        t.rd F.PTP_STATUS_STATE =
          if s.rd F.PTP_STATUS_STATE = 1 ∨ s.rd F.PTP_STATUS_STATE = 2 then 3 else s.rd F.PTP_STATUS_STATE)) ∧
  (∀ (src : Agent) (val : Word) (s : State), s.Inv → s.Passes src F.PTP_TIME_CMD_SET →
    (F.PTP_TIME_CMD_ADJUST.of val = 0 →
      Completes (.setTime src val) s fun t => t.reading = s.timeRegs * 2 ^ 32) ∧
    (F.PTP_TIME_CMD_SET.of val = 0 →
      Completes (.adjust src val) s fun t => t.reading = s.reading + signed 32 (s.rd F.PTP_TIME_NS_NS) * 2 ^ 32) ∧
    (F.PTP_TIME_CMD_SET.of val = 0 → F.PTP_TIME_CMD_ADJUST.of val = 0 →
      Completes (.latch src val) s fun t =>
        t.rd F.PTP_TIME_SEC_LO_SEC = tsSec s.timestamp % 2 ^ 32 ∧ t.rd F.PTP_TIME_SEC_HI_SEC = tsSec s.timestamp / 2 ^ 32 ∧
        t.rd F.PTP_TIME_NS_NS = tsNs s.timestamp ∧ t.reading = s.reading)) ∧
  (∀ (ppb : Word) (s : State), s.Inv → s.rd F.PTP_STATUS_STATE = 2 →
    Completes (.aoPpbMeasure ppb) s fun t => t.rd F.PTP_AO_PPB_V = ppb.toNat)

/-- R369, R370: an output with a legal configuration is enabled, its pulse starts and ends, and an input edge is captured. -/
def Obligations.TimedOutputsComplete : Prop :=
  (∀ (src : Agent) (n : Fin 8) (val : Word) (s : State), s.Inv → s.Passes src (F.TPO_CTRL_EN n) →
    s.rd (F.TPO_CTRL_EN n) = 0 → (F.TPO_CTRL_EN n).of val = 1 →
    let mode := (F.TPO_CTRL_MODE n).of val
    (mode = 1 → s.rd (F.TPO_WIDTH_NS_NS n) ≠ 0 ∧ s.timestamp + 100 ≤ s.tpoStart n) →
    (mode = 2 → s.rd (F.TPO_WIDTH_NS_NS n) ≠ 0 ∧ s.rd (F.TPO_WIDTH_NS_NS n) < s.rd (F.TPO_PERIOD_NS_NS n) ∧
      100 ≤ s.rd (F.TPO_PERIOD_NS_NS n)) →
    Completes (.tpoEnable src n val) s fun t => t.rd (F.TPO_CTRL_EN n) = 1 ∧ t.rd (F.TPO_CTRL_MODE n) = mode) ∧
  (∀ (n : Fin 8) (s : State), s.rd (F.TPO_CTRL_EN n) = 1 →
    (s.rd (F.TPO_CTRL_MODE n) = 1 → (s.tpoOf n).fired = false → s.tpoStart n ≤ s.timestamp →
      Completes (.tpoPulseStart n) s fun t => t.tpoOf n = { s.tpoOf n with active := true, fired := true }) ∧
    (s.rd (F.TPO_CTRL_MODE n) = 2 →
      s.tpoStart n + ((s.tpoOf n).next * s.rd (F.TPO_PERIOD_NS_NS n) : Nat) ≤ s.timestamp →
      Completes (.tpoPulseStart n) s fun t => t.tpoOf n = { s.tpoOf n with active := true, next := (s.tpoOf n).next + 1 })) ∧
  (∀ (n : Fin 8) (s : State), KMap.wf (fun _ => {}) s.tpo = true →
    Completes (.tpoPulseEnd n) s fun t => t.tpoOf n = { s.tpoOf n with active := false }) ∧
  (∀ (n : Fin 8) (s : State), s.Inv → s.rd (F.TPO_CTRL_EN n) = 1 → s.rd (F.TPO_CTRL_MODE n) = 3 →
    Completes (.tpoCapture n) s fun t =>
      t.rd (F.TPO_CAP_SEC_LO_SEC n) = tsSec s.timestamp % 2 ^ 32 ∧ t.rd (F.TPO_CAP_SEC_HI_SEC n) = tsSec s.timestamp / 2 ^ 32 ∧
      t.rd (F.TPO_CAP_NS_NS n) = tsNs s.timestamp ∧
      t.rd (F.TPO_CAP_COUNT_COUNT n) = (s.rd (F.TPO_CAP_COUNT_COUNT n) + 1) % 2 ^ 32)

/-- R376 to R388: a sample period begins and takes what was received, a transmit tile's samples are kept for their periods, a port is
enabled, disabled and muted, a channel that found no zero crossing switches, the clock monitor reports, and groups are set. -/
def Obligations.AudioComplete : Prop :=
  (∀ (p : Fin 4) (din : List Word) (x : Int) (s : State), s.rd (F.AUD_P_CTRL_EN p) = 1 →
    s.rd (F.AUD_P_STATUS_SHUTTING_DOWN p) = 0 → s.periodTime p = some x →
    (s.audNode p 0 = none →
      Completes (.samplePeriod p din) s fun t => (t.audPort p).running = true ∧ (t.audPort p).cur = x) ∧
    (∀ n, s.audNode p 0 = some n → KMap.wf (fun _ => {}) s.aud = true → (s.audPort p).rxN + 1 < n.periods →
      Completes (.samplePeriod p din) s fun t =>
        (t.audPort p).running = true ∧ (t.audPort p).cur = x ∧ (t.audPort p).rxN = (s.audPort p).rxN + 1)) ∧
  (∀ (p : Fin 4) (n : Node) (ed : Edge) (i : Nat) (e : RingEntry) (s u : State), s.audNode p 1 = some n →
    s.image.inEdge n.id 0 = some ed → (s.audPort p).running = true → s.nextTile ed.qid = (some (i, e), u) →
    let x := u.entryTile e
    let r := (u.maybeSwitch n.id x.hdr.fs).checkTile ed (0x0700 + p) x true
    r.1.outcome ≠ 3 → r.1.tile.hdr.len16 = ceilDiv (n.periods * n.slots.length * 4) 16 →
    (s.audPort p).periodOf (s.fsOf p) (s.capTime r.1.tile.hdr.capSec r.1.tile.hdr.capNs + n.par 8 4 +
      ((n.periods - 1) * 1000000000 / s.fsOf p : Nat)) ≤ 8192 →
    Completes (.audTxTile p) s fun t =>
      ∃ l, (t.audPort p).samples = (s.audPort p).samples ++ l ∧ l.length ≤ n.periods ∧
        ∀ y ∈ l, 0 < (s.audPort p).periodOf (s.fsOf p) y.1) ∧
  (∀ (src : Agent) (p : Fin 4) (val : Word) (s : State), s.Inv → s.Passes src (F.AUD_P_CTRL_EN p) →
    (F.AUD_P_CTRL_FS p).of val = s.rd (F.AUD_P_CTRL_FS p) → (F.AUD_P_CTRL_CLK_MODE p).of val = s.rd (F.AUD_P_CTRL_CLK_MODE p) →
    s.rd (F.AUD_P_STATUS_SHUTTING_DOWN p) = 0 →
    (s.rd (F.AUD_P_CTRL_EN p) = 0 → (F.AUD_P_CTRL_EN p).of val = 1 → s.audOk p val = true →
      Completes (.audPortEnable src p val) s fun t =>
        t.rd (F.AUD_P_CTRL_EN p) = 1 ∧ t.rd (F.AUD_P_STATUS_HOLDOVER p) = 0 ∧ t.rd (F.AUD_P_UNDERRUN_COUNT p) = 0 ∧
        t.rd (F.AUD_P_NA_PAIRS p) = 0) ∧
    (s.rd (F.AUD_P_CTRL_EN p) = 1 → (F.AUD_P_CTRL_EN p).of val = 0 → (s.audPort p).running = true →
      Completes (.audPortEnable src p val) s fun t =>
        t.rd (F.AUD_P_CTRL_EN p) = 0 ∧ t.rd (F.AUD_P_STATUS_SHUTTING_DOWN p) = 1) ∧
    ((F.AUD_P_CTRL_EN p).of val = s.rd (F.AUD_P_CTRL_EN p) → (F.AUD_P_CTRL_TX_MUTE p).of val ≠ s.rd (F.AUD_P_CTRL_TX_MUTE p) →
      KMap.wf (fun _ => {}) s.aud = true →
      Completes (.txMute src p val) s fun t =>
        t.rd (F.AUD_P_CTRL_TX_MUTE p) = (F.AUD_P_CTRL_TX_MUTE p).of val ∧
        t.audPort p = (s.audPort p).request allSlots ((F.AUD_P_CTRL_TX_MUTE p).of val == 1))) ∧
  (∀ (p : Fin 4) (k : Fin 32) (m : Bool) (s : State), s.Inv → ((s.audPort p).chan k).pend = some m →
    s.rd (F.AUD_P_CTRL_ZC_TMO p) ≤ ((s.audPort p).chan k).waited →
    Completes (.zcTimeout p k) s fun t =>
      t.rd (F.AUD_P_ZC_TMO_COUNT p) = min (s.rd (F.AUD_P_ZC_TMO_COUNT p) + 1) (2 ^ 32 - 1) ∧ (t.audPort p).zcSaid = true ∧
      (KMap.wf (fun _ => {}) (s.audPort p).chans = true → ((t.audPort p).chan k).muted = m ∧ ((t.audPort p).chan k).pend = none)) ∧
  (∀ (p : Fin 4) (ppm : Int) (glitches : Nat) (s : State), s.Inv → s.rd (F.AUD_P_CTRL_CLK_MODE p) = 1 →
    (s.rd (F.AUD_P_STATUS_CLK p) = 2 → (s.audPort p).running = true →
      Completes (.audClockChange p true ppm glitches) s fun t =>
        t.rd (F.AUD_P_STATUS_CLK p) = 0 ∧ t.rd (F.AUD_P_STATUS_HOLDOVER p) = 1 ∧ t.rd (F.AUD_P_STATUS_STATUS p) = 0x1B05) ∧
    (ppm.natAbs ≤ 1000 → glitches ≤ s.rd (F.AUD_P_CLK_GLITCH_LIMIT p) →
      Completes (.audClockChange p false ppm glitches) s fun t =>
        t.rd (F.AUD_P_STATUS_CLK p) = 2 ∧ t.rd (F.AUD_P_CLK_PPM p) = (ppm % 65536).toNat)) ∧
  (∀ (src : Agent) (g : Fin 4) (val : Word) (s : State), s.Inv → s.Passes src (F.AUD_GROUP_EN g) →
    (∀ p < 4, s.rd (F.AUD_P_CTRL_EN p) = 0) → (s.plainWrite (F.AUD_GROUP_EN g).off val).groupsOk = true →
    Completes (.audGroupWrite src g val) s fun t =>
      t.rd (F.AUD_GROUP_EN g) = (F.AUD_GROUP_EN g).of val ∧ t.rd (F.AUD_GROUP_MASK g) = (F.AUD_GROUP_MASK g).of val ∧
      t.rd (F.AUD_GROUP_LEADER g) = (F.AUD_GROUP_LEADER g).of val)

/-- R391, R392, R395, R396: the host link comes up, a reset of the function clears its configuration and its MSI-X table, a configuration
write sets its enables, the lowest unmasked pending vector sends its message, and a request that is not answered is all-ones. -/
def Obligations.HostAttachmentComplete : Prop :=
  (∀ (speed : Fin 5) (width : Fin 17) (s : State), s.Inv → s.rd F.PWR_STATUS_DAY ≠ 0 → speed ≠ 0 →
    width = 4 ∨ width = 8 ∨ width = 16 →
    Completes (.hostLinkUp speed width) s fun t =>
      t.rd F.HIF_STATUS_LINK = 1 ∧ t.rd F.HIF_STATUS_SPEED = speed ∧ t.rd F.HIF_STATUS_WIDTH = width ∧ t.hif = s.hif) ∧
  (∀ (linkDown : Bool) (s : State), s.Inv →
    Completes (.hostReset linkDown) s fun t =>
      t.hif = { s.hif with bme := false, msixEn := false, msixMask := false } ∧ t.rd F.HIF_STATUS_HOST_RESET = 1 ∧
      (linkDown = true → s.rd F.HIF_STATUS_LINK = 1 → t.rd F.HIF_STATUS_LINK = 0 ∧ t.rd F.HIF_STATUS_STATUS = 0x1C01) ∧
      (linkDown = false → t.rd F.HIF_STATUS_LINK = s.rd F.HIF_STATUS_LINK) ∧
      ∀ v < 2048, t.rd (F.MSIX_ADDR_LO_ADDR v) = 0 ∧ t.rd (F.MSIX_DATA_DATA v) = 0 ∧ t.rd (F.MSIX_VCTRL_MASK v) = 1) ∧
  (∀ (bme en mask : Bool) (s : State), s.rd F.HIF_STATUS_LINK = 1 →
    Completes (.busMasterEnable bme en mask) s fun t =>
      t.hif = { s.hif with bme := bme, msixEn := en, msixMask := mask } ∧ t.regs = s.regs) ∧
  (∀ (v : Nat) (s : State), s.Inv → s.hostUp = true → s.hif.msixEn = true → s.hif.msixMask = false → v < 2048 →
    s.vecReady v = true → (∀ w < v, s.vecReady w = false) →
    Completes .msixMessage s fun t =>
      t.rd ⟨(F.MSIX_PBA_PENDING (v / 32)).off, v % 32, 1⟩ = 0 ∧
      t.hif = (s.hostWrite (s.rd (F.MSIX_ADDR_HI_ADDR v) * 2 ^ 32 + s.rd (F.MSIX_ADDR_LO_ADDR v) * 4)
        (leBytes 4 (s.rd (F.MSIX_DATA_DATA v)))).hif) ∧
  (∀ (len : BitVec 12) (s : State), s.Inv →
    Completes (.cplTimeout len) s fun t =>
      t.readData = List.replicate len.toNat 0xFF ∧ t.rd F.HIF_OB_DROP_COUNT = min (s.rd F.HIF_OB_DROP_COUNT + 1) (2 ^ 32 - 1) ∧
      t.rd F.HIF_STATUS_STATUS = 0x1C03)

/-- R4, R7, R393, R394: a word write of a register sets its fields and a narrow one leaves them, a host read through BAR0 returns the
word, and an access through an inbound window reaches its address, physical or of a space, or is refused and counted. -/
def Obligations.AccessesComplete : Prop :=
  (∀ (c : Instr) (src : Agent) (b : Fin 34) (off : BitVec 24) (val : Word) (s : State), s.Inv →
    b ≠ 0 → off.toNat = (F.HIF_IRQ_MAP_EN b).off → s.Passes src (F.HIF_IRQ_MAP_EN b) →
    c = .registerWrite src off .word val ∨ (src = .host ∧ c = .bar0Access true off .word val) →
    Completes c s fun t =>
      t.rd (F.HIF_IRQ_MAP_EN b) = (F.HIF_IRQ_MAP_EN b).of val ∧ t.rd (F.HIF_IRQ_MAP_VECTOR b) = (F.HIF_IRQ_MAP_VECTOR b).of val) ∧
  (∀ (c : Instr) (src : Agent) (off : BitVec 24) (size : Size) (val : Word) (s : State), s.gate src off.toNat = .pass true →
    size ≠ .word → isCkvData off.toNat = false →
    c = .registerWrite src off size val ∨ (src = .host ∧ c = .bar0Access true off size val) →
    Completes c s fun t =>
      t.mem = s.mem ∧ ∀ f : Fld, f.off / 0x40000 ≠ 0x04 → ¬ (0x718000 ≤ f.off ∧ f.off < 0x718100) → t.rd f = s.rd f) ∧
  (∀ (off : BitVec 24) (size : Size) (val : Word) (s : State), s.rd F.PWR_STATUS_DAY ≠ 0 → s.rd F.HIF_STATUS_LINK = 1 →
    size = .word → off.toNat % 4 = 0 → off.toNat / 0x40000 ≠ 0x0E → off.toNat ≠ 0x70200C →
    ¬ (off.toNat / 0x40000 = 0x20 ∧ s.rd F.FUSE_PROG_STATUS_BUSY = 1) →
    Completes (.bar0Access false off size val) s fun t =>
      t.readData = leBytes 4 (s.regRead off.toNat).toNat ∧ (off.toNat ≠ F.PWR_VIN_VIN.off → t.regs = s.regs)) ∧
  (∀ (off : Word) (len : BitVec 12) (write : Option (List Byte)) (s : State), s.Inv → s.rd F.HIF_STATUS_LINK = 1 →
    s.rd F.PWR_STATUS_DAY ≠ 0 →
    let w := off.toNat / 2 ^ 28
    let n := s.rd (F.HIF_IW_CFG_IW_SPACE w)
    let va := s.rd (F.HIF_IW_BASE_HI_BASE w) * 2 ^ 32 + s.rd (F.HIF_IW_BASE_LO_BASE w) * 65536 + off.toNat % 2 ^ 28
    (s.rd (F.HIF_IW_CFG_EN w) = 1 → n ≠ 0 →
      (∀ b pa, write = some b → b ≠ [] → s.translateAccess n va b.length true 0 = .ok pa →
        Completes (.bar2Access off len write) s fun t => t.mem = (s.vwrite n va b).mem ∧ t.readData = s.readData) ∧
      (∀ pa, write = none → len ≠ 0 → s.translateAccess n va len.toNat false 0 = .ok pa →
        Completes (.bar2Access off len write) s fun t =>
          t.readData = s.vread n va len.toNat ∧ t.mem = s.mem ∧ t.regs = (s.readNote n va len.toNat).regs)) ∧
    (s.rd (F.HIF_IW_CFG_EN w) = 1 → n = 0 →
      (∀ b, write = some b → b ≠ [] → va + b.length ≤ 2 ^ 40 →
        Completes (.bar2Access off len write) s fun t =>
          t.mem = (s.physWrite va b).mem ∧ t.readData = s.readData ∧
          (inSysRegion va = true →
            t.rd F.HIF_IW_ERR_COUNT = min (s.rd F.HIF_IW_ERR_COUNT + 1) (2 ^ 32 - 1) ∧ t.rd F.HIF_STATUS_STATUS = 0x1C02)) ∧
      (write = none → len ≠ 0 → va + len.toNat ≤ 2 ^ 40 →
        Completes (.bar2Access off len write) s fun t =>
          t.readData = s.physRead va len.toNat ∧ t.mem = s.mem ∧ t.regs = (s.noteRead va len.toNat).regs)) ∧
    (s.rd (F.HIF_IW_CFG_EN w) = 0 → write = none → len ≠ 0 →
      Completes (.bar2Access off len write) s fun t =>
        t.rd F.HIF_IW_ERR_COUNT = min (s.rd F.HIF_IW_ERR_COUNT + 1) (2 ^ 32 - 1) ∧ t.rd F.HIF_STATUS_STATUS = 0x1C02 ∧
        t.mem = s.mem ∧ t.xlt = s.xlt))

/-- R398, R399, R400: a doorbell returns slots to a HOST_OUT channel and gives entries to a HOST_IN channel, a HOST_OUT channel delivers
a tile, and a HOST_IN channel handles a submission entry. -/
def Obligations.HostChannelsComplete : Prop :=
  (∀ (src : Agent) (c : Fin 32) (val : Word) (s : State), s.Passes src (F.HIF_CH_DB_COUNT c) → (s.chan c).node.isSome = true →
    let n := (F.HIF_CH_DB_COUNT c).of val
    ((s.chan c).out = true → n ≤ (s.chan c).outstanding →
      Completes (.hifChDb src c val) s fun t =>
        t.chan c = { s.chan c with outstanding := (s.chan c).outstanding - n, returned := (s.chan c).returned + n }) ∧
    ((s.chan c).out = false → n ≤ (s.chan c).slots - (s.chan c).outstanding →
      Completes (.hifChDb src c val) s fun t =>
        t.chan c = { s.chan c with outstanding := (s.chan c).outstanding + n })) ∧
  (∀ (c : Fin 32) (i : Nat) (e : RingEntry) (s u w : State), s.chanRuns c = true → (s.chan c).out = true →
    s.nextTile (s.chan c).qid = (some (i, e), u) → (s.chan c).outstanding < (s.chan c).slots →
    let ch := s.chan c
    let k := ch.delivered % ch.slots
    let src := u.slotVia ch.qid e.addr
    let x := u.tileVia src e.len16
    u.unitStop 0 src 32 false = none →
    (u.maybeSwitch (ch.node.getD 0) x.hdr.fs).move (some src) (fun _ => 0) [(ch.space, ch.base + k * ch.stride)]
      (32 + x.payload.length) ch.off = (none, w) →
    w.unitStop 0 (ch.space, ch.cplBase + 16 * k) 16 true = none →
    Completes (.hostOutTile c) s fun t =>
      t.chan c = { ch with off := 0, delivered := ch.delivered + 1, outstanding := ch.outstanding + 1 } ∧
      t.mem = (w.vwrite ch.space (ch.cplBase + 16 * k) (cplEntry (ch.base + k * ch.stride) x.hdr.len16 (ch.delivered / ch.slots)
        x.hdr.fs x.hdr.fe x.hdr.seq)).mem) ∧
  (∀ (c : Fin 32) (id : Nat) (s w : State), s.chanRuns c = true → (s.chan c).out = false → (s.chan c).outstanding ≠ 0 →
    (s.chan c).node = some id → (s.chan c).ents ≠ [] ∨ s.roomOn (s.portQueues id 0) 1 = true →
    let u := s.hostInReserve c (s.portQueues id 0)
    let ch := u.chan c
    let sub := ch.base + 16 * (ch.returned % max 1 ch.slots)
    let va := le (u.vread ch.space sub 8) % 2 ^ 48
    let h := hdrOf (u.vread ch.space va 32)
    u.unitStop 0 (ch.space, sub) 16 false = none → u.unitStop 0 (ch.space, va) 32 false = none → h.valid = true →
    (u.image.outEdges id 0).any (fun e => e.stream != h.stream || e.format != h.format) = false →
    let v := u.maybeSwitch id h.fs
    v.move (some (ch.space, va)) (fun _ => 0) (ch.ents.map fun e => v.slotVia e.1 ((v.queue e.1).slotAddr e.2))
      (32 + 16 * h.len16) ch.off = (none, w) →
    Completes (.hostInEntry c) s fun t =>
      t.chan c = { w.chan c with off := 0, ents := [], returned := (w.chan c).returned + 1, outstanding := (w.chan c).outstanding - 1 })

/-- R401 to R404: a flash command starts, an I²C transfer ends, a UART keeps or drops a byte, and a pin's edge is seen. -/
def Obligations.PeripheralsComplete : Prop :=
  (∀ (src : Agent) (val : Word) (resp : List Byte) (s : State), s.Passes src F.HIF_XSPI_CMD_GO → s.hif.xspiRun = none →
    s.rd F.UPD_STATUS_STATE = 0 →
    let n := min 4096 (s.rd F.HIF_XSPI_LEN_LEN)
    (F.HIF_XSPI_CMD_WRITE.of val = 1 →
      Completes (.xspiGo src val resp) s fun t =>
        t.hif.xspiLast = (val ||| 0x80000000, s.reg F.HIF_XSPI_ADDR_ADDR.off, s.hif.xspiFifo.take n) ∧
        t.hif.xspiFifo = s.hif.xspiFifo.drop n) ∧
    (F.HIF_XSPI_CMD_WRITE.of val = 0 →
      Completes (.xspiGo src val resp) s fun t =>
        t.hif.xspiLast = (val ||| 0x80000000, s.reg F.HIF_XSPI_ADDR_ADDR.off, []) ∧
        t.hif.xspiFifo = s.hif.xspiFifo ++ (padTo n resp).take (64 - s.hif.xspiFifo.length))) ∧
  (∀ (m : Fin 4) (addr : BitVec 7) (wrote b : List Byte) (s : State),
    Completes (.i2cTransfer m addr wrote (.done b)) s (fun t =>
      (let r : I2cRec := { addr := addr.toNat, wrote := wrote.take 16, read := b.take 16, status := 0 }
       t.hif = { s.hif with i2c := KMap.set (fun _ => {}) s.hif.i2c m r }) ∧
      t.readData = b.take 16 ∧ t.regs = s.regs) ∧
    Completes (.i2cTransfer m addr wrote .nack) s (fun t => t.rd F.HIF_STATUS_STATUS = 0x1C08) ∧
    Completes (.i2cTransfer m addr wrote .arbLost) s (fun t => t.rd F.HIF_STATUS_STATUS = 0x1C09)) ∧
  (∀ (u : Fin 4) (b : Byte) (s : State),
    let f := KMap.get (fun _ => []) s.hif.uartRx u
    (f.length < 64 →
      Completes (.uartReceive u b) s fun t =>
        t.hif = { s.hif with uartRx := KMap.set (fun _ => []) s.hif.uartRx u (f ++ [b]) } ∧ t.regs = s.regs) ∧
    (64 ≤ f.length →
      Completes (.uartReceive u b) s fun t => t.hif.uartRx = s.hif.uartRx ∧ t.rd F.HIF_STATUS_STATUS = 0x1C0A)) ∧
  (∀ (pin : Fin 32) (level : Bool) (s : State),
    let inp : Fld := ⟨F.GPIO_IN_V.off, pin, 1⟩
    let irq : Fld := ⟨F.GPIO_IRQ_V.off, pin, 1⟩
    let edge := s.rd ⟨(F.GPIO_IRQ_EDGE_V (pin.val / 16)).off, 2 * (pin.val % 16), 2⟩
    s.rd inp ≠ (if level then 1 else 0) →
    Completes (.gpioEdge pin level) s fun t =>
      t.rd inp = (if level then 1 else 0) ∧
      t.rd irq = if edge = 3 ∨ edge = (if level then 1 else 2) then 1 else s.rd irq)

/-- R412, R415, R417, R418, R420, R423: a unit's own commands: it claims an unowned block, takes it by force, yields it, starts and ends
a drill, becomes current, declares and clears a fault, and restarts its watchdog. -/
def Obligations.OwnershipCommandsComplete : Prop :=
  ∀ (src : Agent) (u : Fin 2) (s : State), s.Inv → agentUnit src = some u.val → s.rd F.PWR_STATUS_DAY ≠ 0 →
  let p := peer u
  let gap (kind : Nat) (out : Option Nat) (inc : Nat) (t : State) : Prop :=
    t.cux.gap = some { kind := kind, outgoing := out, incoming := inc, start := s.ref } ∧ t.rd F.CUX_OWNER_GAP = 1 ∧
    t.rd F.CUX_OWNER_OWNER = s.rd F.CUX_OWNER_OWNER
  (∀ both, s.rd F.CUX_OWNER_OWNER = 0 → s.cux.gap = none → s.ustate u = 1 ∨ s.ustate u = 2 →
    (both = false ∨ s.rd F.CUX_OWNER_PREF = u →
      Completes (.claim src u both) s (gap 1 none u)) ∧
    (both = true → s.rd F.CUX_OWNER_PREF ≠ u → s.ustate p = 1 ∨ s.ustate p = 2 →
      Completes (.claim src u both) s fun t => gap 1 none p t ∧ t.rd (F.CUX_U_STATE_STATUS u) = 0x0404)) ∧
  (s.owner = some p → s.cux.gap = none → s.ustate u = 1 ∨ s.ustate u = 2 → s.pathUp u = false →
    Completes (.force src u) s fun t => gap 4 (some p) u t ∧ t.cux.units = s.cux.units) ∧
  (s.owner = some u.val → s.ustate u ≠ 0 → s.switchBusy = false → s.fit p = true → KMap.wf (fun _ => {}) s.cux.units = true →
    Completes (.yield src u) s (fun t => gap 2 (some u) p t ∧ (t.unit u).portOpen = false) ∧
    Completes (.drill src u) s (fun t => gap 6 (some u) p t ∧ (t.unit u).portOpen = false)) ∧
  (s.cux.drill = some u.val → s.cux.gap = none → s.fit u = true → s.owner = some p →
    KMap.wf (fun _ => {}) s.cux.units = true →
    Completes (.drill src u) s (fun t => gap 7 (some p) u t ∧ (t.unit p).portOpen = false) ∧
    Completes .drillEnd s (fun t => gap 7 (some p) u t ∧ (t.unit p).portOpen = false)) ∧
  (s.ustate u = 1 → s.pathUp u = true → (s.unit u).lost = false →
    Completes (.ready src u) s fun t => t.ustate u = 2 ∧ t.rd (F.CUX_U_STATE_SYNCED u) = 1 ∧ t.cux = s.cux) ∧
  (s.ustate u = 1 ∨ s.ustate u = 2 ∨ s.ustate u = 3 → s.owner ≠ some u.val → s.cux.gap = none →
    Completes (.declareFault src u) s fun t =>
      t.ustate u = 4 ∧ t.rd (F.CUX_U_STATE_FAULT_CAUSE u) = 4 ∧ t.rd (F.CUX_U_STATE_STATUS u) = 0x0410 ∧
      t.rd (F.CUX_U_STATE_SYNCED u) = 0) ∧
  (s.ustate u = 4 → (s.unit u).causeHolds = false →
    Completes (.clearFault src u) s fun t => t.ustate u = 1 ∧ t.rd (F.CUX_U_STATE_FAULT_CAUSE u) = 0 ∧ t.cux = s.cux) ∧
  (∀ val, s.ustate u ≠ 0 →
    Completes (.cuxUKick src u val) s fun t =>
      t = s.setUnit u { s.unit u with kicked := s.ref, causeHolds := false })

/-- R414, R416, R417, R420, R422, R423: a journal record is sent; a unit diagnoses a fault in itself, by which control passes or lapses;
heartbeats return a path and their absence takes it down; RETURN and the failed end of a drill. -/
def Obligations.UnitEventsComplete : Prop :=
  ∀ (u : Fin 2) (s : State), s.Inv →
  let p := peer u
  (∀ (src : Agent) (val : Word), agentUnit src = some u.val → s.rd F.PWR_STATUS_DAY ≠ 0 → s.ustate u ≠ 0 → s.owner = some u.val →
    let n := (F.CUX_U_JTX_DB_LEN u).of val
    let head := s.rd (F.CUX_U_JTX_PTR_HEAD u)
    let tail := s.rd (F.CUX_U_JTX_PTR_TAIL u)
    16 ≤ n → n ≤ 4096 → n % 16 = 0 → (tail + 4096 - head) % 4096 + n / 16 < 4096 →
    Completes (.jtxDb src u val) s fun t =>
      t.rd F.CUX_SYNC_SEQ_SEQ = (s.rd F.CUX_SYNC_SEQ_SEQ + 1) % 2 ^ 32 ∧
      t.rd (F.CUX_U_JTX_PTR_TAIL u) = (tail + n / 16) % 4096 ∧ t.rd (F.CUX_U_JTX_PTR_HEAD u) = (tail + n / 16) % 4096 ∧
      let rh := s.rd (F.CUX_U_JRX_PTR_HEAD p)
      let rt := s.rd (F.CUX_U_JRX_PTR_TAIL p)
      (s.ustate p = 1 ∨ s.ustate p = 2 → s.pathUp p = true → (rt + 4096 - rh) % 4096 + (1 + n / 16) < 4096 →
        t.rd (F.CUX_U_JRX_PTR_TAIL p) = (rt + 1 + n / 16) % 4096)) ∧
  (∀ cause : Fin 3, s.ustate u = 1 ∨ s.ustate u = 2 ∨ s.ustate u = 3 → cause ≠ 0 ∨ s.watchdogRuns u = true →
    s.cux.gap = none →
    (s.owner ≠ some u.val → Completes (.selfFault u cause) s fun t =>
      t.ustate u = 4 ∧ t.rd (F.CUX_U_STATE_FAULT_CAUSE u) = cause.val + 1 ∧ t.cux.gap = none) ∧
    (s.owner = some u.val → s.ustate p = 2 → Completes (.selfFault u cause) s fun t =>
      t.ustate u = 4 ∧ t.rd (F.CUX_U_STATE_FAULT_CAUSE u) = cause.val + 1 ∧
      t.cux.gap = some { kind := 3, outgoing := some u.val, incoming := p, start := s.ref } ∧ t.rd F.CUX_OWNER_GAP = 1) ∧
    (s.owner = some u.val → s.ustate p ≠ 2 → Completes (.selfFault u cause) s fun t =>
      t.owner = none ∧ t.cux.gap = none ∧ t.rd F.CUX_STATUS_STATUS = 0x0412)) ∧
  (∀ k : Bool, s.ustate u ≠ 0 → s.ustate p ≠ 0 → s.rd (pathFld u k) = 0 →
    Completes (.heartbeat u k) s fun t =>
      t.rd (pathFld u k) = 1 ∧ t.rd (F.CUX_U_STATE_STATUS u) = 0x040C ∧ t.rd ⟨(F.CUX_U_IRQ_IRQ u).off, 1, 1⟩ = 1 ∧
      t.ustate u = (if s.ustate u = 2 ∧ s.rd (F.CUX_U_STATE_SYNCED u) = 0 then 1 else s.ustate u)) ∧
  (∀ k : Bool, s.rd (pathFld u k) = 1 →
    let miss := if k then F.CUX_MISS_K_COUNT else F.CUX_MISS_L_COUNT
    Completes (.pathDown u k) s fun t =>
      t.rd (pathFld u k) = 0 ∧ t.rd miss = min (s.rd miss + 1) (2 ^ 32 - 1) ∧ t.rd ⟨(F.CUX_U_IRQ_IRQ u).off, 1, 1⟩ = 1 ∧
      t.rd (F.CUX_U_STATE_STATUS u) = (if s.rd (pathFld u (!k)) = 1 then 0x040B else 0x040D) ∧
      (s.rd (pathFld u (!k)) = 0 → s.ustate u = 2 → s.rd F.CUX_CFG_AUTO_CLAIM = 1 → s.cux.gap = none → s.owner = some p →
        t.cux.gap = some { kind := 4, outgoing := some p, incoming := u, start := s.ref })) ∧
  (s.rd F.CUX_OWNER_PREF = u → s.rd F.CUX_CFG_AUTO_RETURN = 1 → s.fit u = true → s.owner = some p → s.pathUp u = true →
    s.cux.drill = none → s.cux.gap = none →
    Completes .returnPref s fun t =>
      t.cux.gap = some { kind := 5, outgoing := some p, incoming := u, start := s.ref } ∧ t.rd F.CUX_OWNER_GAP = 1) ∧
  (s.cux.drill = some u.val → s.cux.gap = none → s.fit u = false →
    Completes .drillEnd s fun t =>
      t.cux.drill = none ∧ t.cux.gap = none ∧ t.rd (F.CUX_U_STATE_DRILL u) = 0 ∧ t.rd (F.CUX_U_STATE_STATUS u) = 0x0411 ∧
      t.rd ⟨(F.CUX_U_IRQ_IRQ 0).off, 4, 1⟩ = 1 ∧ t.rd ⟨(F.CUX_U_IRQ_IRQ 1).off, 4, 1⟩ = 1)

/-- R418, R419, R421: a doorbell is held in the gap; the gap's end gives the incoming unit control; the grant of the outgoing unit of a
forced claim clears. -/
def Obligations.SwitchOverComplete : Prop :=
  (∀ (src : Agent) (off : BitVec 24) (val : Word) (s : State), s.Inv → isDoorbell off.toNat = true →
    s.gate src off.toNat = .hold → s.cux.held.length < 256 →
    Completes (.doorbellHold src off val) s fun t =>
      t.cux = { s.cux with held := s.cux.held ++ [⟨src, off.toNat, val⟩] } ∧ t.rd F.CUX_HOLD_HELD = s.cux.held.length + 1 ∧
      t.hq = s.hq ∧ t.movers = s.movers ∧ t.hif = s.hif ∧ t.rd F.CUX_SYNC_SEQ_SEQ = s.rd F.CUX_SYNC_SEQ_SEQ) ∧
  (∀ (cycles : BitVec 16) (g : Gap) (s : State), s.Inv → s.cux.gap = some g → g.incoming < 2 → 1 ≤ g.kind → g.kind ≤ 7 →
    g.outgoing ≠ some g.incoming → (∀ o, g.outgoing = some o → o < 2) →
    Completes (.switchOverGapEnd cycles) s fun t =>
      t.cux.gap = none ∧ t.rd F.CUX_OWNER_GAP = 0 ∧ t.rd F.CUX_OWNER_OWNER = g.incoming + 1 ∧
      t.rd F.CUX_OWNER_LAST_KIND = g.kind ∧ t.rd F.CUX_LAST_GAP_CYCLES = min 256 cycles.toNat ∧
      t.rd F.CUX_SWITCH_COUNT_COUNT = (s.rd F.CUX_SWITCH_COUNT_COUNT + 1) % 2 ^ 32 ∧ t.ustate g.incoming = 3 ∧
      (t.unit g.incoming).portOpen = true ∧ t.cux.held = [] ∧ t.rd F.CUX_HOLD_HELD = 0 ∧
      t.rd ⟨(F.CUX_U_IRQ_IRQ 0).off, 0, 1⟩ = 1 ∧ t.rd ⟨(F.CUX_U_IRQ_IRQ 1).off, 0, 1⟩ = 1 ∧
      ∀ o, g.outgoing = some o → s.cux.held = [] → s.cux.stalled = [] →
        (g.kind ≠ 4 → s.ustate o = 3 → t.ustate o = 2 ∧ t.rd (F.CUX_U_STATE_SYNCED o) = 1) ∧
        (g.kind = 4 → (s.unit o).portOpen = true → t.cux.double = some (o, s.ref) ∧ t.rd F.CUX_OWNER_DOUBLE = 1)) ∧
  (∀ (cycles : BitVec 16) (o start : Nat) (s : State), s.Inv → s.cux.double = some (o, start) → o < 2 →
    KMap.wf (fun _ => {}) s.cux.units = true →
    Completes (.ownershipLost cycles) s fun t =>
      t.cux.double = none ∧ t.rd F.CUX_OWNER_DOUBLE = 0 ∧ t.rd F.CUX_LAST_DOUBLE_CYCLES = min 2048 cycles.toNat ∧
      (t.unit o).portOpen = false ∧ t.rd (F.CUX_U_STATE_STATUS o) = 0x040F ∧ t.rd ⟨(F.CUX_U_IRQ_IRQ o).off, 3, 1⟩ = 1 ∧
      t.ustate o = (if s.ustate o = 3 then 1 else s.ustate o))

/-- R430, R434, R435, R450: a sample is averaged, low input and a warm die are reported, and an over-temperature reading leaves Midnight
with the always-on registers kept. -/
def Obligations.InputAndTemperatureComplete : Prop :=
  ∀ s : State, s.Inv →
  (s.rd F.PWR_STATUS_DAY ≠ 0 → s.telemetryHeld = false → ∀ (mv ma : BitVec 16) (temps : Option (List Int)),
    let l := ((mv.toNat, ma.toNat) :: s.pwr.samples).take 100
    let vin := mean (l.map fun x => x.1)
    let low := s.rd F.PWR_VIN_VIN_MIN
    Completes (.telemetrySample mv ma temps) s fun t =>
      t.pwr.samples = l ∧ t.rd F.PWR_VIN_VIN = vin % 2 ^ 16 ∧ t.rd F.PWR_VIN_VIN_MIN = (if low = 0 then vin else min low vin) % 2 ^ 16 ∧
      t.rd F.PWR_IIN_MA = mean (l.map fun x => x.2) % 2 ^ 16 ∧
      t.rd F.PWR_PIN_MW = mean (l.map fun x => x.1 * x.2 / 1000) % 2 ^ 32 ∧
      (s.rd F.PWR_STATUS_LOWIN = 1 → s.rd F.PWR_LOWIN_THRESH_MV + 100 < vin % 2 ^ 16 →
        t.rd F.PWR_STATUS_LOWIN = 0 ∧ t.rd F.PWR_STATUS_LOWIN_1S = 0) ∧
      (temps = none → t.pwr.temps = s.pwr.temps) ∧
      ∀ a b c d : Int, temps = some [a, b, c, d] →
        t.pwr.temps = [a, b, c, d] ∧ t.rd F.PWR_TEMP_CUR = temp16 (max (max (max a b) c) d)) ∧
  (s.rd F.PWR_STATUS_DAY ≠ 0 → s.rd F.PWR_STATUS_LOWIN = 0 → s.rd F.PWR_VIN_VIN < s.rd F.PWR_LOWIN_THRESH_MV →
    Completes .lowInput s fun t =>
      t.rd F.PWR_STATUS_LOWIN = 1 ∧ t.rd F.PWR_STATUS_LOWIN_IRQ = 1 ∧ t.rd F.PWR_STATUS_STATUS = 0x0201 ∧ t.pwr = s.pwr) ∧
  (s.rd F.PWR_STATUS_LOWIN = 1 →
    Completes .lowin1s s fun t =>
      t.rd F.PWR_STATUS_LOWIN_1S = 1 ∧ t.rd F.PWR_STATUS_LOWIN = 1 ∧ t.rd F.PWR_STATUS_STATUS = s.rd F.PWR_STATUS_STATUS) ∧
  (∀ d : Fin 4, s.rd F.PWR_STATUS_DAY ≠ 0 → s.pwr.warned.contains d.val = false →
    signed 16 (s.rd F.PWR_TEMP_WARN_TEMP) < s.pwr.temps.getD d 0 →
    Completes (.tempWarn d) s fun t =>
      t.rd F.PWR_STATUS_STATUS = 0x0204 ∧ t.rd F.PWR_STATUS_TEMP_IRQ = 1 ∧
      t.pwr = { s.pwr with warned := s.pwr.warned ++ [d.val] }) ∧
  (∀ (d : Fin 4) (temp : Int), s.rd F.PWR_STATUS_DAY ≠ 0 → 2000 < temp →
    Completes (.overTemp d temp) s fun t =>
      t.rd F.PWR_STATUS_DAY = 0 ∧ t.rd F.PWR_LAST_OFF_CAUSE = 2 ∧ t.rd F.PWR_LOWIN_THRESH_MV = s.rd F.PWR_LOWIN_THRESH_MV ∧
      t.rd F.PWR_WAKE_ALARM_TICKS = s.rd F.PWR_WAKE_ALARM_TICKS ∧ t.rd F.PWR_WAKE_VIN_MV = s.rd F.PWR_WAKE_VIN_MV ∧
      t.rd F.CUX_SWITCH_COUNT_COUNT = s.rd F.CUX_SWITCH_COUNT_COUNT ∧ t.slk = {} ∧ t.str = {} ∧ t.hq = {} ∧ t.mag = {})

/-- R437, R438, R440: SLEEP starts Dusk, whose steps follow each other to Midnight; a wake source ends Midnight, or is latched. -/
def Obligations.DuskAndWakeComplete : Prop :=
  ∀ s : State, s.Inv →
  (∀ (src : Agent) (val : Word), s.Passes src F.PWR_CTRL_SLEEP → s.rd F.PWR_STATUS_DAY = 2 → s.updHolds = false →
    s.dayBusy = false ∨ (F.PWR_CTRL_FORCE.of val = 1 ∧ s.take ≠ 1 ∧ s.take ≠ 2) →
    Completes (.sleep src val) s fun t =>
      t.rd F.PWR_STATUS_DAY = 3 ∧ t.pwr = { s.pwr with dusk := 1, force := F.PWR_CTRL_FORCE.of val == 1 } ∧
      t.rd F.UPD_STATUS_STATE = 0) ∧
  (s.pwr.dusk = 1 → s.take = 0 →
    Completes .duskStepEnd s fun t =>
      t.pwr.dusk = 2 ∧ (∀ c < 32, t.rd (F.ENC_S_CTRL_EN c) = 0) ∧
      (∀ p < 8, 1518 ≤ s.rd (F.NET_P_CTRL_MAX_FRAME p) → s.rd (F.NET_P_CTRL_MAX_FRAME p) ≤ 9600 → t.rd (F.NET_P_CTRL_EN p) = 0) ∧
      ∀ k < 4, (s.rd (F.CMP_H_CTRL_SYNC k) < 2 → t.rd (F.CMP_H_CTRL_EN k) = 0) ∧ t.rd (F.SDI_S_CFG_EN k) = 0 ∧
        t.rd (F.AUD_P_CTRL_EN k) = 0 ∧ t.rd (F.MAG_P_CTRL_EN k) = 0 ∧ t.rd (F.SLK_G_CFG_EN k) = 0) ∧
  (s.pwr.dusk = 2 → s.shutDown = true → Completes .duskStepEnd s fun t => t.pwr.dusk = 3 ∧ t.sch.stopped = true) ∧
  (s.pwr.dusk = 3 → s.taskList = [] →
    Completes .duskStepEnd s fun t =>
      t.pwr = { s.pwr with dusk := 4 } ∧
      ∀ i < 32, t.island i = if isIsland i = true ∧ s.island i = 2 then 3 else s.island i) ∧
  (s.pwr.dusk = 4 → (∀ i < 32, isIsland i = true → s.island i = 0) →
    Completes .duskStepEnd s fun t =>
      t.pwr = { s.pwr with dusk := 5 } ∧ t.ustate 0 = 0 ∧ t.ustate 1 = 0 ∧
      t.ptp = { s.ptp with duskT := s.timestamp * 2 ^ 32 }) ∧
  (s.pwr.dusk = 5 →
    Completes .duskStepEnd s fun t =>
      t.pwr = { s.pwr with dusk := 6 } ∧ t.mem = KMap.erase s.mem (fun a => memRegion a == 0) ∧ t.regs = s.regs) ∧
  (s.pwr.dusk = 6 → s.pwr.latched = none →
    Completes .duskStepEnd s fun t =>
      t.rd F.PWR_STATUS_DAY = 0 ∧ t.rd F.PWR_LAST_OFF_CAUSE = 1 ∧ t.pwr = { cold := false } ∧ t.ptp = { duskT := s.ptp.duskT } ∧
      t.rd F.PWR_WAKE_VIN_MV = s.rd F.PWR_WAKE_VIN_MV) ∧
  (∀ (tick : WakeTick) (src : Nat), s.wakeOf tick = some src →
    (s.pwr.dusk ≠ 0 → s.pwr.latched = none →
      Completes (.wakeSource tick) s fun t => t = s.setPwr { s.pwr with latched := some src }) ∧
    (s.pwr.dusk = 0 → s.rd F.PWR_STATUS_DAY = 0 → s.pwr.cold = false → tick.temp < 1600 →
      Completes (.wakeSource tick) s fun t => t.rd F.PWR_LAST_OFF_WAKE = src ∧ t.rd F.PWR_STATUS_DAY = 1 ∧ t.boot.kind = 1))

/-- R443 to R446: islands wake on demand, become awake with their tasks, drain when idle, sleep or wake again, and are forced awake. R449: a clock's new frequency is taken and requested, and the domain switches to it. -/
def Obligations.IslandsAndClocksComplete : Prop :=
  (∀ (i : Fin 32) (s : State), s.Inv →
   let wakes := min (s.rd (F.PWR_ISL_WAKES_COUNT i) + 1) (2 ^ 32 - 1)
   (isIsland i = true → s.rd F.PWR_STATUS_DAY ≠ 0 → s.demanded i = true → s.underTest i = false → s.pwr.dusk < 4 →
     (s.island i = 0 → Completes (.islandDemand i) s fun t => t.island i = 1 ∧ t.rd (F.PWR_ISL_WAKES_COUNT i) = wakes) ∧
     (s.island i = 3 → Completes (.islandDemand i) s fun t =>
       t.island i = 3 ∧ t.rd (F.PWR_ISL_PENDING_ENABLE i) = 1 ∧ t.rd (F.PWR_ISL_WAKES_COUNT i) = s.rd (F.PWR_ISL_WAKES_COUNT i))) ∧
   (s.island i = 1 → KMap.wf (fun _ => none) s.sch.tasks = true →
     Completes (.islandAwake i) s fun t =>
       t.island i = (if 4 ≤ s.pwr.dusk then 3 else 2) ∧
       (∀ slot k, s.task slot = some k → k.cluster = i.val → k.state = .waking → t.task slot = some { k with state := .ready }) ∧
       ∀ slot k, s.task slot = some k → k.cluster ≠ i.val ∨ k.state ≠ .waking → t.task slot = some k) ∧
   (s.island i = 2 → s.islandIdle i = true → s.underTest i = false →
     (max 1 (s.idleCount i) ≤ s.idleRun i →
       Completes (.idleCountExpiry i) s fun t => t.island i = 3 ∧ t.sch = s.sch ∧ t.pwr = s.pwr) ∧
     (s.idleRun i < max 1 (s.idleCount i) → Completes (.idleCountExpiry i) s fun t => t = s) ∧
     (KMap.wf (fun _ => 0) s.pwr.idle = true → isIsland i = true → s.countIdle.idleRun i = s.idleRun i + 1)) ∧
   (s.island i = 3 →
     (s.rd (F.PWR_ISL_PENDING_ENABLE i) = 0 → Completes (.islandAsleep i) s fun t => t.island i = 0) ∧
     (s.rd (F.PWR_ISL_PENDING_ENABLE i) = 1 → s.pwr.dusk < 4 →
       Completes (.islandAsleep i) s fun t =>
         t.island i = 1 ∧ t.rd (F.PWR_ISL_PENDING_ENABLE i) = 0 ∧ t.rd (F.PWR_ISL_WAKES_COUNT i) = wakes)) ∧
   (∀ (src : Agent) (val : Word), s.Passes src (F.PWR_ISL_FORCE_AWAKE i) → isIsland i = true →
     Completes (.forceAwake src i val) s fun t =>
       t.rd (F.PWR_ISL_FORCE_AWAKE i) = (F.PWR_ISL_FORCE_AWAKE i).of val ∧
       (s.island i = 0 → s.underTest i = false → s.pwr.dusk < 4 →
         t.island i = (F.PWR_ISL_FORCE_AWAKE i).of val ∧
         ((F.PWR_ISL_FORCE_AWAKE i).of val = 1 → t.rd (F.PWR_ISL_WAKES_COUNT i) = wakes)))) ∧
  (∀ s : State, s.Inv →
   (∀ (src : Agent) (eclk : Bool) (val : Word), s.Passes src (if eclk then F.CLK_ECLK_SEL else F.CLK_FCLK_SEL) →
     s.rd (switchingFld eclk) = 0 → eclk = true ∨ s.layersFit (fclkSel (F.CLK_FCLK_SEL.of val)) = true →
     Completes (.clkFclkWrite src eclk val) s fun t =>
       t.rd (if eclk then F.CLK_ECLK_SEL else F.CLK_FCLK_SEL) = F.CLK_FCLK_SEL.of val ∧ t.rd (switchingFld eclk) = 1 ∧
       t.actAsked (.clk eclk) = true ∧ t.rd F.BIST_STATUS_MAINT_ACTIVE = 1 ∧ t.pwr = s.pwr) ∧
   (∀ e : Bool, s.rd (switchingFld e) = 1 → s.actRuns (.clk e) = true →
     Completes (.clockSwitch (if e then 1 else 0)) s fun t =>
       t.rd (switchingFld e) = 0 ∧ t.mnt.acts = s.mnt.acts.eraseP (fun r => r.act == .clk e) ∧
       t.pwr = if e then { s.pwr with eclk := s.rd F.CLK_ECLK_SEL } else { s.pwr with fclk := s.rd F.CLK_FCLK_SEL }) ∧
   (∀ (src : Agent) (u : Fin 2) (val : Word), s.Passes src (F.CLK_CCLK_SEL u) → s.rd F.CLK_STATUS_CSWITCHING = 0 →
     Completes (.clkCclkWrite src u val) s fun t =>
       t.rd (F.CLK_CCLK_SEL u) = (F.CLK_CCLK_SEL u).of val ∧ t.rd F.CLK_STATUS_CSWITCHING = 1 ∧
       t.pwr = { s.pwr with relock := some u.val }) ∧
   (s.rd F.CLK_STATUS_CSWITCHING = 1 →
     Completes (.clockSwitch 2) s fun t =>
       t.rd F.CLK_STATUS_CSWITCHING = 0 ∧ t.pwr = { s.pwr with relock := none } ∧ t.mnt = s.mnt))

/-- R439, R453, R454, R457, R458, R514: a PORST_N pulse shorter than 10 µs, which lies outside specification, stops the model; a cold
reset keeps the fuses alone; a cold start latches the straps and boots from their source;
a warm reset keeps the link and the always-on registers and boots again; KPR_HOST_GO boots from the host's image. -/
def Obligations.ResetsComplete : Prop :=
  ∀ s : State, s.Inv →
  (∀ us, us < 10 → exec (.porst us) s = .fault .porstPulseTooShort) ∧
  (∀ c : Instr, (∃ us, 10 ≤ us ∧ c = .porst us) ∨ (∃ vin : BitVec 16, vin.toNat < 4200 ∧ c = .underVoltageLockout vin) →
    Completes c s fun t =>
      (∀ off, isFuse off = false → off ≠ F.DBG_STATUS_CLOSED.off → t.reg off = regReset off) ∧
      (s.boot.fuse = none → ∀ off, isFuse off = true → t.reg off = s.reg off) ∧
      t.pwr = { cold := true } ∧ t.boot.flash = s.boot.flash ∧ t.boot.keeperFw = [] ∧ t.hq = {} ∧ t.sch = {} ∧ t.str = {} ∧
      t.slk = {} ∧ t.mag = {} ∧ t.enc = {} ∧ t.cmp = {} ∧ t.net = {} ∧ t.aud = {} ∧ t.upd = {} ∧ t.mnt = {} ∧ t.ptp = {} ∧ t.xlt = {}) ∧
  (∀ (vin : BitVec 16) (pref : Bool) (sel : Fin 4) (dev : BootDev), s.pwr.cold = true → 4400 < vin.toNat →
    Completes (.coldStart vin pref sel dev) s fun t =>
      t.rd F.PWR_STATUS_DAY = 1 ∧ t.rd F.KPR_BOOT_BOOT_SEL = sel ∧ t.rd F.KPR_BOOT_PREF = (if pref then 1 else 0) ∧
      t.rd F.CUX_OWNER_PREF = (if pref then 1 else 0) ∧ t.boot.kind = 0 ∧ t.pwr.cold = false ∧ t.ptp = { dawnRef := s.ref } ∧
      t.rd F.KPR_BOOT_SOURCE =
        (if sel = 2 then 3 else if sel = 1 then (if dev.quad then 1 else 2) else if dev.octal then 0 else 2) ∧
      (sel = 2 → t.boot.hostWait = true ∧ t.rd (F.HIF_IW_CFG_EN 0) = 1 ∧ t.rd (F.HIF_IW_CFG_IW_SPACE 0) = 0 ∧
        t.rd (F.HIF_IW_BASE_LO_BASE 0) = 0 ∧ t.rd (F.HIF_IW_BASE_HI_BASE 0) = 0)) ∧
  (∀ (src : Agent) (val : Word) (ticks : Nat), s.Passes src F.KPR_CTRL_WARM_RESET → F.KPR_CTRL_RESTART_UNIT.of val = 0 →
    s.rd F.PWR_STATUS_DAY = 2 → s.take = 0 → s.dayBusy = false ∨ F.KPR_CTRL_FORCE.of val = 1 → s.updHolds = false →
    Completes (.warmReset src val ticks) s fun t =>
      t.rd F.PWR_STATUS_DAY = 1 ∧ t.boot.kind = 2 ∧ t.rd F.HIF_STATUS_LINK = s.rd F.HIF_STATUS_LINK ∧
      t.rd F.HIF_STATUS_HOST_RESET = 0 ∧ t.hif.bme = s.hif.bme ∧ t.rd F.PWR_LAST_OFF_CAUSE = s.rd F.PWR_LAST_OFF_CAUSE ∧
      (s.boot.nextFormat = none → t.rd F.PWR_LOWIN_THRESH_MV = s.rd F.PWR_LOWIN_THRESH_MV ∧
        t.rd F.PWR_WAKE_VIN_MV = s.rd F.PWR_WAKE_VIN_MV) ∧
      t.str = {} ∧ t.slk = {} ∧ t.enc = {} ∧ t.mag = {} ∧ t.mnt = {} ∧ t.xlt = { faultSeq := s.xlt.faultSeq }) ∧
  (∀ (src : Agent) (val : Word), s.Passes src F.KPR_HOST_GO_GO → s.boot.hostWait = true → F.KPR_HOST_GO_GO.of val = 1 →
    Completes (.kprHostGo src val) s fun t =>
      t.boot.host = true ∧ t.rd F.KPR_BOOT_SOURCE = 3 ∧
      (dirInForce s.byte = none → t.boot.hostWait = true ∧ t.rd F.KPR_BOOT_STATUS = 0x0105))

/-- R456, R464, R465, R471: a unit is restarted and released, with its cores as R464 starts them, the Keeper restarts, and the debug module halts and resumes a hart. R406, R407, R409: a core in machine mode executes ADDI, LD and SD on local SRAM and ECALL, and a block's interrupt reaches the owner's PLIC outside a gap (when cores execute is the model's choice, log entry 150). -/
def Obligations.UnitsComplete : Prop :=
  ∀ s : State, s.Inv → KMap.wf (fun _ => {}) s.cux.units = true →
  (∀ (src : Agent) (u : Fin 2) (o : Nat) (d : List Byte) (e : DirEntry) (fw : List Byte),
    s.Passes src F.KPR_CTRL_RESTART_UNIT → s.rd F.CUX_OWNER_OWNER ≠ u.val + 1 → s.cux.gap = none →
    dirInForce s.bootSource = some (o, d) → s.compAt s.bootSource 3 (dirFind d 3 (dirActive d 3)) = some (e, fw) →
    Completes (.restartUnit src u) s fun t =>
      t.ustate u = 0 ∧ t.rd (F.CUX_U_STATE_SYNCED u) = 0 ∧ t.rd (restartsFld u) = min (s.rd (restartsFld u) + 1) (2 ^ 16 - 1) ∧
      t.rd F.KPR_VER_UNIT_VER = e.ver % 2 ^ 32 ∧ (t.unit u).entry = leAt fw 12 4 ∧ (u.val, 3) ∈ t.boot.release) ∧
  (∀ (u : Fin 2) (kind : Nat), s.boot.release.find? (fun e => e.1 == u.val) = some (u.val, kind) →
    Completes (.unitRelease u) s fun t =>
      t.ustate u = 1 ∧ t.rd F.PWR_STATUS_DAY = (if s.rd F.PWR_STATUS_DAY = 1 then 2 else s.rd F.PWR_STATUS_DAY) ∧
      (t.unit u).kicked = s.ref ∧
      (t.unit u).halted = (if s.boot.hold = true ∧ kind ≠ 3 then [4 * u.val, 4 * u.val + 1, 4 * u.val + 2, 4 * u.val + 3] else []) ∧
      t.boot.release = s.boot.release.filter (fun e => e.1 != u.val) ∧
      ∀ i < 4, (t.hart u i).mode = 3 ∧ (t.hart u i).pc = 0x10000000000 + (s.unit u).entry ∧
        (t.hart u i).rx 10 = 4 * u.val + i ∧ (t.hart u i).rx 11 = 0x100001FF000) ∧
  (∀ (u : Fin 2) (i : Nat) (rd rs1 rs2 : Fin 32) (imm : Int), i < (s.unit u).harts.length →
    (s.hart u i).interrupt (s.hartEnv u i) = none → (s.hart u i).csr 0x320 = 0 → (s.hart u i).csr 0x180 = 0 →
    (s.hart u i).mode = 3 → (s.hart u i).mst 17 1 = 0 → (s.hart u i).csr 0x3A0 = 0 → (s.hart u i).csr 0x3A2 = 0 →
    -2048 ≤ imm → imm < 2048 →
    let h := s.hart u i
    let a := wrapN 64 ((h.rx rs1 : Int) + imm)
    let t := s.hartStep u i
    (s.hartFetch u h = .word (mkI 0x13 0 rd rs1 imm) 4 →
      (t.hart u i).x = (h.wx rd a).x ∧ (t.hart u i).pc = (h.pc + 4) % 2 ^ 64 ∧ t.regs = s.regs ∧ t.mem = s.mem) ∧
    (s.hartFetch u h = .word (mkI 0x03 3 rd rs1 imm) 4 → 0x10000000000 ≤ a → a < 0x10000200000 → a % 8 = 0 →
      (t.hart u i).x = (h.wx rd (le (s.sramRead u (a - 0x10000000000) 8))).x ∧ (t.hart u i).pc = (h.pc + 4) % 2 ^ 64 ∧
      t.regs = s.regs ∧ t.mem = s.mem) ∧
    (s.hartFetch u h = .word (mkS 0x23 3 rs1 rs2 imm.toNat) 4 → 0 ≤ imm → 0x10000000000 ≤ a → a < 0x10000200000 → a % 8 = 0 →
      (t.unit u).sram = ((s.sramWrite u (a - 0x10000000000) (leBytes 8 (h.rx rs2))).unit u).sram ∧
      (t.hart u i).x = h.x ∧ t.regs = s.regs ∧ t.mem = s.mem) ∧
    (s.hartFetch u h = .word 0x00000073 4 →
      (t.hart u i).csr 0x342 = 11 ∧ (t.hart u i).csr 0x341 = h.pc ∧ (t.hart u i).pc = h.csr 0x305 / 4 * 4)) ∧
  (∀ (u : Fin 2) (k : Nat), 1 ≤ k → k ≤ 0x21 → k ≠ 4 → s.irqLevel k = true →
    s.plicSource u k = (s.owner == some u.val && s.cux.gap.isNone)) ∧
  (s.pwr.cold = false →
    Completes .keeperWatchdog s fun t =>
      t.rd F.KPR_KEEPER_RESTARTS_COUNT = min (s.rd F.KPR_KEEPER_RESTARTS_COUNT + 1) (2 ^ 32 - 1) ∧ t.mem = s.mem ∧ t.hq = s.hq ∧
      t.cux = s.cux ∧ t.sch = s.sch ∧ t.net = s.net) ∧
  (∀ (hart : Fin 8) (halt : Bool), s.rd F.FUSE_LOCKS_DBG_CLOSE = 0 → s.ustate (hart.val / 4) ≠ 0 →
    Completes (.dmi hart halt) s fun t =>
      (hart.val ∈ (t.unit (hart.val / 4)).halted ↔ halt = true) ∧ (t.unit (hart.val / 4)).kicked = s.ref ∧
      ∀ h, h ≠ hart.val → (h ∈ (t.unit (hart.val / 4)).halted ↔ h ∈ (s.unit (hart.val / 4)).halted))

/-- R469, R470: a fuse command starts programming, the read-back ends it, and the JTAG port shifts out the identity. -/
def Obligations.FusesComplete : Prop :=
  ∀ s : State, s.Inv →
  (∀ (src : Agent) (val : Word), s.Passes src F.FUSE_PROG_CMD_TARGET → s.boot.fuse = none →
    F.FUSE_PROG_CMD_CONFIRM.of val = 0x5A3C → s.rd F.PWR_STATUS_LOWIN = 0 →
    let t := F.FUSE_PROG_CMD_TARGET.of val
    (t = 1 ∧ s.rd F.FUSE_LOCKS_OWNER_KEY_STATE = 0) ∨
      (t = 2 ∧ s.rd F.FUSE_LOCKS_OWNER_LOCK = 0 ∧ s.rd F.FUSE_LOCKS_OWNER_KEY_STATE = 1) ∨
      (t = 3 ∧ s.rd F.FUSE_LOCKS_DBG_CLOSE = 0) →
    Completes (.fuseProgCmd src val) s fun u =>
      u.boot.fuse = some (t, (List.range 8).map fun k => s.rd (F.FUSE_PROG_DATA_V k)) ∧ u.rd F.FUSE_PROG_STATUS_BUSY = 1 ∧
      ∀ k < 8, u.rd (F.FUSE_OWNER_HASH_V k) = s.rd (F.FUSE_OWNER_HASH_V k)) ∧
  (∀ (ok : Bool) (t : Nat) (w : List Nat), s.boot.fuse = some (t, w) → t = 1 ∨ t = 2 ∨ t = 3 →
    Completes (.fuseReadBack ok) s fun u =>
      u.boot.fuse = none ∧ u.rd F.FUSE_PROG_STATUS_BUSY = 0 ∧
      (ok = true → t = 1 → u.rd F.FUSE_LOCKS_OWNER_KEY_STATE = 1 ∧
        ∀ k < 8, u.rd (F.FUSE_OWNER_HASH_V k) = w.getD k 0 % 2 ^ 32) ∧
      (ok = true → t = 2 → u.rd F.FUSE_LOCKS_OWNER_LOCK = 1) ∧
      (ok = true → t = 3 → u.rd F.FUSE_LOCKS_DBG_CLOSE = 1 ∧ u.rd F.DBG_STATUS_CLOSED = 1) ∧
      (ok = false → u.rd F.FUSE_PROG_STATUS_STATUS = 0x2007 ∧ (t = 1 → u.rd F.FUSE_LOCKS_OWNER_KEY_STATE = 2))) ∧
  (Completes .idread s fun t =>
    t.regs = s.regs ∧ t.readData.length = 40 ∧
    t.readData.take 38 = (List.range 9).flatMap (fun i => leBytes 4 (s.reg (0x800040 + 4 * i)).toNat) ++
      leBytes 2 (s.reg 0x800064).toNat ∧
    t.readData.drop 38 = leBytes 2 (crc 2 0 (t.readData.take 38))) ∧
  (Completes .idcode s fun t => t = { s with readData := [0x53, 0x8A, 0x12, 0x20] })

/-- R476, R477, R479 to R482: a test is asked for, aborted, run and judged. R483, R484, R486: a calibration pass starts on command or by temperature, a position is trimmed and the pass goes on, and a deferred
activity starts. -/
def Obligations.MaintenanceComplete : Prop :=
  (∀ (n : Fin 8) (s : State), s.Inv →
   (∀ (src : Agent) (val : Word), s.Passes src (F.BIST_S_CMD_GO n) →
     let x := (F.BIST_S_CMD_TARGET n).of val
     let p := (F.BIST_S_CMD_PAT_LOG2 n).of val
     s.rd (F.BIST_S_STATUS_STATE n) ≠ 1 → s.rd (F.BIST_S_STATUS_STATE n) ≠ 2 → bistTarget x = true →
     x = 0x30 ∨ (10 ≤ p ∧ p ≤ 20) → s.bistBusy x = false → s.bistBarred = false →
     Completes (.bistGo src n val) s fun t =>
       t.rd (F.BIST_S_STATUS_STATE n) = 1 ∧ t.rd (F.BIST_S_STATUS_RESULT n) = 0 ∧ t.rd (F.BIST_S_COUNT_V n) = 0 ∧
       t.rd F.BIST_STATUS_MAINT_ACTIVE = 1 ∧ t.actAsked (.bist n) = true ∧
       t.mnt.slots = KMap.set (fun _ => {}) s.mnt.slots n { target := x, pat := p } ∧
       t.rd (F.BIST_S_CMD_TARGET n) = x ∧ t.rd (F.BIST_S_CMD_PAT_LOG2 n) = p) ∧
   (∀ (src : Agent) (val : Word) (r : TestEnd), s.Passes src (F.BIST_S_CMD_GO n) → (F.BIST_S_CMD_GO n).of val = 0 →
     (s.rd (F.BIST_S_STATUS_STATE n) = 1 → Completes (.bistAbort src n val r) s fun t =>
       t.rd (F.BIST_S_STATUS_STATE n) = 3 ∧ t.rd (F.BIST_S_COUNT_V n) = 0 ∧ t.rd (F.BIST_S_STATUS_COMPLETE n) = 0 ∧
       t.rd (F.BIST_S_STATUS_RESULT n) = 3) ∧
     (s.rd (F.BIST_S_STATUS_STATE n) = 2 → r.complete = false → Completes (.bistAbort src n val r) s fun t =>
       t.rd (F.BIST_S_STATUS_STATE n) = 3 ∧ t.rd (F.BIST_S_COUNT_V n) = r.count % 2 ^ 32 ∧
       t.rd (F.BIST_S_STATUS_COMPLETE n) = 0 ∧ t.rd (F.BIST_S_STATUS_RESULT n) = 3)) ∧
   (s.rd (F.BIST_S_STATUS_STATE n) = 1 → s.actRuns (.bist n) = true →
     ((s.bistSlot n).target < 0x15 → s.workHeld (s.bistSlot n).target = false) →
     Completes (.bistRunning n) s fun t =>
       t.rd (F.BIST_S_STATUS_STATE n) = 2 ∧ ((s.bistSlot n).target < 0x15 → t.island (s.bistSlot n).target = 2) ∧ t.mnt = s.mnt) ∧
   (∀ r : TestEnd, s.rd (F.BIST_S_STATUS_STATE n) = 2 →
     let e := s.bistExpects n
     Completes (.bistDone n r) s fun t =>
       t.rd (F.BIST_S_STATUS_STATE n) = 3 ∧ t.rd F.BIST_STATUS_DONE_IRQ = 1 ∧ t.rd (F.BIST_S_COUNT_V n) = r.count % 2 ^ 32 ∧
       t.rd (F.BIST_S_STATUS_RESULT n) =
         (if r.complete = true ∧ r.count = e.1 ∧ r.sigValid = true then (if r.sig = e.2 then 1 else 2) else 3))) ∧
  (∀ s : State, s.Inv →
   (∀ (c : Instr) (g : Fin 4),
     (∃ src val, c = .now src val ∧ s.Passes src F.CAL_CTRL_NOW ∧ 1 ≤ F.CAL_CTRL_DELTA.of val ∧ F.CAL_CTRL_DELTA.of val ≤ 100) ∨
       (c = .calTempTrigger ∧ s.rd F.CAL_CTRL_AUTO = 1 ∧
         16 * s.rd F.CAL_CTRL_DELTA ≤ (signed 16 (s.rd F.CAL_TEMP_CUR) - signed 16 (s.rd F.CAL_TEMP_LAST)).natAbs) →
     s.mnt.cal = none → s.rd (F.SLK_G_CFG_EN g) = 1 → (∀ h < g.val, s.rd (F.SLK_G_CFG_EN h) = 0) →
     Completes c s fun t =>
       t.rd F.CAL_TEMP_LAST = s.rd F.CAL_TEMP_CUR ∧ t.rd F.CAL_STATUS_RUNNING = 1 ∧ t.rd F.CAL_STATUS_GROUP = g ∧
       t.rd F.CAL_STATUS_POSITION = 0 ∧ t.actAsked (.cal g) = true ∧
       t.mnt.cal = some { group := g, pos := 0, held := s.on (F.SLK_G_STATUS_SPARE_ACTIVE g) }) ∧
   (∀ (c : CalPass) (trims : List Nat) (spareFails underrun : Bool), s.mnt.cal = some c → s.actRuns (.cal c.group) = true →
     c.group < 4 → c.pos < 8 → c.parked = false → c.held = false →
     s.gstate c.group ≠ 3 ∨ (spareFails = false ∧ underrun = false) →
     Completes (.calPosition trims spareFails underrun) s fun t =>
       t.rd (F.CAL_L_PASSES (9 * c.group + c.pos)) = min (s.rd (F.CAL_L_PASSES (9 * c.group + c.pos)) + 1) (2 ^ 16 - 1) ∧
       t.mnt.cal = some { c with pos := calAfter (s.grpWidth c.group) c.pos } ∧
       ∀ i < 8, trims.getD i 32 = 0 ∨ trims.getD i 32 = 63 →
         t.rd ⟨(F.CAL_L_LIMIT (9 * c.group + c.pos)).off, 16 + i, 1⟩ = 1) ∧
   (∀ a : Act, s.startable [] s.mnt.acts = some a →
     ((∃ n, a = .bist n) ∨ (∃ e, a = .clk e ∧ (e = true ∨ s.layersFit (fclkSel (s.rd F.CLK_FCLK_SEL)) = true)) →
       Completes .deferredActivityStart s fun t => t = s.setMnt { s.mnt with acts := markRunning a s.mnt.acts }) ∧
     (∀ g, a = .cal g → g < 4 →
       Completes .deferredActivityStart s fun t =>
         t.mnt.acts = markRunning a s.mnt.acts ∧ t.rd F.CAL_STATUS_GROUP = g ∧
         t.mnt.cal = some { group := g, pos := 0, held := s.on (F.SLK_G_STATUS_SPARE_ACTIVE g) })))

/-- R496, R497, R498, R503: staging starts, ends with every part programmed, or fails; activation starts and reaches its point; staged
work is given up. -/
def Obligations.UpdateComplete : Prop :=
  ∀ s : State, s.Inv →
  (∀ (src : Agent) (val : Word), s.Passes src F.UPD_CMD_STAGE →
    (F.UPD_CMD_ACTIVATE.of val = 0 → F.UPD_CMD_CANCEL.of val = 0 →
      s.rd F.UPD_STATUS_STATE = 0 ∨ s.rd F.UPD_STATUS_STATE = 2 ∨ s.rd F.UPD_STATUS_STATE = 5 → s.rd F.KPR_BOOT_SOURCE ≠ 3 →
      s.updRefusals = 0 →
      Completes (.stage src val) s fun t =>
        t.rd F.UPD_STATUS_STATE = 1 ∧ t.rd F.UPD_STATUS_PARTS = 0 ∧ t.rd F.UPD_PROGRESS_V = 0 ∧
        t.upd = { seq := s.rd F.KPR_DIR_SEQ_SEQ } ∧ t.boot = s.boot) ∧
    (F.UPD_CMD_STAGE.of val = 0 → F.UPD_CMD_CANCEL.of val = 0 → s.rd F.UPD_STATUS_STATE = 2 →
      s.upd.seq = s.rd F.KPR_DIR_SEQ_SEQ → s.updRefusals = 0 →
      F.UPD_CMD_MODE.of val = 1 ∨ s.hasPart 3 = false ∨ (s.ustate 0 ≠ 0 ∧ s.ustate 1 ≠ 0) →
      Completes (.activate src val) s fun t =>
        t.rd F.UPD_STATUS_STATE = 3 ∧
        t.upd = { s.upd with nextBoot := F.UPD_CMD_MODE.of val == 1, writing := !s.maintPending } ∧ t.boot = s.boot) ∧
    (F.UPD_CMD_STAGE.of val = 0 → F.UPD_CMD_ACTIVATE.of val = 0 → s.rd F.UPD_STATUS_STATE = 1 ∨ s.rd F.UPD_STATUS_STATE = 2 →
      Completes (.updCancel src val) s fun t =>
        t.rd F.UPD_STATUS_STATE = 0 ∧ t.rd F.UPD_STATUS_PARTS = 0 ∧ t.upd = {} ∧ t.boot = s.boot)) ∧
  (s.rd F.UPD_STATUS_STATE = 1 →
    let addr := s.rd F.UPD_PKG_ADDR_HI_ADDR * 2 ^ 32 + 16 * s.rd F.UPD_PKG_ADDR_LO_ADDR
    let len := s.rd F.UPD_PKG_LEN_LEN
    let head := s.physRead addr (min len 512)
    (∀ err, s.pkgOk addr len head = false →
      Completes (.stagingDone err) s fun t =>
        t.rd F.UPD_STATUS_STATE = 5 ∧ t.rd F.UPD_STATUS_STATUS = 0x1F03 ∧ t.upd = {} ∧ t.boot = s.boot) ∧
    (∀ (o : Nat) (d : List Byte) (outs : List (List Byte)) (u : State), s.pkgOk addr len head = true →
      (∀ p < leAt head 6 1, partOk head p = true) → s.pkgSigned head = true →
      dirInForce (fun a => KMap.get (fun _ => 0xFF) s.boot.flash a) = some (o, d) →
      let v := s.wr F.UPD_RELEASE_V (leAt head 12 4)
      let pkg := v.physRead addr (leAt head 8 4)
      (∀ p < (partsOf pkg).length, (partOf pkg p).full = true ∨
        (dirFind d (partOf pkg p).typ (dirActive d (partOf pkg p).typ)).map (fun e => e.digest) = some (partOf pkg p).base) →
      (∀ p < (partsOf pkg).length, v.slotOk d (partsOf pkg) p (partOf pkg p) = true) →
      v.buildParts d pkg none 0 (partsOf pkg) = .inr (outs, u) → u.outputFails (partsOf pkg) outs = none →
      Completes (.stagingDone none) s fun t =>
        t.rd F.UPD_STATUS_STATE = 2 ∧ t.upd = { s.upd with parts := partsOf pkg } ∧ t.boot.flash = u.boot.flash ∧
        t.rd F.UPD_RELEASE_V = leAt head 12 4)) ∧
  (∀ (off : Nat) (d : List Byte), s.rd F.UPD_STATUS_STATE = 3 →
    s.upd.writing = true ∨ (s.maintPending = false ∧ s.updRefusals = 0) →
    (∀ x ∈ s.upd.parts, Config.sha256 (s.flashBytes x.slotOff x.newLen) = x.digest) →
    dirInForce (fun a => KMap.get (fun _ => 0xFF) s.boot.flash a) = some (off, d) → s.pwr.afterUpd = none →
    s.upd.nextBoot = true ∨ s.hasPart 3 = false →
    Completes (.activationPoint true) s fun t =>
      t.rd F.UPD_STATUS_ACTIVATED = 1 ∧ t.rd F.KPR_DIR_SEQ_SEQ = (leAt d 8 4 + 1) % 2 ^ 32 ∧
      t.boot.flash = flashPut (s.boot.flash.drop (if off = 0 then 0x10000 else 0) ((if off = 0 then 0x10000 else 0) + 4096))
        (if off = 0 then 0x10000 else 0) (newDir d s.upd.parts) ∧
      t.rd F.UPD_STATUS_STATE = if s.upd.nextBoot = false ∧ (s.hasPart 4 = true ∨ s.hasPart 1 = true) then 4 else 0)

/-- R500, R501: the handover goes from step to step, and a wait that expires ends it. -/
def Obligations.HandoverComplete : Prop :=
  ∀ s : State, s.Inv → s.rd F.UPD_STATUS_STATE = 4 →
  (s.upd.step = 1 → s.hasPart 1 = true →
    Completes .handoverStep s fun t => t.upd = { s.upd with step := 2 } ∧ t.rd F.UPD_STATUS_STATE = 4) ∧
  (∀ x, s.upd.step = 1 → s.upd.parts.find? (fun x => x.typ == 4) = some x → s.hasPart 1 = true →
    Completes .handoverStep s fun t => t.rd F.UPD_LIB_LEN_LEN = x.newLen % 2 ^ 32) ∧
  (s.upd.step = 2 → s.hasPart 3 = false →
    Completes .handoverStep s fun t => t.rd F.UPD_STATUS_STATE = 0 ∧ t.rd F.UPD_STATUS_ACTIVATED = 1 ∧ t.upd = {}) ∧
  (s.upd.step = 3 → s.fit s.upd.unit = true →
    Completes .handoverStep s fun t => t = s.setUpd { s.upd with step := 4 }) ∧
  (s.upd.step = 4 → s.upd.unit < 2 → s.cux.gap = none → s.owner ≠ some s.upd.unit → s.switchBusy = false →
    s.fit s.upd.unit = true →
    Completes .handoverStep s fun t =>
      t.cux.gap = some { kind := 2, outgoing := s.owner, incoming := s.upd.unit, start := s.ref } ∧ t.rd F.CUX_OWNER_GAP = 1 ∧
      t.upd = s.upd) ∧
  (s.upd.step = 5 → s.fit s.upd.unit = true →
    Completes .handoverStep s fun t => t.rd F.UPD_STATUS_STATE = 0 ∧ t.rd F.UPD_STATUS_ACTIVATED = 1 ∧ t.upd = {}) ∧
  (3 ≤ s.upd.step →
    Completes .handoverTimeout s fun t =>
      t.rd F.UPD_STATUS_STATE = 0 ∧ t.rd F.UPD_STATUS_STATUS = 0x1F0D ∧ t.upd = {} ∧ t.cux = s.cux)
end

