-- ==== Sys2Proof/Laws/KMap.lean ====
section
/-! SUPPORT. The laws of sparse data: read after write, and that every operation keeps the canonical form. -/

namespace Sys2Proof.Machine

variable {α : Type} [DecidableEq α] (d : Nat → α)

/-- A key below every listed key reads as unlisted. -/
theorem KMap.get_of_lt : ∀ (m : KMap α) (b k : Nat), KMap.wfFrom d b m = true → k < b → KMap.get d m k = d k
  | [], _, _, _, _ => rfl
  | (k', v) :: t, b, k, h, hk => by
    simp only [KMap.wfFrom, Bool.and_eq_true, decide_eq_true_eq] at h
    have h1 : k ≠ k' := by omega
    simp only [KMap.get, h1, if_false]
    exact KMap.get_of_lt t (k' + 1) k h.2 (by omega)

/-- The canonical form above `b` holds above every smaller bound. -/
theorem KMap.wfFrom_mono : ∀ (m : KMap α) (b c : Nat), KMap.wfFrom d b m = true → c ≤ b → KMap.wfFrom d c m = true
  | [], _, _, _, _ => rfl
  | (k, v) :: t, b, c, h, hc => by
    simp only [KMap.wfFrom, Bool.and_eq_true, decide_eq_true_eq] at h ⊢
    exact ⟨⟨by omega, h.1.2⟩, h.2⟩

/-- Reading the key just written gives the value written. -/
theorem KMap.get_set_same : ∀ (m : KMap α) (b k : Nat) (v : α), KMap.wfFrom d b m = true →
    KMap.get d (KMap.set d m k v) k = v
  | [], _, k, v, _ => by
    by_cases hv : v = d k <;> simp [KMap.set, KMap.get, hv]
  | (k', v') :: t, b, k, v, h => by
    simp only [KMap.wfFrom, Bool.and_eq_true, decide_eq_true_eq] at h
    unfold KMap.set
    by_cases h1 : k < k'
    · have h2 : k ≠ k' := by omega
      by_cases hv : v = d k
      · simp only [h1, hv, if_true, KMap.get, h2, if_false]
        exact KMap.get_of_lt d t (k' + 1) k h.2 (by omega)
      · simp [h1, hv, KMap.get]
    · by_cases h2 : k = k'
      · subst h2
        by_cases hv : v = d k
        · simp only [lt_irrefl, hv, if_true, if_false]
          exact KMap.get_of_lt d t (k + 1) k h.2 (by omega)
        · simp [hv, KMap.get]
      · simp only [h1, h2, if_false, KMap.get]
        exact KMap.get_set_same t (k' + 1) k v h.2

/-- Reading the key just written gives the value written, in any map, when that value is no unlisted one. -/
theorem KMap.get_set_ne : ∀ (m : KMap α) (k : Nat) (v : α), v ≠ d k → KMap.get d (KMap.set d m k v) k = v
  | [], k, v, h => by simp [KMap.set, KMap.get, h]
  | (k', v') :: t, k, v, h => by
    unfold KMap.set
    by_cases h1 : k < k'
    · simp [h1, h, KMap.get]
    · by_cases h2 : k = k'
      · subst h2; simp [h, KMap.get]
      · simp only [h1, h2, if_false, KMap.get]
        exact KMap.get_set_ne t k v h

/-- A write leaves every other key alone. -/
theorem KMap.get_set_other : ∀ (m : KMap α) (k k' : Nat) (v : α), k' ≠ k →
    KMap.get d (KMap.set d m k v) k' = KMap.get d m k'
  | [], k, k', v, h => by
    by_cases hv : v = d k <;> simp [KMap.set, KMap.get, hv, h]
  | (a, w) :: t, k, k', v, h => by
    unfold KMap.set
    by_cases h1 : k < a
    · by_cases hv : v = d k <;> simp [h1, hv, KMap.get, h]
    · by_cases h2 : k = a
      · subst h2
        by_cases hv : v = d k <;> simp [hv, KMap.get, h]
      · simp only [h1, h2, if_false, KMap.get]
        by_cases h3 : k' = a
        · simp [h3]
        · simp only [h3, if_false]
          exact KMap.get_set_other t k k' v h

/-- A write keeps the canonical form. -/
theorem KMap.set_wfFrom : ∀ (m : KMap α) (b k : Nat) (v : α), KMap.wfFrom d b m = true → b ≤ k →
    KMap.wfFrom d b (KMap.set d m k v) = true
  | [], b, k, v, _, hb => by
    by_cases hv : v = d k <;> simp [KMap.set, KMap.wfFrom, hv, hb]
  | (k', v') :: t, b, k, v, h, hb => by
    have h' := h
    simp only [KMap.wfFrom, Bool.and_eq_true, decide_eq_true_eq] at h
    unfold KMap.set
    by_cases h1 : k < k'
    · by_cases hv : v = d k
      · simpa only [h1, hv, if_true] using h'
      · simp only [h1, hv, if_true, if_false, KMap.wfFrom, Bool.and_eq_true, decide_eq_true_eq]
        exact ⟨⟨hb, hv⟩, ⟨by omega, h.1.2⟩, h.2⟩
    · by_cases h2 : k = k'
      · subst h2
        by_cases hv : v = d k
        · simp only [lt_irrefl, hv, if_true, if_false]
          exact KMap.wfFrom_mono d t (k + 1) b h.2 (by omega)
        · simp only [lt_irrefl, hv, if_true, if_false, KMap.wfFrom, Bool.and_eq_true, decide_eq_true_eq]
          exact ⟨⟨hb, hv⟩, h.2⟩
      · simp only [h1, h2, if_false, KMap.wfFrom, Bool.and_eq_true, decide_eq_true_eq]
        exact ⟨h.1, KMap.set_wfFrom t (k' + 1) k v h.2 (by omega)⟩

/-- A write keeps the canonical form. -/
theorem KMap.set_wf (m : KMap α) (k : Nat) (v : α) (h : KMap.wf d m = true) : KMap.wf d (KMap.set d m k v) = true :=
  KMap.set_wfFrom d m 0 k v h (Nat.zero_le k)

/-- The canonical form only looks at the unlisted values of the listed keys. -/
theorem KMap.wfFrom_congr (d' : Nat → α) : ∀ (m : KMap α) (b : Nat), (∀ e ∈ m, d e.1 = d' e.1) →
    KMap.wfFrom d b m = true → KMap.wfFrom d' b m = true
  | [], _, _, _ => rfl
  | (k, v) :: t, b, he, h => by
    simp only [KMap.wfFrom, Bool.and_eq_true, decide_eq_true_eq] at h ⊢
    have h1 : d k = d' k := he (k, v) (List.mem_cons_self ..)
    exact ⟨⟨h.1.1, h1 ▸ h.1.2⟩, KMap.wfFrom_congr d' t (k + 1) (fun e m => he e (List.mem_cons_of_mem _ m)) h.2⟩

/-- Forgetting entries keeps the canonical form. -/
theorem KMap.filter_wfFrom (p : Nat × α → Bool) : ∀ (m : KMap α) (b : Nat), KMap.wfFrom d b m = true →
    KMap.wfFrom d b (m.filter p) = true
  | [], _, _ => rfl
  | (k, v) :: t, b, h => by
    simp only [KMap.wfFrom, Bool.and_eq_true, decide_eq_true_eq] at h
    by_cases hp : p (k, v) = true
    · simp only [List.filter_cons, hp, if_true, KMap.wfFrom, Bool.and_eq_true, decide_eq_true_eq]
      exact ⟨h.1, KMap.filter_wfFrom p t (k + 1) h.2⟩
    · simp only [List.filter_cons, hp]
      exact KMap.wfFrom_mono d _ (k + 1) b (KMap.filter_wfFrom p t (k + 1) h.2) (by omega)

/-- Forgetting entries keeps the canonical form. -/
theorem KMap.filter_wf (p : Nat × α → Bool) (m : KMap α) (h : KMap.wf d m = true) : KMap.wf d (m.filter p) = true :=
  KMap.filter_wfFrom d p m 0 h

/-- Every entry of a written map is the written one or was there. -/
theorem KMap.mem_set : ∀ (m : KMap α) (k : Nat) (v : α) (e : Nat × α), e ∈ KMap.set d m k v → e = (k, v) ∨ e ∈ m
  | [], k, v, e, h => by
    by_cases hv : v = d k <;> simp_all [KMap.set]
  | (k', v') :: t, k, v, e, h => by
    unfold KMap.set at h
    by_cases h1 : k < k'
    · by_cases hv : v = d k <;> simp_all
    · by_cases h2 : k = k'
      · by_cases hv : v = d k <;> simp_all
        grind
      · simp only [h1, h2, if_false, List.mem_cons] at h
        rcases h with h | h
        · exact .inr (by simp [h])
        · rcases KMap.mem_set t k v e h with h | h
          · exact .inl h
          · exact .inr (List.mem_cons_of_mem _ h)

end Sys2Proof.Machine
end

