-- ==== Sys2Proof/Laws/KeepsBase.lean ====
section
/-! SUPPORT. The base of the `Keeps` laws: every component's update, a register's, a byte's and a lost region's, and folds. Each says
once that the operation leaves the waiting commands alone, carries the invariant over, and touches only the parts of its mask. -/

namespace Sys2Proof.Machine

/-- The bit that stands for a part in a mask. -/
def Part.bit : Part → Nat
  | .ref => 0
  | .free => 1
  | .readData => 2
  | .regs => 3
  | .mem => 4
  | .seals => 5
  | .ckv => 6
  | .str => 7
  | .hq => 8
  | .sch => 9
  | .xlt => 10
  | .movers => 11
  | .qdr => 12
  | .eng => 13
  | .hif => 14
  | .cux => 15
  | .ptp => 16
  | .tpo => 17
  | .slk => 18
  | .intakes => 19
  | .mag => 20
  | .enc => 21
  | .dec => 22
  | .cmp => 23
  | .net => 24
  | .aud => 25
  | .pwr => 26
  | .boot => 27
  | .mnt => 28
  | .upd => 29

/-- Every part of mask `a` is in mask `b`. -/
def Within (a b : Nat) : Prop := ∀ i, a.testBit i = true → b.testBit i = true

/-- A mask lies within itself. -/
theorem Within.refl (a : Nat) : Within a a := fun _ h => h

/-- A mask that adds nothing to another lies within whatever that one lies within. -/
theorem Within.of {a b m : Nat} (w : Within b m) (e : a &&& b = a) : Within a m := by
  intro i h
  refine w i ?_
  rw [← e, Nat.testBit_and, Bool.and_eq_true] at h
  exact h.2

/-- `t` comes after `s`: the commands that wait are the same, the invariant carries over, and the parts outside mask `m` are the
same. -/
structure State.Keeps (s : State) (m : Nat) (t : State) : Prop where
  /-- No command enters or leaves the queue. -/
  pending : t.pending = s.pending
  /-- The invariant carries over. -/
  inv : s.Inv → t.Inv
  /-- The parts outside the mask are the same. -/
  frame : ∀ p : Part, m.testBit p.bit = false → p.same s t

/-- A state keeps what it is. -/
theorem State.Keeps.refl (s : State) (m : Nat) : s.Keeps m s :=
  ⟨rfl, id, fun p _ => by cases p <;> first | exact rfl | exact ⟨rfl, rfl⟩⟩

/-- What a command keeps gives its frame. -/
theorem State.Keeps.toFrame {s t : State} {m : Nat} (h : s.Keeps m t) (ps : List Part)
    (hp : ∀ p : Part, m.testBit p.bit = true → p ∈ ps) : s.Frame ps t :=
  ⟨h.pending, fun p hn => h.frame p (by
    cases hb : m.testBit p.bit with
    | false => rfl
    | true => exact absurd (hp p hb) hn)⟩

/-- An update of one part. -/
theorem State.Keeps.put {s0 s t : State} {m : Nat} (p : Part) (h : s0.Keeps m s) (w : m.testBit p.bit = true)
    (hq : t.pending = s.pending) (hi : s.Inv → t.Inv) (hf : ∀ q, q ≠ p → q.same s0 s → q.same s0 t) : s0.Keeps m t :=
  ⟨hq.trans h.pending, fun i => hi (h.inv i), fun q hb => hf q (fun e => by rw [e, w] at hb; cases hb) (h.frame q hb)⟩

/-- A new `ref` touches nothing else. -/
theorem State.setRef_keeps {m : Nat} {s0 s : State} (v : Nat) (h : s0.Keeps m s)
    (w : Within 0x1 m := by exact Within.of (by assumption) (by decide)) : s0.Keeps m (s.setRef v) :=
  h.put .ref (w 0 rfl) rfl (fun i => ⟨i.mem, i.regs, i.disc⟩) (fun q hq e => by cases q <;> first | exact e | exact absurd rfl hq)

/-- A new `free` touches nothing else. -/
theorem State.setFree_keeps {m : Nat} {s0 s : State} (v : Nat) (h : s0.Keeps m s)
    (w : Within 0x2 m := by exact Within.of (by assumption) (by decide)) : s0.Keeps m (s.setFree v) :=
  h.put .free (w 1 rfl) rfl (fun i => ⟨i.mem, i.regs, i.disc⟩) (fun q hq e => by cases q <;> first | exact e | exact absurd rfl hq)

/-- A new `readData` touches nothing else. -/
theorem State.setReadData_keeps {m : Nat} {s0 s : State} (v : List Byte) (h : s0.Keeps m s)
    (w : Within 0x4 m := by exact Within.of (by assumption) (by decide)) : s0.Keeps m (s.setReadData v) :=
  h.put .readData (w 2 rfl) rfl (fun i => ⟨i.mem, i.regs, i.disc⟩) (fun q hq e => by cases q <;> first | exact e | exact absurd rfl hq)

/-- A new `seals` touches nothing else. -/
theorem State.setSeals_keeps {m : Nat} {s0 s : State} (v : KMap EdgeSeal) (h : s0.Keeps m s)
    (w : Within 0x20 m := by exact Within.of (by assumption) (by decide)) : s0.Keeps m (s.setSeals v) :=
  h.put .seals (w 5 rfl) rfl (fun i => ⟨i.mem, i.regs, i.disc⟩) (fun q hq e => by cases q <;> first | exact e | exact absurd rfl hq)

/-- A new `ckv` touches nothing else. -/
theorem State.setCkv_keeps {m : Nat} {s0 s : State} (v : KMap CkvUnit) (h : s0.Keeps m s)
    (w : Within 0x40 m := by exact Within.of (by assumption) (by decide)) : s0.Keeps m (s.setCkv v) :=
  h.put .ckv (w 6 rfl) rfl (fun i => ⟨i.mem, i.regs, i.disc⟩) (fun q hq e => by cases q <;> first | exact e | exact absurd rfl hq)

/-- A new `str` touches nothing else. -/
theorem State.setStr_keeps {m : Nat} {s0 s : State} (v : StrState) (h : s0.Keeps m s)
    (w : Within 0x80 m := by exact Within.of (by assumption) (by decide)) : s0.Keeps m (s.setStr v) :=
  h.put .str (w 7 rfl) rfl (fun i => ⟨i.mem, i.regs, i.disc⟩) (fun q hq e => by cases q <;> first | exact e | exact absurd rfl hq)

/-- A new `hq` touches nothing else. -/
theorem State.setHq_keeps {m : Nat} {s0 s : State} (v : HqState) (h : s0.Keeps m s)
    (w : Within 0x100 m := by exact Within.of (by assumption) (by decide)) : s0.Keeps m (s.setHq v) :=
  h.put .hq (w 8 rfl) rfl (fun i => ⟨i.mem, i.regs, i.disc⟩) (fun q hq e => by cases q <;> first | exact e | exact absurd rfl hq)

/-- A new `sch` touches nothing else. -/
theorem State.setSch_keeps {m : Nat} {s0 s : State} (v : SchState) (h : s0.Keeps m s)
    (w : Within 0x200 m := by exact Within.of (by assumption) (by decide)) : s0.Keeps m (s.setSch v) :=
  h.put .sch (w 9 rfl) rfl (fun i => ⟨i.mem, i.regs, i.disc⟩) (fun q hq e => by cases q <;> first | exact e | exact absurd rfl hq)

/-- A new `xlt` touches nothing else. -/
theorem State.setXlt_keeps {m : Nat} {s0 s : State} (v : XltState) (h : s0.Keeps m s)
    (w : Within 0x400 m := by exact Within.of (by assumption) (by decide)) : s0.Keeps m (s.setXlt v) :=
  h.put .xlt (w 10 rfl) rfl (fun i => ⟨i.mem, i.regs, i.disc⟩) (fun q hq e => by cases q <;> first | exact e | exact absurd rfl hq)

/-- A new `movers` touches nothing else. -/
theorem State.setMovers_keeps {m : Nat} {s0 s : State} (v : KMap Mover) (h : s0.Keeps m s)
    (w : Within 0x800 m := by exact Within.of (by assumption) (by decide)) : s0.Keeps m (s.setMovers v) :=
  h.put .movers (w 11 rfl) rfl (fun i => ⟨i.mem, i.regs, i.disc⟩) (fun q hq e => by cases q <;> first | exact e | exact absurd rfl hq)

/-- A new `qdr` touches nothing else. -/
theorem State.setQdr_keeps {m : Nat} {s0 s : State} (v : QdrState) (h : s0.Keeps m s)
    (w : Within 0x1000 m := by exact Within.of (by assumption) (by decide)) : s0.Keeps m (s.setQdr v) :=
  h.put .qdr (w 12 rfl) rfl (fun i => ⟨i.mem, i.regs, i.disc⟩) (fun q hq e => by cases q <;> first | exact e | exact absurd rfl hq)

/-- A new `eng` touches nothing else. -/
theorem State.setEng_keeps {m : Nat} {s0 s : State} (v : EngState) (h : s0.Keeps m s)
    (w : Within 0x2000 m := by exact Within.of (by assumption) (by decide)) : s0.Keeps m (s.setEng v) :=
  h.put .eng (w 13 rfl) rfl (fun i => ⟨i.mem, i.regs, i.disc⟩) (fun q hq e => by cases q <;> first | exact e | exact absurd rfl hq)

/-- A new `hif` touches nothing else. -/
theorem State.setHif_keeps {m : Nat} {s0 s : State} (v : HifState) (h : s0.Keeps m s)
    (w : Within 0x4000 m := by exact Within.of (by assumption) (by decide)) : s0.Keeps m (s.setHif v) :=
  h.put .hif (w 14 rfl) rfl (fun i => ⟨i.mem, i.regs, i.disc⟩) (fun q hq e => by cases q <;> first | exact e | exact absurd rfl hq)

/-- A new `cux` touches nothing else. -/
theorem State.setCux_keeps {m : Nat} {s0 s : State} (v : CuxState) (h : s0.Keeps m s)
    (w : Within 0x8000 m := by exact Within.of (by assumption) (by decide)) : s0.Keeps m (s.setCux v) :=
  h.put .cux (w 15 rfl) rfl (fun i => ⟨i.mem, i.regs, i.disc⟩) (fun q hq e => by cases q <;> first | exact e | exact absurd rfl hq)

/-- A new `ptp` touches nothing else. -/
theorem State.setPtp_keeps {m : Nat} {s0 s : State} (v : PtpState) (h : s0.Keeps m s)
    (w : Within 0x10000 m := by exact Within.of (by assumption) (by decide)) : s0.Keeps m (s.setPtp v) :=
  h.put .ptp (w 16 rfl) rfl (fun i => ⟨i.mem, i.regs, i.disc⟩) (fun q hq e => by cases q <;> first | exact e | exact absurd rfl hq)

/-- A new `tpo` touches nothing else. -/
theorem State.setTpo_keeps {m : Nat} {s0 s : State} (v : KMap TpoState) (h : s0.Keeps m s)
    (w : Within 0x20000 m := by exact Within.of (by assumption) (by decide)) : s0.Keeps m (s.setTpo v) :=
  h.put .tpo (w 17 rfl) rfl (fun i => ⟨i.mem, i.regs, i.disc⟩) (fun q hq e => by cases q <;> first | exact e | exact absurd rfl hq)

/-- A new `slk` touches nothing else. -/
theorem State.setSlk_keeps {m : Nat} {s0 s : State} (v : KMap SlkGroup) (h : s0.Keeps m s)
    (w : Within 0x40000 m := by exact Within.of (by assumption) (by decide)) : s0.Keeps m (s.setSlk v) :=
  h.put .slk (w 18 rfl) rfl (fun i => ⟨i.mem, i.regs, i.disc⟩) (fun q hq e => by cases q <;> first | exact e | exact absurd rfl hq)

/-- A new `intakes` touches nothing else. -/
theorem State.setIntakes_keeps {m : Nat} {s0 s : State} (v : KMap Intake) (h : s0.Keeps m s)
    (w : Within 0x80000 m := by exact Within.of (by assumption) (by decide)) : s0.Keeps m (s.setIntakes v) :=
  h.put .intakes (w 19 rfl) rfl (fun i => ⟨i.mem, i.regs, i.disc⟩) (fun q hq e => by cases q <;> first | exact e | exact absurd rfl hq)

/-- A new `mag` touches nothing else. -/
theorem State.setMag_keeps {m : Nat} {s0 s : State} (v : MagState) (h : s0.Keeps m s)
    (w : Within 0x100000 m := by exact Within.of (by assumption) (by decide)) : s0.Keeps m (s.setMag v) :=
  h.put .mag (w 20 rfl) rfl (fun i => ⟨i.mem, i.regs, i.disc⟩) (fun q hq e => by cases q <;> first | exact e | exact absurd rfl hq)

/-- A new `enc` touches nothing else. -/
theorem State.setEnc_keeps {m : Nat} {s0 s : State} (v : EncState) (h : s0.Keeps m s)
    (w : Within 0x200000 m := by exact Within.of (by assumption) (by decide)) : s0.Keeps m (s.setEnc v) :=
  h.put .enc (w 21 rfl) rfl (fun i => ⟨i.mem, i.regs, i.disc⟩) (fun q hq e => by cases q <;> first | exact e | exact absurd rfl hq)

/-- A new `dec` touches nothing else. -/
theorem State.setDec_keeps {m : Nat} {s0 s : State} (v : DecState) (h : s0.Keeps m s)
    (w : Within 0x400000 m := by exact Within.of (by assumption) (by decide)) : s0.Keeps m (s.setDec v) :=
  h.put .dec (w 22 rfl) rfl (fun i => ⟨i.mem, i.regs, i.disc⟩) (fun q hq e => by cases q <;> first | exact e | exact absurd rfl hq)

/-- A new `cmp` touches nothing else. -/
theorem State.setCmp_keeps {m : Nat} {s0 s : State} (v : CmpState) (h : s0.Keeps m s)
    (w : Within 0x800000 m := by exact Within.of (by assumption) (by decide)) : s0.Keeps m (s.setCmp v) :=
  h.put .cmp (w 23 rfl) rfl (fun i => ⟨i.mem, i.regs, i.disc⟩) (fun q hq e => by cases q <;> first | exact e | exact absurd rfl hq)

/-- A new `net` touches nothing else. -/
theorem State.setNet_keeps {m : Nat} {s0 s : State} (v : NetState) (h : s0.Keeps m s)
    (w : Within 0x1000000 m := by exact Within.of (by assumption) (by decide)) : s0.Keeps m (s.setNet v) :=
  h.put .net (w 24 rfl) rfl (fun i => ⟨i.mem, i.regs, i.disc⟩) (fun q hq e => by cases q <;> first | exact e | exact absurd rfl hq)

/-- A new `aud` touches nothing else. -/
theorem State.setAud_keeps {m : Nat} {s0 s : State} (v : KMap AudPort) (h : s0.Keeps m s)
    (w : Within 0x2000000 m := by exact Within.of (by assumption) (by decide)) : s0.Keeps m (s.setAud v) :=
  h.put .aud (w 25 rfl) rfl (fun i => ⟨i.mem, i.regs, i.disc⟩) (fun q hq e => by cases q <;> first | exact e | exact absurd rfl hq)

/-- A new `pwr` touches nothing else. -/
theorem State.setPwr_keeps {m : Nat} {s0 s : State} (v : PwrState) (h : s0.Keeps m s)
    (w : Within 0x4000000 m := by exact Within.of (by assumption) (by decide)) : s0.Keeps m (s.setPwr v) :=
  h.put .pwr (w 26 rfl) rfl (fun i => ⟨i.mem, i.regs, i.disc⟩) (fun q hq e => by cases q <;> first | exact e | exact absurd rfl hq)

/-- A new `boot` touches nothing else. -/
theorem State.setBoot_keeps {m : Nat} {s0 s : State} (v : BootState) (h : s0.Keeps m s)
    (w : Within 0x8000000 m := by exact Within.of (by assumption) (by decide)) : s0.Keeps m (s.setBoot v) :=
  h.put .boot (w 27 rfl) rfl (fun i => ⟨i.mem, i.regs, i.disc⟩) (fun q hq e => by cases q <;> first | exact e | exact absurd rfl hq)

/-- A new `mnt` touches nothing else. -/
theorem State.setMnt_keeps {m : Nat} {s0 s : State} (v : MntState) (h : s0.Keeps m s)
    (w : Within 0x10000000 m := by exact Within.of (by assumption) (by decide)) : s0.Keeps m (s.setMnt v) :=
  h.put .mnt (w 28 rfl) rfl (fun i => ⟨i.mem, i.regs, i.disc⟩) (fun q hq e => by cases q <;> first | exact e | exact absurd rfl hq)

/-- A new `upd` touches nothing else. -/
theorem State.setUpd_keeps {m : Nat} {s0 s : State} (v : UpdState) (h : s0.Keeps m s)
    (w : Within 0x20000000 m := by exact Within.of (by assumption) (by decide)) : s0.Keeps m (s.setUpd v) :=
  h.put .upd (w 29 rfl) rfl (fun i => ⟨i.mem, i.regs, i.disc⟩) (fun q hq e => by cases q <;> first | exact e | exact absurd rfl hq)

/-- A register file in canonical form that lists no discovery register may replace the old one. -/
theorem State.setRegs_keeps {m : Nat} {s0 s : State} (v : KMap Word) (h : s0.Keeps m s)
    (hv : s.Inv → KMap.wf regReset v = true ∧ ∀ e ∈ v, isDiscovery e.1 = false)
    (w : Within 0x8 m := by exact Within.of (by assumption) (by decide)) : s0.Keeps m (s.setRegs v) :=
  h.put .regs (w 3 rfl) rfl (fun i => ⟨i.mem, (hv i).1, (hv i).2⟩)
    (fun q hq e => by cases q <;> first | exact e | exact absurd rfl hq)

/-- Registers that go back to reset leave the form. -/
theorem State.setRegs_filter_keeps {m : Nat} {s0 s : State} (p : Nat × Word → Bool) (h : s0.Keeps m s)
    (w : Within 0x8 m := by exact Within.of (by assumption) (by decide)) : s0.Keeps m (s.setRegs (s.regs.filter p)) :=
  State.setRegs_keeps _ h fun i =>
    ⟨KMap.filter_wf _ p _ i.regs, fun e m => i.disc e (List.mem_of_mem_filter m)⟩

/-- A register write keeps the form, and a discovery register takes none. -/
theorem State.setReg_keeps {m : Nat} {s0 s : State} (off : Nat) (v : Word) (h : s0.Keeps m s)
    (w : Within 0x8 m := by exact Within.of (by assumption) (by decide)) : s0.Keeps m (s.setReg off v) := by
  unfold State.setReg
  split
  · exact h
  · rename_i hd
    refine State.setRegs_keeps _ h fun i => ⟨KMap.set_wf _ _ _ _ i.regs, fun e m => ?_⟩
    rcases KMap.mem_set _ _ _ _ _ m with rfl | m
    · simpa using hd
    · exact i.disc e m

/-- A byte stored keeps the form of memory. -/
theorem State.setByte_keeps {m : Nat} {s0 s : State} (a : Nat) (b : Byte) (h : s0.Keeps m s)
    (w : Within 0x10 m := by exact Within.of (by assumption) (by decide)) : s0.Keeps m (s.setByte a b) :=
  h.put .mem (w 4 rfl) rfl (fun i => ⟨KMap.set_wf _ _ _ _ i.mem, i.regs, i.disc⟩)
    (fun q hq e => by cases q <;> first | exact e | exact absurd rfl hq)

/-- A lost region keeps the form of memory. -/
theorem State.loseMem_keeps {m : Nat} {s0 s : State} (r : Nat) (h : s0.Keeps m s)
    (w : Within 0x10 m := by exact Within.of (by assumption) (by decide)) : s0.Keeps m (s.loseMem r) := by
  refine h.put .mem (w 4 rfl) rfl (fun i => ⟨?_, i.regs, i.disc⟩)
    (fun q hq e => by cases q <;> first | exact e | exact absurd rfl hq)
  refine KMap.wfFrom_congr (memDefault s.memGen) _ _ _ (fun e m => ?_) (KMap.filter_wf _ _ _ i.mem)
  have hr : memRegion e.1 ≠ r := by simpa using List.of_mem_filter m
  simp only [State.loseMem, State.setMemGen, State.setMem, memDefault, KMap.get_set_other _ _ _ _ _ hr]

/-- A fold of operations that keep, keeps. -/
theorem State.foldl_keeps {m : Nat} {s0 : State} {α : Type} (f : State → α → State)
    (hf : ∀ t a, s0.Keeps m t → s0.Keeps m (f t a)) : ∀ (l : List α) (s : State), s0.Keeps m s → s0.Keeps m (l.foldl f s)
  | [], _, h => h
  | a :: l, s, h => State.foldl_keeps f hf l (f s a) (hf s a h)

/-- A fold beside a result. -/
theorem State.foldl_snd_keeps {m : Nat} {s0 : State} {α β : Type} (f : β × State → α → β × State)
    (hf : ∀ p a, s0.Keeps m p.2 → s0.Keeps m (f p a).2) :
    ∀ (l : List α) (p : β × State), s0.Keeps m p.2 → s0.Keeps m (l.foldl f p).2
  | [], _, h => h
  | a :: l, p, h => State.foldl_snd_keeps f hf l (f p a) (hf p a h)

/-- `State.each` of an operation that keeps, keeps. -/
theorem State.each_keeps {m : Nat} {s0 : State} {α : Type} (f : α → State → State)
    (hf : ∀ a t, s0.Keeps m t → s0.Keeps m (f a t)) (l : List α) (s : State) (h : s0.Keeps m s) : s0.Keeps m (s.each l f) :=
  State.foldl_keeps (fun s a => f a s) (fun t a => hf a t) l s h

/-- From an equation of a triple. -/
theorem State.keeps_trd_eq {m : Nat} {s0 : State} {α β : Type} {p : α × β × State} {a : α} {b : β} {t : State}
    (h : s0.Keeps m p.2.2) (e : p = (a, b, t)) : s0.Keeps m t := by
  rw [e] at h; exact h

/-- From an equation of a pair. -/
theorem State.keeps_snd_eq {m : Nat} {s0 : State} {α : Type} {p : α × State} {a : α} {t : State} (h : s0.Keeps m p.2)
    (e : p = (a, t)) : s0.Keeps m t := by
  rw [e] at h; exact h

end Sys2Proof.Machine
end

