-- ==== Sys2Proof/Laws/KeepsOps.lean ====
section
/-! SUPPORT. The operations of Machine/Ops.lean keep the queue and the invariant (`State.Keeps`). -/

namespace Sys2Proof.Machine

set_option Elab.async false
set_option linter.unusedVariables false

theorem State.wr_keeps {m : Nat} {s0 : State} (s : State) (f : Fld) (v : ℕ) (h : s0.Keeps m s) (w : Within 0x8 m := by exact Within.of (by assumption) (by decide)) :
    s0.Keeps m (State.wr s f v) := by
  unfold State.wr
  with_reducible apply State.setReg_keeps (w := w.of (by decide))
  with_reducible assumption

theorem State.wrB_keeps {m : Nat} {s0 : State} (s : State) (f : Fld) (b : Bool) (h : s0.Keeps m s) (w : Within 0x8 m := by exact Within.of (by assumption) (by decide)) :
    s0.Keeps m (State.wrB s f b) := by
  unfold State.wrB
  with_reducible apply State.wr_keeps (w := w.of (by decide))
  with_reducible assumption

theorem State.inc_keeps {m : Nat} {s0 : State} (s : State) (f : Fld) (k : ℕ) (h : s0.Keeps m s) (w : Within 0x8 m := by exact Within.of (by assumption) (by decide)) :
    s0.Keeps m (State.inc s f k) := by
  unfold State.inc
  with_reducible apply State.wr_keeps (w := w.of (by decide))
  with_reducible assumption

theorem State.incWrap_keeps {m : Nat} {s0 : State} (s : State) (f : Fld) (k : ℕ) (h : s0.Keeps m s) (w : Within 0x8 m := by exact Within.of (by assumption) (by decide)) :
    s0.Keeps m (State.incWrap s f k) := by
  unfold State.incWrap
  with_reducible apply State.wr_keeps (w := w.of (by decide))
  with_reducible assumption

theorem State.plainWrite_keeps {m : Nat} {s0 : State} (s : State) (off : ℕ) (val : Word) (h : s0.Keeps m s) (w : Within 0x8 m := by exact Within.of (by assumption) (by decide)) :
    s0.Keeps m (State.plainWrite s off val) := by
  unfold State.plainWrite
  split
  · with_reducible apply State.setReg_keeps (w := w.of (by decide))
    with_reducible assumption
  · with_reducible assumption

theorem State.takeFree_keeps {m : Nat} {s0 : State} (s : State) (wx : ℕ) (h : s0.Keeps m s) (w : Within 0x2 m := by exact Within.of (by assumption) (by decide)) :
    s0.Keeps m ((State.takeFree s wx).2) := by
  unfold State.takeFree
  dsimp only
  with_reducible apply State.setFree_keeps (w := w.of (by decide))
  with_reducible assumption

theorem State.takeFree_keeps_eq {m : Nat} {s0 : State} {s : State} {wx : ℕ} {a : _} {t : State} (h : s0.Keeps m s)  (e : State.takeFree s wx = (a, t)) (w : Within 0x2 m := by exact Within.of (by assumption) (by decide)) :
    s0.Keeps m t :=
  State.keeps_snd_eq (State.takeFree_keeps s wx h ) e

theorem State.setBytes_keeps {m : Nat} {s0 : State} (s : State) (a : Nat) (l : List Byte) (h : s0.Keeps m s) (w : Within 0x10 m := by exact Within.of (by assumption) (by decide)) :
    s0.Keeps m ((s.setBytes a l)) := by
  induction l generalizing s a with
  | nil => exact h
  | cons b tl ih =>
    exact ih (s.setByte a b) (a + 1) (State.setByte_keeps a b h)

theorem State.setQueue_keeps {m : Nat} {s0 : State} (s : State) (q : ℕ) (d : Queue) (h : s0.Keeps m s) (w : Within 0x100 m := by exact Within.of (by assumption) (by decide)) :
    s0.Keeps m (State.setQueue s q d) := by
  unfold State.setQueue
  with_reducible apply State.setHq_keeps (w := w.of (by decide))
  with_reducible assumption

theorem State.setTask_keeps {m : Nat} {s0 : State} (s : State) (slot : ℕ) (u : Option Task) (h : s0.Keeps m s) (w : Within 0x200 m := by exact Within.of (by assumption) (by decide)) :
    s0.Keeps m (State.setTask s slot u) := by
  unfold State.setTask
  with_reducible apply State.setSch_keeps (w := w.of (by decide))
  with_reducible assumption

theorem State.setEdgeSeal_keeps {m : Nat} {s0 : State} (s : State) (q : ℕ) (ex : EdgeSeal) (h : s0.Keeps m s) (w : Within 0x20 m := by exact Within.of (by assumption) (by decide)) :
    s0.Keeps m (State.setEdgeSeal s q ex) := by
  unfold State.setEdgeSeal
  with_reducible apply State.setSeals_keeps (w := w.of (by decide))
  with_reducible assumption

theorem State.setSpace_keeps {m : Nat} {s0 : State} (s : State) (n : ℕ) (d : Space) (h : s0.Keeps m s) (w : Within 0x400 m := by exact Within.of (by assumption) (by decide)) :
    s0.Keeps m (State.setSpace s n d) := by
  unfold State.setSpace
  with_reducible apply State.setXlt_keeps (w := w.of (by decide))
  with_reducible assumption

theorem State.noteCtx_keeps {m : Nat} {s0 : State} (s : State) (h : s0.Keeps m s) (w : Within 0x8 m := by exact Within.of (by assumption) (by decide)) :
    s0.Keeps m (State.noteCtx s) := by
  unfold State.noteCtx
  extract_lets a0
  clear_value a0
  with_reducible apply State.wr_keeps (w := w.of (by decide))
  with_reducible apply State.wr_keeps (w := w.of (by decide))
  with_reducible assumption

theorem State.setCtx_keeps {m : Nat} {s0 : State} (s : State) (n : ℕ) (c : Ctx) (h : s0.Keeps m s) (w : Within 0x408 m := by exact Within.of (by assumption) (by decide)) :
    s0.Keeps m (State.setCtx s n c) := by
  unfold State.setCtx
  with_reducible apply State.noteCtx_keeps (w := w.of (by decide))
  with_reducible apply State.setXlt_keeps (w := w.of (by decide))
  with_reducible assumption

theorem State.setMover_keeps {m : Nat} {s0 : State} (s : State) (n : ℕ) (mx : Mover) (h : s0.Keeps m s) (w : Within 0x800 m := by exact Within.of (by assumption) (by decide)) :
    s0.Keeps m (State.setMover s n mx) := by
  unfold State.setMover
  with_reducible apply State.setMovers_keeps (w := w.of (by decide))
  with_reducible assumption

theorem State.setEngine_keeps {m : Nat} {s0 : State} (s : State) (k : ℕ) (ex : Engine) (h : s0.Keeps m s) (w : Within 0x2000 m := by exact Within.of (by assumption) (by decide)) :
    s0.Keeps m (State.setEngine s k ex) := by
  unfold State.setEngine
  with_reducible apply State.setEng_keeps (w := w.of (by decide))
  with_reducible assumption

theorem State.setCkvUnit_keeps {m : Nat} {s0 : State} (s : State) (n : ℕ) (u : CkvUnit) (h : s0.Keeps m s) (w : Within 0x40 m := by exact Within.of (by assumption) (by decide)) :
    s0.Keeps m (State.setCkvUnit s n u) := by
  unfold State.setCkvUnit
  with_reducible apply State.setCkv_keeps (w := w.of (by decide))
  with_reducible assumption

theorem State.setChan_keeps {m : Nat} {s0 : State} (s : State) (n : ℕ) (c : Chan) (h : s0.Keeps m s) (w : Within 0x4000 m := by exact Within.of (by assumption) (by decide)) :
    s0.Keeps m (State.setChan s n c) := by
  unfold State.setChan
  with_reducible apply State.setHif_keeps (w := w.of (by decide))
  with_reducible assumption

theorem State.setUnit_keeps {m : Nat} {s0 : State} (s : State) (u : ℕ) (d : UnitState) (h : s0.Keeps m s) (w : Within 0x8000 m := by exact Within.of (by assumption) (by decide)) :
    s0.Keeps m (State.setUnit s u d) := by
  unfold State.setUnit
  with_reducible apply State.setCux_keeps (w := w.of (by decide))
  with_reducible assumption

end Sys2Proof.Machine
end

