-- ==== Sys2Proof/Laws/KeepsFlags.lean ====
section
/-! SUPPORT. The operations of Machine/Flags.lean keep the queue and the invariant (`State.Keeps`). -/

namespace Sys2Proof.Machine

set_option Elab.async false
set_option linter.unusedVariables false

theorem State.raiseVec_keeps {m : Nat} {s0 : State} (s : State) (v : ℕ) (h : s0.Keeps m s) (w : Within 0x8 m := by exact Within.of (by assumption) (by decide)) :
    s0.Keeps m (State.raiseVec s v) := by
  unfold State.raiseVec
  extract_lets a0
  clear_value a0
  with_reducible apply State.wr_keeps (w := w.of (by decide))
  with_reducible assumption

theorem State.blockToHost_keeps {m : Nat} {s0 : State} (s : State) (b : ℕ) (h : s0.Keeps m s) (w : Within 0x8 m := by exact Within.of (by assumption) (by decide)) :
    s0.Keeps m (State.blockToHost s b) := by
  unfold State.blockToHost
  split
  · with_reducible apply State.raiseVec_keeps (w := w.of (by decide))
    with_reducible assumption
  · with_reducible assumption

theorem State.irq_keeps {m : Nat} {s0 : State} (s : State) (b : ℕ) (flag : Fld) (en : Fld) (h : s0.Keeps m s) (w : Within 0x8 m := by exact Within.of (by assumption) (by decide)) :
    s0.Keeps m (State.irq s b flag en) := by
  unfold State.irq
  extract_lets a0
  have k1 : s0.Keeps m a0 := by
    unfold a0
    with_reducible apply State.wr_keeps (w := w.of (by decide))
    with_reducible assumption
  clear_value a0
  split
  · with_reducible apply State.blockToHost_keeps (w := w.of (by decide))
    with_reducible assumption
  · with_reducible assumption

theorem State.irqAlways_keeps {m : Nat} {s0 : State} (s : State) (b : ℕ) (flag : Fld) (h : s0.Keeps m s) (w : Within 0x8 m := by exact Within.of (by assumption) (by decide)) :
    s0.Keeps m (State.irqAlways s b flag) := by
  unfold State.irqAlways
  with_reducible apply State.blockToHost_keeps (w := w.of (by decide))
  with_reducible apply State.wr_keeps (w := w.of (by decide))
  with_reducible assumption

theorem State.notify_keeps {m : Nat} {s0 : State} (s : State) (n : ℕ) (h : s0.Keeps m s) (w : Within 0x8 m := by exact Within.of (by assumption) (by decide)) :
    s0.Keeps m (State.notify s n) := by
  unfold State.notify
  split
  · with_reducible assumption
  · extract_lets a0
    clear_value a0
    split
    · with_reducible apply State.raiseVec_keeps (w := w.of (by decide))
      with_reducible assumption
    · with_reducible apply State.wr_keeps (w := w.of (by decide))
      with_reducible assumption

theorem State.hifStatus_keeps {m : Nat} {s0 : State} (s : State) (code : ℕ) (h : s0.Keeps m s) (w : Within 0x8 m := by exact Within.of (by assumption) (by decide)) :
    s0.Keeps m (State.hifStatus s code) := by
  unfold State.hifStatus
  with_reducible apply State.irq_keeps (w := w.of (by decide))
  with_reducible apply State.wr_keeps (w := w.of (by decide))
  with_reducible assumption

theorem State.levelRaise_keeps {m : Nat} {s0 : State} (u : State) (s : State) (off : ℕ) (h : s0.Keeps m u) (w : Within 0x8 m := by exact Within.of (by assumption) (by decide)) :
    s0.Keeps m (State.levelRaise u s off) := by
  unfold State.levelRaise
  extract_lets a0 a1 a2
  clear_value a0
  clear_value a1
  have k3 : s0.Keeps m a2 := by
    unfold a2
    split
    · with_reducible apply State.blockToHost_keeps (w := w.of (by decide))
      with_reducible assumption
    · with_reducible assumption
  clear_value a2
  split
  · with_reducible apply State.blockToHost_keeps (w := w.of (by decide))
    with_reducible assumption
  · with_reducible assumption

end Sys2Proof.Machine
end

