-- ==== Sys2Proof/Laws/KeepsShaper.lean ====
section
/-! SUPPORT. The operations of Machine/Shaper.lean keep the queue and the invariant (`State.Keeps`). -/

namespace Sys2Proof.Machine

set_option Elab.async false
set_option linter.unusedVariables false

theorem State.setNetPort_keeps {m : Nat} {s0 : State} (s : State) (p : ℕ) (v : NetPort) (h : s0.Keeps m s) (w : Within 0x1000000 m := by exact Within.of (by assumption) (by decide)) :
    s0.Keeps m (State.setNetPort s p v) := by
  unfold State.setNetPort
  with_reducible apply State.setNet_keeps (w := w.of (by decide))
  with_reducible assumption

theorem State.settle_keeps {m : Nat} {s0 : State} (s : State) (p : ℕ) (u : ℚ) (h : s0.Keeps m s) (w : Within 0x1000000 m := by exact Within.of (by assumption) (by decide)) :
    s0.Keeps m (State.settle s p u) := by
  unfold State.settle
  with_reducible apply State.setNetPort_keeps (w := w.of (by decide))
  with_reducible assumption

end Sys2Proof.Machine
end

