-- ==== Sys2Proof/Laws/KeepsFabric.lean ====
section
/-! SUPPORT. The operations of Machine/Fabric.lean keep the queue and the invariant (`State.Keeps`). -/

namespace Sys2Proof.Machine

set_option Elab.async false
set_option linter.unusedVariables false

theorem State.descWriteDenied_keeps {m : Nat} {s0 : State} (s : State) (h : s0.Keeps m s) (w : Within 0x8 m := by exact Within.of (by assumption) (by decide)) :
    s0.Keeps m (State.descWriteDenied s) := by
  unfold State.descWriteDenied
  with_reducible apply State.irqAlways_keeps (w := w.of (by decide))
  with_reducible apply State.wr_keeps (w := w.of (by decide))
  with_reducible apply State.inc_keeps (w := w.of (by decide))
  with_reducible assumption

theorem State.sysregWriteDenied_keeps {m : Nat} {s0 : State} (s : State) (h : s0.Keeps m s) (w : Within 0x8 m := by exact Within.of (by assumption) (by decide)) :
    s0.Keeps m (State.sysregWriteDenied s) := by
  unfold State.sysregWriteDenied
  with_reducible apply State.irqAlways_keeps (w := w.of (by decide))
  with_reducible apply State.wr_keeps (w := w.of (by decide))
  with_reducible apply State.inc_keeps (w := w.of (by decide))
  with_reducible assumption

theorem State.holeAccess_keeps {m : Nat} {s0 : State} (s : State) (h : s0.Keeps m s) (w : Within 0x8 m := by exact Within.of (by assumption) (by decide)) :
    s0.Keeps m (State.holeAccess s) := by
  unfold State.holeAccess
  with_reducible apply State.inc_keeps (w := w.of (by decide))
  with_reducible assumption

theorem State.outboundDropped_keeps {m : Nat} {s0 : State} (s : State) (h : s0.Keeps m s) (w : Within 0x8 m := by exact Within.of (by assumption) (by decide)) :
    s0.Keeps m (State.outboundDropped s) := by
  unfold State.outboundDropped
  with_reducible apply State.inc_keeps (w := w.of (by decide))
  with_reducible apply State.holeAccess_keeps (w := w.of (by decide))
  with_reducible assumption

theorem State.burstError_keeps {m : Nat} {s0 : State} (s : State) (addr : ℕ) (h : s0.Keeps m s) (w : Within 0x8 m := by exact Within.of (by assumption) (by decide)) :
    s0.Keeps m (State.burstError s addr) := by
  unfold State.burstError
  extract_lets a0 a1 a2
  clear_value a0
  have k3 : s0.Keeps m a1 := by
    unfold a1
    with_reducible apply State.wr_keeps (w := w.of (by decide))
    with_reducible apply State.inc_keeps (w := w.of (by decide))
    with_reducible apply State.inc_keeps (w := w.of (by decide))
    with_reducible assumption
  clear_value a1
  have k4 : s0.Keeps m a2 := by
    unfold a2
    with_reducible apply State.irq_keeps (w := w.of (by decide))
    with_reducible assumption
  clear_value a2
  split
  · with_reducible assumption
  · with_reducible apply State.wr_keeps (w := w.of (by decide))
    with_reducible apply State.wr_keeps (w := w.of (by decide))
    with_reducible apply State.wr_keeps (w := w.of (by decide))
    with_reducible assumption

theorem State.burstsRead_keeps {m : Nat} {s0 : State} (s : State) (a : ℕ) (len : ℕ) (h : s0.Keeps m s) (w : Within 0x8 m := by exact Within.of (by assumption) (by decide)) :
    s0.Keeps m (State.burstsRead s a len) := by
  unfold State.burstsRead
  with_reducible apply State.each_keeps
  · intro x0 x1 x2
    with_reducible apply State.burstError_keeps (w := w.of (by decide))
    with_reducible assumption
  · with_reducible assumption

theorem State.qdrWrite_keeps {m : Nat} {s0 : State} (s : State) (a : ℕ) (b : List Byte) (h : s0.Keeps m s) (w : Within 0x1018 m := by exact Within.of (by assumption) (by decide)) :
    s0.Keeps m (State.qdrWrite s a b) := by
  unfold State.qdrWrite
  extract_lets a0 a1 a2 a3
  clear_value a0
  clear_value a1
  clear_value a2
  have k4 : s0.Keeps m a3 := by
    unfold a3
    with_reducible apply State.setQdr_keeps (w := w.of (by decide))
    with_reducible assumption
  clear_value a3
  with_reducible apply State.setBytes_keeps (w := w.of (by decide))
  with_reducible apply State.each_keeps
  · intro x5 x6 x7
    with_reducible apply State.burstError_keeps (w := w.of (by decide))
    with_reducible assumption
  · with_reducible assumption

theorem State.hostWrite_keeps {m : Nat} {s0 : State} (s : State) (a : Nat) (l : List Byte) (h : s0.Keeps m s) (w : Within 0x4000 m := by exact Within.of (by assumption) (by decide)) :
    s0.Keeps m ((s.hostWrite a l)) := by
  induction l generalizing s a with
  | nil => exact h
  | cons b tl ih =>
    exact ih _ (a + 1) (State.setHif_keeps _ h)

theorem State.noteRead_keeps {m : Nat} {s0 : State} (s : State) (a : ℕ) (len : ℕ) (h : s0.Keeps m s) (w : Within 0x8 m := by exact Within.of (by assumption) (by decide)) :
    s0.Keeps m (State.noteRead s a len) := by
  unfold State.noteRead
  split
  · with_reducible apply State.holeAccess_keeps (w := w.of (by decide))
    with_reducible assumption
  · split
    · with_reducible assumption
    · with_reducible apply State.outboundDropped_keeps (w := w.of (by decide))
      with_reducible assumption
  · with_reducible apply State.burstsRead_keeps (w := w.of (by decide))
    with_reducible assumption
  · with_reducible assumption

theorem State.placeWrite_keeps {m : Nat} {s0 : State} (s : State) (a : ℕ) (b : List Byte) (h : s0.Keeps m s) (w : Within 0x5018 m := by exact Within.of (by assumption) (by decide)) :
    s0.Keeps m (State.placeWrite s a b) := by
  unfold State.placeWrite
  split
  · with_reducible apply State.setBytes_keeps (w := w.of (by decide))
    with_reducible assumption
  · with_reducible apply State.setBytes_keeps (w := w.of (by decide))
    with_reducible assumption
  · with_reducible apply State.qdrWrite_keeps (w := w.of (by decide))
    with_reducible assumption
  · with_reducible apply State.descWriteDenied_keeps (w := w.of (by decide))
    with_reducible assumption
  · with_reducible apply State.sysregWriteDenied_keeps (w := w.of (by decide))
    with_reducible assumption
  · with_reducible apply State.sysregWriteDenied_keeps (w := w.of (by decide))
    with_reducible assumption
  · with_reducible apply State.sysregWriteDenied_keeps (w := w.of (by decide))
    with_reducible assumption
  · with_reducible apply State.sysregWriteDenied_keeps (w := w.of (by decide))
    with_reducible assumption
  · with_reducible apply State.sysregWriteDenied_keeps (w := w.of (by decide))
    with_reducible assumption
  · with_reducible apply State.sysregWriteDenied_keeps (w := w.of (by decide))
    with_reducible assumption
  · split
    · with_reducible apply State.hostWrite_keeps (w := w.of (by decide))
      with_reducible assumption
    · with_reducible apply State.outboundDropped_keeps (w := w.of (by decide))
      with_reducible assumption
  · with_reducible assumption
  · with_reducible assumption
  · with_reducible apply State.holeAccess_keeps (w := w.of (by decide))
    with_reducible assumption

theorem State.physWrite_keeps {m : Nat} {s0 : State} (s : State) (a : ℕ) (b : List Byte) (h : s0.Keeps m s) (w : Within 0x5018 m := by exact Within.of (by assumption) (by decide)) :
    s0.Keeps m (State.physWrite s a b) := by
  unfold State.physWrite
  with_reducible apply State.each_keeps
  · intro x0 x1 x2
    with_reducible apply State.placeWrite_keeps (w := w.of (by decide))
    with_reducible assumption
  · with_reducible assumption

end Sys2Proof.Machine
end

