-- ==== Sys2Proof/Laws/KeepsGate.lean ====
section
/-! SUPPORT. The operations of Machine/Gate.lean keep the queue and the invariant (`State.Keeps`). -/

namespace Sys2Proof.Machine

set_option Elab.async false
set_option linter.unusedVariables false

theorem State.cuxReport_keeps {m : Nat} {s0 : State} (s : State) (u : ℕ) (code : ℕ) (h : s0.Keeps m s) (w : Within 0x8 m := by exact Within.of (by assumption) (by decide)) :
    s0.Keeps m (State.cuxReport s u code) := by
  unfold State.cuxReport
  with_reducible apply State.wr_keeps (w := w.of (by decide))
  with_reducible apply State.wr_keeps (w := w.of (by decide))
  with_reducible assumption

theorem State.unitIrq_keeps {m : Nat} {s0 : State} (s : State) (u : ℕ) (bit : ℕ) (h : s0.Keeps m s) (w : Within 0x8 m := by exact Within.of (by assumption) (by decide)) :
    s0.Keeps m (State.unitIrq s u bit) := by
  unfold State.unitIrq
  with_reducible apply State.irq_keeps (w := w.of (by decide))
  with_reducible assumption

theorem State.setSynced_keeps {m : Nat} {s0 : State} (s : State) (u : ℕ) (b : Bool) (h : s0.Keeps m s) (w : Within 0x8 m := by exact Within.of (by assumption) (by decide)) :
    s0.Keeps m (State.setSynced s u b) := by
  unfold State.setSynced
  split
  · with_reducible assumption
  · with_reducible apply State.unitIrq_keeps (w := w.of (by decide))
    with_reducible apply State.wrB_keeps (w := w.of (by decide))
    with_reducible assumption

theorem State.sramWrite_keeps {m : Nat} {s0 : State} (s : State) (u : ℕ) (a : ℕ) (b : List Byte) (h : s0.Keeps m s) (w : Within 0x8000 m := by exact Within.of (by assumption) (by decide)) :
    s0.Keeps m (State.sramWrite s u a b) := by
  unfold State.sramWrite
  extract_lets a0
  clear_value a0
  with_reducible apply State.setUnit_keeps (w := w.of (by decide))
  with_reducible assumption

theorem State.recordLost_keeps {m : Nat} {s0 : State} (s : State) (u : ℕ) (h : s0.Keeps m s) (w : Within 0x8008 m := by exact Within.of (by assumption) (by decide)) :
    s0.Keeps m (State.recordLost s u) := by
  unfold State.recordLost
  extract_lets a0 a1 a2
  clear_value a0
  have k3 : s0.Keeps m a1 := by
    unfold a1
    with_reducible apply State.setUnit_keeps (w := w.of (by decide))
    with_reducible apply State.inc_keeps (w := w.of (by decide))
    with_reducible assumption
  clear_value a1
  have k4 : s0.Keeps m a2 := by
    unfold a2
    with_reducible apply State.setSynced_keeps (w := w.of (by decide))
    with_reducible assumption
  clear_value a2
  split
  · split
    · with_reducible apply State.cuxReport_keeps (w := w.of (by decide))
      with_reducible apply State.wr_keeps (w := w.of (by decide))
      with_reducible assumption
    · with_reducible assumption
  · split
    · with_reducible apply State.cuxReport_keeps (w := w.of (by decide))
      with_reducible assumption
    · with_reducible assumption

theorem State.mirrorTo_keeps {m : Nat} {s0 : State} (s : State) (u : ℕ) (src : Agent) (off : ℕ) (size : Size) (val : Word) (held : Bool) (seq : ℕ) (h : s0.Keeps m s) (w : Within 0x8008 m := by exact Within.of (by assumption) (by decide)) :
    s0.Keeps m (State.mirrorTo s u src off size val held seq) := by
  unfold State.mirrorTo
  split
  · extract_lets a0 a1 a2 a3 a4 a5 a6
    clear_value a0
    clear_value a1
    clear_value a2
    clear_value a3
    clear_value a4
    have k7 : s0.Keeps m a5 := by
      unfold a5
      with_reducible apply State.setUnit_keeps (w := w.of (by decide))
      with_reducible assumption
    clear_value a5
    have k8 : s0.Keeps m a6 := by
      unfold a6
      with_reducible apply State.sramWrite_keeps (w := w.of (by decide))
      with_reducible assumption
    clear_value a6
    split
    · with_reducible apply State.unitIrq_keeps (w := w.of (by decide))
      with_reducible apply State.wr_keeps (w := w.of (by decide))
      with_reducible assumption
    · with_reducible apply State.recordLost_keeps (w := w.of (by decide))
      with_reducible assumption
  · with_reducible assumption

theorem State.mirror_keeps {m : Nat} {s0 : State} (s : State) (src : Agent) (off : ℕ) (size : Size) (val : Word) (held : Bool) (h : s0.Keeps m s) (w : Within 0x8008 m := by exact Within.of (by assumption) (by decide)) :
    s0.Keeps m (State.mirror s src off size val held) := by
  unfold State.mirror
  extract_lets a0 a1
  clear_value a0
  have k2 : s0.Keeps m a1 := by
    unfold a1
    with_reducible apply State.incWrap_keeps (w := w.of (by decide))
    with_reducible assumption
  clear_value a1
  with_reducible apply State.mirrorTo_keeps (w := w.of (by decide))
  with_reducible apply State.mirrorTo_keeps (w := w.of (by decide))
  with_reducible assumption

theorem State.notOwner_keeps {m : Nat} {s0 : State} (s : State) (src : Agent) (h : s0.Keeps m s) (w : Within 0x8 m := by exact Within.of (by assumption) (by decide)) :
    s0.Keeps m (State.notOwner s src) := by
  unfold State.notOwner
  split
  · with_reducible apply State.cuxReport_keeps (w := w.of (by decide))
    with_reducible apply State.inc_keeps (w := w.of (by decide))
    with_reducible assumption
  · with_reducible apply State.cuxReport_keeps (w := w.of (by decide))
    with_reducible apply State.inc_keeps (w := w.of (by decide))
    with_reducible assumption
  · with_reducible apply State.wr_keeps (w := w.of (by decide))
    with_reducible apply State.inc_keeps (w := w.of (by decide))
    with_reducible assumption

theorem State.holdDoorbell_keeps {m : Nat} {s0 : State} (s : State) (src : Agent) (off : ℕ) (val : Word) (h : s0.Keeps m s) (w : Within 0x8008 m := by exact Within.of (by assumption) (by decide)) :
    s0.Keeps m (State.holdDoorbell s src off val) := by
  unfold State.holdDoorbell
  extract_lets a0 a1 a2 a3
  clear_value a0
  clear_value a1
  have k4 : s0.Keeps m a2 := by
    unfold a2
    with_reducible apply State.setCux_keeps (w := w.of (by decide))
    with_reducible assumption
  clear_value a2
  clear_value a3
  split
  · with_reducible apply State.wr_keeps (w := w.of (by decide))
    with_reducible apply State.wr_keeps (w := w.of (by decide))
    with_reducible assumption
  · with_reducible apply State.setCux_keeps (w := w.of (by decide))
    with_reducible assumption

theorem State.reportHostDenied_keeps {m : Nat} {s0 : State} (s : State) (off : ℕ) (h : s0.Keeps m s) (w : Within 0x8 m := by exact Within.of (by assumption) (by decide)) :
    s0.Keeps m (State.reportHostDenied s off) := by
  unfold State.reportHostDenied
  split
  · with_reducible apply State.wr_keeps (w := w.of (by decide))
    with_reducible assumption
  · with_reducible apply State.hifStatus_keeps (w := w.of (by decide))
    with_reducible assumption

theorem State.write_keeps {m : Nat} {s0 : State} (s : State) (src : Agent) (off : ℕ) (size : Size) (val : Word) (eff : State → State) (h : s0.Keeps m s) (h_eff : ∀ t, s0.Keeps m t → s0.Keeps m (eff t)) (w : Within 0x8008 m := by exact Within.of (by assumption) (by decide)) :
    s0.Keeps m (State.write s src off size val eff) := by
  unfold State.write
  split
  · with_reducible apply State.levelRaise_keeps (w := w.of (by decide))
    with_reducible apply h_eff
    with_reducible apply State.mirror_keeps (w := w.of (by decide))
    with_reducible assumption
  · with_reducible apply State.levelRaise_keeps (w := w.of (by decide))
    with_reducible apply h_eff
    with_reducible assumption
  · with_reducible apply State.holdDoorbell_keeps (w := w.of (by decide))
    with_reducible assumption
  · with_reducible apply State.notOwner_keeps (w := w.of (by decide))
    with_reducible assumption
  · with_reducible apply State.reportHostDenied_keeps (w := w.of (by decide))
    with_reducible apply State.mirror_keeps (w := w.of (by decide))
    with_reducible assumption
  · with_reducible assumption

theorem State.writeReg_keeps {m : Nat} {s0 : State} (s : State) (src : Agent) (f : Fld) (val : Word) (eff : State → State) (h : s0.Keeps m s) (h_eff : ∀ t, s0.Keeps m t → s0.Keeps m (eff t)) (w : Within 0x8008 m := by exact Within.of (by assumption) (by decide)) :
    s0.Keeps m (State.writeReg s src f val eff) := by
  unfold State.writeReg
  with_reducible apply State.write_keeps (w := w.of (by decide))
  · with_reducible assumption
  · intro x0 x1
    with_reducible apply h_eff
    with_reducible assumption

end Sys2Proof.Machine
end

