-- ==== Sys2Proof/Laws/KeepsMaint.lean ====
section
/-! SUPPORT. The operations of Machine/Maint.lean keep the queue and the invariant (`State.Keeps`). -/

namespace Sys2Proof.Machine

set_option Elab.async false
set_option linter.unusedVariables false

theorem State.noteMaint_keeps {m : Nat} {s0 : State} (s : State) (h : s0.Keeps m s) (w : Within 0x8 m := by exact Within.of (by assumption) (by decide)) :
    s0.Keeps m (State.noteMaint s) := by
  unfold State.noteMaint
  with_reducible apply State.wrB_keeps (w := w.of (by decide))
  with_reducible assumption

theorem State.requestAct_keeps {m : Nat} {s0 : State} (s : State) (a : Act) (h : s0.Keeps m s) (w : Within 0x10000008 m := by exact Within.of (by assumption) (by decide)) :
    s0.Keeps m (State.requestAct s a) := by
  unfold State.requestAct
  extract_lets a0 a1 a2
  clear_value a0
  clear_value a1
  clear_value a2
  with_reducible apply State.noteMaint_keeps (w := w.of (by decide))
  with_reducible apply State.setMnt_keeps (w := w.of (by decide))
  with_reducible assumption

theorem State.endAct_keeps {m : Nat} {s0 : State} (s : State) (a : Act) (h : s0.Keeps m s) (w : Within 0x10000008 m := by exact Within.of (by assumption) (by decide)) :
    s0.Keeps m (State.endAct s a) := by
  unfold State.endAct
  with_reducible apply State.noteMaint_keeps (w := w.of (by decide))
  with_reducible apply State.setMnt_keeps (w := w.of (by decide))
  with_reducible assumption

theorem State.holdEnable_keeps {m : Nat} {s0 : State} (s : State) (off : ℕ) (val : Word) (h : s0.Keeps m s) (w : Within 0x10000008 m := by exact Within.of (by assumption) (by decide)) :
    s0.Keeps m (State.holdEnable s off val) := by
  unfold State.holdEnable
  with_reducible apply State.setMnt_keeps (w := w.of (by decide))
  with_reducible apply State.plainWrite_keeps (w := w.of (by decide))
  with_reducible assumption

theorem State.enableWrite_keeps {m : Nat} {s0 : State} (s : State) (busy : Bool) (f : Fld) (val : Word) (eff : State → State) (h : s0.Keeps m s) (h_eff : ∀ t, s0.Keeps m t → s0.Keeps m (eff t)) (w : Within 0x10000008 m := by exact Within.of (by assumption) (by decide)) :
    s0.Keeps m (State.enableWrite s busy f val eff) := by
  unfold State.enableWrite
  split
  · with_reducible apply State.holdEnable_keeps (w := w.of (by decide))
    with_reducible assumption
  · split
    · with_reducible apply State.plainWrite_keeps (w := w.of (by decide))
      with_reducible apply State.setMnt_keeps (w := w.of (by decide))
      with_reducible assumption
    · with_reducible apply h_eff
      with_reducible assumption

end Sys2Proof.Machine
end

