-- ==== Sys2Proof/Laws/KeepsImages.lean ====
section
/-! SUPPORT. The operations of Machine/Images.lean keep the queue and the invariant (`State.Keeps`). -/

namespace Sys2Proof.Machine

set_option Elab.async false
set_option linter.unusedVariables false

theorem State.switchNode_keeps {m : Nat} {s0 : State} (s : State) (id : ℕ) (h : s0.Keeps m s) (w : Within 0x88 m := by exact Within.of (by assumption) (by decide)) :
    s0.Keeps m (State.switchNode s id) := by
  unfold State.switchNode
  split
  · extract_lets a0 a1
    clear_value a0
    clear_value a1
    split
    · with_reducible apply State.wr_keeps (w := w.of (by decide))
      with_reducible apply State.setStr_keeps (w := w.of (by decide))
      with_reducible assumption
    · with_reducible apply State.setStr_keeps (w := w.of (by decide))
      with_reducible assumption
  · with_reducible assumption

theorem State.maybeSwitch_keeps {m : Nat} {s0 : State} (s : State) (id : ℕ) (fs : Bool) (h : s0.Keeps m s) (w : Within 0x88 m := by exact Within.of (by assumption) (by decide)) :
    s0.Keeps m (State.maybeSwitch s id fs) := by
  unfold State.maybeSwitch
  split
  · with_reducible apply State.switchNode_keeps (w := w.of (by decide))
    with_reducible assumption
  · with_reducible assumption

theorem State.sourceBack_keeps {m : Nat} {s0 : State} (s : State) (kind : ℕ) (source : ℕ) (h : s0.Keeps m s) (w : Within 0x80 m := by exact Within.of (by assumption) (by decide)) :
    s0.Keeps m (State.sourceBack s kind source) := by
  unfold State.sourceBack
  with_reducible apply State.setStr_keeps (w := w.of (by decide))
  with_reducible assumption

end Sys2Proof.Machine
end

