-- ==== Sys2Proof/Laws/KeepsIslands.lean ====
section
/-! SUPPORT. The operations of Machine/Islands.lean keep the queue and the invariant (`State.Keeps`). -/

namespace Sys2Proof.Machine

set_option Elab.async false
set_option linter.unusedVariables false

theorem State.islandOn_keeps {m : Nat} {s0 : State} (s : State) (n : ℕ) (st : ℕ) (h : s0.Keeps m s) (w : Within 0x4000008 m := by exact Within.of (by assumption) (by decide)) :
    s0.Keeps m (State.islandOn s n st) := by
  unfold State.islandOn
  with_reducible apply State.setPwr_keeps (w := w.of (by decide))
  with_reducible apply State.wr_keeps (w := w.of (by decide))
  with_reducible assumption

theorem State.islandOff_keeps {m : Nat} {s0 : State} (s : State) (n : ℕ) (h : s0.Keeps m s) (w : Within 0x4000008 m := by exact Within.of (by assumption) (by decide)) :
    s0.Keeps m (State.islandOff s n) := by
  unfold State.islandOff
  extract_lets a0 a1
  clear_value a0
  clear_value a1
  with_reducible apply State.setPwr_keeps (w := w.of (by decide))
  with_reducible apply State.wr_keeps (w := w.of (by decide))
  with_reducible assumption

theorem State.wakeIsland_keeps {m : Nat} {s0 : State} (s : State) (n : ℕ) (h : s0.Keeps m s) (w : Within 0x4000008 m := by exact Within.of (by assumption) (by decide)) :
    s0.Keeps m (State.wakeIsland s n) := by
  unfold State.wakeIsland
  with_reducible apply State.inc_keeps (w := w.of (by decide))
  with_reducible apply State.islandOn_keeps (w := w.of (by decide))
  with_reducible assumption

theorem State.setIdle_keeps {m : Nat} {s0 : State} (s : State) (n : ℕ) (v : ℕ) (h : s0.Keeps m s) (w : Within 0x4000000 m := by exact Within.of (by assumption) (by decide)) :
    s0.Keeps m (State.setIdle s n v) := by
  unfold State.setIdle
  with_reducible apply State.setPwr_keeps (w := w.of (by decide))
  with_reducible assumption

theorem State.islandDemand_keeps {m : Nat} {s0 : State} (s : State) (n : ℕ) (h : s0.Keeps m s) (w : Within 0x4000008 m := by exact Within.of (by assumption) (by decide)) :
    s0.Keeps m (State.islandDemand s n) := by
  unfold State.islandDemand
  split
  · with_reducible assumption
  · split
    · with_reducible apply State.wakeIsland_keeps (w := w.of (by decide))
      with_reducible assumption
    · with_reducible apply State.setIdle_keeps (w := w.of (by decide))
      with_reducible assumption
    · with_reducible apply State.wr_keeps (w := w.of (by decide))
      with_reducible assumption
    · with_reducible assumption

end Sys2Proof.Machine
end

