-- ==== Sys2Proof/Laws/KeepsClock.lean ====
section
/-! SUPPORT. The operations of Machine/Clock.lean keep the queue and the invariant (`State.Keeps`). -/

namespace Sys2Proof.Machine

set_option Elab.async false
set_option linter.unusedVariables false

theorem State.setRate_keeps {m : Nat} {s0 : State} (s : State) (r : ℕ) (h : s0.Keeps m s) (w : Within 0x10008 m := by exact Within.of (by assumption) (by decide)) :
    s0.Keeps m (State.setRate s r) := by
  unfold State.setRate
  extract_lets a0 a1
  clear_value a0
  clear_value a1
  with_reducible apply State.wr_keeps (w := w.of (by decide))
  with_reducible apply State.setPtp_keeps (w := w.of (by decide))
  with_reducible assumption

end Sys2Proof.Machine
end

