-- ==== Sys2Proof/Laws/KeepsQueues.lean ====
section
/-! SUPPORT. The operations of Machine/Queues.lean keep the queue and the invariant (`State.Keeps`). -/

namespace Sys2Proof.Machine

set_option Elab.async false
set_option linter.unusedVariables false

theorem State.ringWrite_keeps {m : Nat} {s0 : State} (s : State) (a : ℕ) (b : List Byte) (h : s0.Keeps m s) (w : Within 0x5018 m := by exact Within.of (by assumption) (by decide)) :
    s0.Keeps m (State.ringWrite s a b) := by
  unfold State.ringWrite
  with_reducible apply State.physWrite_keeps (w := w.of (by decide))
  with_reducible assumption

theorem State.takeSeq_keeps {m : Nat} {s0 : State} (s : State) (stream : ℕ) (h : s0.Keeps m s) (w : Within 0x100 m := by exact Within.of (by assumption) (by decide)) :
    s0.Keeps m ((State.takeSeq s stream).2) := by
  unfold State.takeSeq
  extract_lets a0 a1
  clear_value a0
  clear_value a1
  dsimp only
  with_reducible apply State.setHq_keeps (w := w.of (by decide))
  with_reducible assumption

theorem State.takeSeq_keeps_eq {m : Nat} {s0 : State} {s : State} {stream : ℕ} {a : _} {t : State} (h : s0.Keeps m s)  (e : State.takeSeq s stream = (a, t)) (w : Within 0x100 m := by exact Within.of (by assumption) (by decide)) :
    s0.Keeps m t :=
  State.keeps_snd_eq (State.takeSeq_keeps s stream h ) e

theorem State.reserve_keeps {m : Nat} {s0 : State} (s : State) (qid : ℕ) (n : ℕ) (h : s0.Keeps m s) (w : Within 0x100 m := by exact Within.of (by assumption) (by decide)) :
    s0.Keeps m ((State.reserve s qid n).2) := by
  unfold State.reserve
  extract_lets a0 a1 a2
  clear_value a0
  clear_value a1
  clear_value a2
  dsimp only
  with_reducible apply State.setQueue_keeps (w := w.of (by decide))
  with_reducible assumption

theorem State.reserve_keeps_eq {m : Nat} {s0 : State} {s : State} {qid : ℕ} {n : ℕ} {a : _} {t : State} (h : s0.Keeps m s)  (e : State.reserve s qid n = (a, t)) (w : Within 0x100 m := by exact Within.of (by assumption) (by decide)) :
    s0.Keeps m t :=
  State.keeps_snd_eq (State.reserve_keeps s qid n h ) e

theorem State.histCount_keeps {m : Nat} {s0 : State} (s : State) (src : ℕ) (id : ℕ) (wx : ℕ) (h : s0.Keeps m s) (w : Within 0x8 m := by exact Within.of (by assumption) (by decide)) :
    s0.Keeps m (State.histCount s src id wx) := by
  unfold State.histCount
  with_reducible apply State.each_keeps
  · intro x0 x1 x2
    split
    · with_reducible apply State.inc_keeps (w := w.of (by decide))
      with_reducible assumption
    · with_reducible assumption
  · with_reducible assumption

theorem State.commitDemand_keeps {m : Nat} {s0 : State} (s : State) (qid : ℕ) (h : s0.Keeps m s) (w : Within 0x4000008 m := by exact Within.of (by assumption) (by decide)) :
    s0.Keeps m (State.commitDemand s qid) := by
  unfold State.commitDemand
  split
  · with_reducible assumption
  · split
    · with_reducible assumption
    · split
      · with_reducible assumption
      · with_reducible apply State.islandDemand_keeps (w := w.of (by decide))
        with_reducible assumption

theorem State.pop_keeps {m : Nat} {s0 : State} (s : State) (qid : ℕ) (idx : ℕ) (h : s0.Keeps m s) (w : Within 0x108 m := by exact Within.of (by assumption) (by decide)) :
    s0.Keeps m (State.pop s qid idx) := by
  unfold State.pop
  extract_lets a0 a1 a2
  clear_value a0
  clear_value a1
  have k3 : s0.Keeps m a2 := by
    unfold a2
    with_reducible apply State.histCount_keeps (w := w.of (by decide))
    with_reducible assumption
  clear_value a2
  split
  · with_reducible assumption
  · with_reducible apply State.setQueue_keeps (w := w.of (by decide))
    with_reducible assumption

theorem State.popVoid_keeps {m : Nat} {s0 : State} (s : State) (qid : ℕ) (idx : ℕ) (h : s0.Keeps m s) (w : Within 0x108 m := by exact Within.of (by assumption) (by decide)) :
    s0.Keeps m (State.popVoid s qid idx) := by
  unfold State.popVoid
  extract_lets a0
  clear_value a0
  split
  · with_reducible apply State.pop_keeps (w := w.of (by decide))
    with_reducible assumption
  · with_reducible assumption

theorem State.commit_keeps {m : Nat} {s0 : State} (s : State) (qid : ℕ) (h : s0.Keeps m s) (w : Within 0x4005118 m := by exact Within.of (by assumption) (by decide)) :
    s0.Keeps m (State.commit s qid) := by
  unfold State.commit
  extract_lets a0 a1 a2 a3 a4 a5 a6
  clear_value a0
  clear_value a1
  clear_value a2
  have k7 : s0.Keeps m a3 := by
    unfold a3
    with_reducible apply State.setQueue_keeps (w := w.of (by decide))
    with_reducible assumption
  clear_value a3
  have k8 : s0.Keeps m a4 := by
    unfold a4
    with_reducible apply State.each_keeps
    · intro x9 x10 x11
      with_reducible apply State.ringWrite_keeps (w := w.of (by decide))
      with_reducible assumption
    · with_reducible assumption
  clear_value a4
  have k12 : s0.Keeps m a5 := by
    unfold a5
    with_reducible apply State.notify_keeps (w := w.of (by decide))
    with_reducible assumption
  clear_value a5
  have k13 : s0.Keeps m a6 := by
    unfold a6
    with_reducible apply State.each_keeps
    · intro x14 x15 x16
      with_reducible apply State.popVoid_keeps (w := w.of (by decide))
      with_reducible assumption
    · with_reducible assumption
  clear_value a6
  split
  · with_reducible assumption
  · with_reducible apply State.commitDemand_keeps (w := w.of (by decide))
    with_reducible assumption

theorem State.complete_keeps {m : Nat} {s0 : State} (s : State) (qid : ℕ) (idx : ℕ) (ex : RingEntry) (h : s0.Keeps m s) (w : Within 0x4005118 m := by exact Within.of (by assumption) (by decide)) :
    s0.Keeps m (State.complete s qid idx ex) := by
  unfold State.complete
  extract_lets a0 a1
  clear_value a0
  have k2 : s0.Keeps m a1 := by
    unfold a1
    with_reducible apply State.ringWrite_keeps (w := w.of (by decide))
    with_reducible assumption
  clear_value a1
  with_reducible apply State.commit_keeps (w := w.of (by decide))
  with_reducible apply State.setQueue_keeps (w := w.of (by decide))
  with_reducible assumption

theorem State.completeVoid_keeps {m : Nat} {s0 : State} (s : State) (qid : ℕ) (idx : ℕ) (seq : ℕ) (h : s0.Keeps m s) (w : Within 0x4005118 m := by exact Within.of (by assumption) (by decide)) :
    s0.Keeps m (State.completeVoid s qid idx seq) := by
  unfold State.completeVoid
  with_reducible apply State.complete_keeps (w := w.of (by decide))
  with_reducible assumption

theorem State.fillEntry_keeps {m : Nat} {s0 : State} (s : State) (qid : ℕ) (idx : ℕ) (u : Tile) (h : s0.Keeps m s) (w : Within 0x4005118 m := by exact Within.of (by assumption) (by decide)) :
    s0.Keeps m (State.fillEntry s qid idx u) := by
  unfold State.fillEntry
  extract_lets a0
  clear_value a0
  with_reducible apply State.complete_keeps (w := w.of (by decide))
  with_reducible apply State.setBytes_keeps (w := w.of (by decide))
  with_reducible assumption

theorem State.putTile_keeps {m : Nat} {s0 : State} (s : State) (qids : List ℕ) (u : Tile) (h : s0.Keeps m s) (w : Within 0x4005118 m := by exact Within.of (by assumption) (by decide)) :
    s0.Keeps m (State.putTile s qids u) := by
  unfold State.putTile
  extract_lets a0 a1 a2
  have k3 : s0.Keeps m a0.2 := by
    unfold a0
    with_reducible apply State.takeSeq_keeps (w := w.of (by decide))
    with_reducible assumption
  clear_value a0
  clear_value a1
  clear_value a2
  with_reducible apply State.each_keeps
  · intro x4 x5 x6
    extract_lets a7
    have k8 : s0.Keeps m a7.2 := by
      unfold a7
      with_reducible apply State.reserve_keeps (w := w.of (by decide))
      with_reducible assumption
    clear_value a7
    with_reducible apply State.fillEntry_keeps (w := w.of (by decide))
    with_reducible assumption
  · with_reducible assumption

theorem State.nextTile_keeps {m : Nat} {s0 : State} (s : State) (qid : ℕ) (h : s0.Keeps m s) (w : Within 0x108 m := by exact Within.of (by assumption) (by decide)) :
    s0.Keeps m ((State.nextTile s qid).2) := by
  unfold State.nextTile
  extract_lets a0 a1 a2 a3 a4
  clear_value a0
  clear_value a1
  clear_value a2
  clear_value a3
  have k5 : s0.Keeps m a4 := by
    unfold a4
    with_reducible apply State.each_keeps
    · intro x6 x7 x8
      with_reducible apply State.pop_keeps (w := w.of (by decide))
      with_reducible assumption
    · with_reducible assumption
  clear_value a4
  split
  · with_reducible assumption
  · with_reducible assumption

theorem State.nextTile_keeps_eq {m : Nat} {s0 : State} {s : State} {qid : ℕ} {a : _} {t : State} (h : s0.Keeps m s)  (e : State.nextTile s qid = (a, t)) (w : Within 0x108 m := by exact Within.of (by assumption) (by decide)) :
    s0.Keeps m t :=
  State.keeps_snd_eq (State.nextTile_keeps s qid h ) e

theorem State.hqStatus_keeps {m : Nat} {s0 : State} (s : State) (code : ℕ) (h : s0.Keeps m s) (w : Within 0x8 m := by exact Within.of (by assumption) (by decide)) :
    s0.Keeps m (State.hqStatus s code) := by
  unfold State.hqStatus
  with_reducible apply State.wr_keeps (w := w.of (by decide))
  with_reducible assumption

theorem State.sourceOmit_keeps {m : Nat} {s0 : State} (s : State) (qid : ℕ) (h : s0.Keeps m s) (w : Within 0x108 m := by exact Within.of (by assumption) (by decide)) :
    s0.Keeps m (State.sourceOmit s qid) := by
  unfold State.sourceOmit
  extract_lets a0 a1
  clear_value a0
  have k2 : s0.Keeps m a1 := by
    unfold a1
    with_reducible apply State.setQueue_keeps (w := w.of (by decide))
    with_reducible assumption
  clear_value a1
  with_reducible apply State.irqAlways_keeps (w := w.of (by decide))
  with_reducible apply State.hqStatus_keeps (w := w.of (by decide))
  with_reducible apply State.inc_keeps (w := w.of (by decide))
  with_reducible assumption

theorem State.putSource_keeps {m : Nat} {s0 : State} (s : State) (qids : List ℕ) (u : Tile) (h : s0.Keeps m s) (w : Within 0x4005118 m := by exact Within.of (by assumption) (by decide)) :
    s0.Keeps m (State.putSource s qids u) := by
  unfold State.putSource
  extract_lets a0 a1 a2 a3
  clear_value a0
  clear_value a1
  have k4 : s0.Keeps m a2 := by
    unfold a2
    with_reducible apply State.each_keeps
    · intro x5 x6 x7
      with_reducible apply State.sourceOmit_keeps (w := w.of (by decide))
      with_reducible assumption
    · with_reducible assumption
  clear_value a2
  have k8 : s0.Keeps m a3 := by
    unfold a3
    with_reducible apply State.each_keeps
    · intro x9 x10 x11
      with_reducible apply State.setQueue_keeps (w := w.of (by decide))
      with_reducible assumption
    · with_reducible assumption
  clear_value a3
  split
  · with_reducible assumption
  · with_reducible apply State.putTile_keeps (w := w.of (by decide))
    with_reducible assumption

theorem State.sourceDrain_keeps {m : Nat} {s0 : State} (s : State) (qids : List Nat) (l : List Tile) (h : s0.Keeps m s) (w : Within 0x4005118 m := by exact Within.of (by assumption) (by decide)) :
    s0.Keeps m ((s.sourceDrain qids l).2) := by
  induction l generalizing s with
  | nil => exact h
  | cons b tl ih =>
    unfold State.sourceDrain
    split
    · exact ih _ (State.putSource_keeps s _ _ h)
    · exact h

theorem State.sourceDrain_keeps_eq {m : Nat} {s0 s : State} {qids : List Nat} {l : List Tile} {a : _} {t : State} (h : s0.Keeps m s) (e : s.sourceDrain qids l = (a, t)) (w : Within 0x4005118 m := by exact Within.of (by assumption) (by decide)) :
    s0.Keeps m t := by
  exact State.keeps_snd_eq (State.sourceDrain_keeps s qids l h) e

theorem State.sourcePush_keeps {m : Nat} {s0 : State} (s : State) (qids : List ℕ) (cap : ℕ) (l : List Tile) (u : Tile) (h : s0.Keeps m s) (w : Within 0x4005118 m := by exact Within.of (by assumption) (by decide)) :
    s0.Keeps m ((State.sourcePush s qids cap l u).2) := by
  unfold State.sourcePush
  extract_lets a0
  have k1 : s0.Keeps m a0.2 := by
    unfold a0
    with_reducible apply State.sourceDrain_keeps (w := w.of (by decide))
    with_reducible assumption
  clear_value a0
  split
  · with_reducible assumption
  · split
    · with_reducible assumption
    · with_reducible apply State.sourceDrain_keeps (w := w.of (by decide))
      with_reducible apply State.putSource_keeps (w := w.of (by decide))
      with_reducible assumption

theorem State.sourcePush_keeps_eq {m : Nat} {s0 : State} {s : State} {qids : List ℕ} {cap : ℕ} {l : List Tile} {u : Tile} {a : _} {t : State} (h : s0.Keeps m s)  (e : State.sourcePush s qids cap l u = (a, t)) (w : Within 0x4005118 m := by exact Within.of (by assumption) (by decide)) :
    s0.Keeps m t :=
  State.keeps_snd_eq (State.sourcePush_keeps s qids cap l u h ) e

end Sys2Proof.Machine
end

