-- ==== Sys2Proof/Laws/KeepsSeals.lean ====
section
/-! SUPPORT. The operations of Machine/Seals.lean keep the queue and the invariant (`State.Keeps`). -/

namespace Sys2Proof.Machine

set_option Elab.async false
set_option linter.unusedVariables false

theorem State.captureFailure_keeps {m : Nat} {s0 : State} (s : State) (mesh : ℕ) (hx : TileHdr) (computed : ℕ) (code : ℕ) (policy : ℕ) (halted : Bool) (fill : Bool) (h : s0.Keeps m s) (w : Within 0x8 m := by exact Within.of (by assumption) (by decide)) :
    s0.Keeps m (State.captureFailure s mesh hx computed code policy halted fill) := by
  unfold State.captureFailure
  split
  · with_reducible apply State.inc_keeps (w := w.of (by decide))
    with_reducible assumption
  · extract_lets a0 a1 a2 a3
    have k4 : s0.Keeps m a0 := by
      unfold a0
      with_reducible apply State.wr_keeps (w := w.of (by decide))
      with_reducible apply State.wr_keeps (w := w.of (by decide))
      with_reducible assumption
    clear_value a0
    have k5 : s0.Keeps m a1 := by
      unfold a1
      with_reducible apply State.wr_keeps (w := w.of (by decide))
      with_reducible apply State.wr_keeps (w := w.of (by decide))
      with_reducible apply State.wr_keeps (w := w.of (by decide))
      with_reducible assumption
    clear_value a1
    have k6 : s0.Keeps m a2 := by
      unfold a2
      with_reducible apply State.wr_keeps (w := w.of (by decide))
      with_reducible apply State.wr_keeps (w := w.of (by decide))
      with_reducible apply State.wr_keeps (w := w.of (by decide))
      with_reducible assumption
    clear_value a2
    have k7 : s0.Keeps m a3 := by
      unfold a3
      with_reducible apply State.wr_keeps (w := w.of (by decide))
      with_reducible apply State.wrB_keeps (w := w.of (by decide))
      with_reducible apply State.wrB_keeps (w := w.of (by decide))
      with_reducible assumption
    clear_value a3
    with_reducible apply State.irq_keeps (w := w.of (by decide))
    with_reducible apply State.wr_keeps (w := w.of (by decide))
    with_reducible assumption

theorem State.countFailure_keeps {m : Nat} {s0 : State} (s : State) (mesh : ℕ) (u : Tile) (f : SealFail) (policy : ℕ) (halted : Bool) (fill : Bool) (comp : ℕ) (h : s0.Keeps m s) (w : Within 0x8 m := by exact Within.of (by assumption) (by decide)) :
    s0.Keeps m (State.countFailure s mesh u f policy halted fill comp) := by
  unfold State.countFailure
  split
  · with_reducible apply State.captureFailure_keeps (w := w.of (by decide))
    with_reducible apply State.inc_keeps (w := w.of (by decide))
    with_reducible assumption
  · split
    · with_reducible apply State.inc_keeps (w := w.of (by decide))
      with_reducible assumption
    · with_reducible apply State.captureFailure_keeps (w := w.of (by decide))
      with_reducible apply State.inc_keeps (w := w.of (by decide))
      with_reducible assumption

theorem State.haltEdge_keeps {m : Nat} {s0 : State} (s : State) (q : ℕ) (h : s0.Keeps m s) (w : Within 0x128 m := by exact Within.of (by assumption) (by decide)) :
    s0.Keeps m (State.haltEdge s q) := by
  unfold State.haltEdge
  extract_lets a0 a1 a2 a3
  clear_value a0
  have k4 : s0.Keeps m a1 := by
    unfold a1
    with_reducible apply State.setQueue_keeps (w := w.of (by decide))
    with_reducible assumption
  clear_value a1
  clear_value a2
  have k5 : s0.Keeps m a3 := by
    unfold a3
    with_reducible apply State.setEdgeSeal_keeps (w := w.of (by decide))
    with_reducible assumption
  clear_value a3
  with_reducible apply State.irq_keeps (w := w.of (by decide))
  with_reducible apply State.inc_keeps (w := w.of (by decide))
  with_reducible assumption

theorem State.unhaltEdge_keeps {m : Nat} {s0 : State} (s : State) (q : ℕ) (h : s0.Keeps m s) (w : Within 0x128 m := by exact Within.of (by assumption) (by decide)) :
    s0.Keeps m (State.unhaltEdge s q) := by
  unfold State.unhaltEdge
  extract_lets a0 a1 a2 a3
  clear_value a0
  have k4 : s0.Keeps m a1 := by
    unfold a1
    with_reducible apply State.setQueue_keeps (w := w.of (by decide))
    with_reducible assumption
  clear_value a1
  clear_value a2
  have k5 : s0.Keeps m a3 := by
    unfold a3
    with_reducible apply State.setEdgeSeal_keeps (w := w.of (by decide))
    with_reducible assumption
  clear_value a3
  with_reducible apply State.wr_keeps (w := w.of (by decide))
  with_reducible assumption

theorem State.edgePassed_keeps {m : Nat} {s0 : State} (s : State) (ed : Edge) (p : PixFmt) (u : Tile) (h : s0.Keeps m s) (w : Within 0x20 m := by exact Within.of (by assumption) (by decide)) :
    s0.Keeps m (State.edgePassed s ed p u) := by
  unfold State.edgePassed
  extract_lets a0 a1
  clear_value a0
  clear_value a1
  split
  · with_reducible apply State.setEdgeSeal_keeps (w := w.of (by decide))
    with_reducible assumption
  · with_reducible assumption

theorem State.applyPolicy_keeps {m : Nat} {s0 : State} (s : State) (ed : Edge) (p : PixFmt) (mesh : ℕ) (u : Tile) (f : SealFail) (comp : ℕ) (h : s0.Keeps m s) (w : Within 0x128 m := by exact Within.of (by assumption) (by decide)) :
    s0.Keeps m ((State.applyPolicy s ed p mesh u f comp).2) := by
  unfold State.applyPolicy
  split
  · extract_lets a0 a1 a2 a3
    clear_value a0
    have k4 : s0.Keeps m a1 := by
      unfold a1
      with_reducible apply State.countFailure_keeps (w := w.of (by decide))
      with_reducible assumption
    clear_value a1
    clear_value a2
    have k5 : s0.Keeps m a3 := by
      unfold a3
      with_reducible apply State.setEdgeSeal_keeps (w := w.of (by decide))
      with_reducible assumption
    clear_value a3
    dsimp only
    with_reducible apply State.inc_keeps (w := w.of (by decide))
    with_reducible assumption
  · extract_lets a6
    have k7 : s0.Keeps m a6 := by
      unfold a6
      with_reducible apply State.countFailure_keeps (w := w.of (by decide))
      with_reducible assumption
    clear_value a6
    dsimp only
    with_reducible apply State.inc_keeps (w := w.of (by decide))
    with_reducible apply State.haltEdge_keeps (w := w.of (by decide))
    with_reducible assumption
  · extract_lets a8
    have k9 : s0.Keeps m a8 := by
      unfold a8
      with_reducible apply State.countFailure_keeps (w := w.of (by decide))
      with_reducible assumption
    clear_value a8
    split
    · with_reducible assumption
    · with_reducible assumption

theorem State.applyPolicy_keeps_eq {m : Nat} {s0 : State} {s : State} {ed : Edge} {p : PixFmt} {mesh : ℕ} {u : Tile} {f : SealFail} {comp : ℕ} {a : _} {t : State} (h : s0.Keeps m s)  (e : State.applyPolicy s ed p mesh u f comp = (a, t)) (w : Within 0x128 m := by exact Within.of (by assumption) (by decide)) :
    s0.Keeps m t :=
  State.keeps_snd_eq (State.applyPolicy_keeps s ed p mesh u f comp h ) e

theorem State.checkTile_keeps {m : Nat} {s0 : State} (s : State) (ed : Edge) (mesh : ℕ) (u : Tile) (checkSeal : Bool) (comp : ℕ) (h : s0.Keeps m s) (w : Within 0x128 m := by exact Within.of (by assumption) (by decide)) :
    s0.Keeps m ((State.checkTile s ed mesh u checkSeal comp).2) := by
  unfold State.checkTile
  extract_lets a0 a1
  clear_value a0
  have k2 : s0.Keeps m a1 := by
    unfold a1
    split
    · with_reducible apply State.unhaltEdge_keeps (w := w.of (by decide))
      with_reducible assumption
    · with_reducible assumption
  clear_value a1
  split
  · dsimp only
    with_reducible apply State.inc_keeps (w := w.of (by decide))
    with_reducible assumption
  · split
    · with_reducible apply State.applyPolicy_keeps (w := w.of (by decide))
      with_reducible assumption
    · split
      · dsimp only
        with_reducible apply State.edgePassed_keeps (w := w.of (by decide))
        with_reducible assumption
      · with_reducible assumption

theorem State.checkTile_keeps_eq {m : Nat} {s0 : State} {s : State} {ed : Edge} {mesh : ℕ} {u : Tile} {checkSeal : Bool} {comp : ℕ} {a : _} {t : State} (h : s0.Keeps m s)  (e : State.checkTile s ed mesh u checkSeal comp = (a, t)) (w : Within 0x128 m := by exact Within.of (by assumption) (by decide)) :
    s0.Keeps m t :=
  State.keeps_snd_eq (State.checkTile_keeps s ed mesh u checkSeal comp h ) e

theorem State.recordCheck_keeps {m : Nat} {s0 : State} (s : State) (u : Tile) (h : s0.Keeps m s) (w : Within 0x8 m := by exact Within.of (by assumption) (by decide)) :
    s0.Keeps m ((State.recordCheck s u).2) := by
  unfold State.recordCheck
  split
  · dsimp only
    with_reducible apply State.countFailure_keeps (w := w.of (by decide))
    with_reducible assumption
  · with_reducible assumption

theorem State.recordCheck_keeps_eq {m : Nat} {s0 : State} {s : State} {u : Tile} {a : _} {t : State} (h : s0.Keeps m s)  (e : State.recordCheck s u = (a, t)) (w : Within 0x8 m := by exact Within.of (by assumption) (by decide)) :
    s0.Keeps m t :=
  State.keeps_snd_eq (State.recordCheck_keeps s u h ) e

theorem State.sealHaltClr_keeps {m : Nat} {s0 : State} (s : State) (val : Word) (h : s0.Keeps m s) (w : Within 0x20 m := by exact Within.of (by assumption) (by decide)) :
    s0.Keeps m (State.sealHaltClr s val) := by
  unfold State.sealHaltClr
  extract_lets a0 a1
  clear_value a0
  clear_value a1
  split
  · with_reducible apply State.setEdgeSeal_keeps (w := w.of (by decide))
    with_reducible assumption
  · with_reducible assumption

theorem State.sealPop_keeps {m : Nat} {s0 : State} (s : State) (val : Word) (h : s0.Keeps m s) (w : Within 0x8 m := by exact Within.of (by assumption) (by decide)) :
    s0.Keeps m (State.sealPop s val) := by
  unfold State.sealPop
  split
  · with_reducible apply State.wr_keeps (w := w.of (by decide))
    with_reducible assumption
  · with_reducible assumption

theorem State.sealClear_keeps {m : Nat} {s0 : State} (s : State) (inc : BitVec 6) (h : s0.Keeps m s) (w : Within 0x8 m := by exact Within.of (by assumption) (by decide)) :
    s0.Keeps m (State.sealClear s inc) := by
  unfold State.sealClear
  with_reducible apply State.each_keeps
  · intro x0 x1 x2
    with_reducible apply State.wr_keeps (w := w.of (by decide))
    with_reducible assumption
  · with_reducible assumption

theorem State.sealCtrl_keeps {m : Nat} {s0 : State} (s : State) (val : Word) (inc : BitVec 6) (h : s0.Keeps m s) (w : Within 0x8 m := by exact Within.of (by assumption) (by decide)) :
    s0.Keeps m (State.sealCtrl s val inc) := by
  unfold State.sealCtrl
  extract_lets a0
  have k1 : s0.Keeps m a0 := by
    unfold a0
    with_reducible apply State.plainWrite_keeps (w := w.of (by decide))
    with_reducible assumption
  clear_value a0
  split
  · with_reducible apply State.sealClear_keeps (w := w.of (by decide))
    with_reducible assumption
  · with_reducible assumption

theorem execSealHaltClr_keeps {m : Nat} {s0 : State} (src : Agent) (val : Word) (s : State) (h : s0.Keeps m s) {t : State} (e : execSealHaltClr src val s = .next t) (w : Within 0x8028 m := by exact Within.of (by assumption) (by decide)) :
    s0.Keeps m t := by
  unfold execSealHaltClr at e
  injection e with e
  subst e
  with_reducible apply State.writeReg_keeps (w := w.of (by decide))
  · with_reducible assumption
  · intro x0 x1
    with_reducible apply State.sealHaltClr_keeps (w := w.of (by decide))
    with_reducible assumption

theorem execSealEvtPop_keeps {m : Nat} {s0 : State} (src : Agent) (val : Word) (s : State) (h : s0.Keeps m s) {t : State} (e : execSealEvtPop src val s = .next t) (w : Within 0x8008 m := by exact Within.of (by assumption) (by decide)) :
    s0.Keeps m t := by
  unfold execSealEvtPop at e
  injection e with e
  subst e
  with_reducible apply State.writeReg_keeps (w := w.of (by decide))
  · with_reducible assumption
  · intro x0 x1
    with_reducible apply State.sealPop_keeps (w := w.of (by decide))
    with_reducible assumption

theorem execClrCounts_keeps {m : Nat} {s0 : State} (src : Agent) (val : Word) (inc : BitVec 6) (s : State) (h : s0.Keeps m s) {t : State} (e : execClrCounts src val inc s = .next t) (w : Within 0x8008 m := by exact Within.of (by assumption) (by decide)) :
    s0.Keeps m t := by
  unfold execClrCounts at e
  injection e with e
  subst e
  with_reducible apply State.writeReg_keeps (w := w.of (by decide))
  · with_reducible assumption
  · intro x0 x1
    with_reducible apply State.sealCtrl_keeps (w := w.of (by decide))
    with_reducible assumption

theorem State.ckvShow_keeps {m : Nat} {s0 : State} (s : State) (n : ℕ) (alg : ℕ) (r : ℕ) (h : s0.Keeps m s) (w : Within 0x8 m := by exact Within.of (by assumption) (by decide)) :
    s0.Keeps m (State.ckvShow s n alg r) := by
  unfold State.ckvShow
  with_reducible apply State.wr_keeps (w := w.of (by decide))
  with_reducible apply State.wr_keeps (w := w.of (by decide))
  with_reducible assumption

theorem State.ckvBegin_keeps {m : Nat} {s0 : State} (s : State) (n : ℕ) (alg : ℕ) (fold : ℕ) (h : s0.Keeps m s) (w : Within 0x48 m := by exact Within.of (by assumption) (by decide)) :
    s0.Keeps m (State.ckvBegin s n alg fold) := by
  unfold State.ckvBegin
  split
  · with_reducible apply State.wr_keeps (w := w.of (by decide))
    with_reducible apply State.wr_keeps (w := w.of (by decide))
    with_reducible assumption
  · extract_lets a0 a1
    clear_value a0
    have k2 : s0.Keeps m a1 := by
      unfold a1
      with_reducible apply State.setCkvUnit_keeps (w := w.of (by decide))
      with_reducible assumption
    clear_value a1
    with_reducible apply State.wr_keeps (w := w.of (by decide))
    with_reducible apply State.wr_keeps (w := w.of (by decide))
    with_reducible apply State.ckvShow_keeps (w := w.of (by decide))
    with_reducible assumption

theorem State.ckvLoad_keeps {m : Nat} {s0 : State} (s : State) (n : ℕ) (h : s0.Keeps m s) (w : Within 0x48 m := by exact Within.of (by assumption) (by decide)) :
    s0.Keeps m (State.ckvLoad s n) := by
  unfold State.ckvLoad
  extract_lets a0
  clear_value a0
  split
  · with_reducible apply State.setCkvUnit_keeps (w := w.of (by decide))
    with_reducible assumption
  · with_reducible apply State.ckvBegin_keeps (w := w.of (by decide))
    with_reducible apply State.setCkvUnit_keeps (w := w.of (by decide))
    with_reducible assumption
  · with_reducible assumption

theorem State.ckvBusy_keeps {m : Nat} {s0 : State} (s : State) (n : ℕ) (h : s0.Keeps m s) (w : Within 0x8 m := by exact Within.of (by assumption) (by decide)) :
    s0.Keeps m (State.ckvBusy s n) := by
  unfold State.ckvBusy
  extract_lets a0
  clear_value a0
  with_reducible apply State.wrB_keeps (w := w.of (by decide))
  with_reducible assumption

theorem State.ckvConsume_keeps {m : Nat} {s0 : State} (s : State) (n : ℕ) (h : s0.Keeps m s) (w : Within 0x48 m := by exact Within.of (by assumption) (by decide)) :
    s0.Keeps m (State.ckvConsume s n) := by
  unfold State.ckvConsume
  extract_lets a0
  clear_value a0
  split
  · with_reducible apply State.ckvBusy_keeps (w := w.of (by decide))
    with_reducible apply State.ckvLoad_keeps (w := w.of (by decide))
    with_reducible assumption
  · extract_lets a1 a2 a3
    have k4 : s0.Keeps m a1 := by
      unfold a1
      with_reducible apply State.setCkvUnit_keeps (w := w.of (by decide))
      with_reducible assumption
    clear_value a1
    have k5 : s0.Keeps m a2 := by
      unfold a2
      with_reducible apply State.ckvShow_keeps (w := w.of (by decide))
      with_reducible assumption
    clear_value a2
    have k6 : s0.Keeps m a3 := by
      unfold a3
      with_reducible apply State.incWrap_keeps (w := w.of (by decide))
      with_reducible assumption
    clear_value a3
    with_reducible apply State.ckvBusy_keeps (w := w.of (by decide))
    with_reducible apply State.ckvLoad_keeps (w := w.of (by decide))
    with_reducible assumption

theorem State.ckvDrain_keeps {m : Nat} {s0 : State} (s : State) (n fuel : Nat) (h : s0.Keeps m s) (w : Within 0x48 m := by exact Within.of (by assumption) (by decide)) :
    s0.Keeps m ((s.ckvDrain n fuel)) := by
  induction fuel generalizing s with
  | zero => exact h
  | succ fuel ih =>
    exact ih _ (State.ckvConsume_keeps s n h)

theorem State.ckvWaitRoom_keeps {m : Nat} {s0 : State} (s : State) (n fuel : Nat) (h : s0.Keeps m s) (w : Within 0x48 m := by exact Within.of (by assumption) (by decide)) :
    s0.Keeps m ((s.ckvWaitRoom n fuel)) := by
  induction fuel generalizing s with
  | zero => exact h
  | succ fuel ih =>
    unfold State.ckvWaitRoom
    split
    · exact ih _ (State.ckvConsume_keeps s n h)
    · exact h

theorem State.ckvPut_keeps {m : Nat} {s0 : State} (s : State) (n : ℕ) (item : CkvItem) (h : s0.Keeps m s) (w : Within 0x48 m := by exact Within.of (by assumption) (by decide)) :
    s0.Keeps m (State.ckvPut s n item) := by
  unfold State.ckvPut
  extract_lets a0 a1 a2
  have k3 : s0.Keeps m a0 := by
    unfold a0
    with_reducible apply State.ckvWaitRoom_keeps (w := w.of (by decide))
    with_reducible assumption
  clear_value a0
  clear_value a1
  have k4 : s0.Keeps m a2 := by
    unfold a2
    with_reducible apply State.setCkvUnit_keeps (w := w.of (by decide))
    with_reducible assumption
  clear_value a2
  with_reducible apply State.ckvBusy_keeps (w := w.of (by decide))
  with_reducible apply State.ckvLoad_keeps (w := w.of (by decide))
  with_reducible assumption

theorem State.ckvCtrl_keeps {m : Nat} {s0 : State} (s : State) (n : ℕ) (val : Word) (h : s0.Keeps m s) (w : Within 0x48 m := by exact Within.of (by assumption) (by decide)) :
    s0.Keeps m (State.ckvCtrl s n val) := by
  unfold State.ckvCtrl
  extract_lets a0
  have k1 : s0.Keeps m a0 := by
    unfold a0
    with_reducible apply State.wr_keeps (w := w.of (by decide))
    with_reducible assumption
  clear_value a0
  split
  · with_reducible apply State.ckvPut_keeps (w := w.of (by decide))
    with_reducible assumption
  · with_reducible assumption

theorem State.ckvData_keeps {m : Nat} {s0 : State} (s : State) (n : ℕ) (lane : ℕ) (size : Size) (val : Word) (h : s0.Keeps m s) (w : Within 0x48 m := by exact Within.of (by assumption) (by decide)) :
    s0.Keeps m (State.ckvData s n lane size val) := by
  unfold State.ckvData
  split
  · with_reducible assumption
  · extract_lets a0
    have k1 : s0.Keeps m a0 := by
      unfold a0
      with_reducible apply State.ckvWaitRoom_keeps (w := w.of (by decide))
      with_reducible assumption
    clear_value a0
    split
    · with_reducible assumption
    · with_reducible apply State.ckvPut_keeps (w := w.of (by decide))
      with_reducible assumption

theorem execCkvStart_keeps {m : Nat} {s0 : State} (src : Agent) (unit : Fin 4) (val : Word) (s : State) (h : s0.Keeps m s) {t : State} (e : execCkvStart src unit val s = .next t) (w : Within 0x8048 m := by exact Within.of (by assumption) (by decide)) :
    s0.Keeps m t := by
  unfold execCkvStart at e
  injection e with e
  subst e
  with_reducible apply State.writeReg_keeps (w := w.of (by decide))
  · with_reducible assumption
  · intro x0 x1
    with_reducible apply State.ckvCtrl_keeps (w := w.of (by decide))
    with_reducible assumption

theorem execCkvDataWrite_keeps {m : Nat} {s0 : State} (src : Agent) (unit : Fin 4) (lane : Fin 4) (size : Size) (val : Word) (s : State) (h : s0.Keeps m s) {t : State} (e : execCkvDataWrite src unit lane size val s = .next t) (w : Within 0x8048 m := by exact Within.of (by assumption) (by decide)) :
    s0.Keeps m t := by
  unfold execCkvDataWrite at e
  injection e with e
  subst e
  with_reducible apply State.write_keeps (w := w.of (by decide))
  · with_reducible assumption
  · intro x0 x1
    with_reducible apply State.ckvData_keeps (w := w.of (by decide))
    with_reducible assumption

theorem execCkvByteConsumed_keeps {m : Nat} {s0 : State} (unit : Fin 4) (s : State) (h : s0.Keeps m s) {t : State} (e : execCkvByteConsumed unit s = .next t) (w : Within 0x48 m := by exact Within.of (by assumption) (by decide)) :
    s0.Keeps m t := by
  unfold execCkvByteConsumed at e
  injection e with e
  subst e
  with_reducible apply State.ckvConsume_keeps (w := w.of (by decide))
  with_reducible assumption

theorem execCkvResultRead_keeps {m : Nat} {s0 : State} (unit : Fin 4) (which : Fin 3) (s : State) (h : s0.Keeps m s) {t : State} (e : execCkvResultRead unit which s = .next t) (w : Within 0x4c m := by exact Within.of (by assumption) (by decide)) :
    s0.Keeps m t := by
  unfold execCkvResultRead at e
  injection e with e
  subst e
  with_reducible apply State.setReadData_keeps (w := w.of (by decide))
  with_reducible apply State.ckvDrain_keeps (w := w.of (by decide))
  with_reducible assumption

theorem State.sealRegWrite_keeps {m : Nat} {s0 : State} (s : State) (o : ℕ) (val : Word) (h : s0.Keeps m s) (w : Within 0x28 m := by exact Within.of (by assumption) (by decide)) :
    s0.Keeps m (State.sealRegWrite s o val) := by
  unfold State.sealRegWrite
  split
  · with_reducible apply State.sealCtrl_keeps (w := w.of (by decide))
    with_reducible assumption
  · split
    · with_reducible apply State.sealPop_keeps (w := w.of (by decide))
      with_reducible assumption
    · split
      · with_reducible apply State.sealHaltClr_keeps (w := w.of (by decide))
        with_reducible assumption
      · with_reducible apply State.plainWrite_keeps (w := w.of (by decide))
        with_reducible assumption

theorem State.ckvRegWrite_keeps {m : Nat} {s0 : State} (s : State) (o : ℕ) (size : Size) (val : Word) (h : s0.Keeps m s) (w : Within 0x48 m := by exact Within.of (by assumption) (by decide)) :
    s0.Keeps m (State.ckvRegWrite s o size val) := by
  unfold State.ckvRegWrite
  extract_lets a0 a1
  clear_value a0
  clear_value a1
  split
  · with_reducible assumption
  · split
    · with_reducible apply State.ckvData_keeps (w := w.of (by decide))
      with_reducible assumption
    · split
      · with_reducible assumption
      · split
        · with_reducible apply State.ckvCtrl_keeps (w := w.of (by decide))
          with_reducible assumption
        · with_reducible apply State.plainWrite_keeps (w := w.of (by decide))
          with_reducible assumption

end Sys2Proof.Machine
end

