-- ==== Sys2Proof/Laws/KeepsSched.lean ====
section
/-! SUPPORT. The operations of Machine/Sched.lean keep the queue and the invariant (`State.Keeps`). -/

namespace Sys2Proof.Machine

set_option Elab.async false
set_option linter.unusedVariables false

theorem State.noteSlots_keeps {m : Nat} {s0 : State} (s : State) (h : s0.Keeps m s) (w : Within 0x8 m := by exact Within.of (by assumption) (by decide)) :
    s0.Keeps m (State.noteSlots s) := by
  unfold State.noteSlots
  extract_lets a0
  clear_value a0
  with_reducible apply State.wr_keeps (w := w.of (by decide))
  with_reducible apply State.wr_keeps (w := w.of (by decide))
  with_reducible assumption

theorem State.claimPort_keeps {m : Nat} {s0 : State} (s : State) (n : Node) (p : ℕ) (h : s0.Keeps m s) (w : Within 0x100 m := by exact Within.of (by assumption) (by decide)) :
    s0.Keeps m ((State.claimPort s n p).2) := by
  unfold State.claimPort
  split
  · with_reducible assumption
  · extract_lets a0 a1
    clear_value a0
    clear_value a1
    dsimp only
    with_reducible apply State.setQueue_keeps (w := w.of (by decide))
    with_reducible assumption

theorem State.claimPort_keeps_eq {m : Nat} {s0 : State} {s : State} {n : Node} {p : ℕ} {a : _} {t : State} (h : s0.Keeps m s)  (e : State.claimPort s n p = (a, t)) (w : Within 0x100 m := by exact Within.of (by assumption) (by decide)) :
    s0.Keeps m t :=
  State.keeps_snd_eq (State.claimPort_keeps s n p h ) e

theorem State.reservePort_keeps {m : Nat} {s0 : State} (s : State) (n : Node) (p : ℕ) (h : s0.Keeps m s) (w : Within 0x100 m := by exact Within.of (by assumption) (by decide)) :
    s0.Keeps m ((State.reservePort s n p).2) := by
  unfold State.reservePort
  extract_lets a0 a1
  have k2 : s0.Keeps m a0.2 := by
    unfold a0
    with_reducible apply State.takeSeq_keeps (w := w.of (by decide))
    with_reducible assumption
  clear_value a0
  have k3 : s0.Keeps m a1.2 := by
    unfold a1
    with_reducible apply State.foldl_snd_keeps
    · intro x4 x5 x6
      extract_lets a7
      have k8 : s0.Keeps m a7.2 := by
        unfold a7
        with_reducible apply State.reserve_keeps (w := w.of (by decide))
        with_reducible assumption
      clear_value a7
      with_reducible assumption
    · with_reducible assumption
  clear_value a1
  with_reducible assumption

theorem State.reservePort_keeps_eq {m : Nat} {s0 : State} {s : State} {n : Node} {p : ℕ} {a : _} {t : State} (h : s0.Keeps m s)  (e : State.reservePort s n p = (a, t)) (w : Within 0x100 m := by exact Within.of (by assumption) (by decide)) :
    s0.Keeps m t :=
  State.keeps_snd_eq (State.reservePort_keeps s n p h ) e

theorem State.claimAll_keeps {m : Nat} {s0 : State} (s : State) (n : Node) (h : s0.Keeps m s) (w : Within 0x100 m := by exact Within.of (by assumption) (by decide)) :
    s0.Keeps m ((State.claimAll s n).2) := by
  unfold State.claimAll
  with_reducible apply State.foldl_snd_keeps
  · intro x0 x1 x2
    extract_lets a3
    have k4 : s0.Keeps m a3.2 := by
      unfold a3
      with_reducible apply State.claimPort_keeps (w := w.of (by decide))
      with_reducible assumption
    clear_value a3
    with_reducible assumption
  · with_reducible assumption

theorem State.claimAll_keeps_eq {m : Nat} {s0 : State} {s : State} {n : Node} {a : _} {t : State} (h : s0.Keeps m s)  (e : State.claimAll s n = (a, t)) (w : Within 0x100 m := by exact Within.of (by assumption) (by decide)) :
    s0.Keeps m t :=
  State.keeps_snd_eq (State.claimAll_keeps s n h ) e

theorem State.reserveAll_keeps {m : Nat} {s0 : State} (s : State) (n : Node) (h : s0.Keeps m s) (w : Within 0x100 m := by exact Within.of (by assumption) (by decide)) :
    s0.Keeps m ((State.reserveAll s n).2) := by
  unfold State.reserveAll
  with_reducible apply State.foldl_snd_keeps
  · intro x0 x1 x2
    extract_lets a3
    have k4 : s0.Keeps m a3.2 := by
      unfold a3
      with_reducible apply State.reservePort_keeps (w := w.of (by decide))
      with_reducible assumption
    clear_value a3
    with_reducible assumption
  · with_reducible assumption

theorem State.reserveAll_keeps_eq {m : Nat} {s0 : State} {s : State} {n : Node} {a : _} {t : State} (h : s0.Keeps m s)  (e : State.reserveAll s n = (a, t)) (w : Within 0x100 m := by exact Within.of (by assumption) (by decide)) :
    s0.Keeps m t :=
  State.keeps_snd_eq (State.reserveAll_keeps s n h ) e

theorem State.dropStalled_keeps {m : Nat} {s0 : State} (s : State) (h : s0.Keeps m s) (w : Within 0x200 m := by exact Within.of (by assumption) (by decide)) :
    s0.Keeps m (State.dropStalled s) := by
  unfold State.dropStalled
  with_reducible apply State.setSch_keeps (w := w.of (by decide))
  with_reducible assumption

theorem State.slotStall_keeps {m : Nat} {s0 : State} (s : State) (id : ℕ) (h : s0.Keeps m s) (w : Within 0x208 m := by exact Within.of (by assumption) (by decide)) :
    s0.Keeps m (State.slotStall s id) := by
  unfold State.slotStall
  split
  · with_reducible assumption
  · with_reducible apply State.inc_keeps (w := w.of (by decide))
    with_reducible apply State.setSch_keeps (w := w.of (by decide))
    with_reducible assumption

theorem State.createTask_keeps {m : Nat} {s0 : State} (s : State) (n : Node) (slot : ℕ) (h : s0.Keeps m s) (w : Within 0x4000308 m := by exact Within.of (by assumption) (by decide)) :
    s0.Keeps m (State.createTask s n slot) := by
  unfold State.createTask
  extract_lets a0 a1 a2 a3 a4 a5 a6 a7 a8 a9
  have k10 : s0.Keeps m a0.2 := by
    unfold a0
    with_reducible apply State.claimAll_keeps (w := w.of (by decide))
    with_reducible assumption
  clear_value a0
  have k11 : s0.Keeps m a1.2 := by
    unfold a1
    with_reducible apply State.reserveAll_keeps (w := w.of (by decide))
    with_reducible assumption
  clear_value a1
  have k12 : s0.Keeps m a2 := by
    unfold a2
    with_reducible assumption
  clear_value a2
  clear_value a3
  clear_value a4
  clear_value a5
  have k13 : s0.Keeps m a6 := by
    unfold a6
    with_reducible apply State.setTask_keeps (w := w.of (by decide))
    with_reducible assumption
  clear_value a6
  clear_value a7
  have k14 : s0.Keeps m a8 := by
    unfold a8
    with_reducible apply State.setSch_keeps (w := w.of (by decide))
    with_reducible assumption
  clear_value a8
  have k15 : s0.Keeps m a9 := by
    unfold a9
    with_reducible apply State.noteSlots_keeps (w := w.of (by decide))
    with_reducible assumption
  clear_value a9
  split
  · with_reducible apply State.islandDemand_keeps (w := w.of (by decide))
    with_reducible assumption
  · with_reducible assumption

theorem State.taskCreate_keeps {m : Nat} {s0 : State} (s : State) (id : ℕ) (h : s0.Keeps m s) (w : Within 0x4000308 m := by exact Within.of (by assumption) (by decide)) :
    s0.Keeps m (State.taskCreate s id) := by
  unfold State.taskCreate
  extract_lets a0 a1
  have k2 : s0.Keeps m a0 := by
    unfold a0
    with_reducible apply State.dropStalled_keeps (w := w.of (by decide))
    with_reducible assumption
  clear_value a0
  clear_value a1
  split
  · with_reducible assumption
  · split
    · with_reducible assumption
    · split
      · split
        · with_reducible apply State.slotStall_keeps (w := w.of (by decide))
          with_reducible assumption
        · with_reducible apply State.createTask_keeps (w := w.of (by decide))
          with_reducible assumption
      · with_reducible apply State.slotStall_keeps (w := w.of (by decide))
        with_reducible assumption

theorem State.noteEngine_keeps {m : Nat} {s0 : State} (s : State) (k : ℕ) (h : s0.Keeps m s) (w : Within 0x8 m := by exact Within.of (by assumption) (by decide)) :
    s0.Keeps m (State.noteEngine s k) := by
  unfold State.noteEngine
  extract_lets a0 a1 a2
  clear_value a0
  clear_value a1
  clear_value a2
  with_reducible apply State.wr_keeps (w := w.of (by decide))
  with_reducible apply State.wr_keeps (w := w.of (by decide))
  with_reducible apply State.wr_keeps (w := w.of (by decide))
  with_reducible assumption

theorem State.noteDispatch_keeps {m : Nat} {s0 : State} (s : State) (slot : ℕ) (u : Task) (h : s0.Keeps m s) (w : Within 0x208 m := by exact Within.of (by assumption) (by decide)) :
    s0.Keeps m (State.noteDispatch s slot u) := by
  unfold State.noteDispatch
  extract_lets a0 a1 a2
  have k3 : s0.Keeps m a0 := by
    unfold a0
    with_reducible apply State.histCount_keeps (w := w.of (by decide))
    with_reducible assumption
  clear_value a0
  have k4 : s0.Keeps m a1 := by
    unfold a1
    with_reducible apply State.setTask_keeps (w := w.of (by decide))
    with_reducible assumption
  clear_value a1
  clear_value a2
  with_reducible apply State.setSch_keeps (w := w.of (by decide))
  with_reducible assumption

theorem State.startTask_keeps {m : Nat} {s0 : State} (s : State) (slot : ℕ) (k : ℕ) (area : ℕ) (preempted : Option ℕ) (h : s0.Keeps m s) (w : Within 0x229a m := by exact Within.of (by assumption) (by decide)) :
    s0.Keeps m (State.startTask s slot k area preempted) := by
  unfold State.startTask
  split
  · with_reducible assumption
  · extract_lets a0 a1 a2 a3 a4 a5 a6 a7 a8
    clear_value a0
    have k9 : s0.Keeps m a1 := by
      unfold a1
      with_reducible apply State.maybeSwitch_keeps (w := w.of (by decide))
      with_reducible assumption
    clear_value a1
    clear_value a2
    clear_value a3
    clear_value a4
    have k10 : s0.Keeps m a5 := by
      unfold a5
      with_reducible apply State.noteDispatch_keeps (w := w.of (by decide))
      with_reducible assumption
    clear_value a5
    clear_value a6
    have k11 : s0.Keeps m a7 := by
      unfold a7
      with_reducible apply State.setEngine_keeps (w := w.of (by decide))
      with_reducible assumption
    clear_value a7
    have k12 : s0.Keeps m a8 := by
      unfold a8
      with_reducible apply State.setFree_keeps (w := w.of (by decide))
      with_reducible assumption
    clear_value a8
    with_reducible apply State.noteEngine_keeps (w := w.of (by decide))
    with_reducible apply State.setBytes_keeps (w := w.of (by decide))
    with_reducible assumption

theorem State.dispatchCluster_keeps {m : Nat} {s0 : State} (s : State) (c : ℕ) (h : s0.Keeps m s) (w : Within 0x229a m := by exact Within.of (by assumption) (by decide)) :
    s0.Keeps m (State.dispatchCluster s c) := by
  unfold State.dispatchCluster
  split
  · with_reducible assumption
  · split
    · with_reducible assumption
    · split
      · with_reducible assumption
      · with_reducible apply State.startTask_keeps (w := w.of (by decide))
        with_reducible assumption

theorem State.noteMover_keeps {m : Nat} {s0 : State} (s : State) (mx : ℕ) (h : s0.Keeps m s) (w : Within 0x8 m := by exact Within.of (by assumption) (by decide)) :
    s0.Keeps m (State.noteMover s mx) := by
  unfold State.noteMover
  extract_lets a0
  clear_value a0
  with_reducible apply State.wrB_keeps (w := w.of (by decide))
  with_reducible assumption

theorem State.dispatchMover_keeps {m : Nat} {s0 : State} (s : State) (h : s0.Keeps m s) (w : Within 0xa88 m := by exact Within.of (by assumption) (by decide)) :
    s0.Keeps m (State.dispatchMover s) := by
  unfold State.dispatchMover
  split
  · with_reducible assumption
  · split
    · with_reducible assumption
    · extract_lets a0 a1 a2
      have k3 : s0.Keeps m a0 := by
        unfold a0
        with_reducible apply State.maybeSwitch_keeps (w := w.of (by decide))
        with_reducible assumption
      clear_value a0
      clear_value a1
      clear_value a2
      with_reducible apply State.noteMover_keeps (w := w.of (by decide))
      with_reducible apply State.setMover_keeps (w := w.of (by decide))
      with_reducible apply State.noteDispatch_keeps (w := w.of (by decide))
      with_reducible assumption

theorem State.completionRecord_keeps {m : Nat} {s0 : State} (s : State) (slot : ℕ) (u : Task) (status : ℕ) (h : s0.Keeps m s) (w : Within 0x18 m := by exact Within.of (by assumption) (by decide)) :
    s0.Keeps m (State.completionRecord s slot u status) := by
  unfold State.completionRecord
  extract_lets a0 a1 a2 a3 a4
  clear_value a0
  clear_value a1
  clear_value a2
  clear_value a3
  have k5 : s0.Keeps m a4 := by
    unfold a4
    with_reducible apply State.setBytes_keeps (w := w.of (by decide))
    with_reducible assumption
  clear_value a4
  split
  · with_reducible apply State.wr_keeps (w := w.of (by decide))
    with_reducible apply State.wr_keeps (w := w.of (by decide))
    with_reducible apply State.inc_keeps (w := w.of (by decide))
    with_reducible assumption
  · with_reducible apply State.irq_keeps (w := w.of (by decide))
    with_reducible apply State.wr_keeps (w := w.of (by decide))
    with_reducible assumption

theorem State.voidOuts_keeps {m : Nat} {s0 : State} (s : State) (outs : List OutRes) (h : s0.Keeps m s) (w : Within 0x4005118 m := by exact Within.of (by assumption) (by decide)) :
    s0.Keeps m (State.voidOuts s outs) := by
  unfold State.voidOuts
  with_reducible apply State.each_keeps
  · intro x0 x1 x2
    with_reducible apply State.each_keeps
    · intro x3 x4 x5
      with_reducible apply State.completeVoid_keeps (w := w.of (by decide))
      with_reducible assumption
    · with_reducible assumption
  · with_reducible assumption

theorem State.releaseTask_keeps {m : Nat} {s0 : State} (s : State) (u : Task) (h : s0.Keeps m s) (w : Within 0x2c08 m := by exact Within.of (by assumption) (by decide)) :
    s0.Keeps m (State.releaseTask s u) := by
  unfold State.releaseTask
  extract_lets a0 a1 a2
  have k3 : s0.Keeps m a0 := by
    unfold a0
    split
    · with_reducible apply State.setCtx_keeps (w := w.of (by decide))
      with_reducible assumption
    · with_reducible assumption
  clear_value a0
  clear_value a1
  clear_value a2
  split
  · split
    · with_reducible apply State.setEngine_keeps (w := w.of (by decide))
      with_reducible assumption
    · split
      · with_reducible apply State.setMover_keeps (w := w.of (by decide))
        with_reducible assumption
      · with_reducible assumption
  · with_reducible assumption

theorem State.dropPreempt_keeps {m : Nat} {s0 : State} (s : State) (slot : ℕ) (h : s0.Keeps m s) (w : Within 0x608 m := by exact Within.of (by assumption) (by decide)) :
    s0.Keeps m (State.dropPreempt s slot) := by
  unfold State.dropPreempt
  with_reducible apply State.each_keeps
  · intro x0 x1 x2
    split
    · split
      · with_reducible apply State.setCtx_keeps (w := w.of (by decide))
        with_reducible apply State.setSch_keeps (w := w.of (by decide))
        with_reducible assumption
      · with_reducible assumption
    · with_reducible assumption
  · with_reducible assumption

theorem State.dropHeld_keeps {m : Nat} {s0 : State} (s : State) (slot : ℕ) (h : s0.Keeps m s) (w : Within 0x400 m := by exact Within.of (by assumption) (by decide)) :
    s0.Keeps m (State.dropHeld s slot) := by
  unfold State.dropHeld
  with_reducible apply State.setXlt_keeps (w := w.of (by decide))
  with_reducible assumption

theorem State.dropPuts_keeps {m : Nat} {s0 : State} (s : State) (slot : ℕ) (h : s0.Keeps m s) (w : Within 0x100 m := by exact Within.of (by assumption) (by decide)) :
    s0.Keeps m (State.dropPuts s slot) := by
  unfold State.dropPuts
  with_reducible apply State.setHq_keeps (w := w.of (by decide))
  with_reducible assumption

theorem State.endTask_keeps {m : Nat} {s0 : State} (s : State) (slot : ℕ) (status : ℕ) (h : s0.Keeps m s) (w : Within 0x4007f18 m := by exact Within.of (by assumption) (by decide)) :
    s0.Keeps m (State.endTask s slot status) := by
  unfold State.endTask
  split
  · with_reducible assumption
  · extract_lets a0 a1 a2 a3 a4 a5 a6 a7
    clear_value a0
    have k8 : s0.Keeps m a1 := by
      unfold a1
      with_reducible apply State.dropPuts_keeps (w := w.of (by decide))
      with_reducible apply State.dropHeld_keeps (w := w.of (by decide))
      with_reducible apply State.dropPreempt_keeps (w := w.of (by decide))
      with_reducible apply State.releaseTask_keeps (w := w.of (by decide))
      with_reducible assumption
    clear_value a1
    have k9 : s0.Keeps m a2 := by
      unfold a2
      with_reducible apply State.each_keeps
      · intro x10 x11 x12
        with_reducible apply State.pop_keeps (w := w.of (by decide))
        with_reducible assumption
      · with_reducible assumption
    clear_value a2
    have k13 : s0.Keeps m a3 := by
      unfold a3
      with_reducible apply State.voidOuts_keeps (w := w.of (by decide))
      with_reducible assumption
    clear_value a3
    have k14 : s0.Keeps m a4 := by
      unfold a4
      split
      · with_reducible apply State.completionRecord_keeps (w := w.of (by decide))
        with_reducible assumption
      · with_reducible assumption
    clear_value a4
    have k15 : s0.Keeps m a5 := by
      unfold a5
      with_reducible apply State.noteSlots_keeps (w := w.of (by decide))
      with_reducible apply State.setTask_keeps (w := w.of (by decide))
      with_reducible assumption
    clear_value a5
    clear_value a6
    clear_value a7
    split
    · with_reducible apply State.noteEngine_keeps (w := w.of (by decide))
      with_reducible apply State.setEngine_keeps (w := w.of (by decide))
      with_reducible assumption
    · split
      · with_reducible apply State.noteMover_keeps (w := w.of (by decide))
        with_reducible assumption
      · with_reducible assumption

theorem State.cancelTask_keeps {m : Nat} {s0 : State} (s : State) (slot : ℕ) (h : s0.Keeps m s) (w : Within 0x4007f18 m := by exact Within.of (by assumption) (by decide)) :
    s0.Keeps m (State.cancelTask s slot) := by
  unfold State.cancelTask
  with_reducible apply State.endTask_keeps (w := w.of (by decide))
  with_reducible assumption

theorem State.saveTask_keeps {m : Nat} {s0 : State} (s : State) (slot : ℕ) (k : ℕ) (c : ℕ) (rec : Ctx) (st : TState) (h : s0.Keeps m s) (w : Within 0x2708 m := by exact Within.of (by assumption) (by decide)) :
    s0.Keeps m (State.saveTask s slot k c rec st) := by
  unfold State.saveTask
  split
  · with_reducible assumption
  · extract_lets a0 a1 a2 a3 a4 a5
    clear_value a0
    have k6 : s0.Keeps m a1 := by
      unfold a1
      with_reducible apply State.setCtx_keeps (w := w.of (by decide))
      with_reducible apply State.dropPuts_keeps (w := w.of (by decide))
      with_reducible assumption
    clear_value a1
    have k7 : s0.Keeps m a2 := by
      unfold a2
      with_reducible apply State.setTask_keeps (w := w.of (by decide))
      with_reducible assumption
    clear_value a2
    clear_value a3
    have k8 : s0.Keeps m a4 := by
      unfold a4
      with_reducible apply State.setSch_keeps (w := w.of (by decide))
      with_reducible assumption
    clear_value a4
    have k9 : s0.Keeps m a5 := by
      unfold a5
      with_reducible apply State.setEngine_keeps (w := w.of (by decide))
      with_reducible assumption
    clear_value a5
    with_reducible apply State.noteEngine_keeps (w := w.of (by decide))
    with_reducible assumption

theorem State.preemptRequest_keeps {m : Nat} {s0 : State} (s : State) (slot : ℕ) (h : s0.Keeps m s) (w : Within 0x2608 m := by exact Within.of (by assumption) (by decide)) :
    s0.Keeps m (State.preemptRequest s slot) := by
  unfold State.preemptRequest
  split
  · with_reducible assumption
  · extract_lets a0
    clear_value a0
    split
    · with_reducible assumption
    · split
      · extract_lets a1 a2 a3 a4
        have k5 : s0.Keeps m a1 := by
          unfold a1
          with_reducible apply State.setCtx_keeps (w := w.of (by decide))
          with_reducible assumption
        clear_value a1
        clear_value a2
        have k6 : s0.Keeps m a3 := by
          unfold a3
          with_reducible apply State.setSch_keeps (w := w.of (by decide))
          with_reducible assumption
        clear_value a3
        clear_value a4
        with_reducible apply State.setEngine_keeps (w := w.of (by decide))
        with_reducible assumption
      · with_reducible assumption

theorem State.preemptStop_keeps {m : Nat} {s0 : State} (s : State) (c : ℕ) (pc : ℕ) (forced : Bool) (h : s0.Keeps m s) (w : Within 0x279a m := by exact Within.of (by assumption) (by decide)) :
    s0.Keeps m (State.preemptStop s c pc forced) := by
  unfold State.preemptStop
  split
  · with_reducible assumption
  · split
    · with_reducible assumption
    · extract_lets a0 a1 a2 a3 a4
      clear_value a0
      have k5 : s0.Keeps m a1 := by
        unfold a1
        with_reducible apply State.setTask_keeps (w := w.of (by decide))
        with_reducible assumption
      clear_value a1
      have k6 : s0.Keeps m a2 := by
        unfold a2
        with_reducible apply State.saveTask_keeps (w := w.of (by decide))
        with_reducible assumption
      clear_value a2
      clear_value a3
      have k7 : s0.Keeps m a4 := by
        unfold a4
        with_reducible apply State.setSch_keeps (w := w.of (by decide))
        with_reducible assumption
      clear_value a4
      split
      · split
        · with_reducible apply State.startTask_keeps (w := w.of (by decide))
          with_reducible assumption
        · with_reducible assumption
      · with_reducible assumption

theorem State.graceExpiry_keeps {m : Nat} {s0 : State} (s : State) (c : ℕ) (h : s0.Keeps m s) (w : Within 0x279a m := by exact Within.of (by assumption) (by decide)) :
    s0.Keeps m (State.graceExpiry s c) := by
  unfold State.graceExpiry
  split
  · with_reducible assumption
  · split
    · with_reducible assumption
    · extract_lets a0
      clear_value a0
      split
      · with_reducible apply State.setEngine_keeps (w := w.of (by decide))
        with_reducible assumption
      · with_reducible apply State.preemptStop_keeps (w := w.of (by decide))
        with_reducible assumption

theorem State.resumeEngine_keeps {m : Nat} {s0 : State} (s : State) (k : ℕ) (h : s0.Keeps m s) (w : Within 0x2608 m := by exact Within.of (by assumption) (by decide)) :
    s0.Keeps m (State.resumeEngine s k) := by
  unfold State.resumeEngine
  split
  · with_reducible assumption
  · split
    · with_reducible assumption
    · extract_lets a0 a1 a2 a3 a4
      clear_value a0
      clear_value a1
      clear_value a2
      have k5 : s0.Keeps m a3 := by
        unfold a3
        with_reducible apply State.setEngine_keeps (w := w.of (by decide))
        with_reducible assumption
      clear_value a3
      have k6 : s0.Keeps m a4 := by
        unfold a4
        with_reducible apply State.setCtx_keeps (w := w.of (by decide))
        with_reducible assumption
      clear_value a4
      with_reducible apply State.noteEngine_keeps (w := w.of (by decide))
      with_reducible apply State.setTask_keeps (w := w.of (by decide))
      with_reducible assumption

theorem State.resumeMover_keeps {m : Nat} {s0 : State} (s : State) (mx : ℕ) (h : s0.Keeps m s) (w : Within 0xe08 m := by exact Within.of (by assumption) (by decide)) :
    s0.Keeps m (State.resumeMover s mx) := by
  unfold State.resumeMover
  extract_lets a0
  clear_value a0
  split
  · with_reducible assumption
  · split
    · with_reducible apply State.noteMover_keeps (w := w.of (by decide))
      with_reducible apply State.setMover_keeps (w := w.of (by decide))
      with_reducible apply State.setCtx_keeps (w := w.of (by decide))
      with_reducible assumption
    · split
      · split
        · with_reducible assumption
        · extract_lets a1 a2 a3
          clear_value a1
          have k4 : s0.Keeps m a2 := by
            unfold a2
            with_reducible apply State.setCtx_keeps (w := w.of (by decide))
            with_reducible assumption
          clear_value a2
          have k5 : s0.Keeps m a3 := by
            unfold a3
            with_reducible apply State.setTask_keeps (w := w.of (by decide))
            with_reducible assumption
          clear_value a3
          with_reducible apply State.noteMover_keeps (w := w.of (by decide))
          with_reducible apply State.setMover_keeps (w := w.of (by decide))
          with_reducible assumption
      · with_reducible assumption

theorem State.schCancel_keeps {m : Nat} {s0 : State} (s : State) (val : Word) (completed : List (ℕ × ℕ)) (h : s0.Keeps m s) (w : Within 0x4007f18 m := by exact Within.of (by assumption) (by decide)) :
    s0.Keeps m (State.schCancel s val completed) := by
  unfold State.schCancel
  extract_lets a0 a1 a2 a3 a4 a5 a6 a7 a8 a9 a10 a11
  clear_value a0
  clear_value a1
  clear_value a2
  have k12 : s0.Keeps m a3 := by
    unfold a3
    split
    · with_reducible apply State.wr_keeps (w := w.of (by decide))
      with_reducible apply State.wr_keeps (w := w.of (by decide))
      with_reducible assumption
    · with_reducible assumption
  clear_value a3
  clear_value a4
  clear_value a5
  clear_value a6
  clear_value a7
  have k13 : s0.Keeps m a8 := by
    unfold a8
    with_reducible apply State.each_keeps
    · intro x14 x15 x16
      with_reducible apply State.endTask_keeps (w := w.of (by decide))
      with_reducible assumption
    · with_reducible assumption
  clear_value a8
  have k17 : s0.Keeps m a9 := by
    unfold a9
    with_reducible apply State.each_keeps
    · intro x18 x19 x20
      with_reducible apply State.cancelTask_keeps (w := w.of (by decide))
      with_reducible assumption
    · with_reducible assumption
  clear_value a9
  clear_value a10
  have k21 : s0.Keeps m a11 := by
    unfold a11
    with_reducible apply State.wr_keeps (w := w.of (by decide))
    with_reducible apply State.wr_keeps (w := w.of (by decide))
    with_reducible assumption
  clear_value a11
  split
  · with_reducible assumption
  · split
    · with_reducible apply State.wr_keeps (w := w.of (by decide))
      with_reducible assumption
    · with_reducible assumption

theorem State.histCfg_keeps {m : Nat} {s0 : State} (s : State) (mx : ℕ) (val : Word) (h : s0.Keeps m s) (w : Within 0x8 m := by exact Within.of (by assumption) (by decide)) :
    s0.Keeps m (State.histCfg s mx val) := by
  unfold State.histCfg
  extract_lets a0
  have k1 : s0.Keeps m a0 := by
    unfold a0
    with_reducible apply State.plainWrite_keeps (w := w.of (by decide))
    with_reducible assumption
  clear_value a0
  split
  · with_reducible apply State.each_keeps
    · intro x2 x3 x4
      with_reducible apply State.wr_keeps (w := w.of (by decide))
      with_reducible assumption
    · with_reducible assumption
  · with_reducible assumption

theorem State.loadWindowWrite_keeps {m : Nat} {s0 : State} (s : State) (val : Word) (h : s0.Keeps m s) (w : Within 0x2208 m := by exact Within.of (by assumption) (by decide)) :
    s0.Keeps m (State.loadWindowWrite s val) := by
  unfold State.loadWindowWrite
  extract_lets a0 a1 a2 a3
  clear_value a0
  have k4 : s0.Keeps m a1 := by
    unfold a1
    with_reducible apply State.plainWrite_keeps (w := w.of (by decide))
    with_reducible assumption
  clear_value a1
  have k5 : s0.Keeps m a2 := by
    unfold a2
    with_reducible apply State.each_keeps
    · intro x6 x7 x8
      with_reducible apply State.setEngine_keeps (w := w.of (by decide))
      with_reducible assumption
    · with_reducible assumption
  clear_value a2
  clear_value a3
  split
  · with_reducible assumption
  · with_reducible apply State.setSch_keeps (w := w.of (by decide))
    with_reducible assumption

theorem State.loadWindowEnd_keeps {m : Nat} {s0 : State} (s : State) (h : s0.Keeps m s) (w : Within 0x2208 m := by exact Within.of (by assumption) (by decide)) :
    s0.Keeps m (State.loadWindowEnd s) := by
  unfold State.loadWindowEnd
  extract_lets a0 a1 a2
  clear_value a0
  have k3 : s0.Keeps m a1 := by
    unfold a1
    with_reducible apply State.each_keeps
    · intro x4 x5 x6
      extract_lets a7 a8 a9 a10
      clear_value a7
      clear_value a8
      have k11 : s0.Keeps m a9 := by
        unfold a9
        with_reducible apply State.wr_keeps (w := w.of (by decide))
        with_reducible assumption
      clear_value a9
      have k12 : s0.Keeps m a10 := by
        unfold a10
        with_reducible apply State.wr_keeps (w := w.of (by decide))
        with_reducible assumption
      clear_value a10
      with_reducible apply State.setEngine_keeps (w := w.of (by decide))
      with_reducible assumption
    · with_reducible assumption
  clear_value a1
  clear_value a2
  split
  · with_reducible assumption
  · with_reducible apply State.setSch_keeps (w := w.of (by decide))
    with_reducible assumption

theorem execTaskCreate_keeps {m : Nat} {s0 : State} (node : BitVec 16) (s : State) (h : s0.Keeps m s) {t : State} (e : execTaskCreate node s = .next t) (w : Within 0x4000308 m := by exact Within.of (by assumption) (by decide)) :
    s0.Keeps m t := by
  unfold execTaskCreate at e
  injection e with e
  subst e
  with_reducible apply State.taskCreate_keeps (w := w.of (by decide))
  with_reducible assumption

theorem execTaskDispatch_keeps {m : Nat} {s0 : State} (list : Fin 17) (s : State) (h : s0.Keeps m s) {t : State} (e : execTaskDispatch list s = .next t) (w : Within 0x2a9a m := by exact Within.of (by assumption) (by decide)) :
    s0.Keeps m t := by
  unfold execTaskDispatch at e
  injection e with e
  subst e
  split
  · with_reducible apply State.dispatchMover_keeps (w := w.of (by decide))
    with_reducible assumption
  · with_reducible apply State.dispatchCluster_keeps (w := w.of (by decide))
    with_reducible assumption

theorem execPreemptRequest_keeps {m : Nat} {s0 : State} (slot : Fin 8192) (s : State) (h : s0.Keeps m s) {t : State} (e : execPreemptRequest slot s = .next t) (w : Within 0x2608 m := by exact Within.of (by assumption) (by decide)) :
    s0.Keeps m t := by
  unfold execPreemptRequest at e
  injection e with e
  subst e
  with_reducible apply State.preemptRequest_keeps (w := w.of (by decide))
  with_reducible assumption

theorem execPreemptGraceExpiry_keeps {m : Nat} {s0 : State} (cluster : Fin 16) (s : State) (h : s0.Keeps m s) {t : State} (e : execPreemptGraceExpiry cluster s = .next t) (w : Within 0x279a m := by exact Within.of (by assumption) (by decide)) :
    s0.Keeps m t := by
  unfold execPreemptGraceExpiry at e
  injection e with e
  subst e
  with_reducible apply State.graceExpiry_keeps (w := w.of (by decide))
  with_reducible assumption

theorem execTaskResume_keeps {m : Nat} {s0 : State} (unit : Fin 144) (s : State) (h : s0.Keeps m s) {t : State} (e : execTaskResume unit s = .next t) (w : Within 0x2e08 m := by exact Within.of (by assumption) (by decide)) :
    s0.Keeps m t := by
  unfold execTaskResume at e
  injection e with e
  subst e
  split
  · with_reducible apply State.resumeEngine_keeps (w := w.of (by decide))
    with_reducible assumption
  · with_reducible apply State.resumeMover_keeps (w := w.of (by decide))
    with_reducible assumption

theorem execSchCancel_keeps {m : Nat} {s0 : State} (src : Agent) (val : Word) (completed : List (Fin 8192 × BitVec 16)) (s : State) (h : s0.Keeps m s) {t : State} (e : execSchCancel src val completed s = .next t) (w : Within 0x400ff18 m := by exact Within.of (by assumption) (by decide)) :
    s0.Keeps m t := by
  unfold execSchCancel at e
  injection e with e
  subst e
  with_reducible apply State.writeReg_keeps (w := w.of (by decide))
  · with_reducible assumption
  · intro x0 x1
    with_reducible apply State.schCancel_keeps (w := w.of (by decide))
    with_reducible assumption

theorem execHistClr_keeps {m : Nat} {s0 : State} (src : Agent) (mon : Fin 4) (val : Word) (s : State) (h : s0.Keeps m s) {t : State} (e : execHistClr src mon val s = .next t) (w : Within 0x8008 m := by exact Within.of (by assumption) (by decide)) :
    s0.Keeps m t := by
  unfold execHistClr at e
  injection e with e
  subst e
  with_reducible apply State.writeReg_keeps (w := w.of (by decide))
  · with_reducible assumption
  · intro x0 x1
    with_reducible apply State.histCfg_keeps (w := w.of (by decide))
    with_reducible assumption

theorem execLoadWindowEnd_keeps {m : Nat} {s0 : State} (s : State) (h : s0.Keeps m s) {t : State} (e : execLoadWindowEnd s = .next t) (w : Within 0x2208 m := by exact Within.of (by assumption) (by decide)) :
    s0.Keeps m t := by
  unfold execLoadWindowEnd at e
  injection e with e
  subst e
  with_reducible apply State.loadWindowEnd_keeps (w := w.of (by decide))
  with_reducible assumption

theorem State.schRegWrite_keeps {m : Nat} {s0 : State} (s : State) (o : ℕ) (val : Word) (h : s0.Keeps m s) (w : Within 0x4007f18 m := by exact Within.of (by assumption) (by decide)) :
    s0.Keeps m (State.schRegWrite s o val) := by
  unfold State.schRegWrite
  split
  · with_reducible apply State.schCancel_keeps (w := w.of (by decide))
    with_reducible assumption
  · split
    · with_reducible apply State.loadWindowWrite_keeps (w := w.of (by decide))
      with_reducible assumption
    · split
      · with_reducible apply State.histCfg_keeps (w := w.of (by decide))
        with_reducible assumption
      · with_reducible apply State.plainWrite_keeps (w := w.of (by decide))
        with_reducible assumption

end Sys2Proof.Machine
end

