-- ==== Sys2Proof/Laws/KeepsHqCmd.lean ====
section
/-! SUPPORT. The operations of Machine/HqCmd.lean keep the queue and the invariant (`State.Keeps`). -/

namespace Sys2Proof.Machine

set_option Elab.async false
set_option linter.unusedVariables false

theorem State.hqAlloc_keeps {m : Nat} {s0 : State} (s : State) (pairB : Bool) (val : Word) (h : s0.Keeps m s) (w : Within 0x108 m := by exact Within.of (by assumption) (by decide)) :
    s0.Keeps m (State.hqAlloc s pairB val) := by
  unfold State.hqAlloc
  extract_lets a0 a1 a2
  clear_value a0
  have k3 : ∀ y0 y1 y2, s0.Keeps m y0 → s0.Keeps m (a1 y0 y1 y2) := by
    unfold a1
    intro x4 x5 x6 x7
    split
    · with_reducible apply State.wr_keeps (w := w.of (by decide))
      with_reducible apply State.wr_keeps (w := w.of (by decide))
      with_reducible assumption
    · with_reducible apply State.wr_keeps (w := w.of (by decide))
      with_reducible apply State.wr_keeps (w := w.of (by decide))
      with_reducible assumption
  clear_value a1
  have k8 : ∀ y0, s0.Keeps m (a2 y0) := by
    unfold a2
    intro x9
    with_reducible apply k3
    with_reducible apply State.setQueue_keeps (w := w.of (by decide))
    with_reducible assumption
  clear_value a2
  split
  · split
    · with_reducible apply k8
    · with_reducible apply k3
      with_reducible assumption
  · split
    · with_reducible apply k8
    · split
      · with_reducible apply k3
        with_reducible assumption
      · with_reducible apply k3
        with_reducible assumption

theorem State.hqCfg_keeps {m : Nat} {s0 : State} (s : State) (which : ℕ) (val : Word) (h : s0.Keeps m s) (w : Within 0x108 m := by exact Within.of (by assumption) (by decide)) :
    s0.Keeps m (State.hqCfg s which val) := by
  unfold State.hqCfg
  extract_lets a0 a1
  clear_value a0
  clear_value a1
  split
  · with_reducible apply State.hqStatus_keeps (w := w.of (by decide))
    with_reducible assumption
  · split
    · with_reducible apply State.hqStatus_keeps (w := w.of (by decide))
      with_reducible assumption
    · split
      · with_reducible apply State.setQueue_keeps (w := w.of (by decide))
        with_reducible assumption
      · split
        · with_reducible apply State.setQueue_keeps (w := w.of (by decide))
          with_reducible assumption
        · with_reducible apply State.setQueue_keeps (w := w.of (by decide))
          with_reducible assumption

theorem State.hqCmd_keeps {m : Nat} {s0 : State} (s : State) (cmd : ℕ) (h : s0.Keeps m s) (w : Within 0x108 m := by exact Within.of (by assumption) (by decide)) :
    s0.Keeps m (State.hqCmd s cmd) := by
  unfold State.hqCmd
  extract_lets a0 a1
  clear_value a0
  clear_value a1
  split
  · with_reducible assumption
  · split
    · with_reducible apply State.hqStatus_keeps (w := w.of (by decide))
      with_reducible assumption
    · split
      · with_reducible apply State.hqStatus_keeps (w := w.of (by decide))
        with_reducible assumption
      · split
        · split
          · with_reducible apply State.setQueue_keeps (w := w.of (by decide))
            with_reducible assumption
          · with_reducible apply State.hqStatus_keeps (w := w.of (by decide))
            with_reducible assumption
        · with_reducible assumption
        · with_reducible assumption
        · with_reducible apply State.setQueue_keeps (w := w.of (by decide))
          with_reducible assumption
        · split
          · with_reducible apply State.setQueue_keeps (w := w.of (by decide))
            with_reducible assumption
          · with_reducible apply State.hqStatus_keeps (w := w.of (by decide))
            with_reducible assumption
        · with_reducible apply State.hqStatus_keeps (w := w.of (by decide))
          with_reducible assumption
        · with_reducible apply State.each_keeps
          · intro x2 x3 x4
            with_reducible apply State.pop_keeps (w := w.of (by decide))
            with_reducible assumption
          · with_reducible assumption
        · with_reducible apply State.hqStatus_keeps (w := w.of (by decide))
          with_reducible assumption
        · with_reducible apply State.setQueue_keeps (w := w.of (by decide))
          with_reducible assumption

theorem State.swPush_keeps {m : Nat} {s0 : State} (s : State) (id : ℕ) (n : ℕ) (h : s0.Keeps m s) (w : Within 0x5118 m := by exact Within.of (by assumption) (by decide)) :
    s0.Keeps m (State.swPush s id n) := by
  unfold State.swPush
  extract_lets a0 a1 a2 a3
  clear_value a0
  clear_value a1
  have k4 : s0.Keeps m a2 := by
    unfold a2
    with_reducible apply State.setQueue_keeps (w := w.of (by decide))
    with_reducible assumption
  clear_value a2
  have k5 : s0.Keeps m a3 := by
    unfold a3
    with_reducible apply State.each_keeps
    · intro x6 x7 x8
      with_reducible apply State.ringWrite_keeps (w := w.of (by decide))
      with_reducible assumption
    · with_reducible assumption
  clear_value a3
  with_reducible apply State.notify_keeps (w := w.of (by decide))
  with_reducible assumption

theorem State.swPop_keeps {m : Nat} {s0 : State} (s : State) (id : ℕ) (n : ℕ) (h : s0.Keeps m s) (w : Within 0x108 m := by exact Within.of (by assumption) (by decide)) :
    s0.Keeps m (State.swPop s id n) := by
  unfold State.swPop
  extract_lets a0 a1
  clear_value a0
  clear_value a1
  with_reducible apply State.each_keeps
  · intro x2 x3 x4
    with_reducible apply State.pop_keeps (w := w.of (by decide))
    with_reducible assumption
  · with_reducible assumption

theorem State.doorbell_keeps {m : Nat} {s0 : State} (s : State) (id : ℕ) (n : ℕ) (push : Bool) (h : s0.Keeps m s) (w : Within 0x5118 m := by exact Within.of (by assumption) (by decide)) :
    s0.Keeps m (State.doorbell s id n push) := by
  unfold State.doorbell
  split
  · with_reducible assumption
  · extract_lets a0
    clear_value a0
    split
    · with_reducible apply State.hqStatus_keeps (w := w.of (by decide))
      with_reducible assumption
    · split
      · with_reducible apply State.swPush_keeps (w := w.of (by decide))
        with_reducible assumption
      · with_reducible apply State.swPop_keeps (w := w.of (by decide))
        with_reducible assumption

theorem State.hqDoorbell_keeps {m : Nat} {s0 : State} (s : State) (push : Bool) (val : Word) (h : s0.Keeps m s) (w : Within 0x5118 m := by exact Within.of (by assumption) (by decide)) :
    s0.Keeps m (State.hqDoorbell s push val) := by
  unfold State.hqDoorbell
  with_reducible apply State.doorbell_keeps (w := w.of (by decide))
  with_reducible assumption

theorem State.grantTile_keeps {m : Nat} {s0 : State} (s : State) (r : ResReq) (h : s0.Keeps m s) (w : Within 0x100 m := by exact Within.of (by assumption) (by decide)) :
    s0.Keeps m (State.grantTile s r) := by
  unfold State.grantTile
  extract_lets a0
  have k1 : s0.Keeps m a0.2 := by
    unfold a0
    with_reducible apply State.takeSeq_keeps (w := w.of (by decide))
    with_reducible assumption
  clear_value a0
  with_reducible apply State.each_keeps
  · intro x2 x3 x4
    extract_lets a5 a6
    have k7 : s0.Keeps m a5.2 := by
      unfold a5
      with_reducible apply State.reserve_keeps (w := w.of (by decide))
      with_reducible assumption
    clear_value a5
    clear_value a6
    with_reducible apply State.setHq_keeps (w := w.of (by decide))
    with_reducible assumption
  · with_reducible assumption

theorem State.grant_keeps {m : Nat} {s0 : State} (s : State) (r : ResReq) (h : s0.Keeps m s) (w : Within 0x100 m := by exact Within.of (by assumption) (by decide)) :
    s0.Keeps m (State.grant s r) := by
  unfold State.grant
  with_reducible apply State.each_keeps
  · intro x0 x1 x2
    with_reducible apply State.grantTile_keeps (w := w.of (by decide))
    with_reducible assumption
  · with_reducible assumption

theorem State.grantAll_keeps {m : Nat} {s0 : State} (s : State) (l : List ResReq) (h : s0.Keeps m s) (w : Within 0x100 m := by exact Within.of (by assumption) (by decide)) :
    s0.Keeps m ((s.grantAll l).2) := by
  induction l generalizing s with
  | nil => exact h
  | cons b tl ih =>
    unfold State.grantAll
    split
    · exact ih _ (State.grant_keeps s b h)
    · exact h

theorem State.grantAll_keeps_eq {m : Nat} {s0 s : State} {l : List ResReq} {a : _} {t : State} (h : s0.Keeps m s) (e : s.grantAll l = (a, t)) (w : Within 0x100 m := by exact Within.of (by assumption) (by decide)) :
    s0.Keeps m t := by
  exact State.keeps_snd_eq (State.grantAll_keeps s l h) e

theorem State.reservations_keeps {m : Nat} {s0 : State} (s : State) (qid : ℕ) (reqs : List ResReq) (h : s0.Keeps m s) (w : Within 0x100 m := by exact Within.of (by assumption) (by decide)) :
    s0.Keeps m (State.reservations s qid reqs) := by
  unfold State.reservations
  split
  · with_reducible assumption
  · extract_lets a0 a1 a2 a3
    clear_value a0
    clear_value a1
    have k4 : s0.Keeps m a2.2 := by
      unfold a2
      with_reducible apply State.grantAll_keeps (w := w.of (by decide))
      with_reducible assumption
    clear_value a2
    clear_value a3
    with_reducible apply State.setHq_keeps (w := w.of (by decide))
    with_reducible assumption

theorem State.entryCommit_keeps {m : Nat} {s0 : State} (s : State) (qid : ℕ) (i : ℕ) (ex : RingEntry) (h : s0.Keeps m s) (w : Within 0x4005118 m := by exact Within.of (by assumption) (by decide)) :
    s0.Keeps m (State.entryCommit s qid i ex) := by
  unfold State.entryCommit
  split
  · extract_lets a0 a1
    clear_value a0
    have k2 : s0.Keeps m a1 := by
      unfold a1
      with_reducible apply State.setHq_keeps (w := w.of (by decide))
      with_reducible assumption
    clear_value a1
    with_reducible apply State.complete_keeps (w := w.of (by decide))
    with_reducible assumption
  · with_reducible assumption

theorem execHqAlloc_keeps {m : Nat} {s0 : State} (src : Agent) (pairB : Bool) (val : Word) (s : State) (h : s0.Keeps m s) {t : State} (e : execHqAlloc src pairB val s = .next t) (w : Within 0x8108 m := by exact Within.of (by assumption) (by decide)) :
    s0.Keeps m t := by
  unfold execHqAlloc at e
  injection e with e
  subst e
  with_reducible apply State.writeReg_keeps (w := w.of (by decide))
  · with_reducible assumption
  · intro x0 x1
    with_reducible apply State.hqAlloc_keeps (w := w.of (by decide))
    with_reducible assumption

theorem execHqQcfgWrite_keeps {m : Nat} {s0 : State} (src : Agent) (which : Fin 3) (val : Word) (s : State) (h : s0.Keeps m s) {t : State} (e : execHqQcfgWrite src which val s = .next t) (w : Within 0x8108 m := by exact Within.of (by assumption) (by decide)) :
    s0.Keeps m t := by
  unfold execHqQcfgWrite at e
  injection e with e
  subst e
  with_reducible apply State.writeReg_keeps (w := w.of (by decide))
  · with_reducible assumption
  · intro x0 x1
    with_reducible apply State.hqCfg_keeps (w := w.of (by decide))
    with_reducible assumption

theorem execEnable_keeps {m : Nat} {s0 : State} (src : Agent) (s : State) (h : s0.Keeps m s) {t : State} (e : execEnable src s = .next t) (w : Within 0x8108 m := by exact Within.of (by assumption) (by decide)) :
    s0.Keeps m t := by
  unfold execEnable at e
  injection e with e
  subst e
  with_reducible apply State.writeReg_keeps (w := w.of (by decide))
  · with_reducible assumption
  · intro x0 x1
    with_reducible apply State.hqCmd_keeps (w := w.of (by decide))
    with_reducible assumption

theorem execDisable_keeps {m : Nat} {s0 : State} (src : Agent) (s : State) (h : s0.Keeps m s) {t : State} (e : execDisable src s = .next t) (w : Within 0x8108 m := by exact Within.of (by assumption) (by decide)) :
    s0.Keeps m t := by
  unfold execDisable at e
  injection e with e
  subst e
  with_reducible apply State.writeReg_keeps (w := w.of (by decide))
  · with_reducible assumption
  · intro x0 x1
    with_reducible apply State.hqCmd_keeps (w := w.of (by decide))
    with_reducible assumption

theorem execQcmdFree_keeps {m : Nat} {s0 : State} (src : Agent) (s : State) (h : s0.Keeps m s) {t : State} (e : execQcmdFree src s = .next t) (w : Within 0x8108 m := by exact Within.of (by assumption) (by decide)) :
    s0.Keeps m t := by
  unfold execQcmdFree at e
  injection e with e
  subst e
  with_reducible apply State.writeReg_keeps (w := w.of (by decide))
  · with_reducible assumption
  · intro x0 x1
    with_reducible apply State.hqCmd_keeps (w := w.of (by decide))
    with_reducible assumption

theorem execFlush_keeps {m : Nat} {s0 : State} (src : Agent) (s : State) (h : s0.Keeps m s) {t : State} (e : execFlush src s = .next t) (w : Within 0x8108 m := by exact Within.of (by assumption) (by decide)) :
    s0.Keeps m t := by
  unfold execFlush at e
  injection e with e
  subst e
  with_reducible apply State.writeReg_keeps (w := w.of (by decide))
  · with_reducible assumption
  · intro x0 x1
    with_reducible apply State.hqCmd_keeps (w := w.of (by decide))
    with_reducible assumption

theorem execClearHighWater_keeps {m : Nat} {s0 : State} (src : Agent) (s : State) (h : s0.Keeps m s) {t : State} (e : execClearHighWater src s = .next t) (w : Within 0x8108 m := by exact Within.of (by assumption) (by decide)) :
    s0.Keeps m t := by
  unfold execClearHighWater at e
  injection e with e
  subst e
  with_reducible apply State.writeReg_keeps (w := w.of (by decide))
  · with_reducible assumption
  · intro x0 x1
    with_reducible apply State.hqCmd_keeps (w := w.of (by decide))
    with_reducible assumption

theorem execHqDbPush_keeps {m : Nat} {s0 : State} (src : Agent) (val : Word) (s : State) (h : s0.Keeps m s) {t : State} (e : execHqDbPush src val s = .next t) (w : Within 0xd118 m := by exact Within.of (by assumption) (by decide)) :
    s0.Keeps m t := by
  unfold execHqDbPush at e
  injection e with e
  subst e
  with_reducible apply State.writeReg_keeps (w := w.of (by decide))
  · with_reducible assumption
  · intro x0 x1
    with_reducible apply State.hqDoorbell_keeps (w := w.of (by decide))
    with_reducible assumption

theorem execHqDbPop_keeps {m : Nat} {s0 : State} (src : Agent) (val : Word) (s : State) (h : s0.Keeps m s) {t : State} (e : execHqDbPop src val s = .next t) (w : Within 0xd118 m := by exact Within.of (by assumption) (by decide)) :
    s0.Keeps m t := by
  unfold execHqDbPop at e
  injection e with e
  subst e
  with_reducible apply State.writeReg_keeps (w := w.of (by decide))
  · with_reducible assumption
  · intro x0 x1
    with_reducible apply State.hqDoorbell_keeps (w := w.of (by decide))
    with_reducible assumption

theorem execReservation_keeps {m : Nat} {s0 : State} (qid : BitVec 16) (reqs : List ResReq) (s : State) (h : s0.Keeps m s) {t : State} (e : execReservation qid reqs s = .next t) (w : Within 0x100 m := by exact Within.of (by assumption) (by decide)) :
    s0.Keeps m t := by
  unfold execReservation at e
  injection e with e
  subst e
  with_reducible apply State.reservations_keeps (w := w.of (by decide))
  with_reducible assumption

theorem execReservationRetry_keeps {m : Nat} {s0 : State} (qid : BitVec 16) (s : State) (h : s0.Keeps m s) {t : State} (e : execReservationRetry qid s = .next t) (w : Within 0x100 m := by exact Within.of (by assumption) (by decide)) :
    s0.Keeps m t := by
  unfold execReservationRetry at e
  injection e with e
  subst e
  with_reducible apply State.reservations_keeps (w := w.of (by decide))
  with_reducible assumption

theorem execEntryCommit_keeps {m : Nat} {s0 : State} (qid : BitVec 16) (idx : BitVec 16) (addr : BitVec 40) (eflags : Byte) (len16 : BitVec 16) (seq : Word) (s : State) (h : s0.Keeps m s) {t : State} (e : execEntryCommit qid idx addr eflags len16 seq s = .next t) (w : Within 0x4005118 m := by exact Within.of (by assumption) (by decide)) :
    s0.Keeps m t := by
  unfold execEntryCommit at e
  injection e with e
  subst e
  with_reducible apply State.entryCommit_keeps (w := w.of (by decide))
  with_reducible assumption

theorem execEntryPop_keeps {m : Nat} {s0 : State} (qid : BitVec 16) (idx : BitVec 16) (s : State) (h : s0.Keeps m s) {t : State} (e : execEntryPop qid idx s = .next t) (w : Within 0x108 m := by exact Within.of (by assumption) (by decide)) :
    s0.Keeps m t := by
  unfold execEntryPop at e
  injection e with e
  subst e
  split
  · with_reducible apply State.pop_keeps (w := w.of (by decide))
    with_reducible assumption
  · with_reducible assumption

theorem State.hqRegWrite_keeps {m : Nat} {s0 : State} (s : State) (o : ℕ) (val : Word) (h : s0.Keeps m s) (w : Within 0x5118 m := by exact Within.of (by assumption) (by decide)) :
    s0.Keeps m (State.hqRegWrite s o val) := by
  unfold State.hqRegWrite
  split
  · with_reducible apply State.hqAlloc_keeps (w := w.of (by decide))
    with_reducible assumption
  · split
    · with_reducible apply State.hqAlloc_keeps (w := w.of (by decide))
      with_reducible assumption
    · split
      · with_reducible apply State.hqCfg_keeps (w := w.of (by decide))
        with_reducible assumption
      · split
        · with_reducible apply State.hqCfg_keeps (w := w.of (by decide))
          with_reducible assumption
        · split
          · with_reducible apply State.hqCfg_keeps (w := w.of (by decide))
            with_reducible assumption
          · split
            · with_reducible apply State.hqCmd_keeps (w := w.of (by decide))
              with_reducible assumption
            · split
              · with_reducible apply State.hqDoorbell_keeps (w := w.of (by decide))
                with_reducible assumption
              · split
                · with_reducible apply State.hqDoorbell_keeps (w := w.of (by decide))
                  with_reducible assumption
                · with_reducible apply State.plainWrite_keeps (w := w.of (by decide))
                  with_reducible assumption

end Sys2Proof.Machine
end

