-- ==== Sys2Proof/Laws/KeepsXlt.lean ====
section
/-! SUPPORT. The operations of Machine/Xlt.lean keep the queue and the invariant (`State.Keeps`). -/

namespace Sys2Proof.Machine

set_option Elab.async false
set_option linter.unusedVariables false

theorem State.cacheLeaf_keeps {m : Nat} {s0 : State} (s : State) (n : ℕ) (va : ℕ) (h : s0.Keeps m s) (w : Within 0x400 m := by exact Within.of (by assumption) (by decide)) :
    s0.Keeps m (State.cacheLeaf s n va) := by
  unfold State.cacheLeaf
  split
  · with_reducible assumption
  · split
    · with_reducible apply State.setXlt_keeps (w := w.of (by decide))
      with_reducible assumption
    · with_reducible assumption

theorem State.readNote_keeps {m : Nat} {s0 : State} (s : State) (n : ℕ) (va : ℕ) (len : ℕ) (h : s0.Keeps m s) (w : Within 0x8 m := by exact Within.of (by assumption) (by decide)) :
    s0.Keeps m (State.readNote s n va len) := by
  unfold State.readNote
  split
  · with_reducible apply State.noteRead_keeps (w := w.of (by decide))
    with_reducible assumption
  · with_reducible assumption

theorem State.vwrite_keeps {m : Nat} {s0 : State} (s : State) (n : ℕ) (va : ℕ) (b : List Byte) (h : s0.Keeps m s) (w : Within 0x5018 m := by exact Within.of (by assumption) (by decide)) :
    s0.Keeps m (State.vwrite s n va b) := by
  unfold State.vwrite
  extract_lets a0 a1
  clear_value a0
  have k2 : ∀ y0 y1 y2, s0.Keeps m y0 → s0.Keeps m (a1 y0 y1 y2) := by
    unfold a1
    intro x3 x4 x5 x6
    split
    · with_reducible assumption
    · split
      · with_reducible apply State.physWrite_keeps (w := w.of (by decide))
        with_reducible assumption
      · with_reducible assumption
  clear_value a1
  with_reducible apply k2
  with_reducible apply k2
  with_reducible assumption

theorem State.noteFq_keeps {m : Nat} {s0 : State} (s : State) (h : s0.Keeps m s) (w : Within 0x8 m := by exact Within.of (by assumption) (by decide)) :
    s0.Keeps m (State.noteFq s) := by
  unfold State.noteFq
  with_reducible apply State.wrB_keeps (w := w.of (by decide))
  with_reducible assumption

theorem State.putFault_keeps {m : Nat} {s0 : State} (s : State) (r : FaultRec) (h : s0.Keeps m s) (w : Within 0x18 m := by exact Within.of (by assumption) (by decide)) :
    s0.Keeps m (State.putFault s r) := by
  unfold State.putFault
  extract_lets a0 a1 a2
  clear_value a0
  have k3 : s0.Keeps m a1 := by
    unfold a1
    with_reducible apply State.setBytes_keeps (w := w.of (by decide))
    with_reducible assumption
  clear_value a1
  have k4 : s0.Keeps m a2 := by
    unfold a2
    with_reducible apply State.wr_keeps (w := w.of (by decide))
    with_reducible assumption
  clear_value a2
  with_reducible apply State.irq_keeps (w := w.of (by decide))
  with_reducible apply State.noteFq_keeps (w := w.of (by decide))
  with_reducible assumption

theorem State.takeOver_keeps {m : Nat} {s0 : State} (s : State) (c : ℕ) (k : ℕ) (h : s0.Keeps m s) (w : Within 0x229a m := by exact Within.of (by assumption) (by decide)) :
    s0.Keeps m (State.takeOver s c k) := by
  unfold State.takeOver
  split
  · with_reducible assumption
  · extract_lets a0 a1
    clear_value a0
    have k2 : s0.Keeps m a1 := by
      unfold a1
      with_reducible apply State.setSch_keeps (w := w.of (by decide))
      with_reducible assumption
    clear_value a1
    split
    · split
      · with_reducible apply State.startTask_keeps (w := w.of (by decide))
        with_reducible assumption
      · with_reducible assumption
    · with_reducible assumption

theorem State.saveFaulted_keeps {m : Nat} {s0 : State} (s : State) (mesh : ℕ) (c : ℕ) (save : Ctx) (h : s0.Keeps m s) (w : Within 0x2f9a m := by exact Within.of (by assumption) (by decide)) :
    s0.Keeps m (State.saveFaulted s mesh c save) := by
  unfold State.saveFaulted
  split
  · extract_lets a0
    clear_value a0
    split
    · with_reducible assumption
    · extract_lets a1 a2
      clear_value a1
      have k3 : s0.Keeps m a2 := by
        unfold a2
        with_reducible apply State.saveTask_keeps (w := w.of (by decide))
        with_reducible assumption
      clear_value a2
      split
      · with_reducible apply State.takeOver_keeps (w := w.of (by decide))
        with_reducible assumption
      · with_reducible assumption
  · split
    · extract_lets a4 a5 a6
      clear_value a4
      clear_value a5
      have k7 : s0.Keeps m a6 := by
        unfold a6
        with_reducible apply State.setCtx_keeps (w := w.of (by decide))
        with_reducible assumption
      clear_value a6
      split
      · split
        · with_reducible assumption
        · extract_lets a8 a9 a10
          have k11 : s0.Keeps m a8 := by
            unfold a8
            with_reducible apply State.setTask_keeps (w := w.of (by decide))
            with_reducible assumption
          clear_value a8
          clear_value a9
          have k12 : s0.Keeps m a10 := by
            unfold a10
            with_reducible apply State.setSch_keeps (w := w.of (by decide))
            with_reducible assumption
          clear_value a10
          with_reducible apply State.noteMover_keeps (w := w.of (by decide))
          with_reducible apply State.setMover_keeps (w := w.of (by decide))
          with_reducible assumption
      · split
        · with_reducible apply State.setMover_keeps (w := w.of (by decide))
          with_reducible assumption
        · with_reducible assumption
    · with_reducible apply State.setCtx_keeps (w := w.of (by decide))
      with_reducible assumption

theorem State.recordFault_keeps {m : Nat} {s0 : State} (s : State) (r : FaultRec) (save : Ctx) (h : s0.Keeps m s) (w : Within 0x2f9a m := by exact Within.of (by assumption) (by decide)) :
    s0.Keeps m (State.recordFault s r save) := by
  unfold State.recordFault
  split
  · with_reducible apply State.saveFaulted_keeps (w := w.of (by decide))
    with_reducible apply State.putFault_keeps (w := w.of (by decide))
    with_reducible assumption
  · extract_lets a0 a1 a2 a3
    clear_value a0
    have k4 : s0.Keeps m a1 := by
      unfold a1
      with_reducible apply State.putFault_keeps (w := w.of (by decide))
      with_reducible assumption
    clear_value a1
    have k5 : s0.Keeps m a2 := by
      unfold a2
      split
      · with_reducible apply State.wr_keeps (w := w.of (by decide))
        with_reducible assumption
      · with_reducible assumption
    clear_value a2
    clear_value a3
    with_reducible apply State.setXlt_keeps (w := w.of (by decide))
    with_reducible assumption

theorem State.fault_keeps {m : Nat} {s0 : State} (s : State) (r : FaultRec) (save : Ctx) (h : s0.Keeps m s) (w : Within 0x2f9a m := by exact Within.of (by assumption) (by decide)) :
    s0.Keeps m (State.fault s r save) := by
  unfold State.fault
  extract_lets a0 a1 a2 a3 a4 a5
  clear_value a0
  clear_value a1
  have k6 : s0.Keeps m a2 := by
    unfold a2
    with_reducible apply State.setXlt_keeps (w := w.of (by decide))
    with_reducible assumption
  clear_value a2
  clear_value a3
  clear_value a4
  clear_value a5
  split
  · with_reducible apply State.inc_keeps (w := w.of (by decide))
    with_reducible apply State.setXlt_keeps (w := w.of (by decide))
    with_reducible assumption
  · with_reducible apply State.recordFault_keeps (w := w.of (by decide))
    with_reducible assumption

theorem State.walkError_keeps {m : Nat} {s0 : State} (s : State) (n : ℕ) (va : ℕ) (level : ℕ) (h : s0.Keeps m s) (w : Within 0x8 m := by exact Within.of (by assumption) (by decide)) :
    s0.Keeps m (State.walkError s n va level) := by
  unfold State.walkError
  extract_lets a0
  clear_value a0
  with_reducible apply State.burstError_keeps (w := w.of (by decide))
  with_reducible assumption

theorem State.faultAccess_keeps {m : Nat} {s0 : State} (s : State) (mesh : ℕ) (n : ℕ) (va : ℕ) (write : Bool) (kind : ℕ) (level : ℕ) (pte : ℕ) (stop : StopPoint) (work : (List Byte)) (frame : (Option ℕ)) (chan : ℕ) (of_ : (Option (ℕ × ℕ × ℕ))) (h : s0.Keeps m s) (w : Within 0x2f9a m := by exact Within.of (by assumption) (by decide)) :
    s0.Keeps m (State.faultAccess s mesh n va write kind level pte stop work frame chan of_) := by
  unfold State.faultAccess
  extract_lets a0 a1 a2
  clear_value a0
  have k3 : s0.Keeps m a1 := by
    unfold a1
    split
    · with_reducible apply State.walkError_keeps (w := w.of (by decide))
      with_reducible assumption
    · with_reducible assumption
  clear_value a1
  clear_value a2
  with_reducible apply State.fault_keeps (w := w.of (by decide))
  with_reducible assumption

theorem State.accessFault_keeps {m : Nat} {s0 : State} (s : State) (a : Access) (stop : StopPoint) (bad : ℕ) (h : s0.Keeps m s) (w : Within 0x2f9a m := by exact Within.of (by assumption) (by decide)) :
    s0.Keeps m (State.accessFault s a stop bad) := by
  unfold State.accessFault
  split
  · with_reducible apply State.cacheLeaf_keeps (w := w.of (by decide))
    split
    · with_reducible assumption
    · with_reducible apply State.noteRead_keeps (w := w.of (by decide))
      with_reducible assumption
  · extract_lets a0 a1 a2
    clear_value a0
    clear_value a1
    have k3 : s0.Keeps m a2 := by
      unfold a2
      split
      · with_reducible apply State.setEngine_keeps (w := w.of (by decide))
        with_reducible assumption
      · with_reducible assumption
    clear_value a2
    with_reducible apply State.faultAccess_keeps (w := w.of (by decide))
    with_reducible assumption

theorem State.faultQueueWaitEnd_keeps {m : Nat} {s0 : State} (s : State) (h : s0.Keeps m s) (w : Within 0x2f9a m := by exact Within.of (by assumption) (by decide)) :
    s0.Keeps m (State.faultQueueWaitEnd s) := by
  unfold State.faultQueueWaitEnd
  split
  · with_reducible assumption
  · split
    · with_reducible assumption
    · extract_lets a0 a1
      clear_value a0
      have k2 : s0.Keeps m a1 := by
        unfold a1
        with_reducible apply State.setXlt_keeps (w := w.of (by decide))
        with_reducible assumption
      clear_value a1
      split
      · with_reducible apply State.recordFault_keeps (w := w.of (by decide))
        with_reducible assumption
      · with_reducible apply State.putFault_keeps (w := w.of (by decide))
        with_reducible assumption

theorem State.xltStatus_keeps {m : Nat} {s0 : State} (s : State) (code : ℕ) (h : s0.Keeps m s) (w : Within 0x8 m := by exact Within.of (by assumption) (by decide)) :
    s0.Keeps m (State.xltStatus s code) := by
  unfold State.xltStatus
  with_reducible apply State.wr_keeps (w := w.of (by decide))
  with_reducible assumption

theorem State.spaceReq_keeps {m : Nat} {s0 : State} (s : State) (val : Word) (h : s0.Keeps m s) (w : Within 0x408 m := by exact Within.of (by assumption) (by decide)) :
    s0.Keeps m (State.spaceReq s val) := by
  unfold State.spaceReq
  extract_lets a0 a1 a2 a3
  clear_value a0
  have k4 : ∀ y0 y1 y2, s0.Keeps m y0 → s0.Keeps m (a1 y0 y1 y2) := by
    unfold a1
    intro x5 x6 x7 x8
    with_reducible apply State.xltStatus_keeps (w := w.of (by decide))
    with_reducible apply State.wr_keeps (w := w.of (by decide))
    with_reducible apply State.wr_keeps (w := w.of (by decide))
    with_reducible assumption
  clear_value a1
  clear_value a2
  clear_value a3
  split
  · split
    · with_reducible apply k4
      with_reducible apply State.setSpace_keeps (w := w.of (by decide))
      with_reducible assumption
    · with_reducible apply k4
      with_reducible assumption
  · split
    · with_reducible apply k4
      with_reducible apply State.setSpace_keeps (w := w.of (by decide))
      with_reducible assumption
    · with_reducible apply k4
      with_reducible assumption

theorem State.invalidationDone_keeps {m : Nat} {s0 : State} (s : State) (h : s0.Keeps m s) (w : Within 0x408 m := by exact Within.of (by assumption) (by decide)) :
    s0.Keeps m (State.invalidationDone s) := by
  unfold State.invalidationDone
  split
  · with_reducible assumption
  · extract_lets a0 a1
    clear_value a0
    clear_value a1
    with_reducible apply State.wr_keeps (w := w.of (by decide))
    with_reducible apply State.setXlt_keeps (w := w.of (by decide))
    with_reducible assumption

theorem State.startInval_keeps {m : Nat} {s0 : State} (s : State) (i : Inval) (h : s0.Keeps m s) (w : Within 0x408 m := by exact Within.of (by assumption) (by decide)) :
    s0.Keeps m (State.startInval s i) := by
  unfold State.startInval
  extract_lets a0 a1
  have k2 : s0.Keeps m a0 := by
    unfold a0
    with_reducible apply State.invalidationDone_keeps (w := w.of (by decide))
    with_reducible assumption
  clear_value a0
  clear_value a1
  with_reducible apply State.wr_keeps (w := w.of (by decide))
  with_reducible apply State.setXlt_keeps (w := w.of (by decide))
  with_reducible assumption

theorem State.spaceCmd_keeps {m : Nat} {s0 : State} (s : State) (cmd : ℕ) (h : s0.Keeps m s) (w : Within 0x408 m := by exact Within.of (by assumption) (by decide)) :
    s0.Keeps m (State.spaceCmd s cmd) := by
  unfold State.spaceCmd
  extract_lets a0 a1
  clear_value a0
  clear_value a1
  split
  · with_reducible assumption
  · split
    · with_reducible apply State.xltStatus_keeps (w := w.of (by decide))
      with_reducible assumption
    · split
      · with_reducible apply State.xltStatus_keeps (w := w.of (by decide))
        with_reducible apply State.setSpace_keeps (w := w.of (by decide))
        with_reducible assumption
      · split
        · with_reducible apply State.xltStatus_keeps (w := w.of (by decide))
          with_reducible apply State.startInval_keeps (w := w.of (by decide))
          with_reducible apply State.setSpace_keeps (w := w.of (by decide))
          with_reducible assumption
        · split
          · with_reducible apply State.xltStatus_keeps (w := w.of (by decide))
            with_reducible apply State.setSpace_keeps (w := w.of (by decide))
            with_reducible assumption
          · with_reducible apply State.xltStatus_keeps (w := w.of (by decide))
            with_reducible assumption

theorem State.spaceRoot_keeps {m : Nat} {s0 : State} (s : State) (hi : Bool) (val : Word) (h : s0.Keeps m s) (w : Within 0x408 m := by exact Within.of (by assumption) (by decide)) :
    s0.Keeps m (State.spaceRoot s hi val) := by
  unfold State.spaceRoot
  extract_lets a0 a1
  clear_value a0
  clear_value a1
  split
  · with_reducible apply State.xltStatus_keeps (w := w.of (by decide))
    with_reducible assumption
  · split
    · with_reducible apply State.xltStatus_keeps (w := w.of (by decide))
      with_reducible apply State.setSpace_keeps (w := w.of (by decide))
      with_reducible assumption
    · with_reducible apply State.xltStatus_keeps (w := w.of (by decide))
      with_reducible apply State.setSpace_keeps (w := w.of (by decide))
      with_reducible assumption

theorem State.invCmd_keeps {m : Nat} {s0 : State} (s : State) (val : Word) (h : s0.Keeps m s) (w : Within 0x408 m := by exact Within.of (by assumption) (by decide)) :
    s0.Keeps m (State.invCmd s val) := by
  unfold State.invCmd
  extract_lets a0 a1 a2
  have k3 : s0.Keeps m a0 := by
    unfold a0
    with_reducible apply State.invalidationDone_keeps (w := w.of (by decide))
    with_reducible assumption
  clear_value a0
  clear_value a1
  clear_value a2
  split
  · with_reducible assumption
  · with_reducible apply State.xltStatus_keeps (w := w.of (by decide))
    with_reducible apply State.startInval_keeps (w := w.of (by decide))
    with_reducible assumption

theorem State.burstMerge_keeps {m : Nat} {s0 : State} (s : State) (a : ℕ) (d : List Byte) (wx : Fin 16 × List Byte) (failed : Bool) (h : s0.Keeps m s) (w : Within 0x1010 m := by exact Within.of (by assumption) (by decide)) :
    s0.Keeps m (State.burstMerge s a d wx failed) := by
  unfold State.burstMerge
  extract_lets a0 a1 a2 a3 a4
  clear_value a0
  clear_value a1
  have k5 : s0.Keeps m a2 := by
    unfold a2
    with_reducible apply State.setBytes_keeps (w := w.of (by decide))
    with_reducible assumption
  clear_value a2
  clear_value a3
  clear_value a4
  with_reducible apply State.setQdr_keeps (w := w.of (by decide))
  with_reducible assumption

theorem State.qdrRead_keeps {m : Nat} {s0 : State} (s : State) (a : ℕ) (first : BurstFlips) (second : BurstFlips) (rmw : Option (Fin 16 × List Byte)) (h : s0.Keeps m s) (w : Within 0x101c m := by exact Within.of (by assumption) (by decide)) :
    s0.Keeps m (State.qdrRead s a first second rmw) := by
  unfold State.qdrRead
  split
  · with_reducible assumption
  · extract_lets a0 a1 a2 a3 a4 a5
    clear_value a0
    clear_value a1
    clear_value a2
    clear_value a3
    clear_value a4
    have k6 : s0.Keeps m a5 := by
      unfold a5
      split
      · with_reducible assumption
      · split
        · with_reducible apply State.wr_keeps (w := w.of (by decide))
          with_reducible apply State.inc_keeps (w := w.of (by decide))
          with_reducible assumption
        · with_reducible apply State.burstError_keeps (w := w.of (by decide))
          with_reducible assumption
    clear_value a5
    split
    · with_reducible apply State.setReadData_keeps (w := w.of (by decide))
      with_reducible assumption
    · with_reducible apply State.burstMerge_keeps (w := w.of (by decide))
      with_reducible assumption

theorem State.trainChannel_keeps {m : Nat} {s0 : State} (s : State) (c : ℕ) (h : s0.Keeps m s) (w : Within 0x1008 m := by exact Within.of (by assumption) (by decide)) :
    s0.Keeps m (State.trainChannel s c) := by
  unfold State.trainChannel
  extract_lets a0 a1 a2 a3
  clear_value a0
  clear_value a1
  have k4 : s0.Keeps m a2 := by
    unfold a2
    with_reducible apply State.setQdr_keeps (w := w.of (by decide))
    with_reducible assumption
  clear_value a2
  have k5 : s0.Keeps m a3 := by
    unfold a3
    with_reducible apply State.wr_keeps (w := w.of (by decide))
    with_reducible assumption
  clear_value a3
  split
  · with_reducible apply State.wr_keeps (w := w.of (by decide))
    with_reducible apply State.wr_keeps (w := w.of (by decide))
    with_reducible assumption
  · with_reducible apply State.wr_keeps (w := w.of (by decide))
    with_reducible apply State.wr_keeps (w := w.of (by decide))
    with_reducible assumption

theorem State.trainAll_keeps {m : Nat} {s0 : State} (s : State) (h : s0.Keeps m s) (w : Within 0x1008 m := by exact Within.of (by assumption) (by decide)) :
    s0.Keeps m (State.trainAll s) := by
  unfold State.trainAll
  extract_lets a0 a1
  clear_value a0
  have k2 : s0.Keeps m a1 := by
    unfold a1
    with_reducible apply State.setQdr_keeps (w := w.of (by decide))
    with_reducible apply State.wr_keeps (w := w.of (by decide))
    with_reducible assumption
  clear_value a1
  split
  · split
    · with_reducible assumption
    · with_reducible apply State.wr_keeps (w := w.of (by decide))
      with_reducible assumption
  · with_reducible apply State.each_keeps
    · intro x3 x4 x5
      with_reducible apply State.trainChannel_keeps (w := w.of (by decide))
      with_reducible assumption
    · with_reducible assumption

theorem State.qdrCtrl_keeps {m : Nat} {s0 : State} (s : State) (val : Word) (h : s0.Keeps m s) (w : Within 0x1008 m := by exact Within.of (by assumption) (by decide)) :
    s0.Keeps m (State.qdrCtrl s val) := by
  unfold State.qdrCtrl
  extract_lets a0
  have k1 : s0.Keeps m a0 := by
    unfold a0
    with_reducible apply State.plainWrite_keeps (w := w.of (by decide))
    with_reducible assumption
  clear_value a0
  split
  · with_reducible apply State.trainChannel_keeps (w := w.of (by decide))
    with_reducible assumption
  · with_reducible assumption

theorem State.retrain_keeps {m : Nat} {s0 : State} (s : State) (val : Word) (trains : Bool) (h : s0.Keeps m s) (w : Within 0x1008 m := by exact Within.of (by assumption) (by decide)) :
    s0.Keeps m (State.retrain s val trains) := by
  unfold State.retrain
  extract_lets a0 a1 a2
  clear_value a0
  clear_value a1
  clear_value a2
  with_reducible apply State.qdrCtrl_keeps (w := w.of (by decide))
  with_reducible apply State.setQdr_keeps (w := w.of (by decide))
  with_reducible assumption

theorem State.drift_keeps {m : Nat} {s0 : State} (s : State) (c : ℕ) (o : ℤ) (h : s0.Keeps m s) (w : Within 0x8 m := by exact Within.of (by assumption) (by decide)) :
    s0.Keeps m (State.drift s c o) := by
  unfold State.drift
  extract_lets a0 a1
  have k2 : s0.Keeps m a0 := by
    unfold a0
    with_reducible apply State.wr_keeps (w := w.of (by decide))
    with_reducible assumption
  clear_value a0
  have k3 : s0.Keeps m a1 := by
    unfold a1
    with_reducible apply State.wr_keeps (w := w.of (by decide))
    with_reducible assumption
  clear_value a1
  split
  · with_reducible apply State.irq_keeps (w := w.of (by decide))
    with_reducible apply State.wr_keeps (w := w.of (by decide))
    with_reducible assumption
  · with_reducible assumption

theorem execClrHigh_keeps {m : Nat} {s0 : State} (src : Agent) (val : Word) (s : State) (h : s0.Keeps m s) {t : State} (e : execClrHigh src val s = .next t) (w : Within 0x8008 m := by exact Within.of (by assumption) (by decide)) :
    s0.Keeps m t := by
  unfold execClrHigh at e
  injection e with e
  subst e
  with_reducible apply State.writeReg_keeps (w := w.of (by decide))
  · with_reducible assumption
  · intro x0 x1
    with_reducible apply State.wr_keeps (w := w.of (by decide))
    with_reducible assumption

theorem execHoleAccess_keeps {m : Nat} {s0 : State} (acc : Access) (s : State) (h : s0.Keeps m s) {t : State} (e : execHoleAccess acc s = .next t) (w : Within 0x2f9e m := by exact Within.of (by assumption) (by decide)) :
    s0.Keeps m t := by
  unfold execHoleAccess at e
  injection e with e
  subst e
  split
  · with_reducible apply State.accessFault_keeps (w := w.of (by decide))
    with_reducible assumption
  · split
    · split
      · with_reducible apply State.holeAccess_keeps (w := w.of (by decide))
        with_reducible assumption
      · with_reducible apply State.setReadData_keeps (w := w.of (by decide))
        with_reducible apply State.holeAccess_keeps (w := w.of (by decide))
        with_reducible assumption
    · with_reducible assumption

theorem execSysregWrite_keeps {m : Nat} {s0 : State} (addr : BitVec 40) (bytes : List Byte) (s : State) (h : s0.Keeps m s) {t : State} (e : execSysregWrite addr bytes s = .next t) (w : Within 0x5018 m := by exact Within.of (by assumption) (by decide)) :
    s0.Keeps m t := by
  unfold execSysregWrite at e
  injection e with e
  subst e
  split
  · with_reducible apply State.physWrite_keeps (w := w.of (by decide))
    with_reducible assumption
  · with_reducible assumption

theorem execDescriptorWriteDenied_keeps {m : Nat} {s0 : State} (addr : BitVec 40) (bytes : List Byte) (s : State) (h : s0.Keeps m s) {t : State} (e : execDescriptorWriteDenied addr bytes s = .next t) (w : Within 0x5018 m := by exact Within.of (by assumption) (by decide)) :
    s0.Keeps m t := by
  unfold execDescriptorWriteDenied at e
  injection e with e
  subst e
  split
  · with_reducible apply State.physWrite_keeps (w := w.of (by decide))
    with_reducible assumption
  · with_reducible assumption

theorem execQdrReadCheck_keeps {m : Nat} {s0 : State} (addr : BitVec 40) (first : BurstFlips) (second : BurstFlips) (rmw : Option (Fin 16 × List Byte)) (s : State) (h : s0.Keeps m s) {t : State} (e : execQdrReadCheck addr first second rmw s = .next t) (w : Within 0x101c m := by exact Within.of (by assumption) (by decide)) :
    s0.Keeps m t := by
  unfold execQdrReadCheck at e
  injection e with e
  subst e
  with_reducible apply State.qdrRead_keeps (w := w.of (by decide))
  with_reducible assumption

theorem execRetrain_keeps {m : Nat} {s0 : State} (src : Agent) (val : Word) (trains : Bool) (s : State) (h : s0.Keeps m s) {t : State} (e : execRetrain src val trains s = .next t) (w : Within 0x9008 m := by exact Within.of (by assumption) (by decide)) :
    s0.Keeps m t := by
  unfold execRetrain at e
  injection e with e
  subst e
  with_reducible apply State.writeReg_keeps (w := w.of (by decide))
  · with_reducible assumption
  · intro x0 x1
    with_reducible apply State.retrain_keeps (w := w.of (by decide))
    with_reducible assumption

theorem execDriftLimit_keeps {m : Nat} {s0 : State} (ch : Fin 8) (steps : Fin 65) (s : State) (h : s0.Keeps m s) {t : State} (e : execDriftLimit ch steps s = .next t) (w : Within 0x8 m := by exact Within.of (by assumption) (by decide)) :
    s0.Keeps m t := by
  unfold execDriftLimit at e
  injection e with e
  subst e
  with_reducible apply State.drift_keeps (w := w.of (by decide))
  with_reducible assumption

theorem execQdrErrPop_keeps {m : Nat} {s0 : State} (src : Agent) (val : Word) (s : State) (h : s0.Keeps m s) {t : State} (e : execQdrErrPop src val s = .next t) (w : Within 0x8008 m := by exact Within.of (by assumption) (by decide)) :
    s0.Keeps m t := by
  unfold execQdrErrPop at e
  injection e with e
  subst e
  with_reducible apply State.writeReg_keeps (w := w.of (by decide))
  · with_reducible assumption
  · intro x0 x1
    split
    · with_reducible apply State.wr_keeps (w := w.of (by decide))
      with_reducible assumption
    · with_reducible assumption

theorem execXltSpaceReq_keeps {m : Nat} {s0 : State} (src : Agent) (val : Word) (s : State) (h : s0.Keeps m s) {t : State} (e : execXltSpaceReq src val s = .next t) (w : Within 0x8408 m := by exact Within.of (by assumption) (by decide)) :
    s0.Keeps m t := by
  unfold execXltSpaceReq at e
  injection e with e
  subst e
  with_reducible apply State.writeReg_keeps (w := w.of (by decide))
  · with_reducible assumption
  · intro x0 x1
    with_reducible apply State.spaceReq_keeps (w := w.of (by decide))
    with_reducible assumption

theorem execSpaceEnable_keeps {m : Nat} {s0 : State} (src : Agent) (s : State) (h : s0.Keeps m s) {t : State} (e : execSpaceEnable src s = .next t) (w : Within 0x8408 m := by exact Within.of (by assumption) (by decide)) :
    s0.Keeps m t := by
  unfold execSpaceEnable at e
  injection e with e
  subst e
  with_reducible apply State.writeReg_keeps (w := w.of (by decide))
  · with_reducible assumption
  · intro x0 x1
    with_reducible apply State.spaceCmd_keeps (w := w.of (by decide))
    with_reducible assumption

theorem execSpaceDisable_keeps {m : Nat} {s0 : State} (src : Agent) (s : State) (h : s0.Keeps m s) {t : State} (e : execSpaceDisable src s = .next t) (w : Within 0x8408 m := by exact Within.of (by assumption) (by decide)) :
    s0.Keeps m t := by
  unfold execSpaceDisable at e
  injection e with e
  subst e
  with_reducible apply State.writeReg_keeps (w := w.of (by decide))
  · with_reducible assumption
  · intro x0 x1
    with_reducible apply State.spaceCmd_keeps (w := w.of (by decide))
    with_reducible assumption

theorem execSpaceFree_keeps {m : Nat} {s0 : State} (src : Agent) (s : State) (h : s0.Keeps m s) {t : State} (e : execSpaceFree src s = .next t) (w : Within 0x8408 m := by exact Within.of (by assumption) (by decide)) :
    s0.Keeps m t := by
  unfold execSpaceFree at e
  injection e with e
  subst e
  with_reducible apply State.writeReg_keeps (w := w.of (by decide))
  · with_reducible assumption
  · intro x0 x1
    with_reducible apply State.spaceCmd_keeps (w := w.of (by decide))
    with_reducible assumption

theorem execSpaceRootWrite_keeps {m : Nat} {s0 : State} (src : Agent) (hi : Bool) (val : Word) (s : State) (h : s0.Keeps m s) {t : State} (e : execSpaceRootWrite src hi val s = .next t) (w : Within 0x8408 m := by exact Within.of (by assumption) (by decide)) :
    s0.Keeps m t := by
  unfold execSpaceRootWrite at e
  injection e with e
  subst e
  with_reducible apply State.writeReg_keeps (w := w.of (by decide))
  · with_reducible assumption
  · intro x0 x1
    with_reducible apply State.spaceRoot_keeps (w := w.of (by decide))
    with_reducible assumption

theorem execXltInvCmd_keeps {m : Nat} {s0 : State} (src : Agent) (val : Word) (s : State) (h : s0.Keeps m s) {t : State} (e : execXltInvCmd src val s = .next t) (w : Within 0x8408 m := by exact Within.of (by assumption) (by decide)) :
    s0.Keeps m t := by
  unfold execXltInvCmd at e
  injection e with e
  subst e
  with_reducible apply State.writeReg_keeps (w := w.of (by decide))
  · with_reducible assumption
  · intro x0 x1
    with_reducible apply State.invCmd_keeps (w := w.of (by decide))
    with_reducible assumption

theorem execInvalidationDone_keeps {m : Nat} {s0 : State} (s : State) (h : s0.Keeps m s) {t : State} (e : execInvalidationDone s = .next t) (w : Within 0x408 m := by exact Within.of (by assumption) (by decide)) :
    s0.Keeps m t := by
  unfold execInvalidationDone at e
  injection e with e
  subst e
  with_reducible apply State.invalidationDone_keeps (w := w.of (by decide))
  with_reducible assumption

theorem execTranslationFault_keeps {m : Nat} {s0 : State} (acc : Access) (stop : StopPoint) (badLevel : Fin 4) (s : State) (h : s0.Keeps m s) {t : State} (e : execTranslationFault acc stop badLevel s = .next t) (w : Within 0x2f9a m := by exact Within.of (by assumption) (by decide)) :
    s0.Keeps m t := by
  unfold execTranslationFault at e
  injection e with e
  subst e
  split
  · with_reducible apply State.accessFault_keeps (w := w.of (by decide))
    with_reducible assumption
  · with_reducible assumption

theorem execFaultQueueWaitEnd_keeps {m : Nat} {s0 : State} (s : State) (h : s0.Keeps m s) {t : State} (e : execFaultQueueWaitEnd s = .next t) (w : Within 0x2f9a m := by exact Within.of (by assumption) (by decide)) :
    s0.Keeps m t := by
  unfold execFaultQueueWaitEnd at e
  injection e with e
  subst e
  with_reducible apply State.faultQueueWaitEnd_keeps (w := w.of (by decide))
  with_reducible assumption

theorem State.fqHead_keeps {m : Nat} {s0 : State} (s : State) (val : Word) (h : s0.Keeps m s) (w : Within 0x8 m := by exact Within.of (by assumption) (by decide)) :
    s0.Keeps m (State.fqHead s val) := by
  unfold State.fqHead
  with_reducible apply State.noteFq_keeps (w := w.of (by decide))
  with_reducible apply State.plainWrite_keeps (w := w.of (by decide))
  with_reducible assumption

theorem State.qdrRegWrite_keeps {m : Nat} {s0 : State} (s : State) (o : ℕ) (val : Word) (h : s0.Keeps m s) (w : Within 0x1008 m := by exact Within.of (by assumption) (by decide)) :
    s0.Keeps m (State.qdrRegWrite s o val) := by
  unfold State.qdrRegWrite
  split
  · with_reducible apply State.qdrCtrl_keeps (w := w.of (by decide))
    with_reducible assumption
  · split
    · split
      · with_reducible apply State.wr_keeps (w := w.of (by decide))
        with_reducible assumption
      · with_reducible assumption
    · with_reducible apply State.plainWrite_keeps (w := w.of (by decide))
      with_reducible assumption

end Sys2Proof.Machine
end

