-- ==== Sys2Proof/Laws/KeepsBoot.lean ====
section
/-! SUPPORT. The operations of Machine/Boot.lean keep the queue and the invariant (`State.Keeps`). -/

namespace Sys2Proof.Machine

set_option Elab.async false
set_option linter.unusedVariables false

theorem State.cutFuse_keeps {m : Nat} {s0 : State} (s : State) (h : s0.Keeps m s) (w : Within 0x800000a m := by exact Within.of (by assumption) (by decide)) :
    s0.Keeps m (State.cutFuse s) := by
  unfold State.cutFuse
  split
  · extract_lets a0 a1
    have k2 : s0.Keeps m a0 := by
      unfold a0
      with_reducible apply State.each_keeps
      · intro x3 x4 x5
        with_reducible apply State.wr_keeps (w := w.of (by decide))
        with_reducible apply State.takeFree_keeps (w := w.of (by decide))
        with_reducible assumption
      · with_reducible assumption
    clear_value a0
    clear_value a1
    with_reducible apply State.setBoot_keeps (w := w.of (by decide))
    with_reducible apply State.wr_keeps (w := w.of (by decide))
    with_reducible assumption
  · with_reducible apply State.setBoot_keeps (w := w.of (by decide))
    with_reducible assumption

theorem keptRegs_wfFrom (m : KMap Word) (b : Nat) (hm : KMap.wfFrom regReset b m = true) :
    KMap.wfFrom regReset b (keptRegs m) = true := by
  induction m generalizing b with
  | nil => rfl
  | cons x tl ih =>
    obtain ⟨k, w⟩ := x
    simp only [KMap.wfFrom, Bool.and_eq_true, decide_eq_true_eq] at hm
    have ih' := ih (k + 1) hm.2
    unfold keptRegs at ih' ⊢
    simp only [List.filterMap_cons]
    split
    · exact KMap.wfFrom_mono _ _ (k + 1) b ih' (by omega)
    · rename_i e he
      split at he
      · cases he
        simp only [KMap.wfFrom, Bool.and_eq_true, decide_eq_true_eq]
        exact ⟨hm.1, ih'⟩
      · split at he
        · cases he
        · rename_i hw
          cases he
          simp only [KMap.wfFrom, Bool.and_eq_true, decide_eq_true_eq]
          exact ⟨⟨hm.1.1, hw⟩, ih'⟩

theorem keptRegs_disc (m : KMap Word) (hm : ∀ e ∈ m, isDiscovery e.1 = false) :
    ∀ e ∈ keptRegs m, isDiscovery e.1 = false := by
  intro e he
  simp only [keptRegs, List.mem_filterMap] at he
  obtain ⟨x, hx, he⟩ := he
  split at he
  · cases he; exact hm _ hx
  · split at he
    · cases he
    · cases he; exact hm x hx

theorem State.afterReset_keeps {m : Nat} {s0 : State} (s : State) (regs : KMap Word) (h : s0.Keeps m s) (hr : s.Inv → KMap.wf regReset regs = true ∧ ∀ e ∈ regs, isDiscovery e.1 = false) (w : Within 0x3fffffff m := by exact Within.of (by assumption) (by decide)) :
    s0.Keeps m (s.afterReset regs) := by
  unfold State.afterReset
  apply State.wrB_keeps (w := w.of (by decide))
  exact ⟨h.pending, fun i => ⟨rfl, (hr (h.inv i)).1, (hr (h.inv i)).2⟩, fun p hb => absurd (w p.bit (by cases p <;> rfl)) (by simp [hb])⟩

theorem State.coldReset_keeps {m : Nat} {s0 : State} (s : State) (h : s0.Keeps m s) (w : Within 0x3fffffff m := by exact Within.of (by assumption) (by decide)) :
    s0.Keeps m s.coldReset := by
  unfold State.coldReset
  have k1 : s0.Keeps m s.cutFuse := State.cutFuse_keeps s h
  apply State.setCux_keeps (w := w.of (by decide))
  apply State.setXlt_keeps (w := w.of (by decide))
  apply State.setPtp_keeps (w := w.of (by decide))
  apply State.setPwr_keeps (w := w.of (by decide))
  apply State.setBoot_keeps (w := w.of (by decide))
  apply State.afterReset_keeps _ _ k1
  exact fun i => ⟨KMap.filter_wf _ _ _ i.regs, fun e m => i.disc e (List.mem_of_mem_filter m)⟩

theorem keptRegs_ok {s : State} (i : s.Inv) :
    KMap.wf regReset (keptRegs s.regs) = true ∧ ∀ e ∈ keptRegs s.regs, isDiscovery e.1 = false := by
  exact ⟨keptRegs_wfFrom _ _ i.regs, keptRegs_disc _ i.disc⟩

theorem State.enterMidnight_keeps {m : Nat} {s0 : State} (s : State) (cause : Nat) (h : s0.Keeps m s) (w : Within 0x3fffffff m := by exact Within.of (by assumption) (by decide)) :
    s0.Keeps m (s.enterMidnight cause) := by
  unfold State.enterMidnight
  have k1 : s0.Keeps m s.cutFuse := State.cutFuse_keeps s h
  exact State.wr_keeps _ _ _ (State.afterReset_keeps _ _ k1 keptRegs_ok)

theorem State.updReport_keeps {m : Nat} {s0 : State} (s : State) (code : ℕ) (h : s0.Keeps m s) (w : Within 0x8 m := by exact Within.of (by assumption) (by decide)) :
    s0.Keeps m (State.updReport s code) := by
  unfold State.updReport
  with_reducible apply State.irq_keeps (w := w.of (by decide))
  with_reducible apply State.wr_keeps (w := w.of (by decide))
  with_reducible assumption

theorem State.updEnd_keeps {m : Nat} {s0 : State} (s : State) (h : s0.Keeps m s) (w : Within 0x20000008 m := by exact Within.of (by assumption) (by decide)) :
    s0.Keeps m (State.updEnd s) := by
  unfold State.updEnd
  extract_lets a0 a1
  have k2 : s0.Keeps m a0 := by
    unfold a0
    with_reducible apply State.setUpd_keeps (w := w.of (by decide))
    with_reducible assumption
  clear_value a0
  have k3 : s0.Keeps m a1 := by
    unfold a1
    with_reducible apply State.wr_keeps (w := w.of (by decide))
    with_reducible apply State.wr_keeps (w := w.of (by decide))
    with_reducible apply State.wr_keeps (w := w.of (by decide))
    with_reducible assumption
  clear_value a1
  with_reducible apply State.irq_keeps (w := w.of (by decide))
  with_reducible assumption

theorem State.handoverFail_keeps {m : Nat} {s0 : State} (s : State) (u : ℕ) (h : s0.Keeps m s) (w : Within 0x20000008 m := by exact Within.of (by assumption) (by decide)) :
    s0.Keeps m (State.handoverFail s u) := by
  unfold State.handoverFail
  split
  · with_reducible apply State.updReport_keeps (w := w.of (by decide))
    with_reducible apply State.updEnd_keeps (w := w.of (by decide))
    with_reducible assumption
  · with_reducible assumption

theorem State.loadComp_keeps {m : Nat} {s0 : State} (s : State) (r : ℕ → Byte) (d : List Byte) (typ : ℕ) (h : s0.Keeps m s) (w : Within 0x8 m := by exact Within.of (by assumption) (by decide)) :
    s0.Keeps m ((State.loadComp s r d typ).2) := by
  unfold State.loadComp
  extract_lets a0
  clear_value a0
  split
  · with_reducible assumption
  · split
    · dsimp only
      with_reducible apply State.wr_keeps (w := w.of (by decide))
      with_reducible apply State.wr_keeps (w := w.of (by decide))
      with_reducible assumption
    · with_reducible assumption

theorem State.loadComp_keeps_eq {m : Nat} {s0 : State} {s : State} {r : ℕ → Byte} {d : List Byte} {typ : ℕ} {a : _} {t : State} (h : s0.Keeps m s)  (e : State.loadComp s r d typ = (a, t)) (w : Within 0x8 m := by exact Within.of (by assumption) (by decide)) :
    s0.Keeps m t :=
  State.keeps_snd_eq (State.loadComp_keeps s r d typ h ) e

theorem State.awaitHost_keeps {m : Nat} {s0 : State} (s : State) (h : s0.Keeps m s) (w : Within 0x8000008 m := by exact Within.of (by assumption) (by decide)) :
    s0.Keeps m (State.awaitHost s) := by
  unfold State.awaitHost
  extract_lets a0 a1 a2
  clear_value a0
  have k3 : s0.Keeps m a1 := by
    unfold a1
    with_reducible apply State.setBoot_keeps (w := w.of (by decide))
    with_reducible assumption
  clear_value a1
  have k4 : s0.Keeps m a2 := by
    unfold a2
    with_reducible apply State.wr_keeps (w := w.of (by decide))
    with_reducible apply State.wr_keeps (w := w.of (by decide))
    with_reducible assumption
  clear_value a2
  with_reducible apply State.wr_keeps (w := w.of (by decide))
  with_reducible apply State.wr_keeps (w := w.of (by decide))
  with_reducible assumption

theorem State.bootFail_keeps {m : Nat} {s0 : State} (s : State) (code : ℕ) (h : s0.Keeps m s) (w : Within 0x8000008 m := by exact Within.of (by assumption) (by decide)) :
    s0.Keeps m (State.bootFail s code) := by
  unfold State.bootFail
  with_reducible apply State.awaitHost_keeps (w := w.of (by decide))
  with_reducible apply State.wr_keeps (w := w.of (by decide))
  with_reducible assumption

theorem State.resetSettings_keeps {m : Nat} {s0 : State} (s : State) (h : s0.Keeps m s) (w : Within 0x8 m := by exact Within.of (by assumption) (by decide)) :
    s0.Keeps m (State.resetSettings s) := by
  unfold State.resetSettings
  extract_lets a0 a1
  clear_value a0
  have k2 : s0.Keeps m a1 := by
    unfold a1
    with_reducible apply State.each_keeps
    · intro x3 x4 x5
      with_reducible apply State.setReg_keeps (w := w.of (by decide))
      with_reducible assumption
    · with_reducible assumption
  clear_value a1
  with_reducible apply State.setRegs_filter_keeps (w := w.of (by decide))
  with_reducible assumption

theorem State.startKeeper_keeps {m : Nat} {s0 : State} (s : State) (fw : List Byte) (h : s0.Keeps m s) (w : Within 0x8000008 m := by exact Within.of (by assumption) (by decide)) :
    s0.Keeps m (State.startKeeper s fw) := by
  unfold State.startKeeper
  extract_lets a0 a1 a2
  clear_value a0
  have k3 : s0.Keeps m a1 := by
    unfold a1
    with_reducible apply State.setBoot_keeps (w := w.of (by decide))
    with_reducible assumption
  clear_value a1
  clear_value a2
  split
  · with_reducible assumption
  · extract_lets a4 a5
    clear_value a4
    have k6 : s0.Keeps m a5 := by
      unfold a5
      with_reducible apply State.setBoot_keeps (w := w.of (by decide))
      with_reducible assumption
    clear_value a5
    split
    · with_reducible assumption
    · with_reducible apply State.updReport_keeps (w := w.of (by decide))
      with_reducible apply State.resetSettings_keeps (w := w.of (by decide))
      with_reducible assumption

theorem State.bootKeeper_keeps {m : Nat} {s0 s t : State} {d : List Byte} {r : Bool} (h : s0.Keeps m s) (e : s.bootKeeper d r = some t) (w : Within 0x8000008 m := by exact Within.of (by assumption) (by decide)) :
    s0.Keeps m t := by
  unfold State.bootKeeper at e
  split at e
  · cases e
    exact State.wr_keeps _ _ _ h
  · split at e
    · rename_i e'
      cases e
      exact State.startKeeper_keeps _ _ (State.wr_keeps _ _ _ (State.loadComp_keeps_eq h e'))
    · cases e

theorem State.bootKeeper_keeps_getD {m : Nat} {s0 s : State} {d : List Byte} {r : Bool} (h : s0.Keeps m s) (w : Within 0x8000008 m := by exact Within.of (by assumption) (by decide)) :
    s0.Keeps m ((s.bootKeeper d r).getD s) := by
  cases e : s.bootKeeper d r with
  | none => exact h
  | some t => exact State.bootKeeper_keeps h e

theorem State.applyCfg_keeps {m : Nat} {s0 : State} (s : State) (c : List Byte) (h : s0.Keeps m s) (w : Within 0x4001008 m := by exact Within.of (by assumption) (by decide)) :
    s0.Keeps m (State.applyCfg s c) := by
  unfold State.applyCfg
  extract_lets a0 a1 a2 a3
  have k4 : s0.Keeps m a0 := by
    unfold a0
    with_reducible apply State.plainWrite_keeps (w := w.of (by decide))
    with_reducible assumption
  clear_value a0
  have k5 : s0.Keeps m a1 := by
    unfold a1
    with_reducible apply State.wr_keeps (w := w.of (by decide))
    with_reducible apply State.wr_keeps (w := w.of (by decide))
    with_reducible assumption
  clear_value a1
  have k6 : s0.Keeps m a2 := by
    unfold a2
    with_reducible apply State.wr_keeps (w := w.of (by decide))
    with_reducible apply State.wr_keeps (w := w.of (by decide))
    with_reducible assumption
  clear_value a2
  clear_value a3
  with_reducible apply State.trainAll_keeps (w := w.of (by decide))
  with_reducible apply State.setPwr_keeps (w := w.of (by decide))
  with_reducible assumption

theorem State.loadUnit_keeps {m : Nat} {s0 : State} (s : State) (u : ℕ) (fw : List Byte) (h : s0.Keeps m s) (w : Within 0x8000 m := by exact Within.of (by assumption) (by decide)) :
    s0.Keeps m (State.loadUnit s u fw) := by
  unfold State.loadUnit
  extract_lets a0 a1
  have k2 : s0.Keeps m a0 := by
    unfold a0
    with_reducible apply State.sramWrite_keeps (w := w.of (by decide))
    with_reducible assumption
  clear_value a0
  clear_value a1
  with_reducible apply State.setUnit_keeps (w := w.of (by decide))
  with_reducible assumption

theorem State.bootLib_keeps {m : Nat} {s0 : State} (s : State) (d : List Byte) (lib : ℕ) (h : s0.Keeps m s) (w : Within 0x5018 m := by exact Within.of (by assumption) (by decide)) :
    s0.Keeps m (State.bootLib s d lib) := by
  unfold State.bootLib
  split
  · with_reducible refine State.loadComp_keeps_eq (w := w.of (by decide)) ?_ (by assumption)
    with_reducible assumption
  · extract_lets a0
    have k1 : s0.Keeps m a0 := by
      unfold a0
      with_reducible apply State.wr_keeps (w := w.of (by decide))
      with_reducible apply State.physWrite_keeps (w := w.of (by decide))
      with_reducible refine State.loadComp_keeps_eq (w := w.of (by decide)) ?_ (by assumption)
      with_reducible assumption
    clear_value a0
    with_reducible apply State.wr_keeps (w := w.of (by decide))
    with_reducible apply State.wr_keeps (w := w.of (by decide))
    with_reducible apply State.wr_keeps (w := w.of (by decide))
    with_reducible assumption

theorem State.bootUnits_keeps {m : Nat} {s0 : State} (s : State) (d : List Byte) (h : s0.Keeps m s) (w : Within 0xc00d018 m := by exact Within.of (by assumption) (by decide)) :
    s0.Keeps m (State.bootUnits s d) := by
  unfold State.bootUnits
  split
  · with_reducible apply State.bootFail_keeps (w := w.of (by decide))
    with_reducible refine State.loadComp_keeps_eq (w := w.of (by decide)) ?_ (by assumption)
    with_reducible assumption
  · extract_lets a0 a1 a2
    clear_value a0
    have k3 : s0.Keeps m a1 := by
      unfold a1
      with_reducible apply State.wr_keeps (w := w.of (by decide))
      with_reducible apply State.applyCfg_keeps (w := w.of (by decide))
      with_reducible refine State.loadComp_keeps_eq (w := w.of (by decide)) ?_ (by assumption)
      with_reducible assumption
    clear_value a1
    clear_value a2
    split
    · with_reducible apply State.bootFail_keeps (w := w.of (by decide))
      with_reducible refine State.loadComp_keeps_eq (w := w.of (by decide)) ?_ (by assumption)
      with_reducible assumption
    · extract_lets a4 a5 a6 a7
      have k8 : s0.Keeps m a4 := by
        unfold a4
        with_reducible apply State.wr_keeps (w := w.of (by decide))
        with_reducible refine State.loadComp_keeps_eq (w := w.of (by decide)) ?_ (by assumption)
        with_reducible assumption
      clear_value a4
      have k9 : s0.Keeps m a5 := by
        unfold a5
        split
        · with_reducible assumption
        · with_reducible apply State.each_keeps
          · intro x10 x11 x12
            with_reducible apply State.loadUnit_keeps (w := w.of (by decide))
            with_reducible assumption
          · with_reducible assumption
      clear_value a5
      have k13 : s0.Keeps m a6 := by
        unfold a6
        with_reducible apply State.bootLib_keeps (w := w.of (by decide))
        with_reducible assumption
      clear_value a6
      clear_value a7
      with_reducible apply State.setBoot_keeps (w := w.of (by decide))
      with_reducible assumption

theorem State.bootDir_keeps {m : Nat} {s0 : State} (s : State) (retained : Bool) (x2 : Option (ℕ × List Byte)) (h : s0.Keeps m s) (w : Within 0xc00d018 m := by exact Within.of (by assumption) (by decide)) :
    s0.Keeps m (State.bootDir s retained x2) := by
  unfold State.bootDir
  split
  · with_reducible apply State.bootFail_keeps (w := w.of (by decide))
    with_reducible assumption
  · extract_lets a0
    have k1 : s0.Keeps m a0 := by
      unfold a0
      with_reducible apply State.wr_keeps (w := w.of (by decide))
      with_reducible assumption
    clear_value a0
    split
    · with_reducible apply State.bootFail_keeps (w := w.of (by decide))
      with_reducible assumption
    · with_reducible apply State.bootUnits_keeps (w := w.of (by decide))
      with_reducible refine State.bootKeeper_keeps (w := w.of (by decide)) ?_ (by assumption)
      with_reducible assumption

theorem State.bootFrom_keeps {m : Nat} {s0 : State} (s : State) (retained : Bool) (h : s0.Keeps m s) (w : Within 0xc00d018 m := by exact Within.of (by assumption) (by decide)) :
    s0.Keeps m (State.bootFrom s retained) := by
  unfold State.bootFrom
  with_reducible apply State.bootDir_keeps (w := w.of (by decide))
  with_reducible assumption

theorem State.bootStart_keeps {m : Nat} {s0 : State} (s : State) (kind : ℕ) (retained : Bool) (h : s0.Keeps m s) (w : Within 0xc00d018 m := by exact Within.of (by assumption) (by decide)) :
    s0.Keeps m (State.bootStart s kind retained) := by
  unfold State.bootStart
  extract_lets a0 a1 a2 a3 a4 a5 a6
  clear_value a0
  have k7 : s0.Keeps m a1 := by
    unfold a1
    with_reducible apply State.wrB_keeps (w := w.of (by decide))
    with_reducible apply State.wr_keeps (w := w.of (by decide))
    with_reducible assumption
  clear_value a1
  have k8 : s0.Keeps m a2 := by
    unfold a2
    with_reducible apply State.wr_keeps (w := w.of (by decide))
    with_reducible apply State.wrB_keeps (w := w.of (by decide))
    with_reducible assumption
  clear_value a2
  clear_value a3
  have k9 : s0.Keeps m a4 := by
    unfold a4
    with_reducible apply State.wr_keeps (w := w.of (by decide))
    with_reducible assumption
  clear_value a4
  clear_value a5
  have k10 : s0.Keeps m a6 := by
    unfold a6
    with_reducible apply State.setBoot_keeps (w := w.of (by decide))
    with_reducible assumption
  clear_value a6
  split
  · with_reducible apply State.awaitHost_keeps (w := w.of (by decide))
    with_reducible assumption
  · with_reducible apply State.bootFrom_keeps (w := w.of (by decide))
    with_reducible assumption

theorem State.dawnTime_keeps {m : Nat} {s0 : State} (s : State) (ticks : ℕ) (h : s0.Keeps m s) (w : Within 0x10000 m := by exact Within.of (by assumption) (by decide)) :
    s0.Keeps m (State.dawnTime s ticks) := by
  unfold State.dawnTime
  extract_lets a0
  clear_value a0
  with_reducible apply State.setPtp_keeps (w := w.of (by decide))
  with_reducible assumption

theorem State.duskTime_keeps {m : Nat} {s0 : State} (s : State) (h : s0.Keeps m s) (w : Within 0x10000 m := by exact Within.of (by assumption) (by decide)) :
    s0.Keeps m (State.duskTime s) := by
  unfold State.duskTime
  with_reducible apply State.setPtp_keeps (w := w.of (by decide))
  with_reducible assumption

theorem State.coldStart_keeps {m : Nat} {s0 : State} (s : State) (vin : ℕ) (pref : Bool) (sel : ℕ) (dev : BootDev) (h : s0.Keeps m s) (w : Within 0xc01d018 m := by exact Within.of (by assumption) (by decide)) :
    s0.Keeps m (State.coldStart s vin pref sel dev) := by
  unfold State.coldStart
  split
  · with_reducible assumption
  · extract_lets a0 a1 a2 a3 a4
    clear_value a0
    have k5 : s0.Keeps m a1 := by
      unfold a1
      with_reducible apply State.setBoot_keeps (w := w.of (by decide))
      with_reducible assumption
    clear_value a1
    clear_value a2
    clear_value a3
    have k6 : s0.Keeps m a4 := by
      unfold a4
      with_reducible apply State.setQdr_keeps (w := w.of (by decide))
      with_reducible apply State.setPtp_keeps (w := w.of (by decide))
      with_reducible apply State.setPwr_keeps (w := w.of (by decide))
      with_reducible assumption
    clear_value a4
    with_reducible apply State.bootStart_keeps (w := w.of (by decide))
    with_reducible assumption

theorem State.wakeUp_keeps {m : Nat} {s0 : State} (s : State) (src : ℕ) (ticks : ℕ) (h : s0.Keeps m s) (w : Within 0xc01d018 m := by exact Within.of (by assumption) (by decide)) :
    s0.Keeps m (State.wakeUp s src ticks) := by
  unfold State.wakeUp
  with_reducible apply State.bootStart_keeps (w := w.of (by decide))
  with_reducible apply State.dawnTime_keeps (w := w.of (by decide))
  with_reducible apply State.wr_keeps (w := w.of (by decide))
  with_reducible assumption

theorem State.warmNow_keeps {m : Nat} {s0 : State} (s : State) (ticks : Nat) (h : s0.Keeps m s) (w : Within 0x3fffffff m := by exact Within.of (by assumption) (by decide)) :
    s0.Keeps m (s.warmNow ticks) := by
  unfold State.warmNow
  have k1 : s0.Keeps m s.cutFuse := State.cutFuse_keeps s h
  apply State.bootStart_keeps (w := w.of (by decide))
  apply State.dawnTime_keeps (w := w.of (by decide))
  apply State.setPtp_keeps (w := w.of (by decide))
  apply State.wr_keeps (w := w.of (by decide))
  apply State.wr_keeps (w := w.of (by decide))
  apply State.wr_keeps (w := w.of (by decide))
  apply State.setHif_keeps (w := w.of (by decide))
  exact State.afterReset_keeps _ _ k1 keptRegs_ok

theorem State.warmIfWaiting_keeps {m : Nat} {s0 : State} (s : State) (h : s0.Keeps m s) (w : Within 0x3fffffff m := by exact Within.of (by assumption) (by decide)) :
    s0.Keeps m (State.warmIfWaiting s) := by
  unfold State.warmIfWaiting
  split
  · with_reducible apply State.warmNow_keeps (w := w.of (by decide))
    with_reducible assumption
  · with_reducible assumption

theorem State.hostGo_keeps {m : Nat} {s0 : State} (s : State) (val : Word) (h : s0.Keeps m s) (w : Within 0xc00d018 m := by exact Within.of (by assumption) (by decide)) :
    s0.Keeps m (State.hostGo s val) := by
  unfold State.hostGo
  split
  · with_reducible apply State.bootFrom_keeps (w := w.of (by decide))
    with_reducible apply State.wr_keeps (w := w.of (by decide))
    with_reducible apply State.setBoot_keeps (w := w.of (by decide))
    with_reducible assumption
  · with_reducible assumption

theorem State.noteHalted_keeps {m : Nat} {s0 : State} (s : State) (h : s0.Keeps m s) (w : Within 0x8 m := by exact Within.of (by assumption) (by decide)) :
    s0.Keeps m (State.noteHalted s) := by
  unfold State.noteHalted
  with_reducible apply State.wr_keeps (w := w.of (by decide))
  with_reducible assumption

theorem State.releaseUnit_keeps {m : Nat} {s0 : State} (s : State) (u : ℕ) (h : s0.Keeps m s) (w : Within 0x8008008 m := by exact Within.of (by assumption) (by decide)) :
    s0.Keeps m (State.releaseUnit s u) := by
  unfold State.releaseUnit
  split
  · with_reducible assumption
  · extract_lets a0 a1 a2 a3 a4 a5 a6 a7
    clear_value a0
    have k8 : s0.Keeps m a1 := by
      unfold a1
      with_reducible apply State.setBoot_keeps (w := w.of (by decide))
      with_reducible assumption
    clear_value a1
    have k9 : s0.Keeps m a2 := by
      unfold a2
      with_reducible apply State.sramWrite_keeps (w := w.of (by decide))
      with_reducible assumption
    clear_value a2
    clear_value a3
    clear_value a4
    clear_value a5
    have k10 : s0.Keeps m a6 := by
      unfold a6
      with_reducible apply State.noteHalted_keeps (w := w.of (by decide))
      with_reducible apply State.setUnit_keeps (w := w.of (by decide))
      with_reducible assumption
    clear_value a6
    have k11 : s0.Keeps m a7 := by
      unfold a7
      with_reducible apply State.wr_keeps (w := w.of (by decide))
      with_reducible assumption
    clear_value a7
    split
    · with_reducible apply State.wr_keeps (w := w.of (by decide))
      with_reducible assumption
    · with_reducible assumption

theorem State.holdUnit_keeps {m : Nat} {s0 : State} (s : State) (u : ℕ) (h : s0.Keeps m s) (w : Within 0x8008 m := by exact Within.of (by assumption) (by decide)) :
    s0.Keeps m (State.holdUnit s u) := by
  unfold State.holdUnit
  extract_lets a0 a1
  clear_value a0
  have k2 : s0.Keeps m a1 := by
    unfold a1
    with_reducible apply State.noteHalted_keeps (w := w.of (by decide))
    with_reducible apply State.setUnit_keeps (w := w.of (by decide))
    with_reducible assumption
  clear_value a1
  with_reducible apply State.setSynced_keeps (w := w.of (by decide))
  with_reducible apply State.wr_keeps (w := w.of (by decide))
  with_reducible assumption

theorem State.restartLoad_keeps {m : Nat} {s0 : State} (s : State) (u : ℕ) (x2 : Option (ℕ × List Byte)) (h : s0.Keeps m s) (w : Within 0x8008008 m := by exact Within.of (by assumption) (by decide)) :
    s0.Keeps m ((State.restartLoad s u x2).2) := by
  unfold State.restartLoad
  split
  · with_reducible assumption
  · extract_lets a0
    have k1 : s0.Keeps m a0 := by
      unfold a0
      with_reducible apply State.wr_keeps (w := w.of (by decide))
      with_reducible assumption
    clear_value a0
    split
    · with_reducible refine State.loadComp_keeps_eq (w := w.of (by decide)) ?_ (by assumption)
      with_reducible assumption
    · extract_lets a2 a3
      have k4 : s0.Keeps m a2 := by
        unfold a2
        with_reducible apply State.loadUnit_keeps (w := w.of (by decide))
        with_reducible apply State.wr_keeps (w := w.of (by decide))
        with_reducible refine State.loadComp_keeps_eq (w := w.of (by decide)) ?_ (by assumption)
        with_reducible assumption
      clear_value a2
      clear_value a3
      dsimp only
      with_reducible apply State.setBoot_keeps (w := w.of (by decide))
      with_reducible assumption

theorem State.restartLoad_keeps_eq {m : Nat} {s0 : State} {s : State} {u : ℕ} {x2 : Option (ℕ × List Byte)} {a : _} {t : State} (h : s0.Keeps m s)  (e : State.restartLoad s u x2 = (a, t)) (w : Within 0x8008008 m := by exact Within.of (by assumption) (by decide)) :
    s0.Keeps m t :=
  State.keeps_snd_eq (State.restartLoad_keeps s u x2 h ) e

theorem State.restartTry_keeps {m : Nat} {s0 : State} (s : State) (u : ℕ) (h : s0.Keeps m s) (w : Within 0x8008008 m := by exact Within.of (by assumption) (by decide)) :
    s0.Keeps m ((State.restartTry s u).2) := by
  unfold State.restartTry
  with_reducible apply State.restartLoad_keeps (w := w.of (by decide))
  with_reducible apply State.holdUnit_keeps (w := w.of (by decide))
  with_reducible apply State.inc_keeps (w := w.of (by decide))
  with_reducible assumption

theorem State.restartTry_keeps_eq {m : Nat} {s0 : State} {s : State} {u : ℕ} {a : _} {t : State} (h : s0.Keeps m s)  (e : State.restartTry s u = (a, t)) (w : Within 0x8008008 m := by exact Within.of (by assumption) (by decide)) :
    s0.Keeps m t :=
  State.keeps_snd_eq (State.restartTry_keeps s u h ) e

theorem State.restartUnit_keeps {m : Nat} {s0 : State} (s : State) (u fuel : Nat) (h : s0.Keeps m s) (w : Within 0x28008008 m := by exact Within.of (by assumption) (by decide)) :
    s0.Keeps m ((s.restartUnit u fuel)) := by
  induction fuel generalizing s with
  | zero =>
    rw [State.restartUnit]
    exact State.handoverFail_keeps _ u (State.wr_keeps s _ _ h)
  | succ fuel ih =>
    rw [State.restartUnit]
    split
    · exact State.restartTry_keeps s u h
    · exact ih _ (State.restartTry_keeps s u h)

theorem State.restartCmd_keeps {m : Nat} {s0 : State} (s : State) (u : ℕ) (h : s0.Keeps m s) (w : Within 0x28008008 m := by exact Within.of (by assumption) (by decide)) :
    s0.Keeps m (State.restartCmd s u) := by
  unfold State.restartCmd
  split
  · with_reducible apply State.wr_keeps (w := w.of (by decide))
    with_reducible assumption
  · with_reducible apply State.restartUnit_keeps (w := w.of (by decide))
    with_reducible assumption

theorem State.reloadKeeper_keeps {m : Nat} {s0 : State} (s : State) (retained : Bool) (x : Option (Nat × List Byte)) (h : s0.Keeps m s) (w : Within 0x8000008 m := by exact Within.of (by assumption) (by decide)) :
    s0.Keeps m (s.reloadKeeper retained x) := by
  cases x with
  | none => exact h
  | some x => exact State.bootKeeper_keeps_getD h

theorem State.keeperRestart_keeps {m : Nat} {s0 : State} (s : State) (h : s0.Keeps m s) (w : Within 0x8000008 m := by exact Within.of (by assumption) (by decide)) :
    s0.Keeps m (State.keeperRestart s) := by
  unfold State.keeperRestart
  split
  · with_reducible assumption
  · with_reducible apply State.reloadKeeper_keeps (w := w.of (by decide))
    with_reducible apply State.wr_keeps (w := w.of (by decide))
    with_reducible apply State.inc_keeps (w := w.of (by decide))
    with_reducible assumption

theorem State.dmi_keeps {m : Nat} {s0 : State} (s : State) (hart : ℕ) (halt : Bool) (h : s0.Keeps m s) (w : Within 0x8008 m := by exact Within.of (by assumption) (by decide)) :
    s0.Keeps m (State.dmi s hart halt) := by
  unfold State.dmi
  extract_lets a0 a1 a2
  clear_value a0
  clear_value a1
  clear_value a2
  split
  · with_reducible assumption
  · with_reducible apply State.noteHalted_keeps (w := w.of (by decide))
    with_reducible apply State.setUnit_keeps (w := w.of (by decide))
    with_reducible assumption

theorem State.fuseReport_keeps {m : Nat} {s0 : State} (s : State) (code : ℕ) (h : s0.Keeps m s) (w : Within 0x8 m := by exact Within.of (by assumption) (by decide)) :
    s0.Keeps m (State.fuseReport s code) := by
  unfold State.fuseReport
  with_reducible apply State.wr_keeps (w := w.of (by decide))
  with_reducible assumption

theorem State.fuseCmd_keeps {m : Nat} {s0 : State} (s : State) (val : Word) (h : s0.Keeps m s) (w : Within 0x8000008 m := by exact Within.of (by assumption) (by decide)) :
    s0.Keeps m (State.fuseCmd s val) := by
  unfold State.fuseCmd
  extract_lets a0 a1 a2 a3
  clear_value a0
  clear_value a1
  clear_value a2
  clear_value a3
  split
  · with_reducible apply State.fuseReport_keeps (w := w.of (by decide))
    with_reducible assumption
  · split
    · with_reducible apply State.fuseReport_keeps (w := w.of (by decide))
      with_reducible assumption
    · split
      · with_reducible apply State.fuseReport_keeps (w := w.of (by decide))
        with_reducible assumption
      · split
        · with_reducible apply State.fuseReport_keeps (w := w.of (by decide))
          with_reducible assumption
        · split
          · with_reducible apply State.fuseReport_keeps (w := w.of (by decide))
            with_reducible assumption
          · with_reducible apply State.wr_keeps (w := w.of (by decide))
            with_reducible apply State.setBoot_keeps (w := w.of (by decide))
            with_reducible assumption

theorem State.fuseDone_keeps {m : Nat} {s0 : State} (s : State) (ok : Bool) (h : s0.Keeps m s) (w : Within 0x800000a m := by exact Within.of (by assumption) (by decide)) :
    s0.Keeps m (State.fuseDone s ok) := by
  unfold State.fuseDone
  split
  · with_reducible assumption
  · split
    · extract_lets a0 a1
      clear_value a0
      have k2 : s0.Keeps m a1 := by
        unfold a1
        with_reducible apply State.wr_keeps (w := w.of (by decide))
        with_reducible apply State.setBoot_keeps (w := w.of (by decide))
        with_reducible assumption
      clear_value a1
      split
      · with_reducible apply State.wr_keeps (w := w.of (by decide))
        with_reducible apply State.each_keeps
        · intro x3 x4 x5
          with_reducible apply State.wr_keeps (w := w.of (by decide))
          with_reducible assumption
        · with_reducible assumption
      · with_reducible apply State.wr_keeps (w := w.of (by decide))
        with_reducible assumption
      · with_reducible apply State.wr_keeps (w := w.of (by decide))
        with_reducible apply State.wr_keeps (w := w.of (by decide))
        with_reducible assumption
    · with_reducible apply State.fuseReport_keeps (w := w.of (by decide))
      with_reducible apply State.wr_keeps (w := w.of (by decide))
      with_reducible apply State.cutFuse_keeps (w := w.of (by decide))
      with_reducible assumption

theorem execColdStart_keeps {m : Nat} {s0 : State} (vin : BitVec 16) (pref : Bool) (sel : Fin 4) (dev : BootDev) (s : State) (h : s0.Keeps m s) {t : State} (e : execColdStart vin pref sel dev s = .next t) (w : Within 0xc01d018 m := by exact Within.of (by assumption) (by decide)) :
    s0.Keeps m t := by
  unfold execColdStart at e
  injection e with e
  subst e
  with_reducible apply State.coldStart_keeps (w := w.of (by decide))
  with_reducible assumption

theorem execPorst_keeps {m : Nat} {s0 : State} (us : Nat) (s : State) (h : s0.Keeps m s) {t : State} (e : execPorst us s = .next t) (w : Within 0x3fffffff m := by exact Within.of (by assumption) (by decide)) :
    s0.Keeps m t := by
  unfold execPorst at e
  split at e
  · cases e
  · cases e
    exact State.coldReset_keeps s h

theorem execUnderVoltageLockout_keeps {m : Nat} {s0 : State} (vin : BitVec 16) (s : State) (h : s0.Keeps m s) {t : State} (e : execUnderVoltageLockout vin s = .next t) (w : Within 0x3fffffff m := by exact Within.of (by assumption) (by decide)) :
    s0.Keeps m t := by
  unfold execUnderVoltageLockout at e
  injection e with e
  subst e
  split
  · with_reducible apply State.coldReset_keeps (w := w.of (by decide))
    with_reducible assumption
  · with_reducible assumption

theorem execRestartUnit_keeps {m : Nat} {s0 : State} (src : Agent) (unit : Fin 2) (s : State) (h : s0.Keeps m s) {t : State} (e : execRestartUnit src unit s = .next t) (w : Within 0x28008008 m := by exact Within.of (by assumption) (by decide)) :
    s0.Keeps m t := by
  unfold execRestartUnit at e
  injection e with e
  subst e
  with_reducible apply State.writeReg_keeps (w := w.of (by decide))
  · with_reducible assumption
  · intro x0 x1
    with_reducible apply State.restartCmd_keeps (w := w.of (by decide))
    with_reducible assumption

theorem execUnitRelease_keeps {m : Nat} {s0 : State} (unit : Fin 2) (s : State) (h : s0.Keeps m s) {t : State} (e : execUnitRelease unit s = .next t) (w : Within 0x8008008 m := by exact Within.of (by assumption) (by decide)) :
    s0.Keeps m t := by
  unfold execUnitRelease at e
  injection e with e
  subst e
  with_reducible apply State.releaseUnit_keeps (w := w.of (by decide))
  with_reducible assumption

theorem execKeeperWatchdog_keeps {m : Nat} {s0 : State} (s : State) (h : s0.Keeps m s) {t : State} (e : execKeeperWatchdog s = .next t) (w : Within 0x8000008 m := by exact Within.of (by assumption) (by decide)) :
    s0.Keeps m t := by
  unfold execKeeperWatchdog at e
  injection e with e
  subst e
  with_reducible apply State.keeperRestart_keeps (w := w.of (by decide))
  with_reducible assumption

theorem execKprHostGo_keeps {m : Nat} {s0 : State} (src : Agent) (val : Word) (s : State) (h : s0.Keeps m s) {t : State} (e : execKprHostGo src val s = .next t) (w : Within 0xc00d018 m := by exact Within.of (by assumption) (by decide)) :
    s0.Keeps m t := by
  unfold execKprHostGo at e
  injection e with e
  subst e
  with_reducible apply State.writeReg_keeps (w := w.of (by decide))
  · with_reducible assumption
  · intro x0 x1
    with_reducible apply State.hostGo_keeps (w := w.of (by decide))
    with_reducible assumption

theorem execFuseProgCmd_keeps {m : Nat} {s0 : State} (src : Agent) (val : Word) (s : State) (h : s0.Keeps m s) {t : State} (e : execFuseProgCmd src val s = .next t) (w : Within 0x8008008 m := by exact Within.of (by assumption) (by decide)) :
    s0.Keeps m t := by
  unfold execFuseProgCmd at e
  injection e with e
  subst e
  with_reducible apply State.writeReg_keeps (w := w.of (by decide))
  · with_reducible assumption
  · intro x0 x1
    with_reducible apply State.fuseCmd_keeps (w := w.of (by decide))
    with_reducible assumption

theorem execFuseReadBack_keeps {m : Nat} {s0 : State} (ok : Bool) (s : State) (h : s0.Keeps m s) {t : State} (e : execFuseReadBack ok s = .next t) (w : Within 0x800000a m := by exact Within.of (by assumption) (by decide)) :
    s0.Keeps m t := by
  unfold execFuseReadBack at e
  injection e with e
  subst e
  with_reducible apply State.fuseDone_keeps (w := w.of (by decide))
  with_reducible assumption

theorem execIdread_keeps {m : Nat} {s0 : State} (s : State) (h : s0.Keeps m s) {t : State} (e : execIdread s = .next t) (w : Within 0x4 m := by exact Within.of (by assumption) (by decide)) :
    s0.Keeps m t := by
  unfold execIdread at e
  injection e with e
  subst e
  with_reducible apply State.setReadData_keeps (w := w.of (by decide))
  with_reducible assumption

theorem execIdcode_keeps {m : Nat} {s0 : State} (s : State) (h : s0.Keeps m s) {t : State} (e : execIdcode s = .next t) (w : Within 0x4 m := by exact Within.of (by assumption) (by decide)) :
    s0.Keeps m t := by
  unfold execIdcode at e
  injection e with e
  subst e
  with_reducible apply State.setReadData_keeps (w := w.of (by decide))
  with_reducible assumption

theorem execDmi_keeps {m : Nat} {s0 : State} (hart : Fin 8) (halt : Bool) (s : State) (h : s0.Keeps m s) {t : State} (e : execDmi hart halt s = .next t) (w : Within 0x8008 m := by exact Within.of (by assumption) (by decide)) :
    s0.Keeps m t := by
  unfold execDmi at e
  injection e with e
  subst e
  with_reducible apply State.dmi_keeps (w := w.of (by decide))
  with_reducible assumption

theorem State.fuseRegWrite_keeps {m : Nat} {s0 : State} (s : State) (o : ℕ) (val : Word) (h : s0.Keeps m s) (w : Within 0x8000008 m := by exact Within.of (by assumption) (by decide)) :
    s0.Keeps m (State.fuseRegWrite s o val) := by
  unfold State.fuseRegWrite
  split
  · with_reducible apply State.fuseCmd_keeps (w := w.of (by decide))
    with_reducible assumption
  · with_reducible apply State.plainWrite_keeps (w := w.of (by decide))
    with_reducible assumption

end Sys2Proof.Machine
end

