-- ==== Sys2Proof/Laws/KeepsTileOps.lean ====
section
/-! SUPPORT. The operations of Machine/TileOps.lean keep the queue and the invariant (`State.Keeps`). -/

namespace Sys2Proof.Machine

set_option Elab.async false
set_option linter.unusedVariables false

theorem State.moveUnits_keeps {m : Nat} {s0 : State} (s : State) (src : Option (Nat × Nat)) (data : Nat → Byte) (dsts : List (Nat × Nat)) (len off fuel : Nat) (h : s0.Keeps m s) (w : Within 0x5418 m := by exact Within.of (by assumption) (by decide)) :
    s0.Keeps m ((s.moveUnits src data dsts len off fuel).2) := by
  induction fuel generalizing s off with
  | zero => exact h
  | succ fuel ih =>
    unfold State.moveUnits
    extract_lets k rstop b a1 a2
    have k1 : s0.Keeps m a1 := by
      unfold a1
      split
      · exact State.cacheLeaf_keeps _ _ _ (State.readNote_keeps _ _ _ _ h)
      · exact h
    clear_value a1 b rstop
    have k2 : s0.Keeps m a2 := by
      unfold a2
      apply State.each_keeps
      · intro d t ht
        exact State.cacheLeaf_keeps _ _ _ (State.vwrite_keeps _ _ _ _ ht)
      · exact k1
    clear_value a2
    split
    · exact h
    · split
      · exact h
      · split
        · exact h
        · exact ih _ (off + 16) k2

theorem State.moveUnits_keeps_eq {m : Nat} {s0 s : State} {src : Option (Nat × Nat)} {data : Nat → Byte} {dsts : List (Nat × Nat)} {len off fuel : Nat} {a : _} {t : State} (h : s0.Keeps m s) (e : s.moveUnits src data dsts len off fuel = (a, t)) (w : Within 0x5418 m := by exact Within.of (by assumption) (by decide)) :
    s0.Keeps m t := by
  exact State.keeps_snd_eq (State.moveUnits_keeps s src data dsts len off fuel h) e

theorem State.rangeRead_keeps {m : Nat} {s0 : State} (s : State) (at_ : ℕ × ℕ) (len : ℕ) (h : s0.Keeps m s) (w : Within 0x408 m := by exact Within.of (by assumption) (by decide)) :
    s0.Keeps m (State.rangeRead s at_ len) := by
  unfold State.rangeRead
  with_reducible apply State.each_keeps
  · intro x0 x1 x2
    with_reducible apply State.cacheLeaf_keeps (w := w.of (by decide))
    with_reducible apply State.readNote_keeps (w := w.of (by decide))
    with_reducible assumption
  · with_reducible assumption

theorem State.move_keeps {m : Nat} {s0 : State} (s : State) (src : Option (ℕ × ℕ)) (data : ℕ → Byte) (dsts : List (ℕ × ℕ)) (len : ℕ) (off : ℕ) (h : s0.Keeps m s) (w : Within 0x5418 m := by exact Within.of (by assumption) (by decide)) :
    s0.Keeps m ((State.move s src data dsts len off).2) := by
  unfold State.move
  with_reducible apply State.moveUnits_keeps (w := w.of (by decide))
  with_reducible assumption

theorem State.move_keeps_eq {m : Nat} {s0 : State} {s : State} {src : Option (ℕ × ℕ)} {data : ℕ → Byte} {dsts : List (ℕ × ℕ)} {len : ℕ} {off : ℕ} {a : _} {t : State} (h : s0.Keeps m s)  (e : State.move s src data dsts len off = (a, t)) (w : Within 0x5418 m := by exact Within.of (by assumption) (by decide)) :
    s0.Keeps m t :=
  State.keeps_snd_eq (State.move_keeps s src data dsts len off h ) e

end Sys2Proof.Machine
end

