-- ==== Sys2Proof/Laws/KeepsDma.lean ====
section
/-! SUPPORT. The operations of Machine/Dma.lean keep the queue and the invariant (`State.Keeps`). -/

namespace Sys2Proof.Machine

set_option Elab.async false
set_option linter.unusedVariables false

theorem State.dmaStatus_keeps {m : Nat} {s0 : State} (s : State) (mx : ℕ) (code : ℕ) (h : s0.Keeps m s) (w : Within 0x8 m := by exact Within.of (by assumption) (by decide)) :
    s0.Keeps m (State.dmaStatus s mx code) := by
  unfold State.dmaStatus
  with_reducible apply State.wr_keeps (w := w.of (by decide))
  with_reducible assumption

theorem State.dmaDoorbell_keeps {m : Nat} {s0 : State} (s : State) (mx : ℕ) (count : ℕ) (h : s0.Keeps m s) (w : Within 0x808 m := by exact Within.of (by assumption) (by decide)) :
    s0.Keeps m (State.dmaDoorbell s mx count) := by
  unfold State.dmaDoorbell
  extract_lets a0 a1
  clear_value a0
  clear_value a1
  split
  · with_reducible apply State.dmaStatus_keeps (w := w.of (by decide))
    with_reducible assumption
  · split
    · with_reducible assumption
    · with_reducible apply State.wr_keeps (w := w.of (by decide))
      with_reducible apply State.setMover_keeps (w := w.of (by decide))
      with_reducible assumption

theorem State.dmaCfg_keeps {m : Nat} {s0 : State} (s : State) (mx : ℕ) (val : Word) (h : s0.Keeps m s) (w : Within 0x808 m := by exact Within.of (by assumption) (by decide)) :
    s0.Keeps m (State.dmaCfg s mx val) := by
  unfold State.dmaCfg
  extract_lets a0 a1 a2 a3 a4
  clear_value a0
  clear_value a1
  clear_value a2
  have k5 : s0.Keeps m a3 := by
    unfold a3
    with_reducible apply State.plainWrite_keeps (w := w.of (by decide))
    with_reducible assumption
  clear_value a3
  clear_value a4
  split
  · with_reducible apply State.wr_keeps (w := w.of (by decide))
    with_reducible assumption
  · split
    · with_reducible assumption
    · with_reducible apply State.wr_keeps (w := w.of (by decide))
      with_reducible apply State.wr_keeps (w := w.of (by decide))
      with_reducible apply State.setMover_keeps (w := w.of (by decide))
      with_reducible assumption

theorem State.descFault_keeps {m : Nat} {s0 : State} (s : State) (mx : ℕ) (r : MoverRun) (ex : MoveStop) (h : s0.Keeps m s) (w : Within 0x2f9a m := by exact Within.of (by assumption) (by decide)) :
    s0.Keeps m (State.descFault s mx r ex) := by
  unfold State.descFault
  extract_lets a0 a1 a2 a3 a4
  clear_value a0
  clear_value a1
  clear_value a2
  clear_value a3
  have k5 : s0.Keeps m a4 := by
    unfold a4
    with_reducible apply State.setMover_keeps (w := w.of (by decide))
    with_reducible assumption
  clear_value a4
  with_reducible apply State.faultAccess_keeps (w := w.of (by decide))
  with_reducible assumption

theorem State.descCheck_keeps {m : Nat} {s0 : State} (s : State) (mx : ℕ) (r : MoverRun) (len : ℕ) (h : s0.Keeps m s) (w : Within 0x8 m := by exact Within.of (by assumption) (by decide)) :
    s0.Keeps m ((State.descCheck s mx r len).2) := by
  unfold State.descCheck
  extract_lets a0 a1 a2 a3
  clear_value a0
  clear_value a1
  clear_value a2
  clear_value a3
  split
  · split
    · with_reducible assumption
    · dsimp only
      with_reducible apply State.countFailure_keeps (w := w.of (by decide))
      with_reducible assumption
  · with_reducible assumption

theorem State.descCheck_keeps_eq {m : Nat} {s0 : State} {s : State} {mx : ℕ} {r : MoverRun} {len : ℕ} {a : _} {t : State} (h : s0.Keeps m s)  (e : State.descCheck s mx r len = (a, t)) (w : Within 0x8 m := by exact Within.of (by assumption) (by decide)) :
    s0.Keeps m t :=
  State.keeps_snd_eq (State.descCheck_keeps s mx r len h ) e

theorem State.descRun_keeps {m : Nat} {s0 : State} (s : State) (mx : ℕ) (r : MoverRun) (h : s0.Keeps m s) (w : Within 0x7f9a m := by exact Within.of (by assumption) (by decide)) :
    s0.Keeps m (State.descRun s mx r) := by
  unfold State.descRun
  extract_lets a0 a1 a2 a3 a4
  clear_value a0
  clear_value a1
  clear_value a2
  clear_value a3
  clear_value a4
  split
  · with_reducible apply State.descFault_keeps (w := w.of (by decide))
    with_reducible assumption
  · split
    · with_reducible apply State.descFault_keeps (w := w.of (by decide))
      with_reducible refine State.move_keeps_eq (w := w.of (by decide)) ?_ (by assumption)
      with_reducible assumption
    · extract_lets a5 a6
      have k7 : s0.Keeps m a5.2 := by
        unfold a5
        with_reducible apply State.descCheck_keeps (w := w.of (by decide))
        with_reducible refine State.move_keeps_eq (w := w.of (by decide)) ?_ (by assumption)
        with_reducible assumption
      clear_value a5
      clear_value a6
      with_reducible apply State.setMover_keeps (w := w.of (by decide))
      with_reducible assumption

theorem State.descExecute_keeps {m : Nat} {s0 : State} (s : State) (mx : ℕ) (h : s0.Keeps m s) (w : Within 0x7f9a m := by exact Within.of (by assumption) (by decide)) :
    s0.Keeps m (State.descExecute s mx) := by
  unfold State.descExecute
  extract_lets a0 a1 a2 a3 a4 a5 a6
  clear_value a0
  clear_value a1
  clear_value a2
  have k7 : s0.Keeps m a3 := by
    unfold a3
    with_reducible apply State.noteRead_keeps (w := w.of (by decide))
    with_reducible assumption
  clear_value a3
  clear_value a4
  clear_value a5
  have k8 : s0.Keeps m a6 := by
    unfold a6
    with_reducible apply State.noteMover_keeps (w := w.of (by decide))
    with_reducible apply State.setMover_keeps (w := w.of (by decide))
    with_reducible assumption
  clear_value a6
  split
  · with_reducible assumption
  · split
    · split
      · with_reducible assumption
      · with_reducible apply State.descRun_keeps (w := w.of (by decide))
        with_reducible assumption
    · split
      · with_reducible assumption
      · split
        · with_reducible assumption
        · with_reducible apply State.descRun_keeps (w := w.of (by decide))
          with_reducible assumption

theorem State.descEnd_keeps {m : Nat} {s0 : State} (s : State) (mx : ℕ) (status : ℕ) (r : MoverRun) (h : s0.Keeps m s) (w : Within 0x5818 m := by exact Within.of (by assumption) (by decide)) :
    s0.Keeps m (State.descEnd s mx status r) := by
  unfold State.descEnd
  extract_lets a0 a1 a2 a3 a4 a5
  clear_value a0
  clear_value a1
  have k6 : s0.Keeps m a2 := by
    unfold a2
    with_reducible apply State.physWrite_keeps (w := w.of (by decide))
    with_reducible assumption
  clear_value a2
  have k7 : s0.Keeps m a3 := by
    unfold a3
    with_reducible apply State.wr_keeps (w := w.of (by decide))
    with_reducible apply State.setMover_keeps (w := w.of (by decide))
    with_reducible assumption
  clear_value a3
  have k8 : s0.Keeps m a4 := by
    unfold a4
    split
    · with_reducible apply State.wr_keeps (w := w.of (by decide))
      with_reducible apply State.dmaStatus_keeps (w := w.of (by decide))
      with_reducible assumption
    · with_reducible assumption
  clear_value a4
  have k9 : s0.Keeps m a5 := by
    unfold a5
    split
    · with_reducible apply State.irq_keeps (w := w.of (by decide))
      with_reducible assumption
    · with_reducible assumption
  clear_value a5
  with_reducible apply State.noteMover_keeps (w := w.of (by decide))
  with_reducible assumption

theorem State.descComplete_keeps {m : Nat} {s0 : State} (s : State) (mx : ℕ) (h : s0.Keeps m s) (w : Within 0x5818 m := by exact Within.of (by assumption) (by decide)) :
    s0.Keeps m (State.descComplete s mx) := by
  unfold State.descComplete
  split
  · split
    · with_reducible apply State.descEnd_keeps (w := w.of (by decide))
      with_reducible assumption
    · with_reducible assumption
  · with_reducible assumption

theorem State.dmaTaskPut_keeps {m : Nat} {s0 : State} (s : State) (o : OutRes) (out : Tile) (h : s0.Keeps m s) (w : Within 0x4005118 m := by exact Within.of (by assumption) (by decide)) :
    s0.Keeps m (State.dmaTaskPut s o out) := by
  unfold State.dmaTaskPut
  with_reducible apply State.each_keeps
  · intro x0 x1 x2
    extract_lets a3 a4
    clear_value a3
    clear_value a4
    with_reducible apply State.complete_keeps (w := w.of (by decide))
    with_reducible apply State.vwrite_keeps (w := w.of (by decide))
    with_reducible assumption
  · with_reducible assumption

theorem State.dmaTaskComplete_keeps {m : Nat} {s0 : State} (s : State) (mx : ℕ) (h : s0.Keeps m s) (w : Within 0x4007fba m := by exact Within.of (by assumption) (by decide)) :
    s0.Keeps m (State.dmaTaskComplete s mx) := by
  unfold State.dmaTaskComplete
  split
  · with_reducible assumption
  · split
    · with_reducible assumption
    · split
      · with_reducible assumption
      · split
        · with_reducible apply State.endTask_keeps (w := w.of (by decide))
          with_reducible assumption
        · extract_lets a0 a1 a2 a3 a4
          clear_value a0
          clear_value a1
          clear_value a2
          have k5 : ∀ y0 y1, s0.Keeps m y0 → s0.Keeps m (a3 y0 y1) := by
            unfold a3
            intro x6 x7 x8
            extract_lets a9 a10 a11
            clear_value a9
            clear_value a10
            clear_value a11
            with_reducible apply State.faultAccess_keeps (w := w.of (by decide))
            with_reducible apply State.setMover_keeps (w := w.of (by decide))
            with_reducible assumption
          clear_value a3
          clear_value a4
          split
          · with_reducible apply k5
            with_reducible assumption
          · split
            · with_reducible apply k5
              with_reducible refine State.move_keeps_eq (w := w.of (by decide)) ?_ (by assumption)
              with_reducible assumption
            · extract_lets a12 a13 a14
              clear_value a12
              clear_value a13
              have k15 : s0.Keeps m a14.2 := by
                unfold a14
                split
                · with_reducible apply State.checkTile_keeps (w := w.of (by decide))
                  with_reducible refine State.move_keeps_eq (w := w.of (by decide)) ?_ (by assumption)
                  with_reducible assumption
                · with_reducible refine State.move_keeps_eq (w := w.of (by decide)) ?_ (by assumption)
                  with_reducible assumption
              clear_value a14
              split
              · with_reducible apply State.endTask_keeps (w := w.of (by decide))
                with_reducible assumption
              · split
                · with_reducible apply State.endTask_keeps (w := w.of (by decide))
                  with_reducible assumption
                · extract_lets a16 a17 a18
                  clear_value a16
                  have k19 : s0.Keeps m a17 := by
                    unfold a17
                    with_reducible apply State.dmaTaskPut_keeps (w := w.of (by decide))
                    with_reducible assumption
                  clear_value a17
                  have k20 : s0.Keeps m a18 := by
                    unfold a18
                    with_reducible apply State.setTask_keeps (w := w.of (by decide))
                    with_reducible assumption
                  clear_value a18
                  split
                  · with_reducible apply k5
                    with_reducible refine State.move_keeps_eq (w := w.of (by decide)) ?_ (by assumption)
                    with_reducible assumption
                  · with_reducible apply State.endTask_keeps (w := w.of (by decide))
                    with_reducible assumption

theorem execDmaDb_keeps {m : Nat} {s0 : State} (src : Agent) (mover : Fin 16) (val : Word) (s : State) (h : s0.Keeps m s) {t : State} (e : execDmaDb src mover val s = .next t) (w : Within 0x8808 m := by exact Within.of (by assumption) (by decide)) :
    s0.Keeps m t := by
  unfold execDmaDb at e
  injection e with e
  subst e
  with_reducible apply State.writeReg_keeps (w := w.of (by decide))
  · with_reducible assumption
  · intro x0 x1
    with_reducible apply State.dmaDoorbell_keeps (w := w.of (by decide))
    with_reducible assumption

theorem execDescriptorExecute_keeps {m : Nat} {s0 : State} (mover : Fin 16) (s : State) (h : s0.Keeps m s) {t : State} (e : execDescriptorExecute mover s = .next t) (w : Within 0x7f9a m := by exact Within.of (by assumption) (by decide)) :
    s0.Keeps m t := by
  unfold execDescriptorExecute at e
  injection e with e
  subst e
  with_reducible apply State.descExecute_keeps (w := w.of (by decide))
  with_reducible assumption

theorem execDescriptorComplete_keeps {m : Nat} {s0 : State} (mover : Fin 16) (s : State) (h : s0.Keeps m s) {t : State} (e : execDescriptorComplete mover s = .next t) (w : Within 0x5818 m := by exact Within.of (by assumption) (by decide)) :
    s0.Keeps m t := by
  unfold execDescriptorComplete at e
  injection e with e
  subst e
  with_reducible apply State.descComplete_keeps (w := w.of (by decide))
  with_reducible assumption

theorem execDmaTaskComplete_keeps {m : Nat} {s0 : State} (mover : Fin 16) (s : State) (h : s0.Keeps m s) {t : State} (e : execDmaTaskComplete mover s = .next t) (w : Within 0x4007fba m := by exact Within.of (by assumption) (by decide)) :
    s0.Keeps m t := by
  unfold execDmaTaskComplete at e
  injection e with e
  subst e
  with_reducible apply State.dmaTaskComplete_keeps (w := w.of (by decide))
  with_reducible assumption

theorem State.dmaRegWrite_keeps {m : Nat} {s0 : State} (s : State) (o : ℕ) (val : Word) (h : s0.Keeps m s) (w : Within 0x808 m := by exact Within.of (by assumption) (by decide)) :
    s0.Keeps m (State.dmaRegWrite s o val) := by
  unfold State.dmaRegWrite
  extract_lets a0 a1
  clear_value a0
  clear_value a1
  split
  · with_reducible assumption
  · split
    · with_reducible apply State.dmaDoorbell_keeps (w := w.of (by decide))
      with_reducible assumption
    · split
      · with_reducible apply State.dmaCfg_keeps (w := w.of (by decide))
        with_reducible assumption
      · split
        · with_reducible assumption
        · with_reducible apply State.plainWrite_keeps (w := w.of (by decide))
          with_reducible assumption

end Sys2Proof.Machine
end

