-- ==== Sys2Proof/Laws/KeepsOperators.lean ====
section
/-! SUPPORT. The operations of Machine/Operators.lean keep the queue and the invariant (`State.Keeps`). -/

namespace Sys2Proof.Machine

set_option Elab.async false
set_option linter.unusedVariables false

theorem State.storeTile_keeps {m : Nat} {s0 : State} (s : State) (u : Task) (p7 : PixFmt) (f : ℕ) (col : ℕ) (row : ℕ) (h : s0.Keeps m s) (w : Within 0x408 m := by exact Within.of (by assumption) (by decide)) :
    s0.Keeps m ((State.storeTile s u p7 f col row).2.2) := by
  unfold State.storeTile
  dsimp only
  split
  · with_reducible assumption
  · split
    · split
      · dsimp only
        with_reducible apply State.rangeRead_keeps (w := w.of (by decide))
        with_reducible assumption
      · dsimp only
        with_reducible apply State.rangeRead_keeps (w := w.of (by decide))
        with_reducible apply State.rangeRead_keeps (w := w.of (by decide))
        with_reducible assumption
    · dsimp only
      with_reducible apply State.rangeRead_keeps (w := w.of (by decide))
      with_reducible assumption

theorem State.storeTile_keeps_eq {m : Nat} {s0 : State} {s : State} {u : Task} {p7 : PixFmt} {f : ℕ} {col : ℕ} {row : ℕ} {a : _} {b2 : _} {t : State} (h : s0.Keeps m s)  (e : State.storeTile s u p7 f col row = (a, b2, t)) (w : Within 0x408 m := by exact Within.of (by assumption) (by decide)) :
    s0.Keeps m t :=
  State.keeps_trd_eq (State.storeTile_keeps s u p7 f col row h ) e

theorem State.storeTiles_keeps {m : Nat} {s0 : State} (s : State) (u : Task) (p7 : PixFmt) (f : Nat) (l : List (Nat × Nat)) (h : s0.Keeps m s) (w : Within 0x408 m := by exact Within.of (by assumption) (by decide)) :
    s0.Keeps m ((s.storeTiles u p7 f l).2.2) := by
  induction l generalizing s with
  | nil => exact h
  | cons b tl ih =>
    unfold State.storeTiles
    split
    · rename_i e1
      have k1 := State.storeTile_keeps s u p7 f b.1 b.2 h
      rw [e1] at k1
      exact k1
    · rename_i e1
      have k1 := State.storeTile_keeps s u p7 f b.1 b.2 h
      rw [e1] at k1
      exact ih _ k1

theorem State.storeTiles_keeps_eq {m : Nat} {s0 s : State} {u : Task} {p7 : PixFmt} {f : Nat} {l : List (Nat × Nat)} {a : _} {b2 : _} {t : State} (h : s0.Keeps m s) (e : s.storeTiles u p7 f l = (a, b2, t)) (w : Within 0x408 m := by exact Within.of (by assumption) (by decide)) :
    s0.Keeps m t := by
  exact State.keeps_trd_eq (State.storeTiles_keeps s u p7 f l h) e

theorem State.opPut_keeps {m : Nat} {s0 : State} (s : State) (u : Task) (o : OpIn) (p6 : PixFmt) (src : TileHdr) (missing : Bool) (h : s0.Keeps m s) (w : Within 0x408 m := by exact Within.of (by assumption) (by decide)) :
    s0.Keeps m ((State.opPut s u o p6 src missing).2) := by
  unfold State.opPut
  extract_lets a0 a1 a2 a3
  clear_value a0
  clear_value a1
  have k4 : s0.Keeps m a2 := by
    unfold a2
    with_reducible apply State.rangeRead_keeps (w := w.of (by decide))
    with_reducible assumption
  clear_value a2
  clear_value a3
  split
  · with_reducible assumption
  · with_reducible assumption

theorem State.opPut_keeps_eq {m : Nat} {s0 : State} {s : State} {u : Task} {o : OpIn} {p6 : PixFmt} {src : TileHdr} {missing : Bool} {a : _} {t : State} (h : s0.Keeps m s)  (e : State.opPut s u o p6 src missing = (a, t)) (w : Within 0x408 m := by exact Within.of (by assumption) (by decide)) :
    s0.Keeps m t :=
  State.keeps_snd_eq (State.opPut_keeps s u o p6 src missing h ) e

theorem State.readerRun_keeps {m : Nat} {s0 : State} (s : State) (u : Task) (inp : Tile) (h : s0.Keeps m s) (w : Within 0x408 m := by exact Within.of (by assumption) (by decide)) :
    s0.Keeps m ((State.readerRun s u inp).2) := by
  unfold State.readerRun
  extract_lets a0 a1 a2 a3 a4 a5
  clear_value a0
  clear_value a1
  clear_value a2
  clear_value a3
  clear_value a4
  clear_value a5
  split
  · with_reducible assumption
  · split
    · with_reducible assumption
    · split
      · with_reducible refine State.storeTile_keeps_eq (w := w.of (by decide)) ?_ (by assumption)
        with_reducible assumption
      · split
        · with_reducible refine State.storeTile_keeps_eq (w := w.of (by decide)) ?_ (by assumption)
          with_reducible assumption
        · split
          · with_reducible refine State.storeTile_keeps_eq (w := w.of (by decide)) ?_ (by assumption)
            with_reducible assumption
          · split
            · with_reducible refine State.storeTile_keeps_eq (w := w.of (by decide)) ?_ (by assumption)
              with_reducible assumption
            · split
              · with_reducible refine State.storeTiles_keeps_eq (w := w.of (by decide)) ?_ (by assumption)
                with_reducible refine State.storeTile_keeps_eq (w := w.of (by decide)) ?_ (by assumption)
                with_reducible assumption
              · with_reducible apply State.opPut_keeps (w := w.of (by decide))
                with_reducible refine State.storeTiles_keeps_eq (w := w.of (by decide)) ?_ (by assumption)
                with_reducible refine State.storeTile_keeps_eq (w := w.of (by decide)) ?_ (by assumption)
                with_reducible assumption

theorem State.readerRun_keeps_eq {m : Nat} {s0 : State} {s : State} {u : Task} {inp : Tile} {a : _} {t : State} (h : s0.Keeps m s)  (e : State.readerRun s u inp = (a, t)) (w : Within 0x408 m := by exact Within.of (by assumption) (by decide)) :
    s0.Keeps m t :=
  State.keeps_snd_eq (State.readerRun_keeps s u inp h ) e

theorem State.opRun_keeps {m : Nat} {s0 : State} (s : State) (u : Task) (inp : Tile) (h : s0.Keeps m s) (w : Within 0x408 m := by exact Within.of (by assumption) (by decide)) :
    s0.Keeps m ((State.opRun s u inp).2) := by
  unfold State.opRun
  extract_lets a0 a1 a2
  clear_value a0
  clear_value a1
  clear_value a2
  split
  · with_reducible assumption
  · with_reducible apply State.opPut_keeps (w := w.of (by decide))
    with_reducible assumption

theorem State.opRun_keeps_eq {m : Nat} {s0 : State} {s : State} {u : Task} {inp : Tile} {a : _} {t : State} (h : s0.Keeps m s)  (e : State.opRun s u inp = (a, t)) (w : Within 0x408 m := by exact Within.of (by assumption) (by decide)) :
    s0.Keeps m t :=
  State.keeps_snd_eq (State.opRun_keeps s u inp h ) e

theorem State.storeWrite_keeps {m : Nat} {s0 : State} (s : State) (l : List ((Nat × Nat) × List Byte)) (h : s0.Keeps m s) (w : Within 0x5418 m := by exact Within.of (by assumption) (by decide)) :
    s0.Keeps m ((s.storeWrite l).2) := by
  induction l generalizing s with
  | nil => exact h
  | cons b tl ih =>
    unfold State.storeWrite
    split
    · rename_i e1
      exact State.move_keeps_eq h e1
    · rename_i e1
      exact ih _ (State.move_keeps_eq h e1)

theorem State.storeWrite_keeps_eq {m : Nat} {s0 s : State} {l : List ((Nat × Nat) × List Byte)} {a : _} {t : State} (h : s0.Keeps m s) (e : s.storeWrite l = (a, t)) (w : Within 0x5418 m := by exact Within.of (by assumption) (by decide)) :
    s0.Keeps m t := by
  exact State.keeps_snd_eq (State.storeWrite_keeps s l h) e

theorem State.apronRun_keeps {m : Nat} {s0 : State} (s : State) (u : Task) (inp : Tile) (h : s0.Keeps m s) (w : Within 0x741a m := by exact Within.of (by assumption) (by decide)) :
    s0.Keeps m ((State.apronRun s u inp).2) := by
  unfold State.apronRun
  extract_lets a0 a1 a2 a3 a4 a5 a6 a7 a8 a9 a10 a11 a12 a13
  clear_value a0
  clear_value a1
  clear_value a2
  have k14 : s0.Keeps m a3 := by
    unfold a3
    with_reducible apply State.rangeRead_keeps (w := w.of (by decide))
    with_reducible assumption
  clear_value a3
  clear_value a4
  clear_value a5
  clear_value a6
  clear_value a7
  clear_value a8
  clear_value a9
  clear_value a10
  clear_value a11
  clear_value a12
  clear_value a13
  split
  · with_reducible assumption
  · split
    · with_reducible assumption
    · split
      · with_reducible refine State.storeWrite_keeps_eq (w := w.of (by decide)) ?_ (by assumption)
        with_reducible assumption
      · extract_lets a15 a16
        have k17 : s0.Keeps m a15 := by
          unfold a15
          with_reducible apply State.setFree_keeps (w := w.of (by decide))
          with_reducible refine State.storeWrite_keeps_eq (w := w.of (by decide)) ?_ (by assumption)
          with_reducible assumption
        clear_value a15
        clear_value a16
        split
        · dsimp only
          with_reducible apply State.setEng_keeps (w := w.of (by decide))
          with_reducible assumption
        · dsimp only
          with_reducible apply State.setEng_keeps (w := w.of (by decide))
          with_reducible assumption

theorem State.apronRun_keeps_eq {m : Nat} {s0 : State} {s : State} {u : Task} {inp : Tile} {a : _} {t : State} (h : s0.Keeps m s)  (e : State.apronRun s u inp = (a, t)) (w : Within 0x741a m := by exact Within.of (by assumption) (by decide)) :
    s0.Keeps m t :=
  State.keeps_snd_eq (State.apronRun_keeps s u inp h ) e

theorem State.libraryRun_keeps {m : Nat} {s0 : State} (s : State) (u : Task) (inp : Tile) (h : s0.Keeps m s) (w : Within 0x741a m := by exact Within.of (by assumption) (by decide)) :
    s0.Keeps m ((State.libraryRun s u inp).2) := by
  unfold State.libraryRun
  split
  · with_reducible apply State.apronRun_keeps (w := w.of (by decide))
    with_reducible assumption
  · split
    · with_reducible apply State.readerRun_keeps (w := w.of (by decide))
      with_reducible assumption
    · with_reducible apply State.opRun_keeps (w := w.of (by decide))
      with_reducible assumption

theorem State.libraryRun_keeps_eq {m : Nat} {s0 : State} {s : State} {u : Task} {inp : Tile} {a : _} {t : State} (h : s0.Keeps m s)  (e : State.libraryRun s u inp = (a, t)) (w : Within 0x741a m := by exact Within.of (by assumption) (by decide)) :
    s0.Keeps m t :=
  State.keeps_snd_eq (State.libraryRun_keeps s u inp h ) e

end Sys2Proof.Machine
end

