-- ==== Sys2Proof/Laws/KeepsEngines.lean ====
section
/-! SUPPORT. The operations of Machine/Engines.lean keep the queue and the invariant (`State.Keeps`). -/

namespace Sys2Proof.Machine

set_option Elab.async false
set_option linter.unusedVariables false

theorem State.trap_keeps {m : Nat} {s0 : State} (s : State) (k : ℕ) (slot : ℕ) (node : ℕ) (cause : ℕ) (tval : ℕ) (pc : ℕ) (h : s0.Keeps m s) (w : Within 0x4007f18 m := by exact Within.of (by assumption) (by decide)) :
    s0.Keeps m (State.trap s k slot node cause tval pc) := by
  unfold State.trap
  extract_lets a0 a1 a2
  have k3 : s0.Keeps m a0 := by
    unfold a0
    with_reducible apply State.wr_keeps (w := w.of (by decide))
    with_reducible apply State.wr_keeps (w := w.of (by decide))
    with_reducible apply State.wr_keeps (w := w.of (by decide))
    with_reducible assumption
  clear_value a0
  have k4 : s0.Keeps m a1 := by
    unfold a1
    with_reducible apply State.wr_keeps (w := w.of (by decide))
    with_reducible apply State.wr_keeps (w := w.of (by decide))
    with_reducible assumption
  clear_value a1
  have k5 : s0.Keeps m a2 := by
    unfold a2
    split
    · with_reducible assumption
    · with_reducible apply State.irq_keeps (w := w.of (by decide))
      with_reducible assumption
  clear_value a2
  with_reducible apply State.endTask_keeps (w := w.of (by decide))
  with_reducible assumption

theorem State.trapOpen_keeps {m : Nat} {s0 : State} (s : State) (k : ℕ) (slot : ℕ) (node : ℕ) (cause : ℕ) (pc : ℕ) (h : s0.Keeps m s) (w : Within 0x4007f1a m := by exact Within.of (by assumption) (by decide)) :
    s0.Keeps m (State.trapOpen s k slot node cause pc) := by
  unfold State.trapOpen
  extract_lets a0
  have k1 : s0.Keeps m a0.2 := by
    unfold a0
    with_reducible apply State.takeFree_keeps (w := w.of (by decide))
    with_reducible assumption
  clear_value a0
  with_reducible apply State.trap_keeps (w := w.of (by decide))
  with_reducible assumption

theorem State.illegal_keeps {m : Nat} {s0 : State} (s : State) (k : ℕ) (slot : ℕ) (node : ℕ) (pc : ℕ) (h : s0.Keeps m s) (w : Within 0x4007f1a m := by exact Within.of (by assumption) (by decide)) :
    s0.Keeps m (State.illegal s k slot node pc) := by
  unfold State.illegal
  with_reducible apply State.trapOpen_keeps (w := w.of (by decide))
  with_reducible assumption

theorem State.retire_keeps {m : Nat} {s0 : State} (s : State) (k : ℕ) (pc : Word) (rd : Fin 32) (val : ℕ) (spent : Bool) (h : s0.Keeps m s) (w : Within 0x2000 m := by exact Within.of (by assumption) (by decide)) :
    s0.Keeps m (State.retire s k pc rd val spent) := by
  unfold State.retire
  extract_lets a0 a1 a2
  clear_value a0
  clear_value a1
  clear_value a2
  with_reducible apply State.setEngine_keeps (w := w.of (by decide))
  with_reducible assumption

theorem State.waitAt_keeps {m : Nat} {s0 : State} (s : State) (k : ℕ) (pc : Word) (h : s0.Keeps m s) (w : Within 0x2000 m := by exact Within.of (by assumption) (by decide)) :
    s0.Keeps m (State.waitAt s k pc) := by
  unfold State.waitAt
  extract_lets a0 a1
  clear_value a0
  clear_value a1
  with_reducible apply State.setEngine_keeps (w := w.of (by decide))
  with_reducible assumption

theorem State.tileFault_keeps {m : Nat} {s0 : State} (s : State) (k : ℕ) (top : ℕ) (port : ℕ) (addr : ℕ) (pc : Word) (x : MoveStop) (sealState : ℕ) (b : List Byte) (h : s0.Keeps m s) (w : Within 0x2f9a m := by exact Within.of (by assumption) (by decide)) :
    s0.Keeps m (State.tileFault s k top port addr pc x sealState b) := by
  unfold State.tileFault
  extract_lets a0 a1 a2 a3
  clear_value a0
  clear_value a1
  clear_value a2
  have k4 : s0.Keeps m a3 := by
    unfold a3
    with_reducible apply State.setEngine_keeps (w := w.of (by decide))
    with_reducible assumption
  clear_value a3
  with_reducible apply State.faultAccess_keeps (w := w.of (by decide))
  with_reducible assumption

theorem State.libraryInput_keeps {m : Nat} {s0 : State} (s : State) (slot : ℕ) (tile : Tile) (h : s0.Keeps m s) (w : Within 0x200 m := by exact Within.of (by assumption) (by decide)) :
    s0.Keeps m (State.libraryInput s slot tile) := by
  unfold State.libraryInput
  split
  · with_reducible assumption
  · split
    · with_reducible apply State.setTask_keeps (w := w.of (by decide))
      with_reducible assumption
    · with_reducible assumption

theorem State.libraryWork_keeps {m : Nat} {s0 : State} (s : State) (k : ℕ) (slot : ℕ) (h : s0.Keeps m s) (w : Within 0x7f9a m := by exact Within.of (by assumption) (by decide)) :
    s0.Keeps m (State.libraryWork s k slot) := by
  unfold State.libraryWork
  split
  · with_reducible assumption
  · split
    · with_reducible assumption
    · extract_lets a0
      have k1 : s0.Keeps m a0.2 := by
        unfold a0
        with_reducible apply State.libraryRun_keeps (w := w.of (by decide))
        with_reducible assumption
      clear_value a0
      split
      · with_reducible apply State.faultAccess_keeps (w := w.of (by decide))
        with_reducible assumption
      · with_reducible apply State.setTask_keeps (w := w.of (by decide))
        with_reducible assumption

theorem State.tgetEnd_keeps {m : Nat} {s0 : State} (s : State) (k : ℕ) (slot : ℕ) (pc : Word) (rd : Fin 32) (c : Claim) (addr : ℕ) (r : Checked) (n : ℕ) (h : s0.Keeps m s) (w : Within 0x2212 m := by exact Within.of (by assumption) (by decide)) :
    s0.Keeps m (State.tgetEnd s k slot pc rd c addr r n) := by
  unfold State.tgetEnd
  split
  · with_reducible assumption
  · extract_lets a0 a1 a2 a3 a4 a5 a6 a7
    clear_value a0
    clear_value a1
    have k8 : s0.Keeps m a2 := by
      unfold a2
      with_reducible apply State.setEngine_keeps (w := w.of (by decide))
      with_reducible assumption
    clear_value a2
    clear_value a3
    have k9 : s0.Keeps m a4 := by
      unfold a4
      with_reducible apply State.setTask_keeps (w := w.of (by decide))
      with_reducible assumption
    clear_value a4
    have k10 : s0.Keeps m a5 := by
      unfold a5
      with_reducible apply State.setBytes_keeps (w := w.of (by decide))
      with_reducible assumption
    clear_value a5
    have k11 : s0.Keeps m a6 := by
      unfold a6
      with_reducible apply State.setTask_keeps (w := w.of (by decide))
      with_reducible assumption
    clear_value a6
    have k12 : s0.Keeps m a7 := by
      unfold a7
      with_reducible apply State.libraryInput_keeps (w := w.of (by decide))
      with_reducible apply State.setBytes_keeps (w := w.of (by decide))
      with_reducible assumption
    clear_value a7
    split
    · with_reducible apply State.retire_keeps (w := w.of (by decide))
      with_reducible apply State.setFree_keeps (w := w.of (by decide))
      with_reducible assumption
    · with_reducible apply State.retire_keeps (w := w.of (by decide))
      with_reducible assumption

theorem State.tget_keeps {m : Nat} {s0 : State} (s : State) (k slot : Nat) (t : Task) (pc : Word) (rd : Fin 32) (rs1 imm : Nat) (h : s0.Keeps m s) (w : Within 0x4007fba m := by exact Within.of (by assumption) (by decide)) :
    s0.Keeps m (s.tget k slot t pc rd rs1 imm) := by
  unfold State.tget
  extract_lets port check
  split
  · exact State.illegal_keeps _ _ _ _ _ h
  · split
    · exact State.trap_keeps _ _ _ _ _ _ _ h
    · split
      · exact State.retire_keeps _ _ _ _ _ _ h
      · rename_i c e _
        extract_lets src hd units n dst
        split
        · exact State.tileFault_keeps _ _ _ _ _ _ _ _ _ h
        · split
          · exact State.trap_keeps _ _ _ _ _ _ _ h
          · split
            · rename_i e1
              exact State.tileFault_keeps _ _ _ _ _ _ _ _ _ (State.move_keeps_eq h e1)
            · rename_i s1 e1
              have k1 : s0.Keeps m s1 := State.move_keeps_eq h e1
              extract_lets b tile r
              have kr : s0.Keeps m r.2 := by
                unfold r
                split
                · split
                  · exact State.checkTile_keeps _ _ _ _ _ _ k1
                  · exact k1
                · exact k1
              split
              · exact State.trap_keeps _ _ _ _ _ _ _ kr
              · exact State.tgetEnd_keeps _ _ _ _ _ _ _ _ _ kr

theorem State.putWait_keeps {m : Nat} {s0 : State} (s : State) (k : ℕ) (pc : Word) (r : ResReq) (h : s0.Keeps m s) (w : Within 0x2100 m := by exact Within.of (by assumption) (by decide)) :
    s0.Keeps m (State.putWait s k pc r) := by
  unfold State.putWait
  extract_lets a0 a1
  have k2 : s0.Keeps m a0 := by
    unfold a0
    with_reducible apply State.waitAt_keeps (w := w.of (by decide))
    with_reducible assumption
  clear_value a0
  clear_value a1
  split
  · with_reducible assumption
  · with_reducible apply State.setHq_keeps (w := w.of (by decide))
    with_reducible assumption

theorem State.putReserve_keeps {m : Nat} {s0 : State} (s : State) (slot : ℕ) (u : Task) (port : ℕ) (h : s0.Keeps m s) (w : Within 0x300 m := by exact Within.of (by assumption) (by decide)) :
    s0.Keeps m (State.putReserve s slot u port) := by
  unfold State.putReserve
  extract_lets a0 a1 a2 a3
  clear_value a0
  have k4 : s0.Keeps m a1.2 := by
    unfold a1
    with_reducible apply State.takeSeq_keeps (w := w.of (by decide))
    with_reducible assumption
  clear_value a1
  have k5 : s0.Keeps m a2.2 := by
    unfold a2
    with_reducible apply State.foldl_snd_keeps
    · intro x6 x7 x8
      extract_lets a9
      have k10 : s0.Keeps m a9.2 := by
        unfold a9
        with_reducible apply State.reserve_keeps (w := w.of (by decide))
        with_reducible assumption
      clear_value a9
      with_reducible assumption
    · with_reducible assumption
  clear_value a2
  clear_value a3
  with_reducible apply State.setTask_keeps (w := w.of (by decide))
  with_reducible assumption

theorem State.tputEnd_keeps {m : Nat} {s0 : State} (s : State) (k : ℕ) (slot : ℕ) (pc : Word) (rd : Fin 32) (addr : ℕ) (o : OutRes) (tile : Tile) (h : s0.Keeps m s) (w : Within 0x4007318 m := by exact Within.of (by assumption) (by decide)) :
    s0.Keeps m (State.tputEnd s k slot pc rd addr o tile) := by
  unfold State.tputEnd
  extract_lets a0 a1
  have k2 : s0.Keeps m a0 := by
    unfold a0
    with_reducible apply State.each_keeps
    · intro x3 x4 x5
      with_reducible apply State.complete_keeps (w := w.of (by decide))
      with_reducible assumption
    · with_reducible assumption
  clear_value a0
  have k6 : s0.Keeps m a1 := by
    unfold a1
    with_reducible apply State.inc_keeps (w := w.of (by decide))
    with_reducible assumption
  clear_value a1
  split
  · with_reducible assumption
  · extract_lets a7 a8 a9 a10 a11 a12
    clear_value a7
    have k13 : s0.Keeps m a8 := by
      unfold a8
      with_reducible apply State.setTask_keeps (w := w.of (by decide))
      with_reducible assumption
    clear_value a8
    have k14 : s0.Keeps m a9 := by
      unfold a9
      with_reducible apply State.setBytes_keeps (w := w.of (by decide))
      with_reducible assumption
    clear_value a9
    clear_value a10
    clear_value a11
    have k15 : s0.Keeps m a12 := by
      unfold a12
      with_reducible apply State.setEngine_keeps (w := w.of (by decide))
      with_reducible assumption
    clear_value a12
    with_reducible apply State.retire_keeps (w := w.of (by decide))
    with_reducible assumption

theorem State.tputSend_keeps {m : Nat} {s0 : State} (s : State) (k : ℕ) (slot : ℕ) (u : Task) (pc : Word) (rd : Fin 32) (rs1 : ℕ) (o : OutRes) (h : s0.Keeps m s) (w : Within 0x4007f9a m := by exact Within.of (by assumption) (by decide)) :
    s0.Keeps m (State.tputSend s k slot u pc rd rs1 o) := by
  unfold State.tputSend
  extract_lets a0 a1 a2 a3 a4
  clear_value a0
  clear_value a1
  clear_value a2
  clear_value a3
  clear_value a4
  split
  · with_reducible apply State.tileFault_keeps (w := w.of (by decide))
    with_reducible refine State.move_keeps_eq (w := w.of (by decide)) ?_ (by assumption)
    with_reducible assumption
  · extract_lets a5
    clear_value a5
    with_reducible apply State.tputEnd_keeps (w := w.of (by decide))
    with_reducible apply State.each_keeps
    · intro x6 x7 x8
      split
      · with_reducible assumption
      · with_reducible apply State.vwrite_keeps (w := w.of (by decide))
        with_reducible assumption
    · with_reducible refine State.move_keeps_eq (w := w.of (by decide)) ?_ (by assumption)
      with_reducible assumption

theorem State.libraryOutput_keeps {m : Nat} {s0 : State} (s : State) (u : Task) (rs1 : ℕ) (h : s0.Keeps m s) (w : Within 0x10 m := by exact Within.of (by assumption) (by decide)) :
    s0.Keeps m (State.libraryOutput s u rs1) := by
  unfold State.libraryOutput
  split
  · with_reducible assumption
  · split
    · split
      · with_reducible apply State.setBytes_keeps (w := w.of (by decide))
        with_reducible assumption
      · with_reducible assumption
    · with_reducible assumption

theorem State.tput_keeps {m : Nat} {s0 : State} (s : State) (k : ℕ) (slot : ℕ) (u : Task) (pc : Word) (rd : Fin 32) (rs1 : ℕ) (imm : ℕ) (h : s0.Keeps m s) (w : Within 0x4007f9a m := by exact Within.of (by assumption) (by decide)) :
    s0.Keeps m (State.tput s k slot u pc rd rs1 imm) := by
  unfold State.tput
  split
  · with_reducible apply State.illegal_keeps (w := w.of (by decide))
    with_reducible assumption
  · split
    · with_reducible apply State.trap_keeps (w := w.of (by decide))
      with_reducible assumption
    · split
      · with_reducible apply State.trap_keeps (w := w.of (by decide))
        with_reducible assumption
      · extract_lets a0 a1 a2 a3 a4
        have k5 : s0.Keeps m a0 := by
          unfold a0
          with_reducible apply State.libraryOutput_keeps (w := w.of (by decide))
          with_reducible assumption
        clear_value a0
        clear_value a1
        clear_value a2
        clear_value a3
        have k6 : s0.Keeps m a4 := by
          unfold a4
          with_reducible apply State.dropStalled_keeps (w := w.of (by decide))
          with_reducible apply State.putReserve_keeps (w := w.of (by decide))
          with_reducible apply State.dropPuts_keeps (w := w.of (by decide))
          with_reducible assumption
        clear_value a4
        split
        · with_reducible apply State.endTask_keeps (w := w.of (by decide))
          with_reducible apply State.wr_keeps (w := w.of (by decide))
          with_reducible assumption
        · split
          · with_reducible apply State.trap_keeps (w := w.of (by decide))
            with_reducible assumption
          · split
            · with_reducible apply State.tputSend_keeps (w := w.of (by decide))
              with_reducible assumption
            · split
              · with_reducible apply State.putWait_keeps (w := w.of (by decide))
                with_reducible assumption
              · split
                · with_reducible assumption
                · split
                  · with_reducible apply State.tputSend_keeps (w := w.of (by decide))
                    with_reducible assumption
                  · with_reducible assumption

theorem State.tchk_keeps {m : Nat} {s0 : State} (s : State) (k : ℕ) (slot : ℕ) (u : Task) (pc : Word) (rd : Fin 32) (rs1 : ℕ) (imm : ℕ) (h : s0.Keeps m s) (w : Within 0x4007fba m := by exact Within.of (by assumption) (by decide)) :
    s0.Keeps m (State.tchk s k slot u pc rd rs1 imm) := by
  unfold State.tchk
  extract_lets a0 a1
  clear_value a0
  clear_value a1
  split
  · with_reducible apply State.illegal_keeps (w := w.of (by decide))
    with_reducible assumption
  · split
    · with_reducible apply State.trap_keeps (w := w.of (by decide))
      with_reducible assumption
    · split
      · with_reducible apply State.trap_keeps (w := w.of (by decide))
        with_reducible assumption
      · split
        · with_reducible apply State.tileFault_keeps (w := w.of (by decide))
          with_reducible assumption
        · extract_lets a2 a3
          clear_value a2
          clear_value a3
          split
          · with_reducible apply State.trap_keeps (w := w.of (by decide))
            with_reducible assumption
          · split
            · with_reducible apply State.tileFault_keeps (w := w.of (by decide))
              with_reducible refine State.move_keeps_eq (w := w.of (by decide)) ?_ (by assumption)
              with_reducible assumption
            · extract_lets a4 a5 a6 a7 a8 a9
              clear_value a4
              clear_value a5
              clear_value a6
              clear_value a7
              have k10 : s0.Keeps m a8.2 := by
                unfold a8
                with_reducible apply State.checkTile_keeps (w := w.of (by decide))
                with_reducible refine State.move_keeps_eq (w := w.of (by decide)) ?_ (by assumption)
                with_reducible assumption
              clear_value a8
              clear_value a9
              split
              · split
                · with_reducible apply State.retire_keeps (w := w.of (by decide))
                  with_reducible refine State.move_keeps_eq (w := w.of (by decide)) ?_ (by assumption)
                  with_reducible assumption
                · extract_lets a11
                  have k12 : s0.Keeps m a11 := by
                    unfold a11
                    with_reducible apply State.countFailure_keeps (w := w.of (by decide))
                    with_reducible refine State.move_keeps_eq (w := w.of (by decide)) ?_ (by assumption)
                    with_reducible assumption
                  clear_value a11
                  split
                  · with_reducible apply State.retire_keeps (w := w.of (by decide))
                    with_reducible assumption
                  · with_reducible apply State.retire_keeps (w := w.of (by decide))
                    with_reducible assumption
              · split
                · with_reducible apply State.trap_keeps (w := w.of (by decide))
                  with_reducible refine State.move_keeps_eq (w := w.of (by decide)) ?_ (by assumption)
                  with_reducible assumption
                · split
                  · with_reducible apply State.tileFault_keeps (w := w.of (by decide))
                    with_reducible refine State.move_keeps_eq (w := w.of (by decide)) ?_ (by assumption)
                    with_reducible assumption
                  · extract_lets a13
                    have k14 : s0.Keeps m a13 := by
                      unfold a13
                      with_reducible apply State.move_keeps (w := w.of (by decide))
                      with_reducible assumption
                    clear_value a13
                    with_reducible apply State.retire_keeps (w := w.of (by decide))
                    with_reducible assumption

theorem State.qsig_keeps {m : Nat} {s0 : State} (s : State) (k : ℕ) (slot : ℕ) (u : Task) (pc : Word) (rd : Fin 32) (id : ℕ) (n : ℕ) (funct7 : ℕ) (h : s0.Keeps m s) (w : Within 0x4007f1a m := by exact Within.of (by assumption) (by decide)) :
    s0.Keeps m (State.qsig s k slot u pc rd id n funct7) := by
  unfold State.qsig
  split
  · with_reducible apply State.illegal_keeps (w := w.of (by decide))
    with_reducible assumption
  · extract_lets a0 a1 a2
    clear_value a0
    clear_value a1
    have k3 : s0.Keeps m a2 := by
      unfold a2
      with_reducible apply State.doorbell_keeps (w := w.of (by decide))
      with_reducible assumption
    clear_value a2
    with_reducible apply State.retire_keeps (w := w.of (by decide))
    with_reducible assumption

theorem State.qwait_keeps {m : Nat} {s0 : State} (s : State) (k : ℕ) (slot : ℕ) (u : Task) (pc : Word) (rd : Fin 32) (id : ℕ) (n : ℕ) (funct7 : ℕ) (h : s0.Keeps m s) (w : Within 0x4007f1a m := by exact Within.of (by assumption) (by decide)) :
    s0.Keeps m (State.qwait s k slot u pc rd id n funct7) := by
  unfold State.qwait
  split
  · with_reducible apply State.illegal_keeps (w := w.of (by decide))
    with_reducible assumption
  · extract_lets a0
    clear_value a0
    split
    · with_reducible apply State.retire_keeps (w := w.of (by decide))
      with_reducible assumption
    · split
      · with_reducible apply State.waitAt_keeps (w := w.of (by decide))
        with_reducible assumption
      · with_reducible apply State.retire_keeps (w := w.of (by decide))
        with_reducible assumption

theorem State.ppt_keeps {m : Nat} {s0 : State} (s : State) (k : ℕ) (slot : ℕ) (pc : Word) (h : s0.Keeps m s) (w : Within 0x279a m := by exact Within.of (by assumption) (by decide)) :
    s0.Keeps m (State.ppt s k slot pc) := by
  unfold State.ppt
  extract_lets a0
  have k1 : s0.Keeps m a0 := by
    unfold a0
    with_reducible apply State.retire_keeps (w := w.of (by decide))
    with_reducible assumption
  clear_value a0
  split
  · with_reducible apply State.preemptStop_keeps (w := w.of (by decide))
    with_reducible assumption
  · with_reducible assumption

theorem State.afterInstr_keeps {m : Nat} {s0 : State} (s : State) (k : ℕ) (slot : ℕ) (h : s0.Keeps m s) (w : Within 0x279a m := by exact Within.of (by assumption) (by decide)) :
    s0.Keeps m (State.afterInstr s k slot) := by
  unfold State.afterInstr
  extract_lets a0
  clear_value a0
  split
  · split
    · with_reducible apply State.preemptStop_keeps (w := w.of (by decide))
      with_reducible assumption
    · with_reducible assumption
  · with_reducible assumption

theorem State.ecall_keeps {m : Nat} {s0 : State} (s : State) (slot : ℕ) (u : Task) (a0 : ℕ) (h : s0.Keeps m s) (w : Within 0x4007f18 m := by exact Within.of (by assumption) (by decide)) :
    s0.Keeps m (State.ecall s slot u a0) := by
  unfold State.ecall
  extract_lets a0
  clear_value a0
  with_reducible apply State.endTask_keeps (w := w.of (by decide))
  with_reducible assumption

theorem State.engOpEnd_keeps {m : Nat} {s0 : State} (s : State) (st : ℕ) (h : s0.Keeps m s) (w : Within 0x2008 m := by exact Within.of (by assumption) (by decide)) :
    s0.Keeps m (State.engOpEnd s st) := by
  unfold State.engOpEnd
  extract_lets a0 a1
  clear_value a0
  have k2 : s0.Keeps m a1 := by
    unfold a1
    with_reducible apply State.wr_keeps (w := w.of (by decide))
    with_reducible apply State.setEng_keeps (w := w.of (by decide))
    with_reducible assumption
  clear_value a1
  with_reducible apply State.irq_keeps (w := w.of (by decide))
  with_reducible apply State.wr_keeps (w := w.of (by decide))
  with_reducible assumption

theorem State.libOperationDone_keeps {m : Nat} {s0 : State} (s : State) (h : s0.Keeps m s) (w : Within 0x2008 m := by exact Within.of (by assumption) (by decide)) :
    s0.Keeps m (State.libOperationDone s) := by
  unfold State.libOperationDone
  split
  · with_reducible assumption
  · extract_lets a0 a1 a2
    clear_value a0
    clear_value a1
    have k3 : s0.Keeps m a2 := by
      unfold a2
      split
      · with_reducible apply State.wrB_keeps (w := w.of (by decide))
        with_reducible apply State.setEng_keeps (w := w.of (by decide))
        with_reducible assumption
      · with_reducible assumption
    clear_value a2
    with_reducible apply State.engOpEnd_keeps (w := w.of (by decide))
    with_reducible assumption
  · extract_lets a4 a5 a6
    clear_value a4
    clear_value a5
    have k7 : s0.Keeps m a6 := by
      unfold a6
      split
      · with_reducible apply State.wr_keeps (w := w.of (by decide))
        with_reducible apply State.wr_keeps (w := w.of (by decide))
        with_reducible apply State.setEng_keeps (w := w.of (by decide))
        with_reducible assumption
      · with_reducible assumption
    clear_value a6
    with_reducible apply State.engOpEnd_keeps (w := w.of (by decide))
    with_reducible assumption

theorem State.engStart_keeps {m : Nat} {s0 : State} (s : State) (op : EngOp) (h : s0.Keeps m s) (w : Within 0x2008 m := by exact Within.of (by assumption) (by decide)) :
    s0.Keeps m (State.engStart s op) := by
  unfold State.engStart
  split
  · with_reducible apply State.wr_keeps (w := w.of (by decide))
    with_reducible assumption
  · with_reducible apply State.wr_keeps (w := w.of (by decide))
    with_reducible apply State.setEng_keeps (w := w.of (by decide))
    with_reducible assumption

theorem State.ktabCmd_keeps {m : Nat} {s0 : State} (s : State) (val : Word) (h : s0.Keeps m s) (w : Within 0x2008 m := by exact Within.of (by assumption) (by decide)) :
    s0.Keeps m (State.ktabCmd s val) := by
  unfold State.ktabCmd
  extract_lets a0
  have k1 : s0.Keeps m a0 := by
    unfold a0
    with_reducible apply State.plainWrite_keeps (w := w.of (by decide))
    with_reducible assumption
  clear_value a0
  split
  · with_reducible apply State.engStart_keeps (w := w.of (by decide))
    with_reducible assumption
  · with_reducible assumption

theorem State.libCmd_keeps {m : Nat} {s0 : State} (s : State) (val : Word) (h : s0.Keeps m s) (w : Within 0x2008 m := by exact Within.of (by assumption) (by decide)) :
    s0.Keeps m (State.libCmd s val) := by
  unfold State.libCmd
  split
  · with_reducible apply State.engStart_keeps (w := w.of (by decide))
    with_reducible assumption
  · with_reducible assumption

theorem State.clearCounters_keeps {m : Nat} {s0 : State} (s : State) (h : s0.Keeps m s) (w : Within 0x2000 m := by exact Within.of (by assumption) (by decide)) :
    s0.Keeps m (State.clearCounters s) := by
  unfold State.clearCounters
  with_reducible apply State.each_keeps
  · intro x0 x1 x2
    with_reducible apply State.setEngine_keeps (w := w.of (by decide))
    with_reducible assumption
  · with_reducible assumption

theorem State.engCtrl_keeps {m : Nat} {s0 : State} (s : State) (val : Word) (h : s0.Keeps m s) (w : Within 0x2008 m := by exact Within.of (by assumption) (by decide)) :
    s0.Keeps m (State.engCtrl s val) := by
  unfold State.engCtrl
  extract_lets a0
  have k1 : s0.Keeps m a0 := by
    unfold a0
    with_reducible apply State.plainWrite_keeps (w := w.of (by decide))
    with_reducible assumption
  clear_value a0
  split
  · with_reducible apply State.clearCounters_keeps (w := w.of (by decide))
    with_reducible assumption
  · with_reducible assumption

theorem State.runTget_keeps {m : Nat} {s0 : State} (s : State) (k : ℕ) (slot : ℕ) (u : Task) (pc : Word) (rd : Fin 32) (rs1 : ℕ) (imm : ℕ) (h : s0.Keeps m s) (w : Within 0x4007fba m := by exact Within.of (by assumption) (by decide)) :
    s0.Keeps m (State.runTget s k slot u pc rd rs1 imm) := by
  unfold State.runTget
  with_reducible apply State.afterInstr_keeps (w := w.of (by decide))
  with_reducible apply State.libraryWork_keeps (w := w.of (by decide))
  with_reducible apply State.tget_keeps (w := w.of (by decide))
  with_reducible assumption

theorem State.runTput_keeps {m : Nat} {s0 : State} (s : State) (k : ℕ) (slot : ℕ) (u : Task) (pc : Word) (rd : Fin 32) (rs1 : ℕ) (imm : ℕ) (h : s0.Keeps m s) (w : Within 0x4007f9a m := by exact Within.of (by assumption) (by decide)) :
    s0.Keeps m (State.runTput s k slot u pc rd rs1 imm) := by
  unfold State.runTput
  with_reducible apply State.afterInstr_keeps (w := w.of (by decide))
  with_reducible apply State.tput_keeps (w := w.of (by decide))
  with_reducible assumption

theorem State.runTchk_keeps {m : Nat} {s0 : State} (s : State) (k : ℕ) (slot : ℕ) (u : Task) (pc : Word) (rd : Fin 32) (rs1 : ℕ) (imm : ℕ) (h : s0.Keeps m s) (w : Within 0x4007fba m := by exact Within.of (by assumption) (by decide)) :
    s0.Keeps m (State.runTchk s k slot u pc rd rs1 imm) := by
  unfold State.runTchk
  with_reducible apply State.afterInstr_keeps (w := w.of (by decide))
  with_reducible apply State.tchk_keeps (w := w.of (by decide))
  with_reducible assumption

theorem State.customWord_keeps {m : Nat} {s0 : State} (s : State) (k : ℕ) (slot : ℕ) (u : Task) (wx : ℕ) (h : s0.Keeps m s) (w : Within 0x4007fba m := by exact Within.of (by assumption) (by decide)) :
    s0.Keeps m (State.customWord s k slot u wx) := by
  unfold State.customWord
  extract_lets a0 a1 a2 a3 a4 a5
  clear_value a0
  clear_value a1
  clear_value a2
  clear_value a3
  clear_value a4
  clear_value a5
  split
  · with_reducible apply State.runTget_keeps (w := w.of (by decide))
    with_reducible assumption
  · with_reducible apply State.runTput_keeps (w := w.of (by decide))
    with_reducible assumption
  · with_reducible apply State.runTchk_keeps (w := w.of (by decide))
    with_reducible assumption
  · with_reducible apply State.qsig_keeps (w := w.of (by decide))
    with_reducible assumption
  · with_reducible apply State.qwait_keeps (w := w.of (by decide))
    with_reducible assumption
  · split
    · with_reducible apply State.ppt_keeps (w := w.of (by decide))
      with_reducible assumption
    · with_reducible apply State.illegal_keeps (w := w.of (by decide))
      with_reducible assumption
  · with_reducible apply State.illegal_keeps (w := w.of (by decide))
    with_reducible assumption

theorem State.onEngine_keeps {m : Nat} {s0 : State} (s : State) (k : Nat) (f : State → Nat → Task → State) (h : s0.Keeps m s) (hf : ∀ u slot t, s0.Keeps m u → s0.Keeps m (f u slot t)) (w : Within 0x7f9a m := by exact Within.of (by assumption) (by decide)) :
    s0.Keeps m (s.onEngine k f) := by
  unfold State.onEngine
  split
  · exact h
  · split
    · exact h
    · extract_lets a1
      have k1 : s0.Keeps m a1 := State.libraryWork_keeps _ _ _ h
      split
      · exact k1
      · split
        · exact k1
        · exact hf _ _ _ k1

theorem execTget_keeps {m : Nat} {s0 : State} (eng : Fin 128) (pc : Word) (rd : Fin 32) (rs1 : Word) (imm : BitVec 12) (s : State) (h : s0.Keeps m s) {t : State} (e : execTget eng pc rd rs1 imm s = .next t) (w : Within 0x4007fba m := by exact Within.of (by assumption) (by decide)) :
    s0.Keeps m t := by
  unfold execTget at e
  injection e with e
  subst e
  with_reducible apply State.onEngine_keeps (w := w.of (by decide))
  · with_reducible assumption
  · intro x0 x1 x2 x3
    with_reducible apply State.runTget_keeps (w := w.of (by decide))
    with_reducible assumption

theorem execTput_keeps {m : Nat} {s0 : State} (eng : Fin 128) (pc : Word) (rd : Fin 32) (rs1 : Word) (imm : BitVec 12) (s : State) (h : s0.Keeps m s) {t : State} (e : execTput eng pc rd rs1 imm s = .next t) (w : Within 0x4007f9a m := by exact Within.of (by assumption) (by decide)) :
    s0.Keeps m t := by
  unfold execTput at e
  injection e with e
  subst e
  with_reducible apply State.onEngine_keeps (w := w.of (by decide))
  · with_reducible assumption
  · intro x0 x1 x2 x3
    with_reducible apply State.runTput_keeps (w := w.of (by decide))
    with_reducible assumption

theorem execTchk_keeps {m : Nat} {s0 : State} (eng : Fin 128) (pc : Word) (rd : Fin 32) (rs1 : Word) (imm : BitVec 12) (s : State) (h : s0.Keeps m s) {t : State} (e : execTchk eng pc rd rs1 imm s = .next t) (w : Within 0x4007fba m := by exact Within.of (by assumption) (by decide)) :
    s0.Keeps m t := by
  unfold execTchk at e
  injection e with e
  subst e
  with_reducible apply State.onEngine_keeps (w := w.of (by decide))
  · with_reducible assumption
  · intro x0 x1 x2 x3
    with_reducible apply State.runTchk_keeps (w := w.of (by decide))
    with_reducible assumption

theorem execQsig_keeps {m : Nat} {s0 : State} (eng : Fin 128) (pc : Word) (rd : Fin 32) (rs1 : Word) (rs2 : Word) (funct7 : BitVec 7) (s : State) (h : s0.Keeps m s) {t : State} (e : execQsig eng pc rd rs1 rs2 funct7 s = .next t) (w : Within 0x4007f9a m := by exact Within.of (by assumption) (by decide)) :
    s0.Keeps m t := by
  unfold execQsig at e
  injection e with e
  subst e
  with_reducible apply State.onEngine_keeps (w := w.of (by decide))
  · with_reducible assumption
  · intro x0 x1 x2 x3
    with_reducible apply State.qsig_keeps (w := w.of (by decide))
    with_reducible assumption

theorem execQwait_keeps {m : Nat} {s0 : State} (eng : Fin 128) (pc : Word) (rd : Fin 32) (rs1 : Word) (rs2 : Word) (funct7 : BitVec 7) (s : State) (h : s0.Keeps m s) {t : State} (e : execQwait eng pc rd rs1 rs2 funct7 s = .next t) (w : Within 0x4007f9a m := by exact Within.of (by assumption) (by decide)) :
    s0.Keeps m t := by
  unfold execQwait at e
  injection e with e
  subst e
  with_reducible apply State.onEngine_keeps (w := w.of (by decide))
  · with_reducible assumption
  · intro x0 x1 x2 x3
    with_reducible apply State.qwait_keeps (w := w.of (by decide))
    with_reducible assumption

theorem execPpt_keeps {m : Nat} {s0 : State} (eng : Fin 128) (pc : Word) (s : State) (h : s0.Keeps m s) {t : State} (e : execPpt eng pc s = .next t) (w : Within 0x7f9a m := by exact Within.of (by assumption) (by decide)) :
    s0.Keeps m t := by
  unfold execPpt at e
  injection e with e
  subst e
  with_reducible apply State.onEngine_keeps (w := w.of (by decide))
  · with_reducible assumption
  · intro x0 x1 x2 x3
    with_reducible apply State.ppt_keeps (w := w.of (by decide))
    with_reducible assumption

theorem execEcall_keeps {m : Nat} {s0 : State} (eng : Fin 128) (a0 : Word) (s : State) (h : s0.Keeps m s) {t : State} (e : execEcall eng a0 s = .next t) (w : Within 0x4007f9a m := by exact Within.of (by assumption) (by decide)) :
    s0.Keeps m t := by
  unfold execEcall at e
  injection e with e
  subst e
  with_reducible apply State.onEngine_keeps (w := w.of (by decide))
  · with_reducible assumption
  · intro x0 x1 x2 x3
    with_reducible apply State.ecall_keeps (w := w.of (by decide))
    with_reducible assumption

theorem execEngineTrap_keeps {m : Nat} {s0 : State} (eng : Fin 128) (cause : Byte) (tval : Word) (pc : Word) (s : State) (h : s0.Keeps m s) {t : State} (e : execEngineTrap eng cause tval pc s = .next t) (w : Within 0x4007f9a m := by exact Within.of (by assumption) (by decide)) :
    s0.Keeps m t := by
  unfold execEngineTrap at e
  injection e with e
  subst e
  with_reducible apply State.onEngine_keeps (w := w.of (by decide))
  · with_reducible assumption
  · intro x0 x1 x2 x3
    with_reducible apply State.trap_keeps (w := w.of (by decide))
    with_reducible assumption

theorem execInstall_keeps {m : Nat} {s0 : State} (src : Agent) (val : Word) (s : State) (h : s0.Keeps m s) {t : State} (e : execInstall src val s = .next t) (w : Within 0xa008 m := by exact Within.of (by assumption) (by decide)) :
    s0.Keeps m t := by
  unfold execInstall at e
  injection e with e
  subst e
  with_reducible apply State.writeReg_keeps (w := w.of (by decide))
  · with_reducible assumption
  · intro x0 x1
    with_reducible apply State.ktabCmd_keeps (w := w.of (by decide))
    with_reducible assumption

theorem execLibLoad_keeps {m : Nat} {s0 : State} (src : Agent) (val : Word) (s : State) (h : s0.Keeps m s) {t : State} (e : execLibLoad src val s = .next t) (w : Within 0xa008 m := by exact Within.of (by assumption) (by decide)) :
    s0.Keeps m t := by
  unfold execLibLoad at e
  injection e with e
  subst e
  with_reducible apply State.writeReg_keeps (w := w.of (by decide))
  · with_reducible assumption
  · intro x0 x1
    with_reducible apply State.libCmd_keeps (w := w.of (by decide))
    with_reducible assumption

theorem execLibOperationDone_keeps {m : Nat} {s0 : State} (s : State) (h : s0.Keeps m s) {t : State} (e : execLibOperationDone s = .next t) (w : Within 0x2008 m := by exact Within.of (by assumption) (by decide)) :
    s0.Keeps m t := by
  unfold execLibOperationDone at e
  injection e with e
  subst e
  with_reducible apply State.libOperationDone_keeps (w := w.of (by decide))
  with_reducible assumption

theorem execCntClr_keeps {m : Nat} {s0 : State} (src : Agent) (val : Word) (s : State) (h : s0.Keeps m s) {t : State} (e : execCntClr src val s = .next t) (w : Within 0xa008 m := by exact Within.of (by assumption) (by decide)) :
    s0.Keeps m t := by
  unfold execCntClr at e
  injection e with e
  subst e
  with_reducible apply State.writeReg_keeps (w := w.of (by decide))
  · with_reducible assumption
  · intro x0 x1
    with_reducible apply State.engCtrl_keeps (w := w.of (by decide))
    with_reducible assumption

theorem State.engRegWrite_keeps {m : Nat} {s0 : State} (s : State) (o : ℕ) (val : Word) (h : s0.Keeps m s) (w : Within 0x2008 m := by exact Within.of (by assumption) (by decide)) :
    s0.Keeps m (State.engRegWrite s o val) := by
  unfold State.engRegWrite
  split
  · with_reducible apply State.engCtrl_keeps (w := w.of (by decide))
    with_reducible assumption
  · split
    · with_reducible apply State.libCmd_keeps (w := w.of (by decide))
      with_reducible assumption
    · split
      · with_reducible apply State.ktabCmd_keeps (w := w.of (by decide))
        with_reducible assumption
      · with_reducible apply State.plainWrite_keeps (w := w.of (by decide))
        with_reducible assumption

end Sys2Proof.Machine
end

