-- ==== Sys2Proof/Laws/KeepsSensorNode.lean ====
section
/-! SUPPORT. The operations of Machine/SensorNode.lean keep the queue and the invariant (`State.Keeps`). -/

namespace Sys2Proof.Machine

set_option Elab.async false
set_option linter.unusedVariables false

theorem State.setGrp_keeps {m : Nat} {s0 : State} (s : State) (g : ℕ) (v : SlkGroup) (h : s0.Keeps m s) (w : Within 0x40000 m := by exact Within.of (by assumption) (by decide)) :
    s0.Keeps m (State.setGrp s g v) := by
  unfold State.setGrp
  with_reducible apply State.setSlk_keeps (w := w.of (by decide))
  with_reducible assumption

theorem State.setIntake_keeps {m : Nat} {s0 : State} (s : State) (id : ℕ) (v : Intake) (h : s0.Keeps m s) (w : Within 0x80000 m := by exact Within.of (by assumption) (by decide)) :
    s0.Keeps m (State.setIntake s id v) := by
  unfold State.setIntake
  with_reducible apply State.setIntakes_keeps (w := w.of (by decide))
  with_reducible assumption

theorem State.intakeForced_keeps {m : Nat} {s0 : State} (s : State) (n : Node) (h : s0.Keeps m s) (w : Within 0x80088 m := by exact Within.of (by assumption) (by decide)) :
    s0.Keeps m (State.intakeForced s n) := by
  unfold State.intakeForced
  split
  · extract_lets a0 a1
    have k2 : s0.Keeps m a0 := by
      unfold a0
      with_reducible apply State.switchNode_keeps (w := w.of (by decide))
      with_reducible assumption
    clear_value a0
    clear_value a1
    with_reducible apply State.setIntake_keeps (w := w.of (by decide))
    with_reducible assumption
  · with_reducible assumption

theorem State.emitTile_keeps {m : Nat} {s0 : State} (s : State) (n : Node) (h : s0.Keeps m s) (w : Within 0x4085198 m := by exact Within.of (by assumption) (by decide)) :
    s0.Keeps m (State.emitTile s n) := by
  unfold State.emitTile
  extract_lets a0
  have k1 : s0.Keeps m a0 := by
    unfold a0
    with_reducible apply State.intakeForced_keeps (w := w.of (by decide))
    with_reducible assumption
  clear_value a0
  split
  · with_reducible assumption
  · extract_lets a2 a3 a4 a5 a6 a7
    clear_value a2
    clear_value a3
    clear_value a4
    have k8 : s0.Keeps m a5 := by
      unfold a5
      split
      · with_reducible apply State.each_keeps
        · intro x9 x10 x11
          with_reducible apply State.inc_keeps (w := w.of (by decide))
          with_reducible assumption
        · with_reducible assumption
      · with_reducible assumption
    clear_value a5
    have k12 : s0.Keeps m a6 := by
      unfold a6
      with_reducible apply State.putSource_keeps (w := w.of (by decide))
      with_reducible assumption
    clear_value a6
    clear_value a7
    split
    · with_reducible apply State.setIntake_keeps (w := w.of (by decide))
      with_reducible assumption
    · split
      · with_reducible apply State.setIntake_keeps (w := w.of (by decide))
        with_reducible assumption
      · with_reducible apply State.setIntake_keeps (w := w.of (by decide))
        with_reducible assumption

theorem State.emitRow_keeps {m : Nat} {s0 : State} (s : State) (n : Node) (h : s0.Keeps m s) (w : Within 0x4085198 m := by exact Within.of (by assumption) (by decide)) :
    s0.Keeps m (State.emitRow s n) := by
  unfold State.emitRow
  split
  · with_reducible assumption
  · with_reducible apply State.each_keeps
    · intro x0 x1 x2
      with_reducible apply State.emitTile_keeps (w := w.of (by decide))
      with_reducible assumption
    · with_reducible assumption

theorem State.dropDone_keeps {m : Nat} {s0 : State} (s : State) (n : Node) (h : s0.Keeps m s) (w : Within 0x80000 m := by exact Within.of (by assumption) (by decide)) :
    s0.Keeps m (State.dropDone s n) := by
  unfold State.dropDone
  extract_lets a0
  clear_value a0
  split
  · split
    · with_reducible apply State.setIntake_keeps (w := w.of (by decide))
      with_reducible assumption
    · with_reducible assumption
  · with_reducible assumption

theorem State.emitTiles_keeps {m : Nat} {s0 : State} (s : State) (n : Node) (fuel : Nat) (h : s0.Keeps m s) (w : Within 0x4085198 m := by exact Within.of (by assumption) (by decide)) :
    s0.Keeps m ((s.emitTiles n fuel)) := by
  induction fuel generalizing s with
  | zero => exact h
  | succ fuel ih =>
    unfold State.emitTiles
    have k1 : s0.Keeps m (s.dropDone n) := State.dropDone_keeps s n h
    extract_lets a1
    split
    · exact ih _ (State.emitTile_keeps _ n k1)
    · exact k1

theorem State.metaDrain_keeps {m : Nat} {s0 : State} (s : State) (n : Node) (h : s0.Keeps m s) (w : Within 0x4085118 m := by exact Within.of (by assumption) (by decide)) :
    s0.Keeps m (State.metaDrain s n) := by
  unfold State.metaDrain
  extract_lets a0 a1
  have k2 : s0.Keeps m a0.2 := by
    unfold a0
    with_reducible apply State.sourceDrain_keeps (w := w.of (by decide))
    with_reducible assumption
  clear_value a0
  clear_value a1
  with_reducible apply State.setIntake_keeps (w := w.of (by decide))
  with_reducible assumption

theorem State.emitReady_keeps {m : Nat} {s0 : State} (s : State) (n : Node) (h : s0.Keeps m s) (w : Within 0x4085198 m := by exact Within.of (by assumption) (by decide)) :
    s0.Keeps m (State.emitReady s n) := by
  unfold State.emitReady
  with_reducible apply State.emitTiles_keeps (w := w.of (by decide))
  with_reducible apply State.metaDrain_keeps (w := w.of (by decide))
  with_reducible assumption

theorem State.forceRows_keeps {m : Nat} {s0 : State} (s : State) (n : Node) (cap fuel : Nat) (h : s0.Keeps m s) (w : Within 0x4085198 m := by exact Within.of (by assumption) (by decide)) :
    s0.Keeps m ((s.forceRows n cap fuel)) := by
  induction fuel generalizing s with
  | zero => exact h
  | succ fuel ih =>
    unfold State.forceRows
    have k1 : s0.Keeps m (s.dropDone n) := State.dropDone_keeps s n h
    extract_lets a1
    split
    · exact ih _ (State.emitRow_keeps _ n k1)
    · exact k1

theorem State.pushMeta_keeps {m : Nat} {s0 : State} (s : State) (n : Node) (u : Tile) (h : s0.Keeps m s) (w : Within 0x4085118 m := by exact Within.of (by assumption) (by decide)) :
    s0.Keeps m (State.pushMeta s n u) := by
  unfold State.pushMeta
  extract_lets a0 a1
  have k2 : s0.Keeps m a0.2 := by
    unfold a0
    with_reducible apply State.sourcePush_keeps (w := w.of (by decide))
    with_reducible assumption
  clear_value a0
  clear_value a1
  with_reducible apply State.setIntake_keeps (w := w.of (by decide))
  with_reducible assumption

theorem State.putMeta_keeps {m : Nat} {s0 : State} (s : State) (n : Node) (f : IFrame) (max fuel : Nat) (h : s0.Keeps m s) (w : Within 0x4085118 m := by exact Within.of (by assumption) (by decide)) :
    s0.Keeps m ((s.putMeta n f max fuel).2) := by
  induction fuel generalizing s f with
  | zero => exact h
  | succ fuel ih =>
    unfold State.putMeta
    split
    · exact ih _ _ (State.pushMeta_keeps s _ _ h)
    · exact h

theorem State.putMeta_keeps_eq {m : Nat} {s0 s : State} {n : Node} {f : IFrame} {max fuel : Nat} {a : _} {t : State} (h : s0.Keeps m s) (e : s.putMeta n f max fuel = (a, t)) (w : Within 0x4085118 m := by exact Within.of (by assumption) (by decide)) :
    s0.Keeps m t := by
  exact State.keeps_snd_eq (State.putMeta_keeps s n f max fuel h) e

theorem State.endMeta_keeps {m : Nat} {s0 : State} (s : State) (n : Node) (f : IFrame) (h : s0.Keeps m s) (w : Within 0x4085118 m := by exact Within.of (by assumption) (by decide)) :
    s0.Keeps m (State.endMeta s n f) := by
  unfold State.endMeta
  split
  · with_reducible assumption
  · with_reducible apply State.pushMeta_keeps (w := w.of (by decide))
    with_reducible assumption

theorem State.completeFrame_keeps {m : Nat} {s0 : State} (s : State) (n : Node) (h : s0.Keeps m s) (w : Within 0x4085198 m := by exact Within.of (by assumption) (by decide)) :
    s0.Keeps m (State.completeFrame s n) := by
  unfold State.completeFrame
  extract_lets a0
  clear_value a0
  split
  · with_reducible assumption
  · split
    · with_reducible assumption
    · extract_lets a1 a2 a3
      have k4 : s0.Keeps m a1 := by
        unfold a1
        with_reducible apply State.endMeta_keeps (w := w.of (by decide))
        with_reducible assumption
      clear_value a1
      clear_value a2
      have k5 : s0.Keeps m a3 := by
        unfold a3
        with_reducible apply State.setIntake_keeps (w := w.of (by decide))
        with_reducible assumption
      clear_value a3
      with_reducible apply State.emitReady_keeps (w := w.of (by decide))
      with_reducible assumption

theorem State.startFrame_keeps {m : Nat} {s0 : State} (s : State) (n : Node) (fcnt : ℕ) (h : s0.Keeps m s) (w : Within 0x4085198 m := by exact Within.of (by assumption) (by decide)) :
    s0.Keeps m (State.startFrame s n fcnt) := by
  unfold State.startFrame
  extract_lets a0 a1 a2 a3 a4 a5
  have k6 : s0.Keeps m a0 := by
    unfold a0
    with_reducible apply State.maybeSwitch_keeps (w := w.of (by decide))
    with_reducible apply State.completeFrame_keeps (w := w.of (by decide))
    with_reducible assumption
  clear_value a0
  clear_value a1
  clear_value a2
  clear_value a3
  clear_value a4
  have k7 : s0.Keeps m a5 := by
    unfold a5
    with_reducible apply State.setHq_keeps (w := w.of (by decide))
    with_reducible assumption
  clear_value a5
  with_reducible apply State.dropDone_keeps (w := w.of (by decide))
  with_reducible apply State.setIntake_keeps (w := w.of (by decide))
  with_reducible assumption

theorem State.intakeStart_keeps {m : Nat} {s0 : State} (s : State) (n : Node) (h : s0.Keeps m s) (w : Within 0x80100 m := by exact Within.of (by assumption) (by decide)) :
    s0.Keeps m (State.intakeStart s n) := by
  unfold State.intakeStart
  extract_lets a0 a1
  clear_value a0
  have k2 : s0.Keeps m a1 := by
    unfold a1
    with_reducible apply State.setHq_keeps (w := w.of (by decide))
    with_reducible assumption
  clear_value a1
  with_reducible apply State.setIntake_keeps (w := w.of (by decide))
  with_reducible assumption

theorem State.intakeStop_keeps {m : Nat} {s0 : State} (s : State) (n : Node) (h : s0.Keeps m s) (w : Within 0x80008 m := by exact Within.of (by assumption) (by decide)) :
    s0.Keeps m (State.intakeStop s n) := by
  unfold State.intakeStop
  extract_lets a0 a1 a2 a3 a4
  clear_value a0
  clear_value a1
  clear_value a2
  clear_value a3
  clear_value a4
  with_reducible apply State.setIntakes_keeps (w := w.of (by decide))
  with_reducible apply State.inc_keeps (w := w.of (by decide))
  with_reducible assumption

end Sys2Proof.Machine
end

