-- ==== Sys2Proof/Laws/KeepsMag.lean ====
section
/-! SUPPORT. The operations of Machine/Mag.lean keep the queue and the invariant (`State.Keeps`). -/

namespace Sys2Proof.Machine

set_option Elab.async false
set_option linter.unusedVariables false

theorem State.setMagPort_keeps {m : Nat} {s0 : State} (s : State) (p : ℕ) (v : MagPort) (h : s0.Keeps m s) (w : Within 0x100000 m := by exact Within.of (by assumption) (by decide)) :
    s0.Keeps m (State.setMagPort s p v) := by
  unfold State.setMagPort
  with_reducible apply State.setMag_keeps (w := w.of (by decide))
  with_reducible assumption

theorem State.setMagIn_keeps {m : Nat} {s0 : State} (s : State) (i : ℕ) (v : MagIn) (h : s0.Keeps m s) (w : Within 0x100000 m := by exact Within.of (by assumption) (by decide)) :
    s0.Keeps m (State.setMagIn s i v) := by
  unfold State.setMagIn
  with_reducible apply State.setMag_keeps (w := w.of (by decide))
  with_reducible assumption

theorem State.magStatus_keeps {m : Nat} {s0 : State} (s : State) (code : ℕ) (h : s0.Keeps m s) (w : Within 0x8 m := by exact Within.of (by assumption) (by decide)) :
    s0.Keeps m (State.magStatus s code) := by
  unfold State.magStatus
  with_reducible apply State.wr_keeps (w := w.of (by decide))
  with_reducible assumption

theorem State.magPortStatus_keeps {m : Nat} {s0 : State} (s : State) (p : ℕ) (code : ℕ) (h : s0.Keeps m s) (w : Within 0x8 m := by exact Within.of (by assumption) (by decide)) :
    s0.Keeps m (State.magPortStatus s p code) := by
  unfold State.magPortStatus
  with_reducible apply State.magStatus_keeps (w := w.of (by decide))
  with_reducible apply State.wr_keeps (w := w.of (by decide))
  with_reducible assumption

theorem State.magPortIrq_keeps {m : Nat} {s0 : State} (s : State) (f : Fld) (h : s0.Keeps m s) (w : Within 0x8 m := by exact Within.of (by assumption) (by decide)) :
    s0.Keeps m (State.magPortIrq s f) := by
  unfold State.magPortIrq
  with_reducible apply State.irq_keeps (w := w.of (by decide))
  with_reducible apply State.wr_keeps (w := w.of (by decide))
  with_reducible assumption

theorem State.noteRing_keeps {m : Nat} {s0 : State} (s : State) (h : s0.Keeps m s) (w : Within 0x8 m := by exact Within.of (by assumption) (by decide)) :
    s0.Keeps m (State.noteRing s) := by
  unfold State.noteRing
  extract_lets a0
  clear_value a0
  with_reducible apply State.wr_keeps (w := w.of (by decide))
  with_reducible apply State.wr_keeps (w := w.of (by decide))
  with_reducible assumption

theorem State.setUsed_keeps {m : Nat} {s0 : State} (s : State) (u : List ℕ) (h : s0.Keeps m s) (w : Within 0x100008 m := by exact Within.of (by assumption) (by decide)) :
    s0.Keeps m (State.setUsed s u) := by
  unfold State.setUsed
  with_reducible apply State.noteRing_keeps (w := w.of (by decide))
  with_reducible apply State.setMag_keeps (w := w.of (by decide))
  with_reducible assumption

theorem State.giveBlocks_keeps {m : Nat} {s0 : State} (s : State) (l : List ℕ) (h : s0.Keeps m s) (w : Within 0x100008 m := by exact Within.of (by assumption) (by decide)) :
    s0.Keeps m (State.giveBlocks s l) := by
  unfold State.giveBlocks
  with_reducible apply State.setUsed_keeps (w := w.of (by decide))
  with_reducible assumption

theorem State.delayPut_keeps {m : Nat} {s0 : State} (s : State) (blocks : List Nat) (o : Nat) (l : List Byte) (h : s0.Keeps m s) (w : Within 0x10 m := by exact Within.of (by assumption) (by decide)) :
    s0.Keeps m ((s.delayPut blocks o l)) := by
  induction l generalizing s o with
  | nil => exact h
  | cons b tl ih =>
    exact ih _ (o + 1) (State.setByte_keeps _ b h)

theorem State.noteFree_keeps {m : Nat} {s0 : State} (s : State) (p : ℕ) (h : s0.Keeps m s) (w : Within 0x8 m := by exact Within.of (by assumption) (by decide)) :
    s0.Keeps m (State.noteFree s p) := by
  unfold State.noteFree
  extract_lets a0 a1 a2 a3
  clear_value a0
  clear_value a1
  clear_value a2
  have k4 : s0.Keeps m a3 := by
    unfold a3
    with_reducible apply State.wr_keeps (w := w.of (by decide))
    with_reducible assumption
  clear_value a3
  split
  · with_reducible apply State.irq_keeps (w := w.of (by decide))
    with_reducible assumption
  · with_reducible assumption

theorem State.submitOne_keeps {m : Nat} {s0 : State} (s : State) (p : ℕ) (c : MagCmd) (h : s0.Keeps m s) (w : Within 0x100010 m := by exact Within.of (by assumption) (by decide)) :
    s0.Keeps m (State.submitOne s p c) := by
  unfold State.submitOne
  extract_lets a0 a1 a2 a3
  clear_value a0
  clear_value a1
  have k4 : s0.Keeps m a2 := by
    unfold a2
    with_reducible apply State.setBytes_keeps (w := w.of (by decide))
    with_reducible assumption
  clear_value a2
  have k5 : s0.Keeps m a3 := by
    unfold a3
    with_reducible apply State.setBytes_keeps (w := w.of (by decide))
    with_reducible assumption
  clear_value a3
  with_reducible apply State.setMagPort_keeps (w := w.of (by decide))
  with_reducible assumption

theorem State.submitAll_keeps {m : Nat} {s0 : State} (s : State) (p fuel : Nat) (h : s0.Keeps m s) (w : Within 0x100010 m := by exact Within.of (by assumption) (by decide)) :
    s0.Keeps m ((s.submitAll p fuel)) := by
  induction fuel generalizing s with
  | zero => exact h
  | succ fuel ih =>
    unfold State.submitAll
    extract_lets v
    split
    · exact h
    · split
      · exact h
      · split
        · exact h
        · exact ih _ (State.submitOne_keeps s p _ h)

theorem State.submit_keeps {m : Nat} {s0 : State} (s : State) (p : ℕ) (h : s0.Keeps m s) (w : Within 0x100010 m := by exact Within.of (by assumption) (by decide)) :
    s0.Keeps m (State.submit s p) := by
  unfold State.submit
  with_reducible apply State.submitAll_keeps (w := w.of (by decide))
  with_reducible assumption

theorem State.stopTake_keeps {m : Nat} {s0 : State} (s : State) (reason : ℕ) (h : s0.Keeps m s) (w : Within 0x100008 m := by exact Within.of (by assumption) (by decide)) :
    s0.Keeps m (State.stopTake s reason) := by
  unfold State.stopTake
  split
  · with_reducible apply State.wr_keeps (w := w.of (by decide))
    with_reducible apply State.setMag_keeps (w := w.of (by decide))
    with_reducible assumption
  · with_reducible assumption

theorem State.portFull_keeps {m : Nat} {s0 : State} (s : State) (p : ℕ) (code : ℕ) (h : s0.Keeps m s) (w : Within 0x100008 m := by exact Within.of (by assumption) (by decide)) :
    s0.Keeps m (State.portFull s p code) := by
  unfold State.portFull
  extract_lets a0 a1
  have k2 : s0.Keeps m a0 := by
    unfold a0
    with_reducible apply State.magPortStatus_keeps (w := w.of (by decide))
    with_reducible apply State.wr_keeps (w := w.of (by decide))
    with_reducible assumption
  clear_value a0
  have k3 : s0.Keeps m a1 := by
    unfold a1
    split
    · with_reducible apply State.magPortIrq_keeps (w := w.of (by decide))
      with_reducible assumption
    · with_reducible assumption
  clear_value a1
  split
  · with_reducible apply State.stopTake_keeps (w := w.of (by decide))
    with_reducible assumption
  · with_reducible assumption

theorem State.assignTo_keeps {m : Nat} {s0 : State} (s : State) (p : ℕ) (r : MagRec) (reserve : Bool) (h : s0.Keeps m s) (w : Within 0x100008 m := by exact Within.of (by assumption) (by decide)) :
    s0.Keeps m ((State.assignTo s p r reserve).2) := by
  unfold State.assignTo
  split
  · dsimp only
    with_reducible apply State.portFull_keeps (w := w.of (by decide))
    with_reducible assumption
  · dsimp only
    with_reducible apply State.portFull_keeps (w := w.of (by decide))
    with_reducible assumption
  · extract_lets a0 a1
    clear_value a0
    have k2 : s0.Keeps m a1 := by
      unfold a1
      with_reducible apply State.setMagPort_keeps (w := w.of (by decide))
      with_reducible assumption
    clear_value a1
    dsimp only
    with_reducible apply State.noteFree_keeps (w := w.of (by decide))
    with_reducible apply State.wr_keeps (w := w.of (by decide))
    with_reducible assumption

theorem State.assignTo_keeps_eq {m : Nat} {s0 : State} {s : State} {p : ℕ} {r : MagRec} {reserve : Bool} {a : _} {t : State} (h : s0.Keeps m s)  (e : State.assignTo s p r reserve = (a, t)) (w : Within 0x100008 m := by exact Within.of (by assumption) (by decide)) :
    s0.Keeps m t :=
  State.keeps_snd_eq (State.assignTo_keeps s p r reserve h ) e

theorem State.addRec_keeps {m : Nat} {s0 : State} (s : State) (r : MagRec) (ports : List ℕ) (h : s0.Keeps m s) (w : Within 0x100000 m := by exact Within.of (by assumption) (by decide)) :
    s0.Keeps m (State.addRec s r ports) := by
  unfold State.addRec
  split
  · with_reducible apply State.setMag_keeps (w := w.of (by decide))
    with_reducible assumption
  · with_reducible apply State.setMag_keeps (w := w.of (by decide))
    with_reducible assumption

theorem State.assignEach_keeps {m : Nat} {s0 : State} (s : State) (ports : List ℕ) (r : MagRec) (reserve : Bool) (h : s0.Keeps m s) (w : Within 0x100018 m := by exact Within.of (by assumption) (by decide)) :
    s0.Keeps m ((State.assignEach s ports r reserve).2) := by
  unfold State.assignEach
  extract_lets a0
  have k1 : s0.Keeps m a0.2 := by
    unfold a0
    with_reducible apply State.foldl_snd_keeps
    · intro x2 x3 x4
      extract_lets a5
      have k6 : s0.Keeps m a5.2 := by
        unfold a5
        with_reducible apply State.assignTo_keeps (w := w.of (by decide))
        with_reducible assumption
      clear_value a5
      with_reducible assumption
    · with_reducible assumption
  clear_value a0
  split
  · with_reducible assumption
  · dsimp only
    with_reducible apply State.each_keeps
    · intro x7 x8 x9
      with_reducible apply State.submit_keeps (w := w.of (by decide))
      with_reducible assumption
    · with_reducible apply State.addRec_keeps (w := w.of (by decide))
      with_reducible assumption

theorem State.assignEach_keeps_eq {m : Nat} {s0 : State} {s : State} {ports : List ℕ} {r : MagRec} {reserve : Bool} {a : _} {t : State} (h : s0.Keeps m s)  (e : State.assignEach s ports r reserve = (a, t)) (w : Within 0x100018 m := by exact Within.of (by assumption) (by decide)) :
    s0.Keeps m t :=
  State.keeps_snd_eq (State.assignEach_keeps s ports r reserve h ) e

theorem State.assignFrame_keeps {m : Nat} {s0 : State} (s : State) (r : MagRec) (fuel : Nat) (h : s0.Keeps m s) (w : Within 0x100018 m := by exact Within.of (by assumption) (by decide)) :
    s0.Keeps m ((s.assignFrame r fuel).2) := by
  induction fuel generalizing s with
  | zero => exact h
  | succ fuel ih =>
    unfold State.assignFrame
    split
    · exact h
    · split
      · exact State.assignEach_keeps s _ _ _ h
      · refine ih _ ?_
        apply State.each_keeps
        · intro p t ht
          split
          · exact State.portFull_keeps _ _ _ ht
          · exact ht
        · exact h

theorem State.assignFrame_keeps_eq {m : Nat} {s0 s : State} {r : MagRec} {fuel : Nat} {a : _} {t : State} (h : s0.Keeps m s) (e : s.assignFrame r fuel = (a, t)) (w : Within 0x100018 m := by exact Within.of (by assumption) (by decide)) :
    s0.Keeps m t := by
  exact State.keeps_snd_eq (State.assignFrame_keeps s r fuel h) e

theorem State.nextRec_keeps {m : Nat} {s0 : State} (s : State) (h : s0.Keeps m s) (w : Within 0x8 m := by exact Within.of (by assumption) (by decide)) :
    s0.Keeps m ((State.nextRec s).2) := by
  unfold State.nextRec
  dsimp only
  with_reducible apply State.incWrap_keeps (w := w.of (by decide))
  with_reducible assumption

theorem State.nextRec_keeps_eq {m : Nat} {s0 : State} {s : State} {a : _} {t : State} (h : s0.Keeps m s)  (e : State.nextRec s = (a, t)) (w : Within 0x8 m := by exact Within.of (by assumption) (by decide)) :
    s0.Keeps m t :=
  State.keeps_snd_eq (State.nextRec_keeps s h ) e

theorem State.queueSmall_keeps {m : Nat} {s0 : State} (s : State) (rtype : ℕ) (stream : ℕ) (body : List Byte) (closing : Bool) (h : s0.Keeps m s) (w : Within 0x100018 m := by exact Within.of (by assumption) (by decide)) :
    s0.Keeps m ((State.queueSmall s rtype stream body closing).2) := by
  unfold State.queueSmall
  extract_lets a0 a1 a2 a3
  have k4 : s0.Keeps m a0.2 := by
    unfold a0
    with_reducible apply State.nextRec_keeps (w := w.of (by decide))
    with_reducible assumption
  clear_value a0
  clear_value a1
  clear_value a2
  have k5 : s0.Keeps m a3.2 := by
    unfold a3
    with_reducible apply State.assignEach_keeps (w := w.of (by decide))
    with_reducible assumption
  clear_value a3
  split
  · dsimp only
    with_reducible apply State.wr_keeps (w := w.of (by decide))
    with_reducible assumption
  · with_reducible assumption

theorem State.queueSmall_keeps_eq {m : Nat} {s0 : State} {s : State} {rtype : ℕ} {stream : ℕ} {body : List Byte} {closing : Bool} {a : _} {t : State} (h : s0.Keeps m s)  (e : State.queueSmall s rtype stream body closing = (a, t)) (w : Within 0x100018 m := by exact Within.of (by assumption) (by decide)) :
    s0.Keeps m t :=
  State.keeps_snd_eq (State.queueSmall_keeps s rtype stream body closing h ) e

theorem State.queueGap_keeps {m : Nat} {s0 : State} (s : State) (stream : ℕ) (closing : Bool) (g : MagGap) (h : s0.Keeps m s) (w : Within 0x100018 m := by exact Within.of (by assumption) (by decide)) :
    s0.Keeps m ((State.queueGap s stream closing g).2) := by
  unfold State.queueGap
  with_reducible apply State.queueSmall_keeps (w := w.of (by decide))
  with_reducible assumption

theorem State.queueGap_keeps_eq {m : Nat} {s0 : State} {s : State} {stream : ℕ} {closing : Bool} {g : MagGap} {a : _} {t : State} (h : s0.Keeps m s)  (e : State.queueGap s stream closing g = (a, t)) (w : Within 0x100018 m := by exact Within.of (by assumption) (by decide)) :
    s0.Keeps m t :=
  State.keeps_snd_eq (State.queueGap_keeps s stream closing g h ) e

theorem State.queueGaps_keeps {m : Nat} {s0 : State} (s : State) (stream : ℕ) (closing : Bool) (gs : List MagGap) (h : s0.Keeps m s) (w : Within 0x100018 m := by exact Within.of (by assumption) (by decide)) :
    s0.Keeps m ((State.queueGaps s stream closing gs).2) := by
  unfold State.queueGaps
  with_reducible apply State.foldl_snd_keeps
  · intro x0 x1 x2
    extract_lets a3
    have k4 : s0.Keeps m a3.2 := by
      unfold a3
      with_reducible apply State.queueGap_keeps (w := w.of (by decide))
      with_reducible assumption
    clear_value a3
    with_reducible assumption
  · with_reducible assumption

theorem State.queueGaps_keeps_eq {m : Nat} {s0 : State} {s : State} {stream : ℕ} {closing : Bool} {gs : List MagGap} {a : _} {t : State} (h : s0.Keeps m s)  (e : State.queueGaps s stream closing gs = (a, t)) (w : Within 0x100018 m := by exact Within.of (by assumption) (by decide)) :
    s0.Keeps m t :=
  State.keeps_snd_eq (State.queueGaps_keeps s stream closing gs h ) e

theorem State.queueStream_keeps {m : Nat} {s0 : State} (s : State) (i : ℕ) (f : MagFrame) (pixfmt : List Byte) (h : s0.Keeps m s) (w : Within 0x100018 m := by exact Within.of (by assumption) (by decide)) :
    s0.Keeps m (State.queueStream s i f pixfmt) := by
  unfold State.queueStream
  with_reducible apply State.queueSmall_keeps (w := w.of (by decide))
  with_reducible assumption

theorem State.writerTile_keeps {m : Nat} {s0 : State} (s : State) (i : ℕ) (h : s0.Keeps m s) (w : Within 0x108 m := by exact Within.of (by assumption) (by decide)) :
    s0.Keeps m ((State.writerTile s i).2) := by
  unfold State.writerTile
  split
  · with_reducible assumption
  · split
    · with_reducible assumption
    · extract_lets a0
      have k1 : s0.Keeps m a0.2 := by
        unfold a0
        with_reducible apply State.nextTile_keeps (w := w.of (by decide))
        with_reducible assumption
      clear_value a0
      with_reducible assumption

theorem State.writerTile_keeps_eq {m : Nat} {s0 : State} {s : State} {i : ℕ} {a : _} {t : State} (h : s0.Keeps m s)  (e : State.writerTile s i = (a, t)) (w : Within 0x108 m := by exact Within.of (by assumption) (by decide)) :
    s0.Keeps m t :=
  State.keeps_snd_eq (State.writerTile_keeps s i h ) e

theorem State.frameDone_keeps {m : Nat} {s0 : State} (s : State) (i : ℕ) (truncated : Bool) (h : s0.Keeps m s) (w : Within 0x100008 m := by exact Within.of (by assumption) (by decide)) :
    s0.Keeps m (State.frameDone s i truncated) := by
  unfold State.frameDone
  extract_lets a0 a1 a2
  clear_value a0
  have k3 : s0.Keeps m a1 := by
    unfold a1
    with_reducible apply State.setMagIn_keeps (w := w.of (by decide))
    with_reducible assumption
  clear_value a1
  clear_value a2
  split
  · with_reducible assumption
  · extract_lets a4
    have k5 : s0.Keeps m a4 := by
      unfold a4
      with_reducible apply State.setMag_keeps (w := w.of (by decide))
      with_reducible assumption
    clear_value a4
    split
    · with_reducible apply State.magStatus_keeps (w := w.of (by decide))
      with_reducible assumption
    · with_reducible assumption

theorem State.copyTile_keeps {m : Nat} {s0 : State} (s : State) (i : ℕ) (f : MagFrame) (ex : RingEntry) (h : s0.Keeps m s) (w : Within 0x100018 m := by exact Within.of (by assumption) (by decide)) :
    s0.Keeps m (State.copyTile s i f ex) := by
  unfold State.copyTile
  extract_lets a0 a1 a2 a3 a4 a5 a6
  clear_value a0
  clear_value a1
  have k7 : s0.Keeps m a2 := by
    unfold a2
    with_reducible apply State.magStatus_keeps (w := w.of (by decide))
    with_reducible apply State.inc_keeps (w := w.of (by decide))
    with_reducible assumption
  clear_value a2
  clear_value a3
  have k8 : s0.Keeps m a4 := by
    unfold a4
    with_reducible apply State.delayPut_keeps (w := w.of (by decide))
    with_reducible assumption
  clear_value a4
  clear_value a5
  have k9 : s0.Keeps m a6 := by
    unfold a6
    with_reducible apply State.setMagIn_keeps (w := w.of (by decide))
    with_reducible assumption
  clear_value a6
  split
  · with_reducible apply State.setMagIn_keeps (w := w.of (by decide))
    with_reducible assumption
  · split
    · with_reducible apply State.frameDone_keeps (w := w.of (by decide))
      with_reducible assumption
    · with_reducible assumption

theorem State.omitTile_keeps {m : Nat} {s0 : State} (s : State) (i : ℕ) (hx : TileHdr) (start : Bool) (h : s0.Keeps m s) (w : Within 0x100008 m := by exact Within.of (by assumption) (by decide)) :
    s0.Keeps m (State.omitTile s i hx start) := by
  unfold State.omitTile
  extract_lets a0 a1
  clear_value a0
  clear_value a1
  with_reducible apply State.setMagIn_keeps (w := w.of (by decide))
  with_reducible apply State.inc_keeps (w := w.of (by decide))
  with_reducible assumption

theorem State.admitFrame_keeps {m : Nat} {s0 : State} (s : State) (i : ℕ) (ed : Edge) (ex : RingEntry) (h : s0.Keeps m s) (w : Within 0x100018 m := by exact Within.of (by assumption) (by decide)) :
    s0.Keeps m (State.admitFrame s i ed ex) := by
  unfold State.admitFrame
  extract_lets a0 a1 a2 a3 a4 a5 a6 a7 a8 a9 a10 a11
  have k12 : s0.Keeps m a0 := by
    unfold a0
    with_reducible apply State.frameDone_keeps (w := w.of (by decide))
    with_reducible assumption
  clear_value a0
  clear_value a1
  clear_value a2
  clear_value a3
  clear_value a4
  clear_value a5
  clear_value a6
  clear_value a7
  have k13 : s0.Keeps m a8 := by
    unfold a8
    with_reducible apply State.setUsed_keeps (w := w.of (by decide))
    with_reducible assumption
  clear_value a8
  have k14 : s0.Keeps m a9 := by
    unfold a9
    with_reducible apply State.setMagIn_keeps (w := w.of (by decide))
    with_reducible assumption
  clear_value a9
  clear_value a10
  have k15 : s0.Keeps m a11 := by
    unfold a11
    split
    · with_reducible assumption
    · with_reducible apply State.queueStream_keeps (w := w.of (by decide))
      with_reducible assumption
  clear_value a11
  split
  · with_reducible apply State.irq_keeps (w := w.of (by decide))
    with_reducible apply State.magStatus_keeps (w := w.of (by decide))
    with_reducible apply State.inc_keeps (w := w.of (by decide))
    with_reducible apply State.omitTile_keeps (w := w.of (by decide))
    with_reducible assumption
  · with_reducible apply State.copyTile_keeps (w := w.of (by decide))
    with_reducible assumption

theorem State.frameAdmit_keeps {m : Nat} {s0 : State} (s : State) (i : ℕ) (h : s0.Keeps m s) (w : Within 0x100118 m := by exact Within.of (by assumption) (by decide)) :
    s0.Keeps m (State.frameAdmit s i) := by
  unfold State.frameAdmit
  extract_lets a0
  have k1 : s0.Keeps m a0.2 := by
    unfold a0
    with_reducible apply State.writerTile_keeps (w := w.of (by decide))
    with_reducible assumption
  clear_value a0
  split
  · split
    · with_reducible apply State.pop_keeps (w := w.of (by decide))
      with_reducible apply State.admitFrame_keeps (w := w.of (by decide))
      with_reducible assumption
    · with_reducible assumption
  · with_reducible assumption

theorem State.recordingTile_keeps {m : Nat} {s0 : State} (s : State) (i : ℕ) (h : s0.Keeps m s) (w : Within 0x100118 m := by exact Within.of (by assumption) (by decide)) :
    s0.Keeps m (State.recordingTile s i) := by
  unfold State.recordingTile
  extract_lets a0 a1 a2 a3 a4
  have k5 : s0.Keeps m a0.2 := by
    unfold a0
    with_reducible apply State.writerTile_keeps (w := w.of (by decide))
    with_reducible assumption
  clear_value a0
  have k6 : s0.Keeps m a1 := by
    unfold a1
    with_reducible assumption
  clear_value a1
  clear_value a2
  have k7 : s0.Keeps m a3 := by
    unfold a3
    with_reducible apply State.frameDone_keeps (w := w.of (by decide))
    with_reducible assumption
  clear_value a3
  clear_value a4
  split
  · with_reducible assumption
  · split
    · with_reducible assumption
    · extract_lets a8
      have k9 : s0.Keeps m a8 := by
        unfold a8
        split
        · with_reducible apply State.setMagIn_keeps (w := w.of (by decide))
          with_reducible assumption
        · split
          · with_reducible assumption
          · split
            · with_reducible apply State.copyTile_keeps (w := w.of (by decide))
              with_reducible assumption
            · split
              · with_reducible apply State.omitTile_keeps (w := w.of (by decide))
                with_reducible assumption
              · with_reducible assumption
      clear_value a8
      with_reducible apply State.pop_keeps (w := w.of (by decide))
      with_reducible assumption

theorem State.gapFrame_keeps {m : Nat} {s0 : State} (s : State) (f : MagFrame) (reason : ℕ) (h : s0.Keeps m s) (w : Within 0x100008 m := by exact Within.of (by assumption) (by decide)) :
    s0.Keeps m (State.gapFrame s f reason) := by
  unfold State.gapFrame
  extract_lets a0 a1
  clear_value a0
  clear_value a1
  with_reducible apply State.setMagIn_keeps (w := w.of (by decide))
  with_reducible apply State.giveBlocks_keeps (w := w.of (by decide))
  with_reducible assumption

theorem State.verifyFrame_keeps {m : Nat} {s0 : State} (s : State) (f : MagFrame) (h : s0.Keeps m s) (w : Within 0x8 m := by exact Within.of (by assumption) (by decide)) :
    s0.Keeps m ((State.verifyFrame s f).2) := by
  unfold State.verifyFrame
  with_reducible apply State.foldl_snd_keeps
  · intro x0 x1 x2
    extract_lets a3
    clear_value a3
    dsimp only
    with_reducible apply State.recordCheck_keeps (w := w.of (by decide))
    with_reducible assumption
  · with_reducible assumption

theorem State.verifyFrame_keeps_eq {m : Nat} {s0 : State} {s : State} {f : MagFrame} {a : _} {t : State} (h : s0.Keeps m s)  (e : State.verifyFrame s f = (a, t)) (w : Within 0x8 m := by exact Within.of (by assumption) (by decide)) :
    s0.Keeps m t :=
  State.keeps_snd_eq (State.verifyFrame_keeps s f h ) e

theorem State.buildFrame_keeps {m : Nat} {s0 : State} (s : State) (f : MagFrame) (ts : List Drained) (seq : ℕ) (h : s0.Keeps m s) (w : Within 0x100018 m := by exact Within.of (by assumption) (by decide)) :
    s0.Keeps m ((State.buildFrame s f ts seq).2) := by
  unfold State.buildFrame
  extract_lets a0 a1 a2 a3 a4 a5 a6 a7 a8
  clear_value a0
  clear_value a1
  clear_value a2
  have k9 : s0.Keeps m a3 := by
    unfold a3
    with_reducible apply State.delayPut_keeps (w := w.of (by decide))
    with_reducible assumption
  clear_value a3
  have k10 : s0.Keeps m a4 := by
    unfold a4
    with_reducible apply State.delayPut_keeps (w := w.of (by decide))
    with_reducible assumption
  clear_value a4
  clear_value a5
  clear_value a6
  clear_value a7
  clear_value a8
  dsimp only
  with_reducible apply State.giveBlocks_keeps (w := w.of (by decide))
  with_reducible assumption

theorem State.buildFrame_keeps_eq {m : Nat} {s0 : State} {s : State} {f : MagFrame} {ts : List Drained} {seq : ℕ} {a : _} {t : State} (h : s0.Keeps m s)  (e : State.buildFrame s f ts seq = (a, t)) (w : Within 0x100018 m := by exact Within.of (by assumption) (by decide)) :
    s0.Keeps m t :=
  State.keeps_snd_eq (State.buildFrame_keeps s f ts seq h ) e

theorem State.discardFrame_keeps {m : Nat} {s0 : State} (s : State) (f : MagFrame) (h : s0.Keeps m s) (w : Within 0x100008 m := by exact Within.of (by assumption) (by decide)) :
    s0.Keeps m (State.discardFrame s f) := by
  unfold State.discardFrame
  extract_lets a0 a1
  have k2 : s0.Keeps m a0 := by
    unfold a0
    with_reducible apply State.inc_keeps (w := w.of (by decide))
    with_reducible apply State.gapFrame_keeps (w := w.of (by decide))
    with_reducible assumption
  clear_value a0
  clear_value a1
  with_reducible apply State.setMagIn_keeps (w := w.of (by decide))
  with_reducible assumption

theorem State.countFrame_keeps {m : Nat} {s0 : State} (s : State) (f : MagFrame) (ts : List Drained) (h : s0.Keeps m s) (w : Within 0x100000 m := by exact Within.of (by assumption) (by decide)) :
    s0.Keeps m (State.countFrame s f ts) := by
  unfold State.countFrame
  extract_lets a0
  clear_value a0
  with_reducible apply State.setMagIn_keeps (w := w.of (by decide))
  with_reducible assumption

theorem State.drainFrame_keeps {m : Nat} {s0 : State} (s : State) (f : MagFrame) (h : s0.Keeps m s) (w : Within 0x100018 m := by exact Within.of (by assumption) (by decide)) :
    s0.Keeps m (State.drainFrame s f) := by
  unfold State.drainFrame
  extract_lets a0 a1 a2 a3 a4 a5 a6
  have k7 : s0.Keeps m a0.2 := by
    unfold a0
    with_reducible apply State.verifyFrame_keeps (w := w.of (by decide))
    with_reducible assumption
  clear_value a0
  have k8 : s0.Keeps m a1.2 := by
    unfold a1
    with_reducible apply State.queueGaps_keeps (w := w.of (by decide))
    with_reducible assumption
  clear_value a1
  have k9 : s0.Keeps m a2.2 := by
    unfold a2
    with_reducible apply State.nextRec_keeps (w := w.of (by decide))
    with_reducible assumption
  clear_value a2
  have k10 : s0.Keeps m a3.2 := by
    unfold a3
    with_reducible apply State.buildFrame_keeps (w := w.of (by decide))
    with_reducible assumption
  clear_value a3
  have k11 : s0.Keeps m a4.2 := by
    unfold a4
    with_reducible apply State.assignFrame_keeps (w := w.of (by decide))
    with_reducible assumption
  clear_value a4
  have k12 : s0.Keeps m a5 := by
    unfold a5
    with_reducible apply State.countFrame_keeps (w := w.of (by decide))
    with_reducible assumption
  clear_value a5
  clear_value a6
  split
  · with_reducible apply State.setMagIn_keeps (w := w.of (by decide))
    with_reducible assumption
  · with_reducible apply State.discardFrame_keeps (w := w.of (by decide))
    with_reducible apply State.wr_keeps (w := w.of (by decide))
    with_reducible assumption

theorem State.frameDrain_keeps {m : Nat} {s0 : State} (s : State) (h : s0.Keeps m s) (w : Within 0x100018 m := by exact Within.of (by assumption) (by decide)) :
    s0.Keeps m (State.frameDrain s) := by
  unfold State.frameDrain
  split
  · with_reducible assumption
  · extract_lets a0 a1
    clear_value a0
    have k2 : s0.Keeps m a1 := by
      unfold a1
      with_reducible apply State.setMag_keeps (w := w.of (by decide))
      with_reducible assumption
    clear_value a1
    split
    · with_reducible apply State.drainFrame_keeps (w := w.of (by decide))
      with_reducible assumption
    · split
      · with_reducible assumption
      · with_reducible apply State.discardFrame_keeps (w := w.of (by decide))
        with_reducible assumption

theorem State.portLost_keeps {m : Nat} {s0 : State} (s : State) (p : ℕ) (h : s0.Keeps m s) (w : Within 0x100000 m := by exact Within.of (by assumption) (by decide)) :
    s0.Keeps m (State.portLost s p) := by
  unfold State.portLost
  split
  · with_reducible apply State.setMagPort_keeps (w := w.of (by decide))
    with_reducible assumption
  · with_reducible assumption

theorem State.portFailed_keeps {m : Nat} {s0 : State} (s : State) (p : ℕ) (code : ℕ) (sf : ℕ) (cid : ℕ) (h : s0.Keeps m s) (w : Within 0x100008 m := by exact Within.of (by assumption) (by decide)) :
    s0.Keeps m (State.portFailed s p code sf cid) := by
  unfold State.portFailed
  extract_lets a0 a1
  have k2 : s0.Keeps m a0 := by
    unfold a0
    with_reducible apply State.wr_keeps (w := w.of (by decide))
    with_reducible apply State.portLost_keeps (w := w.of (by decide))
    with_reducible assumption
  clear_value a0
  have k3 : s0.Keeps m a1 := by
    unfold a1
    with_reducible apply State.wr_keeps (w := w.of (by decide))
    with_reducible apply State.wr_keeps (w := w.of (by decide))
    with_reducible assumption
  clear_value a1
  with_reducible apply State.magPortIrq_keeps (w := w.of (by decide))
  with_reducible apply State.magPortStatus_keeps (w := w.of (by decide))
  with_reducible assumption

theorem State.nvmeCompletion_keeps {m : Nat} {s0 : State} (s : State) (p : ℕ) (h : s0.Keeps m s) (w : Within 0x100018 m := by exact Within.of (by assumption) (by decide)) :
    s0.Keeps m (State.nvmeCompletion s p) := by
  unfold State.nvmeCompletion
  extract_lets a0 a1 a2 a3 a4 a5 a6 a7
  clear_value a0
  clear_value a1
  clear_value a2
  clear_value a3
  clear_value a4
  clear_value a5
  clear_value a6
  clear_value a7
  split
  · with_reducible assumption
  · split
    · with_reducible apply State.setMagPort_keeps (w := w.of (by decide))
      with_reducible assumption
    · split
      · with_reducible apply State.submit_keeps (w := w.of (by decide))
        with_reducible apply State.setMagPort_keeps (w := w.of (by decide))
        with_reducible assumption
      · split
        · with_reducible apply State.submit_keeps (w := w.of (by decide))
          with_reducible apply State.setMagPort_keeps (w := w.of (by decide))
          with_reducible assumption
        · split
          · with_reducible apply State.setMagPort_keeps (w := w.of (by decide))
            with_reducible assumption
          · with_reducible apply State.portFailed_keeps (w := w.of (by decide))
            with_reducible apply State.setMagPort_keeps (w := w.of (by decide))
            with_reducible assumption

theorem State.magTimeout_keeps {m : Nat} {s0 : State} (s : State) (p : ℕ) (cid : ℕ) (h : s0.Keeps m s) (w : Within 0x100008 m := by exact Within.of (by assumption) (by decide)) :
    s0.Keeps m (State.magTimeout s p cid) := by
  unfold State.magTimeout
  extract_lets a0
  clear_value a0
  split
  · with_reducible assumption
  · extract_lets a1
    have k2 : s0.Keeps m a1 := by
      unfold a1
      with_reducible apply State.setMagPort_keeps (w := w.of (by decide))
      with_reducible assumption
    clear_value a1
    split
    · with_reducible assumption
    · with_reducible apply State.portFailed_keeps (w := w.of (by decide))
      with_reducible assumption

theorem State.retireRecs_keeps {m : Nat} {s0 : State} (s : State) (h : s0.Keeps m s) (w : Within 0x100008 m := by exact Within.of (by assumption) (by decide)) :
    s0.Keeps m (State.retireRecs s) := by
  unfold State.retireRecs
  extract_lets a0 a1
  clear_value a0
  clear_value a1
  with_reducible apply State.giveBlocks_keeps (w := w.of (by decide))
  with_reducible apply State.setMag_keeps (w := w.of (by decide))
  with_reducible assumption

theorem State.recordAcked_keeps {m : Nat} {s0 : State} (s : State) (p : ℕ) (h : s0.Keeps m s) (w : Within 0x100018 m := by exact Within.of (by assumption) (by decide)) :
    s0.Keeps m (State.recordAcked s p) := by
  unfold State.recordAcked
  extract_lets a0 a1 a2
  clear_value a0
  clear_value a1
  clear_value a2
  split
  · with_reducible assumption
  · extract_lets a3 a4 a5 a6 a7
    clear_value a3
    clear_value a4
    have k8 : s0.Keeps m a5 := by
      unfold a5
      with_reducible apply State.inc_keeps (w := w.of (by decide))
      with_reducible apply State.setMagPort_keeps (w := w.of (by decide))
      with_reducible assumption
    clear_value a5
    clear_value a6
    have k9 : s0.Keeps m a7 := by
      unfold a7
      with_reducible apply State.setMag_keeps (w := w.of (by decide))
      with_reducible assumption
    clear_value a7
    with_reducible apply State.submit_keeps (w := w.of (by decide))
    with_reducible apply State.retireRecs_keeps (w := w.of (by decide))
    with_reducible assumption

theorem State.magStart_keeps {m : Nat} {s0 : State} (s : State) (h : s0.Keeps m s) (w : Within 0x100008 m := by exact Within.of (by assumption) (by decide)) :
    s0.Keeps m (State.magStart s) := by
  unfold State.magStart
  extract_lets a0 a1 a2 a3 a4 a5
  clear_value a0
  clear_value a1
  clear_value a2
  clear_value a3
  clear_value a4
  clear_value a5
  split
  · with_reducible apply State.magStatus_keeps (w := w.of (by decide))
    with_reducible assumption
  · split
    · with_reducible apply State.magStatus_keeps (w := w.of (by decide))
      with_reducible assumption
    · split
      · with_reducible apply State.magStatus_keeps (w := w.of (by decide))
        with_reducible assumption
      · extract_lets a6 a7 a8 a9 a10 a11
        clear_value a6
        have k12 : s0.Keeps m a7 := by
          unfold a7
          with_reducible apply State.setMag_keeps (w := w.of (by decide))
          with_reducible assumption
        clear_value a7
        have k13 : s0.Keeps m a8 := by
          unfold a8
          with_reducible apply State.each_keeps
          · intro x14 x15 x16
            with_reducible apply State.wr_keeps (w := w.of (by decide))
            with_reducible apply State.setMagPort_keeps (w := w.of (by decide))
            with_reducible assumption
          · with_reducible assumption
        clear_value a8
        have k17 : s0.Keeps m a9 := by
          unfold a9
          with_reducible apply State.each_keeps
          · intro x18 x19 x20
            with_reducible apply State.noteFree_keeps (w := w.of (by decide))
            with_reducible apply State.wr_keeps (w := w.of (by decide))
            with_reducible assumption
          · with_reducible assumption
        clear_value a9
        have k21 : s0.Keeps m a10 := by
          unfold a10
          with_reducible apply State.wr_keeps (w := w.of (by decide))
          with_reducible apply State.wr_keeps (w := w.of (by decide))
          with_reducible apply State.wr_keeps (w := w.of (by decide))
          with_reducible assumption
        clear_value a10
        have k22 : s0.Keeps m a11 := by
          unfold a11
          with_reducible apply State.noteRing_keeps (w := w.of (by decide))
          with_reducible apply State.wr_keeps (w := w.of (by decide))
          with_reducible assumption
        clear_value a11
        with_reducible apply State.wr_keeps (w := w.of (by decide))
        with_reducible apply State.wr_keeps (w := w.of (by decide))
        with_reducible assumption

theorem State.flushGaps_keeps {m : Nat} {s0 : State} (s : State) (h : s0.Keeps m s) (w : Within 0x100018 m := by exact Within.of (by assumption) (by decide)) :
    s0.Keeps m (State.flushGaps s) := by
  unfold State.flushGaps
  with_reducible apply State.each_keeps
  · intro x0 x1 x2
    extract_lets a3 a4
    have k5 : s0.Keeps m a3.2 := by
      unfold a3
      with_reducible apply State.queueGaps_keeps (w := w.of (by decide))
      with_reducible assumption
    clear_value a3
    clear_value a4
    with_reducible apply State.setMagIn_keeps (w := w.of (by decide))
    with_reducible assumption
  · with_reducible assumption

theorem State.enterClosing_keeps {m : Nat} {s0 : State} (s : State) (h : s0.Keeps m s) (w : Within 0x100018 m := by exact Within.of (by assumption) (by decide)) :
    s0.Keeps m (State.enterClosing s) := by
  unfold State.enterClosing
  extract_lets a0 a1 a2 a3
  have k4 : s0.Keeps m a0 := by
    unfold a0
    with_reducible apply State.flushGaps_keeps (w := w.of (by decide))
    with_reducible assumption
  clear_value a0
  clear_value a1
  have k5 : s0.Keeps m a2 := by
    unfold a2
    with_reducible apply State.queueSmall_keeps (w := w.of (by decide))
    with_reducible assumption
  clear_value a2
  clear_value a3
  with_reducible apply State.wr_keeps (w := w.of (by decide))
  with_reducible apply State.setMag_keeps (w := w.of (by decide))
  with_reducible assumption

theorem State.ringStart_keeps {m : Nat} {s0 : State} (s : State) (h : s0.Keeps m s) (w : Within 0x100008 m := by exact Within.of (by assumption) (by decide)) :
    s0.Keeps m (State.ringStart s) := by
  unfold State.ringStart
  split
  · with_reducible apply State.setUsed_keeps (w := w.of (by decide))
    with_reducible assumption
  · with_reducible apply State.setUsed_keeps (w := w.of (by decide))
    with_reducible apply State.setMag_keeps (w := w.of (by decide))
    with_reducible assumption

theorem State.endTake_keeps {m : Nat} {s0 : State} (s : State) (h : s0.Keeps m s) (w : Within 0x3fffffff m := by exact Within.of (by assumption) (by decide)) :
    s0.Keeps m (State.endTake s) := by
  unfold State.endTake
  extract_lets a0 a1 a2
  have k3 : s0.Keeps m a0 := by
    unfold a0
    with_reducible apply State.each_keeps
    · intro x4 x5 x6
      split
      · with_reducible apply State.wr_keeps (w := w.of (by decide))
        with_reducible assumption
      · with_reducible assumption
    · with_reducible assumption
  clear_value a0
  clear_value a1
  have k7 : s0.Keeps m a2 := by
    unfold a2
    with_reducible apply State.setMag_keeps (w := w.of (by decide))
    with_reducible assumption
  clear_value a2
  with_reducible apply State.warmIfWaiting_keeps (w := w.of (by decide))
  with_reducible apply State.irq_keeps (w := w.of (by decide))
  with_reducible apply State.wr_keeps (w := w.of (by decide))
  with_reducible apply State.ringStart_keeps (w := w.of (by decide))
  with_reducible assumption

theorem State.closing_keeps {m : Nat} {s0 : State} (s : State) (h : s0.Keeps m s) (w : Within 0x3fffffff m := by exact Within.of (by assumption) (by decide)) :
    s0.Keeps m (State.closing s) := by
  unfold State.closing
  split
  · split
    · with_reducible apply State.enterClosing_keeps (w := w.of (by decide))
      with_reducible assumption
    · with_reducible assumption
  · split
    · extract_lets a0
      clear_value a0
      split
      · with_reducible apply State.endTake_keeps (w := w.of (by decide))
        with_reducible assumption
      · with_reducible assumption
    · with_reducible assumption

theorem State.takeAbort_keeps {m : Nat} {s0 : State} (s : State) (h : s0.Keeps m s) (w : Within 0x100018 m := by exact Within.of (by assumption) (by decide)) :
    s0.Keeps m (State.takeAbort s) := by
  unfold State.takeAbort
  split
  · with_reducible assumption
  · extract_lets a0 a1 a2 a3 a4 a5 a6
    clear_value a0
    clear_value a1
    clear_value a2
    have k7 : s0.Keeps m a3 := by
      unfold a3
      with_reducible apply State.setMag_keeps (w := w.of (by decide))
      with_reducible assumption
    clear_value a3
    have k8 : s0.Keeps m a4 := by
      unfold a4
      with_reducible apply State.each_keeps
      · intro x9 x10 x11
        with_reducible apply State.setMagIn_keeps (w := w.of (by decide))
        with_reducible assumption
      · with_reducible assumption
    clear_value a4
    have k12 : s0.Keeps m a5 := by
      unfold a5
      with_reducible apply State.each_keeps
      · intro x13 x14 x15
        with_reducible apply State.gapFrame_keeps (w := w.of (by decide))
        with_reducible assumption
      · with_reducible assumption
    clear_value a5
    have k16 : s0.Keeps m a6 := by
      unfold a6
      with_reducible apply State.wr_keeps (w := w.of (by decide))
      with_reducible assumption
    clear_value a6
    split
    · with_reducible apply State.enterClosing_keeps (w := w.of (by decide))
      with_reducible assumption
    · with_reducible assumption

theorem State.dropRec_keeps {m : Nat} {s0 : State} (s : State) (r : MagRec) (h : s0.Keeps m s) (w : Within 0x100008 m := by exact Within.of (by assumption) (by decide)) :
    s0.Keeps m (State.dropRec s r) := by
  unfold State.dropRec
  split
  · with_reducible assumption
  · extract_lets a0 a1
    have k2 : s0.Keeps m a0 := by
      unfold a0
      with_reducible apply State.discardFrame_keeps (w := w.of (by decide))
      with_reducible assumption
    clear_value a0
    clear_value a1
    with_reducible apply State.setMagIn_keeps (w := w.of (by decide))
    with_reducible assumption

theorem State.forgetPort_keeps {m : Nat} {s0 : State} (s : State) (p : ℕ) (h : s0.Keeps m s) (w : Within 0x100000 m := by exact Within.of (by assumption) (by decide)) :
    s0.Keeps m (State.forgetPort s p) := by
  unfold State.forgetPort
  with_reducible apply State.setMag_keeps (w := w.of (by decide))
  with_reducible assumption

theorem State.reassign_keeps {m : Nat} {s0 : State} (s : State) (p : ℕ) (h : s0.Keeps m s) (w : Within 0x100018 m := by exact Within.of (by assumption) (by decide)) :
    s0.Keeps m (State.reassign s p) := by
  unfold State.reassign
  extract_lets a0 a1 a2
  clear_value a0
  have k3 : s0.Keeps m a1 := by
    unfold a1
    with_reducible apply State.each_keeps
    · intro x4 x5 x6
      extract_lets a7
      have k8 : s0.Keeps m a7.2 := by
        unfold a7
        with_reducible apply State.assignFrame_keeps (w := w.of (by decide))
        with_reducible assumption
      clear_value a7
      split
      · with_reducible assumption
      · with_reducible apply State.dropRec_keeps (w := w.of (by decide))
        with_reducible assumption
    · with_reducible apply State.forgetPort_keeps (w := w.of (by decide))
      with_reducible assumption
  clear_value a1
  have k9 : s0.Keeps m a2 := by
    unfold a2
    split
    · with_reducible apply State.flushGaps_keeps (w := w.of (by decide))
      with_reducible assumption
    · with_reducible assumption
  clear_value a2
  with_reducible apply State.retireRecs_keeps (w := w.of (by decide))
  with_reducible assumption

theorem State.magLost_keeps {m : Nat} {s0 : State} (s : State) (p : ℕ) (h : s0.Keeps m s) (w : Within 0x3fffffff m := by exact Within.of (by assumption) (by decide)) :
    s0.Keeps m (State.magLost s p) := by
  unfold State.magLost
  split
  · with_reducible assumption
  · extract_lets a0 a1 a2 a3 a4
    clear_value a0
    have k5 : s0.Keeps m a1 := by
      unfold a1
      with_reducible apply State.setMagPort_keeps (w := w.of (by decide))
      with_reducible assumption
    clear_value a1
    clear_value a2
    have k6 : s0.Keeps m a3 := by
      unfold a3
      with_reducible apply State.magPortStatus_keeps (w := w.of (by decide))
      with_reducible apply State.setMag_keeps (w := w.of (by decide))
      with_reducible assumption
    clear_value a3
    clear_value a4
    split
    · with_reducible assumption
    · split
      · with_reducible apply State.magStatus_keeps (w := w.of (by decide))
        with_reducible apply State.endTake_keeps (w := w.of (by decide))
        with_reducible assumption
      · split
        · with_reducible apply State.retireRecs_keeps (w := w.of (by decide))
          with_reducible apply State.forgetPort_keeps (w := w.of (by decide))
          with_reducible assumption
        · with_reducible apply State.reassign_keeps (w := w.of (by decide))
          with_reducible apply State.stopTake_keeps (w := w.of (by decide))
          with_reducible assumption

theorem State.hwqSet_keeps {m : Nat} {s0 : State} (s : State) (p : ℕ) (h : s0.Keeps m s) (w : Within 0x100008 m := by exact Within.of (by assumption) (by decide)) :
    s0.Keeps m (State.hwqSet s p) := by
  unfold State.hwqSet
  split
  · with_reducible apply State.magPortStatus_keeps (w := w.of (by decide))
    with_reducible assumption
  · extract_lets a0 a1 a2 a3
    have k4 : s0.Keeps m a0 := by
      unfold a0
      with_reducible apply State.wr_keeps (w := w.of (by decide))
      with_reducible apply State.setMagPort_keeps (w := w.of (by decide))
      with_reducible assumption
    clear_value a0
    have k5 : s0.Keeps m a1 := by
      unfold a1
      with_reducible apply State.wr_keeps (w := w.of (by decide))
      with_reducible assumption
    clear_value a1
    clear_value a2
    have k6 : s0.Keeps m a3 := by
      unfold a3
      split
      · with_reducible apply State.wr_keeps (w := w.of (by decide))
        with_reducible assumption
      · with_reducible assumption
    clear_value a3
    with_reducible apply State.noteFree_keeps (w := w.of (by decide))
    with_reducible assumption

theorem State.hwqClear_keeps {m : Nat} {s0 : State} (s : State) (p : ℕ) (h : s0.Keeps m s) (w : Within 0x8 m := by exact Within.of (by assumption) (by decide)) :
    s0.Keeps m (State.hwqClear s p) := by
  unfold State.hwqClear
  split
  · with_reducible assumption
  · extract_lets a0
    have k1 : s0.Keeps m a0 := by
      unfold a0
      with_reducible apply State.wr_keeps (w := w.of (by decide))
      with_reducible assumption
    clear_value a0
    split
    · with_reducible apply State.wr_keeps (w := w.of (by decide))
      with_reducible assumption
    · with_reducible assumption

theorem State.portOn_keeps {m : Nat} {s0 : State} (s : State) (p : ℕ) (h : s0.Keeps m s) (w : Within 0x8 m := by exact Within.of (by assumption) (by decide)) :
    s0.Keeps m (State.portOn s p) := by
  unfold State.portOn
  extract_lets a0
  have k1 : s0.Keeps m a0 := by
    unfold a0
    with_reducible apply State.wr_keeps (w := w.of (by decide))
    with_reducible assumption
  clear_value a0
  split
  · with_reducible apply State.wr_keeps (w := w.of (by decide))
    with_reducible assumption
  · split
    · with_reducible apply State.wr_keeps (w := w.of (by decide))
      with_reducible assumption
    · with_reducible assumption

theorem State.portOff_keeps {m : Nat} {s0 : State} (s : State) (p : ℕ) (h : s0.Keeps m s) (w : Within 0x100008 m := by exact Within.of (by assumption) (by decide)) :
    s0.Keeps m (State.portOff s p) := by
  unfold State.portOff
  extract_lets a0 a1
  have k2 : s0.Keeps m a0 := by
    unfold a0
    with_reducible apply State.wr_keeps (w := w.of (by decide))
    with_reducible apply State.wr_keeps (w := w.of (by decide))
    with_reducible assumption
  clear_value a0
  have k3 : s0.Keeps m a1 := by
    unfold a1
    split
    · with_reducible apply State.portLost_keeps (w := w.of (by decide))
      with_reducible assumption
    · with_reducible assumption
  clear_value a1
  split
  · with_reducible assumption
  · with_reducible apply State.wr_keeps (w := w.of (by decide))
    with_reducible assumption

theorem State.magCtrl_keeps {m : Nat} {s0 : State} (s : State) (p : ℕ) (val : Word) (h : s0.Keeps m s) (w : Within 0x100008 m := by exact Within.of (by assumption) (by decide)) :
    s0.Keeps m (State.magCtrl s p val) := by
  unfold State.magCtrl
  extract_lets a0 a1 a2
  clear_value a0
  clear_value a1
  have k3 : s0.Keeps m a2 := by
    unfold a2
    split
    · with_reducible apply State.portOn_keeps (w := w.of (by decide))
      with_reducible assumption
    · split
      · with_reducible apply State.portOff_keeps (w := w.of (by decide))
        with_reducible assumption
      · with_reducible assumption
  clear_value a2
  split
  · with_reducible apply State.hwqSet_keeps (w := w.of (by decide))
    with_reducible assumption
  · split
    · with_reducible apply State.hwqClear_keeps (w := w.of (by decide))
      with_reducible assumption
    · with_reducible assumption

theorem State.magLinkDown_keeps {m : Nat} {s0 : State} (s : State) (p : ℕ) (h : s0.Keeps m s) (w : Within 0x100008 m := by exact Within.of (by assumption) (by decide)) :
    s0.Keeps m (State.magLinkDown s p) := by
  unfold State.magLinkDown
  split
  · with_reducible apply State.portLost_keeps (w := w.of (by decide))
    with_reducible apply State.magPortIrq_keeps (w := w.of (by decide))
    with_reducible apply State.wr_keeps (w := w.of (by decide))
    with_reducible apply State.wr_keeps (w := w.of (by decide))
    with_reducible assumption
  · with_reducible assumption

theorem State.magShutdownEnd_keeps {m : Nat} {s0 : State} (s : State) (p : ℕ) (h : s0.Keeps m s) (w : Within 0x100008 m := by exact Within.of (by assumption) (by decide)) :
    s0.Keeps m (State.magShutdownEnd s p) := by
  unfold State.magShutdownEnd
  split
  · with_reducible assumption
  · extract_lets a0 a1
    clear_value a0
    have k2 : s0.Keeps m a1 := by
      unfold a1
      with_reducible apply State.magLinkDown_keeps (w := w.of (by decide))
      with_reducible apply State.setMagPort_keeps (w := w.of (by decide))
      with_reducible assumption
    clear_value a1
    split
    · with_reducible apply State.wr_keeps (w := w.of (by decide))
      with_reducible apply State.wr_keeps (w := w.of (by decide))
      with_reducible assumption
    · with_reducible apply State.wr_keeps (w := w.of (by decide))
      with_reducible assumption

theorem State.magLink_keeps {m : Nat} {s0 : State} (s : State) (p : ℕ) (up : Bool) (speed : ℕ) (width : ℕ) (h : s0.Keeps m s) (w : Within 0x100008 m := by exact Within.of (by assumption) (by decide)) :
    s0.Keeps m (State.magLink s p up speed width) := by
  unfold State.magLink
  extract_lets a0 a1
  clear_value a0
  have k2 : s0.Keeps m a1 := by
    unfold a1
    with_reducible apply State.wr_keeps (w := w.of (by decide))
    with_reducible apply State.wr_keeps (w := w.of (by decide))
    with_reducible assumption
  clear_value a1
  split
  · split
    · with_reducible apply State.magPortIrq_keeps (w := w.of (by decide))
      with_reducible apply State.wr_keeps (w := w.of (by decide))
      with_reducible assumption
    · with_reducible assumption
  · split
    · with_reducible apply State.wr_keeps (w := w.of (by decide))
      with_reducible apply State.magLinkDown_keeps (w := w.of (by decide))
      with_reducible assumption
    · with_reducible apply State.magLinkDown_keeps (w := w.of (by decide))
      with_reducible assumption

theorem State.inbound_keeps {m : Nat} {s0 : State} (s : State) (p : ℕ) (write : Bool) (a : ℕ) (len : ℕ) (b : List Byte) (h : s0.Keeps m s) (w : Within 0x1c m := by exact Within.of (by assumption) (by decide)) :
    s0.Keeps m (State.inbound s p write a len b) := by
  unfold State.inbound
  split
  · with_reducible assumption
  · split
    · with_reducible apply State.magPortIrq_keeps (w := w.of (by decide))
      with_reducible assumption
    · split
      · split
        · with_reducible apply State.setBytes_keeps (w := w.of (by decide))
          with_reducible assumption
        · with_reducible apply State.magPortStatus_keeps (w := w.of (by decide))
          with_reducible apply State.inc_keeps (w := w.of (by decide))
          with_reducible assumption
      · split
        · with_reducible apply State.setReadData_keeps (w := w.of (by decide))
          with_reducible assumption
        · with_reducible apply State.magPortStatus_keeps (w := w.of (by decide))
          with_reducible apply State.inc_keeps (w := w.of (by decide))
          with_reducible assumption

theorem State.extCount_keeps {m : Nat} {s0 : State} (s : State) (p : ℕ) (val : Word) (h : s0.Keeps m s) (w : Within 0x8 m := by exact Within.of (by assumption) (by decide)) :
    s0.Keeps m (State.extCount s p val) := by
  unfold State.extCount
  extract_lets a0
  clear_value a0
  split
  · with_reducible apply State.noteFree_keeps (w := w.of (by decide))
    with_reducible apply State.wr_keeps (w := w.of (by decide))
    with_reducible assumption
  · with_reducible assumption

theorem State.magCfga_keeps {m : Nat} {s0 : State} (s : State) (p : ℕ) (val : Word) (answer : Option Word) (h : s0.Keeps m s) (w : Within 0x8 m := by exact Within.of (by assumption) (by decide)) :
    s0.Keeps m (State.magCfga s p val answer) := by
  unfold State.magCfga
  split
  · with_reducible assumption
  · with_reducible apply State.wr_keeps (w := w.of (by decide))
    with_reducible assumption

theorem State.takeCmd_keeps {m : Nat} {s0 : State} (s : State) (val : Word) (h : s0.Keeps m s) (w : Within 0x100018 m := by exact Within.of (by assumption) (by decide)) :
    s0.Keeps m (State.takeCmd s val) := by
  unfold State.takeCmd
  extract_lets a0 a1
  have k2 : s0.Keeps m a0 := by
    unfold a0
    split
    · with_reducible apply State.magStart_keeps (w := w.of (by decide))
      with_reducible assumption
    · with_reducible assumption
  clear_value a0
  have k3 : s0.Keeps m a1 := by
    unfold a1
    split
    · with_reducible apply State.stopTake_keeps (w := w.of (by decide))
      with_reducible assumption
    · with_reducible assumption
  clear_value a1
  split
  · with_reducible apply State.takeAbort_keeps (w := w.of (by decide))
    with_reducible assumption
  · with_reducible assumption

theorem State.writerStart_keeps {m : Nat} {s0 : State} (s : State) (n : Node) (h : s0.Keeps m s) (w : Within 0x100008 m := by exact Within.of (by assumption) (by decide)) :
    s0.Keeps m (State.writerStart s n) := by
  unfold State.writerStart
  split
  · with_reducible assumption
  · split
    · with_reducible assumption
    · extract_lets a0 a1
      clear_value a0
      have k2 : s0.Keeps m a1 := by
        unfold a1
        with_reducible apply State.setMag_keeps (w := w.of (by decide))
        with_reducible assumption
      clear_value a1
      with_reducible apply State.wr_keeps (w := w.of (by decide))
      with_reducible apply State.wr_keeps (w := w.of (by decide))
      with_reducible assumption

theorem State.writerStop_keeps {m : Nat} {s0 : State} (s : State) (h : s0.Keeps m s) (w : Within 0x100008 m := by exact Within.of (by assumption) (by decide)) :
    s0.Keeps m (State.writerStop s) := by
  unfold State.writerStop
  with_reducible apply State.each_keeps
  · intro x0 x1 x2
    extract_lets a3 a4
    have k5 : s0.Keeps m a3 := by
      unfold a3
      with_reducible apply State.frameDone_keeps (w := w.of (by decide))
      with_reducible assumption
    clear_value a3
    clear_value a4
    with_reducible apply State.setMagIn_keeps (w := w.of (by decide))
    with_reducible assumption
  · with_reducible apply State.stopTake_keeps (w := w.of (by decide))
    with_reducible assumption

theorem execMagPortEnable_keeps {m : Nat} {s0 : State} (src : Agent) (port : Fin 4) (val : Word) (s : State) (h : s0.Keeps m s) {t : State} (e : execMagPortEnable src port val s = .next t) (w : Within 0x108008 m := by exact Within.of (by assumption) (by decide)) :
    s0.Keeps m t := by
  unfold execMagPortEnable at e
  injection e with e
  subst e
  with_reducible apply State.writeReg_keeps (w := w.of (by decide))
  · with_reducible assumption
  · intro x0 x1
    with_reducible apply State.magCtrl_keeps (w := w.of (by decide))
    with_reducible assumption

theorem execMagShutdownEnd_keeps {m : Nat} {s0 : State} (port : Fin 4) (s : State) (h : s0.Keeps m s) {t : State} (e : execMagShutdownEnd port s = .next t) (w : Within 0x100008 m := by exact Within.of (by assumption) (by decide)) :
    s0.Keeps m t := by
  unfold execMagShutdownEnd at e
  injection e with e
  subst e
  with_reducible apply State.magShutdownEnd_keeps (w := w.of (by decide))
  with_reducible assumption

theorem execHwqEn_keeps {m : Nat} {s0 : State} (src : Agent) (port : Fin 4) (val : Word) (s : State) (h : s0.Keeps m s) {t : State} (e : execHwqEn src port val s = .next t) (w : Within 0x108008 m := by exact Within.of (by assumption) (by decide)) :
    s0.Keeps m t := by
  unfold execHwqEn at e
  injection e with e
  subst e
  with_reducible apply State.writeReg_keeps (w := w.of (by decide))
  · with_reducible assumption
  · intro x0 x1
    with_reducible apply State.magCtrl_keeps (w := w.of (by decide))
    with_reducible assumption

theorem execMagLinkChange_keeps {m : Nat} {s0 : State} (port : Fin 4) (up : Bool) (speed : Fin 5) (width : Fin 17) (s : State) (h : s0.Keeps m s) {t : State} (e : execMagLinkChange port up speed width s = .next t) (w : Within 0x100008 m := by exact Within.of (by assumption) (by decide)) :
    s0.Keeps m t := by
  unfold execMagLinkChange at e
  injection e with e
  subst e
  with_reducible apply State.magLink_keeps (w := w.of (by decide))
  with_reducible assumption

theorem execInboundRequest_keeps {m : Nat} {s0 : State} (port : Fin 4) (write : Bool) (addr : BitVec 64) (len : BitVec 12) (bytes : List Byte) (s : State) (h : s0.Keeps m s) {t : State} (e : execInboundRequest port write addr len bytes s = .next t) (w : Within 0x1c m := by exact Within.of (by assumption) (by decide)) :
    s0.Keeps m t := by
  unfold execInboundRequest at e
  injection e with e
  subst e
  with_reducible apply State.inbound_keeps (w := w.of (by decide))
  with_reducible assumption

theorem execMagPCfga_keeps {m : Nat} {s0 : State} (src : Agent) (port : Fin 4) (val : Word) (answer : Option Word) (s : State) (h : s0.Keeps m s) {t : State} (e : execMagPCfga src port val answer s = .next t) (w : Within 0x8008 m := by exact Within.of (by assumption) (by decide)) :
    s0.Keeps m t := by
  unfold execMagPCfga at e
  injection e with e
  subst e
  with_reducible apply State.writeReg_keeps (w := w.of (by decide))
  · with_reducible assumption
  · intro x0 x1
    with_reducible apply State.magCfga_keeps (w := w.of (by decide))
    with_reducible assumption

theorem execExtCountWrite_keeps {m : Nat} {s0 : State} (src : Agent) (port : Fin 4) (val : Word) (s : State) (h : s0.Keeps m s) {t : State} (e : execExtCountWrite src port val s = .next t) (w : Within 0x8008 m := by exact Within.of (by assumption) (by decide)) :
    s0.Keeps m t := by
  unfold execExtCountWrite at e
  injection e with e
  subst e
  with_reducible apply State.writeReg_keeps (w := w.of (by decide))
  · with_reducible assumption
  · intro x0 x1
    with_reducible apply State.extCount_keeps (w := w.of (by decide))
    with_reducible assumption

theorem execFrameAdmit_keeps {m : Nat} {s0 : State} (input : Fin 8) (s : State) (h : s0.Keeps m s) {t : State} (e : execFrameAdmit input s = .next t) (w : Within 0x100118 m := by exact Within.of (by assumption) (by decide)) :
    s0.Keeps m t := by
  unfold execFrameAdmit at e
  injection e with e
  subst e
  with_reducible apply State.frameAdmit_keeps (w := w.of (by decide))
  with_reducible assumption

theorem execRecordingTile_keeps {m : Nat} {s0 : State} (input : Fin 8) (s : State) (h : s0.Keeps m s) {t : State} (e : execRecordingTile input s = .next t) (w : Within 0x100118 m := by exact Within.of (by assumption) (by decide)) :
    s0.Keeps m t := by
  unfold execRecordingTile at e
  injection e with e
  subst e
  with_reducible apply State.recordingTile_keeps (w := w.of (by decide))
  with_reducible assumption

theorem execFrameDrain_keeps {m : Nat} {s0 : State} (s : State) (h : s0.Keeps m s) {t : State} (e : execFrameDrain s = .next t) (w : Within 0x100018 m := by exact Within.of (by assumption) (by decide)) :
    s0.Keeps m t := by
  unfold execFrameDrain at e
  injection e with e
  subst e
  with_reducible apply State.frameDrain_keeps (w := w.of (by decide))
  with_reducible assumption

theorem execNvmeCompletion_keeps {m : Nat} {s0 : State} (port : Fin 4) (s : State) (h : s0.Keeps m s) {t : State} (e : execNvmeCompletion port s = .next t) (w : Within 0x100018 m := by exact Within.of (by assumption) (by decide)) :
    s0.Keeps m t := by
  unfold execNvmeCompletion at e
  injection e with e
  subst e
  with_reducible apply State.nvmeCompletion_keeps (w := w.of (by decide))
  with_reducible assumption

theorem execMagTimeout_keeps {m : Nat} {s0 : State} (port : Fin 4) (cid : BitVec 16) (s : State) (h : s0.Keeps m s) {t : State} (e : execMagTimeout port cid s = .next t) (w : Within 0x100008 m := by exact Within.of (by assumption) (by decide)) :
    s0.Keeps m t := by
  unfold execMagTimeout at e
  injection e with e
  subst e
  with_reducible apply State.magTimeout_keeps (w := w.of (by decide))
  with_reducible assumption

theorem execRecordAcknowledged_keeps {m : Nat} {s0 : State} (port : Fin 4) (s : State) (h : s0.Keeps m s) {t : State} (e : execRecordAcknowledged port s = .next t) (w : Within 0x100018 m := by exact Within.of (by assumption) (by decide)) :
    s0.Keeps m t := by
  unfold execRecordAcknowledged at e
  injection e with e
  subst e
  with_reducible apply State.recordAcked_keeps (w := w.of (by decide))
  with_reducible assumption

theorem execStart_keeps {m : Nat} {s0 : State} (src : Agent) (s : State) (h : s0.Keeps m s) {t : State} (e : execStart src s = .next t) (w : Within 0x108018 m := by exact Within.of (by assumption) (by decide)) :
    s0.Keeps m t := by
  unfold execStart at e
  injection e with e
  subst e
  with_reducible apply State.writeReg_keeps (w := w.of (by decide))
  · with_reducible assumption
  · intro x0 x1
    with_reducible apply State.takeCmd_keeps (w := w.of (by decide))
    with_reducible assumption

theorem execStop_keeps {m : Nat} {s0 : State} (src : Agent) (s : State) (h : s0.Keeps m s) {t : State} (e : execStop src s = .next t) (w : Within 0x108018 m := by exact Within.of (by assumption) (by decide)) :
    s0.Keeps m t := by
  unfold execStop at e
  injection e with e
  subst e
  with_reducible apply State.writeReg_keeps (w := w.of (by decide))
  · with_reducible assumption
  · intro x0 x1
    with_reducible apply State.takeCmd_keeps (w := w.of (by decide))
    with_reducible assumption

theorem execTakeAbort_keeps {m : Nat} {s0 : State} (src : Agent) (s : State) (h : s0.Keeps m s) {t : State} (e : execTakeAbort src s = .next t) (w : Within 0x108018 m := by exact Within.of (by assumption) (by decide)) :
    s0.Keeps m t := by
  unfold execTakeAbort at e
  injection e with e
  subst e
  with_reducible apply State.writeReg_keeps (w := w.of (by decide))
  · with_reducible assumption
  · intro x0 x1
    with_reducible apply State.takeCmd_keeps (w := w.of (by decide))
    with_reducible assumption

theorem execClosing_keeps {m : Nat} {s0 : State} (s : State) (h : s0.Keeps m s) {t : State} (e : execClosing s = .next t) (w : Within 0x3fffffff m := by exact Within.of (by assumption) (by decide)) :
    s0.Keeps m t := by
  unfold execClosing at e
  injection e with e
  subst e
  with_reducible apply State.closing_keeps (w := w.of (by decide))
  with_reducible assumption

theorem execMagLost_keeps {m : Nat} {s0 : State} (port : Fin 4) (s : State) (h : s0.Keeps m s) {t : State} (e : execMagLost port s = .next t) (w : Within 0x3fffffff m := by exact Within.of (by assumption) (by decide)) :
    s0.Keeps m t := by
  unfold execMagLost at e
  injection e with e
  subst e
  with_reducible apply State.magLost_keeps (w := w.of (by decide))
  with_reducible assumption

theorem State.magCfgWrite_keeps {m : Nat} {s0 : State} (s : State) (val : Word) (h : s0.Keeps m s) (w : Within 0x8 m := by exact Within.of (by assumption) (by decide)) :
    s0.Keeps m (State.magCfgWrite s val) := by
  unfold State.magCfgWrite
  extract_lets a0
  clear_value a0
  split
  · with_reducible apply State.magStatus_keeps (w := w.of (by decide))
    with_reducible assumption
  · with_reducible apply State.wr_keeps (w := w.of (by decide))
    with_reducible assumption

theorem State.magRegWrite_keeps {m : Nat} {s0 : State} (s : State) (o : ℕ) (val : Word) (h : s0.Keeps m s) (w : Within 0x10001a m := by exact Within.of (by assumption) (by decide)) :
    s0.Keeps m (State.magRegWrite s o val) := by
  unfold State.magRegWrite
  extract_lets a0 a1 a2 a3
  have k4 : s0.Keeps m a0 := by
    unfold a0
    with_reducible apply State.plainWrite_keeps (w := w.of (by decide))
    with_reducible assumption
  clear_value a0
  clear_value a1
  clear_value a2
  have k5 : s0.Keeps m a3.2 := by
    unfold a3
    with_reducible apply State.takeFree_keeps (w := w.of (by decide))
    with_reducible assumption
  clear_value a3
  split
  · with_reducible apply State.magCfgWrite_keeps (w := w.of (by decide))
    with_reducible assumption
  · split
    · split
      · with_reducible assumption
      · with_reducible assumption
    · split
      · with_reducible apply State.takeCmd_keeps (w := w.of (by decide))
        with_reducible assumption
      · split
        · split
          · with_reducible apply State.magCtrl_keeps (w := w.of (by decide))
            with_reducible assumption
          · split
            · split
              · with_reducible assumption
              · with_reducible assumption
            · split
              · with_reducible apply State.extCount_keeps (w := w.of (by decide))
                with_reducible assumption
              · split
                · with_reducible apply State.magCfga_keeps (w := w.of (by decide))
                  with_reducible assumption
                · with_reducible assumption
        · with_reducible assumption

end Sys2Proof.Machine
end

