-- ==== Sys2Proof/Laws/KeepsEncode.lean ====
section
/-! SUPPORT. The operations of Machine/Encode.lean keep the queue and the invariant (`State.Keeps`). -/

namespace Sys2Proof.Machine

set_option Elab.async false
set_option linter.unusedVariables false

theorem State.setEncCtx_keeps {m : Nat} {s0 : State} (s : State) (c : ℕ) (v : EncCtx) (h : s0.Keeps m s) (w : Within 0x200000 m := by exact Within.of (by assumption) (by decide)) :
    s0.Keeps m (State.setEncCtx s c v) := by
  unfold State.setEncCtx
  with_reducible apply State.setEnc_keeps (w := w.of (by decide))
  with_reducible assumption

theorem State.setEncCore_keeps {m : Nat} {s0 : State} (s : State) (n : ℕ) (v : EncCore) (h : s0.Keeps m s) (w : Within 0x200000 m := by exact Within.of (by assumption) (by decide)) :
    s0.Keeps m (State.setEncCore s n v) := by
  unfold State.setEncCore
  with_reducible apply State.setEnc_keeps (w := w.of (by decide))
  with_reducible assumption

theorem State.encReport_keeps {m : Nat} {s0 : State} (s : State) (c : ℕ) (code : ℕ) (h : s0.Keeps m s) (w : Within 0x8 m := by exact Within.of (by assumption) (by decide)) :
    s0.Keeps m (State.encReport s c code) := by
  unfold State.encReport
  extract_lets a0
  have k1 : s0.Keeps m a0 := by
    unfold a0
    with_reducible apply State.wr_keeps (w := w.of (by decide))
    with_reducible apply State.wr_keeps (w := w.of (by decide))
    with_reducible apply State.wr_keeps (w := w.of (by decide))
    with_reducible assumption
  clear_value a0
  split
  · with_reducible apply State.blockToHost_keeps (w := w.of (by decide))
    with_reducible assumption
  · with_reducible assumption

theorem State.rateReport_keeps {m : Nat} {s0 : State} (s : State) (c : ℕ) (code : ℕ) (h : s0.Keeps m s) (w : Within 0x8 m := by exact Within.of (by assumption) (by decide)) :
    s0.Keeps m (State.rateReport s c code) := by
  unfold State.rateReport
  extract_lets a0
  have k1 : s0.Keeps m a0 := by
    unfold a0
    with_reducible apply State.wr_keeps (w := w.of (by decide))
    with_reducible apply State.wr_keeps (w := w.of (by decide))
    with_reducible assumption
  clear_value a0
  split
  · with_reducible apply State.irq_keeps (w := w.of (by decide))
    with_reducible assumption
  · split
    · with_reducible apply State.irq_keeps (w := w.of (by decide))
      with_reducible assumption
    · with_reducible assumption

theorem State.noteRate_keeps {m : Nat} {s0 : State} (s : State) (c : ℕ) (h : s0.Keeps m s) (w : Within 0x8 m := by exact Within.of (by assumption) (by decide)) :
    s0.Keeps m (State.noteRate s c) := by
  unfold State.noteRate
  extract_lets a0
  clear_value a0
  with_reducible apply State.wr_keeps (w := w.of (by decide))
  with_reducible apply State.wr_keeps (w := w.of (by decide))
  with_reducible assumption

theorem State.encStore_keeps {m : Nat} {s0 : State} (s : State) (c : ℕ) (n : Node) (u : Tile) (h : s0.Keeps m s) (w : Within 0x200018 m := by exact Within.of (by assumption) (by decide)) :
    s0.Keeps m (State.encStore s c n u) := by
  unfold State.encStore
  extract_lets a0 a1 a2 a3 a4 a5 a6
  clear_value a0
  clear_value a1
  clear_value a2
  clear_value a3
  clear_value a4
  clear_value a5
  clear_value a6
  split
  · with_reducible assumption
  · split
    · with_reducible apply State.encReport_keeps (w := w.of (by decide))
      with_reducible apply State.inc_keeps (w := w.of (by decide))
      with_reducible apply State.setEncCtx_keeps (w := w.of (by decide))
      with_reducible assumption
    · extract_lets a7 a8 a9
      clear_value a7
      have k10 : s0.Keeps m a8 := by
        unfold a8
        with_reducible apply State.setBytes_keeps (w := w.of (by decide))
        with_reducible assumption
      clear_value a8
      clear_value a9
      with_reducible apply State.setEncCtx_keeps (w := w.of (by decide))
      with_reducible assumption

theorem State.encDemand_keeps {m : Nat} {s0 : State} (s : State) (c : ℕ) (h : s0.Keeps m s) (w : Within 0x4000008 m := by exact Within.of (by assumption) (by decide)) :
    s0.Keeps m (State.encDemand s c) := by
  unfold State.encDemand
  split
  · with_reducible assumption
  · with_reducible apply State.each_keeps
    · intro x0 x1 x2
      split
      · with_reducible apply State.islandDemand_keeps (w := w.of (by decide))
        with_reducible assumption
      · with_reducible assumption
    · with_reducible assumption

theorem State.coreFault_keeps {m : Nat} {s0 : State} (s : State) (k : ℕ) (c : ℕ) (frame : ℕ) (stop : StopPoint) (x : MoveStop) (h : s0.Keeps m s) (w : Within 0x2f9a m := by exact Within.of (by assumption) (by decide)) :
    s0.Keeps m (State.coreFault s k c frame stop x) := by
  unfold State.coreFault
  extract_lets a0 a1 a2 a3 a4
  clear_value a0
  clear_value a1
  clear_value a2
  clear_value a3
  clear_value a4
  with_reducible apply State.faultAccess_keeps (w := w.of (by decide))
  with_reducible assumption

theorem State.encInput_keeps {m : Nat} {s0 : State} (s : State) (c : ℕ) (h : s0.Keeps m s) (w : Within 0x4202fba m := by exact Within.of (by assumption) (by decide)) :
    s0.Keeps m (State.encInput s c) := by
  unfold State.encInput
  split
  · with_reducible assumption
  · split
    · with_reducible assumption
    · extract_lets a0 a1 a2 a3 a4
      have k5 : s0.Keeps m a0.2 := by
        unfold a0
        with_reducible apply State.nextTile_keeps (w := w.of (by decide))
        with_reducible assumption
      clear_value a0
      have k6 : s0.Keeps m a1 := by
        unfold a1
        with_reducible assumption
      clear_value a1
      clear_value a2
      clear_value a3
      clear_value a4
      split
      · with_reducible assumption
      · extract_lets a7 a8 a9 a10 a11 a12 a13
        clear_value a7
        clear_value a8
        clear_value a9
        have k14 : s0.Keeps m a10 := by
          unfold a10
          with_reducible apply State.maybeSwitch_keeps (w := w.of (by decide))
          with_reducible apply State.rangeRead_keeps (w := w.of (by decide))
          with_reducible assumption
        clear_value a10
        have k15 : s0.Keeps m a11.2 := by
          unfold a11
          with_reducible apply State.checkTile_keeps (w := w.of (by decide))
          with_reducible assumption
        clear_value a11
        have k16 : s0.Keeps m a12 := by
          unfold a12
          with_reducible assumption
        clear_value a12
        have k17 : s0.Keeps m a13 := by
          unfold a13
          split
          · with_reducible assumption
          · split
            · with_reducible apply State.encStore_keeps (w := w.of (by decide))
              with_reducible assumption
            · split
              · with_reducible apply State.setEncCtx_keeps (w := w.of (by decide))
                with_reducible assumption
              · with_reducible assumption
        clear_value a13
        split
        · with_reducible assumption
        · split
          · with_reducible assumption
          · split
            · with_reducible apply State.coreFault_keeps (w := w.of (by decide))
              with_reducible assumption
            · with_reducible apply State.encDemand_keeps (w := w.of (by decide))
              with_reducible apply State.pop_keeps (w := w.of (by decide))
              with_reducible assumption

theorem State.contextSwitch_keeps {m : Nat} {s0 : State} (s : State) (k : ℕ) (h : s0.Keeps m s) (w : Within 0x200008 m := by exact Within.of (by assumption) (by decide)) :
    s0.Keeps m (State.contextSwitch s k) := by
  unfold State.contextSwitch
  extract_lets a0
  clear_value a0
  split
  · with_reducible assumption
  · split
    · with_reducible assumption
    · extract_lets a1 a2 a3
      have k4 : s0.Keeps m a1 := by
        unfold a1
        with_reducible apply State.setEncCore_keeps (w := w.of (by decide))
        with_reducible assumption
      clear_value a1
      have k5 : s0.Keeps m a2 := by
        unfold a2
        with_reducible apply State.wr_keeps (w := w.of (by decide))
        with_reducible apply State.wr_keeps (w := w.of (by decide))
        with_reducible assumption
      clear_value a2
      have k6 : s0.Keeps m a3 := by
        unfold a3
        with_reducible apply State.wr_keeps (w := w.of (by decide))
        with_reducible assumption
      clear_value a3
      split
      · with_reducible assumption
      · with_reducible apply State.inc_keeps (w := w.of (by decide))
        with_reducible assumption

theorem State.encGaps_keeps {m : Nat} {s0 : State} (s : State) (c : ℕ) (n : Node) (gaps : ℕ) (h : s0.Keeps m s) (w : Within 0x200008 m := by exact Within.of (by assumption) (by decide)) :
    s0.Keeps m (State.encGaps s c n gaps) := by
  unfold State.encGaps
  extract_lets a0 a1
  clear_value a0
  have k2 : s0.Keeps m a1 := by
    unfold a1
    with_reducible apply State.setEncCtx_keeps (w := w.of (by decide))
    with_reducible assumption
  clear_value a1
  split
  · with_reducible assumption
  · split
    · with_reducible apply State.rateReport_keeps (w := w.of (by decide))
      with_reducible apply State.inc_keeps (w := w.of (by decide))
      with_reducible assumption
    · with_reducible assumption

theorem State.applyHrd_keeps {m : Nat} {s0 : State} (s : State) (c : ℕ) (n : Node) (h : s0.Keeps m s) (w : Within 0x200008 m := by exact Within.of (by assumption) (by decide)) :
    s0.Keeps m (State.applyHrd s c n) := by
  unfold State.applyHrd
  extract_lets a0 a1 a2
  clear_value a0
  clear_value a1
  clear_value a2
  with_reducible apply State.wr_keeps (w := w.of (by decide))
  with_reducible apply State.setEncCtx_keeps (w := w.of (by decide))
  with_reducible assumption

theorem State.startPic_keeps {m : Nat} {s0 : State} (s : State) (c : ℕ) (n : Node) (f : EncFrame) (pre : List Byte) (h : s0.Keeps m s) (w : Within 0x200008 m := by exact Within.of (by assumption) (by decide)) :
    s0.Keeps m (State.startPic s c n f pre) := by
  unfold State.startPic
  extract_lets a0 a1 a2 a3 a4 a5 a6 a7 a8 a9 a10 a11 a12 a13 a14 a15 a16 a17 a18 a19 a20 a21
  clear_value a0
  clear_value a1
  clear_value a2
  have k22 : s0.Keeps m a3 := by
    unfold a3
    with_reducible apply State.encGaps_keeps (w := w.of (by decide))
    with_reducible assumption
  clear_value a3
  clear_value a4
  clear_value a5
  clear_value a6
  clear_value a7
  have k23 : s0.Keeps m a8 := by
    unfold a8
    split
    · with_reducible apply State.applyHrd_keeps (w := w.of (by decide))
      with_reducible assumption
    · with_reducible assumption
  clear_value a8
  clear_value a9
  have k24 : s0.Keeps m a10 := by
    unfold a10
    split
    · with_reducible apply State.encReport_keeps (w := w.of (by decide))
      with_reducible assumption
    · split
      · with_reducible apply State.encReport_keeps (w := w.of (by decide))
        with_reducible assumption
      · with_reducible assumption
  clear_value a10
  clear_value a11
  clear_value a12
  clear_value a13
  clear_value a14
  clear_value a15
  clear_value a16
  clear_value a17
  clear_value a18
  clear_value a19
  clear_value a20
  clear_value a21
  with_reducible apply State.wrB_keeps (w := w.of (by decide))
  with_reducible apply State.setEncCtx_keeps (w := w.of (by decide))
  with_reducible assumption

theorem State.putChunk_keeps {m : Nat} {s0 : State} (s : State) (qids : List ℕ) (u : Tile) (h : s0.Keeps m s) (w : Within 0x4005118 m := by exact Within.of (by assumption) (by decide)) :
    s0.Keeps m (State.putChunk s qids u) := by
  unfold State.putChunk
  extract_lets a0 a1 a2
  have k3 : s0.Keeps m a0.2 := by
    unfold a0
    with_reducible apply State.takeSeq_keeps (w := w.of (by decide))
    with_reducible assumption
  clear_value a0
  clear_value a1
  clear_value a2
  with_reducible apply State.each_keeps
  · intro x4 x5 x6
    extract_lets a7 a8 a9
    clear_value a7
    have k10 : s0.Keeps m a8.2 := by
      unfold a8
      with_reducible apply State.reserve_keeps (w := w.of (by decide))
      with_reducible assumption
    clear_value a8
    clear_value a9
    with_reducible apply State.complete_keeps (w := w.of (by decide))
    with_reducible apply State.vwrite_keeps (w := w.of (by decide))
    with_reducible assumption
  · with_reducible assumption

theorem State.flushChunks_keeps {m : Nat} {s0 : State} (s : State) (k c : Nat) (n : Node) (fuel : Nat) (h : s0.Keeps m s) (w : Within 0x4207f9a m := by exact Within.of (by assumption) (by decide)) :
    s0.Keeps m ((s.flushChunks k c n fuel)) := by
  induction fuel generalizing s with
  | zero => exact h
  | succ fuel ih =>
    unfold State.flushChunks
    split
    · exact h
    · extract_lets q e0 a1 a2 a3
      split
      · split
        · exact State.coreFault_keeps _ _ _ _ _ _ h
        · have k1 : s0.Keeps m a1 := State.setEncCtx_keeps s _ _ h
          have k2 : s0.Keeps m a2 := State.putChunk_keeps _ _ _ k1
          have k3 : s0.Keeps m a3 := by
            unfold a3
            split
            · exact State.encReport_keeps _ _ _ (State.inc_keeps _ _ _ k2)
            · exact k2
          exact ih _ k3
      · exact h

theorem State.noteLt_keeps {m : Nat} {s0 : State} (s : State) (c : ℕ) (h : s0.Keeps m s) (w : Within 0x8 m := by exact Within.of (by assumption) (by decide)) :
    s0.Keeps m (State.noteLt s c) := by
  unfold State.noteLt
  extract_lets a0 a1 a2
  clear_value a0
  have k3 : s0.Keeps m a1 := by
    unfold a1
    with_reducible apply State.wrB_keeps (w := w.of (by decide))
    with_reducible assumption
  clear_value a1
  have k4 : s0.Keeps m a2 := by
    unfold a2
    with_reducible apply State.wrB_keeps (w := w.of (by decide))
    with_reducible assumption
  clear_value a2
  with_reducible apply State.wr_keeps (w := w.of (by decide))
  with_reducible assumption

theorem State.endPic_keeps {m : Nat} {s0 : State} (s : State) (c : ℕ) (n : Node) (f : EncFrame) (q : EncPic) (h : s0.Keeps m s) (w : Within 0x200008 m := by exact Within.of (by assumption) (by decide)) :
    s0.Keeps m (State.endPic s c n f q) := by
  unfold State.endPic
  extract_lets a0 a1 a2 a3 a4 a5 a6 a7 a8 a9 a10 a11 a12 a13 a14
  clear_value a0
  clear_value a1
  clear_value a2
  clear_value a3
  clear_value a4
  clear_value a5
  clear_value a6
  clear_value a7
  clear_value a8
  clear_value a9
  have k15 : s0.Keeps m a10 := by
    unfold a10
    with_reducible apply State.setEncCtx_keeps (w := w.of (by decide))
    with_reducible assumption
  clear_value a10
  have k16 : s0.Keeps m a11 := by
    unfold a11
    with_reducible apply State.inc_keeps (w := w.of (by decide))
    with_reducible apply State.inc_keeps (w := w.of (by decide))
    with_reducible assumption
  clear_value a11
  have k17 : s0.Keeps m a12 := by
    unfold a12
    with_reducible apply State.noteLt_keeps (w := w.of (by decide))
    with_reducible apply State.wr_keeps (w := w.of (by decide))
    with_reducible assumption
  clear_value a12
  have k18 : s0.Keeps m a13 := by
    unfold a13
    with_reducible apply State.wr_keeps (w := w.of (by decide))
    with_reducible apply State.wr_keeps (w := w.of (by decide))
    with_reducible assumption
  clear_value a13
  have k19 : s0.Keeps m a14 := by
    unfold a14
    with_reducible apply State.wr_keeps (w := w.of (by decide))
    with_reducible apply State.wr_keeps (w := w.of (by decide))
    with_reducible assumption
  clear_value a14
  with_reducible apply State.noteRate_keeps (w := w.of (by decide))
  with_reducible apply State.wrB_keeps (w := w.of (by decide))
  with_reducible assumption

theorem State.settlePic_keeps {m : Nat} {s0 : State} (s : State) (c : Nat) (n : Node) (fuel : Nat) (h : s0.Keeps m s) (w : Within 0x200008 m := by exact Within.of (by assumption) (by decide)) :
    s0.Keeps m ((s.settlePic c n fuel)) := by
  induction fuel generalizing s with
  | zero => exact h
  | succ fuel ih =>
    unfold State.settlePic
    extract_lets v
    split
    · extract_lets p
      split
      · exact ih _ (State.endPic_keeps s c n _ _ h)
      · exact State.setEncCtx_keeps _ _ _ h
    · exact h

theorem State.rowReports_keeps {m : Nat} {s0 : State} (s : State) (c : ℕ) (r : ℕ) (q : EncPic) (x : RowAcc) (missing : ℕ) (h : s0.Keeps m s) (w : Within 0x8 m := by exact Within.of (by assumption) (by decide)) :
    s0.Keeps m (State.rowReports s c r q x missing) := by
  unfold State.rowReports
  extract_lets a0 a1 a2 a3
  have k4 : s0.Keeps m a0 := by
    unfold a0
    with_reducible apply State.inc_keeps (w := w.of (by decide))
    with_reducible apply State.inc_keeps (w := w.of (by decide))
    with_reducible assumption
  clear_value a0
  have k5 : s0.Keeps m a1 := by
    unfold a1
    split
    · with_reducible assumption
    · with_reducible apply State.rateReport_keeps (w := w.of (by decide))
      with_reducible assumption
  clear_value a1
  have k6 : s0.Keeps m a2 := by
    unfold a2
    split
    · with_reducible apply State.rateReport_keeps (w := w.of (by decide))
      split
      · with_reducible apply State.wr_keeps (w := w.of (by decide))
        with_reducible apply State.inc_keeps (w := w.of (by decide))
        with_reducible assumption
      · with_reducible assumption
    · with_reducible assumption
  clear_value a2
  have k7 : s0.Keeps m a3 := by
    unfold a3
    with_reducible apply State.inc_keeps (w := w.of (by decide))
    with_reducible assumption
  clear_value a3
  split
  · with_reducible assumption
  · split
    · with_reducible assumption
    · with_reducible apply State.encReport_keeps (w := w.of (by decide))
      with_reducible assumption

theorem State.afterRow_keeps {m : Nat} {s0 : State} (s : State) (k : ℕ) (c : ℕ) (done : Bool) (h : s0.Keeps m s) (w : Within 0x200008 m := by exact Within.of (by assumption) (by decide)) :
    s0.Keeps m (State.afterRow s k c done) := by
  unfold State.afterRow
  split
  · with_reducible apply State.wr_keeps (w := w.of (by decide))
    with_reducible apply State.setEncCore_keeps (w := w.of (by decide))
    with_reducible assumption
  · split
    · with_reducible assumption
    · with_reducible apply State.inc_keeps (w := w.of (by decide))
      with_reducible apply State.wr_keeps (w := w.of (by decide))
      with_reducible apply State.setEncCore_keeps (w := w.of (by decide))
      with_reducible assumption

theorem State.storeRecon_keeps {m : Nat} {s0 : State} (s : State) (n : Node) (p : PixFmt) (q : EncPic) (i : ℕ) (r : ℕ) (b : List Byte) (h : s0.Keeps m s) (w : Within 0x10 m := by exact Within.of (by assumption) (by decide)) :
    s0.Keeps m (State.storeRecon s n p q i r b) := by
  unfold State.storeRecon
  extract_lets a0 a1
  clear_value a0
  clear_value a1
  with_reducible apply State.setBytes_keeps (w := w.of (by decide))
  with_reducible assumption

theorem State.codeRow_keeps {m : Nat} {s0 : State} (s : State) (k : ℕ) (c : ℕ) (n : Node) (second : Bool) (f : EncFrame) (q : EncPic) (data : CtuRow) (h : s0.Keeps m s) (w : Within 0x4207f9a m := by exact Within.of (by assumption) (by decide)) :
    s0.Keeps m (State.codeRow s k c n second f q data) := by
  unfold State.codeRow
  extract_lets a0 a1 a2 a3 a4 a5 a6 a7 a8 a9 a10 a11 a12 a13 a14 a15 a16 a17
  clear_value a0
  clear_value a1
  clear_value a2
  clear_value a3
  clear_value a4
  clear_value a5
  clear_value a6
  clear_value a7
  clear_value a8
  clear_value a9
  clear_value a10
  clear_value a11
  clear_value a12
  clear_value a13
  have k18 : s0.Keeps m a14 := by
    unfold a14
    with_reducible apply State.rowReports_keeps (w := w.of (by decide))
    with_reducible apply State.storeRecon_keeps (w := w.of (by decide))
    with_reducible assumption
  clear_value a14
  clear_value a15
  clear_value a16
  have k19 : s0.Keeps m a17 := by
    unfold a17
    with_reducible apply State.settlePic_keeps (w := w.of (by decide))
    with_reducible apply State.setEncCtx_keeps (w := w.of (by decide))
    with_reducible assumption
  clear_value a17
  with_reducible apply State.encDemand_keeps (w := w.of (by decide))
  with_reducible apply State.afterRow_keeps (w := w.of (by decide))
  with_reducible apply State.flushChunks_keeps (w := w.of (by decide))
  with_reducible assumption

theorem State.ctuRow_keeps {m : Nat} {s0 : State} (s : State) (k : ℕ) (data : CtuRow) (h : s0.Keeps m s) (w : Within 0x4207f9a m := by exact Within.of (by assumption) (by decide)) :
    s0.Keeps m (State.ctuRow s k data) := by
  unfold State.ctuRow
  split
  · with_reducible assumption
  · split
    · with_reducible assumption
    · extract_lets a0 a1
      have k2 : s0.Keeps m a0 := by
        unfold a0
        with_reducible apply State.flushChunks_keeps (w := w.of (by decide))
        with_reducible assumption
      clear_value a0
      clear_value a1
      split
      · with_reducible assumption
      · split
        · with_reducible assumption
        · extract_lets a3
          have k4 : s0.Keeps m a3 := by
            unfold a3
            split
            · with_reducible apply State.startPic_keeps (w := w.of (by decide))
              with_reducible assumption
            · with_reducible assumption
          clear_value a3
          split
          · with_reducible assumption
          · with_reducible apply State.codeRow_keeps (w := w.of (by decide))
            with_reducible assumption

theorem State.encCmd_keeps {m : Nat} {s0 : State} (s : State) (c : ℕ) (val : Word) (h : s0.Keeps m s) (w : Within 0x200008 m := by exact Within.of (by assumption) (by decide)) :
    s0.Keeps m (State.encCmd s c val) := by
  unfold State.encCmd
  split
  · split
    · with_reducible assumption
    · with_reducible apply State.encReport_keeps (w := w.of (by decide))
      with_reducible assumption
  · extract_lets a0 a1 a2 a3 a4 a5 a6
    clear_value a0
    have k7 : s0.Keeps m a1 := by
      unfold a1
      split
      · with_reducible apply State.wr_keeps (w := w.of (by decide))
        with_reducible apply State.setEncCtx_keeps (w := w.of (by decide))
        with_reducible assumption
      · with_reducible assumption
    clear_value a1
    clear_value a2
    have k8 : s0.Keeps m a3 := by
      unfold a3
      split
      · with_reducible apply State.incWrap_keeps (w := w.of (by decide))
        with_reducible assumption
      · with_reducible apply State.incWrap_keeps (w := w.of (by decide))
        with_reducible assumption
    clear_value a3
    clear_value a4
    have k9 : s0.Keeps m a5 := by
      unfold a5
      split
      · with_reducible apply State.wr_keeps (w := w.of (by decide))
        with_reducible apply State.setEncCtx_keeps (w := w.of (by decide))
        with_reducible assumption
      · with_reducible assumption
    clear_value a5
    clear_value a6
    split
    · with_reducible apply State.setEncCtx_keeps (w := w.of (by decide))
      with_reducible assumption
    · with_reducible assumption

theorem State.encBegin_keeps {m : Nat} {s0 : State} (s : State) (c : ℕ) (n : Node) (h : s0.Keeps m s) (w : Within 0x200008 m := by exact Within.of (by assumption) (by decide)) :
    s0.Keeps m (State.encBegin s c n) := by
  unfold State.encBegin
  extract_lets a0 a1 a2 a3
  clear_value a0
  clear_value a1
  clear_value a2
  have k4 : s0.Keeps m a3 := by
    unfold a3
    with_reducible apply State.setEncCtx_keeps (w := w.of (by decide))
    with_reducible assumption
  clear_value a3
  with_reducible apply State.noteRate_keeps (w := w.of (by decide))
  with_reducible apply State.noteLt_keeps (w := w.of (by decide))
  with_reducible apply State.wr_keeps (w := w.of (by decide))
  with_reducible assumption

theorem State.encEnable_keeps {m : Nat} {s0 : State} (s : State) (c : ℕ) (h : s0.Keeps m s) (w : Within 0x200008 m := by exact Within.of (by assumption) (by decide)) :
    s0.Keeps m (State.encEnable s c) := by
  unfold State.encEnable
  split
  · with_reducible apply State.wr_keeps (w := w.of (by decide))
    with_reducible assumption
  · split
    · with_reducible apply State.encBegin_keeps (w := w.of (by decide))
      with_reducible assumption
    · with_reducible assumption

theorem State.encDisable_keeps {m : Nat} {s0 : State} (s : State) (c : ℕ) (h : s0.Keeps m s) (w : Within 0x200008 m := by exact Within.of (by assumption) (by decide)) :
    s0.Keeps m (State.encDisable s c) := by
  unfold State.encDisable
  extract_lets a0 a1 a2
  have k3 : s0.Keeps m a0 := by
    unfold a0
    with_reducible apply State.wr_keeps (w := w.of (by decide))
    with_reducible assumption
  clear_value a0
  clear_value a1
  have k4 : s0.Keeps m a2 := by
    unfold a2
    with_reducible apply State.setEncCtx_keeps (w := w.of (by decide))
    with_reducible assumption
  clear_value a2
  split
  · with_reducible assumption
  · with_reducible apply State.wr_keeps (w := w.of (by decide))
    with_reducible apply State.wr_keeps (w := w.of (by decide))
    with_reducible assumption

theorem State.encCtrl_keeps {m : Nat} {s0 : State} (s : State) (c : ℕ) (val : Word) (h : s0.Keeps m s) (w : Within 0x200008 m := by exact Within.of (by assumption) (by decide)) :
    s0.Keeps m (State.encCtrl s c val) := by
  unfold State.encCtrl
  extract_lets a0 a1 a2
  clear_value a0
  clear_value a1
  have k3 : s0.Keeps m a2 := by
    unfold a2
    with_reducible apply State.plainWrite_keeps (w := w.of (by decide))
    with_reducible assumption
  clear_value a2
  split
  · with_reducible apply State.encEnable_keeps (w := w.of (by decide))
    with_reducible assumption
  · split
    · with_reducible apply State.encDisable_keeps (w := w.of (by decide))
      with_reducible assumption
    · with_reducible assumption

theorem State.encShutdownEnd_keeps {m : Nat} {s0 : State} (s : State) (c : ℕ) (h : s0.Keeps m s) (w : Within 0x200008 m := by exact Within.of (by assumption) (by decide)) :
    s0.Keeps m (State.encShutdownEnd s c) := by
  unfold State.encShutdownEnd
  split
  · with_reducible assumption
  · extract_lets a0 a1 a2
    clear_value a0
    have k3 : s0.Keeps m a1 := by
      unfold a1
      with_reducible apply State.setEncCtx_keeps (w := w.of (by decide))
      with_reducible assumption
    clear_value a1
    have k4 : s0.Keeps m a2 := by
      unfold a2
      with_reducible apply State.noteLt_keeps (w := w.of (by decide))
      with_reducible apply State.wr_keeps (w := w.of (by decide))
      with_reducible assumption
    clear_value a2
    split
    · with_reducible apply State.encEnable_keeps (w := w.of (by decide))
      with_reducible apply State.wr_keeps (w := w.of (by decide))
      with_reducible assumption
    · with_reducible assumption

theorem State.rateWrite_keeps {m : Nat} {s0 : State} (s : State) (c : ℕ) (which : ℕ) (val : Word) (h : s0.Keeps m s) (w : Within 0x8 m := by exact Within.of (by assumption) (by decide)) :
    s0.Keeps m (State.rateWrite s c which val) := by
  unfold State.rateWrite
  split
  · with_reducible apply State.wr_keeps (w := w.of (by decide))
    with_reducible assumption
  · split
    · with_reducible apply State.rateReport_keeps (w := w.of (by decide))
      with_reducible assumption
    · extract_lets a0
      have k1 : s0.Keeps m a0 := by
        unfold a0
        with_reducible apply State.wr_keeps (w := w.of (by decide))
        with_reducible assumption
      clear_value a0
      split
      · with_reducible apply State.wr_keeps (w := w.of (by decide))
        with_reducible assumption
      · with_reducible assumption

theorem State.encStart_keeps {m : Nat} {s0 : State} (s : State) (n : Node) (h : s0.Keeps m s) (w : Within 0x200108 m := by exact Within.of (by assumption) (by decide)) :
    s0.Keeps m (State.encStart s n) := by
  unfold State.encStart
  extract_lets a0 a1 a2 a3 a4 a5 a6 a7 a8
  clear_value a0
  have k9 : s0.Keeps m a1 := by
    unfold a1
    with_reducible apply State.each_keeps
    · intro x10 x11 x12
      with_reducible apply State.wr_keeps (w := w.of (by decide))
      with_reducible assumption
    · with_reducible assumption
  clear_value a1
  have k13 : s0.Keeps m a2 := by
    unfold a2
    with_reducible apply State.wr_keeps (w := w.of (by decide))
    with_reducible apply State.wr_keeps (w := w.of (by decide))
    with_reducible assumption
  clear_value a2
  have k14 : s0.Keeps m a3 := by
    unfold a3
    with_reducible apply State.wr_keeps (w := w.of (by decide))
    with_reducible apply State.wr_keeps (w := w.of (by decide))
    with_reducible apply State.wr_keeps (w := w.of (by decide))
    with_reducible assumption
  clear_value a3
  have k15 : s0.Keeps m a4 := by
    unfold a4
    with_reducible apply State.wr_keeps (w := w.of (by decide))
    with_reducible assumption
  clear_value a4
  clear_value a5
  have k16 : s0.Keeps m a6 := by
    unfold a6
    with_reducible apply State.setHq_keeps (w := w.of (by decide))
    with_reducible assumption
  clear_value a6
  have k17 : s0.Keeps m a7 := by
    unfold a7
    with_reducible apply State.wr_keeps (w := w.of (by decide))
    with_reducible apply State.wr_keeps (w := w.of (by decide))
    with_reducible assumption
  clear_value a7
  have k18 : s0.Keeps m a8 := by
    unfold a8
    with_reducible apply State.setEncCtx_keeps (w := w.of (by decide))
    with_reducible assumption
  clear_value a8
  with_reducible apply State.encBegin_keeps (w := w.of (by decide))
  with_reducible assumption

theorem State.encStop_keeps {m : Nat} {s0 : State} (s : State) (n : Node) (h : s0.Keeps m s) (w : Within 0x200008 m := by exact Within.of (by assumption) (by decide)) :
    s0.Keeps m (State.encStop s n) := by
  unfold State.encStop
  extract_lets a0 a1 a2 a3
  clear_value a0
  have k4 : s0.Keeps m a1 := by
    unfold a1
    with_reducible apply State.inc_keeps (w := w.of (by decide))
    with_reducible assumption
  clear_value a1
  have k5 : s0.Keeps m a2 := by
    unfold a2
    with_reducible apply State.each_keeps
    · intro x6 x7 x8
      split
      · with_reducible apply State.wr_keeps (w := w.of (by decide))
        with_reducible apply State.setEncCore_keeps (w := w.of (by decide))
        with_reducible assumption
      · with_reducible assumption
    · with_reducible assumption
  clear_value a2
  have k9 : s0.Keeps m a3 := by
    unfold a3
    with_reducible apply State.wr_keeps (w := w.of (by decide))
    with_reducible apply State.wr_keeps (w := w.of (by decide))
    with_reducible apply State.setEncCtx_keeps (w := w.of (by decide))
    with_reducible assumption
  clear_value a3
  with_reducible apply State.noteLt_keeps (w := w.of (by decide))
  with_reducible apply State.wr_keeps (w := w.of (by decide))
  with_reducible apply State.wr_keeps (w := w.of (by decide))
  with_reducible assumption

theorem State.encAbort_keeps {m : Nat} {s0 : State} (s : State) (k : ℕ) (c : ℕ) (h : s0.Keeps m s) (w : Within 0x200008 m := by exact Within.of (by assumption) (by decide)) :
    s0.Keeps m (State.encAbort s k c) := by
  unfold State.encAbort
  split
  · with_reducible assumption
  · extract_lets a0 a1 a2
    clear_value a0
    clear_value a1
    clear_value a2
    split
    · extract_lets a3 a4 a5
      clear_value a3
      clear_value a4
      clear_value a5
      with_reducible apply State.wr_keeps (w := w.of (by decide))
      with_reducible apply State.setEncCtx_keeps (w := w.of (by decide))
      with_reducible assumption
    · with_reducible apply State.setEncCtx_keeps (w := w.of (by decide))
      with_reducible assumption

theorem execEncInputTile_keeps {m : Nat} {s0 : State} (ctx : Fin 32) (s : State) (h : s0.Keeps m s) {t : State} (e : execEncInputTile ctx s = .next t) (w : Within 0x4202fba m := by exact Within.of (by assumption) (by decide)) :
    s0.Keeps m t := by
  unfold execEncInputTile at e
  injection e with e
  subst e
  with_reducible apply State.encInput_keeps (w := w.of (by decide))
  with_reducible assumption

theorem execContextSwitch_keeps {m : Nat} {s0 : State} (core : Fin 4) (s : State) (h : s0.Keeps m s) {t : State} (e : execContextSwitch core s = .next t) (w : Within 0x200008 m := by exact Within.of (by assumption) (by decide)) :
    s0.Keeps m t := by
  unfold execContextSwitch at e
  injection e with e
  subst e
  with_reducible apply State.contextSwitch_keeps (w := w.of (by decide))
  with_reducible assumption

theorem execCtuRowCode_keeps {m : Nat} {s0 : State} (core : Fin 4) (row : CtuRow) (s : State) (h : s0.Keeps m s) {t : State} (e : execCtuRowCode core row s = .next t) (w : Within 0x4207f9a m := by exact Within.of (by assumption) (by decide)) :
    s0.Keeps m t := by
  unfold execCtuRowCode at e
  injection e with e
  subst e
  with_reducible apply State.ctuRow_keeps (w := w.of (by decide))
  with_reducible assumption

theorem execKey_keeps {m : Nat} {s0 : State} (src : Agent) (ctx : Fin 32) (val : Word) (s : State) (h : s0.Keeps m s) {t : State} (e : execKey src ctx val s = .next t) (w : Within 0x208008 m := by exact Within.of (by assumption) (by decide)) :
    s0.Keeps m t := by
  unfold execKey at e
  injection e with e
  subst e
  with_reducible apply State.writeReg_keeps (w := w.of (by decide))
  · with_reducible assumption
  · intro x0 x1
    with_reducible apply State.encCmd_keeps (w := w.of (by decide))
    with_reducible assumption

theorem execMarkLt_keeps {m : Nat} {s0 : State} (src : Agent) (ctx : Fin 32) (val : Word) (s : State) (h : s0.Keeps m s) {t : State} (e : execMarkLt src ctx val s = .next t) (w : Within 0x208008 m := by exact Within.of (by assumption) (by decide)) :
    s0.Keeps m t := by
  unfold execMarkLt at e
  injection e with e
  subst e
  with_reducible apply State.writeReg_keeps (w := w.of (by decide))
  · with_reducible assumption
  · intro x0 x1
    with_reducible apply State.encCmd_keeps (w := w.of (by decide))
    with_reducible assumption

theorem execUseLt_keeps {m : Nat} {s0 : State} (src : Agent) (ctx : Fin 32) (val : Word) (s : State) (h : s0.Keeps m s) {t : State} (e : execUseLt src ctx val s = .next t) (w : Within 0x208008 m := by exact Within.of (by assumption) (by decide)) :
    s0.Keeps m t := by
  unfold execUseLt at e
  injection e with e
  subst e
  with_reducible apply State.writeReg_keeps (w := w.of (by decide))
  · with_reducible assumption
  · intro x0 x1
    with_reducible apply State.encCmd_keeps (w := w.of (by decide))
    with_reducible assumption

theorem execEncStreamEnable_keeps {m : Nat} {s0 : State} (src : Agent) (ctx : Fin 32) (val : Word) (s : State) (h : s0.Keeps m s) {t : State} (e : execEncStreamEnable src ctx val s = .next t) (w : Within 0x208008 m := by exact Within.of (by assumption) (by decide)) :
    s0.Keeps m t := by
  unfold execEncStreamEnable at e
  injection e with e
  subst e
  with_reducible apply State.writeReg_keeps (w := w.of (by decide))
  · with_reducible assumption
  · intro x0 x1
    with_reducible apply State.encCtrl_keeps (w := w.of (by decide))
    with_reducible assumption

theorem execEncShutdownEnd_keeps {m : Nat} {s0 : State} (ctx : Fin 32) (s : State) (h : s0.Keeps m s) {t : State} (e : execEncShutdownEnd ctx s = .next t) (w : Within 0x200008 m := by exact Within.of (by assumption) (by decide)) :
    s0.Keeps m t := by
  unfold execEncShutdownEnd at e
  injection e with e
  subst e
  with_reducible apply State.encShutdownEnd_keeps (w := w.of (by decide))
  with_reducible assumption

theorem execRateWrite_keeps {m : Nat} {s0 : State} (src : Agent) (ctx : Fin 32) (which : Fin 4) (val : Word) (s : State) (h : s0.Keeps m s) {t : State} (e : execRateWrite src ctx which val s = .next t) (w : Within 0x8008 m := by exact Within.of (by assumption) (by decide)) :
    s0.Keeps m t := by
  unfold execRateWrite at e
  injection e with e
  subst e
  with_reducible apply State.writeReg_keeps (w := w.of (by decide))
  · with_reducible assumption
  · intro x0 x1
    with_reducible apply State.rateWrite_keeps (w := w.of (by decide))
    with_reducible assumption

theorem State.encRegWrite_keeps {m : Nat} {s0 : State} (s : State) (o : ℕ) (val : Word) (h : s0.Keeps m s) (w : Within 0x200008 m := by exact Within.of (by assumption) (by decide)) :
    s0.Keeps m (State.encRegWrite s o val) := by
  unfold State.encRegWrite
  extract_lets a0
  clear_value a0
  split
  · with_reducible apply State.encCtrl_keeps (w := w.of (by decide))
    with_reducible assumption
  · split
    · with_reducible apply State.encCmd_keeps (w := w.of (by decide))
      with_reducible assumption
    · with_reducible apply State.plainWrite_keeps (w := w.of (by decide))
      with_reducible assumption

theorem State.rateRegWrite_keeps {m : Nat} {s0 : State} (s : State) (o : ℕ) (val : Word) (h : s0.Keeps m s) (w : Within 0x8 m := by exact Within.of (by assumption) (by decide)) :
    s0.Keeps m (State.rateRegWrite s o val) := by
  unfold State.rateRegWrite
  extract_lets a0
  clear_value a0
  split
  · with_reducible apply State.rateWrite_keeps (w := w.of (by decide))
    with_reducible assumption
  · with_reducible apply State.plainWrite_keeps (w := w.of (by decide))
    with_reducible assumption

end Sys2Proof.Machine
end

