-- ==== Sys2Proof/Laws/KeepsDecoder.lean ====
section
/-! SUPPORT. The operations of Machine/Decoder.lean keep the queue and the invariant (`State.Keeps`). -/

namespace Sys2Proof.Machine

set_option Elab.async false
set_option linter.unusedVariables false

theorem State.decReport_keeps {m : Nat} {s0 : State} (s : State) (code : ℕ) (h : s0.Keeps m s) (w : Within 0x8 m := by exact Within.of (by assumption) (by decide)) :
    s0.Keeps m (State.decReport s code) := by
  unfold State.decReport
  with_reducible apply State.irq_keeps (w := w.of (by decide))
  with_reducible apply State.wr_keeps (w := w.of (by decide))
  with_reducible assumption

theorem State.decSps_keeps {m : Nat} {s0 : State} (s : State) (n : Node) (x : SeqInfo) (h : s0.Keeps m s) (w : Within 0x400008 m := by exact Within.of (by assumption) (by decide)) :
    s0.Keeps m (State.decSps s n x) := by
  unfold State.decSps
  extract_lets a0 a1 a2 a3 a4 a5 a6
  clear_value a0
  clear_value a1
  clear_value a2
  have k7 : s0.Keeps m a3 := by
    unfold a3
    with_reducible apply State.wr_keeps (w := w.of (by decide))
    with_reducible apply State.wr_keeps (w := w.of (by decide))
    with_reducible apply State.wr_keeps (w := w.of (by decide))
    with_reducible assumption
  clear_value a3
  have k8 : s0.Keeps m a4 := by
    unfold a4
    with_reducible apply State.wrB_keeps (w := w.of (by decide))
    with_reducible apply State.wr_keeps (w := w.of (by decide))
    with_reducible apply State.wr_keeps (w := w.of (by decide))
    with_reducible assumption
  clear_value a4
  clear_value a5
  have k9 : s0.Keeps m a6 := by
    unfold a6
    with_reducible apply State.setDec_keeps (w := w.of (by decide))
    with_reducible assumption
  clear_value a6
  split
  · with_reducible apply State.decReport_keeps (w := w.of (by decide))
    with_reducible assumption
  · split
    · with_reducible apply State.decReport_keeps (w := w.of (by decide))
      with_reducible assumption
    · with_reducible assumption

theorem State.decErrors_keeps {m : Nat} {s0 : State} (s : State) (missing : ℕ) (bad : ℕ) (h : s0.Keeps m s) (w : Within 0x400008 m := by exact Within.of (by assumption) (by decide)) :
    s0.Keeps m (State.decErrors s missing bad) := by
  unfold State.decErrors
  extract_lets a0 a1 a2
  have k3 : s0.Keeps m a0 := by
    unfold a0
    split
    · with_reducible assumption
    · with_reducible apply State.decReport_keeps (w := w.of (by decide))
      with_reducible apply State.inc_keeps (w := w.of (by decide))
      with_reducible assumption
  clear_value a0
  have k4 : s0.Keeps m a1 := by
    unfold a1
    split
    · with_reducible assumption
    · with_reducible apply State.decReport_keeps (w := w.of (by decide))
      with_reducible apply State.inc_keeps (w := w.of (by decide))
      with_reducible assumption
  clear_value a1
  clear_value a2
  split
  · with_reducible assumption
  · with_reducible apply State.setDec_keeps (w := w.of (by decide))
    with_reducible apply State.wr_keeps (w := w.of (by decide))
    with_reducible assumption

theorem State.decRecover_keeps {m : Nat} {s0 : State} (s : State) (irap : Bool) (poc : ℤ) (h : s0.Keeps m s) (w : Within 0x400008 m := by exact Within.of (by assumption) (by decide)) :
    s0.Keeps m (State.decRecover s irap poc) := by
  unfold State.decRecover
  extract_lets a0 a1 a2 a3 a4
  clear_value a0
  clear_value a1
  clear_value a2
  have k5 : s0.Keeps m a3 := by
    unfold a3
    with_reducible apply State.setDec_keeps (w := w.of (by decide))
    with_reducible assumption
  clear_value a3
  clear_value a4
  split
  · with_reducible apply State.setDec_keeps (w := w.of (by decide))
    with_reducible apply State.wr_keeps (w := w.of (by decide))
    with_reducible assumption
  · with_reducible assumption

theorem State.storeDec_keeps {m : Nat} {s0 : State} (s : State) (n : Node) (slot : ℕ) (b : List Byte) (h : s0.Keeps m s) (w : Within 0x10 m := by exact Within.of (by assumption) (by decide)) :
    s0.Keeps m (State.storeDec s n slot b) := by
  unfold State.storeDec
  extract_lets a0 a1 a2
  clear_value a0
  clear_value a1
  clear_value a2
  with_reducible apply State.setBytes_keeps (w := w.of (by decide))
  with_reducible assumption

theorem State.decodePic_keeps {m : Nat} {s0 : State} (s : State) (n : Node) (hx : TileHdr) (x : CodedPic) (first : Bool) (h : s0.Keeps m s) (w : Within 0x400018 m := by exact Within.of (by assumption) (by decide)) :
    s0.Keeps m (State.decodePic s n hx x first) := by
  unfold State.decodePic
  extract_lets a0 a1 a2 a3 a4 a5 a6 a7 a8 a9
  clear_value a0
  clear_value a1
  have k10 : s0.Keeps m a2 := by
    unfold a2
    split
    · with_reducible apply State.inc_keeps (w := w.of (by decide))
      with_reducible assumption
    · with_reducible assumption
  clear_value a2
  clear_value a3
  clear_value a4
  have k11 : s0.Keeps m a5 := by
    unfold a5
    with_reducible apply State.decErrors_keeps (w := w.of (by decide))
    with_reducible apply State.decRecover_keeps (w := w.of (by decide))
    with_reducible apply State.setDec_keeps (w := w.of (by decide))
    with_reducible assumption
  clear_value a5
  have k12 : s0.Keeps m a6 := by
    unfold a6
    with_reducible apply State.inc_keeps (w := w.of (by decide))
    with_reducible assumption
  clear_value a6
  clear_value a7
  have k13 : s0.Keeps m a8 := by
    unfold a8
    split
    · with_reducible assumption
    · with_reducible apply State.inc_keeps (w := w.of (by decide))
      with_reducible assumption
  clear_value a8
  clear_value a9
  with_reducible apply State.setDec_keeps (w := w.of (by decide))
  with_reducible apply State.storeDec_keeps (w := w.of (by decide))
  with_reducible assumption

theorem State.decPicture_keeps {m : Nat} {s0 : State} (s : State) (n : Node) (hx : TileHdr) (x : CodedPic) (h : s0.Keeps m s) (w : Within 0x400018 m := by exact Within.of (by assumption) (by decide)) :
    s0.Keeps m (State.decPicture s n hx x) := by
  unfold State.decPicture
  split
  · with_reducible apply State.inc_keeps (w := w.of (by decide))
    with_reducible assumption
  · with_reducible apply State.decodePic_keeps (w := w.of (by decide))
    with_reducible assumption

theorem State.decEvent_keeps {m : Nat} {s0 : State} (s : State) (n : Node) (hx : TileHdr) (ex : DecEvent) (h : s0.Keeps m s) (w : Within 0x400018 m := by exact Within.of (by assumption) (by decide)) :
    s0.Keeps m (State.decEvent s n hx ex) := by
  unfold State.decEvent
  split
  · with_reducible apply State.decSps_keeps (w := w.of (by decide))
    with_reducible assumption
  · split
    · with_reducible apply State.setDec_keeps (w := w.of (by decide))
      with_reducible assumption
    · with_reducible assumption
  · with_reducible apply State.decPicture_keeps (w := w.of (by decide))
    with_reducible assumption

theorem State.decInput_keeps {m : Nat} {s0 : State} (s : State) (events : List DecEvent) (h : s0.Keeps m s) (w : Within 0x4001b8 m := by exact Within.of (by assumption) (by decide)) :
    s0.Keeps m (State.decInput s events) := by
  unfold State.decInput
  split
  · with_reducible assumption
  · split
    · with_reducible assumption
    · split
      · with_reducible assumption
      · extract_lets a0
        have k1 : s0.Keeps m a0.2 := by
          unfold a0
          with_reducible apply State.nextTile_keeps (w := w.of (by decide))
          with_reducible assumption
        clear_value a0
        split
        · with_reducible assumption
        · extract_lets a2 a3 a4 a5
          clear_value a2
          have k6 : s0.Keeps m a3 := by
            unfold a3
            with_reducible apply State.maybeSwitch_keeps (w := w.of (by decide))
            with_reducible assumption
          clear_value a3
          have k7 : s0.Keeps m a4.2 := by
            unfold a4
            with_reducible apply State.checkTile_keeps (w := w.of (by decide))
            with_reducible assumption
          clear_value a4
          have k8 : s0.Keeps m a5 := by
            unfold a5
            split
            · with_reducible assumption
            · with_reducible apply State.each_keeps
              · intro x9 x10 x11
                with_reducible apply State.decEvent_keeps (w := w.of (by decide))
                with_reducible assumption
              · with_reducible assumption
          clear_value a5
          with_reducible apply State.pop_keeps (w := w.of (by decide))
          with_reducible assumption

theorem State.decOutput_keeps {m : Nat} {s0 : State} (s : State) (h : s0.Keeps m s) (w : Within 0x4405118 m := by exact Within.of (by assumption) (by decide)) :
    s0.Keeps m (State.decOutput s) := by
  unfold State.decOutput
  split
  · extract_lets a0 a1 a2 a3 a4
    clear_value a0
    clear_value a1
    clear_value a2
    have k5 : s0.Keeps m a3 := by
      unfold a3
      with_reducible apply State.each_keeps
      · intro x6 x7 x8
        with_reducible apply State.putTile_keeps (w := w.of (by decide))
        with_reducible assumption
      · with_reducible assumption
    clear_value a3
    clear_value a4
    split
    · with_reducible assumption
    · split
      · with_reducible apply State.inc_keeps (w := w.of (by decide))
        with_reducible apply State.setDec_keeps (w := w.of (by decide))
        with_reducible assumption
      · with_reducible apply State.setDec_keeps (w := w.of (by decide))
        with_reducible assumption
  · with_reducible assumption

theorem State.decStart_keeps {m : Nat} {s0 : State} (s : State) (n : Node) (h : s0.Keeps m s) (w : Within 0x400108 m := by exact Within.of (by assumption) (by decide)) :
    s0.Keeps m (State.decStart s n) := by
  unfold State.decStart
  extract_lets a0 a1 a2
  have k3 : s0.Keeps m a0 := by
    unfold a0
    with_reducible apply State.each_keeps
    · intro x4 x5 x6
      with_reducible apply State.wr_keeps (w := w.of (by decide))
      with_reducible assumption
    · with_reducible assumption
  clear_value a0
  clear_value a1
  have k7 : s0.Keeps m a2 := by
    unfold a2
    with_reducible apply State.setHq_keeps (w := w.of (by decide))
    with_reducible assumption
  clear_value a2
  with_reducible apply State.setDec_keeps (w := w.of (by decide))
  with_reducible assumption

theorem State.decStop_keeps {m : Nat} {s0 : State} (s : State) (h : s0.Keeps m s) (w : Within 0x400008 m := by exact Within.of (by assumption) (by decide)) :
    s0.Keeps m (State.decStop s) := by
  unfold State.decStop
  with_reducible apply State.wr_keeps (w := w.of (by decide))
  with_reducible apply State.wr_keeps (w := w.of (by decide))
  with_reducible apply State.setDec_keeps (w := w.of (by decide))
  with_reducible assumption

theorem execDecInputChunk_keeps {m : Nat} {s0 : State} (events : List DecEvent) (s : State) (h : s0.Keeps m s) {t : State} (e : execDecInputChunk events s = .next t) (w : Within 0x4001b8 m := by exact Within.of (by assumption) (by decide)) :
    s0.Keeps m t := by
  unfold execDecInputChunk at e
  injection e with e
  subst e
  with_reducible apply State.decInput_keeps (w := w.of (by decide))
  with_reducible assumption

theorem execDecPictureOutput_keeps {m : Nat} {s0 : State} (s : State) (h : s0.Keeps m s) {t : State} (e : execDecPictureOutput s = .next t) (w : Within 0x4405118 m := by exact Within.of (by assumption) (by decide)) :
    s0.Keeps m t := by
  unfold execDecPictureOutput at e
  injection e with e
  subst e
  with_reducible apply State.decOutput_keeps (w := w.of (by decide))
  with_reducible assumption

end Sys2Proof.Machine
end

