-- ==== Sys2Proof/Laws/KeepsCompose.lean ====
section
/-! SUPPORT. The operations of Machine/Compose.lean keep the queue and the invariant (`State.Keeps`). -/

namespace Sys2Proof.Machine

set_option Elab.async false
set_option linter.unusedVariables false

theorem State.setLayer_keeps {m : Nat} {s0 : State} (s : State) (l : ℕ) (v : CmpLayer) (h : s0.Keeps m s) (w : Within 0x800000 m := by exact Within.of (by assumption) (by decide)) :
    s0.Keeps m (State.setLayer s l v) := by
  unfold State.setLayer
  with_reducible apply State.setCmp_keeps (w := w.of (by decide))
  with_reducible assumption

theorem State.setHead_keeps {m : Nat} {s0 : State} (s : State) (hx : ℕ) (v : CmpHead) (h : s0.Keeps m s) (w : Within 0x800000 m := by exact Within.of (by assumption) (by decide)) :
    s0.Keeps m (State.setHead s hx v) := by
  unfold State.setHead
  with_reducible apply State.setCmp_keeps (w := w.of (by decide))
  with_reducible assumption

theorem State.cmpReport_keeps {m : Nat} {s0 : State} (s : State) (hx : ℕ) (code : ℕ) (h : s0.Keeps m s) (w : Within 0x8 m := by exact Within.of (by assumption) (by decide)) :
    s0.Keeps m (State.cmpReport s hx code) := by
  unfold State.cmpReport
  with_reducible apply State.wr_keeps (w := w.of (by decide))
  with_reducible apply State.wr_keeps (w := w.of (by decide))
  with_reducible assumption

theorem State.layerReport_keeps {m : Nat} {s0 : State} (s : State) (l : ℕ) (code : ℕ) (h : s0.Keeps m s) (w : Within 0x8 m := by exact Within.of (by assumption) (by decide)) :
    s0.Keeps m (State.layerReport s l code) := by
  unfold State.layerReport
  with_reducible apply State.cmpReport_keeps (w := w.of (by decide))
  with_reducible apply State.wr_keeps (w := w.of (by decide))
  with_reducible assumption

theorem State.layerComplete_keeps {m : Nat} {s0 : State} (s : State) (l : ℕ) (h : s0.Keeps m s) (w : Within 0x800008 m := by exact Within.of (by assumption) (by decide)) :
    s0.Keeps m (State.layerComplete s l) := by
  unfold State.layerComplete
  extract_lets a0 a1
  clear_value a0
  clear_value a1
  split
  · with_reducible assumption
  · extract_lets a2 a3 a4 a5
    clear_value a2
    clear_value a3
    have k6 : s0.Keeps m a4 := by
      unfold a4
      split
      · with_reducible assumption
      · with_reducible apply State.layerReport_keeps (w := w.of (by decide))
        with_reducible apply State.inc_keeps (w := w.of (by decide))
        with_reducible assumption
    clear_value a4
    have k7 : s0.Keeps m a5 := by
      unfold a5
      split
      · with_reducible apply State.inc_keeps (w := w.of (by decide))
        with_reducible assumption
      · with_reducible assumption
    clear_value a5
    with_reducible apply State.setLayer_keeps (w := w.of (by decide))
    with_reducible assumption

theorem State.layerStore_keeps {m : Nat} {s0 : State} (s : State) (l : ℕ) (u : Tile) (h : s0.Keeps m s) (w : Within 0x800018 m := by exact Within.of (by assumption) (by decide)) :
    s0.Keeps m (State.layerStore s l u) := by
  unfold State.layerStore
  extract_lets a0 a1 a2 a3 a4 a5 a6 a7 a8
  clear_value a0
  have k9 : s0.Keeps m a1 := by
    unfold a1
    split
    · with_reducible apply State.layerComplete_keeps (w := w.of (by decide))
      with_reducible assumption
    · with_reducible assumption
  clear_value a1
  clear_value a2
  clear_value a3
  clear_value a4
  clear_value a5
  clear_value a6
  clear_value a7
  have k10 : s0.Keeps m a8 := by
    unfold a8
    split
    · with_reducible apply State.setLayer_keeps (w := w.of (by decide))
      with_reducible apply State.setBytes_keeps (w := w.of (by decide))
      with_reducible assumption
    · with_reducible apply State.setLayer_keeps (w := w.of (by decide))
      with_reducible apply State.inc_keeps (w := w.of (by decide))
      with_reducible assumption
  clear_value a8
  split
  · with_reducible apply State.layerComplete_keeps (w := w.of (by decide))
    with_reducible assumption
  · with_reducible assumption

theorem State.layerTile_keeps {m : Nat} {s0 : State} (s : State) (l : ℕ) (h : s0.Keeps m s) (w : Within 0x8001b8 m := by exact Within.of (by assumption) (by decide)) :
    s0.Keeps m (State.layerTile s l) := by
  unfold State.layerTile
  split
  · with_reducible assumption
  · split
    · with_reducible assumption
    · split
      · with_reducible assumption
      · extract_lets a0
        have k1 : s0.Keeps m a0.2 := by
          unfold a0
          with_reducible apply State.nextTile_keeps (w := w.of (by decide))
          with_reducible assumption
        clear_value a0
        split
        · with_reducible assumption
        · extract_lets a2 a3 a4 a5
          clear_value a2
          have k6 : s0.Keeps m a3 := by
            unfold a3
            with_reducible apply State.maybeSwitch_keeps (w := w.of (by decide))
            with_reducible assumption
          clear_value a3
          have k7 : s0.Keeps m a4.2 := by
            unfold a4
            with_reducible apply State.checkTile_keeps (w := w.of (by decide))
            with_reducible assumption
          clear_value a4
          have k8 : s0.Keeps m a5 := by
            unfold a5
            split
            · with_reducible assumption
            · with_reducible apply State.layerStore_keeps (w := w.of (by decide))
              with_reducible assumption
          clear_value a5
          with_reducible apply State.pop_keeps (w := w.of (by decide))
          with_reducible assumption

theorem State.emitFrame_keeps {m : Nat} {s0 : State} (s : State) (hx : ℕ) (h : s0.Keeps m s) (w : Within 0x4805118 m := by exact Within.of (by assumption) (by decide)) :
    s0.Keeps m (State.emitFrame s hx) := by
  unfold State.emitFrame
  split
  · with_reducible assumption
  · split
    · with_reducible assumption
    · extract_lets a0 a1 a2
      clear_value a0
      clear_value a1
      clear_value a2
      split
      · split
        · with_reducible assumption
        · with_reducible apply State.cmpReport_keeps (w := w.of (by decide))
          with_reducible apply State.setHead_keeps (w := w.of (by decide))
          with_reducible assumption
      · with_reducible apply State.each_keeps
        · intro x3 x4 x5
          with_reducible apply State.putSource_keeps (w := w.of (by decide))
          with_reducible assumption
        · with_reducible assumption

theorem State.noteScalers_keeps {m : Nat} {s0 : State} (s : State) (h : s0.Keeps m s) (w : Within 0x8 m := by exact Within.of (by assumption) (by decide)) :
    s0.Keeps m (State.noteScalers s) := by
  unfold State.noteScalers
  with_reducible apply State.each_keeps
  · intro x0 x1 x2
    extract_lets a3 a4 a5
    clear_value a3
    clear_value a4
    clear_value a5
    with_reducible apply State.wr_keeps (w := w.of (by decide))
    with_reducible apply State.wrB_keeps (w := w.of (by decide))
    with_reducible apply State.wrB_keeps (w := w.of (by decide))
    with_reducible assumption
  · with_reducible assumption

theorem State.notePending_keeps {m : Nat} {s0 : State} (s : State) (hx : ℕ) (h : s0.Keeps m s) (w : Within 0x8 m := by exact Within.of (by assumption) (by decide)) :
    s0.Keeps m (State.notePending s hx) := by
  unfold State.notePending
  extract_lets a0
  have k1 : s0.Keeps m a0 := by
    unfold a0
    with_reducible apply State.each_keeps
    · intro x2 x3 x4
      with_reducible apply State.wrB_keeps (w := w.of (by decide))
      with_reducible assumption
    · with_reducible assumption
  clear_value a0
  with_reducible apply State.noteScalers_keeps (w := w.of (by decide))
  with_reducible apply State.wr_keeps (w := w.of (by decide))
  with_reducible assumption

theorem State.checkLayers_keeps {m : Nat} {s0 : State} (s : State) (l : List Nat) (h : s0.Keeps m s) (w : Within 0x800000 m := by exact Within.of (by assumption) (by decide)) :
    s0.Keeps m ((s.checkLayers l).2.2) := by
  induction l generalizing s with
  | nil => exact h
  | cons b tl ih =>
    unfold State.checkLayers
    extract_lets st
    split
    · exact h
    · exact ih _ (State.setLayer_keeps s _ _ h)

theorem State.checkLayers_keeps_eq {m : Nat} {s0 s : State} {l : List Nat} {a : _} {b2 : _} {t : State} (h : s0.Keeps m s) (e : s.checkLayers l = (a, b2, t)) (w : Within 0x800000 m := by exact Within.of (by assumption) (by decide)) :
    s0.Keeps m t := by
  exact State.keeps_trd_eq (State.checkLayers_keeps s l h) e

theorem State.commitGo_keeps {m : Nat} {s0 : State} (s : State) (hd layers : Nat) (h : s0.Keeps m s) (w : Within 0x800008 m := by exact Within.of (by assumption) (by decide)) :
    s0.Keeps m (s.commitGo hd layers) := by
  unfold State.commitGo
  extract_lets ls r
  have kr : s0.Keeps m r.2.2 := State.checkLayers_keeps s ls h
  clear_value r
  split
  · exact h
  · split
    · exact State.cmpReport_keeps _ _ _ h
    · split
      · exact State.layerReport_keeps _ _ _ h
      · exact State.notePending_keeps _ _ (State.setHead_keeps _ _ _ kr)

theorem State.commitCancel_keeps {m : Nat} {s0 : State} (s : State) (hx : ℕ) (h : s0.Keeps m s) (w : Within 0x800008 m := by exact Within.of (by assumption) (by decide)) :
    s0.Keeps m (State.commitCancel s hx) := by
  unfold State.commitCancel
  extract_lets a0
  have k1 : s0.Keeps m a0 := by
    unfold a0
    with_reducible apply State.each_keeps
    · intro x2 x3 x4
      with_reducible apply State.wr_keeps (w := w.of (by decide))
      with_reducible apply State.setLayer_keeps (w := w.of (by decide))
      with_reducible assumption
    · with_reducible assumption
  clear_value a0
  with_reducible apply State.notePending_keeps (w := w.of (by decide))
  with_reducible assumption

theorem State.commitWrite_keeps {m : Nat} {s0 : State} (s : State) (hx : ℕ) (val : Word) (h : s0.Keeps m s) (w : Within 0x800008 m := by exact Within.of (by assumption) (by decide)) :
    s0.Keeps m (State.commitWrite s hx val) := by
  unfold State.commitWrite
  extract_lets a0
  have k1 : s0.Keeps m a0 := by
    unfold a0
    split
    · with_reducible apply State.commitGo_keeps (w := w.of (by decide))
      with_reducible assumption
    · with_reducible assumption
  clear_value a0
  split
  · with_reducible apply State.commitCancel_keeps (w := w.of (by decide))
    with_reducible assumption
  · with_reducible assumption

theorem State.flip_keeps {m : Nat} {s0 : State} (s : State) (l : ℕ) (h : s0.Keeps m s) (w : Within 0x800008 m := by exact Within.of (by assumption) (by decide)) :
    s0.Keeps m (State.flip s l) := by
  unfold State.flip
  extract_lets a0
  clear_value a0
  with_reducible apply State.wr_keeps (w := w.of (by decide))
  with_reducible apply State.setLayer_keeps (w := w.of (by decide))
  with_reducible assumption

theorem State.commitBoundary_keeps {m : Nat} {s0 : State} (s : State) (hx : ℕ) (h : s0.Keeps m s) (w : Within 0x800008 m := by exact Within.of (by assumption) (by decide)) :
    s0.Keeps m (State.commitBoundary s hx) := by
  unfold State.commitBoundary
  extract_lets a0 a1 a2 a3 a4 a5 a6 a7
  clear_value a0
  clear_value a1
  clear_value a2
  clear_value a3
  have k8 : s0.Keeps m a4 := by
    unfold a4
    with_reducible apply State.each_keeps
    · intro x9 x10 x11
      with_reducible apply State.flip_keeps (w := w.of (by decide))
      with_reducible assumption
    · with_reducible assumption
  clear_value a4
  have k12 : s0.Keeps m a5 := by
    unfold a5
    with_reducible apply State.inc_keeps (w := w.of (by decide))
    with_reducible assumption
  clear_value a5
  have k13 : s0.Keeps m a6 := by
    unfold a6
    split
    · with_reducible assumption
    · with_reducible apply State.irq_keeps (w := w.of (by decide))
      with_reducible apply State.cmpReport_keeps (w := w.of (by decide))
      with_reducible apply State.setHead_keeps (w := w.of (by decide))
      with_reducible assumption
  clear_value a6
  have k14 : s0.Keeps m a7 := by
    unfold a7
    split
    · with_reducible apply State.irq_keeps (w := w.of (by decide))
      with_reducible assumption
    · split
      · with_reducible apply State.each_keeps
        · intro x15 x16 x17
          split
          · split
            · with_reducible apply State.wr_keeps (w := w.of (by decide))
              with_reducible assumption
            · with_reducible assumption
          · with_reducible assumption
        · with_reducible assumption
      · with_reducible assumption
  clear_value a7
  split
  · with_reducible assumption
  · with_reducible apply State.notePending_keeps (w := w.of (by decide))
    with_reducible assumption

theorem State.showFrames_keeps {m : Nat} {s0 : State} (s : State) (hx : ℕ) (h : s0.Keeps m s) (w : Within 0x800008 m := by exact Within.of (by assumption) (by decide)) :
    s0.Keeps m (State.showFrames s hx) := by
  unfold State.showFrames
  with_reducible apply State.each_keeps
  · intro x0 x1 x2
    extract_lets a3 a4
    clear_value a3
    clear_value a4
    split
    · extract_lets a5
      have k6 : s0.Keeps m a5 := by
        unfold a5
        with_reducible apply State.setLayer_keeps (w := w.of (by decide))
        with_reducible assumption
      clear_value a5
      with_reducible apply State.wr_keeps (w := w.of (by decide))
      with_reducible apply State.wr_keeps (w := w.of (by decide))
      with_reducible assumption
    · with_reducible apply State.inc_keeps (w := w.of (by decide))
      with_reducible assumption
    · with_reducible assumption
  · with_reducible assumption

theorem State.sdiReport_keeps {m : Nat} {s0 : State} (s : State) (n : ℕ) (code : ℕ) (h : s0.Keeps m s) (w : Within 0x8 m := by exact Within.of (by assumption) (by decide)) :
    s0.Keeps m (State.sdiReport s n code) := by
  unfold State.sdiReport
  with_reducible apply State.wr_keeps (w := w.of (by decide))
  with_reducible assumption

theorem State.setSdiAnc_keeps {m : Nat} {s0 : State} (s : State) (n : ℕ) (v : SdiAnc) (h : s0.Keeps m s) (w : Within 0x800000 m := by exact Within.of (by assumption) (by decide)) :
    s0.Keeps m (State.setSdiAnc s n v) := by
  unfold State.setSdiAnc
  with_reducible apply State.setCmp_keeps (w := w.of (by decide))
  with_reducible assumption

theorem State.sdiInsert_keeps {m : Nat} {s0 : State} (s : State) (n : ℕ) (h : s0.Keeps m s) (w : Within 0x800000 m := by exact Within.of (by assumption) (by decide)) :
    s0.Keeps m (State.sdiInsert s n) := by
  unfold State.sdiInsert
  split
  · with_reducible assumption
  · extract_lets a0 a1
    clear_value a0
    clear_value a1
    with_reducible apply State.setSdiAnc_keeps (w := w.of (by decide))
    with_reducible assumption

theorem State.sdiOff_keeps {m : Nat} {s0 : State} (s : State) (n : ℕ) (h : s0.Keeps m s) (w : Within 0x800008 m := by exact Within.of (by assumption) (by decide)) :
    s0.Keeps m (State.sdiOff s n) := by
  unfold State.sdiOff
  with_reducible apply State.setSdiAnc_keeps (w := w.of (by decide))
  with_reducible apply State.wr_keeps (w := w.of (by decide))
  with_reducible apply State.wr_keeps (w := w.of (by decide))
  with_reducible assumption

theorem State.sdiBegin_keeps {m : Nat} {s0 : State} (s : State) (n : ℕ) (h : s0.Keeps m s) (w : Within 0x4000008 m := by exact Within.of (by assumption) (by decide)) :
    s0.Keeps m (State.sdiBegin s n) := by
  unfold State.sdiBegin
  extract_lets a0
  clear_value a0
  split
  · with_reducible apply State.islandDemand_keeps (w := w.of (by decide))
    with_reducible assumption
  · with_reducible apply State.sdiReport_keeps (w := w.of (by decide))
    with_reducible assumption

theorem State.sdiCfg_keeps {m : Nat} {s0 : State} (s : State) (n : ℕ) (val : Word) (h : s0.Keeps m s) (w : Within 0x4000008 m := by exact Within.of (by assumption) (by decide)) :
    s0.Keeps m (State.sdiCfg s n val) := by
  unfold State.sdiCfg
  extract_lets a0 a1 a2 a3 a4 a5
  clear_value a0
  clear_value a1
  clear_value a2
  clear_value a3
  have k6 : s0.Keeps m a4 := by
    unfold a4
    with_reducible apply State.plainWrite_keeps (w := w.of (by decide))
    with_reducible assumption
  clear_value a4
  have k7 : s0.Keeps m a5 := by
    unfold a5
    with_reducible apply State.wr_keeps (w := w.of (by decide))
    with_reducible assumption
  clear_value a5
  split
  · with_reducible apply State.sdiReport_keeps (w := w.of (by decide))
    with_reducible assumption
  · split
    · with_reducible apply State.sdiReport_keeps (w := w.of (by decide))
      with_reducible assumption
    · split
      · split
        · with_reducible apply State.wr_keeps (w := w.of (by decide))
          with_reducible assumption
        · with_reducible apply State.sdiBegin_keeps (w := w.of (by decide))
          with_reducible assumption
      · split
        · split
          · with_reducible apply State.wr_keeps (w := w.of (by decide))
            with_reducible assumption
          · with_reducible assumption
        · with_reducible assumption

theorem State.sdiBoundary_keeps {m : Nat} {s0 : State} (s : State) (n : ℕ) (h : s0.Keeps m s) (w : Within 0x4800008 m := by exact Within.of (by assumption) (by decide)) :
    s0.Keeps m (State.sdiBoundary s n) := by
  unfold State.sdiBoundary
  extract_lets a0 a1
  have k2 : s0.Keeps m a0 := by
    unfold a0
    split
    · with_reducible apply State.inc_keeps (w := w.of (by decide))
      with_reducible assumption
    · with_reducible assumption
  clear_value a0
  have k3 : s0.Keeps m a1 := by
    unfold a1
    with_reducible apply State.wr_keeps (w := w.of (by decide))
    with_reducible apply State.sdiOff_keeps (w := w.of (by decide))
    with_reducible assumption
  clear_value a1
  split
  · split
    · with_reducible apply State.sdiBegin_keeps (w := w.of (by decide))
      with_reducible apply State.wr_keeps (w := w.of (by decide))
      with_reducible assumption
    · with_reducible assumption
  · split
    · with_reducible apply State.wr_keeps (w := w.of (by decide))
      with_reducible apply State.wr_keeps (w := w.of (by decide))
      with_reducible assumption
    · with_reducible assumption

theorem State.sdiHeadOff_keeps {m : Nat} {s0 : State} (s : State) (hx : ℕ) (h : s0.Keeps m s) (w : Within 0x800008 m := by exact Within.of (by assumption) (by decide)) :
    s0.Keeps m (State.sdiHeadOff s hx) := by
  unfold State.sdiHeadOff
  with_reducible apply State.each_keeps
  · intro x0 x1 x2
    split
    · with_reducible apply State.sdiReport_keeps (w := w.of (by decide))
      with_reducible apply State.sdiOff_keeps (w := w.of (by decide))
      with_reducible assumption
    · with_reducible assumption
  · with_reducible assumption

theorem State.headBegin_keeps {m : Nat} {s0 : State} (s : State) (hx : ℕ) (h : s0.Keeps m s) (w : Within 0x4000008 m := by exact Within.of (by assumption) (by decide)) :
    s0.Keeps m (State.headBegin s hx) := by
  unfold State.headBegin
  with_reducible apply State.each_keeps
  · intro x0 x1 x2
    split
    · with_reducible apply State.islandDemand_keeps (w := w.of (by decide))
      with_reducible assumption
    · with_reducible assumption
  · with_reducible apply State.islandDemand_keeps (w := w.of (by decide))
    with_reducible assumption

theorem State.headCtrl_keeps {m : Nat} {s0 : State} (s : State) (hx : ℕ) (val : Word) (h : s0.Keeps m s) (w : Within 0x4000088 m := by exact Within.of (by assumption) (by decide)) :
    s0.Keeps m (State.headCtrl s hx val) := by
  unfold State.headCtrl
  extract_lets a0 a1 a2 a3 a4 a5
  clear_value a0
  clear_value a1
  clear_value a2
  have k6 : s0.Keeps m a3 := by
    unfold a3
    with_reducible apply State.plainWrite_keeps (w := w.of (by decide))
    with_reducible assumption
  clear_value a3
  have k7 : s0.Keeps m a4 := by
    unfold a4
    split
    · with_reducible apply State.sourceBack_keeps (w := w.of (by decide))
      with_reducible assumption
    · with_reducible assumption
  clear_value a4
  have k8 : s0.Keeps m a5 := by
    unfold a5
    with_reducible apply State.wr_keeps (w := w.of (by decide))
    with_reducible assumption
  clear_value a5
  split
  · with_reducible apply State.cmpReport_keeps (w := w.of (by decide))
    with_reducible assumption
  · split
    · split
      · with_reducible apply State.wr_keeps (w := w.of (by decide))
        with_reducible assumption
      · with_reducible apply State.headBegin_keeps (w := w.of (by decide))
        with_reducible assumption
    · split
      · split
        · with_reducible apply State.wr_keeps (w := w.of (by decide))
          with_reducible assumption
        · with_reducible assumption
      · with_reducible assumption

theorem State.formatWrite_keeps {m : Nat} {s0 : State} (s : State) (hx : ℕ) (val : Word) (h : s0.Keeps m s) (w : Within 0x8 m := by exact Within.of (by assumption) (by decide)) :
    s0.Keeps m (State.formatWrite s hx val) := by
  unfold State.formatWrite
  split
  · with_reducible apply State.cmpReport_keeps (w := w.of (by decide))
    with_reducible assumption
  · extract_lets a0 a1
    clear_value a0
    clear_value a1
    split
    · with_reducible apply State.each_keeps
      · intro x2 x3 x4
        with_reducible apply State.sdiReport_keeps (w := w.of (by decide))
        with_reducible assumption
      · with_reducible assumption
    · with_reducible apply State.plainWrite_keeps (w := w.of (by decide))
      with_reducible assumption

theorem State.headSync_keeps {m : Nat} {s0 : State} (s : State) (hx : ℕ) (what : ℕ) (h : s0.Keeps m s) (w : Within 0x8 m := by exact Within.of (by assumption) (by decide)) :
    s0.Keeps m (State.headSync s hx what) := by
  unfold State.headSync
  extract_lets a0
  clear_value a0
  split
  · with_reducible assumption
  · split
    · split
      · with_reducible assumption
      · with_reducible apply State.irq_keeps (w := w.of (by decide))
        with_reducible apply State.cmpReport_keeps (w := w.of (by decide))
        with_reducible apply State.wr_keeps (w := w.of (by decide))
        with_reducible apply State.wr_keeps (w := w.of (by decide))
        with_reducible assumption
    · split
      · split
        · with_reducible apply State.irq_keeps (w := w.of (by decide))
          with_reducible apply State.wr_keeps (w := w.of (by decide))
          with_reducible apply State.wr_keeps (w := w.of (by decide))
          with_reducible assumption
        · with_reducible assumption
      · with_reducible apply State.wr_keeps (w := w.of (by decide))
        with_reducible assumption

theorem State.headUnderrun_keeps {m : Nat} {s0 : State} (s : State) (hx : ℕ) (line : ℕ) (col : ℕ) (h : s0.Keeps m s) (w : Within 0x800008 m := by exact Within.of (by assumption) (by decide)) :
    s0.Keeps m (State.headUnderrun s hx line col) := by
  unfold State.headUnderrun
  split
  · with_reducible assumption
  · extract_lets a0 a1
    clear_value a0
    have k2 : s0.Keeps m a1 := by
      unfold a1
      with_reducible apply State.setHead_keeps (w := w.of (by decide))
      with_reducible assumption
    clear_value a1
    with_reducible apply State.irq_keeps (w := w.of (by decide))
    with_reducible apply State.cmpReport_keeps (w := w.of (by decide))
    with_reducible apply State.inc_keeps (w := w.of (by decide))
    with_reducible assumption

theorem State.cmpStart_keeps {m : Nat} {s0 : State} (s : State) (n : Node) (h : s0.Keeps m s) (w : Within 0x800108 m := by exact Within.of (by assumption) (by decide)) :
    s0.Keeps m (State.cmpStart s n) := by
  unfold State.cmpStart
  extract_lets a0 a1 a2 a3 a4
  clear_value a0
  have k5 : s0.Keeps m a1 := by
    unfold a1
    with_reducible apply State.each_keeps
    · intro x6 x7 x8
      with_reducible apply State.setLayer_keeps (w := w.of (by decide))
      with_reducible apply State.wr_keeps (w := w.of (by decide))
      with_reducible apply State.wr_keeps (w := w.of (by decide))
      with_reducible apply State.wr_keeps (w := w.of (by decide))
      with_reducible assumption
    · with_reducible assumption
  clear_value a1
  clear_value a2
  have k9 : s0.Keeps m a3 := by
    unfold a3
    with_reducible apply State.setHead_keeps (w := w.of (by decide))
    with_reducible assumption
  clear_value a3
  clear_value a4
  with_reducible apply State.setHq_keeps (w := w.of (by decide))
  with_reducible assumption

theorem State.cmpStop_keeps {m : Nat} {s0 : State} (s : State) (n : Node) (h : s0.Keeps m s) (w : Within 0x800008 m := by exact Within.of (by assumption) (by decide)) :
    s0.Keeps m (s.cmpStop n) := by
  unfold State.cmpStop
  extract_lets a0 a1 a2
  have k1 : s0.Keeps m a1 := by
    unfold a1
    split
    · exact h
    · exact State.cmpReport_keeps _ _ _ h
  clear_value a1
  have k2 : s0.Keeps m a2 := by
    unfold a2
    apply State.each_keeps
    · intro l t ht
      exact State.setLayer_keeps _ _ _ (State.setRegs_filter_keeps _ ht)
    · exact k1
  exact State.notePending_keeps _ _ k2

theorem execLayerTile_keeps {m : Nat} {s0 : State} (slot : Fin 32) (s : State) (h : s0.Keeps m s) {t : State} (e : execLayerTile slot s = .next t) (w : Within 0x8001b8 m := by exact Within.of (by assumption) (by decide)) :
    s0.Keeps m t := by
  unfold execLayerTile at e
  injection e with e
  subst e
  with_reducible apply State.layerTile_keeps (w := w.of (by decide))
  with_reducible assumption

theorem execSyncHoldover_keeps {m : Nat} {s0 : State} (head : Fin 4) (what : Fin 3) (s : State) (h : s0.Keeps m s) {t : State} (e : execSyncHoldover head what s = .next t) (w : Within 0x8 m := by exact Within.of (by assumption) (by decide)) :
    s0.Keeps m t := by
  unfold execSyncHoldover at e
  injection e with e
  subst e
  with_reducible apply State.headSync_keeps (w := w.of (by decide))
  with_reducible assumption

theorem execHeadEnable_keeps {m : Nat} {s0 : State} (src : Agent) (head : Fin 4) (val : Word) (s : State) (h : s0.Keeps m s) {t : State} (e : execHeadEnable src head val s = .next t) (w : Within 0x4008088 m := by exact Within.of (by assumption) (by decide)) :
    s0.Keeps m t := by
  unfold execHeadEnable at e
  injection e with e
  subst e
  with_reducible apply State.writeReg_keeps (w := w.of (by decide))
  · with_reducible assumption
  · intro x0 x1
    with_reducible apply State.headCtrl_keeps (w := w.of (by decide))
    with_reducible assumption

theorem execHeadUnderrun_keeps {m : Nat} {s0 : State} (head : Fin 4) (line : BitVec 16) (col : BitVec 16) (s : State) (h : s0.Keeps m s) {t : State} (e : execHeadUnderrun head line col s = .next t) (w : Within 0x800008 m := by exact Within.of (by assumption) (by decide)) :
    s0.Keeps m t := by
  unfold execHeadUnderrun at e
  injection e with e
  subst e
  with_reducible apply State.headUnderrun_keeps (w := w.of (by decide))
  with_reducible assumption

theorem execGo_keeps {m : Nat} {s0 : State} (src : Agent) (head : Fin 4) (val : Word) (s : State) (h : s0.Keeps m s) {t : State} (e : execGo src head val s = .next t) (w : Within 0x808008 m := by exact Within.of (by assumption) (by decide)) :
    s0.Keeps m t := by
  unfold execGo at e
  injection e with e
  subst e
  with_reducible apply State.writeReg_keeps (w := w.of (by decide))
  · with_reducible assumption
  · intro x0 x1
    with_reducible apply State.commitWrite_keeps (w := w.of (by decide))
    with_reducible assumption

theorem execCommitCancel_keeps {m : Nat} {s0 : State} (src : Agent) (head : Fin 4) (val : Word) (s : State) (h : s0.Keeps m s) {t : State} (e : execCommitCancel src head val s = .next t) (w : Within 0x808008 m := by exact Within.of (by assumption) (by decide)) :
    s0.Keeps m t := by
  unfold execCommitCancel at e
  injection e with e
  subst e
  with_reducible apply State.writeReg_keeps (w := w.of (by decide))
  · with_reducible assumption
  · intro x0 x1
    with_reducible apply State.commitWrite_keeps (w := w.of (by decide))
    with_reducible assumption

theorem execCoefLoadDone_keeps {m : Nat} {s0 : State} (slot : Fin 32) (s : State) (h : s0.Keeps m s) {t : State} (e : execCoefLoadDone slot s = .next t) (w : Within 0x800000 m := by exact Within.of (by assumption) (by decide)) :
    s0.Keeps m t := by
  unfold execCoefLoadDone at e
  injection e with e
  subst e
  split
  · with_reducible apply State.setLayer_keeps (w := w.of (by decide))
    with_reducible assumption
  · with_reducible assumption

theorem execSdiEnable_keeps {m : Nat} {s0 : State} (src : Agent) (ser : Fin 4) (val : Word) (s : State) (h : s0.Keeps m s) {t : State} (e : execSdiEnable src ser val s = .next t) (w : Within 0x4008008 m := by exact Within.of (by assumption) (by decide)) :
    s0.Keeps m t := by
  unfold execSdiEnable at e
  injection e with e
  subst e
  with_reducible apply State.writeReg_keeps (w := w.of (by decide))
  · with_reducible assumption
  · intro x0 x1
    with_reducible apply State.sdiCfg_keeps (w := w.of (by decide))
    with_reducible assumption

theorem State.cmpRegWrite_keeps {m : Nat} {s0 : State} (s : State) (o : ℕ) (val : Word) (h : s0.Keeps m s) (w : Within 0x4800088 m := by exact Within.of (by assumption) (by decide)) :
    s0.Keeps m (State.cmpRegWrite s o val) := by
  unfold State.cmpRegWrite
  extract_lets a0 a1 a2 a3
  clear_value a0
  clear_value a1
  clear_value a2
  clear_value a3
  split
  · split
    · with_reducible apply State.headCtrl_keeps (w := w.of (by decide))
      with_reducible assumption
    · split
      · with_reducible apply State.formatWrite_keeps (w := w.of (by decide))
        with_reducible assumption
      · split
        · split
          · with_reducible apply State.plainWrite_keeps (w := w.of (by decide))
            with_reducible assumption
          · with_reducible apply State.cmpReport_keeps (w := w.of (by decide))
            with_reducible assumption
        · split
          · split
            · with_reducible apply State.plainWrite_keeps (w := w.of (by decide))
              with_reducible assumption
            · with_reducible apply State.cmpReport_keeps (w := w.of (by decide))
              with_reducible assumption
          · split
            · with_reducible apply State.commitWrite_keeps (w := w.of (by decide))
              with_reducible assumption
            · with_reducible apply State.plainWrite_keeps (w := w.of (by decide))
              with_reducible assumption
  · split
    · split
      · with_reducible apply State.layerReport_keeps (w := w.of (by decide))
        with_reducible assumption
      · with_reducible apply State.plainWrite_keeps (w := w.of (by decide))
        with_reducible assumption
    · with_reducible apply State.plainWrite_keeps (w := w.of (by decide))
      with_reducible assumption

theorem State.sdiRegWrite_keeps {m : Nat} {s0 : State} (s : State) (o : ℕ) (val : Word) (h : s0.Keeps m s) (w : Within 0x4000008 m := by exact Within.of (by assumption) (by decide)) :
    s0.Keeps m (State.sdiRegWrite s o val) := by
  unfold State.sdiRegWrite
  split
  · with_reducible apply State.sdiCfg_keeps (w := w.of (by decide))
    with_reducible assumption
  · with_reducible apply State.plainWrite_keeps (w := w.of (by decide))
    with_reducible assumption

end Sys2Proof.Machine
end

