-- ==== Sys2Proof/Laws/KeepsNetPorts.lean ====
section
/-! SUPPORT. The operations of Machine/NetPorts.lean keep the queue and the invariant (`State.Keeps`). -/

namespace Sys2Proof.Machine

set_option Elab.async false
set_option linter.unusedVariables false

theorem State.netReport_keeps {m : Nat} {s0 : State} (s : State) (p : ℕ) (code : ℕ) (h : s0.Keeps m s) (w : Within 0x8 m := by exact Within.of (by assumption) (by decide)) :
    s0.Keeps m (State.netReport s p code) := by
  unfold State.netReport
  with_reducible apply State.wr_keeps (w := w.of (by decide))
  with_reducible apply State.wr_keeps (w := w.of (by decide))
  with_reducible assumption

theorem State.netError_keeps {m : Nat} {s0 : State} (s : State) (p : ℕ) (code : ℕ) (h : s0.Keeps m s) (w : Within 0x8 m := by exact Within.of (by assumption) (by decide)) :
    s0.Keeps m (State.netError s p code) := by
  unfold State.netError
  with_reducible apply State.irq_keeps (w := w.of (by decide))
  with_reducible apply State.netReport_keeps (w := w.of (by decide))
  with_reducible assumption

theorem State.tsnReport_keeps {m : Nat} {s0 : State} (s : State) (p : ℕ) (code : ℕ) (h : s0.Keeps m s) (w : Within 0x8 m := by exact Within.of (by assumption) (by decide)) :
    s0.Keeps m (State.tsnReport s p code) := by
  unfold State.tsnReport
  with_reducible apply State.wr_keeps (w := w.of (by decide))
  with_reducible assumption

theorem State.setClass_keeps {m : Nat} {s0 : State} (s : State) (p : ℕ) (c : ℕ) (k : NetClass) (h : s0.Keeps m s) (w : Within 0x1000008 m := by exact Within.of (by assumption) (by decide)) :
    s0.Keeps m (State.setClass s p c k) := by
  unfold State.setClass
  with_reducible apply State.wr_keeps (w := w.of (by decide))
  with_reducible apply State.setNetPort_keeps (w := w.of (by decide))
  with_reducible assumption

theorem State.dropOversize_keeps {m : Nat} {s0 : State} (s : State) (p c fuel : Nat) (h : s0.Keeps m s) (w : Within 0x1000008 m := by exact Within.of (by assumption) (by decide)) :
    s0.Keeps m ((s.dropOversize p c fuel)) := by
  induction fuel generalizing s with
  | zero => exact h
  | succ fuel ih =>
    unfold State.dropOversize
    extract_lets k
    split
    · exact h
    · split
      · with_reducible apply ih
        with_reducible apply State.irq_keeps (w := w.of (by decide))
        with_reducible apply State.tsnReport_keeps (w := w.of (by decide))
        with_reducible apply State.inc_keeps (w := w.of (by decide))
        with_reducible apply State.setClass_keeps (w := w.of (by decide))
        with_reducible exact h
      · exact h

theorem State.checkHead_keeps {m : Nat} {s0 : State} (s : State) (p : ℕ) (c : ℕ) (h : s0.Keeps m s) (w : Within 0x1000008 m := by exact Within.of (by assumption) (by decide)) :
    s0.Keeps m (State.checkHead s p c) := by
  unfold State.checkHead
  with_reducible apply State.dropOversize_keeps (w := w.of (by decide))
  with_reducible assumption

theorem State.offerFrame_keeps {m : Nat} {s0 : State} (s : State) (p : ℕ) (c : ℕ) (f : NetFrame) (h : s0.Keeps m s) (w : Within 0x1000008 m := by exact Within.of (by assumption) (by decide)) :
    s0.Keeps m (State.offerFrame s p c f) := by
  unfold State.offerFrame
  split
  · with_reducible apply State.inc_keeps (w := w.of (by decide))
    with_reducible assumption
  · extract_lets a0 a1
    clear_value a0
    have k2 : s0.Keeps m a1 := by
      unfold a1
      with_reducible apply State.setClass_keeps (w := w.of (by decide))
      with_reducible assumption
    clear_value a1
    split
    · with_reducible apply State.checkHead_keeps (w := w.of (by decide))
      with_reducible assumption
    · with_reducible assumption

theorem State.discardQueued_keeps {m : Nat} {s0 : State} (s : State) (p : ℕ) (h : s0.Keeps m s) (w : Within 0x1000008 m := by exact Within.of (by assumption) (by decide)) :
    s0.Keeps m (State.discardQueued s p) := by
  unfold State.discardQueued
  with_reducible apply State.each_keeps
  · intro x0 x1 x2
    extract_lets a3
    clear_value a3
    with_reducible apply State.inc_keeps (w := w.of (by decide))
    with_reducible apply State.setClass_keeps (w := w.of (by decide))
    with_reducible assumption
  · with_reducible assumption

theorem State.netCfg_keeps {m : Nat} {s0 : State} (s : State) (val : Word) (h : s0.Keeps m s) (w : Within 0x8 m := by exact Within.of (by assumption) (by decide)) :
    s0.Keeps m (State.netCfg s val) := by
  unfold State.netCfg
  split
  · with_reducible apply State.wr_keeps (w := w.of (by decide))
    with_reducible assumption
  · with_reducible apply State.plainWrite_keeps (w := w.of (by decide))
    with_reducible assumption

theorem State.netPortSet_keeps {m : Nat} {s0 : State} (s : State) (p : ℕ) (val : Word) (h : s0.Keeps m s) (w : Within 0x1000008 m := by exact Within.of (by assumption) (by decide)) :
    s0.Keeps m (State.netPortSet s p val) := by
  unfold State.netPortSet
  extract_lets a0 a1 a2 a3 a4 a5 a6 a7 a8
  clear_value a0
  clear_value a1
  clear_value a2
  have k9 : s0.Keeps m a3 := by
    unfold a3
    with_reducible apply State.plainWrite_keeps (w := w.of (by decide))
    with_reducible assumption
  clear_value a3
  have k10 : s0.Keeps m a4 := by
    unfold a4
    split
    · with_reducible apply State.wr_keeps (w := w.of (by decide))
      with_reducible assumption
    · with_reducible assumption
  clear_value a4
  have k11 : s0.Keeps m a5 := by
    unfold a5
    split
    · with_reducible assumption
    · with_reducible apply State.wr_keeps (w := w.of (by decide))
      with_reducible assumption
  clear_value a5
  clear_value a6
  have k12 : s0.Keeps m a7 := by
    unfold a7
    with_reducible apply State.wr_keeps (w := w.of (by decide))
    with_reducible assumption
  clear_value a7
  have k13 : s0.Keeps m a8 := by
    unfold a8
    with_reducible apply State.discardQueued_keeps (w := w.of (by decide))
    with_reducible assumption
  clear_value a8
  split
  · with_reducible apply State.netReport_keeps (w := w.of (by decide))
    with_reducible assumption
  · split
    · split
      · with_reducible apply State.wr_keeps (w := w.of (by decide))
        with_reducible assumption
      · with_reducible assumption
    · split
      · split
        · with_reducible apply State.wr_keeps (w := w.of (by decide))
          with_reducible assumption
        · with_reducible assumption
      · with_reducible assumption

theorem State.netPortCtrl_keeps {m : Nat} {s0 : State} (s : State) (p : ℕ) (val : Word) (h : s0.Keeps m s) (w : Within 0x11000008 m := by exact Within.of (by assumption) (by decide)) :
    s0.Keeps m (State.netPortCtrl s p val) := by
  unfold State.netPortCtrl
  with_reducible apply State.enableWrite_keeps (w := w.of (by decide))
  · with_reducible assumption
  · intro x0 x1
    with_reducible apply State.netPortSet_keeps (w := w.of (by decide))
    with_reducible assumption

theorem State.netLink_keeps {m : Nat} {s0 : State} (s : State) (p : ℕ) (up : Bool) (h : s0.Keeps m s) (w : Within 0x1000008 m := by exact Within.of (by assumption) (by decide)) :
    s0.Keeps m (State.netLink s p up) := by
  unfold State.netLink
  extract_lets a0 a1 a2
  clear_value a0
  have k3 : s0.Keeps m a1 := by
    unfold a1
    with_reducible apply State.netReport_keeps (w := w.of (by decide))
    with_reducible apply State.wr_keeps (w := w.of (by decide))
    with_reducible apply State.discardQueued_keeps (w := w.of (by decide))
    with_reducible assumption
  clear_value a1
  have k4 : s0.Keeps m a2 := by
    unfold a2
    with_reducible apply State.irq_keeps (w := w.of (by decide))
    with_reducible assumption
  clear_value a2
  split
  · with_reducible assumption
  · split
    · split
      · with_reducible apply State.irq_keeps (w := w.of (by decide))
        with_reducible apply State.wr_keeps (w := w.of (by decide))
        with_reducible assumption
      · with_reducible assumption
    · with_reducible apply State.wr_keeps (w := w.of (by decide))
      with_reducible apply State.wr_keeps (w := w.of (by decide))
      with_reducible assumption

theorem State.rxPut_keeps {m : Nat} {s0 : State} (s : State) (p : ℕ) (qid : ℕ) (u : Tile) (n : ℕ) (x5 : Option ℕ) (x6 : Bool) (h : s0.Keeps m s) (w : Within 0x5005118 m := by exact Within.of (by assumption) (by decide)) :
    s0.Keeps m (State.rxPut s p qid u n x5 x6) := by
  unfold State.rxPut
  split
  · extract_lets a0 a1 a2
    clear_value a0
    have k3 : s0.Keeps m a1 := by
      unfold a1
      with_reducible apply State.setNetPort_keeps (w := w.of (by decide))
      with_reducible assumption
    clear_value a1
    have k4 : s0.Keeps m a2.2 := by
      unfold a2
      with_reducible apply State.reserve_keeps (w := w.of (by decide))
      with_reducible apply State.physWrite_keeps (w := w.of (by decide))
      with_reducible assumption
    clear_value a2
    with_reducible apply State.complete_keeps (w := w.of (by decide))
    with_reducible assumption
  · with_reducible apply State.netError_keeps (w := w.of (by decide))
    with_reducible apply State.inc_keeps (w := w.of (by decide))
    with_reducible assumption

theorem State.rxStore_keeps {m : Nat} {s0 : State} (s : State) (p : ℕ) (bytes : List Byte) (h : s0.Keeps m s) (w : Within 0x5005118 m := by exact Within.of (by assumption) (by decide)) :
    s0.Keeps m (State.rxStore s p bytes) := by
  unfold State.rxStore
  extract_lets a0 a1 a2 a3 a4
  clear_value a0
  clear_value a1
  clear_value a2
  have k5 : s0.Keeps m a3 := by
    unfold a3
    with_reducible apply State.setNetPort_keeps (w := w.of (by decide))
    with_reducible assumption
  clear_value a3
  clear_value a4
  with_reducible apply State.rxPut_keeps (w := w.of (by decide))
  with_reducible assumption

theorem State.frameReceive_keeps {m : Nat} {s0 : State} (s : State) (p : ℕ) (bytes : List Byte) (fcsOk : Bool) (h : s0.Keeps m s) (w : Within 0x5005118 m := by exact Within.of (by assumption) (by decide)) :
    s0.Keeps m (State.frameReceive s p bytes fcsOk) := by
  unfold State.frameReceive
  split
  · with_reducible assumption
  · split
    · with_reducible apply State.inc_keeps (w := w.of (by decide))
      with_reducible assumption
    · split
      · with_reducible apply State.inc_keeps (w := w.of (by decide))
        with_reducible assumption
      · extract_lets a0 a1
        have k2 : s0.Keeps m a0 := by
          unfold a0
          split
          · with_reducible apply State.inc_keeps (w := w.of (by decide))
            with_reducible assumption
          · with_reducible assumption
        clear_value a0
        have k3 : s0.Keeps m a1 := by
          unfold a1
          with_reducible apply State.inc_keeps (w := w.of (by decide))
          with_reducible assumption
        clear_value a1
        split
        · with_reducible assumption
        · split
          · with_reducible assumption
          · with_reducible apply State.rxStore_keeps (w := w.of (by decide))
            with_reducible assumption

theorem State.softwareFrame_keeps {m : Nat} {s0 : State} (s : State) (p : ℕ) (h : s0.Keeps m s) (w : Within 0x1000108 m := by exact Within.of (by assumption) (by decide)) :
    s0.Keeps m (State.softwareFrame s p) := by
  unfold State.softwareFrame
  split
  · with_reducible assumption
  · extract_lets a0 a1 a2 a3
    clear_value a0
    have k4 : s0.Keeps m a1.2 := by
      unfold a1
      with_reducible apply State.nextTile_keeps (w := w.of (by decide))
      with_reducible assumption
    clear_value a1
    have k5 : s0.Keeps m a2 := by
      unfold a2
      with_reducible assumption
    clear_value a2
    clear_value a3
    split
    · with_reducible assumption
    · extract_lets a6 a7 a8
      clear_value a6
      clear_value a7
      clear_value a8
      split
      · with_reducible apply State.pop_keeps (w := w.of (by decide))
        with_reducible apply State.countFailure_keeps (w := w.of (by decide))
        with_reducible assumption
      · split
        · with_reducible apply State.pop_keeps (w := w.of (by decide))
          with_reducible apply State.netError_keeps (w := w.of (by decide))
          with_reducible apply State.inc_keeps (w := w.of (by decide))
          with_reducible assumption
        · split
          · with_reducible apply State.pop_keeps (w := w.of (by decide))
            with_reducible apply State.offerFrame_keeps (w := w.of (by decide))
            with_reducible assumption
          · with_reducible assumption

theorem State.refreshGates_keeps {m : Nat} {s0 : State} (s : State) (p : ℕ) (h : s0.Keeps m s) (w : Within 0x1000000 m := by exact Within.of (by assumption) (by decide)) :
    s0.Keeps m (State.refreshGates s p) := by
  unfold State.refreshGates
  extract_lets a0 a1
  have k2 : s0.Keeps m a0 := by
    unfold a0
    with_reducible apply State.settle_keeps (w := w.of (by decide))
    with_reducible assumption
  clear_value a0
  clear_value a1
  with_reducible apply State.setNetPort_keeps (w := w.of (by decide))
  with_reducible assumption

theorem State.gateCommit_keeps {m : Nat} {s0 : State} (s : State) (p : ℕ) (h : s0.Keeps m s) (w : Within 0x8 m := by exact Within.of (by assumption) (by decide)) :
    s0.Keeps m (State.gateCommit s p) := by
  unfold State.gateCommit
  split
  · with_reducible apply State.tsnReport_keeps (w := w.of (by decide))
    with_reducible assumption
  · split
    · with_reducible apply State.tsnReport_keeps (w := w.of (by decide))
      with_reducible assumption
    · extract_lets a0 a1 a2 a3 a4 a5 a6
      clear_value a0
      clear_value a1
      clear_value a2
      clear_value a3
      clear_value a4
      have k7 : s0.Keeps m a5 := by
        unfold a5
        with_reducible apply State.wr_keeps (w := w.of (by decide))
        with_reducible apply State.wr_keeps (w := w.of (by decide))
        with_reducible apply State.wr_keeps (w := w.of (by decide))
        with_reducible assumption
      clear_value a5
      have k8 : s0.Keeps m a6 := by
        unfold a6
        with_reducible apply State.wr_keeps (w := w.of (by decide))
        with_reducible assumption
      clear_value a6
      split
      · with_reducible assumption
      · with_reducible apply State.irq_keeps (w := w.of (by decide))
        with_reducible apply State.tsnReport_keeps (w := w.of (by decide))
        with_reducible assumption

theorem State.gateChange_keeps {m : Nat} {s0 : State} (s : State) (p : ℕ) (h : s0.Keeps m s) (w : Within 0x1000008 m := by exact Within.of (by assumption) (by decide)) :
    s0.Keeps m (State.gateChange s p) := by
  unfold State.gateChange
  extract_lets a0 a1 a2 a3 a4 a5 a6
  have k7 : s0.Keeps m a0 := by
    unfold a0
    with_reducible apply State.settle_keeps (w := w.of (by decide))
    with_reducible assumption
  clear_value a0
  clear_value a1
  have k8 : s0.Keeps m a2 := by
    unfold a2
    with_reducible apply State.each_keeps
    · intro x9 x10 x11
      with_reducible apply State.wr_keeps (w := w.of (by decide))
      with_reducible apply State.wr_keeps (w := w.of (by decide))
      with_reducible assumption
    · with_reducible assumption
  clear_value a2
  have k12 : s0.Keeps m a3 := by
    unfold a3
    with_reducible apply State.wr_keeps (w := w.of (by decide))
    with_reducible apply State.wr_keeps (w := w.of (by decide))
    with_reducible assumption
  clear_value a3
  clear_value a4
  have k13 : s0.Keeps m a5 := by
    unfold a5
    with_reducible apply State.setNetPort_keeps (w := w.of (by decide))
    with_reducible assumption
  clear_value a5
  have k14 : s0.Keeps m a6 := by
    unfold a6
    with_reducible apply State.irq_keeps (w := w.of (by decide))
    with_reducible apply State.wr_keeps (w := w.of (by decide))
    with_reducible assumption
  clear_value a6
  with_reducible apply State.each_keeps
  · intro x15 x16 x17
    with_reducible apply State.checkHead_keeps (w := w.of (by decide))
    with_reducible assumption
  · with_reducible apply State.refreshGates_keeps (w := w.of (by decide))
    with_reducible assumption

theorem State.gateListChange_keeps {m : Nat} {s0 : State} (s : State) (p : ℕ) (h : s0.Keeps m s) (w : Within 0x1000008 m := by exact Within.of (by assumption) (by decide)) :
    s0.Keeps m (State.gateListChange s p) := by
  unfold State.gateListChange
  split
  · with_reducible apply State.gateChange_keeps (w := w.of (by decide))
    with_reducible assumption
  · with_reducible assumption

theorem State.gateCancel_keeps {m : Nat} {s0 : State} (s : State) (p : ℕ) (late : Bool) (h : s0.Keeps m s) (w : Within 0x1000008 m := by exact Within.of (by assumption) (by decide)) :
    s0.Keeps m (State.gateCancel s p late) := by
  unfold State.gateCancel
  split
  · with_reducible assumption
  · split
    · with_reducible apply State.tsnReport_keeps (w := w.of (by decide))
      with_reducible apply State.gateChange_keeps (w := w.of (by decide))
      with_reducible assumption
    · with_reducible apply State.wr_keeps (w := w.of (by decide))
      with_reducible assumption

theorem State.tsnCtrl_keeps {m : Nat} {s0 : State} (s : State) (p : ℕ) (val : Word) (late : Bool) (h : s0.Keeps m s) (w : Within 0x1000008 m := by exact Within.of (by assumption) (by decide)) :
    s0.Keeps m (State.tsnCtrl s p val late) := by
  unfold State.tsnCtrl
  extract_lets a0 a1 a2 a3 a4 a5 a6
  clear_value a0
  clear_value a1
  clear_value a2
  have k7 : s0.Keeps m a3 := by
    unfold a3
    with_reducible apply State.settle_keeps (w := w.of (by decide))
    with_reducible assumption
  clear_value a3
  have k8 : s0.Keeps m a4 := by
    unfold a4
    with_reducible apply State.plainWrite_keeps (w := w.of (by decide))
    with_reducible assumption
  clear_value a4
  have k9 : s0.Keeps m a5 := by
    unfold a5
    with_reducible apply State.refreshGates_keeps (w := w.of (by decide))
    split
    · with_reducible apply State.tsnReport_keeps (w := w.of (by decide))
      with_reducible apply State.wr_keeps (w := w.of (by decide))
      with_reducible assumption
    · with_reducible assumption
  clear_value a5
  have k10 : s0.Keeps m a6 := by
    unfold a6
    split
    · with_reducible apply State.gateCancel_keeps (w := w.of (by decide))
      with_reducible assumption
    · with_reducible assumption
  clear_value a6
  split
  · with_reducible apply State.gateCommit_keeps (w := w.of (by decide))
    with_reducible assumption
  · with_reducible assumption

theorem State.tsnIdle_keeps {m : Nat} {s0 : State} (s : State) (p : ℕ) (c : ℕ) (val : Word) (h : s0.Keeps m s) (w : Within 0x1000008 m := by exact Within.of (by assumption) (by decide)) :
    s0.Keeps m (State.tsnIdle s p c val) := by
  unfold State.tsnIdle
  split
  · with_reducible apply State.tsnReport_keeps (w := w.of (by decide))
    with_reducible assumption
  · with_reducible apply State.plainWrite_keeps (w := w.of (by decide))
    with_reducible apply State.settle_keeps (w := w.of (by decide))
    with_reducible assumption

theorem State.tsnHi_keeps {m : Nat} {s0 : State} (s : State) (p : ℕ) (c : ℕ) (val : Word) (h : s0.Keeps m s) (w : Within 0x1000008 m := by exact Within.of (by assumption) (by decide)) :
    s0.Keeps m (State.tsnHi s p c val) := by
  unfold State.tsnHi
  split
  · with_reducible apply State.tsnReport_keeps (w := w.of (by decide))
    with_reducible assumption
  · extract_lets a0 a1
    have k2 : s0.Keeps m a0 := by
      unfold a0
      with_reducible apply State.plainWrite_keeps (w := w.of (by decide))
      with_reducible apply State.settle_keeps (w := w.of (by decide))
      with_reducible assumption
    clear_value a0
    clear_value a1
    with_reducible apply State.setNetPort_keeps (w := w.of (by decide))
    with_reducible assumption

theorem State.tsnClassCfg_keeps {m : Nat} {s0 : State} (s : State) (p : ℕ) (c : ℕ) (val : Word) (h : s0.Keeps m s) (w : Within 0x1000008 m := by exact Within.of (by assumption) (by decide)) :
    s0.Keeps m (State.tsnClassCfg s p c val) := by
  unfold State.tsnClassCfg
  extract_lets a0 a1 a2 a3
  clear_value a0
  clear_value a1
  have k4 : s0.Keeps m a2 := by
    unfold a2
    with_reducible apply State.plainWrite_keeps (w := w.of (by decide))
    with_reducible apply State.settle_keeps (w := w.of (by decide))
    with_reducible assumption
  clear_value a2
  clear_value a3
  split
  · with_reducible apply State.tsnReport_keeps (w := w.of (by decide))
    with_reducible assumption
  · split
    · with_reducible apply State.setNetPort_keeps (w := w.of (by decide))
      with_reducible assumption
    · with_reducible assumption

theorem State.tsnBuf_keeps {m : Nat} {s0 : State} (s : State) (p : ℕ) (c : ℕ) (val : Word) (h : s0.Keeps m s) (w : Within 0x8 m := by exact Within.of (by assumption) (by decide)) :
    s0.Keeps m (State.tsnBuf s p c val) := by
  unfold State.tsnBuf
  extract_lets a0 a1
  clear_value a0
  clear_value a1
  split
  · with_reducible apply State.tsnReport_keeps (w := w.of (by decide))
    with_reducible assumption
  · with_reducible apply State.plainWrite_keeps (w := w.of (by decide))
    with_reducible assumption

theorem State.transmit_keeps {m : Nat} {s0 : State} (s : State) (p : ℕ) (h : s0.Keeps m s) (w : Within 0x1000008 m := by exact Within.of (by assumption) (by decide)) :
    s0.Keeps m ((State.transmit s p).2) := by
  unfold State.transmit
  split
  · with_reducible assumption
  · extract_lets a0 a1 a2 a3 a4 a5
    have k6 : s0.Keeps m a0 := by
      unfold a0
      with_reducible apply State.refreshGates_keeps (w := w.of (by decide))
      with_reducible assumption
    clear_value a0
    clear_value a1
    have k7 : s0.Keeps m a2 := by
      unfold a2
      with_reducible apply State.settle_keeps (w := w.of (by decide))
      with_reducible assumption
    clear_value a2
    clear_value a3
    clear_value a4
    clear_value a5
    split
    · with_reducible assumption
    · extract_lets a8
      clear_value a8
      split
      · with_reducible assumption
      · extract_lets a9 a10 a11 a12
        clear_value a9
        have k13 : s0.Keeps m a10 := by
          unfold a10
          with_reducible apply State.setNetPort_keeps (w := w.of (by decide))
          with_reducible assumption
        clear_value a10
        have k14 : s0.Keeps m a11 := by
          unfold a11
          with_reducible apply State.setClass_keeps (w := w.of (by decide))
          with_reducible assumption
        clear_value a11
        have k15 : s0.Keeps m a12 := by
          unfold a12
          with_reducible apply State.inc_keeps (w := w.of (by decide))
          with_reducible apply State.inc_keeps (w := w.of (by decide))
          with_reducible assumption
        clear_value a12
        dsimp only
        with_reducible apply State.checkHead_keeps (w := w.of (by decide))
        with_reducible assumption

theorem State.transmit_keeps_eq {m : Nat} {s0 : State} {s : State} {p : ℕ} {a : _} {t : State} (h : s0.Keeps m s)  (e : State.transmit s p = (a, t)) (w : Within 0x1000008 m := by exact Within.of (by assumption) (by decide)) :
    s0.Keeps m t :=
  State.keeps_snd_eq (State.transmit_keeps s p h ) e

theorem execNetCfgWrite_keeps {m : Nat} {s0 : State} (src : Agent) (val : Word) (s : State) (h : s0.Keeps m s) {t : State} (e : execNetCfgWrite src val s = .next t) (w : Within 0x8008 m := by exact Within.of (by assumption) (by decide)) :
    s0.Keeps m t := by
  unfold execNetCfgWrite at e
  injection e with e
  subst e
  with_reducible apply State.writeReg_keeps (w := w.of (by decide))
  · with_reducible assumption
  · intro x0 x1
    with_reducible apply State.netCfg_keeps (w := w.of (by decide))
    with_reducible assumption

theorem execNetPortEnable_keeps {m : Nat} {s0 : State} (src : Agent) (port : Fin 8) (val : Word) (s : State) (h : s0.Keeps m s) {t : State} (e : execNetPortEnable src port val s = .next t) (w : Within 0x11008008 m := by exact Within.of (by assumption) (by decide)) :
    s0.Keeps m t := by
  unfold execNetPortEnable at e
  injection e with e
  subst e
  with_reducible apply State.writeReg_keeps (w := w.of (by decide))
  · with_reducible assumption
  · intro x0 x1
    with_reducible apply State.netPortCtrl_keeps (w := w.of (by decide))
    with_reducible assumption

theorem execNetLinkChange_keeps {m : Nat} {s0 : State} (port : Fin 8) (up : Bool) (s : State) (h : s0.Keeps m s) {t : State} (e : execNetLinkChange port up s = .next t) (w : Within 0x1000008 m := by exact Within.of (by assumption) (by decide)) :
    s0.Keeps m t := by
  unfold execNetLinkChange at e
  injection e with e
  subst e
  with_reducible apply State.netLink_keeps (w := w.of (by decide))
  with_reducible assumption

theorem execFrameReceive_keeps {m : Nat} {s0 : State} (port : Fin 8) (bytes : List Byte) (fcsOk : Bool) (s : State) (h : s0.Keeps m s) {t : State} (e : execFrameReceive port bytes fcsOk s = .next t) (w : Within 0x5005118 m := by exact Within.of (by assumption) (by decide)) :
    s0.Keeps m t := by
  unfold execFrameReceive at e
  injection e with e
  subst e
  with_reducible apply State.frameReceive_keeps (w := w.of (by decide))
  with_reducible assumption

theorem execSoftwareFrameTx_keeps {m : Nat} {s0 : State} (port : Fin 8) (s : State) (h : s0.Keeps m s) {t : State} (e : execSoftwareFrameTx port s = .next t) (w : Within 0x1000108 m := by exact Within.of (by assumption) (by decide)) :
    s0.Keeps m t := by
  unfold execSoftwareFrameTx at e
  injection e with e
  subst e
  with_reducible apply State.softwareFrame_keeps (w := w.of (by decide))
  with_reducible assumption

theorem execCommit_keeps {m : Nat} {s0 : State} (src : Agent) (port : Fin 8) (val : Word) (s : State) (h : s0.Keeps m s) {t : State} (e : execCommit src port val s = .next t) (w : Within 0x1008008 m := by exact Within.of (by assumption) (by decide)) :
    s0.Keeps m t := by
  unfold execCommit at e
  injection e with e
  subst e
  with_reducible apply State.writeReg_keeps (w := w.of (by decide))
  · with_reducible assumption
  · intro x0 x1
    with_reducible apply State.tsnCtrl_keeps (w := w.of (by decide))
    with_reducible assumption

theorem execGateCancel_keeps {m : Nat} {s0 : State} (src : Agent) (port : Fin 8) (val : Word) (late : Bool) (s : State) (h : s0.Keeps m s) {t : State} (e : execGateCancel src port val late s = .next t) (w : Within 0x1008008 m := by exact Within.of (by assumption) (by decide)) :
    s0.Keeps m t := by
  unfold execGateCancel at e
  injection e with e
  subst e
  with_reducible apply State.writeReg_keeps (w := w.of (by decide))
  · with_reducible assumption
  · intro x0 x1
    with_reducible apply State.tsnCtrl_keeps (w := w.of (by decide))
    with_reducible assumption

theorem execGateListChange_keeps {m : Nat} {s0 : State} (port : Fin 8) (s : State) (h : s0.Keeps m s) {t : State} (e : execGateListChange port s = .next t) (w : Within 0x1000008 m := by exact Within.of (by assumption) (by decide)) :
    s0.Keeps m t := by
  unfold execGateListChange at e
  injection e with e
  subst e
  with_reducible apply State.gateListChange_keeps (w := w.of (by decide))
  with_reducible assumption

theorem execGateEntryChange_keeps {m : Nat} {s0 : State} (port : Fin 8) (s : State) (h : s0.Keeps m s) {t : State} (e : execGateEntryChange port s = .next t) (w : Within 0x1000000 m := by exact Within.of (by assumption) (by decide)) :
    s0.Keeps m t := by
  unfold execGateEntryChange at e
  injection e with e
  subst e
  with_reducible apply State.refreshGates_keeps (w := w.of (by decide))
  with_reducible assumption

theorem execTsnIdleWrite_keeps {m : Nat} {s0 : State} (src : Agent) (port : Fin 8) (cls : Fin 8) (val : Word) (s : State) (h : s0.Keeps m s) {t : State} (e : execTsnIdleWrite src port cls val s = .next t) (w : Within 0x1008008 m := by exact Within.of (by assumption) (by decide)) :
    s0.Keeps m t := by
  unfold execTsnIdleWrite at e
  injection e with e
  subst e
  with_reducible apply State.writeReg_keeps (w := w.of (by decide))
  · with_reducible assumption
  · intro x0 x1
    with_reducible apply State.tsnIdle_keeps (w := w.of (by decide))
    with_reducible assumption

theorem execTsnHiWrite_keeps {m : Nat} {s0 : State} (src : Agent) (port : Fin 8) (cls : Fin 8) (val : Word) (s : State) (h : s0.Keeps m s) {t : State} (e : execTsnHiWrite src port cls val s = .next t) (w : Within 0x1008008 m := by exact Within.of (by assumption) (by decide)) :
    s0.Keeps m t := by
  unfold execTsnHiWrite at e
  injection e with e
  subst e
  with_reducible apply State.writeReg_keeps (w := w.of (by decide))
  · with_reducible assumption
  · intro x0 x1
    with_reducible apply State.tsnHi_keeps (w := w.of (by decide))
    with_reducible assumption

theorem State.netRegWrite_keeps {m : Nat} {s0 : State} (s : State) (o : ℕ) (val : Word) (h : s0.Keeps m s) (w : Within 0x11000008 m := by exact Within.of (by assumption) (by decide)) :
    s0.Keeps m (State.netRegWrite s o val) := by
  unfold State.netRegWrite
  extract_lets a0 a1 a2 a3 a4 a5
  clear_value a0
  clear_value a1
  clear_value a2
  clear_value a3
  have k6 : s0.Keeps m a4 := by
    unfold a4
    with_reducible apply State.plainWrite_keeps (w := w.of (by decide))
    with_reducible assumption
  clear_value a4
  clear_value a5
  split
  · with_reducible apply State.netCfg_keeps (w := w.of (by decide))
    with_reducible assumption
  · split
    · split
      · with_reducible apply State.netPortCtrl_keeps (w := w.of (by decide))
        with_reducible assumption
      · split
        · split
          · with_reducible apply State.wr_keeps (w := w.of (by decide))
            with_reducible apply State.wr_keeps (w := w.of (by decide))
            with_reducible assumption
          · with_reducible assumption
        · split
          · split
            · with_reducible assumption
            · with_reducible apply State.setNetPort_keeps (w := w.of (by decide))
              with_reducible apply State.plainWrite_keeps (w := w.of (by decide))
              with_reducible assumption
          · with_reducible apply State.plainWrite_keeps (w := w.of (by decide))
            with_reducible assumption
    · with_reducible apply State.plainWrite_keeps (w := w.of (by decide))
      with_reducible assumption

theorem State.tsnRegWrite_keeps {m : Nat} {s0 : State} (s : State) (o : ℕ) (val : Word) (h : s0.Keeps m s) (w : Within 0x1000008 m := by exact Within.of (by assumption) (by decide)) :
    s0.Keeps m (State.tsnRegWrite s o val) := by
  unfold State.tsnRegWrite
  extract_lets a0 a1 a2 a3 a4
  clear_value a0
  clear_value a1
  clear_value a2
  clear_value a3
  clear_value a4
  split
  · with_reducible assumption
  · split
    · with_reducible apply State.tsnCtrl_keeps (w := w.of (by decide))
      with_reducible assumption
    · split
      · split
        · with_reducible apply State.tsnReport_keeps (w := w.of (by decide))
          with_reducible assumption
        · with_reducible apply State.plainWrite_keeps (w := w.of (by decide))
          with_reducible assumption
      · split
        · split
          · with_reducible apply State.tsnClassCfg_keeps (w := w.of (by decide))
            with_reducible assumption
          · split
            · with_reducible apply State.tsnIdle_keeps (w := w.of (by decide))
              with_reducible assumption
            · split
              · with_reducible apply State.tsnHi_keeps (w := w.of (by decide))
                with_reducible assumption
              · split
                · with_reducible apply State.tsnBuf_keeps (w := w.of (by decide))
                  with_reducible assumption
                · with_reducible apply State.plainWrite_keeps (w := w.of (by decide))
                  with_reducible assumption
        · with_reducible apply State.plainWrite_keeps (w := w.of (by decide))
          with_reducible assumption

end Sys2Proof.Machine
end

