-- ==== Sys2Proof/Laws/KeepsSenders.lean ====
section
/-! SUPPORT. The operations of Machine/Senders.lean keep the queue and the invariant (`State.Keeps`). -/

namespace Sys2Proof.Machine

set_option Elab.async false
set_option linter.unusedVariables false

theorem State.setSender_keeps {m : Nat} {s0 : State} (s : State) (k : ℕ) (v : Sender) (h : s0.Keeps m s) (w : Within 0x1000000 m := by exact Within.of (by assumption) (by decide)) :
    s0.Keeps m (State.setSender s k v) := by
  unfold State.setSender
  with_reducible apply State.setNet_keeps (w := w.of (by decide))
  with_reducible assumption

theorem State.senderReport_keeps {m : Nat} {s0 : State} (s : State) (k : ℕ) (code : ℕ) (h : s0.Keeps m s) (w : Within 0x8 m := by exact Within.of (by assumption) (by decide)) :
    s0.Keeps m (State.senderReport s k code) := by
  unfold State.senderReport
  with_reducible apply State.wr_keeps (w := w.of (by decide))
  with_reducible apply State.wr_keeps (w := w.of (by decide))
  with_reducible assumption

theorem State.sendPkt_keeps {m : Nat} {s0 s t : State} {k : Nat} {n : Node} {i : Nat} {p : SndPkt} (h : s0.Keeps m s) (e : s.sendPkt k n i p = some t) (w : Within 0x1000008 m := by exact Within.of (by assumption) (by decide)) :
    s0.Keeps m t := by
  unfold State.sendPkt at e
  extract_lets c rtp fs at e
  split at e
  · cases e
    apply State.inc_keeps (w := w.of (by decide))
    apply State.incWrap_keeps (w := w.of (by decide))
    apply State.each_keeps
    · intro f u hu
      exact State.offerFrame_keeps u _ _ _ hu
    · exact h
  · cases e

theorem State.pumpOut_keeps {m : Nat} {s0 : State} (s : State) (k : Nat) (n : Node) (i fuel : Nat) (h : s0.Keeps m s) (w : Within 0x1000008 m := by exact Within.of (by assumption) (by decide)) :
    s0.Keeps m ((s.pumpOut k n i fuel)) := by
  induction fuel generalizing s with
  | zero => exact h
  | succ fuel ih =>
    unfold State.pumpOut
    split
    · exact h
    · split
      · rename_i s' e
        exact ih _ (State.setSender_keeps _ _ _ (State.sendPkt_keeps h e))
      · exact h

theorem State.pumpVideo_keeps {m : Nat} {s0 : State} (s : State) (k : Nat) (n : Node) (i fuel : Nat) (h : s0.Keeps m s) (w : Within 0x1000008 m := by exact Within.of (by assumption) (by decide)) :
    s0.Keeps m ((s.pumpVideo k n i fuel)) := by
  induction fuel generalizing s with
  | zero => exact h
  | succ fuel ih =>
    unfold State.pumpVideo
    split
    · exact h
    · extract_lets p
      split
      · split
        · exact h
        · rename_i e
          have k1 := State.sendPkt_keeps h e
          extract_lets a1 g fs
          have k2 : s0.Keeps m a1 := by
            unfold a1
            split
            · exact State.senderReport_keeps _ _ _ (State.inc_keeps _ _ _ k1)
            · exact k1
          exact ih _ (State.setSender_keeps _ _ _ k2)
      · exact h

theorem State.pumpSender_keeps {m : Nat} {s0 : State} (s : State) (k : ℕ) (h : s0.Keeps m s) (w : Within 0x1000008 m := by exact Within.of (by assumption) (by decide)) :
    s0.Keeps m (State.pumpSender s k) := by
  unfold State.pumpSender
  split
  · with_reducible assumption
  · extract_lets a0
    clear_value a0
    split
    · with_reducible apply State.pumpVideo_keeps (w := w.of (by decide))
      with_reducible assumption
    · with_reducible apply State.pumpOut_keeps (w := w.of (by decide))
      with_reducible assumption

theorem State.packetDue_keeps {m : Nat} {s0 : State} (s : State) (k : ℕ) (h : s0.Keeps m s) (w : Within 0x1000008 m := by exact Within.of (by assumption) (by decide)) :
    s0.Keeps m (State.packetDue s k) := by
  unfold State.packetDue
  split
  · with_reducible assumption
  · split
    · with_reducible assumption
    · extract_lets a0
      clear_value a0
      split
      · with_reducible assumption
      · extract_lets a1 a2 a3
        clear_value a1
        clear_value a2
        clear_value a3
        split
        · with_reducible assumption
        · with_reducible apply State.pumpSender_keeps (w := w.of (by decide))
          with_reducible apply State.setSender_keeps (w := w.of (by decide))
          with_reducible assumption

theorem State.completeRows_keeps {m : Nat} {s0 : State} (s : State) (k : ℕ) (p : PixFmt) (f : SndFrame) (r : ℕ) (h : s0.Keeps m s) (w : Within 0x8 m := by exact Within.of (by assumption) (by decide)) :
    s0.Keeps m ((State.completeRows s k p f r).2) := by
  unfold State.completeRows
  extract_lets a0 a1 a2
  clear_value a0
  have k3 : s0.Keeps m a1 := by
    unfold a1
    split
    · with_reducible assumption
    · with_reducible apply State.inc_keeps (w := w.of (by decide))
      with_reducible assumption
  clear_value a1
  have k4 : s0.Keeps m a2 := by
    unfold a2
    split
    · with_reducible apply State.senderReport_keeps (w := w.of (by decide))
      with_reducible assumption
    · with_reducible assumption
  clear_value a2
  with_reducible assumption

theorem State.completeRows_keeps_eq {m : Nat} {s0 : State} {s : State} {k : ℕ} {p : PixFmt} {f : SndFrame} {r : ℕ} {a : _} {t : State} (h : s0.Keeps m s)  (e : State.completeRows s k p f r = (a, t)) (w : Within 0x8 m := by exact Within.of (by assumption) (by decide)) :
    s0.Keeps m t :=
  State.keeps_snd_eq (State.completeRows_keeps s k p f r h ) e

theorem State.videoTile_keeps {m : Nat} {s0 s u : State} {k : Nat} {n : Node} {i : Nat} {t : Tile} (h : s0.Keeps m s) (e : s.videoTile k n i t = some u) (w : Within 0x1000018 m := by exact Within.of (by assumption) (by decide)) :
    s0.Keeps m u := by
  unfold State.videoTile at e
  extract_lets v cur new f p inside used band r c src at e
  have kr : s0.Keeps m r.2 := by
    unfold r
    clear_value new cur
    cases new with
    | false => exact h
    | true => cases cur with
      | none => exact h
      | some g => exact State.completeRows_keeps _ _ _ _ _ h
  have kc : s0.Keeps m c.2 := by
    unfold c
    split
    · exact State.completeRows_keeps _ _ _ _ _ kr
    · exact kr
  clear_value src c r band inside
  split at e
  · cases e; exact h
  · have k2 : ∀ x, s0.Keeps m (c.2.setSender k x) := fun x => State.setSender_keeps _ _ _ kc
    have k3 : ∀ a l x, s0.Keeps m ((c.2.setBytes a l).setSender k x) := fun a l x => State.setSender_keeps _ _ _ (State.setBytes_keeps _ _ _ kc)
    cases inside with
    | false => cases e; exact k2 _
    | true => cases band with
      | none => cases e
      | some b => cases e; exact k3 _ _ _

theorem State.audioTile_keeps {m : Nat} {s0 : State} (s : State) (k : ℕ) (n : Node) (i : ℕ) (u : Tile) (h : s0.Keeps m s) (w : Within 0x1000008 m := by exact Within.of (by assumption) (by decide)) :
    s0.Keeps m (State.audioTile s k n i u) := by
  unfold State.audioTile
  extract_lets a0 a1 a2 a3
  clear_value a0
  clear_value a1
  have k4 : s0.Keeps m a2 := by
    unfold a2
    split
    · with_reducible apply State.senderReport_keeps (w := w.of (by decide))
      with_reducible apply State.inc_keeps (w := w.of (by decide))
      with_reducible assumption
    · with_reducible assumption
  clear_value a2
  clear_value a3
  with_reducible apply State.setSender_keeps (w := w.of (by decide))
  with_reducible assumption

theorem State.tsTile_keeps {m : Nat} {s0 : State} (s : State) (k : ℕ) (n : Node) (i : ℕ) (u : Tile) (h : s0.Keeps m s) (w : Within 0x1000008 m := by exact Within.of (by assumption) (by decide)) :
    s0.Keeps m (State.tsTile s k n i u) := by
  unfold State.tsTile
  extract_lets a0 a1 a2 a3 a4 a5 a6 a7 a8
  clear_value a0
  clear_value a1
  have k9 : s0.Keeps m a2 := by
    unfold a2
    split
    · with_reducible apply State.senderReport_keeps (w := w.of (by decide))
      with_reducible apply State.inc_keeps (w := w.of (by decide))
      with_reducible assumption
    · with_reducible assumption
  clear_value a2
  clear_value a3
  clear_value a4
  clear_value a5
  clear_value a6
  clear_value a7
  clear_value a8
  split
  · with_reducible apply State.setSender_keeps (w := w.of (by decide))
    with_reducible assumption
  · with_reducible apply State.setSender_keeps (w := w.of (by decide))
    with_reducible assumption

theorem State.senderTile_keeps {m : Nat} {s0 : State} (s : State) (k : Nat) (h : s0.Keeps m s) (w : Within 0x10001b8 m := by exact Within.of (by assumption) (by decide)) :
    s0.Keeps m (s.senderTile k) := by
  unfold State.senderTile
  split
  · exact h
  · split
    · exact h
    · extract_lets a0 a1
      have k0 : s0.Keeps m a0 := State.pumpSender_keeps s k h
      clear_value a0
      have k1 : s0.Keeps m a1.2 := State.nextTile_keeps _ _ k0
      clear_value a1
      split
      · exact k0
      · split
        · exact k1
        · rename_i n i _ _ _ _ _ _
          extract_lets t r done
          have kr : s0.Keeps m r.2 := State.checkTile_keeps _ _ _ _ _ _ (State.maybeSwitch_keeps _ _ _ k1)
          clear_value r
          split
          · exact State.pop_keeps _ _ _ kr
          · have kd : ∀ u, done = some u → s0.Keeps m u := by
              intro u hu
              unfold done at hu
              split at hu
              · exact State.videoTile_keeps kr hu
              · cases hu; exact State.audioTile_keeps _ _ _ _ _ kr
              · cases hu; exact State.tsTile_keeps _ _ _ _ _ kr
            clear_value done
            split
            · exact k1
            · exact State.pumpSender_keeps _ _ (State.pop_keeps _ _ _ (kd _ rfl))

theorem State.pumpSenders_keeps {m : Nat} {s0 : State} (s : State) (h : s0.Keeps m s) (w : Within 0x1000008 m := by exact Within.of (by assumption) (by decide)) :
    s0.Keeps m (State.pumpSenders s) := by
  unfold State.pumpSenders
  with_reducible apply State.each_keeps
  · intro x0 x1 x2
    with_reducible apply State.pumpSender_keeps (w := w.of (by decide))
    with_reducible assumption
  · with_reducible assumption

theorem State.netStart_keeps {m : Nat} {s0 : State} (s : State) (n : Node) (h : s0.Keeps m s) (w : Within 0x1000008 m := by exact Within.of (by assumption) (by decide)) :
    s0.Keeps m (State.netStart s n) := by
  unfold State.netStart
  with_reducible apply State.each_keeps
  · intro x0 x1 x2
    extract_lets a3 a4 a5 a6 a7 a8
    clear_value a3
    have k9 : s0.Keeps m a4 := by
      unfold a4
      with_reducible apply State.setReg_keeps (w := w.of (by decide))
      with_reducible assumption
    clear_value a4
    have k10 : s0.Keeps m a5 := by
      unfold a5
      with_reducible apply State.wr_keeps (w := w.of (by decide))
      with_reducible apply State.wr_keeps (w := w.of (by decide))
      with_reducible assumption
    clear_value a5
    have k11 : s0.Keeps m a6 := by
      unfold a6
      with_reducible apply State.wr_keeps (w := w.of (by decide))
      with_reducible apply State.wr_keeps (w := w.of (by decide))
      with_reducible assumption
    clear_value a6
    have k12 : s0.Keeps m a7 := by
      unfold a7
      with_reducible apply State.wr_keeps (w := w.of (by decide))
      with_reducible apply State.wr_keeps (w := w.of (by decide))
      with_reducible assumption
    clear_value a7
    have k13 : s0.Keeps m a8 := by
      unfold a8
      with_reducible apply State.wr_keeps (w := w.of (by decide))
      with_reducible apply State.wr_keeps (w := w.of (by decide))
      with_reducible apply State.wr_keeps (w := w.of (by decide))
      with_reducible assumption
    clear_value a8
    with_reducible apply State.setSender_keeps (w := w.of (by decide))
    with_reducible assumption
  · with_reducible assumption

theorem State.netStop_keeps {m : Nat} {s0 : State} (s : State) (n : Node) (h : s0.Keeps m s) (w : Within 0x1000008 m := by exact Within.of (by assumption) (by decide)) :
    s0.Keeps m (State.netStop s n) := by
  unfold State.netStop
  with_reducible apply State.each_keeps
  · intro x0 x1 x2
    with_reducible apply State.setSender_keeps (w := w.of (by decide))
    with_reducible apply State.wr_keeps (w := w.of (by decide))
    with_reducible assumption
  · with_reducible assumption

theorem execSenderTile_keeps {m : Nat} {s0 : State} (slot : Fin 64) (s : State) (h : s0.Keeps m s) {t : State} (e : execSenderTile slot s = .next t) (w : Within 0x10001b8 m := by exact Within.of (by assumption) (by decide)) :
    s0.Keeps m t := by
  unfold execSenderTile at e
  injection e with e
  subst e
  with_reducible apply State.senderTile_keeps (w := w.of (by decide))
  with_reducible assumption

theorem execSenderPacketDue_keeps {m : Nat} {s0 : State} (slot : Fin 64) (s : State) (h : s0.Keeps m s) {t : State} (e : execSenderPacketDue slot s = .next t) (w : Within 0x1000008 m := by exact Within.of (by assumption) (by decide)) :
    s0.Keeps m t := by
  unfold execSenderPacketDue at e
  injection e with e
  subst e
  with_reducible apply State.packetDue_keeps (w := w.of (by decide))
  with_reducible assumption

end Sys2Proof.Machine
end

