-- ==== Sys2Proof/Laws/KeepsAudio.lean ====
section
/-! SUPPORT. The operations of Machine/Audio.lean keep the queue and the invariant (`State.Keeps`). -/

namespace Sys2Proof.Machine

set_option Elab.async false
set_option linter.unusedVariables false

theorem State.setAudPort_keeps {m : Nat} {s0 : State} (s : State) (p : ℕ) (v : AudPort) (h : s0.Keeps m s) (w : Within 0x2000000 m := by exact Within.of (by assumption) (by decide)) :
    s0.Keeps m (State.setAudPort s p v) := by
  unfold State.setAudPort
  with_reducible apply State.setAud_keeps (w := w.of (by decide))
  with_reducible assumption

theorem State.audReport_keeps {m : Nat} {s0 : State} (s : State) (p : ℕ) (code : ℕ) (h : s0.Keeps m s) (w : Within 0x8 m := by exact Within.of (by assumption) (by decide)) :
    s0.Keeps m (State.audReport s p code) := by
  unfold State.audReport
  extract_lets a0
  have k1 : s0.Keeps m a0 := by
    unfold a0
    with_reducible apply State.wr_keeps (w := w.of (by decide))
    with_reducible apply State.wr_keeps (w := w.of (by decide))
    with_reducible assumption
  clear_value a0
  split
  · with_reducible apply State.irq_keeps (w := w.of (by decide))
    with_reducible assumption
  · split
    · with_reducible apply State.irq_keeps (w := w.of (by decide))
      with_reducible assumption
    · with_reducible apply State.irq_keeps (w := w.of (by decide))
      with_reducible assumption

theorem State.noteNa_keeps {m : Nat} {s0 : State} (s : State) (p : ℕ) (h : s0.Keeps m s) (w : Within 0x8 m := by exact Within.of (by assumption) (by decide)) :
    s0.Keeps m (State.noteNa s p) := by
  unfold State.noteNa
  extract_lets a0 a1 a2 a3
  clear_value a0
  clear_value a1
  clear_value a2
  have k4 : s0.Keeps m a3 := by
    unfold a3
    with_reducible apply State.wr_keeps (w := w.of (by decide))
    with_reducible assumption
  clear_value a3
  split
  · with_reducible apply State.audReport_keeps (w := w.of (by decide))
    with_reducible assumption
  · with_reducible assumption

theorem State.audDrain_keeps {m : Nat} {s0 : State} (s : State) (p : ℕ) (h : s0.Keeps m s) (w : Within 0x6005118 m := by exact Within.of (by assumption) (by decide)) :
    s0.Keeps m (State.audDrain s p) := by
  unfold State.audDrain
  split
  · with_reducible assumption
  · extract_lets a0 a1
    have k2 : s0.Keeps m a0.2 := by
      unfold a0
      with_reducible apply State.sourceDrain_keeps (w := w.of (by decide))
      with_reducible assumption
    clear_value a0
    clear_value a1
    with_reducible apply State.setAudPort_keeps (w := w.of (by decide))
    with_reducible assumption

theorem State.audReceive_keeps {m : Nat} {s0 : State} (s : State) (p : ℕ) (x : List ℕ) (shut : Bool) (h : s0.Keeps m s) (w : Within 0x6005198 m := by exact Within.of (by assumption) (by decide)) :
    s0.Keeps m (State.audReceive s p x shut) := by
  unfold State.audReceive
  split
  · with_reducible assumption
  · extract_lets a0 a1 a2 a3 a4 a5 a6 a7
    clear_value a0
    have k8 : s0.Keeps m a1 := by
      unfold a1
      split
      · with_reducible apply State.maybeSwitch_keeps (w := w.of (by decide))
        with_reducible assumption
      · with_reducible assumption
    clear_value a1
    clear_value a2
    clear_value a3
    clear_value a4
    clear_value a5
    clear_value a6
    have k9 : s0.Keeps m a7.2 := by
      unfold a7
      with_reducible apply State.sourcePush_keeps (w := w.of (by decide))
      with_reducible assumption
    clear_value a7
    split
    · with_reducible assumption
    · split
      · with_reducible apply State.setAudPort_keeps (w := w.of (by decide))
        with_reducible assumption
      · with_reducible apply State.setAudPort_keeps (w := w.of (by decide))
        with_reducible assumption

theorem State.audSend_keeps {m : Nat} {s0 : State} (s : State) (p : ℕ) (h : s0.Keeps m s) (w : Within 0x2000008 m := by exact Within.of (by assumption) (by decide)) :
    s0.Keeps m (State.audSend s p) := by
  unfold State.audSend
  extract_lets a0 a1 a2 a3 a4 a5 a6 a7 a8 a9 a10 a11 a12 a13 a14 a15 a16 a17 a18 a19
  clear_value a0
  clear_value a1
  clear_value a2
  clear_value a3
  clear_value a4
  clear_value a5
  clear_value a6
  have k20 : s0.Keeps m a7 := by
    unfold a7
    split
    · with_reducible assumption
    · with_reducible apply State.inc_keeps (w := w.of (by decide))
      with_reducible assumption
  clear_value a7
  clear_value a8
  have k21 : s0.Keeps m a9 := by
    unfold a9
    split
    · with_reducible apply State.audReport_keeps (w := w.of (by decide))
      with_reducible apply State.inc_keeps (w := w.of (by decide))
      with_reducible assumption
    · with_reducible assumption
  clear_value a9
  clear_value a10
  clear_value a11
  clear_value a12
  clear_value a13
  clear_value a14
  clear_value a15
  clear_value a16
  clear_value a17
  clear_value a18
  clear_value a19
  with_reducible apply State.setAudPort_keeps (w := w.of (by decide))
  with_reducible assumption

theorem State.audBegin_keeps {m : Nat} {s0 : State} (s : State) (p : ℕ) (h : s0.Keeps m s) (w : Within 0x2000008 m := by exact Within.of (by assumption) (by decide)) :
    s0.Keeps m (State.audBegin s p) := by
  unfold State.audBegin
  extract_lets a0 a1 a2 a3
  have k4 : s0.Keeps m a0 := by
    unfold a0
    with_reducible apply State.each_keeps
    · intro x5 x6 x7
      with_reducible apply State.wr_keeps (w := w.of (by decide))
      with_reducible assumption
    · with_reducible assumption
  clear_value a0
  clear_value a1
  clear_value a2
  have k8 : s0.Keeps m a3 := by
    unfold a3
    with_reducible apply State.wr_keeps (w := w.of (by decide))
    with_reducible apply State.wr_keeps (w := w.of (by decide))
    with_reducible apply State.wr_keeps (w := w.of (by decide))
    with_reducible assumption
  clear_value a3
  with_reducible apply State.setAudPort_keeps (w := w.of (by decide))
  with_reducible assumption

theorem State.audStop_keeps {m : Nat} {s0 : State} (s : State) (p : ℕ) (h : s0.Keeps m s) (w : Within 0x2000008 m := by exact Within.of (by assumption) (by decide)) :
    s0.Keeps m (State.audStop s p) := by
  unfold State.audStop
  extract_lets a0 a1
  clear_value a0
  have k2 : s0.Keeps m a1 := by
    unfold a1
    with_reducible apply State.setAudPort_keeps (w := w.of (by decide))
    with_reducible apply State.wr_keeps (w := w.of (by decide))
    with_reducible assumption
  clear_value a1
  split
  · with_reducible apply State.audBegin_keeps (w := w.of (by decide))
    with_reducible apply State.wr_keeps (w := w.of (by decide))
    with_reducible assumption
  · with_reducible assumption

theorem State.samplePeriod_keeps {m : Nat} {s0 : State} (s : State) (p : ℕ) (din : List Word) (h : s0.Keeps m s) (w : Within 0x6005198 m := by exact Within.of (by assumption) (by decide)) :
    s0.Keeps m (State.samplePeriod s p din) := by
  unfold State.samplePeriod
  extract_lets a0 a1 a2 a3 a4 a5 a6
  have k7 : s0.Keeps m a0 := by
    unfold a0
    with_reducible apply State.audDrain_keeps (w := w.of (by decide))
    with_reducible assumption
  clear_value a0
  clear_value a1
  clear_value a2
  clear_value a3
  clear_value a4
  clear_value a5
  clear_value a6
  split
  · with_reducible assumption
  · split
    · with_reducible assumption
    · extract_lets a8 a9 a10 a11 a12 a13 a14 a15 a16 a17 a18 a19
      have k20 : s0.Keeps m a8 := by
        unfold a8
        with_reducible apply State.setAudPort_keeps (w := w.of (by decide))
        with_reducible assumption
      clear_value a8
      have k21 : s0.Keeps m a9 := by
        unfold a9
        split
        · with_reducible apply State.wr_keeps (w := w.of (by decide))
          with_reducible assumption
        · with_reducible assumption
      clear_value a9
      clear_value a10
      have k22 : s0.Keeps m a11 := by
        unfold a11
        split
        · with_reducible apply State.inc_keeps (w := w.of (by decide))
          with_reducible assumption
        · with_reducible assumption
      clear_value a11
      clear_value a12
      clear_value a13
      clear_value a14
      clear_value a15
      have k23 : s0.Keeps m a16 := by
        unfold a16
        with_reducible apply State.setAudPort_keeps (w := w.of (by decide))
        with_reducible assumption
      clear_value a16
      clear_value a17
      clear_value a18
      have k24 : s0.Keeps m a19 := by
        unfold a19
        with_reducible apply State.noteNa_keeps (w := w.of (by decide))
        with_reducible apply State.audSend_keeps (w := w.of (by decide))
        with_reducible apply State.audReceive_keeps (w := w.of (by decide))
        with_reducible assumption
      clear_value a19
      split
      · with_reducible apply State.audStop_keeps (w := w.of (by decide))
        with_reducible assumption
      · with_reducible assumption

theorem State.audTake_keeps {m : Nat} {s0 : State} (s : State) (p : ℕ) (h : s0.Keeps m s) (w : Within 0x20001a8 m := by exact Within.of (by assumption) (by decide)) :
    s0.Keeps m (State.audTake s p) := by
  unfold State.audTake
  split
  · with_reducible assumption
  · split
    · with_reducible assumption
    · extract_lets a0 a1 a2 a3
      clear_value a0
      have k4 : s0.Keeps m a1.2 := by
        unfold a1
        with_reducible apply State.nextTile_keeps (w := w.of (by decide))
        with_reducible assumption
      clear_value a1
      clear_value a2
      clear_value a3
      split
      · with_reducible assumption
      · split
        · with_reducible assumption
        · extract_lets a5 a6 a7 a8 a9 a10 a11 a12
          clear_value a5
          have k13 : s0.Keeps m a6.2 := by
            unfold a6
            with_reducible apply State.checkTile_keeps (w := w.of (by decide))
            with_reducible apply State.maybeSwitch_keeps (w := w.of (by decide))
            with_reducible assumption
          clear_value a6
          clear_value a7
          clear_value a8
          clear_value a9
          clear_value a10
          clear_value a11
          have k14 : s0.Keeps m a12 := by
            unfold a12
            split
            · with_reducible assumption
            · with_reducible apply State.inc_keeps (w := w.of (by decide))
              with_reducible assumption
          clear_value a12
          split
          · with_reducible apply State.pop_keeps (w := w.of (by decide))
            with_reducible assumption
          · split
            · with_reducible apply State.pop_keeps (w := w.of (by decide))
              with_reducible apply State.audReport_keeps (w := w.of (by decide))
              with_reducible apply State.inc_keeps (w := w.of (by decide))
              with_reducible assumption
            · split
              · with_reducible assumption
              · with_reducible apply State.pop_keeps (w := w.of (by decide))
                with_reducible apply State.setAudPort_keeps (w := w.of (by decide))
                with_reducible assumption

theorem State.audStep_keeps {m : Nat} {s0 : State} (s : State) (d : ℤ) (h : s0.Keeps m s) (w : Within 0x2000008 m := by exact Within.of (by assumption) (by decide)) :
    s0.Keeps m (State.audStep s d) := by
  unfold State.audStep
  with_reducible apply State.each_keeps
  · intro x0 x1 x2
    extract_lets a3 a4 a5 a6
    clear_value a3
    clear_value a4
    clear_value a5
    clear_value a6
    split
    · with_reducible assumption
    · split
      · with_reducible apply State.wr_keeps (w := w.of (by decide))
        with_reducible apply State.setAudPort_keeps (w := w.of (by decide))
        with_reducible assumption
      · with_reducible apply State.audReport_keeps (w := w.of (by decide))
        with_reducible apply State.wr_keeps (w := w.of (by decide))
        with_reducible apply State.setAudPort_keeps (w := w.of (by decide))
        with_reducible assumption
  · with_reducible assumption

theorem State.audClock_keeps {m : Nat} {s0 : State} (s : State) (p : ℕ) (lost : Bool) (ppm : ℤ) (glitches : ℕ) (h : s0.Keeps m s) (w : Within 0x2000008 m := by exact Within.of (by assumption) (by decide)) :
    s0.Keeps m (State.audClock s p lost ppm glitches) := by
  unfold State.audClock
  split
  · with_reducible assumption
  · extract_lets a0 a1 a2 a3 a4 a5 a6 a7
    have k8 : s0.Keeps m a0 := by
      unfold a0
      with_reducible apply State.inc_keeps (w := w.of (by decide))
      with_reducible assumption
    clear_value a0
    clear_value a1
    clear_value a2
    have k9 : s0.Keeps m a3 := by
      unfold a3
      split
      · with_reducible assumption
      · with_reducible apply State.wr_keeps (w := w.of (by decide))
        with_reducible assumption
    clear_value a3
    have k10 : s0.Keeps m a4 := by
      unfold a4
      with_reducible apply State.irq_keeps (w := w.of (by decide))
      with_reducible apply State.wr_keeps (w := w.of (by decide))
      with_reducible assumption
    clear_value a4
    clear_value a5
    clear_value a6
    have k11 : s0.Keeps m a7 := by
      unfold a7
      with_reducible apply State.audReport_keeps (w := w.of (by decide))
      with_reducible assumption
    clear_value a7
    split
    · with_reducible assumption
    · split
      · with_reducible apply State.wr_keeps (w := w.of (by decide))
        with_reducible apply State.setAudPort_keeps (w := w.of (by decide))
        with_reducible assumption
      · split
        · with_reducible apply State.wr_keeps (w := w.of (by decide))
          with_reducible apply State.setAudPort_keeps (w := w.of (by decide))
          with_reducible assumption
        · with_reducible assumption

theorem State.audGroupWrite_keeps {m : Nat} {s0 : State} (s : State) (g : ℕ) (val : Word) (h : s0.Keeps m s) (w : Within 0x8 m := by exact Within.of (by assumption) (by decide)) :
    s0.Keeps m (State.audGroupWrite s g val) := by
  unfold State.audGroupWrite
  extract_lets a0 a1
  have k2 : s0.Keeps m a0 := by
    unfold a0
    with_reducible apply State.plainWrite_keeps (w := w.of (by decide))
    with_reducible assumption
  clear_value a0
  clear_value a1
  split
  · with_reducible apply State.wr_keeps (w := w.of (by decide))
    with_reducible assumption
  · with_reducible assumption

theorem State.audCtrl_keeps {m : Nat} {s0 : State} (s : State) (p : ℕ) (val : Word) (h : s0.Keeps m s) (w : Within 0x2000008 m := by exact Within.of (by assumption) (by decide)) :
    s0.Keeps m (State.audCtrl s p val) := by
  unfold State.audCtrl
  extract_lets a0 a1 a2 a3 a4 a5 a6 a7 a8
  clear_value a0
  clear_value a1
  clear_value a2
  clear_value a3
  clear_value a4
  have k9 : s0.Keeps m a5 := by
    unfold a5
    with_reducible apply State.plainWrite_keeps (w := w.of (by decide))
    with_reducible assumption
  clear_value a5
  have k10 : s0.Keeps m a6 := by
    unfold a6
    with_reducible assumption
  clear_value a6
  have k11 : s0.Keeps m a7 := by
    unfold a7
    split
    · with_reducible apply State.setAudPort_keeps (w := w.of (by decide))
      with_reducible assumption
    · with_reducible assumption
  clear_value a7
  have k12 : s0.Keeps m a8 := by
    unfold a8
    with_reducible apply State.wr_keeps (w := w.of (by decide))
    with_reducible assumption
  clear_value a8
  split
  · with_reducible apply State.audReport_keeps (w := w.of (by decide))
    with_reducible assumption
  · split
    · split
      · with_reducible apply State.wr_keeps (w := w.of (by decide))
        with_reducible assumption
      · with_reducible apply State.audBegin_keeps (w := w.of (by decide))
        with_reducible assumption
    · split
      · split
        · with_reducible apply State.wr_keeps (w := w.of (by decide))
          with_reducible apply State.setAudPort_keeps (w := w.of (by decide))
          with_reducible assumption
        · with_reducible assumption
      · with_reducible assumption

theorem State.zcTimeout_keeps {m : Nat} {s0 : State} (s : State) (p : ℕ) (k : ℕ) (h : s0.Keeps m s) (w : Within 0x2000008 m := by exact Within.of (by assumption) (by decide)) :
    s0.Keeps m (State.zcTimeout s p k) := by
  unfold State.zcTimeout
  extract_lets a0 a1
  clear_value a0
  clear_value a1
  split
  · with_reducible assumption
  · split
    · with_reducible assumption
    · extract_lets a2 a3
      clear_value a2
      have k4 : s0.Keeps m a3 := by
        unfold a3
        with_reducible apply State.inc_keeps (w := w.of (by decide))
        with_reducible apply State.setAudPort_keeps (w := w.of (by decide))
        with_reducible assumption
      clear_value a3
      split
      · with_reducible assumption
      · with_reducible apply State.audReport_keeps (w := w.of (by decide))
        with_reducible assumption

theorem State.audStart_keeps {m : Nat} {s0 : State} (s : State) (n : Node) (h : s0.Keeps m s) (w : Within 0x2000100 m := by exact Within.of (by assumption) (by decide)) :
    s0.Keeps m (State.audStart s n) := by
  unfold State.audStart
  extract_lets a0 a1 a2 a3
  clear_value a0
  clear_value a1
  have k4 : s0.Keeps m a2 := by
    unfold a2
    with_reducible apply State.setAudPort_keeps (w := w.of (by decide))
    with_reducible assumption
  clear_value a2
  clear_value a3
  split
  · with_reducible apply State.setHq_keeps (w := w.of (by decide))
    with_reducible assumption
  · with_reducible apply State.setAudPort_keeps (w := w.of (by decide))
    with_reducible assumption

theorem State.audNodeStop_keeps {m : Nat} {s0 : State} (s : State) (n : Node) (h : s0.Keeps m s) (w : Within 0x2000008 m := by exact Within.of (by assumption) (by decide)) :
    s0.Keeps m (State.audNodeStop s n) := by
  unfold State.audNodeStop
  extract_lets a0 a1
  clear_value a0
  clear_value a1
  split
  · with_reducible apply State.setAudPort_keeps (w := w.of (by decide))
    with_reducible apply State.inc_keeps (w := w.of (by decide))
    with_reducible assumption
  · with_reducible apply State.setAudPort_keeps (w := w.of (by decide))
    with_reducible assumption

theorem execSamplePeriod_keeps {m : Nat} {s0 : State} (port : Fin 4) (din : List Word) (s : State) (h : s0.Keeps m s) {t : State} (e : execSamplePeriod port din s = .next t) (w : Within 0x6005198 m := by exact Within.of (by assumption) (by decide)) :
    s0.Keeps m t := by
  unfold execSamplePeriod at e
  injection e with e
  subst e
  with_reducible apply State.samplePeriod_keeps (w := w.of (by decide))
  with_reducible assumption

theorem execAudTxTile_keeps {m : Nat} {s0 : State} (port : Fin 4) (s : State) (h : s0.Keeps m s) {t : State} (e : execAudTxTile port s = .next t) (w : Within 0x20001a8 m := by exact Within.of (by assumption) (by decide)) :
    s0.Keeps m t := by
  unfold execAudTxTile at e
  injection e with e
  subst e
  with_reducible apply State.audTake_keeps (w := w.of (by decide))
  with_reducible assumption

theorem execAudPortEnable_keeps {m : Nat} {s0 : State} (src : Agent) (port : Fin 4) (val : Word) (s : State) (h : s0.Keeps m s) {t : State} (e : execAudPortEnable src port val s = .next t) (w : Within 0x2008008 m := by exact Within.of (by assumption) (by decide)) :
    s0.Keeps m t := by
  unfold execAudPortEnable at e
  injection e with e
  subst e
  with_reducible apply State.writeReg_keeps (w := w.of (by decide))
  · with_reducible assumption
  · intro x0 x1
    with_reducible apply State.audCtrl_keeps (w := w.of (by decide))
    with_reducible assumption

theorem execTxMute_keeps {m : Nat} {s0 : State} (src : Agent) (port : Fin 4) (val : Word) (s : State) (h : s0.Keeps m s) {t : State} (e : execTxMute src port val s = .next t) (w : Within 0x2008008 m := by exact Within.of (by assumption) (by decide)) :
    s0.Keeps m t := by
  unfold execTxMute at e
  injection e with e
  subst e
  with_reducible apply State.writeReg_keeps (w := w.of (by decide))
  · with_reducible assumption
  · intro x0 x1
    with_reducible apply State.audCtrl_keeps (w := w.of (by decide))
    with_reducible assumption

theorem execZcTimeout_keeps {m : Nat} {s0 : State} (port : Fin 4) (slot : Fin 32) (s : State) (h : s0.Keeps m s) {t : State} (e : execZcTimeout port slot s = .next t) (w : Within 0x2000008 m := by exact Within.of (by assumption) (by decide)) :
    s0.Keeps m t := by
  unfold execZcTimeout at e
  injection e with e
  subst e
  with_reducible apply State.zcTimeout_keeps (w := w.of (by decide))
  with_reducible assumption

theorem execAudClockChange_keeps {m : Nat} {s0 : State} (port : Fin 4) (lost : Bool) (ppm : ℤ) (glitches : ℕ) (s : State) (h : s0.Keeps m s) {t : State} (e : execAudClockChange port lost ppm glitches s = .next t) (w : Within 0x2000008 m := by exact Within.of (by assumption) (by decide)) :
    s0.Keeps m t := by
  unfold execAudClockChange at e
  injection e with e
  subst e
  with_reducible apply State.audClock_keeps (w := w.of (by decide))
  with_reducible assumption

theorem execAudGroupWrite_keeps {m : Nat} {s0 : State} (src : Agent) (group : Fin 4) (val : Word) (s : State) (h : s0.Keeps m s) {t : State} (e : execAudGroupWrite src group val s = .next t) (w : Within 0x8008 m := by exact Within.of (by assumption) (by decide)) :
    s0.Keeps m t := by
  unfold execAudGroupWrite at e
  injection e with e
  subst e
  with_reducible apply State.writeReg_keeps (w := w.of (by decide))
  · with_reducible assumption
  · intro x0 x1
    with_reducible apply State.audGroupWrite_keeps (w := w.of (by decide))
    with_reducible assumption

theorem State.audRegWrite_keeps {m : Nat} {s0 : State} (s : State) (o : ℕ) (val : Word) (h : s0.Keeps m s) (w : Within 0x2000008 m := by exact Within.of (by assumption) (by decide)) :
    s0.Keeps m (State.audRegWrite s o val) := by
  unfold State.audRegWrite
  extract_lets a0
  clear_value a0
  split
  · with_reducible apply State.audGroupWrite_keeps (w := w.of (by decide))
    with_reducible assumption
  · split
    · with_reducible apply State.audCtrl_keeps (w := w.of (by decide))
      with_reducible assumption
    · split
      · split
        · with_reducible apply State.plainWrite_keeps (w := w.of (by decide))
          with_reducible assumption
        · with_reducible apply State.audReport_keeps (w := w.of (by decide))
          with_reducible assumption
      · with_reducible apply State.plainWrite_keeps (w := w.of (by decide))
        with_reducible assumption

end Sys2Proof.Machine
end

