-- ==== Sys2Proof/Laws/KeepsPtp.lean ====
section
/-! SUPPORT. The operations of Machine/Ptp.lean keep the queue and the invariant (`State.Keeps`). -/

namespace Sys2Proof.Machine

set_option Elab.async false
set_option linter.unusedVariables false

theorem State.setTpoOf_keeps {m : Nat} {s0 : State} (s : State) (n : ℕ) (v : TpoState) (h : s0.Keeps m s) (w : Within 0x20000 m := by exact Within.of (by assumption) (by decide)) :
    s0.Keeps m (State.setTpoOf s n v) := by
  unfold State.setTpoOf
  with_reducible apply State.setTpo_keeps (w := w.of (by decide))
  with_reducible assumption

theorem State.ptpReport_keeps {m : Nat} {s0 : State} (s : State) (code : ℕ) (h : s0.Keeps m s) (w : Within 0x8 m := by exact Within.of (by assumption) (by decide)) :
    s0.Keeps m (State.ptpReport s code) := by
  unfold State.ptpReport
  with_reducible apply State.irq_keeps (w := w.of (by decide))
  with_reducible apply State.wr_keeps (w := w.of (by decide))
  with_reducible assumption

theorem State.ptpState_keeps {m : Nat} {s0 : State} (s : State) (st : ℕ) (h : s0.Keeps m s) (w : Within 0x10008 m := by exact Within.of (by assumption) (by decide)) :
    s0.Keeps m (State.ptpState s st) := by
  unfold State.ptpState
  extract_lets a0 a1
  clear_value a0
  have k2 : s0.Keeps m a1 := by
    unfold a1
    split
    · with_reducible apply State.setPtp_keeps (w := w.of (by decide))
      with_reducible assumption
    · with_reducible assumption
  clear_value a1
  split
  · with_reducible assumption
  · with_reducible apply State.irq_keeps (w := w.of (by decide))
    with_reducible apply State.wr_keeps (w := w.of (by decide))
    with_reducible assumption

theorem State.toHoldover_keeps {m : Nat} {s0 : State} (s : State) (h : s0.Keeps m s) (w : Within 0x10008 m := by exact Within.of (by assumption) (by decide)) :
    s0.Keeps m (State.toHoldover s) := by
  unfold State.toHoldover
  extract_lets a0
  clear_value a0
  split
  · with_reducible apply State.ptpState_keeps (w := w.of (by decide))
    with_reducible assumption
  · with_reducible assumption

theorem State.tpoReport_keeps {m : Nat} {s0 : State} (s : State) (n : ℕ) (code : ℕ) (h : s0.Keeps m s) (w : Within 0x8 m := by exact Within.of (by assumption) (by decide)) :
    s0.Keeps m (State.tpoReport s n code) := by
  unfold State.tpoReport
  with_reducible apply State.ptpReport_keeps (w := w.of (by decide))
  with_reducible apply State.wr_keeps (w := w.of (by decide))
  with_reducible assumption

theorem State.tpoStep_keeps {m : Nat} {s0 : State} (s : State) (h : s0.Keeps m s) (w : Within 0x20008 m := by exact Within.of (by assumption) (by decide)) :
    s0.Keeps m (State.tpoStep s) := by
  unfold State.tpoStep
  with_reducible apply State.each_keeps
  · intro x0 x1 x2
    extract_lets a3 a4 a5
    clear_value a3
    clear_value a4
    clear_value a5
    split
    · with_reducible assumption
    · split
      · with_reducible apply State.tpoReport_keeps (w := w.of (by decide))
        with_reducible apply State.inc_keeps (w := w.of (by decide))
        with_reducible apply State.setTpoOf_keeps (w := w.of (by decide))
        with_reducible assumption
      · split
        · split
          · with_reducible assumption
          · with_reducible apply State.tpoReport_keeps (w := w.of (by decide))
            with_reducible apply State.inc_keeps (w := w.of (by decide))
            with_reducible apply State.setTpoOf_keeps (w := w.of (by decide))
            with_reducible assumption
        · with_reducible assumption
  · with_reducible assumption

theorem State.tpoCtrl_keeps {m : Nat} {s0 : State} (s : State) (n : ℕ) (val : Word) (h : s0.Keeps m s) (w : Within 0x20008 m := by exact Within.of (by assumption) (by decide)) :
    s0.Keeps m (State.tpoCtrl s n val) := by
  unfold State.tpoCtrl
  extract_lets a0 a1 a2 a3 a4 a5 a6 a7
  clear_value a0
  clear_value a1
  clear_value a2
  clear_value a3
  clear_value a4
  clear_value a5
  have k8 : s0.Keeps m a6 := by
    unfold a6
    with_reducible apply State.plainWrite_keeps (w := w.of (by decide))
    with_reducible assumption
  clear_value a6
  clear_value a7
  split
  · with_reducible apply State.tpoReport_keeps (w := w.of (by decide))
    with_reducible assumption
  · split
    · with_reducible apply State.tpoReport_keeps (w := w.of (by decide))
      with_reducible assumption
    · split
      · with_reducible apply State.setTpoOf_keeps (w := w.of (by decide))
        with_reducible assumption
      · with_reducible assumption

theorem State.tpoPulse_keeps {m : Nat} {s0 : State} (s : State) (n : ℕ) (h : s0.Keeps m s) (w : Within 0x20000 m := by exact Within.of (by assumption) (by decide)) :
    s0.Keeps m (State.tpoPulse s n) := by
  unfold State.tpoPulse
  extract_lets a0 a1
  clear_value a0
  clear_value a1
  split
  · with_reducible assumption
  · split
    · with_reducible apply State.setTpoOf_keeps (w := w.of (by decide))
      with_reducible assumption
    · split
      · with_reducible apply State.setTpoOf_keeps (w := w.of (by decide))
        with_reducible assumption
      · with_reducible assumption

theorem State.tpoCapture_keeps {m : Nat} {s0 : State} (s : State) (n : ℕ) (h : s0.Keeps m s) (w : Within 0x8 m := by exact Within.of (by assumption) (by decide)) :
    s0.Keeps m (State.tpoCapture s n) := by
  unfold State.tpoCapture
  split
  · extract_lets a0
    clear_value a0
    with_reducible apply State.incWrap_keeps (w := w.of (by decide))
    with_reducible apply State.wr_keeps (w := w.of (by decide))
    with_reducible apply State.wr_keeps (w := w.of (by decide))
    with_reducible apply State.wr_keeps (w := w.of (by decide))
    with_reducible assumption
  · with_reducible assumption

theorem State.stepReading_keeps {m : Nat} {s0 : State} (s : State) (d : ℤ) (h : s0.Keeps m s) (w : Within 0x3030008 m := by exact Within.of (by assumption) (by decide)) :
    s0.Keeps m (State.stepReading s d) := by
  unfold State.stepReading
  extract_lets a0 a1 a2 a3
  clear_value a0
  have k4 : s0.Keeps m a1 := by
    unfold a1
    with_reducible apply State.setPtp_keeps (w := w.of (by decide))
    with_reducible assumption
  clear_value a1
  have k5 : s0.Keeps m a2 := by
    unfold a2
    with_reducible apply State.ptpReport_keeps (w := w.of (by decide))
    with_reducible apply State.inc_keeps (w := w.of (by decide))
    with_reducible assumption
  clear_value a2
  have k6 : s0.Keeps m a3 := by
    unfold a3
    with_reducible apply State.tpoStep_keeps (w := w.of (by decide))
    with_reducible apply State.each_keeps
    · intro x7 x8 x9
      with_reducible apply State.refreshGates_keeps (w := w.of (by decide))
      with_reducible assumption
    · with_reducible assumption
  clear_value a3
  with_reducible apply State.audStep_keeps (w := w.of (by decide))
  with_reducible assumption

theorem State.countMeasure_keeps {m : Nat} {s0 : State} (s : State) (o : ℤ) (h : s0.Keeps m s) (w : Within 0x10008 m := by exact Within.of (by assumption) (by decide)) :
    s0.Keeps m (State.countMeasure s o) := by
  unfold State.countMeasure
  extract_lets a0 a1 a2 a3 a4 a5
  clear_value a0
  clear_value a1
  clear_value a2
  clear_value a3
  have k6 : s0.Keeps m a4 := by
    unfold a4
    with_reducible apply State.setPtp_keeps (w := w.of (by decide))
    with_reducible assumption
  clear_value a4
  clear_value a5
  split
  · with_reducible apply State.ptpState_keeps (w := w.of (by decide))
    with_reducible apply State.setPtp_keeps (w := w.of (by decide))
    with_reducible assumption
  · split
    · with_reducible apply State.ptpState_keeps (w := w.of (by decide))
      with_reducible assumption
    · with_reducible assumption

theorem State.servo_keeps {m : Nat} {s0 : State} (s : State) (o : ℤ) (ts : ℚ) (h : s0.Keeps m s) (w : Within 0x3030008 m := by exact Within.of (by assumption) (by decide)) :
    s0.Keeps m (State.servo s o ts) := by
  unfold State.servo
  extract_lets a0 a1 a2 a3 a4 a5 a6 a7 a8 a9
  clear_value a0
  have k10 : s0.Keeps m a1 := by
    unfold a1
    with_reducible apply State.wr_keeps (w := w.of (by decide))
    with_reducible assumption
  clear_value a1
  clear_value a2
  clear_value a3
  clear_value a4
  clear_value a5
  clear_value a6
  clear_value a7
  clear_value a8
  have k11 : s0.Keeps m a9 := by
    unfold a9
    split
    · with_reducible apply State.setPtp_keeps (w := w.of (by decide))
      with_reducible apply State.stepReading_keeps (w := w.of (by decide))
      with_reducible assumption
    · with_reducible apply State.setRate_keeps (w := w.of (by decide))
      with_reducible apply State.setPtp_keeps (w := w.of (by decide))
      with_reducible assumption
  clear_value a9
  split
  · with_reducible assumption
  · with_reducible apply State.countMeasure_keeps (w := w.of (by decide))
    with_reducible assumption

theorem State.ptpSend_keeps {m : Nat} {s0 : State} (s : State) (udp : ℕ) (msg : List Byte) (stamp : Option (ℕ × ℕ)) (h : s0.Keeps m s) (w : Within 0x1000008 m := by exact Within.of (by assumption) (by decide)) :
    s0.Keeps m (State.ptpSend s udp msg stamp) := by
  unfold State.ptpSend
  extract_lets a0 a1
  clear_value a0
  clear_value a1
  with_reducible apply State.offerFrame_keeps (w := w.of (by decide))
  with_reducible assumption

theorem State.ptpSent_keeps {m : Nat} {s0 : State} (s : State) (type : ℕ) (seq : ℕ) (u : ℤ) (h : s0.Keeps m s) (w : Within 0x1010008 m := by exact Within.of (by assumption) (by decide)) :
    s0.Keeps m (State.ptpSent s type seq u) := by
  unfold State.ptpSent
  extract_lets a0 a1 a2
  clear_value a0
  have k3 : s0.Keeps m a1 := by
    unfold a1
    with_reducible apply State.setPtp_keeps (w := w.of (by decide))
    with_reducible assumption
  clear_value a1
  clear_value a2
  split
  · with_reducible apply State.setPtp_keeps (w := w.of (by decide))
    with_reducible assumption
  · split
    · with_reducible apply State.ptpSend_keeps (w := w.of (by decide))
      with_reducible assumption
    · with_reducible assumption

theorem State.ptpSync_keeps {m : Nat} {s0 : State} (s : State) (mx : PtpMsg) (h : s0.Keeps m s) (w : Within 0x10008 m := by exact Within.of (by assumption) (by decide)) :
    s0.Keeps m (State.ptpSync s mx) := by
  unfold State.ptpSync
  split
  · with_reducible assumption
  · extract_lets a0 a1
    have k2 : s0.Keeps m a0 := by
      unfold a0
      with_reducible apply State.inc_keeps (w := w.of (by decide))
      with_reducible assumption
    clear_value a0
    clear_value a1
    split
    · with_reducible apply State.setPtp_keeps (w := w.of (by decide))
      with_reducible assumption
    · with_reducible apply State.setPtp_keeps (w := w.of (by decide))
      with_reducible assumption

theorem State.ptpFollowUp_keeps {m : Nat} {s0 : State} (s : State) (mx : PtpMsg) (h : s0.Keeps m s) (w : Within 0x10000 m := by exact Within.of (by assumption) (by decide)) :
    s0.Keeps m (State.ptpFollowUp s mx) := by
  unfold State.ptpFollowUp
  split
  · split
    · with_reducible apply State.setPtp_keeps (w := w.of (by decide))
      with_reducible assumption
    · with_reducible assumption
  · with_reducible assumption

theorem State.ptpDelayResp_keeps {m : Nat} {s0 : State} (s : State) (mx : PtpMsg) (h : s0.Keeps m s) (w : Within 0x3030008 m := by exact Within.of (by assumption) (by decide)) :
    s0.Keeps m (State.ptpDelayResp s mx) := by
  unfold State.ptpDelayResp
  split
  · split
    · extract_lets a0 a1 a2 a3
      clear_value a0
      clear_value a1
      have k4 : s0.Keeps m a2 := by
        unfold a2
        with_reducible apply State.setPtp_keeps (w := w.of (by decide))
        with_reducible assumption
      clear_value a2
      have k5 : s0.Keeps m a3 := by
        unfold a3
        with_reducible apply State.wr_keeps (w := w.of (by decide))
        with_reducible assumption
      clear_value a3
      split
      · with_reducible apply State.servo_keeps (w := w.of (by decide))
        with_reducible assumption
      · with_reducible assumption
    · with_reducible assumption
  · with_reducible assumption

theorem State.ptpDelayReq_keeps {m : Nat} {s0 : State} (s : State) (h : s0.Keeps m s) (w : Within 0x1010008 m := by exact Within.of (by assumption) (by decide)) :
    s0.Keeps m (State.ptpDelayReq s) := by
  unfold State.ptpDelayReq
  split
  · with_reducible assumption
  · extract_lets a0 a1 a2
    clear_value a0
    clear_value a1
    have k3 : s0.Keeps m a2 := by
      unfold a2
      with_reducible apply State.setPtp_keeps (w := w.of (by decide))
      with_reducible assumption
    clear_value a2
    with_reducible apply State.ptpSend_keeps (w := w.of (by decide))
    with_reducible assumption

theorem State.ptpAnswer_keeps {m : Nat} {s0 : State} (s : State) (mx : PtpMsg) (h : s0.Keeps m s) (w : Within 0x1000008 m := by exact Within.of (by assumption) (by decide)) :
    s0.Keeps m (State.ptpAnswer s mx) := by
  unfold State.ptpAnswer
  split
  · with_reducible assumption
  · with_reducible apply State.ptpSend_keeps (w := w.of (by decide))
    with_reducible assumption

theorem State.ptpMasterSend_keeps {m : Nat} {s0 : State} (s : State) (announce : Bool) (h : s0.Keeps m s) (w : Within 0x1010008 m := by exact Within.of (by assumption) (by decide)) :
    s0.Keeps m (State.ptpMasterSend s announce) := by
  unfold State.ptpMasterSend
  split
  · with_reducible assumption
  · extract_lets a0 a1 a2 a3 a4
    clear_value a0
    clear_value a1
    have k5 : s0.Keeps m a2 := by
      unfold a2
      with_reducible apply State.setPtp_keeps (w := w.of (by decide))
      with_reducible assumption
    clear_value a2
    clear_value a3
    clear_value a4
    split
    · with_reducible apply State.ptpSend_keeps (w := w.of (by decide))
      with_reducible assumption
    · with_reducible apply State.ptpSend_keeps (w := w.of (by decide))
      with_reducible assumption

theorem State.takeAnnounce_keeps {m : Nat} {s0 : State} (s : State) (a : AnnounceData) (h : s0.Keeps m s) (w : Within 0x8 m := by exact Within.of (by assumption) (by decide)) :
    s0.Keeps m (State.takeAnnounce s a) := by
  unfold State.takeAnnounce
  extract_lets a0 a1
  have k2 : s0.Keeps m a0 := by
    unfold a0
    with_reducible apply State.wr_keeps (w := w.of (by decide))
    with_reducible apply State.wr_keeps (w := w.of (by decide))
    with_reducible assumption
  clear_value a0
  have k3 : s0.Keeps m a1 := by
    unfold a1
    with_reducible apply State.wrB_keeps (w := w.of (by decide))
    with_reducible apply State.wr_keeps (w := w.of (by decide))
    with_reducible assumption
  clear_value a1
  split
  · with_reducible apply State.wrB_keeps (w := w.of (by decide))
    with_reducible apply State.wr_keeps (w := w.of (by decide))
    with_reducible assumption
  · with_reducible assumption

theorem State.bmca_keeps {m : Nat} {s0 : State} (s : State) (h : s0.Keeps m s) (w : Within 0x10008 m := by exact Within.of (by assumption) (by decide)) :
    s0.Keeps m (State.bmca s) := by
  unfold State.bmca
  split
  · with_reducible assumption
  · split
    · with_reducible apply State.wr_keeps (w := w.of (by decide))
      with_reducible apply State.setPtp_keeps (w := w.of (by decide))
      with_reducible assumption
    · extract_lets a0 a1 a2 a3 a4
      clear_value a0
      have k5 : s0.Keeps m a1 := by
        unfold a1
        with_reducible apply State.takeAnnounce_keeps (w := w.of (by decide))
        with_reducible apply State.wr_keeps (w := w.of (by decide))
        with_reducible assumption
      clear_value a1
      clear_value a2
      have k6 : s0.Keeps m a3 := by
        unfold a3
        with_reducible apply State.setPtp_keeps (w := w.of (by decide))
        with_reducible assumption
      clear_value a3
      have k7 : s0.Keeps m a4 := by
        unfold a4
        split
        · with_reducible apply State.ptpState_keeps (w := w.of (by decide))
          with_reducible assumption
        · with_reducible assumption
      clear_value a4
      split
      · with_reducible assumption
      · split
        · with_reducible apply State.ptpReport_keeps (w := w.of (by decide))
          with_reducible assumption
        · with_reducible assumption

theorem State.ptpAnnounce_keeps {m : Nat} {s0 : State} (s : State) (mx : PtpMsg) (a : AnnounceData) (h : s0.Keeps m s) (w : Within 0x10008 m := by exact Within.of (by assumption) (by decide)) :
    s0.Keeps m (State.ptpAnnounce s mx a) := by
  unfold State.ptpAnnounce
  split
  · with_reducible assumption
  · extract_lets a0 a1 a2 a3
    clear_value a0
    clear_value a1
    clear_value a2
    clear_value a3
    with_reducible apply State.bmca_keeps (w := w.of (by decide))
    with_reducible apply State.setPtp_keeps (w := w.of (by decide))
    with_reducible assumption

theorem State.ptpMasterLost_keeps {m : Nat} {s0 : State} (s : State) (h : s0.Keeps m s) (w : Within 0x10008 m := by exact Within.of (by assumption) (by decide)) :
    s0.Keeps m (State.ptpMasterLost s) := by
  unfold State.ptpMasterLost
  split
  · with_reducible assumption
  · split
    · split
      · with_reducible apply State.wr_keeps (w := w.of (by decide))
        with_reducible assumption
      · with_reducible assumption
    · extract_lets a0 a1 a2 a3 a4 a5 a6
      clear_value a0
      have k7 : s0.Keeps m a1 := by
        unfold a1
        with_reducible apply State.setPtp_keeps (w := w.of (by decide))
        with_reducible assumption
      clear_value a1
      have k8 : s0.Keeps m a2 := by
        unfold a2
        with_reducible apply State.bmca_keeps (w := w.of (by decide))
        with_reducible assumption
      clear_value a2
      clear_value a3
      have k9 : s0.Keeps m a4 := by
        unfold a4
        with_reducible apply State.setPtp_keeps (w := w.of (by decide))
        with_reducible assumption
      clear_value a4
      have k10 : s0.Keeps m a5 := by
        unfold a5
        with_reducible apply State.ptpReport_keeps (w := w.of (by decide))
        with_reducible assumption
      clear_value a5
      have k11 : s0.Keeps m a6 := by
        unfold a6
        split
        · with_reducible apply State.toHoldover_keeps (w := w.of (by decide))
          with_reducible assumption
        · with_reducible assumption
      clear_value a6
      split
      · with_reducible assumption
      · split
        · with_reducible apply State.wr_keeps (w := w.of (by decide))
          with_reducible assumption
        · with_reducible assumption

theorem State.ppsLose_keeps {m : Nat} {s0 : State} (s : State) (clk : ℕ) (h : s0.Keeps m s) (w : Within 0x10008 m := by exact Within.of (by assumption) (by decide)) :
    s0.Keeps m (State.ppsLose s clk) := by
  unfold State.ppsLose
  extract_lets a0 a1
  clear_value a0
  have k2 : s0.Keeps m a1 := by
    unfold a1
    with_reducible apply State.setPtp_keeps (w := w.of (by decide))
    with_reducible assumption
  clear_value a1
  split
  · with_reducible assumption
  · with_reducible apply State.toHoldover_keeps (w := w.of (by decide))
    with_reducible apply State.ptpReport_keeps (w := w.of (by decide))
    with_reducible apply State.wr_keeps (w := w.of (by decide))
    with_reducible assumption

theorem State.ppsEdge_keeps {m : Nat} {s0 : State} (s : State) (h : s0.Keeps m s) (w : Within 0x3030008 m := by exact Within.of (by assumption) (by decide)) :
    s0.Keeps m (State.ppsEdge s) := by
  unfold State.ppsEdge
  split
  · with_reducible assumption
  · extract_lets a0 a1 a2
    clear_value a0
    clear_value a1
    clear_value a2
    split
    · with_reducible apply State.setPtp_keeps (w := w.of (by decide))
      with_reducible assumption
    · extract_lets a3 a4 a5 a6 a7 a8 a9
      clear_value a3
      clear_value a4
      have k10 : s0.Keeps m a5 := by
        unfold a5
        with_reducible apply State.setPtp_keeps (w := w.of (by decide))
        with_reducible assumption
      clear_value a5
      have k11 : s0.Keeps m a6 := by
        unfold a6
        split
        · with_reducible apply State.inc_keeps (w := w.of (by decide))
          with_reducible assumption
        · with_reducible assumption
      clear_value a6
      clear_value a7
      have k12 : s0.Keeps m a8 := by
        unfold a8
        with_reducible apply State.setPtp_keeps (w := w.of (by decide))
        with_reducible assumption
      clear_value a8
      have k13 : s0.Keeps m a9 := by
        unfold a9
        split
        · with_reducible assumption
        · split
          · with_reducible apply State.ppsLose_keeps (w := w.of (by decide))
            with_reducible assumption
          · split
            · with_reducible assumption
            · with_reducible apply State.ptpState_keeps (w := w.of (by decide))
              with_reducible apply State.wr_keeps (w := w.of (by decide))
              with_reducible assumption
      clear_value a9
      split
      · with_reducible apply State.ppsLose_keeps (w := w.of (by decide))
        with_reducible assumption
      · split
        · with_reducible assumption
        · with_reducible apply State.servo_keeps (w := w.of (by decide))
          with_reducible assumption

theorem State.timeCmd_keeps {m : Nat} {s0 : State} (s : State) (val : Word) (h : s0.Keeps m s) (w : Within 0x3030008 m := by exact Within.of (by assumption) (by decide)) :
    s0.Keeps m (State.timeCmd s val) := by
  unfold State.timeCmd
  extract_lets a0 a1 a2 a3
  have k4 : s0.Keeps m a0 := by
    unfold a0
    split
    · with_reducible apply State.ptpState_keeps (w := w.of (by decide))
      with_reducible apply State.stepReading_keeps (w := w.of (by decide))
      with_reducible assumption
    · with_reducible assumption
  clear_value a0
  have k5 : s0.Keeps m a1 := by
    unfold a1
    split
    · with_reducible apply State.stepReading_keeps (w := w.of (by decide))
      with_reducible assumption
    · with_reducible assumption
  clear_value a1
  clear_value a2
  have k6 : s0.Keeps m a3 := by
    unfold a3
    with_reducible apply State.wr_keeps (w := w.of (by decide))
    with_reducible apply State.wr_keeps (w := w.of (by decide))
    with_reducible apply State.wr_keeps (w := w.of (by decide))
    with_reducible assumption
  clear_value a3
  split
  · with_reducible apply State.wr_keeps (w := w.of (by decide))
    with_reducible assumption
  · with_reducible assumption

theorem State.ptpCtrl_keeps {m : Nat} {s0 : State} (s : State) (val : Word) (h : s0.Keeps m s) (w : Within 0x10008 m := by exact Within.of (by assumption) (by decide)) :
    s0.Keeps m (State.ptpCtrl s val) := by
  unfold State.ptpCtrl
  extract_lets a0 a1 a2 a3 a4 a5
  clear_value a0
  clear_value a1
  have k6 : s0.Keeps m a2 := by
    unfold a2
    with_reducible apply State.plainWrite_keeps (w := w.of (by decide))
    with_reducible assumption
  clear_value a2
  have k7 : s0.Keeps m a3 := by
    unfold a3
    split
    · with_reducible assumption
    · with_reducible apply State.wr_keeps (w := w.of (by decide))
      with_reducible assumption
  clear_value a3
  clear_value a4
  have k8 : s0.Keeps m a5 := by
    unfold a5
    split
    · with_reducible assumption
    · with_reducible apply State.setPtp_keeps (w := w.of (by decide))
      with_reducible assumption
  clear_value a5
  split
  · with_reducible apply State.ptpReport_keeps (w := w.of (by decide))
    with_reducible assumption
  · split
    · with_reducible assumption
    · split
      · with_reducible apply State.ptpState_keeps (w := w.of (by decide))
        with_reducible assumption
      · split
        · with_reducible apply State.ptpState_keeps (w := w.of (by decide))
          with_reducible assumption
        · with_reducible apply State.toHoldover_keeps (w := w.of (by decide))
          with_reducible assumption

theorem State.ptpCfg_keeps {m : Nat} {s0 : State} (s : State) (val : Word) (h : s0.Keeps m s) (w : Within 0x8 m := by exact Within.of (by assumption) (by decide)) :
    s0.Keeps m (State.ptpCfg s val) := by
  unfold State.ptpCfg
  extract_lets a0 a1 a2
  clear_value a0
  clear_value a1
  clear_value a2
  split
  · with_reducible assumption
  · split
    · with_reducible apply State.ptpReport_keeps (w := w.of (by decide))
      with_reducible assumption
    · with_reducible apply State.plainWrite_keeps (w := w.of (by decide))
      with_reducible assumption

theorem State.ptpServo_keeps {m : Nat} {s0 : State} (s : State) (val : Word) (h : s0.Keeps m s) (w : Within 0x8 m := by exact Within.of (by assumption) (by decide)) :
    s0.Keeps m (State.ptpServo s val) := by
  unfold State.ptpServo
  split
  · with_reducible apply State.ptpReport_keeps (w := w.of (by decide))
    with_reducible assumption
  · with_reducible apply State.plainWrite_keeps (w := w.of (by decide))
    with_reducible assumption

theorem State.ptpRegWrite_keeps {m : Nat} {s0 : State} (s : State) (o : ℕ) (val : Word) (h : s0.Keeps m s) (w : Within 0x3030008 m := by exact Within.of (by assumption) (by decide)) :
    s0.Keeps m (State.ptpRegWrite s o val) := by
  unfold State.ptpRegWrite
  extract_lets a0 a1
  clear_value a0
  clear_value a1
  split
  · with_reducible apply State.ptpCtrl_keeps (w := w.of (by decide))
    with_reducible assumption
  · split
    · with_reducible apply State.ptpCfg_keeps (w := w.of (by decide))
      with_reducible assumption
    · split
      · with_reducible apply State.ptpServo_keeps (w := w.of (by decide))
        with_reducible assumption
      · split
        · with_reducible apply State.timeCmd_keeps (w := w.of (by decide))
          with_reducible assumption
        · split
          · split
            · with_reducible apply State.tpoCtrl_keeps (w := w.of (by decide))
              with_reducible assumption
            · split
              · with_reducible assumption
              · with_reducible apply State.plainWrite_keeps (w := w.of (by decide))
                with_reducible assumption
          · with_reducible apply State.plainWrite_keeps (w := w.of (by decide))
            with_reducible assumption

theorem State.frameTransmit_keeps {m : Nat} {s0 : State} (s : State) (p : ℕ) (h : s0.Keeps m s) (w : Within 0x1010008 m := by exact Within.of (by assumption) (by decide)) :
    s0.Keeps m (State.frameTransmit s p) := by
  unfold State.frameTransmit
  extract_lets a0
  have k1 : s0.Keeps m a0.2 := by
    unfold a0
    with_reducible apply State.transmit_keeps (w := w.of (by decide))
    with_reducible assumption
  clear_value a0
  split
  · with_reducible assumption
  · with_reducible apply State.pumpSenders_keeps (w := w.of (by decide))
    split
    · with_reducible apply State.ptpSent_keeps (w := w.of (by decide))
      with_reducible assumption
    · with_reducible assumption

theorem execFrameTransmit_keeps {m : Nat} {s0 : State} (port : Fin 8) (s : State) (h : s0.Keeps m s) {t : State} (e : execFrameTransmit port s = .next t) (w : Within 0x1010008 m := by exact Within.of (by assumption) (by decide)) :
    s0.Keeps m t := by
  unfold execFrameTransmit at e
  injection e with e
  subst e
  with_reducible apply State.frameTransmit_keeps (w := w.of (by decide))
  with_reducible assumption

theorem execSync_keeps {m : Nat} {s0 : State} (msg : PtpMsg) (s : State) (h : s0.Keeps m s) {t : State} (e : execSync msg s = .next t) (w : Within 0x10008 m := by exact Within.of (by assumption) (by decide)) :
    s0.Keeps m t := by
  unfold execSync at e
  injection e with e
  subst e
  with_reducible apply State.ptpSync_keeps (w := w.of (by decide))
  with_reducible assumption

theorem execFollowUp_keeps {m : Nat} {s0 : State} (msg : PtpMsg) (s : State) (h : s0.Keeps m s) {t : State} (e : execFollowUp msg s = .next t) (w : Within 0x10000 m := by exact Within.of (by assumption) (by decide)) :
    s0.Keeps m t := by
  unfold execFollowUp at e
  injection e with e
  subst e
  with_reducible apply State.ptpFollowUp_keeps (w := w.of (by decide))
  with_reducible assumption

theorem execDelayResp_keeps {m : Nat} {s0 : State} (msg : PtpMsg) (s : State) (h : s0.Keeps m s) {t : State} (e : execDelayResp msg s = .next t) (w : Within 0x3030008 m := by exact Within.of (by assumption) (by decide)) :
    s0.Keeps m t := by
  unfold execDelayResp at e
  injection e with e
  subst e
  with_reducible apply State.ptpDelayResp_keeps (w := w.of (by decide))
  with_reducible assumption

theorem execDelayReq_keeps {m : Nat} {s0 : State} (msg : PtpMsg) (s : State) (h : s0.Keeps m s) {t : State} (e : execDelayReq msg s = .next t) (w : Within 0x1000008 m := by exact Within.of (by assumption) (by decide)) :
    s0.Keeps m t := by
  unfold execDelayReq at e
  injection e with e
  subst e
  with_reducible apply State.ptpAnswer_keeps (w := w.of (by decide))
  with_reducible assumption

theorem execAnnounce_keeps {m : Nat} {s0 : State} (msg : PtpMsg) (data : AnnounceData) (s : State) (h : s0.Keeps m s) {t : State} (e : execAnnounce msg data s = .next t) (w : Within 0x10008 m := by exact Within.of (by assumption) (by decide)) :
    s0.Keeps m t := by
  unfold execAnnounce at e
  injection e with e
  subst e
  with_reducible apply State.ptpAnnounce_keeps (w := w.of (by decide))
  with_reducible assumption

theorem execPtpMasterLost_keeps {m : Nat} {s0 : State} (s : State) (h : s0.Keeps m s) {t : State} (e : execPtpMasterLost s = .next t) (w : Within 0x10008 m := by exact Within.of (by assumption) (by decide)) :
    s0.Keeps m t := by
  unfold execPtpMasterLost at e
  injection e with e
  subst e
  with_reducible apply State.ptpMasterLost_keeps (w := w.of (by decide))
  with_reducible assumption

theorem execPtpMasterSend_keeps {m : Nat} {s0 : State} (announce : Bool) (s : State) (h : s0.Keeps m s) {t : State} (e : execPtpMasterSend announce s = .next t) (w : Within 0x1010008 m := by exact Within.of (by assumption) (by decide)) :
    s0.Keeps m t := by
  unfold execPtpMasterSend at e
  injection e with e
  subst e
  with_reducible apply State.ptpMasterSend_keeps (w := w.of (by decide))
  with_reducible assumption

theorem execMinDelayReqInterval_keeps {m : Nat} {s0 : State} (s : State) (h : s0.Keeps m s) {t : State} (e : execMinDelayReqInterval s = .next t) (w : Within 0x1010008 m := by exact Within.of (by assumption) (by decide)) :
    s0.Keeps m t := by
  unfold execMinDelayReqInterval at e
  injection e with e
  subst e
  with_reducible apply State.ptpDelayReq_keeps (w := w.of (by decide))
  with_reducible assumption

theorem execPpsEdge_keeps {m : Nat} {s0 : State} (s : State) (h : s0.Keeps m s) {t : State} (e : execPpsEdge s = .next t) (w : Within 0x3030008 m := by exact Within.of (by assumption) (by decide)) :
    s0.Keeps m t := by
  unfold execPpsEdge at e
  injection e with e
  subst e
  with_reducible apply State.ppsEdge_keeps (w := w.of (by decide))
  with_reducible assumption

theorem execPpsLost_keeps {m : Nat} {s0 : State} (s : State) (h : s0.Keeps m s) {t : State} (e : execPpsLost s = .next t) (w : Within 0x10008 m := by exact Within.of (by assumption) (by decide)) :
    s0.Keeps m t := by
  unfold execPpsLost at e
  injection e with e
  subst e
  split
  · with_reducible apply State.ppsLose_keeps (w := w.of (by decide))
    with_reducible assumption
  · with_reducible assumption

theorem execSetTime_keeps {m : Nat} {s0 : State} (src : Agent) (val : Word) (s : State) (h : s0.Keeps m s) {t : State} (e : execSetTime src val s = .next t) (w : Within 0x3038008 m := by exact Within.of (by assumption) (by decide)) :
    s0.Keeps m t := by
  unfold execSetTime at e
  injection e with e
  subst e
  with_reducible apply State.writeReg_keeps (w := w.of (by decide))
  · with_reducible assumption
  · intro x0 x1
    with_reducible apply State.timeCmd_keeps (w := w.of (by decide))
    with_reducible assumption

theorem execAdjust_keeps {m : Nat} {s0 : State} (src : Agent) (val : Word) (s : State) (h : s0.Keeps m s) {t : State} (e : execAdjust src val s = .next t) (w : Within 0x3038008 m := by exact Within.of (by assumption) (by decide)) :
    s0.Keeps m t := by
  unfold execAdjust at e
  injection e with e
  subst e
  with_reducible apply State.writeReg_keeps (w := w.of (by decide))
  · with_reducible assumption
  · intro x0 x1
    with_reducible apply State.timeCmd_keeps (w := w.of (by decide))
    with_reducible assumption

theorem execLatch_keeps {m : Nat} {s0 : State} (src : Agent) (val : Word) (s : State) (h : s0.Keeps m s) {t : State} (e : execLatch src val s = .next t) (w : Within 0x3038008 m := by exact Within.of (by assumption) (by decide)) :
    s0.Keeps m t := by
  unfold execLatch at e
  injection e with e
  subst e
  with_reducible apply State.writeReg_keeps (w := w.of (by decide))
  · with_reducible assumption
  · intro x0 x1
    with_reducible apply State.timeCmd_keeps (w := w.of (by decide))
    with_reducible assumption

theorem execAoPpbMeasure_keeps {m : Nat} {s0 : State} (ppb : Word) (s : State) (h : s0.Keeps m s) {t : State} (e : execAoPpbMeasure ppb s = .next t) (w : Within 0x8 m := by exact Within.of (by assumption) (by decide)) :
    s0.Keeps m t := by
  unfold execAoPpbMeasure at e
  injection e with e
  subst e
  split
  · with_reducible apply State.wr_keeps (w := w.of (by decide))
    with_reducible assumption
  · with_reducible assumption

theorem execTpoEnable_keeps {m : Nat} {s0 : State} (src : Agent) (out : Fin 8) (val : Word) (s : State) (h : s0.Keeps m s) {t : State} (e : execTpoEnable src out val s = .next t) (w : Within 0x28008 m := by exact Within.of (by assumption) (by decide)) :
    s0.Keeps m t := by
  unfold execTpoEnable at e
  injection e with e
  subst e
  with_reducible apply State.writeReg_keeps (w := w.of (by decide))
  · with_reducible assumption
  · intro x0 x1
    with_reducible apply State.tpoCtrl_keeps (w := w.of (by decide))
    with_reducible assumption

theorem execTpoPulseStart_keeps {m : Nat} {s0 : State} (out : Fin 8) (s : State) (h : s0.Keeps m s) {t : State} (e : execTpoPulseStart out s = .next t) (w : Within 0x20000 m := by exact Within.of (by assumption) (by decide)) :
    s0.Keeps m t := by
  unfold execTpoPulseStart at e
  injection e with e
  subst e
  with_reducible apply State.tpoPulse_keeps (w := w.of (by decide))
  with_reducible assumption

theorem execTpoPulseEnd_keeps {m : Nat} {s0 : State} (out : Fin 8) (s : State) (h : s0.Keeps m s) {t : State} (e : execTpoPulseEnd out s = .next t) (w : Within 0x20000 m := by exact Within.of (by assumption) (by decide)) :
    s0.Keeps m t := by
  unfold execTpoPulseEnd at e
  injection e with e
  subst e
  with_reducible apply State.setTpoOf_keeps (w := w.of (by decide))
  with_reducible assumption

theorem execTpoCapture_keeps {m : Nat} {s0 : State} (out : Fin 8) (s : State) (h : s0.Keeps m s) {t : State} (e : execTpoCapture out s = .next t) (w : Within 0x8 m := by exact Within.of (by assumption) (by decide)) :
    s0.Keeps m t := by
  unfold execTpoCapture at e
  injection e with e
  subst e
  with_reducible apply State.tpoCapture_keeps (w := w.of (by decide))
  with_reducible assumption

end Sys2Proof.Machine
end

