-- ==== Sys2Proof/Laws/KeepsHostIf.lean ====
section
/-! SUPPORT. The operations of Machine/HostIf.lean keep the queue and the invariant (`State.Keeps`). -/

namespace Sys2Proof.Machine

set_option Elab.async false
set_option linter.unusedVariables false

theorem State.hostReset_keeps {m : Nat} {s0 : State} (s : State) (linkDown : Bool) (h : s0.Keeps m s) (w : Within 0x4008 m := by exact Within.of (by assumption) (by decide)) :
    s0.Keeps m (s.hostReset linkDown) := by
  unfold State.hostReset
  extract_lets a0 a1 e2 a3
  have k1 : s0.Keeps m a1 := State.setRegs_filter_keeps _ h
  have k3 : s0.Keeps m a3 := State.wr_keeps _ _ _ (State.setHif_keeps _ k1)
  clear_value a3
  split
  · exact State.hifStatus_keeps _ _ (State.wr_keeps _ _ _ (State.wr_keeps _ _ _ (State.wr_keeps _ _ _ k3)))
  · exact k3

theorem State.hostLinkUp_keeps {m : Nat} {s0 : State} (s : State) (speed : ℕ) (width : ℕ) (h : s0.Keeps m s) (w : Within 0x8 m := by exact Within.of (by assumption) (by decide)) :
    s0.Keeps m (State.hostLinkUp s speed width) := by
  unfold State.hostLinkUp
  split
  · with_reducible assumption
  · with_reducible apply State.wr_keeps (w := w.of (by decide))
    with_reducible apply State.wr_keeps (w := w.of (by decide))
    with_reducible apply State.wr_keeps (w := w.of (by decide))
    with_reducible assumption

theorem State.msixMessage_keeps {m : Nat} {s0 : State} (s : State) (h : s0.Keeps m s) (w : Within 0x4008 m := by exact Within.of (by assumption) (by decide)) :
    s0.Keeps m (State.msixMessage s) := by
  unfold State.msixMessage
  split
  · with_reducible assumption
  · split
    · with_reducible assumption
    · extract_lets a0
      clear_value a0
      with_reducible apply State.hostWrite_keeps (w := w.of (by decide))
      with_reducible apply State.wr_keeps (w := w.of (by decide))
      with_reducible assumption

theorem State.inboundUr_keeps {m : Nat} {s0 : State} (s : State) (va : ℕ) (h : s0.Keeps m s) (w : Within 0x8 m := by exact Within.of (by assumption) (by decide)) :
    s0.Keeps m (State.inboundUr s va) := by
  unfold State.inboundUr
  extract_lets a0 a1
  have k2 : s0.Keeps m a0 := by
    unfold a0
    with_reducible apply State.inc_keeps (w := w.of (by decide))
    with_reducible assumption
  clear_value a0
  have k3 : s0.Keeps m a1 := by
    unfold a1
    split
    · with_reducible assumption
    · with_reducible apply State.wr_keeps (w := w.of (by decide))
      with_reducible apply State.wr_keeps (w := w.of (by decide))
      with_reducible apply State.wr_keeps (w := w.of (by decide))
      with_reducible assumption
  clear_value a1
  with_reducible apply State.hifStatus_keeps (w := w.of (by decide))
  with_reducible assumption

theorem State.bar2Phys_keeps {m : Nat} {s0 : State} (s : State) (pa : ℕ) (len : ℕ) (write : Option (List Byte)) (h : s0.Keeps m s) (w : Within 0x501c m := by exact Within.of (by assumption) (by decide)) :
    s0.Keeps m (State.bar2Phys s pa len write) := by
  unfold State.bar2Phys
  split
  · with_reducible apply State.inboundUr_keeps (w := w.of (by decide))
    with_reducible assumption
  · split
    · extract_lets a0
      have k1 : s0.Keeps m a0 := by
        unfold a0
        with_reducible apply State.physWrite_keeps (w := w.of (by decide))
        with_reducible assumption
      clear_value a0
      split
      · with_reducible apply State.inboundUr_keeps (w := w.of (by decide))
        with_reducible assumption
      · with_reducible assumption
    · with_reducible apply State.setReadData_keeps (w := w.of (by decide))
      with_reducible apply State.noteRead_keeps (w := w.of (by decide))
      with_reducible assumption

theorem State.bar2_keeps {m : Nat} {s0 : State} (s : State) (o : ℕ) (len : ℕ) (write : Option (List Byte)) (h : s0.Keeps m s) (w : Within 0x541c m := by exact Within.of (by assumption) (by decide)) :
    s0.Keeps m (State.bar2 s o len write) := by
  unfold State.bar2
  split
  · with_reducible assumption
  · extract_lets a0 a1 a2 a3
    clear_value a0
    clear_value a1
    clear_value a2
    clear_value a3
    split
    · with_reducible assumption
    · split
      · with_reducible apply State.inboundUr_keeps (w := w.of (by decide))
        with_reducible assumption
      · split
        · with_reducible apply State.bar2Phys_keeps (w := w.of (by decide))
          with_reducible assumption
        · split
          · with_reducible apply State.inboundUr_keeps (w := w.of (by decide))
            with_reducible assumption
          · split
            · with_reducible apply State.cacheLeaf_keeps (w := w.of (by decide))
              with_reducible apply State.vwrite_keeps (w := w.of (by decide))
              with_reducible assumption
            · with_reducible apply State.cacheLeaf_keeps (w := w.of (by decide))
              with_reducible apply State.setReadData_keeps (w := w.of (by decide))
              with_reducible apply State.readNote_keeps (w := w.of (by decide))
              with_reducible assumption

theorem State.chanReport_keeps {m : Nat} {s0 : State} (s : State) (c : ℕ) (code : ℕ) (h : s0.Keeps m s) (w : Within 0x8 m := by exact Within.of (by assumption) (by decide)) :
    s0.Keeps m (State.chanReport s c code) := by
  unfold State.chanReport
  with_reducible apply State.hifStatus_keeps (w := w.of (by decide))
  with_reducible apply State.wr_keeps (w := w.of (by decide))
  with_reducible assumption

theorem State.chanFault_keeps {m : Nat} {s0 : State} (s : State) (c : ℕ) (off : ℕ) (frame : ℕ) (x : MoveStop) (h : s0.Keeps m s) (w : Within 0x6f9a m := by exact Within.of (by assumption) (by decide)) :
    s0.Keeps m (State.chanFault s c off frame x) := by
  unfold State.chanFault
  with_reducible apply State.faultAccess_keeps (w := w.of (by decide))
  with_reducible apply State.setChan_keeps (w := w.of (by decide))
  with_reducible assumption

theorem State.doneVec_keeps {m : Nat} {s0 : State} (s : State) (v : ℕ) (h : s0.Keeps m s) (w : Within 0x8 m := by exact Within.of (by assumption) (by decide)) :
    s0.Keeps m (State.doneVec s v) := by
  unfold State.doneVec
  split
  · with_reducible apply State.raiseVec_keeps (w := w.of (by decide))
    with_reducible assumption
  · with_reducible assumption

theorem State.notePtr_keeps {m : Nat} {s0 : State} (s : State) (c : ℕ) (h : s0.Keeps m s) (w : Within 0x8 m := by exact Within.of (by assumption) (by decide)) :
    s0.Keeps m (State.notePtr s c) := by
  unfold State.notePtr
  extract_lets a0 a1
  clear_value a0
  clear_value a1
  with_reducible apply State.wr_keeps (w := w.of (by decide))
  with_reducible apply State.wr_keeps (w := w.of (by decide))
  with_reducible assumption

theorem State.hostOut_keeps {m : Nat} {s0 : State} (s : State) (c : ℕ) (h : s0.Keeps m s) (w : Within 0x7f9a m := by exact Within.of (by assumption) (by decide)) :
    s0.Keeps m (State.hostOut s c) := by
  unfold State.hostOut
  extract_lets a0 a1 a2 a3 a4
  clear_value a0
  have k5 : s0.Keeps m a1.2 := by
    unfold a1
    with_reducible apply State.nextTile_keeps (w := w.of (by decide))
    with_reducible assumption
  clear_value a1
  have k6 : s0.Keeps m a2 := by
    unfold a2
    with_reducible assumption
  clear_value a2
  clear_value a3
  clear_value a4
  split
  · with_reducible assumption
  · split
    · with_reducible assumption
    · split
      · with_reducible assumption
      · extract_lets a7 a8 a9 a10
        clear_value a7
        clear_value a8
        have k11 : s0.Keeps m a9 := by
          unfold a9
          with_reducible apply State.maybeSwitch_keeps (w := w.of (by decide))
          with_reducible assumption
        clear_value a9
        clear_value a10
        split
        · with_reducible apply State.chanFault_keeps (w := w.of (by decide))
          with_reducible assumption
        · split
          · with_reducible apply State.chanFault_keeps (w := w.of (by decide))
            with_reducible refine State.move_keeps_eq (w := w.of (by decide)) ?_ (by assumption)
            with_reducible assumption
          · split
            · with_reducible apply State.chanFault_keeps (w := w.of (by decide))
              with_reducible refine State.move_keeps_eq (w := w.of (by decide)) ?_ (by assumption)
              with_reducible assumption
            · extract_lets a12 a13
              have k14 : s0.Keeps m a12 := by
                unfold a12
                with_reducible apply State.vwrite_keeps (w := w.of (by decide))
                with_reducible refine State.move_keeps_eq (w := w.of (by decide)) ?_ (by assumption)
                with_reducible assumption
              clear_value a12
              have k15 : s0.Keeps m a13 := by
                unfold a13
                with_reducible apply State.setChan_keeps (w := w.of (by decide))
                with_reducible assumption
              clear_value a13
              with_reducible apply State.doneVec_keeps (w := w.of (by decide))
              with_reducible apply State.notePtr_keeps (w := w.of (by decide))
              with_reducible apply State.inc_keeps (w := w.of (by decide))
              with_reducible apply State.pop_keeps (w := w.of (by decide))
              with_reducible assumption

theorem State.hostInEnd_keeps {m : Nat} {s0 : State} (s : State) (c : ℕ) (h : s0.Keeps m s) (w : Within 0x4008 m := by exact Within.of (by assumption) (by decide)) :
    s0.Keeps m (State.hostInEnd s c) := by
  unfold State.hostInEnd
  extract_lets a0
  clear_value a0
  with_reducible apply State.doneVec_keeps (w := w.of (by decide))
  with_reducible apply State.notePtr_keeps (w := w.of (by decide))
  with_reducible apply State.setChan_keeps (w := w.of (by decide))
  with_reducible assumption

theorem State.hostInVoid_keeps {m : Nat} {s0 : State} (s : State) (c : ℕ) (seq : ℕ) (h : s0.Keeps m s) (w : Within 0x4005118 m := by exact Within.of (by assumption) (by decide)) :
    s0.Keeps m (State.hostInVoid s c seq) := by
  unfold State.hostInVoid
  extract_lets a0
  have k1 : s0.Keeps m a0 := by
    unfold a0
    with_reducible apply State.each_keeps
    · intro x2 x3 x4
      with_reducible apply State.completeVoid_keeps (w := w.of (by decide))
      with_reducible assumption
    · with_reducible assumption
  clear_value a0
  with_reducible apply State.hostInEnd_keeps (w := w.of (by decide))
  with_reducible apply State.inc_keeps (w := w.of (by decide))
  with_reducible assumption

theorem State.hostInReserve_keeps {m : Nat} {s0 : State} (s : State) (c : ℕ) (qids : List ℕ) (h : s0.Keeps m s) (w : Within 0x4100 m := by exact Within.of (by assumption) (by decide)) :
    s0.Keeps m (State.hostInReserve s c qids) := by
  unfold State.hostInReserve
  split
  · with_reducible assumption
  · with_reducible apply State.each_keeps
    · intro x0 x1 x2
      extract_lets a3 a4
      have k5 : s0.Keeps m a3.2 := by
        unfold a3
        with_reducible apply State.reserve_keeps (w := w.of (by decide))
        with_reducible assumption
      clear_value a3
      clear_value a4
      with_reducible apply State.setChan_keeps (w := w.of (by decide))
      with_reducible assumption
    · with_reducible assumption

theorem State.hostIn_keeps {m : Nat} {s0 : State} (s : State) (c : ℕ) (h : s0.Keeps m s) (w : Within 0x4007f9a m := by exact Within.of (by assumption) (by decide)) :
    s0.Keeps m (State.hostIn s c) := by
  unfold State.hostIn
  extract_lets a0
  clear_value a0
  split
  · with_reducible assumption
  · split
    · with_reducible assumption
    · extract_lets a1 a2 a3 a4 a5 a6 a7 a8 a9
      clear_value a1
      have k10 : s0.Keeps m a2 := by
        unfold a2
        with_reducible apply State.hostInReserve_keeps (w := w.of (by decide))
        with_reducible assumption
      clear_value a2
      clear_value a3
      clear_value a4
      clear_value a5
      clear_value a6
      clear_value a7
      have k11 : s0.Keeps m a8 := by
        unfold a8
        with_reducible apply State.maybeSwitch_keeps (w := w.of (by decide))
        with_reducible assumption
      clear_value a8
      clear_value a9
      split
      · with_reducible assumption
      · split
        · with_reducible apply State.chanFault_keeps (w := w.of (by decide))
          with_reducible assumption
        · split
          · with_reducible apply State.chanFault_keeps (w := w.of (by decide))
            with_reducible assumption
          · split
            · with_reducible apply State.chanReport_keeps (w := w.of (by decide))
              with_reducible apply State.hostInVoid_keeps (w := w.of (by decide))
              with_reducible assumption
            · split
              · with_reducible apply State.chanFault_keeps (w := w.of (by decide))
                with_reducible refine State.move_keeps_eq (w := w.of (by decide)) ?_ (by assumption)
                with_reducible assumption
              · extract_lets a12
                have k13 : s0.Keeps m a12 := by
                  unfold a12
                  with_reducible apply State.each_keeps
                  · intro x14 x15 x16
                    with_reducible apply State.complete_keeps (w := w.of (by decide))
                    with_reducible assumption
                  · with_reducible refine State.move_keeps_eq (w := w.of (by decide)) ?_ (by assumption)
                    with_reducible assumption
                clear_value a12
                with_reducible apply State.hostInEnd_keeps (w := w.of (by decide))
                with_reducible apply State.inc_keeps (w := w.of (by decide))
                with_reducible assumption

theorem State.chanDoorbell_keeps {m : Nat} {s0 : State} (s : State) (c : ℕ) (n : ℕ) (h : s0.Keeps m s) (w : Within 0x4008 m := by exact Within.of (by assumption) (by decide)) :
    s0.Keeps m (State.chanDoorbell s c n) := by
  unfold State.chanDoorbell
  extract_lets a0
  clear_value a0
  split
  · with_reducible apply State.chanReport_keeps (w := w.of (by decide))
    with_reducible assumption
  · split
    · split
      · with_reducible apply State.chanReport_keeps (w := w.of (by decide))
        with_reducible assumption
      · with_reducible apply State.notePtr_keeps (w := w.of (by decide))
        with_reducible apply State.setChan_keeps (w := w.of (by decide))
        with_reducible assumption
    · split
      · with_reducible apply State.chanReport_keeps (w := w.of (by decide))
        with_reducible assumption
      · with_reducible apply State.notePtr_keeps (w := w.of (by decide))
        with_reducible apply State.setChan_keeps (w := w.of (by decide))
        with_reducible assumption

theorem State.chanAbort_keeps {m : Nat} {s0 : State} (s : State) (c : ℕ) (h : s0.Keeps m s) (w : Within 0x4005118 m := by exact Within.of (by assumption) (by decide)) :
    s0.Keeps m (State.chanAbort s c) := by
  unfold State.chanAbort
  extract_lets a0 a1 a2
  clear_value a0
  have k3 : s0.Keeps m a1 := by
    unfold a1
    with_reducible apply State.wr_keeps (w := w.of (by decide))
    with_reducible assumption
  clear_value a1
  have k4 : s0.Keeps m a2 := by
    unfold a2
    with_reducible apply State.inc_keeps (w := w.of (by decide))
    with_reducible apply State.setChan_keeps (w := w.of (by decide))
    with_reducible assumption
  clear_value a2
  split
  · split
    · with_reducible apply State.pop_keeps (w := w.of (by decide))
      with_reducible apply State.nextTile_keeps (w := w.of (by decide))
      with_reducible assumption
    · with_reducible assumption
  · with_reducible apply State.hostInVoid_keeps (w := w.of (by decide))
    with_reducible assumption

theorem State.hifStart_keeps {m : Nat} {s0 : State} (s : State) (n : Node) (h : s0.Keeps m s) (w : Within 0x4008 m := by exact Within.of (by assumption) (by decide)) :
    s0.Keeps m (State.hifStart s n) := by
  unfold State.hifStart
  split
  · with_reducible assumption
  · extract_lets a0 a1 a2 a3
    clear_value a0
    clear_value a1
    have k4 : s0.Keeps m a2 := by
      unfold a2
      with_reducible apply State.setChan_keeps (w := w.of (by decide))
      with_reducible assumption
    clear_value a2
    have k5 : s0.Keeps m a3 := by
      unfold a3
      with_reducible apply State.wrB_keeps (w := w.of (by decide))
      with_reducible apply State.wr_keeps (w := w.of (by decide))
      with_reducible apply State.wr_keeps (w := w.of (by decide))
      with_reducible assumption
    clear_value a3
    with_reducible apply State.notePtr_keeps (w := w.of (by decide))
    with_reducible apply State.wr_keeps (w := w.of (by decide))
    with_reducible assumption

theorem State.hifStop_keeps {m : Nat} {s0 : State} (s : State) (n : Node) (h : s0.Keeps m s) (w : Within 0x4005518 m := by exact Within.of (by assumption) (by decide)) :
    s0.Keeps m (State.hifStop s n) := by
  unfold State.hifStop
  with_reducible apply State.each_keeps
  · intro x0 x1 x2
    extract_lets a3 a4 a5 a6 a7
    clear_value a3
    have k8 : s0.Keeps m a4 := by
      unfold a4
      with_reducible apply State.inc_keeps (w := w.of (by decide))
      with_reducible assumption
    clear_value a4
    have k9 : s0.Keeps m a5 := by
      unfold a5
      with_reducible apply State.each_keeps
      · intro x10 x11 x12
        with_reducible apply State.completeVoid_keeps (w := w.of (by decide))
        with_reducible assumption
      · with_reducible assumption
    clear_value a5
    clear_value a6
    have k13 : s0.Keeps m a7 := by
      unfold a7
      with_reducible apply State.setXlt_keeps (w := w.of (by decide))
      with_reducible assumption
    clear_value a7
    with_reducible apply State.setReg_keeps (w := w.of (by decide))
    with_reducible apply State.setChan_keeps (w := w.of (by decide))
    with_reducible assumption
  · with_reducible assumption

theorem State.xspiMove_keeps {m : Nat} {s0 : State} (s : State) (h : s0.Keeps m s) (w : Within 0x4000 m := by exact Within.of (by assumption) (by decide)) :
    s0.Keeps m (State.xspiMove s) := by
  unfold State.xspiMove
  split
  · with_reducible assumption
  · extract_lets a0 a1 a2
    clear_value a0
    clear_value a1
    clear_value a2
    with_reducible apply State.setHif_keeps (w := w.of (by decide))
    with_reducible assumption
  · extract_lets a3 a4
    clear_value a3
    clear_value a4
    with_reducible apply State.setHif_keeps (w := w.of (by decide))
    with_reducible assumption

theorem State.xspiCmd_keeps {m : Nat} {s0 : State} (s : State) (val : Word) (resp : List Byte) (h : s0.Keeps m s) (w : Within 0x4008 m := by exact Within.of (by assumption) (by decide)) :
    s0.Keeps m (State.xspiCmd s val resp) := by
  unfold State.xspiCmd
  extract_lets a0 a1 a2 a3 a4
  clear_value a0
  have k5 : s0.Keeps m a1 := by
    unfold a1
    with_reducible apply State.plainWrite_keeps (w := w.of (by decide))
    with_reducible assumption
  clear_value a1
  clear_value a2
  clear_value a3
  clear_value a4
  split
  · with_reducible apply State.hifStatus_keeps (w := w.of (by decide))
    with_reducible assumption
  · split
    · with_reducible apply State.xspiMove_keeps (w := w.of (by decide))
      with_reducible apply State.setHif_keeps (w := w.of (by decide))
      with_reducible assumption
    · with_reducible assumption

theorem State.xspiPush_keeps {m : Nat} {s0 : State} (s : State) (val : Word) (h : s0.Keeps m s) (w : Within 0x4000 m := by exact Within.of (by assumption) (by decide)) :
    s0.Keeps m (State.xspiPush s val) := by
  unfold State.xspiPush
  split
  · with_reducible assumption
  · with_reducible apply State.xspiMove_keeps (w := w.of (by decide))
    with_reducible apply State.setHif_keeps (w := w.of (by decide))
    with_reducible assumption

theorem State.xspiPop_keeps {m : Nat} {s0 : State} (s : State) (h : s0.Keeps m s) (w : Within 0x4004 m := by exact Within.of (by assumption) (by decide)) :
    s0.Keeps m (State.xspiPop s) := by
  unfold State.xspiPop
  split
  · with_reducible assumption
  · with_reducible apply State.xspiMove_keeps (w := w.of (by decide))
    with_reducible apply State.setHif_keeps (w := w.of (by decide))
    with_reducible apply State.setReadData_keeps (w := w.of (by decide))
    with_reducible assumption

theorem State.i2cTransfer_keeps {m : Nat} {s0 : State} (s : State) (mx : ℕ) (addr : ℕ) (wrote : List Byte) (r : I2cResult) (h : s0.Keeps m s) (w : Within 0x400c m := by exact Within.of (by assumption) (by decide)) :
    s0.Keeps m (State.i2cTransfer s mx addr wrote r) := by
  unfold State.i2cTransfer
  extract_lets a0
  have k1 : ∀ y0 y1 y2, s0.Keeps m y2 → s0.Keeps m (a0 y0 y1 y2) := by
    unfold a0
    intro x2 x3 x4 x5
    extract_lets a6 a7
    clear_value a6
    clear_value a7
    with_reducible apply State.setHif_keeps (w := w.of (by decide))
    with_reducible assumption
  clear_value a0
  split
  · with_reducible apply State.setReadData_keeps (w := w.of (by decide))
    with_reducible apply k1
    with_reducible assumption
  · with_reducible apply State.hifStatus_keeps (w := w.of (by decide))
    with_reducible apply k1
    with_reducible assumption
  · with_reducible apply State.hifStatus_keeps (w := w.of (by decide))
    with_reducible apply k1
    with_reducible assumption

theorem State.uartReceive_keeps {m : Nat} {s0 : State} (s : State) (u : ℕ) (b : Byte) (h : s0.Keeps m s) (w : Within 0x4008 m := by exact Within.of (by assumption) (by decide)) :
    s0.Keeps m (State.uartReceive s u b) := by
  unfold State.uartReceive
  extract_lets a0 a1 a2
  clear_value a0
  clear_value a1
  clear_value a2
  split
  · with_reducible apply State.setHif_keeps (w := w.of (by decide))
    with_reducible assumption
  · with_reducible apply State.hifStatus_keeps (w := w.of (by decide))
    with_reducible apply State.setHif_keeps (w := w.of (by decide))
    with_reducible assumption

theorem State.gpioEdge_keeps {m : Nat} {s0 : State} (s : State) (pin : ℕ) (level : Bool) (h : s0.Keeps m s) (w : Within 0x8 m := by exact Within.of (by assumption) (by decide)) :
    s0.Keeps m (State.gpioEdge s pin level) := by
  unfold State.gpioEdge
  extract_lets a0 a1 a2
  clear_value a0
  clear_value a1
  have k3 : s0.Keeps m a2 := by
    unfold a2
    with_reducible apply State.wrB_keeps (w := w.of (by decide))
    with_reducible assumption
  clear_value a2
  split
  · with_reducible assumption
  · split
    · split
      · with_reducible apply State.wr_keeps (w := w.of (by decide))
        with_reducible assumption
      · with_reducible assumption
    · split
      · with_reducible apply State.wr_keeps (w := w.of (by decide))
        with_reducible assumption
      · with_reducible assumption

theorem execBar2Access_keeps {m : Nat} {s0 : State} (off : Word) (len : BitVec 12) (write : Option (List Byte)) (s : State) (h : s0.Keeps m s) {t : State} (e : execBar2Access off len write s = .next t) (w : Within 0x541c m := by exact Within.of (by assumption) (by decide)) :
    s0.Keeps m t := by
  unfold execBar2Access at e
  injection e with e
  subst e
  with_reducible apply State.bar2_keeps (w := w.of (by decide))
  with_reducible assumption

theorem execCplTimeout_keeps {m : Nat} {s0 : State} (len : BitVec 12) (s : State) (h : s0.Keeps m s) {t : State} (e : execCplTimeout len s = .next t) (w : Within 0xc m := by exact Within.of (by assumption) (by decide)) :
    s0.Keeps m t := by
  unfold execCplTimeout at e
  injection e with e
  subst e
  with_reducible apply State.hifStatus_keeps (w := w.of (by decide))
  with_reducible apply State.inc_keeps (w := w.of (by decide))
  with_reducible apply State.setReadData_keeps (w := w.of (by decide))
  with_reducible assumption

theorem execHostReset_keeps {m : Nat} {s0 : State} (linkDown : Bool) (s : State) (h : s0.Keeps m s) {t : State} (e : execHostReset linkDown s = .next t) (w : Within 0x4008 m := by exact Within.of (by assumption) (by decide)) :
    s0.Keeps m t := by
  unfold execHostReset at e
  injection e with e
  subst e
  with_reducible apply State.hostReset_keeps (w := w.of (by decide))
  with_reducible assumption

theorem execHostLinkUp_keeps {m : Nat} {s0 : State} (speed : Fin 5) (width : Fin 17) (s : State) (h : s0.Keeps m s) {t : State} (e : execHostLinkUp speed width s = .next t) (w : Within 0x8 m := by exact Within.of (by assumption) (by decide)) :
    s0.Keeps m t := by
  unfold execHostLinkUp at e
  injection e with e
  subst e
  with_reducible apply State.hostLinkUp_keeps (w := w.of (by decide))
  with_reducible assumption

theorem execBusMasterEnable_keeps {m : Nat} {s0 : State} (bme : Bool) (msixEn : Bool) (msixMask : Bool) (s : State) (h : s0.Keeps m s) {t : State} (e : execBusMasterEnable bme msixEn msixMask s = .next t) (w : Within 0x4000 m := by exact Within.of (by assumption) (by decide)) :
    s0.Keeps m t := by
  unfold execBusMasterEnable at e
  injection e with e
  subst e
  split
  · with_reducible apply State.setHif_keeps (w := w.of (by decide))
    with_reducible assumption
  · with_reducible assumption

theorem execMsixMessage_keeps {m : Nat} {s0 : State} (s : State) (h : s0.Keeps m s) {t : State} (e : execMsixMessage s = .next t) (w : Within 0x4008 m := by exact Within.of (by assumption) (by decide)) :
    s0.Keeps m t := by
  unfold execMsixMessage at e
  injection e with e
  subst e
  with_reducible apply State.msixMessage_keeps (w := w.of (by decide))
  with_reducible assumption

theorem execHifChDb_keeps {m : Nat} {s0 : State} (src : Agent) (ch : Fin 32) (val : Word) (s : State) (h : s0.Keeps m s) {t : State} (e : execHifChDb src ch val s = .next t) (w : Within 0xc008 m := by exact Within.of (by assumption) (by decide)) :
    s0.Keeps m t := by
  unfold execHifChDb at e
  injection e with e
  subst e
  with_reducible apply State.writeReg_keeps (w := w.of (by decide))
  · with_reducible assumption
  · intro x0 x1
    with_reducible apply State.chanDoorbell_keeps (w := w.of (by decide))
    with_reducible assumption

theorem execHostOutTile_keeps {m : Nat} {s0 : State} (ch : Fin 32) (s : State) (h : s0.Keeps m s) {t : State} (e : execHostOutTile ch s = .next t) (w : Within 0x7f9a m := by exact Within.of (by assumption) (by decide)) :
    s0.Keeps m t := by
  unfold execHostOutTile at e
  injection e with e
  subst e
  with_reducible apply State.hostOut_keeps (w := w.of (by decide))
  with_reducible assumption

theorem execHostInEntry_keeps {m : Nat} {s0 : State} (ch : Fin 32) (s : State) (h : s0.Keeps m s) {t : State} (e : execHostInEntry ch s = .next t) (w : Within 0x4007f9a m := by exact Within.of (by assumption) (by decide)) :
    s0.Keeps m t := by
  unfold execHostInEntry at e
  injection e with e
  subst e
  with_reducible apply State.hostIn_keeps (w := w.of (by decide))
  with_reducible assumption

theorem execXspiGo_keeps {m : Nat} {s0 : State} (src : Agent) (val : Word) (resp : List Byte) (s : State) (h : s0.Keeps m s) {t : State} (e : execXspiGo src val resp s = .next t) (w : Within 0xc008 m := by exact Within.of (by assumption) (by decide)) :
    s0.Keeps m t := by
  unfold execXspiGo at e
  injection e with e
  subst e
  with_reducible apply State.writeReg_keeps (w := w.of (by decide))
  · with_reducible assumption
  · intro x0 x1
    with_reducible apply State.xspiCmd_keeps (w := w.of (by decide))
    with_reducible assumption

theorem execI2cTransfer_keeps {m : Nat} {s0 : State} (master : Fin 4) (addr : BitVec 7) (wrote : List Byte) (result : I2cResult) (s : State) (h : s0.Keeps m s) {t : State} (e : execI2cTransfer master addr wrote result s = .next t) (w : Within 0x400c m := by exact Within.of (by assumption) (by decide)) :
    s0.Keeps m t := by
  unfold execI2cTransfer at e
  injection e with e
  subst e
  with_reducible apply State.i2cTransfer_keeps (w := w.of (by decide))
  with_reducible assumption

theorem execUartReceive_keeps {m : Nat} {s0 : State} (uart : Fin 4) (byte : Byte) (s : State) (h : s0.Keeps m s) {t : State} (e : execUartReceive uart byte s = .next t) (w : Within 0x4008 m := by exact Within.of (by assumption) (by decide)) :
    s0.Keeps m t := by
  unfold execUartReceive at e
  injection e with e
  subst e
  with_reducible apply State.uartReceive_keeps (w := w.of (by decide))
  with_reducible assumption

theorem execGpioEdge_keeps {m : Nat} {s0 : State} (pin : Fin 32) (level : Bool) (s : State) (h : s0.Keeps m s) {t : State} (e : execGpioEdge pin level s = .next t) (w : Within 0x8 m := by exact Within.of (by assumption) (by decide)) :
    s0.Keeps m t := by
  unfold execGpioEdge at e
  injection e with e
  subst e
  with_reducible apply State.gpioEdge_keeps (w := w.of (by decide))
  with_reducible assumption

theorem State.hifRegWrite_keeps {m : Nat} {s0 : State} (s : State) (src : Agent) (o : ℕ) (val : Word) (h : s0.Keeps m s) (w : Within 0x4008 m := by exact Within.of (by assumption) (by decide)) :
    s0.Keeps m (State.hifRegWrite s src o val) := by
  unfold State.hifRegWrite
  extract_lets a0 a1 a2
  clear_value a0
  clear_value a1
  have k3 : s0.Keeps m a2 := by
    unfold a2
    with_reducible apply State.plainWrite_keeps (w := w.of (by decide))
    with_reducible assumption
  clear_value a2
  split
  · split
    · with_reducible apply State.wr_keeps (w := w.of (by decide))
      with_reducible assumption
    · with_reducible assumption
  · split
    · with_reducible apply State.chanDoorbell_keeps (w := w.of (by decide))
      with_reducible assumption
    · split
      · with_reducible apply State.xspiCmd_keeps (w := w.of (by decide))
        with_reducible assumption
      · split
        · with_reducible apply State.xspiPush_keeps (w := w.of (by decide))
          with_reducible assumption
        · split
          · with_reducible apply State.setReg_keeps (w := w.of (by decide))
            with_reducible assumption
          · split
            · with_reducible apply State.setReg_keeps (w := w.of (by decide))
              with_reducible assumption
            · with_reducible apply State.plainWrite_keeps (w := w.of (by decide))
              with_reducible assumption

end Sys2Proof.Machine
end

