-- ==== Sys2Proof/Laws/KeepsControl.lean ====
section
/-! SUPPORT. The operations of Machine/Control.lean keep the queue and the invariant (`State.Keeps`). -/

namespace Sys2Proof.Machine

set_option Elab.async false
set_option linter.unusedVariables false

theorem State.unitState_keeps {m : Nat} {s0 : State} (s : State) (u : ℕ) (st : ℕ) (h : s0.Keeps m s) (w : Within 0x8 m := by exact Within.of (by assumption) (by decide)) :
    s0.Keeps m (State.unitState s u st) := by
  unfold State.unitState
  extract_lets a0
  have k1 : s0.Keeps m a0 := by
    unfold a0
    with_reducible apply State.wr_keeps (w := w.of (by decide))
    with_reducible assumption
  clear_value a0
  split
  · with_reducible assumption
  · with_reducible apply State.setSynced_keeps (w := w.of (by decide))
    with_reducible assumption

theorem State.setPort_keeps {m : Nat} {s0 : State} (s : State) (u : ℕ) (b : Bool) (h : s0.Keeps m s) (w : Within 0x8000 m := by exact Within.of (by assumption) (by decide)) :
    s0.Keeps m (State.setPort s u b) := by
  unfold State.setPort
  with_reducible apply State.setUnit_keeps (w := w.of (by decide))
  with_reducible assumption

theorem State.startGap_keeps {m : Nat} {s0 : State} (s : State) (kind : ℕ) (outgoing : Option ℕ) (incoming : ℕ) (h : s0.Keeps m s) (w : Within 0x8008 m := by exact Within.of (by assumption) (by decide)) :
    s0.Keeps m (State.startGap s kind outgoing incoming) := by
  unfold State.startGap
  extract_lets a0 a1 a2
  have k3 : s0.Keeps m a0 := by
    unfold a0
    split
    · split
      · with_reducible assumption
      · with_reducible apply State.setPort_keeps (w := w.of (by decide))
        with_reducible assumption
    · with_reducible assumption
  clear_value a0
  clear_value a1
  have k4 : s0.Keeps m a2 := by
    unfold a2
    with_reducible apply State.setCux_keeps (w := w.of (by decide))
    with_reducible assumption
  clear_value a2
  with_reducible apply State.wr_keeps (w := w.of (by decide))
  with_reducible assumption

theorem State.claim_keeps {m : Nat} {s0 : State} (s : State) (u : ℕ) (both : Bool) (h : s0.Keeps m s) (w : Within 0x8008 m := by exact Within.of (by assumption) (by decide)) :
    s0.Keeps m (State.claim s u both) := by
  unfold State.claim
  extract_lets a0
  clear_value a0
  split
  · with_reducible apply State.cuxReport_keeps (w := w.of (by decide))
    with_reducible assumption
  · split
    · split
      · with_reducible apply State.startGap_keeps (w := w.of (by decide))
        with_reducible apply State.cuxReport_keeps (w := w.of (by decide))
        with_reducible assumption
      · split
        · with_reducible apply State.startGap_keeps (w := w.of (by decide))
          split
          · with_reducible apply State.cuxReport_keeps (w := w.of (by decide))
            with_reducible assumption
          · with_reducible assumption
        · with_reducible assumption
    · split
      · with_reducible assumption
      · with_reducible apply State.cuxReport_keeps (w := w.of (by decide))
        with_reducible assumption
    · split
      · with_reducible assumption
      · with_reducible apply State.cuxReport_keeps (w := w.of (by decide))
        with_reducible assumption

theorem State.forcedClaim_keeps {m : Nat} {s0 : State} (s : State) (u : ℕ) (h : s0.Keeps m s) (w : Within 0x8008 m := by exact Within.of (by assumption) (by decide)) :
    s0.Keeps m (State.forcedClaim s u) := by
  unfold State.forcedClaim
  split
  · with_reducible assumption
  · split
    · split
      · with_reducible assumption
      · with_reducible apply State.startGap_keeps (w := w.of (by decide))
        with_reducible assumption
    · with_reducible apply State.startGap_keeps (w := w.of (by decide))
      with_reducible assumption

theorem State.claimForce_keeps {m : Nat} {s0 : State} (s : State) (u : ℕ) (h : s0.Keeps m s) (w : Within 0x8008 m := by exact Within.of (by assumption) (by decide)) :
    s0.Keeps m (State.claimForce s u) := by
  unfold State.claimForce
  split
  · with_reducible assumption
  · split
    · with_reducible apply State.cuxReport_keeps (w := w.of (by decide))
      with_reducible assumption
    · split
      · with_reducible apply State.cuxReport_keeps (w := w.of (by decide))
        with_reducible assumption
      · with_reducible apply State.forcedClaim_keeps (w := w.of (by decide))
        with_reducible assumption

theorem State.yieldTo_keeps {m : Nat} {s0 : State} (s : State) (u : ℕ) (h : s0.Keeps m s) (w : Within 0x8008 m := by exact Within.of (by assumption) (by decide)) :
    s0.Keeps m (State.yieldTo s u) := by
  unfold State.yieldTo
  split
  · with_reducible apply State.cuxReport_keeps (w := w.of (by decide))
    with_reducible assumption
  · split
    · with_reducible apply State.cuxReport_keeps (w := w.of (by decide))
      with_reducible assumption
    · split
      · with_reducible apply State.cuxReport_keeps (w := w.of (by decide))
        with_reducible assumption
      · with_reducible apply State.startGap_keeps (w := w.of (by decide))
        with_reducible assumption

theorem State.ready_keeps {m : Nat} {s0 : State} (s : State) (u : ℕ) (h : s0.Keeps m s) (w : Within 0x8 m := by exact Within.of (by assumption) (by decide)) :
    s0.Keeps m (State.ready s u) := by
  unfold State.ready
  split
  · with_reducible apply State.setSynced_keeps (w := w.of (by decide))
    with_reducible apply State.unitState_keeps (w := w.of (by decide))
    with_reducible assumption
  · with_reducible apply State.cuxReport_keeps (w := w.of (by decide))
    with_reducible assumption

theorem State.drillOver_keeps {m : Nat} {s0 : State} (s : State) (starter : ℕ) (h : s0.Keeps m s) (w : Within 0x8008 m := by exact Within.of (by assumption) (by decide)) :
    s0.Keeps m (State.drillOver s starter) := by
  unfold State.drillOver
  extract_lets a0 a1
  clear_value a0
  have k2 : s0.Keeps m a1 := by
    unfold a1
    with_reducible apply State.wr_keeps (w := w.of (by decide))
    with_reducible apply State.setCux_keeps (w := w.of (by decide))
    with_reducible assumption
  clear_value a1
  with_reducible apply State.unitIrq_keeps (w := w.of (by decide))
  with_reducible apply State.unitIrq_keeps (w := w.of (by decide))
  with_reducible assumption

theorem State.drillEnd_keeps {m : Nat} {s0 : State} (s : State) (h : s0.Keeps m s) (w : Within 0x8008 m := by exact Within.of (by assumption) (by decide)) :
    s0.Keeps m (State.drillEnd s) := by
  unfold State.drillEnd
  split
  · with_reducible assumption
  · split
    · with_reducible assumption
    · split
      · with_reducible apply State.startGap_keeps (w := w.of (by decide))
        with_reducible assumption
      · with_reducible apply State.cuxReport_keeps (w := w.of (by decide))
        with_reducible apply State.drillOver_keeps (w := w.of (by decide))
        with_reducible assumption

theorem State.drill_keeps {m : Nat} {s0 : State} (s : State) (u : ℕ) (h : s0.Keeps m s) (w : Within 0x8008 m := by exact Within.of (by assumption) (by decide)) :
    s0.Keeps m (State.drill s u) := by
  unfold State.drill
  split
  · with_reducible apply State.drillEnd_keeps (w := w.of (by decide))
    with_reducible assumption
  · split
    · with_reducible apply State.cuxReport_keeps (w := w.of (by decide))
      with_reducible assumption
    · split
      · with_reducible apply State.cuxReport_keeps (w := w.of (by decide))
        with_reducible assumption
      · split
        · with_reducible apply State.cuxReport_keeps (w := w.of (by decide))
          with_reducible assumption
        · with_reducible apply State.startGap_keeps (w := w.of (by decide))
          with_reducible assumption

theorem State.lapse_keeps {m : Nat} {s0 : State} (s : State) (u : ℕ) (h : s0.Keeps m s) (w : Within 0x28008008 m := by exact Within.of (by assumption) (by decide)) :
    s0.Keeps m (State.lapse s u) := by
  unfold State.lapse
  with_reducible apply State.restartUnit_keeps (w := w.of (by decide))
  with_reducible apply State.cuxReport_keeps (w := w.of (by decide))
  with_reducible apply State.wr_keeps (w := w.of (by decide))
  with_reducible assumption

theorem State.selfFault_keeps {m : Nat} {s0 : State} (s : State) (u : ℕ) (cause : ℕ) (h : s0.Keeps m s) (w : Within 0x28008008 m := by exact Within.of (by assumption) (by decide)) :
    s0.Keeps m (State.selfFault s u cause) := by
  unfold State.selfFault
  split
  · with_reducible assumption
  · extract_lets a0 a1 a2 a3 a4 a5 a6 a7
    clear_value a0
    have k8 : s0.Keeps m a1 := by
      unfold a1
      with_reducible apply State.unitState_keeps (w := w.of (by decide))
      with_reducible apply State.setPort_keeps (w := w.of (by decide))
      with_reducible assumption
    clear_value a1
    clear_value a2
    have k9 : s0.Keeps m a3 := by
      unfold a3
      with_reducible apply State.setUnit_keeps (w := w.of (by decide))
      with_reducible apply State.wr_keeps (w := w.of (by decide))
      with_reducible assumption
    clear_value a3
    have k10 : s0.Keeps m a4 := by
      unfold a4
      with_reducible apply State.handoverFail_keeps (w := w.of (by decide))
      with_reducible apply State.cuxReport_keeps (w := w.of (by decide))
      with_reducible assumption
    clear_value a4
    have k11 : s0.Keeps m a5 := by
      unfold a5
      split
      · split
        · with_reducible apply State.cuxReport_keeps (w := w.of (by decide))
          with_reducible apply State.drillOver_keeps (w := w.of (by decide))
          with_reducible assumption
        · with_reducible assumption
      · with_reducible assumption
    clear_value a5
    clear_value a6
    have k12 : s0.Keeps m a7 := by
      unfold a7
      with_reducible apply State.wr_keeps (w := w.of (by decide))
      with_reducible apply State.setCux_keeps (w := w.of (by decide))
      with_reducible assumption
    clear_value a7
    split
    · split
      · split
        · split
          · with_reducible apply State.setPort_keeps (w := w.of (by decide))
            with_reducible assumption
          · with_reducible apply State.lapse_keeps (w := w.of (by decide))
            with_reducible assumption
        · with_reducible apply State.lapse_keeps (w := w.of (by decide))
          with_reducible assumption
      · with_reducible assumption
    · split
      · with_reducible assumption
      · split
        · with_reducible apply State.startGap_keeps (w := w.of (by decide))
          with_reducible assumption
        · with_reducible apply State.lapse_keeps (w := w.of (by decide))
          with_reducible assumption

theorem State.clearFault_keeps {m : Nat} {s0 : State} (s : State) (u : ℕ) (h : s0.Keeps m s) (w : Within 0x8 m := by exact Within.of (by assumption) (by decide)) :
    s0.Keeps m (State.clearFault s u) := by
  unfold State.clearFault
  split
  · with_reducible apply State.wr_keeps (w := w.of (by decide))
    with_reducible apply State.unitState_keeps (w := w.of (by decide))
    with_reducible assumption
  · with_reducible apply State.cuxReport_keeps (w := w.of (by decide))
    with_reducible assumption

theorem State.kick_keeps {m : Nat} {s0 : State} (s : State) (u : ℕ) (h : s0.Keeps m s) (w : Within 0x8000 m := by exact Within.of (by assumption) (by decide)) :
    s0.Keeps m (State.kick s u) := by
  unfold State.kick
  with_reducible apply State.setUnit_keeps (w := w.of (by decide))
  with_reducible assumption

theorem State.heartbeat_keeps {m : Nat} {s0 : State} (s : State) (u : ℕ) (k : Bool) (h : s0.Keeps m s) (w : Within 0x8 m := by exact Within.of (by assumption) (by decide)) :
    s0.Keeps m (State.heartbeat s u k) := by
  unfold State.heartbeat
  split
  · with_reducible assumption
  · extract_lets a0
    have k1 : s0.Keeps m a0 := by
      unfold a0
      with_reducible apply State.unitIrq_keeps (w := w.of (by decide))
      with_reducible apply State.cuxReport_keeps (w := w.of (by decide))
      with_reducible apply State.wr_keeps (w := w.of (by decide))
      with_reducible assumption
    clear_value a0
    split
    · with_reducible apply State.unitState_keeps (w := w.of (by decide))
      with_reducible assumption
    · with_reducible assumption

theorem State.pathDown_keeps {m : Nat} {s0 : State} (s : State) (u : ℕ) (k : Bool) (h : s0.Keeps m s) (w : Within 0x8008 m := by exact Within.of (by assumption) (by decide)) :
    s0.Keeps m (State.pathDown s u k) := by
  unfold State.pathDown
  split
  · with_reducible assumption
  · extract_lets a0 a1
    have k2 : s0.Keeps m a0 := by
      unfold a0
      with_reducible apply State.unitIrq_keeps (w := w.of (by decide))
      with_reducible apply State.inc_keeps (w := w.of (by decide))
      with_reducible apply State.wr_keeps (w := w.of (by decide))
      with_reducible assumption
    clear_value a0
    have k3 : s0.Keeps m a1 := by
      unfold a1
      with_reducible apply State.cuxReport_keeps (w := w.of (by decide))
      with_reducible assumption
    clear_value a1
    split
    · with_reducible apply State.cuxReport_keeps (w := w.of (by decide))
      with_reducible assumption
    · split
      · with_reducible apply State.forcedClaim_keeps (w := w.of (by decide))
        with_reducible assumption
      · with_reducible assumption

theorem State.doorbellEffect_keeps {m : Nat} {s0 : State} (s : State) (off : ℕ) (val : Word) (h : s0.Keeps m s) (w : Within 0x5918 m := by exact Within.of (by assumption) (by decide)) :
    s0.Keeps m (State.doorbellEffect s off val) := by
  unfold State.doorbellEffect
  extract_lets a0 a1
  clear_value a0
  clear_value a1
  split
  · split
    · with_reducible apply State.hqDoorbell_keeps (w := w.of (by decide))
      with_reducible assumption
    · with_reducible apply State.hqDoorbell_keeps (w := w.of (by decide))
      with_reducible assumption
  · split
    · with_reducible apply State.dmaDoorbell_keeps (w := w.of (by decide))
      with_reducible assumption
    · with_reducible apply State.chanDoorbell_keeps (w := w.of (by decide))
      with_reducible assumption

theorem State.applyHeld_keeps {m : Nat} {s0 : State} (s : State) (h : s0.Keeps m s) (w : Within 0xd918 m := by exact Within.of (by assumption) (by decide)) :
    s0.Keeps m (State.applyHeld s) := by
  unfold State.applyHeld
  extract_lets a0 a1 a2
  clear_value a0
  clear_value a1
  have k3 : s0.Keeps m a2 := by
    unfold a2
    with_reducible apply State.wr_keeps (w := w.of (by decide))
    with_reducible apply State.setCux_keeps (w := w.of (by decide))
    with_reducible assumption
  clear_value a2
  with_reducible apply State.each_keeps
  · intro x4 x5 x6
    with_reducible apply State.doorbellEffect_keeps (w := w.of (by decide))
    with_reducible apply State.mirror_keeps (w := w.of (by decide))
    with_reducible assumption
  · with_reducible assumption

theorem State.gapEnd_keeps {m : Nat} {s0 : State} (s : State) (cycles : ℕ) (h : s0.Keeps m s) (w : Within 0xd918 m := by exact Within.of (by assumption) (by decide)) :
    s0.Keeps m (State.gapEnd s cycles) := by
  unfold State.gapEnd
  split
  · with_reducible assumption
  · extract_lets a0 a1 a2 a3 a4 a5 a6 a7 a8 a9 a10 a11
    have k12 : s0.Keeps m a0 := by
      unfold a0
      with_reducible apply State.applyHeld_keeps (w := w.of (by decide))
      with_reducible assumption
    clear_value a0
    clear_value a1
    have k13 : s0.Keeps m a2 := by
      unfold a2
      with_reducible apply State.wr_keeps (w := w.of (by decide))
      with_reducible apply State.setCux_keeps (w := w.of (by decide))
      with_reducible assumption
    clear_value a2
    have k14 : s0.Keeps m a3 := by
      unfold a3
      with_reducible apply State.wr_keeps (w := w.of (by decide))
      with_reducible assumption
    clear_value a3
    have k15 : s0.Keeps m a4 := by
      unfold a4
      with_reducible apply State.wr_keeps (w := w.of (by decide))
      with_reducible apply State.wr_keeps (w := w.of (by decide))
      with_reducible assumption
    clear_value a4
    have k16 : s0.Keeps m a5 := by
      unfold a5
      with_reducible apply State.incWrap_keeps (w := w.of (by decide))
      with_reducible apply State.wr_keeps (w := w.of (by decide))
      with_reducible assumption
    clear_value a5
    have k17 : s0.Keeps m a6 := by
      unfold a6
      with_reducible apply State.unitState_keeps (w := w.of (by decide))
      with_reducible apply State.setPort_keeps (w := w.of (by decide))
      with_reducible assumption
    clear_value a6
    clear_value a7
    have k18 : s0.Keeps m a8 := by
      unfold a8
      split
      · with_reducible assumption
      · split
        · split
          · with_reducible apply State.wr_keeps (w := w.of (by decide))
            with_reducible apply State.setCux_keeps (w := w.of (by decide))
            with_reducible assumption
          · with_reducible assumption
        · split
          · with_reducible apply State.setSynced_keeps (w := w.of (by decide))
            with_reducible apply State.unitState_keeps (w := w.of (by decide))
            with_reducible assumption
          · with_reducible assumption
    clear_value a8
    have k19 : s0.Keeps m a9 := by
      unfold a9
      split
      · with_reducible apply State.cuxReport_keeps (w := w.of (by decide))
        with_reducible assumption
      · with_reducible assumption
    clear_value a9
    clear_value a10
    have k20 : s0.Keeps m a11 := by
      unfold a11
      split
      · with_reducible apply State.wr_keeps (w := w.of (by decide))
        with_reducible apply State.setCux_keeps (w := w.of (by decide))
        with_reducible assumption
      · with_reducible apply State.drillOver_keeps (w := w.of (by decide))
        with_reducible assumption
      · with_reducible assumption
    clear_value a11
    with_reducible apply State.unitIrq_keeps (w := w.of (by decide))
    with_reducible apply State.unitIrq_keeps (w := w.of (by decide))
    with_reducible assumption

theorem State.ownershipLost_keeps {m : Nat} {s0 : State} (s : State) (cycles : ℕ) (h : s0.Keeps m s) (w : Within 0x8008 m := by exact Within.of (by assumption) (by decide)) :
    s0.Keeps m (State.ownershipLost s cycles) := by
  unfold State.ownershipLost
  extract_lets a0 a1
  clear_value a0
  clear_value a1
  split
  · with_reducible assumption
  · extract_lets a2 a3 a4 a5
    clear_value a2
    have k6 : s0.Keeps m a3 := by
      unfold a3
      with_reducible apply State.setCux_keeps (w := w.of (by decide))
      with_reducible apply State.setPort_keeps (w := w.of (by decide))
      with_reducible assumption
    clear_value a3
    have k7 : s0.Keeps m a4 := by
      unfold a4
      with_reducible apply State.wr_keeps (w := w.of (by decide))
      with_reducible apply State.wr_keeps (w := w.of (by decide))
      with_reducible assumption
    clear_value a4
    have k8 : s0.Keeps m a5 := by
      unfold a5
      with_reducible apply State.unitIrq_keeps (w := w.of (by decide))
      with_reducible apply State.cuxReport_keeps (w := w.of (by decide))
      with_reducible assumption
    clear_value a5
    split
    · with_reducible apply State.unitState_keeps (w := w.of (by decide))
      with_reducible assumption
    · with_reducible assumption

theorem State.returnPreferred_keeps {m : Nat} {s0 : State} (s : State) (h : s0.Keeps m s) (w : Within 0x8008 m := by exact Within.of (by assumption) (by decide)) :
    s0.Keeps m (State.returnPreferred s) := by
  unfold State.returnPreferred
  extract_lets a0
  clear_value a0
  split
  · with_reducible apply State.startGap_keeps (w := w.of (by decide))
    with_reducible assumption
  · with_reducible assumption

theorem State.ringPut_keeps {m : Nat} {s0 : State} (s : State) (u : ℕ) (base : ℕ) (at16 : ℕ) (b : List Byte) (h : s0.Keeps m s) (w : Within 0x8000 m := by exact Within.of (by assumption) (by decide)) :
    s0.Keeps m (State.ringPut s u base at16 b) := by
  unfold State.ringPut
  extract_lets a0 a1
  clear_value a0
  clear_value a1
  with_reducible apply State.sramWrite_keeps (w := w.of (by decide))
  with_reducible apply State.sramWrite_keeps (w := w.of (by decide))
  with_reducible assumption

theorem State.journalTo_keeps {m : Nat} {s0 : State} (s : State) (u : ℕ) (seq : ℕ) (body : List Byte) (h : s0.Keeps m s) (w : Within 0x8008 m := by exact Within.of (by assumption) (by decide)) :
    s0.Keeps m (State.journalTo s u seq body) := by
  unfold State.journalTo
  split
  · with_reducible assumption
  · extract_lets a0 a1 a2 a3 a4 a5
    clear_value a0
    clear_value a1
    clear_value a2
    clear_value a3
    clear_value a4
    have k6 : s0.Keeps m a5 := by
      unfold a5
      with_reducible apply State.ringPut_keeps (w := w.of (by decide))
      with_reducible apply State.setUnit_keeps (w := w.of (by decide))
      with_reducible assumption
    clear_value a5
    split
    · with_reducible apply State.unitIrq_keeps (w := w.of (by decide))
      with_reducible apply State.wr_keeps (w := w.of (by decide))
      with_reducible assumption
    · with_reducible apply State.recordLost_keeps (w := w.of (by decide))
      with_reducible assumption

theorem State.journalDb_keeps {m : Nat} {s0 : State} (s : State) (u : ℕ) (len : ℕ) (h : s0.Keeps m s) (w : Within 0x8008 m := by exact Within.of (by assumption) (by decide)) :
    s0.Keeps m (State.journalDb s u len) := by
  unfold State.journalDb
  split
  · with_reducible apply State.cuxReport_keeps (w := w.of (by decide))
    with_reducible assumption
  · split
    · with_reducible apply State.cuxReport_keeps (w := w.of (by decide))
      with_reducible assumption
    · extract_lets a0 a1 a2 a3 a4 a5
      clear_value a0
      clear_value a1
      clear_value a2
      clear_value a3
      clear_value a4
      have k6 : s0.Keeps m a5 := by
        unfold a5
        with_reducible apply State.journalTo_keeps (w := w.of (by decide))
        with_reducible apply State.incWrap_keeps (w := w.of (by decide))
        with_reducible assumption
      clear_value a5
      split
      · with_reducible apply State.cuxReport_keeps (w := w.of (by decide))
        with_reducible assumption
      · with_reducible apply State.wr_keeps (w := w.of (by decide))
        with_reducible apply State.wr_keeps (w := w.of (by decide))
        with_reducible assumption

theorem State.unitCtrl_keeps {m : Nat} {s0 : State} (s : State) (u : ℕ) (val : Word) (both : Bool) (h : s0.Keeps m s) (w : Within 0x28008008 m := by exact Within.of (by assumption) (by decide)) :
    s0.Keeps m (State.unitCtrl s u val both) := by
  unfold State.unitCtrl
  split
  · with_reducible assumption
  · with_reducible apply State.claim_keeps (w := w.of (by decide))
    with_reducible assumption
  · with_reducible apply State.claimForce_keeps (w := w.of (by decide))
    with_reducible assumption
  · with_reducible apply State.yieldTo_keeps (w := w.of (by decide))
    with_reducible assumption
  · with_reducible apply State.selfFault_keeps (w := w.of (by decide))
    with_reducible assumption
  · with_reducible apply State.clearFault_keeps (w := w.of (by decide))
    with_reducible assumption
  · with_reducible apply State.ready_keeps (w := w.of (by decide))
    with_reducible assumption
  · with_reducible apply State.drill_keeps (w := w.of (by decide))
    with_reducible assumption
  · with_reducible apply State.cuxReport_keeps (w := w.of (by decide))
    with_reducible assumption

theorem State.unitRegWrite_keeps {m : Nat} {s0 : State} (s : State) (u : ℕ) (r : ℕ) (val : Word) (h : s0.Keeps m s) (w : Within 0x28008008 m := by exact Within.of (by assumption) (by decide)) :
    s0.Keeps m (State.unitRegWrite s u r val) := by
  unfold State.unitRegWrite
  extract_lets a0 a1 a2
  clear_value a0
  have k3 : s0.Keeps m a1 := by
    unfold a1
    with_reducible apply State.plainWrite_keeps (w := w.of (by decide))
    with_reducible assumption
  clear_value a1
  clear_value a2
  split
  · with_reducible apply State.unitCtrl_keeps (w := w.of (by decide))
    with_reducible assumption
  · split
    · with_reducible apply State.kick_keeps (w := w.of (by decide))
      with_reducible assumption
    · split
      · with_reducible apply State.setUnit_keeps (w := w.of (by decide))
        with_reducible assumption
      · split
        · with_reducible apply State.journalDb_keeps (w := w.of (by decide))
          with_reducible assumption
        · split
          · split
            · with_reducible apply State.plainWrite_keeps (w := w.of (by decide))
              with_reducible assumption
            · with_reducible assumption
          · with_reducible apply State.plainWrite_keeps (w := w.of (by decide))
            with_reducible assumption

theorem State.cuxRegWrite_keeps {m : Nat} {s0 : State} (s : State) (o : ℕ) (val : Word) (h : s0.Keeps m s) (w : Within 0x28008008 m := by exact Within.of (by assumption) (by decide)) :
    s0.Keeps m (State.cuxRegWrite s o val) := by
  unfold State.cuxRegWrite
  extract_lets a0 a1 a2
  clear_value a0
  clear_value a1
  clear_value a2
  split
  · with_reducible apply State.unitRegWrite_keeps (w := w.of (by decide))
    with_reducible assumption
  · split
    · split
      · with_reducible apply State.wr_keeps (w := w.of (by decide))
        with_reducible assumption
      · with_reducible apply State.plainWrite_keeps (w := w.of (by decide))
        with_reducible assumption
    · with_reducible apply State.plainWrite_keeps (w := w.of (by decide))
      with_reducible assumption

theorem execClaim_keeps {m : Nat} {s0 : State} (src : Agent) (unit : Fin 2) (both : Bool) (s : State) (h : s0.Keeps m s) {t : State} (e : execClaim src unit both s = .next t) (w : Within 0x28008008 m := by exact Within.of (by assumption) (by decide)) :
    s0.Keeps m t := by
  unfold execClaim at e
  injection e with e
  subst e
  with_reducible apply State.writeReg_keeps (w := w.of (by decide))
  · with_reducible assumption
  · intro x0 x1
    with_reducible apply State.unitCtrl_keeps (w := w.of (by decide))
    with_reducible assumption

theorem execForce_keeps {m : Nat} {s0 : State} (src : Agent) (unit : Fin 2) (s : State) (h : s0.Keeps m s) {t : State} (e : execForce src unit s = .next t) (w : Within 0x28008008 m := by exact Within.of (by assumption) (by decide)) :
    s0.Keeps m t := by
  unfold execForce at e
  injection e with e
  subst e
  with_reducible apply State.writeReg_keeps (w := w.of (by decide))
  · with_reducible assumption
  · intro x0 x1
    with_reducible apply State.unitCtrl_keeps (w := w.of (by decide))
    with_reducible assumption

theorem execYield_keeps {m : Nat} {s0 : State} (src : Agent) (unit : Fin 2) (s : State) (h : s0.Keeps m s) {t : State} (e : execYield src unit s = .next t) (w : Within 0x28008008 m := by exact Within.of (by assumption) (by decide)) :
    s0.Keeps m t := by
  unfold execYield at e
  injection e with e
  subst e
  with_reducible apply State.writeReg_keeps (w := w.of (by decide))
  · with_reducible assumption
  · intro x0 x1
    with_reducible apply State.unitCtrl_keeps (w := w.of (by decide))
    with_reducible assumption

theorem execReady_keeps {m : Nat} {s0 : State} (src : Agent) (unit : Fin 2) (s : State) (h : s0.Keeps m s) {t : State} (e : execReady src unit s = .next t) (w : Within 0x28008008 m := by exact Within.of (by assumption) (by decide)) :
    s0.Keeps m t := by
  unfold execReady at e
  injection e with e
  subst e
  with_reducible apply State.writeReg_keeps (w := w.of (by decide))
  · with_reducible assumption
  · intro x0 x1
    with_reducible apply State.unitCtrl_keeps (w := w.of (by decide))
    with_reducible assumption

theorem execDeclareFault_keeps {m : Nat} {s0 : State} (src : Agent) (unit : Fin 2) (s : State) (h : s0.Keeps m s) {t : State} (e : execDeclareFault src unit s = .next t) (w : Within 0x28008008 m := by exact Within.of (by assumption) (by decide)) :
    s0.Keeps m t := by
  unfold execDeclareFault at e
  injection e with e
  subst e
  with_reducible apply State.writeReg_keeps (w := w.of (by decide))
  · with_reducible assumption
  · intro x0 x1
    with_reducible apply State.unitCtrl_keeps (w := w.of (by decide))
    with_reducible assumption

theorem execClearFault_keeps {m : Nat} {s0 : State} (src : Agent) (unit : Fin 2) (s : State) (h : s0.Keeps m s) {t : State} (e : execClearFault src unit s = .next t) (w : Within 0x28008008 m := by exact Within.of (by assumption) (by decide)) :
    s0.Keeps m t := by
  unfold execClearFault at e
  injection e with e
  subst e
  with_reducible apply State.writeReg_keeps (w := w.of (by decide))
  · with_reducible assumption
  · intro x0 x1
    with_reducible apply State.unitCtrl_keeps (w := w.of (by decide))
    with_reducible assumption

theorem execDrill_keeps {m : Nat} {s0 : State} (src : Agent) (unit : Fin 2) (s : State) (h : s0.Keeps m s) {t : State} (e : execDrill src unit s = .next t) (w : Within 0x28008008 m := by exact Within.of (by assumption) (by decide)) :
    s0.Keeps m t := by
  unfold execDrill at e
  injection e with e
  subst e
  with_reducible apply State.writeReg_keeps (w := w.of (by decide))
  · with_reducible assumption
  · intro x0 x1
    with_reducible apply State.unitCtrl_keeps (w := w.of (by decide))
    with_reducible assumption

theorem execCuxUKick_keeps {m : Nat} {s0 : State} (src : Agent) (unit : Fin 2) (val : Word) (s : State) (h : s0.Keeps m s) {t : State} (e : execCuxUKick src unit val s = .next t) (w : Within 0x8008 m := by exact Within.of (by assumption) (by decide)) :
    s0.Keeps m t := by
  unfold execCuxUKick at e
  injection e with e
  subst e
  with_reducible apply State.writeReg_keeps (w := w.of (by decide))
  · with_reducible assumption
  · intro x0 x1
    with_reducible apply State.kick_keeps (w := w.of (by decide))
    with_reducible assumption

theorem execSelfFault_keeps {m : Nat} {s0 : State} (unit : Fin 2) (cause : Fin 3) (s : State) (h : s0.Keeps m s) {t : State} (e : execSelfFault unit cause s = .next t) (w : Within 0x28008008 m := by exact Within.of (by assumption) (by decide)) :
    s0.Keeps m t := by
  unfold execSelfFault at e
  injection e with e
  subst e
  split
  · with_reducible assumption
  · with_reducible apply State.selfFault_keeps (w := w.of (by decide))
    with_reducible assumption

theorem execJtxDb_keeps {m : Nat} {s0 : State} (src : Agent) (unit : Fin 2) (val : Word) (s : State) (h : s0.Keeps m s) {t : State} (e : execJtxDb src unit val s = .next t) (w : Within 0x8008 m := by exact Within.of (by assumption) (by decide)) :
    s0.Keeps m t := by
  unfold execJtxDb at e
  injection e with e
  subst e
  with_reducible apply State.writeReg_keeps (w := w.of (by decide))
  · with_reducible assumption
  · intro x0 x1
    with_reducible apply State.journalDb_keeps (w := w.of (by decide))
    with_reducible assumption

theorem execHeartbeat_keeps {m : Nat} {s0 : State} (unit : Fin 2) (pathK : Bool) (s : State) (h : s0.Keeps m s) {t : State} (e : execHeartbeat unit pathK s = .next t) (w : Within 0x8 m := by exact Within.of (by assumption) (by decide)) :
    s0.Keeps m t := by
  unfold execHeartbeat at e
  injection e with e
  subst e
  with_reducible apply State.heartbeat_keeps (w := w.of (by decide))
  with_reducible assumption

theorem execPathDown_keeps {m : Nat} {s0 : State} (unit : Fin 2) (pathK : Bool) (s : State) (h : s0.Keeps m s) {t : State} (e : execPathDown unit pathK s = .next t) (w : Within 0x8008 m := by exact Within.of (by assumption) (by decide)) :
    s0.Keeps m t := by
  unfold execPathDown at e
  injection e with e
  subst e
  with_reducible apply State.pathDown_keeps (w := w.of (by decide))
  with_reducible assumption

theorem execSwitchOverGapEnd_keeps {m : Nat} {s0 : State} (cycles : BitVec 16) (s : State) (h : s0.Keeps m s) {t : State} (e : execSwitchOverGapEnd cycles s = .next t) (w : Within 0xd918 m := by exact Within.of (by assumption) (by decide)) :
    s0.Keeps m t := by
  unfold execSwitchOverGapEnd at e
  injection e with e
  subst e
  with_reducible apply State.gapEnd_keeps (w := w.of (by decide))
  with_reducible assumption

theorem execDoorbellHold_keeps {m : Nat} {s0 : State} (src : Agent) (off : BitVec 24) (val : Word) (s : State) (h : s0.Keeps m s) {t : State} (e : execDoorbellHold src off val s = .next t) (w : Within 0xd918 m := by exact Within.of (by assumption) (by decide)) :
    s0.Keeps m t := by
  unfold execDoorbellHold at e
  injection e with e
  subst e
  split
  · with_reducible apply State.write_keeps (w := w.of (by decide))
    · with_reducible assumption
    · intro x0 x1
      with_reducible apply State.doorbellEffect_keeps (w := w.of (by decide))
      with_reducible assumption
  · with_reducible assumption

theorem execOwnershipLost_keeps {m : Nat} {s0 : State} (cycles : BitVec 16) (s : State) (h : s0.Keeps m s) {t : State} (e : execOwnershipLost cycles s = .next t) (w : Within 0x8008 m := by exact Within.of (by assumption) (by decide)) :
    s0.Keeps m t := by
  unfold execOwnershipLost at e
  injection e with e
  subst e
  with_reducible apply State.ownershipLost_keeps (w := w.of (by decide))
  with_reducible assumption

theorem execReturnPref_keeps {m : Nat} {s0 : State} (s : State) (h : s0.Keeps m s) {t : State} (e : execReturnPref s = .next t) (w : Within 0x8008 m := by exact Within.of (by assumption) (by decide)) :
    s0.Keeps m t := by
  unfold execReturnPref at e
  injection e with e
  subst e
  with_reducible apply State.returnPreferred_keeps (w := w.of (by decide))
  with_reducible assumption

theorem execDrillEnd_keeps {m : Nat} {s0 : State} (s : State) (h : s0.Keeps m s) {t : State} (e : execDrillEnd s = .next t) (w : Within 0x8008 m := by exact Within.of (by assumption) (by decide)) :
    s0.Keeps m t := by
  unfold execDrillEnd at e
  injection e with e
  subst e
  with_reducible apply State.drillEnd_keeps (w := w.of (by decide))
  with_reducible assumption

end Sys2Proof.Machine
end

