-- ==== Sys2Proof/Laws/KeepsNodeLife.lean ====
section
/-! SUPPORT. The operations of Machine/NodeLife.lean keep the queue and the invariant (`State.Keeps`). -/

namespace Sys2Proof.Machine

set_option Elab.async false
set_option linter.unusedVariables false

theorem State.startNode_keeps {m : Nat} {s0 : State} (s : State) (kept : List ℕ) (n : Node) (h : s0.Keeps m s) (w : Within 0x3f84108 m := by exact Within.of (by assumption) (by decide)) :
    s0.Keeps m (State.startNode s kept n) := by
  unfold State.startNode
  extract_lets a0 a1
  clear_value a0
  have k2 : s0.Keeps m a1 := by
    unfold a1
    split
    · with_reducible assumption
    · with_reducible apply State.setHq_keeps (w := w.of (by decide))
      with_reducible assumption
  clear_value a1
  split
  · with_reducible apply State.intakeStart_keeps (w := w.of (by decide))
    with_reducible assumption
  · with_reducible apply State.encStart_keeps (w := w.of (by decide))
    with_reducible assumption
  · with_reducible apply State.decStart_keeps (w := w.of (by decide))
    with_reducible assumption
  · with_reducible apply State.cmpStart_keeps (w := w.of (by decide))
    with_reducible assumption
  · with_reducible apply State.netStart_keeps (w := w.of (by decide))
    with_reducible assumption
  · with_reducible apply State.audStart_keeps (w := w.of (by decide))
    with_reducible assumption
  · with_reducible apply State.writerStart_keeps (w := w.of (by decide))
    with_reducible assumption
  · with_reducible apply State.hifStart_keeps (w := w.of (by decide))
    with_reducible assumption
  · with_reducible apply State.hifStart_keeps (w := w.of (by decide))
    with_reducible assumption
  · with_reducible assumption

theorem State.stopNode_keeps {m : Nat} {s0 : State} (s : State) (n : Node) (h : s0.Keeps m s) (w : Within 0x7f87518 m := by exact Within.of (by assumption) (by decide)) :
    s0.Keeps m (State.stopNode s n) := by
  unfold State.stopNode
  split
  · with_reducible apply State.intakeStop_keeps (w := w.of (by decide))
    with_reducible assumption
  · with_reducible apply State.encStop_keeps (w := w.of (by decide))
    with_reducible assumption
  · with_reducible apply State.decStop_keeps (w := w.of (by decide))
    with_reducible assumption
  · with_reducible apply State.cmpStop_keeps (w := w.of (by decide))
    with_reducible assumption
  · with_reducible apply State.netStop_keeps (w := w.of (by decide))
    with_reducible assumption
  · with_reducible apply State.audNodeStop_keeps (w := w.of (by decide))
    with_reducible assumption
  · with_reducible apply State.writerStop_keeps (w := w.of (by decide))
    with_reducible assumption
  · with_reducible apply State.hifStop_keeps (w := w.of (by decide))
    with_reducible assumption
  · with_reducible apply State.hifStop_keeps (w := w.of (by decide))
    with_reducible assumption
  · with_reducible apply State.setEng_keeps (w := w.of (by decide))
    with_reducible assumption

theorem State.cancelNode_keeps {m : Nat} {s0 : State} (s : State) (n : Node) (h : s0.Keeps m s) (w : Within 0x4007f18 m := by exact Within.of (by assumption) (by decide)) :
    s0.Keeps m (State.cancelNode s n) := by
  unfold State.cancelNode
  with_reducible apply State.each_keeps
  · intro x0 x1 x2
    with_reducible apply State.cancelTask_keeps (w := w.of (by decide))
    with_reducible assumption
  · with_reducible assumption

theorem State.dropFaults_keeps {m : Nat} {s0 : State} (s : State) (n : Node) (h : s0.Keeps m s) (w : Within 0x408 m := by exact Within.of (by assumption) (by decide)) :
    s0.Keeps m (State.dropFaults s n) := by
  unfold State.dropFaults
  extract_lets a0 a1 a2 a3
  clear_value a0
  clear_value a1
  have k4 : s0.Keeps m a2 := by
    unfold a2
    with_reducible apply State.setXlt_keeps (w := w.of (by decide))
    with_reducible assumption
  clear_value a2
  clear_value a3
  with_reducible apply State.noteCtx_keeps (w := w.of (by decide))
  with_reducible apply State.setXlt_keeps (w := w.of (by decide))
  with_reducible assumption

theorem State.removeNode_keeps {m : Nat} {s0 : State} (s : State) (n : Node) (h : s0.Keeps m s) (w : Within 0x7f87f18 m := by exact Within.of (by assumption) (by decide)) :
    s0.Keeps m (State.removeNode s n) := by
  unfold State.removeNode
  with_reducible apply State.dropFaults_keeps (w := w.of (by decide))
  with_reducible apply State.stopNode_keeps (w := w.of (by decide))
  with_reducible apply State.cancelNode_keeps (w := w.of (by decide))
  with_reducible assumption

theorem State.chanWithoutQueue_keeps {m : Nat} {s0 : State} (s : State) (c : ℕ) (q : ℕ) (h : s0.Keeps m s) (w : Within 0x4000 m := by exact Within.of (by assumption) (by decide)) :
    s0.Keeps m (State.chanWithoutQueue s c q) := by
  unfold State.chanWithoutQueue
  extract_lets a0
  clear_value a0
  split
  · with_reducible apply State.setChan_keeps (w := w.of (by decide))
    with_reducible assumption
  · split
    · with_reducible apply State.setChan_keeps (w := w.of (by decide))
      with_reducible assumption
    · with_reducible assumption

theorem State.removeEdge_keeps {m : Nat} {s0 : State} (s : State) (q : ℕ) (h : s0.Keeps m s) (w : Within 0x4328 m := by exact Within.of (by assumption) (by decide)) :
    s0.Keeps m (State.removeEdge s q) := by
  unfold State.removeEdge
  extract_lets a0 a1 a2 a3 a4 a5
  have k6 : s0.Keeps m a0 := by
    unfold a0
    with_reducible apply State.inc_keeps (w := w.of (by decide))
    with_reducible assumption
  clear_value a0
  have k7 : s0.Keeps m a1 := by
    unfold a1
    split
    · with_reducible apply State.unhaltEdge_keeps (w := w.of (by decide))
      with_reducible assumption
    · with_reducible assumption
  clear_value a1
  have k8 : s0.Keeps m a2 := by
    unfold a2
    with_reducible apply State.each_keeps
    · intro x9 x10 x11
      with_reducible apply State.setTask_keeps (w := w.of (by decide))
      with_reducible assumption
    · with_reducible assumption
  clear_value a2
  clear_value a3
  have k12 : s0.Keeps m a4 := by
    unfold a4
    with_reducible apply State.setHq_keeps (w := w.of (by decide))
    with_reducible assumption
  clear_value a4
  have k13 : s0.Keeps m a5 := by
    unfold a5
    with_reducible apply State.each_keeps
    · intro x14 x15 x16
      with_reducible apply State.chanWithoutQueue_keeps (w := w.of (by decide))
      with_reducible assumption
    · with_reducible assumption
  clear_value a5
  with_reducible apply State.setQueue_keeps (w := w.of (by decide))
  with_reducible apply State.setEdgeSeal_keeps (w := w.of (by decide))
  with_reducible assumption

end Sys2Proof.Machine
end

