-- ==== Sys2Proof/Laws/KeepsStructure.lean ====
section
/-! SUPPORT. The operations of Machine/Structure.lean keep the queue and the invariant (`State.Keeps`). -/

namespace Sys2Proof.Machine

set_option Elab.async false
set_option linter.unusedVariables false

theorem State.setShadow_keeps {m : Nat} {s0 : State} (s : State) (n : ℕ) (h : s0.Keeps m s) (w : Within 0x8 m := by exact Within.of (by assumption) (by decide)) :
    s0.Keeps m (State.setShadow s n) := by
  unfold State.setShadow
  with_reducible apply State.wr_keeps (w := w.of (by decide))
  with_reducible assumption

theorem State.strStatus_keeps {m : Nat} {s0 : State} (s : State) (code : ℕ) (h : s0.Keeps m s) (w : Within 0x8 m := by exact Within.of (by assumption) (by decide)) :
    s0.Keeps m (State.strStatus s code) := by
  unfold State.strStatus
  with_reducible apply State.wr_keeps (w := w.of (by decide))
  with_reducible assumption

theorem State.strError_keeps {m : Nat} {s0 : State} (s : State) (code : ℕ) (h : s0.Keeps m s) (w : Within 0x8 m := by exact Within.of (by assumption) (by decide)) :
    s0.Keeps m (State.strError s code) := by
  unfold State.strError
  with_reducible apply State.irq_keeps (w := w.of (by decide))
  with_reducible apply State.strStatus_keeps (w := w.of (by decide))
  with_reducible assumption

theorem State.strLoad_keeps {m : Nat} {s0 : State} (s : State) (h : s0.Keeps m s) (w : Within 0x88 m := by exact Within.of (by assumption) (by decide)) :
    s0.Keeps m (State.strLoad s) := by
  unfold State.strLoad
  split
  · extract_lets a0 a1 a2
    clear_value a0
    clear_value a1
    have k3 : s0.Keeps m a2 := by
      unfold a2
      with_reducible apply State.setStr_keeps (w := w.of (by decide))
      with_reducible assumption
    clear_value a2
    with_reducible apply State.wr_keeps (w := w.of (by decide))
    with_reducible apply State.strStatus_keeps (w := w.of (by decide))
    with_reducible apply State.setShadow_keeps (w := w.of (by decide))
    with_reducible assumption
  · with_reducible apply State.strError_keeps (w := w.of (by decide))
    with_reducible assumption

theorem State.strArm_keeps {m : Nat} {s0 : State} (s : State) (h : s0.Keeps m s) (w : Within 0x88 m := by exact Within.of (by assumption) (by decide)) :
    s0.Keeps m (State.strArm s) := by
  unfold State.strArm
  extract_lets a0 a1 a2 a3 a4 a5 a6 a7 a8 a9
  clear_value a0
  clear_value a1
  clear_value a2
  clear_value a3
  clear_value a4
  clear_value a5
  clear_value a6
  have k10 : s0.Keeps m a7 := by
    unfold a7
    with_reducible apply State.wr_keeps (w := w.of (by decide))
    with_reducible apply State.wr_keeps (w := w.of (by decide))
    with_reducible assumption
  clear_value a7
  clear_value a8
  have k11 : s0.Keeps m a9 := by
    unfold a9
    with_reducible apply State.setShadow_keeps (w := w.of (by decide))
    with_reducible apply State.setStr_keeps (w := w.of (by decide))
    with_reducible assumption
  clear_value a9
  split
  · with_reducible apply State.strError_keeps (w := w.of (by decide))
    with_reducible assumption
  · split
    · with_reducible apply State.strError_keeps (w := w.of (by decide))
      with_reducible assumption
    · split
      · split
        · with_reducible apply State.strError_keeps (w := w.of (by decide))
          with_reducible assumption
        · with_reducible apply State.strStatus_keeps (w := w.of (by decide))
          with_reducible assumption
      · split
        · with_reducible apply State.strError_keeps (w := w.of (by decide))
          with_reducible assumption
        · with_reducible apply State.strStatus_keeps (w := w.of (by decide))
          with_reducible assumption

theorem State.unprepare_keeps {m : Nat} {s0 : State} (s : State) (h : s0.Keeps m s) (w : Within 0x1004100 m := by exact Within.of (by assumption) (by decide)) :
    s0.Keeps m (State.unprepare s) := by
  unfold State.unprepare
  extract_lets a0 a1 a2
  have k3 : s0.Keeps m a0 := by
    unfold a0
    with_reducible apply State.each_keeps
    · intro x4 x5 x6
      with_reducible apply State.setQueue_keeps (w := w.of (by decide))
      with_reducible assumption
    · with_reducible assumption
  clear_value a0
  clear_value a1
  clear_value a2
  with_reducible apply State.setNet_keeps (w := w.of (by decide))
  with_reducible apply State.setHif_keeps (w := w.of (by decide))
  with_reducible assumption

theorem State.clearShadow_keeps {m : Nat} {s0 : State} (s : State) (h : s0.Keeps m s) (w : Within 0x88 m := by exact Within.of (by assumption) (by decide)) :
    s0.Keeps m (State.clearShadow s) := by
  unfold State.clearShadow
  with_reducible apply State.wr_keeps (w := w.of (by decide))
  with_reducible apply State.setShadow_keeps (w := w.of (by decide))
  with_reducible apply State.setStr_keeps (w := w.of (by decide))
  with_reducible assumption

theorem State.strCancel_keeps {m : Nat} {s0 : State} (s : State) (h : s0.Keeps m s) (w : Within 0x1004188 m := by exact Within.of (by assumption) (by decide)) :
    s0.Keeps m (State.strCancel s) := by
  unfold State.strCancel
  split
  · with_reducible apply State.strStatus_keeps (w := w.of (by decide))
    with_reducible apply State.clearShadow_keeps (w := w.of (by decide))
    with_reducible assumption
  · with_reducible apply State.strStatus_keeps (w := w.of (by decide))
    with_reducible apply State.clearShadow_keeps (w := w.of (by decide))
    with_reducible assumption
  · with_reducible apply State.strStatus_keeps (w := w.of (by decide))
    with_reducible apply State.clearShadow_keeps (w := w.of (by decide))
    with_reducible assumption
  · extract_lets a0 a1
    have k2 : s0.Keeps m a0 := by
      unfold a0
      with_reducible apply State.unprepare_keeps (w := w.of (by decide))
      with_reducible assumption
    clear_value a0
    clear_value a1
    with_reducible apply State.strStatus_keeps (w := w.of (by decide))
    split
    · with_reducible apply State.setShadow_keeps (w := w.of (by decide))
      with_reducible apply State.setStr_keeps (w := w.of (by decide))
      with_reducible assumption
    · with_reducible apply State.clearShadow_keeps (w := w.of (by decide))
      with_reducible assumption
  · extract_lets a3 a4
    have k5 : s0.Keeps m a3 := by
      unfold a3
      with_reducible apply State.unprepare_keeps (w := w.of (by decide))
      with_reducible assumption
    clear_value a3
    clear_value a4
    with_reducible apply State.strStatus_keeps (w := w.of (by decide))
    split
    · with_reducible apply State.setShadow_keeps (w := w.of (by decide))
      with_reducible apply State.setStr_keeps (w := w.of (by decide))
      with_reducible assumption
    · with_reducible apply State.clearShadow_keeps (w := w.of (by decide))
      with_reducible assumption
  · with_reducible assumption

theorem State.strRetireForce_keeps {m : Nat} {s0 : State} (s : State) (h : s0.Keeps m s) (w : Within 0x88 m := by exact Within.of (by assumption) (by decide)) :
    s0.Keeps m (State.strRetireForce s) := by
  unfold State.strRetireForce
  split
  · with_reducible apply State.strStatus_keeps (w := w.of (by decide))
    with_reducible apply State.setStr_keeps (w := w.of (by decide))
    with_reducible assumption
  · with_reducible assumption

theorem State.strCtrl_keeps {m : Nat} {s0 : State} (s : State) (val : Word) (h : s0.Keeps m s) (w : Within 0x1004188 m := by exact Within.of (by assumption) (by decide)) :
    s0.Keeps m (State.strCtrl s val) := by
  unfold State.strCtrl
  extract_lets a0 a1 a2 a3
  have k4 : s0.Keeps m a0 := by
    unfold a0
    with_reducible apply State.plainWrite_keeps (w := w.of (by decide))
    with_reducible assumption
  clear_value a0
  have k5 : s0.Keeps m a1 := by
    unfold a1
    split
    · with_reducible apply State.strLoad_keeps (w := w.of (by decide))
      with_reducible assumption
    · with_reducible assumption
  clear_value a1
  have k6 : s0.Keeps m a2 := by
    unfold a2
    split
    · with_reducible apply State.strArm_keeps (w := w.of (by decide))
      with_reducible assumption
    · with_reducible assumption
  clear_value a2
  have k7 : s0.Keeps m a3 := by
    unfold a3
    split
    · with_reducible apply State.strCancel_keeps (w := w.of (by decide))
      with_reducible assumption
    · with_reducible assumption
  clear_value a3
  split
  · with_reducible apply State.strRetireForce_keeps (w := w.of (by decide))
    with_reducible assumption
  · with_reducible assumption

theorem State.strRegWrite_keeps {m : Nat} {s0 : State} (s : State) (o : ℕ) (val : Word) (h : s0.Keeps m s) (w : Within 0x1004188 m := by exact Within.of (by assumption) (by decide)) :
    s0.Keeps m (State.strRegWrite s o val) := by
  unfold State.strRegWrite
  split
  · with_reducible apply State.strCtrl_keeps (w := w.of (by decide))
    with_reducible assumption
  · with_reducible apply State.plainWrite_keeps (w := w.of (by decide))
    with_reducible assumption

theorem State.validationDone_keeps {m : Nat} {s0 : State} (s : State) (h : s0.Keeps m s) (w : Within 0x88 m := by exact Within.of (by assumption) (by decide)) :
    s0.Keeps m (State.validationDone s) := by
  unfold State.validationDone
  split
  · with_reducible assumption
  · split
    · split
      · extract_lets a0 a1
        have k2 : s0.Keeps m a0 := by
          unfold a0
          with_reducible apply State.wr_keeps (w := w.of (by decide))
          with_reducible apply State.wr_keeps (w := w.of (by decide))
          with_reducible assumption
        clear_value a0
        clear_value a1
        with_reducible apply State.strError_keeps (w := w.of (by decide))
        with_reducible apply State.setShadow_keeps (w := w.of (by decide))
        with_reducible apply State.setStr_keeps (w := w.of (by decide))
        with_reducible assumption
      · extract_lets a3 a4
        clear_value a3
        have k5 : s0.Keeps m a4 := by
          unfold a4
          with_reducible apply State.wr_keeps (w := w.of (by decide))
          with_reducible apply State.setStr_keeps (w := w.of (by decide))
          with_reducible assumption
        clear_value a4
        split
        · with_reducible apply State.setShadow_keeps (w := w.of (by decide))
          with_reducible assumption
        · with_reducible assumption
    · with_reducible assumption

theorem State.swapped_keeps {m : Nat} {s0 : State} (s : State) (num : ℕ) (h : s0.Keeps m s) (w : Within 0x88 m := by exact Within.of (by assumption) (by decide)) :
    s0.Keeps m (State.swapped s num) := by
  unfold State.swapped
  extract_lets a0 a1 a2
  have k3 : s0.Keeps m a0 := by
    unfold a0
    with_reducible apply State.wr_keeps (w := w.of (by decide))
    with_reducible apply State.inc_keeps (w := w.of (by decide))
    with_reducible apply State.wr_keeps (w := w.of (by decide))
    with_reducible assumption
  clear_value a0
  clear_value a1
  have k4 : s0.Keeps m a2 := by
    unfold a2
    with_reducible apply State.wr_keeps (w := w.of (by decide))
    with_reducible apply State.setStr_keeps (w := w.of (by decide))
    with_reducible assumption
  clear_value a2
  with_reducible apply State.irq_keeps (w := w.of (by decide))
  with_reducible apply State.setShadow_keeps (w := w.of (by decide))
  with_reducible assumption

theorem State.retireTables_keeps {m : Nat} {s0 : State} (s : State) (old : List Table) (kept : List Node) (h : s0.Keeps m s) (w : Within 0x80 m := by exact Within.of (by assumption) (by decide)) :
    s0.Keeps m (State.retireTables s old kept) := by
  unfold State.retireTables
  extract_lets a0 a1
  clear_value a0
  clear_value a1
  with_reducible apply State.setStr_keeps (w := w.of (by decide))
  with_reducible assumption

theorem State.swapTables_keeps {m : Nat} {s0 : State} (s : State) (i : Image) (num : ℕ) (h : s0.Keeps m s) (w : Within 0x88 m := by exact Within.of (by assumption) (by decide)) :
    s0.Keeps m (State.swapTables s i num) := by
  unfold State.swapTables
  extract_lets a0 a1 a2 a3
  clear_value a0
  clear_value a1
  clear_value a2
  have k4 : s0.Keeps m a3 := by
    unfold a3
    with_reducible apply State.setStr_keeps (w := w.of (by decide))
    with_reducible assumption
  clear_value a3
  with_reducible apply State.swapped_keeps (w := w.of (by decide))
  with_reducible apply State.wr_keeps (w := w.of (by decide))
  with_reducible apply State.retireTables_keeps (w := w.of (by decide))
  with_reducible assumption

theorem State.rejoinHost_keeps {m : Nat} {s0 : State} (s : State) (n : Node) (h : s0.Keeps m s) (w : Within 0x4000 m := by exact Within.of (by assumption) (by decide)) :
    s0.Keeps m (State.rejoinHost s n) := by
  unfold State.rejoinHost
  extract_lets a0
  clear_value a0
  with_reducible apply State.each_keeps
  · intro x1 x2 x3
    split
    · with_reducible assumption
    · with_reducible apply State.setChan_keeps (w := w.of (by decide))
      with_reducible assumption
  · with_reducible assumption

theorem State.swapFull_keeps {m : Nat} {s0 : State} (s : State) (i : Image) (num : ℕ) (h : s0.Keeps m s) (w : Within 0x7f87fb8 m := by exact Within.of (by assumption) (by decide)) :
    s0.Keeps m (State.swapFull s i num) := by
  unfold State.swapFull
  extract_lets a0 a1 a2 a3 a4 a5 a6 a7 a8 a9 a10 a11 a12 a13 a14 a15 a16 a17
  clear_value a0
  clear_value a1
  clear_value a2
  clear_value a3
  clear_value a4
  have k18 : s0.Keeps m a5 := by
    unfold a5
    with_reducible apply State.each_keeps
    · intro x19 x20 x21
      with_reducible apply State.removeNode_keeps (w := w.of (by decide))
      with_reducible assumption
    · with_reducible assumption
  clear_value a5
  have k22 : s0.Keeps m a6 := by
    unfold a6
    with_reducible apply State.each_keeps
    · intro x23 x24 x25
      with_reducible apply State.removeEdge_keeps (w := w.of (by decide))
      with_reducible assumption
    · with_reducible assumption
  clear_value a6
  clear_value a7
  clear_value a8
  clear_value a9
  have k26 : s0.Keeps m a10 := by
    unfold a10
    with_reducible apply State.setStr_keeps (w := w.of (by decide))
    with_reducible assumption
  clear_value a10
  have k27 : s0.Keeps m a11 := by
    unfold a11
    with_reducible apply State.each_keeps
    · intro x28 x29 x30
      with_reducible apply State.rejoinHost_keeps (w := w.of (by decide))
      with_reducible assumption
    · with_reducible assumption
  clear_value a11
  have k31 : s0.Keeps m a12 := by
    unfold a12
    with_reducible apply State.each_keeps
    · intro x32 x33 x34
      extract_lets a35
      clear_value a35
      with_reducible apply State.setQueue_keeps (w := w.of (by decide))
      with_reducible apply State.setEdgeSeal_keeps (w := w.of (by decide))
      with_reducible assumption
    · with_reducible assumption
  clear_value a12
  have k36 : s0.Keeps m a13 := by
    unfold a13
    with_reducible apply State.each_keeps
    · intro x37 x38 x39
      with_reducible apply State.startNode_keeps (w := w.of (by decide))
      with_reducible assumption
    · with_reducible assumption
  clear_value a13
  clear_value a14
  clear_value a15
  have k40 : s0.Keeps m a16 := by
    unfold a16
    with_reducible apply State.setNet_keeps (w := w.of (by decide))
    with_reducible apply State.setHif_keeps (w := w.of (by decide))
    with_reducible assumption
  clear_value a16
  have k41 : s0.Keeps m a17 := by
    unfold a17
    with_reducible apply State.each_keeps
    · intro x42 x43 x44
      with_reducible apply State.islandDemand_keeps (w := w.of (by decide))
      with_reducible assumption
    · with_reducible assumption
  clear_value a17
  with_reducible apply State.swapped_keeps (w := w.of (by decide))
  with_reducible apply State.wr_keeps (w := w.of (by decide))
  with_reducible apply State.wr_keeps (w := w.of (by decide))
  with_reducible apply State.retireTables_keeps (w := w.of (by decide))
  with_reducible assumption

theorem State.swap_keeps {m : Nat} {s0 : State} (s : State) (num : ℕ) (h : s0.Keeps m s) (w : Within 0x7f87fb8 m := by exact Within.of (by assumption) (by decide)) :
    s0.Keeps m (State.swap s num) := by
  unfold State.swap
  split
  · with_reducible assumption
  · split
    · with_reducible apply State.swapTables_keeps (w := w.of (by decide))
      with_reducible assumption
    · with_reducible apply State.swapFull_keeps (w := w.of (by decide))
      with_reducible assumption

theorem State.prepare_keeps {m : Nat} {s0 : State} (s : State) (i : Image) (h : s0.Keeps m s) (w : Within 0x1004100 m := by exact Within.of (by assumption) (by decide)) :
    s0.Keeps m (State.prepare s i) := by
  unfold State.prepare
  split
  · with_reducible assumption
  · extract_lets a0 a1 a2 a3 a4 a5
    clear_value a0
    clear_value a1
    clear_value a2
    clear_value a3
    clear_value a4
    have k6 : s0.Keeps m a5 := by
      unfold a5
      with_reducible apply State.setNet_keeps (w := w.of (by decide))
      with_reducible apply State.setHif_keeps (w := w.of (by decide))
      with_reducible assumption
    clear_value a5
    with_reducible apply State.each_keeps
    · intro x7 x8 x9
      split
      · with_reducible assumption
      · with_reducible apply State.setQueue_keeps (w := w.of (by decide))
        with_reducible assumption
    · with_reducible assumption

theorem State.preparationDone_keeps {m : Nat} {s0 : State} (s : State) (h : s0.Keeps m s) (w : Within 0x7f87fb8 m := by exact Within.of (by assumption) (by decide)) :
    s0.Keeps m (State.preparationDone s) := by
  unfold State.preparationDone
  split
  · split
    · extract_lets a0
      have k1 : s0.Keeps m a0 := by
        unfold a0
        with_reducible apply State.setShadow_keeps (w := w.of (by decide))
        with_reducible apply State.prepare_keeps (w := w.of (by decide))
        with_reducible assumption
      clear_value a0
      split
      · with_reducible apply State.swap_keeps (w := w.of (by decide))
        with_reducible assumption
      · with_reducible assumption
    · with_reducible assumption
  · with_reducible assumption

theorem State.carry_keeps {m : Nat} {s0 : State} (s : State) (a : Arm) (h : s0.Keeps m s) (w : Within 0x88 m := by exact Within.of (by assumption) (by decide)) :
    s0.Keeps m (State.carry s a) := by
  unfold State.carry
  extract_lets a0 a1
  clear_value a0
  have k2 : s0.Keeps m a1 := by
    unfold a1
    with_reducible apply State.setStr_keeps (w := w.of (by decide))
    with_reducible assumption
  clear_value a1
  with_reducible apply State.irq_keeps (w := w.of (by decide))
  with_reducible apply State.strStatus_keeps (w := w.of (by decide))
  with_reducible apply State.inc_keeps (w := w.of (by decide))
  with_reducible assumption

theorem State.epochOf_keeps {m : Nat} {s0 : State} (s : State) (tb : ℕ) (num : ℕ) (h : s0.Keeps m s) (w : Within 0x7f87fb8 m := by exact Within.of (by assumption) (by decide)) :
    s0.Keeps m (State.epochOf s tb num) := by
  unfold State.epochOf
  extract_lets a0 a1
  clear_value a0
  have k2 : s0.Keeps m a1 := by
    unfold a1
    with_reducible apply State.setStr_keeps (w := w.of (by decide))
    with_reducible assumption
  clear_value a1
  split
  · with_reducible assumption
  · split
    · with_reducible apply State.swap_keeps (w := w.of (by decide))
      with_reducible assumption
    · split
      · with_reducible apply State.carry_keeps (w := w.of (by decide))
        with_reducible assumption
      · with_reducible assumption

theorem State.cancelWith_keeps {m : Nat} {s0 : State} (s : State) (was : Option Arm) (cancel : Bool) (h : s0.Keeps m s) (w : Within 0x1004188 m := by exact Within.of (by assumption) (by decide)) :
    s0.Keeps m (State.cancelWith s was cancel) := by
  unfold State.cancelWith
  split
  · with_reducible assumption
  · split
    · with_reducible apply State.strStatus_keeps (w := w.of (by decide))
      with_reducible assumption
    · with_reducible apply State.strCancel_keeps (w := w.of (by decide))
      with_reducible assumption

theorem State.sourceEpoch_keeps {m : Nat} {s0 : State} (s : State) (kind : ℕ) (source : ℕ) (num : ℕ) (h : s0.Keeps m s) (w : Within 0x7f87fb8 m := by exact Within.of (by assumption) (by decide)) :
    s0.Keeps m (State.sourceEpoch s kind source num) := by
  unfold State.sourceEpoch
  with_reducible apply State.each_keeps
  · intro x0 x1 x2
    with_reducible apply State.epochOf_keeps (w := w.of (by decide))
    with_reducible assumption
  · with_reducible assumption

theorem State.periodEpoch_keeps {m : Nat} {s0 : State} (s : State) (tb : ℕ) (h : s0.Keeps m s) (w : Within 0x7f87fb8 m := by exact Within.of (by assumption) (by decide)) :
    s0.Keeps m (State.periodEpoch s tb) := by
  unfold State.periodEpoch
  split
  · with_reducible assumption
  · with_reducible apply State.epochOf_keeps (w := w.of (by decide))
    with_reducible assumption

theorem State.timebaseLost_keeps {m : Nat} {s0 : State} (s : State) (tb : ℕ) (h : s0.Keeps m s) (w : Within 0x88 m := by exact Within.of (by assumption) (by decide)) :
    s0.Keeps m (State.timebaseLost s tb) := by
  unfold State.timebaseLost
  split
  · split
    · with_reducible apply State.strStatus_keeps (w := w.of (by decide))
      with_reducible apply State.setStr_keeps (w := w.of (by decide))
      with_reducible assumption
    · with_reducible assumption
  · with_reducible assumption

theorem execLoad_keeps {m : Nat} {s0 : State} (src : Agent) (val : Word) (s : State) (h : s0.Keeps m s) {t : State} (e : execLoad src val s = .next t) (w : Within 0x100c188 m := by exact Within.of (by assumption) (by decide)) :
    s0.Keeps m t := by
  unfold execLoad at e
  injection e with e
  subst e
  with_reducible apply State.writeReg_keeps (w := w.of (by decide))
  · with_reducible assumption
  · intro x0 x1
    with_reducible apply State.strCtrl_keeps (w := w.of (by decide))
    with_reducible assumption

theorem execArm_keeps {m : Nat} {s0 : State} (src : Agent) (val : Word) (s : State) (h : s0.Keeps m s) {t : State} (e : execArm src val s = .next t) (w : Within 0x100c188 m := by exact Within.of (by assumption) (by decide)) :
    s0.Keeps m t := by
  unfold execArm at e
  injection e with e
  subst e
  with_reducible apply State.writeReg_keeps (w := w.of (by decide))
  · with_reducible assumption
  · intro x0 x1
    with_reducible apply State.strCtrl_keeps (w := w.of (by decide))
    with_reducible assumption

theorem execStrCancel_keeps {m : Nat} {s0 : State} (src : Agent) (val : Word) (s : State) (h : s0.Keeps m s) {t : State} (e : execStrCancel src val s = .next t) (w : Within 0x100c188 m := by exact Within.of (by assumption) (by decide)) :
    s0.Keeps m t := by
  unfold execStrCancel at e
  injection e with e
  subst e
  with_reducible apply State.writeReg_keeps (w := w.of (by decide))
  · with_reducible assumption
  · intro x0 x1
    with_reducible apply State.strCtrl_keeps (w := w.of (by decide))
    with_reducible assumption

theorem execRetireForce_keeps {m : Nat} {s0 : State} (src : Agent) (val : Word) (s : State) (h : s0.Keeps m s) {t : State} (e : execRetireForce src val s = .next t) (w : Within 0x100c188 m := by exact Within.of (by assumption) (by decide)) :
    s0.Keeps m t := by
  unfold execRetireForce at e
  injection e with e
  subst e
  with_reducible apply State.writeReg_keeps (w := w.of (by decide))
  · with_reducible assumption
  · intro x0 x1
    with_reducible apply State.strCtrl_keeps (w := w.of (by decide))
    with_reducible assumption

theorem execValidationDone_keeps {m : Nat} {s0 : State} (s : State) (h : s0.Keeps m s) {t : State} (e : execValidationDone s = .next t) (w : Within 0x88 m := by exact Within.of (by assumption) (by decide)) :
    s0.Keeps m t := by
  unfold execValidationDone at e
  injection e with e
  subst e
  with_reducible apply State.validationDone_keeps (w := w.of (by decide))
  with_reducible assumption

theorem execPreparationDone_keeps {m : Nat} {s0 : State} (s : State) (h : s0.Keeps m s) {t : State} (e : execPreparationDone s = .next t) (w : Within 0x7f87fb8 m := by exact Within.of (by assumption) (by decide)) :
    s0.Keeps m t := by
  unfold execPreparationDone at e
  injection e with e
  subst e
  with_reducible apply State.preparationDone_keeps (w := w.of (by decide))
  with_reducible assumption

theorem execTimebaseEpoch_keeps {m : Nat} {s0 : State} (tb : Fin 16) (cancel : Bool) (s : State) (h : s0.Keeps m s) {t : State} (e : execTimebaseEpoch tb cancel s = .next t) (w : Within 0x7f87fb8 m := by exact Within.of (by assumption) (by decide)) :
    s0.Keeps m t := by
  unfold execTimebaseEpoch at e
  injection e with e
  subst e
  with_reducible apply State.cancelWith_keeps (w := w.of (by decide))
  with_reducible apply State.periodEpoch_keeps (w := w.of (by decide))
  with_reducible assumption

theorem execTimebaseLost_keeps {m : Nat} {s0 : State} (tb : Fin 16) (s : State) (h : s0.Keeps m s) {t : State} (e : execTimebaseLost tb s = .next t) (w : Within 0x88 m := by exact Within.of (by assumption) (by decide)) :
    s0.Keeps m t := by
  unfold execTimebaseLost at e
  injection e with e
  subst e
  with_reducible apply State.timebaseLost_keeps (w := w.of (by decide))
  with_reducible assumption

end Sys2Proof.Machine
end

