-- ==== Sys2Proof/Laws/KeepsSensor.lean ====
section
/-! SUPPORT. The operations of Machine/Sensor.lean keep the queue and the invariant (`State.Keeps`). -/

namespace Sys2Proof.Machine

set_option Elab.async false
set_option linter.unusedVariables false

theorem State.grpStatus_keeps {m : Nat} {s0 : State} (s : State) (g : ℕ) (code : ℕ) (h : s0.Keeps m s) (w : Within 0x8 m := by exact Within.of (by assumption) (by decide)) :
    s0.Keeps m (State.grpStatus s g code) := by
  unfold State.grpStatus
  with_reducible apply State.wr_keeps (w := w.of (by decide))
  with_reducible assumption

theorem State.seqStatus_keeps {m : Nat} {s0 : State} (s : State) (g : ℕ) (code : ℕ) (h : s0.Keeps m s) (w : Within 0x8 m := by exact Within.of (by assumption) (by decide)) :
    s0.Keeps m (State.seqStatus s g code) := by
  unfold State.seqStatus
  with_reducible apply State.wr_keeps (w := w.of (by decide))
  with_reducible assumption

theorem State.grpFlag_keeps {m : Nat} {s0 : State} (s : State) (g : ℕ) (bit : ℕ) (h : s0.Keeps m s) (w : Within 0x8 m := by exact Within.of (by assumption) (by decide)) :
    s0.Keeps m (State.grpFlag s g bit) := by
  unfold State.grpFlag
  with_reducible apply State.irq_keeps (w := w.of (by decide))
  with_reducible assumption

theorem State.setGstate_keeps {m : Nat} {s0 : State} (s : State) (g : ℕ) (st : ℕ) (h : s0.Keeps m s) (w : Within 0x8 m := by exact Within.of (by assumption) (by decide)) :
    s0.Keeps m (State.setGstate s g st) := by
  unfold State.setGstate
  extract_lets a0 a1
  clear_value a0
  have k2 : s0.Keeps m a1 := by
    unfold a1
    with_reducible apply State.wr_keeps (w := w.of (by decide))
    with_reducible assumption
  clear_value a1
  split
  · with_reducible apply State.grpFlag_keeps (w := w.of (by decide))
    with_reducible assumption
  · with_reducible assumption

theorem State.slkSend_keeps {m : Nat} {s0 : State} (s : State) (g : ℕ) (typ : ℕ) (tag : ℕ) (payload : List Byte) (h : s0.Keeps m s) (w : Within 0x40000 m := by exact Within.of (by assumption) (by decide)) :
    s0.Keeps m (State.slkSend s g typ tag payload) := by
  unfold State.slkSend
  extract_lets a0 a1
  clear_value a0
  clear_value a1
  with_reducible apply State.setGrp_keeps (w := w.of (by decide))
  with_reducible assumption

theorem State.slkNotice_keeps {m : Nat} {s0 : State} (s : State) (g : ℕ) (typ : ℕ) (b : ℕ) (h : s0.Keeps m s) (w : Within 0x40000 m := by exact Within.of (by assumption) (by decide)) :
    s0.Keeps m (State.slkNotice s g typ b) := by
  unfold State.slkNotice
  with_reducible apply State.slkSend_keeps (w := w.of (by decide))
  with_reducible assumption

theorem State.onFrame_keeps {m : Nat} {s0 : State} (s : State) (n : Node) (f : IFrame → IFrame) (h : s0.Keeps m s) (w : Within 0x80000 m := by exact Within.of (by assumption) (by decide)) :
    s0.Keeps m (State.onFrame s n f) := by
  unfold State.onFrame
  extract_lets a0
  clear_value a0
  split
  · with_reducible assumption
  · with_reducible apply State.setIntake_keeps (w := w.of (by decide))
    with_reducible assumption

theorem State.afterFe_keeps {m : Nat} {s0 : State} (s : State) (n : Node) (h : s0.Keeps m s) (w : Within 0x4085198 m := by exact Within.of (by assumption) (by decide)) :
    s0.Keeps m (State.afterFe s n) := by
  unfold State.afterFe
  extract_lets a0 a1
  clear_value a0
  have k2 : s0.Keeps m a1 := by
    unfold a1
    split
    · with_reducible apply State.completeFrame_keeps (w := w.of (by decide))
      with_reducible assumption
    · with_reducible assumption
  clear_value a1
  with_reducible apply State.emitReady_keeps (w := w.of (by decide))
  with_reducible assumption

theorem State.lanesTo_keeps {m : Nat} {s0 : State} (s : State) (g : ℕ) (st : ℕ) (h : s0.Keeps m s) (w : Within 0x8 m := by exact Within.of (by assumption) (by decide)) :
    s0.Keeps m (State.lanesTo s g st) := by
  unfold State.lanesTo
  with_reducible apply State.each_keeps
  · intro x0 x1 x2
    with_reducible apply State.wr_keeps (w := w.of (by decide))
    with_reducible assumption
  · with_reducible assumption

theorem State.underrun_keeps {m : Nat} {s0 : State} (s : State) (g : ℕ) (dest : ℕ) (h : s0.Keeps m s) (w : Within 0x40c5198 m := by exact Within.of (by assumption) (by decide)) :
    s0.Keeps m (State.underrun s g dest) := by
  unfold State.underrun
  split
  · with_reducible assumption
  · extract_lets a0 a1 a2 a3 a4
    have k5 : s0.Keeps m a0 := by
      unfold a0
      with_reducible apply State.grpFlag_keeps (w := w.of (by decide))
      with_reducible apply State.inc_keeps (w := w.of (by decide))
      with_reducible assumption
    clear_value a0
    have k6 : s0.Keeps m a1 := by
      unfold a1
      with_reducible apply State.grpStatus_keeps (w := w.of (by decide))
      split
      · with_reducible assumption
      · with_reducible apply State.grpStatus_keeps (w := w.of (by decide))
        with_reducible assumption
    clear_value a1
    have k7 : s0.Keeps m a2 := by
      unfold a2
      with_reducible apply State.setGstate_keeps (w := w.of (by decide))
      with_reducible assumption
    clear_value a2
    clear_value a3
    have k8 : s0.Keeps m a4 := by
      unfold a4
      with_reducible apply State.setGrp_keeps (w := w.of (by decide))
      with_reducible assumption
    clear_value a4
    split
    · with_reducible assumption
    · with_reducible apply State.afterFe_keeps (w := w.of (by decide))
      with_reducible apply State.onFrame_keeps (w := w.of (by decide))
      with_reducible assumption

theorem State.resync_keeps {m : Nat} {s0 : State} (s : State) (g : ℕ) (h : s0.Keeps m s) (w : Within 0x40c5198 m := by exact Within.of (by assumption) (by decide)) :
    s0.Keeps m (State.resync s g) := by
  unfold State.resync
  split
  · with_reducible apply State.lanesTo_keeps (w := w.of (by decide))
    with_reducible apply State.underrun_keeps (w := w.of (by decide))
    with_reducible assumption
  · with_reducible assumption

theorem State.setClk_keeps {m : Nat} {s0 : State} (s : State) (g : ℕ) (c : ℕ) (h : s0.Keeps m s) (w : Within 0x8 m := by exact Within.of (by assumption) (by decide)) :
    s0.Keeps m (State.setClk s g c) := by
  unfold State.setClk
  split
  · with_reducible assumption
  · with_reducible apply State.grpFlag_keeps (w := w.of (by decide))
    with_reducible apply State.wr_keeps (w := w.of (by decide))
    with_reducible assumption

theorem State.cdrLocked_keeps {m : Nat} {s0 : State} (s : State) (l : ℕ) (h : s0.Keeps m s) (w : Within 0x8 m := by exact Within.of (by assumption) (by decide)) :
    s0.Keeps m (State.cdrLocked s l) := by
  unfold State.cdrLocked
  split
  · with_reducible apply State.wr_keeps (w := w.of (by decide))
    with_reducible assumption
  · with_reducible assumption

theorem State.laneAligned_keeps {m : Nat} {s0 : State} (s : State) (l : ℕ) (h : s0.Keeps m s) (w : Within 0x40008 m := by exact Within.of (by assumption) (by decide)) :
    s0.Keeps m (State.laneAligned s l) := by
  unfold State.laneAligned
  split
  · extract_lets a0 a1 a2
    have k3 : s0.Keeps m a0 := by
      unfold a0
      with_reducible apply State.wr_keeps (w := w.of (by decide))
      with_reducible assumption
    clear_value a0
    clear_value a1
    have k4 : s0.Keeps m a2 := by
      unfold a2
      with_reducible apply State.setGrp_keeps (w := w.of (by decide))
      with_reducible assumption
    clear_value a2
    split
    · with_reducible apply State.setGstate_keeps (w := w.of (by decide))
      with_reducible assumption
    · with_reducible assumption
  · with_reducible assumption

theorem State.laneLost_keeps {m : Nat} {s0 : State} (s : State) (l : ℕ) (h : s0.Keeps m s) (w : Within 0x40c5198 m := by exact Within.of (by assumption) (by decide)) :
    s0.Keeps m (State.laneLost s l) := by
  unfold State.laneLost
  extract_lets a0 a1 a2 a3
  clear_value a0
  have k4 : s0.Keeps m a1 := by
    unfold a1
    with_reducible apply State.wr_keeps (w := w.of (by decide))
    with_reducible assumption
  clear_value a1
  clear_value a2
  have k5 : s0.Keeps m a3 := by
    unfold a3
    with_reducible apply State.setGrp_keeps (w := w.of (by decide))
    with_reducible assumption
  clear_value a3
  split
  · with_reducible assumption
  · split
    · with_reducible apply State.setGstate_keeps (w := w.of (by decide))
      with_reducible assumption
    · with_reducible apply State.resync_keeps (w := w.of (by decide))
      with_reducible assumption

theorem State.laneGroup_keeps {m : Nat} {s0 : State} (s : State) (l : ℕ) (v : ℕ) (h : s0.Keeps m s) (w : Within 0x40c5198 m := by exact Within.of (by assumption) (by decide)) :
    s0.Keeps m (State.laneGroup s l v) := by
  unfold State.laneGroup
  split
  · with_reducible assumption
  · extract_lets a0 a1 a2 a3 a4
    clear_value a0
    clear_value a1
    clear_value a2
    have k5 : s0.Keeps m a3 := by
      unfold a3
      with_reducible apply State.setGrp_keeps (w := w.of (by decide))
      with_reducible assumption
    clear_value a3
    have k6 : s0.Keeps m a4 := by
      unfold a4
      split
      · with_reducible apply State.inc_keeps (w := w.of (by decide))
        with_reducible assumption
      · with_reducible assumption
    clear_value a4
    split
    · with_reducible apply State.laneLost_keeps (w := w.of (by decide))
      with_reducible assumption
    · with_reducible assumption

theorem State.laneGroups_keeps {m : Nat} {s0 : State} (s : State) (l : ℕ) (groups : List (BitVec 10)) (h : s0.Keeps m s) (w : Within 0x40c5198 m := by exact Within.of (by assumption) (by decide)) :
    s0.Keeps m (State.laneGroups s l groups) := by
  unfold State.laneGroups
  split
  · with_reducible apply State.each_keeps
    · intro x0 x1 x2
      with_reducible apply State.laneGroup_keeps (w := w.of (by decide))
      with_reducible assumption
    · with_reducible assumption
  · with_reducible assumption

theorem State.seqEnd_keeps {m : Nat} {s0 : State} (s : State) (g : ℕ) (h : s0.Keeps m s) (w : Within 0x40008 m := by exact Within.of (by assumption) (by decide)) :
    s0.Keeps m (State.seqEnd s g) := by
  unfold State.seqEnd
  extract_lets a0 a1
  clear_value a0
  have k2 : s0.Keeps m a1 := by
    unfold a1
    with_reducible apply State.setGrp_keeps (w := w.of (by decide))
    with_reducible assumption
  clear_value a1
  with_reducible apply State.grpFlag_keeps (w := w.of (by decide))
  with_reducible apply State.wr_keeps (w := w.of (by decide))
  with_reducible apply State.wr_keeps (w := w.of (by decide))
  with_reducible assumption

theorem State.seqPhase_keeps {m : Nat} {s0 : State} (s : State) (g : ℕ) (p : SeqPhase) (waits : Bool) (h : s0.Keeps m s) (w : Within 0x40008 m := by exact Within.of (by assumption) (by decide)) :
    s0.Keeps m (State.seqPhase s g p waits) := by
  unfold State.seqPhase
  with_reducible apply State.wrB_keeps (w := w.of (by decide))
  with_reducible apply State.setGrp_keeps (w := w.of (by decide))
  with_reducible assumption

theorem State.seqSend_keeps {m : Nat} {s0 : State} (s : State) (g : ℕ) (h : s0.Keeps m s) (w : Within 0x40008 m := by exact Within.of (by assumption) (by decide)) :
    s0.Keeps m (State.seqSend s g) := by
  unfold State.seqSend
  extract_lets a0 a1 a2 a3 a4 a5
  clear_value a0
  clear_value a1
  clear_value a2
  clear_value a3
  have k6 : s0.Keeps m a4 := by
    unfold a4
    split
    · with_reducible apply State.slkSend_keeps (w := w.of (by decide))
      with_reducible assumption
    · with_reducible apply State.slkSend_keeps (w := w.of (by decide))
      with_reducible assumption
    · with_reducible apply State.slkSend_keeps (w := w.of (by decide))
      with_reducible assumption
  clear_value a4
  clear_value a5
  with_reducible apply State.seqPhase_keeps (w := w.of (by decide))
  with_reducible apply State.setGrp_keeps (w := w.of (by decide))
  with_reducible assumption

theorem State.seqNext_keeps {m : Nat} {s0 : State} (s : State) (g : ℕ) (h : s0.Keeps m s) (w : Within 0x40008 m := by exact Within.of (by assumption) (by decide)) :
    s0.Keeps m (State.seqNext s g) := by
  unfold State.seqNext
  extract_lets a0 a1 a2 a3 a4 a5 a6 a7
  clear_value a0
  clear_value a1
  clear_value a2
  clear_value a3
  clear_value a4
  clear_value a5
  have k8 : s0.Keeps m a6 := by
    unfold a6
    split
    · with_reducible apply State.wr_keeps (w := w.of (by decide))
      with_reducible assumption
    · with_reducible assumption
  clear_value a6
  clear_value a7
  split
  · with_reducible apply State.seqEnd_keeps (w := w.of (by decide))
    with_reducible assumption
  · with_reducible apply State.seqPhase_keeps (w := w.of (by decide))
    with_reducible apply State.wr_keeps (w := w.of (by decide))
    with_reducible assumption

theorem State.seqWait_keeps {m : Nat} {s0 : State} (s : State) (g : ℕ) (h : s0.Keeps m s) (w : Within 0x40008 m := by exact Within.of (by assumption) (by decide)) :
    s0.Keeps m (State.seqWait s g) := by
  unfold State.seqWait
  split
  · with_reducible apply State.seqNext_keeps (w := w.of (by decide))
    with_reducible assumption
  · with_reducible apply State.seqPhase_keeps (w := w.of (by decide))
    with_reducible assumption

theorem State.seqAct_keeps {m : Nat} {s0 : State} (s : State) (g : ℕ) (h : s0.Keeps m s) (w : Within 0x40008 m := by exact Within.of (by assumption) (by decide)) :
    s0.Keeps m (State.seqAct s g) := by
  unfold State.seqAct
  extract_lets a0 a1 a2 a3 a4
  clear_value a0
  clear_value a1
  clear_value a2
  clear_value a3
  clear_value a4
  split
  · with_reducible apply State.seqWait_keeps (w := w.of (by decide))
    with_reducible assumption
  · with_reducible apply State.seqWait_keeps (w := w.of (by decide))
    with_reducible apply State.wr_keeps (w := w.of (by decide))
    with_reducible assumption
  · with_reducible apply State.seqWait_keeps (w := w.of (by decide))
    with_reducible apply State.wr_keeps (w := w.of (by decide))
    with_reducible assumption
  · with_reducible apply State.seqWait_keeps (w := w.of (by decide))
    with_reducible apply State.grpFlag_keeps (w := w.of (by decide))
    with_reducible apply State.wr_keeps (w := w.of (by decide))
    with_reducible assumption
  · with_reducible apply State.seqPhase_keeps (w := w.of (by decide))
    with_reducible assumption
  · split
    · with_reducible apply State.seqSend_keeps (w := w.of (by decide))
      with_reducible assumption
    · with_reducible apply State.seqPhase_keeps (w := w.of (by decide))
      with_reducible assumption

theorem State.seqEntry_keeps {m : Nat} {s0 : State} (s : State) (g : ℕ) (h : s0.Keeps m s) (w : Within 0x40008 m := by exact Within.of (by assumption) (by decide)) :
    s0.Keeps m (State.seqEntry s g) := by
  unfold State.seqEntry
  split
  · with_reducible assumption
  · split
    · with_reducible apply State.seqAct_keeps (w := w.of (by decide))
      with_reducible assumption
    · split
      · with_reducible apply State.seqSend_keeps (w := w.of (by decide))
        with_reducible assumption
      · with_reducible assumption
    · with_reducible apply State.seqNext_keeps (w := w.of (by decide))
      with_reducible assumption
    · with_reducible assumption
    · with_reducible assumption
    · with_reducible assumption

theorem State.seqCmdDone_keeps {m : Nat} {s0 : State} (s : State) (g : ℕ) (h : s0.Keeps m s) (w : Within 0x40008 m := by exact Within.of (by assumption) (by decide)) :
    s0.Keeps m (State.seqCmdDone s g) := by
  unfold State.seqCmdDone
  extract_lets a0 a1
  clear_value a0
  have k2 : s0.Keeps m a1 := by
    unfold a1
    with_reducible apply State.setGrp_keeps (w := w.of (by decide))
    with_reducible assumption
  clear_value a1
  split
  · with_reducible apply State.seqEnd_keeps (w := w.of (by decide))
    with_reducible assumption
  · with_reducible apply State.seqPhase_keeps (w := w.of (by decide))
    with_reducible assumption

theorem State.seqTimeout_keeps {m : Nat} {s0 : State} (s : State) (g : ℕ) (h : s0.Keeps m s) (w : Within 0x40008 m := by exact Within.of (by assumption) (by decide)) :
    s0.Keeps m (State.seqTimeout s g) := by
  unfold State.seqTimeout
  split
  · with_reducible apply State.seqCmdDone_keeps (w := w.of (by decide))
    with_reducible apply State.seqStatus_keeps (w := w.of (by decide))
    with_reducible apply State.setGrp_keeps (w := w.of (by decide))
    with_reducible assumption
  · with_reducible assumption

theorem State.seqResponse_keeps {m : Nat} {s0 : State} (s : State) (g : ℕ) (tag : ℕ) (b : List Byte) (h : s0.Keeps m s) (w : Within 0x40008 m := by exact Within.of (by assumption) (by decide)) :
    s0.Keeps m (State.seqResponse s g tag b) := by
  unfold State.seqResponse
  split
  · split
    · with_reducible apply State.seqCmdDone_keeps (w := w.of (by decide))
      with_reducible assumption
    · extract_lets a0 a1 a2 a3 a4
      clear_value a0
      clear_value a1
      have k5 : s0.Keeps m a2 := by
        unfold a2
        with_reducible apply State.setGrp_keeps (w := w.of (by decide))
        with_reducible assumption
      clear_value a2
      clear_value a3
      have k6 : s0.Keeps m a4 := by
        unfold a4
        split
        · with_reducible apply State.seqStatus_keeps (w := w.of (by decide))
          with_reducible assumption
        · split
          · with_reducible apply State.wr_keeps (w := w.of (by decide))
            with_reducible assumption
          · with_reducible assumption
      clear_value a4
      with_reducible apply State.seqCmdDone_keeps (w := w.of (by decide))
      with_reducible assumption
  · with_reducible apply State.inc_keeps (w := w.of (by decide))
    with_reducible assumption

theorem State.seqFs_keeps {m : Nat} {s0 : State} (s : State) (g : ℕ) (h : s0.Keeps m s) (w : Within 0x40008 m := by exact Within.of (by assumption) (by decide)) :
    s0.Keeps m (State.seqFs s g) := by
  unfold State.seqFs
  split
  · with_reducible apply State.seqPhase_keeps (w := w.of (by decide))
    with_reducible assumption
  · with_reducible apply State.seqPhase_keeps (w := w.of (by decide))
    with_reducible assumption
  · with_reducible assumption

theorem State.seqStart_keeps {m : Nat} {s0 : State} (s : State) (g : ℕ) (h : s0.Keeps m s) (w : Within 0x40008 m := by exact Within.of (by assumption) (by decide)) :
    s0.Keeps m (State.seqStart s g) := by
  unfold State.seqStart
  split
  · with_reducible apply State.seqStatus_keeps (w := w.of (by decide))
    with_reducible assumption
  · split
    · with_reducible apply State.seqStatus_keeps (w := w.of (by decide))
      with_reducible assumption
    · split
      · with_reducible apply State.seqStatus_keeps (w := w.of (by decide))
        with_reducible assumption
      · split
        · with_reducible apply State.seqStatus_keeps (w := w.of (by decide))
          with_reducible assumption
        · extract_lets a0 a1 a2 a3
          clear_value a0
          clear_value a1
          have k4 : s0.Keeps m a2 := by
            unfold a2
            with_reducible apply State.setGrp_keeps (w := w.of (by decide))
            with_reducible assumption
          clear_value a2
          have k5 : s0.Keeps m a3 := by
            unfold a3
            with_reducible apply State.wr_keeps (w := w.of (by decide))
            with_reducible apply State.wr_keeps (w := w.of (by decide))
            with_reducible assumption
          clear_value a3
          with_reducible apply State.seqPhase_keeps (w := w.of (by decide))
          with_reducible apply State.wr_keeps (w := w.of (by decide))
          with_reducible assumption

theorem State.seqStop_keeps {m : Nat} {s0 : State} (s : State) (g : ℕ) (h : s0.Keeps m s) (w : Within 0x40008 m := by exact Within.of (by assumption) (by decide)) :
    s0.Keeps m (State.seqStop s g) := by
  unfold State.seqStop
  split
  · with_reducible assumption
  · split
    · with_reducible apply State.setGrp_keeps (w := w.of (by decide))
      with_reducible assumption
    · with_reducible apply State.seqEnd_keeps (w := w.of (by decide))
      with_reducible assumption

theorem State.seqCmd_keeps {m : Nat} {s0 : State} (s : State) (g : ℕ) (val : Word) (h : s0.Keeps m s) (w : Within 0x40008 m := by exact Within.of (by assumption) (by decide)) :
    s0.Keeps m (State.seqCmd s g val) := by
  unfold State.seqCmd
  extract_lets a0 a1
  have k2 : s0.Keeps m a0 := by
    unfold a0
    with_reducible apply State.plainWrite_keeps (w := w.of (by decide))
    with_reducible assumption
  clear_value a0
  have k3 : s0.Keeps m a1 := by
    unfold a1
    split
    · with_reducible apply State.seqStart_keeps (w := w.of (by decide))
      with_reducible assumption
    · with_reducible assumption
  clear_value a1
  split
  · with_reducible apply State.seqStop_keeps (w := w.of (by decide))
    with_reducible assumption
  · with_reducible assumption

theorem State.linkUp_keeps {m : Nat} {s0 : State} (s : State) (g : Nat) (h : s0.Keeps m s) (w : Within 0x40088 m := by exact Within.of (by assumption) (by decide)) :
    s0.Keeps m (s.linkUp g) := by
  unfold State.linkUp
  extract_lets e0 a1 a2 a3
  have k2 : s0.Keeps m a2 := State.setGstate_keeps _ _ _ (State.setGrp_keeps _ _ _ h)
  have k3 : s0.Keeps m a3 := by
    unfold a3
    split
    · exact State.sourceBack_keeps _ _ _ k2
    · exact k2
  have ke : s0.Keeps m (a3.seqEntry g) := State.seqEntry_keeps _ _ k3
  generalize a3.seqEntry g = b at ke ⊢
  split
  · exact ke
  · exact k3

theorem State.deskew_keeps {m : Nat} {s0 : State} (s : State) (g : ℕ) (skews : List ℕ) (together : Bool) (h : s0.Keeps m s) (w : Within 0x40c5198 m := by exact Within.of (by assumption) (by decide)) :
    s0.Keeps m (State.deskew s g skews together) := by
  unfold State.deskew
  split
  · with_reducible assumption
  · extract_lets a0 a1 a2 a3 a4 a5
    clear_value a0
    clear_value a1
    have k6 : s0.Keeps m a2 := by
      unfold a2
      with_reducible apply State.each_keeps
      · intro x7 x8 x9
        with_reducible apply State.wr_keeps (w := w.of (by decide))
        with_reducible assumption
      · with_reducible assumption
    clear_value a2
    have k10 : s0.Keeps m a3 := by
      unfold a3
      split
      · with_reducible assumption
      · with_reducible apply State.grpStatus_keeps (w := w.of (by decide))
        with_reducible assumption
    clear_value a3
    clear_value a4
    clear_value a5
    split
    · split
      · with_reducible assumption
      · with_reducible apply State.resync_keeps (w := w.of (by decide))
        with_reducible assumption
    · split
      · split
        · with_reducible apply State.setGrp_keeps (w := w.of (by decide))
          with_reducible assumption
        · split
          · with_reducible apply State.linkUp_keeps (w := w.of (by decide))
            with_reducible assumption
          · with_reducible apply State.setGrp_keeps (w := w.of (by decide))
            with_reducible assumption
      · with_reducible assumption

theorem State.testEnd_keeps {m : Nat} {s0 : State} (s : State) (g : ℕ) (h : s0.Keeps m s) (w : Within 0x40008 m := by exact Within.of (by assumption) (by decide)) :
    s0.Keeps m (State.testEnd s g) := by
  unfold State.testEnd
  split
  · with_reducible assumption
  · extract_lets a0 a1 a2
    clear_value a0
    have k3 : s0.Keeps m a1 := by
      unfold a1
      with_reducible apply State.inc_keeps (w := w.of (by decide))
      with_reducible apply State.setGrp_keeps (w := w.of (by decide))
      with_reducible assumption
    clear_value a1
    have k4 : s0.Keeps m a2 := by
      unfold a2
      split
      · with_reducible apply State.grpStatus_keeps (w := w.of (by decide))
        with_reducible assumption
      · with_reducible assumption
    clear_value a2
    with_reducible apply State.grpFlag_keeps (w := w.of (by decide))
    with_reducible assumption

theorem State.rxTest_keeps {m : Nat} {s0 : State} (s : State) (g : ℕ) (p : SlkPacket) (h : s0.Keeps m s) (w : Within 0x40008 m := by exact Within.of (by assumption) (by decide)) :
    s0.Keeps m (State.rxTest s g p) := by
  unfold State.rxTest
  extract_lets a0 a1
  have k2 : s0.Keeps m a0 := by
    unfold a0
    with_reducible apply State.inc_keeps (w := w.of (by decide))
    with_reducible assumption
  clear_value a0
  clear_value a1
  split
  · with_reducible assumption
  · extract_lets a3
    have k4 : s0.Keeps m a3 := by
      unfold a3
      with_reducible apply State.setGrp_keeps (w := w.of (by decide))
      with_reducible assumption
    clear_value a3
    split
    · with_reducible apply State.testEnd_keeps (w := w.of (by decide))
      with_reducible assumption
    · with_reducible assumption

theorem State.rxFs_keeps {m : Nat} {s0 : State} (s : State) (g : ℕ) (n : Node) (p : SlkPacket) (h : s0.Keeps m s) (w : Within 0x7fc7fb8 m := by exact Within.of (by assumption) (by decide)) :
    s0.Keeps m (State.rxFs s g n p) := by
  unfold State.rxFs
  split
  · with_reducible assumption
  · extract_lets a0
    have k1 : s0.Keeps m a0 := by
      unfold a0
      with_reducible apply State.sourceEpoch_keeps (w := w.of (by decide))
      with_reducible assumption
    clear_value a0
    split
    · with_reducible assumption
    · split
      · with_reducible assumption
      · with_reducible apply State.seqFs_keeps (w := w.of (by decide))
        with_reducible apply State.startFrame_keeps (w := w.of (by decide))
        with_reducible assumption

theorem State.rxFe_keeps {m : Nat} {s0 : State} (s : State) (g : ℕ) (n : Node) (p : SlkPacket) (h : s0.Keeps m s) (w : Within 0x4085198 m := by exact Within.of (by assumption) (by decide)) :
    s0.Keeps m (State.rxFe s g n p) := by
  unfold State.rxFe
  split
  · with_reducible apply State.afterFe_keeps (w := w.of (by decide))
    with_reducible apply State.onFrame_keeps (w := w.of (by decide))
    with_reducible assumption
  · with_reducible assumption

theorem State.rxLine_keeps {m : Nat} {s0 : State} (s : State) (g : ℕ) (n : Node) (p : SlkPacket) (h : s0.Keeps m s) (w : Within 0x4085198 m := by exact Within.of (by assumption) (by decide)) :
    s0.Keeps m (State.rxLine s g n p) := by
  unfold State.rxLine
  extract_lets a0 a1 a2 a3 a4 a5 a6 a7 a8
  clear_value a0
  clear_value a1
  clear_value a2
  clear_value a3
  clear_value a4
  clear_value a5
  have k9 : s0.Keeps m a6 := by
    unfold a6
    split
    · with_reducible assumption
    · with_reducible apply State.forceRows_keeps (w := w.of (by decide))
      with_reducible assumption
  clear_value a6
  clear_value a7
  have k10 : s0.Keeps m a8 := by
    unfold a8
    with_reducible apply State.onFrame_keeps (w := w.of (by decide))
    with_reducible assumption
  clear_value a8
  split
  · with_reducible apply State.grpStatus_keeps (w := w.of (by decide))
    with_reducible apply State.inc_keeps (w := w.of (by decide))
    with_reducible assumption
  · split
    · with_reducible apply State.inc_keeps (w := w.of (by decide))
      with_reducible assumption
    · with_reducible apply State.emitReady_keeps (w := w.of (by decide))
      with_reducible assumption

theorem State.rxEmb_keeps {m : Nat} {s0 : State} (s : State) (n : Node) (p : SlkPacket) (h : s0.Keeps m s) (w : Within 0x4085118 m := by exact Within.of (by assumption) (by decide)) :
    s0.Keeps m (State.rxEmb s n p) := by
  unfold State.rxEmb
  extract_lets a0
  clear_value a0
  split
  · with_reducible assumption
  · split
    · with_reducible assumption
    · extract_lets a1 a2
      clear_value a1
      have k3 : s0.Keeps m a2.2 := by
        unfold a2
        with_reducible apply State.putMeta_keeps (w := w.of (by decide))
        with_reducible assumption
      clear_value a2
      with_reducible apply State.onFrame_keeps (w := w.of (by decide))
      with_reducible assumption

theorem State.rxPicture_keeps {m : Nat} {s0 : State} (s : State) (g : ℕ) (p : SlkPacket) (h : s0.Keeps m s) (w : Within 0x7fc7fb8 m := by exact Within.of (by assumption) (by decide)) :
    s0.Keeps m (State.rxPicture s g p) := by
  unfold State.rxPicture
  split
  · with_reducible assumption
  · extract_lets a0 a1
    clear_value a0
    have k2 : s0.Keeps m a1 := by
      unfold a1
      split
      · with_reducible apply State.setGrp_keeps (w := w.of (by decide))
        with_reducible assumption
      · with_reducible assumption
    clear_value a1
    split
    · with_reducible assumption
    · split
      · with_reducible apply State.inc_keeps (w := w.of (by decide))
        with_reducible assumption
      · split
        · with_reducible apply State.inc_keeps (w := w.of (by decide))
          with_reducible assumption
        · split
          · with_reducible apply State.rxFs_keeps (w := w.of (by decide))
            with_reducible assumption
          · with_reducible apply State.rxFe_keeps (w := w.of (by decide))
            with_reducible assumption
          · with_reducible apply State.rxLine_keeps (w := w.of (by decide))
            with_reducible assumption
          · with_reducible apply State.rxEmb_keeps (w := w.of (by decide))
            with_reducible assumption

theorem State.mirrorSend_keeps {m : Nat} {s0 : State} (s : State) (g : ℕ) (p : SlkPacket) (h : s0.Keeps m s) (w : Within 0x40000 m := by exact Within.of (by assumption) (by decide)) :
    s0.Keeps m (State.mirrorSend s g p) := by
  unfold State.mirrorSend
  split
  · extract_lets a0 a1
    clear_value a0
    clear_value a1
    with_reducible apply State.setGrp_keeps (w := w.of (by decide))
    with_reducible assumption
  · with_reducible assumption

theorem State.notePseq_keeps {m : Nat} {s0 : State} (s : State) (g : ℕ) (p : SlkPacket) (h : s0.Keeps m s) (w : Within 0x40008 m := by exact Within.of (by assumption) (by decide)) :
    s0.Keeps m (State.notePseq s g p) := by
  unfold State.notePseq
  extract_lets a0 a1
  clear_value a0
  clear_value a1
  with_reducible apply State.setGrp_keeps (w := w.of (by decide))
  split
  · with_reducible apply State.inc_keeps (w := w.of (by decide))
    with_reducible assumption
  · with_reducible assumption

theorem State.rxPacket_keeps {m : Nat} {s0 : State} (s : State) (g : ℕ) (typ : ℕ) (p : SlkPacket) (h : s0.Keeps m s) (w : Within 0x7fc7fb8 m := by exact Within.of (by assumption) (by decide)) :
    s0.Keeps m (State.rxPacket s g typ p) := by
  unfold State.rxPacket
  split
  · with_reducible assumption
  · extract_lets a0 a1 a2 a3 a4
    have k5 : s0.Keeps m a0 := by
      unfold a0
      with_reducible apply State.mirrorSend_keeps (w := w.of (by decide))
      with_reducible assumption
    clear_value a0
    have k6 : s0.Keeps m a1 := by
      unfold a1
      with_reducible apply State.each_keeps
      · intro x7 x8 x9
        with_reducible apply State.inc_keeps (w := w.of (by decide))
        with_reducible assumption
      · with_reducible assumption
    clear_value a1
    clear_value a2
    clear_value a3
    have k10 : s0.Keeps m a4 := by
      unfold a4
      split
      · with_reducible apply State.notePseq_keeps (w := w.of (by decide))
        with_reducible assumption
      · with_reducible assumption
    clear_value a4
    split
    · with_reducible apply State.grpStatus_keeps (w := w.of (by decide))
      with_reducible apply State.inc_keeps (w := w.of (by decide))
      with_reducible assumption
    · split
      · with_reducible apply State.grpStatus_keeps (w := w.of (by decide))
        with_reducible apply State.inc_keeps (w := w.of (by decide))
        with_reducible assumption
      · split
        · with_reducible apply State.inc_keeps (w := w.of (by decide))
          with_reducible assumption
        · split
          · with_reducible apply State.grpStatus_keeps (w := w.of (by decide))
            with_reducible apply State.inc_keeps (w := w.of (by decide))
            with_reducible assumption
          · split
            · with_reducible apply State.inc_keeps (w := w.of (by decide))
              with_reducible assumption
            · split
              · with_reducible assumption
              · split
                · with_reducible apply State.rxTest_keeps (w := w.of (by decide))
                  with_reducible assumption
                · split
                  · with_reducible apply State.seqResponse_keeps (w := w.of (by decide))
                    with_reducible assumption
                  · with_reducible apply State.rxPicture_keeps (w := w.of (by decide))
                    with_reducible assumption

theorem State.loopReq_keeps {m : Nat} {s0 : State} (s : State) (g : ℕ) (old : ℕ) (new : ℕ) (h : s0.Keeps m s) (w : Within 0x40000 m := by exact Within.of (by assumption) (by decide)) :
    s0.Keeps m (State.loopReq s g old new) := by
  unfold State.loopReq
  extract_lets a0
  have k1 : s0.Keeps m a0 := by
    unfold a0
    split
    · with_reducible apply State.slkNotice_keeps (w := w.of (by decide))
      with_reducible assumption
    · with_reducible assumption
  clear_value a0
  split
  · with_reducible apply State.slkNotice_keeps (w := w.of (by decide))
    with_reducible assumption
  · with_reducible assumption

theorem State.grpOn_keeps {m : Nat} {s0 : State} (s : State) (g : ℕ) (loop : ℕ) (h : s0.Keeps m s) (w : Within 0x40008 m := by exact Within.of (by assumption) (by decide)) :
    s0.Keeps m (State.grpOn s g loop) := by
  unfold State.grpOn
  extract_lets a0 a1
  clear_value a0
  have k2 : s0.Keeps m a1 := by
    unfold a1
    with_reducible apply State.setGrp_keeps (w := w.of (by decide))
    with_reducible assumption
  clear_value a1
  with_reducible apply State.loopReq_keeps (w := w.of (by decide))
  with_reducible apply State.setGstate_keeps (w := w.of (by decide))
  with_reducible apply State.lanesTo_keeps (w := w.of (by decide))
  with_reducible assumption

theorem State.grpOff_keeps {m : Nat} {s0 : State} (s : State) (g : ℕ) (h : s0.Keeps m s) (w : Within 0x40c5198 m := by exact Within.of (by assumption) (by decide)) :
    s0.Keeps m (State.grpOff s g) := by
  unfold State.grpOff
  extract_lets a0 a1
  have k2 : s0.Keeps m a0 := by
    unfold a0
    with_reducible apply State.wr_keeps (w := w.of (by decide))
    with_reducible apply State.setGstate_keeps (w := w.of (by decide))
    with_reducible apply State.lanesTo_keeps (w := w.of (by decide))
    with_reducible apply State.underrun_keeps (w := w.of (by decide))
    with_reducible assumption
  clear_value a0
  clear_value a1
  with_reducible apply State.setGrp_keeps (w := w.of (by decide))
  with_reducible assumption

theorem State.grpLoop_keeps {m : Nat} {s0 : State} (s : State) (g : ℕ) (old : ℕ) (new : ℕ) (h : s0.Keeps m s) (w : Within 0x40c5198 m := by exact Within.of (by assumption) (by decide)) :
    s0.Keeps m (State.grpLoop s g old new) := by
  unfold State.grpLoop
  extract_lets a0 a1
  clear_value a0
  have k2 : s0.Keeps m a1 := by
    unfold a1
    split
    · with_reducible assumption
    · with_reducible apply State.setGrp_keeps (w := w.of (by decide))
      with_reducible assumption
  clear_value a1
  split
  · with_reducible assumption
  · split
    · with_reducible apply State.setGstate_keeps (w := w.of (by decide))
      with_reducible apply State.lanesTo_keeps (w := w.of (by decide))
      with_reducible apply State.loopReq_keeps (w := w.of (by decide))
      with_reducible assumption
    · with_reducible apply State.loopReq_keeps (w := w.of (by decide))
      with_reducible apply State.setGstate_keeps (w := w.of (by decide))
      with_reducible apply State.underrun_keeps (w := w.of (by decide))
      with_reducible assumption

theorem State.grpClear_keeps {m : Nat} {s0 : State} (s : State) (g : ℕ) (inc : ℕ) (h : s0.Keeps m s) (w : Within 0x8 m := by exact Within.of (by assumption) (by decide)) :
    s0.Keeps m (State.grpClear s g inc) := by
  unfold State.grpClear
  with_reducible apply State.each_keeps
  · intro x0 x1 x2
    with_reducible apply State.wr_keeps (w := w.of (by decide))
    with_reducible assumption
  · with_reducible assumption

theorem State.grpSet_keeps {m : Nat} {s0 : State} (s : State) (g : ℕ) (val : Word) (h : s0.Keeps m s) (w : Within 0x40c5198 m := by exact Within.of (by assumption) (by decide)) :
    s0.Keeps m (State.grpSet s g val) := by
  unfold State.grpSet
  extract_lets a0 a1 a2 a3
  clear_value a0
  clear_value a1
  clear_value a2
  have k4 : s0.Keeps m a3 := by
    unfold a3
    with_reducible apply State.plainWrite_keeps (w := w.of (by decide))
    with_reducible assumption
  clear_value a3
  split
  · with_reducible apply State.grpOn_keeps (w := w.of (by decide))
    with_reducible assumption
  · with_reducible apply State.grpOff_keeps (w := w.of (by decide))
    with_reducible assumption
  · with_reducible apply State.grpLoop_keeps (w := w.of (by decide))
    with_reducible assumption
  · with_reducible assumption

theorem State.grpCfg_keeps {m : Nat} {s0 : State} (s : State) (g : ℕ) (val : Word) (inc : ℕ) (h : s0.Keeps m s) (w : Within 0x140c5198 m := by exact Within.of (by assumption) (by decide)) :
    s0.Keeps m (State.grpCfg s g val inc) := by
  unfold State.grpCfg
  split
  · with_reducible apply State.grpStatus_keeps (w := w.of (by decide))
    with_reducible assumption
  · extract_lets a0
    have k1 : s0.Keeps m a0 := by
      unfold a0
      split
      · with_reducible apply State.grpClear_keeps (w := w.of (by decide))
        with_reducible assumption
      · with_reducible assumption
    clear_value a0
    with_reducible apply State.enableWrite_keeps (w := w.of (by decide))
    · with_reducible assumption
    · intro x2 x3
      with_reducible apply State.grpSet_keeps (w := w.of (by decide))
      with_reducible assumption

theorem State.mirrorStep_keeps {m : Nat} {s0 : State} (s : State) (g : ℕ) (h : s0.Keeps m s) (w : Within 0x40008 m := by exact Within.of (by assumption) (by decide)) :
    s0.Keeps m (State.mirrorStep s g) := by
  unfold State.mirrorStep
  extract_lets a0 a1 a2
  clear_value a0
  clear_value a1
  have k3 : s0.Keeps m a2 := by
    unfold a2
    with_reducible apply State.slkNotice_keeps (w := w.of (by decide))
    with_reducible apply State.wr_keeps (w := w.of (by decide))
    with_reducible assumption
  clear_value a2
  split
  · with_reducible assumption
  · split
    · with_reducible apply State.wr_keeps (w := w.of (by decide))
      with_reducible apply State.slkNotice_keeps (w := w.of (by decide))
      with_reducible assumption
    · split
      · with_reducible apply State.seqEntry_keeps (w := w.of (by decide))
        with_reducible assumption
      · with_reducible assumption

theorem State.spareStart_keeps {m : Nat} {s0 : State} (s : State) (g : ℕ) (release : Bool) (h : s0.Keeps m s) (w : Within 0x10040008 m := by exact Within.of (by assumption) (by decide)) :
    s0.Keeps m (State.spareStart s g release) := by
  unfold State.spareStart
  split
  · extract_lets a0 a1
    clear_value a0
    have k2 : s0.Keeps m a1 := by
      unfold a1
      with_reducible apply State.setGrp_keeps (w := w.of (by decide))
      with_reducible assumption
    clear_value a1
    split
    · with_reducible assumption
    · with_reducible apply State.slkNotice_keeps (w := w.of (by decide))
      with_reducible assumption
  · with_reducible apply State.endAct_keeps (w := w.of (by decide))
    with_reducible apply State.grpStatus_keeps (w := w.of (by decide))
    with_reducible assumption

theorem State.spareAsk_keeps {m : Nat} {s0 : State} (s : State) (g : ℕ) (release : Bool) (h : s0.Keeps m s) (w : Within 0x10040008 m := by exact Within.of (by assumption) (by decide)) :
    s0.Keeps m (State.spareAsk s g release) := by
  unfold State.spareAsk
  extract_lets a0 a1
  clear_value a0
  have k2 : s0.Keeps m a1 := by
    unfold a1
    with_reducible apply State.requestAct_keeps (w := w.of (by decide))
    with_reducible assumption
  clear_value a1
  split
  · with_reducible assumption
  · with_reducible apply State.spareStart_keeps (w := w.of (by decide))
    with_reducible assumption

theorem State.spareCmd_keeps {m : Nat} {s0 : State} (s : State) (g : ℕ) (val : Word) (h : s0.Keeps m s) (w : Within 0x10040008 m := by exact Within.of (by assumption) (by decide)) :
    s0.Keeps m (State.spareCmd s g val) := by
  unfold State.spareCmd
  extract_lets a0 a1
  have k2 : s0.Keeps m a0 := by
    unfold a0
    with_reducible apply State.plainWrite_keeps (w := w.of (by decide))
    with_reducible assumption
  clear_value a0
  have k3 : s0.Keeps m a1 := by
    unfold a1
    split
    · with_reducible apply State.spareAsk_keeps (w := w.of (by decide))
      with_reducible assumption
    · with_reducible assumption
  clear_value a1
  split
  · with_reducible apply State.spareAsk_keeps (w := w.of (by decide))
    with_reducible assumption
  · with_reducible assumption

theorem State.spareMatch_keeps {m : Nat} {s0 : State} (s : State) (g : ℕ) (h : s0.Keeps m s) (w : Within 0x10040008 m := by exact Within.of (by assumption) (by decide)) :
    s0.Keeps m (State.spareMatch s g) := by
  unfold State.spareMatch
  split
  · with_reducible assumption
  · extract_lets a0 a1
    clear_value a0
    have k2 : s0.Keeps m a1 := by
      unfold a1
      with_reducible apply State.wrB_keeps (w := w.of (by decide))
      with_reducible apply State.setGrp_keeps (w := w.of (by decide))
      with_reducible assumption
    clear_value a1
    with_reducible apply State.endAct_keeps (w := w.of (by decide))
    split
    · with_reducible apply State.slkNotice_keeps (w := w.of (by decide))
      with_reducible assumption
    · with_reducible assumption

theorem State.spareFail_keeps {m : Nat} {s0 : State} (s : State) (g : ℕ) (h : s0.Keeps m s) (w : Within 0x10040008 m := by exact Within.of (by assumption) (by decide)) :
    s0.Keeps m (State.spareFail s g) := by
  unfold State.spareFail
  split
  · with_reducible assumption
  · extract_lets a0 a1
    clear_value a0
    have k2 : s0.Keeps m a1 := by
      unfold a1
      with_reducible apply State.grpStatus_keeps (w := w.of (by decide))
      with_reducible apply State.setGrp_keeps (w := w.of (by decide))
      with_reducible assumption
    clear_value a1
    with_reducible apply State.endAct_keeps (w := w.of (by decide))
    split
    · with_reducible assumption
    · with_reducible apply State.slkNotice_keeps (w := w.of (by decide))
      with_reducible assumption

theorem State.testGo_keeps {m : Nat} {s0 : State} (s : State) (g : ℕ) (val : Word) (h : s0.Keeps m s) (w : Within 0x40008 m := by exact Within.of (by assumption) (by decide)) :
    s0.Keeps m (State.testGo s g val) := by
  unfold State.testGo
  extract_lets a0 a1 a2 a3 a4 a5 a6 a7 a8 a9
  have k10 : s0.Keeps m a0 := by
    unfold a0
    with_reducible apply State.plainWrite_keeps (w := w.of (by decide))
    with_reducible assumption
  clear_value a0
  clear_value a1
  clear_value a2
  clear_value a3
  clear_value a4
  clear_value a5
  clear_value a6
  have k11 : s0.Keeps m a7 := by
    unfold a7
    with_reducible apply State.setGrp_keeps (w := w.of (by decide))
    with_reducible assumption
  clear_value a7
  clear_value a8
  have k12 : s0.Keeps m a9 := by
    unfold a9
    split
    · with_reducible apply State.slkSend_keeps (w := w.of (by decide))
      with_reducible apply State.setGrp_keeps (w := w.of (by decide))
      with_reducible assumption
    · with_reducible assumption
  clear_value a9
  split
  · with_reducible assumption
  · split
    · with_reducible apply State.testEnd_keeps (w := w.of (by decide))
      with_reducible assumption
    · with_reducible assumption

theorem State.testPacket_keeps {m : Nat} {s0 : State} (s : State) (g : ℕ) (p : SlkPacket) (h : s0.Keeps m s) (w : Within 0x7fc7fb8 m := by exact Within.of (by assumption) (by decide)) :
    s0.Keeps m (State.testPacket s g p) := by
  unfold State.testPacket
  split
  · extract_lets a0 a1 a2 a3 a4
    clear_value a0
    clear_value a1
    clear_value a2
    clear_value a3
    clear_value a4
    split
    · with_reducible assumption
    · with_reducible apply State.rxPacket_keeps (w := w.of (by decide))
      with_reducible apply State.setGrp_keeps (w := w.of (by decide))
      with_reducible assumption
  · with_reducible apply State.rxPacket_keeps (w := w.of (by decide))
    with_reducible assumption

theorem State.clockLost_keeps {m : Nat} {s0 : State} (s : State) (g : ℕ) (h : s0.Keeps m s) (w : Within 0x40c5198 m := by exact Within.of (by assumption) (by decide)) :
    s0.Keeps m (State.clockLost s g) := by
  unfold State.clockLost
  split
  · with_reducible assumption
  · extract_lets a0 a1 a2 a3
    have k4 : s0.Keeps m a0 := by
      unfold a0
      with_reducible apply State.underrun_keeps (w := w.of (by decide))
      with_reducible apply State.setClk_keeps (w := w.of (by decide))
      with_reducible assumption
    clear_value a0
    clear_value a1
    have k5 : s0.Keeps m a2 := by
      unfold a2
      with_reducible apply State.setGrp_keeps (w := w.of (by decide))
      with_reducible assumption
    clear_value a2
    have k6 : s0.Keeps m a3 := by
      unfold a3
      split
      · with_reducible assumption
      · with_reducible apply State.setGstate_keeps (w := w.of (by decide))
        with_reducible assumption
    clear_value a3
    with_reducible apply State.grpStatus_keeps (w := w.of (by decide))
    with_reducible apply State.lanesTo_keeps (w := w.of (by decide))
    with_reducible assumption

theorem State.clockWindow_keeps {m : Nat} {s0 : State} (s : State) (g : ℕ) (ppm : ℤ) (h : s0.Keeps m s) (w : Within 0x40008 m := by exact Within.of (by assumption) (by decide)) :
    s0.Keeps m (State.clockWindow s g ppm) := by
  unfold State.clockWindow
  split
  · with_reducible assumption
  · extract_lets a0 a1 a2 a3
    clear_value a0
    have k4 : s0.Keeps m a1 := by
      unfold a1
      with_reducible apply State.wr_keeps (w := w.of (by decide))
      with_reducible assumption
    clear_value a1
    clear_value a2
    have k5 : s0.Keeps m a3 := by
      unfold a3
      with_reducible apply State.setGrp_keeps (w := w.of (by decide))
      with_reducible assumption
    clear_value a3
    split
    · split
      · with_reducible assumption
      · with_reducible apply State.grpStatus_keeps (w := w.of (by decide))
        with_reducible apply State.setClk_keeps (w := w.of (by decide))
        with_reducible assumption
    · with_reducible apply State.setClk_keeps (w := w.of (by decide))
      with_reducible assumption

theorem State.clockGlitch_keeps {m : Nat} {s0 : State} (s : State) (g : ℕ) (h : s0.Keeps m s) (w : Within 0x40008 m := by exact Within.of (by assumption) (by decide)) :
    s0.Keeps m (State.clockGlitch s g) := by
  unfold State.clockGlitch
  split
  · with_reducible assumption
  · extract_lets a0 a1
    clear_value a0
    have k2 : s0.Keeps m a1 := by
      unfold a1
      with_reducible apply State.setGrp_keeps (w := w.of (by decide))
      with_reducible apply State.inc_keeps (w := w.of (by decide))
      with_reducible assumption
    clear_value a1
    split
    · with_reducible apply State.grpStatus_keeps (w := w.of (by decide))
      with_reducible apply State.setClk_keeps (w := w.of (by decide))
      with_reducible assumption
    · with_reducible assumption

theorem State.slkRegWrite_keeps {m : Nat} {s0 : State} (s : State) (o : ℕ) (val : Word) (h : s0.Keeps m s) (w : Within 0x140c5198 m := by exact Within.of (by assumption) (by decide)) :
    s0.Keeps m (State.slkRegWrite s o val) := by
  unfold State.slkRegWrite
  extract_lets a0
  clear_value a0
  split
  · split
    · with_reducible apply State.grpCfg_keeps (w := w.of (by decide))
      with_reducible assumption
    · with_reducible apply State.spareCmd_keeps (w := w.of (by decide))
      with_reducible assumption
    · with_reducible apply State.seqCmd_keeps (w := w.of (by decide))
      with_reducible assumption
    · with_reducible apply State.testGo_keeps (w := w.of (by decide))
      with_reducible assumption
    · with_reducible apply State.plainWrite_keeps (w := w.of (by decide))
      with_reducible assumption
  · with_reducible apply State.plainWrite_keeps (w := w.of (by decide))
    with_reducible assumption

theorem execGroupEnable_keeps {m : Nat} {s0 : State} (src : Agent) (group : Fin 4) (val : Word) (s : State) (h : s0.Keeps m s) {t : State} (e : execGroupEnable src group val s = .next t) (w : Within 0x140cd198 m := by exact Within.of (by assumption) (by decide)) :
    s0.Keeps m t := by
  unfold execGroupEnable at e
  injection e with e
  subst e
  with_reducible apply State.writeReg_keeps (w := w.of (by decide))
  · with_reducible assumption
  · intro x0 x1
    with_reducible apply State.grpCfg_keeps (w := w.of (by decide))
    with_reducible assumption

theorem execSlkCntClr_keeps {m : Nat} {s0 : State} (src : Agent) (group : Fin 4) (val : Word) (inc : BitVec 18) (s : State) (h : s0.Keeps m s) {t : State} (e : execSlkCntClr src group val inc s = .next t) (w : Within 0x140cd198 m := by exact Within.of (by assumption) (by decide)) :
    s0.Keeps m t := by
  unfold execSlkCntClr at e
  injection e with e
  subst e
  with_reducible apply State.writeReg_keeps (w := w.of (by decide))
  · with_reducible assumption
  · intro x0 x1
    with_reducible apply State.grpCfg_keeps (w := w.of (by decide))
    with_reducible assumption

theorem execCdrLocked_keeps {m : Nat} {s0 : State} (lane : Fin 36) (s : State) (h : s0.Keeps m s) {t : State} (e : execCdrLocked lane s = .next t) (w : Within 0x8 m := by exact Within.of (by assumption) (by decide)) :
    s0.Keeps m t := by
  unfold execCdrLocked at e
  injection e with e
  subst e
  with_reducible apply State.cdrLocked_keeps (w := w.of (by decide))
  with_reducible assumption

theorem execLaneAligned_keeps {m : Nat} {s0 : State} (lane : Fin 36) (s : State) (h : s0.Keeps m s) {t : State} (e : execLaneAligned lane s = .next t) (w : Within 0x40008 m := by exact Within.of (by assumption) (by decide)) :
    s0.Keeps m t := by
  unfold execLaneAligned at e
  injection e with e
  subst e
  with_reducible apply State.laneAligned_keeps (w := w.of (by decide))
  with_reducible assumption

theorem execLaneAlignLoss_keeps {m : Nat} {s0 : State} (lane : Fin 36) (groups : List (BitVec 10)) (s : State) (h : s0.Keeps m s) {t : State} (e : execLaneAlignLoss lane groups s = .next t) (w : Within 0x40c5198 m := by exact Within.of (by assumption) (by decide)) :
    s0.Keeps m t := by
  unfold execLaneAlignLoss at e
  injection e with e
  subst e
  with_reducible apply State.laneGroups_keeps (w := w.of (by decide))
  with_reducible assumption

theorem execDeskew_keeps {m : Nat} {s0 : State} (group : Fin 4) (skews : List Byte) (together : Bool) (s : State) (h : s0.Keeps m s) {t : State} (e : execDeskew group skews together s = .next t) (w : Within 0x40c5198 m := by exact Within.of (by assumption) (by decide)) :
    s0.Keeps m t := by
  unfold execDeskew at e
  injection e with e
  subst e
  with_reducible apply State.deskew_keeps (w := w.of (by decide))
  with_reducible assumption

theorem execFs_keeps {m : Nat} {s0 : State} (group : Fin 4) (pkt : SlkPacket) (cancel : Bool) (s : State) (h : s0.Keeps m s) {t : State} (e : execFs group pkt cancel s = .next t) (w : Within 0x7fc7fb8 m := by exact Within.of (by assumption) (by decide)) :
    s0.Keeps m t := by
  unfold execFs at e
  injection e with e
  subst e
  with_reducible apply State.cancelWith_keeps (w := w.of (by decide))
  with_reducible apply State.rxPacket_keeps (w := w.of (by decide))
  with_reducible assumption

theorem execFe_keeps {m : Nat} {s0 : State} (group : Fin 4) (pkt : SlkPacket) (s : State) (h : s0.Keeps m s) {t : State} (e : execFe group pkt s = .next t) (w : Within 0x7fc7fb8 m := by exact Within.of (by assumption) (by decide)) :
    s0.Keeps m t := by
  unfold execFe at e
  injection e with e
  subst e
  with_reducible apply State.rxPacket_keeps (w := w.of (by decide))
  with_reducible assumption

theorem execLine_keeps {m : Nat} {s0 : State} (group : Fin 4) (pkt : SlkPacket) (s : State) (h : s0.Keeps m s) {t : State} (e : execLine group pkt s = .next t) (w : Within 0x7fc7fb8 m := by exact Within.of (by assumption) (by decide)) :
    s0.Keeps m t := by
  unfold execLine at e
  injection e with e
  subst e
  with_reducible apply State.rxPacket_keeps (w := w.of (by decide))
  with_reducible assumption

theorem execEmb_keeps {m : Nat} {s0 : State} (group : Fin 4) (pkt : SlkPacket) (s : State) (h : s0.Keeps m s) {t : State} (e : execEmb group pkt s = .next t) (w : Within 0x7fc7fb8 m := by exact Within.of (by assumption) (by decide)) :
    s0.Keeps m t := by
  unfold execEmb at e
  injection e with e
  subst e
  with_reducible apply State.rxPacket_keeps (w := w.of (by decide))
  with_reducible assumption

theorem execCmdRsp_keeps {m : Nat} {s0 : State} (group : Fin 4) (pkt : SlkPacket) (s : State) (h : s0.Keeps m s) {t : State} (e : execCmdRsp group pkt s = .next t) (w : Within 0x7fc7fb8 m := by exact Within.of (by assumption) (by decide)) :
    s0.Keeps m t := by
  unfold execCmdRsp at e
  injection e with e
  subst e
  with_reducible apply State.rxPacket_keeps (w := w.of (by decide))
  with_reducible assumption

theorem execTest_keeps {m : Nat} {s0 : State} (group : Fin 4) (pkt : SlkPacket) (s : State) (h : s0.Keeps m s) {t : State} (e : execTest group pkt s = .next t) (w : Within 0x7fc7fb8 m := by exact Within.of (by assumption) (by decide)) :
    s0.Keeps m t := by
  unfold execTest at e
  injection e with e
  subst e
  with_reducible apply State.testPacket_keeps (w := w.of (by decide))
  with_reducible assumption

theorem execTileRowEmit_keeps {m : Nat} {s0 : State} (node : BitVec 16) (s : State) (h : s0.Keeps m s) {t : State} (e : execTileRowEmit node s = .next t) (w : Within 0x4085198 m := by exact Within.of (by assumption) (by decide)) :
    s0.Keeps m t := by
  unfold execTileRowEmit at e
  injection e with e
  subst e
  split
  · with_reducible assumption
  · with_reducible apply State.emitReady_keeps (w := w.of (by decide))
    with_reducible assumption

theorem execLaneUnderrun_keeps {m : Nat} {s0 : State} (group : Fin 4) (s : State) (h : s0.Keeps m s) {t : State} (e : execLaneUnderrun group s = .next t) (w : Within 0x40c5198 m := by exact Within.of (by assumption) (by decide)) :
    s0.Keeps m t := by
  unfold execLaneUnderrun at e
  injection e with e
  subst e
  with_reducible apply State.resync_keeps (w := w.of (by decide))
  with_reducible assumption

theorem execSeqStart_keeps {m : Nat} {s0 : State} (src : Agent) (group : Fin 4) (val : Word) (s : State) (h : s0.Keeps m s) {t : State} (e : execSeqStart src group val s = .next t) (w : Within 0x48008 m := by exact Within.of (by assumption) (by decide)) :
    s0.Keeps m t := by
  unfold execSeqStart at e
  injection e with e
  subst e
  with_reducible apply State.writeReg_keeps (w := w.of (by decide))
  · with_reducible assumption
  · intro x0 x1
    with_reducible apply State.seqCmd_keeps (w := w.of (by decide))
    with_reducible assumption

theorem execSeqStop_keeps {m : Nat} {s0 : State} (src : Agent) (group : Fin 4) (val : Word) (s : State) (h : s0.Keeps m s) {t : State} (e : execSeqStop src group val s = .next t) (w : Within 0x48008 m := by exact Within.of (by assumption) (by decide)) :
    s0.Keeps m t := by
  unfold execSeqStop at e
  injection e with e
  subst e
  with_reducible apply State.writeReg_keeps (w := w.of (by decide))
  · with_reducible assumption
  · intro x0 x1
    with_reducible apply State.seqCmd_keeps (w := w.of (by decide))
    with_reducible assumption

theorem execSeqEntry_keeps {m : Nat} {s0 : State} (group : Fin 4) (s : State) (h : s0.Keeps m s) {t : State} (e : execSeqEntry group s = .next t) (w : Within 0x40008 m := by exact Within.of (by assumption) (by decide)) :
    s0.Keeps m t := by
  unfold execSeqEntry at e
  injection e with e
  subst e
  with_reducible apply State.seqEntry_keeps (w := w.of (by decide))
  with_reducible assumption

theorem execSeqRspTimeout_keeps {m : Nat} {s0 : State} (group : Fin 4) (s : State) (h : s0.Keeps m s) {t : State} (e : execSeqRspTimeout group s = .next t) (w : Within 0x40008 m := by exact Within.of (by assumption) (by decide)) :
    s0.Keeps m t := by
  unfold execSeqRspTimeout at e
  injection e with e
  subst e
  with_reducible apply State.seqTimeout_keeps (w := w.of (by decide))
  with_reducible assumption

theorem execSpareTakeover_keeps {m : Nat} {s0 : State} (src : Agent) (group : Fin 4) (val : Word) (s : State) (h : s0.Keeps m s) {t : State} (e : execSpareTakeover src group val s = .next t) (w : Within 0x10048008 m := by exact Within.of (by assumption) (by decide)) :
    s0.Keeps m t := by
  unfold execSpareTakeover at e
  injection e with e
  subst e
  with_reducible apply State.writeReg_keeps (w := w.of (by decide))
  · with_reducible assumption
  · intro x0 x1
    with_reducible apply State.spareCmd_keeps (w := w.of (by decide))
    with_reducible assumption

theorem execRelease_keeps {m : Nat} {s0 : State} (src : Agent) (group : Fin 4) (val : Word) (s : State) (h : s0.Keeps m s) {t : State} (e : execRelease src group val s = .next t) (w : Within 0x10048008 m := by exact Within.of (by assumption) (by decide)) :
    s0.Keeps m t := by
  unfold execRelease at e
  injection e with e
  subst e
  with_reducible apply State.writeReg_keeps (w := w.of (by decide))
  · with_reducible assumption
  · intro x0 x1
    with_reducible apply State.spareCmd_keeps (w := w.of (by decide))
    with_reducible assumption

theorem execSpareMatch_keeps {m : Nat} {s0 : State} (group : Fin 4) (s : State) (h : s0.Keeps m s) {t : State} (e : execSpareMatch group s = .next t) (w : Within 0x10040008 m := by exact Within.of (by assumption) (by decide)) :
    s0.Keeps m t := by
  unfold execSpareMatch at e
  injection e with e
  subst e
  with_reducible apply State.spareMatch_keeps (w := w.of (by decide))
  with_reducible assumption

theorem execSpareFail_keeps {m : Nat} {s0 : State} (group : Fin 4) (s : State) (h : s0.Keeps m s) {t : State} (e : execSpareFail group s = .next t) (w : Within 0x10040008 m := by exact Within.of (by assumption) (by decide)) :
    s0.Keeps m t := by
  unfold execSpareFail at e
  injection e with e
  subst e
  with_reducible apply State.spareFail_keeps (w := w.of (by decide))
  with_reducible assumption

theorem execMirror_keeps {m : Nat} {s0 : State} (group : Fin 4) (s : State) (h : s0.Keeps m s) {t : State} (e : execMirror group s = .next t) (w : Within 0x40008 m := by exact Within.of (by assumption) (by decide)) :
    s0.Keeps m t := by
  unfold execMirror at e
  injection e with e
  subst e
  with_reducible apply State.mirrorStep_keeps (w := w.of (by decide))
  with_reducible assumption

theorem execTestGo_keeps {m : Nat} {s0 : State} (src : Agent) (group : Fin 4) (val : Word) (s : State) (h : s0.Keeps m s) {t : State} (e : execTestGo src group val s = .next t) (w : Within 0x48008 m := by exact Within.of (by assumption) (by decide)) :
    s0.Keeps m t := by
  unfold execTestGo at e
  injection e with e
  subst e
  with_reducible apply State.writeReg_keeps (w := w.of (by decide))
  · with_reducible assumption
  · intro x0 x1
    with_reducible apply State.testGo_keeps (w := w.of (by decide))
    with_reducible assumption

theorem execTestRunEnd_keeps {m : Nat} {s0 : State} (group : Fin 4) (s : State) (h : s0.Keeps m s) {t : State} (e : execTestRunEnd group s = .next t) (w : Within 0x40008 m := by exact Within.of (by assumption) (by decide)) :
    s0.Keeps m t := by
  unfold execTestRunEnd at e
  injection e with e
  subst e
  with_reducible apply State.testEnd_keeps (w := w.of (by decide))
  with_reducible assumption

theorem execClockLost_keeps {m : Nat} {s0 : State} (group : Fin 4) (s : State) (h : s0.Keeps m s) {t : State} (e : execClockLost group s = .next t) (w : Within 0x40c5198 m := by exact Within.of (by assumption) (by decide)) :
    s0.Keeps m t := by
  unfold execClockLost at e
  injection e with e
  subst e
  with_reducible apply State.clockLost_keeps (w := w.of (by decide))
  with_reducible assumption

theorem execClockWindowEnd_keeps {m : Nat} {s0 : State} (group : Fin 4) (ppm : ℤ) (s : State) (h : s0.Keeps m s) {t : State} (e : execClockWindowEnd group ppm s = .next t) (w : Within 0x40008 m := by exact Within.of (by assumption) (by decide)) :
    s0.Keeps m t := by
  unfold execClockWindowEnd at e
  injection e with e
  subst e
  with_reducible apply State.clockWindow_keeps (w := w.of (by decide))
  with_reducible assumption

theorem execGlitch_keeps {m : Nat} {s0 : State} (group : Fin 4) (s : State) (h : s0.Keeps m s) {t : State} (e : execGlitch group s = .next t) (w : Within 0x40008 m := by exact Within.of (by assumption) (by decide)) :
    s0.Keeps m t := by
  unfold execGlitch at e
  injection e with e
  subst e
  with_reducible apply State.clockGlitch_keeps (w := w.of (by decide))
  with_reducible assumption

end Sys2Proof.Machine
end

