-- ==== Sys2Proof/Laws/KeepsFrames.lean ====
section
/-! SUPPORT. The operations of Machine/Frames.lean keep the queue and the invariant (`State.Keeps`). -/

namespace Sys2Proof.Machine

set_option Elab.async false
set_option linter.unusedVariables false

theorem State.headStop_keeps {m : Nat} {s0 : State} (s : State) (hx : ℕ) (h : s0.Keeps m s) (w : Within 0x4800008 m := by exact Within.of (by assumption) (by decide)) :
    s0.Keeps m (State.headStop s hx) := by
  unfold State.headStop
  extract_lets a0 a1 a2
  clear_value a0
  have k3 : s0.Keeps m a1 := by
    unfold a1
    with_reducible apply State.wr_keeps (w := w.of (by decide))
    with_reducible apply State.setHead_keeps (w := w.of (by decide))
    with_reducible assumption
  clear_value a1
  have k4 : s0.Keeps m a2 := by
    unfold a2
    with_reducible apply State.sdiHeadOff_keeps (w := w.of (by decide))
    with_reducible assumption
  clear_value a2
  split
  · with_reducible apply State.headBegin_keeps (w := w.of (by decide))
    with_reducible apply State.wr_keeps (w := w.of (by decide))
    with_reducible assumption
  · with_reducible assumption

theorem State.headFrame_keeps {m : Nat} {s0 : State} (s : State) (hx : ℕ) (h : s0.Keeps m s) (w : Within 0x7f87fb8 m := by exact Within.of (by assumption) (by decide)) :
    s0.Keeps m (State.headFrame s hx) := by
  unfold State.headFrame
  extract_lets a0 a1 a2 a3 a4
  clear_value a0
  have k5 : s0.Keeps m a1 := by
    unfold a1
    with_reducible apply State.incWrap_keeps (w := w.of (by decide))
    with_reducible assumption
  clear_value a1
  clear_value a2
  have k6 : s0.Keeps m a3 := by
    unfold a3
    with_reducible apply State.setHead_keeps (w := w.of (by decide))
    with_reducible assumption
  clear_value a3
  have k7 : s0.Keeps m a4 := by
    unfold a4
    with_reducible apply State.sourceEpoch_keeps (w := w.of (by decide))
    with_reducible assumption
  clear_value a4
  with_reducible apply State.showFrames_keeps (w := w.of (by decide))
  with_reducible apply State.commitBoundary_keeps (w := w.of (by decide))
  with_reducible assumption

theorem State.boundary_keeps {m : Nat} {s0 : State} (s : State) (hx : ℕ) (h : s0.Keeps m s) (w : Within 0x7f87fb8 m := by exact Within.of (by assumption) (by decide)) :
    s0.Keeps m (State.boundary s hx) := by
  unfold State.boundary
  extract_lets a0 a1 a2 a3
  have k4 : s0.Keeps m a0 := by
    unfold a0
    split
    · with_reducible apply State.each_keeps
      · intro x5 x6 x7
        with_reducible apply State.sdiBoundary_keeps (w := w.of (by decide))
        with_reducible assumption
      · with_reducible apply State.emitFrame_keeps (w := w.of (by decide))
        with_reducible assumption
    · with_reducible assumption
  clear_value a0
  clear_value a1
  have k8 : s0.Keeps m a2 := by
    unfold a2
    with_reducible apply State.headFrame_keeps (w := w.of (by decide))
    with_reducible assumption
  clear_value a2
  have k9 : s0.Keeps m a3 := by
    unfold a3
    split
    · with_reducible apply State.each_keeps
      · intro x10 x11 x12
        with_reducible apply State.sdiBoundary_keeps (w := w.of (by decide))
        with_reducible assumption
      · with_reducible assumption
    · with_reducible assumption
  clear_value a3
  split
  · with_reducible apply State.headStop_keeps (w := w.of (by decide))
    with_reducible assumption
  · split
    · with_reducible apply State.each_keeps
      · intro x13 x14 x15
        with_reducible apply State.sdiInsert_keeps (w := w.of (by decide))
        with_reducible assumption
      · with_reducible assumption
    · with_reducible assumption

theorem execFrameBoundary_keeps {m : Nat} {s0 : State} (head : Fin 4) (cancel : Bool) (s : State) (h : s0.Keeps m s) {t : State} (e : execFrameBoundary head cancel s = .next t) (w : Within 0x7f87fb8 m := by exact Within.of (by assumption) (by decide)) :
    s0.Keeps m t := by
  unfold execFrameBoundary at e
  injection e with e
  subst e
  with_reducible apply State.cancelWith_keeps (w := w.of (by decide))
  with_reducible apply State.boundary_keeps (w := w.of (by decide))
  with_reducible assumption

end Sys2Proof.Machine
end

