-- ==== Sys2Proof/Laws/KeepsBist.lean ====
section
/-! SUPPORT. The operations of Machine/Bist.lean keep the queue and the invariant (`State.Keeps`). -/

namespace Sys2Proof.Machine

set_option Elab.async false
set_option linter.unusedVariables false

theorem State.loseIsland_keeps {m : Nat} {s0 : State} (s : State) (i : ℕ) (h : s0.Keeps m s) (w : Within 0x10 m := by exact Within.of (by assumption) (by decide)) :
    s0.Keeps m (State.loseIsland s i) := by
  unfold State.loseIsland
  split
  · with_reducible apply State.loseMem_keeps (w := w.of (by decide))
    with_reducible assumption
  · with_reducible assumption

theorem State.bistReport_keeps {m : Nat} {s0 : State} (s : State) (n : ℕ) (code : ℕ) (h : s0.Keeps m s) (w : Within 0x8 m := by exact Within.of (by assumption) (by decide)) :
    s0.Keeps m (State.bistReport s n code) := by
  unfold State.bistReport
  with_reducible apply State.wr_keeps (w := w.of (by decide))
  with_reducible apply State.wr_keeps (w := w.of (by decide))
  with_reducible assumption

theorem State.bistState_keeps {m : Nat} {s0 : State} (s : State) (n : ℕ) (st : ℕ) (h : s0.Keeps m s) (w : Within 0x8 m := by exact Within.of (by assumption) (by decide)) :
    s0.Keeps m (State.bistState s n st) := by
  unfold State.bistState
  with_reducible apply State.wr_keeps (w := w.of (by decide))
  with_reducible apply State.wr_keeps (w := w.of (by decide))
  with_reducible assumption

theorem State.bistGo_keeps {m : Nat} {s0 : State} (s : State) (n : ℕ) (h : s0.Keeps m s) (w : Within 0x10000008 m := by exact Within.of (by assumption) (by decide)) :
    s0.Keeps m (State.bistGo s n) := by
  unfold State.bistGo
  extract_lets a0 a1 a2 a3 a4 a5
  clear_value a0
  clear_value a1
  clear_value a2
  have k6 : s0.Keeps m a3 := by
    unfold a3
    with_reducible apply State.bistState_keeps (w := w.of (by decide))
    with_reducible apply State.each_keeps
    · intro x7 x8 x9
      with_reducible apply State.wr_keeps (w := w.of (by decide))
      with_reducible assumption
    · with_reducible assumption
  clear_value a3
  clear_value a4
  have k10 : s0.Keeps m a5 := by
    unfold a5
    with_reducible apply State.setMnt_keeps (w := w.of (by decide))
    with_reducible assumption
  clear_value a5
  split
  · with_reducible apply State.bistReport_keeps (w := w.of (by decide))
    with_reducible assumption
  · split
    · with_reducible apply State.bistReport_keeps (w := w.of (by decide))
      with_reducible assumption
    · split
      · with_reducible apply State.bistReport_keeps (w := w.of (by decide))
        with_reducible assumption
      · split
        · with_reducible apply State.bistReport_keeps (w := w.of (by decide))
          with_reducible assumption
        · with_reducible apply State.requestAct_keeps (w := w.of (by decide))
          with_reducible assumption

theorem State.bistRun_keeps {m : Nat} {s0 : State} (s : State) (n : ℕ) (h : s0.Keeps m s) (w : Within 0x4000018 m := by exact Within.of (by assumption) (by decide)) :
    s0.Keeps m (State.bistRun s n) := by
  unfold State.bistRun
  extract_lets a0 a1
  clear_value a0
  have k2 : s0.Keeps m a1 := by
    unfold a1
    with_reducible apply State.loseIsland_keeps (w := w.of (by decide))
    with_reducible apply State.bistState_keeps (w := w.of (by decide))
    with_reducible assumption
  clear_value a1
  split
  · with_reducible assumption
  · split
    · split
      · with_reducible assumption
      · split
        · with_reducible apply State.islandOn_keeps (w := w.of (by decide))
          with_reducible assumption
        · with_reducible apply State.wr_keeps (w := w.of (by decide))
          with_reducible assumption
    · with_reducible apply State.bistState_keeps (w := w.of (by decide))
      with_reducible assumption

theorem State.islandReturn_keeps {m : Nat} {s0 : State} (s : State) (i : ℕ) (h : s0.Keeps m s) (w : Within 0x4000008 m := by exact Within.of (by assumption) (by decide)) :
    s0.Keeps m (State.islandReturn s i) := by
  unfold State.islandReturn
  extract_lets a0 a1
  have k2 : s0.Keeps m a0 := by
    unfold a0
    with_reducible apply State.wr_keeps (w := w.of (by decide))
    with_reducible apply State.inc_keeps (w := w.of (by decide))
    with_reducible assumption
  clear_value a0
  have k3 : s0.Keeps m a1 := by
    unfold a1
    split
    · with_reducible assumption
    · with_reducible apply State.islandOff_keeps (w := w.of (by decide))
      with_reducible assumption
  clear_value a1
  split
  · with_reducible apply State.islandOn_keeps (w := w.of (by decide))
    with_reducible assumption
  · with_reducible assumption

theorem State.releaseHeld_keeps {m : Nat} {s0 : State} (s : State) (h : s0.Keeps m s) (w : Within 0x150c5198 m := by exact Within.of (by assumption) (by decide)) :
    s0.Keeps m (State.releaseHeld s) := by
  unfold State.releaseHeld
  extract_lets a0 a1 a2 a3 a4
  clear_value a0
  clear_value a1
  clear_value a2
  clear_value a3
  have k5 : s0.Keeps m a4 := by
    unfold a4
    with_reducible apply State.setMnt_keeps (w := w.of (by decide))
    with_reducible assumption
  clear_value a4
  with_reducible apply State.each_keeps
  · intro x6 x7 x8
    split
    · with_reducible apply State.grpSet_keeps (w := w.of (by decide))
      with_reducible apply State.wr_keeps (w := w.of (by decide))
      with_reducible assumption
    · with_reducible apply State.netPortSet_keeps (w := w.of (by decide))
      with_reducible apply State.wr_keeps (w := w.of (by decide))
      with_reducible assumption
    · with_reducible assumption
  · with_reducible assumption

theorem State.bistJudge_keeps {m : Nat} {s0 : State} (s : State) (n : ℕ) (r : TestEnd) (h : s0.Keeps m s) (w : Within 0x8 m := by exact Within.of (by assumption) (by decide)) :
    s0.Keeps m (State.bistJudge s n r) := by
  unfold State.bistJudge
  extract_lets a0 a1 a2 a3 a4 a5 a6 a7
  clear_value a0
  have k8 : s0.Keeps m a1 := by
    unfold a1
    with_reducible apply State.wr_keeps (w := w.of (by decide))
    with_reducible apply State.wr_keeps (w := w.of (by decide))
    with_reducible assumption
  clear_value a1
  have k9 : s0.Keeps m a2 := by
    unfold a2
    with_reducible apply State.wr_keeps (w := w.of (by decide))
    with_reducible apply State.wr_keeps (w := w.of (by decide))
    with_reducible assumption
  clear_value a2
  have k10 : s0.Keeps m a3 := by
    unfold a3
    with_reducible apply State.wrB_keeps (w := w.of (by decide))
    with_reducible apply State.wr_keeps (w := w.of (by decide))
    with_reducible assumption
  clear_value a3
  have k11 : s0.Keeps m a4 := by
    unfold a4
    with_reducible apply State.wrB_keeps (w := w.of (by decide))
    with_reducible assumption
  clear_value a4
  clear_value a5
  have k12 : s0.Keeps m a6 := by
    unfold a6
    with_reducible apply State.wr_keeps (w := w.of (by decide))
    with_reducible assumption
  clear_value a6
  have k13 : s0.Keeps m a7 := by
    unfold a7
    split
    · with_reducible apply State.bistReport_keeps (w := w.of (by decide))
      with_reducible assumption
    · split
      · with_reducible assumption
      · with_reducible apply State.bistReport_keeps (w := w.of (by decide))
        with_reducible assumption
  clear_value a7
  with_reducible apply State.irq_keeps (w := w.of (by decide))
  with_reducible apply State.bistState_keeps (w := w.of (by decide))
  with_reducible assumption

theorem State.bistEnd_keeps {m : Nat} {s0 : State} (s : State) (n : ℕ) (r : TestEnd) (h : s0.Keeps m s) (w : Within 0x150c5198 m := by exact Within.of (by assumption) (by decide)) :
    s0.Keeps m (State.bistEnd s n r) := by
  unfold State.bistEnd
  extract_lets a0 a1 a2 a3
  clear_value a0
  clear_value a1
  have k4 : s0.Keeps m a2 := by
    unfold a2
    with_reducible apply State.endAct_keeps (w := w.of (by decide))
    with_reducible apply State.bistJudge_keeps (w := w.of (by decide))
    with_reducible assumption
  clear_value a2
  have k5 : s0.Keeps m a3 := by
    unfold a3
    split
    · with_reducible apply State.islandReturn_keeps (w := w.of (by decide))
      with_reducible assumption
    · split
      · with_reducible apply State.islandDemand_keeps (w := w.of (by decide))
        with_reducible assumption
      · with_reducible assumption
  clear_value a3
  with_reducible apply State.releaseHeld_keeps (w := w.of (by decide))
  with_reducible assumption

theorem State.bistCut_keeps {m : Nat} {s0 : State} (s : State) (n : ℕ) (r : TestEnd) (h : s0.Keeps m s) (w : Within 0x150c5198 m := by exact Within.of (by assumption) (by decide)) :
    s0.Keeps m (State.bistCut s n r) := by
  unfold State.bistCut
  split
  · with_reducible apply State.bistEnd_keeps (w := w.of (by decide))
    with_reducible assumption
  · with_reducible apply State.bistEnd_keeps (w := w.of (by decide))
    with_reducible assumption
  · with_reducible assumption

theorem State.bistOpen_keeps {m : Nat} {s0 : State} (s : State) (h : s0.Keeps m s) (w : Within 0x2 m := by exact Within.of (by assumption) (by decide)) :
    s0.Keeps m ((State.bistOpen s).2) := by
  unfold State.bistOpen
  extract_lets a0 a1 a2
  have k3 : s0.Keeps m a0.2 := by
    unfold a0
    with_reducible apply State.takeFree_keeps (w := w.of (by decide))
    with_reducible assumption
  clear_value a0
  have k4 : s0.Keeps m a1.2 := by
    unfold a1
    with_reducible apply State.takeFree_keeps (w := w.of (by decide))
    with_reducible assumption
  clear_value a1
  have k5 : s0.Keeps m a2.2 := by
    unfold a2
    with_reducible apply State.takeFree_keeps (w := w.of (by decide))
    with_reducible assumption
  clear_value a2
  with_reducible assumption

theorem State.bistOpen_keeps_eq {m : Nat} {s0 : State} {s : State} {a : _} {t : State} (h : s0.Keeps m s)  (e : State.bistOpen s = (a, t)) (w : Within 0x2 m := by exact Within.of (by assumption) (by decide)) :
    s0.Keeps m t :=
  State.keeps_snd_eq (State.bistOpen_keeps s h ) e

theorem State.bistCmd_keeps {m : Nat} {s0 : State} (s : State) (n : ℕ) (val : Word) (r : TestEnd) (h : s0.Keeps m s) (w : Within 0x150c5198 m := by exact Within.of (by assumption) (by decide)) :
    s0.Keeps m (State.bistCmd s n val r) := by
  unfold State.bistCmd
  extract_lets a0
  have k1 : s0.Keeps m a0 := by
    unfold a0
    with_reducible apply State.plainWrite_keeps (w := w.of (by decide))
    with_reducible assumption
  clear_value a0
  split
  · with_reducible apply State.bistGo_keeps (w := w.of (by decide))
    with_reducible assumption
  · split
    · with_reducible apply State.bistCut_keeps (w := w.of (by decide))
      with_reducible assumption
    · with_reducible assumption

theorem State.bistRegWrite_keeps {m : Nat} {s0 : State} (s : State) (o : ℕ) (val : Word) (h : s0.Keeps m s) (w : Within 0x150c519a m := by exact Within.of (by assumption) (by decide)) :
    s0.Keeps m (State.bistRegWrite s o val) := by
  unfold State.bistRegWrite
  split
  · with_reducible apply State.bistCmd_keeps (w := w.of (by decide))
    with_reducible apply State.bistOpen_keeps (w := w.of (by decide))
    with_reducible assumption
  · with_reducible apply State.plainWrite_keeps (w := w.of (by decide))
    with_reducible assumption

theorem State.calEnd_keeps {m : Nat} {s0 : State} (s : State) (h : s0.Keeps m s) (w : Within 0x10000008 m := by exact Within.of (by assumption) (by decide)) :
    s0.Keeps m (State.calEnd s) := by
  unfold State.calEnd
  with_reducible apply State.irq_keeps (w := w.of (by decide))
  with_reducible apply State.wr_keeps (w := w.of (by decide))
  with_reducible apply State.setMnt_keeps (w := w.of (by decide))
  with_reducible assumption

theorem State.calTurn_keeps {m : Nat} {s0 : State} (s : State) (g : ℕ) (h : s0.Keeps m s) (w : Within 0x10000008 m := by exact Within.of (by assumption) (by decide)) :
    s0.Keeps m (State.calTurn s g) := by
  unfold State.calTurn
  extract_lets a0 a1 a2
  clear_value a0
  clear_value a1
  have k3 : s0.Keeps m a2 := by
    unfold a2
    with_reducible apply State.setMnt_keeps (w := w.of (by decide))
    with_reducible assumption
  clear_value a2
  with_reducible apply State.wr_keeps (w := w.of (by decide))
  with_reducible apply State.wr_keeps (w := w.of (by decide))
  with_reducible assumption

theorem State.calGroup_keeps {m : Nat} {s0 : State} (s : State) (l : List ℕ) (h : s0.Keeps m s) (w : Within 0x10000008 m := by exact Within.of (by assumption) (by decide)) :
    s0.Keeps m (State.calGroup s l) := by
  unfold State.calGroup
  split
  · with_reducible apply State.calEnd_keeps (w := w.of (by decide))
    with_reducible assumption
  · with_reducible apply State.requestAct_keeps (w := w.of (by decide))
    with_reducible apply State.calTurn_keeps (w := w.of (by decide))
    with_reducible assumption

theorem State.calStart_keeps {m : Nat} {s0 : State} (s : State) (h : s0.Keeps m s) (w : Within 0x10000008 m := by exact Within.of (by assumption) (by decide)) :
    s0.Keeps m (State.calStart s) := by
  unfold State.calStart
  split
  · with_reducible assumption
  · extract_lets a0
    have k1 : s0.Keeps m a0 := by
      unfold a0
      with_reducible apply State.wr_keeps (w := w.of (by decide))
      with_reducible apply State.wr_keeps (w := w.of (by decide))
      with_reducible assumption
    clear_value a0
    with_reducible apply State.calGroup_keeps (w := w.of (by decide))
    with_reducible assumption

theorem State.calTrigger_keeps {m : Nat} {s0 : State} (s : State) (h : s0.Keeps m s) (w : Within 0x10000008 m := by exact Within.of (by assumption) (by decide)) :
    s0.Keeps m (State.calTrigger s) := by
  unfold State.calTrigger
  extract_lets a0
  clear_value a0
  split
  · with_reducible apply State.calStart_keeps (w := w.of (by decide))
    with_reducible assumption
  · with_reducible assumption

theorem State.calTrim_keeps {m : Nat} {s0 : State} (s : State) (lane : ℕ) (trims : List ℕ) (h : s0.Keeps m s) (w : Within 0x8 m := by exact Within.of (by assumption) (by decide)) :
    s0.Keeps m (State.calTrim s lane trims) := by
  unfold State.calTrim
  extract_lets a0 a1
  clear_value a0
  have k2 : s0.Keeps m a1 := by
    unfold a1
    with_reducible apply State.each_keeps
    · intro x3 x4 x5
      with_reducible apply State.wr_keeps (w := w.of (by decide))
      with_reducible assumption
    · with_reducible assumption
  clear_value a1
  with_reducible apply State.inc_keeps (w := w.of (by decide))
  split
  · with_reducible assumption
  · with_reducible apply State.wr_keeps (w := w.of (by decide))
    with_reducible assumption

theorem State.calSkip_keeps {m : Nat} {s0 : State} (s : State) (h : s0.Keeps m s) (w : Within 0x8 m := by exact Within.of (by assumption) (by decide)) :
    s0.Keeps m (State.calSkip s) := by
  unfold State.calSkip
  with_reducible apply State.wr_keeps (w := w.of (by decide))
  with_reducible apply State.inc_keeps (w := w.of (by decide))
  with_reducible assumption

theorem State.calNext_keeps {m : Nat} {s0 : State} (s : State) (c : CalPass) (h : s0.Keeps m s) (w : Within 0x10000008 m := by exact Within.of (by assumption) (by decide)) :
    s0.Keeps m (State.calNext s c) := by
  unfold State.calNext
  split
  · with_reducible apply State.calGroup_keeps (w := w.of (by decide))
    with_reducible apply State.endAct_keeps (w := w.of (by decide))
    with_reducible assumption
  · extract_lets a0 a1
    clear_value a0
    clear_value a1
    with_reducible apply State.wr_keeps (w := w.of (by decide))
    with_reducible apply State.setMnt_keeps (w := w.of (by decide))
    with_reducible assumption

theorem State.spareHolds_keeps {m : Nat} {s0 : State} (s : State) (g : ℕ) (pos : Option ℕ) (h : s0.Keeps m s) (w : Within 0x40008 m := by exact Within.of (by assumption) (by decide)) :
    s0.Keeps m (State.spareHolds s g pos) := by
  unfold State.spareHolds
  with_reducible apply State.wrB_keeps (w := w.of (by decide))
  with_reducible apply State.setGrp_keeps (w := w.of (by decide))
  with_reducible assumption

theorem State.calMoved_keeps {m : Nat} {s0 : State} (s : State) (c : CalPass) (trims : List ℕ) (spareFails : Bool) (underrun : Bool) (h : s0.Keeps m s) (w : Within 0x140c5198 m := by exact Within.of (by assumption) (by decide)) :
    s0.Keeps m (State.calMoved s c trims spareFails underrun) := by
  unfold State.calMoved
  extract_lets a0 a1 a2 a3
  clear_value a0
  have k4 : s0.Keeps m a1 := by
    unfold a1
    with_reducible apply State.slkNotice_keeps (w := w.of (by decide))
    with_reducible assumption
  clear_value a1
  have k5 : s0.Keeps m a2 := by
    unfold a2
    with_reducible apply State.calTrim_keeps (w := w.of (by decide))
    with_reducible assumption
  clear_value a2
  clear_value a3
  split
  · with_reducible apply State.calNext_keeps (w := w.of (by decide))
    with_reducible apply State.calSkip_keeps (w := w.of (by decide))
    with_reducible apply State.grpStatus_keeps (w := w.of (by decide))
    with_reducible apply State.slkNotice_keeps (w := w.of (by decide))
    with_reducible assumption
  · split
    · with_reducible apply State.resync_keeps (w := w.of (by decide))
      with_reducible apply State.setMnt_keeps (w := w.of (by decide))
      with_reducible apply State.spareHolds_keeps (w := w.of (by decide))
      with_reducible assumption
    · with_reducible apply State.calNext_keeps (w := w.of (by decide))
      with_reducible apply State.slkNotice_keeps (w := w.of (by decide))
      with_reducible assumption

theorem State.calPosition_keeps {m : Nat} {s0 : State} (s : State) (trims : List ℕ) (spareFails : Bool) (underrun : Bool) (h : s0.Keeps m s) (w : Within 0x140c5198 m := by exact Within.of (by assumption) (by decide)) :
    s0.Keeps m (State.calPosition s trims spareFails underrun) := by
  unfold State.calPosition
  split
  · with_reducible assumption
  · extract_lets a0
    clear_value a0
    split
    · with_reducible assumption
    · split
      · split
        · with_reducible apply State.calNext_keeps (w := w.of (by decide))
          with_reducible apply State.slkNotice_keeps (w := w.of (by decide))
          with_reducible apply State.spareHolds_keeps (w := w.of (by decide))
          with_reducible assumption
        · with_reducible assumption
      · split
        · with_reducible apply State.calNext_keeps (w := w.of (by decide))
          split
          · with_reducible apply State.calTrim_keeps (w := w.of (by decide))
            with_reducible assumption
          · with_reducible apply State.calSkip_keeps (w := w.of (by decide))
            with_reducible assumption
        · split
          · with_reducible apply State.calNext_keeps (w := w.of (by decide))
            with_reducible apply State.calTrim_keeps (w := w.of (by decide))
            with_reducible assumption
          · with_reducible apply State.calMoved_keeps (w := w.of (by decide))
            with_reducible assumption

theorem State.calCtrl_keeps {m : Nat} {s0 : State} (s : State) (val : Word) (h : s0.Keeps m s) (w : Within 0x10000008 m := by exact Within.of (by assumption) (by decide)) :
    s0.Keeps m (State.calCtrl s val) := by
  unfold State.calCtrl
  extract_lets a0 a1
  clear_value a0
  have k2 : s0.Keeps m a1 := by
    unfold a1
    with_reducible apply State.plainWrite_keeps (w := w.of (by decide))
    with_reducible assumption
  clear_value a1
  split
  · with_reducible apply State.wr_keeps (w := w.of (by decide))
    with_reducible assumption
  · split
    · with_reducible apply State.calStart_keeps (w := w.of (by decide))
      with_reducible assumption
    · with_reducible assumption

theorem State.calRegWrite_keeps {m : Nat} {s0 : State} (s : State) (o : ℕ) (val : Word) (h : s0.Keeps m s) (w : Within 0x10000008 m := by exact Within.of (by assumption) (by decide)) :
    s0.Keeps m (State.calRegWrite s o val) := by
  unfold State.calRegWrite
  split
  · with_reducible apply State.calCtrl_keeps (w := w.of (by decide))
    with_reducible assumption
  · with_reducible apply State.plainWrite_keeps (w := w.of (by decide))
    with_reducible assumption

theorem State.clkStart_keeps {m : Nat} {s0 : State} (s : State) (eclk : Bool) (h : s0.Keeps m s) (w : Within 0x10000008 m := by exact Within.of (by assumption) (by decide)) :
    s0.Keeps m (State.clkStart s eclk) := by
  unfold State.clkStart
  split
  · with_reducible assumption
  · extract_lets a0
    have k1 : s0.Keeps m a0 := by
      unfold a0
      with_reducible apply State.wr_keeps (w := w.of (by decide))
      with_reducible apply State.wr_keeps (w := w.of (by decide))
      with_reducible assumption
    clear_value a0
    with_reducible apply State.endAct_keeps (w := w.of (by decide))
    with_reducible apply State.wr_keeps (w := w.of (by decide))
    with_reducible assumption

theorem State.startDeferred_keeps {m : Nat} {s0 : State} (s : State) (h : s0.Keeps m s) (w : Within 0x10040008 m := by exact Within.of (by assumption) (by decide)) :
    s0.Keeps m (State.startDeferred s) := by
  unfold State.startDeferred
  split
  · with_reducible assumption
  · extract_lets a0 a1
    clear_value a0
    have k2 : s0.Keeps m a1 := by
      unfold a1
      with_reducible apply State.setMnt_keeps (w := w.of (by decide))
      with_reducible assumption
    clear_value a1
    split
    · with_reducible assumption
    · with_reducible apply State.calTurn_keeps (w := w.of (by decide))
      with_reducible assumption
    · with_reducible apply State.spareStart_keeps (w := w.of (by decide))
      with_reducible assumption
    · with_reducible apply State.clkStart_keeps (w := w.of (by decide))
      with_reducible assumption

theorem execBistGo_keeps {m : Nat} {s0 : State} (src : Agent) (slot : Fin 8) (val : Word) (s : State) (h : s0.Keeps m s) {t : State} (e : execBistGo src slot val s = .next t) (w : Within 0x150cd198 m := by exact Within.of (by assumption) (by decide)) :
    s0.Keeps m t := by
  unfold execBistGo at e
  injection e with e
  subst e
  with_reducible apply State.writeReg_keeps (w := w.of (by decide))
  · with_reducible assumption
  · intro x0 x1
    with_reducible apply State.bistCmd_keeps (w := w.of (by decide))
    with_reducible assumption

theorem execBistAbort_keeps {m : Nat} {s0 : State} (src : Agent) (slot : Fin 8) (val : Word) (result : TestEnd) (s : State) (h : s0.Keeps m s) {t : State} (e : execBistAbort src slot val result s = .next t) (w : Within 0x150cd198 m := by exact Within.of (by assumption) (by decide)) :
    s0.Keeps m t := by
  unfold execBistAbort at e
  injection e with e
  subst e
  with_reducible apply State.writeReg_keeps (w := w.of (by decide))
  · with_reducible assumption
  · intro x0 x1
    with_reducible apply State.bistCmd_keeps (w := w.of (by decide))
    with_reducible assumption

theorem execBistRunning_keeps {m : Nat} {s0 : State} (slot : Fin 8) (s : State) (h : s0.Keeps m s) {t : State} (e : execBistRunning slot s = .next t) (w : Within 0x4000018 m := by exact Within.of (by assumption) (by decide)) :
    s0.Keeps m t := by
  unfold execBistRunning at e
  injection e with e
  subst e
  with_reducible apply State.bistRun_keeps (w := w.of (by decide))
  with_reducible assumption

theorem execBistDone_keeps {m : Nat} {s0 : State} (slot : Fin 8) (result : TestEnd) (s : State) (h : s0.Keeps m s) {t : State} (e : execBistDone slot result s = .next t) (w : Within 0x150c5198 m := by exact Within.of (by assumption) (by decide)) :
    s0.Keeps m t := by
  unfold execBistDone at e
  injection e with e
  subst e
  split
  · with_reducible apply State.bistEnd_keeps (w := w.of (by decide))
    with_reducible assumption
  · with_reducible assumption

theorem execNow_keeps {m : Nat} {s0 : State} (src : Agent) (val : Word) (s : State) (h : s0.Keeps m s) {t : State} (e : execNow src val s = .next t) (w : Within 0x10008008 m := by exact Within.of (by assumption) (by decide)) :
    s0.Keeps m t := by
  unfold execNow at e
  injection e with e
  subst e
  with_reducible apply State.writeReg_keeps (w := w.of (by decide))
  · with_reducible assumption
  · intro x0 x1
    with_reducible apply State.calCtrl_keeps (w := w.of (by decide))
    with_reducible assumption

theorem execCalTempTrigger_keeps {m : Nat} {s0 : State} (s : State) (h : s0.Keeps m s) {t : State} (e : execCalTempTrigger s = .next t) (w : Within 0x10000008 m := by exact Within.of (by assumption) (by decide)) :
    s0.Keeps m t := by
  unfold execCalTempTrigger at e
  injection e with e
  subst e
  with_reducible apply State.calTrigger_keeps (w := w.of (by decide))
  with_reducible assumption

theorem execCalPosition_keeps {m : Nat} {s0 : State} (trims : List ℕ) (spareFails : Bool) (underrun : Bool) (s : State) (h : s0.Keeps m s) {t : State} (e : execCalPosition trims spareFails underrun s = .next t) (w : Within 0x140c5198 m := by exact Within.of (by assumption) (by decide)) :
    s0.Keeps m t := by
  unfold execCalPosition at e
  injection e with e
  subst e
  with_reducible apply State.calPosition_keeps (w := w.of (by decide))
  with_reducible assumption

theorem execDeferredActivityStart_keeps {m : Nat} {s0 : State} (s : State) (h : s0.Keeps m s) {t : State} (e : execDeferredActivityStart s = .next t) (w : Within 0x10040008 m := by exact Within.of (by assumption) (by decide)) :
    s0.Keeps m t := by
  unfold execDeferredActivityStart at e
  injection e with e
  subst e
  with_reducible apply State.startDeferred_keeps (w := w.of (by decide))
  with_reducible assumption

end Sys2Proof.Machine
end

