-- ==== Sys2Proof/Laws/KeepsPower.lean ====
section
/-! SUPPORT. The operations of Machine/Power.lean keep the queue and the invariant (`State.Keeps`). -/

namespace Sys2Proof.Machine

set_option Elab.async false
set_option linter.unusedVariables false

theorem State.pwrStatus_keeps {m : Nat} {s0 : State} (s : State) (code : ℕ) (h : s0.Keeps m s) (w : Within 0x8 m := by exact Within.of (by assumption) (by decide)) :
    s0.Keeps m (State.pwrStatus s code) := by
  unfold State.pwrStatus
  with_reducible apply State.wr_keeps (w := w.of (by decide))
  with_reducible assumption

theorem State.clkStatus_keeps {m : Nat} {s0 : State} (s : State) (code : ℕ) (h : s0.Keeps m s) (w : Within 0x8 m := by exact Within.of (by assumption) (by decide)) :
    s0.Keeps m (State.clkStatus s code) := by
  unfold State.clkStatus
  with_reducible apply State.wr_keeps (w := w.of (by decide))
  with_reducible assumption

theorem State.readTemps_keeps {m : Nat} {s0 : State} (s : State) (temps : List ℤ) (h : s0.Keeps m s) (w : Within 0x4000008 m := by exact Within.of (by assumption) (by decide)) :
    s0.Keeps m (State.readTemps s temps) := by
  unfold State.readTemps
  extract_lets a0 a1 a2 a3 a4 a5 a6 a7
  clear_value a0
  clear_value a1
  clear_value a2
  clear_value a3
  clear_value a4
  clear_value a5
  have k8 : s0.Keeps m a6 := by
    unfold a6
    with_reducible apply State.setPwr_keeps (w := w.of (by decide))
    with_reducible assumption
  clear_value a6
  have k9 : s0.Keeps m a7 := by
    unfold a7
    with_reducible apply State.wr_keeps (w := w.of (by decide))
    with_reducible apply State.wr_keeps (w := w.of (by decide))
    with_reducible assumption
  clear_value a7
  with_reducible apply State.wr_keeps (w := w.of (by decide))
  with_reducible assumption

theorem State.lowinClear_keeps {m : Nat} {s0 : State} (s : State) (h : s0.Keeps m s) (w : Within 0x8 m := by exact Within.of (by assumption) (by decide)) :
    s0.Keeps m (State.lowinClear s) := by
  unfold State.lowinClear
  split
  · with_reducible apply State.wr_keeps (w := w.of (by decide))
    with_reducible apply State.wr_keeps (w := w.of (by decide))
    with_reducible assumption
  · with_reducible assumption

theorem State.telemetry_keeps {m : Nat} {s0 : State} (s : State) (mv : ℕ) (ma : ℕ) (temps : Option (List ℤ)) (h : s0.Keeps m s) (w : Within 0x4000008 m := by exact Within.of (by assumption) (by decide)) :
    s0.Keeps m (State.telemetry s mv ma temps) := by
  unfold State.telemetry
  split
  · with_reducible assumption
  · extract_lets a0 a1 a2 a3 a4 a5 a6 a7
    clear_value a0
    clear_value a1
    have k8 : s0.Keeps m a2 := by
      unfold a2
      with_reducible apply State.setPwr_keeps (w := w.of (by decide))
      with_reducible assumption
    clear_value a2
    clear_value a3
    clear_value a4
    have k9 : s0.Keeps m a5 := by
      unfold a5
      with_reducible apply State.wr_keeps (w := w.of (by decide))
      with_reducible apply State.wr_keeps (w := w.of (by decide))
      with_reducible assumption
    clear_value a5
    have k10 : s0.Keeps m a6 := by
      unfold a6
      with_reducible apply State.wr_keeps (w := w.of (by decide))
      with_reducible apply State.wr_keeps (w := w.of (by decide))
      with_reducible assumption
    clear_value a6
    have k11 : s0.Keeps m a7 := by
      unfold a7
      with_reducible apply State.lowinClear_keeps (w := w.of (by decide))
      with_reducible assumption
    clear_value a7
    split
    · with_reducible assumption
    · with_reducible apply State.readTemps_keeps (w := w.of (by decide))
      with_reducible assumption

theorem State.lowInput_keeps {m : Nat} {s0 : State} (s : State) (h : s0.Keeps m s) (w : Within 0x8 m := by exact Within.of (by assumption) (by decide)) :
    s0.Keeps m (State.lowInput s) := by
  unfold State.lowInput
  split
  · with_reducible assumption
  · with_reducible apply State.irq_keeps (w := w.of (by decide))
    with_reducible apply State.pwrStatus_keeps (w := w.of (by decide))
    with_reducible apply State.wr_keeps (w := w.of (by decide))
    with_reducible assumption

theorem State.tempWarn_keeps {m : Nat} {s0 : State} (s : State) (d : ℕ) (h : s0.Keeps m s) (w : Within 0x4000008 m := by exact Within.of (by assumption) (by decide)) :
    s0.Keeps m (State.tempWarn s d) := by
  unfold State.tempWarn
  split
  · extract_lets a0 a1
    clear_value a0
    have k2 : s0.Keeps m a1 := by
      unfold a1
      with_reducible apply State.setPwr_keeps (w := w.of (by decide))
      with_reducible assumption
    clear_value a1
    with_reducible apply State.irq_keeps (w := w.of (by decide))
    with_reducible apply State.pwrStatus_keeps (w := w.of (by decide))
    with_reducible assumption
  · with_reducible assumption

theorem State.overTemp_keeps {m : Nat} {s0 : State} (s : State) (temp : ℤ) (h : s0.Keeps m s) (w : Within 0x3fffffff m := by exact Within.of (by assumption) (by decide)) :
    s0.Keeps m (State.overTemp s temp) := by
  unfold State.overTemp
  split
  · with_reducible assumption
  · extract_lets a0 a1
    have k2 : s0.Keeps m a0.2 := by
      unfold a0
      with_reducible apply State.takeFree_keeps (w := w.of (by decide))
      with_reducible assumption
    clear_value a0
    clear_value a1
    with_reducible apply State.enterMidnight_keeps (w := w.of (by decide))
    with_reducible apply State.setPtp_keeps (w := w.of (by decide))
    with_reducible assumption

theorem State.updDrop_keeps {m : Nat} {s0 : State} (s : State) (h : s0.Keeps m s) (w : Within 0x20000008 m := by exact Within.of (by assumption) (by decide)) :
    s0.Keeps m (State.updDrop s) := by
  unfold State.updDrop
  with_reducible apply State.wr_keeps (w := w.of (by decide))
  with_reducible apply State.wr_keeps (w := w.of (by decide))
  with_reducible apply State.setUpd_keeps (w := w.of (by decide))
  with_reducible assumption

theorem State.startDusk_keeps {m : Nat} {s0 : State} (s : State) (force : Bool) (h : s0.Keeps m s) (w : Within 0x24100018 m := by exact Within.of (by assumption) (by decide)) :
    s0.Keeps m (State.startDusk s force) := by
  unfold State.startDusk
  extract_lets a0 a1
  clear_value a0
  have k2 : s0.Keeps m a1 := by
    unfold a1
    with_reducible apply State.setPwr_keeps (w := w.of (by decide))
    with_reducible apply State.wr_keeps (w := w.of (by decide))
    with_reducible apply State.updDrop_keeps (w := w.of (by decide))
    with_reducible assumption
  clear_value a1
  split
  · with_reducible apply State.takeAbort_keeps (w := w.of (by decide))
    with_reducible assumption
  · with_reducible assumption

theorem State.sleepCmd_keeps {m : Nat} {s0 : State} (s : State) (force : Bool) (h : s0.Keeps m s) (w : Within 0x24100018 m := by exact Within.of (by assumption) (by decide)) :
    s0.Keeps m (State.sleepCmd s force) := by
  unfold State.sleepCmd
  split
  · with_reducible assumption
  · split
    · with_reducible apply State.pwrStatus_keeps (w := w.of (by decide))
      with_reducible assumption
    · split
      · with_reducible apply State.setPwr_keeps (w := w.of (by decide))
        with_reducible assumption
      · with_reducible apply State.startDusk_keeps (w := w.of (by decide))
        with_reducible assumption

theorem State.pwrCtrl_keeps {m : Nat} {s0 : State} (s : State) (val : Word) (h : s0.Keeps m s) (w : Within 0x24100018 m := by exact Within.of (by assumption) (by decide)) :
    s0.Keeps m (State.pwrCtrl s val) := by
  unfold State.pwrCtrl
  extract_lets a0 a1 a2
  clear_value a0
  clear_value a1
  have k3 : s0.Keeps m a2 := by
    unfold a2
    with_reducible apply State.plainWrite_keeps (w := w.of (by decide))
    with_reducible assumption
  clear_value a2
  split
  · with_reducible apply State.pwrStatus_keeps (w := w.of (by decide))
    with_reducible assumption
  · split
    · with_reducible apply State.sleepCmd_keeps (w := w.of (by decide))
      with_reducible assumption
    · with_reducible assumption

theorem State.clearEnables_keeps {m : Nat} {s0 : State} (s : State) (h : s0.Keeps m s) (w : Within 0x173c519a m := by exact Within.of (by assumption) (by decide)) :
    s0.Keeps m (State.clearEnables s) := by
  unfold State.clearEnables
  extract_lets a0 a1 a2 a3 a4 a5 a6 a7 a8
  clear_value a0
  have k9 : s0.Keeps m a1 := by
    unfold a1
    with_reducible apply State.setMnt_keeps (w := w.of (by decide))
    with_reducible assumption
  clear_value a1
  have k10 : s0.Keeps m a2 := by
    unfold a2
    with_reducible apply State.each_keeps
    · intro x11 x12 x13
      with_reducible apply State.bistCut_keeps (w := w.of (by decide))
      with_reducible apply State.bistOpen_keeps (w := w.of (by decide))
      with_reducible assumption
    · with_reducible assumption
  clear_value a2
  have k14 : s0.Keeps m a3 := by
    unfold a3
    with_reducible apply State.each_keeps
    · intro x15 x16 x17
      with_reducible apply State.encCtrl_keeps (w := w.of (by decide))
      with_reducible assumption
    · with_reducible assumption
  clear_value a3
  have k18 : s0.Keeps m a4 := by
    unfold a4
    with_reducible apply State.each_keeps
    · intro x19 x20 x21
      with_reducible apply State.headCtrl_keeps (w := w.of (by decide))
      with_reducible assumption
    · with_reducible assumption
  clear_value a4
  have k22 : s0.Keeps m a5 := by
    unfold a5
    with_reducible apply State.each_keeps
    · intro x23 x24 x25
      with_reducible apply State.sdiCfg_keeps (w := w.of (by decide))
      with_reducible assumption
    · with_reducible assumption
  clear_value a5
  have k26 : s0.Keeps m a6 := by
    unfold a6
    with_reducible apply State.each_keeps
    · intro x27 x28 x29
      with_reducible apply State.netPortSet_keeps (w := w.of (by decide))
      with_reducible assumption
    · with_reducible assumption
  clear_value a6
  have k30 : s0.Keeps m a7 := by
    unfold a7
    with_reducible apply State.each_keeps
    · intro x31 x32 x33
      with_reducible apply State.audCtrl_keeps (w := w.of (by decide))
      with_reducible assumption
    · with_reducible assumption
  clear_value a7
  have k34 : s0.Keeps m a8 := by
    unfold a8
    with_reducible apply State.each_keeps
    · intro x35 x36 x37
      with_reducible apply State.magCtrl_keeps (w := w.of (by decide))
      with_reducible assumption
    · with_reducible assumption
  clear_value a8
  with_reducible apply State.each_keeps
  · intro x38 x39 x40
    with_reducible apply State.grpSet_keeps (w := w.of (by decide))
    with_reducible assumption
  · with_reducible assumption

theorem State.drainAll_keeps {m : Nat} {s0 : State} (s : State) (h : s0.Keeps m s) (w : Within 0x8 m := by exact Within.of (by assumption) (by decide)) :
    s0.Keeps m (State.drainAll s) := by
  unfold State.drainAll
  with_reducible apply State.each_keeps
  · intro x0 x1 x2
    split
    · with_reducible apply State.wr_keeps (w := w.of (by decide))
      with_reducible assumption
    · with_reducible assumption
  · with_reducible assumption

theorem State.duskEnd_keeps {m : Nat} {s0 : State} (s : State) (h : s0.Keeps m s) (w : Within 0x3fffffff m := by exact Within.of (by assumption) (by decide)) :
    s0.Keeps m (State.duskEnd s) := by
  unfold State.duskEnd
  extract_lets a0 a1
  clear_value a0
  have k2 : s0.Keeps m a1 := by
    unfold a1
    with_reducible apply State.enterMidnight_keeps (w := w.of (by decide))
    with_reducible assumption
  clear_value a1
  split
  · with_reducible apply State.wakeUp_keeps (w := w.of (by decide))
    with_reducible assumption
  · with_reducible assumption

theorem State.duskStep_keeps {m : Nat} {s0 : State} (s : State) (h : s0.Keeps m s) (w : Within 0x3fffffff m := by exact Within.of (by assumption) (by decide)) :
    s0.Keeps m (State.duskStep s) := by
  unfold State.duskStep
  extract_lets a0 a1 a2
  have k3 : ∀ y0 y1, s0.Keeps m y0 → s0.Keeps m (a0 y0 y1) := by
    unfold a0
    intro x4 x5 x6
    with_reducible apply State.setPwr_keeps (w := w.of (by decide))
    with_reducible assumption
  clear_value a0
  clear_value a1
  have k7 : s0.Keeps m a2 := by
    unfold a2
    with_reducible apply State.setSch_keeps (w := w.of (by decide))
    with_reducible apply k3
    with_reducible assumption
  clear_value a2
  split
  · with_reducible assumption
  · split
    · with_reducible apply State.clearEnables_keeps (w := w.of (by decide))
      with_reducible apply k3
      with_reducible assumption
    · with_reducible assumption
  · split
    · with_reducible apply State.each_keeps
      · intro x8 x9 x10
        with_reducible apply State.cancelTask_keeps (w := w.of (by decide))
        with_reducible assumption
      · with_reducible assumption
    · with_reducible assumption
  · split
    · with_reducible apply State.drainAll_keeps (w := w.of (by decide))
      with_reducible apply k3
      with_reducible assumption
    · with_reducible assumption
  · split
    · with_reducible apply State.holdUnit_keeps (w := w.of (by decide))
      with_reducible apply State.holdUnit_keeps (w := w.of (by decide))
      with_reducible apply State.duskTime_keeps (w := w.of (by decide))
      with_reducible apply k3
      with_reducible assumption
    · with_reducible assumption
  · with_reducible apply State.loseMem_keeps (w := w.of (by decide))
    with_reducible apply k3
    with_reducible assumption
  · with_reducible apply State.duskEnd_keeps (w := w.of (by decide))
    with_reducible assumption

theorem State.wake_keeps {m : Nat} {s0 : State} (s : State) (u : WakeTick) (h : s0.Keeps m s) (w : Within 0xc01d018 m := by exact Within.of (by assumption) (by decide)) :
    s0.Keeps m (State.wake s u) := by
  unfold State.wake
  split
  · with_reducible assumption
  · split
    · split
      · with_reducible assumption
      · with_reducible apply State.setPwr_keeps (w := w.of (by decide))
        with_reducible assumption
    · split
      · with_reducible assumption
      · with_reducible apply State.wakeUp_keeps (w := w.of (by decide))
        with_reducible assumption

theorem State.demandEvent_keeps {m : Nat} {s0 : State} (s : State) (i : ℕ) (h : s0.Keeps m s) (w : Within 0x4000008 m := by exact Within.of (by assumption) (by decide)) :
    s0.Keeps m (State.demandEvent s i) := by
  unfold State.demandEvent
  split
  · with_reducible apply State.islandDemand_keeps (w := w.of (by decide))
    with_reducible assumption
  · with_reducible assumption

theorem State.islandUp_keeps {m : Nat} {s0 : State} (s : State) (i : ℕ) (h : s0.Keeps m s) (w : Within 0x4000208 m := by exact Within.of (by assumption) (by decide)) :
    s0.Keeps m (State.islandUp s i) := by
  unfold State.islandUp
  split
  · with_reducible assumption
  · extract_lets a0
    have k1 : s0.Keeps m a0 := by
      unfold a0
      with_reducible apply State.setIdle_keeps (w := w.of (by decide))
      with_reducible apply State.wr_keeps (w := w.of (by decide))
      with_reducible assumption
    clear_value a0
    with_reducible apply State.each_keeps
    · intro x2 x3 x4
      with_reducible apply State.setTask_keeps (w := w.of (by decide))
      with_reducible assumption
    · with_reducible assumption

theorem State.countIdle_keeps {m : Nat} {s0 : State} (s : State) (h : s0.Keeps m s) (w : Within 0x4000000 m := by exact Within.of (by assumption) (by decide)) :
    s0.Keeps m (State.countIdle s) := by
  unfold State.countIdle
  with_reducible apply State.each_keeps
  · intro x0 x1 x2
    with_reducible apply State.setIdle_keeps (w := w.of (by decide))
    with_reducible assumption
  · with_reducible assumption

theorem State.idleExpiry_keeps {m : Nat} {s0 : State} (s : State) (i : ℕ) (h : s0.Keeps m s) (w : Within 0x8 m := by exact Within.of (by assumption) (by decide)) :
    s0.Keeps m (State.idleExpiry s i) := by
  unfold State.idleExpiry
  split
  · with_reducible apply State.wr_keeps (w := w.of (by decide))
    with_reducible assumption
  · with_reducible assumption

theorem State.islandDown_keeps {m : Nat} {s0 : State} (s : State) (i : ℕ) (h : s0.Keeps m s) (w : Within 0x4000018 m := by exact Within.of (by assumption) (by decide)) :
    s0.Keeps m (State.islandDown s i) := by
  unfold State.islandDown
  split
  · with_reducible assumption
  · extract_lets a0 a1
    clear_value a0
    have k2 : s0.Keeps m a1 := by
      unfold a1
      with_reducible apply State.wr_keeps (w := w.of (by decide))
      with_reducible apply State.loseIsland_keeps (w := w.of (by decide))
      with_reducible apply State.islandOff_keeps (w := w.of (by decide))
      with_reducible assumption
    clear_value a1
    split
    · with_reducible apply State.wakeIsland_keeps (w := w.of (by decide))
      with_reducible assumption
    · with_reducible assumption

theorem State.forceAwake_keeps {m : Nat} {s0 : State} (s : State) (i : ℕ) (val : Word) (h : s0.Keeps m s) (w : Within 0x4000008 m := by exact Within.of (by assumption) (by decide)) :
    s0.Keeps m (State.forceAwake s i val) := by
  unfold State.forceAwake
  split
  · with_reducible assumption
  · extract_lets a0
    have k1 : s0.Keeps m a0 := by
      unfold a0
      with_reducible apply State.plainWrite_keeps (w := w.of (by decide))
      with_reducible assumption
    clear_value a0
    split
    · with_reducible apply State.islandDemand_keeps (w := w.of (by decide))
      with_reducible assumption
    · with_reducible assumption

theorem State.pwrRegWrite_keeps {m : Nat} {s0 : State} (s : State) (o : ℕ) (val : Word) (h : s0.Keeps m s) (w : Within 0x24100018 m := by exact Within.of (by assumption) (by decide)) :
    s0.Keeps m (State.pwrRegWrite s o val) := by
  unfold State.pwrRegWrite
  split
  · with_reducible apply State.pwrCtrl_keeps (w := w.of (by decide))
    with_reducible assumption
  · split
    · extract_lets a0
      clear_value a0
      split
      · with_reducible apply State.pwrStatus_keeps (w := w.of (by decide))
        with_reducible assumption
      · with_reducible apply State.plainWrite_keeps (w := w.of (by decide))
        with_reducible assumption
    · split
      · with_reducible apply State.forceAwake_keeps (w := w.of (by decide))
        with_reducible assumption
      · with_reducible apply State.plainWrite_keeps (w := w.of (by decide))
        with_reducible assumption

theorem State.clkWrite_keeps {m : Nat} {s0 : State} (s : State) (eclk : Bool) (val : Word) (h : s0.Keeps m s) (w : Within 0x10000008 m := by exact Within.of (by assumption) (by decide)) :
    s0.Keeps m (State.clkWrite s eclk val) := by
  unfold State.clkWrite
  split
  · with_reducible apply State.clkStatus_keeps (w := w.of (by decide))
    with_reducible assumption
  · split
    · with_reducible apply State.clkStatus_keeps (w := w.of (by decide))
      with_reducible assumption
    · extract_lets a0
      have k1 : s0.Keeps m a0 := by
        unfold a0
        with_reducible apply State.wr_keeps (w := w.of (by decide))
        with_reducible apply State.plainWrite_keeps (w := w.of (by decide))
        with_reducible assumption
      clear_value a0
      with_reducible apply State.requestAct_keeps (w := w.of (by decide))
      with_reducible assumption

theorem State.cclkWrite_keeps {m : Nat} {s0 : State} (s : State) (u : ℕ) (val : Word) (h : s0.Keeps m s) (w : Within 0x4000008 m := by exact Within.of (by assumption) (by decide)) :
    s0.Keeps m (State.cclkWrite s u val) := by
  unfold State.cclkWrite
  split
  · with_reducible apply State.clkStatus_keeps (w := w.of (by decide))
    with_reducible assumption
  · with_reducible apply State.setPwr_keeps (w := w.of (by decide))
    with_reducible apply State.wr_keeps (w := w.of (by decide))
    with_reducible apply State.plainWrite_keeps (w := w.of (by decide))
    with_reducible assumption

theorem State.clockSwitch_keeps {m : Nat} {s0 : State} (s : State) (domain : ℕ) (h : s0.Keeps m s) (w : Within 0x14000008 m := by exact Within.of (by assumption) (by decide)) :
    s0.Keeps m (State.clockSwitch s domain) := by
  unfold State.clockSwitch
  split
  · split
    · with_reducible apply State.setPwr_keeps (w := w.of (by decide))
      with_reducible apply State.wr_keeps (w := w.of (by decide))
      with_reducible assumption
    · with_reducible assumption
  · extract_lets a0 a1 a2
    clear_value a0
    clear_value a1
    clear_value a2
    split
    · with_reducible apply State.endAct_keeps (w := w.of (by decide))
      with_reducible apply State.wr_keeps (w := w.of (by decide))
      with_reducible apply State.setPwr_keeps (w := w.of (by decide))
      with_reducible assumption
    · with_reducible assumption

theorem State.clkRegWrite_keeps {m : Nat} {s0 : State} (s : State) (o : ℕ) (val : Word) (h : s0.Keeps m s) (w : Within 0x14000008 m := by exact Within.of (by assumption) (by decide)) :
    s0.Keeps m (State.clkRegWrite s o val) := by
  unfold State.clkRegWrite
  split
  · with_reducible apply State.clkWrite_keeps (w := w.of (by decide))
    with_reducible assumption
  · split
    · with_reducible apply State.clkWrite_keeps (w := w.of (by decide))
      with_reducible assumption
    · split
      · with_reducible apply State.cclkWrite_keeps (w := w.of (by decide))
        with_reducible assumption
      · split
        · with_reducible apply State.cclkWrite_keeps (w := w.of (by decide))
          with_reducible assumption
        · with_reducible apply State.plainWrite_keeps (w := w.of (by decide))
          with_reducible assumption

theorem State.startWarm_keeps {m : Nat} {s0 : State} (s : State) (ticks : ℕ) (h : s0.Keeps m s) (w : Within 0x3fffffff m := by exact Within.of (by assumption) (by decide)) :
    s0.Keeps m (State.startWarm s ticks) := by
  unfold State.startWarm
  split
  · with_reducible apply State.warmNow_keeps (w := w.of (by decide))
    with_reducible assumption
  · with_reducible apply State.takeAbort_keeps (w := w.of (by decide))
    with_reducible apply State.setPwr_keeps (w := w.of (by decide))
    with_reducible assumption

theorem State.warmCmd_keeps {m : Nat} {s0 : State} (s : State) (force : Bool) (ticks : ℕ) (h : s0.Keeps m s) (w : Within 0x3fffffff m := by exact Within.of (by assumption) (by decide)) :
    s0.Keeps m (State.warmCmd s force ticks) := by
  unfold State.warmCmd
  split
  · with_reducible apply State.wr_keeps (w := w.of (by decide))
    with_reducible assumption
  · split
    · with_reducible apply State.setPwr_keeps (w := w.of (by decide))
      with_reducible assumption
    · with_reducible apply State.startWarm_keeps (w := w.of (by decide))
      with_reducible assumption

theorem State.kprCtrl_keeps {m : Nat} {s0 : State} (s : State) (val : Word) (ticks : ℕ) (h : s0.Keeps m s) (w : Within 0x3fffffff m := by exact Within.of (by assumption) (by decide)) :
    s0.Keeps m (State.kprCtrl s val ticks) := by
  unfold State.kprCtrl
  extract_lets a0
  have k1 : s0.Keeps m a0 := by
    unfold a0
    split
    · with_reducible apply State.restartCmd_keeps (w := w.of (by decide))
      with_reducible assumption
    · with_reducible assumption
  clear_value a0
  split
  · with_reducible apply State.warmCmd_keeps (w := w.of (by decide))
    with_reducible assumption
  · with_reducible assumption

theorem State.kprRegWrite_keeps {m : Nat} {s0 : State} (s : State) (o : ℕ) (val : Word) (h : s0.Keeps m s) (w : Within 0x3fffffff m := by exact Within.of (by assumption) (by decide)) :
    s0.Keeps m (State.kprRegWrite s o val) := by
  unfold State.kprRegWrite
  split
  · with_reducible apply State.kprCtrl_keeps (w := w.of (by decide))
    with_reducible apply State.takeFree_keeps (w := w.of (by decide))
    with_reducible assumption
  · split
    · with_reducible apply State.hostGo_keeps (w := w.of (by decide))
      with_reducible assumption
    · with_reducible apply State.plainWrite_keeps (w := w.of (by decide))
      with_reducible assumption

theorem execOverTemp_keeps {m : Nat} {s0 : State} (_die : Fin 4) (temp : ℤ) (s : State) (h : s0.Keeps m s) {t : State} (e : execOverTemp _die temp s = .next t) (w : Within 0x3fffffff m := by exact Within.of (by assumption) (by decide)) :
    s0.Keeps m t := by
  unfold execOverTemp at e
  injection e with e
  subst e
  with_reducible apply State.overTemp_keeps (w := w.of (by decide))
  with_reducible assumption

theorem execTempWarn_keeps {m : Nat} {s0 : State} (die : Fin 4) (s : State) (h : s0.Keeps m s) {t : State} (e : execTempWarn die s = .next t) (w : Within 0x4000008 m := by exact Within.of (by assumption) (by decide)) :
    s0.Keeps m t := by
  unfold execTempWarn at e
  injection e with e
  subst e
  with_reducible apply State.tempWarn_keeps (w := w.of (by decide))
  with_reducible assumption

theorem execLowInput_keeps {m : Nat} {s0 : State} (s : State) (h : s0.Keeps m s) {t : State} (e : execLowInput s = .next t) (w : Within 0x8 m := by exact Within.of (by assumption) (by decide)) :
    s0.Keeps m t := by
  unfold execLowInput at e
  injection e with e
  subst e
  with_reducible apply State.lowInput_keeps (w := w.of (by decide))
  with_reducible assumption

theorem execLowin1s_keeps {m : Nat} {s0 : State} (s : State) (h : s0.Keeps m s) {t : State} (e : execLowin1s s = .next t) (w : Within 0x8 m := by exact Within.of (by assumption) (by decide)) :
    s0.Keeps m t := by
  unfold execLowin1s at e
  injection e with e
  subst e
  split
  · with_reducible apply State.wr_keeps (w := w.of (by decide))
    with_reducible assumption
  · with_reducible assumption

theorem execTelemetrySample_keeps {m : Nat} {s0 : State} (mv : BitVec 16) (ma : BitVec 16) (temps : Option (List ℤ)) (s : State) (h : s0.Keeps m s) {t : State} (e : execTelemetrySample mv ma temps s = .next t) (w : Within 0x4000008 m := by exact Within.of (by assumption) (by decide)) :
    s0.Keeps m t := by
  unfold execTelemetrySample at e
  injection e with e
  subst e
  with_reducible apply State.telemetry_keeps (w := w.of (by decide))
  with_reducible assumption

theorem execSleep_keeps {m : Nat} {s0 : State} (src : Agent) (val : Word) (s : State) (h : s0.Keeps m s) {t : State} (e : execSleep src val s = .next t) (w : Within 0x24108018 m := by exact Within.of (by assumption) (by decide)) :
    s0.Keeps m t := by
  unfold execSleep at e
  injection e with e
  subst e
  with_reducible apply State.writeReg_keeps (w := w.of (by decide))
  · with_reducible assumption
  · intro x0 x1
    with_reducible apply State.pwrCtrl_keeps (w := w.of (by decide))
    with_reducible assumption

theorem execDuskStepEnd_keeps {m : Nat} {s0 : State} (s : State) (h : s0.Keeps m s) {t : State} (e : execDuskStepEnd s = .next t) (w : Within 0x3fffffff m := by exact Within.of (by assumption) (by decide)) :
    s0.Keeps m t := by
  unfold execDuskStepEnd at e
  injection e with e
  subst e
  with_reducible apply State.duskStep_keeps (w := w.of (by decide))
  with_reducible assumption

theorem execWakeSource_keeps {m : Nat} {s0 : State} (tick : WakeTick) (s : State) (h : s0.Keeps m s) {t : State} (e : execWakeSource tick s = .next t) (w : Within 0xc01d018 m := by exact Within.of (by assumption) (by decide)) :
    s0.Keeps m t := by
  unfold execWakeSource at e
  injection e with e
  subst e
  with_reducible apply State.wake_keeps (w := w.of (by decide))
  with_reducible assumption

theorem execIslandDemand_keeps {m : Nat} {s0 : State} (island : Fin 32) (s : State) (h : s0.Keeps m s) {t : State} (e : execIslandDemand island s = .next t) (w : Within 0x4000008 m := by exact Within.of (by assumption) (by decide)) :
    s0.Keeps m t := by
  unfold execIslandDemand at e
  injection e with e
  subst e
  with_reducible apply State.demandEvent_keeps (w := w.of (by decide))
  with_reducible assumption

theorem execIslandAwake_keeps {m : Nat} {s0 : State} (island : Fin 32) (s : State) (h : s0.Keeps m s) {t : State} (e : execIslandAwake island s = .next t) (w : Within 0x4000208 m := by exact Within.of (by assumption) (by decide)) :
    s0.Keeps m t := by
  unfold execIslandAwake at e
  injection e with e
  subst e
  with_reducible apply State.islandUp_keeps (w := w.of (by decide))
  with_reducible assumption

theorem execIdleCountExpiry_keeps {m : Nat} {s0 : State} (island : Fin 32) (s : State) (h : s0.Keeps m s) {t : State} (e : execIdleCountExpiry island s = .next t) (w : Within 0x8 m := by exact Within.of (by assumption) (by decide)) :
    s0.Keeps m t := by
  unfold execIdleCountExpiry at e
  injection e with e
  subst e
  with_reducible apply State.idleExpiry_keeps (w := w.of (by decide))
  with_reducible assumption

theorem execIslandAsleep_keeps {m : Nat} {s0 : State} (island : Fin 32) (s : State) (h : s0.Keeps m s) {t : State} (e : execIslandAsleep island s = .next t) (w : Within 0x4000018 m := by exact Within.of (by assumption) (by decide)) :
    s0.Keeps m t := by
  unfold execIslandAsleep at e
  injection e with e
  subst e
  with_reducible apply State.islandDown_keeps (w := w.of (by decide))
  with_reducible assumption

theorem execForceAwake_keeps {m : Nat} {s0 : State} (src : Agent) (island : Fin 32) (val : Word) (s : State) (h : s0.Keeps m s) {t : State} (e : execForceAwake src island val s = .next t) (w : Within 0x4008008 m := by exact Within.of (by assumption) (by decide)) :
    s0.Keeps m t := by
  unfold execForceAwake at e
  injection e with e
  subst e
  with_reducible apply State.writeReg_keeps (w := w.of (by decide))
  · with_reducible assumption
  · intro x0 x1
    with_reducible apply State.forceAwake_keeps (w := w.of (by decide))
    with_reducible assumption

theorem execClkFclkWrite_keeps {m : Nat} {s0 : State} (src : Agent) (eclk : Bool) (val : Word) (s : State) (h : s0.Keeps m s) {t : State} (e : execClkFclkWrite src eclk val s = .next t) (w : Within 0x10008008 m := by exact Within.of (by assumption) (by decide)) :
    s0.Keeps m t := by
  unfold execClkFclkWrite at e
  injection e with e
  subst e
  with_reducible apply State.writeReg_keeps (w := w.of (by decide))
  · with_reducible assumption
  · intro x0 x1
    with_reducible apply State.clkWrite_keeps (w := w.of (by decide))
    with_reducible assumption

theorem execClockSwitch_keeps {m : Nat} {s0 : State} (domain : Fin 3) (s : State) (h : s0.Keeps m s) {t : State} (e : execClockSwitch domain s = .next t) (w : Within 0x14000008 m := by exact Within.of (by assumption) (by decide)) :
    s0.Keeps m t := by
  unfold execClockSwitch at e
  injection e with e
  subst e
  with_reducible apply State.clockSwitch_keeps (w := w.of (by decide))
  with_reducible assumption

theorem execClkCclkWrite_keeps {m : Nat} {s0 : State} (src : Agent) (unit : Fin 2) (val : Word) (s : State) (h : s0.Keeps m s) {t : State} (e : execClkCclkWrite src unit val s = .next t) (w : Within 0x4008008 m := by exact Within.of (by assumption) (by decide)) :
    s0.Keeps m t := by
  unfold execClkCclkWrite at e
  injection e with e
  subst e
  with_reducible apply State.writeReg_keeps (w := w.of (by decide))
  · with_reducible assumption
  · intro x0 x1
    with_reducible apply State.cclkWrite_keeps (w := w.of (by decide))
    with_reducible assumption

theorem execWarmReset_keeps {m : Nat} {s0 : State} (src : Agent) (val : Word) (ticks : ℕ) (s : State) (h : s0.Keeps m s) {t : State} (e : execWarmReset src val ticks s = .next t) (w : Within 0x3fffffff m := by exact Within.of (by assumption) (by decide)) :
    s0.Keeps m t := by
  unfold execWarmReset at e
  injection e with e
  subst e
  with_reducible apply State.writeReg_keeps (w := w.of (by decide))
  · with_reducible assumption
  · intro x0 x1
    with_reducible apply State.kprCtrl_keeps (w := w.of (by decide))
    with_reducible assumption

end Sys2Proof.Machine
end

