-- ==== Sys2Proof/Laws/KeepsUpdate.lean ====
section
/-! SUPPORT. The operations of Machine/Update.lean keep the queue and the invariant (`State.Keeps`). -/

namespace Sys2Proof.Machine

set_option Elab.async false
set_option linter.unusedVariables false

theorem State.updState_keeps {m : Nat} {s0 : State} (s : State) (n : ℕ) (h : s0.Keeps m s) (w : Within 0x8 m := by exact Within.of (by assumption) (by decide)) :
    s0.Keeps m (State.updState s n) := by
  unfold State.updState
  with_reducible apply State.wr_keeps (w := w.of (by decide))
  with_reducible assumption

theorem State.updRefused_keeps {m : Nat} {s0 : State} (s : State) (h : s0.Keeps m s) (w : Within 0x8 m := by exact Within.of (by assumption) (by decide)) :
    s0.Keeps m (State.updRefused s) := by
  unfold State.updRefused
  with_reducible apply State.updReport_keeps (w := w.of (by decide))
  with_reducible apply State.setReg_keeps (w := w.of (by decide))
  with_reducible assumption

theorem State.updFail_keeps {m : Nat} {s0 : State} (s : State) (code : ℕ) (part : ℕ) (block : ℕ) (h : s0.Keeps m s) (w : Within 0x20000008 m := by exact Within.of (by assumption) (by decide)) :
    s0.Keeps m (State.updFail s code part block) := by
  unfold State.updFail
  extract_lets a0
  have k1 : s0.Keeps m a0 := by
    unfold a0
    with_reducible apply State.wr_keeps (w := w.of (by decide))
    with_reducible apply State.wr_keeps (w := w.of (by decide))
    with_reducible assumption
  clear_value a0
  with_reducible apply State.updReport_keeps (w := w.of (by decide))
  with_reducible apply State.updState_keeps (w := w.of (by decide))
  with_reducible apply State.setUpd_keeps (w := w.of (by decide))
  with_reducible assumption

theorem State.stage_keeps {m : Nat} {s0 : State} (s : State) (h : s0.Keeps m s) (w : Within 0x20000008 m := by exact Within.of (by assumption) (by decide)) :
    s0.Keeps m (State.stage s) := by
  unfold State.stage
  extract_lets a0 a1
  clear_value a0
  have k2 : s0.Keeps m a1 := by
    unfold a1
    with_reducible apply State.wr_keeps (w := w.of (by decide))
    with_reducible apply State.setUpd_keeps (w := w.of (by decide))
    with_reducible assumption
  clear_value a1
  split
  · with_reducible apply State.updReport_keeps (w := w.of (by decide))
    with_reducible assumption
  · split
    · with_reducible apply State.updReport_keeps (w := w.of (by decide))
      with_reducible assumption
    · split
      · with_reducible apply State.updRefused_keeps (w := w.of (by decide))
        with_reducible assumption
      · with_reducible apply State.updState_keeps (w := w.of (by decide))
        with_reducible apply State.wr_keeps (w := w.of (by decide))
        with_reducible assumption

theorem State.flashProgram_keeps {m : Nat} {s0 : State} (s : State) (off : ℕ) (size : ℕ) (b : List Byte) (h : s0.Keeps m s) (w : Within 0x8000000 m := by exact Within.of (by assumption) (by decide)) :
    s0.Keeps m (State.flashProgram s off size b) := by
  unfold State.flashProgram
  with_reducible apply State.setBoot_keeps (w := w.of (by decide))
  with_reducible assumption

theorem State.buildPart_keeps_inl {m : Nat} {s0 s t : State} {d pkg : List Byte} {p : Nat} {x : UpdPart} {err : Option (Nat × Nat)} (h : s0.Keeps m s) (e : s.buildPart d pkg p x err = .inl t) (w : Within 0x28000008 m := by exact Within.of (by assumption) (by decide)) :
    s0.Keeps m t := by
  unfold State.buildPart at e
  split at e
  · cases e
    exact State.updFail_keeps _ _ _ _ h
  · split at e
    · split at e
      · cases e
        exact State.updFail_keeps _ _ _ _ (State.flashProgram_keeps _ _ _ _ h)
      · cases e
    · cases e

theorem State.buildPart_keeps_inr {m : Nat} {s0 s t : State} {d pkg o : List Byte} {p : Nat} {x : UpdPart} {err : Option (Nat × Nat)} (h : s0.Keeps m s) (e : s.buildPart d pkg p x err = .inr (o, t)) (w : Within 0x28000008 m := by exact Within.of (by assumption) (by decide)) :
    s0.Keeps m t := by
  unfold State.buildPart at e
  split at e
  · cases e
  · split at e
    · split at e
      · cases e
      · cases e
        exact State.wr_keeps _ _ _ (State.flashProgram_keeps _ _ _ _ h)
    · cases e
      exact State.wr_keeps _ _ _ (State.flashProgram_keeps _ _ _ _ h)

theorem State.buildParts_keeps {m : Nat} {s0 s : State} {d pkg : List Byte} {err : Option (Nat × Nat)} {p : Nat} {l : List UpdPart} (h : s0.Keeps m s) (w : Within 0x28000008 m := by exact Within.of (by assumption) (by decide)) :
    (∀ t, s.buildParts d pkg err p l = .inl t → s0.Keeps m t) ∧ ∀ o t, s.buildParts d pkg err p l = .inr (o, t) → s0.Keeps m t := by
  induction l generalizing s p with
  | nil =>
    refine ⟨fun t e => (by cases e), fun o t e => ?_⟩
    cases e; exact h
  | cons x tl ih =>
    cases e1 : s.buildPart d pkg p x err with
    | inl f =>
      refine ⟨fun t e => ?_, fun o t e => ?_⟩
      · simp only [State.buildParts, e1] at e
        cases e
        exact State.buildPart_keeps_inl h e1
      · simp only [State.buildParts, e1] at e
        cases e
    | inr q =>
      obtain ⟨out, s1⟩ := q
      have k1 := State.buildPart_keeps_inr h e1
      have ih' := ih (p := p + 1) k1
      cases e2 : s1.buildParts d pkg err (p + 1) tl with
      | inl f =>
        refine ⟨fun t e => ?_, fun o t e => ?_⟩
        · simp only [State.buildParts, e1, e2] at e
          cases e
          exact ih'.1 _ e2
        · simp only [State.buildParts, e1, e2] at e
          cases e
      | inr q =>
        obtain ⟨outs, s2⟩ := q
        refine ⟨fun t e => ?_, fun o t e => ?_⟩
        · simp only [State.buildParts, e1, e2] at e
          cases e
        · simp only [State.buildParts, e1, e2] at e
          cases e
          exact ih'.2 _ _ e2

theorem State.stageParts_keeps {m : Nat} {s0 : State} (s : State) (d pkg : List Byte) (err : Option (Nat × Nat)) (h : s0.Keeps m s) (w : Within 0x28000008 m := by exact Within.of (by assumption) (by decide)) :
    s0.Keeps m (s.stageParts d pkg err) := by
  unfold State.stageParts
  extract_lets ps ix active
  clear_value active ix
  split
  · exact State.updFail_keeps _ _ _ _ h
  · split
    · exact State.updFail_keeps _ _ _ _ h
    · have kb := State.buildParts_keeps (d := d) (pkg := pkg) (err := err) (p := 0) (l := ps) h
      split
      · rename_i e
        exact kb.1 _ e
      · rename_i e
        have k1 := kb.2 _ _ e
        split
        · exact State.updFail_keeps _ _ _ _ k1
        · exact State.updState_keeps _ _ (State.wr_keeps _ _ _ (State.setUpd_keeps _ k1))

theorem State.stagingDone_keeps {m : Nat} {s0 : State} (s : State) (err : Option (ℕ × ℕ)) (h : s0.Keeps m s) (w : Within 0x28000008 m := by exact Within.of (by assumption) (by decide)) :
    s0.Keeps m (State.stagingDone s err) := by
  unfold State.stagingDone
  split
  · with_reducible assumption
  · extract_lets a0 a1 a2 a3
    clear_value a0
    clear_value a1
    clear_value a2
    have k4 : s0.Keeps m a3 := by
      unfold a3
      with_reducible apply State.wr_keeps (w := w.of (by decide))
      with_reducible assumption
    clear_value a3
    split
    · with_reducible apply State.updFail_keeps (w := w.of (by decide))
      with_reducible assumption
    · split
      · with_reducible apply State.updFail_keeps (w := w.of (by decide))
        with_reducible assumption
      · split
        · with_reducible apply State.updFail_keeps (w := w.of (by decide))
          with_reducible assumption
        · split
          · with_reducible apply State.updFail_keeps (w := w.of (by decide))
            with_reducible assumption
          · with_reducible apply State.stageParts_keeps (w := w.of (by decide))
            with_reducible assumption

theorem State.activate_keeps {m : Nat} {s0 : State} (s : State) (nextBoot : Bool) (h : s0.Keeps m s) (w : Within 0x20000008 m := by exact Within.of (by assumption) (by decide)) :
    s0.Keeps m (State.activate s nextBoot) := by
  unfold State.activate
  split
  · with_reducible apply State.updReport_keeps (w := w.of (by decide))
    with_reducible assumption
  · split
    · with_reducible apply State.updReport_keeps (w := w.of (by decide))
      with_reducible assumption
    · split
      · with_reducible apply State.updReport_keeps (w := w.of (by decide))
        with_reducible assumption
      · split
        · with_reducible apply State.updRefused_keeps (w := w.of (by decide))
          with_reducible assumption
        · with_reducible apply State.updState_keeps (w := w.of (by decide))
          with_reducible apply State.setUpd_keeps (w := w.of (by decide))
          with_reducible assumption

theorem State.afterActivation_keeps {m : Nat} {s0 : State} (s : State) (h : s0.Keeps m s) (w : Within 0x3fffffff m := by exact Within.of (by assumption) (by decide)) :
    s0.Keeps m (State.afterActivation s) := by
  unfold State.afterActivation
  split
  · with_reducible assumption
  · extract_lets a0 a1
    clear_value a0
    have k2 : s0.Keeps m a1 := by
      unfold a1
      with_reducible apply State.setPwr_keeps (w := w.of (by decide))
      with_reducible assumption
    clear_value a1
    split
    · with_reducible apply State.startDusk_keeps (w := w.of (by decide))
      with_reducible assumption
    · with_reducible apply State.startDusk_keeps (w := w.of (by decide))
      with_reducible assumption
    · with_reducible apply State.startWarm_keeps (w := w.of (by decide))
      with_reducible assumption

theorem State.handRestart_keeps {m : Nat} {s0 : State} (s : State) (step : ℕ) (u : ℕ) (h : s0.Keeps m s) (w : Within 0x28008008 m := by exact Within.of (by assumption) (by decide)) :
    s0.Keeps m (State.handRestart s step u) := by
  unfold State.handRestart
  with_reducible apply State.restartUnit_keeps (w := w.of (by decide))
  with_reducible apply State.setUpd_keeps (w := w.of (by decide))
  with_reducible assumption

theorem State.handFrom_keeps {m : Nat} {s0 : State} (s : State) (k : ℕ) (h : s0.Keeps m s) (w : Within 0x28008008 m := by exact Within.of (by assumption) (by decide)) :
    s0.Keeps m (State.handFrom s k) := by
  unfold State.handFrom
  split
  · with_reducible apply State.setUpd_keeps (w := w.of (by decide))
    with_reducible assumption
  · split
    · with_reducible apply State.setUpd_keeps (w := w.of (by decide))
      with_reducible assumption
    · split
      · with_reducible apply State.handRestart_keeps (w := w.of (by decide))
        with_reducible assumption
      · with_reducible apply State.updEnd_keeps (w := w.of (by decide))
        with_reducible assumption

theorem State.handLib_keeps {m : Nat} {s0 : State} (s : State) (h : s0.Keeps m s) (w : Within 0x5018 m := by exact Within.of (by assumption) (by decide)) :
    s0.Keeps m (State.handLib s) := by
  unfold State.handLib
  split
  · with_reducible assumption
  · extract_lets a0
    clear_value a0
    with_reducible apply State.wr_keeps (w := w.of (by decide))
    with_reducible apply State.physWrite_keeps (w := w.of (by decide))
    with_reducible assumption

theorem State.handKeeper_keeps {m : Nat} {s0 : State} (s : State) (h : s0.Keeps m s) (w : Within 0x8000008 m := by exact Within.of (by assumption) (by decide)) :
    s0.Keeps m (State.handKeeper s) := by
  unfold State.handKeeper
  with_reducible apply State.reloadKeeper_keeps (w := w.of (by decide))
  with_reducible assumption

theorem State.handStep_keeps {m : Nat} {s0 : State} (s : State) (h : s0.Keeps m s) (w : Within 0x2800d018 m := by exact Within.of (by assumption) (by decide)) :
    s0.Keeps m (State.handStep s) := by
  unfold State.handStep
  split
  · with_reducible assumption
  · split
    · with_reducible apply State.handFrom_keeps (w := w.of (by decide))
      with_reducible apply State.handLib_keeps (w := w.of (by decide))
      with_reducible assumption
    · with_reducible apply State.handFrom_keeps (w := w.of (by decide))
      with_reducible apply State.handKeeper_keeps (w := w.of (by decide))
      with_reducible assumption
    · split
      · with_reducible apply State.setUpd_keeps (w := w.of (by decide))
        with_reducible assumption
      · with_reducible assumption
    · extract_lets a0
      clear_value a0
      split
      · with_reducible assumption
      · split
        · with_reducible apply State.handRestart_keeps (w := w.of (by decide))
          with_reducible assumption
        · split
          · with_reducible assumption
          · with_reducible apply State.startGap_keeps (w := w.of (by decide))
            with_reducible assumption
    · split
      · with_reducible apply State.updEnd_keeps (w := w.of (by decide))
        with_reducible assumption
      · with_reducible assumption
    · with_reducible assumption

theorem State.handTimeout_keeps {m : Nat} {s0 : State} (s : State) (h : s0.Keeps m s) (w : Within 0x20000008 m := by exact Within.of (by assumption) (by decide)) :
    s0.Keeps m (State.handTimeout s) := by
  unfold State.handTimeout
  split
  · with_reducible apply State.updReport_keeps (w := w.of (by decide))
    with_reducible apply State.updEnd_keeps (w := w.of (by decide))
    with_reducible assumption
  · with_reducible assumption

theorem State.activated_keeps {m : Nat} {s0 : State} (s : State) (off : ℕ) (d : List Byte) (h : s0.Keeps m s) (w : Within 0x3fffffff m := by exact Within.of (by assumption) (by decide)) :
    s0.Keeps m (State.activated s off d) := by
  unfold State.activated
  extract_lets a0 a1 a2 a3 a4 a5
  clear_value a0
  have k6 : s0.Keeps m a1 := by
    unfold a1
    with_reducible apply State.flashProgram_keeps (w := w.of (by decide))
    with_reducible assumption
  clear_value a1
  have k7 : s0.Keeps m a2 := by
    unfold a2
    with_reducible apply State.wr_keeps (w := w.of (by decide))
    with_reducible apply State.wr_keeps (w := w.of (by decide))
    with_reducible assumption
  clear_value a2
  clear_value a3
  have k8 : s0.Keeps m a4 := by
    unfold a4
    split
    · with_reducible apply State.setBoot_keeps (w := w.of (by decide))
      with_reducible assumption
    · with_reducible assumption
  clear_value a4
  clear_value a5
  split
  · with_reducible apply State.afterActivation_keeps (w := w.of (by decide))
    with_reducible apply State.updEnd_keeps (w := w.of (by decide))
    with_reducible assumption
  · with_reducible apply State.handFrom_keeps (w := w.of (by decide))
    with_reducible apply State.updState_keeps (w := w.of (by decide))
    with_reducible apply State.setUpd_keeps (w := w.of (by decide))
    with_reducible assumption

theorem State.activationOn_keeps {m : Nat} {s0 : State} (s : State) (good : Bool) (x2 : Option (ℕ × List Byte)) (h : s0.Keeps m s) (w : Within 0x3fffffff m := by exact Within.of (by assumption) (by decide)) :
    s0.Keeps m (State.activationOn s good x2) := by
  unfold State.activationOn
  split
  · with_reducible apply State.afterActivation_keeps (w := w.of (by decide))
    with_reducible apply State.updFail_keeps (w := w.of (by decide))
    with_reducible assumption
  · split
    · with_reducible apply State.activated_keeps (w := w.of (by decide))
      with_reducible assumption
    · with_reducible apply State.afterActivation_keeps (w := w.of (by decide))
      with_reducible apply State.updFail_keeps (w := w.of (by decide))
      with_reducible assumption

theorem State.activationEnd_keeps {m : Nat} {s0 : State} (s : State) (readBackOk : Bool) (h : s0.Keeps m s) (w : Within 0x3fffffff m := by exact Within.of (by assumption) (by decide)) :
    s0.Keeps m (State.activationEnd s readBackOk) := by
  unfold State.activationEnd
  extract_lets a0
  clear_value a0
  with_reducible apply State.activationOn_keeps (w := w.of (by decide))
  with_reducible assumption

theorem State.activationPoint_keeps {m : Nat} {s0 : State} (s : State) (readBackOk : Bool) (h : s0.Keeps m s) (w : Within 0x3fffffff m := by exact Within.of (by assumption) (by decide)) :
    s0.Keeps m (State.activationPoint s readBackOk) := by
  unfold State.activationPoint
  split
  · with_reducible assumption
  · split
    · with_reducible apply State.activationEnd_keeps (w := w.of (by decide))
      with_reducible assumption
    · split
      · with_reducible assumption
      · split
        · with_reducible apply State.updRefused_keeps (w := w.of (by decide))
          with_reducible apply State.updState_keeps (w := w.of (by decide))
          with_reducible assumption
        · with_reducible apply State.activationEnd_keeps (w := w.of (by decide))
          with_reducible assumption

theorem State.updCancel_keeps {m : Nat} {s0 : State} (s : State) (h : s0.Keeps m s) (w : Within 0x20000008 m := by exact Within.of (by assumption) (by decide)) :
    s0.Keeps m (State.updCancel s) := by
  unfold State.updCancel
  split
  · with_reducible apply State.updDrop_keeps (w := w.of (by decide))
    with_reducible assumption
  · with_reducible apply State.updDrop_keeps (w := w.of (by decide))
    with_reducible assumption
  · with_reducible apply State.updReport_keeps (w := w.of (by decide))
    with_reducible assumption
  · with_reducible apply State.updReport_keeps (w := w.of (by decide))
    with_reducible assumption
  · with_reducible assumption

theorem State.updCmd_keeps {m : Nat} {s0 : State} (s : State) (val : Word) (h : s0.Keeps m s) (w : Within 0x20000008 m := by exact Within.of (by assumption) (by decide)) :
    s0.Keeps m (State.updCmd s val) := by
  unfold State.updCmd
  extract_lets a0 a1
  have k2 : s0.Keeps m a0 := by
    unfold a0
    split
    · with_reducible apply State.stage_keeps (w := w.of (by decide))
      with_reducible assumption
    · with_reducible assumption
  clear_value a0
  have k3 : s0.Keeps m a1 := by
    unfold a1
    split
    · with_reducible apply State.activate_keeps (w := w.of (by decide))
      with_reducible assumption
    · with_reducible assumption
  clear_value a1
  split
  · with_reducible apply State.updCancel_keeps (w := w.of (by decide))
    with_reducible assumption
  · with_reducible assumption

theorem State.updRegWrite_keeps {m : Nat} {s0 : State} (s : State) (o : ℕ) (val : Word) (h : s0.Keeps m s) (w : Within 0x20000008 m := by exact Within.of (by assumption) (by decide)) :
    s0.Keeps m (State.updRegWrite s o val) := by
  unfold State.updRegWrite
  split
  · with_reducible apply State.updCmd_keeps (w := w.of (by decide))
    with_reducible assumption
  · split
    · with_reducible assumption
    · with_reducible apply State.plainWrite_keeps (w := w.of (by decide))
      with_reducible assumption

theorem execStage_keeps {m : Nat} {s0 : State} (src : Agent) (val : Word) (s : State) (h : s0.Keeps m s) {t : State} (e : execStage src val s = .next t) (w : Within 0x20008008 m := by exact Within.of (by assumption) (by decide)) :
    s0.Keeps m t := by
  unfold execStage at e
  injection e with e
  subst e
  with_reducible apply State.writeReg_keeps (w := w.of (by decide))
  · with_reducible assumption
  · intro x0 x1
    with_reducible apply State.updCmd_keeps (w := w.of (by decide))
    with_reducible assumption

theorem execStagingDone_keeps {m : Nat} {s0 : State} (flashError : Option (ℕ × ℕ)) (s : State) (h : s0.Keeps m s) {t : State} (e : execStagingDone flashError s = .next t) (w : Within 0x28000008 m := by exact Within.of (by assumption) (by decide)) :
    s0.Keeps m t := by
  unfold execStagingDone at e
  injection e with e
  subst e
  with_reducible apply State.stagingDone_keeps (w := w.of (by decide))
  with_reducible assumption

theorem execActivate_keeps {m : Nat} {s0 : State} (src : Agent) (val : Word) (s : State) (h : s0.Keeps m s) {t : State} (e : execActivate src val s = .next t) (w : Within 0x20008008 m := by exact Within.of (by assumption) (by decide)) :
    s0.Keeps m t := by
  unfold execActivate at e
  injection e with e
  subst e
  with_reducible apply State.writeReg_keeps (w := w.of (by decide))
  · with_reducible assumption
  · intro x0 x1
    with_reducible apply State.updCmd_keeps (w := w.of (by decide))
    with_reducible assumption

theorem execActivationPoint_keeps {m : Nat} {s0 : State} (readBackOk : Bool) (s : State) (h : s0.Keeps m s) {t : State} (e : execActivationPoint readBackOk s = .next t) (w : Within 0x3fffffff m := by exact Within.of (by assumption) (by decide)) :
    s0.Keeps m t := by
  unfold execActivationPoint at e
  injection e with e
  subst e
  with_reducible apply State.activationPoint_keeps (w := w.of (by decide))
  with_reducible assumption

theorem execHandoverStep_keeps {m : Nat} {s0 : State} (s : State) (h : s0.Keeps m s) {t : State} (e : execHandoverStep s = .next t) (w : Within 0x2800d018 m := by exact Within.of (by assumption) (by decide)) :
    s0.Keeps m t := by
  unfold execHandoverStep at e
  injection e with e
  subst e
  with_reducible apply State.handStep_keeps (w := w.of (by decide))
  with_reducible assumption

theorem execHandoverTimeout_keeps {m : Nat} {s0 : State} (s : State) (h : s0.Keeps m s) {t : State} (e : execHandoverTimeout s = .next t) (w : Within 0x20000008 m := by exact Within.of (by assumption) (by decide)) :
    s0.Keeps m t := by
  unfold execHandoverTimeout at e
  injection e with e
  subst e
  with_reducible apply State.handTimeout_keeps (w := w.of (by decide))
  with_reducible assumption

theorem execUpdCancel_keeps {m : Nat} {s0 : State} (src : Agent) (val : Word) (s : State) (h : s0.Keeps m s) {t : State} (e : execUpdCancel src val s = .next t) (w : Within 0x20008008 m := by exact Within.of (by assumption) (by decide)) :
    s0.Keeps m t := by
  unfold execUpdCancel at e
  injection e with e
  subst e
  with_reducible apply State.writeReg_keeps (w := w.of (by decide))
  · with_reducible assumption
  · intro x0 x1
    with_reducible apply State.updCmd_keeps (w := w.of (by decide))
    with_reducible assumption

end Sys2Proof.Machine
end

