-- ==== Sys2Proof/Laws/KeepsFaults.lean ====
section
/-! SUPPORT. The operations of Machine/Faults.lean keep the queue and the invariant (`State.Keeps`). -/

namespace Sys2Proof.Machine

set_option Elab.async false
set_option linter.unusedVariables false

theorem State.unhold_keeps {m : Nat} {s0 : State} (s : State) (hx : Held) (h : s0.Keeps m s) (w : Within 0x408 m := by exact Within.of (by assumption) (by decide)) :
    s0.Keeps m (State.unhold s hx) := by
  unfold State.unhold
  extract_lets a0 a1
  clear_value a0
  have k2 : s0.Keeps m a1 := by
    unfold a1
    with_reducible apply State.setXlt_keeps (w := w.of (by decide))
    with_reducible assumption
  clear_value a1
  split
  · with_reducible apply State.wr_keeps (w := w.of (by decide))
    with_reducible assumption
  · with_reducible assumption

theorem State.markResolved_keeps {m : Nat} {s0 : State} (s : State) (x1 : FaultAt) (h : s0.Keeps m s) (w : Within 0x608 m := by exact Within.of (by assumption) (by decide)) :
    s0.Keeps m (State.markResolved s x1) := by
  unfold State.markResolved
  split
  · with_reducible apply State.unhold_keeps (w := w.of (by decide))
    with_reducible assumption
  · split
    · with_reducible apply State.setCtx_keeps (w := w.of (by decide))
      with_reducible assumption
    · extract_lets a0
      have k1 : s0.Keeps m a0 := by
        unfold a0
        with_reducible apply State.setCtx_keeps (w := w.of (by decide))
        with_reducible assumption
      clear_value a0
      split
      · with_reducible assumption
      · split
        · with_reducible apply State.setTask_keeps (w := w.of (by decide))
          with_reducible assumption
        · with_reducible assumption

theorem State.resumeUnit_keeps {m : Nat} {s0 : State} (s : State) (x1 : FaultAt) (h : s0.Keeps m s) (w : Within 0x2e08 m := by exact Within.of (by assumption) (by decide)) :
    s0.Keeps m (State.resumeUnit s x1) := by
  unfold State.resumeUnit
  split
  · with_reducible assumption
  · split
    · with_reducible apply State.resumeEngine_keeps (w := w.of (by decide))
      with_reducible assumption
    · split
      · with_reducible apply State.resumeMover_keeps (w := w.of (by decide))
        with_reducible assumption
      · with_reducible assumption

theorem State.retryFault_keeps {m : Nat} {s0 : State} (s : State) (f : FaultAt) (h : s0.Keeps m s) (w : Within 0x2e08 m := by exact Within.of (by assumption) (by decide)) :
    s0.Keeps m (State.retryFault s f) := by
  unfold State.retryFault
  with_reducible apply State.resumeUnit_keeps (w := w.of (by decide))
  with_reducible apply State.markResolved_keeps (w := w.of (by decide))
  with_reducible assumption

theorem State.abortWork_keeps {m : Nat} {s0 : State} (s : State) (rclass : ℕ) (requester : ℕ) (node : ℕ) (task : ℕ) (h : s0.Keeps m s) (w : Within 0x4207f18 m := by exact Within.of (by assumption) (by decide)) :
    s0.Keeps m (State.abortWork s rclass requester node task) := by
  unfold State.abortWork
  split
  · with_reducible apply State.encAbort_keeps (w := w.of (by decide))
    with_reducible assumption
  · split
    · with_reducible apply State.chanAbort_keeps (w := w.of (by decide))
      with_reducible assumption
    · split
      · with_reducible apply State.endTask_keeps (w := w.of (by decide))
        with_reducible assumption
      · split
        · with_reducible apply State.descEnd_keeps (w := w.of (by decide))
          with_reducible assumption
        · with_reducible assumption

theorem State.abortFault_keeps {m : Nat} {s0 : State} (s : State) (x1 : FaultAt) (h : s0.Keeps m s) (w : Within 0x4207f18 m := by exact Within.of (by assumption) (by decide)) :
    s0.Keeps m (State.abortFault s x1) := by
  unfold State.abortFault
  split
  · with_reducible apply State.abortWork_keeps (w := w.of (by decide))
    with_reducible apply State.unhold_keeps (w := w.of (by decide))
    with_reducible assumption
  · with_reducible apply State.abortWork_keeps (w := w.of (by decide))
    with_reducible apply State.setCtx_keeps (w := w.of (by decide))
    with_reducible assumption

theorem State.resolveResult_keeps {m : Nat} {s0 : State} (s : State) (status : ℕ) (released : ℕ) (h : s0.Keeps m s) (w : Within 0x8 m := by exact Within.of (by assumption) (by decide)) :
    s0.Keeps m (State.resolveResult s status released) := by
  unfold State.resolveResult
  with_reducible apply State.wr_keeps (w := w.of (by decide))
  with_reducible apply State.wr_keeps (w := w.of (by decide))
  with_reducible assumption

theorem State.resolveNamed_keeps {m : Nat} {s0 : State} (s : State) (act : State → FaultAt → State) (h : s0.Keeps m s) (ha : ∀ t f, s0.Keeps m t → s0.Keeps m (act t f)) (w : Within 0x8 m := by exact Within.of (by assumption) (by decide)) :
    s0.Keeps m (s.resolveNamed act) := by
  unfold State.resolveNamed
  split
  · exact State.resolveResult_keeps _ _ _ (ha _ _ h)
  · exact State.resolveResult_keeps _ _ _ h

theorem State.retrySpace_keeps {m : Nat} {s0 : State} (s : State) (h : s0.Keeps m s) (w : Within 0x2e08 m := by exact Within.of (by assumption) (by decide)) :
    s0.Keeps m (State.retrySpace s) := by
  unfold State.retrySpace
  extract_lets a0
  clear_value a0
  with_reducible apply State.resolveResult_keeps (w := w.of (by decide))
  with_reducible apply State.each_keeps
  · intro x1 x2 x3
    with_reducible apply State.resumeUnit_keeps (w := w.of (by decide))
    with_reducible assumption
  · with_reducible apply State.each_keeps
    · intro x4 x5 x6
      with_reducible apply State.markResolved_keeps (w := w.of (by decide))
      with_reducible assumption
    · with_reducible assumption

theorem State.resolveCmd_keeps {m : Nat} {s0 : State} (s : State) (action : ℕ) (h : s0.Keeps m s) (w : Within 0x4207f18 m := by exact Within.of (by assumption) (by decide)) :
    s0.Keeps m (State.resolveCmd s action) := by
  unfold State.resolveCmd
  split
  · with_reducible apply State.resolveNamed_keeps (w := w.of (by decide))
    · with_reducible assumption
    · intro x0 x1 x2
      with_reducible apply State.retryFault_keeps (w := w.of (by decide))
      with_reducible assumption
  · split
    · with_reducible apply State.resolveNamed_keeps (w := w.of (by decide))
      · with_reducible assumption
      · intro x3 x4 x5
        with_reducible apply State.abortFault_keeps (w := w.of (by decide))
        with_reducible assumption
    · split
      · with_reducible apply State.retrySpace_keeps (w := w.of (by decide))
        with_reducible assumption
      · with_reducible assumption

theorem execRetry_keeps {m : Nat} {s0 : State} (src : Agent) (s : State) (h : s0.Keeps m s) {t : State} (e : execRetry src s = .next t) (w : Within 0x420ff18 m := by exact Within.of (by assumption) (by decide)) :
    s0.Keeps m t := by
  unfold execRetry at e
  injection e with e
  subst e
  with_reducible apply State.writeReg_keeps (w := w.of (by decide))
  · with_reducible assumption
  · intro x0 x1
    with_reducible apply State.resolveCmd_keeps (w := w.of (by decide))
    with_reducible assumption

theorem execAbort_keeps {m : Nat} {s0 : State} (src : Agent) (s : State) (h : s0.Keeps m s) {t : State} (e : execAbort src s = .next t) (w : Within 0x420ff18 m := by exact Within.of (by assumption) (by decide)) :
    s0.Keeps m t := by
  unfold execAbort at e
  injection e with e
  subst e
  with_reducible apply State.writeReg_keeps (w := w.of (by decide))
  · with_reducible assumption
  · intro x0 x1
    with_reducible apply State.resolveCmd_keeps (w := w.of (by decide))
    with_reducible assumption

theorem execRetrySpace_keeps {m : Nat} {s0 : State} (src : Agent) (s : State) (h : s0.Keeps m s) {t : State} (e : execRetrySpace src s = .next t) (w : Within 0x420ff18 m := by exact Within.of (by assumption) (by decide)) :
    s0.Keeps m t := by
  unfold execRetrySpace at e
  injection e with e
  subst e
  with_reducible apply State.writeReg_keeps (w := w.of (by decide))
  · with_reducible assumption
  · intro x0 x1
    with_reducible apply State.resolveCmd_keeps (w := w.of (by decide))
    with_reducible assumption

theorem State.xltRegWrite_keeps {m : Nat} {s0 : State} (s : State) (o : ℕ) (val : Word) (h : s0.Keeps m s) (w : Within 0x4207f18 m := by exact Within.of (by assumption) (by decide)) :
    s0.Keeps m (State.xltRegWrite s o val) := by
  unfold State.xltRegWrite
  split
  · with_reducible apply State.spaceReq_keeps (w := w.of (by decide))
    with_reducible assumption
  · split
    · with_reducible apply State.spaceRoot_keeps (w := w.of (by decide))
      with_reducible assumption
    · split
      · with_reducible apply State.spaceRoot_keeps (w := w.of (by decide))
        with_reducible assumption
      · split
        · with_reducible apply State.spaceCmd_keeps (w := w.of (by decide))
          with_reducible assumption
        · split
          · with_reducible apply State.invCmd_keeps (w := w.of (by decide))
            with_reducible assumption
          · split
            · with_reducible apply State.fqHead_keeps (w := w.of (by decide))
              with_reducible assumption
            · split
              · with_reducible apply State.resolveCmd_keeps (w := w.of (by decide))
                with_reducible assumption
              · with_reducible apply State.plainWrite_keeps (w := w.of (by decide))
                with_reducible assumption

end Sys2Proof.Machine
end

