-- ==== Sys2Proof/Laws/KeepsBus.lean ====
section
/-! SUPPORT. The operations of Machine/Bus.lean keep the queue and the invariant (`State.Keeps`). -/

namespace Sys2Proof.Machine

set_option Elab.async false
set_option linter.unusedVariables false

theorem State.meshRegWrite_keeps {m : Nat} {s0 : State} (s : State) (o : ℕ) (val : Word) (h : s0.Keeps m s) (w : Within 0x8 m := by exact Within.of (by assumption) (by decide)) :
    s0.Keeps m (State.meshRegWrite s o val) := by
  unfold State.meshRegWrite
  split
  · split
    · with_reducible apply State.wr_keeps (w := w.of (by decide))
      with_reducible assumption
    · with_reducible assumption
  · with_reducible apply State.plainWrite_keeps (w := w.of (by decide))
    with_reducible assumption

theorem State.regEffect_keeps {m : Nat} {s0 : State} (s : State) (src : Agent) (off : ℕ) (val : Word) (h : s0.Keeps m s) (w : Within 0x3fffffff m := by exact Within.of (by assumption) (by decide)) :
    s0.Keeps m (State.regEffect s src off val) := by
  unfold State.regEffect
  extract_lets a0
  clear_value a0
  split
  · with_reducible apply State.kprRegWrite_keeps (w := w.of (by decide))
    with_reducible assumption
  · with_reducible apply State.pwrRegWrite_keeps (w := w.of (by decide))
    with_reducible assumption
  · with_reducible apply State.clkRegWrite_keeps (w := w.of (by decide))
    with_reducible assumption
  · with_reducible apply State.cuxRegWrite_keeps (w := w.of (by decide))
    with_reducible assumption
  · with_reducible apply State.meshRegWrite_keeps (w := w.of (by decide))
    with_reducible assumption
  · with_reducible apply State.qdrRegWrite_keeps (w := w.of (by decide))
    with_reducible assumption
  · with_reducible apply State.xltRegWrite_keeps (w := w.of (by decide))
    with_reducible assumption
  · with_reducible apply State.dmaRegWrite_keeps (w := w.of (by decide))
    with_reducible assumption
  · with_reducible apply State.hqRegWrite_keeps (w := w.of (by decide))
    with_reducible assumption
  · with_reducible apply State.schRegWrite_keeps (w := w.of (by decide))
    with_reducible assumption
  · with_reducible apply State.engRegWrite_keeps (w := w.of (by decide))
    with_reducible assumption
  · with_reducible apply State.sealRegWrite_keeps (w := w.of (by decide))
    with_reducible assumption
  · with_reducible apply State.ckvRegWrite_keeps (w := w.of (by decide))
    with_reducible assumption
  · with_reducible apply State.strRegWrite_keeps (w := w.of (by decide))
    with_reducible assumption
  · with_reducible apply State.slkRegWrite_keeps (w := w.of (by decide))
    with_reducible assumption
  · with_reducible apply State.magRegWrite_keeps (w := w.of (by decide))
    with_reducible assumption
  · with_reducible apply State.encRegWrite_keeps (w := w.of (by decide))
    with_reducible assumption
  · with_reducible apply State.rateRegWrite_keeps (w := w.of (by decide))
    with_reducible assumption
  · with_reducible apply State.cmpRegWrite_keeps (w := w.of (by decide))
    with_reducible assumption
  · with_reducible apply State.sdiRegWrite_keeps (w := w.of (by decide))
    with_reducible assumption
  · with_reducible apply State.netRegWrite_keeps (w := w.of (by decide))
    with_reducible assumption
  · with_reducible apply State.tsnRegWrite_keeps (w := w.of (by decide))
    with_reducible assumption
  · with_reducible apply State.ptpRegWrite_keeps (w := w.of (by decide))
    with_reducible assumption
  · with_reducible apply State.audRegWrite_keeps (w := w.of (by decide))
    with_reducible assumption
  · with_reducible apply State.hifRegWrite_keeps (w := w.of (by decide))
    with_reducible assumption
  · with_reducible apply State.bistRegWrite_keeps (w := w.of (by decide))
    with_reducible assumption
  · with_reducible apply State.calRegWrite_keeps (w := w.of (by decide))
    with_reducible assumption
  · with_reducible apply State.updRegWrite_keeps (w := w.of (by decide))
    with_reducible assumption
  · with_reducible apply State.fuseRegWrite_keeps (w := w.of (by decide))
    with_reducible assumption
  · with_reducible apply State.plainWrite_keeps (w := w.of (by decide))
    with_reducible assumption

theorem State.narrowWrite_keeps {m : Nat} {s0 : State} (s : State) (src : Agent) (off : ℕ) (size : Size) (val : Word) (h : s0.Keeps m s) (w : Within 0x8008 m := by exact Within.of (by assumption) (by decide)) :
    s0.Keeps m (State.narrowWrite s src off size val) := by
  unfold State.narrowWrite
  split
  · with_reducible apply State.mirror_keeps (w := w.of (by decide))
    with_reducible assumption
  · with_reducible apply State.mirror_keeps (w := w.of (by decide))
    with_reducible assumption
  · with_reducible assumption
  · with_reducible apply State.notOwner_keeps (w := w.of (by decide))
    with_reducible assumption
  · with_reducible apply State.reportHostDenied_keeps (w := w.of (by decide))
    with_reducible apply State.mirror_keeps (w := w.of (by decide))
    with_reducible assumption
  · with_reducible assumption

theorem State.busWrite_keeps {m : Nat} {s0 : State} (s : State) (src : Agent) (off : ℕ) (size : Size) (val : Word) (h : s0.Keeps m s) (w : Within 0x3fffffff m := by exact Within.of (by assumption) (by decide)) :
    s0.Keeps m (State.busWrite s src off size val) := by
  unfold State.busWrite
  split
  · with_reducible apply State.write_keeps (w := w.of (by decide))
    · with_reducible assumption
    · intro x0 x1
      with_reducible apply State.ckvRegWrite_keeps (w := w.of (by decide))
      with_reducible assumption
  · split
    · with_reducible apply State.write_keeps (w := w.of (by decide))
      · with_reducible assumption
      · intro x2 x3
        with_reducible apply State.regEffect_keeps (w := w.of (by decide))
        with_reducible assumption
    · with_reducible apply State.narrowWrite_keeps (w := w.of (by decide))
      with_reducible assumption

theorem State.busRead_keeps {m : Nat} {s0 : State} (s : State) (off : ℕ) (h : s0.Keeps m s) (w : Within 0x404c m := by exact Within.of (by assumption) (by decide)) :
    s0.Keeps m (State.busRead s off) := by
  unfold State.busRead
  extract_lets a0 a1
  clear_value a0
  have k2 : ∀ y0, s0.Keeps m y0 → s0.Keeps m (a1 y0) := by
    unfold a1
    intro x3 x4
    with_reducible apply State.setReadData_keeps (w := w.of (by decide))
    with_reducible assumption
  clear_value a1
  split
  · with_reducible apply State.xspiPop_keeps (w := w.of (by decide))
    with_reducible assumption
  · split
    · with_reducible apply k2
      with_reducible apply State.ckvDrain_keeps (w := w.of (by decide))
      with_reducible assumption
    · split
      · with_reducible apply State.wr_keeps (w := w.of (by decide))
        with_reducible apply k2
        with_reducible assumption
      · split
        · with_reducible assumption
        · with_reducible apply k2
          with_reducible assumption

theorem State.bar0Read_keeps {m : Nat} {s0 : State} (s : State) (off : ℕ) (size : Size) (h : s0.Keeps m s) (w : Within 0x404e m := by exact Within.of (by assumption) (by decide)) :
    s0.Keeps m (State.bar0Read s off size) := by
  unfold State.bar0Read
  split
  · with_reducible assumption
  · split
    · with_reducible apply State.busRead_keeps (w := w.of (by decide))
      with_reducible assumption
    · extract_lets a0
      have k1 : s0.Keeps m a0.2 := by
        unfold a0
        with_reducible apply State.takeFree_keeps (w := w.of (by decide))
        with_reducible assumption
      clear_value a0
      with_reducible apply State.setReadData_keeps (w := w.of (by decide))
      with_reducible assumption

theorem execRegisterWrite_keeps {m : Nat} {s0 : State} (src : Agent) (off : BitVec 24) (size : Size) (val : Word) (s : State) (h : s0.Keeps m s) {t : State} (e : execRegisterWrite src off size val s = .next t) (w : Within 0x3fffffff m := by exact Within.of (by assumption) (by decide)) :
    s0.Keeps m t := by
  unfold execRegisterWrite at e
  injection e with e
  subst e
  with_reducible apply State.busWrite_keeps (w := w.of (by decide))
  with_reducible assumption

theorem execBar0Access_keeps {m : Nat} {s0 : State} (write : Bool) (off : BitVec 24) (size : Size) (val : Word) (s : State) (h : s0.Keeps m s) {t : State} (e : execBar0Access write off size val s = .next t) (w : Within 0x3fffffff m := by exact Within.of (by assumption) (by decide)) :
    s0.Keeps m t := by
  unfold execBar0Access at e
  injection e with e
  subst e
  split
  · with_reducible apply State.busWrite_keeps (w := w.of (by decide))
    with_reducible assumption
  · with_reducible apply State.bar0Read_keeps (w := w.of (by decide))
    with_reducible assumption

end Sys2Proof.Machine
end

