-- ==== Sys2Proof/Laws/KeepsCores.lean ====
section
/-! SUPPORT. The operations of Machine/Cores.lean keep the queue and the invariant (`State.Keeps`). -/

namespace Sys2Proof.Machine

set_option Elab.async false
set_option linter.unusedVariables false

theorem State.retired_keeps {m : Nat} {s0 : State} (s : State) (k : ℕ) (vec : Bool) (far : Bool) (h : s0.Keeps m s) (w : Within 0x2000 m := by exact Within.of (by assumption) (by decide)) :
    s0.Keeps m (State.retired s k vec far) := by
  unfold State.retired
  extract_lets a0
  clear_value a0
  with_reducible apply State.setEngine_keeps (w := w.of (by decide))
  with_reducible assumption

theorem State.engRead_keeps {m : Nat} {s0 : State} (s : State) (u : Task) (a : ℕ) (len : ℕ) (h : s0.Keeps m s) (w : Within 0x408 m := by exact Within.of (by assumption) (by decide)) :
    s0.Keeps m (State.engRead s u a len) := by
  unfold State.engRead
  split
  · with_reducible apply State.cacheLeaf_keeps (w := w.of (by decide))
    with_reducible apply State.readNote_keeps (w := w.of (by decide))
    with_reducible assumption
  · with_reducible assumption

theorem State.engWrite_keeps {m : Nat} {s0 : State} (s : State) (u : Task) (a : ℕ) (b : List Byte) (h : s0.Keeps m s) (w : Within 0x5418 m := by exact Within.of (by assumption) (by decide)) :
    s0.Keeps m (State.engWrite s u a b) := by
  unfold State.engWrite
  split
  · with_reducible apply State.cacheLeaf_keeps (w := w.of (by decide))
    with_reducible apply State.vwrite_keeps (w := w.of (by decide))
    with_reducible assumption
  · with_reducible assumption

theorem State.instrStop_keeps {m : Nat} {s0 : State} (s : State) (k : ℕ) (slot : ℕ) (u : Task) (r : EngRegs) (x5 : InstrStop) (h : s0.Keeps m s) (w : Within 0x4007f9a m := by exact Within.of (by assumption) (by decide)) :
    s0.Keeps m (State.instrStop s k slot u r x5) := by
  unfold State.instrStop
  split
  · with_reducible apply State.trap_keeps (w := w.of (by decide))
    with_reducible assumption
  · with_reducible apply State.trapOpen_keeps (w := w.of (by decide))
    with_reducible assumption
  · with_reducible apply State.faultAccess_keeps (w := w.of (by decide))
    with_reducible assumption

theorem State.runOrdinary_keeps {m : Nat} {s0 : State} (s : State) (k : ℕ) (slot : ℕ) (u : Task) (wx : ℕ) (len : ℕ) (h : s0.Keeps m s) (w : Within 0x4007f9a m := by exact Within.of (by assumption) (by decide)) :
    s0.Keeps m (State.runOrdinary s k slot u wx len) := by
  unfold State.runOrdinary
  extract_lets a0 a1 a2 a3 a4
  clear_value a0
  have k5 : s0.Keeps m a1 := by
    unfold a1
    with_reducible apply State.each_keeps
    · intro x6 x7 x8
      with_reducible apply State.engRead_keeps (w := w.of (by decide))
      with_reducible assumption
    · with_reducible assumption
  clear_value a1
  have k9 : s0.Keeps m a2 := by
    unfold a2
    with_reducible apply State.each_keeps
    · intro x10 x11 x12
      with_reducible apply State.engWrite_keeps (w := w.of (by decide))
      with_reducible assumption
    · with_reducible assumption
  clear_value a2
  clear_value a3
  have k13 : s0.Keeps m a4 := by
    unfold a4
    with_reducible apply State.setEngine_keeps (w := w.of (by decide))
    with_reducible assumption
  clear_value a4
  split
  · with_reducible apply State.retired_keeps (w := w.of (by decide))
    with_reducible assumption
  · with_reducible apply State.instrStop_keeps (w := w.of (by decide))
    with_reducible assumption

theorem State.execAtPc_keeps {m : Nat} {s0 : State} (s : State) (k : ℕ) (slot : ℕ) (u : Task) (h : s0.Keeps m s) (w : Within 0x4007fba m := by exact Within.of (by assumption) (by decide)) :
    s0.Keeps m (State.execAtPc s k slot u) := by
  unfold State.execAtPc
  extract_lets a0
  clear_value a0
  split
  · split
    · with_reducible apply State.customWord_keeps (w := w.of (by decide))
      with_reducible assumption
    · split
      · with_reducible assumption
      · split
        · with_reducible apply State.ecall_keeps (w := w.of (by decide))
          with_reducible assumption
        · with_reducible apply State.runOrdinary_keeps (w := w.of (by decide))
          with_reducible assumption
  · split
    · with_reducible assumption
    · with_reducible apply State.illegal_keeps (w := w.of (by decide))
      with_reducible assumption
  · split
    · with_reducible assumption
    · with_reducible apply State.trap_keeps (w := w.of (by decide))
      with_reducible assumption

theorem State.coreStep_keeps {m : Nat} {s0 : State} (s : State) (k : ℕ) (h : s0.Keeps m s) (w : Within 0x4007fba m := by exact Within.of (by assumption) (by decide)) :
    s0.Keeps m (State.coreStep s k) := by
  unfold State.coreStep
  split
  · with_reducible assumption
  · split
    · with_reducible assumption
    · with_reducible apply State.execAtPc_keeps (w := w.of (by decide))
      with_reducible assumption

theorem State.countCycles_keeps {m : Nat} {s0 : State} (s : State) (h : s0.Keeps m s) (w : Within 0x2000 m := by exact Within.of (by assumption) (by decide)) :
    s0.Keeps m (State.countCycles s) := by
  unfold State.countCycles
  extract_lets a0
  clear_value a0
  with_reducible apply State.each_keeps
  · intro x1 x2 x3
    with_reducible apply State.setEngine_keeps (w := w.of (by decide))
    with_reducible assumption
  · with_reducible assumption

theorem State.countOpen_keeps {m : Nat} {s0 : State} (s : State) (f : Fld) (h : s0.Keeps m s) (w : Within 0x8 m := by exact Within.of (by assumption) (by decide)) :
    s0.Keeps m (State.countOpen s f) := by
  unfold State.countOpen
  with_reducible apply State.inc_keeps (w := w.of (by decide))
  with_reducible assumption

theorem State.countTags_keeps {m : Nat} {s0 : State} (s : State) (h : s0.Keeps m s) (w : Within 0x8 m := by exact Within.of (by assumption) (by decide)) :
    s0.Keeps m (State.countTags s) := by
  unfold State.countTags
  extract_lets a0
  clear_value a0
  with_reducible apply State.wr_keeps (w := w.of (by decide))
  with_reducible apply State.wr_keeps (w := w.of (by decide))
  with_reducible assumption

theorem State.countEvents_keeps {m : Nat} {s0 : State} (s : State) (h : s0.Keeps m s) (w : Within 0x8 m := by exact Within.of (by assumption) (by decide)) :
    s0.Keeps m (State.countEvents s) := by
  unfold State.countEvents
  split
  · with_reducible assumption
  · extract_lets a0 a1
    have k2 : s0.Keeps m a0 := by
      unfold a0
      with_reducible apply State.countOpen_keeps (w := w.of (by decide))
      with_reducible apply State.countTags_keeps (w := w.of (by decide))
      with_reducible assumption
    clear_value a0
    have k3 : s0.Keeps m a1 := by
      unfold a1
      with_reducible apply State.each_keeps
      · intro x4 x5 x6
        with_reducible apply State.countOpen_keeps (w := w.of (by decide))
        with_reducible assumption
      · with_reducible assumption
    clear_value a1
    with_reducible apply State.each_keeps
    · intro x7 x8 x9
      with_reducible apply State.countOpen_keeps (w := w.of (by decide))
      with_reducible apply State.countOpen_keeps (w := w.of (by decide))
      with_reducible assumption
    · with_reducible assumption

end Sys2Proof.Machine
end

