-- ==== Sys2Proof/Laws/KeepsUnitCores.lean ====
section
/-! SUPPORT. The operations of Machine/UnitCores.lean keep the queue and the invariant (`State.Keeps`). -/

namespace Sys2Proof.Machine

set_option Elab.async false
set_option linter.unusedVariables false

theorem State.setHart_keeps {m : Nat} {s0 : State} (s : State) (u : ℕ) (i : ℕ) (hx : UnitHart) (h : s0.Keeps m s) (w : Within 0x8000 m := by exact Within.of (by assumption) (by decide)) :
    s0.Keeps m (State.setHart s u i hx) := by
  unfold State.setHart
  with_reducible apply State.setUnit_keeps (w := w.of (by decide))
  with_reducible assumption

theorem State.aclintWrite_keeps {m : Nat} {s0 : State} (s : State) (u : ℕ) (o : ℕ) (v : ℕ) (h : s0.Keeps m s) (w : Within 0x8000 m := by exact Within.of (by assumption) (by decide)) :
    s0.Keeps m (State.aclintWrite s u o v) := by
  unfold State.aclintWrite
  split
  · with_reducible apply State.setUnit_keeps (w := w.of (by decide))
    with_reducible assumption
  · split
    · extract_lets a0 a1 a2 a3
      clear_value a0
      clear_value a1
      clear_value a2
      clear_value a3
      with_reducible apply State.setUnit_keeps (w := w.of (by decide))
      with_reducible assumption
    · with_reducible assumption

theorem State.unitRegRead_keeps {m : Nat} {s0 : State} (s : State) (off : ℕ) (h : s0.Keeps m s) (w : Within 0x404e m := by exact Within.of (by assumption) (by decide)) :
    s0.Keeps m ((State.unitRegRead s off).2) := by
  unfold State.unitRegRead
  extract_lets a0 a1
  have k2 : s0.Keeps m a0 := by
    unfold a0
    with_reducible apply State.busRead_keeps (w := w.of (by decide))
    with_reducible apply State.setReadData_keeps (w := w.of (by decide))
    with_reducible assumption
  clear_value a0
  have k3 : s0.Keeps m a1.2 := by
    unfold a1
    with_reducible apply State.takeFree_keeps (w := w.of (by decide))
    with_reducible apply State.setReadData_keeps (w := w.of (by decide))
    with_reducible assumption
  clear_value a1
  split
  · dsimp only
    with_reducible apply State.setReadData_keeps (w := w.of (by decide))
    with_reducible assumption
  · with_reducible assumption

theorem State.unitRegRead_keeps_eq {m : Nat} {s0 : State} {s : State} {off : ℕ} {a : _} {t : State} (h : s0.Keeps m s)  (e : State.unitRegRead s off = (a, t)) (w : Within 0x404e m := by exact Within.of (by assumption) (by decide)) :
    s0.Keeps m t :=
  State.keeps_snd_eq (State.unitRegRead_keeps s off h ) e

theorem State.unitWord_keeps {m : Nat} {s0 : State} (s : State) (u : ℕ) (x2 : UnitPlace) (h : s0.Keeps m s) (w : Within 0xc04e m := by exact Within.of (by assumption) (by decide)) :
    s0.Keeps m ((State.unitWord s u x2).2) := by
  unfold State.unitWord
  split
  · with_reducible apply State.unitRegRead_keeps (w := w.of (by decide))
    with_reducible assumption
  · with_reducible assumption
  · with_reducible assumption
  · extract_lets a0 a1
    clear_value a0
    clear_value a1
    dsimp only
    with_reducible apply State.setUnit_keeps (w := w.of (by decide))
    with_reducible assumption

theorem State.unitWord_keeps_eq {m : Nat} {s0 : State} {s : State} {u : ℕ} {x2 : UnitPlace} {a : _} {t : State} (h : s0.Keeps m s)  (e : State.unitWord s u x2 = (a, t)) (w : Within 0xc04e m := by exact Within.of (by assumption) (by decide)) :
    s0.Keeps m t :=
  State.keeps_snd_eq (State.unitWord_keeps s u x2 h ) e

theorem State.unitWords_keeps {m : Nat} {s0 : State} (s : State) (u : ℕ) (p : UnitPlace) (n : ℕ) (h : s0.Keeps m s) (w : Within 0xc04e m := by exact Within.of (by assumption) (by decide)) :
    s0.Keeps m ((State.unitWords s u p n).2) := by
  unfold State.unitWords
  split
  · with_reducible apply State.unitWord_keeps (w := w.of (by decide))
    with_reducible assumption
  · split
    · extract_lets a0 a1
      have k2 : s0.Keeps m a0.2 := by
        unfold a0
        with_reducible apply State.unitWord_keeps (w := w.of (by decide))
        with_reducible assumption
      clear_value a0
      have k3 : s0.Keeps m a1.2 := by
        unfold a1
        with_reducible apply State.unitWord_keeps (w := w.of (by decide))
        with_reducible assumption
      clear_value a1
      with_reducible assumption
    · extract_lets a4
      have k5 : s0.Keeps m a4.2 := by
        unfold a4
        with_reducible apply State.takeFree_keeps (w := w.of (by decide))
        with_reducible assumption
      clear_value a4
      with_reducible assumption

theorem State.unitWords_keeps_eq {m : Nat} {s0 : State} {s : State} {u : ℕ} {p : UnitPlace} {n : ℕ} {a : _} {t : State} (h : s0.Keeps m s)  (e : State.unitWords s u p n = (a, t)) (w : Within 0xc04e m := by exact Within.of (by assumption) (by decide)) :
    s0.Keeps m t :=
  State.keeps_snd_eq (State.unitWords_keeps s u p n h ) e

theorem State.unitLoad_keeps {m : Nat} {s0 : State} (s : State) (u : ℕ) (p : UnitPlace) (n : ℕ) (h : s0.Keeps m s) (w : Within 0xc04e m := by exact Within.of (by assumption) (by decide)) :
    s0.Keeps m ((State.unitLoad s u p n).2) := by
  unfold State.unitLoad
  split
  · with_reducible assumption
  · split
    · with_reducible apply State.unitWords_keeps (w := w.of (by decide))
      with_reducible assumption
    · dsimp only
      with_reducible apply State.noteRead_keeps (w := w.of (by decide))
      with_reducible assumption
  · with_reducible apply State.unitWords_keeps (w := w.of (by decide))
    with_reducible assumption
  · with_reducible apply State.unitWords_keeps (w := w.of (by decide))
    with_reducible assumption

theorem State.unitLoad_keeps_eq {m : Nat} {s0 : State} {s : State} {u : ℕ} {p : UnitPlace} {n : ℕ} {a : _} {t : State} (h : s0.Keeps m s)  (e : State.unitLoad s u p n = (a, t)) (w : Within 0xc04e m := by exact Within.of (by assumption) (by decide)) :
    s0.Keeps m t :=
  State.keeps_snd_eq (State.unitLoad_keeps s u p n h ) e

theorem State.unitPut_keeps {m : Nat} {s0 : State} (s : State) (u : ℕ) (v : ℕ) (x3 : UnitPlace) (h : s0.Keeps m s) (w : Within 0x3fffffff m := by exact Within.of (by assumption) (by decide)) :
    s0.Keeps m (State.unitPut s u v x3) := by
  unfold State.unitPut
  split
  · with_reducible apply State.busWrite_keeps (w := w.of (by decide))
    with_reducible assumption
  · with_reducible apply State.sramWrite_keeps (w := w.of (by decide))
    with_reducible assumption
  · with_reducible apply State.aclintWrite_keeps (w := w.of (by decide))
    with_reducible assumption
  · with_reducible apply State.setUnit_keeps (w := w.of (by decide))
    with_reducible assumption

theorem State.unitPuts_keeps {m : Nat} {s0 : State} (s : State) (u : ℕ) (p : UnitPlace) (n : ℕ) (v : ℕ) (h : s0.Keeps m s) (w : Within 0x3fffffff m := by exact Within.of (by assumption) (by decide)) :
    s0.Keeps m (State.unitPuts s u p n v) := by
  unfold State.unitPuts
  split
  · with_reducible apply State.unitPut_keeps (w := w.of (by decide))
    with_reducible apply State.unitPut_keeps (w := w.of (by decide))
    with_reducible assumption
  · with_reducible apply State.unitPut_keeps (w := w.of (by decide))
    with_reducible assumption

theorem State.unitStore_keeps {m : Nat} {s0 : State} (s : State) (u : ℕ) (p : UnitPlace) (n : ℕ) (v : ℕ) (h : s0.Keeps m s) (w : Within 0x3fffffff m := by exact Within.of (by assumption) (by decide)) :
    s0.Keeps m (State.unitStore s u p n v) := by
  unfold State.unitStore
  split
  · with_reducible apply State.sramWrite_keeps (w := w.of (by decide))
    with_reducible assumption
  · split
    · with_reducible apply State.physWrite_keeps (w := w.of (by decide))
      with_reducible assumption
    · split
      · with_reducible apply State.busWrite_keeps (w := w.of (by decide))
        with_reducible assumption
      · with_reducible apply State.unitPuts_keeps (w := w.of (by decide))
        with_reducible assumption
  · split
    · with_reducible assumption
    · with_reducible apply State.unitPuts_keeps (w := w.of (by decide))
      with_reducible assumption
  · split
    · with_reducible assumption
    · with_reducible apply State.unitPuts_keeps (w := w.of (by decide))
      with_reducible assumption

theorem State.hartEnd_keeps {m : Nat} {s0 : State} (s : State) (u : ℕ) (i : ℕ) (hx : UnitHart) (h : s0.Keeps m s) (w : Within 0x8000 m := by exact Within.of (by assumption) (by decide)) :
    s0.Keeps m (State.hartEnd s u i hx) := by
  unfold State.hartEnd
  extract_lets a0
  clear_value a0
  with_reducible apply State.setHart_keeps (w := w.of (by decide))
  with_reducible assumption

theorem State.hartTrap_keeps {m : Nat} {s0 : State} (s : State) (u : ℕ) (i : ℕ) (cause : ℕ) (tval : Option ℕ) (h : s0.Keeps m s) (w : Within 0x8002 m := by exact Within.of (by assumption) (by decide)) :
    s0.Keeps m (State.hartTrap s u i cause tval) := by
  unfold State.hartTrap
  split
  · with_reducible apply State.setHart_keeps (w := w.of (by decide))
    with_reducible assumption
  · extract_lets a0
    have k1 : s0.Keeps m a0.2 := by
      unfold a0
      with_reducible apply State.takeFree_keeps (w := w.of (by decide))
      with_reducible assumption
    clear_value a0
    with_reducible apply State.setHart_keeps (w := w.of (by decide))
    with_reducible assumption

theorem State.hartLoad_keeps {m : Nat} {s0 : State} (s : State) (u : ℕ) (i : ℕ) (a : ℕ) (n : ℕ) (len : ℕ) (put : UnitHart → ℕ → UnitHart) (h : s0.Keeps m s) (w : Within 0xc04e m := by exact Within.of (by assumption) (by decide)) :
    s0.Keeps m (State.hartLoad s u i a n len put) := by
  unfold State.hartLoad
  extract_lets a0
  clear_value a0
  split
  · with_reducible apply State.hartTrap_keeps (w := w.of (by decide))
    with_reducible assumption
  · split
    · with_reducible apply State.hartTrap_keeps (w := w.of (by decide))
      with_reducible assumption
    · split
      · with_reducible apply State.hartTrap_keeps (w := w.of (by decide))
        with_reducible assumption
      · extract_lets a1
        have k2 : s0.Keeps m a1.2 := by
          unfold a1
          with_reducible apply State.unitLoad_keeps (w := w.of (by decide))
          with_reducible assumption
        clear_value a1
        with_reducible apply State.hartEnd_keeps (w := w.of (by decide))
        with_reducible assumption

theorem State.hartStore_keeps {m : Nat} {s0 : State} (s : State) (u : ℕ) (i : ℕ) (a : ℕ) (n : ℕ) (v : ℕ) (len : ℕ) (h : s0.Keeps m s) (w : Within 0x3fffffff m := by exact Within.of (by assumption) (by decide)) :
    s0.Keeps m (State.hartStore s u i a n v len) := by
  unfold State.hartStore
  extract_lets a0
  clear_value a0
  split
  · with_reducible apply State.hartTrap_keeps (w := w.of (by decide))
    with_reducible assumption
  · split
    · with_reducible apply State.hartTrap_keeps (w := w.of (by decide))
      with_reducible assumption
    · split
      · with_reducible apply State.hartTrap_keeps (w := w.of (by decide))
        with_reducible assumption
      · with_reducible apply State.hartEnd_keeps (w := w.of (by decide))
        with_reducible apply State.unitStore_keeps (w := w.of (by decide))
        with_reducible assumption

theorem State.hartLr_keeps {m : Nat} {s0 : State} (s : State) (u : ℕ) (i : ℕ) (a : ℕ) (n : ℕ) (rd : ℕ) (h : s0.Keeps m s) (w : Within 0x8002 m := by exact Within.of (by assumption) (by decide)) :
    s0.Keeps m (State.hartLr s u i a n rd) := by
  unfold State.hartLr
  split
  · with_reducible apply State.hartTrap_keeps (w := w.of (by decide))
    with_reducible assumption
  · extract_lets a0 a1
    clear_value a0
    have k2 : s0.Keeps m a1 := by
      unfold a1
      with_reducible apply State.setHart_keeps (w := w.of (by decide))
      with_reducible assumption
    clear_value a1
    with_reducible apply State.hartEnd_keeps (w := w.of (by decide))
    with_reducible assumption

theorem State.hartSc_keeps {m : Nat} {s0 : State} (s : State) (u : ℕ) (i : ℕ) (a : ℕ) (n : ℕ) (rd : ℕ) (v : ℕ) (h : s0.Keeps m s) (w : Within 0x8002 m := by exact Within.of (by assumption) (by decide)) :
    s0.Keeps m (State.hartSc s u i a n rd v) := by
  unfold State.hartSc
  extract_lets a0
  clear_value a0
  split
  · with_reducible apply State.hartTrap_keeps (w := w.of (by decide))
    with_reducible assumption
  · split
    · with_reducible apply State.hartEnd_keeps (w := w.of (by decide))
      with_reducible apply State.sramWrite_keeps (w := w.of (by decide))
      with_reducible assumption
    · with_reducible apply State.hartEnd_keeps (w := w.of (by decide))
      with_reducible apply State.setHart_keeps (w := w.of (by decide))
      with_reducible assumption

theorem State.hartAmo_keeps {m : Nat} {s0 : State} (s : State) (u : ℕ) (i : ℕ) (op : ℕ) (a : ℕ) (n : ℕ) (rd : ℕ) (v : ℕ) (h : s0.Keeps m s) (w : Within 0x8002 m := by exact Within.of (by assumption) (by decide)) :
    s0.Keeps m (State.hartAmo s u i op a n rd v) := by
  unfold State.hartAmo
  extract_lets a0
  clear_value a0
  split
  · with_reducible apply State.hartTrap_keeps (w := w.of (by decide))
    with_reducible assumption
  · extract_lets a1
    clear_value a1
    with_reducible apply State.hartEnd_keeps (w := w.of (by decide))
    with_reducible apply State.sramWrite_keeps (w := w.of (by decide))
    with_reducible assumption

theorem State.hartCsr_keeps {m : Nat} {s0 : State} (s : State) (u : ℕ) (i : ℕ) (n : ℕ) (f3 : ℕ) (rd : ℕ) (src : ℕ) (write : Bool) (h : s0.Keeps m s) (w : Within 0x8002 m := by exact Within.of (by assumption) (by decide)) :
    s0.Keeps m (State.hartCsr s u i n f3 rd src write) := by
  unfold State.hartCsr
  extract_lets a0
  clear_value a0
  split
  · with_reducible apply State.hartTrap_keeps (w := w.of (by decide))
    with_reducible assumption
  · split
    · with_reducible apply State.hartTrap_keeps (w := w.of (by decide))
      with_reducible assumption
    · extract_lets a1
      have k2 : s0.Keeps m a1 := by
        unfold a1
        with_reducible apply State.hartEnd_keeps (w := w.of (by decide))
        with_reducible assumption
      clear_value a1
      split
      · with_reducible apply State.setHart_keeps (w := w.of (by decide))
        with_reducible assumption
      · with_reducible assumption

theorem State.hartDo_keeps {m : Nat} {s0 : State} (s : State) (u : ℕ) (i : ℕ) (len : ℕ) (a : HartAct) (h : s0.Keeps m s) (w : Within 0x3fffffff m := by exact Within.of (by assumption) (by decide)) :
    s0.Keeps m (State.hartDo s u i len a) := by
  unfold State.hartDo
  split
  · with_reducible apply State.hartEnd_keeps (w := w.of (by decide))
    with_reducible assumption
  · with_reducible apply State.hartLoad_keeps (w := w.of (by decide))
    with_reducible assumption
  · with_reducible apply State.hartLoad_keeps (w := w.of (by decide))
    with_reducible assumption
  · with_reducible apply State.hartStore_keeps (w := w.of (by decide))
    with_reducible assumption
  · with_reducible apply State.hartAmo_keeps (w := w.of (by decide))
    with_reducible assumption
  · with_reducible apply State.hartLr_keeps (w := w.of (by decide))
    with_reducible assumption
  · with_reducible apply State.hartSc_keeps (w := w.of (by decide))
    with_reducible assumption
  · with_reducible apply State.hartCsr_keeps (w := w.of (by decide))
    with_reducible assumption
  · with_reducible assumption
  · with_reducible apply State.hartTrap_keeps (w := w.of (by decide))
    with_reducible assumption

theorem State.hartExec_keeps {m : Nat} {s0 : State} (s : State) (u : ℕ) (i : ℕ) (wx : ℕ) (len : ℕ) (h : s0.Keeps m s) (w : Within 0x3fffffff m := by exact Within.of (by assumption) (by decide)) :
    s0.Keeps m (State.hartExec s u i wx len) := by
  unfold State.hartExec
  extract_lets a0
  clear_value a0
  split
  · with_reducible apply State.hartDo_keeps (w := w.of (by decide))
    with_reducible assumption
  · with_reducible apply State.hartDo_keeps (w := w.of (by decide))
    with_reducible assumption

theorem State.hartStep_keeps {m : Nat} {s0 : State} (s : State) (u : ℕ) (i : ℕ) (h : s0.Keeps m s) (w : Within 0x3fffffff m := by exact Within.of (by assumption) (by decide)) :
    s0.Keeps m (State.hartStep s u i) := by
  unfold State.hartStep
  extract_lets a0
  clear_value a0
  split
  · with_reducible apply State.setHart_keeps (w := w.of (by decide))
    with_reducible assumption
  · split
    · with_reducible apply State.hartExec_keeps (w := w.of (by decide))
      with_reducible assumption
    · with_reducible apply State.hartTrap_keeps (w := w.of (by decide))
      with_reducible assumption
    · with_reducible apply State.hartTrap_keeps (w := w.of (by decide))
      with_reducible assumption

theorem State.hartCycles_keeps {m : Nat} {s0 : State} (s : State) (u : ℕ) (i : ℕ) (h : s0.Keeps m s) (w : Within 0x8000 m := by exact Within.of (by assumption) (by decide)) :
    s0.Keeps m (State.hartCycles s u i) := by
  unfold State.hartCycles
  extract_lets a0 a1
  clear_value a0
  clear_value a1
  split
  · with_reducible assumption
  · with_reducible apply State.setHart_keeps (w := w.of (by decide))
    with_reducible assumption

theorem State.unitCycle_keeps {m : Nat} {s0 : State} (s : State) (u : ℕ) (h : s0.Keeps m s) (w : Within 0x3fffffff m := by exact Within.of (by assumption) (by decide)) :
    s0.Keeps m (State.unitCycle s u) := by
  unfold State.unitCycle
  split
  · with_reducible assumption
  · extract_lets a0 a1
    clear_value a0
    have k2 : s0.Keeps m a1 := by
      unfold a1
      with_reducible apply State.setUnit_keeps (w := w.of (by decide))
      with_reducible assumption
    clear_value a1
    with_reducible apply State.each_keeps
    · intro x3 x4 x5
      split
      · with_reducible apply State.hartCycles_keeps (w := w.of (by decide))
        with_reducible apply State.hartStep_keeps (w := w.of (by decide))
        with_reducible assumption
      · with_reducible assumption
    · with_reducible assumption

theorem State.tick_keeps {m : Nat} {s0 : State} (s : State) (h : s0.Keeps m s) (w : Within 0x3fffffff m := by exact Within.of (by assumption) (by decide)) :
    s0.Keeps m (State.tick s) := by
  unfold State.tick
  extract_lets a0 a1
  have k2 : s0.Keeps m a0 := by
    unfold a0
    with_reducible apply State.each_keeps
    · intro x3 x4 x5
      with_reducible apply State.coreStep_keeps (w := w.of (by decide))
      with_reducible assumption
    · with_reducible assumption
  clear_value a0
  have k6 : s0.Keeps m a1 := by
    unfold a1
    with_reducible apply State.countEvents_keeps (w := w.of (by decide))
    with_reducible apply State.countCycles_keeps (w := w.of (by decide))
    with_reducible apply State.countIdle_keeps (w := w.of (by decide))
    with_reducible apply State.unitCycle_keeps (w := w.of (by decide))
    with_reducible apply State.unitCycle_keeps (w := w.of (by decide))
    with_reducible assumption
  clear_value a1
  with_reducible apply State.setRef_keeps (w := w.of (by decide))
  with_reducible assumption

end Sys2Proof.Machine
end

