-- ==== Sys2Proof/Laws/Regs.lean ====
section
/-! SUPPORT. Read after write for registers, fields and bytes: what was written reads back, and every other register, field and byte
reads as before. -/

namespace Sys2Proof.Machine

/-- A register just written reads back. -/
theorem State.reg_setReg_same {s : State} (i : s.Inv) {off : Nat} (v : Word) (hd : isDiscovery off = false) :
    (s.setReg off v).reg off = v := by
  simp only [State.setReg, hd, State.reg, State.setRegs]
  exact KMap.get_set_same _ _ 0 _ _ i.regs

/-- Every other register reads as before. -/
theorem State.reg_setReg_other {s : State} {off off' : Nat} (v : Word) (h : off' ≠ off) :
    (s.setReg off v).reg off' = s.reg off' := by
  unfold State.setReg
  split
  · rfl
  · exact KMap.get_set_other _ _ _ _ _ h

/-- A register write keeps the invariant. -/
theorem State.setReg_inv {s : State} (i : s.Inv) (off : Nat) (v : Word) : (s.setReg off v).Inv :=
  (State.setReg_keeps off v (State.Keeps.refl s 8) (Within.refl 8)).inv i

/-- A field write keeps the invariant. -/
theorem State.wr_inv {s : State} (i : s.Inv) (f : Fld) (v : Nat) : (s.wr f v).Inv := State.setReg_inv i _ _

/-- A field that fits its register reads back from the word it was put into. -/
theorem Fld.get_put_same (f : Fld) (w : Word) (v : Nat) (hw : f.lo + f.w ≤ 32) : f.get (f.put w v) = v % 2 ^ f.w := by
  have hm : ∀ i, f.mask.getLsbD i = decide (i < f.w ∧ i < 32) := by
    intro i
    simp only [Fld.mask, BitVec.getLsbD_ofNat, Nat.testBit_two_pow_sub_one]
    by_cases h1 : i < 32 <;> by_cases h2 : i < f.w <;> simp [h1, h2]
  have e : (f.put w v >>> f.lo) &&& f.mask = BitVec.ofNat 32 v &&& f.mask := by
    apply BitVec.eq_of_getLsbD_eq
    intro i hi
    simp only [Fld.put, BitVec.getLsbD_and, BitVec.getLsbD_ushiftRight, BitVec.getLsbD_or, BitVec.getLsbD_not,
      BitVec.getLsbD_shiftLeft, hm]
    by_cases h2 : i < f.w
    · have h3 : f.lo + i < 32 := by omega
      have h4 : ¬ f.lo + i < f.lo := by omega
      simp [h2, h3, h4, hi]
    · simp [h2]
  rw [Fld.get, e]
  have : f.mask = BitVec.ofNat 32 (2 ^ f.w - 1) := rfl
  rw [this, BitVec.toNat_and, BitVec.toNat_ofNat, BitVec.toNat_ofNat]
  have hle : 2 ^ f.w ≤ 2 ^ 32 := Nat.pow_le_pow_right (by omega) (by omega)
  have hpos : 0 < 2 ^ f.w := Nat.two_pow_pos _
  rw [Nat.mod_eq_of_lt (show 2 ^ f.w - 1 < 2 ^ 32 by omega), Nat.and_two_pow_sub_one_eq_mod]
  exact Nat.mod_mod_of_dvd _ (Nat.pow_dvd_pow 2 (by omega))

/-- A field beside the one put into the word reads as before. -/
theorem Fld.get_put_other (f g : Fld) (w : Word) (v : Nat) (h : g.lo + g.w ≤ f.lo ∨ f.lo + f.w ≤ g.lo) :
    g.get (f.put w v) = g.get w := by
  have hm : ∀ (f : Fld) i, f.mask.getLsbD i = decide (i < f.w ∧ i < 32) := by
    intro f i
    simp only [Fld.mask, BitVec.getLsbD_ofNat, Nat.testBit_two_pow_sub_one]
    by_cases h1 : i < 32 <;> by_cases h2 : i < f.w <;> simp [h1, h2]
  have e : (f.put w v >>> g.lo) &&& g.mask = (w >>> g.lo) &&& g.mask := by
    apply BitVec.eq_of_getLsbD_eq
    intro i hi
    simp only [Fld.put, BitVec.getLsbD_and, BitVec.getLsbD_ushiftRight, BitVec.getLsbD_or, BitVec.getLsbD_not,
      BitVec.getLsbD_shiftLeft, hm]
    by_cases h6 : g.lo + i < 32
    · by_cases h2 : i < g.w
      · by_cases h3 : g.lo + i < f.lo
        · simp [h3, h6]
        · have h4 : ¬ g.lo + i - f.lo < f.w := by omega
          simp [h4, h6]
      · simp [h2]
    · simp [h6, BitVec.getLsbD_of_ge w (g.lo + i) (by omega)]
  rw [Fld.get, Fld.get, e]

/-- A field just written reads back. -/
theorem State.rd_wr_same {s : State} (i : s.Inv) {f : Fld} {v : Nat} (hd : isDiscovery f.off = false)
    (hw : f.lo + f.w ≤ 32) (hv : v < 2 ^ f.w) : (s.wr f v).rd f = v := by
  rw [State.rd, State.wr, State.reg_setReg_same i _ hd, Fld.get_put_same _ _ _ hw, Nat.mod_eq_of_lt hv]

/-- A field written with a value reads the value within its width. -/
theorem State.rd_wr_mod {s : State} (i : s.Inv) {f : Fld} {v : Nat} (hd : isDiscovery f.off = false)
    (hw : f.lo + f.w ≤ 32) : (s.wr f v).rd f = v % 2 ^ f.w := by
  rw [State.rd, State.wr, State.reg_setReg_same i _ hd, Fld.get_put_same _ _ _ hw]

/-- A field of another register reads as before. -/
theorem State.rd_wr_off {s : State} {f g : Fld} {v : Nat} (h : g.off ≠ f.off) : (s.wr f v).rd g = s.rd g := by
  rw [State.rd, State.wr, State.reg_setReg_other _ h, State.rd]

/-- Another field of the same register reads as before. -/
theorem State.rd_wr_fld {s : State} (i : s.Inv) {f g : Fld} {v : Nat} (h : g.off = f.off)
    (hg : g.lo + g.w ≤ f.lo ∨ f.lo + f.w ≤ g.lo) : (s.wr f v).rd g = s.rd g := by
  unfold State.rd State.wr
  by_cases hd : isDiscovery f.off = true
  · simp only [State.setReg, hd, if_true]
  · rw [h, State.reg_setReg_same i _ (by simpa using hd), Fld.get_put_other _ _ _ _ hg]

/-- A field is less than its range. -/
theorem State.rd_lt (s : State) (f : Fld) : s.rd f < 2 ^ f.w := by
  have : (f.mask).toNat ≤ 2 ^ f.w - 1 := by
    simp only [Fld.mask, BitVec.toNat_ofNat]
    exact Nat.mod_le _ _
  have hp : 0 < 2 ^ f.w := Nat.two_pow_pos _
  rw [State.rd, Fld.get, BitVec.toNat_and]
  have := Nat.and_le_right (n := ((s.reg f.off) >>> f.lo).toNat) (m := f.mask.toNat)
  omega

/-- A byte just stored reads back. -/
theorem State.byte_setByte_same {s : State} (i : s.Inv) (a : Nat) (b : Byte) : (s.setByte a b).byte a = b :=
  KMap.get_set_same _ _ 0 _ _ i.mem

/-- Every other byte reads as before. -/
theorem State.byte_setByte_other (s : State) {a a' : Nat} (b : Byte) (h : a' ≠ a) : (s.setByte a b).byte a' = s.byte a' :=
  KMap.get_set_other _ _ _ _ _ h

end Sys2Proof.Machine
end

