-- ==== Sys2Proof/Laws/Mirror.lean ====
section
/-! SUPPORT. What the mirror record of a register write touches (R413, R415): registers of the CUX block and MSI-X pending bits,
and the units' local SRAM. Every other register reads as before. -/

namespace Sys2Proof.Machine

/-- Only registers that satisfy `P` may differ between the two states. -/
def State.RegsOnly (P : Nat → Prop) (s t : State) : Prop := ∀ off, ¬ P off → t.reg off = s.reg off

/-- The registers a mirror record may touch: the CUX block's and the MSI-X pending bits. -/
def mirrorRegs (off : Nat) : Prop := off / 0x40000 = 4 ∨ (0x718000 ≤ off ∧ off < 0x718100)

/-- A state and itself. -/
theorem State.RegsOnly.refl (P : Nat → Prop) (s : State) : s.RegsOnly P s := fun _ _ => rfl

/-- A field write inside `P`. -/
theorem State.RegsOnly.wr {P : Nat → Prop} {s0 s : State} (h : s0.RegsOnly P s) (f : Fld) (v : Nat) (hf : P f.off) :
    s0.RegsOnly P (s.wr f v) := fun off hn => by
  have hne : off ≠ f.off := fun e => hn (by rw [e]; exact hf)
  rw [State.wr, State.reg_setReg_other _ hne, h off hn]

/-- A state with the same registers. -/
theorem State.RegsOnly.regs {P : Nat → Prop} {s0 s t : State} (h : s0.RegsOnly P s) (e : t.regs = s.regs) :
    s0.RegsOnly P t := fun off hn => by
  rw [State.reg, e]; exact h off hn

/-- A field of a register outside `P`. -/
theorem State.RegsOnly.rd {P : Nat → Prop} {s t : State} (h : s.RegsOnly P t) (g : Fld) (hn : ¬ P g.off) : t.rd g = s.rd g := by
  rw [State.rd, h _ hn, State.rd]

/-- An interrupt whose flag lies inside `P`, which holds the MSI-X pending bits. -/
theorem State.RegsOnly.irq {P : Nat → Prop} {s0 s : State} (h : s0.RegsOnly P s) (b : Nat) (f e : Fld) (hf : P f.off)
    (hm : ∀ off, 0x718000 ≤ off → off < 0x718100 → P off) : s0.RegsOnly P (s.irq b f e) := by
  unfold State.irq State.blockToHost State.raiseVec
  extract_lets s' g
  have k : s0.RegsOnly P s' := h.wr f 1 hf
  split
  · split
    · refine k.wr g 1 ?_
      have hv := State.rd_lt s' (F.HIF_IRQ_MAP_VECTOR b)
      have hw : (F.HIF_IRQ_MAP_VECTOR b).w = 11 := rfl
      rw [hw] at hv
      refine hm _ ?_ ?_
      · show 0x718000 ≤ 0x1C * 0x40000 + 0x18000 + 4 * (_ / 32)
        omega
      · show 0x1C * 0x40000 + 0x18000 + 4 * (_ / 32) < 0x718100
        omega
    · exact k
  · exact k

/-- The unit's interrupt flags lie in the CUX block. -/
theorem State.RegsOnly.unitIrq {s0 s : State} (h : s0.RegsOnly mirrorRegs s) (u bit : Nat) (hu : u < 2) :
    s0.RegsOnly mirrorRegs (s.unitIrq u bit) := by
  refine h.irq _ _ _ (.inl ?_) (fun off h1 h2 => .inr ⟨h1, h2⟩)
  show (0x100114 + 0x80 * u) / 0x40000 = 4
  omega

/-- A report to a unit lies in the CUX block. -/
theorem State.RegsOnly.cuxReport {s0 s : State} (h : s0.RegsOnly mirrorRegs s) (u code : Nat) (hu : u < 2) :
    s0.RegsOnly mirrorRegs (s.cuxReport u code) := by
  refine (h.wr _ _ (.inl ?_)).wr _ _ (.inl (by decide))
  show (0x100100 + 0x80 * u) / 0x40000 = 4
  omega

/-- A lost record touches the CUX block only. -/
theorem State.RegsOnly.recordLost {s0 s : State} (h : s0.RegsOnly mirrorRegs s) (u : Nat) (hu : u < 2) :
    s0.RegsOnly mirrorRegs (s.recordLost u) := by
  have h1 : s0.RegsOnly mirrorRegs ((s.inc F.CUX_UNDELIVERED_COUNT).setUnit u { s.unit u with lost := true }) :=
    (h.wr _ _ (.inl (by decide))).regs rfl
  have hs : ∀ {t}, s0.RegsOnly mirrorRegs t → s0.RegsOnly mirrorRegs (t.setSynced u false) := by
    intro t k
    unfold State.setSynced
    split
    · exact k
    · refine State.RegsOnly.unitIrq (k.wr _ _ (.inl ?_)) u 2 hu
      show (0x100100 + 0x80 * u) / 0x40000 = 4
      omega
  unfold State.recordLost
  extract_lets a1 a2
  split
  · split
    · refine State.RegsOnly.cuxReport ((hs h1).wr _ _ (.inl ?_)) u _ hu
      show (0x100100 + 0x80 * u) / 0x40000 = 4
      omega
    · exact hs h1
  · split
    · exact h1.cuxReport u _ hu
    · exact h1

/-- A record to one unit touches the CUX block and the MSI-X pending bits only. -/
theorem State.RegsOnly.mirrorTo {s0 s : State} (h : s0.RegsOnly mirrorRegs s) (u : Nat) (hu : u < 2) (src : Agent) (off : Nat)
    (size : Size) (val : Word) (held : Bool) (seq : Nat) :
    s0.RegsOnly mirrorRegs (s.mirrorTo u src off size val held seq) := by
  unfold State.mirrorTo
  extract_lets head tail fl rec16 a1 a2
  split
  · split
    · refine State.RegsOnly.unitIrq (State.RegsOnly.wr ?_ _ _ (.inl ?_)) u 5 hu
      · exact h.regs rfl
      · show (0x10011c + 0x80 * u) / 0x40000 = 4
        omega
    · exact h.recordLost u hu
  · exact h

/-- R413: the mirror record of a write touches the CUX block and the MSI-X pending bits only. -/
theorem State.mirror_regs (s : State) (src : Agent) (off : Nat) (size : Size) (val : Word) (held : Bool) :
    s.RegsOnly mirrorRegs (s.mirror src off size val held) :=
  State.RegsOnly.mirrorTo (State.RegsOnly.mirrorTo ((State.RegsOnly.refl _ s).wr _ _ (.inl (by decide))) 0 (by decide) src off size
    val held _) 1 (by decide) src off size val held _

end Sys2Proof.Machine
end

