-- ==== Sys2Proof/Laws/State.lean ====
section
/-! SUPPORT. What each field holds right after reset. The lemmas of every field under every setter (`State.setRegs_mem` and the
like) are made by `@[simps]` beside the setters in Machine/State.lean. -/

namespace Sys2Proof.Machine

@[simp] theorem State.reset_pending : State.reset.pending = [] := rfl
@[simp] theorem State.reset_ref : State.reset.ref = 0 := rfl
@[simp] theorem State.reset_free : State.reset.free = 0 := rfl
@[simp] theorem State.reset_readData : State.reset.readData = [] := rfl
@[simp] theorem State.reset_regs : State.reset.regs = [] := rfl
@[simp] theorem State.reset_mem : State.reset.mem = [] := rfl
@[simp] theorem State.reset_memGen : State.reset.memGen = [] := rfl
@[simp] theorem State.reset_seals : State.reset.seals = [] := rfl
@[simp] theorem State.reset_ckv : State.reset.ckv = [] := rfl
@[simp] theorem State.reset_str : State.reset.str = {} := rfl
@[simp] theorem State.reset_hq : State.reset.hq = {} := rfl
@[simp] theorem State.reset_sch : State.reset.sch = {} := rfl
@[simp] theorem State.reset_xlt : State.reset.xlt = {} := rfl
@[simp] theorem State.reset_movers : State.reset.movers = [] := rfl
@[simp] theorem State.reset_qdr : State.reset.qdr = {} := rfl
@[simp] theorem State.reset_eng : State.reset.eng = {} := rfl
@[simp] theorem State.reset_hif : State.reset.hif = {} := rfl
@[simp] theorem State.reset_cux : State.reset.cux = {} := rfl
@[simp] theorem State.reset_ptp : State.reset.ptp = {} := rfl
@[simp] theorem State.reset_tpo : State.reset.tpo = [] := rfl
@[simp] theorem State.reset_slk : State.reset.slk = [] := rfl
@[simp] theorem State.reset_intakes : State.reset.intakes = [] := rfl
@[simp] theorem State.reset_mag : State.reset.mag = {} := rfl
@[simp] theorem State.reset_enc : State.reset.enc = {} := rfl
@[simp] theorem State.reset_dec : State.reset.dec = {} := rfl
@[simp] theorem State.reset_cmp : State.reset.cmp = {} := rfl
@[simp] theorem State.reset_net : State.reset.net = {} := rfl
@[simp] theorem State.reset_aud : State.reset.aud = [] := rfl
@[simp] theorem State.reset_pwr : State.reset.pwr = {} := rfl
@[simp] theorem State.reset_boot : State.reset.boot = {} := rfl
@[simp] theorem State.reset_mnt : State.reset.mnt = {} := rfl
@[simp] theorem State.reset_upd : State.reset.upd = {} := rfl

end Sys2Proof.Machine
end

