-- ==== Sys2Proof/WellFormed.lean ====
section
/-! DEFINITION. Which commands are well formed: the lengths their byte strings must have and the ranges of their operands
beyond what the operand types already say. -/

namespace Sys2Proof

/-- An access touches at least one byte (R145). -/
def Access.wellFormed (a : Access) : Bool := decide (0 < a.len)

/-- R138: a burst is 16 data bytes. -/
def burstFlipsOk (b : BurstFlips) : Bool := decide (b.length = 16)

/-- R195: a packet has a header of 16 bytes and at most 65,535 bytes of payload. -/
def SlkPacket.wellFormed (p : SlkPacket) : Bool := decide (p.header.length = 16) && decide (p.payload.length < 65536)

/-- R286: 4:2:0 planes: the two chroma planes have equal lengths, a quarter of the luma plane's. -/
def DecPlanes.wellFormed (p : DecPlanes) : Bool :=
  decide (p.cb.length = p.cr.length) && decide (p.y.length = 4 * p.cb.length)

/-- The planes of an event's picture are of one size. -/
def DecEvent.wellFormed : DecEvent → Bool
  | .picture x => x.planes.wellFormed
  | _ => true

/-- The well-formed commands. (DESIGN CHOICE, log entry 128) -/
def Instr.wellFormed : Instr → Bool
  | .ckvDataWrite _ _ lane size _ => decide (lane.val + size.len ≤ 4)
  | .descriptorWriteDenied addr bytes => decide (addr.toNat + bytes.length ≤ 2 ^ 40)
  | .reservation qid reqs => !reqs.isEmpty && reqs.all (fun r => r.qid == qid.toNat)
  | .holeAccess acc => acc.wellFormed
  | .sysregWrite addr bytes => decide (addr.toNat + bytes.length ≤ 2 ^ 40)
  | .qdrReadCheck addr first second rmw => decide (addr.toNat % 16 = 0) && burstFlipsOk first && burstFlipsOk second &&
    (match rmw with
     | some w => !w.2.isEmpty && decide (w.1.val + w.2.length ≤ 16) && decide (w.2.length < 16)
     | none => true)
  | .translationFault acc _ _ => acc.wellFormed
  | .deskew _ skews _ => decide (skews.length ≤ 9)
  | .fs _ pkt _ => pkt.wellFormed
  | .fe _ pkt => pkt.wellFormed
  | .line _ pkt => pkt.wellFormed
  | .emb _ pkt => pkt.wellFormed
  | .cmdRsp _ pkt => pkt.wellFormed
  | .test _ pkt => pkt.wellFormed
  | .inboundRequest _ write _ len bytes => !write || decide (bytes.length = len.toNat)
  | .ctuRowCode _ row => !row.ctus.isEmpty && decide (row.pre.length ≤ 2048)
  | .decInputChunk events => events.all DecEvent.wellFormed
  | .samplePeriod _ din => decide (din.length ≤ 32)
  | .bar2Access _ len write => match write with
    | some b => decide (b.length = len.toNat)
    | none => true
  | .xspiGo _ _ resp => decide (resp.length ≤ 4096)
  | .i2cTransfer _ _ wrote _ => decide (wrote.length ≤ 16)
  | .telemetrySample _ _ temps => match temps with
    | some l => decide (l.length = 4)
    | none => true
  | .registerWrite .. | .sealHaltClr .. | .sealEvtPop .. | .clrCounts .. | .ckvStart .. | .ckvByteConsumed ..
  | .ckvResultRead .. | .load .. | .arm .. | .strCancel .. | .retireForce .. | .validationDone | .preparationDone
  | .timebaseEpoch .. | .timebaseLost .. | .hqAlloc .. | .hqQcfgWrite .. | .enable .. | .disable .. | .qcmdFree ..
  | .flush .. | .clearHighWater .. | .hqDbPush .. | .hqDbPop .. | .reservationRetry .. | .entryCommit ..
  | .entryPop .. | .taskCreate .. | .taskDispatch .. | .preemptRequest .. | .preemptGraceExpiry .. | .taskResume ..
  | .schCancel .. | .histClr .. | .loadWindowEnd | .clrHigh .. | .retrain .. | .driftLimit .. | .qdrErrPop ..
  | .xltSpaceReq .. | .spaceEnable .. | .spaceDisable .. | .spaceFree .. | .spaceRootWrite .. | .xltInvCmd ..
  | .invalidationDone | .faultQueueWaitEnd | .retry .. | .abort .. | .retrySpace .. | .dmaDb ..
  | .descriptorExecute .. | .descriptorComplete .. | .tget .. | .tput .. | .tchk .. | .qsig .. | .qwait .. | .ppt ..
  | .ecall .. | .engineTrap .. | .install .. | .libLoad .. | .libOperationDone | .cntClr .. | .groupEnable ..
  | .slkCntClr .. | .cdrLocked .. | .laneAligned .. | .laneAlignLoss .. | .tileRowEmit .. | .laneUnderrun ..
  | .seqStart .. | .seqStop .. | .seqEntry .. | .seqRspTimeout .. | .spareTakeover .. | .release .. | .spareMatch ..
  | .spareFail .. | .mirror .. | .testGo .. | .testRunEnd .. | .clockLost .. | .clockWindowEnd .. | .glitch ..
  | .magPortEnable .. | .magShutdownEnd .. | .hwqEn .. | .magLinkChange .. | .magPCfga .. | .extCountWrite ..
  | .frameAdmit .. | .recordingTile .. | .frameDrain | .nvmeCompletion .. | .magTimeout .. | .recordAcknowledged ..
  | .start .. | .stop .. | .takeAbort .. | .closing | .magLost .. | .encInputTile .. | .contextSwitch .. | .key ..
  | .markLt .. | .useLt .. | .encStreamEnable .. | .encShutdownEnd .. | .rateWrite .. | .decPictureOutput ..
  | .layerTile .. | .frameBoundary .. | .syncHoldover .. | .headEnable .. | .headUnderrun .. | .go ..
  | .commitCancel .. | .coefLoadDone .. | .sdiEnable .. | .netCfgWrite .. | .netPortEnable .. | .netLinkChange ..
  | .frameReceive .. | .softwareFrameTx .. | .senderTile .. | .senderPacketDue .. | .frameTransmit .. | .commit ..
  | .gateCancel .. | .gateListChange .. | .gateEntryChange .. | .tsnIdleWrite .. | .tsnHiWrite .. | .sync ..
  | .followUp .. | .delayResp .. | .announce .. | .ptpMasterLost | .ptpMasterSend .. | .ppsEdge | .ppsLost
  | .setTime .. | .adjust .. | .latch .. | .aoPpbMeasure .. | .tpoEnable .. | .tpoPulseStart .. | .tpoPulseEnd ..
  | .tpoCapture .. | .audTxTile .. | .audPortEnable .. | .txMute .. | .zcTimeout .. | .audClockChange ..
  | .audGroupWrite .. | .bar0Access .. | .cplTimeout .. | .hostReset .. | .msixMessage | .hifChDb ..
  | .hostOutTile .. | .hostInEntry .. | .uartReceive .. | .gpioEdge .. | .claim .. | .force .. | .yield ..
  | .ready .. | .declareFault .. | .clearFault .. | .drill .. | .cuxUKick .. | .selfFault .. | .jtxDb ..
  | .heartbeat .. | .pathDown .. | .switchOverGapEnd .. | .doorbellHold .. | .ownershipLost .. | .returnPref
  | .drillEnd | .underVoltageLockout .. | .overTemp .. | .tempWarn .. | .lowInput | .lowin1s | .sleep ..
  | .duskStepEnd | .wakeSource .. | .islandDemand .. | .islandAwake .. | .idleCountExpiry .. | .islandAsleep ..
  | .forceAwake .. | .clkFclkWrite .. | .clockSwitch .. | .clkCclkWrite .. | .coldStart .. | .porst ..
  | .warmReset .. | .restartUnit .. | .unitRelease .. | .keeperWatchdog | .kprHostGo .. | .fuseProgCmd .. | .idread
  | .idcode | .bistGo .. | .bistAbort .. | .bistRunning .. | .bistDone .. | .now .. | .calTempTrigger
  | .calPosition .. | .deferredActivityStart | .stage .. | .stagingDone .. | .activate .. | .activationPoint ..
  | .handoverStep | .handoverTimeout | .updCancel .. | .dmaTaskComplete .. | .hostLinkUp .. | .busMasterEnable ..
  | .delayReq .. | .minDelayReqInterval | .fuseReadBack .. | .dmi .. => true

end Sys2Proof
end

