-- ==== Sys2Proof/Tests/Slice0.lean ====
section
/-! SUPPORT. Tests: the well-formedness check refuses an ill-formed term for each of its checks; values the spec states; and a
witness for the hypotheses of every statement of Certificates/Slice0/Obligations.lean, clause by clause: `wit_<statement>_<clause>`
exhibits a state and operands that meet them together. Witnesses that rest on the uninterpreted hash and signature functions take
what those answer as their own hypotheses. -/

open Sys2Proof Sys2Proof.Machine

namespace Sys2Proof.Tests

set_option Elab.async false
set_option linter.unusedVariables false

/-- A state with these fields of registers written. -/
def put (s : State) (l : List (Fld × Nat)) : State := l.foldl (fun s e => s.wr e.1 e.2) s

/-- The word that holds these fields. -/
def mk (l : List (Fld × Nat)) : Word := l.foldl (fun w e => e.1.put w e.2) 0

/-- Morning: Phobos is the owner, the host link is up. -/
def day : State :=
  put (State.reset.setUnit 0 { portOpen := true })
    [(F.PWR_STATUS_DAY, 2), (F.CUX_U_STATE_STATE 0, 3), (F.CUX_OWNER_OWNER, 1), (F.HIF_STATUS_LINK, 1)]

/-- A tile that carries SEAL_ERR, with a seal that does not match. -/
def badTile : Tile := { hdr := { format := 0x0110, len16 := 1, flags := 2, crc := 1 }, payload := List.replicate 16 0 }

/-- A task of node 9 with local memory of 64 KiB, two ports each way and engine 3 or mover 3. -/
def job : Task :=
  { node := 9, nd := { id := 9, kind := 2, prio := 2, inPorts := 2, outPorts := 2, res := 8 }, kern := { lmSize := 0x8000, entry := 0x40 },
    level := 2, engine := 3, state := .running }

/-- A ready task of a higher level. -/
def urgent : Task := { job with node := 10, level := 6, engine := 0xFF, state := .ready }

/-- Morning with these tasks; task 0 runs on engine 3. -/
def withTasks (l : List (Nat × Option Task)) (p : List (Nat × Option Preempt)) : State :=
  { day with sch := { tasks := l, preempts := p }, eng := { engines := [(3, { running := some 0 })] } }

/-- A tile of 16 payload bytes with a good seal. -/
def goodTile : Tile := Tile.sealed { hdr := { format := 0x0500, len16 := 1, seq := 4 }, payload := List.replicate 16 7 }

/-- A packet of the sensor link: type, byte 1, the fields at 2, 6, 8 and 10, and the payload. -/
def packet (typ b1 f2 f6 f8 f10 : Nat) (payload : List Byte) : SlkPacket :=
  let h := leBytes 1 typ ++ leBytes 1 b1 ++ leBytes 2 f2 ++ leBytes 2 payload.length ++ leBytes 2 f6 ++ leBytes 2 f8 ++ leBytes 1 f10 ++ [0, 0, 0]
  { header := h ++ leBytes 2 (crc 2 0 h), payload := payload, crc := BitVec.ofNat 32 (crc 0 0 payload), errors := [] }

/-- A raw 8-bit picture format of 32 by 16 tiles, 64 by 32 pixels (its table body). -/
def rawFormat : List Byte :=
  leBytes 2 0x0110 ++ leBytes 2 32 ++ leBytes 2 16 ++ leBytes 2 64 ++ leBytes 2 32 ++ leBytes 2 2 ++ leBytes 2 2 ++ [0, 8, 1, 0] ++ List.replicate 14 0

/-- A SENSOR_INTAKE node of groups 0 and 1, channel 5, with metadata. -/
def intakeNode : Node :=
  { id := 9, kind := 1, stream := 3, pixfmt := 1, res := 3, outPorts := 1,
    params := [5, 1] ++ List.replicate 14 0 ++ leBytes 2 0 ++ leBytes 2 32 ++ leBytes 2 32 ++ leBytes 2 64 ++ List.replicate 8 0 }

/-- Morning with that intake, its groups up and this frame in progress. -/
def sensor (l : List IFrame) : State :=
  put ({ day with
    str := { active := some { nodes := [intakeNode], tables := [{ id := 1, kind := 1, addr := 0x100, bodyLen := 32 }] } }
    intakes := [(9, { frames := l, nextNum := 8, fcnt := some 7 })]
    slk := [(0, { seenFs := true }), (1, { seenFs := true })] }.setBytes 0x100 rawFormat)
    [(F.SLK_G_CFG_EN 0, 1), (F.SLK_G_CFG_EN 1, 1), (F.SLK_G_STATUS_GSTATE 0, 3), (F.SLK_G_STATUS_GSTATE 1, 3)]

/-- This tile waits in queue 5, with these entry flags. -/
def feed (s : State) (eflags : Nat) (t : Tile) : State :=
  ((s.setQueue 5 { state := qEnabled, base := 0x2000, entries := 4, count := 1, stride := 3 }).setBytes 0x2000
    ({ addr := 0x3000, eflags := eflags, len16 := t.hdr.len16, seq := t.hdr.seq } : RingEntry).bytes).setBytes 0x3000 t.bytes

/-- Morning with one node whose input port `port` is the edge of queue 5. -/
def oneNode (n : Node) (port : Nat) : State :=
  { day with str := { active := some { nodes := [n], edges := [{ qid := 5, prod := 1, cons := n.id, consPort := port, format := 0x0500, entries := 4 }] } } }

/-- A RECORD_WRITER node on four ports, of at most four tiles a frame. -/
def writer : Node := { id := 12, kind := 9, inPorts := 8, res := 15, params := List.replicate 16 0 ++ (List.replicate 8 (leBytes 4 4 ++ List.replicate 12 0)).flatten }

/-- The bytes of an NVMe completion of command 3 with phase 1. -/
def cqe (sf : Nat) : List Byte := List.replicate 12 0 ++ leBytes 2 3 ++ leBytes 2 (2 * sf + 1)

/-- An ENCODER node of context 31 on core 0; its input format is table 1. -/
def encoder : Node :=
  { id := 20, kind := 4, inPorts := 1, stream := 4, res := 31 * 256 + 1, tref := List.replicate 7 0 ++ [1],
    params := List.replicate 40 0 ++ [2, 0] ++ List.replicate 22 0 ++ [2] ++ List.replicate 19 0 ++ leBytes 4 90000 ++ List.replicate 40 0 }

/-- The encoder's format: 128 by 128 pixels in tiles of 64 by 64. -/
def encFormat : List Byte :=
  leBytes 2 0x0210 ++ leBytes 2 64 ++ leBytes 2 64 ++ leBytes 2 128 ++ leBytes 2 128 ++ leBytes 2 2 ++ leBytes 2 2 ++ List.replicate 18 0

/-- The structure with that encoder. -/
def encImage : Image :=
  { nodes := [encoder], tables := [{ id := 1, kind := 1, addr := 0x100, bodyLen := 32 }],
    edges := [{ qid := 5, prod := 1, cons := 20, format := 0x0500, entries := 4 }] }

/-- Morning with that encoder in this state, its stream enabled and core 0 awake. -/
def encoding (v : EncCtx) : State :=
  put { day.setBytes 0x100 encFormat with str := { active := some encImage }, enc := { ctxs := [(31, v)] } }
    [(F.ENC_S_CTRL_EN 31, 1), (F.PWR_ISL_STATE 0x10, 2)]

/-- A frame of 60 bytes to the broadcast address. -/
def etherFrame : List Byte := List.replicate 6 0xFF ++ List.replicate 6 2 ++ [0x08, 0x06] ++ List.replicate 46 0

/-- A PTP message on port 7, domain 127, from clock 9. -/
def ptpMsg : PtpMsg := { port := 7, domain := 0x7F, source := 9, seq := 0xFFFF, twoStep := true, timeNs := 5, correction := 0x10000 }

/-- Morning with network port 7 up as the PTP port. -/
def network : State :=
  put day [(F.NET_P_CTRL_EN 7, 1), (F.NET_P_STATUS_LINK 7, 1), (F.NET_P_CTRL_MAX_FRAME 7, 1518), (F.PTP_CFG_PORT, 7), (F.PTP_CFG_CLASS, 7)]

/-- A NET_SENDER node whose input 1 has this sender type. -/
def sender (typ : Nat) : Node :=
  { id := 30, kind := 7, inPorts := 2, tref := [0, 1], params := List.replicate 144 0 ++ [BitVec.ofNat 8 typ] ++ List.replicate 63 0 ++
      leBytes 2 1000 ++ leBytes 2 1 ++ leBytes 4 60 ++ leBytes 4 1 ++ List.replicate 80 0 }

/-- Morning with that node's input 1 as sender 63. -/
def sending (typ : Nat) (v : Sender) : State :=
  put { oneNode (sender typ) 1 with net := { senders := [(63, v)] } } [(F.NET_S_INFO_VALID 63, 1), (F.NET_S_INFO_NODE_ID 63, 30), (F.NET_S_INFO_IN_PORT 63, 1)]

/-- An audio node of port 3 in a direction, two slots, 16 periods a tile. -/
def audio (dir : Nat) : Node :=
  { id := 31, kind := 8, res := 3 + 256 * dir, inPorts := dir, outPorts := 1 - dir, params := leBytes 4 3 ++ leBytes 2 16 ++ List.replicate 10 0 }

/-- Morning: Deimos is current in STANDBY, both paths up. -/
def pair : State :=
  put { day with cux := { units := [(0, { portOpen := true }), (1, { sramGen := 0, kicked := 1 })] } }
    [(F.CUX_U_STATE_STATE 1, 2), (F.CUX_U_STATE_SYNCED 1, 1), (F.CUX_U_STATE_PATH_L 0, 1), (F.CUX_U_STATE_PATH_K 0, 1),
     (F.CUX_U_STATE_PATH_L 1, 1), (F.CUX_U_STATE_PATH_K 1, 1)]

/-- Morning: both units are SYNCING and there is no owner. -/
def lapsed : State := put State.reset [(F.PWR_STATUS_DAY, 2), (F.CUX_U_STATE_STATE 0, 1), (F.CUX_U_STATE_STATE 1, 1)]


/-- Morning with 1 GiB of QDR main memory trained, two bytes in it. -/
def qdrUp : State :=
  { put (day.setBytes 0x10000001E [5, 6]) [(F.QDR_STATUS_TRAINED, 255)] with qdr := { chans := 8, devs := 1 } }

/-- Task 0's job with a kernel at 0x100000. -/
def kernelJob : Task := { job with kern := { job.kern with codeAddr := 0x100000, codeLen := 0x40 } }

/-- Morning: engine 3 runs that kernel and stands at this word. -/
def kernelAt (w : Nat) : State :=
  { (withTasks [(0, some kernelJob)] []).setBytes 0x100000 (leBytes 4 w) with
    eng := { engines := [(3, { running := some 0, regs := { pc := 0x20000000, x := List.replicate 6 0 ++ [8, 0xFFFFFFFE] ++ List.replicate 24 0 } })] } }

/-- Morning: inbound window 15 leads to space 7, which maps one page. -/
def mapped : State :=
  put { day.setBytes 0x37FFFE [1, 2] with xlt := { spaces := [(7, { state := 2 })], tlb := [{ space := 7, page := 0x37F, pte := 0x37000D }] } }
    [(F.HIF_IW_CFG_EN 15, 1), (F.HIF_IW_CFG_IW_SPACE 15, 7), (F.HIF_IW_BASE_LO_BASE 15, 0x37F)]

/-- Morning with core 0 of Phobos about to execute this instruction from local SRAM; x5 points at 0x108 of it, where 8 bytes before stand
a number, and x6 holds 77. -/
def coreAt (w : Nat) : State :=
  let h := startHart 0 0
  let h := { h with x := (h.x.set 5 0x10000000108).set 6 77, csrs := [(0x305, 0x10000000201)] }
  ({ day with cux := { units := [(0, { portOpen := true, harts := [h] })] } }.sramWrite 0 0 (leBytes 4 w)).sramWrite 0 0x100
    (leBytes 8 0x8000000000000001)


/-! ### The well-formedness check refuses an ill-formed command for each of its checks -/

/-- A packet whose header is 15 bytes long. -/
def shortPacket : SlkPacket := { header := List.replicate 15 0, payload := [], crc := 0, errors := [] }

/-- An access of no bytes. -/
def noAccess : Access := { mesh := 0, translated := true, space := 0, addr := 0, len := 0, write := false, chan := 0 }

theorem test_wf_holeAccess : (Instr.holeAccess noAccess).wellFormed = false := by decide
theorem test_wf_translationFault : (Instr.translationFault noAccess ⟨0, 0, 0, 0, 0, 0⟩ 0).wellFormed = false := by decide
theorem test_wf_ckvDataWrite : (Instr.ckvDataWrite .phobos 0 3 .half 0).wellFormed = false := by decide
theorem test_wf_descriptorWriteDenied : (Instr.descriptorWriteDenied 0xFFFFFFFFFF [0, 0]).wellFormed = false := by decide
theorem test_wf_sysregWrite : (Instr.sysregWrite 0xFFFFFFFFFF [0, 0]).wellFormed = false := by decide
theorem test_wf_reservation_empty : (Instr.reservation 5 []).wellFormed = false := by decide
theorem test_wf_reservation_queue : (Instr.reservation 5 [{ mesh := 0, node := 0, slot := 0, stream := 0, n := 1, qid := 6, copies := [] }]).wellFormed = false := by decide
theorem test_wf_qdrReadCheck_address : (Instr.qdrReadCheck 8 (List.replicate 16 0) (List.replicate 16 0) none).wellFormed = false := by
  decide
theorem test_wf_qdrReadCheck_first : (Instr.qdrReadCheck 0 (List.replicate 15 0) (List.replicate 16 0) none).wellFormed = false := by
  decide
theorem test_wf_qdrReadCheck_second : (Instr.qdrReadCheck 0 (List.replicate 16 0) (List.replicate 17 0) none).wellFormed = false := by
  decide
theorem test_wf_qdrReadCheck_noBytes :
    (Instr.qdrReadCheck 0 (List.replicate 16 0) (List.replicate 16 0) (some (0, []))).wellFormed = false := by decide
theorem test_wf_qdrReadCheck_across :
    (Instr.qdrReadCheck 0 (List.replicate 16 0) (List.replicate 16 0) (some (15, [1, 2]))).wellFormed = false := by decide
theorem test_wf_qdrReadCheck_whole :
    (Instr.qdrReadCheck 0 (List.replicate 16 0) (List.replicate 16 0) (some (0, List.replicate 16 0))).wellFormed = false := by decide
theorem test_wf_deskew : (Instr.deskew 0 (List.replicate 10 0) true).wellFormed = false := by decide
theorem test_wf_fs : (Instr.fs 0 shortPacket false).wellFormed = false := by decide
theorem test_wf_fe : (Instr.fe 0 shortPacket).wellFormed = false := by decide
theorem test_wf_line : (Instr.line 0 shortPacket).wellFormed = false := by decide
theorem test_wf_emb : (Instr.emb 0 shortPacket).wellFormed = false := by decide
theorem test_wf_cmdRsp : (Instr.cmdRsp 0 shortPacket).wellFormed = false := by decide
theorem test_wf_test : (Instr.test 0 shortPacket).wellFormed = false := by decide
theorem test_wf_payload : (Instr.line 0 { header := List.replicate 16 0, payload := List.replicate 65536 0, crc := 0, errors := [] }).wellFormed = false := by
  have h : (List.replicate 65536 (0 : Byte)).length = 65536 := List.length_replicate
  simp only [Instr.wellFormed, SlkPacket.wellFormed, h]
  decide
theorem test_wf_inboundRequest : (Instr.inboundRequest 0 true 0 4 [1, 2, 3]).wellFormed = false := by decide
theorem test_wf_ctuRowCode : (Instr.ctuRowCode 0 { pre := [], header := 0, ctus := [], slice := [], recon := [] }).wellFormed = false := by decide
theorem test_wf_ctuRowCode_pre :
    (Instr.ctuRowCode 0 { pre := List.replicate 2049 0, header := 0, ctus := [(0, 0)], slice := [], recon := [] }).wellFormed = false := by
  have h : (List.replicate 2049 (0 : Byte)).length = 2049 := List.length_replicate
  simp only [Instr.wellFormed, h]
  decide
theorem test_wf_decInputChunk_chroma :
    (Instr.decInputChunk [.picture { planes := { y := [1, 1, 1, 1], cb := [1], cr := [] } }]).wellFormed = false := by decide
theorem test_wf_decInputChunk_luma :
    (Instr.decInputChunk [.picture { planes := { y := [1, 1, 1], cb := [1], cr := [1] } }]).wellFormed = false := by decide
theorem test_wf_samplePeriod : (Instr.samplePeriod 0 (List.replicate 33 0)).wellFormed = false := by decide
theorem test_wf_bar2Access : (Instr.bar2Access 0 4 (some [1, 2, 3])).wellFormed = false := by decide
theorem test_wf_xspiGo : (Instr.xspiGo .phobos 0 (List.replicate 4097 0)).wellFormed = false := by
  have h : (List.replicate 4097 (0 : Byte)).length = 4097 := List.length_replicate
  simp only [Instr.wellFormed, h]
  decide
theorem test_wf_i2cTransfer : (Instr.i2cTransfer 0 0 (List.replicate 17 0) .nack).wellFormed = false := by decide
theorem test_wf_telemetrySample : (Instr.telemetrySample 0 0 (some [1, 2, 3])).wellFormed = false := by decide

/-! ### Values the spec states -/

/-- The nine bytes "123456789". -/
def digits : List Byte := [0x31, 0x32, 0x33, 0x34, 0x35, 0x36, 0x37, 0x38, 0x39]

/-- The table of R38, value 0. -/
theorem test_crc32c : crc 0 0 digits = 0xE3069283 := by decide +kernel

/-- The table of R38, value 1. -/
theorem test_crc32 : crc 1 0 digits = 0xCBF43926 := by decide +kernel

/-- The table of R38, value 2. -/
theorem test_crc16 : crc 2 0 digits = 0x29B1 := by decide +kernel

/-- The tile of the worked example of R24. -/
def takeTile : Tile :=
  { hdr := { flags := 0x18, stream := 0x21, frame := 1024, seq := 8000, col := 0, row := 0xFFFF, format := 0x0500, len16 := 1,
             capSec := 123456, capNs := 250000000 },
    payload := [0x54, 0x41, 0x4B, 0x45, 0x20, 0x30, 0x30, 0x34, 0x32, 0x20, 0x52, 0x45, 0x45, 0x4C, 0x20, 0x41] }

/-- The worked example of R24: the header's bytes 0 to 27. -/
theorem test_header_bytes : takeTile.hdr.bytes.take 28 =
    [0xA7, 0x18, 0x21, 0x00, 0x00, 0x04, 0x00, 0x00, 0x40, 0x1F, 0x00, 0x00, 0x00, 0x00, 0xFF, 0xFF,
     0x00, 0x05, 0x01, 0x00, 0x40, 0xE2, 0x01, 0x00, 0x80, 0xB2, 0xE6, 0x0E] := by decide +kernel

/-- The worked example of R24: the seal. -/
theorem test_seal : sealOf takeTile.hdr takeTile.payload = 0xD9A51C62 := by decide +kernel

/-- R470: IDCODE. -/
theorem test_idcode : (match exec .idcode State.reset with | .next t => t.readData | _ => []) = [0x53, 0x8A, 0x12, 0x20] := by
  decide +kernel

/-- R1: FUSE_DISC_ID through BAR0. -/
theorem test_bar0_discovery : (match exec (.bar0Access false 0x800000 .word 0) day with | .next t => t.readData | _ => []) =
    [0x01, 0x42, 0x01, 0x54] := by decide +kernel

/-- The worked example of R367: the timecode 23:13:20:12. -/
theorem test_timecode : (put State.reset [(F.PTP_UTC_OFFSET, 37), (F.PTP_TC_LOCAL_V, 3600), (F.PTP_TC_CFG_TC_RATE, 2)]).timecode
    1700000037500000000 = 0x23132012 := by decide +kernel

/-- R514: a pulse on PORST below 10 µs is outside the spec. -/
theorem test_porst_short : (match exec (.porst 9) day with | .fault .porstPulseTooShort => true | _ => false) = true := by decide +kernel

/-- R431: under-voltage resets the part: it ends in Midnight. -/
theorem test_lockout : (match exec (.underVoltageLockout 4199) day with | .next t => t.rd F.PWR_STATUS_DAY | _ => 9) = 0 := by
  decide +kernel

/-- A step runs the command at the front and takes it off the queue. -/
theorem test_step_front : (match step (day.setPending [.idcode, .idread]) with | .next t => t.pending | _ => []) = [.idread] := by
  decide +kernel

/-- On an empty queue the block idles for one REF cycle. -/
theorem test_step_idle : (match step State.reset with | .next t => t.ref | _ => 0) = 1 := by decide +kernel

/-- R406: 1 / 3 in FP64, rounded to nearest, is inexact (RISC-V D, IEEE 754). -/
theorem test_fp64_third : fpDiv fmtD 0 0x3FF0000000000000 0x4008000000000000 = (0x3FD5555555555555, 1) := by decide +kernel

/-- R406: ADDIW adds in 32 bits and extends the sign (RV64I). -/
theorem test_addiw_wraps :
    (match ({ x := (List.replicate 32 0).set 5 0x7FFFFFFF } : UnitHart).act (mkI 0x1B 0 6 5 1) 4 with
     | .done h => h.rx 6
     | _ => 0) = 0xFFFFFFFF80000000 := by decide +kernel

/-- R406: C.LD x9, 8(x10) (RV64C) stands for LD. -/
theorem test_c_ld : expandC64 0b0110010100000100 = some 0x00853483 := by decide +kernel

/-- R409: a claim takes the pending source of the highest priority, the lowest of equals, and completion ends its service (PLIC). -/
theorem test_plic_claim :
    let p : PlicState := { prio := [(3, 2), (7, 5), (9, 5)], enable := [(0, 0x288)], pending := [3, 7, 9] }
    (p.read 0x200004).1 = 7 ∧ (p.read 0x200004).2.inService = [7] ∧ ((p.read 0x200004).2.write 0x200004 7).inService = [] := by
  decide +kernel

/-! ### The statements' hypotheses can be met -/

theorem wit_stepRunsFront_c1 : ∃ (c : Instr) (s : State) (rest : List Instr),
    s.pending = c :: rest :=
  ⟨.idcode, { day with pending := [.idcode] }, [], by decide +kernel⟩

theorem wit_stepRunsFront_c2 : ∃ (s : State),
    s.pending = [] :=
  ⟨State.reset, by decide +kernel⟩

theorem wit_stepKeepsInvariant : ∃ (s : State) (t : State),
    s.Inv ∧ step s = .next t :=
  ⟨day, day.tick, ⟨by decide +kernel, by decide +kernel, by decide +kernel⟩, by rfl⟩

theorem wit_sleepAndStageRefusals_c1_1 : ∃ (src : Agent) (val : Word) (s : State),
    s.Inv ∧ s.Passes src F.PWR_CTRL_SLEEP ∧ s.rd F.PWR_STATUS_DAY = 2 ∧ F.PWR_CTRL_FORCE.of val = 0 ∧ (s.rd F.MAG_STATUS_TAKE_STATE ≠ 0 ∨ (∃ c < 32, s.rd (F.ENC_S_CTRL_ON_AIR c) = 1)) :=
  ⟨.host, mk [(F.PWR_CTRL_SLEEP, 1)], day.wr F.MAG_STATUS_TAKE_STATE 2, ⟨by decide +kernel, by decide +kernel, by decide +kernel⟩, by unfold State.Passes; decide +kernel⟩

theorem wit_sleepAndStageRefusals_c1_1b : ∃ (src : Agent) (val : Word) (s : State),
    s.Inv ∧ s.Passes src F.PWR_CTRL_SLEEP ∧ s.rd F.PWR_STATUS_DAY = 2 ∧ F.PWR_CTRL_FORCE.of val = 0 ∧ (s.rd F.MAG_STATUS_TAKE_STATE ≠ 0 ∨ (∃ c < 32, s.rd (F.ENC_S_CTRL_ON_AIR c) = 1)) :=
  ⟨.phobos, mk [(F.PWR_CTRL_SLEEP, 1)], day.wr (F.ENC_S_CTRL_ON_AIR 31) 1, ⟨by decide +kernel, by decide +kernel, by decide +kernel⟩, by unfold State.Passes; decide +kernel⟩

theorem wit_sleepAndStageRefusals_c1_2 : ∃ (src : Agent) (val : Word) (s : State),
    s.Inv ∧ s.Passes src F.PWR_CTRL_SLEEP ∧ s.rd F.PWR_STATUS_DAY = 2 ∧ (F.PWR_CTRL_FORCE.of val = 1 ∨ (s.rd F.MAG_STATUS_TAKE_STATE = 0 ∧ ¬ (∃ c < 32, s.rd (F.ENC_S_CTRL_ON_AIR c) = 1))) ∧ s.updHolds = false :=
  ⟨.phobos, mk [(F.PWR_CTRL_SLEEP, 1), (F.PWR_CTRL_FORCE, 1)], day.wr F.MAG_STATUS_TAKE_STATE 2, ⟨by decide +kernel, by decide +kernel, by decide +kernel⟩, by unfold State.Passes; decide +kernel⟩

theorem wit_sleepAndStageRefusals_c1_2b : ∃ (src : Agent) (val : Word) (s : State),
    s.Inv ∧ s.Passes src F.PWR_CTRL_SLEEP ∧ s.rd F.PWR_STATUS_DAY = 2 ∧ (F.PWR_CTRL_FORCE.of val = 1 ∨ (s.rd F.MAG_STATUS_TAKE_STATE = 0 ∧ ¬ (∃ c < 32, s.rd (F.ENC_S_CTRL_ON_AIR c) = 1))) ∧ s.updHolds = false :=
  ⟨.phobos, mk [(F.PWR_CTRL_SLEEP, 1)], day, ⟨by decide +kernel, by decide +kernel, by decide +kernel⟩, by unfold State.Passes; decide +kernel⟩

theorem wit_sleepAndStageRefusals_c1_3 : ∃ (src : Agent) (val : Word) (s : State) (off : BitVec 24),
    s.Inv ∧ s.Passes src F.PWR_CTRL_SLEEP ∧ s.rd F.PWR_STATUS_DAY = 2 ∧ F.PWR_CTRL_SLEEP.of val = 0 ∧ F.PWR_CTRL_FORCE.of val = 1 ∧ off.toNat = F.PWR_CTRL_SLEEP.off :=
  ⟨.phobos, mk [(F.PWR_CTRL_FORCE, 1)], day, BitVec.ofNat 24 F.PWR_CTRL_SLEEP.off, ⟨by decide +kernel, by decide +kernel, by decide +kernel⟩, by unfold State.Passes; decide +kernel⟩

theorem wit_sleepAndStageRefusals_c2_1 : ∃ (src : Agent) (val : Word) (s : State),
    s.Inv ∧ s.Passes src F.UPD_CMD_STAGE ∧ F.UPD_CMD_ACTIVATE.of val = 0 ∧ F.UPD_CMD_CANCEL.of val = 0 ∧ (s.rd F.UPD_STATUS_STATE = 0 ∨ s.rd F.UPD_STATUS_STATE = 2 ∨ s.rd F.UPD_STATUS_STATE = 5) ∧ s.rd F.KPR_BOOT_SOURCE ≠ 3 ∧ ((s.rd F.MAG_STATUS_TAKE_STATE ≠ 0 ∨ (∃ c < 32, s.rd (F.ENC_S_CTRL_ON_AIR c) = 1)) ∨ (s.rd F.PWR_STATUS_LOWIN_1S) = 1 ∨ (s.rd F.FUSE_LOCKS_OWNER_LOCK) = 1) :=
  ⟨.phobos, mk [(F.UPD_CMD_STAGE, 1)], day.wr (F.ENC_S_CTRL_ON_AIR 0) 1, ⟨by decide +kernel, by decide +kernel, by decide +kernel⟩, by unfold State.Passes; decide +kernel⟩

theorem wit_sleepAndStageRefusals_c2_1b : ∃ (src : Agent) (val : Word) (s : State),
    s.Inv ∧ s.Passes src F.UPD_CMD_STAGE ∧ F.UPD_CMD_ACTIVATE.of val = 0 ∧ F.UPD_CMD_CANCEL.of val = 0 ∧ (s.rd F.UPD_STATUS_STATE = 0 ∨ s.rd F.UPD_STATUS_STATE = 2 ∨ s.rd F.UPD_STATUS_STATE = 5) ∧ s.rd F.KPR_BOOT_SOURCE ≠ 3 ∧ ((s.rd F.MAG_STATUS_TAKE_STATE ≠ 0 ∨ (∃ c < 32, s.rd (F.ENC_S_CTRL_ON_AIR c) = 1)) ∨ (s.rd F.PWR_STATUS_LOWIN_1S) = 1 ∨ (s.rd F.FUSE_LOCKS_OWNER_LOCK) = 1) :=
  ⟨.phobos, mk [(F.UPD_CMD_STAGE, 1)], put day [(F.UPD_STATUS_STATE, 5), (F.PWR_STATUS_LOWIN_1S, 1), (F.FUSE_LOCKS_OWNER_LOCK, 1)], ⟨by decide +kernel, by decide +kernel, by decide +kernel⟩, by unfold State.Passes; decide +kernel⟩

theorem wit_sleepAndStageRefusals_c2_2 : ∃ (src : Agent) (val : Word) (s : State),
    s.Inv ∧ s.Passes src F.UPD_CMD_STAGE ∧ F.UPD_CMD_ACTIVATE.of val = 0 ∧ F.UPD_CMD_CANCEL.of val = 0 ∧ (s.rd F.UPD_STATUS_STATE = 0 ∨ s.rd F.UPD_STATUS_STATE = 2 ∨ s.rd F.UPD_STATUS_STATE = 5) ∧ s.rd F.KPR_BOOT_SOURCE = 3 :=
  ⟨.phobos, mk [(F.UPD_CMD_STAGE, 1)], put day [(F.KPR_BOOT_SOURCE, 3), (F.UPD_STATUS_STATE, 2), (F.MAG_STATUS_TAKE_STATE, 1)], ⟨by decide +kernel, by decide +kernel, by decide +kernel⟩, by unfold State.Passes; decide +kernel⟩

theorem wit_tileHeaderAndOrder_c1_1 : ∃ (a : Nat) (b : Nat),
    a < 2 ^ 32 ∧ b < 2 ^ 32 ∧ ((a : Int) - b) % 2 ^ 32 = 2 ^ 31 :=
  ⟨2 ^ 31, 0, by decide +kernel⟩

theorem wit_tileHeaderAndOrder_c1_0 : ∃ (a : Nat) (b : Nat),
    a < 2 ^ 32 ∧ b < 2 ^ 32 :=
  ⟨0, 2 ^ 32 - 1, by decide +kernel⟩

theorem wit_repeatedMismatch_c1 : ∃ (ed : Edge) (mesh : Nat) (x : Tile) (s : State),
    s.Inv ∧ (s.queue ed.qid).halted = false ∧ x.hdr.valid = true ∧ x.hdr.flag 1 = true ∧ sealOf x.hdr x.payload ≠ x.hdr.crc ∧ ed.policy = 0 :=
  ⟨{ qid := 7, policy := 0 }, 3, badTile, day, ⟨by decide +kernel, by decide +kernel, by decide +kernel⟩, by decide +kernel⟩

theorem wit_repeatedMismatch_c2 : ∃ (ed : Edge) (mesh : Nat) (x : Tile) (s : State),
    s.Inv ∧ (s.queue ed.qid).halted = false ∧ x.hdr.valid = true ∧ x.hdr.flag 1 = true ∧ sealOf x.hdr x.payload ≠ x.hdr.crc ∧ ed.policy = 1 :=
  ⟨{ qid := 7, policy := 1 }, 3, badTile, day.wr F.SEAL_SUBST_COUNT_COUNT 0xFFFFFFFF, ⟨by decide +kernel, by decide +kernel, by decide +kernel⟩, by decide +kernel⟩

theorem wit_repeatedMismatch_c3 : ∃ (ed : Edge) (mesh : Nat) (x : Tile) (s : State),
    s.Inv ∧ (s.queue ed.qid).halted = false ∧ x.hdr.valid = true ∧ x.hdr.flag 1 = true ∧ sealOf x.hdr x.payload ≠ x.hdr.crc ∧ ed.policy = 2 :=
  ⟨{ qid := 7, policy := 2 }, 3, badTile, day, ⟨by decide +kernel, by decide +kernel, by decide +kernel⟩, by decide +kernel⟩

theorem wit_repeatedMismatch_c0 : ∃ (ed : Edge) (mesh : Nat) (x : Tile) (s : State),
    s.Inv ∧ (s.queue ed.qid).halted = false ∧ x.hdr.valid = true ∧ x.hdr.flag 1 = true ∧ sealOf x.hdr x.payload ≠ x.hdr.crc :=
  ⟨{ qid := 7, policy := 0 }, 3, badTile, day.wr F.SEAL_REPEAT_COUNT_COUNT 0xFFFFFFFE, ⟨by decide +kernel, by decide +kernel, by decide +kernel⟩, by decide +kernel⟩

theorem wit_nullQueue_c1 : ∃ (src : Agent) (pairB : Bool) (val : Word) (s : State) (t : State),
    exec (.hqAlloc src pairB val) s = .next t :=
  ⟨.phobos, true, mk [(F.HQ_ALLOC_A_QID, 0xFFFF)], State.reset, State.reset, by rfl⟩

theorem wit_nullQueue_c2 : ∃ (src : Agent) (which : Fin 3) (val : Word) (s : State) (t : State),
    exec (.hqQcfgWrite src which val) s = .next t ∧ s.rd F.HQ_QSEL_QID = 0xFFFF :=
  ⟨.phobos, 2, 8, State.reset.wr F.HQ_QSEL_QID 0xFFFF, State.reset.wr F.HQ_QSEL_QID 0xFFFF, by rfl, by decide +kernel⟩

theorem wit_nullQueue_c3 : ∃ (src : Agent) (val : Word) (s : State),
    s.Passes src F.HQ_DB_PUSH_QID ∧ F.HQ_DB_PUSH_QID.of val = 0xFFFF :=
  ⟨.phobos, mk [(F.HQ_DB_PUSH_QID, 0xFFFF), (F.HQ_DB_PUSH_COUNT, 1)], day, by unfold State.Passes; decide +kernel⟩

theorem wit_nullQueue_c4 : ∃ (src : Agent) (val : Word) (s : State),
    s.Passes src F.HQ_DB_POP_QID ∧ F.HQ_DB_POP_QID.of val = 0xFFFF :=
  ⟨.host, mk [(F.HQ_DB_POP_QID, 0xFFFF), (F.HQ_DB_PUSH_COUNT, 1)], day, by unfold State.Passes; decide +kernel⟩

theorem wit_sealBlockComplete_c1 : ∃ (src : Agent) (val : Word) (s : State),
    s.Passes src F.SEAL_HALT_CLR_QID ∧ (s.queue (F.SEAL_HALT_CLR_QID.of val)).halted = true :=
  ⟨.phobos, mk [(F.SEAL_HALT_CLR_QID, 7)], day.setQueue 7 { state := qEnabled, halted := true }, by unfold State.Passes; decide +kernel⟩

theorem wit_sealBlockComplete_c2 : ∃ (src : Agent) (val : Word) (s : State),
    s.Inv ∧ s.Passes src F.SEAL_EVT_POP_POP ∧ F.SEAL_EVT_POP_POP.of val = 1 :=
  ⟨.phobos, 1, put day [(F.SEAL_STATUS_EVT_VALID, 1), (F.SEAL_STATUS_HALTED_EDGES, 2)], ⟨by decide +kernel, by decide +kernel, by decide +kernel⟩, by unfold State.Passes; decide +kernel⟩

theorem wit_sealBlockComplete_c3 : ∃ (src : Agent) (val : Word) (inc : BitVec 6) (s : State),
    s.Inv ∧ s.Passes src F.SEAL_CTRL_CLR_COUNTS :=
  ⟨.host, mk [(F.SEAL_CTRL_CLR_COUNTS, 1)], 0b100001, put day [(F.SEAL_MISMATCH_COUNT_COUNT, 9), (F.SEAL_EVT_LOST_COUNT, 3), (F.SEAL_REPEAT_COUNT_COUNT, 5), (F.SEAL_DROP_COUNT_COUNT, 4)], ⟨by decide +kernel, by decide +kernel, by decide +kernel⟩, by unfold State.Passes; decide +kernel⟩

theorem wit_sealBlockComplete_c4 : ∃ (src : Agent) (unit : Fin 4) (val : Word) (s : State),
    s.Inv ∧ s.Passes src (F.CKV_CTRL_START unit) ∧ (s.ckvUnit unit).cur = [] ∧ (s.ckvUnit unit).buf = none ∧ (F.CKV_CTRL_ALG unit).of val < 3 :=
  ⟨.phobos, 3, mk [(F.CKV_CTRL_START 3, 1), (F.CKV_CTRL_ALG 3, 2)], put day [(F.CKV_FOLD_FOLD 3, 0x12345678), (F.CKV_COUNT_BYTES 3, 9), (F.CKV_STAT_ALG_ERR 3, 1)], ⟨by decide +kernel, by decide +kernel, by decide +kernel⟩, by unfold State.Passes; decide +kernel⟩

theorem wit_sealBlockComplete_c5 : ∃ (src : Agent) (unit : Fin 4) (lane : Fin 4) (size : Size) (val : Word) (s : State),
    s.Inv ∧ s.gate src ((F.CKV_DATA_DATA unit).off + lane) = .pass true ∧ (s.ckvUnit unit).cur = [] ∧ (s.ckvUnit unit).buf = none ∧ s.rd (F.CKV_STAT_ALG_ERR unit) = 0 ∧ lane.val % size.len = 0 :=
  ⟨.phobos, 1, 2, .half, 0xABCD, day, ⟨by decide +kernel, by decide +kernel, by decide +kernel⟩, by decide +kernel⟩

theorem wit_sealBlockComplete_c5b : ∃ (src : Agent) (unit : Fin 4) (lane : Fin 4) (size : Size) (val : Word) (s : State),
    s.Inv ∧ s.gate src ((F.CKV_DATA_DATA unit).off + lane) = .pass true ∧ (s.ckvUnit unit).cur = [] ∧ (s.ckvUnit unit).buf = none ∧ s.rd (F.CKV_STAT_ALG_ERR unit) = 0 ∧ lane.val % size.len = 0 :=
  ⟨.phobos, 1, 3, .byte, 0xABCD, day, ⟨by decide +kernel, by decide +kernel, by decide +kernel⟩, by decide +kernel⟩

theorem wit_sealBlockComplete_c6 : ∃ (unit : Fin 4) (b : Byte) (l : List Byte) (s : State),
    s.Inv ∧ (s.ckvUnit unit).cur = b :: l ∧ (s.ckvUnit unit).buf = none ∧ (l ≠ [] ∨ (s.ckvUnit unit).alg ≠ 0) :=
  ⟨1, 0x31, [0x32], day.setCkv [(1, { alg := 0, cur := [0x31, 0x32] })], ⟨by decide +kernel, by decide +kernel, by decide +kernel⟩, by decide +kernel⟩

theorem wit_sealBlockComplete_c6b : ∃ (unit : Fin 4) (b : Byte) (l : List Byte) (s : State),
    s.Inv ∧ (s.ckvUnit unit).cur = b :: l ∧ (s.ckvUnit unit).buf = none ∧ (l ≠ [] ∨ (s.ckvUnit unit).alg ≠ 0) :=
  ⟨3, 0x31, [], (day.setCkv [(3, { alg := 2, cur := [0x31] })]).wr (F.CKV_REG_REG 3) 0xFFFF, ⟨by decide +kernel, by decide +kernel, by decide +kernel⟩, by decide +kernel⟩

theorem wit_sealBlockComplete_c7 : ∃ (unit : Fin 4) (which : Fin 3) (s : State),
    (s.ckvUnit unit).cur = [] ∧ (s.ckvUnit unit).buf = none :=
  ⟨2, 1, day.wr (F.CKV_REG_REG 2) 0xDEADBEEF, by decide +kernel⟩

theorem wit_structureCommandsComplete_c1 : ∃ (src : Agent) (val : Word) (s : State),
    s.Inv ∧ s.Passes src F.STR_CTRL_LOAD ∧ F.STR_CTRL_ARM.of val = 0 ∧ F.STR_CTRL_CANCEL.of val = 0 ∧ F.STR_CTRL_RETIRE_FORCE.of val = 0 ∧ (s.shadowState = 0 ∨ s.shadowState = 2 ∨ s.shadowState = 6) :=
  ⟨.phobos, mk [(F.STR_CTRL_LOAD, 1)], put day [(F.STR_IMG_ADDR_LO_ADDR, 0x0FFFFFFF), (F.STR_IMG_ADDR_HI_ADDR, 1), (F.STR_IMG_LEN_LEN, 4096), (F.STR_STATUS_SHADOW_STATE, 6), (F.STR_STATUS_STATUS, 0x0F04)], ⟨by decide +kernel, by decide +kernel, by decide +kernel⟩, by unfold State.Passes; decide +kernel⟩

theorem wit_structureCommandsComplete_c2 : ∃ (src : Agent) (val : Word) (s : State),
    s.Inv ∧ s.Passes src F.STR_CTRL_ARM ∧ F.STR_CTRL_LOAD.of val = 0 ∧ F.STR_CTRL_CANCEL.of val = 0 ∧ F.STR_CTRL_RETIRE_FORCE.of val = 0 ∧ (s.shadowState = 1 ∨ s.shadowState = 2) ∧ s.rd F.STR_EPOCH_MODE ≠ 3 ∧ ((if s.rd F.STR_EPOCH_MODE = 0 then s.str.active = none else (s.image.tbs.find? (fun x => x.id == s.rd F.STR_EPOCH_TIMEBASE)).isSome = true)) :=
  ⟨.phobos, mk [(F.STR_CTRL_ARM, 1)], put { day with str := { shadow := some {} } } [(F.STR_STATUS_SHADOW_STATE, 1), (F.STR_EPOCH_MODE, 0), (F.STR_CARRY_COUNT_COUNT, 5)], ⟨by decide +kernel, by decide +kernel, by decide +kernel⟩, by unfold State.Passes; decide +kernel⟩

theorem wit_structureCommandsComplete_c2b : ∃ (src : Agent) (val : Word) (s : State),
    s.Inv ∧ s.Passes src F.STR_CTRL_ARM ∧ F.STR_CTRL_LOAD.of val = 0 ∧ F.STR_CTRL_CANCEL.of val = 0 ∧ F.STR_CTRL_RETIRE_FORCE.of val = 0 ∧ (s.shadowState = 1 ∨ s.shadowState = 2) ∧ s.rd F.STR_EPOCH_MODE ≠ 3 ∧ ((if s.rd F.STR_EPOCH_MODE = 0 then s.str.active = none else (s.image.tbs.find? (fun x => x.id == s.rd F.STR_EPOCH_TIMEBASE)).isSome = true)) :=
  ⟨.host, mk [(F.STR_CTRL_ARM, 1)], put { day with str := { active := some { tbs := [{ id := 15, kind := 3 }] }, shadow := some {}, validated := true } } [(F.STR_STATUS_SHADOW_STATE, 2), (F.STR_EPOCH_MODE, 2), (F.STR_EPOCH_TIMEBASE, 15)], ⟨by decide +kernel, by decide +kernel, by decide +kernel⟩, by unfold State.Passes; decide +kernel⟩

theorem wit_structureCommandsComplete_c3 : ∃ (src : Agent) (val : Word) (s : State),
    s.Inv ∧ s.Passes src F.STR_CTRL_CANCEL ∧ F.STR_CTRL_LOAD.of val = 0 ∧ F.STR_CTRL_ARM.of val = 0 ∧ F.STR_CTRL_RETIRE_FORCE.of val = 0 ∧ (s.shadowState = 1 ∨ s.shadowState = 2 ∨ s.shadowState = 6) :=
  ⟨.phobos, mk [(F.STR_CTRL_CANCEL, 1)], put { day with str := { shadow := some {} } } [(F.STR_STATUS_SHADOW_STATE, 6), (F.STR_SHADOW_ID_IMAGE_ID, 4), (F.STR_STATUS_STATUS, 0x0F04)], ⟨by decide +kernel, by decide +kernel, by decide +kernel⟩, by unfold State.Passes; decide +kernel⟩

theorem wit_structureCommandsComplete_c4 : ∃ (src : Agent) (val : Word) (s : State),
    s.Inv ∧ s.Passes src F.STR_CTRL_RETIRE_FORCE ∧ F.STR_CTRL_LOAD.of val = 0 ∧ F.STR_CTRL_ARM.of val = 0 ∧ F.STR_CTRL_CANCEL.of val = 0 ∧ s.shadowState = 5 :=
  ⟨.phobos, mk [(F.STR_CTRL_RETIRE_FORCE, 1)], day.wr F.STR_STATUS_SHADOW_STATE 5, ⟨by decide +kernel, by decide +kernel, by decide +kernel⟩, by unfold State.Passes; decide +kernel⟩

theorem wit_structureEventsComplete_c2 : ∃ (i : Image) (f : Fail) (s : State),
    s.Inv ∧ s.str.shadow = some i ∧ s.shadowState = 1 ∧ s.str.validated = false ∧ s.validate i.addr i.len = .inl f :=
  ⟨{ addr := 0, len := 63 }, { code := 0x0F04, sec := 63, off := 0 }, { day with str := { shadow := some { addr := 0, len := 63 } } }.wr F.STR_STATUS_SHADOW_STATE 1, ⟨by decide +kernel, by decide +kernel, by decide +kernel⟩, by decide +kernel⟩

theorem wit_structureEventsComplete_c3 : ∃ (i : Image) (a : Arm) (s : State),
    s.Inv ∧ s.str.shadow = some i ∧ s.str.armed = some a ∧ s.shadowState = 3 ∧ s.str.validated = true ∧ a.mode ≠ 0 :=
  ⟨{ tableOnly := true }, { mode := 1 }, { day with str := { shadow := some { tableOnly := true }, armed := some { mode := 1 }, validated := true } }.wr F.STR_STATUS_SHADOW_STATE 3, ⟨by decide +kernel, by decide +kernel, by decide +kernel⟩, by decide +kernel⟩

theorem wit_structureEventsComplete_c4 : ∃ (tb : Fin 16) (x : Timebase) (s : State),
    (s.image.tbs.find? (fun y => y.id == tb.val && y.kind == 3) = some x) ∧ s.str.armed = none :=
  ⟨15, { id := 15, kind := 3 }, { day with str := { active := some { tbs := [{ id := 15, kind := 3 }] } } }, by decide +kernel⟩

theorem wit_structureEventsComplete_c5 : ∃ (tb : Fin 16) (x : Timebase) (i : Image) (a : Arm) (s : State),
    s.Inv ∧ (s.image.tbs.find? (fun y => y.id == tb.val && y.kind == 3) = some x) ∧ s.str.armed = some a ∧ s.str.shadow = some i ∧ a.tb = tb.val ∧ a.mode = 2 ∧ s.shadowState = 4 :=
  ⟨0, { id := 0, kind := 3 }, { id := 9 }, { mode := 2, tb := 0 }, { day with str := { active := some { tbs := [{ id := 0, kind := 3 }] }, shadow := some { id := 9 }, armed := some { mode := 2, tb := 0 }, validated := true } }.wr F.STR_STATUS_SHADOW_STATE 4, ⟨by decide +kernel, by decide +kernel, by decide +kernel⟩, by decide +kernel⟩

theorem wit_structureEventsComplete_c6 : ∃ (tb : Fin 16) (x : Timebase) (i : Image) (a : Arm) (s : State),
    s.Inv ∧ (s.image.tbs.find? (fun y => y.id == tb.val && y.kind == 3) = some x) ∧ s.str.armed = some a ∧ s.str.shadow = some i ∧ a.tb = tb.val ∧ a.mode = 2 ∧ s.shadowState = 4 :=
  ⟨0, { id := 0, kind := 3 }, { id := 9 }, { mode := 2, tb := 0 }, { day with str := { active := some { tbs := [{ id := 0, kind := 3 }] }, shadow := some { id := 9 }, armed := some { mode := 2, tb := 0 }, validated := true } }.wr F.STR_STATUS_SHADOW_STATE 4, ⟨by decide +kernel, by decide +kernel, by decide +kernel⟩, by decide +kernel⟩

theorem wit_structureEventsComplete_c7 : ∃ (tb : Fin 16) (x : Timebase) (a : Arm) (s : State),
    s.Inv ∧ (s.image.tbs.find? (fun y => y.id == tb.val && y.kind == 3) = some x) ∧ s.str.armed = some a ∧ a.tb = tb.val ∧ a.mode = 1 ∧ s.shadowState = 3 ∧ (a.next = true ∨ (s.epochNow x).getD 0 = a.target ∨ later ((s.epochNow x).getD 0) a.target = true) :=
  ⟨15, { id := 15, kind := 3 }, { mode := 1, tb := 15, target := 7, next := true }, put { day with str := { active := some { tbs := [{ id := 15, kind := 3 }] }, shadow := some { id := 9 }, armed := some { mode := 1, tb := 15, target := 7, next := true }, validated := true } } [(F.STR_STATUS_SHADOW_STATE, 3), (F.STR_CARRY_COUNT_COUNT, 0xFFFFFFFF)], ⟨by decide +kernel, by decide +kernel, by decide +kernel⟩, by decide +kernel⟩

theorem wit_structureEventsComplete_c8 : ∃ (tb : Fin 16) (x : Timebase) (a : Arm) (s : State),
    s.Inv ∧ s.str.armed = some a ∧ (s.image.tbs.find? (fun y => y.id == tb.val) = some x) ∧ a.mode ≠ 0 ∧ a.tb = tb.val ∧ s.str.lostTbs.contains tb.val = false ∧ s.sourceLost x = true :=
  ⟨4, { id := 4, kind := 1, source := 2 }, { mode := 2, tb := 4, target := 9 }, { day with str := { active := some { tbs := [{ id := 4, kind := 1, source := 2 }] }, armed := some { mode := 2, tb := 4, target := 9 } } }, ⟨by decide +kernel, by decide +kernel, by decide +kernel⟩, by decide +kernel⟩

theorem wit_queueCommandsComplete_c1 : ∃ (src : Agent) (pairB : Bool) (val : Word) (s : State),
    s.Inv ∧ (s.Passes src (if pairB then F.HQ_ALLOC_B_QID else F.HQ_ALLOC_A_QID)) ∧ F.HQ_ALLOC_A_QID.of val ≠ 0xFFFF ∧ (s.queue (F.HQ_ALLOC_A_QID.of val)).state = qFree :=
  ⟨.phobos, true, mk [(F.HQ_ALLOC_A_QID, 0xFFFE)], day, ⟨by decide +kernel, by decide +kernel, by decide +kernel⟩, by unfold State.Passes; decide +kernel⟩

theorem wit_queueCommandsComplete_c2 : ∃ (src : Agent) (which : Fin 3) (val : Word) (s : State),
    s.Passes src (match which with | 0 => F.HQ_QCFG_BASE_LO_ADDR | 1 => F.HQ_QCFG_BASE_HI_ADDR | 2 => F.HQ_QCFG_SIZE_NOTIFY) ∧ s.rd F.HQ_QSEL_QID ≠ 0xFFFF ∧ (s.queue (s.rd F.HQ_QSEL_QID)).state = qDisabled :=
  ⟨.phobos, 2, 0xFFFF8000, (day.setQueue 5 { state := qDisabled, base := 0x100000000 }).wr F.HQ_QSEL_QID 5, by unfold State.Passes; decide +kernel⟩

theorem wit_queueCommandsComplete_c2b : ∃ (src : Agent) (which : Fin 3) (val : Word) (s : State),
    s.Passes src (match which with | 0 => F.HQ_QCFG_BASE_LO_ADDR | 1 => F.HQ_QCFG_BASE_HI_ADDR | 2 => F.HQ_QCFG_SIZE_NOTIFY) ∧ s.rd F.HQ_QSEL_QID ≠ 0xFFFF ∧ (s.queue (s.rd F.HQ_QSEL_QID)).state = qDisabled :=
  ⟨.phobos, 1, 0x1FF, (day.setQueue 5 { state := qDisabled, base := 0x123456780 }).wr F.HQ_QSEL_QID 5, by unfold State.Passes; decide +kernel⟩

theorem wit_queueCommandsComplete_c3_1 : ∃ (src : Agent) (s : State),
    s.Passes src F.HQ_QCMD_CMD ∧ s.rd F.HQ_QSEL_QID ≠ 0xFFFF ∧ (s.queue (s.rd F.HQ_QSEL_QID)).state = qDisabled ∧ s.ringOk (s.queue (s.rd F.HQ_QSEL_QID)) = true :=
  ⟨.phobos, (day.setQueue 5 { state := qDisabled, base := 0x100, entries := 1 }).wr F.HQ_QSEL_QID 5, by unfold State.Passes; decide +kernel⟩

theorem wit_queueCommandsComplete_c3_2 : ∃ (src : Agent) (s : State),
    s.Passes src F.HQ_QCMD_CMD ∧ s.rd F.HQ_QSEL_QID ≠ 0xFFFF ∧ (s.queue (s.rd F.HQ_QSEL_QID)).state = qEnabled :=
  ⟨.phobos, (day.setQueue 5 { state := qEnabled, base := 0x100, entries := 1, count := 1 }).wr F.HQ_QSEL_QID 5, by unfold State.Passes; decide +kernel⟩

theorem wit_queueCommandsComplete_c3_3 : ∃ (src : Agent) (s : State),
    s.Passes src F.HQ_QCMD_CMD ∧ s.rd F.HQ_QSEL_QID ≠ 0xFFFF ∧ (s.queue (s.rd F.HQ_QSEL_QID)).state = qDisabled ∧ (s.queue (s.rd F.HQ_QSEL_QID)).count = 0 ∧ (s.queue (s.rd F.HQ_QSEL_QID)).reserved = 0 :=
  ⟨.phobos, (day.setQueue 0xFFFE { state := qDisabled, base := 0x100, entries := 1 }).wr F.HQ_QSEL_QID 0xFFFE, by unfold State.Passes; decide +kernel⟩

theorem wit_queueCommandsComplete_c3_4 : ∃ (src : Agent) (s : State),
    s.Passes src F.HQ_QCMD_CMD ∧ s.rd F.HQ_QSEL_QID ≠ 0xFFFF ∧ ((s.queue (s.rd F.HQ_QSEL_QID)).state = qDisabled ∨ (s.queue (s.rd F.HQ_QSEL_QID)).state = qEnabled) :=
  ⟨.phobos, (day.setQueue 5 { state := qDisabled, base := 0x100, entries := 8, count := 2, reserved := 1, highWater := 7 }).wr F.HQ_QSEL_QID 5, by unfold State.Passes; decide +kernel⟩

theorem wit_queueDoorbellsComplete_c1 : ∃ (src : Agent) (s : State),
    s.Passes src F.HQ_QCMD_CMD ∧ s.rd F.HQ_QSEL_QID ≠ 0xFFFF ∧ (s.queue (s.rd F.HQ_QSEL_QID)).state = qDisabled ∧ (s.queue (s.rd F.HQ_QSEL_QID)).popped = [] ∧ (s.queue (s.rd F.HQ_QSEL_QID)).head < (s.queue (s.rd F.HQ_QSEL_QID)).entries :=
  ⟨.phobos, (day.setQueue 5 { state := qDisabled, base := 0x100, entries := 8, count := 3, head := 7 }).wr F.HQ_QSEL_QID 5, by unfold State.Passes; decide +kernel⟩

theorem wit_queueDoorbellsComplete_c2 : ∃ (src : Agent) (val : Word) (s : State),
    s.Passes src F.HQ_DB_PUSH_QID ∧ (F.HQ_DB_PUSH_QID.of val) ≠ 0xFFFF ∧ (F.HQ_DB_PUSH_COUNT.of val) ≠ 0 ∧ (s.queue (F.HQ_DB_PUSH_QID.of val)).state = qEnabled ∧ (F.HQ_DB_PUSH_COUNT.of val) ≤ (s.queue (F.HQ_DB_PUSH_QID.of val)).free :=
  ⟨.host, mk [(F.HQ_DB_PUSH_QID, 5), (F.HQ_DB_PUSH_COUNT, 4)], day.setQueue 5 { state := qEnabled, base := 0x100, entries := 8, count := 3, reserved := 1 }, by unfold State.Passes; decide +kernel⟩

theorem wit_queueDoorbellsComplete_c3 : ∃ (src : Agent) (val : Word) (s : State),
    s.Passes src F.HQ_DB_POP_QID ∧ (F.HQ_DB_PUSH_QID.of val) ≠ 0xFFFF ∧ (F.HQ_DB_PUSH_COUNT.of val) ≠ 0 ∧ (s.queue (F.HQ_DB_PUSH_QID.of val)).state = qEnabled ∧ (F.HQ_DB_PUSH_COUNT.of val) ≤ (s.queue (F.HQ_DB_PUSH_QID.of val)).count ∧ (s.queue (F.HQ_DB_PUSH_QID.of val)).claimed = 0 ∧ (s.queue (F.HQ_DB_PUSH_QID.of val)).claims = [] ∧ (s.queue (F.HQ_DB_PUSH_QID.of val)).popped = [] ∧ (s.queue (F.HQ_DB_PUSH_QID.of val)).head < (s.queue (F.HQ_DB_PUSH_QID.of val)).entries ∧ (s.queue (F.HQ_DB_PUSH_QID.of val)).count ≤ (s.queue (F.HQ_DB_PUSH_QID.of val)).entries :=
  ⟨.phobos, mk [(F.HQ_DB_PUSH_QID, 5), (F.HQ_DB_PUSH_COUNT, 3)], day.setQueue 5 { state := qEnabled, base := 0x100, entries := 8, count := 3, head := 6 }, by unfold State.Passes; decide +kernel⟩

theorem wit_queueEventsComplete_c1 : ∃ (addr : BitVec 40) (bytes : List Byte) (s : State),
    s.Inv ∧ s.place addr.toNat = .queueDescs ∧ bytes ≠ [] ∧ addr.toNat + bytes.length ≤ 0x3A00000 :=
  ⟨0x3800000, [1], day.wr F.HQ_WPROT_COUNT_COUNT 0xFFFFFFFE, ⟨by decide +kernel, by decide +kernel, by decide +kernel⟩, by decide +kernel⟩

theorem wit_queueEventsComplete_c2 : ∃ (qid : BitVec 16) (r : ResReq) (s : State),
    qid.toNat ≠ 0xFFFF ∧ (s.hq.waiting.filter (fun x => (ResReq.queues x).contains qid.toNat) = []) ∧ (ResReq.queues ({ r with qid := qid.toNat })).Nodup ∧ ((∀ q ∈ ResReq.queues ({ r with qid := qid.toNat }), r.n ≤ (s.queue q).free)) ∧ ((∀ x ∈ s.hq.puts, ResReq.overtakenBy x ({ r with qid := qid.toNat }) = false)) :=
  ⟨5, { mesh := 1, node := 2, slot := 3, stream := 4, n := 5, qid := 5, copies := [] }, day.setQueue 5 { state := qEnabled, entries := 8, count := 3 }, by decide +kernel⟩

theorem wit_queueEventsComplete_c3 : ∃ (qid : BitVec 16) (r : ResReq) (s : State),
    qid.toNat ≠ 0xFFFF ∧ (s.hq.waiting.filter (fun x => (ResReq.queues x).contains qid.toNat) = [r]) ∧ (ResReq.queues r).Nodup ∧ ((∀ q ∈ ResReq.queues r, r.n ≤ (s.queue q).free)) ∧ ((∀ x ∈ s.hq.puts, ResReq.overtakenBy x r = false)) :=
  ⟨5, { mesh := 1, node := 2, slot := 3, stream := 4, n := 5, qid := 5, copies := [] }, { day.setQueue 5 { state := qEnabled, entries := 8, count := 3 } with hq := { queues := [(5, { state := qEnabled, entries := 8, count := 3 })], waiting := [{ mesh := 1, node := 2, slot := 3, stream := 4, n := 5, qid := 5, copies := [] }] } }, by decide +kernel⟩

theorem wit_queueEventsComplete_c4 : ∃ (qid : BitVec 16) (idx : BitVec 16) (addr : BitVec 40) (eflags : Byte) (len16 : BitVec 16) (seq : Word) (s : State),
    qid.toNat ≠ 0xFFFF ∧ (s.queue qid.toNat).reserved = 1 ∧ (s.queue qid.toNat).done = [] ∧ (s.queue qid.toNat).need = 0 ∧ idx.toNat = (s.queue qid.toNat).ix ((s.queue qid.toNat).head + (s.queue qid.toNat).count) :=
  ⟨5, 1, 0x200, 0, 4, 9, day.setQueue 5 { state := qEnabled, entries := 8, count := 3, head := 6, reserved := 1, owned := true, base := 0x1000 }, by decide +kernel⟩

theorem wit_queueEventsComplete_c5 : ∃ (qid : BitVec 16) (idx : BitVec 16) (s : State),
    0 < (s.queue qid.toNat).count ∧ idx.toNat = (s.queue qid.toNat).head ∧ (s.queue qid.toNat).head < (s.queue qid.toNat).entries ∧ (s.queue qid.toNat).popped = [] :=
  ⟨5, 7, day.setQueue 5 { state := qEnabled, entries := 8, count := 1, head := 7, base := 0x1000 }, by decide +kernel⟩

theorem wit_schedulerComplete_c1 : ∃ (node : BitVec 16) (n : Node) (slot : Nat) (s : State),
    s.node? node.toNat = some n ∧ (n.kind = 2 ∨ n.kind = 3) ∧ s.sch.stopped = false ∧ s.nodeReady n = true ∧ (lowest 8192 (fun k => (s.task k).isNone) = some slot) ∧ (s.rd F.SCH_CTRL_SLOT_RESERVE < s.rd F.SCH_SLOTS_FREE ∨ 6 ≤ n.prio) :=
  ⟨9, { id := 9, kind := 3, prio := 6, inPorts := 1 }, 0, put (({ day with str := { active := some { nodes := [{ id := 9, kind := 3, prio := 6, inPorts := 1 }], edges := [{ qid := 5, cons := 9, consPort := 0 }] } } }).setQueue 5 { state := qEnabled, entries := 8, count := 1 }) [(F.SCH_SLOTS_FREE, 8192)], by decide +kernel⟩

theorem wit_schedulerComplete_c2b : ∃ (c : Fin 17) (slot : Nat) (k : Nat) (rest : List Nat) (x : Task) (s : State),
    c.val < 16 ∧ s.awake c.val = true ∧ ((dispatchOrder (s.taskList.filter (fun e => e.2.cluster == c.val && e.2.listed))).find? (fun e => !(s.idleEngines c.val e.2).isEmpty) = some (slot, x)) ∧ s.idleEngines c.val x = k :: rest ∧ s.task slot = some x :=
  ⟨0, 1, 3, [], { urgent with state := .ready }, (put { day with sch := { tasks := [(1, some { urgent with state := .ready })] } } [(F.PWR_ISL_STATE 0, 2)]), by decide +kernel⟩

theorem wit_schedulerComplete_c3b : ∃ (c : Fin 17) (slot : Nat) (m : Nat) (rest : List Nat) (x : Task) (s : State),
    c.val = 16 ∧ ((dispatchOrder (s.taskList.filter (fun e => e.2.cluster == 16 && e.2.listed))).find? (fun e => !(s.idleMovers e.2).isEmpty) = some (slot, x)) ∧ s.idleMovers x = m :: rest :=
  ⟨16, 1, 3, [], { urgent with cluster := 16 }, { day with sch := { tasks := [(1, some { urgent with cluster := 16 })] } }, by decide +kernel⟩

theorem wit_schedulerComplete_c4b : ∃ (slot : Fin 8192) (x : Task) (v : Task) (c : Nat) (vs : Nat) (rest : List (Nat × Task)) (s : State),
    s.task slot = some x ∧ s.on F.SCH_CTRL_PREEMPT_EN = true ∧ x.state = .ready ∧ x.cluster < 16 ∧ s.rd F.SCH_CTRL_PREEMPT_LEVEL ≤ x.level ∧ s.underTest x.cluster = false ∧ x.lmSize ≤ 0x8000 ∧ s.idleEngines x.cluster x = [] ∧ (KMap.get (fun _ => none) s.sch.preempts x.cluster = none) ∧ s.freeCtx = some c ∧ s.victims x x.nd = (vs, v) :: rest :=
  ⟨1, urgent, job, 0, 0, [], put (withTasks [(0, some job), (1, some urgent)] []) [(F.SCH_CTRL_PREEMPT_EN, 1), (F.SCH_CTRL_PREEMPT_LEVEL, 6)], by decide +kernel⟩

theorem wit_schedulerComplete_c5 : ∃ (src : Agent) (mon : Fin 4) (val : Word) (s : State),
    s.Inv ∧ s.Passes src (F.SCH_HIST_CFG_CLR mon) :=
  ⟨.phobos, 3, mk [(F.SCH_HIST_CFG_CLR 3, 1)], day.wr (F.SCH_HIST_BIN_COUNT 3 19) 8, ⟨by decide +kernel, by decide +kernel, by decide +kernel⟩, by unfold State.Passes; decide +kernel⟩

theorem wit_schedulerComplete_c6 : ∃ (s : State),
    s.Inv ∧ s.rd F.SCH_LOAD_WINDOW_WINDOW ≠ 0 :=
  ⟨put { day with ref := 99, eng := { engines := [(127, { winTasks := 0x10000 })] } } [(F.SCH_LOAD_WINDOW_WINDOW, 1)], ⟨by decide +kernel, by decide +kernel, by decide +kernel⟩, by decide +kernel⟩

theorem wit_preemptionComplete_c1 : ∃ (c : Fin 16) (p : Preempt) (v : Task) (w : Task) (s : State),
    (KMap.get (fun _ => none) s.sch.preempts c = some p) ∧ s.task p.victim = some v ∧ s.task p.waiting = some w ∧ p.waiting ≠ p.victim ∧ w.listed = true ∧ s.underTest (v.engine / 8) = false ∧ (s.xlt.held.any (fun h => h.fr.requester == 0x100 + v.engine) = false) :=
  ⟨0, { waiting := 1, victim := 0, ctx := 0 }, job, urgent, withTasks [(0, some job), (1, some urgent)] [(0, some { waiting := 1, victim := 0, ctx := 0 })], by decide +kernel⟩

theorem wit_preemptionComplete_c2 : ∃ (c : Fin 16) (p : Preempt) (v : Task) (s : State),
    (KMap.get (fun _ => none) s.sch.preempts c = some p) ∧ s.task p.victim = some v ∧ (s.xlt.held.any (fun h => h.fr.requester == 0x100 + v.engine) = true) :=
  ⟨0, { waiting := 1, victim := 0, ctx := 0 }, job, { withTasks [(0, some job), (1, some urgent)] [(0, some { waiting := 1, victim := 0, ctx := 0 })] with xlt := { held := [{ fr := { requester := 0x103 } }] } }, by decide +kernel⟩

theorem wit_preemptionComplete_c3 : ∃ (unit : Fin 144) (slot : Nat) (x : Task) (s : State),
    unit.val < 128 ∧ (s.engine unit).running = none ∧ s.resumeNext unit = some (slot, x) :=
  ⟨3, 1, { job with state := .preempted, ctx := some 5 }, { withTasks [(1, some { job with state := .preempted, ctx := some 5 })] [] with eng := {}, xlt := { ctxs := [(5, { state := 1, restart := 0x20000010 })] } }, by decide +kernel⟩

theorem wit_preemptionComplete_c4 : ∃ (unit : Fin 144) (slot : Nat) (x : Task) (s : State),
    128 ≤ unit.val ∧ (s.mover (unit.val - 128)).task = none ∧ (s.mover (unit.val - 128)).run = none ∧ s.resumeNext (0x80 + (unit.val - 128)) = some (slot, x) :=
  ⟨143, 1, { job with engine := 143, cluster := 16, state := .faulted, resolved := true }, { day with sch := { tasks := [(1, some { job with engine := 143, cluster := 16, state := .faulted, resolved := true })] } }, by decide +kernel⟩

theorem wit_preemptionComplete_c5 : ∃ (src : Agent) (val : Word) (x : Task) (s : State),
    s.Inv ∧ s.Passes src F.SCH_CANCEL_TARGET ∧ F.SCH_CANCEL_BY_NODE.of val = 0 ∧ F.SCH_CANCEL_CLR_STALL.of val = 0 ∧ s.task (F.SCH_CANCEL_TARGET.of val) = some x :=
  ⟨.phobos, mk [(F.SCH_CANCEL_TARGET, 1)], urgent, (put { day with sch := { tasks := [(1, some urgent)] } } [(F.SCH_SLOTS_FREE, 8191)]), ⟨by decide +kernel, by decide +kernel, by decide +kernel⟩, by unfold State.Passes; decide +kernel⟩

theorem wit_memoryCommandsComplete_c1 : ∃ (acc : Access) (s : State),
    s.Inv ∧ acc.translated = false ∧ s.place acc.addr.toNat = .hole :=
  ⟨{ mesh := 0x900, translated := false, space := 0, addr := 0x5000000, len := 4, write := false, chan := 0 }, day.wr F.XLT_HOLE_COUNT_COUNT 0xFFFFFFFE, ⟨by decide +kernel, by decide +kernel, by decide +kernel⟩, by decide +kernel⟩

theorem wit_memoryCommandsComplete_c2 : ∃ (addr : BitVec 40) (bytes : List Byte) (s : State),
    s.Inv ∧ inSysRegion addr.toNat = true ∧ s.place addr.toNat ≠ .queueDescs ∧ bytes ≠ [] ∧ addr.toNat + bytes.length ≤ 0x4000000 :=
  ⟨0x3A00000, [1, 2], day.wr F.TSTO_WPROT_COUNT_COUNT 0xFFFFFFFF, ⟨by decide +kernel, by decide +kernel, by decide +kernel⟩, by decide +kernel⟩

theorem wit_memoryCommandsComplete_c3 : ∃ (addr : BitVec 40) (second : BurstFlips) (s : State),
    s.place addr.toNat = .qdr ∧ s.burstBad addr.toNat = false :=
  ⟨0x10000001F, [1], qdrUp, by decide +kernel⟩

theorem wit_memoryCommandsComplete_c4 : ∃ (addr : BitVec 40) (first : BurstFlips) (second : BurstFlips) (rmw : Option (Fin 16 × List Byte)) (s : State),
    s.Inv ∧ s.place addr.toNat = .qdr :=
  ⟨0x1000007F0, [], [], none, qdrUp, ⟨by decide +kernel, by decide +kernel, by decide +kernel⟩, by decide +kernel⟩

theorem wit_memoryCommandsComplete_c4b : ∃ (addr : BitVec 40) (first : BurstFlips) (second : BurstFlips) (rmw : Option (Fin 16 × List Byte)) (s : State),
    s.Inv ∧ s.place addr.toNat = .qdr :=
  ⟨0x100000010, [0x100, 3], [], some (15, [7, 8]), qdrUp, ⟨by decide +kernel, by decide +kernel, by decide +kernel⟩, by decide +kernel⟩

theorem wit_memoryCommandsComplete_c4c : ∃ (addr : BitVec 40) (first : BurstFlips) (second : BurstFlips) (rmw : Option (Fin 16 × List Byte)) (s : State),
    s.Inv ∧ s.place addr.toNat = .qdr :=
  ⟨0x100000010, [0x100], [0, 1], some (0, List.replicate 16 7), qdrUp, ⟨by decide +kernel, by decide +kernel, by decide +kernel⟩, by decide +kernel⟩

theorem wit_memoryCommandsComplete_c5 : ∃ (src : Agent) (val : Word) (trains : Bool) (s : State),
    s.Inv ∧ s.Passes src F.QDR_CTRL_RETRAIN ∧ (F.QDR_CTRL_CHANNEL.of val) < s.qdrChannels :=
  ⟨.phobos, mk [(F.QDR_CTRL_RETRAIN, 1), (F.QDR_CTRL_CHANNEL, 7)], true, put day [(F.QDR_CFG_CHANNELS, 2), (F.QDR_CFG_DEVICES, 1), (F.QDR_DRIFT_OFFSET 7, 20)], ⟨by decide +kernel, by decide +kernel, by decide +kernel⟩, by unfold State.Passes; decide +kernel⟩

theorem wit_memoryCommandsComplete_c5b : ∃ (src : Agent) (val : Word) (trains : Bool) (s : State),
    s.Inv ∧ s.Passes src F.QDR_CTRL_RETRAIN ∧ (F.QDR_CTRL_CHANNEL.of val) < s.qdrChannels :=
  ⟨.phobos, mk [(F.QDR_CTRL_RETRAIN, 1), (F.QDR_CTRL_CHANNEL, 3)], false, put day [(F.QDR_CFG_CHANNELS, 1), (F.QDR_CFG_DEVICES, 2), (F.QDR_STATUS_TRAINED, 15)], ⟨by decide +kernel, by decide +kernel, by decide +kernel⟩, by unfold State.Passes; decide +kernel⟩

theorem wit_memoryCommandsComplete_c6 : ∃ (ch : Fin 8) (steps : Fin 65) (s : State),
    s.Inv :=
  ⟨7, 64, day, ⟨by decide +kernel, by decide +kernel, by decide +kernel⟩⟩

theorem wit_memoryCommandsComplete_c6b : ∃ (ch : Fin 8) (steps : Fin 65) (s : State),
    s.Inv :=
  ⟨0, 8, day, ⟨by decide +kernel, by decide +kernel, by decide +kernel⟩⟩

theorem wit_memoryCommandsComplete_c7 : ∃ (src : Agent) (val : Word) (s : State),
    s.Inv ∧ s.Passes src F.QDR_ERR_POP_POP ∧ F.QDR_ERR_POP_POP.of val = 1 :=
  ⟨.phobos, mk [(F.QDR_ERR_POP_POP, 1)], day.wr F.QDR_ERR_ADDR_LO_VALID 1, ⟨by decide +kernel, by decide +kernel, by decide +kernel⟩, by unfold State.Passes; decide +kernel⟩

theorem wit_memoryCommandsComplete_c8 : ∃ (src : Agent) (val : Word) (s : State),
    s.Inv ∧ s.Passes src F.MESH_CTRL_CLR_HIGH :=
  ⟨.phobos, mk [(F.MESH_CTRL_CLR_HIGH, 1)], put day [(F.MESH_TAGS_HIGH_WATER, 9), (F.MESH_TAGS_IN_USE, 4)], ⟨by decide +kernel, by decide +kernel, by decide +kernel⟩, by unfold State.Passes; decide +kernel⟩

theorem wit_translationCommandsComplete_c1 : ∃ (src : Agent) (val : Word) (n : Nat) (s : State),
    s.Inv ∧ s.Passes src F.XLT_SPACE_REQ_ANY ∧ ((F.XLT_SPACE_REQ_ANY.of val = 1 ∧ lowest 256 (fun k => k != 0 && (s.space k).state == 0) = some n) ∨ (F.XLT_SPACE_REQ_ANY.of val = 0 ∧ F.XLT_SPACE_REQ_SPACE.of val = n ∧ n ≠ 0 ∧ (s.space n).state = 0)) :=
  ⟨.phobos, mk [(F.XLT_SPACE_REQ_ANY, 1)], 2, { day with xlt := { spaces := [(1, { state := 1 })] } }, ⟨by decide +kernel, by decide +kernel, by decide +kernel⟩, by unfold State.Passes; decide +kernel⟩

theorem wit_translationCommandsComplete_c1b : ∃ (src : Agent) (val : Word) (n : Nat) (s : State),
    s.Inv ∧ s.Passes src F.XLT_SPACE_REQ_ANY ∧ ((F.XLT_SPACE_REQ_ANY.of val = 1 ∧ lowest 256 (fun k => k != 0 && (s.space k).state == 0) = some n) ∨ (F.XLT_SPACE_REQ_ANY.of val = 0 ∧ F.XLT_SPACE_REQ_SPACE.of val = n ∧ n ≠ 0 ∧ (s.space n).state = 0)) :=
  ⟨.phobos, mk [(F.XLT_SPACE_REQ_SPACE, 255)], 255, day, ⟨by decide +kernel, by decide +kernel, by decide +kernel⟩, by unfold State.Passes; decide +kernel⟩

theorem wit_translationCommandsComplete_c2_1 : ∃ (src : Agent) (s : State),
    s.Inv ∧ s.Passes src F.XLT_SPACE_CMD_CMD ∧ (s.rd F.XLT_SPACE_SEL_SPACE) ≠ 0 ∧ (s.space (s.rd F.XLT_SPACE_SEL_SPACE)).state = 1 ∧ s.rootOk (s.space (s.rd F.XLT_SPACE_SEL_SPACE)).root = true :=
  ⟨.phobos, { day with xlt := { spaces := [(255, { state := 1, root := 0x37FFE00 })] } }.wr F.XLT_SPACE_SEL_SPACE 255, ⟨by decide +kernel, by decide +kernel, by decide +kernel⟩, by unfold State.Passes; decide +kernel⟩

theorem wit_translationCommandsComplete_c2_2 : ∃ (src : Agent) (s : State),
    s.Inv ∧ s.Passes src F.XLT_SPACE_CMD_CMD ∧ (s.rd F.XLT_SPACE_SEL_SPACE) ≠ 0 ∧ (s.space (s.rd F.XLT_SPACE_SEL_SPACE)).state = 2 :=
  ⟨.phobos, { day with xlt := { spaces := [(255, { state := 2, root := 0x37FFE00 })] } }.wr F.XLT_SPACE_SEL_SPACE 255, ⟨by decide +kernel, by decide +kernel, by decide +kernel⟩, by unfold State.Passes; decide +kernel⟩

theorem wit_translationCommandsComplete_c2_3 : ∃ (src : Agent) (s : State),
    s.Inv ∧ s.Passes src F.XLT_SPACE_CMD_CMD ∧ (s.rd F.XLT_SPACE_SEL_SPACE) ≠ 0 ∧ (s.space (s.rd F.XLT_SPACE_SEL_SPACE)).state = 1 :=
  ⟨.phobos, { day with xlt := { spaces := [(1, { state := 1, root := 0x37FFE00 })] } }.wr F.XLT_SPACE_SEL_SPACE 1, ⟨by decide +kernel, by decide +kernel, by decide +kernel⟩, by unfold State.Passes; decide +kernel⟩

theorem wit_translationCommandsComplete_c3 : ∃ (src : Agent) (hi : Bool) (val : Word) (s : State),
    (s.Passes src (if hi then F.XLT_SPACE_ROOT_HI_ROOT else F.XLT_SPACE_ROOT_LO_ROOT)) ∧ (s.space (s.rd F.XLT_SPACE_SEL_SPACE)).state = 1 :=
  ⟨.phobos, true, 0x101, { day with xlt := { spaces := [(1, { state := 1, root := 0x37FFE00 })] } }.wr F.XLT_SPACE_SEL_SPACE 1, by unfold State.Passes; decide +kernel⟩

theorem wit_translationCommandsComplete_c3b : ∃ (src : Agent) (hi : Bool) (val : Word) (s : State),
    (s.Passes src (if hi then F.XLT_SPACE_ROOT_HI_ROOT else F.XLT_SPACE_ROOT_LO_ROOT)) ∧ (s.space (s.rd F.XLT_SPACE_SEL_SPACE)).state = 1 :=
  ⟨.phobos, false, 0x3FF, { day with xlt := { spaces := [(1, { state := 1, root := 0x1037FFE00 })] } }.wr F.XLT_SPACE_SEL_SPACE 1, by unfold State.Passes; decide +kernel⟩

theorem wit_translationCommandsComplete_c4 : ∃ (src : Agent) (val : Word) (s : State),
    s.Inv ∧ s.Passes src F.XLT_INV_CMD_GO ∧ F.XLT_INV_CMD_GO.of val = 1 ∧ F.XLT_INV_CMD_SCOPE.of val ≠ 3 :=
  ⟨.phobos, mk [(F.XLT_INV_CMD_GO, 1), (F.XLT_INV_CMD_SCOPE, 0), (F.XLT_INV_CMD_SPACE, 7)], put day [(F.XLT_INV_VA_HI_VA, 0xFFFF), (F.XLT_INV_VA_LO_VA, 1), (F.XLT_INV_PAGES_PAGES, 3)], ⟨by decide +kernel, by decide +kernel, by decide +kernel⟩, by unfold State.Passes; decide +kernel⟩

theorem wit_translationCommandsComplete_c5 : ∃ (i : Inval) (s : State),
    s.Inv ∧ s.xlt.inval = some i :=
  ⟨{ scope := 1, space := 7 }, { day with xlt := { inval := some { scope := 1, space := 7 }, tlb := [{ space := 7 }, { space := 8 }] } }.wr F.XLT_STATUS_INV_BUSY 1, ⟨by decide +kernel, by decide +kernel, by decide +kernel⟩, by decide +kernel⟩

theorem wit_translationCommandsComplete_c5b : ∃ (i : Inval) (s : State),
    s.Inv ∧ s.xlt.inval = some i :=
  ⟨{ scope := 2 }, { day with xlt := { inval := some { scope := 2 }, tlb := [{ space := 7 }, { space := 8 }] } }.wr F.XLT_STATUS_INV_BUSY 1, ⟨by decide +kernel, by decide +kernel, by decide +kernel⟩, by decide +kernel⟩

theorem wit_faultCommandsComplete_c1 : ∃ (acc : Access) (stop : StopPoint) (bad : Fin 4) (k : Nat) (l : Nat) (p : Nat) (s : State),
    s.Inv ∧ acc.translated = true ∧ rclassOf acc.mesh.toNat ≠ 0 ∧ s.translateAccess acc.space.toNat acc.addr.toNat acc.len acc.write bad = .fault k l p ∧ s.fqCount ≠ 1023 :=
  ⟨{ mesh := 0x900, translated := true, space := 3, addr := 0x10000, len := 16, write := true, chan := 0 }, { restart := 0, sealState := 0, sealAcc := 0, sealSeq := 0, sealBytes := 0, vstart := 0 }, 0, 5, 0, 0, { day with xlt := { faultSeq := 0xFFFFFFFF } } |> fun s => put s [(F.XLT_FQ_TAIL_TAIL, 1023), (F.XLT_FQ_HEAD_HEAD, 1)], ⟨by decide +kernel, by decide +kernel, by decide +kernel⟩, by decide +kernel⟩

theorem wit_faultCommandsComplete_c1b : ∃ (acc : Access) (stop : StopPoint) (bad : Fin 4) (k : Nat) (l : Nat) (p : Nat) (s : State),
    s.Inv ∧ acc.translated = true ∧ rclassOf acc.mesh.toNat ≠ 0 ∧ s.translateAccess acc.space.toNat acc.addr.toNat acc.len acc.write bad = .fault k l p ∧ s.fqCount ≠ 1023 :=
  ⟨{ mesh := 0x20F, translated := true, space := 0, addr := 0x5000000, len := 16, write := true, chan := 0 }, { restart := 0, sealState := 0, sealAcc := 0, sealSeq := 0, sealBytes := 0, vstart := 0 }, 0, 4, 0, 0, day, ⟨by decide +kernel, by decide +kernel, by decide +kernel⟩, by decide +kernel⟩

theorem wit_faultCommandsComplete_c2 : ∃ (h : Held) (s : State),
    s.Inv ∧ s.fqCount ≠ 1023 ∧ (s.xlt.held.find? (fun x => !x.written) = some h) :=
  ⟨{ fr := { requester := 0x201, seq := 4 }, written := false }, put { day with xlt := { held := [{ fr := { requester := 0x201, seq := 4 }, written := false }] } } [(F.XLT_FQ_TAIL_TAIL, 1023), (F.XLT_FQ_HEAD_HEAD, 1)], ⟨by decide +kernel, by decide +kernel, by decide +kernel⟩, by decide +kernel⟩

theorem wit_faultCommandsComplete_c3_1 : ∃ (src : Agent) (f : FaultAt) (s : State),
    s.Inv ∧ s.Passes src F.XLT_RESOLVE_CMD_ACTION ∧ s.namedFault = some f :=
  ⟨.phobos, .place { fr := { requester := 0x900, seq := 4 } }, put { day with xlt := { held := [{ fr := { requester := 0x900, seq := 4 } }] } } [(F.XLT_RESOLVE_SEQ_FAULT_SEQ, 4), (F.XLT_RESOLVE_ID_BY_NODE, 1), (F.XLT_RESOLVE_ID_ID, 0x900)], ⟨by decide +kernel, by decide +kernel, by decide +kernel⟩, by unfold State.Passes; decide +kernel⟩

theorem wit_faultCommandsComplete_c3_2 : ∃ (src : Agent) (f : FaultAt) (s : State),
    s.Inv ∧ s.Passes src F.XLT_RESOLVE_CMD_ACTION ∧ s.namedFault = some f :=
  ⟨.phobos, .slot 7 { state := 2, rclass := 1, requester := 0x103, task := 1, node := 9, seq := 4 }, put { withTasks [(1, some { job with state := .faulted, ctx := some 7 })] [] with xlt := { ctxs := [(7, { state := 2, rclass := 1, requester := 0x103, task := 1, node := 9, seq := 4 })] }, eng := {} } [(F.XLT_RESOLVE_SEQ_FAULT_SEQ, 4), (F.XLT_RESOLVE_ID_ID, 7)], ⟨by decide +kernel, by decide +kernel, by decide +kernel⟩, by unfold State.Passes; decide +kernel⟩

theorem wit_faultCommandsComplete_c4 : ∃ (src : Agent) (s : State),
    s.Inv ∧ s.Passes src F.XLT_RESOLVE_CMD_ACTION :=
  ⟨.phobos, put { day with xlt := { held := [{ fr := { requester := 0x201, seq := 4, space := 6 } }, { fr := { requester := 0x202, seq := 5, space := 7 } }] } } [(F.XLT_RESOLVE_ID_ID, 7)], ⟨by decide +kernel, by decide +kernel, by decide +kernel⟩, by unfold State.Passes; decide +kernel⟩

theorem wit_moverCommandsComplete_c1 : ∃ (src : Agent) (m : Fin 16) (val : Word) (s : State),
    s.Inv ∧ s.Passes src (F.DMA_DB_COUNT m) ∧ ((F.DMA_DB_COUNT m).of val) ≠ 0 ∧ (s.mover m).subs + ((F.DMA_DB_COUNT m).of val) ≤ s.ringCap m :=
  ⟨.host, 15, mk [(F.DMA_DB_COUNT 15, 4)], put day [(F.DMA_RING_CFG_ENTRIES 15, 4), (F.DMA_RING_CFG_EN 15, 1), (F.DMA_PTR_HEAD 15, 3), (F.DMA_PTR_TAIL 15, 3)], ⟨by decide +kernel, by decide +kernel, by decide +kernel⟩, by unfold State.Passes; decide +kernel⟩

theorem wit_moverCommandsComplete_c2 : ∃ (m : Fin 16) (r : MoverRun) (s : State) (u : State),
    (s.mover m).task = none ∧ (s.xlt.held.any (fun h => h.fr.requester == 0x200 + m.val) = false) ∧ (s.mover m).run = some r ∧ r.faulted = false ∧ r.finished = false ∧ (r.desc.op = 1 ∨ r.desc.op = 2) ∧ (s.move (if r.desc.op = 2 then none else some (r.desc.srcSpace, r.desc.src)) (fun i => (leBytes 4 r.desc.fill).getD (i % 4) 0) [(r.desc.dstSpace, r.desc.dst)] r.desc.length r.offset = (none, u)) :=
  ⟨15, { desc := { op := 2, dstSpace := 0, dst := 0x1001, length := 5, fill := 0x04030201 } }, { day with movers := [(15, { subs := 1, run := some { desc := { op := 2, dstSpace := 0, dst := 0x1001, length := 5, fill := 0x04030201 } } })] }, (State.move ({ day with movers := [(15, { subs := 1, run := some { desc := { op := 2, dstSpace := 0, dst := 0x1001, length := 5, fill := 0x04030201 } } })] }) none (fun i => (leBytes 4 0x04030201).getD (i % 4) 0) [(0, 0x1001)] 5 0).2, by decide +kernel⟩

theorem wit_moverCommandsComplete_c2b : ∃ (m : Fin 16) (r : MoverRun) (s : State) (u : State),
    (s.mover m).task = none ∧ (s.xlt.held.any (fun h => h.fr.requester == 0x200 + m.val) = false) ∧ (s.mover m).run = some r ∧ r.faulted = false ∧ r.finished = false ∧ (r.desc.op = 1 ∨ r.desc.op = 2) ∧ (s.move (if r.desc.op = 2 then none else some (r.desc.srcSpace, r.desc.src)) (fun i => (leBytes 4 r.desc.fill).getD (i % 4) 0) [(r.desc.dstSpace, r.desc.dst)] r.desc.length r.offset = (none, u)) :=
  ⟨0, { desc := { op := 1, srcSpace := 0, src := 0x2000, dstSpace := 0, dst := 0x1000, length := 33 } }, { day.setBytes 0x2000 [1, 2, 3] with movers := [(0, { subs := 1, run := some { desc := { op := 1, srcSpace := 0, src := 0x2000, dstSpace := 0, dst := 0x1000, length := 33 } } })] }, (State.move ({ day.setBytes 0x2000 [1, 2, 3] with movers := [(0, { subs := 1, run := some { desc := { op := 1, srcSpace := 0, src := 0x2000, dstSpace := 0, dst := 0x1000, length := 33 } } })] }) (some (0, 0x2000)) (fun i => (leBytes 4 0).getD (i % 4) 0) [(0, 0x1000)] 33 0).2, by decide +kernel⟩

theorem wit_moverCommandsComplete_c3 : ∃ (m : Fin 16) (s : State),
    (s.mover m).task = none ∧ (s.xlt.held.any (fun h => h.fr.requester == 0x200 + m.val) = false) ∧ (s.mover m).run = none ∧ s.on (F.DMA_RING_CFG_EN m) = true ∧ (s.mover m).subs ≠ 0 ∧ s.taskResolved m = false ∧ (descOf (s.physRead (s.descAddr m (s.rd (F.DMA_PTR_HEAD m))) 32)).bad = true :=
  ⟨15, put { day with movers := [(15, { subs := 1 })] } [(F.DMA_RING_CFG_ENTRIES 15, 4), (F.DMA_RING_CFG_EN 15, 1), (F.DMA_PTR_HEAD 15, 3)], by decide +kernel⟩

theorem wit_moverCommandsComplete_c4 : ∃ (m : Fin 16) (r : MoverRun) (s : State),
    s.Inv ∧ (s.mover m).run = some r ∧ r.finished = true ∧ 0 < s.ringCap m ∧ (s.place (s.descAddr m (s.rd (F.DMA_PTR_HEAD m)) + 30) = .tile ∨ s.place (s.descAddr m (s.rd (F.DMA_PTR_HEAD m)) + 30) = .qdr) :=
  ⟨15, { desc := { op := 9 }, status := 0x0901, finished := true }, put { day with movers := [(15, { subs := 1, run := some { desc := { op := 9 }, status := 0x0901, finished := true } })] } [(F.DMA_RING_CFG_ENTRIES 15, 4), (F.DMA_RING_CFG_EN 15, 1), (F.DMA_PTR_HEAD 15, 3)], ⟨by decide +kernel, by decide +kernel, by decide +kernel⟩, by decide +kernel⟩

theorem wit_moverCommandsComplete_c5 : ∃ (m : Fin 16) (slot : Nat) (k : Task) (c : Claim) (e : RingEntry) (s : State) (u : State),
    (KMap.wf (fun _ => none) s.sch.tasks = true) ∧ (s.xlt.held.any (fun h => h.fr.requester == 0x200 + m.val) = false) ∧ (s.mover m).task = some slot ∧ s.task slot = some k ∧ s.nextClaim k 0 = some (c, e) ∧ s.unitStop 0 (s.slotVia c.qid e.addr) 32 false = none ∧ (s.move (some (s.slotVia c.qid e.addr)) (fun _ => 0) ((k.outs.headD {}).ents.map (fun x => s.slotVia x.1 ((s.queue x.1).slotAddr x.2))) (tileLength (s.vread (s.slotVia c.qid e.addr).1 (s.slotVia c.qid e.addr).2 32)) (s.mover m).off = (none, u)) ∧ ((match u.edge? c.qid with | some ed => u.checkTile ed (0x200 + m.val) (tileOf (u.vread (s.slotVia c.qid e.addr).1 (s.slotVia c.qid e.addr).2 (tileLength (s.vread (s.slotVia c.qid e.addr).1 (s.slotVia c.qid e.addr).2 32))) e.len16) true (sealResumed (u.vread (s.slotVia c.qid e.addr).1 (s.slotVia c.qid e.addr).2 (tileLength (s.vread (s.slotVia c.qid e.addr).1 (s.slotVia c.qid e.addr).2 32))) (s.mover m).off (s.mover m).acc) | none => ({ outcome := 0, tile := (tileOf (u.vread (s.slotVia c.qid e.addr).1 (s.slotVia c.qid e.addr).2 (tileLength (s.vread (s.slotVia c.qid e.addr).1 (s.slotVia c.qid e.addr).2 32))) e.len16) }, u)).1.outcome = 3 ∨ k.outs = [] ∨ (k.outs.headD {}).ents.all (fun x => (u.rangeStop (s.slotVia x.1 ((s.queue x.1).slotAddr x.2)) (dmaOut k (k.outs.headD {}) (match u.edge? c.qid with | some ed => u.checkTile ed (0x200 + m.val) (tileOf (u.vread (s.slotVia c.qid e.addr).1 (s.slotVia c.qid e.addr).2 (tileLength (s.vread (s.slotVia c.qid e.addr).1 (s.slotVia c.qid e.addr).2 32))) e.len16) true (sealResumed (u.vread (s.slotVia c.qid e.addr).1 (s.slotVia c.qid e.addr).2 (tileLength (s.vread (s.slotVia c.qid e.addr).1 (s.slotVia c.qid e.addr).2 32))) (s.mover m).off (s.mover m).acc) | none => ({ outcome := 0, tile := (tileOf (u.vread (s.slotVia c.qid e.addr).1 (s.slotVia c.qid e.addr).2 (tileLength (s.vread (s.slotVia c.qid e.addr).1 (s.slotVia c.qid e.addr).2 32))) e.len16) }, u)).1).bytes.length true).isNone) = true) :=
  ⟨3, 1, { job with engine := 0x83, claims := [{ port := 0, qid := 5, idx := 0 }], outs := [{ port := 0, seq := 8, ents := [(6, 0)] }] }, { port := 0, qid := 5, idx := 0 }, { addr := 0x3000, len16 := 1, seq := 4 }, (((({ day with movers := [(3, { task := some 1 })], sch := { tasks := [(1, some { job with engine := 0x83, claims := [{ port := 0, qid := 5, idx := 0 }], outs := [{ port := 0, seq := 8, ents := [(6, 0)] }] })] } }).setQueue 5 { state := qEnabled, base := 0x2000, entries := 4, count := 1, claims := [0], claimed := 1, stride := 3 }).setQueue 6 { state := qEnabled, base := 0x8000, entries := 4, reserved := 1, stride := 3 }).setBytes 0x2000 ({ addr := 0x3000, len16 := 1, seq := 4 } : RingEntry).bytes).setBytes 0x3000 goodTile.bytes, (State.move ((((({ day with movers := [(3, { task := some 1 })], sch := { tasks := [(1, some { job with engine := 0x83, claims := [{ port := 0, qid := 5, idx := 0 }], outs := [{ port := 0, seq := 8, ents := [(6, 0)] }] })] } }).setQueue 5 { state := qEnabled, base := 0x2000, entries := 4, count := 1, claims := [0], claimed := 1, stride := 3 }).setQueue 6 { state := qEnabled, base := 0x8000, entries := 4, reserved := 1, stride := 3 }).setBytes 0x2000 ({ addr := 0x3000, len16 := 1, seq := 4 } : RingEntry).bytes).setBytes 0x3000 goodTile.bytes) (some (0, 0x3000)) (fun _ => 0) [(0, 0x9000)] 48 0).2, by decide +kernel⟩

theorem wit_tileInstructionsComplete_c1 : ∃ (eng : Fin 128) (pc : Word) (rs1 : Word) (rd : Fin 32) (imm : BitVec 12) (slot : Nat) (x : Task) (c : Claim) (e : RingEntry) (s : State) (u : State),
    s.Acts eng slot x ∧ ((s.libraryWork eng slot).engine eng).graceOver = false ∧ imm.toNat < 16 ∧ imm.toNat < x.nd.inPorts ∧ rs1.toNat % 16 = 0 ∧ x.isLibrary = false ∧ x.input = none ∧ (s.libraryWork eng slot).nextClaim x imm.toNat = some (c, e) ∧ (s.libraryWork eng slot).unitStop 0 ((s.libraryWork eng slot).slotVia c.qid e.addr) 32 false = none ∧ (hdrOf ((s.libraryWork eng slot).vread ((s.libraryWork eng slot).slotVia c.qid e.addr).1 ((s.libraryWork eng slot).slotVia c.qid e.addr).2 32)).valid = true ∧ rs1.toNat + (32 + 16 * (hdrOf ((s.libraryWork eng slot).vread ((s.libraryWork eng slot).slotVia c.qid e.addr).1 ((s.libraryWork eng slot).slotVia c.qid e.addr).2 32)).len16) ≤ x.lmSize ∧ ((s.libraryWork eng slot).queue c.qid).halted = false ∧ ((s.libraryWork eng slot).move (some ((s.libraryWork eng slot).slotVia c.qid e.addr)) (fun _ => 0) [(0, x.lm + rs1.toNat)] (32 + 16 * (hdrOf ((s.libraryWork eng slot).vread ((s.libraryWork eng slot).slotVia c.qid e.addr).1 ((s.libraryWork eng slot).slotVia c.qid e.addr).2 32)).len16) (16 * (s.libraryWork eng slot).unitsDone eng 1 imm.toNat rs1.toNat) = (none, u)) :=
  ⟨3, 0xFFFFFFFC, 0x7FD0, 31, 1, 0, { job with claims := [{ port := 1, qid := 5, idx := 2 }] }, { port := 1, qid := 5, idx := 2 }, { addr := 0x3000, len16 := 1, seq := 4 }, (((withTasks [(0, some { job with claims := [{ port := 1, qid := 5, idx := 2 }] })] []).setQueue 5 { state := qEnabled, base := 0x2000, entries := 4, count := 3, claims := [2], claimed := 1, stride := 3 }).setBytes 0x2020 ({ addr := 0x3000, len16 := 1, seq := 4 } : RingEntry).bytes).setBytes 0x3000 goodTile.bytes, (State.move ((((withTasks [(0, some { job with claims := [{ port := 1, qid := 5, idx := 2 }] })] []).setQueue 5 { state := qEnabled, base := 0x2000, entries := 4, count := 3, claims := [2], claimed := 1, stride := 3 }).setBytes 0x2020 ({ addr := 0x3000, len16 := 1, seq := 4 } : RingEntry).bytes).setBytes 0x3000 goodTile.bytes) (some (0, 0x3000)) (fun _ => 0) [(0, 0x4067FD0)] 48 0).2, by unfold State.Acts; decide +kernel⟩

theorem wit_tileInstructionsComplete_c2 : ∃ (eng : Fin 128) (pc : Word) (rs1 : Word) (rd : Fin 32) (imm : BitVec 12) (slot : Nat) (x : Task) (o : OutRes) (s : State) (u : State),
    s.Acts eng slot x ∧ ((s.libraryWork eng slot).engine eng).graceOver = false ∧ imm.toNat < 16 ∧ imm.toNat < x.nd.outPorts ∧ rs1.toNat % 16 = 0 ∧ x.isLibrary = false ∧ x.nextOut imm.toNat = some o ∧ ((s.libraryWork eng slot).putInvalid x (o.ents.map (fun e => e.1)) (hdrOf ((s.libraryWork eng slot).bytesAt (x.lm + rs1.toNat) 32)) = false) ∧ rs1.toNat + 32 + 16 * (hdrOf ((s.libraryWork eng slot).bytesAt (x.lm + rs1.toNat) 32)).len16 ≤ x.lmSize ∧ ((s.libraryWork eng slot).move none (fun i => (({ hdr := x.putHeader o.seq (hdrOf ((s.libraryWork eng slot).bytesAt (x.lm + rs1.toNat) 32)), payload := (s.libraryWork eng slot).bytesAt (x.lm + rs1.toNat + 32) (16 * (hdrOf ((s.libraryWork eng slot).bytesAt (x.lm + rs1.toNat) 32)).len16) } : Tile).sealed).bytes.getD i 0) (o.ents.map (fun e => (s.libraryWork eng slot).slotVia e.1 (((s.libraryWork eng slot).queue e.1).slotAddr e.2))) (({ hdr := x.putHeader o.seq (hdrOf ((s.libraryWork eng slot).bytesAt (x.lm + rs1.toNat) 32)), payload := (s.libraryWork eng slot).bytesAt (x.lm + rs1.toNat + 32) (16 * (hdrOf ((s.libraryWork eng slot).bytesAt (x.lm + rs1.toNat) 32)).len16) } : Tile).sealed).bytes.length (16 * (s.libraryWork eng slot).unitsDone eng 2 o.port rs1.toNat) = (none, u)) :=
  ⟨3, 0, 0x10, 1, 1, 0, { job with outs := [{ port := 1, seq := 8, ents := [(6, 0)] }] }, { port := 1, seq := 8, ents := [(6, 0)] }, ({ (withTasks [(0, some { job with outs := [{ port := 1, seq := 8, ents := [(6, 0)] }] })] []) with str := { active := some { nodes := [{ job.nd with id := 9 }], edges := [{ qid := 6, prod := 9, prodPort := 1, cons := 10, format := 0x0500, entries := 4 }] } } }.setQueue 6 { state := qEnabled, base := 0x8000, entries := 4, reserved := 1, stride := 3 }).setBytes 0x4060010 goodTile.bytes, (State.move (({ (withTasks [(0, some { job with outs := [{ port := 1, seq := 8, ents := [(6, 0)] }] })] []) with str := { active := some { nodes := [{ job.nd with id := 9 }], edges := [{ qid := 6, prod := 9, prodPort := 1, cons := 10, format := 0x0500, entries := 4 }] } } }.setQueue 6 { state := qEnabled, base := 0x8000, entries := 4, reserved := 1, stride := 3 }).setBytes 0x4060010 goodTile.bytes) none (fun i => (({ hdr := job.putHeader 8 goodTile.hdr, payload := goodTile.payload } : Tile).sealed).bytes.getD i 0) [(0, 0x9000)] 48 0).2, by unfold State.Acts; decide +kernel⟩

theorem wit_tileInstructionsComplete_c3 : ∃ (eng : Fin 128) (pc : Word) (rs1 : Word) (rd : Fin 32) (imm : BitVec 12) (slot : Nat) (x : Task) (a : Nat × Nat) (b : Nat × Nat) (s : State) (u : State),
    s.Acts eng slot x ∧ ((s.libraryWork eng slot).engine eng).graceOver = false ∧ imm.toNat < 32 ∧ 16 ≤ imm.toNat ∧ imm.toNat % 16 < x.nd.inPorts ∧ rs1.toNat % 16 = 0 ∧ x.reach rs1.toNat 32 = some a ∧ (s.libraryWork eng slot).unitStop 0 a 32 false = none ∧ (x.reach rs1.toNat (32 + (if (hdrOf ((s.libraryWork eng slot).vread a.1 a.2 32)).valid then 16 * (hdrOf ((s.libraryWork eng slot).vread a.1 a.2 32)).len16 else 0)) = some b) ∧ ((s.libraryWork eng slot).move (some b) (fun _ => 0) [] (32 + (if (hdrOf ((s.libraryWork eng slot).vread a.1 a.2 32)).valid then 16 * (hdrOf ((s.libraryWork eng slot).vread a.1 a.2 32)).len16 else 0)) (16 * (s.libraryWork eng slot).unitsDone eng 3 (imm.toNat % 16) rs1.toNat) = (none, u)) ∧ (verify (tileOf (u.vread b.1 b.2 (32 + (if (hdrOf ((s.libraryWork eng slot).vread a.1 a.2 32)).valid then 16 * (hdrOf ((s.libraryWork eng slot).vread a.1 a.2 32)).len16 else 0))) 0) true (u.tileSeal eng 3 (imm.toNat % 16) rs1.toNat (u.vread b.1 b.2 (32 + (if (hdrOf ((s.libraryWork eng slot).vread a.1 a.2 32)).valid then 16 * (hdrOf ((s.libraryWork eng slot).vread a.1 a.2 32)).len16 else 0)))) = none) :=
  ⟨3, 0, 0x100, 31, 0x11, 0, job, (0, 0x4060100), (0, 0x4060100), (withTasks [(0, some job)] []).setBytes 0x4060100 goodTile.bytes, (State.move ((withTasks [(0, some job)] []).setBytes 0x4060100 goodTile.bytes) (some (0, 0x4060100)) (fun _ => 0) [] 48 0).2, by unfold State.Acts; decide +kernel⟩

theorem wit_queueInstructionsComplete_c1 : ∃ (eng : Fin 128) (pc : Word) (rs1 : Word) (rs2 : Word) (rd : Fin 32) (slot : Nat) (x : Task) (s : State),
    s.Acts eng slot x ∧ (rs1.toNat % 0x10000) ≠ 0xFFFF ∧ rs2.toNat ≠ 0 ∧ ((s.libraryWork eng slot).queue (rs1.toNat % 0x10000)).state = qEnabled ∧ rs2.toNat ≤ ((s.libraryWork eng slot).queue (rs1.toNat % 0x10000)).free :=
  ⟨3, 8, 0xABCD0005, 2, 5, 0, job, (withTasks [(0, some job)] []).setQueue 5 { state := qEnabled, base := 0x2000, entries := 4, count := 2, stride := 3 }, by unfold State.Acts; decide +kernel⟩

theorem wit_queueInstructionsComplete_c2 : ∃ (eng : Fin 128) (pc : Word) (rs1 : Word) (rs2 : Word) (rd : Fin 32) (f : BitVec 7) (slot : Nat) (x : Task) (s : State),
    s.Acts eng slot x ∧ f.toNat ≤ 1 ∧ (rs1.toNat % 0x10000) ≠ 0xFFFF ∧ ((s.libraryWork eng slot).queue (rs1.toNat % 0x10000)).state = qEnabled ∧ (f.toNat = 1 ∨ rs2.toNat ≤ ((s.libraryWork eng slot).queue (rs1.toNat % 0x10000)).count - ((s.libraryWork eng slot).queue (rs1.toNat % 0x10000)).claimed) :=
  ⟨3, 8, 0xABCD0005, 1, 5, 0, 0, job, (withTasks [(0, some job)] []).setQueue 5 { state := qEnabled, base := 0x2000, entries := 4, count := 2, claimed := 1, claims := [0], stride := 3 }, by unfold State.Acts; decide +kernel⟩

theorem wit_queueInstructionsComplete_c2b : ∃ (eng : Fin 128) (pc : Word) (rs1 : Word) (rs2 : Word) (rd : Fin 32) (f : BitVec 7) (slot : Nat) (x : Task) (s : State),
    s.Acts eng slot x ∧ f.toNat ≤ 1 ∧ (rs1.toNat % 0x10000) ≠ 0xFFFF ∧ ((s.libraryWork eng slot).queue (rs1.toNat % 0x10000)).state = qEnabled ∧ (f.toNat = 1 ∨ rs2.toNat ≤ ((s.libraryWork eng slot).queue (rs1.toNat % 0x10000)).count - ((s.libraryWork eng slot).queue (rs1.toNat % 0x10000)).claimed) :=
  ⟨3, 8, 5, 9, 0, 1, 0, job, (withTasks [(0, some job)] []).setQueue 5 { state := qEnabled, base := 0x2000, entries := 4, stride := 3 }, by unfold State.Acts; decide +kernel⟩

theorem wit_queueInstructionsComplete_c3 : ∃ (eng : Fin 128) (pc : Word) (slot : Nat) (x : Task) (s : State),
    s.Acts eng slot x ∧ (s.libraryWork eng slot).preemptOf slot = none :=
  ⟨3, 0xFFFFFFFC, 0, job, withTasks [(0, some job)] [], by unfold State.Acts; decide +kernel⟩

theorem wit_queueInstructionsComplete_c4 : ∃ (eng : Fin 128) (pc : Word) (c : Nat) (slot : Nat) (p : Preempt) (x : Task) (y : Task) (s : State),
    s.Acts eng slot x ∧ (s.libraryWork eng slot).preemptOf slot = some (c, p) ∧ (KMap.get (fun _ => none) (s.libraryWork eng slot).sch.preempts c = some p) ∧ x.engine = eng.val ∧ (s.libraryWork eng slot).task p.waiting = some y ∧ p.waiting ≠ slot ∧ y.listed = true ∧ (s.libraryWork eng slot).underTest (eng.val / 8) = false :=
  ⟨3, 8, 0, 0, { waiting := 1, victim := 0, ctx := 0 }, job, urgent, withTasks [(0, some job), (1, some urgent)] [(0, some { waiting := 1, victim := 0, ctx := 0 })], by unfold State.Acts; decide +kernel⟩

theorem wit_engineCommandsComplete_c1 : ∃ (eng : Fin 128) (a0 : Word) (slot : Nat) (x : Task) (s : State),
    s.Acts eng slot x :=
  ⟨3, 0, 0, job, withTasks [(0, some job)] [], by unfold State.Acts; decide +kernel⟩

theorem wit_engineCommandsComplete_c1b : ∃ (eng : Fin 128) (a0 : Word) (slot : Nat) (x : Task) (s : State),
    s.Acts eng slot x :=
  ⟨3, 7, 0, job, withTasks [(0, some job)] [], by unfold State.Acts; decide +kernel⟩

theorem wit_engineCommandsComplete_c2 : ∃ (eng : Fin 128) (cause : Byte) (tval : Word) (pc : Word) (slot : Nat) (x : Task) (s : State),
    s.Inv ∧ s.Acts eng slot x ∧ (s.libraryWork eng slot).rd (F.ENG_E_TRAP_VALID eng) = 0 :=
  ⟨3, 2, 0xFFFFFFFF, 0x20000040, 0, job, withTasks [(0, some job)] [], ⟨by decide +kernel, by decide +kernel, by decide +kernel⟩, by unfold State.Acts; decide +kernel⟩

theorem wit_engineCommandsComplete_c3 : ∃ (src : Agent) (val : Word) (s : State),
    s.Inv ∧ s.Passes src F.ENG_KTAB_CMD_INSTALL ∧ s.rd F.ENG_STATUS_LIB_BUSY = 0 :=
  ⟨.phobos, mk [(F.ENG_KTAB_CMD_INSTALL, 1), (F.ENG_KTAB_CMD_COUNT, 3)], put day [(F.ENG_KTAB_ADDR_LO_ADDR, 5), (F.ENG_KTAB_ADDR_HI_ADDR, 1)], ⟨by decide +kernel, by decide +kernel, by decide +kernel⟩, by unfold State.Passes; decide +kernel⟩

theorem wit_engineCommandsComplete_c4 : ∃ (src : Agent) (val : Word) (s : State),
    s.Inv ∧ s.Passes src F.ENG_LIB_CMD_LOAD ∧ s.rd F.ENG_STATUS_LIB_BUSY = 0 :=
  ⟨.phobos, mk [(F.ENG_LIB_CMD_LOAD, 1)], put day [(F.ENG_LIB_ADDR_LO_ADDR, 5), (F.ENG_LIB_ADDR_HI_ADDR, 1), (F.ENG_LIB_LEN_LEN, 0x1000)], ⟨by decide +kernel, by decide +kernel, by decide +kernel⟩, by unfold State.Passes; decide +kernel⟩

theorem wit_engineCommandsComplete_c5 : ∃ (a : Nat) (n : Nat) (ks : List Kernel) (s : State),
    s.Inv ∧ s.eng.op = some (.install a n) ∧ s.installCheck a n = (0, ks) :=
  ⟨0x100000, 1, (State.installCheck (({ day with eng := { op := some (.install 0x100000 1) } }.setBytes 0x100000 (leBytes 4 0x20000 ++ leBytes 1 0 ++ leBytes 1 1 ++ leBytes 2 0 ++ leBytes 8 0x100100 ++ leBytes 4 0x40 ++ leBytes 4 0 ++ leBytes 4 0x1000 ++ leBytes 2 0)).wr F.ENG_STATUS_LIB_BUSY 1) (0x100000) (1)).2, ({ day with eng := { op := some (.install 0x100000 1) } }.setBytes 0x100000 (leBytes 4 0x20000 ++ leBytes 1 0 ++ leBytes 1 1 ++ leBytes 2 0 ++ leBytes 8 0x100100 ++ leBytes 4 0x40 ++ leBytes 4 0 ++ leBytes 4 0x1000 ++ leBytes 2 0)).wr F.ENG_STATUS_LIB_BUSY 1, ⟨by decide +kernel, by decide +kernel, by decide +kernel⟩, by decide +kernel⟩

theorem wit_engineCommandsComplete_c5b : ∃ (a : Nat) (n : Nat) (ks : List Kernel) (s : State),
    s.Inv ∧ s.eng.op = some (.install a n) ∧ s.installCheck a n = (0, ks) :=
  ⟨0, 0, [], { day with eng := { op := some (.install 0 0) } }.wr F.ENG_STATUS_LIB_BUSY 1, ⟨by decide +kernel, by decide +kernel, by decide +kernel⟩, by decide +kernel⟩

theorem wit_engineCommandsComplete_c7 : ∃ (src : Agent) (val : Word) (s : State),
    (KMap.wf (fun _ => {}) s.eng.engines = true) ∧ s.Passes src F.ENG_CTRL_CNT_CLR :=
  ⟨.phobos, mk [(F.ENG_CTRL_CNT_CLR, 1)], { day with eng := { engines := [(0, { mcycle := 7 }), (127, { minstret := 9, vec := 3, tstall := 1, mstall := 2, winTasks := 5 })] } }, by unfold State.Passes; decide +kernel⟩

theorem wit_engineCommandsComplete_c8_1 : ∃ (eng : Fin 128) (slot : Nat) (x : Task) (rd : Fin 32) (rs1 : Fin 32) (rs2 : Fin 32) (imm : Int) (s : State),
    s.running eng = some (slot, x) ∧ s.engineHeld eng = false ∧ x.isLibrary = false ∧ (s.engine eng).waiting = false ∧ -2048 ≤ imm ∧ imm < 2048 ∧ s.fetchInstr x ((s.engine eng).regs).pc = .word (mkI 0x13 0 rd rs1 imm) 4 :=
  ⟨3, 0, kernelJob, 31, 6, 0, -2048, kernelAt (mkI 0x13 0 31 6 (-2048)), by decide +kernel⟩

theorem wit_engineCommandsComplete_c8_1b : ∃ (eng : Fin 128) (slot : Nat) (x : Task) (rd : Fin 32) (rs1 : Fin 32) (rs2 : Fin 32) (imm : Int) (s : State),
    s.running eng = some (slot, x) ∧ s.engineHeld eng = false ∧ x.isLibrary = false ∧ (s.engine eng).waiting = false ∧ -2048 ≤ imm ∧ imm < 2048 ∧ s.fetchInstr x ((s.engine eng).regs).pc = .word (mkI 0x13 0 rd rs1 imm) 4 :=
  ⟨3, 0, kernelJob, 0, 0, 0, 2047, kernelAt (mkI 0x13 0 0 0 2047), by decide +kernel⟩

theorem wit_engineCommandsComplete_c8_2 : ∃ (eng : Fin 128) (slot : Nat) (x : Task) (rd : Fin 32) (rs1 : Fin 32) (rs2 : Fin 32) (imm : Int) (s : State),
    s.running eng = some (slot, x) ∧ s.engineHeld eng = false ∧ x.isLibrary = false ∧ (s.engine eng).waiting = false ∧ -2048 ≤ imm ∧ imm < 2048 ∧ s.fetchInstr x ((s.engine eng).regs).pc = .word (mkI 0x03 2 rd rs1 imm) 4 ∧ (wrap32 ((((s.engine eng).regs).rx rs1 : Int) + imm)) % 4 = 0 ∧ (wrap32 ((((s.engine eng).regs).rx rs1 : Int) + imm)) + 4 ≤ x.lmSize :=
  ⟨3, 0, kernelJob, 6, 6, 0, -4, kernelAt (mkI 0x03 2 6 6 (-4)), by decide +kernel⟩

theorem wit_engineCommandsComplete_c8_3 : ∃ (eng : Fin 128) (slot : Nat) (x : Task) (rd : Fin 32) (rs1 : Fin 32) (rs2 : Fin 32) (imm : Int) (s : State),
    s.running eng = some (slot, x) ∧ s.engineHeld eng = false ∧ x.isLibrary = false ∧ (s.engine eng).waiting = false ∧ -2048 ≤ imm ∧ imm < 2048 ∧ s.fetchInstr x ((s.engine eng).regs).pc = .word (mkS 0x23 2 rs1 rs2 imm.toNat) 4 ∧ 0 ≤ imm ∧ (wrap32 ((((s.engine eng).regs).rx rs1 : Int) + imm)) % 4 = 0 ∧ (wrap32 ((((s.engine eng).regs).rx rs1 : Int) + imm)) + 4 ≤ x.lmSize :=
  ⟨3, 0, kernelJob, 0, 6, 7, 36, kernelAt (mkS 0x23 2 6 7 36), by decide +kernel⟩

theorem wit_laneCommandsComplete_c1 : ∃ (src : Agent) (g : Fin 4) (val : Word) (s : State),
    s.Inv ∧ s.Passes src (F.SLK_G_CFG_EN g) ∧ s.rd (F.SLK_G_CFG_EN g) = 0 ∧ (F.SLK_G_CFG_EN g).of val = 1 ∧ (F.SLK_G_CFG_LOOP g).of val = 0 ∧ (F.SLK_G_CFG_TX_MODE g).of val ≤ 1 ∧ s.laneUnderTest (0x20 + g) = false :=
  ⟨.phobos, 3, mk [(F.SLK_G_CFG_EN 3, 1), (F.SLK_G_CFG_WIDTH 3, 3), (F.SLK_G_CFG_TX_MODE 3, 1)], put day [(F.SLK_L_STATUS_LSTATE 35, 2)], ⟨by decide +kernel, by decide +kernel, by decide +kernel⟩, by unfold State.Passes; decide +kernel⟩

theorem wit_laneCommandsComplete_c2 : ∃ (src : Agent) (g : Fin 4) (val : Word) (inc : BitVec 18) (s : State),
    s.Inv ∧ s.Passes src (F.SLK_G_CFG_EN g) ∧ s.grpCfgBad g (val ||| 0x40000000) = false ∧ s.rd (F.SLK_G_CFG_EN g) = 1 ∧ (F.SLK_G_CFG_EN g).of val = 1 ∧ (F.SLK_G_CFG_LOOP g).of val = s.rd (F.SLK_G_CFG_LOOP g) ∧ s.laneUnderTest (0x20 + g) = false :=
  ⟨.phobos, 3, mk [(F.SLK_G_CFG_EN 3, 1), (F.SLK_G_CFG_WIDTH 3, 3)] ||| 0x40000000, 0b100000000000000001, put day [(F.SLK_G_CFG_EN 3, 1), (F.SLK_G_CFG_WIDTH 3, 3), (F.SLK_G_HCRC_ERR_COUNT 3, 9)], ⟨by decide +kernel, by decide +kernel, by decide +kernel⟩, by unfold State.Passes; decide +kernel⟩

theorem wit_laneCommandsComplete_c3_1 : ∃ (l : Fin 36) (s : State),
    s.Inv ∧ s.laneUsed l = true ∧ s.rd (F.SLK_L_STATUS_LSTATE l) = 0 :=
  ⟨35, put day [(F.SLK_G_CFG_EN 3, 1)], ⟨by decide +kernel, by decide +kernel, by decide +kernel⟩, by decide +kernel⟩

theorem wit_laneCommandsComplete_c3_2 : ∃ (l : Fin 36) (s : State),
    s.Inv ∧ s.laneUsed l = true ∧ s.rd (F.SLK_L_STATUS_LSTATE l) = 1 :=
  ⟨35, put day [(F.SLK_G_CFG_EN 3, 1), (F.SLK_G_STATUS_GSTATE 3, 1), (F.SLK_L_STATUS_LSTATE 35, 1), (F.SLK_L_STATUS_LSTATE 27, 2)], ⟨by decide +kernel, by decide +kernel, by decide +kernel⟩, by decide +kernel⟩

theorem wit_laneCommandsComplete_c3_3 : ∃ (l : Fin 36) (s : State) (v : BitVec 10),
    s.Inv ∧ s.laneUsed l = true ∧ s.rd (F.SLK_L_STATUS_LSTATE l) = 2 :=
  ⟨27, put day [(F.SLK_G_CFG_EN 3, 1), (F.SLK_G_STATUS_GSTATE 3, 2), (F.SLK_L_STATUS_LSTATE 27, 2), (F.SLK_L_ERR_COUNT 27, 0xFFFFFFFD)], 5, ⟨by decide +kernel, by decide +kernel, by decide +kernel⟩, by decide +kernel⟩

theorem wit_laneCommandsComplete_c4 : ∃ (g : Fin 4) (skews : List Byte) (together : Bool) (s : State),
    s.Inv ∧ s.gstate g = 2 ∧ s.allAligned g = true ∧ (((s.grpCarry g).mapIdx (fun i _ => (skews.map (fun b => b.toNat)).getD i 0)).any (fun x => decide (31 < x)) = false) :=
  ⟨3, [0, 31], true, put { day with slk := [(3, { skews := some [0, 31] })] } [(F.SLK_G_CFG_EN 3, 1), (F.SLK_G_STATUS_GSTATE 3, 2), (F.SLK_L_STATUS_LSTATE 35, 2), (F.SLK_L_STATUS_LSTATE 27, 2)], ⟨by decide +kernel, by decide +kernel, by decide +kernel⟩, by decide +kernel⟩

theorem wit_laneCommandsComplete_c4b : ∃ (g : Fin 4) (skews : List Byte) (together : Bool) (s : State),
    s.Inv ∧ s.gstate g = 2 ∧ s.allAligned g = true ∧ (((s.grpCarry g).mapIdx (fun i _ => (skews.map (fun b => b.toNat)).getD i 0)).any (fun x => decide (31 < x)) = false) :=
  ⟨3, [0, 31], true, put day [(F.SLK_G_CFG_EN 3, 1), (F.SLK_G_STATUS_GSTATE 3, 2), (F.SLK_L_STATUS_LSTATE 35, 2), (F.SLK_L_STATUS_LSTATE 27, 2)], ⟨by decide +kernel, by decide +kernel, by decide +kernel⟩, by decide +kernel⟩

theorem wit_laneCommandsComplete_c5 : ∃ (g : Fin 4) (s : State),
    s.Inv ∧ s.gstate g = 3 ∧ s.intakeOf g = none :=
  ⟨3, put day [(F.SLK_G_CFG_EN 3, 1), (F.SLK_G_STATUS_GSTATE 3, 3), (F.SLK_G_UNDERRUN_COUNT 3, 0xFFFFFFFF)], ⟨by decide +kernel, by decide +kernel, by decide +kernel⟩, by decide +kernel⟩

theorem wit_laneCommandsComplete_c6 : ∃ (g : Fin 4) (n : Node) (f : IFrame) (s : State),
    s.gstate g = 3 ∧ s.intakeOf g = some n ∧ (s.intake n.id).frames.getLast? = some f :=
  ⟨1, intakeNode, { num := 7, fcnt := 7 }, sensor [{ num := 7, fcnt := 7 }], by decide +kernel⟩

theorem wit_sensorPacketsComplete_c1_1 : ∃ (g : Fin 4) (p : SlkPacket) (n : Node) (s : State) (cancel : Bool),
    s.gstate g = 3 ∧ s.intakeOf g = some n ∧ pktFld p 1 1 % 16 = n.par 0 1 ∧ goodPacket 1 p ∧ (s.intake n.id).fcnt ≠ some (pktFld p 6 2) ∧ (s.image.tbs.any (fun t => t.kind == 1 && t.source == n.stream) = false) :=
  ⟨1, packet 1 5 0 8 0 0 [0, 0, 0, 0, 0, 0, 0, 0], intakeNode, sensor [], true, by unfold goodPacket; decide +kernel⟩

theorem wit_sensorPacketsComplete_c1_1b : ∃ (g : Fin 4) (p : SlkPacket) (n : Node) (s : State) (cancel : Bool),
    s.gstate g = 3 ∧ s.intakeOf g = some n ∧ pktFld p 1 1 % 16 = n.par 0 1 ∧ goodPacket 1 p ∧ (s.intake n.id).fcnt ≠ some (pktFld p 6 2) ∧ (s.image.tbs.any (fun t => t.kind == 1 && t.source == n.stream) = false) :=
  ⟨0, packet 1 5 0 0xFFFF 0 0 [], intakeNode, sensor [{ num := 7, fcnt := 7 }], false, by unfold goodPacket; decide +kernel⟩

theorem wit_sensorPacketsComplete_c1_2_1 : ∃ (g : Fin 4) (p : SlkPacket) (n : Node) (s : State) (f : IFrame),
    s.gstate g = 3 ∧ s.intakeOf g = some n ∧ pktFld p 1 1 % 16 = n.par 0 1 ∧ (s.grp g).seenFs = true ∧ (s.intake n.id).fcnt = some (pktFld p 6 2) ∧ (s.intake n.id).frames.getLast? = some f ∧ f.complete = false ∧ goodPacket 2 p :=
  ⟨1, packet 2 5 0 7 0 0 [], intakeNode, sensor [{ num := 7, fcnt := 7, fe := [0] }], { num := 7, fcnt := 7, fe := [0] }, by unfold goodPacket; decide +kernel⟩

theorem wit_sensorPacketsComplete_c1_2_2 : ∃ (g : Fin 4) (p : SlkPacket) (n : Node) (s : State) (f : IFrame),
    s.gstate g = 3 ∧ s.intakeOf g = some n ∧ pktFld p 1 1 % 16 = n.par 0 1 ∧ (s.grp g).seenFs = true ∧ (s.intake n.id).fcnt = some (pktFld p 6 2) ∧ (s.intake n.id).frames.getLast? = some f ∧ f.complete = false ∧ goodPacket 3 p ∧ pktFld p 10 1 = (s.framePix n f).packing ∧ s.lineOk g n p = true :=
  ⟨1, packet 3 5 31 7 48 1 (List.replicate 16 9), intakeNode, sensor [{ num := 7, fcnt := 7, tables := [{ id := 1, kind := 1, addr := 0x100, bodyLen := 32 }] }], { num := 7, fcnt := 7, tables := [{ id := 1, kind := 1, addr := 0x100, bodyLen := 32 }] }, by unfold goodPacket; decide +kernel⟩

theorem wit_sensorPacketsComplete_c1_2_3 : ∃ (g : Fin 4) (p : SlkPacket) (n : Node) (s : State) (f : IFrame),
    s.gstate g = 3 ∧ s.intakeOf g = some n ∧ pktFld p 1 1 % 16 = n.par 0 1 ∧ (s.grp g).seenFs = true ∧ (s.intake n.id).fcnt = some (pktFld p 6 2) ∧ (s.intake n.id).frames.getLast? = some f ∧ f.complete = false ∧ goodPacket 4 p ∧ n.takesMeta = true ∧ f.metaBytes.length + 4 + p.payload.length ≤ (s.framePix n f).maxPayload :=
  ⟨0, packet 4 5 2 7 0 0 (List.replicate 8 9), intakeNode, sensor [{ num := 7, fcnt := 7, tables := [{ id := 1, kind := 1, addr := 0x100, bodyLen := 32 }] }], { num := 7, fcnt := 7, tables := [{ id := 1, kind := 1, addr := 0x100, bodyLen := 32 }] }, by unfold goodPacket; decide +kernel⟩

theorem wit_sensorPacketsComplete_c2_1 : ∃ (g : Fin 4) (p : SlkPacket) (s : State),
    s.Inv ∧ (s.gstate g = 3 ∨ s.gstate g = 5) ∧ goodPacket 0x12 p ∧ (s.grp g).phase = .sent ∧ (s.grp g).tagOut = some (pktFld p 2 2) ∧ (s.grp g).stopping = false ∧ leAt p.payload 0 4 = 0 :=
  ⟨2, packet 0x12 0 6 0 0 0 [0, 0, 0, 0, 1, 2, 3, 4], put { day with slk := [(2, { phase := .sent, tagOut := some 6, table := [2] ++ List.replicate 15 0 })] } [(F.SLK_G_STATUS_GSTATE 2, 5), (F.SLK_G_SEQ_STATUS_WAITING 2, 1)], ⟨by decide +kernel, by decide +kernel, by decide +kernel⟩, by unfold goodPacket; decide +kernel⟩

theorem wit_sensorPacketsComplete_c2_2 : ∃ (g : Fin 4) (p : SlkPacket) (s : State),
    s.Inv ∧ (s.gstate g = 3 ∨ s.gstate g = 5) ∧ goodPacket 0x20 p ∧ pktTestOk p = true ∧ (s.rd (F.SLK_G_CFG_LOOP g) = 0 ∨ s.rd (F.SLK_G_CFG_LOOP g) = 3) :=
  ⟨2, packet 0x20 0 0 0 0 0 [0, 1, 2], put day [(F.SLK_G_STATUS_GSTATE 2, 3), (F.SLK_G_TEST_OK_COUNT 2, 0xFFFFFFFF)], ⟨by decide +kernel, by decide +kernel, by decide +kernel⟩, by unfold goodPacket; decide +kernel⟩

theorem wit_sensorPacketsComplete_c2_3 : ∃ (g : Fin 4) (p : SlkPacket) (s : State),
    s.Inv ∧ (s.gstate g = 3 ∨ s.gstate g = 5) ∧ (s.rd (F.SLK_G_CFG_LOOP g) = 1 ∨ s.rd (F.SLK_G_CFG_LOOP g) = 2) ∧ p.errors = [] ∧ 0 < (s.grp g).echo.left ∧ (s.grp g).echo.next < 256 ∧ 4 ≤ (s.grp g).echo.bytes ∧ (s.grp g).echo.bytes ≤ 16384 :=
  ⟨3, packet 0x20 0 0 0 0 0 [], put { day with slk := [(3, { echo := { next := 255, left := 2, bytes := 4 } })] } [(F.SLK_G_CFG_EN 3, 1), (F.SLK_G_CFG_LOOP 3, 1), (F.SLK_G_STATUS_GSTATE 3, 5), (F.SLK_G_TEST_OK_COUNT 3, 0xFFFFFFFF)], ⟨by decide +kernel, by decide +kernel, by decide +kernel⟩, by decide +kernel⟩

theorem wit_sensorPacketsComplete_c3 : ∃ (node : BitVec 16) (n : Node) (f : IFrame) (s : State),
    (s.image.nodes.find? (fun n => n.kind == 1 && n.id == node.toNat) = some n) ∧ ((s.metaDrain n).intake n.id).frames = [f] ∧ (s.metaDrain n).rowIsReady n = true ∧ (s.metaDrain n).tileHasRoom n = true :=
  ⟨9, intakeNode, { num := 7, fcnt := 7, lastLine := [(0, some 16), (1, some 31)], tables := [{ id := 1, kind := 1, addr := 0x100, bodyLen := 32 }] }, sensor [{ num := 7, fcnt := 7, lastLine := [(0, some 16), (1, some 31)], tables := [{ id := 1, kind := 1, addr := 0x100, bodyLen := 32 }] }], by decide +kernel⟩

theorem wit_sequencerComplete_c1 : ∃ (src : Agent) (g : Fin 4) (val : Word) (x : Table) (s : State),
    s.Inv ∧ (KMap.wf (fun _ => {}) s.slk = true) ∧ s.Passes src (F.SLK_G_SEQ_CMD_START g) ∧ s.rd (F.SLK_G_SEQ_STATUS_RUNNING g) = 0 ∧ (F.SLK_G_SEQ_CMD_STOP g).of val = 0 ∧ findTable s.image.tables ((F.SLK_G_SEQ_CMD_TABLE_ID g).of val) = some x ∧ x.kind = 5 ∧ x.p1 % 256 = 0x10 ∧ (F.SLK_G_SEQ_CMD_TRIGGER g).of val ≤ 1 :=
  ⟨.phobos, 3, mk [(F.SLK_G_SEQ_CMD_START 3, 1), (F.SLK_G_SEQ_CMD_TABLE_ID 3, 4), (F.SLK_G_SEQ_CMD_TRIGGER 3, 1)], { id := 4, kind := 5, p1 := 0x10, p0 := 0x03FF0000, addr := 0x200, bodyLen := 16 }, put { day with str := { active := some { tables := [{ id := 4, kind := 5, p1 := 0x10, p0 := 0x03FF0000, addr := 0x200, bodyLen := 16 }] } } } [(F.SLK_G_SEQ_ACC_ACC 3, 5)], ⟨by decide +kernel, by decide +kernel, by decide +kernel⟩, by unfold State.Passes; decide +kernel⟩

theorem wit_sequencerComplete_c2 : ∃ (src : Agent) (g : Fin 4) (val : Word) (s : State),
    s.Inv ∧ s.Passes src (F.SLK_G_SEQ_CMD_STOP g) ∧ s.rd (F.SLK_G_SEQ_STATUS_RUNNING g) = 1 ∧ (F.SLK_G_SEQ_CMD_START g).of val = 0 :=
  ⟨.phobos, 3, mk [(F.SLK_G_SEQ_CMD_STOP 3, 1)], put { day with slk := [(3, { phase := .sent })] } [(F.SLK_G_SEQ_STATUS_RUNNING 3, 1)], ⟨by decide +kernel, by decide +kernel, by decide +kernel⟩, by unfold State.Passes; decide +kernel⟩

theorem wit_sequencerComplete_c2b : ∃ (src : Agent) (g : Fin 4) (val : Word) (s : State),
    s.Inv ∧ s.Passes src (F.SLK_G_SEQ_CMD_STOP g) ∧ s.rd (F.SLK_G_SEQ_STATUS_RUNNING g) = 1 ∧ (F.SLK_G_SEQ_CMD_START g).of val = 0 :=
  ⟨.phobos, 3, mk [(F.SLK_G_SEQ_CMD_STOP 3, 1)], put { day with slk := [(3, { phase := .ready })] } [(F.SLK_G_SEQ_STATUS_RUNNING 3, 1)], ⟨by decide +kernel, by decide +kernel, by decide +kernel⟩, by unfold State.Passes; decide +kernel⟩

theorem wit_sequencerComplete_c3_1 : ∃ (g : Fin 4) (s : State),
    s.Inv ∧ s.rd (F.SLK_G_SEQ_STATUS_RUNNING g) = 1 ∧ (s.grp g).phase = .ready ∧ ((fun (o len : Nat) => seqField (s.grp g).table (s.rd (F.SLK_G_SEQ_STATUS_STATE g)) o len) 0 1 = 4) ∧ ((fun (o len : Nat) => seqField (s.grp g).table (s.rd (F.SLK_G_SEQ_STATUS_STATE g)) o len) 6 2 ≠ 0) :=
  ⟨3, put { day with slk := [(3, { phase := .ready, table := List.replicate 16 0 ++ ([4, 0] ++ leBytes 2 1023 ++ leBytes 2 0 ++ leBytes 2 9 ++ leBytes 4 0x12345678 ++ leBytes 4 0) })] } [(F.SLK_G_SEQ_STATUS_RUNNING 3, 1), (F.SLK_G_SEQ_STATUS_STATE 3, 1)], ⟨by decide +kernel, by decide +kernel, by decide +kernel⟩, by decide +kernel⟩

theorem wit_sequencerComplete_c3_2 : ∃ (g : Fin 4) (s : State),
    s.Inv ∧ s.rd (F.SLK_G_SEQ_STATUS_RUNNING g) = 1 ∧ (s.grp g).phase = .ready ∧ ((fun (o len : Nat) => seqField (s.grp g).table (s.rd (F.SLK_G_SEQ_STATUS_STATE g)) o len) 0 1 = 4) ∧ ((fun (o len : Nat) => seqField (s.grp g).table (s.rd (F.SLK_G_SEQ_STATUS_STATE g)) o len) 6 2 = 0) ∧ ((fun (o len : Nat) => seqField (s.grp g).table (s.rd (F.SLK_G_SEQ_STATUS_STATE g)) o len) 1 1 = 0) ∧ ((fun (o len : Nat) => seqField (s.grp g).table (s.rd (F.SLK_G_SEQ_STATUS_STATE g)) o len) 2 2 ≠ 0xFFFF) :=
  ⟨3, put { day with slk := [(3, { phase := .ready, table := List.replicate 16 0 ++ ([4, 0] ++ leBytes 2 1023 ++ leBytes 4 0 ++ leBytes 4 0x12345678 ++ leBytes 4 0) })] } [(F.SLK_G_SEQ_STATUS_RUNNING 3, 1), (F.SLK_G_SEQ_STATUS_STATE 3, 1)], ⟨by decide +kernel, by decide +kernel, by decide +kernel⟩, by decide +kernel⟩

theorem wit_sequencerComplete_c3_3 : ∃ (g : Fin 4) (s : State),
    s.Inv ∧ s.rd (F.SLK_G_SEQ_STATUS_RUNNING g) = 1 ∧ (s.grp g).phase = .ready ∧ (1 ≤ (fun (o len : Nat) => seqField (s.grp g).table (s.rd (F.SLK_G_SEQ_STATUS_STATE g)) o len) 0 1) ∧ ((fun (o len : Nat) => seqField (s.grp g).table (s.rd (F.SLK_G_SEQ_STATUS_STATE g)) o len) 0 1 ≤ 2) ∧ s.seqMaySend g = true :=
  ⟨3, put { day with slk := [(3, { phase := .ready, tag := 65535, txSeq := 255, table := List.replicate 16 0 ++ ([1, 0] ++ leBytes 2 1023 ++ leBytes 4 0 ++ leBytes 4 0x12345678 ++ leBytes 4 5) })] } [(F.SLK_G_SEQ_STATUS_RUNNING 3, 1), (F.SLK_G_SEQ_STATUS_STATE 3, 1), (F.SLK_G_STATUS_GSTATE 3, 3)], ⟨by decide +kernel, by decide +kernel, by decide +kernel⟩, by decide +kernel⟩

theorem wit_sequencerComplete_c4 : ∃ (g : Fin 4) (s : State),
    s.Inv ∧ (s.grp g).phase = .sent ∧ (s.grp g).stopping = false :=
  ⟨3, { day with slk := [(3, { phase := .sent, tagOut := some 8 })] }.wr (F.SLK_G_SEQ_STATUS_RUNNING 3) 1, ⟨by decide +kernel, by decide +kernel, by decide +kernel⟩, by decide +kernel⟩

theorem wit_sequencerComplete_c5_1 : ∃ (g : Fin 4) (s : State),
    s.Inv ∧ s.gstate g = 3 ∧ s.rd (F.SLK_G_CFG_TX_MODE g) = 1 ∧ s.rd (F.SLK_G_STATUS_MIRRORING g) = 0 :=
  ⟨3, put day [(F.SLK_G_STATUS_GSTATE 3, 3), (F.SLK_G_CFG_TX_MODE 3, 1)], ⟨by decide +kernel, by decide +kernel, by decide +kernel⟩, by decide +kernel⟩

theorem wit_sequencerComplete_c5_2 : ∃ (g : Fin 4) (s : State),
    s.Inv ∧ s.gstate g = 3 ∧ s.rd (F.SLK_G_CFG_TX_MODE g) = 0 ∧ s.rd (F.SLK_G_STATUS_MIRRORING g) = 1 :=
  ⟨3, put day [(F.SLK_G_STATUS_GSTATE 3, 3), (F.SLK_G_STATUS_MIRRORING 3, 1)], ⟨by decide +kernel, by decide +kernel, by decide +kernel⟩, by decide +kernel⟩

theorem wit_spareAndClockComplete_c1_1 : ∃ (src : Agent) (g : Fin 4) (val : Word) (s : State),
    s.Inv ∧ s.gstate g = 3 ∧ (s.grp g).spare = none ∧ s.mnt.acts = [] ∧ s.rd F.UPD_STATUS_STATE ≠ 3 ∧ s.Passes src (F.SLK_G_SPARE_TAKEOVER g) ∧ s.rd (F.SLK_G_STATUS_SPARE_ACTIVE g) = 0 ∧ (F.SLK_G_SPARE_RELEASE g).of val = 0 :=
  ⟨.phobos, 3, mk [(F.SLK_G_SPARE_TAKEOVER 3, 1), (F.SLK_G_SPARE_POSITION 3, 0)], put day [(F.SLK_G_CFG_EN 3, 1), (F.SLK_G_STATUS_GSTATE 3, 3)], ⟨by decide +kernel, by decide +kernel, by decide +kernel⟩, by unfold State.Passes; decide +kernel⟩

theorem wit_spareAndClockComplete_c1_2 : ∃ (src : Agent) (g : Fin 4) (val : Word) (s : State),
    s.Inv ∧ s.gstate g = 3 ∧ (s.grp g).spare = none ∧ s.mnt.acts = [] ∧ s.rd F.UPD_STATUS_STATE ≠ 3 ∧ s.Passes src (F.SLK_G_SPARE_TAKEOVER g) ∧ s.rd (F.SLK_G_STATUS_SPARE_ACTIVE g) = 1 ∧ (F.SLK_G_SPARE_TAKEOVER g).of val = 0 :=
  ⟨.phobos, 3, mk [(F.SLK_G_SPARE_RELEASE 3, 1)], put day [(F.SLK_G_CFG_EN 3, 1), (F.SLK_G_STATUS_GSTATE 3, 3), (F.SLK_G_STATUS_SPARE_ACTIVE 3, 1)], ⟨by decide +kernel, by decide +kernel, by decide +kernel⟩, by unfold State.Passes; decide +kernel⟩

theorem wit_spareAndClockComplete_c2 : ∃ (g : Fin 4) (rel : Bool) (pos : Nat) (s : State),
    s.Inv ∧ (s.grp g).spare = some (rel, pos) :=
  ⟨3, false, 5, put { day with slk := [(3, { spare := some (false, 5) })], mnt := { acts := [{ act := .cal 2 }, { act := .spare 3 false }] } } [(F.SLK_G_CFG_EN 3, 1), (F.SLK_G_STATUS_GSTATE 3, 3)], ⟨by decide +kernel, by decide +kernel, by decide +kernel⟩, by decide +kernel⟩

theorem wit_spareAndClockComplete_c2b : ∃ (g : Fin 4) (rel : Bool) (pos : Nat) (s : State),
    s.Inv ∧ (s.grp g).spare = some (rel, pos) :=
  ⟨0, true, 7, put { day with slk := [(0, { spare := some (true, 7), spareFor := some 7 })] } [(F.SLK_G_CFG_EN 0, 1), (F.SLK_G_STATUS_GSTATE 0, 3), (F.SLK_G_STATUS_SPARE_ACTIVE 0, 1)], ⟨by decide +kernel, by decide +kernel, by decide +kernel⟩, by decide +kernel⟩

theorem wit_spareAndClockComplete_c3 : ∃ (src : Agent) (g : Fin 4) (val : Word) (s : State),
    s.Inv ∧ s.Passes src (F.SLK_G_TEST_GO g) ∧ (F.SLK_G_TEST_COUNT g).of val ≠ 0 :=
  ⟨.phobos, 0, mk [(F.SLK_G_TEST_GO 0, 1), (F.SLK_G_TEST_COUNT 0, 3)], put day [(F.SLK_G_CFG_EN 0, 1), (F.SLK_G_STATUS_GSTATE 0, 3)], ⟨by decide +kernel, by decide +kernel, by decide +kernel⟩, by unfold State.Passes; decide +kernel⟩

theorem wit_spareAndClockComplete_c4 : ∃ (g : Fin 4) (count : Nat) (back : Nat) (s : State),
    s.Inv ∧ (s.grp g).test = some (count, back) :=
  ⟨0, 5, 3, { day with slk := [(0, { test := some (5, 3) })] }.wr (F.SLK_G_TEST_ERR_COUNT 0) 0xFFFFFFFE, ⟨by decide +kernel, by decide +kernel, by decide +kernel⟩, by decide +kernel⟩

theorem wit_spareAndClockComplete_c5 : ∃ (g : Fin 4) (s : State),
    s.Inv ∧ s.rd (F.SLK_G_STATUS_CLK g) ≠ 0 ∧ (s.gstate g ≠ 3 ∨ s.intakeOf g = none) :=
  ⟨0, put day [(F.SLK_G_CFG_EN 0, 1), (F.SLK_G_STATUS_CLK 0, 2), (F.SLK_G_STATUS_GSTATE 0, 3), (F.SLK_L_STATUS_LSTATE 8, 2)], ⟨by decide +kernel, by decide +kernel, by decide +kernel⟩, by decide +kernel⟩

theorem wit_spareAndClockComplete_c5b : ∃ (g : Fin 4) (s : State),
    s.Inv ∧ s.rd (F.SLK_G_STATUS_CLK g) ≠ 0 ∧ (s.gstate g ≠ 3 ∨ s.intakeOf g = none) :=
  ⟨3, put day [(F.SLK_G_CFG_EN 3, 1), (F.SLK_G_STATUS_CLK 3, 1), (F.SLK_G_STATUS_GSTATE 3, 5)], ⟨by decide +kernel, by decide +kernel, by decide +kernel⟩, by decide +kernel⟩

theorem wit_spareAndClockComplete_c6 : ∃ (g : Fin 4) (ppm : Int) (s : State),
    s.Inv ∧ s.rd (F.SLK_G_CFG_EN g) = 1 ∧ -1000 ≤ ppm ∧ ppm ≤ 1000 ∧ (s.grp g).glitches ≤ s.rd (F.SLK_G_CLK_GLITCH_LIMIT g) :=
  ⟨0, -1000, put { day with slk := [(0, { glitches := 8 })] } [(F.SLK_G_CFG_EN 0, 1), (F.SLK_G_CLK_GLITCH_LIMIT 0, 8)], ⟨by decide +kernel, by decide +kernel, by decide +kernel⟩, by decide +kernel⟩

theorem wit_spareAndClockComplete_c7 : ∃ (g : Fin 4) (s : State),
    s.Inv ∧ s.rd (F.SLK_G_CFG_EN g) = 1 :=
  ⟨0, put day [(F.SLK_G_CFG_EN 0, 1), (F.SLK_G_GLITCH_COUNT 0, 0xFFFFFFFF)], ⟨by decide +kernel, by decide +kernel, by decide +kernel⟩, by decide +kernel⟩

theorem wit_magazinePortsComplete_c1_1 : ∃ (src : Agent) (p : Fin 4) (val : Word) (s : State),
    s.Inv ∧ s.Passes src (F.MAG_P_CTRL_EN p) ∧ s.rd (F.MAG_P_CTRL_HWQ_EN p) = 0 ∧ s.rd (F.MAG_P_CTRL_EN p) = 0 ∧ (F.MAG_P_CTRL_EN p).of val = 1 ∧ (F.MAG_P_CTRL_HWQ_EN p).of val = 0 ∧ s.pstate p = 0 ∧ s.magPortExists p = true :=
  ⟨.phobos, 3, mk [(F.MAG_P_CTRL_EN 3, 1)], put day [(F.MAG_CFG_BIFURC, 2)], ⟨by decide +kernel, by decide +kernel, by decide +kernel⟩, by unfold State.Passes; decide +kernel⟩

theorem wit_magazinePortsComplete_c1_2 : ∃ (src : Agent) (p : Fin 4) (val : Word) (s : State),
    s.Inv ∧ s.Passes src (F.MAG_P_CTRL_EN p) ∧ s.rd (F.MAG_P_CTRL_HWQ_EN p) = 0 ∧ s.rd (F.MAG_P_CTRL_EN p) = 1 ∧ (F.MAG_P_CTRL_EN p).of val = 0 ∧ (F.MAG_P_CTRL_HWQ_EN p).of val = 0 ∧ s.pstate p ≠ 0 :=
  ⟨.phobos, 3, mk [], put day [(F.MAG_CFG_BIFURC, 2), (F.MAG_P_CTRL_EN 3, 1), (F.MAG_P_STATUS_PSTATE 3, 2)], ⟨by decide +kernel, by decide +kernel, by decide +kernel⟩, by unfold State.Passes; decide +kernel⟩

theorem wit_magazinePortsComplete_c1_3 : ∃ (src : Agent) (p : Fin 4) (val : Word) (s : State),
    s.Inv ∧ s.Passes src (F.MAG_P_CTRL_EN p) ∧ s.rd (F.MAG_P_CTRL_HWQ_EN p) = 0 ∧ s.rd (F.MAG_P_CTRL_EN p) = 1 ∧ (F.MAG_P_CTRL_EN p).of val = 1 ∧ s.hwqOk p = true ∧ s.pstate p = 2 :=
  ⟨.phobos, 3, mk [(F.MAG_P_CTRL_EN 3, 1), (F.MAG_P_CTRL_HWQ_EN 3, 1)], put { day with mag := { ports := [(3, { sqTail := 5 })] } } [(F.MAG_CFG_BIFURC, 2), (F.MAG_P_CTRL_EN 3, 1), (F.MAG_P_STATUS_PSTATE 3, 2), (F.MAG_P_QCFG_DEPTH 3, 16), (F.MAG_P_QCFG_LBA_SHIFT 3, 12), (F.MAG_P_QCFG_QID 3, 1), (F.MAG_P_QCFG_MAX_XFER 3, 8), (F.MAG_P_QAREA_LO_ADDR 3, 16)], ⟨by decide +kernel, by decide +kernel, by decide +kernel⟩, by unfold State.Passes; decide +kernel⟩

theorem wit_magazinePortsComplete_c2_1 : ∃ (p : Fin 4) (s : State),
    s.Inv ∧ s.pstate p = 7 ∧ (s.magPort p).out = [] :=
  ⟨0, put day [(F.MAG_P_STATUS_PSTATE 0, 7), (F.MAG_P_STATUS_SPEED 0, 4), (F.MAG_P_STATUS_PENDING_ENABLE 0, 1), (F.MAG_P_CTRL_EN 0, 1)], ⟨by decide +kernel, by decide +kernel, by decide +kernel⟩, by decide +kernel⟩

theorem wit_magazinePortsComplete_c2_1b : ∃ (p : Fin 4) (s : State),
    s.Inv ∧ s.pstate p = 7 ∧ (s.magPort p).out = [] :=
  ⟨0, put day [(F.MAG_P_STATUS_PSTATE 0, 7), (F.MAG_P_STATUS_SPEED 0, 4)], ⟨by decide +kernel, by decide +kernel, by decide +kernel⟩, by decide +kernel⟩

theorem wit_magazinePortsComplete_c2_2 : ∃ (p : Fin 4) (s : State),
    s.Inv ∧ s.pstate p = 7 ∧ (s.magPort p).out ≠ [] :=
  ⟨0, put { day with mag := { ports := [(0, { out := [(0, some {})] })] } } [(F.MAG_P_STATUS_PSTATE 0, 7), (F.MAG_P_STATUS_SPEED 0, 4), (F.MAG_P_STATUS_PENDING_ENABLE 0, 1), (F.MAG_P_CTRL_EN 0, 1)], ⟨by decide +kernel, by decide +kernel, by decide +kernel⟩, by decide +kernel⟩

theorem wit_magazinePortsComplete_c3_1 : ∃ (p : Fin 4) (speed : Fin 5) (width : Fin 17) (s : State),
    s.Inv ∧ s.pstate p = 1 ∧ (speed.val = 0 ∨ width.val = 0 ∨ s.magLanes < width) :=
  ⟨1, 4, 16, put day [(F.MAG_CFG_BIFURC, 1), (F.MAG_P_CTRL_EN 1, 1), (F.MAG_P_STATUS_PSTATE 1, 1)], ⟨by decide +kernel, by decide +kernel, by decide +kernel⟩, by decide +kernel⟩

theorem wit_magazinePortsComplete_c3_2 : ∃ (p : Fin 4) (speed : Fin 5) (width : Fin 17) (s : State),
    s.Inv ∧ s.pstate p = 1 ∧ speed.val ≠ 0 ∧ width.val ≠ 0 ∧ width ≤ s.magLanes :=
  ⟨0, 4, 16, put day [(F.MAG_P_CTRL_EN 0, 1), (F.MAG_P_STATUS_PSTATE 0, 1)], ⟨by decide +kernel, by decide +kernel, by decide +kernel⟩, by decide +kernel⟩

theorem wit_magazinePortsComplete_c3_3 : ∃ (p : Fin 4) (speed : Fin 5) (width : Fin 17) (s : State),
    s.Inv ∧ s.rd (F.MAG_P_STATUS_SPEED p) ≠ 0 ∧ s.pstate p ≠ 7 :=
  ⟨0, 0, 0, put day [(F.MAG_P_CTRL_EN 0, 1), (F.MAG_P_STATUS_PSTATE 0, 2), (F.MAG_P_STATUS_SPEED 0, 1)], ⟨by decide +kernel, by decide +kernel, by decide +kernel⟩, by decide +kernel⟩

theorem wit_magazinePortsComplete_c4_1 : ∃ (p : Fin 4) (addr : BitVec 64) (len : BitVec 12) (bytes : List Byte) (s : State),
    s.Inv ∧ s.rd (F.MAG_P_STATUS_SPEED p) ≠ 0 ∧ ((addr.toNat < 0xFEE00000 ∨ 0xFEEFFFFF < addr.toNat)) ∧ s.magInboundOk addr.toNat bytes.length = true :=
  ⟨3, 0x37FFFFE, 2, [1, 2], put day [(F.MAG_P_STATUS_SPEED 3, 1)], ⟨by decide +kernel, by decide +kernel, by decide +kernel⟩, by decide +kernel⟩

theorem wit_magazinePortsComplete_c4_2 : ∃ (p : Fin 4) (addr : BitVec 64) (len : BitVec 12) (bytes : List Byte) (s : State),
    s.Inv ∧ s.rd (F.MAG_P_STATUS_SPEED p) ≠ 0 ∧ s.magInboundOk addr.toNat len.toNat = true :=
  ⟨3, 0x37FFFFE, 2, [], put (day.setBytes 0x37FFFFE [1, 2]) [(F.MAG_P_STATUS_SPEED 3, 1)], ⟨by decide +kernel, by decide +kernel, by decide +kernel⟩, by decide +kernel⟩

theorem wit_magazinePortsComplete_c4_3 : ∃ (p : Fin 4) (addr : BitVec 64) (len : BitVec 12) (bytes : List Byte) (s : State),
    s.Inv ∧ s.rd (F.MAG_P_STATUS_SPEED p) ≠ 0 ∧ 0xFEE00000 ≤ addr.toNat ∧ addr.toNat ≤ 0xFEEFFFFF :=
  ⟨3, 0xFEEFFFFF, 1, [1], put day [(F.MAG_P_STATUS_SPEED 3, 1)], ⟨by decide +kernel, by decide +kernel, by decide +kernel⟩, by decide +kernel⟩

theorem wit_magazinePortsComplete_c5 : ∃ (src : Agent) (p : Fin 4) (val : Word) (w : Word) (s : State),
    s.Inv ∧ s.Passes src (F.MAG_P_CFGA_WRITE p) ∧ (F.MAG_P_CFGA_WRITE p).of val = 0 ∧ s.rd (F.MAG_P_STATUS_SPEED p) ≠ 0 :=
  ⟨.phobos, 3, 0x1000, 0xFFFFFFFF, put day [(F.MAG_P_STATUS_SPEED 3, 1)], ⟨by decide +kernel, by decide +kernel, by decide +kernel⟩, by unfold State.Passes; decide +kernel⟩

theorem wit_magazinePortsComplete_c6 : ∃ (src : Agent) (p : Fin 4) (val : Word) (s : State),
    s.Inv ∧ s.Passes src (F.MAG_P_EXT_COUNT_COUNT p) ∧ s.rd (F.MAG_P_EXT_COUNT_COUNT p) < (F.MAG_P_EXT_COUNT_COUNT p).of val :=
  ⟨.phobos, 0, mk [(F.MAG_P_EXT_COUNT_COUNT 0, 2)], put day [(F.MAG_P_EXT_COUNT_COUNT 0, 1)], ⟨by decide +kernel, by decide +kernel, by decide +kernel⟩, by unfold State.Passes; decide +kernel⟩

theorem wit_recordingComplete_c1_1 : ∃ (i : Fin 8) (ed : Edge) (idx : Nat) (e : RingEntry) (s : State) (u : State),
    s.writerTile i = (some (ed, idx, e), u) ∧ e.fs = true ∧ s.take = 1 ∧ (u.freeBlocks (reservationBlocks (u.maxTilesOf i) ((u.pixFmt ed.prod).maxPayload / 16))).length = (reservationBlocks (u.maxTilesOf i) ((u.pixFmt ed.prod).maxPayload / 16)) :=
  ⟨7, { qid := 5, prod := 1, cons := 12, consPort := 7, format := 0x0500, entries := 4 }, 0, { addr := 0x3000, eflags := 1, len16 := 1, seq := 4 }, { feed (oneNode writer 7) 1 goodTile with mag := { ringBlocks := 4, used := [1] } }.wr F.MAG_STATUS_TAKE_STATE 1, ({ feed (oneNode writer 7) 1 goodTile with mag := { ringBlocks := 4, used := [1] } }.wr F.MAG_STATUS_TAKE_STATE 1), by decide +kernel⟩

theorem wit_recordingComplete_c1_2 : ∃ (i : Fin 8) (ed : Edge) (idx : Nat) (e : RingEntry) (s : State) (u : State) (f : MagFrame),
    s.writerTile i = (some (ed, idx, e), u) ∧ e.fs = false ∧ e.fe = false ∧ u.take ≠ 0 ∧ (s.magIn i).cur = some f ∧ f.tiles.length < f.maxTiles ∧ (f.d0 + f.dataLen + (32 + 16 * (if 1 ≤ e.len16 ∧ e.len16 ≤ 4096 then e.len16 else f.unit)) ≤ f.blocks.length * 65536) :=
  ⟨7, { qid := 5, prod := 1, cons := 12, consPort := 7, format := 0x0500, entries := 4 }, 0, { addr := 0x3000, eflags := 0, len16 := 1, seq := 4 }, { feed (oneNode writer 7) 0 goodTile with mag := { ringBlocks := 4, used := [0], ins := [(7, { cur := some { maxTiles := 2, blocks := [0], tiles := [(0, 1)], dataLen := 48, d0 := 4096 } })] } }.wr F.MAG_STATUS_TAKE_STATE 2, ({ feed (oneNode writer 7) 0 goodTile with mag := { ringBlocks := 4, used := [0], ins := [(7, { cur := some { maxTiles := 2, blocks := [0], tiles := [(0, 1)], dataLen := 48, d0 := 4096 } })] } }.wr F.MAG_STATUS_TAKE_STATE 2), { maxTiles := 2, blocks := [0], tiles := [(0, 1)], dataLen := 48, d0 := 4096 }, by decide +kernel⟩

theorem wit_recordingComplete_c2 : ∃ (f : MagFrame) (rest : List MagFrame) (s : State),
    s.Inv ∧ s.mag.done = f :: rest :=
  ⟨{ port := 1, num := 5 }, [], put { day with mag := { done := [{ port := 1, num := 5 }], takePorts := [2] } } [(F.MAG_STATUS_TAKE_STATE, 1), (F.MAG_P_STATUS_PSTATE 2, 5)], ⟨by decide +kernel, by decide +kernel, by decide +kernel⟩, by decide +kernel⟩

theorem wit_recordingComplete_c2b : ∃ (f : MagFrame) (rest : List MagFrame) (s : State),
    s.Inv ∧ s.mag.done = f :: rest :=
  ⟨{ port := 1, num := 5 }, [], { day with mag := { done := [{ port := 1, num := 5 }] } }.wr F.MAG_STATUS_TAKE_STATE 1, ⟨by decide +kernel, by decide +kernel, by decide +kernel⟩, by decide +kernel⟩

theorem wit_recordingComplete_c3 : ∃ (p : Fin 4) (c : MagCmd) (s : State),
    (KMap.wf (fun _ => {}) s.mag.ports = true) ∧ s.rd (F.MAG_P_CTRL_HWQ_EN p) = 1 ∧ (leAt (s.physRead (s.cqBase p + 16 * (s.magPort p).cqHead) 16) 14 2 % 2 == 1) = (s.magPort p).phase ∧ leAt (s.physRead (s.cqBase p + 16 * (s.magPort p).cqHead) 16) 14 2 / 2 = 0 ∧ (KMap.get (fun _ => none) (s.magPort p).out (leAt (s.physRead (s.cqBase p + 16 * (s.magPort p).cqHead) 16) 12 2) = some c) :=
  ⟨0, { seq := 4, len := 512 }, put ({ day with mag := { ports := [(0, { cqHead := 15, out := [(3, some { seq := 4, len := 512 })] })] } }.setBytes (0x10000 + 4096 + 16 * 15) (cqe 0)) [(F.MAG_P_CTRL_HWQ_EN 0, 1), (F.MAG_P_QCFG_DEPTH 0, 16), (F.MAG_P_QAREA_LO_ADDR 0, 16), (F.MAG_P_STATUS_PSTATE 0, 4)], by decide +kernel⟩

theorem wit_recordingComplete_c4 : ∃ (p : Fin 4) (cid : BitVec 16) (c : MagCmd) (s : State),
    s.Inv ∧ (KMap.get (fun _ => none) (s.magPort p).out cid.toNat = some c) ∧ s.pstate p ≠ 7 :=
  ⟨0, 3, { seq := 4, len := 512 }, put { day with mag := { ports := [(0, { out := [(3, some { seq := 4, len := 512 })] })] } } [(F.MAG_P_CTRL_HWQ_EN 0, 1), (F.MAG_P_STATUS_PSTATE 0, 4)], ⟨by decide +kernel, by decide +kernel, by decide +kernel⟩, by decide +kernel⟩

theorem wit_recordingComplete_c5 : ∃ (p : Fin 4) (r : MagRec) (s : State),
    s.Inv ∧ (KMap.wf (fun _ => {}) s.mag.ports = true) ∧ s.mag.recs.find? (s.mayAck p) = some r :=
  ⟨3, { seq := 4, len := 1000, need := [3] }, { day with mag := { recs := [{ seq := 3, need := [2] }, { seq := 4, len := 1000, need := [3] }] } }.wr (F.MAG_P_STATUS_PSTATE 3) 4, ⟨by decide +kernel, by decide +kernel, by decide +kernel⟩, by decide +kernel⟩

theorem wit_takesComplete_c1 : ∃ (src : Agent) (n : Node) (s : State),
    s.Inv ∧ s.Passes src F.MAG_TAKE_CMD_START ∧ s.take = 0 ∧ s.writerNode = some n ∧ takeModeOk (s.rd F.MAG_TAKE_CFG_MODE) (s.rd F.MAG_TAKE_CFG_PORTS) = true ∧ s.rd F.MAG_USER_LEN_LEN ≤ 3968 ∧ (((List.range 4).filter (fun p => s.rd F.MAG_TAKE_CFG_PORTS / 2 ^ p % 2 == 1)).any (fun p => n.res / 2 ^ p % 2 == 0 || s.pstate p != 3 || s.rd (F.MAG_P_EXT_COUNT_COUNT p) == 0) = false) :=
  ⟨.phobos, writer, put (oneNode writer 0) [(F.MAG_TAKE_CFG_MODE, 1), (F.MAG_TAKE_CFG_PORTS, 3), (F.MAG_USER_LEN_LEN, 3968), (F.MAG_P_STATUS_PSTATE 0, 3), (F.MAG_P_STATUS_PSTATE 1, 3), (F.MAG_P_EXT_COUNT_COUNT 0, 1), (F.MAG_P_EXT_COUNT_COUNT 1, 1), (F.MAG_REC_SEQ_SEQ, 9)], ⟨by decide +kernel, by decide +kernel, by decide +kernel⟩, by unfold State.Passes; decide +kernel⟩

theorem wit_takesComplete_c2_1 : ∃ (src : Agent) (s : State),
    s.Inv ∧ s.Passes src F.MAG_TAKE_CMD_START ∧ s.take = 1 :=
  ⟨.phobos, put (oneNode writer 0) [(F.MAG_STATUS_TAKE_STATE, 1)], ⟨by decide +kernel, by decide +kernel, by decide +kernel⟩, by unfold State.Passes; decide +kernel⟩

theorem wit_takesComplete_c2_2 : ∃ (src : Agent) (s : State),
    s.Inv ∧ s.Passes src F.MAG_TAKE_CMD_START ∧ (s.take = 1 ∨ s.take = 2) :=
  ⟨.phobos, put { day with mag := { recs := [{ seq := 3, need := [2] }], done := [{}], ins := [(7, { cur := some {} })] } } [(F.MAG_STATUS_TAKE_STATE, 2)], ⟨by decide +kernel, by decide +kernel, by decide +kernel⟩, by unfold State.Passes; decide +kernel⟩

theorem wit_takesComplete_c2_2b : ∃ (src : Agent) (s : State),
    s.Inv ∧ s.Passes src F.MAG_TAKE_CMD_START ∧ (s.take = 1 ∨ s.take = 2) :=
  ⟨.phobos, put { day with mag := { ins := [(7, { cur := some {} })] } } [(F.MAG_STATUS_TAKE_STATE, 1)], ⟨by decide +kernel, by decide +kernel, by decide +kernel⟩, by unfold State.Passes; decide +kernel⟩

theorem wit_takesComplete_c3 : ∃ (s : State),
    s.Inv ∧ s.take = 2 ∧ s.mag.done = [] ∧ ((∀ i < 8, (s.magIn i).cur = none)) ∧ (s.mag.aborting = false ∨ s.mag.recs = []) :=
  ⟨put { day with mag := { mode := 0, takePorts := [0] } } [(F.MAG_STATUS_TAKE_STATE, 2), (F.MAG_P_STATUS_PSTATE 0, 4)], ⟨by decide +kernel, by decide +kernel, by decide +kernel⟩, by decide +kernel⟩

theorem wit_takesComplete_c4 : ∃ (s : State),
    s.Inv ∧ s.take = 3 ∧ s.mag.recs = [] ∧ ((s.portsIn 4 ++ s.portsIn 5).all (fun p => (s.magPort p).todo.isEmpty && (s.magPort p).out.isEmpty) = true) ∧ s.pwr.warmWait = none :=
  ⟨put { day with mag := { mode := 0, takePorts := [0], used := [3], closeSeq := some 4 } } [(F.MAG_STATUS_TAKE_STATE, 3), (F.MAG_P_STATUS_PSTATE 0, 4)], ⟨by decide +kernel, by decide +kernel, by decide +kernel⟩, by decide +kernel⟩

theorem wit_takesComplete_c5 : ∃ (p : Fin 4) (s : State),
    (s.magPort p).lost = true ∧ s.take ≠ 0 ∧ s.portsIn 4 ≠ [] :=
  ⟨1, put { day with mag := { mode := 0, takePorts := [0, 1], ports := [(1, { lost := true })] } } [(F.MAG_STATUS_TAKE_STATE, 1), (F.MAG_P_STATUS_PSTATE 0, 4), (F.MAG_P_STATUS_PSTATE 1, 6)], by decide +kernel⟩

theorem wit_encodingComplete_c1_1 : ∃ (c : Fin 32) (n : Node) (ed : Edge) (i : Nat) (e : RingEntry) (s : State) (u : State),
    s.Inv ∧ s.encNode c = some n ∧ s.image.inEdge n.id 0 = some ed ∧ s.nextTile ed.qid = (some (i, e), u) ∧ u.encOn c = true ∧ u.coreFaulted (n.cores.headD 0) = false ∧ u.inputStop (u.slotVia ed.qid e.addr) e.len16 = none ∧ (u.encCtx c).room (u.tileVia (u.slotVia ed.qid e.addr) e.len16).hdr (u.encIn n).ctuCols (n.par 40 2) = true ∧ (((u.rangeRead (u.slotVia ed.qid e.addr) (32 + (u.tileVia (u.slotVia ed.qid e.addr) e.len16).payload.length)).maybeSwitch n.id (u.tileVia (u.slotVia ed.qid e.addr) e.len16).hdr.fs).checkTile ed (0x400 + n.cores.headD 0) (u.tileVia (u.slotVia ed.qid e.addr) e.len16) true).1.outcome ≠ 3 ∧ ((((u.rangeRead (u.slotVia ed.qid e.addr) (32 + (u.tileVia (u.slotVia ed.qid e.addr) e.len16).payload.length)).maybeSwitch n.id (u.tileVia (u.slotVia ed.qid e.addr) e.len16).hdr.fs).checkTile ed (0x400 + n.cores.headD 0) (u.tileVia (u.slotVia ed.qid e.addr) e.len16) true).1.tile.hdr).col < ((((u.rangeRead (u.slotVia ed.qid e.addr) (32 + (u.tileVia (u.slotVia ed.qid e.addr) e.len16).payload.length)).maybeSwitch n.id (u.tileVia (u.slotVia ed.qid e.addr) e.len16).hdr.fs).checkTile ed (0x400 + n.cores.headD 0) (u.tileVia (u.slotVia ed.qid e.addr) e.len16) true).2.encIn n).ctuCols ∧ ((((u.rangeRead (u.slotVia ed.qid e.addr) (32 + (u.tileVia (u.slotVia ed.qid e.addr) e.len16).payload.length)).maybeSwitch n.id (u.tileVia (u.slotVia ed.qid e.addr) e.len16).hdr.fs).checkTile ed (0x400 + n.cores.headD 0) (u.tileVia (u.slotVia ed.qid e.addr) e.len16) true).1.tile.hdr).row < ((((u.rangeRead (u.slotVia ed.qid e.addr) (32 + (u.tileVia (u.slotVia ed.qid e.addr) e.len16).payload.length)).maybeSwitch n.id (u.tileVia (u.slotVia ed.qid e.addr) e.len16).hdr.fs).checkTile ed (0x400 + n.cores.headD 0) (u.tileVia (u.slotVia ed.qid e.addr) e.len16) true).2.encIn n).ctuRows ∧ ((((u.rangeRead (u.slotVia ed.qid e.addr) (32 + (u.tileVia (u.slotVia ed.qid e.addr) e.len16).payload.length)).maybeSwitch n.id (u.tileVia (u.slotVia ed.qid e.addr) e.len16).hdr.fs).checkTile ed (0x400 + n.cores.headD 0) (u.tileVia (u.slotVia ed.qid e.addr) e.len16) true).2.encCtx c).begins ((((u.rangeRead (u.slotVia ed.qid e.addr) (32 + (u.tileVia (u.slotVia ed.qid e.addr) e.len16).payload.length)).maybeSwitch n.id (u.tileVia (u.slotVia ed.qid e.addr) e.len16).hdr.fs).checkTile ed (0x400 + n.cores.headD 0) (u.tileVia (u.slotVia ed.qid e.addr) e.len16) true).1.tile.hdr) = true :=
  ⟨31, encoder, { qid := 5, prod := 1, cons := 20, format := 0x0500, entries := 4 }, 0, { addr := 0x3000, eflags := 1, len16 := 1, seq := 4 }, feed (encoding {}) 1 goodTile, (feed (encoding {}) 1 goodTile), ⟨by decide +kernel, by decide +kernel, by decide +kernel⟩, by decide +kernel⟩

theorem wit_encodingComplete_c1_2 : ∃ (c : Fin 32) (n : Node) (ed : Edge) (i : Nat) (e : RingEntry) (s : State) (u : State) (f : EncFrame),
    s.Inv ∧ s.encNode c = some n ∧ s.image.inEdge n.id 0 = some ed ∧ s.nextTile ed.qid = (some (i, e), u) ∧ u.encOn c = true ∧ u.coreFaulted (n.cores.headD 0) = false ∧ u.inputStop (u.slotVia ed.qid e.addr) e.len16 = none ∧ (u.encCtx c).room (u.tileVia (u.slotVia ed.qid e.addr) e.len16).hdr (u.encIn n).ctuCols (n.par 40 2) = true ∧ (((u.rangeRead (u.slotVia ed.qid e.addr) (32 + (u.tileVia (u.slotVia ed.qid e.addr) e.len16).payload.length)).maybeSwitch n.id (u.tileVia (u.slotVia ed.qid e.addr) e.len16).hdr.fs).checkTile ed (0x400 + n.cores.headD 0) (u.tileVia (u.slotVia ed.qid e.addr) e.len16) true).1.outcome ≠ 3 ∧ ((((u.rangeRead (u.slotVia ed.qid e.addr) (32 + (u.tileVia (u.slotVia ed.qid e.addr) e.len16).payload.length)).maybeSwitch n.id (u.tileVia (u.slotVia ed.qid e.addr) e.len16).hdr.fs).checkTile ed (0x400 + n.cores.headD 0) (u.tileVia (u.slotVia ed.qid e.addr) e.len16) true).1.tile.hdr).col < ((((u.rangeRead (u.slotVia ed.qid e.addr) (32 + (u.tileVia (u.slotVia ed.qid e.addr) e.len16).payload.length)).maybeSwitch n.id (u.tileVia (u.slotVia ed.qid e.addr) e.len16).hdr.fs).checkTile ed (0x400 + n.cores.headD 0) (u.tileVia (u.slotVia ed.qid e.addr) e.len16) true).2.encIn n).ctuCols ∧ ((((u.rangeRead (u.slotVia ed.qid e.addr) (32 + (u.tileVia (u.slotVia ed.qid e.addr) e.len16).payload.length)).maybeSwitch n.id (u.tileVia (u.slotVia ed.qid e.addr) e.len16).hdr.fs).checkTile ed (0x400 + n.cores.headD 0) (u.tileVia (u.slotVia ed.qid e.addr) e.len16) true).1.tile.hdr).row < ((((u.rangeRead (u.slotVia ed.qid e.addr) (32 + (u.tileVia (u.slotVia ed.qid e.addr) e.len16).payload.length)).maybeSwitch n.id (u.tileVia (u.slotVia ed.qid e.addr) e.len16).hdr.fs).checkTile ed (0x400 + n.cores.headD 0) (u.tileVia (u.slotVia ed.qid e.addr) e.len16) true).2.encIn n).ctuRows ∧ ((((u.rangeRead (u.slotVia ed.qid e.addr) (32 + (u.tileVia (u.slotVia ed.qid e.addr) e.len16).payload.length)).maybeSwitch n.id (u.tileVia (u.slotVia ed.qid e.addr) e.len16).hdr.fs).checkTile ed (0x400 + n.cores.headD 0) (u.tileVia (u.slotVia ed.qid e.addr) e.len16) true).2.encCtx c).begins ((((u.rangeRead (u.slotVia ed.qid e.addr) (32 + (u.tileVia (u.slotVia ed.qid e.addr) e.len16).payload.length)).maybeSwitch n.id (u.tileVia (u.slotVia ed.qid e.addr) e.len16).hdr.fs).checkTile ed (0x400 + n.cores.headD 0) (u.tileVia (u.slotVia ed.qid e.addr) e.len16) true).1.tile.hdr) = false ∧ ((((u.rangeRead (u.slotVia ed.qid e.addr) (32 + (u.tileVia (u.slotVia ed.qid e.addr) e.len16).payload.length)).maybeSwitch n.id (u.tileVia (u.slotVia ed.qid e.addr) e.len16).hdr.fs).checkTile ed (0x400 + n.cores.headD 0) (u.tileVia (u.slotVia ed.qid e.addr) e.len16) true).2.encCtx c).frames.getLast? = some f ∧ ((((u.rangeRead (u.slotVia ed.qid e.addr) (32 + (u.tileVia (u.slotVia ed.qid e.addr) e.len16).payload.length)).maybeSwitch n.id (u.tileVia (u.slotVia ed.qid e.addr) e.len16).hdr.fs).checkTile ed (0x400 + n.cores.headD 0) (u.tileVia (u.slotVia ed.qid e.addr) e.len16) true).1.tile.hdr).row * ((((u.rangeRead (u.slotVia ed.qid e.addr) (32 + (u.tileVia (u.slotVia ed.qid e.addr) e.len16).payload.length)).maybeSwitch n.id (u.tileVia (u.slotVia ed.qid e.addr) e.len16).hdr.fs).checkTile ed (0x400 + n.cores.headD 0) (u.tileVia (u.slotVia ed.qid e.addr) e.len16) true).2.encIn n).ctuCols + ((((u.rangeRead (u.slotVia ed.qid e.addr) (32 + (u.tileVia (u.slotVia ed.qid e.addr) e.len16).payload.length)).maybeSwitch n.id (u.tileVia (u.slotVia ed.qid e.addr) e.len16).hdr.fs).checkTile ed (0x400 + n.cores.headD 0) (u.tileVia (u.slotVia ed.qid e.addr) e.len16) true).1.tile.hdr).col < f.next :=
  ⟨31, encoder, { qid := 5, prod := 1, cons := 20, format := 0x0500, entries := 4 }, 0, { addr := 0x3000, eflags := 1, len16 := 1, seq := 4 }, feed (encoding { frames := [{ num := 0, next := 3 }] }) 1 goodTile, (feed (encoding { frames := [{ num := 0, next := 3 }] }) 1 goodTile), { num := 0, next := 3 }, ⟨by decide +kernel, by decide +kernel, by decide +kernel⟩, by decide +kernel⟩

theorem wit_encodingComplete_c2 : ∃ (k : Fin 4) (c : Nat) (s : State),
    s.Inv ∧ (s.encCore k).cur = none ∧ s.awake (0x10 + k) = true ∧ s.coreFaulted k = false ∧ s.encPick k = some c :=
  ⟨0, 31, { encoding { frames := [{ ended := true, tables := [{ id := 1, kind := 1, addr := 0x100, bodyLen := 32 }] }] } with enc := { ctxs := [(31, { frames := [{ ended := true, tables := [{ id := 1, kind := 1, addr := 0x100, bodyLen := 32 }] }] })], cores := [(0, { last := some 3 })] } }.wr (F.ENC_SWITCH_COUNT 0) 0xFFFFFFFE, ⟨by decide +kernel, by decide +kernel, by decide +kernel⟩, by decide +kernel⟩

theorem wit_encodingComplete_c3 : ∃ (k : Fin 4) (row : CtuRow) (c : Nat) (n : Node) (q : EncPic) (f : EncFrame) (s : State),
    (s.encCore k).cur = some c ∧ s.encNode c = some n ∧ (s.encCtx c).outq = [] ∧ s.island (0x10 + k) = 2 ∧ s.coreFaulted k = false ∧ s.encReady c k = true ∧ (s.encCtx c).picAt ((s.encCtx c).ahead (s.encRows c n) (n.cores.idxOf k.val)) = some q ∧ (s.encCtx c).frameAt ((s.encCtx c).ahead (s.encRows c n) (n.cores.idxOf k.val)) = some f ∧ (n.cores.idxOf k.val) < q.cols.length ∧ ((q.cols.getD (n.cores.idxOf k.val) {}).row) + 1 < (s.encInOf n f.tables).ctuRows ∧ ((∀ g ∈ (s.encCtx c).frames, ∀ x ∈ g.tables, s.PlainTable x ∧ (s.storeRecon n (s.encInOf n f.tables) q (n.cores.idxOf k.val) ((q.cols.getD (n.cores.idxOf k.val) {}).row) row.recon).tableBody x = s.tableBody x)) ∧ ((((s.encCtx c).ahead (s.encRows c n) (n.cores.idxOf k.val)) = true → ∃ o, (s.encCtx c).pic = some o ∧ ∃ x ∈ o.cols, x.row < s.encRows c n)) :=
  ⟨0, { pre := [], header := 16, ctus := [(40, 20), (40, 20)], slice := [0, 0, 1], recon := [] }, 31, encoder, { cols := [{ row := 0 }], t := 1000, g := 1000 }, { ended := true, tables := [{ id := 1, kind := 1, addr := 0x100, bodyLen := 32 }] }, { encoding {} with enc := { ctxs := [(31, { frames := [{ ended := true, tables := [{ id := 1, kind := 1, addr := 0x100, bodyLen := 32 }] }], pic := some { cols := [{ row := 0 }], t := 1000, g := 1000 } })], cores := [(0, { cur := some 31, last := some 31 })] } }, by unfold State.PlainTable; decide +kernel⟩

theorem wit_encodingComplete_c4 : ∃ (src : Agent) (c : Fin 32) (which : Fin 4) (val : Word) (n : Node) (s : State),
    s.Inv ∧ s.Passes src (rateReg c which) ∧ s.encNode c = some n ∧ s.rateOk c n which val.toNat = true :=
  ⟨.phobos, 31, 1, 0xFFFFFFFF, encoder, encoding {}, ⟨by decide +kernel, by decide +kernel, by decide +kernel⟩, by unfold State.Passes; decide +kernel⟩

theorem wit_streamCommandsComplete_c1 : ∃ (src : Agent) (c : Fin 32) (val : Word) (s : State),
    s.Inv ∧ s.Passes src (F.ENC_S_CMD_KEY c) ∧ (s.encNode c).isSome = true ∧ s.rd (F.ENC_S_CTRL_EN c) = 1 :=
  ⟨.phobos, 31, mk [(F.ENC_S_CMD_KEY 31, 1), (F.ENC_S_CMD_MARK_SLOT 31, 1), (F.ENC_S_CMD_USE_SLOT 31, 1), (F.ENC_S_CMD_MARK_SEQ 31, 255)], (encoding {}).wr (F.ENC_S_LTSEQ_SEQ1 31) 255, ⟨by decide +kernel, by decide +kernel, by decide +kernel⟩, by unfold State.Passes; decide +kernel⟩

theorem wit_streamCommandsComplete_c2_1 : ∃ (src : Agent) (c : Fin 32) (val : Word) (n : Node) (s : State),
    s.Inv ∧ (KMap.wf (fun _ => {}) s.enc.ctxs = true) ∧ s.Passes src (F.ENC_S_CTRL_EN c) ∧ s.encNode c = some n ∧ s.rd (F.ENC_S_STATUS_SHUTTING_DOWN c) = 0 ∧ s.rd (F.ENC_S_CTRL_EN c) = 0 ∧ (F.ENC_S_CTRL_EN c).of val = 1 :=
  ⟨.phobos, 31, mk [(F.ENC_S_CTRL_EN 31, 1)], encoder, put (encoding { fresh := false, pic := some {} }) [(F.ENC_S_CTRL_EN 31, 0), (F.RATE_S_BIT_RATE_V 31, 1000)], ⟨by decide +kernel, by decide +kernel, by decide +kernel⟩, by unfold State.Passes; decide +kernel⟩

theorem wit_streamCommandsComplete_c2_2 : ∃ (src : Agent) (c : Fin 32) (val : Word) (n : Node) (s : State),
    s.Inv ∧ (KMap.wf (fun _ => {}) s.enc.ctxs = true) ∧ s.Passes src (F.ENC_S_CTRL_EN c) ∧ s.encNode c = some n ∧ s.rd (F.ENC_S_STATUS_SHUTTING_DOWN c) = 0 ∧ s.rd (F.ENC_S_CTRL_EN c) = 1 ∧ (F.ENC_S_CTRL_EN c).of val = 0 :=
  ⟨.phobos, 31, mk [], encoder, put (encoding { keyReq := true, pic := some {} }) [(F.ENC_S_STATUS_KEY_PENDING 31, 1)], ⟨by decide +kernel, by decide +kernel, by decide +kernel⟩, by unfold State.Passes; decide +kernel⟩

theorem wit_streamCommandsComplete_c3 : ∃ (c : Fin 32) (s : State),
    s.Inv ∧ (KMap.wf (fun _ => {}) s.enc.ctxs = true) ∧ s.rd (F.ENC_S_STATUS_SHUTTING_DOWN c) = 1 ∧ (s.encCtx c).pic = none :=
  ⟨31, put (encoding { frames := [{ ended := true }] }) [(F.ENC_S_CTRL_EN 31, 0), (F.ENC_S_STATUS_SHUTTING_DOWN 31, 1), (F.ENC_S_STATUS_LT0_VALID 31, 1)], ⟨by decide +kernel, by decide +kernel, by decide +kernel⟩, by decide +kernel⟩

theorem wit_streamCommandsComplete_c3b : ∃ (c : Fin 32) (s : State),
    s.Inv ∧ (KMap.wf (fun _ => {}) s.enc.ctxs = true) ∧ s.rd (F.ENC_S_STATUS_SHUTTING_DOWN c) = 1 ∧ (s.encCtx c).pic = none :=
  ⟨31, put (encoding { frames := [{ ended := true }] }) [(F.ENC_S_CTRL_EN 31, 0), (F.ENC_S_STATUS_SHUTTING_DOWN 31, 1), (F.ENC_S_STATUS_PENDING_ENABLE 31, 1)], ⟨by decide +kernel, by decide +kernel, by decide +kernel⟩, by decide +kernel⟩

theorem wit_decodingComplete_c1_1 : ∃ (n : Node) (ed : Edge) (i : Nat) (e : RingEntry) (s : State) (u : State) (q : SeqInfo),
    s.Inv ∧ s.decNode = some n ∧ s.image.inEdge n.id 0 = some ed ∧ s.awake 0x14 = true ∧ (s.dec.out = [] ∨ s.dec.held < 6) ∧ s.nextTile ed.qid = (some (i, e), u) ∧ ((u.maybeSwitch n.id (u.entryTile e).hdr.fs).checkTile ed 0x410 (u.entryTile e) true).1.outcome ≠ 3 :=
  ⟨{ id := 21, kind := 5, inPorts := 1, outPorts := 1 }, { qid := 5, prod := 1, cons := 21, format := 0x0500, entries := 4 }, 0, { addr := 0x3000, eflags := 1, len16 := 1, seq := 4 }, (feed (oneNode { id := 21, kind := 5, inPorts := 1, outPorts := 1 } 0) 1 goodTile).wr (F.PWR_ISL_STATE 0x14) 2, ((feed (oneNode { id := 21, kind := 5, inPorts := 1, outPorts := 1 } 0) 1 goodTile).wr (F.PWR_ISL_STATE 0x14) 2), { profile := 2, level := 153, reorder := 2, codedW := 4096, codedH := 1088, width := 65536, height := 1080 }, ⟨by decide +kernel, by decide +kernel, by decide +kernel⟩, by decide +kernel⟩

theorem wit_decodingComplete_c1_2 : ∃ (n : Node) (ed : Edge) (i : Nat) (e : RingEntry) (s : State) (u : State) (c : CodedPic),
    s.Inv ∧ s.decNode = some n ∧ s.image.inEdge n.id 0 = some ed ∧ s.awake 0x14 = true ∧ (s.dec.out = [] ∨ s.dec.held < 6) ∧ s.nextTile ed.qid = (some (i, e), u) ∧ ((u.maybeSwitch n.id (u.entryTile e).hdr.fs).checkTile ed 0x410 (u.entryTile e) true).1.outcome ≠ 3 ∧ s.dec.supported = true ∧ s.dec.started = true ∧ ((c.rasl = true → s.dec.startIrap = false)) :=
  ⟨{ id := 21, kind := 5, inPorts := 1, outPorts := 1 }, { qid := 5, prod := 1, cons := 21, format := 0x0500, entries := 4 }, 0, { addr := 0x3000, eflags := 1, len16 := 1, seq := 4 }, { feed (oneNode { id := 21, kind := 5, inPorts := 1, outPorts := 1 } 0) 1 goodTile with dec := { started := true, supported := true, sizeOk := true, dpb := [{ slot := 0, poc := 4, ref := true }, { slot := 1, poc := 5, wait := true }] } }.wr (F.PWR_ISL_STATE 0x14) 2, ({ feed (oneNode { id := 21, kind := 5, inPorts := 1, outPorts := 1 } 0) 1 goodTile with dec := { started := true, supported := true, sizeOk := true, dpb := [{ slot := 0, poc := 4, ref := true }, { slot := 1, poc := 5, wait := true }] } }.wr (F.PWR_ISL_STATE 0x14) 2), { poc := -3, refs := [4, 9], bad := [[0]], planes := { y := [1, 2, 3] } }, ⟨by decide +kernel, by decide +kernel, by decide +kernel⟩, by decide +kernel⟩

theorem wit_decodingComplete_c2 : ∃ (n : Node) (pic : DecPic) (rest : List DecPic) (s : State),
    s.decNode = some n ∧ s.dec.out = pic :: rest ∧ s.island 0x14 = 2 ∧ s.roomOn (s.portQueues n.id 0) (s.pixFmt n.id).cols = true :=
  ⟨{ id := 21, kind := 5, inPorts := 1, outPorts := 1 }, { poc := 0 }, [{ poc := 4 }], { oneNode { id := 21, kind := 5, inPorts := 1, outPorts := 1 } 0 with dec := { started := true, out := [{ poc := 0 }, { poc := 4 }] } }.wr (F.PWR_ISL_STATE 0x14) 2, by decide +kernel⟩

theorem wit_headsComplete_c1 : ∃ (l : Fin 32) (n : Node) (ed : Edge) (i : Nat) (e : RingEntry) (s : State) (u : State),
    s.cmpNode (l / 8) = some n ∧ s.image.inEdge n.id (l % 8) = some ed ∧ s.island (0x18 + l / 8) = 2 ∧ s.nextTile ed.qid = (some (i, e), u) ∧ ((u.maybeSwitch n.id (u.entryTile e).hdr.fs).checkTile ed (0x500 + l / 8) (u.entryTile e) true).1.outcome ≠ 3 ∧ ((u.maybeSwitch n.id (u.entryTile e).hdr.fs).checkTile ed (0x500 + l / 8) (u.entryTile e) true).1.tile.hdr.fe = false :=
  ⟨31, { id := 22, kind := 6, inPorts := 8, res := 3 }, { qid := 5, prod := 1, cons := 22, consPort := 7, format := 0x0500, entries := 4 }, 0, { addr := 0x3000, eflags := 1, len16 := 1, seq := 4 }, (feed (oneNode { id := 22, kind := 6, inPorts := 8, res := 3 } 7) 1 goodTile).wr (F.PWR_ISL_STATE 0x1B) 2, ((feed (oneNode { id := 22, kind := 6, inPorts := 8, res := 3 } 7) 1 goodTile).wr (F.PWR_ISL_STATE 0x1B) 2), by decide +kernel⟩

theorem wit_headsComplete_c2 : ∃ (h : Fin 4) (cancel : Bool) (s : State),
    (s.head h).running = false ∧ s.rd (F.CMP_H_STATUS_SHUTTING_DOWN h) = 0 ∧ s.rd (F.CMP_H_CTRL_EN h) = 1 ∧ s.island (0x18 + h) = 2 ∧ (s.image.tbs.any (fun t => t.kind == 2 && t.source == h.val) = false) :=
  ⟨3, true, put day [(F.CMP_H_CTRL_EN 3, 1), (F.PWR_ISL_STATE 0x1B, 2), (F.SDI_S_CFG_SRC_HEAD 1, 3), (F.SDI_S_CFG_EN 1, 1), (F.PWR_ISL_STATE 0x1D, 2)], by decide +kernel⟩

theorem wit_headsComplete_c3_1 : ∃ (h : Fin 4) (s : State),
    s.Inv ∧ (s.head h).running = true ∧ s.rd (F.CMP_H_STATUS_SYNC_HOLDOVER h) = 0 :=
  ⟨3, put { day with cmp := { heads := [(3, { running := true })] } } [(F.CMP_H_CTRL_EN 3, 1), (F.CMP_H_STATUS_SLEWING 3, 1)], ⟨by decide +kernel, by decide +kernel, by decide +kernel⟩, by decide +kernel⟩

theorem wit_headsComplete_c3_2 : ∃ (h : Fin 4) (s : State),
    s.Inv ∧ (s.head h).running = true ∧ s.rd (F.CMP_H_STATUS_SYNC_HOLDOVER h) = 1 :=
  ⟨3, put { day with cmp := { heads := [(3, { running := true })] } } [(F.CMP_H_CTRL_EN 3, 1), (F.CMP_H_STATUS_SYNC_HOLDOVER 3, 1)], ⟨by decide +kernel, by decide +kernel, by decide +kernel⟩, by decide +kernel⟩

theorem wit_headsComplete_c3_3 : ∃ (h : Fin 4) (s : State) (line : BitVec 16) (col : BitVec 16),
    s.Inv ∧ (s.head h).running = true :=
  ⟨3, put { day with cmp := { heads := [(3, { running := true })] } } [(F.CMP_H_CTRL_EN 3, 1), (F.CMP_H_UNDERRUN_COUNT 3, 0xFFFFFFFF)], 7, 0xFFFF, ⟨by decide +kernel, by decide +kernel, by decide +kernel⟩, by decide +kernel⟩

theorem wit_headsComplete_c3_0 : ∃ (h : Fin 4) (s : State),
    s.Inv ∧ (s.head h).running = true :=
  ⟨3, put { day with cmp := { heads := [(3, { running := true })] } } [(F.CMP_H_CTRL_EN 3, 1), (F.CMP_H_STATUS_SLEWING 3, 1)], ⟨by decide +kernel, by decide +kernel, by decide +kernel⟩, by decide +kernel⟩

theorem wit_headsComplete_c4_1 : ∃ (src : Agent) (h : Fin 4) (val : Word) (s : State),
    s.Inv ∧ s.Passes src (F.CMP_H_CTRL_EN h) ∧ (F.CMP_H_CTRL_SYNC h).of val < 2 ∧ (F.CMP_H_CTRL_SYNC h).of val = s.rd (F.CMP_H_CTRL_SYNC h) ∧ s.rd (F.CMP_H_CTRL_EN h) = 0 ∧ (F.CMP_H_CTRL_EN h).of val = 1 ∧ s.rd (F.CMP_H_STATUS_SHUTTING_DOWN h) = 0 :=
  ⟨.phobos, 3, mk [(F.CMP_H_CTRL_EN 3, 1), (F.CMP_H_CTRL_SYNC 3, 1)], put day [(F.CMP_H_CTRL_SYNC 3, 1)], ⟨by decide +kernel, by decide +kernel, by decide +kernel⟩, by unfold State.Passes; decide +kernel⟩

theorem wit_headsComplete_c4_2 : ∃ (src : Agent) (h : Fin 4) (val : Word) (s : State),
    s.Inv ∧ s.Passes src (F.CMP_H_CTRL_EN h) ∧ (F.CMP_H_CTRL_SYNC h).of val < 2 ∧ (F.CMP_H_CTRL_SYNC h).of val = s.rd (F.CMP_H_CTRL_SYNC h) ∧ s.rd (F.CMP_H_CTRL_EN h) = 1 ∧ (F.CMP_H_CTRL_EN h).of val = 0 ∧ (s.head h).running = true :=
  ⟨.phobos, 3, mk [(F.CMP_H_CTRL_SYNC 3, 1)], put { day with cmp := { heads := [(3, { running := true })] } } [(F.CMP_H_CTRL_EN 3, 1), (F.CMP_H_CTRL_SYNC 3, 1)], ⟨by decide +kernel, by decide +kernel, by decide +kernel⟩, by unfold State.Passes; decide +kernel⟩

theorem wit_commitsComplete_c1 : ∃ (src : Agent) (h : Fin 4) (i : Fin 8) (val : Word) (s : State),
    s.Passes src (F.CMP_H_COMMIT_GO h) ∧ (F.CMP_H_COMMIT_CANCEL h).of val = 0 ∧ (F.CMP_H_COMMIT_LAYERS h).of val = 2 ^ i.val ∧ s.pendingOf h = [] ∧ s.checkLayer (8 * h + i) = 0 :=
  ⟨.phobos, 3, 7, mk [(F.CMP_H_COMMIT_GO 3, 1), (F.CMP_H_COMMIT_LAYERS 3, 128)], put { day.setBytes 0x100 encFormat with str := { active := some { nodes := [{ id := 22, kind := 6, inPorts := 8, res := 3, tref := List.replicate 7 0 ++ [1] }], tables := [{ id := 1, kind := 1, addr := 0x100, bodyLen := 32 }] } } } [(⟨0x5817C8, 0, 32⟩, 0x00800080), (⟨0x5817D0, 0, 32⟩, 0x00800080)], by unfold State.Passes; decide +kernel⟩

theorem wit_commitsComplete_c2 : ∃ (l : Fin 32) (s : State),
    (s.layer l).pend.isSome = true :=
  ⟨31, { day with cmp := { layers := [(31, { pend := some {} })] } }, by decide +kernel⟩

theorem wit_commitsComplete_c3 : ∃ (h : Fin 4) (cancel : Bool) (s : State),
    (s.head h).running = false ∧ s.rd (F.CMP_H_STATUS_SHUTTING_DOWN h) = 0 ∧ s.rd (F.CMP_H_CTRL_EN h) = 1 ∧ s.island (0x18 + h) = 2 ∧ (s.image.tbs.any (fun t => t.kind == 2 && t.source == h.val) = false) ∧ ((∀ k ∈ s.pendingOf h, s.layerReady k = true)) :=
  ⟨3, false, put { day with cmp := { layers := [(31, { pend := some { fill := 7 }, loaded := true })] } } [(F.CMP_H_CTRL_EN 3, 1), (F.PWR_ISL_STATE 0x1B, 2)], by decide +kernel⟩

theorem wit_commitsComplete_c4 : ∃ (src : Agent) (h : Fin 4) (val : Word) (s : State),
    s.Inv ∧ (KMap.wf (fun _ => {}) s.cmp.layers = true) ∧ s.Passes src (F.CMP_H_COMMIT_GO h) ∧ (F.CMP_H_COMMIT_GO h).of val = 0 :=
  ⟨.phobos, 3, mk [(F.CMP_H_COMMIT_CANCEL 3, 1)], put { day with cmp := { layers := [(31, { pend := some { fill := 7 }, loaded := true })] } } [(F.CMP_H_STATUS_PENDING_LAYERS 3, 128)], ⟨by decide +kernel, by decide +kernel, by decide +kernel⟩, by unfold State.Passes; decide +kernel⟩

theorem wit_commitsComplete_c5_1 : ∃ (src : Agent) (n : Fin 4) (val : Word) (s : State),
    s.Inv ∧ s.Passes src (F.SDI_S_CFG_EN n) ∧ s.rd (F.SDI_S_CFG_EN n) = 0 ∧ (F.SDI_S_CFG_EN n).of val = 1 ∧ s.sdiModeOf ((F.SDI_S_CFG_SRC_HEAD n).of val) ≠ 0 :=
  ⟨.phobos, 3, mk [(F.SDI_S_CFG_EN 3, 1), (F.SDI_S_CFG_SRC_HEAD 3, 2)], put day [(F.CMP_H_FORMAT_RASTER 2, 1)], ⟨by decide +kernel, by decide +kernel, by decide +kernel⟩, by unfold State.Passes; decide +kernel⟩

theorem wit_commitsComplete_c5_2 : ∃ (src : Agent) (n : Fin 4) (val : Word) (s : State),
    s.Inv ∧ s.Passes src (F.SDI_S_CFG_EN n) ∧ s.rd (F.SDI_S_CFG_EN n) = 1 ∧ (F.SDI_S_CFG_EN n).of val = 0 ∧ s.rd (F.SDI_S_STATUS_ACTIVE n) = 1 :=
  ⟨.phobos, 3, mk [], put day [(F.CMP_H_FORMAT_RASTER 0, 1), (F.SDI_S_CFG_EN 3, 1), (F.SDI_S_STATUS_ACTIVE 3, 1)], ⟨by decide +kernel, by decide +kernel, by decide +kernel⟩, by unfold State.Passes; decide +kernel⟩

theorem wit_networkPortsComplete_c1 : ∃ (src : Agent) (val : Word) (s : State),
    s.Inv ∧ s.Passes src F.NET_CFG_MODE ∧ F.NET_CFG_MODE.of val ≠ 3 ∧ ((∀ p < 8, s.rd (F.NET_P_CTRL_EN p) = 0)) ∧ (s.image.nodes.any (fun n => n.kind == 7) = false) :=
  ⟨.phobos, mk [(F.NET_CFG_MODE, 2)], day, ⟨by decide +kernel, by decide +kernel, by decide +kernel⟩, by unfold State.Passes; decide +kernel⟩

theorem wit_networkPortsComplete_c2_1 : ∃ (src : Agent) (p : Fin 8) (val : Word) (s : State),
    s.Inv ∧ s.Passes src (F.NET_P_CTRL_EN p) ∧ 1518 ≤ (F.NET_P_CTRL_MAX_FRAME p).of val ∧ (F.NET_P_CTRL_MAX_FRAME p).of val ≤ 9600 ∧ ((portLanes (s.rd F.NET_CFG_MODE) p).any (fun l => s.laneUnderTest (0x28 + l)) = false) ∧ s.rd (F.NET_P_CTRL_EN p) = 0 ∧ (F.NET_P_CTRL_EN p).of val = 1 ∧ s.portExists p = true :=
  ⟨.phobos, 7, mk [(F.NET_P_CTRL_EN 7, 1), (F.NET_P_CTRL_MAX_FRAME 7, 1518)], day, ⟨by decide +kernel, by decide +kernel, by decide +kernel⟩, by unfold State.Passes; decide +kernel⟩

theorem wit_networkPortsComplete_c2_2 : ∃ (src : Agent) (p : Fin 8) (val : Word) (s : State),
    s.Inv ∧ s.Passes src (F.NET_P_CTRL_EN p) ∧ 1518 ≤ (F.NET_P_CTRL_MAX_FRAME p).of val ∧ (F.NET_P_CTRL_MAX_FRAME p).of val ≤ 9600 ∧ ((portLanes (s.rd F.NET_CFG_MODE) p).any (fun l => s.laneUnderTest (0x28 + l)) = false) ∧ s.rd (F.NET_P_CTRL_EN p) = 1 ∧ (F.NET_P_CTRL_EN p).of val = 0 :=
  ⟨.phobos, 7, mk [(F.NET_P_CTRL_MAX_FRAME 7, 9600)], (network.wr (F.NET_P_STATUS_PENDING_ENABLE 7) 1), ⟨by decide +kernel, by decide +kernel, by decide +kernel⟩, by unfold State.Passes; decide +kernel⟩

theorem wit_networkPortsComplete_c3_1 : ∃ (p : Fin 8) (s : State),
    s.Inv ∧ s.rd (F.NET_P_STATUS_LINK p) = 0 ∧ s.rd (F.NET_P_CTRL_EN p) = 1 ∧ s.portExists p = true :=
  ⟨7, day.wr (F.NET_P_CTRL_EN 7) 1, ⟨by decide +kernel, by decide +kernel, by decide +kernel⟩, by decide +kernel⟩

theorem wit_networkPortsComplete_c3_2 : ∃ (p : Fin 8) (s : State),
    s.Inv ∧ s.rd (F.NET_P_STATUS_LINK p) = 1 :=
  ⟨7, network, ⟨by decide +kernel, by decide +kernel, by decide +kernel⟩, by decide +kernel⟩

theorem wit_networkPortsComplete_c4 : ∃ (p : Fin 8) (bytes : List Byte) (s : State),
    (KMap.wf (fun _ => {}) s.net.ports = true) ∧ s.portDown p = false ∧ 14 ≤ bytes.length ∧ bytes.length + 4 ≤ s.rd (F.NET_P_CTRL_MAX_FRAME p) ∧ beAt bytes 12 2 ≠ 0x8808 ∧ beAt bytes 12 2 ≠ 0x88F7 ∧ s.rd (F.NET_P_CTRL_RX_EN p) = 1 ∧ s.macAccepts p (bytes.take 6) = true ∧ isPtpUdp bytes = false :=
  ⟨7, etherFrame, { network with net := { ports := [(7, { rxSeq := 0xFFFFFFFF })] } }.wr (F.NET_P_CTRL_RX_EN 7) 1, by decide +kernel⟩

theorem wit_networkPortsComplete_c5 : ∃ (p : Fin 8) (i : Nat) (e : RingEntry) (s : State) (u : State),
    s.rd (F.NET_P_SWTX_EN p) = 1 ∧ s.nextTile (s.rd (F.NET_P_SWTX_QID p)) = (some (i, e), u) ∧ verify (u.entryTile e) true = none ∧ 14 ≤ (leAt (u.entryTile e).payload 0 2) ∧ (leAt (u.entryTile e).payload 0 2) ≤ u.rd (F.NET_P_CTRL_MAX_FRAME p) - 4 ∧ 16 + (leAt (u.entryTile e).payload 0 2) ≤ (u.entryTile e).payload.length ∧ u.classTakes p (u.rd (F.NET_P_SWTX_CLASS p)) ({ bytes := ((u.entryTile e).payload.drop 16).take (leAt (u.entryTile e).payload 0 2) }) = true ∧ u.portDown p = false ∧ u.operSched p = none :=
  ⟨7, 0, { addr := 0x3000, eflags := 1, len16 := 2, seq := 4 }, put (feed network 1 (Tile.sealed { hdr := { format := 0x0500, len16 := 2, seq := 4 }, payload := leBytes 2 14 ++ List.replicate 30 9 })) [(F.NET_P_SWTX_EN 7, 1), (F.NET_P_SWTX_QID 7, 5), (F.NET_P_SWTX_CLASS 7, 7), (F.TSN_C_BUF_UNITS 7 7, 1)], (put (feed network 1 (Tile.sealed { hdr := { format := 0x0500, len16 := 2, seq := 4 }, payload := leBytes 2 14 ++ List.replicate 30 9 })) [(F.NET_P_SWTX_EN 7, 1), (F.NET_P_SWTX_QID 7, 5), (F.NET_P_SWTX_CLASS 7, 7), (F.TSN_C_BUF_UNITS 7 7, 1)]), by decide +kernel⟩

theorem wit_egressComplete_c1_1 : ∃ (src : Agent) (p : Fin 8) (val : Word) (s : State),
    s.Inv ∧ s.Passes src (F.TSN_P_CTRL_COMMIT p) ∧ s.rd (F.TSN_P_STATUS_PENDING p) = 0 ∧ (F.TSN_P_CTRL_ADMIN_LEN p).of val = s.rd (F.TSN_P_CTRL_ADMIN_LEN p) ∧ (F.TSN_P_CTRL_CANCEL p).of val = 0 ∧ s.adminOk p = true :=
  ⟨.phobos, 7, mk [(F.TSN_P_CTRL_COMMIT 7, 1), (F.TSN_P_CTRL_ADMIN_LEN 7, 1)], put network [(F.TSN_P_CTRL_ADMIN_LEN 7, 1), (F.TSN_P_CYCLE_NS_V 7, 1000), (F.TSN_ADMIN_NS_V 7 0, 32), (F.TSN_P_BASE_NS_V 7, 1000)], ⟨by decide +kernel, by decide +kernel, by decide +kernel⟩, by unfold State.Passes; decide +kernel⟩

theorem wit_egressComplete_c1_2 : ∃ (src : Agent) (p : Fin 8) (val : Word) (s : State) (late : Bool),
    s.Inv ∧ s.Passes src (F.TSN_P_CTRL_COMMIT p) ∧ s.rd (F.TSN_P_STATUS_PENDING p) = 1 ∧ (F.TSN_P_CTRL_COMMIT p).of val = 0 :=
  ⟨.phobos, 7, mk [(F.TSN_P_CTRL_CANCEL 7, 1)], network.wr (F.TSN_P_STATUS_PENDING 7) 1, true, ⟨by decide +kernel, by decide +kernel, by decide +kernel⟩, by unfold State.Passes; decide +kernel⟩

theorem wit_egressComplete_c2 : ∃ (p : Fin 8) (s : State),
    s.Inv ∧ s.rd (F.TSN_P_STATUS_PENDING p) = 1 ∧ s.changeTime p ≤ s.timestamp ∧ s.rd (F.TSN_P_CTRL_ADMIN_LEN p) ≤ 256 :=
  ⟨7, put network [(F.TSN_P_STATUS_PENDING 7, 1), (F.TSN_P_CTRL_ADMIN_LEN 7, 256), (F.TSN_ADMIN_NS_V 7 255, 32), (F.TSN_ADMIN_GATES_V 7 255, 7), (F.TSN_P_CYCLE_NS_V 7, 1000)], ⟨by decide +kernel, by decide +kernel, by decide +kernel⟩, by decide +kernel⟩

theorem wit_egressComplete_c3 : ∃ (p : Fin 8) (s : State),
    (KMap.wf (fun _ => {}) s.net.ports = true) :=
  ⟨7, put { network with net := { ports := [(7, { rxSeq := 1 })] } } [(F.TSN_P_CTRL_GATE_EN 7, 1), (F.TSN_P_STATUS_OPER_LEN 7, 1), (F.TSN_OPER_GATES_V 7 0, 7), (F.TSN_OPER_NS_V 7 0, 32), (F.TSN_P_OPER_CYCLE_NS_V 7, 1000)], by decide +kernel⟩

theorem wit_egressComplete_c4_1 : ∃ (src : Agent) (p : Fin 8) (c : Fin 8) (val : Word) (s : State),
    s.Inv ∧ s.Passes src (F.TSN_C_IDLE_V p c) ∧ val.toNat ≠ 0 ∧ val.toNat ≤ s.portRate p * 1000000 :=
  ⟨.phobos, 7, 7, 25000000, day, ⟨by decide +kernel, by decide +kernel, by decide +kernel⟩, by unfold State.Passes; decide +kernel⟩

theorem wit_egressComplete_c4_2 : ∃ (src : Agent) (p : Fin 8) (c : Fin 8) (val : Word) (s : State),
    s.Inv ∧ s.Passes src (F.TSN_C_HI_V p c) ∧ val.toNat < 2 ^ 31 :=
  ⟨.phobos, 7, 7, 0x7FFFFFFF, day, ⟨by decide +kernel, by decide +kernel, by decide +kernel⟩, by unfold State.Passes; decide +kernel⟩

theorem wit_egressComplete_c5 : ∃ (p : Fin 8) (f : NetFrame) (x : Int) (s : State) (u : State),
    s.transmit p = (some (f, x), u) :=
  ⟨7, { bytes := etherFrame }, 0, { network with net := { ports := [(7, { classes := [(7, { frames := [{ bytes := etherFrame }] })] })] } }, (State.transmit ({ network with net := { ports := [(7, { classes := [(7, { frames := [{ bytes := etherFrame }] })] })] } }) 7).2, by decide +kernel⟩

theorem wit_sendersComplete_c1_1 : ∃ (k : Fin 64) (n : Node) (i : Nat) (j : Nat) (ed : Edge) (e : RingEntry) (s : State) (u : State),
    s.senderNode k = some (n, i) ∧ s.image.inEdge n.id i = some ed ∧ (s.sender k).outq = [] ∧ s.nextTile ed.qid = (some (j, e), u) ∧ ((u.maybeSwitch n.id (u.entryTile e).hdr.fs).checkTile ed 0x0600 (u.entryTile e) true).1.outcome ≠ 3 ∧ n.snd i 0 1 = 2 :=
  ⟨63, sender 2, 1, 0, { qid := 5, prod := 1, cons := 30, consPort := 1, format := 0x0500, entries := 4 }, { addr := 0x3000, eflags := 1, len16 := 1, seq := 4 }, feed (sending 2 {}) 1 goodTile, (feed (sending 2 {}) 1 goodTile), by decide +kernel⟩

theorem wit_sendersComplete_c1_2 : ∃ (k : Fin 64) (n : Node) (i : Nat) (j : Nat) (ed : Edge) (e : RingEntry) (s : State) (u : State),
    s.senderNode k = some (n, i) ∧ s.image.inEdge n.id i = some ed ∧ (s.sender k).outq = [] ∧ s.nextTile ed.qid = (some (j, e), u) ∧ ((u.maybeSwitch n.id (u.entryTile e).hdr.fs).checkTile ed 0x0600 (u.entryTile e) true).1.outcome ≠ 3 ∧ n.snd i 0 1 = 3 ∧ ((u.maybeSwitch n.id (u.entryTile e).hdr.fs).checkTile ed 0x0600 (u.entryTile e) true).1.tile.hdr.fs = true ∧ ((u.maybeSwitch n.id (u.entryTile e).hdr.fs).checkTile ed 0x0600 (u.entryTile e) true).1.tile.hdr.fe = false ∧ (s.sender k).inAu = false :=
  ⟨63, sender 3, 1, 0, { qid := 5, prod := 1, cons := 30, consPort := 1, format := 0x0500, entries := 4 }, { addr := 0x3000, eflags := 1, len16 := 1, seq := 4 }, feed (sending 3 {}) 1 (Tile.sealed { hdr := { flags := 8, format := 0x0500, len16 := 1, seq := 4 }, payload := List.replicate 16 7 }), (feed (sending 3 {}) 1 (Tile.sealed { hdr := { flags := 8, format := 0x0500, len16 := 1, seq := 4 }, payload := List.replicate 16 7 })), by decide +kernel⟩

theorem wit_sendersComplete_c2 : ∃ (k : Fin 64) (n : Node) (i : Nat) (f : SndFrame) (s : State),
    s.senderNode k = some (n, i) ∧ n.snd i 0 1 = 1 ∧ (s.sender k).frames = [f] ∧ f.due < (s.sndFmt n i f.tables).packets (n.snd i 64 2) ∧ s.pktTime n i (s.sndFmt n i f.tables) f f.due ≤ s.timestamp ∧ n.pktReady i (s.sndFmt n i f.tables) f f.sent = false ∧ n.pktReady i (s.sndFmt n i f.tables) f f.due = false :=
  ⟨63, sender 1, 1, { tables := [{ id := 1, kind := 1, addr := 0x100, bodyLen := 32 }] }, { (sending 1 { frames := [{ tables := [{ id := 1, kind := 1, addr := 0x100, bodyLen := 32 }] }] }).setBytes 0x100 encFormat with str := { active := some { nodes := [sender 1], tables := [{ id := 1, kind := 1, addr := 0x100, bodyLen := 32 }] } } }, by decide +kernel⟩

theorem wit_ptpMessagesComplete_c1 : ∃ (m : PtpMsg) (s : State),
    s.Inv ∧ s.fromMaster m = true :=
  ⟨ptpMsg, { network with ptp := { selected := some 9, sync := some (0xFFFF, 3, 40), t12 := some (100, 200), t3 := some (0xFFFF, 7) } }, ⟨by decide +kernel, by decide +kernel, by decide +kernel⟩, by decide +kernel⟩

theorem wit_ptpMessagesComplete_c1b : ∃ (m : PtpMsg) (s : State),
    s.Inv ∧ s.fromMaster m = true :=
  ⟨{ ptpMsg with twoStep := false }, { put network [(F.PTP_CTRL_SRC, 1), (F.PTP_STATUS_STATE, 2)] with ptp := { selected := some 9, t12 := some (100, 200), t3 := some (0xFFFF, 7) } }, ⟨by decide +kernel, by decide +kernel, by decide +kernel⟩, by decide +kernel⟩

theorem wit_ptpMessagesComplete_c2_1 : ∃ (s : State) (m : PtpMsg),
    s.portDown (s.rd F.PTP_CFG_PORT) = false ∧ s.operSched (s.rd F.PTP_CFG_PORT) = none ∧ s.rd F.PTP_STATUS_MASTER = 1 ∧ s.ptpFor m = true :=
  ⟨network.wr F.PTP_STATUS_MASTER 1, ptpMsg, by decide +kernel⟩

theorem wit_ptpMessagesComplete_c2_2 : ∃ (s : State) (announce : Bool),
    s.portDown (s.rd F.PTP_CFG_PORT) = false ∧ s.operSched (s.rd F.PTP_CFG_PORT) = none ∧ s.rd F.PTP_STATUS_MASTER = 1 :=
  ⟨network.wr F.PTP_STATUS_MASTER 1, true, by decide +kernel⟩

theorem wit_ptpMessagesComplete_c2_2b : ∃ (s : State) (announce : Bool),
    s.portDown (s.rd F.PTP_CFG_PORT) = false ∧ s.operSched (s.rd F.PTP_CFG_PORT) = none ∧ s.rd F.PTP_STATUS_MASTER = 1 :=
  ⟨{ network with ptp := { seqSent := 65535 } }.wr F.PTP_STATUS_MASTER 1, false, by decide +kernel⟩

theorem wit_ptpMessagesComplete_c2_3 : ∃ (s : State),
    s.portDown (s.rd F.PTP_CFG_PORT) = false ∧ s.operSched (s.rd F.PTP_CFG_PORT) = none ∧ s.ptp.selected.isSome = true ∧ s.rd F.PTP_STATUS_MASTER = 0 :=
  ⟨{ network with ptp := { selected := some 9 } }, by decide +kernel⟩

theorem wit_ptpMessagesComplete_c3 : ∃ (m : PtpMsg) (a : AnnounceData) (s : State),
    s.ptpFor m = true ∧ s.ptpActive = true ∧ (s.ptp.masters.find? (fun x => x.id == m.source.toNat) = none) :=
  ⟨ptpMsg, { prio1 := 5 }, { network with ref := 77 }.wr F.PTP_CTRL_SRC 1, by decide +kernel⟩

theorem wit_ptpMessagesComplete_c4 : ∃ (m : PtpMsg) (a : AnnounceData) (x : Master) (s : State),
    s.ptpFor m = true ∧ s.ptpActive = true ∧ (s.ptp.masters.find? (fun x => x.id == m.source.toNat) = some x) :=
  ⟨ptpMsg, { prio1 := 5 }, { id := 9, port := 7, count := 1, lastRef := 3 }, { network with ref := 77, ptp := { masters := [{ id := 9, port := 7, count := 1, lastRef := 3 }] } }.wr F.PTP_CTRL_SRC 1, by decide +kernel⟩

theorem wit_ptpMessagesComplete_c5 : ∃ (id : Nat) (s : State),
    s.ptpActive = true ∧ s.ptp.selected = some id :=
  ⟨9, { network with ptp := { selected := some 9, masters := [{ id := 9 }, { id := 10, count := 2 }] } }.wr F.PTP_CTRL_SRC 1, by decide +kernel⟩

theorem wit_timeCommandsComplete_c1_1 : ∃ (s : State),
    s.Inv ∧ s.rd F.PTP_CTRL_SRC = 2 ∧ s.rd (F.TPO_CTRL_EN 7) = 1 ∧ s.rd (F.TPO_CTRL_MODE 7) = 3 :=
  ⟨put day [(F.PTP_CTRL_SRC, 2), (F.TPO_CTRL_EN 7, 1), (F.TPO_CTRL_MODE 7, 3)], ⟨by decide +kernel, by decide +kernel, by decide +kernel⟩, by decide +kernel⟩

theorem wit_timeCommandsComplete_c1_2 : ∃ (s : State),
    s.Inv ∧ s.rd F.PTP_CTRL_SRC = 2 ∧ s.rd F.PTP_STATUS_PPS_CLK ≠ 0 :=
  ⟨put day [(F.PTP_CTRL_SRC, 2), (F.PTP_STATUS_PPS_CLK, 2), (F.PTP_STATUS_STATE, 2)], ⟨by decide +kernel, by decide +kernel, by decide +kernel⟩, by decide +kernel⟩

theorem wit_timeCommandsComplete_c2_1 : ∃ (src : Agent) (val : Word) (s : State),
    s.Inv ∧ s.Passes src F.PTP_TIME_CMD_SET ∧ F.PTP_TIME_CMD_ADJUST.of val = 0 :=
  ⟨.phobos, mk [(F.PTP_TIME_CMD_SET, 1)], put { day with ref := 5 } [(F.PTP_TIME_NS_NS, 999999999), (F.PTP_TIME_SEC_LO_SEC, 0xFFFFFFFF), (F.PTP_TIME_SEC_HI_SEC, 0xFFFF)], ⟨by decide +kernel, by decide +kernel, by decide +kernel⟩, by unfold State.Passes; decide +kernel⟩

theorem wit_timeCommandsComplete_c2_2 : ∃ (src : Agent) (val : Word) (s : State),
    s.Inv ∧ s.Passes src F.PTP_TIME_CMD_SET ∧ F.PTP_TIME_CMD_SET.of val = 0 :=
  ⟨.phobos, mk [(F.PTP_TIME_CMD_ADJUST, 1)], put { day with ref := 5 } [(F.PTP_TIME_NS_NS, 0xFFFFFFFF)], ⟨by decide +kernel, by decide +kernel, by decide +kernel⟩, by unfold State.Passes; decide +kernel⟩

theorem wit_timeCommandsComplete_c2_3 : ∃ (src : Agent) (val : Word) (s : State),
    s.Inv ∧ s.Passes src F.PTP_TIME_CMD_SET ∧ F.PTP_TIME_CMD_SET.of val = 0 ∧ F.PTP_TIME_CMD_ADJUST.of val = 0 :=
  ⟨.phobos, mk [(F.PTP_TIME_CMD_LATCH, 1)], { day with ref := 5, ptp := { offset := 2000000001 * 2 ^ 32 } }, ⟨by decide +kernel, by decide +kernel, by decide +kernel⟩, by unfold State.Passes; decide +kernel⟩

theorem wit_timeCommandsComplete_c3 : ∃ (ppb : Word) (s : State),
    s.Inv ∧ s.rd F.PTP_STATUS_STATE = 2 :=
  ⟨0xFFFFFFFF, day.wr F.PTP_STATUS_STATE 2, ⟨by decide +kernel, by decide +kernel, by decide +kernel⟩, by decide +kernel⟩

theorem wit_timedOutputsComplete_c1 : ∃ (src : Agent) (n : Fin 8) (val : Word) (s : State),
    s.Inv ∧ s.Passes src (F.TPO_CTRL_EN n) ∧ s.rd (F.TPO_CTRL_EN n) = 0 ∧ (F.TPO_CTRL_EN n).of val = 1 ∧ ((((F.TPO_CTRL_MODE n).of val) = 1 → s.rd (F.TPO_WIDTH_NS_NS n) ≠ 0 ∧ s.timestamp + 100 ≤ s.tpoStart n)) ∧ ((((F.TPO_CTRL_MODE n).of val) = 2 → s.rd (F.TPO_WIDTH_NS_NS n) ≠ 0 ∧ s.rd (F.TPO_WIDTH_NS_NS n) < s.rd (F.TPO_PERIOD_NS_NS n) ∧ 100 ≤ s.rd (F.TPO_PERIOD_NS_NS n))) :=
  ⟨.phobos, 7, mk [(F.TPO_CTRL_EN 7, 1), (F.TPO_CTRL_MODE 7, 1)], put day [(F.TPO_WIDTH_NS_NS 7, 1), (F.TPO_START_NS_NS 7, 100)], ⟨by decide +kernel, by decide +kernel, by decide +kernel⟩, by unfold State.Passes; decide +kernel⟩

theorem wit_timedOutputsComplete_c1b : ∃ (src : Agent) (n : Fin 8) (val : Word) (s : State),
    s.Inv ∧ s.Passes src (F.TPO_CTRL_EN n) ∧ s.rd (F.TPO_CTRL_EN n) = 0 ∧ (F.TPO_CTRL_EN n).of val = 1 ∧ ((((F.TPO_CTRL_MODE n).of val) = 1 → s.rd (F.TPO_WIDTH_NS_NS n) ≠ 0 ∧ s.timestamp + 100 ≤ s.tpoStart n)) ∧ ((((F.TPO_CTRL_MODE n).of val) = 2 → s.rd (F.TPO_WIDTH_NS_NS n) ≠ 0 ∧ s.rd (F.TPO_WIDTH_NS_NS n) < s.rd (F.TPO_PERIOD_NS_NS n) ∧ 100 ≤ s.rd (F.TPO_PERIOD_NS_NS n))) :=
  ⟨.phobos, 0, mk [(F.TPO_CTRL_EN 0, 1), (F.TPO_CTRL_MODE 0, 2)], put day [(F.TPO_WIDTH_NS_NS 0, 99), (F.TPO_PERIOD_NS_NS 0, 100)], ⟨by decide +kernel, by decide +kernel, by decide +kernel⟩, by unfold State.Passes; decide +kernel⟩

theorem wit_timedOutputsComplete_c2_1 : ∃ (n : Fin 8) (s : State),
    s.rd (F.TPO_CTRL_EN n) = 1 ∧ s.rd (F.TPO_CTRL_MODE n) = 1 ∧ (s.tpoOf n).fired = false ∧ s.tpoStart n ≤ s.timestamp :=
  ⟨7, put day [(F.TPO_CTRL_EN 7, 1), (F.TPO_CTRL_MODE 7, 1)], by decide +kernel⟩

theorem wit_timedOutputsComplete_c2_2 : ∃ (n : Fin 8) (s : State),
    s.rd (F.TPO_CTRL_EN n) = 1 ∧ s.rd (F.TPO_CTRL_MODE n) = 2 ∧ s.tpoStart n + ((s.tpoOf n).next * s.rd (F.TPO_PERIOD_NS_NS n) : Nat) ≤ s.timestamp :=
  ⟨0, put day [(F.TPO_CTRL_EN 0, 1), (F.TPO_CTRL_MODE 0, 2), (F.TPO_PERIOD_NS_NS 0, 100)], by decide +kernel⟩

theorem wit_timedOutputsComplete_c3 : ∃ (n : Fin 8) (s : State),
    (KMap.wf (fun _ => {}) s.tpo = true) :=
  ⟨0, { day with tpo := [(0, { active := true, fired := true })] }, by decide +kernel⟩

theorem wit_timedOutputsComplete_c4 : ∃ (n : Fin 8) (s : State),
    s.Inv ∧ s.rd (F.TPO_CTRL_EN n) = 1 ∧ s.rd (F.TPO_CTRL_MODE n) = 3 :=
  ⟨0, put { day with ptp := { offset := 2000000001 * 2 ^ 32 } } [(F.TPO_CTRL_EN 0, 1), (F.TPO_CTRL_MODE 0, 3), (F.TPO_CAP_COUNT_COUNT 0, 0xFFFFFFFF)], ⟨by decide +kernel, by decide +kernel, by decide +kernel⟩, by decide +kernel⟩

theorem wit_audioComplete_c1_1 : ∃ (p : Fin 4) (din : List Word) (x : Int) (s : State),
    s.rd (F.AUD_P_CTRL_EN p) = 1 ∧ s.rd (F.AUD_P_STATUS_SHUTTING_DOWN p) = 0 ∧ s.periodTime p = some x ∧ s.audNode p 0 = none :=
  ⟨3, [], 0, put day [(F.AUD_P_CTRL_EN 3, 1), (F.AUD_P_CTRL_CLK_MODE 3, 1)], by decide +kernel⟩

theorem wit_audioComplete_c1_2 : ∃ (p : Fin 4) (din : List Word) (x : Int) (s : State) (n : Node),
    s.rd (F.AUD_P_CTRL_EN p) = 1 ∧ s.rd (F.AUD_P_STATUS_SHUTTING_DOWN p) = 0 ∧ s.periodTime p = some x ∧ s.audNode p 0 = some n ∧ (KMap.wf (fun _ => {}) s.aud = true) ∧ (s.audPort p).rxN + 1 < n.periods :=
  ⟨3, [1, 2], 0, put { oneNode (audio 0) 0 with aud := [(3, { rxN := 14 })] } [(F.AUD_P_CTRL_EN 3, 1), (F.AUD_P_CTRL_CLK_MODE 3, 1)], audio 0, by decide +kernel⟩

theorem wit_audioComplete_c2 : ∃ (p : Fin 4) (n : Node) (ed : Edge) (i : Nat) (e : RingEntry) (s : State) (u : State),
    s.audNode p 1 = some n ∧ s.image.inEdge n.id 0 = some ed ∧ (s.audPort p).running = true ∧ s.nextTile ed.qid = (some (i, e), u) ∧ ((u.maybeSwitch n.id (u.entryTile e).hdr.fs).checkTile ed (0x0700 + p) (u.entryTile e) true).1.outcome ≠ 3 ∧ ((u.maybeSwitch n.id (u.entryTile e).hdr.fs).checkTile ed (0x0700 + p) (u.entryTile e) true).1.tile.hdr.len16 = ceilDiv (n.periods * n.slots.length * 4) 16 ∧ (s.audPort p).periodOf (s.fsOf p) (s.capTime ((u.maybeSwitch n.id (u.entryTile e).hdr.fs).checkTile ed (0x0700 + p) (u.entryTile e) true).1.tile.hdr.capSec ((u.maybeSwitch n.id (u.entryTile e).hdr.fs).checkTile ed (0x0700 + p) (u.entryTile e) true).1.tile.hdr.capNs + n.par 8 4 + ((n.periods - 1) * 1000000000 / s.fsOf p : Nat)) ≤ 8192 :=
  ⟨3, audio 1, { qid := 5, prod := 1, cons := 31, format := 0x0500, entries := 4 }, 0, { addr := 0x3000, eflags := 1, len16 := 8, seq := 4 }, feed { oneNode (audio 1) 0 with aud := [(3, { running := true })] } 1 (Tile.sealed { hdr := { format := 0x0500, len16 := 8, seq := 4 }, payload := List.replicate 128 7 }), (feed { oneNode (audio 1) 0 with aud := [(3, { running := true })] } 1 (Tile.sealed { hdr := { format := 0x0500, len16 := 8, seq := 4 }, payload := List.replicate 128 7 })), by decide +kernel⟩

theorem wit_audioComplete_c3_1 : ∃ (src : Agent) (p : Fin 4) (val : Word) (s : State),
    s.Inv ∧ s.Passes src (F.AUD_P_CTRL_EN p) ∧ (F.AUD_P_CTRL_FS p).of val = s.rd (F.AUD_P_CTRL_FS p) ∧ (F.AUD_P_CTRL_CLK_MODE p).of val = s.rd (F.AUD_P_CTRL_CLK_MODE p) ∧ s.rd (F.AUD_P_STATUS_SHUTTING_DOWN p) = 0 ∧ s.rd (F.AUD_P_CTRL_EN p) = 0 ∧ (F.AUD_P_CTRL_EN p).of val = 1 ∧ s.audOk p val = true :=
  ⟨.phobos, 3, mk [(F.AUD_P_CTRL_EN 3, 1), (F.AUD_P_CTRL_FS 3, 2)], put day [(F.AUD_P_CTRL_FS 3, 2), (F.AUD_P_FMT_SLOTS 3, 1), (F.AUD_P_FMT_SLOT_WIDTH 3, 2), (F.AUD_P_FMT_DATA_WIDTH 3, 2), (F.AUD_P_UNDERRUN_COUNT 3, 4)], ⟨by decide +kernel, by decide +kernel, by decide +kernel⟩, by unfold State.Passes; decide +kernel⟩

theorem wit_audioComplete_c3_2 : ∃ (src : Agent) (p : Fin 4) (val : Word) (s : State),
    s.Inv ∧ s.Passes src (F.AUD_P_CTRL_EN p) ∧ (F.AUD_P_CTRL_FS p).of val = s.rd (F.AUD_P_CTRL_FS p) ∧ (F.AUD_P_CTRL_CLK_MODE p).of val = s.rd (F.AUD_P_CTRL_CLK_MODE p) ∧ s.rd (F.AUD_P_STATUS_SHUTTING_DOWN p) = 0 ∧ s.rd (F.AUD_P_CTRL_EN p) = 1 ∧ (F.AUD_P_CTRL_EN p).of val = 0 ∧ (s.audPort p).running = true :=
  ⟨.phobos, 3, mk [(F.AUD_P_CTRL_FS 3, 2)], put { day with aud := [(3, { running := true })] } [(F.AUD_P_CTRL_FS 3, 2), (F.AUD_P_CTRL_EN 3, 1)], ⟨by decide +kernel, by decide +kernel, by decide +kernel⟩, by unfold State.Passes; decide +kernel⟩

theorem wit_audioComplete_c3_3 : ∃ (src : Agent) (p : Fin 4) (val : Word) (s : State),
    s.Inv ∧ s.Passes src (F.AUD_P_CTRL_EN p) ∧ (F.AUD_P_CTRL_FS p).of val = s.rd (F.AUD_P_CTRL_FS p) ∧ (F.AUD_P_CTRL_CLK_MODE p).of val = s.rd (F.AUD_P_CTRL_CLK_MODE p) ∧ s.rd (F.AUD_P_STATUS_SHUTTING_DOWN p) = 0 ∧ (F.AUD_P_CTRL_EN p).of val = s.rd (F.AUD_P_CTRL_EN p) ∧ (F.AUD_P_CTRL_TX_MUTE p).of val ≠ s.rd (F.AUD_P_CTRL_TX_MUTE p) ∧ (KMap.wf (fun _ => {}) s.aud = true) :=
  ⟨.phobos, 3, mk [(F.AUD_P_CTRL_EN 3, 1), (F.AUD_P_CTRL_TX_MUTE 3, 1)], put { day with aud := [(3, { running := true, chans := [(31, { muted := false })] })] } [(F.AUD_P_CTRL_EN 3, 1)], ⟨by decide +kernel, by decide +kernel, by decide +kernel⟩, by unfold State.Passes; decide +kernel⟩

theorem wit_audioComplete_c4 : ∃ (p : Fin 4) (k : Fin 32) (m : Bool) (s : State),
    s.Inv ∧ ((s.audPort p).chan k).pend = some m ∧ s.rd (F.AUD_P_CTRL_ZC_TMO p) ≤ ((s.audPort p).chan k).waited :=
  ⟨3, 31, true, put { day with aud := [(3, { running := true, chans := [(31, { muted := false, pend := some true, waited := 3 })] })] } [(F.AUD_P_CTRL_EN 3, 1), (F.AUD_P_CTRL_ZC_TMO 3, 3)], ⟨by decide +kernel, by decide +kernel, by decide +kernel⟩, by decide +kernel⟩

theorem wit_audioComplete_c5_1 : ∃ (p : Fin 4) (ppm : Int) (glitches : Nat) (s : State),
    s.Inv ∧ s.rd (F.AUD_P_CTRL_CLK_MODE p) = 1 ∧ s.rd (F.AUD_P_STATUS_CLK p) = 2 ∧ (s.audPort p).running = true :=
  ⟨3, 7, 0, put { day with aud := [(3, { running := true })] } [(F.AUD_P_CTRL_EN 3, 1), (F.AUD_P_CTRL_CLK_MODE 3, 1), (F.AUD_P_STATUS_CLK 3, 2)], ⟨by decide +kernel, by decide +kernel, by decide +kernel⟩, by decide +kernel⟩

theorem wit_audioComplete_c5_2 : ∃ (p : Fin 4) (ppm : Int) (glitches : Nat) (s : State),
    s.Inv ∧ s.rd (F.AUD_P_CTRL_CLK_MODE p) = 1 ∧ ppm.natAbs ≤ 1000 ∧ glitches ≤ s.rd (F.AUD_P_CLK_GLITCH_LIMIT p) :=
  ⟨3, -1000, 3, put day [(F.AUD_P_CTRL_EN 3, 1), (F.AUD_P_CTRL_CLK_MODE 3, 1), (F.AUD_P_CLK_GLITCH_LIMIT 3, 3)], ⟨by decide +kernel, by decide +kernel, by decide +kernel⟩, by decide +kernel⟩

theorem wit_audioComplete_c6 : ∃ (src : Agent) (g : Fin 4) (val : Word) (s : State),
    s.Inv ∧ s.Passes src (F.AUD_GROUP_EN g) ∧ ((∀ p < 4, s.rd (F.AUD_P_CTRL_EN p) = 0)) ∧ (s.plainWrite (F.AUD_GROUP_EN g).off val).groupsOk = true :=
  ⟨.phobos, 3, mk [(F.AUD_GROUP_EN 3, 1), (F.AUD_GROUP_MASK 3, 9), (F.AUD_GROUP_LEADER 3, 3)], day, ⟨by decide +kernel, by decide +kernel, by decide +kernel⟩, by unfold State.Passes; decide +kernel⟩

theorem wit_hostAttachmentComplete_c1 : ∃ (speed : Fin 5) (width : Fin 17) (s : State),
    s.Inv ∧ s.rd F.PWR_STATUS_DAY ≠ 0 ∧ speed ≠ 0 ∧ (width = 4 ∨ width = 8 ∨ width = 16) :=
  ⟨4, 16, put State.reset [(F.PWR_STATUS_DAY, 1)], ⟨by decide +kernel, by decide +kernel, by decide +kernel⟩, by decide +kernel⟩

theorem wit_hostAttachmentComplete_c2 : ∃ (linkDown : Bool) (s : State),
    s.Inv :=
  ⟨true, put { day with hif := { bme := true, msixEn := true } } [(F.MSIX_DATA_DATA 2047, 5), (F.MSIX_VCTRL_MASK 2047, 0)], ⟨by decide +kernel, by decide +kernel, by decide +kernel⟩⟩

theorem wit_hostAttachmentComplete_c3 : ∃ (bme : Bool) (en : Bool) (mask : Bool) (s : State),
    s.rd F.HIF_STATUS_LINK = 1 :=
  ⟨true, true, false, day, by decide +kernel⟩

theorem wit_hostAttachmentComplete_c4 : ∃ (v : Nat) (s : State),
    s.Inv ∧ s.hostUp = true ∧ s.hif.msixEn = true ∧ s.hif.msixMask = false ∧ v < 2048 ∧ s.vecReady v = true ∧ ((∀ w < v, s.vecReady w = false)) :=
  ⟨2047, put { day with hif := { bme := true, msixEn := true } } [(⟨(F.MSIX_PBA_PENDING 63).off, 31, 1⟩, 1), (F.MSIX_VCTRL_MASK 2047, 0), (F.MSIX_ADDR_LO_ADDR 2047, 4), (F.MSIX_DATA_DATA 2047, 9)], ⟨by decide +kernel, by decide +kernel, by decide +kernel⟩, by decide +kernel⟩

theorem wit_hostAttachmentComplete_c5 : ∃ (len : BitVec 12) (s : State),
    s.Inv :=
  ⟨4, day, ⟨by decide +kernel, by decide +kernel, by decide +kernel⟩⟩

theorem wit_accessesComplete_c1 : ∃ (c : Instr) (src : Agent) (b : Fin 34) (off : BitVec 24) (val : Word) (s : State),
    s.Inv ∧ b ≠ 0 ∧ off.toNat = (F.HIF_IRQ_MAP_EN b).off ∧ s.Passes src (F.HIF_IRQ_MAP_EN b) ∧ (c = .registerWrite src off .word val ∨ (src = .host ∧ c = .bar0Access true off .word val)) :=
  ⟨.bar0Access true (BitVec.ofNat 24 (F.HIF_IRQ_MAP_EN 33).off) .word (0xFFFFFFFF), .host, 33, BitVec.ofNat 24 (F.HIF_IRQ_MAP_EN 33).off, 0xFFFFFFFF, day, ⟨by decide +kernel, by decide +kernel, by decide +kernel⟩, by unfold State.Passes; decide +kernel⟩

theorem wit_accessesComplete_c1b : ∃ (c : Instr) (src : Agent) (b : Fin 34) (off : BitVec 24) (val : Word) (s : State),
    s.Inv ∧ b ≠ 0 ∧ off.toNat = (F.HIF_IRQ_MAP_EN b).off ∧ s.Passes src (F.HIF_IRQ_MAP_EN b) ∧ (c = .registerWrite src off .word val ∨ (src = .host ∧ c = .bar0Access true off .word val)) :=
  ⟨.registerWrite .phobos (BitVec.ofNat 24 (F.HIF_IRQ_MAP_EN 1).off) .word (0xFFFFFFFF), .phobos, 1, BitVec.ofNat 24 (F.HIF_IRQ_MAP_EN 1).off, 0xFFFFFFFF, day, ⟨by decide +kernel, by decide +kernel, by decide +kernel⟩, by unfold State.Passes; decide +kernel⟩

theorem wit_accessesComplete_c2 : ∃ (c : Instr) (src : Agent) (off : BitVec 24) (size : Size) (val : Word) (s : State),
    s.gate src off.toNat = .pass true ∧ size ≠ .word ∧ isCkvData off.toNat = false ∧ (c = .registerWrite src off size val ∨ (src = .host ∧ c = .bar0Access true off size val)) :=
  ⟨.registerWrite .phobos (BitVec.ofNat 24 F.NET_CFG_MODE.off) .byte (1), .phobos, BitVec.ofNat 24 F.NET_CFG_MODE.off, .byte, 1, pair, by decide +kernel⟩

theorem wit_accessesComplete_c3 : ∃ (off : BitVec 24) (size : Size) (val : Word) (s : State),
    s.rd F.PWR_STATUS_DAY ≠ 0 ∧ s.rd F.HIF_STATUS_LINK = 1 ∧ size = .word ∧ off.toNat % 4 = 0 ∧ off.toNat / 0x40000 ≠ 0x0E ∧ off.toNat ≠ 0x70200C ∧ (¬ (off.toNat / 0x40000 = 0x20 ∧ s.rd F.FUSE_PROG_STATUS_BUSY = 1)) :=
  ⟨BitVec.ofNat 24 F.PWR_VIN_VIN.off, .word, 0, put day [(F.PWR_VIN_VIN, 12000), (F.PWR_VIN_VIN_MIN, 9000)], by decide +kernel⟩

theorem wit_accessesComplete_c4_1_1 : ∃ (off : Word) (len : BitVec 12) (write : Option (List Byte)) (s : State) (b : (List Byte)) (pa : Nat),
    s.Inv ∧ s.rd F.HIF_STATUS_LINK = 1 ∧ s.rd F.PWR_STATUS_DAY ≠ 0 ∧ s.rd (F.HIF_IW_CFG_EN (off.toNat / 2 ^ 28)) = 1 ∧ (s.rd (F.HIF_IW_CFG_IW_SPACE (off.toNat / 2 ^ 28))) ≠ 0 ∧ write = some b ∧ b ≠ [] ∧ s.translateAccess (s.rd (F.HIF_IW_CFG_IW_SPACE (off.toNat / 2 ^ 28))) (s.rd (F.HIF_IW_BASE_HI_BASE (off.toNat / 2 ^ 28)) * 2 ^ 32 + s.rd (F.HIF_IW_BASE_LO_BASE (off.toNat / 2 ^ 28)) * 65536 + off.toNat % 2 ^ 28) b.length true 0 = .ok pa :=
  ⟨0xF000FFFF, 1, some [7], mapped, [7], 0x37FFFF, ⟨by decide +kernel, by decide +kernel, by decide +kernel⟩, by decide +kernel⟩

theorem wit_accessesComplete_c4_1_2 : ∃ (off : Word) (len : BitVec 12) (write : Option (List Byte)) (s : State) (pa : Nat),
    s.Inv ∧ s.rd F.HIF_STATUS_LINK = 1 ∧ s.rd F.PWR_STATUS_DAY ≠ 0 ∧ s.rd (F.HIF_IW_CFG_EN (off.toNat / 2 ^ 28)) = 1 ∧ (s.rd (F.HIF_IW_CFG_IW_SPACE (off.toNat / 2 ^ 28))) ≠ 0 ∧ write = none ∧ len ≠ 0 ∧ s.translateAccess (s.rd (F.HIF_IW_CFG_IW_SPACE (off.toNat / 2 ^ 28))) (s.rd (F.HIF_IW_BASE_HI_BASE (off.toNat / 2 ^ 28)) * 2 ^ 32 + s.rd (F.HIF_IW_BASE_LO_BASE (off.toNat / 2 ^ 28)) * 65536 + off.toNat % 2 ^ 28) len.toNat false 0 = .ok pa :=
  ⟨0xF000FFFE, 2, none, mapped, 0x37FFFE, ⟨by decide +kernel, by decide +kernel, by decide +kernel⟩, by decide +kernel⟩

theorem wit_accessesComplete_c4_2_1 : ∃ (off : Word) (len : BitVec 12) (write : Option (List Byte)) (s : State) (b : (List Byte)),
    s.Inv ∧ s.rd F.HIF_STATUS_LINK = 1 ∧ s.rd F.PWR_STATUS_DAY ≠ 0 ∧ s.rd (F.HIF_IW_CFG_EN (off.toNat / 2 ^ 28)) = 1 ∧ (s.rd (F.HIF_IW_CFG_IW_SPACE (off.toNat / 2 ^ 28))) = 0 ∧ write = some b ∧ b ≠ [] ∧ (s.rd (F.HIF_IW_BASE_HI_BASE (off.toNat / 2 ^ 28)) * 2 ^ 32 + s.rd (F.HIF_IW_BASE_LO_BASE (off.toNat / 2 ^ 28)) * 65536 + off.toNat % 2 ^ 28) + b.length ≤ 2 ^ 40 :=
  ⟨0xF000FFFF, 1, some [7], put day [(F.HIF_IW_CFG_EN 15, 1), (F.HIF_IW_BASE_LO_BASE 15, 0x37F)], [7], ⟨by decide +kernel, by decide +kernel, by decide +kernel⟩, by decide +kernel⟩

theorem wit_accessesComplete_c4_2_1b : ∃ (off : Word) (len : BitVec 12) (write : Option (List Byte)) (s : State) (b : (List Byte)),
    s.Inv ∧ s.rd F.HIF_STATUS_LINK = 1 ∧ s.rd F.PWR_STATUS_DAY ≠ 0 ∧ s.rd (F.HIF_IW_CFG_EN (off.toNat / 2 ^ 28)) = 1 ∧ (s.rd (F.HIF_IW_CFG_IW_SPACE (off.toNat / 2 ^ 28))) = 0 ∧ write = some b ∧ b ≠ [] ∧ (s.rd (F.HIF_IW_BASE_HI_BASE (off.toNat / 2 ^ 28)) * 2 ^ 32 + s.rd (F.HIF_IW_BASE_LO_BASE (off.toNat / 2 ^ 28)) * 65536 + off.toNat % 2 ^ 28) + b.length ≤ 2 ^ 40 :=
  ⟨0xF000FFFF, 1, some [7, 8], put day [(F.HIF_IW_CFG_EN 15, 1), (F.HIF_IW_BASE_LO_BASE 15, 0x39F)], [7, 8], ⟨by decide +kernel, by decide +kernel, by decide +kernel⟩, by decide +kernel⟩

theorem wit_accessesComplete_c4_2_2 : ∃ (off : Word) (len : BitVec 12) (write : Option (List Byte)) (s : State),
    s.Inv ∧ s.rd F.HIF_STATUS_LINK = 1 ∧ s.rd F.PWR_STATUS_DAY ≠ 0 ∧ s.rd (F.HIF_IW_CFG_EN (off.toNat / 2 ^ 28)) = 1 ∧ (s.rd (F.HIF_IW_CFG_IW_SPACE (off.toNat / 2 ^ 28))) = 0 ∧ write = none ∧ len ≠ 0 ∧ (s.rd (F.HIF_IW_BASE_HI_BASE (off.toNat / 2 ^ 28)) * 2 ^ 32 + s.rd (F.HIF_IW_BASE_LO_BASE (off.toNat / 2 ^ 28)) * 65536 + off.toNat % 2 ^ 28) + len.toNat ≤ 2 ^ 40 :=
  ⟨0xF000FFFE, 2, none, put (day.setBytes 0x37FFFFE [1, 2]) [(F.HIF_IW_CFG_EN 15, 1), (F.HIF_IW_BASE_LO_BASE 15, 0x37F)], ⟨by decide +kernel, by decide +kernel, by decide +kernel⟩, by decide +kernel⟩

theorem wit_accessesComplete_c4_3 : ∃ (off : Word) (len : BitVec 12) (write : Option (List Byte)) (s : State),
    s.Inv ∧ s.rd F.HIF_STATUS_LINK = 1 ∧ s.rd F.PWR_STATUS_DAY ≠ 0 ∧ s.rd (F.HIF_IW_CFG_EN (off.toNat / 2 ^ 28)) = 0 ∧ write = none ∧ len ≠ 0 :=
  ⟨0xF000FFFE, 2, none, day.wr F.HIF_IW_ERR_COUNT 0xFFFFFFFF, ⟨by decide +kernel, by decide +kernel, by decide +kernel⟩, by decide +kernel⟩

theorem wit_hostChannelsComplete_c1_1 : ∃ (src : Agent) (c : Fin 32) (val : Word) (s : State),
    s.Passes src (F.HIF_CH_DB_COUNT c) ∧ (s.chan c).node.isSome = true ∧ (s.chan c).out = true ∧ ((F.HIF_CH_DB_COUNT c).of val) ≤ (s.chan c).outstanding :=
  ⟨.phobos, 31, mk [(F.HIF_CH_DB_COUNT 31, 2)], { day with hif := { chans := [(31, { node := some 8, out := true, slots := 4, outstanding := 2 })] } }, by unfold State.Passes; decide +kernel⟩

theorem wit_hostChannelsComplete_c1_2 : ∃ (src : Agent) (c : Fin 32) (val : Word) (s : State),
    s.Passes src (F.HIF_CH_DB_COUNT c) ∧ (s.chan c).node.isSome = true ∧ (s.chan c).out = false ∧ ((F.HIF_CH_DB_COUNT c).of val) ≤ (s.chan c).slots - (s.chan c).outstanding :=
  ⟨.host, 31, mk [(F.HIF_CH_DB_COUNT 31, 2)], { day with hif := { chans := [(31, { node := some 8, out := false, slots := 4, outstanding := 2 })] } }, by unfold State.Passes; decide +kernel⟩

theorem wit_hostChannelsComplete_c2 : ∃ (c : Fin 32) (i : Nat) (e : RingEntry) (s : State) (u : State) (w : State),
    s.chanRuns c = true ∧ (s.chan c).out = true ∧ s.nextTile (s.chan c).qid = (some (i, e), u) ∧ (s.chan c).outstanding < (s.chan c).slots ∧ u.unitStop 0 (u.slotVia (s.chan c).qid e.addr) 32 false = none ∧ ((u.maybeSwitch ((s.chan c).node.getD 0) (u.tileVia (u.slotVia (s.chan c).qid e.addr) e.len16).hdr.fs).move (some (u.slotVia (s.chan c).qid e.addr)) (fun _ => 0) [((s.chan c).space, (s.chan c).base + ((s.chan c).delivered % (s.chan c).slots) * (s.chan c).stride)] (32 + (u.tileVia (u.slotVia (s.chan c).qid e.addr) e.len16).payload.length) (s.chan c).off = (none, w)) ∧ w.unitStop 0 ((s.chan c).space, (s.chan c).cplBase + 16 * ((s.chan c).delivered % (s.chan c).slots)) 16 true = none :=
  ⟨31, 0, { addr := 0x3000, eflags := 1, len16 := 1, seq := 4 }, feed { oneNode { id := 8, kind := 10, inPorts := 1 } 0 with hif := { bme := true, chans := [(31, { node := some 8, out := true, qid := 5, slots := 4, outstanding := 3, delivered := 7, base := 0x10000, stride := 4096, cplBase := 0x20000 })] } } 1 goodTile, (feed { oneNode { id := 8, kind := 10, inPorts := 1 } 0 with hif := { bme := true, chans := [(31, { node := some 8, out := true, qid := 5, slots := 4, outstanding := 3, delivered := 7, base := 0x10000, stride := 4096, cplBase := 0x20000 })] } } 1 goodTile), (State.move (feed { oneNode { id := 8, kind := 10, inPorts := 1 } 0 with hif := { bme := true, chans := [(31, { node := some 8, out := true, qid := 5, slots := 4, outstanding := 3, delivered := 7, base := 0x10000, stride := 4096, cplBase := 0x20000 })] } } 1 goodTile) (some (0, 0x3000)) (fun _ => 0) [(0, 0x10000 + 3 * 4096)] 48 0).2, by decide +kernel⟩

theorem wit_hostChannelsComplete_c3 : ∃ (c : Fin 32) (id : Nat) (s : State) (w : State),
    s.chanRuns c = true ∧ (s.chan c).out = false ∧ (s.chan c).outstanding ≠ 0 ∧ (s.chan c).node = some id ∧ ((s.chan c).ents ≠ [] ∨ s.roomOn (s.portQueues id 0) 1 = true) ∧ (s.hostInReserve c (s.portQueues id 0)).unitStop 0 (((s.hostInReserve c (s.portQueues id 0)).chan c).space, (((s.hostInReserve c (s.portQueues id 0)).chan c).base + 16 * (((s.hostInReserve c (s.portQueues id 0)).chan c).returned % max 1 ((s.hostInReserve c (s.portQueues id 0)).chan c).slots))) 16 false = none ∧ (s.hostInReserve c (s.portQueues id 0)).unitStop 0 (((s.hostInReserve c (s.portQueues id 0)).chan c).space, (le ((s.hostInReserve c (s.portQueues id 0)).vread ((s.hostInReserve c (s.portQueues id 0)).chan c).space (((s.hostInReserve c (s.portQueues id 0)).chan c).base + 16 * (((s.hostInReserve c (s.portQueues id 0)).chan c).returned % max 1 ((s.hostInReserve c (s.portQueues id 0)).chan c).slots)) 8) % 2 ^ 48)) 32 false = none ∧ (hdrOf ((s.hostInReserve c (s.portQueues id 0)).vread ((s.hostInReserve c (s.portQueues id 0)).chan c).space (le ((s.hostInReserve c (s.portQueues id 0)).vread ((s.hostInReserve c (s.portQueues id 0)).chan c).space (((s.hostInReserve c (s.portQueues id 0)).chan c).base + 16 * (((s.hostInReserve c (s.portQueues id 0)).chan c).returned % max 1 ((s.hostInReserve c (s.portQueues id 0)).chan c).slots)) 8) % 2 ^ 48) 32)).valid = true ∧ (((s.hostInReserve c (s.portQueues id 0)).image.outEdges id 0).any (fun e => e.stream != (hdrOf ((s.hostInReserve c (s.portQueues id 0)).vread ((s.hostInReserve c (s.portQueues id 0)).chan c).space (le ((s.hostInReserve c (s.portQueues id 0)).vread ((s.hostInReserve c (s.portQueues id 0)).chan c).space (((s.hostInReserve c (s.portQueues id 0)).chan c).base + 16 * (((s.hostInReserve c (s.portQueues id 0)).chan c).returned % max 1 ((s.hostInReserve c (s.portQueues id 0)).chan c).slots)) 8) % 2 ^ 48) 32)).stream || e.format != (hdrOf ((s.hostInReserve c (s.portQueues id 0)).vread ((s.hostInReserve c (s.portQueues id 0)).chan c).space (le ((s.hostInReserve c (s.portQueues id 0)).vread ((s.hostInReserve c (s.portQueues id 0)).chan c).space (((s.hostInReserve c (s.portQueues id 0)).chan c).base + 16 * (((s.hostInReserve c (s.portQueues id 0)).chan c).returned % max 1 ((s.hostInReserve c (s.portQueues id 0)).chan c).slots)) 8) % 2 ^ 48) 32)).format) = false) ∧ (((s.hostInReserve c (s.portQueues id 0)).maybeSwitch id (hdrOf ((s.hostInReserve c (s.portQueues id 0)).vread ((s.hostInReserve c (s.portQueues id 0)).chan c).space (le ((s.hostInReserve c (s.portQueues id 0)).vread ((s.hostInReserve c (s.portQueues id 0)).chan c).space (((s.hostInReserve c (s.portQueues id 0)).chan c).base + 16 * (((s.hostInReserve c (s.portQueues id 0)).chan c).returned % max 1 ((s.hostInReserve c (s.portQueues id 0)).chan c).slots)) 8) % 2 ^ 48) 32)).fs).move (some (((s.hostInReserve c (s.portQueues id 0)).chan c).space, (le ((s.hostInReserve c (s.portQueues id 0)).vread ((s.hostInReserve c (s.portQueues id 0)).chan c).space (((s.hostInReserve c (s.portQueues id 0)).chan c).base + 16 * (((s.hostInReserve c (s.portQueues id 0)).chan c).returned % max 1 ((s.hostInReserve c (s.portQueues id 0)).chan c).slots)) 8) % 2 ^ 48))) (fun _ => 0) (((s.hostInReserve c (s.portQueues id 0)).chan c).ents.map fun e => ((s.hostInReserve c (s.portQueues id 0)).maybeSwitch id (hdrOf ((s.hostInReserve c (s.portQueues id 0)).vread ((s.hostInReserve c (s.portQueues id 0)).chan c).space (le ((s.hostInReserve c (s.portQueues id 0)).vread ((s.hostInReserve c (s.portQueues id 0)).chan c).space (((s.hostInReserve c (s.portQueues id 0)).chan c).base + 16 * (((s.hostInReserve c (s.portQueues id 0)).chan c).returned % max 1 ((s.hostInReserve c (s.portQueues id 0)).chan c).slots)) 8) % 2 ^ 48) 32)).fs).slotVia e.1 ((((s.hostInReserve c (s.portQueues id 0)).maybeSwitch id (hdrOf ((s.hostInReserve c (s.portQueues id 0)).vread ((s.hostInReserve c (s.portQueues id 0)).chan c).space (le ((s.hostInReserve c (s.portQueues id 0)).vread ((s.hostInReserve c (s.portQueues id 0)).chan c).space (((s.hostInReserve c (s.portQueues id 0)).chan c).base + 16 * (((s.hostInReserve c (s.portQueues id 0)).chan c).returned % max 1 ((s.hostInReserve c (s.portQueues id 0)).chan c).slots)) 8) % 2 ^ 48) 32)).fs).queue e.1).slotAddr e.2)) (32 + 16 * (hdrOf ((s.hostInReserve c (s.portQueues id 0)).vread ((s.hostInReserve c (s.portQueues id 0)).chan c).space (le ((s.hostInReserve c (s.portQueues id 0)).vread ((s.hostInReserve c (s.portQueues id 0)).chan c).space (((s.hostInReserve c (s.portQueues id 0)).chan c).base + 16 * (((s.hostInReserve c (s.portQueues id 0)).chan c).returned % max 1 ((s.hostInReserve c (s.portQueues id 0)).chan c).slots)) 8) % 2 ^ 48) 32)).len16) ((s.hostInReserve c (s.portQueues id 0)).chan c).off = (none, w)) :=
  ⟨31, 8, (((({ day with str := { active := some { nodes := [{ id := 8, kind := 10, outPorts := 1, stream := 3 }], edges := [{ qid := 6, prod := 8, cons := 9, stream := 0, format := 0x0500, entries := 4 }] } }, hif := { bme := true, chans := [(31, { node := some 8, slots := 4, outstanding := 1, returned := 4, base := 0x10000 })] } }).setQueue 6 { state := qEnabled, base := 0x8000, entries := 4, stride := 3 }).setBytes 0x10000 (leBytes 8 0x3000)).setBytes 0x3000 goodTile.bytes), (State.move (State.hostInReserve ((((({ day with str := { active := some { nodes := [{ id := 8, kind := 10, outPorts := 1, stream := 3 }], edges := [{ qid := 6, prod := 8, cons := 9, stream := 0, format := 0x0500, entries := 4 }] } }, hif := { bme := true, chans := [(31, { node := some 8, slots := 4, outstanding := 1, returned := 4, base := 0x10000 })] } }).setQueue 6 { state := qEnabled, base := 0x8000, entries := 4, stride := 3 }).setBytes 0x10000 (leBytes 8 0x3000)).setBytes 0x3000 goodTile.bytes)) 31 [6]) (some (0, 0x3000)) (fun _ => 0) [(0, 0x9000)] 48 0).2, by decide +kernel⟩

theorem wit_peripheralsComplete_c1_1 : ∃ (src : Agent) (val : Word) (resp : List Byte) (s : State),
    s.Passes src F.HIF_XSPI_CMD_GO ∧ s.hif.xspiRun = none ∧ s.rd F.UPD_STATUS_STATE = 0 ∧ F.HIF_XSPI_CMD_WRITE.of val = 1 :=
  ⟨.phobos, mk [(F.HIF_XSPI_CMD_GO, 1), (F.HIF_XSPI_CMD_WRITE, 1)], [], put { day with hif := { xspiFifo := [1, 2, 3] } } [(F.HIF_XSPI_LEN_LEN, 2), (F.HIF_XSPI_ADDR_ADDR, 0x1000)], by unfold State.Passes; decide +kernel⟩

theorem wit_peripheralsComplete_c1_2 : ∃ (src : Agent) (val : Word) (resp : List Byte) (s : State),
    s.Passes src F.HIF_XSPI_CMD_GO ∧ s.hif.xspiRun = none ∧ s.rd F.UPD_STATUS_STATE = 0 ∧ F.HIF_XSPI_CMD_WRITE.of val = 0 :=
  ⟨.phobos, mk [(F.HIF_XSPI_CMD_GO, 1)], [9, 8], put { day with hif := { xspiFifo := [1, 2, 3] } } [(F.HIF_XSPI_LEN_LEN, 100)], by unfold State.Passes; decide +kernel⟩

theorem wit_peripheralsComplete_c3_1 : ∃ (u : Fin 4) (b : Byte) (s : State),
    ((KMap.get (fun _ => []) s.hif.uartRx u).length < 64) :=
  ⟨3, 7, { day with hif := { uartRx := [(3, List.replicate 63 1)] } }, by decide +kernel⟩

theorem wit_peripheralsComplete_c3_2 : ∃ (u : Fin 4) (b : Byte) (s : State),
    (64 ≤ (KMap.get (fun _ => []) s.hif.uartRx u).length) :=
  ⟨3, 7, { day with hif := { uartRx := [(3, List.replicate 64 1)] } }, by decide +kernel⟩

theorem wit_peripheralsComplete_c4 : ∃ (pin : Fin 32) (level : Bool) (s : State),
    (s.rd (⟨F.GPIO_IN_V.off, pin, 1⟩) ≠ (if level then 1 else 0)) :=
  ⟨31, true, day.wr ⟨(F.GPIO_IRQ_EDGE_V 1).off, 30, 2⟩ 3, by decide +kernel⟩

theorem wit_peripheralsComplete_c4b : ∃ (pin : Fin 32) (level : Bool) (s : State),
    (s.rd (⟨F.GPIO_IN_V.off, pin, 1⟩) ≠ (if level then 1 else 0)) :=
  ⟨0, true, day.wr ⟨(F.GPIO_IRQ_EDGE_V 0).off, 0, 2⟩ 2, by decide +kernel⟩

theorem wit_ownershipCommandsComplete_c1_1 : ∃ (src : Agent) (u : Fin 2) (s : State) (both : Bool),
    s.Inv ∧ agentUnit src = some u.val ∧ s.rd F.PWR_STATUS_DAY ≠ 0 ∧ s.rd F.CUX_OWNER_OWNER = 0 ∧ s.cux.gap = none ∧ (s.ustate u = 1 ∨ s.ustate u = 2) ∧ (both = false ∨ s.rd F.CUX_OWNER_PREF = u) :=
  ⟨.deimos, 1, lapsed, false, ⟨by decide +kernel, by decide +kernel, by decide +kernel⟩, by decide +kernel⟩

theorem wit_ownershipCommandsComplete_c1_2 : ∃ (src : Agent) (u : Fin 2) (s : State) (both : Bool),
    s.Inv ∧ agentUnit src = some u.val ∧ s.rd F.PWR_STATUS_DAY ≠ 0 ∧ s.rd F.CUX_OWNER_OWNER = 0 ∧ s.cux.gap = none ∧ (s.ustate u = 1 ∨ s.ustate u = 2) ∧ both = true ∧ s.rd F.CUX_OWNER_PREF ≠ u ∧ (s.ustate (peer u) = 1 ∨ s.ustate (peer u) = 2) :=
  ⟨.deimos, 1, lapsed, true, ⟨by decide +kernel, by decide +kernel, by decide +kernel⟩, by decide +kernel⟩

theorem wit_ownershipCommandsComplete_c2 : ∃ (src : Agent) (u : Fin 2) (s : State),
    s.Inv ∧ agentUnit src = some u.val ∧ s.rd F.PWR_STATUS_DAY ≠ 0 ∧ s.owner = some (peer u) ∧ s.cux.gap = none ∧ (s.ustate u = 1 ∨ s.ustate u = 2) ∧ s.pathUp u = false :=
  ⟨.deimos, 1, put pair [(F.CUX_U_STATE_PATH_L 1, 0), (F.CUX_U_STATE_PATH_K 1, 0)], ⟨by decide +kernel, by decide +kernel, by decide +kernel⟩, by decide +kernel⟩

theorem wit_ownershipCommandsComplete_c3 : ∃ (src : Agent) (u : Fin 2) (s : State),
    s.Inv ∧ agentUnit src = some u.val ∧ s.rd F.PWR_STATUS_DAY ≠ 0 ∧ s.owner = some u.val ∧ s.ustate u ≠ 0 ∧ s.switchBusy = false ∧ s.fit (peer u) = true ∧ (KMap.wf (fun _ => {}) s.cux.units = true) :=
  ⟨.phobos, 0, pair, ⟨by decide +kernel, by decide +kernel, by decide +kernel⟩, by decide +kernel⟩

theorem wit_ownershipCommandsComplete_c4 : ∃ (src : Agent) (u : Fin 2) (s : State),
    s.Inv ∧ agentUnit src = some u.val ∧ s.rd F.PWR_STATUS_DAY ≠ 0 ∧ s.cux.drill = some u.val ∧ s.cux.gap = none ∧ s.fit u = true ∧ s.owner = some (peer u) ∧ (KMap.wf (fun _ => {}) s.cux.units = true) :=
  ⟨.deimos, 1, { pair with cux := { units := [(0, { portOpen := true })], drill := some 1 } }, ⟨by decide +kernel, by decide +kernel, by decide +kernel⟩, by decide +kernel⟩

theorem wit_ownershipCommandsComplete_c5 : ∃ (src : Agent) (u : Fin 2) (s : State),
    s.Inv ∧ agentUnit src = some u.val ∧ s.rd F.PWR_STATUS_DAY ≠ 0 ∧ s.ustate u = 1 ∧ s.pathUp u = true ∧ (s.unit u).lost = false :=
  ⟨.deimos, 1, put pair [(F.CUX_U_STATE_STATE 1, 1), (F.CUX_U_STATE_SYNCED 1, 0)], ⟨by decide +kernel, by decide +kernel, by decide +kernel⟩, by decide +kernel⟩

theorem wit_ownershipCommandsComplete_c6 : ∃ (src : Agent) (u : Fin 2) (s : State),
    s.Inv ∧ agentUnit src = some u.val ∧ s.rd F.PWR_STATUS_DAY ≠ 0 ∧ (s.ustate u = 1 ∨ s.ustate u = 2 ∨ s.ustate u = 3) ∧ s.owner ≠ some u.val ∧ s.cux.gap = none :=
  ⟨.deimos, 1, pair, ⟨by decide +kernel, by decide +kernel, by decide +kernel⟩, by decide +kernel⟩

theorem wit_ownershipCommandsComplete_c7 : ∃ (src : Agent) (u : Fin 2) (s : State),
    s.Inv ∧ agentUnit src = some u.val ∧ s.rd F.PWR_STATUS_DAY ≠ 0 ∧ s.ustate u = 4 ∧ (s.unit u).causeHolds = false :=
  ⟨.deimos, 1, put pair [(F.CUX_U_STATE_STATE 1, 4), (F.CUX_U_STATE_FAULT_CAUSE 1, 4)], ⟨by decide +kernel, by decide +kernel, by decide +kernel⟩, by decide +kernel⟩

theorem wit_ownershipCommandsComplete_c8 : ∃ (src : Agent) (u : Fin 2) (s : State) (val : Word),
    s.Inv ∧ agentUnit src = some u.val ∧ s.rd F.PWR_STATUS_DAY ≠ 0 ∧ s.ustate u ≠ 0 :=
  ⟨.deimos, 1, { pair with ref := 50 }, 0, ⟨by decide +kernel, by decide +kernel, by decide +kernel⟩, by decide +kernel⟩

theorem wit_unitEventsComplete_c1 : ∃ (u : Fin 2) (s : State) (src : Agent) (val : Word),
    s.Inv ∧ agentUnit src = some u.val ∧ s.rd F.PWR_STATUS_DAY ≠ 0 ∧ s.ustate u ≠ 0 ∧ s.owner = some u.val ∧ 16 ≤ ((F.CUX_U_JTX_DB_LEN u).of val) ∧ ((F.CUX_U_JTX_DB_LEN u).of val) ≤ 4096 ∧ ((F.CUX_U_JTX_DB_LEN u).of val) % 16 = 0 ∧ ((s.rd (F.CUX_U_JTX_PTR_TAIL u)) + 4096 - (s.rd (F.CUX_U_JTX_PTR_HEAD u))) % 4096 + ((F.CUX_U_JTX_DB_LEN u).of val) / 16 < 4096 :=
  ⟨0, put pair [(F.CUX_U_JTX_PTR_HEAD 0, 4095), (F.CUX_U_JTX_PTR_TAIL 0, 4095), (F.CUX_SYNC_SEQ_SEQ, 0xFFFFFFFF)], .phobos, mk [(F.CUX_U_JTX_DB_LEN 0, 4096)], ⟨by decide +kernel, by decide +kernel, by decide +kernel⟩, by decide +kernel⟩

theorem wit_unitEventsComplete_c2_1 : ∃ (u : Fin 2) (s : State) (cause : Fin 3),
    s.Inv ∧ (s.ustate u = 1 ∨ s.ustate u = 2 ∨ s.ustate u = 3) ∧ (cause ≠ 0 ∨ s.watchdogRuns u = true) ∧ s.cux.gap = none ∧ s.owner ≠ some u.val :=
  ⟨1, pair.wr (F.CUX_U_WDOG_WDOG_US 1) 100, 0, ⟨by decide +kernel, by decide +kernel, by decide +kernel⟩, by decide +kernel⟩

theorem wit_unitEventsComplete_c2_2 : ∃ (u : Fin 2) (s : State) (cause : Fin 3),
    s.Inv ∧ (s.ustate u = 1 ∨ s.ustate u = 2 ∨ s.ustate u = 3) ∧ (cause ≠ 0 ∨ s.watchdogRuns u = true) ∧ s.cux.gap = none ∧ s.owner = some u.val ∧ s.ustate (peer u) = 2 :=
  ⟨0, pair, 2, ⟨by decide +kernel, by decide +kernel, by decide +kernel⟩, by decide +kernel⟩

theorem wit_unitEventsComplete_c2_3 : ∃ (u : Fin 2) (s : State) (cause : Fin 3),
    s.Inv ∧ (s.ustate u = 1 ∨ s.ustate u = 2 ∨ s.ustate u = 3) ∧ (cause ≠ 0 ∨ s.watchdogRuns u = true) ∧ s.cux.gap = none ∧ s.owner = some u.val ∧ s.ustate (peer u) ≠ 2 :=
  ⟨0, day, 1, ⟨by decide +kernel, by decide +kernel, by decide +kernel⟩, by decide +kernel⟩

theorem wit_unitEventsComplete_c3 : ∃ (u : Fin 2) (s : State) (k : Bool),
    s.Inv ∧ s.ustate u ≠ 0 ∧ s.ustate (peer u) ≠ 0 ∧ s.rd (pathFld u k) = 0 :=
  ⟨1, put pair [(F.CUX_U_STATE_PATH_L 1, 0), (F.CUX_U_STATE_PATH_K 1, 0), (F.CUX_U_STATE_SYNCED 1, 0)], true, ⟨by decide +kernel, by decide +kernel, by decide +kernel⟩, by decide +kernel⟩

theorem wit_unitEventsComplete_c4 : ∃ (u : Fin 2) (s : State) (k : Bool),
    s.Inv ∧ s.rd (pathFld u k) = 1 :=
  ⟨1, put pair [(F.CUX_U_STATE_PATH_L 1, 0)], true, ⟨by decide +kernel, by decide +kernel, by decide +kernel⟩, by decide +kernel⟩

theorem wit_unitEventsComplete_c4b : ∃ (u : Fin 2) (s : State) (k : Bool),
    s.Inv ∧ s.rd (pathFld u k) = 1 :=
  ⟨1, pair, false, ⟨by decide +kernel, by decide +kernel, by decide +kernel⟩, by decide +kernel⟩

theorem wit_unitEventsComplete_c5 : ∃ (u : Fin 2) (s : State),
    s.Inv ∧ s.rd F.CUX_OWNER_PREF = u ∧ s.rd F.CUX_CFG_AUTO_RETURN = 1 ∧ s.fit u = true ∧ s.owner = some (peer u) ∧ s.pathUp u = true ∧ s.cux.drill = none ∧ s.cux.gap = none :=
  ⟨1, pair.wr F.CUX_OWNER_PREF 1, ⟨by decide +kernel, by decide +kernel, by decide +kernel⟩, by decide +kernel⟩

theorem wit_unitEventsComplete_c6 : ∃ (u : Fin 2) (s : State),
    s.Inv ∧ s.cux.drill = some u.val ∧ s.cux.gap = none ∧ s.fit u = false :=
  ⟨1, { put pair [(F.CUX_U_STATE_SYNCED 1, 0), (F.CUX_U_STATE_DRILL 1, 1)] with cux := { units := [(0, { portOpen := true })], drill := some 1 } }, ⟨by decide +kernel, by decide +kernel, by decide +kernel⟩, by decide +kernel⟩

theorem wit_switchOverComplete_c1 : ∃ (src : Agent) (off : BitVec 24) (val : Word) (s : State),
    s.Inv ∧ isDoorbell off.toNat = true ∧ s.gate src off.toNat = .hold ∧ s.cux.held.length < 256 :=
  ⟨.phobos, BitVec.ofNat 24 F.HQ_DB_PUSH_QID.off, 0x10005, { pair with cux := { pair.cux with gap := some { kind := 2, outgoing := some 0, incoming := 1 }, held := List.replicate 255 {} } }, ⟨by decide +kernel, by decide +kernel, by decide +kernel⟩, by decide +kernel⟩

theorem wit_switchOverComplete_c2 : ∃ (cycles : BitVec 16) (g : Gap) (s : State),
    s.Inv ∧ s.cux.gap = some g ∧ g.incoming < 2 ∧ 1 ≤ g.kind ∧ g.kind ≤ 7 ∧ g.outgoing ≠ some g.incoming ∧ ((∀ o, g.outgoing = some o → o < 2)) :=
  ⟨300, { kind := 2, outgoing := some 0, incoming := 1 }, { pair with cux := { pair.cux with gap := some { kind := 2, outgoing := some 0, incoming := 1 } } }.wr F.CUX_OWNER_GAP 1, ⟨by decide +kernel, by decide +kernel, by decide +kernel⟩, by decide +kernel⟩

theorem wit_switchOverComplete_c2b : ∃ (cycles : BitVec 16) (g : Gap) (s : State),
    s.Inv ∧ s.cux.gap = some g ∧ g.incoming < 2 ∧ 1 ≤ g.kind ∧ g.kind ≤ 7 ∧ g.outgoing ≠ some g.incoming ∧ ((∀ o, g.outgoing = some o → o < 2)) :=
  ⟨255, { kind := 4, outgoing := some 0, incoming := 1 }, { pair with cux := { pair.cux with gap := some { kind := 4, outgoing := some 0, incoming := 1 } } }.wr F.CUX_OWNER_GAP 1, ⟨by decide +kernel, by decide +kernel, by decide +kernel⟩, by decide +kernel⟩

theorem wit_switchOverComplete_c3 : ∃ (cycles : BitVec 16) (o : Nat) (start : Nat) (s : State),
    s.Inv ∧ s.cux.double = some (o, start) ∧ o < 2 ∧ (KMap.wf (fun _ => {}) s.cux.units = true) :=
  ⟨5000, 0, 3, { put pair [(F.CUX_OWNER_OWNER, 2), (F.CUX_U_STATE_STATE 1, 3), (F.CUX_OWNER_DOUBLE, 1)] with cux := { pair.cux with double := some (0, 3) } }, ⟨by decide +kernel, by decide +kernel, by decide +kernel⟩, by decide +kernel⟩

theorem wit_inputAndTemperatureComplete_c1 : ∃ (s : State) (mv : BitVec 16) (ma : BitVec 16) (temps : Option (List Int)),
    s.Inv ∧ s.rd F.PWR_STATUS_DAY ≠ 0 ∧ s.telemetryHeld = false :=
  ⟨put { day with pwr := { cold := false, samples := List.replicate 100 (6500, 1000) } } [(F.PWR_STATUS_LOWIN, 1), (F.PWR_STATUS_LOWIN_1S, 1), (F.PWR_VIN_VIN_MIN, 6400)], 6500, 1000, some [10, 20, -30, 40], ⟨by decide +kernel, by decide +kernel, by decide +kernel⟩, by decide +kernel⟩

theorem wit_inputAndTemperatureComplete_c1b : ∃ (s : State) (mv : BitVec 16) (ma : BitVec 16) (temps : Option (List Int)),
    s.Inv ∧ s.rd F.PWR_STATUS_DAY ≠ 0 ∧ s.telemetryHeld = false :=
  ⟨day, 0xFFFF, 0xFFFF, none, ⟨by decide +kernel, by decide +kernel, by decide +kernel⟩, by decide +kernel⟩

theorem wit_inputAndTemperatureComplete_c2 : ∃ (s : State),
    s.Inv ∧ s.rd F.PWR_STATUS_DAY ≠ 0 ∧ s.rd F.PWR_STATUS_LOWIN = 0 ∧ s.rd F.PWR_VIN_VIN < s.rd F.PWR_LOWIN_THRESH_MV :=
  ⟨day.wr F.PWR_VIN_VIN 5999, ⟨by decide +kernel, by decide +kernel, by decide +kernel⟩, by decide +kernel⟩

theorem wit_inputAndTemperatureComplete_c3 : ∃ (s : State),
    s.Inv ∧ s.rd F.PWR_STATUS_LOWIN = 1 :=
  ⟨day.wr F.PWR_STATUS_LOWIN 1, ⟨by decide +kernel, by decide +kernel, by decide +kernel⟩, by decide +kernel⟩

theorem wit_inputAndTemperatureComplete_c4 : ∃ (s : State) (d : Fin 4),
    s.Inv ∧ s.rd F.PWR_STATUS_DAY ≠ 0 ∧ s.pwr.warned.contains d.val = false ∧ signed 16 (s.rd F.PWR_TEMP_WARN_TEMP) < s.pwr.temps.getD d 0 :=
  ⟨{ day with pwr := { temps := [0, 0, 0, 0x06E1] } }, 3, ⟨by decide +kernel, by decide +kernel, by decide +kernel⟩, by decide +kernel⟩

theorem wit_inputAndTemperatureComplete_c5 : ∃ (s : State) (d : Fin 4) (temp : Int),
    s.Inv ∧ s.rd F.PWR_STATUS_DAY ≠ 0 ∧ 2000 < temp :=
  ⟨put { pair with hq := { frames := [(1, 1)] } } [(F.PWR_LOWIN_THRESH_MV, 6500), (F.PWR_WAKE_VIN_MV, 7100), (F.CUX_SWITCH_COUNT_COUNT, 4)], 3, 2001, ⟨by decide +kernel, by decide +kernel, by decide +kernel⟩, by decide +kernel⟩

theorem wit_duskAndWakeComplete_c1 : ∃ (s : State) (src : Agent) (val : Word),
    s.Inv ∧ s.Passes src F.PWR_CTRL_SLEEP ∧ s.rd F.PWR_STATUS_DAY = 2 ∧ s.updHolds = false ∧ (s.dayBusy = false ∨ (F.PWR_CTRL_FORCE.of val = 1 ∧ s.take ≠ 1 ∧ s.take ≠ 2)) :=
  ⟨put day [(F.MAG_STATUS_TAKE_STATE, 3), (F.UPD_STATUS_STATE, 2)], .phobos, mk [(F.PWR_CTRL_SLEEP, 1), (F.PWR_CTRL_FORCE, 1)], ⟨by decide +kernel, by decide +kernel, by decide +kernel⟩, by unfold State.Passes; decide +kernel⟩

theorem wit_duskAndWakeComplete_c2 : ∃ (s : State),
    s.Inv ∧ s.pwr.dusk = 1 ∧ s.take = 0 :=
  ⟨put { day with pwr := { dusk := 1 } } [(F.PWR_STATUS_DAY, 3), (F.ENC_S_CTRL_EN 31, 1), (F.NET_P_CTRL_EN 7, 1), (F.NET_P_CTRL_MAX_FRAME 7, 9600), (F.CMP_H_CTRL_EN 3, 1), (F.SDI_S_CFG_EN 3, 1), (F.AUD_P_CTRL_EN 3, 1), (F.MAG_P_CTRL_EN 0, 1), (F.SLK_G_CFG_EN 3, 1)], ⟨by decide +kernel, by decide +kernel, by decide +kernel⟩, by decide +kernel⟩

theorem wit_duskAndWakeComplete_c3 : ∃ (s : State),
    s.Inv ∧ s.pwr.dusk = 2 ∧ s.shutDown = true :=
  ⟨put { day with pwr := { dusk := 2 } } [(F.PWR_STATUS_DAY, 3)], ⟨by decide +kernel, by decide +kernel, by decide +kernel⟩, by decide +kernel⟩

theorem wit_duskAndWakeComplete_c4 : ∃ (s : State),
    s.Inv ∧ s.pwr.dusk = 3 ∧ s.taskList = [] :=
  ⟨put { day with pwr := { dusk := 3 } } [(F.PWR_STATUS_DAY, 3), (F.PWR_ISL_STATE 20, 2), (F.PWR_ISL_STATE 31, 2), (F.PWR_ISL_STATE 3, 1)], ⟨by decide +kernel, by decide +kernel, by decide +kernel⟩, by decide +kernel⟩

theorem wit_duskAndWakeComplete_c5 : ∃ (s : State),
    s.Inv ∧ s.pwr.dusk = 4 ∧ ((∀ i < 32, isIsland i = true → s.island i = 0)) :=
  ⟨put { pair with pwr := { dusk := 4 }, ref := 10 } [(F.PWR_STATUS_DAY, 3)], ⟨by decide +kernel, by decide +kernel, by decide +kernel⟩, by decide +kernel⟩

theorem wit_duskAndWakeComplete_c6 : ∃ (s : State),
    s.Inv ∧ s.pwr.dusk = 5 :=
  ⟨put { (day.setBytes 0x100000000 [1]).setBytes 0x10 [2] with pwr := { dusk := 5 } } [(F.PWR_STATUS_DAY, 3)], ⟨by decide +kernel, by decide +kernel, by decide +kernel⟩, by decide +kernel⟩

theorem wit_duskAndWakeComplete_c7 : ∃ (s : State),
    s.Inv ∧ s.pwr.dusk = 6 ∧ s.pwr.latched = none :=
  ⟨put { day with pwr := { dusk := 6, cold := false }, ptp := { duskT := 9, dawnRef := 4 } } [(F.PWR_STATUS_DAY, 3), (F.PWR_WAKE_VIN_MV, 7100)], ⟨by decide +kernel, by decide +kernel, by decide +kernel⟩, by decide +kernel⟩

theorem wit_duskAndWakeComplete_c8_1 : ∃ (s : State) (tick : WakeTick) (src : Nat),
    s.Inv ∧ s.wakeOf tick = some src ∧ s.pwr.dusk ≠ 0 ∧ s.pwr.latched = none :=
  ⟨put { day with pwr := { dusk := 3, cold := false } } [(F.PWR_STATUS_DAY, 3)], { wakeN := true }, 1, ⟨by decide +kernel, by decide +kernel, by decide +kernel⟩, by decide +kernel⟩

theorem wit_duskAndWakeComplete_c8_2 : ∃ (s : State) (tick : WakeTick) (src : Nat),
    s.Inv ∧ s.wakeOf tick = some src ∧ s.pwr.dusk = 0 ∧ s.rd F.PWR_STATUS_DAY = 0 ∧ s.pwr.cold = false ∧ tick.temp < 1600 :=
  ⟨put { State.reset with pwr := { cold := false } } [(F.PWR_WAKE_CFG_INPUT_RISE_EN, 1)], { rise := some (6999, 7000), temp := 1599 }, 3, ⟨by decide +kernel, by decide +kernel, by decide +kernel⟩, by decide +kernel⟩

theorem wit_islandsAndClocksComplete_c1_1_1 : ∃ (i : Fin 32) (s : State),
    s.Inv ∧ isIsland i = true ∧ s.rd F.PWR_STATUS_DAY ≠ 0 ∧ s.demanded i = true ∧ s.underTest i = false ∧ s.pwr.dusk < 4 ∧ s.island i = 0 :=
  ⟨31, put day [(F.PWR_ISL_FORCE_AWAKE 31, 1), (F.PWR_ISL_WAKES_COUNT 31, 0xFFFFFFFF)], ⟨by decide +kernel, by decide +kernel, by decide +kernel⟩, by decide +kernel⟩

theorem wit_islandsAndClocksComplete_c1_1_2 : ∃ (i : Fin 32) (s : State),
    s.Inv ∧ isIsland i = true ∧ s.rd F.PWR_STATUS_DAY ≠ 0 ∧ s.demanded i = true ∧ s.underTest i = false ∧ s.pwr.dusk < 4 ∧ s.island i = 3 :=
  ⟨20, put day [(F.PWR_ISL_FORCE_AWAKE 20, 1), (F.PWR_ISL_STATE 20, 3)], ⟨by decide +kernel, by decide +kernel, by decide +kernel⟩, by decide +kernel⟩

theorem wit_islandsAndClocksComplete_c1_2 : ∃ (i : Fin 32) (s : State),
    s.Inv ∧ s.island i = 1 ∧ (KMap.wf (fun _ => none) s.sch.tasks = true) :=
  ⟨0, put { day with sch := { tasks := [(1, some { urgent with state := .waking }), (2, some { urgent with cluster := 3, state := .waking })] } } [(F.PWR_ISL_STATE 0, 1)], ⟨by decide +kernel, by decide +kernel, by decide +kernel⟩, by decide +kernel⟩

theorem wit_islandsAndClocksComplete_c1_3_1 : ∃ (i : Fin 32) (s : State),
    s.Inv ∧ s.island i = 2 ∧ s.islandIdle i = true ∧ s.underTest i = false ∧ max 1 (s.idleCount i) ≤ s.idleRun i :=
  ⟨20, put { day with pwr := { idle := [(20, 1)] } } [(F.PWR_ISL_STATE 20, 2)], ⟨by decide +kernel, by decide +kernel, by decide +kernel⟩, by decide +kernel⟩

theorem wit_islandsAndClocksComplete_c1_3_2 : ∃ (i : Fin 32) (s : State),
    s.Inv ∧ s.island i = 2 ∧ s.islandIdle i = true ∧ s.underTest i = false ∧ s.idleRun i < max 1 (s.idleCount i) :=
  ⟨20, put day [(F.PWR_ISL_STATE 20, 2)], ⟨by decide +kernel, by decide +kernel, by decide +kernel⟩, by decide +kernel⟩

theorem wit_islandsAndClocksComplete_c1_3_3 : ∃ (i : Fin 32) (s : State),
    s.Inv ∧ s.island i = 2 ∧ s.islandIdle i = true ∧ s.underTest i = false ∧ (KMap.wf (fun _ => 0) s.pwr.idle = true) ∧ isIsland i = true :=
  ⟨31, put { day with pwr := { idle := [(20, 1), (31, 6)] } } [(F.PWR_ISL_STATE 31, 2)], ⟨by decide +kernel, by decide +kernel, by decide +kernel⟩, by decide +kernel⟩

theorem wit_islandsAndClocksComplete_c1_4_1 : ∃ (i : Fin 32) (s : State),
    s.Inv ∧ s.island i = 3 ∧ s.rd (F.PWR_ISL_PENDING_ENABLE i) = 0 :=
  ⟨31, put day [(F.PWR_ISL_STATE 31, 3)], ⟨by decide +kernel, by decide +kernel, by decide +kernel⟩, by decide +kernel⟩

theorem wit_islandsAndClocksComplete_c1_4_2 : ∃ (i : Fin 32) (s : State),
    s.Inv ∧ s.island i = 3 ∧ s.rd (F.PWR_ISL_PENDING_ENABLE i) = 1 ∧ s.pwr.dusk < 4 :=
  ⟨31, put day [(F.PWR_ISL_STATE 31, 3), (F.PWR_ISL_PENDING_ENABLE 31, 1)], ⟨by decide +kernel, by decide +kernel, by decide +kernel⟩, by decide +kernel⟩

theorem wit_islandsAndClocksComplete_c1_5 : ∃ (i : Fin 32) (s : State) (src : Agent) (val : Word),
    s.Inv ∧ s.Passes src (F.PWR_ISL_FORCE_AWAKE i) ∧ isIsland i = true :=
  ⟨31, day, .phobos, mk [(F.PWR_ISL_FORCE_AWAKE 31, 1)], ⟨by decide +kernel, by decide +kernel, by decide +kernel⟩, by unfold State.Passes; decide +kernel⟩

theorem wit_islandsAndClocksComplete_c2_1 : ∃ (s : State) (src : Agent) (eclk : Bool) (val : Word),
    s.Inv ∧ (s.Passes src (if eclk then F.CLK_ECLK_SEL else F.CLK_FCLK_SEL)) ∧ s.rd (switchingFld eclk) = 0 ∧ (eclk = true ∨ s.layersFit (fclkSel (F.CLK_FCLK_SEL.of val)) = true) :=
  ⟨day, .phobos, false, mk [(F.CLK_FCLK_SEL, 3)], ⟨by decide +kernel, by decide +kernel, by decide +kernel⟩, by unfold State.Passes; decide +kernel⟩

theorem wit_islandsAndClocksComplete_c2_2 : ∃ (s : State) (e : Bool),
    s.Inv ∧ s.rd (switchingFld e) = 1 ∧ s.actRuns (.clk e) = true :=
  ⟨put { day with mnt := { acts := [{ act := .cal 0 }, { act := .clk true, running := true }] } } [(F.CLK_STATUS_ESWITCHING, 1), (F.CLK_ECLK_SEL, 2)], true, ⟨by decide +kernel, by decide +kernel, by decide +kernel⟩, by decide +kernel⟩

theorem wit_islandsAndClocksComplete_c2_3 : ∃ (s : State) (src : Agent) (u : Fin 2) (val : Word),
    s.Inv ∧ s.Passes src (F.CLK_CCLK_SEL u) ∧ s.rd F.CLK_STATUS_CSWITCHING = 0 :=
  ⟨day, .phobos, 1, mk [(F.CLK_CCLK_SEL 1, 1)], ⟨by decide +kernel, by decide +kernel, by decide +kernel⟩, by unfold State.Passes; decide +kernel⟩

theorem wit_islandsAndClocksComplete_c2_4 : ∃ (s : State),
    s.Inv ∧ s.rd F.CLK_STATUS_CSWITCHING = 1 :=
  ⟨{ day with pwr := { cold := false, relock := some 1 } }.wr F.CLK_STATUS_CSWITCHING 1, ⟨by decide +kernel, by decide +kernel, by decide +kernel⟩, by decide +kernel⟩

theorem wit_resetsComplete_c1 : ∃ (s : State) (us : Nat),
    s.Inv ∧ us < 10 :=
  ⟨day, 9, ⟨by decide +kernel, by decide +kernel, by decide +kernel⟩, by decide +kernel⟩

theorem wit_resetsComplete_c3 : ∃ (s : State) (vin : BitVec 16) (pref : Bool) (sel : Fin 4) (dev : BootDev),
    s.Inv ∧ s.pwr.cold = true ∧ 4400 < vin.toNat :=
  ⟨State.reset, 4401, true, 2, { octal := false, quad := true, size := 0x1000000, segs := [], qdrDead := 0 }, ⟨by decide +kernel, by decide +kernel, by decide +kernel⟩, by decide +kernel⟩

theorem wit_resetsComplete_c3b : ∃ (s : State) (vin : BitVec 16) (pref : Bool) (sel : Fin 4) (dev : BootDev),
    s.Inv ∧ s.pwr.cold = true ∧ 4400 < vin.toNat :=
  ⟨{ State.reset with ref := 7 }, 4401, false, 0, { octal := false, quad := true, size := 0x1000000, segs := [], qdrDead := 0 }, ⟨by decide +kernel, by decide +kernel, by decide +kernel⟩, by decide +kernel⟩

theorem wit_resetsComplete_c4 : ∃ (s : State) (src : Agent) (val : Word) (ticks : Nat),
    s.Inv ∧ s.Passes src F.KPR_CTRL_WARM_RESET ∧ F.KPR_CTRL_RESTART_UNIT.of val = 0 ∧ s.rd F.PWR_STATUS_DAY = 2 ∧ s.take = 0 ∧ (s.dayBusy = false ∨ F.KPR_CTRL_FORCE.of val = 1) ∧ s.updHolds = false :=
  ⟨put { pair with hif := { bme := true } } [(F.HIF_STATUS_HOST_RESET, 1), (F.MAG_STATUS_TAKE_STATE, 0), (F.ENC_S_CTRL_ON_AIR 4, 1), (F.PWR_LOWIN_THRESH_MV, 6500)], .phobos, mk [(F.KPR_CTRL_WARM_RESET, 1), (F.KPR_CTRL_FORCE, 1)], 3, ⟨by decide +kernel, by decide +kernel, by decide +kernel⟩, by unfold State.Passes; decide +kernel⟩

theorem wit_resetsComplete_c5 : ∃ (s : State) (src : Agent) (val : Word),
    s.Inv ∧ s.Passes src F.KPR_HOST_GO_GO ∧ s.boot.hostWait = true ∧ F.KPR_HOST_GO_GO.of val = 1 :=
  ⟨{ State.reset with boot := { hostWait := true, sel := 2 } } |> fun s => put s [(F.PWR_STATUS_DAY, 1), (F.HIF_STATUS_LINK, 1)], .host, mk [(F.KPR_HOST_GO_GO, 1)], ⟨by decide +kernel, by decide +kernel, by decide +kernel⟩, by unfold State.Passes; decide +kernel⟩

theorem wit_unitsComplete_c2 : ∃ (s : State) (u : Fin 2) (kind : Nat),
    s.Inv ∧ (KMap.wf (fun _ => {}) s.cux.units = true) ∧ (s.boot.release.find? (fun e => e.1 == u.val) = some (u.val, kind)) :=
  ⟨put { State.reset with boot := { hold := true, release := [(0, 0), (1, 0)] }, ref := 5 } [(F.PWR_STATUS_DAY, 1)], 1, 0, ⟨by decide +kernel, by decide +kernel, by decide +kernel⟩, by decide +kernel⟩

theorem wit_unitsComplete_c3_1 : ∃ (s : State) (u : Fin 2) (i : Nat) (rd : Fin 32) (rs1 : Fin 32) (rs2 : Fin 32) (imm : Int),
    s.Inv ∧ (KMap.wf (fun _ => {}) s.cux.units = true) ∧ i < (s.unit u).harts.length ∧ (s.hart u i).interrupt (s.hartEnv u i) = none ∧ (s.hart u i).csr 0x320 = 0 ∧ (s.hart u i).csr 0x180 = 0 ∧ (s.hart u i).mode = 3 ∧ (s.hart u i).mst 17 1 = 0 ∧ (s.hart u i).csr 0x3A0 = 0 ∧ (s.hart u i).csr 0x3A2 = 0 ∧ -2048 ≤ imm ∧ imm < 2048 ∧ s.hartFetch u (s.hart u i) = .word (mkI 0x13 0 rd rs1 imm) 4 :=
  ⟨coreAt (mkI 0x13 0 31 5 (-2048)), 0, 0, 31, 5, 0, -2048, ⟨by decide +kernel, by decide +kernel, by decide +kernel⟩, by decide +kernel⟩

theorem wit_unitsComplete_c3_1b : ∃ (s : State) (u : Fin 2) (i : Nat) (rd : Fin 32) (rs1 : Fin 32) (rs2 : Fin 32) (imm : Int),
    s.Inv ∧ (KMap.wf (fun _ => {}) s.cux.units = true) ∧ i < (s.unit u).harts.length ∧ (s.hart u i).interrupt (s.hartEnv u i) = none ∧ (s.hart u i).csr 0x320 = 0 ∧ (s.hart u i).csr 0x180 = 0 ∧ (s.hart u i).mode = 3 ∧ (s.hart u i).mst 17 1 = 0 ∧ (s.hart u i).csr 0x3A0 = 0 ∧ (s.hart u i).csr 0x3A2 = 0 ∧ -2048 ≤ imm ∧ imm < 2048 ∧ s.hartFetch u (s.hart u i) = .word (mkI 0x13 0 rd rs1 imm) 4 :=
  ⟨coreAt (mkI 0x13 0 0 0 2047), 0, 0, 0, 0, 0, 2047, ⟨by decide +kernel, by decide +kernel, by decide +kernel⟩, by decide +kernel⟩

theorem wit_unitsComplete_c3_2 : ∃ (s : State) (u : Fin 2) (i : Nat) (rd : Fin 32) (rs1 : Fin 32) (rs2 : Fin 32) (imm : Int),
    s.Inv ∧ (KMap.wf (fun _ => {}) s.cux.units = true) ∧ i < (s.unit u).harts.length ∧ (s.hart u i).interrupt (s.hartEnv u i) = none ∧ (s.hart u i).csr 0x320 = 0 ∧ (s.hart u i).csr 0x180 = 0 ∧ (s.hart u i).mode = 3 ∧ (s.hart u i).mst 17 1 = 0 ∧ (s.hart u i).csr 0x3A0 = 0 ∧ (s.hart u i).csr 0x3A2 = 0 ∧ -2048 ≤ imm ∧ imm < 2048 ∧ s.hartFetch u (s.hart u i) = .word (mkI 0x03 3 rd rs1 imm) 4 ∧ 0x10000000000 ≤ (wrapN 64 (((s.hart u i).rx rs1 : Int) + imm)) ∧ (wrapN 64 (((s.hart u i).rx rs1 : Int) + imm)) < 0x10000200000 ∧ (wrapN 64 (((s.hart u i).rx rs1 : Int) + imm)) % 8 = 0 :=
  ⟨coreAt (mkI 0x03 3 5 5 (-8)), 0, 0, 5, 5, 0, -8, ⟨by decide +kernel, by decide +kernel, by decide +kernel⟩, by decide +kernel⟩

theorem wit_unitsComplete_c3_3 : ∃ (s : State) (u : Fin 2) (i : Nat) (rd : Fin 32) (rs1 : Fin 32) (rs2 : Fin 32) (imm : Int),
    s.Inv ∧ (KMap.wf (fun _ => {}) s.cux.units = true) ∧ i < (s.unit u).harts.length ∧ (s.hart u i).interrupt (s.hartEnv u i) = none ∧ (s.hart u i).csr 0x320 = 0 ∧ (s.hart u i).csr 0x180 = 0 ∧ (s.hart u i).mode = 3 ∧ (s.hart u i).mst 17 1 = 0 ∧ (s.hart u i).csr 0x3A0 = 0 ∧ (s.hart u i).csr 0x3A2 = 0 ∧ -2048 ≤ imm ∧ imm < 2048 ∧ s.hartFetch u (s.hart u i) = .word (mkS 0x23 3 rs1 rs2 imm.toNat) 4 ∧ 0 ≤ imm ∧ 0x10000000000 ≤ (wrapN 64 (((s.hart u i).rx rs1 : Int) + imm)) ∧ (wrapN 64 (((s.hart u i).rx rs1 : Int) + imm)) < 0x10000200000 ∧ (wrapN 64 (((s.hart u i).rx rs1 : Int) + imm)) % 8 = 0 :=
  ⟨coreAt (mkS 0x23 3 5 6 8), 0, 0, 0, 5, 6, 8, ⟨by decide +kernel, by decide +kernel, by decide +kernel⟩, by decide +kernel⟩

theorem wit_unitsComplete_c3_4 : ∃ (s : State) (u : Fin 2) (i : Nat) (rd : Fin 32) (rs1 : Fin 32) (rs2 : Fin 32) (imm : Int),
    s.Inv ∧ (KMap.wf (fun _ => {}) s.cux.units = true) ∧ i < (s.unit u).harts.length ∧ (s.hart u i).interrupt (s.hartEnv u i) = none ∧ (s.hart u i).csr 0x320 = 0 ∧ (s.hart u i).csr 0x180 = 0 ∧ (s.hart u i).mode = 3 ∧ (s.hart u i).mst 17 1 = 0 ∧ (s.hart u i).csr 0x3A0 = 0 ∧ (s.hart u i).csr 0x3A2 = 0 ∧ -2048 ≤ imm ∧ imm < 2048 ∧ s.hartFetch u (s.hart u i) = .word 0x00000073 4 :=
  ⟨coreAt 0x00000073, 0, 0, 0, 0, 0, 0, ⟨by decide +kernel, by decide +kernel, by decide +kernel⟩, by decide +kernel⟩

theorem wit_unitsComplete_c4 : ∃ (s : State) (u : Fin 2) (k : Nat),
    s.Inv ∧ (KMap.wf (fun _ => {}) s.cux.units = true) ∧ 1 ≤ k ∧ k ≤ 0x21 ∧ k ≠ 4 ∧ s.irqLevel k = true :=
  ⟨put day [(F.HQ_STATUS_OMIT, 1)], 0, 0x0A, ⟨by decide +kernel, by decide +kernel, by decide +kernel⟩, by decide +kernel⟩

theorem wit_unitsComplete_c5 : ∃ (s : State),
    s.Inv ∧ (KMap.wf (fun _ => {}) s.cux.units = true) ∧ s.pwr.cold = false :=
  ⟨{ day with pwr := { cold := false } }.wr F.KPR_KEEPER_RESTARTS_COUNT 0xFFFFFFFE, ⟨by decide +kernel, by decide +kernel, by decide +kernel⟩, by decide +kernel⟩

theorem wit_unitsComplete_c6 : ∃ (s : State) (hart : Fin 8) (halt : Bool),
    s.Inv ∧ (KMap.wf (fun _ => {}) s.cux.units = true) ∧ s.rd F.FUSE_LOCKS_DBG_CLOSE = 0 ∧ s.ustate (hart.val / 4) ≠ 0 :=
  ⟨{ pair with cux := { units := [(0, { portOpen := true }), (1, { halted := [4] })] }, ref := 9 }, 7, true, ⟨by decide +kernel, by decide +kernel, by decide +kernel⟩, by decide +kernel⟩

theorem wit_unitsComplete_c6b : ∃ (s : State) (hart : Fin 8) (halt : Bool),
    s.Inv ∧ (KMap.wf (fun _ => {}) s.cux.units = true) ∧ s.rd F.FUSE_LOCKS_DBG_CLOSE = 0 ∧ s.ustate (hart.val / 4) ≠ 0 :=
  ⟨{ pair with cux := { units := [(0, { portOpen := true }), (1, { halted := [4, 6] })] }, ref := 9 }, 4, false, ⟨by decide +kernel, by decide +kernel, by decide +kernel⟩, by decide +kernel⟩

theorem wit_fusesComplete_c1 : ∃ (s : State) (src : Agent) (val : Word),
    s.Inv ∧ s.Passes src F.FUSE_PROG_CMD_TARGET ∧ s.boot.fuse = none ∧ F.FUSE_PROG_CMD_CONFIRM.of val = 0x5A3C ∧ s.rd F.PWR_STATUS_LOWIN = 0 ∧ (((F.FUSE_PROG_CMD_TARGET.of val) = 1 ∧ s.rd F.FUSE_LOCKS_OWNER_KEY_STATE = 0) ∨ ((F.FUSE_PROG_CMD_TARGET.of val) = 2 ∧ s.rd F.FUSE_LOCKS_OWNER_LOCK = 0 ∧ s.rd F.FUSE_LOCKS_OWNER_KEY_STATE = 1) ∨ ((F.FUSE_PROG_CMD_TARGET.of val) = 3 ∧ s.rd F.FUSE_LOCKS_DBG_CLOSE = 0)) :=
  ⟨day.wr (F.FUSE_PROG_DATA_V 7) 0xFFFFFFFF, .phobos, mk [(F.FUSE_PROG_CMD_TARGET, 1), (F.FUSE_PROG_CMD_CONFIRM, 0x5A3C)], ⟨by decide +kernel, by decide +kernel, by decide +kernel⟩, by unfold State.Passes; decide +kernel⟩

theorem wit_fusesComplete_c1b : ∃ (s : State) (src : Agent) (val : Word),
    s.Inv ∧ s.Passes src F.FUSE_PROG_CMD_TARGET ∧ s.boot.fuse = none ∧ F.FUSE_PROG_CMD_CONFIRM.of val = 0x5A3C ∧ s.rd F.PWR_STATUS_LOWIN = 0 ∧ (((F.FUSE_PROG_CMD_TARGET.of val) = 1 ∧ s.rd F.FUSE_LOCKS_OWNER_KEY_STATE = 0) ∨ ((F.FUSE_PROG_CMD_TARGET.of val) = 2 ∧ s.rd F.FUSE_LOCKS_OWNER_LOCK = 0 ∧ s.rd F.FUSE_LOCKS_OWNER_KEY_STATE = 1) ∨ ((F.FUSE_PROG_CMD_TARGET.of val) = 3 ∧ s.rd F.FUSE_LOCKS_DBG_CLOSE = 0)) :=
  ⟨day.wr F.FUSE_LOCKS_OWNER_KEY_STATE 1, .phobos, mk [(F.FUSE_PROG_CMD_TARGET, 2), (F.FUSE_PROG_CMD_CONFIRM, 0x5A3C)], ⟨by decide +kernel, by decide +kernel, by decide +kernel⟩, by unfold State.Passes; decide +kernel⟩

theorem wit_fusesComplete_c1c : ∃ (s : State) (src : Agent) (val : Word),
    s.Inv ∧ s.Passes src F.FUSE_PROG_CMD_TARGET ∧ s.boot.fuse = none ∧ F.FUSE_PROG_CMD_CONFIRM.of val = 0x5A3C ∧ s.rd F.PWR_STATUS_LOWIN = 0 ∧ (((F.FUSE_PROG_CMD_TARGET.of val) = 1 ∧ s.rd F.FUSE_LOCKS_OWNER_KEY_STATE = 0) ∨ ((F.FUSE_PROG_CMD_TARGET.of val) = 2 ∧ s.rd F.FUSE_LOCKS_OWNER_LOCK = 0 ∧ s.rd F.FUSE_LOCKS_OWNER_KEY_STATE = 1) ∨ ((F.FUSE_PROG_CMD_TARGET.of val) = 3 ∧ s.rd F.FUSE_LOCKS_DBG_CLOSE = 0)) :=
  ⟨day, .phobos, mk [(F.FUSE_PROG_CMD_TARGET, 3), (F.FUSE_PROG_CMD_CONFIRM, 0x5A3C)], ⟨by decide +kernel, by decide +kernel, by decide +kernel⟩, by unfold State.Passes; decide +kernel⟩

theorem wit_fusesComplete_c2 : ∃ (s : State) (ok : Bool) (t : Nat) (w : List Nat),
    s.Inv ∧ s.boot.fuse = some (t, w) ∧ (t = 1 ∨ t = 2 ∨ t = 3) :=
  ⟨{ day with boot := { fuse := some (1, [1, 2, 3, 4, 5, 6, 7, 0xFFFFFFFF]) } }.wr F.FUSE_PROG_STATUS_BUSY 1, true, 1, [1, 2, 3, 4, 5, 6, 7, 0xFFFFFFFF], ⟨by decide +kernel, by decide +kernel, by decide +kernel⟩, by decide +kernel⟩

theorem wit_fusesComplete_c2b : ∃ (s : State) (ok : Bool) (t : Nat) (w : List Nat),
    s.Inv ∧ s.boot.fuse = some (t, w) ∧ (t = 1 ∨ t = 2 ∨ t = 3) :=
  ⟨{ day with boot := { fuse := some (1, []) } }.wr F.FUSE_PROG_STATUS_BUSY 1, false, 1, [], ⟨by decide +kernel, by decide +kernel, by decide +kernel⟩, by decide +kernel⟩

theorem wit_fusesComplete_c2c : ∃ (s : State) (ok : Bool) (t : Nat) (w : List Nat),
    s.Inv ∧ s.boot.fuse = some (t, w) ∧ (t = 1 ∨ t = 2 ∨ t = 3) :=
  ⟨{ day with boot := { fuse := some (3, []) } }.wr F.FUSE_PROG_STATUS_BUSY 1, true, 3, [], ⟨by decide +kernel, by decide +kernel, by decide +kernel⟩, by decide +kernel⟩

theorem wit_fusesComplete_c3 : ∃ (s : State),
    s.Inv :=
  ⟨day, ⟨by decide +kernel, by decide +kernel, by decide +kernel⟩⟩

theorem wit_fusesComplete_c4 : ∃ (s : State),
    s.Inv :=
  ⟨State.reset, ⟨by decide +kernel, by decide +kernel, by decide +kernel⟩⟩

theorem wit_maintenanceComplete_c1_1 : ∃ (n : Fin 8) (s : State) (src : Agent) (val : Word),
    s.Inv ∧ s.Passes src (F.BIST_S_CMD_GO n) ∧ s.rd (F.BIST_S_STATUS_STATE n) ≠ 1 ∧ s.rd (F.BIST_S_STATUS_STATE n) ≠ 2 ∧ bistTarget ((F.BIST_S_CMD_TARGET n).of val) = true ∧ (((F.BIST_S_CMD_TARGET n).of val) = 0x30 ∨ (10 ≤ ((F.BIST_S_CMD_PAT_LOG2 n).of val) ∧ ((F.BIST_S_CMD_PAT_LOG2 n).of val) ≤ 20)) ∧ s.bistBusy ((F.BIST_S_CMD_TARGET n).of val) = false ∧ s.bistBarred = false :=
  ⟨7, day, .phobos, mk [(F.BIST_S_CMD_GO 7, 1), (F.BIST_S_CMD_TARGET 7, 0x2F), (F.BIST_S_CMD_PAT_LOG2 7, 10)], ⟨by decide +kernel, by decide +kernel, by decide +kernel⟩, by unfold State.Passes; decide +kernel⟩

theorem wit_maintenanceComplete_c1_1b : ∃ (n : Fin 8) (s : State) (src : Agent) (val : Word),
    s.Inv ∧ s.Passes src (F.BIST_S_CMD_GO n) ∧ s.rd (F.BIST_S_STATUS_STATE n) ≠ 1 ∧ s.rd (F.BIST_S_STATUS_STATE n) ≠ 2 ∧ bistTarget ((F.BIST_S_CMD_TARGET n).of val) = true ∧ (((F.BIST_S_CMD_TARGET n).of val) = 0x30 ∨ (10 ≤ ((F.BIST_S_CMD_PAT_LOG2 n).of val) ∧ ((F.BIST_S_CMD_PAT_LOG2 n).of val) ≤ 20)) ∧ s.bistBusy ((F.BIST_S_CMD_TARGET n).of val) = false ∧ s.bistBarred = false :=
  ⟨0, day.wr (F.BIST_S_STATUS_STATE 0) 3, .phobos, mk [(F.BIST_S_CMD_GO 0, 1), (F.BIST_S_CMD_TARGET 0, 0x30)], ⟨by decide +kernel, by decide +kernel, by decide +kernel⟩, by unfold State.Passes; decide +kernel⟩

theorem wit_maintenanceComplete_c1_2_1 : ∃ (n : Fin 8) (s : State) (src : Agent) (val : Word) (r : TestEnd),
    s.Inv ∧ s.Passes src (F.BIST_S_CMD_GO n) ∧ (F.BIST_S_CMD_GO n).of val = 0 ∧ s.rd (F.BIST_S_STATUS_STATE n) = 1 :=
  ⟨7, { day with mnt := { acts := [{ act := .bist 7 }] } }.wr (F.BIST_S_STATUS_STATE 7) 1, .phobos, mk [(F.BIST_S_CMD_ABORT 7, 1)], {}, ⟨by decide +kernel, by decide +kernel, by decide +kernel⟩, by unfold State.Passes; decide +kernel⟩

theorem wit_maintenanceComplete_c1_2_2 : ∃ (n : Fin 8) (s : State) (src : Agent) (val : Word) (r : TestEnd),
    s.Inv ∧ s.Passes src (F.BIST_S_CMD_GO n) ∧ (F.BIST_S_CMD_GO n).of val = 0 ∧ s.rd (F.BIST_S_STATUS_STATE n) = 2 ∧ r.complete = false :=
  ⟨7, { day with mnt := { acts := [{ act := .bist 7, running := true }] } }.wr (F.BIST_S_STATUS_STATE 7) 2, .phobos, mk [(F.BIST_S_CMD_ABORT 7, 1)], { count := 2 ^ 32 + 5 }, ⟨by decide +kernel, by decide +kernel, by decide +kernel⟩, by unfold State.Passes; decide +kernel⟩

theorem wit_maintenanceComplete_c1_3 : ∃ (n : Fin 8) (s : State),
    s.Inv ∧ s.rd (F.BIST_S_STATUS_STATE n) = 1 ∧ s.actRuns (.bist n) = true ∧ (((s.bistSlot n).target < 0x15 → s.workHeld (s.bistSlot n).target = false)) :=
  ⟨7, { day with mnt := { acts := [{ act := .bist 7, running := true }], slots := [(7, { target := 0x14, pat := 10 })] } }.wr (F.BIST_S_STATUS_STATE 7) 1, ⟨by decide +kernel, by decide +kernel, by decide +kernel⟩, by decide +kernel⟩

theorem wit_maintenanceComplete_c1_4 : ∃ (n : Fin 8) (s : State) (r : TestEnd),
    s.Inv ∧ s.rd (F.BIST_S_STATUS_STATE n) = 2 :=
  ⟨7, { day with mnt := { acts := [{ act := .bist 7, running := true }], slots := [(7, { target := 0x28, pat := 10 })] } }.wr (F.BIST_S_STATUS_STATE 7) 2, { count := 1024, complete := true, sigValid := true, sig := 0 }, ⟨by decide +kernel, by decide +kernel, by decide +kernel⟩, by decide +kernel⟩

theorem wit_maintenanceComplete_c1_4b : ∃ (n : Fin 8) (s : State) (r : TestEnd),
    s.Inv ∧ s.rd (F.BIST_S_STATUS_STATE n) = 2 :=
  ⟨7, { day with mnt := { acts := [{ act := .bist 7, running := true }], slots := [(7, { target := 0x28, pat := 10 })] } }.wr (F.BIST_S_STATUS_STATE 7) 2, { count := 1023, complete := true, sigValid := true, sig := 0 }, ⟨by decide +kernel, by decide +kernel, by decide +kernel⟩, by decide +kernel⟩

theorem wit_maintenanceComplete_c2_2 : ∃ (s : State) (c : CalPass) (trims : List Nat) (spareFails : Bool) (underrun : Bool),
    s.Inv ∧ s.mnt.cal = some c ∧ s.actRuns (.cal c.group) = true ∧ c.group < 4 ∧ c.pos < 8 ∧ c.parked = false ∧ c.held = false ∧ (s.gstate c.group ≠ 3 ∨ (spareFails = false ∧ underrun = false)) :=
  ⟨{ day with mnt := { acts := [{ act := .cal 3, running := true }], cal := some { group := 3, pos := 7 } } }.wr (F.SLK_G_STATUS_GSTATE 3) 3, { group := 3, pos := 7 }, [0, 63, 1, 62, 5, 5, 5, 5], false, false, ⟨by decide +kernel, by decide +kernel, by decide +kernel⟩, by decide +kernel⟩

theorem wit_maintenanceComplete_c2_3_2 : ∃ (s : State) (a : Act) (g : Nat),
    s.Inv ∧ s.startable [] s.mnt.acts = some a ∧ a = .cal g ∧ g < 4 :=
  ⟨{ day with mnt := { acts := [{ act := .cal 3 }] } }.wr (F.SLK_G_STATUS_SPARE_ACTIVE 3) 1, .cal 3, 3, ⟨by decide +kernel, by decide +kernel, by decide +kernel⟩, by decide +kernel⟩

theorem wit_updateComplete_c1_1 : ∃ (s : State) (src : Agent) (val : Word),
    s.Inv ∧ s.Passes src F.UPD_CMD_STAGE ∧ F.UPD_CMD_ACTIVATE.of val = 0 ∧ F.UPD_CMD_CANCEL.of val = 0 ∧ (s.rd F.UPD_STATUS_STATE = 0 ∨ s.rd F.UPD_STATUS_STATE = 2 ∨ s.rd F.UPD_STATUS_STATE = 5) ∧ s.rd F.KPR_BOOT_SOURCE ≠ 3 ∧ s.updRefusals = 0 :=
  ⟨put day [(F.UPD_STATUS_STATE, 5), (F.KPR_DIR_SEQ_SEQ, 9), (F.UPD_PROGRESS_V, 4)], .phobos, mk [(F.UPD_CMD_STAGE, 1)], ⟨by decide +kernel, by decide +kernel, by decide +kernel⟩, by unfold State.Passes; decide +kernel⟩

theorem wit_updateComplete_c1_2 : ∃ (s : State) (src : Agent) (val : Word),
    s.Inv ∧ s.Passes src F.UPD_CMD_STAGE ∧ F.UPD_CMD_STAGE.of val = 0 ∧ F.UPD_CMD_CANCEL.of val = 0 ∧ s.rd F.UPD_STATUS_STATE = 2 ∧ s.upd.seq = s.rd F.KPR_DIR_SEQ_SEQ ∧ s.updRefusals = 0 ∧ (F.UPD_CMD_MODE.of val = 1 ∨ s.hasPart 3 = false ∨ (s.ustate 0 ≠ 0 ∧ s.ustate 1 ≠ 0)) :=
  ⟨put { day with upd := { seq := 9, parts := [{ typ := 3 }] } } [(F.UPD_STATUS_STATE, 2), (F.KPR_DIR_SEQ_SEQ, 9)], .phobos, mk [(F.UPD_CMD_ACTIVATE, 1), (F.UPD_CMD_MODE, 1)], ⟨by decide +kernel, by decide +kernel, by decide +kernel⟩, by unfold State.Passes; decide +kernel⟩

theorem wit_updateComplete_c1_3 : ∃ (s : State) (src : Agent) (val : Word),
    s.Inv ∧ s.Passes src F.UPD_CMD_STAGE ∧ F.UPD_CMD_STAGE.of val = 0 ∧ F.UPD_CMD_ACTIVATE.of val = 0 ∧ (s.rd F.UPD_STATUS_STATE = 1 ∨ s.rd F.UPD_STATUS_STATE = 2) :=
  ⟨put { day with upd := { seq := 9, parts := [{ typ := 3 }] } } [(F.UPD_STATUS_STATE, 2), (F.UPD_STATUS_PARTS, 4)], .phobos, mk [(F.UPD_CMD_CANCEL, 1)], ⟨by decide +kernel, by decide +kernel, by decide +kernel⟩, by unfold State.Passes; decide +kernel⟩

theorem wit_updateComplete_c2_1 : ∃ (s : State) (err : Option Nat),
    s.Inv ∧ s.rd F.UPD_STATUS_STATE = 1 ∧ s.pkgOk (s.rd F.UPD_PKG_ADDR_HI_ADDR * 2 ^ 32 + 16 * s.rd F.UPD_PKG_ADDR_LO_ADDR) (s.rd F.UPD_PKG_LEN_LEN) (s.physRead (s.rd F.UPD_PKG_ADDR_HI_ADDR * 2 ^ 32 + 16 * s.rd F.UPD_PKG_ADDR_LO_ADDR) (min (s.rd F.UPD_PKG_LEN_LEN) 512)) = false :=
  ⟨put day [(F.UPD_STATUS_STATE, 1), (F.UPD_PKG_LEN_LEN, 4096)], none, ⟨by decide +kernel, by decide +kernel, by decide +kernel⟩, by decide +kernel⟩

theorem wit_handoverComplete_c1 : ∃ (s : State),
    s.Inv ∧ s.rd F.UPD_STATUS_STATE = 4 ∧ s.upd.step = 1 ∧ s.hasPart 1 = true :=
  ⟨put { day with upd := { parts := [{ typ := 4, newLen := 7 }, { typ := 1 }], step := 1 } } [(F.UPD_STATUS_STATE, 4)], ⟨by decide +kernel, by decide +kernel, by decide +kernel⟩, by decide +kernel⟩

theorem wit_handoverComplete_c2 : ∃ (s : State) (x : UpdPart),
    s.Inv ∧ s.rd F.UPD_STATUS_STATE = 4 ∧ s.upd.step = 1 ∧ (s.upd.parts.find? (fun x => x.typ == 4) = some x) ∧ s.hasPart 1 = true :=
  ⟨put { day with upd := { parts := [{ typ := 4, newLen := 7 }, { typ := 1 }], step := 1 } } [(F.UPD_STATUS_STATE, 4)], { typ := 4, newLen := 7 }, ⟨by decide +kernel, by decide +kernel, by decide +kernel⟩, by decide +kernel⟩

theorem wit_handoverComplete_c3 : ∃ (s : State),
    s.Inv ∧ s.rd F.UPD_STATUS_STATE = 4 ∧ s.upd.step = 2 ∧ s.hasPart 3 = false :=
  ⟨put { day with upd := { parts := [{ typ := 1 }], step := 2 } } [(F.UPD_STATUS_STATE, 4)], ⟨by decide +kernel, by decide +kernel, by decide +kernel⟩, by decide +kernel⟩

theorem wit_handoverComplete_c4 : ∃ (s : State),
    s.Inv ∧ s.rd F.UPD_STATUS_STATE = 4 ∧ s.upd.step = 3 ∧ s.fit s.upd.unit = true :=
  ⟨put { pair with upd := { parts := [{ typ := 3 }], step := 3, unit := 1 } } [(F.UPD_STATUS_STATE, 4)], ⟨by decide +kernel, by decide +kernel, by decide +kernel⟩, by decide +kernel⟩

theorem wit_handoverComplete_c5 : ∃ (s : State),
    s.Inv ∧ s.rd F.UPD_STATUS_STATE = 4 ∧ s.upd.step = 4 ∧ s.upd.unit < 2 ∧ s.cux.gap = none ∧ s.owner ≠ some s.upd.unit ∧ s.switchBusy = false ∧ s.fit s.upd.unit = true :=
  ⟨put { pair with upd := { parts := [{ typ := 3 }], step := 4, unit := 1 } } [(F.UPD_STATUS_STATE, 4)], ⟨by decide +kernel, by decide +kernel, by decide +kernel⟩, by decide +kernel⟩

theorem wit_handoverComplete_c6 : ∃ (s : State),
    s.Inv ∧ s.rd F.UPD_STATUS_STATE = 4 ∧ s.upd.step = 5 ∧ s.fit s.upd.unit = true :=
  ⟨put { pair with upd := { parts := [{ typ := 3 }], step := 5, unit := 1 } } [(F.UPD_STATUS_STATE, 4)], ⟨by decide +kernel, by decide +kernel, by decide +kernel⟩, by decide +kernel⟩

theorem wit_handoverComplete_c7 : ∃ (s : State),
    s.Inv ∧ s.rd F.UPD_STATUS_STATE = 4 ∧ 3 ≤ s.upd.step :=
  ⟨put { pair with upd := { parts := [{ typ := 3 }], step := 3, unit := 1 } } [(F.UPD_STATUS_STATE, 4)], ⟨by decide +kernel, by decide +kernel, by decide +kernel⟩, by decide +kernel⟩


/-! ### Witnesses that need a boot directory -/

/-- UNIT_FW with a body of 16 bytes, entered at 4, that nobody signed. -/
def unitFw : List Byte := [0x54, 0x58, 0x43, 0x50, 3, 0, 0, 0] ++ leBytes 4 16 ++ leBytes 4 4 ++ List.replicate 48 0 ++ List.replicate 16 7

/-- The used bytes of a directory with that UNIT_FW, version 6, at 0x20000. -/
def dirHead : List Byte :=
  [0x54, 0x58, 0x42, 0x44] ++ leBytes 2 1 ++ leBytes 2 1 ++ leBytes 4 8 ++ List.replicate 20 0 ++
    ([3, 0, 0, 0] ++ leBytes 4 0x20000 ++ leBytes 4 80 ++ leBytes 4 6 ++ List.replicate 16 0 ++ List.replicate 32 0x5A)

/-- The directory: its used bytes, 62 times 64 zeros, 28 zeros and the CRC. -/
def bootDirectory : List Byte :=
  dirHead ++ (List.replicate 62 (List.replicate 64 0)).flatten ++ List.replicate 28 0 ++ [233, 1, 97, 137]

/-- The CRC registers after each 64 zeros. -/
def crcTrail : List Nat := [3245338575, 3833205366, 3880592025, 2675675794, 687862872, 3719416076, 413063906, 691446776,
  710317910, 2240340741, 854755099, 2834392653, 3151525313, 4031938953, 3229030288, 1319199626,
  2214383149, 2890045705, 2183548069, 3879635485, 218959766, 3820525395, 1357954835, 2835424724,
  991489898, 99961668, 1410428194, 809347631, 2080133084, 4160336471, 2102105971, 458160166,
  1472767565, 2490519782, 2417249881, 3085703690, 2445602642, 2494738352, 1174699461, 3686910250,
  1213478265, 616519441, 1859151499, 1846329617, 675851885, 1575158581, 3464885957, 4025153208,
  615343665, 756792420, 3878290145, 4158550213, 974564768, 3959295094, 3732741086, 3173595839,
  2124767998, 2966209368, 4161890440, 943424246, 3658325907, 2269335726]

/-- Does feeding `z` lead from each value to the next? -/
def trailOk (z : List Byte) : Nat → List Nat → Bool
  | _, [] => true
  | v, w :: t => z.foldl (crcFeed 0) v == w && trailOk z w t

theorem trail_foldl (z : List Byte) : ∀ (l : List Nat) (v : Nat), trailOk z v l = true →
    (List.replicate l.length z).flatten.foldl (crcFeed 0) v = l.getLastD v
  | [], _, _ => rfl
  | w :: t, v, h => by
    simp only [trailOk, Bool.and_eq_true, beq_iff_eq] at h
    simp only [List.length_cons, List.replicate_succ, List.flatten_cons, List.foldl_append, h.1, trail_foldl z t w h.2]
    cases t <;> simp [List.getLastD]

theorem directory_crc : crc 0 0 (dirHead ++ (List.replicate 62 (List.replicate 64 0)).flatten ++ List.replicate 28 0) = 2304836073 := by
  have h := trail_foldl (List.replicate 64 0) crcTrail 431784192 (by decide +kernel)
  have e : (dirHead.foldl (crcFeed 0) (crcInit 0 0)) = 431784192 := by decide +kernel
  have f : (List.replicate 28 0).foldl (crcFeed 0) 2269335726 = 1990131222 := by decide +kernel
  have l : crcTrail.length = 62 := rfl
  have g : crcTrail.getLastD 431784192 = 2269335726 := rfl
  rw [l, g] at h
  unfold crc
  rw [List.foldl_append, List.foldl_append, e, h, f]
  decide +kernel

theorem get_listed (d : Nat → Byte) : ∀ (l : List Byte) (k : Nat) (t : KMap Byte) (a : Nat), a < l.length →
    KMap.get d (l.mapIdx (fun i b => (k + i, b)) ++ t) (k + a) = l.getD a 0
  | [], _, _, _, h => absurd h (Nat.not_lt_zero _)
  | b :: l, k, t, 0, _ => by simp [List.mapIdx_cons, KMap.get]
  | b :: l, k, t, a + 1, h => by
    have r := get_listed d l (k + 1) t a (by simpa using h)
    have e : (fun i b => (k + (i + 1), b) : Nat → Byte → Nat × Byte) = fun i b => (k + 1 + i, b) := by
      funext i b; simp [Nat.add_comm, Nat.add_left_comm]
    simp only [List.mapIdx_cons, List.cons_append, KMap.get, Nat.add_zero, e]
    rw [if_neg (by omega), show k + (a + 1) = k + 1 + a by omega, r]
    rfl

theorem get_behind (d : Nat → Byte) : ∀ (l : List Byte) (k : Nat) (t : KMap Byte) (a : Nat), l.length ≤ a →
    KMap.get d (l.mapIdx (fun i b => (k + i, b)) ++ t) (k + a) = KMap.get d t (k + a)
  | [], _, _, _, _ => rfl
  | b :: l, k, t, 0, h => absurd h (by simp)
  | b :: l, k, t, a + 1, h => by
    have r := get_behind d l (k + 1) t a (by simpa using h)
    have e : (fun i b => (k + (i + 1), b) : Nat → Byte → Nat × Byte) = fun i b => (k + 1 + i, b) := by
      funext i b; simp [Nat.add_comm, Nat.add_left_comm]
    simp only [List.mapIdx_cons, List.cons_append, KMap.get, Nat.add_zero, e]
    rw [if_neg (by omega), show k + (a + 1) = k + 1 + a by omega, r]

/-- A flash that holds the directory and UNIT_FW. -/
def flashed : KMap Byte := bootDirectory.mapIdx (fun i b => (0 + i, b)) ++ unitFw.mapIdx (fun i b => (0x20000 + i, b))

theorem used_length : (dirHead ++ (List.replicate 62 (List.replicate 64 0)).flatten ++ List.replicate 28 0).length = 4092 := by
  have h : dirHead.length = 96 := by decide +kernel
  have z : (List.replicate 62 (List.replicate 64 (0 : Byte))).flatten.length = 3968 := by rw [List.length_flatten]; decide +kernel
  rw [List.length_append, List.length_append, h, z]
  rfl

theorem directory_length : bootDirectory.length = 4096 := by
  rw [bootDirectory, List.length_append, used_length]
  rfl

theorem src_length (r : Nat → Byte) (off n : Nat) : (srcBytes r off n).length = n := by simp [srcBytes]

theorem src_get (r : Nat → Byte) (off n i : Nat) (h : i < (srcBytes r off n).length) : (srcBytes r off n)[i] = r (off + i) := by
  simp [srcBytes]

theorem src_head (r : Nat → Byte) (off n : Nat) (b : Byte) (t : List Byte) (h : (srcBytes r off (n + 1)).take 4 = b :: t) : r off = b := by
  rw [srcBytes, List.range_succ_eq_map, List.map_cons, List.take_succ_cons] at h
  exact (List.cons.inj h).1

theorem flashed_first : srcBytes (fun a => KMap.get (fun _ => 0xFF) flashed a) 0 4096 = bootDirectory := by
  apply List.ext_getElem
  · rw [src_length, directory_length]
  · intro i h _
    have h' : i < bootDirectory.length := Nat.lt_of_lt_of_eq h ((src_length _ _ _).trans directory_length.symm)
    have r := get_listed (fun _ => 0xFF) bootDirectory 0 (unitFw.mapIdx (fun i b => (0x20000 + i, b))) i h'
    rw [src_get, flashed, r, List.getD_eq_getElem _ _ h']

theorem flashed_fw : srcBytes (fun a => KMap.get (fun _ => 0xFF) flashed a) 0x20000 80 = unitFw := by
  have l : unitFw.length = 80 := by decide +kernel
  apply List.ext_getElem
  · rw [src_length, l]
  · intro i h h'
    have b := get_behind (fun _ => 0xFF) bootDirectory 0 (unitFw.mapIdx (fun i b => (0x20000 + i, b))) (0x20000 + i)
      (by rw [directory_length]; omega)
    have r := get_listed (fun _ => 0xFF) unitFw 0x20000 [] i h'
    rw [Nat.zero_add] at b
    rw [src_get, flashed, b, ← List.append_nil (unitFw.mapIdx _), r, List.getD_eq_getElem _ _ h']

theorem directory_valid : dirValid bootDirectory = true := by
  have t : bootDirectory.take 4092 = dirHead ++ (List.replicate 62 (List.replicate 64 0)).flatten ++ List.replicate 28 0 := by
    rw [bootDirectory, List.take_append_of_le_length (by rw [used_length]), List.take_of_length_le (by rw [used_length])]
  unfold dirValid
  simp only [t, directory_crc, Bool.and_eq_true]
  refine ⟨⟨⟨⟨⟨⟨⟨⟨⟨?_, ?_⟩, ?_⟩, ?_⟩, ?_⟩, ?_⟩, ?_⟩, ?_⟩, ?_⟩, ?_⟩ <;> decide +kernel

theorem flashed_hole : KMap.get (fun _ => 0xFF) flashed 0x10000 = 0xFF := by
  have b := get_behind (fun _ => 0xFF) bootDirectory 0 (unitFw.mapIdx (fun i b => (0x20000 + i, b))) 0x10000
    (by rw [directory_length]; omega)
  rw [Nat.zero_add] at b
  unfold flashed
  exact b.trans (by decide +kernel)

theorem magic_of_valid (b : List Byte) (h : dirValid b = true) : b.take 4 = [0x54, 0x58, 0x42, 0x44] := by
  simp only [dirValid, Bool.and_eq_true, beq_iff_eq] at h
  exact h.1.1.1.1.1.1.1.1.1

theorem not_valid (r : Nat → Byte) (off : Nat) (h : r off = 0xFF) : ∀ n, dirValid (srcBytes r off n) = false
  | 0 => rfl
  | _ + 1 => Bool.eq_false_iff.mpr (fun v => absurd (h.symm.trans (src_head _ _ _ _ _ (magic_of_valid _ v))) (by decide))

theorem choose_first (a b : List Byte) (h : dirValid a = true) (h' : dirValid b = false) : dirChoose a b = some (0, a) := by
  simp only [dirChoose, h, h']

/-- What that flash reads as. -/
def flashByte (a : Nat) : Byte := KMap.get (fun _ => 0xFF) flashed a

theorem flash_hole : flashByte 0x10000 = 0xFF := flashed_hole

theorem second_invalid : dirValid (srcBytes flashByte 0x10000 4096) = false := not_valid _ _ flash_hole _

theorem flash_fw : srcBytes flashByte 0x20000 80 = unitFw := flashed_fw

theorem flash_directory : dirInForce flashByte = some (0, bootDirectory) := by
  have e : srcBytes flashByte 0 4096 = bootDirectory := flashed_first
  rw [dirInForce, e]
  exact choose_first _ _ directory_valid second_invalid

theorem flashed_eq : (fun a => KMap.get (fun _ => 0xFF) flashed a) = flashByte := rfl

theorem flashed_directory : dirInForce (fun a => KMap.get (fun _ => 0xFF) flashed a) = some (0, bootDirectory) :=
  (congrArg dirInForce flashed_eq).trans flash_directory

/-! ### Witnesses written by hand -/

/-- A TABLE_ONLY image of 112 bytes with one table of kind 7. -/
def tableImage : List Byte :=
  let tab := leBytes 2 1 ++ [7, 1] ++ leBytes 4 2 ++ leBytes 4 1 ++ leBytes 4 0 ++ leBytes 2 1 ++ List.replicate 14 0
  let dir := [6, 0] ++ leBytes 2 1 ++ leBytes 4 80 ++ leBytes 4 32 ++ leBytes 4 (crc 0 0 tab)
  let h := leBytes 4 0x44545344 ++ leBytes 2 1 ++ leBytes 2 64 ++ [0x54, 1, 1, 0] ++ leBytes 4 0xABCD1234 ++
    leBytes 4 112 ++ leBytes 2 1 ++ [0, 0] ++ leBytes 4 64 ++ List.replicate 28 0 ++ leBytes 4 (crc 0 0 dir)
  h ++ leBytes 4 (crc 0 0 h) ++ dir ++ tab

/-- Morning with that image in validation, over a structure that has the table. -/
def validating : State :=
  put { day.setBytes 0x1000 tableImage with
    str := { active := some { tables := [{ id := 1, kind := 7 }] }, shadow := some { addr := 0x1000, len := 128 } } }
    [(F.STR_STATUS_SHADOW_STATE, 1)]

theorem wit_structureEventsComplete_1 : ∃ (i img : Image) (s : State), s.Inv ∧ (s.str.shadow = some i ∧ s.shadowState = 1 ∧
    s.str.validated = false) ∧ s.validate i.addr i.len = .inr img :=
  ⟨{ addr := 0x1000, len := 128 },
   { addr := 0x1000, len := 112, id := 0xABCD1234, tableOnly := true, tables := [{ id := 1, kind := 7, p0 := 1, bodyLen := 2, addr := 0x1060 }] },
   validating, ⟨by decide +kernel, by decide +kernel, by decide +kernel⟩, by decide +kernel, by decide +kernel⟩

theorem wit_commandFrames : ∃ (c : Instr) (s t : State), exec c s = .next t :=
  ⟨.lowInput, day, _, rfl⟩

theorem wit_registerFrames_1 : ∃ (c : Instr) (l : List Nat) (s t : State) (off : Nat), eventRegisters c = some l ∧ exec c s = .next t ∧
    off ∉ l ∧ ¬ (0x718000 ≤ off ∧ off < 0x718100) :=
  ⟨.lowInput, [F.PWR_STATUS_STATUS.off], day, _, F.PWR_VIN_VIN.off, rfl, rfl, by decide, by decide⟩

theorem wit_registerFrames_2 : ∃ (c : Instr) (l : List Nat) (s t : State) (off : Nat), writeRegisters c = some l ∧ exec c s = .next t ∧
    off ∉ l ∧ off / 0x40000 ≠ 0x04 ∧ ¬ (0x718000 ≤ off ∧ off < 0x718100) :=
  ⟨.clkFclkWrite .phobos false 0x80, [F.CLK_FCLK_SEL.off, F.CLK_ECLK_SEL.off, F.CLK_STATUS_STATUS.off, F.BIST_STATUS_MAINT_ACTIVE.off],
    day, _, F.CLK_CCLK_SEL 0 |>.off, rfl, rfl, by decide, by decide, by decide⟩

theorem wit_discoveryRegistersFixed : ∃ s t : State, s.Inv ∧ step s = .next t :=
  ⟨day, _, ⟨by decide +kernel, by decide +kernel, by decide +kernel⟩, rfl⟩

theorem wit_resetsComplete_2 : ∃ (s : State) (c : Instr), s.Inv ∧ ((∃ us, 10 ≤ us ∧ c = .porst us) ∨
    (∃ vin : BitVec 16, vin.toNat < 4200 ∧ c = .underVoltageLockout vin)) :=
  ⟨day, .porst 10, ⟨by decide +kernel, by decide +kernel, by decide +kernel⟩, .inl ⟨10, Nat.le_refl 10, rfl⟩⟩

theorem wit_resetsComplete_2b : ∃ (s : State) (c : Instr), s.Inv ∧ ((∃ us, 10 ≤ us ∧ c = .porst us) ∨
    (∃ vin : BitVec 16, vin.toNat < 4200 ∧ c = .underVoltageLockout vin)) :=
  ⟨day, .underVoltageLockout 4199, ⟨by decide +kernel, by decide +kernel, by decide +kernel⟩, .inr ⟨4199, by decide, rfl⟩⟩

theorem wit_maintenanceComplete_2_1 : ∃ (s : State) (c : Instr) (g : Fin 4), s.Inv ∧
    ((∃ src val, c = .now src val ∧ s.Passes src F.CAL_CTRL_NOW ∧ 1 ≤ F.CAL_CTRL_DELTA.of val ∧ F.CAL_CTRL_DELTA.of val ≤ 100) ∨
      (c = .calTempTrigger ∧ s.rd F.CAL_CTRL_AUTO = 1 ∧
        16 * s.rd F.CAL_CTRL_DELTA ≤ (signed 16 (s.rd F.CAL_TEMP_CUR) - signed 16 (s.rd F.CAL_TEMP_LAST)).natAbs)) ∧
    s.mnt.cal = none ∧ s.rd (F.SLK_G_CFG_EN g) = 1 ∧ (∀ h < g.val, s.rd (F.SLK_G_CFG_EN h) = 0) :=
  ⟨day.wr (F.SLK_G_CFG_EN 2) 1, .now .phobos (mk [(F.CAL_CTRL_NOW, 1), (F.CAL_CTRL_DELTA, 100)]), 2,
    ⟨by decide +kernel, by decide +kernel, by decide +kernel⟩,
    .inl ⟨.phobos, mk [(F.CAL_CTRL_NOW, 1), (F.CAL_CTRL_DELTA, 100)], rfl, by unfold State.Passes; decide +kernel, by decide +kernel, by decide +kernel⟩,
    by decide +kernel, by decide +kernel, by decide +kernel⟩

theorem wit_maintenanceComplete_2_1b : ∃ (s : State) (c : Instr) (g : Fin 4), s.Inv ∧
    ((∃ src val, c = .now src val ∧ s.Passes src F.CAL_CTRL_NOW ∧ 1 ≤ F.CAL_CTRL_DELTA.of val ∧ F.CAL_CTRL_DELTA.of val ≤ 100) ∨
      (c = .calTempTrigger ∧ s.rd F.CAL_CTRL_AUTO = 1 ∧
        16 * s.rd F.CAL_CTRL_DELTA ≤ (signed 16 (s.rd F.CAL_TEMP_CUR) - signed 16 (s.rd F.CAL_TEMP_LAST)).natAbs)) ∧
    s.mnt.cal = none ∧ s.rd (F.SLK_G_CFG_EN g) = 1 ∧ (∀ h < g.val, s.rd (F.SLK_G_CFG_EN h) = 0) :=
  ⟨put day [(F.SLK_G_CFG_EN 0, 1), (F.CAL_CTRL_AUTO, 1), (F.CAL_CTRL_DELTA, 5), (F.CAL_TEMP_CUR, 40), (F.CAL_TEMP_LAST, 0xFFD8)],
    .calTempTrigger, 0, ⟨by decide +kernel, by decide +kernel, by decide +kernel⟩,
    .inr ⟨rfl, by decide +kernel, by decide +kernel⟩, by decide +kernel, by decide +kernel, by decide +kernel⟩

theorem wit_maintenanceComplete_2_3_1 : ∃ (s : State) (a : Act), s.Inv ∧ s.startable [] s.mnt.acts = some a ∧
    ((∃ n, a = .bist n) ∨ (∃ e, a = .clk e ∧ (e = true ∨ s.layersFit (fclkSel (s.rd F.CLK_FCLK_SEL)) = true))) :=
  ⟨{ day with mnt := { acts := [{ act := .clk true }] } }, .clk true, ⟨by decide +kernel, by decide +kernel, by decide +kernel⟩,
    by decide +kernel, .inr ⟨true, rfl, .inl rfl⟩⟩

theorem wit_maintenanceComplete_2_3_1b : ∃ (s : State) (a : Act), s.Inv ∧ s.startable [] s.mnt.acts = some a ∧
    ((∃ n, a = .bist n) ∨ (∃ e, a = .clk e ∧ (e = true ∨ s.layersFit (fclkSel (s.rd F.CLK_FCLK_SEL)) = true))) :=
  ⟨{ day with mnt := { acts := [{ act := .bist 7 }] } }, .bist 7, ⟨by decide +kernel, by decide +kernel, by decide +kernel⟩,
    by decide +kernel, .inl ⟨7, rfl⟩⟩

/-- A boot flash with that directory. -/
def withFlash : State := { pair with boot := { flash := flashed, flashSize := 0x1000000 } }

/-- Whatever the hash function is, a directory whose digest is UNIT_FW's hash lets Deimos restart. -/
theorem wit_unitsComplete_1 (hash : Config.sha256 unitFw = List.replicate 32 0x5A) :
    ∃ (s : State) (src : Agent) (u : Fin 2) (o : Nat) (d : List Byte) (e : DirEntry) (fw : List Byte), s.Inv ∧
      KMap.wf (fun _ => {}) s.cux.units = true ∧ s.Passes src F.KPR_CTRL_RESTART_UNIT ∧ s.rd F.CUX_OWNER_OWNER ≠ u.val + 1 ∧
      s.cux.gap = none ∧ dirInForce s.bootSource = some (o, d) ∧
      s.compAt s.bootSource 3 (dirFind d 3 (dirActive d 3)) = some (e, fw) := by
  have b : withFlash.bootSource = flashByte := by
    have h : withFlash.boot.host = false := by decide +kernel
    have f : withFlash.boot.flash = flashed := rfl
    funext a
    rw [State.bootSource, if_neg (by rw [h]; decide), f, flashByte]
  have f : dirFind bootDirectory 3 (dirActive bootDirectory 3) = some (dirEntry bootDirectory 0) := by decide +kernel
  have g : withFlash.compOk 3 unitFw = true := by decide +kernel
  have o : (dirEntry bootDirectory 0).off = 0x20000 := by decide +kernel
  have n : (dirEntry bootDirectory 0).len = 80 := by decide +kernel
  have h : srcBytes flashByte (dirEntry bootDirectory 0).off (dirEntry bootDirectory 0).len = unitFw := by rw [o, n]; exact flash_fw
  have k : (dirEntry bootDirectory 0).digest = List.replicate 32 0x5A := by decide +kernel
  refine ⟨withFlash, .phobos, 1, 0, bootDirectory, dirEntry bootDirectory 0, unitFw,
    ⟨by decide +kernel, by decide +kernel, by decide +kernel⟩, by decide +kernel, by unfold State.Passes; decide +kernel, by decide +kernel,
    by decide +kernel, by rw [b]; exact flash_directory, ?_⟩
  rw [b, f]
  simp only [State.compAt, h, k, hash, g, and_self, if_true]

/-- A library package of 256 bytes: one kernel of two instructions. -/
def library : List Byte :=
  [0x54, 0x58, 0x4F, 0x4C] ++ leBytes 2 1 ++ leBytes 2 1 ++ leBytes 4 3 ++ leBytes 4 256 ++ List.replicate 48 0 ++
    (leBytes 4 0x10000 ++ [1, 64, 0, 0] ++ leBytes 8 128 ++ leBytes 4 32 ++ leBytes 4 0 ++ leBytes 4 0x400 ++ leBytes 2 0 ++ leBytes 2 0 ++
      List.replicate 32 0) ++ List.replicate 32 0x13 ++ List.replicate 96 9

/-- Its nonzero bytes at 0x8000. -/
def libraryMem : List (Nat × Byte) :=
  [(32768, 84), (32769, 88), (32770, 79), (32771, 76), (32772, 1), (32774, 1), (32776, 3), (32781, 1), (32834, 1), (32836, 1),
   (32837, 64), (32840, 128), (32848, 32), (32857, 4), (32896, 19), (32897, 19), (32898, 19), (32899, 19), (32900, 19), (32901, 19),
   (32902, 19), (32903, 19), (32904, 19), (32905, 19), (32906, 19), (32907, 19), (32908, 19), (32909, 19), (32910, 19), (32911, 19),
   (32912, 19), (32913, 19), (32914, 19), (32915, 19), (32916, 19), (32917, 19), (32918, 19), (32919, 19), (32920, 19), (32921, 19),
   (32922, 19), (32923, 19), (32924, 19), (32925, 19), (32926, 19), (32927, 19), (32928, 9), (32929, 9), (32930, 9), (32931, 9),
   (32932, 9), (32933, 9), (32934, 9), (32935, 9), (32936, 9), (32937, 9), (32938, 9), (32939, 9), (32940, 9), (32941, 9)] ++
  [(32942, 9), (32943, 9), (32944, 9), (32945, 9), (32946, 9), (32947, 9), (32948, 9), (32949, 9), (32950, 9), (32951, 9),
   (32952, 9), (32953, 9), (32954, 9), (32955, 9), (32956, 9), (32957, 9), (32958, 9), (32959, 9), (32960, 9), (32961, 9),
   (32962, 9), (32963, 9), (32964, 9), (32965, 9), (32966, 9), (32967, 9), (32968, 9), (32969, 9), (32970, 9), (32971, 9),
   (32972, 9), (32973, 9), (32974, 9), (32975, 9), (32976, 9), (32977, 9), (32978, 9), (32979, 9), (32980, 9), (32981, 9),
   (32982, 9), (32983, 9), (32984, 9), (32985, 9), (32986, 9), (32987, 9), (32988, 9), (32989, 9), (32990, 9), (32991, 9),
   (32992, 9), (32993, 9), (32994, 9), (32995, 9), (32996, 9), (32997, 9), (32998, 9), (32999, 9), (33000, 9), (33001, 9)] ++
  [(33002, 9), (33003, 9), (33004, 9), (33005, 9), (33006, 9), (33007, 9), (33008, 9), (33009, 9), (33010, 9), (33011, 9),
   (33012, 9), (33013, 9), (33014, 9), (33015, 9), (33016, 9), (33017, 9), (33018, 9), (33019, 9), (33020, 9), (33021, 9),
   (33022, 9), (33023, 9)]

/-- Morning with that package at 0x8000 and its LOAD under way. -/
def loading : State := { day with mem := libraryMem, eng := { op := some (.load 0x8000 256) } }

/-- Its kernel as the library holds it. -/
def libKernel : Kernel :=
  { id := 0x10000, kflags := 1, maxTasks := 64, codeAddr := 0x8080, codeLen := 32, lmSize := 0x400, need := List.replicate 16 0,
    room := List.replicate 16 0 }

/-- Whatever hash and signature are, a package that they accept loads. -/
theorem wit_engineCommandsComplete_6 (hash : Config.sha256 (List.replicate 32 9) = List.replicate 32 0)
    (sig : Config.ed25519 (List.replicate 32 9) (Config.sha256 (library.take 160)) (List.replicate 64 9) = true) :
    ∃ (a n v : Nat) (ks : List Kernel) (s : State), s.Inv ∧ s.eng.op = some (.load a n) ∧ s.libCheck a n = (0, ks, v) := by
  have k : loading.physRead (0x8000 + leAt (loading.physRead 0x8000 64) 12 4 - 96) 32 = List.replicate 32 9 := by decide +kernel
  have g : loading.physRead (0x8000 + leAt (loading.physRead 0x8000 64) 12 4 - 64) 64 = List.replicate 64 9 := by decide +kernel
  have b : loading.physRead 0x8000 (leAt (loading.physRead 0x8000 64) 12 4 - 96) = library.take 160 := by decide +kernel
  have v : loading.vendorHash = List.replicate 32 0 := by decide +kernel
  refine ⟨0x8000, 256, 3, [libKernel], loading,
    ⟨by decide +kernel, by decide +kernel, by decide +kernel⟩, by decide +kernel, ?_⟩
  unfold State.libCheck
  simp only [k, g, b, v, hash, sig]
  decide +kernel

/-- A package of 256 bytes with one part: 16 bytes 5 as the operator library, version 9. -/
def package : List Byte :=
  let body := leBytes 4 (2 * 2 ^ 30 + 5 * 2 ^ 22 + 16)
  [0x45, 0x50, 0x46, 0x49] ++ leBytes 2 1 ++ [1, 1] ++ leBytes 4 256 ++ leBytes 4 77 ++ [0x54] ++ List.replicate 15 0 ++
    ([4, 1] ++ leBytes 2 0 ++ leBytes 4 9 ++ leBytes 4 224 ++ leBytes 4 32 ++ leBytes 4 16 ++ leBytes 4 0x30000 ++ leBytes 4 0x1000 ++
      List.replicate 4 0 ++ List.replicate 32 0 ++ List.replicate 32 0x6B) ++ List.replicate 96 9 ++
    (leBytes 4 0 ++ leBytes 4 4 ++ leBytes 4 (crc 0 0 body) ++ List.replicate 4 0 ++ body ++ List.replicate 12 0)

/-- Its nonzero bytes at 0x4000. -/
def packageMem : List (Nat × Byte) :=
  [(16384, 69), (16385, 80), (16386, 70), (16387, 73), (16388, 1), (16390, 1), (16391, 1), (16393, 1), (16396, 77), (16400, 84),
   (16416, 4), (16417, 1), (16420, 9), (16424, 224), (16428, 32), (16432, 16), (16438, 3), (16441, 16), (16480, 107), (16481, 107),
   (16482, 107), (16483, 107), (16484, 107), (16485, 107), (16486, 107), (16487, 107), (16488, 107), (16489, 107), (16490, 107), (16491, 107),
   (16492, 107), (16493, 107), (16494, 107), (16495, 107), (16496, 107), (16497, 107), (16498, 107), (16499, 107), (16500, 107), (16501, 107),
   (16502, 107), (16503, 107), (16504, 107), (16505, 107), (16506, 107), (16507, 107), (16508, 107), (16509, 107), (16510, 107), (16511, 107),
   (16512, 9), (16513, 9), (16514, 9), (16515, 9), (16516, 9), (16517, 9), (16518, 9), (16519, 9), (16520, 9), (16521, 9)] ++
  [(16522, 9), (16523, 9), (16524, 9), (16525, 9), (16526, 9), (16527, 9), (16528, 9), (16529, 9), (16530, 9), (16531, 9),
   (16532, 9), (16533, 9), (16534, 9), (16535, 9), (16536, 9), (16537, 9), (16538, 9), (16539, 9), (16540, 9), (16541, 9),
   (16542, 9), (16543, 9), (16544, 9), (16545, 9), (16546, 9), (16547, 9), (16548, 9), (16549, 9), (16550, 9), (16551, 9),
   (16552, 9), (16553, 9), (16554, 9), (16555, 9), (16556, 9), (16557, 9), (16558, 9), (16559, 9), (16560, 9), (16561, 9),
   (16562, 9), (16563, 9), (16564, 9), (16565, 9), (16566, 9), (16567, 9), (16568, 9), (16569, 9), (16570, 9), (16571, 9),
   (16572, 9), (16573, 9), (16574, 9), (16575, 9), (16576, 9), (16577, 9), (16578, 9), (16579, 9), (16580, 9), (16581, 9)] ++
  [(16582, 9), (16583, 9), (16584, 9), (16585, 9), (16586, 9), (16587, 9), (16588, 9), (16589, 9), (16590, 9), (16591, 9),
   (16592, 9), (16593, 9), (16594, 9), (16595, 9), (16596, 9), (16597, 9), (16598, 9), (16599, 9), (16600, 9), (16601, 9),
   (16602, 9), (16603, 9), (16604, 9), (16605, 9), (16606, 9), (16607, 9), (16612, 4), (16616, 133), (16617, 132), (16618, 137),
   (16619, 46), (16624, 16), (16626, 64), (16627, 129)]

/-- Morning with that package at 0x4000, which STAGE has taken. -/
def staging : State :=
  put { withFlash with mem := packageMem, upd := { seq := 8 } }
    [(F.UPD_STATUS_STATE, 1), (F.UPD_PKG_ADDR_LO_ADDR, 0x400), (F.UPD_PKG_LEN_LEN, 256)]

/-- The state after its one part is built. -/
def staged : State := ((staging.wr F.UPD_RELEASE_V 77).flashProgram 0x30000 0x1000 (List.replicate 16 5)).wr F.UPD_PROGRESS_V 16

/-- Whatever hash and signature are, a package that they accept is staged. -/
theorem wit_updateComplete_2_2 (key : Config.sha256 (List.replicate 32 9) = List.replicate 32 0)
    (sig : Config.ed25519 (List.replicate 32 9) (Config.sha256 (package.take 128)) (List.replicate 64 9) = true)
    (out : Config.sha256 (List.replicate 16 5) = List.replicate 32 0x6B) :
    ∃ (s : State) (o : Nat) (d : List Byte) (outs : List (List Byte)) (u : State), s.Inv ∧ s.rd F.UPD_STATUS_STATE = 1 ∧
      let addr := s.rd F.UPD_PKG_ADDR_HI_ADDR * 2 ^ 32 + 16 * s.rd F.UPD_PKG_ADDR_LO_ADDR
      let len := s.rd F.UPD_PKG_LEN_LEN
      let head := s.physRead addr (min len 512)
      let v := s.wr F.UPD_RELEASE_V (leAt head 12 4)
      let pkg := v.physRead addr (leAt head 8 4)
      s.pkgOk addr len head = true ∧ (∀ p < leAt head 6 1, partOk head p = true) ∧ s.pkgSigned head = true ∧
      dirInForce (fun a => KMap.get (fun _ => 0xFF) s.boot.flash a) = some (o, d) ∧
      (∀ p < (partsOf pkg).length, (partOf pkg p).full = true ∨
        (dirFind d (partOf pkg p).typ (dirActive d (partOf pkg p).typ)).map (fun e => e.digest) = some (partOf pkg p).base) ∧
      (∀ p < (partsOf pkg).length, v.slotOk d (partsOf pkg) p (partOf pkg p) = true) ∧
      v.buildParts d pkg none 0 (partsOf pkg) = .inr (outs, u) ∧ u.outputFails (partsOf pkg) outs = none := by
  have a : staging.rd F.UPD_PKG_ADDR_HI_ADDR * 2 ^ 32 + 16 * staging.rd F.UPD_PKG_ADDR_LO_ADDR = 0x4000 := by decide +kernel
  have l : staging.rd F.UPD_PKG_LEN_LEN = 256 := by decide +kernel
  have h : staging.physRead 0x4000 (min 256 512) = package := by decide +kernel
  have q : (staging.wr F.UPD_RELEASE_V 77).physRead 0x4000 256 = package := by decide +kernel
  have r : leAt package 12 4 = 77 := by decide +kernel
  have n : leAt package 8 4 = 256 := by decide +kernel
  have p : partsOf package = [partOf package 0] := by decide +kernel
  have w : (staging.wr F.UPD_RELEASE_V 77).vendorHash = List.replicate 32 0 := by decide +kernel
  have w' : staging.vendorHash = List.replicate 32 0 := by decide +kernel
  have ko : (package.drop (manifestLen package)).take 32 = List.replicate 32 9 := by decide +kernel
  have so : (package.drop (manifestLen package + 32)).take 64 = List.replicate 64 9 := by decide +kernel
  have mo : package.take (manifestLen package) = package.take 128 := by decide +kernel
  have x : (partOf package 0).full = true := by decide +kernel
  have z : (package.drop (partOf package 0).dataOff).take (partOf package 0).dataLen = package.drop 224 := by decide +kernel
  have nl : (partOf package 0).newLen = 16 := by decide +kernel
  have so' : (partOf package 0).slotOff = 0x30000 := by decide +kernel
  have ss : (partOf package 0).slotSize = 0x1000 := by decide +kernel
  have dg : (partOf package 0).digest = List.replicate 32 0x6B := by decide +kernel
  have ty : (partOf package 0).typ = 4 := by decide +kernel
  have pr : (staging.wr F.UPD_RELEASE_V 77).rd F.UPD_PROGRESS_V = 0 := by decide +kernel
  have blocks : runBlocks (partOf package 0) ((staging.wr F.UPD_RELEASE_V 77).baseOf bootDirectory 4) (package.drop 224) 0
      (ceilDiv 16 65536) = .inr (List.replicate 16 5) := by decide +kernel
  have sum : 0 + (List.replicate 16 (5 : Byte)).length = 16 := rfl
  refine ⟨staging, 0, bootDirectory, [List.replicate 16 5], staged, ⟨by decide +kernel, by decide +kernel, by decide +kernel⟩, by decide +kernel, ?_⟩
  simp only [a, l, h, r, n, q, p]
  have fl : staging.boot.flash = flashed := rfl
  have ok : staging.pkgOk 0x4000 256 package = true := by decide +kernel
  have po : ∀ p < leAt package 6 1, partOk package p = true := by decide +kernel
  have sl : (staging.wr F.UPD_RELEASE_V 77).slotOk bootDirectory [partOf package 0] 0 (partOf package 0) = true := by decide +kernel
  have one : ∀ p : Nat, p < [partOf package 0].length → p = 0 := fun p hp => Nat.lt_one_iff.mp hp
  refine ⟨ok, po, ?_, by rw [fl]; exact flashed_directory, fun p hp => .inl ?_, fun p hp => ?_, ?_, ?_⟩
  · unfold State.pkgSigned
    simp only [ko, so, mo, w', key, sig]
    decide +kernel
  · rw [one p hp]; exact x
  · rw [one p hp]; exact sl
  · simp only [State.buildParts, State.buildPart, z, nl, so', ss, ty, blocks, staged, pr, sum]
  · simp only [State.outputFails, List.zip_cons_cons, List.zip_nil_right, List.mapIdx_cons, List.mapIdx_nil, List.findSome?_cons, out, dg, ty,
      State.compOk]
    rfl

/-- Morning while an activation of one operator library part writes its directory. -/
def activating : State :=
  { withFlash with upd := { writing := true, parts :=
      [{ typ := 4, slotOff := 0x30000, newLen := 16, digest := Config.sha256 (srcBytes flashByte 0x30000 16) }] } }.wr F.UPD_STATUS_STATE 3

theorem wit_updateComplete_3 : ∃ (s : State) (off : Nat) (d : List Byte), s.Inv ∧ s.rd F.UPD_STATUS_STATE = 3 ∧
    (s.upd.writing = true ∨ (s.maintPending = false ∧ s.updRefusals = 0)) ∧
    (∀ x ∈ s.upd.parts, Config.sha256 (s.flashBytes x.slotOff x.newLen) = x.digest) ∧
    dirInForce (fun a => KMap.get (fun _ => 0xFF) s.boot.flash a) = some (off, d) ∧ s.pwr.afterUpd = none ∧
    (s.upd.nextBoot = true ∨ s.hasPart 3 = false) := by
  have fl : activating.boot.flash = flashed := rfl
  have ps : activating.upd.parts =
    [{ typ := 4, slotOff := 0x30000, newLen := 16, digest := Config.sha256 (srcBytes flashByte 0x30000 16) }] := rfl
  refine ⟨activating, 0, bootDirectory, ⟨by decide +kernel, by decide +kernel, by decide +kernel⟩, by decide +kernel, .inl rfl, ?_,
    by rw [fl]; exact flashed_directory, by decide +kernel, .inr (by decide +kernel)⟩
  intro x hx
  rw [ps, List.mem_singleton] at hx
  subst hx
  rw [State.flashBytes, fl]
  exact congrArg (fun f => Config.sha256 (srcBytes f 0x30000 16)) flashed_eq

end Sys2Proof.Tests
end

section
/-! SUPPORT. Every command keeps the invariant and leaves what `touched` does not give it; so does every step. The discovery registers
and the reset state follow. -/

namespace Sys2Proof.Machine

/-- The mask of a list of parts: the bits that stand for them. -/
def Part.maskOf (ps : List Part) : Nat := ps.foldr (fun p m => 1 <<< p.bit ||| m) 0

/-- A mask lies within the mask of a command's parts when that mask takes nothing away from it. -/
theorem Within.touched {a : Nat} {c : Instr}
    (e : a &&& Part.maskOf (touched c) = a := by simp only [touched]; decide) : Within a (Part.maskOf (touched c)) :=
  (Within.refl _).of e

/-- One law for all commands: each one's own law, on the parts that `touched` gives it. -/
theorem exec_keeps {s t : State} : ∀ c : Instr, exec c s = .next t → s.Keeps (Part.maskOf (touched c)) t
  | .registerWrite src off size val, e => execRegisterWrite_keeps src off size val s (.refl s _) e .touched
  | .sealHaltClr src val, e => execSealHaltClr_keeps src val s (.refl s _) e .touched
  | .sealEvtPop src val, e => execSealEvtPop_keeps src val s (.refl s _) e .touched
  | .clrCounts src val inc, e => execClrCounts_keeps src val inc s (.refl s _) e .touched
  | .ckvStart src unit val, e => execCkvStart_keeps src unit val s (.refl s _) e .touched
  | .ckvDataWrite src unit lane size val, e => execCkvDataWrite_keeps src unit lane size val s (.refl s _) e .touched
  | .ckvByteConsumed unit, e => execCkvByteConsumed_keeps unit s (.refl s _) e .touched
  | .ckvResultRead unit which, e => execCkvResultRead_keeps unit which s (.refl s _) e .touched
  | .load src val, e => execLoad_keeps src val s (.refl s _) e .touched
  | .arm src val, e => execArm_keeps src val s (.refl s _) e .touched
  | .strCancel src val, e => execStrCancel_keeps src val s (.refl s _) e .touched
  | .retireForce src val, e => execRetireForce_keeps src val s (.refl s _) e .touched
  | .validationDone, e => execValidationDone_keeps s (.refl s _) e .touched
  | .preparationDone, e => execPreparationDone_keeps s (.refl s _) e .touched
  | .timebaseEpoch tb cancel, e => execTimebaseEpoch_keeps tb cancel s (.refl s _) e .touched
  | .timebaseLost tb, e => execTimebaseLost_keeps tb s (.refl s _) e .touched
  | .hqAlloc src pairB val, e => execHqAlloc_keeps src pairB val s (.refl s _) e .touched
  | .hqQcfgWrite src which val, e => execHqQcfgWrite_keeps src which val s (.refl s _) e .touched
  | .enable src, e => execEnable_keeps src s (.refl s _) e .touched
  | .disable src, e => execDisable_keeps src s (.refl s _) e .touched
  | .qcmdFree src, e => execQcmdFree_keeps src s (.refl s _) e .touched
  | .flush src, e => execFlush_keeps src s (.refl s _) e .touched
  | .clearHighWater src, e => execClearHighWater_keeps src s (.refl s _) e .touched
  | .hqDbPush src val, e => execHqDbPush_keeps src val s (.refl s _) e .touched
  | .hqDbPop src val, e => execHqDbPop_keeps src val s (.refl s _) e .touched
  | .descriptorWriteDenied addr bytes, e => execDescriptorWriteDenied_keeps addr bytes s (.refl s _) e .touched
  | .reservation qid reqs, e => execReservation_keeps qid reqs s (.refl s _) e .touched
  | .reservationRetry qid, e => execReservationRetry_keeps qid s (.refl s _) e .touched
  | .entryCommit qid idx addr eflags len16 seq, e => execEntryCommit_keeps qid idx addr eflags len16 seq s (.refl s _) e .touched
  | .entryPop qid idx, e => execEntryPop_keeps qid idx s (.refl s _) e .touched
  | .taskCreate node, e => execTaskCreate_keeps node s (.refl s _) e .touched
  | .taskDispatch list, e => execTaskDispatch_keeps list s (.refl s _) e .touched
  | .preemptRequest slot, e => execPreemptRequest_keeps slot s (.refl s _) e .touched
  | .preemptGraceExpiry cluster, e => execPreemptGraceExpiry_keeps cluster s (.refl s _) e .touched
  | .taskResume unit, e => execTaskResume_keeps unit s (.refl s _) e .touched
  | .schCancel src val completed, e => execSchCancel_keeps src val completed s (.refl s _) e .touched
  | .histClr src mon val, e => execHistClr_keeps src mon val s (.refl s _) e .touched
  | .loadWindowEnd, e => execLoadWindowEnd_keeps s (.refl s _) e .touched
  | .clrHigh src val, e => execClrHigh_keeps src val s (.refl s _) e .touched
  | .holeAccess acc, e => execHoleAccess_keeps acc s (.refl s _) e .touched
  | .sysregWrite addr bytes, e => execSysregWrite_keeps addr bytes s (.refl s _) e .touched
  | .qdrReadCheck addr first second rmw, e => execQdrReadCheck_keeps addr first second rmw s (.refl s _) e .touched
  | .retrain src val trains, e => execRetrain_keeps src val trains s (.refl s _) e .touched
  | .driftLimit ch steps, e => execDriftLimit_keeps ch steps s (.refl s _) e .touched
  | .qdrErrPop src val, e => execQdrErrPop_keeps src val s (.refl s _) e .touched
  | .xltSpaceReq src val, e => execXltSpaceReq_keeps src val s (.refl s _) e .touched
  | .spaceEnable src, e => execSpaceEnable_keeps src s (.refl s _) e .touched
  | .spaceDisable src, e => execSpaceDisable_keeps src s (.refl s _) e .touched
  | .spaceFree src, e => execSpaceFree_keeps src s (.refl s _) e .touched
  | .spaceRootWrite src hi val, e => execSpaceRootWrite_keeps src hi val s (.refl s _) e .touched
  | .xltInvCmd src val, e => execXltInvCmd_keeps src val s (.refl s _) e .touched
  | .invalidationDone, e => execInvalidationDone_keeps s (.refl s _) e .touched
  | .translationFault acc stop badLevel, e => execTranslationFault_keeps acc stop badLevel s (.refl s _) e .touched
  | .faultQueueWaitEnd, e => execFaultQueueWaitEnd_keeps s (.refl s _) e .touched
  | .retry src, e => execRetry_keeps src s (.refl s _) e .touched
  | .abort src, e => execAbort_keeps src s (.refl s _) e .touched
  | .retrySpace src, e => execRetrySpace_keeps src s (.refl s _) e .touched
  | .dmaDb src mover val, e => execDmaDb_keeps src mover val s (.refl s _) e .touched
  | .descriptorExecute mover, e => execDescriptorExecute_keeps mover s (.refl s _) e .touched
  | .descriptorComplete mover, e => execDescriptorComplete_keeps mover s (.refl s _) e .touched
  | .tget eng pc rd rs1 imm, e => execTget_keeps eng pc rd rs1 imm s (.refl s _) e .touched
  | .tput eng pc rd rs1 imm, e => execTput_keeps eng pc rd rs1 imm s (.refl s _) e .touched
  | .tchk eng pc rd rs1 imm, e => execTchk_keeps eng pc rd rs1 imm s (.refl s _) e .touched
  | .qsig eng pc rd rs1 rs2 funct7, e => execQsig_keeps eng pc rd rs1 rs2 funct7 s (.refl s _) e .touched
  | .qwait eng pc rd rs1 rs2 funct7, e => execQwait_keeps eng pc rd rs1 rs2 funct7 s (.refl s _) e .touched
  | .ppt eng pc, e => execPpt_keeps eng pc s (.refl s _) e .touched
  | .ecall eng a0, e => execEcall_keeps eng a0 s (.refl s _) e .touched
  | .engineTrap eng cause tval pc, e => execEngineTrap_keeps eng cause tval pc s (.refl s _) e .touched
  | .install src val, e => execInstall_keeps src val s (.refl s _) e .touched
  | .libLoad src val, e => execLibLoad_keeps src val s (.refl s _) e .touched
  | .libOperationDone, e => execLibOperationDone_keeps s (.refl s _) e .touched
  | .cntClr src val, e => execCntClr_keeps src val s (.refl s _) e .touched
  | .groupEnable src group val, e => execGroupEnable_keeps src group val s (.refl s _) e .touched
  | .slkCntClr src group val inc, e => execSlkCntClr_keeps src group val inc s (.refl s _) e .touched
  | .cdrLocked lane, e => execCdrLocked_keeps lane s (.refl s _) e .touched
  | .laneAligned lane, e => execLaneAligned_keeps lane s (.refl s _) e .touched
  | .laneAlignLoss lane groups, e => execLaneAlignLoss_keeps lane groups s (.refl s _) e .touched
  | .deskew group skews together, e => execDeskew_keeps group skews together s (.refl s _) e .touched
  | .fs group pkt cancel, e => execFs_keeps group pkt cancel s (.refl s _) e .touched
  | .fe group pkt, e => execFe_keeps group pkt s (.refl s _) e .touched
  | .line group pkt, e => execLine_keeps group pkt s (.refl s _) e .touched
  | .emb group pkt, e => execEmb_keeps group pkt s (.refl s _) e .touched
  | .cmdRsp group pkt, e => execCmdRsp_keeps group pkt s (.refl s _) e .touched
  | .test group pkt, e => execTest_keeps group pkt s (.refl s _) e .touched
  | .tileRowEmit node, e => execTileRowEmit_keeps node s (.refl s _) e .touched
  | .laneUnderrun group, e => execLaneUnderrun_keeps group s (.refl s _) e .touched
  | .seqStart src group val, e => execSeqStart_keeps src group val s (.refl s _) e .touched
  | .seqStop src group val, e => execSeqStop_keeps src group val s (.refl s _) e .touched
  | .seqEntry group, e => execSeqEntry_keeps group s (.refl s _) e .touched
  | .seqRspTimeout group, e => execSeqRspTimeout_keeps group s (.refl s _) e .touched
  | .spareTakeover src group val, e => execSpareTakeover_keeps src group val s (.refl s _) e .touched
  | .release src group val, e => execRelease_keeps src group val s (.refl s _) e .touched
  | .spareMatch group, e => execSpareMatch_keeps group s (.refl s _) e .touched
  | .spareFail group, e => execSpareFail_keeps group s (.refl s _) e .touched
  | .mirror group, e => execMirror_keeps group s (.refl s _) e .touched
  | .testGo src group val, e => execTestGo_keeps src group val s (.refl s _) e .touched
  | .testRunEnd group, e => execTestRunEnd_keeps group s (.refl s _) e .touched
  | .clockLost group, e => execClockLost_keeps group s (.refl s _) e .touched
  | .clockWindowEnd group ppm, e => execClockWindowEnd_keeps group ppm s (.refl s _) e .touched
  | .glitch group, e => execGlitch_keeps group s (.refl s _) e .touched
  | .magPortEnable src port val, e => execMagPortEnable_keeps src port val s (.refl s _) e .touched
  | .magShutdownEnd port, e => execMagShutdownEnd_keeps port s (.refl s _) e .touched
  | .hwqEn src port val, e => execHwqEn_keeps src port val s (.refl s _) e .touched
  | .magLinkChange port up speed width, e => execMagLinkChange_keeps port up speed width s (.refl s _) e .touched
  | .inboundRequest port write addr len bytes, e => execInboundRequest_keeps port write addr len bytes s (.refl s _) e .touched
  | .magPCfga src port val answer, e => execMagPCfga_keeps src port val answer s (.refl s _) e .touched
  | .extCountWrite src port val, e => execExtCountWrite_keeps src port val s (.refl s _) e .touched
  | .frameAdmit input, e => execFrameAdmit_keeps input s (.refl s _) e .touched
  | .recordingTile input, e => execRecordingTile_keeps input s (.refl s _) e .touched
  | .frameDrain, e => execFrameDrain_keeps s (.refl s _) e .touched
  | .nvmeCompletion port, e => execNvmeCompletion_keeps port s (.refl s _) e .touched
  | .magTimeout port cid, e => execMagTimeout_keeps port cid s (.refl s _) e .touched
  | .recordAcknowledged port, e => execRecordAcknowledged_keeps port s (.refl s _) e .touched
  | .start src, e => execStart_keeps src s (.refl s _) e .touched
  | .stop src, e => execStop_keeps src s (.refl s _) e .touched
  | .takeAbort src, e => execTakeAbort_keeps src s (.refl s _) e .touched
  | .closing, e => execClosing_keeps s (.refl s _) e .touched
  | .magLost port, e => execMagLost_keeps port s (.refl s _) e .touched
  | .encInputTile ctx, e => execEncInputTile_keeps ctx s (.refl s _) e .touched
  | .contextSwitch core, e => execContextSwitch_keeps core s (.refl s _) e .touched
  | .ctuRowCode core row, e => execCtuRowCode_keeps core row s (.refl s _) e .touched
  | .key src ctx val, e => execKey_keeps src ctx val s (.refl s _) e .touched
  | .markLt src ctx val, e => execMarkLt_keeps src ctx val s (.refl s _) e .touched
  | .useLt src ctx val, e => execUseLt_keeps src ctx val s (.refl s _) e .touched
  | .encStreamEnable src ctx val, e => execEncStreamEnable_keeps src ctx val s (.refl s _) e .touched
  | .encShutdownEnd ctx, e => execEncShutdownEnd_keeps ctx s (.refl s _) e .touched
  | .rateWrite src ctx which val, e => execRateWrite_keeps src ctx which val s (.refl s _) e .touched
  | .decInputChunk events, e => execDecInputChunk_keeps events s (.refl s _) e .touched
  | .decPictureOutput, e => execDecPictureOutput_keeps s (.refl s _) e .touched
  | .layerTile slot, e => execLayerTile_keeps slot s (.refl s _) e .touched
  | .frameBoundary head cancel, e => execFrameBoundary_keeps head cancel s (.refl s _) e .touched
  | .syncHoldover head what, e => execSyncHoldover_keeps head what s (.refl s _) e .touched
  | .headEnable src head val, e => execHeadEnable_keeps src head val s (.refl s _) e .touched
  | .headUnderrun head line col, e => execHeadUnderrun_keeps head line col s (.refl s _) e .touched
  | .go src head val, e => execGo_keeps src head val s (.refl s _) e .touched
  | .commitCancel src head val, e => execCommitCancel_keeps src head val s (.refl s _) e .touched
  | .coefLoadDone slot, e => execCoefLoadDone_keeps slot s (.refl s _) e .touched
  | .sdiEnable src ser val, e => execSdiEnable_keeps src ser val s (.refl s _) e .touched
  | .netCfgWrite src val, e => execNetCfgWrite_keeps src val s (.refl s _) e .touched
  | .netPortEnable src port val, e => execNetPortEnable_keeps src port val s (.refl s _) e .touched
  | .netLinkChange port up, e => execNetLinkChange_keeps port up s (.refl s _) e .touched
  | .frameReceive port bytes fcsOk, e => execFrameReceive_keeps port bytes fcsOk s (.refl s _) e .touched
  | .softwareFrameTx port, e => execSoftwareFrameTx_keeps port s (.refl s _) e .touched
  | .senderTile slot, e => execSenderTile_keeps slot s (.refl s _) e .touched
  | .senderPacketDue slot, e => execSenderPacketDue_keeps slot s (.refl s _) e .touched
  | .frameTransmit port, e => execFrameTransmit_keeps port s (.refl s _) e .touched
  | .commit src port val, e => execCommit_keeps src port val s (.refl s _) e .touched
  | .gateCancel src port val late, e => execGateCancel_keeps src port val late s (.refl s _) e .touched
  | .gateListChange port, e => execGateListChange_keeps port s (.refl s _) e .touched
  | .gateEntryChange port, e => execGateEntryChange_keeps port s (.refl s _) e .touched
  | .tsnIdleWrite src port cls val, e => execTsnIdleWrite_keeps src port cls val s (.refl s _) e .touched
  | .tsnHiWrite src port cls val, e => execTsnHiWrite_keeps src port cls val s (.refl s _) e .touched
  | .sync msg, e => execSync_keeps msg s (.refl s _) e .touched
  | .followUp msg, e => execFollowUp_keeps msg s (.refl s _) e .touched
  | .delayResp msg, e => execDelayResp_keeps msg s (.refl s _) e .touched
  | .announce msg data, e => execAnnounce_keeps msg data s (.refl s _) e .touched
  | .ptpMasterLost, e => execPtpMasterLost_keeps s (.refl s _) e .touched
  | .ptpMasterSend announce, e => execPtpMasterSend_keeps announce s (.refl s _) e .touched
  | .ppsEdge, e => execPpsEdge_keeps s (.refl s _) e .touched
  | .ppsLost, e => execPpsLost_keeps s (.refl s _) e .touched
  | .setTime src val, e => execSetTime_keeps src val s (.refl s _) e .touched
  | .adjust src val, e => execAdjust_keeps src val s (.refl s _) e .touched
  | .latch src val, e => execLatch_keeps src val s (.refl s _) e .touched
  | .aoPpbMeasure ppb, e => execAoPpbMeasure_keeps ppb s (.refl s _) e .touched
  | .tpoEnable src out val, e => execTpoEnable_keeps src out val s (.refl s _) e .touched
  | .tpoPulseStart out, e => execTpoPulseStart_keeps out s (.refl s _) e .touched
  | .tpoPulseEnd out, e => execTpoPulseEnd_keeps out s (.refl s _) e .touched
  | .tpoCapture out, e => execTpoCapture_keeps out s (.refl s _) e .touched
  | .samplePeriod port din, e => execSamplePeriod_keeps port din s (.refl s _) e .touched
  | .audTxTile port, e => execAudTxTile_keeps port s (.refl s _) e .touched
  | .audPortEnable src port val, e => execAudPortEnable_keeps src port val s (.refl s _) e .touched
  | .txMute src port val, e => execTxMute_keeps src port val s (.refl s _) e .touched
  | .zcTimeout port slot, e => execZcTimeout_keeps port slot s (.refl s _) e .touched
  | .audClockChange port lost ppm glitches, e => execAudClockChange_keeps port lost ppm glitches s (.refl s _) e .touched
  | .audGroupWrite src group val, e => execAudGroupWrite_keeps src group val s (.refl s _) e .touched
  | .bar0Access write off size val, e => execBar0Access_keeps write off size val s (.refl s _) e .touched
  | .bar2Access off len write, e => execBar2Access_keeps off len write s (.refl s _) e .touched
  | .cplTimeout len, e => execCplTimeout_keeps len s (.refl s _) e .touched
  | .hostReset linkDown, e => execHostReset_keeps linkDown s (.refl s _) e .touched
  | .msixMessage, e => execMsixMessage_keeps s (.refl s _) e .touched
  | .hifChDb src ch val, e => execHifChDb_keeps src ch val s (.refl s _) e .touched
  | .hostOutTile ch, e => execHostOutTile_keeps ch s (.refl s _) e .touched
  | .hostInEntry ch, e => execHostInEntry_keeps ch s (.refl s _) e .touched
  | .xspiGo src val resp, e => execXspiGo_keeps src val resp s (.refl s _) e .touched
  | .i2cTransfer master addr wrote result, e => execI2cTransfer_keeps master addr wrote result s (.refl s _) e .touched
  | .uartReceive uart byte, e => execUartReceive_keeps uart byte s (.refl s _) e .touched
  | .gpioEdge pin level, e => execGpioEdge_keeps pin level s (.refl s _) e .touched
  | .claim src unit both, e => execClaim_keeps src unit both s (.refl s _) e .touched
  | .force src unit, e => execForce_keeps src unit s (.refl s _) e .touched
  | .yield src unit, e => execYield_keeps src unit s (.refl s _) e .touched
  | .ready src unit, e => execReady_keeps src unit s (.refl s _) e .touched
  | .declareFault src unit, e => execDeclareFault_keeps src unit s (.refl s _) e .touched
  | .clearFault src unit, e => execClearFault_keeps src unit s (.refl s _) e .touched
  | .drill src unit, e => execDrill_keeps src unit s (.refl s _) e .touched
  | .cuxUKick src unit val, e => execCuxUKick_keeps src unit val s (.refl s _) e .touched
  | .selfFault unit cause, e => execSelfFault_keeps unit cause s (.refl s _) e .touched
  | .jtxDb src unit val, e => execJtxDb_keeps src unit val s (.refl s _) e .touched
  | .heartbeat unit pathK, e => execHeartbeat_keeps unit pathK s (.refl s _) e .touched
  | .pathDown unit pathK, e => execPathDown_keeps unit pathK s (.refl s _) e .touched
  | .switchOverGapEnd cycles, e => execSwitchOverGapEnd_keeps cycles s (.refl s _) e .touched
  | .doorbellHold src off val, e => execDoorbellHold_keeps src off val s (.refl s _) e .touched
  | .ownershipLost cycles, e => execOwnershipLost_keeps cycles s (.refl s _) e .touched
  | .returnPref, e => execReturnPref_keeps s (.refl s _) e .touched
  | .drillEnd, e => execDrillEnd_keeps s (.refl s _) e .touched
  | .underVoltageLockout vin, e => execUnderVoltageLockout_keeps vin s (.refl s _) e .touched
  | .overTemp die temp, e => execOverTemp_keeps die temp s (.refl s _) e .touched
  | .tempWarn die, e => execTempWarn_keeps die s (.refl s _) e .touched
  | .lowInput, e => execLowInput_keeps s (.refl s _) e .touched
  | .lowin1s, e => execLowin1s_keeps s (.refl s _) e .touched
  | .telemetrySample mv ma temps, e => execTelemetrySample_keeps mv ma temps s (.refl s _) e .touched
  | .sleep src val, e => execSleep_keeps src val s (.refl s _) e .touched
  | .duskStepEnd, e => execDuskStepEnd_keeps s (.refl s _) e .touched
  | .wakeSource tick, e => execWakeSource_keeps tick s (.refl s _) e .touched
  | .islandDemand island, e => execIslandDemand_keeps island s (.refl s _) e .touched
  | .islandAwake island, e => execIslandAwake_keeps island s (.refl s _) e .touched
  | .idleCountExpiry island, e => execIdleCountExpiry_keeps island s (.refl s _) e .touched
  | .islandAsleep island, e => execIslandAsleep_keeps island s (.refl s _) e .touched
  | .forceAwake src island val, e => execForceAwake_keeps src island val s (.refl s _) e .touched
  | .clkFclkWrite src eclk val, e => execClkFclkWrite_keeps src eclk val s (.refl s _) e .touched
  | .clockSwitch domain, e => execClockSwitch_keeps domain s (.refl s _) e .touched
  | .clkCclkWrite src unit val, e => execClkCclkWrite_keeps src unit val s (.refl s _) e .touched
  | .coldStart vin pref sel dev, e => execColdStart_keeps vin pref sel dev s (.refl s _) e .touched
  | .porst us, e => execPorst_keeps us s (.refl s _) e .touched
  | .warmReset src val ticks, e => execWarmReset_keeps src val ticks s (.refl s _) e .touched
  | .restartUnit src unit, e => execRestartUnit_keeps src unit s (.refl s _) e .touched
  | .unitRelease unit, e => execUnitRelease_keeps unit s (.refl s _) e .touched
  | .keeperWatchdog, e => execKeeperWatchdog_keeps s (.refl s _) e .touched
  | .kprHostGo src val, e => execKprHostGo_keeps src val s (.refl s _) e .touched
  | .fuseProgCmd src val, e => execFuseProgCmd_keeps src val s (.refl s _) e .touched
  | .idread, e => execIdread_keeps s (.refl s _) e .touched
  | .idcode, e => execIdcode_keeps s (.refl s _) e .touched
  | .bistGo src slot val, e => execBistGo_keeps src slot val s (.refl s _) e .touched
  | .bistAbort src slot val result, e => execBistAbort_keeps src slot val result s (.refl s _) e .touched
  | .bistRunning slot, e => execBistRunning_keeps slot s (.refl s _) e .touched
  | .bistDone slot result, e => execBistDone_keeps slot result s (.refl s _) e .touched
  | .now src val, e => execNow_keeps src val s (.refl s _) e .touched
  | .calTempTrigger, e => execCalTempTrigger_keeps s (.refl s _) e .touched
  | .calPosition trims spareFails underrun, e => execCalPosition_keeps trims spareFails underrun s (.refl s _) e .touched
  | .deferredActivityStart, e => execDeferredActivityStart_keeps s (.refl s _) e .touched
  | .stage src val, e => execStage_keeps src val s (.refl s _) e .touched
  | .stagingDone flashError, e => execStagingDone_keeps flashError s (.refl s _) e .touched
  | .activate src val, e => execActivate_keeps src val s (.refl s _) e .touched
  | .activationPoint readBackOk, e => execActivationPoint_keeps readBackOk s (.refl s _) e .touched
  | .handoverStep, e => execHandoverStep_keeps s (.refl s _) e .touched
  | .handoverTimeout, e => execHandoverTimeout_keeps s (.refl s _) e .touched
  | .updCancel src val, e => execUpdCancel_keeps src val s (.refl s _) e .touched
  | .dmaTaskComplete mover, e => execDmaTaskComplete_keeps mover s (.refl s _) e .touched
  | .hostLinkUp speed width, e => execHostLinkUp_keeps speed width s (.refl s _) e .touched
  | .busMasterEnable bme msixEn msixMask, e => execBusMasterEnable_keeps bme msixEn msixMask s (.refl s _) e .touched
  | .delayReq msg, e => execDelayReq_keeps msg s (.refl s _) e .touched
  | .minDelayReqInterval, e => execMinDelayReqInterval_keeps s (.refl s _) e .touched
  | .fuseReadBack ok, e => execFuseReadBack_keeps ok s (.refl s _) e .touched
  | .dmi hart halt, e => execDmi_keeps hart halt s (.refl s _) e .touched

/-- A command carries the invariant over. -/
theorem exec_inv {c : Instr} {s t : State} (i : s.Inv) (e : exec c s = .next t) : t.Inv := (exec_keeps c e).inv i

/-- One REF cycle carries the invariant over. -/
theorem State.tick_inv {s : State} (i : s.Inv) : s.tick.Inv := (State.tick_keeps s (.refl s 0x3fffffff) (.refl _)).inv i

/-- The invariant does not look at the commands that wait. -/
theorem State.setPending_inv {s : State} (i : s.Inv) (l : List Instr) : (s.setPending l).Inv := ⟨i.mem, i.regs, i.disc⟩

/-- A step carries the invariant over. -/
theorem step_inv {s t : State} (i : s.Inv) (e : step s = .next t) : t.Inv := by
  unfold step at e
  split at e
  · cases e
    exact State.tick_inv i
  · exact exec_inv (State.setPending_inv i _) e

/-- The cold reset meets the invariant: nothing is listed. -/
theorem State.reset_inv : State.reset.Inv := ⟨rfl, rfl, fun _ h => absurd h List.not_mem_nil⟩

/-- A key that no entry lists reads as unlisted. -/
theorem KMap.get_of_unlisted {α : Type} (d : Nat → α) (k : Nat) : ∀ m : KMap α, (∀ e ∈ m, e.1 ≠ k) → KMap.get d m k = d k
  | [], _ => rfl
  | (k', v) :: t, h => by
    obtain ⟨hk, ht⟩ := List.forall_mem_cons.mp h
    rw [KMap.get, if_neg (Ne.symm hk)]
    exact KMap.get_of_unlisted d k t ht

/-- R1: a discovery register holds its reset value. -/
theorem State.reg_discovery {s : State} (i : s.Inv) {off : Nat} (hd : isDiscovery off = true) : s.reg off = regReset off :=
  KMap.get_of_unlisted _ _ _ fun e m he => by
    rw [← he, i.disc e m] at hd
    cases hd

/-- A register of the FUSE block reads as it is stored. -/
theorem State.regRead_fuse (s : State) {off : Nat} (h : off / 0x40000 = 0x20) : s.regRead off = s.reg off := by
  simp [State.regRead, h]

/-- R1: what the discovery registers read. -/
theorem State.regRead_discovery {s : State} (i : s.Inv) :
    s.regRead 0x800000 = 0x54014201 ∧ s.regRead 0x800004 = 0x10080401 ∧ s.regRead 0x800008 = 0x20041010 ∧
      s.regRead 0x80000C = 0x08401008 := by
  have read {off : Nat} {v : Word} (hd : isDiscovery off = true) (hb : off / 0x40000 = 0x20) (hv : regReset off = v) :
      s.regRead off = v := (s.regRead_fuse hb).trans ((State.reg_discovery i hd).trans hv)
  exact ⟨read (by decide) (by decide) (by decide), read (by decide) (by decide) (by decide),
    read (by decide) (by decide) (by decide), read (by decide) (by decide) (by decide)⟩

/-- Settles O3: the invariant is carried over by each command's own law and by the REF cycle's. -/
theorem stepKeepsInvariant : Obligations.StepKeepsInvariant := fun _ _ i e => step_inv i e

/-- Settles O6: a state that meets the invariant lists no discovery register, and so does the state after a step. -/
theorem discoveryRegistersFixed : Obligations.DiscoveryRegistersFixed :=
  fun _ i => ⟨State.regRead_discovery i, fun _ e => State.regRead_discovery (step_inv i e)⟩

/-- R436: every island is asleep after the cold reset. -/
theorem State.reset_island : ∀ n < 32, State.reset.island n = 0 := by decide

/-- Settles O2: nothing is listed, so each field reads from the reset value of its register's row. -/
theorem resetState : Obligations.ResetState := by
  refine ⟨State.reset_inv, rfl, ?_, ?_, ?_, ?_, ?_, ?_, ?_, ?_, ?_, ?_, ?_, ?_, ?_, State.reset_island, ?_, ?_, ?_, ?_⟩ <;> decide

end Sys2Proof.Machine
end

section
/-! SUPPORT. What reads of a state give after the shared operations: the parts a `Keeps` law leaves, the registers that an interrupt, a
failed inbound access and a write of the fabric map touch, and the value a register write leaves in an RW field. -/

namespace Sys2Proof.Machine

/-! ### Parts and fields -/

/-- Memory outside the mask. -/
theorem State.Keeps.mem_eq {s t : State} {m : Nat} (h : s.Keeps m t) (w : m.testBit 4 = false := by decide) : t.mem = s.mem :=
  And.left (show t.mem = s.mem ∧ t.memGen = s.memGen from h.frame .mem w)

/-- The registers outside the mask. -/
theorem State.Keeps.regs_eq {s t : State} {m : Nat} (h : s.Keeps m t) (w : m.testBit 3 = false := by decide) : t.regs = s.regs :=
  h.frame .regs w

/-- What the last read returned, outside the mask. -/
theorem State.Keeps.readData_eq {s t : State} {m : Nat} (h : s.Keeps m t) (w : m.testBit 2 = false := by decide) :
    t.readData = s.readData :=
  h.frame .readData w

/-- Translation outside the mask. -/
theorem State.Keeps.xlt_eq {s t : State} {m : Nat} (h : s.Keeps m t) (w : m.testBit 10 = false := by decide) : t.xlt = s.xlt :=
  h.frame .xlt w

/-- A field that reads 1 is set. -/
theorem State.on_of_rd_one {s : State} {f : Fld} (h : s.rd f = 1) : s.on f = true := by simp [State.on, h]

/-- A field that reads 0 is not set. -/
theorem State.on_of_rd_zero {s : State} {f : Fld} (h : s.rd f = 0) : s.on f = false := by simp [State.on, h]

/-- A one-bit field is set exactly when it reads 1. -/
theorem State.on_iff_rd_one {s : State} {f : Fld} (hw : f.w = 1) : s.on f = true ↔ s.rd f = 1 := by
  have := s.rd_lt f
  rw [hw] at this
  rw [State.on, bne_iff_ne]
  omega

/-- R8: an RW field of a register takes the value written. -/
theorem RegRow.get_written {r : RegRow} {f : Fld} (old val : Word)
    (hrw : ∀ i < f.w, (BitVec.ofNat 32 r.rw).getLsbD (f.lo + i) = true) (hc : r.w1c = 0) :
    f.get (r.written old val) = f.of val := by
  have bit (i : Nat) (hi : i < f.w) : (r.written old val).getLsbD (f.lo + i) = val.getLsbD (f.lo + i) := by
    by_cases h : f.lo + i < 32
    · simp only [RegRow.written, hc, BitVec.getLsbD_and, BitVec.getLsbD_or, BitVec.getLsbD_not, hrw i hi]
      simp [h]
    · rw [BitVec.getLsbD_of_ge _ _ (Nat.le_of_not_lt h), BitVec.getLsbD_of_ge _ _ (Nat.le_of_not_lt h)]
  rw [Fld.of, Fld.get, Fld.get]
  congr 1
  apply BitVec.eq_of_getLsbD_eq
  intro i _
  simp only [BitVec.getLsbD_and, BitVec.getLsbD_ushiftRight, Fld.mask, BitVec.getLsbD_ofNat, Nat.testBit_two_pow_sub_one]
  by_cases hi : i < f.w
  · rw [bit i hi]
  · simp [hi]

/-! ### The registers an operation touches -/

/-- What one operation and then another may touch. -/
theorem State.RegsOnly.trans {P : Nat → Prop} {s t u : State} (h : s.RegsOnly P t) (k : t.RegsOnly P u) : s.RegsOnly P u :=
  fun off hn => (k off hn).trans (h off hn)

/-- A larger set of registers. -/
theorem State.RegsOnly.mono {P Q : Nat → Prop} {s t : State} (h : s.RegsOnly P t) (w : ∀ off, P off → Q off) : s.RegsOnly Q t :=
  fun off hn => h off fun p => hn (w off p)

/-- A fold of operations that touch `P` only. -/
theorem State.RegsOnly.each {P : Nat → Prop} {s0 : State} {α : Type} {f : α → State → State} {l : List α}
    (hf : ∀ a ∈ l, ∀ t, s0.RegsOnly P t → s0.RegsOnly P (f a t)) {s : State} (h : s0.RegsOnly P s) :
    s0.RegsOnly P (s.each l f) := by
  induction l generalizing s with
  | nil => exact h
  | cons a l ih =>
    exact ih (fun b m => hf b (List.mem_cons_of_mem a m)) (hf a List.mem_cons_self s h)

/-- R396: the MSI-X pending bits. -/
def pendingBits (off : Nat) : Prop := 0x718000 ≤ off ∧ off < 0x718100

/-- R396: a block's interrupt sets an MSI-X pending bit. -/
theorem State.blockToHost_regs (s : State) (b : Nat) : s.RegsOnly pendingBits (s.blockToHost b) := by
  unfold State.blockToHost State.raiseVec
  split
  · refine (State.RegsOnly.refl _ s).wr _ _ ?_
    have hv : s.rd (F.HIF_IRQ_MAP_VECTOR b) < 2 ^ 11 := s.rd_lt _
    show 0x718000 ≤ 0x1C * 0x40000 + 0x18000 + 4 * (_ / 32) ∧ 0x1C * 0x40000 + 0x18000 + 4 * (_ / 32) < 0x718100
    omega
  · exact .refl _ s

/-- R409: an interrupt that a register write makes pending sets an MSI-X pending bit. -/
theorem State.levelRaise_regs (t s : State) (off : Nat) : t.RegsOnly pendingBits (t.levelRaise s off) := by
  have first : t.RegsOnly pendingBits
      (if t.irqLevel (off / 0x40000) && !s.irqLevel (off / 0x40000) then t.blockToHost (off / 0x40000) else t) := by
    split
    · exact t.blockToHost_regs _
    · exact .refl _ t
  unfold State.levelRaise
  extract_lets b m u
  split
  · exact first.trans (u.blockToHost_regs m)
  · exact first

/-- R9: an event with an enable sets its flag's register and MSI-X pending bits. -/
theorem State.irq_regs {P : Nat → Prop} (s : State) (b : Nat) {flag : Fld} (en : Fld) (hf : P flag.off)
    (hp : ∀ off, pendingBits off → P off) : s.RegsOnly P (s.irq b flag en) :=
  (State.RegsOnly.refl P s).irq b flag en hf fun off h1 h2 => hp off ⟨h1, h2⟩

/-- An event without an enable sets its flag's register and MSI-X pending bits. -/
theorem State.irqAlways_regs {P : Nat → Prop} (s : State) (b : Nat) {flag : Fld} (hf : P flag.off)
    (hp : ∀ off, pendingBits off → P off) : s.RegsOnly P (s.irqAlways b flag) :=
  ((State.RegsOnly.refl P s).wr flag 1 hf).trans ((State.blockToHost_regs _ b).mono hp)

/-! ### The host attachment's status -/

/-- R405: a status of the HIF block touches HIF_STATUS and MSI-X pending bits. -/
theorem State.hifStatus_regs (s : State) (code : Nat) :
    s.RegsOnly (fun off => off = F.HIF_STATUS_STATUS.off ∨ pendingBits off) (s.hifStatus code) :=
  ((State.RegsOnly.refl _ s).wr F.HIF_STATUS_STATUS code (.inl rfl)).trans
    (State.irq_regs _ 0x1C F.HIF_CTRL_ERR_IRQ_EN (.inl rfl) fun _ => .inr)

/-- R405: HIF_STATUS reads the status reported. -/
theorem State.rd_hifStatus {s : State} (i : s.Inv) {code : Nat} (hc : code < 2 ^ 16) :
    (s.hifStatus code).rd F.HIF_STATUS_STATUS = code := by
  have flagged : ((s.wr F.HIF_STATUS_STATUS code).wr F.HIF_STATUS_ERR_IRQ 1).rd F.HIF_STATUS_STATUS = code := by
    rw [State.rd_wr_fld (g := F.HIF_STATUS_STATUS) (f := F.HIF_STATUS_ERR_IRQ) (State.wr_inv i _ _) rfl (by decide),
      State.rd_wr_same i (by decide) (by decide) hc]
  unfold State.hifStatus State.irq
  extract_lets u
  split
  · exact ((u.blockToHost_regs 0x1C).rd _ (by unfold pendingBits; decide)).trans flagged
  · exact flagged

/-- R394: a failed inbound access is counted and reported. -/
theorem State.inboundUr_reports {s : State} (i : s.Inv) (va : Nat) :
    (s.inboundUr va).rd F.HIF_IW_ERR_COUNT = min (s.rd F.HIF_IW_ERR_COUNT + 1) (2 ^ 32 - 1) ∧
      (s.inboundUr va).rd F.HIF_STATUS_STATUS = 0x1C02 := by
  unfold State.inboundUr
  extract_lets a b
  have counted : a.rd F.HIF_IW_ERR_COUNT = min (s.rd F.HIF_IW_ERR_COUNT + 1) (2 ^ 32 - 1) :=
    State.rd_wr_same i (by decide) (by decide)
      (lt_of_le_of_lt (min_le_right _ _) (by decide : 2 ^ F.HIF_IW_ERR_COUNT.w - 1 < 2 ^ F.HIF_IW_ERR_COUNT.w))
  have ia : a.Inv := State.wr_inv i _ _
  have kept : b.Inv ∧ b.rd F.HIF_IW_ERR_COUNT = a.rd F.HIF_IW_ERR_COUNT := by
    unfold b
    split
    · exact ⟨ia, rfl⟩
    · exact ⟨State.wr_inv (State.wr_inv (State.wr_inv ia _ _) _ _) _ _,
        by rw [State.rd_wr_off (by decide), State.rd_wr_off (by decide), State.rd_wr_off (by decide)]⟩
  exact ⟨by rw [(b.hifStatus_regs 0x1C02).rd _ (by unfold pendingBits; decide), kept.2, counted],
    State.rd_hifStatus kept.1 (by decide)⟩

/-! ### Writes of the fabric map -/

/-- The registers that a write of the fabric map touches: those of the TSTO, QDR, XLT and HQ blocks, HIF_OB_DROP and the MSI-X pending
bits (R98, R130, R133, R139, R392). -/
def fabricRegs (off : Nat) : Prop :=
  (6 ≤ off / 0x40000 ∧ off / 0x40000 ≤ 0x0A) ∨ off = F.HIF_OB_DROP_COUNT.off ∨ pendingBits off

/-- R98: a refused write of the descriptors. -/
theorem State.descWriteDenied_regs (s : State) : s.RegsOnly fabricRegs s.descWriteDenied :=
  (((State.RegsOnly.refl _ s).wr _ _ (.inl (by decide))).wr _ _ (.inl (by decide))).trans
    (State.irqAlways_regs _ _ (.inl (by decide)) fun _ h => .inr (.inr h))

/-- R133: a refused write of the rest of the system region. -/
theorem State.sysregWriteDenied_regs (s : State) : s.RegsOnly fabricRegs s.sysregWriteDenied :=
  (((State.RegsOnly.refl _ s).wr _ _ (.inl (by decide))).wr _ _ (.inl (by decide))).trans
    (State.irqAlways_regs _ _ (.inl (by decide)) fun _ h => .inr (.inr h))

/-- R130: an access to a hole. -/
theorem State.holeAccess_regs (s : State) : s.RegsOnly fabricRegs s.holeAccess :=
  (State.RegsOnly.refl _ s).wr _ _ (.inl (by decide))

/-- R392: an outbound request that is dropped. -/
theorem State.outboundDropped_regs (s : State) : s.RegsOnly fabricRegs s.outboundDropped :=
  s.holeAccess_regs.wr _ _ (.inr (.inl rfl))

/-- R137: there are eight channels. -/
theorem State.qdrLocal_channel_lt (s : State) (a : Nat) : (s.qdrLocal a).1 < 8 := by
  unfold State.qdrLocal
  extract_lets o
  split
  · exact lt_of_lt_of_le (Nat.mod_lt _ (by decide : 0 < 2 ^ 2)) (by decide)
  · exact Nat.mod_lt _ (by decide : 0 < 2 ^ 3)

/-- R140: a failed burst touches the QDR block and MSI-X pending bits. -/
theorem State.burstError_regs (s : State) (addr : Nat) : s.RegsOnly fabricRegs (s.burstError addr) := by
  have hc := s.qdrLocal_channel_lt addr
  unfold State.burstError
  extract_lets c a b
  have counter (o : Nat) (ho : o ≤ 0x1c0024) (hl : 0x180000 ≤ o) : fabricRegs (o + 0x8 * c) := .inl (by omega)
  have ka : s.RegsOnly fabricRegs a :=
    (((State.RegsOnly.refl _ s).wr _ _ (counter 0x1c0020 (by decide) (by decide))).wr _ _
      (counter 0x1c0024 (by decide) (by decide))).wr _ _ (.inl (by decide))
  have kb : s.RegsOnly fabricRegs b := ka.trans (State.irq_regs _ _ _ (.inl (by decide)) fun _ h => .inr (.inr h))
  split
  · exact kb
  · exact ((kb.wr _ _ (.inl (by decide))).wr _ _ (.inl (by decide))).wr _ _ (.inl (by decide))

/-- R139: a write of QDR main memory. -/
theorem State.qdrWrite_regs (s : State) (a : Nat) (b : List Byte) : s.RegsOnly fabricRegs (s.qdrWrite a b) := by
  unfold State.qdrWrite
  extract_lets whole part u
  refine State.RegsOnly.regs ?_ (State.setBytes_keeps _ a b (.refl _ 0x10) (.refl _)).regs_eq
  exact State.RegsOnly.each (fun k _ t h => h.trans (t.burstError_regs (k * 16))) (State.RegsOnly.regs (.refl _ s) rfl)

/-- A write inside one place of the fabric map. -/
theorem State.placeWrite_regs (s : State) (a : Nat) (b : List Byte) : s.RegsOnly fabricRegs (s.placeWrite a b) := by
  have stored : s.RegsOnly fabricRegs (s.setBytes a b) :=
    State.RegsOnly.regs (.refl _ s) (State.setBytes_keeps s a b (.refl _ 0x10) (.refl _)).regs_eq
  unfold State.placeWrite
  split
  case h_1 | h_2 => exact stored
  case h_3 => exact s.qdrWrite_regs a b
  case h_4 => exact s.descWriteDenied_regs
  case h_5 | h_6 | h_7 | h_8 | h_9 | h_10 => exact s.sysregWriteDenied_regs
  case h_11 =>
    split
    · exact State.RegsOnly.regs (.refl _ s) (State.hostWrite_keeps s _ b (.refl _ 0x4000) (.refl _)).regs_eq
    · exact s.outboundDropped_regs
  case h_12 | h_13 => exact .refl _ s
  case h_14 => exact s.holeAccess_regs

/-- A write of the fabric map. -/
theorem State.physWrite_regs (s : State) (a : Nat) (b : List Byte) : s.RegsOnly fabricRegs (s.physWrite a b) :=
  State.RegsOnly.each (fun r _ t h => h.trans (t.placeWrite_regs r.1 r.2)) (.refl _ s)

end Sys2Proof.Machine
end

section
/-! SUPPORT. The accesses of the host and of the units to registers and through the inbound windows (R4, R7, R393, R394). -/

namespace Sys2Proof.Machine

/-! ### Register writes -/

/-- R393: a register write, and the host's write of the register through BAR0, are the same write of the bus. -/
theorem exec_busWrite {c : Instr} {src : Agent} {off : BitVec 24} {size : Size} {val : Word}
    (hc : c = .registerWrite src off size val ∨ (src = .host ∧ c = .bar0Access true off size val)) (s : State) :
    exec c s = .next (s.busWrite src off.toNat size val) := by
  obtain rfl | ⟨rfl, rfl⟩ := hc
  · rfl
  · rfl

/-- R7, R413: a narrow write that passes the gate is mirrored, and that is all. -/
theorem State.busWrite_narrow {s : State} {src : Agent} {off : Nat} {size : Size} {val : Word} (hg : s.gate src off = .pass true)
    (hs : size ≠ .word) (hk : isCkvData off = false) : s.busWrite src off size val = s.mirror src off size val false := by
  simp [State.busWrite, State.narrowWrite, hk, hs, hg]

/-- R4, R413: a word write that passes the gate is mirrored, takes its effect, and may raise an interrupt. -/
theorem State.busWrite_word {s : State} {src : Agent} {off : Nat} {val : Word} (hg : s.gate src off = .pass true)
    (ha : off % 4 = 0) (hk : isCkvData off = false) :
    s.busWrite src off .word val = ((s.mirror src off .word val false).regEffect src off val).levelRaise s off := by
  simp [State.busWrite, State.write, hk, ha, hg]

/-- R413: the mirror record of a write carries the invariant over. -/
theorem State.mirror_inv {s : State} (i : s.Inv) (src : Agent) (off : Nat) (size : Size) (val : Word) (held : Bool) :
    (s.mirror src off size val held).Inv :=
  (State.mirror_keeps s src off size val held (.refl s 0x8008) (.refl _)).inv i

/-- R396, R400: the row of the registers that map block interrupts to vectors. -/
def irqMapRow : RegRow := ⟨0x404, 33, 4, 1, 4, 0x800007ff, 0, 0, 0⟩

/-- The registers of `irqMapRow` are those of blocks 1 to 33. -/
theorem regRow_irqMap : ∀ b : Fin 34, b ≠ 0 → regRow (F.HIF_IRQ_MAP_EN b).off = some irqMapRow := by decide

/-- The HIF block gives a write of the interrupt map no effect of its own. -/
theorem State.hifRegWrite_irqMap (s : State) (src : Agent) {o : Nat} (val : Word) (h : 0x400 ≤ o) (h' : o < 0x488) :
    s.hifRegWrite src o val = s.plainWrite (blockBase 0x1C + o) val := by
  unfold State.hifRegWrite
  rw [if_neg (by omega), if_neg (by omega), if_neg (by omega), if_neg (by omega), if_neg (by omega), if_neg (by omega)]

/-- R4, R8: what a word write of the interrupt map leaves in the register. -/
theorem State.regEffect_irqMap (s : State) (src : Agent) {b : Fin 34} (val : Word) (hb : b ≠ 0) :
    s.regEffect src (F.HIF_IRQ_MAP_EN b).off val =
      s.setReg (F.HIF_IRQ_MAP_EN b).off (irqMapRow.written (s.reg (F.HIF_IRQ_MAP_EN b).off) val) := by
  have ho : (F.HIF_IRQ_MAP_EN b).off = 0x700400 + 0x4 * b := rfl
  have block : (F.HIF_IRQ_MAP_EN b).off / 0x40000 = 0x1C := by omega
  have inside : blockBase 0x1C + (F.HIF_IRQ_MAP_EN b).off % 0x40000 = (F.HIF_IRQ_MAP_EN b).off := by
    unfold blockBase
    omega
  have written : s.regEffect src (F.HIF_IRQ_MAP_EN b).off val = s.plainWrite (F.HIF_IRQ_MAP_EN b).off val := by
    simp only [State.regEffect, block]
    rw [State.hifRegWrite_irqMap s src val (by omega) (by omega), inside]
  simp only [written, State.plainWrite, regRow_irqMap b hb]

/-- R4: a field of the interrupt map that `irqMapRow` makes RW reads the value written by a word that passes the gate. -/
theorem State.rd_busWrite_irqMap {s : State} (i : s.Inv) {src : Agent} {b : Fin 34} (val : Word) (hb : b ≠ 0)
    (hg : s.Passes src (F.HIF_IRQ_MAP_EN b)) {f : Fld} (hf : f.off = (F.HIF_IRQ_MAP_EN b).off)
    (hrw : ∀ i < f.w, (BitVec.ofNat 32 irqMapRow.rw).getLsbD (f.lo + i) = true) :
    (s.busWrite src (F.HIF_IRQ_MAP_EN b).off .word val).rd f = f.of val := by
  have ho : (F.HIF_IRQ_MAP_EN b).off = 0x700400 + 0x4 * b := rfl
  have plain : isCkvData (F.HIF_IRQ_MAP_EN b).off = false := by
    have block : (F.HIF_IRQ_MAP_EN b).off / 0x40000 = 0x1C := by omega
    simp [isCkvData, block]
  have fixed : isDiscovery (F.HIF_IRQ_MAP_EN b).off = false := by
    rw [isDiscovery, Bool.and_eq_false_iff, decide_eq_false_iff_not]
    omega
  rw [State.busWrite_word hg (by omega) plain, State.regEffect_irqMap _ src val hb,
    (State.levelRaise_regs _ s _).rd f (by unfold pendingBits; omega), State.rd, hf,
    State.reg_setReg_same (State.mirror_inv i ..) _ fixed, RegRow.get_written _ _ hrw rfl]

/-! ### Reads through BAR0 -/

/-- R393: an aligned word read of a register with no effect of reading returns the word; only PWR_VIN's minimum may change. -/
theorem State.bar0Read_word {s : State} {off : Nat} (hd : s.rd F.PWR_STATUS_DAY ≠ 0) (hl : s.rd F.HIF_STATUS_LINK = 1)
    (ha : off % 4 = 0) (hc : off / 0x40000 ≠ 0x0E) (hx : off ≠ 0x70200C)
    (hf : ¬ (off / 0x40000 = 0x20 ∧ s.rd F.FUSE_PROG_STATUS_BUSY = 1)) :
    (s.bar0Read off .word).readData = leBytes 4 (s.regRead off).toNat ∧
      (off ≠ F.PWR_VIN_VIN.off → (s.bar0Read off .word).regs = s.regs) := by
  have fuse : ¬ (off / 0x40000 = 0x20 ∧ s.on F.FUSE_PROG_STATUS_BUSY = true) := by
    rwa [State.on_iff_rd_one rfl]
  have read : s.bar0Read off .word = s.busRead off := by simp [State.bar0Read, hd, State.on_of_rd_one hl, ha]
  rw [read]
  unfold State.busRead
  extract_lets o shown
  rw [if_neg (show ¬ off = blockBase 0x1C + 0x200C from hx), if_neg (fun h => hc h.1)]
  by_cases hv : off = F.PWR_VIN_VIN.off
  · rw [if_pos hv]
    exact ⟨(State.wr_keeps (shown s) _ _ (.refl _ 8) (.refl 8)).readData_eq, fun h => absurd hv h⟩
  · rw [if_neg hv, if_neg fuse]
    exact ⟨rfl, fun _ => rfl⟩

/-! ### Accesses through BAR2 -/

/-- R394: the address that BAR2 offset `o` reaches through its window. -/
def State.windowAddr (s : State) (o : Nat) : Nat :=
  s.rd (F.HIF_IW_BASE_HI_BASE (o / 2 ^ 28)) * 2 ^ 32 + s.rd (F.HIF_IW_BASE_LO_BASE (o / 2 ^ 28)) * 65536 + o % 2 ^ 28

/-- R394: the space of the window of BAR2 offset `o`. -/
def State.windowSpace (s : State) (o : Nat) : Nat := s.rd (F.HIF_IW_CFG_IW_SPACE (o / 2 ^ 28))

section
variable {s : State} {o : Nat} (hl : s.rd F.HIF_STATUS_LINK = 1) (hd : s.rd F.PWR_STATUS_DAY ≠ 0)
include hl hd

/-- R394: with the link up by day an access of at least one byte is taken. -/
theorem State.bar2_takes : (!s.on F.HIF_STATUS_LINK || s.rd F.PWR_STATUS_DAY == 0) ≠ true := by
  simp [State.on_of_rd_one hl, hd]

/-- R394: a read through a window that is not enabled is refused. -/
theorem State.bar2_read_disabled {len : Nat} (he : s.rd (F.HIF_IW_CFG_EN (o / 2 ^ 28)) = 0) (hs : len ≠ 0) :
    s.bar2 o len none = s.inboundUr (s.windowAddr o) := by
  unfold State.bar2
  rw [if_neg (State.bar2_takes hl hd)]
  extract_lets w n va size
  rw [if_neg hs, if_pos (by rw [State.on_of_rd_zero he]; rfl)]
  rfl

variable (he : s.rd (F.HIF_IW_CFG_EN (o / 2 ^ 28)) = 1)
include he

/-- R394: a write through a window of space 0 is a physical one. -/
theorem State.bar2_write_phys {len : Nat} {b : List Byte} (hn : s.windowSpace o = 0) (hb : b ≠ []) :
    s.bar2 o len (some b) = s.bar2Phys (s.windowAddr o) b.length (some b) := by
  unfold State.bar2
  rw [if_neg (State.bar2_takes hl hd)]
  extract_lets w n va size
  rw [if_neg (mt List.length_eq_zero_iff.mp hb), if_neg (by rw [State.on_of_rd_one he]; decide), if_pos (show n = 0 from hn)]
  rfl

/-- R394: a read through a window of space 0 is a physical one. -/
theorem State.bar2_read_phys {len : Nat} (hn : s.windowSpace o = 0) (hs : len ≠ 0) :
    s.bar2 o len none = s.bar2Phys (s.windowAddr o) len none := by
  unfold State.bar2
  rw [if_neg (State.bar2_takes hl hd)]
  extract_lets w n va size
  rw [if_neg hs, if_neg (by rw [State.on_of_rd_one he]; decide), if_pos (show n = 0 from hn)]
  rfl

/-- R394: a write through a window of another space that translates. -/
theorem State.bar2_write_space {len pa : Nat} {b : List Byte} (hn : s.windowSpace o ≠ 0) (hb : b ≠ [])
    (ht : s.translateAccess (s.windowSpace o) (s.windowAddr o) b.length true 0 = .ok pa) :
    s.bar2 o len (some b) =
      (s.vwrite (s.windowSpace o) (s.windowAddr o) b).cacheLeaf (s.windowSpace o) (s.windowAddr o) := by
  unfold State.bar2
  rw [if_neg (State.bar2_takes hl hd)]
  extract_lets w n va size
  rw [if_neg (mt List.length_eq_zero_iff.mp hb), if_neg (by rw [State.on_of_rd_one he]; decide), if_neg (show ¬ n = 0 from hn),
    show s.translateAccess n va size (some b).isSome 0 = .ok pa from ht]
  rfl

/-- R394: a read through a window of another space that translates. -/
theorem State.bar2_read_space {len pa : Nat} (hn : s.windowSpace o ≠ 0) (hs : len ≠ 0)
    (ht : s.translateAccess (s.windowSpace o) (s.windowAddr o) len false 0 = .ok pa) :
    s.bar2 o len none =
      ((s.readNote (s.windowSpace o) (s.windowAddr o) len).setReadData (s.vread (s.windowSpace o) (s.windowAddr o) len)).cacheLeaf
        (s.windowSpace o) (s.windowAddr o) := by
  unfold State.bar2
  rw [if_neg (State.bar2_takes hl hd)]
  extract_lets w n va size
  rw [if_neg hs, if_neg (by rw [State.on_of_rd_one he]; decide), if_neg (show ¬ n = 0 from hn),
    show s.translateAccess n va size (none : Option (List Byte)).isSome 0 = .ok pa from ht]
  rfl

end

end Sys2Proof.Machine
end

section
/-! SUPPORT. What each kind of access completes with, and the statement that puts them together. -/

namespace Sys2Proof.Machine

/-- R394: the command answers the state after its access. -/
theorem exec_bar2Access {s t : State} {off : Word} {len : BitVec 12} {write : Option (List Byte)}
    (h : s.bar2 off.toNat len.toNat write = t) : exec (.bar2Access off len write) s = .next t :=
  congrArg Host.Outcome.next h

/-- R394: a write through a window of another space stores what the space's translation gives. -/
theorem bar2Access_write_space {s : State} {off : Word} {len : BitVec 12} {pa : Nat} {b : List Byte}
    (hl : s.rd F.HIF_STATUS_LINK = 1) (hd : s.rd F.PWR_STATUS_DAY ≠ 0) (he : s.rd (F.HIF_IW_CFG_EN (off.toNat / 2 ^ 28)) = 1)
    (hn : s.windowSpace off.toNat ≠ 0) (hb : b ≠ [])
    (ht : s.translateAccess (s.windowSpace off.toNat) (s.windowAddr off.toNat) b.length true 0 = .ok pa) :
    Completes (.bar2Access off len (some b)) s fun t =>
      t.mem = (s.vwrite (s.windowSpace off.toNat) (s.windowAddr off.toNat) b).mem ∧ t.readData = s.readData := by
  refine ⟨_, exec_bar2Access (State.bar2_write_space hl hd he hn hb ht), ?_⟩
  have stored := State.vwrite_keeps s (s.windowSpace off.toNat) (s.windowAddr off.toNat) b (.refl s 0x5018) (.refl _)
  have cached := State.cacheLeaf_keeps (s.vwrite (s.windowSpace off.toNat) (s.windowAddr off.toNat) b) (s.windowSpace off.toNat)
    (s.windowAddr off.toNat) (.refl _ 0x400) (.refl _)
  exact ⟨cached.mem_eq, cached.readData_eq.trans stored.readData_eq⟩

/-- R394: a read through a window of another space returns what the space's translation gives. -/
theorem bar2Access_read_space {s : State} {off : Word} {len : BitVec 12} {pa : Nat}
    (hl : s.rd F.HIF_STATUS_LINK = 1) (hd : s.rd F.PWR_STATUS_DAY ≠ 0) (he : s.rd (F.HIF_IW_CFG_EN (off.toNat / 2 ^ 28)) = 1)
    (hn : s.windowSpace off.toNat ≠ 0) (hs : len.toNat ≠ 0)
    (ht : s.translateAccess (s.windowSpace off.toNat) (s.windowAddr off.toNat) len.toNat false 0 = .ok pa) :
    Completes (.bar2Access off len none) s fun t =>
      t.readData = s.vread (s.windowSpace off.toNat) (s.windowAddr off.toNat) len.toNat ∧ t.mem = s.mem ∧
        t.regs = (s.readNote (s.windowSpace off.toNat) (s.windowAddr off.toNat) len.toNat).regs := by
  refine ⟨_, exec_bar2Access (State.bar2_read_space hl hd he hn hs ht), ?_⟩
  have noted := State.readNote_keeps s (s.windowSpace off.toNat) (s.windowAddr off.toNat) len.toNat (.refl s 0x8) (.refl _)
  have cached := State.cacheLeaf_keeps ((s.readNote (s.windowSpace off.toNat) (s.windowAddr off.toNat) len.toNat).setReadData
    (s.vread (s.windowSpace off.toNat) (s.windowAddr off.toNat) len.toNat)) (s.windowSpace off.toNat) (s.windowAddr off.toNat)
    (.refl _ 0x400) (.refl _)
  exact ⟨cached.readData_eq, cached.mem_eq.trans noted.mem_eq, cached.regs_eq⟩

/-- R394, R133: a physical write stores what the fabric map takes; one that starts in the system region is refused and counted. -/
theorem State.bar2Phys_write {s : State} (i : s.Inv) {pa : Nat} {b : List Byte} (h : pa + b.length ≤ 2 ^ 40) :
    (s.bar2Phys pa b.length (some b)).mem = (s.physWrite pa b).mem ∧
      (s.bar2Phys pa b.length (some b)).readData = s.readData ∧
      (inSysRegion pa = true →
        (s.bar2Phys pa b.length (some b)).rd F.HIF_IW_ERR_COUNT = min (s.rd F.HIF_IW_ERR_COUNT + 1) (2 ^ 32 - 1) ∧
        (s.bar2Phys pa b.length (some b)).rd F.HIF_STATUS_STATUS = 0x1C02) := by
  have stored := State.physWrite_keeps s pa b (.refl s 0x5018) (.refl _)
  have refused := State.inboundUr_keeps (s.physWrite pa b) pa (.refl _ 0x8) (.refl _)
  have count : (s.physWrite pa b).rd F.HIF_IW_ERR_COUNT = s.rd F.HIF_IW_ERR_COUNT :=
    (s.physWrite_regs pa b).rd _ (by unfold fabricRegs pendingBits; decide)
  unfold State.bar2Phys
  rw [if_neg (Nat.not_lt.mpr h)]
  by_cases hr : (inSysRegion pa || inSysRegion (pa + b.length - 1)) = true
  · simp only [hr, if_true]
    exact ⟨refused.mem_eq, refused.readData_eq.trans stored.readData_eq,
      fun _ => count ▸ State.inboundUr_reports (stored.inv i) pa⟩
  · simp only [hr]
    exact ⟨rfl, stored.readData_eq, fun hp => absurd (by rw [hp, Bool.true_or]) hr⟩

/-- R394: a physical read returns the bytes of the fabric map. -/
theorem State.bar2Phys_read {s : State} {pa len : Nat} (h : pa + len ≤ 2 ^ 40) :
    s.bar2Phys pa len none = (s.noteRead pa len).setReadData (s.physRead pa len) := by
  rw [State.bar2Phys, if_neg (Nat.not_lt.mpr h)]

/-- R394: a write through a window of space 0 is a physical write. -/
theorem bar2Access_write_phys {s : State} (i : s.Inv) {off : Word} {len : BitVec 12} {b : List Byte}
    (hl : s.rd F.HIF_STATUS_LINK = 1) (hd : s.rd F.PWR_STATUS_DAY ≠ 0) (he : s.rd (F.HIF_IW_CFG_EN (off.toNat / 2 ^ 28)) = 1)
    (hn : s.windowSpace off.toNat = 0) (hb : b ≠ []) (hp : s.windowAddr off.toNat + b.length ≤ 2 ^ 40) :
    Completes (.bar2Access off len (some b)) s fun t =>
      t.mem = (s.physWrite (s.windowAddr off.toNat) b).mem ∧ t.readData = s.readData ∧
        (inSysRegion (s.windowAddr off.toNat) = true →
          t.rd F.HIF_IW_ERR_COUNT = min (s.rd F.HIF_IW_ERR_COUNT + 1) (2 ^ 32 - 1) ∧ t.rd F.HIF_STATUS_STATUS = 0x1C02) :=
  ⟨_, exec_bar2Access (State.bar2_write_phys hl hd he hn hb), State.bar2Phys_write i hp⟩

/-- R394: a read through a window of space 0 is a physical read. -/
theorem bar2Access_read_phys {s : State} {off : Word} {len : BitVec 12}
    (hl : s.rd F.HIF_STATUS_LINK = 1) (hd : s.rd F.PWR_STATUS_DAY ≠ 0) (he : s.rd (F.HIF_IW_CFG_EN (off.toNat / 2 ^ 28)) = 1)
    (hn : s.windowSpace off.toNat = 0) (hs : len.toNat ≠ 0) (hp : s.windowAddr off.toNat + len.toNat ≤ 2 ^ 40) :
    Completes (.bar2Access off len none) s fun t =>
      t.readData = s.physRead (s.windowAddr off.toNat) len.toNat ∧ t.mem = s.mem ∧
        t.regs = (s.noteRead (s.windowAddr off.toNat) len.toNat).regs :=
  ⟨_, exec_bar2Access ((State.bar2_read_phys hl hd he hn hs).trans (State.bar2Phys_read hp)), State.setReadData_readData _ _,
    (State.setReadData_mem _ _).trans
      (State.noteRead_keeps s (s.windowAddr off.toNat) len.toNat (.refl s 0x8) (.refl _)).mem_eq, State.setReadData_regs _ _⟩

/-- R394: a read through a window that is not enabled is refused and counted. -/
theorem bar2Access_read_disabled {s : State} (i : s.Inv) {off : Word} {len : BitVec 12}
    (hl : s.rd F.HIF_STATUS_LINK = 1) (hd : s.rd F.PWR_STATUS_DAY ≠ 0) (he : s.rd (F.HIF_IW_CFG_EN (off.toNat / 2 ^ 28)) = 0)
    (hs : len.toNat ≠ 0) :
    Completes (.bar2Access off len none) s fun t =>
      t.rd F.HIF_IW_ERR_COUNT = min (s.rd F.HIF_IW_ERR_COUNT + 1) (2 ^ 32 - 1) ∧ t.rd F.HIF_STATUS_STATUS = 0x1C02 ∧
        t.mem = s.mem ∧ t.xlt = s.xlt := by
  obtain ⟨count, status⟩ := State.inboundUr_reports i (s.windowAddr off.toNat)
  have kept := State.inboundUr_keeps s (s.windowAddr off.toNat) (.refl s 0x8) (.refl _)
  exact ⟨_, exec_bar2Access (State.bar2_read_disabled hl hd he hs), count, status, kept.mem_eq, kept.xlt_eq⟩

/-- R4, R393: a word write of the interrupt map sets its two fields. -/
theorem irqMapWrite_completes {c : Instr} {src : Agent} {b : Fin 34} {off : BitVec 24} {val : Word} {s : State} (i : s.Inv)
    (hb : b ≠ 0) (ho : off.toNat = (F.HIF_IRQ_MAP_EN b).off) (hg : s.Passes src (F.HIF_IRQ_MAP_EN b))
    (hc : c = .registerWrite src off .word val ∨ (src = .host ∧ c = .bar0Access true off .word val)) :
    Completes c s fun t =>
      t.rd (F.HIF_IRQ_MAP_EN b) = (F.HIF_IRQ_MAP_EN b).of val ∧ t.rd (F.HIF_IRQ_MAP_VECTOR b) = (F.HIF_IRQ_MAP_VECTOR b).of val := by
  have en : ∀ i < 1, (BitVec.ofNat 32 irqMapRow.rw).getLsbD (31 + i) = true := by decide
  have vector : ∀ i < 11, (BitVec.ofNat 32 irqMapRow.rw).getLsbD (0 + i) = true := by decide
  refine ⟨_, exec_busWrite hc s, ?_⟩
  rw [ho]
  exact ⟨State.rd_busWrite_irqMap i val hb hg rfl en, State.rd_busWrite_irqMap i val hb hg rfl vector⟩

/-- R7, R413: a narrow write leaves memory and every register but those of its mirror record. -/
theorem narrowWrite_completes {c : Instr} {src : Agent} {off : BitVec 24} {size : Size} {val : Word} {s : State}
    (hg : s.gate src off.toNat = .pass true) (hs : size ≠ .word) (hk : isCkvData off.toNat = false)
    (hc : c = .registerWrite src off size val ∨ (src = .host ∧ c = .bar0Access true off size val)) :
    Completes c s fun t =>
      t.mem = s.mem ∧ ∀ f : Fld, f.off / 0x40000 ≠ 0x04 → ¬ (0x718000 ≤ f.off ∧ f.off < 0x718100) → t.rd f = s.rd f := by
  refine ⟨_, exec_busWrite hc s, ?_⟩
  rw [State.busWrite_narrow hg hs hk]
  exact ⟨(State.mirror_keeps s src off.toNat size val false (.refl s 0x8008) (.refl _)).mem_eq,
    fun f hx hm => (s.mirror_regs src off.toNat size val false).rd f (not_or.mpr ⟨hx, hm⟩)⟩

/-- Settles O46: register writes by the bus, reads by BAR0, and BAR2's accesses by the window they go through. -/
theorem accessesComplete : Obligations.AccessesComplete := by
  refine ⟨fun c src b off val s i hb ho hg hc => irqMapWrite_completes i hb ho hg hc,
    fun c src off size val s hg hs hk hc => narrowWrite_completes hg hs hk hc, ?_, ?_⟩
  · intro off size val s hd hl hs ha hc hx hf
    subst hs
    exact ⟨_, rfl, State.bar0Read_word hd hl ha hc hx hf⟩
  · intro off len write s i hl hd w n va
    have bytes (h : len ≠ 0) : len.toNat ≠ 0 := fun z => h (BitVec.eq_of_toNat_eq z)
    refine ⟨fun he hn => ⟨?_, ?_⟩, fun he hn => ⟨?_, ?_⟩, ?_⟩
    · rintro b pa rfl hb ht
      exact bar2Access_write_space hl hd he hn hb ht
    · rintro pa rfl hs ht
      exact bar2Access_read_space hl hd he hn (bytes hs) ht
    · rintro b rfl hb hp
      exact bar2Access_write_phys i hl hd he hn hb hp
    · rintro rfl hs hp
      exact bar2Access_read_phys hl hd he hn (bytes hs) hp
    · rintro he rfl hs
      exact bar2Access_read_disabled i hl hd he (bytes hs)

end Sys2Proof.Machine
end

section
/-! SUPPORT. More reads of a state after the shared operations: a saturating count, an interrupt beside a field, a write that
passes the gate, and the pieces of a register value. -/

namespace Sys2Proof.Machine

/-! ### Parts, fields and counters -/

/-- Queues outside the mask. -/
theorem State.Keeps.hq_eq {s t : State} {m : Nat} (h : s.Keeps m t) (w : m.testBit 8 = false := by decide) : t.hq = s.hq :=
  h.frame .hq w

/-- Check-value units outside the mask. -/
theorem State.Keeps.ckv_eq {s t : State} {m : Nat} (h : s.Keeps m t) (w : m.testBit 6 = false := by decide) : t.ckv = s.ckv :=
  h.frame .ckv w

/-- Checking points outside the mask. -/
theorem State.Keeps.seals_eq {s t : State} {m : Nat} (h : s.Keeps m t) (w : m.testBit 5 = false := by decide) :
    t.seals = s.seals :=
  h.frame .seals w

/-- A count carries the invariant over. -/
theorem State.inc_inv {s : State} (i : s.Inv) (f : Fld) (k : Nat) : (s.inc f k).Inv := State.wr_inv i _ _

/-- A counter just counted reads what it held and the events, within its width. -/
theorem State.rd_inc_same {s : State} (i : s.Inv) {f : Fld} {k : Nat} (hd : isDiscovery f.off = false) (hw : f.lo + f.w ≤ 32) :
    (s.inc f k).rd f = min (s.rd f + k) (2 ^ f.w - 1) :=
  State.rd_wr_same i hd hw (lt_of_le_of_lt (min_le_right _ _) (Nat.sub_lt (Nat.two_pow_pos _) one_pos))

/-- A field of another register reads as before a count. -/
theorem State.rd_inc_off {s : State} {f g : Fld} {k : Nat} (h : g.off ≠ f.off) : (s.inc f k).rd g = s.rd g := State.rd_wr_off h

/-- R9: an event leaves a field that its flag's write leaves, other than the MSI-X pending bits. -/
theorem State.rd_irq {s : State} {b : Nat} {flag en g : Fld} (hw : (s.wr flag 1).rd g = s.rd g) (hp : ¬ pendingBits g.off) :
    (s.irq b flag en).rd g = s.rd g := by
  unfold State.irq
  extract_lets u
  split
  · exact ((u.blockToHost_regs b).rd g hp).trans hw
  · exact hw

/-- Fields of different registers written one after the other each read the value written, within their width. -/
theorem State.rd_each_wr {s : State} (i : s.Inv) (f : Nat → Fld) (v : Nat → Nat) : ∀ {l : List Nat},
    (l.map fun j => (f j).off).Nodup → (∀ j ∈ l, isDiscovery (f j).off = false ∧ (f j).lo + (f j).w ≤ 32) → ∀ k ∈ l,
    (s.each l fun j s => s.wr (f j) (v j)).rd (f k) = v k % 2 ^ (f k).w := by
  intro l
  induction l generalizing s with
  | nil => exact fun _ _ k hk => absurd hk List.not_mem_nil
  | cons a l ih =>
    intro hn hf k hk
    obtain ⟨ha, hn⟩ := List.nodup_cons.mp hn
    obtain ⟨⟨hd, hw⟩, hf⟩ := List.forall_mem_cons.mp hf
    have start : (s.each (a :: l) fun j s => s.wr (f j) (v j)) = (s.wr (f a) (v a)).each l fun j s => s.wr (f j) (v j) := rfl
    rw [start]
    rcases List.mem_cons.mp hk with rfl | hk
    · have rest : (s.wr (f k) (v k)).RegsOnly (· ∈ l.map fun j => (f j).off)
          ((s.wr (f k) (v k)).each l fun j s => s.wr (f j) (v j)) :=
        State.RegsOnly.each (fun j hj _ h => h.wr (f j) (v j) (List.mem_map.mpr ⟨j, hj, rfl⟩)) (.refl _ _)
      rw [rest.rd _ ha, State.rd_wr_mod i hd hw]
    · exact ih (State.wr_inv i _ _) hn hf k hk

/-! ### Register values -/

/-- A field of a word is less than its range. -/
theorem Fld.get_lt (f : Fld) (w : Word) : f.get w < 2 ^ f.w := by
  rw [Fld.get, BitVec.toNat_and]
  refine Nat.and_lt_two_pow _ ?_
  rw [Fld.mask, BitVec.toNat_ofNat]
  exact lt_of_le_of_lt (Nat.mod_le _ _) (Nat.sub_lt (Nat.two_pow_pos _) one_pos)

/-- A field of a word with more bits set. -/
theorem Fld.of_or (f : Fld) (a b : Word) : f.of (a ||| b) = f.of a ||| f.of b := by
  simp only [Fld.of, Fld.get, BitVec.ushiftRight_or_distrib, BitVec.and_or_distrib_right, BitVec.toNat_or]

/-- A one-bit field that is set in the bits added. -/
theorem Fld.of_or_one {f : Fld} (hw : f.w = 1) (a : Word) {b : Word} (h : f.of b = 1) : f.of (a ||| b) = 1 := by
  have bit : f.of a < 2 ^ 1 := hw ▸ f.get_lt a
  rw [Fld.of_or, h]
  interval_cases f.of a <;> rfl

/-- A field that the bits added do not reach. -/
theorem Fld.of_or_zero {f : Fld} (a : Word) {b : Word} (h : f.of b = 0) : f.of (a ||| b) = f.of a := by
  rw [Fld.of_or, h, Nat.or_zero]

/-! ### Writes that pass the gate -/

/-- R413: a write that passes the gate is mirrored, takes its effect, and may raise an interrupt. -/
theorem State.write_passes {s : State} {src : Agent} {off : Nat} (hg : s.gate src off = .pass true) (size : Size) (val : Word)
    (eff : State → State) :
    s.write src off size val eff = (eff (s.mirror src off size val false)).levelRaise s off := by
  simp only [State.write, hg]

/-- Only block 0x20 holds discovery registers. -/
theorem isDiscovery_of_block {off : Nat} (h : off / 0x40000 ≠ 0x20) : isDiscovery off = false := by
  rw [isDiscovery, Bool.and_eq_false_iff, decide_eq_false_iff_not, decide_eq_false_iff_not]
  omega

/-- R35, R38: the registers of the SEAL and CKV blocks. -/
def sealBlocks (off : Nat) : Prop := off / 0x40000 = 0x0D ∨ off / 0x40000 = 0x0E

/-- No register of the SEAL and CKV blocks is a discovery register. -/
theorem sealBlocks.fixed {off : Nat} (h : sealBlocks off) : isDiscovery off = false :=
  isDiscovery_of_block (by unfold sealBlocks at h; omega)

/-- R413: a mirror record leaves the registers of the SEAL and CKV blocks. -/
theorem State.rd_mirror {s : State} {src : Agent} {off : Nat} {size : Size} {val : Word} {held : Bool} {f : Fld}
    (h : sealBlocks f.off) : (s.mirror src off size val held).rd f = s.rd f :=
  (s.mirror_regs src off size val held).rd f (by unfold sealBlocks at h; unfold mirrorRegs; omega)

/-- R396: an interrupt that a register write makes pending leaves the registers of the SEAL and CKV blocks. -/
theorem State.rd_levelRaise {t s : State} {off : Nat} {f : Fld} (h : sealBlocks f.off) : (t.levelRaise s off).rd f = t.rd f :=
  (t.levelRaise_regs s off).rd f (by unfold sealBlocks at h; unfold pendingBits; omega)

/-- R413: a mirror record leaves the check-value units. -/
theorem State.ckvUnit_mirror (s : State) (src : Agent) (off : Nat) (size : Size) (val : Word) (held : Bool) (n : Nat) :
    (s.mirror src off size val held).ckvUnit n = s.ckvUnit n := by
  rw [State.ckvUnit, (State.mirror_keeps s src off size val held (.refl s 0x8008) (.refl _)).ckv_eq, State.ckvUnit]

/-- R396: a pending interrupt leaves the check-value units. -/
theorem State.ckvUnit_levelRaise (t s : State) (off n : Nat) : (t.levelRaise s off).ckvUnit n = t.ckvUnit n := by
  rw [State.ckvUnit, (State.levelRaise_keeps t s off (.refl t 0x8) (.refl _)).ckv_eq, State.ckvUnit]

end Sys2Proof.Machine
end

section
/-! SUPPORT. Checking points (R19, R21, R26 to R33): what a check finds, what a repeated mismatch counts, and each policy's
answer. -/

namespace Sys2Proof.Machine

/-! ### What a check finds -/

/-- R19: a header that a checking point accepts. -/
theorem TileHdr.valid_iff (h : TileHdr) :
    h.valid = true ↔ h.magic = 0xA7 ∧ 1 ≤ h.len16 ∧ h.len16 ≤ 4096 ∧ h.format ∈ formatCodes ∧ ¬ h.flags / 2 ^ 7 % 2 = 1 := by
  simp only [TileHdr.valid, TileHdr.flag, Bool.and_eq_true, beq_iff_eq, decide_eq_true_eq, List.contains_iff_mem,
    Bool.not_eq_true', beq_eq_false_iff_ne, ne_eq, and_assoc]

/-- R26: a check answers an invalid header exactly when the header is one. -/
theorem verify_eq_header_iff {t : Tile} {checkSeal : Bool} {comp : Nat} :
    verify t checkSeal comp = some .header ↔ ¬ t.hdr.valid = true := by
  unfold verify
  cases t.hdr.valid <;> cases checkSeal && comp != t.hdr.crc <;> simp

/-- R26: a check answers a mismatch when the header is valid and the seal computed is not the one found. -/
theorem verify_mismatch {t : Tile} {comp : Nat} (hv : t.hdr.valid = true) (hc : comp ≠ t.hdr.crc) :
    verify t true comp = some .mismatch := by
  simp [verify, hv, hc]

/-- R17: setting a flag that is set changes nothing. -/
theorem TileHdr.setFlag_of_flag {h : TileHdr} {i : Nat} (hf : h.flag i = true) : h.setFlag i true = h := by
  have set : h.flags / 2 ^ i % 2 = 1 := beq_iff_eq.mp hf
  have low : h.flags = 2 ^ i * (h.flags / 2 ^ i) + h.flags % 2 ^ i := (Nat.div_add_mod _ _).symm
  have same : h.flags / 2 ^ (i + 1) * 2 ^ (i + 1) + 2 ^ i + h.flags % 2 ^ i = h.flags := by
    rw [pow_succ, ← Nat.div_div_eq_div_mul]
    conv_rhs => rw [low, ← Nat.div_add_mod (h.flags / 2 ^ i) 2, set]
    ring
  simp only [TileHdr.setFlag, if_true, same]

/-! ### Halting an edge -/

/-- R30: halting an edge touches SEAL_STATUS and MSI-X pending bits. -/
theorem State.haltEdge_regs (s : State) (q : Nat) :
    s.RegsOnly (fun off => off = F.SEAL_STATUS_HALTED_EDGES.off ∨ pendingBits off) (s.haltEdge q) := by
  unfold State.haltEdge
  extract_lets d a e b
  have stored : s.RegsOnly (fun off => off = F.SEAL_STATUS_HALTED_EDGES.off ∨ pendingBits off) b := .regs (.refl _ s) rfl
  exact (stored.wr F.SEAL_STATUS_HALTED_EDGES _ (.inl rfl)).trans
    (State.irq_regs _ 0x0D F.SEAL_CTRL_HALT_IRQ_EN (.inl rfl) fun _ => .inr)

/-- R30: halting an edge leaves the captured event's mark. -/
theorem State.rd_haltEdge_evtValid {s : State} (i : s.Inv) (q : Nat) :
    (s.haltEdge q).rd F.SEAL_STATUS_EVT_VALID = s.rd F.SEAL_STATUS_EVT_VALID := by
  unfold State.haltEdge
  extract_lets d a e b
  have ib : b.Inv := ⟨i.mem, i.regs, i.disc⟩
  have stored : b.rd F.SEAL_STATUS_EVT_VALID = s.rd F.SEAL_STATUS_EVT_VALID := rfl
  clear_value b
  have counted : (b.inc F.SEAL_STATUS_HALTED_EDGES).rd F.SEAL_STATUS_EVT_VALID = b.rd F.SEAL_STATUS_EVT_VALID :=
    State.rd_wr_fld ib rfl (by decide)
  have flagged := State.rd_wr_fld (State.inc_inv ib F.SEAL_STATUS_HALTED_EDGES 1) (f := F.SEAL_STATUS_HALT_IRQ) (v := 1)
    (g := F.SEAL_STATUS_EVT_VALID) rfl (by decide)
  exact (State.rd_irq flagged (by unfold pendingBits; decide)).trans (counted.trans stored)

/-- R30: the edge is halted. -/
theorem State.haltEdge_halted (s : State) (q : Nat) : ((s.haltEdge q).queue q).halted = true := by
  unfold State.haltEdge
  extract_lets d a e b
  have marked : b.queue q = { s.queue q with halted := true } :=
    KMap.get_set_ne _ _ _ _ fun h => Bool.noConfusion (congrArg Queue.halted h)
  have kept : ((b.inc F.SEAL_STATUS_HALTED_EDGES).irq 0x0D F.SEAL_STATUS_HALT_IRQ F.SEAL_CTRL_HALT_IRQ_EN).hq = b.hq :=
    (State.irq_keeps _ _ _ _ (State.inc_keeps b _ _ (.refl b 0x8) (.refl _)) (.refl _)).hq_eq
  rw [State.queue, kept, ← State.queue, marked]

/-! ### A repeated mismatch -/

/-- R33: from `s` to `t` one repeat was counted, no mismatch was, and no event was captured or lost. -/
structure State.CountsRepeat (s t : State) : Prop where
  /-- The repeat is counted. -/
  repeated : t.rd F.SEAL_REPEAT_COUNT_COUNT = min (s.rd F.SEAL_REPEAT_COUNT_COUNT + 1) (2 ^ 32 - 1)
  /-- It is not counted as a mismatch. -/
  mismatch : t.rd F.SEAL_MISMATCH_COUNT_COUNT = s.rd F.SEAL_MISMATCH_COUNT_COUNT
  /-- It is not counted as lost. -/
  lost : t.rd F.SEAL_EVT_LOST_COUNT = s.rd F.SEAL_EVT_LOST_COUNT
  /-- It is not captured. -/
  event : t.rd F.SEAL_STATUS_EVT_VALID = s.rd F.SEAL_STATUS_EVT_VALID

/-- R33: counting in SEAL_REPEAT_COUNT does that. -/
theorem State.countsRepeat_inc {s : State} (i : s.Inv) : s.CountsRepeat (s.inc F.SEAL_REPEAT_COUNT_COUNT) :=
  ⟨State.rd_inc_same i (by decide) (by decide), State.rd_inc_off (by decide), State.rd_inc_off (by decide),
    State.rd_inc_off (by decide)⟩

/-- What is done after a repeat was counted, outside the three counters and the event's mark. -/
theorem State.CountsRepeat.trans {P : Nat → Prop} {s t u : State} (h : s.CountsRepeat t) (k : t.RegsOnly P u)
    (hr : ¬ P F.SEAL_REPEAT_COUNT_COUNT.off) (hm : ¬ P F.SEAL_MISMATCH_COUNT_COUNT.off) (hl : ¬ P F.SEAL_EVT_LOST_COUNT.off)
    (he : u.rd F.SEAL_STATUS_EVT_VALID = t.rd F.SEAL_STATUS_EVT_VALID) : s.CountsRepeat u :=
  ⟨(k.rd _ hr).trans h.repeated, (k.rd _ hm).trans h.mismatch, (k.rd _ hl).trans h.lost, he.trans h.event⟩

/-- Another counter after a repeat was counted. -/
theorem State.CountsRepeat.inc {s t : State} (h : s.CountsRepeat t) (f : Fld) (hr : F.SEAL_REPEAT_COUNT_COUNT.off ≠ f.off)
    (hm : F.SEAL_MISMATCH_COUNT_COUNT.off ≠ f.off) (hl : F.SEAL_EVT_LOST_COUNT.off ≠ f.off)
    (he : F.SEAL_STATUS_EVT_VALID.off ≠ f.off) : s.CountsRepeat (t.inc f) :=
  h.trans ((State.RegsOnly.refl (· = f.off) t).wr f _ rfl) hr hm hl (State.rd_inc_off he)

/-- R30: the edge's halt after a repeat was counted. -/
theorem State.CountsRepeat.haltEdge {s t : State} (h : s.CountsRepeat t) (i : t.Inv) (q : Nat) :
    s.CountsRepeat (t.haltEdge q) :=
  h.trans (t.haltEdge_regs q) (by unfold pendingBits; decide) (by unfold pendingBits; decide) (by unfold pendingBits; decide)
    (State.rd_haltEdge_evtValid i q)

/-- R33: a mismatch on a tile that carries SEAL_ERR is only counted, as a repeat. -/
theorem State.countFailure_repeat (s : State) (mesh : Nat) {x : Tile} (hx : x.hdr.flag 1 = true) (policy : Nat)
    (halted fill : Bool) (comp : Nat) :
    s.countFailure mesh x .mismatch policy halted fill comp = s.inc F.SEAL_REPEAT_COUNT_COUNT := by
  simp only [State.countFailure, hx, if_true]

/-- R26: a tile that fails on an edge that is not halted meets the edge's policy. -/
theorem State.checkTile_fails {s : State} {ed : Edge} (hh : (s.queue ed.qid).halted = false) (mesh : Nat) {x : Tile}
    {checkSeal : Bool} {comp : Nat} {f : SealFail} (hf : verify x checkSeal comp = some f) :
    s.checkTile ed mesh x checkSeal comp = s.applyPolicy ed (s.pixFmt ed.prod) mesh x f comp := by
  simp [State.checkTile, hh, hf]

section
variable {s : State} {ed : Edge} (p : PixFmt) (mesh : Nat) {x : Tile} (hx : x.hdr.flag 1 = true) (comp : Nat)
include hx

/-- R28, R33: PASS_MARKED lets the tile, which is marked already, through as it is. -/
theorem State.applyPolicy_repeat_marked (h : ed.policy ≠ 1) (h' : ed.policy ≠ 2) :
    s.applyPolicy ed p mesh x .mismatch comp = ({ outcome := 1, tile := x }, s.inc F.SEAL_REPEAT_COUNT_COUNT) := by
  unfold State.applyPolicy
  split
  case h_1 e => exact absurd e h
  case h_2 e => exact absurd e h'
  case h_3 => simp only [State.countFailure_repeat s mesh hx, TileHdr.setFlag_of_flag hx]

/-- R29, R33: SUBSTITUTE puts another tile in its place and counts it (the model counts every substitute, log entry 9). -/
theorem State.applyPolicy_repeat_substituted (h : ed.policy = 1) :
    ∃ r e, s.applyPolicy ed p mesh x .mismatch comp =
      ({ outcome := 2, tile := r },
        ((s.inc F.SEAL_REPEAT_COUNT_COUNT).setEdgeSeal ed.qid e).inc F.SEAL_SUBST_COUNT_COUNT) := by
  refine ⟨(substitute ed p (s.edgeSeal ed.qid) x).1, { (s.inc F.SEAL_REPEAT_COUNT_COUNT).edgeSeal ed.qid with
    expect := some (Expect.after p (substitute ed p (s.edgeSeal ed.qid) x).1.hdr) }, ?_⟩
  simp only [State.applyPolicy, h, State.countFailure_repeat s mesh hx]

/-- R30, R33: DROP_HALT drops the tile and halts the edge. -/
theorem State.applyPolicy_repeat_dropped (h : ed.policy = 2) :
    s.applyPolicy ed p mesh x .mismatch comp =
      ({ outcome := 3, tile := x },
        ((s.inc F.SEAL_REPEAT_COUNT_COUNT).haltEdge ed.qid).inc F.SEAL_DROP_COUNT_COUNT) := by
  simp only [State.applyPolicy, h, State.countFailure_repeat s mesh hx]

end

/-- R33: whatever the edge's policy, the repeat is counted in the one counter and captures no event. -/
theorem State.applyPolicy_countsRepeat {s : State} (i : s.Inv) (ed : Edge) (p : PixFmt) (mesh : Nat) {x : Tile}
    (hx : x.hdr.flag 1 = true) (comp : Nat) : s.CountsRepeat (s.applyPolicy ed p mesh x .mismatch comp).2 := by
  have counted := State.countsRepeat_inc i
  by_cases h1 : ed.policy = 1
  · obtain ⟨y, e, substituted⟩ := State.applyPolicy_repeat_substituted (s := s) p mesh hx comp h1
    rw [substituted]
    have stored : s.CountsRepeat ((s.inc F.SEAL_REPEAT_COUNT_COUNT).setEdgeSeal ed.qid e) :=
      ⟨counted.repeated, counted.mismatch, counted.lost, counted.event⟩
    exact stored.inc F.SEAL_SUBST_COUNT_COUNT (by decide) (by decide) (by decide) (by decide)
  by_cases h2 : ed.policy = 2
  · rw [State.applyPolicy_repeat_dropped p mesh hx comp h2]
    exact (counted.haltEdge (State.inc_inv i _ _) ed.qid).inc F.SEAL_DROP_COUNT_COUNT (by decide) (by decide) (by decide)
      (by decide)
  · rw [State.applyPolicy_repeat_marked p mesh hx comp h1 h2]
    exact counted

section
variable {s : State} {ed : Edge} (p : PixFmt) (mesh : Nat) {x : Tile} (hx : x.hdr.flag 1 = true) (comp : Nat)
include hx

/-- R29, R33: under SUBSTITUTE the tile is replaced, and the substitute is counted. -/
theorem State.applyPolicy_repeat_counts_substitute (i : s.Inv) (h : ed.policy = 1) :
    (s.applyPolicy ed p mesh x .mismatch comp).1.outcome = 2 ∧
      (s.applyPolicy ed p mesh x .mismatch comp).2.rd F.SEAL_SUBST_COUNT_COUNT =
        min (s.rd F.SEAL_SUBST_COUNT_COUNT + 1) (2 ^ 32 - 1) := by
  obtain ⟨y, e, substituted⟩ := State.applyPolicy_repeat_substituted (s := s) p mesh hx comp h
  have it : ((s.inc F.SEAL_REPEAT_COUNT_COUNT).setEdgeSeal ed.qid e).Inv :=
    (State.setEdgeSeal_keeps _ ed.qid e (.refl _ 0x20) (.refl _)).inv (State.inc_inv i _ _)
  have before : ((s.inc F.SEAL_REPEAT_COUNT_COUNT).setEdgeSeal ed.qid e).rd F.SEAL_SUBST_COUNT_COUNT =
      s.rd F.SEAL_SUBST_COUNT_COUNT := State.rd_inc_off (by decide)
  rw [substituted]
  exact ⟨rfl, before ▸ State.rd_inc_same it (by decide) (by decide)⟩

/-- R30, R33: under DROP_HALT the tile is dropped, and the edge is halted. -/
theorem State.applyPolicy_repeat_halts (h : ed.policy = 2) :
    (s.applyPolicy ed p mesh x .mismatch comp).1 = { outcome := 3, tile := x } ∧
      ((s.applyPolicy ed p mesh x .mismatch comp).2.queue ed.qid).halted = true := by
  have counted := State.inc_keeps ((s.inc F.SEAL_REPEAT_COUNT_COUNT).haltEdge ed.qid) F.SEAL_DROP_COUNT_COUNT 1
    (.refl _ 0x8) (.refl _)
  rw [State.applyPolicy_repeat_dropped p mesh hx comp h, State.queue, counted.hq_eq]
  exact ⟨rfl, State.haltEdge_halted _ _⟩

end

/-- Settles O9 (R33): the repeat is counted in the one counter, and the edge's policy follows. That each substitute counts in
SEAL_SUBST_COUNT is the model's choice (log entry 9). -/
theorem repeatedMismatch : Obligations.RepeatedMismatch := by
  intro ed mesh x s i hh hv hx hc r
  have policy : r = s.applyPolicy ed (s.pixFmt ed.prod) mesh x .mismatch :=
    State.checkTile_fails hh mesh (verify_mismatch hv hc)
  clear_value r
  subst policy
  obtain ⟨repeated, mismatch, lost, event⟩ := State.applyPolicy_countsRepeat i ed (s.pixFmt ed.prod) mesh hx _
  refine ⟨repeated, mismatch, lost, event, fun h => ?_, State.applyPolicy_repeat_counts_substitute _ mesh hx _ i,
    State.applyPolicy_repeat_halts _ mesh hx _⟩
  rw [State.applyPolicy_repeat_marked _ mesh hx _ (by omega) (by omega)]

/-! ### The order of numbers -/

/-- R21: a number is later than another when their difference modulo 2^32 is between 1 and 2^31 − 1. -/
theorem later_iff {a b : Nat} (ha : a < 2 ^ 32) (hb : b < 2 ^ 32) :
    later a b = true ↔ 1 ≤ ((a : Int) - b) % 2 ^ 32 ∧ ((a : Int) - b) % 2 ^ 32 ≤ 2 ^ 31 - 1 := by
  have apart : (((a + 2 ^ 32 - b % 2 ^ 32) % 2 ^ 32 : Nat) : Int) = ((a : Int) - b) % 2 ^ 32 := by omega
  rw [later, Bool.and_eq_true, decide_eq_true_eq, decide_eq_true_eq]
  omega

/-- Settles O8 (R19, R21): the check's own condition on the header, and the difference modulo 2^32. -/
theorem tileHeaderAndOrder : Obligations.TileHeaderAndOrder := by
  refine ⟨fun t checkSeal => ?_, fun a b ha hb => ⟨later_iff ha hb, fun h => ⟨?_, ?_⟩⟩⟩
  · simp only [verify_eq_header_iff, TileHdr.valid_iff, not_and_or, not_le, Nat.lt_one_iff, not_not, ne_eq]
  · rw [Bool.eq_false_iff, ne_eq, later_iff ha hb]
    omega
  · rw [Bool.eq_false_iff, ne_eq, later_iff hb ha]
    omega

end Sys2Proof.Machine
end

section
/-! SUPPORT. The SEAL block's commands (R30, R35, R36) and the check-value units (R38 to R42). -/

namespace Sys2Proof.Machine

/-! ### The SEAL block's commands -/

/-- R30: SEAL_HALT_CLR of a halted edge makes it resume; its HALTED mark stays (the model's choice, log entry 8). -/
theorem sealHaltClr_completes {src : Agent} {val : Word} {s : State} (hg : s.Passes src F.SEAL_HALT_CLR_QID)
    (hh : (s.queue (F.SEAL_HALT_CLR_QID.of val)).halted = true) :
    Completes (.sealHaltClr src val) s fun t =>
      (t.edgeSeal (F.SEAL_HALT_CLR_QID.of val)).resuming = true ∧ t.hq = s.hq := by
  have write := State.write_passes hg .word val fun s => s.sealHaltClr val
  have mirrored := State.mirror_keeps s src F.SEAL_HALT_CLR_QID.off .word val false (.refl s 0x8008) (.refl _)
  generalize s.mirror src F.SEAL_HALT_CLR_QID.off .word val false = m at write mirrored
  have halted : (m.queue (F.SEAL_HALT_CLR_QID.of val)).halted = true := by rwa [State.queue, mirrored.hq_eq]
  have effect : m.sealHaltClr val = m.setEdgeSeal (F.SEAL_HALT_CLR_QID.of val)
      { m.edgeSeal (F.SEAL_HALT_CLR_QID.of val) with resuming := true } := if_pos halted
  have raised := State.levelRaise_keeps (m.sealHaltClr val) s F.SEAL_HALT_CLR_QID.off (.refl _ 0x8) (.refl _)
  refine ⟨_, congrArg Host.Outcome.next write, ?_, ?_⟩
  · rw [State.edgeSeal, raised.seals_eq, effect]
    exact congrArg EdgeSeal.resuming (KMap.get_set_ne _ _ _ _ fun h => Bool.noConfusion (congrArg EdgeSeal.resuming h))
  · rw [raised.hq_eq, effect, ← mirrored.hq_eq]
    rfl

/-- R35: SEAL_EVT_POP empties the event registers and leaves the count of halted edges. -/
theorem sealEvtPop_completes {src : Agent} {val : Word} {s : State} (i : s.Inv) (hg : s.Passes src F.SEAL_EVT_POP_POP)
    (hp : F.SEAL_EVT_POP_POP.of val = 1) :
    Completes (.sealEvtPop src val) s fun t =>
      t.rd F.SEAL_STATUS_EVT_VALID = 0 ∧ t.rd F.SEAL_STATUS_HALTED_EDGES = s.rd F.SEAL_STATUS_HALTED_EDGES := by
  have block : sealBlocks 0x340004 := .inl rfl
  have effect (m : State) : m.sealPop val = m.wr F.SEAL_STATUS_EVT_VALID 0 := if_pos hp
  have im := State.mirror_inv i src F.SEAL_EVT_POP_POP.off .word val false
  refine ⟨_, congrArg Host.Outcome.next (State.write_passes hg .word val fun s => s.sealPop val), ?_, ?_⟩
  · rw [State.rd_levelRaise (f := F.SEAL_STATUS_EVT_VALID) block, effect,
      State.rd_wr_same im (by decide) (by decide) (by decide)]
  · rw [State.rd_levelRaise (f := F.SEAL_STATUS_HALTED_EDGES) block, effect,
      State.rd_wr_fld (f := F.SEAL_STATUS_EVT_VALID) (g := F.SEAL_STATUS_HALTED_EDGES) im rfl (by decide),
      State.rd_mirror (f := F.SEAL_STATUS_HALTED_EDGES) block]

/-- R36: a cleared count reads 0, or 1 where it was incremented in the same cycle. -/
theorem State.rd_sealClear {s : State} (i : s.Inv) (inc : BitVec 6) {k : Nat} (hk : k < 6) :
    (s.sealClear inc).rd (sealCounts.getD k F.SEAL_EVT_LOST_COUNT) = if inc.getLsbD k then 1 else 0 := by
  have width : ∀ k < 6, (sealCounts.getD k F.SEAL_EVT_LOST_COUNT).w = 32 := by decide
  rw [State.sealClear, State.rd_each_wr i (fun j => sealCounts.getD j F.SEAL_EVT_LOST_COUNT)
    (fun j => if inc.getLsbD j then 1 else 0) (by decide) (by decide) k (List.mem_range.mpr hk), width k hk]
  split <;> rfl

/-- R36: SEAL_CTRL with CLR_COUNTS clears the six counts. -/
theorem clrCounts_completes {src : Agent} {val : Word} {inc : BitVec 6} {s : State} (i : s.Inv)
    (hg : s.Passes src F.SEAL_CTRL_CLR_COUNTS) :
    Completes (.clrCounts src val inc) s fun t =>
      ∀ k < 6, t.rd (sealCounts.getD k F.SEAL_EVT_LOST_COUNT) = if inc.getLsbD k then 1 else 0 := by
  have block : ∀ k < 6, (sealCounts.getD k F.SEAL_EVT_LOST_COUNT).off / 0x40000 = 0x0D := by decide
  have asked : F.SEAL_CTRL_CLR_COUNTS.of (val ||| 4) = 1 := Fld.of_or_one rfl val (by decide)
  have effect (m : State) : m.sealCtrl (val ||| 4) inc = (m.plainWrite F.SEAL_CTRL_CLR_COUNTS.off (val ||| 4)).sealClear inc :=
    if_pos asked
  have iw (m : State) (im : m.Inv) : (m.plainWrite F.SEAL_CTRL_CLR_COUNTS.off (val ||| 4)).Inv :=
    (State.plainWrite_keeps m _ _ (.refl m 0x8) (.refl _)).inv im
  refine ⟨_, congrArg Host.Outcome.next (State.write_passes hg .word (val ||| 4) fun s => s.sealCtrl (val ||| 4) inc),
    fun k hk => ?_⟩
  rw [State.rd_levelRaise (.inl (block k hk)), effect, State.rd_sealClear (iw _ (State.mirror_inv i ..)) inc hk]

/-! ### Check-value units -/

section
variable (s : State) (n : Nat)

/-- A unit just replaced by one that is not as after reset. -/
theorem State.ckvUnit_setCkvUnit {u : CkvUnit} (h : u ≠ {}) : (s.setCkvUnit n u).ckvUnit n = u := KMap.get_set_ne _ _ _ _ h

/-- A field write leaves the check-value units. -/
theorem State.ckvUnit_wr (f : Fld) (v : Nat) : (s.wr f v).ckvUnit n = s.ckvUnit n := by
  rw [State.ckvUnit, (State.wr_keeps s f v (.refl s 0x8) (.refl _)).ckv_eq, State.ckvUnit]

/-- The check-value units are no registers. -/
theorem State.rd_setCkvUnit (u : CkvUnit) (f : Fld) : (s.setCkvUnit n u).rd f = s.rd f := rfl

/-- Replacing a check-value unit carries the invariant over. -/
theorem State.setCkvUnit_inv {s : State} (i : s.Inv) (n : Nat) (u : CkvUnit) : (s.setCkvUnit n u).Inv :=
  ⟨i.mem, i.regs, i.disc⟩

/-- R38: BUSY's register is CKV_STAT; every other register reads as before. -/
theorem State.rd_ckvBusy_off {f : Fld} (h : f.off ≠ (F.CKV_STAT_BUSY n).off) : (s.ckvBusy n).rd f = s.rd f := State.rd_wr_off h

/-- R38: BUSY leaves the units. -/
theorem State.ckvUnit_ckvBusy : (s.ckvBusy n).ckvUnit n = s.ckvUnit n := State.ckvUnit_wr ..

/-- R38: a new register value leaves the units. -/
theorem State.ckvUnit_ckvShow (alg r : Nat) : (s.ckvShow n alg r).ckvUnit n = s.ckvUnit n := by
  rw [State.ckvShow, State.ckvUnit_wr, State.ckvUnit_wr]

/-- R38: a new register value shows in CKV_REG and CKV_RESULT only. -/
theorem State.rd_ckvShow_off {alg r : Nat} {f : Fld} (h : f.off ≠ (F.CKV_REG_REG n).off)
    (h' : f.off ≠ (F.CKV_RESULT_RESULT n).off) : (s.ckvShow n alg r).rd f = s.rd f := by
  rw [State.ckvShow, State.rd_wr_off h', State.rd_wr_off h]

/-- R40: a unit with no write buffered takes nothing in. -/
theorem State.ckvLoad_of_free (h : (s.ckvUnit n).buf = none) : s.ckvLoad n = s := by
  cases hc : (s.ckvUnit n).cur <;> simp only [State.ckvLoad, hc, h]

/-- R40: a buffered write of bytes enters an idle unit. -/
theorem State.ckvLoad_bytes {b : List Byte} (hc : (s.ckvUnit n).cur = []) (hb : (s.ckvUnit n).buf = some (.bytes b)) :
    s.ckvLoad n = s.setCkvUnit n { s.ckvUnit n with cur := b, buf := none } := by
  simp only [State.ckvLoad, hc, hb]

/-- R42: a buffered START takes effect in an idle unit. -/
theorem State.ckvLoad_start {alg fold : Nat} (hc : (s.ckvUnit n).cur = []) (hb : (s.ckvUnit n).buf = some (.start alg fold)) :
    s.ckvLoad n = (s.setCkvUnit n { s.ckvUnit n with buf := none }).ckvBegin n alg fold := by
  simp only [State.ckvLoad, hc, hb]

/-- R40: a write to a unit with a free buffer does not wait. -/
theorem State.ckvWaitRoom_of_free (h : (s.ckvUnit n).buf = none) : ∀ fuel, s.ckvWaitRoom n fuel = s
  | 0 => rfl
  | _ + 1 => by simp [State.ckvWaitRoom, h]

end

/-- R38: the registers of the four units lie in the CKV block. -/
theorem sealBlocks_ckv {n a : Nat} (hn : n < 4) (ha : 0x380000 ≤ a ∧ a < 0x380040) : sealBlocks (a + 0x40 * n) := by
  unfold sealBlocks
  omega

section
variable {s : State} (i : s.Inv) {n : Nat} (hn : n < 4)
include i

/-- R38: a new register value carries the invariant over. -/
theorem State.ckvShow_inv (n alg r : Nat) : (s.ckvShow n alg r).Inv := State.wr_inv (State.wr_inv i _ _) _ _

/-- R38: BUSY leaves the other fields of CKV_STAT. -/
theorem State.rd_ckvBusy_status : (s.ckvBusy n).rd (F.CKV_STAT_STATUS n) = s.rd (F.CKV_STAT_STATUS n) :=
  State.rd_wr_fld i rfl (.inr (by simp [F.CKV_STAT_STATUS, F.CKV_STAT_BUSY]))

include hn

/-- R38: a unit with bytes to consume is busy. -/
theorem State.rd_ckvBusy_of_bytes (h : (s.ckvUnit n).cur ≠ []) : (s.ckvBusy n).rd (F.CKV_STAT_BUSY n) = 1 := by
  have busy : (!(s.ckvUnit n).cur.isEmpty || (s.ckvUnit n).buf.isSome) = true := by simp [h]
  have fixed : isDiscovery (F.CKV_STAT_BUSY n).off = false := (sealBlocks_ckv hn (by decide)).fixed
  have written : (s.ckvBusy n) = s.wr (F.CKV_STAT_BUSY n) 1 := by simp only [State.ckvBusy, State.wrB, busy, if_true]
  rw [written, State.rd_wr_same i fixed (by simp [F.CKV_STAT_BUSY]) (by simp [F.CKV_STAT_BUSY])]

/-- R38: CKV_REG shows a new register value. -/
theorem State.rd_ckvShow_reg (alg r : Nat) : (s.ckvShow n alg r).rd (F.CKV_REG_REG n) = r % 2 ^ 32 := by
  have fixed : isDiscovery (F.CKV_REG_REG n).off = false := (sealBlocks_ckv hn (by decide)).fixed
  rw [State.ckvShow, State.rd_wr_off (by simp [F.CKV_REG_REG, F.CKV_RESULT_RESULT]), State.rd_wr_mod i fixed (Nat.le_refl 32)]
  rfl

/-- R42: START loads the initial register and clears CKV_COUNT; that it clears STATUS is the model's choice (log entry 135). -/
theorem State.rd_ckvBegin {alg : Nat} (ha : alg ≠ 3) (fold : Nat) :
    (s.ckvBegin n alg fold).rd (F.CKV_REG_REG n) = crcInit alg fold % 2 ^ 32 ∧
      (s.ckvBegin n alg fold).rd (F.CKV_COUNT_BYTES n) = 0 ∧ (s.ckvBegin n alg fold).rd (F.CKV_STAT_STATUS n) = 0 := by
  have started : s.ckvBegin n alg fold = (((s.setCkvUnit n { s.ckvUnit n with alg := alg }).ckvShow n alg (crcInit alg fold)).wr
      (F.CKV_COUNT_BYTES n) 0).wr (F.CKV_STAT_STATUS n) 0 := if_neg ha
  have shown := State.rd_ckvShow_reg (State.setCkvUnit_inv i n { s.ckvUnit n with alg := alg }) hn alg (crcInit alg fold)
  have is := State.ckvShow_inv (State.setCkvUnit_inv i n { s.ckvUnit n with alg := alg }) n alg (crcInit alg fold)
  have count : isDiscovery (F.CKV_COUNT_BYTES n).off = false := (sealBlocks_ckv hn (by decide)).fixed
  have status : isDiscovery (F.CKV_STAT_STATUS n).off = false := (sealBlocks_ckv hn (by decide)).fixed
  rw [started]
  refine ⟨?_, ?_, ?_⟩
  · rw [State.rd_wr_off (by simp [F.CKV_REG_REG, F.CKV_STAT_STATUS]),
      State.rd_wr_off (by simp [F.CKV_REG_REG, F.CKV_COUNT_BYTES]), shown]
  · rw [State.rd_wr_off (by simp [F.CKV_COUNT_BYTES, F.CKV_STAT_STATUS]),
      State.rd_wr_same is count (Nat.le_refl 32) (Nat.two_pow_pos _)]
  · exact State.rd_wr_same (State.wr_inv is _ _) status (Nat.le_refl 32) (Nat.two_pow_pos _)

end

/-- R40: a write put into a free buffer moves on at once. -/
theorem State.ckvPut_of_free {s : State} {n : Nat} (hb : (s.ckvUnit n).buf = none) (item : CkvItem) :
    s.ckvPut n item = ((s.setCkvUnit n { s.ckvUnit n with buf := some item }).ckvLoad n).ckvBusy n := by
  rw [State.ckvPut, State.ckvWaitRoom_of_free s n hb]

/-- The unit that holds a write in its buffer. -/
theorem State.ckvUnit_buffered (s : State) (n : Nat) (item : CkvItem) :
    (s.setCkvUnit n { s.ckvUnit n with buf := some item }).ckvUnit n = { s.ckvUnit n with buf := some item } :=
  State.ckvUnit_setCkvUnit s n fun h => by cases congrArg CkvUnit.buf h

/-- R39: an aligned write of CKV_DATA without ALG_ERR, which finds the buffer free, feeds its bytes. -/
theorem State.ckvData_of_free {s : State} {n lane : Nat} {size : Size} (hb : (s.ckvUnit n).buf = none)
    (hl : lane % size.len = 0) (he : s.rd (F.CKV_STAT_ALG_ERR n) = 0) (val : Word) :
    s.ckvData n lane size val = s.ckvPut n (.bytes (leBytes size.len val.toNat)) := by
  simp [State.ckvData, hl, State.ckvWaitRoom_of_free s n hb, State.on_of_rd_zero he]

section
variable {s : State} (i : s.Inv) {n : Nat} (hn : n < 4) (hc : (s.ckvUnit n).cur = []) (hb : (s.ckvUnit n).buf = none)
include i hn hc hb

/-- R42: an idle unit takes START in at once. -/
theorem State.rd_ckvPut_start {alg : Nat} (ha : alg ≠ 3) (fold : Nat) :
    (s.ckvPut n (.start alg fold)).rd (F.CKV_REG_REG n) = crcInit alg fold % 2 ^ 32 ∧
      (s.ckvPut n (.start alg fold)).rd (F.CKV_COUNT_BYTES n) = 0 ∧
      (s.ckvPut n (.start alg fold)).rd (F.CKV_STAT_STATUS n) = 0 := by
  have held := State.ckvUnit_buffered s n (.start alg fold)
  have iv := State.setCkvUnit_inv i n { s.ckvUnit n with buf := some (.start alg fold) }
  rw [State.ckvPut_of_free hb]
  generalize s.setCkvUnit n { s.ckvUnit n with buf := some (.start alg fold) } = v at held iv
  rw [State.ckvLoad_start v n (alg := alg) (fold := fold) (by rw [held, hc]) (by rw [held])]
  have iw := State.setCkvUnit_inv iv n { v.ckvUnit n with buf := none }
  have begun := (State.ckvBegin_keeps _ n alg fold (.refl _ 0x48) (.refl _)).inv iw
  obtain ⟨reg, count, status⟩ := State.rd_ckvBegin iw hn ha fold
  refine ⟨?_, ?_, ?_⟩
  · rw [State.rd_ckvBusy_off _ n (by simp [F.CKV_REG_REG, F.CKV_STAT_BUSY]), reg]
  · rw [State.rd_ckvBusy_off _ n (by simp [F.CKV_COUNT_BYTES, F.CKV_STAT_BUSY]), count]
  · rw [State.rd_ckvBusy_status begun, status]

/-- R40: an idle unit takes a write's bytes in at once; they are yet to be consumed. -/
theorem State.ckvPut_bytes {b : List Byte} (h : b ≠ []) :
    ((s.ckvPut n (.bytes b)).ckvUnit n).cur = b ∧ (s.ckvPut n (.bytes b)).rd (F.CKV_STAT_BUSY n) = 1 ∧
      (s.ckvPut n (.bytes b)).rd (F.CKV_REG_REG n) = s.rd (F.CKV_REG_REG n) := by
  have held := State.ckvUnit_buffered s n (.bytes b)
  have iv := State.setCkvUnit_inv i n { s.ckvUnit n with buf := some (.bytes b) }
  have same : (s.setCkvUnit n { s.ckvUnit n with buf := some (.bytes b) }).rd (F.CKV_REG_REG n) = s.rd (F.CKV_REG_REG n) := rfl
  rw [State.ckvPut_of_free hb]
  generalize s.setCkvUnit n { s.ckvUnit n with buf := some (.bytes b) } = v at held iv same
  rw [State.ckvLoad_bytes v n (b := b) (by rw [held, hc]) (by rw [held])]
  have iw := State.setCkvUnit_inv iv n { v.ckvUnit n with cur := b, buf := none }
  have taken : ((v.setCkvUnit n { v.ckvUnit n with cur := b, buf := none }).ckvUnit n).cur = b :=
    congrArg CkvUnit.cur (State.ckvUnit_setCkvUnit v n fun e => h (congrArg CkvUnit.cur e))
  refine ⟨?_, State.rd_ckvBusy_of_bytes iw hn (by rwa [taken]), ?_⟩
  · rw [State.ckvUnit_ckvBusy, taken]
  · rw [State.rd_ckvBusy_off _ n (by simp [F.CKV_REG_REG, F.CKV_STAT_BUSY]), State.rd_setCkvUnit, same]

end

/-- R42: START starts the algorithm written with it, with FOLD as it stands. -/
theorem State.ckvCtrl_start (s : State) (n : Nat) (val : Word) :
    s.ckvCtrl n (val ||| 0x100) = (s.wr (F.CKV_CTRL_ALG n) ((F.CKV_CTRL_ALG n).of val)).ckvPut n
      (.start ((F.CKV_CTRL_ALG n).of val) (s.rd (F.CKV_FOLD_FOLD n))) := by
  have asked : (F.CKV_CTRL_START n).of (val ||| 0x100) = 1 :=
    Fld.of_or_one rfl val (by simp [Fld.of, Fld.get, Fld.mask, F.CKV_CTRL_START])
  have alg : (F.CKV_CTRL_ALG n).of (val ||| 0x100) = (F.CKV_CTRL_ALG n).of val :=
    Fld.of_or_zero val (by simp [Fld.of, Fld.get, Fld.mask, F.CKV_CTRL_ALG])
  have fold : (s.wr (F.CKV_CTRL_ALG n) ((F.CKV_CTRL_ALG n).of val)).rd (F.CKV_FOLD_FOLD n) = s.rd (F.CKV_FOLD_FOLD n) :=
    State.rd_wr_off (by simp [F.CKV_FOLD_FOLD, F.CKV_CTRL_ALG])
  simp only [State.ckvCtrl, asked, alg, fold, if_true]

/-- R42: CKV_CTRL.START on an idle unit loads the register and clears the count. -/
theorem ckvStart_completes {src : Agent} {unit : Fin 4} {val : Word} {s : State} (i : s.Inv)
    (hg : s.Passes src (F.CKV_CTRL_START unit)) (hc : (s.ckvUnit unit).cur = []) (hb : (s.ckvUnit unit).buf = none)
    (ha : (F.CKV_CTRL_ALG unit).of val < 3) :
    Completes (.ckvStart src unit val) s fun t =>
      t.rd (F.CKV_REG_REG unit) = crcInit ((F.CKV_CTRL_ALG unit).of val) (s.rd (F.CKV_FOLD_FOLD unit)) % 2 ^ 32 ∧
      t.rd (F.CKV_COUNT_BYTES unit) = 0 ∧ t.rd (F.CKV_STAT_STATUS unit) = 0 := by
  have block {a : Nat} (h : 0x380000 ≤ a ∧ a < 0x380040) : sealBlocks (a + 0x40 * unit) := sealBlocks_ckv unit.isLt h
  have write := State.write_passes hg .word (val ||| 0x100) fun s => s.ckvCtrl unit (val ||| 0x100)
  have im := State.mirror_inv i src (F.CKV_CTRL_START unit).off .word (val ||| 0x100) false
  have kept := State.ckvUnit_mirror s src (F.CKV_CTRL_START unit).off .word (val ||| 0x100) false unit
  have fold : (s.mirror src (F.CKV_CTRL_START unit).off .word (val ||| 0x100) false).rd (F.CKV_FOLD_FOLD unit) =
    s.rd (F.CKV_FOLD_FOLD unit) := State.rd_mirror (block (by decide))
  generalize s.mirror src (F.CKV_CTRL_START unit).off .word (val ||| 0x100) false = m at write im kept fold
  obtain ⟨reg, count, status⟩ := State.rd_ckvPut_start (n := unit)
    (State.wr_inv im (F.CKV_CTRL_ALG unit) ((F.CKV_CTRL_ALG unit).of val)) unit.isLt (by rw [State.ckvUnit_wr, kept, hc])
    (by rw [State.ckvUnit_wr, kept, hb]) (Nat.ne_of_lt ha) (m.rd (F.CKV_FOLD_FOLD unit))
  refine ⟨_, congrArg Host.Outcome.next write, ?_, ?_, ?_⟩
  · rw [State.rd_levelRaise (block (by decide)), State.ckvCtrl_start, reg, fold]
  · rw [State.rd_levelRaise (block (by decide)), State.ckvCtrl_start, count]
  · rw [State.rd_levelRaise (block (by decide)), State.ckvCtrl_start, status]

/-- R39, R40: a write of CKV_DATA to an idle unit leaves its bytes to be consumed. -/
theorem ckvDataWrite_completes {src : Agent} {unit lane : Fin 4} {size : Size} {val : Word} {s : State} (i : s.Inv)
    (hg : s.gate src ((F.CKV_DATA_DATA unit).off + lane) = .pass true) (hc : (s.ckvUnit unit).cur = [])
    (hb : (s.ckvUnit unit).buf = none) (he : s.rd (F.CKV_STAT_ALG_ERR unit) = 0) (hl : lane.val % size.len = 0) :
    Completes (.ckvDataWrite src unit lane size val) s fun t =>
      (t.ckvUnit unit).cur = leBytes size.len val.toNat ∧ t.rd (F.CKV_STAT_BUSY unit) = 1 ∧
      t.rd (F.CKV_REG_REG unit) = s.rd (F.CKV_REG_REG unit) := by
  have block {a : Nat} (h : 0x380000 ≤ a ∧ a < 0x380040) : sealBlocks (a + 0x40 * unit) := sealBlocks_ckv unit.isLt h
  have write := State.write_passes hg size val fun s => s.ckvData unit lane size val
  have im := State.mirror_inv i src ((F.CKV_DATA_DATA unit).off + lane) size val false
  have kept := State.ckvUnit_mirror s src ((F.CKV_DATA_DATA unit).off + lane) size val false unit
  have rd {f : Fld} (h : sealBlocks f.off) : (s.mirror src ((F.CKV_DATA_DATA unit).off + lane) size val false).rd f = s.rd f :=
    State.rd_mirror h
  generalize s.mirror src ((F.CKV_DATA_DATA unit).off + lane) size val false = m at write im kept rd
  have fed : leBytes size.len val.toNat ≠ [] := by cases size <;> simp [Size.len, leBytes]
  have cur : (m.ckvUnit unit).cur = [] := by rw [kept, hc]
  have buf : (m.ckvUnit unit).buf = none := by rw [kept, hb]
  obtain ⟨taken, busy, reg⟩ := State.ckvPut_bytes im unit.isLt cur buf fed
  have effect := State.ckvData_of_free buf hl ((rd (block (by decide))).trans he) val
  refine ⟨_, congrArg Host.Outcome.next write, ?_, ?_, ?_⟩
  · rw [State.ckvUnit_levelRaise, effect, taken]
  · rw [State.rd_levelRaise (block (by decide)), effect, busy]
  · rw [State.rd_levelRaise (block (by decide)), effect, reg, rd (block (by decide))]

/-- R40: a unit with nothing buffered, which is not as after reset without the byte, consumes one. -/
theorem State.ckvConsume_byte {s : State} {n : Nat} {b : Byte} {l : List Byte} (hc : (s.ckvUnit n).cur = b :: l)
    (hb : (s.ckvUnit n).buf = none) (hu : l ≠ [] ∨ (s.ckvUnit n).alg ≠ 0) :
    s.ckvConsume n = (((s.setCkvUnit n { s.ckvUnit n with cur := l }).ckvShow n (s.ckvUnit n).alg
      (crcFeed (s.ckvUnit n).alg (s.rd (F.CKV_REG_REG n)) b)).incWrap (F.CKV_COUNT_BYTES n)).ckvBusy n := by
  have left : ({ s.ckvUnit n with cur := l } : CkvUnit) ≠ {} := fun e =>
    hu.elim (fun h => h (congrArg CkvUnit.cur e)) (fun h => h (congrArg CkvUnit.alg e))
  simp only [State.ckvConsume, hc]
  rw [State.ckvLoad_of_free, State.rd_setCkvUnit]
  rw [State.incWrap, State.ckvUnit_wr, State.ckvUnit_ckvShow, State.ckvUnit_setCkvUnit s n left, hb]

/-- R40: a consumed byte enters the register and is counted. -/
theorem ckvByteConsumed_completes {unit : Fin 4} {b : Byte} {l : List Byte} {s : State} (i : s.Inv)
    (hc : (s.ckvUnit unit).cur = b :: l) (hb : (s.ckvUnit unit).buf = none) (hu : l ≠ [] ∨ (s.ckvUnit unit).alg ≠ 0) :
    Completes (.ckvByteConsumed unit) s fun t =>
      t.rd (F.CKV_REG_REG unit) = crcFeed (s.ckvUnit unit).alg (s.rd (F.CKV_REG_REG unit)) b % 2 ^ 32 ∧
      t.rd (F.CKV_COUNT_BYTES unit) = (s.rd (F.CKV_COUNT_BYTES unit) + 1) % 2 ^ 32 := by
  have it := State.setCkvUnit_inv i unit { s.ckvUnit unit with cur := l }
  have count : isDiscovery (F.CKV_COUNT_BYTES unit).off = false := (sealBlocks_ckv unit.isLt (by decide)).fixed
  refine ⟨_, congrArg Host.Outcome.next (State.ckvConsume_byte hc hb hu), ?_, ?_⟩
  · rw [State.rd_ckvBusy_off _ _ (by simp [F.CKV_REG_REG, F.CKV_STAT_BUSY]), State.incWrap,
      State.rd_wr_off (by simp [F.CKV_REG_REG, F.CKV_COUNT_BYTES]), State.rd_ckvShow_reg it unit.isLt]
  · rw [State.rd_ckvBusy_off _ _ (by simp [F.CKV_COUNT_BYTES, F.CKV_STAT_BUSY]), State.incWrap,
      State.rd_wr_mod (State.ckvShow_inv it _ _ _) count (Nat.le_refl 32),
      State.rd_ckvShow_off _ _ (by simp [F.CKV_COUNT_BYTES, F.CKV_REG_REG]) (by simp [F.CKV_COUNT_BYTES, F.CKV_RESULT_RESULT])]
    rfl

/-- R41: waiting for an idle unit leaves every register but CKV_STAT. -/
theorem State.rd_ckvDrain_idle {n : Nat} {f : Fld} (hf : f.off ≠ (F.CKV_STAT_BUSY n).off) : ∀ (fuel : Nat) {s : State},
    (s.ckvUnit n).cur = [] → (s.ckvUnit n).buf = none → (s.ckvDrain n fuel).rd f = s.rd f
  | 0, _, _, _ => rfl
  | fuel + 1, s, hc, hb => by
    have idle : s.ckvConsume n = s.ckvBusy n := by simp only [State.ckvConsume, hc, State.ckvLoad_of_free s n hb]
    rw [State.ckvDrain, idle, State.rd_ckvDrain_idle hf fuel (by rw [State.ckvUnit_ckvBusy, hc])
      (by rw [State.ckvUnit_ckvBusy, hb]), State.rd_ckvBusy_off s n hf]

/-- R41: a read of an idle unit's register returns it as it stands. -/
theorem ckvResultRead_completes {unit : Fin 4} {which : Fin 3} {f : Fld} {s : State} (hc : (s.ckvUnit unit).cur = [])
    (hb : (s.ckvUnit unit).buf = none) (hf : f.off ≠ (F.CKV_STAT_BUSY unit).off)
    (read : exec (.ckvResultRead unit which) s =
      .next ((s.ckvDrain unit 10).setReadData (leBytes 4 ((s.ckvDrain unit 10).rd f)))) :
    Completes (.ckvResultRead unit which) s fun t => t.readData = leBytes 4 (s.rd f) :=
  ⟨_, read, (State.setReadData_readData _ _).trans (congrArg (leBytes 4) (State.rd_ckvDrain_idle hf 10 hc hb))⟩

/-- Settles O11 (R30, R35, R36, R38 to R42), command by command. That STATUS reads 0 after START and that the halted mark
stays after SEAL_HALT_CLR are the model's choices (log entries 135 and 8). -/
theorem sealBlockComplete : Obligations.SealBlockComplete := by
  refine ⟨fun src val s hg hh => sealHaltClr_completes hg hh, fun src val s i hg hp => sealEvtPop_completes i hg hp,
    fun src val inc s i hg => clrCounts_completes i hg, fun src unit val s i hg hc hb ha => ckvStart_completes i hg hc hb ha,
    fun src unit lane size val s i hg hc hb he hl => ckvDataWrite_completes i hg hc hb he hl,
    fun unit b l s i hc hb hu => ckvByteConsumed_completes i hc hb hu, fun unit which s hc hb => ?_⟩
  match which with
  | 0 => exact ckvResultRead_completes hc hb (by simp [F.CKV_RESULT_RESULT, F.CKV_STAT_BUSY]) rfl
  | 1 => exact ckvResultRead_completes hc hb (by simp [F.CKV_REG_REG, F.CKV_STAT_BUSY]) rfl
  | 2 => exact ckvResultRead_completes hc hb (by simp [F.CKV_COUNT_BYTES, F.CKV_STAT_BUSY]) rfl

end Sys2Proof.Machine
end

section
/-! SUPPORT. What a field reads after the shared operations, carried along with the invariant, and the configuration planes
after them. -/

namespace Sys2Proof.Machine

/-! ### Parts -/

/-- Configuration planes outside the mask. -/
theorem State.Keeps.str_eq {s t : State} {m : Nat} (h : s.Keeps m t) (w : m.testBit 7 = false := by decide) : t.str = s.str :=
  h.frame .str w

/-- The host attachment outside the mask. -/
theorem State.Keeps.hif_eq {s t : State} {m : Nat} (h : s.Keeps m t) (w : m.testBit 14 = false := by decide) : t.hif = s.hif :=
  h.frame .hif w

/-- A field write leaves the configuration planes. -/
@[simp] theorem State.wr_str (s : State) (f : Fld) (v : Nat) : (s.wr f v).str = s.str :=
  (State.wr_keeps s f v (.refl s 0x8) (.refl _)).str_eq

/-- A count leaves the configuration planes. -/
@[simp] theorem State.inc_str (s : State) (f : Fld) (k : Nat) : (s.inc f k).str = s.str := State.wr_str ..

/-- An event leaves the configuration planes. -/
@[simp] theorem State.irq_str (s : State) (b : Nat) (flag en : Fld) : (s.irq b flag en).str = s.str :=
  (State.irq_keeps s b flag en (.refl s 0x8) (.refl _)).str_eq

/-- A SHADOW_STATE is no part of the planes. -/
@[simp] theorem State.setShadow_str (s : State) (n : Nat) : (s.setShadow n).str = s.str := State.wr_str ..

/-- A status is no part of the planes. -/
@[simp] theorem State.strStatus_str (s : State) (code : Nat) : (s.strStatus code).str = s.str := State.wr_str ..

/-- An error report leaves the planes. -/
@[simp] theorem State.strError_str (s : State) (code : Nat) : (s.strError code).str = s.str :=
  (State.irq_str ..).trans (State.strStatus_str ..)

/-- New planes carry the invariant over. -/
theorem State.setStr_inv {s : State} (i : s.Inv) (d : StrState) : (s.setStr d).Inv := ⟨i.mem, i.regs, i.disc⟩

/-! ### What a field reads -/

/-- Two fields that share no bit. -/
@[reducible] def Fld.Apart (f g : Fld) : Prop := g.off ≠ f.off ∨ g.lo + g.w ≤ f.lo ∨ f.lo + f.w ≤ g.lo

/-- A field that shares no bit with the one written reads as before. -/
theorem State.rd_wr_apart {s : State} (i : s.Inv) {f g : Fld} {v : Nat} (h : f.Apart g) : (s.wr f v).rd g = s.rd g := by
  by_cases ho : g.off = f.off
  · exact State.rd_wr_fld i ho (h.resolve_left (not_not.mpr ho))
  · exact State.rd_wr_off ho

/-- The state meets the invariant, and its field `f` reads `v`. -/
structure State.Reads (s : State) (f : Fld) (v : Nat) : Prop where
  /-- The invariant. -/
  inv : s.Inv
  /-- What the field reads. -/
  eq : s.rd f = v

section
variable {s : State} {f g : Fld} {v x : Nat}

/-- A field just written. -/
theorem State.Reads.written (i : s.Inv) (f : Fld) (v : Nat) (hd : isDiscovery f.off = false := by decide)
    (hw : f.lo + f.w ≤ 32 := by decide) : (s.wr f v).Reads f (v % 2 ^ f.w) :=
  ⟨State.wr_inv i f v, State.rd_wr_mod i hd hw⟩

/-- A counter just counted. -/
theorem State.Reads.counted (i : s.Inv) (f : Fld) (k : Nat) (hd : isDiscovery f.off = false := by decide)
    (hw : f.lo + f.w ≤ 32 := by decide) : (s.inc f k).Reads f (min (s.rd f + k) (2 ^ f.w - 1)) :=
  ⟨State.inc_inv i f k, State.rd_inc_same i hd hw⟩

/-- A write of another field. -/
theorem State.Reads.wr (h : s.Reads g x) (f : Fld) (v : Nat) (a : f.Apart g := by decide) : (s.wr f v).Reads g x :=
  ⟨State.wr_inv h.inv f v, (State.rd_wr_apart h.inv a).trans h.eq⟩

/-- A count in another field. -/
theorem State.Reads.inc (h : s.Reads g x) (f : Fld) (k : Nat) (a : f.Apart g := by decide) : (s.inc f k).Reads g x :=
  h.wr f _ a

/-- An event whose flag is another field, outside the MSI-X pending bits. -/
theorem State.Reads.irq (h : s.Reads g x) (b : Nat) (flag en : Fld) (a : flag.Apart g := by decide)
    (p : g.off < 0x718000 := by decide) : (s.irq b flag en).Reads g x :=
  ⟨(State.irq_keeps s b flag en (.refl s 0x8) (.refl _)).inv h.inv,
    (State.rd_irq (State.rd_wr_apart h.inv a) fun q => absurd q.1 (Nat.not_le.mpr p)).trans h.eq⟩

/-- New configuration planes. -/
theorem State.Reads.setStr (h : s.Reads g x) (d : StrState) : (s.setStr d).Reads g x := ⟨State.setStr_inv h.inv d, h.eq⟩

end

end Sys2Proof.Machine
end

section
/-! SUPPORT. The commands of STR_CTRL (R79, R81, R90): what stands around the command's own operation, and what each operation
leaves when its state accepts it. -/

namespace Sys2Proof.Machine

/-! ### A write of STR_CTRL -/

/-- From `s` to `t` the planes are the same, and so is every register of the STR block but STR_CTRL. -/
structure State.SameStr (s t : State) : Prop where
  /-- The planes. -/
  str : t.str = s.str
  /-- The registers. -/
  rd : ∀ f : Fld, f.off / 0x40000 = 0x0F → f.off ≠ F.STR_CTRL_LOAD.off → t.rd f = s.rd f

/-- What leaves the planes and touches no register of the STR block but STR_CTRL. -/
theorem State.RegsOnly.sameStr {P : Nat → Prop} {s t : State} (h : s.RegsOnly P t) (e : t.str = s.str)
    (hp : ∀ off, off / 0x40000 = 0x0F → off ≠ F.STR_CTRL_LOAD.off → ¬ P off) : s.SameStr t :=
  ⟨e, fun f hb hc => h.rd f (hp f.off hb hc)⟩

/-- What a register of the STR block but STR_CTRL read, it still reads. -/
theorem State.SameStr.reads {s t : State} {f : Fld} {v : Nat} (h : s.SameStr t) (k : s.rd f = v)
    (hb : f.off / 0x40000 = 0x0F := by decide) (hc : f.off ≠ F.STR_CTRL_LOAD.off := by decide) : t.rd f = v :=
  (h.rd f hb hc).trans k

/-- One such operation and then another. -/
theorem State.SameStr.trans {s t u : State} (h : s.SameStr t) (k : t.SameStr u) : s.SameStr u :=
  ⟨k.str.trans h.str, fun f hb hc => (k.rd f hb hc).trans (h.rd f hb hc)⟩

/-- R413: a mirror record. -/
theorem State.mirror_sameStr (s : State) (src : Agent) (off : Nat) (size : Size) (val : Word) (held : Bool) :
    s.SameStr (s.mirror src off size val held) :=
  (s.mirror_regs src off size val held).sameStr
    (State.mirror_keeps s src off size val held (.refl s 0x8008) (.refl _)).str_eq
    fun off _ _ => by unfold mirrorRegs; omega

/-- R396: an interrupt that a register write makes pending. -/
theorem State.levelRaise_sameStr (t s : State) (off : Nat) : t.SameStr (t.levelRaise s off) :=
  (t.levelRaise_regs s off).sameStr (State.levelRaise_keeps t s off (.refl t 0x8) (.refl _)).str_eq
    fun off _ _ => by unfold pendingBits; omega

/-- An ordinary register write touches its register alone. -/
theorem State.plainWrite_regs (s : State) (off : Nat) (val : Word) : s.RegsOnly (· = off) (s.plainWrite off val) := by
  intro off' h
  unfold State.plainWrite
  split
  · exact State.reg_setReg_other _ h
  · rfl

/-- The ordinary part of a write of STR_CTRL. -/
theorem State.plainWrite_sameStr (s : State) (val : Word) : s.SameStr (s.plainWrite F.STR_CTRL_LOAD.off val) :=
  (s.plainWrite_regs F.STR_CTRL_LOAD.off val).sameStr
    (State.plainWrite_keeps s F.STR_CTRL_LOAD.off val (.refl s 0x8) (.refl _)).str_eq fun _ _ hc => hc

/-- R91: the command bits of STR_CTRL. -/
def strCommand : Fin 4 → Fld
  | 0 => F.STR_CTRL_LOAD
  | 1 => F.STR_CTRL_ARM
  | 2 => F.STR_CTRL_CANCEL
  | 3 => F.STR_CTRL_RETIRE_FORCE

/-- What each command bit asks for. -/
def State.strOperation (k : Fin 4) (s : State) : State :=
  match k with
  | 0 => s.strLoad
  | 1 => s.strArm
  | 2 => s.strCancel
  | 3 => s.strRetireForce

/-- R91: the operations asked for follow the ordinary write in the order of their bits. -/
theorem State.strCtrl_eq_each (s : State) (val : Word) :
    s.strCtrl val = (s.plainWrite F.STR_CTRL_LOAD.off val).each [0, 1, 2, 3]
      fun k s => if (strCommand k).of val = 1 then s.strOperation k else s := rfl

/-- The word with command bit `k` alone. -/
def strCommandBit (k : Fin 4) : Word := 1 <<< k.val

/-- A command bit is set in its own word alone. -/
theorem strCommand_of_bit : ∀ j k, (strCommand j).of (strCommandBit k) = if j = k then 1 else 0 := by decide

/-- R91: a write that sets one command bit alone asks for that bit's operation. -/
theorem State.strCtrl_single (s : State) {val : Word} (k : Fin 4) (others : ∀ j, j ≠ k → (strCommand j).of val = 0) :
    s.strCtrl (val ||| strCommandBit k) = (s.plainWrite F.STR_CTRL_LOAD.off (val ||| strCommandBit k)).strOperation k := by
  have width : ∀ j, (strCommand j).w = 1 := by decide
  have asked (j : Fin 4) : (strCommand j).of (val ||| strCommandBit k) = if j = k then 1 else 0 := by
    by_cases h : j = k
    · rw [if_pos h, Fld.of_or_one (width j) val (by rw [strCommand_of_bit, if_pos h])]
    · rw [if_neg h, Fld.of_or_zero val (by rw [strCommand_of_bit, if_neg h]), others j h]
  rw [State.strCtrl_eq_each]
  simp only [asked]
  fin_cases k <;> rfl

/-- A write of STR_CTRL that passes the gate and sets one command bit alone completes with what that bit's operation gives. -/
theorem strCommand_completes {c : Instr} {src : Agent} {val : Word} {P : State → Prop} {s : State} (k : Fin 4) (i : s.Inv)
    (hg : s.Passes src F.STR_CTRL_LOAD) (others : ∀ j, j ≠ k → (strCommand j).of val = 0)
    (hc : exec c s = .next (s.writeReg src F.STR_CTRL_LOAD (val ||| strCommandBit k)
      fun s => s.strCtrl (val ||| strCommandBit k)))
    (post : ∀ m t : State, m.Inv → s.SameStr m → (m.strOperation k).SameStr t → P t) : Completes c s P := by
  have write := State.write_passes hg .word (val ||| strCommandBit k) fun s => s.strCtrl (val ||| strCommandBit k)
  rw [State.strCtrl_single _ k others] at write
  have im := State.mirror_inv i src F.STR_CTRL_LOAD.off .word (val ||| strCommandBit k) false
  have mirrored := s.mirror_sameStr src F.STR_CTRL_LOAD.off .word (val ||| strCommandBit k) false
  exact ⟨_, hc.trans (congrArg Host.Outcome.next write),
    post _ _ ((State.plainWrite_keeps _ _ _ (.refl _ 0x8) (.refl _)).inv im) (mirrored.trans (State.plainWrite_sameStr _ _))
      (State.levelRaise_sameStr _ s _)⟩

/-! ### What each operation leaves -/

/-- R79: the image that LOAD takes, known by its address and length alone. -/
def State.imageNamed (s : State) : Image :=
  { addr := s.rd F.STR_IMG_ADDR_HI_ADDR * 2 ^ 32 + 16 * s.rd F.STR_IMG_ADDR_LO_ADDR, len := s.rd F.STR_IMG_LEN_LEN }

/-- R79: LOAD is taken with an empty plane, a validated image, or one that failed. -/
theorem State.strLoad_accepted {s : State} (i : s.Inv) (h : s.shadowState = 0 ∨ s.shadowState = 2 ∨ s.shadowState = 6) :
    s.strLoad.str = { s.str with shadow := some s.imageNamed, validated := false, armed := none } ∧
      s.strLoad.shadowState = 1 ∧ s.strLoad.rd F.STR_STATUS_STATUS = 0 := by
  have taken : s.strLoad = (((s.setStr { s.str with shadow := some s.imageNamed, validated := false, armed := none }).setShadow
      1).strStatus 0).wr F.STR_SHADOW_ID_IMAGE_ID 0 := if_pos h
  generalize { s.str with shadow := some s.imageNamed, validated := false, armed := none } = d at taken ⊢
  have state := State.Reads.written (State.setStr_inv i d) F.STR_STATUS_SHADOW_STATE 1
  have status := State.Reads.written state.inv F.STR_STATUS_STATUS 0
  rw [taken]
  exact ⟨by simp, ((state.wr F.STR_STATUS_STATUS 0).wr F.STR_SHADOW_ID_IMAGE_ID 0).eq,
    (status.wr F.STR_SHADOW_ID_IMAGE_ID 0).eq⟩

/-- R79: ARM restarts the counts of carries and of dropped tiles. -/
def State.countsCleared (s : State) : State := (s.wr F.STR_CARRY_COUNT_COUNT 0).wr F.STR_DROP_COUNT_COUNT 0

/-- R81: the active plane allows the swap that STR_EPOCH asks for: IMMEDIATE while it is empty, AT and NEXT on a timebase of its
image. -/
def State.EpochAllowed (s : State) : Prop :=
  if s.rd F.STR_EPOCH_MODE = 0 then s.str.active = none
  else (s.image.tbs.find? fun x => x.id == s.rd F.STR_EPOCH_TIMEBASE).isSome = true

/-- R79, R81, R82: ARM is taken with an epoch mode and timebase that the active plane allows (log entry 105). -/
theorem State.strArm_eq {s : State} (hs : s.shadowState = 1 ∨ s.shadowState = 2)
    (hm : s.rd F.STR_EPOCH_MODE ≠ 3) (ht : s.EpochAllowed) :
    ∃ a code, a.mode = s.rd F.STR_EPOCH_MODE ∧ a.tb = s.rd F.STR_EPOCH_TIMEBASE ∧ s.strArm =
      ((s.countsCleared.setStr { s.countsCleared.str with armed := some a }).setShadow 3).strStatus code := by
  have tb : s.countsCleared.rd F.STR_EPOCH_TIMEBASE = s.rd F.STR_EPOCH_TIMEBASE :=
    (State.rd_wr_off (by decide)).trans (State.rd_wr_off (by decide))
  have allowed : ¬ (s.rd F.STR_EPOCH_MODE = 3 ∨ (if s.rd F.STR_EPOCH_MODE = 0 then s.str.active.isSome
      else (s.image.tbs.find? fun x => x.id == s.rd F.STR_EPOCH_TIMEBASE).isNone) = true) := by
    rw [not_or]
    refine ⟨hm, ?_⟩
    unfold State.EpochAllowed at ht
    split at ht
    · next h => simp [h, ht]
    · next h => simpa [h] using Option.isSome_iff_ne_none.mp ht
  unfold State.strArm
  rw [if_neg (by omega), if_neg (by omega), if_neg allowed]
  exact ⟨_, _, rfl, tb, rfl⟩

/-- R79, R81: what ARM leaves. -/
theorem State.strArm_accepted {s : State} (i : s.Inv) (hs : s.shadowState = 1 ∨ s.shadowState = 2)
    (hm : s.rd F.STR_EPOCH_MODE ≠ 3) (ht : s.EpochAllowed) :
    s.strArm.shadowState = 3 ∧ s.strArm.rd F.STR_CARRY_COUNT_COUNT = 0 ∧ s.strArm.rd F.STR_DROP_COUNT_COUNT = 0 ∧
      ∃ a, s.strArm.str = { s.str with armed := some a } ∧ a.mode = s.rd F.STR_EPOCH_MODE ∧
        a.tb = s.rd F.STR_EPOCH_TIMEBASE := by
  obtain ⟨a, code, mode, timebase, armed⟩ := State.strArm_eq hs hm ht
  have carry := (State.Reads.written i F.STR_CARRY_COUNT_COUNT 0).wr F.STR_DROP_COUNT_COUNT 0
  have drop := State.Reads.written (State.wr_inv i F.STR_CARRY_COUNT_COUNT 0) F.STR_DROP_COUNT_COUNT 0
  have state (d : StrState) := State.Reads.written (State.setStr_inv carry.inv d) F.STR_STATUS_SHADOW_STATE 3
  rw [armed]
  exact ⟨((state _).wr F.STR_STATUS_STATUS code).eq,
    (((carry.setStr _).wr F.STR_STATUS_SHADOW_STATE 3).wr F.STR_STATUS_STATUS code).eq,
    (((drop.setStr _).wr F.STR_STATUS_SHADOW_STATE 3).wr F.STR_STATUS_STATUS code).eq,
    a, by simp [State.countsCleared], mode, timebase⟩

/-- R79: CANCEL empties a plane whose image is not armed (log entry 109). -/
theorem State.strCancel_unarmed {s : State} (i : s.Inv) (h : s.shadowState = 1 ∨ s.shadowState = 2 ∨ s.shadowState = 6) :
    s.strCancel.str = { s.str with shadow := none, validated := false, armed := none } ∧ s.strCancel.shadowState = 0 ∧
      s.strCancel.rd F.STR_STATUS_STATUS = 0 ∧ s.strCancel.rd F.STR_SHADOW_ID_IMAGE_ID = 0 := by
  have emptied : s.strCancel = s.clearShadow.strStatus 0 := by
    rcases h with h | h | h <;> simp only [State.strCancel, h]
  have state (d : StrState) := (State.Reads.written (State.setStr_inv i d) F.STR_STATUS_SHADOW_STATE 0).wr
    F.STR_SHADOW_ID_IMAGE_ID 0
  have shadowId (d : StrState) := State.Reads.written (State.wr_inv (State.setStr_inv i d) F.STR_STATUS_SHADOW_STATE 0)
    F.STR_SHADOW_ID_IMAGE_ID 0
  rw [emptied]
  exact ⟨by simp [State.clearShadow], ((state _).wr F.STR_STATUS_STATUS 0).eq,
    (State.Reads.written (state _).inv F.STR_STATUS_STATUS 0).eq, ((shadowId _).wr F.STR_STATUS_STATUS 0).eq⟩

/-- R90: RETIRE_FORCE in RETIRING forces the retirement, and the state stays RETIRING (log entry 109). -/
theorem State.strRetireForce_retiring {s : State} (i : s.Inv) (h : s.shadowState = 5) :
    s.strRetireForce.str = { s.str with forceRetire := true } ∧ s.strRetireForce.rd F.STR_STATUS_STATUS = 0 ∧
      s.strRetireForce.shadowState = 5 := by
  have forced : s.strRetireForce = (s.setStr { s.str with forceRetire := true }).strStatus 0 := if_pos h
  have before : s.Reads F.STR_STATUS_SHADOW_STATE 5 := ⟨i, h⟩
  rw [forced]
  exact ⟨by simp, (State.Reads.written (State.setStr_inv i _) F.STR_STATUS_STATUS 0).eq,
    ((before.setStr _).wr F.STR_STATUS_STATUS 0).eq⟩

/-! ### The commands -/

/-- R79: LOAD completes. -/
theorem load_completes {src : Agent} {val : Word} {s : State} (i : s.Inv) (hg : s.Passes src F.STR_CTRL_LOAD)
    (others : ∀ j, j ≠ 0 → (strCommand j).of val = 0) (hs : s.shadowState = 0 ∨ s.shadowState = 2 ∨ s.shadowState = 6) :
    Completes (.load src val) s fun t =>
      t.str.shadow = some s.imageNamed ∧ t.str.validated = false ∧ t.str.armed = none ∧ t.shadowState = 1 ∧
      t.rd F.STR_STATUS_STATUS = 0 := by
  refine strCommand_completes 0 i hg others rfl fun m t im before after => ?_
  have image : m.imageNamed = s.imageNamed := by
    simp only [State.imageNamed, before.reads (f := F.STR_IMG_ADDR_HI_ADDR) rfl, before.reads (f := F.STR_IMG_ADDR_LO_ADDR) rfl,
      before.reads (f := F.STR_IMG_LEN_LEN) rfl]
  have accepted : m.shadowState = s.shadowState := before.reads rfl
  obtain ⟨planes, state, status⟩ := State.strLoad_accepted im (accepted ▸ hs)
  have left : t.str = _ := after.str.trans planes
  rw [left, image]
  exact ⟨rfl, rfl, rfl, after.reads state, after.reads status⟩

/-- R79, R81: ARM completes. -/
theorem arm_completes {src : Agent} {val : Word} {s : State} (i : s.Inv) (hg : s.Passes src F.STR_CTRL_ARM)
    (others : ∀ j, j ≠ 1 → (strCommand j).of val = 0) (hs : s.shadowState = 1 ∨ s.shadowState = 2)
    (hm : s.rd F.STR_EPOCH_MODE ≠ 3) (ht : s.EpochAllowed) :
    Completes (.arm src val) s fun t =>
      t.shadowState = 3 ∧ t.rd F.STR_CARRY_COUNT_COUNT = 0 ∧ t.rd F.STR_DROP_COUNT_COUNT = 0 ∧ t.str.shadow = s.str.shadow ∧
      ∃ a, t.str.armed = some a ∧ a.mode = s.rd F.STR_EPOCH_MODE ∧ a.tb = s.rd F.STR_EPOCH_TIMEBASE := by
  refine strCommand_completes 1 i hg others rfl fun m t im before after => ?_
  have accepted : m.shadowState = s.shadowState := before.reads rfl
  have mode : m.rd F.STR_EPOCH_MODE = s.rd F.STR_EPOCH_MODE := before.reads rfl
  have timebase : m.rd F.STR_EPOCH_TIMEBASE = s.rd F.STR_EPOCH_TIMEBASE := before.reads rfl
  have allowed : m.EpochAllowed := by
    simpa only [State.EpochAllowed, State.image, mode, timebase, before.str] using ht
  obtain ⟨state, carry, drop, a, planes, hmode, htb⟩ := State.strArm_accepted im (accepted ▸ hs) (mode ▸ hm) allowed
  have left : t.str = _ := after.str.trans planes
  rw [left, ← before.str]
  exact ⟨after.reads state, after.reads carry, after.reads drop, rfl, a, rfl, hmode.trans mode, htb.trans timebase⟩

/-- R79: CANCEL completes. -/
theorem strCancel_completes {src : Agent} {val : Word} {s : State} (i : s.Inv) (hg : s.Passes src F.STR_CTRL_CANCEL)
    (others : ∀ j, j ≠ 2 → (strCommand j).of val = 0) (hs : s.shadowState = 1 ∨ s.shadowState = 2 ∨ s.shadowState = 6) :
    Completes (.strCancel src val) s fun t =>
      t.str.shadow = none ∧ t.str.armed = none ∧ t.shadowState = 0 ∧ t.rd F.STR_STATUS_STATUS = 0 ∧
      t.rd F.STR_SHADOW_ID_IMAGE_ID = 0 := by
  refine strCommand_completes 2 i hg others rfl fun m t im before after => ?_
  have accepted : m.shadowState = s.shadowState := before.reads rfl
  obtain ⟨planes, state, status, shadowId⟩ := State.strCancel_unarmed im (accepted ▸ hs)
  have left : t.str = _ := after.str.trans planes
  rw [left]
  exact ⟨rfl, rfl, after.reads state, after.reads status, after.reads shadowId⟩

/-- R90: RETIRE_FORCE completes. -/
theorem retireForce_completes {src : Agent} {val : Word} {s : State} (i : s.Inv) (hg : s.Passes src F.STR_CTRL_RETIRE_FORCE)
    (others : ∀ j, j ≠ 3 → (strCommand j).of val = 0) (hs : s.shadowState = 5) :
    Completes (.retireForce src val) s fun t =>
      t.str = { s.str with forceRetire := true } ∧ t.rd F.STR_STATUS_STATUS = 0 ∧ t.shadowState = 5 := by
  refine strCommand_completes 3 i hg others rfl fun m t im before after => ?_
  have accepted : m.shadowState = s.shadowState := before.reads rfl
  obtain ⟨planes, status, state⟩ := State.strRetireForce_retiring im (accepted.trans hs)
  exact ⟨by rw [after.str.trans planes, before.str], after.reads status, after.reads state⟩

/-- Settles O12 (R79, R81, R90), command by command. When ARM is refused, and what CANCEL and RETIRE_FORCE leave, are the model's
deductions (log entries 105 and 109). -/
theorem structureCommandsComplete : Obligations.StructureCommandsComplete := by
  refine ⟨fun src val s i hg ha hc hr hs => ?_, fun src val s i hg hl hc hr hs hm ht => ?_, fun src val s i hg hl ha hr hs => ?_,
    fun src val s i hg hl ha hc hs => ?_⟩
  · exact load_completes i hg (fun | 0, h => absurd rfl h | 1, _ => ha | 2, _ => hc | 3, _ => hr) hs
  · exact arm_completes i hg (fun | 0, _ => hl | 1, h => absurd rfl h | 2, _ => hc | 3, _ => hr) hs hm ht
  · exact strCancel_completes i hg (fun | 0, _ => hl | 1, _ => ha | 2, h => absurd rfl h | 3, _ => hr) hs
  · exact retireForce_completes i hg (fun | 0, _ => hl | 1, _ => ha | 2, _ => hc | 3, h => absurd rfl h) hs

end Sys2Proof.Machine
end

section
/-! SUPPORT. The events of the planes (R77 to R87): validation, preparation, epochs, the swap and a lost timebase. -/

namespace Sys2Proof.Machine

/-! ### Validation -/

/-- R77, R79: an image that passes validation in LOADED is the shadow image. -/
theorem State.validationDone_passes {s : State} {i img : Image} (hi : s.str.shadow = some i) (hs : s.shadowState = 1)
    (hv : s.str.validated = false) (hr : s.validate i.addr i.len = .inr img) :
    s.validationDone =
      ((s.setStr { s.str with shadow := some img, validated := true }).wr F.STR_SHADOW_ID_IMAGE_ID img.id).setShadow 2 := by
  have still (d : StrState) (v : Nat) : ((s.setStr d).wr F.STR_SHADOW_ID_IMAGE_ID v).shadowState = 1 :=
    (State.rd_wr_off (by decide)).trans hs
  simp [State.validationDone, hi, hs, hv, hr, still]

/-- R77: an image that fails validation leaves FAILED and the failure's place. -/
theorem State.validationDone_fails {s : State} {i : Image} {f : Fail} (hi : s.str.shadow = some i) (hs : s.shadowState = 1)
    (hv : s.str.validated = false) (hr : s.validate i.addr i.len = .inl f) :
    s.validationDone = ((((s.wr F.STR_ERR_LOC_SECTION f.sec).wr F.STR_ERR_LOC_OFFSET f.off).setStr
      { s.str with armed := none }).setShadow 6).strError f.code := by
  simp [State.validationDone, hi, hs, hv, hr]

/-- R92: an error report leaves its code in STATUS. -/
theorem State.Reads.reported {s : State} (i : s.Inv) (code : Nat) :
    (s.strError code).Reads F.STR_STATUS_STATUS (code % 2 ^ F.STR_STATUS_STATUS.w) :=
  (State.Reads.written i F.STR_STATUS_STATUS code).irq 0x0F F.STR_STATUS_ERR_IRQ F.STR_CTRL_ERR_IRQ_EN

/-- R92: an error report leaves the fields beside STATUS and ERR_IRQ. -/
theorem State.Reads.strError {s : State} {g : Fld} {x : Nat} (h : s.Reads g x) (code : Nat)
    (a : F.STR_STATUS_STATUS.Apart g := by decide) (b : F.STR_STATUS_ERR_IRQ.Apart g := by decide)
    (p : g.off < 0x718000 := by decide) : (s.strError code).Reads g x :=
  (h.wr F.STR_STATUS_STATUS code a).irq 0x0F F.STR_STATUS_ERR_IRQ F.STR_CTRL_ERR_IRQ_EN b p

/-- R77, R79: a validation that passes completes. -/
theorem validationDone_passes_completes {s : State} {i img : Image} (iv : s.Inv) (hi : s.str.shadow = some i)
    (hs : s.shadowState = 1) (hv : s.str.validated = false) (hr : s.validate i.addr i.len = .inr img) :
    Completes .validationDone s fun t =>
      t.str.shadow = some img ∧ t.str.validated = true ∧ t.shadowState = 2 ∧
      t.rd F.STR_SHADOW_ID_IMAGE_ID = img.id % 2 ^ F.STR_SHADOW_ID_IMAGE_ID.w := by
  have shadowId (d : StrState) := State.Reads.written (State.setStr_inv iv d) F.STR_SHADOW_ID_IMAGE_ID img.id
  exact ⟨_, congrArg Host.Outcome.next (State.validationDone_passes hi hs hv hr), by simp, by simp,
    (State.Reads.written (shadowId _).inv F.STR_STATUS_SHADOW_STATE 2).eq, ((shadowId _).wr F.STR_STATUS_SHADOW_STATE 2).eq⟩

/-- R77, R79: a validation that fails completes. -/
theorem validationDone_fails_completes {s : State} {i : Image} {f : Fail} (iv : s.Inv) (hi : s.str.shadow = some i)
    (hs : s.shadowState = 1) (hv : s.str.validated = false) (hr : s.validate i.addr i.len = .inl f) :
    Completes .validationDone s fun t =>
      t.shadowState = 6 ∧ t.rd F.STR_STATUS_STATUS = f.code % 2 ^ F.STR_STATUS_STATUS.w ∧ t.str.armed = none ∧
      t.rd F.STR_ERR_LOC_SECTION = f.sec % 2 ^ F.STR_ERR_LOC_SECTION.w := by
  have place := (State.Reads.written iv F.STR_ERR_LOC_SECTION f.sec).wr F.STR_ERR_LOC_OFFSET f.off
  have state (d : StrState) := State.Reads.written (place.setStr d).inv F.STR_STATUS_SHADOW_STATE 6
  exact ⟨_, congrArg Host.Outcome.next (State.validationDone_fails hi hs hv hr), ((state _).strError f.code).eq,
    (State.Reads.reported (state _).inv f.code).eq, by simp,
    (((place.setStr _).wr F.STR_STATUS_SHADOW_STATE 6).strError f.code).eq⟩

/-! ### Preparation -/

/-- R80, R95: preparation sets up the host channels of a full image's new nodes; a TABLE_ONLY image has none. -/
theorem State.prepare_hostChannels (s : State) (i : Image) :
    (s.prepare i).hif.prep = if i.tableOnly then s.hif.prep
      else s.hostChannels (i.nodes.filter fun n => !s.image.nodes.contains n) (goneNodes s.image i) := by
  unfold State.prepare
  split
  · rfl
  · extract_lets old fresh gone hif net t
    have queues : t.Keeps 0x100 (t.each (newEdges old i) fun e s =>
        if (s.queue e.qid).state = 1 then s else s.setQueue e.qid (s.newQueue i e 4)) :=
      State.each_keeps _ (fun e u h => by
        split
        · exact h
        · exact State.setQueue_keeps u e.qid _ h (.refl _)) _ t (.refl t _)
    exact congrArg HifState.prep queues.hif_eq

/-- R80, R81: with an epoch set, a preparation that is done leaves READY. -/
theorem State.preparationDone_readies {s : State} {i : Image} {a : Arm} (hi : s.str.shadow = some i) (ha : s.str.armed = some a)
    (hs : s.shadowState = 3) (hv : s.str.validated = true) (hm : a.mode ≠ 0) :
    s.preparationDone = (s.prepare i).setShadow 4 := by
  simp [State.preparationDone, hi, ha, hs, hv, hm]

/-- R80: a preparation completes. -/
theorem preparationDone_completes {s : State} {i : Image} {a : Arm} (iv : s.Inv) (hi : s.str.shadow = some i)
    (ha : s.str.armed = some a) (hs : s.shadowState = 3) (hv : s.str.validated = true) (hm : a.mode ≠ 0) :
    Completes .preparationDone s fun t =>
      t.shadowState = 4 ∧ t.str = s.str ∧
      t.hif.prep = if i.tableOnly then s.hif.prep
        else s.hostChannels (i.nodes.filter (fun n => !s.image.nodes.contains n)) (goneNodes s.image i) := by
  have prepared := State.prepare_keeps s i (.refl s 0x1004100) (.refl _)
  have readied := State.setShadow_keeps (s.prepare i) 4 (.refl _ 0x8) (.refl _)
  exact ⟨_, congrArg Host.Outcome.next (State.preparationDone_readies hi ha hs hv hm),
    (State.Reads.written (prepared.inv iv) F.STR_STATUS_SHADOW_STATE 4).eq, readied.str_eq.trans prepared.str_eq,
    (congrArg HifState.prep readied.hif_eq).trans (s.prepare_hostChannels i)⟩

/-! ### The swap -/

/-- R88, R90: a swap of tables ends with what every swap reports. -/
theorem State.swapTables_eq_swapped {s : State} (iv : s.Inv) (i : Image) (num : Nat) :
    ∃ t : State, t.Inv ∧ s.swapTables i num = t.swapped num :=
  have within := Within.refl 0x88
  ⟨_, (State.wr_keeps _ _ _ (State.retireTables_keeps _ _ _ (State.setStr_keeps _ (.refl s 0x88)))).inv iv, rfl⟩

/-- R87 to R90, R95: a swap to a full image ends with what every swap reports. -/
theorem State.swapFull_eq_swapped {s : State} (iv : s.Inv) (i : Image) (num : Nat) :
    ∃ t : State, t.Inv ∧ s.swapFull i num = t.swapped num := by
  have within := Within.refl 0x7f87fb8
  unfold State.swapFull
  extract_lets old gone kept fresh edges removed cut epochs lost planes active rejoined queued started hif net freed woken
  have removes : s.Keeps 0x7f87fb8 removed := State.each_keeps _ (fun n t h => by exact State.removeNode_keeps t n h) _ _ (.refl ..)
  have cuts : s.Keeps 0x7f87fb8 cut := State.each_keeps _ (fun e t h => by exact State.removeEdge_keeps t e.qid h) _ _ removes
  have activates : s.Keeps 0x7f87fb8 active := State.setStr_keeps _ cuts
  have rejoins : s.Keeps 0x7f87fb8 rejoined :=
    State.each_keeps _ (fun n t h => by exact State.rejoinHost_keeps t n h) _ _ activates
  have queues : s.Keeps 0x7f87fb8 queued :=
    State.each_keeps _ (fun e t h => by exact State.setQueue_keeps _ _ _ (State.setEdgeSeal_keeps t e.qid {} h)) _ _ rejoins
  have starts : s.Keeps 0x7f87fb8 started :=
    State.each_keeps _ (fun n t h => by exact State.startNode_keeps t _ n h) _ _ queues
  have frees : s.Keeps 0x7f87fb8 freed := State.setNet_keeps _ (State.setHif_keeps _ starts)
  have wakes : s.Keeps 0x7f87fb8 woken :=
    State.each_keeps _ (fun r t h => by exact State.islandDemand_keeps t r.id h) _ _ frees
  exact ⟨_, (State.wr_keeps _ _ _ (State.wr_keeps _ _ _ (State.retireTables_keeps _ _ _ wakes))).inv iv, rfl⟩

/-- R87: whatever the image, a swap ends with what every swap reports. -/
theorem State.swap_eq_swapped {s : State} {i : Image} (iv : s.Inv) (hi : s.str.shadow = some i) (num : Nat) :
    ∃ t : State, t.Inv ∧ s.swap num = t.swapped num := by
  simp only [State.swap, hi]
  split
  · exact State.swapTables_eq_swapped iv i num
  · exact State.swapFull_eq_swapped iv i num

/-- R87: what every swap reports: the planes keep no shadow image and no armed swap. -/
theorem State.swapped_str (s : State) (num : Nat) :
    (s.swapped num).str = { s.str with shadow := none, validated := false, armed := none, forceRetire := false } := by
  simp [State.swapped]

/-- R87, R91: what every swap reports in the registers. -/
theorem State.swapped_reports {s : State} (i : s.Inv) (num : Nat) :
    (s.swapped num).Reads F.STR_SWAP_EPOCH_EPOCH (num % 2 ^ F.STR_SWAP_EPOCH_EPOCH.w) ∧
      (s.swapped num).Reads F.STR_STATUS_ACTIVE_VALID 1 := by
  have epoch := (State.Reads.written i F.STR_SWAP_EPOCH_EPOCH num).inc F.STR_SWAP_COUNT_COUNT 1
  have valid := State.Reads.written epoch.inv F.STR_STATUS_ACTIVE_VALID 1
  exact ⟨((((epoch.wr F.STR_STATUS_ACTIVE_VALID 1).setStr _).wr F.STR_SHADOW_ID_IMAGE_ID 0).wr F.STR_STATUS_SHADOW_STATE _).irq
      0x0F F.STR_STATUS_SWAP_IRQ F.STR_CTRL_SWAP_IRQ_EN,
    (((valid.setStr _).wr F.STR_SHADOW_ID_IMAGE_ID 0).wr F.STR_STATUS_SHADOW_STATE _).irq
      0x0F F.STR_STATUS_SWAP_IRQ F.STR_CTRL_SWAP_IRQ_EN⟩

/-! ### Epochs -/

/-- R62: epoch `num` of timebase `tb` is its last one, and its source has returned. -/
def State.epochRecorded (s : State) (tb num : Nat) : State :=
  s.setStr { s.str with epochs := KMap.set (fun _ => none) s.str.epochs tb (some num), lostTbs := s.str.lostTbs.erase tb }

/-- R62: the epoch of a PTP_PERIOD timebase of the active image. -/
theorem State.periodEpoch_found {s : State} {tb : Nat} {x : Timebase}
    (hx : s.image.tbs.find? (fun y => y.id == tb && y.kind == 3) = some x) :
    s.periodEpoch tb = s.epochOf tb ((s.epochNow x).getD 0) := by
  simp only [State.periodEpoch, hx]

/-- R81 to R84: a recorded epoch swaps, carries the swap, or does neither. -/
theorem State.epochOf_eq (s : State) (tb num : Nat) :
    s.epochOf tb num = s.str.armed.elim (s.epochRecorded tb num) fun a =>
      if a.tb = tb ∧ a.mode ≠ 0 ∧ s.shadowState = 4 ∧ a.reached num then (s.epochRecorded tb num).swap num
      else if a.tb = tb ∧ a.mode = 1 ∧ s.shadowState = 3 ∧ a.reached num then (s.epochRecorded tb num).carry a
      else s.epochRecorded tb num := by
  unfold State.epochOf
  extract_lets planes t
  have still : t.str.armed = s.str.armed := rfl
  rw [still]
  cases s.str.armed <;> rfl

section
variable {s : State} {tb num : Nat}

/-- R62: with no swap armed an epoch is recorded. -/
theorem State.epochOf_unarmed (ha : s.str.armed = none) : s.epochOf tb num = s.epochRecorded tb num := by
  rw [State.epochOf_eq, ha, Option.elim_none]

/-- R81 to R84: an epoch that reaches a swap in READY swaps. -/
theorem State.epochOf_swaps {a : Arm} (ha : s.str.armed = some a) (ht : a.tb = tb) (hm : a.mode ≠ 0) (hs : s.shadowState = 4)
    (hr : a.reached num = true) : s.epochOf tb num = (s.epochRecorded tb num).swap num := by
  rw [State.epochOf_eq, ha, Option.elim_some, if_pos ⟨ht, hm, hs, hr⟩]

/-- R83: an epoch that reaches a swap in mode AT before READY carries it. -/
theorem State.epochOf_carries {a : Arm} (ha : s.str.armed = some a) (ht : a.tb = tb) (hm : a.mode = 1) (hs : s.shadowState = 3)
    (hr : a.reached num = true) : s.epochOf tb num = (s.epochRecorded tb num).carry a := by
  rw [State.epochOf_eq, ha, Option.elim_some, if_neg (by omega), if_pos ⟨ht, hm, hs, hr⟩]

end

section
variable {s : State} {tb : Fin 16} {x : Timebase} (hx : s.image.tbs.find? (fun y => y.id == tb.val && y.kind == 3) = some x)
include hx

/-- R62: an epoch with no swap armed completes. -/
theorem timebaseEpoch_unarmed_completes (ha : s.str.armed = none) :
    Completes (.timebaseEpoch tb false) s fun t =>
      KMap.get (fun _ => none) t.str.epochs tb = some ((s.epochNow x).getD 0) ∧ t.regs = s.regs ∧
      t.str.active = s.str.active := by
  have recorded := (State.periodEpoch_found hx).trans (State.epochOf_unarmed ha)
  exact ⟨_, congrArg Host.Outcome.next recorded, KMap.get_set_ne _ _ _ _ (Option.some_ne_none _), rfl, rfl⟩

/-- R81, R87: an epoch of the timebase on which a swap in mode NEXT is READY swaps. -/
theorem State.periodEpoch_swaps {i : Image} {a : Arm} (iv : s.Inv) (ha : s.str.armed = some a) (hi : s.str.shadow = some i)
    (ht : a.tb = tb.val) (hm : a.mode = 2) (hs : s.shadowState = 4) :
    ∃ u : State, u.Inv ∧ s.periodEpoch tb = u.swapped ((s.epochNow x).getD 0) := by
  have reached : a.reached ((s.epochNow x).getD 0) = true := by simp [Arm.reached, hm]
  rw [State.periodEpoch_found hx, State.epochOf_swaps ha ht (by omega) hs reached]
  have shadow : (s.epochRecorded tb ((s.epochNow x).getD 0)).str.shadow = some i := hi
  exact State.swap_eq_swapped (State.setStr_inv iv _) shadow _

/-- R81, R87: an epoch that swaps completes. -/
theorem timebaseEpoch_swaps_completes {i : Image} {a : Arm} (iv : s.Inv) (ha : s.str.armed = some a)
    (hi : s.str.shadow = some i) (ht : a.tb = tb.val) (hm : a.mode = 2) (hs : s.shadowState = 4) :
    Completes (.timebaseEpoch tb false) s fun t =>
      t.str.shadow = none ∧ t.str.armed = none ∧
      t.rd F.STR_SWAP_EPOCH_EPOCH = (s.epochNow x).getD 0 % 2 ^ F.STR_SWAP_EPOCH_EPOCH.w ∧
      t.rd F.STR_STATUS_ACTIVE_VALID = 1 := by
  obtain ⟨u, iu, swapped⟩ := State.periodEpoch_swaps hx iv ha hi ht hm hs
  obtain ⟨epoch, valid⟩ := State.swapped_reports iu ((s.epochNow x).getD 0)
  exact ⟨_, congrArg Host.Outcome.next swapped, by rw [State.swapped_str], by rw [State.swapped_str], epoch.eq, valid.eq⟩

/-- R85: CANCEL in the cycle of the swap comes after it and is too late (log entry 108). -/
theorem timebaseEpoch_cancelled_completes {i : Image} {a : Arm} (iv : s.Inv) (ha : s.str.armed = some a)
    (hi : s.str.shadow = some i) (ht : a.tb = tb.val) (hm : a.mode = 2) (hs : s.shadowState = 4) :
    Completes (.timebaseEpoch tb true) s fun t =>
      t.str.shadow = none ∧ t.str.armed = none ∧ t.rd F.STR_STATUS_STATUS = 0x0F18 := by
  obtain ⟨u, iu, swapped⟩ := State.periodEpoch_swaps hx iv ha hi ht hm hs
  have late : (s.periodEpoch tb).cancelWith s.str.armed true = (u.swapped ((s.epochNow x).getD 0)).strStatus 0x0F18 := by
    simp [State.cancelWith, swapped, ha, State.swapped_str]
  have iw := (State.swapped_reports iu ((s.epochNow x).getD 0)).1.inv
  exact ⟨_, congrArg Host.Outcome.next late, by simp [State.swapped_str], by simp [State.swapped_str],
    (State.Reads.written iw F.STR_STATUS_STATUS 0x0F18).eq⟩

/-- R83: an epoch that arrives before the preparation is done carries the swap to the timebase's next epoch. -/
theorem timebaseEpoch_carries_completes {a : Arm} (iv : s.Inv) (ha : s.str.armed = some a) (ht : a.tb = tb.val) (hm : a.mode = 1)
    (hs : s.shadowState = 3)
    (hr : a.next = true ∨ (s.epochNow x).getD 0 = a.target ∨ later ((s.epochNow x).getD 0) a.target = true) :
    Completes (.timebaseEpoch tb false) s fun t =>
      t.str.armed = some { a with next := true } ∧ t.shadowState = 3 ∧ t.rd F.STR_STATUS_STATUS = 0x0F16 ∧
      t.rd F.STR_CARRY_COUNT_COUNT = min (s.rd F.STR_CARRY_COUNT_COUNT + 1) (2 ^ F.STR_CARRY_COUNT_COUNT.w - 1) := by
  have reached : a.reached ((s.epochNow x).getD 0) = true := by
    simpa [Arm.reached, hm, or_assoc] using hr
  have carried := (State.periodEpoch_found hx).trans (State.epochOf_carries ha ht hm hs reached)
  have state : s.Reads F.STR_STATUS_SHADOW_STATE 3 := ⟨iv, hs⟩
  have planes (d e : StrState) := (state.setStr d).setStr e
  have count (d e : StrState) := State.Reads.counted (planes d e).inv F.STR_CARRY_COUNT_COUNT 1
  refine ⟨_, congrArg Host.Outcome.next carried, by simp [State.carry], ?_, ?_, ?_⟩
  · exact ((((planes _ _).inc F.STR_CARRY_COUNT_COUNT 1).wr F.STR_STATUS_STATUS 0x0F16).irq 0x0F F.STR_STATUS_CARRY_IRQ
      F.STR_CTRL_CARRY_IRQ_EN).eq
  · exact ((State.Reads.written (count _ _).inv F.STR_STATUS_STATUS 0x0F16).irq 0x0F F.STR_STATUS_CARRY_IRQ
      F.STR_CTRL_CARRY_IRQ_EN).eq
  · exact (((count _ _).wr F.STR_STATUS_STATUS 0x0F16).irq 0x0F F.STR_STATUS_CARRY_IRQ F.STR_CTRL_CARRY_IRQ_EN).eq

end

/-! ### A lost timebase -/

/-- R84: a swap armed on a timebase whose source is lost takes the next epoch after the source returns. -/
theorem timebaseLost_completes {s : State} {tb : Fin 16} {x : Timebase} {a : Arm} (iv : s.Inv) (ha : s.str.armed = some a)
    (hx : s.image.tbs.find? (fun y => y.id == tb.val) = some x) (hm : a.mode ≠ 0) (ht : a.tb = tb.val)
    (hl : s.str.lostTbs.contains tb.val = false) (hs : s.sourceLost x = true) :
    Completes (.timebaseLost tb) s fun t =>
      t.str.lostTbs = s.str.lostTbs ++ [tb.val] ∧ t.str.armed = some { a with next := true } ∧
      t.rd F.STR_STATUS_STATUS = 0x0F19 := by
  have waits : s.timebaseLost tb = (s.setStr { s.str with
      lostTbs := s.str.lostTbs ++ [tb.val], armed := some { a with next := true } }).strStatus 0x0F19 := by
    simp only [State.timebaseLost, ha, hx]
    exact if_pos ⟨hm, ht, by rw [hl]; rfl, hs⟩
  exact ⟨_, congrArg Host.Outcome.next waits, by simp, by simp,
    (State.Reads.written (State.setStr_inv iv _) F.STR_STATUS_STATUS 0x0F19).eq⟩

/-- Settles O13 (R77 to R85), event by event. When an epoch reaches an armed swap and how a CANCEL in its cycle is ordered are
the model's choices (log entry 108), as are validation's and preparation's parts that log entries 105 and 106 deduce. -/
theorem structureEventsComplete : Obligations.StructureEventsComplete :=
  ⟨fun _ _ _ iv hi hs hv hr => validationDone_passes_completes iv hi hs hv hr,
    fun _ _ _ iv hi hs hv hr => validationDone_fails_completes iv hi hs hv hr,
    fun _ _ _ iv hi ha hs hv hm => preparationDone_completes iv hi ha hs hv hm,
    fun _ _ _ hx ha => timebaseEpoch_unarmed_completes hx ha,
    fun _ _ _ _ _ iv hx ha hi ht hm hs => timebaseEpoch_swaps_completes hx iv ha hi ht hm hs,
    fun _ _ _ _ _ iv hx ha hi ht hm hs => timebaseEpoch_cancelled_completes hx iv ha hi ht hm hs,
    fun _ _ _ _ iv hx ha ht hm hs hr => timebaseEpoch_carries_completes hx iv ha ht hm hs hr,
    fun _ _ _ _ iv ha hx hm ht hl hs => timebaseLost_completes iv ha hx hm ht hl hs⟩

end Sys2Proof.Machine
end

section
/-! SUPPORT. A register write that passes the gate, around its own effect (R396, R413), whatever block its register lies in, and the
parts of the state after the shared operations of the memory and of faults. -/

namespace Sys2Proof.Machine

/-! ### Parts -/

/-- Tasks outside the mask. -/
theorem State.Keeps.sch_eq {s t : State} {m : Nat} (h : s.Keeps m t) (w : m.testBit 9 = false) : t.sch = s.sch :=
  h.frame .sch w

/-- DMA movers outside the mask. -/
theorem State.Keeps.movers_eq {s t : State} {m : Nat} (h : s.Keeps m t) (w : m.testBit 11 = false) :
    t.movers = s.movers :=
  h.frame .movers w

/-- QDR main memory's population outside the mask. -/
theorem State.Keeps.qdr_eq {s t : State} {m : Nat} (h : s.Keeps m t) (w : m.testBit 12 = false) : t.qdr = s.qdr :=
  h.frame .qdr w

/-- What unlisted addresses of memory read as, outside the mask. -/
theorem State.Keeps.memGen_eq {s t : State} {m : Nat} (h : s.Keeps m t) (w : m.testBit 4 = false) :
    t.memGen = s.memGen :=
  And.right (show t.mem = s.mem ∧ t.memGen = s.memGen from h.frame .mem w)

/-- A field write leaves translation. -/
@[simp] theorem State.wr_xlt (s : State) (f : Fld) (v : Nat) : (s.wr f v).xlt = s.xlt :=
  (State.wr_keeps s f v (.refl s 0x8) (.refl _)).xlt_eq rfl

/-- New translation data carry the invariant over. -/
theorem State.setXlt_inv {s : State} (i : s.Inv) (d : XltState) : (s.setXlt d).Inv := ⟨i.mem, i.regs, i.disc⟩

/-! ### Around a register write's effect -/

/-- A field of a register that neither a mirror record nor an interrupt touches. -/
@[reducible] def Fld.Steady (f : Fld) : Prop := f.off / 0x40000 ≠ 4 ∧ f.off < 0x718000

/-- From `s` to `t` only the control units may differ, with their registers and the MSI-X pending bits: what stands around the own
effect of a register write. -/
structure State.Beside (s t : State) : Prop where
  /-- The parts. -/
  keeps : s.Keeps 0x8008 t
  /-- The registers. -/
  regs : s.RegsOnly mirrorRegs t

section
variable {s t : State}

/-- R413: a mirror record. -/
theorem State.mirror_beside (s : State) (src : Agent) (off : Nat) (size : Size) (val : Word) (held : Bool) :
    s.Beside (s.mirror src off size val held) :=
  ⟨State.mirror_keeps s src off size val held (.refl s 0x8008) (.refl _), s.mirror_regs src off size val held⟩

/-- R396: an interrupt that a register write makes pending. -/
theorem State.levelRaise_beside (t s : State) (off : Nat) : t.Beside (t.levelRaise s off) :=
  ⟨State.levelRaise_keeps t s off (.refl t 0x8008) (Within.of (Within.refl 0x8008) (by decide)),
    (t.levelRaise_regs s off).mono fun _ h => .inr h⟩

/-- The invariant carries over. -/
theorem State.Beside.inv (h : s.Beside t) (i : s.Inv) : t.Inv := h.keeps.inv i

/-- A steady field reads as before. -/
theorem State.Beside.rd (h : s.Beside t) {f : Fld} (hf : f.Steady) : t.rd f = s.rd f :=
  h.regs.rd f (by unfold mirrorRegs; omega)

/-- What a steady field read, it still reads. -/
theorem State.Beside.reads (h : s.Beside t) {f : Fld} {v : Nat} (k : s.Reads f v) (hf : f.Steady) : t.rd f = v :=
  (h.rd hf).trans k.eq

/-- Translation is the same. -/
theorem State.Beside.xlt (h : s.Beside t) : t.xlt = s.xlt := h.keeps.xlt_eq rfl

/-- QDR main memory's population is the same. -/
theorem State.Beside.qdr (h : s.Beside t) : t.qdr = s.qdr := h.keeps.qdr_eq rfl

/-- A space is the same where translation is. -/
theorem State.space_congr (h : t.xlt = s.xlt) (n : Nat) : t.space n = s.space n := by rw [State.space, h, State.space]

/-- The control units hold no space. -/
theorem State.Beside.space (h : s.Beside t) (n : Nat) : t.space n = s.space n := State.space_congr h.xlt n

/-- R143: the space selected is the same. -/
theorem State.Beside.selected (h : s.Beside t) : t.rd F.XLT_SPACE_SEL_SPACE = s.rd F.XLT_SPACE_SEL_SPACE :=
  h.rd (by decide)

/-- R129: what lies at an address does not follow the control units. -/
theorem State.Beside.place (h : s.Beside t) (a : Nat) : t.place a = s.place a := by
  have trained : t.rd F.QDR_STATUS_TRAINED = s.rd F.QDR_STATUS_TRAINED := h.rd (by decide)
  have populated : t.qdrAt a = s.qdrAt a := by
    rw [State.qdrAt, State.qdrSize, State.qdrLocal, h.qdr, trained]
    rfl
  rw [State.place, populated]
  rfl

end

/-- A register write that passes the gate completes with its effect, between a mirror record and an interrupt. -/
theorem write_completes {c : Instr} {src : Agent} {off : Nat} {size : Size} {val : Word} {eff : State → State}
    {P : State → Prop} {s : State} (hg : s.gate src off = .pass true)
    (hc : exec c s = .next (s.write src off size val eff)) (post : ∀ m t, s.Beside m → (eff m).Beside t → P t) :
    Completes c s P :=
  ⟨_, hc.trans (congrArg Host.Outcome.next (State.write_passes hg size val eff)),
    post _ _ (s.mirror_beside src off size val false) (State.levelRaise_beside _ s off)⟩

end Sys2Proof.Machine
end

section
/-! SUPPORT. Translation's commands (R143, R147): what each leaves when its space accepts it, and what an invalidation drops. -/

namespace Sys2Proof.Machine

/-! ### Spaces -/

/-- A space just replaced by one that is not as after reset. -/
theorem State.space_setSpace (s : State) {n : Nat} (hn : n ≠ 0) {d : Space} (hd : d ≠ {}) : (s.setSpace n d).space n = d :=
  (if_neg hn).trans (KMap.get_set_ne _ _ _ _ hd)

/-- A space that is not FREE is not as after reset. -/
theorem Space.ne_reset {d : Space} (h : d.state ≠ 0) : d ≠ {} := fun e => h (congrArg Space.state e)

/-- A replaced space carries the invariant over. -/
theorem State.setSpace_inv {s : State} (i : s.Inv) (n : Nat) (d : Space) : (s.setSpace n d).Inv := State.setXlt_inv i _

/-- R158: a status is no part of translation. -/
@[simp] theorem State.xltStatus_xlt (s : State) (code : Nat) : (s.xltStatus code).xlt = s.xlt := State.wr_xlt ..

/-- R143: space `n` is allocated, and the request answered. -/
def State.spaceGranted (s : State) (n : Nat) : State :=
  (((s.setSpace n { s.space n with state := 1 }).wr F.XLT_SPACE_RESULT_STATUS 0).wr F.XLT_SPACE_RESULT_SPACE n).xltStatus 0

/-- R143: the request that `val` makes can be granted with space `n`: the lowest free one, or the one it names. -/
def State.Grants (s : State) (val : Word) (n : Nat) : Prop :=
  (F.XLT_SPACE_REQ_ANY.of val = 1 ∧ lowest 256 (fun k => k != 0 && (s.space k).state == 0) = some n) ∨
    (F.XLT_SPACE_REQ_ANY.of val = 0 ∧ F.XLT_SPACE_REQ_SPACE.of val = n ∧ n ≠ 0 ∧ (s.space n).state = 0)

/-- R143: the space granted is one of spaces 1 to 255. -/
theorem State.Grants.range {s : State} {val : Word} {n : Nat} (h : s.Grants val n) : n ≠ 0 ∧ n < 256 := by
  rcases h with ⟨-, found⟩ | ⟨-, rfl, hn, -⟩
  · have fits := List.find?_some found
    rw [Bool.and_eq_true, bne_iff_ne] at fits
    exact ⟨fits.1, List.mem_range.mp (List.mem_of_find?_eq_some found)⟩
  · exact ⟨hn, Fld.get_lt F.XLT_SPACE_REQ_SPACE val⟩

/-- R143: a request that can be granted is. -/
theorem State.spaceReq_granted {s : State} {val : Word} {n : Nat} (h : s.Grants val n) : s.spaceReq val = s.spaceGranted n := by
  rcases h with ⟨any, found⟩ | ⟨named, rfl, hn, free⟩
  · simp only [State.spaceReq, any, found, if_true]
    rfl
  · simp only [State.spaceReq, named, free, bne_iff_ne.mpr hn]
    rfl

/-- R143: XLT_SPACE_REQ completes. -/
theorem xltSpaceReq_completes {src : Agent} {val : Word} {n : Nat} {s : State} (i : s.Inv) (hg : s.Passes src F.XLT_SPACE_REQ_ANY)
    (h : s.Grants val n) :
    Completes (.xltSpaceReq src val) s fun t =>
      t.space n = { s.space n with state := 1 } ∧ t.rd F.XLT_SPACE_RESULT_STATUS = 0 ∧ t.rd F.XLT_SPACE_RESULT_SPACE = n := by
  refine write_completes hg rfl fun m t before after => ?_
  have granted : m.spaceReq val = m.spaceGranted n := State.spaceReq_granted (by simpa only [State.Grants, before.space] using h)
  obtain ⟨hn, hlt⟩ := h.range
  have allocated := State.setSpace_inv (before.inv i) n { m.space n with state := 1 }
  have status := State.Reads.written allocated F.XLT_SPACE_RESULT_STATUS 0 (by decide) (by decide)
  have number := State.Reads.written status.inv F.XLT_SPACE_RESULT_SPACE n (by decide) (by decide)
  rw [granted] at after
  refine ⟨?_, after.reads ((status.wr F.XLT_SPACE_RESULT_SPACE n (by decide)).wr F.XLT_STATUS_STATUS 0 (by decide))
    (by decide), ?_⟩
  · have left : t.xlt = (m.setSpace n { m.space n with state := 1 }).xlt := by
      rw [after.xlt, State.spaceGranted, State.xltStatus_xlt, State.wr_xlt, State.wr_xlt]
    rw [State.space_congr left, State.space_setSpace m hn (Space.ne_reset Nat.one_ne_zero), before.space]
  · exact (after.reads (number.wr F.XLT_STATUS_STATUS 0 (by decide)) (by decide)).trans (Nat.mod_eq_of_lt hlt)

/-! ### Invalidations -/

/-- R147: the end of an invalidation touches XLT_STATUS alone. -/
theorem State.invalidationDone_regs (s : State) : s.RegsOnly (· = F.XLT_STATUS_INV_BUSY.off) s.invalidationDone := by
  unfold State.invalidationDone
  split
  · exact .refl _ s
  · exact State.RegsOnly.wr (.regs (.refl (· = F.XLT_STATUS_INV_BUSY.off) s) rfl) F.XLT_STATUS_INV_BUSY 0 rfl

/-- R147: the end of an invalidation leaves the spaces. -/
theorem State.invalidationDone_space (s : State) (n : Nat) : s.invalidationDone.space n = s.space n := by
  unfold State.invalidationDone
  split
  · rfl
  · simp only [State.space, State.wr_xlt, State.setXlt_xlt]

section
variable {s : State} (j : Inval)

/-- R147: an invalidation carries the invariant over. -/
theorem State.invalidationDone_inv (i : s.Inv) : s.invalidationDone.Inv :=
  (State.invalidationDone_keeps s (.refl s 0x408) (.refl _)).inv i

/-- R147: the invalidation just started is the one in progress. -/
theorem State.startInval_inval : (s.startInval j).xlt.inval = some j := by simp [State.startInval]

/-- R147: a started invalidation leaves the spaces. -/
theorem State.startInval_space (n : Nat) : (s.startInval j).space n = s.space n := by
  rw [← State.invalidationDone_space s n]
  simp only [State.startInval, State.space, State.wr_xlt, State.setXlt_xlt]

/-- R147: INV_BUSY is set while an invalidation is in progress. -/
theorem State.startInval_busy (i : s.Inv) : (s.startInval j).Reads F.XLT_STATUS_INV_BUSY 1 :=
  State.Reads.written (State.setXlt_inv (State.invalidationDone_inv i) _) F.XLT_STATUS_INV_BUSY 1 (by decide) (by decide)

end

/-! ### Commands on the selected space -/

section
variable {s : State}

/-- R143: ENABLE of a DISABLED space with a root that a table may have. -/
theorem State.spaceCmd_enable (hn : s.rd F.XLT_SPACE_SEL_SPACE ≠ 0) (hs : (s.space (s.rd F.XLT_SPACE_SEL_SPACE)).state = 1)
    (hr : s.rootOk (s.space (s.rd F.XLT_SPACE_SEL_SPACE)).root = true) :
    s.spaceCmd 1 = (s.setSpace (s.rd F.XLT_SPACE_SEL_SPACE)
      { s.space (s.rd F.XLT_SPACE_SEL_SPACE) with state := 2 }).xltStatus 0 := by
  simp [State.spaceCmd, hn, hs, hr]

/-- R143, R147: DISABLE of an ENABLED space starts an invalidation of it (log entry 14). -/
theorem State.spaceCmd_disable (hn : s.rd F.XLT_SPACE_SEL_SPACE ≠ 0) (hs : (s.space (s.rd F.XLT_SPACE_SEL_SPACE)).state = 2) :
    s.spaceCmd 2 = ((s.setSpace (s.rd F.XLT_SPACE_SEL_SPACE)
      { s.space (s.rd F.XLT_SPACE_SEL_SPACE) with state := 1 }).startInval
        { scope := 1, space := s.rd F.XLT_SPACE_SEL_SPACE, disable := true }).xltStatus 0 := by
  simp [State.spaceCmd, hn, hs]

/-- R143: FREE of a DISABLED space. -/
theorem State.spaceCmd_free (hn : s.rd F.XLT_SPACE_SEL_SPACE ≠ 0) (hs : (s.space (s.rd F.XLT_SPACE_SEL_SPACE)).state = 1) :
    s.spaceCmd 3 = (s.setSpace (s.rd F.XLT_SPACE_SEL_SPACE) {}).xltStatus 0 := by
  simp [State.spaceCmd, hn, hs]

/-- R143: a write of the root of a DISABLED space. -/
theorem State.spaceRoot_disabled (hs : (s.space (s.rd F.XLT_SPACE_SEL_SPACE)).state = 1) (hi : Bool) (val : Word) :
    s.spaceRoot hi val = (s.setSpace (s.rd F.XLT_SPACE_SEL_SPACE)
      { s.space (s.rd F.XLT_SPACE_SEL_SPACE) with
        root := if hi then (s.space (s.rd F.XLT_SPACE_SEL_SPACE)).root % 2 ^ 32 + val.toNat % 256 * 2 ^ 32
          else (s.space (s.rd F.XLT_SPACE_SEL_SPACE)).root / 2 ^ 32 * 2 ^ 32 + val.toNat / 512 * 512 }).xltStatus 0 := by
  cases hi <;> simp [State.spaceRoot, hs]

end

section
variable {src : Agent} {s : State}

/-- R143: ENABLE completes. -/
theorem spaceEnable_completes (i : s.Inv) (hg : s.Passes src F.XLT_SPACE_CMD_CMD) (hn : s.rd F.XLT_SPACE_SEL_SPACE ≠ 0)
    (hs : (s.space (s.rd F.XLT_SPACE_SEL_SPACE)).state = 1)
    (hr : s.rootOk (s.space (s.rd F.XLT_SPACE_SEL_SPACE)).root = true) :
    Completes (.spaceEnable src) s fun t =>
      t.space (s.rd F.XLT_SPACE_SEL_SPACE) = { s.space (s.rd F.XLT_SPACE_SEL_SPACE) with state := 2 } ∧
      t.rd F.XLT_STATUS_STATUS = 0 := by
  refine write_completes hg rfl fun m t before after => ?_
  have root (r : Nat) : m.rootOk r = s.rootOk r := by simp only [State.rootOk, before.place]
  have enabled := State.spaceCmd_enable (s := m) (by rwa [before.selected]) (by rwa [before.selected, before.space])
    (by rwa [before.selected, before.space, root])
  rw [enabled, before.selected, before.space] at after
  have left := after.xlt.trans (State.xltStatus_xlt _ _)
  exact ⟨by rw [State.space_congr left, State.space_setSpace m hn (Space.ne_reset (Nat.succ_ne_zero 1))],
    after.reads (State.Reads.written (State.setSpace_inv (before.inv i) _ _) F.XLT_STATUS_STATUS 0 (by decide) (by decide))
      (by decide)⟩

/-- R143, R147: DISABLE completes. -/
theorem spaceDisable_completes (i : s.Inv) (hg : s.Passes src F.XLT_SPACE_CMD_CMD) (hn : s.rd F.XLT_SPACE_SEL_SPACE ≠ 0)
    (hs : (s.space (s.rd F.XLT_SPACE_SEL_SPACE)).state = 2) :
    Completes (.spaceDisable src) s fun t =>
      t.space (s.rd F.XLT_SPACE_SEL_SPACE) = { s.space (s.rd F.XLT_SPACE_SEL_SPACE) with state := 1 } ∧
      t.rd F.XLT_STATUS_INV_BUSY = 1 ∧
      t.xlt.inval = some { scope := 1, space := s.rd F.XLT_SPACE_SEL_SPACE, disable := true } := by
  refine write_completes hg rfl fun m t before after => ?_
  have disabled := State.spaceCmd_disable (s := m) (by rwa [before.selected]) (by rwa [before.selected, before.space])
  rw [disabled, before.selected, before.space] at after
  have left := after.xlt.trans (State.xltStatus_xlt _ _)
  exact ⟨by rw [State.space_congr left, State.startInval_space, State.space_setSpace m hn (Space.ne_reset Nat.one_ne_zero)],
    after.reads ((State.startInval_busy _ (State.setSpace_inv (before.inv i) _ _)).wr F.XLT_STATUS_STATUS 0 (by decide))
      (by decide),
    by rw [left, State.startInval_inval]⟩

/-- R143: FREE completes. -/
theorem spaceFree_completes (i : s.Inv) (hg : s.Passes src F.XLT_SPACE_CMD_CMD) (hn : s.rd F.XLT_SPACE_SEL_SPACE ≠ 0)
    (hs : (s.space (s.rd F.XLT_SPACE_SEL_SPACE)).state = 1) :
    Completes (.spaceFree src) s fun t =>
      t.xlt.spaces = KMap.set (fun _ => {}) s.xlt.spaces (s.rd F.XLT_SPACE_SEL_SPACE) {} ∧ t.rd F.XLT_STATUS_STATUS = 0 := by
  refine write_completes hg rfl fun m t before after => ?_
  have freed := State.spaceCmd_free (s := m) (by rwa [before.selected]) (by rwa [before.selected, before.space])
  rw [freed, before.selected] at after
  exact ⟨by rw [after.xlt, State.xltStatus_xlt, ← before.xlt]; rfl,
    after.reads (State.Reads.written (State.setSpace_inv (before.inv i) _ _) F.XLT_STATUS_STATUS 0 (by decide) (by decide))
      (by decide)⟩

/-- R143: a write of the root of a space completes. -/
theorem spaceRootWrite_completes {hi : Bool} {val : Word}
    (hg : s.Passes src (if hi then F.XLT_SPACE_ROOT_HI_ROOT else F.XLT_SPACE_ROOT_LO_ROOT))
    (hs : (s.space (s.rd F.XLT_SPACE_SEL_SPACE)).state = 1) :
    Completes (.spaceRootWrite src hi val) s fun t =>
      t.space (s.rd F.XLT_SPACE_SEL_SPACE) = { s.space (s.rd F.XLT_SPACE_SEL_SPACE) with
        root := if hi then (s.space (s.rd F.XLT_SPACE_SEL_SPACE)).root % 2 ^ 32 + val.toNat % 256 * 2 ^ 32
          else (s.space (s.rd F.XLT_SPACE_SEL_SPACE)).root / 2 ^ 32 * 2 ^ 32 + val.toNat / 512 * 512 } := by
  refine write_completes hg rfl fun m t before after => ?_
  have selected : s.rd F.XLT_SPACE_SEL_SPACE ≠ 0 := fun h => by simp [State.space, h] at hs
  have written := State.spaceRoot_disabled (s := m) (by rwa [before.selected, before.space]) hi val
  rw [written, before.selected, before.space] at after
  have left := after.xlt.trans (State.xltStatus_xlt _ _)
  rw [State.space_congr left, State.space_setSpace m selected (Space.ne_reset (hs.symm ▸ Nat.one_ne_zero))]

/-- R147, R148: XLT_INV_CMD completes. -/
theorem xltInvCmd_completes {val : Word} (i : s.Inv) (hg : s.Passes src F.XLT_INV_CMD_GO) (go : F.XLT_INV_CMD_GO.of val = 1)
    (scope : F.XLT_INV_CMD_SCOPE.of val ≠ 3) :
    Completes (.xltInvCmd src val) s fun t =>
      t.rd F.XLT_STATUS_INV_BUSY = 1 ∧
      t.xlt.inval = some { scope := F.XLT_INV_CMD_SCOPE.of val, space := F.XLT_INV_CMD_SPACE.of val,
                           page := s.rd F.XLT_INV_VA_HI_VA * 0x10000 + s.rd F.XLT_INV_VA_LO_VA,
                           pages := s.rd F.XLT_INV_PAGES_PAGES } := by
  refine write_completes hg rfl fun m t before after => ?_
  have asked {f : Fld} (hf : f.off ≠ F.XLT_STATUS_INV_BUSY.off ∧ f.Steady) : m.invalidationDone.rd f = s.rd f :=
    (m.invalidationDone_regs.rd f hf.1).trans (before.rd hf.2)
  have started : m.invCmd val = (m.invalidationDone.startInval
      { scope := F.XLT_INV_CMD_SCOPE.of val, space := F.XLT_INV_CMD_SPACE.of val,
        page := s.rd F.XLT_INV_VA_HI_VA * 0x10000 + s.rd F.XLT_INV_VA_LO_VA,
        pages := s.rd F.XLT_INV_PAGES_PAGES }).xltStatus 0 := by
    unfold State.invCmd
    rw [if_neg (by omega), asked (by decide), asked (by decide), asked (by decide)]
  rw [started] at after
  exact ⟨after.reads ((State.startInval_busy _ (State.invalidationDone_inv (before.inv i))).wr F.XLT_STATUS_STATUS 0 (by decide))
      (by decide),
    by rw [after.xlt, State.xltStatus_xlt, State.startInval_inval]⟩

end

/-- R147: the end of an invalidation completes. -/
theorem invalidationDone_completes {j : Inval} {s : State} (i : s.Inv) (hj : s.xlt.inval = some j) :
    Completes .invalidationDone s fun t =>
      t.xlt.inval = none ∧ t.rd F.XLT_STATUS_INV_BUSY = 0 ∧ (j.scope = 2 → t.xlt.tlb = []) ∧
      (j.scope = 1 → t.xlt.tlb = s.xlt.tlb.filter (fun e => !(e.space == j.space))) := by
  refine ⟨s.invalidationDone, rfl, ?_⟩
  simp only [State.invalidationDone, hj, State.wr_xlt, State.setXlt_xlt]
  refine ⟨trivial, (State.Reads.written (State.setXlt_inv i _) F.XLT_STATUS_INV_BUSY 0 (by decide) (by decide)).eq,
    fun all => ?_, fun one => ?_⟩
  · simp [all]
  · simp [one]

/-- Settles O20 (R143, R147), command by command. That a space is DISABLED at the write itself, with INV_BUSY set until the
invalidation is done, is the model's deduction (log entry 14). -/
theorem translationCommandsComplete : Obligations.TranslationCommandsComplete := by
  refine ⟨fun src val n s i hg h => xltSpaceReq_completes i hg h, ?_, fun src hi val s hg hs => spaceRootWrite_completes hg hs,
    fun src val s i hg go scope => xltInvCmd_completes i hg go scope, fun j s i hj => invalidationDone_completes i hj⟩
  intro src s i hg n hn
  exact ⟨fun hs hr => spaceEnable_completes i hg hn hs hr, fun hs => spaceDisable_completes i hg hn hs,
    fun hs => spaceFree_completes i hg hn hs⟩

end Sys2Proof.Machine
end

section
/-! SUPPORT. Accesses that the fabric map refuses, and the commands of QDR main memory and of the mesh (R130, R133, R136 to R141,
R160, R162). -/

namespace Sys2Proof.Machine

/-! ### Holes and the system region -/

/-- R130: an access to a hole completes. -/
theorem holeAccess_completes {acc : Access} {s : State} (i : s.Inv) (ht : acc.translated = false)
    (hp : s.place acc.addr.toNat = .hole) :
    Completes (.holeAccess acc) s fun t =>
      t.rd F.XLT_HOLE_COUNT_COUNT = min (s.rd F.XLT_HOLE_COUNT_COUNT + 1) (2 ^ F.XLT_HOLE_COUNT_COUNT.w - 1) ∧
      t.mem = s.mem ∧ (acc.write = false → t.readData = List.replicate acc.len 0) := by
  have counted := State.Reads.counted i F.XLT_HOLE_COUNT_COUNT 1 (by decide) (by decide)
  have kept : s.Keeps 0x8 s.holeAccess := State.holeAccess_keeps s (.refl s 0x8) (.refl _)
  refine ⟨_, rfl, ?_⟩
  simp only [ht, hp, if_true, Bool.false_eq_true, if_false]
  cases acc.write
  · exact ⟨counted.eq, kept.mem_eq rfl, fun _ => rfl⟩
  · exact ⟨counted.eq, kept.mem_eq rfl, fun h => absurd h (by decide)⟩

/-- A write whose bytes all lie in one place of the fabric map is not divided. -/
theorem State.writeRuns_single {s : State} {p : Place} : ∀ {b : List Byte} {a : Nat}, b ≠ [] →
    (∀ k < b.length, (s.place (a + k)).forWrite = p) → s.writeRuns a b = [(a, b)]
  | [], _, hb, _ => absurd rfl hb
  | [_], _, _, _ => rfl
  | x :: y :: b, a, _, hp => by
    have rest : s.writeRuns (a + 1) (y :: b) = [(a + 1, y :: b)] :=
      State.writeRuns_single (List.cons_ne_nil y b) fun k hk => by
        rw [Nat.add_assoc, Nat.add_comm 1 k]
        exact hp (k + 1) (Nat.succ_lt_succ hk)
    have same : (s.place a).forWrite = (s.place (a + 1)).forWrite :=
      (hp 0 (Nat.succ_pos _)).trans (hp 1 (Nat.succ_lt_succ (Nat.succ_pos _))).symm
    rw [State.writeRuns, rest]
    exact if_pos same

/-- A physical write whose bytes all lie in one place of the fabric map. -/
theorem State.physWrite_single {s : State} {p : Place} {b : List Byte} {a : Nat} (hb : b ≠ [])
    (hp : ∀ k < b.length, (s.place (a + k)).forWrite = p) : s.physWrite a b = s.placeWrite a b := by
  rw [State.physWrite, State.writeRuns_single hb hp]
  rfl

/-- R133: behind the queue descriptors the system region is one place to a write. -/
theorem State.place_sysReserved (s : State) {a : Nat} (h : 0x3A00000 ≤ a) (h' : a < 0x4000000) :
    (s.place a).forWrite = .sysReserved := by
  unfold State.place
  rw [if_neg (by omega), if_neg (by omega)]
  split_ifs <;> rfl

/-- R133: the write of a place that refuses writes as the system region does. -/
theorem State.placeWrite_sysReserved {s : State} {a : Nat} (h : (s.place a).forWrite = .sysReserved) (b : List Byte) :
    s.placeWrite a b = s.sysregWriteDenied := by
  unfold State.placeWrite
  split <;> simp_all [Place.forWrite]

/-- R133: a write into the system region completes. -/
theorem sysregWrite_completes {addr : BitVec 40} {bytes : List Byte} {s : State} (i : s.Inv)
    (hr : inSysRegion addr.toNat = true) (hp : s.place addr.toNat ≠ .queueDescs) (hb : bytes ≠ [])
    (he : addr.toNat + bytes.length ≤ 0x4000000) :
    Completes (.sysregWrite addr bytes) s fun t =>
      t.rd F.TSTO_WPROT_COUNT_COUNT = min (s.rd F.TSTO_WPROT_COUNT_COUNT + 1) (2 ^ F.TSTO_WPROT_COUNT_COUNT.w - 1) ∧
      t.rd F.TSTO_STATUS_STATUS = 0x0601 ∧ t.rd F.TSTO_STATUS_WPROT = 1 ∧ t.mem = s.mem := by
  have behind : 0x3A00000 ≤ addr.toNat := by
    simp only [inSysRegion, Bool.and_eq_true, decide_eq_true_eq] at hr
    by_contra h
    exact hp (by rw [State.place, if_neg (by omega), if_pos (by omega)])
  have place (k : Nat) (hk : k < bytes.length) : (s.place (addr.toNat + k)).forWrite = .sysReserved :=
    s.place_sysReserved (by omega) (by omega)
  have denied : s.physWrite addr.toNat bytes = s.sysregWriteDenied :=
    (State.physWrite_single hb place).trans
      (State.placeWrite_sysReserved (place 0 (List.length_pos_iff.mpr hb)) bytes)
  have count := State.Reads.counted i F.TSTO_WPROT_COUNT_COUNT 1 (by decide) (by decide)
  have status := State.Reads.written count.inv F.TSTO_STATUS_STATUS 0x0601 (by decide) (by decide)
  have flag := State.Reads.written status.inv F.TSTO_STATUS_WPROT 1 (by decide) (by decide)
  have raised {f : Fld} {v : Nat} {u : State} (k : u.Reads f v) (hf : f.off < 0x718000) : (u.blockToHost 0x06).rd f = v :=
    ((u.blockToHost_regs 0x06).rd f (by unfold pendingBits; omega)).trans k.eq
  refine ⟨s.sysregWriteDenied, congrArg Host.Outcome.next ((if_pos hr).trans denied), ?_, ?_, ?_, ?_⟩
  · exact raised ((count.wr F.TSTO_STATUS_STATUS 0x0601 (by decide)).wr F.TSTO_STATUS_WPROT 1 (by decide)) (by decide)
  · exact raised (status.wr F.TSTO_STATUS_WPROT 1 (by decide)) (by decide)
  · exact raised flag (by decide)
  · exact (State.sysregWriteDenied_keeps s (.refl s 0x8) (.refl _)).mem_eq rfl

/-! ### Burst checks -/

/-- One step of a 16-bit checksum stays in 16 bits. -/
theorem crc16Step_lt (r : Nat) : crc16Step r < 2 ^ 16 := by
  unfold crc16Step
  split
  · exact Nat.xor_lt_two_pow (by omega) (by decide)
  · omega

/-- Steps of a 16-bit checksum stay in 16 bits. -/
theorem iter_crc16Step_lt : ∀ (n : Nat) {r : Nat}, r < 2 ^ 16 → iter n crc16Step r < 2 ^ 16
  | 0, _, h => h
  | n + 1, r, _ => iter_crc16Step_lt n (crc16Step_lt r)

/-- R37: a byte that enters a 16-bit checksum leaves 16 bits. -/
theorem crcFeed_two_lt {r : Nat} (h : r < 2 ^ 16) (b : Byte) : crcFeed 2 r b < 2 ^ 16 :=
  iter_crc16Step_lt 8 (Nat.xor_lt_two_pow h (by have := b.isLt; omega))

/-- R138: a burst's check is 16 bits. -/
theorem burstCheck_lt (a : Nat) (d : List Byte) : burstCheck a d < 2 ^ 16 := by
  have fed : ∀ (d : List Byte) {r : Nat}, r < 2 ^ 16 → d.foldl (crcFeed 2) r < 2 ^ 16 := by
    intro d
    induction d with
    | nil => exact fun h => h
    | cons b d ih => exact fun h => ih (crcFeed_two_lt h b)
  exact fed d (Nat.xor_lt_two_pow (by decide) (Nat.mod_lt _ (by decide)))

/-- R138: the check bits of lanes that carry `c` from bit `k` on. -/
theorem laneCheck_lanes (c : Nat) : ∀ (d : List Byte) (k : Nat),
    laneCheck (d.mapIdx fun i b => BitVec.ofNat 9 (bits c (k + i) 1 * 256 + b.toNat)) = bits c k d.length
  | [], k => by simp [laneCheck, bits, Nat.mod_one]
  | b :: d, k => by
    have lane : (BitVec.ofNat 9 (bits c k 1 * 256 + b.toNat)).toNat / 256 = c / 2 ^ k % 2 := by
      have := b.isLt
      rw [BitVec.toNat_ofNat, bits]
      omega
    have rest : (d.mapIdx fun i b => BitVec.ofNat 9 (bits c (k + (i + 1)) 1 * 256 + b.toNat)) =
        d.mapIdx fun i b => BitVec.ofNat 9 (bits c (k + 1 + i) 1 * 256 + b.toNat) := by
      simp only [Nat.add_assoc, Nat.add_comm 1]
    rw [List.mapIdx_cons, rest, laneCheck, List.foldr_cons, ← laneCheck, laneCheck_lanes c d (k + 1), Nat.add_zero, lane, bits,
      bits, List.length_cons, Nat.pow_succ, ← Nat.div_div_eq_div_mul, Nat.pow_succ', Nat.mod_mul]

/-- R138: the data bytes of lanes. -/
theorem laneBytes_lanes (f : Nat → Nat) (d : List Byte) :
    laneBytes (d.mapIdx fun i b => BitVec.ofNat 9 (f i * 256 + b.toNat)) = d := by
  refine List.ext_getElem (by simp [laneBytes]) fun j h h' => ?_
  have := (d[j]).isLt
  simp only [laneBytes, List.getElem_map, List.getElem_mapIdx]
  refine BitVec.eq_of_toNat_eq ?_
  rw [BitVec.toNat_ofNat, BitVec.toNat_ofNat]
  omega

/-- `n` stored bytes are `n` bytes. -/
theorem State.bytesAt_length (s : State) : ∀ (a n : Nat), (s.bytesAt a n).length = n
  | _, 0 => rfl
  | a, n + 1 => congrArg (· + 1) (s.bytesAt_length (a + 1) n)

/-- R140: a burst read without an error is delivered as it is stored. -/
theorem State.burstAs_nil (s : State) (a : Nat) : s.burstAs a [] = s.burstLanes a :=
  List.ext_getElem (by simp [State.burstAs]) fun _ _ _ => by simp [State.burstAs]

/-- R138, R139: a burst that is not stored with inverted check bits, read without an error, checks, and gives its bytes. -/
theorem State.burstOk_stored {s : State} {a : Nat} (h : s.burstBad a = false) :
    s.burstOk a (s.burstAs a []) = true ∧ laneBytes (s.burstAs a []) = s.bytesAt (a / 16 * 16) 16 := by
  have check : burstCheck (s.qdrLocal a).2 (s.bytesAt (a / 16 * 16) 16) < 2 ^ 16 := burstCheck_lt ..
  have lanes : s.burstLanes a = (s.bytesAt (a / 16 * 16) 16).mapIdx fun i b =>
      BitVec.ofNat 9 (bits (burstCheck (s.qdrLocal a).2 (s.bytesAt (a / 16 * 16) 16)) (0 + i) 1 * 256 + b.toNat) := by
    simp [State.burstLanes, h]
  rw [State.burstAs_nil, State.burstOk, lanes, laneBytes_lanes, laneCheck_lanes, State.bytesAt_length, bits, Nat.pow_zero, Nat.div_one,
    Nat.mod_eq_of_lt check]
  exact ⟨beq_self_eq_true _, rfl⟩

/-! ### Reads of a burst -/

/-- R9: an event sets its flag. -/
theorem State.Reads.raised {s : State} (i : s.Inv) (b : Nat) (flag en : Fld) (hd : isDiscovery flag.off = false)
    (hw : flag.lo + flag.w ≤ 32) (p : flag.off < 0x718000) :
    (s.irq b flag en).Reads flag (1 % 2 ^ flag.w) := by
  have flagged := State.Reads.written i flag 1 hd hw
  unfold State.irq
  extract_lets u
  split
  · exact ⟨(State.blockToHost_keeps u b (.refl u 0x8) (.refl _)).inv flagged.inv,
      ((u.blockToHost_regs b).rd flag (by unfold pendingBits; omega)).trans flagged.eq⟩
  · exact flagged

/-- R140: a capture of the address of a failed burst leaves every other register. -/
theorem State.Reads.captured {s : State} {g : Fld} {x : Nat} (h : s.Reads g x) (addr : Nat) (below : g.off < 0x1c0060) :
    (if s.on F.QDR_ERR_ADDR_LO_VALID then s
      else ((s.wr F.QDR_ERR_ADDR_LO_ADDR (addr / 16)).wr F.QDR_ERR_ADDR_HI_ADDR (addr / 2 ^ 32)).wr
        F.QDR_ERR_ADDR_LO_VALID 1).Reads g x := by
  have lo : g.off ≠ 0x1c0060 := by omega
  have hi : g.off ≠ 0x1c0064 := by omega
  split
  · exact h
  · exact ((h.wr _ _ (.inl lo)).wr _ _ (.inl hi)).wr _ _ (.inl lo)

/-- R140: a burst that fails on both reads is counted and reported. -/
theorem State.burstError_reports {s : State} (i : s.Inv) {addr c : Nat} (hc : (s.qdrLocal addr).1 = c) :
    (s.burstError addr).rd (F.QDR_CRC_RETRY_COUNT c) = min (s.rd (F.QDR_CRC_RETRY_COUNT c) + 1) (2 ^ 32 - 1) ∧
      (s.burstError addr).rd (F.QDR_CRC_ERR_COUNT c) = min (s.rd (F.QDR_CRC_ERR_COUNT c) + 1) (2 ^ 32 - 1) ∧
      (s.burstError addr).rd F.QDR_STATUS_STATUS = 0x0702 ∧ (s.burstError addr).rd F.QDR_STATUS_CRC_IRQ = 1 := by
  have lt : c < 8 := hc ▸ s.qdrLocal_channel_lt addr
  have retryOff : (F.QDR_CRC_RETRY_COUNT c).off = 0x1c0020 + 0x8 * c := rfl
  have errOff : (F.QDR_CRC_ERR_COUNT c).off = 0x1c0024 + 0x8 * c := rfl
  have statusOff : F.QDR_STATUS_STATUS.off = 0x1c0008 := rfl
  have flagOff : F.QDR_STATUS_CRC_IRQ.off = 0x1c0008 := rfl
  have retry := State.Reads.counted i (F.QDR_CRC_RETRY_COUNT c) 1 (isDiscovery_of_block (by omega)) (Nat.le_refl 32)
  have err := State.Reads.counted retry.inv (F.QDR_CRC_ERR_COUNT c) 1 (isDiscovery_of_block (by omega)) (Nat.le_refl 32)
  rw [State.rd_inc_off (by omega)] at err
  have retry := (retry.inc (F.QDR_CRC_ERR_COUNT c) 1 (.inl (by omega))).wr F.QDR_STATUS_STATUS 0x0702 (.inl (by omega))
  have status := State.Reads.written err.inv F.QDR_STATUS_STATUS 0x0702 (by decide) (by decide)
  have err := err.wr F.QDR_STATUS_STATUS 0x0702 (.inl (by omega))
  subst hc
  exact ⟨((retry.irq 0x07 F.QDR_STATUS_CRC_IRQ F.QDR_CTRL_CRC_IRQ_EN (.inl (by omega)) (by omega)).captured addr (by omega)).eq,
    ((err.irq 0x07 F.QDR_STATUS_CRC_IRQ F.QDR_CTRL_CRC_IRQ_EN (.inl (by omega)) (by omega)).captured addr (by omega)).eq,
    ((status.irq 0x07 F.QDR_STATUS_CRC_IRQ F.QDR_CTRL_CRC_IRQ_EN (by decide) (by decide)).captured addr (by omega)).eq,
    ((State.Reads.raised err.inv 0x07 F.QDR_STATUS_CRC_IRQ F.QDR_CTRL_CRC_IRQ_EN (by decide) (by decide) (by decide)).captured addr
      (by omega)).eq⟩

/-- R138, R140: the data that two reads of a burst give: the first's when it checks, otherwise the second's. -/
def State.burstData (s : State) (a : Nat) (first second : BurstFlips) : List Byte :=
  laneBytes (if s.burstOk a (s.burstAs a first) then s.burstAs a first else s.burstAs a second)

/-- R140: what two reads of a burst count and report. -/
def State.burstReported (s : State) (a : Nat) (first second : BurstFlips) : State :=
  if s.burstOk a (s.burstAs a first) then s
  else if s.burstOk a (s.burstAs a second) then (s.inc (F.QDR_CRC_RETRY_COUNT (s.qdrLocal a).1)).wr F.QDR_STATUS_STATUS 0x0701
  else s.burstError a

section
variable {s : State} {a : Nat} {first second : BurstFlips}

/-- R139, R140: a read of a burst of QDR main memory, for its data or to be merged with a smaller write. -/
theorem State.qdrRead_eq (hp : s.place a = .qdr) (rmw : Option (Fin 16 × List Byte)) :
    s.qdrRead a first second rmw = rmw.elim ((s.burstReported a first second).setReadData (s.burstData a first second))
      fun w => (s.burstReported a first second).burstMerge a (s.burstData a first second) w
        (!s.burstOk a (s.burstAs a first) && !s.burstOk a (s.burstAs a second)) := by
  unfold State.qdrRead
  rw [if_neg (not_not.mpr hp)]
  cases rmw <;> rfl

/-- R140: what reads of a burst report touches registers alone. -/
theorem State.burstReported_keeps (s : State) (a : Nat) (first second : BurstFlips) :
    s.Keeps 0x8 (s.burstReported a first second) := by
  unfold State.burstReported
  split
  · exact .refl s _
  · split
    · exact State.wr_keeps _ _ _ (State.inc_keeps s _ _ (.refl s _) (.refl _)) (.refl _)
    · exact State.burstError_keeps s a (.refl s _) (.refl _)

/-- R140: a burst that checks on its first read leaves every register. -/
theorem State.burstReported_first (h : s.burstOk a (s.burstAs a first) = true) : s.burstReported a first second = s := if_pos h

/-- R140: a burst whose first read fails is counted, and its second read reported. -/
theorem State.burstReported_reports (i : s.Inv) (h : s.burstOk a (s.burstAs a first) = false) {c : Nat}
    (hc : (s.qdrLocal a).1 = c) :
    (s.burstReported a first second).rd (F.QDR_CRC_RETRY_COUNT c) =
        min (s.rd (F.QDR_CRC_RETRY_COUNT c) + 1) (2 ^ 32 - 1) ∧
      (s.burstOk a (s.burstAs a second) = true → (s.burstReported a first second).rd F.QDR_STATUS_STATUS = 0x0701) ∧
      (s.burstOk a (s.burstAs a second) = false →
        (s.burstReported a first second).rd F.QDR_STATUS_STATUS = 0x0702 ∧
        (s.burstReported a first second).rd F.QDR_STATUS_CRC_IRQ = 1 ∧
        (s.burstReported a first second).rd (F.QDR_CRC_ERR_COUNT c) =
          min (s.rd (F.QDR_CRC_ERR_COUNT c) + 1) (2 ^ 32 - 1)) := by
  obtain ⟨retryTwice, err, status, flag⟩ := State.burstError_reports i hc
  cases hs : s.burstOk a (s.burstAs a second)
  · have both : s.burstReported a first second = s.burstError a := by simp [State.burstReported, h, hs]
    rw [both]
    exact ⟨retryTwice, fun k => absurd k (by decide), fun _ => ⟨status, flag, err⟩⟩
  · have one : s.burstReported a first second = (s.inc (F.QDR_CRC_RETRY_COUNT c)).wr F.QDR_STATUS_STATUS 0x0701 := by
      simp [State.burstReported, h, hs, hc]
    have lt : c < 8 := hc ▸ s.qdrLocal_channel_lt a
    have retryOff : (F.QDR_CRC_RETRY_COUNT c).off = 0x1c0020 + 0x8 * c := rfl
    have statusOff : F.QDR_STATUS_STATUS.off = 0x1c0008 := rfl
    have retry := State.Reads.counted i (F.QDR_CRC_RETRY_COUNT c) 1 (isDiscovery_of_block (by omega)) (Nat.le_refl 32)
    rw [one]
    exact ⟨(retry.wr F.QDR_STATUS_STATUS 0x0701 (.inl (by omega))).eq,
      fun _ => (State.Reads.written retry.inv F.QDR_STATUS_STATUS 0x0701 (by decide) (by decide)).eq, fun k => absurd k (by decide)⟩

end

/-- Stored bytes follow memory alone. -/
theorem State.setBytes_mem_congr : ∀ (b : List Byte) {s t : State} (a : Nat), t.mem = s.mem → t.memGen = s.memGen →
    (t.setBytes a b).mem = (s.setBytes a b).mem
  | [], _, _, _, h, _ => h
  | x :: b, s, t, a, h, g => State.setBytes_mem_congr b (a + 1) (by simp only [State.setByte, State.setMem_mem, h, g]) g

/-- R139: a merged burst is stored, and keeps inverted check bits when its read failed. -/
theorem State.burstMerge_stores (s : State) (a : Nat) (d : List Byte) (w : Fin 16 × List Byte) (failed : Bool) :
    (s.burstMerge a d w failed).regs = s.regs ∧
      (s.burstMerge a d w failed).mem = (s.setBytes (16 * (a / 16)) (d.take w.1 ++ w.2.take (min w.2.length (16 - w.1.val)) ++
        d.drop (w.1 + min w.2.length (16 - w.1.val)))).mem ∧
      (s.burstMerge a d w failed).burstBad a = failed := by
  refine ⟨(State.burstMerge_keeps s a d w failed (.refl s 0x1010) (.refl _)).regs_eq rfl, rfl, ?_⟩
  cases failed <;> simp [State.burstBad, State.burstMerge]

/-- R138: a read of a burst without an error completes. -/
theorem qdrReadCheck_stored_completes {addr : BitVec 40} {second : BurstFlips} {s : State} (hp : s.place addr.toNat = .qdr)
    (hb : s.burstBad addr.toNat = false) :
    Completes (.qdrReadCheck addr [] second none) s fun t =>
      t.readData = s.bytesAt (addr.toNat / 16 * 16) 16 ∧ t.regs = s.regs ∧ t.mem = s.mem ∧ t.qdr = s.qdr := by
  obtain ⟨ok, stored⟩ := State.burstOk_stored hb
  have read := State.qdrRead_eq (first := []) (second := second) hp none
  rw [State.burstReported_first ok, State.burstData, if_pos ok, stored] at read
  exact ⟨_, congrArg Host.Outcome.next read, rfl, rfl, rfl, rfl⟩

/-- R139, R140: a read of a burst completes, whatever errors its two reads have. -/
theorem qdrReadCheck_completes {addr : BitVec 40} {first second : BurstFlips} {rmw : Option (Fin 16 × List Byte)} {s : State}
    (i : s.Inv) (hp : s.place addr.toNat = .qdr) {c : Nat} (hc : (s.qdrLocal addr.toNat).1 = c) :
    Completes (.qdrReadCheck addr first second rmw) s fun t =>
      (s.burstOk addr.toNat (s.burstAs addr.toNat first) = true → t.regs = s.regs) ∧
      (s.burstOk addr.toNat (s.burstAs addr.toNat first) = false →
        t.rd (F.QDR_CRC_RETRY_COUNT c) = min (s.rd (F.QDR_CRC_RETRY_COUNT c) + 1) (2 ^ 32 - 1) ∧
        (s.burstOk addr.toNat (s.burstAs addr.toNat second) = true → t.rd F.QDR_STATUS_STATUS = 0x0701) ∧
        (s.burstOk addr.toNat (s.burstAs addr.toNat second) = false →
          t.rd F.QDR_STATUS_STATUS = 0x0702 ∧ t.rd F.QDR_STATUS_CRC_IRQ = 1 ∧
          t.rd (F.QDR_CRC_ERR_COUNT c) = min (s.rd (F.QDR_CRC_ERR_COUNT c) + 1) (2 ^ 32 - 1))) ∧
      (rmw = none → t.readData = s.burstData addr.toNat first second ∧ t.mem = s.mem ∧ t.qdr = s.qdr) ∧
      (∀ w, rmw = some w →
        t.mem = (s.setBytes (16 * (addr.toNat / 16)) ((s.burstData addr.toNat first second).take w.1 ++
          w.2.take (min w.2.length (16 - w.1.val)) ++
          (s.burstData addr.toNat first second).drop (w.1 + min w.2.length (16 - w.1.val)))).mem ∧
        t.burstBad addr.toNat = (!s.burstOk addr.toNat (s.burstAs addr.toNat first) &&
          !s.burstOk addr.toNat (s.burstAs addr.toNat second))) := by
  have kept := s.burstReported_keeps addr.toNat first second
  have checked (h : s.burstOk addr.toNat (s.burstAs addr.toNat first) = true) :=
    congrArg State.regs (State.burstReported_first (second := second) h)
  have failed (h : s.burstOk addr.toNat (s.burstAs addr.toNat first) = false) :=
    State.burstReported_reports (second := second) i h hc
  have reads {t : State} (h : t.regs = (s.burstReported addr.toNat first second).regs) (f : Fld) :
      t.rd f = (s.burstReported addr.toNat first second).rd f := by rw [State.rd, State.reg, h]; rfl
  cases rmw with
  | none =>
    have read := State.qdrRead_eq (first := first) (second := second) hp none
    rw [Option.elim_none] at read
    refine ⟨_, congrArg Host.Outcome.next read, fun h => (State.setReadData_regs _ _).trans (checked h), fun h => ?_,
      fun _ => ⟨State.setReadData_readData _ _, (State.setReadData_mem _ _).trans (kept.mem_eq rfl),
        (State.setReadData_qdr _ _).trans (kept.qdr_eq rfl)⟩, nofun⟩
    simp only [reads (State.setReadData_regs _ _)]
    exact failed h
  | some w =>
    have read := State.qdrRead_eq (first := first) (second := second) hp (some w)
    obtain ⟨regs, mem, bad⟩ := State.burstMerge_stores (s.burstReported addr.toNat first second) addr.toNat
      (s.burstData addr.toNat first second) w
      (!s.burstOk addr.toNat (s.burstAs addr.toNat first) && !s.burstOk addr.toNat (s.burstAs addr.toNat second))
    rw [Option.elim_some] at read
    generalize (s.burstReported addr.toNat first second).burstMerge addr.toNat _ w _ = t at read regs mem bad
    refine ⟨t, congrArg Host.Outcome.next read, fun h => regs.trans (checked h), fun h => ?_, nofun, ?_⟩
    · simp only [reads regs]
      exact failed h
    · rintro _ ⟨⟩
      exact ⟨mem.trans (State.setBytes_mem_congr _ _ (kept.mem_eq rfl) (kept.memGen_eq rfl)), bad⟩

/-! ### Training and drift -/

/-- R160: the row of QDR_CTRL. -/
def qdrCtrlRow : RegRow := ⟨4, 1, 4, 1, 4, 0x706, 0, 0, 0⟩

/-- R8, R160: an ordinary write of QDR_CTRL sets the channel. -/
theorem State.rd_plainWrite_channel {s : State} (i : s.Inv) (val : Word) :
    (s.plainWrite F.QDR_CTRL_RETRAIN.off val).rd F.QDR_CTRL_CHANNEL = F.QDR_CTRL_CHANNEL.of val := by
  have row : regRow F.QDR_CTRL_RETRAIN.off = some qdrCtrlRow := by decide
  have rw_ : ∀ j < F.QDR_CTRL_CHANNEL.w, (BitVec.ofNat 32 qdrCtrlRow.rw).getLsbD (F.QDR_CTRL_CHANNEL.lo + j) = true := by decide
  simp only [State.plainWrite, row]
  rw [State.rd, show F.QDR_CTRL_CHANNEL.off = F.QDR_CTRL_RETRAIN.off from rfl, State.reg_setReg_same i _ (by decide),
    RegRow.get_written _ _ rw_ rfl]

/-- A bit of a field is the one-bit field at its place. -/
theorem State.testBit_rd (s : State) {f : Fld} {j : Nat} (hj : j < f.w) (hf : f.lo + j < 32) :
    (s.rd f).testBit j = s.on ⟨f.off, f.lo + j, 1⟩ := by
  have field (g : Fld) (w : Word) (k : Nat) : (g.get w).testBit k = (decide (k < g.w ∧ k < 32) && w.getLsbD (g.lo + k)) := by
    rw [Fld.get, BitVec.testBit_toNat, BitVec.getLsbD_and, BitVec.getLsbD_ushiftRight, Fld.mask, BitVec.getLsbD_ofNat,
      Nat.testBit_two_pow_sub_one, Bool.and_comm, Bool.decide_and, Bool.and_comm (decide (k < 32))]
  have bit : s.on ⟨f.off, f.lo + j, 1⟩ = (s.rd ⟨f.off, f.lo + j, 1⟩).testBit 0 := by
    have := s.rd_lt ⟨f.off, f.lo + j, 1⟩
    rw [State.on, Nat.testBit_zero]
    simp only at this
    interval_cases s.rd ⟨f.off, f.lo + j, 1⟩ <;> rfl
  rw [bit, State.rd, State.rd, field, field]
  simp [hj, show j < 32 by omega]

/-- R137: no more than eight channels are populated. -/
theorem State.qdrChannels_le (s : State) : s.qdrChannels ≤ 8 := by
  unfold State.qdrChannels
  extract_lets d
  split
  · omega
  · split <;> omega

/-- R162: the channels that do not train, once channel `c` does or does not. -/
def deadWith (dead c : Nat) (trains : Bool) : Nat :=
  let d := dead / 2 ^ (c + 1) * 2 ^ (c + 1) + dead % 2 ^ c
  if trains then d else d + 2 ^ c

/-- R162: whether channel `c` trains. -/
theorem bits_deadWith (dead c : Nat) (trains : Bool) : bits (deadWith dead c trains) c 1 = if trains then 0 else 1 := by
  have low : dead % 2 ^ c / 2 ^ c = 0 := Nat.div_eq_of_lt (Nat.mod_lt _ (Nat.two_pow_pos c))
  have high : (dead / 2 ^ (c + 1) * 2 ^ (c + 1) + dead % 2 ^ c) / 2 ^ c = 2 * (dead / 2 ^ (c + 1)) := by
    rw [show dead / 2 ^ (c + 1) * 2 ^ (c + 1) = 2 ^ c * (2 * (dead / 2 ^ (c + 1))) by rw [Nat.pow_succ]; ring,
      Nat.mul_add_div (Nat.two_pow_pos c), low, Nat.add_zero]
  cases trains
  · simp only [deadWith, bits, Bool.false_eq_true, if_false, Nat.add_div_right _ (Nat.two_pow_pos c), high]
    omega
  · simp only [deadWith, bits, if_true, high]
    omega

section
variable {s : State} (i : s.Inv) {c : Nat}
include i

/-- R137, R141: a channel that trains takes up QDR_CFG, and its capture point is the new trained point (log entries 7, 125). -/
theorem State.trainChannel_trains (hc : c < s.qdrChannels) (ha : bits s.qdr.dead c 1 = 0) :
    ((s.trainChannel c).rd F.QDR_STATUS_TRAINED).testBit c = true ∧ (s.trainChannel c).rd (F.QDR_DRIFT_OFFSET c) = 0 ∧
      (s.trainChannel c).qdr = { s.qdr with chans := s.qdrChannels, devs := s.rd F.QDR_CFG_DEVICES } := by
  have lt : c < 8 := lt_of_lt_of_le hc s.qdrChannels_le
  have offset : (F.QDR_DRIFT_OFFSET c).off = 0x1c0080 + 0x4 * c := rfl
  have maxOffset : (F.QDR_DRIFT_MAX_ABS c).off = 0x1c0080 + 0x4 * c := rfl
  have status : F.QDR_STATUS_TRAINED.off = 0x1c0008 := rfl
  have taken : (s.setQdr { s.qdr with chans := s.qdrChannels, devs := s.rd F.QDR_CFG_DEVICES }).Inv := ⟨i.mem, i.regs, i.disc⟩
  have trained := State.Reads.written taken F.QDR_STATUS_TRAINED (s.rd F.QDR_STATUS_TRAINED ||| 2 ^ c) (by decide) (by decide)
  have drift := State.Reads.written trained.inv (F.QDR_DRIFT_OFFSET c) 0 (isDiscovery_of_block (by omega)) (by simp [F.QDR_DRIFT_OFFSET])
  have done : s.trainChannel c = (((s.setQdr { s.qdr with chans := s.qdrChannels, devs := s.rd F.QDR_CFG_DEVICES }).wr
      F.QDR_STATUS_TRAINED (s.rd F.QDR_STATUS_TRAINED ||| 2 ^ c)).wr (F.QDR_DRIFT_OFFSET c) 0).wr (F.QDR_DRIFT_MAX_ABS c) 0 :=
    if_pos ⟨hc, ha⟩
  rw [done]
  refine ⟨?_, (drift.wr (F.QDR_DRIFT_MAX_ABS c) 0 (.inr (by simp [F.QDR_DRIFT_OFFSET, F.QDR_DRIFT_MAX_ABS]))).eq, ?_⟩
  · rw [((trained.wr (F.QDR_DRIFT_OFFSET c) 0 (.inl (by omega))).wr (F.QDR_DRIFT_MAX_ABS c) 0 (.inl (by omega))).eq,
      Nat.testBit_mod_two_pow, Nat.testBit_or, Nat.testBit_two_pow_self, Bool.or_true, Bool.and_true]
    exact decide_eq_true lt
  · rw [(State.wr_keeps _ _ _ (State.wr_keeps _ _ _ (State.wr_keeps _ _ _ (.refl _ 0x8) (.refl _)) (.refl _)) (.refl _)).qdr_eq rfl]
    rfl

/-- R137, R162: a channel that does not train counts as not populated and is reported. -/
theorem State.trainChannel_fails (hc : c < 8) (hd : bits s.qdr.dead c 1 = 1) :
    ((s.trainChannel c).rd F.QDR_STATUS_TRAINED).testBit c = false ∧ (s.trainChannel c).rd F.QDR_STATUS_STATUS = 0x0703 := by
  have cleared := State.Reads.written i ⟨F.QDR_STATUS_TRAINED.off, F.QDR_STATUS_TRAINED.lo + c, 1⟩ 0
    (show isDiscovery F.QDR_STATUS_TRAINED.off = false by decide) (show 8 + c + 1 ≤ 32 by omega)
  have done : s.trainChannel c = (s.wr ⟨F.QDR_STATUS_TRAINED.off, F.QDR_STATUS_TRAINED.lo + c, 1⟩ 0).wr F.QDR_STATUS_STATUS
      0x0703 := if_neg fun h => by omega
  rw [done]
  refine ⟨?_, (State.Reads.written cleared.inv F.QDR_STATUS_STATUS 0x0703 (by decide) (by decide)).eq⟩
  rw [State.testBit_rd _ (show c < 8 from hc) (show 8 + c < 32 by omega)]
  exact State.on_of_rd_zero (cleared.wr F.QDR_STATUS_STATUS 0x0703 (.inr (.inl (show 8 + c + 1 ≤ 16 by omega)))).eq

/-- R141, R160: a write of QDR_CTRL with RETRAIN trains the channel it names. -/
theorem State.retrain_eq {val : Word} (hr : F.QDR_CTRL_RETRAIN.of val = 1) (trains : Bool) :
    s.retrain val trains = ((s.setQdr { s.qdr with dead := deadWith s.qdr.dead (F.QDR_CTRL_CHANNEL.of val) trains }).plainWrite
      F.QDR_CTRL_RETRAIN.off val).trainChannel (F.QDR_CTRL_CHANNEL.of val) := by
  have named (d : QdrState) := State.rd_plainWrite_channel (s := s.setQdr d) ⟨i.mem, i.regs, i.disc⟩ val
  refine (if_pos hr).trans ?_
  rw [named]
  rfl

end

/-- R137: the population that QDR_CFG asks for follows its register. -/
theorem State.qdrChannels_congr {s t : State} (h : ∀ f : Fld, f.off = F.QDR_CFG_CHANNELS.off → t.rd f = s.rd f) :
    t.qdrChannels = s.qdrChannels := by
  rw [State.qdrChannels, h F.QDR_CFG_DEVICES rfl, h F.QDR_CFG_FREQ rfl, h F.QDR_CFG_CHANNELS rfl]
  rfl

/-- R141, R162: RETRAIN completes. -/
theorem retrain_completes {src : Agent} {val : Word} {trains : Bool} {s : State} (i : s.Inv)
    (hg : s.Passes src F.QDR_CTRL_RETRAIN) {c : Nat} (named : F.QDR_CTRL_CHANNEL.of val = c) (hc : c < s.qdrChannels) :
    Completes (.retrain src val trains) s fun t =>
      (t.rd F.QDR_STATUS_TRAINED).testBit c = trains ∧
      (trains = true → t.rd (F.QDR_DRIFT_OFFSET c) = 0 ∧ t.qdr.chans = s.qdrChannels ∧ t.qdr.devs = s.rd F.QDR_CFG_DEVICES) ∧
      (trains = false → t.rd F.QDR_STATUS_STATUS = 0x0703) := by
  have lt : c < 8 := lt_of_lt_of_le hc s.qdrChannels_le
  have asked : F.QDR_CTRL_RETRAIN.of (val ||| 1) = 1 := Fld.of_or_one rfl val (by decide)
  have channel : F.QDR_CTRL_CHANNEL.of (val ||| 1) = c := (Fld.of_or_zero val (by decide)).trans named
  refine write_completes hg rfl fun m t before after => ?_
  have im : (m.setQdr { m.qdr with dead := deadWith m.qdr.dead c trains }).Inv :=
    have im := before.inv i
    ⟨im.mem, im.regs, im.disc⟩
  rw [State.retrain_eq (before.inv i) asked, channel] at after
  have written := State.plainWrite_keeps (m.setQdr { m.qdr with dead := deadWith m.qdr.dead c trains }) F.QDR_CTRL_RETRAIN.off
    (val ||| 1) (.refl _ 0x8) (.refl _)
  have config (f : Fld) (hf : f.off = F.QDR_CFG_CHANNELS.off) :
      ((m.setQdr { m.qdr with dead := deadWith m.qdr.dead c trains }).plainWrite F.QDR_CTRL_RETRAIN.off (val ||| 1)).rd f =
        s.rd f :=
    ((State.plainWrite_regs _ _ _).rd f (by rw [hf]; decide)).trans (before.rd (by rw [Fld.Steady, hf]; decide))
  generalize (m.setQdr { m.qdr with dead := deadWith m.qdr.dead c trains }).plainWrite F.QDR_CTRL_RETRAIN.off (val ||| 1) = u
    at after written config
  have dead : bits u.qdr.dead c 1 = if trains then 0 else 1 :=
    (congrArg (fun q => bits (QdrState.dead q) c 1) (written.qdr_eq rfl)).trans (bits_deadWith m.qdr.dead c trains)
  cases trains with
  | true =>
    obtain ⟨trained, drift, population⟩ := State.trainChannel_trains (written.inv im)
      (lt_of_lt_of_eq hc (State.qdrChannels_congr config).symm) dead
    have offset : (F.QDR_DRIFT_OFFSET c).off = 0x1c0080 + 0x4 * c := rfl
    refine ⟨by rw [after.rd (by decide), trained], fun _ => ⟨?_, ?_, ?_⟩, nofun⟩
    · exact (after.rd (by omega)).trans drift
    · rw [after.qdr, population, ← State.qdrChannels_congr config]
    · rw [after.qdr, population, ← config F.QDR_CFG_DEVICES rfl]
  | false =>
    obtain ⟨untrained, status⟩ := State.trainChannel_fails (written.inv im) lt dead
    exact ⟨by rw [after.rd (by decide), untrained], nofun, fun _ => (after.rd (by decide)).trans status⟩

/-- R141: a new capture offset completes. -/
theorem driftLimit_completes {ch : Fin 8} {steps : Fin 65} {s : State} (i : s.Inv) :
    Completes (.driftLimit ch steps) s fun t =>
      t.rd (F.QDR_DRIFT_OFFSET ch) = (steps.val + 224) % 256 ∧
      (24 ≤ ((steps.val : Int) - 32).natAbs → t.rd F.QDR_STATUS_STATUS = 0x0704 ∧ t.rd F.QDR_STATUS_DRIFT_IRQ = 1) := by
  have offsetOff : (F.QDR_DRIFT_OFFSET ch).off = 0x1c0080 + 0x4 * ch := rfl
  have statusOff : F.QDR_STATUS_STATUS.off = 0x1c0008 := rfl
  have flagOff : F.QDR_STATUS_DRIFT_IRQ.off = 0x1c0008 := rfl
  have shown : (((steps.val : Int) - 32 + 256) % 256).toNat % 2 ^ (F.QDR_DRIFT_OFFSET ch).w = (steps.val + 224) % 256 := by
    simp only [F.QDR_DRIFT_OFFSET]
    omega
  have written := State.Reads.written i (F.QDR_DRIFT_OFFSET ch) (((steps.val : Int) - 32 + 256) % 256).toNat
    (isDiscovery_of_block (by omega)) (by simp [F.QDR_DRIFT_OFFSET])
  rw [shown] at written
  have drift (x : Nat) := written.wr (F.QDR_DRIFT_MAX_ABS ch) x (.inr (by simp [F.QDR_DRIFT_OFFSET, F.QDR_DRIFT_MAX_ABS]))
  refine ⟨_, rfl, ?_⟩
  unfold State.drift
  extract_lets u v
  have drift : v.Reads (F.QDR_DRIFT_OFFSET ch) ((steps.val + 224) % 256) := drift _
  split
  · have status := State.Reads.written drift.inv F.QDR_STATUS_STATUS 0x0704 (by decide) (by decide)
    exact ⟨((drift.wr F.QDR_STATUS_STATUS 0x0704 (.inl (by omega))).irq 0x07 F.QDR_STATUS_DRIFT_IRQ F.QDR_CTRL_DRIFT_IRQ_EN
      (.inl (by omega)) (by omega)).eq, fun _ => ⟨(status.irq 0x07 F.QDR_STATUS_DRIFT_IRQ F.QDR_CTRL_DRIFT_IRQ_EN (by decide)
        (by decide)).eq,
        (State.Reads.raised status.inv 0x07 F.QDR_STATUS_DRIFT_IRQ F.QDR_CTRL_DRIFT_IRQ_EN (by decide) (by decide) (by decide)).eq⟩⟩
  · next h => exact ⟨drift.eq, fun k => absurd k h⟩

/-! ### Error register and tags -/

/-- R160: QDR_ERR_POP completes. -/
theorem qdrErrPop_completes {src : Agent} {val : Word} {s : State} (i : s.Inv) (hg : s.Passes src F.QDR_ERR_POP_POP)
    (hp : F.QDR_ERR_POP_POP.of val = 1) :
    Completes (.qdrErrPop src val) s fun t => t.rd F.QDR_ERR_ADDR_LO_VALID = 0 := by
  refine write_completes hg rfl fun m t before after => ?_
  rw [if_pos hp] at after
  exact after.reads (State.Reads.written (before.inv i) F.QDR_ERR_ADDR_LO_VALID 0 (by decide) (by decide)) (by decide)

/-- R136: CLR_HIGH completes. -/
theorem clrHigh_completes {src : Agent} {val : Word} {s : State} (i : s.Inv) (hg : s.Passes src F.MESH_CTRL_CLR_HIGH) :
    Completes (.clrHigh src val) s fun t =>
      t.rd F.MESH_TAGS_HIGH_WATER = s.rd F.MESH_TAGS_IN_USE % 2 ^ F.MESH_TAGS_HIGH_WATER.w := by
  refine write_completes hg rfl fun m t before after => ?_
  rw [after.reads (State.Reads.written (before.inv i) F.MESH_TAGS_HIGH_WATER _ (by decide) (by decide)) (by decide),
    before.rd (by decide)]

/-- Settles O19 (R130, R133, R136 to R141, R160, R162), command by command. That a retraining ends in the step of its write is
the model's choice (log entries 7 and 125). -/
theorem memoryCommandsComplete : Obligations.MemoryCommandsComplete := by
  refine ⟨fun acc s i ht hp => holeAccess_completes i ht hp, fun addr bytes s i hr hp hb he => sysregWrite_completes i hr hp hb he,
    fun addr second s hp hb => qdrReadCheck_stored_completes hp hb, fun addr first second rmw s i hp => qdrReadCheck_completes i hp rfl,
    fun src val trains s i hg => retrain_completes i hg rfl, fun ch steps s i => driftLimit_completes i,
    fun src val s i hg hp => qdrErrPop_completes i hg hp, fun src val s i hg => clrHigh_completes i hg⟩

end Sys2Proof.Machine
end

section
/-! SUPPORT. Faults of translating requesters (R151 to R156): what the fault queue and FAULT_SEQ read after a record, how the other
tasks stand when a task ends, and the commands that resolve a fault. -/

namespace Sys2Proof.Machine

/-! ### The fault queue while a requester is saved -/

/-- From `s` to `t` the last FAULT_SEQ and XLT_FQ_TAIL are the same. -/
structure State.SameFaults (s t : State) : Prop where
  /-- FAULT_SEQ. -/
  seq : t.xlt.faultSeq = s.xlt.faultSeq
  /-- XLT_FQ_TAIL. -/
  tail : t.rd F.XLT_FQ_TAIL_TAIL = s.rd F.XLT_FQ_TAIL_TAIL

section
variable {s0 s : State}

/-- A state and itself. -/
theorem State.SameFaults.refl (s : State) : s.SameFaults s := ⟨rfl, rfl⟩

/-- An update of other parts than translation and the registers. -/
theorem State.SameFaults.put {t : State} (h : s0.SameFaults s) (hx : t.xlt.faultSeq = s.xlt.faultSeq) (hr : t.regs = s.regs) :
    s0.SameFaults t :=
  ⟨hx.trans h.seq, by rw [← h.tail, State.rd, State.reg, hr]; rfl⟩

/-- A write of another register. -/
theorem State.SameFaults.wr (h : s0.SameFaults s) (f : Fld) (v : Nat) (hf : F.XLT_FQ_TAIL_TAIL.off ≠ f.off) :
    s0.SameFaults (s.wr f v) :=
  ⟨by rw [State.wr_xlt, h.seq], by rw [State.rd_wr_off hf, h.tail]⟩

/-- A fold of operations that leave the faults. -/
theorem State.SameFaults.each {α : Type} {f : α → State → State} (hf : ∀ a t, s0.SameFaults t → s0.SameFaults (f a t)) :
    ∀ (l : List α) {s : State}, s0.SameFaults s → s0.SameFaults (s.each l f)
  | [], _, h => h
  | a :: l, s, h => State.SameFaults.each hf l (hf a s h)

/-- R157: a context slot. -/
theorem State.SameFaults.setCtx (h : s0.SameFaults s) (n : Nat) (c : Ctx) : s0.SameFaults (s.setCtx n c) :=
  have put : s0.SameFaults (s.setXlt { s.xlt with ctxs := KMap.set (fun _ => {}) s.xlt.ctxs n c }) := h.put rfl rfl
  (put.wr F.XLT_CTX_FREE _ (by decide)).wr F.XLT_CTX_LOW_WATER _ (by decide)

/-- R185: the state shown of an engine. -/
theorem State.SameFaults.noteEngine (h : s0.SameFaults s) (k : Nat) : s0.SameFaults (s.noteEngine k) := by
  have other : (0x200044 : Nat) ≠ 0x301000 + 0x20 * k := by omega
  exact ((h.wr (F.ENG_E_STATE_TASK_AREA k) _ other).wr (F.ENG_E_STATE_URGENT_AREA k) _ other).wr (F.ENG_E_STATE_NODE_ID k) _ other

/-- R159: the state shown of a mover. -/
theorem State.SameFaults.noteMover (h : s0.SameFaults s) (m : Nat) : s0.SameFaults (s.noteMover m) := by
  have other : (0x200044 : Nat) ≠ 0x240014 + 0x40 * m := by omega
  exact h.wr (F.DMA_STAT_BUSY m) _ other

/-- R127: a wait counted in the monitors. -/
theorem State.SameFaults.histCount (h : s0.SameFaults s) (src id w : Nat) : s0.SameFaults (s.histCount src id w) := by
  have other (m : Nat) : (0x200044 : Nat) ≠ 0x2c0200 + 0x80 * m + 0x4 * histBin w := by omega
  refine State.SameFaults.each (fun m t k => ?_) _ h
  split
  · exact k.wr (F.SCH_HIST_BIN_COUNT m (histBin w)) _ (other m)
  · exact k

/-- R90: a node that starts work may end the retirement of the old tables. -/
theorem State.SameFaults.switchNode (h : s0.SameFaults s) (id : Nat) : s0.SameFaults (s.switchNode id) := by
  unfold State.switchNode
  split
  · extract_lets r
    split
    · refine State.SameFaults.wr ?_ F.STR_STATUS_SHADOW_STATE 0 (by decide)
      exact h.put rfl rfl
    · exact h.put rfl rfl
  · exact h

/-- R90: a node starts work on a tile. -/
theorem State.SameFaults.maybeSwitch (h : s0.SameFaults s) (id : Nat) (fs : Bool) : s0.SameFaults (s.maybeSwitch id fs) := by
  unfold State.maybeSwitch
  split
  · exact h.switchNode id
  · exact h

/-- R169: the start of a task. -/
theorem State.SameFaults.startTask (h : s0.SameFaults s) (slot k area : Nat) (preempted : Option Nat) :
    s0.SameFaults (s.startTask slot k area preempted) := by
  unfold State.startTask
  split
  · exact h
  · extract_lets n switched kn args t dispatched e running freed
    have switched : s0.SameFaults switched := h.maybeSwitch _ _
    have dispatched : s0.SameFaults dispatched := (switched.histCount _ _ _).put rfl rfl
    have running : s0.SameFaults freed := dispatched.put rfl rfl
    have stored := State.setBytes_keeps freed (lmBase k area + kn.argLm) (taskBlock slot k args.length t ++ args) (.refl _ 0x10)
      (.refl _)
    exact (running.put (congrArg XltState.faultSeq (stored.xlt_eq rfl)) (stored.regs_eq rfl)).noteEngine k

/-- R119, R151: the saving of a task. -/
theorem State.SameFaults.saveTask (h : s0.SameFaults s) (slot k c : Nat) (rec : Ctx) (st : TState) :
    s0.SameFaults (s.saveTask slot k c rec st) := by
  unfold State.saveTask
  split
  · exact h
  · extract_lets e saved stopped _ clocked freed
    have saved : s0.SameFaults saved := State.SameFaults.setCtx (s := s.dropPuts slot) (h.put rfl rfl) _ _
    have freed : s0.SameFaults freed := saved.put rfl rfl
    exact freed.noteEngine k

/-- R156: the take-over of an engine by the task that waits for it. -/
theorem State.SameFaults.takeOver (h : s0.SameFaults s) (c k : Nat) : s0.SameFaults (s.takeOver c k) := by
  unfold State.takeOver
  split
  · exact h
  · extract_lets _ dropped
    have dropped : s0.SameFaults dropped := h.put rfl rfl
    split
    · split
      · exact dropped.startTask _ _ _ _
      · exact dropped
    · exact dropped

/-- R151, R156: the saving of a requester that faulted. -/
theorem State.SameFaults.saveFaulted (h : s0.SameFaults s) (mesh c : Nat) (save : Ctx) :
    s0.SameFaults (s.saveFaulted mesh c save) := by
  unfold State.saveFaulted
  split
  · extract_lets k
    split
    · exact h
    · extract_lets mine saved
      have saved : s0.SameFaults saved := h.saveTask _ _ _ _ _
      clear_value mine
      split
      · exact saved.takeOver _ _
      · exact saved
  · split
    · extract_lets m v kept
      have kept : s0.SameFaults kept := h.setCtx _ _
      split
      · split
        · exact h
        · extract_lets stopped _ clocked
          have clocked : s0.SameFaults clocked := kept.put rfl rfl
          refine State.SameFaults.noteMover ?_ m
          exact clocked.put rfl rfl
      · split
        · exact kept.put rfl rfl
        · exact kept
    · exact h.setCtx _ _

end

/-! ### Fault records -/

/-- R151: a fault record takes the next place of the queue. -/
theorem State.putFault_tail {s : State} (i : s.Inv) (r : FaultRec) :
    (s.putFault r).rd F.XLT_FQ_TAIL_TAIL = (s.rd F.XLT_FQ_TAIL_TAIL + 1) % 1024 := by
  have stored := State.setBytes_keeps s (0x3A90000 + 32 * s.rd F.XLT_FQ_TAIL_TAIL) r.bytes (.refl s 0x10) (.refl _)
  have moved := State.Reads.written (stored.inv i) F.XLT_FQ_TAIL_TAIL ((s.rd F.XLT_FQ_TAIL_TAIL + 1) % 1024) (by decide) (by decide)
  exact ((moved.wr F.XLT_STATUS_FQ_FULL _ (by decide)).irq 0x08 F.XLT_STATUS_FQ_IRQ F.XLT_CTRL_FQ_IRQ_EN (by decide)
    (by decide)).eq.trans (Nat.mod_mod _ 1024)

/-- R151: whether it is saved or held in place, a requester that faults writes one record. -/
theorem State.recordFault_records (s : State) (r : FaultRec) (save : Ctx) :
    ∃ written, (s.putFault written).SameFaults (s.recordFault r save) := by
  unfold State.recordFault
  split
  · exact ⟨_, (State.SameFaults.refl _).saveFaulted _ _ _⟩
  · extract_lets held recorded shown
    refine ⟨held, State.SameFaults.put (s := shown) ?_ rfl rfl⟩
    have other : (0x200044 : Nat) ≠ 0x700800 + 0x20 * held.task := by omega
    unfold shown
    split
    · exact (State.SameFaults.refl recorded).wr (F.HIF_CH_INFO_HELD held.task) 1 other
    · exact .refl recorded

section
variable {s : State} (i : s.Inv) (r : FaultRec) (save : Ctx)
include i

/-- R151: one record moves XLT_FQ_TAIL and leaves FAULT_SEQ. -/
theorem State.recordFault_tail :
    (s.recordFault r save).xlt.faultSeq = s.xlt.faultSeq ∧
      (s.recordFault r save).rd F.XLT_FQ_TAIL_TAIL = (s.rd F.XLT_FQ_TAIL_TAIL + 1) % 1024 := by
  obtain ⟨written, same⟩ := s.recordFault_records r save
  have stored := State.putFault_keeps s written (.refl s 0x18) (.refl _)
  exact ⟨same.seq.trans (congrArg XltState.faultSeq (stored.xlt_eq rfl)), same.tail.trans (State.putFault_tail i written)⟩

/-- R151, R152: while the fault queue has room a fault takes the next FAULT_SEQ, never 0, and writes a record. -/
theorem State.fault_records (hq : s.fqCount ≠ 1023) :
    (s.fault r save).xlt.faultSeq = (if s.xlt.faultSeq + 1 = 2 ^ 32 then 1 else s.xlt.faultSeq + 1) ∧
      (s.fault r save).rd F.XLT_FQ_TAIL_TAIL = (s.rd F.XLT_FQ_TAIL_TAIL + 1) % 1024 := by
  unfold State.fault
  extract_lets n _ numbered r' save'
  have room : ¬ numbered.fqCount = 1023 := hq
  rw [if_neg room]
  exact State.recordFault_tail (s := numbered) (State.setXlt_inv i _) r' save'

end

/-! ### Translation faults -/

/-- The registers of the QDR block and the MSI-X pending bits. -/
def qdrRegs (off : Nat) : Prop := off / 0x40000 = 7 ∨ pendingBits off

/-- R140: a failed burst touches the QDR block and MSI-X pending bits alone. -/
theorem State.burstError_qdrRegs (s : State) (addr : Nat) : s.RegsOnly qdrRegs (s.burstError addr) := by
  have hc := s.qdrLocal_channel_lt addr
  have counter (o : Nat) (h : 0x1c0020 ≤ o ∧ o ≤ 0x1c0024) : qdrRegs (o + 0x8 * (s.qdrLocal addr).1) := .inl (by omega)
  unfold State.burstError
  extract_lets c counted raised
  have counted : s.RegsOnly qdrRegs counted :=
    (((State.RegsOnly.refl _ s).wr _ _ (counter 0x1c0020 (by decide))).wr _ _ (counter 0x1c0024 (by decide))).wr _ _
      (.inl (by decide))
  have raised : s.RegsOnly qdrRegs raised := counted.trans (State.irq_regs _ _ _ (.inl (by decide)) fun _ => .inr)
  split
  · exact raised
  · exact ((raised.wr _ _ (.inl (by decide))).wr _ _ (.inl (by decide))).wr _ _ (.inl (by decide))

/-- R140: what a failed read of a table entry reports touches no register of translation. -/
theorem State.walkError_rd (s : State) (n va level : Nat) {f : Fld} (hf : f.off / 0x40000 = 8) :
    (s.walkError n va level).rd f = s.rd f :=
  (s.burstError_qdrRegs _).rd f (by unfold qdrRegs pendingBits; omega)

/-- R151: while the fault queue has room an access that faults takes the next FAULT_SEQ and writes a record. -/
theorem State.faultAccess_records {s : State} (i : s.Inv) (hq : s.fqCount ≠ 1023) (mesh n va : Nat) (write : Bool)
    (kind level pte : Nat) (stop : StopPoint) (work : List Byte) (frame : Option Nat) (chan : Nat) (of_ : Option (Nat × Nat × Nat)) :
    (s.faultAccess mesh n va write kind level pte stop work frame chan of_).xlt.faultSeq =
        (if s.xlt.faultSeq + 1 = 2 ^ 32 then 1 else s.xlt.faultSeq + 1) ∧
      (s.faultAccess mesh n va write kind level pte stop work frame chan of_).rd F.XLT_FQ_TAIL_TAIL =
        (s.rd F.XLT_FQ_TAIL_TAIL + 1) % 1024 := by
  unfold State.faultAccess
  extract_lets w walked acc
  have walked : walked.Inv ∧ walked.fqCount = s.fqCount ∧ walked.xlt = s.xlt ∧
      walked.rd F.XLT_FQ_TAIL_TAIL = s.rd F.XLT_FQ_TAIL_TAIL := by
    unfold walked
    split
    · have kept := State.walkError_keeps s n va level (.refl s 0x8) (.refl _)
      have tail := s.walkError_rd n va level (f := F.XLT_FQ_TAIL_TAIL) (by decide)
      have head := s.walkError_rd n va level (f := F.XLT_FQ_HEAD_HEAD) (by decide)
      exact ⟨kept.inv i, by rw [State.fqCount, tail, head, State.fqCount], kept.xlt_eq rfl, tail⟩
    · exact ⟨i, rfl, rfl, rfl⟩
  obtain ⟨inv, room, xlt, tail⟩ := walked
  rw [← xlt, ← tail]
  exact State.fault_records inv _ _ (room.trans_ne hq)

/-- R145, R151: an access whose translation fails completes with its fault. -/
theorem translationFault_completes {acc : Access} {stop : StopPoint} {bad : Fin 4} {k l p : Nat} {s : State} (i : s.Inv)
    (ht : acc.translated = true) (hr : rclassOf acc.mesh.toNat ≠ 0)
    (hf : s.translateAccess acc.space.toNat acc.addr.toNat acc.len acc.write bad = .fault k l p) (hq : s.fqCount ≠ 1023) :
    Completes (.translationFault acc stop bad) s fun t =>
      t.xlt.faultSeq = (if s.xlt.faultSeq + 1 = 2 ^ 32 then 1 else s.xlt.faultSeq + 1) ∧
      t.rd F.XLT_FQ_TAIL_TAIL = (s.rd F.XLT_FQ_TAIL_TAIL + 1) % 1024 := by
  have faults : (acc.translated && rclassOf acc.mesh.toNat != 0) = true := by simp [ht, hr]
  refine ⟨s.accessFault acc stop bad, congrArg Host.Outcome.next (if_pos faults), ?_⟩
  simp only [State.accessFault, hf]
  split
  · exact State.faultAccess_records (s := s.setEngine _ _) ⟨i.mem, i.regs, i.disc⟩ hq ..
  · exact State.faultAccess_records i hq ..

/-- R152: the requester that waited longest writes its record once there is room. -/
theorem faultQueueWaitEnd_completes {h : Held} {s : State} (i : s.Inv) (hq : s.fqCount ≠ 1023)
    (hh : s.xlt.held.find? (fun x => !x.written) = some h) :
    Completes .faultQueueWaitEnd s fun t => t.rd F.XLT_FQ_TAIL_TAIL = (s.rd F.XLT_FQ_TAIL_TAIL + 1) % 1024 := by
  have inv := State.setXlt_inv i { s.xlt with held := s.xlt.held.erase h }
  refine ⟨s.faultQueueWaitEnd, rfl, ?_⟩
  simp only [State.faultQueueWaitEnd, if_neg hq, hh]
  split
  · exact (State.recordFault_tail inv _ _).2
  · exact State.putFault_tail inv _

/-! ### The end of a task -/

/-- What holds of a state and is kept by each operation of a fold holds after it. -/
theorem State.each_induct {α : Type} {P : State → Prop} {f : α → State → State} (hf : ∀ a t, P t → P (f a t)) :
    ∀ (l : List α) {s : State}, P s → P (s.each l f)
  | [], _, h => h
  | a :: l, s, h => State.each_induct hf l (hf a s h)

/-- R157: a context slot is no part of the scheduler. -/
theorem State.setCtx_sch (s : State) (n : Nat) (c : Ctx) : (s.setCtx n c).sch = s.sch :=
  (State.setCtx_keeps s n c (.refl s 0x408) (.refl _)).sch_eq rfl

/-- R117: the state shown of the task slots is no part of the scheduler. -/
theorem State.noteSlots_sch (s : State) : s.noteSlots.sch = s.sch :=
  (State.noteSlots_keeps s (.refl s 0x8) (.refl _)).sch_eq rfl

/-- R185: the state shown of an engine is no part of the scheduler. -/
theorem State.noteEngine_sch (s : State) (k : Nat) : (s.noteEngine k).sch = s.sch :=
  (State.noteEngine_keeps s k (.refl s 0x8) (.refl _)).sch_eq rfl

/-- R159: the state shown of a mover is no part of the scheduler. -/
theorem State.noteMover_sch (s : State) (m : Nat) : (s.noteMover m).sch = s.sch :=
  (State.noteMover_keeps s m (.refl s 0x8) (.refl _)).sch_eq rfl

/-- R118: a dropped preemption leaves the tasks. -/
theorem State.dropPreempt_tasks (s : State) (slot : Nat) : (s.dropPreempt slot).sch.tasks = s.sch.tasks := by
  unfold State.dropPreempt
  refine State.each_induct (P := fun t => t.sch.tasks = s.sch.tasks) (fun c t h => ?_) _ rfl
  split
  · split
    · rw [State.setCtx_sch]
      exact h
    · exact h
  · exact h

/-- R151: the fault records held are no part of the scheduler. -/
theorem State.dropHeld_sch (s : State) (slot : Nat) : (s.dropHeld slot).sch = s.sch := rfl

/-- R104: the puts that wait are no part of the scheduler. -/
theorem State.dropPuts_sch (s : State) (slot : Nat) : (s.dropPuts slot).sch = s.sch := rfl

/-- R170: the engine and the tile that a task gives back are no part of the scheduler. -/
theorem State.releaseTask_sch (s : State) (k : Task) : (s.releaseTask k).sch = s.sch :=
  (State.releaseTask_keeps s k (.refl s 0x2c08) (.refl _)).sch_eq rfl

/-- R170: a task that ends leaves its slot free and every other task as it was. -/
theorem State.endTask_tasks {s : State} {slot : Nat} {k : Task} (hk : s.task slot = some k) (status : Nat) :
    (s.endTask slot status).sch.tasks = KMap.set (fun _ => none) s.sch.tasks slot none := by
  unfold State.endTask
  split
  case h_1 hn => exact absurd (hn.symm.trans hk) nofun
  extract_lets status' dropped popped voided shown freed
  have within := Within.refl 0x4005118
  have dropped_tasks : dropped.sch.tasks = s.sch.tasks := by
    rw [State.dropPuts_sch, State.dropHeld_sch, State.dropPreempt_tasks, State.releaseTask_sch]
  have popped : dropped.Keeps 0x4005118 popped :=
    State.each_keeps _ (fun c u h => State.pop_keeps u c.qid c.idx h (within.of (by decide))) _ _ (.refl ..)
  have voided : dropped.Keeps 0x4005118 voided := State.voidOuts_keeps _ _ popped (within.of (by decide))
  have recorded : dropped.Keeps 0x4005118 shown := by
    unfold shown
    split
    · exact State.completionRecord_keeps _ _ _ _ voided (within.of (by decide))
    · exact voided
  have freed_tasks : freed.sch.tasks = KMap.set (fun _ => none) s.sch.tasks slot none := by
    rw [← dropped_tasks, ← recorded.sch_eq rfl]
    exact congrArg SchState.tasks (State.noteSlots_sch (shown.setTask slot none))
  split
  · exact (congrArg SchState.tasks (State.noteEngine_sch _ _)).trans freed_tasks
  · split
    · exact (congrArg SchState.tasks (State.noteMover_sch _ _)).trans freed_tasks
    · exact freed_tasks

/-! ### Resolutions -/

section
variable {s t : State}

/-- R158: XLT_RESOLVE_RESULT shows the status and the number of faults resolved. -/
theorem State.resolveResult_reads (i : s.Inv) (status released : Nat) :
    (s.resolveResult status released).Reads F.XLT_RESOLVE_RESULT_STATUS (status % 2 ^ 16) ∧
      (s.resolveResult status released).Reads F.XLT_RESOLVE_RESULT_RELEASED (released % 2 ^ 16) := by
  have shown := State.Reads.written i F.XLT_RESOLVE_RESULT_STATUS status (by decide) (by decide)
  exact ⟨shown.wr F.XLT_RESOLVE_RESULT_RELEASED released (by decide),
    State.Reads.written shown.inv F.XLT_RESOLVE_RESULT_RELEASED released (by decide) (by decide)⟩

/-- R158: the result is no part of translation. -/
theorem State.resolveResult_xlt (s : State) (status released : Nat) : (s.resolveResult status released).xlt = s.xlt := by
  rw [State.resolveResult, State.wr_xlt, State.wr_xlt]

/-- R153: the faults held are a part of translation. -/
theorem State.faults_congr (h : t.xlt = s.xlt) : t.faults = s.faults := by rw [State.faults, h, State.faults]

/-- R153: the fault named is the same. -/
theorem State.Beside.namedFault (h : s.Beside t) : t.namedFault = s.namedFault := by
  simp only [State.namedFault, State.on, State.faults_congr h.xlt, h.rd (f := F.XLT_RESOLVE_ID_ID) (by decide),
    h.rd (f := F.XLT_RESOLVE_ID_BY_NODE) (by decide), h.rd (f := F.XLT_RESOLVE_SEQ_FAULT_SEQ) (by decide)]
  rfl

/-- R153: a fault that is named is resolved. -/
theorem State.resolveNamed_named {f : FaultAt} (h : s.namedFault = some f) (act : State → FaultAt → State) :
    s.resolveNamed act = (act s f).resolveResult 0 1 := by
  simp only [State.resolveNamed, h]

/-- R154: a fault held in place is let go. -/
theorem State.unhold_held (s : State) (h : Held) : (s.unhold h).xlt.held = s.xlt.held.erase h := by
  unfold State.unhold
  extract_lets u
  split
  · rw [State.wr_xlt]
    rfl
  · rfl

end

section
variable {src : Agent} {s : State} (i : s.Inv) (hg : s.Passes src F.XLT_RESOLVE_CMD_ACTION)
include i hg

/-- R153 to R155: RETRY completes. -/
theorem retry_completes {f : FaultAt} (hf : s.namedFault = some f) :
    Completes (.retry src) s fun t =>
      t.rd F.XLT_RESOLVE_RESULT_STATUS = 0 ∧ t.rd F.XLT_RESOLVE_RESULT_RELEASED = 1 ∧
      (∀ h, f = .place h → t.xlt.held = s.xlt.held.erase h) := by
  refine write_completes hg rfl fun m t before after => ?_
  have resolved : m.resolveCmd 1 = (m.retryFault f).resolveResult 0 1 :=
    State.resolveNamed_named (before.namedFault.trans hf) State.retryFault
  rw [resolved] at after
  have inv := (State.retryFault_keeps m f (.refl m 0x2e08) (.refl _)).inv (before.inv i)
  obtain ⟨status, released⟩ := State.resolveResult_reads inv 0 1
  refine ⟨after.reads status (by decide), after.reads released (by decide), ?_⟩
  rintro h rfl
  rw [after.xlt, State.resolveResult_xlt, ← before.xlt]
  exact m.unhold_held h

/-- R153, R156: ABORT completes. -/
theorem abort_completes {f : FaultAt} (hf : s.namedFault = some f) :
    Completes (.abort src) s fun t =>
      t.rd F.XLT_RESOLVE_RESULT_STATUS = 0 ∧ t.rd F.XLT_RESOLVE_RESULT_RELEASED = 1 ∧
      (∀ c x k, f = .slot c x → x.rclass = 1 → x.node ≠ 0 → s.task x.task = some k →
        t.sch.tasks = KMap.set (fun _ => none) s.sch.tasks x.task none) := by
  refine write_completes hg rfl fun m t before after => ?_
  have resolved : m.resolveCmd 2 = (m.abortFault f).resolveResult 0 1 :=
    State.resolveNamed_named (before.namedFault.trans hf) State.abortFault
  rw [resolved] at after
  have inv := (State.abortFault_keeps m f (.refl m 0x4207f18) (.refl _)).inv (before.inv i)
  obtain ⟨status, released⟩ := State.resolveResult_reads inv 0 1
  refine ⟨after.reads status (by decide), after.reads released (by decide), ?_⟩
  rintro c x k rfl engine node task
  have ends : m.abortFault (.slot c x) = (m.setCtx c {}).endTask x.task 0x080B := by
    simp [State.abortFault, State.abortWork, engine, node]
  have tasks : (m.setCtx c {}).sch = s.sch := (m.setCtx_sch c {}).trans (before.keeps.sch_eq rfl)
  have held : (m.setCtx c {}).task x.task = some k := by rw [State.task, tasks, ← task, State.task]
  rw [after.keeps.sch_eq rfl, (State.resolveResult_keeps _ 0 1 (.refl _ 0x8) (.refl _)).sch_eq rfl, ends,
    State.endTask_tasks held, tasks]

/-- R153, R154: RETRY_SPACE completes. -/
theorem retrySpace_completes :
    Completes (.retrySpace src) s fun t =>
      t.rd F.XLT_RESOLVE_RESULT_STATUS = 0 ∧
      t.rd F.XLT_RESOLVE_RESULT_RELEASED =
        (s.faults.filter (fun f => f.space == s.rd F.XLT_RESOLVE_ID_ID % 256)).length % 0x10000 := by
  refine write_completes hg rfl fun m t before after => ?_
  have within := Within.refl 0x2e08
  have named : m.faults.filter (fun f => f.space == m.rd F.XLT_RESOLVE_ID_ID % 256) =
      s.faults.filter (fun f => f.space == s.rd F.XLT_RESOLVE_ID_ID % 256) := by
    rw [State.faults_congr before.xlt, before.rd (by decide)]
  have released : m.resolveCmd 3 = m.retrySpace := rfl
  rw [released, State.retrySpace, named] at after
  generalize s.faults.filter (fun f => f.space == s.rd F.XLT_RESOLVE_ID_ID % 256) = l at after ⊢
  have marked : m.Keeps 0x2e08 (m.each l fun f s => s.markResolved f) :=
    State.each_keeps _ (fun f u h => State.markResolved_keeps u f h (within.of (by decide))) _ _ (.refl ..)
  have resumed := State.each_keeps (fun f s => State.resumeUnit s f) (fun f u h => State.resumeUnit_keeps u f h within) l _ marked
  obtain ⟨status, count⟩ := State.resolveResult_reads (resumed.inv (before.inv i)) 0 (l.length % 0x10000)
  exact ⟨after.reads status (by decide), (after.reads count (by decide)).trans (Nat.mod_mod _ _)⟩

end

/-- Settles O21 (R151 to R156), command by command. That RELEASED counts faults, and not those still waiting to write their
record, is the model's deduction (log entry 121). -/
theorem faultCommandsComplete : Obligations.FaultCommandsComplete :=
  ⟨fun _ _ _ _ _ _ _ i ht hr hf hq => translationFault_completes i ht hr hf hq,
    fun _ _ i hq hh => faultQueueWaitEnd_completes i hq hh,
    fun _ _ _ i hg hf => ⟨retry_completes i hg hf, abort_completes i hg hf⟩, fun _ _ i hg => retrySpace_completes i hg⟩

end Sys2Proof.Machine
end

section
/-! SUPPORT. The DMA movers (R149, R150, R159): submission, the write of a completion status, and the end of descriptors and of
DMA_TILE tasks. -/

namespace Sys2Proof.Machine

/-! ### Movers and rings -/

section
variable {s t : State} {m : Nat}

/-- New mover data carry the invariant over. -/
theorem State.setMover_inv (i : s.Inv) (m : Nat) (v : Mover) : (s.setMover m v).Inv := ⟨i.mem, i.regs, i.disc⟩

/-- The movers are no part of memory. -/
theorem State.setMover_mem (s : State) (m : Nat) (v : Mover) : (s.setMover m v).mem = s.mem := rfl

/-- A mover just replaced by one that is not as after reset. -/
theorem State.mover_setMover (s : State) (m : Nat) {v : Mover} (hv : v ≠ {}) : (s.setMover m v).mover m = v :=
  KMap.get_set_ne _ _ _ _ hv

/-- A mover that has submissions is not as after reset. -/
theorem Mover.ne_reset_of_subs {v : Mover} (h : v.subs ≠ 0) : v ≠ {} := fun e => h (congrArg Mover.subs e)

/-- A mover with a descriptor in progress is not as after reset. -/
theorem Mover.ne_reset_of_run {v : Mover} {r : MoverRun} (h : v.run = some r) : v ≠ {} :=
  fun e => absurd (h.symm.trans (congrArg Mover.run e)) nofun

/-- A mover is the same where the movers are. -/
theorem State.mover_congr (h : t.movers = s.movers) (m : Nat) : t.mover m = s.mover m := by rw [State.mover, h, State.mover]

/-- R159: the state shown of a mover is no part of the movers. -/
theorem State.noteMover_movers (s : State) (m : Nat) : (s.noteMover m).movers = s.movers :=
  (State.noteMover_keeps s m (.refl s 0x8) (.refl _)).movers_eq rfl

/-- R159: the state shown of a mover leaves every other field. -/
theorem State.Reads.noteMover {g : Fld} {x : Nat} (h : s.Reads g x) (m : Nat) (a : (F.DMA_STAT_BUSY m).Apart g) :
    (s.noteMover m).Reads g x :=
  h.wr (F.DMA_STAT_BUSY m) _ a

/-- R159: the capacity of a ring is read off its ENTRIES. -/
theorem State.ringCap_congr (h : t.rd (F.DMA_RING_CFG_ENTRIES m) = s.rd (F.DMA_RING_CFG_ENTRIES m)) :
    t.ringCap m = s.ringCap m := by
  rw [State.ringCap, h, State.ringCap]

/-- R159: a ring has at most 4,096 entries. -/
theorem State.ringCap_le (s : State) (m : Nat) : s.ringCap m ≤ 4096 := by
  unfold State.ringCap
  extract_lets e
  split <;> omega

/-- R159: an index of a ring fits the fields of DMA_PTR. -/
theorem State.ringIndex_mod (h : 0 < s.ringCap m) (k : Nat) : k % s.ringCap m % 2 ^ 13 = k % s.ringCap m :=
  Nat.mod_eq_of_lt (by have := Nat.mod_lt k h; have := s.ringCap_le m; omega)

/-- R159: a register of the DMA block is none of discovery's. -/
theorem isDiscovery_dma (o : Nat) (m : Fin 16) (h : o < 0x1000) : isDiscovery (0x240000 + o + 0x40 * m.val) = false :=
  isDiscovery_of_block (by omega)

end

/-! ### Doorbells -/

/-- R159: a doorbell within the ring's free entries submits its descriptors. -/
theorem State.dmaDoorbell_submits {s : State} {m n : Nat} (hn : n ≠ 0) (free : (s.mover m).subs + n ≤ s.ringCap m) :
    s.dmaDoorbell m n = (s.setMover m { s.mover m with subs := (s.mover m).subs + n }).wr (F.DMA_PTR_TAIL m)
      ((s.rd (F.DMA_PTR_HEAD m) + (s.mover m).subs + n) % s.ringCap m) := by
  have room : ¬ s.ringCap m - (s.mover m).subs < n := by omega
  exact (if_neg room).trans (if_neg hn)

/-- R159: DMA_DB completes. -/
theorem dmaDb_completes {src : Agent} {m : Fin 16} {val : Word} {s : State} (i : s.Inv) (hg : s.Passes src (F.DMA_DB_COUNT m))
    (hn : (F.DMA_DB_COUNT m).of val ≠ 0) (free : (s.mover m).subs + (F.DMA_DB_COUNT m).of val ≤ s.ringCap m) :
    Completes (.dmaDb src m val) s fun t =>
      t.mover m = { s.mover m with subs := (s.mover m).subs + (F.DMA_DB_COUNT m).of val } ∧
      t.rd (F.DMA_PTR_TAIL m) =
        (s.rd (F.DMA_PTR_HEAD m) + (s.mover m).subs + (F.DMA_DB_COUNT m).of val) % s.ringCap m ∧
      t.rd (F.DMA_PTR_HEAD m) = s.rd (F.DMA_PTR_HEAD m) := by
  refine write_completes hg rfl fun u t before after => ?_
  generalize (F.DMA_DB_COUNT m).of val = n at *
  have steady (o : Nat) (h : o < 0x1000) :
      (0x240000 + o + 0x40 * m.val) / 0x40000 ≠ 4 ∧ 0x240000 + o + 0x40 * m.val < 0x718000 := by
    omega
  have mover : u.mover m = s.mover m := State.mover_congr (before.keeps.movers_eq rfl) m
  have head : u.rd (F.DMA_PTR_HEAD m) = s.rd (F.DMA_PTR_HEAD m) := before.rd (steady 0x10 (by decide))
  have cap : u.ringCap m = s.ringCap m := State.ringCap_congr (before.rd (steady 0x08 (by decide)))
  rw [State.dmaDoorbell_submits hn (by rwa [mover, cap]), mover, head, cap] at after
  have submitted := State.setMover_inv (before.inv i) m { s.mover m with subs := (s.mover m).subs + n }
  refine ⟨?_, ?_, ?_⟩
  · rw [State.mover_congr (after.keeps.movers_eq rfl),
      State.mover_congr ((State.wr_keeps _ _ _ (.refl _ 0x8) (.refl _)).movers_eq rfl)]
    exact State.mover_setMover u m (Mover.ne_reset_of_subs (show (s.mover m).subs + n ≠ 0 by omega))
  · have tail := State.Reads.written submitted (F.DMA_PTR_TAIL m)
      ((s.rd (F.DMA_PTR_HEAD m) + (s.mover m).subs + n) % s.ringCap m) (isDiscovery_dma 0x10 m (by decide))
      (Nat.le_of_ble_eq_true rfl)
    exact (after.reads tail (steady 0x10 (by decide))).trans (State.ringIndex_mod (by omega) _)
  · have kept : (u.setMover m { s.mover m with subs := (s.mover m).subs + n }).Reads (F.DMA_PTR_HEAD m)
        (s.rd (F.DMA_PTR_HEAD m)) :=
      ⟨submitted, head⟩
    exact after.reads (kept.wr (F.DMA_PTR_TAIL m) _ (.inr (.inl (Nat.le_of_ble_eq_true rfl)))) (steady 0x10 (by decide))

/-! ### Descriptors that execute -/

/-- R149, R150: a COPY or a FILL whose bytes have moved is finished. -/
theorem State.descRun_moved {s u : State} {r : MoverRun} (m : Nat) (op : r.desc.op = 1 ∨ r.desc.op = 2)
    (moved : s.move (if r.desc.op = 2 then none else some (r.desc.srcSpace, r.desc.src))
      (fun i => (leBytes 4 r.desc.fill).getD (i % 4) 0) [(r.desc.dstSpace, r.desc.dst)] r.desc.length r.offset = (none, u)) :
    s.descRun m r =
      u.setMover m { u.mover m with run := some { r with offset := r.desc.length, status := 0, finished := true } } := by
  have tile : r.desc.op ≠ 3 := by omega
  simp only [State.descRun, State.descCheck, tile, false_and, if_false, moved]

/-- R150: a descriptor that breaks a rule is refused with status 0x0901. -/
theorem State.descRefusal_bad (s : State) (m : Nat) {b : List Byte} (bad : (descOf b).bad = true) : s.descRefusal m b = 0x0901 :=
  if_pos bad

section
variable {s : State} {m : Fin 16} (ht : (s.mover m).task = none)
  (hh : s.xlt.held.any (fun h => h.fr.requester == 0x200 + m.val) = false)
include ht hh

/-- R149: the mover goes on with the descriptor in progress. -/
theorem State.descExecute_run {r : MoverRun} (hr : (s.mover m).run = some r) (hf : r.faulted = false) (hd : r.finished = false) :
    s.descExecute m = s.descRun m r := by
  simp only [State.descExecute, ht, hh, hr, hf, hd, Option.isSome_none, Bool.or_self, Bool.false_eq_true, if_false]

/-- R149, R150: the execution of a COPY or a FILL completes. -/
theorem descriptorExecute_moved_completes {r : MoverRun} {u : State} (hr : (s.mover m).run = some r) (hf : r.faulted = false)
    (hd : r.finished = false) (op : r.desc.op = 1 ∨ r.desc.op = 2)
    (moved : s.move (if r.desc.op = 2 then none else some (r.desc.srcSpace, r.desc.src))
      (fun i => (leBytes 4 r.desc.fill).getD (i % 4) 0) [(r.desc.dstSpace, r.desc.dst)] r.desc.length r.offset = (none, u)) :
    Completes (.descriptorExecute m) s fun t =>
      (t.mover m).run = some { r with offset := r.desc.length, status := 0, finished := true } ∧ t.mem = u.mem := by
  have finished := (State.descExecute_run ht hh hr hf hd).trans (State.descRun_moved m op moved)
  exact ⟨_, congrArg Host.Outcome.next finished,
    congrArg Mover.run (State.mover_setMover u m (Mover.ne_reset_of_run rfl)), rfl⟩

/-- R150: a descriptor taken from the ring that is refused is finished, and nothing of it moves. -/
theorem State.descExecute_refused {st : Nat} (hr : (s.mover m).run = none) (en : s.on (F.DMA_RING_CFG_EN m) = true)
    (hs : (s.mover m).subs ≠ 0) (hv : s.taskResolved m = false) (hst : st ≠ 0) {b : List Byte}
    (hb : s.physRead (s.descAddr m (s.rd (F.DMA_PTR_HEAD m))) 32 = b)
    (refused : ∀ u : State, u.descRefusal m b = st) :
    s.descExecute m = ((s.noteRead (s.descAddr m (s.rd (F.DMA_PTR_HEAD m))) 32).setMover m
      { s.mover m with run := some { desc := descOf b, status := st, finished := true } }).noteMover m := by
  have finished : (st != 0) = true := bne_iff_ne.mpr hst
  have waiting : ((s.mover m).subs == 0) = false := beq_eq_false_iff_ne.mpr hs
  simp only [State.descExecute, ht, hh, hr, en, waiting, hv, hb, refused, finished, Option.isSome_none, Bool.or_self,
    Bool.not_true, Bool.false_eq_true, if_false, if_pos hst]

/-- R150: the execution of a descriptor that breaks a rule completes. -/
theorem descriptorExecute_bad_completes (hr : (s.mover m).run = none) (en : s.on (F.DMA_RING_CFG_EN m) = true)
    (hs : (s.mover m).subs ≠ 0) (hv : s.taskResolved m = false) {b : List Byte}
    (hb : s.physRead (s.descAddr m (s.rd (F.DMA_PTR_HEAD m))) 32 = b) (bad : (descOf b).bad = true) :
    Completes (.descriptorExecute m) s fun t =>
      (t.mover m).run = some { desc := descOf b, status := 0x0901, finished := true } ∧ t.mem = s.mem := by
  have finished := State.descExecute_refused ht hh hr en hs hv (st := 0x0901) (by decide) hb
    fun u => u.descRefusal_bad m bad
  refine ⟨_, congrArg Host.Outcome.next finished, ?_, ?_⟩
  · rw [State.mover_congr (State.noteMover_movers _ _), State.mover_setMover _ m (Mover.ne_reset_of_run rfl)]
  · rw [(State.noteMover_keeps _ m (.refl _ 0x8) (.refl _)).mem_eq rfl, State.setMover_mem,
      (State.noteRead_keeps s _ 32 (.refl s 0x8) (.refl _)).mem_eq rfl]

end

/-! ### The write of a completion status -/

/-- A write of QDR main memory stores its bytes, and touches the QDR block and the MSI-X pending bits alone. -/
theorem State.qdrWrite_stores (s : State) (a : Nat) (b : List Byte) :
    (s.qdrWrite a b).mem = (s.setBytes a b).mem ∧ s.RegsOnly qdrRegs (s.qdrWrite a b) := by
  unfold State.qdrWrite
  extract_lets whole part _ cleared
  have within := Within.refl 0x8
  have kept : cleared.Keeps 0x8 (cleared.each part fun k s => s.burstError (k * 16)) :=
    State.each_keeps _ (fun k u h => State.burstError_keeps u (k * 16) h within) _ _ (.refl ..)
  have regs : s.RegsOnly qdrRegs (cleared.each part fun k s => s.burstError (k * 16)) :=
    State.RegsOnly.each (fun k _ t h => h.trans (t.burstError_qdrRegs (k * 16))) (State.RegsOnly.regs (.refl _ s) rfl)
  exact ⟨State.setBytes_mem_congr b a (kept.mem_eq rfl) (kept.memGen_eq rfl),
    State.RegsOnly.regs regs ((State.setBytes_keeps _ a b (.refl _ 0x10) (.refl _)).regs_eq rfl)⟩

/-- R129: the last two of 32 aligned bytes lie in one place of the fabric map. -/
theorem State.place_last_byte (s : State) {a : Nat} (ha : a % 32 = 30) : s.place (a + 1) = s.place a := by
  have below (b : Nat) (hb : b % 32 = 0) : a + 1 < b ↔ a < b := by omega
  have above (b : Nat) (hb : b % 32 = 0) : b ≤ a + 1 ↔ b ≤ a := by omega
  have channel : (s.qdrLocal (a + 1)).1 = (s.qdrLocal a).1 := by
    unfold State.qdrLocal bits
    extract_lets o o'
    split <;> simp only [o, o'] <;> omega
  have size : (0x100000000 + s.qdrSize) % 32 = 0 := by
    unfold State.qdrSize
    omega
  have populated : s.qdrAt (a + 1) = s.qdrAt a := by
    simp only [State.qdrAt, channel, below _ size, above]
  simp only [State.place, populated, below, above]

/-- R129: a write of the last two bytes of 32 aligned bytes of tile memory or of QDR main memory stores them. -/
theorem State.physWrite_last_stores {s : State} {a : Nat} (ha : a % 32 = 30) (hp : s.place a = .tile ∨ s.place a = .qdr)
    {b : List Byte} (hb : b.length = 2) :
    (s.physWrite a b).mem = (s.setBytes a b).mem ∧ s.RegsOnly qdrRegs (s.physWrite a b) := by
  have nonempty : b ≠ [] := fun e => absurd (hb.symm.trans (congrArg List.length e)) (by decide)
  have one : ∀ k < b.length, (s.place (a + k)).forWrite = (s.place a).forWrite := fun k hk => by
    obtain rfl | rfl : k = 0 ∨ k = 1 := by omega
    · rfl
    · rw [State.place_last_byte s ha]
  rw [State.physWrite_single nonempty one]
  unfold State.placeWrite
  rcases hp with tile | qdr
  · rw [tile]
    exact ⟨rfl, State.RegsOnly.regs (.refl _ s) ((State.setBytes_keeps s a b (.refl s 0x10) (.refl _)).regs_eq rfl)⟩
  · rw [qdr]
    exact s.qdrWrite_stores a b

/-! ### Descriptors that complete -/

/-- R159: what DMA_STAT shows of mover `m` when descriptor `r` completes with a status. -/
def State.descShown (s : State) (m status : Nat) (r : MoverRun) : State :=
  let shown := if status ≠ 0 then (s.dmaStatus m status).wr (F.DMA_STAT_ERR m) 1 else s
  let flagged := if bits r.desc.dflags 1 1 = 1 then
    shown.irq 0x09 (F.DMA_STAT_CPL_IRQ m) (F.DMA_RING_CFG_CPL_IRQ_EN m) else shown
  flagged.noteMover m

section
variable {s : State} {m : Fin 16} {status : Nat} {r : MoverRun}

/-- R159: what DMA_STAT shows is in the registers. -/
theorem State.descShown_keeps : s.Keeps 0x8 (s.descShown m status r) := by
  unfold State.descShown
  extract_lets shown flagged
  have within := Within.refl 0x8
  have shown_keeps : s.Keeps 0x8 shown := by
    unfold shown
    split
    · exact State.wr_keeps _ _ _ (State.dmaStatus_keeps s m status (.refl s 0x8) within) within
    · exact .refl ..
  refine State.noteMover_keeps flagged m ?_ within
  unfold flagged
  split
  · exact State.irq_keeps _ _ _ _ shown_keeps within
  · exact shown_keeps

/-- R159: a field apart from the completion's flag and from BUSY reads as before. -/
theorem State.Reads.completionFlag {g : Fld} {x : Nat} (h : s.Reads g x) (flag : (F.DMA_STAT_CPL_IRQ m).Apart g)
    (busy : (F.DMA_STAT_BUSY m).Apart g) (p : g.off < 0x718000) :
    State.Reads ((if bits r.desc.dflags 1 1 = 1 then
      s.irq 0x09 (F.DMA_STAT_CPL_IRQ m) (F.DMA_RING_CFG_CPL_IRQ_EN m) else s).noteMover m) g x := by
  split
  · exact (h.irq 0x09 _ _ flag p).noteMover m busy
  · exact h.noteMover m busy

/-- R159: another register than DMA_STAT reads as before. -/
theorem State.Reads.descShown {g : Fld} {x : Nat} (h : s.Reads g x) (hg : g.off ≠ 0x240014 + 0x40 * m.val)
    (p : g.off < 0x718000) : (s.descShown m status r).Reads g x := by
  unfold State.descShown
  extract_lets shown flagged
  have kept : shown.Reads g x := by
    unfold shown
    split
    · exact (h.wr (F.DMA_STAT_STATUS m) status (.inl hg)).wr (F.DMA_STAT_ERR m) 1 (.inl hg)
    · exact h
  exact kept.completionFlag (.inl hg) (.inl hg) p

/-- R159: a status that is not 0 is shown, with ERR. -/
theorem State.descShown_status (i : s.Inv) (h : status ≠ 0) :
    (s.descShown m status r).rd (F.DMA_STAT_ERR m) = 1 ∧
      (s.descShown m status r).rd (F.DMA_STAT_STATUS m) = status % 0x10000 := by
  have hd := isDiscovery_dma 0x14 m (by decide)
  have p : 0x240014 + 0x40 * m.val < 0x718000 := by omega
  have last := State.Reads.written i (F.DMA_STAT_STATUS m) status hd (Nat.le_refl 32)
  have err := State.Reads.written last.inv (F.DMA_STAT_ERR m) 1 hd (Nat.le_of_ble_eq_true rfl)
  have last := last.wr (F.DMA_STAT_ERR m) 1 (.inr (.inr (Nat.le_of_ble_eq_true rfl)))
  unfold State.descShown
  rw [if_pos h]
  exact ⟨(err.completionFlag (.inr (.inr (Nat.le_refl 2))) (.inr (.inr (Nat.le_of_ble_eq_true rfl))) p).eq,
    (last.completionFlag (.inr (.inr (Nat.le_of_ble_eq_true rfl))) (.inr (.inr (Nat.le_of_ble_eq_true rfl))) p).eq⟩

/-- R150, R159: a descriptor of a ring completes: its status is written, its mover is free and HEAD advances. -/
theorem State.descEnd_eq {u : State} (hu : s.physWrite (s.descAddr m (s.rd (F.DMA_PTR_HEAD m)) + 30) (leBytes 2 status) = u)
    (cap : u.ringCap m = s.ringCap m) (some : 0 < s.ringCap m) :
    s.descEnd m status r = ((u.setMover m { s.mover m with run := none, subs := (s.mover m).subs - 1 }).wr (F.DMA_PTR_HEAD m)
      ((s.rd (F.DMA_PTR_HEAD m) + 1) % s.ringCap m)).descShown m status r := by
  have index : (if u.ringCap m = 0 then 0 else (s.rd (F.DMA_PTR_HEAD m) + 1) % u.ringCap m) =
      (s.rd (F.DMA_PTR_HEAD m) + 1) % s.ringCap m := by
    rw [cap, if_neg (by omega)]
  subst hu
  rw [← index]
  rfl

/-- R159: descriptors lie at multiples of 32, so that a completion status is the last two bytes of one. -/
theorem State.descAddr_status (s : State) (m k : Nat) : (s.descAddr m k + 30) % 32 = 30 := by
  unfold State.descAddr
  omega

/-- R150: DESCRIPTOR_COMPLETE completes. -/
theorem descriptorComplete_completes (i : s.Inv) (hr : (s.mover m).run = some r) (hf : r.finished = true) (cap : 0 < s.ringCap m)
    {a : Nat} (ha : s.descAddr m (s.rd (F.DMA_PTR_HEAD m)) + 30 = a) (hp : s.place a = .tile ∨ s.place a = .qdr) :
    Completes (.descriptorComplete m) s fun t =>
      t.movers = KMap.set (fun _ => {}) s.movers m { s.mover m with run := none, subs := (s.mover m).subs - 1 } ∧
      t.rd (F.DMA_PTR_HEAD m) = (s.rd (F.DMA_PTR_HEAD m) + 1) % s.ringCap m ∧ t.mem = (s.setBytes a (leBytes 2 r.status)).mem ∧
      (r.status ≠ 0 → t.rd (F.DMA_STAT_ERR m) = 1 ∧ t.rd (F.DMA_STAT_STATUS m) = r.status % 0x10000) := by
  obtain ⟨mem, regs⟩ := State.physWrite_last_stores (ha ▸ s.descAddr_status m _) hp (b := leBytes 2 r.status) rfl
  have kept := State.physWrite_keeps s a (leBytes 2 r.status) (.refl s 0x5018) (.refl _)
  generalize hu : s.physWrite a (leBytes 2 r.status) = u at mem regs kept
  have other : ¬ qdrRegs (0x240008 + 0x40 * m.val) := by
    unfold qdrRegs pendingBits
    omega
  have same : u.ringCap m = s.ringCap m := State.ringCap_congr (regs.rd (F.DMA_RING_CFG_ENTRIES m) other)
  have ends : s.descComplete m = s.descEnd m r.status r := by simp only [State.descComplete, hr, hf, if_true]
  rw [State.descEnd_eq (by rw [ha, hu]) same cap] at ends
  have inv := State.setMover_inv (kept.inv i) m { s.mover m with run := none, subs := (s.mover m).subs - 1 }
  have head := State.Reads.written inv (F.DMA_PTR_HEAD m) ((s.rd (F.DMA_PTR_HEAD m) + 1) % s.ringCap m)
    (isDiscovery_dma 0x10 m (by decide)) (Nat.le_of_ble_eq_true rfl)
  refine ⟨_, congrArg Host.Outcome.next ends, ?_, ?_, ?_, fun h => State.descShown_status head.inv h⟩
  · rw [State.descShown_keeps.movers_eq rfl, (State.wr_keeps _ _ _ (.refl _ 0x8) (.refl _)).movers_eq rfl, ← kept.movers_eq rfl]
    rfl
  · have other : 0x240010 + 0x40 * m.val ≠ 0x240014 + 0x40 * m.val := by omega
    exact (head.descShown other (show 0x240010 + 0x40 * m.val < 0x718000 by omega)).eq.trans (State.ringIndex_mod cap _)
  · rw [State.descShown_keeps.mem_eq rfl, (State.wr_keeps _ _ _ (.refl _ 0x8) (.refl _)).mem_eq rfl, State.setMover_mem, mem]

end

/-! ### DMA_TILE tasks -/

/-- R170: a task that ends leaves its slot free. -/
theorem State.endTask_task {s : State} (w : KMap.wf (fun _ => none) s.sch.tasks = true) (slot status : Nat) :
    (s.endTask slot status).task slot = none := by
  cases hk : s.task slot with
  | none =>
    have ended : s.endTask slot status = s := by simp only [State.endTask, hk]
    rw [ended, hk]
  | some k =>
    rw [State.task, State.endTask_tasks hk]
    exact KMap.get_set_same _ _ 0 slot none w

/-- R170: `t` is the end of the task in `slot`, from a state whose task map is sorted. -/
def State.EndsTask (t : State) (slot : Nat) : Prop :=
  ∃ w : State, KMap.wf (fun _ => none) w.sch.tasks = true ∧ t = w.endTask slot 0

/-- R149: a DMA_TILE task that moved its tile ends, whether its edge's policy drops the tile, it has no output or it puts it. -/
theorem State.dmaTaskComplete_ends {m : Fin 16} {slot : Nat} {k : Task} {c : Claim} {e : RingEntry} {s u : State}
    (hw : KMap.wf (fun _ => none) s.sch.tasks = true) (hh : s.xlt.held.any (fun h => h.fr.requester == 0x200 + m.val) = false)
    (ht : (s.mover m).task = some slot) (hk : s.task slot = some k) (hc : s.nextClaim k 0 = some (c, e))
    {src : Nat × Nat} (hs : s.slotVia c.qid e.addr = src) (hu : s.unitStop 0 src 32 false = none)
    {dsts : List (Nat × Nat)} (hd : (k.outs.headD {}).ents.map (fun x => s.slotVia x.1 ((s.queue x.1).slotAddr x.2)) = dsts)
    {len : Nat} (hl : tileLength (s.vread src.1 src.2 32) = len)
    (moved : s.move (some src) (fun _ => 0) dsts len (s.mover m).off = (none, u))
    {r : Checked × State}
    (hr : (match u.edge? c.qid with
      | some ed => u.checkTile ed (0x200 + m.val) (tileOf (u.vread src.1 src.2 len) e.len16) true
        (sealResumed (u.vread src.1 src.2 len) (s.mover m).off (s.mover m).acc)
      | none => ({ outcome := 0, tile := tileOf (u.vread src.1 src.2 len) e.len16 }, u)) = r)
    (reach : r.1.outcome = 3 ∨ k.outs = [] ∨
      dsts.findSome? (fun d => u.rangeStop d (dmaOut k (k.outs.headD {}) r.1).bytes.length true) = none) :
    (s.dmaTaskComplete m).EndsTask slot := by
  unfold State.dmaTaskComplete
  simp -zeta only [hh, ht, hk, hc, Bool.false_eq_true, if_false]
  extract_lets v src' dsts' stop len'
  obtain rfl : src' = src := hs
  obtain rfl : dsts' = dsts := hd
  obtain rfl : len' = len := hl
  have moved : s.move (some src') (fun _ => 0) dsts' len' v.off = (none, u) := moved
  simp -zeta only [hu, moved]
  extract_lets b tile r'
  obtain rfl : r' = r := hr
  have within := Within.refl 0x5538
  have moved_keeps : s.Keeps 0x5538 u := State.move_keeps_eq (.refl s 0x5538) moved (within.of (by decide))
  have checked : s.Keeps 0x5538 r'.2 := by
    unfold r'
    split
    · exact State.checkTile_keeps _ _ _ _ _ _ moved_keeps (within.of (by decide))
    · exact moved_keeps
  have sorted : KMap.wf (fun _ => none) r'.2.sch.tasks = true := by rwa [checked.sch_eq rfl]
  clear_value r'
  split
  · exact ⟨r'.2, sorted, rfl⟩
  · next outcome =>
    split
    · exact ⟨r'.2, sorted, rfl⟩
    · next o rest outs =>
      simp only [outs, List.headD_cons, reduceCtorEq, outcome, false_or] at reach
      extract_lets out put ended
      simp -zeta only [out, reach]
      refine ⟨ended, KMap.set_wf _ _ _ _ ?_, rfl⟩
      rwa [(State.dmaTaskPut_keeps r'.2 o out (.refl _ 0x4005118) (.refl _)).sch_eq rfl]

/-- R142: no entry of a reservation stops an access where each is found free of a stop. -/
theorem findSome?_of_all_isNone {α β γ : Type} {g : α → β} {f : β → Option γ} {l : List α}
    (h : l.all (fun x => (f (g x)).isNone) = true) : (l.map g).findSome? f = none := by
  rw [List.findSome?_eq_none_iff]
  intro y hy
  obtain ⟨x, hx, rfl⟩ := List.mem_map.mp hy
  exact Option.isNone_iff_eq_none.mp (List.all_eq_true.mp h x hx)

/-- Settles O22 (R149, R150, R159), command by command. That a ring holds ENTRIES descriptors, that DESC_INVALID comes before every
other refusal of a descriptor, and that the input edge's policy is applied before a DMA_TILE task puts its tile are the model's
deductions (log entries 33, 34 and 21). -/
theorem moverCommandsComplete : Obligations.MoverCommandsComplete := by
  refine ⟨fun src m val s i hg hn free => dmaDb_completes i hg hn free,
    fun m r s u ht hh hr hf hd op moved => descriptorExecute_moved_completes ht hh hr hf hd op moved,
    fun m s ht hh hr en hs hv bad => descriptorExecute_bad_completes ht hh hr en hs hv rfl bad,
    fun m r s i hr hf cap hp => descriptorComplete_completes i hr hf cap rfl hp, ?_⟩
  intro m slot k c e s u hw hh ht hk hc src hu moved b tile comp r reach
  obtain ⟨w, sorted, ended⟩ := State.dmaTaskComplete_ends hw hh ht hk hc rfl hu rfl rfl moved (r := r) rfl
    (reach.imp_right (Or.imp_right findSome?_of_all_isNone))
  refine ⟨s.dmaTaskComplete m, rfl, ?_⟩
  rw [ended]
  exact State.endTask_task sorted slot 0

end Sys2Proof.Machine
end

section
/-! SUPPORT. Engines (R163 to R171): what a task that runs on an engine is, what an instruction that retires leaves, and the parts
of the state after the operations an instruction uses. -/

namespace Sys2Proof.Machine

/-! ### Engines, tasks and queues -/

/-- Engines outside the mask. -/
theorem State.Keeps.eng_eq {s t : State} {m : Nat} (h : s.Keeps m t) (w : m.testBit 13 = false) : t.eng = s.eng :=
  h.frame .eng w

/-- Maintenance outside the mask. -/
theorem State.Keeps.mnt_eq {s t : State} {m : Nat} (h : s.Keeps m t) (w : m.testBit 28 = false) : t.mnt = s.mnt :=
  h.frame .mnt w

section
variable {s t : State} {k slot : Nat} {x : Task}

/-- An engine is the same where the engines are. -/
theorem State.engine_congr (h : t.eng = s.eng) (k : Nat) : t.engine k = s.engine k := by rw [State.engine, h, State.engine]

/-- A task is the same where the scheduler is. -/
theorem State.task_congr (h : t.sch = s.sch) (slot : Nat) : t.task slot = s.task slot := by rw [State.task, h, State.task]

/-- A queue is the same where the queues are. -/
theorem State.queue_congr (h : t.hq = s.hq) (q : Nat) : t.queue q = s.queue q := by rw [State.queue, h, State.queue]

/-- An engine that runs a task is not as after reset. -/
theorem Engine.ne_reset_of_running {e : Engine} (h : e.running = some slot) : e ≠ {} :=
  fun r => absurd (h.symm.trans (congrArg Engine.running r)) nofun

/-- An engine just replaced by one that runs a task. -/
theorem State.engine_setEngine (s : State) (k : Nat) {e : Engine} (h : e.running = some slot) : (s.setEngine k e).engine k = e :=
  KMap.get_set_ne _ _ _ _ (Engine.ne_reset_of_running h)

/-- An engine that runs a task, its registers just replaced. -/
theorem State.engine_setRegs (s : State) (k : Nat) {e : Engine} (r : EngRegs) (h : e.running = some slot) :
    (s.setEngine k { e with regs := r }).engine k = { e with regs := r } :=
  State.engine_setEngine (slot := slot) s k h

/-- An engine is no part of the scheduler. -/
theorem State.setEngine_sch (s : State) (k : Nat) (e : Engine) : (s.setEngine k e).sch = s.sch := rfl

/-- A task just replaced. -/
theorem State.task_setTask (s : State) (slot : Nat) (x : Task) : (s.setTask slot (some x)).task slot = some x :=
  KMap.get_set_ne _ _ _ _ nofun

/-- Every other task is as before. -/
theorem State.task_setTask_other (s : State) {slot other : Nat} (v : Option Task) (h : other ≠ slot) :
    (s.setTask slot v).task other = s.task other :=
  KMap.get_set_other _ _ _ _ _ h

/-- R123: the clock of the dispatches is no part of the tasks. -/
theorem State.task_setClock (s : State) (v n : Nat) : (s.setSch { s.sch with clock := v }).task n = s.task n := rfl

/-- The task an engine runs stands in the slot the engine names. -/
theorem State.running_iff : s.running k = some (slot, x) ↔ (s.engine k).running = some slot ∧ s.task slot = some x := by
  unfold State.running
  split
  · next none => simp [none]
  · next other run =>
    rw [run, Option.map_eq_some_iff]
    constructor
    · rintro ⟨y, task, pair⟩
      obtain ⟨rfl, rfl⟩ := Prod.mk.inj pair
      exact ⟨rfl, task⟩
    · rintro ⟨same, task⟩
      obtain rfl := Option.some.inj same
      exact ⟨x, task, rfl⟩

/-- Engine `k` runs the task `x` of `slot`, and no expired GRACE waits for an instruction to complete (R177). -/
structure State.Runs (s : State) (k slot : Nat) (x : Task) : Prop where
  /-- The engine names the slot. -/
  running : (s.engine k).running = some slot
  /-- The task stands in it. -/
  task : s.task slot = some x
  /-- GRACE has not expired. -/
  grace : (s.engine k).graceOver = false

/-- What keeps the engines and the scheduler keeps the task running. -/
theorem State.Runs.congr (h : s.Runs k slot x) (eng : t.eng = s.eng) (sch : t.sch = s.sch) : t.Runs k slot x :=
  ⟨State.engine_congr eng k ▸ h.running, (State.task_congr sch slot).trans h.task, State.engine_congr eng k ▸ h.grace⟩

/-- R177: with no expired GRACE an instruction is followed by no stop. -/
theorem State.afterInstr_of_grace (h : (s.engine k).graceOver = false) (slot : Nat) : s.afterInstr k slot = s := by
  simp only [State.afterInstr, h, Bool.false_and, Bool.false_eq_true, if_false]

/-- R222: a task without an input has no work left. -/
theorem State.libraryWork_of_no_input (ht : s.task slot = some x) (hi : x.input = none) : s.libraryWork k slot = s := by
  simp only [State.libraryWork, ht, hi]

/-- R165: an instruction of a task that acts is executed once the library's work is done. -/
theorem State.Acts.onEngine (h : s.Acts k slot x) (f : State → Nat → Task → State) :
    s.onEngine k f = f (s.libraryWork k slot) slot x := by
  obtain ⟨first, free, run, held⟩ := h
  obtain ⟨⟨_, y⟩, runs, rfl⟩ := Option.map_eq_some_iff.mp first
  simp only [State.onEngine, runs, free, run, held, Bool.false_eq_true, if_false]

/-- R165: a task that acts runs once the library's work is done. -/
theorem State.Acts.running (h : s.Acts k slot x) :
    ((s.libraryWork k slot).engine k).running = some slot ∧ (s.libraryWork k slot).task slot = some x := by
  obtain ⟨-, -, run, -⟩ := h
  exact State.running_iff.mp run

/-- R165: a task that acts without an expired GRACE. -/
theorem State.Acts.runs (h : s.Acts k slot x) (g : ((s.libraryWork k slot).engine k).graceOver = false) :
    (s.libraryWork k slot).Runs k slot x := by
  obtain ⟨running, task⟩ := h.running
  exact ⟨running, task, g⟩

end

/-! ### Instructions that retire -/

/-- R171: an instruction at `pc` that gives `val` takes the engine from `e` to `e'`. -/
structure Engine.Retires (e e' : Engine) (pc : Word) (rd : Fin 32) (val : Nat) : Prop where
  /-- The pc passes the instruction. -/
  pc : e'.regs.pc = (pc.toNat + 4) % 2 ^ 32
  /-- It is counted. -/
  minstret : e'.minstret = (e.minstret + 1) % 2 ^ 64
  /-- rd takes the value. -/
  rd : 0 < rd.val → e'.regs.x = e.regs.x.set rd.val (BitVec.ofNat 32 val)
  /-- The task runs on. -/
  running : e'.running = e.running
  /-- An expired GRACE stands. -/
  grace : e'.graceOver = e.graceOver

section
variable {s : State} {k slot : Nat} {x : Task} {pc : Word} {rd : Fin 32} {val : Nat}

/-- R171: an instruction of a running task retires. -/
theorem State.retire_retires (h : (s.engine k).running = some slot) (spent : Bool) :
    (s.engine k).Retires ((s.retire k pc rd val spent).engine k) pc rd val := by
  unfold State.retire
  extract_lets e r regs
  rw [State.engine_setEngine (slot := slot)]
  · exact ⟨rfl, rfl, fun pos => if_neg (Nat.pos_iff_ne_zero.mp pos), rfl, rfl⟩
  · exact h

/-- R171: an instruction of a task that acts retires once what it does besides has left the engines alone. -/
theorem State.Acts.retires {u : State} (h : s.Acts k slot x) (eng : u.eng = (s.libraryWork k slot).eng) (pc : Word) (rd : Fin 32)
    (val : Nat) (spent : Bool) :
    ((s.libraryWork k slot).engine k).Retires ((u.retire k pc rd val spent).engine k) pc rd val := by
  have same := State.engine_congr eng k
  rw [← same]
  exact State.retire_retires (same ▸ h.running.1) spent

/-- R171: an instruction that retires is no part of the scheduler. -/
theorem State.retire_sch (s : State) (k : Nat) (pc : Word) (rd : Fin 32) (val : Nat) (spent : Bool) :
    (s.retire k pc rd val spent).sch = s.sch := rfl

/-- R171: an instruction that retires is no part of memory. -/
theorem State.retire_mem (s : State) (k : Nat) (pc : Word) (rd : Fin 32) (val : Nat) (spent : Bool) :
    (s.retire k pc rd val spent).mem = s.mem := rfl

/-- R171: what the engine holds besides its registers and counters is no part of an instruction that retires. -/
theorem Engine.Retires.congr {e e' d : Engine} (h : d.Retires e' pc rd val) (minstret : d.minstret = e.minstret)
    (regs : d.regs.x = e.regs.x) (running : d.running = e.running) (grace : d.graceOver = e.graceOver) : e.Retires e' pc rd val :=
  ⟨h.pc, minstret ▸ h.minstret, regs ▸ h.rd, running ▸ h.running, grace ▸ h.grace⟩

end

end Sys2Proof.Machine
end

section
/-! SUPPORT. The tile instructions (R172 to R174): the end of each once its tile has moved, and the statement that puts them
together. -/

namespace Sys2Proof.Machine

/-! ### Tiles -/

/-- R2: a number of `n` bytes takes `n` bytes. -/
theorem leBytes_length : ∀ n v : Nat, (leBytes n v).length = n
  | 0, _ => rfl
  | n + 1, v => congrArg (· + 1) (leBytes_length n (v / 256))

/-- R16: a header takes 32 bytes. -/
theorem TileHdr.bytes_length (h : TileHdr) : h.bytes.length = 32 := by
  simp only [TileHdr.bytes, List.length_append, leBytes_length]

/-- R145: a read through a space gives as many bytes as it asks for. -/
theorem State.vread_length (s : State) (n : Nat) : ∀ (va len : Nat), (s.vread n va len).length = len
  | _, 0 => rfl
  | va, len + 1 => congrArg (· + 1) (State.vread_length s n (va + 1) len)

/-- R17: the tile in a byte string takes no more bytes than the string, which holds a header. -/
theorem tileOf_bytes_length_le {b : List Byte} (h : 32 ≤ b.length) (fallback : Nat) :
    (tileOf b fallback).bytes.length ≤ b.length := by
  have payload : (tileOf b fallback).payload.length ≤ b.length - 32 := by
    exact (List.length_take_le' _ _).trans (List.length_drop ..).le
  rw [Tile.bytes, List.length_append, TileHdr.bytes_length]
  omega

/-! ### TGET (R172) -/

section
variable {s u : State} {k slot : Nat} {x : Task}

/-- R172: bytes in memory are no part of the engines and the scheduler. -/
theorem State.setBytes_keeps_self (s : State) (a : Nat) (b : List Byte) : s.Keeps 0x10 (s.setBytes a b) :=
  State.setBytes_keeps s a b (.refl s 0x10) (.refl _)

/-- R222: the input of a task that is no library kernel is not kept. -/
theorem State.libraryInput_of_not_library (ht : s.task slot = some x) (hl : x.isLibrary = false) (tile : Tile) :
    s.libraryInput slot tile = s := by
  simp only [State.libraryInput, ht, hl, Bool.false_eq_true, if_false]

/-- R172: a tile that has arrived stands in local memory, and TGET retires with the result word. -/
theorem State.tgetEnd_arrived (h : s.Runs k slot x) (hl : x.isLibrary = false) (hi : x.input = none) (pc : Word) (rd : Fin 32)
    (c : Claim) (addr n : Nat) {r : Checked} (hr : r.outcome ≠ 3) :
    (s.engine k).Retires ((s.tgetEnd k slot pc rd c addr r n).engine k) pc rd (tileResult r.outcome r.tile.hdr.len16) ∧
      (s.tgetEnd k slot pc rd c addr r n).mem = (s.setBytes (x.lm + addr) r.tile.bytes).mem ∧
      ∃ y, (s.tgetEnd k slot pc rd c addr r n).task slot = some y ∧ y.input = none := by
  unfold State.tgetEnd
  simp -zeta only [h.task, if_neg hr]
  extract_lets e regs counted claims taken stored
  have counted_engine : counted.engine k =
      { e with regs := { e.regs with gets := KMap.modify (fun _ => 0) e.regs.gets c.port (· + 1) } } :=
    State.engine_setRegs s k _ h.running
  have stored_eq : stored = taken.setBytes (x.lm + addr) r.tile.bytes :=
    State.libraryInput_of_not_library
      ((State.task_congr ((taken.setBytes_keeps_self _ _).sch_eq rfl) slot).trans (State.task_setTask counted slot _)) hl _
  have kept := taken.setBytes_keeps_self (x.lm + addr) r.tile.bytes
  have engine : stored.engine k = counted.engine k := by
    rw [stored_eq, State.engine_congr (kept.eng_eq rfl)]
    rfl
  refine ⟨?_, ?_, ?_⟩
  · refine (State.retire_retires (slot := slot) ?_ true).congr ?_ ?_ ?_ ?_ <;> rw [engine, counted_engine]
    exact h.running
  · rw [State.retire_mem, stored_eq]
    exact State.setBytes_mem_congr _ _ rfl rfl
  · rw [State.task_congr (State.retire_sch ..), stored_eq, State.task_congr (kept.sch_eq rfl)]
    exact ⟨_, State.task_setTask counted slot _, hi⟩

end

section
variable {s u : State} {k slot rs1 imm : Nat} {x : Task} {c : Claim} {e : RingEntry}

/-- R172: a TGET without CHECK whose tile moves whole into local memory ends with it. -/
theorem State.tget_arrives (hp : imm < 16) (hn : imm < x.nd.inPorts) (ha : rs1 % 16 = 0) (hl : x.isLibrary = false)
    (hc : s.nextClaim x imm = some (c, e)) {src : Nat × Nat} (hs : s.slotVia c.qid e.addr = src)
    (stop : s.unitStop 0 src 32 false = none) {h : TileHdr} (hh : hdrOf (s.vread src.1 src.2 32) = h) (valid : h.valid = true)
    {n : Nat} (hlen : 32 + 16 * h.len16 = n) (fits : rs1 + n ≤ x.lmSize) (halted : (s.queue c.qid).halted = false)
    (moved : s.move (some src) (fun _ => 0) [(0, x.lm + rs1)] n (16 * s.unitsDone k 1 imm rs1) = (none, u)) (pc : Word)
    (rd : Fin 32) :
    s.tget k slot x pc rd rs1 imm = u.tgetEnd k slot pc rd c rs1
      { outcome := 0, tile := tileOf (u.vread src.1 src.2 n) h.len16 } (min n (x.lmSize - rs1)) := by
  have port : imm % 16 = imm := Nat.mod_eq_of_lt hp
  have check : (bits imm 4 1 == 1 || x.isLibrary) = false := by
    rw [hl, Bool.or_false, bits]
    exact beq_eq_false_iff_ne.mpr (by omega)
  have legal : ¬ (32 ≤ imm ∨ x.nd.inPorts ≤ imm) := by omega
  have space : ¬ x.lmSize < rs1 + n := by omega
  have runs_on : (u.queue c.qid).halted = false := by
    rwa [State.queue_congr ((State.move_keeps_eq (.refl s 0x5418) moved (.refl _)).hq_eq rfl)]
  have size := tileOf_bytes_length_le (b := u.vread src.1 src.2 n) (by rw [State.vread_length]; omega) h.len16
  rw [State.vread_length] at size
  have whole : ¬ x.lmSize < rs1 + (tileOf (u.vread src.1 src.2 n) h.len16).bytes.length := by omega
  subst hs hh hlen
  cases edge : u.edge? c.qid <;>
    simp only [State.tget, port, check, legal, ha, hc, stop, valid, space, fits, moved, runs_on, edge, whole, ne_eq,
      not_true_eq_false, if_true, if_false, and_false, Bool.not_true, Bool.or_self, Bool.false_eq_true]

end

/-- R172: TGET completes. -/
theorem tget_completes {eng : Fin 128} {pc rs1 : Word} {rd : Fin 32} {imm : BitVec 12} {slot : Nat} {x : Task} {s : State}
    (acts : s.Acts eng slot x) (g : ((s.libraryWork eng slot).engine eng).graceOver = false) (hl : x.isLibrary = false)
    (hi : x.input = none) {u : State} (eng_eq : u.eng = (s.libraryWork eng slot).eng)
    (sch_eq : u.sch = (s.libraryWork eng slot).sch) {c : Claim} {r : Checked} {n : Nat} (hr : r.outcome ≠ 3)
    (ends : (s.libraryWork eng slot).tget eng slot x pc rd rs1.toNat imm.toNat = u.tgetEnd eng slot pc rd c rs1.toNat r n) :
    Completes (.tget eng pc rd rs1 imm) s fun t =>
      ((s.libraryWork eng slot).engine eng).Retires (t.engine eng) pc rd (tileResult r.outcome r.tile.hdr.len16) ∧
        t.mem = (u.setBytes (x.lm + rs1.toNat) r.tile.bytes).mem := by
  obtain ⟨retires, mem, y, task, input⟩ :=
    State.tgetEnd_arrived ((acts.runs g).congr eng_eq sch_eq) hl hi pc rd c rs1.toNat n hr
  rw [State.engine_congr eng_eq] at retires
  refine ⟨_, congrArg Host.Outcome.next ((acts.onEngine _).trans ?_), retires, mem⟩
  rw [State.runTget, ends, State.libraryWork_of_no_input task input, State.afterInstr_of_grace (retires.grace.trans g)]

/-! ### TPUT (R173) -/

section
variable {s u : State} {k slot rs1 : Nat} {x : Task} {o : OutRes} {pc : Word} {rd : Fin 32}

/-- R101: the completion of reserved entries is no part of the engines and the scheduler. -/
theorem State.completeEach_keeps (s : State) (l : List (Nat × Nat)) (entry : Nat × Nat → State → RingEntry) :
    s.Keeps 0x4005118 (s.each l fun e t => t.complete e.1 e.2 (entry e t)) := by
  have within := Within.refl 0x4005118
  refine State.each_keeps _ (fun e t h => ?_) _ _ (.refl ..)
  exact State.complete_keeps t e.1 e.2 (entry e t) h within

/-- R101, R173: a put whose entries are filled retires with SEQ, and its reservation is done. -/
theorem State.tputEnd_sent (h : s.Runs k slot x) (pc : Word) (rd : Fin 32) (addr : Nat) (o : OutRes) (tile : Tile) :
    (s.engine k).Retires ((s.tputEnd k slot pc rd addr o tile).engine k) pc rd o.seq ∧
      ∃ y, (s.tputEnd k slot pc rd addr o tile).task slot = some y ∧
        y.outs = x.outs.map (fun z => if z = o then { z with done := true } else z) := by
  unfold State.tputEnd
  extract_lets completed dropped
  have kept : s.Keeps 0x4005118 dropped :=
    State.inc_keeps _ _ _ (s.completeEach_keeps o.ents fun e t => tile.entry ((t.queue e.1).slotAddr e.2))
      (Within.of (Within.refl 0x4005118) (by decide))
  clear_value dropped
  have runs := h.congr (kept.eng_eq rfl) (kept.sch_eq rfl)
  simp -zeta only [runs.task]
  extract_lets outs put stored e regs counted
  have stored_keeps := put.setBytes_keeps_self (x.lm + addr) tile.hdr.bytes
  have engine : e = s.engine k :=
    (State.engine_congr (stored_keeps.eng_eq rfl) k).trans (State.engine_congr (kept.eng_eq rfl) k)
  have running : e.running = some slot := (congrArg Engine.running engine).trans h.running
  have counted_engine :
      counted.engine k = { e with regs := { e.regs with puts := KMap.modify (fun _ => 0) e.regs.puts o.port (· + 1) } } :=
    State.engine_setRegs stored k _ running
  have counted_sch : counted.sch = put.sch := (State.setEngine_sch stored k _).trans (stored_keeps.sch_eq rfl)
  have put_task := State.task_setTask dropped slot { x with
    outs := outs, outTiles := if x.isLibrary then x.outTiles.drop 1 else x.outTiles }
  clear_value counted e
  subst engine
  constructor
  · refine (State.retire_retires (slot := slot) ?_ true).congr ?_ ?_ ?_ ?_ <;> rw [counted_engine]
    exact running
  · rw [State.task_congr (State.retire_sch ..), State.task_congr counted_sch]
    exact ⟨_, put_task, rfl⟩

/-- R173: a put whose tile has moved into its entries ends once the header's seal stands in them. -/
theorem State.tputSend_sent {tile : Tile}
    (ht : ({ hdr := x.putHeader o.seq (hdrOf (s.bytesAt (x.lm + rs1) 32)),
             payload := s.bytesAt (x.lm + rs1 + 32) (16 * (hdrOf (s.bytesAt (x.lm + rs1) 32)).len16) } : Tile).sealed = tile)
    (moved : s.move none (fun i => tile.bytes.getD i 0) (o.ents.map (fun e => s.slotVia e.1 ((s.queue e.1).slotAddr e.2)))
      tile.bytes.length (16 * s.unitsDone k 2 o.port rs1) = (none, u)) :
    ∃ (v : State) (out : Tile), s.tputSend k slot x pc rd rs1 o = v.tputEnd k slot pc rd rs1 o out ∧ v.eng = s.eng ∧
      v.sch = s.sch := by
  unfold State.tputSend
  extract_lets h tile' b dsts
  obtain rfl : tile' = tile := ht
  have moved : s.move none (fun i => b.getD i 0) dsts b.length (16 * s.unitsDone k 2 o.port rs1) = (none, u) := moved
  simp -zeta only [moved]
  extract_lets out
  have within := Within.refl 0x5418
  have kept : s.Keeps 0x5418 (u.each dsts fun d t => if out = tile' then t else t.vwrite d.1 d.2 out.hdr.bytes) := by
    refine State.each_keeps _ (fun d t h => ?_) _ _ (State.move_keeps_eq (.refl ..) moved within)
    split
    · exact h
    · exact State.vwrite_keeps t d.1 d.2 _ h (within.of (by decide))
  exact ⟨_, out, rfl, kept.eng_eq rfl, kept.sch_eq rfl⟩

/-- R173: a TPUT of a reserved entry that is not refused sends its tile. -/
theorem State.tput_reserved {imm : Nat} (hp : imm < 16) (hn : imm < x.nd.outPorts) (ha : rs1 % 16 = 0) (hl : x.isLibrary = false)
    (ho : x.nextOut imm = some o) {h : TileHdr} (hh : hdrOf (s.bytesAt (x.lm + rs1) 32) = h)
    (valid : s.putInvalid x (o.ents.map (fun e => e.1)) h = false) (fits : rs1 + 32 + 16 * h.len16 ≤ x.lmSize) :
    s.tput k slot x pc rd rs1 imm = s.tputSend k slot x pc rd rs1 o := by
  have legal : ¬ (16 ≤ imm ∨ x.nd.outPorts ≤ imm) := by omega
  have header : ¬ x.lmSize < rs1 + 32 := by omega
  have payload : ¬ x.lmSize < rs1 + 32 + 16 * h.len16 := by omega
  have output : s.libraryOutput x rs1 = s := by simp only [State.libraryOutput, hl, Bool.not_false, if_true]
  simp only [State.tput, legal, ha, header, output, hh, ho, valid, payload, ne_eq, not_true_eq_false, Bool.false_eq_true, if_false]

end

/-- R173: TPUT completes. -/
theorem tput_completes {eng : Fin 128} {pc rs1 : Word} {rd : Fin 32} {imm : BitVec 12} {slot : Nat} {x : Task} {s : State}
    (acts : s.Acts eng slot x) (g : ((s.libraryWork eng slot).engine eng).graceOver = false) {v : State}
    (eng_eq : v.eng = (s.libraryWork eng slot).eng) (sch_eq : v.sch = (s.libraryWork eng slot).sch) {o : OutRes} {out : Tile}
    (ends : (s.libraryWork eng slot).tput eng slot x pc rd rs1.toNat imm.toNat = v.tputEnd eng slot pc rd rs1.toNat o out) :
    Completes (.tput eng pc rd rs1 imm) s fun t =>
      ((s.libraryWork eng slot).engine eng).Retires (t.engine eng) pc rd o.seq ∧
        ∃ y, t.task slot = some y ∧ y.outs = x.outs.map (fun z => if z = o then { z with done := true } else z) := by
  obtain ⟨retires, done⟩ := State.tputEnd_sent ((acts.runs g).congr eng_eq sch_eq) pc rd rs1.toNat o out
  rw [State.engine_congr eng_eq] at retires
  refine ⟨_, congrArg Host.Outcome.next ((acts.onEngine _).trans ?_), retires, done⟩
  rw [State.runTput, ends, State.afterInstr_of_grace (retires.grace.trans g)]

/-! ### TCHK (R174) -/

/-- R174: a TCHK with REPORT_ONLY of a good tile retires with the result word. -/
theorem State.tchk_good {s u : State} {k slot rs1 imm n : Nat} {x : Task} {a b : Nat × Nat} (hp : imm < 32) (report : 16 ≤ imm)
    (hn : imm % 16 < x.nd.inPorts) (ha : rs1 % 16 = 0) (hr : x.reach rs1 32 = some a) (stop : s.unitStop 0 a 32 false = none)
    {h : TileHdr} (hh : hdrOf (s.vread a.1 a.2 32) = h) (hlen : 32 + (if h.valid then 16 * h.len16 else 0) = n)
    (hb : x.reach rs1 n = some b)
    (moved : s.move (some b) (fun _ => 0) [] n (16 * s.unitsDone k 3 (imm % 16) rs1) = (none, u))
    (good : verify (tileOf (u.vread b.1 b.2 n) 0) true (u.tileSeal k 3 (imm % 16) rs1 (u.vread b.1 b.2 n)) = none) (pc : Word)
    (rd : Fin 32) :
    s.tchk k slot x pc rd rs1 imm = u.retire k pc rd (tileResult 0 (tileOf (u.vread b.1 b.2 n) 0).hdr.len16) := by
  have legal : ¬ (32 ≤ imm ∨ x.nd.inPorts ≤ imm % 16) := by omega
  have flag : (bits imm 4 1 == 1) = true := by
    rw [bits]
    exact beq_iff_eq.mpr (by omega)
  unfold State.tchk
  extract_lets port report'
  have legal : ¬ (32 ≤ imm ∨ x.nd.inPorts ≤ port) := legal
  simp -zeta only [legal, ha, hr, stop, ne_eq, not_true_eq_false, if_false]
  extract_lets h' n'
  obtain rfl : h' = h := hh
  obtain rfl : n' = n := hlen
  simp -zeta only [hb, port, moved]
  extract_lets data tile comp edge
  have good : verify tile true comp = none := good
  simp -zeta only [report', flag, good, if_true]
  rfl

/-- R174: TCHK completes. -/
theorem tchk_completes {eng : Fin 128} {pc rs1 : Word} {rd : Fin 32} {imm : BitVec 12} {slot : Nat} {x : Task} {s : State}
    (acts : s.Acts eng slot x) (g : ((s.libraryWork eng slot).engine eng).graceOver = false) {u : State}
    (eng_eq : u.eng = (s.libraryWork eng slot).eng) {val : Nat}
    (ends : (s.libraryWork eng slot).tchk eng slot x pc rd rs1.toNat imm.toNat = u.retire eng pc rd val) :
    Completes (.tchk eng pc rd rs1 imm) s fun t => ((s.libraryWork eng slot).engine eng).Retires (t.engine eng) pc rd val := by
  have retires := acts.retires eng_eq pc rd val true
  refine ⟨_, congrArg Host.Outcome.next ((acts.onEngine _).trans ?_), retires⟩
  rw [State.runTchk, ends, State.afterInstr_of_grace (retires.grace.trans g)]

/-- Settles O23 (R172 to R174), instruction by instruction: each tile has moved, so its instruction retires. The result word is the
model's deduction (log entry 35). -/
theorem tileInstructionsComplete : Obligations.TileInstructionsComplete := by
  refine ⟨?_, ?_, ?_⟩
  · intro eng pc rs1 rd imm slot x c e s u acts w g hp hn ha hl hi hc src h n stop valid fits halted moved tile
    have kept := State.move_keeps_eq (.refl w 0x5418) moved (.refl _)
    obtain ⟨t, next, retires, mem⟩ := tget_completes acts g hl hi (kept.eng_eq rfl) (kept.sch_eq rfl)
      (by decide : (0 : Nat) ≠ 3) (State.tget_arrives hp hn ha hl hc rfl stop rfl valid rfl fits halted moved pc rd)
    exact ⟨t, next, retires.pc, retires.minstret, mem, retires.rd⟩
  · intro eng pc rs1 rd imm slot x o s u acts w g hp hn ha hl ho h valid fits tile moved
    obtain ⟨v, out, sent, eng_eq, sch_eq⟩ := State.tputSend_sent (slot := slot) (pc := pc) (rd := rd) rfl moved
    obtain ⟨t, next, retires, done⟩ := tput_completes acts g eng_eq sch_eq
      ((State.tput_reserved hp hn ha hl ho rfl valid fits).trans sent)
    exact ⟨t, next, retires.pc, retires.minstret, done, retires.rd⟩
  · intro eng pc rs1 rd imm slot x a b s u acts w g hp report hn ha hr stop h n hb moved data tile good
    have kept := State.move_keeps_eq (.refl w 0x5418) moved (.refl _)
    obtain ⟨t, next, retires⟩ := tchk_completes acts g (kept.eng_eq rfl)
      (State.tchk_good hp report hn ha hr stop rfl rfl hb moved good pc rd)
    exact ⟨t, next, retires.pc, retires.minstret, retires.rd⟩

end Sys2Proof.Machine
end

section
/-! SUPPORT. The queue instructions (R175, R176): QSIG and QWAIT, a PPT that goes on, and one that gives its engine away. -/

namespace Sys2Proof.Machine

/-! ### QSIG and QWAIT (R175) -/

section
variable {s : State} {k slot id n : Nat} {x : Task} {pc : Word} {rd : Fin 32}

/-- R109: a push of entries that an enabled queue has room for is accepted. -/
theorem Queue.doorbell_push {q : Queue} (en : q.state = qEnabled) (room : n ≤ q.free) : q.doorbell n true = 0 := by
  have used : ¬ qEnabled = qFree := by decide
  have fits : ¬ q.free < n := by omega
  simp only [Queue.doorbell, used, en, fits, ne_eq, not_true_eq_false, decide_false, Bool.and_false, Bool.not_true, Bool.false_and,
    Bool.false_eq_true, if_false]

/-- R109, R110: the entries pushed join COUNT. -/
theorem State.queue_swPush (en : (s.queue id).state = qEnabled) :
    (s.swPush id n).queue id = { s.queue id with
      count := (s.queue id).count + n,
      highWater := max (s.queue id).highWater ((s.queue id).count + n + (s.queue id).reserved) } := by
  unfold State.swPush
  extract_lets q idxs counted stamped
  have within := Within.refl 0x5018
  have kept : counted.Keeps 0x5018 (stamped.notify q.notify) :=
    State.notify_keeps _ _ (State.each_keeps _ (fun i t h => State.physWrite_keeps t _ _ h within) _ _ (.refl ..))
      (within.of (by decide))
  rw [State.queue_congr (kept.hq_eq rfl)]
  refine KMap.get_set_ne _ _ _ _ fun reset => ?_
  have state : (s.queue id).state = qFree := congrArg Queue.state reset
  exact absurd (en.symm.trans state) (by decide)

/-- R175: a QSIG that pushes entries an enabled queue has room for retires with COUNT less CLAIMED. -/
theorem State.qsig_push (hid : id ≠ 0xFFFF) (hn : n ≠ 0) (en : (s.queue id).state = qEnabled) (room : n ≤ (s.queue id).free) :
    s.qsig k slot x pc rd id n 0 =
      (s.swPush id n).retire k pc rd ((s.queue id).count + n - (s.queue id).claimed) := by
  have some : ¬ (id = 0xFFFF ∨ n = 0) := by omega
  have accepted := Queue.doorbell_push en room
  have rings : s.doorbell id n true = s.swPush id n := by
    simp only [State.doorbell, some, accepted, ne_eq, not_true_eq_false, if_true, if_false]
  have left : (s.swPush id n).available id = (s.queue id).count + n - (s.queue id).claimed := by
    rw [State.available, if_neg hid, State.queue_swPush en]
  simp only [State.qsig, some, accepted, rings, left, beq_self_eq_true, ne_eq, not_true_eq_false, if_false, Nat.not_lt_zero]

/-- R175: a QWAIT on an enabled queue that does not wait, or finds the entries it waits for, retires with COUNT less CLAIMED. -/
theorem State.qwait_proceeds {f : Nat} (hf : f ≤ 1) (hid : id ≠ 0xFFFF) (en : (s.queue id).state = qEnabled)
    (there : f = 1 ∨ n ≤ (s.queue id).count - (s.queue id).claimed) :
    s.qwait k slot x pc rd id n f = s.retire k pc rd ((s.queue id).count - (s.queue id).claimed) := by
  have legal : ¬ 1 < f := by omega
  have used : ¬ qEnabled = qFree := by decide
  have accepted : s.queueRefusal id = 0 := by
    simp only [State.queueRefusal, hid, used, en, ne_eq, not_true_eq_false, if_false]
  have left : s.available id = (s.queue id).count - (s.queue id).claimed := if_neg hid
  have goes : ¬ (f = 0 ∧ (s.queue id).count - (s.queue id).claimed < n) := by omega
  simp only [State.qwait, legal, accepted, left, goes, ne_eq, not_true_eq_false, if_false]

end

/-! ### Tasks that stop and start (R118, R119, R169) -/

section
variable {s t : State} {k slot c : Nat} {x y : Task} {p : Preempt}

/-- R477: an island is under test as long as maintenance holds it. -/
theorem State.underTest_congr (h : t.mnt = s.mnt) (i : Nat) : t.underTest i = s.underTest i := by
  simp only [State.underTest, State.testerOf, State.actRuns, State.bistSlot, h]

/-- R118: the preemption in progress of a task names it. -/
theorem State.preemptOf_victim (h : s.preemptOf slot = some (c, p)) : p.victim = slot := by
  obtain ⟨⟨_, v⟩, -, found⟩ := List.exists_of_findSome?_eq_some h
  cases v with
  | none => cases found
  | some v =>
    simp only at found
    split at found
    · next victim =>
      obtain ⟨rfl, rfl⟩ := Prod.mk.inj (Option.some.inj found)
      exact victim
    · cases found

/-- R119, R151: a task saved into context slot `c` stands stopped in its slot, and every other task is as before. -/
theorem State.saveTask_saved (ht : s.task slot = some x) (k c : Nat) (rec : Ctx) (st : TState) :
    (∃ z, (s.saveTask slot k c rec st).task slot = some z ∧ z.state = st ∧ z.ctx = some c) ∧
      ∀ other ≠ slot, (s.saveTask slot k c rec st).task other = s.task other := by
  unfold State.saveTask
  simp -zeta only [ht]
  extract_lets e withdrawn stopped sch clocked freed
  have tasks (n : Nat) : (freed.noteEngine k).task n = stopped.task n := by
    rw [State.task_congr (State.noteEngine_sch freed k), State.task_congr (State.setEngine_sch clocked k _)]
    exact State.task_setClock stopped _ n
  have before (n : Nat) : withdrawn.task n = s.task n :=
    (State.task_congr (State.setCtx_sch ..) n).trans (State.task_congr (State.dropPuts_sch s slot) n)
  refine ⟨⟨_, (tasks slot).trans (State.task_setTask withdrawn slot _), rfl, rfl⟩, fun other h => ?_⟩
  rw [tasks, State.task_setTask_other withdrawn _ h, before]

/-- R117: a task dispatched stands in its slot, and every other task is as before. -/
theorem State.noteDispatch_task (s : State) (slot : Nat) (x : Task) :
    (s.noteDispatch slot x).task slot = some x ∧ ∀ other ≠ slot, (s.noteDispatch slot x).task other = s.task other := by
  unfold State.noteDispatch
  extract_lets counted placed
  have before := (State.histCount_keeps s 1 x.node (s.ref - x.readyAt) (.refl s 0x8) (.refl _)).sch_eq rfl
  refine ⟨(State.task_setClock placed _ slot).trans (State.task_setTask counted slot x), fun other h => ?_⟩
  rw [State.task_setClock, State.task_setTask_other counted _ h, State.task_congr before]

/-- R169: a task started on engine `k` runs there, and every other task is as before. -/
theorem State.startTask_started (ht : s.task slot = some x) (k area : Nat) (preempted : Option Nat) :
    ((s.startTask slot k area preempted).engine k).running = some slot ∧
      (∃ z, (s.startTask slot k area preempted).task slot = some z ∧ z.state = .running ∧ z.engine = k) ∧
      ∀ other ≠ slot, (s.startTask slot k area preempted).task other = s.task other := by
  unfold State.startTask
  simp -zeta only [ht]
  extract_lets n switched kn args started dispatched e running freed
  have within := Within.refl 0x18
  have kept : freed.Keeps 0x18
      ((freed.setBytes (lmBase k area + kn.argLm) (taskBlock slot k args.length started ++ args)).noteEngine k) :=
    State.noteEngine_keeps _ k (State.setBytes_keeps freed _ _ (.refl ..) (within.of (by decide))) (within.of (by decide))
  have sch : freed.sch = dispatched.sch := (State.setFree_sch running _).trans (State.setEngine_sch dispatched k _)
  obtain ⟨placed, others⟩ := switched.noteDispatch_task slot started
  have before := (State.maybeSwitch_keeps s n.id x.firstFs (.refl s 0x88) (.refl _)).sch_eq rfl
  refine ⟨?_, ⟨started, ?_, rfl, rfl⟩, fun other h => ?_⟩
  · rw [State.engine_congr (kept.eng_eq rfl)]
    exact congrArg Engine.running (State.engine_setEngine dispatched k (slot := slot) rfl)
  · rw [State.task_congr (kept.sch_eq rfl), State.task_congr sch]
    exact placed
  · rw [State.task_congr (kept.sch_eq rfl), State.task_congr sch]
    exact (others other h).trans (State.task_congr before other)

/-- R119: a victim that stops is saved into its context slot, and the waiting task takes its engine. -/
theorem State.preemptStop_hands_over (hp : KMap.get (fun _ => none) s.sch.preempts c = some p) (hv : s.task p.victim = some x)
    (hw : s.task p.waiting = some y) (other : p.waiting ≠ p.victim) (listed : y.listed = true)
    (free : s.underTest (x.engine / 8) = false) (pc : Nat) (forced : Bool) :
    ((s.preemptStop c pc forced).engine x.engine).running = some p.waiting ∧
      (∃ z, (s.preemptStop c pc forced).task p.victim = some z ∧ z.state = .preempted ∧ z.ctx = some p.ctx) ∧
      ∃ z, (s.preemptStop c pc forced).task p.waiting = some z ∧ z.state = .running ∧ z.engine = x.engine := by
  unfold State.preemptStop
  simp -zeta only [hp, hv]
  extract_lets k marked saved sch ended
  have stands := State.task_setTask s p.victim { x with forced := x.forced || forced }
  obtain ⟨⟨z, victim, preempted, ctx⟩, others⟩ := State.saveTask_saved stands k p.ctx
    { state := 1, rclass := 1, requester := 0x100 + k, task := p.victim, node := x.node, restart := pc } .preempted
  have waiting : ended.task p.waiting = some y := (others _ other).trans ((State.task_setTask_other s _ other).trans hw)
  have mnt : ended.mnt = s.mnt :=
    (State.saveTask_keeps marked p.victim k p.ctx _ .preempted (.refl marked 0x2708) (.refl _)).mnt_eq rfl
  have takes : (y.listed && !ended.underTest (k / 8)) = true := by
    rw [State.underTest_congr mnt, listed, free]
    rfl
  simp -zeta only [waiting, takes, if_true]
  obtain ⟨running, started, rest⟩ := State.startTask_started waiting k 1 (some p.victim)
  exact ⟨running, ⟨z, (rest _ other.symm).trans victim, preempted, ctx⟩, started⟩

end

/-! ### PPT (R176) -/

section
variable {s : State} {k slot c : Nat} {x : Task} {p : Preempt}

/-- R176: a PPT without a preemption request goes on. -/
theorem State.ppt_goes_on (h : s.preemptOf slot = none) (pc : Word) : s.ppt k slot pc = s.retire k pc 0 0 false := by
  have same : (s.retire k pc 0 0 false).preemptOf slot = none := h
  simp only [State.ppt, same]

/-- R176: a PPT under a preemption request stops its task at the next instruction. -/
theorem State.ppt_stops (h : s.preemptOf slot = some (c, p)) (pc : Word) :
    s.ppt k slot pc = (s.retire k pc 0 0 false).preemptStop c ((pc.toNat + 4) % 2 ^ 32) false := by
  have same : (s.retire k pc 0 0 false).preemptOf slot = some (c, p) := h
  simp only [State.ppt, same]

end

/-- Settles O24 (R175, R176), instruction by instruction. That the task that waits takes the engine of the PPT's task is the model's
deduction (log entry 22). -/
theorem queueInstructionsComplete : Obligations.QueueInstructionsComplete := by
  refine ⟨?_, ?_, ?_, ?_⟩
  · intro eng pc rs1 rs2 rd slot x s acts w id q hid hn en room
    have retires := acts.retires ((State.swPush_keeps w id rs2.toNat (.refl w 0x5118) (.refl _)).eng_eq rfl) pc rd
      (q.count + rs2.toNat - q.claimed) true
    exact ⟨_, congrArg Host.Outcome.next ((acts.onEngine _).trans (State.qsig_push hid hn en room)), State.queue_swPush en,
      retires.pc, retires.rd⟩
  · intro eng pc rs1 rs2 rd f slot x s acts hf w id q hid en there
    have retires := acts.retires rfl pc rd (q.count - q.claimed) true
    exact ⟨_, congrArg Host.Outcome.next ((acts.onEngine _).trans (State.qwait_proceeds hf hid en there)), rfl, retires.pc,
      retires.rd⟩
  · intro eng pc slot x s acts w unasked
    have retires := acts.retires rfl pc 0 0 false
    obtain ⟨running, -⟩ := acts.running
    exact ⟨_, congrArg Host.Outcome.next ((acts.onEngine _).trans (State.ppt_goes_on unasked pc)), retires.pc,
      retires.running.trans running, rfl⟩
  · intro eng pc c slot p x y s acts w asked known engine waiting other listed free
    obtain rfl := State.preemptOf_victim asked
    obtain ⟨-, task⟩ := acts.running
    have handed := State.preemptStop_hands_over (s := w.retire eng pc 0 0 false) known task waiting other listed (engine ▸ free)
      ((pc.toNat + 4) % 2 ^ 32) false
    rw [engine] at handed
    exact ⟨_, congrArg Host.Outcome.next ((acts.onEngine _).trans (State.ppt_stops asked pc)), handed⟩

end Sys2Proof.Machine
end

section
/-! SUPPORT. The last clause of O25 fails: it takes a task that runs on an engine without its ENGINE being that engine's number
(R123), so that the task's local memory need not lie where the engines' local memories do (R129, R167). -/

namespace Sys2Proof.Machine

/-- A task that no engine was given (ENGINE 0xFF), with four bytes of code at address 0 and four bytes of local memory. -/
def strayTask : Task := { kern := { codeLen := 4, lmSize := 4 } }

/-- Engine 0 runs that task and stands at `lw x0, 0(x0)`. -/
def strayState : State :=
  { State.reset.setBytes 0 (leBytes 4 (mkI 0x03 2 0 0 0)) with
    sch := { tasks := [(0, some strayTask)] }
    eng := { engines := [(0, { running := some 0, regs := { pc := 0x20000000 } })] } }

/-- R151: the load faults, and its pc stays. -/
theorem strayState_load_faults : ((strayState.coreStep 0).engine 0).regs.pc = 0x20000000 := by decide +kernel

/-- Refutes O25: engine 0 runs a task whose ENGINE is 0xFF, so its LW reads a hole of the fabric map and faults, and its pc does
not pass it. The clause on LW lacks that the task's ENGINE is the engine it runs on. -/
theorem not_engineCommandsComplete : ¬ Obligations.EngineCommandsComplete := by
  rintro ⟨-, -, -, -, -, -, -, core⟩
  obtain ⟨-, load, -⟩ := core 0 0 strayTask 0 0 0 0 strayState (by decide) (by decide) (by decide) (by decide) (by decide)
    (by decide)
  have passed := congrArg EngRegs.pc (load (by decide) (by decide) (by decide)).1
  rw [show ((0 : Fin 128) : Nat) = 0 from rfl, strayState_load_faults] at passed
  exact absurd passed (by decide)

end Sys2Proof.Machine
end

section
/-! SUPPORT. The registers that a tile on its way to its queues touches (R97 to R110): none of them is of the sensor link block. -/

namespace Sys2Proof.Machine

/-- The registers outside the sensor link block. -/
def beyondSlk (off : Nat) : Prop := off / 0x40000 ≠ 0x10

section
variable (s : State)

/-- R110: a notification sets an MSI-X pending bit or a bit of CUX_QIRQ_PEND. -/
theorem State.notify_regs (n : Nat) : s.RegsOnly beyondSlk (s.notify n) := by
  have vector : bits n 0 11 < 2 ^ 11 := Nat.mod_lt _ (by decide)
  unfold State.notify
  extract_lets v
  have small : v < 2 ^ 11 := vector
  clear_value v
  split
  · exact .refl _ s
  split
  · refine (State.RegsOnly.refl _ s).wr _ _ ?_
    show (0x1C * 0x40000 + 0x18000 + 4 * (v / 32)) / 0x40000 ≠ 0x10
    omega
  · refine (State.RegsOnly.refl _ s).wr _ _ ?_
    show (0x100400 + 0x4 * (v / 32)) / 0x40000 ≠ 0x10
    omega

/-- R127: there are twenty bins of waits. -/
theorem histBin_lt (w : Nat) : histBin w < 20 := by
  unfold histBin
  split <;> omega

/-- R127: a counted wait touches the monitors of the SCH block. -/
theorem State.histCount_regs (src id w : Nat) : s.RegsOnly beyondSlk (s.histCount src id w) := by
  refine State.RegsOnly.each (fun m hm t h => ?_) (.refl _ s)
  have bin := histBin_lt w
  have monitor := List.mem_range.mp hm
  split
  · refine h.wr _ _ ?_
    show (0x2c0200 + 0x80 * m + 0x4 * histBin w) / 0x40000 ≠ 0x10
    omega
  · exact h

/-- R443: demand for an island touches the PWR block. -/
theorem State.islandDemand_regs {n : Nat} (hn : n < 32) : s.RegsOnly beyondSlk (s.islandDemand n) := by
  have state : beyondSlk (F.PWR_ISL_STATE n).off := by
    show (0x80100 + 0x4 * n) / 0x40000 ≠ 0x10
    omega
  have wakes : beyondSlk (F.PWR_ISL_WAKES_COUNT n).off := by
    show (0x80200 + 0x4 * n) / 0x40000 ≠ 0x10
    omega
  have woken : s.RegsOnly beyondSlk (s.islandOn n 1) := ((State.RegsOnly.refl _ s).wr _ _ state).regs rfl
  unfold State.islandDemand
  split
  · exact .refl _ s
  split
  · exact woken.wr _ _ wakes
  · exact State.RegsOnly.regs (.refl _ s) rfl
  · exact (State.RegsOnly.refl _ s).wr _ _ state
  · exact .refl _ s

/-- R444: the island that a committed entry demands is DEC0 or a head. -/
theorem Node.queueIsland_lt {n : Node} {i : Nat} (h : n.queueIsland = some i) : i < 32 := by
  unfold Node.queueIsland at h
  split at h
  · cases h
    decide
  split at h
  · cases h
    omega
  · cases h

/-- R108: a committed entry demands its consumer's island. -/
theorem State.commitDemand_regs (q : Nat) : s.RegsOnly beyondSlk (s.commitDemand q) := by
  unfold State.commitDemand
  split
  · exact .refl _ s
  split
  · exact .refl _ s
  split
  · exact .refl _ s
  · exact s.islandDemand_regs (Node.queueIsland_lt (by assumption))

/-- R105: a popped entry's wait is counted. -/
theorem State.pop_regs (q i : Nat) : s.RegsOnly beyondSlk (s.pop q i) := by
  unfold State.pop
  extract_lets d e t
  split
  · exact .refl _ s
  · exact State.RegsOnly.regs (s.histCount_regs _ _ _) rfl

/-- R102: a void entry of an engine's queue is popped. -/
theorem State.popVoid_regs (q i : Nat) : s.RegsOnly beyondSlk (s.popVoid q i) := by
  unfold State.popVoid
  extract_lets d
  split
  · exact s.pop_regs q i
  · exact .refl _ s

/-- A write of the fabric map touches no register of the sensor link block. -/
theorem State.physWrite_beyondSlk (a : Nat) (b : List Byte) : s.RegsOnly beyondSlk (s.physWrite a b) :=
  (s.physWrite_regs a b).mono fun off h => by
    have drop : F.HIF_OB_DROP_COUNT.off / 0x40000 = 0x1C := rfl
    rcases h with h | h | h
    · unfold beyondSlk
      omega
    · rw [h, beyondSlk, drop]
      decide
    · unfold pendingBits at h
      unfold beyondSlk
      omega

/-- R101: the commit of a queue's complete entries. -/
theorem State.commit_regs (q : Nat) : s.RegsOnly beyondSlk (s.commit q) := by
  unfold State.commit
  extract_lets d n idxs committed stamped notified popped
  split
  · exact .refl _ s
  · have taken : s.RegsOnly beyondSlk committed := State.RegsOnly.regs (.refl _ s) rfl
    have stamps : s.RegsOnly beyondSlk stamped :=
      State.RegsOnly.each (fun i _ t h => h.trans (t.physWrite_beyondSlk _ _)) taken
    have pops : s.RegsOnly beyondSlk popped :=
      State.RegsOnly.each (fun i _ t h => h.trans (t.popVoid_regs q i)) (stamps.trans (stamped.notify_regs _))
    exact pops.trans (popped.commitDemand_regs q)

/-- R101: a reserved entry is completed. -/
theorem State.complete_regs (q i : Nat) (e : RingEntry) : s.RegsOnly beyondSlk (s.complete q i e) := by
  unfold State.complete
  extract_lets d t
  have written : s.RegsOnly beyondSlk t := s.physWrite_beyondSlk _ _
  exact (written.regs (t := t.setQueue q { d with done := d.done ++ [i] }) rfl).trans (State.commit_regs _ q)

/-- R103: a tile fills its entry. -/
theorem State.fillEntry_regs (q i : Nat) (x : Tile) : s.RegsOnly beyondSlk (s.fillEntry q i x) :=
  (State.RegsOnly.regs (.refl _ s) (State.setBytes_keeps s _ _ (.refl s 0x10) (.refl _)).regs_eq).trans (State.complete_regs _ _ _ _)

/-- R103: a tile enters queues with room. -/
theorem State.putTile_regs (l : List Nat) (x : Tile) : s.RegsOnly beyondSlk (s.putTile l x) := by
  unfold State.putTile
  extract_lets r y
  refine State.RegsOnly.each (fun q _ t h => ?_) (State.RegsOnly.regs (.refl _ s) rfl)
  exact (h.regs (t := (t.reserve q 1).2) rfl).trans (State.fillEntry_regs _ _ _ _)

/-- R107: an omitted tile is counted and reported. -/
theorem State.sourceOmit_regs (q : Nat) : s.RegsOnly beyondSlk (s.sourceOmit q) := by
  unfold State.sourceOmit
  extract_lets t u
  have marked : s.RegsOnly beyondSlk u := State.RegsOnly.regs (.refl _ s) rfl
  refine ((marked.wr _ _ ?_).wr _ _ ?_).trans (State.irqAlways_regs _ _ ?_ fun off h => ?_)
  · exact (by decide : 0x280040 / 0x40000 ≠ 0x10)
  · exact (by decide : 0x280000 / 0x40000 ≠ 0x10)
  · exact (by decide : 0x280000 / 0x40000 ≠ 0x10)
  · unfold pendingBits at h
    unfold beyondSlk
    omega

/-- R107: a source's tile is put or omitted. -/
theorem State.putSource_regs (l : List Nat) (x : Tile) : s.RegsOnly beyondSlk (s.putSource l x) := by
  unfold State.putSource
  extract_lets yes no omitted marked
  have omits : s.RegsOnly beyondSlk omitted := State.RegsOnly.each (fun q _ t h => h.trans (t.sourceOmit_regs q)) (.refl _ s)
  have marks : s.RegsOnly beyondSlk marked :=
    State.RegsOnly.each (fun q _ t h => h.regs (t := t.setQueue q { t.queue q with srcOmit := false }) rfl) omits
  split
  · exact marks
  · exact marks.trans (marked.putTile_regs yes x)

/-- R107: the tiles that waited leave. -/
theorem State.sourceDrain_regs (l : List Nat) : ∀ (ts : List Tile) (s : State), s.RegsOnly beyondSlk (s.sourceDrain l ts).2
  | [], s => .refl _ s
  | x :: ts, s => by
    unfold State.sourceDrain
    split
    · exact (s.putSource_regs l x).trans (State.sourceDrain_regs l ts _)
    · exact .refl _ s

/-- R107: a tile enters a source's elastic buffer. -/
theorem State.sourcePush_regs (l : List Nat) (cap : Nat) (ts : List Tile) (x : Tile) :
    s.RegsOnly beyondSlk (s.sourcePush l cap ts x).2 := by
  have drained := State.sourceDrain_regs l (ts ++ [x]) s
  unfold State.sourcePush
  extract_lets r
  split
  · exact drained
  split
  · exact drained
  · exact (drained.trans (State.putSource_regs _ _ _)).trans (State.sourceDrain_regs _ _ _)

end

end Sys2Proof.Machine
end

section
/-! SUPPORT. Lane groups and their registers: what a group is after each shared operation, and what a field of the sensor link
block reads. -/

namespace Sys2Proof.Machine

/-! ### Lane groups -/

/-- Lane groups outside the mask. -/
theorem State.Keeps.slk_eq {s t : State} {m : Nat} (h : s.Keeps m t) (w : m.testBit 18 = false) : t.slk = s.slk :=
  h.frame .slk w

/-- Intakes outside the mask. -/
theorem State.Keeps.intakes_eq {s t : State} {m : Nat} (h : s.Keeps m t) (w : m.testBit 19 = false) : t.intakes = s.intakes :=
  h.frame .intakes w

section
variable {s t : State} {g : Nat} {v : SlkGroup}

/-- A group is the same where the lane groups are. -/
theorem State.grp_congr (h : t.slk = s.slk) (g : Nat) : t.grp g = s.grp g := by rw [State.grp, h, State.grp]

/-- A group just replaced by one that is not as after reset. -/
theorem State.grp_setGrp (s : State) (g : Nat) (hv : v ≠ {}) : (s.setGrp g v).grp g = v := KMap.get_set_ne _ _ _ _ hv

/-- A group whose DESKEW column is remembered is not as after reset. -/
theorem SlkGroup.ne_reset_of_skews {l : List Nat} (h : v.skews = some l) : v ≠ {} :=
  fun e => absurd (h.symm.trans (congrArg SlkGroup.skews e)) nofun

/-- A group with a receiver that is not as after reset is not so either. -/
theorem SlkGroup.ne_reset_of_lanes (h : v.lanes ≠ []) : v ≠ {} := fun e => h (congrArg SlkGroup.lanes e)

/-- A replaced lane group carries the invariant over. -/
theorem State.setGrp_inv (i : s.Inv) (g : Nat) (v : SlkGroup) : (s.setGrp g v).Inv := ⟨i.mem, i.regs, i.disc⟩

/-- A field write leaves the lane groups. -/
@[simp] theorem State.wr_slk (s : State) (f : Fld) (v : Nat) : (s.wr f v).slk = s.slk :=
  (State.wr_keeps s f v (.refl s 0x8) (.refl _)).slk_eq rfl

end

/-! ### Registers -/

/-- Two fields that stand apart in the rows of one table, or in one register of it. -/
theorem Fld.apart_row {a b o l w l' w' : Nat} (h : (b != a || (l' + w').ble l || (l + w).ble l') = true) :
    Fld.Apart ⟨a + o, l, w⟩ ⟨b + o, l', w'⟩ := by
  simp only [Bool.or_eq_true, bne_iff_ne, Nat.ble_eq, or_assoc] at h
  exact h.imp_left fun h e => h (Nat.add_right_cancel e)

/-- R215: a register of a lane group comes before the lanes' registers. -/
theorem group_lt {a g : Nat} (hg : g < 4) (ha : a.ble 0x4000ff = true) : a + 0x100 * g < 0x400400 := by
  rw [Nat.ble_eq] at ha
  omega

/-- R215: a register of a lane group is none of discovery's. -/
theorem isDiscovery_group {a g : Nat} (hg : g < 4) (ha : a.ble 0x4000ff = true) : isDiscovery (a + 0x100 * g) = false := by
  have below := group_lt hg ha
  rw [isDiscovery, Bool.and_eq_false_iff, decide_eq_false_iff_not]
  omega

/-- R216: a register of a lane is none of discovery's. -/
theorem isDiscovery_lane {a l : Nat} (hl : l < 36) (ha : a.ble 0x40080f = true) : isDiscovery (a + 0x10 * l) = false := by
  rw [Nat.ble_eq] at ha
  rw [isDiscovery, Bool.and_eq_false_iff, decide_eq_false_iff_not]
  omega

/-- R215, R216: neither a mirror record nor an interrupt touches a register of the sensor link block. -/
theorem steady_slk {off lo w : Nat} (h : 0x400000 ≤ off) (h' : off < 0x440000) : Fld.Steady ⟨off, lo, w⟩ := by
  constructor
  · show off / 0x40000 ≠ 4
    omega
  · exact lt_trans h' (by decide)

/-- R215, R216: a lane's field stands apart from a group's. -/
theorem apart_group_lane {a b g k l w l' w' : Nat} (hg : g < 4) (ha : a.ble 0x4000ff = true) (hb : Nat.ble 0x400800 b = true) :
    Fld.Apart ⟨a + 0x100 * g, l, w⟩ ⟨b + 0x10 * k, l', w'⟩ := by
  have below := group_lt hg ha
  rw [Nat.ble_eq] at hb
  exact .inl (by dsimp only; omega)

/-- R215, R216: a group's field stands apart from a lane's. -/
theorem apart_lane_group {a b g k l w l' w' : Nat} (hg : g < 4) (ha : a.ble 0x4000ff = true) (hb : Nat.ble 0x400800 b = true) :
    Fld.Apart ⟨b + 0x10 * k, l', w'⟩ ⟨a + 0x100 * g, l, w⟩ := by
  have below := group_lt hg ha
  rw [Nat.ble_eq] at hb
  exact .inl (by dsimp only; omega)

section
variable {s : State} {f : Fld} {x g : Nat}

/-- A lane group is no register. -/
theorem State.Reads.setGrp (h : s.Reads f x) (g : Nat) (v : SlkGroup) : (s.setGrp g v).Reads f x :=
  ⟨State.setGrp_inv h.inv g v, h.eq⟩

/-- R217: a group's status. -/
theorem State.Reads.grpStatus (h : s.Reads f x) (g code : Nat) (a : (F.SLK_G_STATUS_STATUS g).Apart f) :
    (s.grpStatus g code).Reads f x :=
  h.wr _ _ a

/-- R215: an event of a group. -/
theorem State.Reads.grpFlag (h : s.Reads f x) (g bit : Nat) (p : f.off < 0x718000)
    (a : Fld.Apart ⟨(F.SLK_G_STATUS_STATUS g).off, bit, 1⟩ f) : (s.grpFlag g bit).Reads f x :=
  h.irq _ _ _ a p

/-- R215: an event of a group sets its flag. -/
theorem State.Reads.flagged (i : s.Inv) (hg : g < 4) (bit : Nat) (hb : bit < 32) :
    (s.grpFlag g bit).Reads ⟨(F.SLK_G_STATUS_STATUS g).off, bit, 1⟩ 1 :=
  State.Reads.raised i 0x10 ⟨(F.SLK_G_STATUS_STATUS g).off, bit, 1⟩ _ (isDiscovery_group hg rfl) hb
    (lt_trans (group_lt hg rfl) (by decide))

/-- R215: a change of GSTATE leaves what stands apart from it and from LINK_IRQ. -/
theorem State.Reads.setGstate (h : s.Reads f x) (g st : Nat) (p : f.off < 0x718000) (a : (F.SLK_G_STATUS_GSTATE g).Apart f)
    (b : Fld.Apart ⟨(F.SLK_G_STATUS_STATUS g).off, 3, 1⟩ f) : (s.setGstate g st).Reads f x := by
  have written := h.wr (F.SLK_G_STATUS_GSTATE g) st a
  unfold State.setGstate
  extract_lets old t
  split
  · exact written.grpFlag g 3 p b
  · exact written

/-- R215: GSTATE reads the state entered. -/
theorem State.Reads.entered (i : s.Inv) (hg : g < 4) {st : Nat} (hs : st < 8) :
    (s.setGstate g st).Reads (F.SLK_G_STATUS_GSTATE g) st := by
  have written := State.Reads.written i (F.SLK_G_STATUS_GSTATE g) st (isDiscovery_group hg rfl) (Nat.le_of_ble_eq_true rfl)
  rw [Nat.mod_eq_of_lt (show st < 2 ^ (F.SLK_G_STATUS_GSTATE g).w from hs)] at written
  unfold State.setGstate
  extract_lets old t
  split
  · exact written.grpFlag g 3 (lt_trans (group_lt hg rfl) (by decide)) (Fld.apart_row rfl)
  · exact written

/-- R215: entering or leaving LINK_UP sets LINK_IRQ. -/
theorem State.Reads.linkFlagged (i : s.Inv) (hg : g < 4) {st : Nat} (hs : s.gstate g ≠ st) (up : s.gstate g = 3 ∨ st = 3) :
    (s.setGstate g st).Reads ⟨(F.SLK_G_STATUS_STATUS g).off, 3, 1⟩ 1 := by
  have flag : s.setGstate g st = (s.wr (F.SLK_G_STATUS_GSTATE g) st).grpFlag g 3 := if_pos ⟨hs, up⟩
  rw [flag]
  exact State.Reads.flagged (State.wr_inv i _ _) hg 3 (by decide)

/-- A state that reads a field, from the invariant and what it reads. -/
theorem State.Reads.self (i : s.Inv) (f : Fld) : s.Reads f (s.rd f) := ⟨i, rfl⟩

end

/-! ### Lane states -/

/-- R216: the status registers of the lanes. -/
def laneStatusRegs (off : Nat) : Prop := 0x400800 ≤ off ∧ off < 0x440000 ∧ off % 16 = 0

section
variable (s : State) (g st : Nat)

/-- R193: a fall of a group's lanes touches the lanes' status registers. -/
theorem State.lanesTo_regs (hg : g < 4) : s.RegsOnly laneStatusRegs (s.lanesTo g st) := by
  refine State.RegsOnly.each (fun l hl t h => h.wr _ _ ?_) (.refl _ s)
  obtain ⟨p, hp, rfl⟩ := List.mem_map.mp hl
  have position := List.mem_range.mp hp
  show 0x400800 ≤ 0x400800 + 0x10 * (9 * g + p) ∧ 0x400800 + 0x10 * (9 * g + p) < 0x440000 ∧
    (0x400800 + 0x10 * (9 * g + p)) % 16 = 0
  omega

/-- R193: a fall of a group's lanes carries the invariant over. -/
theorem State.lanesTo_inv {s : State} (i : s.Inv) : (s.lanesTo g st).Inv :=
  (State.lanesTo_keeps s g st (.refl s 0x8) (.refl _)).inv i

/-- R193: what no lane's register holds reads as before a fall of the group's lanes. -/
theorem State.Reads.lanesTo {s : State} {f : Fld} {x : Nat} (h : s.Reads f x) (g st : Nat) (hg : g < 4) (hf : f.off < 0x400800) :
    (s.lanesTo g st).Reads f x :=
  ⟨State.lanesTo_inv g st h.inv,
    ((s.lanesTo_regs g st hg).rd f fun q => absurd q.1 (Nat.not_le.mpr hf)).trans h.eq⟩

/-- R193: lanes that fall to OFF are there. -/
theorem State.rd_lanesTo_off {s : State} (i : s.Inv) {g p : Nat} (hg : g < 4) (hp : p < 9) :
    (s.lanesTo g 0).rd (F.SLK_L_STATUS_LSTATE (9 * g + p)) = 0 := by
  have zero : s.lanesTo g 0 =
      s.each ((List.range 9).map fun p => 9 * g + p) fun l s => s.wr (F.SLK_L_STATUS_LSTATE l) 0 := by
    simp only [State.lanesTo, Nat.zero_min]
  have registers : ((List.range 9).map fun p => 9 * g + p).map (fun l => (F.SLK_L_STATUS_LSTATE l).off) =
      (List.range 9).map fun p => 0x400800 + 0x10 * (9 * g + p) := List.map_map
  rw [zero]
  refine (State.rd_each_wr i F.SLK_L_STATUS_LSTATE (fun _ => 0) ?_ ?_ _
    (List.mem_map_of_mem (List.mem_range.mpr hp))).trans (Nat.zero_mod _)
  · rw [registers]
    exact List.nodup_range.map fun a b h => by omega
  · intro l hl
    obtain ⟨q, hq, rfl⟩ := List.mem_map.mp hl
    have position := List.mem_range.mp hq
    exact ⟨isDiscovery_lane (by omega) rfl, Nat.le_of_ble_eq_true rfl⟩

end

end Sys2Proof.Machine
end

section
/-! SUPPORT. The frames of an intake as their tiles leave (R201 to R205): the newest frame keeps what ended it, and no register of a lane
changes. -/

namespace Sys2Proof.Machine

/-! ### The newest frame -/

/-- R202, R203: the frame is complete, or group `g` left LINK_UP during it. -/
def IFrame.EndedFor (g : Nat) (f : IFrame) : Prop := f.complete = true ∨ g ∈ f.left

/-- R202, R203: the newest of these frames is complete, or group `g` left LINK_UP during it. -/
def NewestEnded (g : Nat) (l : List IFrame) : Prop := ∃ e, l.getLast? = some e ∧ e.EndedFor g

section
variable {g : Nat} {f e : IFrame} {l : List IFrame}

/-- Another frame behind the newest one is nothing to it. -/
theorem NewestEnded.tail (h : NewestEnded g (f :: l)) (hl : l ≠ []) : NewestEnded g l := by
  obtain ⟨e, last, ended⟩ := h
  exact ⟨e, by rwa [List.getLast?_cons_of_ne_nil hl] at last, ended⟩

/-- The oldest frame may become another that has ended as it has. -/
theorem NewestEnded.head (h : NewestEnded g (f :: l)) (he : f.EndedFor g → e.EndedFor g) : NewestEnded g (e :: l) := by
  obtain ⟨x, last, ended⟩ := h
  cases l with
  | nil =>
    obtain rfl : f = x := Option.some.inj last
    exact ⟨e, rfl, he ended⟩
  | cons a l => exact ⟨x, last, ended⟩

/-- The frames may all become others that have ended as they have. -/
theorem NewestEnded.map {c : IFrame → IFrame} (h : NewestEnded g l) (hc : ∀ f, f.EndedFor g → (c f).EndedFor g) :
    NewestEnded g (l.map c) := by
  obtain ⟨e, last, ended⟩ := h
  exact ⟨c e, by rw [List.getLast?_map, last]; rfl, hc e ended⟩

/-- A frame that has ended, put last. -/
theorem NewestEnded.append (l : List IFrame) (he : e.EndedFor g) : NewestEnded g (l ++ [e]) :=
  ⟨e, List.getLast?_concat, he⟩

/-- There is a newest frame. -/
theorem NewestEnded.ne_nil (h : NewestEnded g l) : l ≠ [] := by
  rintro rfl
  obtain ⟨e, last, -⟩ := h
  cases last

end

/-! ### The tiles of an intake -/

/-- R202, R203: the newest frame of intake `id` is complete, or group `g` left LINK_UP during it. -/
def State.IntakeEnded (s : State) (id g : Nat) : Prop := NewestEnded g (s.intake id).frames

/-- The registers outside the sensor link block, and those of the lane groups. -/
def intakeRegs (off : Nat) : Prop := beyondSlk off ∨ off < 0x400400

/-- From `s` to `t` tiles of intake `n` leave: its newest frame keeps what ended it for group `g`, and no register of a lane changes. -/
structure State.Emits (n : Node) (g : Nat) (s t : State) : Prop where
  /-- The registers. -/
  regs : s.RegsOnly intakeRegs t
  /-- The newest frame. -/
  ended : s.IntakeEnded n.id g → t.IntakeEnded n.id g

section
variable {s t u : State} {n : Node} {g : Nat}

/-- An intake is the same where the intakes are. -/
theorem State.intake_congr (h : t.intakes = s.intakes) (id : Nat) : t.intake id = s.intake id := by
  rw [State.intake, h, State.intake]

/-- An intake just replaced by one with frames. -/
theorem State.intake_setIntake (s : State) (id : Nat) {i : Intake} (hi : i.frames ≠ []) : (s.setIntake id i).intake id = i :=
  KMap.get_set_ne _ _ _ _ fun e => hi (congrArg Intake.frames e)

/-- Nothing leaves. -/
theorem State.Emits.refl (s : State) : s.Emits n g s := ⟨.refl _ s, id⟩

/-- Some tiles leave, and then others. -/
theorem State.Emits.trans (h : s.Emits n g t) (k : t.Emits n g u) : s.Emits n g u :=
  ⟨h.regs.trans k.regs, fun e => k.ended (h.ended e)⟩

/-- What leaves the intakes. -/
theorem State.Emits.beside (h : s.RegsOnly intakeRegs t) (e : t.intakes = s.intakes) : s.Emits n g t :=
  ⟨h, fun k => by rwa [State.IntakeEnded, State.intake_congr e]⟩

/-- The intake is replaced by one whose newest frame has ended as its own. -/
theorem State.Emits.put (s : State) {i : Intake} (h : s.IntakeEnded n.id g → NewestEnded g i.frames) :
    s.Emits n g (s.setIntake n.id i) :=
  ⟨State.RegsOnly.regs (.refl _ s) rfl, fun e => by
    rw [State.IntakeEnded, State.intake_setIntake s n.id (h e).ne_nil]
    exact h e⟩

/-- R107: tiles enter their queues. -/
theorem State.Emits.sent (h : s.RegsOnly beyondSlk t) (e : t.intakes = s.intakes) : s.Emits n g t :=
  .beside (h.mono fun _ => .inl) e

/-- R90: RETIRE_FORCE changes the tables of the frames. -/
theorem State.intakeForced_emits (s : State) : s.Emits n g (s.intakeForced n) := by
  unfold State.intakeForced
  extract_lets u i
  split
  · have same : u.intakes = s.intakes := (State.switchNode_keeps s n.id (.refl s 0x88) (.refl _)).intakes_eq rfl
    have switched : s.RegsOnly beyondSlk u := by
      unfold u State.switchNode
      extract_lets r
      split
      · split
        · have emptied : s.RegsOnly beyondSlk
              (s.setStr { s.str with retiring := [], oldTables := [], forceRetire := false }) :=
            State.RegsOnly.regs (.refl _ s) rfl
          exact emptied.wr F.STR_STATUS_SHADOW_STATE 0 (by unfold beyondSlk; decide)
        · exact State.RegsOnly.regs (.refl _ s) rfl
      · exact .refl _ s
    exact (State.Emits.sent switched same).trans (.put u fun e => e.map fun _ ended => ended)
  · exact .refl s

/-- A frame that is done makes way for the next one. -/
theorem State.dropDone_emits (s : State) : s.Emits n g (s.dropDone n) := by
  unfold State.dropDone
  extract_lets i
  split
  next f e rest frames =>
    split
    · refine .put s fun h => ?_
      have ended : NewestEnded g (f :: e :: rest) := frames ▸ h
      exact ended.tail (List.cons_ne_nil e rest)
    · exact .refl s
  · exact .refl s

/-- The oldest frame of an intake is replaced. -/
theorem Intake.setHead_frames {i : Intake} {f e : IFrame} {l : List IFrame} (h : i.frames = f :: l) :
    (i.setHead e).frames = e :: l := by
  rw [Intake.setHead, h]

/-- R51: an intake claims lane groups 0 to 3. -/
theorem Node.groups_lt {k : Nat} (h : k ∈ n.groups) : k < 4 := List.mem_range.mp (List.mem_filter.mp h).1

/-- R201: the next tile leaves. -/
theorem State.emitTile_emits (s : State) : s.Emits n g (s.emitTile n) := by
  unfold State.emitTile
  extract_lets u
  have forced : s.Emits n g u := s.intakeForced_emits
  clear_value u
  split
  · exact forced
  next f rest frames =>
    extract_lets p r c counted sent i
    have counts : u.RegsOnly intakeRegs counted ∧ counted.intakes = u.intakes := by
      have within := Within.refl 0x8
      unfold counted
      split
      · exact ⟨State.RegsOnly.each
            (fun k hk t h => State.RegsOnly.wr h _ _ (.inr (group_lt (Node.groups_lt hk) rfl))) (.refl _ u),
          (State.each_keeps _ (fun k t h => State.inc_keeps t _ _ h within) _ _ (.refl _ _)).intakes_eq rfl⟩
      · exact ⟨.refl _ u, rfl⟩
    obtain ⟨counts, same⟩ := counts
    have sends : counted.RegsOnly beyondSlk sent := State.putSource_regs _ _ _
    have same : sent.intakes = u.intakes :=
      ((State.putSource_keeps _ _ _ (.refl _ 0x4005118) (.refl _)).intakes_eq rfl).trans same
    have head : i.frames = f :: rest := (congrArg Intake.frames (State.intake_congr same n.id)).trans frames
    clear_value sent
    refine (forced.trans (.beside (counts.trans (sends.mono fun _ => .inl)) same)).trans ?_
    have ended (h : sent.IntakeEnded n.id g) : NewestEnded g (f :: rest) := head ▸ h
    split
    · refine .put sent fun h => ?_
      rw [Intake.setHead_frames head]
      exact (ended h).head id
    split
    next more =>
      obtain ⟨-, -, more⟩ := more
      exact .put sent fun h => (ended h).tail fun e => by simp [e] at more
    · refine .put sent fun h => ?_
      rw [Intake.setHead_frames head]
      exact (ended h).head id

/-- R201: the tiles of ready rows leave. -/
theorem State.emitTiles_emits (n : Node) : ∀ (fuel : Nat) (s : State), s.Emits n g (s.emitTiles n fuel)
  | 0, s => .refl s
  | fuel + 1, s => by
    unfold State.emitTiles
    extract_lets u
    have dropped : s.Emits n g u := s.dropDone_emits
    split
    · exact (dropped.trans u.emitTile_emits).trans (State.emitTiles_emits n fuel _)
    · exact dropped

/-- R205: META tiles that waited leave. -/
theorem State.metaDrain_emits (s : State) : s.Emits n g (s.metaDrain n) := by
  unfold State.metaDrain
  extract_lets r
  have same : r.2.intakes = s.intakes := (State.sourceDrain_keeps s _ _ (.refl s 0x4005118) (.refl _)).intakes_eq rfl
  refine (State.Emits.sent (State.sourceDrain_regs _ _ s) same).trans (.put r.2 fun h => ?_)
  rwa [State.IntakeEnded, State.intake_congr same] at h

/-- R201, R205: everything that may leaves. -/
theorem State.emitReady_emits (s : State) : s.Emits n g (s.emitReady n) :=
  s.metaDrain_emits.trans (State.emitTiles_emits n _ _)

/-- R205: a META tile enters the intake's elastic buffer. -/
theorem State.pushMeta_emits (s : State) (x : Tile) : s.Emits n g (s.pushMeta n x) := by
  unfold State.pushMeta
  extract_lets r
  have same : r.2.intakes = s.intakes := (State.sourcePush_keeps s _ _ _ _ (.refl s 0x4005118) (.refl _)).intakes_eq rfl
  refine (State.Emits.sent (State.sourcePush_regs _ _ _ _ _) same).trans (.put r.2 fun h => ?_)
  rwa [State.IntakeEnded, State.intake_congr same] at h

/-- R205: the frame's last META tile. -/
theorem State.endMeta_emits (s : State) (f : IFrame) : s.Emits n g (s.endMeta n f) := by
  unfold State.endMeta
  split
  · exact .refl s
  · exact s.pushMeta_emits _

/-- R202: the newest frame completes. -/
theorem State.completeFrame_emits (s : State) : s.Emits n g (s.completeFrame n) := by
  unfold State.completeFrame
  extract_lets i
  split
  · exact .refl s
  split
  · exact .refl s
  · extract_lets u j t
    have completed : u.Emits n g t := .put u fun _ => .append _ (.inl rfl)
    exact ((s.endMeta_emits _).trans completed).trans t.emitReady_emits

/-- R202: the newest frame completes once FE has arrived, and ready rows leave. -/
theorem State.afterFe_emits (s : State) : s.Emits n g (s.afterFe n) := by
  unfold State.afterFe
  extract_lets done t
  have completed : s.Emits n g t := by
    unfold t
    split
    · exact s.completeFrame_emits
    · exact .refl s
  exact completed.trans t.emitReady_emits

/-- R203: group `g` leaves LINK_UP during the newest frame. -/
theorem State.onFrame_ended {f : IFrame} (hf : (s.intake n.id).frames.getLast? = some f) {c : IFrame → IFrame}
    (hc : (c f).EndedFor g) : (s.onFrame n c).IntakeEnded n.id g := by
  have changed : s.onFrame n c =
      s.setIntake n.id { s.intake n.id with frames := (s.intake n.id).frames.dropLast ++ [c f] } := by
    simp only [State.onFrame, hf]
  have last := NewestEnded.append (g := g) (s.intake n.id).frames.dropLast hc
  rw [changed, State.IntakeEnded, State.intake_setIntake s n.id last.ne_nil]
  exact last

/-- R202: a change of the newest frame is no register's. -/
theorem State.onFrame_regs (s : State) (n : Node) (c : IFrame → IFrame) : (s.onFrame n c).regs = s.regs :=
  (State.onFrame_keeps s n c (.refl s 0x80000) (.refl _)).regs_eq

end

end Sys2Proof.Machine
end

section
/-! SUPPORT. A group that leaves LINK_UP (R203): what is reported, and what its intake's newest frame becomes. -/

namespace Sys2Proof.Machine

/-- R203: what a group in LINK_UP that underruns reports, and what its receiver forgets. -/
def State.linkLost (s : State) (g : Nat) : State :=
  let u := ((((s.inc (F.SLK_G_UNDERRUN_COUNT g)).grpFlag g 4).grpStatus g 0x1001).grpStatus g 0x1002).setGstate g 4
  u.setGrp g { u.grp g with seenFs := false, pseq := none, skews := none, failSaid := false }

/-- R203: a frame in progress has lost group `g`. -/
def IFrame.leftBy (g : Nat) (f : IFrame) : IFrame := if f.complete then f else { f with left := f.left ++ [g] }

/-- R203: a frame has ended for the group that it has lost. -/
theorem IFrame.leftBy_ended (g : Nat) (f : IFrame) : (f.leftBy g).EndedFor g := by
  unfold IFrame.leftBy
  split
  · exact .inl (by assumption)
  · exact .inr (List.mem_append_right _ (List.mem_singleton_self g))

section
variable {s t : State} {g : Nat}

/-- R51: the intake of a group is of the image. -/
theorem State.intakeOf_congr (h : t.str = s.str) (g : Nat) : t.intakeOf g = s.intakeOf g := by
  rw [State.intakeOf, State.image, h, State.intakeOf, State.image]

/-- R203: the report changes registers and the lane groups alone. -/
theorem State.linkLost_keeps (s : State) (g : Nat) : s.Keeps 0x40008 (s.linkLost g) := by
  have within := Within.refl 0x40008
  have counted : s.Keeps 0x40008 (s.inc (F.SLK_G_UNDERRUN_COUNT g)) :=
    State.inc_keeps s _ _ (.refl s _) (within.of (by decide))
  have flagged := State.grpFlag_keeps _ g 4 counted (within.of (by decide))
  have down := State.grpStatus_keeps _ g 0x1001 flagged (within.of (by decide))
  have underrun := State.grpStatus_keeps _ g 0x1002 down (within.of (by decide))
  exact State.setGrp_keeps _ g _ (State.setGstate_keeps _ g 4 underrun (within.of (by decide))) (within.of (by decide))

section
variable (up : s.gstate g = 3)
include up

/-- R203: a group that no intake claims repeats bring-up from step 3. -/
theorem State.resync_unclaimed (hn : s.intakeOf g = none) : s.resync g = (s.linkLost g).lanesTo g 1 := by
  have unclaimed : (s.linkLost g).intakeOf g = none := (State.intakeOf_congr (s.linkLost_keeps g).str_eq g).trans hn
  have lost : s.underrun g 4 = s.linkLost g := by
    unfold State.underrun
    rw [if_neg (not_not.mpr up)]
    extract_lets a b c v d
    rw [show d.intakeOf g = none from unclaimed]
    rfl
  rw [State.resync, if_pos up, lost]

/-- R203: a group of an intake repeats bring-up from step 3, and the frame in progress has lost it. -/
theorem State.resync_claimed {n : Node} (hn : s.intakeOf g = some n) :
    s.resync g = (((s.linkLost g).onFrame n (IFrame.leftBy g)).afterFe n).lanesTo g 1 := by
  have claimed : (s.linkLost g).intakeOf g = some n := (State.intakeOf_congr (s.linkLost_keeps g).str_eq g).trans hn
  have lost : s.underrun g 4 = ((s.linkLost g).onFrame n (IFrame.leftBy g)).afterFe n := by
    unfold State.underrun
    rw [if_neg (not_not.mpr up)]
    extract_lets a b c v d
    rw [show d.intakeOf g = some n from claimed]
    rfl
  rw [State.resync, if_pos up, lost]

end

/-- R203, R215: what a group that underruns shows. -/
theorem State.linkLost_reads (i : s.Inv) (hg : g < 4) (up : s.gstate g = 3) :
    (s.linkLost g).Reads (F.SLK_G_STATUS_GSTATE g) 4 ∧
      (s.linkLost g).Reads ⟨(F.SLK_G_STATUS_STATUS g).off, 4, 1⟩ 1 ∧
      (s.linkLost g).Reads ⟨(F.SLK_G_STATUS_STATUS g).off, 3, 1⟩ 1 ∧
      (s.linkLost g).Reads (F.SLK_G_UNDERRUN_COUNT g) (min (s.rd (F.SLK_G_UNDERRUN_COUNT g) + 1) (2 ^ 32 - 1)) := by
  unfold State.linkLost
  extract_lets u
  have below {a : Nat} (ha : a.ble 0x4000ff = true) : a + 0x100 * g < 0x718000 := lt_trans (group_lt hg ha) (by decide)
  have before := ((((State.Reads.self i (F.SLK_G_STATUS_GSTATE g)).inc (F.SLK_G_UNDERRUN_COUNT g) 1
    (Fld.apart_row rfl)).grpFlag g 4 (below rfl) (Fld.apart_row rfl)).grpStatus g 0x1001 (Fld.apart_row rfl)).grpStatus g 0x1002
    (Fld.apart_row rfl)
  have count := (((State.Reads.counted i (F.SLK_G_UNDERRUN_COUNT g) 1 (isDiscovery_group hg rfl)
    (Nat.le_of_ble_eq_true rfl)).grpFlag g 4 (below rfl) (Fld.apart_row rfl)).grpStatus g 0x1001 (Fld.apart_row rfl)).grpStatus g
    0x1002 (Fld.apart_row rfl)
  have flag := ((State.Reads.flagged (State.inc_inv i (F.SLK_G_UNDERRUN_COUNT g) 1) hg 4 (by decide)).grpStatus g 0x1001
    (Fld.apart_row rfl)).grpStatus g 0x1002 (Fld.apart_row rfl)
  have left := before.eq.trans up
  exact ⟨(State.Reads.entered before.inv hg (by decide)).setGrp g _,
    (flag.setGstate g 4 (below rfl) (Fld.apart_row rfl) (Fld.apart_row rfl)).setGrp g _,
    (State.Reads.linkFlagged before.inv hg (fun e => absurd (left.symm.trans e) (by decide)) (.inl left)).setGrp g _,
    (count.setGstate g 4 (below rfl) (Fld.apart_row rfl) (Fld.apart_row rfl)).setGrp g _⟩

/-- R203: LANE_UNDERRUN of a group that no intake claims completes. -/
theorem laneUnderrun_unclaimed_completes {g : Fin 4} (i : s.Inv) (up : s.gstate g = 3) (hn : s.intakeOf g = none) :
    Completes (.laneUnderrun g) s fun t =>
      t.gstate g = 4 ∧ t.rd ⟨(F.SLK_G_STATUS_STATUS g).off, 4, 1⟩ = 1 ∧ t.rd ⟨(F.SLK_G_STATUS_STATUS g).off, 3, 1⟩ = 1 ∧
      t.rd (F.SLK_G_UNDERRUN_COUNT g) = min (s.rd (F.SLK_G_UNDERRUN_COUNT g) + 1) (2 ^ 32 - 1) := by
  obtain ⟨state, underrun, link, count⟩ := State.linkLost_reads i g.isLt up
  have below {a : Nat} (ha : a.ble 0x4000ff = true) : a + 0x100 * g.val < 0x400800 := lt_trans (group_lt g.isLt ha) (by decide)
  exact ⟨_, congrArg Host.Outcome.next (State.resync_unclaimed up hn), (state.lanesTo g 1 g.isLt (below rfl)).eq,
    (underrun.lanesTo g 1 g.isLt (below rfl)).eq, (link.lanesTo g 1 g.isLt (below rfl)).eq,
    (count.lanesTo g 1 g.isLt (below rfl)).eq⟩

/-- R203: LANE_UNDERRUN of a group of an intake with a frame completes. -/
theorem laneUnderrun_claimed_completes {g : Fin 4} {n : Node} {f : IFrame} (up : s.gstate g = 3) (hn : s.intakeOf g = some n)
    (hf : (s.intake n.id).frames.getLast? = some f) :
    Completes (.laneUnderrun g) s fun t =>
      ∃ e, (t.intake n.id).frames.getLast? = some e ∧ (e.complete = true ∨ g.val ∈ e.left) := by
  have newest : ((s.linkLost g).intake n.id).frames.getLast? = some f := by
    rwa [State.intake_congr ((s.linkLost_keeps g).intakes_eq rfl)]
  have ended := (State.afterFe_emits _).ended (State.onFrame_ended newest (IFrame.leftBy_ended g f))
  refine ⟨_, congrArg Host.Outcome.next (State.resync_claimed up hn), ?_⟩
  dsimp only
  rwa [State.intake_congr ((State.lanesTo_keeps _ g 1 (.refl _ 0x8) (.refl _)).intakes_eq rfl)]

end

/-! ### The registers -/

/-- R216: every register but the error counters of the lanes. -/
def notLaneErr (off : Nat) : Prop := beyondSlk off ∨ off < 0x400800 ∨ off % 16 = 0

section
variable {s0 s : State} {g : Nat}

/-- A register of a lane group is no lane's error counter. -/
theorem notLaneErr_group (hg : g < 4) {a : Nat} (ha : a.ble 0x4000ff = true) : notLaneErr (a + 0x100 * g) :=
  .inr (.inl (lt_trans (group_lt hg ha) (by decide)))

/-- An MSI-X pending bit is no lane's error counter. -/
theorem notLaneErr_pending {off : Nat} (h : pendingBits off) : notLaneErr off := by
  unfold pendingBits at h
  refine .inl ?_
  unfold beyondSlk
  omega

/-- R215: an event of a group leaves the lanes' error counters. -/
theorem State.RegsOnly.grpFlag (h : s0.RegsOnly notLaneErr s) (hg : g < 4) (bit : Nat) :
    s0.RegsOnly notLaneErr (s.grpFlag g bit) :=
  h.trans (State.irq_regs s _ _ (notLaneErr_group hg rfl) fun _ => notLaneErr_pending)

/-- R215: a change of GSTATE leaves the lanes' error counters. -/
theorem State.RegsOnly.setGstate (h : s0.RegsOnly notLaneErr s) (hg : g < 4) (st : Nat) :
    s0.RegsOnly notLaneErr (s.setGstate g st) := by
  have written := h.wr (F.SLK_G_STATUS_GSTATE g) st (notLaneErr_group hg rfl)
  unfold State.setGstate
  extract_lets old t
  split
  · exact written.grpFlag hg 3
  · exact written

/-- R203: the report of an underrun leaves the lanes' error counters. -/
theorem State.linkLost_regs (s : State) (hg : g < 4) : s.RegsOnly notLaneErr (s.linkLost g) := by
  have counted := (State.RegsOnly.refl notLaneErr s).wr (F.SLK_G_UNDERRUN_COUNT g)
    (min (s.rd (F.SLK_G_UNDERRUN_COUNT g) + 1) (2 ^ (F.SLK_G_UNDERRUN_COUNT g).w - 1)) (notLaneErr_group hg rfl)
  have reported := ((counted.grpFlag hg 4).wr (F.SLK_G_STATUS_STATUS g) 0x1001 (notLaneErr_group hg rfl)).wr
    (F.SLK_G_STATUS_STATUS g) 0x1002 (notLaneErr_group hg rfl)
  exact (reported.setGstate hg 4).regs rfl

/-- R203: a group that repeats bring-up leaves the lanes' error counters. -/
theorem State.resync_regs (s : State) (hg : g < 4) : s.RegsOnly notLaneErr (s.resync g) := by
  have fall (t : State) : t.RegsOnly notLaneErr (t.lanesTo g 1) :=
    (t.lanesTo_regs g 1 hg).mono fun _ h => .inr (.inr h.2.2)
  have lost := s.linkLost_regs hg
  by_cases up : s.gstate g = 3
  · cases hn : s.intakeOf g with
    | none =>
      rw [State.resync_unclaimed up hn]
      exact lost.trans (fall _)
    | some n =>
      have marked := lost.regs (State.onFrame_regs (s.linkLost g) n (IFrame.leftBy g))
      have emitted := (State.afterFe_emits (g := g) (n := n) ((s.linkLost g).onFrame n (IFrame.leftBy g))).regs
      rw [State.resync_claimed up hn]
      refine (marked.trans (emitted.mono fun off h => ?_)).trans (fall _)
      exact h.imp_right fun below => .inl (lt_trans below (by decide))
  · rw [State.resync, if_neg up]
    exact .refl _ s

end

end Sys2Proof.Machine
end

section
/-! SUPPORT. The lanes of a group as they lock, align and receive code groups (R190, R193). -/

namespace Sys2Proof.Machine

/-! ### The lanes a link depends on -/

section
variable {s t : State} {g k l : Nat} {v : SlkGroup}

/-- R212: a link depends on the lanes of its group but for a position that the spare carries. -/
theorem State.mem_grpCarry : k ∈ s.grpCarry g ↔ k ∈ s.grpLanes g ∧ (s.grp g).spareFor ≠ some (k % 9) := by
  rw [State.grpCarry, List.mem_filter, bne_iff_ne]

/-- R212: the lanes a link depends on follow from the group's width and its spare. -/
theorem State.grpCarry_congr (hw : t.rd (F.SLK_G_CFG_WIDTH g) = s.rd (F.SLK_G_CFG_WIDTH g))
    (hs : (t.grp g).spareFor = (s.grp g).spareFor) : t.grpCarry g = s.grpCarry g := by
  simp only [State.grpCarry, State.grpLanes, State.grpWidth, hw, hs]

/-- R212: a write of a lane's register leaves the lanes a link depends on. -/
theorem State.grpCarry_wr_lane (s : State) (hg : g < 4) {b : Nat} (hb : Nat.ble 0x400800 b = true) (lo w x : Nat) :
    (s.wr ⟨b + 0x10 * l, lo, w⟩ x).grpCarry g = s.grpCarry g := by
  have below : 0x400000 + 0x100 * g < 0x400400 := group_lt hg rfl
  rw [Nat.ble_eq] at hb
  refine State.grpCarry_congr (State.rd_wr_off ?_) (congrArg SlkGroup.spareFor (State.grp_congr (State.wr_slk ..) g))
  show 0x400000 + 0x100 * g ≠ b + 0x10 * l
  omega

/-- R212: a link depends on no more lanes when the spare carries what it did. -/
theorem State.grpCarry_setGrp (s : State) (g : Nat) (hv : v.spareFor = (s.grp g).spareFor)
    (hk : k ∈ (s.setGrp g v).grpCarry g) : k ∈ s.grpCarry g := by
  obtain ⟨used, free⟩ := State.mem_grpCarry.mp hk
  refine State.mem_grpCarry.mpr ⟨used, ?_⟩
  by_cases reset : v = {}
  · rw [← hv, reset]
    exact nofun
  · rwa [State.grp_setGrp s g reset, hv] at free

/-- R193: every lane the link depends on reads ALIGNED. -/
theorem State.allAligned_iff : s.allAligned g = true ↔ ∀ k ∈ s.grpCarry g, s.rd (F.SLK_L_STATUS_LSTATE k) = 2 := by
  simp only [State.allAligned, List.all_eq_true, beq_iff_eq]

/-- R216: a group of the sensor link has a lane's group number. -/
theorem laneGroup_lt (hl : l < 36) : l / 9 < 4 := by omega

/-- R216: LSTATE just written. -/
theorem State.Reads.lstate (i : s.Inv) (hl : l < 36) {st : Nat} (hs : st < 4) :
    (s.wr (F.SLK_L_STATUS_LSTATE l) st).Reads (F.SLK_L_STATUS_LSTATE l) st := by
  have written := State.Reads.written i (F.SLK_L_STATUS_LSTATE l) st (isDiscovery_lane hl rfl) (Nat.le_of_ble_eq_true rfl)
  rwa [Nat.mod_eq_of_lt (show st < 2 ^ (F.SLK_L_STATUS_LSTATE l).w from hs)] at written

/-- R216: the registers of the lanes come before the MSI-X pending bits. -/
theorem lane_lt {a : Nat} (hl : l < 36) (ha : a.ble 0x40080f = true) : a + 0x10 * l < 0x718000 := by
  rw [Nat.ble_eq] at ha
  omega

end

/-! ### A lane locks and aligns -/

section
variable {s : State} {l : Fin 36}

/-- R193: CDR_LOCKED completes. -/
theorem cdrLocked_completes (i : s.Inv) (used : s.laneUsed l = true) (off : s.rd (F.SLK_L_STATUS_LSTATE l) = 0) :
    Completes (.cdrLocked l) s fun t => t.rd (F.SLK_L_STATUS_LSTATE l) = 1 ∧ t.slk = s.slk := by
  have locked : s.cdrLocked l = s.wr (F.SLK_L_STATUS_LSTATE l) 1 := if_pos ⟨used, off⟩
  exact ⟨_, congrArg Host.Outcome.next locked, (State.Reads.lstate i l.isLt (by decide)).eq, State.wr_slk ..⟩

/-- R193: the state once a lane is found ALIGNED, before its group follows. -/
def State.alignedLane (s : State) (l : Nat) : State :=
  let u := s.wr (F.SLK_L_STATUS_LSTATE l) 2
  u.setGrp (l / 9) { u.grp (l / 9) with lanes := KMap.set (fun _ => {}) (u.grp (l / 9)).lanes (l % 9) {} }

/-- R193: the group follows the last of its lanes. -/
theorem State.laneAligned_of_locked (used : s.laneUsed l = true) (locked : s.rd (F.SLK_L_STATUS_LSTATE l) = 1) :
    s.laneAligned l =
      if (s.alignedLane l).gstate (l / 9) = 1 ∧ (s.alignedLane l).allAligned (l / 9) then (s.alignedLane l).setGstate (l / 9) 2
      else s.alignedLane l :=
  if_pos ⟨used, locked⟩

/-- R193: with one more lane ALIGNED, all are that the link depends on, when the others were. -/
theorem State.allAligned_alignedLane (i : s.Inv)
    (others : ∀ k ∈ s.grpCarry (l / 9), k ≠ l → s.rd (F.SLK_L_STATUS_LSTATE k) = 2) :
    (s.alignedLane l).allAligned (l / 9) = true := by
  refine State.allAligned_iff.mpr fun k hk => ?_
  have carried := State.grpCarry_setGrp (s.wr (F.SLK_L_STATUS_LSTATE l) 2) (l / 9) (by rfl) hk
  rw [F.SLK_L_STATUS_LSTATE, State.grpCarry_wr_lane s (laneGroup_lt l.isLt) rfl] at carried
  by_cases same : k = l
  · rw [same]
    exact (State.Reads.lstate i l.isLt (by decide)).eq
  · refine (State.rd_wr_off ?_).trans (others k carried same)
    show 0x400800 + 0x10 * k ≠ 0x400800 + 0x10 * l.val
    omega

/-- R193: LANE_ALIGNED completes. -/
theorem laneAligned_completes (i : s.Inv) (used : s.laneUsed l = true) (locked : s.rd (F.SLK_L_STATUS_LSTATE l) = 1) :
    Completes (.laneAligned l) s fun t =>
      t.rd (F.SLK_L_STATUS_LSTATE l) = 2 ∧
      (s.gstate (l / 9) = 1 → (∀ k ∈ s.grpCarry (l / 9), k ≠ l → s.rd (F.SLK_L_STATUS_LSTATE k) = 2) → t.gstate (l / 9) = 2) := by
  have group := laneGroup_lt l.isLt
  have lane : (s.alignedLane l).Reads (F.SLK_L_STATUS_LSTATE l) 2 := (State.Reads.lstate i l.isLt (by decide)).setGrp _ _
  have kept : (s.alignedLane l).gstate (l / 9) = s.gstate (l / 9) := State.rd_wr_apart i (apart_lane_group group rfl rfl)
  refine ⟨_, congrArg Host.Outcome.next (State.laneAligned_of_locked used locked), ?_⟩
  split
  · exact ⟨(lane.setGstate _ 2 (lane_lt l.isLt rfl) (apart_group_lane group rfl rfl) (apart_group_lane group rfl rfl)).eq,
      fun _ _ => (State.Reads.entered lane.inv group (by decide)).eq⟩
  next not =>
    exact ⟨lane.eq, fun up others => absurd ⟨kept.trans up, State.allAligned_alignedLane i others⟩ not⟩

end

end Sys2Proof.Machine
end

section
/-! SUPPORT. The code groups of an aligned lane, and what a fourth error among 64 does (R190). -/

namespace Sys2Proof.Machine

section
variable {s : State} {l : Nat}

/-- R193: a lane that leaves ALIGNED leaves the lanes' error counters. -/
theorem State.laneLost_regs (s : State) (hl : l < 36) : s.RegsOnly notLaneErr (s.laneLost l) := by
  have group := laneGroup_lt hl
  have status : notLaneErr (F.SLK_L_STATUS_LSTATE l).off := by
    refine .inr (.inr ?_)
    show (0x400800 + 0x10 * l) % 16 = 0
    omega
  unfold State.laneLost
  extract_lets g t old u
  have fallen : s.RegsOnly notLaneErr t := (State.RegsOnly.refl notLaneErr s).wr _ 1 status
  have forgotten : s.RegsOnly notLaneErr u := fallen.regs rfl
  split
  · exact fallen
  split
  · exact forgotten.setGstate group 1
  · exact forgotten.trans (u.resync_regs group)

/-- R193: a lane its link depends on takes the group with it out of ALIGNED. -/
theorem State.laneLost_reads (i : s.Inv) (hl : l < 36) (aligned : s.gstate (l / 9) = 2) (carried : l ∈ s.grpCarry (l / 9)) :
    (s.laneLost l).Reads (F.SLK_L_STATUS_LSTATE l) 1 ∧ (s.laneLost l).Reads (F.SLK_G_STATUS_GSTATE (l / 9)) 1 := by
  have group := laneGroup_lt hl
  have fallen := State.Reads.lstate i hl (st := 1) (by decide)
  have depends : (s.wr (F.SLK_L_STATUS_LSTATE l) 1).grpCarry (l / 9) = s.grpCarry (l / 9) :=
    State.grpCarry_wr_lane s group rfl 0 2 1
  have before : (s.wr (F.SLK_L_STATUS_LSTATE l) 1).gstate (l / 9) = 2 :=
    (State.rd_wr_apart i (apart_lane_group group rfl rfl)).trans aligned
  unfold State.laneLost
  extract_lets g t old u
  rw [if_neg (by rw [show t.grpCarry g = s.grpCarry g from depends]; simpa using carried), if_pos (show u.gstate g = 2 from before)]
  have forgotten : u.Reads (F.SLK_L_STATUS_LSTATE l) 1 := fallen.setGrp _ _
  exact ⟨forgotten.setGstate g 1 (lane_lt hl rfl) (apart_group_lane group rfl rfl) (apart_group_lane group rfl rfl),
    State.Reads.entered forgotten.inv group (by decide)⟩

/-- R190: the receiver of a lane. -/
def State.laneRx (s : State) (l : Nat) : LaneRx := KMap.get (fun _ => {}) (s.grp (l / 9)).lanes (l % 9)

/-- R190: the state once an aligned lane has received code group `v`, before any loss of alignment. -/
def State.tookGroup (s : State) (l v : Nat) : State :=
  let r := (s.laneRx l).take v
  let u := s.setGrp (l / 9) { s.grp (l / 9) with lanes := KMap.set (fun _ => {}) (s.grp (l / 9)).lanes (l % 9) r.2 }
  if r.1 then u.inc (F.SLK_L_ERR_COUNT l) else u

/-- R190: an aligned lane receives a code group. -/
theorem State.laneGroup_of_aligned {v : Nat} (aligned : s.rd (F.SLK_L_STATUS_LSTATE l) = 2) :
    s.laneGroup l v = if ((s.laneRx l).take v).2.failing then (s.tookGroup l v).laneLost l else s.tookGroup l v := by
  rw [State.laneGroup, if_neg (not_not.mpr aligned)]
  rfl

/-- R190: a receiver that has taken a code group is not as after reset. -/
theorem LaneRx.take_ne_reset (x : LaneRx) (v : Nat) : (x.take v).2 ≠ {} :=
  fun e => absurd (congrArg LaneRx.disp e) nofun

/-- R190, R212: a code group leaves the lanes that the link depends on. -/
theorem State.grpCarry_tookGroup (hl : l < 36) (v : Nat) : (s.tookGroup l v).grpCarry (l / 9) = s.grpCarry (l / 9) := by
  unfold State.tookGroup
  extract_lets r old u
  have received : (KMap.set (fun _ => {}) (s.grp (l / 9)).lanes (l % 9) r.2) ≠ [] := by
    intro none
    have read := KMap.get_set_ne (d := fun _ => {}) (s.grp (l / 9)).lanes (l % 9) r.2 ((s.laneRx l).take_ne_reset v)
    rw [none] at read
    exact (s.laneRx l).take_ne_reset v read.symm
  have taken : u.grpCarry (l / 9) = s.grpCarry (l / 9) :=
    State.grpCarry_congr rfl (by rw [show u.grp (l / 9) = _ from State.grp_setGrp s (l / 9) (SlkGroup.ne_reset_of_lanes received)])
  split
  · exact (State.grpCarry_wr_lane u (laneGroup_lt hl) rfl 0 32 _).trans taken
  · exact taken

/-- R190: what stands apart from the lane's error counter reads as before a code group. -/
theorem State.Reads.tookGroup {f : Fld} {x : Nat} (h : s.Reads f x) (v : Nat) (a : (F.SLK_L_ERR_COUNT l).Apart f) :
    (s.tookGroup l v).Reads f x := by
  unfold State.tookGroup
  extract_lets r old u
  split
  · exact (h.setGrp _ _).inc _ 1 a
  · exact h.setGrp _ _

/-- R190: a code error is counted. -/
theorem State.rd_tookGroup_err (i : s.Inv) (hl : l < 36) (v : Nat) :
    (s.tookGroup l v).rd (F.SLK_L_ERR_COUNT l) =
      min (s.rd (F.SLK_L_ERR_COUNT l) + if ((s.laneRx l).take v).1 then 1 else 0) (2 ^ 32 - 1) := by
  unfold State.tookGroup
  extract_lets r old u
  have taken : u.rd (F.SLK_L_ERR_COUNT l) = s.rd (F.SLK_L_ERR_COUNT l) := rfl
  split
  · rw [State.rd_inc_same (State.setGrp_inv i _ _) (isDiscovery_lane hl rfl) (Nat.le_of_ble_eq_true rfl), taken]
    rfl
  · have below := Nat.le_pred_of_lt (s.rd_lt (F.SLK_L_ERR_COUNT l))
    rw [taken, Nat.add_zero]
    exact (min_eq_left below).symm

end

/-- R190: LANE_ALIGN_LOSS with one code group completes. -/
theorem laneAlignLoss_completes {s : State} {l : Fin 36} (i : s.Inv) (used : s.laneUsed l = true) (v : BitVec 10)
    (aligned : s.rd (F.SLK_L_STATUS_LSTATE l) = 2) :
    let r := (s.laneRx l).take v.toNat
    Completes (.laneAlignLoss l [v]) s fun t =>
      t.rd (F.SLK_L_ERR_COUNT l) = min (s.rd (F.SLK_L_ERR_COUNT l) + (if r.1 then 1 else 0)) (2 ^ 32 - 1) ∧
      (r.2.failing = false → t.rd (F.SLK_L_STATUS_LSTATE l) = 2 ∧ t.gstate (l / 9) = s.gstate (l / 9)) ∧
      (r.2.failing = true → s.gstate (l / 9) = 2 → l.val ∈ s.grpCarry (l / 9) →
        t.rd (F.SLK_L_STATUS_LSTATE l) = 1 ∧ t.gstate (l / 9) = 1) := by
  intro r
  have group := laneGroup_lt l.isLt
  have lane : (s.tookGroup l v.toNat).Reads (F.SLK_L_STATUS_LSTATE l) 2 :=
    State.Reads.tookGroup ⟨i, aligned⟩ _ (.inl (by show 0x400800 + 0x10 * l.val ≠ 0x400804 + 0x10 * l.val; omega))
  have state : (s.tookGroup l v.toNat).Reads (F.SLK_G_STATUS_GSTATE (l / 9)) (s.gstate (l / 9)) :=
    State.Reads.tookGroup ⟨i, rfl⟩ _ (apart_lane_group group rfl rfl)
  have count := State.rd_tookGroup_err i l.isLt v.toNat
  have received : s.laneGroups l [v] =
      if r.2.failing then (s.tookGroup l v.toNat).laneLost l else s.tookGroup l v.toNat := by
    rw [State.laneGroups, if_pos used]
    exact State.laneGroup_of_aligned aligned
  refine ⟨_, congrArg Host.Outcome.next received, ?_⟩
  cases fails : r.2.failing with
  | false => exact ⟨count, fun _ => ⟨lane.eq, state.eq⟩, nofun⟩
  | true =>
    refine ⟨?_, nofun, fun _ up carried => ?_⟩
    · refine Eq.trans (((s.tookGroup l v.toNat).laneLost_regs l.isLt).rd _ ?_) count
      show ¬ ((0x400804 + 0x10 * l.val) / 0x40000 ≠ 0x10 ∨ 0x400804 + 0x10 * l.val < 0x400800 ∨ (0x400804 + 0x10 * l.val) % 16 = 0)
      omega
    · have depends := (State.grpCarry_tookGroup (s := s) l.isLt v.toNat).symm ▸ carried
      obtain ⟨lost, fallen⟩ := State.laneLost_reads lane.inv l.isLt (state.eq.trans up) depends
      exact ⟨lost.eq, fallen.eq⟩

end Sys2Proof.Machine
end

section
/-! SUPPORT. DESKEW columns and the way to LINK_UP (R193, R194). -/

namespace Sys2Proof.Machine

section
variable {s : State} {f : Fld} {x g : Nat}

/-- R194: what stands apart from the lanes' SKEW reads as before a column is noted. -/
theorem State.Reads.skewed (h : s.Reads f x) (l : List (Nat × Nat)) (a : ∀ k, (F.SLK_L_STATUS_SKEW k).Apart f) :
    (s.each l fun e s => s.wr (F.SLK_L_STATUS_SKEW e.1) e.2).Reads f x :=
  State.each_induct (P := fun t => t.Reads f x) (fun e _ h => h.wr (F.SLK_L_STATUS_SKEW e.1) e.2 (a e.1)) _ h

/-- R207: what stands apart from WAITING reads as before a command is sent. -/
theorem State.Reads.seqSend (h : s.Reads f x) (g : Nat) (a : (F.SLK_G_SEQ_STATUS_WAITING g).Apart f) :
    (s.seqSend g).Reads f x := by
  unfold State.seqSend State.seqPhase
  extract_lets v st a0 a1 sent
  have sends : sent.Reads f x := by
    unfold sent
    split <;> exact h.setGrp _ _
  exact ((sends.setGrp _ _).setGrp _ _).wr _ _ a

/-- R208: a command that waited for LINK_UP is sent. -/
theorem State.Reads.seqUnsent (h : s.Reads f x) (running : s.on (F.SLK_G_SEQ_STATUS_RUNNING g) = true)
    (unsent : (s.grp g).phase = .unsent) (a : (F.SLK_G_SEQ_STATUS_WAITING g).Apart f) : (s.seqEntry g).Reads f x := by
  have next : s.seqEntry g = if s.seqMaySend g then s.seqSend g else s := by
    simp only [State.seqEntry, running, unsent, Bool.not_true, Bool.false_eq_true, if_false]
  rw [next]
  split
  · exact h.seqSend g a
  · exact h

/-- R193 step 6: a group that comes up reads LINK_UP. -/
theorem State.Reads.linkUp (i : s.Inv) (hg : g < 4) : (s.linkUp g).Reads (F.SLK_G_STATUS_GSTATE g) 3 := by
  unfold State.linkUp
  extract_lets old t u w
  have up : u.Reads (F.SLK_G_STATUS_GSTATE g) 3 := State.Reads.entered (State.setGrp_inv i _ _) hg (by decide)
  have back : w.Reads (F.SLK_G_STATUS_GSTATE g) 3 := by
    unfold w
    split
    · exact up.setStr _
    · exact up
  by_cases waits : w.on (F.SLK_G_SEQ_STATUS_RUNNING g) ∧ (w.grp g).phase = .unsent
  · rw [if_pos waits]
    exact back.seqUnsent waits.1 waits.2 (Fld.apart_row rfl)
  · rw [if_neg waits]
    exact back

end

/-- R193, R194: DESKEW completes: the second equal column brings the group up, and the first is remembered. -/
theorem deskew_completes {g : Fin 4} {skews : List Byte} {together : Bool} {s : State} (i : s.Inv) (aligned : s.gstate g = 2)
    (all : s.allAligned g = true) :
    let l := (s.grpCarry g).mapIdx (fun i _ => (skews.map (fun b => b.toNat)).getD i 0)
    l.any (fun x => decide (31 < x)) = false →
    Completes (.deskew g skews together) s fun t =>
      ((s.grp g).skews = some l → t.gstate g = 3) ∧
      ((s.grp g).skews ≠ some l → t.gstate g = 2 ∧ (t.grp g).skews = some l) := by
  intro l near
  let u := s.each ((s.grpCarry g).zip l) fun e s => s.wr (F.SLK_L_STATUS_SKEW e.1) e.2
  have state : u.Reads (F.SLK_G_STATUS_GSTATE g) 2 :=
    State.Reads.skewed ⟨i, aligned⟩ _ fun _ => apart_lane_group g.isLt rfl rfl
  have within := Within.refl 0x8
  have groups : u.slk = s.slk :=
    (State.each_keeps _ (fun e t h => State.wr_keeps t _ _ h within) _ _ (.refl s 0x8)).slk_eq rfl
  have next : s.deskew g (skews.map fun b => b.toNat) together =
      if (u.grp g).skews = some l then u.linkUp g else u.setGrp g { u.grp g with skews := some l } := by
    unfold State.deskew
    rw [if_neg (show ¬ (s.gstate g = 0 ∨ (!s.allAligned g) = true) by simp [aligned, all])]
    rw [if_neg (show ¬ u.gstate g = 3 from fun up => absurd (state.eq.symm.trans up) (by decide)), if_pos (.inl state.eq),
      if_neg (show ¬ (l.any fun x => decide (31 < x)) = true by simp [near])]
  rw [← State.grp_congr groups g]
  refine ⟨_, congrArg Host.Outcome.next next, ?_⟩
  by_cases second : (u.grp g).skews = some l
  · rw [if_pos second]
    exact ⟨fun _ => (State.Reads.linkUp state.inv g.isLt).eq, absurd second⟩
  · rw [if_neg second]
    exact ⟨fun h => absurd h second, fun _ =>
      ⟨state.eq, congrArg SlkGroup.skews (State.grp_setGrp u g (SlkGroup.ne_reset_of_skews rfl))⟩⟩

end Sys2Proof.Machine
end

section
/-! SUPPORT. The write of SLK_G_CFG that enables a group or clears its counters (R193, R215). -/

namespace Sys2Proof.Machine

/-! ### SLK_G_CFG -/

/-- R215: the row of SLK_G_CFG in the register table. -/
def slkCfgRow : RegRow := ⟨0, 4, 0x100, 1, 4, 0x80033337, 0, 0, 0⟩

/-- R215: a register of SLK_G_CFG's group lies in that row. -/
theorem regRow_slkCfg : ∀ g : Fin 4, regRow (F.SLK_G_CFG_EN g).off = some slkCfgRow := by decide

section
variable {s t : State} {g : Fin 4} {f : Fld} {x : Nat}

/-- R8, R215: an ordinary write of SLK_G_CFG sets EN. -/
theorem State.Reads.slkEn (i : s.Inv) (val : Word) :
    (s.plainWrite (F.SLK_G_CFG_EN g).off val).Reads (F.SLK_G_CFG_EN g) ((F.SLK_G_CFG_EN g).of val) := by
  have discovery : isDiscovery (F.SLK_G_CFG_EN g).off = false := isDiscovery_group g.isLt rfl
  have writable : ∀ j < 1, (BitVec.ofNat 32 slkCfgRow.rw).getLsbD (31 + j) = true := by decide
  refine ⟨(State.plainWrite_keeps s _ _ (.refl s 0x8) (.refl _)).inv i, ?_⟩
  simp only [State.plainWrite, regRow_slkCfg]
  rw [State.rd, State.reg_setReg_same i _ discovery, RegRow.get_written _ _ writable rfl]

/-- R479: whether a group is under test follows from the maintenance unit. -/
theorem State.laneUnderTest_congr (h : t.mnt = s.mnt) (n : Nat) : t.laneUnderTest n = s.laneUnderTest n := by
  simp only [State.laneUnderTest, State.testerOf, State.actRuns, State.bistSlot, h]

/-- R215: whether a write of SLK_G_CFG is discarded follows from what the register holds. -/
theorem State.grpCfgBad_congr (g : Fin 4) (h : s.Beside t) (val : Word) : t.grpCfgBad g val = s.grpCfgBad g val := by
  have steady (lo w : Nat) : (⟨0x400000 + 0x100 * g, lo, w⟩ : Fld).Steady := steady_slk (by omega) (by omega)
  have field (lo w : Nat) : t.rd ⟨0x400000 + 0x100 * g, lo, w⟩ = s.rd ⟨0x400000 + 0x100 * g, lo, w⟩ := h.rd (steady lo w)
  simp only [State.grpCfgBad, State.on, F.SLK_G_CFG_EN, F.SLK_G_CFG_RATE, F.SLK_G_CFG_WIDTH, F.SLK_G_CFG_TX_WIDTH, field]

/-! ### The counters -/

/-- R215: counter `j` of a group. -/
def grpCounter (g j : Nat) : Fld := (grpCounters g).getD j (F.SLK_G_HCRC_ERR_COUNT g)

/-- R215: a group has eighteen counters. -/
theorem State.grpClear_eq (s : State) (g inc : Nat) :
    s.grpClear g inc = s.each (List.range 18) fun j s => s.wr (grpCounter g j) (inc / 2 ^ j % 2) := by
  have listed : (grpCounters g).mapIdx (fun j f => (j, f)) = (List.range 18).map fun j => (j, grpCounter g j) := by
    refine List.ext_getElem (List.length_mapIdx.trans (List.length_map _).symm) fun j hj _ => ?_
    rw [List.length_mapIdx] at hj
    rw [List.getElem_mapIdx, List.getElem_map, List.getElem_range, grpCounter, List.getD_eq_getElem _ _ hj]
  rw [State.grpClear, listed, State.each, List.foldl_map]
  rfl

/-- R215: the counters are whole registers of the sensor link, each of its own, and none is SLK_G_CFG. -/
theorem grpCounter_registers : ∀ g : Fin 4,
    ((List.range 18).map fun j => (grpCounter g j).off).Nodup ∧
      ∀ j ∈ List.range 18, (grpCounter g j).w = 32 ∧ (grpCounter g j).lo + (grpCounter g j).w ≤ 32 ∧
        isDiscovery (grpCounter g j).off = false ∧ (grpCounter g j).Steady ∧ (F.SLK_G_CFG_EN g).off ≠ (grpCounter g j).off := by
  decide

/-- R36: a cleared counter reads 0, or 1 where it was incremented in the same cycle. -/
theorem State.rd_grpClear (i : s.Inv) (inc : BitVec 18) {j : Nat} (hj : j < 18) :
    (s.grpClear g inc.toNat).rd (grpCounter g j) = if inc.getLsbD j then 1 else 0 := by
  obtain ⟨apart, registers⟩ := grpCounter_registers g
  have bit : inc.toNat / 2 ^ j % 2 = if inc.getLsbD j then 1 else 0 := by
    rw [← BitVec.testBit_toNat, Nat.testBit_eq_decide_div_mod_eq]
    have := Nat.mod_two_eq_zero_or_one (inc.toNat / 2 ^ j)
    rcases this with h | h <;> simp [h]
  rw [State.grpClear_eq, State.rd_each_wr i (grpCounter g) _ apart (fun k hk => ⟨(registers k hk).2.2.1, (registers k hk).2.1⟩) j
    (List.mem_range.mpr hj), (registers j (List.mem_range.mpr hj)).1, bit]
  split <;> rfl

/-- R36: SLK_G_CFG reads as before its counters are cleared. -/
theorem State.Reads.grpClear (h : s.Reads f x) (inc : Nat) (hf : f.off = (F.SLK_G_CFG_EN g).off) :
    (s.grpClear g inc).Reads f x := by
  obtain ⟨-, registers⟩ := grpCounter_registers g
  have cleared : s.RegsOnly (· ≠ (F.SLK_G_CFG_EN g).off)
      (s.each (List.range 18) fun j s => s.wr (grpCounter g j) (inc / 2 ^ j % 2)) :=
    State.RegsOnly.each (fun j hj _ k => k.wr _ _ (registers j hj).2.2.2.2.symm) (.refl _ s)
  refine ⟨(State.grpClear_keeps s g inc (.refl s 0x8) (.refl _)).inv h.inv, ?_⟩
  rw [State.grpClear_eq, cleared.rd f (not_not.mpr hf)]
  exact h.eq

end

/-! ### The group is enabled -/

section
variable {s : State} {g : Fin 4}

/-- R193 step 1: the state once a group is enabled out of loopback. -/
theorem State.grpOn_reads (h : s.Reads (F.SLK_G_CFG_EN g) 1) :
    (s.grpOn g 0).Reads (F.SLK_G_CFG_EN g) 1 ∧ (s.grpOn g 0).Reads (F.SLK_G_STATUS_GSTATE g) 1 ∧
      ∀ p < 9, (s.grpOn g 0).Reads (F.SLK_L_STATUS_LSTATE (9 * g + p)) 0 := by
  have below {a : Nat} (ha : a.ble 0x4000ff = true) : a + 0x100 * g.val < 0x400400 := group_lt g.isLt ha
  unfold State.grpOn
  extract_lets old u
  have forgotten : u.Reads (F.SLK_G_CFG_EN g) 1 := h.setGrp _ _
  have fallen := forgotten.lanesTo g 0 g.isLt (lt_trans (below rfl) (by decide))
  refine ⟨fallen.setGstate g 1 (lt_trans (below rfl) (by decide)) (Fld.apart_row rfl) (Fld.apart_row rfl),
    State.Reads.entered fallen.inv g.isLt (by decide), fun p hp => ?_⟩
  have off : (u.lanesTo g 0).Reads (F.SLK_L_STATUS_LSTATE (9 * g + p)) 0 := ⟨fallen.inv, State.rd_lanesTo_off forgotten.inv g.isLt hp⟩
  exact off.setGstate g 1 (lane_lt (by omega) rfl) (apart_group_lane g.isLt rfl rfl) (apart_group_lane g.isLt rfl rfl)

end

/-- R215: a write of SLK_G_CFG that is taken while the group is not under test. -/
theorem State.grpCfg_of_free {s : State} {g : Nat} {val : Word} {inc : Nat} (good : s.grpCfgBad g val = false)
    (free : s.laneUnderTest (0x20 + g) = false) :
    s.grpCfg g val inc = (if (F.SLK_G_CFG_CNT_CLR g).of val = 1 then s.grpClear g inc else s).grpSet g val := by
  have clears : (if (F.SLK_G_CFG_CNT_CLR g).of val = 1 then s.grpClear g inc else s).laneUnderTest (0x20 + g) = false := by
    split
    · exact (State.laneUnderTest_congr ((State.grpClear_keeps s g inc (.refl s 0x8) (.refl _)).mnt_eq rfl) _).trans free
    · exact free
  rw [State.grpCfg, if_neg (by simp [good])]
  dsimp only
  rw [clears]
  rfl

/-- R193, R215: GROUP_ENABLE out of loopback completes. -/
theorem groupEnable_completes {src : Agent} {g : Fin 4} {val : Word} {s : State} (i : s.Inv) (hg : s.Passes src (F.SLK_G_CFG_EN g))
    (off : s.rd (F.SLK_G_CFG_EN g) = 0) (on : (F.SLK_G_CFG_EN g).of val = 1) (plain : (F.SLK_G_CFG_LOOP g).of val = 0)
    (mode : (F.SLK_G_CFG_TX_MODE g).of val ≤ 1) (free : s.laneUnderTest (0x20 + g) = false) :
    Completes (.groupEnable src g val) s fun t =>
      t.rd (F.SLK_G_CFG_EN g) = 1 ∧ t.gstate g = 1 ∧ ∀ p < 9, t.rd (F.SLK_L_STATUS_LSTATE (9 * g + p)) = 0 := by
  refine write_completes hg rfl fun m t before after => ?_
  have steady {a lo w : Nat} (h : Nat.ble 0x400000 a = true) (h' : a.ble 0x4000ff = true) : (⟨a + 0x100 * g, lo, w⟩ : Fld).Steady := by
    rw [Nat.ble_eq] at h
    exact steady_slk (by omega) (lt_trans (group_lt g.isLt h') (by decide))
  have disabled : m.Reads (F.SLK_G_CFG_EN g) 0 := ⟨before.inv i, (before.rd (steady rfl rfl)).trans off⟩
  have good : m.grpCfgBad g val = false := by
    simp only [State.grpCfgBad, State.on_of_rd_zero disabled.eq, plain, Nat.not_lt.mpr mode, Bool.false_and, decide_false, bne_self_eq_false,
      Bool.and_false, Bool.or_false]
  have idle : m.laneUnderTest (0x20 + g) = false := (State.laneUnderTest_congr (before.keeps.mnt_eq rfl) _).trans free
  rw [State.grpCfg_of_free good idle] at after
  generalize cleared : (if (F.SLK_G_CFG_CNT_CLR g).of val = 1 then m.grpClear g 0 else m) = u at after
  have still : u.Reads (F.SLK_G_CFG_EN g) 0 := by
    rw [← cleared]
    split
    · exact disabled.grpClear 0 rfl
    · exact disabled
  have written := State.Reads.slkEn (g := g) still.inv val
  rw [on] at written
  have set : u.grpSet g val = (u.plainWrite (F.SLK_G_CFG_EN g).off val).grpOn g 0 := by
    simp only [State.grpSet, State.on_of_rd_zero still.eq, State.on_of_rd_one written.eq, plain]
  rw [set] at after
  obtain ⟨enabled, state, lanes⟩ := State.grpOn_reads written
  refine ⟨after.reads enabled (steady rfl rfl), after.reads state (steady rfl rfl), fun p hp => after.reads (lanes p hp) ?_⟩
  exact steady_slk (by omega) (by omega)

/-- R36, R215: SLK_CNT_CLR of an enabled group clears its counters. -/
theorem slkCntClr_completes {src : Agent} {g : Fin 4} {val : Word} {inc : BitVec 18} {s : State} (i : s.Inv)
    (hg : s.Passes src (F.SLK_G_CFG_EN g)) (good : s.grpCfgBad g (val ||| 0x40000000) = false) (enabled : s.rd (F.SLK_G_CFG_EN g) = 1)
    (on : (F.SLK_G_CFG_EN g).of val = 1) (same : (F.SLK_G_CFG_LOOP g).of val = s.rd (F.SLK_G_CFG_LOOP g))
    (free : s.laneUnderTest (0x20 + g) = false) :
    Completes (.slkCntClr src g val inc) s fun t => ∀ j < 18, t.rd (grpCounter g j) = if inc.getLsbD j then 1 else 0 := by
  obtain ⟨-, registers⟩ := grpCounter_registers g
  have cfg (lo w : Nat) : (⟨0x400000 + 0x100 * g, lo, w⟩ : Fld).Steady := steady_slk (by omega) (by omega)
  refine write_completes hg rfl fun m t before after j hj => ?_
  have idle : m.laneUnderTest (0x20 + g) = false := (State.laneUnderTest_congr (before.keeps.mnt_eq rfl) _).trans free
  have asked : (F.SLK_G_CFG_CNT_CLR g).of (val ||| 0x40000000) = 1 :=
    Fld.of_or_one rfl val (show Fld.of ⟨0, 30, 1⟩ 0x40000000 = 1 by decide)
  rw [State.grpCfg_of_free ((State.grpCfgBad_congr g before _).trans good) idle, if_pos asked] at after
  have held : (m.grpClear g inc.toNat).Reads (F.SLK_G_CFG_EN g) 1 :=
    State.Reads.grpClear ⟨before.inv i, (before.rd (cfg 31 1)).trans enabled⟩ _ rfl
  have loop : (m.grpClear g inc.toNat).Reads (F.SLK_G_CFG_LOOP g) (s.rd (F.SLK_G_CFG_LOOP g)) :=
    State.Reads.grpClear ⟨before.inv i, before.rd (cfg 16 2)⟩ _ rfl
  have written := State.Reads.slkEn (g := g) held.inv (val ||| 0x40000000)
  have on : (F.SLK_G_CFG_EN g).of (val ||| 0x40000000) = 1 :=
    (Fld.of_or_zero val (show Fld.of ⟨0, 31, 1⟩ 0x40000000 = 0 by decide)).trans on
  rw [on] at written
  have kept : (F.SLK_G_CFG_LOOP g).of (val ||| 0x40000000) = s.rd (F.SLK_G_CFG_LOOP g) :=
    (Fld.of_or_zero val (show Fld.of ⟨0, 16, 2⟩ 0x40000000 = 0 by decide)).trans same
  have set : (m.grpClear g inc.toNat).grpSet g (val ||| 0x40000000) =
      (m.grpClear g inc.toNat).plainWrite (F.SLK_G_CFG_EN g).off (val ||| 0x40000000) := by
    simp only [State.grpSet, State.on_of_rd_one held.eq, State.on_of_rd_one written.eq, kept, loop.eq, State.grpLoop, if_true]
  rw [set] at after
  obtain ⟨-, -, -, steady, apart⟩ := registers j (List.mem_range.mpr hj)
  exact ((after.rd steady).trans ((State.plainWrite_regs _ _ _).rd _ apart.symm)).trans (State.rd_grpClear (before.inv i) inc hj)

end Sys2Proof.Machine
end

section
/-! The lane commands (R190, R193, R194, R203, R212, R215). -/

namespace Sys2Proof.Machine

/-- Settles O26 (R190, R193, R194, R203, R212, R215), command by command. -/
theorem laneCommandsComplete : Obligations.LaneCommandsComplete := by
  unfold Obligations.LaneCommandsComplete
  refine ⟨fun src g val s i hg off on plain mode free => groupEnable_completes i hg off on plain mode free,
    fun src g val inc s i hg good enabled on same free => slkCntClr_completes i hg good enabled on same free,
    fun l s i used => ⟨cdrLocked_completes i used, laneAligned_completes i used, laneAlignLoss_completes i used⟩,
    fun g skews together s i aligned all => deskew_completes i aligned all,
    fun g s i up none => laneUnderrun_unclaimed_completes i up none,
    fun g n f s up claimed newest => laneUnderrun_claimed_completes up claimed newest⟩

end Sys2Proof.Machine
end

section
/-! SUPPORT. O27, O28 and O29 fail. Each lacks a hypothesis on its state that START's statement shows the form of: that a map is in
canonical form (`KMap.wf`), or that a table lies where the write of a command does not change it. -/

namespace Sys2Proof.Machine

/-! ### An intake that stands behind another entry (R201) -/

/-- A complete frame whose descriptor is read from address 0. -/
def waitingFrame : IFrame := { complete := true, tables := [{ bodyLen := 14 }] }

/-- Node 0 is an intake, and its map lists it twice, which no canonical map does: first as after reset, then with that frame. The byte
at address 12 makes the frame's ROWS 1. -/
def doubledIntake : State :=
  { State.reset.setBytes 12 [1] with
    str := { active := some { nodes := [{ kind := 1 }] } }
    intakes := [(0, {}), (0, { frames := [waitingFrame] })] }

/-- R201: no step is counted for the frame, which the drain of META tiles lays bare afterwards: its row does not leave. -/
theorem doubledIntake_emits_nothing : ((doubledIntake.emitReady { kind := 1 }).intake 0).frames = [waitingFrame] := by
  decide +kernel

/-- Refutes O27: once the first entry is gone, the frame's row is ready and has room, but no tile of it leaves. The clause on
TILE_ROW_EMIT lacks that the intakes are in canonical form. -/
theorem not_sensorPacketsComplete : ¬ Obligations.SensorPacketsComplete := by
  rintro ⟨-, -, emits⟩
  obtain ⟨t, next, e, frames, -, moved⟩ := emits 0 { kind := 1 } waitingFrame doubledIntake (by decide) (by decide)
    (by decide +kernel) (by decide +kernel)
  obtain rfl : doubledIntake.emitReady { kind := 1 } = t := Host.Outcome.next.inj next
  obtain rfl : waitingFrame = e := List.singleton_inj.mp (doubledIntake_emits_nothing.symm.trans frames)
  exact absurd moved (by decide)

/-! ### A sequencer table in the control space (R129, R210) -/

/-- Table 1 is a sequencer table of one byte, which the fabric map shows of SLK_G_SEQ_CMD of group 0. -/
def registerTable : Table := { id := 1, kind := 5, p1 := 0x10, bodyLen := 1, addr := 0x200400020 }

/-- Morning, with the host's link up and an image of that table alone. -/
def registerTableState : State :=
  ((State.reset.wr F.PWR_STATUS_DAY 2).wr F.HIF_STATUS_LINK 1).setStr { active := some { tables := [registerTable] } }

/-- R210: the byte is 0 before the host writes TABLE_ID 1 with START. -/
theorem registerTable_before_start : registerTableState.tableBody registerTable = [0] := by decide +kernel

/-- R210: the sequencer takes the table as it stands after the write. -/
theorem registerTable_taken : ((registerTableState.writeReg .host (F.SLK_G_SEQ_CMD_START 0) (1 ||| 0x80000000)
    fun s => s.seqCmd 0 (1 ||| 0x80000000)).grp 0).table = [1] := by
  decide +kernel

/-- Refutes O28: START's own write changes the table that it names. The clause on START lacks that the table does not lie in the
control space. -/
theorem not_sequencerComplete : ¬ Obligations.SequencerComplete := by
  rintro ⟨start, -⟩
  have inv : registerTableState.Inv := State.setStr_inv (State.wr_inv (State.wr_inv State.reset_inv _ _) _ _) _
  have passes : registerTableState.Passes .host (F.SLK_G_SEQ_CMD_START 0) := by
    unfold State.Passes
    decide +kernel
  obtain ⟨t, next, -, -, -, table, -⟩ :=
    start .host 0 1 registerTable registerTableState inv rfl passes (by decide +kernel) (by decide) rfl rfl rfl (by decide)
  obtain rfl : registerTableState.writeReg .host (F.SLK_G_SEQ_CMD_START 0) (1 ||| 0x80000000)
    (fun s => s.seqCmd 0 (1 ||| 0x80000000)) = t := Host.Outcome.next.inj next
  rw [registerTable_before_start] at table
  exact absurd (registerTable_taken.symm.trans table) (by decide)

/-! ### A lane group that stands behind another entry (R212) -/

/-- The map of lane groups lists group 0 twice, which no canonical map does: first releasing position 3 from the spare, then with
position 3 on the spare. -/
def doubledGroup : State :=
  { State.reset with slk := [(0, { spare := some (true, 3) }), (0, { spareFor := some 3 })] }

/-- R212: the match leaves the first entry as after reset, so that it is no longer listed, and the second holds its position. -/
theorem doubledGroup_keeps_position : ((doubledGroup.spareMatch 0).grp 0).spareFor = some 3 := by decide +kernel

/-- Refutes O29: the release ends with a match, and the group still has a position on the spare. The clause on SPARE_MATCH lacks that
the lane groups are in canonical form. -/
theorem not_spareAndClockComplete : ¬ Obligations.SpareAndClockComplete := by
  rintro ⟨-, ended, -⟩
  have inv : doubledGroup.Inv := ⟨rfl, rfl, fun _ h => absurd h List.not_mem_nil⟩
  obtain ⟨⟨t, next, -, released, -⟩, -⟩ := ended 0 true 3 doubledGroup inv (by decide)
  obtain rfl : doubledGroup.spareMatch 0 = t := Host.Outcome.next.inj next
  exact absurd (doubledGroup_keeps_position.symm.trans released) nofun

end Sys2Proof.Machine
end

section
/-! SUPPORT. The magazine writer's registers (R266) after the block's own operations, and the writer beside a register's write. -/

namespace Sys2Proof.Machine

/-! ### Parts -/

/-- The writer outside the mask. -/
theorem State.Keeps.mag_eq {s t : State} {m : Nat} (h : s.Keeps m t) (w : m.testBit 20 = false := by decide) : t.mag = s.mag :=
  h.frame .mag w

section
variable {s t : State}

/-- A field write leaves the writer. -/
@[simp] theorem State.wr_mag (s : State) (f : Fld) (v : Nat) : (s.wr f v).mag = s.mag :=
  (State.wr_keeps s f v (.refl s 0x8) (.refl _)).mag_eq

/-- An event leaves the writer. -/
@[simp] theorem State.irq_mag (s : State) (b : Nat) (flag en : Fld) : (s.irq b flag en).mag = s.mag :=
  (State.irq_keeps s b flag en (.refl s 0x8) (.refl _)).mag_eq

/-- The control units hold nothing of the writer. -/
theorem State.Beside.mag (h : s.Beside t) : t.mag = s.mag := h.keeps.mag_eq

/-- A port is the same where the writer is. -/
theorem State.magPort_congr (h : t.mag = s.mag) (p : Nat) : t.magPort p = s.magPort p := by rw [State.magPort, h, State.magPort]

/-- New data of the writer carry the invariant over. -/
theorem State.setMag_inv (i : s.Inv) (d : MagState) : (s.setMag d).Inv := ⟨i.mem, i.regs, i.disc⟩

end

/-! ### The registers of the ports -/

section
variable {a b o p lo w lo' w' : Nat}

/-- R266: the registers of the ports come before those of the next block. -/
theorem port_lt (hp : p < 4) (ha : a.ble 0x48017f = true) : a + 0x80 * p < 0x480300 := by
  rw [Nat.ble_eq] at ha
  omega

/-- R266: a port's register is none of discovery's. -/
theorem isDiscovery_port (hp : p < 4) (ha : a.ble 0x48017f = true) : isDiscovery (a + 0x80 * p) = false := by
  have below := port_lt hp ha
  rw [isDiscovery, Bool.and_eq_false_iff, decide_eq_false_iff_not]
  omega

/-- R266: neither a mirror record nor an interrupt touches a port's register. -/
theorem steady_port (hp : p < 4) (ha : a.ble 0x48017f = true) (hb : Nat.ble 0x480100 a = true) :
    Fld.Steady ⟨a + 0x80 * p, lo, w⟩ := by
  have below := port_lt hp ha
  rw [Nat.ble_eq] at hb
  constructor
  · show (a + 0x80 * p) / 0x40000 ≠ 4
    omega
  · show a + 0x80 * p < 0x718000
    omega

/-- R266: a field of the whole block stands apart from a port's. -/
theorem apart_block_port (hb : b.ble 0x4800ff = true) (ha : Nat.ble 0x480100 a = true) :
    Fld.Apart ⟨b, lo, w⟩ ⟨a + 0x80 * p, lo', w'⟩ := by
  rw [Nat.ble_eq] at ha hb
  exact .inl (by dsimp only; omega)

/-- R266: a port's field stands apart from one of the whole block. -/
theorem apart_port_block (hb : b.ble 0x4800ff = true) (ha : Nat.ble 0x480100 a = true) :
    Fld.Apart ⟨a + 0x80 * p, lo, w⟩ ⟨b, lo', w'⟩ := by
  rw [Nat.ble_eq] at ha hb
  exact .inl (by dsimp only; omega)

end

/-! ### What a field reads -/

section
variable {s : State} {f : Fld} {x : Nat}

/-- The writer's data are no register. -/
theorem State.Reads.setMag (h : s.Reads f x) (d : MagState) : (s.setMag d).Reads f x := ⟨State.setMag_inv h.inv d, h.eq⟩

/-- R264: the loss of a port is no register. -/
theorem State.Reads.portLost (h : s.Reads f x) (p : Nat) : (s.portLost p).Reads f x := by
  unfold State.portLost
  split
  · exact h.setMag _
  · exact h

/-- R266: a port's flag leaves what stands apart from it and from PORT_IRQ. -/
theorem State.Reads.magPortIrq (h : s.Reads f x) (flag : Fld) (a : flag.Apart f) (b : F.MAG_STATUS_PORT_IRQ.Apart f)
    (q : f.off < 0x718000) : (s.magPortIrq flag).Reads f x :=
  (h.wr flag 1 a).irq _ _ _ b q

/-- R266: a port's flag is set. -/
theorem State.Reads.portFlagged (i : s.Inv) (flag : Fld) (hd : isDiscovery flag.off = false) (hw : flag.lo + flag.w ≤ 32)
    (b : F.MAG_STATUS_PORT_IRQ.Apart flag) (q : flag.off < 0x718000) : (s.magPortIrq flag).Reads flag (1 % 2 ^ flag.w) :=
  (State.Reads.written i flag 1 hd hw).irq _ _ _ b q

/-- R266: PORT_IRQ is set with a port's flag. -/
theorem State.Reads.portIrqRaised (i : s.Inv) (flag : Fld) : (s.magPortIrq flag).Reads F.MAG_STATUS_PORT_IRQ 1 :=
  State.Reads.raised (State.wr_inv i flag 1) 0x12 F.MAG_STATUS_PORT_IRQ F.MAG_IRQ_EN_PORT_IRQ (by decide) (by decide) (by decide)

/-- R249: the space of a port shows in MAG_P_FREE and SPACE_IRQ. -/
theorem State.Reads.noteFree (h : s.Reads f x) (p : Nat) (a : (F.MAG_P_FREE_MIB p).Apart f) (b : F.MAG_STATUS_SPACE_IRQ.Apart f)
    (q : f.off < 0x718000) : (s.noteFree p).Reads f x := by
  have written (v : Nat) := h.wr (F.MAG_P_FREE_MIB p) v a
  unfold State.noteFree
  extract_lets old new thr u
  split
  · exact (written new).irq _ _ _ b q
  · exact written new

/-- R241: a link that goes down leaves what stands apart from SPEED, WIDTH and the flags. -/
theorem State.Reads.magLinkDown (h : s.Reads f x) (p : Nat) (speed : (F.MAG_P_STATUS_SPEED p).Apart f)
    (width : (F.MAG_P_STATUS_WIDTH p).Apart f) (link : (F.MAG_P_STATUS_LINK_IRQ p).Apart f) (port : F.MAG_STATUS_PORT_IRQ.Apart f)
    (q : f.off < 0x718000) : (s.magLinkDown p).Reads f x := by
  unfold State.magLinkDown
  split
  · exact (((h.wr _ _ speed).wr _ _ width).magPortIrq _ link port q).portLost p
  · exact h

end

end Sys2Proof.Machine
end

section
/-! SUPPORT. The magazine ports' commands (R240 to R244, R247, R249, R266). -/

namespace Sys2Proof.Machine

section
variable {s t : State} {p : Nat}

/-- R240: which ports exist follows MAG_CFG alone. -/
theorem State.magPortExists_congr (h : t.rd F.MAG_CFG_BIFURC = s.rd F.MAG_CFG_BIFURC) (p : Nat) :
    t.magPortExists p = s.magPortExists p := by
  rw [State.magPortExists, h, State.magPortExists]

/-- R244: what HWQ_EN accepts follows the port's configuration and the fabric map. -/
theorem State.Beside.hwqOk (h : s.Beside t) (hp : p < 4) : t.hwqOk p = s.hwqOk p := by
  have field {a lo w : Nat} (ha : a.ble 0x48017f = true) (hb : Nat.ble 0x480100 a = true) :
      t.rd ⟨a + 0x80 * p, lo, w⟩ = s.rd ⟨a + 0x80 * p, lo, w⟩ := h.rd (steady_port hp ha hb)
  have depth : t.qdepth p = s.qdepth p := field rfl rfl
  have lo : t.rd (F.MAG_P_QAREA_LO_ADDR p) = s.rd (F.MAG_P_QAREA_LO_ADDR p) := field rfl rfl
  have hi : t.rd (F.MAG_P_QAREA_HI_ADDR p) = s.rd (F.MAG_P_QAREA_HI_ADDR p) := field rfl rfl
  have shift : t.rd (F.MAG_P_QCFG_LBA_SHIFT p) = s.rd (F.MAG_P_QCFG_LBA_SHIFT p) := field rfl rfl
  have xfer : t.rd (F.MAG_P_QCFG_MAX_XFER p) = s.rd (F.MAG_P_QCFG_MAX_XFER p) := field rfl rfl
  have qid : t.rd (F.MAG_P_QCFG_QID p) = s.rd (F.MAG_P_QCFG_QID p) := field rfl rfl
  simp only [State.hwqOk, State.qareaOk, State.prpPage, State.cqBase, State.qarea, depth, lo, hi, shift, xfer, qid, h.place]

/-! ### Enabling a port and handing it over -/

/-- R240: a write that sets EN alone. -/
theorem State.magCtrl_on {val : Word} (en : (F.MAG_P_CTRL_EN p).of val = 1) (hwq : (F.MAG_P_CTRL_HWQ_EN p).of val = 0)
    (off : s.on (F.MAG_P_CTRL_EN p) = false) (clear : (s.portOn p).on (F.MAG_P_CTRL_HWQ_EN p) = false) :
    s.magCtrl p val = s.portOn p := by
  simp [State.magCtrl, en, hwq, off, clear]

/-- R247: a write that clears EN, HWQ_EN being clear. -/
theorem State.magCtrl_off {val : Word} (en : (F.MAG_P_CTRL_EN p).of val = 0) (hwq : (F.MAG_P_CTRL_HWQ_EN p).of val = 0)
    (on : s.on (F.MAG_P_CTRL_EN p) = true) (clear : (s.portOff p).on (F.MAG_P_CTRL_HWQ_EN p) = false) :
    s.magCtrl p val = s.portOff p := by
  simp [State.magCtrl, en, hwq, on, clear]

/-- R244: a write that sets HWQ_EN alone. -/
theorem State.magCtrl_hwq {val : Word} (en : (F.MAG_P_CTRL_EN p).of val = 1) (hwq : (F.MAG_P_CTRL_HWQ_EN p).of val = 1)
    (on : s.on (F.MAG_P_CTRL_EN p) = true) (clear : s.on (F.MAG_P_CTRL_HWQ_EN p) = false) : s.magCtrl p val = s.hwqSet p := by
  simp [State.magCtrl, en, hwq, on, clear]

/-- R240: a port that is OFF and exists trains once EN is set. -/
theorem State.portOn_off (hs : (s.wr (F.MAG_P_CTRL_EN p) 1).pstate p = 0) (ex : s.magPortExists p = true) :
    s.portOn p = (s.wr (F.MAG_P_CTRL_EN p) 1).wr (F.MAG_P_STATUS_PSTATE p) 1 := by
  have there : (s.wr (F.MAG_P_CTRL_EN p) 1).magPortExists p = true :=
    (State.magPortExists_congr (State.rd_wr_off (by show 0x480000 ≠ 0x480100 + 0x80 * p; omega)) p).trans ex
  simp [State.portOn, hs, there]

/-- R247: while a port's shutdown starts, what stands apart from PSTATE reads as after the two enables are cleared. -/
theorem State.Reads.portOff {f : Fld} {x : Nat}
    (h : ((s.wr (F.MAG_P_CTRL_EN p) 0).wr (F.MAG_P_STATUS_PENDING_ENABLE p) 0).Reads f x)
    (a : (F.MAG_P_STATUS_PSTATE p).Apart f) : (s.portOff p).Reads f x := by
  unfold State.portOff
  extract_lets u v
  split
  · exact h
  · refine State.Reads.wr ?_ _ _ a
    unfold v
    split
    · exact h.portLost p
    · exact h

/-- R247: a port that is not OFF is SHUTTING_DOWN once EN is cleared. -/
theorem State.portOff_shuts (i : s.Inv) (hp : p < 4) (hs : s.pstate p ≠ 0) : (s.portOff p).Reads (F.MAG_P_STATUS_PSTATE p) 7 := by
  have state : ((s.wr (F.MAG_P_CTRL_EN p) 0).wr (F.MAG_P_STATUS_PENDING_ENABLE p) 0).Reads (F.MAG_P_STATUS_PSTATE p) (s.pstate p) :=
    ((State.Reads.self i _).wr _ _ (Fld.apart_row rfl)).wr _ _ (Fld.apart_row rfl)
  unfold State.portOff
  extract_lets u v
  split
  · next there => exact ⟨state.inv, there.resolve_left fun off => hs (state.eq.symm.trans off)⟩
  · have iv : v.Inv := by
      unfold v
      split
      · exact (state.portLost p).inv
      · exact state.inv
    exact State.Reads.written iv _ 7 (isDiscovery_port hp rfl) (Nat.le_of_ble_eq_true rfl)

/-- R244, R266: the port given to the writer, before its space is noted. -/
def State.portHanded (s : State) (p : Nat) : State :=
  (((s.setMagPort p { lost := (s.magPort p).lost }).wr (F.MAG_P_CTRL_HWQ_EN p) 1).wr (F.MAG_P_EXT_POS_INDEX p) 0).wr
    (F.MAG_P_STATUS_PSTATE p) 3

/-- R244, R266: a port in LINK whose configuration is accepted is handed to the writer. -/
theorem State.hwqSet_link (ok : s.hwqOk p = true) (link : s.Reads (F.MAG_P_STATUS_PSTATE p) 2) :
    s.hwqSet p = (s.portHanded p).noteFree p := by
  have linked := (((link.setMag { s.mag with ports := KMap.set (fun _ => {}) s.mag.ports p { lost := (s.magPort p).lost } }).wr
    (F.MAG_P_CTRL_HWQ_EN p) 1 (Fld.apart_row rfl)).wr (F.MAG_P_EXT_POS_INDEX p) 0 (Fld.apart_row rfl)).eq
  have ready : ¬ (!s.hwqOk p) = true := by rw [ok]; exact Bool.false_ne_true
  rw [State.hwqSet, if_neg ready]
  exact congrArg (State.noteFree · p) (if_pos (.inl linked))

/-- R244: the port's registers as it is given to the writer. -/
theorem State.portHanded_reads (i : s.Inv) (hp : p < 4) :
    (s.portHanded p).Reads (F.MAG_P_CTRL_HWQ_EN p) 1 ∧ (s.portHanded p).Reads (F.MAG_P_STATUS_PSTATE p) 3 ∧
      (s.portHanded p).Reads (F.MAG_P_EXT_POS_INDEX p) 0 := by
  have given := State.Reads.written (State.setMag_inv i
      { s.mag with ports := KMap.set (fun _ => {}) s.mag.ports p { lost := (s.magPort p).lost } })
    (F.MAG_P_CTRL_HWQ_EN p) 1 (isDiscovery_port hp rfl) (Nat.le_of_ble_eq_true rfl)
  have start := State.Reads.written given.inv (F.MAG_P_EXT_POS_INDEX p) 0 (isDiscovery_port hp rfl) (Nat.le_of_ble_eq_true rfl)
  exact ⟨(given.wr _ _ (Fld.apart_row rfl)).wr _ _ (Fld.apart_row rfl),
    State.Reads.written start.inv _ 3 (isDiscovery_port hp rfl) (Nat.le_of_ble_eq_true rfl), start.wr _ _ (Fld.apart_row rfl)⟩

/-- R266: the writer's data of the port, cleared but for the magazine lost. -/
theorem State.portHanded_mag :
    (s.portHanded p).mag.ports = KMap.set (fun _ => {}) s.mag.ports p { lost := (s.magPort p).lost } := by
  rw [State.portHanded, State.wr_mag, State.wr_mag, State.wr_mag]
  rfl

end

section
variable {src : Agent} {p : Fin 4} {val : Word} {s : State}

/-- R240: MAG_PORT_ENABLE of a port that is OFF completes. -/
theorem magPortEnable_on_completes (i : s.Inv) (hg : s.Passes src (F.MAG_P_CTRL_EN p)) (hq : s.rd (F.MAG_P_CTRL_HWQ_EN p) = 0)
    (off : s.rd (F.MAG_P_CTRL_EN p) = 0) (en : (F.MAG_P_CTRL_EN p).of val = 1) (hwq : (F.MAG_P_CTRL_HWQ_EN p).of val = 0)
    (hs : s.pstate p = 0) (ex : s.magPortExists p = true) :
    Completes (.magPortEnable src p val) s fun t => t.rd (F.MAG_P_CTRL_EN p) = 1 ∧ t.pstate p = 1 := by
  refine write_completes hg rfl fun m t before after => ?_
  have im := before.inv i
  have ctrl : (F.MAG_P_CTRL_EN p).Steady := steady_port p.isLt rfl rfl
  have status : (F.MAG_P_STATUS_PSTATE p).Steady := steady_port p.isLt rfl rfl
  have apart : (F.MAG_P_CTRL_EN p).Apart (F.MAG_P_STATUS_PSTATE p) := Fld.apart_row rfl
  have enabled := (State.Reads.written im (F.MAG_P_CTRL_EN p) 1 (isDiscovery_port p.isLt rfl) (Nat.le_of_ble_eq_true rfl)).wr
    (F.MAG_P_STATUS_PSTATE p) 1 (Fld.apart_row rfl)
  have trains := State.Reads.written (State.wr_inv im (F.MAG_P_CTRL_EN p) 1) (F.MAG_P_STATUS_PSTATE p) 1
    (isDiscovery_port p.isLt rfl) (Nat.le_of_ble_eq_true rfl)
  have started : m.portOn p = (m.wr (F.MAG_P_CTRL_EN p) 1).wr (F.MAG_P_STATUS_PSTATE p) 1 :=
    State.portOn_off ((State.rd_wr_apart im apart).trans ((before.rd status).trans hs))
      ((State.magPortExists_congr (before.rd (by decide)) p).trans ex)
  have clear : (m.portOn p).rd (F.MAG_P_CTRL_HWQ_EN p) = 0 := by
    have unset : m.Reads (F.MAG_P_CTRL_HWQ_EN p) 0 := ⟨im, (before.rd (steady_port p.isLt rfl rfl)).trans hq⟩
    rw [started, ((unset.wr (F.MAG_P_CTRL_EN p) 1 (Fld.apart_row rfl)).wr (F.MAG_P_STATUS_PSTATE p) 1 (Fld.apart_row rfl)).eq]
  rw [State.magCtrl_on en hwq (State.on_of_rd_zero ((before.rd ctrl).trans off)) (State.on_of_rd_zero clear), started] at after
  exact ⟨after.reads enabled ctrl, after.reads trains status⟩

/-- R247: MAG_PORT_ENABLE that clears EN completes. -/
theorem magPortEnable_off_completes (i : s.Inv) (hg : s.Passes src (F.MAG_P_CTRL_EN p)) (hq : s.rd (F.MAG_P_CTRL_HWQ_EN p) = 0)
    (on : s.rd (F.MAG_P_CTRL_EN p) = 1) (en : (F.MAG_P_CTRL_EN p).of val = 0) (hwq : (F.MAG_P_CTRL_HWQ_EN p).of val = 0)
    (hs : s.pstate p ≠ 0) :
    Completes (.magPortEnable src p val) s fun t => t.rd (F.MAG_P_CTRL_EN p) = 0 ∧ t.pstate p = 7 := by
  refine write_completes hg rfl fun m t before after => ?_
  have im := before.inv i
  have ctrl : (F.MAG_P_CTRL_EN p).Steady := steady_port p.isLt rfl rfl
  have status : (F.MAG_P_STATUS_PSTATE p).Steady := steady_port p.isLt rfl rfl
  have unset : m.Reads (F.MAG_P_CTRL_HWQ_EN p) 0 := ⟨im, (before.rd (steady_port p.isLt rfl rfl)).trans hq⟩
  have disabled := State.Reads.written im (F.MAG_P_CTRL_EN p) 0 (isDiscovery_port p.isLt rfl) (Nat.le_of_ble_eq_true rfl)
  have left : (m.portOff p).Reads (F.MAG_P_CTRL_HWQ_EN p) 0 :=
    ((unset.wr _ _ (Fld.apart_row rfl)).wr _ _ (Fld.apart_row rfl)).portOff (Fld.apart_row rfl)
  rw [State.magCtrl_off en hwq (State.on_of_rd_one ((before.rd ctrl).trans on)) (State.on_of_rd_zero left.eq)] at after
  exact ⟨after.reads ((disabled.wr _ _ (Fld.apart_row rfl)).portOff (Fld.apart_row rfl)) ctrl,
    after.reads (State.portOff_shuts im p.isLt (by rwa [State.pstate, before.rd status])) status⟩

/-- R244, R266: HWQ_EN completes. -/
theorem hwqEn_completes (i : s.Inv) (hg : s.Passes src (F.MAG_P_CTRL_EN p)) (hq : s.rd (F.MAG_P_CTRL_HWQ_EN p) = 0)
    (on : s.rd (F.MAG_P_CTRL_EN p) = 1) (en : (F.MAG_P_CTRL_EN p).of val = 1) (ok : s.hwqOk p = true) (hs : s.pstate p = 2) :
    Completes (.hwqEn src p val) s fun t =>
      t.rd (F.MAG_P_CTRL_HWQ_EN p) = 1 ∧ t.pstate p = 3 ∧ t.rd (F.MAG_P_EXT_POS_INDEX p) = 0 ∧
      t.mag.ports = KMap.set (fun _ => {}) s.mag.ports p { lost := (s.magPort p).lost } := by
  refine write_completes hg rfl fun m t before after => ?_
  have ctrl : (F.MAG_P_CTRL_EN p).Steady := steady_port p.isLt rfl rfl
  have status : (F.MAG_P_STATUS_PSTATE p).Steady := steady_port p.isLt rfl rfl
  have hwq : (F.MAG_P_CTRL_HWQ_EN p).Steady := steady_port p.isLt rfl rfl
  have pos : (F.MAG_P_EXT_POS_INDEX p).Steady := steady_port p.isLt rfl rfl
  have handed := State.hwqSet_link (p := p) ((before.hwqOk p.isLt).trans ok) ⟨before.inv i, (before.rd status).trans hs⟩
  obtain ⟨given, ready, start⟩ := State.portHanded_reads (p := p) (before.inv i) p.isLt
  have other : (F.MAG_P_CTRL_EN p).of 0x40000000 = 0 := show Fld.of ⟨0, 31, 1⟩ 0x40000000 = 0 by decide
  have kept : (F.MAG_P_CTRL_EN p).of (val ||| 0x40000000) = 1 := (Fld.of_or_zero val other).trans en
  have asked : (F.MAG_P_CTRL_HWQ_EN p).of (val ||| 0x40000000) = 1 :=
    Fld.of_or_one rfl val (show Fld.of ⟨0, 30, 1⟩ 0x40000000 = 1 by decide)
  rw [State.magCtrl_hwq kept asked (State.on_of_rd_one ((before.rd ctrl).trans on))
    (State.on_of_rd_zero ((before.rd hwq).trans hq)), handed] at after
  have writer := (State.noteFree_keeps _ p (.refl (m.portHanded p) 0x8) (.refl _)).mag_eq
  exact ⟨after.reads (given.noteFree p (Fld.apart_row rfl) (apart_block_port rfl rfl) hwq.2) hwq,
    after.reads (ready.noteFree p (Fld.apart_row rfl) (apart_block_port rfl rfl) status.2) status,
    after.reads (start.noteFree p (Fld.apart_row rfl) (apart_block_port rfl rfl) pos.2) pos,
    by rw [after.mag, writer, State.portHanded_mag, State.magPort_congr before.mag, before.mag]⟩

end

end Sys2Proof.Machine
end

section
/-! SUPPORT. The end of a port's shutdown, its link, a magazine's requests, its configuration space and its extents. -/

namespace Sys2Proof.Machine

section
variable {p : Fin 4} {s : State}

/-! ### The end of a shutdown -/

/-- R247: a shutdown waits for the commands outstanding. -/
theorem State.magShutdownEnd_waits (h : (s.magPort p).out ≠ []) : s.magShutdownEnd p = s := by
  simp [State.magShutdownEnd, h]

/-- R241, R247: the port as its shutdown ends, its link down and nothing left to submit. -/
def State.shutPort (s : State) (p : Nat) : State := (s.setMagPort p { s.magPort p with todo := [] }).magLinkDown p

/-- R247: once no command is outstanding, a shutdown ends in ABSENT or in OFF, by the pending enable. -/
theorem State.magShutdownEnd_ends (hs : s.pstate p = 7) (h : (s.magPort p).out = []) :
    s.magShutdownEnd p = if (s.shutPort p).on (F.MAG_P_STATUS_PENDING_ENABLE p) then
      ((s.shutPort p).wr (F.MAG_P_STATUS_PENDING_ENABLE p) 0).wr (F.MAG_P_STATUS_PSTATE p) 1
      else (s.shutPort p).wr (F.MAG_P_STATUS_PSTATE p) 0 := by
  simp [State.magShutdownEnd, State.shutPort, hs, h]

/-- R241: SPEED reads 0 once the link is down. -/
theorem State.magLinkDown_speed (i : s.Inv) : (s.magLinkDown p).Reads (F.MAG_P_STATUS_SPEED p) 0 := by
  have written := State.Reads.written i (F.MAG_P_STATUS_SPEED p) 0 (isDiscovery_port p.isLt rfl) (Nat.le_of_ble_eq_true rfl)
  unfold State.magLinkDown
  split
  · exact ((written.wr _ _ (Fld.apart_row rfl)).magPortIrq _ (Fld.apart_row rfl) (apart_block_port rfl rfl)
      (steady_port p.isLt rfl rfl).2).portLost p
  · next down =>
    rw [State.on, bne_iff_ne, not_not] at down
    exact ⟨i, down⟩

/-- R241, R266: a link that goes down sets LINK_IRQ and PORT_IRQ. -/
theorem State.magLinkDown_flags (i : s.Inv) (up : s.rd (F.MAG_P_STATUS_SPEED p) ≠ 0) :
    (s.magLinkDown p).Reads (F.MAG_P_STATUS_LINK_IRQ p) 1 ∧ (s.magLinkDown p).Reads F.MAG_STATUS_PORT_IRQ 1 := by
  have iw := State.wr_inv (State.wr_inv i (F.MAG_P_STATUS_SPEED p) 0) (F.MAG_P_STATUS_WIDTH p) 0
  rw [State.magLinkDown, if_pos (show s.on (F.MAG_P_STATUS_SPEED p) = true from bne_iff_ne.mpr up)]
  exact ⟨(State.Reads.portFlagged iw _ (isDiscovery_port p.isLt rfl) (Nat.le_of_ble_eq_true rfl) (apart_block_port rfl rfl)
    (steady_port p.isLt rfl rfl).2).portLost p, (State.Reads.portIrqRaised iw _).portLost p⟩

/-- R247: MAG_SHUTDOWN_END completes. -/
theorem magShutdownEnd_completes (i : s.Inv) (hs : s.pstate p = 7) (h : (s.magPort p).out = []) :
    Completes (.magShutdownEnd p) s fun t =>
      t.pstate p = (if s.rd (F.MAG_P_STATUS_PENDING_ENABLE p) = 1 then 1 else 0) ∧ t.rd (F.MAG_P_STATUS_SPEED p) = 0 ∧
      t.rd (F.MAG_P_STATUS_PENDING_ENABLE p) = 0 ∧
      (s.rd (F.MAG_P_STATUS_SPEED p) ≠ 0 → t.rd (F.MAG_P_STATUS_LINK_IRQ p) = 1 ∧ t.rd F.MAG_STATUS_PORT_IRQ = 1) := by
  have idle : (s.setMagPort p { s.magPort p with todo := [] }).Inv := State.setMag_inv i _
  have pending : (s.shutPort p).Reads (F.MAG_P_STATUS_PENDING_ENABLE p) (s.rd (F.MAG_P_STATUS_PENDING_ENABLE p)) :=
    ((State.Reads.self i _).setMag _).magLinkDown p (Fld.apart_row rfl) (Fld.apart_row rfl) (Fld.apart_row rfl)
      (apart_block_port rfl rfl) (steady_port p.isLt rfl rfl).2
  have speed : (s.shutPort p).Reads (F.MAG_P_STATUS_SPEED p) 0 := State.magLinkDown_speed idle
  have flags (up : s.rd (F.MAG_P_STATUS_SPEED p) ≠ 0) :
      (s.shutPort p).Reads (F.MAG_P_STATUS_LINK_IRQ p) 1 ∧ (s.shutPort p).Reads F.MAG_STATUS_PORT_IRQ 1 :=
    State.magLinkDown_flags idle up
  have state (u : State) (iu : u.Inv) (v : Nat) := State.Reads.written iu (F.MAG_P_STATUS_PSTATE p) v
    (isDiscovery_port p.isLt rfl) (Nat.le_of_ble_eq_true rfl)
  refine ⟨_, congrArg Host.Outcome.next (State.magShutdownEnd_ends hs h), ?_⟩
  by_cases en : s.rd (F.MAG_P_STATUS_PENDING_ENABLE p) = 1
  · have cleared := State.Reads.written pending.inv (F.MAG_P_STATUS_PENDING_ENABLE p) 0 (isDiscovery_port p.isLt rfl)
      (Nat.le_of_ble_eq_true rfl)
    rw [if_pos (State.on_of_rd_one (pending.eq.trans en)), if_pos en]
    exact ⟨(state _ cleared.inv 1).eq, ((speed.wr _ _ (Fld.apart_row rfl)).wr _ _ (Fld.apart_row rfl)).eq,
      (cleared.wr _ _ (Fld.apart_row rfl)).eq, fun up =>
        ⟨(((flags up).1.wr _ _ (Fld.apart_row rfl)).wr _ _ (Fld.apart_row rfl)).eq,
          (((flags up).2.wr _ _ (apart_port_block rfl rfl)).wr _ _ (apart_port_block rfl rfl)).eq⟩⟩
  · have none : s.rd (F.MAG_P_STATUS_PENDING_ENABLE p) = 0 := by
      have bit : s.rd (F.MAG_P_STATUS_PENDING_ENABLE p) < 2 := s.rd_lt _
      omega
    simp only [State.on_of_rd_zero (pending.eq.trans none), en, Bool.false_eq_true, if_false]
    exact ⟨(state _ pending.inv 0).eq, (speed.wr _ _ (Fld.apart_row rfl)).eq,
      ((pending.wr _ _ (Fld.apart_row rfl)).eq).trans none, fun up =>
        ⟨((flags up).1.wr _ _ (Fld.apart_row rfl)).eq, ((flags up).2.wr _ _ (apart_port_block rfl rfl)).eq⟩⟩

/-! ### Links -/

section
variable {speed : Fin 5} {width : Fin 17}

/-- R241: a link that trains to no speed, to no width or to more lanes than the port has does not come up. -/
theorem State.magLink_refused (h : speed.val = 0 ∨ width.val = 0 ∨ s.magLanes < width) : s.magLink p true speed width = s := by
  have no : ¬ (s.pstate p = 1 ∧ 1 ≤ speed.val ∧ 1 ≤ width.val ∧ width.val ≤ s.magLanes) := by omega
  simp [State.magLink, no]

/-- R241: MAG_LINK_CHANGE of a link that comes up completes. -/
theorem magLinkChange_up_completes (i : s.Inv) (hs : s.pstate p = 1) (hv : speed.val ≠ 0) (hw : width.val ≠ 0)
    (fits : width ≤ s.magLanes) :
    Completes (.magLinkChange p true speed width) s fun t =>
      t.pstate p = 2 ∧ t.rd (F.MAG_P_STATUS_SPEED p) = speed ∧ t.rd (F.MAG_P_STATUS_WIDTH p) = width ∧
      t.rd (F.MAG_P_STATUS_LINK_IRQ p) = 1 := by
  have up : s.magLink p true speed width = (((s.wr (F.MAG_P_STATUS_SPEED p) speed).wr (F.MAG_P_STATUS_WIDTH p) width).wr
      (F.MAG_P_STATUS_PSTATE p) 2).magPortIrq (F.MAG_P_STATUS_LINK_IRQ p) := by
    simp [State.magLink, hs, Nat.one_le_iff_ne_zero, hv, hw, fits]
  have fast := State.Reads.written i (F.MAG_P_STATUS_SPEED p) speed (isDiscovery_port p.isLt rfl) (Nat.le_of_ble_eq_true rfl)
  have wide := State.Reads.written fast.inv (F.MAG_P_STATUS_WIDTH p) width (isDiscovery_port p.isLt rfl)
    (Nat.le_of_ble_eq_true rfl)
  have linked := State.Reads.written wide.inv (F.MAG_P_STATUS_PSTATE p) 2 (isDiscovery_port p.isLt rfl) (Nat.le_of_ble_eq_true rfl)
  have flagged {lo w x : Nat} (h : State.Reads (((s.wr (F.MAG_P_STATUS_SPEED p) speed).wr (F.MAG_P_STATUS_WIDTH p) width).wr
      (F.MAG_P_STATUS_PSTATE p) 2) ⟨0x480104 + 0x80 * p, lo, w⟩ x)
      (a : (F.MAG_P_STATUS_LINK_IRQ p).Apart ⟨0x480104 + 0x80 * p, lo, w⟩) :=
    (h.magPortIrq (F.MAG_P_STATUS_LINK_IRQ p) a (apart_block_port rfl rfl) (steady_port p.isLt rfl rfl).2).eq
  refine ⟨_, congrArg Host.Outcome.next up, flagged linked (Fld.apart_row rfl), ?_, ?_, ?_⟩
  · exact (flagged ((fast.wr _ _ (Fld.apart_row rfl)).wr _ _ (Fld.apart_row rfl)) (Fld.apart_row rfl)).trans
      (Nat.mod_eq_of_lt (show speed.val < 8 by omega))
  · exact (flagged (wide.wr _ _ (Fld.apart_row rfl)) (Fld.apart_row rfl)).trans
      (Nat.mod_eq_of_lt (show width.val < 32 by omega))
  · exact (State.Reads.portFlagged linked.inv _ (isDiscovery_port p.isLt rfl) (Nat.le_of_ble_eq_true rfl)
      (apart_block_port rfl rfl) (steady_port p.isLt rfl rfl).2).eq

/-- R241: MAG_LINK_CHANGE of a link that goes completes. -/
theorem magLinkChange_down_completes (i : s.Inv) (up : s.rd (F.MAG_P_STATUS_SPEED p) ≠ 0) (hs : s.pstate p ≠ 7) :
    Completes (.magLinkChange p false speed width) s fun t =>
      t.pstate p = 1 ∧ t.rd (F.MAG_P_STATUS_SPEED p) = 0 ∧ t.rd (F.MAG_P_STATUS_LINK_IRQ p) = 1 := by
  have down : s.magLink p false speed width = (s.magLinkDown p).wr (F.MAG_P_STATUS_PSTATE p) 1 := by
    simp [State.magLink, State.on, up, hs]
  have slow := State.magLinkDown_speed (p := p) i
  obtain ⟨flag, -⟩ := State.magLinkDown_flags i up
  exact ⟨_, congrArg Host.Outcome.next down,
    (State.Reads.written slow.inv _ 1 (isDiscovery_port p.isLt rfl) (Nat.le_of_ble_eq_true rfl)).eq,
    (slow.wr _ _ (Fld.apart_row rfl)).eq, (flag.wr _ _ (Fld.apart_row rfl)).eq⟩

end

/-! ### A magazine's requests -/

section
variable {addr : BitVec 64} {len : BitVec 12} {bytes : List Byte}

/-- R242: a write that may reach memory stores its bytes. -/
theorem inboundRequest_write_completes (up : s.rd (F.MAG_P_STATUS_SPEED p) ≠ 0)
    (ha : addr.toNat < 0xFEE00000 ∨ 0xFEEFFFFF < addr.toNat) (ok : s.magInboundOk addr.toNat bytes.length = true) :
    Completes (.inboundRequest p true addr len bytes) s fun t =>
      t.mem = (s.setBytes addr.toNat bytes).mem ∧ t.regs = s.regs := by
  have stored : s.inbound p true addr.toNat len.toNat bytes = s.setBytes addr.toNat bytes := by
    have none : ¬ (0xFEE00000 ≤ addr.toNat ∧ addr.toNat ≤ 0xFEEFFFFF) := by omega
    simp [State.inbound, State.on, up, none, ok]
  exact ⟨_, congrArg Host.Outcome.next stored, rfl, (State.setBytes_keeps s _ bytes (.refl s 0x10) (.refl _)).regs_eq⟩

/-- R242: a read that may reach memory returns its bytes. -/
theorem inboundRequest_read_completes (up : s.rd (F.MAG_P_STATUS_SPEED p) ≠ 0)
    (ok : s.magInboundOk addr.toNat len.toNat = true) :
    Completes (.inboundRequest p false addr len bytes) s fun t =>
      t.readData = s.physRead addr.toNat len.toNat ∧ t.mem = s.mem ∧ t.regs = s.regs := by
  have read : s.inbound p false addr.toNat len.toNat bytes = s.setReadData (s.physRead addr.toNat len.toNat) := by
    simp [State.inbound, State.on, up, ok]
  exact ⟨_, congrArg Host.Outcome.next read, rfl, rfl, rfl⟩

/-- R242: a write of the message range raises a message. -/
theorem inboundRequest_message_completes (i : s.Inv) (up : s.rd (F.MAG_P_STATUS_SPEED p) ≠ 0)
    (lo : 0xFEE00000 ≤ addr.toNat) (hi : addr.toNat ≤ 0xFEEFFFFF) :
    Completes (.inboundRequest p true addr len bytes) s fun t =>
      t.rd (F.MAG_P_STATUS_MSG_IRQ p) = 1 ∧ t.rd F.MAG_STATUS_PORT_IRQ = 1 ∧ t.mem = s.mem := by
  have message : s.inbound p true addr.toNat len.toNat bytes = s.magPortIrq (F.MAG_P_STATUS_MSG_IRQ p) := by
    simp [State.inbound, State.on, up, lo, hi]
  exact ⟨_, congrArg Host.Outcome.next message,
    (State.Reads.portFlagged i _ (isDiscovery_port p.isLt rfl) (Nat.le_of_ble_eq_true rfl) (apart_block_port rfl rfl)
      (steady_port p.isLt rfl rfl).2).eq, (State.Reads.portIrqRaised i _).eq,
    (State.magPortIrq_keeps s _ (.refl s 0x8) (.refl _)).mem_eq⟩

end

/-! ### Configuration space and extents -/

/-- R241, R266: a configuration read takes its answer. -/
theorem magPCfga_completes {src : Agent} {val w : Word} (i : s.Inv) (hg : s.Passes src (F.MAG_P_CFGA_WRITE p))
    (read : (F.MAG_P_CFGA_WRITE p).of val = 0) (up : s.rd (F.MAG_P_STATUS_SPEED p) ≠ 0) :
    Completes (.magPCfga src p val (some w)) s fun t => t.rd (F.MAG_P_CFGD_DATA p) = w.toNat := by
  refine write_completes hg rfl fun m t before after => ?_
  have steady : (F.MAG_P_STATUS_SPEED p).Steady := steady_port p.isLt rfl rfl
  have there : m.rd (F.MAG_P_STATUS_SPEED p) ≠ 0 := by rwa [before.rd steady]
  have answered : m.magCfga p val (some w) = m.wr (F.MAG_P_CFGD_DATA p) w.toNat := by
    simp [State.magCfga, State.on, read, there]
  rw [answered] at after
  exact (after.reads (State.Reads.written (before.inv i) _ _ (isDiscovery_port p.isLt rfl) (Nat.le_refl 32))
    (steady_port p.isLt rfl rfl)).trans (Nat.mod_eq_of_lt w.isLt)

/-- R249: a raise of an extent count takes effect. -/
theorem extCountWrite_completes {src : Agent} {val : Word} (i : s.Inv) (hg : s.Passes src (F.MAG_P_EXT_COUNT_COUNT p))
    (more : s.rd (F.MAG_P_EXT_COUNT_COUNT p) < (F.MAG_P_EXT_COUNT_COUNT p).of val) :
    Completes (.extCountWrite src p val) s fun t => t.rd (F.MAG_P_EXT_COUNT_COUNT p) = (F.MAG_P_EXT_COUNT_COUNT p).of val := by
  refine write_completes hg rfl fun m t before after => ?_
  have steady : (F.MAG_P_EXT_COUNT_COUNT p).Steady := steady_port p.isLt rfl rfl
  have raised : m.extCount p val =
      (m.wr (F.MAG_P_EXT_COUNT_COUNT p) ((F.MAG_P_EXT_COUNT_COUNT p).of val)).noteFree p :=
    if_pos (by rwa [before.rd steady])
  rw [raised] at after
  exact (after.reads ((State.Reads.written (before.inv i) _ _ (isDiscovery_port p.isLt rfl) (Nat.le_of_ble_eq_true rfl)).noteFree p
    (Fld.apart_row rfl) (apart_block_port rfl rfl) steady.2) steady).trans (Nat.mod_eq_of_lt (Fld.get_lt _ _))

end

/-- Settles O30 (R240 to R244, R247, R249, R266), command by command. That EXT_POS restarts at HWQ_EN is the model's choice (log entry
44), and so is that a shutdown's end with commands outstanding and a link that cannot come up change nothing (log entry 6). -/
theorem magazinePortsComplete : Obligations.MagazinePortsComplete := by
  refine ⟨fun src p val s i hg hq => ⟨?_, ?_, ?_⟩, fun p s i hs => ⟨?_, fun h => ?_⟩, fun p speed width s i => ⟨?_, ?_, ?_⟩,
    fun p addr len bytes s i up => ⟨?_, ?_, ?_⟩, fun src p val w s i hg read up => magPCfga_completes i hg read up,
    fun src p val s i hg more => extCountWrite_completes i hg more⟩
  · exact fun off en hwq hs ex => magPortEnable_on_completes i hg hq off en hwq hs ex
  · exact fun on en hwq hs => magPortEnable_off_completes i hg hq on en hwq hs
  · exact fun on en ok hs => hwqEn_completes i hg hq on en ok hs
  · exact fun h => magShutdownEnd_completes i hs h
  · exact ⟨s, congrArg Host.Outcome.next (State.magShutdownEnd_waits h), rfl, rfl⟩
  · exact fun _ h => ⟨s, congrArg Host.Outcome.next (State.magLink_refused h), rfl, rfl⟩
  · exact fun hs hv hw fits => magLinkChange_up_completes i hs hv hw fits
  · exact fun up hs => magLinkChange_down_completes i up hs
  · exact fun ha ok => inboundRequest_write_completes up ha ok
  · exact fun ok => inboundRequest_read_completes up ok
  · exact fun lo hi => inboundRequest_message_completes i up lo hi

end Sys2Proof.Machine
end

section
/-! SUPPORT. What the writer's operations on records, ports and gaps leave of a take (R249 to R265). -/

namespace Sys2Proof.Machine

section
variable {s t : State}

/-- The power data outside the mask. -/
theorem State.Keeps.pwr_eq {m : Nat} (h : s.Keeps m t) (w : m.testBit 26 = false := by decide) : t.pwr = s.pwr :=
  h.frame .pwr w

/-- An operation that touches no register leaves what a field reads. -/
theorem State.Reads.keeps {m x : Nat} {f : Fld} (h : s.Reads f x) (k : s.Keeps m t) (w : m.testBit 3 = false := by decide) :
    t.Reads f x :=
  ⟨k.inv h.inv, by rw [State.rd, State.reg, k.regs_eq w]; exact h.eq⟩

/-- R251: taking and giving back blocks changes the writer's list of the blocks in use alone. -/
theorem State.setUsed_mag (s : State) (u : List Nat) : (s.setUsed u).mag = { s.mag with used := u } := by
  simp only [State.setUsed, State.noteRing, State.wr_mag]
  rfl

/-- R251, R265: a frame discarded into a gap record changes the inputs and the blocks in use alone. -/
theorem State.gapFrame_mag (s : State) (f : MagFrame) (reason : Nat) :
    ∃ ins used, (s.gapFrame f reason).mag = { s.mag with ins := ins, used := used } := by
  unfold State.gapFrame State.giveBlocks
  extract_lets v other
  exact ⟨_, _, by rw [State.setMagIn, State.setMag_mag, State.setUsed_mag]⟩

/-- The inputs' map is written in canonical form, and an input that keeps its frame in progress changes no input's. -/
theorem State.setMagIn_cur (wf : KMap.wf (fun _ => {}) s.mag.ins = true) {i : Nat} {v : MagIn} (hv : v.cur = (s.magIn i).cur)
    (j : Nat) : ((s.setMagIn i v).magIn j).cur = (s.magIn j).cur := by
  show (KMap.get _ (KMap.set _ s.mag.ins i v) j).cur = _
  by_cases e : j = i
  · subst e
    rw [KMap.get_set_same _ _ 0 _ _ wf, hv]
  · rw [KMap.get_set_other _ _ _ _ _ e, State.magIn]

end

/-! ### What stays of a take -/

/-- What the writer's operations on records leave of a take: the frames that wait, the ports lost, the frames in progress; and of a
take that is not RECORDING also TAKE_STATE and REASON. -/
structure State.SameTake (s t : State) : Prop where
  /-- Only a take that is RECORDING stops. -/
  stopped : ∀ x, x ≠ 1 → s.Reads F.MAG_STATUS_TAKE_STATE x →
    t.Reads F.MAG_STATUS_TAKE_STATE x ∧ t.mag.reason = s.mag.reason
  /-- The frames to drain. -/
  done : t.mag.done = s.mag.done
  /-- ABORT. -/
  aborting : t.mag.aborting = s.mag.aborting
  /-- The ports lost. -/
  lostPorts : t.mag.lostPorts = s.mag.lostPorts
  /-- The frames in progress. -/
  cur : KMap.wf (fun _ => {}) s.mag.ins = true →
    KMap.wf (fun _ => {}) t.mag.ins = true ∧ ∀ i, (t.magIn i).cur = (s.magIn i).cur

section
variable {s0 s t : State}

/-- Nothing done. -/
theorem State.SameTake.refl (s : State) : s.SameTake s := ⟨fun _ _ r => ⟨r, rfl⟩, rfl, rfl, rfl, fun w => ⟨w, fun _ => rfl⟩⟩

/-- One operation after another. -/
theorem State.SameTake.trans (h : s0.SameTake s) (k : s.SameTake t) : s0.SameTake t where
  stopped x hx r :=
    have first := h.stopped x hx r
    have second := k.stopped x hx first.1
    ⟨second.1, second.2.trans first.2⟩
  done := k.done.trans h.done
  aborting := k.aborting.trans h.aborting
  lostPorts := k.lostPorts.trans h.lostPorts
  cur w :=
    have first := h.cur w
    have second := k.cur first.1
    ⟨second.1, fun i => (second.2 i).trans (first.2 i)⟩

/-- An operation that leaves the writer's data and TAKE_STATE. -/
theorem State.SameTake.kept (h : s0.SameTake s) (m : t.mag = s.mag)
    (r : ∀ x, s.Reads F.MAG_STATUS_TAKE_STATE x → t.Reads F.MAG_STATUS_TAKE_STATE x) : s0.SameTake t :=
  h.trans ⟨fun x _ k => ⟨r x k, by rw [m]⟩, by rw [m], by rw [m], by rw [m],
    fun w => ⟨by rwa [m], fun i => by rw [State.magIn, m, State.magIn]⟩⟩

/-- A write beside TAKE_STATE. -/
theorem State.SameTake.wr (h : s0.SameTake s) (f : Fld) (v : Nat) (a : f.Apart F.MAG_STATUS_TAKE_STATE := by decide) :
    s0.SameTake (s.wr f v) :=
  h.kept (s.wr_mag f v) fun _ r => r.wr f v a

/-- An event. -/
theorem State.SameTake.irq (h : s0.SameTake s) (b : Nat) (flag en : Fld) (a : flag.Apart F.MAG_STATUS_TAKE_STATE := by decide) :
    s0.SameTake (s.irq b flag en) :=
  h.kept (s.irq_mag b flag en) fun _ r => r.irq b flag en a

/-- Bytes written to memory. -/
theorem State.SameTake.setBytes (h : s0.SameTake s) (a : Nat) (l : List Byte) : s0.SameTake (s.setBytes a l) :=
  h.kept (s.setBytes_keeps_self a l).mag_eq fun _ r => r.keeps (s.setBytes_keeps_self a l)

/-- Data of the writer other than a take's. -/
theorem State.SameTake.setMag (h : s0.SameTake s) (d : MagState) (reason : d.reason = s.mag.reason) (done : d.done = s.mag.done)
    (aborting : d.aborting = s.mag.aborting) (lost : d.lostPorts = s.mag.lostPorts) (ins : d.ins = s.mag.ins) :
    s0.SameTake (s.setMag d) :=
  h.trans ⟨fun _ _ r => ⟨r.setMag d, reason⟩, done, aborting, lost,
    fun w => ⟨by rwa [State.setMag_mag, ins], fun i => by rw [State.magIn, State.setMag_mag, ins, State.magIn]⟩⟩

/-- An input that keeps its frame in progress. -/
theorem State.SameTake.setMagIn (h : s0.SameTake s) (i : Nat) (v : MagIn) (hv : v.cur = (s.magIn i).cur) :
    s0.SameTake (s.setMagIn i v) :=
  h.trans ⟨fun _ _ r => ⟨r.setMag _, rfl⟩, rfl, rfl, rfl, fun w => ⟨KMap.set_wf _ _ _ _ w, State.setMagIn_cur w hv⟩⟩

/-- A port's data. -/
theorem State.SameTake.setMagPort (h : s0.SameTake s) (p : Nat) (v : MagPort) : s0.SameTake (s.setMagPort p v) :=
  h.setMag _ rfl rfl rfl rfl rfl

/-- An operation for each member of a list. -/
theorem State.SameTake.each {α : Type} {f : α → State → State} (h : s0.SameTake s)
    (hf : ∀ a t, s0.SameTake t → s0.SameTake (f a t)) (l : List α) : s0.SameTake (s.each l f) :=
  State.each_induct (P := fun t => s0.SameTake t) hf l h

/-! ### The ports and the ring -/

/-- R251: blocks taken or given back. -/
theorem State.SameTake.setUsed (h : s0.SameTake s) (u : List Nat) : s0.SameTake (s.setUsed u) :=
  ((h.setMag { s.mag with used := u } rfl rfl rfl rfl rfl).wr F.MAG_RING_FREE_BLOCKS _).wr F.MAG_RING_LOW_BLOCKS _

/-- R251: a record that no port needs frees its blocks. -/
theorem State.SameTake.retireRecs (h : s0.SameTake s) : s0.SameTake s.retireRecs :=
  (h.setMag { s.mag with recs := s.mag.recs.filter (fun r => !r.need.isEmpty) } rfl rfl rfl rfl rfl).setUsed _

/-- R249: the space of a port. -/
theorem State.SameTake.noteFree (h : s0.SameTake s) (p : Nat) : s0.SameTake (s.noteFree p) := by
  have written (v : Nat) := h.wr (F.MAG_P_FREE_MIB p) v (apart_port_block rfl rfl)
  unfold State.noteFree
  extract_lets old new thr u
  split
  · exact (written new).irq _ _ _
  · exact written new

/-- R267: a port's status. -/
theorem State.SameTake.magPortStatus (h : s0.SameTake s) (p code : Nat) : s0.SameTake (s.magPortStatus p code) :=
  (h.wr (F.MAG_P_STATUS_STATUS p) code (apart_port_block rfl rfl)).wr F.MAG_STATUS_STATUS code

/-- R261: only a take that is RECORDING stops. -/
theorem State.SameTake.stopTake (h : s0.SameTake s) (reason : Nat) : s0.SameTake (s.stopTake reason) := by
  unfold State.stopTake
  split
  · next recording =>
    refine ⟨fun x hx r => absurd ((h.stopped x hx r).1.eq.symm.trans recording) hx, ?_, ?_, ?_, fun w => ?_⟩
    all_goals simp only [State.magIn, State.wr_mag, State.setMag_mag]
    · exact h.done
    · exact h.aborting
    · exact h.lostPorts
    · exact h.cur w
  · exact h

/-- R265: a port becomes FULL. -/
theorem State.SameTake.portFull (h : s0.SameTake s) (p code : Nat) : s0.SameTake (s.portFull p code) := by
  have full := (h.wr (F.MAG_P_STATUS_PSTATE p) 5 (apart_port_block rfl rfl)).magPortStatus p code
  have flagged : s0.SameTake (if code = 0x1206 then
      ((s.wr (F.MAG_P_STATUS_PSTATE p) 5).magPortStatus p code).magPortIrq (F.MAG_P_STATUS_ERR_IRQ p)
      else (s.wr (F.MAG_P_STATUS_PSTATE p) 5).magPortStatus p code) := by
    split
    · exact (full.wr (F.MAG_P_STATUS_ERR_IRQ p) 1 (apart_port_block rfl rfl)).irq _ _ _
    · exact full
  unfold State.portFull
  extract_lets u v
  split
  · exact flagged.stopTake 4
  · exact flagged

/-! ### Records -/

/-- R249: a record assigned to a port. -/
theorem State.SameTake.assignTo (h : s0.SameTake s) (p : Nat) (r : MagRec) (reserve : Bool) :
    s0.SameTake (s.assignTo p r reserve).2 := by
  unfold State.assignTo
  split
  · exact h.portFull p _
  · exact h.portFull p _
  · exact ((h.setMagPort p _).wr (F.MAG_P_EXT_POS_INDEX p) _ (apart_port_block rfl rfl)).noteFree p

/-- R254: a record that ports must acknowledge. -/
theorem State.SameTake.addRec (h : s0.SameTake s) (r : MagRec) (ports : List Nat) : s0.SameTake (s.addRec r ports) := by
  unfold State.addRec
  split
  · exact h.setMag _ rfl rfl rfl rfl rfl
  · exact h.setMag _ rfl rfl rfl rfl rfl

/-- R245: commands submitted. -/
theorem State.SameTake.submitAll (p fuel : Nat) : ∀ {s : State}, s0.SameTake s → s0.SameTake (s.submitAll p fuel) := by
  induction fuel with
  | zero => exact fun h => h
  | succ fuel ih =>
    intro s h
    unfold State.submitAll
    extract_lets v
    split
    · exact h
    · split
      · exact h
      · split
        · exact h
        · exact ih (((h.setBytes _ _).setBytes _ _).setMagPort p _)

/-- R254: a record assigned to each of some ports. -/
theorem State.SameTake.assignEach (h : s0.SameTake s) (ports : List Nat) (r : MagRec) (reserve : Bool) :
    s0.SameTake (s.assignEach ports r reserve).2 := by
  unfold State.assignEach
  extract_lets a
  have assigned : s0.SameTake a.2 := List.foldlRecOn ports _ (motive := fun a : List Nat × State => s0.SameTake a.2) h
    fun a k p _ => k.assignTo p r reserve
  show s0.SameTake (if _ then _ else _)
  split
  · exact assigned
  · exact (assigned.addRec r a.1).each (fun p _ k => State.SameTake.submitAll p _ k) a.1

/-- R254: a frame record assigned to the best set of ports. -/
theorem State.SameTake.assignFrame (r : MagRec) (fuel : Nat) :
    ∀ {s : State}, s0.SameTake s → s0.SameTake (s.assignFrame r fuel).2 := by
  induction fuel with
  | zero => exact fun h => h
  | succ fuel ih =>
    intro s h
    unfold State.assignFrame
    split
    · exact h
    · split
      · exact h.assignEach _ r true
      · refine ih (h.each (fun p t k => ?_) _)
        split
        · exact k.portFull p _
        · exact k

/-- R254, R255: a small record queued. -/
theorem State.SameTake.queueSmall (h : s0.SameTake s) (rtype stream : Nat) (body : List Byte) (closing : Bool) :
    s0.SameTake (s.queueSmall rtype stream body closing).2 := by
  unfold State.queueSmall
  extract_lets q m r a
  have assigned : s0.SameTake a.2 := (h.wr F.MAG_REC_SEQ_SEQ _).assignEach _ r _
  show s0.SameTake (if _ then _ else _)
  split
  · exact assigned.wr F.MAG_REC_SEQ_SEQ _
  · exact assigned

/-- R259: gap records queued. -/
theorem State.SameTake.queueGaps (h : s0.SameTake s) (stream : Nat) (closing : Bool) (gs : List MagGap) :
    s0.SameTake (s.queueGaps stream closing gs).2 :=
  List.foldlRecOn gs _ (motive := fun a : List MagGap × State => s0.SameTake a.2) h fun _ k _ _ => k.queueSmall 3 stream _ closing

/-- R252, R265: the gap records that wait. -/
theorem State.SameTake.flushGaps (h : s0.SameTake s) : s0.SameTake s.flushGaps := by
  unfold State.flushGaps
  refine h.each (fun i t k => ?_) _
  extract_lets g
  have queued : s0.SameTake g.2 := k.queueGaps (t.mag.streams.getD i 0) true (t.magIn i).gaps
  exact queued.setMagIn i { g.2.magIn i with gaps := g.1 } rfl

/-- R262, R265: a frame discarded into a gap record. -/
theorem State.SameTake.gapFrame (h : s0.SameTake s) (f : MagFrame) (reason : Nat) : s0.SameTake (s.gapFrame f reason) := by
  have given : ((s.giveBlocks f.blocks).magIn f.port).cur = (s.magIn f.port).cur := by
    rw [State.magIn, State.giveBlocks, State.setUsed_mag, State.magIn]
  exact (h.setUsed _).setMagIn f.port _ given.symm

/-- R265: a frame that no port can take. -/
theorem State.SameTake.discardFrame (h : s0.SameTake s) (f : MagFrame) : s0.SameTake (s.discardFrame f) := by
  unfold State.discardFrame
  extract_lets t
  have counted : s0.SameTake t := (h.gapFrame f 3).wr F.MAG_OMIT_FRAMES_COUNT _
  exact counted.setMagIn f.port { t.magIn f.port with omitted := (t.magIn f.port).omitted + 1 } rfl

/-- R264, R265: the record of a lost port that no other port takes. -/
theorem State.SameTake.dropRec (h : s0.SameTake s) (r : MagRec) : s0.SameTake (s.dropRec r) := by
  unfold State.dropRec
  split
  · exact h
  · next f _ =>
    extract_lets t
    have discarded : s0.SameTake t := h.discardFrame { f with gaps := [], blocks := [] }
    exact discarded.setMagIn f.port { t.magIn f.port with recorded := (t.magIn f.port).recorded - 1 } rfl

/-- R264: no record waits for a port. -/
theorem State.SameTake.forgetPort (h : s0.SameTake s) (p : Nat) : s0.SameTake (s.forgetPort p) :=
  h.setMag _ rfl rfl rfl rfl rfl

/-- R264: the records of a lost port go to the others. -/
theorem State.SameTake.reassign (h : s0.SameTake s) (p : Nat) : s0.SameTake (s.reassign p) := by
  unfold State.reassign
  extract_lets mine u v
  have moved : s0.SameTake u := (h.forgetPort p).each (fun r t k => by
    have assigned := State.SameTake.assignFrame { r with need := [] } 8 k
    extract_lets a
    split
    · exact assigned
    · exact assigned.dropRec r) mine
  have flushed : s0.SameTake v := by
    unfold v
    split
    · exact moved.flushGaps
    · exact moved
  exact flushed.retireRecs

end

end Sys2Proof.Machine
end

section
/-! SUPPORT. Takes: START, STOP, ABORT, CLOSING and the loss of a port (R261 to R265). -/

namespace Sys2Proof.Machine

/-! ### START -/

section
variable {s : State} {f : Fld} {x : Nat}

/-- An operation for each member sets that member's field, where it leaves the others' set. -/
theorem State.reads_each {op : Nat → State → State} {f : Nat → Fld} {x : Nat} : ∀ {l : List Nat} {s : State}, s.Inv →
    (∀ a ∈ l, ∀ t, t.Inv → (op a t).Reads (f a) x) →
    (∀ a ∈ l, ∀ b, b ≠ a → ∀ t, t.Reads (f b) x → (op a t).Reads (f b) x) →
    ∀ b, b ∈ l ∨ s.Reads (f b) x → (s.each l op).Reads (f b) x
  | [], _, _, _, _, b, h => h.resolve_left List.not_mem_nil
  | a :: l, s, i, sets, keeps, b, h => by
    have first := sets a List.mem_cons_self s i
    refine State.reads_each (s := op a s) first.inv (fun c hc => sets c (List.mem_cons_of_mem _ hc))
      (fun c hc => keeps c (List.mem_cons_of_mem _ hc)) b ?_
    by_cases e : b = a
    · exact .inr (e ▸ first)
    · exact h.imp (fun m => (List.mem_cons.mp m).resolve_left e) fun r => keeps a List.mem_cons_self b e s r

/-- R251: MAG_RING_FREE and MAG_RING_LOW alone follow the blocks in use. -/
theorem State.Reads.noteRing (h : s.Reads f x) (free : F.MAG_RING_FREE_BLOCKS.Apart f) (low : F.MAG_RING_LOW_BLOCKS.Apart f) :
    s.noteRing.Reads f x :=
  (h.wr _ _ free).wr _ _ low

/-- R249, R266: a port enters a take. -/
def State.portIntoTake (p : Nat) (s : State) : State :=
  (s.setMagPort p { s.magPort p with lost := false, lastSeq := 0, bytesAcked := 0, sinceFlush := 0, bad := [] }).wr
    (F.MAG_P_STATUS_PSTATE p) 4

/-- R261: the state as a take starts on its ports, before the counters are cleared. -/
def State.takePortsActive (s : State) (ports : List Nat) : State :=
  (s.each ports State.portIntoTake).each ports fun p s => (s.wr (F.MAG_P_RECS_COUNT p) 0).noteFree p

/-- R261: the counters cleared as a take starts. -/
def State.takeCounters (s : State) : State :=
  (((((s.wr F.MAG_OMIT_FRAMES_COUNT 0).wr F.MAG_OMIT_TILES_COUNT 0).wr F.MAG_EXCESS_TILES_COUNT 0).wr
    F.MAG_RING_LOW_BLOCKS 0xFFFFFFFF).noteRing.wr F.MAG_REC_SEQ_SEQ 0).wr F.MAG_STATUS_TAKE_STATE 1

/-- R261, R266: each port of a take is ACTIVE. -/
theorem State.takePortsActive_reads {ports : List Nat} (i : s.Inv) (four : ∀ p ∈ ports, p < 4) :
    ∀ p ∈ ports, (s.takePortsActive ports).Reads (F.MAG_P_STATUS_PSTATE p) 4 := by
  intro p hp
  have entered : (s.each ports State.portIntoTake).Reads (F.MAG_P_STATUS_PSTATE p) 4 := by
    refine State.reads_each i (fun a ha t it => ?_) (fun a _ b hb t r => ?_) p (.inl hp)
    · exact State.Reads.written (State.setMag_inv it _) (F.MAG_P_STATUS_PSTATE a) 4 (isDiscovery_port (four a ha) rfl)
        (Nat.le_of_ble_eq_true rfl)
    · exact (r.setMag _).wr (F.MAG_P_STATUS_PSTATE a) 4 (.inl (by show 0x480104 + 0x80 * b ≠ 0x480104 + 0x80 * a; omega))
  refine State.each_induct (P := fun t => t.Reads (F.MAG_P_STATUS_PSTATE p) 4) (fun a t r => ?_) _ entered
  exact (r.wr (F.MAG_P_RECS_COUNT a) 0 (.inl (by show 0x480104 + 0x80 * p ≠ 0x480134 + 0x80 * a; omega))).noteFree a
    (.inl (by show 0x480104 + 0x80 * p ≠ 0x480130 + 0x80 * a; omega)) (apart_block_port rfl rfl)
    (steady_port (four p hp) rfl rfl).2

/-- R261: what a take records beside its ports is set once. -/
theorem State.takePortsActive_mag (s : State) (ports : List Nat) :
    (s.takePortsActive ports).mag.takePorts = s.mag.takePorts ∧ (s.takePortsActive ports).mag.mode = s.mag.mode := by
  refine State.each_induct (P := fun t => t.mag.takePorts = s.mag.takePorts ∧ t.mag.mode = s.mag.mode) (fun a t h => ?_) _
    (State.each_induct (P := fun t => t.mag.takePorts = s.mag.takePorts ∧ t.mag.mode = s.mag.mode) (fun a t h => ?_) _ ⟨rfl, rfl⟩)
  · rwa [(State.noteFree_keeps _ a (.refl (t.wr (F.MAG_P_RECS_COUNT a) 0) 0x8) (.refl _)).mag_eq, State.wr_mag]
  · rwa [State.portIntoTake, State.wr_mag]

/-- R261: the counters are no port's registers. -/
theorem State.takeCounters_reads (h : s.Reads f x) (hf : 0x480100 ≤ f.off) : s.takeCounters.Reads f x := by
  have apart {b lo w : Nat} (hb : b.ble 0x4800ff = true) : Fld.Apart ⟨b, lo, w⟩ f := by
    rw [Nat.ble_eq] at hb
    exact .inl (by dsimp only; omega)
  exact (((((h.wr _ _ (apart rfl)).wr _ _ (apart rfl)).wr _ _ (apart rfl)).wr _ _ (apart rfl)).noteRing (apart rfl)
    (apart rfl)).wr _ _ (apart rfl) |>.wr _ _ (apart rfl)

/-- R261: REC_SEQ and OMIT_FRAMES restart, and the take is RECORDING. -/
theorem State.takeCounters_cleared (i : s.Inv) :
    s.takeCounters.Reads F.MAG_STATUS_TAKE_STATE 1 ∧ s.takeCounters.Reads F.MAG_REC_SEQ_SEQ 0 ∧
      s.takeCounters.Reads F.MAG_OMIT_FRAMES_COUNT 0 := by
  have omitted := ((((State.Reads.written i F.MAG_OMIT_FRAMES_COUNT 0).wr F.MAG_OMIT_TILES_COUNT 0).wr
    F.MAG_EXCESS_TILES_COUNT 0).wr F.MAG_RING_LOW_BLOCKS 0xFFFFFFFF).noteRing (by decide) (by decide)
  have seq := State.Reads.written omitted.inv F.MAG_REC_SEQ_SEQ 0
  exact ⟨State.Reads.written seq.inv F.MAG_STATUS_TAKE_STATE 1, seq.wr F.MAG_STATUS_TAKE_STATE 1,
    (omitted.wr F.MAG_REC_SEQ_SEQ 0).wr F.MAG_STATUS_TAKE_STATE 1⟩

/-- R261: the counters are registers. -/
theorem State.takeCounters_mag (s : State) : s.takeCounters.mag = s.mag := by
  simp only [State.takeCounters, State.noteRing, State.wr_mag]

/-- The ports a mask names. -/
def maskPorts (mask : Nat) : List Nat := (List.range 4).filter fun p => mask / 2 ^ p % 2 == 1

/-- R261: what a take begins with in the writer. -/
def State.takeMag (s : State) (n : Node) : MagState :=
  { s.mag with
    ins := [], done := [], recs := [], used := [], takePorts := maskPorts (s.rd F.MAG_TAKE_CFG_PORTS)
    mode := s.rd F.MAG_TAKE_CFG_MODE, lostPorts := [], reason := 0, aborting := false
    user := s.physRead (s.rd F.MAG_USER_ADDR_LO_ADDR * 16 + s.rd F.MAG_USER_ADDR_HI_ADDR * 2 ^ 32) (s.rd F.MAG_USER_LEN_LEN)
    streams := (List.range n.inPorts).map fun i => ((s.image.inEdge n.id i).map fun e => e.stream).getD 0
    imageId := s.rd F.STR_ACTIVE_ID_IMAGE_ID, closeSeq := none }

/-- R261: START of a take that its checks accept. -/
theorem State.magStart_starts {n : Node} (idle : s.take = 0) (node : s.writerNode = some n)
    (mode : takeModeOk (s.rd F.MAG_TAKE_CFG_MODE) (s.rd F.MAG_TAKE_CFG_PORTS) = true) (len : s.rd F.MAG_USER_LEN_LEN ≤ 3968)
    (ready : (maskPorts (s.rd F.MAG_TAKE_CFG_PORTS)).any (fun p =>
      n.res / 2 ^ p % 2 == 0 || s.pstate p != 3 || s.rd (F.MAG_P_EXT_COUNT_COUNT p) == 0) = false) :
    s.magStart = ((s.setMag (s.takeMag n)).takePortsActive (maskPorts (s.rd F.MAG_TAKE_CFG_PORTS))).takeCounters := by
  have accepted : ¬ (!takeModeOk (s.rd F.MAG_TAKE_CFG_MODE) (s.rd F.MAG_TAKE_CFG_PORTS) ||
      decide (3968 < s.rd F.MAG_USER_LEN_LEN) || (maskPorts (s.rd F.MAG_TAKE_CFG_PORTS)).any (fun p =>
        n.res / 2 ^ p % 2 == 0 || s.pstate p != 3 || s.rd (F.MAG_P_EXT_COUNT_COUNT p) == 0)) = true := by
    rw [mode, ready, decide_eq_false (Nat.not_lt.mpr len)]
    exact Bool.false_ne_true
  rw [State.magStart, if_neg (not_not.mpr idle), node]
  exact if_neg accepted

end

end Sys2Proof.Machine
end

section
/-! SUPPORT. MAG_TAKE_CMD completes (R261, R262), and the take closes and ends (R261, R264). -/

namespace Sys2Proof.Machine

section
variable {src : Agent} {s t : State}

/-! ### START and STOP -/

/-- The writer node is the same beside a register's write. -/
theorem State.Beside.writerNode (h : s.Beside t) : t.writerNode = s.writerNode := by
  rw [State.writerNode, State.image, h.keeps.str_eq, State.writerNode, State.image]

/-- The ports of a mask are ports of the module. -/
theorem lt_four_of_mem_maskPorts {mask p : Nat} (h : p ∈ maskPorts mask) : p < 4 := List.mem_range.mp (List.mem_of_mem_filter h)

/-- R261: whether START finds its ports ready is the same beside a register's write. -/
theorem State.Beside.portsReady (h : s.Beside t) (n : Node) (mask : Nat) :
    (maskPorts mask).any (fun p => n.res / 2 ^ p % 2 == 0 || t.pstate p != 3 || t.rd (F.MAG_P_EXT_COUNT_COUNT p) == 0) =
      (maskPorts mask).any (fun p => n.res / 2 ^ p % 2 == 0 || s.pstate p != 3 || s.rd (F.MAG_P_EXT_COUNT_COUNT p) == 0) := by
  rw [Bool.eq_iff_iff, List.any_eq_true, List.any_eq_true]
  refine exists_congr fun p => and_congr_right fun hp => ?_
  have four := lt_four_of_mem_maskPorts hp
  have state : t.rd (F.MAG_P_STATUS_PSTATE p) = s.rd (F.MAG_P_STATUS_PSTATE p) := h.rd (steady_port four rfl rfl)
  have count : t.rd (F.MAG_P_EXT_COUNT_COUNT p) = s.rd (F.MAG_P_EXT_COUNT_COUNT p) := h.rd (steady_port four rfl rfl)
  rw [State.pstate, State.pstate, state, count]

/-- R266: a write of MAG_TAKE_CMD with START alone. -/
theorem State.takeCmd_start (s : State) : s.takeCmd 1 = s.magStart := by
  have bits : F.MAG_TAKE_CMD_START.of 1 = 1 ∧ F.MAG_TAKE_CMD_STOP.of 1 = 0 ∧ F.MAG_TAKE_CMD_ABORT.of 1 = 0 := by decide
  simp only [State.takeCmd, bits, zero_ne_one, if_true, if_false]

/-- R266: a write of MAG_TAKE_CMD with STOP alone. -/
theorem State.takeCmd_stop (s : State) : s.takeCmd 2 = s.stopTake 1 := by
  have bits : F.MAG_TAKE_CMD_START.of 2 = 0 ∧ F.MAG_TAKE_CMD_STOP.of 2 = 1 ∧ F.MAG_TAKE_CMD_ABORT.of 2 = 0 := by decide
  simp only [State.takeCmd, bits, zero_ne_one, if_true, if_false]

/-- R266: a write of MAG_TAKE_CMD with ABORT alone. -/
theorem State.takeCmd_abort (s : State) : s.takeCmd 4 = s.takeAbort := by
  have bits : F.MAG_TAKE_CMD_START.of 4 = 0 ∧ F.MAG_TAKE_CMD_STOP.of 4 = 0 ∧ F.MAG_TAKE_CMD_ABORT.of 4 = 1 := by decide
  simp only [State.takeCmd, bits, zero_ne_one, if_true, if_false]

/-- R261: START completes. -/
theorem start_completes {n : Node} (i : s.Inv) (hg : s.Passes src F.MAG_TAKE_CMD_START) (idle : s.take = 0)
    (node : s.writerNode = some n) (mode : takeModeOk (s.rd F.MAG_TAKE_CFG_MODE) (s.rd F.MAG_TAKE_CFG_PORTS) = true)
    (len : s.rd F.MAG_USER_LEN_LEN ≤ 3968)
    (ready : (maskPorts (s.rd F.MAG_TAKE_CFG_PORTS)).any (fun p =>
      n.res / 2 ^ p % 2 == 0 || s.pstate p != 3 || s.rd (F.MAG_P_EXT_COUNT_COUNT p) == 0) = false) :
    Completes (.start src) s fun t =>
      t.take = 1 ∧ t.rd F.MAG_REC_SEQ_SEQ = 0 ∧ t.rd F.MAG_OMIT_FRAMES_COUNT = 0 ∧
      t.mag.takePorts = maskPorts (s.rd F.MAG_TAKE_CFG_PORTS) ∧ t.mag.mode = s.rd F.MAG_TAKE_CFG_MODE ∧
      ∀ p ∈ maskPorts (s.rd F.MAG_TAKE_CFG_PORTS), t.pstate p = 4 := by
  refine write_completes hg rfl fun m t before after => ?_
  have takeState : m.take = 0 := (before.rd (by decide)).trans idle
  have ports : m.rd F.MAG_TAKE_CFG_PORTS = s.rd F.MAG_TAKE_CFG_PORTS := before.rd (by decide)
  have modes : m.rd F.MAG_TAKE_CFG_MODE = s.rd F.MAG_TAKE_CFG_MODE := before.rd (by decide)
  have length : m.rd F.MAG_USER_LEN_LEN = s.rd F.MAG_USER_LEN_LEN := before.rd (by decide)
  have started := State.magStart_starts takeState (before.writerNode.trans node) (by rwa [ports, modes]) (by rwa [length])
    (by rwa [ports, before.portsReady n])
  rw [State.takeCmd_start, started, ports] at after
  have begun : (m.setMag (m.takeMag n)).Inv := State.setMag_inv (before.inv i) _
  have active := State.takePortsActive_reads begun fun p => lt_four_of_mem_maskPorts (mask := s.rd F.MAG_TAKE_CFG_PORTS)
  have stays := State.each_induct (P := State.Inv) (f := State.portIntoTake)
    (fun p _ k => State.wr_inv (State.setMag_inv k _) (F.MAG_P_STATUS_PSTATE p) 4) (maskPorts (s.rd F.MAG_TAKE_CFG_PORTS)) begun
  have inv : ((m.setMag (m.takeMag n)).takePortsActive (maskPorts (s.rd F.MAG_TAKE_CFG_PORTS))).Inv :=
    State.each_induct (P := State.Inv) (fun p _ k => (State.noteFree_keeps _ p (.refl _ 0x8) (.refl _)).inv
      (State.wr_inv k (F.MAG_P_RECS_COUNT p) 0)) _ stays
  obtain ⟨recording, seq, omitted⟩ := State.takeCounters_cleared inv
  obtain ⟨taken, shape⟩ := State.takePortsActive_mag (m.setMag (m.takeMag n)) (maskPorts (s.rd F.MAG_TAKE_CFG_PORTS))
  refine ⟨after.reads recording (by decide), after.reads seq (by decide), after.reads omitted (by decide), ?_, ?_, fun p hp => ?_⟩
  · rw [after.mag, State.takeCounters_mag, taken, State.setMag_mag, State.takeMag, ports]
  · rw [after.mag, State.takeCounters_mag, shape, State.setMag_mag, State.takeMag, modes]
  · exact after.reads (State.takeCounters_reads (active p hp) (by show 0x480100 ≤ 0x480104 + 0x80 * p; omega))
      (steady_port (lt_four_of_mem_maskPorts hp) rfl rfl)

/-- R262: STOP completes. -/
theorem stop_completes (i : s.Inv) (hg : s.Passes src F.MAG_TAKE_CMD_START) (recording : s.take = 1) :
    Completes (.stop src) s fun t => t.take = 2 ∧ t.mag.reason = 1 := by
  refine write_completes hg rfl fun m t before after => ?_
  have running : m.take = 1 := (before.rd (by decide)).trans recording
  rw [State.takeCmd_stop, State.stopTake, if_pos running] at after
  exact ⟨after.reads (State.Reads.written (State.setMag_inv (before.inv i) _) F.MAG_STATUS_TAKE_STATE 2) (by decide),
    by rw [after.mag, State.wr_mag, State.setMag_mag]⟩

/-! ### CLOSING -/

/-- R261, R265: a take that enters CLOSING, before its state shows it. -/
def State.closingQueued (s : State) : State :=
  (s.flushGaps.queueSmall 4 0xFFFF (s.flushGaps.closeBody (s.flushGaps.rd F.MAG_REC_SEQ_SEQ)) true).2

/-- R261: the state and the closing record's number follow. -/
theorem State.enterClosing_eq (s : State) :
    s.enterClosing = (s.closingQueued.setMag { s.closingQueued.mag with
      closeSeq := some (s.flushGaps.rd F.MAG_REC_SEQ_SEQ) }).wr F.MAG_STATUS_TAKE_STATE 3 := by
  simp only [State.enterClosing, State.closingQueued]

/-- R261: the records queued leave what stands of a take. -/
theorem State.sameTake_closingQueued (s : State) : s.SameTake s.closingQueued := (State.SameTake.refl s).flushGaps.queueSmall _ _ _ _

/-- R261: the take is CLOSING. -/
theorem State.enterClosing_take (i : s.Inv) : s.enterClosing.Reads F.MAG_STATUS_TAKE_STATE 3 := by
  have queued : s.Keeps 0x100018 s.closingQueued :=
    State.queueSmall_keeps _ _ _ _ _ (State.flushGaps_keeps s (.refl s 0x100018) (.refl _)) (.refl _)
  rw [State.enterClosing_eq]
  exact State.Reads.written (State.setMag_inv (queued.inv i) _) F.MAG_STATUS_TAKE_STATE 3

/-- R261: CLOSING of a take whose frames are queued completes. -/
theorem closing_enters_completes (i : s.Inv) (stopping : s.take = 2) (drained : s.mag.done = [])
    (complete : ∀ i < 8, (s.magIn i).cur = none) (acked : s.mag.aborting = false ∨ s.mag.recs = []) :
    Completes .closing s fun t => t.take = 3 ∧ t.mag.closeSeq.isSome = true := by
  have idle : (List.range 8).all (fun i => (s.magIn i).cur.isNone) = true :=
    List.all_eq_true.mpr fun i hi => by rw [complete i (List.mem_range.mp hi)]; rfl
  have queued : (!s.mag.aborting || s.mag.recs.isEmpty) = true := by
    rcases acked with h | h
    · rw [h]; rfl
    · rw [h]; exact Bool.or_true _
  have enters : s.closing = s.enterClosing := by
    rw [State.closing, if_pos stopping, drained, idle, queued]
    rfl
  exact ⟨_, congrArg Host.Outcome.next enters, (State.enterClosing_take i).eq,
    by rw [State.enterClosing_eq, State.wr_mag, State.setMag_mag]; rfl⟩

end

end Sys2Proof.Machine
end

section
/-! SUPPORT. ABORT, the end of a take and the loss of a port (R261, R262, R264); O32. -/

namespace Sys2Proof.Machine

section
variable {src : Agent} {s t : State}

/-! ### ABORT -/

/-- R262: an input gives up its frame in progress. -/
def State.dropInput (i : Nat) (s : State) : State := s.setMagIn i { s.magIn i with cur := none, omitting := false }

/-- R262: ABORT with every input's frame in progress and every frame that waits given up. -/
def State.abortInputs (s : State) : State :=
  (s.setMag { s.mag with done := [], reason := 2, aborting := true }).each (List.range 8) State.dropInput

/-- R262: the frames given up go into gap records. -/
def State.abortGaps (s : State) : State :=
  s.abortInputs.each (s.mag.done ++ (List.range 8).filterMap fun i => (s.magIn i).cur) fun f s => s.gapFrame f 2

/-- R262: an aborted take that waits for no record enters CLOSING at once. -/
theorem State.takeAbort_eq (h : s.take = 1 ∨ s.take = 2) :
    s.takeAbort = if (s.abortGaps.wr F.MAG_STATUS_TAKE_STATE 2).mag.recs.isEmpty then
      (s.abortGaps.wr F.MAG_STATUS_TAKE_STATE 2).enterClosing else s.abortGaps.wr F.MAG_STATUS_TAKE_STATE 2 := by
  rw [State.takeAbort, if_neg (by omega)]
  simp only [State.abortGaps, State.abortInputs]
  rfl

/-- R262: given up, the inputs alone differ. -/
theorem State.abortInputs_mag (s : State) :
    ∃ ins, s.abortInputs.mag = { s.mag with done := [], reason := 2, aborting := true, ins := ins } :=
  State.each_induct (P := fun t => ∃ ins, t.mag = { s.mag with done := [], reason := 2, aborting := true, ins := ins })
    (fun i t ⟨_, h⟩ => ⟨KMap.set (fun _ => {}) t.mag.ins i { t.magIn i with cur := none, omitting := false },
      by rw [State.dropInput, State.setMagIn, State.setMag_mag, h]⟩) _ ⟨s.mag.ins, rfl⟩

/-- R262: given up, an input has no frame in progress, and no other input gets one. -/
theorem State.dropInputs_cur : ∀ (l : List Nat) {s : State}, KMap.wf (fun _ => {}) s.mag.ins = true →
    KMap.wf (fun _ => {}) (s.each l State.dropInput).mag.ins = true ∧
      ∀ i, i ∈ l ∨ (s.magIn i).cur = none → ((s.each l State.dropInput).magIn i).cur = none
  | [], _, wf => ⟨wf, fun _ h => h.resolve_left List.not_mem_nil⟩
  | a :: l, s, wf => by
    obtain ⟨kept, none⟩ := State.dropInputs_cur l (s := State.dropInput a s) (KMap.set_wf _ _ _ _ wf)
    refine ⟨kept, fun i h => none i ?_⟩
    by_cases e : i = a
    · subst e
      exact .inr (by rw [State.dropInput, State.magIn, State.setMagIn, State.setMag_mag, KMap.get_set_same _ _ 0 _ _ wf])
    · refine h.imp (fun m => (List.mem_cons.mp m).resolve_left e) fun idle => ?_
      rwa [State.dropInput, State.magIn, State.setMagIn, State.setMag_mag, KMap.get_set_other _ _ _ _ _ e]

/-- R262: the gap records change no record, and REASON is ABORTED. -/
theorem State.abortGaps_mag (s : State) : s.abortGaps.mag.recs = s.mag.recs ∧ s.abortGaps.mag.reason = 2 := by
  obtain ⟨ins, given⟩ := s.abortInputs_mag
  refine State.each_induct (P := fun t => t.mag.recs = s.mag.recs ∧ t.mag.reason = 2) (fun f t h => ?_) _
    (by rw [given]; exact ⟨rfl, rfl⟩)
  obtain ⟨ins, used, gap⟩ := t.gapFrame_mag f 2
  rwa [gap]

/-- R262: the gap records leave what stands of the take. -/
theorem State.sameTake_abortGaps (s : State) : s.abortInputs.SameTake s.abortGaps :=
  (State.SameTake.refl s.abortInputs).each (fun f _ k => k.gapFrame f 2) _

/-- R262: the invariant stands while the frames are given up. -/
theorem State.abortGaps_inv (i : s.Inv) : s.abortGaps.Inv := by
  have given : s.abortInputs.Inv := State.each_induct (P := State.Inv) (fun _ _ k => State.setMag_inv k _) _ (State.setMag_inv i _)
  exact State.each_induct (P := State.Inv) (fun f t k => (State.gapFrame_keeps t f 2 (.refl t 0x100008) (.refl _)).inv k) _ given

/-- R262: a take that is aborted: REASON is ABORTED, its records are kept, and no frame is left. -/
structure State.Aborted (s t : State) : Prop where
  /-- REASON. -/
  reason : t.mag.reason = 2
  /-- ABORT. -/
  aborting : t.mag.aborting = true
  /-- The frames to drain. -/
  done : t.mag.done = []
  /-- The frames in progress. -/
  cur : KMap.wf (fun _ => {}) s.mag.ins = true → ∀ i < 8, (t.magIn i).cur = none

/-- R262: the inputs' map is in canonical form while the frames are given up. -/
theorem State.abortGaps_wf (wf : KMap.wf (fun _ => {}) s.mag.ins = true) : KMap.wf (fun _ => {}) s.abortGaps.mag.ins = true :=
  have given := State.dropInputs_cur (List.range 8) (s := s.setMag { s.mag with done := [], reason := 2, aborting := true }) wf
  (s.sameTake_abortGaps.cur given.1).1

/-- R262: the frames given up, the take is aborted. -/
theorem State.abortGaps_aborted (s : State) : s.Aborted s.abortGaps := by
  obtain ⟨ins, given⟩ := s.abortInputs_mag
  have gaps := s.sameTake_abortGaps
  refine ⟨s.abortGaps_mag.2, by rw [gaps.aborting, given], by rw [gaps.done, given], fun wf i hi => ?_⟩
  obtain ⟨kept, none⟩ := State.dropInputs_cur (List.range 8)
    (s := s.setMag { s.mag with done := [], reason := 2, aborting := true }) wf
  exact ((gaps.cur kept).2 i).trans (none i (.inl (List.mem_range.mpr hi)))

/-- R262: the writer's data decide. -/
theorem State.Aborted.congr (h : s.Aborted t) {u : State} (m : u.mag = t.mag) : s.Aborted u :=
  ⟨by rw [m, h.reason], by rw [m, h.aborting], by rw [m, h.done], fun wf i hi => by rw [State.magIn, m]; exact h.cur wf i hi⟩

/-- R261, R262: an aborted take that is STOPPING is aborted as it enters CLOSING. -/
theorem State.Aborted.enterClosing (h : s.Aborted t) (stopping : t.Reads F.MAG_STATUS_TAKE_STATE 2)
    (wf : KMap.wf (fun _ => {}) s.mag.ins = true → KMap.wf (fun _ => {}) t.mag.ins = true) : s.Aborted t.enterClosing := by
  have queued := t.sameTake_closingQueued
  rw [State.enterClosing_eq]
  refine ⟨?_, ?_, ?_, fun w i hi => ?_⟩
  all_goals simp only [State.magIn, State.wr_mag, State.setMag_mag]
  · exact (queued.stopped 2 (by decide) stopping).2.trans h.reason
  · exact queued.aborting.trans h.aborting
  · exact queued.done.trans h.done
  · exact ((queued.cur (wf w)).2 i).trans (h.cur w i hi)

/-- R262: what ABORT leaves. -/
theorem State.takeAbort_aborts (i : s.Inv) (h : s.take = 1 ∨ s.take = 2) :
    s.takeAbort.Reads F.MAG_STATUS_TAKE_STATE (if s.mag.recs = [] then 3 else 2) ∧ s.Aborted s.takeAbort := by
  have stopping := State.Reads.written (State.abortGaps_inv i) F.MAG_STATUS_TAKE_STATE 2
  have aborted := s.abortGaps_aborted.congr (s.abortGaps.wr_mag F.MAG_STATUS_TAKE_STATE 2)
  have recs : (s.abortGaps.wr F.MAG_STATUS_TAKE_STATE 2).mag.recs = s.mag.recs := by rw [State.wr_mag, s.abortGaps_mag.1]
  by_cases empty : s.mag.recs = []
  · rw [State.takeAbort_eq h, if_pos (by rw [recs, empty]; rfl), if_pos empty]
    exact ⟨State.enterClosing_take stopping.inv, aborted.enterClosing stopping fun w => by
      rw [State.wr_mag]; exact State.abortGaps_wf w⟩
  · rw [State.takeAbort_eq h, if_neg (by rwa [recs, List.isEmpty_iff]), if_neg empty]
    exact ⟨stopping, aborted⟩

/-- R262: TAKE_ABORT completes. -/
theorem takeAbort_completes (i : s.Inv) (hg : s.Passes src F.MAG_TAKE_CMD_START) (h : s.take = 1 ∨ s.take = 2) :
    Completes (.takeAbort src) s fun t =>
      t.take = (if s.mag.recs = [] then 3 else 2) ∧ t.mag.reason = 2 ∧ t.mag.aborting = true ∧ t.mag.done = [] ∧
      (KMap.wf (fun _ => {}) s.mag.ins = true → ∀ i < 8, (t.magIn i).cur = none) := by
  refine write_completes hg rfl fun m t before after => ?_
  have take : m.take = s.take := before.rd (by decide)
  obtain ⟨state, aborted⟩ := State.takeAbort_aborts (before.inv i) (by rwa [take])
  rw [State.takeCmd_abort] at after
  obtain ⟨reason, aborting, done, cur⟩ := aborted.congr after.mag
  rw [before.mag] at state cur
  exact ⟨after.reads state (by decide), reason, aborting, done, cur⟩

/-! ### The end of a take -/

/-- R261, R263: the state as a take ends, before TAKE_STATE shows it. -/
def State.takeLeft (s : State) : State :=
  ((s.each s.mag.takePorts fun p s => if s.pstate p = 4 then s.wr (F.MAG_P_STATUS_PSTATE p) 3 else s).setMag
    { (s.each s.mag.takePorts fun p s => if s.pstate p = 4 then s.wr (F.MAG_P_STATUS_PSTATE p) 3 else s).mag with
      ins := [], done := [], recs := [], takePorts := [], streams := [], closeSeq := none }).ringStart

/-- R251, R263: with the delay ring every block is free. -/
theorem State.ringStart_mag (s : State) :
    ∃ base blocks, s.ringStart.mag = { s.mag with ringBase := base, ringBlocks := blocks, used := [] } := by
  unfold State.ringStart
  split
  · exact ⟨_, _, State.setUsed_mag _ _⟩
  · exact ⟨_, _, State.setUsed_mag _ _⟩

/-- R261: the end of a take is one of registers and of the writer. -/
theorem State.takeLeft_keeps (s : State) : s.Keeps 0x100008 s.takeLeft := by
  refine State.ringStart_keeps _ (State.setMag_keeps _ (State.each_keeps _ (fun p t k => ?_) _ s (.refl s 0x100008))
    ((Within.refl _).of (by decide))) (.refl _)
  split
  · exact State.wr_keeps t _ _ k ((Within.refl _).of (by decide))
  · exact k

/-- R261: no warm reset waits for the take that ends. -/
theorem State.endTake_idle (h : s.pwr.warmWait = none) :
    s.endTake = (s.takeLeft.wr F.MAG_STATUS_TAKE_STATE 0).irq 0x12 F.MAG_STATUS_TAKE_IRQ F.MAG_IRQ_EN_TAKE_IRQ := by
  have ended : s.endTake =
      ((s.takeLeft.wr F.MAG_STATUS_TAKE_STATE 0).irq 0x12 F.MAG_STATUS_TAKE_IRQ F.MAG_IRQ_EN_TAKE_IRQ).warmIfWaiting := by
    simp only [State.endTake, State.takeLeft]
  have power := (State.irq_keeps _ 0x12 F.MAG_STATUS_TAKE_IRQ F.MAG_IRQ_EN_TAKE_IRQ
    (State.wr_keeps _ F.MAG_STATUS_TAKE_STATE 0 s.takeLeft_keeps ((Within.refl _).of (by decide)))
    ((Within.refl _).of (by decide))).pwr_eq
  rw [ended, State.warmIfWaiting, power, h]

/-- R261, R264: CLOSING of a take whose records are acknowledged completes. -/
theorem closing_ends_completes (i : s.Inv) (closing : s.take = 3) (acked : s.mag.recs = [])
    (idle : (s.portsIn 4 ++ s.portsIn 5).all (fun p => (s.magPort p).todo.isEmpty && (s.magPort p).out.isEmpty) = true)
    (warm : s.pwr.warmWait = none) :
    Completes .closing s fun t =>
      t.take = 0 ∧ t.rd F.MAG_STATUS_TAKE_IRQ = 1 ∧ t.mag.takePorts = [] ∧ t.mag.used = [] := by
  have ends : s.closing = s.endTake := by
    rw [State.closing, if_neg (by omega), if_pos closing]
    simp only [acked, idle, List.isEmpty_nil, Bool.and_self, if_true]
  have left := State.wr_inv (s.takeLeft_keeps.inv i) F.MAG_STATUS_TAKE_STATE 0
  obtain ⟨base, blocks, ring⟩ := State.ringStart_mag _
  refine ⟨_, (congrArg Host.Outcome.next ends).trans (congrArg _ (State.endTake_idle warm)), ?_, ?_, ?_, ?_⟩
  · exact ((State.Reads.written (s.takeLeft_keeps.inv i) F.MAG_STATUS_TAKE_STATE 0).irq _ _ _).eq
  · exact (State.Reads.raised left 0x12 F.MAG_STATUS_TAKE_IRQ _ (by decide) (by decide) (by decide)).eq
  · rw [State.irq_mag, State.wr_mag, State.takeLeft, ring]; rfl
  · rw [State.irq_mag, State.wr_mag, State.takeLeft, ring]

/-! ### The loss of a port -/

/-- A field of a register written with what differs from its reset value leaves the fields beside it, in any register file. -/
theorem State.rd_wr_unset {f g : Fld} {v : Nat} (hd : isDiscovery f.off = false) (same : g.off = f.off)
    (beside : g.lo + g.w ≤ f.lo ∨ f.lo + f.w ≤ g.lo) (hw : f.lo + f.w ≤ 32) (set : f.get (regReset f.off) ≠ v % 2 ^ f.w) :
    (s.wr f v).rd g = s.rd g := by
  have other : f.put (s.reg f.off) v ≠ regReset f.off := fun e => set (by rw [← e, Fld.get_put_same _ _ _ hw])
  have read : (s.wr f v).reg f.off = f.put (s.reg f.off) v := by
    rw [State.wr, State.setReg, hd]
    exact KMap.get_set_ne _ _ _ _ other
  rw [State.rd, same, read, Fld.get_put_other _ _ _ _ beside, State.rd, same]

/-- R267: the status of a port that is lost changes no port's PSTATE. -/
theorem State.magPortStatus_pstate (s : State) (p : Fin 4) (q : Nat) : (s.magPortStatus p 0x1202).pstate q = s.pstate q := by
  have reset : ∀ p : Fin 4, (F.MAG_P_STATUS_STATUS p).get (regReset (F.MAG_P_STATUS_STATUS p).off) ≠ 0x1202 % 2 ^ 16 := by decide
  have port : (s.wr (F.MAG_P_STATUS_STATUS p) 0x1202).pstate q = s.pstate q := by
    by_cases e : q = p
    · subst e
      exact State.rd_wr_unset (isDiscovery_port p.isLt rfl) rfl (.inl (by show 0 + 3 ≤ 16; decide)) (Nat.le_refl 32) (reset p)
    · exact State.rd_wr_off (by show 0x480104 + 0x80 * q ≠ 0x480104 + 0x80 * p.val; omega)
  exact (State.rd_wr_off (by show 0x480104 + 0x80 * q ≠ 0x480004; omega)).trans port

/-- R264: the state as a port is known to be lost. -/
def State.portGone (s : State) (p : Nat) : State :=
  let u := s.setMagPort p { s.magPort p with lost := false, todo := [] }
  (u.setMag { u.mag with lostPorts := u.mag.lostPorts ++ [p] }).magPortStatus p 0x1202

/-- R254: the other port of a port's pair. -/
def pairPartner (p : Nat) : Nat := if p % 2 = 0 then p + 1 else p - 1

/-- R264: where a port is left ACTIVE, the take goes on: in a pair by the partner, else with the records assigned anew. -/
theorem State.magLost_eq {p : Nat} (lost : (s.magPort p).lost = true) (taking : s.take ≠ 0)
    (left : ((s.portGone p).portsIn 4).isEmpty = false) :
    s.magLost p = (if (s.portGone p).mag.mode = 1 ∧ (s.portGone p).pstate (pairPartner p) = 4 then
      ((s.portGone p).forgetPort p).retireRecs else ((s.portGone p).stopTake 3).reassign p) := by
  have flag : ¬ (!(s.magPort p).lost) = true := by rw [lost]; exact Bool.false_ne_true
  have take : ¬ (s.setMagPort p { s.magPort p with lost := false, todo := [] }).take = 0 := taking
  have occupied : ¬ ((s.portGone p).portsIn 4).isEmpty = true := by rw [left]; exact Bool.false_ne_true
  rw [State.magLost, if_neg flag, if_neg take]
  exact if_neg occupied

/-- R264: MAG_LOST of a port that leaves one ACTIVE completes. -/
theorem magLost_completes {p : Fin 4} (lost : (s.magPort p).lost = true) (taking : s.take ≠ 0) (left : s.portsIn 4 ≠ []) :
    Completes (.magLost p) s fun t => t.mag.lostPorts = s.mag.lostPorts ++ [p.val] := by
  have mag : (s.portGone p).mag.takePorts = s.mag.takePorts ∧ (s.portGone p).mag.lostPorts = s.mag.lostPorts ++ [p.val] := by
    simp only [State.portGone, State.magPortStatus, State.magStatus, State.wr_mag, State.setMag_mag, State.setMagPort, and_self]
  have ports : (s.portGone p).portsIn 4 = s.portsIn 4 := by
    rw [State.portsIn, mag.1, State.portsIn]
    exact List.filter_congr fun q _ => congrArg (· == 4) (State.magPortStatus_pstate _ p q)
  refine ⟨_, congrArg Host.Outcome.next (State.magLost_eq lost taking ?_), ?_⟩
  · rwa [ports, List.isEmpty_eq_false_iff]
  · have gone := State.SameTake.refl (s.portGone p)
    refine Eq.trans ?_ mag.2
    split
    · exact (gone.forgetPort p).retireRecs.lostPorts
    · exact ((gone.stopTake 3).reassign p).lostPorts

end

/-- Settles O32 (R261 to R265), command by command. -/
theorem takesComplete : Obligations.TakesComplete := by
  refine ⟨fun src n s i hg idle node mode len => ?_, fun src s i hg => ⟨?_, ?_⟩, fun s i => ?_, fun s i => ?_, fun p s => ?_⟩
  · exact fun ready => start_completes i hg idle node mode len ready
  · exact fun recording => stop_completes i hg recording
  · exact fun h => takeAbort_completes i hg h
  · exact fun stopping drained complete acked => closing_enters_completes i stopping drained complete acked
  · exact fun closing acked idle warm => closing_ends_completes i closing acked idle warm
  · exact fun lost taking left => magLost_completes lost taking left

end Sys2Proof.Machine
end

section
/-! SUPPORT. O31 fails. Its clause on FRAME_DRAIN lacks a hypothesis on its state: that the ports of a take are ports of the module. -/

namespace Sys2Proof.Machine

/-! ### A take's port that is none (R254, R265) -/

/-- A take is RECORDING in STRIPE, and its one port is 0x52FE, where the register of PSTATE is the second word of MSIX_PBA: bit 2
of it, vector 34 pending, reads as ACTIVE. The events of the seal are enabled and raise vector 32, and one frame waits, whose one tile is
all zero bytes. -/
def strayTake : State :=
  (((((State.reset.wr F.SEAL_CTRL_EVT_IRQ_EN 1).wr F.MAG_STATUS_TAKE_STATE 1).wr (F.HIF_IRQ_MAP_EN 0x0D) 1).wr
    (F.HIF_IRQ_MAP_VECTOR 0x0D) 32).wr (F.MAG_P_STATUS_PSTATE 0x52FE) 4).setMag
      { done := [{ tiles := [(0, 0)] }], takePorts := [0x52FE] }

/-- The state meets the invariant. -/
theorem strayTake_inv : strayTake.Inv := by
  have regs := State.wr_inv (State.wr_inv (State.wr_inv (State.wr_inv (State.wr_inv State.reset_inv F.SEAL_CTRL_EVT_IRQ_EN 1)
    F.MAG_STATUS_TAKE_STATE 1) (F.HIF_IRQ_MAP_EN 0x0D) 1) (F.HIF_IRQ_MAP_VECTOR 0x0D) 32) (F.MAG_P_STATUS_PSTATE 0x52FE) 4
  exact State.setMag_inv regs _

/-- R253, R31: the tile fails its check as the frame drains, and vector 32 makes the word 5: no port is left, and none became FULL. -/
theorem strayTake_drained : strayTake.frameDrain.portSets = [] ∧ strayTake.frameDrain.take = 1 := by decide +kernel

/-- Refutes O31: draining the frame leaves no port to the take, and the take does not stop. The clause on FRAME_DRAIN lacks that the
take's ports are ports of the module. -/
theorem not_recordingComplete : ¬ Obligations.RecordingComplete := by
  rintro ⟨-, drain, -⟩
  obtain ⟨t, next, -, stops, -⟩ := drain { tiles := [(0, 0)] } [] strayTake strayTake_inv rfl
  obtain rfl : strayTake.frameDrain = t := Host.Outcome.next.inj next
  obtain ⟨none, recording⟩ := strayTake_drained
  obtain ⟨stopped, -⟩ := stops (by decide +kernel) none (by decide +kernel)
  exact absurd (recording.symm.trans stopped) (by decide)

end Sys2Proof.Machine
end

section
/-! SUPPORT. Layer slots, heads and what a serialiser inserts (R309, R312, R326): what each is after the shared operations. -/

namespace Sys2Proof.Machine

/-! ### Parts -/

/-- Composition outside the mask. -/
theorem State.Keeps.cmp_eq {s t : State} {m : Nat} (h : s.Keeps m t) (w : m.testBit 23 = false := by decide) : t.cmp = s.cmp :=
  h.frame .cmp w

section
variable {s t : State} {h l n : Nat}

/-- A field write leaves composition. -/
@[simp] theorem State.wr_cmp (s : State) (f : Fld) (v : Nat) : (s.wr f v).cmp = s.cmp :=
  (State.wr_keeps s f v (.refl s 0x8) (.refl _)).cmp_eq

/-- An event leaves composition. -/
@[simp] theorem State.irq_cmp (s : State) (b : Nat) (flag en : Fld) : (s.irq b flag en).cmp = s.cmp :=
  (State.irq_keeps s b flag en (.refl s 0x8) (.refl _)).cmp_eq

/-- A head's report leaves composition. -/
@[simp] theorem State.cmpReport_cmp (s : State) (h code : Nat) : (s.cmpReport h code).cmp = s.cmp :=
  (State.cmpReport_keeps s h code (.refl s 0x8) (.refl _)).cmp_eq

/-- The control units hold nothing of composition. -/
theorem State.Beside.cmp (b : s.Beside t) : t.cmp = s.cmp := b.keeps.cmp_eq

/-- New data of composition carry the invariant over. -/
theorem State.setCmp_inv (i : s.Inv) (d : CmpState) : (s.setCmp d).Inv := ⟨i.mem, i.regs, i.disc⟩

/-! ### Slots, heads and serialisers -/

/-- A layer slot is the same where composition is. -/
theorem State.layer_congr (e : t.cmp = s.cmp) (l : Nat) : t.layer l = s.layer l := by rw [State.layer, e, State.layer]

/-- A head is the same where the heads are. -/
theorem State.head_congr (e : t.cmp.heads = s.cmp.heads) (h : Nat) : t.head h = s.head h := by rw [State.head, e, State.head]

/-- What a serialiser inserts is the same where composition is. -/
theorem State.sdiAnc_congr (e : t.cmp = s.cmp) (n : Nat) : t.sdiAnc n = s.sdiAnc n := by rw [State.sdiAnc, e, State.sdiAnc]

/-- A layer slot just replaced by one that is not as after reset. -/
theorem State.layer_setLayer (s : State) (l : Nat) {v : CmpLayer} (hv : v ≠ {}) : (s.setLayer l v).layer l = v :=
  KMap.get_set_ne _ _ _ _ hv

/-- A head just replaced by one that is not as after reset. -/
theorem State.head_setHead (s : State) (h : Nat) {v : CmpHead} (hv : v ≠ {}) : (s.setHead h v).head h = v :=
  KMap.get_set_ne _ _ _ _ hv

/-- What a serialiser inserts, once that is not nothing. -/
theorem State.sdiAnc_setSdiAnc (s : State) (n : Nat) {v : SdiAnc} (hv : v ≠ {}) : (s.setSdiAnc n v).sdiAnc n = v :=
  KMap.get_set_ne _ _ _ _ hv

/-- What another serialiser inserts. -/
theorem State.sdiAnc_setSdiAnc_other (s : State) {n k : Nat} (v : SdiAnc) (hk : k ≠ n) : (s.setSdiAnc n v).sdiAnc k = s.sdiAnc k :=
  KMap.get_set_other _ _ _ _ _ hk

/-- A layer slot that writes a frame is not as after reset. -/
theorem CmpLayer.ne_reset_of_writing {v : CmpLayer} {b : CmpBuf} (hb : v.store.writing = some b) : v ≠ {} :=
  fun e => absurd (hb.symm.trans (congrArg (·.store.writing) e)) nofun

/-- A layer slot that has a newest frame is not as after reset. -/
theorem CmpLayer.ne_reset_of_newest {v : CmpLayer} {b : CmpBuf} (hb : v.store.newest = some b) : v ≠ {} :=
  fun e => absurd (hb.symm.trans (congrArg (·.store.newest) e)) nofun

/-- A layer slot just replaced by one that writes a frame. -/
theorem State.writing_setLayer (s : State) (l : Nat) {v : CmpLayer} {b : CmpBuf} (hb : v.store.writing = some b) :
    ((s.setLayer l v).layer l).store.writing = some b := by
  rw [State.layer_setLayer s l (CmpLayer.ne_reset_of_writing hb), hb]

/-- A head whose timing runs is not as after reset. -/
theorem CmpHead.ne_reset_of_running {v : CmpHead} (hr : v.running = true) : v ≠ {} :=
  fun e => absurd (hr.symm.trans (congrArg CmpHead.running e)) nofun

end

/-! ### Layer stores (R309) -/

/-- R309: the frame being written once a tile has entered a store: a FRAME_START tile of a later frame starts that frame, and so does
any tile where no frame is being written. -/
def CmpStore.frameWith (v : CmpStore) (x : Tile) : Nat :=
  match v.writing with
  | some w => if x.hdr.fs && later x.hdr.frame w.frame then x.hdr.frame else w.frame
  | none => x.hdr.frame

/-- R309: after a completion no frame is being written. -/
theorem State.layerComplete_writing (s : State) (l : Nat) : ((s.layerComplete l).layer l).store.writing = none := by
  unfold State.layerComplete
  extract_lets v
  split
  · assumption
  · next b _ =>
    extract_lets p miss s1 s2 store
    rw [State.layer_setLayer s2 l (CmpLayer.ne_reset_of_newest (b := b) rfl)]

/-- R309: a tile that ends no frame leaves the frame it belongs to being written. -/
theorem State.layerStore_writing (s : State) (l : Nat) (x : Tile) (fe : x.hdr.fe = false) :
    ∃ b, ((s.layerStore l x).layer l).store.writing = some b ∧ b.frame = (s.layer l).store.frameWith x := by
  unfold State.layerStore
  extract_lets begins s1 v b p inside pos store s2
  have frame : b.frame = (s.layer l).store.frameWith x := by
    have completed : begins = true → v.store.writing = none := fun hb => by
      rw [show v = (s.layerComplete l).layer l by simp only [v, s1, hb, if_true]]
      exact s.layerComplete_writing l
    have kept : begins = false → v = s.layer l := fun hb => by simp only [v, s1, hb, Bool.false_eq_true, if_false]
    cases hw : (s.layer l).store.writing with
    | none =>
      have starts : begins = true := by simp only [begins, hw]
      simp only [b, completed starts, CmpStore.frameWith, hw, Option.getD_none]
    | some w =>
      have asked : begins = (x.hdr.fs && later x.hdr.frame w.frame) := by simp only [begins, hw]
      by_cases starts : begins = true
      · simp only [b, completed starts, CmpStore.frameWith, hw, Option.getD_none, ← asked, starts, if_true]
      · rw [Bool.not_eq_true] at starts
        simp only [b, kept starts, CmpStore.frameWith, hw, Option.getD_some, ← asked, starts, Bool.false_eq_true, if_false]
  have stored : ∃ y, (s2.layer l).store.writing = some y ∧ y.frame = b.frame := by
    unfold s2
    split
    · exact ⟨_, State.writing_setLayer _ l rfl, rfl⟩
    · exact ⟨_, State.writing_setLayer _ l rfl, rfl⟩
  rw [fe, if_neg Bool.false_ne_true, ← frame]
  exact stored

/-- R309: the check of the tile that the entry `e` of a layer's queue names. -/
def State.layerCheck (u : State) (n : Node) (ed : Edge) (l : Nat) (e : RingEntry) : Checked × State :=
  (u.maybeSwitch n.id (u.entryTile e).hdr.fs).checkTile ed (0x500 + l / 8) (u.entryTile e) true

/-- R309: a head takes the next tile of a layer's queue, and it passes its check. -/
theorem State.layerTile_eq {s u : State} {l i : Nat} {n : Node} {ed : Edge} {e : RingEntry} (hn : s.cmpNode (l / 8) = some n)
    (he : s.image.inEdge n.id (l % 8) = some ed) (awake : s.island (0x18 + l / 8) = 2)
    (next : s.nextTile ed.qid = (some (i, e), u)) (good : (u.layerCheck n ed l e).1.outcome ≠ 3) :
    s.layerTile l = ((u.layerCheck n ed l e).2.layerStore l (u.layerCheck n ed l e).1.tile).pop ed.qid i := by
  unfold State.layerCheck at good ⊢
  simp only [State.layerTile, hn, he, awake, next, ne_eq, not_true_eq_false, if_false]
  rw [next, if_neg good]

/-- R309: LAYER_TILE of a tile that ends no frame completes. -/
theorem layerTile_completes {s u : State} {l : Fin 32} {i : Nat} {n : Node} {ed : Edge} {e : RingEntry}
    (hn : s.cmpNode (l / 8) = some n) (he : s.image.inEdge n.id (l % 8) = some ed) (awake : s.island (0x18 + l / 8) = 2)
    (next : s.nextTile ed.qid = (some (i, e), u)) (good : (u.layerCheck n ed l e).1.outcome ≠ 3)
    (fe : (u.layerCheck n ed l e).1.tile.hdr.fe = false) :
    Completes (.layerTile l) s fun t => ∃ b, (t.layer l).store.writing = some b ∧
      b.frame = ((u.layerCheck n ed l e).2.layer l).store.frameWith (u.layerCheck n ed l e).1.tile := by
  obtain ⟨b, writing, frame⟩ := State.layerStore_writing (u.layerCheck n ed l e).2 l (u.layerCheck n ed l e).1.tile fe
  refine ⟨_, congrArg Host.Outcome.next (State.layerTile_eq hn he awake next good), b, ?_, frame⟩
  rw [State.layer_congr (State.pop_keeps _ ed.qid i (.refl _ 0x108) (.refl _)).cmp_eq]
  exact writing

end Sys2Proof.Machine
end

section
/-! SUPPORT. The frame boundary of a head (R312, R313, R326): the frame that starts, and the payload identifiers that the head's
serialisers insert in it. -/

namespace Sys2Proof.Machine

/-! ### The frame that starts -/

/-- R312, R317: the timing of head `h` runs, and no line of its frame in progress has run short of pixels. -/
structure State.Started (s : State) (h : Nat) : Prop where
  /-- The timing. -/
  running : (s.head h).running = true
  /-- The lines that ran short. -/
  short : (s.head h).short = []

section
variable {s t : State} {h : Nat}

/-- A frame that has started is in progress wherever the heads are the same. -/
theorem State.Started.heads (k : s.Started h) (e : t.cmp.heads = s.cmp.heads) : t.Started h := by
  have same := State.head_congr e h
  exact ⟨(congrArg CmpHead.running same).trans k.running, (congrArg CmpHead.short same).trans k.short⟩

/-- A head replaced by one whose timing runs, with no line that ran short. -/
theorem State.Started.set (s : State) (h : Nat) {v : CmpHead} (run : v.running = true) (clear : v.short = []) :
    (s.setHead h v).Started h := by
  have same := s.head_setHead h (CmpHead.ne_reset_of_running run)
  exact ⟨(congrArg CmpHead.running same).trans run, (congrArg CmpHead.short same).trans clear⟩

/-- What each operation of a fold leaves of the heads, the fold leaves. -/
theorem State.each_heads {α : Type} {f : α → State → State} (hf : ∀ a t, (f a t).cmp.heads = t.cmp.heads) (l : List α) (s : State) :
    (s.each l f).cmp.heads = s.cmp.heads :=
  State.each_induct (P := fun t => t.cmp.heads = s.cmp.heads) (fun a t e => (hf a t).trans e) l rfl

/-- R322: a flip leaves the heads. -/
theorem State.flip_heads (s : State) (l : Nat) : (s.flip l).cmp.heads = s.cmp.heads := by
  simp only [State.flip, State.wr_cmp]
  rfl

/-- R322: a pending commit, flipped or late, leaves the frame in progress. -/
theorem State.Started.commitBoundary (k : s.Started h) : (s.commitBoundary h).Started h := by
  unfold State.commitBoundary
  extract_lets ps v late go s1 counts told s2
  split
  · exact k
  · have flipped : s1.Started h := k.heads (State.each_heads (fun l t => t.flip_heads l) go s)
    have judged : s2.Started h := by
      unfold s2
      split
      · exact flipped.heads (congrArg CmpState.heads (State.irq_cmp ..))
      · have reported : told.Started h := by
          unfold told
          split
          · exact flipped.heads (congrArg CmpState.heads (State.wr_cmp ..))
          · exact (State.Started.set counts h (v := { v with wasLate := true }) k.running k.short).heads
              (by rw [State.irq_cmp, State.cmpReport_cmp])
        split
        · refine reported.heads (State.each_heads (fun l t => ?_) late told)
          split
          · split
            · rw [State.wr_cmp]
            · rfl
          · rfl
        · exact reported
    exact judged.heads (congrArg CmpState.heads (State.notePending_keeps s2 h (.refl _ 0x8) (.refl _)).cmp_eq)

/-- R309: the frames that layers show leave the heads. -/
theorem State.showFrames_heads (s : State) (h : Nat) : (s.showFrames h).cmp.heads = s.cmp.heads := by
  refine State.each_heads (fun l t => ?_) _ s
  extract_lets v
  split
  · simp only [State.wr_cmp]
    rfl
  · exact congrArg CmpState.heads (State.wr_cmp ..)
  · rfl

/-- R62: without a timebase of a source, its frames are no epoch. -/
theorem State.sourceEpoch_none {kind source : Nat}
    (none : s.image.tbs.any (fun t => t.kind == kind && t.source == source) = false) (num : Nat) :
    s.sourceEpoch kind source num = s := by
  have empty : s.image.tbs.filter (fun t => t.kind == kind && t.source == source) = [] :=
    List.filter_eq_nil_iff.mpr fun t ht => by simpa using List.any_eq_false.mp none t ht
  rw [State.sourceEpoch, empty]
  rfl

/-- R312: the frame of a head that is no timebase's source starts. -/
theorem State.headFrame_started (none : s.image.tbs.any (fun t => t.kind == 2 && t.source == h) = false) :
    (s.headFrame h).Started h := by
  unfold State.headFrame
  extract_lets ts s1 v s2 s3
  have image : s2.image = s.image := congrArg (fun d : StrState => d.active.getD {}) (State.wr_str ..)
  have same : s3 = s2 := State.sourceEpoch_none (image ▸ none) _
  have started : s3.Started h := same ▸ State.Started.set s1 h rfl rfl
  exact started.commitBoundary.heads (State.showFrames_heads _ h)

/-! ### Serialisers at a boundary -/

/-- R327: a serialiser that stops driving leaves the heads. -/
theorem State.sdiOff_heads (s : State) (n : Nat) : (s.sdiOff n).cmp.heads = s.cmp.heads := by
  show ((s.wr (F.SDI_S_STATUS_ACTIVE n) 0).wr (F.SDI_S_STATUS_MODE n) 0).cmp.heads = s.cmp.heads
  rw [State.wr_cmp, State.wr_cmp]

/-- R327: a boundary of a serialiser leaves the heads. -/
theorem State.sdiBoundary_heads (s : State) (n : Nat) : (s.sdiBoundary n).cmp.heads = s.cmp.heads := by
  unfold State.sdiBoundary
  extract_lets s1 s2
  have counted : s1.cmp = s.cmp := by
    unfold s1
    split
    · exact State.wr_cmp ..
    · rfl
  have ended : s2.cmp.heads = s.cmp.heads := by
    unfold s2
    rw [State.wr_cmp, State.sdiOff_heads, counted]
  split
  · split
    · rw [(State.sdiBegin_keeps _ n (.refl _ 0x4000008) (.refl _)).cmp_eq, State.wr_cmp, ended]
    · exact ended
  · split
    · rw [State.wr_cmp, State.wr_cmp, counted]
    · rw [counted]

/-- R312, R327: the frame of head `h` that starts, its serialisers at their first boundary. -/
def State.headStarted (s : State) (h : Nat) : State :=
  (s.headFrame h).each ((s.headFrame h).sdiOf h) fun n s => s.sdiBoundary n

/-- R326: the frame of head `h`, in which its serialisers insert. -/
def State.inserted (s : State) (h : Nat) : State := s.each (s.sdiOf h) fun n s => s.sdiInsert n

/-- R312, R313: at its first boundary an enabled head starts a frame, in which its serialisers insert. -/
theorem State.boundary_first (idle : (s.head h).running = false) (clear : s.rd (F.CMP_H_STATUS_SHUTTING_DOWN h) = 0)
    (en : s.rd (F.CMP_H_CTRL_EN h) = 1) (awake : s.island (0x18 + h) = 2) :
    s.boundary h = (s.headStarted h).inserted h := by
  simp [State.boundary, State.headStarted, State.inserted, idle, State.on, clear, en, awake]

/-! ### Payload identifiers -/

/-- R326: the payload identifier of the format of head `h`, as serialiser `n` inserts it. -/
def State.sdiIdentifier (s : State) (n h : Nat) : List Byte :=
  sdiPayload (s.rd (F.SDI_S_STATUS_MODE n)) (s.rd (F.CMP_H_FORMAT_RATE h)) (s.rd (F.CMP_H_FORMAT_TRANSFER h))
    (s.rd (F.CMP_H_FORMAT_COLORIMETRY h)) n

/-- A field reads as before where the registers are the same. -/
theorem State.rd_congr (e : t.regs = s.regs) (f : Fld) : t.rd f = s.rd f := by rw [State.rd, State.reg, e, State.rd, State.reg]

/-- R326: an insertion is no register. -/
theorem State.sdiInsert_regs (s : State) (n : Nat) : (s.sdiInsert n).regs = s.regs :=
  (State.sdiInsert_keeps s n (.refl s 0x800000) (.refl _)).regs_eq

/-- R326: an insertion leaves the heads. -/
theorem State.sdiInsert_heads (s : State) (n : Nat) : (s.sdiInsert n).cmp.heads = s.cmp.heads := by
  unfold State.sdiInsert
  split
  · rfl
  · rfl

/-- R326: insertions are no registers. -/
theorem State.sdiInserts_regs (s : State) (l : List Nat) : (s.each l fun n s => s.sdiInsert n).regs = s.regs :=
  State.each_induct (P := fun t => t.regs = s.regs) (fun n t e => (t.sdiInsert_regs n).trans e) l rfl

/-- R326: a serialiser that drives a signal inserts its payload identifier. -/
theorem State.sdiInsert_payload {n : Nat} (act : s.rd (F.SDI_S_STATUS_ACTIVE n) = 1) :
    ((s.sdiInsert n).sdiAnc n).payload = s.sdiIdentifier n (s.rd (F.SDI_S_CFG_SRC_HEAD n)) := by
  have on : ¬ (!s.on (F.SDI_S_STATUS_ACTIVE n)) = true := by rw [State.on_of_rd_one act]; decide
  rw [State.sdiInsert, if_neg on]
  exact congrArg SdiAnc.payload (s.sdiAnc_setSdiAnc n fun e => List.cons_ne_nil _ _ (congrArg SdiAnc.payload e))

/-- R326: an insertion leaves what another serialiser inserts. -/
theorem State.sdiInsert_other {n k : Nat} (hk : k ≠ n) : (s.sdiInsert n).sdiAnc k = s.sdiAnc k := by
  unfold State.sdiInsert
  split
  · rfl
  · exact s.sdiAnc_setSdiAnc_other _ hk

/-- R326: a serialiser's insertion stands through the insertions that follow. -/
theorem State.sdiInserts_keep {n : Nat} {b : List Byte} (l : List Nat) (act : s.rd (F.SDI_S_STATUS_ACTIVE n) = 1)
    (hb : s.sdiIdentifier n (s.rd (F.SDI_S_CFG_SRC_HEAD n)) = b) (done : (s.sdiAnc n).payload = b) :
    ((s.each l fun n s => s.sdiInsert n).sdiAnc n).payload = b := by
  refine (State.each_induct (P := fun t => t.regs = s.regs ∧ (t.sdiAnc n).payload = b) (fun k t => ?_) l ⟨rfl, done⟩).2
  rintro ⟨regs, stands⟩
  refine ⟨(t.sdiInsert_regs k).trans regs, ?_⟩
  by_cases hk : n = k
  · subst hk
    rw [State.sdiInsert_payload ((State.rd_congr regs _).trans act), ← hb]
    simp only [State.sdiIdentifier, State.rd_congr regs]
  · rw [State.sdiInsert_other hk, stands]

/-- R326: each of the serialisers that drive a signal inserts its payload identifier. -/
theorem State.sdiInserts_payload {n : Nat} (l : List Nat) (s : State) (hn : n ∈ l) (act : s.rd (F.SDI_S_STATUS_ACTIVE n) = 1) :
    ((s.each l fun n s => s.sdiInsert n).sdiAnc n).payload = s.sdiIdentifier n (s.rd (F.SDI_S_CFG_SRC_HEAD n)) := by
  induction l generalizing s with
  | nil => exact absurd hn List.not_mem_nil
  | cons a l ih =>
    have same (f : Fld) : (s.sdiInsert a).rd f = s.rd f := State.rd_congr (s.sdiInsert_regs a) f
    have identifier : (s.sdiInsert a).sdiIdentifier n ((s.sdiInsert a).rd (F.SDI_S_CFG_SRC_HEAD n)) =
        s.sdiIdentifier n (s.rd (F.SDI_S_CFG_SRC_HEAD n)) := by
      simp only [State.sdiIdentifier, same]
    rcases List.mem_cons.mp hn with rfl | rest
    · exact State.sdiInserts_keep l ((same _).trans act) identifier (State.sdiInsert_payload act)
    · exact (ih (s.sdiInsert a) rest ((same _).trans act)).trans identifier

/-! ### CANCEL in the same cycle -/

/-- R85: CANCEL at an event touches registers of the STR block. -/
theorem State.cancelWith_regs (s : State) (was : Option Arm) (cancel : Bool) :
    s.RegsOnly (· / 0x40000 = 0x0F) (s.cancelWith was cancel) := by
  have status {t : State} (k : s.RegsOnly (· / 0x40000 = 0x0F) t) (code : Nat) :
      s.RegsOnly (· / 0x40000 = 0x0F) (t.strStatus code) := k.wr _ _ rfl
  have cleared {t : State} (k : s.RegsOnly (· / 0x40000 = 0x0F) t) : s.RegsOnly (· / 0x40000 = 0x0F) t.clearShadow :=
    ((k.regs (t := t.setStr { t.str with shadow := none, validated := false, armed := none }) rfl).wr F.STR_STATUS_SHADOW_STATE 0
      rfl).wr F.STR_SHADOW_ID_IMAGE_ID 0 rfl
  have undone : s.RegsOnly (· / 0x40000 = 0x0F) s.unprepare :=
    (State.RegsOnly.refl _ s).regs (State.unprepare_keeps s (.refl s 0x1004100) (.refl _)).regs_eq
  unfold State.cancelWith
  split
  · exact .refl _ s
  split
  · exact status (.refl _ s) _
  unfold State.strCancel
  split
  · exact status (cleared (.refl _ s)) 0
  · exact status (cleared (.refl _ s)) 0
  · exact status (cleared (.refl _ s)) 0
  · refine status ?_ 0
    split
    · exact (undone.regs (t := s.unprepare.setStr _) rfl).wr F.STR_STATUS_SHADOW_STATE 2 rfl
    · exact cleared undone
  · refine status ?_ 0
    split
    · exact (undone.regs (t := s.unprepare.setStr _) rfl).wr F.STR_STATUS_SHADOW_STATE 2 rfl
    · exact cleared undone
  · exact .refl _ s

/-- R85, R326: insertions and a CANCEL leave every register outside the STR block. -/
theorem State.rd_inserted (s : State) (h : Nat) (was : Option Arm) (cancel : Bool) {f : Fld} (hf : f.off / 0x40000 ≠ 0x0F) :
    ((s.inserted h).cancelWith was cancel).rd f = s.rd f :=
  (((s.inserted h).cancelWith_regs was cancel).rd f hf).trans (State.rd_congr (s.sdiInserts_regs _) f)

/-- R85, R326: a CANCEL in the cycle of the boundary leaves what the head's serialisers insert. -/
theorem State.inserted_payload {n : Nat} (hh : h < 4) {was : Option Arm} {cancel : Bool}
    (hn : n ∈ ((s.inserted h).cancelWith was cancel).sdiOf h)
    (act : ((s.inserted h).cancelWith was cancel).rd (F.SDI_S_STATUS_ACTIVE n) = 1) :
    (((s.inserted h).cancelWith was cancel).sdiAnc n).payload = ((s.inserted h).cancelWith was cancel).sdiIdentifier n h := by
  obtain ⟨range, named⟩ := List.mem_filter.mp hn
  have serialiser : n < 4 := List.mem_range.mp range
  have config : (F.SDI_S_CFG_SRC_HEAD n).off / 0x40000 ≠ 0x0F := by
    show (0x5c0000 + 0x40 * n) / 0x40000 ≠ 0x0F
    omega
  have status : (F.SDI_S_STATUS_ACTIVE n).off / 0x40000 ≠ 0x0F := by
    show (0x5c0004 + 0x40 * n) / 0x40000 ≠ 0x0F
    omega
  have format : (F.CMP_H_FORMAT_RATE h).off / 0x40000 ≠ 0x0F := by
    show (0x580104 + 0x40 * h) / 0x40000 ≠ 0x0F
    omega
  have source : s.rd (F.SDI_S_CFG_SRC_HEAD n) = h := (s.rd_inserted h was cancel config).symm.trans (beq_iff_eq.mp named)
  have mine : n ∈ s.sdiOf h := List.mem_filter.mpr ⟨range, beq_iff_eq.mpr source⟩
  have payload := State.sdiInserts_payload _ s mine
    ((s.rd_inserted h was cancel status).symm.trans act)
  have same : ((s.inserted h).cancelWith was cancel).sdiIdentifier n h = s.sdiIdentifier n h := by
    rw [State.sdiIdentifier, s.rd_inserted h was cancel (f := F.SDI_S_STATUS_MODE n) status, s.rd_inserted h was cancel format,
      s.rd_inserted h was cancel (f := F.CMP_H_FORMAT_TRANSFER h) format,
      s.rd_inserted h was cancel (f := F.CMP_H_FORMAT_COLORIMETRY h) format]
    rfl
  rw [State.sdiAnc_congr (State.cancelWith_keeps _ was cancel (.refl _ 0x1004188) (.refl _)).cmp_eq, same]
  exact payload.trans (congrArg (s.sdiIdentifier n) source)

end

/-- R312, R313, R326: FRAME_BOUNDARY at the first boundary of an enabled head completes. -/
theorem frameBoundary_first_completes {h : Fin 4} {cancel : Bool} {s : State} (idle : (s.head h).running = false)
    (clear : s.rd (F.CMP_H_STATUS_SHUTTING_DOWN h) = 0) (en : s.rd (F.CMP_H_CTRL_EN h) = 1) (awake : s.island (0x18 + h) = 2)
    (none : s.image.tbs.any (fun t => t.kind == 2 && t.source == h.val) = false) :
    Completes (.frameBoundary h cancel) s fun t => t.Started h ∧
      ∀ n ∈ t.sdiOf h, t.rd (F.SDI_S_STATUS_ACTIVE n) = 1 → (t.sdiAnc n).payload = t.sdiIdentifier n h := by
  refine ⟨_, congrArg (fun t => Host.Outcome.next (State.cancelWith t s.str.armed cancel))
    (State.boundary_first idle clear en awake), ?_, fun n hn act => State.inserted_payload h.isLt hn act⟩
  have frame : (s.headStarted h).Started h :=
    (State.headFrame_started none).heads (State.each_heads (fun n t => t.sdiBoundary_heads n) _ _)
  have inserted : ((s.headStarted h).inserted h).Started h :=
    frame.heads (State.each_heads (fun n t => t.sdiInsert_heads n) _ _)
  exact inserted.heads (congrArg CmpState.heads (State.cancelWith_keeps _ _ cancel (.refl _ 0x1004188) (.refl _)).cmp_eq)

end Sys2Proof.Machine
end

section
/-! SUPPORT. The registers of a head (R328) after a report and an event, and the commands that its timing takes (R312, R313, R317). -/

namespace Sys2Proof.Machine

/-! ### The registers of a head -/

section
variable {a h lo w : Nat}

/-- R328: the registers of the heads lie between those of the block and those of the layer slots. -/
theorem headReg_bounds (hh : h < 4) (ha : Nat.ble 0x580100 a = true) (hb : a.ble 0x58013f = true) :
    0x580100 ≤ a + 0x40 * h ∧ a + 0x40 * h < 0x580200 := by
  rw [Nat.ble_eq] at ha hb
  omega

/-- R328: a head's register is none of discovery's. -/
theorem isDiscovery_head (hh : h < 4) (ha : Nat.ble 0x580100 a = true) (hb : a.ble 0x58013f = true) :
    isDiscovery (a + 0x40 * h) = false := by
  have bounds := headReg_bounds hh ha hb
  exact isDiscovery_of_block (by omega)

/-- R328: the registers of the heads come before the MSI-X pending bits. -/
theorem headReg_lt (hh : h < 4) (ha : Nat.ble 0x580100 a = true) (hb : a.ble 0x58013f = true) : a + 0x40 * h < 0x718000 :=
  lt_trans (headReg_bounds hh ha hb).2 (by decide)

/-- R328: neither a mirror record nor an interrupt touches a head's register. -/
theorem steady_head (hh : h < 4) (ha : Nat.ble 0x580100 a = true) (hb : a.ble 0x58013f = true) :
    Fld.Steady ⟨a + 0x40 * h, lo, w⟩ := by
  have bounds := headReg_bounds hh ha hb
  refine ⟨?_, headReg_lt hh ha hb⟩
  show (a + 0x40 * h) / 0x40000 ≠ 4
  omega

/-- R328: CMP_STATUS stands apart from a head's registers. -/
theorem apart_cmpStatus_head (ha : Nat.ble 0x580100 a = true) : F.CMP_STATUS_STATUS.Apart ⟨a + 0x40 * h, lo, w⟩ := by
  rw [Nat.ble_eq] at ha
  refine .inl ?_
  show a + 0x40 * h ≠ 0x580000
  omega

end

section
variable {s : State} {f : Fld} {x h : Nat}

/-- R330: a head's report leaves what stands apart from the two statuses. -/
theorem State.Reads.cmpReport (k : s.Reads f x) (h code : Nat) (a : (F.CMP_H_STATUS_STATUS h).Apart f)
    (b : F.CMP_STATUS_STATUS.Apart f) : (s.cmpReport h code).Reads f x :=
  (k.wr _ _ a).wr _ _ b

/-- R330: a head's report shows in its status. -/
theorem State.Reads.headReported (i : s.Inv) (hh : h < 4) (code : Nat) :
    (s.cmpReport h code).Reads (F.CMP_H_STATUS_STATUS h) (code % 2 ^ 16) :=
  (State.Reads.written i _ code (isDiscovery_head hh rfl rfl) (Nat.le_of_ble_eq_true rfl)).wr _ _ (apart_cmpStatus_head rfl)

/-- R8: an ordinary register write sets an RW field of its register. -/
theorem State.Reads.plainWritten {r : RegRow} (i : s.Inv) (hr : regRow f.off = some r) (hd : isDiscovery f.off = false)
    (hrw : ∀ j < f.w, (BitVec.ofNat 32 r.rw).getLsbD (f.lo + j) = true) (hc : r.w1c = 0) (val : Word) :
    (s.plainWrite f.off val).Reads f (f.of val) := by
  refine ⟨(State.plainWrite_keeps s _ _ (.refl s 0x8) (.refl _)).inv i, ?_⟩
  simp only [State.plainWrite, hr]
  rw [State.rd, State.reg_setReg_same i _ hd, RegRow.get_written _ _ hrw hc]

end

/-! ### The sync reference (R312) -/

section
variable {h : Fin 4} {s : State}

/-- R312: SYNC_HOLDOVER of a head that loses its reference completes. -/
theorem syncHoldover_lost_completes (i : s.Inv) (run : (s.head h).running = true)
    (synced : s.rd (F.CMP_H_STATUS_SYNC_HOLDOVER h) = 0) :
    Completes (.syncHoldover h 0) s fun t =>
      t.rd (F.CMP_H_STATUS_SYNC_HOLDOVER h) = 1 ∧ t.rd (F.CMP_H_STATUS_SLEWING h) = 0 ∧ t.rd (F.CMP_H_STATUS_STATUS h) = 0x160A ∧
      t.rd (F.CMP_H_STATUS_SYNC_IRQ h) = 1 := by
  have lost : s.headSync h 0 = (((s.wr (F.CMP_H_STATUS_SYNC_HOLDOVER h) 1).wr (F.CMP_H_STATUS_SLEWING h) 0).cmpReport h 0x160A).irq
      0x16 (F.CMP_H_STATUS_SYNC_IRQ h) (F.CMP_H_IRQ_EN_SYNC_IRQ h) := by
    simp [State.headSync, run, State.on, synced]
  have status : (F.CMP_H_STATUS_STATUS h).off < 0x718000 := headReg_lt h.isLt rfl rfl
  have hold := State.Reads.written i (F.CMP_H_STATUS_SYNC_HOLDOVER h) 1 (isDiscovery_head h.isLt rfl rfl) (Nat.le_of_ble_eq_true rfl)
  have slew := State.Reads.written hold.inv (F.CMP_H_STATUS_SLEWING h) 0 (isDiscovery_head h.isLt rfl rfl)
    (Nat.le_of_ble_eq_true rfl)
  have told := State.Reads.headReported slew.inv h.isLt 0x160A
  refine ⟨_, congrArg Host.Outcome.next lost, ?_, ?_, ?_, ?_⟩
  · exact (((hold.wr _ _ (Fld.apart_row rfl)).cmpReport _ _ (Fld.apart_row rfl) (apart_cmpStatus_head rfl)).irq _ _ _
      (Fld.apart_row rfl) status).eq
  · exact ((slew.cmpReport _ _ (Fld.apart_row rfl) (apart_cmpStatus_head rfl)).irq _ _ _ (Fld.apart_row rfl) status).eq
  · exact (told.irq _ _ _ (Fld.apart_row rfl) status).eq
  · exact (State.Reads.raised told.inv 0x16 (F.CMP_H_STATUS_SYNC_IRQ h) _ (isDiscovery_head h.isLt rfl rfl) (Nat.le_of_ble_eq_true rfl)
      status).eq

/-- R312: SYNC_HOLDOVER of a head whose reference returns completes. -/
theorem syncHoldover_returns_completes (i : s.Inv) (run : (s.head h).running = true)
    (lost : s.rd (F.CMP_H_STATUS_SYNC_HOLDOVER h) = 1) :
    Completes (.syncHoldover h 1) s fun t =>
      t.rd (F.CMP_H_STATUS_SYNC_HOLDOVER h) = 0 ∧ t.rd (F.CMP_H_STATUS_SLEWING h) = 1 ∧ t.rd (F.CMP_H_STATUS_SYNC_IRQ h) = 1 := by
  have found : s.headSync h 1 = ((s.wr (F.CMP_H_STATUS_SYNC_HOLDOVER h) 0).wr (F.CMP_H_STATUS_SLEWING h) 1).irq
      0x16 (F.CMP_H_STATUS_SYNC_IRQ h) (F.CMP_H_IRQ_EN_SYNC_IRQ h) := by
    simp [State.headSync, run, State.on, lost]
  have status : (F.CMP_H_STATUS_STATUS h).off < 0x718000 := headReg_lt h.isLt rfl rfl
  have hold := State.Reads.written i (F.CMP_H_STATUS_SYNC_HOLDOVER h) 0 (isDiscovery_head h.isLt rfl rfl) (Nat.le_of_ble_eq_true rfl)
  have slew := State.Reads.written hold.inv (F.CMP_H_STATUS_SLEWING h) 1 (isDiscovery_head h.isLt rfl rfl)
    (Nat.le_of_ble_eq_true rfl)
  refine ⟨_, congrArg Host.Outcome.next found, ?_, ?_, ?_⟩
  · exact ((hold.wr _ _ (Fld.apart_row rfl)).irq _ _ _ (Fld.apart_row rfl) status).eq
  · exact (slew.irq _ _ _ (Fld.apart_row rfl) status).eq
  · exact (State.Reads.raised slew.inv 0x16 (F.CMP_H_STATUS_SYNC_IRQ h) _ (isDiscovery_head h.isLt rfl rfl) (Nat.le_of_ble_eq_true rfl)
      status).eq

/-- R312: SYNC_HOLDOVER of a head whose phase error is below one line again completes. -/
theorem syncHoldover_slewed_completes (i : s.Inv) (run : (s.head h).running = true) :
    Completes (.syncHoldover h 2) s fun t => t.rd (F.CMP_H_STATUS_SLEWING h) = 0 := by
  have slewed : s.headSync h 2 = s.wr (F.CMP_H_STATUS_SLEWING h) 0 := by simp [State.headSync, run]
  exact ⟨_, congrArg Host.Outcome.next slewed,
    (State.Reads.written i _ 0 (isDiscovery_head h.isLt rfl rfl) (Nat.le_of_ble_eq_true rfl)).eq⟩

/-! ### Underruns (R317) -/

/-- R317: HEAD_UNDERRUN of a head whose timing runs completes. -/
theorem headUnderrun_completes (i : s.Inv) (run : (s.head h).running = true) (line col : BitVec 16) :
    Completes (.headUnderrun h line col) s fun t =>
      (t.head h).short = (s.head h).short ++ [(line.toNat, col.toNat)] ∧ t.rd (F.CMP_H_STATUS_UNDERRUN_IRQ h) = 1 ∧
      t.rd (F.CMP_H_UNDERRUN_COUNT h) = min (s.rd (F.CMP_H_UNDERRUN_COUNT h) + 1) (2 ^ 32 - 1) := by
  let v : CmpHead := { s.head h with short := (s.head h).short ++ [(line.toNat, col.toNat)] }
  have ran : s.headUnderrun h line.toNat col.toNat = (((s.setHead h v).inc (F.CMP_H_UNDERRUN_COUNT h)).cmpReport h 0x1609).irq
      0x16 (F.CMP_H_STATUS_UNDERRUN_IRQ h) (F.CMP_H_IRQ_EN_UNDERRUN_IRQ h) := by
    simp [State.headUnderrun, run, v]
  have counted := State.Reads.counted (State.setCmp_inv i _ : (s.setHead h v).Inv) (F.CMP_H_UNDERRUN_COUNT h) 1
    (isDiscovery_head h.isLt rfl rfl) (Nat.le_of_ble_eq_true rfl)
  have told := State.Reads.headReported counted.inv h.isLt 0x1609
  refine ⟨_, congrArg Host.Outcome.next ran, ?_, ?_, ?_⟩
  · have heads : ((((s.setHead h v).inc (F.CMP_H_UNDERRUN_COUNT h)).cmpReport h 0x1609).irq
        0x16 (F.CMP_H_STATUS_UNDERRUN_IRQ h) (F.CMP_H_IRQ_EN_UNDERRUN_IRQ h)).cmp.heads = (s.setHead h v).cmp.heads := by
      rw [State.irq_cmp, State.cmpReport_cmp, State.inc, State.wr_cmp]
    rw [State.head_congr heads, State.head_setHead s h (CmpHead.ne_reset_of_running (v := v) run)]
  · exact (State.Reads.raised told.inv 0x16 (F.CMP_H_STATUS_UNDERRUN_IRQ h) _ (isDiscovery_head h.isLt rfl rfl)
      (Nat.le_of_ble_eq_true rfl) (headReg_lt h.isLt rfl rfl)).eq
  · exact ((counted.cmpReport _ _ (Fld.apart_row rfl) (apart_cmpStatus_head rfl)).irq _ _ _ (Fld.apart_row rfl)
      (headReg_lt h.isLt rfl rfl)).eq

end

/-! ### HEAD_ENABLE (R313) -/

/-- R328: the row of CMP_H_CTRL in the register table. -/
def headCtrlRow : RegRow := ⟨0x100, 4, 0x40, 1, 4, 0x80000301, 0, 0, 0⟩

/-- R328: CMP_H_CTRL of each head lies in that row. -/
theorem regRow_headCtrl : ∀ h : Fin 4, regRow (F.CMP_H_CTRL_EN h).off = some headCtrlRow := by decide

section
variable {s : State} {h : Nat} {val : Word}

/-- R443: demand for an island touches the PWR block. -/
theorem State.islandDemand_pwrRegs (s : State) {n : Nat} (hn : n < 32) : s.RegsOnly (· / 0x40000 = 0x02) (s.islandDemand n) := by
  have control : (F.PWR_ISL_STATE n).off / 0x40000 = 0x02 := by
    show (0x80100 + 0x4 * n) / 0x40000 = 0x02
    omega
  have wakes : (F.PWR_ISL_WAKES_COUNT n).off / 0x40000 = 0x02 := by
    show (0x80200 + 0x4 * n) / 0x40000 = 0x02
    omega
  have woken : s.RegsOnly (· / 0x40000 = 0x02) (s.islandOn n 1) := ((State.RegsOnly.refl _ s).wr _ _ control).regs rfl
  unfold State.islandDemand
  split
  · exact .refl _ s
  split
  · exact woken.wr _ _ wakes
  · exact State.RegsOnly.regs (.refl _ s) rfl
  · exact (State.RegsOnly.refl _ s).wr _ _ control
  · exact .refl _ s

/-- R313, R444: a head that begins touches the PWR block. -/
theorem State.headBegin_regs (s : State) (hh : h < 4) : s.RegsOnly (· / 0x40000 = 0x02) (s.headBegin h) := by
  refine State.RegsOnly.each (fun n hn t k => ?_) (s.islandDemand_pwrRegs (by omega))
  have serialiser := List.mem_range.mp (List.mem_filter.mp hn).1
  split
  · exact k.trans (t.islandDemand_pwrRegs (by omega))
  · exact k

/-- R313: a write that keeps SYNC is no refused change of it. -/
theorem State.headCtrl_accepted (valid : (F.CMP_H_CTRL_SYNC h).of val < 2)
    (same : (F.CMP_H_CTRL_SYNC h).of val = s.rd (F.CMP_H_CTRL_SYNC h)) :
    ¬ (2 ≤ (F.CMP_H_CTRL_SYNC h).of val ∨
      ((F.CMP_H_CTRL_SYNC h).of val ≠ s.rd (F.CMP_H_CTRL_SYNC h) ∧ (!s.headIdle h) = true)) := by
  rintro (wide | ⟨other, -⟩)
  · omega
  · exact other same

/-- R313: a write that sets EN while no shutdown is in progress. -/
theorem State.headCtrl_on (valid : (F.CMP_H_CTRL_SYNC h).of val < 2)
    (same : (F.CMP_H_CTRL_SYNC h).of val = s.rd (F.CMP_H_CTRL_SYNC h)) (off : s.on (F.CMP_H_CTRL_EN h) = false)
    (en : (F.CMP_H_CTRL_EN h).of val = 1)
    (clear : (s.plainWrite (F.CMP_H_CTRL_EN h).off val).on (F.CMP_H_STATUS_SHUTTING_DOWN h) = false) :
    s.headCtrl h val = ((s.plainWrite (F.CMP_H_CTRL_EN h).off val).sourceBack 2 h).headBegin h := by
  have back : ((s.plainWrite (F.CMP_H_CTRL_EN h).off val).sourceBack 2 h).on (F.CMP_H_STATUS_SHUTTING_DOWN h) = false := clear
  rw [State.headCtrl, if_neg (State.headCtrl_accepted valid same)]
  simp only [off, en, back, beq_self_eq_true, Bool.not_false, Bool.and_self, if_true, Bool.false_eq_true, if_false]

/-- R313: a write that clears EN while the head's timing runs. -/
theorem State.headCtrl_off (valid : (F.CMP_H_CTRL_SYNC h).of val < 2)
    (same : (F.CMP_H_CTRL_SYNC h).of val = s.rd (F.CMP_H_CTRL_SYNC h)) (on : s.on (F.CMP_H_CTRL_EN h) = true)
    (en : (F.CMP_H_CTRL_EN h).of val = 0)
    (run : (((s.plainWrite (F.CMP_H_CTRL_EN h).off val).wr (F.CMP_H_STATUS_PENDING_ENABLE h) 0).head h).running = true) :
    s.headCtrl h val =
      ((s.plainWrite (F.CMP_H_CTRL_EN h).off val).wr (F.CMP_H_STATUS_PENDING_ENABLE h) 0).wr (F.CMP_H_STATUS_SHUTTING_DOWN h) 1 := by
  rw [State.headCtrl, if_neg (State.headCtrl_accepted valid same)]
  simp [on, en, run]

end

section
variable {src : Agent} {h : Fin 4} {val : Word} {s : State}

/-- R8, R328: an ordinary write of CMP_H_CTRL sets EN. -/
theorem State.Reads.headEn (i : s.Inv) (h : Fin 4) (val : Word) :
    (s.plainWrite (F.CMP_H_CTRL_EN h).off val).Reads (F.CMP_H_CTRL_EN h) ((F.CMP_H_CTRL_EN h).of val) :=
  have writable : ∀ j < 1, (BitVec.ofNat 32 headCtrlRow.rw).getLsbD (31 + j) = true := by decide
  State.Reads.plainWritten i (regRow_headCtrl h) (isDiscovery_head h.isLt rfl rfl) writable rfl val

/-- R313: HEAD_ENABLE that sets EN completes. -/
theorem headEnable_on_completes (i : s.Inv) (hg : s.Passes src (F.CMP_H_CTRL_EN h)) (valid : (F.CMP_H_CTRL_SYNC h).of val < 2)
    (same : (F.CMP_H_CTRL_SYNC h).of val = s.rd (F.CMP_H_CTRL_SYNC h)) (off : s.rd (F.CMP_H_CTRL_EN h) = 0)
    (en : (F.CMP_H_CTRL_EN h).of val = 1) (clear : s.rd (F.CMP_H_STATUS_SHUTTING_DOWN h) = 0) :
    Completes (.headEnable src h val) s fun t => t.rd (F.CMP_H_CTRL_EN h) = 1 := by
  refine write_completes hg rfl fun m t before after => ?_
  have field {a lo w : Nat} (ha : Nat.ble 0x580100 a = true) (hb : a.ble 0x58013f = true) :
      m.rd ⟨a + 0x40 * h, lo, w⟩ = s.rd ⟨a + 0x40 * h, lo, w⟩ := before.rd (steady_head h.isLt ha hb)
  have ctrl : (F.CMP_H_CTRL_EN h).Steady := steady_head h.isLt rfl rfl
  have apart : (F.CMP_H_STATUS_SHUTTING_DOWN h).off ≠ (F.CMP_H_CTRL_EN h).off := by
    show 0x580118 + 0x40 * h.val ≠ 0x580100 + 0x40 * h.val
    omega
  have idle : (m.plainWrite (F.CMP_H_CTRL_EN h).off val).rd (F.CMP_H_STATUS_SHUTTING_DOWN h) = 0 :=
    ((m.plainWrite_regs _ val).rd _ apart).trans ((field rfl rfl).trans clear)
  rw [State.headCtrl_on valid (same.trans (field rfl rfl).symm) (State.on_of_rd_zero ((field rfl rfl).trans off)) en
    (State.on_of_rd_zero idle)] at after
  have written : ((m.plainWrite (F.CMP_H_CTRL_EN h).off val).sourceBack 2 h).rd (F.CMP_H_CTRL_EN h) = 1 :=
    (State.Reads.headEn (before.inv i) h val).eq.trans en
  have bounds := headReg_bounds (a := 0x580100) h.isLt rfl rfl
  rw [after.rd ctrl, (State.headBegin_regs _ h.isLt).rd _ (by show ¬ (0x580100 + 0x40 * h.val) / 0x40000 = 0x02; omega), written]

/-- R313: HEAD_ENABLE that clears EN completes: the frame in progress goes on. -/
theorem headEnable_off_completes (i : s.Inv) (hg : s.Passes src (F.CMP_H_CTRL_EN h)) (valid : (F.CMP_H_CTRL_SYNC h).of val < 2)
    (same : (F.CMP_H_CTRL_SYNC h).of val = s.rd (F.CMP_H_CTRL_SYNC h)) (on : s.rd (F.CMP_H_CTRL_EN h) = 1)
    (en : (F.CMP_H_CTRL_EN h).of val = 0) (run : (s.head h).running = true) :
    Completes (.headEnable src h val) s fun t =>
      t.rd (F.CMP_H_CTRL_EN h) = 0 ∧ t.rd (F.CMP_H_STATUS_SHUTTING_DOWN h) = 1 ∧ t.cmp = s.cmp := by
  refine write_completes hg rfl fun m t before after => ?_
  have field {a lo w : Nat} (ha : Nat.ble 0x580100 a = true) (hb : a.ble 0x58013f = true) :
      m.rd ⟨a + 0x40 * h, lo, w⟩ = s.rd ⟨a + 0x40 * h, lo, w⟩ := before.rd (steady_head h.isLt ha hb)
  have plain : (m.plainWrite (F.CMP_H_CTRL_EN h).off val).cmp = s.cmp :=
    (State.plainWrite_keeps m _ _ (.refl m 0x8) (.refl _)).cmp_eq.trans before.cmp
  have waits : ((m.plainWrite (F.CMP_H_CTRL_EN h).off val).wr (F.CMP_H_STATUS_PENDING_ENABLE h) 0).cmp = s.cmp :=
    (State.wr_cmp ..).trans plain
  rw [State.headCtrl_off valid (same.trans (field rfl rfl).symm) (State.on_of_rd_one ((field rfl rfl).trans on)) en
    (by rw [State.head_congr (congrArg CmpState.heads waits)]; exact run)] at after
  have written : (m.plainWrite (F.CMP_H_CTRL_EN h).off val).Reads (F.CMP_H_CTRL_EN h) 0 :=
    en ▸ State.Reads.headEn (before.inv i) h val
  have pending := written.wr (F.CMP_H_STATUS_PENDING_ENABLE h) 0 (Fld.apart_row rfl)
  have shuts := State.Reads.written pending.inv (F.CMP_H_STATUS_SHUTTING_DOWN h) 1 (isDiscovery_head h.isLt rfl rfl)
    (Nat.le_of_ble_eq_true rfl)
  exact ⟨after.reads (pending.wr _ _ (Fld.apart_row rfl)) (steady_head h.isLt rfl rfl),
    after.reads shuts (steady_head h.isLt rfl rfl), by rw [after.cmp, State.wr_cmp, waits]⟩

end

/-- Settles O36 (R309, R311 to R313, R317, R326), command by command. The bytes of the payload identifier are the model's reading of
SMPTE ST 352 (log entry 142). That the boundary and the holdover come when the environment says, that the first boundary starts the
serialisers, and that a line which ran short belongs to the frame in progress, are the model's choices (log entries 63, 119, 59). -/
theorem headsComplete : Obligations.HeadsComplete := by
  refine ⟨fun l n ed i e s u hn he awake next good fe => ?_, fun h cancel s idle clear en awake none => ?_,
    fun h s i run => ⟨?_, ?_, ?_, fun line col => ?_⟩, fun src h val s i hg valid same => ⟨?_, ?_⟩⟩
  · exact layerTile_completes hn he awake next good fe
  · obtain ⟨t, next, started, payload⟩ := frameBoundary_first_completes (cancel := cancel) idle clear en awake none
    exact ⟨t, next, started.running, started.short, payload⟩
  · exact fun synced => syncHoldover_lost_completes i run synced
  · exact fun lost => syncHoldover_returns_completes i run lost
  · exact syncHoldover_slewed_completes i run
  · exact headUnderrun_completes i run line col
  · exact fun off en clear => headEnable_on_completes i hg valid same off en clear
  · exact fun on en run => headEnable_off_completes i hg valid same on en run

end Sys2Proof.Machine
end

section
/-! SUPPORT. O37 fails. Its clause on GO lacks a hypothesis on its state: that the tables a layer names do not lie in the control space,
where the write of the command changes them. -/

namespace Sys2Proof.Machine

/-! ### A coefficient table in the control space (R129, R321) -/

/-- Table 1 is a horizontal POLYPHASE table of one byte, which the fabric map shows of CUX_SYNC_SEQ. -/
def syncSeqTable : Table := { id := 1, kind := 4, bodyLen := 1, addr := 0x200000000 + F.CUX_SYNC_SEQ_SEQ.off }

/-- Table 2 is a PIXFMT table in the tile store, at address 0. -/
def onePixelTable : Table := { id := 2, kind := 6, bodyLen := 32 }

/-- Morning, with the host's link up and an image of a node of head 0 with one layer of those tables. The picture is one pixel, which
the shadows of layer 0 take as it is, and they name table 1. -/
def syncSeqLayer : State :=
  ((((((State.reset.wr F.PWR_STATUS_DAY 2).wr F.HIF_STATUS_LINK 1).setReg ((F.CMP_L_CTRL_VISIBLE 0).off + 8) 0x00010001).setReg
    ((F.CMP_L_CTRL_VISIBLE 0).off + 16) 0x00010001).setReg ((F.CMP_L_CTRL_VISIBLE 0).off + 20) 1).setBytes 6 [1, 0, 1]).setStr
      { active := some { tables := [syncSeqTable, onePixelTable], nodes := [{ kind := 6, inPorts := 1, tref := [2] }] } }

/-- R413: the byte is 0 before the host writes GO. -/
theorem syncSeqTable_before_go : (syncSeqLayer.copyTables (syncSeqLayer.shadow 0)).coefH = [0] := by decide +kernel

/-- R321, R413: the write of GO takes the next SYNC_SEQ, and the commit copies the table as it stands then (log entry 61). -/
theorem syncSeqTable_copied : (((syncSeqLayer.writeReg .host (F.CMP_H_COMMIT_GO 0) (1 ||| 0x80000000)
    fun s => s.commitWrite 0 (1 ||| 0x80000000)).layer 0).pend.map LayerCfg.coefH) = some [1] := by
  decide +kernel

/-- Refutes O37: GO's own write, which is mirrored before it takes effect (log entry 12), changes the table that the layer's commit
copies. The clause on GO lacks that the tables of the layer do not lie in the control space (`State.PlainTable`). -/
theorem not_commitsComplete : ¬ Obligations.CommitsComplete := by
  rintro ⟨go, -⟩
  have passes : syncSeqLayer.Passes .host (F.CMP_H_COMMIT_GO 0) := by
    unfold State.Passes
    decide +kernel
  obtain ⟨t, next, layer⟩ := go .host 0 0 1 syncSeqLayer passes (by decide) (by decide) (by decide +kernel) (by decide +kernel)
  obtain rfl : syncSeqLayer.writeReg .host (F.CMP_H_COMMIT_GO 0) (1 ||| 0x80000000)
    (fun s => s.commitWrite 0 (1 ||| 0x80000000)) = t := Host.Outcome.next.inj next
  have copied := syncSeqTable_copied.symm.trans (congrArg (fun v => v.pend.map LayerCfg.coefH) layer)
  exact absurd (copied.trans (congrArg some syncSeqTable_before_go)) (by decide)

end Sys2Proof.Machine
end
